-- ==== Sys2Proof/Word.lean ====
section
/-!
DEFINITION. The word types of the HN4896 control space: registers are 32 bits wide and little-endian (00_scope.md, reading conventions).
-/

namespace Sys2Proof

/-- A 32-bit register or field word (R13, 00_scope.md). -/
abbrev Word := BitVec 32

/-- One byte of a memory or of the Rind store. -/
abbrev Byte := BitVec 8

/-- A 64-bit memory word, or a device-time value (R31, R349). -/
abbrev DWord := BitVec 64

end Sys2Proof
end

