-- ==== Sys2Proof/Operands.lean ====
section
/-!
DEFINITION. Operand types of the commands: who submits, what an NVMe command carries, what a device or line reports.
-/

namespace Sys2Proof

/-- The submitter of an admin command: port, function (0 PF, 1–63 VF) and command identifier. -/
structure Src where
  port : Nat
  fn : Nat
  cid : Nat
  deriving DecidableEq, Repr

/-- A zone send action (R88). -/
inductive ZAct where
  | open_ | close | finish | reset | offline
  deriving DecidableEq, Repr

/-- How an SPDM request arrives (R392): over MCTP through MGMT, or through Security Send and Receive at a controller. -/
inductive Via where
  | mctp
  | host (c : Src)
  deriving DecidableEq, Repr

/-- Reservation commands, with their fields (R59; actions and types as the NVMe specifications give them). -/
inductive ResvAct where
  | register (host action : Nat) (ignoreKey : Bool) (crkey nrkey : Nat) (ptpl : Bool)
  | acquire (action rtype crkey prkey : Nat)
  | release (action rtype crkey : Nat)
  | report
  deriving DecidableEq, Repr

/-- I/O command kinds (Table 2.6). -/
inductive IoOp where
  | read | write | append | writeZeroes | deallocate | verify | zoneSend | zoneReceive | flush | secureDiscard
  | resv (a : ResvAct)
  deriving DecidableEq, Repr

/-- An I/O command as its submission queue entry spells it. -/
structure IoCmd where
  op : IoOp
  cid : Nat
  nsid : Nat
  /-- First LBA; for zone management, an LBA of the zone. -/
  slba : Nat
  /-- Number of logical blocks, as a natural number. -/
  nlb : Nat
  act : ZAct
  /-- Select All (R88). -/
  all : Bool
  /-- Key Per I/O key tag (R374, R388). -/
  keyTag : Option Nat
  /-- Directive type 2: placement identifier as reclaim group and handle index (R97, R98). -/
  place : Option (Nat × Nat)
  /-- Host data, one value per logical block. -/
  data : List Nat
  /-- The 64-byte submission queue entry, as it is written to the admin ring (Table 2.18). -/
  sqe : List Byte
  deriving DecidableEq, Repr

/-- Actions of Virtualization Management: assign flexible queue pairs or vectors to a VF, take it offline, bring it online (R54). -/
inductive VirtAct where
  | assignQueues (n : Nat)
  | assignVectors (n : Nat)
  | offline
  | online
  deriving DecidableEq, Repr

/-- What the strobe buffer of a job's context holds (R177, R187, R192, R194), as the job command reports it. -/
inductive DetObs where
  /-- HARD: the codeword's bits. -/
  | hard (bits : List Bool)
  /-- SOFT: each cell's bits at positions −D to +D. -/
  | soft (cells : List (List Bool))
  /-- The class reads of NEIGHBOUR: each cell's class codes at −Δ, 0 and +Δ of wordlines n − 1 and n + 1. Codes of a neighbour that needs no
  class read are ignored. -/
  | classes (cells : List ((Nat × Nat × Nat) × (Nat × Nat × Nat)))
  /-- A full-level read of a pilot wordline on one plane, for its read-after-write sample: each cell's level (R243). -/
  | levels (cells : List Nat)
  /-- PILOT, full: per point, each pilot cell's level and the level read. -/
  | pilotFull (points : List (List (Nat × Nat)))
  /-- PILOT, quick: per point, each pilot cell's level and the page bit read. -/
  | pilotQuick (points : List (List (Nat × Bool)))
  /-- SWEEP: each cell's level and its bits at points −K to +K. -/
  | sweep (cells : List (Nat × List Bool))
  /-- An uncorrectable strobe-buffer word (R200). -/
  | bufferUe
  deriving DecidableEq, Repr

/-- What a configuration request asks (R49, R50, R55): to read, to place the function in D3hot or D0, to enable or disable PTM, or
anything else. -/
inductive CfgAsk where
  | read
  | power (d3hot : Bool)
  | ptm (on : Bool)
  | other
  deriving DecidableEq, Repr

/-- A configuration request: its function and what it asks (R55). -/
structure CfgReq where
  fn : Nat
  ask : CfgAsk
  deriving DecidableEq, Repr

/-- A write of CC.EN: with it the other fields of CC, and AQA, ASQ and ACQ as the host has written them (R56). -/
structure CcWrite where
  en : Bool
  cc : Word
  aqa : Word
  asq : DWord
  acq : DWord
  deriving DecidableEq, Repr

/-- A LUN that did not become ready in time, and, of the targets that its Reset LUN has calibrated anew, whether training succeeds
(R150, R155). -/
structure LateLun where
  die : Nat
  trainOk : BitVec 4
  deriving DecidableEq, Repr

/-- The data of a fabric write with the check byte of its 8-byte word (R20). -/
structure Flit where
  data : Nat
  chk : Byte
  deriving DecidableEq, Repr

/-- How a decode ends, as the decoder reports it. -/
inductive DecOut where
  /-- Zero syndrome and a tag check that passes; the corrected bits, the largest over a sample's codewords. -/
  | good (corrected : Nat)
  /-- The iteration limit is reached, or a CRC fails (R208). -/
  | fail
  /-- The codeword is intact but its tag's identity, or a sample's content, is not the expected one (R209, R229). -/
  | mismatch
  /-- An uncorrectable input word (R210). -/
  | inputUe
  deriving DecidableEq, Repr

end Sys2Proof
end

