-- ==== Sys2Proof/Syntax.lean ====
section
/-!
DEFINITION. The commands of the block: one constructor per row of the opcode table, with the operands that the outside world, the
host, a master or an engine gives it. Events carry what the hardware around the block decides: measured values, results of the
flash, levels of balls.
-/

namespace Sys2Proof

/-- The commands (spec/opcode_table.json). -/
inductive Instr where
  /-- PGOOD_RISE (R455): PGOOD goes high with PD0 out of power-on reset, and the domain start-up sequence begins. -/
  | pgoodRise (supplyLost : Bool)
  /-- PGOOD_FALL (R506): PGOOD falls, which acts as a SYS_RESET_N assertion and runs no flush. -/
  | pgoodFall
  /-- SYS_RESET_ASSERT (R456): SYS_RESET_N is asserted: the flash balls go safe, every domain but PD0 goes OFF without draining, and
  requests in flight are lost. -/
  | sysResetAssert
  /-- SYS_RESET_RELEASE (R44): SYS_RESET_N rises; the host-port straps are sampled and held. -/
  | sysResetRelease (dualPort refclk1 sris : Bool)
  /-- STARTUP_SLOT (R455): The 20 µs slot timer of the start-up sequence starts the next domain in Table 15.5 order. -/
  | startupSlot
  /-- INTERNAL_RESET (R456): An internal reset takes effect after its power-fail flush: every domain but PD0 goes OFF and the ROM
  restarts. -/
  | internalReset
  /-- RESET_WRITE (R442): A write of RIND_BOOTCTL.RESET requests an internal reset, which first runs the power-fail flush. -/
  | resetWrite (m : Nat) (v : Word)
  /-- NVM_SUBSYSTEM_RESET (R433): An NVM Subsystem Reset is performed as an internal reset, and pending images and layouts are tried at
  the next ROM start. -/
  | nvmSubsystemReset (p fn : Nat)
  /-- FABMON_UPDATE (R30): Every 1 µs while PD0 is ON, ID_FABMON is updated from the replica delay line. -/
  | fabmonUpdate (grant hop : Nat)
  /-- ID_TIME_LO_READ (R32): A read of ID_TIME_LO returns device time bits 31:0 and latches bits 63:32 for the reading master. -/
  | idTimeLoRead (m : Nat)
  /-- HOSTIF_PTM_LO_READ (R32): A read of HOSTIF_PTM_LO_p returns the offset low word and latches the high word for the reading master.
  -/
  | hostifPtmLoRead (m p : Nat)
  /-- MAPU_VER_LO_READ (R309): A read of MAPU_VER_LO latches version counter bits 47:32 into MAPU_VER_HI for the reading master. -/
  | mapuVerLoRead (m : Nat)
  /-- AFFINEUR_MTIME_LO_READ (R335): A read of AFFINEUR_MTIME_LO latches the upper half of media time for the reading master. -/
  | affineurMtimeLoRead (m : Nat)
  /-- PWR_LW_TIME_LO_READ (R454): A read of PWR_LW_TIME_LO_d latches the upper half of the wake time for the reading master. -/
  | pwrLwTimeLoRead (m n : Nat)
  /-- KV_SLOT_CTR_LO_READ (R394): A read of KV_SLOT_CTR_LO latches the upper counter bits of the selected slot for the reading master.
  -/
  | kvSlotCtrLoRead (m : Nat)
  /-- REGISTER_WRITE (R35): A write to a register that has no row of its own is checked in R523 order and takes effect or is refused. -/
  | registerWrite (m a : Nat) (v : Word)
  /-- MEMORY_READ (R351): A read of an SRAM or DRAM word is corrected, refused with UNRECOVERED, or reported as a poisoned read,
  according to its syndrome. -/
  | memoryRead (m a size : Nat) (fetch : Bool)
  /-- MEMORY_WRITE (R349): A full 64-bit write stores its data with the check bits carried in its flit and clears any poison. -/
  | memoryWrite (m a : Nat) (data : DWord) (chk : Byte)
  /-- PARTIAL_WRITE (R353): A write of fewer than 8 bytes is carried out as a locked read, merge and write, or poisons the word. -/
  | partialWrite (m a : Nat) (bytes : List Byte)
  /-- ITEM_ARG_WRITE (R347): A master writes an argument register of a CURD, KEYVAULT, CIPHERk, EVREC or HOSTIF item, or has that write
  discarded with FLUSHED after a flush. -/
  | itemArgWrite (m a : Nat) (v : Word)
  /-- PERST_ASSERT (R57): PERSTp_N is asserted: that port's link and controllers are reset. -/
  | perstAssert (p : Nat)
  /-- PERST_RELEASE (R55): PERSTp_N is released, which starts the port's power-up timeline and link training. -/
  | perstRelease (p : Nat)
  /-- LINK_TRAINING_DONE (R46): A port finishes link training at the highest common rate and width and reaches L0. -/
  | linkTrainingDone (p rate width : Nat) (flit : Bool)
  /-- CONFIG_REQUEST (R55): A PCIe configuration request is answered with Request Retry Status or answered normally, according to the
  boot step. -/
  | configRequest (p : Nat) (req : CfgReq)
  /-- BOOT_CONFIG_TIMEOUT (R55): At t0 + 900 ms with FW_UP still clear, the ROM answers configuration requests and presents CAP, VS and
  CC, with RDY held at 0. -/
  | bootConfigTimeout (p : Nat)
  /-- FW_UP_SET (R55): Firmware sets HOSTIF_BOOT.FW_UP, and the controllers are handed to firmware. -/
  | fwUpSet (m : Nat)
  /-- CC_EN_WRITE (R56): The host writes CC.EN; the value is kept and the CAP.TO window starts. With it the other fields of CC, and AQA,
  ASQ and ACQ as the host has written them. -/
  | ccEnWrite (p fn : Nat) (w : CcWrite)
  /-- CC_SHN_WRITE (R78): The host writes a non-zero CC.SHN, which sets the SHN status for firmware. -/
  | ccShnWrite (p fn shn : Nat)
  /-- LINK_WIDTH_REDUCE (R48): After 100 µs below 25 % utilisation, the port requests an L0p width reduction unless an S0 Kennel is
  bound. -/
  | linkWidthReduce (p : Nat)
  /-- L1_2_ENTRY (R49): The link enters L1.2 and the port's domain enters RET. -/
  | l12Entry (p : Nat)
  /-- CLKREQ_WAKE (R49): CLKREQ_N is asserted in L1.2, and the sideband monitor wakes the port domain with source LINK. -/
  | clkreqWake (p : Nat)
  /-- PTM_REFRESH (R50): A PTM dialogue refreshes the port's offset between device time and PTM responder time. -/
  | ptmRefresh (p : Nat) (offset : DWord)
  /-- PTM_FAIL (R50): The offset has not been refreshed within 10 ms while PTM is enabled, which sets PTM_FAIL. -/
  | ptmFail (p : Nat)
  /-- FUNCTION_LEVEL_RESET (R62): An FLR discards the function's undispatched commands without completion and discards the results of
  dispatched ones. -/
  | functionLevelReset (p fn : Nat)
  /-- CONTROLLER_LEVEL_RESET (R62): A Controller Level Reset discards undispatched commands; zone write pointers follow R106. -/
  | controllerLevelReset (p fn : Nat)
  /-- DOORBELL_WRITE (R120): A host doorbell write makes commands visible, stamps their doorbell time, and HOSTIF fetches them. -/
  | doorbellWrite (p fn sq : Nat) (cmds : List IoCmd)
  /-- COMPLETION_ITEM_POST (R78): A write to HOSTIF_ACPL completes the item, and HOSTIF writes and signals the completion entry. -/
  | completionItemPost (m : Nat) (v : Word)
  /-- HOSTIF_CCTL_WRITE (R78): A write to HOSTIF_CCTL sets CSTS.RDY, SHST or CFS of the selected controller; it is ignored while FW_UP =
  0. -/
  | hostifCctlWrite (m : Nat) (v : Word)
  /-- ADMIN_EN_WRITE (R78): A write to HOSTIF_CTRL.ADMIN_EN starts admin ring delivery; it is ignored when the ring size is below 2. -/
  | adminEnWrite (m : Nat) (v : Word)
  /-- READ (R41): A Read command passes the read path steps of Table 12. -/
  | read (tag : Nat)
  /-- WRITE (R38): A Write command passes the write path steps of Table 11. -/
  | write (tag : Nat)
  /-- ZONE_APPEND (R99): A Zone Append is assigned the write pointer at admission and is then written like a Write. -/
  | zoneAppend (tag : Nat)
  /-- WRITE_ZEROES (R274): A Write Zeroes takes a SEQ value and sets the range to UNMAPPED. -/
  | writeZeroes (tag : Nat)
  /-- DATASET_MANAGEMENT (R274): A deallocate takes a SEQ value and sets the range's map entries to UNMAPPED with an UNMAP record. -/
  | datasetManagement (tag : Nat)
  /-- VERIFY (R59): A Verify command is served as listed among the supported I/O commands. -/
  | verify (tag : Nat)
  /-- FLUSH (R59): A Flush completes at once, because no volatile write cache is present. -/
  | flush (c : Src) (sq nsid : Nat)
  /-- SECURE_DISCARD (R303): A Secure Discard unmaps a conventional range at once and starts erasing every older copy. -/
  | secureDiscard (tag : Nat)
  /-- SECURE_DISCARD_COMPLETE (R304): Once every affected superblock has been relocated, erased and verified, a DONE record is placed
  and the discard completes. -/
  | secureDiscardComplete (p : Nat)
  /-- ZONE_OPEN (R88): Zone Management Send Open moves a zone to Explicitly Opened where Table 3.4 allows it. -/
  | zoneOpen (tag : Nat)
  /-- ZONE_CLOSE (R88): Zone Management Send Close moves a zone to Closed, or to Empty, and parks its partial row. -/
  | zoneClose (tag : Nat)
  /-- ZONE_FINISH (R88): Zone Management Send Finish pads the current stripe row, programs its parity and makes the zone Full. -/
  | zoneFinish (tag : Nat)
  /-- ZONE_RESET (R108): Zone Management Send Reset records the zone as Empty with a new superblock; a secure reset instead erases every
  copy first. -/
  | zoneReset (tag : Nat)
  /-- SECURE_RESET_COMPLETE (R110): Every copy of a securely reset zone has been erased and verified; the zone enters Empty and the
  reset completes. -/
  | secureResetComplete (p : Nat)
  /-- ZONE_OFFLINE (R88): Zone Management Send Offline moves a Read Only zone to Offline and erases its blocks in the background. -/
  | zoneOffline (tag : Nat)
  /-- REPORT_ZONES (R82): Zone Management Receive reports each zone's state, write pointer and ZCAP. -/
  | reportZones (c : Src) (sq nsid lba count : Nat)
  /-- ZONE_FRL_EXPIRY (R88): A zone has been open for FRL; attribute FZR is set and a Zone Descriptor Changed event is posted. -/
  | zoneFrlExpiry (nsid z : Nat)
  /-- ZONE_FORCED_FINISH (R88): A zone has been open for 2 × FRL and is finished, with ZFC set. -/
  | zoneForcedFinish (nsid z : Nat)
  /-- PARK_IDLE_EXPIRY (R93): No write has reached a zone for the park idle time, so its partial row is parked. -/
  | parkIdleExpiry (nsid z : Nat)
  /-- ZONE_WRITE_FAIL (R101): A write fails after assignment and before protection; the write pointer moves back and later commands fail
  with Zone Invalid Write. -/
  | zoneWriteFail (tag : Nat) (ue : Bool)
  /-- NAMESPACE_CREATE (R85): Namespace Management create checks size and capacity, sets up keys and writes a new volume descriptor
  generation. -/
  | namespaceCreate (c : Src) (zoned : Bool) (nsze width : Nat) (kpio : Bool) (handles : Nat)
  /-- NAMESPACE_DELETE (R390): Namespace Management delete clears the namespace key slot and erases its wrapped copy. -/
  | namespaceDelete (c : Src) (nsid : Nat)
  /-- NAMESPACE_ATTACH (R53): Namespace Attachment fails with Kennel Mismatch when the controller's Kennel is not bound to the
  namespace. -/
  | namespaceAttach (c : Src) (nsid : Nat) (attach : Bool) (ids : List Nat)
  /-- GET_LOG_PAGE (R75): Get Log Page returns a log page, taking a snapshot of a vendor page at offset 0. -/
  | getLogPage (c : Src) (lid lsi off len : Nat)
  /-- IDENTIFY (R59): Identify reports the supported features and limits of Table 2.6. -/
  | identify (c : Src) (cns nsid : Nat)
  /-- SET_FEATURES_TIMESTAMP (R312): Set Features Timestamp moves media time forward, or sets TIME_BACK when the timestamp is not later.
  -/
  | setFeaturesTimestamp (c : Src) (save : Bool) (ms : Nat)
  /-- GET_FEATURES_TIMESTAMP (R312): Get Features Timestamp returns media time in milliseconds with its origin. -/
  | getFeaturesTimestamp (c : Src)
  /-- SET_FEATURES_ZONE_RESET_MODE (R109): Set Features vendor feature 0xC0 sets the SECURE reset mode of a zoned namespace. -/
  | setFeaturesZoneResetMode (c : Src) (nsid : Nat) (save secure : Bool)
  /-- SET_FEATURES_FDP (R96): Set Features enables FDP on the endurance group, only before any namespace exists. -/
  | setFeaturesFdp (c : Src) (on save : Bool)
  /-- SET_FEATURES_POWER_STATE (R60): A change of NVMe power state lowers the concurrent program and erase limit in proportion. -/
  | setFeaturesPowerState (c : Src) (ps : Nat) (save : Bool)
  /-- HMB_ENABLE (R301): The host enables a Host Memory Buffer, and MAPU rebuilds that port's map content before serving I/O. -/
  | hmbEnable (c : Src) (units : Nat)
  /-- HMB_MAP_REBUILD_DONE (R301): MAPU has sealed and written the last segment, and the conventional namespace serves I/O. -/
  | hmbMapRebuildDone (p : Nat)
  /-- HMB_DISABLE (R65): Set Features disabling the HMB finishes dispatched commands, commits the journal and stops buffer access before
  completing. -/
  | hmbDisable (c : Src)
  /-- VIRTUALIZATION_MANAGEMENT (R54): Virtualization Management assigns flexible queue and vector resources to VF controllers. -/
  | virtualizationManagement (c : Src) (vf : Nat) (a : VirtAct)
  /-- NVME_ABORT (R124): An Abort removes a held command, or reports not aborted when the command has been dispatched. -/
  | nvmeAbort (c : Src) (sq cid : Nat)
  /-- FIRMWARE_IMAGE_DOWNLOAD (R59): Firmware Image Download transfers image bytes at the 4 KiB granularity. -/
  | firmwareImageDownload (c : Src) (off : Nat) (bs : List Byte)
  /-- FIRMWARE_COMMIT (R433): Firmware Commit appends a boot record that names the pending image and requires a subsystem reset. -/
  | firmwareCommit (c : Src) (slot action : Nat)
  /-- FORMAT_NVM (R391): Format NVM formats a namespace; with secure erase setting 2 it crypto-erases under new keys. -/
  | formatNvm (c : Src) (nsid ses : Nat)
  /-- SANITIZE_BLOCK_ERASE (R264): Sanitize block erase erases the media and creates a new 1.0 volume. -/
  | sanitizeBlockErase (c : Src)
  /-- SANITIZE_CRYPTO_ERASE (R391): Sanitize crypto erase regenerates namespace keys, clears KPIO slots, resets zones and writes a new
  volume generation. -/
  | sanitizeCryptoErase (c : Src)
  /-- KEY_INJECTION (R388): Security Send Key Per I/O injects a wrapped media key into a slot bound to the injecting Kennel. -/
  | keyInjection (c : Src) (tag kek : Nat) (kwp : Bool) (wrapped : List Byte)
  /-- RESERVATION_REGISTER (R59): Reservation Register adds, replaces or removes a registrant, and the registrant persists through power
  loss. -/
  | reservationRegister (c : Src) (sq nsid host action : Nat) (ignoreKey : Bool) (crkey nrkey : Nat) (ptpl : Bool)
  /-- RESERVATION_ACQUIRE (R59): Reservation Acquire takes or pre-empts a reservation. -/
  | reservationAcquire (c : Src) (sq nsid action rtype crkey prkey : Nat)
  /-- RESERVATION_RELEASE (R59): Reservation Release releases or clears a reservation. -/
  | reservationRelease (c : Src) (sq nsid action rtype crkey : Nat)
  /-- RESERVATION_REPORT (R59): Reservation Report returns the reservation state. -/
  | reservationReport (c : Src) (sq nsid : Nat)
  /-- LAYOUT_TRANSFER (R70): Layout Update action 0x01 transfers stream bytes at an offset. -/
  | layoutTransfer (c : Src) (off : Nat) (bs : List Byte)
  /-- LAYOUT_VERIFY_STAGE (R70): Layout Update action 0x02 checks, verifies and stages a stream into the inactive layout slot. -/
  | layoutVerifyStage (c : Src)
  /-- LAYOUT_DISCARD (R430): Layout Update action 0x03 appends a record that removes the pending layout. -/
  | layoutDiscard (c : Src)
  /-- KENNEL_SET (R115): Kennel Configure set creates or changes a Kennel from its descriptor. -/
  | kennelSet (c : Src) (k : Nat) (bs : List Byte)
  /-- KENNEL_DELETE (R118): Kennel Configure delete removes an unbound Kennel and clears its KPIO key slots. -/
  | kennelDelete (c : Src) (k : Nat)
  /-- KENNEL_READ (R71): Kennel Configure read returns the Kennel descriptor. -/
  | kennelRead (c : Src) (k : Nat)
  /-- KENNEL_BIND_FUNCTION (R52): Kennel Configure binds a function to a Kennel for commands fetched after the completion. -/
  | kennelBindFunction (c : Src) (k port fn : Nat)
  /-- KENNEL_BIND_NAMESPACE (R116): Kennel Configure binds a namespace to a Kennel within the binding limits. -/
  | kennelBindNamespace (c : Src) (k nsid : Nat)
  /-- KENNEL_UNBIND_NAMESPACE (R116): Kennel Configure unbinds a namespace from a Kennel. -/
  | kennelUnbindNamespace (c : Src) (k nsid : Nat)
  /-- UNIT_TAKE_OUT (R72): Unit Service take-out marks a die, channel or detector out of service and starts rebuilding its data. -/
  | unitTakeOut (c : Src) (type n : Nat)
  /-- UNIT_RETURN (R169): Unit Service return runs power-on, profile check, reset, identity check, training and erase-verify of the
  unit. -/
  | unitReturn (c : Src) (type n : Nat)
  /-- UNIT_QUERY (R77): Unit Service query returns the unit state code. -/
  | unitQuery (c : Src) (type n : Nat)
  /-- EVREC_CTRL_FLUSH (R484): Event Recorder Control action 0x01 flushes the buffered records into the Rind store. -/
  | evrecCtrlFlush (c : Src)
  /-- EVREC_CTRL_CLEAR (R486): Event Recorder Control action 0x02 erases the event region. -/
  | evrecCtrlClear (c : Src)
  /-- EVREC_SET_RATE_LIMIT (R482): Event Recorder Control action 0x03 sets the rate and burst of an event code. -/
  | evrecSetRateLimit (c : Src) (code rate burst : Nat)
  /-- EVREC_READ_RATE_LIMIT (R482): Event Recorder Control action 0x04 returns the rate and burst of an event code. -/
  | evrecReadRateLimit (c : Src) (code : Nat)
  /-- DEBUG_GET_CHALLENGE (R73): Debug Unlock action 0x01 returns a fresh challenge block. -/
  | debugGetChallenge (c : Src)
  /-- DEBUG_SUBMIT_RESPONSE (R73): Debug Unlock action 0x02 verifies a signature and unlocks debug or counts a failure. -/
  | debugSubmitResponse (c : Src) (sig : List Byte)
  /-- DEBUG_CHALLENGE_EXPIRY (R73): A Debug Unlock challenge expires after 60 s. -/
  | debugChallengeExpiry (jtag : Bool)
  /-- ADMIT_COMMAND (R121): The HERDER admits the head command of a queue once every check of Table 4.2 passes. -/
  | admitCommand
  /-- HOLD_LONG_EXPIRY (R142): A Kennel's head command has been held for 1 s, which sets LONG_HOLD. -/
  | holdLongExpiry (k : Nat)
  /-- READ_DISPATCH (R125): A read reaches the head of its die queue and is dispatched or decided. -/
  | readDispatch (die : Nat)
  /-- BUSY_STATUS_RETURN (R152): The FCH answers a read to a busy LUN with BUSY_STATUS, and the HERDER decides afresh. -/
  | busyStatusReturn (die : Nat)
  /-- PWAIT_GUARD_EXPIRY (R126): A program or erase has waited PWAIT behind reads and is started after the reads in progress end. -/
  | pwaitGuardExpiry (die : Nat)
  /-- SUSPEND_TAKES_EFFECT (R134): The die reports the operation suspended, or complete, and queued strict reads start. -/
  | suspendTakesEffect (die : Nat) (complete pass verified : Bool)
  /-- SUSPEND_HOLD_EXPIRY (R129): The suspension has lasted t_hold, so the operation is resumed. -/
  | suspendHoldExpiry (die : Nat)
  /-- HOST_TRANSFER_DONE (R41): Read data reaches host memory and the completion is posted. -/
  | hostTransferDone (tag : Nat)
  /-- WRITE_DATA_STAGED (R39): A write's data and tags are in DRAM; its completion is posted when the dirty limit and lower LBAs allow
  it. -/
  | writeDataStaged (tag : Nat)
  /-- OPERATION_START (R43): The FCH takes a token, waits out the thermal pause and starts a program or erase. -/
  | operationStart (die : Nat)
  /-- FCH_PROFILE_WINDOW_WRITE (R148): A write to the FCH_PROF window loads profile words, and PROF_OK is set on a matching checksum. -/
  | fchProfileWindowWrite (m n i : Nat) (v : Word)
  /-- FCH_EN_WRITE (R148): A write of FCH_CTRL.EN starts the sequencer; it is ignored while PROF_OK = 0. -/
  | fchEnWrite (m n : Nat) (v : Word)
  /-- FCH_RETRAIN_WRITE (R156): A write of FCH_CTRL.RETRAIN retrains every target of the channel. -/
  | fchRetrainWrite (m n : Nat) (v : Word)
  /-- FCH_DRIVE_WRITE (R164): A write to FCH_DRIVE sets slew, impedance and ODT and retrains every target. -/
  | fchDriveWrite (m n : Nat) (v : Word)
  /-- STATUS_POLL (R149): A timed Read Status Enhanced poll queries a LUN's ready and pass/fail state. -/
  | statusPoll (die plane : Nat) (ready pass idOk : Bool) (trainOk : BitVec 4) (verified : Bool)
  /-- LUN_READY (R158): A poll reports a LUN ready: the operation completes, its token is returned and its result is handled. -/
  | lunReady (die plane : Nat) (pass idOk : Bool) (trainOk : BitVec 4) (verified : Bool)
  /-- DIE_TIMEOUT (R150): A LUN is not ready within twice its maximum; it gets Reset LUN and the operation is failed. -/
  | dieTimeout (lun : LateLun)
  /-- ZQ_CAL_SHORT_TIMER (R156): The ZQ interval expires and ZQ Calibration Short is issued to each target. -/
  | zqCalShortTimer (n : Nat)
  /-- RETRAIN_PERIOD_EXPIRY (R156): FCH_TRAIN.PERIOD hours pass and every target is retrained. -/
  | retrainPeriodExpiry (n : Nat)
  /-- TOKEN_REQUEST (R160): An FCH requests a power token from the pacer before a program or erase. -/
  | tokenRequest (die : Nat)
  /-- TOKEN_GRANT (R160): The pacer grants a waiting token request in arrival order, within the limit and the spacing. -/
  | tokenGrant
  /-- PACE_LIMIT_WRITE (R161): A change to FCH_PACE_LIMIT changes the effective limit without stopping any operation. -/
  | paceLimitWrite (m : Nat) (v : Word)
  /-- BRINGUP_START (R162): A write of FCH_PACE_BRINGUP.START starts the staggered reset waves, or is refused with ZERO_LEN. -/
  | bringupStart (m : Nat) (v : Word)
  /-- RESET_WAVE_START (R162): A wave's start time arrives and Reset is sent to each die of the wave. -/
  | resetWaveStart
  /-- THERMAL_PAUSE_END (R472): The pause in force since the previous start on a channel has passed, so the next array operation may
  start. -/
  | thermalPauseEnd (n : Nat)
  /-- DET_CONTEXT_GRANT (R197): The dispatcher grants a context in deadline order, and the page transfer starts. -/
  | detContextGrant
  /-- DET_JOB_DONE (R189): A detector job in HARD, SOFT, NEIGHBOUR, PILOT or SWEEP mode completes its output. -/
  | detJobDone (n ctx : Nat) (obs : DetObs) (fix : Nat)
  /-- DET_BIN_INVAL_WRITE (R183): A write to DET_BIN_INVAL removes one cached bin entry, or all of them, from every detector. -/
  | detBinInvalWrite (m : Nat) (v : Word)
  /-- DET_SELFTEST (R201): A write of DET_CTRL.SELFTEST runs the built-in self-test when no context is busy. -/
  | detSelftest (m n : Nat) (v : Word)
  /-- DET_SELFTEST_DONE (R201): The self-test ends, passing or setting SELFTEST_FAIL. -/
  | detSelftestDone (n : Nat) (pass : Bool)
  /-- DET_EN_WRITE (R203): A write of DET_CTRL.EN opens the detector to grants or stops grants as a take-out. -/
  | detEnWrite (m n : Nat) (v : Word)
  /-- DET_PROF_WRITE (R203): A write to DET_PROF sets the bits per cell and code family; it is ignored while any detector is enabled. -/
  | detProfWrite (m : Nat) (v : Word)
  /-- DECODE_DONE (R207): An LDPC decoder finishes a codeword and the tag check passes or fails. -/
  | decodeDone (run : Nat) (out : DecOut) (fix : Nat)
  /-- UNIT_REBUILD_CODEWORD (R227): The paced unit rebuild rebuilds and moves the next codeword of a taken-out unit. -/
  | unitRebuildCodeword (p : Nat) (ok : Bool)
  /-- XORU_ACC_UE (R213): An uncorrectable parity accumulator word makes XORU recompute the accumulator from the staged copies. -/
  | xoruAccUe
  /-- ZONE_MOVE_SWITCH (R270): A zone move finishes copying and switches SUPERBLOCK_ID, together with a MOVE record. -/
  | zoneMoveSwitch (nsid z : Nat) (lost : List Nat)
  /-- SEGMENT_VERIFY_FAIL (R280): A segment fails verification or fetch, and its rebuild from the journal starts. -/
  | segmentVerifyFail (seg : Nat)
  /-- SEGMENT_REBUILD_DONE (R280): A rebuilt segment is sealed and written, and the waiting reads are served. -/
  | segmentRebuildDone (seg : Nat)
  /-- MAPU_ENABLE (R277): A write of MAPU_CTRL.EN = 1 creates a fresh map key. -/
  | mapuEnable (m : Nat) (v : Word)
  /-- MAPU_REKEY (R283): A write of MAPU_CTRL.REKEY creates key g + 1 and starts resealing every segment. -/
  | mapuRekey (m : Nat) (v : Word)
  /-- REKEY_SWEEP_END (R283): The rekey sweep ends; key g is zeroised and REKEY_DONE is set. -/
  | rekeySweepEnd
  /-- MAPU_JFLUSH_WRITE (R292): A write of MAPU_CTRL.JFLUSH flushes the journal buffer now. -/
  | mapuJflushWrite (m : Nat) (v : Word)
  /-- JOURNAL_FLUSH_INTERVAL (R292): The journal flush interval expires and the buffer is flushed. -/
  | journalFlushInterval
  /-- JOURNAL_FLUSH_COMPLETE (R292): Both blocks of every lane have programmed and passed, so the flush completes. -/
  | journalFlushComplete
  /-- GC_MOVE_SWITCH (R288): A moved unit's map entry is switched by compare-and-set, together with its MAP record. -/
  | gcMoveSwitch (nsid lba : Nat) (lost : Bool)
  /-- MAP_RECOVERY (R299): At start, firmware recovers the map through anchor, dump, replay, tag scan, write pointers and resume. -/
  | mapRecovery
  /-- MEDIA_TIME_TICK (R310): Every 25,000,000 HK ticks, media time advances by one second. -/
  | mediaTimeTick
  /-- MEDIA_TIME_SAVE (R310): Every 600 s, media time is saved to the settings journal. -/
  | mediaTimeSave
  /-- TIMESTAMP_WAIT_EXPIRY (R315): No Timestamp arrives within 10 minutes of AFFINEUR_CTRL.EN, so an outage sweep starts. -/
  | timestampWaitExpiry
  /-- OUTAGE_SWEEP_START (R315): A write of AFFINEUR_CTRL.SWEEP starts a sweep of every block of the population. -/
  | outageSweepStart (m : Nat) (v : Word)
  /-- CADENCE_SAMPLE (R313): The Affineur schedules a full pilot estimate of the oldest-sampled block. -/
  | cadenceSample (points spacing : Nat)
  /-- REPORT_ESTIMATE (R319): A full estimate of a reported block is taken within 1 h at S3. -/
  | reportEstimate (points spacing : Nat)
  /-- BIN_LEARN_TIMEOUT (R184): After 24 h with at least 4 estimates, the bin offset is updated. -/
  | binLearnTimeout (i : Nat)
  /-- LEARNED_TABLE_WRITEBACK (R185): The changed learned drift-bin table is written back to the Rind store, at most daily. -/
  | learnedTableWriteback
  /-- REFRESH_START (R322): The Affineur starts the next queued refresh within its token cap. -/
  | refreshStart
  /-- BACKLOG_MIDNIGHT (R323): At media-time midnight, each Pack's backlog is recorded and the backlog flag is judged. -/
  | backlogMidnight
  /-- WEAR_TABLE_WRITE (R326): Every 24 h, the wear table is written as PRIVATE records. -/
  | wearTableWrite
  /-- CURD_ENABLE (R338): A write of CURD_CTRL.EN = 1 checks the class registers and initialises or resumes the pools. -/
  | curdEnable (m : Nat)
  /-- CURD_POOL_INIT_END (R338): The last buffer joins its free list, and INIT_BUSY clears. -/
  | curdPoolInitEnd
  /-- CURD_GRANT (R340): A grant request is served from the smallest fitting class, falling through, or returns EMPTY. -/
  | curdGrant (m n : Nat) (nofall hard : Bool)
  /-- CURD_SHARE (R344): The final holder adds a hold and passes final holdership to another master. -/
  | curdShare (m g : Nat) (hard : Bool) (ptr : Nat)
  /-- CURD_DROP (R344): A non-final holder drops its hold, possibly starting the release. -/
  | curdDrop (m : Nat) (hard : Bool) (ptr : Nat)
  /-- CURD_FREE (R344): The final holder frees a buffer, which is released or becomes PENDING. -/
  | curdFree (m : Nat) (hard : Bool) (ptr : Nat)
  /-- CURD_RELEASE_DONE (R345): A buffer's release action ends and it joins its free list, setting FREED_c. -/
  | curdReleaseDone (ptr : Nat)
  /-- CURD_EMPTY_RETRY (R342): A hardware master retries a grant when CURD broadcasts a freed buffer of a fitting class. -/
  | curdEmptyRetry
  /-- CURD_FLUSH_WRITE (R348): A write to CURD_FLUSH flushes a master's partial item. -/
  | curdFlushWrite (m : Nat) (v : Word)
  /-- DRAMC_ENABLE (R363): A write of DRAMC_CTRL.EN maps the data region, or is ignored with RANGE. -/
  | dramcEnable (m : Nat) (v : Word)
  /-- DRAMC_INIT (R356): A write of DRAMC_CTRL.INIT writes zeros with check bits over the data region. -/
  | dramcInit (m : Nat) (v : Word)
  /-- DRAMC_INIT_DONE (R356): DRAM initialisation ends, which sets INIT_DONE. -/
  | dramcInitDone
  /-- DRAM_TRAIN_FAIL (R357): A DRAM channel fails training, which sets TRAIN_FAIL. -/
  | dramTrainFail (k : Nat)
  /-- MEMCHK_SCRUB_GO (R358): A write of MEMCHK_SCRUB_CTRL.GO checks the range and starts a scrub. -/
  | memchkScrubGo (m : Nat)
  /-- MEMCHK_SCRUB_ABORT (R359): A write of ABORT stops the scrub after the present line. -/
  | memchkScrubAbort (m : Nat)
  /-- MEMCHK_SCRUB_DONE (R359): A scrub ends with its summary, and SCRUB_DONE is set. -/
  | memchkScrubDone
  /-- MEMCHK_TEST_WRITE (R360): Test OP 1 stores raw data and check bits at an address. -/
  | memchkTestWrite (m : Nat)
  /-- MEMCHK_TEST_READ (R360): Test OP 2 reads raw data and check bits without correction. -/
  | memchkTestRead (m : Nat)
  /-- KV_GENERATE (R367): The vault command GENERATE loads a fresh DRBG key into a slot. -/
  | kvGenerate (m : Nat) (v : Word)
  /-- KV_WRAP (R367): The vault command WRAP writes a slot's key wrapped under the storage KEK. -/
  | kvWrap (m : Nat) (v : Word)
  /-- KV_UNWRAP (R369): The vault command UNWRAP unwraps a key through the hardened engine into a slot. -/
  | kvUnwrap (m : Nat) (v : Word)
  /-- KV_CLEAR (R367): The vault command CLEAR zeroises a slot and raises its GEN. -/
  | kvClear (m : Nat) (v : Word)
  /-- KV_BIND (R367): The vault command BIND changes a slot's scope and Kennel. -/
  | kvBind (m : Nat) (v : Word)
  /-- KV_ERASE_ALL (R386): The vault command ERASE_ALL runs key erasure without an alarm. -/
  | kvEraseAll (m : Nat) (v : Word)
  /-- KEY_AREA_ERASE (R386): After the epoch bit, the Rind store key area is erased. -/
  | keyAreaErase
  /-- NS_KEY_RESTORE (R368): At start, firmware unwraps and checks each encrypted namespace's key. -/
  | nsKeyRestore
  /-- CIPHER_HOST_JOB (R372): A host-path encryption or decryption job is assigned to an engine and run. -/
  | cipherHostJob (tag : Nat)
  /-- CIPHER_XTS_ENCRYPT (R373): Firmware job OP 1 encrypts with AES-256-XTS. -/
  | cipherXtsEncrypt (m k slot : Nat)
  /-- CIPHER_XTS_DECRYPT (R373): Firmware job OP 2 decrypts with AES-256-XTS. -/
  | cipherXtsDecrypt (m k slot : Nat)
  /-- CIPHER_GCM_ENCRYPT (R377): Firmware job OP 3 encrypts with AES-256-GCM and takes the slot's counter. -/
  | cipherGcmEncrypt (m k slot : Nat)
  /-- CIPHER_GCM_DECRYPT (R378): Firmware job OP 4 decrypts with GCM, zeroing the output when the tag fails. -/
  | cipherGcmDecrypt (m k slot : Nat)
  /-- CIPHER_JOB_DONE (R379): A cipher job ends and its status is placed in CIPHER_JRSP. -/
  | cipherJobDone (k : Nat)
  /-- MASK_RESEED (R371): After 4,096 bytes, the DRBG reseeds an engine's mask generator, or MASK_STALE is set. -/
  | maskReseed (k : Nat)
  /-- DRBG_RESEED (R380): The DRBG reseeds from the entropy source each second, or stops with RESEED_FAIL. -/
  | drbgReseed (healthy : Bool)
  /-- ENTROPY_HEALTH_FAIL (R380): A health test fails, which discards the bits and restarts the start-up tests. -/
  | entropyHealthFail (kind : Nat)
  /-- SIGV_VERIFY (R381): A write of SIGV_CTRL.GO starts a fixed-time ECDSA verify. -/
  | sigvVerify (m : Nat) (v : Word)
  /-- SIGV_VERIFY_DONE (R381): The verify ends after 1.9 ms with RESULT and REASON. -/
  | sigvVerifyDone
  /-- SIGV_HASH (R381): A write of SIGV_CTRL.HASH streams a memory range through SHA-384. -/
  | sigvHash (m : Nat) (v : Word)
  /-- SIGV_HASH_DONE (R381): The hash ends with its digest in SIGV_DIGEST. -/
  | sigvHashDone
  /-- SIGV_RNG_DATA_READ (R380): A read of SIGV_RNG_DATA returns 32 DRBG bits, or waits while the DRBG is stopped. -/
  | sigvRngDataRead (m : Nat)
  /-- COLLAR_ENFORCE_SET (R383): A write of COLLAR_CTRL.ENFORCE makes the tables decide every access. -/
  | collarEnforceSet (m : Nat)
  /-- COLLAR_LOCK_SET (R383): A write of COLLAR_CTRL.LOCK freezes the tables and alarm policies. -/
  | collarLockSet (m : Nat)
  /-- ALARM (R385): A COLLAR, VOLTAGE, CLOCK, TEMPERATURE or TAMPER alarm is raised and its LOG, BLOCK or ERASE policy is applied. -/
  | alarm (src m : Nat)
  /-- GET_VERSION (R392): The SPDM GET_VERSION request is answered. -/
  | getVersion (via : Via)
  /-- GET_CAPABILITIES (R392): The SPDM GET_CAPABILITIES request is answered. -/
  | getCapabilities (via : Via) (version : Nat)
  /-- NEGOTIATE_ALGORITHMS (R392): The SPDM NEGOTIATE_ALGORITHMS request is answered with P-384 and SHA-384. -/
  | negotiateAlgorithms (via : Via) (p384 sha384 : Bool)
  /-- GET_DIGESTS (R392): The SPDM GET_DIGESTS request is answered. -/
  | getDigests (via : Via)
  /-- GET_CERTIFICATE (R392): The SPDM GET_CERTIFICATE request returns the slot-0 chain. -/
  | getCertificate (via : Via) (slot off len : Nat)
  /-- CHALLENGE (R392): The SPDM CHALLENGE request is answered with a response signed by the attestation key. -/
  | challenge (via : Via) (slot : Nat) (nonce : List Byte)
  /-- GET_MEASUREMENTS (R392): The SPDM GET_MEASUREMENTS request returns the measurements of Table 12.6. -/
  | getMeasurements (via : Via) (i : Nat) (signed : Bool) (nonce : List Byte)
  /-- FILTERED_LEVEL_CHANGE (R405): An external input's filtered level changes after N consecutive samples. -/
  | filteredLevelChange (i : Nat) (level : Bool)
  /-- PENDING_SET_ALIAS (R407): A write to a pending SET alias sets the written bits. -/
  | pendingSetAlias (m j : Nat) (v : Word)
  /-- PENDING_CLEAR_ALIAS (R407): A write to a pending CLEAR alias clears the written bits, set-dominant. -/
  | pendingClearAlias (m j : Nat) (v : Word)
  /-- MASK_WRITE (R411): A write to a mask word or its aliases changes masks, effective 40 ns after the response. -/
  | maskWrite (m j kind : Nat) (v : Word)
  /-- WH_CLAIM (R409): A read of WH_CLAIM returns and clears the highest-priority eligible source. -/
  | whClaim (m x : Nat) (old : Bool)
  /-- WH_ROUTE_WRITE (R411): A write to WH_ROUTE_s changes a source's target, mode and priority. -/
  | whRouteWrite (m src : Nat) (v : Word)
  /-- WH_THRESH_WRITE (R411): A write to WH_THRESH changes a context's threshold. -/
  | whThreshWrite (m x : Nat) (v : Word)
  /-- WH_XCFG_WRITE (R405): A write to WH_XCFG_i changes an input's filter, edge mode or polarity. -/
  | whXcfgWrite (m i : Nat) (v : Word)
  /-- WH_MTIMECMP_LO_WRITE (R413): A write to the low word of WH_MTIMECMP_c is held until the next high-word write. -/
  | whMtimecmpLoWrite (m h : Nat) (v : Word)
  /-- WH_MTIMECMP_HI_WRITE (R413): A write to the high word of WH_MTIMECMP_c sets the 64-bit compare. -/
  | whMtimecmpHiWrite (m h : Nat) (v : Word)
  /-- TIMER_COMPARE_REACHED (R413): Device time reaches WH_MTIMECMP_c, which raises mip.MTIP. -/
  | timerCompareReached (h : Nat)
  /-- WH_MSIP_WRITE (R413): A write to WH_MSIP_c drives a hart's software interrupt. -/
  | whMsipWrite (m h : Nat) (v : Word)
  /-- WHISTLE_WAKE (R414): An eligible source or a timer or software interrupt of a saved cluster wakes the cluster. -/
  | whistleWake (k : Nat)
  /-- RIND_PROGRAM (R420): RIND_CMD PROGRAM writes up to 256 bytes into a page after its checks. -/
  | rindProgram (m : Nat)
  /-- RIND_ERASE (R421): RIND_CMD ERASE erases a sector unless it is locked. -/
  | rindErase (m : Nat)
  /-- RIND_LOCK (R422): RIND_CMD LOCK sets a sector's lock bit. -/
  | rindLock (m : Nat)
  /-- RIND_UNLOCK (R423): RIND_CMD UNLOCK clears a lock bit with the right password, or locks password entry. -/
  | rindUnlock (m : Nat)
  /-- RIND_SET_PW (R422): RIND_CMD SET_PW sets the password once. -/
  | rindSetPw (m : Nat)
  /-- RIND_ABORT (R421): RIND_CMD ABORT stops a running erase, leaving the sector undefined. -/
  | rindAbort (m : Nat)
  /-- RIND_OP_DONE (R418): A Rind store operation ends and DONE is set. -/
  | rindOpDone
  /-- RIND_WINDOW_READ (R419): A read of the window during an operation returns RIND_STAT words and sets WAS_STATUS. -/
  | rindWindowRead (m off size : Nat)
  /-- ROM_START (R435): The boot ROM starts, writes SRAM, reads and appends a boot record, and begins attempts. -/
  | romStart
  /-- BOOT_ATTEMPT (R436): A boot attempt checks an image and layout and releases core 0, or fails. -/
  | bootAttempt
  /-- BOOT_BACKOFF_EXPIRY (R437): The back-off wait after a failed attempt ends and the next attempt starts. -/
  | bootBackoffExpiry
  /-- BOOT_WATCHDOG_EXPIRY (R438): The 10 s boot watchdog expires and starts an internal reset. -/
  | bootWatchdogExpiry
  /-- BOOT_WATCHDOG_STOP (R438): A write of RIND_BOOTWDT.STOP stops the boot watchdog. -/
  | bootWatchdogStop (m : Nat)
  /-- ROLLBACK_REQUEST (R442): Trial firmware sets ROLLBACK_REQ, and the next ROM start drops the pending pair. -/
  | rollbackRequest (m : Nat) (v : Word)
  /-- FW_STATE_WRITE (R439): A write of RIND_BOOTCTL.FW_STATE sets the boot state reported in HN_BOOTSTAT. -/
  | fwStateWrite (m : Nat) (v : Word)
  /-- TRIAL_COMMIT (R441): Once 60 s pass with the conditions met, trial firmware appends a COMMIT record and writes its held records.
  -/
  | trialCommit
  /-- SETTINGS_JOURNAL_COMPACTION (R445): Above 75 % fill, committed firmware compacts the settings journal. -/
  | settingsJournalCompaction
  /-- DOMAIN_RET_TIMER (R448): A domain idle for PWR_RETT closes its gate, drains and enters RET. -/
  | domainRetTimer (n : Nat)
  /-- DOMAIN_OFF_TIMER (R448): A domain in RET for PWR_OFFT goes OFF unless a hold applies. -/
  | domainOffTimer (n : Nat)
  /-- DOMAIN_DRAIN_END (R452): The drain ends, the state is saved and the domain enters RET, or the transition is abandoned. -/
  | domainDrainEnd (n : Nat) (busy : Bool)
  /-- DOMAIN_MODE_WRITE (R450): A write of PWR_DCTRL.MODE forces a domain ON, RET or OFF or returns it to AUTO. -/
  | domainModeWrite (m n : Nat) (v : Word)
  /-- DOMAIN_WAKE_REQUEST (R452): A request reaches a closed gate and is held with auto-wake or answered TARGET_OFF. -/
  | domainWakeRequest (n m a size : Nat) (write : Bool) (flit : Flit)
  /-- DOMAIN_ON_REACHED (R447): A domain reaches ON and records its wake source and time. -/
  | domainOnReached (n : Nat)
  /-- DOMAIN_WAKE_FAIL (R453): A domain misses twice its wake bound, sets WAKE_FAIL and restarts the wake. -/
  | domainWakeFail (n : Nat)
  /-- HOLDUP_ENABLE (R476): A write of HOLDUP_CTRL.EN starts charging and limit computation, or is refused with RANGE. -/
  | holdupEnable (m : Nat) (v : Word)
  /-- BANK_AT_VTOP (R457): The bank reaches V_TOP and charging stops. -/
  | bankAtVtop
  /-- BANK_RECHARGE (R457): The bank falls below 99 % of V_TOP and charging resumes. -/
  | bankRecharge (v : Nat)
  /-- HEADROOM_DETECT (R458): Charge current stays below 90 % for 10 ms; the command is lowered and HEADROOM set. -/
  | headroomDetect (ma : Nat)
  /-- HEADROOM_RETRY (R458): Every 60 s the rated current is retried for 10 ms, clearing or keeping HEADROOM. -/
  | headroomRetry (ma : Nat)
  /-- HOLDUP_MEASURE_START (R459): A capacitance measurement starts on MEASURE, on its timer, or 60 s after first reaching V_TOP. -/
  | holdupMeasureStart (m : Nat) (write : Bool) (v : Word)
  /-- MEAS_SAG_END (R459): T_SAG ends; the sag is measured and recharge at I_MEAS starts. -/
  | measSagEnd (v : Nat)
  /-- MEAS_RECHARGE_DONE (R459): The bank returns to its starting voltage, and C, E and the limit are computed. -/
  | measRechargeDone (t : Nat)
  /-- MEAS_TIMEOUT (R459): The recharge exceeds 10 s and the measurement fails. -/
  | measTimeout
  /-- SLOW_ROUND (R470): Every 250 ms the slow round reads its 64 channels. -/
  | slowRound (vals : List Int)
  /-- POWER_FAIL_FLUSH (R463): A flush trigger stops admission, resets LUNs and forces the domains of Table 15.6. -/
  | powerFailFlush
  /-- FLUSH_LUN_RESETS_DONE (R463): The flush's LUN resets complete, leaving their interrupted pages undefined. -/
  | flushLunResetsDone
  /-- FLUSH_END_WRITE (R464): Firmware sets HOLDUP_CTRL.FLUSH_END after writing the dump, and step 6 follows. -/
  | flushEndWrite (m : Nat) (v : Word)
  /-- FLUSH_DEADLINE_EXPIRY (R465): FLUSH_END is not set by the deadline, so HOLDUP takes step 6 and sets FLUSH_TIMEOUT. -/
  | flushDeadlineExpiry
  /-- SUPPLY_BACK (R467): PFAIL_N returns inactive during a flush, which sets SUPPLY_BACK. -/
  | supplyBack
  /-- COLD_RESTART (R467): After the flush and tail phase, with the supply back, the device resets and restarts cold. -/
  | coldRestart
  /-- THERMAL_SENSOR_CONVERSION (R469): Every 8 µs the sensors convert and the junction levels are judged. -/
  | thermalSensorConversion (vals : List Int)
  /-- SHUTDOWN_HOLD_END (R473): The cause of the shut-down hold clears and the device restarts cold. -/
  | shutdownHoldEnd
  /-- THERM_ENABLE (R471): A write of THERM_CTRL.EN puts the levels in force, or is refused with RANGE. -/
  | thermEnable (m : Nat) (v : Word)
  /-- EVENT_POST (R481): A unit or master posts an event, which is stored, suppressed by its rate limit, or dropped. -/
  | eventPost (source code sev : Nat) (cont : Bool) (a0 a1 a2 : Word)
  /-- EVREC_FLUSH_WRITE (R484): A write of EVREC_CTRL.FLUSH starts a flush. -/
  | evrecFlushWrite (m : Nat) (v : Word)
  /-- EVREC_CLEAR_WRITE (R486): A write of EVREC_CTRL.CLEAR erases the event region. -/
  | evrecClearWrite (m : Nat) (v : Word)
  /-- EVREC_RL_WRITE (R482): A write of EVREC_RL changes a code's rate and burst, clipping its bucket. -/
  | evrecRlWrite (m : Nat) (v : Word)
  /-- EVREC_REGION_SCAN (R485): At PD0 start and after each reset, EVREC scans the region for its append point. -/
  | evrecRegionScan
  /-- MGMT_READY (R489): MGMT becomes ready and answers MCTP control messages. -/
  | mgmtReady
  /-- SET_ENDPOINT_ID (R488): The MCTP Set Endpoint ID control message is answered in hardware. -/
  | setEndpointId (eid : Nat)
  /-- GET_ENDPOINT_ID (R488): The MCTP Get Endpoint ID control message is answered in hardware. -/
  | getEndpointId
  /-- GET_MCTP_VERSION_SUPPORT (R488): The MCTP Get MCTP Version Support control message is answered in hardware. -/
  | getMctpVersionSupport
  /-- GET_MESSAGE_TYPE_SUPPORT (R488): The MCTP Get Message Type Support control message is answered in hardware. -/
  | getMessageTypeSupport
  /-- MCTP_MESSAGE_RECEIVED (R489): A reassembled NVMe-MI or SPDM message is passed to firmware or answered busy. -/
  | mctpMessageReceived (type src tag : Nat) (bytes : List Byte)
  /-- READ_NVME_MI_DATA_STRUCTURE (R488): The NVMe-MI Read NVMe-MI Data Structure request is served. -/
  | readNvmeMiDataStructure (type arg : Nat)
  /-- SUBSYSTEM_HEALTH_STATUS_POLL (R488): The NVMe-MI NVM Subsystem Health Status Poll is served. -/
  | subsystemHealthStatusPoll
  /-- CONTROLLER_HEALTH_STATUS_POLL (R488): The NVMe-MI Controller Health Status Poll is served. -/
  | controllerHealthStatusPoll (id : Nat)
  /-- CONFIGURATION_GET (R488): The NVMe-MI Configuration Get request is served. -/
  | configurationGet (id : Nat)
  /-- CONFIGURATION_SET (R488): The NVMe-MI Configuration Set request is served. -/
  | configurationSet (id v : Nat)
  /-- VPD_READ (R488): The NVMe-MI VPD Read request is served. -/
  | vpdRead (off len : Nat)
  /-- VPD_WRITE (R488): The NVMe-MI VPD Write request is served. -/
  | vpdWrite (off : Nat) (bs : List Byte)
  /-- MGMT_RX_RELEASE (R489): A write of MGMT_RXCTL.RELEASE frees the receive buffer. -/
  | mgmtRxRelease (m : Nat)
  /-- MGMT_TX_GO (R488): A write of MGMT_TXCTL.GO sends the transmit buffer, or gives ZERO_LEN. -/
  | mgmtTxGo (m : Nat) (v : Word)
  /-- MGMT_TX_DONE (R488): A message has been sent, which sets TX_DONE. -/
  | mgmtTxDone
  /-- MGMT_ALERT_SET (R488): A write of MGMT_CTRL.ALERT drives MGMT_ALERT_N low. -/
  | mgmtAlertSet (m : Nat) (v : Word)
  /-- ALERT_RESPONSE_READ (R488): A read of the SMBus Alert Response Address ends the pending alert. -/
  | alertResponseRead
  /-- I3C_ADDRESS_ASSIGN (R488): SETDASA or ENTDAA assigns a dynamic address and enters I3C operation. -/
  | i3cAddressAssign (addr : Nat)
  /-- I3C_RSTDAA (R488): RSTDAA returns the endpoint to SMBus operation. -/
  | i3cRstdaa
  /-- JTAG_EXTEST (R490): The TAP EXTEST instruction drives boundary scan. -/
  | jtagExtest (levels cells : List (Nat × Bool))
  /-- JTAG_IDCODE (R490): The TAP IDCODE instruction selects the 32-bit IDCODE. -/
  | jtagIdcode
  /-- JTAG_SAMPLE_PRELOAD (R490): The TAP SAMPLE/PRELOAD instruction samples or preloads boundary scan. -/
  | jtagSamplePreload (levels cells : List (Nat × Bool))
  /-- JTAG_CLAMP (R490): The TAP CLAMP instruction holds the outputs and selects bypass. -/
  | jtagClamp
  /-- JTAG_HIGHZ (R490): The TAP HIGHZ instruction releases the outputs and selects bypass. -/
  | jtagHighz
  /-- JTAG_BYPASS (R490): The TAP BYPASS instruction selects the bypass register. -/
  | jtagBypass
  /-- DBG_CHAL (R491): A capture of DBG_CHAL draws a new debug challenge. -/
  | dbgChal
  /-- DBG_RESP (R491): An update of DBG_RESP runs one ROLE 3 verify and unlocks or counts a failure. -/
  | dbgResp (resp : BitVec 768)
  /-- DBG_STAT (R490): The DBG_STAT instruction reports unlock, verify-busy and failure state. -/
  | dbgStat
  /-- DMI (R491): The DMI instruction accesses the core debug module, only while unlocked. -/
  | dmi (addr : Nat) (write : Bool) (v : Word)
  /-- LINK_DOWN (R78): The link leaves L0, L0p, L0s and L1 for Detect or Disabled, and LINK_DOWN is set for the port. -/
  | linkDown (p : Nat) (disabled : Bool)
  /-- PCIE_ERROR_LOGGED (R78): The port logs a correctable or uncorrectable PCIe error, which raises AER_COR or AER_UNCOR and the
  matching HOSTIF_AER_p count. -/
  | pcieErrorLogged (p : Nat) (uncor : Bool)
  /-- PARTNER_WIDTH_REQUEST (R48): The link partner requests an L0p width reduction, which the port grants only when it would leave at
  least x4 while an S0 Kennel is bound. -/
  | partnerWidthRequest (p w : Nat)
  /-- DRAM_TRAINING_DONE (R357): A DRAM channel finishes training inside DRAMC and sets its DRAMC_STAT.TRAINED bit. -/
  | dramTrainingDone (k : Nat)
  /-- DOMAIN_OFF_REACHED (R448): A domain finishes its RET-to-OFF transition, at most 10 µs after it began, and reaches OFF. -/
  | domainOffReached (n : Nat)
  /-- ASYNCHRONOUS_EVENT_REQUEST (R59): The host submits an Asynchronous Event Request, up to AERL + 1 outstanding, and the controller
  uses it to post asynchronous events such as early warnings. -/
  | asynchronousEventRequest (c : Src)
  /-- SET_FEATURES_TEMPERATURE_THRESHOLD (R474): Set Features Temperature Threshold sets the over-temperature or under-temperature
  threshold with its NVMe semantics. -/
  | setFeaturesTemperatureThreshold (c : Src) (under : Bool) (sensor k : Nat) (save : Bool)
  /-- KEK_ESTABLISHMENT (R388): Through Security Send protocol 0x01, a host establishes a KEK with P-384 ECDH into one of the 16
  import-KEK registers. -/
  | kekEstablishment (c : Src) (i : Nat) (msg : List Byte)
  /-- MCTP_PACKET_ERROR (R493): The management endpoint meets a packet error or a bus timeout on SMBus or I3C and sets
  MGMT_INT_STAT.BUS_ERR. -/
  | mctpPacketError
  deriving DecidableEq, Repr

end Sys2Proof
end

