-- ==== Sys2Proof/Config.lean ====
section
/-!
DEFINITION. What the spec leaves open or gives no formula for, as constants without a body: free values, device-unique
fuse contents, and the cryptographic functions named by reference to other standards. Nothing can be proved about a value
of one of these, so every claim holds whatever they are.
-/

namespace Sys2Proof

/-- Which part of Table 0.2 the device is. -/
inductive Variant where
  | ax
  | px
  | mx
  deriving DecidableEq, Repr

/-- A free 64-bit value, by serial number of the draw (log entry 2). -/
opaque Config.freeWord : Nat → DWord

/-- A free natural number, by serial number of the draw (log entry 2). -/
opaque Config.freeNat : Nat → Nat

/-- A free truth value, by serial number of the draw (log entry 2). -/
opaque Config.freeBool : Nat → Bool

/-- The raw 72 bits (data, check) that an undefined memory word shows at one read (R350, log entry 3). -/
opaque Config.undefWord : Nat → BitVec 72

/-- The byte that an undefined byte of the Rind store shows at one read (R421, log entry 3). -/
opaque Config.undefByte : Nat → Byte

/-- Column `i` of the (72,64) Hsiao code's data part (R349 gives no matrix; log entry 4). -/
opaque Config.hsiaoColumn : Nat → Byte

/-- The boot ROM's bytes (R33; the ROM code is not in the spec; log entry 5). -/
opaque Config.romByte : Nat → Byte

/-- Bytes of the boot ROM that hold code; every byte beyond reads 0 (Table 1.8; log entry 5). -/
opaque Config.romSize : Nat

/-- The build time held as a constant in the boot ROM, in UTC seconds (R311). -/
opaque Config.romBuildTime : Nat

/-- Whether the checksum word of a loaded FCH_PROF window matches (R148; the spec does not give the checksum, log entry 23). -/
opaque Config.profileOk : List Word → Bool

/-- The level-to-bit map of the reference profile, one entry per level (Table 6.1; the spec does not print it, log entry 24). -/
opaque Config.refLevelMap : List Nat

/-- Where in working SRAM firmware keeps the drift-bin table, which the spec leaves to firmware (log entry 110). -/
opaque Config.binHome : Nat

/-- Superblocks that a Pack's park area holds (R286; the spec gives no size, log entry 120). -/
opaque Config.parkArea : Nat

/-- A number held in a section of a layout stream, by the model's numbering of the section's values: the spec names the content of
each section (Table 14.3) and not its places (log entry 30). -/
opaque Config.sectionNum : List Byte → Nat → Nat

/-- A field of a firmware image header: 0 LENGTH, 1 PART_NUM, 2 VERSION, 3 LOAD, 4 ENTRY, 5 LAYOUT_MIN, 6 LAYOUT_MAX (R432 names the
fields and not their offsets; log entry 30). -/
opaque Config.imageField : List Byte → Nat → Nat

/-- The vital product data as the drive maker set it (R488; its content is not in the spec). -/
opaque Config.vpdByte : Nat → Byte

/-- SHA-384 (R381, FIPS 180-4 by reference). -/
opaque Config.sha384 : List Byte → BitVec 384

/-- The ECDSA P-384 verification equation over a digest, a signature and a public key (R381, FIPS 186-5 by reference). -/
opaque Config.ecdsaHolds : (digest r s qx qy : BitVec 384) → Bool

/-- Whether a point lies on P-384 and is not the point at infinity (R381). -/
opaque Config.onCurve : (qx qy : BitVec 384) → Bool

/-- Entries of an I/O submission and completion queue, and the vector of its completion queue, as the host created it; keyed
(port × 64 + function) × 65,536 + queue (log entry 84). -/
opaque Config.queueEntries : Nat → Nat

/-- The interrupt vector of an I/O completion queue (log entry 84). -/
opaque Config.queueVector : Nat → Nat

/-- The SHA-384 hash fused for index `i` of a key role (R381, fuses). -/
opaque Config.fusedHash : (role i : Nat) → BitVec 384

/-- The device attestation key's signature over a message (R392). -/
opaque Config.attestSign : List Byte → BitVec 768

/-- The `n`-th 512-bit output of the DRBG (R380). -/
opaque Config.drbg : Nat → BitVec 512

/-- The storage KEK for a key epoch, from the device root key by SP 800-108 (R366). -/
opaque Config.storageKek : Nat → BitVec 256

/-- The map key of a part without a vault, from the device root key (R277). -/
opaque Config.deviceMapKey : Nat → BitVec 256

/-- The key that an earlier generation of a vault slot held, by slot × 2^19 + generation; the vault no longer holds it (R366). -/
opaque Config.goneKey : Nat → BitVec 512

/-- AES-256 encryption of one block under the first XTS half or a 256-bit key (FIPS 197 by reference). -/
opaque Config.aes256 : (key : BitVec 256) → (block : BitVec 128) → BitVec 128

/-- AES-KW or AES-KWP wrapping of a byte string under a KEK (RFC 3394, RFC 5649 by reference). -/
opaque Config.wrap : (kwp : Bool) → (kek : BitVec 256) → List Byte → List Byte

/-- Unwrapping; none where the integrity check fails (R369). -/
opaque Config.unwrap : (kwp : Bool) → (kek : BitVec 256) → List Byte → Option (List Byte)

/-- The import KEK that an ECDH establishment yields (R388, TCG Key Per I/O by reference). -/
opaque Config.ecdhKek : List Byte → BitVec 256

/-- AES-256-XTS encryption of a data unit (R373, IEEE 1619 by reference). -/
opaque Config.xtsEnc : (key : BitVec 512) → (tweak : BitVec 128) → List Byte → List Byte

/-- AES-256-XTS decryption of a data unit (R373). -/
opaque Config.xtsDec : (key : BitVec 512) → (tweak : BitVec 128) → List Byte → List Byte

/-- AES-256-GCM ciphertext (R376, SP 800-38D by reference). -/
opaque Config.gcmCrypt : (key : BitVec 256) → (iv : BitVec 96) → List Byte → List Byte

/-- AES-256-GCM tag over AAD and ciphertext (R376). -/
opaque Config.gcmTag : (key : BitVec 256) → (iv : BitVec 96) → (aad ct : List Byte) → BitVec 128

end Sys2Proof
end

