-- ==== Sys2Proof/Machine/Tables.lean ====
section
/-!
DEFINITION. Sparse tables: lists of (key, value) pairs with strictly rising keys. Registers, memory, dies, zones and the
other keyed state of the machine are held in this one form.
-/

namespace Sys2Proof.Machine

/-- The entry of a table at key `k`. -/
def tabGet {α : Type} : List (Nat × α) → Nat → Option α
  | [], _ => none
  | (j, v) :: t, k => if j = k then some v else tabGet t k

/-- The entry at key `k`, or `dflt` where the table lists none. -/
def tabGetD {α : Type} (t : List (Nat × α)) (k : Nat) (dflt : α) : α := (tabGet t k).getD dflt

/-- The table with `v` at key `k`, its keys kept strictly rising. -/
def tabPut {α : Type} : List (Nat × α) → Nat → α → List (Nat × α)
  | [], k, v => [(k, v)]
  | (j, w) :: t, k, v =>
    if k < j then (k, v) :: (j, w) :: t
    else if k = j then (k, v) :: t
    else (j, w) :: tabPut t k v

/-- The table without an entry at key `k`. -/
def tabDel {α : Type} : List (Nat × α) → Nat → List (Nat × α)
  | [], _ => []
  | (j, w) :: t, k => if j = k then t else (j, w) :: tabDel t k

/-- The table with `v` at key `k`, where an entry equal to `dflt` is not listed. -/
def tabPutD {α : Type} [DecidableEq α] (t : List (Nat × α)) (k : Nat) (v dflt : α) : List (Nat × α) :=
  if v = dflt then tabDel t k else tabPut t k v

/-- The table with the entry at `k` changed by `f`, where an entry that is not listed counts as `dflt`. -/
def tabMod {α : Type} (t : List (Nat × α)) (k : Nat) (dflt : α) (f : α → α) : List (Nat × α) :=
  tabPut t k (f (tabGetD t k dflt))

/-- The keys of a table rise strictly. -/
def tabRising {α : Type} : List (Nat × α) → Bool
  | [] => true
  | (_, _) :: [] => true
  | (j, _) :: (k, w) :: t => decide (j < k) && tabRising ((k, w) :: t)

/-- The table with every entry outside `keep` removed. -/
def tabFilter {α : Type} (t : List (Nat × α)) (keep : Nat → Bool) : List (Nat × α) := t.filter (fun p => keep p.1)

/-- A byte range filled in one action: the Curd and ROM initialisations, DRAM initialisation, and the loss of contents
when a domain goes OFF. `val = none` says that the content is undefined (R350). -/
structure Fill where
  lo : Nat
  hi : Nat
  /-- DRAM channel whose 4 KiB granules the fill covers; none: all (R355). -/
  chan : Option Nat
  val : Option Byte
  deriving DecidableEq, Repr

/-- A sparse byte store: listed bytes over a background of fills, newest first, over a base value. -/
structure Store where
  cells : List Host.Cell
  fills : List Fill
  base : Option Byte
  deriving DecidableEq, Repr

/-- Whether a fill covers address `a`. DRAM granules of 4 KiB rotate across channels 0–3 from 0x0001_0000_0000 (R355). -/
def fillCovers (f : Fill) (a : Nat) : Bool :=
  decide (f.lo ≤ a) && decide (a < f.hi) &&
    (match f.chan with | none => true | some k => decide (a / 4096 % 4 = k))

/-- What an address that lists no byte reads as: the newest covering fill, else the base; `none` is an undefined byte. -/
def storeBg (s : Store) (a : Nat) : Option Byte :=
  match s.fills.find? (fun f => fillCovers f a) with
  | some f => f.val
  | none => s.base

/-- The byte at an address; `none` where its content is undefined. -/
def storeByte (s : Store) (a : Nat) : Option Byte :=
  match tabGet s.cells a with
  | some b => some b
  | none => storeBg s a

/-- Writing one byte, keeping the canonical form: a byte equal to the background is not listed. -/
def storePut (s : Store) (a : Nat) (b : Byte) : Store :=
  { s with cells := if storeBg s a = some b then tabDel s.cells a else tabPut s.cells a b }

/-- Writing a byte string from address `a` upward. -/
def storePuts : Store → Nat → List Byte → Store
  | s, _, [] => s
  | s, a, b :: bs => storePuts (storePut s a b) (a + 1) bs

/-- Filling a range: the listed bytes it covers go, and the fill becomes the newest. -/
def storeFill (s : Store) (f : Fill) : Store :=
  { s with cells := s.cells.filter (fun p => !fillCovers f p.1), fills := f :: s.fills }

/-- The canonical form of a store: keys strictly rising, and no listed byte equal to what the address reads as unlisted. -/
def storeWf (s : Store) : Bool :=
  tabRising s.cells && s.cells.all (fun p => decide (storeBg s p.1 ≠ some p.2))

end Sys2Proof.Machine
end

