-- ==== Sys2Proof/Machine/PartsCore.lean ====
section
/-!
DEFINITION. Parts of the machine's state, first file: fuses, pins, fabric responses, the event recorder, the shared
hardware core, power domains, Whistle, Curd, security, boot, hold-up, thermal, management and debug state.
-/

namespace Sys2Proof.Machine

/-- Internal status values (Table 0.8). -/
inductive Status where
  | ok | zeroLen | range | align | empty | notOwner | targetOff | denied | flushed | keyExhausted | reject | busyStatus
  | unrecovered
  deriving DecidableEq, Repr

/-- The code of an internal status (Table 0.8). -/
def Status.code : Status → Nat
  | .ok => 0 | .zeroLen => 1 | .range => 2 | .align => 3 | .empty => 4 | .notOwner => 5 | .targetOff => 6
  | .denied => 7 | .flushed => 8 | .keyExhausted => 9 | .reject => 10 | .busyStatus => 11 | .unrecovered => 12

/-- Fuse contents (R7–R9, R381, R386). -/
structure Fuse where
  variant : Variant
  /-- ID_PART.STEP_MAJOR. -/
  stepMajor : Nat
  /-- ID_PART.STEP_MINOR. -/
  stepMinor : Nat
  /-- SIGV_REVOKE.REVOKED. -/
  revoked : BitVec 12
  /-- Unblown bits of the 64-bit key-epoch field (R386). -/
  epochLeft : Nat
  deriving DecidableEq, Repr

/-- The access kinds the Collar tells apart (R382). -/
inductive Acc where
  | read | write | fetch
  deriving DecidableEq, Repr

/-- One fabric response, as the requesting master last received it (R24, R36). -/
structure Resp where
  addr : Nat
  kind : Acc
  status : Status
  data : Nat
  /-- An access-fault exception was raised on the requesting core (R36). -/
  fault : Bool
  /-- The request is held at a closed gate and has no response yet (R25). -/
  waiting : Bool
  deriving DecidableEq, Repr

/-- A fabric request, as it waits at a gate (R25, R452). -/
structure Req where
  master : Nat
  kind : Acc
  addr : Nat
  size : Nat
  data : Nat
  chk : Nat
  deriving DecidableEq, Repr

/-- A request held at the closed gate of a domain (R452). -/
structure Held where
  dom : Nat
  req : Req
  deriving DecidableEq, Repr

/-- A master's partly written item at one unit (R347, R348). -/
structure Item where
  /-- Argument registers written since the last boundary: register offset and value. -/
  args : List (Nat × Word)
  /-- A flush discarded the item; the master's next item write returns FLUSHED. -/
  flushed : Bool
  /-- FLUSH_SEEN of the unit's response register. -/
  seen : Bool
  /-- The response register's STATUS reads FLUSHED until its next read. -/
  stFlushed : Bool
  deriving DecidableEq, Repr

/-- An item register set with nothing written. -/
def Item.none : Item := { args := [], flushed := false, seen := false, stFlushed := false }

/-- One event record (Table 16.1), without its CRC. -/
structure EvRecd where
  time : DWord
  boot : Word
  code : Nat
  sev : Nat
  cont : Bool
  source : Nat
  supp : Nat
  a0 : Word
  a1 : Word
  a2 : Word
  deriving DecidableEq, Repr

/-- The rate limit of one event code (R482). `level` counts tokens in units of 1/25,000,000 token. -/
structure Bucket where
  rate : Nat
  burst : Nat
  level : Nat
  last : Nat
  supp : Nat
  deriving DecidableEq, Repr

/-- The bucket of every code at power-on: RATE 10, BURST 64, full (R482). -/
def Bucket.init : Bucket := { rate := 10, burst := 64, level := 64 * 25000000, last := 0, supp := 0 }

/-- The event recorder (R478–R487). -/
structure EvState where
  /-- Unflushed records, oldest first. -/
  buf : List EvRecd
  /-- Slot of the ring that the next record takes, 0–2,047 (R483). -/
  wr : Nat
  /-- Rate limit per event code. -/
  buckets : List (Nat × Bucket)
  /-- Posters whose last record was stored (R479). -/
  lastStored : List (Nat × Bool)
  /-- A post was dropped since the last RECORDS_DROPPED record (R481). -/
  dropSince : Bool
  /-- Recording has stopped (R485). -/
  full : Bool
  /-- The region scan has finished (R485). -/
  scanned : Bool
  /-- Valid records in the region (EVREC_STAT.VALID). -/
  valid : Nat
  deriving DecidableEq, Repr

/-- The event recorder as power-on leaves it. -/
def EvState.init : EvState :=
  { buf := [], wr := 0, buckets := [], lastStored := [], dropSince := false, full := false, scanned := false, valid := 0 }

/-- A Rind store operation in progress (R418). -/
structure RindOp where
  op : Nat
  addr : Nat
  data : List Byte
  status : Status
  deriving DecidableEq, Repr

/-- The Rind store (R417–R424). -/
structure Rind where
  store : Store
  /-- Lock bits of the 256 sectors (R422). -/
  locks : BitVec 256
  /-- The password, once set (R422). -/
  password : Option (BitVec 64)
  /-- RIND_STAT.PW_LOCKED (R423). -/
  pwLocked : Bool
  running : Option RindOp
  deriving DecidableEq, Repr

/-- Protected memory: data bytes by address, check bytes by word address (R349). -/
structure Mem where
  data : Store
  chk : Store
  deriving DecidableEq, Repr

/-- The hardware core that every unit shares: registers, memories, device time, event recorder and free-value counter. -/
structure Hw where
  /-- Registers by control-space address; an unlisted register holds its reset value. -/
  regs : List (Nat × Word)
  /-- Registers and read latches held per master ID, keyed by address × 128 + master. -/
  mregs : List (Nat × Word)
  /-- Item state keyed by unit slot × 128 + master (R347). -/
  items : List (Nat × Item)
  /-- The last fabric response of each master. -/
  resps : List (Nat × Resp)
  /-- Device time (R31). -/
  time : DWord
  /-- BOOT_COUNT of the governing boot record (R434). -/
  bootCount : Word
  ev : EvState
  rind : Rind
  mem : Mem
  /-- Serial number of the next free value (the model's own field, log entry 2). -/
  free : Nat
  deriving DecidableEq, Repr

/-- State of a power domain: OFF, RET, ON, or one of the transitions of R452 and R448. -/
inductive DomSt where
  | off | ret | on | draining | goingOff | waking
  deriving DecidableEq, Repr

/-- One power domain (R447–R454). -/
structure Dom where
  st : DomSt
  /-- A wake requested while a transition runs, with its source code (Table 15.4). -/
  wake : Option Nat
  /-- The running wake began in OFF. -/
  fromOff : Bool
  /-- Forced OFF by the power-fail flush, whatever the holds (R463). -/
  flushOff : Bool
  /-- Source of the last entry into ON (Table 15.4). -/
  src : Nat
  /-- Device time at which it last reached ON. -/
  at_ : DWord
  /-- Wakes since power-on, saturating at 28 bits. -/
  wakes : Nat
  deriving DecidableEq, Repr

/-- A domain that has not been ON since power-on. -/
def Dom.init : Dom :=
  { st := .off, wake := none, fromOff := true, flushOff := false, src := 0, at_ := 0#64, wakes := 0 }

/-- The power controller (R447–R456). -/
structure Pwr where
  doms : List (Nat × Dom)
  /-- Index of the next start-up slot in Table 15.5 order, while the sequence runs. -/
  seq : Option Nat
  /-- A reset waits for every domain to reach OFF before the sequence begins (R455). -/
  seqWait : Bool
  held : List Held
  /-- Address at which each running core last started (R436, R451). -/
  cores : List (Nat × Nat)
  deriving DecidableEq, Repr

/-- A configuration of Whistle that a claim may still be served from, up to 40 ns after a write's response (R411). -/
structure WhStale where
  /-- Device time of the write's response. -/
  time : DWord
  /-- The register written and its value before the write. -/
  addr : Nat
  old : Word
  deriving DecidableEq, Repr

/-- Whistle state that is not a register (R403–R416). -/
structure Whistle where
  /-- WH_CLSTAT.SAVED. -/
  saved : BitVec 4
  stale : List WhStale
  /-- mip.MTIP of each hart (R413). -/
  mtip : BitVec 16
  deriving DecidableEq, Repr

/-- Balls and straps. -/
structure Pins where
  pgood : Bool
  /-- SYS_RESET_N is high. -/
  sysResetHigh : Bool
  /-- PORT_MODE strap: the x4 + x4 configuration (R44). -/
  dualPort : Bool
  /-- REFCLK1_SEL strap (R44). -/
  refclk1Sel : Bool
  /-- SRIS strap (R44). -/
  sris : Bool
  /-- Last HK sample of each external input i as it is driven from outside (Table 13.4). -/
  raw : BitVec 16
  /-- Filtered level of each external input i (R405). -/
  filt : BitVec 16
  /-- Levels at GPIO[3:0], known from the strap sample (R44, Table 17.17). -/
  gpio : BitVec 16
  deriving DecidableEq, Repr

/-- State of a Curd buffer that is not FREE (Table 11.2). -/
inductive BufSt where
  | held | pending | releasing
  deriving DecidableEq, Repr

/-- A Curd buffer that is not FREE (R343). -/
structure Buf where
  st : BufSt
  holds : Nat
  /-- The final holder's master ID; none in PENDING and RELEASING. -/
  final : Option Nat
  deriving DecidableEq, Repr

/-- The Curd pools (R336–R346). Buffer i of class c has key c × 65,536 + i. -/
structure Curd where
  bufs : List (Nat × Buf)
  /-- Free list of each class, longest-free first (R340). -/
  free : List (Nat × List Nat)
  /-- Per class, the next buffer that the initialisation of R338 has still to write. -/
  initNext : List (Nat × Nat)
  /-- Hardware masters that received EMPTY, in arrival order, with their command word (R342). -/
  waiting : List (Nat × Word)
  deriving DecidableEq, Repr

/-- Curd as reset leaves it. -/
def Curd.init : Curd := { bufs := [], free := [], initNext := [], waiting := [] }

/-- A key slot (Table 12.1). -/
structure Slot where
  type : Nat
  key : BitVec 512
  gen : Nat
  kennel : Nat
  scope : Nat
  ctr : Nat
  deriving DecidableEq, Repr

/-- An EMPTY slot of generation 0. -/
def Slot.init : Slot := { type := 0, key := 0#512, gen := 0, kennel := 0, scope := 0, ctr := 0 }

/-- A cipher job queued or running at an engine (R372, R379), with the key it loaded. -/
structure Job where
  /-- Requesting master; a host-path job has none. -/
  master : Option Nat
  /-- Tag of the host command served. -/
  tag : Option Nat
  /-- 1 XTS encrypt, 2 XTS decrypt, 3 GCM encrypt, 4 GCM decrypt. -/
  op : Nat
  slot : Nat
  key : BitVec 512
  /-- The GCM IV taken at the job's start; 0 for XTS and for GCM decryption, whose IV is read from the tag address. -/
  iv : BitVec 96
  src : Nat
  dst : Nat
  len : Nat
  aad : Nat
  aadLen : Nat
  tweak : Nat
  tagAddr : Nat
  /-- Status decided at the job's start; OK runs it. -/
  status : Status
  deriving DecidableEq, Repr

/-- A signature verification in progress (R381). -/
structure Verify where
  result : Status
  reason : Nat
  /-- Started by the JTAG unlock rather than by SIGV_CTRL.GO (R491). -/
  jtag : Bool
  deriving DecidableEq, Repr

/-- Debug unlock (R73, R491). -/
structure Debug where
  /-- The challenge of the admin path, while it lives, with the controller that asked. -/
  adminChal : Option (BitVec 512)
  /-- The challenge of the JTAG path. -/
  jtagChal : Option (BitVec 512)
  /-- Failures since power-on, on both paths (R491). -/
  failures : Nat
  unlocked : Bool
  deriving DecidableEq, Repr

/-- A Collar window (R382): first byte, last byte, control bits, and the permission bitmaps over master IDs. -/
structure CWin where
  base : Nat
  limit : Nat
  en : Bool
  alarm : Bool
  r : BitVec 128
  w : BitVec 128
  x : BitVec 128
  deriving DecidableEq, Repr

/-- A window as every reset clears it (R383). -/
def CWin.init : CWin := { base := 0, limit := 0x3F, en := false, alarm := false, r := 0#128, w := 0#128, x := 0#128 }

/-- The security units (R364–R397). -/
structure Sec where
  slots : List (Nat × Slot)
  /-- The 16 import KEKs (R388). -/
  importKeks : List (Nat × BitVec 256)
  /-- Attestation key present (R386). -/
  attestKey : Bool
  /-- The map key of R277, once made; none before MAPU_CTRL.EN and after key erasure. -/
  mapKey : Option (BitVec 256)
  /-- During a rekey, the key that segments not yet resealed carry (R283). -/
  oldMapKey : Option (BitVec 256)
  /-- Key erasure step 1 has run and step 2's fuse and step 3's area erase are still due (R386). -/
  eraseDue : Bool
  /-- KV_STAT.STATE (Table 12.9): 0 OFF, 1 READY, 2 ERASED. -/
  kvState : Nat
  /-- Jobs of each cipher engine, oldest first. -/
  jobs : List (Nat × List Job)
  /-- Slots whose expanded keys each engine caches, newest first (R372). -/
  keyCache : List (Nat × List Nat)
  /-- Bytes each engine has processed since its mask generator was last reseeded (R371). -/
  maskBytes : List (Nat × Nat)
  /-- Engines whose mask generator runs unreseeded (R371). -/
  maskStale : BitVec 4
  /-- Bytes each engine has processed since power-on (CIPHER_MIB). -/
  cipherBytes : List (Nat × Nat)
  /-- Vault commands that wait for the DRBG, oldest first: master, command word, item (R380). -/
  kvWait : List (Nat × Word × Item)
  /-- Draws taken from the DRBG. -/
  drbgDraws : Nat
  /-- Generate requests since the last reseed (R380). -/
  drbgReqs : Nat
  /-- The DRBG generates (R380). -/
  drbgOn : Bool
  /-- The entropy source has passed its start-up tests (R380). -/
  entropyOk : Bool
  /-- Masters whose read of SIGV_RNG_DATA waits while the DRBG is stopped (R380). -/
  rngWait : List Nat
  verify : Option Verify
  /-- Digest that a running hash will deliver (R381). -/
  hash : Option (BitVec 384)
  /-- Masters that policy BLOCK refuses (R385). -/
  blocked : BitVec 128
  /-- Collar windows keyed by target × 32 + window. -/
  windows : List (Nat × CWin)
  /-- Collar DEFAULT_ALARM bit per target. -/
  defAlarm : List (Nat × Bool)
  dbg : Debug
  /-- SPDM: the negotiated version, 0 before GET_VERSION (R392). -/
  spdmVersion : Nat
  /-- SPDM connection state reached: 0 none, 1 version, 2 capabilities, 3 algorithms. -/
  spdmState : Nat
  /-- SPDM measurements taken by the boot ROM, by index 1–3 (Table 12.6). -/
  measures : List (Nat × BitVec 384)
  deriving DecidableEq, Repr

/-- A settings record's current value (R444): its SEQ and its 44 payload bytes. -/
structure SVal where
  seq : Nat
  payload : List Byte
  deriving DecidableEq, Repr

/-- The settings journal as firmware holds it (R444, R445). -/
structure Settings where
  /-- Current value of each (TYPE, KEY) pair, keyed TYPE × 65,536 + KEY. -/
  cur : List (Nat × SVal)
  /-- Ring position, in records, of the next append: 0–110,591 over sectors 148–255. -/
  head : Nat
  /-- Ring position of the oldest sector that still holds records, and the number of sectors that hold records. -/
  tail : Nat
  used : Nat
  seq : Nat
  /-- Records held in memory by trial firmware, oldest first: pair key and payload (R440). -/
  held : List (Nat × List Byte)
  /-- Changes of the key area held in memory by trial firmware, oldest first: offset in the area and bytes (R440). -/
  keyHeld : List (Nat × List Byte)
  /-- The ring held a record of an unknown type with bit 15 set, which no reader can pass over (R444). -/
  unread : Bool
  /-- WRITER: VERSION of the running image. -/
  writer : Nat
  deriving DecidableEq, Repr

/-- An empty settings journal. -/
def Settings.init : Settings := { cur := [], head := 0, tail := 0, used := 0, seq := 0, held := [], keyHeld := [], unread := false, writer := 0 }

/-- A boot record (Table 14.5), without its CRC. -/
structure BootRec where
  type : Nat
  bootCount : Nat
  seq : Nat
  image : Nat
  layout : Nat
  /-- 0xFF is none. -/
  pendImage : Nat
  /-- 0xFF is none. -/
  pendLayout : Nat
  tries : Nat
  layoutSeq : Nat
  deriving DecidableEq, Repr

/-- Boot state (R434–R443). -/
structure Boot where
  /-- A start of the ROM is due (R435), and retention SRAM is still to be written after power-on (R350). -/
  romDue : Bool
  retDue : Bool
  /-- The boot ROM runs. -/
  romRunning : Bool
  /-- Governing boot record. -/
  gov : BootRec
  /-- Slot, 0–2,047 over the two sectors, that the next boot record takes. -/
  recNext : Nat
  /-- This start's first attempt uses the pending pair. -/
  firstPending : Bool
  /-- Image and layout of the attempt that is due or was last made. -/
  image : Nat
  layout : Nat
  /-- Fields of HN_BOOTSTAT. -/
  bootState : Nat
  lastStatus : Nat
  attempts : Nat
  rollback : Bool
  /-- Waits already taken since this start of the ROM (R437). -/
  waits : Nat
  /-- The boot watchdog expired before this start (R438). -/
  wdtFired : Bool
  /-- The boot watchdog runs. -/
  wdtRunning : Bool
  /-- Device time at which core 0 was released (R441). -/
  releasedAt : DWord
  /-- Trial firmware runs (R440). -/
  trial : Bool
  deriving DecidableEq, Repr

/-- Hold-up state that is not a register (R457–R468). -/
structure Holdup where
  /-- The charger is charging. -/
  charging : Bool
  /-- The bank has reached V_TOP since EN. -/
  reachedTop : Bool
  /-- Capacitance in nF, as last measured; none before the first success (R459). -/
  capNf : Option Nat
  /-- Present bank voltage in 10 mV. -/
  vbank : Nat
  /-- Starting voltage and sag, in 10 mV, of the measurement in progress. -/
  measStart : Nat
  measSag : Nat
  /-- Step of a measurement: 0 none, 1 sagging, 2 recharging. -/
  measStep : Nat
  /-- A flush has run in this boot (R462). -/
  flushed : Bool
  /-- Step of the running flush: 0 none, 2 LUN resets, 4 resets done, 6 tail phase over. -/
  flushStep : Nat
  /-- Device time of t0 and dirty count at t0. -/
  t0 : DWord
  dirty0 : Nat
  /-- An internal reset follows the flush (R456, R462). -/
  resetAfter : Bool
  /-- A cold restart follows the flush (R467). -/
  coldAfter : Bool
  /-- The shut-down hold follows, or holds (R473): by junction, by SHDN_REQ_N. -/
  shdnJ : Bool
  shdnReq : Bool
  /-- The device waits in the shut-down hold. -/
  inHold : Bool
  /-- Log 0xC5 counts: flushes, flushes with the supply returned. -/
  flushes : Nat
  supplyBacks : Nat
  /-- Duration in µs of the last flush and of the longest since format (log 0xC5). -/
  lastUs : Nat
  longestUs : Nat
  /-- Device time of the last capacitance measurement (log 0xC5). -/
  measAt : DWord
  /-- Bytes programmed by dump SLC programs since t0. -/
  dumped : Nat
  /-- PFAIL_N returned inactive during the running flush (R467). -/
  supplyBack : Bool
  /-- A deadline was missed in the boot before (R465). -/
  timeoutLast : Bool
  deriving DecidableEq, Repr

/-- Thermal state that is not a register (R469–R474). -/
structure Therm where
  /-- Present junction temperature in 0.1 °C. -/
  tj : Int
  /-- On-die sensor values and their maxima since power-on, 0.1 °C (log 0xC4). -/
  sens : List (Nat × Int)
  sensMax : List (Nat × Int)
  /-- Junction level: 0 normal, 1 warning, 2 throttle, 3 shut-down. -/
  jLevel : Nat
  /-- Flash level per channel: 0 normal, 1 warning, 2 throttle, 3 limit. -/
  fLevel : List (Nat × Nat)
  /-- Slow-round channel values and maxima (Table 15.8). -/
  chans : List (Nat × Int)
  chanMax : List (Nat × Int)
  /-- Flash pause per channel in µs from temperature (R472). -/
  fPause : List (Nat × Nat)
  /-- THERM_ALERT_N is active after its filter. -/
  alert : Bool
  /-- Total pause time inserted, in µs (R474). -/
  pauseTotal : Nat
  /-- Level crossings since format, by level number, and thermal shut-downs since format (log 0xC4). -/
  crossings : List (Nat × Nat)
  shutdowns : Nat
  /-- NVMe temperature thresholds: over and under, in kelvin, by sensor (R474). -/
  threshOver : List (Nat × Nat)
  threshUnder : List (Nat × Nat)
  /-- The composite temperature stands outside its thresholds, its event posted (R474). -/
  tempWarn : Bool
  deriving DecidableEq, Repr

/-- A message held in the management receive buffer. -/
structure MgMsg where
  type : Nat
  src : Nat
  tag : Nat
  bytes : List Byte
  deriving DecidableEq, Repr

/-- The management endpoint (R488, R489). -/
structure Mgmt where
  ready : Bool
  i3c : Bool
  i3cAddr : Nat
  eid : Nat
  alert : Bool
  rx : Option MgMsg
  txBusy : Bool
  /-- The last message put on the management bus: type, bytes. -/
  lastTx : Option (Nat × List Byte)
  /-- Negotiated transmission unit in bytes: 64 or, on I3C, 256. -/
  unitBytes : Nat
  /-- Vital product data (VPD Read and Write). -/
  vpd : List Host.Cell
  /-- NVMe-MI configuration values by identifier. -/
  cfg : List (Nat × Nat)
  deriving DecidableEq, Repr

/-- The TAP (R490, R491). -/
structure Jtag where
  /-- Present instruction. -/
  ir : Nat
  /-- Boundary-scan cells: captured and preloaded values. -/
  scanIn : List (Nat × Bool)
  preload : List (Nat × Bool)
  /-- Balls driven from the boundary-scan register. -/
  extest : Bool
  /-- Outputs held (CLAMP) or released (HIGHZ). -/
  clamp : Bool
  highz : Bool
  /-- Last value shifted out. -/
  dr : Nat
  /-- Values last written through the debug module interface, by address. -/
  dm : List (Nat × Word)
  /-- A DBG_RESP update that waits for a running verify to end: its challenge and response (R491). -/
  resp : Option (Option (BitVec 512) × BitVec 768)
  deriving DecidableEq, Repr

end Sys2Proof.Machine
end

