-- ==== Sys2Proof/Machine/PartsHost.lean ====
section
/-!
DEFINITION. Parts of the machine's state, second file: host ports, controllers, queues, namespaces, zones, Kennels and the
HERDER's admitted commands.
-/

namespace Sys2Proof.Machine

/-- NVMe completion statuses the spec names (R59, R67, R68, R88–R90 and the command rules). `ownError` is the error of a write whose
staging buffer is uncorrectable, to which R101 gives no status of its own. -/
inductive NvStat where
  | success | invalidOpcode | invalidField | abortRequested | lbaRange | accessDenied | unrecoveredRead
  | commandSequence | invalidFirmwareSlot | invalidFirmwareImage | activationNeedsReset | interrupted
  | insufficientCapacity | notAborted | zoneBoundary | zoneFull | zoneReadOnly | zoneOffline | zoneInvalidWrite
  | tooManyActive | tooManyOpen | invalidZoneTransition | ownError | dataTransfer | namespaceReadOnly
  | invalidNamespace | reservationConflict | aborted
  | mapUnavailable | keyExhausted | unitAbsent | layoutRejected | layoutFrozen | kennelInUse | kennelMismatch
  | unitStateConflict | debugFailed | zeroLength | nsidUnavailable | nsAttached | nsNotAttached | invalidLogPage | aerLimit
  | resourceExhausted | stagingIncomplete | authority | sanitizeProgress
  /-- A status field that firmware posts in HOSTIF_ACQE3 other than Successful Completion (Table 2.24). -/
  | posted (field : Nat)
  deriving DecidableEq, Repr

/-- Status code type and status code of the vendor statuses (Table 2.7) and of those whose value the spec gives (Table 2.8);
other NVMe statuses carry the values of the NVMe specifications, which the spec does not repeat. -/
def NvStat.vendorCode : NvStat → Option (Nat × Nat)
  | .mapUnavailable => some (7, 0x80) | .keyExhausted => some (7, 0x81) | .unitAbsent => some (7, 0x82)
  | .layoutRejected => some (7, 0x83) | .layoutFrozen => some (7, 0x84) | .kennelInUse => some (7, 0x85)
  | .kennelMismatch => some (7, 0x86) | .unitStateConflict => some (7, 0x87) | .debugFailed => some (7, 0x88)
  | .zeroLength => some (7, 0x89) | .resourceExhausted => some (7, 0x8A) | .stagingIncomplete => some (7, 0x8B)
  | .accessDenied => some (2, 0x86) | .unrecoveredRead => some (2, 0x81)
  | _ => none

/-- The Do Not Retry bit of the vendor statuses (Table 2.7). For the other statuses the NVMe specifications decide it. -/
def NvStat.vendorDnr : NvStat → Option Bool
  | .mapUnavailable => some false
  | .keyExhausted | .unitAbsent | .layoutRejected | .layoutFrozen | .kennelInUse | .kennelMismatch | .unitStateConflict | .debugFailed
  | .zeroLength | .resourceExhausted | .stagingIncomplete => some true
  | _ => none

/-- A completion queue entry as posted, with the data that the command moved to the host. -/
structure Cqe where
  port : Nat
  fn : Nat
  /-- Submission queue, 0 for the admin queue. -/
  sq : Nat
  /-- Completion queue it was posted to, and the vector that was signalled (R78). -/
  cq : Nat
  vector : Nat
  /-- Head of the submission queue, and the phase tag (R78). -/
  sqHead : Nat
  phase : Bool
  cid : Nat
  status : NvStat
  dw0 : Nat
  dw1 : Nat
  data : List Nat
  deriving DecidableEq, Repr

/-- Host Memory Buffer state of a PF (R63–R65). -/
inductive HmbSt where
  | off
  /-- Enabled, map content being rebuilt (R301). -/
  | rebuilding
  | serving
  deriving DecidableEq, Repr

/-- Link states of HOSTIF_LINK_p.STATE (Table 2.19). -/
inductive LinkSt where
  | detect | polling | recovery | l0 | l0p | l0s | l10 | l11 | l12 | disabled
  deriving DecidableEq, Repr

/-- Code of a link state (Table 2.19). -/
def LinkSt.code : LinkSt → Nat
  | .detect => 0 | .polling => 1 | .recovery => 2 | .l0 => 3 | .l0p => 4 | .l0s => 5 | .l10 => 6 | .l11 => 7
  | .l12 => 8 | .disabled => 9

/-- What a configuration request of a function that is answered normally can read, as far as the spec gives it: TotalVFs of a PF's SR-IOV
capability (R51), maximum payload and read request size in bytes (R46), the PTM requester's clock granularity in ns (R50), MSI-X vectors
(R54), and the size of BAR2 of a PF (R58). -/
structure CfgSpace where
  totalVfs : Nat
  maxPayload : Nat
  maxReadReq : Nat
  ptmGranularity : Nat
  msix : Nat
  bar2 : Nat
  deriving DecidableEq, Repr

/-- How a configuration request was answered (Table 2.4). -/
inductive CfgAns where
  /-- Request Retry Status. -/
  | retry
  | normal (c : CfgSpace)
  deriving DecidableEq, Repr

/-- A host port (R44–R58). -/
structure Port where
  perst : Bool
  link : LinkSt
  rate : Nat
  width : Nat
  /-- Full trained width, to which L0p returns. -/
  fullWidth : Nat
  flit : Bool
  ptmEn : Bool
  ptmOffset : DWord
  /-- ROM or firmware answers configuration requests normally (R55). -/
  answering : Bool
  /-- How the last configuration request was answered. -/
  lastConfig : Option CfgAns
  hmb : HmbSt
  /-- Host Memory Buffer size in 4 KiB units while enabled. -/
  hmbUnits : Nat
  deriving DecidableEq, Repr

/-- A port as SYS_RESET_N leaves it: PERST_N asserted, no link. -/
def Port.init : Port :=
  { perst := true, link := .detect, rate := 0, width := 0, fullWidth := 0, flit := false, ptmEn := false, ptmOffset := 0#64,
    answering := false, lastConfig := none, hmb := .off, hmbUnits := 0 }

/-- A controller (R51, R54, Table 2.22). Key: port × 64 + function. -/
structure Ctrl where
  en : Bool
  rdy : Bool
  shn : Nat
  shst : Nat
  cfs : Bool
  /-- CC but EN and SHN, and the admin queue registers, as the host wrote them (R56). -/
  ccRest : Word
  aqa : Word
  asq : DWord
  acq : DWord
  /-- The function is in D3hot. -/
  d3 : Bool
  /-- VF controller online by Virtualization Management; a PF is always online. -/
  online : Bool
  /-- Flexible queue pairs and vectors assigned. -/
  vq : Nat
  vi : Nat
  /-- Outstanding Asynchronous Event Requests, by command identifier, oldest first. -/
  aers : List Nat
  /-- Asynchronous events waiting for a request. -/
  events : List Nat
  /-- NVMe power state. -/
  ps : Nat
  /-- Log snapshots by log identifier (R75). -/
  snaps : List (Nat × List Byte)
  /-- Host identifier given with a reservation registration; 0 none. -/
  hostId : Nat
  deriving DecidableEq, Repr

/-- A controller after reset. -/
def Ctrl.init : Ctrl :=
  { en := false, rdy := false, shn := 0, shst := 0, cfs := false, ccRest := 0#32, aqa := 0#32, asq := 0#64, acq := 0#64,
    d3 := false, online := false, vq := 0, vi := 0, aers := [],
    events := [], ps := 0, snaps := [], hostId := 0 }

/-- A command fetched and not yet admitted, with its doorbell time (R120). -/
structure QCmd where
  cmd : IoCmd
  doorbell : DWord
  /-- It has been held at the head of its queue (log 0xC6). -/
  held : Bool
  deriving DecidableEq, Repr

/-- Where an admitted command stands. -/
inductive OpSt where
  /-- Admitted, its path not yet begun. -/
  | admitted
  /-- A read queued on its die, or on the flash. -/
  | reading
  /-- A write whose data is being moved into DRAM. -/
  | staging
  /-- A write whose data and tags are in DRAM, completion not yet posted. -/
  | staged
  /-- Read data in a Curd buffer, ready for the host. -/
  | ready
  /-- A secure erase in progress. -/
  | erasing
  deriving DecidableEq, Repr

/-- An admitted I/O command. -/
structure Op where
  cmd : IoCmd
  port : Nat
  fn : Nat
  sq : Nat
  kennel : Nat
  cls : Nat
  doorbell : DWord
  /-- Deadline in device-time ticks of 40 ns; reads only (R120). -/
  deadline : Nat
  /-- First LBA after assignment (R99). -/
  lba : Nat
  st : OpSt
  dispatched : Bool
  /-- Discarded by a reset: it runs to its end without a completion (R62). -/
  quiet : Bool
  /-- Deepest Retriever step used. -/
  depth : Nat
  /-- Status the command will complete with. -/
  status : NvStat
  /-- Its data has passed a cipher engine, or needs none (R372). -/
  ciphered : Bool
  /-- CIPHER, slot and generation of the key that a write's data is encrypted under, taken as its data begins to move. -/
  key : Nat × Nat × Nat
  /-- Curd buffers of the host port that hold its data, by pointer (R38, R41). -/
  bufs : List Nat
  /-- Packs that its Kennel permitted at its admission (R117, R118). -/
  packs : List Nat
  /-- SEQ value taken at admission by a command that unmaps (R274, R303). -/
  seq : Nat
  /-- Protected dirty limit in KiB in force when it was admitted (R39). -/
  limit : Nat
  /-- Runs still to end. -/
  runs : Nat
  /-- Data for the host, one value per block. -/
  out : List Nat
  /-- Lowest unrecovered LBA (R223). -/
  bad : Option Nat
  deriving DecidableEq, Repr

/-- Zone states (R87). -/
inductive ZSt where
  | empty | impOpen | expOpen | closed | readOnly | full | offline
  deriving DecidableEq, Repr

/-- Code of a zone state (R87). -/
def ZSt.code : ZSt → Nat
  | .empty => 1 | .impOpen => 2 | .expOpen => 3 | .closed => 4 | .readOnly => 13 | .full => 14 | .offline => 15

/-- A zone. Key: NSID × 2^20 + zone number. The zone table entry of Table 9.1 holds the same fields. -/
structure Zone where
  st : ZSt
  /-- Write pointer, in LBAs from ZSLBA. -/
  wp : Nat
  zcap : Nat
  /-- Superblock bound to the zone; 0 none. -/
  sb : Nat
  /-- Reclaim unit handle (R98). -/
  handle : Nat
  /-- Attributes ZFC and FZR. -/
  zfc : Bool
  fzr : Bool
  /-- Full by reaching ZSLBA + ZCAP, not by Finish (R101, R105). -/
  fullByWp : Bool
  /-- Device time of the last write, and of the last open. -/
  lastWrite : DWord
  openedAt : DWord
  /-- A secure reset is in progress (R111), with the tags of the commands that complete with it. -/
  secure : Option (List Nat)
  /-- Zone offset up to which the partial row is parked (R94). -/
  parkedTo : Nat
  /-- A move in progress and its target superblock (R270). -/
  moving : Option Nat
  deriving DecidableEq, Repr

/-- An Empty zone without a superblock. -/
def Zone.init : Zone :=
  { st := .empty, wp := 0, zcap := 0, sb := 0, handle := 0, zfc := false, fzr := false, fullByWp := false, lastWrite := 0#64,
    openedAt := 0#64, secure := none, parkedTo := 0, moving := none }

/-- A registrant of a namespace's reservation (Table 14.9). -/
structure Registrant where
  hostId : Nat
  key : Nat
  holder : Bool
  rtype : Nat
  ptpl : Bool
  deriving DecidableEq, Repr

/-- A namespace. Key: NSID 1–1,024. -/
structure Ns where
  zoned : Bool
  nsze : Nat
  /-- Stripe width. -/
  width : Nat
  /-- CIPHER of its volume descriptor entry: 0 plaintext, 1 namespace key, 2 Key Per I/O (R390). -/
  cipher : Nat
  slot : Nat
  keyGen : Nat
  /-- KEY_CHECK of its volume descriptor entry (R368). -/
  keyCheck : Nat
  /-- The namespace key failed its checks at start (R368). -/
  keyFailed : Bool
  homePort : Nat
  /-- Zone Reset Mode SECURE (R109). -/
  secureMode : Bool
  /-- Placement handles of the namespace. -/
  handles : Nat
  /-- Attached controllers: port × 64 + function. -/
  attached : List Nat
  /-- Latched read-only at the spare floor (R330). -/
  readOnly : Bool
  /-- Segment base of a conventional namespace (R275); zone size of a zoned one. -/
  base : Nat
  zsze : Nat
  /-- Media time of creation. -/
  created : Nat
  registrants : List Registrant
  deriving DecidableEq, Repr

/-- A token bucket of a Kennel (R122), in units of 1/25,000,000 token. -/
structure KBucket where
  level : Nat
  last : Nat
  deriving DecidableEq, Repr

/-- A Kennel (Table 2.10, R115–R123, R140). -/
structure Kennel where
  cls : Nat
  dedicated : Bool
  packs : Nat
  iops : Nat
  bw : Nat
  cap : Nat
  forbidOff : Bool
  override : Nat
  /-- Admitted and not completed. -/
  outstanding : Nat
  iopsB : KBucket
  bwB : KBucket
  /-- Deadline misses since power-on (R141). -/
  misses : Nat
  /-- Log 0xC6: reads, writes, bytes read, bytes written, commands held, read-arounds, suspends. -/
  reads : Nat
  writes : Nat
  bytesR : Nat
  bytesW : Nat
  helds : Nat
  arounds : Nat
  suspends : Nat
  /-- The 64 read-latency buckets. -/
  hist : List (Nat × Nat)
  /-- One-LBA reads of the last hours by 1 µs bucket: hour of device time × 16,384 + bucket, 10,000 for above 10 ms (R140). -/
  fine : List (Nat × Nat)
  deriving DecidableEq, Repr

/-- Kennel 0 after format: S1, shared, every Pack (R115). -/
def Kennel.zero : Kennel :=
  { cls := 1, dedicated := false, packs := 7, iops := 0, bw := 0, cap := 0, forbidOff := false, override := 0,
    outstanding := 0, iopsB := { level := 0, last := 0 }, bwB := { level := 0, last := 0 }, misses := 0, reads := 0,
    writes := 0, bytesR := 0, bytesW := 0, helds := 0, arounds := 0, suspends := 0, hist := [],
    fine := [] }

/-- An FDP event (Table 3.5): its type, the reclaim group and handle, media time, namespace and blocks concerned (log entry 95). -/
structure FdpEv where
  type : Nat
  group : Nat
  handle : Nat
  time : Nat
  nsid : Nat
  blocks : Nat
  deriving DecidableEq, Repr

/-- What the FDP logs report: events, oldest first, and 4 KiB units written by the host, written to media, and erased (R96). -/
structure FdpLog where
  events : List FdpEv
  host : Nat
  media : Nat
  erased : Nat
  deriving DecidableEq, Repr

/-- Nothing reported. -/
def FdpLog.init : FdpLog := { events := [], host := 0, media := 0, erased := 0 }

/-- Commands that wait while the DRBG cannot generate (R380): challenges, signed SPDM responses, and namespace keys. -/
inductive RndHeld where
  | challenge (c : Src)
  | capture
  | spdmChallenge (via : Via) (slot : Nat) (nonce : List Byte)
  | spdmMeasurements (via : Via) (i : Nat) (nonce : List Byte)
  | create (c : Src) (zoned : Bool) (nsze width : Nat) (kpio : Bool) (handles : Nat)
  | format (c : Src) (nsid : Nat)
  | sanitize (c : Src)
  deriving DecidableEq, Repr

/-- The host command that waits, where it is one. -/
def RndHeld.src : RndHeld → Option Src
  | .challenge c | .create c .. | .format c _ | .sanitize c => some c
  | .spdmChallenge (.host c) .. | .spdmMeasurements (.host c) .. => some c
  | _ => none

/-- The host side: ports, controllers, queues, admin ring, completions. -/
structure HostSide where
  ports : List (Nat × Port)
  ctrls : List (Nat × Ctrl)
  /-- Submission queues of fetched commands: key (port × 64 + function) × 65,536 + queue. -/
  queues : List (Nat × List QCmd)
  /-- Visible I/O commands that HOSTIF has not fetched, oldest first, with their queue (R78, Table 2.14). -/
  unfetched : List (Nat × QCmd)
  /-- Admitted commands by tag. -/
  ops : List (Nat × Op)
  nextTag : Nat
  /-- Completions posted, oldest first. -/
  cq : List Cqe
  /-- Admin commands that wait for room in the admin ring, oldest first: port, function, queue, entry. -/
  ringWait : List (Nat × Nat × Nat × List Byte)
  /-- Commands fetched from each submission queue and entries posted to each completion queue, keyed as `queues`, since the controller's
  reset: what queue heads and phase tags follow from (R78). -/
  fetched : List (Nat × Nat)
  posted : List (Nat × Nat)
  /-- Set Features commands that disable a Host Memory Buffer and wait for dispatched commands to end (R65). -/
  hmbWait : List Src
  /-- Commands that wait for the DRBG, oldest first (R380). -/
  rndHeld : List RndHeld
  /-- Admission and fetch stopped by a power-fail flush (Table 15.6, step 1). -/
  stopped : Bool
  /-- Kennel last served of each class, and queue last served of each Kennel, for the round robin of R123. -/
  rrKennel : List (Nat × Nat)
  rrQueue : List (Nat × Nat)
  /-- FDP enabled on the endurance group (R96). -/
  fdp : Bool
  fdpLog : FdpLog
  /-- Error Information log: namespace and lowest unrecovered LBA, oldest first (R223). -/
  errLog : List (Nat × Nat)
  /-- Firmware image bytes downloaded and not yet committed, by offset. -/
  download : List Host.Cell
  /-- Layout stream bytes transferred since the last verify or discard, by offset, and the port that stages. -/
  layoutXfer : List Host.Cell
  layoutPort : Option Nat
  deriving DecidableEq, Repr

/-- Namespaces, zones and Kennels. -/
structure Tenancy where
  namespaces : List (Nat × Ns)
  zones : List (Nat × Zone)
  kennels : List (Nat × Kennel)
  /-- Kennel of each function, port × 64 + function; unlisted: Kennel 0 (R52). -/
  fnBind : List (Nat × Nat)
  /-- Bound (NSID, Kennel) pairs (R116). -/
  nsBind : List (Nat × Nat)
  deriving DecidableEq, Repr

end Sys2Proof.Machine
end

