-- ==== Sys2Proof/Machine/PartsMedia.lean ====
section
/-!
DEFINITION. Parts of the machine's state, third file: the layout in force with its flash profile, dies and their operations,
the power-token pacer, detectors, Retriever runs, blocks, superblocks, physical copies, the map and its journal, and the
Affineur's queue.
-/

namespace Sys2Proof.Machine

/-- The flash profile (Tables 3.1, 4.4, 5.22, 6.1). Times are in nanoseconds. -/
structure Profile where
  id : Nat
  /-- 0 ONFI 5.1 NV-LPDDR4, 1 Toggle. -/
  iface : Nat
  /-- Data rate in 100 MT/s (R143). -/
  rate : Nat
  /-- Bits per cell b. -/
  bpc : Nat
  planes : Nat
  /-- Wordlines per block W, the pilot wordline included. -/
  wordlines : Nat
  /-- Blocks per plane, and reserve blocks per die. -/
  nblk : Nat
  nres : Nat
  /-- Code family: 0 A, 1 B. -/
  family : Nat
  /-- Offset step in mV. -/
  offsetStep : Nat
  /-- Rated program/erase cycles N_PE. -/
  npe : Nat
  /-- Level-to-bit map: entry per level, bit l the value of logical page l. -/
  levelMap : List Nat
  tR : Nat
  /-- Maximum of an array read of one strobe position (R526). -/
  tRMax : Nat
  tStr : Nat
  /-- Class read of three strobe positions, maximum, and the load of a whole offset vector (Table 6.1). -/
  tRCls : Nat
  tSf : Nat
  tProg : Nat
  tProgMax : Nat
  tSlc : Nat
  tSlcMax : Nat
  tBers : Nat
  tBersMax : Nat
  tPor : Nat
  tPorMax : Nat
  tRst : Nat
  tRstMax : Nat
  tSusP : Nat
  tSusE : Nat
  tRes : Nat
  maxSusP : Nat
  maxSusE : Nat
  tRunP : Nat
  tRunE : Nat
  tHold : Nat
  /-- FCH_PROF word image; the last word is its checksum (R148). -/
  words : List Word
  deriving DecidableEq, Repr

/-- The reference PLC profile (Tables 3.1, 4.4, 5.22, 6.1). Its FCH_PROF image is not in the spec. -/
def Profile.ref : Profile :=
  { id := 1, iface := 0, rate := 36, bpc := 5, planes := 4, wordlines := 385, nblk := 3418, nres := 241, family := 1,
    offsetStep := 12, npe := 1500, levelMap := Config.refLevelMap, tR := 95000, tRMax := 95000, tStr := 15000, tRCls := 125000,
    tSf := 1000, tProg := 2200000, tProgMax := 2600000,
    tSlc := 220000, tSlcMax := 250000, tBers := 15000000, tBersMax := 25000000, tPor := 800000, tPorMax := 1000000,
    tRst := 40000, tRstMax := 450000, tSusP := 12000, tSusE := 15000, tRes := 10000, maxSusP := 6, maxSusE := 20,
    tRunP := 10000, tRunE := 50000, tHold := 380000, words := [] }

/-- What firmware takes from the layout stream in force (Table 14.3). -/
structure Layout where
  seq : Nat
  profile : Profile
  /-- Stripe width w. -/
  width : Nat
  /-- Fitted chip enables and LUNs of every fitted channel, and the fitted channels (UNITS). -/
  ces : Nat
  luns : Nat
  fitted : BitVec 48
  kmax : Nat
  /-- Kennels whose namespaces are made in plaintext (R390). -/
  plain : List Nat
  /-- Domains that the stream forbids OFF (R136). -/
  forbidOff : BitVec 96
  /-- Park idle time in ms, and park threshold in percent of the protected dirty limit (R93). -/
  parkIdleMs : Nat
  parkPct : Nat
  /-- MAPU segment cache in MiB (R285). -/
  cacheMib : Nat
  /-- Factory drift-bin table: section BINS (Tables 6.4, 14.3). -/
  bins : List Byte
  /-- SHA-384 of the stream. -/
  digest : BitVec 384
  deriving DecidableEq, Repr

/-- Layout of the reference build, with the spec's default for each value. -/
def Layout.ref : Layout :=
  { seq := 0, profile := Profile.ref, width := 16, ces := 4, luns := 8, fitted := BitVec.allOnes 48, kmax := 256, plain := [],
    forbidOff := 0#96, parkIdleMs := 2000, parkPct := 75, cacheMib := 2048, bins := [], digest := 0#384 }

/-- A codeword position on the dies (R258, Table 9.2). -/
structure Loc where
  die : Nat
  block : Nat
  wl : Nat
  page : Nat
  plane : Nat
  slot : Nat
  deriving DecidableEq, Repr

/-- Array operations of a LUN (FCH_LSTAT.OP). -/
inductive ArrOp where
  | read | program | erase | reset | resetLun | train
  deriving DecidableEq, Repr

/-- What a queued program or erase serves. -/
inductive JobFor where
  /-- Member `member` of a superblock's stripe row. -/
  | row (sb row member : Nat)
  /-- The pilot wordline of a block of a superblock, at its opening (R239). -/
  | pilot (sb : Nat)
  /-- Erase of a block, to be free again; `again` marks the one retry (R150, R169). -/
  | erase (again : Bool)
  /-- Erase of a block by a return to service (R169). -/
  | retErase (again : Bool)
  deriving DecidableEq, Repr

/-- A program or erase queued at a die (R125). -/
structure FJob where
  serves : JobFor
  erase : Bool
  slc : Bool
  block : Nat
  wl : Nat
  /-- Device time at which it joined the queue (R126). -/
  since : DWord
  /-- It holds a power token (R158). -/
  token : Bool
  /-- Token asked of the pacer and not yet granted. -/
  asked : Bool
  deriving DecidableEq, Repr

/-- The array operation in progress on a LUN. -/
structure ArrRun where
  op : ArrOp
  job : Option FJob
  suspended : Bool
  /-- A suspend has been issued and the die has not reported it (R134). -/
  suspending : Bool
  /-- Device time of its start or last resume, and nanoseconds run before that. -/
  since : DWord
  ran : Nat
  /-- Suspends counted for this operation (R128). -/
  suspends : Nat
  /-- Device time at which the present suspension took effect. -/
  heldAt : DWord
  /-- The suspension has lasted t_hold; the operation resumes once no read is in progress (R129, R154). -/
  due : Bool
  /-- The Reset LUN that R150 issues once more: a further timeout fails the LUN. -/
  last : Bool
  /-- Kennel of the read that chose the pending suspend (log 0xC6). -/
  kennel : Option Nat
  /-- Runs that were queued when the present suspension took effect (R129). -/
  heldQ : List Nat
  deriving DecidableEq, Repr

/-- Offset sources of a read (R176). -/
inductive VecSrc where
  | default_ | bin | pilot | sweep
  deriving DecidableEq, Repr

/-- A die (R11, R152, R175). -/
structure Die where
  /-- Unit state code (Table 2.12). -/
  st : Nat
  arr : Option ArrRun
  /-- Runs whose array read is in progress. -/
  reading : List Nat
  /-- Runs in the read queue, in deadline order (R125). -/
  rq : List Nat
  /-- Programs and erases in arrival order (R125). -/
  pq : List FJob
  /-- Device times of the last 24 hours' timeouts (R150). -/
  timeouts : List Nat
  progFails : Nat
  eraseFails : Nat
  /-- Offset vector last loaded, in whole steps by threshold; an unlisted offset is 0 (R175). -/
  vec : List (Nat × Int)
  /-- The program wait guard has fired for the oldest program or erase (R126). -/
  guard : Bool
  /-- Ready since the last reset of the waves (R163). -/
  ready : Bool
  /-- A take-out waits for the operations in progress (R168); its source, 0 host, 1 controller. -/
  leaving : Option Nat
  /-- A return to service: next block to erase and blocks retired by it so far (R169, R170). -/
  returning : Option (Nat × Nat)
  /-- Read counter c of the regular read-after-write sample (R228). -/
  rawCount : Nat
  /-- Entries of the reservoir that the last checkpoint lists and that are not yet taken (R294). -/
  resv : Nat
  deriving DecidableEq, Repr

/-- A die in service with nothing in progress. -/
def Die.init : Die :=
  { st := 1, arr := none, reading := [], rq := [], pq := [], timeouts := [], progFails := 0, eraseFails := 0,
    vec := [], guard := false, ready := false, leaving := none, returning := none, rawCount := 0, resv := 14 }

/-- Commands that a sequencer issues (Table 5.2), and the vendor-specific operations that the flash profile defines (R146). -/
inductive FchCmd where
  | reset | resetLun | readId | readParameterPage | setFeatures | getFeatures | zqLong | zqShort | read | readMulti | changeReadColumn
  | program | programMulti | erase | eraseMulti | readStatus
  | programSuspend | programResume | eraseSuspend | eraseResume | slcPrefix | readLevelOffset | softRead
  deriving DecidableEq, Repr

/-- ONFI opcodes of a command, first and last cycle (Table 5.2). A Toggle profile's JESD230 equivalents and the profile's vendor-specific
opcodes are not in the spec. -/
def FchCmd.onfi : FchCmd → List Nat
  | .reset => [0xFF] | .resetLun => [0xFA] | .readId => [0x90] | .readParameterPage => [0xEC] | .setFeatures => [0xEF]
  | .getFeatures => [0xEE] | .zqLong => [0xF9] | .zqShort => [0xD9] | .read => [0x00, 0x30] | .readMulti => [0x00, 0x32]
  | .changeReadColumn => [0x06, 0xE0] | .program => [0x80, 0x10] | .programMulti => [0x80, 0x11] | .erase => [0x60, 0xD0]
  | .eraseMulti => [0x60, 0xD1] | .readStatus => [0x78]
  | .programSuspend | .programResume | .eraseSuspend | .eraseResume | .slcPrefix | .readLevelOffset | .softRead => []

/-- What a sequencer last put on its bus: the one chip enable it asserts, the LUN address bits, and the commands in order (R145, R147). -/
structure BusOp where
  ce : Nat
  lun : Nat
  cmds : List FchCmd
  deriving DecidableEq, Repr

/-- State of a flash ball (Table 5.4). -/
inductive Ball where
  | high | low | idle | heldHigh | heldLow | hiZ | floating
  deriving DecidableEq, Repr

/-- A flash channel (R143–R172). -/
structure Chan where
  /-- Unit state code (Table 2.12). -/
  st : Nat
  /-- Rate trained, in 100 MT/s; 0 before training. -/
  rate : Nat
  /-- Bit c: target CE c trained. -/
  trained : BitVec 4
  /-- Bit c: target CE c marked failed. -/
  failed : BitVec 4
  /-- Package temperature at the last training of each target, 0.1 °C (R156). -/
  trainT : List (Nat × Int)
  /-- Calibration saved to PD0 retention (R157): rate, targets and package temperature. -/
  saved : Option (Nat × Nat × Int)
  /-- Package temperature, 0.1 °C, as the slow round last read it. -/
  pkgT : Int
  /-- Bring-up finished on this channel (R163). -/
  up : Bool
  /-- Device time of the last array operation start, for the thermal pause (R43, R472). -/
  lastStart : DWord
  /-- The thermal pause since the last start has passed. -/
  pauseOver : Bool
  /-- A take-out of the channel waits for its dies (R168); its source. -/
  leaving : Option Nat
  /-- A return of the whole channel is in progress. -/
  returning : Bool
  /-- A return forced the channel's domain ON (R169). -/
  forced : Bool
  /-- Bit c: target CE c waits to be calibrated and trained after a reset of its dies (R155). -/
  needTrain : BitVec 4
  /-- A reset or flush step 6 has placed the flash balls safe; the channel's domain has not turned OFF since (R167). -/
  safe : Bool
  /-- Last use of the flash bus. -/
  bus : Option BusOp
  deriving DecidableEq, Repr

/-- A channel in service, before training. -/
def Chan.init : Chan :=
  { st := 1, rate := 0, trained := 0#4, failed := 0#4, trainT := [], saved := none, pkgT := 250, up := false,
    lastStart := 0#64, pauseOver := true, leaving := none, returning := false, forced := false, needTrain := 0#4, safe := false, bus := none }

/-- The power-token pacer (R158–R163). -/
structure Pacer where
  /-- Tokens held, by traffic: 0 host, 1 garbage collection, 2 refresh. -/
  inuse : Nat
  /-- Requests in the order of their grant: die number and device time of arrival (R160). -/
  wait : List (Nat × Nat)
  /-- Device time of the last start in each Pack (R159). -/
  lastStart : List (Nat × DWord)
  /-- Dies still to be reset by the running waves, in order, and the device time of the next wave (R162). -/
  waves : List Nat
  nextWave : DWord
  waving : Bool
  deriving DecidableEq, Repr

/-- Detector modes (Table 6.7). -/
inductive DetMode where
  | hard | soft | neighbour | pilot | sweep
  deriving DecidableEq, Repr

/-- What the strobe buffer of a context holds: the soft bit-planes as each cell's bits in strobe order, and the class codes of the two
neighbours at −Δ, 0 and +Δ (R197, R199). -/
structure Strobes where
  planes : List (List Bool)
  classes : List ((Nat × Nat × Nat) × (Nat × Nat × Nat))
  deriving DecidableEq, Repr

/-- A detector (R197–R201). -/
structure Det where
  /-- Unit state code (Table 2.12). -/
  st : Nat
  /-- Run that holds each of the four contexts. -/
  ctx : List (Nat × Nat)
  /-- Strobe buffer of each context in use. -/
  bufs : List (Nat × Strobes)
  /-- Cached bin entries, newest first: index and 64-byte entry (R183). -/
  cache : List (Nat × List Byte)
  /-- Device times of aborts (R200). -/
  aborts : List Nat
  /-- A take-out waits for the contexts (R201); its source, 0 host, 1 controller. -/
  leaving : Option Nat
  /-- A self-test runs; as part of a return (R201). -/
  testing : Bool
  returning : Bool
  /-- Pilot result record in DET_PRES (Table 6.6). -/
  pres : List Byte
  /-- Output of the last job: result header and payload (R195). -/
  out : List Byte
  deriving DecidableEq, Repr

/-- A detector in service with four free contexts. -/
def Det.init : Det :=
  { st := 1, ctx := [], bufs := [], cache := [], aborts := [], leaving := none, testing := false, returning := false, pres := [],
    out := [] }

/-- What a Retriever run serves. -/
inductive RunFor where
  /-- LBA number `i` of the host command with this tag. -/
  | host (tag i : Nat)
  /-- A member read of another run's read-around, or of its step 6. -/
  | memberRa (run : Nat)
  | memberRb (run : Nat)
  /-- A read-after-write sample of a superblock's row; `last` marks the row's last wordline (R228). -/
  | raw (sb row member : Nat) (last : Bool)
  /-- A full pilot estimate: cadence or sweep sample, or after a Retriever report (R313, R319). -/
  | sample (report : Bool)
  /-- A codeword of the map journal (R298): its sequence number J, and whether the other block of its pair failed too. -/
  | journal (j : Nat) (both : Bool)
  /-- A codeword of an earlier row of a suspect block (R231, step 5). -/
  | scan
  deriving DecidableEq, Repr

/-- Where a run stands. -/
inductive RunSt where
  /-- In its die's read queue. -/
  | queued
  /-- In its die's queue with a busy die, having chosen to wait (R132). -/
  | waiting
  /-- A waiting read whose die has changed state, or which an earlier read has joined ahead of: it is decided again (R133). -/
  | again
  /-- Its array read is in progress. -/
  | reading
  /-- Read complete at the die; a detector context is wanted (R197). -/
  | wantCtx
  | detecting
  | decoding
  /-- Waiting for its member reads. -/
  | members
  /-- Waiting for the rebuild of its map segment (R280). -/
  | segment
  /-- Attached to another run on the same codeword (R216). -/
  | attached
  deriving DecidableEq, Repr

/-- A codeword read through the Retriever (R214). -/
structure Run where
  serves : RunFor
  st : RunSt
  loc : Loc
  sb : Nat
  k : Nat
  /-- SEQ_LO of the map entry that a conventional read goes by (R273). -/
  seqLo : Option Nat
  /-- LBA, namespace and Kennel of the dispatch record (R209). -/
  lba : Nat
  nsid : Nat
  kennel : Nat
  cls : Nat
  /-- Deadline in device-time ticks. -/
  deadline : Nat
  step : Nat
  /-- Device time at which it entered its step (log 0xC0). -/
  stepAt : Nat
  /-- Within step 0: 1 a read-around under way. Within step 2: 0 quick estimate, 1 hard read at PILOT. Within step 4: 0 class reads, 1 the
  soft planes of step 3 read again. Within step 5: 0 sweep, 1 soft read at SWEEP, 2 the class reads of step 4 read again (R200). -/
  sub : Nat
  /-- Offset vector of its last hard or soft read, by threshold (R178, R215). -/
  used : List (Nat × Int)
  /-- Offset vector of source PILOT, by threshold: the centre of the run's pilot estimate until that ends. -/
  vec : List (Nat × Int)
  /-- Offset vector of source SWEEP, and the thresholds flagged EDGE by the valley search (R194). -/
  sweep : List (Nat × Int)
  edges : List Nat
  /-- Its first flash operation has been handed to an FCH, and its bin index is fixed (R124, R180). -/
  sent : Bool
  /-- Deepest step reached (R216, R218). -/
  depth : Nat
  slc : Bool
  /-- Bin index placed in the dispatch record (R180). -/
  bin : Nat
  /-- Drift-bin entry that the job loaded at its start; empty for the fallback values (R182, R183). -/
  ent : List Byte
  /-- Sweep points and spacing of a pilot or sweep job (Table 6.5). -/
  points : Nat
  spacing : Nat
  /-- Device time at which it joined its queue, or at which its array read started. -/
  since : Nat
  /-- Decoder that has its codeword: hard ones by their numbers 0–47, soft ones as 48 + number; and one whose input failed, which the codeword
  does not go to again (R205, R210). -/
  dec : Option Nat
  decNot : Option Nat
  /-- Input of the decoders once the scrambler is removed: hard bits, or LLRs; empty where the detector gave none (R206). -/
  inHard : List Bool
  inLlr : List Int
  /-- Detector that aborted its last job: the reissue takes another one (R200). -/
  avoid : Option Nat
  /-- Detector and context held. -/
  det : Option (Nat × Nat)
  /-- Member runs outstanding, and whether one of them failed. -/
  members : List Nat
  lostMember : Bool
  /-- Other runs attached to this one (R216). -/
  attached : List Nat
  /-- Data of the copy named at admission (R102). -/
  data : Nat
  lost : Bool
  deriving DecidableEq, Repr

/-- A physical copy of a 4 KiB unit, with its codeword tag's content (Table 8.4). -/
structure Copy where
  nsid : Nat
  lba : Nat
  seq : Nat
  kennel : Nat
  cipher : Nat
  slot : Nat
  gen : Nat
  lost : Bool
  pad : Bool
  parked : Bool
  refresh : Bool
  /-- User data, as one value per block. -/
  data : Nat
  deriving DecidableEq, Repr

/-- A unit of a conventional namespace that is in DRAM with its tag and not placed yet: placement follows the completion (R38, step 7), or
waits for a free superblock (R287). -/
structure Loose where
  copy : Copy
  /-- Reclaim group and handle of its write (R97). -/
  group : Nat
  handle : Nat
  deriving DecidableEq, Repr

/-- Block states. -/
inductive BlkSt where
  | free | open_ | closed | erasing | retired
  deriving DecidableEq, Repr

/-- A pilot sample point: age in seconds since OPEN_TIME, and the largest error count (R317). -/
structure Sample where
  age : Nat
  count : Nat
  deriving DecidableEq, Repr

/-- A multi-plane block of a die. Key: die × 4,096 + block. Unlisted blocks are free and have never been erased. -/
structure Blk where
  st : BlkSt
  /-- Table 8.2. -/
  type : Nat
  sb : Nat
  erases : Nat
  /-- Media time of its opening. -/
  opened : Nat
  /-- Media time of its last sample. -/
  sampled : Nat
  refPt : Option Sample
  last : Option Sample
  /-- Urgent queueings, by media time (R327). -/
  urgents : List Nat
  /-- Flagged suspect by read-after-write or a program failure; retired at its next erase (R231, R327). -/
  suspect : Bool
  /-- Block descriptor programmed on its pilot wordline (Table 8.3). -/
  desc : List Byte
  /-- Its pilot wordline: 0 erased, 1 its program has started, 2 programmed (R239). -/
  pilot : Nat
  deriving DecidableEq, Repr

/-- A free block. -/
def Blk.init : Blk :=
  { st := .free, type := 0, sb := 0, erases := 0, opened := 0, sampled := 0, refPt := none, last := none, urgents := [],
    suspect := false, desc := [], pilot := 0 }

/-- A superblock. Key: SUPERBLOCK_ID (Table 8.3). -/
structure Sb where
  /-- Block type (Table 8.2). -/
  type : Nat
  nsid : Nat
  kennel : Nat
  pack : Nat
  width : Nat
  dieSet : Nat
  /-- Members: die and block, in ascending channel order (R256). -/
  members : List (Nat × Nat)
  /-- Replacements: member index, first row, die, block (R226, R231, R246). -/
  replaced : List (Nat × Nat × Nat × Nat)
  zslba : Nat
  zcap : Nat
  handle : Nat
  opened : Nat
  /-- Superblock being moved, 0 where REFRESH_TARGET = 0. -/
  source : Nat
  /-- Next unit position k. -/
  nextK : Nat
  /-- Units staged for each open row that are in DRAM (R211). -/
  staged : List (Nat × Nat)
  /-- Rows whose parity is programmed and whose samples passed. -/
  rowsDone : List Nat
  /-- Programs and samples outstanding per row (R40, R230). -/
  rowWait : List (Nat × Nat)
  closed : Bool
  /-- Segment filter bits (R307). -/
  filter : List Nat
  /-- Of a park superblock: the LBAs, as map keys, of every codeword ever programmed into it, stale ones included (R110). -/
  owners : List Nat
  deriving DecidableEq, Repr

/-- A superblock without members, content or place. -/
def Sb.blank : Sb :=
  { type := 0, nsid := 0, kennel := 0, pack := 0, width := 0, dieSet := 0, members := [], replaced := [], zslba := 0, zcap := 0, handle := 0,
    opened := 0, source := 0, nextK := 0, staged := [], rowsDone := [], rowWait := [], closed := false, filter := [], owners := [] }

/-- A map entry of a conventional LBA (Table 9.2), with the SEQ it was made under (R274). -/
inductive MapEnt where
  | unmapped (seq : Nat)
  | media (seq sb k : Nat)
  | lost (seq : Nat)
  deriving DecidableEq, Repr

/-- A journal record (Table 9.6). -/
structure JRec where
  type : Nat
  flags : Nat
  nsid : Nat
  count : Nat
  a : Nat
  b : Nat
  seq : Nat
  deriving DecidableEq, Repr

/-- A secure operation in progress or waiting on a Pack (R112, R303–R306). -/
structure SecOp where
  /-- Tags of the commands that complete with it. -/
  tags : List Nat
  pack : Nat
  /-- It erases in every Pack: a reset of a wide-stripe zone (R81). -/
  wide : Bool
  nsid : Nat
  /-- For a zone: its key in the zone table. -/
  zone : Option Nat
  lba : Nat
  n : Nat
  /-- s_d (R303). -/
  seq : Nat
  /-- Superblocks still to be erased; none is touched before the operation reaches the head of its Pack (R112). -/
  sbs : List Nat
  /-- The commands of its zone admitted before it have completed (R107). -/
  ready : Bool
  started : Bool
  /-- Blocks whose erasure it waits for: die and block. -/
  blocks : List (Nat × Nat)
  deriving DecidableEq, Repr

/-- A zone move or garbage-collection victim in progress (R270, R286). -/
structure Move where
  source : Nat
  target : Nat
  /-- Zone key of a zone move. -/
  zone : Option Nat
  /-- Units not yet switched: key of the unit and its position in the source (R288). -/
  units : List (Nat × Nat)
  gc : Bool
  deriving DecidableEq, Repr

/-- A superblock that waits to be erased until reads admitted before its switch end and its record is on media (R270). -/
structure Doomed where
  sb : Nat
  /-- Runs of reads admitted before the switch. -/
  runs : List Nat
  /-- Journal record number that must be on media. -/
  need : Nat
  deriving DecidableEq, Repr

/-- A sealed segment (R276). -/
structure Seal where
  version : Nat
  gen : Nat
  /-- Its 16-byte tag in the tag table, and the sealed entries in host memory (R276). -/
  tag : BitVec 128
  image : List Byte
  /-- Its copy in host memory fails verification (R279). -/
  bad : Bool
  deriving DecidableEq, Repr

/-- MAPU (R275–R288, R309). -/
structure Mapu where
  /-- Map entries by LBA: key NSID × 2^44 + LBA. -/
  map : List (Nat × MapEnt)
  /-- Sealed segments by segment number. -/
  seals : List (Nat × Seal)
  /-- Segments in the cache, in clock order, with their dirty flag. -/
  cache : List (Nat × Bool)
  /-- Segment base of each conventional namespace (R275). -/
  segBase : List (Nat × Nat)
  /-- Version counter (R278). -/
  version : Nat
  gen : Nat
  warned : Bool
  /-- Segments the running rekey sweep has still to reseal (R283). -/
  sweep : List Nat
  sweeping : Bool
  /-- Segments awaiting rebuild (R280). -/
  rebuild : List Nat
  /-- MAPU state code (Table 9.10). -/
  st : Nat
  deriving DecidableEq, Repr

/-- Content of a journal codeword (Table 9.5). -/
inductive JBody where
  /-- RECORDS: 128 records. -/
  | records (rs : List JRec)
  /-- SEGMENT: the 512 map entries of a segment. -/
  | segment (s : Nat) (es : List Nat)
  /-- ZONE_TABLE: 32 zone table entries from a device-wide zone index on. -/
  | zones (first : Nat) (es : List (List Byte))
  /-- FILTER: up to 7 superblocks, each with the set bits of its segment filter. -/
  | filters (fs : List (Nat × List Nat))
  deriving DecidableEq, Repr

/-- A mirrored pair of JOURNAL blocks (R289, R296). -/
structure LanePair where
  /-- Its number in the order of opening since the volume was made; its lane is that number modulo 16. -/
  no : Nat
  dieA : Nat
  blkA : Nat
  dieB : Nat
  blkB : Nat
  firstJ : Nat
  deriving DecidableEq, Repr

/-- The map journal (R289–R298). -/
structure Journal where
  /-- Records placed since the last flush began, oldest first. -/
  buf : List JRec
  /-- Records of the flush in progress. -/
  flushing : Option (List JRec)
  /-- Codewords of the flush in progress, by their J (R290). -/
  pend : List (Nat × JBody)
  /-- Content of the ring's tail, or of a codeword that failed on one block, that the next flush writes again at the head (R295, R298). -/
  carry : List JBody
  flushAt : DWord
  /-- Codewords on media in the ring, by their J, oldest first (R289, R290). -/
  words : List (Nat × JBody)
  /-- Records on media that recovery replays, oldest first. -/
  media : List JRec
  /-- Records placed since the volume was made. -/
  count : Nat
  /-- Records placed that are on media. -/
  onMedia : Nat
  /-- Journal sequence J of the next codeword, and of the tail. -/
  j : Nat
  tail : Nat
  /-- Lane pairs of the journal area. -/
  area : Nat
  /-- Lane pairs in use, oldest first. -/
  pairs : List LanePair
  /-- Lane pairs opened since the volume was made. -/
  opened : Nat
  /-- Pairs that have left the ring and wait for the checkpoint that names the new tail, and how many of them the flush in progress
  answers (R295). -/
  old : List LanePair
  oldAt : Nat
  deriving DecidableEq, Repr

/-- What recovery finds on media as the map's image (R299): the zone table and the map as of the last checkpoint or dump,
with the units and partly staged rows the dump holds. -/
structure Image where
  zones : List (Nat × Zone)
  map : List (Nat × MapEnt)
  /-- Dumped copies, by superblock and position. -/
  dump : List (Nat × Copy)
  /-- Dumped units that were not placed yet. -/
  loose : List Loose
  /-- The dump is newer than the last checkpoint. -/
  dumped : Bool
  deriving DecidableEq, Repr

/-- An early rebuild of a unit taken out (R226, R227): per Pack, units still to rebuild as (superblock, position). -/
structure Rebuild where
  left : List (Nat × Nat)
  done : Nat
  lost : Nat
  /-- Device time of the last codeword rebuilt (R227). -/
  lastAt : Option Nat
  deriving DecidableEq, Repr

/-- No rebuild. -/
def Rebuild.none : Rebuild := { left := [], done := 0, lost := 0, lastAt := Option.none }

/-- A replica of the volume descriptor (R259–R262): its die and VOLUME block, the first wordline of its newest generation, and that generation
with all its sections. -/
structure Replica where
  die : Nat
  block : Nat
  wl : Nat
  gen : Nat
  created : Nat
  uuid : BitVec 128
  /-- Content of the sections, as `Media.volume` holds it. -/
  volume : List (Nat × List Byte)
  deriving DecidableEq, Repr

/-- The media: what the flash holds and the translation layer's DRAM tables. -/
structure Media where
  layout : Layout
  /-- A volume exists: layout fields are frozen (R428). GENERATION and CREATED of its current descriptor. -/
  formatted : Bool
  volGen : Nat
  volCreated : Nat
  volWritten : Nat
  /-- VOLUME_UUID, set when the volume is created. -/
  volUuid : BitVec 128
  /-- Content of the current generation, trailing zeros left out: sections 0–4 by number, and the 64-byte namespace entries of
  sections 5–20 at 65,536 + NSID. -/
  volume : List (Nat × List Byte)
  /-- Replicas on media: key Pack × 3 + replica index (R259). -/
  replicas : List (Nat × Replica)
  /-- t_str, tR_cls and t_sf of the profile at format, which are frozen too (R174; DEDUCED, log entry 108). -/
  volRead : Nat × Nat × Nat
  /-- The current volume header carries another major version (R264). -/
  volUnknown : Bool
  blks : List (Nat × Blk)
  sbs : List (Nat × Sb)
  /-- Units in DRAM, not yet released: key superblock × 2^32 + k (R40). -/
  staged : List (Nat × Copy)
  /-- Units in DRAM that are not placed yet, in staging order (R38, R271, R287). -/
  loose : List Loose
  /-- Units programmed on flash and not erased: key superblock × 2^32 + k. -/
  copies : List (Nat × Copy)
  /-- Next write sequence number (R250). -/
  seqNext : Nat
  /-- Open superblocks of conventional namespaces: key reclaim group × 64 + handle, and GC targets at handle 63. -/
  openSb : List (Nat × Nat)
  /-- Open park superblock of a die set: key stripe width × 65,536 + DIE_SET (R94). -/
  parkSb : List (Nat × Nat)
  moves : List Move
  doomed : List Doomed
  secure : List SecOp
  mapu : Mapu
  jr : Journal
  image : Image
  /-- The image that the flush in progress will put on media. -/
  snap : Image
  rebuilds : List (Nat × Rebuild)
  /-- Reclaim groups and widths (Pack × 64 + width) in which collection runs until LOW_WM + 4, and reclaim groups whose token cap is lifted
  (R286, R287). -/
  gcOn : List Nat
  gcLifted : List Nat
  /-- Reserve blocks committed to the journal and dump areas, by Pack (R329). -/
  committed : List (Nat × Nat)
  /-- Packs whose namespaces are latched read-only (R330). -/
  floored : List Nat
  /-- Recovery has ended in this boot (R299). -/
  recovered : Bool
  /-- Staged data was lost in the start before this boot (log 0xC5 flags bit 2). -/
  stagedLost : Bool
  deriving DecidableEq, Repr

/-- Flash, detectors and reads in progress. -/
structure Flash where
  dies : List (Nat × Die)
  chans : List (Nat × Chan)
  pacer : Pacer
  dets : List (Nat × Det)
  /-- Context requests in deadline order: runs (R197). -/
  ctxWait : List Nat
  runs : List (Nat × Run)
  nextRun : Nat
  /-- Overflow reads per Pack (R125). -/
  overflow : List (Nat × List Nat)
  /-- Rebuild balance per Pack, in member reads × 25,000,000, and the device time it was reckoned at (R135). -/
  balance : List (Nat × Int × Nat)
  /-- Runs by deepest step since power-on (LDPC_STEP_CNT). -/
  stepCnt : List (Nat × Nat)
  /-- Log 0xC0: host reads by deepest step, keyed scope × 8 + step with scope 0 the device and 1–3 the Packs; the same by hour of
  device time, keyed (hour × 4 + scope) × 8 + step; the longest time in a step, in µs, keyed hour × 8 + step (R76). -/
  hostDepth : List (Nat × Nat)
  hourDepth : List (Nat × Nat)
  longest : List (Nat × Nat)
  deriving DecidableEq, Repr

/-- A refresh queue entry (R318, R321). -/
structure RefEnt where
  /-- Block key, die × 4,096 + block. -/
  blk : Nat
  urgent : Bool
  /-- Projected crossing: log2 of the age in seconds, in units of 2^−32; none where it is never reached. -/
  cross : Option Nat
  deriving DecidableEq, Repr

/-- A learning batch of a drift bin (R184): per threshold, estimates taken and the sum of differences in quarter steps. -/
structure Batch where
  n : Nat
  since : DWord
  sums : List (Nat × Int)
  counts : List (Nat × Nat)
  outliers : Nat
  deriving DecidableEq, Repr

/-- The Affineur (R310–R335). -/
structure Aff where
  /-- Media time, and HK ticks within the present second (R310). -/
  mtime : Nat
  ticks : Nat
  /-- 0 SAVED, 1 HOST, 2 BASE. -/
  timeSrc : Nat
  /-- Media time saved at the last power-down, for R315. -/
  savedAtDown : Nat
  /-- A Timestamp has arrived since EN (R315). -/
  stamped : Bool
  /-- State code (Table 10.8). -/
  st : Nat
  /-- Blocks of the present cycle or sweep still to sample, oldest first. -/
  todo : List Nat
  total : Nat
  /-- The paused cadence cycle while a sweep runs: blocks left and its total. -/
  paused : Option (List Nat × Nat)
  cycles : Nat
  /-- Pilot samples and refresh rewrites since format (log 0xC1). -/
  samples : Nat
  rewrites : Nat
  /-- Blocks retired since format, by Pack (log 0xC1). -/
  retired : List (Nat × Nat)
  queue : List RefEnt
  /-- Blocks reported by the Retriever whose full estimate is due (R319). -/
  reports : List Nat
  batches : List (Nat × Batch)
  /-- The learned table changed since its last write-back, and the device time of that (R185). -/
  learnDirty : Bool
  learnSaved : DWord
  /-- The copy that the next write-back of the learned table takes (Table 14.1). -/
  learnCopy : Bool
  /-- The 24 h share of deep reads stands above WARN_PPM (R331). -/
  ladderHigh : Bool
  /-- Daily backlog values per Pack, newest first (R323). -/
  daily : List (Nat × List Nat)
  /-- Early-warning flags (Table 10.5). -/
  ew : BitVec 4
  /-- Wear table image last written: erase counts by block key, and its media time (R326). -/
  wearImage : List (Nat × Nat)
  wearAt : Nat
  /-- A die was retired or a placeholder moved: critical warning bit 2 (R333). -/
  critReliability : Bool
  deriving DecidableEq, Repr

end Sys2Proof.Machine
end

