-- ==== Sys2Proof/Machine/Dev.lean ====
section
/-!
DEFINITION. The device: every part of the machine's state but the queue of waiting commands.
-/

namespace Sys2Proof.Machine

/-- The whole block but its command queue. -/
structure Dev where
  fuse : Fuse
  hw : Hw
  pins : Pins
  pwr : Pwr
  wh : Whistle
  curd : Curd
  sec : Sec
  sj : Settings
  boot : Boot
  holdup : Holdup
  therm : Therm
  mgmt : Mgmt
  jtag : Jtag
  host : HostSide
  ten : Tenancy
  fl : Flash
  med : Media
  aff : Aff
  deriving DecidableEq, Repr

end Sys2Proof.Machine
end

