-- ==== Sys2Proof/Machine/Flags.lean ====
section
/-!
DEFINITION. Bit and field helpers over 32-bit registers, saturating counters and the two CRCs of the format
(R13, R14, R235).
-/

namespace Sys2Proof.Machine

/-- Bit `i` of a register. -/
def bit (w : Word) (i : Nat) : Bool := w.getLsbD i

/-- The register with bit `i` set (W1S, R13). -/
def setBit (w : Word) (i : Nat) : Word := w ||| (1#32 <<< i)

/-- The register with bit `i` cleared. -/
def clrBit (w : Word) (i : Nat) : Word := w &&& ~~~(1#32 <<< i)

/-- The register with bit `i` equal to `b`. -/
def putBit (w : Word) (i : Nat) (b : Bool) : Word := if b then setBit w i else clrBit w i

/-- The number held in the `n` bits of a register that start at bit `lo`. -/
def fld (w : Word) (lo n : Nat) : Nat := (w >>> lo).toNat % 2 ^ n

/-- The register with the number `v` in the `n` bits that start at bit `lo`. -/
def putFld (w : Word) (lo n v : Nat) : Word :=
  (w &&& ~~~(BitVec.ofNat 32 (2 ^ n - 1) <<< lo)) ||| (BitVec.ofNat 32 (v % 2 ^ n) <<< lo)

/-- A write of `v` to a register holding `old`, where `rw` masks the RW bits; all other bits keep their value (R13). -/
def rwWrite (rw old v : Word) : Word := (old &&& ~~~rw) ||| (v &&& rw)

/-- A write of `v` to a register holding `old`, where `w1c` masks the W1C bits (R13). -/
def w1cWrite (w1c old v : Word) : Word := old &&& ~~~(v &&& w1c)

/-- A count raised by `k` that saturates at the top of an `n`-bit field. -/
def satAdd (n c k : Nat) : Nat := min (2 ^ n - 1) (c + k)

/-- A register count field raised by `k`, saturating (R13 fields described as saturating). -/
def bumpFld (w : Word) (lo n k : Nat) : Word := putFld w lo n (satAdd n (fld w lo n) k)

/-- The two's-complement reading of the low 16 bits of a register. -/
def s16 (w : Word) : Int := (w.setWidth 16).toInt

/-- A 16-bit two's-complement field from an integer. -/
def i16 (i : Int) : Nat := (BitVec.ofInt 16 i).toNat

/-- The `k` bytes of a number, lowest first (R234). -/
def leBytes : Nat → Nat → List Byte
  | 0, _ => []
  | k + 1, v => BitVec.ofNat 8 v :: leBytes k (v / 256)

/-- The number that a byte string spells, lowest byte first (R234). -/
def leNat : List Byte → Nat
  | [] => 0
  | b :: bs => b.toNat + 256 * leNat bs

/-- One bit of the unreflected CRC-16 with polynomial 0x1021 (R235). -/
def crc16Bit (c : BitVec 16) : BitVec 16 :=
  if c.getLsbD 15 then (c <<< 1) ^^^ 0x1021#16 else c <<< 1

/-- `k` bits of the CRC-16. -/
def crc16Bits : Nat → BitVec 16 → BitVec 16
  | 0, c => c
  | k + 1, c => crc16Bits k (crc16Bit c)

/-- CRC-16: polynomial 0x1021, unreflected, initial value 0xFFFF, no final XOR (R235). -/
def crc16 (bs : List Byte) : BitVec 16 :=
  bs.foldl (fun c b => crc16Bits 8 (c ^^^ ((b.setWidth 16 : BitVec 16) <<< (8 : Nat)))) 0xFFFF#16

/-- One bit of the reflected CRC32C (Castagnoli polynomial 0x1EDC_6F41, reflected 0x82F6_3B78; R235). -/
def crc32Bit (c : Word) : Word :=
  if c.getLsbD 0 then (c >>> 1) ^^^ 0x82F63B78#32 else c >>> 1

/-- `k` bits of the CRC32C. -/
def crc32Bits : Nat → Word → Word
  | 0, c => c
  | k + 1, c => crc32Bits k (crc32Bit c)

/-- CRC32C: reflected, initial value 0xFFFF_FFFF and final XOR 0xFFFF_FFFF (R235). -/
def crc32c (bs : List Byte) : Word :=
  (bs.foldl (fun c b => crc32Bits 8 (c ^^^ b.setWidth 32)) 0xFFFFFFFF#32) ^^^ 0xFFFFFFFF#32

end Sys2Proof.Machine
end

