-- ==== Sys2Proof/Machine/RegMap.lean ====
section
/-!
DEFINITION. The register map: the address of every register of Tables 0.3, 1.9 and of each block's register map, and one
row per register with its RW bits, its W1C bits, its reset value and whether it is kept over SYS_RESET_N and internal
resets ("since power-on" counts and latched records).
-/

namespace Sys2Proof.Machine

/-- One row of a block's register map. Entry `i` of the register lies at `off + stride * i`, for `i < count`. -/
structure RegRow where
  off : Nat
  stride : Nat
  count : Nat
  rw : Word
  w1c : Word
  reset : Word
  keep : Bool
  deriving DecidableEq, Repr

/-- Base of the ID register slot (Table 1.9). -/
def R.ID : Nat := 0xF000000000

/-- Address of ID_PART. -/
def R.ID_PART : Nat := 0xF000000000
/-- Address of ID_CAP0. -/
def R.ID_CAP0 : Nat := 0xF000000010
/-- Address of ID_CAP1. -/
def R.ID_CAP1 : Nat := 0xF000000014
/-- Address of ID_TIME_LO. -/
def R.ID_TIME_LO : Nat := 0xF000000020
/-- Address of ID_TIME_HI. -/
def R.ID_TIME_HI : Nat := 0xF000000024
/-- Address of ID_FABMON. -/
def R.ID_FABMON : Nat := 0xF000000030
/-- Address of ID_GPIO_OE. -/
def R.ID_GPIO_OE : Nat := 0xF000000040
/-- Address of ID_GPIO_OUT. -/
def R.ID_GPIO_OUT : Nat := 0xF000000044
/-- Address of ID_GPIO_IN. -/
def R.ID_GPIO_IN : Nat := 0xF000000048

/-- The register map of ID. -/
def regRowsID : List RegRow :=
  [{ off := 0x0, stride := 0x0, count := 1, rw := 0x0#32, w1c := 0x0#32, reset := 0x0#32, keep := false }
  , { off := 0x10, stride := 0x0, count := 1, rw := 0x0#32, w1c := 0x0#32, reset := 0x0#32, keep := false }
  , { off := 0x14, stride := 0x0, count := 1, rw := 0x0#32, w1c := 0x0#32, reset := 0x0#32, keep := false }
  , { off := 0x20, stride := 0x0, count := 1, rw := 0x0#32, w1c := 0x0#32, reset := 0x0#32, keep := false }
  , { off := 0x24, stride := 0x0, count := 1, rw := 0x0#32, w1c := 0x0#32, reset := 0x0#32, keep := false }
  , { off := 0x30, stride := 0x0, count := 1, rw := 0x0#32, w1c := 0x0#32, reset := 0x0#32, keep := true }
  , { off := 0x40, stride := 0x0, count := 1, rw := 0xFFF0#32, w1c := 0x0#32, reset := 0x0#32, keep := false }
  , { off := 0x44, stride := 0x0, count := 1, rw := 0xFFFF0#32, w1c := 0x0#32, reset := 0x0#32, keep := false }
  , { off := 0x48, stride := 0x0, count := 1, rw := 0x0#32, w1c := 0x0#32, reset := 0x0#32, keep := true } ]

/-- Base of the COLLAR register slot (Table 1.9). -/
def R.COLLAR : Nat := 0xF000010000

/-- Address of COLLAR_CTRL. -/
def R.COLLAR_CTRL : Nat := 0xF000010000
/-- Address of COLLAR_STAT. -/
def R.COLLAR_STAT : Nat := 0xF000010004
/-- Address of COLLAR_INT_STAT. -/
def R.COLLAR_INT_STAT : Nat := 0xF000010008
/-- Address of COLLAR_INT_EN. -/
def R.COLLAR_INT_EN : Nat := 0xF00001000C
/-- Address of COLLAR_TSEL. -/
def R.COLLAR_TSEL : Nat := 0xF000010010
/-- Address of COLLAR_WSEL. -/
def R.COLLAR_WSEL : Nat := 0xF000010014
/-- Address of COLLAR_TCFG. -/
def R.COLLAR_TCFG : Nat := 0xF000010018
/-- Address of COLLAR_WBASE_LO. -/
def R.COLLAR_WBASE_LO : Nat := 0xF000010020
/-- Address of COLLAR_WBASE_HI. -/
def R.COLLAR_WBASE_HI : Nat := 0xF000010024
/-- Address of COLLAR_WLIMIT_LO. -/
def R.COLLAR_WLIMIT_LO : Nat := 0xF000010028
/-- Address of COLLAR_WLIMIT_HI. -/
def R.COLLAR_WLIMIT_HI : Nat := 0xF00001002C
/-- Address of COLLAR_WCTRL. -/
def R.COLLAR_WCTRL : Nat := 0xF000010030
/-- Address of COLLAR_WR. -/
def R.COLLAR_WR (i : Nat) : Nat := 0xF000010040 + 0x4 * i
/-- Address of COLLAR_WW. -/
def R.COLLAR_WW (i : Nat) : Nat := 0xF000010050 + 0x4 * i
/-- Address of COLLAR_WX. -/
def R.COLLAR_WX (i : Nat) : Nat := 0xF000010060 + 0x4 * i
/-- Address of COLLAR_VCOUNT. -/
def R.COLLAR_VCOUNT : Nat := 0xF000010080
/-- Address of COLLAR_VINFO. -/
def R.COLLAR_VINFO : Nat := 0xF000010084
/-- Address of COLLAR_VADDR_LO. -/
def R.COLLAR_VADDR_LO : Nat := 0xF000010088
/-- Address of COLLAR_VADDR_HI. -/
def R.COLLAR_VADDR_HI : Nat := 0xF00001008C
/-- Address of COLLAR_ALARM_POL. -/
def R.COLLAR_ALARM_POL : Nat := 0xF0000100A0
/-- Address of COLLAR_ALARM_STAT. -/
def R.COLLAR_ALARM_STAT : Nat := 0xF0000100A4
/-- Address of COLLAR_BLOCKED. -/
def R.COLLAR_BLOCKED (i : Nat) : Nat := 0xF0000100B0 + 0x4 * i

/-- The register map of COLLAR. -/
def regRowsCOLLAR : List RegRow :=
  [{ off := 0x0, stride := 0x0, count := 1, rw := 0x0#32, w1c := 0x0#32, reset := 0x0#32, keep := false }
  , { off := 0x4, stride := 0x0, count := 1, rw := 0x0#32, w1c := 0x0#32, reset := 0x0#32, keep := false }
  , { off := 0x8, stride := 0x0, count := 1, rw := 0x0#32, w1c := 0x7#32, reset := 0x0#32, keep := false }
  , { off := 0xC, stride := 0x0, count := 1, rw := 0x7#32, w1c := 0x0#32, reset := 0x0#32, keep := false }
  , { off := 0x10, stride := 0x0, count := 1, rw := 0x1FF#32, w1c := 0x0#32, reset := 0x0#32, keep := false }
  , { off := 0x14, stride := 0x0, count := 1, rw := 0x1F#32, w1c := 0x0#32, reset := 0x0#32, keep := false }
  , { off := 0x18, stride := 0x0, count := 1, rw := 0x0#32, w1c := 0x0#32, reset := 0x0#32, keep := false }
  , { off := 0x20, stride := 0x0, count := 1, rw := 0x0#32, w1c := 0x0#32, reset := 0x0#32, keep := false }
  , { off := 0x24, stride := 0x0, count := 1, rw := 0x0#32, w1c := 0x0#32, reset := 0x0#32, keep := false }
  , { off := 0x28, stride := 0x0, count := 1, rw := 0x0#32, w1c := 0x0#32, reset := 0x0#32, keep := false }
  , { off := 0x2C, stride := 0x0, count := 1, rw := 0x0#32, w1c := 0x0#32, reset := 0x0#32, keep := false }
  , { off := 0x30, stride := 0x0, count := 1, rw := 0x0#32, w1c := 0x0#32, reset := 0x0#32, keep := false }
  , { off := 0x40, stride := 0x4, count := 4, rw := 0x0#32, w1c := 0x0#32, reset := 0x0#32, keep := false }
  , { off := 0x50, stride := 0x4, count := 4, rw := 0x0#32, w1c := 0x0#32, reset := 0x0#32, keep := false }
  , { off := 0x60, stride := 0x4, count := 4, rw := 0x0#32, w1c := 0x0#32, reset := 0x0#32, keep := false }
  , { off := 0x80, stride := 0x0, count := 1, rw := 0x0#32, w1c := 0x0#32, reset := 0x0#32, keep := true }
  , { off := 0x84, stride := 0x0, count := 1, rw := 0x0#32, w1c := 0x80000000#32, reset := 0x0#32, keep := false }
  , { off := 0x88, stride := 0x0, count := 1, rw := 0x0#32, w1c := 0x0#32, reset := 0x0#32, keep := false }
  , { off := 0x8C, stride := 0x0, count := 1, rw := 0x0#32, w1c := 0x0#32, reset := 0x0#32, keep := false }
  , { off := 0xA0, stride := 0x0, count := 1, rw := 0x3FF#32, w1c := 0x0#32, reset := 0x0#32, keep := false }
  , { off := 0xA4, stride := 0x0, count := 1, rw := 0x0#32, w1c := 0x1F#32, reset := 0x0#32, keep := false }
  , { off := 0xB0, stride := 0x4, count := 4, rw := 0x0#32, w1c := 0x0#32, reset := 0x0#32, keep := false } ]

/-- Base of the WHISTLE register slot (Table 1.9). -/
def R.WHISTLE : Nat := 0xF000020000

/-- Address of WH_CLSTAT. -/
def R.WH_CLSTAT : Nat := 0xF000020004
/-- Address of WH_XCFG. -/
def R.WH_XCFG (i : Nat) : Nat := 0xF000020400 + 0x4 * i
/-- Address of WH_PEND. -/
def R.WH_PEND (i : Nat) : Nat := 0xF000021000 + 0x4 * i
/-- Address of WH_PEND_SET. -/
def R.WH_PEND_SET (i : Nat) : Nat := 0xF000021100 + 0x4 * i
/-- Address of WH_PEND_CLR. -/
def R.WH_PEND_CLR (i : Nat) : Nat := 0xF000021200 + 0x4 * i
/-- Address of WH_MASK. -/
def R.WH_MASK (i : Nat) : Nat := 0xF000022000 + 0x4 * i
/-- Address of WH_MASK_SET. -/
def R.WH_MASK_SET (i : Nat) : Nat := 0xF000022100 + 0x4 * i
/-- Address of WH_MASK_CLR. -/
def R.WH_MASK_CLR (i : Nat) : Nat := 0xF000022200 + 0x4 * i
/-- Address of WH_ROUTE. -/
def R.WH_ROUTE (i : Nat) : Nat := 0xF000024000 + 0x4 * i
/-- Address of WH_THRESH. -/
def R.WH_THRESH (i : Nat) : Nat := 0xF000028000 + 0x20 * i
/-- Address of WH_CLAIM. -/
def R.WH_CLAIM (i : Nat) : Nat := 0xF000028004 + 0x20 * i
/-- Address of WH_LAST. -/
def R.WH_LAST (i : Nat) : Nat := 0xF000028008 + 0x20 * i
/-- Address of WH_MTIMECMP_LO. -/
def R.WH_MTIMECMP_LO (i : Nat) : Nat := 0xF00002A000 + 0x8 * i
/-- Address of WH_MTIMECMP_HI. -/
def R.WH_MTIMECMP_HI (i : Nat) : Nat := 0xF00002A004 + 0x8 * i
/-- Address of WH_MSIP. -/
def R.WH_MSIP (i : Nat) : Nat := 0xF00002A100 + 0x4 * i

/-- The register map of WHISTLE. -/
def regRowsWHISTLE : List RegRow :=
  [{ off := 0x4, stride := 0x0, count := 1, rw := 0x0#32, w1c := 0x0#32, reset := 0x0#32, keep := false }
  , { off := 0x400, stride := 0x4, count := 16, rw := 0x3FF#32, w1c := 0x0#32, reset := 0x19#32, keep := false }
  , { off := 0x1000, stride := 0x4, count := 32, rw := 0x0#32, w1c := 0x0#32, reset := 0x0#32, keep := false }
  , { off := 0x1100, stride := 0x4, count := 32, rw := 0x0#32, w1c := 0x0#32, reset := 0x0#32, keep := false }
  , { off := 0x1200, stride := 0x4, count := 32, rw := 0x0#32, w1c := 0x0#32, reset := 0x0#32, keep := false }
  , { off := 0x2000, stride := 0x4, count := 32, rw := 0xFFFFFFFF#32, w1c := 0x0#32, reset := 0xFFFFFFFF#32, keep := false }
  , { off := 0x2100, stride := 0x4, count := 32, rw := 0x0#32, w1c := 0x0#32, reset := 0x0#32, keep := false }
  , { off := 0x2200, stride := 0x4, count := 32, rw := 0x0#32, w1c := 0x0#32, reset := 0x0#32, keep := false }
  , { off := 0x4000, stride := 0x4, count := 1024, rw := 0x1EF#32, w1c := 0x0#32, reset := 0x0#32, keep := false }
  , { off := 0x8000, stride := 0x20, count := 32, rw := 0x7#32, w1c := 0x0#32, reset := 0x0#32, keep := false }
  , { off := 0x8004, stride := 0x20, count := 32, rw := 0x0#32, w1c := 0x0#32, reset := 0x0#32, keep := false }
  , { off := 0x8008, stride := 0x20, count := 32, rw := 0x0#32, w1c := 0x0#32, reset := 0x0#32, keep := false }
  , { off := 0xA000, stride := 0x8, count := 16, rw := 0xFFFFFFFF#32, w1c := 0x0#32, reset := 0xFFFFFFFF#32, keep := false }
  , { off := 0xA004, stride := 0x8, count := 16, rw := 0xFFFFFFFF#32, w1c := 0x0#32, reset := 0xFFFFFFFF#32, keep := false }
  , { off := 0xA100, stride := 0x4, count := 16, rw := 0x1#32, w1c := 0x0#32, reset := 0x0#32, keep := false } ]

/-- Base of the PWR register slot (Table 1.9). -/
def R.PWR : Nat := 0xF000030000

/-- Address of PWR_STAT. -/
def R.PWR_STAT : Nat := 0xF000030004
/-- Address of PWR_INT_STAT. -/
def R.PWR_INT_STAT : Nat := 0xF000030008
/-- Address of PWR_INT_EN. -/
def R.PWR_INT_EN : Nat := 0xF00003000C
/-- Address of PWR_CLVEC_LO. -/
def R.PWR_CLVEC_LO (i : Nat) : Nat := 0xF000030020 + 0x8 * i
/-- Address of PWR_CLVEC_HI. -/
def R.PWR_CLVEC_HI (i : Nat) : Nat := 0xF000030024 + 0x8 * i
/-- Address of PWR_DCTRL. -/
def R.PWR_DCTRL (i : Nat) : Nat := 0xF000031000 + 0x20 * i
/-- Address of PWR_DSTAT. -/
def R.PWR_DSTAT (i : Nat) : Nat := 0xF000031004 + 0x20 * i
/-- Address of PWR_RETT. -/
def R.PWR_RETT (i : Nat) : Nat := 0xF000031008 + 0x20 * i
/-- Address of PWR_OFFT. -/
def R.PWR_OFFT (i : Nat) : Nat := 0xF00003100C + 0x20 * i
/-- Address of PWR_LAST_WAKE. -/
def R.PWR_LAST_WAKE (i : Nat) : Nat := 0xF000031010 + 0x20 * i
/-- Address of PWR_LW_TIME_LO. -/
def R.PWR_LW_TIME_LO (i : Nat) : Nat := 0xF000031014 + 0x20 * i
/-- Address of PWR_LW_TIME_HI. -/
def R.PWR_LW_TIME_HI (i : Nat) : Nat := 0xF000031018 + 0x20 * i

/-- The register map of PWR. -/
def regRowsPWR : List RegRow :=
  [{ off := 0x4, stride := 0x0, count := 1, rw := 0x0#32, w1c := 0x0#32, reset := 0x0#32, keep := false }
  , { off := 0x8, stride := 0x0, count := 1, rw := 0x0#32, w1c := 0xF#32, reset := 0x0#32, keep := false }
  , { off := 0xC, stride := 0x0, count := 1, rw := 0xF#32, w1c := 0x0#32, reset := 0x0#32, keep := false }
  , { off := 0x20, stride := 0x8, count := 4, rw := 0xFFFFFFFC#32, w1c := 0x0#32, reset := 0x0#32, keep := false }
  , { off := 0x24, stride := 0x8, count := 4, rw := 0xFFFF#32, w1c := 0x0#32, reset := 0x0#32, keep := false }
  , { off := 0x1000, stride := 0x20, count := 96, rw := 0xC3#32, w1c := 0x0#32, reset := 0x40#32, keep := false }
  , { off := 0x1004, stride := 0x20, count := 96, rw := 0x0#32, w1c := 0x0#32, reset := 0x0#32, keep := false }
  , { off := 0x1008, stride := 0x20, count := 96, rw := 0xFFFFF#32, w1c := 0x0#32, reset := 0x0#32, keep := false }
  , { off := 0x100C, stride := 0x20, count := 96, rw := 0xFFFFF#32, w1c := 0x0#32, reset := 0x0#32, keep := false }
  , { off := 0x1010, stride := 0x20, count := 96, rw := 0x0#32, w1c := 0x0#32, reset := 0x0#32, keep := false }
  , { off := 0x1014, stride := 0x20, count := 96, rw := 0x0#32, w1c := 0x0#32, reset := 0x0#32, keep := false }
  , { off := 0x1018, stride := 0x20, count := 96, rw := 0x0#32, w1c := 0x0#32, reset := 0x0#32, keep := false } ]

/-- Base of the THERM register slot (Table 1.9). -/
def R.THERM : Nat := 0xF000040000

/-- Address of THERM_CTRL. -/
def R.THERM_CTRL : Nat := 0xF000040000
/-- Address of THERM_STAT. -/
def R.THERM_STAT : Nat := 0xF000040004
/-- Address of THERM_INT_STAT. -/
def R.THERM_INT_STAT : Nat := 0xF000040008
/-- Address of THERM_INT_EN. -/
def R.THERM_INT_EN : Nat := 0xF00004000C
/-- Address of THERM_JWARN. -/
def R.THERM_JWARN : Nat := 0xF000040010
/-- Address of THERM_JTHR. -/
def R.THERM_JTHR : Nat := 0xF000040014
/-- Address of THERM_JSHDN. -/
def R.THERM_JSHDN : Nat := 0xF000040018
/-- Address of THERM_FWARN. -/
def R.THERM_FWARN : Nat := 0xF000040020
/-- Address of THERM_FTHR. -/
def R.THERM_FTHR : Nat := 0xF000040024
/-- Address of THERM_FLIM. -/
def R.THERM_FLIM : Nat := 0xF000040028
/-- Address of THERM_JPAUSE. -/
def R.THERM_JPAUSE : Nat := 0xF000040030
/-- Address of THERM_THMMAP. -/
def R.THERM_THMMAP : Nat := 0xF000040034
/-- Address of THERM_SENS. -/
def R.THERM_SENS (i : Nat) : Nat := 0xF000040040 + 0x4 * i
/-- Address of THERM_CH_SEL. -/
def R.THERM_CH_SEL : Nat := 0xF000040080
/-- Address of THERM_CH_VAL. -/
def R.THERM_CH_VAL : Nat := 0xF000040084
/-- Address of THERM_CH_PAUSE. -/
def R.THERM_CH_PAUSE : Nat := 0xF000040088

/-- The register map of THERM. -/
def regRowsTHERM : List RegRow :=
  [{ off := 0x0, stride := 0x0, count := 1, rw := 0x3#32, w1c := 0x0#32, reset := 0x0#32, keep := false }
  , { off := 0x4, stride := 0x0, count := 1, rw := 0x0#32, w1c := 0x0#32, reset := 0x0#32, keep := false }
  , { off := 0x8, stride := 0x0, count := 1, rw := 0x0#32, w1c := 0xFF#32, reset := 0x0#32, keep := false }
  , { off := 0xC, stride := 0x0, count := 1, rw := 0xFF#32, w1c := 0x0#32, reset := 0x0#32, keep := false }
  , { off := 0x10, stride := 0x0, count := 1, rw := 0xFFF#32, w1c := 0x0#32, reset := 0x569#32, keep := false }
  , { off := 0x14, stride := 0x0, count := 1, rw := 0xFFF#32, w1c := 0x0#32, reset := 0x573#32, keep := false }
  , { off := 0x18, stride := 0x0, count := 1, rw := 0xFFF#32, w1c := 0x0#32, reset := 0xA87#32, keep := false }
  , { off := 0x20, stride := 0x0, count := 1, rw := 0xFFF#32, w1c := 0x0#32, reset := 0x346#32, keep := false }
  , { off := 0x24, stride := 0x0, count := 1, rw := 0xFFF#32, w1c := 0x0#32, reset := 0x34B#32, keep := false }
  , { off := 0x28, stride := 0x0, count := 1, rw := 0xFFF#32, w1c := 0x0#32, reset := 0x355#32, keep := false }
  , { off := 0x30, stride := 0x0, count := 1, rw := 0x3FF#32, w1c := 0x0#32, reset := 0xC8#32, keep := false }
  , { off := 0x34, stride := 0x0, count := 1, rw := 0xFFF#32, w1c := 0x0#32, reset := 0x0#32, keep := false }
  , { off := 0x40, stride := 0x4, count := 12, rw := 0x0#32, w1c := 0x0#32, reset := 0x80008000#32, keep := true }
  , { off := 0x80, stride := 0x0, count := 1, rw := 0x3F#32, w1c := 0x0#32, reset := 0x0#32, keep := false }
  , { off := 0x84, stride := 0x0, count := 1, rw := 0x0#32, w1c := 0x0#32, reset := 0x0#32, keep := false }
  , { off := 0x88, stride := 0x0, count := 1, rw := 0x0#32, w1c := 0x0#32, reset := 0x0#32, keep := false } ]

/-- Base of the RIND register slot (Table 1.9). -/
def R.RIND : Nat := 0xF000050000

/-- Address of RIND_CMD. -/
def R.RIND_CMD : Nat := 0xF000050000
/-- Address of RIND_STAT. -/
def R.RIND_STAT : Nat := 0xF000050004
/-- Address of RIND_INT_STAT. -/
def R.RIND_INT_STAT : Nat := 0xF000050008
/-- Address of RIND_INT_EN. -/
def R.RIND_INT_EN : Nat := 0xF00005000C
/-- Address of RIND_ADDR. -/
def R.RIND_ADDR : Nat := 0xF000050010
/-- Address of RIND_LEN. -/
def R.RIND_LEN : Nat := 0xF000050014
/-- Address of RIND_PW_LO. -/
def R.RIND_PW_LO : Nat := 0xF000050018
/-- Address of RIND_PW_HI. -/
def R.RIND_PW_HI : Nat := 0xF00005001C
/-- Address of RIND_RDSTAT. -/
def R.RIND_RDSTAT : Nat := 0xF000050020
/-- Address of RIND_LOCK_SEL. -/
def R.RIND_LOCK_SEL : Nat := 0xF000050024
/-- Address of RIND_LOCK. -/
def R.RIND_LOCK : Nat := 0xF000050028
/-- Address of RIND_BOOTCTL. -/
def R.RIND_BOOTCTL : Nat := 0xF000050030
/-- Address of RIND_BOOTWDT. -/
def R.RIND_BOOTWDT : Nat := 0xF000050034
/-- Address of RIND_PBUF. -/
def R.RIND_PBUF (i : Nat) : Nat := 0xF000050100 + 0x4 * i

/-- The register map of RIND. -/
def regRowsRIND : List RegRow :=
  [{ off := 0x0, stride := 0x0, count := 1, rw := 0x0#32, w1c := 0x0#32, reset := 0x0#32, keep := false }
  , { off := 0x4, stride := 0x0, count := 1, rw := 0x0#32, w1c := 0x0#32, reset := 0x0#32, keep := false }
  , { off := 0x8, stride := 0x0, count := 1, rw := 0x0#32, w1c := 0x3F#32, reset := 0x0#32, keep := false }
  , { off := 0xC, stride := 0x0, count := 1, rw := 0x3F#32, w1c := 0x0#32, reset := 0x0#32, keep := false }
  , { off := 0x10, stride := 0x0, count := 1, rw := 0xFFFFFF#32, w1c := 0x0#32, reset := 0x0#32, keep := false }
  , { off := 0x14, stride := 0x0, count := 1, rw := 0x1FF#32, w1c := 0x0#32, reset := 0x0#32, keep := false }
  , { off := 0x18, stride := 0x0, count := 1, rw := 0x0#32, w1c := 0x0#32, reset := 0x0#32, keep := false }
  , { off := 0x1C, stride := 0x0, count := 1, rw := 0x0#32, w1c := 0x0#32, reset := 0x0#32, keep := false }
  , { off := 0x20, stride := 0x0, count := 1, rw := 0x0#32, w1c := 0x0#32, reset := 0x0#32, keep := false }
  , { off := 0x24, stride := 0x0, count := 1, rw := 0x7#32, w1c := 0x0#32, reset := 0x0#32, keep := false }
  , { off := 0x28, stride := 0x0, count := 1, rw := 0x0#32, w1c := 0x0#32, reset := 0x0#32, keep := false }
  , { off := 0x30, stride := 0x0, count := 1, rw := 0x1#32, w1c := 0x0#32, reset := 0x0#32, keep := false }
  , { off := 0x34, stride := 0x0, count := 1, rw := 0x0#32, w1c := 0x0#32, reset := 0x0#32, keep := false }
  , { off := 0x100, stride := 0x4, count := 64, rw := 0xFFFFFFFF#32, w1c := 0x0#32, reset := 0x0#32, keep := false } ]

/-- Base of the EVREC register slot (Table 1.9). -/
def R.EVREC : Nat := 0xF000060000

/-- Address of EVREC_CTRL. -/
def R.EVREC_CTRL : Nat := 0xF000060000
/-- Address of EVREC_STAT. -/
def R.EVREC_STAT : Nat := 0xF000060004
/-- Address of EVREC_INT_STAT. -/
def R.EVREC_INT_STAT : Nat := 0xF000060008
/-- Address of EVREC_INT_EN. -/
def R.EVREC_INT_EN : Nat := 0xF00006000C
/-- Address of EVREC_WM. -/
def R.EVREC_WM : Nat := 0xF000060010
/-- Address of EVREC_DROP. -/
def R.EVREC_DROP : Nat := 0xF000060014
/-- Address of EVREC_PARG. -/
def R.EVREC_PARG (i : Nat) : Nat := 0xF000060020 + 0x4 * i
/-- Address of EVREC_POST. -/
def R.EVREC_POST : Nat := 0xF00006002C
/-- Address of EVREC_PRSP. -/
def R.EVREC_PRSP : Nat := 0xF000060030
/-- Address of EVREC_RL_SEL. -/
def R.EVREC_RL_SEL : Nat := 0xF000060040
/-- Address of EVREC_RL. -/
def R.EVREC_RL : Nat := 0xF000060044
/-- Address of EVREC_RL_SUPP. -/
def R.EVREC_RL_SUPP : Nat := 0xF000060048

/-- The register map of EVREC. -/
def regRowsEVREC : List RegRow :=
  [{ off := 0x0, stride := 0x0, count := 1, rw := 0x7701#32, w1c := 0x0#32, reset := 0x4301#32, keep := false }
  , { off := 0x4, stride := 0x0, count := 1, rw := 0x0#32, w1c := 0x0#32, reset := 0x0#32, keep := false }
  , { off := 0x8, stride := 0x0, count := 1, rw := 0x0#32, w1c := 0x3F#32, reset := 0x0#32, keep := false }
  , { off := 0xC, stride := 0x0, count := 1, rw := 0x3F#32, w1c := 0x0#32, reset := 0x0#32, keep := false }
  , { off := 0x10, stride := 0x0, count := 1, rw := 0xFFF#32, w1c := 0x0#32, reset := 0x400#32, keep := false }
  , { off := 0x14, stride := 0x0, count := 1, rw := 0x0#32, w1c := 0x0#32, reset := 0x0#32, keep := true }
  , { off := 0x20, stride := 0x4, count := 3, rw := 0x0#32, w1c := 0x0#32, reset := 0x0#32, keep := false }
  , { off := 0x2C, stride := 0x0, count := 1, rw := 0x0#32, w1c := 0x0#32, reset := 0x0#32, keep := false }
  , { off := 0x30, stride := 0x0, count := 1, rw := 0x0#32, w1c := 0x0#32, reset := 0x0#32, keep := false }
  , { off := 0x40, stride := 0x0, count := 1, rw := 0x1FF#32, w1c := 0x0#32, reset := 0x0#32, keep := false }
  , { off := 0x44, stride := 0x0, count := 1, rw := 0x0#32, w1c := 0x0#32, reset := 0x0#32, keep := false }
  , { off := 0x48, stride := 0x0, count := 1, rw := 0x0#32, w1c := 0x0#32, reset := 0x0#32, keep := false } ]

/-- Base of the CURD register slot (Table 1.9). -/
def R.CURD : Nat := 0xF000070000

/-- Address of CURD_CTRL. -/
def R.CURD_CTRL : Nat := 0xF000070000
/-- Address of CURD_STAT. -/
def R.CURD_STAT : Nat := 0xF000070004
/-- Address of CURD_INT_STAT. -/
def R.CURD_INT_STAT : Nat := 0xF000070008
/-- Address of CURD_INT_EN. -/
def R.CURD_INT_EN : Nat := 0xF00007000C
/-- Address of CURD_CMD. -/
def R.CURD_CMD : Nat := 0xF000070010
/-- Address of CURD_ARG_LO. -/
def R.CURD_ARG_LO : Nat := 0xF000070014
/-- Address of CURD_ARG_HI. -/
def R.CURD_ARG_HI : Nat := 0xF000070018
/-- Address of CURD_RSP_LO. -/
def R.CURD_RSP_LO : Nat := 0xF00007001C
/-- Address of CURD_RSP_HI. -/
def R.CURD_RSP_HI : Nat := 0xF000070020
/-- Address of CURD_FLUSH. -/
def R.CURD_FLUSH : Nat := 0xF000070024
/-- Address of CURD_ERR_INFO. -/
def R.CURD_ERR_INFO : Nat := 0xF000070028
/-- Address of CURD_ERR_PTR_LO. -/
def R.CURD_ERR_PTR_LO : Nat := 0xF00007002C
/-- Address of CURD_ERR_PTR_HI. -/
def R.CURD_ERR_PTR_HI : Nat := 0xF000070030
/-- Address of CURD_CBASE_LO. -/
def R.CURD_CBASE_LO (i : Nat) : Nat := 0xF000070100 + 0x10 * i
/-- Address of CURD_CBASE_HI. -/
def R.CURD_CBASE_HI (i : Nat) : Nat := 0xF000070104 + 0x10 * i
/-- Address of CURD_CCOUNT. -/
def R.CURD_CCOUNT (i : Nat) : Nat := 0xF000070108 + 0x10 * i
/-- Address of CURD_CFREE. -/
def R.CURD_CFREE (i : Nat) : Nat := 0xF00007010C + 0x10 * i

/-- The register map of CURD. -/
def regRowsCURD : List RegRow :=
  [{ off := 0x0, stride := 0x0, count := 1, rw := 0x0#32, w1c := 0x0#32, reset := 0x0#32, keep := false }
  , { off := 0x4, stride := 0x0, count := 1, rw := 0x0#32, w1c := 0x0#32, reset := 0x0#32, keep := false }
  , { off := 0x8, stride := 0x0, count := 1, rw := 0x0#32, w1c := 0xFFFF#32, reset := 0x0#32, keep := false }
  , { off := 0xC, stride := 0x0, count := 1, rw := 0xFFFF#32, w1c := 0x0#32, reset := 0x0#32, keep := false }
  , { off := 0x10, stride := 0x0, count := 1, rw := 0x0#32, w1c := 0x0#32, reset := 0x0#32, keep := false }
  , { off := 0x14, stride := 0x0, count := 1, rw := 0x0#32, w1c := 0x0#32, reset := 0x0#32, keep := false }
  , { off := 0x18, stride := 0x0, count := 1, rw := 0x0#32, w1c := 0x0#32, reset := 0x0#32, keep := false }
  , { off := 0x1C, stride := 0x0, count := 1, rw := 0x0#32, w1c := 0x0#32, reset := 0x0#32, keep := false }
  , { off := 0x20, stride := 0x0, count := 1, rw := 0x0#32, w1c := 0x0#32, reset := 0x0#32, keep := false }
  , { off := 0x24, stride := 0x0, count := 1, rw := 0x0#32, w1c := 0x0#32, reset := 0x0#32, keep := false }
  , { off := 0x28, stride := 0x0, count := 1, rw := 0x0#32, w1c := 0x0#32, reset := 0x0#32, keep := false }
  , { off := 0x2C, stride := 0x0, count := 1, rw := 0x0#32, w1c := 0x0#32, reset := 0x0#32, keep := false }
  , { off := 0x30, stride := 0x0, count := 1, rw := 0x0#32, w1c := 0x0#32, reset := 0x0#32, keep := false }
  , { off := 0x100, stride := 0x10, count := 6, rw := 0xFFFFFFFF#32, w1c := 0x0#32, reset := 0x0#32, keep := false }
  , { off := 0x104, stride := 0x10, count := 6, rw := 0x3FFFF#32, w1c := 0x0#32, reset := 0x0#32, keep := false }
  , { off := 0x108, stride := 0x10, count := 6, rw := 0xFFFF#32, w1c := 0x0#32, reset := 0x0#32, keep := false }
  , { off := 0x10C, stride := 0x10, count := 6, rw := 0x0#32, w1c := 0x0#32, reset := 0x0#32, keep := false } ]

/-- Base of the MEMCHK register slot (Table 1.9). -/
def R.MEMCHK : Nat := 0xF000080000

/-- Address of MEMCHK_CTRL. -/
def R.MEMCHK_CTRL : Nat := 0xF000080000
/-- Address of MEMCHK_INT_STAT. -/
def R.MEMCHK_INT_STAT : Nat := 0xF000080008
/-- Address of MEMCHK_INT_EN. -/
def R.MEMCHK_INT_EN : Nat := 0xF00008000C
/-- Address of MEMCHK_CE. -/
def R.MEMCHK_CE : Nat := 0xF000080010
/-- Address of MEMCHK_UE. -/
def R.MEMCHK_UE : Nat := 0xF000080014
/-- Address of MEMCHK_CE_REPEAT. -/
def R.MEMCHK_CE_REPEAT : Nat := 0xF000080018
/-- Address of MEMCHK_LAST_CE_LO. -/
def R.MEMCHK_LAST_CE_LO : Nat := 0xF000080020
/-- Address of MEMCHK_LAST_CE_HI. -/
def R.MEMCHK_LAST_CE_HI : Nat := 0xF000080024
/-- Address of MEMCHK_LAST_UE_LO. -/
def R.MEMCHK_LAST_UE_LO : Nat := 0xF000080028
/-- Address of MEMCHK_LAST_UE_HI. -/
def R.MEMCHK_LAST_UE_HI : Nat := 0xF00008002C
/-- Address of MEMCHK_SCRUB_BASE_LO. -/
def R.MEMCHK_SCRUB_BASE_LO : Nat := 0xF000080040
/-- Address of MEMCHK_SCRUB_BASE_HI. -/
def R.MEMCHK_SCRUB_BASE_HI : Nat := 0xF000080044
/-- Address of MEMCHK_SCRUB_LINES. -/
def R.MEMCHK_SCRUB_LINES : Nat := 0xF000080048
/-- Address of MEMCHK_SCRUB_CTRL. -/
def R.MEMCHK_SCRUB_CTRL : Nat := 0xF00008004C
/-- Address of MEMCHK_SCRUB_STAT. -/
def R.MEMCHK_SCRUB_STAT : Nat := 0xF000080050
/-- Address of MEMCHK_SCRUB_CE. -/
def R.MEMCHK_SCRUB_CE : Nat := 0xF000080054
/-- Address of MEMCHK_SCRUB_UE. -/
def R.MEMCHK_SCRUB_UE : Nat := 0xF000080058
/-- Address of MEMCHK_SCRUB_FIRST_LO. -/
def R.MEMCHK_SCRUB_FIRST_LO : Nat := 0xF00008005C
/-- Address of MEMCHK_SCRUB_FIRST_HI. -/
def R.MEMCHK_SCRUB_FIRST_HI : Nat := 0xF000080060
/-- Address of MEMCHK_TADDR_LO. -/
def R.MEMCHK_TADDR_LO : Nat := 0xF000080080
/-- Address of MEMCHK_TADDR_HI. -/
def R.MEMCHK_TADDR_HI : Nat := 0xF000080084
/-- Address of MEMCHK_TDATA_LO. -/
def R.MEMCHK_TDATA_LO : Nat := 0xF000080088
/-- Address of MEMCHK_TDATA_HI. -/
def R.MEMCHK_TDATA_HI : Nat := 0xF00008008C
/-- Address of MEMCHK_TCHECK. -/
def R.MEMCHK_TCHECK : Nat := 0xF000080090
/-- Address of MEMCHK_TCTRL. -/
def R.MEMCHK_TCTRL : Nat := 0xF000080094

/-- The register map of MEMCHK. -/
def regRowsMEMCHK : List RegRow :=
  [{ off := 0x0, stride := 0x0, count := 1, rw := 0x1#32, w1c := 0x0#32, reset := 0x0#32, keep := false }
  , { off := 0x8, stride := 0x0, count := 1, rw := 0x0#32, w1c := 0x3F#32, reset := 0x0#32, keep := false }
  , { off := 0xC, stride := 0x0, count := 1, rw := 0x3F#32, w1c := 0x0#32, reset := 0x0#32, keep := false }
  , { off := 0x10, stride := 0x0, count := 1, rw := 0x0#32, w1c := 0x0#32, reset := 0x0#32, keep := true }
  , { off := 0x14, stride := 0x0, count := 1, rw := 0x0#32, w1c := 0x0#32, reset := 0x0#32, keep := true }
  , { off := 0x18, stride := 0x0, count := 1, rw := 0x0#32, w1c := 0x0#32, reset := 0x0#32, keep := true }
  , { off := 0x20, stride := 0x0, count := 1, rw := 0x0#32, w1c := 0x0#32, reset := 0x0#32, keep := false }
  , { off := 0x24, stride := 0x0, count := 1, rw := 0x0#32, w1c := 0x0#32, reset := 0x0#32, keep := false }
  , { off := 0x28, stride := 0x0, count := 1, rw := 0x0#32, w1c := 0x0#32, reset := 0x0#32, keep := false }
  , { off := 0x2C, stride := 0x0, count := 1, rw := 0x0#32, w1c := 0x0#32, reset := 0x0#32, keep := false }
  , { off := 0x40, stride := 0x0, count := 1, rw := 0xFFFFFFFF#32, w1c := 0x0#32, reset := 0x0#32, keep := false }
  , { off := 0x44, stride := 0x0, count := 1, rw := 0xFFFF#32, w1c := 0x0#32, reset := 0x0#32, keep := false }
  , { off := 0x48, stride := 0x0, count := 1, rw := 0xFFFFFFFF#32, w1c := 0x0#32, reset := 0x0#32, keep := false }
  , { off := 0x4C, stride := 0x0, count := 1, rw := 0x0#32, w1c := 0x0#32, reset := 0x0#32, keep := false }
  , { off := 0x50, stride := 0x0, count := 1, rw := 0x0#32, w1c := 0x0#32, reset := 0x0#32, keep := false }
  , { off := 0x54, stride := 0x0, count := 1, rw := 0x0#32, w1c := 0x0#32, reset := 0x0#32, keep := false }
  , { off := 0x58, stride := 0x0, count := 1, rw := 0x0#32, w1c := 0x0#32, reset := 0x0#32, keep := false }
  , { off := 0x5C, stride := 0x0, count := 1, rw := 0x0#32, w1c := 0x0#32, reset := 0x0#32, keep := false }
  , { off := 0x60, stride := 0x0, count := 1, rw := 0x0#32, w1c := 0x0#32, reset := 0x0#32, keep := false }
  , { off := 0x80, stride := 0x0, count := 1, rw := 0xFFFFFFF8#32, w1c := 0x0#32, reset := 0x0#32, keep := false }
  , { off := 0x84, stride := 0x0, count := 1, rw := 0xFFFF#32, w1c := 0x0#32, reset := 0x0#32, keep := false }
  , { off := 0x88, stride := 0x0, count := 1, rw := 0xFFFFFFFF#32, w1c := 0x0#32, reset := 0x0#32, keep := false }
  , { off := 0x8C, stride := 0x0, count := 1, rw := 0xFFFFFFFF#32, w1c := 0x0#32, reset := 0x0#32, keep := false }
  , { off := 0x90, stride := 0x0, count := 1, rw := 0xFF#32, w1c := 0x0#32, reset := 0x0#32, keep := false }
  , { off := 0x94, stride := 0x0, count := 1, rw := 0x0#32, w1c := 0x0#32, reset := 0x0#32, keep := false } ]

/-- Base of the DRAMC register slot (Table 1.9). -/
def R.DRAMC : Nat := 0xF000090000

/-- Address of DRAMC_CTRL. -/
def R.DRAMC_CTRL : Nat := 0xF000090000
/-- Address of DRAMC_STAT. -/
def R.DRAMC_STAT : Nat := 0xF000090004
/-- Address of DRAMC_INT_STAT. -/
def R.DRAMC_INT_STAT : Nat := 0xF000090008
/-- Address of DRAMC_INT_EN. -/
def R.DRAMC_INT_EN : Nat := 0xF00009000C
/-- Address of DRAMC_CFG. -/
def R.DRAMC_CFG : Nat := 0xF000090010
/-- Address of DRAMC_INIT_PTR_LO. -/
def R.DRAMC_INIT_PTR_LO : Nat := 0xF000090014
/-- Address of DRAMC_INIT_PTR_HI. -/
def R.DRAMC_INIT_PTR_HI : Nat := 0xF000090018
/-- Address of DRAMC_ECC. -/
def R.DRAMC_ECC (i : Nat) : Nat := 0xF000090020 + 0x4 * i
/-- Address of DRAMC_ELOG_LO. -/
def R.DRAMC_ELOG_LO : Nat := 0xF000090040
/-- Address of DRAMC_ELOG_HI. -/
def R.DRAMC_ELOG_HI : Nat := 0xF000090044

/-- The register map of DRAMC. -/
def regRowsDRAMC : List RegRow :=
  [{ off := 0x0, stride := 0x0, count := 1, rw := 0x0#32, w1c := 0x0#32, reset := 0x0#32, keep := false }
  , { off := 0x4, stride := 0x0, count := 1, rw := 0x0#32, w1c := 0x0#32, reset := 0x0#32, keep := false }
  , { off := 0x8, stride := 0x0, count := 1, rw := 0x0#32, w1c := 0x3F#32, reset := 0x0#32, keep := false }
  , { off := 0xC, stride := 0x0, count := 1, rw := 0x3F#32, w1c := 0x0#32, reset := 0x0#32, keep := false }
  , { off := 0x10, stride := 0x0, count := 1, rw := 0xFFFF#32, w1c := 0x0#32, reset := 0x0#32, keep := false }
  , { off := 0x14, stride := 0x0, count := 1, rw := 0x0#32, w1c := 0x0#32, reset := 0x0#32, keep := false }
  , { off := 0x18, stride := 0x0, count := 1, rw := 0x0#32, w1c := 0x0#32, reset := 0x0#32, keep := false }
  , { off := 0x20, stride := 0x4, count := 4, rw := 0x0#32, w1c := 0x0#32, reset := 0x0#32, keep := true }
  , { off := 0x40, stride := 0x0, count := 1, rw := 0x0#32, w1c := 0x0#32, reset := 0x0#32, keep := false }
  , { off := 0x44, stride := 0x0, count := 1, rw := 0x0#32, w1c := 0x0#32, reset := 0x0#32, keep := false } ]

/-- Base of the KEYVAULT register slot (Table 1.9). -/
def R.KEYVAULT : Nat := 0xF0000A0000

/-- Address of KV_CTRL. -/
def R.KV_CTRL : Nat := 0xF0000A0000
/-- Address of KV_STAT. -/
def R.KV_STAT : Nat := 0xF0000A0004
/-- Address of KV_INT_STAT. -/
def R.KV_INT_STAT : Nat := 0xF0000A0008
/-- Address of KV_INT_EN. -/
def R.KV_INT_EN : Nat := 0xF0000A000C
/-- Address of KV_CMD. -/
def R.KV_CMD : Nat := 0xF0000A0010
/-- Address of KV_ARG_LO. -/
def R.KV_ARG_LO : Nat := 0xF0000A0014
/-- Address of KV_ARG_HI. -/
def R.KV_ARG_HI : Nat := 0xF0000A0018
/-- Address of KV_ARGLEN. -/
def R.KV_ARGLEN : Nat := 0xF0000A001C
/-- Address of KV_RSP. -/
def R.KV_RSP : Nat := 0xF0000A0020
/-- Address of KV_SSEL. -/
def R.KV_SSEL : Nat := 0xF0000A0030
/-- Address of KV_SLOT_INFO. -/
def R.KV_SLOT_INFO : Nat := 0xF0000A0034
/-- Address of KV_SLOT_CTR_LO. -/
def R.KV_SLOT_CTR_LO : Nat := 0xF0000A0038
/-- Address of KV_SLOT_CTR_HI. -/
def R.KV_SLOT_CTR_HI : Nat := 0xF0000A003C

/-- The register map of KEYVAULT. -/
def regRowsKEYVAULT : List RegRow :=
  [{ off := 0x0, stride := 0x0, count := 1, rw := 0x1#32, w1c := 0x0#32, reset := 0x0#32, keep := false }
  , { off := 0x4, stride := 0x0, count := 1, rw := 0x0#32, w1c := 0x0#32, reset := 0x0#32, keep := false }
  , { off := 0x8, stride := 0x0, count := 1, rw := 0x0#32, w1c := 0x3F#32, reset := 0x0#32, keep := false }
  , { off := 0xC, stride := 0x0, count := 1, rw := 0x3F#32, w1c := 0x0#32, reset := 0x0#32, keep := false }
  , { off := 0x10, stride := 0x0, count := 1, rw := 0x0#32, w1c := 0x0#32, reset := 0x0#32, keep := false }
  , { off := 0x14, stride := 0x0, count := 1, rw := 0x0#32, w1c := 0x0#32, reset := 0x0#32, keep := false }
  , { off := 0x18, stride := 0x0, count := 1, rw := 0x0#32, w1c := 0x0#32, reset := 0x0#32, keep := false }
  , { off := 0x1C, stride := 0x0, count := 1, rw := 0x0#32, w1c := 0x0#32, reset := 0x0#32, keep := false }
  , { off := 0x20, stride := 0x0, count := 1, rw := 0x0#32, w1c := 0x0#32, reset := 0x0#32, keep := false }
  , { off := 0x30, stride := 0x0, count := 1, rw := 0x1FFF#32, w1c := 0x0#32, reset := 0x0#32, keep := false }
  , { off := 0x34, stride := 0x0, count := 1, rw := 0x0#32, w1c := 0x0#32, reset := 0x0#32, keep := false }
  , { off := 0x38, stride := 0x0, count := 1, rw := 0x0#32, w1c := 0x0#32, reset := 0x0#32, keep := false }
  , { off := 0x3C, stride := 0x0, count := 1, rw := 0x0#32, w1c := 0x0#32, reset := 0x0#32, keep := false } ]

/-- Base of the SIGV register slot (Table 1.9). -/
def R.SIGV : Nat := 0xF0000B0000

/-- Address of SIGV_CTRL. -/
def R.SIGV_CTRL : Nat := 0xF0000B0000
/-- Address of SIGV_STAT. -/
def R.SIGV_STAT : Nat := 0xF0000B0004
/-- Address of SIGV_INT_STAT. -/
def R.SIGV_INT_STAT : Nat := 0xF0000B0008
/-- Address of SIGV_INT_EN. -/
def R.SIGV_INT_EN : Nat := 0xF0000B000C
/-- Address of SIGV_HSRC_LO. -/
def R.SIGV_HSRC_LO : Nat := 0xF0000B0010
/-- Address of SIGV_HSRC_HI. -/
def R.SIGV_HSRC_HI : Nat := 0xF0000B0014
/-- Address of SIGV_HLEN. -/
def R.SIGV_HLEN : Nat := 0xF0000B0018
/-- Address of SIGV_DIGEST. -/
def R.SIGV_DIGEST (i : Nat) : Nat := 0xF0000B0040 + 0x4 * i
/-- Address of SIGV_R. -/
def R.SIGV_R (i : Nat) : Nat := 0xF0000B0080 + 0x4 * i
/-- Address of SIGV_S. -/
def R.SIGV_S (i : Nat) : Nat := 0xF0000B00C0 + 0x4 * i
/-- Address of SIGV_QX. -/
def R.SIGV_QX (i : Nat) : Nat := 0xF0000B0100 + 0x4 * i
/-- Address of SIGV_QY. -/
def R.SIGV_QY (i : Nat) : Nat := 0xF0000B0140 + 0x4 * i
/-- Address of SIGV_QFMT. -/
def R.SIGV_QFMT : Nat := 0xF0000B0170
/-- Address of SIGV_RNG_DATA. -/
def R.SIGV_RNG_DATA : Nat := 0xF0000B0200
/-- Address of SIGV_RNG_STAT. -/
def R.SIGV_RNG_STAT : Nat := 0xF0000B0204
/-- Address of SIGV_REVOKE. -/
def R.SIGV_REVOKE : Nat := 0xF0000B0210

/-- The register map of SIGV. -/
def regRowsSIGV : List RegRow :=
  [{ off := 0x0, stride := 0x0, count := 1, rw := 0xC#32, w1c := 0x0#32, reset := 0x0#32, keep := false }
  , { off := 0x4, stride := 0x0, count := 1, rw := 0x0#32, w1c := 0x0#32, reset := 0x0#32, keep := false }
  , { off := 0x8, stride := 0x0, count := 1, rw := 0x0#32, w1c := 0xF#32, reset := 0x0#32, keep := false }
  , { off := 0xC, stride := 0x0, count := 1, rw := 0xF#32, w1c := 0x0#32, reset := 0x0#32, keep := false }
  , { off := 0x10, stride := 0x0, count := 1, rw := 0xFFFFFFFF#32, w1c := 0x0#32, reset := 0x0#32, keep := false }
  , { off := 0x14, stride := 0x0, count := 1, rw := 0xFFFF#32, w1c := 0x0#32, reset := 0x0#32, keep := false }
  , { off := 0x18, stride := 0x0, count := 1, rw := 0xFFFFFFFF#32, w1c := 0x0#32, reset := 0x0#32, keep := false }
  , { off := 0x40, stride := 0x4, count := 12, rw := 0xFFFFFFFF#32, w1c := 0x0#32, reset := 0x0#32, keep := false }
  , { off := 0x80, stride := 0x4, count := 12, rw := 0xFFFFFFFF#32, w1c := 0x0#32, reset := 0x0#32, keep := false }
  , { off := 0xC0, stride := 0x4, count := 12, rw := 0xFFFFFFFF#32, w1c := 0x0#32, reset := 0x0#32, keep := false }
  , { off := 0x100, stride := 0x4, count := 12, rw := 0xFFFFFFFF#32, w1c := 0x0#32, reset := 0x0#32, keep := false }
  , { off := 0x140, stride := 0x4, count := 12, rw := 0xFFFFFFFF#32, w1c := 0x0#32, reset := 0x0#32, keep := false }
  , { off := 0x170, stride := 0x0, count := 1, rw := 0xFF#32, w1c := 0x0#32, reset := 0x0#32, keep := false }
  , { off := 0x200, stride := 0x0, count := 1, rw := 0x0#32, w1c := 0x0#32, reset := 0x0#32, keep := false }
  , { off := 0x204, stride := 0x0, count := 1, rw := 0x0#32, w1c := 0x0#32, reset := 0x0#32, keep := true }
  , { off := 0x210, stride := 0x0, count := 1, rw := 0x0#32, w1c := 0x0#32, reset := 0x0#32, keep := false } ]

/-- Base of the HOSTIF register slot (Table 1.9). -/
def R.HOSTIF : Nat := 0xF0000C0000

/-- Address of HOSTIF_CTRL. -/
def R.HOSTIF_CTRL : Nat := 0xF0000C0000
/-- Address of HOSTIF_BOOT. -/
def R.HOSTIF_BOOT : Nat := 0xF0000C0004
/-- Address of HOSTIF_INT_STAT. -/
def R.HOSTIF_INT_STAT : Nat := 0xF0000C0008
/-- Address of HOSTIF_INT_EN. -/
def R.HOSTIF_INT_EN : Nat := 0xF0000C000C
/-- Address of HOSTIF_ARING_LO. -/
def R.HOSTIF_ARING_LO : Nat := 0xF0000C0010
/-- Address of HOSTIF_ARING_HI. -/
def R.HOSTIF_ARING_HI : Nat := 0xF0000C0014
/-- Address of HOSTIF_ARING_SIZE. -/
def R.HOSTIF_ARING_SIZE : Nat := 0xF0000C0018
/-- Address of HOSTIF_ARING_PTR. -/
def R.HOSTIF_ARING_PTR : Nat := 0xF0000C001C
/-- Address of HOSTIF_LINK. -/
def R.HOSTIF_LINK (i : Nat) : Nat := 0xF0000C0020 + 0x20 * i
/-- Address of HOSTIF_PTM_LO. -/
def R.HOSTIF_PTM_LO (i : Nat) : Nat := 0xF0000C0024 + 0x20 * i
/-- Address of HOSTIF_PTM_HI. -/
def R.HOSTIF_PTM_HI (i : Nat) : Nat := 0xF0000C0028 + 0x20 * i
/-- Address of HOSTIF_AER. -/
def R.HOSTIF_AER (i : Nat) : Nat := 0xF0000C002C + 0x20 * i
/-- Address of HOSTIF_CSEL. -/
def R.HOSTIF_CSEL : Nat := 0xF0000C0080
/-- Address of HOSTIF_CSTAT. -/
def R.HOSTIF_CSTAT : Nat := 0xF0000C0084
/-- Address of HOSTIF_CCTL. -/
def R.HOSTIF_CCTL : Nat := 0xF0000C0088
/-- Address of HOSTIF_ACQE0. -/
def R.HOSTIF_ACQE0 : Nat := 0xF0000C0090
/-- Address of HOSTIF_ACQE1. -/
def R.HOSTIF_ACQE1 : Nat := 0xF0000C0094
/-- Address of HOSTIF_ACQE3. -/
def R.HOSTIF_ACQE3 : Nat := 0xF0000C0098
/-- Address of HOSTIF_ACPL. -/
def R.HOSTIF_ACPL : Nat := 0xF0000C009C

/-- The register map of HOSTIF. -/
def regRowsHOSTIF : List RegRow :=
  [{ off := 0x0, stride := 0x0, count := 1, rw := 0x1#32, w1c := 0x0#32, reset := 0x0#32, keep := false }
  , { off := 0x4, stride := 0x0, count := 1, rw := 0x0#32, w1c := 0x0#32, reset := 0x0#32, keep := false }
  , { off := 0x8, stride := 0x0, count := 1, rw := 0x0#32, w1c := 0xFFFFFFFF#32, reset := 0x0#32, keep := false }
  , { off := 0xC, stride := 0x0, count := 1, rw := 0xFFFFFFFF#32, w1c := 0x0#32, reset := 0x0#32, keep := false }
  , { off := 0x10, stride := 0x0, count := 1, rw := 0xFFFFFF80#32, w1c := 0x0#32, reset := 0x0#32, keep := false }
  , { off := 0x14, stride := 0x0, count := 1, rw := 0xFFFF#32, w1c := 0x0#32, reset := 0x0#32, keep := false }
  , { off := 0x18, stride := 0x0, count := 1, rw := 0xFFFF#32, w1c := 0x0#32, reset := 0x0#32, keep := false }
  , { off := 0x1C, stride := 0x0, count := 1, rw := 0xFFFF#32, w1c := 0x0#32, reset := 0x0#32, keep := false }
  , { off := 0x20, stride := 0x20, count := 2, rw := 0x0#32, w1c := 0x0#32, reset := 0x0#32, keep := false }
  , { off := 0x24, stride := 0x20, count := 2, rw := 0x0#32, w1c := 0x0#32, reset := 0x0#32, keep := false }
  , { off := 0x28, stride := 0x20, count := 2, rw := 0x0#32, w1c := 0x0#32, reset := 0x0#32, keep := false }
  , { off := 0x2C, stride := 0x20, count := 2, rw := 0x0#32, w1c := 0x0#32, reset := 0x0#32, keep := true }
  , { off := 0x80, stride := 0x0, count := 1, rw := 0x1007F#32, w1c := 0x0#32, reset := 0x0#32, keep := false }
  , { off := 0x84, stride := 0x0, count := 1, rw := 0x0#32, w1c := 0x0#32, reset := 0x0#32, keep := false }
  , { off := 0x88, stride := 0x0, count := 1, rw := 0x0#32, w1c := 0x0#32, reset := 0x0#32, keep := false }
  , { off := 0x90, stride := 0x0, count := 1, rw := 0x0#32, w1c := 0x0#32, reset := 0x0#32, keep := false }
  , { off := 0x94, stride := 0x0, count := 1, rw := 0x0#32, w1c := 0x0#32, reset := 0x0#32, keep := false }
  , { off := 0x98, stride := 0x0, count := 1, rw := 0x0#32, w1c := 0x0#32, reset := 0x0#32, keep := false }
  , { off := 0x9C, stride := 0x0, count := 1, rw := 0x0#32, w1c := 0x0#32, reset := 0x0#32, keep := false } ]

/-- Base of the HERDER register slot (Table 1.9). -/
def R.HERDER : Nat := 0xF0000D0000

/-- Address of HERDER_CTRL. -/
def R.HERDER_CTRL : Nat := 0xF0000D0000
/-- Address of HERDER_PWAIT. -/
def R.HERDER_PWAIT : Nat := 0xF0000D0008
/-- Address of HERDER_COSTW. -/
def R.HERDER_COSTW : Nat := 0xF0000D000C
/-- Address of HERDER_INT_STAT. -/
def R.HERDER_INT_STAT : Nat := 0xF0000D0010
/-- Address of HERDER_INT_EN. -/
def R.HERDER_INT_EN : Nat := 0xF0000D0014
/-- Address of HERDER_RBRATE. -/
def R.HERDER_RBRATE (i : Nat) : Nat := 0xF0000D0020 + 0x10 * i
/-- Address of HERDER_RBBURST. -/
def R.HERDER_RBBURST (i : Nat) : Nat := 0xF0000D0024 + 0x10 * i
/-- Address of HERDER_RBBAL. -/
def R.HERDER_RBBAL (i : Nat) : Nat := 0xF0000D0028 + 0x10 * i
/-- Address of HERDER_RBDRAW. -/
def R.HERDER_RBDRAW (i : Nat) : Nat := 0xF0000D002C + 0x10 * i
/-- Address of HERDER_KSEL. -/
def R.HERDER_KSEL : Nat := 0xF0000D0080
/-- Address of HERDER_KSTAT. -/
def R.HERDER_KSTAT : Nat := 0xF0000D0084
/-- Address of HERDER_KMISS. -/
def R.HERDER_KMISS : Nat := 0xF0000D0088
/-- Address of HERDER_DIRTY. -/
def R.HERDER_DIRTY : Nat := 0xF0000D0090
/-- Address of HERDER_DLIMIT. -/
def R.HERDER_DLIMIT : Nat := 0xF0000D0094
/-- Address of HERDER_DSEL. -/
def R.HERDER_DSEL : Nat := 0xF0000D00A0
/-- Address of HERDER_DSTAT. -/
def R.HERDER_DSTAT : Nat := 0xF0000D00A4

/-- The register map of HERDER. -/
def regRowsHERDER : List RegRow :=
  [{ off := 0x0, stride := 0x0, count := 1, rw := 0x7#32, w1c := 0x0#32, reset := 0x6#32, keep := false }
  , { off := 0x8, stride := 0x0, count := 1, rw := 0xFFFF#32, w1c := 0x0#32, reset := 0x64#32, keep := false }
  , { off := 0xC, stride := 0x0, count := 1, rw := 0xFFFF#32, w1c := 0x0#32, reset := 0x1010#32, keep := false }
  , { off := 0x10, stride := 0x0, count := 1, rw := 0x0#32, w1c := 0x7F#32, reset := 0x0#32, keep := false }
  , { off := 0x14, stride := 0x0, count := 1, rw := 0x7F#32, w1c := 0x0#32, reset := 0x0#32, keep := false }
  , { off := 0x20, stride := 0x10, count := 3, rw := 0xFFFFFFFF#32, w1c := 0x0#32, reset := 0x30D40#32, keep := false }
  , { off := 0x24, stride := 0x10, count := 3, rw := 0xFFFFF#32, w1c := 0x0#32, reset := 0xFA0#32, keep := false }
  , { off := 0x28, stride := 0x10, count := 3, rw := 0x0#32, w1c := 0x0#32, reset := 0xFA0#32, keep := false }
  , { off := 0x2C, stride := 0x10, count := 3, rw := 0x0#32, w1c := 0x0#32, reset := 0x0#32, keep := true }
  , { off := 0x80, stride := 0x0, count := 1, rw := 0xFF#32, w1c := 0x0#32, reset := 0x0#32, keep := false }
  , { off := 0x84, stride := 0x0, count := 1, rw := 0x0#32, w1c := 0x0#32, reset := 0x0#32, keep := false }
  , { off := 0x88, stride := 0x0, count := 1, rw := 0x0#32, w1c := 0x0#32, reset := 0x0#32, keep := false }
  , { off := 0x90, stride := 0x0, count := 1, rw := 0x0#32, w1c := 0x0#32, reset := 0x0#32, keep := false }
  , { off := 0x94, stride := 0x0, count := 1, rw := 0x0#32, w1c := 0x0#32, reset := 0x80000#32, keep := false }
  , { off := 0xA0, stride := 0x0, count := 1, rw := 0x7FF#32, w1c := 0x0#32, reset := 0x0#32, keep := false }
  , { off := 0xA4, stride := 0x0, count := 1, rw := 0x0#32, w1c := 0x0#32, reset := 0x0#32, keep := false } ]

/-- Base of the MAPU register slot (Table 1.9). -/
def R.MAPU : Nat := 0xF0000E0000

/-- Address of MAPU_CTRL. -/
def R.MAPU_CTRL : Nat := 0xF0000E0000
/-- Address of MAPU_STAT. -/
def R.MAPU_STAT : Nat := 0xF0000E0004
/-- Address of MAPU_INT_STAT. -/
def R.MAPU_INT_STAT : Nat := 0xF0000E0008
/-- Address of MAPU_INT_EN. -/
def R.MAPU_INT_EN : Nat := 0xF0000E000C
/-- Address of MAPU_VER_LO. -/
def R.MAPU_VER_LO : Nat := 0xF0000E0010
/-- Address of MAPU_VER_HI. -/
def R.MAPU_VER_HI : Nat := 0xF0000E0014
/-- Address of MAPU_VER_WARN. -/
def R.MAPU_VER_WARN : Nat := 0xF0000E0018
/-- Address of MAPU_JCTRL. -/
def R.MAPU_JCTRL : Nat := 0xF0000E0020
/-- Address of MAPU_JSTAT. -/
def R.MAPU_JSTAT : Nat := 0xF0000E0024
/-- Address of MAPU_GC_CTRL. -/
def R.MAPU_GC_CTRL : Nat := 0xF0000E0030
/-- Address of MAPU_GC_STAT. -/
def R.MAPU_GC_STAT : Nat := 0xF0000E0034
/-- Address of MAPU_CACHE_HIT. -/
def R.MAPU_CACHE_HIT : Nat := 0xF0000E0040
/-- Address of MAPU_CACHE_MISS. -/
def R.MAPU_CACHE_MISS : Nat := 0xF0000E0044
/-- Address of MAPU_TAGFAIL. -/
def R.MAPU_TAGFAIL : Nat := 0xF0000E0048
/-- Address of MAPU_LASTFAIL. -/
def R.MAPU_LASTFAIL : Nat := 0xF0000E004C
/-- Address of MAPU_REKEY_LEFT. -/
def R.MAPU_REKEY_LEFT : Nat := 0xF0000E0050
/-- Address of MAPU_REC_TIME. -/
def R.MAPU_REC_TIME : Nat := 0xF0000E0054
/-- Address of MAPU_JBUF_SIZE. -/
def R.MAPU_JBUF_SIZE : Nat := 0xF0000E0058

/-- The register map of MAPU. -/
def regRowsMAPU : List RegRow :=
  [{ off := 0x0, stride := 0x0, count := 1, rw := 0x0#32, w1c := 0x0#32, reset := 0x0#32, keep := false }
  , { off := 0x4, stride := 0x0, count := 1, rw := 0x0#32, w1c := 0x0#32, reset := 0x0#32, keep := false }
  , { off := 0x8, stride := 0x0, count := 1, rw := 0x0#32, w1c := 0x1FFF#32, reset := 0x0#32, keep := false }
  , { off := 0xC, stride := 0x0, count := 1, rw := 0x1FFF#32, w1c := 0x0#32, reset := 0x0#32, keep := false }
  , { off := 0x10, stride := 0x0, count := 1, rw := 0x0#32, w1c := 0x0#32, reset := 0x0#32, keep := false }
  , { off := 0x14, stride := 0x0, count := 1, rw := 0x0#32, w1c := 0x0#32, reset := 0x0#32, keep := false }
  , { off := 0x18, stride := 0x0, count := 1, rw := 0xFFFF#32, w1c := 0x0#32, reset := 0x8000#32, keep := false }
  , { off := 0x20, stride := 0x0, count := 1, rw := 0xFF00FFFF#32, w1c := 0x0#32, reset := 0x4B000032#32, keep := false }
  , { off := 0x24, stride := 0x0, count := 1, rw := 0x0#32, w1c := 0x0#32, reset := 0x0#32, keep := false }
  , { off := 0x30, stride := 0x0, count := 1, rw := 0xFFFFFFFF#32, w1c := 0x0#32, reset := 0x801004#32, keep := false }
  , { off := 0x34, stride := 0x0, count := 1, rw := 0x0#32, w1c := 0x0#32, reset := 0x0#32, keep := false }
  , { off := 0x40, stride := 0x0, count := 1, rw := 0x0#32, w1c := 0x0#32, reset := 0x0#32, keep := true }
  , { off := 0x44, stride := 0x0, count := 1, rw := 0x0#32, w1c := 0x0#32, reset := 0x0#32, keep := true }
  , { off := 0x48, stride := 0x0, count := 1, rw := 0x0#32, w1c := 0x0#32, reset := 0x0#32, keep := true }
  , { off := 0x4C, stride := 0x0, count := 1, rw := 0x0#32, w1c := 0x0#32, reset := 0x0#32, keep := false }
  , { off := 0x50, stride := 0x0, count := 1, rw := 0x0#32, w1c := 0x0#32, reset := 0x0#32, keep := false }
  , { off := 0x54, stride := 0x0, count := 1, rw := 0x0#32, w1c := 0x0#32, reset := 0x0#32, keep := false }
  , { off := 0x58, stride := 0x0, count := 1, rw := 0x0#32, w1c := 0x0#32, reset := 0x1000#32, keep := false } ]

/-- Base of the AFFINEUR register slot (Table 1.9). -/
def R.AFFINEUR : Nat := 0xF0000F0000

/-- Address of AFFINEUR_CTRL. -/
def R.AFFINEUR_CTRL : Nat := 0xF0000F0000
/-- Address of AFFINEUR_STAT. -/
def R.AFFINEUR_STAT : Nat := 0xF0000F0004
/-- Address of AFFINEUR_INT_STAT. -/
def R.AFFINEUR_INT_STAT : Nat := 0xF0000F0008
/-- Address of AFFINEUR_INT_EN. -/
def R.AFFINEUR_INT_EN : Nat := 0xF0000F000C
/-- Address of AFFINEUR_CYCLE. -/
def R.AFFINEUR_CYCLE : Nat := 0xF0000F0010
/-- Address of AFFINEUR_MARGIN. -/
def R.AFFINEUR_MARGIN : Nat := 0xF0000F0014
/-- Address of AFFINEUR_SLOPE. -/
def R.AFFINEUR_SLOPE : Nat := 0xF0000F0018
/-- Address of AFFINEUR_LEARN. -/
def R.AFFINEUR_LEARN : Nat := 0xF0000F001C
/-- Address of AFFINEUR_REFRESH. -/
def R.AFFINEUR_REFRESH : Nat := 0xF0000F0020
/-- Address of AFFINEUR_SPARE. -/
def R.AFFINEUR_SPARE : Nat := 0xF0000F0024
/-- Address of AFFINEUR_WEAR. -/
def R.AFFINEUR_WEAR : Nat := 0xF0000F0028
/-- Address of AFFINEUR_LADDER. -/
def R.AFFINEUR_LADDER : Nat := 0xF0000F002C
/-- Address of AFFINEUR_MTIME_LO. -/
def R.AFFINEUR_MTIME_LO : Nat := 0xF0000F0030
/-- Address of AFFINEUR_MTIME_HI. -/
def R.AFFINEUR_MTIME_HI : Nat := 0xF0000F0034
/-- Address of AFFINEUR_SAMPLES. -/
def R.AFFINEUR_SAMPLES : Nat := 0xF0000F0038
/-- Address of AFFINEUR_BACKLOG. -/
def R.AFFINEUR_BACKLOG : Nat := 0xF0000F003C
/-- Address of AFFINEUR_EW. -/
def R.AFFINEUR_EW : Nat := 0xF0000F0040

/-- The register map of AFFINEUR. -/
def regRowsAFFINEUR : List RegRow :=
  [{ off := 0x0, stride := 0x0, count := 1, rw := 0x5#32, w1c := 0x0#32, reset := 0x0#32, keep := false }
  , { off := 0x4, stride := 0x0, count := 1, rw := 0x0#32, w1c := 0x0#32, reset := 0x0#32, keep := false }
  , { off := 0x8, stride := 0x0, count := 1, rw := 0x0#32, w1c := 0xFF#32, reset := 0x0#32, keep := false }
  , { off := 0xC, stride := 0x0, count := 1, rw := 0xFF#32, w1c := 0x0#32, reset := 0x0#32, keep := false }
  , { off := 0x10, stride := 0x0, count := 1, rw := 0xFF#32, w1c := 0x0#32, reset := 0x1E#32, keep := false }
  , { off := 0x14, stride := 0x0, count := 1, rw := 0xFFFFFFFF#32, w1c := 0x0#32, reset := 0x2EE01770#32, keep := false }
  , { off := 0x18, stride := 0x0, count := 1, rw := 0xFFFF#32, w1c := 0x0#32, reset := 0x190#32, keep := false }
  , { off := 0x1C, stride := 0x0, count := 1, rw := 0xFF00#32, w1c := 0x0#32, reset := 0x4000#32, keep := false }
  , { off := 0x20, stride := 0x0, count := 1, rw := 0xFFFFFF00#32, w1c := 0x0#32, reset := 0x401E00#32, keep := false }
  , { off := 0x24, stride := 0x0, count := 1, rw := 0xFFFFFFFF#32, w1c := 0x0#32, reset := 0x7D000C8#32, keep := false }
  , { off := 0x28, stride := 0x0, count := 1, rw := 0xFFFFFFFF#32, w1c := 0x0#32, reset := 0xC80050#32, keep := false }
  , { off := 0x2C, stride := 0x0, count := 1, rw := 0xFFFF#32, w1c := 0x0#32, reset := 0x32#32, keep := false }
  , { off := 0x30, stride := 0x0, count := 1, rw := 0x0#32, w1c := 0x0#32, reset := 0x0#32, keep := false }
  , { off := 0x34, stride := 0x0, count := 1, rw := 0x0#32, w1c := 0x0#32, reset := 0x0#32, keep := false }
  , { off := 0x38, stride := 0x0, count := 1, rw := 0x0#32, w1c := 0x0#32, reset := 0x0#32, keep := true }
  , { off := 0x3C, stride := 0x0, count := 1, rw := 0x0#32, w1c := 0x0#32, reset := 0x0#32, keep := false }
  , { off := 0x40, stride := 0x0, count := 1, rw := 0x0#32, w1c := 0x0#32, reset := 0x0#32, keep := false } ]

/-- Base of the HOLDUP register slot (Table 1.9). -/
def R.HOLDUP : Nat := 0xF000100000

/-- Address of HOLDUP_CTRL. -/
def R.HOLDUP_CTRL : Nat := 0xF000100000
/-- Address of HOLDUP_STAT. -/
def R.HOLDUP_STAT : Nat := 0xF000100004
/-- Address of HOLDUP_INT_STAT. -/
def R.HOLDUP_INT_STAT : Nat := 0xF000100008
/-- Address of HOLDUP_INT_EN. -/
def R.HOLDUP_INT_EN : Nat := 0xF00010000C
/-- Address of HOLDUP_CHG. -/
def R.HOLDUP_CHG : Nat := 0xF000100010
/-- Address of HOLDUP_BANK. -/
def R.HOLDUP_BANK : Nat := 0xF000100014
/-- Address of HOLDUP_SCALE. -/
def R.HOLDUP_SCALE : Nat := 0xF000100018
/-- Address of HOLDUP_CAP. -/
def R.HOLDUP_CAP : Nat := 0xF00010001C
/-- Address of HOLDUP_FLUSHP. -/
def R.HOLDUP_FLUSHP : Nat := 0xF000100020
/-- Address of HOLDUP_FLUSHT. -/
def R.HOLDUP_FLUSHT : Nat := 0xF000100024
/-- Address of HOLDUP_LIMIT. -/
def R.HOLDUP_LIMIT : Nat := 0xF000100028
/-- Address of HOLDUP_MEAS. -/
def R.HOLDUP_MEAS : Nat := 0xF00010002C
/-- Address of HOLDUP_VBANK. -/
def R.HOLDUP_VBANK : Nat := 0xF000100030
/-- Address of HOLDUP_ENERGY. -/
def R.HOLDUP_ENERGY : Nat := 0xF000100034
/-- Address of HOLDUP_FLUSH_US. -/
def R.HOLDUP_FLUSH_US : Nat := 0xF000100038

/-- The register map of HOLDUP. -/
def regRowsHOLDUP : List RegRow :=
  [{ off := 0x0, stride := 0x0, count := 1, rw := 0x8#32, w1c := 0x0#32, reset := 0x0#32, keep := false }
  , { off := 0x4, stride := 0x0, count := 1, rw := 0x0#32, w1c := 0x0#32, reset := 0x0#32, keep := false }
  , { off := 0x8, stride := 0x0, count := 1, rw := 0x0#32, w1c := 0xFF#32, reset := 0x0#32, keep := false }
  , { off := 0xC, stride := 0x0, count := 1, rw := 0xFF#32, w1c := 0x0#32, reset := 0x0#32, keep := false }
  , { off := 0x10, stride := 0x0, count := 1, rw := 0xFFFF#32, w1c := 0x0#32, reset := 0x0#32, keep := false }
  , { off := 0x14, stride := 0x0, count := 1, rw := 0xFFFFFFFF#32, w1c := 0x0#32, reset := 0xDAC04B0#32, keep := false }
  , { off := 0x18, stride := 0x0, count := 1, rw := 0xFFFFFFFF#32, w1c := 0x0#32, reset := 0x0#32, keep := false }
  , { off := 0x1C, stride := 0x0, count := 1, rw := 0xFFFF0000#32, w1c := 0x0#32, reset := 0x0#32, keep := false }
  , { off := 0x20, stride := 0x0, count := 1, rw := 0xFFFFFFFF#32, w1c := 0x0#32, reset := 0x505A1470#32, keep := false }
  , { off := 0x24, stride := 0x0, count := 1, rw := 0xFFFFFFFF#32, w1c := 0x0#32, reset := 0xFA06666#32, keep := false }
  , { off := 0x28, stride := 0x0, count := 1, rw := 0xFFFFFFFF#32, w1c := 0x0#32, reset := 0x2000100#32, keep := false }
  , { off := 0x2C, stride := 0x0, count := 1, rw := 0xFFFFFFFF#32, w1c := 0x0#32, reset := 0x180A00C8#32, keep := false }
  , { off := 0x30, stride := 0x0, count := 1, rw := 0x0#32, w1c := 0x0#32, reset := 0x0#32, keep := false }
  , { off := 0x34, stride := 0x0, count := 1, rw := 0x0#32, w1c := 0x0#32, reset := 0x0#32, keep := false }
  , { off := 0x38, stride := 0x0, count := 1, rw := 0x0#32, w1c := 0x0#32, reset := 0x0#32, keep := false } ]

/-- Base of the MGMT register slot (Table 1.9). -/
def R.MGMT : Nat := 0xF000110000

/-- Address of MGMT_CTRL. -/
def R.MGMT_CTRL : Nat := 0xF000110000
/-- Address of MGMT_STAT. -/
def R.MGMT_STAT : Nat := 0xF000110004
/-- Address of MGMT_INT_STAT. -/
def R.MGMT_INT_STAT : Nat := 0xF000110008
/-- Address of MGMT_INT_EN. -/
def R.MGMT_INT_EN : Nat := 0xF00011000C
/-- Address of MGMT_ADDR. -/
def R.MGMT_ADDR : Nat := 0xF000110010
/-- Address of MGMT_RXCTL. -/
def R.MGMT_RXCTL : Nat := 0xF000110020
/-- Address of MGMT_TXCTL. -/
def R.MGMT_TXCTL : Nat := 0xF000110024
/-- Address of MGMT_TXDST. -/
def R.MGMT_TXDST : Nat := 0xF000110028
/-- Address of MGMT_RXBUF. -/
def R.MGMT_RXBUF (i : Nat) : Nat := 0xF000111000 + 0x4 * i
/-- Address of MGMT_TXBUF. -/
def R.MGMT_TXBUF (i : Nat) : Nat := 0xF000113000 + 0x4 * i

/-- The register map of MGMT. -/
def regRowsMGMT : List RegRow :=
  [{ off := 0x0, stride := 0x0, count := 1, rw := 0x3#32, w1c := 0x0#32, reset := 0x2#32, keep := false }
  , { off := 0x4, stride := 0x0, count := 1, rw := 0x0#32, w1c := 0x0#32, reset := 0x0#32, keep := false }
  , { off := 0x8, stride := 0x0, count := 1, rw := 0x0#32, w1c := 0x1F#32, reset := 0x0#32, keep := false }
  , { off := 0xC, stride := 0x0, count := 1, rw := 0x1F#32, w1c := 0x0#32, reset := 0x0#32, keep := false }
  , { off := 0x10, stride := 0x0, count := 1, rw := 0x7F#32, w1c := 0x0#32, reset := 0x1D#32, keep := false }
  , { off := 0x20, stride := 0x0, count := 1, rw := 0x0#32, w1c := 0x0#32, reset := 0x0#32, keep := false }
  , { off := 0x24, stride := 0x0, count := 1, rw := 0xFFFFFF#32, w1c := 0x0#32, reset := 0x0#32, keep := false }
  , { off := 0x28, stride := 0x0, count := 1, rw := 0x7FF#32, w1c := 0x0#32, reset := 0x0#32, keep := false }
  , { off := 0x1000, stride := 0x4, count := 2048, rw := 0x0#32, w1c := 0x0#32, reset := 0x0#32, keep := false }
  , { off := 0x3000, stride := 0x4, count := 2048, rw := 0xFFFFFFFF#32, w1c := 0x0#32, reset := 0x0#32, keep := false } ]

/-- Base of the XORU register slot (Table 1.9). -/
def R.XORU : Nat := 0xF000120000

/-- Address of XORU_CTRL. -/
def R.XORU_CTRL : Nat := 0xF000120000
/-- Address of XORU_STAT. -/
def R.XORU_STAT : Nat := 0xF000120004
/-- Address of XORU_INT_STAT. -/
def R.XORU_INT_STAT : Nat := 0xF000120008
/-- Address of XORU_INT_EN. -/
def R.XORU_INT_EN : Nat := 0xF00012000C
/-- Address of XORU_RBLD_RATE. -/
def R.XORU_RBLD_RATE (i : Nat) : Nat := 0xF000120020 + 0x10 * i
/-- Address of XORU_RBLD_LEFT. -/
def R.XORU_RBLD_LEFT (i : Nat) : Nat := 0xF000120024 + 0x10 * i
/-- Address of XORU_RBLD_LOST. -/
def R.XORU_RBLD_LOST (i : Nat) : Nat := 0xF000120028 + 0x10 * i

/-- The register map of XORU. -/
def regRowsXORU : List RegRow :=
  [{ off := 0x0, stride := 0x0, count := 1, rw := 0x1#32, w1c := 0x0#32, reset := 0x0#32, keep := false }
  , { off := 0x4, stride := 0x0, count := 1, rw := 0x0#32, w1c := 0x0#32, reset := 0x0#32, keep := false }
  , { off := 0x8, stride := 0x0, count := 1, rw := 0x0#32, w1c := 0x7F#32, reset := 0x0#32, keep := false }
  , { off := 0xC, stride := 0x0, count := 1, rw := 0x7F#32, w1c := 0x0#32, reset := 0x0#32, keep := false }
  , { off := 0x20, stride := 0x10, count := 3, rw := 0xFFFFFFFF#32, w1c := 0x0#32, reset := 0x9C40#32, keep := false }
  , { off := 0x24, stride := 0x10, count := 3, rw := 0x0#32, w1c := 0x0#32, reset := 0x0#32, keep := false }
  , { off := 0x28, stride := 0x10, count := 3, rw := 0x0#32, w1c := 0x0#32, reset := 0x0#32, keep := true } ]

/-- Base of the LDPC register slot (Table 1.9). -/
def R.LDPC : Nat := 0xF000130000

/-- Address of LDPC_CTRL. -/
def R.LDPC_CTRL : Nat := 0xF000130000
/-- Address of LDPC_STAT. -/
def R.LDPC_STAT : Nat := 0xF000130004
/-- Address of LDPC_INT_STAT. -/
def R.LDPC_INT_STAT : Nat := 0xF000130008
/-- Address of LDPC_INT_EN. -/
def R.LDPC_INT_EN : Nat := 0xF00013000C
/-- Address of LDPC_RAW_CTRL. -/
def R.LDPC_RAW_CTRL : Nat := 0xF000130010
/-- Address of LDPC_RAW_SAMPLES. -/
def R.LDPC_RAW_SAMPLES : Nat := 0xF000130014
/-- Address of LDPC_RAW_FAILS. -/
def R.LDPC_RAW_FAILS : Nat := 0xF000130018
/-- Address of LDPC_STEP_SEL. -/
def R.LDPC_STEP_SEL : Nat := 0xF000130020
/-- Address of LDPC_STEP_CNT. -/
def R.LDPC_STEP_CNT : Nat := 0xF000130024
/-- Address of LDPC_UNREC. -/
def R.LDPC_UNREC : Nat := 0xF000130028
/-- Address of LDPC_LUNREC0. -/
def R.LDPC_LUNREC0 : Nat := 0xF00013002C
/-- Address of LDPC_LUNREC1. -/
def R.LDPC_LUNREC1 : Nat := 0xF000130030
/-- Address of LDPC_ECC. -/
def R.LDPC_ECC : Nat := 0xF000130034

/-- The register map of LDPC. -/
def regRowsLDPC : List RegRow :=
  [{ off := 0x0, stride := 0x0, count := 1, rw := 0x1#32, w1c := 0x0#32, reset := 0x0#32, keep := false }
  , { off := 0x4, stride := 0x0, count := 1, rw := 0x0#32, w1c := 0x0#32, reset := 0x0#32, keep := false }
  , { off := 0x8, stride := 0x0, count := 1, rw := 0x0#32, w1c := 0x3F#32, reset := 0x0#32, keep := false }
  , { off := 0xC, stride := 0x0, count := 1, rw := 0x3F#32, w1c := 0x0#32, reset := 0x0#32, keep := false }
  , { off := 0x10, stride := 0x0, count := 1, rw := 0xFFFF007F#32, w1c := 0x0#32, reset := 0xC00001#32, keep := false }
  , { off := 0x14, stride := 0x0, count := 1, rw := 0x0#32, w1c := 0x0#32, reset := 0x0#32, keep := true }
  , { off := 0x18, stride := 0x0, count := 1, rw := 0x0#32, w1c := 0x0#32, reset := 0x0#32, keep := true }
  , { off := 0x20, stride := 0x0, count := 1, rw := 0x7#32, w1c := 0x0#32, reset := 0x0#32, keep := false }
  , { off := 0x24, stride := 0x0, count := 1, rw := 0x0#32, w1c := 0x0#32, reset := 0x0#32, keep := false }
  , { off := 0x28, stride := 0x0, count := 1, rw := 0x0#32, w1c := 0x0#32, reset := 0x0#32, keep := true }
  , { off := 0x2C, stride := 0x0, count := 1, rw := 0x0#32, w1c := 0x0#32, reset := 0x0#32, keep := false }
  , { off := 0x30, stride := 0x0, count := 1, rw := 0x0#32, w1c := 0x0#32, reset := 0x0#32, keep := false }
  , { off := 0x34, stride := 0x0, count := 1, rw := 0x0#32, w1c := 0x0#32, reset := 0x0#32, keep := true } ]

/-- Base of the CIPHER register slot (Table 1.9). -/
def R.CIPHER (n : Nat) : Nat := 0xF000200000 + 0x10000 * n

/-- Address of CIPHER_CTRL. -/
def R.CIPHER_CTRL (n : Nat) : Nat := 0xF000200000 + 0x10000 * n
/-- Address of CIPHER_STAT. -/
def R.CIPHER_STAT (n : Nat) : Nat := 0xF000200004 + 0x10000 * n
/-- Address of CIPHER_INT_STAT. -/
def R.CIPHER_INT_STAT (n : Nat) : Nat := 0xF000200008 + 0x10000 * n
/-- Address of CIPHER_INT_EN. -/
def R.CIPHER_INT_EN (n : Nat) : Nat := 0xF00020000C + 0x10000 * n
/-- Address of CIPHER_JMODE. -/
def R.CIPHER_JMODE (n : Nat) : Nat := 0xF000200010 + 0x10000 * n
/-- Address of CIPHER_JSRC_LO. -/
def R.CIPHER_JSRC_LO (n : Nat) : Nat := 0xF000200014 + 0x10000 * n
/-- Address of CIPHER_JSRC_HI. -/
def R.CIPHER_JSRC_HI (n : Nat) : Nat := 0xF000200018 + 0x10000 * n
/-- Address of CIPHER_JDST_LO. -/
def R.CIPHER_JDST_LO (n : Nat) : Nat := 0xF00020001C + 0x10000 * n
/-- Address of CIPHER_JDST_HI. -/
def R.CIPHER_JDST_HI (n : Nat) : Nat := 0xF000200020 + 0x10000 * n
/-- Address of CIPHER_JLEN. -/
def R.CIPHER_JLEN (n : Nat) : Nat := 0xF000200024 + 0x10000 * n
/-- Address of CIPHER_JAAD_LO. -/
def R.CIPHER_JAAD_LO (n : Nat) : Nat := 0xF000200028 + 0x10000 * n
/-- Address of CIPHER_JAAD_HI. -/
def R.CIPHER_JAAD_HI (n : Nat) : Nat := 0xF00020002C + 0x10000 * n
/-- Address of CIPHER_JAADLEN. -/
def R.CIPHER_JAADLEN (n : Nat) : Nat := 0xF000200030 + 0x10000 * n
/-- Address of CIPHER_JTWEAK_LO. -/
def R.CIPHER_JTWEAK_LO (n : Nat) : Nat := 0xF000200034 + 0x10000 * n
/-- Address of CIPHER_JTWEAK_HI. -/
def R.CIPHER_JTWEAK_HI (n : Nat) : Nat := 0xF000200038 + 0x10000 * n
/-- Address of CIPHER_JTAG_LO. -/
def R.CIPHER_JTAG_LO (n : Nat) : Nat := 0xF00020003C + 0x10000 * n
/-- Address of CIPHER_JTAG_HI. -/
def R.CIPHER_JTAG_HI (n : Nat) : Nat := 0xF000200040 + 0x10000 * n
/-- Address of CIPHER_JGO. -/
def R.CIPHER_JGO (n : Nat) : Nat := 0xF000200044 + 0x10000 * n
/-- Address of CIPHER_JRSP. -/
def R.CIPHER_JRSP (n : Nat) : Nat := 0xF000200048 + 0x10000 * n
/-- Address of CIPHER_JOBS. -/
def R.CIPHER_JOBS (n : Nat) : Nat := 0xF000200050 + 0x10000 * n
/-- Address of CIPHER_MIB. -/
def R.CIPHER_MIB (n : Nat) : Nat := 0xF000200054 + 0x10000 * n

/-- The register map of CIPHER. -/
def regRowsCIPHER : List RegRow :=
  [{ off := 0x0, stride := 0x0, count := 1, rw := 0x1#32, w1c := 0x0#32, reset := 0x0#32, keep := false }
  , { off := 0x4, stride := 0x0, count := 1, rw := 0x0#32, w1c := 0x0#32, reset := 0x0#32, keep := false }
  , { off := 0x8, stride := 0x0, count := 1, rw := 0x0#32, w1c := 0xF#32, reset := 0x0#32, keep := false }
  , { off := 0xC, stride := 0x0, count := 1, rw := 0xF#32, w1c := 0x0#32, reset := 0x0#32, keep := false }
  , { off := 0x10, stride := 0x0, count := 1, rw := 0x0#32, w1c := 0x0#32, reset := 0x0#32, keep := false }
  , { off := 0x14, stride := 0x0, count := 1, rw := 0x0#32, w1c := 0x0#32, reset := 0x0#32, keep := false }
  , { off := 0x18, stride := 0x0, count := 1, rw := 0x0#32, w1c := 0x0#32, reset := 0x0#32, keep := false }
  , { off := 0x1C, stride := 0x0, count := 1, rw := 0x0#32, w1c := 0x0#32, reset := 0x0#32, keep := false }
  , { off := 0x20, stride := 0x0, count := 1, rw := 0x0#32, w1c := 0x0#32, reset := 0x0#32, keep := false }
  , { off := 0x24, stride := 0x0, count := 1, rw := 0x0#32, w1c := 0x0#32, reset := 0x0#32, keep := false }
  , { off := 0x28, stride := 0x0, count := 1, rw := 0x0#32, w1c := 0x0#32, reset := 0x0#32, keep := false }
  , { off := 0x2C, stride := 0x0, count := 1, rw := 0x0#32, w1c := 0x0#32, reset := 0x0#32, keep := false }
  , { off := 0x30, stride := 0x0, count := 1, rw := 0x0#32, w1c := 0x0#32, reset := 0x0#32, keep := false }
  , { off := 0x34, stride := 0x0, count := 1, rw := 0x0#32, w1c := 0x0#32, reset := 0x0#32, keep := false }
  , { off := 0x38, stride := 0x0, count := 1, rw := 0x0#32, w1c := 0x0#32, reset := 0x0#32, keep := false }
  , { off := 0x3C, stride := 0x0, count := 1, rw := 0x0#32, w1c := 0x0#32, reset := 0x0#32, keep := false }
  , { off := 0x40, stride := 0x0, count := 1, rw := 0x0#32, w1c := 0x0#32, reset := 0x0#32, keep := false }
  , { off := 0x44, stride := 0x0, count := 1, rw := 0x0#32, w1c := 0x0#32, reset := 0x0#32, keep := false }
  , { off := 0x48, stride := 0x0, count := 1, rw := 0x0#32, w1c := 0x0#32, reset := 0x0#32, keep := false }
  , { off := 0x50, stride := 0x0, count := 1, rw := 0x0#32, w1c := 0x0#32, reset := 0x0#32, keep := true }
  , { off := 0x54, stride := 0x0, count := 1, rw := 0x0#32, w1c := 0x0#32, reset := 0x0#32, keep := true } ]

/-- Base of the FCH register slot (Table 1.9). -/
def R.FCH (n : Nat) : Nat := 0xF000400000 + 0x10000 * n

/-- Address of FCH_CTRL. -/
def R.FCH_CTRL (n : Nat) : Nat := 0xF000400000 + 0x10000 * n
/-- Address of FCH_STAT. -/
def R.FCH_STAT (n : Nat) : Nat := 0xF000400004 + 0x10000 * n
/-- Address of FCH_INT_STAT. -/
def R.FCH_INT_STAT (n : Nat) : Nat := 0xF000400008 + 0x10000 * n
/-- Address of FCH_INT_EN. -/
def R.FCH_INT_EN (n : Nat) : Nat := 0xF00040000C + 0x10000 * n
/-- Address of FCH_DRIVE. -/
def R.FCH_DRIVE (n : Nat) : Nat := 0xF000400010 + 0x10000 * n
/-- Address of FCH_TRAIN. -/
def R.FCH_TRAIN (n : Nat) : Nat := 0xF000400014 + 0x10000 * n
/-- Address of FCH_LSEL. -/
def R.FCH_LSEL (n : Nat) : Nat := 0xF000400020 + 0x10000 * n
/-- Address of FCH_LSTAT. -/
def R.FCH_LSTAT (n : Nat) : Nat := 0xF000400024 + 0x10000 * n
/-- Address of FCH_LERR. -/
def R.FCH_LERR (n : Nat) : Nat := 0xF000400028 + 0x10000 * n
/-- Address of FCH_PROF. -/
def R.FCH_PROF (n i : Nat) : Nat := 0xF000401000 + 0x10000 * n + 0x4 * i

/-- The register map of FCH. -/
def regRowsFCH : List RegRow :=
  [{ off := 0x0, stride := 0x0, count := 1, rw := 0x8#32, w1c := 0x0#32, reset := 0x8#32, keep := false }
  , { off := 0x4, stride := 0x0, count := 1, rw := 0x0#32, w1c := 0x0#32, reset := 0x0#32, keep := false }
  , { off := 0x8, stride := 0x0, count := 1, rw := 0x0#32, w1c := 0x7F07#32, reset := 0x0#32, keep := false }
  , { off := 0xC, stride := 0x0, count := 1, rw := 0x7F07#32, w1c := 0x0#32, reset := 0x0#32, keep := false }
  , { off := 0x10, stride := 0x0, count := 1, rw := 0x733#32, w1c := 0x0#32, reset := 0x321#32, keep := false }
  , { off := 0x14, stride := 0x0, count := 1, rw := 0xFFFFFFFF#32, w1c := 0x0#32, reset := 0xA00180A#32, keep := false }
  , { off := 0x20, stride := 0x0, count := 1, rw := 0x1F#32, w1c := 0x0#32, reset := 0x0#32, keep := false }
  , { off := 0x24, stride := 0x0, count := 1, rw := 0x0#32, w1c := 0x0#32, reset := 0x0#32, keep := false }
  , { off := 0x28, stride := 0x0, count := 1, rw := 0x0#32, w1c := 0x0#32, reset := 0x0#32, keep := false }
  , { off := 0x1000, stride := 0x4, count := 1024, rw := 0xFFFFFFFF#32, w1c := 0x0#32, reset := 0x0#32, keep := false } ]

/-- Base of the PACE register slot (Table 1.9). -/
def R.PACE : Nat := 0xF000400000

/-- Address of FCH_PACE_LIMIT. -/
def R.FCH_PACE_LIMIT : Nat := 0xF000408000
/-- Address of FCH_PACE_SPACE. -/
def R.FCH_PACE_SPACE : Nat := 0xF000408004
/-- Address of FCH_PACE_INUSE. -/
def R.FCH_PACE_INUSE : Nat := 0xF000408008
/-- Address of FCH_PACE_EFF. -/
def R.FCH_PACE_EFF : Nat := 0xF00040800C
/-- Address of FCH_PACE_BRINGUP. -/
def R.FCH_PACE_BRINGUP : Nat := 0xF000408010
/-- Address of FCH_PACE_WAITS. -/
def R.FCH_PACE_WAITS : Nat := 0xF000408014

/-- The register map of PACE. -/
def regRowsPACE : List RegRow :=
  [{ off := 0x8000, stride := 0x0, count := 1, rw := 0xFFFF#32, w1c := 0x0#32, reset := 0x180#32, keep := false }
  , { off := 0x8004, stride := 0x0, count := 1, rw := 0xFFFF#32, w1c := 0x0#32, reset := 0x32#32, keep := false }
  , { off := 0x8008, stride := 0x0, count := 1, rw := 0x0#32, w1c := 0x0#32, reset := 0x0#32, keep := false }
  , { off := 0x800C, stride := 0x0, count := 1, rw := 0x0#32, w1c := 0x0#32, reset := 0x0#32, keep := false }
  , { off := 0x8010, stride := 0x0, count := 1, rw := 0xFFFF#32, w1c := 0x0#32, reset := 0x1032#32, keep := false }
  , { off := 0x8014, stride := 0x0, count := 1, rw := 0x0#32, w1c := 0x0#32, reset := 0x0#32, keep := true } ]

/-- Base of the DET register slot (Table 1.9). -/
def R.DET (n : Nat) : Nat := 0xF000800000 + 0x10000 * n

/-- Address of DET_CTRL. -/
def R.DET_CTRL (n : Nat) : Nat := 0xF000800000 + 0x10000 * n
/-- Address of DET_STAT. -/
def R.DET_STAT (n : Nat) : Nat := 0xF000800004 + 0x10000 * n
/-- Address of DET_INT_STAT. -/
def R.DET_INT_STAT (n : Nat) : Nat := 0xF000800008 + 0x10000 * n
/-- Address of DET_INT_EN. -/
def R.DET_INT_EN (n : Nat) : Nat := 0xF00080000C + 0x10000 * n
/-- Address of DET_JOBS. -/
def R.DET_JOBS (n : Nat) : Nat := 0xF000800010 + 0x10000 * n
/-- Address of DET_ECC. -/
def R.DET_ECC (n : Nat) : Nat := 0xF000800014 + 0x10000 * n
/-- Address of DET_DISP_LIM. -/
def R.DET_DISP_LIM (n : Nat) : Nat := 0xF000800018 + 0x10000 * n
/-- Address of DET_DISP_CNT. -/
def R.DET_DISP_CNT (n : Nat) : Nat := 0xF00080001C + 0x10000 * n
/-- Address of DET_PRES. -/
def R.DET_PRES (n i : Nat) : Nat := 0xF000800100 + 0x10000 * n + 0x4 * i

/-- The register map of DET. -/
def regRowsDET : List RegRow :=
  [{ off := 0x0, stride := 0x0, count := 1, rw := 0x0#32, w1c := 0x0#32, reset := 0x0#32, keep := false }
  , { off := 0x4, stride := 0x0, count := 1, rw := 0x0#32, w1c := 0x0#32, reset := 0x0#32, keep := false }
  , { off := 0x8, stride := 0x0, count := 1, rw := 0x0#32, w1c := 0x1F0F#32, reset := 0x0#32, keep := false }
  , { off := 0xC, stride := 0x0, count := 1, rw := 0x1F0F#32, w1c := 0x0#32, reset := 0x0#32, keep := false }
  , { off := 0x10, stride := 0x0, count := 1, rw := 0x0#32, w1c := 0x0#32, reset := 0x0#32, keep := true }
  , { off := 0x14, stride := 0x0, count := 1, rw := 0x0#32, w1c := 0x0#32, reset := 0x0#32, keep := true }
  , { off := 0x18, stride := 0x0, count := 1, rw := 0x3FF#32, w1c := 0x0#32, reset := 0x1E#32, keep := false }
  , { off := 0x1C, stride := 0x0, count := 1, rw := 0x0#32, w1c := 0x0#32, reset := 0x0#32, keep := true }
  , { off := 0x100, stride := 0x4, count := 16, rw := 0x0#32, w1c := 0x0#32, reset := 0x0#32, keep := false } ]

/-- Base of the DETPOOL register slot (Table 1.9). -/
def R.DETPOOL : Nat := 0xF000800000

/-- Address of DET_POOL_CTRL. -/
def R.DET_POOL_CTRL : Nat := 0xF000808000
/-- Address of DET_POOL_AVAIL. -/
def R.DET_POOL_AVAIL : Nat := 0xF000808004
/-- Address of DET_POOL_QDEPTH. -/
def R.DET_POOL_QDEPTH : Nat := 0xF000808008
/-- Address of DET_POOL_WAITS. -/
def R.DET_POOL_WAITS : Nat := 0xF00080800C
/-- Address of DET_BIN_BASE_LO. -/
def R.DET_BIN_BASE_LO : Nat := 0xF000808010
/-- Address of DET_BIN_BASE_HI. -/
def R.DET_BIN_BASE_HI : Nat := 0xF000808014
/-- Address of DET_BIN_INVAL. -/
def R.DET_BIN_INVAL : Nat := 0xF000808018
/-- Address of DET_BIN_STAT. -/
def R.DET_BIN_STAT : Nat := 0xF00080801C
/-- Address of DET_PROF. -/
def R.DET_PROF : Nat := 0xF000808020

/-- The register map of DETPOOL. -/
def regRowsDETPOOL : List RegRow :=
  [{ off := 0x8000, stride := 0x0, count := 1, rw := 0x3#32, w1c := 0x0#32, reset := 0x3#32, keep := false }
  , { off := 0x8004, stride := 0x0, count := 1, rw := 0x0#32, w1c := 0x0#32, reset := 0x0#32, keep := false }
  , { off := 0x8008, stride := 0x0, count := 1, rw := 0x0#32, w1c := 0x0#32, reset := 0x0#32, keep := false }
  , { off := 0x800C, stride := 0x0, count := 1, rw := 0x0#32, w1c := 0x0#32, reset := 0x0#32, keep := true }
  , { off := 0x8010, stride := 0x0, count := 1, rw := 0xFFFFFF80#32, w1c := 0x0#32, reset := 0x0#32, keep := false }
  , { off := 0x8014, stride := 0x0, count := 1, rw := 0xFFFF#32, w1c := 0x0#32, reset := 0x0#32, keep := false }
  , { off := 0x8018, stride := 0x0, count := 1, rw := 0x0#32, w1c := 0x0#32, reset := 0x0#32, keep := false }
  , { off := 0x801C, stride := 0x0, count := 1, rw := 0x0#32, w1c := 0x0#32, reset := 0x0#32, keep := true }
  , { off := 0x8020, stride := 0x0, count := 1, rw := 0xF#32, w1c := 0x0#32, reset := 0x0#32, keep := false } ]

/-- First address of the register blocks (Table 1.8). -/
def regBase : Nat := 0xF000000000

/-- The register slot of a register address: its offset from the base, a multiple of 0x100_0000, divided by 0x1_0000 (R382). -/
def regSlot (a : Nat) : Nat := a % 0x1000000 / 0x10000

/-- The register map that a slot holds; none where Table 1.9 assigns the slot to no block. The pacer registers lie in the
FCH00 slot (R173) and the detector pool registers in the DET00 slot (R203). -/
def slotRows (s : Nat) : Option (List RegRow) :=
  match s with
  | 0 => some regRowsID
  | 1 => some regRowsCOLLAR
  | 2 => some regRowsWHISTLE
  | 3 => some regRowsPWR
  | 4 => some regRowsTHERM
  | 5 => some regRowsRIND
  | 6 => some regRowsEVREC
  | 7 => some regRowsCURD
  | 8 => some regRowsMEMCHK
  | 9 => some regRowsDRAMC
  | 10 => some regRowsKEYVAULT
  | 11 => some regRowsSIGV
  | 12 => some regRowsHOSTIF
  | 13 => some regRowsHERDER
  | 14 => some regRowsMAPU
  | 15 => some regRowsAFFINEUR
  | 16 => some regRowsHOLDUP
  | 17 => some regRowsMGMT
  | 18 => some regRowsXORU
  | 19 => some regRowsLDPC
  | s =>
    if decide (32 ≤ s) && decide (s < 36) then some regRowsCIPHER
    else if s = 64 then some (regRowsFCH ++ regRowsPACE)
    else if decide (64 < s) && decide (s < 112) then some regRowsFCH
    else if s = 128 then some (regRowsDET ++ regRowsDETPOOL)
    else if decide (128 < s) && decide (s < 152) then some regRowsDET
    else none

/-- Whether a row holds offset `o` of its block. -/
def rowHas (r : RegRow) (o : Nat) : Bool :=
  if r.count = 1 then decide (o = r.off)
  else decide (r.off ≤ o) && decide ((o - r.off) % r.stride = 0) && decide ((o - r.off) / r.stride < r.count)

/-- The register row at an address; none at an unassigned offset or slot. -/
def regRow (a : Nat) : Option RegRow :=
  match slotRows (regSlot a) with
  | none => none
  | some rows => rows.find? (fun r => rowHas r (a % 0x10000))

/-- The reset value of the register at an address (the register tables' Reset column). -/
def regReset (a : Nat) : Word := match regRow a with | some r => r.reset | none => 0#32

/-- Whether the register at an address is kept over SYS_RESET_N and internal resets. -/
def regKept (a : Nat) : Bool := match regRow a with | some r => r.keep | none => false

end Sys2Proof.Machine
end

