-- ==== Sys2Proof/Machine/OpsHw.lean ====
section
/-!
DEFINITION. Named operations over the shared hardware core: registers, interrupt lines, protected memory words, the Rind
store and the event recorder.
-/

namespace Sys2Proof.Machine

/-! Registers. -/

/-- The value of the register at address `a`. -/
def rd (h : Hw) (a : Nat) : Word := tabGetD h.regs a (regReset a)

/-- The hardware core with register `a` holding `v`. -/
def wr (h : Hw) (a : Nat) (v : Word) : Hw := { h with regs := tabPut h.regs a v }

/-- The hardware core with register `a` changed by `f`. -/
def md (h : Hw) (a : Nat) (f : Word → Word) : Hw := wr h a (f (rd h a))

/-- A register, or read latch, held per master ID (R32, R347). -/
def mrd (h : Hw) (a m : Nat) : Word := tabGetD h.mregs (a * 128 + m) 0#32

/-- The hardware core with master `m`'s copy of register `a` holding `v`. -/
def mwr (h : Hw) (a m : Nat) (v : Word) : Hw := { h with mregs := tabPut h.mregs (a * 128 + m) v }

/-- The hardware core with the free-value counter advanced: the value just used is spent. -/
def spend (h : Hw) : Hw := { h with free := h.free + 1 }

/-! Interrupt lines (R403–R408). -/

/-- The hardware core with Whistle source `s` pending (R406). -/
def pendSet (h : Hw) (s : Nat) : Hw := md h (R.WH_PEND (s / 32)) (fun w => setBit w (s % 32))

/-- A unit sets bit `b` of its interrupt status register at `st`; while bit `b` of the enable register `en` is 1 the line of
source `src` is active, and the source becomes pending (R403, R406). -/
def raise (h : Hw) (st en b src : Nat) : Hw :=
  let h1 := md h st (fun w => setBit w b)
  if bit (rd h1 en) b then pendSet h1 src else h1

/-- Interrupt lines of a block: the addresses of its status and enable registers, and the source of each bit. -/
structure IrqBlock where
  st : Nat
  en : Nat
  src : Nat → Nat

/-- Interrupt registers and sources of COLLAR (Table 13.3). -/
def irqCollar : IrqBlock := { st := R.COLLAR_INT_STAT, en := R.COLLAR_INT_EN, src := fun n => 314 + n }
/-- Interrupt registers and sources of PWR (Table 13.3). -/
def irqPwr : IrqBlock := { st := R.PWR_INT_STAT, en := R.PWR_INT_EN, src := fun n => 272 + n }
/-- Interrupt registers and sources of THERM (Table 13.3). -/
def irqTherm : IrqBlock := { st := R.THERM_INT_STAT, en := R.THERM_INT_EN, src := fun n => 280 + n }
/-- Interrupt registers and sources of RIND (Table 13.3). -/
def irqRind : IrqBlock := { st := R.RIND_INT_STAT, en := R.RIND_INT_EN, src := fun n => 288 + n }
/-- Interrupt registers and sources of EVREC (Table 13.3). -/
def irqEvrec : IrqBlock := { st := R.EVREC_INT_STAT, en := R.EVREC_INT_EN, src := fun n => 296 + n }
/-- Interrupt registers and sources of CURD (Table 13.3). -/
def irqCurd : IrqBlock := { st := R.CURD_INT_STAT, en := R.CURD_INT_EN, src := fun n => 240 + n }
/-- Interrupt registers and sources of MEMCHK (Table 13.3). -/
def irqMemchk : IrqBlock := { st := R.MEMCHK_INT_STAT, en := R.MEMCHK_INT_EN, src := fun n => 256 + n }
/-- Interrupt registers and sources of DRAMC (Table 13.3). -/
def irqDramc : IrqBlock := { st := R.DRAMC_INT_STAT, en := R.DRAMC_INT_EN, src := fun n => 264 + n }
/-- Interrupt registers and sources of KV (Table 13.3). -/
def irqKv : IrqBlock := { st := R.KV_INT_STAT, en := R.KV_INT_EN, src := fun n => 304 + n }
/-- Interrupt registers and sources of SIGV (Table 13.3). -/
def irqSigv : IrqBlock := { st := R.SIGV_INT_STAT, en := R.SIGV_INT_EN, src := fun n => 310 + n }
/-- Interrupt registers and sources of HOSTIF (Table 13.3). -/
def irqHostif : IrqBlock := { st := R.HOSTIF_INT_STAT, en := R.HOSTIF_INT_EN, src := fun n => 176 + n }
/-- Interrupt registers and sources of HERDER (Table 13.3). -/
def irqHerder : IrqBlock := { st := R.HERDER_INT_STAT, en := R.HERDER_INT_EN, src := fun n => 208 + n }
/-- Interrupt registers and sources of MAPU (Table 13.3). -/
def irqMapu : IrqBlock := { st := R.MAPU_INT_STAT, en := R.MAPU_INT_EN, src := fun n => 224 + n }
/-- Interrupt registers and sources of AFFINEUR (Table 13.3). -/
def irqAffineur : IrqBlock := { st := R.AFFINEUR_INT_STAT, en := R.AFFINEUR_INT_EN, src := fun n => 320 + n }
/-- Interrupt registers and sources of HOLDUP (Table 13.3). -/
def irqHoldup : IrqBlock := { st := R.HOLDUP_INT_STAT, en := R.HOLDUP_INT_EN, src := fun n => 336 + n }
/-- Interrupt registers and sources of MGMT (Table 13.3). -/
def irqMgmt : IrqBlock := { st := R.MGMT_INT_STAT, en := R.MGMT_INT_EN, src := fun n => 344 + n }
/-- Interrupt registers and sources of XORU (Table 13.3). -/
def irqXoru : IrqBlock := { st := R.XORU_INT_STAT, en := R.XORU_INT_EN, src := fun n => 328 + n }
/-- Interrupt registers and sources of LDPC (Table 13.3). -/
def irqLdpc : IrqBlock := { st := R.LDPC_INT_STAT, en := R.LDPC_INT_EN, src := fun n => 144 + n }
/-- Interrupt registers and sources of CIPHERk (Table 13.3). -/
def irqCipher (k : Nat) : IrqBlock :=
  { st := R.CIPHER_INT_STAT k, en := R.CIPHER_INT_EN k, src := fun n => 160 + 4 * k + n }
/-- FCH lines: bits 2:0 drive the done source 2n, bits 14:8 the error source 2n + 1 (Table 13.3, R173). -/
def irqFch (n : Nat) : IrqBlock :=
  { st := R.FCH_INT_STAT n, en := R.FCH_INT_EN n, src := fun b => if b < 8 then 2 * n else 2 * n + 1 }
/-- DET lines: bits 3:0 drive source 96 + 2n, bits 12:8 source 97 + 2n (Table 13.3, R203). -/
def irqDet (n : Nat) : IrqBlock :=
  { st := R.DET_INT_STAT n, en := R.DET_INT_EN n, src := fun b => if b < 8 then 96 + 2 * n else 97 + 2 * n }

/-- Bit `b` of a block's interrupt status is set. -/
def irq (h : Hw) (blk : IrqBlock) (b : Nat) : Hw := raise h blk.st blk.en b (blk.src b)

/-- Bit `b` is set when `c` holds. -/
def irqIf (h : Hw) (c : Bool) (blk : IrqBlock) (b : Nat) : Hw := if c then irq h blk b else h

/-- A W1C write to a block's interrupt status (R13, R14). -/
def irqClear (h : Hw) (blk : IrqBlock) (w1c v : Word) : Hw := md h blk.st (fun old => w1cWrite w1c old v)

/-- The sources whose lines are active become pending, over bits `0 … k-1` of a block (R406). -/
def relatch (h : Hw) (blk : IrqBlock) : Nat → Hw
  | 0 => h
  | k + 1 =>
    let h1 := relatch h blk k
    if bit (rd h1 blk.st) k && bit (rd h1 blk.en) k then pendSet h1 (blk.src k) else h1

/-- A write to a block's interrupt enable register: an enabled status bit makes its source pending at once (R406). -/
def irqEnable (h : Hw) (blk : IrqBlock) (rw v : Word) : Hw :=
  relatch (md h blk.en (fun old => rwWrite rw old v)) blk 32

/-! SECDED words (R349–R354). -/

/-- Whether a byte has odd weight. -/
def oddWeight (b : Byte) : Bool := (List.range 8).foldl (fun p i => p != b.getLsbD i) false

/-- The number of one bits of a byte. -/
def byteWeight (b : Byte) : Nat := (List.range 8).countP (fun i => b.getLsbD i)

/-- Whether sixty-four columns make the data part of a Hsiao code: odd weight of three or more, no two alike (R349). -/
def matrixOk (m : List Byte) : Bool :=
  decide (m.length = 64) && m.all (fun c => oddWeight c && decide (3 ≤ byteWeight c)) && decide m.Nodup

/-- The columns of weight three, then those of weight five, in rising order, the first sixty-four of them. -/
def matrixPlain : List Byte :=
  (((List.range 256).map (BitVec.ofNat 8)).filter (fun c => decide (byteWeight c = 3))
    ++ ((List.range 256).map (BitVec.ofNat 8)).filter (fun c => decide (byteWeight c = 5))).take 64

/-- The data columns of the code in use: the part's own where they make a Hsiao code, else the plain ones (R349; log entry
4). -/
def secMatrix : List Byte :=
  if matrixOk ((List.range 64).map Config.hsiaoColumn) then (List.range 64).map Config.hsiaoColumn else matrixPlain

/-- Column `i` of the data part of the Hsiao code (R349). -/
def secColumn (i : Nat) : Byte := secMatrix.getD i 0#8

/-- The check bits of a data word: the sum of the columns of its set bits (R349). -/
def secCheck (w : DWord) : Byte :=
  (List.range 64).foldl (fun c i => if w.getLsbD i then c ^^^ secColumn i else c) 0#8

/-- What a stored 72-bit word shows (R351, R354). -/
inductive WordClass where
  | good (w : DWord)
  | corrected (w : DWord)
  | uncorrectable
  | poisoned
  deriving DecidableEq, Repr

/-- The class of a stored word by its syndrome: exactly the poison pattern is poisoned; a zero syndrome is correct; the
syndrome of one bit is correctable; any other is uncorrectable (R351, R354). -/
def secClass (w : DWord) (chk : Byte) : WordClass :=
  if w = 0#64 ∧ chk = 0xFF#8 then .poisoned
  else
    let syn := chk ^^^ secCheck w
    if syn = 0#8 then .good w
    else if (List.range 8).any (fun i => decide (syn = 1#8 <<< i)) then .corrected w
    else match (List.range 64).find? (fun i => decide (syn = secColumn i)) with
      | some i => .corrected (w ^^^ (1#64 <<< i))
      | none => .uncorrectable

/-- The word at an 8-byte-aligned address, as stored; none where any of it is undefined (R350). -/
def memRaw (m : Mem) (a : Nat) : Option (DWord × Byte) :=
  match storeByte m.chk a, (List.range 8).mapM (fun i => storeByte m.data (a + i)) with
  | some c, some bs => some (BitVec.ofNat 64 (leNat bs), c)
  | _, _ => none

/-- Storing a word and its check bits (R349). -/
def memPut (m : Mem) (a : Nat) (w : DWord) (c : Byte) : Mem :=
  { data := storePuts m.data a (leBytes 8 w.toNat), chk := storePut m.chk a c }

/-- Filling a byte range with zeros and their check bits. -/
def memZero (m : Mem) (lo hi : Nat) : Mem :=
  { data := storeFill m.data { lo := lo, hi := hi, chan := none, val := some 0#8 }
    chk := storeFill m.chk { lo := lo, hi := hi, chan := none, val := some 0#8 } }

/-- Filling a byte range with the poison pattern (R354). -/
def memPoison (m : Mem) (lo hi : Nat) : Mem :=
  { data := storeFill m.data { lo := lo, hi := hi, chan := none, val := some 0#8 }
    chk := storeFill m.chk { lo := lo, hi := hi, chan := none, val := some 0xFF#8 } }

/-- The contents of a byte range become undefined (R350), for one DRAM channel where `chan` names one. -/
def memLose (m : Mem) (lo hi : Nat) (chan : Option Nat) : Mem :=
  { data := storeFill m.data { lo := lo, hi := hi, chan := chan, val := none }
    chk := storeFill m.chk { lo := lo, hi := hi, chan := chan, val := none } }

/-- Memory as power-on leaves it: every word undefined (R350). -/
def Mem.init : Mem :=
  { data := { cells := [], fills := [], base := none }, chk := { cells := [], fills := [], base := none } }

/-- The stored word at `a`; an undefined word shows a free one, fresh at each look (R350, log entry 3). -/
def memLook (h : Hw) (a : Nat) : (DWord × Byte) × Hw :=
  match memRaw h.mem a with
  | some r => (r, h)
  | none => (((Config.undefWord h.free).truncate 64, ((Config.undefWord h.free) >>> (64 : Nat)).truncate 8), spend h)

/-! Regions (Table 1.8). -/

/-- The regions of control space (Table 1.8), and addresses outside all of them. -/
inductive Region where
  | rom | sram | retention | rindWindow | dram | regs | outside
  deriving DecidableEq, Repr

/-- Mapped DRAM bytes: DATA_MIB MiB from the base (R355). -/
def dramBytes (h : Hw) : Nat := fld (rd h R.DRAMC_STAT) 0 16 * 1048576

/-- The region of an address (Table 1.8, R355). -/
def regionOf (h : Hw) (a : Nat) : Region :=
  if a < 0x40000 then .rom
  else if 0x10000000 ≤ a ∧ a < 0x14000000 then .sram
  else if 0x20000000 ≤ a ∧ a < 0x20800000 then .retention
  else if 0x30000000 ≤ a ∧ a < 0x31000000 then .rindWindow
  else if 0x100000000 ≤ a ∧ a < 0x100000000 + dramBytes h then .dram
  else if regBase ≤ a ∧ a < regBase + 0x1000000 ∧ (slotRows (regSlot a)).isSome then .regs
  else .outside

/-- DRAM channel of an address: 4 KiB granules rotate across channels 0–3 (R355). -/
def dramChan (a : Nat) : Nat := a / 4096 % 4

/-! The Rind store. -/

/-- The Rind store as the factory left it erased; every byte 0xFF. -/
def Rind.init : Rind :=
  { store := { cells := [], fills := [], base := some 0xFF#8 }, locks := 0#256, password := none, pwLocked := false,
    running := none }

/-- The byte at a Rind store offset; an undefined byte shows a free one (R421). -/
def rindByte (r : Rind) (n a : Nat) : Byte :=
  match storeByte r.store a with
  | some b => b
  | none => Config.undefByte (n + a)

/-- `k` bytes of the Rind store from an offset. -/
def rindBytes (r : Rind) (n a k : Nat) : List Byte := (List.range k).map (fun i => rindByte r n (a + i))

/-- Whether a sector is locked (R422). -/
def rindLocked (r : Rind) (sector : Nat) : Bool := r.locks.getLsbD sector

/-- Programming bytes: a bit goes only from 1 to 0 (R420). -/
def rindProg (r : Rind) (n a : Nat) (bs : List Byte) : Rind :=
  { r with store := storePuts r.store a ((rindBytes r n a bs.length).zipWith (fun old new => old &&& new) bs) }

/-- Erasing a 64 KiB sector (R421). -/
def rindErase (r : Rind) (sector : Nat) : Rind :=
  let f : Fill := { lo := sector * 65536, hi := (sector + 1) * 65536, chan := none, val := some 0xFF#8 }
  { r with store := storeFill r.store f }

/-- Leaving a range undefined: an operation was cut short (R421). -/
def rindSpoil (r : Rind) (lo hi : Nat) : Rind :=
  { r with store := storeFill r.store { lo := lo, hi := hi, chan := none, val := none } }

/-- One past the last byte of a range that is not erased, or the start of the range when all of it is erased; a byte that
some fill leaves undefined counts as not erased. -/
def rindEnd (r : Rind) (lo hi : Nat) : Nat :=
  r.store.cells.foldl (fun e p => if decide (lo ≤ p.1) && decide (p.1 < hi) then max e (p.1 + 1) else e) lo

/-! Event records and posting (R478–R487). -/

/-- The 32 bytes of an event record (Table 16.1). -/
def evBytes (e : EvRecd) : List Byte :=
  let body := leBytes 8 e.time.toNat ++ leBytes 4 e.boot.toNat
    ++ leBytes 2 (e.code % 512 + 512 * (e.sev % 8) + (if e.cont then 4096 else 0)) ++ leBytes 2 e.source
    ++ leBytes 2 e.supp ++ leBytes 4 e.a0.toNat ++ leBytes 4 e.a1.toNat ++ leBytes 4 e.a2.toNat
  body ++ leBytes 2 (crc16 body).toNat

/-- First byte of the event region, sectors 144–147 (Table 14.1). -/
def evRegionLo : Nat := 144 * 65536

/-- One past the event region. -/
def evRegionHi : Nat := 148 * 65536

/-- Slots of the region in use: the append point of R485. -/
def evUsed (h : Hw) : Nat := (rindEnd h.rind evRegionLo evRegionHi - evRegionLo + 31) / 32

/-- Valid records before the append point: slots whose CRC passes (R485). -/
def evValid (h : Hw) : Nat :=
  ((List.range (evUsed h)).filter (fun s =>
    let bs := rindBytes h.rind h.free (evRegionLo + 32 * s) 32
    decide (leNat (bs.drop 30) = (crc16 (bs.take 30)).toNat))).length

/-- Copying unflushed records, oldest first, to the region; what a locked sector refuses stays in the buffer, and records
beyond the 8,192nd slot are lost (R484, Table 16.3). -/
def evCopy : List EvRecd → Hw → List EvRecd × Hw
  | [], h => ([], h)
  | e :: es, h =>
    let used := evUsed h
    if 8192 ≤ used then evCopy es h
    else if rindLocked h.rind (144 + used / 2048) then (e :: es, h)
    else evCopy es { h with
      rind := rindProg h.rind h.free (evRegionLo + 32 * used) (evBytes e)
      ev := { h.ev with valid := h.ev.valid + 1 } }

/-- A flush: the unflushed records go to the event region; a refused program keeps the rest and sets FLUSH_ERR, and
FLUSH_DONE is set when the flush ends (R484, Table 16.9). -/
def evFlush (h : Hw) : Hw :=
  let r := evCopy h.ev.buf h
  let h1 := { r.2 with ev := { r.2.ev with buf := r.1 } }
  let h2 := irqIf h1 (!r.1.isEmpty) irqEvrec 4
  irq h2 irqEvrec 0

/-- Storing one record: buffer, ring slot in retention SRAM through the private port, PIN, and the triggers of a flush
(R483, R484, R485, Table 16.9). Until the region scan ends records stay in the buffer. -/
def evStore (h : Hw) (e : EvRecd) : Hw :=
  let base := 0x207F0000 + 32 * (h.ev.wr % 2048)
  let bs := evBytes e
  let word := fun i => BitVec.ofNat 64 (leNat ((bs.drop (8 * i)).take 8))
  let mem := (List.range 4).foldl (fun m i => memPut m (base + 8 * i) (word i) (secCheck (word i))) h.mem
  let h1 := { h with mem := mem, ev := { h.ev with buf := h.ev.buf ++ [e], wr := (h.ev.wr + 1) % 2048 } }
  let c := rd h1 R.EVREC_CTRL
  let h2 := irqIf h1 (decide (fld c 12 3 ≤ e.sev)) irqEvrec 5
  let stop := decide (8192 ≤ evUsed h2 + h2.ev.buf.length)
  let h3 := if stop && !h2.ev.full then irq { h2 with ev := { h2.ev with full := true } } irqEvrec 2 else h2
  let wm := fld (rd h3 R.EVREC_WM) 0 12
  let due := decide (fld c 8 3 ≤ e.sev) || (decide (wm ≠ 0) && decide (wm ≤ h3.ev.buf.length)) || stop
  if due && h3.ev.scanned then evFlush h3 else h3

/-- The bucket of a code, refilled to the present device time (R482). -/
def evBucket (h : Hw) (code : Nat) : Bucket :=
  let b := tabGetD h.ev.buckets code Bucket.init
  { b with level := min (b.burst * 25000000) (b.level + b.rate * (h.time.toNat - b.last)), last := h.time.toNat }

/-- Outcome of a post (R481, Table 16.13). -/
inductive PostOut where
  | range | dropped | suppressed | stored
  deriving DecidableEq, Repr

/-- A dropped post: the count of its kind rises and DROP is set (R481). -/
def evDrop (h : Hw) (lo source : Nat) : PostOut × Hw :=
  let h1 := md h R.EVREC_DROP (fun w => bumpFld w lo 16 1)
  let ev : EvState := { h1.ev with dropSince := true, lastStored := tabPut h1.ev.lastStored source false }
  (.dropped, irq { h1 with ev := ev } irqEvrec 3)

/-- The RECORDS_DROPPED record that precedes the first record stored after a drop (R481, Table 16.2). -/
def droppedRec (h : Hw) (drops : Word) : EvRecd :=
  { time := h.time, boot := h.bootCount, code := 1, sev := 2, cont := false, source := 0x106, supp := 0,
    a0 := BitVec.ofNat 32 (fld drops 0 16), a1 := BitVec.ofNat 32 (fld drops 16 16), a2 := 0#32 }

/-- A post by a unit or a master, decided in the order of R481; a CONT record follows R479. -/
def evPost (h : Hw) (source code sev : Nat) (cont : Bool) (a0 a1 a2 : Word) : PostOut × Hw :=
  let stamp (supp : Nat) : EvRecd :=
    { time := h.time, boot := h.bootCount, code := code, sev := sev, cont := cont, source := source, supp := supp,
      a0 := a0, a1 := a1, a2 := a2 }
  if 511 < code then (.range, h)
  else if h.ev.full then evDrop h 16 source
  else if !bit (rd h R.EVREC_CTRL) 0 then evDrop h 0 source
  else
    let b := evBucket h code
    let limited := decide (b.rate ≠ 0) && decide (b.burst ≠ 0) && !cont
    if cont && !(tabGetD h.ev.lastStored source false) then (.suppressed, h)
    else if limited && decide (b.level < 25000000) then
      (.suppressed, { h with ev := { h.ev with
        buckets := tabPut h.ev.buckets code { b with supp := min 0xFFFF (b.supp + 1) }
        lastStored := tabPut h.ev.lastStored source false } })
    else if 2048 < h.ev.buf.length + (if h.ev.dropSince then 2 else 1) then evDrop h 0 source
    else
      let drops := rd h R.EVREC_DROP
      let h1 := if h.ev.dropSince then
          evStore { h with ev := { h.ev with dropSince := false } } (droppedRec h drops)
        else h
      let b1 := if limited then { b with level := b.level - 25000000 } else b
      let h2 := { h1 with ev := { h1.ev with
        buckets := if cont then h1.ev.buckets else tabPut h1.ev.buckets code { b1 with supp := 0 }
        lastStored := tabPut h1.ev.lastStored source true } }
      (.stored, evStore h2 (stamp (if cont then 0 else b.supp)))

/-- An event posted by the unit of a register slot over its private path: SOURCE is 0x0100 + slot (Table 16.1). -/
def evUnit (h : Hw) (slot code sev : Nat) (a0 a1 a2 : Nat) : Hw :=
  (evPost h (0x100 + slot) code sev false (BitVec.ofNat 32 a0) (BitVec.ofNat 32 a1) (BitVec.ofNat 32 a2)).2

/-- An event posted by firmware on core 0, the model's reporter for firmware tasks (log entry 12). -/
def evFw (h : Hw) (code sev : Nat) (a0 a1 a2 : Nat) : Hw :=
  (evPost h 0 code sev false (BitVec.ofNat 32 a0) (BitVec.ofNat 32 a1) (BitVec.ofNat 32 a2)).2

end Sys2Proof.Machine
end

