-- ==== Sys2Proof/Machine/Power.lean ====
section
/-!
DEFINITION. Unit presence, power domains, gates and holds (R2, R25, R447–R454, R525), and the choice of a domain's next
state.
-/

namespace Sys2Proof.Machine

/-- The device with its hardware core changed by `f`. -/
def hwMod (f : Hw → Hw) (d : Dev) : Dev := { d with hw := f d.hw }

/-! Unit presence (R2, R3, R8, R9). -/

/-- Enabled flash channels (Table 0.5). -/
def chCount (f : Fuse) : Nat := match f.variant with | .mx => 32 | _ => 48

/-- Enabled soft detectors (Table 0.5). -/
def detCount (f : Fuse) : Nat := match f.variant with | .mx => 16 | _ => 24

/-- Packs with enabled channels (Table 0.6). -/
def packCount (f : Fuse) : Nat := match f.variant with | .mx => 2 | _ => 3

/-- Cipher engines, key vault and Key Per I/O present (Table 0.5). -/
def hasCrypto (f : Fuse) : Bool := match f.variant with | .px => false | _ => true

/-- Host-held map unit present, and with it conventional namespaces (Tables 0.5, 0.6). -/
def hasMapu (f : Fuse) : Bool := match f.variant with | .mx => false | _ => true

/-- Host port 1 present (Table 0.5); its port logic, island 57, is absent on HN4864-MX (R18). -/
def hasPort1 (f : Fuse) : Bool := match f.variant with | .mx => false | _ => true

/-- ID_PART (Table 0.4). -/
def idPart (f : Fuse) : Word :=
  BitVec.ofNat 32 ((match f.variant with | .mx => 0x4864 | _ => 0x4896) * 65536
    + (match f.variant with | .ax => 1 | .px => 2 | .mx => 3) * 256 + f.stepMajor % 16 * 16 + f.stepMinor % 16)

/-- ID_CAP0 (Table 0.5). -/
def idCap0 (f : Fuse) : Word :=
  let c := hasCrypto f; let m := hasMapu f
  BitVec.ofNat 32 (chCount f * 67108864 + detCount f * 2097152 + (if c then 15 else 0) * 131072
    + (if c then 65536 + 32768 else 0) + (if m then 16384 + 8192 else 0) + 4096 + 2048 + 1024 + 512 + 256)

/-- ID_CAP1 (Table 0.6). -/
def idCap1 (f : Fuse) : Word :=
  BitVec.ofNat 32 (0xFFFF * 65536 + 15 * 4096 + 15 * 256 + packCount f * 64 + 32 + (if hasMapu f then 16 else 0) + 8
    + (if hasCrypto f then 4 else 0))

/-- Whether a register slot belongs to a present unit (R2, R393). -/
def slotPresent (f : Fuse) (s : Nat) : Bool :=
  if s = 10 then hasCrypto f
  else if s = 14 then hasMapu f
  else if 32 ≤ s ∧ s < 36 then hasCrypto f
  else if 64 ≤ s ∧ s < 112 then decide (s - 64 < chCount f)
  else if 128 ≤ s ∧ s < 152 then decide (s - 128 < detCount f)
  else true

/-- Whether a power domain is present (R2, R3, Table 15.1). PD86 is present on every part: on HN4864-MX it powers the lane islands of
port 0 (R18). -/
def domPresent (f : Fuse) (n : Nat) : Bool :=
  if n = 0 then true
  else if n ≤ 48 then decide (n - 1 < chCount f)
  else if n ≤ 72 then decide (n - 49 < detCount f)
  else if 77 ≤ n ∧ n ≤ 80 then hasCrypto f
  else decide (n < 96)

/-! Domains. -/

/-- A domain's record; PD0 never leaves ON (Table 15.1). -/
def domGet (p : Pwr) (n : Nat) : Dom :=
  if n = 0 then { Dom.init with st := .on } else tabGetD p.doms n Dom.init

/-- The power controller with domain `n` changed. -/
def domPut (p : Pwr) (n : Nat) (x : Dom) : Pwr := { p with doms := tabPut p.doms n x }

/-- Whether a domain is ON, its gate open. -/
def domOn (p : Pwr) (n : Nat) : Bool := decide ((domGet p n).st = .on)

/-- The power domain that a master's requests come from: a core's cluster, the logic of a host port, a cipher engine, PD95, a flash
channel, a detector, and PD0 for every other master (Tables 1.1, 1.10, 15.1). -/
def masterDom (m : Nat) : Nat :=
  if m < 16 then 73 + m / 4
  else if m < 18 then 69 + m
  else if 20 ≤ m ∧ m < 24 then 57 + m
  else if 24 ≤ m ∧ m < 27 then 95
  else if 32 ≤ m ∧ m < 104 then m - 31
  else 0

/-- Whether a master can issue requests: its unit is present, and its domain has not left ON (R2, R17). -/
def masterClocked (d : Dev) (m : Nat) : Bool :=
  (domOn d.pwr (masterDom m) || decide ((domGet d.pwr (masterDom m)).st = .draining)) && (decide (m ≠ 17) || hasPort1 d.fuse)

/-- PWR_DCTRL_d.MODE (Table 15.14); PD0 reads FORCE_ON. -/
def domMode (h : Hw) (n : Nat) : Nat := if n = 0 then 1 else fld (rd h (R.PWR_DCTRL n)) 0 2

/-- The code of a domain's state in PWR_DSTAT_d.STATE (Table 15.15). -/
def domCode (s : DomSt) : Nat := match s with | .off => 0 | .ret => 1 | .on => 2 | _ => 3

/-- The domain of a register address (R525). HOSTIF's per-port registers lie in the port's domain; its per-controller
registers follow HOSTIF_CSEL's port (R78). -/
def domOfReg (h : Hw) (a : Nat) : Nat :=
  let s := regSlot a
  let o := a % 0x10000
  if 64 ≤ s ∧ s < 112 then (if s = 64 ∧ 0x8000 ≤ o then 0 else s - 63)
  else if 128 ≤ s ∧ s < 152 then (if s = 128 ∧ 0x8000 ≤ o then 0 else s - 79)
  else if 32 ≤ s ∧ s < 36 then s + 45
  else if s = 12 then
    if 0x20 ≤ o ∧ o < 0x40 then 85
    else if 0x40 ≤ o ∧ o < 0x60 then 86
    else if o = 0x84 ∨ o = 0x88 then 85 + fld (rd h R.HOSTIF_CSEL) 16 1
    else 0
  else if s = 14 ∨ s = 15 ∨ s = 18 then 95
  else 0

/-- The domain that a memory or register access meets (Table 1.8, R525). -/
def domOf (h : Hw) (a : Nat) : Nat :=
  match regionOf h a with
  | .sram => 91 + a % 0x10000000 / 0x1000000
  | .dram => 81 + dramChan a
  | .regs => domOfReg h a
  | _ => 0

/-- Whether byte ranges overlap. -/
def overlaps (lo hi lo2 hi2 : Nat) : Bool := decide (lo < hi2) && decide (lo2 < hi)

/-- Curd buffer size of a class (Table 11.1). -/
def curdSize (c : Nat) : Nat :=
  match c with | 0 => 512 | 1 => 4096 | 2 => 16384 | 3 => 65536 | 4 => 262144 | _ => 1048576

/-- Base of a Curd class (Tables 11.10, 11.12). -/
def curdBase (h : Hw) (c : Nat) : Nat :=
  (rd h (R.CURD_CBASE_LO c)).toNat + 0x100000000 * fld (rd h (R.CURD_CBASE_HI c)) 0 16

/-- Buffers of a Curd class (Table 11.17). -/
def curdCount (h : Hw) (c : Nat) : Nat := fld (rd h (R.CURD_CCOUNT c)) 0 16

/-- Whether any byte of a Curd pool region lies in a memory domain, while the pools are in service (R339). A DRAM region of
4 KiB or more per channel touches every channel its granules reach. -/
def poolIn (h : Hw) (n : Nat) : Bool :=
  bit (rd h R.CURD_CTRL) 0 && (List.range 6).any (fun c =>
    let lo := curdBase h c
    let hi := lo + curdCount h c * curdSize c
    decide (lo < hi) &&
      (if 91 ≤ n ∧ n ≤ 94 then
        overlaps lo hi (0x10000000 + (n - 91) * 0x1000000) (0x10000000 + (n - 90) * 0x1000000)
      else decide (0x100000000 ≤ lo) && (List.range 4).any (fun g =>
        decide (lo / 4096 + g ≤ (hi - 1) / 4096) && decide (dramChan ((lo / 4096 + g) * 4096) + 81 = n))))

/-- Hold 4: MAPU, AFFINEUR or XORU enabled (Table 15.2). -/
def pd95Busy (h : Hw) : Bool :=
  bit (rd h R.MAPU_CTRL) 0 || bit (rd h R.AFFINEUR_CTRL) 0 || bit (rd h R.XORU_CTRL) 0

/-- PWR_CLVEC_c (Table 15.13). -/
def clvec (h : Hw) (c : Nat) : Nat :=
  (rd h (R.PWR_CLVEC_LO c)).toNat + 0x100000000 * fld (rd h (R.PWR_CLVEC_HI c)) 0 16

/-- Collecting hold bits: bit i set when the i-th condition holds. -/
def bitsOf : List Bool → Nat
  | [] => 0
  | b :: bs => (if b then 1 else 0) + 2 * bitsOf bs

/-- PWR_STAT (Table 15.11). -/
def pwrStat (d : Dev) : Word :=
  let present := (List.range 96).filter (fun n => domPresent d.fuse n)
  let cnt := fun (q : DomSt → Bool) => (present.filter (fun n => q (domGet d.pwr n).st)).length
  BitVec.ofNat 32 ((if d.pwr.seq.isSome || d.pwr.seqWait then 2147483648 else 0)
    + cnt (fun s => decide (s = .on)) % 128 * 16777216 + cnt (fun s => decide (s = .ret)) % 256 * 256
    + cnt (fun s => decide (s = .off)) % 256)

end Sys2Proof.Machine
end

