-- ==== Sys2Proof/Machine/Whistle.lean ====
section
/-!
DEFINITION. The Whistle interrupt controller: eligibility, claims, aliases, routes, filters, timers and cluster sleep
(R403–R416).
-/

namespace Sys2Proof.Machine

/-- Whether source `s` is eligible in the context of core `c`, mode bit `m`, under a register reading `g` (R409). -/
def whEligible (g : Nat → Word) (c m s : Nat) : Bool :=
  let rt := g (R.WH_ROUTE s)
  bit (g (R.WH_PEND (s / 32))) (s % 32) && !bit (g (R.WH_MASK (s / 32))) (s % 32)
    && decide (fld rt 0 4 = c) && decide (fld rt 5 1 = m)
    && decide (fld (g (R.WH_THRESH (2 * c + m))) 0 3 < fld rt 6 3)

/-- The eligible source of highest priority, lowest number among equals (R409), over sources below `n`. -/
def whBest (g : Nat → Word) (c m : Nat) : Nat → Option Nat
  | 0 => none
  | n + 1 =>
    match whBest g c m n with
    | none => if whEligible g c m n then some n else none
    | some b =>
      if whEligible g c m n && decide (fld (g (R.WH_ROUTE b)) 6 3 < fld (g (R.WH_ROUTE n)) 6 3) then some n else some b

/-- The register reading a claim is served from: the present registers, or, for a claim within 40 ns of the responses of mask, route or
threshold writes, the registers before those writes (R411). One HK tick is 40 ns, so the writes' tick and the claim's must agree. -/
def whView (d : Dev) (old : Bool) (a : Nat) : Word :=
  match (d.wh.stale.filter (fun x => old && decide (x.time = d.hw.time) && decide (x.addr = a))).getLast? with
  | some x => x.old
  | none => rd d.hw a

/-- The writes that still stand after a late claim of source `s` by a context: those of that source's mask word and route, and of the
context's threshold, have let it through once (R411). -/
def whSpent (c m s : Nat) (xs : List WhStale) : List WhStale :=
  xs.filter (fun x => !([R.WH_MASK (s / 32), R.WH_ROUTE s, R.WH_THRESH (2 * c + m)].contains x.addr))

/-- A claim clears the source's pending bit, set-dominant: the bit of a level source whose line is active stays (R406,
R409). -/
def lineActive (h : Hw) (s : Nat) : Bool :=
  let chk := fun (b : IrqBlock) (n : Nat) => bit (rd h b.st) n && bit (rd h b.en) n
  let any := fun (b : IrqBlock) (ns : List Nat) => ns.any (fun n => chk b n)
  if s < 96 then any (irqFch (s / 2)) (if s % 2 = 0 then [0, 1, 2, 3, 4, 5, 6, 7] else [8, 9, 10, 11, 12, 13, 14, 15])
  else if s < 144 then
    any (irqDet ((s - 96) / 2)) (if s % 2 = 0 then [0, 1, 2, 3, 4, 5, 6, 7] else [8, 9, 10, 11, 12, 13, 14, 15])
  else if s < 160 then chk irqLdpc (s - 144)
  else if s < 176 then chk (irqCipher ((s - 160) / 4)) ((s - 160) % 4)
  else if s < 208 then chk irqHostif (s - 176)
  else if s < 224 then chk irqHerder (s - 208)
  else if s < 240 then chk irqMapu (s - 224)
  else if s < 256 then chk irqCurd (s - 240)
  else if s < 264 then chk irqMemchk (s - 256)
  else if s < 272 then chk irqDramc (s - 264)
  else if s < 280 then chk irqPwr (s - 272)
  else if s < 288 then chk irqTherm (s - 280)
  else if s < 296 then chk irqRind (s - 288)
  else if s < 304 then chk irqEvrec (s - 296)
  else if s < 310 then chk irqKv (s - 304)
  else if s < 314 then chk irqSigv (s - 310)
  else if s < 320 then chk irqCollar (s - 314)
  else if s < 328 then chk irqAffineur (s - 320)
  else if s < 336 then chk irqXoru (s - 328)
  else if s < 344 then chk irqHoldup (s - 336)
  else if s < 352 then chk irqMgmt (s - 344)
  else false

/-- The level at each GPIO ball: the straps' levels for GPIO[3:0], and for the others the level that ID_GPIO_OUT drives, or else
the level from outside (R519, Table 17.17). -/
def gpioIn (d : Dev) : BitVec 16 :=
  let oe := (rd d.hw R.ID_GPIO_OE).setWidth 16 &&& 0xFFF0#16
  let out := (rd d.hw R.ID_GPIO_OUT).setWidth 16
  (d.pins.gpio &&& 0xF#16) ||| (oe &&& out) ||| (~~~oe &&& 0xFFF0#16 &&& d.pins.raw)

/-- The last sample of external input `i`: inputs 4 to 15 are GPIO balls (Table 13.4). -/
def extSample (d : Dev) (i : Nat) : Bool := if i < 4 then d.pins.raw.getLsbD i else (gpioIn d).getLsbD i

/-- Whether the part itself drives the ball of external input `i` (R519). -/
def extDriven (d : Dev) (i : Nat) : Bool := decide (4 ≤ i) && bit (rd d.hw R.ID_GPIO_OE) i

/-- The filtered level of external input `i` is its active level: low for inputs 0–3, WH_XCFG_i.POL for GPIO (Table 13.4). -/
def extActive (d : Dev) (i : Nat) : Bool :=
  let pol := if i < 4 then false else bit (rd d.hw (R.WH_XCFG i)) 9
  d.pins.filt.getLsbD i == pol

/-- Whether a source is held pending by its level: a unit's line, or a level-mode external input (R406). -/
def levelActive (d : Dev) (s : Nat) : Bool :=
  if 352 ≤ s ∧ s < 368 then !bit (rd d.hw (R.WH_XCFG (s - 352))) 8 && extActive d (s - 352) else lineActive d.hw s

/-- Level-mode external inputs that stand at their active level set their pending bits (R406). -/
def extHeld (d : Dev) : Dev :=
  (List.range 16).foldl (fun x i => if levelActive x (352 + i) then { x with hw := pendSet x.hw (352 + i) } else x) d

/-- Clearing pending bits `v` of word `j`, set-dominant (R406). -/
def pendClear (d : Dev) (j : Nat) (v : Word) : Dev :=
  let keep := (List.range 32).foldl (fun w i => if bit v i && !levelActive d (32 * j + i) then clrBit w i else w)
    (rd d.hw (R.WH_PEND j))
  { d with hw := wr d.hw (R.WH_PEND j) keep }

/-- A claim by the context of core `c`, mode bit `m`, read by master `mm`: the claimed source, its pending bit cleared and
WH_LAST recorded; with nothing eligible VALID = 0 and nothing changes (R409). `old` asks for a claim inside the 40 ns of
R411. A saved context's registers read 0 (R416). -/
def whClaim (c m : Nat) (old : Bool) (d : Dev) : Option Nat × Dev :=
  if d.wh.saved.getLsbD (c / 4) then (none, d)
  else
    let g := whView d old
    match whBest g c m 1024 with
    | none => (none, d)
    | some s =>
      let d1 := pendClear d (s / 32) (1#32 <<< (s % 32))
      let last := BitVec.ofNat 32 (2147483648 + s)
      (some s, { d1 with hw := wr d1.hw (R.WH_LAST (2 * c + m)) last,
                         wh := { d1.wh with stale := if old then whSpent c m s d1.wh.stale else d1.wh.stale } })

/-- A mask, route or threshold write, remembered for the 40 ns in which a claim may still see the old value (R411). -/
def whWrite (a : Nat) (v : Word) (d : Dev) : Dev :=
  { d with hw := wr d.hw a v,
           wh := { d.wh with stale := { time := d.hw.time, addr := a, old := rd d.hw a } :: d.wh.stale } }

/-- A write to a mask word (value address, `kind` 0) or to its SET (1) or CLEAR (2) alias (R407). -/
def maskWrite (j kind : Nat) (v : Word) (d : Dev) : Dev :=
  let old := rd d.hw (R.WH_MASK j)
  whWrite (R.WH_MASK j) (if kind = 0 then v else if kind = 1 then old ||| v else old &&& ~~~v) d

/-- A write to a route (Table 13.10). -/
def routeWrite (s : Nat) (v : Word) (d : Dev) : Dev :=
  whWrite (R.WH_ROUTE s) (rwWrite 0x1EF#32 (rd d.hw (R.WH_ROUTE s)) v) d

/-- A write to a context's threshold; a saved context ignores it (R416). Context index 2c + m. -/
def threshWrite (x : Nat) (v : Word) (d : Dev) : Dev :=
  if d.wh.saved.getLsbD (x / 8) then d
  else whWrite (R.WH_THRESH x) (rwWrite 7#32 (rd d.hw (R.WH_THRESH x)) v) d

/-- A write to a pending SET alias (R407, R412). -/
def pendSetWrite (j : Nat) (v : Word) (d : Dev) : Dev :=
  { d with hw := md d.hw (R.WH_PEND j) (fun w => w ||| v) }

/-- A write to an input's configuration: N = 0 keeps N; PFAIL_N's N is fixed and reads 2; POL exists for GPIO inputs only;
TAMPER_N's filter is frozen once LOCK is set (R404, R405, Table 13.8, R415). -/
def xcfgWrite (i : Nat) (v : Word) (d : Dev) : Dev :=
  let old := rd d.hw (R.WH_XCFG i)
  if i = 1 ∧ bit (rd d.hw R.COLLAR_CTRL) 1 then d
  else
    let n := if i = 0 then 2 else if fld v 0 8 = 0 then fld old 0 8 else fld v 0 8
    let w := putFld (putBit (putBit 0#32 9 (decide (4 ≤ i) && bit v 9)) 8 (bit v 8)) 0 8 n
    let h := wr d.hw (R.WH_XCFG i) w
    let d1 := { d with hw := h }
    { d1 with hw := if levelActive d1 (352 + i) then pendSet h (352 + i) else h }

/-- The 64-bit compare of hart `c`. -/
def mtimecmp (h : Hw) (c : Nat) : Nat :=
  (rd h (R.WH_MTIMECMP_LO c)).toNat + 0x100000000 * (rd h (R.WH_MTIMECMP_HI c)).toNat

/-- Address under which a low compare word waits for its high word (R413). -/
def cmpHold (c : Nat) : Nat := R.WH_MTIMECMP_LO c + 0x800

/-- A write to the low word of a compare is held until the next high-word write (R413). -/
def cmpLoWrite (c : Nat) (v : Word) (d : Dev) : Dev := { d with hw := mwr d.hw (cmpHold c) 0 v }

/-- mip.MTIP of hart `c` follows its compare: 1 while device time is at or above it (R413). -/
def mtipFollow (h : Hw) (c : Nat) (b : BitVec 16) : BitVec 16 :=
  if mtimecmp h c ≤ h.time.toNat then b ||| (1#16 <<< c) else b &&& ~~~(1#16 <<< c)

/-- A write to the high word sets the 64-bit compare with the held low word, and mip.MTIP follows (R413). -/
def cmpHiWrite (c : Nat) (v : Word) (d : Dev) : Dev :=
  let lo := match tabGet d.hw.mregs (cmpHold c * 128) with | some w => w | none => rd d.hw (R.WH_MTIMECMP_LO c)
  let h := wr (wr d.hw (R.WH_MTIMECMP_LO c) lo) (R.WH_MTIMECMP_HI c) v
  { d with hw := { h with mregs := tabDel h.mregs (cmpHold c * 128) }, wh := { d.wh with mtip := mtipFollow h c d.wh.mtip } }


/-- TIMER_COMPARE_REACHED: mip.MTIP of hart `c` follows its compare (R413). -/
def timerReached (c : Nat) (d : Dev) : Dev := { d with wh := { d.wh with mtip := mtipFollow d.hw c d.wh.mtip } }

/-- One HK tick of 40 ns: device time and the ticks of media time's present second advance, and every hart's mip.MTIP follows (R31, R310,
R413). -/
def hkTick (d : Dev) : Dev :=
  let h := { d.hw with time := d.hw.time + 1#64 }
  { d with hw := h, wh := { d.wh with mtip := (List.range 16).foldl (fun b c => mtipFollow h c b) d.wh.mtip },
           aff := { d.aff with ticks := d.aff.ticks + 1 } }

/-- A write to WH_MSIP_c drives the hart's software interrupt (R413). -/
def msipWrite (c : Nat) (v : Word) (d : Dev) : Dev :=
  { d with hw := md d.hw (R.WH_MSIP c) (fun old => rwWrite 1#32 old v) }

/-- mip.MEIP (mode bit 0) or mip.SEIP (mode bit 1) of core `c`: its context has an eligible source (R409). -/
def mipEip (d : Dev) (c m : Nat) : Bool := (whBest (rd d.hw) c m 1024).isSome

/-- mip.MSIP of hart `c` (R413). -/
def mipSip (d : Dev) (c : Nat) : Bool := bit (rd d.hw (R.WH_MSIP c)) 0

/-- Cluster `k` has something to wake for: an eligible source in one of its eight contexts, or mip.MTIP or MSIP of one of its
harts (R414). -/
def clusterHasWork (d : Dev) (k : Nat) : Bool :=
  (List.range 4).any (fun i =>
    let c := 4 * k + i
    mipEip d c 0 || mipEip d c 1 || d.wh.mtip.getLsbD c || mipSip d c)

end Sys2Proof.Machine
end

