-- ==== Sys2Proof/Machine/Security.lean ====
section
/-!
DEFINITION. Access tables, alarms and key erasure (R382–R387, R393), the entropy source and the DRBG (R380), and the debug
unlock count (R73, R491).
-/

namespace Sys2Proof.Machine

/-! Collar (R382–R384). -/

/-- The Collar target of an address (R382). -/
def collarTarget (h : Hw) (a : Nat) : Nat :=
  match regionOf h a with
  | .rom => 0 | .sram => 1 | .retention => 2 | .rindWindow => 3 | .dram => 4
  | _ => 16 + regSlot a

/-- A window of a target's table. -/
def collarWin (s : Sec) (t w : Nat) : CWin := tabGetD s.windows (t * 32 + w) CWin.init

/-- Whether a window is enabled and contains every byte of an access. -/
def winHolds (x : CWin) (a size : Nat) : Bool :=
  x.en && decide (x.base ≤ a) && decide (a + size ≤ x.limit + 1)

/-- The deciding window: the lowest-numbered enabled window that contains every byte (R382). -/
def collarDecider (s : Sec) (t a size : Nat) : Option Nat :=
  (List.range 32).find? (fun w => winHolds (collarWin s t w) a size)

/-- The permission bitmap of a window for an access kind. -/
def winMap (x : CWin) (k : Acc) : BitVec 128 := match k with | .read => x.r | .write => x.w | .fetch => x.x

/-- Whether a master is refused before any window is looked at: it is blocked (R385), or it is the debug master and debug
unlock has not succeeded (R37, R383). -/
def masterShut (d : Dev) (m : Nat) : Bool :=
  d.sec.blocked.getLsbD m || (decide (m = 27) && !d.sec.dbg.unlocked)

/-- Whether the Collar permits an access (R382, R383, R385): a master that is shut out is refused everywhere; with ENFORCE = 0
every other access is permitted. -/
def collarOk (d : Dev) (m : Nat) (k : Acc) (a size : Nat) : Bool :=
  if masterShut d m then false
  else if bit (rd d.hw R.COLLAR_CTRL) 0 then
    match collarDecider d.sec (collarTarget d.hw a) a size with
    | some w => (winMap (collarWin d.sec (collarTarget d.hw a) w) k).getLsbD m
    | none => false
  else true

/-! Key erasure (R386, R387, R393). -/

/-- A slot after key erasure: TYPE and KEY zeroised, GEN kept (R386). -/
def slotErase (x : Slot) : Slot := { x with type := 0, key := 0#512 }

/-- Marking the commands whose cipher jobs were aborted: they end with Access Denied (R387). -/
def abortOps (ops : List (Nat × Op)) (jobs : List (Nat × List Job)) : List (Nat × Op) :=
  let tags := jobs.flatMap (fun p => p.2.filterMap (fun j => j.tag))
  ops.map (fun p => if tags.contains p.1 then (p.1, { p.2 with status := .accessDenied }) else p)

/-- ABORTED is set at each of the first `k` engines that has jobs in flight (Table 12.19). -/
def cipherAbort (h : Hw) (jobs : List (Nat × List Job)) : Nat → Hw
  | 0 => h
  | k + 1 => irqIf (cipherAbort h jobs k) (!(tabGetD jobs k []).isEmpty) (irqCipher k) 3

/-- A vault command of master `m` that key erasure overtakes is answered DENIED, with its slot's GEN (Table 12.5). -/
def kvDenied (s : Sec) (m : Nat) (v : Word) (h : Hw) : Hw :=
  irq (mwr h R.KV_RSP m (BitVec.ofNat 32 (Status.denied.code * 268435456 + (tabGetD s.slots (fld v 0 13) Slot.init).gen))) irqKv 0

/-- Steps 1 and 2 of key erasure: every slot's KEY and TYPE, the import KEKs, the storage KEK, the map key, the attestation
key and the engines' caches and masks are zeroised, jobs in flight are aborted and waiting vault commands denied, KEYS_ERASED is set, and
one further epoch
bit is blown. On HN4896-PX the map key and the attestation key are zeroised (R393). While an erasure is due to end, no
second one runs (Table 12.5). -/
def eraseKeys (d : Dev) : Dev :=
  if d.sec.eraseDue then d
  else if !hasCrypto d.fuse then
    { d with sec := { d.sec with mapKey := none, oldMapKey := none, attestKey := false } }
  else
    let left := d.fuse.epochLeft - 1
    let h1 := cipherAbort d.hw d.sec.jobs 4
    let h2 := irq h1 irqKv 3
    let h3 := (d.sec.kvWait.map (fun q => (q.1, q.2.1))).foldl (fun h q => kvDenied d.sec q.1 q.2 h)
      (irqIf h2 (decide (left ≤ 4)) irqKv 4)
    { d with
      fuse := { d.fuse with epochLeft := left }
      hw := h3
      host := { d.host with ops := abortOps d.host.ops d.sec.jobs }
      sec := { d.sec with
        slots := d.sec.slots.map (fun p => (p.1, slotErase p.2))
        importKeks := [], mapKey := none, oldMapKey := none, attestKey := false, jobs := [],
        keyCache := [], maskBytes := [], kvWait := [], eraseDue := true, kvState := 2 } }

/-! Alarms (R385). -/

/-- An alarm of source `s` by master `m` (0 where the source has none): COLLAR_ALARM_STAT and the ALARM interrupt are set and
an event is recorded; policy BLOCK of source 0 blocks the master; policy ERASE (2 or 3) runs key erasure (R385, Table 12.4,
Table 12.42). -/
def alarm (s m : Nat) (d : Dev) : Dev :=
  let pol := fld (rd d.hw R.COLLAR_ALARM_POL) (2 * s) 2
  let h1 := md d.hw R.COLLAR_ALARM_STAT (fun w => setBit w s)
  let h2 := irq h1 irqCollar 1
  let h3 := evUnit h2 1 0x080 4 s pol (if s = 0 then m else 0)
  let d1 := { d with hw := h3 }
  if pol = 0 then d1
  else if pol = 1 then
    if s = 0 then
      { d1 with hw := irq d1.hw irqCollar 2, sec := { d1.sec with blocked := d1.sec.blocked ||| (1#128 <<< m) } }
    else d1
  else eraseKeys { d1 with hw := irqIf d1.hw (hasCrypto d1.fuse) irqKv 2 }

/-- The code of an access kind in COLLAR_VINFO (Table 12.40). -/
def accCode (k : Acc) : Nat := match k with | .read => 0 | .write => 1 | .fetch => 2

/-- A refusal: it is counted, VIOL is set, the first since the last clear is recorded, and the COLLAR alarm is raised where
the deciding window, or the target's default, says so (R382, R384, Tables 12.39–12.41). A refusal of a blocked master, or of
a locked debug master, has no deciding window and raises no alarm. -/
def collarRefuse (m : Nat) (k : Acc) (a size : Nat) (d : Dev) : Dev :=
  let t := collarTarget d.hw a
  let enforced := bit (rd d.hw R.COLLAR_CTRL) 0 && !masterShut d m
  let w := if enforced then collarDecider d.sec t a size else none
  let h1 := wr d.hw R.COLLAR_VCOUNT (BitVec.ofNat 32 (satAdd 32 (rd d.hw R.COLLAR_VCOUNT).toNat 1))
  let h2 := irq h1 irqCollar 0
  let info := BitVec.ofNat 32 (2147483648 + accCode k * 536870912 + w.getD 31 * 16777216 + t * 128 + m)
  let h3 := if bit (rd h2 R.COLLAR_VINFO) 31 then h2
    else wr (wr (wr h2 R.COLLAR_VINFO info) R.COLLAR_VADDR_LO (BitVec.ofNat 32 a)) R.COLLAR_VADDR_HI
      (BitVec.ofNat 32 (a / 0x100000000))
  let d1 := { d with hw := h3 }
  let al := enforced && (match w with
    | some i => (collarWin d.sec t i).alarm
    | none => tabGetD d.sec.defAlarm t false)
  if al then alarm 0 m d1 else d1

/-! Collar registers (R383, R397). -/

/-- A write to COLLAR_CTRL: ENFORCE and LOCK are W1S and stay set until the next reset (R383). -/
def collarCtrlWrite (v : Word) (d : Dev) : Dev :=
  { d with hw := md d.hw R.COLLAR_CTRL (fun w => w ||| (v &&& 3#32)) }

/-- Whether the target selected by COLLAR_TSEL exists (Table 12.35). -/
def tselOk (t : Nat) : Bool := decide (t ≤ 4) || (decide (16 ≤ t) && decide (t ≤ 271))

/-- Changing the window selected by COLLAR_TSEL and COLLAR_WSEL; ignored while LOCK = 1 (R383) or with nothing selected. -/
def winWrite (f : CWin → CWin) (d : Dev) : Dev :=
  let t := fld (rd d.hw R.COLLAR_TSEL) 0 9
  let w := fld (rd d.hw R.COLLAR_WSEL) 0 5
  if bit (rd d.hw R.COLLAR_CTRL) 1 || !tselOk t then d
  else { d with sec := { d.sec with windows := tabPut d.sec.windows (t * 32 + w) (f (collarWin d.sec t w)) } }

/-- Word `j` of a 128-bit bitmap replaced. -/
def mapWord (b : BitVec 128) (j : Nat) (v : Word) : BitVec 128 :=
  (b &&& ~~~((0xFFFFFFFF#128) <<< (32 * j))) ||| ((v.setWidth 128) <<< (32 * j))

/-- A write to a register of the COLLAR block at offset `o` (R397). -/
def collarWrite (o : Nat) (v : Word) (d : Dev) : Dev :=
  let locked := bit (rd d.hw R.COLLAR_CTRL) 1
  let t := fld (rd d.hw R.COLLAR_TSEL) 0 9
  match o with
  | 0x00 => collarCtrlWrite v d
  | 0x08 => { d with hw := irqClear d.hw irqCollar 7#32 v }
  | 0x0C => { d with hw := irqEnable d.hw irqCollar 7#32 v }
  | 0x10 => { d with hw := wr d.hw R.COLLAR_TSEL (v &&& 0x1FF#32) }
  | 0x14 => { d with hw := wr d.hw R.COLLAR_WSEL (v &&& 0x1F#32) }
  | 0x18 => if locked || !tselOk t then d
    else { d with sec := { d.sec with defAlarm := tabPut d.sec.defAlarm t (bit v 0) } }
  | 0x20 => winWrite (fun x => { x with base := x.base / 0x100000000 * 0x100000000 + v.toNat / 64 * 64 }) d
  | 0x24 => winWrite (fun x => { x with base := v.toNat % 65536 * 0x100000000 + x.base % 0x100000000 }) d
  | 0x28 => winWrite (fun x => { x with limit := x.limit / 0x100000000 * 0x100000000 + v.toNat / 64 * 64 + 63 }) d
  | 0x2C => winWrite (fun x => { x with limit := v.toNat % 65536 * 0x100000000 + x.limit % 0x100000000 }) d
  | 0x30 => winWrite (fun x => { x with en := bit v 0, alarm := bit v 1 }) d
  | 0x84 => { d with hw := md d.hw R.COLLAR_VINFO (fun w => w1cWrite 0x80000000#32 w v) }
  | 0xA0 => if locked then d else { d with hw := wr d.hw R.COLLAR_ALARM_POL (v &&& 0x3FF#32) }
  | 0xA4 => { d with hw := md d.hw R.COLLAR_ALARM_STAT (fun w => w1cWrite 0x1F#32 w v) }
  | _ =>
    if 0x40 ≤ o ∧ o < 0x50 then winWrite (fun x => { x with r := mapWord x.r ((o - 0x40) / 4) v }) d
    else if 0x50 ≤ o ∧ o < 0x60 then winWrite (fun x => { x with w := mapWord x.w ((o - 0x50) / 4) v }) d
    else if 0x60 ≤ o ∧ o < 0x70 then winWrite (fun x => { x with x := mapWord x.x ((o - 0x60) / 4) v }) d
    else d

/-! Entropy and DRBG (R380). -/

/-- The DRBG can supply an output: it generates, and fewer than 2^20 requests have been made since its last reseed, before which it must
reseed (R380). -/
def drbgReady (s : Sec) : Bool := s.drbgOn && decide (s.drbgReqs < 1048576)

/-- One 512-bit output of the DRBG and the state after the request (R380). -/
def drbgDraw (s : Sec) : BitVec 512 × Sec :=
  (Config.drbg s.drbgDraws, { s with drbgDraws := s.drbgDraws + 1, drbgReqs := s.drbgReqs + 1 })

/-- SIGV_RNG_STAT: bit 31 healthy, bit 30 generating, bits 15:0 failures (Table 12.30). -/
def rngStat (d : Dev) : Word :=
  putBit (putBit (rd d.hw R.SIGV_RNG_STAT) 31 d.sec.entropyOk) 30 (drbgReady d.sec)

/-- MASK_STALE clears at every engine at a successful reseed (R371). -/
def maskFresh (h : Hw) : Nat → Hw
  | 0 => h
  | k + 1 => md (maskFresh h k) (R.CIPHER_STAT k) (fun w => clrBit w 30)

/-- The answer to a read of SIGV_RNG_DATA: 32 DRBG bits. -/
def rngResp (w : BitVec 512) : Resp :=
  { addr := R.SIGV_RNG_DATA, kind := .read, status := .ok, data := w.toNat % 0x100000000, fault := false, waiting := false }

/-- Answering the reads that waited for the DRBG, in order. -/
def rngAnswer : List Nat → Hw → Sec → Hw × Sec
  | [], h, s => (h, s)
  | m :: ms, h, s =>
    let r := drbgDraw s
    rngAnswer ms { h with resps := tabPut h.resps m (rngResp r.1) } r.2

/-- A reseed falls due. With a healthy seed, the start-up tests having passed, the DRBG reseeds and generates, the reads of
SIGV_RNG_DATA that waited are answered, and stale mask generators are reseeded; without one RESEED_FAIL is set and the DRBG
stops (R371, R380). -/
def drbgReseed (healthy : Bool) (d : Dev) : Dev :=
  if healthy then
    let r := rngAnswer d.sec.rngWait d.hw { d.sec with drbgOn := true, drbgReqs := 0, entropyOk := true }
    { d with hw := maskFresh r.1 4, sec := { r.2 with rngWait := [], maskStale := 0#4 } }
  else { d with hw := irq d.hw irqSigv 3, sec := { d.sec with drbgOn := false } }

/-- An entropy health test fails: RNG_HEALTH is set and counted, an event is recorded, the bits under test are discarded and
the start-up tests start again (R380). `kind` 0 repetition count, 1 adaptive proportion (Table 16.2). -/
def entropyFail (kind : Nat) (d : Dev) : Dev :=
  let h1 := irq d.hw irqSigv 2
  let h2 := md h1 R.SIGV_RNG_STAT (fun w => bumpFld w 0 16 1)
  { d with hw := evUnit h2 0x0B 0x082 3 kind 0 0, sec := { d.sec with entropyOk := false } }

/-- A read of SIGV_RNG_DATA by a master: 32 DRBG bits, or a wait while the DRBG is stopped (R380, Table 12.30). -/
def rngRead (m : Nat) (d : Dev) : Dev :=
  if drbgReady d.sec then
    let r := drbgDraw d.sec
    { d with hw := { d.hw with resps := tabPut d.hw.resps m (rngResp r.1) }, sec := r.2 }
  else
    let rp : Resp := { addr := R.SIGV_RNG_DATA, kind := .read, status := .ok, data := 0, fault := false, waiting := true }
    { d with hw := { d.hw with resps := tabPut d.hw.resps m rp }, sec := { d.sec with rngWait := d.sec.rngWait ++ [m] } }

/-- The mask generator of engine `k` falls due after 4,096 bytes: reseeded while the DRBG supplies, else MASK_STALE is set
with its interrupt and the generator runs on (R371). -/
def maskReseed (k : Nat) (d : Dev) : Dev :=
  if drbgReady d.sec then
    let r := drbgDraw d.sec
    { d with hw := md d.hw (R.CIPHER_STAT k) (fun w => clrBit w 30),
             sec := { r.2 with maskBytes := tabPut r.2.maskBytes k 0, maskStale := r.2.maskStale &&& ~~~(1#4 <<< k) } }
  else
    let h1 := md d.hw (R.CIPHER_STAT k) (fun w => setBit w 30)
    { d with hw := irq h1 (irqCipher k) 2,
             sec := { d.sec with maskBytes := tabPut d.sec.maskBytes k 0, maskStale := d.sec.maskStale ||| (1#4 <<< k) } }

end Sys2Proof.Machine
end

