-- ==== Sys2Proof/Machine/Memory.lean ====
section
/-!
DEFINITION. Protected memory at its target: corrected and refused reads, partial writes, error counting, scrub, test mode and
DRAM control (R349–R360, R362, R363).
-/

namespace Sys2Proof.Machine

/-- Whether an address lies in buffer DRAM rather than SRAM. -/
def isDram (a : Nat) : Bool := decide (0x100000000 ≤ a)

/-- Counting a corrected read, its log, interrupt and event (R351, R352). -/
def memCe (h : Hw) (a : Nat) : Hw :=
  if isDram a then
    let k := dramChan a
    let h1 := md h (R.DRAMC_ECC k) (fun w => bumpFld w 16 16 1)
    let h2 := wr (wr h1 R.DRAMC_ELOG_LO (BitVec.ofNat 32 a)) R.DRAMC_ELOG_HI
      (BitVec.ofNat 32 (k * 65536 + a / 0x100000000))
    evUnit (irq h2 irqDramc 0) 9 0x050 1 a (a / 0x100000000) 0
  else
    let rep := decide ((rd h R.MEMCHK_LAST_CE_LO).toNat = a) && decide (fld (rd h R.MEMCHK_CE) 0 32 ≠ 0)
    let h1 := md h R.MEMCHK_CE (fun w => bumpFld w 0 32 1)
    let h2 := if rep then md h1 R.MEMCHK_CE_REPEAT (fun w => bumpFld w 0 32 1) else h1
    let h3 := wr (wr h2 R.MEMCHK_LAST_CE_LO (BitVec.ofNat 32 a)) R.MEMCHK_LAST_CE_HI 0#32
    evUnit (irq h3 irqMemchk 0) 8 0x050 1 a 0 0

/-- Counting an uncorrectable or poisoned read, its log, interrupt and event (R351, R354). -/
def memUe (h : Hw) (a : Nat) (poison : Bool) : Hw :=
  let p := if poison then 1 else 0
  if isDram a then
    let k := dramChan a
    let h1 := md h (R.DRAMC_ECC k) (fun w => bumpFld w 0 16 1)
    let h2 := wr (wr h1 R.DRAMC_ELOG_LO (BitVec.ofNat 32 a)) R.DRAMC_ELOG_HI
      (BitVec.ofNat 32 (2147483648 + p * 1073741824 + k * 65536 + a / 0x100000000))
    evUnit (irq h2 irqDramc (if poison then 2 else 1)) 9 0x051 3 a (a / 0x100000000 + p * 65536) 0
  else
    let h1 := md h R.MEMCHK_UE (fun w => bumpFld w 0 32 1)
    let h2 := wr (wr h1 R.MEMCHK_LAST_UE_LO (BitVec.ofNat 32 a)) R.MEMCHK_LAST_UE_HI (BitVec.ofNat 32 (p * 65536))
    evUnit (irq h2 irqMemchk (if poison then 3 else 1)) 8 0x051 3 a (p * 65536) 0

/-- A read of the word at an aligned address: the corrected data, or none with the error counted (R351). The stored word is
not rewritten. -/
def memReadWord (h : Hw) (a : Nat) : Option DWord × Hw :=
  let r := memLook h a
  match secClass r.1.1 r.1.2 with
  | .good w => (some w, r.2)
  | .corrected w => (some w, memCe r.2 a)
  | .uncorrectable => (none, memUe r.2 a false)
  | .poisoned => (none, memUe r.2 a true)

/-- Reading `n` words upward; none when any of them is refused (R24: no partial response). -/
def memReadWords : Nat → Nat → Hw → Option (List DWord) × Hw
  | 0, _, h => (some [], h)
  | n + 1, a, h =>
    let r := memReadWord h a
    let rest := memReadWords n (a + 8) r.2
    match r.1, rest.1 with
    | some w, some ws => (some (w :: ws), rest.2)
    | _, _ => (none, rest.2)

/-- The number that words spell, lowest word first. -/
def wordsNat : List DWord → Nat
  | [] => 0
  | w :: ws => w.toNat + 0x10000000000000000 * wordsNat ws

/-- A naturally aligned read of `size` bytes of SRAM or DRAM. -/
def memRead (h : Hw) (a size : Nat) : Option Nat × Hw :=
  let r := memReadWords ((size + 7) / 8) (a / 8 * 8) h
  (r.1.map (fun ws => wordsNat ws / 256 ^ (a % 8) % 256 ^ size), r.2)

/-- A full 64-bit write: data and check bits are stored as carried, and any poison is replaced (R349, R354). -/
def memWriteWord (h : Hw) (a : Nat) (w : DWord) (c : Byte) : Hw := { h with mem := memPut h.mem a w c }

/-- Merging bytes into a word from byte offset `o`. -/
def mergeBytes (w : DWord) : Nat → List Byte → DWord
  | _, [] => w
  | o, b :: bs =>
    mergeBytes ((w &&& ~~~((0xFF#64) <<< (8 * o))) ||| ((b.setWidth 64) <<< (8 * o))) (o + 1) bs

/-- A write of fewer than 8 bytes: read, merge and write under one lock; a word that is uncorrectable or poisoned is left
poisoned and POISON_SET is set (R353). -/
def memPartial (h : Hw) (a : Nat) (bs : List Byte) : Hw :=
  let wa := a / 8 * 8
  let r := memLook h wa
  let put := fun (w : DWord) =>
    let m := mergeBytes w (a % 8) bs
    { r.2 with mem := memPut r.2.mem wa m (secCheck m) }
  match secClass r.1.1 r.1.2 with
  | .good w => put w
  | .corrected w => put w
  | _ =>
    let h1 := { r.2 with mem := memPut r.2.mem wa 0#64 0xFF#8 }
    if isDram a then irq h1 irqDramc 5 else irq h1 irqMemchk 2

/-- Reading `n` bytes of memory for a unit; none when a word is refused. -/
def memBytes (h : Hw) (a n : Nat) : Option (List Byte) × Hw :=
  let r := memReadWords ((a % 8 + n + 7) / 8) (a / 8 * 8) h
  (r.1.map (fun ws => leBytes n (wordsNat ws / 256 ^ (a % 8))), r.2)

/-- Writing bytes for a unit: whole words with fresh check bits, partial words by merge. -/
def memStore : Nat → List Byte → Hw → Nat → Hw
  | 0, _, h, _ => h
  | n + 1, bs, h, a =>
    match bs with
    | [] => h
    | _ =>
      let k := 8 - a % 8
      let chunk := bs.take k
      let h1 := if chunk.length = 8 then
          memWriteWord h a (BitVec.ofNat 64 (leNat chunk)) (secCheck (BitVec.ofNat 64 (leNat chunk)))
        else memPartial h a chunk
      memStore n (bs.drop k) h1 (a + chunk.length)

/-- Writing a byte string to memory. -/
def memPutBytes (h : Hw) (a : Nat) (bs : List Byte) : Hw := memStore (bs.length + 1) bs h a

/-! Scrub (R358, R359). -/

/-- The memory that holds a range wholly, if any: working SRAM, retention SRAM or the DRAM data region. -/
def inOneMemory (h : Hw) (lo hi : Nat) : Bool :=
  (decide (0x10000000 ≤ lo) && decide (hi ≤ 0x14000000)) || (decide (0x20000000 ≤ lo) && decide (hi ≤ 0x20800000))
    || (decide (0x100000000 ≤ lo) && decide (hi ≤ 0x100000000 + dramBytes h))

/-- SCRUB_BASE as an address. -/
def scrubBase (h : Hw) : Nat :=
  (rd h R.MEMCHK_SCRUB_BASE_LO).toNat + 0x100000000 * fld (rd h R.MEMCHK_SCRUB_BASE_HI) 0 16

/-- The end of a scrub: BUSY, GO and ABORT clear, STATUS, ABORTED and FIRST_VALID are placed and SCRUB_DONE is set. -/
def scrubEnd (h : Hw) (st : Status) (aborted : Bool) (ce ue : Nat) (first : Option (Nat × Bool)) : Hw :=
  let stat := st.code * 1048576 + (if aborted then 536870912 else 0) + (if first.isSome then 1073741824 else 0)
  let h1 := wr (wr h R.MEMCHK_SCRUB_STAT (BitVec.ofNat 32 stat)) R.MEMCHK_SCRUB_CTRL 0#32
  let h2 := wr (wr h1 R.MEMCHK_SCRUB_CE (BitVec.ofNat 32 (min ce 0xFFFFFFFF))) R.MEMCHK_SCRUB_UE
    (BitVec.ofNat 32 (min ue 0xFFFFFFFF))
  let h3 := match first with
    | some (a, p) => wr (wr h2 R.MEMCHK_SCRUB_FIRST_LO (BitVec.ofNat 32 a)) R.MEMCHK_SCRUB_FIRST_HI
        (BitVec.ofNat 32 (a / 0x100000000 + (if p then 65536 else 0)))
    | none => wr (wr h2 R.MEMCHK_SCRUB_FIRST_LO 0#32) R.MEMCHK_SCRUB_FIRST_HI 0#32
  irq h3 irqMemchk 4

/-- A write of GO: ignored while BUSY; the base is checked first, then the range; LINES = 0 with a good base completes at
once; otherwise the scrub runs (R358). -/
def scrubGo (d : Dev) : Dev :=
  let h := d.hw
  let b := scrubBase h
  let n := (rd h R.MEMCHK_SCRUB_LINES).toNat
  if bit (rd h R.MEMCHK_SCRUB_STAT) 31 then d
  else if b % 64 ≠ 0 then { d with hw := scrubEnd h .align false 0 0 none }
  else if !inOneMemory h b (b + max 1 (64 * n)) then { d with hw := scrubEnd h .range false 0 0 none }
  else if n = 0 then { d with hw := scrubEnd h .ok false 0 0 none }
  else { d with hw := wr h R.MEMCHK_SCRUB_STAT 0x80000000#32 }

/-- Scrubbing `n` words upward: a correctable word is written back corrected with fresh check bits; uncorrectable and
poisoned words stay (R359). The counts and the first bad word accumulate. -/
def scrubWords : Nat → Nat → Nat → Nat → Option (Nat × Bool) → Hw → (Nat × Nat × Option (Nat × Bool)) × Hw
  | 0, _, ce, ue, first, h => ((ce, ue, first), h)
  | n + 1, a, ce, ue, first, h =>
    let r := memLook h a
    match secClass r.1.1 r.1.2 with
    | .good _ => scrubWords n (a + 8) ce ue first r.2
    | .corrected w =>
      let h1 := memCe r.2 a
      scrubWords n (a + 8) (ce + 1) ue first { h1 with mem := memPut h1.mem a w (secCheck w) }
    | .uncorrectable => scrubWords n (a + 8) ce (ue + 1) (first.or (some (a, false))) (memUe r.2 a false)
    | .poisoned => scrubWords n (a + 8) ce (ue + 1) (first.or (some (a, true))) (memUe r.2 a true)

/-- A running scrub ends after `n` lines of its range (R359). -/
def scrubRun (n : Nat) (aborted : Bool) (d : Dev) : Dev :=
  if !bit (rd d.hw R.MEMCHK_SCRUB_STAT) 31 then d
  else
    let r := scrubWords (8 * n) (scrubBase d.hw) 0 0 none d.hw
    { d with hw := scrubEnd r.2 .ok aborted r.1.1 r.1.2.1 r.1.2.2 }


/-! Test mode (R360). -/

/-- MEMCHK_TADDR as an address. -/
def testAddr (h : Hw) : Nat := (rd h R.MEMCHK_TADDR_LO).toNat + 0x100000000 * fld (rd h R.MEMCHK_TADDR_HI) 0 16

/-- The status a test operation meets (R360): ALIGN, RANGE, TARGET_OFF for a domain that is OFF, or OK. TADDR holds bits
31:3, so ALIGN needs a nonzero low field, which TADDR's reserved bits never show. -/
def testStatus (d : Dev) : Status :=
  let a := testAddr d.hw
  if a % 8 ≠ 0 then .align
  else if !inOneMemory d.hw a (a + 8) then .range
  else if (domGet d.pwr (domOf d.hw a)).st = .off then .targetOff
  else .ok

/-- The end of a test operation: STATUS placed, TEST_DONE set (R360). -/
def testEnd (h : Hw) (st : Status) : Hw :=
  irq (wr h R.MEMCHK_TCTRL (BitVec.ofNat 32 (st.code * 268435456))) irqMemchk 5

/-- Test OP 1 stores TDATA and TCHECK as given; ignored while TEST_EN = 0 (R360). -/
def testWrite (d : Dev) : Dev :=
  if !bit (rd d.hw R.MEMCHK_CTRL) 0 then d
  else
    let st := testStatus d
    let w := (rd d.hw R.MEMCHK_TDATA_HI) ++ (rd d.hw R.MEMCHK_TDATA_LO)
    let h := if st = .ok then memWriteWord d.hw (testAddr d.hw) w ((rd d.hw R.MEMCHK_TCHECK).setWidth 8) else d.hw
    { d with hw := testEnd h st }

/-- Test OP 2 reads the stored data and check bits without correction and without counting (R360). -/
def testRead (d : Dev) : Dev :=
  if !bit (rd d.hw R.MEMCHK_CTRL) 0 then d
  else
    let st := testStatus d
    let h := if st = .ok then
        let r := memLook d.hw (testAddr d.hw)
        wr (wr (wr r.2 R.MEMCHK_TDATA_LO (r.1.1.setWidth 32)) R.MEMCHK_TDATA_HI ((r.1.1 >>> (32 : Nat)).setWidth 32))
          R.MEMCHK_TCHECK (r.1.2.setWidth 32)
      else d.hw
    { d with hw := testEnd h st }

/-! DRAM control (R355–R357, R363). -/

/-- A write of DRAMC_CTRL.EN: with EN = 1, RANGE unless all channels are trained and RAW_MIB is a multiple of 1,024 within
1,024–16,384; then the data region is mapped. EN = 0 unmaps it (R363, Table 11.35). -/
def dramcEnable (en : Bool) (d : Dev) : Dev :=
  let h := d.hw
  let raw := fld (rd h R.DRAMC_CFG) 0 16
  if !en then
    { d with hw := md (md h R.DRAMC_CTRL (fun w => clrBit w 0)) R.DRAMC_STAT (fun w => putFld w 0 16 0) }
  else if bit (rd h R.DRAMC_CTRL) 0 then { d with hw := md h R.DRAMC_STAT (fun w => putFld w 16 4 0) }
  else if fld (rd h R.DRAMC_STAT) 28 4 ≠ 15 ∨ raw < 1024 ∨ 16384 < raw ∨ raw % 1024 ≠ 0 then
    { d with hw := md h R.DRAMC_STAT (fun w => putFld w 16 4 2) }
  else
    let h1 := md h R.DRAMC_CTRL (fun w => setBit w 0)
    { d with hw := md h1 R.DRAMC_STAT (fun w => putFld (putFld w 16 4 0) 0 16 (4 * raw * 7 / 8)) }

/-- A write of DRAMC_CTRL.INIT: the initialisation starts; ignored while EN = 0 (R356). INIT_PTR shows the base. -/
def dramcInit (d : Dev) : Dev :=
  if !bit (rd d.hw R.DRAMC_CTRL) 0 || bit (rd d.hw R.DRAMC_STAT) 23 then d
  else
    let h1 := md (md d.hw R.DRAMC_CTRL (fun w => setBit w 1)) R.DRAMC_STAT (fun w => setBit w 23)
    { d with hw := wr (wr h1 R.DRAMC_INIT_PTR_LO 0#32) R.DRAMC_INIT_PTR_HI 1#32 }

/-- DRAM initialisation ends: zeros with check bits lie over the whole data region, INIT_PTR is one past it and INIT_DONE is
set (R356). -/
def dramcInitDone (d : Dev) : Dev :=
  if !bit (rd d.hw R.DRAMC_STAT) 23 then d
  else
    let hi := 0x100000000 + dramBytes d.hw
    let h1 := { d.hw with mem := memZero d.hw.mem 0x100000000 hi }
    let h2 := md (md h1 R.DRAMC_CTRL (fun w => clrBit w 1)) R.DRAMC_STAT (fun w => clrBit w 23)
    let h3 := wr (wr h2 R.DRAMC_INIT_PTR_LO (BitVec.ofNat 32 hi)) R.DRAMC_INIT_PTR_HI (BitVec.ofNat 32 (hi / 0x100000000))
    { d with hw := irq h3 irqDramc 3 }

/-- A channel finishes training: its TRAINED bit is set (R357). -/
def dramTrained (k : Nat) (d : Dev) : Dev := { d with hw := md d.hw R.DRAMC_STAT (fun w => setBit w (28 + k)) }

/-- A channel fails training: TRAIN_FAIL is set and its TRAINED bit stays clear (R357). -/
def dramTrainFail (k : Nat) (d : Dev) : Dev :=
  { d with hw := irq (md d.hw R.DRAMC_STAT (fun w => clrBit w (28 + k))) irqDramc 4 }

/-- A write to DRAMC_CTRL: EN first, then INIT (Table 11.34). -/
def dramcCtrlWrite (v : Word) (d : Dev) : Dev :=
  let d1 := dramcEnable (bit v 0) d
  if bit v 1 then dramcInit d1 else d1

end Sys2Proof.Machine
end

