-- ==== Sys2Proof/Machine/CurdPool.lean ====
section
/-!
DEFINITION. The Curd pools: configuration, initialisation, grants, sharing, dropping, freeing, release and items
(R336–R348, R361).
-/

namespace Sys2Proof.Machine

/-! Items (R347, R348), shared by CURD, KEYVAULT, CIPHERk, EVREC and HOSTIF. -/

/-- A master's item at a unit (register slot). -/
def itemGet (h : Hw) (slot m : Nat) : Item := tabGetD h.items (slot * 128 + m) Item.none

/-- The hardware core with a master's item replaced. -/
def itemPut (h : Hw) (slot m : Nat) (x : Item) : Hw := { h with items := tabPut h.items (slot * 128 + m) x }

/-- An argument written within the item, or 0 (R347). -/
def itemArg (x : Item) (off : Nat) : Word := tabGetD x.args off 0#32

/-- Whether an argument was written within the item. -/
def itemHas (x : Item) (off : Nat) : Bool := (tabGet x.args off).isSome

/-- A write to an item register: after a flush it is discarded with FLUSHED; otherwise the argument joins the item. Answers
the status and the new core (R347, R348). -/
def itemWrite (h : Hw) (slot m off : Nat) (v : Word) : Status × Hw :=
  let x := itemGet h slot m
  if x.flushed then (.flushed, itemPut h slot m { x with flushed := false, seen := true, stFlushed := true, args := [] })
  else (.ok, itemPut h slot m { x with args := tabPut x.args off v })

/-- The completing write of an item: FLUSHED as above, or the item's arguments and a fresh item (R347). -/
def itemComplete (h : Hw) (slot m : Nat) : Option Item × Hw :=
  let x := itemGet h slot m
  if x.flushed then (none, itemPut h slot m { x with flushed := false, seen := true, stFlushed := true, args := [] })
  else (some x, itemPut h slot m { x with args := [], stFlushed := false })

/-- A flush of a master's item at one unit takes effect at an item boundary: a partly written item is discarded whole and
the master's next item write returns FLUSHED. Answers whether it discarded one (R348). -/
def itemFlush (h : Hw) (slot m : Nat) : Bool × Hw :=
  let x := itemGet h slot m
  if x.args.isEmpty then (false, h) else (true, itemPut h slot m { x with args := [], flushed := true })

/-- A flush at CURD: CURD_INT_STAT.FLUSH is set when an item is discarded (R348). -/
def curdFlush (m : Nat) (d : Dev) : Dev :=
  let r := itemFlush d.hw 7 m
  { d with hw := irqIf r.2 r.1 irqCurd 14 }

/-- The flush of every unit's item of one master: its core is reset or its cluster leaves ON (R348). -/
def flushMaster (m : Nat) (h : Hw) : Hw :=
  let r := itemFlush h 7 m
  let h1 := irqIf r.2 r.1 irqCurd 14
  [10, 32, 33, 34, 35, 6, 12].foldl (fun g s => (itemFlush g s m).2) h1

/-! Configuration and initialisation (R337, R338). -/

/-- Release action of a class: 0 CLEAR, 1 POISON, 2 NONE; 3 is treated as CLEAR (Table 11.12). -/
def curdRelease (h : Hw) (c : Nat) : Nat := let r := fld (rd h (R.CURD_CBASE_HI c)) 16 2; if r = 3 then 0 else r

/-- The first byte and one past the last byte of a class's region. -/
def curdRegion (h : Hw) (c : Nat) : Nat × Nat := (curdBase h c, curdBase h c + curdCount h c * curdSize c)

/-- Whether a region lies wholly within working SRAM or the mapped DRAM data region (R337). -/
def curdInMem (h : Hw) (lo hi : Nat) : Bool :=
  (decide (0x10000000 ≤ lo) && decide (hi ≤ 0x14000000))
    || (decide (0x100000000 ≤ lo) && decide (hi ≤ 0x100000000 + dramBytes h))

/-- DRAMC_INIT_PTR as an address. -/
def initPtr (h : Hw) : Nat :=
  (rd h R.DRAMC_INIT_PTR_LO).toNat + 0x100000000 * fld (rd h R.DRAMC_INIT_PTR_HI) 0 16

/-- Classes that hold buffers. -/
def curdClasses (h : Hw) : List Nat := (List.range 6).filter (fun c => decide (curdCount h c ≠ 0))

/-- The checks of an EN write, in the order of R337 and R338. -/
def curdCheck (h : Hw) : Status :=
  let cs := curdClasses h
  if cs.any (fun c => decide (curdBase h c % curdSize c ≠ 0)) then .align
  else if cs.any (fun c => !curdInMem h (curdRegion h c).1 (curdRegion h c).2) then .range
  else if cs.any (fun c => cs.any (fun e => decide (c < e)
      && overlaps (curdRegion h c).1 (curdRegion h c).2 (curdRegion h e).1 (curdRegion h e).2)) then .range
  else if 65536 < (cs.map (fun c => curdCount h c)).sum then .range
  else if bit (rd h R.DRAMC_STAT) 23 && cs.any (fun c => isDram (curdRegion h c).1 && decide (initPtr h < (curdRegion h c).2))
    then .range
  else .ok

/-- Whether any buffer is HELD, PENDING or RELEASING (R338). -/
def curdBusy (c : Curd) : Bool := !c.bufs.isEmpty

/-- A write of CURD_CTRL.EN = 1: while any buffer is not FREE the pools resume as they stand; otherwise the checks of R337
run, and a pass starts the initialisation of every buffer (R337, R338). -/
def curdEnable (d : Dev) : Dev :=
  let h := d.hw
  if bit (rd h R.CURD_CTRL) 0 then d
  else if curdBusy d.curd then
    { d with hw := md (md h R.CURD_CTRL (fun w => setBit w 0)) R.CURD_STAT (fun w => putFld w 28 4 0) }
  else
    let st := curdCheck h
    if st ≠ .ok then { d with hw := irq (md h R.CURD_STAT (fun w => putFld w 28 4 st.code)) irqCurd 15 }
    else
      let h1 := md (md h R.CURD_CTRL (fun w => setBit w 0)) R.CURD_STAT (fun w => putBit (putFld w 28 4 0) 27 true)
      { d with hw := h1
               curd := { d.curd with free := [], initNext := (curdClasses h).map (fun c => (c, 0)) } }

/-- A write to CURD_CTRL; EN = 0 stops new grants only (Table 11.4). -/
def curdCtrlWrite (v : Word) (d : Dev) : Dev :=
  if bit v 0 then curdEnable d else { d with hw := md d.hw R.CURD_CTRL (fun w => clrBit w 0) }

/-- The 64-byte lines of a range (R20, R24). -/
def curdLines (lo size : Nat) : List Nat := (List.range (size / 64)).map (fun i => lo + 64 * i)

/-- One fill of a range by a release action. -/
def curdPut (act lo hi : Nat) (h : Hw) : Hw := { h with mem := if act = 1 then memPoison h.mem lo hi else memZero h.mem lo hi }

/-- The release or initialisation write of a buffer by CURD as master 18, by the class's action; at initialisation NONE writes zeros. A line
that the Collar refuses stays as it is, and the refusal is recorded (R23, R338, R345, R382). -/
def curdFill (c i : Nat) (atInit : Bool) (d : Dev) : Dev :=
  let lo := curdBase d.hw c + i * curdSize c
  let act := curdRelease d.hw c
  if act = 2 && !atInit then d
  else if (curdLines lo (curdSize c)).all (fun a => collarOk d 18 .write a 64) then
    { d with hw := curdPut act lo (lo + curdSize c) d.hw }
  else (curdLines lo (curdSize c)).foldl (fun x a =>
    if collarOk x 18 .write a 64 then { x with hw := curdPut act a (a + 64) x.hw } else collarRefuse 18 .write a 64 x) d

/-- A buffer joins the end of its class's free list, and FREED_c is set (R340, R345). -/
def curdJoin (c i : Nat) (d : Dev) : Dev :=
  { d with hw := irq d.hw irqCurd (6 + c)
           curd := { d.curd with free := tabPut d.curd.free c (tabGetD d.curd.free c [] ++ [i]) } }

/-- The initialisation of every buffer of class `c` from index `i`, `n` of them, in ascending order. -/
def curdInitClass (c : Nat) : Nat → Nat → Dev → Dev
  | 0, _, d => d
  | n + 1, i, d => curdInitClass c n (i + 1) (curdJoin c i (curdFill c i true d))

/-- Pool initialisation ends: every buffer still to be written is written and joins its free list, and INIT_BUSY clears
(R338). -/
def curdInitEnd (d : Dev) : Dev :=
  if d.curd.initNext.isEmpty then d
  else
    let d1 := d.curd.initNext.foldl (fun x p => curdInitClass p.1 (curdCount x.hw p.1 - p.2) p.2 x) d
    { d1 with hw := md d1.hw R.CURD_STAT (fun w => clrBit w 27), curd := { d1.curd with initNext := [] } }

/-! Operations (R340–R344). -/

/-- The smallest class whose buffer size is at least `n` (R340). -/
def curdFit (n : Nat) : Nat := ((List.range 6).find? (fun c => decide (n ≤ curdSize c))).getD 5

/-- What an operation answers: status, pointer and class. -/
structure CurdAns where
  st : Status
  ptr : Nat
  cls : Nat
  deriving DecidableEq, Repr

/-- The longest-free buffer of the first of some classes that has one (R340). -/
def curdTake (free : List (Nat × List Nat)) : List Nat → Option (Nat × Nat)
  | [] => none
  | c :: cs => match tabGetD free c [] with | i :: _ => some (c, i) | [] => curdTake free cs

/-- A grant of `n` bytes to master `m` (R340, R342, R343): ZERO_LEN and RANGE change nothing; with EN = 0 new grants return
EMPTY (Table 11.4); EMPTY sets EMPTY_c for the smallest fit. -/
def curdGrant (m n : Nat) (nofall : Bool) (d : Dev) : CurdAns × Dev :=
  if n = 0 then ({ st := .zeroLen, ptr := 0, cls := 0 }, d)
  else if 1048576 < n then ({ st := .range, ptr := 0, cls := 0 }, d)
  else
    let c := curdFit n
    let cs := if nofall then [c] else (List.range 6).filter (fun e => decide (c ≤ e))
    match (if bit (rd d.hw R.CURD_CTRL) 0 then curdTake d.curd.free cs else none) with
    | some (e, i) =>
      ({ st := .ok, ptr := curdBase d.hw e + i * curdSize e, cls := e },
       { d with curd := { d.curd with
                          free := tabPut d.curd.free e (tabGetD d.curd.free e []).tail,
                          bufs := tabPut d.curd.bufs (e * 65536 + i) { st := .held, holds := 1, final := some m } } })
    | none => ({ st := .empty, ptr := 0, cls := 0 }, { d with hw := irq d.hw irqCurd c })

/-- The class region that holds a pointer. -/
def curdFind (h : Hw) (p : Nat) : Option Nat :=
  (List.range 6).find? (fun c => decide ((curdRegion h c).1 ≤ p) && decide (p < (curdRegion h c).2))

/-- Reserved master IDs (R37). -/
def masterReserved (m : Nat) : Bool :=
  (decide (28 ≤ m) && decide (m ≤ 31)) || decide (104 ≤ m)

/-- A failed share, drop or free: it is recorded and PTR_ERR or NOT_OWNER is set (R344, Table 11.16). -/
def curdFail (st : Status) (op m p : Nat) (d : Dev) : Status × Dev :=
  let h1 := wr d.hw R.CURD_ERR_INFO (BitVec.ofNat 32 (st.code * 268435456 + op * 16777216 + m))
  let h2 := wr (wr h1 R.CURD_ERR_PTR_LO (BitVec.ofNat 32 p)) R.CURD_ERR_PTR_HI (BitVec.ofNat 32 (p / 0x100000000 % 65536))
  (st, { d with hw := irq h2 irqCurd (if st = .notOwner then 13 else 12) })

/-- The effect of a permitted share, drop or free on a buffer (Table 11.3); `inl` gives the refusal. OP 2 SHARE, 3 DROP,
4 FREE. -/
def curdRule (op m g : Nat) (b : Buf) : Status ⊕ Buf :=
  match op, b.st with
  | 2, .held =>
    if b.final ≠ some m then .inl .notOwner
    else if b.holds = 16 ∨ masterReserved g then .inl .range
    else .inr { b with holds := b.holds + 1, final := some g }
  | 3, .held =>
    if b.final = some m ∨ b.holds < 2 then .inl .notOwner else .inr { b with holds := b.holds - 1 }
  | 3, .pending =>
    if b.holds = 1 then .inr { st := .releasing, holds := 0, final := none } else .inr { b with holds := b.holds - 1 }
  | 4, .held =>
    if b.final ≠ some m then .inl .notOwner
    else if b.holds = 1 then .inr { st := .releasing, holds := 0, final := none }
    else .inr { st := .pending, holds := b.holds - 1, final := none }
  | _, _ => .inl .notOwner

/-- A share, drop or free of pointer `p` by master `m`, `g` the new final holder of a share (R344). -/
def curdOp (op m p g : Nat) (d : Dev) : Status × Dev :=
  match curdFind d.hw p with
  | none => curdFail .range op m p d
  | some c =>
    let o := p - curdBase d.hw c
    if o % curdSize c ≠ 0 then curdFail .align op m p d
    else
      let k := c * 65536 + o / curdSize c
      match tabGet d.curd.bufs k with
      | none => curdFail .notOwner op m p d
      | some b =>
        match curdRule op m g b with
        | .inl st => curdFail st op m p d
        | .inr b1 => (.ok, { d with curd := { d.curd with bufs := tabPut d.curd.bufs k b1 } })

/-- The release action of a RELEASING buffer ends: its words are written by the class's action and it joins its free list.
While the pools initialise, the next buffer of the class joins in the same way (R338, R345). -/
def curdReleaseDone (p : Nat) (d : Dev) : Dev :=
  match curdFind d.hw p with
  | none => d
  | some c =>
    let i := (p - curdBase d.hw c) / curdSize c
    let k := c * 65536 + i
    match tabGet d.curd.bufs k with
    | some b =>
      if b.st = .releasing then
        let d1 := curdFill c i false d
        curdJoin c i { d1 with curd := { d1.curd with bufs := tabDel d1.curd.bufs k } }
      else d
    | none =>
      if tabGet d.curd.initNext c = some i ∧ i < curdCount d.hw c then
        let d1 := curdFill c i true d
        curdJoin c i { d1 with curd := { d1.curd with initNext := tabPut d1.curd.initNext c (i + 1) } }
      else d

/-- Placing an item's answer in the master's response registers (R347, Tables 11.13, 11.14). -/
def curdRespond (m : Nat) (a : CurdAns) (h : Hw) : Hw :=
  let lo := if a.st = .ok then a.ptr else 0
  let hi := a.st.code * 268435456 + (if a.st = .ok then a.cls * 16777216 + a.ptr / 0x100000000 % 65536 else 0)
  mwr (mwr h R.CURD_RSP_LO m (BitVec.ofNat 32 lo)) R.CURD_RSP_HI m (BitVec.ofNat 32 hi)

/-- The operation a CMD word asks for, with its pointer (Table 11.9). `full` tells that both argument registers were written
within the item; an OP other than 1–4, or a share, drop or free that lacks an argument, gives RANGE (R347). -/
def curdExec (m : Nat) (cmd : Word) (ptr : Nat) (full : Bool) (d : Dev) : CurdAns × Dev :=
  let op := fld cmd 28 4
  if op = 1 then curdGrant m (fld cmd 0 21) (bit cmd 27) d
  else if op = 2 ∨ op = 3 ∨ op = 4 then
    if full then
      let r := curdOp op m ptr (fld cmd 0 7) d
      ({ st := r.1, ptr := 0, cls := 0 }, r.2)
    else ({ st := .range, ptr := 0, cls := 0 }, d)
  else ({ st := .range, ptr := 0, cls := 0 }, d)

/-- A write to CURD_CMD: it completes the master's item, or is discarded with FLUSHED (R347, R348). -/
def curdCmdWrite (m : Nat) (v : Word) (d : Dev) : Status × Dev :=
  let r := itemComplete d.hw 7 m
  match r.1 with
  | none => (.flushed, { d with hw := r.2 })
  | some x =>
    let ptr := (itemArg x 0x14).toNat + 0x100000000 * fld (itemArg x 0x18) 0 16
    let e := curdExec m v ptr (itemHas x 0x14 && itemHas x 0x18) { d with hw := r.2 }
    (.ok, { e.2 with hw := curdRespond m e.1 e.2.hw })

/-- A hardware master's operation, one fabric request that cannot be split; a grant answered with EMPTY joins the masters that
retry (R342, section "Command items from cores"). The answer stands in the master's response registers. -/
def curdHw (m : Nat) (cmd : Word) (ptr : Nat) (d : Dev) : Dev :=
  let e := curdExec m cmd ptr true d
  let w := if e.1.st = .empty then e.2.curd.waiting ++ [(m, cmd)] else e.2.curd.waiting
  { e.2 with hw := curdRespond m e.1 e.2.hw, curd := { e.2.curd with waiting := w } }

/-- The oldest hardware master that waits retries its grant, after a buffer of a class at or above its smallest fit has come
free (R342). -/
def curdRetry (d : Dev) : Dev :=
  match d.curd.waiting with
  | [] => d
  | (m, cmd) :: rest => curdHw m cmd 0 { d with curd := { d.curd with waiting := rest } }

/-- CURD_STAT (Table 11.7). -/
def curdStat (d : Dev) : Word :=
  putFld (rd d.hw R.CURD_STAT) 0 17 (d.curd.bufs.filter (fun p => decide (p.2.st ≠ .releasing))).length

/-- CURD_CFREE_c (Table 11.18). -/
def curdCfree (d : Dev) (c : Nat) : Word :=
  BitVec.ofNat 32 ((d.curd.bufs.filter (fun p => decide (p.2.st = .releasing) && decide (p.1 / 65536 = c))).length * 65536
    + (tabGetD d.curd.free c []).length)

end Sys2Proof.Machine
end

