-- ==== Sys2Proof/Machine/Crypto.lean ====
section
/-!
DEFINITION. The key vault, the cipher engines and the signature verifier (R364–R381, R394–R396).
-/

namespace Sys2Proof.Machine

/-! The key vault. -/

/-- A key slot. -/
def slotGet (s : Sec) (n : Nat) : Slot := tabGetD s.slots n Slot.init

/-- The security units with a slot replaced. -/
def slotPut (s : Sec) (n : Nat) (x : Slot) : Sec := { s with slots := tabPut s.slots n x }

/-- The last generation of a slot (R365). -/
def genMax : Nat := 524287

/-- Loading a key into a slot raises its GEN by one; at the last generation the load is refused (R365). -/
def slotLoad (x : Slot) (type : Nat) (key : BitVec 512) (scope kennel : Nat) : Option Slot :=
  if x.gen = genMax then none
  else some { type := type, key := key, gen := x.gen + 1, kennel := kennel, scope := scope, ctr := 1 }

/-- CLEAR zeroises KEY, makes the slot EMPTY and raises GEN; GEN never passes its last value (Table 12.2, R365). -/
def slotClear (x : Slot) : Slot :=
  { x with type := 0, key := 0#512, gen := min genMax (x.gen + 1) }

/-- The two halves of an XTS key differ. -/
def xtsHalvesDiffer (k : BitVec 512) : Bool :=
  decide ((k.setWidth 256) ≠ ((k >>> (256 : Nat)).setWidth 256))

/-- Drawing an XTS key: drawn again until its halves differ, at most `n` times (Table 12.2). -/
def drawXts : Nat → Sec → BitVec 512 × Sec
  | 0, s => drbgDraw s
  | n + 1, s => let r := drbgDraw s; if xtsHalvesDiffer r.1 then r else drawXts n r.2

/-- The storage KEK in force: it depends on the key epoch, the number of blown epoch bits (R366, R386). -/
def kekStorage (f : Fuse) : BitVec 256 := Config.storageKek (64 - f.epochLeft)

/-- The 8-byte header of a stored key: TYPE, SCOPE, KENNEL, slot and GEN in this order (Table 12.2). -/
def keyHeader (n : Nat) (x : Slot) : List Byte :=
  leBytes 1 x.type ++ leBytes 1 x.scope ++ leBytes 1 x.kennel ++ leBytes 2 n ++ leBytes 3 x.gen

/-- The key bytes of a slot: 64 for XTS, 32 for GCM. -/
def keyBytes (x : Slot) : List Byte := leBytes (if x.type = 1 then 64 else 32) x.key.toNat

/-- KV_STAT (Table 12.9). -/
def kvStat (d : Dev) : Word :=
  BitVec.ofNat 32 (d.sec.kvState * 268435456 + d.fuse.epochLeft * 2097152
    + (d.sec.slots.filter (fun p => decide (p.2.type ≠ 0))).length)

/-- What a vault command answers: status and GEN of the slot afterwards. -/
structure KvAns where
  st : Status
  gen : Nat
  deriving DecidableEq, Repr

/-- Placing a vault command's answer and setting CMD_DONE (Tables 12.10, 12.14). -/
def kvRespond (m : Nat) (a : KvAns) (d : Dev) : Dev :=
  { d with hw := irq (mwr d.hw R.KV_RSP m (BitVec.ofNat 32 (a.st.code * 268435456 + a.gen))) irqKv 0 }

/-- GENERATE: a fresh key from the DRBG, TYPE 1 or 2; the first success after an erasure makes the vault READY (Table 12.2,
R365, R387). -/
def kvGenerate (n type scope kennel : Nat) (d : Dev) : KvAns × Dev :=
  let x := slotGet d.sec n
  if type ≠ 1 ∧ type ≠ 2 then ({ st := .range, gen := x.gen }, d)
  else
    let q := drbgDraw d.sec
    let r := if type = 1 then drawXts 64 d.sec else ((q.1.setWidth 256).setWidth 512, q.2)
    match slotLoad x type r.1 scope kennel with
    | none => ({ st := .keyExhausted, gen := x.gen }, { d with hw := irq d.hw irqKv 5 })
    | some y => ({ st := .ok, gen := y.gen }, { d with sec := { slotPut r.2 n y with kvState := 1 } })


/-- The lengths UNWRAP accepts (R369). -/
def unwrapLenOk (kwp : Bool) (len : Nat) : Bool :=
  decide (len % 8 = 0) && (if kwp then decide (16 ≤ len) && decide (len ≤ 4112) else decide (24 ≤ len) && decide (len ≤ 4104))

/-- The slot content that unwrapped bytes give: key and header under the storage KEK, where the header must name the slot; the
key alone under an import KEK, with SCOPE KPIO and GCM keys as GCM_IMP. An XTS key with equal halves is refused (R369). -/
def unwrapSlot (storage : Bool) (n kennel : Nat) (bs : List Byte) : Option (Nat × BitVec 512 × Nat × Nat) :=
  let kl := if storage then bs.length - 8 else bs.length
  let key := BitVec.ofNat 512 (leNat (bs.take kl))
  let hd := bs.drop kl
  let xts := decide (kl = 64)
  if !(xts || decide (kl = 32)) then none
  else if xts && !xtsHalvesDiffer key then none
  else if storage then
    let type := leNat (hd.take 1)
    if leNat ((hd.drop 3).take 2) ≠ n ∨ (xts && decide (type ≠ 1)) ∨ (!xts && decide (type ≠ 2)) then none
    else some (type, key, leNat ((hd.drop 1).take 1), leNat ((hd.drop 2).take 1))
  else some (if xts then 1 else 3, key, 2, kennel)


/-- A write to KV_CTRL: EN opens the vault, READY unless it is ERASED; EN = 0 shows OFF (Tables 12.8, 12.9). -/
def kvCtrlWrite (v : Word) (d : Dev) : Dev :=
  let h := wr d.hw R.KV_CTRL (v &&& 1#32)
  let st := if bit v 0 then (if d.sec.kvState = 2 then 2 else 1) else if d.sec.kvState = 2 then 2 else 0
  { d with hw := h, sec := { d.sec with kvState := st } }

/-- Step 3 of key erasure: the key area, sectors 134–137, is erased; the erasure is then over (R386). -/
def keyAreaErase (d : Dev) : Dev :=
  if d.sec.eraseDue then
    let r := rindErase (rindErase (rindErase (rindErase d.hw.rind 134) 135) 136) 137
    { d with hw := { d.hw with rind := r }, sec := { d.sec with eraseDue := false } }
  else d

/-! Cipher engines (R371–R379). -/

/-- Queued and running jobs of engine `k`. -/
def jobsOf (s : Sec) (k : Nat) : List Job := tabGetD s.jobs k []

/-- Bytes queued at engine `k`. -/
def queuedBytes (s : Sec) (k : Nat) : Nat := ((jobsOf s k).map (fun j => j.len)).sum

/-- CIPHER_STAT of engine `k` (Table 12.18). -/
def cipherStat (d : Dev) (k : Nat) : Word :=
  putBit (putFld (rd d.hw (R.CIPHER_STAT k)) 0 24 (min 0xFFFFFF (queuedBytes d.sec k / 1024))) 31 (!(jobsOf d.sec k).isEmpty)

/-- The engine's key cache after a job of a slot: the last four slots, newest first (R372). -/
def cacheTouch (s : Sec) (k n : Nat) : List (Nat × List Nat) :=
  tabPut s.keyCache k ((n :: (tabGetD s.keyCache k []).filter (fun x => decide (x ≠ n))).take 4)

/-- The IV of a GCM encryption: 16 zero bits, slot (13), GEN (19), CTR (48) (R376). -/
def gcmIv (n : Nat) (x : Slot) : BitVec 96 := BitVec.ofNat 96 ((n * 524288 + x.gen) * 281474976710656 + x.ctr)

/-- The largest counter value, at which an encryption is refused (R377). -/
def ctrMax : Nat := 281474976710655

/-- An address made of a _LO and a _HI argument. -/
def itemAddr (x : Item) (lo hi : Nat) : Nat := (itemArg x lo).toNat + 0x100000000 * fld (itemArg x hi) 0 16

/-- The checks of a firmware job, and the status it starts with (R373, R376, R377, R379): zero lengths, SCOPE, EMPTY or
mismatched TYPE, alignment, length limits, the encryption right of an imported key and the counter's end. -/
def jobStatus (op len aadLen src dst : Nat) (x : Slot) : Status :=
  if op < 3 ∧ len = 0 then .zeroLen
  else if 3 ≤ op ∧ len = 0 ∧ aadLen = 0 then .zeroLen
  else if x.scope ≠ 0 then .denied
  else if x.type = 0 then .range
  else if (op < 3 ∧ x.type ≠ 1) ∨ (3 ≤ op ∧ x.type ≠ 2 ∧ x.type ≠ 3) then .range
  else if src % 16 ≠ 0 ∨ dst % 16 ≠ 0 then .align
  else if op < 3 ∧ (len < 16 ∨ 1048576 < len) then .range
  else if 3 ≤ op ∧ (16777216 < len ∨ 65536 < aadLen) then .range
  else if op = 3 ∧ x.type = 3 then .denied
  else if op = 3 ∧ ctrMax ≤ x.ctr then .keyExhausted
  else .ok

/-- A firmware job joins engine `k`'s queue with the key it loads; a GCM encryption takes its counter value (R376, R379). A
job that cannot run keeps its status until it ends. -/
def jobStart (k m op : Nat) (x : Item) (d : Dev) : Dev :=
  let n := fld (itemArg x 0x10) 0 13
  let s := slotGet d.sec n
  let len := (itemArg x 0x24).toNat
  let aadLen := (itemArg x 0x30).toNat
  let src := itemAddr x 0x14 0x18
  let dst := itemAddr x 0x1C 0x20
  let st := if op = 0 ∨ 4 < op then .range else jobStatus op len aadLen src dst s
  let enc := decide (op = 3) && decide (st = .ok)
  let j : Job :=
    { master := some m, tag := none, op := op, slot := n, key := s.key, iv := if enc then gcmIv n s else 0#96, src := src,
      dst := dst, len := len, aad := itemAddr x 0x28 0x2C, aadLen := aadLen,
      tweak := (itemArg x 0x34).toNat + 0x100000000 * (itemArg x 0x38).toNat, tagAddr := itemAddr x 0x3C 0x40, status := st }
  let sec1 := if enc then slotPut d.sec n { s with ctr := s.ctr + 1 } else d.sec
  { d with sec := { sec1 with
                    jobs := tabPut sec1.jobs k (jobsOf sec1 k ++ [j]),
                    keyCache := if st = .ok then cacheTouch sec1 k n else sec1.keyCache } }

/-- A write to CIPHER_JGO completes the item and starts the job; the mode's OP is that of CIPHER_JMODE (R379). -/
def jgoWrite (k m : Nat) (d : Dev) : Status × Dev :=
  let r := itemComplete d.hw (32 + k) m
  let d1 := { d with hw := r.2 }
  match r.1 with
  | none => (.flushed, d1)
  | some x => (.ok, jobStart k m (fld (itemArg x 0x10) 28 4) x d1)

/-- Counters of an engine after a job: CIPHER_JOBS, CIPHER_MIB and the bytes since the last mask reseed (R371, Table
12.23). -/
def cipherCount (k len : Nat) (d : Dev) : Dev :=
  let total := tabGetD d.sec.cipherBytes k 0 + len
  let h1 := md d.hw (R.CIPHER_JOBS k) (fun w => bumpFld w 0 32 1)
  { d with hw := wr h1 (R.CIPHER_MIB k) (BitVec.ofNat 32 (min 0xFFFFFFFF (total / 1048576)))
           sec := { d.sec with
                    cipherBytes := tabPut d.sec.cipherBytes k total,
                    maskBytes := tabPut d.sec.maskBytes k (tabGetD d.sec.maskBytes k 0 + len) } }

/-! The signature verifier (R381). -/

/-- A 384-bit integer window: word i carries bits 32i + 31 to 32i (R381). -/
def win384 (h : Hw) (a : Nat → Nat) : BitVec 384 :=
  BitVec.ofNat 384 ((List.range 12).foldl (fun n i => n + (rd h (a i)).toNat * 2 ^ (32 * i)) 0)

/-- The digest window as the big-endian number that ECDSA reads: word i holds digest bytes 4i–4i + 3, byte 4i in bits 7:0
(Table 12.28). -/
def digestNat (h : Hw) : BitVec 384 :=
  let bs := (List.range 12).flatMap (fun i => leBytes 4 (rd h (R.SIGV_DIGEST i)).toNat)
  BitVec.ofNat 384 (leNat bs.reverse)

/-- The order n of the P-384 base point (FIPS 186-5). -/
def p384n : Nat := 0xFFFFFFFFFFFFFFFFFFFFFFFFFFFFFFFFFFFFFFFFFFFFFFFFC7634D81F4372DDF581A0DB248B0A77AECEC196ACCC52973

/-- The field prime p of P-384 (FIPS 186-5). -/
def p384p : Nat := 2 ^ 384 - 2 ^ 128 - 2 ^ 96 + 2 ^ 32 - 1

/-- The 97-byte uncompressed point 0x04 ‖ X ‖ Y. -/
def pointBytes (x y : BitVec 384) : List Byte :=
  0x04#8 :: ((leBytes 48 x.toNat).reverse ++ (leBytes 48 y.toNat).reverse)

/-- Whether Q matches one of the four unrevoked fused hashes of a role (R381, Table 12.31). -/
def roleKeyOk (f : Fuse) (role : Nat) (x y : BitVec 384) : Bool :=
  (List.range 4).any (fun i => !f.revoked.getLsbD (4 * (role - 1) + i)
    && decide (Config.sha384 (pointBytes x y) = Config.fusedHash role i))

/-- The outcome of a verify: every check is evaluated and the lowest failing reason reported (Table 12.3). -/
def ecdsaOutcome (f : Fuse) (role : Nat) (fmt : Nat) (dg r s x y : BitVec 384) : Status × Nat :=
  if r.toNat = 0 ∨ s.toNat = 0 ∨ p384n ≤ r.toNat ∨ p384n ≤ s.toNat then (.reject, 1)
  else if fmt ≠ 4 ∨ p384p ≤ x.toNat ∨ p384p ≤ y.toNat ∨ Config.onCurve x y = false then (.reject, 2)
  else if role ≠ 0 ∧ roleKeyOk f role x y = false then (.reject, 3)
  else if Config.ecdsaHolds dg r s x y = false then (.reject, 4)
  else (.ok, 0)

/-- A verify starts on the windows' present contents; ignored while one runs (R381, Table 12.5). -/
def sigvGo (d : Dev) : Dev :=
  if d.sec.verify.isSome then d
  else
    let h := d.hw
    let o := ecdsaOutcome d.fuse (fld (rd h R.SIGV_CTRL) 2 2) (fld (rd h R.SIGV_QFMT) 0 8) (digestNat h) (win384 h R.SIGV_R)
      (win384 h R.SIGV_S) (win384 h R.SIGV_QX) (win384 h R.SIGV_QY)
    { d with hw := md h R.SIGV_STAT (fun w => setBit w 31)
             sec := { d.sec with verify := some { result := o.1, reason := o.2, jtag := false } } }

/-- A firmware verify ends after its fixed time: RESULT and REASON are placed and VERIFY_DONE is set (R381, Table 12.26). -/
def sigvDone (d : Dev) : Dev :=
  match d.sec.verify with
  | some v =>
    if v.jtag then d
    else
      let w := BitVec.ofNat 32 (v.result.code * 16777216 + v.reason * 1048576)
      let h1 := md d.hw R.SIGV_STAT (fun o => (o &&& 0x40000000#32) ||| w)
      { d with hw := irq h1 irqSigv 0, sec := { d.sec with verify := none } }
  | none => d

/-- Placing a digest in the digest window. -/
def putDigest (h : Hw) (g : BitVec 384) : Hw :=
  (List.range 12).foldl (fun x i => wr x (R.SIGV_DIGEST i)
    (BitVec.ofNat 32 (leNat (((leBytes 48 g.toNat).drop (4 * i)).take 4)))) h


/-- The hash ends with its digest in SIGV_DIGEST, and HASH_DONE is set (R381). -/
def sigvHashDone (d : Dev) : Dev :=
  match d.sec.hash with
  | none => d
  | some g =>
    let h1 := md (md (putDigest d.hw g) R.SIGV_STAT (fun w => clrBit w 30)) R.SIGV_CTRL (fun w => clrBit w 1)
    { d with hw := irq h1 irqSigv 1, sec := { d.sec with hash := none } }


end Sys2Proof.Machine
end

