-- ==== Sys2Proof/Machine/RindStore.lean ====
section
/-!
DEFINITION. Rind store operations and window reads (R417–R423, R446), and the settings journal (R440, R444, R445).
-/

namespace Sys2Proof.Machine

/-- RIND_STAT (Table 14.12). -/
def rindStat (d : Dev) : Word :=
  let r := d.hw.rind
  putBit (putBit (putBit (rd d.hw R.RIND_STAT) 31 r.running.isSome) 27 r.password.isSome) 26 r.pwLocked

/-- RIND_LOCK for the selected group (Table 14.17). -/
def rindLockWord (d : Dev) : Word :=
  ((d.hw.rind.locks >>> (32 * fld (rd d.hw R.RIND_LOCK_SEL) 0 3)).setWidth 32)

/-- The end of an operation with an internal status code: LAST, OP and SECTOR are placed, the password registers clear, DONE is set, and ERR
for a status other than OK, whose code is 0 (Tables 14.12, 14.13, 14.15). -/
def rindEndCode (op addr code : Nat) (d : Dev) : Dev :=
  let w := BitVec.ofNat 32 (op % 8 * 268435456 + code % 16 * 1048576 + addr / 65536 % 256)
  let h1 := wr (wr (wr { d.hw with rind := { d.hw.rind with running := none } } R.RIND_STAT w) R.RIND_PW_LO 0#32) R.RIND_PW_HI 0#32
  { d with hw := irqIf (irq h1 irqRind 0) (decide (code % 16 ≠ 0)) irqRind 1 }

/-- The end of an operation. -/
def rindEndOp (op addr : Nat) (st : Status) (d : Dev) : Dev := rindEndCode op addr st.code d

/-- ABORT of a running erase leaves its sector undefined; the status that the erase ends with is not stated: a free value (R421, log entry
127). -/
def rindAbort (r : RindOp) (d : Dev) : Dev :=
  let lo := r.addr / 65536 * 65536
  rindEndCode 2 r.addr (Config.freeNat d.hw.free) { d with hw := { spend d.hw with rind := rindSpoil d.hw.rind lo (lo + 65536) } }

/-- The checks of a PROGRAM, in the order of R420. -/
def progStatus (h : Hw) (addr len : Nat) (bs : List Byte) : Status :=
  if len = 0 then .zeroLen
  else if addr % 4 ≠ 0 ∨ len % 4 ≠ 0 ∨ addr / 256 ≠ (addr + len - 1) / 256 then .align
  else if 256 < len then .range
  else if rindLocked h.rind (addr / 65536) then .denied
  else if (rindBytes h.rind h.free addr len).zipWith (fun old new => old &&& new) bs ≠ bs then .range
  else .ok

/-- The program buffer's first `len` bytes. -/
def pbufBytes (h : Hw) (len : Nat) : List Byte :=
  ((List.range 64).flatMap (fun i => leBytes 4 (rd h (R.RIND_PBUF i)).toNat)).take len

/-- Starting a Rind store operation; one at a time (R418). -/
def rindStart (op addr : Nat) (data : List Byte) (st : Status) (d : Dev) : Dev :=
  let w := BitVec.ofNat 32 (op % 8 * 268435456 + addr / 65536 % 256)
  let run : RindOp := { op := op, addr := addr, data := data, status := st }
  { d with hw := { (md d.hw R.RIND_STAT (fun o => (o &&& 0x00F00000#32) ||| w)) with
                   rind := { d.hw.rind with running := some run } } }

/-- The password in RIND_PW_LO and RIND_PW_HI. -/
def rindPw (h : Hw) : BitVec 64 := (rd h R.RIND_PW_HI) ++ (rd h R.RIND_PW_LO)

/-- A RIND_CMD with operation `op`: while BUSY it is ignored and sets CMD_IGNORED, but for ABORT, which stops a running erase
and leaves its sector undefined; a refused operation ends at once; others run until they end (R418–R423, R446). -/
def rindCmd (op : Nat) (d : Dev) : Dev :=
  let h := d.hw
  let addr := (rd h R.RIND_ADDR).toNat
  match h.rind.running with
  | some r =>
    if op = 6 ∧ r.op = 2 then rindAbort r d
    else { d with hw := irq h irqRind 3 }
  | none =>
    let len := fld (rd h R.RIND_LEN) 0 9
    let bs := pbufBytes h len
    match op with
    | 1 =>
      let st := progStatus h addr len bs
      if st = .ok then rindStart 1 addr bs .ok d else rindEndOp 1 addr st d
    | 2 => if rindLocked h.rind (addr / 65536) then rindEndOp 2 addr .denied d else rindStart 2 addr [] .ok d
    | 3 => rindStart 3 addr [] .ok d
    | 4 => rindStart 4 addr (leBytes 8 (rindPw h).toNat) .ok d
    | 5 => rindStart 5 addr (leBytes 8 (rindPw h).toNat) .ok d
    | 6 => rindEndOp 6 addr .ok d
    | _ => rindEndOp op addr .range d

/-- The effect of a running operation when it ends (R420–R423): the bytes are programmed, the sector is erased, the lock bit
is set, the lock bit is cleared when no password is set or it matches, or the password is set once. -/
def rindOpDone (d : Dev) : Dev :=
  let h := d.hw
  match h.rind.running with
  | none => d
  | some r =>
    let s := r.addr / 65536
    let put := fun (x : Rind) => { d with hw := { h with rind := x } }
    match r.op with
    | 1 => rindEndOp 1 r.addr .ok (put (rindProg h.rind h.free r.addr r.data))
    | 2 => rindEndOp 2 r.addr .ok (put (rindErase h.rind s))
    | 3 => rindEndOp 3 r.addr .ok (put { h.rind with locks := h.rind.locks ||| (1#256 <<< s) })
    | 4 =>
      let clear := put { h.rind with locks := h.rind.locks &&& ~~~(1#256 <<< s) }
      if h.rind.pwLocked then rindEndOp 4 r.addr .denied d
      else match h.rind.password with
        | none => rindEndOp 4 r.addr .ok clear
        | some p =>
          if p.toNat = leNat r.data then rindEndOp 4 r.addr .ok clear
          else rindEndOp 4 r.addr .denied { d with hw := irq { h with rind := { h.rind with pwLocked := true } } irqRind 2 }
    | 5 =>
      if h.rind.password.isSome then rindEndOp 5 r.addr .denied d
      else rindEndOp 5 r.addr .ok (put { h.rind with password := some (BitVec.ofNat 64 (leNat r.data)) })
    | _ => rindEndOp r.op r.addr r.status d

/-- The data of a window read of `size` bytes at a store offset: the stored bytes, or, while an operation runs, the present
RIND_STAT in every 32-bit word (R419). -/
def windowData (d : Dev) (off size : Nat) : Nat :=
  if d.hw.rind.running.isSome then
    let w := (rindStat d).toNat
    (w * ((256 ^ ((size + 3) / 4 * 4) - 1) / 0xFFFFFFFF)) / 256 ^ (off % 4) % 256 ^ size
  else leNat (rindBytes d.hw.rind d.hw.free off size)

/-- The side effect of a window read by master `m`: during an operation WAS_STATUS is set for the master and STATUS_READ
rises; a read of undefined bytes spends the free bytes shown (R419, R421). -/
def windowTouch (m off size : Nat) (h : Hw) : Hw :=
  if h.rind.running.isSome then
    irq (mwr h R.RIND_RDSTAT m (BitVec.ofNat 32 (2147483648 + 0xB000000))) irqRind 4
  else if (List.range size).all (fun i => (storeByte h.rind.store (off + i)).isSome) then h
  else { h with free := h.free + off + size }

/-- A write to RIND_RDSTAT by a master: WAS_STATUS is W1C, and STATUS reads OK with it clear (Table 14.16). -/
def rdstatWrite (m : Nat) (v : Word) (d : Dev) : Dev :=
  if bit v 31 then { d with hw := mwr d.hw R.RIND_RDSTAT m 0#32 } else d

/-! Settings journal (R444, R445). -/

/-- Key of a (TYPE, KEY) pair. -/
def sjKey (type key : Nat) : Nat := type * 65536 + key

/-- The payload with bit 0 of byte 43 set deletes the pair (R444). -/
def sjDeletes (p : List Byte) : Bool := match p[43]? with | some b => b.getLsbD 0 | none => false

/-- A payload padded to 44 bytes. -/
def sjPad (p : List Byte) : List Byte := (p ++ List.replicate 44 0#8).take 44

/-- The 64 bytes of a settings record (R444). -/
def sjBytes (k writer seq : Nat) (p : List Byte) : List Byte :=
  let body := leBytes 2 (k / 65536) ++ leBytes 2 (k % 65536) ++ leBytes 4 writer ++ leBytes 8 seq ++ sjPad p
  body ++ leBytes 4 (crc32c body).toNat

/-- Records of the ring: 108 sectors of 1,024 (R444). -/
def sjRing : Nat := 110592

/-- Appending one record to the journal ring and to the current values (R444). -/
def sjWrite (k : Nat) (p : List Byte) (d : Dev) : Dev :=
  let s := d.sj
  let seq := s.seq + 1
  let at_ := 148 * 65536 + s.head * 64
  let rind := rindProg d.hw.rind d.hw.free at_ (sjBytes k s.writer seq p)
  { d with hw := { d.hw with rind := rind }
           sj := { s with
                   cur := if sjDeletes p then tabDel s.cur k else tabPut s.cur k { seq := seq, payload := sjPad p },
                   head := (s.head + 1) % sjRing, used := if s.head % 1024 = 0 then s.used + 1 else s.used, seq := seq } }

/-- A settings change: trial firmware writes only MEDIA_TIME, JOURNAL_ANCHOR and UNIT_STATE records and holds every other
change in memory until it commits (R440). -/
def sjPut (type key : Nat) (p : List Byte) (d : Dev) : Dev :=
  if d.boot.trial && !(type == 1 || type == 2 || type == 0x22) then
    { d with sj := { d.sj with held := d.sj.held ++ [(sjKey type key, p)] } }
  else sjWrite (sjKey type key) p d

/-- A settings record that deletes its pair (R444). -/
def sjDelete (type key : Nat) (d : Dev) : Dev := sjPut type key (List.replicate 43 0#8 ++ [1#8]) d

/-- Writing the records held in memory, oldest first (R441). -/
def sjFlushHeld : List (Nat × List Byte) → Dev → Dev
  | [], d => d
  | (k, p) :: t, d => sjFlushHeld t (sjWrite k p d)

/-- Compaction: above 75 % of the sectors, committed firmware appends the current record of every live pair at the head with
new SEQ values and erases the sectors that no longer hold a current record (R445). -/
def sjCompact (d : Dev) : Dev :=
  if d.boot.trial || decide (d.sj.used ≤ 81) then d
  else
    let first := d.sj.head / 1024
    let d1 := sjFlushHeld (d.sj.cur.map (fun q => (q.1, q.2.payload))) d
    let used := (d1.sj.head + sjRing - first * 1024) % sjRing / 1024 + 1
    let rind := (List.range (108 - used)).foldl
      (fun r i => rindErase r (148 + (d1.sj.head / 1024 + 1 + i) % 108)) d1.hw.rind
    { d1 with hw := { d1.hw with rind := rind }, sj := { d1.sj with used := used, tail := first } }

/-! Reading the ring (R444). -/

/-- A record of the ring: its slot, pair key, SEQ and payload. -/
structure SRec where
  slot : Nat
  pair : Nat
  seq : Nat
  payload : List Byte
  deriving DecidableEq, Repr

/-- Slots of the ring, 0–110,591, that hold a programmed byte. -/
def sjSlots (h : Hw) : List Nat :=
  (h.rind.store.cells.foldl (fun (t : List (Nat × Unit)) q =>
    if 9699328 ≤ q.1 ∧ q.1 < 16777216 then tabPut t ((q.1 - 9699328) / 64) () else t) []).map (fun q => q.1)

/-- The record in a slot; none where its CRC fails. -/
def sjParse (h : Hw) (slot : Nat) : Option SRec :=
  let bs := rindBytes h.rind h.free (9699328 + 64 * slot) 64
  if leNat (bs.drop 60) = (crc32c (bs.take 60)).toNat then
    some { slot := slot, pair := sjKey (leNat (bs.take 2)) (leNat ((bs.drop 2).take 2)), seq := leNat ((bs.drop 8).take 8),
           payload := (bs.drop 16).take 44 }
  else none

/-- The types of Table 14.9. -/
def sjKnown (type : Nat) : Bool := [0x1, 0x2, 0x8010, 0x8011, 0x8012, 0x20, 0x21, 0x30, 0x31, 0x22].contains type

/-- Reading the ring at start: the current value of each pair is its valid record with the highest SEQ, the next record follows the last one
and any torn slots after it, and a record of an unknown type with bit 15 set leaves the settings unreadable (R442, R444, R445). -/
def sjLoad (d : Dev) : Dev :=
  let slots := sjSlots d.hw
  let recs := slots.filterMap (sjParse d.hw)
  let best := recs.foldl (fun t r => match tabGet t r.pair with
    | some v => if v.seq < r.seq then tabPut t r.pair { seq := r.seq, payload := r.payload } else t
    | none => tabPut t r.pair { seq := r.seq, payload := r.payload }) []
  let last := recs.foldl (fun (b : Option SRec) r => match b with
    | some o => if o.seq < r.seq then some r else b
    | none => some r) none
  let from_ := match last with | some r => r.slot + 1 | none => 0
  let skip := ((List.range (slots.length + 1)).find? (fun i => !slots.contains ((from_ + i) % sjRing))).getD 0
  { d with sj := { d.sj with
    cur := best.filter (fun q => !sjDeletes q.2.payload), head := (from_ + skip) % sjRing, used := ((slots.map (fun s => s / 1024)).eraseDups).length
    seq := (last.map (fun r => r.seq)).getD 0, unread := recs.any (fun r => decide (0x8000 ≤ r.pair / 65536) && !sjKnown (r.pair / 65536)) } }

/-! The key area (Table 14.1). -/

/-- Bytes of the key area replaced: the sector is erased and written again with the rest of its content. -/
def keyAreaWrite (off : Nat) (bs : List Byte) (d : Dev) : Dev :=
  let a := 134 * 65536 + off
  let s := a / 65536
  let old := rindBytes d.hw.rind d.hw.free (s * 65536) 65536
  let new := old.take (a % 65536) ++ bs ++ old.drop (a % 65536 + bs.length)
  { d with hw := { d.hw with rind := rindProg (rindErase d.hw.rind s) d.hw.free (s * 65536) (new.take 65536) } }

/-- A change of the key area, which trial firmware holds in memory until it commits (R440). -/
def keyAreaPut (off : Nat) (bs : List Byte) (d : Dev) : Dev :=
  if d.boot.trial then { d with sj := { d.sj with keyHeld := d.sj.keyHeld ++ [(off, bs)] } } else keyAreaWrite off bs d

/-- Writing the changes of the key area held in memory, oldest first (R441). -/
def keyFlushHeld (d : Dev) : Dev :=
  d.sj.keyHeld.foldl (fun x q => keyAreaWrite q.1 q.2 x) { d with sj := { d.sj with keyHeld := [] } }

end Sys2Proof.Machine
end

