-- ==== Sys2Proof/Machine/Media.lean ====
section
/-!
DEFINITION. Named operations over the media: dies and die sets, unit positions (R258), blocks, spare (R329), superblocks
(R83, R84, R246, R250), journal records (R269, R291), the dirty count (R39, R40), stripe rows and erasure.
-/

namespace Sys2Proof.Machine

/-! Accessors. -/

/-- The flash profile in force. -/
def prof (d : Dev) : Profile := d.med.layout.profile

/-- A die's record. -/
def dieGet (d : Dev) (n : Nat) : Die := tabGetD d.fl.dies n Die.init

/-- The device with a die's record replaced. -/
def diePut (d : Dev) (n : Nat) (x : Die) : Dev := { d with fl := { d.fl with dies := tabPut d.fl.dies n x } }

/-- A channel's record. -/
def chanGet (d : Dev) (n : Nat) : Chan := tabGetD d.fl.chans n Chan.init

/-- The device with a channel's record replaced. -/
def chanPut (d : Dev) (n : Nat) (x : Chan) : Dev := { d with fl := { d.fl with chans := tabPut d.fl.chans n x } }

/-- A detector's record. -/
def detGet (d : Dev) (n : Nat) : Det := tabGetD d.fl.dets n Det.init

/-- The device with a detector's record replaced. -/
def detPut (d : Dev) (n : Nat) (x : Det) : Dev := { d with fl := { d.fl with dets := tabPut d.fl.dets n x } }

/-- A run's record. -/
def runGet (d : Dev) (r : Nat) : Option Run := tabGet d.fl.runs r

/-- The device with a run's record replaced. -/
def runPut (d : Dev) (r : Nat) (x : Run) : Dev := { d with fl := { d.fl with runs := tabPut d.fl.runs r x } }

/-- A block's record. -/
def blkGet (d : Dev) (die b : Nat) : Blk := tabGetD d.med.blks (die * 4096 + b) Blk.init

/-- The device with a block's record replaced. -/
def blkPut (d : Dev) (die b : Nat) (x : Blk) : Dev :=
  { d with med := { d.med with blks := tabPut d.med.blks (die * 4096 + b) x } }

/-- A superblock's record. -/
def sbGet (d : Dev) (n : Nat) : Option Sb := tabGet d.med.sbs n

/-- The device with a superblock's record replaced. -/
def sbPut (d : Dev) (n : Nat) (x : Sb) : Dev := { d with med := { d.med with sbs := tabPut d.med.sbs n x } }

/-- Key of unit `k` of superblock `sb`. -/
def uk (sb k : Nat) : Nat := sb * 4294967296 + k

/-- Key of an LBA in the map: NSID × 2^44 + LBA. -/
def mk (nsid lba : Nat) : Nat := nsid * 17592186044416 + lba

/-! Dies and die sets (R11, section "Zone geometry"). -/

/-- A die fitted on a present channel (UNITS section, Table 2.12). -/
def dieFitted (d : Dev) (n : Nat) : Bool :=
  decide (n < 32 * chCount d.fuse) && d.med.layout.fitted.getLsbD (n / 32) && decide (n % 32 / 8 < d.med.layout.ces)
    && decide (n % 8 < d.med.layout.luns)

/-- Unit state code of a die (Table 2.12): 0 where it is absent. -/
def dieState (d : Dev) (n : Nat) : Nat := if dieFitted d n then (dieGet d n).st else 0

/-- A die in service on a channel in service. -/
def dieUp (d : Dev) (n : Nat) : Bool :=
  dieFitted d n && decide ((dieGet d n).st = 1) && (dieGet d n).leaving.isNone && decide ((chanGet d (n / 32)).st = 1)
    && (chanGet d (n / 32)).leaving.isNone

/-- Pack of a die. -/
def packOf (die : Nat) : Nat := die / 512

/-- The die sets of Pack `p` for stripe width `w`, as DIE_SET number and dies (Table 9.1); the wide stripe's sets span every
Pack. -/
def dieSets (d : Dev) (p w : Nat) : List (Nat × List Nat) :=
  (List.range 32).flatMap (fun cl =>
    if w = 48 then [(cl, (List.range 48).map (fun c => c * 32 + cl))]
    else (List.range (16 / w)).map (fun g =>
      let first := 16 * p + g * w
      (first / w + chCount d.fuse / w * cl, (List.range w).map (fun i => (first + i) * 32 + cl))))

/-- The listed blocks of a die, as block number and record. -/
def dieBlks (d : Dev) (die : Nat) : List (Nat × Blk) :=
  d.med.blks.filterMap (fun q => if q.1 / 4096 = die then some (q.1 % 4096, q.2) else none)

/-- The die that holds replica `i` of Pack `p`'s volume descriptor: the lowest-numbered die in service of channel 16p + 5i (R259). -/
def volDie (d : Dev) (p i : Nat) : Option Nat :=
  ((List.range 32).map (fun l => 32 * (16 * p + 5 * i) + l)).find? (fun n => dieUp d n)

/-- The dies that hold a Pack's volume descriptor replicas (R259). -/
def volDies (d : Dev) (p : Nat) : List Nat := (List.range 3).filterMap (volDie d p)

/-- First reserve block of a die that is not kept for a VOLUME block: blocks 0–7 of a die that carries a replica are (R81, R259). -/
def resLo (d : Dev) (die : Nat) : Nat := if (volDies d (packOf die)).contains die then 8 else 0

/-- Free good blocks in a die's zone slots; the reserve is blocks 0 to N_res − 1 (R81). -/
def freeSlots (d : Dev) (die : Nat) : Nat :=
  if dieUp d die then
    (prof d).nblk - (prof d).nres
      - ((dieBlks d die).filter (fun q => decide ((prof d).nres ≤ q.1) && decide (q.2.st ≠ .free))).length
  else 0

/-- Free good reserve blocks of a die (R329). -/
def freeReserve (d : Dev) (die : Nat) : Nat :=
  if dieUp d die then
    (prof d).nres - resLo d die - ((dieBlks d die).filter (fun q => decide (resLo d die ≤ q.1) && decide (q.1 < (prof d).nres)
      && decide (q.2.st ≠ .free))).length
  else 0

/-- The lowest-numbered free block of a die in a range: the reservoir order of R294. -/
def firstFree (d : Dev) (die lo n : Nat) : Option Nat :=
  ((List.range n).map (fun i => lo + i)).find? (fun b => decide ((blkGet d die b).st = .free))

/-- Dies of a Pack, as fitted. -/
def packDies (d : Dev) (p : Nat) : List Nat := ((List.range 512).map (fun i => 512 * p + i)).filter (fun n => dieFitted d n)

/-- Spare of Pack `p` in 0.01 %: free reserve blocks but for those that the journal area has still to take (R329). -/
def spareOf (d : Dev) (p : Nat) : Nat :=
  let ds := packDies d p
  let free := (ds.map (fun n => freeReserve d n)).sum
  let all := (prof d).nres * ds.length
  let used := (d.med.blks.filter (fun q => decide (packOf (q.1 / 4096) = p) && decide (q.2.type = 4) && decide (q.2.st ≠ .free))).length
  if all = 0 then 0 else (free - (tabGetD d.med.committed p 0 - used)) * 10000 / all

/-- The spare of a Pack is above the floor; a floor of 0 is disabled (R330). -/
def aboveFloor (d : Dev) (p : Nat) : Bool :=
  let floor := fld (rd d.hw R.AFFINEUR_SPARE) 0 16
  decide (floor = 0) || decide (floor < spareOf d p)

/-! Unit positions (R80, R256–R258). -/

/-- Superblock types in SLC mode (Table 8.2). -/
def sbSlc (s : Sb) : Bool := decide (3 ≤ s.type)

/-- Codewords that one member holds in one row: P × b × 4 (R258). -/
def rowUnits (p : Profile) (slc : Bool) : Nat := p.planes * (if slc then 1 else p.bpc) * 4

/-- Data units of one row of a superblock. -/
def rowData (d : Dev) (s : Sb) : Nat := (s.members.length - 1) * rowUnits (prof d) (sbSlc s)

/-- LBAs of one member block, U (R80). -/
def memberUnits (p : Profile) : Nat := p.planes * p.bpc * (p.wordlines - 1) * 4

/-- Data units of a superblock. -/
def sbUnits (d : Dev) (s : Sb) : Nat := rowData d s * ((prof d).wordlines - 1)

/-- Smallest power of two that is at least `n`, sought upward from 2^i over `fuel` doublings. -/
def pow2Above (n : Nat) : Nat → Nat → Nat
  | 0, i => 2 ^ i
  | f + 1, i => if n ≤ 2 ^ i then 2 ^ i else pow2Above n f (i + 1)

/-- Zone size of a width (R80). -/
def zoneSize (p : Profile) (w : Nat) : Nat := pow2Above ((w - 1) * memberUnits p) 64 0

/-- Row of unit `k`. -/
def rowOf (d : Dev) (s : Sb) (k : Nat) : Nat := k / rowData d s

/-- Parity member of a row (R257). -/
def parityOf (s : Sb) (row : Nat) : Nat := row % s.members.length

/-- Member index of data index `i` in a row (R257). -/
def memberOf (s : Sb) (row i : Nat) : Nat := if i < parityOf s row then i else i + 1

/-- Member index that holds unit `k`. -/
def memberAt (d : Dev) (s : Sb) (k : Nat) : Nat :=
  memberOf s (rowOf d s k) (k % rowData d s % (s.members.length - 1))

/-- Die and block of a member for a row: the replacement that took over latest at or before the row (R246). -/
def memberBlk (s : Sb) (row i : Nat) : Nat × Nat :=
  let orig := s.members.getD i (0, 0)
  match (s.replaced.filter (fun q => decide (q.1 = i) && decide (q.2.1 ≤ row))).getLast? with
  | some q => q.2.2
  | none => orig

/-- The position of unit `k` (R258). -/
def locOf (d : Dev) (s : Sb) (k : Nat) : Loc :=
  let p := prof d
  let m1 := s.members.length - 1
  let row := rowOf d s k
  let t := k % rowData d s / m1
  let u := t / p.planes
  let mb := memberBlk s row (memberAt d s k)
  { die := mb.1, block := mb.2, wl := row + 1, page := u / 4, plane := t % p.planes, slot := u % 4 }

/-- The scrambler's starting state of a plane-page (R251). -/
def scramblerSeed (l : Loc) : Nat :=
  1 + ((((l.die * 4 + l.plane) * 4096 + l.block) * 512 + l.wl) * 8 + l.page)

/-- The pilot pattern's seed of a plane (R241). -/
def pilotSeed (die plane block : Nat) : Nat := 1 + die * 1048576 + plane * 262144 + block

/-! Journal records (R269, R291). -/

/-- Bytes of the journal buffer in use. -/
def jbufBytes (d : Dev) : Nat := 32 * d.med.jr.buf.length

/-- Placing a record in the journal buffer: it counts from then on (R269). -/
def jput (r : JRec) (d : Dev) : Dev :=
  { d with med := { d.med with jr := { d.med.jr with buf := d.med.jr.buf ++ [r], count := d.med.jr.count + 1 } } }

/-- Codes of the record types of Table 9.6. -/
def jrMap (nsid lba n ent seq : Nat) : JRec := { type := 1, flags := 0, nsid := nsid, count := n, a := lba, b := ent, seq := seq }
/-- The record of an unmapping (Table 9.6). -/
def jrUnmap (nsid lba n seq : Nat) (secure : Bool) : JRec :=
  { type := 2, flags := if secure then 1 else 0, nsid := nsid, count := n, a := lba, b := 0, seq := seq }
/-- The record of a zone's binding to a superblock (Table 9.6). -/
def jrBind (nsid zslba sb zcap : Nat) : JRec := { type := 3, flags := 0, nsid := nsid, count := zcap, a := zslba, b := sb, seq := 0 }
/-- The record of a zone's state (Table 9.6). -/
def jrState (nsid zslba wp st flags ruh : Nat) : JRec :=
  { type := 4, flags := 0, nsid := nsid, count := st + 256 * flags + 65536 * ruh, a := zslba, b := wp, seq := 0 }
/-- The record of a zone's reset (Table 9.6). -/
def jrReset (nsid zslba seq : Nat) (secure : Bool) : JRec :=
  { type := 5, flags := if secure then 1 else 0, nsid := nsid, count := 0, a := zslba, b := 0, seq := seq }
/-- The record of a superblock move (Table 9.6). -/
def jrMove (src dst : Nat) : JRec := { type := 6, flags := 0, nsid := 0, count := 0, a := src, b := dst, seq := 0 }
/-- The record of a block's retirement (Table 9.6). -/
def jrRetire (die blk : Nat) : JRec := { type := 7, flags := 0, nsid := 0, count := 0, a := die, b := blk, seq := 0 }
/-- The record of a lost block of data (Table 9.6). -/
def jrLost (nsid lba : Nat) : JRec := { type := 8, flags := 0, nsid := nsid, count := 1, a := lba, b := 0, seq := 0 }
/-- The record of a namespace's creation or deletion (Table 9.6). -/
def jrNs (nsid base nsze : Nat) (deleted : Bool) : JRec :=
  { type := 9, flags := if deleted then 1 else 0, nsid := nsid, count := 0, a := base, b := nsze, seq := 0 }
/-- The record of a secure operation's end (Table 9.6). -/
def jrDone (seq : Nat) : JRec := { type := 10, flags := 0, nsid := 0, count := 0, a := seq, b := 0, seq := 0 }

/-- The next write sequence number, assigned (R250). -/
def seqTake (d : Dev) : Nat × Dev := (d.med.seqNext, { d with med := { d.med with seqNext := d.med.seqNext + 1 } })

/-! The dirty count (R39, R40). -/

/-- The dirty count in KiB. -/
def dirtyKib (d : Dev) : Nat := (rd d.hw R.HERDER_DIRTY).toNat

/-- The protected dirty limit in KiB (Table 4.20). -/
def limitKib (d : Dev) : Nat := (rd d.hw R.HERDER_DLIMIT).toNat

/-- The dirty count raised by `n` units of 4 KiB. -/
def dirtyAdd (n : Nat) (d : Dev) : Dev := { d with hw := wr d.hw R.HERDER_DIRTY (BitVec.ofNat 32 (dirtyKib d + 4 * n)) }

/-- The dirty count lowered by `n` units of 4 KiB. -/
def dirtySub (n : Nat) (d : Dev) : Dev := { d with hw := wr d.hw R.HERDER_DIRTY (BitVec.ofNat 32 (dirtyKib d - 4 * n)) }

/-! Program and erase jobs. -/

/-- A job queued at a die (R125). -/
def jobAdd (die : Nat) (serves : JobFor) (erase slc : Bool) (block wl : Nat) (d : Dev) : Dev :=
  let x := dieGet d die
  let j : FJob := { serves := serves, erase := erase, slc := slc, block := block, wl := wl, since := d.hw.time, token := false,
                    asked := false }
  diePut d die { x with pq := x.pq ++ [j] }

/-! Flexible Data Placement (R96). -/

/-- Units of 4 KiB counted for the FDP Statistics log: written by the host, written to media, erased. -/
def fdpCount (host media erased : Nat) (d : Dev) : Dev :=
  if d.host.fdp then
    { d with host := { d.host with fdpLog := { d.host.fdpLog with
        host := d.host.fdpLog.host + host, media := d.host.fdpLog.media + media, erased := d.host.fdpLog.erased + erased } } }
  else d

/-- An FDP event recorded while FDP is enabled (Table 3.5, log entry 95). -/
def fdpEvent (type group handle nsid blocks : Nat) (d : Dev) : Dev :=
  if d.host.fdp then
    { d with host := { d.host with fdpLog := { d.host.fdpLog with
        events := d.host.fdpLog.events ++ [{ type := type, group := group, handle := handle, time := d.aff.mtime, nsid := nsid,
                                             blocks := blocks }] } } }
  else d

/-- An erase of a block queued at its die; the block is no longer readable. -/
def eraseAdd (die b : Nat) (d : Dev) : Dev :=
  let x := blkGet d die b
  let q := d.aff.queue.filter (fun e => decide (e.blk ≠ die * 4096 + b))
  let d1 := { d with aff := { d.aff with queue := q }, hw := wr d.hw R.AFFINEUR_BACKLOG (BitVec.ofNat 32 q.length) }
  if x.st = .retired then d
  else jobAdd die (.erase false) true (decide (3 ≤ x.type)) b 0 (blkPut d1 die b { x with st := .erasing })

/-- Every block of a superblock: its members and its replacements. -/
def sbBlocks (s : Sb) : List (Nat × Nat) :=
  s.members ++ s.replaced.map (fun q => q.2.2)

/-- A superblock's erasure begins: its copies and staged units go, its blocks are queued for erase. -/
def sbErase (n : Nat) (d : Dev) : Dev :=
  match sbGet d n with
  | none => d
  | some s =>
    let keep := fun (q : Nat × Copy) => decide (q.1 / 4294967296 ≠ n)
    let lost := d.med.staged.filter (fun q => !keep q && !q.2.pad && !q.2.refresh && !q.2.parked)
    let d1 := dirtySub lost.length { (fdpCount 0 0 (sbUnits d s) d) with med := { d.med with
      copies := d.med.copies.filter keep, staged := d.med.staged.filter keep, sbs := tabDel d.med.sbs n } }
    (sbBlocks s).foldl (fun x q => eraseAdd q.1 q.2 x) d1

/-! Superblocks (R83, R84, R245, R250). -/

/-- The block that a die gives to a superblock: a zone slot, else a reserve block while the Pack's spare is above the floor
(R83). Internal types draw on the reserve (R81). -/
def blkFor (d : Dev) (reserve : Bool) (die : Nat) : Option Nat :=
  let p := prof d
  let spare := firstFree d die (resLo d die) (p.nres - resLo d die)
  if !dieUp d die then none
  else if reserve then spare
  else match firstFree d die p.nres (p.nblk - p.nres) with
    | some b => some b
    | none => if aboveFloor d (packOf die) then spare else none

/-- Least members of a superblock (R84). -/
def minMembers (w : Nat) : Nat := w / 2 + 1

/-- The die set for a superblock: among those that can supply m_min members, the one with most free good blocks, lowest
DIE_SET number on a tie (R83). -/
def pickSet (d : Dev) (p w : Nat) (reserve : Bool) : Option (Nat × List Nat) :=
  let ok := (dieSets d p w).filter (fun s =>
    decide (minMembers w ≤ (s.2.filter (fun n => (blkFor d reserve n).isSome)).length))
  let free := fun (s : Nat × List Nat) => (s.2.map (fun n => if reserve then freeReserve d n else freeSlots d n)).sum
  ok.foldl (fun b s => match b with
    | none => some s
    | some t => if free t < free s || (free t = free s && decide (s.1 < t.1)) then some s else b) none

/-- The 256-byte block descriptor of a member (Table 8.3). -/
def descBytes (d : Dev) (id : Nat) (s : Sb) (i takeover repl : Nat) (die b erases : Nat) : List Byte :=
  let p := prof d
  let mask := s.members.foldl (fun m q => m + 2 ^ (q.1 / 32)) 0
  let blkOf := fun c => match s.members.find? (fun q => decide (q.1 / 32 = c)) with
    | some q => if q.1 = die then b else q.2
    | none => 0xFFFF
  let body := [0x45#8, 0x57#8, 0x5A#8, 0x42#8, 0#8, 1#8] ++ leBytes 1 s.type ++ leBytes 1 p.family ++ leBytes 4 p.id
    ++ leBytes 2 die ++ leBytes 2 b ++ leBytes 1 p.bpc ++ leBytes 1 p.planes ++ leBytes 2 p.wordlines
    ++ leBytes 1 (if s.type = 4 ∨ 6 ≤ s.type then 0 else s.width) ++ leBytes 1 s.members.length ++ leBytes 1 i
    ++ leBytes 1 (if 3 ≤ s.type then 0 else s.kennel) ++ leBytes 4 s.nsid ++ leBytes 4 erases ++ leBytes 8 s.opened
    ++ leBytes 8 (if takeover = 0xFFFF ∧ id ≠ 0 then id else d.med.seqNext) ++ leBytes 8 id
    ++ leBytes 8 (if s.type = 1 then s.zslba else 0) ++ leBytes 16 d.med.volUuid.toNat ++ leBytes 8 mask
    ++ (List.range 48).flatMap (fun c => leBytes 2 (blkOf c)) ++ leBytes 2 takeover ++ leBytes 2 repl
    ++ leBytes 2 (if d.host.fdp then s.handle else 0xFFFF) ++ leBytes 1 s.pack ++ leBytes 1 (if s.type = 4 ∨ 6 ≤ s.type then 0 else 1)
    ++ leBytes 4 (if s.type = 1 then s.zcap else 0) ++ leBytes 1 (if s.source = 0 then 0 else 1) ++ leBytes 3 0
    ++ leBytes 8 s.source ++ leBytes 44 0
  body ++ leBytes 4 (crc32c body).toNat

/-- Marking the member blocks of a superblock open, with their descriptors. -/
def openBlocks (id : Nat) (s : Sb) (d : Dev) : Dev :=
  ((List.range s.members.length).foldl (fun x i =>
    let q := s.members.getD i (0, 0)
    let o := blkGet x q.1 q.2
    let y := dieGet x q.1
    let x1 := diePut x q.1 { y with resv := y.resv - 1 }
    blkPut x1 q.1 q.2 { Blk.init with
      st := .open_, type := s.type, sb := id, erases := o.erases, opened := d.aff.mtime, sampled := d.aff.mtime,
      urgents := o.urgents, desc := descBytes d id s i 0xFFFF 0xFFFF q.1 q.2 o.erases }) d)


/-- A Pack that reaches the spare floor: SPARE_FLOOR, the event, and read-only latched for every namespace with zones or placements in
the Pack and for its zones (R330, Table 3.4). A zoned namespace has zones in every Pack (R85). -/
def floorCheck (p : Nat) (d : Dev) : Dev :=
  if aboveFloor d p || d.med.floored.contains p then d
  else
    let h := evFw (irq d.hw irqAffineur 3) 0x072 4 p (spareOf d p) 0
    let hit := fun (s : Nat × Sb) => decide (s.2.pack = p) || decide (s.2.width = 48)
    let ids := (d.med.sbs.filter hit).map (fun s => s.2.nsid)
      ++ (d.ten.namespaces.filter (fun q => q.2.zoned)).map (fun q => q.1)
    let ns := d.ten.namespaces.map (fun q => if ids.contains q.1 then (q.1, { q.2 with readOnly := true }) else q)
    let zs := d.ten.zones.map (fun q =>
      if ids.contains (q.1 / 1048576) && decide (q.2.st ≠ .offline) then (q.1, { q.2 with st := .readOnly }) else q)
    { d with hw := h, med := { d.med with floored := d.med.floored ++ [p] },
             ten := { d.ten with namespaces := ns, zones := zs } }

/-- Taking a free block of each die of a set in turn, each take seen by the next die's floor test (R83): the members, as die and block,
and the device with the blocks taken. -/
def takeBlocks (reserve : Bool) : List Nat → Dev → List (Nat × Nat) × Dev
  | [], d => ([], d)
  | n :: ns, d =>
    match blkFor d reserve n with
    | none => takeBlocks reserve ns d
    | some b =>
      let r := takeBlocks reserve ns (blkPut d n b { blkGet d n b with st := .open_ })
      ((n, b) :: r.1, r.2)

/-- A superblock draws on the reserve: the internal types, and the target of a zone's refresh (R81). -/
def fromReserve (type source : Nat) : Bool := decide (3 ≤ type) || (decide (type = 1) && decide (source ≠ 0))

/-- A superblock bound on a die set: none where the set cannot supply m_min members (R83, R84). Its SUPERBLOCK_ID is the next
write sequence number, which it consumes so that no two superblocks share one (R250, log entry 20). A Pack whose spare its reserve blocks
bring to the floor latches read-only (R330). -/
def sbOpenIn (type nsid kennel pack w zslba handle source : Nat) (set : Nat × List Nat) (d : Dev) : Option (Nat × Dev) :=
  let t := takeBlocks (fromReserve type source) set.2 d
  if t.1.length < minMembers w then none
  else
    let q := seqTake t.2
    let zcap := (t.1.length - 1) * memberUnits (prof d)
    let s : Sb := { Sb.blank with
      type := type, nsid := nsid, kennel := kennel, pack := pack, width := w, dieSet := set.1, members := t.1, zslba := zslba,
      zcap := zcap, handle := handle, opened := d.aff.mtime, source := source }
    let d1 := openBlocks q.1 s (sbPut q.2 q.1 s)
    some (q.1, if (t.1.filter (fun m => decide (m.2 < (prof d).nres))).isEmpty then d1
      else (List.range (packCount d.fuse)).foldl (fun x p => floorCheck p x) d1)

/-- A superblock bound from a Pack, a refresh target's from the reserve (R81): none where no die set can supply m_min members
(R83, R84). -/
def sbOpen (type nsid kennel pack w zslba handle source : Nat) (d : Dev) : Option (Nat × Dev) :=
  (pickSet d pack w (fromReserve type source)).bind (fun set =>
    sbOpenIn type nsid kennel pack w zslba handle source set d)

/-- The die set of a superblock (Table 9.1). -/
def setOf (d : Dev) (s : Sb) : Option (Nat × List Nat) := (dieSets d s.pack s.width).find? (fun t => decide (t.1 = s.dieSet))

/-- The pilot wordlines of a superblock's members that are neither programmed nor queued, queued before any other wordline (R239). -/
def pilotJobs (id : Nat) (s : Sb) (d : Dev) : Dev :=
  let due := fun (q : Nat × Nat) => decide ((blkGet d q.1 q.2).st = .open_) && decide ((blkGet d q.1 q.2).pilot = 0)
    && (dieGet d q.1).pq.all (fun j => decide (j.serves ≠ .pilot id) || decide (j.block ≠ q.2))
  (s.members.filter due).foldl (fun x q => jobAdd q.1 (.pilot id) false (sbSlc s) q.2 0 x) d

/-! Stripe rows (R211, R257). -/

/-- The programs of a complete row: one wordline per member, the parity member's last (R38 step 8, R211). -/
def rowJobs (id row : Nat) (s : Sb) (d : Dev) : Dev :=
  let m := s.members.length
  let order := (List.range m).filter (fun i => decide (i ≠ parityOf s row)) ++ [parityOf s row]
  let d1 := order.foldl (fun x i =>
    let mb := memberBlk s row i
    jobAdd mb.1 (.row id row i) false (sbSlc s) mb.2 (row + 1) x) d
  sbPut d1 id { s with rowWait := tabPut s.rowWait row m }

/-- Units of a superblock's row that member `i` holds: none for the parity member (R258). -/
def memberKs (d : Dev) (s : Sb) (row i : Nat) : List Nat :=
  if i = parityOf s row then []
  else
    let di := if i < parityOf s row then i else i - 1
    (List.range (rowUnits (prof d) (sbSlc s))).map (fun t => row * rowData d s + t * (s.members.length - 1) + di)

/-- The first row of a superblock whose programs have not been queued. -/
def rowNext (d : Dev) (s : Sb) : Nat :=
  ((List.range ((prof d).wordlines - 1)).find? (fun r => !s.rowsDone.contains r && (tabGet s.rowWait r).isNone)).getD ((prof d).wordlines - 1)

/-- Programs of complete rows queued, row after row: a row waits for the rows before it (log entry 96). -/
def rowsQueue (id : Nat) : Nat → Dev → Dev
  | 0, d => d
  | f + 1, d =>
    match sbGet d id with
    | none => d
    | some s =>
      let r := rowNext d s
      if decide (0 < rowData d s) && decide (tabGetD s.staged r 0 = rowData d s) then rowsQueue id f (rowJobs id r s d) else d

/-- Counting a unit of a superblock as in DRAM; once its last data unit is there, a row has its programs queued (R211). -/
def rowReady (id k : Nat) (d : Dev) : Dev :=
  match sbGet d id with
  | none => d
  | some s =>
    let row := rowOf d s k
    let n := tabGetD s.staged row 0 + 1
    let s1 := { s with staged := tabPut s.staged row n }
    let d1 := if s.staged.isEmpty && s.rowsDone.isEmpty then pilotJobs id s1 d else d
    rowsQueue id (prof d).wordlines (sbPut d1 id s1)

/-- The release of a row: its DRAM copies go and the dirty count falls, once every program of the row and every sample has
passed (R40, R230). A park row releases the DRAM copies of the units it parks (R94). A zone's row makes parked copies of its
units stale. The superblock's last row closes it. -/
def rowRelease (id row : Nat) (d : Dev) : Dev :=
  match sbGet d id with
  | none => d
  | some s =>
    let inRow : Nat × Copy → Bool := fun q =>
      decide (q.1 / 4294967296 = id) && decide (rowOf d s (q.1 % 4294967296) = row)
    let mine := d.med.staged.filter inRow
    let lbas := (d.med.copies.filter inRow).map (fun q => mk q.2.nsid q.2.lba)
    let also : Nat × Copy → Bool := fun q =>
      decide (s.type = 3) && !q.2.parked && lbas.contains (mk q.2.nsid q.2.lba)
    let orig := d.med.staged.filter also
    let dirty := (orig ++ mine).filter (fun q => !q.2.pad && !q.2.refresh && !q.2.parked)
    let s1 := { s with
      rowsDone := s.rowsDone ++ [row], rowWait := tabDel s.rowWait row, staged := tabDel s.staged row,
      closed := s.closed || decide (row + 2 = (prof d).wordlines) }
    let stale : Nat × Copy → Bool := fun q =>
      q.2.parked && lbas.contains (mk q.2.nsid q.2.lba) && decide (q.1 / 4294967296 ≠ id)
    let med := { d.med with
      staged := d.med.staged.filter (fun q => !inRow q && !also q), copies := d.med.copies.filter (fun q => !stale q) }
    dirtySub dirty.length (sbPut { d with med := med } id s1)

/-- One program or sample of a row has ended; the last one releases the row. -/
def rowStep (id row : Nat) (d : Dev) : Dev :=
  match sbGet d id with
  | none => d
  | some s =>
    let n := tabGetD s.rowWait row 0
    if s.rowsDone.contains row then d
    else if n ≤ 1 then rowRelease id row d else sbPut d id { s with rowWait := tabPut s.rowWait row (n - 1) }

/-- `n` further samples that the release of a row waits for (R230). -/
def rowHold (id row n : Nat) (d : Dev) : Dev :=
  match sbGet d id with
  | none => d
  | some s => sbPut d id { s with rowWait := tabPut s.rowWait row (tabGetD s.rowWait row 0 + n) }

/-! Retirement (R327, R328). -/

/-- A unit's state recorded in the settings journal; the pair is deleted when the unit is back in service (R527, Table 14.9).
Unit types: 1 channel, 2 die, 3 detector. -/
def unitRecord (type n st : Nat) (d : Dev) : Dev :=
  if st = 1 then sjDelete 0x22 (type * 2048 + n) d else sjPut 0x22 (type * 2048 + n) (leBytes 1 st) d

/-- A UNIT_SERVICE event (Table 16.2). -/
def unitEvent (type n st who : Nat) (d : Dev) : Dev :=
  { d with hw := evFw d.hw 0x011 1 (type + 256 * n) st who }

/-- Retired blocks of a die. -/
def retiredOf (d : Dev) (die : Nat) : Nat := ((dieBlks d die).filter (fun q => decide (q.2.st = .retired))).length

/-- Members of superblocks with a block on a die: superblock, member index, first row that the block holds and the block. -/
def membersOn (d : Dev) (die : Nat) : List (Nat × Nat × Nat × Nat) :=
  d.med.sbs.flatMap (fun q =>
    ((List.range q.2.members.length).filterMap (fun i =>
      let o := q.2.members.getD i (0, 0)
      if o.1 = die then some (q.1, i, 0, o.2) else none))
    ++ q.2.replaced.filterMap (fun r => if r.2.2.1 = die then some (q.1, r.1, r.2.1, r.2.2.2) else none))

/-- Position number of a parity codeword: the `t`-th of its row (the model's own numbering, above every data unit's k). -/
def parK (row t : Nat) : Nat := 2147483648 + row * 4096 + t

/-- A position number is a parity codeword's. -/
def isPar (k : Nat) : Bool := decide (2147483648 ≤ k)

/-- Row of a position, data or parity. -/
def rowAny (d : Dev) (s : Sb) (k : Nat) : Nat := if isPar k then k % 2147483648 / 4096 else rowOf d s k

/-- Number of a position within its member's row. -/
def slotAny (d : Dev) (s : Sb) (k : Nat) : Nat :=
  if isPar k then k % 4096 else k % rowData d s / (s.members.length - 1)

/-- Member index of a position. -/
def memAny (d : Dev) (s : Sb) (k : Nat) : Nat := if isPar k then parityOf s (rowAny d s k) else memberAt d s k

/-- Position number that member `i` holds in a row at slot `t` (R257, R258). -/
def memberK (d : Dev) (s : Sb) (row t i : Nat) : Nat :=
  if i = parityOf s row then parK row t
  else row * rowData d s + t * (s.members.length - 1) + (if i < parityOf s row then i else i - 1)

/-- Place on the dies of a position, data or parity (R258). -/
def locAny (d : Dev) (s : Sb) (k : Nat) : Loc :=
  let row := rowAny d s k
  let t := slotAny d s k
  let u := t / (prof d).planes
  let mb := memberBlk s row (memAny d s k)
  { die := mb.1, block := mb.2, wl := row + 1, page := u / 4, plane := t % (prof d).planes, slot := u % 4 }

/-- The codewords of a superblock that lie on a die, parity of complete rows included, as (superblock, position), in row order
(R226). -/
def unitsOn (d : Dev) (sb die : Nat) : List (Nat × Nat) :=
  match sbGet d sb with
  | none => []
  | some s =>
    (d.med.copies.filterMap (fun q =>
      if q.1 / 4294967296 = sb ∧ (locOf d s (q.1 % 4294967296)).die = die then some (sb, q.1 % 4294967296) else none))
    ++ s.rowsDone.flatMap (fun row =>
      if (memberBlk s row (parityOf s row)).1 = die then (List.range (rowUnits (prof d) (sbSlc s))).map (fun t => (sb, parK row t))
      else [])

/-- A free block of a Pack for a rebuilt member: on a die that holds no other member of the superblock, the lowest die number
first (R226). -/
def rebuildBlk (d : Dev) (s : Sb) (die : Nat) : Option (Nat × Nat) :=
  let taken := (sbBlocks s).map (fun q => q.1)
  ((packDies d (packOf die)).filter (fun n => !taken.contains n)).findSome? (fun n =>
    (blkFor d false n).map (fun b => (n, b)))

/-- The programs of a member that wait at a die move to its replacement (R103, R168). A power token that one of them held is returned, and
it asks anew there (R158). -/
def jobsMove (die sb i : Nat) (dst : Nat × Nat) (d : Dev) : Dev :=
  let x := dieGet d die
  let mine : FJob → Bool := fun j => match j.serves with | .row s _ m => decide (s = sb) && decide (m = i) | _ => false
  let mv := x.pq.filter mine
  let held := (mv.filter (fun j => j.token)).length
  let d1 := diePut d die { x with pq := x.pq.filter (fun j => !mine j) }
  let d2 := { d1 with fl := { d1.fl with pacer := { d1.fl.pacer with
      inuse := d1.fl.pacer.inuse - held,
      wait := if mv.any (fun j => j.asked) then d1.fl.pacer.wait.filter (fun q => decide (q.1 ≠ die)) else d1.fl.pacer.wait } } }
  mv.foldl (fun y j => jobAdd dst.1 j.serves j.erase j.slc dst.2 j.wl y) d2

/-- A replacement block takes over a member from a row onward: its pilot wordline is queued first, and its descriptor names the
row and the block replaced (R231, R239, R246). -/
def memberReplace (sb i row oldDie oldBlk : Nat) (dst : Nat × Nat) (d : Dev) : Dev :=
  match sbGet d sb with
  | none => d
  | some s =>
    let s1 := { s with replaced := s.replaced ++ [(i, row, dst)] }
    let o := blkGet d dst.1 dst.2
    let b : Blk := { Blk.init with
      st := .open_, type := s.type, sb := sb, erases := o.erases, opened := d.aff.mtime, sampled := d.aff.mtime,
      urgents := o.urgents, desc := descBytes d sb s1 i row oldBlk dst.1 dst.2 o.erases }
    jobsMove oldDie sb i dst (jobAdd dst.1 (.pilot sb) false (sbSlc s) dst.2 0 (blkPut (sbPut d sb s1) dst.1 dst.2 b))

/-- Codewords in the order of a rebuild: stripe row by stripe row, in ascending order of the zone table (R226). -/
def rebuildOrder (d : Dev) (us : List (Nat × Nat)) : List (Nat × Nat) :=
  (us.foldl (fun t u =>
    match sbGet d u.1 with
    | some s => tabPut t (((mk s.nsid s.zslba * 2 ^ 64 + u.1) * 4096 + rowAny d s u.2) * 2 ^ 40 + u.2) u
    | none => t) []).map (fun q => q.2)

/-- A rebuild of a die starts in its Pack: every member on it gets a block elsewhere, its valid codewords wait for their
rebuild, and XORU_RBLD_LEFT shows them (R226, R227). -/
def rebuildStart (die : Nat) (d : Dev) : Dev :=
  let p := packOf die
  let d1 := (membersOn d die).foldl (fun x m =>
    match sbGet x m.1 with
    | none => x
    | some s =>
      let units := unitsOn x m.1 die
      match rebuildBlk x s die with
      | none => x
      | some dst =>
        let x1 := memberReplace m.1 m.2.1 m.2.2.1 die m.2.2.2 dst x
        let r := tabGetD x1.med.rebuilds p Rebuild.none
        { x1 with med := { x1.med with rebuilds := tabPut x1.med.rebuilds p { r with left := rebuildOrder x1 (r.left ++ units) } } }) d
  let left := (tabGetD d1.med.rebuilds p Rebuild.none).left
  { d1 with hw := wr d1.hw (R.XORU_RBLD_LEFT p) (BitVec.ofNat 32 (min 0xFFFFFFFF left.length)) }


/-- A die on which more than 10 % of the blocks of one plane have been retired is retired and rebuilt (R328). -/
def dieRetireCheck (die : Nat) (d : Dev) : Dev :=
  let x := dieGet d die
  if decide (10 * retiredOf d die ≤ (prof d).nblk) || decide (x.st = 5) then d
  else
    let h := evFw (irq d.hw irqAffineur 4) 0x071 3 die 0 0
    let d1 := diePut { d with hw := h, aff := { d.aff with critReliability := true } } die { x with st := 5 }
    rebuildStart die (unitEvent 2 die 5 1 (unitRecord 2 die 5 d1))

/-! The refresh queue (R318, R321). -/

/-- The queue replaced, with AFFINEUR_BACKLOG. -/
def queuePut (q : List RefEnt) (d : Dev) : Dev :=
  { d with aff := { d.aff with queue := q }, hw := wr d.hw R.AFFINEUR_BACKLOG (BitVec.ofNat 32 q.length) }

/-- An entry comes before another: urgent entries first, in order of queueing, then normal ones by crossing time (R322). -/
def refBefore (a b : RefEnt) : Bool :=
  if a.urgent then !b.urgent
  else if b.urgent then false
  else match a.cross, b.cross with
    | some x, some y => decide (x < y)
    | some _, none => true
    | _, _ => false

/-- An entry placed behind those that it does not precede. -/
def refInsert (e : RefEnt) : List RefEnt → List RefEnt
  | [] => [e]
  | x :: xs => if refBefore e x then e :: x :: xs else x :: refInsert e xs

/-- One block queued: a block already queued keeps its place unless the new result raises its priority or brings its crossing
earlier (R318); a second urgent queueing within 7 days has it retired at its next erase (R327, Table 10.2). -/
def refQueueOne (key : Nat) (urgent : Bool) (cross : Option Nat) (d : Dev) : Dev :=
  let e : RefEnt := { blk := key, urgent := urgent, cross := if urgent then none else cross }
  let d1 := match d.aff.queue.find? (fun x => decide (x.blk = key)) with
    | some x => if refBefore e x then queuePut (refInsert e (d.aff.queue.filter (fun y => decide (y.blk ≠ key)))) d else d
    | none => queuePut (refInsert e d.aff.queue) d
  let was := match d.aff.queue.find? (fun x => decide (x.blk = key)) with | some x => x.urgent | none => false
  if !urgent || was then d1
  else
    let b := blkGet d1 (key / 4096) (key % 4096)
    let us := b.urgents.filter (fun t => decide (d.aff.mtime < t + 604800))
    blkPut { d1 with hw := irq d1.hw irqAffineur 1 } (key / 4096) (key % 4096)
      { b with urgents := us ++ [d.aff.mtime], suspect := b.suspect || !us.isEmpty }

/-- The other zones of a queued zone's refresh group: same namespace, reclaim group and handle, superblock opened within
GROUP_WINDOW days (R321). -/
def refGroup (d : Dev) (s : Sb) (id : Nat) : List (Nat × Sb) :=
  let w := fld (rd d.hw R.AFFINEUR_REFRESH) 8 8 * 86400
  if w = 0 ∨ s.type ≠ 1 then []
  else d.med.sbs.filter (fun q => decide (q.1 ≠ id) && decide (q.2.type = 1) && decide (q.2.nsid = s.nsid)
    && decide (q.2.pack = s.pack) && decide (q.2.handle = s.handle) && decide (q.2.source = 0)
    && decide (q.2.opened ≤ s.opened + w) && decide (s.opened ≤ q.2.opened + w)
    && d.ten.zones.any (fun z => decide (z.2.sb = q.1)))

/-- Every zone of a queued zone's refresh group takes the place of its earliest member (R321); `fst` is the queued superblock. -/
def refGroupPut (fst : Nat × Sb) (d : Dev) : Dev :=
  let gs := refGroup d fst.2 fst.1
  let entsOf := fun (x : Dev) (id : Nat) => x.aff.queue.filter (fun e => decide ((blkGet x (e.blk / 4096) (e.blk % 4096)).sb = id))
  if gs.isEmpty then d
  else match (fst :: gs).flatMap (fun q => entsOf d q.1) with
    | [] => d
    | e0 :: es =>
      let best := es.foldl (fun b e => if refBefore e b then e else b) e0
      (fst :: gs).foldl (fun x q => match entsOf x q.1 with
        | [] =>
          let m := q.2.members.getD 0 (0, 0)
          queuePut (refInsert { best with blk := m.1 * 4096 + m.2 } x.aff.queue) x
        | old => old.foldl (fun y o =>
            if refBefore best o then
              queuePut (refInsert { best with blk := o.blk } (y.aff.queue.filter (fun e => decide (e.blk ≠ o.blk)))) y
            else y) x) d

/-- A block queued for refresh, with its refresh group (R318, R321). The Affineur queues while it runs. -/
def refQueue (key : Nat) (urgent : Bool) (cross : Option Nat) (d : Dev) : Dev :=
  let b := blkGet d (key / 4096) (key % 4096)
  if !bit (rd d.hw R.AFFINEUR_CTRL) 0 || decide (b.st = .retired) || decide (b.st = .free) || decide (b.st = .erasing) then d
  else
    let d1 := refQueueOne key urgent cross d
    match sbGet d1 b.sb with
    | none => d1
    | some s => refGroupPut (b.sb, s) d1

/-- Retiring a block: it is never erased, programmed or sampled again, and a RETIRE record is placed (R327). -/
def blkRetire (die b : Nat) (d : Dev) : Dev :=
  let x := blkGet d die b
  let q := d.aff.queue.filter (fun e => decide (e.blk ≠ die * 4096 + b))
  let aff := { d.aff with queue := q, retired := tabMod d.aff.retired (packOf die) 0 (fun n => n + 1) }
  let d0 := { d with aff := aff, hw := wr d.hw R.AFFINEUR_BACKLOG (BitVec.ofNat 32 q.length) }
  let d1 := jput (jrRetire die b) (blkPut d0 die b { x with st := .retired })
  floorCheck (packOf die) (dieRetireCheck die d1)

end Sys2Proof.Machine
end

