-- ==== Sys2Proof/Machine/Codewords.lean ====
section
/-!
DEFINITION. Codewords as they lie on the media: the tag (R247–R249), the LDPC codes in closed form (R253–R255), the scrambler and the stored
page bits (R206, R237, R251, R252), zone table and map entries (Tables 9.1, 9.2), and journal codewords (R290, R291, R293).
-/

namespace Sys2Proof.Machine

/-! Names that the entries need. -/

/-- A zone's key in the zone table. -/
def zkey (nsid z : Nat) : Nat := nsid * 1048576 + z

/-- A namespace's record. -/
def nsGet (d : Dev) (n : Nat) : Option Ns := tabGet d.ten.namespaces n

/-- The device with MAPU's record changed. -/
def mapuMod (f : Mapu → Mapu) (d : Dev) : Dev := { d with med := { d.med with mapu := f d.med.mapu } }

/-- Segment number of a conventional LBA (R275). -/
def segOf (d : Dev) (nsid lba : Nat) : Nat := tabGetD d.med.mapu.segBase nsid 0 + lba / 512

/-- The entry of a conventional LBA; an LBA never written is UNMAPPED (Table 9.2). -/
def mapAt (d : Dev) (nsid lba : Nat) : MapEnt := tabGetD d.med.mapu.map (mk nsid lba) (.unmapped 0)

/-- Zone count of a zoned namespace. -/
def zoneCount (n : Ns) : Nat := if n.zsze = 0 then 0 else n.nsze / n.zsze

/-- Codeword bytes of a family (Table 7.1). -/
def codeBytes (family : Nat) : Nat := if family = 0 then 4608 else 4864

/-! Codeword tag (R247, R249). -/

/-- FLAGS of a codeword (Table 8.5). -/
def tagFlags (c : Copy) (zoned dump system : Bool) : Nat :=
  (if zoned then 1 else 0) + (if c.pad then 2 else 0) + (if c.lost then 4 else 0) + (if c.parked then 8 else 0)
    + (if c.refresh then 16 else 0) + (if dump then 32 else 0) + (if system then 64 else 0) + c.cipher % 4 * 256

/-- The 32-byte tag over the user bytes as stored (Table 8.4). PAD and LOST codewords carry CIPHER and EPOCH 0. -/
def tagBytes (c : Copy) (zoned dump system : Bool) (user : List Byte) : List Byte :=
  let body := leBytes 8 c.lba ++ leBytes 8 c.seq ++ leBytes 4 (c.kennel % 256 * 16777216 + c.nsid % 16777216)
    ++ leBytes 4 (if c.cipher = 0 then 0 else c.slot % 8192 * 524288 + c.gen % 524288)
    ++ leBytes 2 (tagFlags c zoned dump system) ++ leBytes 4 (crc32c user).toNat
  body ++ leBytes 2 (crc16 body).toNat

/-- The tag check of R208: TAG_CRC and DATA_CRC. -/
def tagOk (tag user : List Byte) : Bool :=
  decide (leNat (tag.drop 30) = (crc16 (tag.take 30)).toNat) && decide (leNat ((tag.drop 26).take 4) = (crc32c user).toNat)

/-! LDPC codes (R253–R255). -/

/-- Base rows M of a family (Table 7.1). -/
def ldpcM (family : Nat) : Nat := if family = 0 then 15 else 23

/-- Column weight d_v of the information columns (R254). -/
def ldpcDv (family : Nat) : Nat := if family = 0 then 3 else 4

/-- Step s_c (R254). -/
def ldpcStep (family c : Nat) : Nat := 1 + c % (ldpcM family - 1)

/-- Row r_k(c) (R254). -/
def ldpcRow (family c k : Nat) : Nat := (c + k * ldpcStep family c) % ldpcM family

/-- Shift P(r, c) of an information column (R254). -/
def ldpcShift (r c : Nat) : Nat := (17 * r * (c + 1) + 3 * c) % 256

/-- The circulants of H at base row `r` and column `c`: their shifts (R254, R255). -/
def ldpcEntry (family r c : Nat) : List Nat :=
  let m := ldpcM family
  if c < 129 then
    if (List.range (ldpcDv family)).any (fun k => decide (ldpcRow family c k = r)) then [ldpcShift r c] else []
  else if c = 129 then (if r = 0 ∨ r = m - 1 then [1] else if r = m / 2 then [0] else [])
  else if r + 1 = c - 129 ∨ r = c - 129 then [0] else []

/-- (P^p v)[i] = v[(i + p) mod 256] (R255). -/
def ldpcRot (v : BitVec 256) (p : Nat) : BitVec 256 := v.rotateRight (p % 256)

/-- λ_r over the information blocks (R255). -/
def ldpcLambda (family r : Nat) (u : List (BitVec 256)) : BitVec 256 :=
  (List.range 129).foldl (fun (a : BitVec 256) c =>
    (ldpcEntry family r c).foldl (fun (a : BitVec 256) p => a ^^^ ldpcRot (u.getD c 0#256) p) a) 0#256

/-- Parity blocks p_2 onward, from row `r`, of `n` rows (R255). -/
def ldpcChain (family : Nat) (u : List (BitVec 256)) (p0 : BitVec 256) : Nat → Nat → BitVec 256 → List (BitVec 256)
  | 0, _, _ => []
  | n + 1, r, p =>
    let q := ldpcLambda family r u ^^^ p ^^^ (if r = ldpcM family / 2 then p0 else 0#256)
    q :: ldpcChain family u p0 n (r + 1) q

/-- The parity blocks of an information part (R255). -/
def ldpcParity (family : Nat) (u : List (BitVec 256)) : List (BitVec 256) :=
  let m := ldpcM family
  let p0 := (List.range m).foldl (fun (a : BitVec 256) r => a ^^^ ldpcLambda family r u) 0#256
  let p1 := ldpcLambda family 0 u ^^^ ldpcRot p0 1
  p0 :: p1 :: ldpcChain family u p0 (m - 2) 1 p1

/-- The syndrome of base row `r` over a codeword's blocks (R253). -/
def ldpcSyndrome (family r : Nat) (x : List (BitVec 256)) : BitVec 256 :=
  (List.range (129 + ldpcM family)).foldl (fun (a : BitVec 256) c =>
    (ldpcEntry family r c).foldl (fun (a : BitVec 256) p => a ^^^ ldpcRot (x.getD c 0#256) p) a) 0#256

/-- A codeword satisfies every check (R208, R253). -/
def ldpcOk (family : Nat) (x : List (BitVec 256)) : Bool :=
  (List.range (ldpcM family)).all (fun r => decide (ldpcSyndrome family r x = 0#256))

/-! Scrambler (R251). -/

/-- One step of the sequence c over its last 39 bits: c_i = c_(i−4) ⊕ c_(i−39). -/
def scrambStep (w : BitVec 39) : BitVec 39 := (w >>> 1) ||| (if w.getLsbD 35 != w.getLsbD 0 then 1#39 <<< 38 else 0#39)

/-- `n` steps. -/
def scrambSteps : Nat → BitVec 39 → BitVec 39
  | 0, w => w
  | n + 1, w => scrambSteps n (scrambStep w)

/-- Bit z_k of a plane-page whose starting state is `s` (R251). -/
def scrambBit (s k : Nat) : Bool := (scrambSteps (k + 64) (BitVec.ofNat 39 s)).getLsbD 0

/-! Codewords and stored page bits (R206, R211, R237, R252). -/

/-- A list cut or filled with zeros to `n` bytes. -/
def fit (n : Nat) (bs : List Byte) : List Byte := (bs ++ List.replicate (n - bs.length) 0#8).take n

/-- The information part of a codeword: user bytes and tag, as the 129 blocks of 256 stream bits that the base graph's columns take (R234,
R237). -/
def infoOf (user tag : List Byte) : List (BitVec 256) :=
  (List.range 129).map (fun c => BitVec.ofNat 256 (leNat (((fit 4096 user ++ fit 32 tag).drop (32 * c)).take 32)))

/-- The codeword of an information part: the parity blocks follow it (R237, R255). -/
def codeword (family : Nat) (info : List (BitVec 256)) : List (BitVec 256) := info ++ ldpcParity family info

/-- Stream bit `j` of a codeword (R237). -/
def cwBit (cw : List (BitVec 256)) (j : Nat) : Bool := (cw.getD (j / 256) 0#256).getLsbD (j % 256)

/-- z_k for bit `j` of the codeword at a place: k is the bit's page position, in the sequence of the plane-page's own address (R237, R251). -/
def zBit (family : Nat) (l : Loc) (j : Nat) : Bool := scrambBit (scramblerSeed l) (l.slot * (8 * codeBytes family) + j)

/-- The page bit stored for bit `j` of a codeword at a place: the codeword bit ⊕ z_k (R252). -/
def pageBit (family : Nat) (l : Loc) (cw : List (BitVec 256)) (j : Nat) : Bool := cwBit cw j != zBit family l j

/-- The LDPC input stage removes the scrambler from the hard bits of a codeword: it inverts them where the sequence is 1 (R206, R252). -/
def descramble (family : Nat) (l : Loc) (bits : List Bool) : List Bool :=
  bits.zipIdx.map (fun q => q.1 != zBit family l q.2)

/-- The LDPC input stage removes the scrambler from LLRs: it negates them where the sequence is 1 (R206, R252). -/
def descrambleLlr (family : Nat) (l : Loc) (llrs : List Int) : List Int :=
  llrs.zipIdx.map (fun q => if zBit family l q.2 then -q.1 else q.1)

/-- The key that a copy's data was encrypted under: its slot's, or, where the slot has another generation now, one that the vault no longer
holds, which is a free value. -/
def copyKey (d : Dev) (c : Copy) : BitVec 512 :=
  let s := slotGet d.sec c.slot
  if s.type ≠ 0 ∧ s.gen = c.gen then s.key else Config.goneKey (c.slot * 524288 + c.gen)

/-- The user bytes of a copy as stored: zeros of a pad or a LOST placeholder, the data in clear, or its XTS ciphertext with the LBA as the
tweak (R248, R249). -/
def userStored (d : Dev) (c : Copy) : List Byte :=
  if c.pad || c.lost then List.replicate 4096 0#8
  else if c.cipher = 0 then leBytes 4096 c.data
  else Config.xtsEnc (copyKey d c) (BitVec.ofNat 128 c.lba) (leBytes 4096 c.data)

/-- The information part of a data unit's codeword. -/
def copyInfo (d : Dev) (c : Copy) : List (BitVec 256) :=
  let zoned := match nsGet d c.nsid with | some n => n.zoned | none => false
  infoOf (userStored d c) (tagBytes c zoned false false (fit 4096 (userStored d c)))

/-- Exclusive-or of two information parts. -/
def infoXor (a b : List (BitVec 256)) : List (BitVec 256) := List.zipWith (fun x y => x ^^^ y) a b

/-- The information part at position `k` of a superblock: a data unit's own, or for the parity member the exclusive-or of the unscrambled
information parts of the data members at the same position (R211, R252). A position without a unit counts as zeros. -/
def infoAt (d : Dev) (sb k : Nat) : List (BitVec 256) :=
  let unit := fun (k : Nat) => match tabGet d.med.copies (uk sb k), tabGet d.med.staged (uk sb k) with
    | some c, _ => copyInfo d c
    | none, some c => copyInfo d c
    | none, none => List.replicate 129 0#256
  match sbGet d sb with
  | none => List.replicate 129 0#256
  | some s =>
    if isPar k then
      let row := rowAny d s k
      ((List.range s.members.length).filter (fun i => decide (i ≠ parityOf s row))).foldl (fun a i =>
        infoXor a (unit (memberK d s row (slotAny d s k) i))) (List.replicate 129 0#256)
    else unit k

/-- The page bit stored for bit `j` of the codeword at position `k` of a superblock, by the address of its own member (R252). -/
def storedBit (d : Dev) (sb k j : Nat) : Bool :=
  match sbGet d sb with
  | none => false
  | some s => pageBit (prof d).family (locAny d s k) (codeword (prof d).family (infoAt d sb k)) j

/-! Zone table and map entries (Tables 9.1, 9.2). -/

/-- The 128-byte zone table entry (Table 9.1). -/
def zoneEntry (d : Dev) (z : Zone) : List Byte :=
  let s := sbGet d z.sb
  let w := match s with | some s => s.width | none => 0
  let first := match s with | some s => (if w = 48 then 0 else s.dieSet % (chCount d.fuse / max w 1) * w) | none => 0
  let blk := fun i => match s with
    | some s => (match s.members.find? (fun q => decide (q.1 / 32 = first + i)) with | some q => q.2 | none => 0xFFFF)
    | none => 0xFFFF
  leBytes 8 (if z.st = .offline then 0 else z.sb) ++ leBytes 4 z.zcap ++ leBytes 4 z.wp ++ leBytes 1 z.st.code
    ++ leBytes 1 ((if z.fzr then 1 else 0) + (if z.zfc then 2 else 0) + (if z.secure.isSome then 4 else 0)
        + (if z.moving.isSome then 8 else 0))
    ++ leBytes 2 z.handle ++ leBytes 2 (match s with | some s => s.dieSet | none => 0)
    ++ leBytes 1 (match s with | some s => s.members.length | none => 0) ++ leBytes 1 0
    ++ leBytes 8 (match z.moving with | some t => t | none => 0) ++ (List.range 48).flatMap (fun i => leBytes 2 (blk i))

/-- The 8-byte map entry (Table 9.2). -/
def mapEntry (d : Dev) (e : MapEnt) : Nat :=
  match e with
  | .unmapped seq => seq % 65536 * 2 ^ 46
  | .lost seq => 2 ^ 63 + seq % 65536 * 2 ^ 46
  | .media seq sb k =>
    let l := match sbGet d sb with
      | some s => locAny d s k
      | none => { die := 0, block := 0, wl := 0, page := 0, plane := 0, slot := 0 }
    2 ^ 62 + seq % 65536 * 2 ^ 46 + l.die * 2 ^ 28 + l.block * 65536 + l.wl * 128 + l.page * 16 + l.plane * 4 + l.slot

/-! Journal codewords (R290, R291, R293, R307). -/

/-- The record of a unit placed in a conventional superblock: one unit, with its map entry (Table 9.6). -/
def jrUnit (d : Dev) (nsid lba sb k seq : Nat) : JRec := jrMap nsid lba 1 (mapEntry d (.media seq sb k)) seq

/-- The 32 bytes of a record (R291). A RESV record has its die at byte 2 and fourteen block numbers from byte 4 on, which these fields
carry in their order. -/
def recBytes (r : JRec) : List Byte :=
  leBytes 1 r.type ++ leBytes 1 r.flags ++ leBytes 2 r.nsid ++ leBytes 4 r.count ++ leBytes 8 r.a ++ leBytes 8 r.b ++ leBytes 8 r.seq

/-- Kind of a journal codeword (Table 9.5). -/
def JBody.kind : JBody → Nat
  | .records _ => 1
  | .segment _ _ => 2
  | .zones _ _ => 3
  | .filters _ => 4

/-- Index of a journal codeword whose number is `j` (Table 9.5). -/
def JBody.index (j : Nat) : JBody → Nat
  | .records _ => j
  | .segment s _ => s
  | .zones first _ => first
  | .filters _ => 0

/-- User bytes of a journal codeword (Tables 9.5, 9.6). -/
def JBody.bytes : JBody → List Byte
  | .records rs => fit 4096 (rs.flatMap recBytes)
  | .segment _ es => fit 4096 (es.flatMap (fun e => leBytes 8 e))
  | .zones _ es => fit 4096 es.flatten
  | .filters fs => fit 4096 (fs.flatMap (fun f => leBytes 8 f.1 ++ leBytes 512 (f.2.foldl (fun n b => n ||| 2 ^ b) 0)))

/-- What the tag of a SYSTEM codeword carries: LBA a record index, SEQ, OWNER 0 and EPOCH 0 (R260, R290, Table 8.4). -/
def sysCopy (index seq : Nat) : Copy :=
  { nsid := 0, lba := index, seq := seq, kennel := 0, cipher := 0, slot := 0, gen := 0, lost := false, pad := false, parked := false,
    refresh := false, data := 0 }

/-- The tag of journal codeword J: SEQ = J, OWNER 0, EPOCH 0, SYSTEM, and LBA with the kind in bits 63:60 and the index below (R290). -/
def journalTag (j : Nat) (b : JBody) : List Byte := tagBytes (sysCopy (b.kind * 2 ^ 60 + b.index j % 2 ^ 60) j) false false true b.bytes

/-- Journal codeword J, before scrambling (R290). -/
def journalWord (family j : Nat) (b : JBody) : List (BitVec 256) := codeword family (infoOf b.bytes (journalTag j b))

end Sys2Proof.Machine
end

