-- ==== Sys2Proof/Machine/Volume.lean ====
section
/-!
DEFINITION. The volume descriptor and its replicas (R259–R262, R264).
-/

namespace Sys2Proof.Machine

/-- Device serial number: the first 16 bytes of the provisioning sectors (Table 14.1; the offset is DEDUCED, log entry 28). -/
def serialBytes (d : Dev) : List Byte := rindBytes d.hw.rind d.hw.free (140 * 65536) 16

/-- The volume header's bytes 0–183 (Table 8.8). -/
def volHeader (d : Dev) : List Byte :=
  let p := prof d
  [0x45#8, 0x57#8, 0x5A#8, 0x56#8, 0#8, 1#8] ++ leBytes 2 21 ++ leBytes 8 d.med.volGen ++ leBytes 16 d.med.volUuid.toNat
    ++ leBytes 8 d.med.volCreated ++ leBytes 8 d.med.volWritten ++ leBytes 2 ((idPart d.fuse).toNat / 65536)
    ++ leBytes 1 ((idPart d.fuse).toNat / 256) ++ leBytes 1 0 ++ serialBytes d ++ leBytes 4 p.id ++ leBytes 1 p.iface
    ++ leBytes 1 p.bpc ++ leBytes 1 p.planes ++ leBytes 1 p.family ++ leBytes 2 p.wordlines ++ leBytes 2 p.nblk ++ leBytes 2 p.nres
    ++ leBytes 1 d.med.layout.width ++ leBytes 1 (chCount d.fuse) ++ leBytes 1 (packCount d.fuse) ++ leBytes 1 p.offsetStep
    ++ leBytes 2 (4 * codeBytes p.family) ++ (List.range 32).map (fun i => BitVec.ofNat 8 (p.levelMap.getD i 0)) ++ leBytes 4 p.npe
    ++ leBytes 2 d.ten.namespaces.length ++ leBytes 2 0 ++ leBytes 8 d.med.seqNext ++ leBytes 48 d.med.layout.digest.toNat

/-- A namespace entry (Table 8.9). -/
def nsEntry (d : Dev) (nsid : Nat) (n : Ns) : List Byte :=
  leBytes 4 nsid ++ leBytes 1 (if n.zoned then 2 else 1) ++ leBytes 1 n.width ++ leBytes 1 (if d.host.fdp then 1 else 0)
    ++ leBytes 1 n.cipher ++ leBytes 8 n.nsze ++ leBytes 8 (if n.zoned then n.zsze else 0)
    ++ leBytes 4 (if n.zoned then zoneCount n else 0) ++ leBytes 2 (if n.cipher = 0 then 0 else n.slot) ++ leBytes 2 0
    ++ leBytes 4 (n.keyGen % 524288) ++ leBytes 4 0 ++ leBytes 8 (if n.cipher = 0 then 0 else n.keyCheck) ++ leBytes 8 n.created
    ++ leBytes 8 0

/-- Wordline, plane and slot of a section within its generation (R260). -/
def volPlace (p s : Nat) : Nat × Nat × Nat := (s / (4 * p), s % p, s % (4 * p) / p)

/-- The tag of a section's codeword: LBA the section index, SEQ the generation, OWNER 0, EPOCH 0, SYSTEM (R260). -/
def volTag (gen s : Nat) (bs : List Byte) : List Byte := tagBytes (sysCopy s gen) false false true (fit 4096 bs)

/-- SLC wordlines of a generation: its 21 sections in 4P a wordline (R260). -/
def volRows (p : Nat) : Nat := (21 + 4 * p - 1) / (4 * p)

/-- The VOLUME block that a replica opens on a die: the lowest free block of blocks 0–7 (R259, R261). -/
def volBlock (die : Nat) (d : Dev) : Option (Nat × Dev) :=
  (firstFree d die 0 8).map (fun b =>
    let o := blkGet d die b
    let s : Sb := { Sb.blank with type := 6, pack := packOf die, opened := d.aff.mtime }
    (b, blkPut d die b { Blk.init with
      st := .open_, type := 6, erases := o.erases, opened := d.aff.mtime, sampled := d.aff.mtime, urgents := o.urgents, pilot := 2
      desc := descBytes d 0 s 0 0xFFFF 0xFFFF die b o.erases }))

/-- A replica brought to the current generation: after the generation before it in its block, or, where that has no room or lies on another
die, in a new VOLUME block, whose predecessor is erased then. A replica whose channel has no die in service stays as it is (R259–R261). -/
def replicaWrite (p i : Nat) (d : Dev) : Dev :=
  let k := 3 * p + i
  let g := volRows (prof d).planes
  let new := fun (die b wl : Nat) (x : Dev) =>
    let r : Replica := { die := die, block := b, wl := wl, gen := x.med.volGen, created := x.med.volCreated, uuid := x.med.volUuid,
                         volume := x.med.volume }
    { x with med := { x.med with replicas := tabPut x.med.replicas k r } }
  match volDie d p i with
  | none => d
  | some die =>
    let old := tabGet d.med.replicas k
    match old.bind (fun r => if r.die = die ∧ r.wl + 2 * g ≤ (prof d).wordlines then some r else none) with
    | some r => new die r.block (r.wl + g) d
    | none => match volBlock die d with
      | none => d
      | some (b, d1) => match old with
        | some r => eraseAdd r.die r.block (new die b 1 d1)
        | none => new die b 1 d1

/-- The replicas of every present Pack, in order of Pack and then replica index, as `f` takes them (R259, R261). -/
def replicasEach (f : Nat → Nat → Dev → Dev) (d : Dev) : Dev :=
  (List.range (packCount d.fuse)).foldl (fun x p => (List.range 3).foldl (fun y i => f p i y) x) d

/-- A new generation of the volume descriptor, written to every replica that can be, one after the other (R259–R261). -/
def volWrite (d : Dev) : Dev :=
  let d1 := { d with med := { d.med with volGen := d.med.volGen + 1, volWritten := d.aff.mtime } }
  let v0 := tabPut (d.med.volume.filter (fun q => decide (q.1 < 65536))) 0 (volHeader d1)
  let v1 := d1.ten.namespaces.foldl (fun v q => tabPut v (65536 + q.1) (nsEntry d1 q.1 q.2)) v0
  replicasEach replicaWrite { d1 with med := { d1.med with volume := v1 } }

/-- A replica that can be read: on a die in service, with the magic in its header (R259, R262). -/
def replicaOk (d : Dev) (r : Replica) : Bool :=
  dieUp d r.die && decide ((tabGetD r.volume 0 []).take 4 = [0x45#8, 0x57#8, 0x5A#8, 0x56#8])

/-- The current volume descriptor: of the replicas with the highest CREATED, which decides between VOLUME_UUIDs, the one of highest
GENERATION (R262). -/
def volCurrent (d : Dev) : Option Replica :=
  ((d.med.replicas.map (fun q => q.2)).filter (replicaOk d)).foldl (fun b r => match b with
    | none => some r
    | some c => if c.created < r.created ∨ (c.created = r.created ∧ c.gen < r.gen) then some r else b) none

/-- A replica older than the current generation, of another volume, on another die, or missing is written again (R259, R262). -/
def replicaMend (p i : Nat) (d : Dev) : Dev :=
  match tabGet d.med.replicas (3 * p + i) with
  | some r => if r.gen = d.med.volGen ∧ r.uuid = d.med.volUuid ∧ volDie d p i = some r.die then d else replicaWrite p i d
  | none => replicaWrite p i d

/-- Every replica mended, once there is a volume. -/
def volMend (d : Dev) : Dev := if d.med.formatted then replicasEach replicaMend d else d

/-- The volume descriptor at boot: the current one is taken, and its header's major version judged (R262, R264). A volume whose replicas all
lie on dies out of service keeps the descriptor that the device holds. -/
def volTake (d : Dev) : Dev :=
  match volCurrent d with
  | none => d
  | some r => { d with med := { d.med with
      volGen := r.gen, volCreated := r.created, volUuid := r.uuid, volume := r.volume
      volUnknown := d.med.volUnknown || decide (((tabGetD r.volume 0 []).getD 5 1#8) ≠ 1#8) } }

end Sys2Proof.Machine
end

