-- ==== Sys2Proof/Machine/Journal.lean ====
section
/-!
DEFINITION. The map journal: its ring, codewords, flush, anchors and reclaim (R289–R300, R307), superblocks that wait to be erased (R270, R288), and
garbage collection (R286–R288).
-/

namespace Sys2Proof.Machine

/-! Superblocks that wait to be erased. -/

/-- A pilot sample whose array read has not been issued. -/
def sampleDue (x : Run) : Bool := !x.sent && (match x.serves with | .sample _ => true | _ => false)

/-- A superblock whose data has moved: it is erased once the reads admitted before the switch have ended and the record is on
media (R270, R288). A cadence sample that is not issued yet does not hold it (R314). -/
def doom (sb : Nat) (d : Dev) : Dev :=
  let rs := d.fl.runs.filterMap (fun q => if q.2.sb = sb ∧ !sampleDue q.2 then some q.1 else none)
  { d with med := { d.med with doomed := d.med.doomed ++ [{ sb := sb, runs := rs, need := d.med.jr.count }] } }

/-- Whether a doomed superblock may be erased. -/
def doomReady (d : Dev) (x : Doomed) : Bool :=
  decide (x.need ≤ d.med.jr.onMedia) && x.runs.all (fun r => (tabGet d.fl.runs r).isNone)

/-- Erasing every superblock whose conditions now hold. -/
def doomCheck (d : Dev) : Dev :=
  let go := d.med.doomed.filter (doomReady d)
  let d1 := { d with med := { d.med with doomed := d.med.doomed.filter (fun x => !doomReady d x) } }
  go.foldl (fun x q => sbErase q.sb x) d1

/-! The ring's lane pairs (R289, R296). -/

/-- Codewords of one SLC wordline. -/
def lineCap (p : Profile) : Nat := p.planes * 4

/-- Codewords that one lane pair holds: an SLC block's user content in 4 KiB (R297). -/
def pairCap (p : Profile) : Nat := lineCap p * (p.wordlines - 1)

/-- Lane pairs that the codewords below `j` take: successive wordlines go to the 16 lanes in turn, and a lane's next pair follows when its
pair is full (R289). -/
def pairsFor (p : Profile) (j : Nat) : Nat :=
  let lines := (j + lineCap p - 1) / max (lineCap p) 1
  let per := 16 * (p.wordlines - 1)
  16 * (lines / max per 1) + min 16 (lines % max per 1)

/-- Whether pair `q` holds journal codeword `j` (R289). -/
def pairHolds (p : Profile) (q : LanePair) (j : Nat) : Bool :=
  let l := j / max (lineCap p) 1
  decide (l % 16 = q.no % 16) && decide (l / 16 / max (p.wordlines - 1) 1 = q.no / 16)

/-- Number of the first codeword of the `n`-th pair opened (R289, R296). -/
def pairFirst (p : Profile) (n : Nat) : Nat := (n / 16 * (p.wordlines - 1) * 16 + n % 16) * lineCap p

/-- Place of journal codeword `j` on a block of its pair (R289). -/
def jLoc (p : Profile) (die block j : Nat) : Loc :=
  let i := j % max (lineCap p) 1
  { die := die, block := block, wl := 1 + j / max (lineCap p) 1 / 16 % max (p.wordlines - 1) 1, page := 0, plane := i % max p.planes 1,
    slot := i / max p.planes 1 }

/-- The die of copy `c` (0 or 1) of lane `l`, on two channels of different Packs where the part has them (R289, log entry
21). -/
def laneDie (d : Dev) (l c : Nat) : Nat :=
  let packs := packCount d.fuse
  let chan := if packs = 1 then (l + 8 * c) % 16 else (c % packs) * 16 + l % 16
  (((List.range 32).map (fun i => chan * 32 + i)).find? (fun n => dieUp d n)).getD (chan * 32)

/-- The reserve block of a die with the least erase count, lowest number on a tie (R289). -/
def leastErased (d : Dev) (die : Nat) : Nat :=
  let lo := resLo d die
  ((List.range ((prof d).nres - lo)).map (fun i => i + lo)).foldl (fun b i =>
    if (blkGet d die i).st = .free
      ∧ ((blkGet d die b).st ≠ .free ∨ (blkGet d die i).erases < (blkGet d die b).erases) then i else b) lo

/-- J of the ring's tail. -/
def tailJ (jr : Journal) : Nat := match jr.pairs with | q :: _ => q.firstJ | [] => jr.j

/-- A reserve block that becomes a JOURNAL block, with its descriptor (R289, Table 8.3). -/
def journalBlock (die b : Nat) (d : Dev) : Dev :=
  let o := blkGet d die b
  blkPut d die b { Blk.init with
    st := .open_, type := 4, erases := o.erases, opened := d.aff.mtime, sampled := d.aff.mtime, urgents := o.urgents, pilot := 2
    desc := descBytes d 0 { Sb.blank with type := 4, pack := packOf die, opened := d.aff.mtime } 0 0xFFFF 0xFFFF die b o.erases }

/-- Opening the next lane pair: two JOURNAL blocks of the reserve, with its anchor in the settings journal (R289, R296,
Table 14.9). -/
def pairOpen (d : Dev) : Dev :=
  let n := d.med.jr.opened
  let a := laneDie d (n % 16) 0
  let b := laneDie d (n % 16) 1
  let pr : LanePair := { no := n, dieA := a, blkA := leastErased d a, dieB := b, blkB := leastErased d b, firstJ := pairFirst (prof d) n }
  let d1 := journalBlock b pr.blkB (journalBlock a pr.blkA d)
  let jr := { d1.med.jr with pairs := d1.med.jr.pairs ++ [pr], opened := n + 1 }
  sjPut 2 (n % 65536)
    (leBytes 2 a ++ leBytes 2 b ++ leBytes 2 pr.blkA ++ leBytes 2 pr.blkB ++ leBytes 8 pr.firstJ ++ leBytes 8 (tailJ jr))
    { d1 with med := { d1.med with jr := jr } }

/-- Opening `n` lane pairs. -/
def pairsOpen : Nat → Dev → Dev
  | 0, d => d
  | n + 1, d => pairsOpen n (pairOpen d)

/-! What the journal holds: live records and images (R290, R293, R295, R300, R307). -/

/-- Open superblocks, which a checkpoint names (R293). -/
def openSbs (d : Dev) : List (Nat × Sb) := d.med.sbs.filter (fun q => !q.2.closed)

/-- Map segments that a record speaks of: those of its LBAs, for MAP, UNMAP and LOST (Table 9.6). -/
def recSegs (d : Dev) (r : JRec) : List Nat :=
  if r.type = 1 ∨ r.type = 2 ∨ r.type = 8 then
    (List.range ((r.a % 512 + r.count + 511) / 512)).map (fun i => segOf d r.nsid r.a + i)
  else []

/-- Device-wide index of a zone: zones count on from one zoned namespace to the next, in NSID order. -/
def zoneIndex (d : Dev) (nsid z : Nat) : Nat :=
  ((d.ten.namespaces.filter (fun q => q.2.zoned && decide (q.1 < nsid))).map (fun q => zoneCount q.2)).sum + z

/-- Zone table images (of 32 entries each) that a record speaks of, by their first zone index: ZONE_BIND, ZONE_STATE, ZONE_RESET. -/
def recZones (d : Dev) (r : JRec) : List Nat :=
  match nsGet d r.nsid with
  | some n => if 3 ≤ r.type ∧ r.type ≤ 5 ∧ n.zsze ≠ 0 then [zoneIndex d r.nsid (r.a / n.zsze) / 32 * 32] else []
  | none => []

/-- The segment whose image a codeword is, and the zone table image that it is. -/
def JBody.segs : JBody → List Nat
  | .segment s _ => [s]
  | _ => []

/-- First zone index of the zone table image that a codeword is. -/
def JBody.zoneFirsts : JBody → List Nat
  | .zones first _ => [first]
  | _ => []

/-- The superblocks that a FILTER codeword holds. -/
def JBody.filterSbs : JBody → List (Nat × List Nat)
  | .filters fs => fs
  | _ => []

/-- The records of a RECORDS codeword. -/
def JBody.recs : JBody → List JRec
  | .records rs => rs
  | _ => []

/-- Codewords that the ring holds or the flush in progress writes. -/
def ringWords (d : Dev) : List (Nat × JBody) := d.med.jr.words ++ d.med.jr.pend

/-- Whether an image of a segment was written after codeword `j`. -/
def segNewer (d : Dev) (j s : Nat) : Bool := (ringWords d).any (fun w => decide (j < w.1) && w.2.segs.contains s)

/-- Whether a zone table image was written after codeword `j`. -/
def zonesNewer (d : Dev) (j first : Nat) : Bool := (ringWords d).any (fun w => decide (j < w.1) && w.2.zoneFirsts.contains first)

/-- Live records of each segment: those newer than the image of their segment (R295, R300). -/
def segLive (d : Dev) : List (Nat × Nat) :=
  (ringWords d).foldl (fun t w => w.2.recs.foldl (fun t r =>
    ((recSegs d r).filter (fun s => !segNewer d w.1 s)).foldl (fun t s => tabMod t s 0 (fun n => n + 1)) t) t) []

/-- The 512 entries of a segment, in clear (Table 9.5). -/
def segBody (d : Dev) (s : Nat) : JBody :=
  let ns := d.ten.namespaces.find? (fun q => !q.2.zoned && decide (segOf d q.1 0 ≤ s) && decide (s < segOf d q.1 q.2.nsze))
  .segment s ((List.range 512).map (fun i => match ns with
    | some q => mapEntry d (mapAt d q.1 ((s - segOf d q.1 0) * 512 + i))
    | none => 0))

/-- The zones of the device in order of their device-wide index. -/
def zonesAll (d : Dev) : List Nat :=
  (d.ten.namespaces.filter (fun q => q.2.zoned)).flatMap (fun q => (List.range (zoneCount q.2)).map (fun z => zkey q.1 z))

/-- 32 zone table entries from a zone index on (Table 9.5). -/
def zonesBody (d : Dev) (first : Nat) : JBody :=
  .zones first ((((zonesAll d).drop first).take 32).map (fun zk => zoneEntry d (tabGetD d.ten.zones zk Zone.init)))

/-- A list cut into pieces of `n`, over `fuel` pieces. -/
def chunks {α : Type} (n : Nat) : Nat → List α → List (List α)
  | 0, _ => []
  | _, [] => []
  | f + 1, x :: xs => (x :: xs).take n :: chunks n f ((x :: xs).drop n)

/-- FILTER codewords of superblocks, seven to a codeword (Table 9.5). -/
def filterBodies (fs : List (Nat × List Nat)) : List JBody := (chunks 7 fs.length fs).map JBody.filters

/-- RECORDS codewords of records, 128 to a codeword (Table 9.5). -/
def recordBodies (rs : List JRec) : List JBody := (chunks 128 rs.length rs).map JBody.records

/-- The segment filters that a checkpoint writes: of every open CONV_MEMBER superblock and garbage-collection target, and once more of one
that has closed since (R293, R307). -/
def filtersDue (d : Dev) : List (Nat × List Nat) :=
  (d.med.sbs.filter (fun q => decide (q.2.type = 2) && (!q.2.closed
    || !(d.med.jr.words.any (fun w => w.2.filterSbs.contains (q.1, q.2.filter)))))).map (fun q => (q.1, q.2.filter))

/-- The segments whose images are due, over `fuel` of them: while live records pass 256 MiB, those with most live records first (R300). -/
def imagesPick : Nat → List (Nat × Nat) → Nat → List Nat
  | 0, _, _ => []
  | f + 1, cs, live =>
    if 32 * live ≤ 268435456 then []
    else match cs with
      | [] => []
      | c :: rest =>
        let top := rest.foldl (fun b q => if b.2 < q.2 then q else b) c
        top.1 :: imagesPick f (cs.filter (fun q => decide (q.1 ≠ top.1))) (live - top.2)

/-- Images due at a flush (R300). -/
def imagesDue (d : Dev) : List JBody :=
  let cs := segLive d
  (imagesPick cs.length cs (cs.map (fun q => q.2)).sum).map (fun s => segBody d s)

/-- The reservoir of a die as a checkpoint lists it: fourteen free blocks in the order in which they are taken, of the zone slots and of the
reserve seven each (R294, log entry 117). -/
def reservoir (d : Dev) (die : Nat) : List Nat :=
  let free := fun (lo n : Nat) => (((List.range n).map (fun i => lo + i)).filter (fun b => decide ((blkGet d die b).st = .free))).take 7
  let bs := free (prof d).nres ((prof d).nblk - (prof d).nres) ++ free (resLo d die) ((prof d).nres - resLo d die)
  bs ++ List.replicate (14 - bs.length) 0xFFFF

/-- Block numbers as the 16-bit parts of a number, the first lowest. -/
def pack16 (bs : List Nat) : Nat := bs.foldr (fun b n => b % 65536 + 65536 * n) 0

/-- The RESV record of a die (Table 9.6). -/
def jrResv (d : Dev) (die : Nat) : JRec :=
  let bs := reservoir d die
  { type := 0x12, flags := 0, nsid := die, count := pack16 (bs.take 2), a := pack16 ((bs.drop 2).take 4), b := pack16 ((bs.drop 6).take 4),
    seq := pack16 ((bs.drop 10).take 4) }

/-- The records of a checkpoint: one CKPT record with the tail's J and the next write sequence number, an OPEN record for each open
superblock and a RESV record for each present die (R293, Table 9.6). -/
def ckptRecs (d : Dev) : List JRec :=
  let rest := (openSbs d).map (fun q =>
      ({ type := 0x11, flags := 0, nsid := 0, count := q.2.dieSet, a := q.1, b := q.2.nextK, seq := 0 } : JRec))
    ++ ((List.range (32 * chCount d.fuse)).filter (fun i => dieFitted d i)).map (jrResv d)
  { type := 0x10, flags := 0, nsid := 0, count := rest.length + 1, a := tailJ d.med.jr, b := d.med.seqNext, seq := 0 } :: rest

/-- The codewords of a flush of `rs`: its records, the content that is written again at the head, the images due, and the checkpoint
(R290, R292, R293). -/
def flushBodies (d : Dev) (rs : List JRec) : List JBody :=
  recordBodies rs ++ d.med.jr.carry ++ imagesDue d ++ recordBodies (ckptRecs d) ++ filterBodies (filtersDue d)

/-- Codewords that a flush of `rs` writes. -/
def flushWords (d : Dev) (rs : List JRec) : Nat := (flushBodies d rs).length

/-- Percent of the journal area in use (Table 9.16). -/
def fillNow (d : Dev) : Nat :=
  if d.med.jr.area = 0 then 0 else min 255 (100 * (d.med.jr.pairs.length + d.med.jr.old.length) / d.med.jr.area)

/-- MAPU_JSTAT (Table 9.16). -/
def jstat (d : Dev) : Word := putFld (rd d.hw R.MAPU_JSTAT) 24 8 (fillNow d)

/-- A record that is neither a map's nor a zone's and still says something: a move whose source stands, a retirement, a namespace that
exists, and the end of a secure operation whose record is in the ring. -/
def recKept (d : Dev) (r : JRec) : Bool :=
  if r.type = 6 then (sbGet d r.a).isSome
  else if r.type = 9 then (nsGet d r.nsid).isSome
  else if r.type = 10 then
    (ringWords d).any (fun w => w.2.recs.any (fun q => decide (q.seq = r.a) && decide (q.flags % 2 = 1) && decide (q.type = 2 ∨ q.type = 5)))
  else decide (r.type = 7)

/-- Content of a lane pair that is still current, as it is written again at the head: fresh images of the segments and zones whose image or
live records it holds, FILTER entries of live superblocks, and records that are still current (R295, log entry 117). -/
def carryOf (d : Dev) (q : LanePair) : List JBody :=
  let ws := d.med.jr.words.filter (fun w => pairHolds (prof d) q w.1)
  let segs := ws.flatMap (fun w => (w.2.segs ++ w.2.recs.flatMap (recSegs d)).filter (fun s => !segNewer d w.1 s))
  let zs := ws.flatMap (fun w => (w.2.zoneFirsts ++ w.2.recs.flatMap (recZones d)).filter (fun s => !zonesNewer d w.1 s))
  let fs := (ws.flatMap (fun w => w.2.filterSbs.map (fun f => f.1))).eraseDups.filterMap (fun n => (sbGet d n).map (fun s => (n, s.filter)))
  segs.eraseDups.map (segBody d) ++ zs.eraseDups.map (zonesBody d) ++ filterBodies fs
    ++ recordBodies (ws.flatMap (fun w => w.2.recs.filter (recKept d)))

/-- The journal goes on with the next group of 16 lane pairs, where a pair of the open group is gone (log entry 117). -/
def groupSkip (p : Profile) (jr : Journal) : Journal :=
  let n := (jr.opened + 15) / 16 * 16
  { jr with opened := n, j := pairFirst p n }

/-- The lane pairs that `gone` picks leave the ring: their current content is to be written again at the head, and their blocks wait for the
checkpoint that names the new tail (R295). -/
def pairsLeave (gone : LanePair → Bool) (d : Dev) : Dev :=
  let out := d.med.jr.pairs.filter gone
  let jr := { d.med.jr with pairs := d.med.jr.pairs.filter (fun q => !gone q), old := d.med.jr.old ++ out
                            carry := d.med.jr.carry ++ out.flatMap (carryOf d) }
  let jr1 := if out.any (fun q => decide (q.no / 16 = (jr.opened - 1) / 16)) then groupSkip (prof d) jr else jr
  { d with med := { d.med with jr := { jr1 with tail := tailJ jr1 } } }

/-- The tail pair leaves the ring (R295). -/
def jTail (d : Dev) : Dev :=
  match d.med.jr.pairs with
  | q :: _ => pairsLeave (fun p => decide (p.no = q.no)) d
  | [] => d

/-- A flush of `rs` starts: its codewords and a checkpoint are on their way to the ring, lane pairs opening as it fills; the image that the
checkpoint makes recoverable is fixed here, as what the replay of the ring's codewords gives (R292, R293, R299, log entry 117). -/
def jStart (rs keep : List JRec) (d : Dev) : Dev :=
  let bodies := flushBodies d rs
  let j := d.med.jr.j
  let jr := { d.med.jr with flushing := some rs, buf := keep, carry := [], pend := bodies.zipIdx.map (fun q => (j + q.2, q.1))
                            flushAt := d.hw.time, j := j + bodies.length, oldAt := d.med.jr.old.length }
  let snap : Image := { zones := d.ten.zones, map := d.med.mapu.map, dump := [], loose := [], dumped := false }
  pairsOpen (pairsFor (prof d) jr.j - jr.opened) { d with med := { d.med with jr := jr, snap := snap } }

/-- Whether the ring has no room for a flush of the buffer. -/
def jRoomless (d : Dev) : Bool :=
  let n := pairsFor (prof d) (d.med.jr.j + flushWords d d.med.jr.buf) - d.med.jr.opened
  decide (0 < d.med.jr.area) && decide (0 < n) && decide (d.med.jr.area < d.med.jr.pairs.length + d.med.jr.old.length + n)

/-- A flush of the journal buffer (R292). While a flush is in progress no other starts. Where the ring is full, JFULL tells it, the tail pair
is reclaimed, and the buffer's records wait for that (R295, Table 9.11). -/
def jFlush (d : Dev) : Dev :=
  if d.med.jr.flushing.isSome then d
  else if jRoomless d then jStart [] d.med.jr.buf (jTail { d with hw := irqIf d.hw (hasMapu d.fuse) irqMapu 6 })
  else jStart d.med.jr.buf [] d

/-- Reclaiming the ring's tail pair once its used blocks pass FILL percent of the area: current content is written again at
the head (R295). FILL 0 leaves reclaim until the ring is full. -/
def jReclaim (d : Dev) : Dev :=
  let fill := fld (rd d.hw R.MAPU_JCTRL) 24 8
  let limit := if fill = 0 then 100 else fill
  if 0 < d.med.jr.area ∧ limit * d.med.jr.area < 100 * d.med.jr.pairs.length then jFlush (jTail d) else d

/-- A lane pair's blocks are erased. -/
def pairErase (d : Dev) (p : LanePair) : Dev := eraseAdd p.dieB p.blkB (eraseAdd p.dieA p.blkA d)

/-- A flush completes: its codewords, records and image are on media, every die's reservoir is listed afresh, the JFLUSH bit clears and
LAST_FLUSH shows its duration; the pairs that it let go are erased, and waiting erases and reclaim follow (R292, R294, R295). -/
def jComplete (d : Dev) : Dev :=
  match d.med.jr.flushing with
  | none => d
  | some rs =>
    let x := d.med.jr
    let dur := (d.hw.time.toNat - x.flushAt.toNat) / 250
    let h1 := md d.hw R.MAPU_JSTAT (fun w => putFld w 0 16 (min 0xFFFF dur))
    let h2 := md h1 R.MAPU_CTRL (fun w => clrBit w 2)
    let gone := x.old.take x.oldAt
    let jr := { x with
      flushing := none, pend := [], media := x.media ++ rs, onMedia := x.onMedia + rs.length, old := x.old.drop x.oldAt, oldAt := 0
      words := (x.words ++ x.pend).filter (fun w => !gone.any (fun q => pairHolds (prof d) q w.1)) }
    let dies := d.fl.dies.map (fun q => (q.1, { q.2 with resv := 14 }))
    let d1 := { d with hw := h2, med := { d.med with jr := jr, image := d.med.snap }, fl := { d.fl with dies := dies } }
    jReclaim (doomCheck (gone.foldl pairErase d1))

/-- Whether the journal buffer is half full (R292). -/
def jHalf (d : Dev) : Bool := decide (fld (rd d.hw R.MAPU_JBUF_SIZE) 0 24 * 512 ≤ jbufBytes d)

/-- A superblock's erase waits for nothing but a record that is not yet on media (R270, R292). -/
def eraseWaits (d : Dev) : Bool :=
  d.med.doomed.any (fun x => decide (d.med.jr.onMedia < x.need) && x.runs.all (fun r => (tabGet d.fl.runs r).isNone))

/-- A flush when the buffer is half full, when a die has no more than two listed reservoir entries left, or before an erase of blocks that a
record not yet on media names (R292, R294). -/
def jFlushIfNeeded (d : Dev) : Dev :=
  if jHalf d || d.fl.dies.any (fun q => decide (q.2.resv ≤ 2)) || eraseWaits d then jFlush d else d

/-- JOURNAL_FLUSH_INTERVAL: INTERVAL ms after the previous flush; 0 disables this trigger (R292, Table 9.15). -/
def jTimed (d : Dev) : Dev :=
  let n := fld (rd d.hw R.MAPU_JCTRL) 0 16
  if decide (n = 0) || decide (d.hw.time.toNat < d.med.jr.flushAt.toNat + n * 25000) then d else jFlush d

/-! Garbage collection (R286–R288). -/

/-- Free superblocks of a width in a Pack (R286). -/
def freeSbs (d : Dev) (p w : Nat) : Nat :=
  ((dieSets d p w).map (fun s => (s.2.map (fun n => freeSlots d n)).foldl min 0xFFFFFFFF)).sum

/-- Live units of a superblock: map entries that name it. -/
def liveUnits (d : Dev) (sb : Nat) : List (Nat × Nat) :=
  d.med.mapu.map.filterMap (fun q => match q.2 with
    | .media _ s k => if s = sb then some (q.1, k) else none
    | _ => none)

/-- The garbage-collection victim of a Pack and width: the closed superblock with the fewest valid units, lowest OPEN_SEQ on
a tie (R286). -/
def gcVictim (d : Dev) (p w : Nat) : Option Nat :=
  let cand := d.med.sbs.filter (fun q => decide (q.2.type = 2) && q.2.closed && decide (q.2.pack = p) && decide (q.2.width = w)
    && d.med.moves.all (fun m => decide (m.source ≠ q.1)) && d.med.doomed.all (fun x => decide (x.sb ≠ q.1)))
  (cand.foldl (fun (b : Option (Nat × Nat)) q =>
    let n := (liveUnits d q.1).length
    match b with
    | none => some (q.1, n)
    | some (_, m) => if n < m then some (q.1, n) else b) none).map (fun b => b.1)

/-- The open garbage-collection target of a reclaim group, opened where there is none for the move from `source` (R271, Table 8.3). -/
def gcTarget (p w nsid source : Nat) (d : Dev) : Option (Nat × Dev) :=
  match tabGet d.med.openSb (p * 64 + 63) with
  | some s => some (s, d)
  | none => match sbOpen 2 nsid 0 p w 0 0 source d with
    | none => none
    | some (s, d1) => some (s, { d1 with med := { d1.med with openSb := tabPut d1.med.openSb (p * 64 + 63) s } })

/-- Where collection of a reclaim group and width runs, after its free superblocks have been counted: from below LOW_WM until LOW_WM + 4
(R286); and where the token cap is lifted: from CRIT_WM or below, where GC_CRIT is set, until above LOW_WM (R287). A zero disables its
trigger (Table 9.17). -/
def gcCount (p w : Nat) (d : Dev) : Dev :=
  let c := rd d.hw R.MAPU_GC_CTRL
  let low := fld c 8 8
  let crit := fld c 0 8
  let n := freeSbs d p w
  let key := p * 64 + w
  let is := decide (crit ≠ 0) && decide (n ≤ crit)
  let on := if decide (low ≠ 0) && decide (n < low) then d.med.gcOn.filter (fun k => decide (k ≠ key)) ++ [key]
    else if low = 0 ∨ low + 4 ≤ n then d.med.gcOn.filter (fun k => decide (k ≠ key)) else d.med.gcOn
  let lift := if is then d.med.gcLifted.filter (fun k => decide (k ≠ p)) ++ [p]
    else if crit = 0 ∨ low < n then d.med.gcLifted.filter (fun k => decide (k ≠ p)) else d.med.gcLifted
  { d with hw := irqIf d.hw is irqMapu (7 + p), med := { d.med with gcOn := on, gcLifted := lift } }

/-- A victim of a reclaim group and width begins to be collected: one without live units is erased at once (R286). -/
def gcVictimStart (p w : Nat) (d : Dev) : Dev :=
  match gcVictim d p w with
  | none => d
  | some v =>
    let units := liveUnits d v
    if units.isEmpty then sbErase v d
    else match gcTarget p w 0 v d with
      | none => d
      | some (t, d2) =>
        let mv : Move := { source := v, target := t, zone := none, units := units, gc := true }
        { d2 with med := { d2.med with moves := d2.med.moves ++ [mv] }
                  hw := md d2.hw R.MAPU_GC_STAT (fun w => putFld w 0 16 (fld w 0 16 + 1)) }

/-- Garbage collection of a Pack: its free superblocks of a width are counted, and where collection runs a victim begins (R286, R287). -/
def gcStart (p w : Nat) (d : Dev) : Dev :=
  let d1 := gcCount p w d
  if d1.med.gcOn.contains (p * 64 + w) then gcVictimStart p w d1 else d1

/-- Collection that runs goes on where none of its victims is being moved (R286). -/
def gcAgain (d : Dev) : Dev :=
  d.med.gcOn.foldl (fun x k =>
    let busy := x.med.moves.any (fun m => m.gc && (match sbGet x m.source with
      | some s => decide (s.pack * 64 + s.width = k)
      | none => false))
    if busy then x else gcStart (k / 64) (k % 64) x) d

/-- The next position of an open superblock, which closes when it is full. -/
def sbNextK (d : Dev) (sb : Nat) : Nat := match sbGet d sb with | some s => s.nextK | none => 0

/-- Placing a unit at the next position of a superblock (R271): its DRAM copy, its position and the segment filter (R307). -/
def sbPlace (sb : Nat) (c : Copy) (d : Dev) : Dev :=
  match sbGet d sb with
  | none => d
  | some s =>
    let seg := tabGetD d.med.mapu.segBase c.nsid 0 + c.lba / 512
    let s1 := { s with nextK := s.nextK + 1, filter := s.filter ++ [seg % 4093, seg / 4093 % 4093],
                         owners := if s.type = 3 ∧ c.pad = false then s.owners ++ [mk c.nsid c.lba] else s.owners }
    let full := decide (sbUnits d s ≤ s.nextK + 1)
    let open1 := if full then d.med.openSb.filter (fun q => decide (q.2 ≠ sb)) else d.med.openSb
    { (sbPut d sb s1) with med := { (sbPut d sb s1).med with
        staged := tabPut d.med.staged (uk sb s.nextK) c, openSb := open1 } }

/-- A moved unit's switch, by compare-and-set against the address the move read; the MAP record goes with it (R288). A unit
that failed ladder step 5 moves as a LOST placeholder under the move's own SEQ (R225, R249). The last unit of a victim dooms it. -/
def gcSwitch (nsid lba : Nat) (lost : Bool) (d : Dev) : Dev :=
  let key := mk nsid lba
  match d.med.moves.find? (fun m => m.gc && m.units.any (fun u => decide (u.1 = key))) with
  | none => d
  | some m =>
    let k := ((m.units.find? (fun u => decide (u.1 = key))).getD (0, 0)).2
    let from_ := match tabGet d.med.copies (uk m.source k) with
      | some c => some { c with refresh := true }
      | none => tabGet d.med.staged (uk m.source k)
    match from_ with
    | none => d
    | some c =>
      let q := sbNextK d m.target
      let t := if lost then seqTake d else (c.seq, d)
      let c1 := { c with lost := c.lost || lost, seq := t.1, cipher := if lost then 0 else c.cipher,
                         slot := if lost then 0 else c.slot, gen := if lost then 0 else c.gen, data := if lost then 0 else c.data }
      let d0 := fdpCount 0 1 0 { t.2 with med := { t.2.med with staged := tabDel d.med.staged (uk m.source k) } }
      let d1 := rowReady m.target q (sbPlace m.target c1 d0)
      let same := match tabGet d1.med.mapu.map key with
        | some (.media _ s j) => decide (s = m.source) && decide (j = k)
        | _ => false
      let ent : MapEnt := if c1.lost then .lost c.seq else .media c.seq m.target q
      let d2 := if same then
          jput (if c1.lost then jrLost nsid lba else jrUnit d1 nsid lba m.target q c.seq)
            { d1 with med := { d1.med with mapu := { d1.med.mapu with map := tabPut d1.med.mapu.map key ent } } }
        else d1
      let left := m.units.filter (fun u => decide (u.1 ≠ key))
      let moves := d2.med.moves.filterMap (fun x =>
        if x.gc && decide (x.source = m.source) then (if left.isEmpty then none else some { x with units := left }) else some x)
      let d3 := { d2 with med := { d2.med with moves := moves } }
      if left.isEmpty then
        doomCheck (doom m.source { (fdpEvent 0x80 ((sbGet d3 m.source).map (fun s => s.pack) |>.getD 0) 0 nsid 0 d3) with hw := md d3.hw R.MAPU_GC_STAT (fun w => putFld w 0 16 (fld w 0 16 - 1)) })
      else d3

end Sys2Proof.Machine
end

