-- ==== Sys2Proof/Machine/Mapu.lean ====
section
/-!
DEFINITION. The host-held map unit: sealed segments, the version counter, the segment cache, rekeying and rebuilds
(R275–R285, R301, R309).
-/

namespace Sys2Proof.Machine

/-- MAPU_STAT (Table 9.10). -/
def mapuStat (d : Dev) : Word :=
  let u := d.med.mapu
  let ok : Nat → Bool := fun p => match tabGet d.host.ports p with | some x => decide (x.hmb = .serving) | none => false
  BitVec.ofNat 32 (u.st * 268435456 + u.gen % 2 * 134217728 + (if ok 1 then 67108864 else 0) + (if ok 0 then 33554432 else 0)
    + min 0xFFFF u.rebuild.length)


/-- Generation that a seal is made under: g + 1 from the moment a rekey is accepted (R283). -/
def sealGen (u : Mapu) : Nat := if u.sweeping then u.gen + 1 else u.gen

/-- The counter value at which MAPU saturates (R278). -/
def verMax : Nat := 281474976710655

/-- The IV of a seal: segment number and version, 48 bits big-endian each (R276). -/
def sealIv (seg version : Nat) : BitVec 96 := BitVec.ofNat 96 (seg * 281474976710656 + version)

/-- The AAD of a seal: NSID, segment index within the namespace and generation, little-endian (R276). -/
def sealAad (d : Dev) (seg gen : Nat) : List Byte :=
  match d.ten.namespaces.find? (fun q => !q.2.zoned && decide (segOf d q.1 0 ≤ seg) && decide (seg < segOf d q.1 0 + (q.2.nsze + 511) / 512)) with
  | some q => leBytes 4 q.1 ++ leBytes 8 (seg - segOf d q.1 0) ++ leBytes 4 gen
  | none => leBytes 16 0

/-- A segment sealed under a version value and the map key of its generation: the entries as they lie in host memory, and the tag (R276). -/
def sealOf (d : Dev) (seg version : Nat) : Seal :=
  let g := sealGen d.med.mapu
  let key := d.sec.mapKey.getD 0#256
  let ct := Config.gcmCrypt key (sealIv seg version) (segBody d seg).bytes
  { version := version, gen := g, tag := Config.gcmTag key (sealIv seg version) (sealAad d seg g) ct, image := ct, bad := false }

/-- The version-table entry of a sealed segment: bit 48 is g mod 2 (R276). -/
def versionEntry (s : Seal) : Nat := s.version + s.gen % 2 * 281474976710656

/-- Sealing a segment under the next version value (R276, R278). When the next value would be 2^48 − 1 MAPU seals nothing and
enters EXHAUSTED (R282). VER_WARN is set once per generation as the counter passes its warning point (R281). -/
def sealSeg (seg : Nat) (d : Dev) : Dev :=
  let u := d.med.mapu
  if u.st = 4 then d
  else if verMax ≤ u.version + 1 then
    { (mapuMod (fun x => { x with st := 4 }) d) with hw := irq d.hw irqMapu 3 }
  else
    let v := u.version + 1
    let warn := fld (rd d.hw R.MAPU_VER_WARN) 0 16 * 4294967296
    let w := decide (warn ≠ 0) && decide (warn < v) && !u.warned
    let u1 := { u with version := v, warned := u.warned || w,
                       seals := tabPut u.seals seg (sealOf d seg v) }
    { (mapuMod (fun _ => u1) d) with hw := irqIf d.hw w irqMapu 2 }

/-- Segments that the cache holds (R285): its size in MiB × 256. -/
def cacheCap (d : Dev) : Nat := d.med.layout.cacheMib * 256

/-- Evicting one segment when the cache is full: the oldest in clock order, which is the order of filling (log entry 119), sealed first when
dirty; while EXHAUSTED dirty segments stay pinned (R282, R285). -/
def cacheEvict (d : Dev) : Dev :=
  let u := d.med.mapu
  if u.cache.length < cacheCap d then d
  else match u.cache.find? (fun e => !e.2 || decide (u.st ≠ 4)) with
    | none => d
    | some e =>
      let d1 := if e.2 then sealSeg e.1 d else d
      if e.2 && decide (d1.med.mapu.st = 4) then d1
      else mapuMod (fun x => { x with cache := x.cache.filter (fun y => decide (y.1 ≠ e.1)) }) d1

/-- LINK_WIDTH_RESTORE: a completion or read request is queued for transmission, and a link in L0p returns to full width
(R48). -/
def widthRestore (p : Nat) (d : Dev) : Dev :=
  match tabGet d.host.ports p with
  | some x =>
    if x.link = .l0p then
      { d with hw := irq d.hw irqHostif (16 * p + 11)
               host := { d.host with ports := tabPut d.host.ports p { x with link := .l0, width := x.fullWidth } } }
    else d
  | none => d


/-- Home port of the namespace whose map holds a segment (R63, R275). -/
def segPort (d : Dev) (seg : Nat) : Option Nat :=
  (d.ten.namespaces.find? (fun q => !q.2.zoned && decide (tabGetD d.med.mapu.segBase q.1 0 ≤ seg)
    && decide (seg < tabGetD d.med.mapu.segBase q.1 0 + (q.2.nsze + 511) / 512))).map (fun q => q.2.homePort)

/-- Using a segment: a hit is counted; a miss is counted and the segment is fetched from the HMB, a read request of its home port that ends
L0p (R48), and verified under the key of its version entry, after an eviction where the cache is full (R279, R285). A write makes it
dirty; a dirty write during a sweep leaves it dirty (Table 9.3). -/
def segUse (seg : Nat) (dirty : Bool) (d : Dev) : Dev :=
  let hit := d.med.mapu.cache.any (fun e => decide (e.1 = seg))
  let a := if hit then R.MAPU_CACHE_HIT else R.MAPU_CACHE_MISS
  let d1 := { d with hw := md d.hw a (fun w => bumpFld w 0 32 1) }
  let d2 := if hit then d1 else match segPort d seg with
    | some p => widthRestore p (cacheEvict d1)
    | none => cacheEvict d1
  mapuMod (fun x =>
    let marked := x.cache.map (fun e => (e.1, e.2 || (dirty && decide (e.1 = seg))))
    { x with cache := (if hit then marked else x.cache ++ [(seg, dirty)]) }) d2

/-- Every segment of the conventional namespaces homed on a port, in order (R275). -/
def segsOfPort (d : Dev) (p : Nat) : List Nat :=
  (d.ten.namespaces.filter (fun q => !q.2.zoned && decide (q.2.homePort = p))).flatMap (fun q =>
    (List.range ((q.2.nsze + 511) / 512)).map (fun i => tabGetD d.med.mapu.segBase q.1 0 + i))

/-- Bytes of HMB that a port's segments need. -/
def segBytes (d : Dev) (p : Nat) : Nat := (segsOfPort d p).length * 4096

/-- A map key for generation `g` (R277): drawn from the DRBG, or derived from the device key and the boot count on a part
without a vault. -/
def mapKeyMake (g : Nat) (d : Dev) : BitVec 256 × Dev :=
  if hasCrypto d.fuse then
    ((Config.drbg d.sec.drbgDraws).setWidth 256, { d with sec := { d.sec with drbgDraws := d.sec.drbgDraws + 1 } })
  else (Config.deviceMapKey (d.hw.bootCount.toNat * 4294967296 + g), d)

/-- A write of MAPU_CTRL.EN: 1 starts MAPU with a fresh map key of generation 0 and version 0; 0 stops it (R277,
Table 9.9). -/
def mapuEnable (en : Bool) (d : Dev) : Dev :=
  let on := bit (rd d.hw R.MAPU_CTRL) 0
  if en && !on then
    let k := mapKeyMake 0 d
    let d1 := { k.2 with sec := { k.2.sec with mapKey := some k.1, oldMapKey := none }
                         hw := md k.2.hw R.MAPU_CTRL (fun w => setBit w 0) }
    mapuMod (fun x => { x with gen := 0, version := 0, warned := false, sweep := [], sweeping := false, seals := [], cache := [],
                               st := if d.med.recovered then 2 else 1 }) d1
  else if !en && on then
    mapuMod (fun x => { x with st := 0 }) { d with hw := md d.hw R.MAPU_CTRL (fun w => clrBit w 0) }
  else d

/-- A write of MAPU_CTRL.REKEY: key g + 1 is made, the counter restarts at 1, and every segment of the ports whose HMB serves
joins the sweep; REKEY wins over saturation, and a write during a sweep, or while MAPU is not running, is ignored (R283,
R284). -/
def mapuRekey (d : Dev) : Dev :=
  let u := d.med.mapu
  if u.sweeping || !bit (rd d.hw R.MAPU_CTRL) 0 || !(u.st == 2 || u.st == 4) then d
  else
    let k := mapKeyMake (u.gen + 1) d
    let ports := [0, 1].filter (fun p => match tabGet d.host.ports p with | some x => decide (x.hmb = .serving) | none => false)
    let segs := ports.flatMap (fun p => segsOfPort d p)
    let d1 := { k.2 with sec := { k.2.sec with mapKey := some k.1, oldMapKey := k.2.sec.mapKey }
                         hw := wr k.2.hw R.MAPU_REKEY_LEFT (BitVec.ofNat 32 (min 0xFFFFFFFF segs.length)) }
    mapuMod (fun x => { x with version := 0, warned := false, sweep := segs, sweeping := true, st := 3 }) d1

/-- The sweep ends: the remaining segments are sealed under g + 1, but for dirty cached ones, whose seal is discarded; key g
is zeroised, g becomes g + 1 and REKEY_DONE is set (R283, R284). -/
def rekeyEnd (d : Dev) : Dev :=
  if !d.med.mapu.sweeping then d
  else
    let dirty := fun s => d.med.mapu.cache.any (fun e => decide (e.1 = s) && e.2)
    let d1 := d.med.mapu.sweep.foldl (fun x s => if dirty s then x else sealSeg s x) d
    let d2 := mapuMod (fun x => { x with sweep := [], sweeping := false, gen := x.gen + 1,
                                         st := if x.st = 4 then 4 else 2 }) d1
    { d2 with sec := { d2.sec with oldMapKey := none }
              hw := irq (wr d2.hw R.MAPU_REKEY_LEFT 0#32) irqMapu 4 }

/-- A segment waits for its rebuild: its seal is bad, it leaves the cache, and reads that need it wait with it (R280, R298). -/
def segWait (seg : Nat) (d : Dev) : Dev :=
  let needs : Run → Bool := fun r => decide (r.st = .queued) && decide (segOf d r.nsid r.lba = seg)
    && (match tabGet d.ten.namespaces r.nsid with | some n => !n.zoned | none => false)
  let runs := d.fl.runs.map (fun q => if needs q.2 then (q.1, { q.2 with st := .segment }) else q)
  let dies := d.fl.dies.map (fun q => (q.1, { q.2 with rq := q.2.rq.filter (fun r =>
    match tabGet d.fl.runs r with | some x => !needs x | none => true) }))
  let d1 := { d with fl := { d.fl with runs := runs, dies := dies } }
  mapuMod (fun x => { x with rebuild := if x.rebuild.contains seg then x.rebuild else x.rebuild ++ [seg]
                             seals := tabMod x.seals seg { version := 0, gen := 0, tag := 0#128, image := [], bad := true } (fun s => { s with bad := true })
                             cache := x.cache.filter (fun e => decide (e.1 ≠ seg)) }) d1

/-- A segment fails verification or fetch: TAG_FAIL, the count, the last-failure register, the event, and its rebuild waits;
reads that need it wait with it (R280). -/
def segFail (seg : Nat) (d : Dev) : Dev :=
  let h := wr (md d.hw R.MAPU_TAGFAIL (fun w => bumpFld w 0 32 1)) R.MAPU_LASTFAIL (BitVec.ofNat 32 seg)
  segWait seg { d with hw := evUnit (irq h irqMapu 0) 14 0x060 2 seg (seg / 4294967296) 0 }

/-- The rebuild of a segment ends: it is sealed under a new version, in a sweep under g + 1, and written to the HMB;
SEG_REBUILT is set (R280, Table 9.3). The reads that waited are answered in the list of runs to queue again. -/
def segRebuilt (seg : Nat) (d : Dev) : List Nat × Dev :=
  if !d.med.mapu.rebuild.contains seg then ([], d)
  else
    let d1 := sealSeg seg (mapuMod (fun x => { x with rebuild := x.rebuild.filter (fun s => decide (s ≠ seg)) }) d)
    let d2 := { d1 with hw := irq d1.hw irqMapu 1 }
    (d.fl.runs.filterMap (fun q =>
      if q.2.st = .segment ∧ segOf d q.2.nsid q.2.lba = seg then some q.1 else none), d2)

/-- The rebuild of a port's HMB content ends: every segment is sealed and written, and its namespaces serve I/O (R301). -/
def hmbRebuilt (p : Nat) (d : Dev) : Dev :=
  match tabGet d.host.ports p with
  | some x =>
    if x.hmb = .rebuilding ∧ d.med.recovered then
      let d1 := (segsOfPort d p).foldl (fun y s => sealSeg s y) d
      { d1 with host := { d1.host with ports := tabPut d1.host.ports p { x with hmb := .serving } } }
    else d
  | none => d

/-- SEQ of a map entry. -/
def entSeq (e : MapEnt) : Nat := match e with | .unmapped s => s | .media s _ _ => s | .lost s => s

/-- A conventional map entry set. -/
def mapSet (nsid lba : Nat) (e : MapEnt) (d : Dev) : Dev :=
  mapuMod (fun x => { x with map := tabPut x.map (mk nsid lba) e }) (segUse (segOf d nsid lba) true d)


/-- A range set UNMAPPED under a SEQ value, but for entries of a higher SEQ, with its UNMAP record (R274, R303). -/
def unmapAt (nsid lba n seq : Nat) (secure : Bool) (d : Dev) : Dev :=
  jput (jrUnmap nsid lba n seq secure) ((List.range n).foldl (fun x i =>
    if entSeq (mapAt x nsid (lba + i)) ≤ seq then mapSet nsid (lba + i) (.unmapped seq) x else x) d)

end Sys2Proof.Machine
end

