-- ==== Sys2Proof/Machine/Zones.lean ====
section
/-!
DEFINITION. Zones: states and transitions (R87–R89), superblock binding (R83–R85), partial rows and parking (R93–R95), reset and
secure erasure (R107–R114, R303–R306), and where the current copy of an LBA lies (R91, R95, R102, R268, R273).
-/

namespace Sys2Proof.Machine


/-- A zone's record. -/
def zoneGet (d : Dev) (zk : Nat) : Zone := tabGetD d.ten.zones zk Zone.init

/-- The device with a zone's record replaced. -/
def zonePut (d : Dev) (zk : Nat) (z : Zone) : Dev := { d with ten := { d.ten with zones := tabPut d.ten.zones zk z } }



/-- Pack of a zone (R85); the wide stripe counts as Pack 0. -/
def zonePack (d : Dev) (n : Ns) (z : Nat) : Nat := if n.width = 48 then 0 else z * packCount d.fuse / zoneCount n

/-- First LBA of a zone. -/
def zslba (n : Ns) (z : Nat) : Nat := z * n.zsze

/-- The opened states. -/
def isOpen (s : ZSt) : Bool := decide (s = .impOpen) || decide (s = .expOpen)

/-- The active states (R87). -/
def isActive (s : ZSt) : Bool := isOpen s || decide (s = .closed)

/-- Zones of a namespace. -/
def nsZones (d : Dev) (nsid : Nat) : List (Nat × Zone) := d.ten.zones.filter (fun q => decide (q.1 / 1048576 = nsid))

/-- Open zones of a namespace. -/
def openCount (d : Dev) (nsid : Nat) : Nat := ((nsZones d nsid).filter (fun q => isOpen q.2.st)).length

/-- Active zones of a namespace. -/
def activeCount (d : Dev) (nsid : Nat) : Nat := ((nsZones d nsid).filter (fun q => isActive q.2.st)).length

/-- Active zones of the device. -/
def activeAll (d : Dev) : Nat := (d.ten.zones.filter (fun q => isActive q.2.st)).length

/-- FLAGS of a zone table entry (Table 9.1). -/
def zoneFlags (z : Zone) : Nat :=
  (if z.fzr then 1 else 0) + (if z.zfc then 2 else 0) + (if z.secure.isSome then 4 else 0) + (if z.moving.isSome then 8 else 0)

/-- A zone changed, with its ZONE_STATE record (R269). -/
def zoneSet (zk : Nat) (z : Zone) (d : Dev) : Dev :=
  match nsGet d (zk / 1048576) with
  | some n => jput (jrState (zk / 1048576) (zslba n (zk % 1048576)) z.wp z.st.code (zoneFlags z) z.handle) (zonePut d zk z)
  | none => d

/-! Binding (R83, R84). -/

/-- A zone enters Empty with a superblock of its Pack, or Read Only when none has m_min members or its namespace is latched read-only
(R83, R84, R330). -/
def zoneBind (zk : Nat) (d : Dev) : Dev :=
  match nsGet d (zk / 1048576) with
  | none => d
  | some n =>
    let z := zk % 1048576
    let old := zoneGet d zk
    let base := { Zone.init with sb := 0, zcap := 0 }
    match sbOpen 1 (zk / 1048576) 0 (zonePack d n z) n.width (zslba n z) 0 0 d with
    | none => zoneSet zk { base with st := .readOnly, zcap := old.zcap } d
    | some (id, d1) =>
      let cap := match sbGet d1 id with | some s => s.zcap | none => 0
      let latched := match nsGet d1 (zk / 1048576) with | some x => x.readOnly | none => false
      zoneSet zk { base with sb := id, zcap := cap, st := if latched then .readOnly else .empty }
        (jput (jrBind (zk / 1048576) (zslba n z) id cap) d1)

/-! Current copies (R91, R95, R102, R225, R268, R272, R273). -/

/-- Where an LBA's data comes from. -/
inductive Source where
  | zeros
  /-- Data in DRAM. -/
  | dram (c : Copy)
  /-- A unit on flash: superblock, position, copy. -/
  | flash (sb k : Nat) (c : Copy)
  /-- A LOST codeword (R225). -/
  | lost (sb k : Nat)
  /-- Admitted data that no completion has promised and that is not in DRAM yet. -/
  | pending
  deriving DecidableEq, Repr

/-- A unit of a superblock, from DRAM or flash. -/
def unitAt (d : Dev) (sb k : Nat) : Source :=
  match tabGet d.med.staged (uk sb k) with
  | some c => if c.pad then .zeros else if c.lost then .lost sb k else .dram c
  | none => match tabGet d.med.copies (uk sb k) with
    | some c => if c.pad then .zeros else if c.lost then .lost sb k else .flash sb k c
    | none => .pending

/-- The parked copy of an LBA that was written last, with its superblock and position (R95). -/
def parkedAt (d : Dev) (nsid lba : Nat) : Option (Nat × Copy) :=
  ((d.med.copies ++ d.med.staged).filter (fun q => q.2.parked && !q.2.pad && decide (q.2.nsid = nsid) && decide (q.2.lba = lba))).foldl
    (fun b q => match b with
      | none => some q
      | some p => if p.2.seq < q.2.seq then some q else some p) none

/-- The current copy of a zoned LBA: zeros at or beyond the write pointer, beyond ZCAP, and during a secure reset; else the
superblock that the zone table names, a move's target for what is only there, or the park pages (R91, R95, R102, R111). -/
def zonedAt (d : Dev) (nsid : Nat) (n : Ns) (lba : Nat) : Source :=
  let zk := zkey nsid (lba / n.zsze)
  let z := zoneGet d zk
  let o := lba % n.zsze
  if z.secure.isSome || decide (z.wp ≤ o) || decide (z.zcap ≤ o) then .zeros
  else match unitAt d z.sb o with
    | .pending =>
      match (match z.moving with | some t => unitAt d t o | none => .pending) with
      | .pending => match parkedAt d nsid lba with
        | some q => unitAt d (q.1 / 4294967296) (q.1 % 4294967296)
        | none => .pending
      | x => x
    | x => x

/-- The newest unit of a conventional LBA that is in DRAM and not placed yet. -/
def looseAt (d : Dev) (nsid lba : Nat) : Option Copy :=
  ((d.med.loose.filter (fun q => decide (q.copy.nsid = nsid) && decide (q.copy.lba = lba))).getLast?).map (fun q => q.copy)

/-- What a map entry names. -/
def mapSource (d : Dev) (e : MapEnt) : Source :=
  match e with
  | .unmapped _ => .zeros
  | .lost _ => .lost 0 0
  | .media _ sb k => unitAt d sb k

/-- The current copy of a conventional LBA, by the staging index and the map entry; a key generation that was erased is not
current (R266, R272, R273). -/
def convAt (d : Dev) (nsid lba : Nat) : Source :=
  match looseAt d nsid lba with
  | some c => if entSeq (mapAt d nsid lba) < c.seq then .dram c else mapSource d (mapAt d nsid lba)
  | none => mapSource d (mapAt d nsid lba)

/-- The current copy of an LBA. -/
def lbaAt (d : Dev) (nsid lba : Nat) : Source :=
  match nsGet d nsid with
  | none => .zeros
  | some n => if n.zoned then zonedAt d nsid n lba else convAt d nsid lba

/-! Parking (R93–R95). -/

/-- The superblock that takes a zone's writes: a move's target while one runs (R322). -/
def zoneSb (z : Zone) : Nat := match z.moving with | some t => t | none => z.sb

/-- Zone offset of the first unit of the zone's partial row. -/
def partialFrom (d : Dev) (z : Zone) : Nat :=
  match sbGet d (zoneSb z) with
  | some s => if rowData d s = 0 then 0 else z.wp / rowData d s * rowData d s
  | none => 0

/-- Key of a superblock's die set among the open park superblocks. -/
def parkKey (s : Sb) : Nat := s.width * 65536 + s.dieSet

/-- The open park superblock of a superblock's die set, opened in that set's reserve where there is none (R94). -/
def parkTarget (s : Sb) (d : Dev) : Option (Nat × Dev) :=
  match tabGet d.med.parkSb (parkKey s) with
  | some t => some (t, d)
  | none => (setOf d s).bind (fun set => (sbOpenIn 3 0 0 s.pack s.width 0 0 0 set d).map (fun r =>
      (r.1, { r.2 with med := { r.2.med with parkSb := tabPut r.2.med.parkSb (parkKey s) r.1 } })))

/-- A park superblock whose last unit is placed is open no longer. -/
def parkShut (s : Sb) (id : Nat) (d : Dev) : Dev :=
  let full := match sbGet d id with | some t => decide (sbUnits d t ≤ t.nextK) | none => true
  if full then { d with med := { d.med with parkSb := tabDel d.med.parkSb (parkKey s) } } else d

/-- Units of DRAM placed in the park superblocks of a die set, in order, while one can be opened; answers how many. -/
def parkPlace (s : Sb) : List Copy → Dev → Nat × Dev
  | [], d => (0, d)
  | c :: cs, d =>
    match parkTarget s d with
    | none => (0, d)
    | some (id, d1) =>
      let k := sbNextK d1 id
      let r := parkPlace s cs (parkShut s id (rowReady id k (sbPlace id { c with parked := true } d1)))
      (r.1 + 1, r.2)

/-- Padding a park superblock to the end of its row, so that its programs start (R94). -/
def parkPad (id : Nat) : Nat → Dev → Dev
  | 0, d => d
  | f + 1, d =>
    match sbGet d id with
    | none => d
    | some s =>
      if rowData d s = 0 ∨ s.nextK % rowData d s = 0 then d
      else
        let c : Copy := { nsid := 0, lba := s.nextK, seq := 0, kennel := 0, cipher := 0, slot := 0, gen := 0, lost := false,
                          pad := true, parked := true, refresh := false, data := 0 }
        parkPad id f (rowReady id s.nextK (sbPlace id c d))

/-- The open park superblock of a die set padded to its row's end, so that the row's programs start (R94). -/
def parkClose (s : Sb) (d : Dev) : Dev :=
  match tabGet d.med.parkSb (parkKey s) with
  | some id => parkShut s id (parkPad id 4096 d)
  | none => d

/-- Units of a superblock in DRAM that follow one another from position `lo`, at most `n`. -/
def parkRun (d : Dev) (sb lo n : Nat) : List Copy :=
  (((List.range n).map (fun i => tabGet d.med.staged (uk sb (lo + i)))).takeWhile (fun c => match c with
    | some c => !c.pad | none => false)).filterMap id

/-- A park superblock without live parked data is erased (R94, R286). -/
def parkSweep (d : Dev) : Dev :=
  let dead := d.med.sbs.filter (fun q => decide (q.2.type = 3)
    && d.med.parkSb.all (fun e => decide (e.2 ≠ q.1))
    && d.med.copies.all (fun c => decide (c.1 / 4294967296 ≠ q.1) || c.2.pad)
    && d.med.staged.all (fun c => decide (c.1 / 4294967296 ≠ q.1) || c.2.pad))
  dead.foldl (fun x q => sbErase q.1 x) d

/-- Live parked units of other owners on a park superblock move to another park superblock of its die set before its erasure (R110). -/
def parkRelocate (id nsid lo n : Nat) (d : Dev) : Dev :=
  match sbGet d id with
  | none => d
  | some s =>
    let live := ((d.med.copies ++ d.med.staged).filter (fun q => decide (q.1 / 4294967296 = id) && !q.2.pad
      && !(decide (q.2.nsid = nsid) && decide (lo ≤ q.2.lba) && decide (q.2.lba < lo + n))))
    if live.isEmpty then d
    else
      let r := parkPlace s (live.map (fun q => q.2)) d
      let gone := (live.take r.1).map (fun q => q.1)
      parkClose s { r.2 with med := { r.2.med with copies := r.2.med.copies.filter (fun q => !gone.contains q.1),
                                                   staged := r.2.med.staged.filter (fun q => !gone.contains q.1) } }

/-- Codewords with live data on a park superblock. -/
def parkLive (d : Dev) (id : Nat) : Nat :=
  ((d.med.copies ++ d.med.staged).filter (fun q => decide (q.1 / 4294967296 = id) && !q.2.pad)).length

/-- While the park superblocks of a Pack take more than half the park area, the closed one with the least live data is collected: its live
data is parked again and it is erased (R286). The park area's size is a free value (log entry 120). -/
def parkCollect (pack : Nat) (d : Dev) : Dev :=
  let all := d.med.sbs.filter (fun q => decide (q.2.type = 3) && decide (q.2.pack = pack))
  if all.length * 2 ≤ Config.parkArea then d
  else
    let cand := all.filter (fun q => d.med.parkSb.all (fun e => decide (e.2 ≠ q.1)))
    let best := cand.foldl (fun (b : Option (Nat × Nat)) q =>
      match b with
      | none => some (q.1, parkLive d q.1)
      | some (_, m) => if parkLive d q.1 < m then some (q.1, parkLive d q.1) else b) none
    match best with
    | none => d
    | some (id, _) => parkSweep (parkRelocate id 0 0 0 d)

/-- Parking a zone's partial row: its staged units, from the first that is not parked, are programmed into SLC park pages of the die set's
reserve, with parity (R94). -/
def parkZone (zk : Nat) (d : Dev) : Dev :=
  let z := zoneGet d zk
  match sbGet d (zoneSb z) with
  | none => d
  | some s =>
    let lo := max (partialFrom d z) z.parkedTo
    let units := parkRun d (zoneSb z) lo (z.wp - lo)
    if units.isEmpty then d
    else
      let r := parkPlace s units d
      if r.1 = 0 then d
      else
        let d2 := parkClose s r.2
        parkCollect s.pack (zonePut d2 zk { zoneGet d2 zk with parkedTo := lo + r.1 })

/-- Zones with data in a partial row, oldest last write first. -/
def parkOrder (d : Dev) : List Nat :=
  let cand := d.ten.zones.filter (fun q => isActive q.2.st && decide (max (partialFrom d q.2) q.2.parkedTo < q.2.wp))
  (cand.mergeSort (fun a b => decide (a.2.lastWrite.toNat ≤ b.2.lastWrite.toNat))).map (fun q => q.1)

/-- Rows are parked in order of oldest last write while the dirty count, less what has just been parked, stands at the park threshold
(R93). -/
def parkIfDirty (d : Dev) : Dev :=
  let limit := limitKib d * d.med.layout.parkPct / 100
  (parkOrder d).foldl (fun (b : Nat × Dev) zk =>
    if limit ≤ b.1 then
      let x := parkZone zk b.2
      (b.1 - 4 * ((zoneGet x zk).parkedTo - max (partialFrom b.2 (zoneGet b.2 zk)) (zoneGet b.2 zk).parkedTo), x)
    else b) (dirtyKib d, d) |>.2

/-! Transitions (R88, Table 3.4). -/

/-- Close: the partial row is parked; Empty when nothing has been written (Table 3.4). -/
def zoneClose (zk : Nat) (d : Dev) : Dev :=
  let z := zoneGet d zk
  if z.wp = 0 then zoneSet zk { z with st := .empty } d
  else
    let d1 := zoneSet zk { z with st := .closed } d
    parkZone zk d1

/-- Pad codewords to the end of the current row of the zone's superblock (Table 3.4, R249). -/
def zonePad (zk sb : Nat) : Nat → Nat → Dev → Dev
  | 0, _, d => d
  | f + 1, k, d =>
    match sbGet d sb, nsGet d (zk / 1048576) with
    | some s, some n =>
      if rowData d s = 0 ∨ k % rowData d s = 0 then d
      else
        let q := seqTake d
        let c : Copy := { nsid := zk / 1048576, lba := zslba n (zk % 1048576) + k, seq := q.1, kennel := 0, cipher := 0,
                          slot := 0, gen := 0, lost := false, pad := true, parked := false, refresh := false,
                          data := 0 }
        let d1 := { q.2 with med := { q.2.med with staged := tabPut q.2.med.staged (uk sb k) c } }
        zonePad zk sb f (k + 1) (rowReady sb k d1)
    | _, _ => d

/-- A zone's superblock is given up before it is written to capacity: the FDP event (Table 3.5). -/
def fdpShort (zk : Nat) (d : Dev) : Dev :=
  let z := zoneGet d zk
  match nsGet d (zk / 1048576) with
  | some n => if z.wp < z.zcap ∧ 0 < z.wp then fdpEvent 0 (zonePack d n (zk % 1048576)) z.handle (zk / 1048576) (z.zcap - z.wp) d else d
  | none => d

/-- Finish: the rest of the row is padded, its parity follows, and the zone is Full (Table 3.4). -/
def zoneFinish (zk : Nat) (forced : Bool) (d : Dev) : Dev :=
  let z := zoneGet d zk
  let d1 := zoneSet zk { z with st := .full, fullByWp := false, zfc := z.zfc || forced } (if forced then d else fdpShort zk d)
  zonePad zk (zoneSb z) 65536 z.wp d1

/-- The states from which each action is allowed (Table 3.4). -/
def zoneAllows (a : ZAct) (s : ZSt) : Bool :=
  match a with
  | .open_ => decide (s = .empty) || decide (s = .impOpen) || decide (s = .closed)
  | .close => isOpen s
  | .finish => decide (s = .empty) || isActive s
  | .reset => decide (s = .full) || isActive s || decide (s = .empty)
  | .offline => decide (s = .readOnly)

/-- The zone leaves the refresh queue (Table 10.2). -/
def unqueueSb (sb : Nat) (d : Dev) : Dev :=
  let q := d.aff.queue.filter (fun e => decide ((tabGetD d.med.blks e.blk Blk.init).sb ≠ sb))
  { d with aff := { d.aff with queue := q }, hw := wr d.hw R.AFFINEUR_BACKLOG (BitVec.ofNat 32 q.length) }

/-- Abandoning a move in progress: MOVING clears and the target's blocks are erased (R107, R270). -/
def moveAbandon (zk : Nat) (d : Dev) : Dev :=
  let z := zoneGet d zk
  match z.moving with
  | none => d
  | some t =>
    let d1 := zonePut d zk { z with moving := none }
    sbErase t { d1 with med := { d1.med with moves := d1.med.moves.filter (fun m => decide (m.zone ≠ some zk)) } }


/-- Park superblocks that hold a codeword of a range of a namespace, live or stale (R110). -/
def parkSbs (d : Dev) (nsid lo n : Nat) : List Nat :=
  (d.med.sbs.filter (fun q => decide (q.2.type = 3) && q.2.owners.any (fun k => decide (mk nsid lo ≤ k) && decide (k < mk nsid lo + n)))).map
    (fun q => q.1)

/-- Parked codewords of a range, programmed or still in DRAM, are live no longer. -/
def parkDrop (nsid lo n : Nat) (d : Dev) : Dev :=
  let keep : Nat × Copy → Bool := fun q =>
    !(q.2.parked && decide (q.2.nsid = nsid) && decide (lo ≤ q.2.lba) && decide (q.2.lba < lo + n))
  { d with med := { d.med with copies := d.med.copies.filter keep, staged := d.med.staged.filter keep } }


/-- A normal reset: the zone is Empty with a new superblock; its old superblock and parked copies are erased in the background
(R108). A move in progress is abandoned, and the zone leaves the refresh queue (R107, Table 10.2). -/
def zoneReset (zk : Nat) (d : Dev) : Dev :=
  let z := zoneGet d zk
  match nsGet d (zk / 1048576) with
  | none => d
  | some n =>
    if z.st = .empty then d
    else
      let d1 := unqueueSb z.sb (moveAbandon zk (if z.st = .full then d else fdpShort zk d))
      let q := seqTake d1
      let d2 := jput (jrReset (zk / 1048576) (zslba n (zk % 1048576)) q.1 false) q.2
      let d3 := zoneBind zk (parkDrop (zk / 1048576) (zslba n (zk % 1048576)) n.zsze d2)
      let stagedOff := d3.med.staged.filter (fun e => decide (e.1 / 4294967296 = z.sb))
      let dirty := stagedOff.filter (fun e => !e.2.pad && !e.2.refresh)
      let d4 := dirtySub dirty.length { d3 with med := { d3.med with
        staged := d3.med.staged.filter (fun e => decide (e.1 / 4294967296 ≠ z.sb)) } }
      parkSweep (doomCheck (doom z.sb d4))

/-! Secure erasure (R110–R114, R303–R306). -/


/-- Live units of other LBAs leave a conventional superblock before a discard erases it (R304): each is placed in the Pack's
garbage-collection target and its map entry switched. -/
def evacuate (id : Nat) (d : Dev) : Dev :=
  match sbGet d id with
  | none => d
  | some s =>
    (liveUnits d id).foldl (fun x u =>
      match gcTarget s.pack s.width s.nsid id x with
      | none => x
      | some (t, x1) =>
        let c := match tabGet x1.med.copies (uk id u.2) with
          | some c => some { c with refresh := true }
          | none => tabGet x1.med.staged (uk id u.2)
        match c with
        | none => x1
        | some c =>
          let k := sbNextK x1 t
          let x0 := { x1 with med := { x1.med with staged := tabDel x1.med.staged (uk id u.2) } }
          let x2 := rowReady t k (sbPlace t c x0)
          jput (jrUnit x2 c.nsid c.lba t k c.seq)
            { x2 with med := { x2.med with mapu := { x2.med.mapu with map := tabPut x2.med.mapu.map u.1 (.media c.seq t k) } } }) d

/-- NSID and ZSLBA of a block's descriptor (Table 8.3). -/
def descZone (b : Blk) : Nat × Nat := (leNat ((b.desc.drop 24).take 4), leNat ((b.desc.drop 56).take 8))

/-- Blocks already queued for their erase that may hold copies a secure operation covers: old superblocks of the zone, park blocks of the
Pack, and for a discard the conventional blocks of the Pack. Their erases are verified and awaited too (R110, R304). -/
def secErasing (d : Dev) (o : SecOp) : List (Nat × Nat) :=
  (d.med.blks.filter (fun q => decide (q.2.st = .erasing)
    && ((decide (q.2.type = 3) && (o.wide || decide (packOf (q.1 / 4096) = o.pack)))
      || (o.zone.isSome && decide (q.2.type = 1) && decide (descZone q.2 = (o.nsid, o.lba)))
      || (o.zone.isNone && decide (q.2.type = 2) && (o.wide || decide (packOf (q.1 / 4096) = o.pack)))))).map
    (fun q => (q.1 / 4096, q.1 % 4096))

/-- Superblocks that a secure operation erases: of a zone, every one with a copy of it, stale copies, a move's target and park superblocks
included (R110); of a discard, its affected set (R304). -/
def secSbs (d : Dev) (o : SecOp) : List Nat :=
  if o.zone.isSome then
    (d.med.sbs.filter (fun q => decide (q.2.type = 1) && decide (q.2.nsid = o.nsid) && decide (q.2.zslba = o.lba))).map (fun q => q.1)
      ++ parkSbs d o.nsid o.lba o.n
  else o.sbs

/-- A superblock about to be erased securely takes no more units, and its collection ends. -/
def secDetach (id : Nat) (d : Dev) : Dev :=
  let mine : Move → Bool := fun m => m.gc && (decide (m.source = id) || decide (m.target = id))
  let n := (d.med.moves.filter mine).length
  { d with
    med := { d.med with doomed := d.med.doomed.filter (fun x => decide (x.sb ≠ id)), moves := d.med.moves.filter (fun m => !mine m),
                        openSb := d.med.openSb.filter (fun e => decide (e.2 ≠ id)), parkSb := d.med.parkSb.filter (fun e => decide (e.2 ≠ id)) }
    hw := if n = 0 then d.hw else md d.hw R.MAPU_GC_STAT (fun w => putFld w 0 16 (fld w 0 16 - n)) }

/-- Live data of others is still on a superblock: it found no place elsewhere yet. -/
def secHolds (d : Dev) (o : SecOp) (id : Nat) (s : Sb) : Bool :=
  if s.type = 3 then (d.med.copies ++ d.med.staged).any (fun q => decide (q.1 / 4294967296 = id) && !q.2.pad
    && !(decide (q.2.nsid = o.nsid) && decide (o.lba ≤ q.2.lba) && decide (q.2.lba < o.lba + o.n)))
  else o.zone.isNone && !(liveUnits d id).isEmpty

/-- A secure operation at the head of its Pack begins, or goes on with what it could not clear before: live data is moved out, and every
block of its superblocks is queued for erase (R112, R304). -/
def secBegin (o : SecOp) (d : Dev) : SecOp × Dev :=
  let o0 := if o.started then o else { o with started := true, sbs := secSbs d o, blocks := secErasing d o }
  let r := o0.sbs.foldl (fun (b : List Nat × List (Nat × Nat) × Dev) id =>
    match sbGet b.2.2 id with
    | none => b
    | some s =>
      let d0 := secDetach id b.2.2
      let d1 := if s.type = 3 then parkRelocate id o.nsid o.lba o.n d0 else if o.zone.isSome then d0 else evacuate id d0
      if secHolds d1 o id s then (b.1 ++ [id], b.2.1, d1) else (b.1, b.2.1 ++ sbBlocks s, sbErase id d1)) ([], [], d)
  ({ o0 with sbs := r.1, blocks := o0.blocks ++ r.2.1 }, r.2.2)

/-- Two secure operations erase in a common Pack. -/
def secMeet (a b : SecOp) : Bool := a.wide || b.wide || decide (a.pack = b.pack)

/-- A Secure Discard admitted before a secure operation has not joined them yet (R305). -/
def secBehind (d : Dev) (o : SecOp) : Bool :=
  d.host.ops.any (fun q => decide (q.2.cmd.op = .secureDiscard) && decide (q.2.st = .admitted) && decide (q.1 < o.tags.headD 0))

/-- Starting every secure operation whose turn has come and which is the first of its Packs, in order of admission (R107, R112, R305). -/
def secAdvance (d : Dev) : Dev :=
  let r := d.med.secure.foldl (fun (b : List SecOp × Dev) o =>
    if b.1.any (fun e => secMeet e o) || !o.ready || secBehind d o || (o.started && o.sbs.isEmpty) then (b.1 ++ [o], b.2)
    else
      let q := secBegin o b.2
      (b.1 ++ [q.1], q.2)) ([], d)
  { r.2 with med := { r.2.med with secure := r.1 } }

/-- A secure operation takes its place in the order of admission, behind those that have started (R112, R305). -/
def secInsert (o : SecOp) : List SecOp → List SecOp
  | [] => [o]
  | x :: xs => if !x.started && decide (o.tags.headD 0 < x.tags.headD 0) then o :: x :: xs else x :: secInsert o xs

/-- Whether every block of a started secure operation has been erased, or retired with its die (R110, R114). -/
def secDone (d : Dev) (o : SecOp) : Bool :=
  o.started && o.sbs.isEmpty
    && o.blocks.all (fun q => decide ((blkGet d q.1 q.2).st ≠ .erasing) || decide ((dieGet d q.1).st = 5))

/-- The admission of a secure reset: from here on the zone keeps its reported state and reads as zeros; a further Reset joins; the erasure
takes its place among the Pack's secure operations (R110–R112). -/
def secureMark (zk tag : Nat) (d : Dev) : Dev :=
  let z := zoneGet d zk
  match z.secure with
  | some ts => zonePut d zk { z with secure := some (ts ++ [tag]) }
  | none =>
    match nsGet d (zk / 1048576) with
    | none => d
    | some n =>
      if z.st = .empty then d
      else
        let nsid := zk / 1048576
        let zs := zslba n (zk % 1048576)
        let q := seqTake (unqueueSb z.sb d)
        let d1 := zonePut (jput (jrReset nsid zs q.1 true) q.2) zk { z with secure := some [tag] }
        let o : SecOp := { tags := [tag], pack := zonePack d n (zk % 1048576), wide := decide (n.width = 48), nsid := nsid, zone := some zk,
                           lba := zs, n := n.zsze, seq := q.1, sbs := [], ready := false, started := false, blocks := [] }
        { d1 with med := { d1.med with secure := secInsert o d1.med.secure } }

/-- The commands of the zone admitted before a secure reset have completed: a move in progress is abandoned, and the erasure starts when
it is the first of its Pack (R107, R112). -/
def secureTurn (zk tag : Nat) (d : Dev) : Dev :=
  let d1 := zonePut d zk { zoneGet d zk with moving := none }
  secAdvance { d1 with med := { d1.med with
    secure := d1.med.secure.map (fun o => if decide (o.zone = some zk) && o.tags.contains tag then { o with ready := true } else o),
    moves := d1.med.moves.filter (fun m => decide (m.zone ≠ some zk)) } }

/-- The secure reset of a zone, marked at its admission or, where the mode was set since, here (R109–R112). -/
def secureReset (zk tag : Nat) (d : Dev) : Dev :=
  secureTurn zk tag (match (zoneGet d zk).secure with
    | some ts => if ts.contains tag then d else secureMark zk tag d
    | none => secureMark zk tag d)

end Sys2Proof.Machine
end

