-- ==== Sys2Proof/Machine/Herder.lean ====
section
/-!
DEFINITION. The HERDER's admission: Kennels, buckets, the checks of Tables 4.2 and of R90, completions and latency statistics
(R52, R53, R86, R89–R92, R98, R99, R115–R124, R140, R141), and the write path (R38, R39, R100, R101, R271).
-/

namespace Sys2Proof.Machine

/-! Kennels (R115–R122). -/

/-- A Kennel's record; Kennel 0 always exists (R115). -/
def kenGet (d : Dev) (k : Nat) : Option Kennel :=
  match tabGet d.ten.kennels k with
  | some x => some x
  | none => if k = 0 then some Kennel.zero else none

/-- A Kennel's record, as Kennel 0's where it is not defined. -/
def kenOf (d : Dev) (k : Nat) : Kennel := (kenGet d k).getD Kennel.zero

/-- The device with a Kennel's record replaced. -/
def kenPut (d : Dev) (k : Nat) (x : Kennel) : Dev := { d with ten := { d.ten with kennels := tabPut d.ten.kennels k x } }

/-- The highest Kennel ID defined (R429). -/
def topKennel (d : Dev) : Nat := d.ten.kennels.foldl (fun m q => max m q.1) 0

/-- Kennel of a function (R52). -/
def fnKennel (d : Dev) (port fn : Nat) : Nat := tabGetD d.ten.fnBind (port * 64 + fn) 0

/-- Capacity of the IOPS bucket, in 1/25,000,000 token (R122). -/
def iopsCap (x : Kennel) : Nat := max 1 (x.iops / 1000) * 25000000

/-- Capacity of the bandwidth bucket, in 1/25,000,000 byte (R122). -/
def bwCap (x : Kennel) : Nat := max (x.bw * 1048576 / 1000) 1048576 * 25000000

/-- Both buckets filled up to device time `t` (R122). -/
def kenFill (t : Nat) (x : Kennel) : Kennel :=
  { x with
    iopsB := { level := min (iopsCap x) (x.iopsB.level + x.iops * (t - x.iopsB.last)), last := t },
    bwB := { level := min (bwCap x) (x.bwB.level + x.bw * 1048576 * (t - x.bwB.last)), last := t } }

/-- Read deadline of a Kennel in ns (R120, Table 4.1). -/
def readDeadline (p : Profile) (x : Kennel) : Nat :=
  if x.override ≠ 0 then x.override * 1000
  else match x.cls with | 0 => p.tR + 140000 | 1 => 2000000 | 2 => 20000000 | _ => 1000000000

/-- Packs that a Kennel may place data in: its own when dedicated, else those that no dedicated Kennel owns (R117). -/
def kenPacks (d : Dev) (k : Nat) : List Nat :=
  let x := kenOf d k
  let owned := d.ten.kennels.filter (fun q => q.2.dedicated)
  (List.range (packCount d.fuse)).filter (fun p =>
    if x.dedicated then decide (x.packs / 2 ^ p % 2 = 1)
    else owned.all (fun q => decide (q.2.packs / 2 ^ p % 2 = 0)))

/-! Completions. -/


/-- A controller's record. -/
def ctrlGet (d : Dev) (p fn : Nat) : Ctrl := tabGetD d.host.ctrls (p * 64 + fn) Ctrl.init

/-- The device with a controller's record replaced. -/
def ctrlPut (d : Dev) (p fn : Nat) (c : Ctrl) : Dev :=
  { d with host := { d.host with ctrls := tabPut d.host.ctrls (p * 64 + fn) c } }

/-- Key of a queue: (port × 64 + function) × 65,536 + queue. -/
def queueKey (p fn q : Nat) : Nat := (p * 64 + fn) * 65536 + q

/-- Entries of a submission queue: of the admin queue by AQA (a 0-based field of the NVMe specifications), of an I/O queue as the host
created it (log entry 84). -/
def sqEntries (d : Dev) (p fn q : Nat) : Nat :=
  if q = 0 then fld (ctrlGet d p fn).aqa 0 12 + 1 else Config.queueEntries (queueKey p fn q)

/-- Entries of a completion queue. -/
def cqEntries (d : Dev) (p fn q : Nat) : Nat :=
  if q = 0 then fld (ctrlGet d p fn).aqa 16 12 + 1 else Config.queueEntries (queueKey p fn q)

/-- A completion entry with what HOSTIF fills in: the submission queue's head, the phase tag, which changes each time the queue wraps,
and the vector that it signals (R78). A completion queue has the number of its submission queue (log entry 82). -/
def cqeOf (d : Dev) (port fn q cid : Nat) (st : NvStat) (dw0 dw1 : Nat) (data : List Nat) : Cqe :=
  let n := tabGetD d.host.posted (queueKey port fn q) 0
  { port := port, fn := fn, sq := q, cq := q, vector := if q = 0 then 0 else Config.queueVector (queueKey port fn q)
    sqHead := tabGetD d.host.fetched (queueKey port fn q) 0 % max 1 (sqEntries d port fn q)
    phase := decide (n / max 1 (cqEntries d port fn q) % 2 = 0), cid := cid, status := st, dw0 := dw0, dw1 := dw1, data := data }

/-- A completion posted for a command. -/
def cqPost (port fn sq cid : Nat) (st : NvStat) (dw0 dw1 : Nat) (data : List Nat) (d : Dev) : Dev :=
  widthRestore port { d with host := { d.host with
    cq := d.host.cq ++ [cqeOf d port fn sq cid st dw0 dw1 data]
    posted := tabMod d.host.posted (queueKey port fn sq) 0 (fun n => n + 1) } }

/-- HOSTIF fetches a command from a submission queue. -/
def sqFetch (p fn q : Nat) (d : Dev) : Dev :=
  { d with host := { d.host with fetched := tabMod d.host.fetched (queueKey p fn q) 0 (fun n => n + 1) } }

/-- A completion of an admin command, which firmware posts through the completion item (R78). -/
def adminDone (c : Src) (st : NvStat) (dw0 : Nat) (data : List Nat) (d : Dev) : Dev :=
  cqPost c.port c.fn 0 c.cid st dw0 0 data d

/-- Bytes a command moves (R122). Verify and Secure Discard move none: the rule names neither (DESIGN CHOICE, log entry 97). -/
def moveBytes (c : IoCmd) : Nat :=
  match c.op with
  | .read | .write | .append => c.nlb * 4096
  | _ => 0

/-- Segments of the conventional namespaces homed on a port: HMPRE and HMMIN in 4 KiB units (R63). -/
def hmbNeed (d : Dev) (p : Nat) : Nat :=
  (d.ten.namespaces.map (fun q => if !q.2.zoned && decide (q.2.homePort = p) then (q.2.nsze + 511) / 512 else 0)).sum

/-- Dispatched commands to the conventional namespaces homed on a port. -/
def homeOps (d : Dev) (p : Nat) : Bool :=
  d.host.ops.any (fun q => q.2.dispatched && (match nsGet d q.2.cmd.nsid with
    | some n => !n.zoned && decide (n.homePort = p) | none => false))

/-- A Host Memory Buffer is disabled: the journal is committed, the cache's segments of the port go and leave a running sweep, access to the
buffer stops, and the Set Features completes (R65, R284, Table 9.3). -/
def hmbStop (c : Src) (d : Dev) : Dev :=
  let segs := segsOfPort d c.port
  let d1 := jComplete (jFlush (jComplete d))
  let d2 := mapuMod (fun u => { u with cache := u.cache.filter (fun e => !segs.contains e.1),
                                       seals := u.seals.filter (fun e => !segs.contains e.1),
                                       rebuild := u.rebuild.filter (fun s => !segs.contains s),
                                       sweep := u.sweep.filter (fun s => !segs.contains s) }) d1
  let d3 := match tabGet d2.host.ports c.port with
    | some x => { d2 with host := { d2.host with ports := tabPut d2.host.ports c.port { x with hmb := .off, hmbUnits := 0 } } }
    | none => d2
  let left := BitVec.ofNat 32 (min 0xFFFFFFFF d3.med.mapu.sweep.length)
  adminDone c .success 0 [] { d3 with hw := irq (wr d3.hw R.MAPU_REKEY_LEFT left) irqHostif (16 * c.port + 7) }

/-- The disabling commands whose port has no dispatched command left take effect, oldest first (R65). -/
def hmbSettle (d : Dev) : Dev :=
  (d.host.hmbWait.filter (fun c => !homeOps d c.port)).foldl (fun x c => hmbStop c x)
    { d with host := { d.host with hmbWait := d.host.hmbWait.filter (fun c => homeOps d c.port) } }

/-- Master ID of a host port (Table 1.10). -/
def portMaster (p : Nat) : Nat := 16 + p

/-- Curd buffers given back by a host port (R343). -/
def bufsFree (p : Nat) (bs : List Nat) (d : Dev) : Dev := bs.foldl (fun x b => (curdOp 4 (portMaster p) b 0 x).2) d

/-- Up to `n` Curd buffers of class 4 KiB for a host port: those granted before the first EMPTY (Table 1.11, step 3; R340). -/
def bufsTake (p : Nat) : Nat → Dev → List Nat × Dev
  | 0, d => ([], d)
  | n + 1, d =>
    let g := curdGrant (portMaster p) 4096 false d
    if g.1.st = .ok then
      let r := bufsTake p n g.2
      (g.1.ptr :: r.1, r.2)
    else ([], g.2)

/-- An admitted command ends: its record and its Curd buffers go, its Kennel's outstanding count falls, and its completion is posted
unless a reset discarded it (R62). A Host Memory Buffer that waited for it is then disabled (R65). -/
def opEnd (tag : Nat) (st : NvStat) (dw0 dw1 : Nat) (data : List Nat) (d : Dev) : Dev :=
  match tabGet d.host.ops tag with
  | none => d
  | some o =>
    let d1 := bufsFree o.port o.bufs { d with host := { d.host with ops := tabDel d.host.ops tag } }
    let x := kenOf d1 o.kennel
    let d2 := if (kenGet d1 o.kennel).isSome then kenPut d1 o.kennel { x with outstanding := x.outstanding - 1 } else d1
    hmbSettle (if o.quiet then d2 else cqPost o.port o.fn o.sq o.cmd.cid st dw0 dw1 data d2)

/-- Changing an admitted command's record. -/
def opMod (tag : Nat) (f : Op → Op) (d : Dev) : Dev :=
  match tabGet d.host.ops tag with
  | none => d
  | some o => { d with host := { d.host with ops := tabPut d.host.ops tag (f o) } }

/-- Bucket of a read latency in µs (R76, log 0xC6). -/
def latBucket (us : Nat) : Nat :=
  if us < 240 then us / 5
  else if 7864320 ≤ us then 63
  else (((List.range 15).map (fun i => 48 + i)).find? (fun b => decide (us < 240 * 2 ^ (b - 47)))).getD 63

/-- A read's statistics at its completion: the Kennel's counters and buckets, and a deadline miss counted, flagged and, for S0
and S1, recorded (R140, R141). -/
def readStats (o : Op) (die : Nat) (good : Bool) (d : Dev) : Dev :=
  let now := d.hw.time.toNat
  let ticks := now - o.doorbell.toNat
  let x := kenOf d o.kennel
  let miss := decide (o.deadline < now)
  let x1 := { x with
    reads := x.reads + 1, bytesR := if good then x.bytesR + o.cmd.nlb * 4096 else x.bytesR, misses := if miss then x.misses + 1 else x.misses,
    hist := tabMod x.hist (latBucket (ticks / 25)) 0 (fun n => n + 1),
    fine := if o.cmd.nlb = 1 then
        tabMod (x.fine.filter (fun q => decide (now / 90000000000 ≤ q.1 / 16384 + 24)))
          (now / 90000000000 * 16384 + min 10000 (ticks / 25)) 0 (fun n => n + 1)
      else x.fine }
  let h1 := if miss && decide (o.cls = 0) then evUnit (irq d.hw irqHerder 0) 13 0x040 2 o.kennel (ticks * 2 / 5) die
    else if miss && decide (o.cls = 1) then evUnit (irq d.hw irqHerder 1) 13 0x041 1 o.kennel (ticks * 2 / 5) die
    else d.hw
  let d1 := { d with hw := h1 }
  if (kenGet d o.kennel).isSome then kenPut d1 o.kennel x1 else d1

/-- A read ends with a status and its data; a Read that has not been discarded has its statistics taken (R140, R141). A Verify is no Read. -/
def readClose (tag : Nat) (st : NvStat) (die : Nat) (data : List Nat) (d : Dev) : Dev :=
  match tabGet d.host.ops tag with
  | none => d
  | some o => opEnd tag st 0 0 data (if o.cmd.op = .read ∧ o.quiet = false then readStats o die (decide (st = .success)) d else d)

/-! Checks at admission. -/

/-- Whether a reservation of the namespace refuses a command (R59, reservation types of the NVMe specifications: write
exclusive 1, exclusive access 2, their registrants-only forms 3 and 4, their all-registrants forms 5 and 6). -/
def resvConflict (n : Ns) (host : Nat) (isWrite : Bool) : Bool :=
  match n.registrants.find? (fun r => r.holder) with
  | none => false
  | some h =>
    let me := n.registrants.find? (fun r => decide (r.hostId = host))
    let ok := match h.rtype with
      | 1 | 2 => (match me with | some r => r.holder | none => false)
      | _ => me.isSome
    !ok && (isWrite || decide (h.rtype = 2) || decide (h.rtype = 4) || decide (h.rtype = 6))

/-- Commands that write or change zone state. -/
def isWriteOp (o : IoOp) : Bool :=
  match o with
  | .write | .append | .writeZeroes | .deallocate | .zoneSend | .secureDiscard => true
  | _ => false

/-- Commands that assign LBAs of a zone: a write, an append, or Write Zeroes on a zoned namespace (R99). -/
def isZoneWrite (o : IoOp) : Bool :=
  match o with
  | .write | .append | .writeZeroes => true
  | _ => false

/-- Commands that a namespace latched read-only refuses (R330). -/
def isLatched (o : IoOp) : Bool :=
  match o with
  | .write | .append | .writeZeroes | .deallocate => true
  | _ => false

/-- Reservation commands (R59). -/
def isResv (o : IoOp) : Bool :=
  match o with
  | .resv _ => true
  | _ => false

/-- R89: what opening a zone needs: refused, or an implicitly opened zone to close first. A Zone Open is taken as a write is: the rule
names only writes and appends for the implicit close (DESIGN CHOICE, log entry 90). -/
def openCheck (d : Dev) (nsid : Nat) (s : ZSt) : NvStat ⊕ Option Nat :=
  let imp := ((nsZones d nsid).filter (fun q => decide (q.2.st = .impOpen))).mergeSort
    (fun a b => decide (a.2.lastWrite.toNat ≤ b.2.lastWrite.toNat))
  let victim := if openCount d nsid < 4096 then none else imp.head?
  if decide (4096 ≤ openCount d nsid) && victim.isNone then .inl .tooManyOpen
  else if decide (s = .empty) && (decide (4096 ≤ activeCount d nsid) || decide (16384 ≤ activeAll d)) then .inl .tooManyActive
  else .inr (victim.map (fun q => q.1))

/-- The checks of R90 on a zoned write or append, in order. A wide-stripe zone lies in every Pack: a placement identifier may name any
reclaim group for it (DESIGN CHOICE, log entry 90). -/
def zonedWriteCheck (d : Dev) (k : Nat) (c : IoCmd) (n : Ns) : NvStat ⊕ Option Nat :=
  let zn := c.slba / n.zsze
  let zk := zkey c.nsid zn
  let z := zoneGet d zk
  let append := decide (c.op = .append)
  let start := if append then z.wp else c.slba % n.zsze
  let badPlace := match c.place with
    | some (rg, _) => decide (n.width ≠ 48) && decide (rg ≠ zonePack d n zn)
    | none => false
  if !(kenPacks d k).contains (zonePack d n zn) || badPlace || (append && decide (c.slba % n.zsze ≠ 0)) then .inl .invalidField
  else if z.st = .offline then .inl .zoneOffline
  else if z.st = .readOnly then .inl .zoneReadOnly
  else if z.st = .full then .inl .zoneFull
  else if z.secure.isSome then .inl .invalidZoneTransition
  else if !append && decide (c.slba % n.zsze ≠ z.wp) then .inl .zoneInvalidWrite
  else if (append && decide (32 < c.nlb)) || decide (z.zcap < start + c.nlb) then .inl .zoneBoundary
  else if z.st = .empty ∨ z.st = .closed then openCheck d c.nsid z.st
  else .inr none

/-- The checks of R88–R90 and R111 of a management action on one zone: R111 first; then an Offline, Read Only or Full zone gives the
statuses of R90 unless Table 3.4 has a row for the action, and any other state without a row gives Invalid Zone State Transition
(R88, R90; log entry 90). Answers the zone that an Open closes first. -/
def zoneActCheck (d : Dev) (nsid zk : Nat) (a : ZAct) : NvStat ⊕ Option Nat :=
  let z := zoneGet d zk
  if z.secure.isSome then (if a = .reset then .inr none else .inl .invalidZoneTransition)
  else if zoneAllows a z.st then
    (if a = .open_ ∧ (z.st = .empty ∨ z.st = .closed) then openCheck d nsid z.st else .inr none)
  else match z.st with
    | .offline => .inl .zoneOffline
    | .readOnly => .inl .zoneReadOnly
    | .full => .inl .zoneFull
    | _ => .inl .invalidZoneTransition

/-- The checks at admission of a management command for one zone: the Kennel's Packs (R86), an SLBA that is the zone's first LBA, which the
Zoned Namespace command set asks and R90 does not list (PRESUMED, log entry 90), then those of the action. -/
def zoneSendCheck (d : Dev) (k : Nat) (c : IoCmd) (n : Ns) : NvStat ⊕ Option Nat :=
  let zn := c.slba / n.zsze
  if !(kenPacks d k).contains (zonePack d n zn) || decide (c.slba % n.zsze ≠ 0) then .inl .invalidField
  else zoneActCheck d c.nsid (zkey c.nsid zn) c.act

/-- The admission checks of Table 4.2, 1 to 5, for a queue's head: the number of the first that fails (R121). -/
def heldBy (d : Dev) (k : Nat) (c : IoCmd) : Nat :=
  let x := kenFill d.hw.time.toNat (kenOf d k)
  let kib := match c.op with | .write | .append | .writeZeroes => c.nlb * 4 | _ => 0
  if !bit (rd d.hw R.HERDER_CTRL) 0 then 1
  else if decide (x.cap ≠ 0) && decide (x.cap ≤ x.outstanding) then 2
  else if decide (x.iops ≠ 0) && decide (x.iopsB.level < 25000000) then 3
  else if decide (x.bw ≠ 0) && decide (0 < moveBytes c) && decide (x.bwB.level < moveBytes c * 25000000) then 4
  else if decide (0 < kib) && decide (limitKib d < dirtyKib d + kib) then 5
  else 0

/-- Zones that an LBA range of a zoned namespace touches. -/
def zonesOf (n : Ns) (lba k : Nat) : List Nat :=
  if n.zsze = 0 then [] else (List.range ((lba + max k 1 - 1) / n.zsze + 1 - lba / n.zsze)).map (fun i => lba / n.zsze + i)

/-- A command addresses a zone whose admitted management command has not taken effect yet; it waits, so that commands to one
zone take effect in the order of admission (R92, R107, log entry 22). During a secure reset it does not: R111 says what becomes of it. -/
def zoneBusy (d : Dev) (c : IoCmd) : Bool :=
  match nsGet d c.nsid with
  | some n => n.zoned && isWriteOp c.op && d.host.ops.any (fun q => decide (q.2.cmd.op = .zoneSend)
      && decide (q.2.cmd.nsid = c.nsid) && decide (q.2.st = .admitted)
      && (c.all || ((q.2.cmd.all || decide (n.zsze ≠ 0 ∧ q.2.cmd.slba / n.zsze = c.slba / n.zsze))
        && (zoneGet d (zkey c.nsid (c.slba / n.zsze))).secure.isNone)))
  | none => false

/-- Checks that complete a command at admission: namespace, reservation, opcode, range, read-only namespace, and the zone checks; while
MAPU is EXHAUSTED a conventional write, Write Zeroes or deallocate is refused (R64, R67, R68, R74, R90, R282, R330). -/
def admitCheck (d : Dev) (port fn k : Nat) (c : IoCmd) : NvStat ⊕ Option Nat :=
  match nsGet d c.nsid with
  | none => .inl .invalidNamespace
  | some n =>
    let host := (tabGetD d.host.ctrls (port * 64 + fn) Ctrl.init).hostId
    if !n.attached.contains (port * 64 + fn) then .inl .invalidNamespace
    else if isResv c.op then .inr none
    else if resvConflict n host (isWriteOp c.op) then .inl .reservationConflict
    else if c.op = .zoneReceive ∨ c.op = .flush then .inr none
    else if n.zoned && decide (c.op = .secureDiscard) || !n.zoned && (decide (c.op = .append) || decide (c.op = .zoneSend)) then
      .inl .invalidOpcode
    else if c.op = .zoneSend ∧ c.all = true then .inr none
    else if n.nsze < c.slba + max 1 c.nlb then .inl .lbaRange
    else if n.readOnly && isLatched c.op then .inl .namespaceReadOnly
    else if n.zoned then
      match c.op with
      | .write | .append | .writeZeroes => zonedWriteCheck d k c n
      | .zoneSend => zoneSendCheck d k c n
      | _ => .inr none
    else if decide (d.med.mapu.st = 4) && isLatched c.op then .inl .keyExhausted
    else .inr none

/-! Admission (R121–R123). -/

/-- The handle of a superblock whose pilot wordlines are not programmed yet, with the descriptors that carry it (R98, Table 8.3). -/
def sbHandle (id h : Nat) (d : Dev) : Dev :=
  match sbGet d id with
  | none => d
  | some s =>
    if s.handle = h then d
    else
      let s1 := { s with handle := h }
      (List.range s.members.length).foldl (fun x i =>
        let q := s1.members.getD i (0, 0)
        let b := blkGet x q.1 q.2
        blkPut x q.1 q.2 { b with desc := descBytes x id s1 i 0xFFFF 0xFFFF q.1 q.2 b.erases }) (sbPut d id s1)

/-- The zone's side of admitting a write: an implicit close, the LBA assignment and the write pointer, in one step (R89, R98,
R99, Table 3.4). Answers the first LBA. -/
def zoneAssign (c : IoCmd) (n : Ns) (victim : Option Nat) (d : Dev) : Nat × Dev :=
  let d1 := match victim with | some v => zoneClose v d | none => d
  let zk := zkey c.nsid (c.slba / n.zsze)
  let z := zoneGet d1 zk
  let handle := if z.st = .empty then (match c.place with | some (_, h) => h | none => 0) else z.handle
  let st : ZSt := if z.wp + c.nlb = z.zcap then .full else if z.st = .empty ∨ z.st = .closed then .impOpen else z.st
  let z1 := { z with
    wp := z.wp + c.nlb, st := st, handle := handle, fullByWp := z.fullByWp || decide (st = .full), lastWrite := d.hw.time,
    openedAt := if isOpen z.st then z.openedAt else d.hw.time }
  let d2 := if st = z.st then zonePut d1 zk z1 else zoneSet zk z1 d1
  (zslba n (c.slba / n.zsze) + z.wp, if z.st = .empty then sbHandle z.sb handle d2 else d2)

/-- Taking a command's tokens from its Kennel's buckets (R121, R122). -/
def kenTake (k : Nat) (c : IoCmd) (d : Dev) : Dev :=
  let x := kenFill d.hw.time.toNat (kenOf d k)
  kenPut d k { x with
    iopsB := { x.iopsB with level := x.iopsB.level - (if x.iops = 0 then 0 else 25000000) },
    bwB := { x.bwB with level := x.bwB.level - (if x.bw = 0 then 0 else moveBytes c * 25000000) } }

/-- The zones of a secure reset enter it at its admission (R111): the zone addressed, or with Select All those that a Reset applies to. -/
def secureAdmit (tag k : Nat) (c : IoCmd) (n : Ns) (d : Dev) : Dev :=
  if !n.secureMode || decide (c.op ≠ .zoneSend) || decide (c.act ≠ .reset) then d
  else
    let zs := if c.all then
        (nsZones d c.nsid).filterMap (fun q =>
          if (isActive q.2.st || decide (q.2.st = .full) || q.2.secure.isSome)
            && (kenPacks d k).contains (zonePack d n (q.1 % 1048576)) then some q.1 else none)
      else [zkey c.nsid (c.slba / n.zsze)]
    zs.foldl (fun x zk => secureMark zk tag x) d

/-- A command that unmaps takes its SEQ value at admission (R274, R303). -/
def seqAdmit (c : IoCmd) (zoned : Bool) (d : Dev) : Nat × Dev :=
  if !zoned && (decide (c.op = .writeZeroes) || decide (c.op = .deallocate) || decide (c.op = .secureDiscard)) then seqTake d else (0, d)

/-- The record of a command at its admission: Kennel, class and deadline (R52, R120), and the Packs that the Kennel permits now (R118).
A command that was fetched before its function was bound to another Kennel and is admitted after it belongs to the Kennel of its
admission (DESIGN CHOICE, log entry 87). -/
def opNew (d : Dev) (qk k : Nat) (q : QCmd) : Op :=
  let x := kenOf d k
  { cmd := q.cmd, port := qk / 65536 / 64, fn := qk / 65536 % 64, sq := qk % 65536, kennel := k, cls := x.cls, doorbell := q.doorbell,
    deadline := q.doorbell.toNat + readDeadline (prof d) x / 40, lba := q.cmd.slba, st := .admitted, dispatched := false, quiet := false,
    depth := 0, status := .success, ciphered := false, key := (0, 0, 0), bufs := [], packs := kenPacks d k, seq := 0, limit := limitKib d,
    runs := 0, out := [], bad := none }

/-- Admitting a queue's head command, or completing it at check 6; either takes its tokens (R121). -/
def admitHead (qk : Nat) (q : QCmd) (d : Dev) : Dev :=
  let c := q.cmd
  let ck := qk / 65536
  let port := ck / 64
  let fn := ck % 64
  let k := fnKennel d port fn
  let d1 := kenTake k c { d with host := { d.host with
    queues := tabMod d.host.queues qk [] List.tail, rrQueue := tabPut d.host.rrQueue k qk,
    rrKennel := tabPut d.host.rrKennel (kenOf d k).cls k } }
  let o := opNew d1 qk k q
  match admitCheck d1 port fn k c with
  | .inl st => cqPost port fn (qk % 65536) c.cid st 0 0 [] (if c.op = .read then readStats o 0 false d1 else d1)
  | .inr victim =>
    let zoned := match nsGet d1 c.nsid with | some n => n.zoned | none => false
    let a := match nsGet d1 c.nsid with
      | some n => if n.zoned && isZoneWrite c.op then zoneAssign c n victim d1
        else (c.slba, secureAdmit d1.host.nextTag k c n d1)
      | none => (c.slba, d1)
    let s := seqAdmit c zoned a.2
    let o1 := { o with lba := a.1, dispatched := zoned && isZoneWrite c.op, seq := s.1 }
    let host := { s.2.host with ops := tabPut s.2.host.ops s.2.host.nextTag o1, nextTag := s.2.host.nextTag + 1 }
    let x := kenOf s.2 k
    kenPut { s.2 with host := host } k { x with outstanding := x.outstanding + 1 }

/-- The head of each queue with its Kennel and the check that holds it: 1 to 5 as in Table 4.2; 6 where a zone's management command is due
before it, or where admission is stopped for a power-fail flush or recovery has not ended (Table 15.6, R299). -/
def heads (d : Dev) : List (Nat × Nat × QCmd × Nat) :=
  d.host.queues.filterMap (fun p => match p.2 with
    | [] => none
    | q :: _ =>
      let k := fnKennel d (p.1 / 65536 / 64) (p.1 / 65536 % 64)
      some (p.1, k, q, if d.host.stopped || !d.med.recovered || zoneBusy d q.cmd then 6 else heldBy d k q.cmd))

/-- HERDER_KSTAT.HOLD: the check of Table 4.2 that holds a Kennel's head command, of its lowest-numbered queue that is held; 0 none
(Table 4.18). -/
def holdNow (d : Dev) (k : Nat) : Nat :=
  (((heads d).find? (fun h => decide (h.2.1 = k) && decide (1 ≤ h.2.2.2) && decide (h.2.2.2 ≤ 5))).map (fun h => h.2.2.2)).getD 0

/-- The next of some numbers after the last one served, in cyclic order (R123). -/
def nextAfter (last : Nat) (xs : List Nat) : Option Nat :=
  match xs.filter (fun x => decide (last < x)) with
  | x :: rest => some (rest.foldl min x)
  | [] => match xs with | x :: rest => some (rest.foldl min x) | [] => none

/-- Head commands that are held are counted, each once (log 0xC6). -/
def noteHolds (hs : List (Nat × Nat × QCmd × Nat)) (d : Dev) : Dev :=
  hs.foldl (fun x h =>
    if h.2.2.2 = 0 ∨ 5 < h.2.2.2 ∨ h.2.2.1.held = true then x
    else
      let y := kenOf x h.2.1
      kenPut { x with host := { x.host with queues := tabMod x.host.queues h.1 [] (fun l => match l with
        | q :: qs => { q with held := true } :: qs
        | [] => []) } } h.2.1 { y with helds := y.helds + 1 }) d

/-- One admission step: the admissible head of lowest admission rank, Kennels of equal rank and queues of one Kennel in round
robin (R121, R123). The heads that are held are counted. -/
def admitHeads (d : Dev) : Dev :=
  let hs := heads d
  let d1 := noteHolds hs d
  let ok := hs.filter (fun h => decide (h.2.2.2 = 0))
  let rank := ok.foldl (fun r h => min r (kenOf d h.2.1).cls) 4
  let ks := (ok.filter (fun h => decide ((kenOf d h.2.1).cls = rank))).map (fun h => h.2.1)
  match nextAfter (tabGetD d.host.rrKennel rank 0xFFFFFFFF) ks with
  | none => d1
  | some k =>
    let qs := (ok.filter (fun h => decide (h.2.1 = k))).map (fun h => h.1)
    match nextAfter (tabGetD d.host.rrQueue k 0xFFFFFFFFFF) qs with
    | none => d1
    | some qk => match ok.find? (fun h => decide (h.1 = qk)) with
      | none => d1
      | some h => admitHead qk h.2.2.1 d1

/-- A Kennel's head command has been held for 1 s (Table 4.12). -/
def holdLong (k : Nat) (d : Dev) : Dev :=
  if (heads d).any (fun h => decide (h.2.1 = k) && decide (h.2.2.2 ≠ 0)) then
    { noteHolds (heads d) d with hw := irq (noteHolds (heads d) d).hw irqHerder 6 }
  else d

/-! The write path (R38, R39, R100, R101, R250, R271). -/

/-- Host-path jobs find their keys: KV_CTRL.EN = 1 (Table 12.8). -/
def vaultOpen (d : Dev) : Bool := bit (rd d.hw R.KV_CTRL) 0

/-- The key that a write's data is encrypted under: CIPHER of the tag, slot and generation; none where the command is refused
(R248, R374, R387, R388, R116). -/
def writeKey (d : Dev) (n : Ns) (o : Op) : NvStat ⊕ (Nat × Nat × Nat) :=
  match o.cmd.keyTag with
  | some t =>
    let s := slotGet d.sec t
    if n.cipher ≠ 2 ∨ !hasCrypto d.fuse then .inl .invalidField
    else if 8191 < t ∨ s.type = 0 then .inl .invalidField
    else if !vaultOpen d then .inl .accessDenied
    else if s.type ≠ 1 ∨ s.scope ≠ 2 ∨ s.kennel ≠ o.kennel then .inl .accessDenied
    else .inr (2, t, s.gen)
  | none =>
    if n.cipher = 0 then .inr (0, 0, 0)
    else
      let s := slotGet d.sec n.slot
      if !vaultOpen d ∨ s.type ≠ 1 ∨ n.keyFailed then .inl .accessDenied else .inr (1, n.slot, s.gen)

/-- Whether a conventional namespace can serve I/O (R64, R284, R299, R301). -/
def mapReady (d : Dev) (n : Ns) : Bool :=
  (match tabGet d.host.ports n.homePort with
    | some p => decide (p.hmb = .serving) && decide (hmbNeed d n.homePort ≤ p.hmbUnits) | none => false)
    && decide (2 ≤ d.med.mapu.st) && d.sec.mapKey.isSome

/-- The reclaim group and handle of a conventional write: its placement identifier, else handle 0 in the permitted Pack with
most free superblocks, lowest number on a tie (R97). -/
def placeOf (d : Dev) (ps : List Nat) (n : Ns) (c : IoCmd) : NvStat ⊕ (Nat × Nat) :=
  match c.place with
  | some (rg, h) =>
    if n.handles ≤ h ∨ packCount d.fuse ≤ rg ∨ !ps.contains rg then .inl .invalidField else .inr (rg, h)
  | none =>
    match ps.foldl (fun (b : Option (Nat × Nat)) p =>
        let f := freeSbs d p n.width
        match b with | none => some (p, f) | some (_, g) => if g < f then some (p, f) else b) none with
    | some (p, _) => .inr (p, 0)
    | none => .inl .invalidField

/-- The open superblock of a (reclaim group, handle) pair, opened where there is none (R271). A handle that had a reclaim unit of the
namespace before then names another (Table 3.5). -/
def convTarget (p h w nsid k : Nat) (d : Dev) : Option (Nat × Dev) :=
  match tabGet d.med.openSb (p * 64 + h) with
  | some s => some (s, d)
  | none =>
    let again := d.med.sbs.any (fun q => decide (q.2.type = 2) && decide (q.2.pack = p) && decide (q.2.handle = h) && decide (q.2.nsid = nsid))
    (sbOpen 2 nsid k p w 0 h 0 d).map (fun r =>
      let d1 := { r.2 with med := { r.2.med with openSb := tabPut r.2.med.openSb (p * 64 + h) r.1 } }
      (r.1, if again then fdpEvent 0x81 p h nsid 0 d1 else d1))

/-- A unit of a write as it enters DRAM, with its tag's content (R250). -/
def newCopy (o : Op) (lba seq data : Nat) : Copy :=
  { nsid := o.cmd.nsid, lba := lba, seq := seq, kennel := o.kennel, cipher := o.key.1, slot := o.key.2.1, gen := o.key.2.2,
    lost := false, pad := false, parked := false, refresh := false, data := data }

/-- The data of a write's block. -/
def opData (o : Op) (i : Nat) : Nat := if o.cmd.op = .writeZeroes then 0 else o.cmd.data.getD i 0

/-- The units of a zoned write enter DRAM, each at its zone offset with the next SEQ value (R250, R258). -/
def stageZoned (o : Op) (n : Ns) (d : Dev) : Dev :=
  let sb := zoneSb (zoneGet d (zkey o.cmd.nsid (o.lba / n.zsze)))
  (List.range o.cmd.nlb).foldl (fun x i =>
    let q := seqTake x
    { q.2 with med := { q.2.med with
        staged := tabPut q.2.med.staged (uk sb ((o.lba + i) % n.zsze)) (newCopy o (o.lba + i) q.1 (opData o i)) } }) d

/-- The units of a conventional write enter DRAM, each with the next SEQ value, and wait to be placed (R38, R97, R250). -/
def stageConv (o : Op) (n : Ns) (d : Dev) : Dev :=
  let t := match placeOf d o.packs n o.cmd with | .inr t => t | .inl _ => (0, 0)
  (List.range o.cmd.nlb).foldl (fun x i =>
    let q := seqTake x
    { q.2 with med := { q.2.med with
        loose := q.2.med.loose ++ [{ copy := newCopy o (o.lba + i) q.1 (opData o i), group := t.1, handle := t.2 }] } }) d

/-- One unit placed in the open superblock of its reclaim group and handle, with its map entry and MAP record (R271, R272); a unit whose
entry has a higher SEQ meanwhile is not current and is discarded. None while no superblock can be opened (R287). -/
def placeUnit (u : Loose) (d : Dev) : Option Dev :=
  let c := u.copy
  if c.seq < entSeq (mapAt d c.nsid c.lba) then some (dirtySub 1 d)
  else match nsGet d c.nsid with
    | none => some (dirtySub 1 d)
    | some n => (convTarget u.group u.handle n.width c.nsid c.kennel d).map (fun t =>
      let k := sbNextK t.2 t.1
      rowReady t.1 k (jput (jrUnit t.2 c.nsid c.lba t.1 k c.seq) (mapSet c.nsid c.lba (.media c.seq t.1 k) (sbPlace t.1 c t.2))))

/-- Placing units in staging order; those that cannot be placed stay in DRAM, and so does every later unit of their reclaim group and
handle. -/
def placeUnits : List Loose → List Loose → Dev → Dev
  | [], kept, d => { d with med := { d.med with loose := kept } }
  | u :: us, kept, d =>
    if kept.any (fun e => decide (e.group = u.group) && decide (e.handle = u.handle)) then placeUnits us (kept ++ [u]) d
    else match placeUnit u d with
      | some d1 => placeUnits us kept d1
      | none => placeUnits us (kept ++ [u]) d

/-- Step 7 of Table 1.11 for conventional data: every unit in DRAM that a superblock can take is placed; collection and a journal flush
start where they are due (R271, R286, R287, R292, R294). -/
def placeLoose (d : Dev) : Dev :=
  if d.med.loose.isEmpty then d
  else
    let gs := (d.med.loose.filterMap (fun u => (nsGet d u.copy.nsid).map (fun n => (u.group, n.width)))).eraseDups
    jFlushIfNeeded (gs.foldl (fun x g => gcStart g.1 g.2 x) (placeUnits d.med.loose [] d))


/-- A zoned write or append fails before its data is protected: the write pointer returns to its first LBA, commands of higher LBAs in the
zone complete with Zone Invalid Write, their data is discarded, and a zone Full by its write pointer is Closed (R101, R103). A zone that
a Finish has filled meanwhile is padded from the restored write pointer. -/
def zoneWriteFail (tag : Nat) (st : NvStat) (d : Dev) : Dev :=
  match tabGet d.host.ops tag with
  | none => d
  | some o =>
    match nsGet d o.cmd.nsid with
    | none => d
    | some n =>
      if !n.zoned || o.st = .staged || !isZoneWrite o.cmd.op then d
      else
        let zk := zkey o.cmd.nsid (o.lba / n.zsze)
        let z := zoneGet d zk
        let off := o.lba % n.zsze
        let later := d.host.ops.filter (fun q => decide (q.1 ≠ tag) && decide (q.2.cmd.nsid = o.cmd.nsid)
          && isZoneWrite q.2.cmd.op && decide (q.2.lba / n.zsze = o.lba / n.zsze) && decide (o.lba < q.2.lba))
        let mine : Nat × Copy → Bool := fun q => decide (q.1 / 4294967296 = zoneSb z) && decide (off ≤ q.1 % 4294967296)
        let drop := d.med.staged.filter mine
        let dirty := (drop.filter (fun q => !q.2.pad && !q.2.refresh)).length
        let d1 := drop.foldl (fun x q => match sbGet x (zoneSb z) with
          | some s =>
            let r := rowOf x s (q.1 % 4294967296)
            sbPut x (zoneSb z) { s with staged := tabPut s.staged r (tabGetD s.staged r 0 - 1) }
          | none => x) { d with med := { d.med with staged := d.med.staged.filter (fun q => !mine q) } }
        let full := decide (z.st = .full) && z.fullByWp && decide (off < z.zcap)
        let z1 := { z with wp := off, st := if full then .closed else z.st, fullByWp := z.fullByWp && !full }
        let d2 := zoneSet zk z1 (dirtySub dirty d1)
        let d3 := if z1.st = .full ∧ z1.fullByWp = false then zonePad zk (zoneSb z) 65536 off d2 else d2
        later.foldl (fun x q => opEnd q.1 .zoneInvalidWrite 0 0 [] x) (opEnd tag st 0 0 [] d3)

/-- What a write needs before its data moves: its key, and for a conventional namespace its map and its placement; else the status that
it ends with (R64, R97, R116, R248). -/
def writeCheck (d : Dev) (n : Ns) (o : Op) : NvStat ⊕ (Nat × Nat × Nat) :=
  match writeKey d n o with
  | .inl st => .inl st
  | .inr key =>
    if n.zoned then .inr key
    else if !mapReady d n then .inl .mapUnavailable
    else match placeOf d o.packs n o.cmd with
      | .inl st => .inl st
      | .inr _ => .inr key

/-- WRITE: a write passes its path's steps up to the move of its data: key, map and placement checks, and its Curd buffers (R38, R64,
R116, R124). With no buffer at all it waits, and the command is given again once one may be free (log entry 98); with some, its data
moves through those. A check that fails ends it: on a zoned namespace its LBAs are given back (R101). -/
def writeStart (tag : Nat) (d : Dev) : Dev :=
  match tabGet d.host.ops tag with
  | none => d
  | some o =>
    match nsGet d o.cmd.nsid with
    | none => d
    | some n =>
      if o.st ≠ .admitted ∨ !(o.cmd.op == .write || o.cmd.op == .append || (o.cmd.op == .writeZeroes && n.zoned)) then d
      else match writeCheck d n o with
        | .inl st => if n.zoned then zoneWriteFail tag st d else opEnd tag st 0 0 [] d
        | .inr key =>
          let need := if o.cmd.op = .writeZeroes then 0 else o.cmd.nlb
          let r := bufsTake o.port need d
          if decide (need ≠ 0) && r.1.isEmpty then opMod tag (fun o => { o with dispatched := true }) r.2
          else opMod tag (fun o => { o with st := .staging, dispatched := true, key := key, bufs := r.1,
                                            ciphered := decide (key.1 = 0) || decide (o.cmd.op = .writeZeroes) })
            (if need = 0 then r.2 else widthRestore o.port r.2)


/-- Whether every command assigned a lower LBA in the same zone is in DRAM (R100). -/
def lowerDone (d : Dev) (n : Ns) (o : Op) : Bool :=
  !n.zoned || d.host.ops.all (fun q => !isZoneWrite q.2.cmd.op
    || decide (q.2.cmd.nsid ≠ o.cmd.nsid) || decide (q.2.lba / n.zsze ≠ o.lba / n.zsze) || decide (o.lba ≤ q.2.lba)
    || decide (q.2.st = .staged))

/-- Posting every write whose data is in DRAM, that the dirty limit of its admission covers, and whose lower LBAs are protected (R39,
R100). Statistics follow log 0xC6. -/
def postWrites (d : Dev) : Dev :=
  let ready := d.host.ops.filter (fun q => decide (q.2.st = .staged)
    && (match nsGet d q.2.cmd.nsid with | some n => lowerDone d n q.2 | none => true)
    && decide (dirtyKib d ≤ q.2.limit))
  ready.foldl (fun x q =>
    let o := q.2
    let y := kenOf x o.kennel
    let x1 := if (kenGet x o.kennel).isSome then
        kenPut x o.kennel { y with writes := y.writes + 1, bytesW := y.bytesW + o.cmd.nlb * 4096 } else x
    let isAppend := decide (o.cmd.op = .append)
    opEnd q.1 .success (if isAppend then o.lba % 4294967296 else 0) (if isAppend then o.lba / 4294967296 else 0) [] x1) d

/-- WRITE_DATA_STAGED: the data and tags of a write are in DRAM: the dirty count rises and its Curd buffers are free again; completions
that R39 and R100 allow are posted; then its units are placed, complete rows are queued for program, and rows are parked at the
park threshold (R38, R39, R93, R100). -/
def writeStaged (tag : Nat) (d : Dev) : Dev :=
  match tabGet d.host.ops tag with
  | none => d
  | some o =>
    match nsGet d o.cmd.nsid with
    | none => d
    | some n =>
      if o.st ≠ .staging || !o.ciphered then d
      else
        let d1 := if n.zoned then stageZoned o n d else stageConv o n d
        let d2 := fdpCount o.cmd.nlb o.cmd.nlb 0 (bufsFree o.port o.bufs (dirtyAdd o.cmd.nlb d1))
        let d3 := opMod tag (fun o => { o with st := .staged, bufs := [] }) d2
        let d4 := postWrites (if o.quiet then opEnd tag .success 0 0 [] d3 else d3)
        let sb := zoneSb (zoneGet d4 (zkey o.cmd.nsid (o.lba / n.zsze)))
        let d5 := if n.zoned then (List.range o.cmd.nlb).foldl (fun x i => rowReady sb ((o.lba + i) % n.zsze) x) d4 else d4
        parkIfDirty (placeLoose d5)


end Sys2Proof.Machine
end

