-- ==== Sys2Proof/Machine/PowerSeq.lean ====
section
/-!
DEFINITION. Power-domain behaviour: holds (R449, R136), gates (R25, R452), transitions (R448–R453), wakes and their record
(R454), the start-up sequence (R455), what a reset does to the domains (R456), and the PWR registers (R475).
-/

namespace Sys2Proof.Machine

/-- Two host ports: the x4 + x4 strap on a part with port 1 (R44). -/
def dual (d : Dev) : Bool := d.pins.dualPort && hasPort1 d.fuse

/-- The domains of a host port: PD85 and PD86 of the x8 port enter and leave RET together (R49). -/
def portDoms (d : Dev) (p : Nat) : List Nat := if dual d then [85 + p] else [85, 86]

/-- The port whose logic lies in domain 85 or 86. -/
def portOfDom (d : Dev) (n : Nat) : Nat := if dual d then n - 85 else 0

/-- A port's record. -/
def portGet (d : Dev) (p : Nat) : Port := tabGetD d.host.ports p Port.init

/-- The device with a port's record replaced. -/
def portPut (d : Dev) (p : Nat) (x : Port) : Dev := { d with host := { d.host with ports := tabPut d.host.ports p x } }

/-- Packs that a Kennel may read: its own when dedicated, else every present Pack (R136). -/
def readPacks (d : Dev) (x : Kennel) : List Nat :=
  (List.range (packCount d.fuse)).filter (fun p => !x.dedicated || decide (x.packs / 2 ^ p % 2 = 1))

/-- Whether a function on a port is bound to a Kennel (R52). -/
def boundOnPort (d : Dev) (k p : Nat) : Bool := (List.range 64).any (fun f => decide (fnKennel d p f = k))

/-- Hold 1: a Kennel with descriptor flag bit 0 depends on the domain, or the layout stream makes the same restriction
(R136). -/
def forbidOff (d : Dev) (n : Nat) : Bool :=
  d.med.layout.forbidOff.getLsbD n || d.ten.kennels.any (fun q => q.2.forbidOff &&
    (if 1 ≤ n ∧ n ≤ 48 then (readPacks d q.2).contains ((n - 1) / 16)
     else if 85 ≤ n ∧ n ≤ 86 then boundOnPort d q.1 (portOfDom d n)
     else if 73 ≤ n ∧ n ≤ 76 then false
     else decide (49 ≤ n)))

/-- The active holds of a domain, bits as Table 15.2 (R449). -/
def holds (d : Dev) (n : Nat) : Nat :=
  bitsOf [bit (rd d.hw (R.PWR_DCTRL n)) 7, forbidOff d n,
    ((decide (81 ≤ n) && decide (n ≤ 84)) || (decide (91 ≤ n) && decide (n ≤ 94))) && poolIn d.hw n,
    decide (81 ≤ n) && decide (n ≤ 84) && bit (rd d.hw R.DRAMC_CTRL) 0,
    decide (n = 95) && pd95Busy d.hw,
    decide (73 ≤ n) && decide (n ≤ 76) && decide (clvec d.hw (n - 73) = 0),
    decide (85 ≤ n) && decide (n ≤ 86) && !(portGet d (portOfDom d n)).perst]

/-- PWR_DSTAT_d (Table 15.15). -/
def dstat (d : Dev) (n : Nat) : Word :=
  if domPresent d.fuse n then BitVec.ofNat 32 (domCode (domGet d.pwr n).st * 1073741824 + holds d n) else 0#32

/-- The device with a domain's record replaced. -/
def domSet (n : Nat) (x : Dom) (d : Dev) : Dev := { d with pwr := domPut d.pwr n x }

/-- Bank of a decoder: hard decoders by their numbers 0–47, soft ones as 48 + number (R205). -/
def decBank (n : Nat) : Nat := if n < 48 then n / 12 else (n - 48) / 4

/-- Whether a domain is idle (Table 15.1). That the cores of a cluster wait for interrupts, and that no access is in flight at
a memory domain, is said by the command that reports the expired timer. -/
def domIdle (d : Dev) (n : Nat) : Bool :=
  if 1 ≤ n ∧ n ≤ 48 then
    (List.range 32).all (fun i => (dieGet d ((n - 1) * 32 + i)).arr.isNone && (dieGet d ((n - 1) * 32 + i)).reading.isEmpty)
  else if 49 ≤ n ∧ n ≤ 72 then (detGet d (n - 49)).ctx.isEmpty && !(detGet d (n - 49)).testing
  else if 73 ≤ n ∧ n ≤ 76 then !clusterHasWork d (n - 73)
  else if 77 ≤ n ∧ n ≤ 80 then (tabGetD d.sec.jobs (n - 77) []).isEmpty
  else if 85 ≤ n ∧ n ≤ 86 then
    decide ((portGet d (portOfDom d n)).link = .l12) || (portGet d (portOfDom d n)).perst
  else if 87 ≤ n ∧ n ≤ 90 then
    d.fl.runs.all (fun q => match q.2.dec with | some k => decide (decBank k ≠ n - 87) | none => true)
  else if n = 95 then d.med.jr.flushing.isNone && d.med.mapu.sweep.isEmpty && d.med.mapu.rebuild.isEmpty
  else true

/-! Wakes. -/

/-- A wake of a domain for a source: a domain at rest starts to wake; one in transition completes it first and then wakes
(R450, R452, Table 15.3). -/
def wakeReq (n src : Nat) (d : Dev) : Dev :=
  let x := domGet d.pwr n
  if n = 0 || !domPresent d.fuse n then d
  else match x.st with
    | .off => domSet n { x with st := .waking, fromOff := true, src := src, wake := none } d
    | .ret => domSet n { x with st := .waking, fromOff := false, src := src, wake := none } d
    | .draining => domSet n { x with wake := some (x.wake.getD src) } d
    | .goingOff => domSet n { x with wake := some (x.wake.getD src) } d
    | _ => d

/-- Turning a domain at rest that has a wake pending back to ON. -/
def wakePending (n : Nat) (d : Dev) : Dev :=
  match (domGet d.pwr n).wake with
  | some s => wakeReq n s d
  | none => d

/-- What a gate does with a request (R25, R452). -/
inductive Gate where
  | pass | hold | refuse
  deriving DecidableEq, Repr

/-- The gate of a domain: open while ON; closed, the request waits when AUTOWAKE is set and no force keeps the domain down,
else it is answered TARGET_OFF (R450, R452). -/
def gateOf (d : Dev) (n : Nat) : Gate :=
  if domOn d.pwr n then .pass
  else if 2 ≤ domMode d.hw n ∨ !bit (rd d.hw (R.PWR_DCTRL n)) 6 then .refuse
  else .hold

/-- A request answered TARGET_OFF at a closed gate sets PWR_INT_STAT.TARGET_OFF (R452). -/
def gateRefused (d : Dev) : Dev := { d with hw := irq d.hw irqPwr 1 }

/-- A request held at a closed gate: it waits and the domain wakes with source FABRIC (R452). -/
def gateHold (n : Nat) (r : Req) (d : Dev) : Dev :=
  let x : Held := { dom := n, req := r }
  wakeReq n 2 { d with pwr := { d.pwr with held := d.pwr.held ++ [x] } }

/-! What a domain loses in OFF (Table 15.1, R350, R372, R414). -/

/-- Cores of a cluster stop, their command items are flushed, and the delivery unit's state is saved (R348, R414). -/
def clusterLeave (c : Nat) (d : Dev) : Dev :=
  let cores := (List.range 4).map (fun i => 4 * c + i)
  { d with hw := cores.foldl (fun h m => flushMaster m h) d.hw
           wh := { d.wh with saved := d.wh.saved ||| (1#4 <<< c) } }

/-- Calibration saved to PD0 as the channel domain leaves ON (R157). -/
def chanSave (c : Nat) (d : Dev) : Dev :=
  let x := chanGet d c
  if x.rate = 0 then d else chanPut d c { x with saved := some (x.rate, x.trained.toNat, x.pkgT) }

/-- Registers of a domain that OFF resets. -/
def regsLose (n : Nat) (h : Hw) : Hw :=
  { h with regs := h.regs.filter (fun q => decide (domOfReg h q.1 ≠ n) || regKept q.1) }

/-- The contents that a domain loses when its power is removed. -/
def loseDom (n : Nat) (d : Dev) : Dev :=
  let d1 := { d with hw := regsLose n d.hw }
  if 1 ≤ n ∧ n ≤ 48 then
    let x := chanGet d1 (n - 1)
    chanPut d1 (n - 1) { x with rate := 0, trained := 0#4, safe := false }
  else if 49 ≤ n ∧ n ≤ 72 then
    let x := detGet d1 (n - 49)
    detPut d1 (n - 49) { Det.init with st := x.st, aborts := x.aborts, leaving := x.leaving, returning := x.returning }
  else if 73 ≤ n ∧ n ≤ 76 then
    { d1 with pwr := { d1.pwr with cores := d1.pwr.cores.filter (fun q => decide (q.1 / 4 ≠ n - 73)) } }
  else if 77 ≤ n ∧ n ≤ 80 then
    { d1 with sec := { d1.sec with keyCache := tabDel d1.sec.keyCache (n - 77), maskBytes := tabDel d1.sec.maskBytes (n - 77),
                                   jobs := tabDel d1.sec.jobs (n - 77) } }
  else if 81 ≤ n ∧ n ≤ 84 then
    { d1 with hw := { d1.hw with mem := memLose d1.hw.mem 0x100000000 0x1100000000 (some (n - 81)) } }
  else if 85 ≤ n ∧ n ≤ 86 then
    let x := portGet d1 (portOfDom d1 n)
    portPut d1 (portOfDom d1 n) { x with link := .detect, rate := 0, width := 0 }
  else if 91 ≤ n ∧ n ≤ 94 then
    let lo := 0x10000000 + (n - 91) * 0x1000000
    { d1 with hw := { d1.hw with mem := memLose d1.hw.mem lo (lo + 0x1000000) none } }
  else d1

/-! The start-up sequence (R455). -/

/-- Start-up order (Table 15.5), absent domains skipped. -/
def seqOrder (f : Fuse) : List Nat :=
  ([73, 91, 92, 93, 94, 95, 81, 82, 83, 84, 87, 88, 89, 90, 85, 86, 77, 78, 79, 80, 74, 75, 76]
    ++ (List.range 24).map (fun i => 49 + i) ++ (List.range 48).map (fun i => 1 + i)).filter (fun n => domPresent f n)

/-- Starting the next domain of the sequence with source POWERUP. -/
def seqNext (d : Dev) : Dev :=
  match d.pwr.seq with
  | none => d
  | some i => match (seqOrder d.fuse)[i]? with
    | none => d
    | some n => wakeReq n 1 { d with pwr := { d.pwr with seq := some (i + 1) } }

/-- The sequence begins; its first slot starts with it. -/
def seqBegin (d : Dev) : Dev := seqNext { d with pwr := { d.pwr with seq := some 0, seqWait := false } }

/-- Whether every present domain but PD0 is OFF. -/
def allDown (d : Dev) : Bool := (seqOrder d.fuse).all (fun n => decide ((domGet d.pwr n).st = .off))

/-- After a reset the sequence begins once every domain is OFF, while PGOOD is high (R455). -/
def seqCheck (d : Dev) : Dev := if d.pwr.seqWait && d.pins.pgood && allDown d then seqBegin d else d

/-- The sequence ends once its last domain is ON: SEQ_DONE (R455). -/
def seqEnd (d : Dev) : Dev :=
  match d.pwr.seq with
  | none => d
  | some i =>
    if (seqOrder d.fuse).length ≤ i ∧ (seqOrder d.fuse).all (fun n => domOn d.pwr n) = true then
      { d with hw := irq d.hw irqPwr 0, pwr := { d.pwr with seq := none } }
    else d

/-- A reset's effect on one domain: it goes OFF without draining (R456). -/
def domDown (n : Nat) (d : Dev) : Dev :=
  let x := domGet d.pwr n
  if x.st = .off then domSet n { x with wake := none } d
  else domSet n { x with st := .goingOff, wake := none, flushOff := true } d

/-- Every domain but PD0 goes OFF without draining, requests in flight to them are lost, and the start-up sequence waits for
them (R455, R456). -/
def domsReset (d : Dev) : Dev :=
  let d1 := (seqOrder d.fuse).foldl (fun x n => domDown n x)
    { d with pwr := { d.pwr with held := [], seq := none, seqWait := true, cores := [] } }
  seqCheck d1

/-! Transitions (R448–R453). -/

/-- Leaving RET for OFF where no hold applies. -/
def tryOff (n : Nat) (d : Dev) : Dev :=
  let x := domGet d.pwr n
  if x.st = .ret ∧ holds d n = 0 then domSet n { x with st := .goingOff } d else d

/-- A domain that rests in RET under FORCE_OFF goes OFF, or is held there with FORCE_HELD (R450). -/
def forceOff (n : Nat) (d : Dev) : Dev :=
  if holds d n = 0 then tryOff n d else { d with hw := irq d.hw irqPwr 3 }

/-- DOMAIN_RET_TIMER: the idle time has passed, or a force finds the domain idle; the gate closes and the drain starts (R448,
R450, R452). -/
def retTimer (n : Nat) (d : Dev) : Dev :=
  let x := domGet d.pwr n
  let auto := decide (domMode d.hw n = 0) && decide (fld (rd d.hw (R.PWR_RETT n)) 0 20 ≠ 0)
  if n ≠ 0 ∧ domPresent d.fuse n = true ∧ x.st = .on ∧ domIdle d n = true ∧ d.holdup.flushStep = 0
      ∧ (auto || decide (2 ≤ domMode d.hw n)) = true then
    domSet n { x with st := .draining, wake := none } d
  else d

/-- The state of a domain's unit is saved as it leaves ON (R157, R414, R452). -/
def domSave (n : Nat) (d : Dev) : Dev :=
  if 1 ≤ n ∧ n ≤ 48 then chanSave (n - 1) d else if 73 ≤ n ∧ n ≤ 76 then clusterLeave (n - 73) d else d

/-- DOMAIN_DRAIN_END: a drained request that started an operation abandons the transition; else the state is saved and the
domain is in RET, from which a pending wake, a force or the flush takes it on (R450, R452, R463). -/
def drainEnd (n : Nat) (busy : Bool) (d : Dev) : Dev :=
  let x := domGet d.pwr n
  if x.st ≠ .draining then d
  else if busy && !x.flushOff then domSet n { x with st := .on, wake := none } d
  else
    let d1 := domSet n { x with st := .ret } (domSave n d)
    if x.flushOff then domSet n { x with st := .goingOff } d1
    else if x.wake.isSome then wakePending n d1
    else if domMode d1.hw n = 3 then forceOff n d1
    else d1

/-- DOMAIN_OFF_TIMER: PWR_OFFT has passed in RET; the domain goes OFF unless a hold applies or a force keeps it (R448). Under
FORCE_OFF a domain held in RET goes OFF once the conditions allow (R450). -/
def offTimer (n : Nat) (d : Dev) : Dev :=
  let m := domMode d.hw n
  if n = 0 || !domPresent d.fuse n then d
  else if decide (m = 3) || (decide (m = 0) && decide (fld (rd d.hw (R.PWR_OFFT n)) 0 20 ≠ 0)) then tryOff n d
  else d

/-- DOMAIN_OFF_REACHED: the domain is OFF and its contents are lost; a hold set meanwhile stops it in RET; a wake that came
meanwhile turns it back to ON (R448, R449, R452, Table 15.3). -/
def offReached (n : Nat) (d : Dev) : Dev :=
  let x := domGet d.pwr n
  if x.st ≠ .goingOff then d
  else if !x.flushOff && decide (holds d n ≠ 0) then wakePending n (domSet n { x with st := .ret } d)
  else seqCheck (wakePending n (domSet n { x with st := .off } (loseDom n d)))

/-- The package temperature of a channel has moved by more than 25 °C since its calibration was saved: the restored settings are not
valid, and each trained target is retrained before its first transfer (R157). -/
def chanFar (x : Chan) : Bool :=
  match x.saved with
  | some (_, _, t) => decide (250 < (x.pkgT - t).natAbs)
  | none => false

/-- What a domain restores as it reaches ON: a channel its calibration, whose targets wait to be retrained after a change of more than
25 °C; a cluster its delivery state, its cores starting at PWR_CLVEC_c from OFF; in the start-up sequence core 0 waits for the boot ROM, and the
others for firmware (R157, R414, R436, R451, R456). -/
def domRestore (n : Nat) (fromOff : Bool) (d : Dev) : Dev :=
  if 1 ≤ n ∧ n ≤ 48 then
    let x := chanGet d (n - 1)
    match x.saved with
    | none => d
    | some (rate, tr, _) =>
      let need := if chanFar x then x.needTrain ||| BitVec.ofNat 4 tr else x.needTrain
      chanPut d (n - 1) { x with rate := rate, trained := BitVec.ofNat 4 tr, needTrain := need, saved := none }
  else if 73 ≤ n ∧ n ≤ 76 then
    let c := n - 73
    let start := fun (p : Pwr) => (List.range 4).foldl (fun q i => { q with cores := tabPut q.cores (4 * c + i) (clvec d.hw c) }) p
    { d with wh := { d.wh with saved := d.wh.saved &&& ~~~(1#4 <<< c) }, pwr := if fromOff && decide ((domGet d.pwr n).src ≠ 1) then start d.pwr else d.pwr }
  else d

/-- DOMAIN_ON_REACHED but for the requests held at the gate: the wake record is made (R447, R451, R454). -/
def onReached (n : Nat) (d : Dev) : Dev :=
  let x := domGet d.pwr n
  if x.st ≠ .waking then d
  else
    let y := { x with st := .on, flushOff := false, at_ := d.hw.time, wakes := satAdd 28 x.wakes 1 }
    seqEnd (domSet n y (domRestore n x.fromOff d))

/-- DOMAIN_WAKE_FAIL: twice the wake bound has passed: WAKE_FAIL, an event, and the wake starts again (R453). -/
def wakeFail (n : Nat) (d : Dev) : Dev :=
  if (domGet d.pwr n).st = .waking then { d with hw := evUnit (irq d.hw irqPwr 2) 3 0x091 3 n 0 0 } else d

/-- A write of PWR_DCTRL_d: its fields are stored, PD0 but for MODE, and MODE takes effect (R450). -/
def dctrlWrite (n : Nat) (v : Word) (d : Dev) : Dev :=
  if !domPresent d.fuse n then d
  else
    let old := domMode d.hw n
    let d1 := { d with hw := md d.hw (R.PWR_DCTRL n) (fun w => rwWrite (if n = 0 then 0xC0#32 else 0xC3#32) w v) }
    let st := (domGet d1.pwr n).st
    if n = 0 then d1
    else match fld v 0 2 with
      | 0 => if 2 ≤ old ∧ st ≠ .on then wakeReq n 4 d1 else d1
      | 1 => wakeReq n 4 d1
      | 2 => if 73 ≤ n ∧ n ≤ 76 then d1 else retTimer n d1
      | _ => if st = .ret then forceOff n d1 else if 73 ≤ n ∧ n ≤ 76 then d1 else retTimer n d1

/-- Holds that changed take effect: an OFF domain with a hold wakes with source POLICY, and a domain held in RET by FORCE_OFF
goes OFF once nothing holds it (R449, R450). Domains that a reset, the start-up sequence or the flush keeps down stay. -/
def settle (d : Dev) : Dev :=
  if d.pwr.seq.isSome || d.pwr.seqWait then d
  else (seqOrder d.fuse).foldl (fun x n =>
    let y := domGet x.pwr n
    if y.flushOff then x
    else if y.st = .off then (if holds x n = 0 then x else wakeReq n 5 x)
    else if y.st = .ret ∧ domMode x.hw n = 3 then tryOff n x
    else x) d

/-- WHISTLE_WAKE: a saved cluster with an eligible source, a timer or a software interrupt wakes with source WHISTLE (R414). -/
def whistleWake (c : Nat) (d : Dev) : Dev :=
  if d.wh.saved.getLsbD c && clusterHasWork d c then wakeReq (73 + c) 3 d else d

/-- A write to a PWR register at offset `o` (R475). -/
def pwrWrite (o : Nat) (v : Word) (d : Dev) : Dev :=
  let timer := fun (a n : Nat) =>
    if domPresent d.fuse n && decide (fld v 0 20 ≤ 1000000) then { d with hw := wr d.hw a (v &&& 0xFFFFF#32) } else d
  if o = 8 then { d with hw := irqClear d.hw irqPwr 0xF#32 v }
  else if o = 0xC then { d with hw := irqEnable d.hw irqPwr 0xF#32 v }
  else if 0x20 ≤ o ∧ o < 0x40 then
    let c := (o - 0x20) / 8
    if o % 8 = 0 then settle { d with hw := wr d.hw (R.PWR_CLVEC_LO c) (v &&& 0xFFFFFFFC#32) }
    else settle { d with hw := wr d.hw (R.PWR_CLVEC_HI c) (v &&& 0xFFFF#32) }
  else if 0x1000 ≤ o ∧ o < 0x1C00 then
    let n := o % 0x1000 / 0x20
    match o % 0x20 with
    | 0x00 => settle (dctrlWrite n v d)
    | 0x08 => timer (R.PWR_RETT n) n
    | 0x0C => timer (R.PWR_OFFT n) n
    | _ => d
  else d

/-- PWR_LAST_WAKE_d (Table 15.17). -/
def lastWake (d : Dev) (n : Nat) : Word :=
  let x := domGet d.pwr n
  if domPresent d.fuse n && decide (n ≠ 0) then BitVec.ofNat 32 (x.src * 268435456 + x.wakes) else 0#32

end Sys2Proof.Machine
end

