-- ==== Sys2Proof/Machine/UnitAccess.lean ====
section
/-!
DEFINITION. The transfers that units make under their own master IDs (R23, R25, R35, R523, Table 1.10): the checks of each request, the
data read, and what a refusal leaves.
-/

namespace Sys2Proof.Machine

/-- How a unit's transfer fares: it passes, one of its requests is refused, or one waits at a closed gate. -/
inductive Pass where
  | ok
  | refused (st : Status) (addr size : Nat)
  | waits (dom : Nat)
  deriving DecidableEq, Repr

/-- The requests of a transfer of `n` bytes from address `a`: what lies in each 64-byte line, first byte and length, in rising order. A
request carries at most eight data flits (section "The self-timed fabric"). -/
def linesOf (a n : Nat) : List (Nat × Nat) :=
  if n = 0 then [] else (List.range ((a % 64 + n + 63) / 64)).map (fun i =>
    (max a (a / 64 * 64 + 64 * i), min (a + n) (a / 64 * 64 + 64 * i + 64) - max a (a / 64 * 64 + 64 * i)))

/-- The checks of one request, in their order (R523). A register is met by no transfer of a unit: such a request is not 32 bits wide. -/
def linePass (d : Dev) (m : Nat) (k : Acc) (a n : Nat) : Pass :=
  match regionOf d.hw a with
  | .outside => .refused .range a n
  | .regs => .refused .align a n
  | r =>
    if !collarOk d m k a n then .refused .denied a n
    else match gateOf d (domOf d.hw a) with
      | .refuse => .refused .targetOff a n
      | .hold => .waits (domOf d.hw a)
      | .pass => if k = .write ∧ (r = .rom ∨ r = .rindWindow) then .refused .denied a n else .ok

/-- The first of several outcomes that is not a pass. -/
def firstBar (ps : List Pass) : Pass := (ps.find? (fun p => decide (p ≠ .ok))).getD .ok

/-- How a transfer of `n` bytes by master `m` fares: its requests are made in rising order, and the first that does not pass decides. -/
def unitPass (d : Dev) (m : Nat) (k : Acc) (a n : Nat) : Pass :=
  firstBar ((linesOf a n).map (fun q => linePass d m k q.1 q.2))

/-- What the refusal of a unit's request leaves at its target: a refusal of the Collar is counted and recorded, one of a gate is flagged (R382,
R384, R452). -/
def unitRefuse (m : Nat) (k : Acc) (st : Status) (a n : Nat) (d : Dev) : Dev :=
  if st = .denied && !collarOk d m k a n then collarRefuse m k a n d
  else if st = .targetOff then gateRefused d else d

/-- A byte of the boot ROM region; beyond the ROM code it reads 0 (Table 1.8). -/
def romAt (a : Nat) : Byte := if a < Config.romSize then Config.romByte a else 0#8

/-- The bytes that a transfer which passed its checks reads; none where a word is uncorrectable or poisoned (R351). -/
def unitRead (m a n : Nat) (d : Dev) : Option (List Byte) × Dev :=
  match regionOf d.hw a with
  | .rom => (some ((List.range n).map (fun i => romAt (a + i))), d)
  | .rindWindow =>
    (some (leBytes n (windowData d (a % 0x1000000) n)), hwMod (windowTouch m (a % 0x1000000) n) d)
  | _ =>
    let r := memBytes d.hw a n
    (r.1, { d with hw := r.2 })

/-- The bytes that a transfer which passed its checks writes. -/
def unitWrite (a : Nat) (bs : List Byte) (d : Dev) : Dev := { d with hw := memPutBytes d.hw a bs }

/-! Background writers of memory: releases, pool initialisation and scrubs wait for a domain in RET, which they wake (R339, R358). -/

/-- The domains that a memory range meets: a DRAM range its channels, granule by granule, an SRAM range its quarters. -/
def domsIn (h : Hw) (lo hi : Nat) : List Nat :=
  let at_ := fun (step : Nat) => (List.range 4).map (fun i => max lo ((lo / step + i) * step))
  (((at_ 4096 ++ at_ 0x1000000).filter (fun a => decide (a < hi))).map (domOf h)).eraseDups

/-- Runs `f` once every domain of a range has an open gate; a gate that holds wakes its domain with source FABRIC, and one that refuses is
flagged (R25, R452). Until then what waits stays as it is (for a refusing gate: DESIGN CHOICE, log entry 122). -/
def onceOpen (doms : List Nat) (f : Dev → Dev) (d : Dev) : Dev :=
  match doms.find? (fun n => decide (gateOf d n ≠ .pass)) with
  | none => f d
  | some n => if gateOf d n = .hold then wakeReq n 2 d else gateRefused d

/-- CURD_RELEASE_DONE, where the buffer's memory can be written (R339, R345). -/
def curdReleased (p : Nat) (d : Dev) : Dev :=
  match curdFind d.hw p with
  | none => d
  | some c => onceOpen (if curdRelease d.hw c = 2 then [] else domsIn d.hw p (p + curdSize c)) (curdReleaseDone p) d

/-- CURD_POOL_INIT_END, where every pool's memory can be written (R338, R339). -/
def curdInited (d : Dev) : Dev :=
  onceOpen (((List.range 14).map (fun i => 81 + i)).filter (fun n => poolIn d.hw n)) curdInitEnd d

/-- Lines of a scrub: all of its range, or as many as ABORT found done. -/
def scrubOver (n : Nat) (aborted : Bool) (d : Dev) : Dev :=
  let lo := scrubBase d.hw
  if !bit (rd d.hw R.MEMCHK_SCRUB_STAT) 31 then d else onceOpen (domsIn d.hw lo (lo + 64 * n)) (scrubRun n aborted) d

/-- The scrub's end: every line of its range has been read (R359). -/
def scrubDone (d : Dev) : Dev := scrubOver (rd d.hw R.MEMCHK_SCRUB_LINES).toNat false d

/-- ABORT stops the scrub after the present line; `n` lines have then been done, at most all of them (R359). -/
def scrubAbort (n : Nat) (d : Dev) : Dev := scrubRun (min n (rd d.hw R.MEMCHK_SCRUB_LINES).toNat) true d

/-- DRAMC_STAT with the channels in self-refresh: those whose domain is in RET (R357, Table 11.35). -/
def dramcStat (d : Dev) : Word :=
  putFld (rd d.hw R.DRAMC_STAT) 24 4 (bitsOf ((List.range 4).map (fun k => decide ((domGet d.pwr (81 + k)).st = .ret))))

end Sys2Proof.Machine
end

