-- ==== Sys2Proof/Machine/Engines.lean ====
section
/-!
DEFINITION. The vault's commands, the hash and the cipher engines' jobs: the engine that a host-path job goes to, the order of its queue,
and what a job does when it ends
(R371–R379).
-/

namespace Sys2Proof.Machine

/-- The transfers of a firmware job, in the order in which they are made: the source, for GCM the AAD and the tag, and the destination
(R373, R376, R379). That order is the model's (log entry 81). -/
def jobParts (j : Job) : List (Acc × Nat × Nat) :=
  (.read, j.src, j.len) :: (if j.op < 3 then [] else
    [(.read, j.aad, j.aadLen), (if j.op = 3 then .write else .read, j.tagAddr, 28)]) ++ [(.write, j.dst, j.len)]

/-- How the transfers of a job of engine `k` fare under its master ID (R23, R379). -/
def jobPass (k : Nat) (j : Job) (d : Dev) : Pass :=
  firstBar ((jobParts j).map (fun q => unitPass d (20 + k) q.1 q.2.1 q.2.2))

/-- The kind of the first transfer of a job that does not pass. -/
def jobBarKind (k : Nat) (j : Job) (d : Dev) : Acc :=
  match (jobParts j).find? (fun q => decide (unitPass d (20 + k) q.1 q.2.1 q.2.2 ≠ .ok)) with
  | some q => q.1
  | none => .read

/-- The data effect of a job whose transfers pass: XTS over its data unit; GCM with its IV and tag at the tag address; a GCM decryption
whose tag fails leaves its destination zero and ends with REJECT; a word that cannot be read ends it with UNRECOVERED (R373, R376,
R378). -/
def jobData (k : Nat) (j : Job) (d : Dev) : Status × Dev :=
  let m := 20 + k
  let r := unitRead m j.src j.len d
  match r.1 with
  | none => (.unrecovered, r.2)
  | some bs =>
    if j.op = 1 then (.ok, unitWrite j.dst (Config.xtsEnc j.key (BitVec.ofNat 128 j.tweak) bs) r.2)
    else if j.op = 2 then (.ok, unitWrite j.dst (Config.xtsDec j.key (BitVec.ofNat 128 j.tweak) bs) r.2)
    else
      let a := unitRead m j.aad j.aadLen r.2
      match a.1 with
      | none => (.unrecovered, a.2)
      | some aad =>
        let key := j.key.setWidth 256
        if j.op = 3 then
          let ct := Config.gcmCrypt key j.iv bs
          (.ok, unitWrite j.tagAddr (leBytes 12 j.iv.toNat ++ leBytes 16 (Config.gcmTag key j.iv aad ct).toNat)
            (unitWrite j.dst ct a.2))
        else
          let t := unitRead m j.tagAddr 28 a.2
          match t.1 with
          | none => (.unrecovered, t.2)
          | some tb =>
            let iv := BitVec.ofNat 96 (leNat (tb.take 12))
            if BitVec.ofNat 128 (leNat (tb.drop 12)) = Config.gcmTag key iv aad bs then
              (.ok, unitWrite j.dst (Config.gcmCrypt key iv bs) t.2)
            else (.reject, unitWrite j.dst (List.replicate j.len 0#8) t.2)

/-- A job at its end: its data effect where its transfers pass, else the status of the refused request, with nothing written (R35). -/
def jobRun (k : Nat) (j : Job) (d : Dev) : Status × Dev :=
  match jobPass k j d with
  | .refused st a n => (st, unitRefuse (20 + k) (jobBarKind k j d) st a n d)
  | _ => jobData k j d

/-- Whether engine `k` works: enabled, and its island clocked (R17, R379). -/
def engineRuns (d : Dev) (k : Nat) : Bool := bit (rd d.hw (R.CIPHER_CTRL k)) 0 && domOn d.pwr (77 + k)

/-- The oldest job of engine `k` ends: a firmware job's data is written, its status is placed in the master's CIPHER_JRSP, and
JOB_DONE, with JOB_ERR for a status other than OK, is set; a host-path job leaves the queue (R379, Table 12.19). An engine
that is not enabled, or whose domain is not ON, takes no job; a job whose request is held at a gate waits there, and that domain wakes
with source FABRIC (R25). -/
def jobDone (k : Nat) (d : Dev) : Dev :=
  match jobsOf d.sec k with
  | [] => d
  | j :: js =>
    if !engineRuns d k then d
    else
      let d0 := { d with sec := { d.sec with jobs := tabPut d.sec.jobs k js } }
      match j.master with
      | none =>
        let ops := match j.tag with
          | some t => (match tabGet d0.host.ops t with
            | some o => tabPut d0.host.ops t { o with ciphered := true }
            | none => d0.host.ops)
          | none => d0.host.ops
        cipherCount k j.len { d0 with host := { d0.host with ops := ops } }
      | some m =>
        match (if j.status = .ok then jobPass k j d0 else .ok) with
        | .waits n => wakeReq n 2 d
        | _ =>
          let r := if j.status = .ok then jobRun k j d0 else (j.status, d0)
          let h1 := mwr r.2.hw (R.CIPHER_JRSP k) m (BitVec.ofNat 32 (r.1.code * 268435456))
          let h2 := irqIf (irq h1 (irqCipher k) 0) (decide (r.1 ≠ .ok)) (irqCipher k) 1
          cipherCount k (if r.1 = .ok then j.len else 0) { r.2 with hw := h2 }

/-- The enabled engine with the fewest queued bytes, lowest number on a tie (R372). -/
def pickEngine (d : Dev) : Option Nat :=
  (List.range 4).foldl (fun b k =>
    if bit (rd d.hw (R.CIPHER_CTRL k)) 0 then
      match b with
      | none => some k
      | some e => if queuedBytes d.sec k < queuedBytes d.sec e then some k else b
    else b) none

/-- The deadline of the command that a host-path job serves. -/
def jobDeadline (d : Dev) (j : Job) : Option Nat := j.tag.bind (fun t => (tabGet d.host.ops t).map (fun o => o.deadline))

/-- A host-path job takes its place by deadline among the jobs that wait: before the first host-path job of a later deadline (R372). -/
def jobInsert (d : Dev) (t : Nat) (j : Job) : List Job → List Job
  | [] => [j]
  | x :: xs => if (jobDeadline d x).any (fun u => decide (t < u)) then j :: x :: xs else x :: jobInsert d t j xs

/-- A host-path job for an admitted command: queued at the chosen engine under a slot's key, behind the job that runs and in deadline
order; a closed domain of the engine wakes with source FABRIC; none while no engine is enabled (R25, R372). -/
def hostJob (tag n len : Nat) (enc : Bool) (d : Dev) : Dev :=
  match pickEngine d with
  | none => d
  | some k =>
    let j : Job :=
      { master := none, tag := some tag, op := if enc then 1 else 2, slot := n, key := (slotGet d.sec n).key, iv := 0#96,
        src := 0, dst := 0, len := len, aad := 0, aadLen := 0, tweak := 0, tagAddr := 0, status := .ok }
    let t := ((tabGet d.host.ops tag).map (fun o => o.deadline)).getD 0
    let q := match jobsOf d.sec k with | [] => [j] | x :: xs => x :: jobInsert d t j xs
    wakeReq (77 + k) 2 { d with sec := { d.sec with jobs := tabPut d.sec.jobs k q, keyCache := cacheTouch d.sec k n } }

/-! Transfers of the vault and of the hash, which carry the ID of the master that commands them (log entry 123). -/

/-- The way of such a transfer is made clear: the status and what is left where one of its requests is refused; a domain at whose gate it is
held wakes with source FABRIC, and it goes on after that (R25). -/
def unitClear (m : Nat) (k : Acc) (a n : Nat) (d : Dev) : (Status × Dev) ⊕ Dev :=
  match unitPass d m k a n with
  | .refused st b s => .inl (st, unitRefuse m k st b s d)
  | .waits dom => .inr (wakeReq dom 2 d)
  | .ok => .inr d

/-- WRAP: AES-KW under the storage KEK of key and header, written to the buffer under the ID of the commanding master `m`; a GCM_IMP slot
gives DENIED and an EMPTY slot RANGE (Table 12.2). -/
def kvWrap (m n buf len : Nat) (d : Dev) : KvAns × Dev :=
  let x := slotGet d.sec n
  let bad := fun (st : Status) => (({ st := st, gen := x.gen } : KvAns), d)
  if len = 0 then bad .zeroLen
  else if buf % 8 ≠ 0 then bad .align
  else if len < 80 then bad .range
  else if x.type = 3 then bad .denied
  else if x.type = 0 then bad .range
  else
    let n1 := if x.type = 1 then 80 else 48
    let out := (Config.wrap false (kekStorage d.fuse) (keyBytes x ++ keyHeader n x)).take n1
    match unitClear m .write buf n1 d with
    | .inl r => ({ st := r.1, gen := x.gen }, r.2)
    | .inr d1 => ({ st := .ok, gen := x.gen }, unitWrite buf out d1)

/-- UNWRAP through the hardened engine into the slot, read under the ID of the commanding master `m` (R365, R369). -/
def kvUnwrap (m n kek buf len : Nat) (kwp : Bool) (kennel : Nat) (d : Dev) : KvAns × Dev :=
  let x := slotGet d.sec n
  let bad := fun (st : Status) => (({ st := st, gen := x.gen } : KvAns), d)
  if len = 0 then bad .zeroLen
  else if buf % 8 ≠ 0 then bad .align
  else if !unwrapLenOk kwp len || decide (16 < kek) then bad .range
  else
    match unitClear m .read buf len d with
    | .inl r => ({ st := r.1, gen := x.gen }, r.2)
    | .inr d0 =>
    let r := unitRead m buf len d0
    let d1 := r.2
    let rej := (({ st := .reject, gen := x.gen } : KvAns), { d1 with hw := irq d1.hw irqKv 1 })
    match r.1 with
    | none => (({ st := .unrecovered, gen := x.gen } : KvAns), d1)
    | some bs =>
      let key := if kek = 16 then some (kekStorage d.fuse) else tabGet d.sec.importKeks kek
      match key.bind (fun k => Config.unwrap kwp k bs) with
      | none => rej
      | some pt =>
        match unwrapSlot (decide (kek = 16)) n kennel pt with
        | none => rej
        | some (type, km, scope, kn) =>
          match slotLoad x type km scope kn with
          | none => ({ st := .keyExhausted, gen := x.gen }, { d1 with hw := irq d1.hw irqKv 5 })
          | some y => ({ st := .ok, gen := y.gen }, { d1 with sec := slotPut d1.sec n y })

/-- The effect of a vault command word with its item (Tables 12.2, 12.11–12.13). ERASE_ALL runs key erasure without an
alarm. -/
def kvExec (m : Nat) (v : Word) (x : Item) (d : Dev) : KvAns × Dev :=
  let n := fld v 0 13
  let hi := itemArg x 0x18
  let buf := (itemArg x 0x14).toNat + 0x100000000 * fld hi 0 16
  let kennel := fld hi 16 8
  let al := itemArg x 0x1C
  let s := slotGet d.sec n
  match fld v 28 4 with
  | 1 => kvGenerate n (fld v 25 3) (fld v 23 2) kennel d
  | 2 => kvWrap m n buf (fld al 0 13) d
  | 3 => kvUnwrap m n (fld v 18 5) buf (fld al 0 13) (bit al 31) kennel d
  | 4 => ({ st := .ok, gen := (slotClear s).gen }, { d with sec := slotPut d.sec n (slotClear s) })
  | 5 => ({ st := .ok, gen := s.gen }, { d with sec := slotPut d.sec n { s with scope := fld v 23 2, kennel := kennel } })
  | 6 => ({ st := .ok, gen := s.gen }, eraseKeys d)
  | _ => ({ st := .range, gen := s.gen }, d)

/-- Whether a command needs the DRBG: GENERATE, and UNWRAP's dummy rounds (R370, R380). -/
def kvNeedsDrbg (v : Word) : Bool := decide (fld v 28 4 = 1) || decide (fld v 28 4 = 3)

/-- An accepted vault command runs at once, or waits behind a command that waits for the DRBG (R367, R380). -/
def kvAccept (m : Nat) (v : Word) (x : Item) (d : Dev) : Dev :=
  if !d.sec.kvWait.isEmpty || (kvNeedsDrbg v && !drbgReady d.sec) then
    { d with sec := { d.sec with kvWait := d.sec.kvWait ++ [(m, v, x)] } }
  else let r := kvExec m v x d; kvRespond m r.1 r.2

/-- A write to KV_CMD completes the master's item (R347, R367). While EN = 0 the vault accepts no command (Table 12.8): the
item is consumed and nothing else happens. -/
def kvCmdWrite (m : Nat) (v : Word) (d : Dev) : Status × Dev :=
  let r := itemComplete d.hw 10 m
  let d1 := { d with hw := r.2 }
  match r.1 with
  | none => (.flushed, d1)
  | some x => (.ok, if bit (rd d1.hw R.KV_CTRL) 0 then kvAccept m v x d1 else d1)

/-- The vault commands that waited for the DRBG run in their order. -/
def kvDrain : List (Nat × Word × Item) → Dev → Dev
  | [], d => d
  | (m, v, x) :: ws, d => kvDrain ws (kvAccept m v x d)

/-- A reseed of the DRBG, after which the vault commands that waited run (R380). -/
def reseed (healthy : Bool) (d : Dev) : Dev :=
  let d1 := drbgReseed healthy d
  if healthy then kvDrain d1.sec.kvWait { d1 with sec := { d1.sec with kvWait := [] } } else d1

/-- A hash of HLEN bytes at HSRC starts; a length of 0 completes at once with the digest of the empty string (R15, R381). The
range is read when the hash starts, under the ID of the master `m` that started it; a word that is refused or cannot be read leaves a free
digest (log entry 123). -/
def sigvHash (m : Nat) (d : Dev) : Dev :=
  if d.sec.hash.isSome then d
  else
    let h := d.hw
    let len := (rd h R.SIGV_HLEN).toNat
    let src := (rd h R.SIGV_HSRC_LO).toNat + 0x100000000 * fld (rd h R.SIGV_HSRC_HI) 0 16
    if len = 0 then { d with hw := irq (putDigest h (Config.sha384 [])) irqSigv 1 }
    else
      let r := match unitClear m .read src len d with
        | .inl r => (none, r.2)
        | .inr d1 => unitRead m src len d1
      let g := match r.1 with
        | some bs => Config.sha384 bs
        | none => BitVec.ofNat 384 (Config.freeNat r.2.hw.free)
      let h1 := if r.1.isSome then r.2.hw else spend r.2.hw
      { r.2 with hw := md (md h1 R.SIGV_STAT (fun w => setBit w 30)) R.SIGV_CTRL (fun w => setBit w 1)
                 sec := { r.2.sec with hash := some g } }

/-- A write to SIGV_CTRL: ROLE, then HASH and GO (Table 12.25). -/
def sigvCtrlWrite (m : Nat) (v : Word) (d : Dev) : Dev :=
  let d1 := { d with hw := md d.hw R.SIGV_CTRL (fun w => rwWrite 0xC#32 w v) }
  let d2 := if bit v 1 then sigvHash m d1 else d1
  if bit v 0 then sigvGo d2 else d2

/-! The end of key erasure (R386, R387). -/

/-- A command whose cipher job was aborted ends with Access Denied: a zoned write fails after assignment, under R101 (R387). -/
def opAborted (tag : Nat) (d : Dev) : Dev :=
  match tabGet d.host.ops tag with
  | none => d
  | some o =>
    if o.st ≠ .staging then readClose tag .accessDenied 0 [] d
    else if (nsGet d o.cmd.nsid).any (fun n => n.zoned) then zoneWriteFail tag .accessDenied d
    else opEnd tag .accessDenied 0 0 [] d

/-- The commands whose cipher jobs were aborted. -/
def abortedTags (d : Dev) : List Nat :=
  (d.host.ops.filter (fun q => decide (q.2.status = .accessDenied))).map (fun q => q.1)

/-- KEY_AREA_ERASE: the erasure ends, and the commands whose cipher jobs it aborted with it (that they end then: DESIGN CHOICE, log entry
125). -/
def erasureEnd (d : Dev) : Dev :=
  if d.sec.eraseDue then (abortedTags d).foldl (fun x t => opAborted t x) (keyAreaErase d) else d

end Sys2Proof.Machine
end

