-- ==== Sys2Proof/Machine/Flash.lean ====
section
/-!
DEFINITION. Flash channels: the profile window and sequencer control (R148), the bus and its balls (R145, R147, R165, R167), the
power-token pacer (R158–R161), training (R155–R157, R164), bring-up waves (R162, R163), array operations and their ends (R149–R151,
R231), timeouts (R150, R526), and taking units out of service and back (R72, R168–R171, R527).
-/

namespace Sys2Proof.Machine

/-- Channel of a die. -/
def chOf (die : Nat) : Nat := die / 32

/-- The sequencer of a channel can serve: its domain is ON and FCH_CTRL.EN = 1. -/
def chanRuns (d : Dev) (c : Nat) : Bool := domOn d.pwr (c + 1) && bit (rd d.hw (R.FCH_CTRL c)) 0

/-- A power-fail flush is running (R463). -/
def flushing (d : Dev) : Bool := bit (rd d.hw R.HOLDUP_STAT) 29

/-! The sequencer and its profile (R148). -/

/-- The words of a channel's FCH_PROF window. -/
def profWindow (h : Hw) (c : Nat) : List Word := (List.range 1024).map (fun i => rd h (R.FCH_PROF c i))

/-- A write to word `i` of the FCH_PROF window; ignored while EN = 1; PROF_OK follows the checksum word (R148). -/
def profWrite (c i : Nat) (v : Word) (d : Dev) : Dev :=
  if bit (rd d.hw (R.FCH_CTRL c)) 0 || decide (1024 ≤ i) then d
  else
    let h := wr d.hw (R.FCH_PROF c i) v
    { d with hw := md h (R.FCH_CTRL c) (fun w => putBit w 1 (Config.profileOk (profWindow h c))) }

/-- Firmware's reload of the layout stream's profile through the window, which a return makes when PROF_OK = 0 (R169). -/
def profReload (c : Nat) (d : Dev) : Dev :=
  if bit (rd d.hw (R.FCH_CTRL c)) 1 then d
  else
    let ws := (prof d).words
    let d1 := (List.range ws.length).foldl (fun x i => profWrite c i (ws.getD i 0#32) x)
      { d with hw := md d.hw (R.FCH_CTRL c) (fun w => clrBit w 0) }
    if bit (rd d1.hw (R.FCH_CTRL c)) 1 then { d1 with hw := md d1.hw (R.FCH_CTRL c) (fun w => setBit w 0) } else d1

/-! The flash bus and its balls (R145, R147, R165, R167). -/

/-- A sequencer's use of its bus for a die: its chip enable, its LUN bits in the row address, and the commands it issues. -/
def busUse (die : Nat) (cmds : List FchCmd) (d : Dev) : Dev :=
  chanPut d (chOf die) { chanGet d (chOf die) with bus := some { ce := die % 32 / 8, lun := die % 8, cmds := cmds } }

/-- The states of FCnn_CE_N, FCnn_WP_N and of the other flash balls of a present channel (Table 5.4, R167). -/
def flashBalls (d : Dev) (c : Nat) : Ball × Ball × Ball :=
  let x := chanGet d c
  let m := domGet d.pwr (c + 1)
  if m.st = .off ∨ (m.st = .waking ∧ m.fromOff = true) then (.floating, .floating, .floating)
  else if x.safe then (.high, .low, .hiZ)
  else if m.st = .on ∨ m.st = .draining then
    (if x.st = 1 ∨ x.st = 3 then (.high, .high, .idle) else (.high, .low, .hiZ))
  else (.heldHigh, .heldLow, .hiZ)

/-- The balls of every present channel whose domain is not OFF placed safe (R167). -/
def ballsSafe (d : Dev) : Dev :=
  (List.range (chCount d.fuse)).foldl (fun x c =>
    if (domGet x.pwr (c + 1)).st = .off then x else chanPut x c { chanGet x c with safe := true }) d

/-! Times of operations (R149, R150, R526, Table 5.22). Times are in nanoseconds. -/

/-- Nanoseconds since a device time. -/
def sinceNs (d : Dev) (t : Nat) : Nat := (d.hw.time.toNat - t) * 40

/-- Profile maximum of an array or reset operation. -/
def opMaxNs (p : Profile) (a : ArrRun) : Nat :=
  let slc := match a.job with | some j => j.slc | none => false
  match a.op with
  | .program => if slc then p.tSlcMax else p.tProgMax
  | .erase => p.tBersMax
  | .reset => p.tPorMax
  | _ => p.tRstMax

/-- Time an operation has run, suspensions left out. -/
def ranNs (d : Dev) (a : ArrRun) : Nat := a.ran + (if a.suspended then 0 else sinceNs d a.since.toNat)

/-- Detector mode of the run's present job (Table 6.7): 0 HARD, 1 SOFT, 2 NEIGHBOUR, 3 PILOT, 4 SWEEP. -/
def runMode (x : Run) : Nat :=
  match x.serves with
  | .sample _ => 3
  | .raw _ _ _ _ => 0
  | _ => match x.step with
    | 2 => if x.sub = 0 then 3 else 0
    | 3 => 1
    | 4 => 2
    | 5 => if x.sub = 0 then 4 else 2
    | _ => 0

/-- The run's present reads are the class reads of its neighbours (R192). -/
def classJob (x : Run) : Bool := decide (runMode x = 2) && (decide (x.step = 4 ∧ x.sub = 0) || decide (x.step = 5 ∧ x.sub = 2))

/-- Maximum of the run's present array reads (Tables 6.1, 6.12, R526). -/
def readNs (d : Dev) (x : Run) : Nat :=
  let p := prof d
  match runMode x with
  | 1 => p.tRMax + 6 * p.tStr
  | 2 => if classJob x then 2 * p.tRCls else p.tRMax + 6 * p.tStr
  | 3 => x.points * p.tRMax * (match x.serves with | .sample _ => p.bpc | _ => 1)
  | 4 => (x.points - 1 + p.bpc - 1) * p.tRMax
  | _ => match x.serves with
    | .raw _ _ _ _ => if x.loc.wl = 0 ∧ x.slc = false then p.bpc * p.tRMax else p.tRMax
    | _ => p.tRMax

/-! The power-token pacer (R158–R161). -/

/-- Power of an NVMe power state in W (Table 2.6). -/
def psWatts (ps : Nat) : Nat := match ps with | 0 => 41 | 1 => 30 | _ => 20

/-- Present NVMe power state (FCH_PACE_EFF.PS). -/
def paceState (d : Dev) : Nat := fld (rd d.hw R.FCH_PACE_EFF) 0 2

/-- The limit register in force: FCH_PACE_LIMIT, or HOLDUP_FLUSHP.FTOK during a flush (R161, R463). -/
def paceBase (d : Dev) : Nat :=
  if flushing d then fld (rd d.hw R.HOLDUP_FLUSHP) 0 8 else fld (rd d.hw R.FCH_PACE_LIMIT) 0 16

/-- The effective limit (R161). -/
def effLimit (d : Dev) : Nat := if flushing d then paceBase d else paceBase d * psWatts (paceState d) / 41

/-- FCH_PACE_EFF (Table 5.19). -/
def paceEff (d : Dev) : Word := BitVec.ofNat 32 (effLimit d * 65536 + paceState d)

/-- A token is free: the base limit 0 removes the limit (R159). -/
def tokenFree (d : Dev) : Bool := decide (paceBase d = 0) || decide (d.fl.pacer.inuse < effLimit d)

/-- The spacing since the last start in a Pack has passed (R159). -/
def spaced (d : Dev) (p : Nat) : Bool :=
  let sp := fld (rd d.hw R.FCH_PACE_SPACE) 0 16
  match tabGet d.fl.pacer.lastStart p with
  | some t => decide (sp = 0) || decide (t.toNat + sp ≤ d.hw.time.toNat)
  | none => true

/-- The pacer changed. -/
def pacerMod (f : Pacer → Pacer) (d : Dev) : Dev := { d with fl := { d.fl with pacer := f d.fl.pacer } }

/-- A token returned (R158). -/
def tokenBack (had : Bool) (d : Dev) : Dev := if had then pacerMod (fun p => { p with inuse := p.inuse - 1 }) d else d

/-- What a job's program serves: 0 host, 1 garbage collection, 2 refresh (R287, R322). -/
def jobTraffic (d : Dev) (j : FJob) : Nat :=
  match j.serves with
  | .row sb _ _ | .pilot sb =>
    if d.med.openSb.any (fun q => decide (q.1 % 64 = 63) && decide (q.2 = sb)) then 1
    else if d.med.moves.any (fun m => decide (m.target = sb) && !m.gc) then 2
    else if d.med.moves.any (fun m => decide (m.target = sb)) then 1
    else 0
  | _ => 0

/-- The job a die is running. -/
def arrJob (x : Die) : Option FJob := match x.arr with | some r => r.job | none => none

/-- Tokens held or asked by one kind of traffic. -/
def trafficHeld (d : Dev) (k : Nat) : Nat :=
  (d.fl.dies.map (fun q =>
    let run := match arrJob q.2 with | some j => j.token && decide (jobTraffic d j = k) | none => false
    (if run then 1 else 0) + (q.2.pq.filter (fun j => (j.token || j.asked) && decide (jobTraffic d j = k))).length)).sum

/-- Garbage collection is critical in some reclaim group: its cap is lifted (R287). -/
def gcCritical (d : Dev) : Bool :=
  !d.med.gcLifted.isEmpty

/-- The caps on garbage collection and refresh tokens allow one more (R287, R322); a cap of 0 has no limit. -/
def capAllows (d : Dev) (k : Nat) : Bool :=
  match k with
  | 1 => gcCritical d || decide (fld (rd d.hw R.MAPU_GC_CTRL) 16 16 = 0)
      || decide (trafficHeld d 1 < fld (rd d.hw R.MAPU_GC_CTRL) 16 16)
  | 2 => decide (fld (rd d.hw R.AFFINEUR_REFRESH) 16 16 = 0) || decide (trafficHeld d 2 < fld (rd d.hw R.AFFINEUR_REFRESH) 16 16)
  | _ => true

/-- Runs whose array read is in progress on a die; others of `reading` wait for their transfer. -/
def arrReads (d : Dev) (x : Die) : List Nat :=
  x.reading.filter (fun r => match runGet d r with | some q => decide (q.st = .reading) | none => false)

/-- A queued read with S0 deadline (R126). -/
def hasS0 (d : Dev) (x : Die) : Bool :=
  x.rq.any (fun r => match runGet d r with | some q => decide (q.cls = 0) | none => false)

/-- The oldest program or erase of a die may start: the LUN is idle, no read is in progress, and queued reads go first unless the
guard has fired and none has an S0 deadline (R126, R154). -/
def jobMay (d : Dev) (die : Nat) : Bool :=
  let x := dieGet d die
  x.arr.isNone && x.reading.isEmpty && (x.rq.isEmpty || (x.guard && !hasS0 d x))
    && (dieUp d die || decide (x.st = 3))

/-- Replacing the oldest job of a die's queue. -/
def headJob (die : Nat) (f : FJob → FJob) (d : Dev) : Dev :=
  let x := dieGet d die
  match x.pq with
  | j :: js => diePut d die { x with pq := f j :: js }
  | [] => d

/-- A request's place at the pacer: behind those that arrived before it, and among those of its arbitration window by channel (R160). The
window is taken as one tick of device time (DESIGN CHOICE, log entry 104). -/
def waitInsert (e : Nat × Nat) : List (Nat × Nat) → List (Nat × Nat)
  | [] => [e]
  | x :: xs => if e.2 < x.2 ∨ (e.2 = x.2 ∧ chOf e.1 < chOf x.1) then e :: x :: xs else x :: waitInsert e xs

/-- TOKEN_REQUEST: the oldest program or erase of a die asks for a token; a start delayed by the limit, by spacing or by
requests before it is counted (R43, R158, R160). A request to a closed channel wakes its domain (R452). -/
def tokenRequest (die : Nat) (d : Dev) : Dev :=
  match (dieGet d die).pq with
  | [] => d
  | j :: _ =>
    if !domOn d.pwr (chOf die + 1) then (if gateOf d (chOf die + 1) = .hold then wakeReq (chOf die + 1) 2 d else d)
    else if !chanRuns d (chOf die) || j.asked || j.token || !jobMay d die || !capAllows d (jobTraffic d j) then d
    else
      let late := !tokenFree d || !d.fl.pacer.wait.isEmpty || !spaced d (packOf die)
      let h := if late then md d.hw R.FCH_PACE_WAITS (fun w => bumpFld w 0 32 1) else d.hw
      headJob die (fun j => { j with asked := true })
        (pacerMod (fun p => { p with wait := waitInsert (die, d.hw.time.toNat) p.wait }) { d with hw := h })

/-- TOKEN_GRANT: the first waiting request is granted, in order of arrival, within the limit and the spacing (R159, R160). -/
def tokenGrant (d : Dev) : Dev :=
  match d.fl.pacer.wait with
  | [] => d
  | (die, _) :: rest =>
    match (dieGet d die).pq with
    | j :: _ =>
      if !j.asked then pacerMod (fun p => { p with wait := rest }) d
      else if !tokenFree d || !spaced d (packOf die) then d
      else headJob die (fun j => { j with asked := false, token := true })
        (pacerMod (fun p => { p with wait := rest, inuse := p.inuse + 1 }) d)
    | [] => pacerMod (fun p => { p with wait := rest }) d

/-- A write of FCH_PACE_LIMIT; running operations go on (R161). -/
def paceLimitWrite (v : Word) (d : Dev) : Dev := { d with hw := wr d.hw R.FCH_PACE_LIMIT (v &&& 0xFFFF#32) }

/-! Starts (R43, R472). -/

/-- The pause in force on a channel in µs (R472): none during the power-fail flush. -/
def pauseOf (d : Dev) (c : Nat) : Nat :=
  if flushing d then 0
  else
    let fp := if d.therm.alert then 500 else tabGetD d.therm.fPause c 0
    let jp := if d.therm.jLevel = 2 then fld (rd d.hw R.THERM_JPAUSE) 0 10 else 0
    max fp jp

/-- An array operation starts on a channel: the pause before its next start begins (R472). -/
def startMark (c : Nat) (d : Dev) : Dev :=
  chanPut d c { chanGet d c with lastStart := d.hw.time, pauseOver := decide (pauseOf d c = 0) }

/-- A start is free of the thermal pause. -/
def pauseFree (d : Dev) (c : Nat) : Bool := (chanGet d c).pauseOver || decide (pauseOf d c = 0)

/-- THERMAL_PAUSE_END: the pause since the previous start has passed; the time is counted where a start waited (R472, R474). -/
def pauseEnd (c : Nat) (d : Dev) : Dev :=
  let x := chanGet d c
  if x.pauseOver then d
  else
    let waited := (List.range 32).any (fun i =>
      let y := dieGet d (32 * c + i)
      !y.rq.isEmpty || (match y.pq with | j :: _ => j.token | [] => false))
    let th := { d.therm with pauseTotal := d.therm.pauseTotal + (if waited then pauseOf d c else 0) }
    { chanPut d c { x with pauseOver := true } with therm := th }

/-- An array operation of a die with nothing run yet. -/
def arrNew (op : ArrOp) (j : Option FJob) (now : DWord) : ArrRun :=
  { op := op, job := j, suspended := false, suspending := false, since := now, ran := 0, suspends := 0, heldAt := 0#64,
    due := false, last := false, kennel := none, heldQ := [] }

/-- The commands that start a program or erase: every plane but the last by the multi-plane form (Table 5.2, R146). -/
def jobCmds (p : Profile) (j : FJob) : List FchCmd :=
  (if j.slc then [.slcPrefix] else [])
    ++ (if 1 < p.planes then [if j.erase then .eraseMulti else .programMulti] else []) ++ [if j.erase then .erase else .program]

/-- The state of a block's pilot wordline, where a job programs it (R239). -/
def pilotMark (die : Nat) (j : FJob) (v : Nat) (d : Dev) : Dev :=
  match j.serves with
  | .pilot _ => blkPut d die j.block { blkGet d die j.block with pilot := v }
  | _ => d

/-- Domain of the LDPC bank that holds the encoder of a die's channel (R205). -/
def encDom (die : Nat) : Nat := 87 + chOf die / 12

/-- What a job needs of the encoders and of XORU: a program takes an encoder, and a parity member's the sum that XORU accumulates; both run
while their EN is 1 (R206, R211, Tables 7.7, 7.19). -/
def encReady (d : Dev) (j : FJob) : Bool :=
  j.erase || (bit (rd d.hw R.LDPC_CTRL) 0 && (match j.serves with
    | .row sb row i => (match sbGet d sb with
      | some s => decide (i ≠ parityOf s row) || bit (rd d.hw R.XORU_CTRL) 0
      | none => true)
    | _ => true))

/-- OPERATION_START: the oldest program or erase holds its token, the pause and the spacing have passed, and it starts (R43,
R159). A program whose encoder's bank is not ON wakes it and waits (R205). -/
def opStart (die : Nat) (d : Dev) : Dev :=
  let x := dieGet d die
  match x.pq with
  | [] => d
  | j :: js =>
    if !j.token || !chanRuns d (chOf die) || !pauseFree d (chOf die) || !spaced d (packOf die) || !jobMay d die then d
    else if !encReady d j then d
    else if !j.erase && !domOn d.pwr (encDom die) then wakeReq (encDom die) 2 d
    else
      let d1 := startMark (chOf die) (pacerMod (fun p => { p with lastStart := tabPut p.lastStart (packOf die) d.hw.time }) d)
      diePut (busUse die (jobCmds (prof d) j) (pilotMark die j 1 d1)) die { x with
        pq := js, guard := false, arr := some (arrNew (if j.erase then .erase else .program) (some j) d.hw.time) }

/-- PWAIT_GUARD_EXPIRY: the oldest program or erase has waited PWAIT behind reads; it starts after the reads in progress, unless
a read with S0 deadline is queued (R126). -/
def pwaitExpiry (die : Nat) (d : Dev) : Dev :=
  let x := dieGet d die
  let n := fld (rd d.hw R.HERDER_PWAIT) 0 16
  match x.pq with
  | [] => d
  | j :: _ =>
    if decide (n = 0) || decide (d.hw.time.toNat < j.since.toNat + n * 2500) || x.guard || (x.rq.isEmpty && x.reading.isEmpty)
        || hasS0 d x then d
    else diePut { d with hw := irq d.hw irqHerder 5 } die { x with guard := true }

/-! Unit service ends (R168–R170). -/

/-- A die's new unit state, recorded, with an event (R169, R170, R527). -/
def dieStateSet (die st who : Nat) (d : Dev) : Dev :=
  let x := dieGet d die
  unitEvent 2 die st who (unitRecord 2 die st (diePut d die { x with st := st, leaving := none, returning := none }))

/-- The state of a channel whose dies have all ended their return, and MODE back to AUTO where the return forced its domain ON
(R169, R170). -/
def chanRetEnd (c : Nat) (d : Dev) : Dev :=
  let ds := (List.range 32).map (fun i => 32 * c + i)
  if ds.any (fun n => dieFitted d n && (dieGet d n).returning.isSome) then d
  else
    let x := chanGet d c
    let d1 := if x.forced then dctrlWrite (c + 1) (rd d.hw (R.PWR_DCTRL (c + 1)) &&& 0xC0#32) d else d
    let x1 := { (chanGet d1 c) with forced := false, returning := false }
    if x.returning then
      let st := if ds.any (fun n => dieFitted d n && decide ((dieGet d n).st = 1)) then 1 else 4
      unitEvent 1 c st 0 (unitRecord 1 c st (chanPut d1 c { x1 with st := st }))
    else chanPut d1 c x1

/-- A return ends: in state 0x01, in which a replica of the volume descriptor that its channel lacked is written, or in 0x04 with an error
bit; SVC_DONE is set (R169, R170, R259). -/
def retEnd (die : Nat) (ok : Bool) (errBit : Option Nat) (d : Dev) : Dev :=
  let c := chOf die
  let h1 := irq d.hw (irqFch c) 1
  let h2 := match errBit with | some b => irq h1 (irqFch c) b | none => h1
  let x := dieGet d die
  let d1 := diePut { d with hw := h2 } die { x with pq := x.pq.filter (fun j => match j.serves with | .retErase _ => false | _ => true) }
  let d2 := dieStateSet die (if ok then 1 else 4) 0 d1
  chanRetEnd c (if ok then volMend d2 else d2)

/-- A channel's take-out completes once all its LUNs have left (R168). -/
def chanLeaveCheck (c : Nat) (d : Dev) : Dev :=
  let y := chanGet d c
  match y.leaving with
  | none => d
  | some w =>
    if (List.range 32).any (fun i => (dieGet d (32 * c + i)).leaving.isSome) then d
    else unitEvent 1 c 2 w (unitRecord 1 c 2 (chanPut d c { y with st := 2, leaving := none }))

/-- A take-out completes once the last operation of the LUN has ended (R168); a channel's, once all its LUNs have. -/
def leaveCheck (die : Nat) (d : Dev) : Dev :=
  let x := dieGet d die
  match x.leaving with
  | none => d
  | some who =>
    if x.arr.isSome || !x.reading.isEmpty then d
    else chanLeaveCheck (chOf die) (dieStateSet die 2 who { d with hw := irq d.hw (irqFch (chOf die)) 1 })

/-! Bring-up (R155, R162, R163). -/

/-- Fitted dies of a target. -/
def targetDies (d : Dev) (c ce : Nat) : List Nat :=
  ((List.range 8).map (fun l => 32 * c + 8 * ce + l)).filter (fun n => dieFitted d n)

/-- Dies that bring-up and training await: in service or returning. -/
def awaited (d : Dev) (die : Nat) : Bool := decide ((dieGet d die).st = 1) || decide ((dieGet d die).st = 3)

/-- A channel has finished bring-up (R163). -/
def chanUpNow (d : Dev) (c : Nat) : Bool :=
  (List.range 4).all (fun ce =>
    let ds := (targetDies d c ce).filter (fun n => awaited d n)
    ds.isEmpty || (ds.all (fun n => (dieGet d n).ready) && !(chanGet d c).needTrain.getLsbD ce))

/-- BRINGUP_DONE of a channel, and DONE once every present channel has finished and no wave is left (R163). -/
def bringupCheck (c : Nat) (d : Dev) : Dev :=
  let x := chanGet d c
  let left := d.fl.pacer.waves.any (fun n => decide (chOf n = c))
  let d1 := if !x.up && !left && chanUpNow d c then
      { chanPut d c { x with up := true } with hw := irq d.hw (irqFch c) 2 } else d
  if d1.fl.pacer.waving && d1.fl.pacer.waves.isEmpty && (List.range (chCount d1.fuse)).all (fun k => (chanGet d1 k).up) then
    pacerMod (fun p => { p with waving := false }) { d1 with hw := md d1.hw R.FCH_PACE_BRINGUP (fun w => setBit w 30) }
  else d1

/-- Supported data rates in 100 MT/s (Table 5.1), highest first. -/
def ratesDown : List Nat := [36, 32, 28, 24, 16, 12, 8]

/-- Highest trained rate of a slew step (Table 5.3). -/
def slewCap (s : Nat) : Nat := match s with | 0 | 1 => 36 | 2 => 28 | _ => 16

/-- The rate a channel trains at: the profile's rate, or the highest of Table 5.1 within the slew cap (R164). -/
def trainRate (d : Dev) (c : Nat) : Nat :=
  let cap := slewCap (fld (rd d.hw (R.FCH_DRIVE c)) 0 2)
  if (prof d).rate ≤ cap then (prof d).rate else (ratesDown.find? (fun r => decide (r ≤ cap))).getD 8

/-- A target that has failed its training three times: TRAIN_FAIL, the event, and its awaited LUNs in state 0x04 (R155, R170). -/
def targetFail (c ce : Nat) (d : Dev) : Dev :=
  let x := chanGet d c
  let h := evUnit (irq d.hw (irqFch c) 9) (64 + c) 0x012 3 c ce 0
  let d1 := chanPut { d with hw := h } c { x with
    failed := x.failed ||| (1#4 <<< ce), trained := x.trained &&& ~~~(1#4 <<< ce), needTrain := x.needTrain &&& ~~~(1#4 <<< ce) }
  ((targetDies d c ce).filter (fun n => awaited d n)).foldl (fun y n =>
    if (dieGet y n).returning.isSome then retEnd n false (some 9) y else chanLeaveCheck c (dieStateSet n 4 1 y)) d1

/-- Calibrating and training a target: the interface settings, ZQ Calibration Long, and training at the channel's rate, which succeeds or
has failed three times (R144, R155). -/
def targetTrain (c ce : Nat) (ok : Bool) (d : Dev) : Dev :=
  let d1 := busUse (32 * c + 8 * ce) [.setFeatures, .zqLong] d
  let x := chanGet d1 c
  if ok then
    chanPut d1 c { x with
      rate := trainRate d c, trained := x.trained ||| (1#4 <<< ce), failed := x.failed &&& ~~~(1#4 <<< ce),
      needTrain := x.needTrain &&& ~~~(1#4 <<< ce), trainT := tabPut x.trainT ce x.pkgT }
  else targetFail c ce d1

/-! Retraining (R156, R157, R164). Whether a retraining succeeds is a free value (DESIGN CHOICE, log entry 102). -/

/-- Retraining one trained target: its settings and its reference temperature are those of now; one that fails three times fails with its
LUNs (R155, R156). -/
def retrainCe (c ce : Nat) (d : Dev) : Dev :=
  if (chanGet d c).trained.getLsbD ce then targetTrain c ce (decide (Config.freeNat d.hw.free % 2 = 1)) { d with hw := spend d.hw }
  else d

/-- Retraining every target of a channel that is ON (R156). -/
def retrainAll (c : Nat) (d : Dev) : Dev :=
  if domOn d.pwr (c + 1) then (List.range 4).foldl (fun x ce => retrainCe c ce x) d else d

/-- Retraining the targets of a channel that its wake has left to be retrained before their first transfer (R157). -/
def retrainWoken (c : Nat) (d : Dev) : Dev :=
  (List.range 4).foldl (fun x ce => if (chanGet x c).needTrain.getLsbD ce then retrainCe c ce x else x) d

/-- A target whose package temperature has moved TEMP_DELTA °C or more since its last training is retrained (R156). -/
def retrainTemp (c : Nat) (d : Dev) : Dev :=
  let x := chanGet d c
  let delta := fld (rd d.hw (R.FCH_TRAIN c)) 24 8
  if delta = 0 ∨ domOn d.pwr (c + 1) = false then d
  else (List.range 4).foldl (fun y ce =>
    if 10 * delta ≤ (x.pkgT - tabGetD x.trainT ce 250).natAbs then retrainCe c ce y else y) d

/-- A retraining asked for by RETRAIN or FCH_DRIVE: it runs and CAL_DONE is set (R156, R164). -/
def retrainAsked (c : Nat) (d : Dev) : Dev :=
  let d1 := retrainAll c d
  { d1 with hw := irq d1.hw (irqFch c) 0 }

/-- A write to FCH_CTRL: ZQ_AUTO; EN, ignored as 1 while PROF_OK = 0; RETRAIN starts a retraining and clears (R148, R156). -/
def fchCtrlWrite (c : Nat) (v : Word) (d : Dev) : Dev :=
  let old := rd d.hw (R.FCH_CTRL c)
  let en := if bit v 0 && !bit old 1 then bit old 0 else bit v 0
  let d1 := { d with hw := wr d.hw (R.FCH_CTRL c) (putBit (putBit old 3 (bit v 3)) 0 en) }
  if bit v 2 then retrainAsked c d1 else d1

/-- A write to FCH_DRIVE retrains every target (R164). -/
def fchDriveWrite (c : Nat) (v : Word) (d : Dev) : Dev :=
  retrainAsked c { d with hw := md d.hw (R.FCH_DRIVE c) (fun w => rwWrite 0x733#32 w v) }

/-- The ZQ interval has passed on a channel that is ON: each fitted target gets ZQ Calibration Short, where ZQ_AUTO is set and the
interval is not 0; a target due by temperature is retrained (R156). -/
def zqTimer (c : Nat) (d : Dev) : Dev :=
  if domOn d.pwr (c + 1) && bit (rd d.hw (R.FCH_CTRL c)) 3 && decide (fld (rd d.hw (R.FCH_TRAIN c)) 0 8 ≠ 0) then
    retrainTemp c (((List.range 4).filter (fun ce => !(targetDies d c ce).isEmpty)).foldl (fun x ce =>
      busUse (32 * c + 8 * ce) [.zqShort] x) d)
  else d

/-- FCH_TRAIN.PERIOD hours have passed: every target is retrained; 0 disables (R156). -/
def retrainPeriod (c : Nat) (d : Dev) : Dev :=
  if fld (rd d.hw (R.FCH_TRAIN c)) 8 16 = 0 then d else retrainAll c d

/-- Sending Reset (0xFF) to a die: whatever it ran ends; a die that is not awaited keeps its state and is not polled (R163). -/
def resetDie (n : Nat) (d : Dev) : Dev :=
  let x := dieGet d n
  let had := match x.arr with | some r => (match r.job with | some j => j.token | none => false) | none => false
  let d1 := busUse n [.reset] (tokenBack had d)
  diePut d1 n { x with arr := if awaited d n then some (arrNew .reset none d.hw.time) else none, ready := false, vec := [] }

/-- The dies of a wave set, by index within the channel, then Pack, then channel (R162). -/
def waveOrder (d : Dev) (want : Nat → Bool) : List Nat :=
  ((List.range 32).flatMap (fun i => (List.range (chCount d.fuse)).map (fun c => 32 * c + i))).filter
    (fun n => dieFitted d n && want n)

/-- Dies per wave; while WAVE_SIZE is 0 a return's waves hold one die (R162, R169). -/
def waveSize (d : Dev) : Nat := let n := fld (rd d.hw R.FCH_PACE_BRINGUP) 8 8; if n = 0 then 1 else n

/-- A returning die meets its reset wave: with no profile of matching checksum its return fails (R169, R170). -/
def waveDie (n : Nat) (d : Dev) : Dev :=
  if (dieGet d n).returning.isSome then
    let d1 := profReload (chOf n) d
    if bit (rd d1.hw (R.FCH_CTRL (chOf n))) 1 then resetDie n d1 else retEnd n false (some 14) d1
  else resetDie n d

/-- RESET_WAVE_START: the next wave's dies get Reset at once (R162). -/
def waveStart (d : Dev) : Dev :=
  let ws := d.fl.pacer.waves
  if ws.isEmpty then d
  else
    let now := ws.take (waveSize d)
    let gap := fld (rd d.hw R.FCH_PACE_BRINGUP) 0 8 * 25
    let d1 := pacerMod (fun p => { p with waves := ws.drop (waveSize d), nextWave := p.nextWave + BitVec.ofNat 64 gap }) d
    let d2 := now.foldl (fun x n => waveDie n x) d1
    let cs := if (ws.drop (waveSize d)).isEmpty then List.range (chCount d.fuse) else (now.map (fun n => chOf n)).eraseDups
    cs.foldl (fun x c => bringupCheck c x) d2

/-- BRINGUP_START: a write to FCH_PACE_BRINGUP; START with WAVE_SIZE = 0 is refused with ZERO_LEN, else the waves begin with the
first (R162, Table 5.20). -/
def bringupWrite (v : Word) (d : Dev) : Dev :=
  let d1 := { d with hw := md d.hw R.FCH_PACE_BRINGUP (fun w => rwWrite 0xFFFF#32 w v) }
  if !bit v 31 then d1
  else if fld v 8 8 = 0 then { d1 with hw := md d1.hw R.FCH_PACE_BRINGUP (fun w => putFld w 16 4 1) }
  else
    let d2 := { d1 with hw := md d1.hw R.FCH_PACE_BRINGUP (fun w => clrBit (putFld w 16 4 0) 30) }
    let chans := (List.range (chCount d.fuse)).foldl (fun (t : List (Nat × Chan)) c =>
      tabPut t c { (chanGet d c) with up := false, trained := 0#4, failed := 0#4, needTrain := 0xF#4 }) d2.fl.chans
    let pc : Pacer := { d2.fl.pacer with waves := waveOrder d2 (fun _ => true), nextWave := d2.hw.time, waving := true }
    waveStart { d2 with fl := { d2.fl with chans := chans, pacer := pc } }

/-! Programs and their ends (R151, R228–R231). -/

/-- Bin index of a block for a read now (R180): pe, age and temperature bands. -/
def binIndex (d : Dev) (die b : Nat) : Nat :=
  let x := blkGet d die b
  let n := (prof d).npe
  let e := 16 * x.erases
  let pe := if e < n then 0 else if e < 2 * n then 1 else if e < 4 * n then 2 else if e < 6 * n then 3 else if e < 8 * n then 4
    else if e < 12 * n then 5 else if e < 16 * n then 6 else 7
  let a := d.aff.mtime - x.opened
  let age := if a < 86400 then 0 else if a < 604800 then 1 else if a < 2592000 then 2 else if a < 15552000 then 3
    else if a < 63115200 then 4 else if a < 157788000 then 5 else if a < 473364000 then 6 else 7
  let t := (chanGet d (chOf die)).pkgT
  let temp := if t < 100 then 0 else if t < 400 then 1 else if t < 700 then 2 else 3
  32 * pe + 4 * age + temp

/-- A run in deadline order among the runs of a queue. -/
def insertRun (d : Dev) (r : Nat) (dl : Nat) : List Nat → List Nat
  | [] => [r]
  | x :: xs =>
    let dx := match runGet d x with | some q => q.deadline | none => 0
    if dl < dx then r :: x :: xs else x :: insertRun d r dl xs

/-- Reads that have chosen to wait are to be decided again (R133). -/
def reask (rs : List Nat) (d : Dev) : Dev :=
  { d with fl := { d.fl with runs := d.fl.runs.map (fun q =>
      if q.2.st = .waiting ∧ rs.contains q.1 = true then (q.1, { q.2 with st := .again }) else q) } }

/-- A run joins a die's read queue; the waiting reads that it joins ahead of are decided again (R125, R133). -/
def rqInsert (r : Nat) (x : Run) (d : Dev) : Dev :=
  let y := dieGet d x.loc.die
  let q := insertRun d r x.deadline y.rq
  reask ((q.dropWhile (fun n => decide (n ≠ r))).drop 1) (diePut d x.loc.die { y with rq := q })

/-- A run joins its die's read queue, or its Pack's overflow queue when the die's holds 255 (R125). -/
def runQueue (r : Nat) (d : Dev) : Dev :=
  match runGet d r with
  | none => d
  | some x =>
    let d1 := runPut d r { x with st := .queued, since := d.hw.time.toNat }
    if (dieGet d x.loc.die).rq.length < 255 then rqInsert r x d1
    else
      let p := packOf x.loc.die
      { d1 with fl := { d1.fl with overflow := tabPut d1.fl.overflow p (insertRun d1 r x.deadline (tabGetD d1.fl.overflow p [])) } }

/-- Overflow reads of a die join its queue while entries are free (R125). -/
def overflowFill (die : Nat) : Nat → Dev → Dev
  | 0, d => d
  | n + 1, d =>
    let p := packOf die
    let q := tabGetD d.fl.overflow p []
    match q.find? (fun r => match runGet d r with | some x => decide (x.loc.die = die) | none => false) with
    | none => d
    | some r => match runGet d r with
      | none => d
      | some x =>
        if (dieGet d die).rq.length < 255 then
          overflowFill die n (rqInsert r x
            { d with fl := { d.fl with overflow := tabPut d.fl.overflow p (q.filter (fun n => decide (n ≠ r))) } })
        else d

/-- A run leaves its die's read queue, and overflow reads take the free entries (R125). -/
def rqDrop (r die : Nat) (d : Dev) : Dev :=
  let y := dieGet d die
  overflowFill die 255 (diePut d die { y with rq := y.rq.filter (fun q => decide (q ≠ r)) })

/-- A new run, queued at its die; its number is answered. -/
def runNew (x : Run) (d : Dev) : Nat × Dev :=
  let r := d.fl.nextRun
  (r, runQueue r (runPut { d with fl := { d.fl with nextRun := r + 1 } } r x))

/-- A run at a location, at step 0. -/
def runAt (d : Dev) (serves : RunFor) (loc : Loc) (sb k cls deadline : Nat) (slc : Bool) : Run :=
  { serves := serves, st := .queued, loc := loc, sb := sb, k := k, seqLo := none, lba := 0, nsid := 0, kennel := 0, cls := cls,
    deadline := deadline, step := 0, stepAt := d.hw.time.toNat, sub := 0, used := [], vec := [], sweep := [], edges := [], dec := none,
    decNot := none, inHard := [], inLlr := [], sent := false, depth := 0, slc := slc, bin := binIndex d loc.die loc.block,
    ent := [], points := 5, spacing := 2, since := d.hw.time.toNat, avoid := none, det := none,
    members := [], lostMember := false, attached := [], data := 0, lost := false }

/-- Deadline of internal reads: class S3's, from now (R119, Table 4.1). -/
def s3Deadline (d : Dev) : Nat := d.hw.time.toNat + 25000000

/-- The read-after-write samples of a programmed wordline: regular samples by the die's counter, and every page on plane
(row mod P) of the parity member's wordline (R228). Answers how many the row's release waits for. -/
def rawSamples (die b wl sb row member : Nat) (slc : Bool) (lastWl : Bool) (d : Dev) : Nat × Dev :=
  let p := prof d
  let pages := if slc then 1 else p.bpc
  let n := fld (rd d.hw R.LDPC_RAW_CTRL) 0 7
  let c := (dieGet d die).rawCount
  let units := (List.range (p.planes * pages)).filter (fun i => decide ((c + i) * n / 64 < (c + i + 1) * n / 64))
  let regular := units.map (fun i => (i % p.planes, i / p.planes))
  let last := if lastWl then (List.range pages).map (fun g => (row % p.planes, g)) else []
  let all := (regular ++ last).eraseDups
  let x := dieGet d die
  let d1 := diePut d die { x with rawCount := c + p.planes * pages }
  let d2 := all.foldl (fun y q =>
    let loc : Loc := { die := die, block := b, wl := wl, page := q.2, plane := q.1, slot := 0 }
    (runNew (runAt y (.raw sb row member lastWl) loc sb 0 3 (s3Deadline y) slc) y).2) d1
  (all.length, d2)

/-- The samples of a pilot wordline: every plane (R228). -/
def pilotSamples (die b sb : Nat) (slc : Bool) (d : Dev) : Dev :=
  (List.range (prof d).planes).foldl (fun y pl =>
    let loc : Loc := { die := die, block := b, wl := 0, page := 0, plane := pl, slot := 0 }
    (runNew (runAt y (.raw sb 0 0 false) loc sb 0 3 (s3Deadline y) slc) y).2) d

/-- Units of DRAM programmed by a member's wordline become copies on the media. -/
def unitsProgram (sb : Nat) (ks : List Nat) (d : Dev) : Dev :=
  let parked := fun (k : Nat) => match sbGet d sb with
    | some s => if s.type = 1 then (parkedAt d s.nsid (s.zslba + k)).map (fun q => { q.2 with parked := false }) else none
    | none => none
  let copies := ks.foldl (fun t k => match tabGet d.med.staged (uk sb k) with
    | some c => tabPut t (uk sb k) c
    | none => match parked k with | some c => tabPut t (uk sb k) c | none => t) d.med.copies
  { d with med := { d.med with copies := copies } }

/-- Member index whose block, for some row, is this one. -/
def memberOfBlk (s : Sb) (die b : Nat) : Option Nat :=
  match (List.range s.members.length).find? (fun i => decide (s.members.getD i (0, 0) = (die, b))) with
  | some i => some i
  | none => (s.replaced.find? (fun q => decide (q.2.2 = (die, b)))).map (fun q => q.1)

/-- A block is closed to further programs and flagged suspect (R231, step 2). -/
def blkSuspect (die b : Nat) (d : Dev) : Dev :=
  blkPut d die b { blkGet d die b with st := .closed, suspect := true }

/-- Steps 2 to 5 of R231: the block is suspect, and queued urgent for refresh where it holds data (Table 10.2); a replacement from the die's
free blocks or reserve takes the member over from the
failed row; that row, and any later row already programmed into the block, is programmed again from DRAM or the media; every
earlier row is read back in full at S3. -/
def memberFail (die b sb row member : Nat) (d : Dev) : Dev :=
  let d0 := blkSuspect die b d
  let d1 := if row = 0 then d0 else refQueue (die * 4096 + b) true none d0
  match sbGet d1 sb, blkFor { d1 with med := { d1.med with floored := [] } } false die with
  | some s, some nb =>
    let slc := sbSlc s
    let queued := (dieGet d1 die).pq.filterMap (fun j => match j.serves with
      | .row sb' r i => if sb' = sb ∧ i = member then some r else none | _ => none)
    let later := ((s.rowsDone ++ s.rowWait.map (fun q => q.1)).eraseDups).filter (fun r => decide (row ≤ r) && !queued.contains r)
    let again := if later.contains row || queued.contains row then later else row :: later
    let d2 := memberReplace sb member row die b (die, nb) d1
    let d3 := again.foldl (fun x r => jobAdd die (.row sb r member) false slc nb (r + 1) x) d2
    (List.range row).foldl (fun x r =>
      (memberKs x s r member).foldl (fun y k =>
        if (tabGet y.med.copies (uk sb k)).isSome then
          (runNew (runAt y .scan (locOf y s k) sb k 3 (s3Deadline y) slc) y).2 else y) x) d3
  | _, _ => d1

/-- A pilot wordline that fails discards its block before any data is programmed; the block is retired and another takes the
member's place (R231). -/
def pilotFail (die b sb : Nat) (d : Dev) : Dev :=
  match sbGet d sb with
  | none => blkRetire die b d
  | some s =>
    match memberOfBlk s die b, blkFor d false die with
    | some i, some nb => blkRetire die b (memberReplace sb i 0 die b (die, nb) d)
    | _, _ => blkRetire die b d

/-- A program ends. Pass: its units are on the media and its samples are queued. Fail: PROG_FAIL, the count, and recovery from
the DRAM copy (R103, R151, R228, R231). Nothing is sampled during the dump (R464). -/
def programEnd (die : Nat) (j : FJob) (pass : Bool) (d : Dev) : Dev :=
  let c := chOf die
  let d0 := if pass then d else
    let x := dieGet d die
    diePut { d with hw := irq d.hw (irqFch c) 11 } die { x with progFails := satAdd 16 x.progFails 1 }
  match j.serves with
  | .row sb row member =>
    match sbGet d0 sb with
    | none => d0
    | some s =>
      if pass then
        let lastWl := decide (member = parityOf s row)
        let d1 := unitsProgram sb (memberKs d0 s row member) d0
        let r := if flushing d0 then (0, d1) else rawSamples die j.block j.wl sb row member j.slc lastWl d1
        let done := (match sbGet r.2 sb with | some s1 => s1.rowsDone.contains row | none => false)
        if done then
          { r.2 with med := { r.2.med with staged := r.2.med.staged.filter (fun q =>
              !((memberKs r.2 s row member).map (fun k => uk sb k)).contains q.1) } }
        else rowStep sb row (rowHold sb row r.1 r.2)
      else memberFail die j.block sb row member d0
  | .pilot sb =>
    if pass then
      let d1 := pilotMark die j 2 d0
      if flushing d0 then d1 else pilotSamples die j.block sb j.slc d1
    else pilotFail die j.block sb d0
  | _ => d0

/-- A block after its erase passed: free with its count raised; retired instead when it was suspect or has reached its wear
limit (R326, R327). Running collection goes on (R286). -/
def eraseDone (die b : Nat) (d : Dev) : Dev :=
  let x := blkGet d die b
  let n := x.erases + 1
  let lim := fld (rd d.hw R.AFFINEUR_WEAR) 16 16
  let d1 := blkPut d die b { Blk.init with erases := n, urgents := x.urgents }
  gcAgain (if x.suspect || (decide (lim ≠ 0) && decide (lim * (prof d).npe ≤ 100 * n)) then blkRetire die b d1 else d1)

/-- A secure erase: its block is awaited by a secure operation that has begun; such an erase is verified (R110, R112). -/
def eraseSecure (d : Dev) (die b : Nat) : Bool := d.med.secure.any (fun o => o.blocks.contains (die, b))

/-- The next block that a return erases, from `b` upward: retired blocks are skipped (R169, R327). -/
def retNext (die b ret : Nat) (d : Dev) : Dev :=
  match ((List.range ((prof d).nblk - b)).map (fun i => b + i)).find? (fun k => decide ((blkGet d die k).st ≠ .retired)) with
  | some k =>
    jobAdd die (.retErase false) true false k 0 (diePut d die { (dieGet d die) with returning := some (k, ret) })
  | none => retEnd die true none d

/-- A return's erase ends: erase-verified, erased once more, or retired; more than 10 % retired fails the return (R169, R170). -/
def retErased (die : Nat) (j : FJob) (again ok : Bool) (d : Dev) : Dev :=
  match (dieGet d die).returning with
  | none => d
  | some (b, ret) =>
    if ok then
      let x := blkGet d die j.block
      retNext die (b + 1) ret (blkPut d die j.block { Blk.init with erases := x.erases + 1, urgents := x.urgents })
    else if !again then jobAdd die (.retErase true) true j.slc j.block 0 d
    else
      let d1 := blkRetire die j.block d
      if (prof d).nblk < 10 * (ret + 1) then retEnd die false (some 13) d1 else retNext die (b + 1) (ret + 1) d1

/-- An erase ends (R151, R112, R169). `verified` is the erase-verify of a secure erase or a return. -/
def eraseEnd (die : Nat) (j : FJob) (pass verified : Bool) (d : Dev) : Dev :=
  let c := chOf die
  let d0 := if pass then d else
    let x := dieGet d die
    diePut { d with hw := irq d.hw (irqFch c) 12 } die { x with eraseFails := satAdd 16 x.eraseFails 1 }
  match j.serves with
  | .retErase again => retErased die j again (pass && verified) d0
  | .erase again =>
    if !pass then blkRetire die j.block d0
    else if eraseSecure d0 die j.block && !verified then
      if again then blkRetire die j.block d0 else jobAdd die (.erase true) true j.slc j.block 0 d0
    else placeLoose (eraseDone die j.block d0)
  | _ => d0

/-- Training the targets of a channel that wait for it, in CE order: one whose awaited LUNs are not all ready holds back those after it.
The returning dies of a trained target begin their erases (R155, R169). `ok` says of each target whether its training succeeds. -/
def trainFrom (c : Nat) (ok : BitVec 4) : List Nat → Dev → Dev
  | [], d => d
  | ce :: rest, d =>
    let ds := (targetDies d c ce).filter (fun n => awaited d n)
    if !(chanGet d c).needTrain.getLsbD ce || ds.isEmpty then trainFrom c ok rest d
    else if !ds.all (fun n => (dieGet d n).ready) then d
    else
      let d1 := targetTrain c ce (ok.getLsbD ce) d
      trainFrom c ok rest (if ok.getLsbD ce then ds.foldl (fun x n =>
          match (dieGet x n).returning with
          | some (0, 0) => if (dieGet x n).pq.isEmpty then retNext n 0 0 x else x
          | _ => x) d1
        else d1)

/-- A reset ends on a LUN: it is ready; a returning die's identity is checked; targets whose LUNs are all ready are trained (R155, R163,
R169, R170). -/
def resetEnd (die : Nat) (idOk : Bool) (ok : BitVec 4) (d : Dev) : Dev :=
  let c := chOf die
  let d1 := diePut d die { (dieGet d die) with ready := true }
  let d2 := if (dieGet d1 die).returning.isSome then
      (if idOk then busUse die [.readId, .readParameterPage] d1 else retEnd die false (some 10) (busUse die [.readId, .readParameterPage] d1))
    else d1
  bringupCheck c (trainFrom c ok (List.range 4) d2)

/-- The array operation of a LUN ends with a ready poll: its token is returned and its result handled (R158). A suspended
operation does not end; one whose suspend the die has not reported ends without the suspend counting (R134). A Reset LUN that followed a
timed-out Reset makes the LUN ready (R150, R163). -/
def arrEnd (die : Nat) (pass idOk : Bool) (trainOk : BitVec 4) (verified : Bool) (d : Dev) : Dev :=
  let x := dieGet d die
  match x.arr with
  | none => d
  | some r =>
    if r.suspended then d
    else
      let had := match r.job with | some j => j.token | none => false
      let d1 := tokenBack had (diePut d die { x with arr := none })
      let d2 := match r.op, r.job with
        | .program, some j => programEnd die j pass d1
        | .erase, some j => eraseEnd die j pass verified d1
        | .reset, _ => resetEnd die idOk trainOk d1
        | .resetLun, _ => if x.ready then d1 else resetEnd die idOk trainOk d1
        | _, _ => d1
      leaveCheck die d2

/-! Timeouts (R150). -/

/-- Operation code of FCH_LSTAT.OP (Table 5.14). -/
def opCode (x : Die) : Nat :=
  match x.arr with
  | some r => (match r.op with
    | .read => 1
    | .program => if r.suspended then 4 else 2
    | .erase => if r.suspended then 5 else 3
    | _ => 6)
  | none => if x.reading.isEmpty then 0 else 1

/-- The state code of a die (Table 4.3). A reset or training in progress is no array operation of the table and reads IDLE. -/
def dieCode (d : Dev) (n : Nat) : Nat :=
  let x := dieGet d n
  if 32 * chCount d.fuse ≤ n ∨ !dieFitted d n then 0xF
  else if x.st = 2 ∨ x.st = 4 ∨ x.st = 5 then 7
  else if (domGet d.pwr (chOf n + 1)).st = .waking then 6
  else match x.arr with
    | some r => match r.op with
      | .program => if r.suspended then 4 else 2
      | .erase => if r.suspended then 5 else 3
      | _ => 0
    | none => if x.reading.isEmpty then 0 else 1

/-- Programs and erases not yet started leave a die's queue: programs for rows go on at their replacements, or are dropped with
their tokens (R168). -/
def pqDrop (die : Nat) (d : Dev) : Dev :=
  let x := dieGet d die
  let held := (x.pq.filter (fun j => j.token)).length
  pacerMod (fun p => { p with inuse := p.inuse - held, wait := p.wait.filter (fun q => decide (q.1 ≠ die)) })
    (diePut d die { x with pq := [] })

/-- A die leaves service: its data begins to be rebuilt, its queued programs move to the replacements, and it enters state 0x02
once its operations end (R72, R168). A suspended operation is resumed first, once no read is in progress (R154). A take-out by the
controller that meets a host's is one take-out, whose source is the controller (Table 5.6). -/
def dieTakeOut (die who : Nat) (d : Dev) : Dev :=
  let x := dieGet d die
  match x.leaving with
  | some _ => if who = 1 then diePut d die { x with leaving := some 1 } else d
  | none =>
    let arr := x.arr.map (fun r =>
      if !r.suspended then r
      else if x.reading.isEmpty then { r with suspended := false, due := false, since := d.hw.time }
      else { r with due := true })
    let d1 := unitRecord 2 die 2 (diePut d die { x with leaving := some who, arr := arr, returning := none })
    leaveCheck die (pqDrop die (rebuildStart die d1))

/-- Device-time ticks in 24 hours. -/
def day : Nat := 2160000000000

/-- The failed operation of a timeout: a program is recovered from its DRAM copy, an erase is retried once and then its block is
retired, a return's erase likewise (R103, R150, R327). -/
def timeoutJob (die : Nat) (j : FJob) (d : Dev) : Dev :=
  match j.serves with
  | .row sb row member => memberFail die j.block sb row member d
  | .pilot sb => pilotFail die j.block sb d
  | .erase again => if again then blkRetire die j.block d else jobAdd die (.erase true) true j.slc j.block 0 d
  | .retErase _ => d

/-- The operation of a LUN, or a read in progress on it, has not ended within twice its maximum; time spent suspended does not count
(R150). -/
def timedOut (d : Dev) (x : Die) : Bool :=
  match x.arr with
  | some a =>
    if a.suspended then (arrReads d x).any (fun r => match runGet d r with
      | some q => decide (2 * readNs d q ≤ sinceNs d q.since) | none => false)
    else decide (2 * opMaxNs (prof d) a ≤ ranNs d a)
  | none => (arrReads d x).any (fun r => match runGet d r with
      | some q => decide (2 * readNs d q ≤ sinceNs d q.since) | none => false)

/-- DIE_TIMEOUT of an array operation, or of a read: Reset LUN, DIE_TIMEOUT, the event; the operation failed, and so has every other one
that the Reset LUN aborts (DEDUCED, log entry 101); a Reset or Reset LUN gets one more Reset LUN and then fails the LUN; three in 24 h take
the LUN out; a return in progress fails (R150, R163, R168, R170, Tables 5.6, 5.22). `ok` says of each target that can be trained now whether
its training succeeds. Answers the reads that failed. -/
def dieTimeout (die : Nat) (ok : BitVec 4) (d : Dev) : List Nat × Dev :=
  let x := dieGet d die
  let c := chOf die
  if !timedOut d x then ([], d)
  else
    let now := d.hw.time.toNat
    let ts := (x.timeouts.filter (fun t => decide (now < t + day))) ++ [now]
    let reads := arrReads d x
    let code := match x.arr with | some a => if a.suspended then 1 else opCode x | none => opCode x
    let h := evUnit (irq d.hw (irqFch c) 8) (64 + c) 0x010 3 die code ts.length
    let last := match x.arr with | some r => r.last | none => false
    let isReset := match x.arr with | some r => (match r.op with | .reset | .resetLun => true | _ => false) | none => false
    let had := match x.arr with | some r => (match r.job with | some j => j.token | none => false) | none => false
    let job := match x.arr with | some r => r.job | none => none
    let rl := { arrNew .resetLun none d.hw.time with last := isReset }
    let d1 := tokenBack had (diePut { d with hw := h } die
      { x with timeouts := ts, arr := if last then none else some rl, reading := x.reading.filter (fun r => !reads.contains r), vec := [] })
    let d2 := match job with | some j => timeoutJob die j (busUse die [.resetLun] d1) | none => busUse die [.resetLun] d1
    let d3 := if x.returning.isSome then retEnd die false (some 8) d2
      else if last then chanLeaveCheck c (dieStateSet die 4 1 (pqDrop die d2))
      else if 3 ≤ ts.length ∧ x.st = 1 then dieTakeOut die 1 d2
      else d2
    (reads, if last then bringupCheck c (trainFrom c ok (List.range 4) d3) else d3)

/-! Unit Service on channels and dies (R72, R168–R171). -/

/-- A stripe that holds valid data on one of some dies already lacks a member: a block that holds a row of it lies on another die that is
out of service or leaving it (R72). -/
def stripeLacks (d : Dev) (dies : List Nat) : Bool :=
  d.med.sbs.any (fun q =>
    let rows := (d.med.copies.filter (fun c => decide (c.1 / 4294967296 = q.1) && !c.2.pad)).map (fun c => rowOf d q.2 (c.1 % 4294967296))
    rows.eraseDups.any (fun r =>
      let bs := (List.range q.2.members.length).map (fun i => (memberBlk q.2 r i).1)
      bs.any (fun n => dies.contains n)
        && bs.any (fun n => !dies.contains n && (decide ((dieGet d n).st ≠ 1) || (dieGet d n).leaving.isSome))))

/-- Take-out of a die: accepted from in service or returning (R72, Table 5.6). -/
def takeOutDie (c : Src) (n : Nat) (d : Dev) : Dev :=
  let x := dieGet d n
  if !dieFitted d n then adminDone c .unitAbsent 0 [] d
  else if x.st ≠ 1 ∧ x.st ≠ 3 then adminDone c .unitStateConflict x.st [] d
  else if x.st = 1 ∧ stripeLacks d [n] = true then adminDone c .unitStateConflict x.st [] d
  else
    let d1 := dieTakeOut n 0 d
    adminDone c .success (dieGet d1 n).st [] d1

/-- Take-out of a channel: the same for all its LUNs (R168, R171). A second take-out of a channel that is still leaving gives Unit State
Conflict, though its state reads 0x01; a die's is accepted once more (DESIGN CHOICE, log entry 105). -/
def takeOutChan (c : Src) (k : Nat) (d : Dev) : Dev :=
  let x := chanGet d k
  let ds := ((List.range 32).map (fun i => 32 * k + i)).filter (fun n => dieFitted d n)
  if chCount d.fuse ≤ k then adminDone c .unitAbsent 0 [] d
  else if (x.st ≠ 1 ∧ x.st ≠ 3) ∨ x.leaving.isSome = true then adminDone c .unitStateConflict x.st [] d
  else if stripeLacks d (ds.filter (fun n => decide ((dieGet d n).st = 1))) then adminDone c .unitStateConflict x.st [] d
  else
    let d1 := unitRecord 1 k 2 (chanPut d k { x with leaving := some 0, returning := false })
    let live := ds.filter (fun n => decide ((dieGet d1 n).st = 1) || decide ((dieGet d1 n).st = 3))
    let d2 := live.foldl (fun y n => dieTakeOut n 0 y) d1
    let d3 := if live.isEmpty then chanLeaveCheck k { d2 with hw := irq d2.hw (irqFch k) 1 } else d2
    adminDone c .success (chanGet d3 k).st [] d3

/-- Return of some dies of a channel begins: the domain is forced ON where it is not, and the reset waves are queued; their targets will be
trained again (R169). A unit that was failed records 0x02 from now on, as which a reset in mid-return leaves it (R527, Table 5.6). -/
def returnDies (k : Nat) (ds : List Nat) (d : Dev) : Dev :=
  let d1 := if domOn d.pwr (k + 1) then d
    else
      let x := chanGet d k
      dctrlWrite (k + 1) (putFld (rd d.hw (R.PWR_DCTRL (k + 1))) 0 2 1) (chanPut d k { x with forced := true })
  let d2 := ds.foldl (fun y n =>
    unitRecord 2 n 2 (diePut y n { (dieGet y n) with st := 3, returning := some (0, 0), ready := false })) d1
  let y := chanGet d2 k
  let d3 := chanPut d2 k { y with needTrain := ds.foldl (fun m n => m ||| (1#4 <<< (n % 32 / 8))) y.needTrain }
  let ws := waveOrder d3 (fun n => ds.contains n)
  pacerMod (fun p => { p with waves := p.waves ++ ws, nextWave := if p.waves.isEmpty then d3.hw.time else p.nextWave }) d3

/-- Return of a die: accepted from out of service or failed, on a channel in service (R72, R170, Table 5.6). -/
def returnDie (c : Src) (n : Nat) (d : Dev) : Dev :=
  let x := dieGet d n
  if !dieFitted d n then adminDone c .unitAbsent 0 [] d
  else if (x.st ≠ 2 ∧ x.st ≠ 4) ∨ (chanGet d (chOf n)).st ≠ 1 then adminDone c .unitStateConflict x.st [] d
  else adminDone c .success 3 [] (returnDies (chOf n) [n] d)

/-- Return of a channel: its dies that are out of service or failed return with it (R169, R170). -/
def returnChan (c : Src) (k : Nat) (d : Dev) : Dev :=
  let x := chanGet d k
  let ds := ((List.range 32).map (fun i => 32 * k + i)).filter (fun n => dieFitted d n
    && (decide ((dieGet d n).st = 2) || decide ((dieGet d n).st = 4)))
  if chCount d.fuse ≤ k then adminDone c .unitAbsent 0 [] d
  else if x.st ≠ 2 ∧ x.st ≠ 4 then adminDone c .unitStateConflict x.st [] d
  else
    let d1 := returnDies k ds (unitRecord 1 k 2 (chanPut d k { x with st := 3, returning := true, trained := 0#4, failed := 0#4 }))
    adminDone c .success 3 [] (if ds.isEmpty then chanRetEnd k d1 else d1)

/-- FCH_STAT (Table 5.9). -/
def fchStat (d : Dev) (c : Nat) : Word :=
  let x := chanGet d c
  BitVec.ofNat 32 (x.rate * 16777216 + x.trained.toNat * 65536 + (if c < chCount d.fuse then x.st else 0))

/-- FCH_LSTAT of the LUN that FCH_LSEL selects (Table 5.14). -/
def fchLstat (d : Dev) (c : Nat) : Word :=
  let n := 32 * c + fld (rd d.hw (R.FCH_LSEL c)) 0 5
  let x := dieGet d n
  let ts := (x.timeouts.filter (fun t => decide (d.hw.time.toNat < t + day))).length
  BitVec.ofNat 32 (min 255 ts * 65536 + opCode x * 256 + dieState d n)

/-- FCH_LERR of the LUN that FCH_LSEL selects (Table 5.15). -/
def fchLerr (d : Dev) (c : Nat) : Word :=
  let x := dieGet d (32 * c + fld (rd d.hw (R.FCH_LSEL c)) 0 5)
  BitVec.ofNat 32 (x.progFails * 65536 + x.eraseFails)

end Sys2Proof.Machine
end

