-- ==== Sys2Proof/Machine/Detector.lean ====
section
/-!
DEFINITION. The cell read channel: drift-bin entries (R180–R183), the pilot wordline (R240–R243), the computations of the detector modes
(R178, R179, R187,
R188, R190–R195), and the detector pool with its self-test, take-out and return (R72, R197–R201, R203).
-/

namespace Sys2Proof.Machine

/-! Drift-bin entries (R181–R183). -/

/-- A byte of an entry; an entry too short holds 0 there. -/
def byteAt (e : List Byte) (i : Nat) : Nat := (e.getD i 0#8).toNat

/-- A signed byte of an entry. -/
def sbyteAt (e : List Byte) (i : Nat) : Int := (e.getD i 0#8).toInt

/-- An entry's CRC matches (Table 6.4). -/
def entCrcOk (e : List Byte) : Bool := decide (e.length = 64) && decide (leNat (e.drop 60) = (crc32c (e.take 60)).toNat)

/-- The copy of a slot that R182 selects by CRC and GEN; none where neither matches its CRC. -/
def entSelect (slot : List Byte) : Option (List Byte) :=
  let a := slot.take 64
  let b := (slot.drop 64).take 64
  match entCrcOk a, entCrcOk b with
  | true, true => if byteAt b 7 = (byteAt a 7 + 1) % 256 then some b else some a
  | true, false => some a
  | false, true => some b
  | false, false => none

/-- The entry of a slot where it is usable (R183). -/
def entUsable (slot : List Byte) : Option (List Byte) :=
  match entSelect slot with
  | some e => if (e.getD 1 0#8).getLsbD 0 && decide (1 ≤ byteAt e 2) && decide (byteAt e 2 ≤ 8) then some e else none
  | none => none

/-! Fields of the entry in use; the empty entry stands for the fallback values of R183. -/

/-- Strobe step Δ. -/
def entDelta (e : List Byte) : Nat := if e.isEmpty then 2 else byteAt e 2
/-- MHARD. -/
def entMhard (e : List Byte) : Nat := if e.isEmpty then 12 else byteAt e 3
/-- SLOPE_K. -/
def entSlope (e : List Byte) : Nat := if e.isEmpty then 512 else byteAt e 4 + 256 * byteAt e 5
/-- ASYM. -/
def entAsym (e : List Byte) : Nat := if e.isEmpty then 64 else byteAt e 6
/-- Offset of threshold `j`; threshold 0 is the single one of SLC-mode pages. -/
def entOffset (e : List Byte) (j : Nat) : Int := if e.isEmpty then 0 else if j = 0 then sbyteAt e 47 else sbyteAt e (15 + j)
/-- Coupling from wordline n − 1 of class `c`, in quarter steps. -/
def entAlpha (e : List Byte) (c : Nat) : Int := if e.isEmpty then 0 else sbyteAt e (48 + c)
/-- Coupling from wordline n + 1 of class `c`, in quarter steps. -/
def entBeta (e : List Byte) (c : Nat) : Int := if e.isEmpty then 0 else sbyteAt e (52 + c)

/-- Base address of the drift-bin table. -/
def binBase (h : Hw) : Nat := (rd h R.DET_BIN_BASE_LO).toNat + 0x100000000 * fld (rd h R.DET_BIN_BASE_HI) 0 16

/-- What master `m` reads as the entry of bin `i` (R182, R183): empty, for the fallback values, where the fabric refuses the access or the
entry is unusable. A refusal is counted at its target. A channel sequencer reads entries with its own master ID, 32 + n, and meets the
fallback alike (DEDUCED, log entry 107). -/
def entRead (m i : Nat) (d : Dev) : List Byte × Dev :=
  let a := binBase d.hw + 128 * i
  match unitPass d m .read a 128 with
  | .ok => let r := unitRead m a 128 d; ((r.1.bind entUsable).getD [], r.2)
  | .refused st b n => ([], unitRefuse m .read st b n d)
  | .waits _ => ([], d)

/-- The closed domain that master `m`'s read of bin `i` waits for. -/
def entGate (d : Dev) (m i : Nat) : Option Nat :=
  match unitPass d m .read (binBase d.hw + 128 * i) 128 with
  | .waits n => some n
  | _ => none

/-- The entry of bin `i` as channel `c`'s sequencer finds it now. -/
def binEntry (d : Dev) (c i : Nat) : List Byte := (entRead (32 + c) i d).1

/-! The pilot wordline (R240–R243). -/

/-- One step of the pilot generator (R241). -/
def pilotNext (x : Word) : Word :=
  let a := x ^^^ (x <<< 13)
  let b := a ^^^ (a >>> 17)
  b ^^^ (b <<< 5)

/-- A list with two places exchanged. -/
def listSwap (a : List Nat) (i j : Nat) : List Nat := (a.set i (a.getD j 0)).set j (a.getD i 0)

/-- Shuffling places `k` to 1 of a group; answers the generator's state too (R241). -/
def pilotShuffle : Nat → List Nat → Word → List Nat × Word
  | 0, a, x => (a, x)
  | k + 1, a, x =>
    let y := pilotNext x
    pilotShuffle k (listSwap a (k + 1) (y.toNat * (k + 2) / 4294967296)) y

/-- The levels of `g` groups of 2^b cells (R241). -/
def pilotGroups (b : Nat) : Nat → Word → List Nat
  | 0, _ => []
  | g + 1, x =>
    let r := pilotShuffle (2 ^ b - 1) (List.range (2 ^ b)) x
    r.1 ++ pilotGroups b g r.2

/-- The pilot levels of a plane: 2^17 cells from the seed (R241). -/
def pilotLevels (b seed : Nat) : List Nat := pilotGroups b (131072 / 2 ^ b) (BitVec.ofNat 32 seed)

/-- Replicas of the descriptor on a plane (R240). -/
def descReplicas (family : Nat) : Nat := if family = 0 then 8 else 12

/-- The cell that holds bit `i` of descriptor replica `k` (R240). -/
def descCell (k i : Nat) : Nat := 131072 + 2048 * k + i

/-- Level of a descriptor bit in a native block (R242). -/
def descLevel (b : Nat) (bit : Bool) : Nat := if bit then 2 ^ b - 1 else 0

/-- The bit that a level read from a native block's descriptor cell decides (R242). -/
def descBit (b level : Nat) : Bool := decide (2 ^ (b - 1) ≤ level)


/-- Bit `i` of a block descriptor's stream (R240). -/
def descStream (desc : List Byte) (i : Nat) : Bool := (desc.getD (i / 8) 0#8).getLsbD (i % 8)

/-- Levels of the cells of a native block's pilot wordline on a plane: the pilot pattern, then the replicas of its descriptor (R240–R242). -/
def pilotWl (p : Profile) (die plane blk : Nat) (desc : List Byte) : List Nat :=
  pilotLevels p.bpc (pilotSeed die plane blk)
    ++ (List.range (2048 * descReplicas p.family)).map (fun i => descLevel p.bpc (descStream desc (i % 2048)))

/-- A read-after-write sample of a pilot wordline passes on a plane: every replica decodes to the descriptor, and no more than 0.1 % of the
pilot region's cells read at another level than the pattern's (R242, R243). -/
def pilotPass (p : Profile) (slc : Bool) (die plane blk : Nat) (desc : List Byte) (levels : List Nat) : Bool :=
  let want := (pilotLevels p.bpc (pilotSeed die plane blk)).map (fun l => if slc then (if 2 ^ (p.bpc - 1) ≤ l then 1 else 0) else l)
  let wrong := ((levels.zip want).filter (fun q => decide (q.1 ≠ q.2))).length
  decide (1000 * wrong ≤ 131072) && decide (levels.length = 131072 + 2048 * descReplicas p.family)
    && (((levels.drop 131072).zip (List.range (2048 * descReplicas p.family))).all (fun q =>
      decide ((if slc then decide (q.1 = 1) else descBit p.bpc q.1) = descStream desc (q.2 % 2048))))

/-! Thresholds and vectors (R174–R177, R215). -/

/-- Thresholds of a logical page: where its bit changes between neighbouring levels; an SLC page has the single threshold 0. -/
def pageThr (p : Profile) (slc : Bool) (page : Nat) : List Nat :=
  if slc then [0]
  else (List.range (2 ^ p.bpc)).filter (fun j => decide (1 ≤ j)
    && decide (p.levelMap.getD (j - 1) 0 / 2 ^ page % 2 ≠ p.levelMap.getD j 0 / 2 ^ page % 2))

/-- An offset of a vector. -/
def vecAt (v : List (Nat × Int)) (j : Nat) : Int := tabGetD v j 0

/-- Two vectors agree on every threshold of a page. -/
def vecSame (ts : List Nat) (a b : List (Nat × Int)) : Bool := ts.all (fun j => decide (vecAt a j = vecAt b j))

/-- The vector of a bin entry over every threshold of a profile. -/
def entVec (p : Profile) (e : List Byte) : List (Nat × Int) := (List.range (2 ^ p.bpc)).map (fun j => (j, entOffset e j))

/-- A strobe position of a read lies beyond the die's range and is clamped (R178). -/
def vecClamped (ts : List Nat) (v : List (Nat × Int)) (reach : Nat) : Bool :=
  ts.any (fun j => decide (vecAt v j + reach > 127) || decide (vecAt v j - reach < -128))

/-! Rounding. -/

/-- `n / m` rounded to a whole number, half away from zero. -/
def roundDiv (n : Int) (m : Nat) : Int :=
  if m = 0 then 0
  else if 0 ≤ n then Int.ofNat ((2 * n.natAbs + m) / (2 * m)) else - Int.ofNat ((2 * n.natAbs + m) / (2 * m))

/-! Soft values (R177, R179, R191). -/

/-- What a cell's strobes show (R179): bit h, side σ, and twice the distance x in units of Δ. -/
structure SoftVal where
  h : Bool
  side : Int
  x2 : Nat
  /-- d of R179. -/
  dist : Nat
  deriving DecidableEq, Repr

/-- The soft value of a cell from its bits at positions −D to +D. -/
def softVal (bits : List Bool) : SoftVal :=
  let n := bits.length / 2
  let h := bits.getD n false
  let diff : Int → Bool := fun k => bits.getD (Int.toNat (Int.ofNat n + k)) false != h
  let j := ((List.range n).map (fun i => i + 1)).findSome? (fun k =>
    if diff (-(Int.ofNat k)) then some (-(Int.ofNat k)) else if diff (Int.ofNat k) then some (Int.ofNat k) else none)
  match j with
  | some k => { h := h, side := if k < 0 then -1 else 1, x2 := 2 * k.natAbs - 1, dist := k.natAbs }
  | none => { h := h, side := 0, x2 := 2 * (n + 1), dist := n + 1 }

/-- SOFT LLR of a cell: magnitude min(31, round(k × x)), positive when h = 0 (R191). -/
def softLlr (e : List Byte) (s : SoftVal) : Int :=
  let k := entSlope e * (if s.side = 1 then entAsym e else 64)
  let m := min 31 (roundDiv (Int.ofNat (k * s.x2 * entDelta e)) 32768)
  if s.h then -m else m

/-! The NEIGHBOUR detector (R192, R193). Values are scaled by 13,107,200, so that every term is a whole number. -/

/-- Scale of one LLR code. -/
def llrOne : Nat := 13107200

/-- Correction of max* in hundredths of a code (Table 6.8). -/
def maxStarC (i : Nat) : Nat := [253, 209, 171, 139, 112, 90, 72, 57].getD i 0

/-- max*(a, b) (Table 6.8). -/
def maxStar (a b : Int) : Int := max a b + Int.ofNat (maxStarC ((a - b).natAbs / llrOne) * 131072)

/-- L_s / 2 of state (c₋, c₊) for a cell, scaled. -/
def stateHalf (e : List Byte) (s : SoftVal) (cm cp : Nat) : Int :=
  let x4 : Int := Int.ofNat (2 * s.x2 * entDelta e)
  let y4 : Int := if s.side = 0 then x4 else s.side * x4 - (entAlpha e cm + entBeta e cp)
  let mag := entSlope e * (if 0 < y4 then entAsym e else 64) * y4.natAbs * 100
  let favour := decide (s.side = 0) || (decide (0 < y4) && decide (s.side = 1)) || (decide (y4 < 0) && decide (s.side = -1))
  if favour then Int.ofNat mag else -(Int.ofNat mag)

/-- max* over the surviving states, in state order. -/
def maxStarAll : List Int → Int
  | [] => 0
  | x :: xs => xs.foldl maxStar x

/-- NEIGHBOUR LLR of a cell with the candidate classes of its neighbours (R193). -/
def neighbourLlr (e : List Byte) (s : SoftVal) (below above : List Nat) : Int :=
  let states := (List.range 16).filter (fun t => below.contains (t / 4) && above.contains (t % 4))
  let hs := states.map (fun t => stateHalf e s (t / 4) (t % 4))
  let l := maxStarAll hs - maxStarAll (hs.map (fun x => -x))
  let top := Int.ofNat (31 * llrOne)
  let m := roundDiv (max (-top) (min top l)) llrOne
  if s.h then -m else m

/-- Candidate classes of a cell from the class codes at −Δ, 0 and +Δ (R192). -/
def classCand (lo mid hi : Nat) : List Nat := if lo = hi then [mid] else [lo, hi]

/-- Class of a level (R192). -/
def levelClass (b level : Nat) : Nat := level * 4 / 2 ^ b

/-! Output format (R195). -/

/-- The words of a payload of LLRs: ten to a 64-bit word. -/
def llrWords : Nat → List Int → List Byte
  | 0, _ => []
  | n + 1, xs =>
    if xs.isEmpty then []
    else
      let w := ((xs.take 10).zip (List.range 10)).foldl (fun t q => t + (BitVec.ofInt 6 q.1).toNat * 2 ^ (6 * q.2)) 0
      leBytes 8 w ++ llrWords n (xs.drop 10)

/-- Bits in codeword order, as bytes. -/
def bitBytes : Nat → List Bool → List Byte
  | 0, _ => []
  | n + 1, bs =>
    if bs.isEmpty then []
    else BitVec.ofNat 8 (((bs.take 8).zip (List.range 8)).foldl (fun t q => t + (if q.1 then 2 ^ q.2 else 0)) 0)
      :: bitBytes n (bs.drop 8)

/-- The result header (Table 6.9). -/
def resHeader (tag mode bin strobes src flags count mhard det : Nat) (fallback : Bool) : List Byte :=
  leBytes 4 tag ++ leBytes 1 mode ++ leBytes 1 bin ++ leBytes 1 (strobes + 8 * src + (if fallback then 64 else 0))
    ++ leBytes 1 flags ++ leBytes 4 count ++ leBytes 1 mhard ++ leBytes 1 det ++ leBytes 2 0

/-! Pilot estimation (R186–R188) and the valley search (R194). -/

/-- Status of a job's points and spacing (R186). -/
def sweepStatus (points spacing : Nat) : Status :=
  if points = 0 ∨ spacing = 0 then .zeroLen
  else if points % 2 = 0 ∨ points < 3 ∨ 15 < points ∨ 8 < spacing then .range
  else .ok

/-- e_j(k) of a full estimate at one point: pilot cells as (level, level read) (R187). -/
def errFull (j : Nat) (cells : List (Nat × Nat)) : Nat :=
  (cells.filter (fun c => (decide (c.1 + 1 = j) && decide (j ≤ c.2)) || (decide (c.1 = j) && decide (c.2 < j)))).length

/-- The threshold that a wrongly read bit of a quick estimate counts against: between the cell's level and the nearest level
whose bit matches the read, the lower one of two equally near (R187, log entry 25). -/
def quickThr (p : Profile) (page level : Nat) (bit : Bool) : Option Nat :=
  let has : Nat → Bool := fun l => decide (l < 2 ^ p.bpc) && decide ((p.levelMap.getD l 0 / 2 ^ page % 2 = 1) = (bit = true))
  ((List.range (2 ^ p.bpc)).map (fun i => i + 1)).findSome? (fun t =>
    if decide (t ≤ level) && has (level - t) then some (level - t + 1)
    else if has (level + t) then some (level + t) else none)

/-- e_j(k) of a quick estimate at one point: pilot cells as (level, bit read). -/
def errQuick (p : Profile) (page j : Nat) (cells : List (Nat × Bool)) : Nat :=
  (cells.filter (fun c => decide ((p.levelMap.getD c.1 0 / 2 ^ page % 2 = 1) ≠ (c.2 = true))
    && decide (quickThr p page c.1 c.2 = some j))).length

/-- k̂ + K: the index of the least count; on a tie the smaller |k|, then the negative one (R187). -/
def khatIdx (es : List Nat) (half : Nat) : Nat :=
  (List.range es.length).foldl (fun b i =>
    let e := es.getD i 0
    let eb := es.getD b 0
    let a := (Int.ofNat i - Int.ofNat half).natAbs
    let ab := (Int.ofNat b - Int.ofNat half).natAbs
    if e < eb ∨ (e = eb ∧ (a < ab ∨ (a = ab ∧ i < b))) then i else b) 0

/-- The fraction f as numerator and positive denominator, clamped to ±1/2 (R187). -/
def fracAt (es : List Nat) (i : Nat) : Int × Nat :=
  if i = 0 ∨ es.length ≤ i + 1 then (0, 1)
  else
    let a := Int.ofNat (es.getD (i - 1) 0)
    let b := Int.ofNat (es.getD i 0)
    let c := Int.ofNat (es.getD (i + 1) 0)
    let den := 2 * (a - 2 * b + c)
    if den ≤ 0 then (0, 1)
    else if den < 2 * (a - c) then (1, 2) else if 2 * (a - c) < -den then (-1, 2) else (a - c, den.natAbs)

/-- The estimate of a threshold: quarter steps from the centre, EDGE, INVALID, and e_j(k̂) (R187). -/
structure ThrEst where
  thr : Nat
  quarter : Int
  edge : Bool
  invalid : Bool
  count : Nat
  deriving DecidableEq, Repr

/-- The estimate of threshold `j` from its counts and the pilot cells of its two levels. -/
def thrEst (j spacing cells : Nat) (es : List Nat) : ThrEst :=
  let half := es.length / 2
  let i := khatIdx es half
  let f := fracAt es i
  let k := Int.ofNat i - Int.ofNat half
  { thr := j, quarter := roundDiv (4 * Int.ofNat spacing * (k * Int.ofNat f.2 + f.1)) f.2,
    edge := decide (i = 0) || decide (i + 1 = es.length), invalid := decide (2 * cells < 100 * es.getD i 0), count := es.getD i 0 }

/-- The threshold of largest count over valid thresholds (Table 6.6, offsets 56 and 58). -/
def worstThr (es : List ThrEst) : Option ThrEst :=
  es.foldl (fun b e => if e.invalid then b else match b with
    | none => some e
    | some x => if x.count < e.count then some e else b) none

/-- The pilot result record (Table 6.6). -/
def pilotRecord (st : Status) (points spacing b : Nat) (quick : Option Nat) (die blk : Nat) (time : DWord) (bin : Nat)
    (es : List ThrEst) : List Byte :=
  let est := fun j => match es.find? (fun e => decide (e.thr = j)) with | some e => e.quarter | none => 0
  let mask := fun (f : ThrEst → Bool) => (es.filter f).foldl (fun m e => m + 2 ^ (e.thr - 1)) 0
  let w := worstThr es
  let body := leBytes 1 st.code ++ leBytes 1 points ++ leBytes 1 spacing
    ++ leBytes 1 (b + (match quick with | some g => 8 + 16 * g | none => 0)) ++ leBytes 2 die ++ leBytes 2 blk
    ++ leBytes 8 time.toNat ++ (List.range 31).map (fun i => BitVec.ofInt 8 (est (i + 1))) ++ leBytes 1 bin
    ++ leBytes 4 (mask (fun e => e.edge)) ++ leBytes 4 (mask (fun e => e.invalid))
    ++ leBytes 2 (match w with | some e => e.count | none => 0) ++ leBytes 1 (match w with | some e => e.thr | none => 0)
    ++ leBytes 1 0
  body ++ leBytes 4 (crc32c body).toNat

/-- The offset vector of source PILOT: each estimate rounded to a whole step; EDGE, INVALID and thresholds not estimated keep
their centre (R188). -/
def pilotVec (centre : List (Nat × Int)) (es : List ThrEst) : List (Nat × Int) :=
  es.foldl (fun v e => if e.edge || e.invalid then v
    else tabPut v e.thr (roundDiv (4 * vecAt centre e.thr + e.quarter) 4)) centre

/-- n_j(k) for every k of a valley search: cells as level λ and bits at each point (R194). -/
def crossCounts (points j : Nat) (cells : List (Nat × List Bool)) : List Nat :=
  (List.range (points - 1)).map (fun i => (cells.filter (fun c =>
    (decide (c.1 + 1 = j) || decide (c.1 = j)) && (c.2.getD i false != c.2.getD (i + 1) false))).length)

/-- k̂ + K of a valley: the least count whose midpoint lies nearest the centre, then the lower k (R194). -/
def valleyIdx (es : List Nat) : Nat :=
  let half := es.length / 2
  (List.range es.length).foldl (fun b i =>
    let e := es.getD i 0
    let eb := es.getD b 0
    let a := (2 * (Int.ofNat i - Int.ofNat half) + 1).natAbs
    let ab := (2 * (Int.ofNat b - Int.ofNat half) + 1).natAbs
    if e < eb ∨ (e = eb ∧ (a < ab ∨ (a = ab ∧ i < b))) then i else b) 0

/-- The vector of source SWEEP for a page, and its EDGE thresholds (R194). -/
def sweepVec (ts : List Nat) (centre : List (Nat × Int)) (points spacing : Nat) (cells : List (Nat × List Bool)) :
    List (Nat × Int) × List Nat :=
  ts.foldl (fun (b : List (Nat × Int) × List Nat) j =>
    let es := crossCounts points j cells
    let i := valleyIdx es
    if i = 0 ∨ es.length ≤ i + 1 then (b.1, b.2 ++ [j])
    else
      let f := fracAt es i
      let k := Int.ofNat i - Int.ofNat (points / 2)
      let off := roundDiv (Int.ofNat spacing * ((2 * k + 1) * Int.ofNat f.2 + 2 * f.1)) (2 * f.2)
      (tabPut b.1 j (vecAt centre j + off), b.2)) (centre, [])

/-! The pool (R197–R203). -/

/-- DET_PROF.BPC names a profile (Table 6.30). -/
def bpcOk (h : Hw) : Bool := let b := fld (rd h R.DET_PROF) 0 3; decide (3 ≤ b) && decide (b ≤ 5)

/-- DET_CTRL.EN of a detector. -/
def detEn (d : Dev) (n : Nat) : Bool := bit (rd d.hw (R.DET_CTRL n)) 0

/-- A detector in service (Table 2.12). -/
def detUp (d : Dev) (n : Nat) : Bool :=
  decide (n < detCount d.fuse) && decide ((detGet d n).st = 1) && (detGet d n).leaving.isNone

/-- A detector that may receive a grant (R197). -/
def detEligible (d : Dev) (avoid : Option Nat) (n : Nat) : Bool :=
  detUp d n && detEn d n && bpcOk d.hw && domOn d.pwr (n + 49) && decide ((detGet d n).ctx.length < 4) && !(detGet d n).testing
    && decide (avoid ≠ some n)

/-- The detector that a request from channel `c` is granted on: by affinity, else the lowest-numbered (R197). A reissue after an
abort goes to another detector where another is in service (R200). -/
def detPick (d : Dev) (c : Nat) (avoid : Option Nat) : Option Nat :=
  let all := List.range (detCount d.fuse)
  let av := match avoid with
    | some n => if all.any (fun k => decide (k ≠ n) && detUp d k && detEn d k) then some n else none
    | none => none
  let aff := c % detCount d.fuse
  if bit (rd d.hw R.DET_POOL_CTRL) 0 && detEligible d av aff then some aff else all.find? (fun n => detEligible d av n)

/-- The dispatcher wakes the lowest-numbered in-service detector in RET when every in-service detector that is ON is full (R198); where none
is ON, once a request waits (DEDUCED, log entry 115). -/
def detWake (d : Dev) : Dev :=
  let all := List.range (detCount d.fuse)
  let on := all.any (fun n => detUp d n && domOn d.pwr (n + 49))
  if !bit (rd d.hw R.DET_POOL_CTRL) 1 || (!on && d.fl.ctxWait.isEmpty) || all.any (fun n => detUp d n && domOn d.pwr (n + 49) && decide ((detGet d n).ctx.length < 4)
      && !(detGet d n).testing) then d
  else match all.find? (fun n => detUp d n && decide ((domGet d.pwr (n + 49)).st = .ret)) with
    | some n => wakeReq (n + 49) 2 d
    | none => d

/-- Two runs whose transfers share a channel. -/
def sameChan (a b : Run) : Bool := decide (chOf a.loc.die = chOf b.loc.die)

/-- A run among the context requests: in deadline order, then by channel (R197); on one channel a read with S0 deadline is transferred ahead of
every other one (R127). -/
def ctxInsert (d : Dev) (r : Nat) : List Nat → List Nat
  | [] => [r]
  | x :: xs =>
    match runGet d r, runGet d x with
    | some a, some b =>
      let held := decide (a.cls ≠ 0) && (x :: xs).any (fun q => match runGet d q with
        | some z => sameChan a z && decide (z.cls = 0) | none => false)
      if !held && ((decide (a.cls = 0) && decide (b.cls ≠ 0) && sameChan a b) || decide (a.deadline < b.deadline)
          || (decide (a.deadline = b.deadline) && decide (chOf a.loc.die < chOf b.loc.die))) then r :: x :: xs
      else x :: ctxInsert d r xs
    | _, _ => x :: ctxInsert d r xs

/-- Context requests: waiting runs that hold no context; others wait for their drift-bin entry. -/
def ctxAsks (d : Dev) : List Nat :=
  d.fl.ctxWait.filter (fun r => match runGet d r with | some x => x.det.isNone | none => false)

/-- Free contexts that a request may be granted (R197). -/
def ctxsFree (d : Dev) (avoid : Option Nat) : Nat :=
  (((List.range (detCount d.fuse)).filter (fun n => detEligible d avoid n)).map (fun n => 4 - (detGet d n).ctx.length)).sum

/-- DET_CONTEXT_REQUEST: a run asks for a context; one that finds none free beside those that the requests before it will take waits and is
counted (R197, R198). -/
def ctxRequest (r : Nat) (d : Dev) : Dev :=
  match runGet d r with
  | none => d
  | some x =>
    let d1 := runPut d r { x with st := .wantCtx }
    let q := ctxInsert d1 r d1.fl.ctxWait
    let d2 := { d1 with fl := { d1.fl with ctxWait := q } }
    let waits := (detPick d1 (chOf x.loc.die) x.avoid).isNone
      || decide (ctxsFree d1 x.avoid ≤ ((ctxAsks d2).takeWhile (fun n => decide (n ≠ r))).length)
    if waits then detWake { d2 with hw := md d2.hw R.DET_POOL_WAITS (fun w => bumpFld w 0 32 1) } else d2

/-- A context of a detector freed; a take-out completes with the last one (R201). -/
def ctxFree (r : Nat) (d : Dev) : Dev :=
  match runGet d r with
  | none => d
  | some x =>
    match x.det with
    | none => d
    | some (n, c) =>
      let y := detGet d n
      let y1 := { y with ctx := tabDel y.ctx c, bufs := tabDel y.bufs c }
      let d1 := detPut (runPut d r { x with det := none }) n y1
      match y1.leaving with
      | none => d1
      | some who =>
        if !y1.ctx.isEmpty then d1
        else
          let d2 := detPut { d1 with hw := irq d1.hw (irqDet n) 3 } n { y1 with st := 2, leaving := none }
          unitEvent 3 n 2 who (unitRecord 3 n 2 d2)

/-- Loading a bin entry into a detector: from its cache, else from the slot in memory; an unusable entry gives the fallback, the
count, LAST_BAD and BIN_BAD (R182, R183). -/
def detLoad (n i : Nat) (d : Dev) : List Byte × Dev :=
  let y := detGet d n
  match tabGet y.cache i with
  | some e => (e, detPut d n { y with cache := (i, e) :: y.cache.filter (fun q => decide (q.1 ≠ i)) })
  | none =>
    let r := entRead (80 + n) i d
    if r.1.isEmpty then
      let h := md r.2.hw R.DET_BIN_STAT (fun w => putFld (bumpFld w 16 16 1) 8 8 i)
      ([], { r.2 with hw := irq h (irqDet n) 9 })
    else (r.1, detPut r.2 n { y with cache := ((i, r.1) :: y.cache).take 8 })

/-- The closed domain that a detector's load of a bin entry waits for: none where its cache holds the entry. -/
def detGate (d : Dev) (n i : Nat) : Option Nat :=
  if (tabGet (detGet d n).cache i).isSome then none else entGate d (80 + n) i

/-- The strobe buffer of a context. -/
def bufGet (d : Dev) (n c : Nat) : Strobes := tabGetD (detGet d n).bufs c { planes := [], classes := [] }

/-- The strobe buffer of a context written. -/
def bufPut (n c : Nat) (s : Strobes) (d : Dev) : Dev :=
  let y := detGet d n
  detPut d n { y with bufs := tabPut y.bufs c s }

/-- A write to DET_BIN_INVAL: one entry, or all, leave every cache (R183). -/
def binInval (v : Word) (d : Dev) : Dev :=
  let keep := fun (q : Nat × List Byte) => !bit v 8 && decide (q.1 ≠ fld v 0 8)
  { d with fl := { d.fl with dets := d.fl.dets.map (fun q => (q.1, { q.2 with cache := q.2.cache.filter keep })) } }

/-- Any detector enabled. -/
def anyDetEn (d : Dev) : Bool := (List.range (detCount d.fuse)).any (fun n => detEn d n)

/-- A write to DET_PROF, ignored while any detector is enabled; ROUTE_ALL follows BPC = 5 (Table 6.30). -/
def detProfWrite (v : Word) (d : Dev) : Dev :=
  if anyDetEn d then d
  else { d with hw := md d.hw R.DET_PROF (fun w => putBit (rwWrite 0xF#32 w v) 4 (decide (fld v 0 3 = 5))) }

/-- A self-test begins where no context is busy (Table 6.15). -/
def selfTestStart (n : Nat) (d : Dev) : Dev :=
  let y := detGet d n
  if !y.ctx.isEmpty || y.testing then d
  else detPut { d with hw := md d.hw (R.DET_CTRL n) (fun w => setBit w 1) } n { y with testing := true }

/-- A write to DET_CTRL: EN, where 1 is ignored with an invalid BPC and 0 lets present contexts run on; SELFTEST (R201,
Tables 6.11, 6.15, 6.30). -/
def detCtrlWrite (n : Nat) (v : Word) (d : Dev) : Dev :=
  let en := if bit v 0 && !bpcOk d.hw then detEn d n else bit v 0
  let d1 := { d with hw := md d.hw (R.DET_CTRL n) (fun w => putBit w 0 en) }
  if bit v 1 then selfTestStart n d1 else d1

/-- MODE of a returning detector's domain goes back to AUTO (R201). -/
def detModeBack (n : Nat) (d : Dev) : Dev :=
  dctrlWrite (n + 49) (rd d.hw (R.PWR_DCTRL (n + 49)) &&& 0xC0#32) d

/-- The self-test ends. In a return, a pass gives state 0x01, a failure SELFTEST_FAIL and state 0x04, and either SVC_DONE
(R201). -/
def selfTestDone (n : Nat) (pass : Bool) (d : Dev) : Dev :=
  let y := detGet d n
  if !y.testing || !domOn d.pwr (n + 49) then d
  else
    let h1 := irq (md d.hw (R.DET_CTRL n) (fun w => clrBit w 1)) (irqDet n) 2
    let h2 := irqIf h1 (!pass) (irqDet n) 10
    if y.returning then
      let st := if pass then 1 else 4
      let d1 := detPut { d with hw := irq h2 (irqDet n) 3 } n { y with testing := false, returning := false, st := st, cache := [] }
      detModeBack n (unitEvent 3 n st 0 (unitRecord 3 n st d1))
    else detPut { d with hw := h2 } n { y with testing := false }

/-- A detector leaves service: no later grant; it enters 0x02 when its last context frees (R72, R201). -/
def detLeave (n who : Nat) (d : Dev) : Dev :=
  let y := detGet d n
  if y.leaving.isSome then d
  else if y.ctx.isEmpty then
    let d1 := detPut { d with hw := irq d.hw (irqDet n) 3 } n { y with st := 2, testing := false, returning := false }
    unitEvent 3 n 2 who (unitRecord 3 n 2 (if y.returning then detModeBack n d1 else d1))
  else unitRecord 3 n 2 (detPut d n { y with leaving := some who })

/-- The last detector in service of a device whose every read passes through one is never taken out (R72, R200). -/
def lastDet (d : Dev) (n : Nat) : Bool :=
  decide ((prof d).bpc = 5) && detUp d n && (List.range (detCount d.fuse)).all (fun k => decide (k = n) || !detUp d k)

/-- Take-out of a detector (R72, R201). -/
def takeOutDet (c : Src) (n : Nat) (d : Dev) : Dev :=
  let y := detGet d n
  if detCount d.fuse ≤ n then adminDone c .unitAbsent 0 [] d
  else if (y.st ≠ 1 ∧ y.st ≠ 3) ∨ y.leaving.isSome = true ∨ lastDet d n = true then adminDone c .unitStateConflict y.st [] d
  else
    let d1 := detLeave n 0 d
    adminDone c .success (detGet d1 n).st [] d1

/-- Return of a detector: its domain is forced ON, its buffers are written and the self-test runs (R201). A reset in mid-return leaves state
0x02 (Table 6.11). -/
def returnDet (c : Src) (n : Nat) (d : Dev) : Dev :=
  let y := detGet d n
  if detCount d.fuse ≤ n then adminDone c .unitAbsent 0 [] d
  else if y.st ≠ 2 ∧ y.st ≠ 4 then adminDone c .unitStateConflict y.st [] d
  else
    let d1 := unitRecord 3 n 2 (dctrlWrite (n + 49) (putFld (rd d.hw (R.PWR_DCTRL (n + 49))) 0 2 1) d)
    let d2 := detPut { d1 with hw := md d1.hw (R.DET_CTRL n) (fun w => setBit w 1) } n
      { (detGet d1 n) with st := 3, testing := true, returning := true, leaving := none }
    adminDone c .success 3 [] d2

/-- Aborts of a detector in the last 24 h (R200). -/
def detAborts (d : Dev) (n : Nat) : List Nat := (detGet d n).aborts.filter (fun t => decide (d.hw.time.toNat < t + day))

/-- DET_STAT (Table 6.16). -/
def detStat (d : Dev) (n : Nat) : Word :=
  let y := detGet d n
  let busy := y.ctx.foldl (fun m q => m + 2 ^ q.1) 0
  BitVec.ofNat 32 (busy * 1048576 + fld (rd d.hw (R.DET_STAT n)) 16 4 * 65536 + (if n < detCount d.fuse then y.st else 0))

/-- DET_ECC (Table 6.19). -/
def detEcc (d : Dev) (n : Nat) : Word := putFld (rd d.hw (R.DET_ECC n)) 0 8 (min 255 (detAborts d n).length)

/-- DET_POOL_AVAIL (Table 6.23). -/
def poolAvail (d : Dev) : Word :=
  BitVec.ofNat 32 (((List.range (detCount d.fuse)).filter (fun n => decide ((detGet d n).st = 1) && detEn d n)).foldl
    (fun m n => m + 2 ^ n) 0)

/-- DET_POOL_QDEPTH (Table 6.24). -/
def poolDepth (d : Dev) : Word := BitVec.ofNat 32 (min 0xFFFF (ctxAsks d).length)

end Sys2Proof.Machine
end

