-- ==== Sys2Proof/Machine/Affine.lean ====
section
/-!
DEFINITION. The Affineur: asynchronous events, the sampling population and its cycles (R313–R315), drift-bin learning (R184,
R316), margin projection (R317, R318), the refresh queue (R319, R321, R327), early warnings (R323, R331, R332) and media time
(R310, R312).
-/

namespace Sys2Proof.Machine

/-- The Affineur's record changed. -/
def affMod (f : Aff → Aff) (d : Dev) : Dev := { d with aff := f d.aff }

/-- An event whose code the spec does not list: its code and severity are free values (log entry 26). -/
def evFree (a0 a1 : Nat) (d : Dev) : Dev :=
  let n := d.hw.free
  let r := evPost (spend (spend d.hw)) 0x10F (Config.freeNat n % 512) (Config.freeNat (n + 1) % 5) false (BitVec.ofNat 32 a0)
    (BitVec.ofNat 32 a1) 0#32
  { d with hw := r.2 }

/-! Asynchronous events (R59, R332). -/

/-- An asynchronous event at one controller: it completes the oldest outstanding request, or waits for one. -/
def asyncPost (ck dw0 : Nat) (d : Dev) : Dev :=
  let c := tabGetD d.host.ctrls ck Ctrl.init
  match c.aers with
  | a :: rest =>
    cqPost (ck / 64) (ck % 64) 0 a .success dw0 0 []
      { d with host := { d.host with ctrls := tabPut d.host.ctrls ck { c with aers := rest } } }
  | [] => { d with host := { d.host with ctrls := tabPut d.host.ctrls ck { c with events := c.events ++ [dw0] } } }

/-- An asynchronous event at every enabled controller. -/
def asyncAll (dw0 : Nat) (d : Dev) : Dev :=
  (d.host.ctrls.filter (fun q => q.2.en)).foldl (fun x q => asyncPost q.1 dw0 x) d

/-- Completion Dword 0 of an asynchronous event: type, information and log page. -/
def asyncDw (type info page : Nat) : Nat := type + 256 * info + 65536 * page

/-! Early warnings (R331–R333). -/

/-- Mean erase count of a Pack's good blocks, rounded down (R334). -/
def meanErase (d : Dev) (p : Nat) : Nat :=
  let blks := d.med.blks.filter (fun q => decide (packOf (q.1 / 4096) = p) && dieFitted d (q.1 / 4096))
  let good := (prof d).nblk * (packDies d p).length - (blks.filter (fun q => decide (q.2.st = .retired))).length
  if good = 0 then 0 else ((blks.filter (fun q => decide (q.2.st ≠ .retired))).map (fun q => q.2.erases)).sum / good

/-- The Packs present. -/
def packs (d : Dev) : List Nat := List.range (packCount d.fuse)

/-- An early-warning flag set or cleared, with its event and, when it sets, EW_SET and an asynchronous event (R332). -/
def ewPut (b : Nat) (v : Bool) (d : Dev) : Dev :=
  if d.aff.ew.getLsbD b = v then d
  else
    let ew := if v then d.aff.ew ||| (1#4 <<< b) else d.aff.ew &&& ~~~(1#4 <<< b)
    let h := irqIf d.hw v irqAffineur 2
    let d1 := { d with aff := { d.aff with ew := ew }, hw := evFw h 0x070 2 ew.toNat (if v then 1 else 0) 0 }
    if v then asyncAll (asyncDw 7 0 0xC1) d1 else d1

/-- The wear, spare and hold-up flags judged (Table 10.5). -/
def ewCheck (d : Dev) : Dev :=
  let pct := fld (rd d.hw R.AFFINEUR_WEAR) 0 16
  let warn := fld (rd d.hw R.AFFINEUR_SPARE) 16 16
  let worn := decide (pct ≠ 0) && (packs d).any (fun p => decide (pct * (prof d).npe ≤ 100 * meanErase d p))
  let d1 := if worn then ewPut 0 true d else d
  let low := decide (warn ≠ 0) && (packs d1).any (fun p => decide (spareOf d1 p < warn))
  let high := decide (warn = 0) || (packs d1).all (fun p => decide (warn + 100 ≤ spareOf d1 p))
  let d2 := if low then ewPut 1 true d1 else if high then ewPut 1 false d1 else d1
  ewPut 3 (bit (rd d2.hw R.HOLDUP_STAT) 30) d2

/-- Whether a block is in the sampling population: open or closed, with the pilot wordline programmed (R313). -/
def inPopulation (x : Blk) : Bool :=
  (decide (x.st = .open_) || decide (x.st = .closed)) && decide (x.pilot = 2)

/-- The sampling population (R313). -/
def population (d : Dev) : List (Nat × Blk) := d.med.blks.filter (fun q => inPopulation q.2)

/-- A daily value that has risen on 7 days in a row, newest first. -/
def risen (xs : List Nat) : Bool :=
  decide (8 ≤ xs.length) && (List.range 7).all (fun i => decide (xs.getD (i + 1) 0 < xs.getD i 0))

/-- A daily value that has fallen on 3 days in a row. -/
def fallen (xs : List Nat) : Bool :=
  decide (4 ≤ xs.length) && (List.range 3).all (fun i => decide (xs.getD i 0 < xs.getD (i + 1) 0))

/-- Blocks of a Pack in the refresh queue (R323). -/
def backlogOf (d : Dev) (p : Nat) : Nat := (d.aff.queue.filter (fun e => decide (packOf (e.blk / 4096) = p))).length

/-- BACKLOG_MIDNIGHT: the day's backlog of each Pack is recorded and the flag judged (R323). -/
def backlogMidnight (d : Dev) : Dev :=
  let daily := (packs d).foldl (fun t p => tabPut t p ((backlogOf d p :: tabGetD t p []).take 8)) d.aff.daily
  let d1 := affMod (fun a => { a with daily := daily }) d
  let pop := fun p => ((population d).filter (fun q => decide (packOf (q.1 / 4096) = p))).length
  let now := fun p => (tabGetD daily p []).headD 0
  let sets := (packs d).any (fun p => risen (tabGetD daily p []) && decide (pop p < 100 * now p))
  let clears := (packs d).all (fun p => fallen (tabGetD daily p []) || decide (1000 * now p < pop p))
  if sets then ewPut 2 true d1 else if clears then ewPut 2 false d1 else d1

/-- Host reads of the last 24 h by depth: all, and deeper than step 0 (R331, R334). -/
def depthShare (d : Dev) : Nat × Nat :=
  let now := d.hw.time.toNat / 90000000000
  let recent := d.fl.hourDepth.filter (fun q => decide (q.1 / 8 % 4 = 0) && decide (now < q.1 / 32 + 24))
  ((recent.map (fun q => q.2)).sum, ((recent.filter (fun q => decide (q.1 % 8 ≠ 0))).map (fun q => q.2)).sum)

/-- LADDER_RISE: the share of host reads deeper than step 0 over 24 h passes WARN_PPM (R331). The event's code is not in
Table 16.2. -/
def ladderCheck (d : Dev) : Dev :=
  let ppm := fld (rd d.hw R.AFFINEUR_LADDER) 0 16
  let s := depthShare d
  let high := decide (ppm ≠ 0) && decide (ppm * s.1 < 1000000 * s.2)
  if high && !d.aff.ladderHigh then
    evFree s.2 s.1 (affMod (fun a => { a with ladderHigh := true }) { d with hw := irq d.hw irqAffineur 6 })
  else affMod (fun a => { a with ladderHigh := high }) d

/-! Retriever reports (R319). -/


/-- A Retriever report (R218, R319): step 4 or 5 asks for one full estimate, 6 or 7 queues the block urgent. -/
def affReport (die b depth : Nat) (d : Dev) : Dev :=
  let key := die * 4096 + b
  if depth < 4 then d
  else if depth < 6 then
    if d.aff.reports.contains key then d else affMod (fun a => { a with reports := a.reports ++ [key] }) d
  else refQueue key true none d

/-! Margin projection (R317, R318). -/

/-- Bits of log2 of a mantissa between 2^62 and 2^63, by repeated squaring. -/
def log2Bits : Nat → Nat → Nat → Nat
  | 0, _, acc => acc
  | n + 1, m, acc =>
    let q := m * m / 4611686018427387904
    if 9223372036854775808 ≤ q then log2Bits n (q / 2) (2 * acc + 1) else log2Bits n q (2 * acc)

/-- log2 of a ratio `a / b` ≥ 1 in units of 2^−32, rounded down (the spec gives no precision, log entry 27). -/
def log2Ratio (a b : Nat) : Nat :=
  if b = 0 ∨ a ≤ b then 0
  else
    let i := Nat.log2 (a / b)
    log2Bits 32 (a * 4611686018427387904 / (b * 2 ^ i)) i

/-- What a sample says: urgent, normal, and the crossing (R318). Counts are over `cells`, ages in seconds. -/
structure Verdict where
  urgent : Bool
  normal : Bool
  cross : Option Nat
  deriving DecidableEq, Repr

/-- The judgement of a block's latest point against its reference point (R317, R318). -/
def projectSample (ref : Option Sample) (last : Sample) (bad : Bool) (cells days slope urg norm : Nat) : Verdict :=
  let e2 : Int := Int.ofNat (last.count * 1000000)
  let gap : Int := Int.ofNat (norm * cells) - e2
  let horizon := Int.ofNat (log2Ratio (last.age + 172800 * days) last.age)
  let far := match ref with | some r => decide (2 * r.age ≤ last.age) | none => false
  let rise : Int := match ref with | some r => max 0 (e2 - Int.ofNat (r.count * 1000000)) | none => 0
  let span : Int := match ref with | some r => Int.ofNat (log2Ratio last.age r.age) | none => 0
  let sN : Int := if far then rise else Int.ofNat (slope * cells)
  let sD : Int := if far then span else 4294967296
  { urgent := bad || (decide (urg ≠ 0) && decide (Int.ofNat (urg * cells) ≤ e2)),
    normal := decide (norm ≠ 0) && decide (gap * sD ≤ sN * horizon),
    cross := if gap ≤ 0 then some (log2Ratio last.age 1)
      else if sN = 0 then none else some (log2Ratio last.age 1 + (gap * sD / sN).toNat) }

/-- Age of a block in seconds of media time, never below one hour (R317). -/
def blkAge (d : Dev) (x : Blk) : Nat := max 3600 (d.aff.mtime - x.opened)

/-! Drift-bin learning (R184, R316). -/

/-- A bin's batch. -/
def batchGet (d : Dev) (i : Nat) : Batch :=
  tabGetD d.aff.batches i { n := 0, since := d.hw.time, sums := [], counts := [], outliers := 0 }

/-- The factory entry of a bin, in the calibration area (R185, Table 14.1). -/
def facEntry (d : Dev) (i : Nat) : List Byte := rindBytes d.hw.rind d.hw.free (130 * 65536 + 64 * i) 64

/-- The entry after an update: its offsets moved, LEARNED where an offset differs from the factory value, GEN, UPDATED and MERGES (Table 6.4,
R182). -/
def entMoved (e fac : List Byte) (moves : List (Nat × Int)) (n mtime : Nat) : List Byte :=
  let off := fun (i : Nat) => BitVec.ofInt 8 (sbyteAt e i + tabGetD moves (i - 15) 0)
  let learned := ((List.range 31).map (fun i => 16 + i)).any (fun i => decide (off i ≠ fac.getD i 0#8))
  let body := (List.range 60).map (fun i =>
    if i = 1 then (e.getD 1 0#8 &&& 0xFD#8) ||| (if learned then 2#8 else 0#8)
    else if i = 7 then BitVec.ofNat 8 (byteAt e 7 + 1)
    else if 8 ≤ i ∧ i < 16 then BitVec.ofNat 8 (mtime / 256 ^ (i - 8))
    else if 16 ≤ i ∧ i < 47 then off i
    else if 56 ≤ i then BitVec.ofNat 8 (satAdd 32 (leNat ((e.drop 56).take 4)) n / 256 ^ (i - 56))
    else e.getD i 0#8)
  body ++ leBytes 4 (crc32c body).toNat

/-- The slot of a bin as the Affineur reads it under its own master ID, 26 (Table 1.10); none where the access is refused or uncorrectable. -/
def affSlot (i : Nat) (d : Dev) : Option (List Byte) × Dev :=
  match unitPass d 26 .read (binBase d.hw + 128 * i) 128 with
  | .ok => unitRead 26 (binBase d.hw + 128 * i) 128 d
  | .refused st a n => (none, unitRefuse 26 .read st a n d)
  | .waits _ => (none, d)

/-- Writing a learned entry into the copy that is not in use, then DET_BIN_INVAL (R182). -/
def entStore (i : Nat) (slot e new : List Byte) (d : Dev) : Dev :=
  let a := if slot.take 64 = e then binBase d.hw + 128 * i + 64 else binBase d.hw + 128 * i
  match unitPass d 26 .write a 64 with
  | .ok => affMod (fun x => { x with learnDirty := true }) (binInval (BitVec.ofNat 32 i) (unitWrite a new d))
  | .refused st b n => unitRefuse 26 .write st b n d
  | .waits _ => d

/-- The move of one threshold's offset: the mean difference, at most 2 steps, never beyond 24 steps from the factory value (R184), nor
beyond a signed byte (DESIGN CHOICE, log entry 111); and whether the limit of 24 steps stopped it. -/
def offMove (old fac sum : Int) (count : Nat) : Int × Bool :=
  let want := old + max (-2) (min 2 (roundDiv sum (4 * count)))
  let new := max (fac - 24) (min (fac + 24) want)
  (max (-128) (min 127 new) - old, decide (new ≠ want))

/-- The update of a bin from its batch; where the 24-step limit stops an offset, BIN_LIMIT and an event follow (R184). A table in a closed
domain wakes it, and the batch stays. -/
def binUpdate (i : Nat) (d : Dev) : Dev :=
  match entGate d 26 i with
  | some dom => wakeReq dom 2 d
  | none =>
    let b := batchGet d i
    let q := affSlot i d
    let d1 := affMod (fun a => { a with batches := tabDel a.batches i }) q.2
    match q.1 with
    | none => d1
    | some slot => match entSelect slot with
      | none => d1
      | some e =>
        let fac := facEntry d i
        let ms := (b.counts.filter (fun c => decide (c.2 ≠ 0))).map (fun c =>
          (c.1, offMove (sbyteAt e (15 + c.1)) (sbyteAt fac (15 + c.1)) (tabGetD b.sums c.1 0) c.2))
        let moves := ms.foldl (fun t m => tabPut t m.1 m.2.1) []
        let d2 := entStore i slot e (entMoved e fac moves b.n d.aff.mtime) d1
        if ms.any (fun m => m.2.2) then evFree i 0 { d2 with hw := irq d2.hw irqAffineur 5 } else d2

/-- An estimate joins its bin's batch; outliers are left out and counted, and the batch of B estimates updates the bin (R184,
R316). -/
def binLearn (i : Nat) (es : List ThrEst) (d : Dev) : Dev :=
  let size := fld (rd d.hw R.AFFINEUR_LEARN) 8 8
  if size = 0 then d
  else
    let b := batchGet d i
    let use := es.filter (fun e => !e.edge && !e.invalid)
    let out := use.filter (fun e => decide (64 < e.quarter.natAbs))
    let good := use.filter (fun e => decide (e.quarter.natAbs ≤ 64))
    let b1 : Batch := {
      n := b.n + 1, since := b.since, outliers := b.outliers + out.length,
      sums := good.foldl (fun t e => tabMod t e.thr 0 (fun x => x + e.quarter)) b.sums,
      counts := good.foldl (fun t e => tabMod t e.thr 0 (fun x => x + 1)) b.counts }
    let d1 := affMod (fun a => { a with batches := tabPut a.batches i b1 })
      { d with hw := md d.hw R.AFFINEUR_LEARN (fun w => bumpFld w 16 16 out.length) }
    let d2 := if 4 * b.outliers ≤ size ∧ size < 4 * b1.outliers then evFree i b1.outliers d1 else d1
    if size ≤ b1.n then binUpdate i d2 else d2

/-- BIN_LEARN_TIMEOUT: after 24 h with at least 4 estimates the bin is updated (R184). -/
def binTimeout (i : Nat) (d : Dev) : Dev :=
  if 4 ≤ (batchGet d i).n ∧ fld (rd d.hw R.AFFINEUR_LEARN) 8 8 ≠ 0 then binUpdate i d else d

/-- LEARNED_TABLE_WRITEBACK: the changed table goes to the calibration area's next copy, at most once in 24 h, and at an orderly shutdown
(R185, Table 14.1). Trial firmware does not write the calibration area (R440). -/
def learnedWrite (shutdown : Bool) (d : Dev) : Dev :=
  let sector := if d.aff.learnCopy then 132 else 131
  if !d.aff.learnDirty || d.boot.trial || rindLocked d.hw.rind sector
      || (!shutdown && decide (d.hw.time.toNat < d.aff.learnSaved.toNat + day)) then d
  else
    let bytes := (List.range 256).flatMap (fun i =>
      match (memBytes d.hw (binBase d.hw + 128 * i) 128).1 with
      | some s => (entSelect s).getD (List.replicate 64 0#8)
      | none => List.replicate 64 0#8)
    let r := rindProg (rindErase d.hw.rind sector) d.hw.free (sector * 65536) bytes
    affMod (fun a => { a with learnDirty := false, learnSaved := d.hw.time, learnCopy := !a.learnCopy })
      { d with hw := { d.hw with rind := r } }

/-! Cadence cycles and outage sweeps (R313–R315). -/

/-- The population's blocks in order of a time, oldest first. -/
def popOrder (d : Dev) (f : Blk → Nat) : List Nat :=
  ((population d).mergeSort (fun a b => decide (f a.2 ≤ f b.2))).map (fun q => q.1)

/-- A cadence cycle begins with the population as it stands (R313). -/
def cycleStart (d : Dev) : Dev :=
  let q := popOrder d (fun b => b.sampled)
  affMod (fun a => { a with todo := q, total := q.length }) d

/-- An outage sweep begins, oldest OPEN_TIME first, and the cadence cycle pauses; ignored during a sweep (R315). -/
def sweepStart (d : Dev) : Dev :=
  if d.aff.st = 2 ∨ bit (rd d.hw R.AFFINEUR_CTRL) 0 = false then d
  else
    let q := popOrder d (fun b => b.opened)
    affMod (fun a => { a with st := 2, paused := some (a.todo, a.total), todo := q, total := q.length }) d

/-- The state code outside a sweep (Table 10.8). -/
def affState (h : Hw) : Nat :=
  let c := rd h R.AFFINEUR_CTRL
  if !bit c 0 then 0 else if bit c 2 then 3 else 1

/-- A cycle or sweep whose last sample has ended: CYCLE_DONE; after a sweep the cadence cycle goes on, after a cycle the next
one begins (R313, R315). -/
def cycleCheck (d : Dev) : Dev :=
  let running := d.fl.runs.any (fun q => match q.2.serves with | .sample r => !r | _ => false)
  if !d.aff.todo.isEmpty || running || decide (d.aff.st = 0) || decide (d.aff.total = 0) then d
  else
    let d1 := { d with hw := irq d.hw irqAffineur 0 }
    match d.aff.paused with
    | some (q, n) => affMod (fun a => { a with st := affState d1.hw, paused := none, todo := q, total := n }) d1
    | none => cycleStart (affMod (fun a => { a with cycles := a.cycles + 1 }) d1)

/-- A full pilot estimate of a block is scheduled: at its pilot wordline, S3, with the BIN vector of its bands as centre
(R186, R313, R314). A job whose points or spacing fail their check reads nothing (R186). -/
def sampleNew (key points spacing : Nat) (report : Bool) (d : Dev) : Dev :=
  let die := key / 4096
  let b := blkGet d die (key % 4096)
  let loc : Loc := { die := die, block := key % 4096, wl := 0, page := 0, plane := 0, slot := 0 }
  let x := { runAt d (.sample report) loc b.sb 0 3 (s3Deadline d) (decide (3 ≤ b.type)) with points := points, spacing := spacing }
  if sweepStatus points spacing = .ok then (runNew x d).2
  else
    let r := d.fl.nextRun
    ctxRequest r (runPut { d with fl := { d.fl with nextRun := r + 1 } } r x)

/-- CADENCE_SAMPLE: the oldest block of the cycle or sweep is sampled; one that has left the population is dropped, and one with
a report due is served by the same estimate (R313, R314, Table 10.2). -/
def cadenceSample (points spacing : Nat) (d : Dev) : Dev :=
  if d.aff.st ≠ 1 ∧ d.aff.st ≠ 2 then d
  else match d.aff.todo with
    | [] => cycleCheck d
    | key :: rest =>
      let d1 := affMod (fun a => { a with todo := rest }) d
      if !inPopulation (blkGet d1 (key / 4096) (key % 4096)) then cycleCheck d1
      else if d1.aff.reports.contains key then
        sampleNew key points spacing true (affMod (fun a => { a with reports := a.reports.filter (fun k => decide (k ≠ key)) }) d1)
      else sampleNew key points spacing false d1

/-- REPORT_ESTIMATE: the oldest reported block gets its full estimate; one erased since is dropped (R319). -/
def reportEstimate (points spacing : Nat) (d : Dev) : Dev :=
  match d.aff.reports with
  | [] => d
  | key :: rest =>
    let d1 := affMod (fun a => { a with reports := rest }) d
    if inPopulation (blkGet d1 (key / 4096) (key % 4096)) then sampleNew key points spacing true d1 else d1

/-- A full estimate ends: the block's points, its projection and queueing, and the learning of its bin (R316–R318). -/
def sampleEnd (x : Run) (report : Bool) (es : List ThrEst) (cells : Nat) (d : Dev) : Dev :=
  let die := x.loc.die
  let b := blkGet d die x.loc.block
  if b.st = .free ∨ b.st = .erasing ∨ b.st = .retired then d
  else
    let pt : Sample := { age := blkAge d b, count := match worstThr es with | some e => e.count | none => 0 }
    let ref := match b.refPt with | some r => some r | none => if 86400 ≤ d.aff.mtime - b.opened then some pt else none
    let bad := es.any (fun e => e.edge || e.invalid)
    let m := rd d.hw R.AFFINEUR_MARGIN
    let v := projectSample ref pt bad cells (fld (rd d.hw R.AFFINEUR_CYCLE) 0 8) (fld (rd d.hw R.AFFINEUR_SLOPE) 0 16) (fld m 16 16)
      (fld m 0 16)
    let d1 := blkPut { (affMod (fun a => { a with samples := a.samples + 1 }) d) with hw := md d.hw R.AFFINEUR_SAMPLES (fun w => bumpFld w 0 32 1) } die x.loc.block
      { b with refPt := ref, last := some pt, sampled := d.aff.mtime }
    let d2 := if v.urgent || v.normal then refQueue (die * 4096 + x.loc.block) v.urgent v.cross d1 else d1
    if report || b.suspect || x.slc then d2 else binLearn x.bin es d2

/-- A write to AFFINEUR_CTRL: EN starts a cadence cycle and the wait for a Timestamp; PAUSE; SWEEP (R315, Table 10.7). -/
def affCtrlWrite (v : Word) (d : Dev) : Dev :=
  let was := bit (rd d.hw R.AFFINEUR_CTRL) 0
  let d1 := { d with hw := md d.hw R.AFFINEUR_CTRL (fun w => rwWrite 5#32 w v) }
  let st := affState d1.hw
  let d2 := affMod (fun a => { a with st := if a.st = 2 ∧ st ≠ 0 then 2 else st, paused := if st = 0 then none else a.paused,
                                      stamped := a.stamped && was }) d1
  let d3 := if !was && bit v 0 then cycleStart d2 else d2
  if bit v 1 then sweepStart d3 else d3

/-! Media time (R310–R312, R315). -/

/-- The counters "since format" of logs 0xC0, 0xC1, 0xC4 and 0xC5, keyed as their COUNTER records: log page × 256 + field (R76, Table 14.9).
The fields of a page are numbered in its order (DESIGN CHOICE, log entry 116). -/
def formatCounts (d : Dev) : List (Nat × Nat) :=
  (List.range 32).map (fun i => (0xC000 + i, tabGetD d.fl.hostDepth i 0))
    ++ [(0xC100, d.aff.samples), (0xC101, d.aff.cycles), (0xC102, d.aff.rewrites)]
    ++ (List.range 3).map (fun p => (0xC110 + p, tabGetD d.aff.retired p 0))
    ++ [
        (0xC400, tabGetD d.therm.crossings 1 0), (0xC401, tabGetD d.therm.crossings 2 0), (0xC402, d.therm.pauseTotal),
        (0xC403, d.therm.shutdowns), (0xC500, d.holdup.longestUs), (0xC501, d.holdup.flushes)]

/-- A counter's value in its record; 0 where it has none. -/
def countRecord (d : Dev) (k : Nat) : Nat :=
  match tabGet d.sj.cur (sjKey 0x30 k) with
  | some v => leNat (v.payload.take 8)
  | none => 0

/-- The device with its counters since format as `f` gives them. -/
def countsPut (f : Nat → Nat) (d : Dev) : Dev :=
  { d with
    fl := { d.fl with hostDepth := (List.range 32).foldl (fun t i => tabPutD t i (f (0xC000 + i)) 0) d.fl.hostDepth }
    aff := { d.aff with samples := f 0xC100, cycles := f 0xC101, rewrites := f 0xC102,
                         retired := (List.range 3).foldl (fun t p => tabPutD t p (f (0xC110 + p)) 0) d.aff.retired }
    therm := { d.therm with
      crossings := tabPutD (tabPutD d.therm.crossings 1 (f 0xC400) 0) 2 (f 0xC401) 0, pauseTotal := f 0xC402, shutdowns := f 0xC403 }
    holdup := { d.holdup with longestUs := f 0xC500, flushes := f 0xC501 } }

/-- The counters since format kept in the Rind store: a COUNTER record for each that has changed. They are written with the MEDIA_TIME record
(R76; DESIGN CHOICE, log entry 116). -/
def countsSave (d : Dev) : Dev :=
  (formatCounts d).foldl (fun x q => if countRecord x q.1 = q.2 then x else sjPut 0x30 q.1 (leBytes 8 q.2) x) d

/-- The counters since format after a loss of power, from their records (R76). -/
def countsLoad (d : Dev) : Dev := countsPut (countRecord d) d

/-- The counters since format begin anew at format (R76). -/
def countsFormat (d : Dev) : Dev := countsSave (countsPut (fun _ => 0) d)

/-- Media time has moved on from `old`: each open reclaim unit that passes its time limit meanwhile has its event (Table 3.5). -/
def fdpTimes (old : Nat) (d : Dev) : Dev :=
  d.med.sbs.foldl (fun x q =>
    if !q.2.closed && (decide (q.2.type = 1) || decide (q.2.type = 2)) && decide (old ≤ q.2.opened + 604800)
        && decide (q.2.opened + 604800 < d.aff.mtime) then fdpEvent 1 q.2.pack q.2.handle q.2.nsid 0 x
    else x) d

/-- MEDIA_TIME_TICK: 25,000,000 HK ticks have passed (R310). -/
def mediaTick (d : Dev) : Dev := fdpTimes d.aff.mtime (affMod (fun a => { a with mtime := a.mtime + 1, ticks := 0 }) d)

/-- MEDIA_TIME_SAVE: media time goes to the settings journal, with the counters since format (R76, R310). -/
def mediaSave (d : Dev) : Dev := countsSave (sjPut 1 0 (leBytes 8 d.aff.mtime) d)

/-- A Set Features Timestamp in milliseconds (R312, R315). -/
def timestampSet (ms : Nat) (d : Dev) : Dev :=
  let s := ms / 1000
  if d.aff.mtime < s then
    let d1 := fdpTimes d.aff.mtime (affMod (fun a => { a with mtime := s, ticks := ms % 1000 * 25000, timeSrc := 1, stamped := true }) d)
    if d.aff.savedAtDown + 604800 < s then sweepStart d1 else d1
  else
    affMod (fun a => { a with stamped := true })
      { d with hw := evUnit (irq d.hw irqAffineur 7) 15 0x073 1 s d.aff.mtime 0 }

/-- TIMESTAMP_WAIT_EXPIRY: no Timestamp within 10 minutes of EN (R315). -/
def timestampWait (d : Dev) : Dev := if d.aff.stamped then d else sweepStart d

/-- Get Features Timestamp: media time in milliseconds and the origin (R312). -/
def timestampGet (d : Dev) : Nat × Nat :=
  (d.aff.mtime * 1000 + min 999 (d.aff.ticks / 25000), if d.aff.timeSrc = 1 then 1 else 0)

/-- WEAR_TABLE_WRITE: the erase counts are written as PRIVATE records (R326). -/
def wearWrite (d : Dev) : Dev :=
  affMod (fun a => { a with wearImage := d.med.blks.map (fun q => (q.1, q.2.erases)), wearAt := a.mtime }) d

/-- A block's erase count at restart: the greater of its count in the last table image and, for a block opened after that image, the
ERASE_COUNT of its descriptor plus one (R326; times within one second of the image count as after it, log entry 121). -/
def wearOf (a : Aff) (key : Nat) (b : Blk) : Nat :=
  let image := tabGetD a.wearImage key 0
  if b.desc.isEmpty || decide (b.opened < a.wearAt) then image else max image (leNat ((b.desc.drop 28).take 4) + 1)

/-- The wear table after a restart (R326). -/
def wearRecover (d : Dev) : Dev :=
  { d with med := { d.med with blks := d.med.blks.map (fun q => (q.1, { q.2 with erases := wearOf d.aff q.1 q.2 })) } }

/-- Samples of the present cycle or sweep that are under way. -/
def sampling (d : Dev) : Nat := (d.fl.runs.filter (fun q => match q.2.serves with | .sample r => !r | _ => false)).length

/-- Cycle progress in 1/10,000: the share of the population already sampled; 10,000 during an outage sweep (Table 10.8, R334). -/
def affProgress (d : Dev) : Nat :=
  if d.aff.st = 2 then 10000
  else if d.aff.total = 0 then 0
  else (d.aff.total - d.aff.todo.length - sampling d) * 10000 / d.aff.total

/-- AFFINEUR_STAT (Table 10.8). -/
def affStat (d : Dev) : Word := BitVec.ofNat 32 (d.aff.st * 268435456 + d.aff.timeSrc * 67108864 + affProgress d)

end Sys2Proof.Machine
end

