-- ==== Sys2Proof/Machine/Retriever.lean ====
section
/-!
DEFINITION. Reads on the flash: the array read of a run and its end, the detector jobs, the Retriever ladder (R214–R225), member
reads, read-after-write verdicts (R228–R231), and the end of a run for each of its users.
-/

namespace Sys2Proof.Machine

/-! The pieces of a run. -/

/-- Every read of this run's step passes through a detector (R196). -/
def wantsDet (d : Dev) (x : Run) : Bool :=
  match x.serves with
  | .raw _ _ _ _ | .sample _ => true
  | _ => decide ((prof d).bpc = 5) || decide (3 ≤ x.step) || (decide (x.step = 2) && decide (x.sub = 0))

/-- Thresholds of the run's page. -/
def runThr (d : Dev) (x : Run) : List Nat := pageThr (prof d) x.slc x.loc.page

/-- The bin vector of a run, as its channel's sequencer finds it now. -/
def binVec (d : Dev) (x : Run) : List (Nat × Int) := entVec (prof d) (binEntry d (chOf x.loc.die) x.bin)

/-- The run is a read-after-write sample or a full pilot estimate. -/
def outside (x : Run) : Bool := match x.serves with | .raw _ _ _ _ | .sample _ => true | _ => false

/-- The run's present read takes its vector from the drift-bin table (R176, R192, R196, R214, R228). An SLC page's step 0 is at OFFSET_SLC on
PLC, and at DEFAULT elsewhere (DEDUCED, log entry 106). -/
def needsBin (p : Profile) (x : Run) : Bool :=
  outside x || (if x.slc then decide (p.bpc = 5) || decide (x.step ≠ 0)
    else classJob x || decide (x.step = 1) || (decide (x.step = 2) && decide (x.sub = 0)))

/-- The offset vector that a run's present read takes, from the bin's entry where it needs one: the centre of a pilot or sweep job (R176, R194,
R196, R214, R228). SLC pages take OFFSET_SLC. -/
def wantVec (p : Profile) (x : Run) (e : List Byte) : List (Nat × Int) :=
  if needsBin p x then (if x.slc then [(0, entOffset e 0)] else entVec p e)
  else if x.slc || decide (x.step = 0) then []
  else if x.step = 5 ∧ x.sub = 1 then x.sweep else x.vec

/-- K of a pilot or sweep job, times its spacing: how far its points reach (Table 6.5). -/
def jobReach (x : Run) : Nat := x.points / 2 * x.spacing

/-- An offset within the range that a die accepts (Table 6.1, R178). -/
def offClamp (i : Int) : Int := max (-128) (min 127 i)

/-- The vector that a run's present read leaves loaded in its LUN: of a pilot or sweep job, that of its last point (R175, R186, R194). -/
def leftVec (p : Profile) (x : Run) (v : List (Nat × Int)) : List (Nat × Int) :=
  let reach := Int.ofNat (jobReach x)
  let moved := fun (ts : List Nat) => ts.foldl (fun t j => tabPut t j (vecAt v j + reach)) v
  let last : List (Nat × Int) := match runMode x with
    | 3 => moved ((List.range (2 ^ p.bpc)).filter (fun j => decide (1 ≤ j)))
    | 4 => moved (pageThr p x.slc x.loc.page)
    | _ => v
  last.map (fun q => (q.1, offClamp q.2))

/-- The planes that a run's present read occupies: every plane for a pilot estimate (R186). -/
def runPlanes (d : Dev) (x : Run) : List Nat := if runMode x = 3 then List.range (prof d).planes else [x.loc.plane]

/-- The commands of a run's present read: Set Features where the LUN holds another vector, or where the job sweeps several (R175, R186, R194),
and the read. -/
def readCmds (p : Profile) (x : Run) (old new : List (Nat × Int)) : List FchCmd :=
  let set := !vecSame (List.range (2 ^ p.bpc)) old new || decide (runMode x = 3) || decide (runMode x = 4)
  (if x.slc then [.slcPrefix] else []) ++ (if set then [.setFeatures] else [])
    ++ (match runMode x with
      | 1 => [.softRead]
      | 2 => [.softRead]
      | 3 => if 1 < p.planes then [.readMulti, .read] else [.read]
      | _ => [.read])

/-- Offset source code of Table 6.9 for a run's output. SLC reads at OFFSET_SLC are of source BIN (DEDUCED, log entry 106). -/
def srcCode (p : Profile) (x : Run) : Nat :=
  if outside x then 1
  else if x.slc then (if needsBin p x then 1 else 0)
  else match x.step with
    | 0 => 0
    | 1 => 1
    | 2 => if x.sub = 0 then 1 else 2
    | 5 => if x.sub = 1 then 3 else 2
    | _ => 2



/-! Rebuild balance (R135). -/

/-- A Pack's balance now, in member reads × 25,000,000; it starts full. -/
def balNow (d : Dev) (p : Nat) : Int :=
  let cap := Int.ofNat ((rd d.hw (R.HERDER_RBBURST p)).toNat * 25000000)
  match tabGet d.fl.balance p with
  | none => cap
  | some (v, t) => min cap (v + Int.ofNat ((rd d.hw (R.HERDER_RBRATE p)).toNat * (d.hw.time.toNat - t)))

/-- A charge of `n` member reads; never refused, saturating at −2^31; RB_LOW when the balance becomes 0 or less; no charge while
the rate is 0 (R135). -/
def balCharge (p n : Nat) (d : Dev) : Dev :=
  if (rd d.hw (R.HERDER_RBRATE p)).toNat = 0 then d
  else
    let v := balNow d p
    let w := max (-(2147483648 * 25000000)) (v - Int.ofNat (n * 25000000))
    { d with fl := { d.fl with balance := tabPut d.fl.balance p (w, d.hw.time.toNat) },
             hw := irqIf (md d.hw (R.HERDER_RBDRAW p) (fun c => bumpFld c 0 32 n)) (decide (0 < v) && decide (w ≤ 0)) irqHerder (2 + p) }

/-- The balance covers `n` member reads, or the Pack has no budget (R131, R135). -/
def balCovers (d : Dev) (p n : Nat) : Bool :=
  decide ((rd d.hw (R.HERDER_RBRATE p)).toNat = 0) || decide (Int.ofNat (n * 25000000) ≤ balNow d p)

/-! Stripe rows of a run (R212, R219, R220). -/

/-- The superblock of a run that lies in a stripe row whose parity is on the media. -/
def runRow (d : Dev) (x : Run) : Option Sb :=
  match x.serves with
  | .journal _ _ | .raw _ _ _ _ | .sample _ => none
  | _ => match sbGet d x.sb with
    | some s => if s.type ≤ 3 ∧ s.rowsDone.contains (rowAny d s x.k) then some s else none
    | none => none

/-- Positions of the other members at the run's place in its row. -/
def otherKs (d : Dev) (s : Sb) (x : Run) : List Nat :=
  let me := memAny d s x.k
  ((List.range s.members.length).filter (fun i => decide (i ≠ me))).map (fun i =>
    memberK d s (rowAny d s x.k) (slotAny d s x.k) i)

/-- A codeword waits for its rebuild (R226). -/
def awaitsRebuild (d : Dev) (sb k : Nat) : Bool := d.med.rebuilds.any (fun q => q.2.left.contains (sb, k))

/-- A codeword can be read from its die. -/
def codeReadable (d : Dev) (s : Sb) (sb k : Nat) : Bool := dieUp d (locAny d s k).die && !awaitsRebuild d sb k

/-- Member reads of a run queued on every other member, with its deadline and class (R133, R219). -/
def memberReads (r : Nat) (rebuild : Bool) (x : Run) (s : Sb) (d : Dev) : Dev :=
  let res := (otherKs d s x).foldl (fun (b : List Nat × Dev) k =>
    let y := { runAt b.2 (if rebuild then .memberRb r else .memberRa r) (locAny b.2 s k) x.sb k x.cls x.deadline x.slc with
                 lba := 0, nsid := s.nsid, kennel := s.kennel }
    let q := runNew y b.2
    (b.1 ++ [q.1], q.2)) ([], d)
  runPut res.2 r { x with st := .members, members := res.1, lostMember := false }

/-! The end of a run. -/

/-- A host read's deepest step is counted for the device and for its Pack (R76, log 0xC0). -/
def depthNote (p depth : Nat) (d : Dev) : Dev :=
  let hour := d.hw.time.toNat / 90000000000
  let one := fun (s : Nat) (x : Dev) =>
    { x with fl := { x.fl with
        hostDepth := tabMod x.fl.hostDepth (s * 8 + depth) 0 (fun n => n + 1)
        hourDepth := tabMod x.fl.hourDepth ((hour * 4 + s) * 8 + depth) 0 (fun n => n + 1) } }
  one (p + 1) (one 0 d)

/-- The time a run spent in its step, where it is the hour's longest (R76, log 0xC0). -/
def stepNote (x : Run) (d : Dev) : Dev :=
  let us := (d.hw.time.toNat - x.stepAt) / 25
  let hour := d.hw.time.toNat / 90000000000
  { d with fl := { d.fl with longest := tabMod (d.fl.longest.filter (fun q => decide (hour ≤ q.1 / 8 + 24)))
                                          (hour * 8 + x.step) 0 (fun n => max n us) } }

/-- A host read's codeword is delivered, or lost: the last one completes the command, or leaves its data for the host transfer
(R41, R216, R223). A Verify moves no data. -/
def hostRunEnd (tag i die : Nat) (good : Bool) (data depth : Nat) (d : Dev) : Dev :=
  match tabGet d.host.ops tag with
  | none => d
  | some o =>
    let bad := if good then o.bad else some (match o.bad with | some b => min b (o.lba + i) | none => o.lba + i)
    let o1 := { o with runs := o.runs - 1, depth := max o.depth depth, bad := bad,
                       out := if good then o.out.set i data else o.out }
    let d1 := { d with host := { d.host with ops := tabPut d.host.ops tag o1 } }
    if o1.runs ≠ 0 then d1
    else match o1.bad with
      | some lba =>
        let d2 := { d1 with host := { d1.host with errLog := d1.host.errLog ++ [(o.cmd.nsid, lba)] } }
        readClose tag .unrecoveredRead die [] d2
      | none =>
        if o.quiet then opEnd tag .success 0 0 [] d1
        else if o.cmd.op = .verify then opEnd tag .success 0 0 [] d1
        else opMod tag (fun o => { o with st := .ready }) d1

/-- The run leaves the table; its context frees, its depth is counted, and superblocks whose erasure it held go (R216, R270). -/
def runDrop (r depth : Nat) (counted : Bool) (d : Dev) : Dev :=
  let d1 := ctxFree r d
  let fl := { d1.fl with runs := tabDel d1.fl.runs r,
                         stepCnt := if counted then tabMod d1.fl.stepCnt depth 0 (fun n => min 0xFFFFFFFF (n + 1)) else d1.fl.stepCnt,
                         ctxWait := d1.fl.ctxWait.filter (fun q => decide (q ≠ r)) }
  let doomed := d1.med.doomed.map (fun x => { x with runs := x.runs.filter (fun q => decide (q ≠ r)) })
  doomCheck { d1 with fl := fl, med := { d1.med with doomed := doomed } }

/-- A member read ends for the run it serves. A lost member of a rebuild sends it to step 7 at its next command; a lost member of a
read-around ends that, and the read joins its own die's queue again at step 0 (R220, R221). The answer says that the run has
lost its rebuild. -/
def memberEnd (p r : Nat) (rebuild good : Bool) (d : Dev) : Bool × Dev :=
  match runGet d p with
  | none => (false, d)
  | some x =>
    if !x.members.contains r then (false, d)
    else
      let left := x.members.filter (fun q => decide (q ≠ r))
      if good then
        (false, runPut d p { x with members := left, st := if left.isEmpty then .decoding else .members })
      else if rebuild then (true, runPut d p { x with members := [], lostMember := true })
      else (false, runQueue p (runPut d p { x with members := [], step := 0, sub := 0 }))

/-- UNRECOVERED_DECLARE: the record of a codeword that reaches step 7 (R222). -/
def unrecRecord (loc : Loc) (nsid lba : Nat) (d : Dev) : Dev :=
  let h1 := md (irq d.hw irqLdpc 0) R.LDPC_UNREC (fun w => bumpFld w 0 32 1)
  let h2 := wr h1 R.LDPC_LUNREC0 (BitVec.ofNat 32 (loc.block * 1048576 + loc.plane * 262144 + loc.slot * 65536 + loc.die))
  let h3 := wr h2 R.LDPC_LUNREC1 (BitVec.ofNat 32 (loc.wl * 8 + loc.page))
  let h4 := evUnit h3 19 0x030 4 (loc.die + 2048 * loc.block + 8388608 * loc.wl) (loc.page + 8 * loc.plane + 32 * loc.slot) nsid
  { d with hw := (evPost h4 0x113 0x031 4 true (BitVec.ofNat 32 lba) (BitVec.ofNat 32 (lba / 4294967296)) 0#32).2 }

/-- A journal codeword fails on one block of its pair: JFLUSH_ERR, and it is read from the other block; on both: JLOST and the
event, and the segments that depend on it are rebuilt by a tag scan, which reads of their LBAs wait for (R298). -/
def journalLost (x : Run) (j : Nat) (both : Bool) (d : Dev) : Dev :=
  if both then
    let segs := match tabGet d.med.jr.words j with
      | some b => (b.segs ++ b.recs.flatMap (recSegs d)).eraseDups
      | none => []
    segs.foldl (fun y s => segWait s y) { d with hw := evUnit (irq d.hw irqMapu 12) 14 0x061 4 j (j / 4294967296) 0 }
  else
    let h := irq d.hw irqMapu 5
    match (d.med.jr.pairs ++ d.med.jr.old).find? (fun q => decide (q.dieA = x.loc.die) && decide (q.blkA = x.loc.block)) with
    | some q =>
      let loc : Loc := { x.loc with die := q.dieB, block := q.blkB }
      (runNew (runAt d (.journal j true) loc 0 0 3 x.deadline true) { d with hw := h }).2
    | none => { d with hw := h }

/-- A journal codeword that failed on one block is read from the other: it is written again at the head by the next flush (R298). -/
def journalAgain (j : Nat) (d : Dev) : Dev :=
  match tabGet d.med.jr.words j with
  | some b => { d with med := { d.med with jr := { d.med.jr with carry := d.med.jr.carry ++ [b] } } }
  | none => d

/-- What the end of a run gives its user. The answered numbers are runs whose rebuild is lost. -/
def runGive (x : Run) (r : Nat) (good : Bool) (depth : Nat) (d : Dev) : List Nat × Dev :=
  match x.serves with
  | .host tag i => ([], hostRunEnd tag i x.loc.die good x.data depth (depthNote (packOf x.loc.die) depth d))
  | .memberRa p =>
    let q := memberEnd p r false good d
    ([], if good then q.2 else affReport x.loc.die x.loc.block 6 q.2)
  | .memberRb p =>
    let q := memberEnd p r true good d
    (if q.1 then [p] else [], q.2)
  | .journal j both => ([], if !good then journalLost x j both d else if both then journalAgain j d else d)
  | _ => ([], d)

/-- A run that was given `depth` ends, with every run attached to it (R216, R218, R222). -/
def runEnd (r : Nat) (good : Bool) (d : Dev) : List Nat × Dev :=
  match runGet d r with
  | none => ([], d)
  | some x =>
    let ladder := match x.serves with | .raw _ _ _ _ | .sample _ => false | _ => true
    let member := match x.serves with | .memberRa _ | .memberRb _ | .journal _ _ => true | _ => false
    let depth := if good || member then x.depth else 7
    let n := if ladder && !member then stepNote x d else d
    let d0 := if good || member then n else unrecRecord x.loc x.nsid x.lba n
    let d1 := runDrop r depth ladder d0
    let a := runGive x r good depth d1
    let b := x.attached.foldl (fun (t : List Nat × Dev) q =>
      match runGet t.2 q with
      | none => t
      | some y =>
        let z := runGive y q good depth (runDrop q depth false t.2)
        (t.1 ++ z.1, z.2)) a
    (b.1, if ladder && !member && decide (4 ≤ depth) then affReport x.loc.die x.loc.block depth b.2
          else if ladder && good && decide (4 ≤ depth) then affReport x.loc.die x.loc.block depth b.2 else b.2)

/-! The ladder (R214, R215). -/

/-- No detector is in service (R215, Table 6.11). -/
def noDet (d : Dev) : Bool := (List.range (detCount d.fuse)).all (fun n => !detUp d n)

/-- The step after a failed one, with the skips of R215; 8 where a member read, or a codeword of no row, has no further step of
its own. -/
def nextStep (d : Dev) (x : Run) : Nat :=
  let none1 := vecSame (runThr d x) (binVec d x) []
  let sweep := match x.serves with | .scan => true | _ => false
  let ok : Nat → Bool := fun s =>
    if s = 1 then !none1
    else if s = 2 then !x.slc && !noDet d
    else if s = 3 then !noDet d && !sweep
    else if s = 4 ∨ s = 5 then !x.slc && !noDet d && !sweep
    else true
  let s := ((List.range 7).map (fun i => x.step + 1 + i)).find? (fun s => ok s)
  let t := s.getD 7
  if t ≤ 5 then t
  else match x.serves with
    | .memberRa _ | .memberRb _ | .journal _ _ => 8
    | _ => if t = 6 ∧ (runRow d x).isSome then 6 else 7

/-- A member's wordline of a row has been programmed: the row's programs are under way, and this one is neither queued nor running. -/
def rowProgrammed (d : Dev) (sb : Nat) (s : Sb) (row i : Nat) : Bool :=
  let mine : FJob → Bool := fun j => match j.serves with | .row b r k => decide (b = sb ∧ r = row ∧ k = i) | _ => false
  let y := dieGet d (memberBlk s row i).1
  s.rowsDone.contains row || ((tabGet s.rowWait row).isSome && !y.pq.any mine
    && (match arrJob y with | some j => !mine j | none => true))

/-- Wordline n + 1 of a run's wordline n exists and is programmed: its classes are read, else every cell of it has class 0 (R192). -/
def aboveRead (d : Dev) (x : Run) : Bool :=
  decide (x.loc.wl + 1 < (prof d).wordlines) && (match sbGet d x.sb with
    | some s => s.closed || (match memberOfBlk s x.loc.die x.loc.block with
      | some i => decide (memberBlk s x.loc.wl i = (x.loc.die, x.loc.block)) && rowProgrammed d x.sb s x.loc.wl i
      | none => true)
    | none => true)

/-- A class read of a neighbour wordline is needed: it exists, is not the pilot, and is programmed (R192). -/
def classRead (d : Dev) (x : Run) : Bool := decide (1 < x.loc.wl) || aboveRead d x

/-- The class codes of both neighbours for the cells of a codeword: as read, but exact where no class read is issued (R192). -/
def classCodes (d : Dev) (x : Run) (obs : List ((Nat × Nat × Nat) × (Nat × Nat × Nat))) :
    List ((Nat × Nat × Nat) × (Nat × Nat × Nat)) :=
  let p := prof d
  let n := 8 * codeBytes p.family
  let above := aboveRead d x
  let hi := fun (q : Nat × Nat × Nat) => if above then q else (0, 0, 0)
  if x.loc.wl = 1 then
    let b := blkGet d x.loc.die x.loc.block
    let cs := (((pilotWl p x.loc.die x.loc.plane x.loc.block b.desc).drop (x.loc.slot * n)).take n).map (levelClass p.bpc)
    (cs.zip (List.range n)).map (fun c => ((c.1, c.1, c.1), hi (obs.getD c.2 ((0, 0, 0), (0, 0, 0))).2))
  else obs.map (fun q => (q.1, hi q.2))

/-- A job starts on the context that its run holds: its drift-bin entry is loaded (R182); a table in a closed domain is woken, and the job
waits for it. -/
def detStart (r : Nat) (d : Dev) : Dev :=
  match runGet d r with
  | none => d
  | some x => match x.det with
    | none => d
    | some (n, _) => match detGate d n x.bin with
      | some dom =>
        wakeReq dom 2 (runPut { d with fl := { d.fl with ctxWait := d.fl.ctxWait.filter (fun q => decide (q ≠ r)) ++ [r] } } r
          { x with st := .wantCtx })
      | none =>
        let e := detLoad n x.bin d
        runPut { e.2 with fl := { e.2.fl with ctxWait := e.2.fl.ctxWait.filter (fun q => decide (q ≠ r)) } } r
          { x with st := .detecting, ent := e.1 }

/-- A job of a pilot estimate or a valley search whose points or spacing fail their check reads nothing (R186, R194). -/
def badSweep (x : Run) : Bool := (decide (runMode x = 3) || decide (runMode x = 4)) && decide (sweepStatus x.points x.spacing ≠ .ok)

/-- The present reads of a run's step begin: at its die, or, with nothing to read, at its detector (R186, R192). -/
def stepGo (r : Nat) (d : Dev) : Dev :=
  match runGet d r with
  | none => d
  | some x =>
    if (classJob x && !classRead d x) || badSweep x then (if x.det.isSome then detStart r d else ctxRequest r d)
    else runQueue r d

/-- A run enters step 6: the charge, STEP6, and one member read on each other member, or its failure where a member cannot be read
(R219, R220). The answer says that it failed. -/
def stepSix (r : Nat) (d : Dev) : Bool × Dev :=
  match runGet d r with
  | none => (false, d)
  | some x =>
    let d1 := ctxFree r { d with hw := irq d.hw irqLdpc 3 }
    match runRow d1 x with
    | none => (true, d1)
    | some s =>
      let ok := (otherKs d1 s x).all (fun k => codeReadable d1 s x.sb k)
      let d2 := balCharge (packOf x.loc.die) (s.members.length - 1) d1
      if ok then (false, memberReads r true { x with step := 6, stepAt := d.hw.time.toNat, depth := 6, det := none } s d2)
      else (true, runPut d2 r { x with step := 6, stepAt := d.hw.time.toNat, depth := 6, det := none })

/-- A run enters a step: a read at its die, or, with nothing to read, straight to its detector; step 6; or the end. -/
def stepTo (r s : Nat) (d : Dev) : List Nat × Dev :=
  match runGet d r with
  | none => ([], d)
  | some x =>
    if s ≤ 5 then
      let x1 := { x with step := s, stepAt := d.hw.time.toNat, sub := 0, depth := max x.depth s, points := if s = 2 then 5 else 9, spacing := 2 }
      ([], stepGo r (runPut (stepNote x d) r x1))
    else if s = 6 then
      let q := stepSix r (stepNote x d)
      if q.1 then runEnd r false q.2 else ([], q.2)
    else runEnd r false d

/-- Runs whose rebuild is lost reach step 7; a chain of lost runs is as long as the table at most. -/
def loseAll : Nat → List Nat → Dev → Dev
  | 0, _, d => d
  | _, [], d => d
  | n + 1, r :: rs, d => let q := runEnd r false d; loseAll n (rs ++ q.1) q.2

/-- Ending the answered runs. -/
def loseOf (q : List Nat × Dev) : Dev := loseAll (q.2.fl.runs.length + q.1.length) q.1 q.2

/-- RAW_SAMPLE_VERDICT: a failed sample is counted and flagged, and the member, or the pilot's block, is replaced; a passed one
counts for its row (R229–R231, R243). -/
def rawVerdict (r : Nat) (ok : Bool) (d : Dev) : Dev :=
  match runGet d r with
  | none => d
  | some x =>
    let d1 := runDrop r 0 false { d with hw := md d.hw R.LDPC_RAW_SAMPLES (fun w => bumpFld w 0 32 1) }
    match x.serves with
    | .raw sb row member _ =>
      let current := match sbGet d1 sb with
        | some s => x.loc.wl = 0 || decide (memberBlk s row member = (x.loc.die, x.loc.block))
        | none => false
      if ok then (if x.loc.wl = 0 then d1 else rowStep sb row d1)
      else
        let h := md (irq d1.hw irqLdpc 1) R.LDPC_RAW_FAILS (fun w => bumpFld w 0 32 1)
        let d2 := { d1 with hw := evUnit h 19 0x033 2 x.loc.die x.loc.block row }
        if !current then (if x.loc.wl = 0 then d2 else rowStep sb row d2)
        else if x.loc.wl = 0 then pilotFail x.loc.die x.loc.block sb d2
        else memberFail x.loc.die x.loc.block sb row member d2
    | _ => d1

/-- A step of a run has failed: a sample fails, a member read exhausted loses its user, and any other run climbs (R214, R220,
R221, R229). -/
def stepFail (r : Nat) (d : Dev) : Dev :=
  match runGet d r with
  | none => d
  | some x => match x.serves with
    | .raw _ _ _ _ => rawVerdict r false d
    | .sample _ => runDrop r 0 false d
    | _ =>
      if x.step = 0 ∧ x.sub = 1 then
        runQueue r (runPut d r { x with step := 0, sub := 0, members := [] })
      else
        let s := nextStep d x
        loseOf (stepTo r s d)

/-! Array reads. -/

/-- Whether the die can take a read on some planes now: nothing runs unsuspended, and no read is on them (R125). -/
def planeFree (d : Dev) (die : Nat) (planes : List Nat) : Bool :=
  let y := dieGet d die
  (match y.arr with | some a => a.suspended && !a.due | none => true)
    && y.reading.all (fun q => match runGet d q with | some z => (runPlanes d z).all (fun n => !planes.contains n) | none => true)

/-- A read served while an operation is suspended: S0, or S1 queued when the suspend took effect (R129). -/
def mayRead (d : Dev) (die r : Nat) (x : Run) : Bool :=
  match (dieGet d die).arr with
  | some a => decide (x.cls = 0) || (decide (x.cls = 1) && a.heldQ.contains r)
  | none => true


/-- The read that a run serves, by way of the reads that its member read serves, is dispatched: its first flash operation goes to an FCH
(R124, R134). `f` bounds the chain. -/
def runMarkF : Nat → Nat → Dev → Dev
  | 0, _, d => d
  | f + 1, r, d =>
    match runGet d r with
    | none => d
    | some x =>
      let d1 := x.attached.foldl (fun y q => runMarkF f q y) d
      match x.serves with
      | .host tag _ => opMod tag (fun o => { o with dispatched := true }) d1
      | .memberRa p | .memberRb p => runMarkF f p d1
      | _ => d1

/-- The read that a run serves is dispatched (R124). -/
def runMark (r : Nat) (d : Dev) : Dev := runMarkF (d.fl.runs.length + 1) r d

/-- READ_START: a run's array read begins: at its first one its bands are taken; its vector is loaded where it differs; and the channel's
pause begins anew (R175, R180, R472). A vector whose table lies in a closed domain waits for its wake. -/
def readStart (die r : Nat) (d : Dev) : Dev :=
  match runGet d r with
  | none => d
  | some x =>
    let p := prof d
    let band := binIndex d die x.loc.block
    let bin := match x.serves with | .raw _ _ _ _ => band / 32 * 32 + band % 4 | _ => band
    let x0 := if x.sent then x else { x with bin := bin, sent := true }
    match (if needsBin p x0 then entGate d (32 + chOf die) x0.bin else none) with
    | some dom => wakeReq dom 2 d
    | none =>
      let e := if needsBin p x0 then entRead (32 + chOf die) x0.bin d else ([], d)
      let v := wantVec p x0 e.1
      let x1 := { x0 with
        st := .reading, since := d.hw.time.toNat, vec := if runMode x0 = 3 then v else x0.vec,
        used := if classJob x0 ∨ runMode x0 = 3 ∨ runMode x0 = 4 then x0.used else v }
      let y := dieGet d die
      let d1 := diePut (busUse die (readCmds p x0 y.vec v) (runPut e.2 r x1)) die
        { y with rq := y.rq.filter (fun q => decide (q ≠ r)), reading := y.reading ++ [r], vec := leftVec p x0 v }
      runMark r (overflowFill die 255 (startMark (chOf die) d1))

/-- RESUME_ISSUE: a suspended operation resumes once no read is in progress and either its hold has passed or no qualifying read
is queued (R129, R154). -/
def resumeCheck (die : Nat) (d : Dev) : Dev :=
  let y := dieGet d die
  match y.arr with
  | some a =>
    let more := y.rq.any (fun r => match runGet d r with | some x => mayRead d die r x | none => false)
    if a.suspended && y.reading.isEmpty && (a.due || !more) then
      busUse die [match a.op with | .erase => .eraseResume | _ => .programResume]
        (diePut d die { y with arr := some { a with suspended := false, due := false, since := d.hw.time, heldQ := [] } })
    else d
  | none => d

/-- A run leaves its die's queue without being read there: overflow reads join, and a suspension that nothing more needs ends (R125, R129). -/
def rqLeave (r die : Nat) (d : Dev) : Dev := resumeCheck die (rqDrop r die d)

/-- A run's page leaves its die's page register over the bus. -/
def pageOut (r die : Nat) (d : Dev) : Dev :=
  let z := dieGet d die
  if z.reading.contains r then
    leaveCheck die (resumeCheck die (busUse die [.changeReadColumn]
      (diePut d die { z with reading := z.reading.filter (fun q => decide (q ≠ r)) })))
  else d


/-- A run whose codeword is at the decoders or waits for one; XORU's own combinations are not there (R205, R212). -/
def atDecoders (x : Run) : Bool :=
  decide (x.st = .decoding) && decide (x.step ≠ 6) && !(decide (x.step = 0) && decide (x.sub = 1))

/-- The lowest-numbered free decoder, in a bank that is ON, of the kind that a run's step needs (R205, Table 7.2). -/
def decFree (d : Dev) (x : Run) : Option Nat :=
  let ns := if runMode x = 1 ∨ runMode x = 2 then (List.range 16).map (fun i => 48 + i) else List.range 48
  ns.find? (fun n => domOn d.pwr (87 + decBank n) && decide (x.decNot ≠ some n) && d.fl.runs.all (fun q => decide (q.2.dec ≠ some n)))

/-- A run's codeword goes to a decoder, where one is free. -/
def decTake (r : Nat) (d : Dev) : Dev :=
  match runGet d r with
  | none => d
  | some x => match decFree d x with
    | none => d
    | some n => runPut d r { x with dec := some n, decNot := none }

/-- Codewords that wait for a decoder get one while decoders run, in deadline order (R205, Table 7.7). -/
def decAssign (d : Dev) : Dev :=
  if !bit (rd d.hw R.LDPC_CTRL) 0 then d
  else
    let ws := (d.fl.runs.filter (fun q => atDecoders q.2 && q.2.dec.isNone)).foldl (fun t q =>
      tabPut t (q.2.deadline * 4294967296 + q.1) q.1) []
    ws.foldl (fun x q => decTake q.2 x) d

/-- A run's codeword arrives at the decoders: with every bank closed one is woken (R205, R25). -/
def toDecode (r : Nat) (d : Dev) : Dev :=
  match runGet d r with
  | none => d
  | some x =>
    let d1 := decAssign (runPut d r { x with st := .decoding })
    if (List.range 4).any (fun b => domOn d1.pwr (87 + b)) then d1 else wakeReq 87 2 d1

/-- What a detector job gives a run goes to the decoders, whose input stage removes the scrambler of the run's own address (R206, R252). -/
def toDecodeWith (r : Nat) (hard : List Bool) (llr : List Int) (d : Dev) : Dev :=
  match runGet d r with
  | none => d
  | some x =>
    toDecode r (runPut d r { x with inHard := descramble (prof d).family x.loc hard, inLlr := descrambleLlr (prof d).family x.loc llr })

/-- The array read of a run ends: by bypass to the decoders, to the detector whose context it holds, or to a context request
(R196, R197, R199). -/
def readEnd (die r : Nat) (d : Dev) : Dev :=
  match runGet d r with
  | none => d
  | some x =>
    if !wantsDet d x then pageOut r die (toDecodeWith r [] [] d)
    else if x.det.isSome then
      let d1 := detStart r d
      match runGet d1 r with
      | some y => if y.st = .detecting then pageOut r die d1 else d1
      | none => d1
    else ctxRequest r d

/-- A read with S0 deadline on a channel is complete and can be transferred: its sequencer starts no poll until the transfer starts (R127). -/
def pollBarred (d : Dev) (c : Nat) : Bool :=
  d.fl.ctxWait.any (fun r => match runGet d r with
    | some x => decide (chOf x.loc.die = c) && decide (x.cls = 0) && (x.det.isSome || (detPick d c x.avoid).isSome)
    | none => false)

/-- LUN_READY: a poll reports a LUN ready: its array operation ends, else the read in progress on a plane (R127, R149, R158). -/
def lunReady (die plane : Nat) (pass idOk : Bool) (trainOk : BitVec 4) (verified : Bool) (d0 : Dev) : Dev :=
  if pollBarred d0 (chOf die) then d0
  else
    let d := busUse die [.readStatus] d0
    let y := dieGet d die
    let busy := match y.arr with | some a => !a.suspended | none => false
    if busy then arrEnd die pass idOk trainOk verified d
    else match (arrReads d y).find? (fun r => match runGet d r with | some x => (runPlanes d x).contains plane | none => false) with
      | some r => readEnd die r d
      | none => d

/-- DIE_TIMEOUT with the reads that fail with it: each climbs its ladder (R150). -/
def dieTimeoutAll (die : Nat) (trainOk : BitVec 4) (d : Dev) : Dev :=
  let q := dieTimeout die trainOk d
  q.1.foldl (fun x r => stepFail r x) q.2

/-! Detector grants and jobs (R182, R197, R199, R200). -/

/-- Lowest free context of a detector. -/
def freeCtx (y : Det) : Nat := ((List.range 4).find? (fun c => (tabGet y.ctx c).isNone)).getD 0

/-- DET_CONTEXT_GRANT: a job on a held context whose drift-bin entry can be loaded now starts; else the first request in order gets a context,
its entry is loaded, and its page leaves the die; a full pool wakes a detector (R182, R197–R199). -/
def ctxGrant (d : Dev) : Dev :=
  let kept := d.fl.ctxWait.find? (fun r => match runGet d r with
    | some x => (match x.det with | some (n, _) => (detGate d n x.bin).isNone | none => false)
    | none => false)
  match kept with
  | some r => (match runGet d r with
    | some x => pageOut r x.loc.die (detStart r d)
    | none => d)
  | none =>
    match ctxAsks d with
    | [] => d
    | r :: _ =>
      match runGet d r with
      | none => d
      | some x =>
        match detPick d (chOf x.loc.die) x.avoid with
        | none => d
        | some n =>
          match detGate d n x.bin with
          | some dom => wakeReq dom 2 d
          | none =>
            let y := detGet d n
            let c := freeCtx y
            let d1 := runPut (detPut d n { y with ctx := tabPut y.ctx c r }) r { x with det := some (n, c), avoid := none }
            detWake (pageOut r x.loc.die (detStart r d1))

/-- The estimates of a PILOT job over some thresholds. -/
def estimates (p : Profile) (page : Nat) (spacing : Nat) (obs : DetObs) : List ThrEst :=
  match obs with
  | .pilotFull pts =>
    ((List.range (2 ^ p.bpc)).filter (fun j => decide (1 ≤ j))).map (fun j =>
      let cells := ((pts.getD 0 []).filter (fun c => decide (c.1 = j) || decide (c.1 + 1 = j))).length
      thrEst j spacing cells (pts.map (fun c => errFull j c)))
  | .pilotQuick pts =>
    (pageThr p false page).map (fun j =>
      let cells := ((pts.getD 0 []).filter (fun c => decide (c.1 = j) || decide (c.1 + 1 = j))).length
      thrEst j spacing cells (pts.map (fun c => errQuick p page j c)))
  | _ => []

/-- Pilot cells of two neighbouring levels on all planes (R317). -/
def pilotCells (p : Profile) : Nat := 2 * (131072 / 2 ^ p.bpc) * p.planes


/-- Thresholds of the class boundaries (R192). -/
def classThr (b : Nat) : List Nat := [2 ^ b / 4, 2 ^ b / 2, 3 * (2 ^ b / 4)]

/-- A position of the job's reads was clamped (R178, R186, R192, R194): of a soft read 3 strobes each way, of a class read one. -/
def jobClamped (d : Dev) (x : Run) : Bool :=
  let p := prof d
  let dl := entDelta x.ent
  match runMode x with
  | 0 => vecClamped (runThr d x) x.used 0
  | 1 => vecClamped (runThr d x) x.used (3 * dl)
  | 2 => vecClamped (runThr d x) x.used (3 * dl) || (classRead d x && vecClamped (classThr p.bpc) (entVec p x.ent) dl)
  | 3 => vecClamped ((List.range (2 ^ p.bpc)).filter (fun j => decide (1 ≤ j))) x.vec (jobReach x)
  | _ => vecClamped (runThr d x) x.vec (jobReach x)

/-- The result header of a run's job (Table 6.9): DISPARITY or ABORTED in `flags`, and CLAMPED. -/
def jobHeader (n r : Nat) (x : Run) (flags count : Nat) (d : Dev) : List Byte :=
  let hard := decide (runMode x = 0)
  resHeader r (runMode x) x.bin (if hard then 1 else 7) (srcCode (prof d) x) (flags + if jobClamped d x then 2 else 0) count
    (if hard then entMhard x.ent else 0) n x.ent.isEmpty

/-- DET_INT_STAT.CLAMPED where a position of the job was clamped (R178). -/
def clampNote (n : Nat) (x : Run) (d : Dev) : Dev := { d with hw := irqIf d.hw (jobClamped d x) (irqDet n) 12 }

/-- DET_STROBE_BUFFER_UE: the job ends ABORTED and is reissued from the array at the same step on another detector, with the earlier planes
of the step read again; three aborts in 24 h take the detector out (R200). The count in an aborted output is not stated: a free value (log
entry 112). -/
def detAbort (n r : Nat) (x : Run) (d : Dev) : Dev :=
  let h := irq (irq d.hw (irqDet n) 8) (irqDet n) 11
  let y := detGet d n
  let out := if runMode x ≤ 2 then jobHeader n r x 4 (Config.freeNat d.hw.free) d else y.out
  let d1 := ctxFree r (clampNote n x (detPut { d with hw := spend h } n { y with aborts := (detAborts d n) ++ [d.hw.time.toNat], out := out }))
  let d2 := match runGet d1 r with
    | some z => stepGo r (runPut d1 r { z with avoid := some n, sub := match z.step with | 4 => 1 | 5 => 2 | _ => z.sub })
    | none => d1
  if 3 ≤ (detAborts d2 n).length ∧ detUp d2 n = true ∧ lastDet d2 n = false then detLeave n 1 d2 else d2

/-- LAST_MODE, the job count and the corrected words of a job that ends (Tables 6.16, 6.18, 6.19). -/
def detCount1 (n mode fix : Nat) (d : Dev) : Dev :=
  let h1 := md d.hw (R.DET_STAT n) (fun w => putFld w 16 4 mode)
  let h2 := md h1 (R.DET_JOBS n) (fun w => bumpFld w 0 32 1)
  { d with hw := md h2 (R.DET_ECC n) (fun w => bumpFld w 16 16 fix) }

/-- The output of a HARD job: the bits, the ones, and DISPARITY with its count (R190, R195). -/
def detHard (n r : Nat) (x : Run) (bits : List Bool) (d : Dev) : Dev :=
  let lim := fld (rd d.hw (R.DET_DISP_LIM n)) 0 10
  let ones := (bits.filter (fun b => b)).length
  let disp := decide (lim ≠ 0) && decide (lim * bits.length < 500 * (2 * Int.ofNat ones - Int.ofNat bits.length).natAbs)
  let h := if disp then md d.hw (R.DET_DISP_CNT n) (fun w => bumpFld w 0 32 1) else d.hw
  clampNote n x (detPut { d with hw := h } n { (detGet d n) with
    out := jobHeader n r x (if disp then 1 else 0) ones d ++ bitBytes (bits.length + 1) bits })

/-- Cells of d = 1 (Table 6.9). -/
def nearCells (planes : List (List Bool)) : Nat := (planes.filter (fun c => decide ((softVal c).dist = 1))).length

/-- The LLRs of a SOFT job (R191). -/
def softLlrs (x : Run) (planes : List (List Bool)) : List Int := planes.map (fun c => softLlr x.ent (softVal c))

/-- The LLRs of a NEIGHBOUR job over the planes and classes of its strobe buffer (R193, R199). -/
def nearLlrs (x : Run) (s : Strobes) : List Int :=
  (s.planes.zip (List.range s.planes.length)).map (fun q =>
    let c := s.classes.getD q.2 ((0, 0, 0), (0, 0, 0))
    neighbourLlr x.ent (softVal q.1) (classCand c.1.1 c.1.2.1 c.1.2.2) (classCand c.2.1 c.2.2.1 c.2.2.2))

/-- The output of a SOFT job (R191, R195). -/
def detSoft (n r : Nat) (x : Run) (planes : List (List Bool)) (d : Dev) : Dev :=
  clampNote n x (detPut d n { (detGet d n) with
    out := jobHeader n r x 0 (nearCells planes) d ++ llrWords (planes.length + 1) (softLlrs x planes) })

/-- The output of a NEIGHBOUR job over the planes and classes of its strobe buffer (R193, R195, R199). -/
def detNeighbour (n r : Nat) (x : Run) (s : Strobes) (d : Dev) : Dev :=
  clampNote n x (detPut d n { (detGet d n) with
    out := jobHeader n r x 0 (nearCells s.planes) d ++ llrWords (s.planes.length + 1) (nearLlrs x s) })


/-- The observation fits the run's present job: its mode, the 7 strobes of a soft read, and the points of a pilot or sweep job. -/
def obsFits (x : Run) (obs : DetObs) : Bool :=
  let pilot := match x.serves with | .raw _ _ _ _ => decide (x.loc.wl = 0) | _ => false
  let sample := match x.serves with | .sample _ => true | _ => false
  match obs with
  | .hard _ => decide (runMode x = 0) && !pilot
  | .levels _ => pilot
  | .soft cells => (decide (runMode x = 1) || (decide (runMode x = 2) && !classJob x)) && cells.all (fun c => decide (c.length = 7))
  | .classes cells => classJob x && cells.all (fun q => decide (q.1.1 < 4 ∧ q.1.2.1 < 4 ∧ q.1.2.2 < 4 ∧ q.2.1 < 4 ∧ q.2.2.1 < 4 ∧ q.2.2.2 < 4))
  | .pilotFull pts => decide (runMode x = 3) && sample && (badSweep x || decide (pts.length = x.points))
  | .pilotQuick pts => decide (runMode x = 3) && !sample && (badSweep x || decide (pts.length = x.points))
  | .sweep cells => decide (runMode x = 4) && (badSweep x || cells.all (fun c => decide (c.2.length = x.points)))
  | .bufferUe => true

/-- A PILOT job ends: its record, PILOT_DONE, and what its user does with the estimate (R186–R188, R313). -/
def pilotDone (n r : Nat) (x : Run) (obs : DetObs) (d : Dev) : Dev :=
  let p := prof d
  let st := sweepStatus x.points x.spacing
  let quick := match x.serves with | .sample _ => none | _ => some x.loc.page
  let es := if st = .ok then estimates p x.loc.page x.spacing obs else []
  let d := if st = .ok then clampNote n x d else d
  let rec1 := pilotRecord st x.points x.spacing p.bpc quick x.loc.die x.loc.block d.hw.time x.bin es
  let y := detGet d n
  let d1 := ctxFree r (detPut { d with hw := irq d.hw (irqDet n) 0 } n { y with pres := rec1 })
  match x.serves with
  | .sample report =>
    let d2 := runDrop r 0 false d1
    cycleCheck (if st = .ok then sampleEnd x report es (pilotCells p) d2 else d2)
  | _ =>
    let v := pilotVec x.vec es
    let x1 := { x with vec := v, sub := 1, det := none }
    if vecSame (runThr d x) v x.used then stepFail r (runPut d1 r x1) else runQueue r (runPut d1 r x1)

/-- DET_JOB_DONE: the job on a context completes its output (R189). `fix` counts corrected strobe-buffer words. -/
def detJobDone (n c : Nat) (obs : DetObs) (fix : Nat) (d : Dev) : Dev :=
  match tabGet (detGet d n).ctx c with
  | none => d
  | some r => match runGet d r with
    | none => d
    | some x =>
      if x.st ≠ .detecting ∨ domOn d.pwr (n + 49) = false ∨ obsFits x obs = false then d
      else
        let d1 := detCount1 n (runMode x) fix d
        match obs with
        | .bufferUe => detAbort n r x d1
        | .hard bits => toDecodeWith r bits [] (ctxFree r (detHard n r x bits d1))
        | .levels ls =>
          rawVerdict r (pilotPass (prof d) x.slc x.loc.die x.loc.plane x.loc.block (blkGet d x.loc.die x.loc.block).desc ls) d1
        | .soft cells =>
          let d2 := bufPut n c { bufGet d1 n c with planes := cells } d1
          if x.step = 4 then stepGo r (runPut d2 r { x with sub := 0 })
          else if x.step = 5 then toDecodeWith r [] (nearLlrs x (bufGet d2 n c)) (detNeighbour n r x (bufGet d2 n c) d2)
          else toDecodeWith r [] (softLlrs x cells) (detSoft n r x cells d2)
        | .classes cells =>
          let d2 := bufPut n c { bufGet d1 n c with classes := classCodes d x cells } d1
          if x.step = 5 then stepGo r (runPut d2 r { x with sub := 0 })
          else toDecodeWith r [] (nearLlrs x (bufGet d2 n c)) (detNeighbour n r x (bufGet d2 n c) d2)
        | .pilotFull _ | .pilotQuick _ => pilotDone n r x obs d1
        | .sweep cells =>
          if badSweep x then stepFail r d1
          else
            let v := sweepVec (runThr d x) x.vec x.points x.spacing cells
            stepGo r (runPut (clampNote n x { d1 with hw := irq d1.hw (irqDet n) 1 }) r { x with sweep := v.1, edges := v.2, sub := 1 })

/-! Decoding (R207–R210). -/

/-- TAG_MISMATCH: the flag and the event (R209). -/
def tagMismatch (x : Run) (d : Dev) : Dev :=
  let l := x.loc
  let a0 := l.die + 2048 * l.block + 8388608 * l.wl
  { d with hw := evUnit (irq d.hw irqLdpc 2) 19 0x032 3 a0 (l.page + 8 * l.plane + 32 * l.slot) x.nsid }

/-- The tag that the copy carries names another LBA or namespace than the dispatch record, or another SEQ_LO than the map entry (R209, R273).
Its Kennel is that of the copy named at admission: a namespace may be bound to several (R116; DEDUCED, log entry 118). -/
def tagDiffers (d : Dev) (x : Run) : Bool :=
  match x.serves, tabGet d.med.copies (uk x.sb x.k) with
  | .host _ _, some c => decide (c.nsid ≠ x.nsid) || decide (c.lba ≠ x.lba)
      || (match x.seqLo with | some q => decide (c.seq % 65536 ≠ q) | none => false)
  | _, _ => false

/-- A run's codeword has a decoder that works, or is XORU's combination. -/
def decReady (d : Dev) (x : Run) : Bool :=
  if atDecoders x then (match x.dec with | some n => domOn d.pwr (87 + decBank n) | none => false)
  else (List.range 4).any (fun b => domOn d.pwr (87 + b))

/-- DECODE_DONE: a decoder finishes a run's codeword, and a waiting one takes its place (R205, R207–R210, R214). `fix` counts corrected input
words. -/
def decodeDone (r : Nat) (out : DecOut) (fix : Nat) (d : Dev) : Dev :=
  match runGet d r with
  | none => d
  | some x =>
    if x.st ≠ .decoding ∨ bit (rd d.hw R.LDPC_CTRL) 0 = false ∨ decReady d x = false then d
    else
      let d1 := runPut { d with hw := md d.hw R.LDPC_ECC (fun w => bumpFld w 16 16 fix) } r { x with dec := none }
      decAssign (match out with
      | .inputUe =>
        let h := md (irq d1.hw irqLdpc 4) R.LDPC_ECC (fun w => bumpFld w 0 16 1)
        let d2 := runPut { d1 with hw := h } r { x with dec := none, decNot := x.dec }
        if x.det.isSome ∨ x.step = 6 ∨ x.sub = 1 ∧ x.step = 0 then d2 else runQueue r d2
      | .fail => stepFail r d1
      | .mismatch =>
        (match x.serves with
        | .raw _ _ _ _ => rawVerdict r false d1
        | _ => loseOf (runEnd r false (tagMismatch x d1)))
      | .good corrected =>
        (match x.serves with
        | .raw _ _ _ _ =>
          let lim := fld (rd d1.hw R.LDPC_RAW_CTRL) 16 16
          rawVerdict r (decide (lim = 0) || decide (corrected ≤ lim)) d1
        | _ => if tagDiffers d x then loseOf (runEnd r false (tagMismatch x d1)) else loseOf (runEnd r true d1)))

end Sys2Proof.Machine
end

