-- ==== Sys2Proof/Machine/Reads.lean ====
section
/-!
DEFINITION. The HERDER's reads: the estimates and the choice at a busy die (R130–R133, R137), suspension (R128, R129, R134), the
Read and Verify commands' path and its end (R41, R59, R116, R216, R223, R225, R280), and the unit rebuild (R213, R226, R227).
-/

namespace Sys2Proof.Machine

/-! Estimates (R128, R130, R137). Times are in nanoseconds. -/


/-- Wake latency of a domain from its present state, with its OFF to ON bound (R137, R447). -/
def domWakeNs (d : Dev) (n off : Nat) : Nat :=
  let x := domGet d.pwr n
  match x.st with
  | .on => 0
  | .off | .goingOff => off
  | .waking => if x.fromOff then off else 3000
  | _ => 3000

/-- Wake latency of a die's channel domain: its targets are retrained after a change of more than 25 °C (R137, R157, Table 15.1). -/
def chanWakeNs (d : Dev) (c : Nat) : Nat :=
  let x := chanGet d c
  let left := match (domGet d.pwr (c + 1)).st with | .on | .draining => false | _ => true
  domWakeNs d (c + 1) 60000 + (if left && chanFar x then 150000 * (match x.saved with
    | some (_, t, _) => ((List.range 4).filter (fun ce => t.testBit ce)).length | none => 0) else 0)

/-- Wake latency of the detector that a read will be given: none where one that is ON has a free context (R137, R198). -/
def detWakeNs (d : Dev) : Nat :=
  let ns := (List.range (detCount d.fuse)).filter (fun n => detUp d n)
  if ns.any (fun n => domOn d.pwr (n + 49) && decide ((detGet d n).ctx.length < 4)) then 0
  else match (ns.filter (fun n => !domOn d.pwr (n + 49))).map (fun n => domWakeNs d (n + 49) 20000) with
    | [] => 0
    | t :: ts => ts.foldl min t

/-- t_wake of a read at a die: its domains, the channel's and, where it needs one, a detector's, wake side by side (R130, R137; DEDUCED, log
entry 100). -/
def wakeNs (d : Dev) (die : Nat) (det : Bool) : Nat := max (chanWakeNs d (chOf die)) (if det then detWakeNs d else 0)


/-- Time since the operation's start or last resume. -/
def stretchNs (d : Dev) (a : ArrRun) : Nat := if a.suspended then 0 else sinceNs d a.since.toNat

/-- Suspend latency of an operation. -/
def susNs (p : Profile) (a : ArrRun) : Nat := match a.op with | .erase => p.tSusE | _ => p.tSusP

/-- The limits of R128 permit a suspend of the die's operation. -/
def mayHold (d : Dev) (a : ArrRun) : Bool :=
  let p := prof d
  bit (rd d.hw R.HERDER_CTRL) 1 && !a.suspended && (match a.op with
    | .program => decide (a.suspends < p.maxSusP) && decide (p.tRunP ≤ stretchNs d a)
    | .erase => decide (a.suspends < p.maxSusE) && decide (p.tRunE ≤ stretchNs d a)
    | _ => false)

/-- r(d) of a read of class `cls`, as run `r` or as a member read to come: the time until a die can start it without suspension. It covers
the busy operation's rest, which a suspended one does not add where the read may run beside it; the reads in progress and those ahead
on its planes; and the announced pause (R129, R130). -/
def restNs (d : Dev) (die r : Nat) (planes : List Nat) (dl cls : Nat) : Nat :=
  let p := prof d
  let y := dieGet d die
  let beside := fun (a : ArrRun) => a.suspended && !a.due && (decide (cls = 0) || (decide (cls = 1) && a.heldQ.contains r))
  let busy := match y.arr with | some a => if beside a then 0 else opMaxNs p a - ranNs d a | none => 0
  let on := fun (x : Run) => (runPlanes d x).any (fun n => planes.contains n)
  let now := ((y.reading.filterMap (fun q => runGet d q)).filter (fun x => decide (x.st = .reading) && on x)).map (fun x =>
    readNs d x - sinceNs d x.since)
  let ahead := (((y.rq.takeWhile (fun q => decide (q ≠ r))).filterMap (fun q => runGet d q)).filter (fun x =>
    on x && decide (x.deadline ≤ dl))).length
  let c := chanGet d (chOf die)
  let pause := if c.pauseOver then 0 else pauseOf d (chOf die) * 1000 - sinceNs d c.lastStart.toNat
  busy + now.sum + ahead * p.tRMax + pause

/-- Start delay of a member's die (R130). -/
def startNs (d : Dev) (die plane dl cls : Nat) : Nat :=
  let r := restNs d die d.fl.nextRun [plane] dl cls
  match (dieGet d die).arr with
  | some a => if mayHold d a then min r (susNs (prof d) a) else r
  | none => r

/-- Nanoseconds of t_tail: decode, decryption and host transfer after the array read, on the reference profile (R130, Table 4.7; log entry 56). -/
def tailNs : Nat := 16100

/-- Nanoseconds of t_xor, in which the XOR unit combines 15 members (R130, Table 4.7). -/
def xorNs : Nat := 900

/-- The class permits a suspend of the operation (Table 4.1). -/
def classHolds (cls : Nat) (a : ArrRun) : Bool :=
  decide (cls = 0) || (decide (cls = 1) && decide (a.op = .erase))

/-- The stripe row of a run where read-around is eligible: answers the superblock. A member read of a read-around is decided under the same
rules; one of a rebuild is not (R131, R133, R219, Table 7.4). -/
def aroundRow (d : Dev) (x : Run) : Option Sb :=
  let never := match x.serves with | .memberRb _ | .journal _ _ | .raw _ _ _ _ | .sample _ => true | _ => false
  if never || decide (x.cls ≠ 0) || !bit (rd d.hw R.HERDER_CTRL) 2 then none
  else match runRow d x with
    | none => none
    | some s =>
      let n := s.members.length - 1
      if decide (s.width ≤ 16) && (otherKs d s x).all (fun k => codeReadable d s x.sb k) && balCovers d (packOf x.loc.die) n then some s
      else none

/-- The three paths of R130. -/
inductive Path where
  | wait | suspend | around
  deriving DecidableEq, Repr

/-- READ_PATH_DECISION: the path of a read at a busy die (R130–R132). -/
def pickPath (d : Dev) (r : Nat) (x : Run) : Path :=
  let p := prof d
  let now := d.hw.time.toNat * 40
  let due := x.deadline * 40
  let det := wantsDet d x
  let wake := wakeNs d x.loc.die det
  let ew := now + wake + restNs d x.loc.die r (runPlanes d x) x.deadline x.cls + p.tRMax + tailNs
  let sus := match (dieGet d x.loc.die).arr with
    | some a => if mayHold d a && classHolds x.cls a then
        some (now + wake + susNs p a + p.tRMax + tailNs, (susNs p a + p.tRes) * fld (rd d.hw R.HERDER_COSTW) 0 8) else none
    | none => none
  let arn := match aroundRow d x with
    | some s =>
      let worst := (otherKs d s x).foldl (fun m k =>
        let l := locAny d s k
        max m (wakeNs d l.die det + startNs d l.die l.plane x.deadline x.cls)) 0
      some (now + worst + p.tRMax + tailNs + xorNs, (s.members.length - 1) * p.tRMax * fld (rd d.hw R.HERDER_COSTW) 8 8)
    | none => none
  if ew ≤ due then .wait
  else
    let s := match sus with | some q => if q.1 ≤ due then some q.2 else none | none => none
    let a := match arn with | some q => if q.1 ≤ due then some q.2 else none | none => none
    match s, a with
    | some cs, some ca => if cs ≤ ca then .suspend else .around
    | some _, none => .suspend
    | none, some _ => .around
    | none, none =>
      let es := match sus with | some q => q.1 | none => ew
      let ea := match arn with | some q => q.1 | none => ew
      if ew ≤ es ∧ ew ≤ ea then .wait else if es ≤ ea then .suspend else .around

/-- Kennel counters of suspends and read-arounds (log 0xC6). -/
def kenCount (f : Kennel → Kennel) (k : Nat) (d : Dev) : Dev :=
  if (kenGet d k).isSome then kenPut d k (f (kenOf d k)) else d

/-- SUSPEND_ISSUE: the FCH issues the suspend of the operation in progress; one that is pending already serves this read too (R128, R133,
R134). -/
def suspendIssue (r : Nat) (x : Run) (d : Dev) : Dev :=
  let y := dieGet d x.loc.die
  match y.arr with
  | none => d
  | some a =>
    if a.suspending then d
    else
      let op := match a.op with | .erase => FchCmd.eraseSuspend | _ => FchCmd.programSuspend
      runMark r (busUse x.loc.die [op]
        (diePut d x.loc.die { y with arr := some { a with suspending := true, kennel := some x.kennel } }))

/-- The choice carried out: the read waits in its place; the FCH issues a suspend; or the balance is charged and the member reads
are queued (R128, R133). -/
def takePath (r : Nat) (x : Run) (d : Dev) : Dev :=
  match pickPath d r x with
  | .wait => runPut d r { x with st := .waiting }
  | .suspend => suspendIssue r x (runPut d r { x with st := .waiting })
  | .around =>
    match aroundRow d x with
    | none => d
    | some s =>
      let d1 := balCharge (packOf x.loc.die) (s.members.length - 1) (kenCount (fun k => { k with arounds := k.arounds + 1 }) x.kennel d)
      rqLeave r x.loc.die (memberReads r false { x with step := 0, sub := 1 } s d1)

/-- A Retriever run in progress on the same codeword: past its first decode (R214, R216). -/
def sameRun (d : Dev) (r : Nat) (x : Run) : Option Nat :=
  (d.fl.runs.find? (fun q => decide (q.1 ≠ r) && decide (q.2.sb = x.sb) && decide (q.2.k = x.k) && decide (q.2.loc = x.loc)
    && decide (1 ≤ q.2.step) && decide (q.2.st ≠ .attached) && (match q.2.serves with
      | .host _ _ | .scan => true | _ => false))).map (fun q => q.1)

/-- A read attaches to a run: the run carries the earliest deadline and the lowest class (R216). -/
def attachRun (r dst : Nat) (x : Run) (d : Dev) : Dev :=
  match runGet d dst with
  | none => d
  | some y =>
    let d1 := runMark r (runPut d r { x with st := .attached })
    rqLeave r x.loc.die
      (runPut d1 dst { y with attached := y.attached ++ [r], deadline := min y.deadline x.deadline, cls := min y.cls x.cls })

/-- The first startable read of a die begun, else the head of its queue decided; one that has chosen to wait is decided again only after a
change (R125, R126, R133, R154). -/
def dispatchOn (die : Nat) (d : Dev) : Dev :=
  let y := dieGet d die
  let qs := y.rq.filterMap (fun r => (runGet d r).map (fun x => (r, x)))
  let guard := y.guard && !hasS0 d y
  let startable := fun (q : Nat × Run) => planeFree d die (runPlanes d q.2) && mayRead d die q.1 q.2 && !guard
  match qs.find? startable with
  | some (r, _) => if pauseFree d (chOf die) then readStart die r d else d
  | none =>
    if guard then d
    else match qs.find? (fun q => decide (q.2.st = .again)) with
      | some (r, x) => takePath r x d
      | none => match qs.head? with
        | some (r, x) => if x.st = .waiting then d else takePath r x d
        | none => d

/-- Reads that a change has put up for decision again are decided (R133). `f` bounds the work: member reads of a read-around join other
queues. -/
def againSettle : Nat → Dev → Dev
  | 0, d => d
  | f + 1, d =>
    match d.fl.runs.find? (fun q => decide (q.2.st = .again)) with
    | none => d
    | some (r, x) => againSettle f (takePath r x d)

/-- A step in which dies change state, or reads join queues: each read that waits at a die whose state has changed, or behind a read of an
earlier deadline that has joined, is decided again (R133). -/
def settled (f : Dev → Dev) (d : Dev) : Dev :=
  let d1 := f d
  let d2 := d1.fl.dies.foldl (fun x q =>
    if q.2.rq.isEmpty || decide (dieCode d q.1 = dieCode d1 q.1) then x else reask q.2.rq x) d1
  againSettle (d2.fl.runs.length + 16) d2

/-- A sample whose block has been erased or reset before it was issued (R314). -/
def sampleStale (d : Dev) (r : Nat) : Bool :=
  match runGet d r with
  | some x =>
    let b := blkGet d x.loc.die x.loc.block
    sampleDue x && (!inPopulation b || decide (b.sb ≠ x.sb))
  | none => false

/-- READ_DISPATCH: a sample whose block is gone is dropped (R314); a read at the head of its die's queue is started, decided, attached, held
for its closed channel, or, on a die
out of service, rebuilt (R25, R72, R125, R137, R216). At a gate without auto-wake it is answered TARGET_OFF, and stays queued for its next
dispatch (DESIGN CHOICE, log entry 113). -/
def readDispatch (die : Nat) (d : Dev) : Dev :=
  let y := dieGet d die
  let attach := y.rq.findSome? (fun r => match runGet d r with
    | some x => if x.step = 0 then (sameRun d r x).map (fun t => (r, t, x)) else none
    | none => none)
  match y.rq with
  | [] => d
  | r0 :: _ =>
    match y.rq.find? (sampleStale d) with
    | some r => cycleCheck (runDrop r 0 false (rqLeave r die d))
    | none =>
    match attach with
    | some (r, t, x) => attachRun r t x d
    | none =>
      if !dieUp d die && decide (y.st ≠ 3) then
        let d1 := rqLeave r0 die d
        match runGet d r0 with
        | some x => (match x.serves with
          | .raw _ _ _ _ | .sample _ => stepFail r0 d1
          | .memberRa _ | .memberRb _ | .journal _ _ => loseOf (runEnd r0 false d1)
          | _ => loseOf (stepTo r0 (if (runRow d1 x).isSome then 6 else 7) d1))
        | none => d1
      else if !domOn d.pwr (chOf die + 1) then
        (if gateOf d (chOf die + 1) = .hold then wakeReq (chOf die + 1) 2 d else gateRefused d)
      else if !chanRuns d (chOf die) then d
      else dispatchOn die d

/-- BUSY_STATUS_RETURN: the FCH answers that the LUN is busy, and the HERDER decides as if the read had met the busy die at the head
of its queue (R132, R152, R153). -/
def busyReturn (die : Nat) (d : Dev) : Dev :=
  match (dieGet d die).rq with
  | [] => d
  | r :: _ => match runGet d r with
    | some x => if (dieGet d die).arr.isSome || !planeFree d die (runPlanes d x) then takePath r x d else d
    | none => d

/-- SUSPEND_TAKES_EFFECT: the die reports its operation suspended, which counts, for the Kennel of the read that chose it too, or complete
(R129, R134, log 0xC6). -/
def suspendTakes (die : Nat) (complete pass verified : Bool) (d : Dev) : Dev :=
  let y := dieGet d die
  match y.arr with
  | none => d
  | some a =>
    if !a.suspending then d
    else if complete then
      arrEnd die pass true 0xF#4 verified (diePut d die { y with arr := some { a with suspending := false } })
    else
      let a1 := { a with suspending := false, suspended := true, suspends := a.suspends + 1, ran := a.ran + sinceNs d a.since.toNat,
                         heldAt := d.hw.time, due := false, kennel := none, heldQ := y.rq }
      let d1 := match a.kennel with
        | some k => kenCount (fun x => { x with suspends := x.suspends + 1 }) k d
        | none => d
      resumeCheck die (diePut d1 die { y with arr := some a1 })

/-- SUSPEND_HOLD_EXPIRY: the suspension has lasted t_hold (R129). -/
def holdExpiry (die : Nat) (d : Dev) : Dev :=
  let y := dieGet d die
  match y.arr with
  | some a => if a.suspended then resumeCheck die (diePut d die { y with arr := some { a with due := true } }) else d
  | none => d

/-! The Read and Verify commands (R41, R59, R116, R216, R223, R225). -/

/-- The key check of a read: a key tag needs a Key Per I/O namespace and a slot of its Kennel; a namespace key needs its slot
(R116, R368, R374, R387, R388). -/
def readKey (d : Dev) (n : Ns) (o : Op) : Option NvStat :=
  match writeKey d n o with
  | .inl st => some st
  | .inr _ => none

/-- A copy cannot be decrypted for a command: its generation is gone (R387), or its slot is neither the namespace key nor the one the
command's key tag names, or a Key Per I/O slot is not bound to the command's Kennel (R116, R374; that a namespace key is bound to no one
Kennel is DEDUCED, log entry 124). -/
def keyGone (d : Dev) (n : Ns) (o : Op) (c : Copy) : Bool :=
  let s := slotGet d.sec c.slot
  decide (c.cipher ≠ 0) && (decide (s.type ≠ 1) || decide (s.gen ≠ c.gen)
    || (decide (c.cipher = 1) && decide (c.slot ≠ n.slot))
    || (decide (c.cipher = 2) && (decide (o.cmd.keyTag ≠ some c.slot) || decide (s.kennel ≠ o.kennel))))

/-- One more block of a read begins: zeros and staged data are there at once; a LOST codeword is unrecovered at once; a codeword on
flash gets a run, one on a lost unit starts at step 6 (R91, R102, R225, R226, R272). -/
def readBlock (tag i : Nat) (o : Op) (d : Dev) : Dev :=
  let lba := o.lba + i
  let give := fun (v : Nat) (x : Dev) => opMod tag (fun q => { q with out := q.out.set i v }) x
  match lbaAt d o.cmd.nsid lba with
  | .zeros => give 0 d
  | .dram c => give c.data d
  | .pending => give (Config.freeNat d.hw.free) { d with hw := spend d.hw }
  | .lost sb k =>
    let loc := match sbGet d sb with
      | some s => locAny d s k
      | none => { die := 0, block := 0, wl := 0, page := 0, plane := 0, slot := 0 }
    let d1 := unrecRecord loc o.cmd.nsid lba { d with hw := irq d.hw irqLdpc 5 }
    opMod tag (fun q => { q with bad := some (match q.bad with | some b => min b lba | none => lba), depth := 7 })
      (depthNote (packOf loc.die) 7
        { d1 with fl := { d1.fl with stepCnt := tabMod d1.fl.stepCnt 7 0 (fun n => min 0xFFFFFFFF (n + 1)) } })
  | .flash sb k c =>
    match sbGet d sb with
    | none => d
    | some s =>
      let loc := locAny d s k
      let seg := match nsGet d o.cmd.nsid with
        | some n => !n.zoned && d.med.mapu.rebuild.contains (segOf d o.cmd.nsid lba)
        | none => false
      let x := { runAt d (.host tag i) loc sb k o.cls o.deadline (sbSlc s) with
                   lba := lba, nsid := o.cmd.nsid, kennel := o.kennel, data := c.data, lost := c.lost
                   seqLo := match nsGet d o.cmd.nsid with
                     | some n => if n.zoned then none else some (entSeq (mapAt d o.cmd.nsid lba) % 65536)
                     | none => none }
      let d1 := opMod tag (fun q => { q with runs := q.runs + 1 }) d
      let r := d1.fl.nextRun
      let bare := runPut { d1 with fl := { d1.fl with nextRun := r + 1 } } r x
      if seg then runPut bare r { x with st := .segment }
      else if codeReadable d1 s sb k then runQueue r bare
      else loseOf (stepTo r 6 bare)

/-- An earlier command whose effect this read must see has not taken effect: a Reset or Offline of one of its zones, outside a secure reset,
or an unmapping of one of its LBAs (R92, R102, R107, R274). -/
def readWaits (d : Dev) (tag : Nat) (n : Ns) (o : Op) : Bool :=
  d.host.ops.any (fun q => decide (q.1 < tag) && decide (q.2.cmd.nsid = o.cmd.nsid) && decide (q.2.st = .admitted)
    && (if n.zoned then
        decide (q.2.cmd.op = .zoneSend) && (decide (q.2.cmd.act = .reset) || decide (q.2.cmd.act = .offline))
          && (zonesOf n o.lba o.cmd.nlb).any (fun z => (q.2.cmd.all || decide (q.2.cmd.slba / n.zsze = z))
            && (zoneGet d (zkey o.cmd.nsid z)).secure.isNone)
      else
        (decide (q.2.cmd.op = .deallocate) || decide (q.2.cmd.op = .writeZeroes) || decide (q.2.cmd.op = .secureDiscard))
          && decide (q.2.lba < o.lba + o.cmd.nlb) && decide (o.lba < q.2.lba + q.2.cmd.nlb)))

/-- A zone of a read's range is Offline (R91). -/
def readOffline (d : Dev) (n : Ns) (o : Op) : Bool :=
  n.zoned && (zonesOf n o.lba o.cmd.nlb).any (fun z => decide ((zoneGet d (zkey o.cmd.nsid z)).st = .offline))

/-- The die that holds a read's first block, for its statistics. -/
def readDie (d : Dev) (o : Op) : Nat :=
  match lbaAt d o.cmd.nsid o.lba with
  | .flash sb k _ => (match sbGet d sb with | some s => (locAny d s k).die | none => 0)
  | _ => 0

/-- READ: the read path up to the queues of its dies (R41): the order of R107, the Offline check of R91, keys, the map segment, the current copy
of every block. With every block at hand its data is ready. -/
def readCmd (tag : Nat) (verify : Bool) (d : Dev) : Dev :=
  match tabGet d.host.ops tag with
  | none => d
  | some o =>
    match nsGet d o.cmd.nsid with
    | none => d
    | some n =>
      if o.st ≠ .admitted ∨ o.cmd.op ≠ (if verify then .verify else .read) ∨ readWaits d tag n o = true then d
      else if readOffline d n o then readClose tag .zoneOffline 0 [] d
      else
        let lbas := List.range o.cmd.nlb
        let gone := lbas.any (fun i => match lbaAt d o.cmd.nsid (o.lba + i) with
          | .flash _ _ c | .dram c => keyGone d n o c | _ => false)
        match readKey d n o with
        | some st => readClose tag st 0 [] d
        | none =>
          if !n.zoned && !mapReady d n then readClose tag .mapUnavailable 0 [] d
          else if gone then readClose tag .accessDenied 0 [] d
          else
            let plain := lbas.all (fun i => match lbaAt d o.cmd.nsid (o.lba + i) with
              | .flash _ _ c | .dram c => decide (c.cipher = 0) | _ => true)
            let o1 := { o with st := .reading, ciphered := plain, out := lbas.map (fun _ => 0) }
            let d0 := { d with host := { d.host with ops := tabPut d.host.ops tag o1 } }
            let d1 := if n.zoned then d0 else
              ((lbas.map (fun i => segOf d o.cmd.nsid (o.lba + i))).eraseDups).foldl (fun x s => segUse s false x) d0
            let d2 := lbas.foldl (fun x i => readBlock tag i o1 x) d1
            match tabGet d2.host.ops tag with
            | none => d2
            | some q =>
              if q.runs ≠ 0 then d2
              else match q.bad with
                | some lba => readClose tag .unrecoveredRead (readDie d2 q) []
                    { d2 with host := { d2.host with errLog := d2.host.errLog ++ [(o.cmd.nsid, lba)] } }
                | none => if verify then opEnd tag .success 0 0 [] d2 else opMod tag (fun q => { q with st := .ready }) d2

/-- The Curd buffers of a read's data: those it holds, else as many of its blocks' as can be granted now; with none it waits, and the command
is given again once one may be free (R41, R42, log entry 98). -/
def readBufs (o : Op) (d : Dev) : List Nat × Dev := if o.bufs.isEmpty then bufsTake o.port o.cmd.nlb d else (o.bufs, d)

/-- CIPHER_HOST_JOB: the data of an admitted command is assigned to an engine under the command's key: decryption of read data into its Curd
buffers, encryption of write data (R41, R372, R374). -/
def hostCipher (tag : Nat) (d : Dev) : Dev :=
  match tabGet d.host.ops tag with
  | none => d
  | some o =>
    let queued := (List.range 4).any (fun k => (jobsOf d.sec k).any (fun j => decide (j.tag = some tag)))
    let slot := match o.cmd.keyTag with | some t => t | none => (match nsGet d o.cmd.nsid with | some n => n.slot | none => 0)
    if o.ciphered || queued || decide (o.status = .accessDenied) then d
    else if o.st = .ready then
      let r := readBufs o d
      if r.1.isEmpty then r.2 else hostJob tag slot (o.cmd.nlb * 4096) false (opMod tag (fun q => { q with bufs := r.1 }) r.2)
    else if o.st = .staging then hostJob tag slot (o.cmd.nlb * 4096) true d
    else d

/-- HOST_TRANSFER_DONE: a read's data has reached host memory from its Curd buffers and its completion is posted, with its statistics (R41,
R140, R141, R331). -/
def hostTransfer (tag : Nat) (d : Dev) : Dev :=
  match tabGet d.host.ops tag with
  | none => d
  | some o =>
    if o.st ≠ .ready ∨ o.ciphered = false then d
    else
      let r := readBufs o d
      if r.1.isEmpty then r.2
      else ladderCheck (readClose tag .success (readDie d o) o.out (opMod tag (fun q => { q with bufs := r.1 }) r.2))

/-- SEGMENT_VERIFY_FAIL: the segment waits for its rebuild, which reads the journal (R280, R298). -/
def segVerifyFail (seg : Nat) (d : Dev) : Dev :=
  let d1 := segFail seg d
  match d1.med.jr.pairs with
  | [] => d1
  | q :: _ =>
    let loc := jLoc (prof d1) q.dieA q.blkA d1.med.jr.tail
    (runNew (runAt d1 (.journal d1.med.jr.tail false) loc 0 0 3 (s3Deadline d1) true) d1).2

/-- SEGMENT_REBUILD_DONE: the reads that waited for the segment join their die queues (R280). -/
def segRebuildDone (seg : Nat) (d : Dev) : Dev :=
  let q := segRebuilt seg d
  q.1.foldl (fun x r => runQueue r x) q.2

/-! Rebuild of a lost unit, and the accumulators (R213, R226, R227). -/

/-- Programs of a rebuilt member row that has no codeword left to rebuild are queued at its replacement. -/
def rebuiltRow (sb k : Nat) (d : Dev) : Dev :=
  match sbGet d sb with
  | none => d
  | some s =>
    let row := rowAny d s k
    let i := memAny d s k
    let mb := memberBlk s row i
    let left := (List.range (rowUnits (prof d) (sbSlc s))).any (fun t => awaitsRebuild d sb (memberK d s row t i))
    if left then d else jobAdd mb.1 (.row sb row i) false (sbSlc s) mb.2 (row + 1) d

/-- The map entry of a conventional unit that becomes a LOST placeholder, with its record, where the entry names that unit (R225, Table 9.2). -/
def lostEntry (c : Copy) (sb k : Nat) (d : Dev) : Dev :=
  match mapAt d c.nsid c.lba with
  | .media _ s j =>
    if c.lost ∧ s = sb ∧ j = k then
      jput (jrLost c.nsid c.lba) (mapuMod (fun x => { x with map := tabPut x.map (mk c.nsid c.lba) (.lost c.seq) }) d)
    else d
  | _ => d

/-- The pace of a Pack's rebuild does not allow another codeword yet; a rate of 0 removes it (R227). -/
def rebuildEarly (d : Dev) (p : Nat) (q : Rebuild) : Bool :=
  match q.lastAt with
  | some t => decide ((d.hw.time.toNat - t) * (rd d.hw (R.XORU_RBLD_RATE p)).toNat < 25000000)
      && decide (rd d.hw (R.XORU_RBLD_RATE p) ≠ 0#32)
  | none => false

/-- UNIT_REBUILD_CODEWORD: the next codeword of a Pack's rebuild: its balance is charged; it is rebuilt into DRAM for its
replacement, or, where its row lacks another member or a member read is lost, moved as a LOST placeholder; the last one sets
RBLD_DONE (R225–R227). -/
def rebuildNext (p : Nat) (ok : Bool) (d : Dev) : Dev :=
  let q := tabGetD d.med.rebuilds p Rebuild.none
  if !bit (rd d.hw R.XORU_CTRL) 0 || !domOn d.pwr 95 || rebuildEarly d p q then d
  else match q.left with
    | [] => d
    | (sb, k) :: rest =>
      let put := fun (x : Dev) (lost : Nat) =>
        let r : Rebuild := { left := rest, done := q.done + 1, lost := q.lost + lost, lastAt := some d.hw.time.toNat }
        { x with med := { x.med with rebuilds := tabPut x.med.rebuilds p r },
                 hw := wr x.hw (R.XORU_RBLD_LEFT p) (BitVec.ofNat 32 (min 0xFFFFFFFF rest.length)) }
      let d1 := match sbGet d sb with
        | none => put d 0
        | some s =>
          let x := runAt d .scan (locAny d s k) sb k 3 0 (sbSlc s)
          let whole := ok && (otherKs d s x).all (fun j => codeReadable d s sb j)
          let d1 := balCharge p (s.members.length - 1) (put d (if whole then 0 else 1))
          let d2 := match tabGet d1.med.copies (uk sb k) with
            | some c =>
              let q := if whole then (c.seq, d1) else seqTake d1
              let c1 := if whole then { c with refresh := true }
                else { c with refresh := true, lost := true, seq := q.1, cipher := 0, slot := 0, gen := 0, data := 0 }
              lostEntry c1 sb k { q.2 with med := { q.2.med with staged := tabPut q.2.med.staged (uk sb k) c1 } }
            | none => d1
          let d3 := if whole then d2
            else
              let h := md (irq d2.hw irqXoru (3 + p)) (R.XORU_RBLD_LOST p) (fun w => bumpFld w 0 32 1)
              affMod (fun a => { a with critReliability := true }) { d2 with hw := h }
          rebuiltRow sb k d3
      if rest.isEmpty then
        let t := tabGetD d1.med.rebuilds p Rebuild.none
        { d1 with hw := evUnit (irq d1.hw irqXoru p) 18 0x034 1 p t.done t.lost,
                  med := { d1.med with rebuilds := tabDel d1.med.rebuilds p } }
      else d1

/-- XORU_ACC_UE: an uncorrectable accumulator word: ACC_ECC, and the parity of the row is recomputed from the staged copies, whose
parity program waits for it (R213). The recomputed parity is the same function of the same copies. -/
def accUe (d : Dev) : Dev := { d with hw := irq d.hw irqXoru 6 }

end Sys2Proof.Machine
end

