-- ==== Sys2Proof/Machine/Format.lean ====
section
/-!
DEFINITION. How a reader takes a block descriptor from its replicas (R244).
-/

namespace Sys2Proof.Machine

/-! Block descriptor (R242, R244). -/

/-- A descriptor's magic and CRC pass (R244). -/
def descOk (bs : List Byte) : Bool :=
  decide (bs.take 4 = [0x45#8, 0x57#8, 0x5A#8, 0x42#8]) && decide (bs.length = 256)
    && decide (leNat (bs.drop 252) = (crc32c (bs.take 252)).toNat)

/-- Bitwise majority of a byte of all replicas, ties going to 0 (R244). -/
def majorByte (bs : List Byte) : Byte :=
  BitVec.ofNat 8 (((List.range 8).map (fun i =>
    if bs.length < 2 * (bs.filter (fun b => b.getLsbD i)).length then 2 ^ i else 0)).sum)

/-- The descriptor that a reader takes from all replicas, in plane and replica order; none where it is unreadable (R244). -/
def descTake (replicas : List (List Byte)) : Option (List Byte) :=
  match replicas.find? descOk with
  | some b => some b
  | none =>
    let m := (List.range 256).map (fun i => majorByte (replicas.map (fun r => r.getD i 0#8)))
    if descOk m then some m else none

/-- A block's descriptor as the HN4896 reads it: one of another major version counts as unreadable (R244, R264). -/
def descRead (replicas : List (List Byte)) : Option (List Byte) :=
  (descTake replicas).filter (fun b => decide (b.getD 5 0#8 = 1#8))

end Sys2Proof.Machine
end

