-- ==== Sys2Proof/Machine/Care.lean ====
section
/-!
DEFINITION. Refresh rewrites and zone moves (R269, R270, R320–R322, R324), and recovery of the map and the zone table at start
(R105, R113, R264–R267, R299, R302).
-/

namespace Sys2Proof.Machine

/-! Zone moves (R270, R322). -/

/-- The zone whose superblock this is. -/
def zoneOfSb (d : Dev) (sb : Nat) : Option (Nat × Zone) :=
  d.ten.zones.find? (fun q => decide (q.2.sb = sb) && decide (sb ≠ 0))

/-- The unit at zone offset `o` of a move's source goes to the same offset of the target: a copy on media with REFRESH set; a
unit still in DRAM as it is, and its dirty count with it; a parked unit from its park page (R270). -/
def moveUnit (nsid zs src tgt o : Nat) (d : Dev) : Dev :=
  match tabGet d.med.staged (uk src o) with
  | some c =>
    rowReady tgt o { d with med := { d.med with staged := tabPut (tabDel d.med.staged (uk src o)) (uk tgt o) c } }
  | none =>
    let from_ : Option Copy := match tabGet d.med.copies (uk src o) with
      | some c => some c
      | none => (parkedAt d nsid (zs + o)).map (fun q => q.2)
    match from_ with
    | none => d
    | some c =>
      let c1 := { c with refresh := true, parked := false }
      rowReady tgt o (fdpCount 0 1 0 { d with med := { d.med with staged := tabPut d.med.staged (uk tgt o) c1 } })

/-- One past the last zone offset at which a superblock holds a unit. -/
def sbTop (d : Dev) (sb : Nat) : Nat :=
  (d.med.copies ++ d.med.staged).foldl (fun m q =>
    if q.1 / 4294967296 = sb ∧ !isPar (q.1 % 4294967296) then max m (q.1 % 4294967296 + 1) else m) 0

/-- A zone's move starts: a target of the same die width that keeps the zone's ZCAP, MOVING with the target recorded, and every
unit copied at its offset. Without such a target the entry stays queued and an event is recorded (R270, R322, Table 10.2). -/
def zoneMoveStart (zk : Nat) (z : Zone) (id : Nat) (s : Sb) (d : Dev) : Dev :=
  match sbOpen 1 s.nsid s.kennel s.pack s.width s.zslba z.handle id d with
  | none => evFree id 0 d
  | some (t, d1) =>
    let cap := match sbGet d1 t with | some x => x.zcap | none => 0
    if cap < z.zcap then evFree id 0 d
    else
      let mv : Move := { source := id, target := t, zone := some zk, units := [], gc := false }
      let d2 := zoneSet zk { z with moving := some t } { d1 with med := { d1.med with moves := d1.med.moves ++ [mv] } }
      (List.range (max z.wp (sbTop d2 id))).foldl (fun x o => moveUnit s.nsid s.zslba id t o x) d2

/-- Whether another move of the zone's refresh group runs: the zones of a group move one after another (R321). -/
def groupMoves (d : Dev) (s : Sb) : Bool :=
  d.med.moves.any (fun m => m.zone.isSome && (match sbGet d m.source with
    | some x => decide (x.nsid = s.nsid) && decide (x.pack = s.pack) && decide (x.handle = s.handle)
    | none => false))

/-- Whether a queue entry's refresh can start: its superblock is not already moving or waiting for its erase, no program of a
zone's source is outstanding, and its group is idle. -/
def refreshable (d : Dev) (e : RefEnt) : Bool :=
  let b := tabGetD d.med.blks e.blk Blk.init
  match sbGet d b.sb with
  | none => decide (4 ≤ b.type)
  | some s => d.med.moves.all (fun m => decide (m.source ≠ b.sb)) && d.med.doomed.all (fun x => decide (x.sb ≠ b.sb))
      && (decide (s.type ≠ 1) || (s.rowWait.isEmpty && !groupMoves d s))

/-- The lane pair of a JOURNAL block leaves the ring early: its current content is written again at the head, and both blocks are erased
once the checkpoint that names the new tail is on media (R295, Table 10.1). -/
def journalRefresh (key : Nat) (d : Dev) : Dev :=
  jFlush (pairsLeave (fun p => decide (p.dieA * 4096 + p.blkA = key) || decide (p.dieB * 4096 + p.blkB = key)) d)

/-- The refresh of one queued block, by its type (R320, Table 10.1). -/
def refreshOne (e : RefEnt) (d : Dev) : Dev :=
  let b := tabGetD d.med.blks e.blk Blk.init
  match b.type, sbGet d b.sb with
  | 1, some s => match zoneOfSb d b.sb with
    | some (zk, z) => if z.secure.isSome then d else zoneMoveStart zk z b.sb s d
    | none => sbErase b.sb d
  | 2, some s =>
    let units := liveUnits d b.sb
    let d1 := { d with med := { d.med with openSb := d.med.openSb.filter (fun q => decide (q.2 ≠ b.sb)) } }
    if units.isEmpty then sbErase b.sb d1
    else match gcTarget s.pack s.width s.nsid b.sb d1 with
      | none => evFree b.sb 0 d
      | some (t, d2) =>
        let mv : Move := { source := b.sb, target := t, zone := none, units := units, gc := true }
        { d2 with med := { d2.med with moves := d2.med.moves ++ [mv] }
                  hw := md d2.hw R.MAPU_GC_STAT (fun w => putFld w 0 16 (fld w 0 16 + 1)) }
  | 3, some _ =>
    let d0 := { d with med := { d.med with parkSb := d.med.parkSb.filter (fun q => decide (q.2 ≠ b.sb)) } }
    let d1 := parkRelocate b.sb 0 0 0 d0
    if parkLive d1 b.sb = 0 then unqueueSb b.sb (parkSweep d1) else evFree b.sb 0 d
  | 4, _ => journalRefresh e.blk d
  | 6, _ => queuePut (d.aff.queue.filter (fun x => decide (x.blk ≠ e.blk))) (volWrite d)
  | 7, _ => queuePut (d.aff.queue.filter (fun x => decide (x.blk ≠ e.blk))) (wearWrite d)
  | _, _ => d

/-- Starting the first refresh of a list that finds a target; an entry without one stays queued, with an event (R322, Table 10.2). A started
refresh is counted in log 0xC1. -/
def refreshFirst : List RefEnt → Dev → Dev
  | [], d => d
  | e :: es, d =>
    let d1 := refreshOne e d
    if d1.aff.queue = d.aff.queue ∧ d1.med.moves = d.med.moves then refreshFirst es d1
    else affMod (fun a => { a with rewrites := a.rewrites + 1 }) d1

/-- REFRESH_START: the Affineur, while it runs, starts the first refresh of its queue that can start, within its token cap
(R322). -/
def refreshStart (d : Dev) : Dev :=
  if !bit (rd d.hw R.AFFINEUR_CTRL) 0 || !capAllows d 2 || flushing d then d
  else refreshFirst (d.aff.queue.filter (refreshable d)) d

/-- Rows of a superblock that are complete in the target, up to a number of units. -/
def movedOnMedia (d : Dev) (t wp : Nat) : Bool :=
  match sbGet d t with
  | none => false
  | some s => (List.range (if rowData d s = 0 then 0 else wp / rowData d s)).all (fun r => s.rowsDone.contains r)

/-- ZONE_MOVE_SWITCH: the copy is complete, every full row of it on media; SUPERBLOCK_ID becomes the target in one step with a
MOVE record, units that failed ladder step 5 as LOST placeholders under the move's own SEQ, and the source waits for its erase (R225, R249,
R270, R322). -/
def zoneMoveSwitch (zk : Nat) (lost : List Nat) (d : Dev) : Dev :=
  let z := zoneGet d zk
  match z.moving with
  | none => d
  | some t =>
    if !movedOnMedia d t z.wp || z.secure.isSome then d
    else
      let mark := fun (q : Nat × Copy) =>
        if decide (q.1 / 4294967296 = t) && lost.contains (q.1 % 4294967296) && q.2.refresh then
          (q.1, { q.2 with lost := true, seq := d.med.seqNext, data := 0, cipher := 0, slot := 0, gen := 0 })
        else q
      let med := { d.med with seqNext := if lost.isEmpty then d.med.seqNext else d.med.seqNext + 1, copies := d.med.copies.map mark, staged := d.med.staged.map mark,
                              moves := d.med.moves.filter (fun m => decide (m.zone ≠ some zk)) }
      let d1 := unqueueSb z.sb { d with med := med }
      let d2 := jput (jrMove z.sb t) (zoneSet zk { z with sb := t, moving := none } d1)
      doomCheck (doom z.sb (fdpEvent 0x80 ((sbGet d2 t).map (fun s => s.pack) |>.getD 0) z.handle (zk / 1048576) 0 d2))

/-! Recovery (R299). -/

/-- Units that recovery finds: copies on media, and those of the newest dump (R299, steps 2 and 4). -/
def foundCopies (d : Dev) : List (Nat × Copy) := d.med.image.dump ++ d.med.copies.filter (fun q => !isPar (q.1 % 4294967296))

/-- The superblock of a zone after recovery: the recorded one, or a later one bound after the last checkpoint of which a unit is
found (R265, R299). SUPERBLOCK_ID carries the opening sequence number (log entry 20). -/
def zoneRoot (d : Dev) (nsid zs cur : Nat) : Nat :=
  d.med.sbs.foldl (fun r q =>
    if decide (q.2.type = 1) && decide (q.2.nsid = nsid) && decide (q.2.zslba = zs) && decide (q.2.source = 0)
      && decide (r < q.1) && (foundCopies d).any (fun c => decide (c.1 / 4294967296 = q.1)) then q.1 else r) cur

/-- The superblocks of a zone's generation: the root, and every refresh target whose source is one of them, taken over `fuel` rounds (R265). -/
def zoneGen (d : Dev) : Nat → List Nat → List Nat
  | 0, g => g
  | f + 1, g => zoneGen d f (d.med.sbs.foldl (fun g q =>
      if decide (q.2.type = 1) && decide (q.2.source ≠ 0) && g.contains q.2.source && !g.contains q.1 then g ++ [q.1] else g) g)

/-- Whether a unit of a zone is durable: in a superblock of its generation, or parked under a SEQ of that generation (R105, R265). The root of
a zone that has moved is no longer there, and its parked copies are of its generation. -/
def zoneHas (d : Dev) (found : List (Nat × Copy)) (nsid zs root : Nat) (o : Nat) : Bool :=
  let gen := if root = 0 then [] else zoneGen d d.med.sbs.length [root]
  let from_ := match sbGet d root with | some s => if s.source = 0 then root else 0 | none => 0
  found.any (fun q =>
    (decide (q.1 % 4294967296 = o) && !q.2.parked && gen.contains (q.1 / 4294967296))
    || (q.2.parked && decide (q.2.nsid = nsid) && decide (q.2.lba = zs + o) && decide (from_ ≤ q.2.seq)))

/-- Length of the contiguous run of durable units from ZSLBA (R105). -/
def zoneRun (d : Dev) (found : List (Nat × Copy)) (nsid zs root : Nat) : Nat → Nat → Nat
  | 0, o => o
  | f + 1, o => if zoneHas d found nsid zs root o then zoneRun d found nsid zs root f (o + 1) else o

/-- A zone's state at restart: an open zone is Closed, or Empty at ZSLBA; a zone Full by its write pointer that now lies below
ZCAP is Closed; a zone whose write pointer reached ZCAP after the checkpoint is Full (R105). -/
def zoneRecState (z : Zone) (same : Bool) (run cap : Nat) : ZSt × Bool :=
  match z.st with
  | .readOnly => (.readOnly, z.fullByWp)
  | .offline => (.offline, z.fullByWp)
  | .full => if same && !z.fullByWp then (.full, false) else if cap ≤ run then (.full, true)
             else if same || decide (run ≠ 0) then (.closed, false) else (.empty, false)
  | s =>
    if run = 0 then (if s = .closed ∧ same = true then (.closed, false) else (.empty, false))
    else if cap ≤ run then (.full, true)
    else (.closed, false)

/-- A zone recovered: superblock, write pointer and state; a secure reset in progress is resumed without a command to complete
(R105, R113, R299). -/
def zoneRecover (found : List (Nat × Copy)) (d : Dev) (zk : Nat) (z : Zone) : Zone :=
  match nsGet d (zk / 1048576) with
  | none => z
  | some n =>
    let zs := zslba n (zk % 1048576)
    let root := zoneRoot d (zk / 1048576) zs z.sb
    let cap := if root = z.sb then z.zcap else (match sbGet d root with | some s => s.zcap | none => z.zcap)
    let sec := d.med.secure.any (fun o => decide (o.zone = some zk))
    let run := if z.st = .offline ∨ sec = true then z.wp else zoneRun d found (zk / 1048576) zs root cap 0
    let st := if sec then (z.st, z.fullByWp) else zoneRecState z (decide (root = z.sb)) run cap
    { z with sb := root, zcap := cap, wp := run, st := st.1, fullByWp := st.2, moving := none, parkedTo := 0,
             secure := if sec then some [] else none }

/-- The zones that recovery starts from: those of the zone table image whose namespace exists, and each zone that the image does
not list yet, bound to nothing (R299, step 3). -/
def zonesKnown (d : Dev) : List (Nat × Zone) :=
  let live := d.med.image.zones.filter (fun q => match nsGet d (q.1 / 1048576) with | some n => n.zoned | none => false)
  d.ten.namespaces.foldl (fun t q =>
    if q.2.zoned then
      (List.range (zoneCount q.2)).foldl (fun u z =>
        if (tabGet u (zkey q.1 z)).isSome then u else tabPut u (zkey q.1 z) Zone.init) t
    else t) live

/-- A zone that recovery finds bound to no superblock is bound to one (R83, R299). -/
def zoneRebind (d : Dev) (q : Nat × Zone) : Dev :=
  if (zoneGet d q.1).sb = 0 ∧ (zoneGet d q.1).st = .empty then zoneBind q.1 d else d


/-- Whether a copy's key generation is still current for its namespace (R266). -/
def copyCurrent (d : Dev) (c : Copy) : Bool :=
  match nsGet d c.nsid with
  | some n => !n.zoned && (decide (c.cipher ≠ 1) || decide (n.keyGen ≤ c.gen))
  | none => false

/-- The conventional map: entries of the image that unmap or lose an LBA, or whose unit is found, overtaken by every current
copy of a higher SEQ (R266, R267, R299). -/
def mapRecover (found : List (Nat × Copy)) (d : Dev) : List (Nat × MapEnt) :=
  let base := d.med.image.map.filter (fun q => match q.2 with
    | .media _ s k => found.any (fun c => decide (c.1 = uk s k))
    | _ => true)
  found.foldl (fun t q =>
    if q.2.pad || !copyCurrent d q.2 then t
    else
      let key := mk q.2.nsid q.2.lba
      let e : MapEnt := if q.2.lost then .lost q.2.seq else .media q.2.seq (q.1 / 4294967296) (q.1 % 4294967296)
      match tabGet t key with
      | none => tabPut t key e
      | some o => if entSeq o < q.2.seq then tabPut t key e else t) base

/-- The superblock whose park pages a dumped unit goes to: its own; for a unit that was not placed, the set of its reclaim group with most
free reserve (R299, log entry 99). -/
def dumpHome (d : Dev) (key : Option Nat) (c : Copy) (group : Nat) : Sb :=
  match key.bind (fun k => sbGet d (k / 4294967296)) with
  | some s => s
  | none =>
    let w := match nsGet d c.nsid with | some n => n.width | none => d.med.layout.width
    { Sb.blank with pack := group, width := w, dieSet := match pickSet d group w true with | some s => s.1 | none => 0 }

/-- A dumped unit is programmed into a park superblock; a conventional one that is current gets its map entry and MAP record (R299,
step 2). None while no park superblock can be opened. -/
def dumpPark (key : Option Nat) (group : Nat) (c : Copy) (d : Dev) : Option Dev :=
  let s := dumpHome d key c group
  (parkTarget s d).map (fun t =>
    let k := sbNextK t.2 t.1
    let d2 := (parkPlace s [c] t.2).2
    let conv := match nsGet d2 c.nsid with | some n => !n.zoned | none => false
    let e := mapAt d2 c.nsid c.lba
    let newest := if key.isSome then decide (entSeq e = c.seq) else decide (entSeq e < c.seq)
    if conv && newest then
      jput (jrUnit d2 c.nsid c.lba t.1 k c.seq)
        { d2 with med := { d2.med with mapu := { d2.med.mapu with
            map := tabPut d2.med.mapu.map (mk c.nsid c.lba) (.media c.seq t.1 k) } } }
    else d2)

/-- Whether a secure reset of the zone that a superblock was bound to is in progress: it takes care of the superblock (R113). -/
def secOwns (d : Dev) (s : Sb) : Bool :=
  decide (s.type = 1) && d.med.secure.any (fun o => o.zone.isSome && decide (o.nsid = s.nsid) && decide (o.lba = s.zslba))

/-- Units that recovery finds at or beyond a zone's restored write pointer are not part of the zone: they are given up, but for the
padding of a Full zone (R105). -/
def beyondWp (zs : List (Nat × Zone)) (d : Dev) (c : Copy) : Bool :=
  match nsGet d c.nsid with
  | some n => n.zoned && decide (n.zsze ≠ 0) && (match tabGet zs (zkey c.nsid (c.lba / n.zsze)) with
    | some z => decide (z.wp ≤ c.lba % n.zsze) && !(c.pad && decide (z.st = .full))
    | none => false)
  | none => false

/-- Rows of a zone's superblock that reach past its restored write pointer are open again. -/
def rowsBack (zs : List (Nat × Zone)) (d : Dev) (id : Nat) (s : Sb) : Sb :=
  match zs.find? (fun q => decide (q.2.sb = id) && decide (id ≠ 0)) with
  | some q => if q.2.st = .full ∨ s.type ≠ 1 then s
    else { s with rowsDone := s.rowsDone.filter (fun r => decide ((r + 1) * rowData d s ≤ q.2.wp)) }
  | none => s

/-- The unfinished zone moves: units found only in a target are parked, the target is erased, and the zone is queued again
(R105, Table 10.2). -/
def movesRecover (d : Dev) : Dev :=
  let live := fun (sb : Nat) => d.ten.zones.any (fun z => decide (z.2.sb = sb))
  let tgts := d.med.sbs.filter (fun q => decide (q.2.type = 1) && decide (q.2.source ≠ 0) && !live q.1 && live q.2.source
    && !secOwns d q.2)
  tgts.foldl (fun x t =>
    let only := x.med.copies.filter (fun q => decide (q.1 / 4294967296 = t.1) && !isPar (q.1 % 4294967296) && !q.2.pad
      && (tabGet x.med.copies (uk t.2.source (q.1 % 4294967296))).isNone)
    let x1 := only.foldl (fun y q =>
      if (parkedAt y q.2.nsid q.2.lba).isSome then y else (dumpPark (some q.1) t.2.pack q.2 y).getD y) x
    let src := (match sbGet x1 t.2.source with | some s => s.members.getD 0 (0, 0) | none => (0, 0))
    let e : RefEnt := { blk := src.1 * 4096 + src.2, urgent := false, cross := none }
    let queued := x1.aff.queue.any (fun r => decide ((blkGet x1 (r.blk / 4096) (r.blk % 4096)).sb = t.2.source))
    sbErase t.1 (if queued then x1 else queuePut (x1.aff.queue ++ [e]) x1)) d

/-- Open rows of a superblock after recovery: units in place or parked are counted, and a row that is complete but not yet on
media has its programs queued; a conventional superblock goes on at its next whole row. -/
def rowsRecover (id : Nat) (s : Sb) (d : Dev) : Dev :=
  let per := rowData d s
  let top := max (sbTop d id) (match zoneOfSb d id with | some q => q.2.wp | none => 0)
  if per = 0 then d
  else if s.type ≠ 1 then
    sbPut d id { s with staged := [], rowWait := [], nextK := (max top s.nextK + per - 1) / per * per }
  else
    let rows := (List.range ((top + per - 1) / per)).filter (fun r => !s.rowsDone.contains r)
    let has := fun (k : Nat) => (tabGet d.med.copies (uk id k)).isSome || (tabGet d.med.staged (uk id k)).isSome
      || (parkedAt d s.nsid (s.zslba + k)).isSome
    let d0 := sbPut d id { s with staged := [], rowWait := [] }
    rows.foldl (fun x r =>
      let n := ((List.range per).filter (fun i => has (r * per + i))).length
      match sbGet x id with
      | none => x
      | some y =>
        if n = 0 then x else rowsQueue id (prof d).wordlines (sbPut x id { y with staged := tabPut y.staged r n })) d0

/-- A superblock that no zone, map entry, park or collection names is erased in the background. -/
def strayErase (d : Dev) : Dev :=
  let named := fun (q : Nat × Sb) =>
    if q.2.type = 1 then d.ten.zones.any (fun z => decide (z.2.sb = q.1) || decide (z.2.moving = some q.1))
      || secOwns d q.2
    else decide (q.2.type = 2) || decide (q.2.type = 3)
  (d.med.sbs.filter (fun q => !named q)).foldl (fun x q => sbErase q.1 x) d

/-- The units of the dump: those of zones are in DRAM again, and every one is programmed into park superblocks, whose last row is padded;
a unit that found no place waits to be placed (R299, step 2). -/
def dumpRestore (zs : List (Nat × Zone)) (dump : List (Nat × Copy)) (loose : List Loose) (d : Dev) : Dev :=
  let keep := dump.filter (fun q => !q.2.parked && zs.any (fun z => decide (z.2.sb = q.1 / 4294967296)))
  let d1 := dirtyAdd (keep.filter (fun q => !q.2.pad && !q.2.refresh)).length { d with med := { d.med with staged := keep } }
  let d2 := movesRecover (dump.foldl (fun x q =>
    if q.2.pad || (parkedAt x q.2.nsid q.2.lba).isSome then x else (dumpPark (some q.1) 0 q.2 x).getD x) d1)
  let d3 := loose.foldl (fun x u => match dumpPark none u.group u.copy x with
    | some y => y
    | none => dirtyAdd 1 { x with med := { x.med with loose := x.med.loose ++ [u] } }) d2
  d3.med.parkSb.foldl (fun x q => parkPad q.2 4096 x) d3

/-- Step 6 of R299: erases that were cut off are issued again, secure operations go on, the dump is gone, and a checkpoint is written.
A committed boot with a Kennel at or above its stream's K_max records an event (R429). -/
def recResume (d : Dev) : Dev :=
  let again := d.med.blks.filter (fun q => decide (q.2.st = .erasing))
  let d1 := again.foldl (fun x q => jobAdd (q.1 / 4096) (.erase false) true (decide (3 ≤ q.2.type)) (q.1 % 4096) 0 x) d
  let d2 := secAdvance { d1 with med := { d1.med with
    secure := d1.med.secure.map (fun o => { o with tags := [], ready := true, started := false }), recovered := true,
    image := { d1.med.image with dump := [], loose := [], dumped := false } } }
  let d2a := if d2.med.stagedLost then evFree 1 0 d2 else d2
  let d3 := if !d.boot.trial && decide (d.med.layout.kmax ≤ topKennel d) then evFree 2 0 d2a else d2a
  let n := d3.hw.free
  let h := if hasMapu d3.fuse then
      wr (irq (spend d3.hw) irqMapu 10) R.MAPU_REC_TIME (BitVec.ofNat 32 (Config.freeNat n))
    else d3.hw
  jFlush (volMend { d3 with hw := h })

/-- A block whose pilot program a power loss or reset cut off is erased again, and another takes its place in its superblock (R239). -/
def pilotsMend (d : Dev) : Dev :=
  (d.med.blks.filter (fun q => decide (q.2.st = .open_) && decide (q.2.pilot = 1))).foldl (fun x q =>
    let die := q.1 / 4096
    let b := q.1 % 4096
    let x1 := eraseAdd die b x
    match sbGet x1 q.2.sb with
    | none => x1
    | some s => match memberOfBlk s die b, blkFor x1 (sbSlc s) die with
      | some i, some nb => memberReplace q.2.sb i 0 die b (die, nb) x1
      | _, _ => x1) d

/-- Recovery from the volume descriptor that was taken: zone table, map and write pointers in the order of R299, then a checkpoint and
RECOVERY_DONE; a volume of another major version shows no namespaces (R264, R299). -/
def mapRecoverFrom (d : Dev) : Dev :=
  if d.med.volUnknown then
    evFree 0 0 { d with ten := { d.ten with namespaces := [], zones := [], nsBind := [] }, med := { d.med with recovered := true } }
  else
    let zs := (zonesKnown d).map (fun q => (q.1, zoneRecover (foundCopies d) d q.1 q.2))
    let dw := wearRecover d
    let keep : Nat × Copy → Bool := fun q => !beyondWp zs d q.2
    let map := mapRecover (foundCopies d) d
    let d1 := { dw with
      ten := { d.ten with zones := zs }
      med := { dw.med with mapu := { d.med.mapu with map := map }, parkSb := [], moves := [], doomed := [],
                           copies := d.med.copies.filter keep,
                           sbs := d.med.sbs.map (fun q => (q.1, rowsBack zs d q.1 q.2)) } }
    let d2 := dumpRestore zs (d.med.image.dump.filter keep) d.med.image.loose d1
    let dp := pilotsMend d2
    let d3 := (dp.med.sbs.filter (fun q => decide (q.2.type = 1) || decide (q.2.type = 2))).foldl (fun x q => rowsRecover q.1 q.2 x) dp
    let d4 := recResume (zs.foldl zoneRebind (parkSweep (strayErase d3)))
    mapuMod (fun x => { x with st := if x.st = 1 then 2 else x.st }) d4

/-- MAP_RECOVERY: firmware on the running core 0 takes the current volume descriptor, recovers from it, and writes again every replica of
it that is missing or older (R262, R264, R299, R302). -/
def mapRecovery (d : Dev) : Dev :=
  if d.med.recovered || (tabGet d.pwr.cores 0).isNone then d else mapRecoverFrom (volTake d)

end Sys2Proof.Machine
end

