-- ==== Sys2Proof/Machine/Ports.lean ====
section
/-!
DEFINITION. Host ports and controllers: links and their power states (R44–R50), the first second after power-up (R55–R58),
controller registers and resets (R56, R57, R62, R106), doorbells, the admin ring and its completions (R78, R120), and the Host
Memory Buffer (R63–R65).
-/

namespace Sys2Proof.Machine

/-- Whether a host port exists in the present configuration (R45). -/
def portPresent (d : Dev) (p : Nat) : Bool := decide (p = 0) || (decide (p = 1) && dual d)

/-- Lanes of a port (R45). -/
def portLanes (d : Dev) : Nat := if dual d then 4 else 8

/-- Bit `n` of HOSTIF_INT_STAT for a port (Table 2.16). -/
def hostIrq (p n : Nat) (d : Dev) : Dev := { d with hw := irq d.hw irqHostif (16 * p + n) }

/-- Firmware is running: HOSTIF_BOOT.FW_UP (R55). -/
def fwUp (d : Dev) : Bool := bit (rd d.hw R.HOSTIF_BOOT) 0

/-- Whether an S0 Kennel is bound to a function of a port (R48, R49). -/
def s0Bound (d : Dev) (p : Nat) : Bool := (List.range 64).any (fun f => decide ((kenOf d (fnKennel d p f)).cls = 0))

/-- The link carries traffic: L0, L0p, L0s or L1. -/
def linkUp (l : LinkSt) : Bool :=
  match l with
  | .l0 | .l0p | .l0s | .l10 | .l11 | .l12 => true
  | _ => false

/-- Whether a port completes configuration requests normally (Table 2.4, steps 4 to 6). -/
def cfgNormal (d : Dev) (p : Nat) : Bool := fwUp d || (portGet d p).answering

/-- HOSTIF_LINK_p (Table 2.19). -/
def linkReg (d : Dev) (p : Nat) : Word :=
  if !portPresent d p then 0#32
  else
    let x := portGet d p
    BitVec.ofNat 32 (x.link.code * 268435456 + x.rate * 16777216 + x.width * 1048576 + (if x.flit then 524288 else 0)
      + (if x.perst then 262144 else 0) + (if x.ptmEn then 131072 else 0) + (if d.pins.sris then 65536 else 0))

/-- Port and function that HOSTIF_CSEL selects (Table 2.22). -/
def cselOf (d : Dev) : Nat × Nat := (fld (rd d.hw R.HOSTIF_CSEL) 16 1, fld (rd d.hw R.HOSTIF_CSEL) 0 7)

/-- Whether a controller exists: a PF of a present port, or a VF 1–63. -/
def ctrlPresent (d : Dev) (p fn : Nat) : Bool := portPresent d p && decide (fn ≤ 63)

/-- I/O queue pairs of a controller: 64 private to a PF, the assigned ones of a VF that is online (R54). -/
def ioQueues (d : Dev) (p fn : Nat) : Nat :=
  if fn = 0 then 64 else if (ctrlGet d p fn).online then (ctrlGet d p fn).vq else 0

/-- HOSTIF_CSTAT (Table 2.22). CSTS.RDY reads 0 while FW_UP = 0 (R78). -/
def cstat (d : Dev) : Word :=
  let s := cselOf d
  if !ctrlPresent d s.1 s.2 then 0#32
  else
    let c := ctrlGet d s.1 s.2
    let b := fun (x : Bool) (w : Nat) => if x then w else 0
    BitVec.ofNat 32 (b c.en 2147483648 + b (c.rdy && fwUp d) 1073741824 + c.shn % 4 * 268435456 + c.shst % 4 * 67108864
      + b c.cfs 33554432 + b c.d3 16777216 + fnKennel d s.1 s.2 * 65536 + ioQueues d s.1 s.2)

/-- HOSTIF_CCTL (Table 2.23). -/
def cctl (d : Dev) : Word :=
  let s := cselOf d
  if !ctrlPresent d s.1 s.2 then 0#32
  else
    let c := ctrlGet d s.1 s.2
    BitVec.ofNat 32 (c.shst % 4 * 4 + (if c.cfs then 2 else 0) + (if c.rdy then 1 else 0))

/-! Admin ring (R78, Table 2.18). -/

/-- Base of the admin ring (Table 2.17). -/
def ringBase (h : Hw) : Nat :=
  (rd h R.HOSTIF_ARING_LO).toNat / 128 * 128 + fld (rd h R.HOSTIF_ARING_HI) 0 16 * 0x100000000

/-- Entries in the ring. -/
def ringUsed (h : Hw) : Nat :=
  let n := fld (rd h R.HOSTIF_ARING_SIZE) 0 16
  let q := rd h R.HOSTIF_ARING_PTR
  (fld q 16 16 + n - fld q 0 16 % (n + 1)) % max n 1

/-- Whether HOSTIF may place another entry: delivery runs and the ring does not hold SIZE − 1 entries (R78). -/
def ringRoom (d : Dev) : Bool :=
  bit (rd d.hw R.HOSTIF_CTRL) 1 && !d.host.stopped && decide (ringUsed d.hw + 1 < fld (rd d.hw R.HOSTIF_ARING_SIZE) 0 16)

/-- The 128 bytes of a ring entry (Table 2.18). That the completion queue ID is the submission
queue's number is the model's choice (DESIGN CHOICE, log entry 82). -/
def ringEntry (h : Hw) (port fn sq : Nat) (sqe : List Byte) : List Byte :=
  ((sqe ++ List.replicate 64 0#8).take 64) ++ [BitVec.ofNat 8 port, BitVec.ofNat 8 fn] ++ leBytes 2 sq ++ leBytes 2 sq
    ++ leBytes 2 0 ++ leBytes 8 h.time.toNat ++ List.replicate 48 0#8

/-- Placing one entry: the write to memory, HEAD and ADMIN. A write that the Collar refuses is recorded and the entry's bytes
stay as they were. -/
def ringPlace (port fn sq : Nat) (sqe : List Byte) (d : Dev) : Dev :=
  let n := fld (rd d.hw R.HOSTIF_ARING_SIZE) 0 16
  let head := fld (rd d.hw R.HOSTIF_ARING_PTR) 16 16
  let a := ringBase d.hw + 128 * head
  let ok := collarOk d (16 + port) .write a 128
  let d1 := if ok then { d with hw := memPutBytes d.hw a (ringEntry d.hw port fn sq sqe) } else collarRefuse (16 + port) .write a 128 d
  sqFetch port fn sq (hostIrq port 8 { d1 with hw := md d1.hw R.HOSTIF_ARING_PTR (fun w => putFld w 16 16 ((head + 1) % max n 1)) })

/-- ADMIN_RING_DELIVER: waiting commands enter the ring, oldest first, while there is room (R78). -/
def ringDrain : Nat → Dev → Dev
  | 0, d => d
  | f + 1, d =>
    match d.host.ringWait with
    | [] => d
    | (port, fn, sq, sqe) :: rest =>
      if ringRoom d then ringDrain f (ringPlace port fn sq sqe { d with host := { d.host with ringWait := rest } }) else d

/-- Every waiting command that the ring can take. -/
def ringDeliver (d : Dev) : Dev := ringDrain d.host.ringWait.length d

/-- I/O commands that HOSTIF may now fetch join their queues (Table 2.14; Table 15.6, step 1). -/
def fetchAll (d : Dev) : Dev :=
  if !bit (rd d.hw R.HOSTIF_CTRL) 0 || d.host.stopped then d
  else
    let q := d.host.unfetched.foldl (fun t e => tabMod t e.1 [] (fun l => l ++ [e.2])) d.host.queues
    d.host.unfetched.foldl (fun x e => sqFetch (e.1 / 65536 / 64) (e.1 / 65536 % 64) (e.1 % 65536) x)
      { d with host := { d.host with queues := q, unfetched := [] } }

/-! Doorbells (R78, R120, R121). -/

/-- A vendor admin opcode from a VF: HOSTIF completes it itself (R51, R78). -/
def vendorOpcode (sqe : List Byte) : Bool :=
  match sqe with | b :: _ => decide (0xC0 ≤ b.toNat) && decide (b.toNat ≤ 0xC4) | [] => false

/-- One command made visible by a doorbell: an admin command, a Flush or a Zone Management Receive goes to the ring; any other
to the HERDER's queue, stamped with the doorbell's time. -/
def cmdSee (p fn sq : Nat) (c : IoCmd) (d : Dev) : Dev :=
  if sq = 0 ∧ fn ≠ 0 ∧ vendorOpcode c.sqe then cqPost p fn 0 c.cid .invalidOpcode 0 0 [] (sqFetch p fn 0 d)
  else if sq = 0 ∨ c.op = .flush ∨ c.op = .zoneReceive then
    { d with host := { d.host with ringWait := d.host.ringWait ++ [(p, fn, sq, c.sqe)] } }
  else
    let e : Nat × QCmd := ((p * 64 + fn) * 65536 + sq, { cmd := c, doorbell := d.hw.time, held := false })
    { d with host := { d.host with unfetched := d.host.unfetched ++ [e] } }

/-- DOORBELL_WRITE: a host doorbell of a ready controller makes commands visible; a link in L0p returns to full width, and
HOSTIF fetches (R48, R78, R120). -/
def doorbell (p fn sq : Nat) (cmds : List IoCmd) (d : Dev) : Dev :=
  let c := ctrlGet d p fn
  if !ctrlPresent d p fn || !linkUp (portGet d p).link || !(c.en && c.rdy && fwUp d) || c.d3
      || !(decide (sq = 0) || decide (sq ≤ ioQueues d p fn)) || cmds.isEmpty then d
  else ringDeliver (fetchAll (cmds.foldl (fun x k => cmdSee p fn sq k x) (widthRestore p d)))

/-- The status that a status field spells: 0 is Successful Completion. -/
def statusOf (field : Nat) : NvStat := if field % 32768 = 0 then .success else .posted field

/-- HOSTIF_ACPL: the completion item ends; HOSTIF fills in dword 2 and the phase tag, posts the entry to the queue it names and signals
the queue's vector (R78, Table 2.24). An item that names a controller the configuration does not have is answered RANGE: the spec gives
that case no result (DESIGN CHOICE, log entry 83). -/
def completionPost (m : Nat) (v : Word) (d : Dev) : Status × Dev :=
  match itemComplete d.hw 12 m with
  | (none, h) => (.flushed, { d with hw := h })
  | (some x, h) =>
    let port := fld v 15 1
    let fn := fld v 0 7
    let q := fld v 16 16
    let d3 := (itemArg x 0x98).toNat
    if !ctrlPresent d port fn then (.ok, { d with hw := mwr h R.HOSTIF_ACPL m (BitVec.ofNat 32 (Status.range.code * 268435456)) })
    else (.ok, ringDeliver (cqPost port fn q (d3 % 65536) (statusOf (d3 / 131072)) (itemArg x 0x90).toNat (itemArg x 0x94).toNat []
      { d with hw := mwr h R.HOSTIF_ACPL m 0#32 }))

/-! Controller resets (R57, R62, R106, R124). -/

/-- Runs with the member reads that serve them, and theirs. `f` bounds the chain. -/
def runFamily (d : Dev) : Nat → List Nat → List Nat
  | 0, rs => rs
  | f + 1, rs =>
    let kids := (d.fl.runs.filter (fun q => match q.2.serves with
      | .memberRa p | .memberRb p => rs.contains p | _ => false)).map (fun q => q.1)
    rs ++ (if kids.isEmpty then [] else runFamily d f kids)

/-- A command that the HERDER holds or has not dispatched goes without completion (R62). Its reads, and the member reads decided for them,
leave their queues, where reads of the overflow queue take the free entries and a suspension that nothing needs any more ends; no flash
operation is issued (R124, R125, R129). -/
def opDiscard (tag : Nat) (d : Dev) : Dev :=
  let mine := (d.fl.runs.filter (fun q => match q.2.serves with | .host t _ => decide (t = tag) | _ => false)).map (fun q => q.1)
  let rs := runFamily d d.fl.runs.length mine
  let d1 := rs.foldl (fun x r => match runGet x r with
    | some q => rqLeave r q.loc.die
        { x with fl := { x.fl with overflow := x.fl.overflow.map (fun t => (t.1, t.2.filter (fun n => decide (n ≠ r)))) } }
    | none => x) d
  let fl := { d1.fl with runs := d1.fl.runs.filter (fun q => !rs.contains q.1) }
  let doomed := d1.med.doomed.map (fun x => { x with runs := x.runs.filter (fun r => !rs.contains r) })
  opEnd tag .success 0 0 [] (opMod tag (fun o => { o with quiet := true })
    (doomCheck { d1 with fl := fl, med := { d1.med with doomed := doomed } }))

/-- The reset of a controller: its undispatched commands go, its dispatched ones run to their end unseen; its registers return to
reset values. Resources assigned by Virtualization Management stay (R54, R62), and so do the admin queue registers and the function's
power state (log entry 85). -/
def ctrlReset (p fn : Nat) (d : Dev) : Dev :=
  let ck := p * 64 + fn
  let host := { d.host with
    queues := d.host.queues.filter (fun q => decide (q.1 / 65536 ≠ ck))
    unfetched := d.host.unfetched.filter (fun q => decide (q.1 / 65536 ≠ ck))
    ringWait := d.host.ringWait.filter (fun q => decide (q.1 * 64 + q.2.1 ≠ ck))
    fetched := d.host.fetched.filter (fun q => decide (q.1 / 65536 ≠ ck))
    posted := d.host.posted.filter (fun q => decide (q.1 / 65536 ≠ ck))
    hmbWait := d.host.hmbWait.filter (fun c => decide (c.port * 64 + c.fn ≠ ck))
    rndHeld := d.host.rndHeld.filter (fun x => !x.src.any (fun c => decide (c.port * 64 + c.fn = ck))) }
  let mine := (d.host.ops.filter (fun q => decide (q.2.port * 64 + q.2.fn = ck)))
  let d1 := mine.foldl (fun x q =>
    if q.2.dispatched then opMod q.1 (fun o => { o with quiet := true }) x else opDiscard q.1 x) { d with host := host }
  let c := ctrlGet d1 p fn
  let d2 := ctrlPut d1 p fn { Ctrl.init with
    online := c.online, vq := c.vq, vi := c.vi, hostId := 0, aqa := c.aqa, asq := c.asq, acq := c.acq, d3 := c.d3 }
  if fn = 0 then portPut d2 p { portGet d2 p with hmb := .off, hmbUnits := 0 } else d2

/-- FUNCTION_LEVEL_RESET: the controller's reset, and FLR for the port (R62, Table 2.16). -/
def flr (p fn : Nat) (d : Dev) : Dev :=
  if ctrlPresent d p fn then hostIrq p 6 (ctrlReset p fn d) else d

/-- CONTROLLER_LEVEL_RESET (R62). -/
def clr (p fn : Nat) (d : Dev) : Dev := if ctrlPresent d p fn then ctrlReset p fn d else d

/-- CAP, which every controller presents: MQES 65,536 entries (0-based), CQR 1, round robin only, TO 30 s, NVM subsystem reset and I/O
command sets supported, memory pages of 4 KiB to 64 KiB, no boot partition, CMB or PMR (R56, R59, Table 2.6; bit places PRESUMED from
the NVMe specifications, log entry 85). -/
def ctrlCap : DWord :=
  BitVec.ofNat 64 (0xFFFF + 1 * 2 ^ 16 + 0x3C * 2 ^ 24 + 1 * 2 ^ 36 + 0x41 * 2 ^ 37 + 0 * 2 ^ 48 + 4 * 2 ^ 52)

/-- VS: NVMe 2.0. -/
def ctrlVs : Word := 0x00020000#32

/-- CC as the host has written it. -/
def ctrlCc (c : Ctrl) : Word := c.ccRest ||| BitVec.ofNat 32 ((if c.en then 1 else 0) + c.shn % 4 * 16384)

/-- CSTS: RDY, which is 0 while FW_UP = 0, CFS and SHST (R55, R78). -/
def ctrlCsts (d : Dev) (c : Ctrl) : Word :=
  BitVec.ofNat 32 ((if c.rdy && fwUp d then 1 else 0) + (if c.cfs then 2 else 0) + c.shst % 4 * 4)

/-- The registers that a controller presents to its host: CAP, VS, CC and CSTS; none before its port answers configuration requests
normally (Table 2.4, step 5). -/
def ctrlRegs (d : Dev) (p fn : Nat) : Option (DWord × Word × Word × Word) :=
  if ctrlPresent d p fn && cfgNormal d p && linkUp (portGet d p).link then
    some (ctrlCap, ctrlVs, ctrlCc (ctrlGet d p fn), ctrlCsts d (ctrlGet d p fn))
  else none

/-- CC_EN_WRITE: the value is kept, with the other fields of CC and the admin queue registers as the host has written them; CC_EN is set on
a change, and clearing it resets the controller (R56, R62). A port that does
not answer configuration requests yet has no register to write. -/
def ccEnWrite (p fn : Nat) (en : Bool) (cc aqa : Word) (asq acq : DWord) (d : Dev) : Dev :=
  let c := ctrlGet d p fn
  if !ctrlPresent d p fn || !cfgNormal d p || !linkUp (portGet d p).link || c.en == en then d
  else
    let d1 := hostIrq p 4 (if en then d else ctrlReset p fn d)
    ringDeliver (ctrlPut d1 p fn { ctrlGet d1 p fn with
      en := en, ccRest := cc &&& 0xFFFF3FFE#32, aqa := aqa, asq := asq, acq := acq })

/-- CC_SHN_WRITE: a non-zero CC.SHN is kept and SHN set; running firmware writes the learned and wear tables back and
saves media time at an orderly shutdown (R78, R185, R310, R326). -/
def ccShnWrite (p fn shn : Nat) (d : Dev) : Dev :=
  if !ctrlPresent d p fn || !cfgNormal d p || !linkUp (portGet d p).link then d
  else
    let d1 := ctrlPut d p fn { ctrlGet d p fn with shn := shn % 4 }
    if shn % 4 = 0 then d1
    else
      let d2 := hostIrq p 5 d1
      if fwUp d && (tabGet d.pwr.cores 0).isSome then
        mediaSave (wearWrite (learnedWrite true d2))
      else d2

/-- HOSTIF_CCTL: the selected controller's RDY, SHST and CFS, ignored while FW_UP = 0 (R78, Table 2.23). -/
def cctlWrite (v : Word) (d : Dev) : Dev :=
  let s := cselOf d
  if !fwUp d || !ctrlPresent d s.1 s.2 then d
  else
    let c := ctrlGet d s.1 s.2
    ringDeliver (ctrlPut d s.1 s.2 { c with rdy := bit v 0, cfs := c.cfs || bit v 1, shst := fld v 2 2 })

/-- HOSTIF_CTRL: fetch and admin delivery; ADMIN_EN is ignored with a ring size below 2 (Table 2.14). -/
def hostifCtrlWrite (v : Word) (d : Dev) : Dev :=
  let on := bit v 1 && (bit (rd d.hw R.HOSTIF_CTRL) 1 || decide (2 ≤ fld (rd d.hw R.HOSTIF_ARING_SIZE) 0 16))
  ringDeliver (fetchAll { d with hw := wr d.hw R.HOSTIF_CTRL (putBit (v &&& 1#32) 1 on) })

/-- HOSTIF_BOOT: FW_UP is W1S; the controllers are handed to firmware (R55, Table 2.15). -/
def fwUpWrite (v : Word) (d : Dev) : Dev :=
  if !bit v 0 then d else ringDeliver { d with hw := md d.hw R.HOSTIF_BOOT (fun w => setBit w 0) }

/-- Writes to the other HOSTIF registers (Tables 2.17, 2.22). -/
def hostifWrite (o : Nat) (v : Word) (d : Dev) : Dev :=
  let admin := bit (rd d.hw R.HOSTIF_CTRL) 1
  match o with
  | 0x08 => { d with hw := irqClear d.hw irqHostif 0xFFFFFFFF#32 v }
  | 0x0C => { d with hw := irqEnable d.hw irqHostif 0xFFFFFFFF#32 v }
  | 0x10 => { d with hw := wr d.hw R.HOSTIF_ARING_LO (v &&& 0xFFFFFF80#32) }
  | 0x14 => { d with hw := wr d.hw R.HOSTIF_ARING_HI (v &&& 0xFFFF#32) }
  | 0x18 => if admin then d else { d with hw := wr d.hw R.HOSTIF_ARING_SIZE (v &&& 0xFFFF#32) }
  | 0x1C => ringDeliver { d with hw := md d.hw R.HOSTIF_ARING_PTR (fun w => rwWrite 0xFFFF#32 w v) }
  | 0x80 => { d with hw := wr d.hw R.HOSTIF_CSEL (v &&& 0x1007F#32) }
  | _ => d

/-! Links (R46–R50). -/

/-- A link that goes down sets LINK_DOWN for its port (R78). -/
def linkDrop (p : Nat) (dst : LinkSt) (d : Dev) : Dev :=
  let x := portGet d p
  let d1 := portPut d p { x with link := dst, rate := 0, width := 0, fullWidth := 0, flit := false }
  if linkUp x.link then hostIrq p 3 d1 else d1

/-- LINK_DOWN: the link goes to Detect, or to Disabled (R78). -/
def linkDown (p : Nat) (disabled : Bool) (d : Dev) : Dev :=
  if portPresent d p && linkUp (portGet d p).link then linkDrop p (if disabled then .disabled else .detect) d else d

/-- PERST_ASSERT: the port's link and controllers are reset and its start-up timeline will begin anew (R47, R57). -/
def perstAssert (p : Nat) (d : Dev) : Dev :=
  if !portPresent d p || (portGet d p).perst then d
  else
    let d1 := hostIrq p 0 (linkDrop p .detect d)
    let d2 := (List.range 64).foldl (fun x f => if f = 0 ∨ (tabGet x.host.ctrls (p * 64 + f)).isSome then ctrlReset p f x else x) d1
    settle (portPut d2 p { portGet d2 p with perst := true, answering := false, lastConfig := none, ptmEn := false, ptmOffset := 0#64 })

/-- PERST_RELEASE: t0 of Table 2.4; the port's domains wake with source LINK and training starts in Detect (R55, Table 15.4). -/
def perstRelease (p : Nat) (d : Dev) : Dev :=
  if !portPresent d p || !(portGet d p).perst || !d.pins.sysResetHigh then d
  else
    let d1 := hostIrq p 1 (portPut d p { portGet d p with perst := false })
    ringDeliver (settle ((portDoms d1 p).foldl (fun x n => wakeReq n 6 x) d1))

/-- LINK_TRAINING_DONE: the link reaches L0 at the rate and width trained; Flit mode at 64 GT/s, and wherever both ends support it
(R46). The rate code is that of Table 2.19. -/
def linkTrained (p rate width : Nat) (flit : Bool) (d : Dev) : Dev :=
  let x := portGet d p
  if !portPresent d p || x.perst || !((portDoms d p).all (fun n => domOn d.pwr n))
      || !(decide (x.link = .detect) || decide (x.link = .polling) || decide (x.link = .recovery))
      || !(decide (1 ≤ rate) && decide (rate ≤ 6)) || !([1, 2, 4, 8].contains width && decide (width ≤ portLanes d)) then d
  else hostIrq p 2 (portPut d p { x with link := .l0, rate := rate, width := width, fullWidth := width,
                                         flit := flit || decide (rate = 6) })

/-- What a normally answered configuration request of a function shows. -/
def cfgSpace (d : Dev) (p fn : Nat) : CfgSpace :=
  { totalVfs := if fn = 0 then 63 else 0, maxPayload := 512, maxReadReq := 4096, ptmGranularity := 40
    msix := if fn = 0 then 65 else (ctrlGet d p fn).vi, bar2 := if fn = 0 then 16384 else 0 }

/-- The function's power state as the host sets it; DSTATE is set on a change (R49, Table 2.16). -/
def powerSet (p fn : Nat) (d3hot : Bool) (d : Dev) : Dev :=
  let c := ctrlGet d p fn
  if c.d3 == d3hot then d else hostIrq p 13 (ctrlPut d p fn { c with d3 := d3hot })

/-- CONFIG_REQUEST: answered normally, or with Request Retry Status (Table 2.4). One that is answered normally may place the function in
D3hot or D0, or, at a PF, enable or disable PTM (R49, R50; log entry 86). -/
def configRequest (p fn : Nat) (what : CfgAsk) (d : Dev) : Dev :=
  if !ctrlPresent d p fn || !linkUp (portGet d p).link then d
  else if !cfgNormal d p then portPut d p { portGet d p with lastConfig := some .retry }
  else
    let d1 := portPut d p { portGet d p with lastConfig := some (.normal (cfgSpace d p fn)) }
    match what with
    | .power b => powerSet p fn b d1
    | .ptm b => if fn = 0 then portPut d1 p { portGet d1 p with ptmEn := b } else d1
    | _ => d1

/-- BOOT_CONFIG_TIMEOUT: at t0 + 900 ms with FW_UP clear the ROM answers configuration requests (Table 2.4, step 5). -/
def bootConfigTimeout (p : Nat) (d : Dev) : Dev :=
  if portPresent d p && !(portGet d p).perst && !fwUp d then portPut d p { portGet d p with answering := true } else d

/-- LINK_WIDTH_REDUCE: after 100 µs of low use the port goes one L0p step down, to x2 at least, unless an S0 Kennel is bound
(R48). -/
def widthReduce (p : Nat) (d : Dev) : Dev :=
  let x := portGet d p
  if !portPresent d p || !x.flit || s0Bound d p || !(decide (x.link = .l0) || decide (x.link = .l0p)) || decide (x.width < 4) then d
  else hostIrq p 11 (portPut d p { x with link := .l0p, width := x.width / 2 })

/-- PARTNER_WIDTH_REQUEST: a reduction to `w` lanes asked by the link partner, granted with an S0 Kennel bound only down to x4
(R48). A request goes one step down: x8 → x4 → x2. -/
def partnerWidth (p w : Nat) (d : Dev) : Dev :=
  let x := portGet d p
  if !portPresent d p || !x.flit || !(decide (x.link = .l0) || decide (x.link = .l0p)) || !([2, 4].contains w)
      || decide (x.width ≠ 2 * w) || (s0Bound d p && decide (w < 4)) then d
  else hostIrq p 11 (portPut d p { x with link := .l0p, width := w })

/-- Every function of the port that is enabled is in D3hot, the PF among them. -/
def allD3 (d : Dev) (p : Nat) : Bool :=
  (ctrlGet d p 0).d3 && d.host.ctrls.all (fun q => decide (q.1 / 64 ≠ p) || q.2.d3 || !q.2.en)

/-- L1_2_ENTRY: the link enters L1.2, and the port's domains RET; with an S0 Kennel bound only when every function is in D3hot
(R49). A domain forced ON stays ON (R450). -/
def l12Entry (p : Nat) (d : Dev) : Dev :=
  let x := portGet d p
  if !portPresent d p || !linkUp x.link || decide (x.link = .l12) || (s0Bound d p && !allD3 d p) then d
  else
    let d1 := hostIrq p 12 (portPut d p { x with link := .l12 })
    (portDoms d1 p).foldl (fun y n =>
      if domOn y.pwr n && decide (domMode y.hw n ≠ 1) then domSet n { domGet y.pwr n with st := .ret, wake := none } (domSave n y) else y) d1

/-- CLKREQ_WAKE: CLKREQ_N in L1.2 wakes the port's domains with source LINK, and the link goes through Recovery (R49). -/
def clkreqWake (p : Nat) (d : Dev) : Dev :=
  let x := portGet d p
  if !portPresent d p || decide (x.link ≠ .l12) then d
  else
    let d1 := hostIrq p 12 (portPut d p { x with link := .recovery })
    (portDoms d1 p).foldl (fun y n => wakeReq n 6 y) d1

/-- PTM_REFRESH: a dialogue sets the port's offset while PTM is enabled (R50). -/
def ptmRefresh (p : Nat) (offset : DWord) (d : Dev) : Dev :=
  if portPresent d p && linkUp (portGet d p).link && (portGet d p).ptmEn then
    portPut d p { portGet d p with ptmOffset := offset }
  else d

/-- The time that a port reports to its host, in ns: device time with the port's offset applied (R50). Device time itself is as it
was. -/
def hostTime (d : Dev) (p : Nat) : DWord := d.hw.time * 40#64 + (portGet d p).ptmOffset

/-- PTM_FAIL: 10 ms without a refresh while PTM is enabled (R50). -/
def ptmFail (p : Nat) (d : Dev) : Dev := if portPresent d p && (portGet d p).ptmEn then hostIrq p 15 d else d

/-- PCIE_ERROR_LOGGED: AER_COR or AER_UNCOR, and the port's count (R78, Table 2.21). -/
def pcieError (p : Nat) (uncor : Bool) (d : Dev) : Dev :=
  if !portPresent d p then d
  else
    let d1 := { d with hw := md d.hw (R.HOSTIF_AER p) (fun w => bumpFld w (if uncor then 16 else 0) 16 1) }
    hostIrq p (if uncor then 10 else 9) d1

/-! Host Memory Buffer (R63–R65, R301). -/

/-- HMB_ENABLE: a buffer of at least HMMIN is enabled and the rebuild of its map content starts (R64, R65, R301). A smaller one, or
any on a VF, is refused. -/
def hmbEnable (c : Src) (units : Nat) (d : Dev) : Dev :=
  let x := portGet d c.port
  if c.fn ≠ 0 then adminDone c .invalidField 0 [] d
  else if x.hmb ≠ .off then adminDone c .commandSequence 0 [] d
  else if units < hmbNeed d c.port ∨ units = 0 then adminDone c .invalidField 0 [] d
  else adminDone c .success 0 [] (hostIrq c.port 7 (portPut d c.port { x with hmb := .rebuilding, hmbUnits := units }))

/-- HMB_DISABLE: the command waits while a dispatched command to the namespaces homed there has not ended; then the buffer is given up and
the command completes (R65). -/
def hmbDisable (c : Src) (d : Dev) : Dev :=
  if c.fn ≠ 0 then adminDone c .invalidField 0 [] d
  else if (portGet d c.port).hmb = .off then adminDone c .success 0 [] d
  else if homeOps d c.port then { d with host := { d.host with hmbWait := d.host.hmbWait ++ [c] } }
  else hmbStop c d

end Sys2Proof.Machine
end

