-- ==== Sys2Proof/Machine/ZoneCmds.lean ====
section
/-!
DEFINITION. The I/O commands of Table 2.6 but Read and Write: zone management and its timers (R82, R88, R92, R93, R101, R107–R114),
Write Zeroes and deallocate (R274), Secure Discard (R74, R303–R308), and Flush.
-/

namespace Sys2Proof.Machine

/-! Zone management (R88, R92). -/

/-- Whether an admitted command is due before `tag` in one of its zones: the zone's earlier writes and sends, and for a Reset or Offline every
earlier command to the zone (R92, R107). -/
def zoneEarlier (d : Dev) (n : Ns) (tag : Nat) (o : Op) : Bool :=
  let all := decide (o.cmd.act = .reset) || decide (o.cmd.act = .offline)
  d.host.ops.any (fun q => decide (q.1 < tag) && decide (q.2.cmd.nsid = o.cmd.nsid)
    && (isWriteOp q.2.cmd.op || (all && (decide (q.2.cmd.op = .read) || decide (q.2.cmd.op = .verify))))
    && (o.cmd.all || q.2.cmd.all || (zonesOf n q.2.lba q.2.cmd.nlb).contains (o.cmd.slba / n.zsze))
    && decide (q.2.st ≠ .erasing))

/-- A zone goes Offline: its data becomes unreadable and its blocks are erased in the background (Table 3.4). -/
def zoneOffline (zk : Nat) (d : Dev) : Dev :=
  let z := zoneGet d zk
  match nsGet d (zk / 1048576) with
  | none => d
  | some n =>
    let d1 := zoneSet zk { z with st := .offline, sb := 0 } d
    parkSweep (doomCheck (doom z.sb (parkDrop (zk / 1048576) (zslba n (zk % 1048576)) n.zsze (unqueueSb z.sb d1))))

/-- One zone's management action, from a state that Table 3.4 allows; an Open closes the zone that R89 names in the same step. The answer tells
whether it is complete; a secure reset goes on, and a further Reset joins it (R89, R108, R111). -/
def zoneAct (a : ZAct) (zk tag : Nat) (victim : Option Nat) (d : Dev) : Bool × Dev :=
  let z := zoneGet d zk
  match a with
  | .open_ =>
    (true, zoneSet zk { z with st := .expOpen, openedAt := if isOpen z.st then z.openedAt else d.hw.time }
      (match victim with | some v => zoneClose v d | none => d))
  | .close => (true, zoneClose zk d)
  | .finish => (true, zoneFinish zk false d)
  | .offline => (true, zoneOffline zk d)
  | .reset =>
    match z.secure with
    | some ts =>
      (false, if ts.head? = some tag then secureTurn zk tag d
        else if ts.contains tag then d else zonePut d zk { z with secure := some (ts ++ [tag]) })
    | none =>
      if z.st = .empty then (true, d)
      else if (match nsGet d (zk / 1048576) with | some n => n.secureMode | none => false) then (false, secureReset zk tag d)
      else (true, zoneReset zk d)

/-- Zones that a Select All applies to: those in a state the Zoned Namespace command set names for the action, within the Packs that its
Kennel permitted at its admission; for Reset, those whose reset is in progress join too (R86, R88, R111, R118). -/
def allZones (d : Dev) (ps : List Nat) (nsid : Nat) (n : Ns) (a : ZAct) : List Nat :=
  (nsZones d nsid).filterMap (fun q =>
    let z := q.2
    let ok := match a with
      | .open_ => decide (z.st = .closed) && z.secure.isNone
      | .close => isOpen z.st && z.secure.isNone
      | .finish => isActive z.st && z.secure.isNone
      | .reset => isActive z.st || decide (z.st = .full) || z.secure.isSome
      | .offline => decide (z.st = .readOnly) && z.secure.isNone
    if ok && ps.contains (zonePack d n (q.1 % 1048576)) then some q.1 else none)

/-- A Zone Management Send takes effect, in its turn: on one zone, whose state is judged again where it has changed since the admission, or on
every allowed one; its completion follows, or joins the secure resets it has started or joined (R88–R90, R92, R108–R111). -/
def zoneSend (act : ZAct) (tag : Nat) (d : Dev) : Dev :=
  match tabGet d.host.ops tag with
  | none => d
  | some o =>
    match nsGet d o.cmd.nsid with
    | none => d
    | some n =>
      if o.st ≠ .admitted ∨ o.cmd.op ≠ .zoneSend ∨ o.cmd.act ≠ act ∨ zoneEarlier d n tag o = true then d
      else
        let fin := fun (r : Bool × Dev) =>
          if r.1 then opEnd tag .success 0 0 [] r.2 else opMod tag (fun o => { o with st := .erasing }) r.2
        if o.cmd.all then
          let zs := allZones d o.packs o.cmd.nsid n act
          if act = .open_ ∧ 4096 < openCount d o.cmd.nsid + zs.length then opEnd tag .tooManyOpen 0 0 [] d
          else fin (zs.foldl (fun (b : Bool × Dev) zk => let q := zoneAct act zk tag none b.2; (b.1 && q.1, q.2)) (true, d))
        else
          let zk := zkey o.cmd.nsid (o.cmd.slba / n.zsze)
          match zoneActCheck d o.cmd.nsid zk act with
          | .inl st => opEnd tag st 0 0 [] d
          | .inr victim => fin (zoneAct act zk tag victim d)

/-- Whether some zone still carries a tag in its secure reset. -/
def tagPending (d : Dev) (tag : Nat) : Bool :=
  d.ten.zones.any (fun q => match q.2.secure with | some ts => ts.contains tag | none => false)
    || d.med.secure.any (fun o => o.zone.isNone && o.tags.contains tag)

/-- Commands that complete once nothing of theirs is still erasing. -/
def tagsEnd : List Nat → Dev → Dev
  | [], d => d
  | t :: ts, d => tagsEnd ts (if tagPending d t then d else opEnd t .success 0 0 [] d)

/-- The first secure operation of a Pack leaves it, and the next begins (R112, R305). -/
def secLeave (p : Nat) (d : Dev) : Dev :=
  match d.med.secure.find? (fun o => o.wide || decide (o.pack = p)) with
  | none => d
  | some o => secAdvance { d with med := { d.med with secure := d.med.secure.erase o } }

/-- SECURE_RESET_COMPLETE: every copy of the zone at the head of a Pack's secure operations has been erased and verified; the zone
enters Empty with a new superblock, a DONE record is placed, and the resets that joined complete (R83, R110–R112, R114). -/
def secureResetDone (p : Nat) (d : Dev) : Dev :=
  match d.med.secure.find? (fun o => o.wide || decide (o.pack = p)) with
  | none => d
  | some o => match o.zone with
    | none => d
    | some zk =>
      if !secDone d o then d
      else
        let tags := ((zoneGet d zk).secure).getD []
        let d1 := parkDrop o.nsid o.lba o.n d
        tagsEnd tags (secLeave p (jput (jrDone o.seq) (zoneBind zk (parkSweep d1))))

/-! Zone timers (R88, R93). -/

/-- ZONE_FRL_EXPIRY: an active zone open for FRL gets FZR and a Zone Descriptor Changed event at the attached controllers
(Table 3.4). -/
def zoneFrl (zk : Nat) (d : Dev) : Dev :=
  let z := zoneGet d zk
  match nsGet d (zk / 1048576) with
  | none => d
  | some n =>
    if !isActive z.st || z.fzr then d
    else n.attached.foldl (fun x ck => asyncPost ck (asyncDw 2 0xEF 0xBF) x) (zoneSet zk { z with fzr := true } d)

/-- ZONE_FORCED_FINISH: an active zone open for 2 × FRL is finished, with ZFC (Table 3.4). -/
def zoneForced (zk : Nat) (d : Dev) : Dev :=
  let z := zoneGet d zk
  if isActive z.st && z.fzr && z.secure.isNone then zoneFinish zk true d else d

/-- Active zones one of whose member blocks lies on a unit out of service and could not be replaced: finished as by Finish, with ZFC
(Table 3.4). -/
def zonesStuck (d : Dev) : Dev :=
  let stuck := d.ten.zones.filter (fun q => isActive q.2.st && q.2.secure.isNone && (match sbGet d (zoneSb q.2) with
    | none => false
    | some s =>
      let row := if rowData d s = 0 then 0 else q.2.wp / rowData d s
      (List.range s.members.length).any (fun i =>
        let st := (dieGet d (memberBlk s row i).1).st
        decide (st = 2) || decide (st = 4) || decide (st = 5))))
  stuck.foldl (fun x q => zoneFinish q.1 true x) d

/-- PARK_IDLE_EXPIRY: no write has reached the zone for the park idle time; its partial row is parked; an idle time of 0 disables
this (R93, R94). -/
def parkIdle (zk : Nat) (d : Dev) : Dev :=
  if d.med.layout.parkIdleMs = 0 || !isActive (zoneGet d zk).st then d else parkZone zk d

/-- REPORT_ZONES: Zone Management Receive, which firmware completes: for each zone from the one that holds `lba`, at most `count`,
its state code, attributes (ZFC bit 0, FZR bit 1), ZCAP, ZSLBA and write pointer (R82, R91, R103). -/
def reportZones (c : Src) (sq nsid lba count : Nat) (d : Dev) : Dev :=
  match nsGet d nsid with
  | none => cqPost c.port c.fn sq c.cid .invalidNamespace 0 0 [] d
  | some n =>
    if !n.attached.contains (c.port * 64 + c.fn) then cqPost c.port c.fn sq c.cid .invalidNamespace 0 0 [] d
    else if !n.zoned then cqPost c.port c.fn sq c.cid .invalidOpcode 0 0 [] d
    else if n.nsze ≤ lba then cqPost c.port c.fn sq c.cid .lbaRange 0 0 [] d
    else
      let first := lba / n.zsze
      let k := min count (zoneCount n - first)
      let out := (List.range k).flatMap (fun i =>
        let z := zoneGet d (zkey nsid (first + i))
        [z.st.code, (if z.zfc then 1 else 0) + (if z.fzr then 2 else 0), z.zcap, zslba n (first + i), zslba n (first + i) + z.wp])
      cqPost c.port c.fn sq c.cid .success 0 0 ((zoneCount n - first) :: out) d

/-! Flush, Write Zeroes, deallocate (R59, R274). -/

/-- FLUSH: no volatile write cache is present, so it completes at once (R59). -/
def flushCmd (c : Src) (sq nsid : Nat) (d : Dev) : Dev :=
  let ok := decide (nsid = 0xFFFFFFFF) || (match nsGet d nsid with
    | some n => n.attached.contains (c.port * 64 + c.fn)
    | none => false)
  cqPost c.port c.fn sq c.cid (if ok then .success else .invalidNamespace) 0 0 [] d

/-- WRITE_ZEROES: on a zoned namespace a write of zeros; on a conventional one the range is set UNMAPPED under the SEQ value of its
admission, with its UNMAP record (R64, R274). -/
def writeZeroes (tag : Nat) (d : Dev) : Dev :=
  match tabGet d.host.ops tag with
  | none => d
  | some o =>
    match nsGet d o.cmd.nsid with
    | none => d
    | some n =>
      if o.cmd.op ≠ .writeZeroes ∨ o.st ≠ .admitted then d
      else if n.zoned then writeStart tag d
      else if !mapReady d n then opEnd tag .mapUnavailable 0 0 [] d
      else opEnd tag .success 0 0 [] (jFlushIfNeeded (unmapAt o.cmd.nsid o.lba o.cmd.nlb o.seq false d))

/-- DATASET_MANAGEMENT: a deallocate sets the range UNMAPPED under the SEQ value of its admission (R274). A zoned namespace keeps its data:
the media of
a zone is given up by Reset alone. -/
def deallocate (tag : Nat) (d : Dev) : Dev :=
  match tabGet d.host.ops tag with
  | none => d
  | some o =>
    match nsGet d o.cmd.nsid with
    | none => d
    | some n =>
      if o.cmd.op ≠ .deallocate ∨ o.st ≠ .admitted then d
      else if n.zoned then opEnd tag .success 0 0 [] d
      else if !mapReady d n then opEnd tag .mapUnavailable 0 0 [] d
      else opEnd tag .success 0 0 [] (jFlushIfNeeded (unmapAt o.cmd.nsid o.lba o.cmd.nlb o.seq false d))

/-! Secure Discard (R74, R303–R308). -/

/-- Whether a superblock's filter matches a segment (R307). -/
def filterMatch (s : Sb) (seg : Nat) : Bool := s.filter.contains (seg % 4093) && s.filter.contains (seg / 4093 % 4093)

/-- The affected set of a discard: superblocks that hold a current copy of the range, those whose filter matches one of its segments,
and park superblocks with a copy (R304, R308). -/
def discardSet (d : Dev) (nsid lba n : Nat) : List (Nat × Sb) :=
  let segs := ((List.range n).map (fun i => segOf d nsid (lba + i))).eraseDups
  let held := (List.range n).filterMap (fun i => match mapAt d nsid (lba + i) with | .media _ sb _ => some sb | _ => none)
  let park := parkSbs d nsid lba n
  d.med.sbs.filter (fun q => held.contains q.1 || park.contains q.1
    || (decide (q.2.type = 2) && segs.any (fun g => filterMatch q.2 g)))

/-- DISCARD_DONE tells that a Secure Discard has completed (Table 9.11). -/
def discardNote (d : Dev) : Dev := { d with hw := irq d.hw irqMapu 11 }

/-- SECURE_DISCARD: the range is unmapped at once under s_d, and the erasure of its older copies joins the secure operations of each
Pack it touches (R303–R305). -/
def secureDiscard (tag : Nat) (d : Dev) : Dev :=
  match tabGet d.host.ops tag with
  | none => d
  | some o =>
    match nsGet d o.cmd.nsid with
    | none => d
    | some n =>
      if o.cmd.op ≠ .secureDiscard ∨ o.st ≠ .admitted then d
      else if n.zoned then opEnd tag .invalidOpcode 0 0 [] d
      else if !mapReady d n then opEnd tag .mapUnavailable 0 0 [] d
      else
        let set := discardSet d o.cmd.nsid o.lba o.cmd.nlb
        let d0 := unmapAt o.cmd.nsid o.lba o.cmd.nlb o.seq true d
        let ps := (set.map (fun q => q.2.pack)).eraseDups
        let mkOp := fun (p : Nat) =>
          ({ tags := [tag], pack := p, wide := false, nsid := o.cmd.nsid, zone := none, lba := o.lba, n := o.cmd.nlb, seq := o.seq,
             sbs := (set.filter (fun q => decide (q.2.pack = p))).map (fun q => q.1), ready := true, started := false, blocks := [] } : SecOp)
        if ps.isEmpty then opEnd tag .success 0 0 [] (discardNote (jput (jrDone o.seq) d0))
        else
          let d1 := opMod tag (fun o => { o with st := .erasing }) d0
          secAdvance { d1 with med := { d1.med with secure := ps.foldl (fun l p => secInsert (mkOp p) l) d1.med.secure } }

/-- SECURE_DISCARD_COMPLETE: the affected superblocks of the discard at the head of a Pack are erased and verified; with those of
its last Pack the DONE record is placed and the discard completes (R304, R305). -/
def secureDiscardDone (p : Nat) (d : Dev) : Dev :=
  match d.med.secure.find? (fun o => o.wide || decide (o.pack = p)) with
  | none => d
  | some o =>
    if o.zone.isSome || !secDone d o then d
    else
      let d1 := secLeave p d
      if d1.med.secure.any (fun q => decide (q.seq = o.seq)) then d1
      else tagsEnd o.tags (discardNote (jput (jrDone o.seq) d1))

end Sys2Proof.Machine
end

