-- ==== Sys2Proof/Machine/Holdup.lean ====
section
/-!
DEFINITION. Hold-up, the power-fail flush, thermal management and the external inputs' filtered levels (R404, R405, R457–R477).
-/

namespace Sys2Proof.Machine

/-- The device with its hold-up state changed by `f`. -/
def holdupMod (f : Holdup → Holdup) (d : Dev) : Dev := { d with holdup := f d.holdup }

/-! Fields. -/

/-- V_TOP in units of 10 mV (HOLDUP_BANK). -/
def vTop (d : Dev) : Nat := fld (rd d.hw R.HOLDUP_BANK) 16 16
/-- V_MIN in units of 10 mV (HOLDUP_BANK). -/
def vMin (d : Dev) : Nat := fld (rd d.hw R.HOLDUP_BANK) 0 16
/-- HOLDUP_CTRL.EN. -/
def hoEn (d : Dev) : Bool := bit (rd d.hw R.HOLDUP_CTRL) 0
/-- HOLDUP_CTRL.ARMED. -/
def hoArmed (d : Dev) : Bool := bit (rd d.hw R.HOLDUP_CTRL) 3
/-- HOLDUP_STAT.HEADROOM. -/
def headroom (d : Dev) : Bool := bit (rd d.hw R.HOLDUP_STAT) 31

/-- The present charge command in mA (R458). -/
def actMa (d : Dev) : Nat := fld (rd d.hw R.HOLDUP_CHG) 16 16

/-- The device with another charge command. -/
def actPut (ma : Nat) (d : Dev) : Dev := hwMod (fun h => md h R.HOLDUP_CHG (fun w => putFld w 16 16 ma)) d

/-- The level of CHG_SET in millivolts: the present command at ISCALE mA per volt, and 0 V while HOLDUP_CTRL.EN = 0 (R512, Table 17.11);
a scale of 0, before firmware loads one, gives a free level. -/
def chgSetMv (d : Dev) : Nat :=
  let scale := fld (rd d.hw R.HOLDUP_SCALE) 0 16
  if !hoEn d then 0 else if scale = 0 then Config.freeNat d.hw.free else actMa d * 1000 / scale

/-- PFAIL_N is active after its filter; it is active low. -/
def pfailActive (d : Dev) : Bool := !d.pins.filt.getLsbD 0

/-- SHDN_REQ_N is active after its filter; it is active low. -/
def shdnActive (d : Dev) : Bool := !d.pins.filt.getLsbD 3

/-- HOLDUP_STAT (Table 15.20). -/
def holdupStat (d : Dev) : Word :=
  putFld (putBit (rd d.hw R.HOLDUP_STAT) 27 (pfailActive d)) 0 16 (limitKib d / 1024)

/-- Capacitance in nF: as last measured, else 80 % of the rated value (R459). -/
def capNf (d : Dev) : Nat :=
  match d.holdup.capNf with
  | some c => c
  | none => fld (rd d.hw R.HOLDUP_CAP) 16 16 * 8000

/-! Energy and limit (R460, R461). -/

/-- Usable energy at a bank voltage, in units of 1/(2 × 10^12) mJ: η × C × (V² − V_MIN²) (R460). -/
def energyAt (d : Dev) (v : Nat) : Nat :=
  let u := min v (vTop d)
  if u ≤ vMin d then 0 else fld (rd d.hw R.HOLDUP_FLUSHP) 16 8 * capNf d * (u * u - vMin d * vMin d)

/-- Protected dirty limit in KiB at a bank voltage, rounded down, never below 0 and capped at MAX_MIB (R460). -/
def limitAt (d : Dev) (v : Nat) : Nat :=
  let p := fld (rd d.hw R.HOLDUP_FLUSHP) 24 8
  let m := fld (rd d.hw R.HOLDUP_FLUSHP) 8 8
  let t := fld (rd d.hw R.HOLDUP_FLUSHT) 16 16
  let rate := fld (rd d.hw R.HOLDUP_FLUSHT) 0 16
  let l := rate * (energyAt d v * (100 - m) * 1000 - t * 100 * p * 2000000000000) / (2000000000000 * 100 * p * 1000)
  let cap := fld (rd d.hw R.HOLDUP_LIMIT) 16 16
  if cap = 0 then l else min l (cap * 1024)

/-- HOLDUP_LIMIT_UPDATE: energy and limit from the present bank voltage; the limit reaches HERDER_DLIMIT, and writes that it now
allows, or parking that it now asks for, follow (R39, R93, R460). -/
def limitUpdate (d : Dev) : Dev :=
  if !hoEn d then d
  else
    let v := d.holdup.vbank
    let h1 := wr d.hw R.HERDER_DLIMIT (BitVec.ofNat 32 (limitAt d v))
    let h2 := wr h1 R.HOLDUP_ENERGY (BitVec.ofNat 32 (energyAt d v / 2000000000000))
    parkIfDirty (postWrites { d with hw := h2 })

/-- An event of HOLDUP: 0 headroom, 1 degraded, 2 measurement failed, with the limit in MiB and the capacitance in 10 µF. -/
def holdupEvent (k : Nat) (d : Dev) : Dev := hwMod (fun h => evUnit h 0x10 0x092 2 k (limitKib d / 1024) (capNf d / 10000)) d

/-- DEGRADED follows the limit computed at V_TOP from the measured capacitance; the early-warning flag follows it (R461). -/
def degradedCheck (d : Dev) : Dev :=
  let deg := fld (rd d.hw R.HOLDUP_LIMIT) 0 16
  let low := decide (deg ≠ 0) && decide (limitAt d (vTop d) < deg * 1024)
  let was := bit (rd d.hw R.HOLDUP_STAT) 30
  let d1 := hwMod (fun h => md h R.HOLDUP_STAT (fun w => putBit w 30 low)) d
  if low && !was then ewCheck (holdupEvent 1 (hwMod (fun h => irq h irqHoldup 4) d1)) else ewCheck d1

/-! Charging (R457, R458). -/

/-- BANK_AT_VTOP: the bank reaches V_TOP and charging stops. -/
def bankTop (d : Dev) : Dev :=
  if hoEn d && d.holdup.charging && decide (d.holdup.measStep ≠ 2) then
    holdupMod (fun x => { x with charging := false, reachedTop := true, vbank := vTop d }) d
  else d

/-- BANK_RECHARGE: the bank has fallen to `v`, below 99 % of V_TOP, and charging resumes; not during a measurement. -/
def bankRecharge (v : Nat) (d : Dev) : Dev :=
  if hoEn d && !d.holdup.charging && decide (d.holdup.measStep = 0) && decide (100 * v < 99 * vTop d) then
    holdupMod (fun x => { x with charging := true, vbank := v }) d
  else d

/-- The rail supplies only `ma`: the command is lowered to it, HEADROOM is set with its interrupt and an event, a measurement that runs stops
without a result (no measurement runs under HEADROOM; that it is no failure: DESIGN CHOICE, log entry 128), and the limit is computed. -/
def headroomLower (ma : Nat) (d : Dev) : Dev :=
  let d1 := hwMod (fun h => irq (md h R.HOLDUP_STAT (fun w => clrBit (setBit w 31) 28)) irqHoldup 3) (actPut ma d)
  limitUpdate (holdupEvent 0 (holdupMod (fun x => { x with measStep := 0 }) d1))

/-- HEADROOM_DETECT: the charge current has stayed at `ma`, below 90 % of the command, for 10 ms (R458). -/
def headroomDetect (ma : Nat) (d : Dev) : Dev :=
  if hoEn d && d.holdup.charging && decide (d.holdup.vbank < vTop d) && decide (10 * ma < 9 * actMa d) then headroomLower ma d else d

/-- HEADROOM_RETRY: the rated current has been commanded for 10 ms and `ma` measured; at V_TOP the test cannot be made and HEADROOM
clears (R458). -/
def headroomRetry (ma : Nat) (d : Dev) : Dev :=
  let cmd := fld (rd d.hw R.HOLDUP_CHG) 0 16
  let clear := fun (x : Dev) => hwMod (fun h => md h R.HOLDUP_STAT (fun w => clrBit w 31)) (actPut cmd x)
  if !headroom d then d
  else if !d.holdup.charging && decide (vTop d ≤ d.holdup.vbank) then clear d
  else if 9 * cmd ≤ 10 * ma then clear d
  else headroomLower ma d

/-! Capacitance measurement (R459). -/

/-- A measurement starts: charging stops; not during one, nor while HEADROOM is set, nor with EN clear. -/
def measStart (d : Dev) : Dev :=
  if !hoEn d || headroom d || decide (d.holdup.measStep ≠ 0) then d
  else hwMod (fun h => md h R.HOLDUP_STAT (fun w => setBit w 28))
    (holdupMod (fun x => { x with charging := false, measStart := x.vbank, measSag := 0, measStep := 1 }) d)

/-- HOLDUP_MEASURE_START: the timer of R459, 60 s after V_TOP was first reached or INTERVAL hours after the last one. -/
def measTimer (d : Dev) : Dev :=
  if d.holdup.reachedTop && (d.holdup.capNf.isNone || decide (fld (rd d.hw R.HOLDUP_MEAS) 24 8 ≠ 0)) then measStart d else d

/-- A measurement ends: charging goes on at the commanded current. -/
def measOver (d : Dev) : Dev :=
  hwMod (fun h => md h R.HOLDUP_STAT (fun w => clrBit w 28))
    (actPut (fld (rd d.hw R.HOLDUP_CHG) 0 16)
      (holdupMod (fun x => { x with measStep := 0, charging := decide (x.vbank < vTop d) }) d))

/-- A measurement fails: the previous capacitance stays, and the limit is computed from it (R459, R460). -/
def measFail (d : Dev) : Dev := limitUpdate (holdupEvent 2 (hwMod (fun h => irq h irqHoldup 6) (measOver d)))

/-- MEAS_SAG_END: T_SAG has passed and the bank stands at `v`; a sag below 1 % of V_TOP fails, else recharge at I_MEAS starts. -/
def measSagEnd (v : Nat) (d : Dev) : Dev :=
  if d.holdup.measStep ≠ 1 then d
  else
    let sag := d.holdup.measStart - v
    let d1 := holdupMod (fun x => { x with vbank := v, measSag := sag }) d
    if 100 * sag < vTop d then measFail d1
    else actPut (fld (rd d.hw R.HOLDUP_MEAS) 0 16) (holdupMod (fun x => { x with measStep := 2, charging := true }) d1)

/-- Capacitance in nF from current in mA, time in ns, sag in 10 mV and T_SAG in s (R459). -/
def capFrom (i t sag ts : Nat) : Nat := i * t * ts * 1000000000 / (10 * sag * (ts * 1000000000 + t))

/-- MEAS_RECHARGE_DONE: the bank is back at its starting voltage after `t` ns: C, energy and limit are computed (R459–R461). -/
def measDone (t : Nat) (d : Dev) : Dev :=
  if d.holdup.measStep ≠ 2 ∨ 10000000000 < t then d
  else
    let m := rd d.hw R.HOLDUP_MEAS
    let c := capFrom (fld m 0 16) t d.holdup.measSag (fld m 16 8)
    let d1 := measOver (holdupMod (fun x => { x with capNf := some c, vbank := x.measStart, measAt := d.hw.time }) d)
    let h1 := md (md d1.hw R.HOLDUP_STAT (fun w => setBit w 26)) R.HOLDUP_CAP (fun w => putFld w 0 16 (c / 10000))
    degradedCheck (limitUpdate { d1 with hw := irq h1 irqHoldup 5 })

/-- MEAS_TIMEOUT: the recharge has taken longer than 10 s (R459). -/
def measTimeout (d : Dev) : Dev := if d.holdup.measStep = 2 then measFail d else d

/-! The power-fail flush (R462–R468). -/

/-- A trigger of R462 is present: PFAIL_N, an internal reset asked for, a junction shut-down or SHDN_REQ_N. -/
def flushDue (d : Dev) : Bool := pfailActive d || d.holdup.resetAfter || d.holdup.shdnJ || shdnActive d

/-- Queued and running reads and Retriever runs end without a completion (Table 15.6, step 1). -/
def readsAbandon (d : Dev) : Dev :=
  let rs := d.host.ops.filter (fun q => decide (q.2.cmd.op = .read) || decide (q.2.cmd.op = .verify))
  let d1 := rs.foldl (fun x q => opEnd q.1 .success 0 0 [] (opMod q.1 (fun o => { o with quiet := true }) x)) d
  { d1 with
    fl := { d1.fl with
      runs := [], ctxWait := [], overflow := []
      dies := d1.fl.dies.map (fun q => (q.1, { q.2 with rq := [], reading := [], pq := [] }))
      dets := d1.fl.dets.map (fun q => (q.1, { q.2 with ctx := [] })) }
    med := { d1.med with doomed := d1.med.doomed.map (fun x => { x with runs := [] }) } }

/-- Every LUN with a program or erase in progress or suspended gets Reset LUN; its token returns (Table 15.6, step 2). -/
def lunsReset (d : Dev) : Dev :=
  d.fl.dies.foldl (fun x q =>
    match (dieGet x q.1).arr with
    | some a =>
      if a.op = .program ∨ a.op = .erase then
        let had := match a.job with | some j => j.token | none => false
        tokenBack had (diePut x q.1 { dieGet x q.1 with arr := some (arrNew .resetLun none x.hw.time) })
      else x
    | none => x) d

/-- Domains that the flush forces OFF at step 3 (Table 15.6). -/
def flushOffDoms : List Nat :=
  (List.range 24).map (fun i => 49 + i) ++ [77, 78, 79, 80, 85, 86, 74, 75, 76]

/-- Domains that the flush forces ON at step 3 (Table 15.6). -/
def flushOnDoms : List Nat :=
  (List.range 48).map (fun i => 1 + i) ++ [81, 82, 83, 84, 87, 88, 89, 90, 91, 92, 93, 94, 95, 73]

/-- A domain forced OFF by the flush, whatever holds it: an ON domain drains first (R463). -/
def flushDown (n : Nat) (d : Dev) : Dev :=
  let x := domGet d.pwr n
  if !domPresent d.fuse n then d
  else match x.st with
    | .on => domSet n { x with st := .draining, wake := none, flushOff := true } d
    | .ret | .waking => domSet n { x with st := .goingOff, wake := none, flushOff := true } d
    | _ => domSet n { x with wake := none, flushOff := true } d

/-- A domain forced ON by the flush, with wake source FLUSH (R463). -/
def flushUp (n : Nat) (d : Dev) : Dev := if domPresent d.fuse n && !domOn d.pwr n then wakeReq n 7 d else d

/-- What the dump of this flush holds: the zone table, the map, and every unit in DRAM not released (R40, R464). -/
def dumpImage (d : Dev) : Image :=
  { zones := d.ten.zones, map := d.med.mapu.map,
    dump := d.med.staged.filter (fun q => !q.2.pad && !q.2.refresh), loose := d.med.loose, dumped := true }

/-- POWER_FAIL_FLUSH: steps 1 to 3 of Table 15.6. One flush runs per boot; a later trigger joins it (R462, R463). A running Rind store
erase is aborted (Table 15.7). -/
def flushStart (d : Dev) : Dev :=
  if !flushDue d then d
  else if d.holdup.flushed then holdupMod (fun x => { x with coldAfter := x.coldAfter || pfailActive d }) d
  else
    let d0 := holdupMod (fun x => { x with
        flushed := true, flushStep := 2, t0 := d.hw.time, dirty0 := dirtyKib d, dumped := 0, supplyBack := false,
        coldAfter := pfailActive d, shdnReq := shdnActive d, measStep := 0 }) d
    let d1 := hwMod (fun h => pendSet (irq (md h R.HOLDUP_STAT (fun w => clrBit (setBit w 29) 28)) irqHoldup 0) 352) d0
    let d2 := readsAbandon { d1 with host := { d1.host with stopped := true }, med := { d1.med with snap := dumpImage d } }
    let d3 := match d2.hw.rind.running with
      | some r => if r.op = 2 then rindCmd 6 d2 else d2
      | none => d2
    let d4 := lunsReset { d3 with fl := { d3.fl with chans := d3.fl.chans.map (fun q => (q.1, { q.2 with pauseOver := true })) } }
    flushOnDoms.foldl (fun x n => flushUp n x) (flushOffDoms.foldl (fun x n => flushDown n x) d4)

/-- The tail phase: the MEDIA_TIME record, with the counters since format (log entry 116), then the event records not yet in the event
region (R468). -/
def flushTail (d : Dev) : Dev := hwMod evFlush (mediaSave d)

/-- Step 6 of Table 15.6 and the tail phase: FLUSH_DONE, the duration, the flash balls, the domains, and, where a shut-down caused
the flush or came during it, the shut-down hold (R463, R467, R468, R473). -/
def flushSix (mib : Nat) (late : Bool) (d : Dev) : Dev :=
  let us := (d.hw.time.toNat - d.holdup.t0.toNat) / 25
  let a2 := (if d.holdup.supplyBack then 1 else 0) + (if late then 2 else 0) + (if hoArmed d then 0 else 4)
  let h1 := irq (md d.hw R.HOLDUP_STAT (fun w => clrBit w 29)) irqHoldup 1
  let h2 := evUnit (wr (irqIf h1 late irqHoldup 7) R.HOLDUP_FLUSH_US (BitVec.ofNat 32 us)) 0x10 0x093 1 us mib a2
  let hold := d.holdup.shdnJ || shdnActive d
  let d1 := holdupMod (fun x => { x with
      flushStep := 6, flushes := x.flushes + 1, lastUs := us, longestUs := max x.longestUs us, dumped := mib * 1048576,
      timeoutLast := late, shdnReq := x.shdnReq || shdnActive d, inHold := hold })
    (ballsSafe { d with hw := h2 })
  let downs := (seqOrder d.fuse).filter (fun n => decide (n ≠ 73) || hold)
  flushTail (downs.foldl (fun x n => flushDown n x) d1)

/-- FLUSH_LUN_RESETS_DONE: step 4; with ARMED clear, step 6 follows at once (R463, R465). -/
def flushResetsDone (d : Dev) : Dev :=
  if d.holdup.flushStep ≠ 2 then d
  else
    let dies := d.fl.dies.map (fun q => match q.2.arr with
      | some a => if a.op = .resetLun then (q.1, { q.2 with arr := none }) else q
      | none => q)
    let d1 := holdupMod (fun x => { x with flushStep := 4 }) { d with fl := { d.fl with dies := dies } }
    if hoArmed d then d1 else flushSix 0 false d1

/-- HOLDUP_CTRL.FLUSH_END: the dump is on media, and step 6 follows; ignored outside a flush (R464). How much data the dump's
programs carried is the media's matter: a free value in the event (log entry 2). -/
def flushEnd (d : Dev) : Dev :=
  if d.holdup.flushStep ≠ 2 ∧ d.holdup.flushStep ≠ 4 then d
  else
    let mib := Config.freeNat d.hw.free
    let d1 := { d with hw := spend d.hw, med := { d.med with image := d.med.snap, staged := [], loose := [],
                                                             jr := { d.med.jr with onMedia := d.med.jr.count } } }
    flushSix mib false d1

/-- FLUSH_DEADLINE_EXPIRY: with ARMED set, FLUSH_END has not come by the deadline; HOLDUP takes step 6 and staged units not dumped
are lost (R465). -/
def flushDeadline (d : Dev) : Dev :=
  if decide (d.holdup.flushStep = 4) && hoArmed d then
    flushSix (Config.freeNat d.hw.free) true { d with hw := spend d.hw }
  else d

/-- SUPPLY_BACK: PFAIL_N has returned inactive during a flush (R467). -/
def supplyBackNow (d : Dev) : Dev :=
  if (decide (d.holdup.flushStep = 2) || decide (d.holdup.flushStep = 4)) && !pfailActive d && d.holdup.coldAfter then
    holdupMod (fun x => { x with supplyBack := true, supplyBacks := if x.supplyBack then x.supplyBacks else x.supplyBacks + 1 })
      (hwMod (fun h => irq h irqHoldup 2) d)
  else d

/-! HOLDUP registers (R476). -/

/-- The configuration that EN needs: V_TOP, RATE, P_FLUSH, ETA and I_MEAS not 0 (R476). -/
def holdupCfgOk (d : Dev) : Bool :=
  decide (vTop d ≠ 0) && decide (fld (rd d.hw R.HOLDUP_FLUSHT) 0 16 ≠ 0) && decide (fld (rd d.hw R.HOLDUP_FLUSHP) 24 8 ≠ 0)
    && decide (fld (rd d.hw R.HOLDUP_FLUSHP) 16 8 ≠ 0) && decide (fld (rd d.hw R.HOLDUP_MEAS) 0 16 ≠ 0)

/-- EN goes from 0 to 1, or is refused with RANGE (R457, R459, R476). -/
def holdupEnable (d : Dev) : Dev :=
  if !holdupCfgOk d then hwMod (fun h => md h R.HOLDUP_STAT (fun w => putFld w 16 4 Status.range.code)) d
  else
    let h1 := md (md d.hw R.HOLDUP_CTRL (fun w => setBit w 0)) R.HOLDUP_STAT (fun w => clrBit (putFld w 16 4 0) 26)
    let d1 := actPut (fld (rd d.hw R.HOLDUP_CHG) 0 16) { d with hw := h1 }
    limitUpdate (holdupMod (fun x => { x with charging := decide (x.vbank < vTop d), reachedTop := false, capNf := none }) d1)

/-- EN goes from 1 to 0: charging and a measurement stop. -/
def holdupDisable (d : Dev) : Dev :=
  hwMod (fun h => md (md h R.HOLDUP_CTRL (fun w => clrBit w 0)) R.HOLDUP_STAT (fun w => clrBit w 28))
    (holdupMod (fun x => { x with charging := false, measStep := 0 }) d)

/-- A write of HOLDUP_CTRL (Table 15.19). -/
def holdupCtrlWrite (v : Word) (d : Dev) : Dev :=
  let d1 := hwMod (fun h => md h R.HOLDUP_CTRL (fun w => putBit w 3 (bit v 3))) d
  let d2 := if bit v 0 && !hoEn d then holdupEnable d1 else if !bit v 0 && hoEn d then holdupDisable d1 else d1
  let d3 := if bit v 1 then measStart d2 else d2
  if bit v 2 then flushEnd d3 else d3

/-- A write of a HOLDUP register at offset `o`; RW registers but HOLDUP_CTRL ignore writes while EN = 1 (R476). -/
def holdupWrite (o : Nat) (v : Word) (d : Dev) : Dev :=
  let put := fun (a : Nat) (m : Word) => if hoEn d then d else hwMod (fun h => md h a (fun w => rwWrite m w v)) d
  match o with
  | 0x00 => holdupCtrlWrite v d
  | 0x08 => hwMod (fun h => irqClear h irqHoldup 0xFF#32 v) d
  | 0x0C => if hoEn d then d else hwMod (fun h => irqEnable h irqHoldup 0xFF#32 v) d
  | 0x10 => put R.HOLDUP_CHG 0xFFFF#32
  | 0x14 => put R.HOLDUP_BANK 0xFFFFFFFF#32
  | 0x18 => put R.HOLDUP_SCALE 0xFFFFFFFF#32
  | 0x1C => put R.HOLDUP_CAP 0xFFFF0000#32
  | 0x20 => put R.HOLDUP_FLUSHP 0xFFFFFFFF#32
  | 0x24 => put R.HOLDUP_FLUSHT 0xFFFFFFFF#32
  | 0x28 => put R.HOLDUP_LIMIT 0xFFFFFFFF#32
  | 0x2C => put R.HOLDUP_MEAS 0xFFFFFFFF#32
  | _ => d

/-! Thermal levels (R469–R474). -/

/-- The device with its thermal state changed by `f`. -/
def therm (f : Therm → Therm) (d : Dev) : Dev := { d with therm := f d.therm }

/-- THERM_CTRL.EN. -/
def thEn (d : Dev) : Bool := bit (rd d.hw R.THERM_CTRL) 0
/-- THERM_CTRL.SCHEME is TRIPLE. -/
def triple (d : Dev) : Bool := bit (rd d.hw R.THERM_CTRL) 1

/-- A level register's level and leaving point, in 0.1 °C. -/
def levelOf (w : Word) : Int × Int :=
  (10 * Int.ofNat (fld w 0 8), 10 * Int.ofNat (fld w 0 8) - 10 * Int.ofNat (fld w 8 4))

/-- The level after a judgement: a level is entered when its temperature is reached and left when the temperature falls below it
less its hysteresis; levels are numbered from 1 upward (R471). -/
def levelNext (cur : Nat) (t : Int) : Nat → List (Int × Int) → Nat
  | _, [] => 0
  | k, (enter, leave) :: rest =>
    let higher := levelNext cur t (k + 1) rest
    if higher ≠ 0 then higher else if enter ≤ t ∨ (k ≤ cur ∧ leave ≤ t) then k else 0

/-- Junction levels in force: SINGLE has shut-down only, at 135 °C with hysteresis 10, and applies while EN = 0 too; TRIPLE has its
three registers (R471, R477). -/
def jNext (d : Dev) (t : Int) : Nat :=
  if thEn d && triple d then
    levelNext d.therm.jLevel t 1 [levelOf (rd d.hw R.THERM_JWARN), levelOf (rd d.hw R.THERM_JTHR), levelOf (rd d.hw R.THERM_JSHDN)]
  else if levelNext d.therm.jLevel t 3 [(1350, 1250)] = 3 then 3 else 0

/-- Events and interrupts of a change of level from `a` to `b` on the junction or on a channel: `base` is the bit of THERM_INT_STAT
of the first level (R471, Table 16.2). -/
def levelEvents (base a b : Nat) (t : Int) (who : Nat) (h : Hw) : Hw :=
  let tw := i16 t
  let enter := fun (k : Nat) (x : Hw) =>
    if a < k ∧ k ≤ b then evUnit (irq x irqTherm (base + k - 1)) 4 0x090 2 (2 ^ (base + k - 1)) tw who else x
  let leave := fun (k : Nat) (x : Hw) =>
    if b < k ∧ k ≤ a then evUnit (irq x irqTherm 7) 4 0x090 2 (2 ^ (base + k - 1) + 256) tw who else x
  leave 1 (leave 2 (enter 2 (enter 1 (irqIf h (decide (b < a)) irqTherm 7))))

/-- Crossings of the warning and the throttle level are counted (log 0xC4). -/
def crossNote (a b : Nat) (t : Therm) : Therm :=
  let one := fun (k : Nat) (c : List (Nat × Nat)) => if a < k ∧ k ≤ b then tabMod c k 0 (fun n => n + 1) else c
  { t with crossings := one 2 (one 1 t.crossings) }

/-- Channel temperature of channel `c`: the higher of its own package value and of the inputs whose Pack mask names its Pack; none
where none has been read (R472). -/
def chanTemp (d : Dev) (c : Nat) : Option Int :=
  let map := (rd d.hw R.THERM_THMMAP).toNat
  let ins := (List.range 4).filterMap (fun i =>
    if map / 2 ^ (3 * i + c / 16) % 2 = 1 then tabGet d.therm.chans (48 + i) else none)
  match tabGet d.therm.chans c, ins with
  | some t, _ => some (ins.foldl max t)
  | none, t :: rest => some (rest.foldl max t)
  | none, [] => none

/-- SMART Composite Temperature in kelvin: the higher of T_J and the hottest flash channel (R474). -/
def compositeK (d : Dev) : Nat :=
  let t := ((List.range (chCount d.fuse)).filterMap (chanTemp d)).foldl max d.therm.tj
  ((t + 5) / 10 + 273).toNat

/-- Default over-temperature threshold: junction warning under TRIPLE, 125 °C under SINGLE, in kelvin (R474). -/
def overDefault (d : Dev) : Nat := (if triple d then fld (rd d.hw R.THERM_JWARN) 0 8 else 125) + 273

/-- The Temperature Threshold feature on the composite temperature: critical warning bit 1 and an asynchronous event when it goes
outside (R474, NVMe semantics). -/
def thresholdCheck (d : Dev) : Dev :=
  let k := compositeK d
  let under := tabGetD d.therm.threshUnder 0 0
  let out := decide (tabGetD d.therm.threshOver 0 (overDefault d) ≤ k) || (decide (under ≠ 0) && decide (k ≤ under))
  let d1 := therm (fun t => { t with tempWarn := out }) d
  if out && !d.therm.tempWarn then asyncAll (asyncDw 1 1 2) d1 else d1

/-- A shut-down cause that comes after the tail phase leads to the hold at once: PD73 goes OFF too (R473). -/
def holdEnter (d : Dev) : Dev :=
  if d.holdup.flushStep = 6 then flushDown 73 (holdupMod (fun x => { x with inHold := true }) d) else d

/-- The TEMPERATURE alarm: a reading outside −65 °C to 145 °C, or one that has moved by more than 20 °C since the conversion before (R469,
Table 12.4). -/
def sensorAlarm (old : List (Nat × Int)) (xs : List Int) : Bool :=
  xs.any (fun t => decide (t < -650) || decide (1450 < t))
    || xs.zipIdx.any (fun q => (tabGet old q.2).any (fun o => decide (200 < (q.1 - o).natAbs)))

/-- THERMAL_SENSOR_CONVERSION: the twelve sensors convert, T_J is their highest, and the junction levels are judged; readings out of
range and sudden steps raise the TEMPERATURE alarm (R469, R471, R473). -/
def sensorConvert (ts : List Int) (d : Dev) : Dev :=
  let xs := ts.take 12
  match xs with
  | [] => d
  | x0 :: rest =>
    let tj := rest.foldl max x0
    let sens := ((List.range xs.length).zip xs).foldl (fun t q => tabPut t q.1 q.2) d.therm.sens
    let maxs := ((List.range xs.length).zip xs).foldl (fun t q => tabMod t q.1 q.2 (fun m => max m q.2)) d.therm.sensMax
    let d1 := therm (fun t => { t with tj := tj, sens := sens, sensMax := maxs }) d
    let a := d1.therm.jLevel
    let b := jNext d1 tj
    let d2 := { (therm (fun t => crossNote a b { t with jLevel := b }) d1) with hw := levelEvents 0 (min a 2) (min b 2) tj 0xFF d1.hw }
    let d3 := if a < 1 ∧ 1 ≤ b ∧ (thEn d && triple d) = true then asyncAll (asyncDw 1 1 2) d2 else d2
    let d4 := if a < 3 ∧ b = 3 then
        holdEnter (holdupMod (fun x => { x with shdnJ := true }) (therm (fun t => { t with shutdowns := t.shutdowns + 1 }) d3))
      else d3
    let d5 := if sensorAlarm d.therm.sens xs then alarm 3 0 d4 else d4
    thresholdCheck d5


/-- Flash pause in µs at a temperature: ⌈500 × (T − T_thr) / (T_lim − T_thr)⌉, 0 below and 500 at the limit (R472). -/
def flashPause (t thr lim : Int) : Nat :=
  if t < thr then 0 else if lim ≤ t then 500 else ((500 * (t - thr) + (lim - thr) - 1) / (lim - thr)).toNat

/-- The flash levels of one channel judged at a slow round (R471, R472). -/
def chanLevel (c : Nat) (d : Dev) : Dev :=
  match chanTemp d c with
  | none => d
  | some t =>
    let thr := levelOf (rd d.hw R.THERM_FTHR)
    let lim := levelOf (rd d.hw R.THERM_FLIM)
    let a := tabGetD d.therm.fLevel c 0
    let b := levelNext a t 1 [levelOf (rd d.hw R.THERM_FWARN), thr, lim]
    let p := if b = 3 then 500 else if b = 2 then flashPause t thr.1 lim.1 else 0
    let d1 := therm (fun x => crossNote a b { x with fLevel := tabPut x.fLevel c b, fPause := tabPut x.fPause c p }) d
    { d1 with hw := levelEvents 2 (min a 2) (min b 2) t c (irqIf d1.hw (decide (a = 3) && decide (b < 3)) irqTherm 7) }

/-- Whether a slow-round channel is read: a flash channel needs its domain ON and a die in service (R470). -/
def roundReads (d : Dev) (i : Nat) : Bool :=
  if i < 48 then domOn d.pwr (i + 1) && (List.range 32).any (fun k => dieUp d (32 * i + k)) else decide (i < 64)

/-- One reading of a slow round. -/
def roundRead (i : Nat) (v : Int) (d : Dev) : Dev :=
  if !roundReads d i then d
  else
    let v := if i = 63 then d.therm.tj else v
    let d1 := therm (fun t => { t with chans := tabPut t.chans i v, chanMax := tabMod t.chanMax i v (fun m => max m v) }) d
    if i < 48 then retrainTemp i (chanPut d1 i { chanGet d1 i with pkgT := v })
    else if i = 61 then
      holdupMod (fun x => { x with vbank := v.toNat }) (hwMod (fun h => wr h R.HOLDUP_VBANK (BitVec.ofNat 32 (v.toNat % 65536))) d1)
    else d1

/-- SLOW_ROUND: the channels are read in order, flash levels and pauses follow, retraining where the package temperature moved, and
HOLDUP recomputes its limit (R156, R460, R470–R472). -/
def slowRound (vals : List Int) (d : Dev) : Dev :=
  let d1 := ((List.range 64).zip vals).foldl (fun x q => roundRead q.1 q.2 x) d
  let d2 := if thEn d1 && triple d1 then (List.range (chCount d.fuse)).foldl (fun x c => chanLevel c x) d1 else d1
  limitUpdate (thresholdCheck { d2 with hw := irq d2.hw irqTherm 6 })

/-- The checks of an EN write under a scheme (R471). -/
def thermCfgOk (h : Hw) (tri : Bool) : Bool :=
  let l := fun (a : Nat) => fld (rd h a) 0 8
  let hy := fun (a : Nat) => fld (rd h a) 8 4
  let hOk := [R.THERM_JWARN, R.THERM_JTHR, R.THERM_JSHDN, R.THERM_FWARN, R.THERM_FTHR, R.THERM_FLIM].all (fun a => decide (hy a ≠ 0))
  let order := decide (l R.THERM_JWARN < l R.THERM_JTHR) && decide (l R.THERM_JTHR < l R.THERM_JSHDN) && decide (l R.THERM_JSHDN ≤ 135)
    && decide (l R.THERM_FWARN ≤ l R.THERM_FTHR) && decide (l R.THERM_FTHR < l R.THERM_FLIM)
  hOk && (!tri || order)

/-- A write of THERM_CTRL: SCHEME is ignored while EN = 1; EN puts the levels in force or is refused with RANGE (R471, R477). -/
def thermCtrlWrite (v : Word) (d : Dev) : Dev :=
  let h := d.hw
  if thEn d then
    if bit v 0 then d
    else therm (fun t => { t with jLevel := if t.jLevel = 3 then 3 else 0, fLevel := [], fPause := [] })
      { d with hw := md h R.THERM_CTRL (fun w => clrBit w 0) }
  else
    let tri := bit v 1
    let h1 := md h R.THERM_CTRL (fun w => putBit w 1 tri)
    if !bit v 0 then { d with hw := h1 }
    else if thermCfgOk h tri then { d with hw := md h1 R.THERM_CTRL (fun w => putFld (setBit w 0) 16 4 0) }
    else { d with hw := md h1 R.THERM_CTRL (fun w => putFld w 16 4 Status.range.code) }

/-- A write of a THERM register at offset `o` (R477, Tables 15.29–15.36). -/
def thermWrite (o : Nat) (v : Word) (d : Dev) : Dev :=
  let put := fun (a : Nat) (m : Word) => hwMod (fun h => md h a (fun w => rwWrite m w v)) d
  let lvl := fun (a : Nat) => if thEn d then d else put a 0xFFF#32
  match o with
  | 0x00 => thermCtrlWrite v d
  | 0x08 => hwMod (fun h => irqClear h irqTherm 0xFF#32 v) d
  | 0x0C => hwMod (fun h => irqEnable h irqTherm 0xFF#32 v) d
  | 0x10 => lvl R.THERM_JWARN
  | 0x14 => lvl R.THERM_JTHR
  | 0x18 => lvl R.THERM_JSHDN
  | 0x20 => lvl R.THERM_FWARN
  | 0x24 => lvl R.THERM_FTHR
  | 0x28 => lvl R.THERM_FLIM
  | 0x30 => if fld v 0 10 ≤ 500 then put R.THERM_JPAUSE 0x3FF#32 else d
  | 0x34 => put R.THERM_THMMAP 0xFFF#32
  | 0x80 => put R.THERM_CH_SEL 0x3F#32
  | _ => d

/-- THERM_STAT (Table 15.31). -/
def thermStat (d : Dev) : Word :=
  let fl := d.therm.fLevel.foldl (fun m q => max m q.2) 0
  BitVec.ofNat 32 (min d.therm.jLevel 2 * 1073741824 + fl * 268435456 + (if d.therm.alert then 134217728 else 0)
    + (if bit (rd d.hw R.THERM_STAT) 26 then 67108864 else 0) + i16 d.therm.tj)

/-- A sensor or channel pair of maximum and present value; 0x8000 until first read (Table 15.35). -/
def pairWord (now top : Option Int) : Word :=
  let w := fun (o : Option Int) => match o with | some v => i16 v | none => 0x8000
  BitVec.ofNat 32 (w top * 65536 + w now)

/-- THERM_SENS_k, THERM_CH_VAL and THERM_CH_PAUSE. -/
def thermSens (d : Dev) (k : Nat) : Word := pairWord (tabGet d.therm.sens k) (tabGet d.therm.sensMax k)

/-- THERM_CH_VAL: temperature and maximum of the selected channel. -/
def thermChVal (d : Dev) : Word :=
  let i := fld (rd d.hw R.THERM_CH_SEL) 0 6
  pairWord (tabGet d.therm.chans i) (tabGet d.therm.chanMax i)

/-- THERM_CH_PAUSE: the present pause of the selected channel. -/
def thermChPause (d : Dev) : Word :=
  let i := fld (rd d.hw R.THERM_CH_SEL) 0 6
  BitVec.ofNat 32 (if i < chCount d.fuse then pauseOf d i else 0)

/-! External inputs (R404, R405). -/

/-- FILTERED_LEVEL_CHANGE: the filtered level of input `i` becomes `lv`; an input that goes active makes its source pending; the edges
of THERM_ALERT_N set and end the 500 µs pause; PFAIL_N or SHDN_REQ_N active during a flush joins it (R405, R406, R462, R467, R472). -/
def filterChange (i : Nat) (lv : Bool) (d : Dev) : Dev :=
  if 16 ≤ i ∨ d.pins.filt.getLsbD i = lv ∨ (extDriven d i = true ∧ extSample d i ≠ lv) then d
  else
    let d1 := { d with pins := { d.pins with filt := d.pins.filt ^^^ (1#16 <<< i), raw := if extDriven d i || (d.pins.raw.getLsbD i == lv) then d.pins.raw
                                                                                          else d.pins.raw ^^^ (1#16 <<< i) } }
    let act := extActive d1 i
    let d2 := if act then { d1 with hw := pendSet d1.hw (352 + i) } else d1
    if i = 2 then
      { (therm (fun t => { t with alert := act }) d2) with hw := irqIf d2.hw act irqTherm 4 }
    else if i = 0 ∧ act = true ∧ d.holdup.flushStep ≠ 0 then holdupMod (fun x => { x with coldAfter := true }) d2
    else if i = 3 ∧ act = true ∧ d.holdup.flushStep ≠ 0 then holdEnter (holdupMod (fun x => { x with shdnReq := true }) d2)
    else d2

end Sys2Proof.Machine
end

