-- ==== Sys2Proof/Machine/Reset.lean ====
section
/-!
DEFINITION. Resets: power-on, SYS_RESET_N, PGOOD and internal resets, and what each leaves (R44, R302, R310, R311, R350, R383, R433,
R455, R456, R467, R473, R485, R489, R506, R519, R527).
-/

namespace Sys2Proof.Machine

/-- Unit type and number as a UNIT_STATE record's key (Table 14.9). -/
def unitKey (type n : Nat) : Nat := type * 2048 + n

/-- The state that a unit takes at start: its record's, else in service (R527). -/
def unitStart (d : Dev) (type n : Nat) : Nat :=
  match tabGet d.sj.cur (sjKey 0x22 (unitKey type n)) with
  | some v => ((v.payload.head?).getD 1#8).toNat
  | none => 1

/-- Dies, channels and detectors as a reset leaves them: nothing in progress, state as recorded (R527). -/
def unitsReset (d : Dev) : Flash :=
  let f := d.fl
  { f with
    dies := f.dies.map (fun q => (q.1, { Die.init with
      st := unitStart d 2 q.1, timeouts := q.2.timeouts, progFails := q.2.progFails, eraseFails := q.2.eraseFails,
      rawCount := q.2.rawCount, resv := q.2.resv }))
    chans := f.chans.map (fun q => (q.1, { Chan.init with st := unitStart d 1 q.1, pkgT := q.2.pkgT, safe := q.2.safe }))
    dets := f.dets.map (fun q => (q.1, { Det.init with st := unitStart d 3 q.1, aborts := q.2.aborts }))
    pacer := { inuse := 0, wait := [], lastStart := [], waves := [], nextWave := 0#64, waving := false }
    ctxWait := [], runs := [], overflow := [], balance := [] }

/-- The host side as a reset leaves it: links down, controllers gone, commands lost; FDP and completions already posted stay. -/
def hostReset (x : HostSide) : HostSide :=
  { ports := x.ports.map (fun q => (q.1, { Port.init with perst := q.2.perst })), ctrls := [], queues := [], unfetched := [],
    ops := [], nextTag := x.nextTag, cq := x.cq, ringWait := [], fetched := [], posted := [], hmbWait := [], rndHeld := [], stopped := false,
    rrKennel := [], rrQueue := [], fdp := x.fdp, fdpLog := x.fdpLog,
    errLog := [], download := [], layoutXfer := [], layoutPort := none }

/-- A Kennel with nothing outstanding and full buckets. -/
def kenReset (k : Kennel) : Kennel :=
  { k with outstanding := 0, iopsB := { level := iopsCap k, last := 0 }, bwB := { level := bwCap k, last := 0 } }

/-- What a loss of DRAM leaves of the translation layer: what is not on media or in the dump is lost (R299, R302, R465). -/
def mediaReset (x : Media) : Media :=
  { x with
    staged := [], loose := [], recovered := false, stagedLost := x.staged.any (fun q => !q.2.pad) || !x.loose.isEmpty
    secure := x.secure.map (fun o => { o with tags := [], started := false })
    mapu := { x.mapu with seals := [], cache := [], version := 0, gen := 0, warned := false, sweep := [], sweeping := false,
                          rebuild := [], st := 0 }
    jr := { x.jr with buf := [], flushing := none, count := x.jr.onMedia, pend := [], carry := [], pairs := x.jr.old ++ x.jr.pairs
                      old := [], oldAt := 0, tail := tailJ { x.jr with pairs := x.jr.old ++ x.jr.pairs } } }

/-- The Affineur after a reset: it keeps media time and its queue; the wait for a Timestamp begins anew (R310, R315). -/
def affReset (a : Aff) : Aff :=
  { a with stamped := false, st := 0, todo := [], total := 0, paused := none, reports := [], batches := [], savedAtDown := a.mtime,
           ladderHigh := false }

/-- Security units after a reset: tables and unlocked state as R383 and R73 say; the vault's slots, in PD0, stay, and an
ERASED vault stays so (R364, R387). -/
def secReset (sys : Bool) (s : Sec) : Sec :=
  { s with
    mapKey := none, oldMapKey := none, kvState := if s.kvState = 2 then 2 else 0, jobs := [], keyCache := [], maskBytes := [],
    maskStale := 0#4, kvWait := []
    rngWait := [], verify := none, hash := none, blocked := if sys then 0#128 else s.blocked, windows := [], defAlarm := []
    dbg := { s.dbg with adminChal := none, jtagChal := none, unlocked := s.dbg.unlocked && !sys }
    spdmVersion := 0, spdmState := 0 }

/-- The hardware core after a reset: registers at their reset values but those that count since power-on, held requests and items
gone, and the event region to be scanned (R456, R485). -/
def hwReset (h : Hw) : Hw :=
  { h with
    regs := h.regs.filter (fun q => regKept q.1), mregs := [], items := []
    resps := h.resps.map (fun q => (q.1, { q.2 with waiting := false }))
    ev := { h.ev with scanned := false }
    rind := match h.rind.running with
      | some r =>
        let lo := if r.op = 2 then r.addr / 65536 * 65536 else r.addr / 256 * 256
        if r.op = 1 ∨ r.op = 2 then { rindSpoil h.rind lo (lo + if r.op = 2 then 65536 else 256) with running := none }
        else { h.rind with running := none }
      | none => h.rind }

/-- Hold-up after a reset: the bank keeps its voltage and the log its counts. -/
def holdupReset (x : Holdup) : Holdup :=
  { x with charging := false, reachedTop := false, capNf := none, measStep := 0, flushed := false, flushStep := 0, resetAfter := false,
           coldAfter := false, shdnJ := false, shdnReq := false, inHold := false, supplyBack := false }

/-- What every reset but power-on does (R456): the flash balls go safe, every domain but PD0 goes OFF without draining, the settings
journal is read, and the units take their reset state. `sys` marks SYS_RESET_N and PGOOD, which also reset HN_BOOTSTAT and debug unlock (R58, R73). -/
def devReset (sys : Bool) (d : Dev) : Dev :=
  let rollback := bit (rd d.hw R.RIND_BOOTCTL) 0
  let h1 := hwReset d.hw
  let h2 := if rollback then wr h1 R.RIND_BOOTCTL 1#32 else h1
  let b := d.boot
  let b1 := { b with romDue := true, romRunning := false, wdtRunning := false, waits := 0, trial := false }
  let b2 := if sys then { b1 with bootState := 0, lastStatus := 0, attempts := 0, rollback := false, image := 0 } else b1
  let d0 := sjLoad (ballsSafe { d with hw := h2 })
  let d1 : Dev := { d0 with
    wh := { saved := 0#4, stale := [], mtip := 0#16 }, curd := Curd.init, sec := secReset sys d.sec
    sj := { d0.sj with held := [], keyHeld := [] }, boot := b2, holdup := holdupReset d.holdup
    therm := { d.therm with jLevel := 0, fLevel := [], fPause := [] }
    mgmt := { d.mgmt with rx := none, txBusy := false, alert := false, i3c := false, i3cAddr := 0, unitBytes := 64 }
    jtag := { d.jtag with resp := none }
    host := hostReset d.host, ten := { d.ten with kennels := d.ten.kennels.map (fun q => (q.1, kenReset q.2)) }
    fl := unitsReset d0, med := mediaReset d.med, aff := affReset d.aff }
  extHeld (domsReset d1)

/-- Media time at power-up and its source: the saved value plus 1 s, or the greatest base plus 1 s (R310, R311); an erased manufacture
time counts as none. -/
def mediaTimeStart (d : Dev) : Nat × Nat :=
  match tabGet d.sj.cur (sjKey 1 0) with
  | some v => (leNat (v.payload.take 8) + 1, 0)
  | none =>
    let word := leNat (rindBytes d.hw.rind d.hw.free (140 * 65536 + 16) 8)
    let made := if word = 0xFFFFFFFFFFFFFFFF then 0 else word
    (max (max Config.romBuildTime made) (if d.med.formatted then d.med.volWritten else 0) + 1, 2)

/-- A Kennel's counts begin anew (R76, log 0xC6). -/
def kenZero (k : Kennel) : Kennel :=
  { k with misses := 0, reads := 0, writes := 0, bytesR := 0, bytesW := 0, helds := 0, arounds := 0, suspends := 0, hist := [], fine := [] }

/-- PD0 comes out of power-on reset: device time starts at 0 and every count since power-on; what the fuses, the Rind store and the
media hold stays; every memory word is undefined (R31, R310, R350, R364, R388, R454, R482). -/
def powerOn (d : Dev) : Dev :=
  let d1 := devReset true d
  let t := mediaTimeStart d1
  let seq : Pwr := { doms := [], seq := none, seqWait := true, held := [], cores := [] }
  countsLoad { d1 with
    hw := { d1.hw with
      regs := [], resps := [], time := 0#64, ev := EvState.init, mem := Mem.init
      rind := { d1.hw.rind with pwLocked := false } }
    pwr := seq
    sec := { d1.sec with
      slots := d1.sec.slots.map (fun q => (q.1, { Slot.init with gen := q.2.gen })), importKeks := [], kvState := 0, drbgOn := false,
      entropyOk := false, drbgReqs := 0, cipherBytes := [],
      dbg := { adminChal := none, jtagChal := none, failures := 0, unlocked := false } }
    boot := { d1.boot with retDue := true, wdtFired := false }
    therm := { d1.therm with sens := [], sensMax := [], chans := [], chanMax := [], alert := !d.pins.filt.getLsbD 2, tempWarn := false }
    mgmt := { d1.mgmt with ready := false, eid := 0 }
    holdup := { d1.holdup with supplyBacks := 0, measAt := 0#64, lastUs := 0 }
    ten := { d1.ten with kennels := d1.ten.kennels.map (fun q => (q.1, kenZero q.2)) }
    fl := { d1.fl with
      stepCnt := [], hourDepth := [], longest := []
      dies := d1.fl.dies.map (fun q => (q.1, { q.2 with timeouts := [], progFails := 0, eraseFails := 0 }))
      dets := d1.fl.dets.map (fun q => (q.1, { q.2 with aborts := [] })) }
    aff := { d1.aff with mtime := t.1, ticks := 0, timeSrc := t.2, savedAtDown := t.1 - 1, learnSaved := 0#64 } }

/-- PGOOD_RISE: every rail is in range; after a loss of PD0's supply PD0 leaves power-on reset with it. The start-up sequence begins
(R455, R506). -/
def pgoodRise (supplyLost : Bool) (d : Dev) : Dev :=
  if d.pins.pgood then d
  else
    let d1 := if supplyLost then powerOn d else d
    seqCheck (extHeld { d1 with pins := { d1.pins with pgood := true } })

/-- PGOOD_FALL: acts as an assertion of SYS_RESET_N and runs no flush; a running flush stops (R506, Table 17.7). -/
def pgoodFall (d : Dev) : Dev := if d.pins.pgood then devReset true { d with pins := { d.pins with pgood := false } } else d

/-- SYS_RESET_ASSERT (R456): a running flush stops (Table 15.7). -/
def sysResetAssert (d : Dev) : Dev :=
  if d.pins.sysResetHigh then devReset true { d with pins := { d.pins with sysResetHigh := false } } else d

/-- SYS_RESET_RELEASE: the straps are sampled and held (R44). -/
def sysResetRelease (dualPort refclk1 sris : Bool) (d : Dev) : Dev :=
  if d.pins.sysResetHigh then d
  else { d with pins := { d.pins with
    sysResetHigh := true, dualPort := dualPort, refclk1Sel := refclk1, sris := sris
    gpio := BitVec.ofNat 16 (bitsOf [dualPort, refclk1, sris]) } }

/-- STARTUP_SLOT: 20 µs after the start before it, the next domain of the sequence starts (R455). -/
def startupSlot (d : Dev) : Dev := if d.pwr.seq.isSome then seqNext d else d

/-- RIND_BOOTCTL.RESET, NVM Subsystem Reset and the boot watchdog ask for an internal reset, which runs the flush first (R433, R438,
R442, R456, R462). -/
def resetAsk (d : Dev) : Dev := holdupMod (fun x => { x with resetAfter := true }) d

/-- NVM_SUBSYSTEM_RESET: performed as an internal reset (R433). -/
def subsystemReset (p fn : Nat) (d : Dev) : Dev := if ctrlPresent d p fn then resetAsk d else d

/-- INTERNAL_RESET: the flush and its tail phase are over; with PFAIL_N in the flush the restart is the cold one, and a shut-down cause
holds first (R456, Table 15.7). -/
def internalReset (d : Dev) : Dev :=
  if decide (d.holdup.flushStep = 6) && d.holdup.resetAfter && !d.holdup.coldAfter && !d.holdup.inHold then devReset false d else d

/-- COLD_RESTART: after a flush that PFAIL_N triggered or joined, once PFAIL_N is inactive (R467). -/
def coldRestart (d : Dev) : Dev :=
  if decide (d.holdup.flushStep = 6) && d.holdup.coldAfter && !pfailActive d && !d.holdup.inHold then devReset false d else d

/-- The junction cause of a shut-down hold has cleared: T_J is below the level less its hysteresis (R473). -/
def junctionClear (d : Dev) : Bool := decide (d.therm.jLevel ≠ 3)

/-- SHUTDOWN_HOLD_END: every cause has cleared; the device restarts cold with SHDN_LAST set for that boot (R473). -/
def holdEnd (d : Dev) : Dev :=
  if d.holdup.inHold && (!d.holdup.shdnJ || junctionClear d) && !shdnActive d && !pfailActive d then
    let d1 := devReset false d
    hwMod (fun h => irq (md h R.THERM_STAT (fun w => setBit w 26)) irqTherm 5) d1
  else d

end Sys2Proof.Machine
end

