-- ==== Sys2Proof/Machine/Boot.lean ====
section
/-!
DEFINITION. Layout streams (R425–R428), firmware images (R432), boot records (R434), the boot ROM's attempts, the boot watchdog and
trial firmware (R435–R443).
-/

namespace Sys2Proof.Machine

/-! Layout streams. -/

/-- The little-endian number of `n` bytes at offset `o`. -/
def leAt (bs : List Byte) (o n : Nat) : Nat := leNat ((bs.drop o).take n)

/-- The big-endian number of `n` bytes at offset `o`. -/
def beAt (bs : List Byte) (o n : Nat) : Nat := leNat ((bs.drop o).take n).reverse

/-- First byte of a layout slot in the Rind store (Table 14.1). -/
def layoutBase (slot : Nat) : Nat := (if slot = 0 then 98 else 114) * 65536

/-- First byte of an image slot (Table 14.1). -/
def imageBase (slot : Nat) : Nat := (if slot = 0 then 2 else 50) * 65536

/-- A slot is empty when its first four bytes read 0xFFFF_FFFF (R432). -/
def slotEmpty (bs : List Byte) : Bool := decide (leAt bs 0 4 = 0xFFFFFFFF)

/-- LENGTH of a stream. -/
def streamLen (bs : List Byte) : Nat := leAt bs 8 4

/-- The directory entry of section number `i`: ID, offset, length, CRC. -/
def dirEntry (bs : List Byte) (i : Nat) : Nat × Nat × Nat × Nat :=
  (leAt bs (64 + 16 * i) 2, leAt bs (64 + 16 * i + 4) 4, leAt bs (64 + 16 * i + 8) 4, leAt bs (64 + 16 * i + 12) 4)

/-- The bytes of the section with an ID; empty where the stream has none. -/
def sectionOf (bs : List Byte) (id : Nat) : List Byte :=
  match ((List.range (leAt bs 6 2)).map (dirEntry bs)).find? (fun e => decide (e.1 = id)) with
  | some e => (bs.drop e.2.1).take e.2.2.1
  | none => []

/-- Check 1 of R427: magic, major version, LENGTH, and every directory entry inside the stream with a matching CRC. -/
def streamForm (bs : List Byte) : Bool :=
  let len := streamLen bs
  decide (bs.take 4 = [0x4A#8, 0x52#8, 0x54#8, 0x48#8]) && decide (leAt bs 5 1 = 1) && decide (len ≤ 1048576) && decide (len % 4 = 0)
    && decide (64 + 16 * leAt bs 6 2 + 196 ≤ len)
    && (List.range (leAt bs 6 2)).all (fun i =>
        let e := dirEntry bs i
        decide (e.2.1 + e.2.2.1 ≤ len) && decide ((crc32c ((bs.drop e.2.1).take e.2.2.1)).toNat = e.2.2.2))

/-- The digest that a trailer signs: SHA-384 over every byte before the signature (R426, R432). -/
def signedDigest (bs : List Byte) (len : Nat) : BitVec 384 := Config.sha384 (bs.take (len - 96))

/-- The signature of a 196-byte trailer under a key role (R381, R426). -/
def trailerOk (f : Fuse) (role : Nat) (bs : List Byte) (len : Nat) : Bool :=
  let t := bs.drop (len - 196)
  let n := fun (o : Nat) => BitVec.ofNat 384 (beAt t o 48)
  let dg := BitVec.ofNat 384 (leNat (leBytes 48 (signedDigest bs len).toNat).reverse)
  decide ((ecdsaOutcome f role (leAt t 0 1) dg (n 100) (n 148) (n 1) (n 49)).1 = .ok)

/-- Check 4 of R427: every bit of CH_MASK, DET_MASK and UNIT_FLAGS names a present unit. -/
def streamUnits (f : Fuse) (bs : List Byte) : Bool :=
  let fl := leAt bs 44 4
  decide (leAt bs 32 8 < 2 ^ chCount f) && decide (leAt bs 40 4 < 2 ^ detCount f)
    && (decide (fl % 2 = 0) || hasCrypto f) && (decide (fl / 2 % 2 = 0) || hasMapu f) && (decide (fl / 4 % 2 = 0) || hasPort1 f)
    && decide (fl < 8)

/-- The four checks of R427 in order. -/
def streamStatus (f : Fuse) (bs : List Byte) : Status :=
  if !streamForm bs then .reject
  else if !trailerOk f 2 bs (streamLen bs) then .reject
  else if leAt bs 12 2 ≠ (idPart f).toNat / 65536 ∨ (leAt bs 14 1 ≠ 0 ∧ leAt bs 14 1 ≠ (idPart f).toNat / 256 % 256) then .reject
  else if !streamUnits f bs then .range
  else .ok

/-- A number of a section, by the model's own numbering (log entry 30). -/
def secNum (bs : List Byte) (id k : Nat) : Nat := Config.sectionNum (sectionOf bs id) k

/-- The flash profile that a stream carries (Table 14.3; value numbers are the model's, log entry 30). -/
def streamProfile (bs : List Byte) : Profile :=
  let g := secNum bs 2
  let t := secNum bs 3
  { id := g 0, bpc := 3 + g 1 % 3, planes := g 2, wordlines := g 3, nblk := g 4, nres := g 5, offsetStep := g 6, npe := g 7,
    levelMap := (List.range 32).map (fun i => g (16 + i)), iface := t 0, rate := t 1, family := secNum bs 4 0 % 2,
    tR := t 2, tRMax := t 22, tStr := t 3, tRCls := t 23, tSf := t 24, tProg := t 4, tProgMax := t 5, tSlc := t 6, tSlcMax := t 7,
    tBers := t 8, tBersMax := t 9, tPor := t 10,
    tPorMax := t 11, tRst := t 12, tRstMax := t 13, tSusP := t 14, tSusE := t 15, tRes := t 16, maxSusP := t 17, maxSusE := t 18,
    tRunP := t 19, tRunE := t 20, tHold := t 21, words := (List.range 1024).map (fun i => BitVec.ofNat 32 (t (64 + i))) }

/-- The first `n` bytes of a list, padded with zeros. -/
def padTo (n : Nat) (bs : List Byte) : List Byte := (bs ++ List.replicate (n - bs.length) 0#8).take n

/-- The layout that a stream puts in force. K_max and the stripe width keep their ranges (R115, R431). -/
def layoutOf (bs : List Byte) : Layout :=
  let k := secNum bs 0x10
  { seq := leAt bs 16 8, profile := streamProfile bs, width := [4, 8, 16, 48].getD (secNum bs 4 1 % 4) 16, ces := secNum bs 1 0,
    luns := secNum bs 1 1, fitted := BitVec.ofNat 48 (leAt bs 32 8), kmax := 1 + k 0 % 256,
    plain := (List.range 256).filter (fun i => decide (k (16 + i) % 2 = 1)),
    forbidOff := BitVec.ofNat 96 (k 1), parkIdleMs := secNum bs 0x18 0, parkPct := secNum bs 0x18 1, cacheMib := secNum bs 0x13 0,
    bins := padTo 16384 (sectionOf bs 5),
    digest := signedDigest bs (streamLen bs) }

/-- The frozen fields of a layout as the volume header records them (Table 8.8, bytes 68–123). -/
def frozenBytes (f : Fuse) (l : Layout) : List Byte :=
  let p := l.profile
  leBytes 4 p.id ++ leBytes 1 p.iface ++ leBytes 1 p.bpc ++ leBytes 1 p.planes ++ leBytes 1 p.family ++ leBytes 2 p.wordlines
    ++ leBytes 2 p.nblk ++ leBytes 2 p.nres ++ leBytes 1 l.width ++ leBytes 1 (chCount f) ++ leBytes 1 (packCount f)
    ++ leBytes 1 p.offsetStep ++ leBytes 2 (4 * codeBytes p.family) ++ (List.range 32).map (fun i => BitVec.ofNat 8 (p.levelMap.getD i 0))
    ++ leBytes 4 p.npe


/-- A stream agrees with every frozen field of the current volume; before a volume exists nothing is frozen (R174, R428). The interface of
the profile, byte 4 of the recorded fields, is in the TIMING section, of which only the parameters of Table 6.1 are frozen. -/
def frozenOk (d : Dev) (bs : List Byte) : Bool :=
  if !d.med.formatted then true
  else
    let v := tabGetD d.med.volume 0 []
    let old := padTo 56 ((padTo 184 v).drop 68)
    let new := frozenBytes d.fuse (layoutOf bs)
    let bins := (List.range 4).flatMap (fun i => padTo 4096 (tabGetD d.med.volume (1 + i) []))
    let p := (layoutOf bs).profile
    decide (old.take 4 ++ old.drop 5 = new.take 4 ++ new.drop 5) && decide (padTo 16384 (sectionOf bs 5) = bins)
      && decide ((p.tStr, p.tRCls, p.tSf) = d.med.volRead)


/-! Boot records (R434). -/

/-- The 64 bytes of a boot record (Table 14.5). -/
def bootBytes (r : BootRec) : List Byte :=
  let body := leBytes 2 r.type ++ leBytes 2 0 ++ leBytes 4 r.bootCount ++ leBytes 8 r.seq ++ leBytes 1 r.image ++ leBytes 1 r.layout
    ++ leBytes 1 r.pendImage ++ leBytes 1 r.pendLayout ++ leBytes 1 r.tries ++ leBytes 3 0 ++ leBytes 8 r.layoutSeq ++ leBytes 28 0
  body ++ leBytes 4 (crc32c body).toNat

/-- A boot record read from 64 bytes; none where its CRC fails. -/
def bootParse (bs : List Byte) : Option BootRec :=
  if leAt bs 60 4 = (crc32c (bs.take 60)).toNat then
    some { type := leAt bs 0 2, bootCount := leAt bs 4 4, seq := leAt bs 8 8, image := leAt bs 16 1, layout := leAt bs 17 1,
           pendImage := leAt bs 18 1, pendLayout := leAt bs 19 1, tries := leAt bs 20 1, layoutSeq := leAt bs 24 8 }
  else none

/-- The state with no valid record: committed image A and layout slot 0, nothing pending (R434). -/
def BootRec.blank : BootRec :=
  { type := 0, bootCount := 0, seq := 0, image := 0, layout := 0, pendImage := 0xFF, pendLayout := 0xFF, tries := 0, layoutSeq := 0 }

/-- Record slots of the area, 0–2,047, that hold a programmed byte. -/
def bootSlots (h : Hw) : List Nat :=
  (h.rind.store.cells.foldl (fun (t : List (Nat × Unit)) q => if q.1 < 131072 then tabPut t (q.1 / 64) () else t) []).map (fun q => q.1)

/-- The valid records of the area with their slots. -/
def bootRecs (h : Hw) : List (Nat × BootRec) :=
  (bootSlots h).filterMap (fun s => (bootParse (rindBytes h.rind h.free (64 * s) 64)).map (fun r => (s, r)))

/-- The governing record and its slot: the highest SEQ (R434). -/
def bootGov (h : Hw) : Option (Nat × BootRec) :=
  (bootRecs h).foldl (fun b q => match b with
    | none => some q
    | some o => if o.2.seq < q.2.seq then some q else b) none

/-- The slot that the next record takes: after the last slot used in the governing record's sector, else the start of the other. -/
def bootNext (h : Hw) : Nat :=
  match bootGov h with
  | none => match (bootSlots h).filter (fun s => decide (s < 1024)) with
    | [] => 0
    | s :: rest => (rest.foldl max s + 1) % 2048
  | some g =>
    let last := ((bootSlots h).filter (fun s => decide (s / 1024 = g.1 / 1024))).foldl max g.1
    (last + 1) % 2048

/-- Appending a boot record with the next SEQ; entering a sector erases it first (R434). -/
def bootAppend (r : BootRec) (d : Dev) : Dev :=
  let b := d.boot
  let r1 := { r with seq := b.gov.seq + 1 }
  let rind0 := if b.recNext % 1024 = 0 then rindErase d.hw.rind (b.recNext / 1024) else d.hw.rind
  { d with
    hw := { d.hw with rind := rindProg rind0 d.hw.free (64 * b.recNext) (bootBytes r1), bootCount := BitVec.ofNat 32 r1.bootCount }
    boot := { b with gov := r1, recNext := (b.recNext + 1) % 2048 } }

/-- Something is pending (R434). -/
def pendingPair (r : BootRec) : Bool := decide (r.pendImage ≠ 0xFF) || decide (r.pendLayout ≠ 0xFF)

/-- The pending pair: image and layout (R434). -/
def pairOf (r : BootRec) : Nat × Nat :=
  (if r.pendImage = 0xFF then r.image else r.pendImage, if r.pendLayout = 0xFF then r.layout else r.pendLayout)

/-- A record with nothing pending. -/
def dropPending (r : BootRec) : BootRec := { r with type := 5, pendImage := 0xFF, pendLayout := 0xFF, tries := 0 }

/-- An event BOOT_ATTEMPT: attempt number, image, layout slot and status, and whether the watchdog fired (R436, R438). -/
def attemptEvent (st : Status) (wdt : Bool) (d : Dev) : Dev :=
  let b := d.boot
  hwMod (fun h => evFw h 0x008 2 b.attempts (b.image % 2 + 2 * (b.layout % 2) + 16 * st.code) (if wdt then 1 else 0)) d

/-! The boot ROM (R435–R437). -/

/-- ROM_START: working SRAM, and after power-on retention SRAM, are written; the boot records are read; one record is appended, which
raises BOOT_COUNT: DROP for a rollback or after two tries of the pending pair, ATTEMPT where the pending pair comes first, START
otherwise; an expired watchdog sets WDT_FIRED, counts as a failed attempt and is followed by a back-off (R350, R435, R438, R442, R456). -/
def romStart (d : Dev) : Dev :=
  if !(d.boot.romDue && d.pins.sysResetHigh && d.pins.pgood && domOn d.pwr 73 && domOn d.pwr 91) then d
  else
    let h0 := { d.hw with mem := memZero d.hw.mem 0x10000000 0x11000000 }
    let h1 := if d.boot.retDue then { h0 with mem := memZero h0.mem 0x20000000 0x20800000 } else h0
    let gov := match bootGov h1 with | some g => g.2 | none => BootRec.blank
    let roll := bit (rd h1 R.RIND_BOOTCTL) 0
    let pend := pendingPair gov && !roll && decide (gov.tries < 2)
    let counted := { gov with bootCount := gov.bootCount + 1 }
    let new := if roll || (pendingPair gov && !pend) then dropPending counted
      else if pend then { counted with type := 2, tries := gov.tries + 1 }
      else { counted with type := 1 }
    let pair := if pend then pairOf gov else (gov.image, gov.layout)
    let wdt := d.boot.wdtFired
    let b : Boot := { d.boot with
      romDue := false, retDue := false, romRunning := true, gov := gov, recNext := bootNext h1, firstPending := pend,
      attempts := if wdt then satAdd 16 d.boot.attempts 1 else d.boot.attempts,
      lastStatus := if wdt then 0 else d.boot.lastStatus, wdtFired := false, waits := if wdt then 1 else 0,
      bootState := if wdt then 2 else 0, rollback := roll, trial := false }
    let h2 := irqIf (md h1 R.RIND_BOOTCTL (fun w => clrBit w 0)) wdt irqRind 5
    let d1 := bootAppend new { d with hw := h2, boot := b }
    let d2 := if roll then hwMod (fun h => evFw h 0x00A 2 d.boot.image 0 0) d1 else d1
    let d3 := if wdt then attemptEvent .ok true d2 else d2
    { d3 with boot := { d3.boot with image := pair.1, layout := pair.2 } }

/-- Words with their check bits written from an address. -/
def memFill : Nat → Nat → List Byte → Mem → Mem
  | 0, _, _, m => m
  | n + 1, a, bs, m =>
    let w := BitVec.ofNat 64 (leNat (bs.take 8))
    memFill n (a + 8) (bs.drop 8) (memPut m a w (secCheck w))

/-- Bytes copied to memory, in whole words. -/
def memCopy (a : Nat) (bs : List Byte) (d : Dev) : Dev :=
  { d with hw := { d.hw with mem := memFill ((bs.length + 7) / 8) a bs d.hw.mem } }

/-- Step 1 of Table 14.7 on an image's bytes. -/
def imageForm (f : Fuse) (bs : List Byte) : Status :=
  let hd := bs.take 4096
  let len := Config.imageField hd 0
  if slotEmpty bs then .zeroLen
  else if bs.take 4 ≠ [0x48#8, 0x4E#8, 0x46#8, 0x57#8] ∨ 3145728 < len ∨ len < 4096 + 196
      ∨ Config.imageField hd 1 ≠ (idPart f).toNat / 65536 ∨ Config.imageField hd 3 ≠ 0x10000000 then .reject
  else .ok

/-- Bytes of an image slot and of a layout slot. -/
def imageBytes (d : Dev) (s : Nat) : List Byte := rindBytes d.hw.rind d.hw.free (imageBase s) 3145728
/-- The bytes of a layout slot (R425). -/
def slotBytes (d : Dev) (s : Nat) : List Byte := rindBytes d.hw.rind d.hw.free (layoutBase s) 1048576

/-- An attempt's status, with working SRAM as its copies leave it: steps 1 to 4 of Table 14.7. -/
def attemptRun (d : Dev) : Status × Dev :=
  let img := imageBytes d d.boot.image
  let len := Config.imageField (img.take 4096) 0
  let st := slotBytes d d.boot.layout
  if imageForm d.fuse img ≠ .ok then (imageForm d.fuse img, d)
  else
    let d1 := memCopy 0x10000000 (img.take len) d
    if !trailerOk d.fuse 1 img len then (.reject, d1)
    else if slotEmpty st then (.zeroLen, d1)
    else
      let d2 := memCopy 0x10400000 (st.take (streamLen st)) d1
      if streamStatus d.fuse st ≠ .ok then (streamStatus d.fuse st, d2)
      else
        let v := leAt st 5 1 * 256 + leAt st 4 1
        if v < Config.imageField (img.take 4096) 5 ∨ Config.imageField (img.take 4096) 6 < v then (.reject, d2) else (.ok, d2)

/-- The boot ROM's bytes (R33). -/
def romBytes : List Byte := (List.range 262144).map (fun i => if i < Config.romSize then Config.romByte i else 0#8)

/-- Firmware's load of the drift-bin table at boot: each SRAM slot gets the learned entry whose CRC matches, the newer of two by GEN
(DEDUCED, log entry 109), and the factory entry otherwise; then DET_BIN_BASE is written (R185). The table's address is firmware's: a free
value in working SRAM (log entry 110). -/
def binsLoad (d : Dev) : Dev :=
  let base := 0x10000000 + 32768 * (Config.binHome % 512)
  let at_ := fun (s i : Nat) => rindBytes d.hw.rind d.hw.free (s * 65536 + 64 * i) 64
  let d1 := (List.range 256).foldl (fun x i =>
    memCopy (base + 128 * i) ((entSelect (at_ 131 i ++ at_ 132 i)).getD (at_ 130 i)) x) d
  { d1 with hw := wr (wr d1.hw R.DET_BIN_BASE_LO (BitVec.ofNat 32 base)) R.DET_BIN_BASE_HI 0#32 }

/-- A code's rate and burst set: the bucket's content is clipped to the new burst (R482). -/
def rateSet (code rate burst : Nat) (h : Hw) : Hw :=
  let b := evBucket h code
  { h with ev := { h.ev with
      buckets := tabPut h.ev.buckets code { b with rate := rate, burst := burst, level := min b.level (burst * 25000000) } } }

/-- The registrants that a namespace's settings records name, in slot order (Table 14.9). -/
def registrantsOf (d : Dev) (nsid : Nat) : List Registrant :=
  (d.sj.cur.filter (fun q => decide (q.1 / 65536 = 0x21) && decide (q.1 % 65536 / 64 = nsid - 1))).map (fun q =>
    let f := leAt q.2.payload 24 1
    { hostId := leAt q.2.payload 0 16, key := leAt q.2.payload 16 8, holder := decide (f % 2 = 1), rtype := f / 2 % 16,
      ptpl := decide (f / 32 % 2 = 1) })

/-- Firmware loads, at its start, what the settings journal keeps and the state may have lost or changed unsaved since: event rates,
registrants, temperature thresholds and the power state (R60, R441, R474, R482; what it loads into registers from the layout stream comes as
register writes, log entry 44). -/
def settingsLoad (d : Dev) : Dev :=
  let h := (d.sj.cur.filter (fun q => decide (q.1 / 65536 = 0x31))).foldl (fun h q =>
    rateSet (q.1 % 65536) (leAt q.2.payload 0 2) (leAt q.2.payload 2 2) h) d.hw
  let feat := fun (fid : Nat) => (tabGet d.sj.cur (sjKey 0x20 fid)).map (fun v => v.payload.drop 4)
  let ps := match feat 2 with | some v => leAt v 0 1 | none => 0
  let th := feat 4
  { d with
    hw := md h R.FCH_PACE_EFF (fun w => putFld w 0 2 ps)
    therm := { d.therm with
      threshOver := match th with | some v => [(0, leAt v 0 2)] | none => []
      threshUnder := match th with | some v => [(0, leAt v 2 2)] | none => [] }
    ten := { d.ten with namespaces := d.ten.namespaces.map (fun q => (q.1, { q.2 with registrants := registrantsOf d q.1 })) } }

/-- Steps 5 and 6 of Table 14.7: measurements 1 to 3, the watchdog, IMAGE, LAYOUT and TRIAL, and core 0 released at ENTRY; what is saved is
loaded, and the
layout of the stream is in force (Table 12.6, R436, R438, R439). -/
def attemptPass (d : Dev) : Dev :=
  let img := imageBytes d d.boot.image
  let hd := img.take 4096
  let lay := layoutOf (slotBytes d d.boot.layout)
  let d0 := settingsLoad (binsLoad d)
  let trial := decide (d.boot.image ≠ d.boot.gov.image) || decide (d.boot.layout ≠ d.boot.gov.layout)
  let ctl := fun (w : Word) => putBit (putBit (putBit w 8 (decide (d.boot.image = 1))) 9 (decide (d.boot.layout = 1))) 10 trial
  let ms := [(1, Config.sha384 romBytes), (2, signedDigest img (Config.imageField hd 0)), (3, lay.digest)]
  { d0 with
    hw := md d0.hw R.RIND_BOOTCTL ctl
    sec := { d.sec with measures := ms }
    sj := { d.sj with writer := Config.imageField hd 2, held := [], keyHeld := [] }
    pwr := { d.pwr with cores := tabPut d.pwr.cores 0 (0x10000000 + Config.imageField hd 4) }
    med := { d.med with layout := lay }
    boot := { d.boot with romRunning := false, firstPending := false, bootState := 3, wdtRunning := true, releasedAt := d.hw.time,
                          trial := trial } }

/-- BOOT_ATTEMPT: one attempt at the image and layout due; it starts firmware, or the ROM backs off and turns to the other image with
the committed layout, dropping a pending pair whose first attempt failed (R435–R437, Tables 14.6, 14.7). -/
def bootAttempt (d : Dev) : Dev :=
  if !d.boot.romRunning || decide (d.boot.bootState = 2) then d
  else
    let r := attemptRun d
    let b := { d.boot with attempts := satAdd 16 d.boot.attempts 1 }
    let d1 := attemptEvent r.1 false { r.2 with boot := b }
    if r.1 = .ok then attemptPass d1
    else
      let d2 := if d1.boot.firstPending then bootAppend (dropPending d1.boot.gov) d1 else d1
      { d2 with boot := { d2.boot with
          lastStatus := r.1.code, firstPending := false, bootState := 2, waits := d2.boot.waits + 1,
          image := 1 - d.boot.image % 2, layout := d2.boot.gov.layout } }

/-- The present back-off wait in ms: doubling from 100 to 6,400, then 10 s (R437). -/
def backoffMs (waits : Nat) : Nat := if waits ≤ 7 then 100 * 2 ^ (waits - 1) else 10000

/-- BOOT_BACKOFF_EXPIRY: the wait has passed and the next attempt begins (R437). -/
def backoffEnd (d : Dev) : Dev :=
  if d.boot.romRunning && decide (d.boot.bootState = 2) then { d with boot := { d.boot with bootState := 1 } } else d

/-- BOOT_WATCHDOG_EXPIRY: 10 s have passed since core 0 was released; an internal reset starts, after a flush already running (R438,
Table 15.7). -/
def watchdogExpiry (d : Dev) : Dev :=
  if d.boot.wdtRunning then resetAsk { d with boot := { d.boot with wdtRunning := false, wdtFired := true } } else d

/-- RIND_BOOTWDT.STOP (R438, Table 14.19). -/
def watchdogStop (v : Word) (d : Dev) : Dev := if bit v 31 then { d with boot := { d.boot with wdtRunning := false } } else d

/-- RIND_BOOTWDT (Table 14.19): milliseconds left, from 10,000; STOP reads 1 once the watchdog was stopped after a release. -/
def bootWdt (d : Dev) : Word :=
  let ms := (d.hw.time.toNat - d.boot.releasedAt.toNat) / 25000
  if d.boot.wdtRunning then BitVec.ofNat 32 (1073741824 + (10000 - ms)) else 0#32

/-! Trial firmware (R439–R442). -/

/-- HN_BOOTSTAT (Table 2.5). -/
def bootStat (d : Dev) : Word :=
  let b := d.boot
  BitVec.ofNat 32 (b.bootState % 16 * 268435456 + (if b.bootState ≤ 3 then 134217728 else 0) + b.image % 2 * 67108864
    + (if b.rollback then 33554432 else 0) + b.lastStatus % 16 * 1048576 + b.attempts % 65536)

/-- What a host reads at an offset of a PF's BAR2: HN_BOOTSTAT at 0, and 0 at every other offset (R58). -/
def bar2Read (d : Dev) (off : Nat) : Word := if off = 0 then bootStat d else 0#32

/-- A host's write to BAR2 is ignored: HN_BOOTSTAT is read-only, and so is the rest (R58). -/
def bar2Write (_off : Nat) (_v : Word) (d : Dev) : Dev := d

/-- A write of RIND_BOOTCTL: FW_STATE, which HN_BOOTSTAT follows, ROLLBACK_REQ and RESET (R439, R442, Table 14.18). -/
def bootCtlWrite (v : Word) (d : Dev) : Dev :=
  let s := fld v 4 2
  let d1 := if s = 3 then d
    else
      let d0 := hwMod (fun h => md h R.RIND_BOOTCTL (fun w => putFld w 4 2 s)) d
      if 3 ≤ d.boot.bootState then { d0 with boot := { d0.boot with bootState := 3 + s } } else d0
  let d2 := hwMod (fun h => md h R.RIND_BOOTCTL (fun w => putBit w 0 (bit v 0))) d1
  if bit v 1 then resetAsk d2 else d2

/-- The conditions of R441: a trial whose settings are readable, recovery done with the comparisons of R428 and R429 passed, FW_UP, and 60 s
since the release of core 0. -/
def commitReady (d : Dev) : Bool :=
  d.boot.trial && (tabGet d.pwr.cores 0).isSome && d.med.recovered && fwUp d && frozenOk d (slotBytes d d.boot.layout)
    && decide (d.boot.releasedAt.toNat + 1500000000 ≤ d.hw.time.toNat) && !d.sj.unread && decide (topKennel d < d.med.layout.kmax)

/-- TRIAL_COMMIT: a COMMIT record names the running image and layout, the held records are written, and FW_STATE becomes 2 (R441). -/
def trialCommit (d : Dev) : Dev :=
  if !commitReady d then d
  else
    let r := { d.boot.gov with type := 4, image := d.boot.image, layout := d.boot.layout, pendImage := 0xFF, pendLayout := 0xFF, tries := 0,
                               layoutSeq := d.med.layout.seq }
    let d1 := bootAppend r d
    let d2 := { d1 with boot := { d1.boot with trial := false, bootState := 5 }, sj := { d1.sj with held := [] } }
    let d3 := keyFlushHeld (sjFlushHeld d.sj.held d2)
    let d4 := hwMod (fun h => md h R.RIND_BOOTCTL (fun w => putFld w 4 2 2)) d3
    hwMod (fun h => evFw h 0x009 0 d.sj.writer (d.med.layout.seq % 4294967296) 0) d4

end Sys2Proof.Machine
end

