-- ==== Sys2Proof/Machine/Admin.lean ====
section
/-!
DEFINITION. Admin commands, first part: event recorder control (R482, R484, R486), namespaces (R5, R6, R53, R85, R297, R390), features
(R60, R96, R109, R312, R474), Virtualization Management (R54), Abort (R124), asynchronous events, and reservations (R59).
-/

namespace Sys2Proof.Machine

/-- A controller that can execute an admin command: present, enabled and ready, with firmware behind it and its link up (R55, R78). -/
def adminUp (c : Src) (d : Dev) : Bool :=
  ctrlPresent d c.port c.fn && (ctrlGet d c.port c.fn).en && (ctrlGet d c.port c.fn).rdy && fwUp d && linkUp (portGet d c.port).link

/-- An admin command executes at its controller. -/
def adminGate (c : Src) (f : Dev → Dev) (d : Dev) : Dev := if adminUp c d then f d else d

/-- A vendor admin command: a VF gets Invalid Command Opcode (R51). -/
def vendorGate (c : Src) (f : Dev → Dev) (d : Dev) : Dev :=
  adminGate c (fun x => if c.fn = 0 then f x else adminDone c .invalidOpcode 0 [] x) d

/-- A command that trial firmware refuses (R440). -/
def trialGate (c : Src) (f : Dev → Dev) (d : Dev) : Dev := if d.boot.trial then adminDone c .interrupted 0 [] d else f d

/-- A command that needs random data runs while the DRBG generates, and waits otherwise (R380). -/
def rndGate (h : RndHeld) (f : Dev → Dev) (d : Dev) : Dev :=
  if drbgReady d.sec then f d else { d with host := { d.host with rndHeld := d.host.rndHeld ++ [h] } }

/-- A byte string as completion data. -/
def asData (bs : List Byte) : List Nat := bs.map (fun b => b.toNat)

/-! Event recorder control. -/

/-- A clear: the region is erased in order, FULL clears, REGION_CLEARED is the new region's first record and unflushed records follow it
(R486). -/
def evClear (h : Hw) : Hw :=
  let n := h.ev.valid
  let r := [144, 145, 146, 147].foldl (fun (x : Rind) s => if rindLocked x s then x else rindErase x s) h.rind
  let e : EvRecd := { time := h.time, boot := h.bootCount, code := 0, sev := 1, cont := false, source := 0x106, supp := 0,
                      a0 := BitVec.ofNat 32 n, a1 := 0#32, a2 := 0#32 }
  let old := h.ev.buf
  let h1 := evStore { h with rind := r, ev := { h.ev with full := false, valid := 0, buf := [] } } e
  irq { h1 with ev := { h1.ev with buf := h1.ev.buf ++ old } } irqEvrec 1


/-- EVREC_CTRL_FLUSH (action 0x01): complete once the buffered records are flushed (R484). -/
def evCtrlFlush (c : Src) (d : Dev) : Dev := vendorGate c (fun x => adminDone c .success 0 [] (hwMod evFlush x)) d

/-- EVREC_CTRL_CLEAR (action 0x02, R486). -/
def evCtrlClear (c : Src) (d : Dev) : Dev := vendorGate c (fun x => adminDone c .success 0 [] (hwMod evClear x)) d

/-- EVREC_SET_RATE_LIMIT (action 0x03): kept as a RATE_LIMIT record (R482, Table 14.9). -/
def evCtrlSet (c : Src) (code rate burst : Nat) (d : Dev) : Dev :=
  vendorGate c (trialGate c (fun x =>
    if 511 < code then adminDone c .invalidField 0 [] x
    else
      let r := rate % 65536
      let b := burst % 65536
      adminDone c .success 0 [] (sjPut 0x31 code (leBytes 2 r ++ leBytes 2 b) (hwMod (rateSet code r b) x)))) d

/-- EVREC_READ_RATE_LIMIT (action 0x04): DW0 holds rate and burst in CDW12's layout (R69). -/
def evCtrlRead (c : Src) (code : Nat) (d : Dev) : Dev :=
  vendorGate c (fun x =>
    if 511 < code then adminDone c .invalidField 0 [] x
    else
      let b := tabGetD x.hw.ev.buckets code Bucket.init
      adminDone c .success (b.burst * 65536 + b.rate) [] x) d

/-! Namespaces. -/

/-- Zone slots of a Pack and those that existing zoned namespaces take of it (R81, R85). -/
def packSlots (d : Dev) (p : Nat) : Nat := (packDies d p).length * ((prof d).nblk - (prof d).nres)

/-- Zone slots that a namespace takes of each Pack: its zones there by their width, the wide stripe's in equal parts. A conventional
namespace takes what its blocks need, over the Packs in equal parts (DESIGN CHOICE, log entry 31). -/
def nsSlots (d : Dev) (n : Ns) : Nat :=
  let packs := max 1 (packCount d.fuse)
  if n.zoned then
    (if n.width = 48 then zoneCount n * 48 / packs else zoneCount n / packs * n.width)
  else (n.nsze * n.width / ((n.width - 1) * memberUnits (prof d)) + packs) / packs

/-- Every Pack's slots hold the existing namespaces and this one. -/
def slotsFit (d : Dev) (n : Ns) : Bool :=
  (List.range (packCount d.fuse)).all (fun p =>
    decide ((d.ten.namespaces.map (fun q => nsSlots d q.2)).sum + nsSlots d n ≤ packSlots d p))

/-- Lane pairs of the journal area: ⌈(S × 4,096 × 4/3 + 1 GiB) / 24 MiB⌉, or 64 for a zoned-only volume (R297). -/
def journalArea (d : Dev) : Nat :=
  let s := (d.ten.namespaces.map (fun q => if q.2.zoned then 0 else (q.2.nsze + 511) / 512)).sum
  if s = 0 then 64 else (s * 4096 * 4 + 3 * 1073741824 + 3 * 25165824 - 1) / (3 * 25165824)

/-- The journal area is reserved: two reserve blocks of each lane pair, committed over the Packs in equal parts (R297, R329). -/
def areaReserve (d : Dev) : Dev :=
  let a := journalArea d
  let each := 2 * a / max 1 (packCount d.fuse)
  { d with med := { d.med with jr := { d.med.jr with area := a },
                               committed := (List.range (packCount d.fuse)).map (fun p => (p, each)) } }

/-- The factory drift-bin table written to the calibration area at format (R185). -/
def factoryWrite (d : Dev) : Dev :=
  if rindLocked d.hw.rind 130 then d
  else { d with hw := { d.hw with
    rind := rindProg (rindErase d.hw.rind 130) d.hw.free (130 * 65536) (d.med.layout.bins.take 16384) } }

/-- A new volume: UUID, creation time and generation 1, with the factory drift-bin table in sections 1–4 (R260–R262). What lasts until
format ends: read-only, critical warning bit 2, the P/E flag (R330, R333, Table 10.5). Its UUID is random: a free value. -/
def volCreate (d : Dev) : Dev :=
  let d1 := wearWrite (countsFormat (factoryWrite d))
  let p := prof d
  let v := (List.range 4).foldl (fun (t : List (Nat × List Byte)) i =>
    tabPut t (1 + i) ((d.med.layout.bins.drop (4096 * i)).take 4096)) []
  { d1 with hw := spend d1.hw
            aff := { d1.aff with critReliability := false, ew := d1.aff.ew &&& 0xE#4 }
            ten := { d1.ten with namespaces := d1.ten.namespaces.map (fun q => (q.1, { q.2 with readOnly := false })) }
            med := { d1.med with floored := [], formatted := true, volGen := 0, volCreated := d.aff.mtime, volUnknown := false, volume := v,
                                 volRead := (p.tStr, p.tRCls, p.tSf), volUuid := BitVec.ofNat 128 (Config.freeNat d.hw.free) } }


/-- Place of a namespace's wrapped key in the key area (DESIGN CHOICE, log entry 32). -/
def wrappedAt (nsid : Nat) : Nat := (nsid - 1) * 128

/-- A slot's key wrapped under the storage KEK (Table 12.2). -/
def wrappedKey (d : Dev) (n : Nat) : List Byte :=
  Config.wrap false (kekStorage d.fuse) (keyBytes (slotGet d.sec n) ++ keyHeader n (slotGet d.sec n))

/-- KEY_CHECK of a slot: the first bytes of the AES-256 encryption of the all-zero block under the first XTS half (R368). -/
def keyCheckOf (x : Slot) : Nat := (Config.aes256 (x.key.setWidth 256) 0#128).toNat % 18446744073709551616

/-- A fresh namespace key in a slot, wrapped into the key area; none where the slot has no further generation (R390, R391). -/
def nsKeyMake (nsid slot kennel : Nat) (n : Ns) (d : Dev) : Option (Ns × Dev) :=
  let g := kvGenerate slot 1 1 kennel d
  if g.1.st ≠ .ok then none
  else
    let x := slotGet g.2.sec slot
    some ({ n with slot := slot, keyGen := x.gen, keyCheck := keyCheckOf x, keyFailed := false },
      keyAreaPut (wrappedAt nsid) (wrappedKey g.2 slot) g.2)

/-- The lowest EMPTY key slot that can take another generation. -/
def freeSlot (d : Dev) : Option Nat :=
  (List.range 8192).find? (fun i => decide ((slotGet d.sec i).type = 0) && decide ((slotGet d.sec i).gen < genMax))

/-- Lowest free NSID, 1–1,024. -/
def freeNsid (d : Dev) : Option Nat := (List.range 1024).map (fun i => i + 1) |>.find? (fun i => (nsGet d i).isNone)

/-- The NS_BIND record of a namespace's Kennels (Table 14.9). -/
def nsBindRecord (nsid : Nat) (d : Dev) : Dev :=
  let ks := (d.ten.nsBind.filter (fun q => decide (q.1 = nsid))).map (fun q => q.2)
  sjPut 0x8012 nsid ((List.range 16).map (fun i => BitVec.ofNat 8 (ks.getD i 0xFF))) d

/-- The zones of a new zoned namespace are bound to superblocks in zone order (R83). -/
def zonesCreate (nsid : Nat) (n : Ns) (d : Dev) : Dev :=
  (List.range (zoneCount n)).foldl (fun x z => zoneBind (zkey nsid z) x) d

/-- Field checks of a create (R5, R6, R85, R97). -/
def createFields (d : Dev) (zoned : Bool) (nsze width : Nat) (kpio : Bool) (handles : Nat) : Bool :=
  let zs := zoneSize (prof d) width
  [4, 8, 16, 48].contains width && (decide (width ≠ 48) || decide (3 ≤ packCount d.fuse)) && decide (nsze ≠ 0)
    && !(kpio && !hasCrypto d.fuse) && (zoned || hasMapu d.fuse) && decide (handles ≤ 32) && (decide (handles ≤ 1) || d.host.fdp)
    && (!zoned || (decide (zs ≠ 0) && decide (nsze % (zs * (if width = 48 then 1 else packCount d.fuse)) = 0)))

/-- The namespace record of a create, before its key. -/
def nsNew (d : Dev) (c : Src) (zoned : Bool) (nsze width cipher handles : Nat) : Ns :=
  { zoned := zoned, nsze := nsze, width := width, cipher := cipher, slot := 0, keyGen := 0, keyCheck := 0, keyFailed := false,
    homePort := c.port, secureMode := false, handles := max 1 handles, attached := [], readOnly := false,
    base := d.ten.namespaces.foldl (fun m q => if q.2.zoned then m else max m (q.2.base + (q.2.nsze + 511) / 512)) 0,
    zsze := if zoned then zoneSize (prof d) width else 0, created := d.aff.mtime, registrants := [] }

/-- The create's last part: the namespace exists, bound to the creating function's Kennel, with its zones or segments, its journal area
and a new volume generation (R85, R261, R275, R297). -/
def nsInstall (c : Src) (nsid k : Nat) (n : Ns) (d : Dev) : Dev :=
  let d0 := if d.med.formatted then d else volCreate d
  let d1 := { d0 with ten := { d0.ten with namespaces := tabPut d0.ten.namespaces nsid n, nsBind := d0.ten.nsBind ++ [(nsid, k)] } }
  let d2 := areaReserve (nsBindRecord nsid (jput (jrNs nsid n.base n.nsze false) d1))
  let d3 := if n.zoned then zonesCreate nsid n d2
    else mapuMod (fun u => { u with segBase := tabPut u.segBase nsid n.base }) d2
  adminDone c .success nsid [] (volWrite d3)

/-- NAMESPACE_CREATE (R5, R6, R64, R85, R264, R297, R390): `width` 0 asks for the layout's stripe width. -/
def nsCreate (c : Src) (zoned : Bool) (nsze width : Nat) (kpio : Bool) (handles : Nat) (d : Dev) : Dev :=
  adminGate c (trialGate c (fun x =>
    let w := if width = 0 then x.med.layout.width else width
    let k := fnKennel x c.port c.fn
    let cipher := if !hasCrypto x.fuse || x.med.layout.plain.contains k then 0 else if kpio then 2 else 1
    let n := nsNew x c zoned nsze w cipher handles
    if x.med.volUnknown then adminDone c .layoutFrozen 0 [] x
    else if !createFields x zoned nsze w kpio handles then adminDone c .invalidField 0 [] x
    else match freeNsid x with
      | none => adminDone c .nsidUnavailable 0 [] x
      | some nsid =>
        if !slotsFit x n then adminDone c .insufficientCapacity 0 [] x
        else if cipher = 0 then nsInstall c nsid k n x
        else match freeSlot x with
          | none => adminDone c .resourceExhausted 0 [] x
          | some s => rndGate (.create c zoned nsze width kpio handles) (fun y => match nsKeyMake nsid s k n y with
            | none => adminDone c .keyExhausted 0 [] y
            | some (n1, y1) => nsInstall c nsid k n1 y1) x)) d

/-- One namespace removed: its zones' superblocks and parked copies are erased, its map entries go, its key slot is cleared and its
wrapped copy erased, and its records leave the journals (R390). -/
def nsRemove (nsid : Nat) (n : Ns) (d : Dev) : Dev :=
  let sbs := (nsZones d nsid).map (fun q => zoneSb q.2) ++ (nsZones d nsid).map (fun q => q.2.sb)
  let lost := d.med.staged.filter (fun q => decide (q.2.nsid = nsid))
  let loose := d.med.loose.filter (fun u => decide (u.copy.nsid = nsid))
  let dirty := (lost.filter (fun q => !q.2.pad && !q.2.refresh && !q.2.parked)).length + loose.length
  let d1 := dirtySub dirty { d with med := { d.med with
    staged := d.med.staged.filter (fun q => decide (q.2.nsid ≠ nsid)), loose := d.med.loose.filter (fun u => decide (u.copy.nsid ≠ nsid)) } }
  let d2 := parkDrop nsid 0 (max n.nsze 1) (jput (jrNs nsid n.base n.nsze true) d1)
  let d3 := mapuMod (fun u => { u with map := u.map.filter (fun q => decide (q.1 / 17592186044416 ≠ nsid)),
                                       segBase := tabDel u.segBase nsid }) d2
  let d4 := ((sbs.filter (fun s => decide (s ≠ 0))).eraseDups).foldl (fun x s => doom s (unqueueSb s x)) d3
  let d5 := { d4 with
    med := { d4.med with moves := d4.med.moves.filter (fun m => match m.zone with
                           | some zk => decide (zk / 1048576 ≠ nsid) | none => true),
                         secure := d4.med.secure.filter (fun o => decide (o.nsid ≠ nsid)) }
    ten := { d4.ten with namespaces := tabDel d4.ten.namespaces nsid, zones := d4.ten.zones.filter (fun q => decide (q.1 / 1048576 ≠ nsid)),
                         nsBind := d4.ten.nsBind.filter (fun q => decide (q.1 ≠ nsid)) } }
  let d6 := if n.cipher = 0 then d5
    else keyAreaPut (wrappedAt nsid) (List.replicate 128 0xFF#8)
      { d5 with sec := slotPut d5.sec n.slot (slotClear (slotGet d5.sec n.slot)) }
  let d7 := n.registrants.zipIdx.foldl (fun x q => sjDelete 0x21 ((nsid - 1) * 64 + q.2) x) (sjDelete 0x8012 nsid d6)
  parkSweep (doomCheck d7)

/-- NAMESPACE_DELETE: one namespace, or all (R390). -/
def nsDelete (c : Src) (nsid : Nat) (d : Dev) : Dev :=
  adminGate c (trialGate c (fun x =>
    if nsid = 0xFFFFFFFF then
      adminDone c .success 0 [] (volWrite (areaReserve (x.ten.namespaces.foldl (fun y q => nsRemove q.1 q.2 y) x)))
    else match nsGet x nsid with
      | none => adminDone c .invalidNamespace 0 [] x
      | some n => adminDone c .success 0 [] (volWrite (areaReserve (nsRemove nsid n x))))) d

/-- A controller's number as port × 64 + function, from its NVMe identifier (Table 2.3). -/
def ctrlOfId (id : Nat) : Nat × Nat := if 0x41 ≤ id then (1, id - 0x41) else (0, id - 1)

/-- NAMESPACE_ATTACH: attach to, or detach from, the controllers listed by identifier; a controller whose Kennel is not bound to the
namespace gives Kennel Mismatch (R53). -/
def nsAttach (c : Src) (nsid : Nat) (attach : Bool) (ids : List Nat) (d : Dev) : Dev :=
  adminGate c (trialGate c (fun x =>
    match nsGet x nsid with
    | none => adminDone c .invalidNamespace 0 [] x
    | some n =>
      let cs := ids.map ctrlOfId
      let keys := cs.map (fun q => q.1 * 64 + q.2)
      if ids.isEmpty || ids.any (fun i => decide (i = 0)) || cs.any (fun q => !ctrlPresent x q.1 q.2) then adminDone c .invalidField 0 [] x
      else if attach && cs.any (fun q => !x.ten.nsBind.contains (nsid, fnKennel x q.1 q.2)) then adminDone c .kennelMismatch 0 [] x
      else if attach && keys.any (fun k => n.attached.contains k) then adminDone c .nsAttached 0 [] x
      else if !attach && keys.any (fun k => !n.attached.contains k) then adminDone c .nsNotAttached 0 [] x
      else
        let a := if attach then n.attached ++ keys else n.attached.filter (fun k => !keys.contains k)
        adminDone c .success 0 [] { x with ten := { x.ten with namespaces := tabPut x.ten.namespaces nsid { n with attached := a } } })) d

/-! Features. -/

/-- A saved feature's record (Table 14.9). -/
def featureSave (save : Bool) (fid nsid : Nat) (v : List Byte) (d : Dev) : Dev :=
  if save then sjPut 0x20 fid (leBytes 4 nsid ++ v) d else d

/-- Set Features with Save is interrupted in a trial (R440). -/
def saveGate (c : Src) (save : Bool) (f : Dev → Dev) (d : Dev) : Dev :=
  if save && d.boot.trial then adminDone c .interrupted 0 [] d else f d

/-- SET_FEATURES_TIMESTAMP (R312). -/
def setTimestamp (c : Src) (save : Bool) (ms : Nat) (d : Dev) : Dev :=
  adminGate c (saveGate c save (fun x => adminDone c .success 0 [] (timestampSet ms x))) d

/-- GET_FEATURES_TIMESTAMP: milliseconds and origin (R312). -/
def getTimestamp (c : Src) (d : Dev) : Dev :=
  adminGate c (fun x => let t := timestampGet x; adminDone c .success 0 [t.1, t.2] x) d

/-- SET_FEATURES_ZONE_RESET_MODE: vendor feature 0xC0, persistent, on zoned namespaces only (R109). -/
def setZoneReset (c : Src) (nsid : Nat) (save secure : Bool) (d : Dev) : Dev :=
  adminGate c (saveGate c save (fun x =>
    match nsGet x nsid with
    | none => adminDone c .invalidNamespace 0 [] x
    | some n =>
      if !n.zoned then adminDone c .invalidField 0 [] x
      else
        let x1 := { x with ten := { x.ten with namespaces := tabPut x.ten.namespaces nsid { n with secureMode := secure } } }
        adminDone c .success 0 [] (sjPut 0x20 0xC0 (leBytes 4 nsid ++ leBytes 4 (if secure then 1 else 0)) x1))) d

/-- SET_FEATURES_FDP: before any namespace exists; else Command Sequence Error (R96). -/
def setFdp (c : Src) (on save : Bool) (d : Dev) : Dev :=
  adminGate c (saveGate c save (fun x =>
    if !x.ten.namespaces.isEmpty then adminDone c .commandSequence 0 [] x
    else adminDone c .success 0 [] (featureSave save 0x1D 0 [if on then 1#8 else 0#8] { x with host := { x.host with fdp := on } }))) d

/-- SET_FEATURES_POWER_STATE: PS0 to PS2; the pacer's effective limit follows (R60, Table 2.6). -/
def setPower (c : Src) (ps : Nat) (save : Bool) (d : Dev) : Dev :=
  adminGate c (saveGate c save (fun x =>
    if 2 < ps then adminDone c .invalidField 0 [] x
    else
      let x1 := ctrlPut x c.port c.fn { ctrlGet x c.port c.fn with ps := ps }
      adminDone c .success 0 [] (featureSave save 2 0 [BitVec.ofNat 8 ps] (hwMod (fun h => md h R.FCH_PACE_EFF (fun w => putFld w 0 2 ps)) x1)))) d

/-- SET_FEATURES_TEMPERATURE_THRESHOLD: the over- or under-temperature threshold of a sensor in kelvin, 0 the composite (R474). -/
def setTempThreshold (c : Src) (under : Bool) (sensor k : Nat) (save : Bool) (d : Dev) : Dev :=
  adminGate c (saveGate c save (fun x =>
    if sensor ≠ 0 then adminDone c .invalidField 0 [] x
    else
      let x1 := therm (fun t => if under then { t with threshUnder := tabPut t.threshUnder 0 (k % 65536) }
        else { t with threshOver := tabPut t.threshOver 0 (k % 65536) }) x
      let v := leBytes 2 (tabGetD x1.therm.threshOver 0 (overDefault x1)) ++ leBytes 2 (tabGetD x1.therm.threshUnder 0 0)
      adminDone c .success 0 [] (thresholdCheck (featureSave save 4 0 v x1)))) d

/-- HMB_MAP_REBUILD_DONE on a port (R301). -/
def hmbDone (p : Nat) (d : Dev) : Dev := if portPresent d p then hmbRebuilt p d else d

/-- Flexible resources of a port's pool: queue pairs, and vectors in the same number (R54). -/
def flexPool (d : Dev) : Nat := if dual d then 1984 else 4032

/-- VIRTUALIZATION_MANAGEMENT: at most 64 queue pairs and 65 vectors for a VF, within the port's pool; resources change while the VF is
offline, and it comes online only with queues and vectors (R54; the sequence is the NVMe specifications'). -/
def virtManage (c : Src) (vf : Nat) (a : VirtAct) (d : Dev) : Dev :=
  adminGate c (fun x =>
    let v := ctrlGet x c.port vf
    let used := fun (g : Ctrl → Nat) => ((x.host.ctrls.filter (fun q => decide (q.1 / 64 = c.port) && decide (q.1 % 64 ≠ 0)
      && decide (q.1 % 64 ≠ vf))).map (fun q => g q.2)).sum
    let ok := fun (n : Nat) (w : Ctrl) (y : Dev) => adminDone c .success n [] (hostIrq c.port 14 (ctrlPut y c.port vf w))
    if c.fn ≠ 0 ∨ vf = 0 ∨ 63 < vf then adminDone c .invalidField 0 [] x
    else match a with
      | .assignQueues n =>
        if v.online || decide (64 < n) || decide (flexPool x < used (fun q => q.vq) + n) then adminDone c .invalidField 0 [] x
        else ok n { v with vq := n } x
      | .assignVectors n =>
        if v.online || decide (65 < n) then adminDone c .invalidField 0 [] x else ok n { v with vi := n } x
      | .offline =>
        let y := ctrlReset c.port vf x
        ok 0 { ctrlGet y c.port vf with online := false } y
      | .online =>
        if v.vq = 0 ∨ v.vi = 0 then adminDone c .invalidField 0 [] x else ok 0 { v with online := true } x) d

/-! Abort and asynchronous events. -/

/-- NVME_ABORT: a command not admitted, or admitted and not dispatched, is removed and completes with Command Abort Requested; a
dispatched one runs on and DW0 bit 0 says "not aborted" (R61, R124). A Read that the HERDER held or had admitted is counted (R140). -/
def nvmeAbort (c : Src) (sq cid : Nat) (d : Dev) : Dev :=
  adminGate c (fun x =>
    let qk := queueKey c.port c.fn sq
    let mine : Nat × QCmd → Bool := fun q => decide (q.1 = qk) && decide (q.2.cmd.cid = cid)
    let gone := fun (y : Dev) => adminDone c .success 0 [] (cqPost c.port c.fn sq cid .abortRequested 0 0 [] y)
    match (tabGetD x.host.queues qk []).find? (fun q => decide (q.cmd.cid = cid)) with
    | some q =>
      let y := if q.cmd.op = .read then readStats (opNew x qk (fnKennel x c.port c.fn) q) 0 false x else x
      gone { y with host := { y.host with
        queues := tabMod y.host.queues qk [] (fun l => l.filter (fun q => decide (q.cmd.cid ≠ cid))) } }
    | none =>
      if x.host.unfetched.any mine then gone { x with host := { x.host with unfetched := x.host.unfetched.filter (fun q => !mine q) } }
      else match x.host.ops.find? (fun q => decide (q.2.port = c.port) && decide (q.2.fn = c.fn) && decide (q.2.sq = sq)
          && decide (q.2.cmd.cid = cid)) with
        | some q =>
          if q.2.dispatched then adminDone c .success 1 [] x
          else gone (opDiscard q.1 (if q.2.cmd.op = .read then readStats q.2 0 false x else x))
        | none => adminDone c .success 1 [] x) d

/-- ASYNCHRONOUS_EVENT_REQUEST: up to 16 outstanding; an event that waits completes it at once (R59, Table 2.6). -/
def aer (c : Src) (d : Dev) : Dev :=
  adminGate c (fun x =>
    let k := ctrlGet x c.port c.fn
    match k.events with
    | e :: rest => adminDone c .success e [] (ctrlPut x c.port c.fn { k with events := rest })
    | [] => if 16 ≤ k.aers.length then adminDone c .aerLimit 0 [] x
      else ctrlPut x c.port c.fn { k with aers := k.aers ++ [c.cid] }) d

/-! Reservations, on admitted commands (R59, R121, Table 14.9; actions and types as the NVMe specifications give them). -/

/-- A namespace's registrants replaced, each registrant in its own settings record. -/
def resvPut (nsid : Nat) (n : Ns) (rs : List Registrant) (d : Dev) : Dev :=
  let d1 := { d with ten := { d.ten with namespaces := tabPut d.ten.namespaces nsid { n with registrants := rs } } }
  let pay := fun (r : Registrant) => leBytes 16 r.hostId ++ leBytes 8 r.key
    ++ leBytes 1 ((if r.holder then 1 else 0) + 2 * r.rtype + (if r.ptpl then 32 else 0))
  (List.range (max n.registrants.length rs.length)).foldl (fun x i =>
    match rs[i]? with
    | some r => sjPut 0x21 ((nsid - 1) * 64 + i) (pay r) x
    | none => sjDelete 0x21 ((nsid - 1) * 64 + i) x) d1

/-- A reservation command completes on its I/O queue. -/
def resvDone (tag : Nat) (st : NvStat) (data : List Nat) (d : Dev) : Dev := opEnd tag st 0 0 data d

/-- The admitted reservation command that a row names, with its tag (R59, R121). -/
def resvFind (c : Src) (sq nsid : Nat) (a : ResvAct) (d : Dev) : Option (Nat × Op) :=
  d.host.ops.find? (fun q => decide (q.2.port = c.port ∧ q.2.fn = c.fn ∧ q.2.sq = sq ∧ q.2.cmd.cid = c.cid ∧ q.2.cmd.nsid = nsid
    ∧ q.2.cmd.op = .resv a))

/-- Running an admitted reservation command on its namespace: firmware executes it (R59, R121). -/
def resvRun (c : Src) (sq nsid : Nat) (a : ResvAct) (f : Nat → Op → Ns → Dev → Dev) (d : Dev) : Dev :=
  match resvFind c sq nsid a d with
  | none => d
  | some (tag, o) => match nsGet d nsid with
    | some n => f tag o n d
    | none => resvDone tag .invalidNamespace [] d

/-- The registration of a host. -/
def resvMine (n : Ns) (host : Nat) : Option Registrant := n.registrants.find? (fun r => decide (r.hostId = host))

/-- Removing registrants; a reservation held by one of them ends, but an all-registrants one passes to a registrant that stays. -/
def resvDrop (gone : Registrant → Bool) (rs : List Registrant) : List Registrant :=
  let left := rs.filter (fun r => !gone r)
  match rs.find? (fun r => r.holder && gone r), left with
  | some h, r :: rest => if h.rtype = 5 ∨ h.rtype = 6 then { r with holder := true, rtype := h.rtype } :: rest else left
  | _, _ => left

/-- RESERVATION_REGISTER: 0 register, 1 unregister, 2 replace; up to 64 registrants; the host identifier becomes the controller's. -/
def resvRegister (c : Src) (sq nsid host action : Nat) (ignoreKey : Bool) (crkey nrkey : Nat) (ptpl : Bool) (d : Dev) : Dev :=
  resvRun c sq nsid (.register host action ignoreKey crkey nrkey ptpl) (fun tag o n x =>
    let x1 := ctrlPut x o.port o.fn { ctrlGet x o.port o.fn with hostId := host }
    let done := fun (rs : List Registrant) => resvDone tag .success [] (resvPut nsid n rs x1)
    let conflict := resvDone tag .reservationConflict [] x
    let new : Registrant := { hostId := host, key := nrkey, holder := false, rtype := 0, ptpl := ptpl }
    match action, resvMine n host with
    | 0, some r => if r.key = nrkey then resvDone tag .success [] x1 else conflict
    | 0, none => if 64 ≤ n.registrants.length then resvDone tag .invalidField [] x else done (n.registrants ++ [new])
    | 1, some r =>
      if ignoreKey || decide (r.key = crkey) then done (resvDrop (fun q => decide (q.hostId = host)) n.registrants) else conflict
    | 2, some r =>
      if ignoreKey || decide (r.key = crkey) then
        done (n.registrants.map (fun q => if q.hostId = host then { q with key := nrkey, ptpl := ptpl } else q))
      else conflict
    | 2, none => if ignoreKey && decide (n.registrants.length < 64) then done (n.registrants ++ [new]) else conflict
    | 1, none => conflict
    | _, _ => resvDone tag .invalidField [] x) d

/-- The registrants with one host made the holder of a type. -/
def resvHold (host rtype : Nat) (rs : List Registrant) : List Registrant :=
  rs.map (fun q => if q.hostId = host then { q with holder := true, rtype := rtype } else { q with holder := false, rtype := 0 })

/-- RESERVATION_ACQUIRE: 0 acquire, 1 pre-empt, 2 pre-empt and abort; types 1–6. -/
def resvAcquire (c : Src) (sq nsid action rtype crkey prkey : Nat) (d : Dev) : Dev :=
  resvRun c sq nsid (.acquire action rtype crkey prkey) (fun tag o n x =>
    let host := (ctrlGet x o.port o.fn).hostId
    let holder := n.registrants.find? (fun r => r.holder)
    let conflict := resvDone tag .reservationConflict [] x
    match resvMine n host with
    | none => conflict
    | some me =>
      if me.key ≠ crkey then conflict
      else if rtype < 1 ∨ 6 < rtype ∨ 2 < action then resvDone tag .invalidField [] x
      else if action = 0 then
        match holder with
        | none => resvDone tag .success [] (resvPut nsid n (resvHold host rtype n.registrants) x)
        | some h => if h.hostId = host ∧ h.rtype = rtype then resvDone tag .success [] x else conflict
      else
        let allReg := match holder with | some h => decide (h.rtype = 5) || decide (h.rtype = 6) | none => false
        let hit := match holder with | some h => decide (h.key = prkey) || (allReg && decide (prkey = 0)) | none => false
        let out : Registrant → Bool := fun q => decide (q.hostId ≠ host) && (decide (q.key = prkey) || (allReg && decide (prkey = 0)))
        let kept := n.registrants.filter (fun q => !out q)
        if hit then resvDone tag .success [] (resvPut nsid n (resvHold host rtype kept) x)
        else if n.registrants.any out then resvDone tag .success [] (resvPut nsid n kept x)
        else conflict) d

/-- RESERVATION_RELEASE: 0 release, 1 clear. -/
def resvRelease (c : Src) (sq nsid action rtype crkey : Nat) (d : Dev) : Dev :=
  resvRun c sq nsid (.release action rtype crkey) (fun tag o n x =>
    match resvMine n (ctrlGet x o.port o.fn).hostId with
    | none => resvDone tag .reservationConflict [] x
    | some me =>
      let put := fun (rs : List Registrant) => resvDone tag .success [] (resvPut nsid n rs x)
      if me.key ≠ crkey then resvDone tag .reservationConflict [] x
      else if action = 1 then put []
      else if action ≠ 0 then resvDone tag .invalidField [] x
      else if !me.holder then resvDone tag .success [] x
      else if me.rtype ≠ rtype then resvDone tag .invalidField [] x
      else put (n.registrants.map (fun q => { q with holder := false, rtype := 0 }))) d

/-- RESERVATION_REPORT: the reservation type, then host identifier, key and holder of each registrant. -/
def resvReport (c : Src) (sq nsid : Nat) (d : Dev) : Dev :=
  resvRun c sq nsid .report (fun tag _ n x =>
    let t := match n.registrants.find? (fun r => r.holder) with | some h => h.rtype | none => 0
    resvDone tag .success (t :: n.registrants.flatMap (fun r => [r.hostId, r.key, if r.holder then 1 else 0])) x) d

end Sys2Proof.Machine
end

