-- ==== Sys2Proof/Machine/Admin2.lean ====
section
/-!
DEFINITION. Admin commands, second part: firmware images (R433), Format and Sanitize (R264, R391), Key Per I/O (R388), Layout Update
(R70, R428–R430), Kennel Configure (R115–R118, R389), Unit Service (R72, R77), Debug Unlock (R73) and namespace key restoration (R368).
-/

namespace Sys2Proof.Machine

/-! Firmware images. -/

/-- Bytes transferred at an offset of a store of listed bytes. -/
def cellsPut (off : Nat) (bs : List Byte) (t : List Host.Cell) : List Host.Cell :=
  (bs.zipIdx).foldl (fun x q => tabPut x (off + q.2) q.1) t

/-- The first `n` bytes of a store of listed bytes; unlisted bytes are 0. -/
def cellsTake (n : Nat) (t : List Host.Cell) : List Byte := (List.range n).map (fun i => tabGetD t i 0#8)

/-- FIRMWARE_IMAGE_DOWNLOAD: whole 4 KiB units within an image slot (Table 2.6, R432). -/
def fwDownload (c : Src) (off : Nat) (bs : List Byte) (d : Dev) : Dev :=
  adminGate c (fun x =>
    if off % 4096 ≠ 0 ∨ bs.length % 4096 ≠ 0 ∨ bs.isEmpty = true ∨ 3145728 < off + bs.length then adminDone c .invalidField 0 [] x
    else adminDone c .success 0 [] { x with host := { x.host with download := cellsPut off bs x.host.download } }) d

/-- Whether an image's bytes pass the header check and the signature. -/
def imageOk (d : Dev) (bs : List Byte) : Bool :=
  decide (imageForm d.fuse bs = .ok) && trailerOk d.fuse 1 bs (Config.imageField (bs.take 4096) 0)

/-- A slot's sectors erased and written: `n` sectors from `base`. -/
def slotWrite (base n : Nat) (bs : List Byte) (d : Dev) : Dev :=
  let r := (List.range n).foldl (fun (x : Rind) i => if rindLocked x (base / 65536 + i) then x else rindErase x (base / 65536 + i)) d.hw.rind
  if (List.range n).any (fun i => rindLocked d.hw.rind (base / 65536 + i)) then { d with hw := { d.hw with rind := r } }
  else { d with hw := { d.hw with rind := rindProg r d.hw.free base bs } }

/-- FIRMWARE_COMMIT: actions 000b to 010b on slot 1 or 2; the committed image's slot is never written; 001b and 010b name the pending
image in a boot record (R433). Slot 0 leaves the choice to the controller: the slot that is not committed. -/
def fwCommit (c : Src) (slot action : Nat) (d : Dev) : Dev :=
  adminGate c (trialGate c (fun x =>
    let s := if slot = 0 then 1 - x.boot.gov.image % 2 else slot - 1
    if 2 < action then adminDone c .invalidField 0 [] x
    else if 1 < s then adminDone c .invalidFirmwareSlot 0 [] x
    else if action ≤ 1 ∧ s = x.boot.gov.image then adminDone c .invalidFirmwareSlot 0 [] x
    else
      let len := x.host.download.foldl (fun m q => max m (q.1 + 1)) 0
      let img := if action = 2 then imageBytes x s else cellsTake len x.host.download
      if !imageOk x img then adminDone c .invalidFirmwareImage 0 [] x
      else
        let x1 := if action = 2 then x
          else slotWrite (imageBase s) 48 img { x with host := { x.host with download := [] } }
        if action = 0 then adminDone c .success 0 [] x1
        else
          let r := { x1.boot.gov with type := 3, pendImage := s, tries := 0 }
          adminDone c .activationNeedsReset 0 [] (bootAppend r x1))) d

/-! Format and Sanitize. -/

/-- A namespace's data goes: every zone that Reset is allowed on is reset, and every conventional LBA is UNMAPPED (R391). -/
def nsWipe (nsid : Nat) (n : Ns) (d : Dev) : Dev :=
  if n.zoned then
    (nsZones d nsid).foldl (fun x q => if zoneAllows .reset (zoneGet x q.1).st then zoneReset q.1 x else x) d
  else let q := seqTake d; unmapAt nsid 0 n.nsze q.1 false q.2

/-- New namespace key, its wrapped copy and KPIO slots of the namespace's Kennels cleared (R391, steps 1, 2 and 5). -/
def nsRekey (nsid : Nat) (n : Ns) (d : Dev) : Dev :=
  if n.cipher = 0 then d
  else
    let d1 := match nsKeyMake nsid n.slot (slotGet d.sec n.slot).kennel n d with
      | some (n1, x) => { x with ten := { x.ten with namespaces := tabPut x.ten.namespaces nsid n1 } }
      | none => d
    let ks := (d1.ten.nsBind.filter (fun q => decide (q.1 = nsid))).map (fun q => q.2)
    { d1 with sec := { d1.sec with slots := d1.sec.slots.map (fun q =>
        if q.2.type ≠ 0 ∧ q.2.scope = 2 ∧ ks.contains q.2.kennel then (q.1, slotClear q.2) else q) } }

/-- Crypto erase of one namespace (R391). -/
def nsCrypto (nsid : Nat) (d : Dev) : Dev :=
  match nsGet d nsid with
  | none => d
  | some n =>
    let d1 := nsRekey nsid n d
    match nsGet d1 nsid with
    | some n1 => nsWipe nsid n1 d1
    | none => d1

/-- FORMAT_NVM: one namespace, or all; secure erase settings 0 and 1, and 2 where keys are present (Table 2.6, R391). -/
def formatNvm (c : Src) (nsid ses : Nat) (d : Dev) : Dev :=
  adminGate c (fun x =>
    let all := decide (nsid = 0xFFFFFFFF)
    if 2 < ses ∨ (ses = 2 ∧ hasCrypto x.fuse = false) then adminDone c .invalidField 0 [] x
    else if !all && (nsGet x nsid).isNone then adminDone c .invalidNamespace 0 [] x
    else
      let ids := if all then x.ten.namespaces.map (fun q => q.1) else [nsid]
      let one := fun (y : Dev) (i : Nat) => if ses = 2 then nsCrypto i y
        else match nsGet y i with | some n => nsWipe i n y | none => y
      let run := fun y => adminDone c .success 0 [] (volWrite (ids.foldl one y))
      if ses = 2 then rndGate (.format c nsid) run x else run x) d

/-- SANITIZE_CRYPTO_ERASE: AX and MX only (R5, R391). -/
def sanitizeCrypto (c : Src) (d : Dev) : Dev :=
  adminGate c (fun x =>
    if !hasCrypto x.fuse then adminDone c .invalidField 0 [] x
    else if x.med.volUnknown then adminDone c .layoutFrozen 0 [] x
    else rndGate (.sanitize c) (fun z =>
      adminDone c .success 0 [] (volWrite (z.ten.namespaces.foldl (fun y q => nsCrypto q.1 y) z))) x) d

/-- Every block that is not free or retired is queued for its erase, and nothing of the old data is left in the tables. -/
def mediaErase (d : Dev) : Dev :=
  let d1 := { d with med := { d.med with
    staged := [], loose := [], copies := [], sbs := [], openSb := [], parkSb := [], moves := [], doomed := [], secure := []
    replicas := d.med.replicas.filter (fun q => !dieUp d q.2.die)
    jr := groupSkip (prof d) { d.med.jr with buf := [], flushing := none, media := [], pairs := [], pend := [], carry := [], words := [],
                                             old := [], oldAt := 0 }
    image := { zones := [], map := [], dump := [], loose := [], dumped := false } } }
  let d2 := mapuMod (fun u => { u with map := [], seals := [], cache := [], rebuild := [] }) { d1 with aff := { d1.aff with queue := [] } }
  let d3 := { d2 with hw := wr d2.hw R.HERDER_DIRTY 0#32 }
  (d3.med.blks.filter (fun q => decide (q.2.st = .open_) || decide (q.2.st = .closed))).foldl (fun x q =>
    eraseAdd (q.1 / 4096) (q.1 % 4096) x) d3

/-- SANITIZE_BLOCK_ERASE: the media is erased and a new 1.0 volume created; every function is bound to Kennel 0 again, and namespaces of
a known volume start anew, empty (R52, R264; that they stay is PRESUMED from the NVMe specifications, log entry 33). -/
def sanitizeBlock (c : Src) (d : Dev) : Dev :=
  adminGate c (fun x =>
    let x1 := volCreate (mediaErase x)
    let x2 := x1.ten.fnBind.foldl (fun y q => sjDelete 0x8011 q.1 y) { x1 with ten := { x1.ten with zones := [] } }
    let x3 := { x2 with ten := { x2.ten with fnBind := [] } }
    let x4 := x3.ten.namespaces.foldl (fun y q => if q.2.zoned then zonesCreate q.1 q.2 y else y) x3
    adminDone c .success 0 [] (volWrite x4)) d

/-! Key Per I/O (R388). -/

/-- KEK_ESTABLISHMENT: an import KEK from a P-384 ECDH exchange into one of the 16 registers. -/
def kekEstablish (c : Src) (i : Nat) (msg : List Byte) (d : Dev) : Dev :=
  adminGate c (fun x =>
    if !hasCrypto x.fuse ∨ 15 < i then adminDone c .invalidField 0 [] x
    else adminDone c .success 0 [] { x with sec := { x.sec with importKeks := tabPut x.sec.importKeks i (Config.ecdhKek msg) } }) d

/-- KEY_INJECTION: a media key wrapped under an import KEK goes through UNWRAP into the slot of its key tag, with SCOPE KPIO and bound to
the injecting function's Kennel; a slot of another Kennel or scope gives the class's authority error. -/
def keyInject (c : Src) (tag kek : Nat) (kwp : Bool) (wrapped : List Byte) (d : Dev) : Dev :=
  adminGate c (fun x =>
    let k := fnKennel x c.port c.fn
    let s := slotGet x.sec tag
    if !hasCrypto x.fuse ∨ 8191 < tag ∨ 15 < kek then adminDone c .invalidField 0 [] x
    else if s.type ≠ 0 ∧ (s.scope ≠ 2 ∨ s.kennel ≠ k) then adminDone c .authority 0 [] x
    else if !unwrapLenOk kwp wrapped.length then adminDone c .invalidField 0 [] x
    else match ((tabGet x.sec.importKeks kek).bind (fun key => Config.unwrap kwp key wrapped)).bind (unwrapSlot false tag k) with
      | none => adminDone c .invalidField 0 [] (hwMod (fun h => irq h irqKv 1) x)
      | some (type, km, scope, kn) => match slotLoad s type km scope kn with
        | none => adminDone c .keyExhausted 0 [] (hwMod (fun h => irq h irqKv 5) x)
        | some y => adminDone c .success 0 [] { x with sec := slotPut x.sec tag y }) d

/-! Layout Update (R70, R428–R430). -/

/-- LAYOUT_TRANSFER (action 0x01). -/
def layoutTransfer (c : Src) (off : Nat) (bs : List Byte) (d : Dev) : Dev :=
  vendorGate c (trialGate c (fun x =>
    if bs.isEmpty then adminDone c .zeroLength 0 [] x
    else if bs.length % 4 ≠ 0 ∨ 1048576 < off + bs.length then adminDone c .invalidField 0 [] x
    else if (match x.host.layoutPort with | some p => decide (p ≠ c.port) | none => false) then adminDone c .unitStateConflict 0 [] x
    else adminDone c .success 0 [] { x with host := { x.host with
      layoutXfer := cellsPut off bs x.host.layoutXfer, layoutPort := some c.port } })) d

/-- The header and every byte up to its LENGTH have been transferred (R70). -/
def xferWhole (t : List Host.Cell) : Bool :=
  let has := fun (i : Nat) => (tabGet t i).isSome
  (List.range 64).all has && (List.range (min 1048576 (leAt (cellsTake 64 t) 8 4))).all has

/-- The removal of a pending layout: a record that keeps a pending image (R430). -/
def layoutDrop (d : Dev) : Dev :=
  let g := d.boot.gov
  if g.pendLayout = 0xFF then d
  else if g.pendImage = 0xFF then bootAppend (dropPending g) d
  else bootAppend { g with type := 3, pendLayout := 0xFF, tries := 0 } d

/-- LAYOUT_VERIFY_STAGE (action 0x02): the transfer, R427, the stream's SEQ, the frozen fields and the Kennel range are checked in order;
then the stream is written to the slot not in force, read back, and named pending by a boot record (R70, R428–R430). -/
def layoutStage (c : Src) (d : Dev) : Dev :=
  vendorGate c (trialGate c (fun x =>
    let t := x.host.layoutXfer
    let bs := cellsTake (min 1048576 (leAt (cellsTake 64 t) 8 4)) t
    let st := streamStatus x.fuse bs
    let clear := fun (y : Dev) => { y with host := { y.host with layoutXfer := [], layoutPort := none } }
    let refuse := fun (s : NvStat) => adminDone c s 0 [] (clear x)
    if (match x.host.layoutPort with | some p => decide (p ≠ c.port) | none => false) then adminDone c .unitStateConflict 0 [] x
    else if !xferWhole t then adminDone c .stagingIncomplete 0 [] x
    else if st = .reject ∨ leAt bs 16 8 ≤ x.med.layout.seq then refuse .layoutRejected
    else if st ≠ .ok then refuse .unitAbsent
    else if !frozenOk x bs then refuse .layoutFrozen
    else if (layoutOf bs).kmax ≤ topKennel x then refuse .kennelInUse
    else
      let slot := 1 - x.boot.layout % 2
      let x1 := slotWrite (layoutBase slot) 16 bs (layoutDrop (clear x))
      let back := rindBytes x1.hw.rind x1.hw.free (layoutBase slot) bs.length
      if signedDigest back bs.length ≠ signedDigest bs bs.length then adminDone c .layoutRejected 0 [] x1
      else adminDone c .success 0 [] (bootAppend { x1.boot.gov with type := 3, pendLayout := slot, tries := 0 } x1))) d

/-- LAYOUT_DISCARD (action 0x03): transferred bytes and the pending layout go; the slot's content stays (R430). -/
def layoutDiscard (c : Src) (d : Dev) : Dev :=
  vendorGate c (trialGate c (fun x =>
    if (match x.host.layoutPort with | some p => decide (p ≠ c.port) | none => false) then adminDone c .unitStateConflict 0 [] x
    else adminDone c .success 0 [] (layoutDrop { x with host := { x.host with layoutXfer := [], layoutPort := none } }))) d

/-! Kennel Configure (R71, R115–R118). -/

/-- The first 24 bytes of a Kennel descriptor (Table 2.10). -/
def kenBytes (k : Kennel) : List Byte :=
  leBytes 1 k.cls ++ leBytes 1 (if k.dedicated then 1 else 0) ++ leBytes 2 k.packs ++ leBytes 4 k.iops ++ leBytes 4 k.bw ++ leBytes 4 k.cap
    ++ leBytes 4 (if k.forbidOff then 1 else 0) ++ leBytes 4 k.override

/-- A Kennel with a descriptor's fields; its statistics and what is outstanding stay, and each bucket keeps its content, filled at the old
ceiling up to now and clipped to the new capacity (R122). -/
def kenSetFields (now : Nat) (bs : List Byte) (k : Kennel) : Kennel :=
  let f := kenFill now k
  let x := { f with cls := leAt bs 0 1, dedicated := decide (leAt bs 1 1 = 1), packs := leAt bs 2 2 % 8, iops := leAt bs 4 4, bw := leAt bs 8 4,
                    cap := leAt bs 12 4, forbidOff := decide (leAt bs 16 4 % 2 = 1), override := leAt bs 20 4 }
  { x with iopsB := { x.iopsB with level := min x.iopsB.level (iopsCap x) }, bwB := { x.bwB with level := min x.bwB.level (bwCap x) } }

/-- A Kennel holds data: a copy of a unit names it, or a zone of its namespaces holds a superblock with units (R71). -/
def kenHasData (d : Dev) (k : Nat) : Bool :=
  (d.med.copies ++ d.med.staged).any (fun q => !q.2.pad && decide (q.2.kennel = k))

/-- The descriptor's values are defined ones, and a deadline override is no shorter than its floor: tR + 140 µs for S0, 100 µs for
any other class (Table 2.10, R117, R120). -/
def kenFieldsOk (d : Dev) (k : Nat) (bs : List Byte) : Bool :=
  let ded := leAt bs 1 1
  let m := leAt bs 2 2
  let floor := if leAt bs 0 1 = 0 then (prof d).tR + 140000 else 100000
  decide (leAt bs 0 1 ≤ 3) && decide (ded ≤ 1) && decide (leAt bs 16 4 ≤ 1) && (bs.drop 24).all (fun b => decide (b = 0#8))
    && (decide (leAt bs 20 4 = 0) || decide (floor ≤ 1000 * leAt bs 20 4))
    && (decide (ded = 0) || (decide (m ≠ 0) && decide (m < 2 ^ packCount d.fuse)
        && d.ten.kennels.all (fun q => decide (q.1 = k) || !q.2.dedicated
            || (List.range 3).all (fun p => !(decide (q.2.packs / 2 ^ p % 2 = 1) && decide (m / 2 ^ p % 2 = 1))))))

/-- K_max that bounds creation: that in force, and the pending stream's while one is pending (R115, R429). -/
def kmaxFor (d : Dev) : Nat :=
  let g := d.boot.gov
  if g.pendLayout = 0xFF then d.med.layout.kmax else min d.med.layout.kmax (layoutOf (slotBytes d (g.pendLayout % 2))).kmax

/-- A new Kennel's buckets, full. -/
def kenFull (now : Nat) (k : Kennel) : Kennel := { k with iopsB := { level := iopsCap k, last := now }, bwB := { level := bwCap k, last := now } }

/-- KENNEL_SET (action 0x01): creates or changes a Kennel, with a KENNEL record (R71, R115, R117, R429). Kennel 0 is S1 and shared (R115): a
set that would make it anything else completes with Invalid Field in Command (DESIGN CHOICE, log entry 114). -/
def kennelSet (c : Src) (k : Nat) (bs : List Byte) (d : Dev) : Dev :=
  vendorGate c (trialGate c (fun x =>
    let desc := padTo 64 bs
    let defined := (kenGet x k).isSome
    let old := kenOf x k
    let count := x.ten.kennels.length + (if (tabGet x.ten.kennels 0).isSome then 0 else 1)
    let now := x.hw.time.toNat
    let new := if defined then kenSetFields now desc old else kenFull now (kenSetFields now desc Kennel.zero)
    if 255 < k ∨ (!defined ∧ kmaxFor x ≤ k) then adminDone c .invalidField 0 [] x
    else if !kenFieldsOk x k desc || (decide (k = 0) && (decide (new.cls ≠ 1) || new.dedicated)) then adminDone c .invalidField 0 [] x
    else if !defined && (decide (x.med.layout.kmax ≤ count) || decide (x.med.layout.kmax ≤ topKennel x)) then
      adminDone c .resourceExhausted 0 [] x
    else if defined && kenHasData x k && (decide (new.dedicated ≠ old.dedicated) || decide (new.packs ≠ old.packs)) then
      adminDone c .layoutFrozen 0 [] x
    else adminDone c .success 0 [] (settle (sjPut 0x8010 k (kenBytes new) (kenPut x k new))))) d

/-- KENNEL_DELETE (action 0x02): an unbound Kennel other than 0; its KPIO slots are cleared, its FIRMWARE slots rebound to Kennel 0, before
the completion (R118, R389). An ID that is not defined gives Invalid Field in Command: R118 names no status (DESIGN CHOICE, log entry 114). -/
def kennelDelete (c : Src) (k : Nat) (d : Dev) : Dev :=
  vendorGate c (trialGate c (fun x =>
    if k = 0 ∨ (kenGet x k).isNone = true then adminDone c .invalidField 0 [] x
    else if x.ten.fnBind.any (fun q => decide (q.2 = k)) || x.ten.nsBind.any (fun q => decide (q.2 = k)) then adminDone c .kennelInUse 0 [] x
    else
      let slots := x.sec.slots.map (fun q =>
        if q.2.type = 0 ∨ q.2.kennel ≠ k then q
        else if q.2.scope = 2 then (q.1, slotClear q.2)
        else if q.2.scope = 0 then (q.1, { q.2 with kennel := 0 }) else q)
      let x1 := { x with sec := { x.sec with slots := slots }, ten := { x.ten with kennels := tabDel x.ten.kennels k } }
      adminDone c .success 0 [] (settle (sjDelete 0x8010 k x1)))) d

/-- KENNEL_READ (action 0x03): the 64-byte descriptor. -/
def kennelRead (c : Src) (k : Nat) (d : Dev) : Dev :=
  vendorGate c (fun x => match kenGet x k with
    | none => adminDone c .invalidField 0 [] x
    | some y => adminDone c .success 0 (asData (padTo 64 (kenBytes y))) x) d

/-- KENNEL_BIND_FUNCTION (action 0x04): for commands fetched after the completion (R52). -/
def kennelBindFn (c : Src) (k port fn : Nat) (d : Dev) : Dev :=
  vendorGate c (trialGate c (fun x =>
    if (kenGet x k).isNone ∨ !ctrlPresent x port fn then adminDone c .invalidField 0 [] x
    else
      let x1 := { x with ten := { x.ten with fnBind := tabPutD x.ten.fnBind (port * 64 + fn) k 0 } }
      adminDone c .success 0 [] (settle (sjPut 0x8011 (port * 64 + fn) (leBytes 1 k) x1)))) d

/-- KENNEL_BIND_NAMESPACE (action 0x05): at most 1,024 namespaces of a Kennel and 16 Kennels of a namespace (R116). -/
def kennelBindNs (c : Src) (k nsid : Nat) (d : Dev) : Dev :=
  vendorGate c (trialGate c (fun x =>
    if (kenGet x k).isNone then adminDone c .invalidField 0 [] x
    else if (nsGet x nsid).isNone then adminDone c .invalidNamespace 0 [] x
    else if x.ten.nsBind.contains (nsid, k) then adminDone c .success 0 [] x
    else if 1024 ≤ (x.ten.nsBind.filter (fun q => decide (q.2 = k))).length
        ∨ 16 ≤ (x.ten.nsBind.filter (fun q => decide (q.1 = nsid))).length then adminDone c .resourceExhausted 0 [] x
    else adminDone c .success 0 [] (nsBindRecord nsid { x with ten := { x.ten with nsBind := x.ten.nsBind ++ [(nsid, k)] } }))) d

/-- KENNEL_UNBIND_NAMESPACE (action 0x06). A pair that is not bound gives Invalid Field in Command. -/
def kennelUnbindNs (c : Src) (k nsid : Nat) (d : Dev) : Dev :=
  vendorGate c (trialGate c (fun x =>
    if !x.ten.nsBind.contains (nsid, k) then adminDone c .invalidField 0 [] x
    else adminDone c .success 0 [] (nsBindRecord nsid { x with ten := { x.ten with
      nsBind := x.ten.nsBind.filter (fun q => decide (q ≠ (nsid, k))) } }))) d

/-! Unit Service (R72, R77). -/

/-- UNIT_TAKE_OUT (action 0x01), by unit type: 1 channel, 2 die, 3 detector. -/
def unitTakeOut (c : Src) (type n : Nat) (d : Dev) : Dev :=
  vendorGate c (fun x => match type with
    | 1 => takeOutChan c n x
    | 2 => takeOutDie c n x
    | 3 => takeOutDet c n x
    | _ => adminDone c .invalidField 0 [] x) d

/-- UNIT_RETURN (action 0x02). -/
def unitReturn (c : Src) (type n : Nat) (d : Dev) : Dev :=
  vendorGate c (fun x => match type with
    | 1 => returnChan c n x
    | 2 => returnDie c n x
    | 3 => returnDet c n x
    | _ => adminDone c .invalidField 0 [] x) d

/-- State code of a unit (Table 2.12). -/
def unitState (d : Dev) (type n : Nat) : Nat :=
  match type with
  | 1 => if n < chCount d.fuse then (chanGet d n).st else 0
  | 2 => dieState d n
  | _ => if n < detCount d.fuse then (detGet d n).st else 0

/-- UNIT_QUERY (action 0x03): the state code in DW0; an absent unit gives Unit Absent (R72, R77). -/
def unitQuery (c : Src) (type n : Nat) (d : Dev) : Dev :=
  vendorGate c (fun x =>
    if type < 1 ∨ 3 < type then adminDone c .invalidField 0 [] x
    else if unitState x type n = 0 then adminDone c .unitAbsent 0 [] x
    else adminDone c .success (unitState x type n) [] x) d

/-! Debug Unlock (R73). -/

/-- The 64-byte challenge block: 32 random bytes, the serial number, 16 reserved bytes. -/
def chalBytes (d : Dev) (rnd : BitVec 512) : List Byte := leBytes 32 (rnd.toNat % 2 ^ 256) ++ serialBytes d ++ List.replicate 16 0#8

/-- Debug attempts are locked until power-on (R73). -/
def debugLocked (d : Dev) : Bool := decide (3 ≤ d.sec.dbg.failures)

/-- DEBUG_GET_CHALLENGE (action 0x01). -/
def debugChallenge (c : Src) (d : Dev) : Dev :=
  vendorGate c (fun x =>
    if debugLocked x then adminDone c .debugFailed 0 [] x
    else rndGate (.challenge c) (fun y =>
      let q := drbgDraw y.sec
      adminDone c .success 0 (asData (chalBytes y q.1))
        { y with sec := { q.2 with dbg := { q.2.dbg with adminChal := some (BitVec.ofNat 512 (leNat (chalBytes y q.1))) } } }) x) d

/-- A verify of ROLE 3 over SHA-384 of a challenge block, with the public key of the key area (R73, R381; place of the key in log entry
32). -/
def debugVerify (d : Dev) (chal : BitVec 512) (sig : List Byte) : Status :=
  let key := rindBytes d.hw.rind d.hw.free (137 * 65536) 97
  let dg := BitVec.ofNat 384 (leNat (leBytes 48 (Config.sha384 (leBytes 64 chal.toNat)).toNat).reverse)
  let n := fun (bs : List Byte) (o : Nat) => BitVec.ofNat 384 (beAt bs o 48)
  (ecdsaOutcome d.fuse 3 (leAt key 0 1) dg (n sig 0) (n sig 48) (n key 1) (n key 49)).1

/-- The outcome of an unlock attempt: unlocked, or a failure counted; DEBUG_UNLOCK is posted (R73, R491). -/
def debugResult (path : Nat) (st : Status) (d : Dev) : Dev :=
  let g := d.sec.dbg
  let g1 := if st = .ok then { g with unlocked := true } else { g with failures := g.failures + 1 }
  hwMod (fun h => evFw h 0x081 1 path st.code g1.failures) { d with sec := { d.sec with dbg := g1 } }

/-- DEBUG_SUBMIT_RESPONSE (action 0x02): 96 bytes, r then s; the challenge is spent. -/
def debugSubmit (c : Src) (sig : List Byte) (d : Dev) : Dev :=
  vendorGate c (fun x =>
    if debugLocked x then adminDone c .debugFailed 0 [] x
    else
      let st := match x.sec.dbg.adminChal with
        | some ch => debugVerify x ch (padTo 96 sig)
        | none => .reject
      let x1 := debugResult 0 st { x with sec := { x.sec with dbg := { x.sec.dbg with adminChal := none } } }
      adminDone c (if st = .ok then .success else .debugFailed) 0 [] x1) d

/-- DEBUG_CHALLENGE_EXPIRY: 60 s have passed since the challenge of the admin path, or of the JTAG path, was drawn (R73, R491). -/
def debugExpiry (jtag : Bool) (d : Dev) : Dev :=
  let g := d.sec.dbg
  { d with sec := { d.sec with dbg := if jtag then { g with jtagChal := none } else { g with adminChal := none } } }

/-! Namespace keys at start (R368). -/

/-- One namespace's key restored from its wrapped copy into its slot; a failed check leaves it serving no I/O. The slot takes the
generation that the wrapped header carries (log entry 34). -/
def nsKeyRestore (nsid : Nat) (n : Ns) (d : Dev) : Dev :=
  if n.cipher = 0 then d
  else
    let bs := rindBytes d.hw.rind d.hw.free (134 * 65536 + wrappedAt nsid) 80
    let pt := Config.unwrap false (kekStorage d.fuse) bs
    let got := pt.bind (fun b => (unwrapSlot true n.slot 0 b).map (fun q => (q, leNat ((b.drop 69).take 3))))
    let put := fun (x : Ns) (y : Dev) => { y with ten := { y.ten with namespaces := tabPut y.ten.namespaces nsid x } }
    match got with
    | some ((type, key, scope, kennel), gen) =>
      let x : Slot := { type := type, key := key, gen := gen, kennel := kennel, scope := scope, ctr := (slotGet d.sec n.slot).ctr }
      let ok := decide (gen = n.keyGen) && decide (keyCheckOf x = n.keyCheck)
      let d1 := { d with sec := slotPut d.sec n.slot x }
      if ok then put { n with keyFailed := false } d1
      else put { n with keyFailed := true } (hwMod (fun h => evFw h 0x083 3 nsid n.slot 0) d1)
    | none => put { n with keyFailed := true } (hwMod (fun h => evFw h 0x083 3 nsid n.slot 0) d)

/-- NS_KEY_RESTORE: every namespace with CIPHER ≠ 0, once firmware runs on a part with a vault (R368). -/
def nsKeysRestore (d : Dev) : Dev :=
  if hasCrypto d.fuse && (tabGet d.pwr.cores 0).isSome then d.ten.namespaces.foldl (fun x q => nsKeyRestore q.1 q.2 x) d else d

end Sys2Proof.Machine
end

