-- ==== Sys2Proof/Machine/Logs.lean ====
section
/-!
DEFINITION. Log pages (R75–R77, R140, R333, R334, R474, R486) and Identify (R4–R6, R51, R59, R63, Table 3.3).
-/

namespace Sys2Proof.Machine

/-! Page construction. -/

/-- The vendor log header (Table 2.11) over a body. -/
def logPage (d : Dev) (lid : Nat) (body : List Byte) : List Byte :=
  leBytes 1 lid ++ leBytes 1 1 ++ leBytes 2 0 ++ leBytes 4 (16 + body.length) ++ leBytes 8 d.hw.time.toNat ++ body

/-- A body of zeros: the page as a VF sees it, where no field concerns one Kennel (R75). -/
def zeroBytes (n : Nat) : List Byte := List.replicate n 0#8

/-- A signed field of `k` bytes. -/
def leInt (k : Nat) (i : Int) : List Byte := leBytes k (BitVec.ofInt (8 * k) i).toNat

/-- Concatenation over an index range. -/
def eachOf (n : Nat) (f : Nat → List Byte) : List Byte := ((List.range n).map f).flatten

/-- Whether an hour of device time is one of the 24 whole hours before now (R334). -/
def lastDay (now h : Nat) : Bool := decide (h < now) && decide (now ≤ h + 24)

/-- Body of log 0xC0, ladder histogram (R76, R334). -/
def logC0 (d : Dev) : List Byte :=
  let now := d.hw.time.toNat / 90000000000
  let day := fun (s k : Nat) => ((d.fl.hourDepth.filter (fun q =>
    decide (q.1 % 32 = s * 8 + k) && lastDay now (q.1 / 32))).map (fun q => q.2)).sum
  let longest := fun (k : Nat) => ((d.fl.longest.filter (fun q => decide (q.1 % 8 = k) && lastDay now (q.1 / 8))).map
    (fun q => q.2)).foldl max 0
  eachOf 4 (fun s => eachOf 8 (fun k => leBytes 8 (tabGetD d.fl.hostDepth (s * 8 + k) 0)) ++ eachOf 8 (fun k => leBytes 8 (day s k)))
    ++ eachOf 8 (fun k => leBytes 4 (longest k))

/-- Hours since the oldest unsampled block of the population was last sampled (R334). -/
def oldestHours (d : Dev) : Nat :=
  ((population d).map (fun q => d.aff.mtime - q.2.sampled)).foldl max 0 / 3600

/-- Body of log 0xC1, retention and refresh (R76, R334). -/
def logC1 (d : Dev) : List Byte :=
  leBytes 8 d.aff.samples ++ leBytes 4 d.aff.cycles ++ leBytes 4 (affProgress d) ++ leBytes 8 d.aff.queue.length ++ leBytes 8 d.aff.rewrites
    ++ leBytes 4 (oldestHours d) ++ leBytes 4 d.aff.ew.toNat
    ++ eachOf 3 (fun p => if p < packCount d.fuse then
        leBytes 4 (meanErase d p) ++ leBytes 4 (prof d).npe ++ leBytes 4 (spareOf d p)
          ++ leBytes 4 (tabGetD d.aff.retired p 0) ++ leBytes 8 (backlogOf d p) ++ zeroBytes 8
      else zeroBytes 32)

/-- Valid records of the event region, oldest first (R485, R486). -/
def evRecords (h : Hw) : List (List Byte) :=
  ((List.range (evUsed h)).map (fun s => rindBytes h.rind h.free (evRegionLo + 32 * s) 32)).filter
    (fun bs => decide (leNat (bs.drop 30) = (crc16 (bs.take 30)).toNat))

/-- Body of log 0xC2, event recorder (R76, R486). -/
def logC2 (d : Dev) : List Byte :=
  let rs := evRecords d.hw
  leBytes 4 rs.length ++ leBytes 4 (if d.hw.ev.full then 1 else 0) ++ zeroBytes 8 ++ rs.flatten

/-- Body of log 0xC3, power and wake record (R76). -/
def logC3 (d : Dev) : List Byte :=
  eachOf 96 (fun n => if domPresent d.fuse n then
      let x := domGet d.pwr n
      leBytes 1 (domCode x.st) ++ leBytes 1 x.src ++ leBytes 2 0 ++ leBytes 4 x.wakes ++ leBytes 8 x.at_.toNat
    else zeroBytes 16)

/-- Body of log 0xC4, thermal history (R76, R474). -/
def logC4 (d : Dev) : List Byte :=
  let t := d.therm
  eachOf 12 (fun k => leInt 2 (tabGetD t.sens k 0) ++ leInt 2 (tabGetD t.sensMax k 0))
    ++ eachOf 64 (fun k => leInt 2 (tabGetD t.chans k 0) ++ leInt 2 (tabGetD t.chanMax k 0))
    ++ leBytes 4 (tabGetD t.crossings 1 0) ++ leBytes 4 (tabGetD t.crossings 2 0) ++ leBytes 8 t.pauseTotal
    ++ leBytes 4 t.shutdowns ++ leBytes 4 (if triple d then 1 else 0)

/-- Body of log 0xC5, hold-up health (R76). -/
def logC5 (d : Dev) : List Byte :=
  let flags := bitsOf [headroom d, d.aff.ew.getLsbD 3, d.med.stagedLost]
  leBytes 4 (energyAt d d.holdup.vbank / 2000000000000) ++ leBytes 4 (limitKib d / 1024)
    ++ leBytes 4 (actMa d) ++ leBytes 4 flags ++ leBytes 8 d.holdup.measAt.toNat ++ leBytes 4 d.holdup.lastUs
    ++ leBytes 4 d.holdup.longestUs ++ leBytes 4 d.holdup.flushes ++ leBytes 4 d.holdup.supplyBacks

/-- P99.99 of the one-LBA reads of the last 24 h, in 0.1 µs (R140): the upper edge of the 1 µs bucket that holds the percentile. -/
def p9999 (now : Nat) (fine : List (Nat × Nat)) : Nat :=
  let recent := fine.filter (fun q => decide (now < q.1 / 16384 + 24))
  let total := (recent.map (fun q => q.2)).sum
  if total < 10000 then 0
  else
    let below := fun (b : Nat) => ((recent.filter (fun q => decide (q.1 % 16384 ≤ b))).map (fun q => q.2)).sum
    match (List.range 10000).find? (fun b => decide (9999 * total ≤ 10000 * below b)) with
    | some b => (b + 1) * 10
    | none => 0xFFFFFFFF

/-- Body of log 0xC6, statistics of one Kennel (R76); a Kennel that is not defined reads 0 but for its ID. -/
def logC6 (d : Dev) (k : Nat) : List Byte :=
  match kenGet d k with
  | none => leBytes 4 k ++ zeroBytes 588
  | some x =>
    leBytes 4 k ++ leBytes 4 x.cls ++ leBytes 8 x.reads ++ leBytes 8 x.writes ++ leBytes 8 x.bytesR ++ leBytes 8 x.bytesW
      ++ leBytes 8 x.helds ++ leBytes 8 x.arounds ++ leBytes 8 x.suspends ++ leBytes 8 x.misses
      ++ leBytes 4 (p9999 (d.hw.time.toNat / 90000000000) x.fine) ++ leBytes 4 0
      ++ eachOf 64 (fun b => leBytes 8 (tabGetD x.hist b 0))

/-- Body of log 0xC7, unit service state (R76, R77). -/
def logC7 (d : Dev) : List Byte :=
  eachOf 48 (fun n => leBytes 1 (unitState d 1 n)) ++ eachOf 24 (fun n => leBytes 1 (unitState d 3 n)) ++ zeroBytes 8
    ++ eachOf 1536 (fun n => leBytes 1 (unitState d 2 n))

/-- A vendor page as a controller sees it; for a VF every field that does not concern its Kennel reads 0 (R75). -/
def vendorLog (d : Dev) (vf : Bool) (lid lsi : Nat) : List Byte :=
  let body := match lid with
    | 0xC0 => logC0 d | 0xC1 => logC1 d | 0xC2 => if vf then zeroBytes 16 else logC2 d | 0xC3 => logC3 d | 0xC4 => logC4 d
    | 0xC5 => logC5 d | 0xC6 => logC6 d lsi | _ => logC7 d
  logPage d lid (if vf && decide (lid ≠ 0xC6) then zeroBytes body.length else body)

/-! Standard pages. Their layouts are those of the NVMe specifications (PRESUMED, log entry 35); what the spec does not state is free. -/

/-- `k` free bytes. -/
def freeBytes (n k : Nat) : List Byte := leBytes k (Config.freeNat n)

/-- SMART critical warning (R330, R333, R474): bit 0 spare, bit 1 temperature, bit 2 reliability, bit 3 read only. -/
def critWarning (d : Dev) : Nat :=
  let spare := (packs d).map (fun p => spareOf d p)
  let low := spare.foldl min 10000 / 100
  bitsOf [decide (low < fld (rd d.hw R.AFFINEUR_SPARE) 16 16 / 100), d.therm.tempWarn, d.aff.critReliability, !d.med.floored.isEmpty]

/-- Percentage Used (R333). -/
def pctUsed (d : Dev) : Nat := min 255 (((packs d).map (fun p => meanErase d p)).foldl max 0 * 100 / max 1 (prof d).npe)

/-- SMART / Health Information (R333, R474). -/
def logSmart (d : Dev) : List Byte :=
  let low := ((packs d).map (fun p => spareOf d p)).foldl min 10000 / 100
  leBytes 1 (critWarning d) ++ leBytes 2 (compositeK d) ++ leBytes 1 low
    ++ leBytes 1 (fld (rd d.hw R.AFFINEUR_SPARE) 16 16 / 100) ++ leBytes 1 (pctUsed d) ++ freeBytes d.hw.free 506

/-- Error Information, newest first: the lowest unrecovered LBA and the namespace of each entry (R223). -/
def logErrors (d : Dev) : List Byte :=
  (d.host.errLog.reverse.map (fun e => freeBytes d.hw.free 16 ++ leBytes 8 e.2 ++ leBytes 4 e.1 ++ freeBytes (d.hw.free + 1) 36)).flatten

/-- Commands Supported and Effects: bit 0 of a supported opcode's dword is 1, with the vendor commands listed (R69). Secure Discard acts on
conventional namespaces only and is absent with them (R4, R74). -/
def logEffects (d : Dev) : List Byte :=
  let admin := [0x00, 0x01, 0x02, 0x04, 0x05, 0x06, 0x08, 0x09, 0x0A, 0x0C, 0x0D, 0x10, 0x11, 0x15, 0x1C, 0x80, 0x81, 0x82, 0x84,
                0xC0, 0xC1, 0xC2, 0xC3, 0xC4]
  let io := [0x00, 0x01, 0x02, 0x08, 0x09, 0x0C, 0x0D, 0x0E, 0x11, 0x15, 0x79, 0x7A, 0x7D] ++ (if hasMapu d.fuse then [0x81] else [])
  let word := fun (yes : Bool) (i : Nat) => if yes then leBytes 4 (1 + 2 * Config.freeNat (d.hw.free + i)) else zeroBytes 4
  eachOf 256 (fun i => word (admin.contains i) i) ++ eachOf 256 (fun i => word (io.contains i) (256 + i)) ++ zeroBytes 2048

/-- Firmware Slot Information: the active slot and, where a commit is pending, the next one (R59, R433). -/
def logFirmware (d : Dev) : List Byte :=
  let g := d.boot.gov
  leBytes 1 (d.boot.image + 1 + (if g.pendImage = 0xFF then 0 else (g.pendImage + 1) * 16)) ++ freeBytes d.hw.free 511

/-- Endurance Group Information (R333). -/
def logEndurance (d : Dev) : List Byte := freeBytes d.hw.free 5 ++ leBytes 1 (pctUsed d) ++ freeBytes (d.hw.free + 1) 506

/-! Flexible Data Placement pages (R96, Table 3.5). Their byte places are those of the NVMe specifications (PRESUMED, log entry 95). -/

/-- RUNS: the nominal size of a reclaim unit, a superblock of the layout's stripe width, in bytes (Table 3.5). -/
def fdpRuns (d : Dev) : Nat := (d.med.layout.width - 1) * memberUnits (prof d) * 4096

/-- FDP Configurations: the one configuration, with its 32 reclaim unit handles, all Initially Isolated. -/
def logFdpConfig (d : Dev) : List Byte :=
  let desc := leBytes 2 192 ++ leBytes 1 (128 + 2) ++ leBytes 1 0 ++ leBytes 4 (packCount d.fuse) ++ leBytes 2 32 ++ leBytes 2 31
    ++ leBytes 4 1024 ++ leBytes 8 (fdpRuns d) ++ leBytes 4 604800 ++ zeroBytes 36 ++ eachOf 32 (fun _ => leBytes 4 1)
  leBytes 2 0 ++ leBytes 2 0 ++ leBytes 4 (16 + desc.length) ++ zeroBytes 8 ++ desc

/-- Reclaim Unit Handle Usage: a handle is in use by the host while a namespace has it. -/
def logFdpHandles (d : Dev) : List Byte :=
  leBytes 2 32 ++ zeroBytes 6
    ++ eachOf 32 (fun h => leBytes 1 (if d.ten.namespaces.any (fun q => decide (h < q.2.handles)) then 1 else 0) ++ zeroBytes 7)

/-- FDP Statistics: bytes written by the host, written to media, and erased. -/
def logFdpStats (d : Dev) : List Byte :=
  leBytes 16 (4096 * d.host.fdpLog.host) ++ leBytes 16 (4096 * d.host.fdpLog.media) ++ leBytes 16 (4096 * d.host.fdpLog.erased) ++ zeroBytes 16

/-- FDP Events, oldest first. -/
def logFdpEvents (d : Dev) : List Byte :=
  leBytes 4 d.host.fdpLog.events.length ++ zeroBytes 60
    ++ (d.host.fdpLog.events.map (fun e => leBytes 1 e.type ++ leBytes 1 7 ++ leBytes 2 (e.group * 2 ^ 14 + e.handle)
      ++ leBytes 8 (1000 * e.time) ++ leBytes 4 e.nsid ++ leBytes 16 e.blocks ++ leBytes 2 e.group ++ leBytes 1 e.handle ++ zeroBytes 29)).flatten

/-- A standard page: none where the controller does not support it (Table 2.6 leaves out telemetry and the device self-test). -/
def stdLog (d : Dev) (lid : Nat) : Option (List Byte) :=
  match lid with
  | 0x01 => some (logErrors d)
  | 0x02 => some (logSmart d)
  | 0x03 => some (logFirmware d)
  | 0x05 => some (logEffects d)
  | 0x09 => some (logEndurance d)
  | 0x20 => some (logFdpConfig d)
  | 0x21 => some (logFdpHandles d)
  | 0x22 => some (logFdpStats d)
  | 0x23 => some (logFdpEvents d)
  | 0x00 | 0x04 | 0x80 | 0x81 | 0xBF => some (freeBytes d.hw.free 4096)
  | _ => none

/-- The bytes of a page from an offset. -/
def pageCut (bs : List Byte) (off len : Nat) : List Byte := (bs.drop off).take len

/-- GET_LOG_PAGE: offset 0 takes a snapshot of a vendor page for the controller, another offset reads its last snapshot, or a new one
where there is none; for a VF, log 0xC6 selects its own Kennel only (R75, R76). -/
def getLog (c : Src) (lid lsi off len : Nat) (d : Dev) : Dev :=
  adminGate c (fun x =>
    let k := ctrlGet x c.port c.fn
    if 0xC0 ≤ lid ∧ lid ≤ 0xC7 then
      if lid = 0xC6 ∧ (255 < lsi ∨ (c.fn ≠ 0 ∧ lsi ≠ fnKennel x c.port c.fn)) then adminDone c .invalidField 0 [] x
      else
        let key := lid * 256 + (if lid = 0xC6 then lsi else 0)
        let fresh := vendorLog x (decide (c.fn ≠ 0)) lid lsi
        let old := if off = 0 then none else tabGet k.snaps key
        let page := old.getD fresh
        adminDone c .success 0 (asData (pageCut page off len))
          (ctrlPut x c.port c.fn { k with snaps := tabPut k.snaps key page })
    else match stdLog x lid with
      | some page => adminDone c .success 0 (asData (pageCut page off len)) { x with hw := spend (spend x.hw) }
      | none => adminDone c .invalidLogPage 0 [] x) d

/-! Identify. -/

/-- Values of the Identify Controller structure, in this order: controller identifier, MDTS, NN, VWC, ACL, AERL, NPSS, firmware slots,
FWUG in 4 KiB, SANICAP, HMPRE, HMMIN, HMMINDS in 4 KiB, HMMAXD, ZASL, and the power of PS0–PS2 in W; then OACS, ONCS, FUSES, APSTA, the
paths, controllers and virtual functions of CMIC, endurance groups, reservation types, SGL support, and Key Per I/O with its number of key
slots. What a part has not is reported as absent (R4, R51, R59, R63, Table 2.6; bit places of OACS, ONCS and CMIC PRESUMED from the NVMe
specifications, log entry 36). -/
def idController (d : Dev) (p fn : Nat) : List Nat :=
  let buf := fn = 0 ∧ hasMapu d.fuse
  let hm := if buf then (segsOfPort d p).length else 0
  [if p = 0 then 0x0001 + fn else 0x0041 + fn, 8, 1024, 0, 7, 15, 2, 2, 1, (if hasCrypto d.fuse then 3 else 2), hm, hm,
   (if buf then 512 else 0), (if buf then 1024 else 0), 5, 41, 30, 20, 0x8F, 0xFC, 0, 0, (if dual d then 7 else 6), 1, 0x7F, 1,
   (if hasCrypto d.fuse then 1 else 0), (if hasCrypto d.fuse then 8192 else 0)]

/-- Values of the Identify Namespace structure, in this order: NSZE, LBA data bytes, metadata bytes, LBA formats, end-to-end protection,
shared, read only. -/
def idNamespace (n : Ns) : List Nat := [n.nsze, 4096, 0, 1, 0, 1, if n.readOnly then 1 else 0]

/-- Values of the zoned Identify Namespace structure, in this order: ZSZE, MAR, MOR, OZCS, ZOC, descriptor extension size, RRL, FRL
(Table 3.3). -/
def idZoned (n : Ns) : List Nat := [n.zsze, 0xFFF, 0xFFF, 1, 1, 0, 0, 604800]

/-- IDENTIFY: the structure that CNS selects (0x00 namespace, 0x01 controller, 0x02 active namespaces of this controller, 0x05 and
0x06 of the zoned command set, 0x10 allocated namespaces, 0x12 controllers attached to a namespace, 0x13 controllers). The values are in
the model's order, not at the NVMe byte places (log entry 36). -/
def identify (c : Src) (cns nsid : Nat) (d : Dev) : Dev :=
  adminGate c (fun x =>
    let ids := x.ten.namespaces.filter (fun q => decide (nsid < q.1))
    let mine := fun (q : Nat × Ns) => q.2.attached.contains (c.port * 64 + c.fn)
    let ctl := fun (k : Nat) => if k / 64 = 0 then 1 + k % 64 else 0x41 + k % 64
    match cns with
    | 0x00 => match nsGet x nsid with
      | some n => adminDone c .success 0 (idNamespace n) x
      | none => adminDone c .invalidNamespace 0 [] x
    | 0x01 => adminDone c .success 0 (idController x c.port c.fn) x
    | 0x02 => adminDone c .success 0 ((ids.filter mine).map (fun q => q.1)) x
    | 0x05 => match nsGet x nsid with
      | some n => if n.zoned then adminDone c .success 0 (idZoned n) x else adminDone c .invalidField 0 [] x
      | none => adminDone c .invalidNamespace 0 [] x
    | 0x06 => adminDone c .success 0 [5] x
    | 0x10 => adminDone c .success 0 (ids.map (fun q => q.1)) x
    | 0x12 => match nsGet x nsid with
      | some n => adminDone c .success 0 (n.attached.map ctl) x
      | none => adminDone c .invalidNamespace 0 [] x
    | 0x13 => adminDone c .success 0 (((List.range 128).filter (fun k => ctrlPresent x (k / 64) (k % 64))).map ctl) x
    | _ => adminDone c .invalidField 0 [] x) d

end Sys2Proof.Machine
end

