-- ==== Sys2Proof/Machine/Mgmt.lean ====
section
/-!
DEFINITION. Out-of-band management (R488, R489, R493), SPDM (R392), the TAP and the JTAG unlock (R490, R491), and the event recorder's
register commands (R481–R486, R492).
-/

namespace Sys2Proof.Machine

/-! The management endpoint. -/

/-- The management endpoint's record changed. -/
def mgMod (f : Mgmt → Mgmt) (d : Dev) : Dev := { d with mgmt := f d.mgmt }

/-- MGMT_CTRL.FW_READY: firmware serves NVMe-MI and SPDM (Table 16.16). -/
def fwReady (d : Dev) : Bool := bit (rd d.hw R.MGMT_CTRL) 0

/-- A message put on the management bus. -/
def mgSend (type : Nat) (bs : List Byte) (d : Dev) : Dev := mgMod (fun m => { m with lastTx := some (type, bs) }) d

/-- MGMT_READY: within 2 ms of the rise of PGOOD the endpoint answers (R489). -/
def mgReady (d : Dev) : Dev := if d.pins.pgood then mgMod (fun m => { m with ready := true }) d else d

/-- The answer while firmware cannot take a message: More Processing Required to NVMe-MI, ERROR Busy to SPDM (Table 16.4). -/
def busyAnswer (type : Nat) (d : Dev) : Dev :=
  if type = 4 then mgSend 4 [1#8] d else mgSend 5 [0x12#8, 0x7F#8, 3#8, 0#8] d

/-- An MCTP control message: NACKed before READY, else answered in hardware (R488, R489). -/
def mctpControl (f : Dev → List Byte × Dev) (d : Dev) : Dev :=
  if d.mgmt.ready then
    let r := f d
    mgSend 0 r.1 r.2
  else d

/-- SET_ENDPOINT_ID: the endpoint takes the identifier; 0x00 and 0xFF are refused as invalid data (DSP0236). -/
def setEid (eid : Nat) (d : Dev) : Dev :=
  mctpControl (fun x =>
    if eid % 256 = 0 ∨ eid % 256 = 0xFF then ([1#8, 2#8], x)
    else ([1#8, 0#8, 0#8, BitVec.ofNat 8 eid, 0#8], mgMod (fun m => { m with eid := eid % 256 }) x)) d

/-- GET_ENDPOINT_ID. -/
def getEid (d : Dev) : Dev := mctpControl (fun x => ([2#8, 0#8, BitVec.ofNat 8 x.mgmt.eid, 0#8, 0#8], x)) d

/-- GET_MCTP_VERSION_SUPPORT: one version entry, whose value the spec does not give (log entry 37). -/
def getMctpVersion (d : Dev) : Dev :=
  mctpControl (fun x => ([4#8, 0#8, 1#8] ++ leBytes 4 (Config.freeNat x.hw.free), hwMod spend x)) d

/-- GET_MESSAGE_TYPE_SUPPORT: NVMe-MI 0x04 and SPDM 0x05 (R488). -/
def getMsgTypes (d : Dev) : Dev := mctpControl (fun x => ([5#8, 0#8, 2#8, 4#8, 5#8], x)) d

/-- Bytes placed in the receive buffer, word by word (Table 16.15). -/
def rxFill (bs : List Byte) (h : Hw) : Hw :=
  (List.range ((bs.length + 3) / 4)).foldl (fun x i => wr x (R.MGMT_RXBUF i) (BitVec.ofNat 32 (leNat ((bs.drop (4 * i)).take 4)))) h

/-- MCTP_MESSAGE_RECEIVED: a reassembled NVMe-MI or SPDM message of up to 4,224 bytes is held for firmware; before FW_READY, or while
an unreleased message is held, it is answered busy, RX_BUSY marking the second case (R488, R489). -/
def mctpReceived (type src tag : Nat) (bs : List Byte) (d : Dev) : Dev :=
  if !d.mgmt.ready || decide (type ≠ 4 ∧ type ≠ 5) || decide (4224 < bs.length) then d
  else if !fwReady d then busyAnswer type d
  else if d.mgmt.rx.isSome then hwMod (fun h => irq h irqMgmt 3) (busyAnswer type d)
  else
    hwMod (fun h => irq (rxFill bs h) irqMgmt 0)
      (mgMod (fun m => { m with rx := some { type := type, src := src % 256, tag := tag % 8, bytes := bs } }) d)

/-- A request that firmware serves through the message buffers: received, answered and released in one step (log entry 38). -/
def mctpServe (type : Nat) (f : Dev → List Byte × Dev) (d : Dev) : Dev :=
  if !d.mgmt.ready then d
  else if !fwReady d then busyAnswer type d
  else if d.mgmt.rx.isSome then hwMod (fun h => irq h irqMgmt 3) (busyAnswer type d)
  else
    let r := f d
    hwMod (fun h => irq (irq h irqMgmt 0) irqMgmt 1) (mgSend type r.1 r.2)

/-! NVMe-MI requests (R488). Response layouts are NVMe-MI's, which the spec does not repeat: a response is its status byte and the
values the spec gives, in the model's order, and free bytes for what it does not (log entry 37). -/

/-- READ_NVME_MI_DATA_STRUCTURE: 0 subsystem (ports), 1 port, 2 controller list, 3 controller, 4 optional commands. -/
def miDataStructure (type arg : Nat) (d : Dev) : Dev :=
  mctpServe 4 (fun x =>
    let ports := if dual x then 2 else 1
    let free := leBytes 32 (Config.freeNat x.hw.free)
    match type with
    | 0 => ([0#8, BitVec.ofNat 8 ports] ++ free, hwMod spend x)
    | 1 => if arg < ports + 1 then ([0#8, BitVec.ofNat 8 arg] ++ free, hwMod spend x) else ([4#8], x)
    | 2 => ([0#8] ++ (((List.range 128).filter (fun k => ctrlPresent x (k / 64) (k % 64))).map
        (fun k => leBytes 2 (if k / 64 = 0 then 1 + k else 0x41 + (k - 64)))).flatten, x)
    | 3 =>
      let k := ctrlOfId arg
      if 1 ≤ arg ∧ ctrlPresent x k.1 k.2 then ([0#8] ++ leBytes 2 arg ++ leBytes 1 k.1 ++ leBytes 1 k.2, x) else ([4#8], x)
    | 4 => ([0#8] ++ free, hwMod spend x)
    | _ => ([4#8], x)) d

/-- SUBSYSTEM_HEALTH_STATUS_POLL: critical warnings, composite temperature in kelvin, percentage used. -/
def miSubsystemHealth (d : Dev) : Dev :=
  mctpServe 4 (fun x => ([0#8] ++ leBytes 1 (critWarning x) ++ leBytes 2 (compositeK x) ++ leBytes 1 (pctUsed x), x)) d

/-- CONTROLLER_HEALTH_STATUS_POLL of one controller: RDY, CFS, SHST, temperature, percentage used, spare, critical warnings. -/
def miControllerHealth (id : Nat) (d : Dev) : Dev :=
  mctpServe 4 (fun x =>
    let k := ctrlOfId id
    if 1 ≤ id ∧ ctrlPresent x k.1 k.2 then
      let c := ctrlGet x k.1 k.2
      let csts := bitsOf [c.rdy, c.cfs] + 4 * c.shst
      ([0#8] ++ leBytes 2 id ++ leBytes 1 csts ++ leBytes 2 (compositeK x) ++ leBytes 1 (pctUsed x)
        ++ leBytes 1 (((packs x).map (fun p => spareOf x p)).foldl min 10000 / 100) ++ leBytes 1 (critWarning x), x)
    else ([4#8], x)) d

/-- CONFIGURATION_GET: 3 is the MCTP transmission unit; another configuration reads its last set value, or a free one. -/
def miConfigGet (id : Nat) (d : Dev) : Dev :=
  mctpServe 4 (fun x =>
    if id = 3 then ([0#8] ++ leBytes 2 x.mgmt.unitBytes, x)
    else match tabGet x.mgmt.cfg id with
      | some v => ([0#8] ++ leBytes 4 v, x)
      | none => ([0#8] ++ leBytes 4 (Config.freeNat x.hw.free), hwMod spend x)) d

/-- CONFIGURATION_SET: the transmission unit is 64 bytes, or 256 on I3C (R488). -/
def miConfigSet (id v : Nat) (d : Dev) : Dev :=
  mctpServe 4 (fun x =>
    if id = 3 then
      if v = 64 ∨ (v = 256 ∧ x.mgmt.i3c = true) then ([0#8], mgMod (fun m => { m with unitBytes := v }) x) else ([4#8], x)
    else ([0#8], mgMod (fun m => { m with cfg := tabPut m.cfg id v }) x)) d

/-- A byte of the vital product data. -/
def vpdAt (d : Dev) (a : Nat) : Byte := tabGetD d.mgmt.vpd a (Config.vpdByte a)

/-- VPD_READ. -/
def miVpdRead (off len : Nat) (d : Dev) : Dev :=
  mctpServe 4 (fun x => ([0#8] ++ (List.range len).map (fun i => vpdAt x (off + i)), x)) d

/-- VPD_WRITE. -/
def miVpdWrite (off : Nat) (bs : List Byte) (d : Dev) : Dev :=
  mctpServe 4 (fun x => ([0#8], mgMod (fun m => { m with vpd := cellsPut off bs m.vpd }) x)) d

/-! MGMT registers (R493). -/

/-- MGMT_RX_RELEASE: the receive buffer is free. -/
def rxctlWrite (v : Word) (d : Dev) : Dev := if bit v 30 then mgMod (fun m => { m with rx := none }) d else d

/-- A write of MGMT_TXCTL: TYPE and LEN are kept, and GO sends the transmit buffer unless one is being sent. With GO, a LEN of 0 gives ZERO_LEN
and changes nothing (R15, Table 16.19: the write is answered with it, DEDUCED, log entry 39); one above 4,224 sends nothing. -/
def txctlWrite (v : Word) (d : Dev) : Status × Dev :=
  let n := fld v 0 16
  let d1 := hwMod (fun h => md h R.MGMT_TXCTL (fun w => rwWrite 0x00FFFFFF#32 w v)) d
  if bit v 31 && !d.mgmt.txBusy then
    if n = 0 then (.zeroLen, d) else (.ok, if n ≤ 4224 then mgMod (fun m => { m with txBusy := true }) d1 else d1)
  else (.ok, d1)

/-- Bytes of the transmit buffer. -/
def txBytes (h : Hw) (n : Nat) : List Byte := (((List.range ((n + 3) / 4)).map (fun i => leBytes 4 (rd h (R.MGMT_TXBUF i)).toNat)).flatten).take n

/-- MGMT_TX_DONE: the message has been sent. -/
def txDone (d : Dev) : Dev :=
  if d.mgmt.txBusy then
    let c := rd d.hw R.MGMT_TXCTL
    hwMod (fun h => irq h irqMgmt 1)
      (mgMod (fun m => { m with txBusy := false, lastTx := some (fld c 16 8, txBytes d.hw (fld c 0 16)) }) d)
  else d

/-- The endpoint returns to SMBus operation; MODE is set where that is a change (R488). -/
def toSmbus (d : Dev) : Dev :=
  if d.mgmt.i3c then hwMod (fun h => irq h irqMgmt 4) (mgMod (fun m => { m with i3c := false, i3cAddr := 0, unitBytes := 64 }) d) else d

/-- A write of MGMT_CTRL: FW_READY and I3C_EN are kept, I3C_EN = 0 returns to SMBus, ALERT sets the pending alert (Table 16.16). -/
def mgCtrlWrite (v : Word) (d : Dev) : Dev :=
  let d1 := hwMod (fun h => md h R.MGMT_CTRL (fun w => rwWrite 3#32 w v)) d
  let d2 := if bit v 1 then d1 else toSmbus d1
  if bit v 2 then mgMod (fun m => { m with alert := true }) d2 else d2

/-- ALERT_RESPONSE_READ: a read of the SMBus Alert Response Address ends the pending alert. -/
def alertRead (d : Dev) : Dev := if d.mgmt.ready then mgMod (fun m => { m with alert := false }) d else d

/-- I3C_ADDRESS_ASSIGN: SETDASA or ENTDAA enters I3C operation, while I3C_EN = 1. -/
def i3cAssign (addr : Nat) (d : Dev) : Dev :=
  if d.mgmt.ready && bit (rd d.hw R.MGMT_CTRL) 1 then
    let d1 := mgMod (fun m => { m with i3c := true, i3cAddr := addr % 128 }) d
    if d.mgmt.i3c then d1 else hwMod (fun h => irq h irqMgmt 4) d1
  else d

/-- MCTP_PACKET_ERROR: BUS_ERR is set. -/
def packetError (d : Dev) : Dev := if d.mgmt.ready then hwMod (fun h => irq h irqMgmt 2) d else d

/-- MGMT_STAT (Table 16.17). -/
def mgStat (d : Dev) : Word :=
  let m := d.mgmt
  let addr := if m.i3c then m.i3cAddr else fld (rd d.hw R.MGMT_ADDR) 0 7
  BitVec.ofNat 32 ((if m.ready then 2147483648 else 0) + (if m.i3c then 1073741824 else 0) + (if m.alert then 536870912 else 0)
    + m.eid % 256 * 256 + addr)

/-- MGMT_RXCTL (Table 16.19). -/
def rxctl (d : Dev) : Word :=
  match d.mgmt.rx with
  | some m => BitVec.ofNat 32 (2147483648 + m.type % 256 * 65536 + m.bytes.length % 65536)
  | none => 0#32

/-- MGMT_TXCTL (Table 16.19). -/
def txctl (d : Dev) : Word := putBit (rd d.hw R.MGMT_TXCTL) 30 d.mgmt.txBusy

/-- A write to a register of the MGMT block at offset `o` (R493). -/
def mgmtWrite (o : Nat) (v : Word) (d : Dev) : Dev :=
  match o with
  | 0x00 => mgCtrlWrite v d
  | 0x04 => if bit v 29 then mgMod (fun m => { m with alert := false }) d else d
  | 0x08 => hwMod (fun h => irqClear h irqMgmt 0x1F#32 v) d
  | 0x0C => hwMod (fun h => irqEnable h irqMgmt 0x1F#32 v) d
  | 0x10 => if fwReady d then d else hwMod (fun h => wr h R.MGMT_ADDR (v &&& 0x7F#32)) d
  | 0x20 => rxctlWrite v d
  | 0x24 => (txctlWrite v d).2
  | 0x28 => hwMod (fun h => wr h R.MGMT_TXDST (v &&& 0x7FF#32)) d
  | _ => if 0x3000 ≤ o ∧ o < 0x5000 then hwMod (fun h => wr h (R.MGMT + o) v) d else d

/-! Output balls of the control rows (Table 17.10): what the registers put on them. -/

/-- MGMT_ALERT_N is driven low while an alert is pending (R488). -/
def alertLow (d : Dev) : Bool := d.mgmt.alert

/-- EVT_INT_N is driven low while EVREC_INT_STAT.PIN is 1 (R492). -/
def evtIntLow (d : Dev) : Bool := bit (rd d.hw R.EVREC_INT_STAT) 5

/-- LED[j] sinks current while its bit of ID_GPIO_OUT is 1 (Table 17.16). -/
def ledLit (j : Nat) (d : Dev) : Bool := decide (j < 4) && bit (rd d.hw R.ID_GPIO_OUT) (16 + j)

/-! SPDM (R392). Message codes are DSP0274's; a response is its header and the values the spec gives, in the model's order (log entry 37). -/

/-- An SPDM message: version, code, two parameters and a payload. -/
def spdmMsg (d : Dev) (code p1 p2 : Nat) (bs : List Byte) : List Byte :=
  leBytes 1 (if d.sec.spdmVersion = 0 then 0x10 else d.sec.spdmVersion) ++ leBytes 1 code ++ leBytes 1 p1 ++ leBytes 1 p2 ++ bs

/-- An SPDM ERROR response. -/
def spdmErr (d : Dev) (e : Nat) : List Byte := spdmMsg d 0x7F e 0 []

/-- A request answered over the path it came by. -/
def spdmServe (via : Via) (f : Dev → List Byte × Dev) (d : Dev) : Dev :=
  match via with
  | .mctp => mctpServe 5 f d
  | .host c => adminGate c (fun x => let r := f x; adminDone c .success 0 (asData r.1) r.2) d

/-- A request that needs a connection state; out of order it is answered Unexpected Request. -/
def spdmFrom (need : Nat) (f : Dev → List Byte × Dev) (d : Dev) : List Byte × Dev :=
  if need ≤ d.sec.spdmState then f d else (spdmErr d 4, d)

/-- The device with the SPDM version and connection state set. -/
def spdmSet (version state : Nat) (d : Dev) : Dev := { d with sec := { d.sec with spdmVersion := version, spdmState := state } }

/-- GET_VERSION: 1.0, 1.1 and 1.2. -/
def spdmGetVersion (via : Via) (d : Dev) : Dev :=
  spdmServe via (fun x =>
    let y := spdmSet 0 1 x
    (spdmMsg y 0x04 0 0 [3#8, 0x10#8, 0x11#8, 0x12#8], y)) d

/-- GET_CAPABILITIES at a version: certificates, challenges and signed measurements; no key exchange, PSK or session. -/
def spdmGetCapabilities (via : Via) (version : Nat) (d : Dev) : Dev :=
  spdmServe via (spdmFrom 1 (fun x =>
    if version = 0x10 ∨ version = 0x11 ∨ version = 0x12 then
      let y := spdmSet version 2 x
      (spdmMsg y 0x61 0 0 [0x16#8], y)
    else (spdmErr x 0x41, x))) d

/-- NEGOTIATE_ALGORITHMS: ECDSA P-384 with SHA-384, and SHA-384 for measurements; a request without them is invalid. -/
def spdmNegotiate (via : Via) (p384 sha384 : Bool) (d : Dev) : Dev :=
  spdmServe via (spdmFrom 2 (fun x =>
    if p384 && sha384 then
      let y := spdmSet x.sec.spdmVersion 3 x
      (spdmMsg y 0x63 0 0 [0x80#8, 0x02#8, 0x02#8], y)
    else (spdmErr x 1, x))) d

/-- The certificate chain of slot 0 as provisioned: `n` bytes from an offset (Table 14.1, log entry 28). -/
def certBytes (d : Dev) (off n : Nat) : List Byte := rindBytes d.hw.rind d.hw.free (141 * 65536 + 4 + off) n

/-- Length of the certificate chain. -/
def certLen (d : Dev) : Nat := min 131068 (leNat (rindBytes d.hw.rind d.hw.free (141 * 65536) 4))

/-- SHA-384 of the certificate chain. -/
def certDigest (d : Dev) : List Byte := leBytes 48 (Config.sha384 (certBytes d 0 (certLen d))).toNat

/-- GET_DIGESTS: slot 0 only. -/
def spdmGetDigests (via : Via) (d : Dev) : Dev :=
  spdmServe via (spdmFrom 3 (fun x => (spdmMsg x 0x01 0 1 (certDigest x), x))) d

/-- GET_CERTIFICATE: a portion of the slot-0 chain. -/
def spdmGetCertificate (via : Via) (slot off len : Nat) (d : Dev) : Dev :=
  spdmServe via (spdmFrom 3 (fun x =>
    if slot ≠ 0 ∨ certLen x < off then (spdmErr x 1, x)
    else
      let n := min len (certLen x - off)
      (spdmMsg x 0x02 0 0 (leBytes 2 n ++ leBytes 2 (certLen x - off - n) ++ certBytes x off n), x))) d

/-- A response that is signed needs random data: the request is served while the DRBG generates and waits otherwise, its way being open and
its connection state reached (R380). -/
def spdmSignedServe (h : RndHeld) (via : Via) (f : Dev → List Byte × Dev) (d : Dev) : Dev :=
  let open_ := match via with
    | .mctp => d.mgmt.ready && fwReady d && d.mgmt.rx.isNone
    | .host c => adminUp c d
  if open_ && decide (3 ≤ d.sec.spdmState) && d.sec.attestKey then rndGate h (spdmServe via (spdmFrom 3 f)) d
  else spdmServe via (spdmFrom 3 f) d

/-- A signed response: the message and the attestation key's signature over the nonce and it; with the key erased, ERROR Unspecified. -/
def spdmSigned (d : Dev) (nonce : List Byte) (msg : List Byte) : List Byte :=
  if d.sec.attestKey then msg ++ leBytes 96 (Config.attestSign (nonce ++ msg)).toNat else spdmErr d 5

/-- CHALLENGE on slot 0: a response signed with the device attestation key. -/
def spdmChallenge (via : Via) (slot : Nat) (nonce : List Byte) (d : Dev) : Dev :=
  if slot ≠ 0 then spdmServe via (spdmFrom 3 (fun x => (spdmErr x 1, x))) d
  else spdmSignedServe (.spdmChallenge via slot nonce) via (fun x => (spdmSigned x nonce (spdmMsg x 0x03 0 1 (certDigest x)), x)) d

/-- The content of a measurement (Table 12.6). -/
def measurement (d : Dev) (i : Nat) : List Byte :=
  let taken := leBytes 48 (tabGetD d.sec.measures i 0#384).toNat
  match i with
  | 2 => taken ++ leBytes 4 d.sj.writer ++ leBytes 1 d.boot.image
  | 4 => leBytes 4 (idPart d.fuse).toNat ++ leBytes 4 (idCap0 d.fuse).toNat ++ leBytes 4 (idCap1 d.fuse).toNat
      ++ leBytes 2 d.fuse.revoked.toNat ++ leBytes 1 (if hasCrypto d.fuse then d.fuse.epochLeft else 0)
  | 5 => leBytes 1 (bitsOf [d.sec.dbg.unlocked, bit (rd d.hw R.COLLAR_CTRL) 0, bit (rd d.hw R.COLLAR_CTRL) 1])
  | _ => taken

/-- GET_MEASUREMENTS: index 0 asks for their number, 0xFF for all. -/
def spdmGetMeasurements (via : Via) (i : Nat) (signed : Bool) (nonce : List Byte) (d : Dev) : Dev :=
  let f := fun (x : Dev) =>
    let reply := fun (p1 : Nat) (bs : List Byte) =>
      let m := spdmMsg x 0x60 p1 0 bs
      (if signed then spdmSigned x nonce m else m, x)
    if i = 0 then reply 5 []
    else if i = 0xFF then reply 0 ((List.range 5).map (fun k => leBytes 1 (k + 1) ++ measurement x (k + 1))).flatten
    else if i ≤ 5 then reply 0 (leBytes 1 i ++ measurement x i)
    else (spdmErr x 1, x)
  if signed && (decide (i ≤ 5) || decide (i = 0xFF)) then spdmSignedServe (.spdmMeasurements via i nonce) via f d
  else spdmServe via (spdmFrom 3 f) d

/-! The TAP (R490). -/

/-- The TAP's record changed. -/
def tapMod (f : Jtag → Jtag) (d : Dev) : Dev := { d with jtag := f d.jtag }

/-- An instruction of the TAP that selects the boundary-scan or the bypass register: how the balls are driven and the levels captured. -/
def tapScan (ir : Nat) (extest clamp highz : Bool) (d : Dev) : Dev :=
  tapMod (fun j => { j with ir := ir, extest := extest, clamp := clamp, highz := highz }) d

/-- JTAG_EXTEST: the levels at the balls are captured and the shifted-in cells drive them. -/
def jtagExtest (levels cells : List (Nat × Bool)) (d : Dev) : Dev :=
  tapMod (fun j => { j with scanIn := levels, preload := cells }) (tapScan 0x00 true false false d)

/-- JTAG_IDCODE: 0x489_664B or 0x486_464B below STEP_MAJOR (R490). -/
def idcode (d : Dev) : Nat :=
  d.fuse.stepMajor % 16 * 268435456 + (match d.fuse.variant with | .mx => 0x486464B | _ => 0x489664B)

/-- JTAG_IDCODE: the data register holds IDCODE (R490). -/
def jtagIdcode (d : Dev) : Dev := tapMod (fun j => { j with dr := idcode d }) (tapScan 0x01 false false false d)

/-- JTAG_SAMPLE_PRELOAD: the levels are captured and the cells preloaded; the balls keep their own drivers. -/
def jtagSample (levels cells : List (Nat × Bool)) (d : Dev) : Dev :=
  tapMod (fun j => { j with scanIn := levels, preload := cells }) (tapScan 0x02 false false false d)

/-- JTAG_CLAMP: the preloaded outputs hold and bypass is selected. -/
def jtagClamp (d : Dev) : Dev := tapMod (fun j => { j with dr := 0 }) (tapScan 0x03 false true false d)

/-- JTAG_HIGHZ: the outputs are released and bypass is selected. -/
def jtagHighz (d : Dev) : Dev := tapMod (fun j => { j with dr := 0 }) (tapScan 0x04 false false true d)

/-- JTAG_BYPASS. -/
def jtagBypass (d : Dev) : Dev := tapMod (fun j => { j with dr := 0 }) (tapScan 0x3F false false false d)

/-- A capture at DBG_CHAL draws its challenge (R491). -/
def captureDraw (d : Dev) : Dev :=
  let q := drbgDraw d.sec
  let ch := BitVec.ofNat 512 (leNat (chalBytes d q.1))
  tapMod (fun j => { j with dr := ch.toNat }) { d with sec := { q.2 with dbg := { q.2.dbg with jtagChal := some ch } } }

/-- DBG_CHAL: a capture draws a new challenge, once the DRBG generates (R380, R491). -/
def jtagChallenge (d : Dev) : Dev := rndGate .capture captureDraw (tapScan 0x10 false false false d)

/-- A JTAG response's verify starts: ROLE 3, with the key of the key area (R491). -/
def jtagVerify (chal : Option (BitVec 512)) (resp : BitVec 768) (d : Dev) : Dev :=
  let sig := (leBytes 96 resp.toNat).reverse
  let st := match chal with | some c => debugVerify d c sig | none => .reject
  { d with hw := md d.hw R.SIGV_STAT (fun w => setBit w 31)
           sec := { d.sec with verify := some { result := st, reason := 0, jtag := true } } }

/-- DBG_RESP: an update spends the challenge and runs one verify, after any verify already running; with attempts locked nothing is
verified (R73, R491). -/
def jtagResponse (resp : BitVec 768) (d : Dev) : Dev :=
  let d0 := tapScan 0x11 false false false d
  if debugLocked d0 then d0
  else
    let chal := d0.sec.dbg.jtagChal
    let d1 := { d0 with sec := { d0.sec with dbg := { d0.sec.dbg with jtagChal := none } } }
    if d1.sec.verify.isSome then tapMod (fun j => { j with resp := some (chal, resp) }) d1 else jtagVerify chal resp d1

/-- SIGV_VERIFY_DONE: the running verify ends; a JTAG response's result unlocks or counts, and one that waited starts (R381, R491). -/
def verifyDone (d : Dev) : Dev :=
  match d.sec.verify with
  | none => d
  | some v =>
    let d1 := if v.jtag then
        let h1 := md d.hw R.SIGV_STAT (fun o => (o &&& 0x40000000#32) ||| BitVec.ofNat 32 (v.result.code * 16777216))
        debugResult 1 v.result { d with hw := irq h1 irqSigv 0, sec := { d.sec with verify := none } }
      else sigvDone d
    match d1.jtag.resp with
    | some (c, r) => jtagVerify c r (tapMod (fun j => { j with resp := none }) d1)
    | none => d1

/-- DBG_STAT: unlocked, verify busy, failures (Table 16.5). -/
def jtagStat (d : Dev) : Dev :=
  let busy := (match d.sec.verify with | some v => v.jtag | none => false) || d.jtag.resp.isSome
  let v := bitsOf [d.sec.dbg.unlocked, busy] + 4 * min 3 d.sec.dbg.failures
  tapMod (fun j => { j with dr := v }) (tapScan 0x12 false false false d)

/-- DMI: while debug is locked it reads 0 and ignores writes; unlocked, a write is taken and a read returns what the core debug module
shows, which the spec does not give: a free value (R491, log entry 40). -/
def jtagDmi (addr : Nat) (write : Bool) (v : Word) (d : Dev) : Dev :=
  let d0 := tapScan 0x13 false false false d
  if !d.sec.dbg.unlocked then tapMod (fun j => { j with dr := 0 }) d0
  else if write then tapMod (fun j => { j with dm := tabPut j.dm addr v, dr := v.toNat }) d0
  else hwMod spend (tapMod (fun j => { j with dr := Config.freeNat d.hw.free % 4294967296 }) d0)

/-! A reseed of the DRBG, at which what waited for it goes on (R380). -/

/-- A command that waited for the DRBG. -/
def rndRun (h : RndHeld) (d : Dev) : Dev :=
  match h with
  | .challenge c => debugChallenge c d
  | .capture => rndGate .capture captureDraw d
  | .spdmChallenge via slot nonce => spdmChallenge via slot nonce d
  | .spdmMeasurements via i nonce => spdmGetMeasurements via i true nonce d
  | .create c zoned nsze width kpio handles => nsCreate c zoned nsze width kpio handles d
  | .format c nsid => formatNvm c nsid 2 d
  | .sanitize c => sanitizeCrypto c d

/-- DRBG_RESEED: after the vault's commands, the others that waited run in their order. -/
def drbgDue (healthy : Bool) (d : Dev) : Dev :=
  let d1 := reseed healthy d
  if healthy then d1.host.rndHeld.foldl (fun x h => rndRun h x) { d1 with host := { d1.host with rndHeld := [] } } else d1

/-! The event recorder's registers (R481, R492). -/

/-- EVREC_PRSP after a post (Table 16.13). -/
def prspOf (o : PostOut) : Word :=
  match o with
  | .range => 0x20000000#32 | .dropped => 0x42000000#32 | .suppressed => 0x04000000#32 | .stored => 0#32

/-- EVENT_POST: a post by a unit (SOURCE 0x100 + slot), the boot ROM (0x200) or a master, whose response register takes the outcome. -/
def eventPost (source code sev : Nat) (cont : Bool) (a0 a1 a2 : Word) (d : Dev) : Dev :=
  let r := evPost d.hw source code sev cont a0 a1 a2
  { d with hw := if source < 128 then mwr r.2 R.EVREC_PRSP source (prspOf r.1) else r.2 }

/-- A master's write of EVREC_POST completes its item (R347, R348, R481). -/
def postWrite (m : Nat) (v : Word) (d : Dev) : Status × Dev :=
  match itemComplete d.hw 6 m with
  | (none, h) => (.flushed, { d with hw := h })
  | (some x, h) =>
    (.ok, eventPost m (fld v 23 9) (fld v 20 3) (bit v 19) (itemArg x 0x20) (itemArg x 0x24) (itemArg x 0x28) { d with hw := h })

/-- A write of EVREC_CTRL: its RW bits, then CLEAR, then FLUSH (Tables 16.3, 16.7). -/
def evrecCtrlWrite (v : Word) (d : Dev) : Dev :=
  let h1 := md d.hw R.EVREC_CTRL (fun w => rwWrite 0x7701#32 w v)
  let h2 := if bit v 2 then evClear h1 else h1
  { d with hw := if bit v 1 then evFlush h2 else h2 }

/-- The code that EVREC_RL_SEL selects. -/
def rlSel (d : Dev) : Nat := fld (rd d.hw R.EVREC_RL_SEL) 0 9

/-- EVREC_RL_WRITE: rate and burst of the selected code (R482). -/
def rlWrite (v : Word) (d : Dev) : Dev := hwMod (rateSet (rlSel d) (fld v 0 16) (fld v 16 16)) d

/-- EVREC_RL (Table 16.14). -/
def evRl (d : Dev) : Word := let b := tabGetD d.hw.ev.buckets (rlSel d) Bucket.init; BitVec.ofNat 32 (b.burst * 65536 + b.rate)

/-- EVREC_RL_SUPP (Table 16.14). -/
def evSupp (d : Dev) : Word := BitVec.ofNat 32 (tabGetD d.hw.ev.buckets (rlSel d) Bucket.init).supp

/-- EVREC_STAT (Table 16.8). A flush or a clear is one step of the model, so neither shows as running. -/
def evStat (d : Dev) : Word :=
  let e := d.hw.ev
  BitVec.ofNat 32 ((if e.full then 536870912 else 0) + (if e.scanned then 268435456 else 0) + e.buf.length % 4096 * 65536 + e.valid % 16384)

/-- EVREC_REGION_SCAN: valid records are counted and recording stops where the region is full; a flush whose trigger came during the
scan starts now (R484, R485). -/
def regionScan (d : Dev) : Dev :=
  let h := d.hw
  if h.ev.scanned then d
  else
    let stop := decide (8192 ≤ evUsed h + h.ev.buf.length)
    let h1 := { h with ev := { h.ev with scanned := true, valid := evValid h, full := stop } }
    let h2 := irqIf h1 stop irqEvrec 2
    let c := rd h2 R.EVREC_CTRL
    let wm := fld (rd h2 R.EVREC_WM) 0 12
    let due := h.ev.buf.any (fun e => decide (fld c 8 3 ≤ e.sev)) || (decide (wm ≠ 0) && decide (wm ≤ h.ev.buf.length)) || stop
    { d with hw := if due && !h.ev.buf.isEmpty then evFlush h2 else h2 }

/-- A write to a register of the EVREC block at offset `o` (R492). -/
def evrecWrite (o : Nat) (v : Word) (d : Dev) : Dev :=
  match o with
  | 0x00 => evrecCtrlWrite v d
  | 0x08 => hwMod (fun h => irqClear h irqEvrec 0x3F#32 v) d
  | 0x0C => hwMod (fun h => irqEnable h irqEvrec 0x3F#32 v) d
  | 0x10 => hwMod (fun h => wr h R.EVREC_WM (v &&& 0xFFF#32)) d
  | 0x40 => hwMod (fun h => wr h R.EVREC_RL_SEL (v &&& 0x1FF#32)) d
  | 0x44 => rlWrite v d
  | _ => d

end Sys2Proof.Machine
end

