-- ==== Sys2Proof/Machine/Access.lean ====
section
/-!
DEFINITION. Control-space accesses (R23–R25, R33–R37, R523): the checks in their order, the register write and read of every block, memory
and window accesses, and the responses that masters and cores receive.
-/

namespace Sys2Proof.Machine

/-! Register writes, block by block. -/

/-- Interrupt registers of a block by its slot: its lines and the mask of the bits it has. -/
def slotIrq (s : Nat) : Option (IrqBlock × Word) :=
  match s with
  | 5 => some (irqRind, 0x3F#32) | 7 => some (irqCurd, 0xFFFF#32) | 8 => some (irqMemchk, 0x3F#32)
  | 9 => some (irqDramc, 0x3F#32) | 10 => some (irqKv, 0x3F#32) | 11 => some (irqSigv, 0xF#32)
  | 13 => some (irqHerder, 0x7F#32) | 14 => some (irqMapu, 0x1FFF#32) | 15 => some (irqAffineur, 0xFF#32)
  | 18 => some (irqXoru, 0x7F#32) | 19 => some (irqLdpc, 0x3F#32)
  | _ =>
    if 32 ≤ s ∧ s < 36 then some (irqCipher (s - 32), 0xF#32)
    else if 64 ≤ s ∧ s < 112 then some (irqFch (s - 64), 0x7F07#32)
    else if 128 ≤ s ∧ s < 152 then some (irqDet (s - 128), 0x1F0F#32)
    else none

/-- A write to a register without further behaviour: its RW bits take the value, its W1C bits clear, and the interrupt registers of its
block act on their lines (R13, R14, R406). -/
def plainWrite (a : Nat) (v : Word) (d : Dev) : Dev :=
  match slotIrq (regSlot a) with
  | some (blk, mask) =>
    if a = blk.st then hwMod (fun h => irqClear h blk mask v) d
    else if a = blk.en then hwMod (fun h => irqEnable h blk mask v) d
    else match regRow a with
      | some r => hwMod (fun h => md h a (fun w => w1cWrite r.w1c (rwWrite r.rw w v) v)) d
      | none => d
  | none => match regRow a with
    | some r => hwMod (fun h => md h a (fun w => w1cWrite r.w1c (rwWrite r.rw w v) v)) d
    | none => d

/-- WHISTLE (R405, R407, R411, R413, R416, Table 13.6). -/
def whistleWrite (o : Nat) (v : Word) (d : Dev) : Dev :=
  if 0x400 ≤ o ∧ o < 0x440 then xcfgWrite (o % 0x100 / 4) v d
  else if 0x1100 ≤ o ∧ o < 0x1180 then pendSetWrite (o % 0x100 / 4) v d
  else if 0x1200 ≤ o ∧ o < 0x1280 then pendClear d (o % 0x100 / 4) v
  else if 0x2000 ≤ o ∧ o < 0x2080 then maskWrite (o % 0x100 / 4) 0 v d
  else if 0x2100 ≤ o ∧ o < 0x2180 then maskWrite (o % 0x100 / 4) 1 v d
  else if 0x2200 ≤ o ∧ o < 0x2280 then maskWrite (o % 0x100 / 4) 2 v d
  else if 0x4000 ≤ o ∧ o < 0x5000 then routeWrite (o % 0x1000 / 4) v d
  else if 0x8000 ≤ o ∧ o < 0x8400 ∧ o % 0x20 = 0 then threshWrite (o % 0x400 / 0x20) v d
  else if 0xA000 ≤ o ∧ o < 0xA080 then (if o % 8 = 0 then cmpLoWrite (o % 0x100 / 8) v d else cmpHiWrite (o % 0x100 / 8) v d)
  else if 0xA100 ≤ o ∧ o < 0xA140 then msipWrite (o % 0x100 / 4) v d
  else d

/-- RIND (R446, Table 14.10). -/
def rindWrite (m o : Nat) (v : Word) (d : Dev) : Dev :=
  match o with
  | 0x00 => rindCmd (fld v 28 4) d
  | 0x18 => hwMod (fun h => wr h R.RIND_PW_LO v) d
  | 0x1C => hwMod (fun h => wr h R.RIND_PW_HI v) d
  | 0x20 => rdstatWrite m v d
  | 0x30 => bootCtlWrite v d
  | 0x34 => watchdogStop v d
  | _ => plainWrite (R.RIND + o) v d

/-- CURD (R361, Table 11.5); the class registers ignore writes while EN = 1 (R337). -/
def curdWrite (m o : Nat) (v : Word) (d : Dev) : Status × Dev :=
  match o with
  | 0x00 => (.ok, curdCtrlWrite v d)
  | 0x10 => curdCmdWrite m v d
  | 0x14 | 0x18 => let r := itemWrite d.hw 7 m o v; (r.1, { d with hw := r.2 })
  | 0x24 => (.ok, curdFlush (fld v 0 7) d)
  | _ => (.ok, if 0x100 ≤ o ∧ bit (rd d.hw R.CURD_CTRL) 0 then d else plainWrite (R.CURD + o) v d)

/-- MEMCHK (R362, Table 11.19). A bare write of ABORT stops the scrub after a free number of lines. -/
def memchkWrite (o : Nat) (v : Word) (d : Dev) : Dev :=
  match o with
  | 0x4C =>
    let d1 := if bit v 0 then scrubGo d else d
    if bit v 1 then scrubAbort (Config.freeNat d1.hw.free) (hwMod spend d1) else d1
  | 0x94 => if fld v 0 2 = 1 then testWrite d else if fld v 0 2 = 2 then testRead d else d
  | _ => plainWrite (R.MEMCHK + o) v d

/-- DRAMC (R363, Table 11.33). -/
def dramcWrite (o : Nat) (v : Word) (d : Dev) : Dev :=
  match o with
  | 0x00 => dramcCtrlWrite v d
  | 0x10 => if bit (rd d.hw R.DRAMC_CTRL) 0 then d else plainWrite R.DRAMC_CFG v d
  | _ => plainWrite (R.DRAMC + o) v d

/-- KEYVAULT (R394, Table 12.7). -/
def kvWrite (m o : Nat) (v : Word) (d : Dev) : Status × Dev :=
  match o with
  | 0x00 => (.ok, kvCtrlWrite v d)
  | 0x10 => kvCmdWrite m v d
  | 0x14 | 0x18 | 0x1C => let r := itemWrite d.hw 10 m o v; (r.1, { d with hw := r.2 })
  | _ => (.ok, plainWrite (R.KEYVAULT + o) v d)

/-- HOSTIF (R78, Table 2.13). -/
def hostifRegWrite (m o : Nat) (v : Word) (d : Dev) : Status × Dev :=
  match o with
  | 0x00 => (.ok, hostifCtrlWrite v d)
  | 0x04 => (.ok, fwUpWrite v d)
  | 0x88 => (.ok, cctlWrite v d)
  | 0x90 | 0x94 | 0x98 => let r := itemWrite d.hw 12 m o v; (r.1, { d with hw := r.2 })
  | 0x9C => completionPost m v d
  | _ => (.ok, hostifWrite o v d)

/-- A write of MAPU_CTRL: EN, then REKEY, then JFLUSH, which stays set until the flush completes (Table 9.9). -/
def mapuCtrlWrite (v : Word) (d : Dev) : Dev :=
  let d1 := mapuEnable (bit v 0) d
  let d2 := if bit v 1 then mapuRekey d1 else d1
  if bit v 2 then jFlush { d2 with hw := md d2.hw R.MAPU_CTRL (fun w => setBit w 2) } else d2

/-- CIPHERk (R379, R395, Table 12.17). -/
def cipherWrite (k m o : Nat) (v : Word) (d : Dev) : Status × Dev :=
  if 0x10 ≤ o ∧ o ≤ 0x40 ∧ o % 4 = 0 then
    let r := itemWrite d.hw (32 + k) m o v
    (r.1, { d with hw := r.2 })
  else if o = 0x44 then jgoWrite k m d
  else (.ok, plainWrite (R.CIPHER k + o) v d)

/-- FCHnn, with the pacer registers of FCH00 (R148, R164, R173, Table 5.7). -/
def fchWrite (c o : Nat) (v : Word) (d : Dev) : Dev :=
  if o = 0 then fchCtrlWrite c v d
  else if o = 0x10 then fchDriveWrite c v d
  else if 0x1000 ≤ o ∧ o < 0x2000 then profWrite c (o % 0x1000 / 4) v d
  else if c = 0 ∧ o = 0x8000 then paceLimitWrite v d
  else if c = 0 ∧ o = 0x8010 then bringupWrite v d
  else plainWrite (R.FCH c + o) v d

/-- DETnn, with the pool registers of DET00 (R203, Table 6.14). -/
def detWrite (n o : Nat) (v : Word) (d : Dev) : Dev :=
  if o = 0 then detCtrlWrite n v d
  else if n = 0 ∧ (o = 0x8010 ∨ o = 0x8014) then (if anyDetEn d then d else plainWrite (R.DET n + o) v d)
  else if n = 0 ∧ o = 0x8000 then detWake (plainWrite (R.DET n + o) v d)
  else if n = 0 ∧ o = 0x8018 then binInval v d
  else if n = 0 ∧ o = 0x8020 then detProfWrite v d
  else plainWrite (R.DET n + o) v d

/-- A write of HERDER_RBRATE_p or HERDER_RBBURST_p: the balance has filled at the old rate, to the old burst, until now (R135). -/
def rbWrite (o a : Nat) (v : Word) (d : Dev) : Dev :=
  let p := (o - 0x20) / 0x10
  plainWrite a v { d with fl := { d.fl with balance := tabPut d.fl.balance p (balNow d p, d.hw.time.toNat) } }

/-- A step from `d` to `e` that has moved a detector's domain: where the others that are ON are full, one in RET wakes (R198). -/
def detMoved (n : Nat) (d e : Dev) : Dev :=
  if 49 ≤ n ∧ n ≤ 72 ∧ (domGet d.pwr n).st ≠ (domGet e.pwr n).st then detWake e else e

/-- A write of a PWR register; a mode written may take a detector out of ON. -/
def pwrRegWrite (o : Nat) (v : Word) (d : Dev) : Dev :=
  if 0x1000 ≤ o ∧ o < 0x1C00 ∧ o % 0x20 = 0 then detMoved (o % 0x1000 / 0x20) d (pwrWrite o v d) else pwrWrite o v d

/-- The effect of a register write by master `m` at its target, in a present block behind an open gate. -/
def regWriteAt (m a : Nat) (v : Word) (d : Dev) : Status × Dev :=
  let s := regSlot a
  let o := a % 0x10000
  match s with
  | 1 => (.ok, collarWrite o v d)
  | 2 => (.ok, whistleWrite o v d)
  | 3 => (.ok, pwrRegWrite o v d)
  | 4 => (.ok, thermWrite o v d)
  | 5 => (.ok, rindWrite m o v d)
  | 6 =>
    if o = 0x2C then postWrite m v d
    else if o = 0x20 ∨ o = 0x24 ∨ o = 0x28 then let r := itemWrite d.hw 6 m o v; (r.1, { d with hw := r.2 })
    else (.ok, evrecWrite o v d)
  | 7 => curdWrite m o v d
  | 8 => (.ok, memchkWrite o v d)
  | 9 => (.ok, dramcWrite o v d)
  | 10 => kvWrite m o v d
  | 11 => (.ok, if o = 0 then sigvCtrlWrite m v d else plainWrite a v d)
  | 12 => hostifRegWrite m o v d
  | 13 => (.ok, if 0x20 ≤ o ∧ o < 0x50 ∧ o % 0x10 < 8 then rbWrite o a v d else plainWrite a v d)
  | 14 => (.ok, if o = 0 then mapuCtrlWrite v d else plainWrite a v d)
  | 15 => (.ok, if o = 0 then affCtrlWrite v d
      else if o = 0x10 ∧ (fld v 0 8 = 0 ∨ 90 < fld v 0 8) then d else plainWrite a v d)
  | 16 => (.ok, holdupWrite o v d)
  | 17 => if o = 0x24 then txctlWrite v d else (.ok, mgmtWrite o v d)
  | 18 => (.ok, if 0x20 ≤ o ∧ packCount d.fuse ≤ (o - 0x20) / 0x10 then d else plainWrite a v d)
  | 19 => (.ok,
    if o = 0 then decAssign (plainWrite a v d) else if o = 0x10 ∧ 64 < fld v 0 7 then plainWrite a (putFld v 0 7 (fld (rd d.hw a) 0 7)) d else plainWrite a v d)
  | _ =>
    if 32 ≤ s ∧ s < 36 then cipherWrite (s - 32) m o v d
    else if 64 ≤ s ∧ s < 112 then (.ok, fchWrite (s - 64) o v d)
    else if 128 ≤ s ∧ s < 152 then (.ok, detWrite (s - 128) o v d)
    else (.ok, plainWrite a v d)

/-! Register reads. -/

/-- Address of the latch that a low word's read fills for a master (R32). -/
def latchRead (lo : Nat) (hi : Nat) (v : Nat) (m : Nat) (d : Dev) : Word × Dev :=
  let _ := lo
  (BitVec.ofNat 32 v, hwMod (fun h => mwr h hi m (BitVec.ofNat 32 (v / 0x100000000))) d)

/-- A response register of an item unit: STATUS reads FLUSHED after a discarded write until this read, and FLUSH_SEEN is cleared by it
(R348). -/
def rspRead (slot a m : Nat) (d : Dev) : Word × Dev :=
  let x := itemGet d.hw slot m
  let w := if x.stFlushed then putFld (mrd d.hw a m) 28 4 8 else mrd d.hw a m
  (putBit w 27 x.seen, hwMod (fun h => itemPut h slot m { x with seen := false, stFlushed := false }) d)

/-- A COLLAR register (R397, Tables 12.33–12.42). -/
def collarRead (d : Dev) (o : Nat) : Word :=
  let t := fld (rd d.hw R.COLLAR_TSEL) 0 9
  let x := collarWin d.sec t (fld (rd d.hw R.COLLAR_WSEL) 0 5)
  let win := fun (w : Word) => if tselOk t then w else 0#32
  let word := fun (b : BitVec 128) (j : Nat) => (b >>> (32 * j)).setWidth 32
  match o with
  | 0x04 => rd d.hw R.COLLAR_CTRL &&& 3#32
  | 0x18 => win (if tabGetD d.sec.defAlarm t false then 1#32 else 0#32)
  | 0x20 => win (BitVec.ofNat 32 x.base)
  | 0x24 => win (BitVec.ofNat 32 (x.base / 0x100000000))
  | 0x28 => win (BitVec.ofNat 32 x.limit &&& 0xFFFFFFC0#32)
  | 0x2C => win (BitVec.ofNat 32 (x.limit / 0x100000000))
  | 0x30 => win (BitVec.ofNat 32 (bitsOf [x.en, x.alarm]))
  | _ =>
    if 0x40 ≤ o ∧ o < 0x50 then win (word x.r ((o - 0x40) / 4))
    else if 0x50 ≤ o ∧ o < 0x60 then win (word x.w ((o - 0x50) / 4))
    else if 0x60 ≤ o ∧ o < 0x70 then win (word x.x ((o - 0x60) / 4))
    else if 0xB0 ≤ o ∧ o < 0xC0 then word d.sec.blocked ((o - 0xB0) / 4)
    else rd d.hw (R.COLLAR + o)

/-- WH_XCFG_i: the configuration with the last sample and the filtered level; the N of input 0 is fixed at 2 (Table 13.8). -/
def xcfgWord (d : Dev) (i : Nat) : Word :=
  let w := rd d.hw (R.WH_XCFG i)
  let n := if i = 0 then putFld w 0 8 2 else w
  putBit (putBit n 31 (extSample d i)) 30 (d.pins.filt.getLsbD i)

/-- A WHISTLE register: aliases are write-only, and a saved context reads 0; a read of WH_CLAIM claims (R407, R409, R416). -/
def whistleRead (o : Nat) (d : Dev) : Word × Dev :=
  let x := o % 0x400 / 0x20
  if o = 4 then (d.wh.saved.setWidth 32, d)
  else if 0x400 ≤ o ∧ o < 0x440 then (xcfgWord d (o % 0x100 / 4), d)
  else if (0x1100 ≤ o ∧ o < 0x1280) ∨ (0x2100 ≤ o ∧ o < 0x2280) then (0#32, d)
  else if 0x8000 ≤ o ∧ o < 0x8400 then
    if d.wh.saved.getLsbD (x / 8) then (0#32, d)
    else if o % 0x20 = 4 then
      let r := whClaim (x / 2) (x % 2) false d
      (match r.1 with | some s => BitVec.ofNat 32 (2147483648 + s) | none => 0#32, r.2)
    else (rd d.hw (R.WHISTLE + o), d)
  else (rd d.hw (R.WHISTLE + o), d)

/-- A PWR register (R475, Tables 15.11–15.17). -/
def pwrRead (m o : Nat) (d : Dev) : Word × Dev :=
  if o = 4 then (pwrStat d, d)
  else if 0x1000 ≤ o ∧ o < 0x1C00 then
    let n := o % 0x1000 / 0x20
    let x := domGet d.pwr n
    if !domPresent d.fuse n then (0#32, d)
    else match o % 0x20 with
      | 0x00 => (if n = 0 then putFld (rd d.hw (R.PWR_DCTRL 0)) 0 2 1 else rd d.hw (R.PWR_DCTRL n), d)
      | 0x04 => (dstat d n, d)
      | 0x10 => (lastWake d n, d)
      | 0x14 => latchRead (R.PWR_LW_TIME_LO n) (R.PWR_LW_TIME_HI n) x.at_.toNat m d
      | 0x18 => (mrd d.hw (R.PWR_LW_TIME_HI n) m, d)
      | _ => (rd d.hw (R.PWR + o), d)
  else (rd d.hw (R.PWR + o), d)

/-- A THERM register (R477, Tables 15.30–15.35). -/
def thermRead (d : Dev) (o : Nat) : Word :=
  if o = 4 then thermStat d
  else if o = 0x18 ∧ !triple d then 0xA87#32
  else if 0x40 ≤ o ∧ o < 0x70 then thermSens d ((o - 0x40) / 4)
  else if o = 0x84 then thermChVal d
  else if o = 0x88 then thermChPause d
  else rd d.hw (R.THERM + o)

/-- RIND_BOOTCTL (Table 14.18). -/
def bootCtl (d : Dev) : Word :=
  let b := d.boot
  let fw := if b.bootState = 4 then 1 else if b.bootState = 5 then 2 else 0
  BitVec.ofNat 32 ((if b.trial then 1024 else 0) + b.layout % 2 * 512 + b.image % 2 * 256 + fw * 16
    + fld (rd d.hw R.RIND_BOOTCTL) 0 1)

/-- A RIND register; RIND_CMD and the password registers are write-only (R446). -/
def rindRead (m o : Nat) (d : Dev) : Word :=
  match o with
  | 0x00 | 0x18 | 0x1C => 0#32
  | 0x04 => rindStat d
  | 0x20 => mrd d.hw R.RIND_RDSTAT m
  | 0x28 => rindLockWord d
  | 0x30 => bootCtl d
  | 0x34 => bootWdt d
  | _ => rd d.hw (R.RIND + o)

/-- An EVREC register (R492). -/
def evrecRead (m o : Nat) (d : Dev) : Word × Dev :=
  match o with
  | 0x04 => (evStat d, d)
  | 0x30 => rspRead 6 R.EVREC_PRSP m d
  | 0x44 => (evRl d, d)
  | 0x48 => (evSupp d, d)
  | _ => (rd d.hw (R.EVREC + o), d)

/-- A CURD register (R361). -/
def curdRead (m o : Nat) (d : Dev) : Word × Dev :=
  if o = 4 then (curdStat d, d)
  else if o = 0x1C then (mrd d.hw R.CURD_RSP_LO m, d)
  else if o = 0x20 then rspRead 7 R.CURD_RSP_HI m d
  else if 0x100 ≤ o ∧ o < 0x160 ∧ o % 0x10 = 0xC then (curdCfree d (o % 0x100 / 0x10), d)
  else (rd d.hw (R.CURD + o), d)

/-- A KEYVAULT register (R394, Tables 12.14–12.16). -/
def kvRead (m o : Nat) (d : Dev) : Word × Dev :=
  let x := slotGet d.sec (fld (rd d.hw R.KV_SSEL) 0 13)
  match o with
  | 0x04 => (kvStat d, d)
  | 0x20 => rspRead 10 R.KV_RSP m d
  | 0x34 => (BitVec.ofNat 32 (x.type % 8 * 536870912 + x.scope % 4 * 134217728 + x.kennel % 256 * 524288 + x.gen % 524288), d)
  | 0x38 => latchRead R.KV_SLOT_CTR_LO R.KV_SLOT_CTR_HI x.ctr m d
  | 0x3C => (mrd d.hw R.KV_SLOT_CTR_HI m, d)
  | _ => (rd d.hw (R.KEYVAULT + o), d)

/-- HOSTIF_LINK_p (Table 2.19). -/
def linkWord (d : Dev) (p : Nat) : Word :=
  let x := portGet d p
  let b := fun (c : Bool) (w : Nat) => if c then w else 0
  BitVec.ofNat 32 (x.link.code * 268435456 + x.rate % 16 * 16777216 + x.width % 16 * 1048576 + b x.flit 524288 + b x.perst 262144
    + b x.ptmEn 131072 + b d.pins.sris 65536)

/-- A HOSTIF register (R78). -/
def hostifRead (m o : Nat) (d : Dev) : Word × Dev :=
  let p := (o - 0x20) / 0x20
  match o with
  | 0x84 => (cstat d, d)
  | 0x88 => (cctl d, d)
  | 0x9C =>
    let r := rspRead 12 R.HOSTIF_ACPL m d
    (r.1 &&& 0xF0000000#32, r.2)
  | _ =>
    if 0x20 ≤ o ∧ o < 0x60 then
      match (o - 0x20) % 0x20 with
      | 0x00 => (linkWord d p, d)
      | 0x04 => latchRead (R.HOSTIF_PTM_LO p) (R.HOSTIF_PTM_HI p) (portGet d p).ptmOffset.toNat m d
      | 0x08 => (mrd d.hw (R.HOSTIF_PTM_HI p) m, d)
      | _ => (rd d.hw (R.HOSTIF + o), d)
    else (rd d.hw (R.HOSTIF + o), d)


/-- A HERDER register (R142, Tables 4.13–4.22). -/
def herderRead (d : Dev) (o : Nat) : Word :=
  let k := fld (rd d.hw R.HERDER_KSEL) 0 8
  let n := fld (rd d.hw R.HERDER_DSEL) 0 11
  match o with
  | 0x84 => match kenGet d k with
    | some x => BitVec.ofNat 32 (min 0xFFFF x.outstanding * 65536 + holdNow d k % 16 * 4096 + x.cls % 4 * 1024 + 1)
    | none => 0#32
  | 0x88 => match kenGet d k with | some x => BitVec.ofNat 32 (min 0xFFFFFFFF x.misses) | none => 0#32
  | 0xA4 =>
    let x := dieGet d n
    let used := match x.arr with | some r => r.suspends | none => 0
    BitVec.ofNat 32 (min 255 x.rq.length * 65536 + used % 32 * 256 + dieCode d n)
  | _ =>
    if 0x20 ≤ o ∧ o < 0x50 ∧ o % 0x10 = 8 then BitVec.ofInt 32 (balNow d ((o - 0x20) / 0x10) / 25000000)
    else rd d.hw (R.HERDER + o)

/-- A MAPU register (R309, Tables 9.10–9.23). -/
def mapuRead (m o : Nat) (d : Dev) : Word × Dev :=
  match o with
  | 0x04 => (mapuStat d, d)
  | 0x10 => latchRead R.MAPU_VER_LO R.MAPU_VER_HI d.med.mapu.version m d
  | 0x14 => (mrd d.hw R.MAPU_VER_HI m, d)
  | 0x24 => (jstat d, d)
  | 0x34 => (putFld (rd d.hw R.MAPU_GC_STAT) 16 16 (trafficHeld d 1), d)
  | _ => (rd d.hw (R.MAPU + o), d)

/-- An AFFINEUR register (R335). -/
def affineurRead (m o : Nat) (d : Dev) : Word × Dev :=
  match o with
  | 0x04 => (affStat d, d)
  | 0x30 => latchRead R.AFFINEUR_MTIME_LO R.AFFINEUR_MTIME_HI d.aff.mtime m d
  | 0x34 => (mrd d.hw R.AFFINEUR_MTIME_HI m, d)
  | 0x3C => (BitVec.ofNat 32 d.aff.queue.length, d)
  | 0x40 => (d.aff.ew.setWidth 32, d)
  | _ => (rd d.hw (R.AFFINEUR + o), d)

/-- XORU_STAT: open accumulators and rebuilds in progress (Table 7.20). -/
def xoruStat (d : Dev) : Word :=
  let rows := (d.med.sbs.map (fun q => (q.2.staged.filter (fun r => decide (0 < r.2) && !q.2.rowsDone.contains r.1)).length)).sum
  let comb := (d.fl.runs.filter (fun q => decide (q.2.st = .members))).length
  BitVec.ofNat 32 (min 0xFFFF rows * 65536 + min 0xFFFF comb)

/-- LDPC_STAT: banks ON, code family, decoders busy (Table 7.8). -/
def ldpcStat (d : Dev) : Word :=
  let dec := d.fl.runs.filterMap (fun q => q.2.dec)
  let soft := (dec.filter (fun k => decide (48 ≤ k))).length
  BitVec.ofNat 32 (bitsOf ((List.range 4).map (fun b => domOn d.pwr (87 + b))) * 268435456
    + fld (rd d.hw R.DET_PROF) 3 1 * 134217728 + soft % 256 * 256 + (dec.length - soft) % 256)

/-- A CIPHERk register (R395). -/
def cipherRead (k m o : Nat) (d : Dev) : Word × Dev :=
  match o with
  | 0x04 => (cipherStat d k, d)
  | 0x48 => rspRead (32 + k) (R.CIPHER_JRSP k) m d
  | _ => (rd d.hw (R.CIPHER k + o), d)

/-- A register of an FCH (R173). -/
def fchRead (d : Dev) (c o : Nat) : Word :=
  match o with
  | 0x04 => fchStat d c
  | 0x24 => fchLstat d c
  | 0x28 => fchLerr d c
  | _ =>
    if c = 0 ∧ o = 0x8008 then BitVec.ofNat 32 (min 0xFFFF d.fl.pacer.inuse)
    else if c = 0 ∧ o = 0x800C then paceEff d
    else rd d.hw (R.FCH c + o)

/-- A register of a DET (R203). -/
def detRead (d : Dev) (n o : Nat) : Word :=
  if o = 4 then detStat d n
  else if o = 0x14 then detEcc d n
  else if 0x100 ≤ o ∧ o < 0x140 then BitVec.ofNat 32 (leNat (((detGet d n).pres.drop (o % 0x100)).take 4))
  else if n = 0 ∧ o = 0x8004 then poolAvail d
  else if n = 0 ∧ o = 0x8008 then poolDepth d
  else rd d.hw (R.DET n + o)

/-- The value that a read of the register at `a` by master `m` returns, and what the read changes. -/
def regReadAt (m a : Nat) (d : Dev) : Word × Dev :=
  let s := regSlot a
  let o := a % 0x10000
  match s with
  | 0 => match o with
    | 0x00 => (idPart d.fuse, d)
    | 0x10 => (idCap0 d.fuse, d)
    | 0x14 => (idCap1 d.fuse, d)
    | 0x20 => latchRead R.ID_TIME_LO R.ID_TIME_HI d.hw.time.toNat m d
    | 0x24 => (mrd d.hw R.ID_TIME_HI m, d)
    | 0x48 => ((gpioIn d).setWidth 32, d)
    | _ => (rd d.hw a, d)
  | 1 => (collarRead d o, d)
  | 2 => whistleRead o d
  | 3 => pwrRead m o d
  | 4 => (thermRead d o, d)
  | 5 => (rindRead m o d, d)
  | 6 => evrecRead m o d
  | 7 => curdRead m o d
  | 9 => (if o = 4 then dramcStat d else rd d.hw a, d)
  | 10 => kvRead m o d
  | 11 => (if o = 0x204 then rngStat d else if o = 0x210 then d.fuse.revoked.setWidth 32 else rd d.hw a, d)
  | 12 => hostifRead m o d
  | 13 => (herderRead d o, d)
  | 14 => mapuRead m o d
  | 15 => affineurRead m o d
  | 16 => (if o = 4 then holdupStat d else rd d.hw a, d)
  | 17 => (if o = 4 then mgStat d else if o = 0x20 then rxctl d else if o = 0x24 then txctl d else rd d.hw a, d)
  | 18 => (if 0x20 ≤ o ∧ packCount d.fuse ≤ (o - 0x20) / 0x10 then 0#32 else if o = 4 then xoruStat d else rd d.hw a, d)
  | 19 => (if o = 4 then ldpcStat d
      else if o = 0x24 then BitVec.ofNat 32 (min 0xFFFFFFFF (tabGetD d.fl.stepCnt (fld (rd d.hw R.LDPC_STEP_SEL) 0 3) 0))
      else rd d.hw a, d)
  | _ =>
    if 32 ≤ s ∧ s < 36 then cipherRead (s - 32) m o d
    else if 64 ≤ s ∧ s < 112 then (fchRead d (s - 64) o, d)
    else if 128 ≤ s ∧ s < 152 then (detRead d (s - 128) o, d)
    else (rd d.hw a, d)

/-! Accesses (R523). -/

/-- Whether a size is a power of two of at most 64 bytes: a transfer carries at most eight data flits (R20, section "The self-timed
fabric"). -/
def sizeOk (n : Nat) : Bool := [1, 2, 4, 8, 16, 32, 64].contains n

/-- The checks before the gate, in their order: address, alignment, Collar (R523, steps 1 to 3). -/
def accessCheck (d : Dev) (q : Req) : Option Status :=
  if regionOf d.hw q.addr = .outside then some .range
  else if !sizeOk q.size || decide (q.addr % q.size ≠ 0) || (decide (regionOf d.hw q.addr = .regs) && decide (q.size ≠ 4)) then some .align
  else if !collarOk d q.master q.kind q.addr q.size then some .denied
  else none

/-- Step 4: the access is to a register of an absent unit, or of an absent port (R2, R45, R523). -/
def regAbsent (d : Dev) (a : Nat) : Bool :=
  let s := regSlot a
  let o := a % 0x10000
  decide (regionOf d.hw a = .regs) &&
    (!slotPresent d.fuse s || (decide (s = 12) && decide (0x40 ≤ o) && decide (o < 0x60) && !dual d)
      || (decide (s = 12) && (decide (o = 0x84) || decide (o = 0x88)) && !portPresent d (cselOf d).1))

/-- A core whose access ends with one of these takes an access-fault exception (R36). -/
def coreFault (m : Nat) (st : Status) : Bool :=
  decide (m < 16) && (match st with | .range | .align | .denied | .targetOff | .unrecovered => true | _ => false)

/-- The response of an access. -/
def respond (q : Req) (st : Status) (data : Nat) (d : Dev) : Dev :=
  let r : Resp := { addr := q.addr, kind := q.kind, status := st, data := if st = .ok then data else 0, fault := coreFault q.master st,
                    waiting := false }
  hwMod (fun h => { h with resps := tabPut h.resps q.master r }) d

/-- The master sees its request held (R25). -/
def respWait (q : Req) (d : Dev) : Dev :=
  let r : Resp := { addr := q.addr, kind := q.kind, status := .ok, data := 0, fault := false, waiting := true }
  hwMod (fun h => { h with resps := tabPut h.resps q.master r }) d

/-- Step 6 for a read or a fetch. -/
def accessRead (q : Req) (d : Dev) : Dev :=
  match regionOf d.hw q.addr with
  | .rom => respond q .ok (leNat ((List.range q.size).map (fun i => romAt (q.addr + i)))) d
  | .rindWindow =>
    let off := q.addr % 0x1000000
    respond q .ok (windowData d off q.size) (hwMod (windowTouch q.master off q.size) d)
  | .regs =>
    if q.addr = R.SIGV_RNG_DATA then rngRead q.master d
    else
      let r := regReadAt q.master q.addr d
      respond q .ok r.1.toNat r.2
  | _ =>
    let r := memRead d.hw q.addr q.size
    match r.1 with
    | some v => respond q .ok v { d with hw := r.2 }
    | none => respond q .unrecovered 0 { d with hw := r.2 }

/-- Step 6 for a write: memory keeps the check bits that a full word's flit carries, and merges a shorter write (R349, R353). A register
write may set or clear a hold, which the power controller then acts on (R449). -/
def accessWrite (q : Req) (d : Dev) : Dev :=
  match regionOf d.hw q.addr with
  | .rom => respond q .denied 0 d
  | .rindWindow => respond q .denied 0 d
  | .regs =>
    let r := regWriteAt q.master q.addr (BitVec.ofNat 32 q.data) d
    settle (respond q r.1 0 r.2)
  | _ =>
    if q.size = 8 then respond q .ok 0 { d with hw := memWriteWord d.hw q.addr (BitVec.ofNat 64 q.data) (BitVec.ofNat 8 q.chk) }
    else if q.size < 8 then respond q .ok 0 { d with hw := memPartial d.hw q.addr (leBytes q.size q.data) }
    else respond q .ok 0 { d with hw := memPutBytes d.hw q.addr (leBytes q.size q.data) }

/-- An access at its target. -/
def accessTarget (q : Req) (d : Dev) : Dev := if q.kind = .write then accessWrite q d else accessRead q d

/-- A hart whose register store still waits for its response issues no later access (R401). -/
def storeHeld (d : Dev) (m : Nat) : Bool :=
  decide (m < 16) && d.pwr.held.any (fun x => decide (x.req.master = m) && decide (x.req.kind = .write)
    && decide (regionOf d.hw x.req.addr = .regs))

/-- A core's instruction fetch from buffer DRAM or a register block, which takes an access fault at the core and reaches no target (Table
13.2). -/
def fetchBarred (d : Dev) (q : Req) : Bool :=
  decide (q.master < 16) && decide (q.kind = .fetch) && (decide (regionOf d.hw q.addr = .dram) || decide (regionOf d.hw q.addr = .regs))

/-- A fabric access by a master, through the checks of R523 in their order. Reserved master IDs never appear on a request, and a master
whose domain has left ON issues none, nor does a hart that waits for a register store (R17, R37, R401). A
barred fetch shows as DENIED with a fault (DESIGN CHOICE, log entry 126). -/
def access (q : Req) (d : Dev) : Dev :=
  if masterReserved q.master || !masterClocked d q.master || storeHeld d q.master then d
  else if fetchBarred d q then respond q .denied 0 d
  else match accessCheck d q with
    | some .denied => respond q .denied 0 (collarRefuse q.master q.kind q.addr q.size d)
    | some st => respond q st 0 d
    | none =>
      if regAbsent d q.addr then respond q .ok 0 d
      else match gateOf d (domOf d.hw q.addr) with
        | .pass => accessTarget q d
        | .refuse => respond q .targetOff 0 (gateRefused d)
        | .hold => respWait q (gateHold (domOf d.hw q.addr) q d)

/-- A register write by a master. -/
def regWrite (m a : Nat) (v : Word) (d : Dev) : Dev :=
  access { master := m, kind := .write, addr := a, size := 4, data := v.toNat, chk := 0 } d

/-- A register read by a master. -/
def regRead (m a : Nat) (d : Dev) : Dev := access { master := m, kind := .read, addr := a, size := 4, data := 0, chk := 0 } d

/-- The requests held at a domain's gate are carried out in their order of arrival (R21, R25, R452). -/
def heldRun (n : Nat) (d : Dev) : Dev :=
  let mine := d.pwr.held.filter (fun x => decide (x.dom = n))
  let d1 := { d with pwr := { d.pwr with held := d.pwr.held.filter (fun x => decide (x.dom ≠ n)) } }
  mine.foldl (fun x y => accessTarget y.req x) d1

/-- DOMAIN_ON_REACHED: the domain is ON with its wake source and time recorded, a channel whose saved calibration is out of its range has
retrained its targets, the decoders of an LDPC bank take codewords that wait, and its held requests go through (R157, R205, R447,
R452). -/
def domainOn (n : Nat) (d : Dev) : Dev :=
  if (domGet d.pwr n).st = .waking then
    let d1 := onReached n d
    heldRun n (if 1 ≤ n ∧ n ≤ 48 then retrainWoken (n - 1) d1 else if 87 ≤ n ∧ n ≤ 90 then decAssign d1 else d1)
  else d

/-- FABMON_UPDATE: while PD0 is ON, the replica delay line's estimates (R30). -/
def fabmon (grant hop : Nat) (d : Dev) : Dev :=
  hwMod (fun h => wr h R.ID_FABMON (BitVec.ofNat 32 (grant % 1024 * 1024 + hop % 1024))) d

end Sys2Proof.Machine
end

