-- ==== Sys2Proof/Machine/Operands.lean ====
section
/-!
DEFINITION. Operand forms of the commands: which units a part has, the words that item commands and pulse bits are written with, the
requests of the memory commands, and the accesses that read with a side effect.
-/

namespace Sys2Proof.Machine

/-- A master ID that a request can carry (R37, Table 1.10). -/
def masterOk (m : Nat) : Bool := decide (m < 128) && !masterReserved m

/-- A controller of a present port (R51). -/
def ctrlOk (d : Dev) (p fn : Nat) : Bool := ctrlPresent d p fn

/-- A die position of the part, fitted or not (R11). -/
def dieOk (d : Dev) (n : Nat) : Bool := decide (n < 32 * chCount d.fuse)

/-- A flash channel of the part (R2). -/
def chanOk (d : Dev) (n : Nat) : Bool := decide (n < chCount d.fuse)

/-- A detector of the part (R2). -/
def detOk (d : Dev) (n : Nat) : Bool := decide (n < detCount d.fuse)

/-- A Pack of the part (R12). -/
def packOk (d : Dev) (n : Nat) : Bool := decide (n < packCount d.fuse)

/-- A cipher engine of the part (R2, R372). -/
def cipherOk (d : Dev) (k : Nat) : Bool := hasCrypto d.fuse && decide (k < 4)

/-- The argument registers of the CURD, KEYVAULT, CIPHERk, EVREC and HOSTIF items (R347). -/
def itemArgAddr (a : Nat) : Bool :=
  let o := a % 0x10000
  decide (regBase ≤ a) && decide (a < regBase + 0x1000000) && (match regSlot a with
    | 6 => decide (o = 0x20) || decide (o = 0x24) || decide (o = 0x28)
    | 7 => decide (o = 0x14) || decide (o = 0x18)
    | 10 => decide (o = 0x14) || decide (o = 0x18) || decide (o = 0x1C)
    | 12 => decide (o = 0x90) || decide (o = 0x94) || decide (o = 0x98)
    | s => decide (32 ≤ s) && decide (s < 36) && decide (0x10 ≤ o) && decide (o ≤ 0x40) && decide (o % 4 = 0))

/-- The mask register, its SET alias or its CLEAR alias of word `j` (R411). -/
def maskAddr (kind j : Nat) : Nat :=
  match kind with | 0 => R.WH_MASK j | 1 => R.WH_MASK_SET j | _ => R.WH_MASK_CLR j

/-- A CURD_CMD word with an operation and its low operand (Table 11.9). -/
def curdWord (op g : Nat) : Word := putFld (putFld 0#32 28 4 op) 0 7 g

/-- A CURD_CMD grant word: LEN and NOFALL (Table 11.9). -/
def grantWord (n : Nat) (nofall : Bool) : Word := putBit (putFld (putFld 0#32 28 4 1) 0 21 n) 27 nofall

/-- A Curd operation: one request of a hardware master with its pointer, or a master's write of CURD_CMD that completes its item, whose
pointer the argument registers hold (R340, R344, R347). -/
def curdAsk (hard : Bool) (m : Nat) (w : Word) (ptr : Nat) (d : Dev) : Dev :=
  if hard then curdHw m w ptr d else regWrite m R.CURD_CMD w d

/-- A firmware job of engine `k`: the master writes CIPHER_JMODE with the OP and the slot, and then CIPHER_JGO; the other argument
registers stand as written before (R379, Table 12.21). -/
def cipherAsk (m k op slot : Nat) (d : Dev) : Dev :=
  regWrite m (R.CIPHER_JGO k) 0#32 (regWrite m (R.CIPHER_JMODE k) (putFld (putFld 0#32 28 4 op) 0 13 slot) d)

/-- A read or an instruction fetch (R23, R382). -/
def readReq (m a size : Nat) (fetch : Bool) : Req :=
  { master := m, kind := if fetch then .fetch else .read, addr := a, size := size, data := 0, chk := 0 }

/-- A full-word write with the check bits of its flit (R349). -/
def wordReq (m a : Nat) (data : DWord) (chk : Byte) : Req :=
  { master := m, kind := .write, addr := a, size := 8, data := data.toNat, chk := chk.toNat }

/-- A write of a byte string (R353). -/
def bytesReq (m a : Nat) (bs : List Byte) : Req :=
  { master := m, kind := .write, addr := a, size := bs.length, data := leNat bs, chk := 0 }

/-- A read of WH_CLAIM of context `x`; `old` marks one inside the 40 ns after a write's response, which may still see the old
configuration (R409, R411). -/
def claimRead (m x : Nat) (old : Bool) (d : Dev) : Dev :=
  let q := readReq m (R.WH_CLAIM x) 4 false
  if old && !masterReserved m && masterClocked d m && (accessCheck d q).isNone && decide (gateOf d (domOf d.hw q.addr) = .pass) then
    let r := whClaim (x / 2) (x % 2) true d
    respond q .ok (match r.1 with | some s => 2147483648 + s | none => 0) r.2
  else access q d

/-- A request that meets the closed gate of domain `n`: held with auto-wake, or answered TARGET_OFF (R25, R452). -/
def closedRequest (n : Nat) (q : Req) (d : Dev) : Dev :=
  if decide (domOf d.hw q.addr = n) && decide (gateOf d n ≠ .pass) then access q d else d

/-- A fabric request of DOMAIN_WAKE_REQUEST, with the check bits that its data flit carries (R20). -/
def fabReq (m a size : Nat) (write : Bool) (data : Nat) (chk : Byte) : Req :=
  { master := m, kind := if write then .write else .read, addr := a, size := size, data := data, chk := chk.toNat }

/-- A command that concerns the admitted I/O command `tag`, which must be of kind `op`. -/
def onOp (op : IoOp) (tag : Nat) (f : Dev → Dev) (d : Dev) : Dev :=
  match tabGet d.host.ops tag with
  | some o => if o.cmd.op = op then f d else d
  | none => d

/-- LUN_READY with what follows it: reads that wait at a die whose state has changed are decided again, zones whose blocks stand on a failed
unit are finished, and emptied park superblocks are erased (R93, R133, Table 3.4). -/
def lunReadyAll (die plane : Nat) (pass idOk : Bool) (trainOk : BitVec 4) (verified : Bool) (d : Dev) : Dev :=
  settled (fun x => zonesStuck (parkSweep (lunReady die plane pass idOk trainOk verified x))) d

/-- A status poll that finds a LUN busy: it has used its channel's bus (R149), unless an S0 read there is ready for transfer (R127). -/
def pollBusy (die : Nat) (d : Dev) : Dev := if pollBarred d (chOf die) then d else busUse die [.readStatus] d

end Sys2Proof.Machine
end

