-- ==== Sys2Proof/Machine/State.lean ====
section
/-!
DEFINITION. The machine: the device and its queue of waiting commands; the reasons a command can stop; the state after reset.
-/

namespace Sys2Proof.Machine

/-- The block: the commands that wait, first in, first out, and the device. -/
structure State where
  pending : List Instr
  dev : Dev
  deriving DecidableEq, Repr

/-- Why a command stops the machine. -/
inductive Fault where
  /-- Raised by a command that names a port, function, unit, domain or master which this part does not have, or an operand outside its
  range: no such command exists (R2, Table 0.2, log entry 1). Safe: nothing follows it. -/
  | noSuchUnit
  deriving DecidableEq, Repr

/-- Why a command has no meaning here. -/
inductive Refusal where
  /-- Raised by a command that is not modelled, by its mnemonic. Safe. -/
  | notModelled (mnemonic : String)
  deriving DecidableEq, Repr

/-- The fuses of the reset device: the complete part at stepping A0 (DESIGN CHOICE, log entry 41; Table 0.3). -/
def Fuse.reset : Fuse := { variant := .ax, stepMajor := 1, stepMinor := 0, revoked := 0#12, epochLeft := 64 }

/-- The hardware core after power-on reset: every register at its reset value, every memory word undefined, the Rind store erased
(R13, R31, R350, R417). -/
def Hw.reset : Hw :=
  { regs := [], mregs := [], items := [], resps := [], time := 0#64, bootCount := 0#32, ev := EvState.init, rind := Rind.init,
    mem := Mem.init, free := 0 }

/-- The security units after power-on reset (R364, R380, R383). -/
def Sec.reset : Sec :=
  { slots := [], importKeks := [], attestKey := true, mapKey := none, oldMapKey := none, eraseDue := false, kvState := 0, jobs := [],
    keyCache := [], maskBytes := [], maskStale := 0#4, cipherBytes := [], kvWait := [], drbgDraws := 0, drbgReqs := 0, drbgOn := false,
    entropyOk := false, rngWait := [], verify := none, hash := none, blocked := 0#128, windows := [], defAlarm := [],
    dbg := { adminChal := none, jtagChal := none, failures := 0, unlocked := false }, spdmVersion := 0, spdmState := 0, measures := [] }

/-- Boot state after power-on reset: a start of the ROM is due (R435). -/
def Boot.reset : Boot :=
  { romDue := true, retDue := true, romRunning := false
    gov := { type := 0, bootCount := 0, seq := 0, image := 0, layout := 0, pendImage := 0xFF, pendLayout := 0xFF, tries := 0,
             layoutSeq := 0 }
    recNext := 0, firstPending := false, image := 0, layout := 0, bootState := 0, lastStatus := 0, attempts := 0, rollback := false,
    waits := 0, wdtFired := false, wdtRunning := false, releasedAt := 0#64, trial := false }

/-- Hold-up after power-on reset: the bank is empty and HOLDUP_CTRL.EN is 0. -/
def Holdup.reset : Holdup :=
  { charging := false, reachedTop := false, capNf := none, vbank := 0, measStart := 0, measSag := 0, measStep := 0, flushed := false,
    flushStep := 0, t0 := 0#64, dirty0 := 0, resetAfter := false, coldAfter := false, shdnJ := false, shdnReq := false, inHold := false,
    flushes := 0, supplyBacks := 0, lastUs := 0, longestUs := 0, measAt := 0#64, dumped := 0, supplyBack := false, timeoutLast := false }

/-- Thermal state after power-on reset: nothing converted yet (log entry 41). -/
def Therm.reset : Therm :=
  { tj := 250, sens := [], sensMax := [], jLevel := 0, fLevel := [], chans := [], chanMax := [], fPause := [], alert := false,
    pauseTotal := 0, crossings := [], shutdowns := 0, threshOver := [], threshUnder := [], tempWarn := false }

/-- The host side after power-on reset: both ports in reset, no controller, no command. -/
def HostSide.reset : HostSide :=
  { ports := [], ctrls := [], queues := [], unfetched := [], ops := [], nextTag := 1, cq := [], ringWait := [], fetched := [],
    posted := [], hmbWait := [], rndHeld := [], stopped := false,
    rrKennel := [], rrQueue := [], fdp := false, fdpLog := FdpLog.init, errLog := [], download := [], layoutXfer := [], layoutPort := none }

/-- Flash, detectors and reads after power-on reset: every unit in service, nothing in progress. -/
def Flash.reset : Flash :=
  { dies := [], chans := [], pacer := { inuse := 0, wait := [], lastStart := [], waves := [], nextWave := 0#64, waving := false },
    dets := [], ctxWait := [], runs := [], nextRun := 1, overflow := [], balance := [], stepCnt := [], hostDepth := [], hourDepth := [],
    longest := [] }

/-- Nothing on media. -/
def Image.none : Image := { zones := [], map := [], dump := [], loose := [], dumped := false }

/-- The media of an unformatted device (log entry 41). -/
def Media.reset : Media :=
  { layout := Layout.ref, formatted := false, volGen := 0, volCreated := 0, volWritten := 0, volUuid := 0#128, volume := [], replicas := [],
    volRead := (0, 0, 0), volUnknown := false, blks := [], sbs := [], staged := [], loose := [], copies := [], seqNext := 1,
    openSb := [], parkSb := [], moves := [],
    doomed := [], secure := []
    mapu := { map := [], seals := [], cache := [], segBase := [], version := 0, gen := 0, warned := false, sweep := [], sweeping := false,
              rebuild := [], st := 0 }
    jr := { buf := [], flushing := none, pend := [], carry := [], flushAt := 0#64, words := [], media := [],
            count := 0, onMedia := 0, j := 0, tail := 0, area := 0, pairs := [], opened := 0, old := [], oldAt := 0 }
    image := Image.none, snap := Image.none, rebuilds := [], gcOn := [], gcLifted := [], committed := [], floored := [],
    recovered := false, stagedLost := false }

/-- The Affineur of a device whose media time was never set: it counts from its base (R310, R311). -/
def Aff.reset : Aff :=
  { mtime := Config.romBuildTime + 1, ticks := 0, timeSrc := 2, savedAtDown := Config.romBuildTime, stamped := false, st := 0, todo := [],
    total := 0, paused := none, cycles := 0, samples := 0, rewrites := 0, queue := [], reports := [], batches := [],
    learnDirty := false, learnSaved := 0#64, learnCopy := false, ladderHigh := false, daily := [], ew := 0#4, wearImage := [],
    wearAt := 0, retired := [],
    critReliability := false }

/-- The device right after power-on reset of PD0, with PGOOD low and SYS_RESET_N asserted (R44, R447, R455). -/
def Dev.reset : Dev :=
  { fuse := Fuse.reset, hw := Hw.reset
    pins := { pgood := false, sysResetHigh := false, dualPort := false, refclk1Sel := false, sris := false, raw := 0xF#16,
              filt := 0xF#16, gpio := 0#16 }
    pwr := { doms := [], seq := none, seqWait := true, held := [], cores := [] }
    wh := { saved := 0#4, stale := [], mtip := 0#16 }, curd := Curd.init, sec := Sec.reset, sj := Settings.init, boot := Boot.reset
    holdup := Holdup.reset, therm := Therm.reset
    mgmt := { ready := false, i3c := false, i3cAddr := 0, eid := 0, alert := false, rx := none, txBusy := false, lastTx := none,
              unitBytes := 64, vpd := [], cfg := [] }
    jtag := { ir := 1, scanIn := [], preload := [], extest := false, clamp := false, highz := false, dr := 0, dm := [], resp := none }
    host := HostSide.reset
    ten := { namespaces := [], zones := [], kennels := [(0, Kennel.zero)], fnBind := [], nsBind := [] }
    fl := Flash.reset, med := Media.reset, aff := Aff.reset }

/-- The machine right after reset, with no command waiting. -/
def State.reset : State := { pending := [], dev := Dev.reset }

end Sys2Proof.Machine
end

