-- ==== Sys2Proof/Machine/Ops.lean ====
section
/-!
DEFINITION. How a command's effect on the device becomes the machine's next state, or a fault where it names a unit that the part does
not have.
-/

namespace Sys2Proof.Machine

/-- The device changed by `f`; the queue as it is. -/
def State.onDev (f : Dev → Dev) (s : State) : State := { s with dev := f s.dev }

/-- A command whose effect on the device is `f`. -/
def does (f : Dev → Dev) (s : State) : Host.Outcome State Fault Refusal := .next (s.onDev f)

/-- A command on a unit: its effect `f` where the part has the unit, a fault where it has not. -/
def onUnit (ok : Dev → Bool) (f : Dev → Dev) (s : State) : Host.Outcome State Fault Refusal :=
  if ok s.dev then does f s else .fault .noSuchUnit

end Sys2Proof.Machine
end

