-- ==== Sys2Proof/Machine/CmdAdmin.lean ====
section
/-!
DEFINITION. Meanings of the commands of one family: NVMe admin commands.
-/

namespace Sys2Proof.Machine

/-- NAMESPACE_CREATE (R85). -/
def execNamespaceCreate (c : Src) (zoned : Bool) (nsze width : Nat) (kpio : Bool) (handles : Nat)
    (s : State) : Host.Outcome State Fault Refusal :=
  does (nsCreate c zoned nsze width kpio handles) s

/-- NAMESPACE_DELETE (R390). -/
def execNamespaceDelete (c : Src) (nsid : Nat) (s : State) : Host.Outcome State Fault Refusal :=
  does (nsDelete c nsid) s

/-- NAMESPACE_ATTACH (R53). -/
def execNamespaceAttach (c : Src) (nsid : Nat) (attach : Bool) (ids : List Nat) (s : State) : Host.Outcome State Fault Refusal :=
  does (nsAttach c nsid attach ids) s

/-- GET_LOG_PAGE (R75). -/
def execGetLogPage (c : Src) (lid lsi off len : Nat) (s : State) : Host.Outcome State Fault Refusal :=
  does (getLog c lid lsi off len) s

/-- IDENTIFY (R59). -/
def execIdentify (c : Src) (cns nsid : Nat) (s : State) : Host.Outcome State Fault Refusal :=
  does (identify c cns nsid) s

/-- SET_FEATURES_TIMESTAMP (R312). -/
def execSetFeaturesTimestamp (c : Src) (save : Bool) (ms : Nat) (s : State) : Host.Outcome State Fault Refusal :=
  does (setTimestamp c save ms) s

/-- GET_FEATURES_TIMESTAMP (R312). -/
def execGetFeaturesTimestamp (c : Src) (s : State) : Host.Outcome State Fault Refusal :=
  does (getTimestamp c) s

/-- SET_FEATURES_ZONE_RESET_MODE (R109). -/
def execSetFeaturesZoneResetMode (c : Src) (nsid : Nat) (save secure : Bool) (s : State) : Host.Outcome State Fault Refusal :=
  does (setZoneReset c nsid save secure) s

/-- SET_FEATURES_FDP (R96). -/
def execSetFeaturesFdp (c : Src) (on save : Bool) (s : State) : Host.Outcome State Fault Refusal :=
  does (setFdp c on save) s

/-- SET_FEATURES_POWER_STATE (R60). -/
def execSetFeaturesPowerState (c : Src) (ps : Nat) (save : Bool) (s : State) : Host.Outcome State Fault Refusal :=
  does (setPower c ps save) s

/-- HMB_ENABLE (R301). -/
def execHmbEnable (c : Src) (units : Nat) (s : State) : Host.Outcome State Fault Refusal :=
  does (adminGate c (hmbEnable c units)) s

/-- HMB_MAP_REBUILD_DONE (R301). -/
def execHmbMapRebuildDone (p : Nat) (s : State) : Host.Outcome State Fault Refusal :=
  onUnit (fun d => portPresent d p) (hmbDone p) s

/-- HMB_DISABLE (R65). -/
def execHmbDisable (c : Src) (s : State) : Host.Outcome State Fault Refusal :=
  does (adminGate c (hmbDisable c)) s

/-- VIRTUALIZATION_MANAGEMENT (R54). -/
def execVirtualizationManagement (c : Src) (vf : Nat) (a : VirtAct) (s : State) : Host.Outcome State Fault Refusal :=
  does (virtManage c vf a) s

/-- NVME_ABORT (R124). -/
def execNvmeAbort (c : Src) (sq cid : Nat) (s : State) : Host.Outcome State Fault Refusal :=
  does (nvmeAbort c sq cid) s

/-- FIRMWARE_IMAGE_DOWNLOAD (R59). -/
def execFirmwareImageDownload (c : Src) (off : Nat) (bs : List Byte) (s : State) : Host.Outcome State Fault Refusal :=
  does (fwDownload c off bs) s

/-- FIRMWARE_COMMIT (R433). -/
def execFirmwareCommit (c : Src) (slot action : Nat) (s : State) : Host.Outcome State Fault Refusal :=
  does (fwCommit c slot action) s

/-- FORMAT_NVM (R391). -/
def execFormatNvm (c : Src) (nsid ses : Nat) (s : State) : Host.Outcome State Fault Refusal :=
  does (formatNvm c nsid ses) s

/-- SANITIZE_BLOCK_ERASE (R264). -/
def execSanitizeBlockErase (c : Src) (s : State) : Host.Outcome State Fault Refusal :=
  does (sanitizeBlock c) s

/-- SANITIZE_CRYPTO_ERASE (R391). -/
def execSanitizeCryptoErase (c : Src) (s : State) : Host.Outcome State Fault Refusal :=
  does (sanitizeCrypto c) s

/-- KEY_INJECTION (R388). -/
def execKeyInjection (c : Src) (tag kek : Nat) (kwp : Bool) (wrapped : List Byte) (s : State) : Host.Outcome State Fault Refusal :=
  does (keyInject c tag kek kwp wrapped) s

/-- RESERVATION_REGISTER (R59). -/
def execReservationRegister (c : Src) (sq nsid host action : Nat) (ignoreKey : Bool) (crkey nrkey : Nat) (ptpl : Bool) (s : State) :
    Host.Outcome State Fault Refusal :=
  does (resvRegister c sq nsid host action ignoreKey crkey nrkey ptpl) s

/-- RESERVATION_ACQUIRE (R59). -/
def execReservationAcquire (c : Src) (sq nsid action rtype crkey prkey : Nat) (s : State) : Host.Outcome State Fault Refusal :=
  does (resvAcquire c sq nsid action rtype crkey prkey) s

/-- RESERVATION_RELEASE (R59). -/
def execReservationRelease (c : Src) (sq nsid action rtype crkey : Nat) (s : State) : Host.Outcome State Fault Refusal :=
  does (resvRelease c sq nsid action rtype crkey) s

/-- RESERVATION_REPORT (R59). -/
def execReservationReport (c : Src) (sq nsid : Nat) (s : State) : Host.Outcome State Fault Refusal :=
  does (resvReport c sq nsid) s

/-- LAYOUT_TRANSFER (R70). -/
def execLayoutTransfer (c : Src) (off : Nat) (bs : List Byte) (s : State) : Host.Outcome State Fault Refusal :=
  does (layoutTransfer c off bs) s

/-- LAYOUT_VERIFY_STAGE (R70). -/
def execLayoutVerifyStage (c : Src) (s : State) : Host.Outcome State Fault Refusal :=
  does (layoutStage c) s

/-- LAYOUT_DISCARD (R430). -/
def execLayoutDiscard (c : Src) (s : State) : Host.Outcome State Fault Refusal :=
  does (layoutDiscard c) s

/-- KENNEL_SET (R115). -/
def execKennelSet (c : Src) (k : Nat) (bs : List Byte) (s : State) : Host.Outcome State Fault Refusal :=
  does (kennelSet c k bs) s

/-- KENNEL_DELETE (R118). -/
def execKennelDelete (c : Src) (k : Nat) (s : State) : Host.Outcome State Fault Refusal :=
  does (kennelDelete c k) s

/-- KENNEL_READ (R71). -/
def execKennelRead (c : Src) (k : Nat) (s : State) : Host.Outcome State Fault Refusal :=
  does (kennelRead c k) s

/-- KENNEL_BIND_FUNCTION (R52). -/
def execKennelBindFunction (c : Src) (k port fn : Nat) (s : State) : Host.Outcome State Fault Refusal :=
  does (kennelBindFn c k port fn) s

/-- KENNEL_BIND_NAMESPACE (R116). -/
def execKennelBindNamespace (c : Src) (k nsid : Nat) (s : State) : Host.Outcome State Fault Refusal :=
  does (kennelBindNs c k nsid) s

/-- KENNEL_UNBIND_NAMESPACE (R116). -/
def execKennelUnbindNamespace (c : Src) (k nsid : Nat) (s : State) : Host.Outcome State Fault Refusal :=
  does (kennelUnbindNs c k nsid) s

/-- UNIT_TAKE_OUT (R72). -/
def execUnitTakeOut (c : Src) (type n : Nat) (s : State) : Host.Outcome State Fault Refusal :=
  does (unitTakeOut c type n) s

/-- UNIT_RETURN (R169). -/
def execUnitReturn (c : Src) (type n : Nat) (s : State) : Host.Outcome State Fault Refusal :=
  does (unitReturn c type n) s

/-- UNIT_QUERY (R77). -/
def execUnitQuery (c : Src) (type n : Nat) (s : State) : Host.Outcome State Fault Refusal :=
  does (unitQuery c type n) s

/-- EVREC_CTRL_FLUSH (R484). -/
def execEvrecCtrlFlush (c : Src) (s : State) : Host.Outcome State Fault Refusal :=
  does (evCtrlFlush c) s

/-- EVREC_CTRL_CLEAR (R486). -/
def execEvrecCtrlClear (c : Src) (s : State) : Host.Outcome State Fault Refusal :=
  does (evCtrlClear c) s

/-- EVREC_SET_RATE_LIMIT (R482). -/
def execEvrecSetRateLimit (c : Src) (code rate burst : Nat) (s : State) : Host.Outcome State Fault Refusal :=
  does (evCtrlSet c code rate burst) s

/-- EVREC_READ_RATE_LIMIT (R482). -/
def execEvrecReadRateLimit (c : Src) (code : Nat) (s : State) : Host.Outcome State Fault Refusal :=
  does (evCtrlRead c code) s

/-- DEBUG_GET_CHALLENGE (R73). -/
def execDebugGetChallenge (c : Src) (s : State) : Host.Outcome State Fault Refusal :=
  does (debugChallenge c) s

/-- DEBUG_SUBMIT_RESPONSE (R73). -/
def execDebugSubmitResponse (c : Src) (sig : List Byte) (s : State) : Host.Outcome State Fault Refusal :=
  does (debugSubmit c sig) s

/-- DEBUG_CHALLENGE_EXPIRY (R73). -/
def execDebugChallengeExpiry (jtag : Bool) (s : State) : Host.Outcome State Fault Refusal :=
  does (debugExpiry jtag) s

/-- ASYNCHRONOUS_EVENT_REQUEST (R59). -/
def execAsynchronousEventRequest (c : Src) (s : State) : Host.Outcome State Fault Refusal :=
  does (aer c) s

/-- SET_FEATURES_TEMPERATURE_THRESHOLD (R474). -/
def execSetFeaturesTemperatureThreshold (c : Src) (under : Bool) (sensor k : Nat) (save : Bool)
    (s : State) : Host.Outcome State Fault Refusal :=
  does (setTempThreshold c under sensor k save) s

/-- KEK_ESTABLISHMENT (R388). -/
def execKekEstablishment (c : Src) (i : Nat) (msg : List Byte) (s : State) : Host.Outcome State Fault Refusal :=
  does (kekEstablish c i msg) s

end Sys2Proof.Machine
end

