-- ==== Sys2Proof/Machine/CmdAttest.lean ====
section
/-!
DEFINITION. Meanings of the commands of one family: SPDM requests.
-/

namespace Sys2Proof.Machine

/-- GET_VERSION (R392). -/
def execGetVersion (via : Via) (s : State) : Host.Outcome State Fault Refusal :=
  does (spdmGetVersion via) s

/-- GET_CAPABILITIES (R392). -/
def execGetCapabilities (via : Via) (version : Nat) (s : State) : Host.Outcome State Fault Refusal :=
  does (spdmGetCapabilities via version) s

/-- NEGOTIATE_ALGORITHMS (R392). -/
def execNegotiateAlgorithms (via : Via) (p384 sha384 : Bool) (s : State) : Host.Outcome State Fault Refusal :=
  does (spdmNegotiate via p384 sha384) s

/-- GET_DIGESTS (R392). -/
def execGetDigests (via : Via) (s : State) : Host.Outcome State Fault Refusal :=
  does (spdmGetDigests via) s

/-- GET_CERTIFICATE (R392). -/
def execGetCertificate (via : Via) (slot off len : Nat) (s : State) : Host.Outcome State Fault Refusal :=
  does (spdmGetCertificate via slot off len) s

/-- CHALLENGE (R392). -/
def execChallenge (via : Via) (slot : Nat) (nonce : List Byte) (s : State) : Host.Outcome State Fault Refusal :=
  does (spdmChallenge via slot nonce) s

/-- GET_MEASUREMENTS (R392). -/
def execGetMeasurements (via : Via) (i : Nat) (signed : Bool) (nonce : List Byte) (s : State) : Host.Outcome State Fault Refusal :=
  does (spdmGetMeasurements via i signed nonce) s

end Sys2Proof.Machine
end

