-- ==== Sys2Proof/Machine/CmdCare.lean ====
section
/-!
DEFINITION. Meanings of the commands of one family: media time, pilot sampling, refresh and wear.
-/

namespace Sys2Proof.Machine

/-- MEDIA_TIME_TICK (R310). -/
def execMediaTimeTick (s : State) : Host.Outcome State Fault Refusal :=
  does mediaTick s

/-- MEDIA_TIME_SAVE (R310). -/
def execMediaTimeSave (s : State) : Host.Outcome State Fault Refusal :=
  does mediaSave s

/-- TIMESTAMP_WAIT_EXPIRY (R315). -/
def execTimestampWaitExpiry (s : State) : Host.Outcome State Fault Refusal :=
  does timestampWait s

/-- OUTAGE_SWEEP_START (R315). -/
def execOutageSweepStart (m : Nat) (v : Word) (s : State) : Host.Outcome State Fault Refusal :=
  onUnit (fun _ => masterOk m) (regWrite m R.AFFINEUR_CTRL (v ||| 2#32)) s

/-- CADENCE_SAMPLE (R313). -/
def execCadenceSample (points spacing : Nat) (s : State) : Host.Outcome State Fault Refusal :=
  does (cadenceSample points spacing) s

/-- REPORT_ESTIMATE (R319). -/
def execReportEstimate (points spacing : Nat) (s : State) : Host.Outcome State Fault Refusal :=
  does (reportEstimate points spacing) s

/-- BIN_LEARN_TIMEOUT (R184). -/
def execBinLearnTimeout (i : Nat) (s : State) : Host.Outcome State Fault Refusal :=
  onUnit (fun _ => decide (i < 256)) (binTimeout i) s

/-- LEARNED_TABLE_WRITEBACK (R185). -/
def execLearnedTableWriteback (s : State) : Host.Outcome State Fault Refusal :=
  does (learnedWrite false) s

/-- REFRESH_START (R322). -/
def execRefreshStart (s : State) : Host.Outcome State Fault Refusal :=
  does refreshStart s

/-- BACKLOG_MIDNIGHT (R323). -/
def execBacklogMidnight (s : State) : Host.Outcome State Fault Refusal :=
  does backlogMidnight s

/-- WEAR_TABLE_WRITE (R326). -/
def execWearTableWrite (s : State) : Host.Outcome State Fault Refusal :=
  does wearWrite s

end Sys2Proof.Machine
end

