-- ==== Sys2Proof/Machine/CmdChannel.lean ====
section
/-!
DEFINITION. Meanings of the commands of one family: flash channels, tokens, bring-up and training.
-/

namespace Sys2Proof.Machine

/-- FCH_PROFILE_WINDOW_WRITE (R148). -/
def execFchProfileWindowWrite (m n i : Nat) (v : Word) (s : State) : Host.Outcome State Fault Refusal :=
  onUnit (fun _ => masterOk m && decide (n < 48) && decide (i < 1024)) (regWrite m (R.FCH_PROF n i) v) s

/-- FCH_EN_WRITE (R148). -/
def execFchEnWrite (m n : Nat) (v : Word) (s : State) : Host.Outcome State Fault Refusal :=
  onUnit (fun _ => masterOk m && decide (n < 48)) (regWrite m (R.FCH_CTRL n) (v ||| 1#32)) s

/-- FCH_RETRAIN_WRITE (R156). -/
def execFchRetrainWrite (m n : Nat) (v : Word) (s : State) : Host.Outcome State Fault Refusal :=
  onUnit (fun _ => masterOk m && decide (n < 48)) (regWrite m (R.FCH_CTRL n) (v ||| 4#32)) s

/-- FCH_DRIVE_WRITE (R164). -/
def execFchDriveWrite (m n : Nat) (v : Word) (s : State) : Host.Outcome State Fault Refusal :=
  onUnit (fun _ => masterOk m && decide (n < 48)) (regWrite m (R.FCH_DRIVE n) v) s

/-- STATUS_POLL (R149). -/
def execStatusPoll (die plane : Nat) (ready pass idOk : Bool) (trainOk : BitVec 4) (verified : Bool)
    (s : State) : Host.Outcome State Fault Refusal :=
  onUnit (fun d => dieOk d die) (fun d => if ready then lunReadyAll die plane pass idOk trainOk verified d else pollBusy die d) s

/-- LUN_READY (R158). -/
def execLunReady (die plane : Nat) (pass idOk : Bool) (trainOk : BitVec 4) (verified : Bool) (s : State) : Host.Outcome State Fault Refusal :=
  onUnit (fun d => dieOk d die) (lunReadyAll die plane pass idOk trainOk verified) s

/-- DIE_TIMEOUT (R150). -/
def execDieTimeout (lun : LateLun) (s : State) : Host.Outcome State Fault Refusal :=
  onUnit (fun d => dieOk d lun.die) (settled (fun d => zonesStuck (dieTimeoutAll lun.die lun.trainOk d))) s

/-- ZQ_CAL_SHORT_TIMER (R156). -/
def execZqCalShortTimer (n : Nat) (s : State) : Host.Outcome State Fault Refusal :=
  onUnit (fun d => chanOk d n) (zqTimer n) s

/-- RETRAIN_PERIOD_EXPIRY (R156). -/
def execRetrainPeriodExpiry (n : Nat) (s : State) : Host.Outcome State Fault Refusal :=
  onUnit (fun d => chanOk d n) (retrainPeriod n) s

/-- TOKEN_REQUEST (R160). -/
def execTokenRequest (die : Nat) (s : State) : Host.Outcome State Fault Refusal :=
  onUnit (fun d => dieOk d die) (tokenRequest die) s

/-- TOKEN_GRANT (R160). -/
def execTokenGrant (s : State) : Host.Outcome State Fault Refusal :=
  does tokenGrant s

/-- PACE_LIMIT_WRITE (R161). -/
def execPaceLimitWrite (m : Nat) (v : Word) (s : State) : Host.Outcome State Fault Refusal :=
  onUnit (fun _ => masterOk m) (regWrite m R.FCH_PACE_LIMIT v) s

/-- BRINGUP_START (R162). -/
def execBringupStart (m : Nat) (v : Word) (s : State) : Host.Outcome State Fault Refusal :=
  onUnit (fun _ => masterOk m) (regWrite m R.FCH_PACE_BRINGUP (v ||| 0x80000000#32)) s

/-- RESET_WAVE_START (R162). -/
def execResetWaveStart (s : State) : Host.Outcome State Fault Refusal :=
  does (settled waveStart) s

/-- THERMAL_PAUSE_END (R472). -/
def execThermalPauseEnd (n : Nat) (s : State) : Host.Outcome State Fault Refusal :=
  onUnit (fun d => chanOk d n) (pauseEnd n) s

end Sys2Proof.Machine
end

