-- ==== Sys2Proof/Machine/CmdDetect.lean ====
section
/-!
DEFINITION. Meanings of the commands of one family: soft detectors, LDPC decoding, rebuild and parity.
-/

namespace Sys2Proof.Machine

/-- DET_CONTEXT_GRANT (R197). -/
def execDetContextGrant (s : State) : Host.Outcome State Fault Refusal :=
  does (settled ctxGrant) s

/-- DET_JOB_DONE (R189). -/
def execDetJobDone (n ctx : Nat) (obs : DetObs) (fix : Nat) (s : State) : Host.Outcome State Fault Refusal :=
  onUnit (fun d => detOk d n && decide (ctx < 4)) (settled (detJobDone n ctx obs fix)) s

/-- DET_BIN_INVAL_WRITE (R183). -/
def execDetBinInvalWrite (m : Nat) (v : Word) (s : State) : Host.Outcome State Fault Refusal :=
  onUnit (fun _ => masterOk m) (regWrite m R.DET_BIN_INVAL v) s

/-- DET_SELFTEST (R201). -/
def execDetSelftest (m n : Nat) (v : Word) (s : State) : Host.Outcome State Fault Refusal :=
  onUnit (fun _ => masterOk m && decide (n < 24)) (regWrite m (R.DET_CTRL n) (v ||| 2#32)) s

/-- DET_SELFTEST_DONE (R201). -/
def execDetSelftestDone (n : Nat) (pass : Bool) (s : State) : Host.Outcome State Fault Refusal :=
  onUnit (fun d => detOk d n) (selfTestDone n pass) s

/-- DET_EN_WRITE (R203). -/
def execDetEnWrite (m n : Nat) (v : Word) (s : State) : Host.Outcome State Fault Refusal :=
  onUnit (fun _ => masterOk m && decide (n < 24)) (regWrite m (R.DET_CTRL n) v) s

/-- DET_PROF_WRITE (R203). -/
def execDetProfWrite (m : Nat) (v : Word) (s : State) : Host.Outcome State Fault Refusal :=
  onUnit (fun _ => masterOk m) (regWrite m R.DET_PROF v) s

/-- DECODE_DONE (R207). -/
def execDecodeDone (run : Nat) (out : DecOut) (fix : Nat) (s : State) : Host.Outcome State Fault Refusal :=
  does (settled (fun d => parkSweep (decodeDone run out fix d))) s

/-- UNIT_REBUILD_CODEWORD (R227). -/
def execUnitRebuildCodeword (p : Nat) (ok : Bool) (s : State) : Host.Outcome State Fault Refusal :=
  onUnit (fun d => packOk d p) (rebuildNext p ok) s

/-- XORU_ACC_UE (R213). -/
def execXoruAccUe (s : State) : Host.Outcome State Fault Refusal :=
  does accUe s

end Sys2Proof.Machine
end

