-- ==== Sys2Proof/Machine/CmdDomains.lean ====
section
/-!
DEFINITION. Meanings of the commands of one family: power domains.
-/

namespace Sys2Proof.Machine

/-- DOMAIN_RET_TIMER (R448). -/
def execDomainRetTimer (n : Nat) (s : State) : Host.Outcome State Fault Refusal :=
  onUnit (fun d => domPresent d.fuse n) (fun d => detMoved n d (retTimer n d)) s

/-- DOMAIN_OFF_TIMER (R448). -/
def execDomainOffTimer (n : Nat) (s : State) : Host.Outcome State Fault Refusal :=
  onUnit (fun d => domPresent d.fuse n) (offTimer n) s

/-- DOMAIN_DRAIN_END (R452). -/
def execDomainDrainEnd (n : Nat) (busy : Bool) (s : State) : Host.Outcome State Fault Refusal :=
  onUnit (fun d => domPresent d.fuse n) (fun d => detMoved n d (drainEnd n busy d)) s

/-- DOMAIN_MODE_WRITE (R450). -/
def execDomainModeWrite (m n : Nat) (v : Word) (s : State) : Host.Outcome State Fault Refusal :=
  onUnit (fun _ => masterOk m && decide (n < 96)) (regWrite m (R.PWR_DCTRL n) v) s

/-- DOMAIN_WAKE_REQUEST (R452). -/
def execDomainWakeRequest (n m a size : Nat) (write : Bool) (flit : Flit) (s : State) :
    Host.Outcome State Fault Refusal :=
  onUnit (fun d => masterOk m && domPresent d.fuse n) (closedRequest n (fabReq m a size write flit.data flit.chk)) s

/-- DOMAIN_ON_REACHED (R447). -/
def execDomainOnReached (n : Nat) (s : State) : Host.Outcome State Fault Refusal :=
  onUnit (fun d => domPresent d.fuse n) (domainOn n) s

/-- DOMAIN_WAKE_FAIL (R453). -/
def execDomainWakeFail (n : Nat) (s : State) : Host.Outcome State Fault Refusal :=
  onUnit (fun d => domPresent d.fuse n) (wakeFail n) s

/-- DOMAIN_OFF_REACHED (R448). -/
def execDomainOffReached (n : Nat) (s : State) : Host.Outcome State Fault Refusal :=
  onUnit (fun d => domPresent d.fuse n) (offReached n) s

end Sys2Proof.Machine
end

