-- ==== Sys2Proof/Machine/CmdEnergy.lean ====
section
/-!
DEFINITION. Meanings of the commands of one family: hold-up, power-fail flush and thermal management.
-/

namespace Sys2Proof.Machine

/-- HOLDUP_ENABLE (R476). -/
def execHoldupEnable (m : Nat) (v : Word) (s : State) : Host.Outcome State Fault Refusal :=
  onUnit (fun _ => masterOk m) (regWrite m R.HOLDUP_CTRL (v ||| 1#32)) s

/-- BANK_AT_VTOP (R457). -/
def execBankAtVtop (s : State) : Host.Outcome State Fault Refusal :=
  does bankTop s

/-- BANK_RECHARGE (R457). -/
def execBankRecharge (v : Nat) (s : State) : Host.Outcome State Fault Refusal :=
  does (bankRecharge v) s

/-- HEADROOM_DETECT (R458). -/
def execHeadroomDetect (ma : Nat) (s : State) : Host.Outcome State Fault Refusal :=
  does (headroomDetect ma) s

/-- HEADROOM_RETRY (R458). -/
def execHeadroomRetry (ma : Nat) (s : State) : Host.Outcome State Fault Refusal :=
  does (headroomRetry ma) s

/-- HOLDUP_MEASURE_START (R459). -/
def execHoldupMeasureStart (m : Nat) (write : Bool) (v : Word) (s : State) : Host.Outcome State Fault Refusal :=
  onUnit (fun _ => masterOk m) (fun d => if write then regWrite m R.HOLDUP_CTRL (v ||| 2#32) d else measTimer d) s

/-- MEAS_SAG_END (R459). -/
def execMeasSagEnd (v : Nat) (s : State) : Host.Outcome State Fault Refusal :=
  does (measSagEnd v) s

/-- MEAS_RECHARGE_DONE (R459). -/
def execMeasRechargeDone (t : Nat) (s : State) : Host.Outcome State Fault Refusal :=
  does (measDone t) s

/-- MEAS_TIMEOUT (R459). -/
def execMeasTimeout (s : State) : Host.Outcome State Fault Refusal :=
  does measTimeout s

/-- SLOW_ROUND (R470). -/
def execSlowRound (vals : List Int) (s : State) : Host.Outcome State Fault Refusal :=
  does (slowRound vals) s

/-- POWER_FAIL_FLUSH (R463). -/
def execPowerFailFlush (s : State) : Host.Outcome State Fault Refusal :=
  does flushStart s

/-- FLUSH_LUN_RESETS_DONE (R463). -/
def execFlushLunResetsDone (s : State) : Host.Outcome State Fault Refusal :=
  does flushResetsDone s

/-- FLUSH_END_WRITE (R464). -/
def execFlushEndWrite (m : Nat) (v : Word) (s : State) : Host.Outcome State Fault Refusal :=
  onUnit (fun _ => masterOk m) (regWrite m R.HOLDUP_CTRL (v ||| 4#32)) s

/-- FLUSH_DEADLINE_EXPIRY (R465). -/
def execFlushDeadlineExpiry (s : State) : Host.Outcome State Fault Refusal :=
  does flushDeadline s

/-- SUPPLY_BACK (R467). -/
def execSupplyBack (s : State) : Host.Outcome State Fault Refusal :=
  does supplyBackNow s

/-- COLD_RESTART (R467). -/
def execColdRestart (s : State) : Host.Outcome State Fault Refusal :=
  does coldRestart s

/-- THERMAL_SENSOR_CONVERSION (R469). -/
def execThermalSensorConversion (vals : List Int) (s : State) : Host.Outcome State Fault Refusal :=
  does (sensorConvert vals) s

/-- SHUTDOWN_HOLD_END (R473). -/
def execShutdownHoldEnd (s : State) : Host.Outcome State Fault Refusal :=
  does holdEnd s

/-- THERM_ENABLE (R471). -/
def execThermEnable (m : Nat) (v : Word) (s : State) : Host.Outcome State Fault Refusal :=
  onUnit (fun _ => masterOk m) (regWrite m R.THERM_CTRL (v ||| 1#32)) s

end Sys2Proof.Machine
end

