-- ==== Sys2Proof/Machine/CmdEvents.lean ====
section
/-!
DEFINITION. Meanings of the commands of one family: the event recorder.
-/

namespace Sys2Proof.Machine

/-- EVENT_POST (R481). -/
def execEventPost (source code sev : Nat) (cont : Bool) (a0 a1 a2 : Word) (s : State) : Host.Outcome State Fault Refusal :=
  does (eventPost source code sev cont a0 a1 a2) s

/-- EVREC_FLUSH_WRITE (R484). -/
def execEvrecFlushWrite (m : Nat) (v : Word) (s : State) : Host.Outcome State Fault Refusal :=
  onUnit (fun _ => masterOk m) (regWrite m R.EVREC_CTRL (v ||| 2#32)) s

/-- EVREC_CLEAR_WRITE (R486). -/
def execEvrecClearWrite (m : Nat) (v : Word) (s : State) : Host.Outcome State Fault Refusal :=
  onUnit (fun _ => masterOk m) (regWrite m R.EVREC_CTRL (v ||| 4#32)) s

/-- EVREC_RL_WRITE (R482). -/
def execEvrecRlWrite (m : Nat) (v : Word) (s : State) : Host.Outcome State Fault Refusal :=
  onUnit (fun _ => masterOk m) (regWrite m R.EVREC_RL v) s

/-- EVREC_REGION_SCAN (R485). -/
def execEvrecRegionScan (s : State) : Host.Outcome State Fault Refusal :=
  does regionScan s

end Sys2Proof.Machine
end

