-- ==== Sys2Proof/Machine/CmdFabric.lean ====
section
/-!
DEFINITION. Meanings of the commands of one family: fabric monitor, latched reads, register and memory accesses.
-/

namespace Sys2Proof.Machine

/-- FABMON_UPDATE (R30). -/
def execFabmonUpdate (grant hop : Nat) (s : State) : Host.Outcome State Fault Refusal :=
  does (fabmon grant hop) s

/-- ID_TIME_LO_READ (R32). -/
def execIdTimeLoRead (m : Nat) (s : State) : Host.Outcome State Fault Refusal :=
  onUnit (fun _ => masterOk m) (regRead m R.ID_TIME_LO) s

/-- HOSTIF_PTM_LO_READ (R32). -/
def execHostifPtmLoRead (m p : Nat) (s : State) : Host.Outcome State Fault Refusal :=
  onUnit (fun _ => masterOk m && decide (p < 2)) (regRead m (R.HOSTIF_PTM_LO p)) s

/-- MAPU_VER_LO_READ (R309). -/
def execMapuVerLoRead (m : Nat) (s : State) : Host.Outcome State Fault Refusal :=
  onUnit (fun _ => masterOk m) (regRead m R.MAPU_VER_LO) s

/-- AFFINEUR_MTIME_LO_READ (R335). -/
def execAffineurMtimeLoRead (m : Nat) (s : State) : Host.Outcome State Fault Refusal :=
  onUnit (fun _ => masterOk m) (regRead m R.AFFINEUR_MTIME_LO) s

/-- PWR_LW_TIME_LO_READ (R454). -/
def execPwrLwTimeLoRead (m n : Nat) (s : State) : Host.Outcome State Fault Refusal :=
  onUnit (fun _ => masterOk m && decide (n < 96)) (regRead m (R.PWR_LW_TIME_LO n)) s

/-- KV_SLOT_CTR_LO_READ (R394). -/
def execKvSlotCtrLoRead (m : Nat) (s : State) : Host.Outcome State Fault Refusal :=
  onUnit (fun _ => masterOk m) (regRead m R.KV_SLOT_CTR_LO) s

/-- REGISTER_WRITE (R35). -/
def execRegisterWrite (m a : Nat) (v : Word) (s : State) : Host.Outcome State Fault Refusal :=
  onUnit (fun _ => masterOk m) (regWrite m a v) s

/-- MEMORY_READ (R351). -/
def execMemoryRead (m a size : Nat) (fetch : Bool) (s : State) : Host.Outcome State Fault Refusal :=
  onUnit (fun _ => masterOk m) (access (readReq m a size fetch)) s

/-- MEMORY_WRITE (R349). -/
def execMemoryWrite (m a : Nat) (data : DWord) (chk : Byte) (s : State) : Host.Outcome State Fault Refusal :=
  onUnit (fun _ => masterOk m) (access (wordReq m a data chk)) s

/-- PARTIAL_WRITE (R353). -/
def execPartialWrite (m a : Nat) (bytes : List Byte) (s : State) : Host.Outcome State Fault Refusal :=
  onUnit (fun _ => masterOk m && decide (bytes.length < 8)) (access (bytesReq m a bytes)) s

/-- ITEM_ARG_WRITE (R347). -/
def execItemArgWrite (m a : Nat) (v : Word) (s : State) : Host.Outcome State Fault Refusal :=
  onUnit (fun _ => masterOk m && itemArgAddr a) (regWrite m a v) s

end Sys2Proof.Machine
end

