-- ==== Sys2Proof/Machine/CmdInterrupts.lean ====
section
/-!
DEFINITION. Meanings of the commands of one family: Whistle.
-/

namespace Sys2Proof.Machine

/-- FILTERED_LEVEL_CHANGE (R405). -/
def execFilteredLevelChange (i : Nat) (level : Bool) (s : State) : Host.Outcome State Fault Refusal :=
  onUnit (fun _ => decide (i < 16)) (filterChange i level) s

/-- PENDING_SET_ALIAS (R407). -/
def execPendingSetAlias (m j : Nat) (v : Word) (s : State) : Host.Outcome State Fault Refusal :=
  onUnit (fun _ => masterOk m && decide (j < 32)) (regWrite m (R.WH_PEND_SET j) v) s

/-- PENDING_CLEAR_ALIAS (R407). -/
def execPendingClearAlias (m j : Nat) (v : Word) (s : State) : Host.Outcome State Fault Refusal :=
  onUnit (fun _ => masterOk m && decide (j < 32)) (regWrite m (R.WH_PEND_CLR j) v) s

/-- MASK_WRITE (R411). -/
def execMaskWrite (m j kind : Nat) (v : Word) (s : State) : Host.Outcome State Fault Refusal :=
  onUnit (fun _ => masterOk m && decide (j < 32) && decide (kind < 3)) (regWrite m (maskAddr kind j) v) s

/-- WH_CLAIM (R409). -/
def execWhClaim (m x : Nat) (old : Bool) (s : State) : Host.Outcome State Fault Refusal :=
  onUnit (fun _ => masterOk m && decide (x < 32)) (claimRead m x old) s

/-- WH_ROUTE_WRITE (R411). -/
def execWhRouteWrite (m src : Nat) (v : Word) (s : State) : Host.Outcome State Fault Refusal :=
  onUnit (fun _ => masterOk m && decide (src < 1024)) (regWrite m (R.WH_ROUTE src) v) s

/-- WH_THRESH_WRITE (R411). -/
def execWhThreshWrite (m x : Nat) (v : Word) (s : State) : Host.Outcome State Fault Refusal :=
  onUnit (fun _ => masterOk m && decide (x < 32)) (regWrite m (R.WH_THRESH x) v) s

/-- WH_XCFG_WRITE (R405). -/
def execWhXcfgWrite (m i : Nat) (v : Word) (s : State) : Host.Outcome State Fault Refusal :=
  onUnit (fun _ => masterOk m && decide (i < 16)) (regWrite m (R.WH_XCFG i) v) s

/-- WH_MTIMECMP_LO_WRITE (R413). -/
def execWhMtimecmpLoWrite (m h : Nat) (v : Word) (s : State) : Host.Outcome State Fault Refusal :=
  onUnit (fun _ => masterOk m && decide (h < 16)) (regWrite m (R.WH_MTIMECMP_LO h) v) s

/-- WH_MTIMECMP_HI_WRITE (R413). -/
def execWhMtimecmpHiWrite (m h : Nat) (v : Word) (s : State) : Host.Outcome State Fault Refusal :=
  onUnit (fun _ => masterOk m && decide (h < 16)) (regWrite m (R.WH_MTIMECMP_HI h) v) s

/-- TIMER_COMPARE_REACHED (R413). -/
def execTimerCompareReached (h : Nat) (s : State) : Host.Outcome State Fault Refusal :=
  onUnit (fun _ => decide (h < 16)) (timerReached h) s

/-- WH_MSIP_WRITE (R413). -/
def execWhMsipWrite (m h : Nat) (v : Word) (s : State) : Host.Outcome State Fault Refusal :=
  onUnit (fun _ => masterOk m && decide (h < 16)) (regWrite m (R.WH_MSIP h) v) s

/-- WHISTLE_WAKE (R414). -/
def execWhistleWake (k : Nat) (s : State) : Host.Outcome State Fault Refusal :=
  onUnit (fun _ => decide (k < 4)) (whistleWake k) s

end Sys2Proof.Machine
end

