-- ==== Sys2Proof/Machine/CmdIo.lean ====
section
/-!
DEFINITION. Meanings of the commands of one family: NVMe I/O commands, zone management and zone timers.
-/

namespace Sys2Proof.Machine

/-- READ (R41). -/
def execRead (tag : Nat) (s : State) : Host.Outcome State Fault Refusal :=
  does (settled (onOp .read tag (readCmd tag false))) s

/-- WRITE (R38). -/
def execWrite (tag : Nat) (s : State) : Host.Outcome State Fault Refusal :=
  does (fun d => onOp .write tag (fun x => writeStart tag x) d) s

/-- ZONE_APPEND (R99). -/
def execZoneAppend (tag : Nat) (s : State) : Host.Outcome State Fault Refusal :=
  does (fun d => onOp .append tag (fun x => writeStart tag x) d) s

/-- WRITE_ZEROES (R274). -/
def execWriteZeroes (tag : Nat) (s : State) : Host.Outcome State Fault Refusal :=
  does (fun d => onOp .writeZeroes tag (fun x => writeZeroes tag x) d) s

/-- DATASET_MANAGEMENT (R274). -/
def execDatasetManagement (tag : Nat) (s : State) : Host.Outcome State Fault Refusal :=
  does (fun d => onOp .deallocate tag (fun x => deallocate tag x) d) s

/-- VERIFY (R59). -/
def execVerify (tag : Nat) (s : State) : Host.Outcome State Fault Refusal :=
  does (settled (onOp .verify tag (readCmd tag true))) s

/-- FLUSH (R59). -/
def execFlush (c : Src) (sq nsid : Nat) (s : State) : Host.Outcome State Fault Refusal :=
  does (flushCmd c sq nsid) s

/-- SECURE_DISCARD (R303). -/
def execSecureDiscard (tag : Nat) (s : State) : Host.Outcome State Fault Refusal :=
  does (fun d => jFlushIfNeeded (onOp .secureDiscard tag (fun x => secureDiscard tag x) d)) s

/-- SECURE_DISCARD_COMPLETE (R304). -/
def execSecureDiscardComplete (p : Nat) (s : State) : Host.Outcome State Fault Refusal :=
  onUnit (fun d => packOk d p) (fun d => jFlushIfNeeded (secureDiscardDone p d)) s

/-- ZONE_OPEN (R88). -/
def execZoneOpen (tag : Nat) (s : State) : Host.Outcome State Fault Refusal :=
  does (fun d => jFlushIfNeeded (zoneSend .open_ tag d)) s

/-- ZONE_CLOSE (R88). -/
def execZoneClose (tag : Nat) (s : State) : Host.Outcome State Fault Refusal :=
  does (fun d => jFlushIfNeeded (zoneSend .close tag d)) s

/-- ZONE_FINISH (R88). -/
def execZoneFinish (tag : Nat) (s : State) : Host.Outcome State Fault Refusal :=
  does (fun d => jFlushIfNeeded (zoneSend .finish tag d)) s

/-- ZONE_RESET (R108). -/
def execZoneReset (tag : Nat) (s : State) : Host.Outcome State Fault Refusal :=
  does (fun d => jFlushIfNeeded (zoneSend .reset tag d)) s

/-- SECURE_RESET_COMPLETE (R110). -/
def execSecureResetComplete (p : Nat) (s : State) : Host.Outcome State Fault Refusal :=
  onUnit (fun d => packOk d p) (fun d => jFlushIfNeeded (secureResetDone p d)) s

/-- ZONE_OFFLINE (R88). -/
def execZoneOffline (tag : Nat) (s : State) : Host.Outcome State Fault Refusal :=
  does (fun d => jFlushIfNeeded (zoneSend .offline tag d)) s

/-- REPORT_ZONES (R82). -/
def execReportZones (c : Src) (sq nsid lba count : Nat) (s : State) : Host.Outcome State Fault Refusal :=
  does (reportZones c sq nsid lba count) s

/-- ZONE_FRL_EXPIRY (R88). -/
def execZoneFrlExpiry (nsid z : Nat) (s : State) : Host.Outcome State Fault Refusal :=
  does (zoneFrl (zkey nsid z)) s

/-- ZONE_FORCED_FINISH (R88). -/
def execZoneForcedFinish (nsid z : Nat) (s : State) : Host.Outcome State Fault Refusal :=
  does (fun d => jFlushIfNeeded (zoneForced (zkey nsid z) d)) s

/-- PARK_IDLE_EXPIRY (R93). -/
def execParkIdleExpiry (nsid z : Nat) (s : State) : Host.Outcome State Fault Refusal :=
  does (parkIdle (zkey nsid z)) s

/-- ZONE_WRITE_FAIL (R101). -/
def execZoneWriteFail (tag : Nat) (ue : Bool) (s : State) : Host.Outcome State Fault Refusal :=
  does (zoneWriteFail tag (if ue then .ownError else .dataTransfer)) s

end Sys2Proof.Machine
end

