-- ==== Sys2Proof/Machine/CmdManage.lean ====
section
/-!
DEFINITION. Meanings of the commands of one family: the management endpoint.
-/

namespace Sys2Proof.Machine

/-- MGMT_READY (R489). -/
def execMgmtReady (s : State) : Host.Outcome State Fault Refusal :=
  does mgReady s

/-- SET_ENDPOINT_ID (R488). -/
def execSetEndpointId (eid : Nat) (s : State) : Host.Outcome State Fault Refusal :=
  does (setEid eid) s

/-- GET_ENDPOINT_ID (R488). -/
def execGetEndpointId (s : State) : Host.Outcome State Fault Refusal :=
  does getEid s

/-- GET_MCTP_VERSION_SUPPORT (R488). -/
def execGetMctpVersionSupport (s : State) : Host.Outcome State Fault Refusal :=
  does getMctpVersion s

/-- GET_MESSAGE_TYPE_SUPPORT (R488). -/
def execGetMessageTypeSupport (s : State) : Host.Outcome State Fault Refusal :=
  does getMsgTypes s

/-- MCTP_MESSAGE_RECEIVED (R489). -/
def execMctpMessageReceived (type src tag : Nat) (bytes : List Byte) (s : State) : Host.Outcome State Fault Refusal :=
  does (mctpReceived type src tag bytes) s

/-- READ_NVME_MI_DATA_STRUCTURE (R488). -/
def execReadNvmeMiDataStructure (type arg : Nat) (s : State) : Host.Outcome State Fault Refusal :=
  does (miDataStructure type arg) s

/-- SUBSYSTEM_HEALTH_STATUS_POLL (R488). -/
def execSubsystemHealthStatusPoll (s : State) : Host.Outcome State Fault Refusal :=
  does miSubsystemHealth s

/-- CONTROLLER_HEALTH_STATUS_POLL (R488). -/
def execControllerHealthStatusPoll (id : Nat) (s : State) : Host.Outcome State Fault Refusal :=
  does (miControllerHealth id) s

/-- CONFIGURATION_GET (R488). -/
def execConfigurationGet (id : Nat) (s : State) : Host.Outcome State Fault Refusal :=
  does (miConfigGet id) s

/-- CONFIGURATION_SET (R488). -/
def execConfigurationSet (id v : Nat) (s : State) : Host.Outcome State Fault Refusal :=
  does (miConfigSet id v) s

/-- VPD_READ (R488). -/
def execVpdRead (off len : Nat) (s : State) : Host.Outcome State Fault Refusal :=
  does (miVpdRead off len) s

/-- VPD_WRITE (R488). -/
def execVpdWrite (off : Nat) (bs : List Byte) (s : State) : Host.Outcome State Fault Refusal :=
  does (miVpdWrite off bs) s

/-- MGMT_RX_RELEASE (R489). -/
def execMgmtRxRelease (m : Nat) (s : State) : Host.Outcome State Fault Refusal :=
  onUnit (fun _ => masterOk m) (regWrite m R.MGMT_RXCTL (0x40000000#32)) s

/-- MGMT_TX_GO (R488). -/
def execMgmtTxGo (m : Nat) (v : Word) (s : State) : Host.Outcome State Fault Refusal :=
  onUnit (fun _ => masterOk m) (regWrite m R.MGMT_TXCTL (v ||| 0x80000000#32)) s

/-- MGMT_TX_DONE (R488). -/
def execMgmtTxDone (s : State) : Host.Outcome State Fault Refusal :=
  does txDone s

/-- MGMT_ALERT_SET (R488). -/
def execMgmtAlertSet (m : Nat) (v : Word) (s : State) : Host.Outcome State Fault Refusal :=
  onUnit (fun _ => masterOk m) (regWrite m R.MGMT_CTRL (v ||| 4#32)) s

/-- ALERT_RESPONSE_READ (R488). -/
def execAlertResponseRead (s : State) : Host.Outcome State Fault Refusal :=
  does alertRead s

/-- I3C_ADDRESS_ASSIGN (R488). -/
def execI3cAddressAssign (addr : Nat) (s : State) : Host.Outcome State Fault Refusal :=
  does (i3cAssign addr) s

/-- I3C_RSTDAA (R488). -/
def execI3cRstdaa (s : State) : Host.Outcome State Fault Refusal :=
  does toSmbus s

/-- MCTP_PACKET_ERROR (R493). -/
def execMctpPacketError (s : State) : Host.Outcome State Fault Refusal :=
  does packetError s

end Sys2Proof.Machine
end

