-- ==== Sys2Proof/Machine/CmdMap.lean ====
section
/-!
DEFINITION. Meanings of the commands of one family: zone moves, map segments, journal, garbage collection and recovery.
-/

namespace Sys2Proof.Machine

/-- ZONE_MOVE_SWITCH (R270). -/
def execZoneMoveSwitch (nsid z : Nat) (lost : List Nat) (s : State) : Host.Outcome State Fault Refusal :=
  does (fun d => jFlushIfNeeded (zoneMoveSwitch (zkey nsid z) lost d)) s

/-- SEGMENT_VERIFY_FAIL (R280). -/
def execSegmentVerifyFail (seg : Nat) (s : State) : Host.Outcome State Fault Refusal :=
  does (segVerifyFail seg) s

/-- SEGMENT_REBUILD_DONE (R280). -/
def execSegmentRebuildDone (seg : Nat) (s : State) : Host.Outcome State Fault Refusal :=
  does (segRebuildDone seg) s

/-- MAPU_ENABLE (R277). -/
def execMapuEnable (m : Nat) (v : Word) (s : State) : Host.Outcome State Fault Refusal :=
  onUnit (fun _ => masterOk m) (regWrite m R.MAPU_CTRL (v ||| 1#32)) s

/-- MAPU_REKEY (R283). -/
def execMapuRekey (m : Nat) (v : Word) (s : State) : Host.Outcome State Fault Refusal :=
  onUnit (fun _ => masterOk m) (regWrite m R.MAPU_CTRL (v ||| 2#32)) s

/-- REKEY_SWEEP_END (R283). -/
def execRekeySweepEnd (s : State) : Host.Outcome State Fault Refusal :=
  does rekeyEnd s

/-- MAPU_JFLUSH_WRITE (R292). -/
def execMapuJflushWrite (m : Nat) (v : Word) (s : State) : Host.Outcome State Fault Refusal :=
  onUnit (fun _ => masterOk m) (regWrite m R.MAPU_CTRL (v ||| 4#32)) s

/-- JOURNAL_FLUSH_INTERVAL (R292). -/
def execJournalFlushInterval (s : State) : Host.Outcome State Fault Refusal :=
  does jTimed s

/-- JOURNAL_FLUSH_COMPLETE (R292). -/
def execJournalFlushComplete (s : State) : Host.Outcome State Fault Refusal :=
  does jComplete s

/-- GC_MOVE_SWITCH (R288). -/
def execGcMoveSwitch (nsid lba : Nat) (lost : Bool) (s : State) : Host.Outcome State Fault Refusal :=
  does (fun d => jFlushIfNeeded (gcSwitch nsid lba lost d)) s

/-- MAP_RECOVERY (R299). -/
def execMapRecovery (s : State) : Host.Outcome State Fault Refusal :=
  does mapRecovery s

end Sys2Proof.Machine
end

