-- ==== Sys2Proof/Machine/CmdMemory.lean ====
section
/-!
DEFINITION. Meanings of the commands of one family: buffer pools, DRAM and memory checking.
-/

namespace Sys2Proof.Machine

/-- CURD_ENABLE (R338). -/
def execCurdEnable (m : Nat) (s : State) : Host.Outcome State Fault Refusal :=
  onUnit (fun _ => masterOk m) (regWrite m R.CURD_CTRL (1#32)) s

/-- CURD_POOL_INIT_END (R338). -/
def execCurdPoolInitEnd (s : State) : Host.Outcome State Fault Refusal :=
  does curdInited s

/-- CURD_GRANT (R340). -/
def execCurdGrant (m n : Nat) (nofall hard : Bool) (s : State) : Host.Outcome State Fault Refusal :=
  onUnit (fun _ => masterOk m) (curdAsk hard m (grantWord n nofall) 0) s

/-- CURD_SHARE (R344). -/
def execCurdShare (m g : Nat) (hard : Bool) (ptr : Nat) (s : State) : Host.Outcome State Fault Refusal :=
  onUnit (fun _ => masterOk m) (curdAsk hard m (curdWord 2 g) ptr) s

/-- CURD_DROP (R344). -/
def execCurdDrop (m : Nat) (hard : Bool) (ptr : Nat) (s : State) : Host.Outcome State Fault Refusal :=
  onUnit (fun _ => masterOk m) (curdAsk hard m (curdWord 3 0) ptr) s

/-- CURD_FREE (R344). -/
def execCurdFree (m : Nat) (hard : Bool) (ptr : Nat) (s : State) : Host.Outcome State Fault Refusal :=
  onUnit (fun _ => masterOk m) (curdAsk hard m (curdWord 4 0) ptr) s

/-- CURD_RELEASE_DONE (R345). -/
def execCurdReleaseDone (ptr : Nat) (s : State) : Host.Outcome State Fault Refusal :=
  does (curdReleased ptr) s

/-- CURD_EMPTY_RETRY (R342). -/
def execCurdEmptyRetry (s : State) : Host.Outcome State Fault Refusal :=
  does curdRetry s

/-- CURD_FLUSH_WRITE (R348). -/
def execCurdFlushWrite (m : Nat) (v : Word) (s : State) : Host.Outcome State Fault Refusal :=
  onUnit (fun _ => masterOk m) (regWrite m R.CURD_FLUSH v) s

/-- DRAMC_ENABLE (R363). -/
def execDramcEnable (m : Nat) (v : Word) (s : State) : Host.Outcome State Fault Refusal :=
  onUnit (fun _ => masterOk m) (regWrite m R.DRAMC_CTRL (v ||| 1#32)) s

/-- DRAMC_INIT (R356). -/
def execDramcInit (m : Nat) (v : Word) (s : State) : Host.Outcome State Fault Refusal :=
  onUnit (fun _ => masterOk m) (regWrite m R.DRAMC_CTRL (v ||| 2#32)) s

/-- DRAMC_INIT_DONE (R356). -/
def execDramcInitDone (s : State) : Host.Outcome State Fault Refusal :=
  does dramcInitDone s

/-- DRAM_TRAIN_FAIL (R357). -/
def execDramTrainFail (k : Nat) (s : State) : Host.Outcome State Fault Refusal :=
  onUnit (fun _ => decide (k < 4)) (dramTrainFail k) s

/-- MEMCHK_SCRUB_GO (R358). -/
def execMemchkScrubGo (m : Nat) (s : State) : Host.Outcome State Fault Refusal :=
  onUnit (fun _ => masterOk m) (regWrite m R.MEMCHK_SCRUB_CTRL (1#32)) s

/-- MEMCHK_SCRUB_ABORT (R359). -/
def execMemchkScrubAbort (m : Nat) (s : State) : Host.Outcome State Fault Refusal :=
  onUnit (fun _ => masterOk m) (regWrite m R.MEMCHK_SCRUB_CTRL (2#32)) s

/-- MEMCHK_SCRUB_DONE (R359). -/
def execMemchkScrubDone (s : State) : Host.Outcome State Fault Refusal :=
  does scrubDone s

/-- MEMCHK_TEST_WRITE (R360). -/
def execMemchkTestWrite (m : Nat) (s : State) : Host.Outcome State Fault Refusal :=
  onUnit (fun _ => masterOk m) (regWrite m R.MEMCHK_TCTRL (1#32)) s

/-- MEMCHK_TEST_READ (R360). -/
def execMemchkTestRead (m : Nat) (s : State) : Host.Outcome State Fault Refusal :=
  onUnit (fun _ => masterOk m) (regWrite m R.MEMCHK_TCTRL (2#32)) s

/-- DRAM_TRAINING_DONE (R357). -/
def execDramTrainingDone (k : Nat) (s : State) : Host.Outcome State Fault Refusal :=
  onUnit (fun _ => decide (k < 4)) (dramTrained k) s

end Sys2Proof.Machine
end

