-- ==== Sys2Proof/Machine/CmdPorts.lean ====
section
/-!
DEFINITION. Meanings of the commands of one family: host ports, links, controllers, doorbells and completions.
-/

namespace Sys2Proof.Machine

/-- PERST_ASSERT (R57). -/
def execPerstAssert (p : Nat) (s : State) : Host.Outcome State Fault Refusal :=
  onUnit (fun d => portPresent d p) (perstAssert p) s

/-- PERST_RELEASE (R55). -/
def execPerstRelease (p : Nat) (s : State) : Host.Outcome State Fault Refusal :=
  onUnit (fun d => portPresent d p) (perstRelease p) s

/-- LINK_TRAINING_DONE (R46). -/
def execLinkTrainingDone (p rate width : Nat) (flit : Bool) (s : State) : Host.Outcome State Fault Refusal :=
  onUnit (fun d => portPresent d p) (linkTrained p rate width flit) s

/-- CONFIG_REQUEST (R55). -/
def execConfigRequest (p : Nat) (req : CfgReq) (s : State) : Host.Outcome State Fault Refusal :=
  onUnit (fun d => ctrlOk d p req.fn) (configRequest p req.fn req.ask) s

/-- BOOT_CONFIG_TIMEOUT (R55). -/
def execBootConfigTimeout (p : Nat) (s : State) : Host.Outcome State Fault Refusal :=
  onUnit (fun d => portPresent d p) (bootConfigTimeout p) s

/-- FW_UP_SET (R55). -/
def execFwUpSet (m : Nat) (s : State) : Host.Outcome State Fault Refusal :=
  onUnit (fun _ => masterOk m) (regWrite m R.HOSTIF_BOOT (1#32)) s

/-- CC_EN_WRITE (R56). -/
def execCcEnWrite (p fn : Nat) (w : CcWrite) (s : State) : Host.Outcome State Fault Refusal :=
  onUnit (fun d => ctrlOk d p fn) (ccEnWrite p fn w.en w.cc w.aqa w.asq w.acq) s

/-- CC_SHN_WRITE (R78). -/
def execCcShnWrite (p fn shn : Nat) (s : State) : Host.Outcome State Fault Refusal :=
  onUnit (fun d => ctrlOk d p fn) (ccShnWrite p fn shn) s

/-- LINK_WIDTH_REDUCE (R48). -/
def execLinkWidthReduce (p : Nat) (s : State) : Host.Outcome State Fault Refusal :=
  onUnit (fun d => portPresent d p) (widthReduce p) s

/-- L1_2_ENTRY (R49). -/
def execL12Entry (p : Nat) (s : State) : Host.Outcome State Fault Refusal :=
  onUnit (fun d => portPresent d p) (l12Entry p) s

/-- CLKREQ_WAKE (R49). -/
def execClkreqWake (p : Nat) (s : State) : Host.Outcome State Fault Refusal :=
  onUnit (fun d => portPresent d p) (clkreqWake p) s

/-- PTM_REFRESH (R50). -/
def execPtmRefresh (p : Nat) (offset : DWord) (s : State) : Host.Outcome State Fault Refusal :=
  onUnit (fun d => portPresent d p) (ptmRefresh p offset) s

/-- PTM_FAIL (R50). -/
def execPtmFail (p : Nat) (s : State) : Host.Outcome State Fault Refusal :=
  onUnit (fun d => portPresent d p) (ptmFail p) s

/-- FUNCTION_LEVEL_RESET (R62). -/
def execFunctionLevelReset (p fn : Nat) (s : State) : Host.Outcome State Fault Refusal :=
  onUnit (fun d => ctrlOk d p fn) (flr p fn) s

/-- CONTROLLER_LEVEL_RESET (R62). -/
def execControllerLevelReset (p fn : Nat) (s : State) : Host.Outcome State Fault Refusal :=
  onUnit (fun d => ctrlOk d p fn) (clr p fn) s

/-- DOORBELL_WRITE (R120). -/
def execDoorbellWrite (p fn sq : Nat) (cmds : List IoCmd) (s : State) : Host.Outcome State Fault Refusal :=
  onUnit (fun d => ctrlOk d p fn) (doorbell p fn sq cmds) s

/-- COMPLETION_ITEM_POST (R78). -/
def execCompletionItemPost (m : Nat) (v : Word) (s : State) : Host.Outcome State Fault Refusal :=
  onUnit (fun _ => masterOk m) (regWrite m R.HOSTIF_ACPL v) s

/-- HOSTIF_CCTL_WRITE (R78). -/
def execHostifCctlWrite (m : Nat) (v : Word) (s : State) : Host.Outcome State Fault Refusal :=
  onUnit (fun _ => masterOk m) (regWrite m R.HOSTIF_CCTL v) s

/-- ADMIN_EN_WRITE (R78). -/
def execAdminEnWrite (m : Nat) (v : Word) (s : State) : Host.Outcome State Fault Refusal :=
  onUnit (fun _ => masterOk m) (regWrite m R.HOSTIF_CTRL (v ||| 2#32)) s

/-- LINK_DOWN (R78). -/
def execLinkDown (p : Nat) (disabled : Bool) (s : State) : Host.Outcome State Fault Refusal :=
  onUnit (fun d => portPresent d p) (linkDown p disabled) s

/-- PCIE_ERROR_LOGGED (R78). -/
def execPcieErrorLogged (p : Nat) (uncor : Bool) (s : State) : Host.Outcome State Fault Refusal :=
  onUnit (fun d => portPresent d p) (pcieError p uncor) s

/-- PARTNER_WIDTH_REQUEST (R48). -/
def execPartnerWidthRequest (p w : Nat) (s : State) : Host.Outcome State Fault Refusal :=
  onUnit (fun d => portPresent d p) (partnerWidth p w) s

end Sys2Proof.Machine
end

