-- ==== Sys2Proof/Machine/CmdRindBoot.lean ====
section
/-!
DEFINITION. Meanings of the commands of one family: the Rind store and boot.
-/

namespace Sys2Proof.Machine

/-- RIND_PROGRAM (R420). -/
def execRindProgram (m : Nat) (s : State) : Host.Outcome State Fault Refusal :=
  onUnit (fun _ => masterOk m) (regWrite m R.RIND_CMD (BitVec.ofNat 32 (1 * 268435456))) s

/-- RIND_ERASE (R421). -/
def execRindErase (m : Nat) (s : State) : Host.Outcome State Fault Refusal :=
  onUnit (fun _ => masterOk m) (regWrite m R.RIND_CMD (BitVec.ofNat 32 (2 * 268435456))) s

/-- RIND_LOCK (R422). -/
def execRindLock (m : Nat) (s : State) : Host.Outcome State Fault Refusal :=
  onUnit (fun _ => masterOk m) (regWrite m R.RIND_CMD (BitVec.ofNat 32 (3 * 268435456))) s

/-- RIND_UNLOCK (R423). -/
def execRindUnlock (m : Nat) (s : State) : Host.Outcome State Fault Refusal :=
  onUnit (fun _ => masterOk m) (regWrite m R.RIND_CMD (BitVec.ofNat 32 (4 * 268435456))) s

/-- RIND_SET_PW (R422). -/
def execRindSetPw (m : Nat) (s : State) : Host.Outcome State Fault Refusal :=
  onUnit (fun _ => masterOk m) (regWrite m R.RIND_CMD (BitVec.ofNat 32 (5 * 268435456))) s

/-- RIND_ABORT (R421). -/
def execRindAbort (m : Nat) (s : State) : Host.Outcome State Fault Refusal :=
  onUnit (fun _ => masterOk m) (regWrite m R.RIND_CMD (BitVec.ofNat 32 (6 * 268435456))) s

/-- RIND_OP_DONE (R418). -/
def execRindOpDone (s : State) : Host.Outcome State Fault Refusal :=
  does rindOpDone s

/-- RIND_WINDOW_READ (R419). -/
def execRindWindowRead (m off size : Nat) (s : State) : Host.Outcome State Fault Refusal :=
  onUnit (fun _ => masterOk m && decide (off < 0x1000000)) (access (readReq m (0x30000000 + off) size false)) s

/-- ROM_START (R435). -/
def execRomStart (s : State) : Host.Outcome State Fault Refusal :=
  does romStart s

/-- BOOT_ATTEMPT (R436). -/
def execBootAttempt (s : State) : Host.Outcome State Fault Refusal :=
  does bootAttempt s

/-- BOOT_BACKOFF_EXPIRY (R437). -/
def execBootBackoffExpiry (s : State) : Host.Outcome State Fault Refusal :=
  does backoffEnd s

/-- BOOT_WATCHDOG_EXPIRY (R438). -/
def execBootWatchdogExpiry (s : State) : Host.Outcome State Fault Refusal :=
  does watchdogExpiry s

/-- BOOT_WATCHDOG_STOP (R438). -/
def execBootWatchdogStop (m : Nat) (s : State) : Host.Outcome State Fault Refusal :=
  onUnit (fun _ => masterOk m) (regWrite m R.RIND_BOOTWDT (0x80000000#32)) s

/-- ROLLBACK_REQUEST (R442). -/
def execRollbackRequest (m : Nat) (v : Word) (s : State) : Host.Outcome State Fault Refusal :=
  onUnit (fun _ => masterOk m) (regWrite m R.RIND_BOOTCTL (v ||| 1#32)) s

/-- FW_STATE_WRITE (R439). -/
def execFwStateWrite (m : Nat) (v : Word) (s : State) : Host.Outcome State Fault Refusal :=
  onUnit (fun _ => masterOk m) (regWrite m R.RIND_BOOTCTL v) s

/-- TRIAL_COMMIT (R441). -/
def execTrialCommit (s : State) : Host.Outcome State Fault Refusal :=
  does trialCommit s

/-- SETTINGS_JOURNAL_COMPACTION (R445). -/
def execSettingsJournalCompaction (s : State) : Host.Outcome State Fault Refusal :=
  does sjCompact s

end Sys2Proof.Machine
end

