-- ==== Sys2Proof/Machine/CmdSched.lean ====
section
/-!
DEFINITION. Meanings of the commands of one family: admission and the scheduling of reads, programs and erases.
-/

namespace Sys2Proof.Machine

/-- ADMIT_COMMAND (R121). -/
def execAdmitCommand (s : State) : Host.Outcome State Fault Refusal :=
  does (fun d => jFlushIfNeeded (admitHeads d)) s

/-- HOLD_LONG_EXPIRY (R142). -/
def execHoldLongExpiry (k : Nat) (s : State) : Host.Outcome State Fault Refusal :=
  does (holdLong k) s

/-- READ_DISPATCH (R125). -/
def execReadDispatch (die : Nat) (s : State) : Host.Outcome State Fault Refusal :=
  onUnit (fun d => dieOk d die) (settled (readDispatch die)) s

/-- BUSY_STATUS_RETURN (R152). -/
def execBusyStatusReturn (die : Nat) (s : State) : Host.Outcome State Fault Refusal :=
  onUnit (fun d => dieOk d die) (settled (busyReturn die)) s

/-- PWAIT_GUARD_EXPIRY (R126). -/
def execPwaitGuardExpiry (die : Nat) (s : State) : Host.Outcome State Fault Refusal :=
  onUnit (fun d => dieOk d die) (pwaitExpiry die) s

/-- SUSPEND_TAKES_EFFECT (R134). -/
def execSuspendTakesEffect (die : Nat) (complete pass verified : Bool) (s : State) : Host.Outcome State Fault Refusal :=
  onUnit (fun d => dieOk d die) (settled (suspendTakes die complete pass verified)) s

/-- SUSPEND_HOLD_EXPIRY (R129). -/
def execSuspendHoldExpiry (die : Nat) (s : State) : Host.Outcome State Fault Refusal :=
  onUnit (fun d => dieOk d die) (settled (holdExpiry die)) s

/-- HOST_TRANSFER_DONE (R41). -/
def execHostTransferDone (tag : Nat) (s : State) : Host.Outcome State Fault Refusal :=
  does (hostTransfer tag) s

/-- WRITE_DATA_STAGED (R39). -/
def execWriteDataStaged (tag : Nat) (s : State) : Host.Outcome State Fault Refusal :=
  does (writeStaged tag) s

/-- OPERATION_START (R43). -/
def execOperationStart (die : Nat) (s : State) : Host.Outcome State Fault Refusal :=
  onUnit (fun d => dieOk d die) (settled (opStart die)) s

end Sys2Proof.Machine
end

