-- ==== Sys2Proof/Machine/CmdStartup.lean ====
section
/-!
DEFINITION. Meanings of the commands of one family: power-good, reset lines, start-up slots and resets.
-/

namespace Sys2Proof.Machine

/-- PGOOD_RISE (R455). -/
def execPgoodRise (supplyLost : Bool) (s : State) : Host.Outcome State Fault Refusal :=
  does (pgoodRise supplyLost) s

/-- PGOOD_FALL (R506). -/
def execPgoodFall (s : State) : Host.Outcome State Fault Refusal :=
  does pgoodFall s

/-- SYS_RESET_ASSERT (R456). -/
def execSysResetAssert (s : State) : Host.Outcome State Fault Refusal :=
  does sysResetAssert s

/-- SYS_RESET_RELEASE (R44). -/
def execSysResetRelease (dualPort refclk1 sris : Bool) (s : State) : Host.Outcome State Fault Refusal :=
  does (sysResetRelease dualPort refclk1 sris) s

/-- STARTUP_SLOT (R455). -/
def execStartupSlot (s : State) : Host.Outcome State Fault Refusal :=
  does startupSlot s

/-- INTERNAL_RESET (R456). -/
def execInternalReset (s : State) : Host.Outcome State Fault Refusal :=
  does internalReset s

/-- RESET_WRITE (R442). -/
def execResetWrite (m : Nat) (v : Word) (s : State) : Host.Outcome State Fault Refusal :=
  onUnit (fun _ => masterOk m) (regWrite m R.RIND_BOOTCTL (v ||| 2#32)) s

/-- NVM_SUBSYSTEM_RESET (R433). -/
def execNvmSubsystemReset (p fn : Nat) (s : State) : Host.Outcome State Fault Refusal :=
  onUnit (fun d => ctrlOk d p fn) (subsystemReset p fn) s

end Sys2Proof.Machine
end

