-- ==== Sys2Proof/Machine/CmdTap.lean ====
section
/-!
DEFINITION. Meanings of the commands of one family: the TAP.
-/

namespace Sys2Proof.Machine

/-- JTAG_EXTEST (R490). -/
def execJtagExtest (levels cells : List (Nat × Bool)) (s : State) : Host.Outcome State Fault Refusal :=
  does (jtagExtest levels cells) s

/-- JTAG_IDCODE (R490). -/
def execJtagIdcode (s : State) : Host.Outcome State Fault Refusal :=
  does jtagIdcode s

/-- JTAG_SAMPLE_PRELOAD (R490). -/
def execJtagSamplePreload (levels cells : List (Nat × Bool)) (s : State) : Host.Outcome State Fault Refusal :=
  does (jtagSample levels cells) s

/-- JTAG_CLAMP (R490). -/
def execJtagClamp (s : State) : Host.Outcome State Fault Refusal :=
  does jtagClamp s

/-- JTAG_HIGHZ (R490). -/
def execJtagHighz (s : State) : Host.Outcome State Fault Refusal :=
  does jtagHighz s

/-- JTAG_BYPASS (R490). -/
def execJtagBypass (s : State) : Host.Outcome State Fault Refusal :=
  does jtagBypass s

/-- DBG_CHAL (R491). -/
def execDbgChal (s : State) : Host.Outcome State Fault Refusal :=
  does jtagChallenge s

/-- DBG_RESP (R491). -/
def execDbgResp (resp : BitVec 768) (s : State) : Host.Outcome State Fault Refusal :=
  does (jtagResponse resp) s

/-- DBG_STAT (R490). -/
def execDbgStat (s : State) : Host.Outcome State Fault Refusal :=
  does jtagStat s

/-- DMI (R491). -/
def execDmi (addr : Nat) (write : Bool) (v : Word) (s : State) : Host.Outcome State Fault Refusal :=
  does (jtagDmi addr write v) s

end Sys2Proof.Machine
end

