-- ==== Sys2Proof/Machine/CmdVault.lean ====
section
/-!
DEFINITION. Meanings of the commands of one family: key vault, cipher engines, random numbers, signatures, Collar and alarms.
-/

namespace Sys2Proof.Machine

/-- KV_GENERATE (R367). -/
def execKvGenerate (m : Nat) (v : Word) (s : State) : Host.Outcome State Fault Refusal :=
  onUnit (fun _ => masterOk m) (regWrite m R.KV_CMD (putFld v 28 4 1)) s

/-- KV_WRAP (R367). -/
def execKvWrap (m : Nat) (v : Word) (s : State) : Host.Outcome State Fault Refusal :=
  onUnit (fun _ => masterOk m) (regWrite m R.KV_CMD (putFld v 28 4 2)) s

/-- KV_UNWRAP (R369). -/
def execKvUnwrap (m : Nat) (v : Word) (s : State) : Host.Outcome State Fault Refusal :=
  onUnit (fun _ => masterOk m) (regWrite m R.KV_CMD (putFld v 28 4 3)) s

/-- KV_CLEAR (R367). -/
def execKvClear (m : Nat) (v : Word) (s : State) : Host.Outcome State Fault Refusal :=
  onUnit (fun _ => masterOk m) (regWrite m R.KV_CMD (putFld v 28 4 4)) s

/-- KV_BIND (R367). -/
def execKvBind (m : Nat) (v : Word) (s : State) : Host.Outcome State Fault Refusal :=
  onUnit (fun _ => masterOk m) (regWrite m R.KV_CMD (putFld v 28 4 5)) s

/-- KV_ERASE_ALL (R386). -/
def execKvEraseAll (m : Nat) (v : Word) (s : State) : Host.Outcome State Fault Refusal :=
  onUnit (fun _ => masterOk m) (regWrite m R.KV_CMD (putFld v 28 4 6)) s

/-- KEY_AREA_ERASE (R386). -/
def execKeyAreaErase (s : State) : Host.Outcome State Fault Refusal :=
  does erasureEnd s

/-- NS_KEY_RESTORE (R368). -/
def execNsKeyRestore (s : State) : Host.Outcome State Fault Refusal :=
  does nsKeysRestore s

/-- CIPHER_HOST_JOB (R372). -/
def execCipherHostJob (tag : Nat) (s : State) : Host.Outcome State Fault Refusal :=
  does (hostCipher tag) s

/-- CIPHER_XTS_ENCRYPT (R373). -/
def execCipherXtsEncrypt (m k slot : Nat) (s : State) : Host.Outcome State Fault Refusal :=
  onUnit (fun _ => masterOk m && decide (k < 4)) (cipherAsk m k 1 slot) s

/-- CIPHER_XTS_DECRYPT (R373). -/
def execCipherXtsDecrypt (m k slot : Nat) (s : State) : Host.Outcome State Fault Refusal :=
  onUnit (fun _ => masterOk m && decide (k < 4)) (cipherAsk m k 2 slot) s

/-- CIPHER_GCM_ENCRYPT (R377). -/
def execCipherGcmEncrypt (m k slot : Nat) (s : State) : Host.Outcome State Fault Refusal :=
  onUnit (fun _ => masterOk m && decide (k < 4)) (cipherAsk m k 3 slot) s

/-- CIPHER_GCM_DECRYPT (R378). -/
def execCipherGcmDecrypt (m k slot : Nat) (s : State) : Host.Outcome State Fault Refusal :=
  onUnit (fun _ => masterOk m && decide (k < 4)) (cipherAsk m k 4 slot) s

/-- CIPHER_JOB_DONE (R379). -/
def execCipherJobDone (k : Nat) (s : State) : Host.Outcome State Fault Refusal :=
  onUnit (fun d => cipherOk d k) (jobDone k) s

/-- MASK_RESEED (R371). -/
def execMaskReseed (k : Nat) (s : State) : Host.Outcome State Fault Refusal :=
  onUnit (fun d => cipherOk d k) (maskReseed k) s

/-- DRBG_RESEED (R380). -/
def execDrbgReseed (healthy : Bool) (s : State) : Host.Outcome State Fault Refusal :=
  does (drbgDue healthy) s

/-- ENTROPY_HEALTH_FAIL (R380). -/
def execEntropyHealthFail (kind : Nat) (s : State) : Host.Outcome State Fault Refusal :=
  onUnit (fun _ => decide (kind < 2)) (entropyFail kind) s

/-- SIGV_VERIFY (R381). -/
def execSigvVerify (m : Nat) (v : Word) (s : State) : Host.Outcome State Fault Refusal :=
  onUnit (fun _ => masterOk m) (regWrite m R.SIGV_CTRL (v ||| 1#32)) s

/-- SIGV_VERIFY_DONE (R381). -/
def execSigvVerifyDone (s : State) : Host.Outcome State Fault Refusal :=
  does verifyDone s

/-- SIGV_HASH (R381). -/
def execSigvHash (m : Nat) (v : Word) (s : State) : Host.Outcome State Fault Refusal :=
  onUnit (fun _ => masterOk m) (regWrite m R.SIGV_CTRL (v ||| 2#32)) s

/-- SIGV_HASH_DONE (R381). -/
def execSigvHashDone (s : State) : Host.Outcome State Fault Refusal :=
  does sigvHashDone s

/-- SIGV_RNG_DATA_READ (R380). -/
def execSigvRngDataRead (m : Nat) (s : State) : Host.Outcome State Fault Refusal :=
  onUnit (fun _ => masterOk m) (regRead m R.SIGV_RNG_DATA) s

/-- COLLAR_ENFORCE_SET (R383). -/
def execCollarEnforceSet (m : Nat) (s : State) : Host.Outcome State Fault Refusal :=
  onUnit (fun _ => masterOk m) (regWrite m R.COLLAR_CTRL (1#32)) s

/-- COLLAR_LOCK_SET (R383). -/
def execCollarLockSet (m : Nat) (s : State) : Host.Outcome State Fault Refusal :=
  onUnit (fun _ => masterOk m) (regWrite m R.COLLAR_CTRL (2#32)) s

/-- ALARM (R385). -/
def execAlarm (src m : Nat) (s : State) : Host.Outcome State Fault Refusal :=
  onUnit (fun _ => decide (src < 5) && decide (m < 128)) (alarm src m) s

end Sys2Proof.Machine
end

