-- ==== Sys2Proof/Machine/Dispatch.lean ====
section
/-!
DEFINITION. One arm per command: its meaning.
-/

namespace Sys2Proof.Machine

/-- The effect of a command on everything but the queue. -/
def exec (i : Instr) (s : State) : Host.Outcome State Fault Refusal :=
  match i with
  | .pgoodRise supplyLost => Sys2Proof.Machine.execPgoodRise supplyLost s
  | .pgoodFall => Sys2Proof.Machine.execPgoodFall s
  | .sysResetAssert => Sys2Proof.Machine.execSysResetAssert s
  | .sysResetRelease dualPort refclk1 sris => Sys2Proof.Machine.execSysResetRelease dualPort refclk1 sris s
  | .startupSlot => Sys2Proof.Machine.execStartupSlot s
  | .internalReset => Sys2Proof.Machine.execInternalReset s
  | .resetWrite m v => Sys2Proof.Machine.execResetWrite m v s
  | .nvmSubsystemReset p fn => Sys2Proof.Machine.execNvmSubsystemReset p fn s
  | .fabmonUpdate grant hop => Sys2Proof.Machine.execFabmonUpdate grant hop s
  | .idTimeLoRead m => Sys2Proof.Machine.execIdTimeLoRead m s
  | .hostifPtmLoRead m p => Sys2Proof.Machine.execHostifPtmLoRead m p s
  | .mapuVerLoRead m => Sys2Proof.Machine.execMapuVerLoRead m s
  | .affineurMtimeLoRead m => Sys2Proof.Machine.execAffineurMtimeLoRead m s
  | .pwrLwTimeLoRead m n => Sys2Proof.Machine.execPwrLwTimeLoRead m n s
  | .kvSlotCtrLoRead m => Sys2Proof.Machine.execKvSlotCtrLoRead m s
  | .registerWrite m a v => Sys2Proof.Machine.execRegisterWrite m a v s
  | .memoryRead m a size fetch => Sys2Proof.Machine.execMemoryRead m a size fetch s
  | .memoryWrite m a data chk => Sys2Proof.Machine.execMemoryWrite m a data chk s
  | .partialWrite m a bytes => Sys2Proof.Machine.execPartialWrite m a bytes s
  | .itemArgWrite m a v => Sys2Proof.Machine.execItemArgWrite m a v s
  | .perstAssert p => Sys2Proof.Machine.execPerstAssert p s
  | .perstRelease p => Sys2Proof.Machine.execPerstRelease p s
  | .linkTrainingDone p rate width flit => Sys2Proof.Machine.execLinkTrainingDone p rate width flit s
  | .configRequest p req => Sys2Proof.Machine.execConfigRequest p req s
  | .bootConfigTimeout p => Sys2Proof.Machine.execBootConfigTimeout p s
  | .fwUpSet m => Sys2Proof.Machine.execFwUpSet m s
  | .ccEnWrite p fn w => Sys2Proof.Machine.execCcEnWrite p fn w s
  | .ccShnWrite p fn shn => Sys2Proof.Machine.execCcShnWrite p fn shn s
  | .linkWidthReduce p => Sys2Proof.Machine.execLinkWidthReduce p s
  | .l12Entry p => Sys2Proof.Machine.execL12Entry p s
  | .clkreqWake p => Sys2Proof.Machine.execClkreqWake p s
  | .ptmRefresh p offset => Sys2Proof.Machine.execPtmRefresh p offset s
  | .ptmFail p => Sys2Proof.Machine.execPtmFail p s
  | .functionLevelReset p fn => Sys2Proof.Machine.execFunctionLevelReset p fn s
  | .controllerLevelReset p fn => Sys2Proof.Machine.execControllerLevelReset p fn s
  | .doorbellWrite p fn sq cmds => Sys2Proof.Machine.execDoorbellWrite p fn sq cmds s
  | .completionItemPost m v => Sys2Proof.Machine.execCompletionItemPost m v s
  | .hostifCctlWrite m v => Sys2Proof.Machine.execHostifCctlWrite m v s
  | .adminEnWrite m v => Sys2Proof.Machine.execAdminEnWrite m v s
  | .read tag => Sys2Proof.Machine.execRead tag s
  | .write tag => Sys2Proof.Machine.execWrite tag s
  | .zoneAppend tag => Sys2Proof.Machine.execZoneAppend tag s
  | .writeZeroes tag => Sys2Proof.Machine.execWriteZeroes tag s
  | .datasetManagement tag => Sys2Proof.Machine.execDatasetManagement tag s
  | .verify tag => Sys2Proof.Machine.execVerify tag s
  | .flush c sq nsid => Sys2Proof.Machine.execFlush c sq nsid s
  | .secureDiscard tag => Sys2Proof.Machine.execSecureDiscard tag s
  | .secureDiscardComplete p => Sys2Proof.Machine.execSecureDiscardComplete p s
  | .zoneOpen tag => Sys2Proof.Machine.execZoneOpen tag s
  | .zoneClose tag => Sys2Proof.Machine.execZoneClose tag s
  | .zoneFinish tag => Sys2Proof.Machine.execZoneFinish tag s
  | .zoneReset tag => Sys2Proof.Machine.execZoneReset tag s
  | .secureResetComplete p => Sys2Proof.Machine.execSecureResetComplete p s
  | .zoneOffline tag => Sys2Proof.Machine.execZoneOffline tag s
  | .reportZones c sq nsid lba count => Sys2Proof.Machine.execReportZones c sq nsid lba count s
  | .zoneFrlExpiry nsid z => Sys2Proof.Machine.execZoneFrlExpiry nsid z s
  | .zoneForcedFinish nsid z => Sys2Proof.Machine.execZoneForcedFinish nsid z s
  | .parkIdleExpiry nsid z => Sys2Proof.Machine.execParkIdleExpiry nsid z s
  | .zoneWriteFail tag ue => Sys2Proof.Machine.execZoneWriteFail tag ue s
  | .namespaceCreate c zoned nsze width kpio handles => Sys2Proof.Machine.execNamespaceCreate c zoned nsze width kpio handles s
  | .namespaceDelete c nsid => Sys2Proof.Machine.execNamespaceDelete c nsid s
  | .namespaceAttach c nsid attach ids => Sys2Proof.Machine.execNamespaceAttach c nsid attach ids s
  | .getLogPage c lid lsi off len => Sys2Proof.Machine.execGetLogPage c lid lsi off len s
  | .identify c cns nsid => Sys2Proof.Machine.execIdentify c cns nsid s
  | .setFeaturesTimestamp c save ms => Sys2Proof.Machine.execSetFeaturesTimestamp c save ms s
  | .getFeaturesTimestamp c => Sys2Proof.Machine.execGetFeaturesTimestamp c s
  | .setFeaturesZoneResetMode c nsid save secure => Sys2Proof.Machine.execSetFeaturesZoneResetMode c nsid save secure s
  | .setFeaturesFdp c on save => Sys2Proof.Machine.execSetFeaturesFdp c on save s
  | .setFeaturesPowerState c ps save => Sys2Proof.Machine.execSetFeaturesPowerState c ps save s
  | .hmbEnable c units => Sys2Proof.Machine.execHmbEnable c units s
  | .hmbMapRebuildDone p => Sys2Proof.Machine.execHmbMapRebuildDone p s
  | .hmbDisable c => Sys2Proof.Machine.execHmbDisable c s
  | .virtualizationManagement c vf a => Sys2Proof.Machine.execVirtualizationManagement c vf a s
  | .nvmeAbort c sq cid => Sys2Proof.Machine.execNvmeAbort c sq cid s
  | .firmwareImageDownload c off bs => Sys2Proof.Machine.execFirmwareImageDownload c off bs s
  | .firmwareCommit c slot action => Sys2Proof.Machine.execFirmwareCommit c slot action s
  | .formatNvm c nsid ses => Sys2Proof.Machine.execFormatNvm c nsid ses s
  | .sanitizeBlockErase c => Sys2Proof.Machine.execSanitizeBlockErase c s
  | .sanitizeCryptoErase c => Sys2Proof.Machine.execSanitizeCryptoErase c s
  | .keyInjection c tag kek kwp wrapped => Sys2Proof.Machine.execKeyInjection c tag kek kwp wrapped s
  | .reservationRegister c sq nsid host action ignoreKey crkey nrkey ptpl => Sys2Proof.Machine.execReservationRegister c sq nsid host action ignoreKey crkey nrkey ptpl s
  | .reservationAcquire c sq nsid action rtype crkey prkey => Sys2Proof.Machine.execReservationAcquire c sq nsid action rtype crkey prkey s
  | .reservationRelease c sq nsid action rtype crkey => Sys2Proof.Machine.execReservationRelease c sq nsid action rtype crkey s
  | .reservationReport c sq nsid => Sys2Proof.Machine.execReservationReport c sq nsid s
  | .layoutTransfer c off bs => Sys2Proof.Machine.execLayoutTransfer c off bs s
  | .layoutVerifyStage c => Sys2Proof.Machine.execLayoutVerifyStage c s
  | .layoutDiscard c => Sys2Proof.Machine.execLayoutDiscard c s
  | .kennelSet c k bs => Sys2Proof.Machine.execKennelSet c k bs s
  | .kennelDelete c k => Sys2Proof.Machine.execKennelDelete c k s
  | .kennelRead c k => Sys2Proof.Machine.execKennelRead c k s
  | .kennelBindFunction c k port fn => Sys2Proof.Machine.execKennelBindFunction c k port fn s
  | .kennelBindNamespace c k nsid => Sys2Proof.Machine.execKennelBindNamespace c k nsid s
  | .kennelUnbindNamespace c k nsid => Sys2Proof.Machine.execKennelUnbindNamespace c k nsid s
  | .unitTakeOut c type n => Sys2Proof.Machine.execUnitTakeOut c type n s
  | .unitReturn c type n => Sys2Proof.Machine.execUnitReturn c type n s
  | .unitQuery c type n => Sys2Proof.Machine.execUnitQuery c type n s
  | .evrecCtrlFlush c => Sys2Proof.Machine.execEvrecCtrlFlush c s
  | .evrecCtrlClear c => Sys2Proof.Machine.execEvrecCtrlClear c s
  | .evrecSetRateLimit c code rate burst => Sys2Proof.Machine.execEvrecSetRateLimit c code rate burst s
  | .evrecReadRateLimit c code => Sys2Proof.Machine.execEvrecReadRateLimit c code s
  | .debugGetChallenge c => Sys2Proof.Machine.execDebugGetChallenge c s
  | .debugSubmitResponse c sig => Sys2Proof.Machine.execDebugSubmitResponse c sig s
  | .debugChallengeExpiry jtag => Sys2Proof.Machine.execDebugChallengeExpiry jtag s
  | .admitCommand => Sys2Proof.Machine.execAdmitCommand s
  | .holdLongExpiry k => Sys2Proof.Machine.execHoldLongExpiry k s
  | .readDispatch die => Sys2Proof.Machine.execReadDispatch die s
  | .busyStatusReturn die => Sys2Proof.Machine.execBusyStatusReturn die s
  | .pwaitGuardExpiry die => Sys2Proof.Machine.execPwaitGuardExpiry die s
  | .suspendTakesEffect die complete pass verified => Sys2Proof.Machine.execSuspendTakesEffect die complete pass verified s
  | .suspendHoldExpiry die => Sys2Proof.Machine.execSuspendHoldExpiry die s
  | .hostTransferDone tag => Sys2Proof.Machine.execHostTransferDone tag s
  | .writeDataStaged tag => Sys2Proof.Machine.execWriteDataStaged tag s
  | .operationStart die => Sys2Proof.Machine.execOperationStart die s
  | .fchProfileWindowWrite m n k v => Sys2Proof.Machine.execFchProfileWindowWrite m n k v s
  | .fchEnWrite m n v => Sys2Proof.Machine.execFchEnWrite m n v s
  | .fchRetrainWrite m n v => Sys2Proof.Machine.execFchRetrainWrite m n v s
  | .fchDriveWrite m n v => Sys2Proof.Machine.execFchDriveWrite m n v s
  | .statusPoll die plane ready pass idOk trainOk verified => Sys2Proof.Machine.execStatusPoll die plane ready pass idOk trainOk verified s
  | .lunReady die plane pass idOk trainOk verified => Sys2Proof.Machine.execLunReady die plane pass idOk trainOk verified s
  | .dieTimeout lun => Sys2Proof.Machine.execDieTimeout lun s
  | .zqCalShortTimer n => Sys2Proof.Machine.execZqCalShortTimer n s
  | .retrainPeriodExpiry n => Sys2Proof.Machine.execRetrainPeriodExpiry n s
  | .tokenRequest die => Sys2Proof.Machine.execTokenRequest die s
  | .tokenGrant => Sys2Proof.Machine.execTokenGrant s
  | .paceLimitWrite m v => Sys2Proof.Machine.execPaceLimitWrite m v s
  | .bringupStart m v => Sys2Proof.Machine.execBringupStart m v s
  | .resetWaveStart => Sys2Proof.Machine.execResetWaveStart s
  | .thermalPauseEnd n => Sys2Proof.Machine.execThermalPauseEnd n s
  | .detContextGrant => Sys2Proof.Machine.execDetContextGrant s
  | .detJobDone n ctx obs fix => Sys2Proof.Machine.execDetJobDone n ctx obs fix s
  | .detBinInvalWrite m v => Sys2Proof.Machine.execDetBinInvalWrite m v s
  | .detSelftest m n v => Sys2Proof.Machine.execDetSelftest m n v s
  | .detSelftestDone n pass => Sys2Proof.Machine.execDetSelftestDone n pass s
  | .detEnWrite m n v => Sys2Proof.Machine.execDetEnWrite m n v s
  | .detProfWrite m v => Sys2Proof.Machine.execDetProfWrite m v s
  | .decodeDone run out fix => Sys2Proof.Machine.execDecodeDone run out fix s
  | .unitRebuildCodeword p ok => Sys2Proof.Machine.execUnitRebuildCodeword p ok s
  | .xoruAccUe => Sys2Proof.Machine.execXoruAccUe s
  | .zoneMoveSwitch nsid z lost => Sys2Proof.Machine.execZoneMoveSwitch nsid z lost s
  | .segmentVerifyFail seg => Sys2Proof.Machine.execSegmentVerifyFail seg s
  | .segmentRebuildDone seg => Sys2Proof.Machine.execSegmentRebuildDone seg s
  | .mapuEnable m v => Sys2Proof.Machine.execMapuEnable m v s
  | .mapuRekey m v => Sys2Proof.Machine.execMapuRekey m v s
  | .rekeySweepEnd => Sys2Proof.Machine.execRekeySweepEnd s
  | .mapuJflushWrite m v => Sys2Proof.Machine.execMapuJflushWrite m v s
  | .journalFlushInterval => Sys2Proof.Machine.execJournalFlushInterval s
  | .journalFlushComplete => Sys2Proof.Machine.execJournalFlushComplete s
  | .gcMoveSwitch nsid lba lost => Sys2Proof.Machine.execGcMoveSwitch nsid lba lost s
  | .mapRecovery => Sys2Proof.Machine.execMapRecovery s
  | .mediaTimeTick => Sys2Proof.Machine.execMediaTimeTick s
  | .mediaTimeSave => Sys2Proof.Machine.execMediaTimeSave s
  | .timestampWaitExpiry => Sys2Proof.Machine.execTimestampWaitExpiry s
  | .outageSweepStart m v => Sys2Proof.Machine.execOutageSweepStart m v s
  | .cadenceSample points spacing => Sys2Proof.Machine.execCadenceSample points spacing s
  | .reportEstimate points spacing => Sys2Proof.Machine.execReportEstimate points spacing s
  | .binLearnTimeout j => Sys2Proof.Machine.execBinLearnTimeout j s
  | .learnedTableWriteback => Sys2Proof.Machine.execLearnedTableWriteback s
  | .refreshStart => Sys2Proof.Machine.execRefreshStart s
  | .backlogMidnight => Sys2Proof.Machine.execBacklogMidnight s
  | .wearTableWrite => Sys2Proof.Machine.execWearTableWrite s
  | .curdEnable m => Sys2Proof.Machine.execCurdEnable m s
  | .curdPoolInitEnd => Sys2Proof.Machine.execCurdPoolInitEnd s
  | .curdGrant m n nofall hard => Sys2Proof.Machine.execCurdGrant m n nofall hard s
  | .curdShare m g hard ptr => Sys2Proof.Machine.execCurdShare m g hard ptr s
  | .curdDrop m hard ptr => Sys2Proof.Machine.execCurdDrop m hard ptr s
  | .curdFree m hard ptr => Sys2Proof.Machine.execCurdFree m hard ptr s
  | .curdReleaseDone ptr => Sys2Proof.Machine.execCurdReleaseDone ptr s
  | .curdEmptyRetry => Sys2Proof.Machine.execCurdEmptyRetry s
  | .curdFlushWrite m v => Sys2Proof.Machine.execCurdFlushWrite m v s
  | .dramcEnable m v => Sys2Proof.Machine.execDramcEnable m v s
  | .dramcInit m v => Sys2Proof.Machine.execDramcInit m v s
  | .dramcInitDone => Sys2Proof.Machine.execDramcInitDone s
  | .dramTrainFail k => Sys2Proof.Machine.execDramTrainFail k s
  | .memchkScrubGo m => Sys2Proof.Machine.execMemchkScrubGo m s
  | .memchkScrubAbort m => Sys2Proof.Machine.execMemchkScrubAbort m s
  | .memchkScrubDone => Sys2Proof.Machine.execMemchkScrubDone s
  | .memchkTestWrite m => Sys2Proof.Machine.execMemchkTestWrite m s
  | .memchkTestRead m => Sys2Proof.Machine.execMemchkTestRead m s
  | .kvGenerate m v => Sys2Proof.Machine.execKvGenerate m v s
  | .kvWrap m v => Sys2Proof.Machine.execKvWrap m v s
  | .kvUnwrap m v => Sys2Proof.Machine.execKvUnwrap m v s
  | .kvClear m v => Sys2Proof.Machine.execKvClear m v s
  | .kvBind m v => Sys2Proof.Machine.execKvBind m v s
  | .kvEraseAll m v => Sys2Proof.Machine.execKvEraseAll m v s
  | .keyAreaErase => Sys2Proof.Machine.execKeyAreaErase s
  | .nsKeyRestore => Sys2Proof.Machine.execNsKeyRestore s
  | .cipherHostJob tag => Sys2Proof.Machine.execCipherHostJob tag s
  | .cipherXtsEncrypt m k slot => Sys2Proof.Machine.execCipherXtsEncrypt m k slot s
  | .cipherXtsDecrypt m k slot => Sys2Proof.Machine.execCipherXtsDecrypt m k slot s
  | .cipherGcmEncrypt m k slot => Sys2Proof.Machine.execCipherGcmEncrypt m k slot s
  | .cipherGcmDecrypt m k slot => Sys2Proof.Machine.execCipherGcmDecrypt m k slot s
  | .cipherJobDone k => Sys2Proof.Machine.execCipherJobDone k s
  | .maskReseed k => Sys2Proof.Machine.execMaskReseed k s
  | .drbgReseed healthy => Sys2Proof.Machine.execDrbgReseed healthy s
  | .entropyHealthFail kind => Sys2Proof.Machine.execEntropyHealthFail kind s
  | .sigvVerify m v => Sys2Proof.Machine.execSigvVerify m v s
  | .sigvVerifyDone => Sys2Proof.Machine.execSigvVerifyDone s
  | .sigvHash m v => Sys2Proof.Machine.execSigvHash m v s
  | .sigvHashDone => Sys2Proof.Machine.execSigvHashDone s
  | .sigvRngDataRead m => Sys2Proof.Machine.execSigvRngDataRead m s
  | .collarEnforceSet m => Sys2Proof.Machine.execCollarEnforceSet m s
  | .collarLockSet m => Sys2Proof.Machine.execCollarLockSet m s
  | .alarm src m => Sys2Proof.Machine.execAlarm src m s
  | .getVersion via => Sys2Proof.Machine.execGetVersion via s
  | .getCapabilities via version => Sys2Proof.Machine.execGetCapabilities via version s
  | .negotiateAlgorithms via p384 sha384 => Sys2Proof.Machine.execNegotiateAlgorithms via p384 sha384 s
  | .getDigests via => Sys2Proof.Machine.execGetDigests via s
  | .getCertificate via slot off len => Sys2Proof.Machine.execGetCertificate via slot off len s
  | .challenge via slot nonce => Sys2Proof.Machine.execChallenge via slot nonce s
  | .getMeasurements via j signed nonce => Sys2Proof.Machine.execGetMeasurements via j signed nonce s
  | .filteredLevelChange j level => Sys2Proof.Machine.execFilteredLevelChange j level s
  | .pendingSetAlias m j v => Sys2Proof.Machine.execPendingSetAlias m j v s
  | .pendingClearAlias m j v => Sys2Proof.Machine.execPendingClearAlias m j v s
  | .maskWrite m j kind v => Sys2Proof.Machine.execMaskWrite m j kind v s
  | .whClaim m x old => Sys2Proof.Machine.execWhClaim m x old s
  | .whRouteWrite m src v => Sys2Proof.Machine.execWhRouteWrite m src v s
  | .whThreshWrite m x v => Sys2Proof.Machine.execWhThreshWrite m x v s
  | .whXcfgWrite m j v => Sys2Proof.Machine.execWhXcfgWrite m j v s
  | .whMtimecmpLoWrite m h v => Sys2Proof.Machine.execWhMtimecmpLoWrite m h v s
  | .whMtimecmpHiWrite m h v => Sys2Proof.Machine.execWhMtimecmpHiWrite m h v s
  | .timerCompareReached h => Sys2Proof.Machine.execTimerCompareReached h s
  | .whMsipWrite m h v => Sys2Proof.Machine.execWhMsipWrite m h v s
  | .whistleWake k => Sys2Proof.Machine.execWhistleWake k s
  | .rindProgram m => Sys2Proof.Machine.execRindProgram m s
  | .rindErase m => Sys2Proof.Machine.execRindErase m s
  | .rindLock m => Sys2Proof.Machine.execRindLock m s
  | .rindUnlock m => Sys2Proof.Machine.execRindUnlock m s
  | .rindSetPw m => Sys2Proof.Machine.execRindSetPw m s
  | .rindAbort m => Sys2Proof.Machine.execRindAbort m s
  | .rindOpDone => Sys2Proof.Machine.execRindOpDone s
  | .rindWindowRead m off size => Sys2Proof.Machine.execRindWindowRead m off size s
  | .romStart => Sys2Proof.Machine.execRomStart s
  | .bootAttempt => Sys2Proof.Machine.execBootAttempt s
  | .bootBackoffExpiry => Sys2Proof.Machine.execBootBackoffExpiry s
  | .bootWatchdogExpiry => Sys2Proof.Machine.execBootWatchdogExpiry s
  | .bootWatchdogStop m => Sys2Proof.Machine.execBootWatchdogStop m s
  | .rollbackRequest m v => Sys2Proof.Machine.execRollbackRequest m v s
  | .fwStateWrite m v => Sys2Proof.Machine.execFwStateWrite m v s
  | .trialCommit => Sys2Proof.Machine.execTrialCommit s
  | .settingsJournalCompaction => Sys2Proof.Machine.execSettingsJournalCompaction s
  | .domainRetTimer n => Sys2Proof.Machine.execDomainRetTimer n s
  | .domainOffTimer n => Sys2Proof.Machine.execDomainOffTimer n s
  | .domainDrainEnd n busy => Sys2Proof.Machine.execDomainDrainEnd n busy s
  | .domainModeWrite m n v => Sys2Proof.Machine.execDomainModeWrite m n v s
  | .domainWakeRequest n m a size write flit => Sys2Proof.Machine.execDomainWakeRequest n m a size write flit s
  | .domainOnReached n => Sys2Proof.Machine.execDomainOnReached n s
  | .domainWakeFail n => Sys2Proof.Machine.execDomainWakeFail n s
  | .holdupEnable m v => Sys2Proof.Machine.execHoldupEnable m v s
  | .bankAtVtop => Sys2Proof.Machine.execBankAtVtop s
  | .bankRecharge v => Sys2Proof.Machine.execBankRecharge v s
  | .headroomDetect ma => Sys2Proof.Machine.execHeadroomDetect ma s
  | .headroomRetry ma => Sys2Proof.Machine.execHeadroomRetry ma s
  | .holdupMeasureStart m write v => Sys2Proof.Machine.execHoldupMeasureStart m write v s
  | .measSagEnd v => Sys2Proof.Machine.execMeasSagEnd v s
  | .measRechargeDone t => Sys2Proof.Machine.execMeasRechargeDone t s
  | .measTimeout => Sys2Proof.Machine.execMeasTimeout s
  | .slowRound vals => Sys2Proof.Machine.execSlowRound vals s
  | .powerFailFlush => Sys2Proof.Machine.execPowerFailFlush s
  | .flushLunResetsDone => Sys2Proof.Machine.execFlushLunResetsDone s
  | .flushEndWrite m v => Sys2Proof.Machine.execFlushEndWrite m v s
  | .flushDeadlineExpiry => Sys2Proof.Machine.execFlushDeadlineExpiry s
  | .supplyBack => Sys2Proof.Machine.execSupplyBack s
  | .coldRestart => Sys2Proof.Machine.execColdRestart s
  | .thermalSensorConversion vals => Sys2Proof.Machine.execThermalSensorConversion vals s
  | .shutdownHoldEnd => Sys2Proof.Machine.execShutdownHoldEnd s
  | .thermEnable m v => Sys2Proof.Machine.execThermEnable m v s
  | .eventPost source code sev cont a0 a1 a2 => Sys2Proof.Machine.execEventPost source code sev cont a0 a1 a2 s
  | .evrecFlushWrite m v => Sys2Proof.Machine.execEvrecFlushWrite m v s
  | .evrecClearWrite m v => Sys2Proof.Machine.execEvrecClearWrite m v s
  | .evrecRlWrite m v => Sys2Proof.Machine.execEvrecRlWrite m v s
  | .evrecRegionScan => Sys2Proof.Machine.execEvrecRegionScan s
  | .mgmtReady => Sys2Proof.Machine.execMgmtReady s
  | .setEndpointId eid => Sys2Proof.Machine.execSetEndpointId eid s
  | .getEndpointId => Sys2Proof.Machine.execGetEndpointId s
  | .getMctpVersionSupport => Sys2Proof.Machine.execGetMctpVersionSupport s
  | .getMessageTypeSupport => Sys2Proof.Machine.execGetMessageTypeSupport s
  | .mctpMessageReceived type src tag bytes => Sys2Proof.Machine.execMctpMessageReceived type src tag bytes s
  | .readNvmeMiDataStructure type arg => Sys2Proof.Machine.execReadNvmeMiDataStructure type arg s
  | .subsystemHealthStatusPoll => Sys2Proof.Machine.execSubsystemHealthStatusPoll s
  | .controllerHealthStatusPoll id => Sys2Proof.Machine.execControllerHealthStatusPoll id s
  | .configurationGet id => Sys2Proof.Machine.execConfigurationGet id s
  | .configurationSet id v => Sys2Proof.Machine.execConfigurationSet id v s
  | .vpdRead off len => Sys2Proof.Machine.execVpdRead off len s
  | .vpdWrite off bs => Sys2Proof.Machine.execVpdWrite off bs s
  | .mgmtRxRelease m => Sys2Proof.Machine.execMgmtRxRelease m s
  | .mgmtTxGo m v => Sys2Proof.Machine.execMgmtTxGo m v s
  | .mgmtTxDone => Sys2Proof.Machine.execMgmtTxDone s
  | .mgmtAlertSet m v => Sys2Proof.Machine.execMgmtAlertSet m v s
  | .alertResponseRead => Sys2Proof.Machine.execAlertResponseRead s
  | .i3cAddressAssign addr => Sys2Proof.Machine.execI3cAddressAssign addr s
  | .i3cRstdaa => Sys2Proof.Machine.execI3cRstdaa s
  | .jtagExtest levels cells => Sys2Proof.Machine.execJtagExtest levels cells s
  | .jtagIdcode => Sys2Proof.Machine.execJtagIdcode s
  | .jtagSamplePreload levels cells => Sys2Proof.Machine.execJtagSamplePreload levels cells s
  | .jtagClamp => Sys2Proof.Machine.execJtagClamp s
  | .jtagHighz => Sys2Proof.Machine.execJtagHighz s
  | .jtagBypass => Sys2Proof.Machine.execJtagBypass s
  | .dbgChal => Sys2Proof.Machine.execDbgChal s
  | .dbgResp resp => Sys2Proof.Machine.execDbgResp resp s
  | .dbgStat => Sys2Proof.Machine.execDbgStat s
  | .dmi addr write v => Sys2Proof.Machine.execDmi addr write v s
  | .linkDown p disabled => Sys2Proof.Machine.execLinkDown p disabled s
  | .pcieErrorLogged p uncor => Sys2Proof.Machine.execPcieErrorLogged p uncor s
  | .partnerWidthRequest p w => Sys2Proof.Machine.execPartnerWidthRequest p w s
  | .dramTrainingDone k => Sys2Proof.Machine.execDramTrainingDone k s
  | .domainOffReached n => Sys2Proof.Machine.execDomainOffReached n s
  | .asynchronousEventRequest c => Sys2Proof.Machine.execAsynchronousEventRequest c s
  | .setFeaturesTemperatureThreshold c under sensor k save => Sys2Proof.Machine.execSetFeaturesTemperatureThreshold c under sensor k save s
  | .kekEstablishment c j msg => Sys2Proof.Machine.execKekEstablishment c j msg s
  | .mctpPacketError => Sys2Proof.Machine.execMctpPacketError s

end Sys2Proof.Machine
end

