-- ==== Sys2Proof/Safety.lean ====
section
/-!
DEFINITION. What the statements speak of: a command that runs, an access that reaches its target and what it leaves, what every reset
leaves, the canonical form of the byte stores, and how the fuses of a part may differ later from what they were.
-/

namespace Sys2Proof.Machine

/-- The command `c` answers a next state in which the device `d` has become `e` and the queue is what it was, whatever waits there. -/
def Runs (c : Instr) (d e : Dev) : Prop :=
  ∀ q : List Instr, exec c { pending := q, dev := d } = .next { pending := q, dev := e }

/-- The register write of `v` at address `a` by master `m`. -/
def writeOf (m a : Nat) (v : Word) : Req := { master := m, kind := .write, addr := a, size := 4, data := v.toNat, chk := 0 }

/-- The register read at address `a` by master `m`. -/
def readOf (m a : Nat) : Req := { master := m, kind := .read, addr := a, size := 4, data := 0, chk := 0 }

/-- The request reaches its target: its master can send requests, its domain has not left ON, and it waits for no register store; the request
is no barred fetch, passes the checks of R523, its unit is present, and the gate of its domain is open. -/
abbrev Dev.lets (d : Dev) (q : Req) : Prop :=
  q.master < 128 ∧ masterReserved q.master = false ∧ masterClocked d q.master = true ∧ storeHeld d q.master = false ∧ fetchBarred d q = false
    ∧ accessCheck d q = none ∧ regAbsent d q.addr = false ∧ gateOf d (domOf d.hw q.addr) = .pass

/-- What a register write leaves when its own effect has made the device `e`: the master has the response OK, and holds that changed take
effect (R24, R449). -/
def Dev.wrote (e : Dev) (m a : Nat) (v : Word) : Dev := settle (respond (writeOf m a v) .ok 0 e)

/-- What a register read of value `w` leaves when its own effect has made the device `e` (R24). -/
def Dev.read (e : Dev) (m a : Nat) (w : Word) : Dev := respond (readOf m a) .ok w.toNat e

/-- The device with master `m`'s item at a unit (its register slot) consumed by the write that completes it (R347). -/
def Dev.taken (d : Dev) (slot m : Nat) : Dev :=
  { d with hw := itemPut d.hw slot m { itemGet d.hw slot m with args := [], stFlushed := false } }

/-- What a vault command leaves when its own effect has made the device `e`: its answer in the master's KV_RSP, and CMD_DONE (Tables 12.10,
12.14). -/
def Dev.kvAnswered (e : Dev) (m : Nat) (st : Status) (gen : Nat) : Dev :=
  { e with hw := irq (mwr e.hw R.KV_RSP m (BitVec.ofNat 32 (st.code * 268435456 + gen))) irqKv 0 }

/-- Firmware serves the management endpoint's messages and its receive buffer is free (R488, R489). -/
abbrev Dev.fwServes (d : Dev) : Prop := d.mgmt.ready = true ∧ bit (rd d.hw R.MGMT_CTRL) 0 = true ∧ d.mgmt.rx = none

/-- What a message served through the endpoint's buffers leaves when its own effect has made the device `e`: received and sent, with `bs`
as the answer of that message type (log entry 38). -/
def Dev.served (e : Dev) (type : Nat) (bs : List Byte) : Dev :=
  { e with hw := irq (irq e.hw irqMgmt 0) irqMgmt 1, mgmt := { e.mgmt with lastTx := some (type, bs) } }

/-- `e` is what a reset other than power-on leaves of `d` (R456): registers are at their reset values but those kept since power-on, the
access tables are clear, the flash balls of every channel whose domain is not OFF are safe, no controller and no command is left, every
domain but PD0 is OFF or on its way there, and the memory that keeps its power, the vault's slots, the fuses and device time stay. `sys`
marks SYS_RESET_N and PGOOD, which also lock debug again and unblock the blocked masters (R73, R385). -/
structure Dev.ResetTo (sys : Bool) (d e : Dev) : Prop where
  fuse : e.fuse = d.fuse
  time : e.hw.time = d.hw.time
  mem : e.hw.mem = d.hw.mem
  balls : ∀ c < chCount d.fuse, (domGet d.pwr (c + 1)).st ≠ .off → (chanGet e c).safe = true
  reset : ∀ a, regKept a = false → a ≠ R.RIND_BOOTCTL → a ≠ R.WH_PEND 11 → rd e.hw a = regReset a
  kept : ∀ a, regKept a = true → rd e.hw a = rd d.hw a
  windows : e.sec.windows = [] ∧ e.sec.defAlarm = [] ∧ e.sec.blocked = if sys then 0#128 else d.sec.blocked
  slots : e.sec.slots = d.sec.slots
  dbg : e.sec.dbg.unlocked = (d.sec.dbg.unlocked && !sys)
  host : e.host.ctrls = [] ∧ e.host.ops = [] ∧ e.host.queues = []
  doms : ∀ n ∈ seqOrder d.fuse, (domGet e.pwr n).st = .off ∨ (domGet e.pwr n).st = .goingOff ∨ n = 73
  held : e.pwr.held = []
  rom : e.boot.romDue = true ∧ e.boot.wdtRunning = false

/-- The byte stores of the hardware core, protected memory with its check bytes and the Rind store, are in canonical form. -/
abbrev Hw.storesWf (h : Hw) : Prop :=
  storeWf h.mem.data = true ∧ storeWf h.mem.chk = true ∧ storeWf h.rind.store = true

/-- The machine's byte stores are in canonical form. -/
abbrev State.storesWf (s : State) : Prop := s.dev.hw.storesWf

/-- `f` can be the fuses of the part whose fuses once were `e`: the part, its stepping and its revocations are the same, and of the
key-epoch field no bit is unblown again (R7–R9, R386). -/
def Fuse.later (e f : Fuse) : Prop :=
  f.variant = e.variant ∧ f.stepMajor = e.stepMajor ∧ f.stepMinor = e.stepMinor ∧ f.revoked = e.revoked ∧ f.epochLeft ≤ e.epochLeft

end Sys2Proof.Machine
end

