-- ==== Sys2Proof/WellFormed.lean ====
section
/-!
DEFINITION. Well-formed commands: every port, function, unit, domain, master and register index lies in the range that the largest part of
Table 0.2 has. What a smaller part lacks is judged against its fuses when the command runs.
-/

namespace Sys2Proof

/-- A port number (R44). -/
def portNo (p : Nat) : Bool := decide (p < 2)

/-- A function number: PF 0 or VF 1–63 (R51). -/
def fnNo (f : Nat) : Bool := decide (f ≤ 63)

/-- A master ID that is not reserved (Table 1.10). -/
def masterNo (m : Nat) : Bool := decide (m < 28) || (decide (32 ≤ m) && decide (m < 104))

/-- The control-space address of an argument register of an item: EVREC, CURD, KEYVAULT, HOSTIF or CIPHERk (R347). -/
def itemRegNo (a : Nat) : Bool :=
  [0xF000060020, 0xF000060024, 0xF000060028, 0xF000070014, 0xF000070018, 0xF0000A0014, 0xF0000A0018, 0xF0000A001C, 0xF0000C0090,
   0xF0000C0094, 0xF0000C0098].contains a
    || (decide (0xF000200000 ≤ a) && decide (a < 0xF000240000) && decide (0x10 ≤ a % 0x10000) && decide (a % 0x10000 ≤ 0x40)
        && decide (a % 4 = 0))

/-- Whether a command is well-formed. -/
def Instr.wf (i : Instr) : Bool :=
  match i with
  | .pgoodRise _ => true
  | .pgoodFall => true
  | .sysResetAssert => true
  | .sysResetRelease _ _ _ => true
  | .startupSlot => true
  | .internalReset => true
  | .resetWrite m _ => masterNo m
  | .nvmSubsystemReset p fn => (portNo p && fnNo fn)
  | .fabmonUpdate _ _ => true
  | .idTimeLoRead m => masterNo m
  | .hostifPtmLoRead m p => masterNo m && decide (p < 2)
  | .mapuVerLoRead m => masterNo m
  | .affineurMtimeLoRead m => masterNo m
  | .pwrLwTimeLoRead m n => masterNo m && decide (n < 96)
  | .kvSlotCtrLoRead m => masterNo m
  | .registerWrite m _ _ => masterNo m
  | .memoryRead m _ _ _ => masterNo m
  | .memoryWrite m _ _ _ => masterNo m
  | .partialWrite m _ bytes => masterNo m && decide (bytes.length < 8)
  | .itemArgWrite m a _ => masterNo m && itemRegNo a
  | .perstAssert p => portNo p
  | .perstRelease p => portNo p
  | .linkTrainingDone p _ _ _ => portNo p
  | .configRequest p req => (portNo p && fnNo req.fn)
  | .bootConfigTimeout p => portNo p
  | .fwUpSet m => masterNo m
  | .ccEnWrite p fn _ => (portNo p && fnNo fn)
  | .ccShnWrite p fn _ => (portNo p && fnNo fn)
  | .linkWidthReduce p => portNo p
  | .l12Entry p => portNo p
  | .clkreqWake p => portNo p
  | .ptmRefresh p _ => portNo p
  | .ptmFail p => portNo p
  | .functionLevelReset p fn => (portNo p && fnNo fn)
  | .controllerLevelReset p fn => (portNo p && fnNo fn)
  | .doorbellWrite p fn _ _ => (portNo p && fnNo fn)
  | .completionItemPost m _ => masterNo m
  | .hostifCctlWrite m _ => masterNo m
  | .adminEnWrite m _ => masterNo m
  | .read _ => true
  | .write _ => true
  | .zoneAppend _ => true
  | .writeZeroes _ => true
  | .datasetManagement _ => true
  | .verify _ => true
  | .flush _ _ _ => true
  | .secureDiscard _ => true
  | .secureDiscardComplete p => decide (p < 3)
  | .zoneOpen _ => true
  | .zoneClose _ => true
  | .zoneFinish _ => true
  | .zoneReset _ => true
  | .secureResetComplete p => decide (p < 3)
  | .zoneOffline _ => true
  | .reportZones _ _ _ _ _ => true
  | .zoneFrlExpiry _ _ => true
  | .zoneForcedFinish _ _ => true
  | .parkIdleExpiry _ _ => true
  | .zoneWriteFail _ _ => true
  | .namespaceCreate _ _ _ _ _ _ => true
  | .namespaceDelete _ _ => true
  | .namespaceAttach _ _ _ _ => true
  | .getLogPage _ _ _ _ _ => true
  | .identify _ _ _ => true
  | .setFeaturesTimestamp _ _ _ => true
  | .getFeaturesTimestamp _ => true
  | .setFeaturesZoneResetMode _ _ _ _ => true
  | .setFeaturesFdp _ _ _ => true
  | .setFeaturesPowerState _ _ _ => true
  | .hmbEnable _ _ => true
  | .hmbMapRebuildDone p => portNo p
  | .hmbDisable _ => true
  | .virtualizationManagement _ _ _ => true
  | .nvmeAbort _ _ _ => true
  | .firmwareImageDownload _ _ _ => true
  | .firmwareCommit _ _ _ => true
  | .formatNvm _ _ _ => true
  | .sanitizeBlockErase _ => true
  | .sanitizeCryptoErase _ => true
  | .keyInjection _ _ _ _ _ => true
  | .reservationRegister _ _ _ _ _ _ _ _ _ => true
  | .reservationAcquire _ _ _ _ _ _ _ => true
  | .reservationRelease _ _ _ _ _ _ => true
  | .reservationReport _ _ _ => true
  | .layoutTransfer _ _ _ => true
  | .layoutVerifyStage _ => true
  | .layoutDiscard _ => true
  | .kennelSet _ _ _ => true
  | .kennelDelete _ _ => true
  | .kennelRead _ _ => true
  | .kennelBindFunction _ _ _ _ => true
  | .kennelBindNamespace _ _ _ => true
  | .kennelUnbindNamespace _ _ _ => true
  | .unitTakeOut _ _ _ => true
  | .unitReturn _ _ _ => true
  | .unitQuery _ _ _ => true
  | .evrecCtrlFlush _ => true
  | .evrecCtrlClear _ => true
  | .evrecSetRateLimit _ _ _ _ => true
  | .evrecReadRateLimit _ _ => true
  | .debugGetChallenge _ => true
  | .debugSubmitResponse _ _ => true
  | .debugChallengeExpiry _ => true
  | .admitCommand => true
  | .holdLongExpiry _ => true
  | .readDispatch die => decide (die < 1536)
  | .busyStatusReturn die => decide (die < 1536)
  | .pwaitGuardExpiry die => decide (die < 1536)
  | .suspendTakesEffect die _ _ _ => decide (die < 1536)
  | .suspendHoldExpiry die => decide (die < 1536)
  | .hostTransferDone _ => true
  | .writeDataStaged _ => true
  | .operationStart die => decide (die < 1536)
  | .fchProfileWindowWrite m n i _ => masterNo m && decide (n < 48) && decide (i < 1024)
  | .fchEnWrite m n _ => masterNo m && decide (n < 48)
  | .fchRetrainWrite m n _ => masterNo m && decide (n < 48)
  | .fchDriveWrite m n _ => masterNo m && decide (n < 48)
  | .statusPoll die _ _ _ _ _ _ => decide (die < 1536)
  | .lunReady die _ _ _ _ _ => decide (die < 1536)
  | .dieTimeout lun => decide (lun.die < 1536)
  | .zqCalShortTimer n => decide (n < 48)
  | .retrainPeriodExpiry n => decide (n < 48)
  | .tokenRequest die => decide (die < 1536)
  | .tokenGrant => true
  | .paceLimitWrite m _ => masterNo m
  | .bringupStart m _ => masterNo m
  | .resetWaveStart => true
  | .thermalPauseEnd n => decide (n < 48)
  | .detContextGrant => true
  | .detJobDone n ctx _ _ => decide (n < 24) && decide (ctx < 4)
  | .detBinInvalWrite m _ => masterNo m
  | .detSelftest m n _ => masterNo m && decide (n < 24)
  | .detSelftestDone n _ => decide (n < 24)
  | .detEnWrite m n _ => masterNo m && decide (n < 24)
  | .detProfWrite m _ => masterNo m
  | .decodeDone _ _ _ => true
  | .unitRebuildCodeword p _ => decide (p < 3)
  | .xoruAccUe => true
  | .zoneMoveSwitch _ _ _ => true
  | .segmentVerifyFail _ => true
  | .segmentRebuildDone _ => true
  | .mapuEnable m _ => masterNo m
  | .mapuRekey m _ => masterNo m
  | .rekeySweepEnd => true
  | .mapuJflushWrite m _ => masterNo m
  | .journalFlushInterval => true
  | .journalFlushComplete => true
  | .gcMoveSwitch _ _ _ => true
  | .mapRecovery => true
  | .mediaTimeTick => true
  | .mediaTimeSave => true
  | .timestampWaitExpiry => true
  | .outageSweepStart m _ => masterNo m
  | .cadenceSample _ _ => true
  | .reportEstimate _ _ => true
  | .binLearnTimeout i => decide (i < 256)
  | .learnedTableWriteback => true
  | .refreshStart => true
  | .backlogMidnight => true
  | .wearTableWrite => true
  | .curdEnable m => masterNo m
  | .curdPoolInitEnd => true
  | .curdGrant m _ _ _ => masterNo m
  | .curdShare m _ _ _ => masterNo m
  | .curdDrop m _ _ => masterNo m
  | .curdFree m _ _ => masterNo m
  | .curdReleaseDone _ => true
  | .curdEmptyRetry => true
  | .curdFlushWrite m _ => masterNo m
  | .dramcEnable m _ => masterNo m
  | .dramcInit m _ => masterNo m
  | .dramcInitDone => true
  | .dramTrainFail k => decide (k < 4)
  | .memchkScrubGo m => masterNo m
  | .memchkScrubAbort m => masterNo m
  | .memchkScrubDone => true
  | .memchkTestWrite m => masterNo m
  | .memchkTestRead m => masterNo m
  | .kvGenerate m _ => masterNo m
  | .kvWrap m _ => masterNo m
  | .kvUnwrap m _ => masterNo m
  | .kvClear m _ => masterNo m
  | .kvBind m _ => masterNo m
  | .kvEraseAll m _ => masterNo m
  | .keyAreaErase => true
  | .nsKeyRestore => true
  | .cipherHostJob _ => true
  | .cipherXtsEncrypt m k _ => masterNo m && decide (k < 4)
  | .cipherXtsDecrypt m k _ => masterNo m && decide (k < 4)
  | .cipherGcmEncrypt m k _ => masterNo m && decide (k < 4)
  | .cipherGcmDecrypt m k _ => masterNo m && decide (k < 4)
  | .cipherJobDone k => decide (k < 4)
  | .maskReseed k => decide (k < 4)
  | .drbgReseed _ => true
  | .entropyHealthFail kind => decide (kind < 2)
  | .sigvVerify m _ => masterNo m
  | .sigvVerifyDone => true
  | .sigvHash m _ => masterNo m
  | .sigvHashDone => true
  | .sigvRngDataRead m => masterNo m
  | .collarEnforceSet m => masterNo m
  | .collarLockSet m => masterNo m
  | .alarm src m => decide (src < 5) && decide (m < 128)
  | .getVersion _ => true
  | .getCapabilities _ _ => true
  | .negotiateAlgorithms _ _ _ => true
  | .getDigests _ => true
  | .getCertificate _ _ _ _ => true
  | .challenge _ _ _ => true
  | .getMeasurements _ _ _ _ => true
  | .filteredLevelChange i _ => decide (i < 16)
  | .pendingSetAlias m j _ => masterNo m && decide (j < 32)
  | .pendingClearAlias m j _ => masterNo m && decide (j < 32)
  | .maskWrite m j kind _ => masterNo m && decide (j < 32) && decide (kind < 3)
  | .whClaim m x _ => masterNo m && decide (x < 32)
  | .whRouteWrite m src _ => masterNo m && decide (src < 1024)
  | .whThreshWrite m x _ => masterNo m && decide (x < 32)
  | .whXcfgWrite m i _ => masterNo m && decide (i < 16)
  | .whMtimecmpLoWrite m h _ => masterNo m && decide (h < 16)
  | .whMtimecmpHiWrite m h _ => masterNo m && decide (h < 16)
  | .timerCompareReached h => decide (h < 16)
  | .whMsipWrite m h _ => masterNo m && decide (h < 16)
  | .whistleWake k => decide (k < 4)
  | .rindProgram m => masterNo m
  | .rindErase m => masterNo m
  | .rindLock m => masterNo m
  | .rindUnlock m => masterNo m
  | .rindSetPw m => masterNo m
  | .rindAbort m => masterNo m
  | .rindOpDone => true
  | .rindWindowRead m off _ => masterNo m && decide (off < 0x1000000)
  | .romStart => true
  | .bootAttempt => true
  | .bootBackoffExpiry => true
  | .bootWatchdogExpiry => true
  | .bootWatchdogStop m => masterNo m
  | .rollbackRequest m _ => masterNo m
  | .fwStateWrite m _ => masterNo m
  | .trialCommit => true
  | .settingsJournalCompaction => true
  | .domainRetTimer n => decide (n < 96)
  | .domainOffTimer n => decide (n < 96)
  | .domainDrainEnd n _ => decide (n < 96)
  | .domainModeWrite m n _ => masterNo m && decide (n < 96)
  | .domainWakeRequest n m _ _ _ _ => masterNo m && decide (n < 96)
  | .domainOnReached n => decide (n < 96)
  | .domainWakeFail n => decide (n < 96)
  | .holdupEnable m _ => masterNo m
  | .bankAtVtop => true
  | .bankRecharge _ => true
  | .headroomDetect _ => true
  | .headroomRetry _ => true
  | .holdupMeasureStart m _ _ => masterNo m
  | .measSagEnd _ => true
  | .measRechargeDone _ => true
  | .measTimeout => true
  | .slowRound _ => true
  | .powerFailFlush => true
  | .flushLunResetsDone => true
  | .flushEndWrite m _ => masterNo m
  | .flushDeadlineExpiry => true
  | .supplyBack => true
  | .coldRestart => true
  | .thermalSensorConversion _ => true
  | .shutdownHoldEnd => true
  | .thermEnable m _ => masterNo m
  | .eventPost _ _ _ _ _ _ _ => true
  | .evrecFlushWrite m _ => masterNo m
  | .evrecClearWrite m _ => masterNo m
  | .evrecRlWrite m _ => masterNo m
  | .evrecRegionScan => true
  | .mgmtReady => true
  | .setEndpointId _ => true
  | .getEndpointId => true
  | .getMctpVersionSupport => true
  | .getMessageTypeSupport => true
  | .mctpMessageReceived _ _ _ _ => true
  | .readNvmeMiDataStructure _ _ => true
  | .subsystemHealthStatusPoll => true
  | .controllerHealthStatusPoll _ => true
  | .configurationGet _ => true
  | .configurationSet _ _ => true
  | .vpdRead _ _ => true
  | .vpdWrite _ _ => true
  | .mgmtRxRelease m => masterNo m
  | .mgmtTxGo m _ => masterNo m
  | .mgmtTxDone => true
  | .mgmtAlertSet m _ => masterNo m
  | .alertResponseRead => true
  | .i3cAddressAssign _ => true
  | .i3cRstdaa => true
  | .jtagExtest _ _ => true
  | .jtagIdcode => true
  | .jtagSamplePreload _ _ => true
  | .jtagClamp => true
  | .jtagHighz => true
  | .jtagBypass => true
  | .dbgChal => true
  | .dbgResp _ => true
  | .dbgStat => true
  | .dmi _ _ _ => true
  | .linkDown p _ => portNo p
  | .pcieErrorLogged p _ => portNo p
  | .partnerWidthRequest p _ => portNo p
  | .dramTrainingDone k => decide (k < 4)
  | .domainOffReached n => decide (n < 96)
  | .asynchronousEventRequest _ => true
  | .setFeaturesTemperatureThreshold _ _ _ _ _ => true
  | .kekEstablishment _ _ _ => true
  | .mctpPacketError => true

end Sys2Proof
end

