-- ==== Sys2Proof/Certificates/Slice0/Obligations.lean ====
section
/-!
DEFINITION. The statements for the provers: first those about every command and every step, then one or two for each family of commands,
then those that formalise one numbered rule each. A statement of a family is a list of clauses, each for every device that meets its
hypotheses.
-/

open Sys2Proof Sys2Proof.Machine

/-- One step of the block is the command at the front of the queue, acting on the machine with the rest of the queue. -/
def Obligations.StepRunsTheFrontCommand : Prop :=
  ∀ (c : Instr) (s : State), step { s with pending := c :: s.pending } = exec c s

/-- With no command waiting a step lets one HK tick of 40 ns pass: device time and the ticks of media time's second rise by one, every
hart's mip.MTIP is 1 exactly while its compare is at or below the new time, and nothing else changes. That a step on an empty queue is a
tick is the model's choice (log entry 42). -/
def Obligations.EmptyQueueIsOneTick : Prop :=
  ∀ d : Dev, ∃ b : BitVec 16, step { pending := [], dev := d } = .next { pending := [], dev := { d with
      hw := { d.hw with time := d.hw.time + 1#64 }, wh := { d.wh with mtip := b }, aff := { d.aff with ticks := d.aff.ticks + 1 } } } ∧
    ∀ c < 16, b.getLsbD c = decide (mtimecmp d.hw c ≤ (d.hw.time + 1#64).toNat)

/-- No command touches the queue of waiting commands. -/
def Obligations.CommandsLeaveTheQueue : Prop :=
  ∀ (c : Instr) (s t : State), exec c s = .next t → t.pending = s.pending

/-- A command whose operands name no unit of any part, or lie outside their range, stops with noSuchUnit, the model's choice (log entry
1); no command is refused. -/
def Obligations.IllFormedCommandsStop : Prop :=
  (∀ (c : Instr) (s : State), c.wf = false → exec c s = .fault .noSuchUnit) ∧
  (∀ (c : Instr) (s : State) (r : Refusal), exec c s ≠ .refused r)

/-- On a complete part with two host ports every well-formed command runs. -/
def Obligations.WellFormedCommandsRun : Prop :=
  ∀ (c : Instr) (d : Dev), c.wf = true → d.fuse.variant = .ax → d.pins.dualPort = true → ∃ e, Runs c d e

/-- Every step keeps the byte stores, memory with its check bytes and the Rind store, in canonical form. -/
def Obligations.StepKeepsStoresCanonical : Prop :=
  ∀ s t : State, s.storesWf → step s = .next t → t.storesWf

/-- After reset the byte stores are in canonical form. -/
def Obligations.ResetStoresCanonical : Prop := State.reset.storesWf

/-- No step changes which part the device is, its stepping or its revoked keys, and none unblows a key-epoch fuse. -/
def Obligations.StepKeepsThePart : Prop :=
  ∀ s t : State, step s = .next t → Fuse.later s.dev.fuse t.dev.fuse

/-- The reset lines and the start-up sequence (R44, R433, R442, R455, R456, R506): what each command of the family leaves when it takes
effect. -/
def Obligations.StartupCommands : Prop :=
  -- PGOOD_RISE with PD0 powered all along: the level, held external sources, and the sequence's first slot if every domain is down.
  (∀ d : Dev, d.pins.pgood = false → ∃ (w : List (Nat × Word)) (p : Pwr),
    Runs (.pgoodRise false) d { d with hw := { d.hw with regs := w }, pins := { d.pins with pgood := true }, pwr := p } ∧
    (∀ a, a ≠ R.WH_PEND 11 → tabGet w a = tabGet d.hw.regs a) ∧
    (d.pwr.seqWait = false → p = d.pwr) ∧
    (d.pwr.seqWait = true → (∀ n ∈ seqOrder d.fuse, (domGet d.pwr n).st = .off) →
      p = domPut { d.pwr with seq := some 1, seqWait := false } 73
        { domGet d.pwr 73 with st := .waking, fromOff := true, src := 1, wake := none })) ∧
  -- PGOOD_RISE after a loss of PD0's supply: power-on reset of PD0.
  (∀ d : Dev, d.pins.pgood = false → ∃ e, Runs (.pgoodRise true) d e ∧ e.pins.pgood = true ∧ e.fuse = d.fuse ∧ e.hw.time = 0#64 ∧
    e.hw.mem = Mem.init ∧ (∀ a, a ≠ R.WH_PEND 11 → rd e.hw a = regReset a) ∧ e.sec.importKeks = [] ∧ e.sec.dbg.unlocked = false ∧
    (∀ n, (slotGet e.sec n).type = 0 ∧ (slotGet e.sec n).gen = (slotGet d.sec n).gen) ∧ e.boot.retDue = true ∧
    e.hw.rind.locks = d.hw.rind.locks ∧ e.hw.rind.pwLocked = false ∧ e.med.layout = d.med.layout ∧ e.ten.namespaces = d.ten.namespaces) ∧
  -- PGOOD_FALL and SYS_RESET_ASSERT reset the device and run no flush.
  (∀ d : Dev, d.pins.pgood = true → ∃ e, Runs .pgoodFall d e ∧ Dev.ResetTo true d e ∧
    e.pins = { d.pins with pgood := false } ∧ e.holdup.flushStep = 0) ∧
  (∀ d : Dev, d.pins.sysResetHigh = true → ∃ e, Runs .sysResetAssert d e ∧ Dev.ResetTo true d e ∧
    e.pins = { d.pins with sysResetHigh := false } ∧ e.holdup.flushStep = 0) ∧
  -- SYS_RESET_RELEASE samples the straps, and nothing else changes.
  (∀ (d : Dev) (two clk sris : Bool), d.pins.sysResetHigh = false →
    Runs (.sysResetRelease two clk sris) d { d with
      pins := { d.pins with
        sysResetHigh := true, dualPort := two, refclk1Sel := clk, sris := sris
        gpio := BitVec.ofNat 16 ((if two then 1 else 0) + (if clk then 2 else 0) + (if sris then 4 else 0)) } }) ∧
  -- STARTUP_SLOT starts the next domain of the sequence with source POWERUP.
  (∀ (d : Dev) (i n : Nat), d.pwr.seq = some i → (seqOrder d.fuse)[i]? = some n → (domGet d.pwr n).st = .off →
    Runs .startupSlot d { d with
      pwr := domPut { d.pwr with seq := some (i + 1) } n
        { domGet d.pwr n with st := .waking, fromOff := true, src := 1, wake := none } }) ∧
  -- INTERNAL_RESET, once the flush and its tail phase are over.
  (∀ d : Dev, d.holdup.flushStep = 6 → d.holdup.resetAfter = true → d.holdup.coldAfter = false → d.holdup.inHold = false →
    ∃ e, Runs .internalReset d e ∧ Dev.ResetTo false d e ∧ e.pins = d.pins ∧
      e.holdup.flushStep = 0 ∧ e.holdup.resetAfter = false) ∧
  -- RIND_BOOTCTL.RESET asks for an internal reset after the flush.
  (∀ (d : Dev) (m : Nat) (v : Word), d.lets (writeOf m R.RIND_BOOTCTL (v ||| 2#32)) → fld v 4 2 = 3 →
    Runs (.resetWrite m v) d (Dev.wrote { d with
      hw := wr d.hw R.RIND_BOOTCTL (putBit (rd d.hw R.RIND_BOOTCTL) 0 (bit v 0)), holdup := { d.holdup with resetAfter := true } }
      m R.RIND_BOOTCTL (v ||| 2#32))) ∧
  (∀ (d : Dev) (m : Nat) (v : Word), d.lets (writeOf m R.RIND_BOOTCTL (v ||| 2#32)) → fld v 4 2 ≠ 3 →
    Runs (.resetWrite m v) d (Dev.wrote { d with
      hw := wr d.hw R.RIND_BOOTCTL (putBit (putFld (rd d.hw R.RIND_BOOTCTL) 4 2 (fld v 4 2)) 0 (bit v 0))
      boot := if 3 ≤ d.boot.bootState then { d.boot with bootState := 3 + fld v 4 2 } else d.boot
      holdup := { d.holdup with resetAfter := true } } m R.RIND_BOOTCTL (v ||| 2#32))) ∧
  -- NVM Subsystem Reset is performed as an internal reset.
  (∀ (d : Dev) (p fn : Nat), ctrlOk d p fn = true →
    Runs (.nvmSubsystemReset p fn) d { d with holdup := { d.holdup with resetAfter := true } })

/-- The fabric monitor, the reads that latch a high word for the master (R30, R32), item arguments (R347) and the memory accesses (R349,
R351, R353): what each leaves when its request reaches its target. -/
def Obligations.FabricCommands : Prop :=
  -- What never reaches the fabric: a request of a reserved master ID, of a master whose domain does not run, or of a hart that waits for a
  -- register store. A core's barred fetch takes its fault at the core (shown as DENIED: the model's choice, log entry 126).
  (∀ (d : Dev) (q : Req), (masterReserved q.master = true ∨ masterClocked d q.master = false ∨ storeHeld d q.master = true) →
    access q d = d) ∧
  (∀ (d : Dev) (q : Req), masterReserved q.master = false → masterClocked d q.master = true → storeHeld d q.master = false →
    fetchBarred d q = true → access q d = respond q .denied 0 d) ∧
  (∀ (d : Dev) (grant hop : Nat), Runs (.fabmonUpdate grant hop) d
    { d with hw := wr d.hw R.ID_FABMON (BitVec.ofNat 32 (grant % 1024 * 1024 + hop % 1024)) }) ∧
  -- Reads of a low word: the value, with the high word latched for that master alone.
  (∀ (d : Dev) (m : Nat), d.lets (readOf m R.ID_TIME_LO) → Runs (.idTimeLoRead m) d
    (Dev.read { d with hw := mwr d.hw R.ID_TIME_HI m (BitVec.ofNat 32 (d.hw.time.toNat / 0x100000000)) } m R.ID_TIME_LO
      (BitVec.ofNat 32 d.hw.time.toNat))) ∧
  (∀ (d : Dev) (m p : Nat), p < 2 → d.lets (readOf m (R.HOSTIF_PTM_LO p)) → Runs (.hostifPtmLoRead m p) d
    (Dev.read { d with hw := mwr d.hw (R.HOSTIF_PTM_HI p) m (BitVec.ofNat 32 ((portGet d p).ptmOffset.toNat / 0x100000000)) } m
      (R.HOSTIF_PTM_LO p) (BitVec.ofNat 32 (portGet d p).ptmOffset.toNat))) ∧
  (∀ (d : Dev) (m : Nat), d.lets (readOf m R.MAPU_VER_LO) → Runs (.mapuVerLoRead m) d
    (Dev.read { d with hw := mwr d.hw R.MAPU_VER_HI m (BitVec.ofNat 32 (d.med.mapu.version / 0x100000000)) } m R.MAPU_VER_LO
      (BitVec.ofNat 32 d.med.mapu.version))) ∧
  (∀ (d : Dev) (m : Nat), d.lets (readOf m R.AFFINEUR_MTIME_LO) → Runs (.affineurMtimeLoRead m) d
    (Dev.read { d with hw := mwr d.hw R.AFFINEUR_MTIME_HI m (BitVec.ofNat 32 (d.aff.mtime / 0x100000000)) } m R.AFFINEUR_MTIME_LO
      (BitVec.ofNat 32 d.aff.mtime))) ∧
  (∀ (d : Dev) (m n : Nat), n < 96 → d.lets (readOf m (R.PWR_LW_TIME_LO n)) → Runs (.pwrLwTimeLoRead m n) d
    (if domPresent d.fuse n = true then
      Dev.read { d with hw := mwr d.hw (R.PWR_LW_TIME_HI n) m (BitVec.ofNat 32 ((domGet d.pwr n).at_.toNat / 0x100000000)) } m
        (R.PWR_LW_TIME_LO n) (BitVec.ofNat 32 (domGet d.pwr n).at_.toNat)
    else Dev.read d m (R.PWR_LW_TIME_LO n) 0#32)) ∧
  (∀ (d : Dev) (m : Nat), d.lets (readOf m R.KV_SLOT_CTR_LO) → Runs (.kvSlotCtrLoRead m) d
    (Dev.read { d with
      hw := mwr d.hw R.KV_SLOT_CTR_HI m (BitVec.ofNat 32 ((slotGet d.sec (fld (rd d.hw R.KV_SSEL) 0 13)).ctr / 0x100000000)) } m
      R.KV_SLOT_CTR_LO (BitVec.ofNat 32 (slotGet d.sec (fld (rd d.hw R.KV_SSEL) 0 13)).ctr))) ∧
  -- A register of the HERDER block takes the RW bits of what is written to it (its interrupt registers apart); a change of a Pack's rebuild
  -- rate or burst first settles its balance.
  (∀ (d : Dev) (m a : Nat) (v : Word) (r : RegRow), 0xF0000D0000 ≤ a → a < 0xF0000E0000 → a ≠ R.HERDER_INT_STAT → a ≠ R.HERDER_INT_EN →
    regRow a = some r → d.lets (writeOf m a v) →
    Runs (.registerWrite m a v) d (Dev.wrote { d with
      hw := wr d.hw a (w1cWrite r.w1c (rwWrite r.rw (rd d.hw a) v) v)
      fl := if 0x20 ≤ a % 0x10000 ∧ a % 0x10000 < 0x50 ∧ a % 16 < 8 then { d.fl with
          balance := tabPut d.fl.balance ((a % 0x10000 - 0x20) / 0x10) (balNow d ((a % 0x10000 - 0x20) / 0x10), d.hw.time.toNat) }
        else d.fl } m a v)) ∧
  -- An argument of an item joins the item, unless a flush discarded the item.
  (∀ (d : Dev) (m a : Nat) (v : Word), itemArgAddr a = true → d.lets (writeOf m a v) → Runs (.itemArgWrite m a v) d
    (if (itemGet d.hw (regSlot a) m).flushed = true then
      settle (respond (writeOf m a v) .flushed 0 { d with
        hw := itemPut d.hw (regSlot a) m { itemGet d.hw (regSlot a) m with flushed := false, seen := true, stFlushed := true, args := [] } })
    else Dev.wrote { d with
      hw := itemPut d.hw (regSlot a) m { itemGet d.hw (regSlot a) m with
        args := tabPut (itemGet d.hw (regSlot a) m).args (a % 0x10000) v } } m a v)) ∧
  -- A read of up to a word of defined memory: the data of a good or corrected word; an uncorrectable or poisoned one is refused.
  (∀ (d : Dev) (m a size : Nat) (fetch : Bool) (w : DWord) (c : Byte), size ≤ 8 → d.lets (readReq m a size fetch) →
    (regionOf d.hw a = .sram ∨ regionOf d.hw a = .retention ∨ regionOf d.hw a = .dram) → memRaw d.hw.mem (a / 8 * 8) = some (w, c) →
    Runs (.memoryRead m a size fetch) d (match secClass w c with
      | .good x => respond (readReq m a size fetch) .ok (x.toNat / 256 ^ (a % 8) % 256 ^ size) d
      | .corrected x => respond (readReq m a size fetch) .ok (x.toNat / 256 ^ (a % 8) % 256 ^ size) { d with hw := memCe d.hw (a / 8 * 8) }
      | .uncorrectable => respond (readReq m a size fetch) .unrecovered 0 { d with hw := memUe d.hw (a / 8 * 8) false }
      | .poisoned => respond (readReq m a size fetch) .unrecovered 0 { d with hw := memUe d.hw (a / 8 * 8) true })) ∧
  -- A write of a whole word stores its data and its check bits as carried, whatever stood there.
  (∀ (d : Dev) (m a : Nat) (data : DWord) (chk : Byte), d.lets (wordReq m a data chk) →
    (regionOf d.hw a = .sram ∨ regionOf d.hw a = .retention ∨ regionOf d.hw a = .dram) →
    Runs (.memoryWrite m a data chk) d (respond (wordReq m a data chk) .ok 0 { d with
      hw := { d.hw with mem := memPut d.hw.mem a data chk } })) ∧
  -- A shorter write merges into a good or corrected word; a bad word becomes poisoned and POISON_SET is set.
  (∀ (d : Dev) (m a : Nat) (bs : List Byte) (w : DWord) (c : Byte), bs.length < 8 → d.lets (bytesReq m a bs) →
    (regionOf d.hw a = .sram ∨ regionOf d.hw a = .retention ∨ regionOf d.hw a = .dram) → memRaw d.hw.mem (a / 8 * 8) = some (w, c) →
    Runs (.partialWrite m a bs) d (respond (bytesReq m a bs) .ok 0 { d with
      hw := match secClass w c with
        | .good x => { d.hw with mem := memPut d.hw.mem (a / 8 * 8) (mergeBytes x (a % 8) bs) (secCheck (mergeBytes x (a % 8) bs)) }
        | .corrected x => { d.hw with mem := memPut d.hw.mem (a / 8 * 8) (mergeBytes x (a % 8) bs) (secCheck (mergeBytes x (a % 8) bs)) }
        | _ => irq { d.hw with mem := memPut d.hw.mem (a / 8 * 8) 0#64 0xFF#8 } (if 0x100000000 ≤ a / 8 * 8 then irqDramc else irqMemchk)
            (if 0x100000000 ≤ a / 8 * 8 then 5 else 2) }))

/-- Whistle (R403–R416): filtered inputs, aliases, masks, claims, routes, thresholds, timers and the wake of a saved cluster. -/
def Obligations.InterruptCommands : Prop :=
  -- A filtered level changes: the level, and the source pending where the input goes active. PFAIL_N and SHDN_REQ_N outside a flush.
  (∀ (d : Dev) (i : Nat) (lv : Bool), i < 16 → i ≠ 2 → ((i = 0 ∨ i = 3) → d.holdup.flushStep = 0) → d.pins.filt.getLsbD i ≠ lv →
    (extDriven d i = true → extSample d i = lv) →
    Runs (.filteredLevelChange i lv) d { d with
      pins := { d.pins with
        filt := d.pins.filt ^^^ (1#16 <<< i)
        raw := if extDriven d i || d.pins.raw.getLsbD i == lv then d.pins.raw else d.pins.raw ^^^ (1#16 <<< i) }
      hw := if lv = (decide (4 ≤ i) && bit (rd d.hw (R.WH_XCFG i)) 9) then pendSet d.hw (352 + i) else d.hw }) ∧
  -- THERM_ALERT_N's edges set and end its pause.
  (∀ (d : Dev) (lv : Bool), d.pins.filt.getLsbD 2 ≠ lv →
    Runs (.filteredLevelChange 2 lv) d { d with
      pins := { d.pins with
        filt := d.pins.filt ^^^ 4#16
        raw := if d.pins.raw.getLsbD 2 == lv then d.pins.raw else d.pins.raw ^^^ 4#16 }
      therm := { d.therm with alert := !lv }
      hw := if lv then d.hw else irq (pendSet d.hw 354) irqTherm 4 }) ∧
  -- PFAIL_N active during a flush: the restart will be the cold one.
  (∀ d : Dev, d.pins.filt.getLsbD 0 = true → d.holdup.flushStep ≠ 0 → ∃ e, Runs (.filteredLevelChange 0 false) d e ∧
    e.holdup = { d.holdup with coldAfter := true } ∧ e.hw = pendSet d.hw 352 ∧ e.pins.filt = d.pins.filt ^^^ 1#16) ∧
  -- The pending aliases: set, and clear but for the sources that their level holds.
  (∀ (d : Dev) (m j : Nat) (v : Word), j < 32 → d.lets (writeOf m (R.WH_PEND_SET j) v) →
    Runs (.pendingSetAlias m j v) d (Dev.wrote { d with hw := wr d.hw (R.WH_PEND j) (rd d.hw (R.WH_PEND j) ||| v) } m (R.WH_PEND_SET j) v)) ∧
  (∀ (d : Dev) (m j : Nat) (v : Word), j < 32 → d.lets (writeOf m (R.WH_PEND_CLR j) v) → ∃ w : Word,
    Runs (.pendingClearAlias m j v) d (Dev.wrote { d with hw := wr d.hw (R.WH_PEND j) w } m (R.WH_PEND_CLR j) v) ∧
    ∀ i < 32, bit w i = (bit (rd d.hw (R.WH_PEND j)) i && (!bit v i || levelActive d (32 * j + i)))) ∧
  -- A mask word, its SET and its CLEAR alias.
  (∀ (d : Dev) (m j kind : Nat) (v : Word), j < 32 → kind < 3 → d.lets (writeOf m (maskAddr kind j) v) →
    Runs (.maskWrite m j kind v) d (Dev.wrote { d with
      hw := wr d.hw (R.WH_MASK j) (match kind with
        | 0 => v
        | 1 => rd d.hw (R.WH_MASK j) ||| v
        | _ => rd d.hw (R.WH_MASK j) &&& ~~~v)
      wh := { d.wh with stale := { time := d.hw.time, addr := R.WH_MASK j, old := rd d.hw (R.WH_MASK j) } :: d.wh.stale } }
      m (maskAddr kind j) v)) ∧
  -- A claim takes the eligible source of highest priority, the lowest number among equals, and clears its pending bit unless its level
  -- holds it; with nothing eligible it answers 0 and changes nothing but the response.
  (∀ (d : Dev) (m x s : Nat) (old : Bool), x < 32 → s < 1024 → d.wh.saved.getLsbD (x / 8) = false → d.lets (readOf m (R.WH_CLAIM x)) →
    whEligible (whView d old) (x / 2) (x % 2) s = true →
    (∀ t < 1024, t ≠ s → whEligible (whView d old) (x / 2) (x % 2) t = true →
      fld (whView d old (R.WH_ROUTE t)) 6 3 < fld (whView d old (R.WH_ROUTE s)) 6 3 ∨
      (fld (whView d old (R.WH_ROUTE t)) 6 3 = fld (whView d old (R.WH_ROUTE s)) 6 3 ∧ s < t)) →
    ∃ w : Word, Runs (.whClaim m x old) d (Dev.read { d with
      hw := wr (wr d.hw (R.WH_PEND (s / 32)) w) (R.WH_LAST x) (BitVec.ofNat 32 (2147483648 + s))
      wh := { d.wh with stale := if old then whSpent (x / 2) (x % 2) s d.wh.stale else d.wh.stale } } m (R.WH_CLAIM x) (BitVec.ofNat 32 (2147483648 + s))) ∧
      (∀ i < 32, bit w i = (bit (rd d.hw (R.WH_PEND (s / 32))) i && (decide (i ≠ s % 32) || levelActive d s)))) ∧
  (∀ (d : Dev) (m x : Nat) (old : Bool), x < 32 → d.lets (readOf m (R.WH_CLAIM x)) →
    (d.wh.saved.getLsbD (x / 8) = true ∨ ∀ t < 1024, whEligible (whView d old) (x / 2) (x % 2) t = false) →
    Runs (.whClaim m x old) d (Dev.read d m (R.WH_CLAIM x) 0#32)) ∧
  -- Routes and thresholds; a saved context ignores its threshold's write.
  (∀ (d : Dev) (m s : Nat) (v : Word), s < 1024 → d.lets (writeOf m (R.WH_ROUTE s) v) →
    Runs (.whRouteWrite m s v) d (Dev.wrote { d with
      hw := wr d.hw (R.WH_ROUTE s) ((rd d.hw (R.WH_ROUTE s) &&& ~~~0x1EF#32) ||| (v &&& 0x1EF#32))
      wh := { d.wh with stale := { time := d.hw.time, addr := R.WH_ROUTE s, old := rd d.hw (R.WH_ROUTE s) } :: d.wh.stale } }
      m (R.WH_ROUTE s) v)) ∧
  (∀ (d : Dev) (m x : Nat) (v : Word), x < 32 → d.lets (writeOf m (R.WH_THRESH x) v) →
    Runs (.whThreshWrite m x v) d (Dev.wrote (if d.wh.saved.getLsbD (x / 8) = true then d else { d with
      hw := wr d.hw (R.WH_THRESH x) ((rd d.hw (R.WH_THRESH x) &&& ~~~7#32) ||| (v &&& 7#32))
      wh := { d.wh with stale := { time := d.hw.time, addr := R.WH_THRESH x, old := rd d.hw (R.WH_THRESH x) } :: d.wh.stale } })
      m (R.WH_THRESH x) v)) ∧
  -- An input's configuration: N = 0 keeps N, PFAIL_N's N is 2, TAMPER_N's is frozen under LOCK; a level that holds makes it pending.
  (∀ (d : Dev) (m i : Nat) (v : Word), i < 16 → d.lets (writeOf m (R.WH_XCFG i) v) →
    Runs (.whXcfgWrite m i v) d (Dev.wrote (if i = 1 ∧ bit (rd d.hw R.COLLAR_CTRL) 1 = true then d else
      let n := if i = 0 then 2 else if fld v 0 8 = 0 then fld (rd d.hw (R.WH_XCFG i)) 0 8 else fld v 0 8
      let h := wr d.hw (R.WH_XCFG i) (putFld (putBit (putBit 0#32 9 (decide (4 ≤ i) && bit v 9)) 8 (bit v 8)) 0 8 n)
      { d with hw := if levelActive { d with hw := h } (352 + i) then pendSet h (352 + i) else h }) m (R.WH_XCFG i) v)) ∧
  -- The 64-bit compare: the low word waits for the high word; then mip.MTIP follows.
  (∀ (d : Dev) (m c : Nat) (v : Word), c < 16 → d.lets (writeOf m (R.WH_MTIMECMP_LO c) v) →
    Runs (.whMtimecmpLoWrite m c v) d (Dev.wrote { d with hw := mwr d.hw (cmpHold c) 0 v } m (R.WH_MTIMECMP_LO c) v)) ∧
  (∀ (d : Dev) (m c : Nat) (v lo : Word), c < 16 → d.lets (writeOf m (R.WH_MTIMECMP_HI c) v) →
    tabGet d.hw.mregs (cmpHold c * 128) = some lo →
    Runs (.whMtimecmpHiWrite m c v) d (Dev.wrote { d with
      hw := { wr (wr d.hw (R.WH_MTIMECMP_LO c) lo) (R.WH_MTIMECMP_HI c) v with mregs := tabDel d.hw.mregs (cmpHold c * 128) }
      wh := { d.wh with mtip := if lo.toNat + 0x100000000 * v.toNat ≤ d.hw.time.toNat then d.wh.mtip ||| (1#16 <<< c)
                                else d.wh.mtip &&& ~~~(1#16 <<< c) } } m (R.WH_MTIMECMP_HI c) v)) ∧
  (∀ (d : Dev) (c : Nat), c < 16 → mtimecmp d.hw c ≤ d.hw.time.toNat →
    Runs (.timerCompareReached c) d { d with wh := { d.wh with mtip := d.wh.mtip ||| (1#16 <<< c) } }) ∧
  (∀ (d : Dev) (m c : Nat) (v : Word), c < 16 → d.lets (writeOf m (R.WH_MSIP c) v) →
    Runs (.whMsipWrite m c v) d (Dev.wrote { d with
      hw := wr d.hw (R.WH_MSIP c) ((rd d.hw (R.WH_MSIP c) &&& ~~~1#32) ||| (v &&& 1#32)) } m (R.WH_MSIP c) v)) ∧
  -- A saved cluster with work wakes with source WHISTLE.
  (∀ (d : Dev) (k : Nat), k < 4 → d.wh.saved.getLsbD k = true → clusterHasWork d k = true →
    ((domGet d.pwr (73 + k)).st = .off ∨ (domGet d.pwr (73 + k)).st = .ret) →
    Runs (.whistleWake k) d { d with
      pwr := domPut d.pwr (73 + k) { domGet d.pwr (73 + k) with
        st := .waking, fromOff := decide ((domGet d.pwr (73 + k)).st = .off), src := 3, wake := none } })

/-- Power domains (R447–R454): timers, drains, modes, gates, wakes and what OFF costs. -/
def Obligations.DomainCommands : Prop :=
  -- An idle domain that is ON begins to drain: automatic with PWR_RETT set, or forced. A detector's change of state lets waiting reads ask
  -- again (`detMoved`, R198).
  (∀ (d : Dev) (n : Nat), n ≠ 0 → domPresent d.fuse n = true → (domGet d.pwr n).st = .on → domIdle d n = true → d.holdup.flushStep = 0 →
    ((domMode d.hw n = 0 ∧ fld (rd d.hw (R.PWR_RETT n)) 0 20 ≠ 0) ∨ 2 ≤ domMode d.hw n) →
    Runs (.domainRetTimer n) d (detMoved n d { d with pwr := domPut d.pwr n { domGet d.pwr n with st := .draining, wake := none } })) ∧
  -- From RET a domain goes OFF by its timer or FORCE_OFF, unless a hold keeps it in RET.
  (∀ (d : Dev) (n : Nat), n ≠ 0 → domPresent d.fuse n = true → (domGet d.pwr n).st = .ret →
    (domMode d.hw n = 3 ∨ (domMode d.hw n = 0 ∧ fld (rd d.hw (R.PWR_OFFT n)) 0 20 ≠ 0)) →
    Runs (.domainOffTimer n) d (if holds d n = 0 then { d with pwr := domPut d.pwr n { domGet d.pwr n with st := .goingOff } } else d)) ∧
  -- A drain ends in RET with the unit's state saved; one that started an operation goes back to ON; the flush takes it OFF; a wake that came
  -- meanwhile turns it back.
  (∀ (d : Dev) (n : Nat), domPresent d.fuse n = true → (domGet d.pwr n).st = .draining → (domGet d.pwr n).flushOff = false →
    Runs (.domainDrainEnd n true) d (detMoved n d { d with pwr := domPut d.pwr n { domGet d.pwr n with st := .on, wake := none } })) ∧
  (∀ (d : Dev) (n : Nat), domPresent d.fuse n = true → (domGet d.pwr n).st = .draining → (domGet d.pwr n).flushOff = false →
    (domGet d.pwr n).wake = none → domMode (domSave n d).hw n ≠ 3 →
    Runs (.domainDrainEnd n false) d (detMoved n d { domSave n d with pwr := domPut d.pwr n { domGet d.pwr n with st := .ret } })) ∧
  (∀ (d : Dev) (n : Nat) (busy : Bool), n ≠ 0 → domPresent d.fuse n = true → (domGet d.pwr n).st = .draining →
    (domGet d.pwr n).flushOff = true →
    Runs (.domainDrainEnd n busy) d (detMoved n d { domSave n d with pwr := domPut d.pwr n { domGet d.pwr n with st := .goingOff } })) ∧
  (∀ (d : Dev) (n src : Nat), n ≠ 0 → domPresent d.fuse n = true → (domGet d.pwr n).st = .draining → (domGet d.pwr n).flushOff = false →
    (domGet d.pwr n).wake = some src →
    Runs (.domainDrainEnd n false) d (detMoved n d { domSave n d with
      pwr := domPut d.pwr n { domGet d.pwr n with st := .waking, fromOff := false, src := src, wake := none } })) ∧
  -- FORCE_ON wakes a domain at rest with source FORCED; PD0 takes no MODE; the write to a domain that the part lacks changes nothing.
  (∀ (d : Dev) (m n : Nat) (v : Word), 0 < n → n < 96 → domPresent d.fuse n = true → fld v 0 2 = 1 →
    ((domGet d.pwr n).st = .off ∨ (domGet d.pwr n).st = .ret) → d.lets (writeOf m (R.PWR_DCTRL n) v) →
    Runs (.domainModeWrite m n v) d (Dev.wrote (detMoved n d (settle { d with
      hw := wr d.hw (R.PWR_DCTRL n) ((rd d.hw (R.PWR_DCTRL n) &&& ~~~0xC3#32) ||| (v &&& 0xC3#32))
      pwr := domPut d.pwr n { domGet d.pwr n with
        st := .waking, fromOff := decide ((domGet d.pwr n).st = .off), src := 4, wake := none } })) m (R.PWR_DCTRL n) v)) ∧
  (∀ (d : Dev) (m : Nat) (v : Word), d.lets (writeOf m (R.PWR_DCTRL 0) v) →
    Runs (.domainModeWrite m 0 v) d (Dev.wrote (settle { d with
      hw := wr d.hw (R.PWR_DCTRL 0) ((rd d.hw (R.PWR_DCTRL 0) &&& ~~~0xC0#32) ||| (v &&& 0xC0#32)) }) m (R.PWR_DCTRL 0) v)) ∧
  (∀ (d : Dev) (m n : Nat) (v : Word), n < 96 → domPresent d.fuse n = false → d.lets (writeOf m (R.PWR_DCTRL n) v) →
    Runs (.domainModeWrite m n v) d (Dev.wrote (detMoved n d (settle d)) m (R.PWR_DCTRL n) v)) ∧
  -- A request at a closed gate waits and wakes the domain, with the check bits that it carried; or it is answered TARGET_OFF, which PWR_STAT
  -- records and whose master, a core, faults.
  (∀ (d : Dev) (n m a size data : Nat) (write : Bool) (chk : Byte), n ≠ 0 → domPresent d.fuse n = true → masterOk m = true →
    masterClocked d m = true → storeHeld d m = false → domOf d.hw a = n → accessCheck d (fabReq m a size write data chk) = none →
    regAbsent d a = false → domOn d.pwr n = false →
    domMode d.hw n < 2 → bit (rd d.hw (R.PWR_DCTRL n)) 6 = true → ((domGet d.pwr n).st = .off ∨ (domGet d.pwr n).st = .ret) →
    Runs (.domainWakeRequest n m a size write ⟨data, chk⟩) d (respWait (fabReq m a size write data chk) { d with
      pwr := domPut { d.pwr with held := d.pwr.held ++ [{ dom := n, req := fabReq m a size write data chk }] } n
        { domGet d.pwr n with st := .waking, fromOff := decide ((domGet d.pwr n).st = .off), src := 2, wake := none } })) ∧
  (∀ (d : Dev) (n m a size data : Nat) (write : Bool) (chk : Byte), n ≠ 0 → domPresent d.fuse n = true → masterOk m = true →
    masterClocked d m = true → storeHeld d m = false → domOf d.hw a = n → accessCheck d (fabReq m a size write data chk) = none →
    regAbsent d a = false → domOn d.pwr n = false → (2 ≤ domMode d.hw n ∨ bit (rd d.hw (R.PWR_DCTRL n)) 6 = false) →
    Runs (.domainWakeRequest n m a size write ⟨data, chk⟩) d { d with
      hw := { irq d.hw irqPwr 1 with
        resps := tabPut d.hw.resps m
          { addr := a, kind := if write then .write else .read, status := .targetOff, data := 0, fault := decide (m < 16), waiting := false } } }) ∧
  -- ON is reached: the wake is recorded and the unit restores what was saved; a channel retrains the chip enables that need it (R157), a
  -- decoder takes the jobs that wait (R205); and the requests that waited are carried out in order.
  (∀ (d : Dev) (n : Nat), domPresent d.fuse n = true → (domGet d.pwr n).st = .waking →
    Runs (.domainOnReached n) d (heldRun n
      (let e := seqEnd { domRestore n (domGet d.pwr n).fromOff d with
        pwr := domPut (domRestore n (domGet d.pwr n).fromOff d).pwr n { domGet d.pwr n with
          st := .on, flushOff := false, at_ := d.hw.time, wakes := min 268435455 ((domGet d.pwr n).wakes + 1) } }
       if 1 ≤ n ∧ n ≤ 48 then retrainWoken (n - 1) e else if 87 ≤ n ∧ n ≤ 90 then decAssign e else e))) ∧
  -- A wake that takes too long is reported and goes on.
  (∀ (d : Dev) (n : Nat), domPresent d.fuse n = true → (domGet d.pwr n).st = .waking →
    Runs (.domainWakeFail n) d { d with hw := evUnit (irq d.hw irqPwr 2) 3 0x091 3 n 0 0 }) ∧
  -- OFF is reached: a hold set meanwhile stops the domain in RET; otherwise it is OFF. A domain of working SRAM loses its bytes.
  (∀ (d : Dev) (n : Nat), n ≠ 0 → domPresent d.fuse n = true → (domGet d.pwr n).st = .goingOff → (domGet d.pwr n).flushOff = false →
    (domGet d.pwr n).wake = none → holds d n ≠ 0 →
    Runs (.domainOffReached n) d { d with pwr := domPut d.pwr n { domGet d.pwr n with st := .ret } }) ∧
  (∀ (d : Dev) (n : Nat), 91 ≤ n → n ≤ 94 → (domGet d.pwr n).st = .goingOff → (domGet d.pwr n).wake = none →
    ((domGet d.pwr n).flushOff = true ∨ holds d n = 0) → d.pwr.seqWait = false →
    Runs (.domainOffReached n) d { d with
      hw := { d.hw with mem := memLose d.hw.mem (0x10000000 + (n - 91) * 0x1000000) (0x10000000 + (n - 91) * 0x1000000 + 0x1000000) none }
      pwr := domPut d.pwr n { domGet d.pwr n with st := .off } })

/-- What a range of memory that lost its power shows: every byte in it is undefined, and every other byte is what it was. -/
def Obligations.LostMemoryIsUndefined : Prop :=
  ∀ (m : Mem) (lo hi a : Nat), storeByte (memLose m lo hi none).data a =
    if lo ≤ a ∧ a < hi then none else storeByte m.data a

/-- Curd (R336–R348): enabling and initialising the pools, grants, shares, drops, frees and releases, each as a hardware master's request
and as a command item. -/
def Obligations.CurdCommands : Prop :=
  -- EN with every buffer FREE and good class registers starts the initialisation of every buffer.
  (∀ (d : Dev) (m : Nat), d.lets (writeOf m R.CURD_CTRL 1#32) → bit (rd d.hw R.CURD_CTRL) 0 = false → d.curd.bufs = [] →
    (∀ c < 6, curdCount d.hw c ≠ 0 → curdBase d.hw c % curdSize c = 0 ∧
      curdInMem d.hw (curdBase d.hw c) (curdBase d.hw c + curdCount d.hw c * curdSize c) = true) →
    (∀ c < 6, ∀ e < 6, c < e → curdCount d.hw c ≠ 0 → curdCount d.hw e ≠ 0 →
      curdBase d.hw c + curdCount d.hw c * curdSize c ≤ curdBase d.hw e ∨ curdBase d.hw e + curdCount d.hw e * curdSize e ≤ curdBase d.hw c) →
    curdCount d.hw 0 + curdCount d.hw 1 + curdCount d.hw 2 + curdCount d.hw 3 + curdCount d.hw 4 + curdCount d.hw 5 ≤ 65536 →
    bit (rd d.hw R.DRAMC_STAT) 23 = false →
    Runs (.curdEnable m) d (Dev.wrote { d with
      hw := wr (wr d.hw R.CURD_CTRL (setBit (rd d.hw R.CURD_CTRL) 0)) R.CURD_STAT (putBit (putFld (rd d.hw R.CURD_STAT) 28 4 0) 27 true)
      curd := { d.curd with free := [], initNext := ((List.range 6).filter (fun c => decide (curdCount d.hw c ≠ 0))).map (fun c => (c, 0)) } }
      m R.CURD_CTRL 1#32)) ∧
  -- While a buffer is not FREE, EN lets the pools go on as they stand.
  (∀ (d : Dev) (m : Nat), d.lets (writeOf m R.CURD_CTRL 1#32) → bit (rd d.hw R.CURD_CTRL) 0 = false → d.curd.bufs ≠ [] →
    Runs (.curdEnable m) d (Dev.wrote { d with
      hw := wr (wr d.hw R.CURD_CTRL (setBit (rd d.hw R.CURD_CTRL) 0)) R.CURD_STAT (putFld (rd d.hw R.CURD_STAT) 28 4 0) } m R.CURD_CTRL 1#32)) ∧
  -- The initialisation that EN started ends, where the pools' domains are ON and the Collar lets CURD write: every buffer is on its class's
  -- free list in index order, and its bytes are zero.
  (∀ d : Dev, d.curd.free = [] → d.curd.initNext ≠ [] → (∀ n, 81 ≤ n → n < 95 → poolIn d.hw n = true → domOn d.pwr n = true) →
    (∀ c < 6, ∀ i < curdCount d.hw c, ∀ a ∈ curdLines (curdBase d.hw c + i * curdSize c) (curdSize c), collarOk d 18 .write a 64 = true) →
    d.curd.initNext = ((List.range 6).filter (fun c => decide (curdCount d.hw c ≠ 0))).map (fun c => (c, 0)) →
    ∃ e, Runs .curdPoolInitEnd d e ∧ e = { d with hw := e.hw, curd := { d.curd with free := e.curd.free, initNext := [] } } ∧
      bit (rd e.hw R.CURD_STAT) 27 = false ∧
      ∀ c < 6, tabGetD e.curd.free c [] = List.range (curdCount d.hw c) ∧
        ∀ a, curdBase d.hw c ≤ a → a < curdBase d.hw c + curdCount d.hw c * curdSize c → storeByte e.hw.mem.data a = some 0#8) ∧
  -- A grant takes the longest-free buffer of the smallest class that fits, or of the next larger one that has a buffer.
  (∀ (d : Dev) (m n c e i : Nat) (nofall : Bool) (rest : List Nat), 0 < n → n ≤ 1048576 → bit (rd d.hw R.CURD_CTRL) 0 = true →
    c ≤ e → e < 6 → n ≤ curdSize c → (∀ k < c, curdSize k < n) → (nofall = true → e = c) →
    (∀ k, c ≤ k → k < e → tabGetD d.curd.free k [] = []) → tabGetD d.curd.free e [] = i :: rest →
    (masterOk m = true → Runs (.curdGrant m n nofall true) d { d with
      hw := mwr (mwr d.hw R.CURD_RSP_LO m (BitVec.ofNat 32 (curdBase d.hw e + i * curdSize e))) R.CURD_RSP_HI m
        (BitVec.ofNat 32 (e * 16777216 + (curdBase d.hw e + i * curdSize e) / 0x100000000 % 65536))
      curd := { d.curd with
        free := tabPut d.curd.free e rest
        bufs := tabPut d.curd.bufs (e * 65536 + i) { st := .held, holds := 1, final := some m } } }) ∧
    (d.lets (writeOf m R.CURD_CMD (grantWord n nofall)) → (itemGet d.hw 7 m).flushed = false →
      Runs (.curdGrant m n nofall false) d (Dev.wrote { d with
        hw := mwr (mwr (itemPut d.hw 7 m { itemGet d.hw 7 m with args := [], stFlushed := false }) R.CURD_RSP_LO m
          (BitVec.ofNat 32 (curdBase d.hw e + i * curdSize e))) R.CURD_RSP_HI m
          (BitVec.ofNat 32 (e * 16777216 + (curdBase d.hw e + i * curdSize e) / 0x100000000 % 65536))
        curd := { d.curd with
          free := tabPut d.curd.free e rest
          bufs := tabPut d.curd.bufs (e * 65536 + i) { st := .held, holds := 1, final := some m } } } m R.CURD_CMD (grantWord n nofall)))) ∧
  -- A grant with no buffer free is answered EMPTY, and a hardware master waits to try again.
  (∀ (d : Dev) (m n c : Nat) (nofall : Bool), masterOk m = true → 0 < n → n ≤ 1048576 → c < 6 → n ≤ curdSize c → (∀ k < c, curdSize k < n) →
    (∀ k, c ≤ k → k < 6 → tabGetD d.curd.free k [] = []) → ∃ h, h = irq d.hw irqCurd c ∧
    Runs (.curdGrant m n nofall true) d { d with
      hw := mwr (mwr h R.CURD_RSP_LO m 0#32) R.CURD_RSP_HI m (BitVec.ofNat 32 (Status.empty.code * 268435456))
      curd := { d.curd with waiting := d.curd.waiting ++ [(m, grantWord n nofall)] } }) ∧
  -- A share, drop or free of a buffer by its pointer: the buffer changes as Table 11.3 says, and the answer is OK.
  (∀ (d : Dev) (m g c i p : Nat) (b x : Buf), curdFind d.hw p = some c → p = curdBase d.hw c + i * curdSize c →
    tabGet d.curd.bufs (c * 65536 + i) = some b →
    -- SHARE: the final holder passes the finality on, and the count rises.
    (b.st = .held → b.final = some m → b.holds ≠ 16 → g < 128 → masterReserved g = false → x = { b with holds := b.holds + 1, final := some g } →
      (masterOk m = true → Runs (.curdShare m g true p) d { d with
        hw := mwr (mwr d.hw R.CURD_RSP_LO m 0#32) R.CURD_RSP_HI m 0#32
        curd := { d.curd with bufs := tabPut d.curd.bufs (c * 65536 + i) x } }) ∧
      (d.lets (writeOf m R.CURD_CMD (curdWord 2 g)) → (itemGet d.hw 7 m).flushed = false →
        itemHas (itemGet d.hw 7 m) 0x14 = true → itemHas (itemGet d.hw 7 m) 0x18 = true →
        (itemArg (itemGet d.hw 7 m) 0x14).toNat + 0x100000000 * fld (itemArg (itemGet d.hw 7 m) 0x18) 0 16 = p →
        Runs (.curdShare m g false p) d (Dev.wrote { d with
          hw := mwr (mwr (itemPut d.hw 7 m { itemGet d.hw 7 m with args := [], stFlushed := false }) R.CURD_RSP_LO m 0#32) R.CURD_RSP_HI m 0#32
          curd := { d.curd with bufs := tabPut d.curd.bufs (c * 65536 + i) x } } m R.CURD_CMD (curdWord 2 g)))) ∧
    -- DROP by a holder other than the final one; the last hold of a PENDING buffer releases it.
    ((b.st = .held ∧ b.final ≠ some m ∧ 2 ≤ b.holds ∧ x = { b with holds := b.holds - 1 }) ∨
      (b.st = .pending ∧ b.holds ≠ 1 ∧ x = { b with holds := b.holds - 1 }) ∨
      (b.st = .pending ∧ b.holds = 1 ∧ x = { st := .releasing, holds := 0, final := none }) →
      (masterOk m = true → Runs (.curdDrop m true p) d { d with
        hw := mwr (mwr d.hw R.CURD_RSP_LO m 0#32) R.CURD_RSP_HI m 0#32
        curd := { d.curd with bufs := tabPut d.curd.bufs (c * 65536 + i) x } }) ∧
      (d.lets (writeOf m R.CURD_CMD (curdWord 3 0)) → (itemGet d.hw 7 m).flushed = false →
        itemHas (itemGet d.hw 7 m) 0x14 = true → itemHas (itemGet d.hw 7 m) 0x18 = true →
        (itemArg (itemGet d.hw 7 m) 0x14).toNat + 0x100000000 * fld (itemArg (itemGet d.hw 7 m) 0x18) 0 16 = p →
        Runs (.curdDrop m false p) d (Dev.wrote { d with
          hw := mwr (mwr (itemPut d.hw 7 m { itemGet d.hw 7 m with args := [], stFlushed := false }) R.CURD_RSP_LO m 0#32) R.CURD_RSP_HI m 0#32
          curd := { d.curd with bufs := tabPut d.curd.bufs (c * 65536 + i) x } } m R.CURD_CMD (curdWord 3 0)))) ∧
    -- FREE by the final holder: RELEASING when it was the only hold, else PENDING.
    (b.st = .held → b.final = some m →
      x = (if b.holds = 1 then { st := .releasing, holds := 0, final := none } else { st := .pending, holds := b.holds - 1, final := none }) →
      (masterOk m = true → Runs (.curdFree m true p) d { d with
        hw := mwr (mwr d.hw R.CURD_RSP_LO m 0#32) R.CURD_RSP_HI m 0#32
        curd := { d.curd with bufs := tabPut d.curd.bufs (c * 65536 + i) x } }) ∧
      (d.lets (writeOf m R.CURD_CMD (curdWord 4 0)) → (itemGet d.hw 7 m).flushed = false →
        itemHas (itemGet d.hw 7 m) 0x14 = true → itemHas (itemGet d.hw 7 m) 0x18 = true →
        (itemArg (itemGet d.hw 7 m) 0x14).toNat + 0x100000000 * fld (itemArg (itemGet d.hw 7 m) 0x18) 0 16 = p →
        Runs (.curdFree m false p) d (Dev.wrote { d with
          hw := mwr (mwr (itemPut d.hw 7 m { itemGet d.hw 7 m with args := [], stFlushed := false }) R.CURD_RSP_LO m 0#32) R.CURD_RSP_HI m 0#32
          curd := { d.curd with bufs := tabPut d.curd.bufs (c * 65536 + i) x } } m R.CURD_CMD (curdWord 4 0)))) ∧
    -- A RELEASING buffer's words are written by the class's action where its domains are ON and the Collar lets CURD write, and it joins the
    -- end of its free list.
    (b.st = .releasing →
      (curdRelease d.hw c ≠ 2 → (∀ n ∈ domsIn d.hw p (p + curdSize c), domOn d.pwr n = true) ∧
        ∀ a ∈ curdLines p (curdSize c), collarOk d 18 .write a 64 = true) → Runs (.curdReleaseDone p) d { d with
      hw := irq { d.hw with
        mem := if curdRelease d.hw c = 0 then memZero d.hw.mem p (p + curdSize c)
          else if curdRelease d.hw c = 1 then memPoison d.hw.mem p (p + curdSize c) else d.hw.mem } irqCurd (6 + c)
      curd := { d.curd with
        bufs := tabDel d.curd.bufs (c * 65536 + i)
        free := tabPut d.curd.free c (tabGetD d.curd.free c [] ++ [i]) } })) ∧
  -- The oldest hardware master that waits asks again, as if it asked first.
  (∀ (d : Dev) (m : Nat) (w : Word) (rest : List (Nat × Word)), d.curd.waiting = (m, w) :: rest →
    Runs .curdEmptyRetry d (curdHw m w 0 { d with curd := { d.curd with waiting := rest } })) ∧
  -- CURD_FLUSH discards a partly written item of the master it names, whole.
  (∀ (d : Dev) (m : Nat) (v : Word), d.lets (writeOf m R.CURD_FLUSH v) → (itemGet d.hw 7 (fld v 0 7)).args ≠ [] →
    Runs (.curdFlushWrite m v) d (Dev.wrote { d with
      hw := irq (itemPut d.hw 7 (fld v 0 7) { itemGet d.hw 7 (fld v 0 7) with args := [], flushed := true }) irqCurd 14 } m R.CURD_FLUSH v))

/-- Memory checking and DRAM control (R355–R363). -/
def Obligations.MemoryCommands : Prop :=
  -- EN maps the data region, seven eighths of a raw size within its range, once every channel is trained; else RANGE.
  (∀ (d : Dev) (m : Nat) (v : Word), d.lets (writeOf m R.DRAMC_CTRL (v ||| 1#32)) → bit v 1 = false → bit (rd d.hw R.DRAMC_CTRL) 0 = false →
    Runs (.dramcEnable m v) d (Dev.wrote { d with
      hw := if fld (rd d.hw R.DRAMC_STAT) 28 4 = 15 ∧ 1024 ≤ fld (rd d.hw R.DRAMC_CFG) 0 16 ∧ fld (rd d.hw R.DRAMC_CFG) 0 16 ≤ 16384 ∧
            fld (rd d.hw R.DRAMC_CFG) 0 16 % 1024 = 0 then
          wr (wr d.hw R.DRAMC_CTRL (setBit (rd d.hw R.DRAMC_CTRL) 0)) R.DRAMC_STAT
            (putFld (putFld (rd d.hw R.DRAMC_STAT) 16 4 0) 0 16 (4 * fld (rd d.hw R.DRAMC_CFG) 0 16 * 7 / 8))
        else wr d.hw R.DRAMC_STAT (putFld (rd d.hw R.DRAMC_STAT) 16 4 2) } m R.DRAMC_CTRL (v ||| 1#32))) ∧
  -- INIT with EN = 1 starts the initialisation, and its end leaves good zeros over the whole data region.
  (∀ (d : Dev) (m : Nat) (v : Word), d.lets (writeOf m R.DRAMC_CTRL (v ||| 2#32)) → bit v 0 = true → bit (rd d.hw R.DRAMC_CTRL) 0 = true →
    bit (rd d.hw R.DRAMC_STAT) 23 = false →
    Runs (.dramcInit m v) d (Dev.wrote { d with
      hw := wr (wr (wr (wr (wr d.hw R.DRAMC_STAT (putFld (rd d.hw R.DRAMC_STAT) 16 4 0)) R.DRAMC_CTRL (setBit (rd d.hw R.DRAMC_CTRL) 1))
        R.DRAMC_STAT (setBit (putFld (rd d.hw R.DRAMC_STAT) 16 4 0) 23)) R.DRAMC_INIT_PTR_LO 0#32) R.DRAMC_INIT_PTR_HI 1#32 } m R.DRAMC_CTRL (v ||| 2#32))) ∧
  (∀ d : Dev, bit (rd d.hw R.DRAMC_STAT) 23 = true → ∃ e, Runs .dramcInitDone d e ∧ e = { d with hw := e.hw } ∧
    bit (rd e.hw R.DRAMC_STAT) 23 = false ∧ bit (rd e.hw R.DRAMC_CTRL) 1 = false ∧ bit (rd e.hw R.DRAMC_INT_STAT) 3 = true ∧
    initPtr e.hw = 0x100000000 + dramBytes d.hw ∧
    ∀ a, storeByte e.hw.mem.data a = (if 0x100000000 ≤ a ∧ a < 0x100000000 + dramBytes d.hw then some 0#8 else storeByte d.hw.mem.data a) ∧
      storeByte e.hw.mem.chk a = (if 0x100000000 ≤ a ∧ a < 0x100000000 + dramBytes d.hw then some 0#8 else storeByte d.hw.mem.chk a)) ∧
  -- Training of a channel ends in its TRAINED bit, or in TRAIN_FAIL.
  (∀ (d : Dev) (k : Nat), k < 4 →
    Runs (.dramTrainingDone k) d { d with hw := wr d.hw R.DRAMC_STAT (setBit (rd d.hw R.DRAMC_STAT) (28 + k)) } ∧
    Runs (.dramTrainFail k) d { d with hw := irq (wr d.hw R.DRAMC_STAT (clrBit (rd d.hw R.DRAMC_STAT) (28 + k))) irqDramc 4 }) ∧
  -- A scrub of a good range runs; a bad base or range, or no lines, completes at once with its status.
  (∀ (d : Dev) (m : Nat), d.lets (writeOf m R.MEMCHK_SCRUB_CTRL 1#32) → bit (rd d.hw R.MEMCHK_SCRUB_STAT) 31 = false →
    scrubBase d.hw % 64 = 0 → 0 < (rd d.hw R.MEMCHK_SCRUB_LINES).toNat →
    inOneMemory d.hw (scrubBase d.hw) (scrubBase d.hw + 64 * (rd d.hw R.MEMCHK_SCRUB_LINES).toNat) = true →
    Runs (.memchkScrubGo m) d (Dev.wrote { d with hw := wr d.hw R.MEMCHK_SCRUB_STAT 0x80000000#32 } m R.MEMCHK_SCRUB_CTRL 1#32)) ∧
  (∀ (d : Dev) (m : Nat), d.lets (writeOf m R.MEMCHK_SCRUB_CTRL 1#32) → bit (rd d.hw R.MEMCHK_SCRUB_STAT) 31 = false →
    (scrubBase d.hw % 64 ≠ 0 → Runs (.memchkScrubGo m) d (Dev.wrote { d with hw := scrubEnd d.hw .align false 0 0 none } m R.MEMCHK_SCRUB_CTRL 1#32)) ∧
    (scrubBase d.hw % 64 = 0 → (rd d.hw R.MEMCHK_SCRUB_LINES).toNat = 0 → inOneMemory d.hw (scrubBase d.hw) (scrubBase d.hw + 1) = true →
      Runs (.memchkScrubGo m) d (Dev.wrote { d with hw := scrubEnd d.hw .ok false 0 0 none } m R.MEMCHK_SCRUB_CTRL 1#32))) ∧
  -- A running scrub whose domains are ON ends after its lines; an abort ends it after some number of them, marked ABORTED.
  (∀ d : Dev, bit (rd d.hw R.MEMCHK_SCRUB_STAT) 31 = true →
    (∀ n ∈ domsIn d.hw (scrubBase d.hw) (scrubBase d.hw + 64 * (rd d.hw R.MEMCHK_SCRUB_LINES).toNat), domOn d.pwr n = true) → ∃ (ce ue : Nat) (first : Option (Nat × Bool)) (h : Hw),
    Runs .memchkScrubDone d { d with hw := scrubEnd h .ok false ce ue first } ∧
    ((ce, ue, first), h) = scrubWords (8 * (rd d.hw R.MEMCHK_SCRUB_LINES).toNat) (scrubBase d.hw) 0 0 none d.hw ∧
    (first = none ↔ ue = 0)) ∧
  (∀ (d : Dev) (m : Nat), d.lets (writeOf m R.MEMCHK_SCRUB_CTRL 2#32) → bit (rd d.hw R.MEMCHK_SCRUB_STAT) 31 = true →
    ∃ (n ce ue : Nat) (first : Option (Nat × Bool)) (h : Hw), n ≤ (rd d.hw R.MEMCHK_SCRUB_LINES).toNat ∧
    Runs (.memchkScrubAbort m) d (Dev.wrote { d with hw := scrubEnd h .ok true ce ue first } m R.MEMCHK_SCRUB_CTRL 2#32) ∧
    ((ce, ue, first), h) = scrubWords (8 * n) (scrubBase d.hw) 0 0 none { d.hw with free := d.hw.free + 1 }) ∧
  -- A good word is left as it is by a scrub, a corrected one is written back with fresh check bits, a bad one stays.
  (∀ (h : Hw) (a : Nat) (w : DWord) (c : Byte) (r : (Nat × Nat × Option (Nat × Bool)) × Hw), memRaw h.mem a = some (w, c) →
    scrubWords 1 a 0 0 none h = r → match secClass w c with
      | .good _ => r = ((0, 0, none), h)
      | .corrected x => r = ((1, 0, none), { memCe h a with mem := memPut (memCe h a).mem a x (secCheck x) })
      | .uncorrectable => r = ((0, 1, some (a, false)), memUe h a false)
      | .poisoned => r = ((0, 1, some (a, true)), memUe h a true)) ∧
  -- Test mode stores a word and its check bits as given, and reads them without correction or counting.
  (∀ (d : Dev) (m : Nat), d.lets (writeOf m R.MEMCHK_TCTRL 1#32) → bit (rd d.hw R.MEMCHK_CTRL) 0 = true → testAddr d.hw % 8 = 0 →
    inOneMemory d.hw (testAddr d.hw) (testAddr d.hw + 8) = true → (domGet d.pwr (domOf d.hw (testAddr d.hw))).st ≠ .off →
    Runs (.memchkTestWrite m) d (Dev.wrote { d with
      hw := irq (wr { d.hw with
        mem := memPut d.hw.mem (testAddr d.hw) (rd d.hw R.MEMCHK_TDATA_HI ++ rd d.hw R.MEMCHK_TDATA_LO)
          ((rd d.hw R.MEMCHK_TCHECK).setWidth 8) } R.MEMCHK_TCTRL 0#32) irqMemchk 5 } m R.MEMCHK_TCTRL 1#32)) ∧
  (∀ (d : Dev) (m : Nat) (w : DWord) (c : Byte), d.lets (writeOf m R.MEMCHK_TCTRL 2#32) → bit (rd d.hw R.MEMCHK_CTRL) 0 = true →
    testAddr d.hw % 8 = 0 → inOneMemory d.hw (testAddr d.hw) (testAddr d.hw + 8) = true →
    (domGet d.pwr (domOf d.hw (testAddr d.hw))).st ≠ .off → memRaw d.hw.mem (testAddr d.hw) = some (w, c) →
    Runs (.memchkTestRead m) d (Dev.wrote { d with
      hw := irq (wr (wr (wr (wr d.hw R.MEMCHK_TDATA_LO (w.setWidth 32)) R.MEMCHK_TDATA_HI ((w >>> (32 : Nat)).setWidth 32)) R.MEMCHK_TCHECK
        (c.setWidth 32)) R.MEMCHK_TCTRL 0#32) irqMemchk 5 } m R.MEMCHK_TCTRL 2#32))

/-- Hold-up (R457–R461, R476): enabling, charging, headroom and the capacitance measurement. -/
def Obligations.HoldupCommands : Prop :=
  -- EN with a good configuration puts the limit in force from 80 % of the rated capacitance and starts charging.
  (∀ (d : Dev) (m : Nat) (v : Word), d.lets (writeOf m R.HOLDUP_CTRL (v ||| 1#32)) → bit v 1 = false → bit v 2 = false →
    bit (rd d.hw R.HOLDUP_CTRL) 0 = false → vTop d ≠ 0 → fld (rd d.hw R.HOLDUP_FLUSHT) 0 16 ≠ 0 → fld (rd d.hw R.HOLDUP_FLUSHP) 24 8 ≠ 0 →
    fld (rd d.hw R.HOLDUP_FLUSHP) 16 8 ≠ 0 → fld (rd d.hw R.HOLDUP_MEAS) 0 16 ≠ 0 →
    Runs (.holdupEnable m v) d (Dev.wrote (limitUpdate { d with
      hw := wr (wr (wr (wr d.hw R.HOLDUP_CTRL (putBit (rd d.hw R.HOLDUP_CTRL) 3 (bit v 3))) R.HOLDUP_CTRL
        (setBit (putBit (rd d.hw R.HOLDUP_CTRL) 3 (bit v 3)) 0)) R.HOLDUP_STAT (clrBit (putFld (rd d.hw R.HOLDUP_STAT) 16 4 0) 26))
        R.HOLDUP_CHG (putFld (rd d.hw R.HOLDUP_CHG) 16 16 (fld (rd d.hw R.HOLDUP_CHG) 0 16))
      holdup := { d.holdup with charging := decide (d.holdup.vbank < vTop d), reachedTop := false, capNf := none } })
      m R.HOLDUP_CTRL (v ||| 1#32))) ∧
  -- EN with a parameter of 0 is refused with RANGE and stays 0.
  (∀ (d : Dev) (m : Nat) (v : Word), d.lets (writeOf m R.HOLDUP_CTRL (v ||| 1#32)) → bit v 1 = false → bit v 2 = false →
    bit (rd d.hw R.HOLDUP_CTRL) 0 = false →
    (vTop d = 0 ∨ fld (rd d.hw R.HOLDUP_FLUSHT) 0 16 = 0 ∨ fld (rd d.hw R.HOLDUP_FLUSHP) 24 8 = 0 ∨
      fld (rd d.hw R.HOLDUP_FLUSHP) 16 8 = 0 ∨ fld (rd d.hw R.HOLDUP_MEAS) 0 16 = 0) →
    Runs (.holdupEnable m v) d (Dev.wrote { d with
      hw := wr (wr d.hw R.HOLDUP_CTRL (putBit (rd d.hw R.HOLDUP_CTRL) 3 (bit v 3))) R.HOLDUP_STAT (putFld (rd d.hw R.HOLDUP_STAT) 16 4 2) }
      m R.HOLDUP_CTRL (v ||| 1#32))) ∧
  -- What the limit is: it follows from the bank voltage, never above MAX_MIB, and stands in HERDER_DLIMIT.
  (∀ d : Dev, hoEn d = true → ∃ h, h = wr (wr d.hw R.HERDER_DLIMIT (BitVec.ofNat 32 (limitAt d d.holdup.vbank))) R.HOLDUP_ENERGY
      (BitVec.ofNat 32 (energyAt d d.holdup.vbank / 2000000000000)) ∧ limitUpdate d = parkIfDirty (postWrites { d with hw := h }) ∧
      (fld (rd d.hw R.HOLDUP_LIMIT) 16 16 ≠ 0 → limitAt d d.holdup.vbank ≤ fld (rd d.hw R.HOLDUP_LIMIT) 16 16 * 1024) ∧
      (d.holdup.vbank ≤ vMin d → limitAt d d.holdup.vbank = 0)) ∧
  (∀ d : Dev, hoEn d = false → limitUpdate d = d) ∧
  -- Charging stops at V_TOP and goes on below 99 % of it.
  (∀ d : Dev, hoEn d = true → d.holdup.charging = true → d.holdup.measStep ≠ 2 →
    Runs .bankAtVtop d { d with holdup := { d.holdup with charging := false, reachedTop := true, vbank := vTop d } }) ∧
  (∀ (d : Dev) (v : Nat), hoEn d = true → d.holdup.charging = false → d.holdup.measStep = 0 → 100 * v < 99 * vTop d →
    Runs (.bankRecharge v) d { d with holdup := { d.holdup with charging := true, vbank := v } }) ∧
  -- A charge current below 90 % of the command becomes the command, and HEADROOM is set with its interrupt and event; a running measurement
  -- ends (without MEAS_FAIL: log entry 128).
  (∀ (d : Dev) (ma : Nat), hoEn d = true → d.holdup.charging = true → d.holdup.vbank < vTop d →
    10 * ma < 9 * fld (rd d.hw R.HOLDUP_CHG) 16 16 → Runs (.headroomDetect ma) d (headroomLower ma d)) ∧
  (∀ (d : Dev) (ma : Nat), ∃ h, h = irq (wr (wr d.hw R.HOLDUP_CHG (putFld (rd d.hw R.HOLDUP_CHG) 16 16 ma))
      R.HOLDUP_STAT (clrBit (setBit (rd d.hw R.HOLDUP_STAT) 31) 28)) irqHoldup 3 ∧
    headroomLower ma d = limitUpdate { d with
      hw := evUnit h 0x10 0x092 2 0 (limitKib d / 1024) (capNf d / 10000), holdup := { d.holdup with measStep := 0 } }) ∧
  -- The retry clears HEADROOM at V_TOP or where the rated current flows, else it lowers the command again.
  (∀ (d : Dev) (ma : Nat), bit (rd d.hw R.HOLDUP_STAT) 31 = true →
    Runs (.headroomRetry ma) d (if (d.holdup.charging = false ∧ vTop d ≤ d.holdup.vbank) ∨ 9 * fld (rd d.hw R.HOLDUP_CHG) 0 16 ≤ 10 * ma then
        { d with
          hw := wr (wr d.hw R.HOLDUP_CHG (putFld (rd d.hw R.HOLDUP_CHG) 16 16 (fld (rd d.hw R.HOLDUP_CHG) 0 16))) R.HOLDUP_STAT
            (clrBit (rd d.hw R.HOLDUP_STAT) 31) }
      else headroomLower ma d)) ∧
  -- A measurement starts by MEASURE or by its timer: charging stops.
  (∀ (d : Dev) (m : Nat) (v : Word), masterOk m = true → hoEn d = true → bit (rd d.hw R.HOLDUP_STAT) 31 = false → d.holdup.measStep = 0 →
    d.holdup.reachedTop = true → d.holdup.capNf = none →
    Runs (.holdupMeasureStart m false v) d { d with
      hw := wr d.hw R.HOLDUP_STAT (setBit (rd d.hw R.HOLDUP_STAT) 28)
      holdup := { d.holdup with charging := false, measStart := d.holdup.vbank, measSag := 0, measStep := 1 } }) ∧
  (∀ (d : Dev) (m : Nat) (v : Word), d.lets (writeOf m R.HOLDUP_CTRL (v ||| 2#32)) → bit v 0 = true → bit v 2 = false → hoEn d = true →
    bit (rd d.hw R.HOLDUP_STAT) 31 = false → d.holdup.measStep = 0 →
    Runs (.holdupMeasureStart m true v) d (Dev.wrote { d with
      hw := wr (wr d.hw R.HOLDUP_CTRL (putBit (rd d.hw R.HOLDUP_CTRL) 3 (bit v 3))) R.HOLDUP_STAT (setBit (rd d.hw R.HOLDUP_STAT) 28)
      holdup := { d.holdup with charging := false, measStart := d.holdup.vbank, measSag := 0, measStep := 1 } }
      m R.HOLDUP_CTRL (v ||| 2#32))) ∧
  -- After T_SAG: a sag of 1 % of V_TOP or more is recharged at I_MEAS, a smaller one fails.
  (∀ (d : Dev) (v : Nat), d.holdup.measStep = 1 → vTop d ≤ 100 * (d.holdup.measStart - v) →
    Runs (.measSagEnd v) d { d with
      hw := wr d.hw R.HOLDUP_CHG (putFld (rd d.hw R.HOLDUP_CHG) 16 16 (fld (rd d.hw R.HOLDUP_MEAS) 0 16))
      holdup := { d.holdup with vbank := v, measSag := d.holdup.measStart - v, measStep := 2, charging := true } }) ∧
  (∀ (d : Dev) (v : Nat), d.holdup.measStep = 1 → 100 * (d.holdup.measStart - v) < vTop d →
    Runs (.measSagEnd v) d (measFail { d with holdup := { d.holdup with vbank := v, measSag := d.holdup.measStart - v } })) ∧
  -- The recharge gives C = I·t·T_SAG / (sag·(T_SAG + t)); one longer than 10 s fails and the former C stays.
  (∀ (d : Dev) (t : Nat), d.holdup.measStep = 2 → t ≤ 10000000000 → ∃ (e : Dev) (h : Hw), e = { d with
      hw := h
      holdup := { d.holdup with
        measStep := 0, charging := decide (d.holdup.measStart < vTop d), vbank := d.holdup.measStart, measAt := d.hw.time
        capNf := some (fld (rd d.hw R.HOLDUP_MEAS) 0 16 * t * fld (rd d.hw R.HOLDUP_MEAS) 16 8 * 1000000000 /
          (10 * d.holdup.measSag * (fld (rd d.hw R.HOLDUP_MEAS) 16 8 * 1000000000 + t))) } } ∧
      bit (rd h R.HOLDUP_STAT) 28 = false ∧ bit (rd h R.HOLDUP_STAT) 26 = true ∧ bit (rd h R.HOLDUP_INT_STAT) 5 = true ∧
      Runs (.measRechargeDone t) d (degradedCheck (limitUpdate e))) ∧
  (∀ d : Dev, d.holdup.measStep = 2 → Runs .measTimeout d (measFail d)) ∧
  -- A failure ends the measurement, keeps the former C, sets MEAS_FAIL and its event, and the limit follows the bank.
  (∀ d : Dev, ∃ e : Dev, measFail d = limitUpdate e ∧
    e.holdup = { d.holdup with measStep := 0, charging := decide (d.holdup.vbank < vTop d) } ∧
    bit (rd e.hw R.HOLDUP_STAT) 28 = false ∧ bit (rd e.hw R.HOLDUP_INT_STAT) 6 = true)

/-- The power-fail flush and the shut-down hold (R462–R468, R473). -/
def Obligations.FlushCommands : Prop :=
  -- The flush starts: t0, the dirty count, FLUSHING and POWER_FAIL, the host stopped, reads abandoned, and the domains forced.
  (∀ d : Dev, flushDue d = true → d.holdup.flushed = false → ∃ e, Runs .powerFailFlush d e ∧
    e.holdup.flushed = true ∧ e.holdup.flushStep = 2 ∧ e.holdup.t0 = d.hw.time ∧ e.holdup.dirty0 = dirtyKib d ∧
    e.holdup.coldAfter = pfailActive d ∧ e.holdup.measStep = 0 ∧ e.host.stopped = true ∧ e.fl.runs = [] ∧ e.fl.ctxWait = [] ∧
    e.fuse = d.fuse ∧ e.pins = d.pins) ∧
  -- A trigger that comes after the flush of this boot joins it.
  (∀ d : Dev, flushDue d = true → d.holdup.flushed = true →
    Runs .powerFailFlush d { d with holdup := { d.holdup with coldAfter := d.holdup.coldAfter || pfailActive d } }) ∧
  -- Step 4: the LUN resets are done; without ARMED the flush ends at once.
  (∀ d : Dev, d.holdup.flushStep = 2 → ∃ ds, (∀ i x, (i, x) ∈ ds ↔ ∃ y, (i, y) ∈ d.fl.dies ∧
      x = (match y.arr with | some a => if a.op = .resetLun then { y with arr := none } else y | none => y)) ∧
    (hoArmed d = true →
      Runs .flushLunResetsDone d { d with holdup := { d.holdup with flushStep := 4 }, fl := { d.fl with dies := ds } }) ∧
    (hoArmed d = false →
      Runs .flushLunResetsDone d (flushSix 0 false { d with holdup := { d.holdup with flushStep := 4 }, fl := { d.fl with dies := ds } }))) ∧
  -- FLUSH_END: the dump is the media's image, and step 6 follows.
  (∀ (d : Dev) (m : Nat) (v : Word), d.lets (writeOf m R.HOLDUP_CTRL (v ||| 4#32)) → bit v 0 = true → bit v 1 = false → hoEn d = true →
    (d.holdup.flushStep = 2 ∨ d.holdup.flushStep = 4) → ∃ mib : Nat,
    Runs (.flushEndWrite m v) d (Dev.wrote (flushSix mib false { d with
      hw := { wr d.hw R.HOLDUP_CTRL (putBit (rd d.hw R.HOLDUP_CTRL) 3 (bit v 3)) with free := d.hw.free + 1 }
      med := { d.med with image := d.med.snap, staged := [], loose := [], jr := { d.med.jr with onMedia := d.med.jr.count } } })
      m R.HOLDUP_CTRL (v ||| 4#32))) ∧
  -- The deadline passes with ARMED set: step 6 without the dump, TIMEOUT set.
  (∀ d : Dev, d.holdup.flushStep = 4 → hoArmed d = true → ∃ mib : Nat,
    Runs .flushDeadlineExpiry d (flushSix mib true { d with hw := { d.hw with free := d.hw.free + 1 } })) ∧
  -- Step 6: FLUSH_DONE and the duration, the counts, the flash balls of every channel not OFF, and the hold where a shut-down caused or joined the flush.
  (∀ (d : Dev) (mib : Nat) (late : Bool), (flushSix mib late d).holdup = { d.holdup with
      flushStep := 6, flushes := d.holdup.flushes + 1, lastUs := (d.hw.time.toNat - d.holdup.t0.toNat) / 25
      longestUs := max d.holdup.longestUs ((d.hw.time.toNat - d.holdup.t0.toNat) / 25), dumped := mib * 1048576
      timeoutLast := late, shdnReq := d.holdup.shdnReq || shdnActive d, inHold := d.holdup.shdnJ || shdnActive d } ∧
    (flushSix mib late d).pins = d.pins ∧ (flushSix mib late d).med = d.med ∧ (flushSix mib late d).fuse = d.fuse ∧
    ∀ c < chCount d.fuse, (domGet d.pwr (c + 1)).st ≠ .off → (chanGet (flushSix mib late d) c).safe = true) ∧
  -- The supply returns during a flush that its loss caused or joined.
  (∀ d : Dev, (d.holdup.flushStep = 2 ∨ d.holdup.flushStep = 4) → pfailActive d = false → d.holdup.coldAfter = true →
    Runs .supplyBack d { d with
      hw := irq d.hw irqHoldup 2
      holdup := { d.holdup with
        supplyBack := true, supplyBacks := if d.holdup.supplyBack then d.holdup.supplyBacks else d.holdup.supplyBacks + 1 } }) ∧
  -- After a flush that PFAIL_N caused or joined, a cold restart follows the tail phase while the supply lives.
  (∀ d : Dev, d.holdup.flushStep = 6 → d.holdup.coldAfter = true → d.holdup.inHold = false → pfailActive d = false →
    ∃ e, Runs .coldRestart d e ∧ Dev.ResetTo false d e ∧ e.pins = d.pins ∧
      e.holdup.flushStep = 0 ∧ e.holdup.coldAfter = false) ∧
  -- The hold ends when its causes have gone, by a reset, and SHDN_LAST stays set for that boot.
  (∀ d : Dev, d.holdup.inHold = true → (d.holdup.shdnJ = true → d.therm.jLevel ≠ 3) → shdnActive d = false → pfailActive d = false →
    ∃ e, Dev.ResetTo false d e ∧ e.holdup.inHold = false ∧
      Runs .shutdownHoldEnd d { e with hw := irq (wr e.hw R.THERM_STAT (setBit (rd e.hw R.THERM_STAT) 26)) irqTherm 5 })

/-- Thermal management (R469–R477): THERM_CTRL.EN, the sensor conversion and the slow round. -/
def Obligations.ThermalCommands : Prop :=
  -- EN = 1 with a good configuration puts the scheme's levels in force; a bad one is refused with RANGE, and EN stays 0.
  (∀ (d : Dev) (m : Nat) (v : Word), d.lets (writeOf m R.THERM_CTRL (v ||| 1#32)) → bit (rd d.hw R.THERM_CTRL) 0 = false →
    Runs (.thermEnable m v) d (Dev.wrote { d with
      hw := if thermCfgOk d.hw (bit v 1) then
          wr (wr d.hw R.THERM_CTRL (putBit (rd d.hw R.THERM_CTRL) 1 (bit v 1))) R.THERM_CTRL
            (putFld (setBit (putBit (rd d.hw R.THERM_CTRL) 1 (bit v 1)) 0) 16 4 0)
        else wr (wr d.hw R.THERM_CTRL (putBit (rd d.hw R.THERM_CTRL) 1 (bit v 1))) R.THERM_CTRL
          (putFld (putBit (rd d.hw R.THERM_CTRL) 1 (bit v 1)) 16 4 2) } m R.THERM_CTRL (v ||| 1#32))) ∧
  (∀ (d : Dev) (m : Nat) (v : Word), d.lets (writeOf m R.THERM_CTRL (v ||| 1#32)) → bit (rd d.hw R.THERM_CTRL) 0 = true →
    Runs (.thermEnable m v) d (Dev.wrote d m R.THERM_CTRL (v ||| 1#32))) ∧
  (∀ h : Hw, thermCfgOk h false = true ↔
    (∀ a ∈ [R.THERM_JWARN, R.THERM_JTHR, R.THERM_JSHDN, R.THERM_FWARN, R.THERM_FTHR, R.THERM_FLIM], fld (rd h a) 8 4 ≠ 0)) ∧
  (∀ h : Hw, thermCfgOk h true = true ↔
    (∀ a ∈ [R.THERM_JWARN, R.THERM_JTHR, R.THERM_JSHDN, R.THERM_FWARN, R.THERM_FTHR, R.THERM_FLIM], fld (rd h a) 8 4 ≠ 0) ∧
    fld (rd h R.THERM_JWARN) 0 8 < fld (rd h R.THERM_JTHR) 0 8 ∧ fld (rd h R.THERM_JTHR) 0 8 < fld (rd h R.THERM_JSHDN) 0 8 ∧
    fld (rd h R.THERM_JSHDN) 0 8 ≤ 135 ∧ fld (rd h R.THERM_FWARN) 0 8 ≤ fld (rd h R.THERM_FTHR) 0 8 ∧
    fld (rd h R.THERM_FTHR) 0 8 < fld (rd h R.THERM_FLIM) 0 8) ∧
  -- A conversion: T_J is the highest of the twelve sensors, each value and its maximum are kept, and the junction level is judged.
  (∀ d : Dev, Runs (.thermalSensorConversion []) d d) ∧
  (∀ (d : Dev) (ts xs : List Int) (x : Int), ts.take 12 = x :: xs → ∃ e, Runs (.thermalSensorConversion ts) d e ∧
    e.therm.tj = xs.foldl max x ∧ e.therm.jLevel = jNext d (xs.foldl max x) ∧
    (∀ i v, (x :: xs)[i]? = some v → tabGet e.therm.sens i = some v) ∧ e.therm.chans = d.therm.chans ∧ e.therm.fLevel = d.therm.fLevel ∧
    e.therm.shutdowns = d.therm.shutdowns + (if d.therm.jLevel < 3 ∧ jNext d (xs.foldl max x) = 3 then 1 else 0) ∧
    (d.therm.jLevel < 3 → jNext d (xs.foldl max x) = 3 → e.holdup.shdnJ = true) ∧
    (¬(d.therm.jLevel < 3 ∧ jNext d (xs.foldl max x) = 3) → sensorAlarm d.therm.sens (x :: xs) = false →
      e.holdup = d.holdup ∧ e.pwr = d.pwr ∧ e.sec = d.sec ∧ e.med = d.med ∧ e.fuse = d.fuse)) ∧
  -- A level is entered at its temperature and left below it less its hysteresis; the single level is 135 °C with 10 °C.
  (∀ (d : Dev) (t : Int), (thEn d && triple d) = false →
    jNext d t = if 1350 ≤ t ∨ (3 ≤ d.therm.jLevel ∧ 1250 ≤ t) then 3 else 0) ∧
  (∀ (d : Dev) (t : Int), (thEn d && triple d) = true → jNext d t =
    let l := fun (a : Nat) => (10 * fld (rd d.hw a) 0 8 : Int)
    let y := fun (a : Nat) => (10 * fld (rd d.hw a) 0 8 : Int) - (10 * fld (rd d.hw a) 8 4 : Int)
    if l R.THERM_JSHDN ≤ t ∨ (3 ≤ d.therm.jLevel ∧ y R.THERM_JSHDN ≤ t) then 3
    else if l R.THERM_JTHR ≤ t ∨ (2 ≤ d.therm.jLevel ∧ y R.THERM_JTHR ≤ t) then 2
    else if l R.THERM_JWARN ≤ t ∨ (1 ≤ d.therm.jLevel ∧ y R.THERM_JWARN ≤ t) then 1 else 0) ∧
  -- A slow round reads every channel that can be read, the bank voltage among them, and sets ROUND_DONE.
  (∀ (d y z : Dev) (vals : List Int), y = ((List.range 64).zip vals).foldl (fun x q => roundRead q.1 q.2 x) d →
    z = (if thEn y && triple y then (List.range (chCount d.fuse)).foldl (fun x c => chanLevel c x) y else y) →
    Runs (.slowRound vals) d (limitUpdate (thresholdCheck { z with hw := irq z.hw irqTherm 6 }))) ∧
  (∀ (d : Dev) (i : Nat) (v : Int),
    (i < 48 → (domOn d.pwr (i + 1) = false ∨ ∀ k < 32, dieUp d (32 * i + k) = false) → roundRead i v d = d) ∧
    (i < 48 → domOn d.pwr (i + 1) = true → (∃ k < 32, dieUp d (32 * i + k) = true) → ∃ y, roundRead i v d = retrainTemp i y ∧
      tabGet y.therm.chans i = some v ∧ (chanGet y i).pkgT = v ∧ y.hw = d.hw ∧ y.med = d.med) ∧
    (48 ≤ i → i < 64 → tabGet (roundRead i v d).therm.chans i = some (if i = 63 then d.therm.tj else v) ∧
      (i ≠ 61 → (roundRead i v d).holdup = d.holdup) ∧ (roundRead i v d).therm.tj = d.therm.tj ∧ (roundRead i v d).fl = d.fl) ∧
    (i = 61 → (roundRead i v d).holdup = { d.holdup with vbank := v.toNat } ∧
      (rd (roundRead i v d).hw R.HOLDUP_VBANK).toNat = v.toNat % 65536)) ∧
  -- The dirty limit follows the bank voltage while hold-up is enabled.
  (∀ d : Dev, (hoEn d = false → limitUpdate d = d) ∧ (hoEn d = true → limitUpdate d = parkIfDirty (postWrites { d with
    hw := wr (wr d.hw R.HERDER_DLIMIT (BitVec.ofNat 32 (limitAt d d.holdup.vbank))) R.HOLDUP_ENERGY
      (BitVec.ofNat 32 (energyAt d d.holdup.vbank / 2000000000000)) }))) ∧
  -- The flash pause grows linearly from the throttle level to 500 µs at the limit.
  (∀ t thr lim : Int, thr < lim → (t < thr → flashPause t thr lim = 0) ∧ (lim ≤ t → flashPause t thr lim = 500) ∧
    (thr ≤ t → t < lim → 500 * (t - thr) ≤ (flashPause t thr lim : Int) * (lim - thr) ∧
      (flashPause t thr lim : Int) * (lim - thr) < 500 * (t - thr) + (lim - thr)))

/-- Host links and the first second after power-up (R44–R50, R55–R58, R78). -/
def Obligations.LinkCommands : Prop :=
  -- PERST_ASSERT resets the port's link and controllers, and its start-up timeline begins anew; other ports keep their controllers, and
  -- themselves where no command to disable a Host Memory Buffer waits (R65).
  (∀ (d : Dev) (p : Nat), portPresent d p = true → (portGet d p).perst = false → ∃ e, Runs (.perstAssert p) d e ∧
    portGet e p = { portGet d p with
      link := .detect, rate := 0, width := 0, fullWidth := 0, flit := false, perst := true, answering := false, lastConfig := none
      ptmEn := false, ptmOffset := 0#64, hmb := .off, hmbUnits := 0 } ∧
    (∀ f < 64, (ctrlGet e p f).en = false ∧ (ctrlGet e p f).rdy = false ∧ (ctrlGet e p f).shn = 0 ∧ (ctrlGet e p f).shst = 0 ∧
      (ctrlGet e p f).cfs = false) ∧
    (∀ o f, o ≠ p → f < 64 → ctrlGet e o f = ctrlGet d o f) ∧ (d.host.hmbWait = [] → ∀ o, o ≠ p → portGet e o = portGet d o) ∧
    e.fuse = d.fuse ∧ e.sec = d.sec ∧ e.ten.namespaces = d.ten.namespaces) ∧
  -- PERST_RELEASE: t0; the port's domains wake with source LINK, and training starts in Detect.
  (∀ (d : Dev) (p : Nat), portPresent d p = true → (portGet d p).perst = true → d.pins.sysResetHigh = true →
    ∃ w, Runs (.perstRelease p) d (ringDeliver { portPut d p { portGet d p with perst := false } with
      hw := irq d.hw irqHostif (16 * p + 1), pwr := w }) ∧
    (∀ n ∈ portDoms d p, n = 85 ∨ n = 86) ∧
    (∀ n ∈ portDoms d p, domPresent d.fuse n = true → ((domGet d.pwr n).st = .off ∨ (domGet d.pwr n).st = .ret) →
      (domGet w n).st = .waking ∧ (domGet w n).src = 6)) ∧
  -- Training ends in L0 with the rate and width trained, in Flit mode at 64 GT/s whatever the partner offers.
  (∀ (d : Dev) (p rate width : Nat) (flit : Bool), portPresent d p = true → (portGet d p).perst = false →
    (∀ n ∈ portDoms d p, domOn d.pwr n = true) →
    ((portGet d p).link = .detect ∨ (portGet d p).link = .polling ∨ (portGet d p).link = .recovery) →
    1 ≤ rate → rate ≤ 6 → width ∈ [1, 2, 4, 8] → width ≤ portLanes d →
    Runs (.linkTrainingDone p rate width flit) d { portPut d p { portGet d p with
      link := .l0, rate := rate, width := width, fullWidth := width, flit := flit || decide (rate = 6) } with
      hw := irq d.hw irqHostif (16 * p + 2) }) ∧
  -- A configuration request meets a retry until the port answers or firmware runs, and from then on what the spec gives the function; a
  -- PF's may switch PTM, and any function's its power state, whose change is reported (operand: log entry 86).
  (∀ (d : Dev) (p fn : Nat) (what : CfgAsk), ctrlOk d p fn = true → linkUp (portGet d p).link = true →
    (bit (rd d.hw R.HOSTIF_BOOT) 0 || (portGet d p).answering) = false →
    Runs (.configRequest p ⟨fn, what⟩) d (portPut d p { portGet d p with lastConfig := some .retry })) ∧
  (∀ (d : Dev) (p fn : Nat) (what : CfgAsk), ctrlOk d p fn = true → linkUp (portGet d p).link = true →
    (bit (rd d.hw R.HOSTIF_BOOT) 0 || (portGet d p).answering) = true → ∃ e, e = portPut d p { portGet d p with
      lastConfig := some (.normal { totalVfs := if fn = 0 then 63 else 0, maxPayload := 512, maxReadReq := 4096, ptmGranularity := 40
                                    msix := if fn = 0 then 65 else (ctrlGet d p fn).vi, bar2 := if fn = 0 then 16384 else 0 }) } ∧
    Runs (.configRequest p ⟨fn, what⟩) d (match what with
      | .power b => if (ctrlGet d p fn).d3 = b then e
          else { ctrlPut e p fn { ctrlGet d p fn with d3 := b } with hw := irq d.hw irqHostif (16 * p + 13) }
      | .ptm b => if fn = 0 then portPut e p { portGet e p with ptmEn := b } else e
      | _ => e)) ∧
  (∀ (d : Dev) (p : Nat), portPresent d p = true → (portGet d p).perst = false → bit (rd d.hw R.HOSTIF_BOOT) 0 = false →
    Runs (.bootConfigTimeout p) d (portPut d p { portGet d p with answering := true })) ∧
  (∀ (d : Dev) (m : Nat), d.lets (writeOf m R.HOSTIF_BOOT 1#32) →
    Runs (.fwUpSet m) d (Dev.wrote (ringDeliver { d with hw := wr d.hw R.HOSTIF_BOOT (setBit (rd d.hw R.HOSTIF_BOOT) 0) })
      m R.HOSTIF_BOOT 1#32)) ∧
  -- L0p: own reduction halves the width, not below x2 and not with an S0 Kennel bound; the partner's goes one step down too.
  (∀ (d : Dev) (p : Nat), portPresent d p = true → (portGet d p).flit = true → s0Bound d p = false →
    ((portGet d p).link = .l0 ∨ (portGet d p).link = .l0p) → 4 ≤ (portGet d p).width →
    Runs (.linkWidthReduce p) d { portPut d p { portGet d p with link := .l0p, width := (portGet d p).width / 2 } with
      hw := irq d.hw irqHostif (16 * p + 11) }) ∧
  (∀ (d : Dev) (p : Nat), portPresent d p = true → s0Bound d p = true → Runs (.linkWidthReduce p) d d) ∧
  (∀ (d : Dev) (p w : Nat), portPresent d p = true → (portGet d p).flit = true → ((portGet d p).link = .l0 ∨ (portGet d p).link = .l0p) →
    w ∈ [2, 4] → (portGet d p).width = 2 * w → (s0Bound d p = true → w = 4) →
    Runs (.partnerWidthRequest p w) d { portPut d p { portGet d p with link := .l0p, width := w } with
      hw := irq d.hw irqHostif (16 * p + 11) }) ∧
  -- L1.2: the link enters it and the port's domains go to RET; CLKREQ_N wakes them again with source LINK.
  (∀ (d : Dev) (p : Nat), portPresent d p = true → linkUp (portGet d p).link = true → (portGet d p).link ≠ .l12 →
    (s0Bound d p = true → allD3 d p = true) → ∃ e, Runs (.l12Entry p) d e ∧
    portGet e p = { portGet d p with link := .l12 } ∧ bit (rd e.hw R.HOSTIF_INT_STAT) (16 * p + 12) = true ∧
    (∀ n ∈ portDoms d p, domOn d.pwr n = true → domMode d.hw n ≠ 1 → (domGet e.pwr n).st = .ret) ∧
    (∀ n, n ∉ portDoms d p → domGet e.pwr n = domGet d.pwr n)) ∧
  (∀ (d : Dev) (p : Nat), portPresent d p = true → (portGet d p).link = .l12 → ∃ w,
    Runs (.clkreqWake p) d { portPut d p { portGet d p with link := .recovery } with
      hw := irq d.hw irqHostif (16 * p + 12), pwr := w } ∧
    (∀ n ∈ portDoms d p, domPresent d.fuse n = true → ((domGet d.pwr n).st = .off ∨ (domGet d.pwr n).st = .ret) →
      (domGet w n).st = .waking ∧ (domGet w n).src = 6)) ∧
  -- PTM, while it is enabled: a dialogue sets the port's offset, which the time given to the host carries; ten milliseconds without one are
  -- reported.
  (∀ (d : Dev) (p : Nat) (offset : DWord), portPresent d p = true → linkUp (portGet d p).link = true → (portGet d p).ptmEn = true →
    ∃ e, Runs (.ptmRefresh p offset) d e ∧ e = portPut d p { portGet d p with ptmOffset := offset } ∧
      hostTime e p = d.hw.time * 40#64 + offset) ∧
  (∀ (d : Dev) (p : Nat), portPresent d p = true → (portGet d p).ptmEn = true →
    Runs (.ptmFail p) d { d with hw := irq d.hw irqHostif (16 * p + 15) }) ∧
  -- A link goes down; an error is counted and reported.
  (∀ (d : Dev) (p : Nat) (disabled : Bool), portPresent d p = true → linkUp (portGet d p).link = true →
    Runs (.linkDown p disabled) d { portPut d p { portGet d p with
      link := if disabled then .disabled else .detect, rate := 0, width := 0, fullWidth := 0, flit := false } with
      hw := irq d.hw irqHostif (16 * p + 3) }) ∧
  (∀ (d : Dev) (p : Nat) (uncor : Bool), portPresent d p = true →
    Runs (.pcieErrorLogged p uncor) d { d with
      hw := irq (wr d.hw (R.HOSTIF_AER p) (bumpFld (rd d.hw (R.HOSTIF_AER p)) (if uncor then 16 else 0) 16 1)) irqHostif
        (16 * p + (if uncor then 10 else 9)) })

/-- Controllers, doorbells and the admin ring (R56, R62, R78, R120). -/
def Obligations.ControllerCommands : Prop :=
  -- CC.EN set: the controller is enabled, with CC and the admin queue registers as written, and CC_EN is raised. A write that leaves CC.EN
  -- as it is changes nothing.
  (∀ (d : Dev) (p fn : Nat) (cc aqa : Word) (asq acq : DWord), ctrlOk d p fn = true →
    (bit (rd d.hw R.HOSTIF_BOOT) 0 || (portGet d p).answering) = true → linkUp (portGet d p).link = true → (ctrlGet d p fn).en = false →
    Runs (.ccEnWrite p fn ⟨true, cc, aqa, asq, acq⟩) d (ringDeliver { ctrlPut d p fn { ctrlGet d p fn with
      en := true, ccRest := cc &&& 0xFFFF3FFE#32, aqa := aqa, asq := asq, acq := acq } with hw := irq d.hw irqHostif (16 * p + 4) })) ∧
  (∀ (d : Dev) (p fn : Nat) (en : Bool) (cc aqa : Word) (asq acq : DWord), ctrlOk d p fn = true → (ctrlGet d p fn).en = en →
    Runs (.ccEnWrite p fn ⟨en, cc, aqa, asq, acq⟩) d d) ∧
  -- A controller's reset, alone, by FLR (which raises its interrupt) or by clearing CC.EN (which raises CC_EN): its waiting commands go,
  -- those dispatched end unseen, its registers return to reset values, and what Virtualization Management assigned stays; so do the admin
  -- queue registers and the power state (log entry 85).
  (∀ (d : Dev) (p fn : Nat), ctrlOk d p fn = true → ∃ e, Runs (.controllerLevelReset p fn) d e ∧
    Runs (.functionLevelReset p fn) d { e with hw := irq e.hw irqHostif (16 * p + 6) } ∧
    (∀ (cc aqa : Word) (asq acq : DWord), (bit (rd d.hw R.HOSTIF_BOOT) 0 || (portGet d p).answering) = true →
      linkUp (portGet d p).link = true → (ctrlGet d p fn).en = true →
      Runs (.ccEnWrite p fn ⟨false, cc, aqa, asq, acq⟩) d (ringDeliver { ctrlPut e p fn { ctrlGet e p fn with
        en := false, ccRest := cc &&& 0xFFFF3FFE#32, aqa := aqa, asq := asq, acq := acq } with hw := irq e.hw irqHostif (16 * p + 4) })) ∧
    ctrlGet e p fn = { Ctrl.init with
      online := (ctrlGet d p fn).online, vq := (ctrlGet d p fn).vq, vi := (ctrlGet d p fn).vi, hostId := 0
      aqa := (ctrlGet d p fn).aqa, asq := (ctrlGet d p fn).asq, acq := (ctrlGet d p fn).acq, d3 := (ctrlGet d p fn).d3 } ∧
    (∀ q ∈ e.host.queues, q.1 / 65536 ≠ p * 64 + fn) ∧ (∀ q ∈ e.host.unfetched, q.1 / 65536 ≠ p * 64 + fn) ∧
    (∀ q ∈ e.host.ringWait, q.1 * 64 + q.2.1 ≠ p * 64 + fn) ∧ e.ten.namespaces = d.ten.namespaces ∧ e.fuse = d.fuse ∧ e.sec = d.sec) ∧
  -- CC.SHN is kept and, where it asks for a shutdown, raised; running firmware then writes the learned and wear tables back and saves media
  -- time.
  (∀ (d : Dev) (p fn shn : Nat), ctrlOk d p fn = true → (bit (rd d.hw R.HOSTIF_BOOT) 0 || (portGet d p).answering) = true →
    linkUp (portGet d p).link = true → ∃ e, e = { ctrlPut d p fn { ctrlGet d p fn with shn := shn % 4 } with
      hw := irq d.hw irqHostif (16 * p + 5) } ∧
    Runs (.ccShnWrite p fn shn) d (if shn % 4 = 0 then ctrlPut d p fn { ctrlGet d p fn with shn := 0 }
      else if bit (rd d.hw R.HOSTIF_BOOT) 0 = true ∧ (tabGet d.pwr.cores 0).isSome = true then mediaSave (wearWrite (learnedWrite true e))
      else e)) ∧
  -- A doorbell of a ready controller: its link returns to full width, its commands are seen in order, HOSTIF fetches, and the ring takes
  -- what it can.
  (∀ (d : Dev) (p fn sq : Nat) (c : IoCmd) (cs : List IoCmd), ctrlOk d p fn = true → linkUp (portGet d p).link = true →
    (ctrlGet d p fn).en = true → (ctrlGet d p fn).rdy = true → bit (rd d.hw R.HOSTIF_BOOT) 0 = true → (ctrlGet d p fn).d3 = false →
    (sq = 0 ∨ sq ≤ ioQueues d p fn) →
    Runs (.doorbellWrite p fn sq (c :: cs)) d (ringDeliver (fetchAll
      ((c :: cs).foldl (fun x k => cmdSee p fn sq k x) (widthRestore p d))))) ∧
  -- What is seen: an I/O command waits with the doorbell's time to be fetched; an admin command, a Flush or a Zone Management Receive goes
  -- to the admin ring; a vendor command of a VF is completed by HOSTIF.
  (∀ (d : Dev) (p fn sq : Nat) (c : IoCmd), sq ≠ 0 → c.op ≠ .flush → c.op ≠ .zoneReceive →
    cmdSee p fn sq c d = { d with host := { d.host with
      unfetched := d.host.unfetched ++ [((p * 64 + fn) * 65536 + sq, { cmd := c, doorbell := d.hw.time, held := false })] } }) ∧
  (∀ (d : Dev) (p fn sq : Nat) (c : IoCmd),
    ((sq = 0 ∧ (fn = 0 ∨ vendorOpcode c.sqe = false)) ∨ (sq ≠ 0 ∧ (c.op = .flush ∨ c.op = .zoneReceive))) →
    cmdSee p fn sq c d = { d with host := { d.host with ringWait := d.host.ringWait ++ [(p, fn, sq, c.sqe)] } }) ∧
  (∀ (d : Dev) (p fn : Nat) (c : IoCmd), fn ≠ 0 → vendorOpcode c.sqe = true →
    cmdSee p fn 0 c d = cqPost p fn 0 c.cid .invalidOpcode 0 0 [] (sqFetch p fn 0 d)) ∧
  -- Fetching: with FETCH_EN and no flush, every waiting command joins its queue, in order; else all wait on.
  (∀ d : Dev, bit (rd d.hw R.HOSTIF_CTRL) 0 = true → d.host.stopped = false → (fetchAll d).host.unfetched = [] ∧
    ∀ k, tabGetD (fetchAll d).host.queues k [] =
      tabGetD d.host.queues k [] ++ (d.host.unfetched.filter (fun e => decide (e.1 = k))).map (fun e => e.2)) ∧
  (∀ d : Dev, (bit (rd d.hw R.HOSTIF_CTRL) 0 = false ∨ d.host.stopped = true) → fetchAll d = d) ∧
  -- What the ring does: an entry is placed when delivery runs and there is room, oldest first, else it waits.
  (∀ (d : Dev) (p fn sq : Nat) (sqe : List Byte), d.host.ringWait = [(p, fn, sq, sqe)] →
    ringDeliver d = if bit (rd d.hw R.HOSTIF_CTRL) 1 = true ∧ d.host.stopped = false ∧
        ringUsed d.hw + 1 < fld (rd d.hw R.HOSTIF_ARING_SIZE) 0 16 then
      ringPlace p fn sq sqe { d with host := { d.host with ringWait := [] } } else d) ∧
  (∀ (d : Dev) (p fn sq : Nat) (sqe : List Byte), collarOk d (16 + p) .write
      (ringBase d.hw + 128 * fld (rd d.hw R.HOSTIF_ARING_PTR) 16 16) 128 = true → ∃ h,
    h = memPutBytes d.hw (ringBase d.hw + 128 * fld (rd d.hw R.HOSTIF_ARING_PTR) 16 16) (ringEntry d.hw p fn sq sqe) ∧
    ringPlace p fn sq sqe d = sqFetch p fn sq { d with
      hw := irq (wr h R.HOSTIF_ARING_PTR (putFld (rd h R.HOSTIF_ARING_PTR) 16 16
        ((fld (rd d.hw R.HOSTIF_ARING_PTR) 16 16 + 1) % max (fld (rd d.hw R.HOSTIF_ARING_SIZE) 0 16) 1))) irqHostif (16 * p + 8) }) ∧
  -- A completion item ends at ACPL: its entry goes to the queue it names, with the head of the submission queue and the phase tag that
  -- HOSTIF fills in; an item that names no controller is answered RANGE (log entry 83).
  (∀ (d : Dev) (m : Nat) (v : Word), d.lets (writeOf m R.HOSTIF_ACPL v) → (itemGet d.hw 12 m).flushed = false → ∃ h,
    h = itemPut d.hw 12 m { itemGet d.hw 12 m with args := [], stFlushed := false } ∧
    Runs (.completionItemPost m v) d (Dev.wrote
      (if ctrlPresent d (fld v 15 1) (fld v 0 7) = true then
        ringDeliver (cqPost (fld v 15 1) (fld v 0 7) (fld v 16 16) ((itemArg (itemGet d.hw 12 m) 0x98).toNat % 65536)
          (statusOf ((itemArg (itemGet d.hw 12 m) 0x98).toNat / 131072)) (itemArg (itemGet d.hw 12 m) 0x90).toNat
          (itemArg (itemGet d.hw 12 m) 0x94).toNat [] { d with hw := mwr h R.HOSTIF_ACPL m 0#32 })
      else { d with hw := mwr h R.HOSTIF_ACPL m (BitVec.ofNat 32 (Status.range.code * 268435456)) }) m R.HOSTIF_ACPL v)) ∧
  (∀ (d : Dev) (p fn sq cid dw0 dw1 : Nat) (st : NvStat) (data : List Nat), ∃ c : Cqe,
    cqPost p fn sq cid st dw0 dw1 data d = widthRestore p { d with host := { d.host with
      cq := d.host.cq ++ [c], posted := tabMod d.host.posted (queueKey p fn sq) 0 (fun n => n + 1) } } ∧
    c.port = p ∧ c.fn = fn ∧ c.sq = sq ∧ c.cid = cid ∧ c.status = st ∧ c.dw0 = dw0 ∧ c.dw1 = dw1 ∧ c.data = data) ∧
  -- CCTL sets the selected controller's RDY and SHST and, for good, CFS; ignored while FW_UP is 0.
  (∀ (d : Dev) (m : Nat) (v : Word), d.lets (writeOf m R.HOSTIF_CCTL v) → bit (rd d.hw R.HOSTIF_BOOT) 0 = true →
    ctrlPresent d (fld (rd d.hw R.HOSTIF_CSEL) 16 1) (fld (rd d.hw R.HOSTIF_CSEL) 0 7) = true →
    Runs (.hostifCctlWrite m v) d (Dev.wrote (ringDeliver (ctrlPut d (fld (rd d.hw R.HOSTIF_CSEL) 16 1) (fld (rd d.hw R.HOSTIF_CSEL) 0 7)
      { ctrlGet d (fld (rd d.hw R.HOSTIF_CSEL) 16 1) (fld (rd d.hw R.HOSTIF_CSEL) 0 7) with
        rdy := bit v 0, shst := fld v 2 2
        cfs := (ctrlGet d (fld (rd d.hw R.HOSTIF_CSEL) 16 1) (fld (rd d.hw R.HOSTIF_CSEL) 0 7)).cfs || bit v 1 })) m R.HOSTIF_CCTL v)) ∧
  (∀ (d : Dev) (m : Nat) (v : Word), d.lets (writeOf m R.HOSTIF_CCTL v) → bit (rd d.hw R.HOSTIF_BOOT) 0 = false →
    Runs (.hostifCctlWrite m v) d (Dev.wrote d m R.HOSTIF_CCTL v)) ∧
  -- ADMIN_EN is taken with a ring of two entries or more.
  (∀ (d : Dev) (m : Nat) (v : Word), d.lets (writeOf m R.HOSTIF_CTRL (v ||| 2#32)) →
    Runs (.adminEnWrite m v) d (Dev.wrote (ringDeliver (fetchAll { d with
      hw := wr d.hw R.HOSTIF_CTRL (putBit (v &&& 1#32) 1 (bit (rd d.hw R.HOSTIF_CTRL) 1 ||
        decide (2 ≤ fld (rd d.hw R.HOSTIF_ARING_SIZE) 0 16))) })) m R.HOSTIF_CTRL (v ||| 2#32)))

/-- The Rind store (R417–R423, R446): each operation's start or refusal, and what it has done when it ends. -/
def Obligations.RindCommands : Prop :=
  -- An operation that may run starts: RIND_STAT shows it, and the store is as it was.
  (∀ (d : Dev) (m op : Nat) (c : Instr) (data : List Byte), d.hw.rind.running = none →
    ((c = .rindProgram m ∧ op = 1 ∧ data = pbufBytes d.hw (fld (rd d.hw R.RIND_LEN) 0 9) ∧
        progStatus d.hw (rd d.hw R.RIND_ADDR).toNat (fld (rd d.hw R.RIND_LEN) 0 9) data = .ok) ∨
      (c = .rindErase m ∧ op = 2 ∧ data = [] ∧ rindLocked d.hw.rind ((rd d.hw R.RIND_ADDR).toNat / 65536) = false) ∨
      (c = .rindLock m ∧ op = 3 ∧ data = []) ∨
      (c = .rindUnlock m ∧ op = 4 ∧ data = leBytes 8 (rd d.hw R.RIND_PW_HI ++ rd d.hw R.RIND_PW_LO).toNat) ∨
      (c = .rindSetPw m ∧ op = 5 ∧ data = leBytes 8 (rd d.hw R.RIND_PW_HI ++ rd d.hw R.RIND_PW_LO).toNat)) →
    d.lets (writeOf m R.RIND_CMD (BitVec.ofNat 32 (op * 268435456))) →
    Runs c d (Dev.wrote { d with
      hw := { wr d.hw R.RIND_STAT ((rd d.hw R.RIND_STAT &&& 0x00F00000#32) |||
          BitVec.ofNat 32 (op * 268435456 + (rd d.hw R.RIND_ADDR).toNat / 65536 % 256)) with
        rind := { d.hw.rind with running := some { op := op, addr := (rd d.hw R.RIND_ADDR).toNat, data := data, status := .ok } } } }
      m R.RIND_CMD (BitVec.ofNat 32 (op * 268435456)))) ∧
  -- What PROGRAM is refused for, in order: no length, alignment, a length past the page, a locked sector, a bit from 0 to 1.
  (∀ (h : Hw) (addr len : Nat) (bs : List Byte), (progStatus h addr len bs = .ok ↔
      len ≠ 0 ∧ addr % 4 = 0 ∧ len % 4 = 0 ∧ addr / 256 = (addr + len - 1) / 256 ∧ len ≤ 256 ∧ rindLocked h.rind (addr / 65536) = false ∧
      (rindBytes h.rind h.free addr len).zipWith (fun old new => old &&& new) bs = bs) ∧
    (len = 0 → progStatus h addr len bs = .zeroLen) ∧
    (len ≠ 0 → addr % 4 ≠ 0 ∨ len % 4 ≠ 0 ∨ addr / 256 ≠ (addr + len - 1) / 256 → progStatus h addr len bs = .align)) ∧
  -- A refused PROGRAM or ERASE ends at once with its status; the store is as it was.
  (∀ (d : Dev) (m : Nat), d.hw.rind.running = none →
    (d.lets (writeOf m R.RIND_CMD 0x10000000#32) →
      progStatus d.hw (rd d.hw R.RIND_ADDR).toNat (fld (rd d.hw R.RIND_LEN) 0 9) (pbufBytes d.hw (fld (rd d.hw R.RIND_LEN) 0 9)) ≠ .ok →
      Runs (.rindProgram m) d (Dev.wrote (rindEndOp 1 (rd d.hw R.RIND_ADDR).toNat (progStatus d.hw (rd d.hw R.RIND_ADDR).toNat
        (fld (rd d.hw R.RIND_LEN) 0 9) (pbufBytes d.hw (fld (rd d.hw R.RIND_LEN) 0 9))) d) m R.RIND_CMD 0x10000000#32)) ∧
    (d.lets (writeOf m R.RIND_CMD 0x20000000#32) → rindLocked d.hw.rind ((rd d.hw R.RIND_ADDR).toNat / 65536) = true →
      Runs (.rindErase m) d (Dev.wrote (rindEndOp 2 (rd d.hw R.RIND_ADDR).toNat .denied d) m R.RIND_CMD 0x20000000#32))) ∧
  -- An operation's end: RIND_STAT holds OP, LAST and SECTOR, the password registers clear, DONE is set, and ERR unless it ended OK.
  (∀ (d : Dev) (op addr : Nat) (st : Status), ∃ h, h = wr (wr (wr { d.hw with rind := { d.hw.rind with running := none } } R.RIND_STAT
      (BitVec.ofNat 32 (op % 8 * 268435456 + st.code * 1048576 + addr / 65536 % 256))) R.RIND_PW_LO 0#32) R.RIND_PW_HI 0#32 ∧
    rindEndOp op addr st d = { d with hw := if st = .ok then irq h irqRind 0 else irq (irq h irqRind 0) irqRind 1 }) ∧
  -- ABORT stops a running ERASE and leaves its sector undefined, and that operation's end holds a status that the spec leaves open (log
  -- entry 127); with nothing running it ends OK.
  (∀ (d : Dev) (m : Nat) (r : RindOp), d.lets (writeOf m R.RIND_CMD 0x60000000#32) → d.hw.rind.running = some r → r.op = 2 →
    ∃ code : Nat, Runs (.rindAbort m) d (Dev.wrote (rindEndCode 2 r.addr code { d with
      hw := { d.hw with
        free := d.hw.free + 1
        rind := rindSpoil d.hw.rind (r.addr / 65536 * 65536) (r.addr / 65536 * 65536 + 65536) } }) m R.RIND_CMD 0x60000000#32)) ∧
  (∀ (d : Dev) (m : Nat), d.lets (writeOf m R.RIND_CMD 0x60000000#32) → d.hw.rind.running = none →
    Runs (.rindAbort m) d (Dev.wrote (rindEndOp 6 (rd d.hw R.RIND_ADDR).toNat .ok d) m R.RIND_CMD 0x60000000#32)) ∧
  -- While an operation runs, any other command is ignored and says so.
  (∀ (d : Dev) (m op : Nat) (c : Instr) (r : RindOp), d.hw.rind.running = some r →
    ((c = .rindProgram m ∧ op = 1) ∨ (c = .rindErase m ∧ op = 2) ∨ (c = .rindLock m ∧ op = 3) ∨ (c = .rindUnlock m ∧ op = 4) ∨
      (c = .rindSetPw m ∧ op = 5) ∨ (c = .rindAbort m ∧ op = 6 ∧ r.op ≠ 2)) →
    d.lets (writeOf m R.RIND_CMD (BitVec.ofNat 32 (op * 268435456))) →
    Runs c d (Dev.wrote { d with hw := irq d.hw irqRind 3 } m R.RIND_CMD (BitVec.ofNat 32 (op * 268435456)))) ∧
  -- The operation that ran ends: PROGRAM clears bits, ERASE sets its sector to ones, LOCK and UNLOCK change the sector's lock bit.
  (∀ (d : Dev) (r : RindOp), d.hw.rind.running = some r →
    (r.op = 1 → Runs .rindOpDone d (rindEndOp 1 r.addr .ok { d with
      hw := { d.hw with
        rind := { d.hw.rind with
          store := storePuts d.hw.rind.store r.addr
            ((rindBytes d.hw.rind d.hw.free r.addr r.data.length).zipWith (fun old new => old &&& new) r.data) } } })) ∧
    (r.op = 2 → ∃ x : Rind, x = { d.hw.rind with store := x.store } ∧
      Runs .rindOpDone d (rindEndOp 2 r.addr .ok { d with hw := { d.hw with rind := x } }) ∧
      ∀ a, storeByte x.store a = if r.addr / 65536 * 65536 ≤ a ∧ a < (r.addr / 65536 + 1) * 65536 then some 0xFF#8
        else storeByte d.hw.rind.store a) ∧
    (r.op = 3 → Runs .rindOpDone d (rindEndOp 3 r.addr .ok { d with
      hw := { d.hw with
        rind := { d.hw.rind with locks := d.hw.rind.locks ||| (1#256 <<< (r.addr / 65536)) } } })) ∧
    (r.op = 4 → d.hw.rind.pwLocked = false → (d.hw.rind.password = none ∨ ∃ p, d.hw.rind.password = some p ∧ p.toNat = leNat r.data) →
      Runs .rindOpDone d (rindEndOp 4 r.addr .ok { d with
        hw := { d.hw with
          rind := { d.hw.rind with locks := d.hw.rind.locks &&& ~~~(1#256 <<< (r.addr / 65536)) } } })) ∧
    -- A wrong password locks unlocking until the next power-on, and the password is set once.
    (r.op = 4 → d.hw.rind.pwLocked = false → (∃ p, d.hw.rind.password = some p ∧ p.toNat ≠ leNat r.data) →
      Runs .rindOpDone d (rindEndOp 4 r.addr .denied { d with
        hw := irq { d.hw with rind := { d.hw.rind with pwLocked := true } } irqRind 2 })) ∧
    (r.op = 4 → d.hw.rind.pwLocked = true → Runs .rindOpDone d (rindEndOp 4 r.addr .denied d)) ∧
    (r.op = 5 → d.hw.rind.password = none → Runs .rindOpDone d (rindEndOp 5 r.addr .ok { d with
      hw := { d.hw with
        rind := { d.hw.rind with password := some (BitVec.ofNat 64 (leNat r.data)) } } })) ∧
    (r.op = 5 → d.hw.rind.password ≠ none → Runs .rindOpDone d (rindEndOp 5 r.addr .denied d))) ∧
  -- A window read answers the stored bytes; while an operation runs it answers RIND_STAT and marks the master's WAS_STATUS.
  (∀ (d : Dev) (m off size : Nat), d.lets (readReq m (0x30000000 + off) size false) → off < 0x1000000 →
    (d.hw.rind.running = none → (∀ i < size, storeByte d.hw.rind.store (off + i) ≠ none) →
      Runs (.rindWindowRead m off size) d (respond (readReq m (0x30000000 + off) size false) .ok
        (leNat (rindBytes d.hw.rind d.hw.free off size)) d)) ∧
    (∀ r, d.hw.rind.running = some r → size = 4 → off % 4 = 0 →
      Runs (.rindWindowRead m off size) d (respond (readReq m (0x30000000 + off) size false) .ok (rindStat d).toNat { d with
        hw := irq (mwr d.hw R.RIND_RDSTAT m 0x8B000000#32) irqRind 4 })))

/-- The boot ROM, the watchdog, trial firmware and the settings journal (R434–R442, R444, R445). -/
def Obligations.BootCommands : Prop :=
  -- The ROM starts: working SRAM is zero, BOOT_COUNT rises by one, and the pair to try first is the pending one for two starts, unless a
  -- rollback is asked for; after a watchdog expiry it starts in the back-off of a failed attempt.
  (∀ d : Dev, (d.boot.romDue = false ∨ d.pins.sysResetHigh = false ∨ d.pins.pgood = false ∨ domOn d.pwr 73 = false ∨
    domOn d.pwr 91 = false) → Runs .romStart d d) ∧
  (∀ (d : Dev) (g : BootRec) (roll pend : Bool), d.boot.romDue = true → d.pins.sysResetHigh = true → d.pins.pgood = true →
    domOn d.pwr 73 = true → domOn d.pwr 91 = true → g = ((bootGov d.hw).map (fun q => q.2)).getD BootRec.blank →
    roll = bit (rd d.hw R.RIND_BOOTCTL) 0 → pend = (pendingPair g && !roll && decide (g.tries < 2)) →
    ∃ e, Runs .romStart d e ∧ e.boot.romDue = false ∧ e.boot.romRunning = true ∧ e.boot.trial = false ∧
    e.boot.gov.seq = g.seq + 1 ∧ e.boot.gov.bootCount = g.bootCount + 1 ∧ e.hw.bootCount = BitVec.ofNat 32 (g.bootCount + 1) ∧
    (pend = true → e.boot.gov.tries = g.tries + 1 ∧ (e.boot.image, e.boot.layout) = pairOf g) ∧
    (pend = false → (e.boot.image, e.boot.layout) = (g.image, g.layout)) ∧
    ((roll = true ∨ (pendingPair g = true ∧ 2 ≤ g.tries)) → e.boot.gov.pendImage = 0xFF ∧ e.boot.gov.pendLayout = 0xFF) ∧
    e.boot.rollback = roll ∧ bit (rd e.hw R.RIND_BOOTCTL) 0 = false ∧
    (d.boot.wdtFired = false → e.boot.bootState = 0 ∧ e.boot.waits = 0 ∧ e.boot.attempts = d.boot.attempts) ∧
    (d.boot.wdtFired = true → e.boot.bootState = 2 ∧ e.boot.waits = 1 ∧ e.boot.attempts = satAdd 16 d.boot.attempts 1 ∧
      e.boot.wdtFired = false) ∧
    (∀ a, 0x10000000 ≤ a → a < 0x11000000 → storeByte e.hw.mem.data a = some 0#8) ∧
    (∀ a, 0x20000000 ≤ a → a < 0x207F0000 →
      storeByte e.hw.mem.data a = if d.boot.retDue then some 0#8 else storeByte d.hw.mem.data a)) ∧
  -- An attempt that passes releases core 0 with the watchdog running; one that fails backs off and turns to the other image.
  (∀ d : Dev, d.boot.romRunning = true → d.boot.bootState ≠ 2 → (attemptRun d).1 = .ok → ∃ e, Runs .bootAttempt d e ∧
    e.boot.romRunning = false ∧ e.boot.bootState = 3 ∧ e.boot.wdtRunning = true ∧ e.boot.releasedAt = d.hw.time ∧
    e.boot.attempts = satAdd 16 d.boot.attempts 1 ∧
    e.boot.trial = (decide (d.boot.image ≠ d.boot.gov.image) || decide (d.boot.layout ≠ d.boot.gov.layout)) ∧
    (tabGet e.pwr.cores 0).isSome = true ∧ bit (rd e.hw R.RIND_BOOTCTL) 10 = e.boot.trial ∧
    bit (rd e.hw R.RIND_BOOTCTL) 8 = decide (d.boot.image = 1) ∧ bit (rd e.hw R.RIND_BOOTCTL) 9 = decide (d.boot.layout = 1)) ∧
  (∀ d : Dev, d.boot.romRunning = true → d.boot.bootState ≠ 2 → (attemptRun d).1 ≠ .ok → ∃ e, Runs .bootAttempt d e ∧
    e.boot.romRunning = true ∧ e.boot.bootState = 2 ∧ e.boot.lastStatus = (attemptRun d).1.code ∧ e.boot.waits = d.boot.waits + 1 ∧
    e.boot.image = 1 - d.boot.image % 2 ∧ e.boot.layout = d.boot.gov.layout ∧ e.pwr = d.pwr ∧ e.med = d.med ∧
    (d.boot.firstPending = true → e.boot.gov.pendImage = 0xFF ∧ e.boot.gov.pendLayout = 0xFF)) ∧
  (∀ d : Dev, (d.boot.romRunning = false ∨ d.boot.bootState = 2) → Runs .bootAttempt d d) ∧
  -- An attempt on an erased image slot ends at step 1 with ZERO_LEN, before any copy.
  (∀ d : Dev, slotEmpty (imageBytes d d.boot.image) = true → attemptRun d = (.zeroLen, d)) ∧
  -- Back-off: 100 ms doubling to 6,400 ms, then 10 s; then the next attempt begins.
  (∀ d : Dev, d.boot.romRunning = true → d.boot.bootState = 2 →
    Runs .bootBackoffExpiry d { d with boot := { d.boot with bootState := 1 } }) ∧
  (∀ d : Dev, (d.boot.romRunning = false ∨ d.boot.bootState ≠ 2) → Runs .bootBackoffExpiry d d) ∧
  (∀ w : Nat, backoffMs (w + 1) = if w < 7 then 100 * 2 ^ w else 10000) ∧
  -- The watchdog: it asks for an internal reset when it expires, and STOP stops it.
  (∀ d : Dev, d.boot.wdtRunning = true → Runs .bootWatchdogExpiry d { d with
    boot := { d.boot with wdtRunning := false, wdtFired := true }, holdup := { d.holdup with resetAfter := true } }) ∧
  (∀ d : Dev, d.boot.wdtRunning = false → Runs .bootWatchdogExpiry d d) ∧
  (∀ (d : Dev) (m : Nat), d.lets (writeOf m R.RIND_BOOTWDT 0x80000000#32) → Runs (.bootWatchdogStop m) d
    (Dev.wrote { d with boot := { d.boot with wdtRunning := false } } m R.RIND_BOOTWDT 0x80000000#32)) ∧
  -- RIND_BOOTCTL: ROLLBACK_REQ and FW_STATE, which HN_BOOTSTAT follows once firmware runs.
  (∀ (d : Dev) (m : Nat) (v : Word), d.lets (writeOf m R.RIND_BOOTCTL (v ||| 1#32)) →
    Runs (.rollbackRequest m v) d (Dev.wrote (bootCtlWrite (v ||| 1#32) d) m R.RIND_BOOTCTL (v ||| 1#32))) ∧
  (∀ (d : Dev) (m : Nat) (v : Word), d.lets (writeOf m R.RIND_BOOTCTL v) →
    Runs (.fwStateWrite m v) d (Dev.wrote (bootCtlWrite v d) m R.RIND_BOOTCTL v)) ∧
  (∀ (d x y : Dev) (v : Word),
    x = (if fld v 4 2 = 3 then d else { d with
      hw := wr d.hw R.RIND_BOOTCTL (putFld (rd d.hw R.RIND_BOOTCTL) 4 2 (fld v 4 2))
      boot := if 3 ≤ d.boot.bootState then { d.boot with bootState := 3 + fld v 4 2 } else d.boot }) →
    y = { x with hw := wr x.hw R.RIND_BOOTCTL (putBit (rd x.hw R.RIND_BOOTCTL) 0 (bit v 0)) } →
    (bit v 1 = false → bootCtlWrite v d = y) ∧
    (bit v 1 = true → bootCtlWrite v d = { y with holdup := { y.holdup with resetAfter := true } })) ∧
  -- A trial commits: one COMMIT record names what runs, the trial ends, and the held records are written, oldest first.
  (∀ d : Dev, commitReady d = true → ∃ e, Runs .trialCommit d e ∧ e.boot.trial = false ∧ e.boot.bootState = 5 ∧
    e.boot.gov = { d.boot.gov with
      type := 4, image := d.boot.image, layout := d.boot.layout, pendImage := 0xFF, pendLayout := 0xFF, tries := 0
      layoutSeq := d.med.layout.seq, seq := d.boot.gov.seq + 1 } ∧
    e.sj.held = [] ∧ fld (rd e.hw R.RIND_BOOTCTL) 4 2 = 2 ∧ e.med = d.med ∧
    (∃ x : Dev, x.sj = { d.sj with held := [] } ∧ e.sj.cur = (sjFlushHeld d.sj.held x).sj.cur) ∧ e.sj.keyHeld = []) ∧
  (∀ (d : Dev) (k : Nat) (p : List Byte) (t : List (Nat × List Byte)), sjFlushHeld [] d = d ∧
    sjFlushHeld ((k, p) :: t) d = sjFlushHeld t (sjWrite k p d) ∧
    (sjDeletes p = false → tabGet (sjWrite k p d).sj.cur k = some { seq := d.sj.seq + 1, payload := sjPad p })) ∧
  (∀ d : Dev, commitReady d = false → Runs .trialCommit d d) ∧
  -- What a commit needs.
  (∀ d : Dev, commitReady d = true ↔ d.boot.trial = true ∧ (tabGet d.pwr.cores 0).isSome = true ∧ d.med.recovered = true ∧
    bit (rd d.hw R.HOSTIF_BOOT) 0 = true ∧ frozenOk d (slotBytes d d.boot.layout) = true ∧
    d.boot.releasedAt.toNat + 1500000000 ≤ d.hw.time.toNat ∧ d.sj.unread = false ∧ topKennel d < d.med.layout.kmax) ∧
  (∀ d : Dev, (d.boot.trial = true ∨ d.sj.used ≤ 81) → Runs .settingsJournalCompaction d d) ∧
  -- Compaction rewrites every live pair at the head; no value is lost, and only the journal, the store and its count of sectors change.
  (∀ d : Dev, d.boot.trial = false → 81 < d.sj.used → (∀ k v, (k, v) ∈ d.sj.cur → sjDeletes v.payload = false ∧ v.payload.length = 44) →
    d.sj.cur.Pairwise (fun p q => p.1 < q.1) → ∃ e, Runs .settingsJournalCompaction d e ∧
    e = { d with hw := { d.hw with rind := { d.hw.rind with store := e.hw.rind.store } }, sj := e.sj } ∧
    (∀ k, (tabGet e.sj.cur k).map SVal.payload = (tabGet d.sj.cur k).map SVal.payload) ∧
    e.sj.seq = d.sj.seq + d.sj.cur.length ∧ e.sj.tail = d.sj.head / 1024)

/-- The key vault (R364–R370, R380, R386): a command item of an enabled vault with no command waiting before it. A transfer carries the ID
of the commanding master (log entry 123). -/
def Obligations.VaultCommands : Prop :=
  ∀ (d : Dev) (m n : Nat) (v : Word) (x : Item) (s : Slot), x = itemGet d.hw 10 m → x.flushed = false → n = fld v 0 13 → s = slotGet d.sec n →
    bit (rd d.hw R.KV_CTRL) 0 = true → d.sec.kvWait = [] →
    -- GENERATE: a fresh key, the next generation, the scope and Kennel of the command, the counter at 1; the vault is READY.
    (d.lets (writeOf m R.KV_CMD (putFld v 28 4 1)) → drbgReady d.sec = true → s.gen < 524287 →
      (fld v 25 3 = 1 → Runs (.kvGenerate m v) d (Dev.wrote (Dev.kvAnswered { d.taken 10 m with
        sec := { slotPut (drawXts 64 d.sec).2 n
          { type := 1, key := (drawXts 64 d.sec).1, gen := s.gen + 1, kennel := fld (itemArg x 0x18) 16 8, scope := fld v 23 2, ctr := 1 } with
          kvState := 1 } } m .ok (s.gen + 1)) m R.KV_CMD (putFld v 28 4 1))) ∧
      (fld v 25 3 = 2 → Runs (.kvGenerate m v) d (Dev.wrote (Dev.kvAnswered { d.taken 10 m with
        sec := { slotPut (drbgDraw d.sec).2 n
          { type := 2, key := ((drbgDraw d.sec).1.setWidth 256).setWidth 512, gen := s.gen + 1, kennel := fld (itemArg x 0x18) 16 8
            scope := fld v 23 2, ctr := 1 } with
          kvState := 1 } } m .ok (s.gen + 1)) m R.KV_CMD (putFld v 28 4 1)))) ∧
    -- At the last generation the load is refused and nothing is drawn into the slot.
    (d.lets (writeOf m R.KV_CMD (putFld v 28 4 1)) → drbgReady d.sec = true → s.gen = 524287 → (fld v 25 3 = 1 ∨ fld v 25 3 = 2) →
      Runs (.kvGenerate m v) d (Dev.wrote (Dev.kvAnswered { d.taken 10 m with hw := irq (d.taken 10 m).hw irqKv 5 } m .keyExhausted s.gen)
        m R.KV_CMD (putFld v 28 4 1))) ∧
    -- A command that needs the DRBG waits while it cannot generate.
    (drbgReady d.sec = false →
      (d.lets (writeOf m R.KV_CMD (putFld v 28 4 1)) → Runs (.kvGenerate m v) d (Dev.wrote { d.taken 10 m with
        sec := { d.sec with kvWait := [(m, putFld v 28 4 1, x)] } } m R.KV_CMD (putFld v 28 4 1))) ∧
      (d.lets (writeOf m R.KV_CMD (putFld v 28 4 3)) → Runs (.kvUnwrap m v) d (Dev.wrote { d.taken 10 m with
        sec := { d.sec with kvWait := [(m, putFld v 28 4 3, x)] } } m R.KV_CMD (putFld v 28 4 3)))) ∧
    -- WRAP: the key and its header under the storage KEK, at the buffer; the slot stays. An imported key is not wrapped.
    (d.lets (writeOf m R.KV_CMD (putFld v 28 4 2)) → (itemArg x 0x14).toNat % 8 = 0 → 80 ≤ fld (itemArg x 0x1C) 0 13 →
      (s.type = 1 ∨ s.type = 2 →
        unitPass (d.taken 10 m) m .write ((itemArg x 0x14).toNat + 0x100000000 * fld (itemArg x 0x18) 0 16) (if s.type = 1 then 80 else 48) = .ok →
        Runs (.kvWrap m v) d (Dev.wrote (Dev.kvAnswered { d.taken 10 m with
        hw := memPutBytes (d.taken 10 m).hw ((itemArg x 0x14).toNat + 0x100000000 * fld (itemArg x 0x18) 0 16)
          ((Config.wrap false (kekStorage d.fuse) (keyBytes s ++ (leBytes 1 s.type ++ leBytes 1 s.scope ++ leBytes 1 s.kennel ++ leBytes 2 n ++
            leBytes 3 s.gen))).take (if s.type = 1 then 80 else 48)) } m .ok s.gen) m R.KV_CMD (putFld v 28 4 2))) ∧
      (s.type = 3 → Runs (.kvWrap m v) d (Dev.wrote ((d.taken 10 m).kvAnswered m .denied s.gen) m R.KV_CMD (putFld v 28 4 2)))) ∧
    -- UNWRAP of an unrefused range under the storage KEK whose header names the slot; a failed unwrap changes no slot and sets its interrupt.
    (d.lets (writeOf m R.KV_CMD (putFld v 28 4 3)) → drbgReady d.sec = true → fld v 18 5 = 16 → (itemArg x 0x14).toNat % 8 = 0 →
      fld (itemArg x 0x1C) 0 13 ≠ 0 → unwrapLenOk (bit (itemArg x 0x1C) 31) (fld (itemArg x 0x1C) 0 13) = true →
      unitPass (d.taken 10 m) m .read ((itemArg x 0x14).toNat + 0x100000000 * fld (itemArg x 0x18) 0 16) (fld (itemArg x 0x1C) 0 13) = .ok →
      ∀ (bs : List Byte) (e : Dev),
      unitRead m ((itemArg x 0x14).toNat + 0x100000000 * fld (itemArg x 0x18) 0 16) (fld (itemArg x 0x1C) 0 13) (d.taken 10 m) =
        (some bs, e) →
      (∀ (pt : List Byte) (type : Nat) (key : BitVec 512) (scope kennel : Nat), Config.unwrap (bit (itemArg x 0x1C) 31) (kekStorage d.fuse) bs = some pt →
        unwrapSlot true n (fld (itemArg x 0x18) 16 8) pt = some (type, key, scope, kennel) → s.gen < 524287 →
        Runs (.kvUnwrap m v) d (Dev.wrote (Dev.kvAnswered { e with
          sec := slotPut e.sec n { type := type, key := key, gen := s.gen + 1, kennel := kennel, scope := scope, ctr := 1 } }
          m .ok (s.gen + 1)) m R.KV_CMD (putFld v 28 4 3))) ∧
      (Config.unwrap (bit (itemArg x 0x1C) 31) (kekStorage d.fuse) bs = none →
        Runs (.kvUnwrap m v) d (Dev.wrote (Dev.kvAnswered { e with hw := irq e.hw irqKv 1 } m .reject s.gen) m R.KV_CMD (putFld v 28 4 3)))) ∧
    -- CLEAR zeroises the key and raises the generation; BIND changes scope and Kennel alone.
    (d.lets (writeOf m R.KV_CMD (putFld v 28 4 4)) → Runs (.kvClear m v) d (Dev.wrote (Dev.kvAnswered { d.taken 10 m with
      sec := slotPut d.sec n { s with type := 0, key := 0#512, gen := min 524287 (s.gen + 1) } } m .ok (min 524287 (s.gen + 1)))
      m R.KV_CMD (putFld v 28 4 4))) ∧
    (d.lets (writeOf m R.KV_CMD (putFld v 28 4 5)) → Runs (.kvBind m v) d (Dev.wrote (Dev.kvAnswered { d.taken 10 m with
      sec := slotPut d.sec n { s with scope := fld v 23 2, kennel := fld (itemArg x 0x18) 16 8 } } m .ok s.gen) m R.KV_CMD (putFld v 28 4 5))) ∧
    -- ERASE_ALL runs key erasure.
    (d.lets (writeOf m R.KV_CMD (putFld v 28 4 6)) → Runs (.kvEraseAll m v) d (Dev.wrote (Dev.kvAnswered (eraseKeys (d.taken 10 m)) m .ok
      s.gen) m R.KV_CMD (putFld v 28 4 6)))

/-- Key erasure, the key area, and the namespaces' keys (R368, R386, R387, R393). -/
def Obligations.KeyErasure : Prop :=
  -- Steps 1 and 2 on a part with the cipher engines: no key is left anywhere, every generation and counter stays, an epoch bit is blown.
  (∀ d : Dev, d.sec.eraseDue = false → hasCrypto d.fuse = true →
    (eraseKeys d).fuse = { d.fuse with epochLeft := d.fuse.epochLeft - 1 } ∧
    (∀ n, (slotGet (eraseKeys d).sec n).type = 0 ∧ (slotGet (eraseKeys d).sec n).key = 0#512 ∧
      (slotGet (eraseKeys d).sec n).gen = (slotGet d.sec n).gen ∧ (slotGet (eraseKeys d).sec n).ctr = (slotGet d.sec n).ctr) ∧
    (eraseKeys d).sec.importKeks = [] ∧ (eraseKeys d).sec.mapKey = none ∧ (eraseKeys d).sec.attestKey = false ∧
    (eraseKeys d).sec.jobs = [] ∧ (eraseKeys d).sec.kvState = 2 ∧ (eraseKeys d).sec.eraseDue = true ∧
    bit (rd (eraseKeys d).hw R.KV_INT_STAT) 3 = true ∧ (eraseKeys d).med = d.med ∧ (eraseKeys d).pwr = d.pwr) ∧
  -- On HN4896-PX the map key and the attestation key go; nothing else changes.
  (∀ d : Dev, d.sec.eraseDue = false → hasCrypto d.fuse = false →
    eraseKeys d = { d with sec := { d.sec with mapKey := none, oldMapKey := none, attestKey := false } }) ∧
  -- Step 3 erases sectors 134 to 137, and the commands whose cipher jobs were aborted end (log entry 125).
  (∀ d : Dev, d.sec.eraseDue = true → ∃ e, Runs .keyAreaErase d ((abortedTags d).foldl (fun x t => opAborted t x) e) ∧
    e = { d with hw := { d.hw with rind := { d.hw.rind with store := e.hw.rind.store } }, sec := { d.sec with eraseDue := false } } ∧
    ∀ a, storeByte e.hw.rind.store a = if 134 * 65536 ≤ a ∧ a < 138 * 65536 then some 0xFF#8 else storeByte d.hw.rind.store a) ∧
  -- Restoring keys, one namespace after another.
  (∀ d : Dev, hasCrypto d.fuse = true → (tabGet d.pwr.cores 0).isSome = true →
    Runs .nsKeyRestore d (d.ten.namespaces.foldl (fun x q => nsKeyRestore q.1 q.2 x) d)) ∧
  -- A namespace whose copy does not unwrap serves no I/O; one whose key checks serves it; a plaintext one has nothing to restore.
  (∀ (d : Dev) (nsid : Nat) (n : Ns),
    (n.cipher = 0 → nsKeyRestore nsid n d = d) ∧
    (n.cipher ≠ 0 → Config.unwrap false (kekStorage d.fuse) (rindBytes d.hw.rind d.hw.free (134 * 65536 + (nsid - 1) * 128) 80) = none →
      nsKeyRestore nsid n d = { d with
        hw := evFw d.hw 0x083 3 nsid n.slot 0, ten := { d.ten with namespaces := tabPut d.ten.namespaces nsid { n with keyFailed := true } } }) ∧
    (∀ (pt : List Byte) (type : Nat) (key : BitVec 512) (scope kennel : Nat), n.cipher ≠ 0 →
      Config.unwrap false (kekStorage d.fuse) (rindBytes d.hw.rind d.hw.free (134 * 65536 + (nsid - 1) * 128) 80) = some pt →
      unwrapSlot true n.slot 0 pt = some (type, key, scope, kennel) → leNat ((pt.drop 69).take 3) = n.keyGen →
      (Config.aes256 (key.setWidth 256) 0#128).toNat % 18446744073709551616 = n.keyCheck →
      nsKeyRestore nsid n d = { d with
        sec := slotPut d.sec n.slot { type := type, key := key, gen := n.keyGen, kennel := kennel, scope := scope, ctr := (slotGet d.sec n.slot).ctr }
        ten := { d.ten with namespaces := tabPut d.ten.namespaces nsid { n with keyFailed := false } } }))

/-- The cipher engines (R371–R379): firmware jobs, host-path jobs, and how a job ends. -/
def Obligations.CipherCommands : Prop :=
  -- A firmware job: the mode and then GO complete the master's item, and the job joins the engine's queue.
  (∀ (d e : Dev) (m k slot op : Nat) (w : Word) (c : Instr), k < 4 → w = putFld (putFld 0#32 28 4 op) 0 13 slot →
    ((c = .cipherXtsEncrypt m k slot ∧ op = 1) ∨ (c = .cipherXtsDecrypt m k slot ∧ op = 2) ∨
      (c = .cipherGcmEncrypt m k slot ∧ op = 3) ∨ (c = .cipherGcmDecrypt m k slot ∧ op = 4)) →
    d.lets (writeOf m (R.CIPHER_JMODE k) w) → (itemGet d.hw (32 + k) m).flushed = false →
    e = Dev.wrote { d with
      hw := itemPut d.hw (32 + k) m { itemGet d.hw (32 + k) m with args := tabPut (itemGet d.hw (32 + k) m).args 0x10 w } }
      m (R.CIPHER_JMODE k) w →
    e.lets (writeOf m (R.CIPHER_JGO k) 0#32) →
    Runs c d (Dev.wrote (jobStart k m op (itemGet e.hw (32 + k) m) (e.taken (32 + k) m)) m (R.CIPHER_JGO k) 0#32)) ∧
  -- What may run: the slot's scope is CORE, its type is the mode's, the addresses are aligned, and the lengths are within limits.
  (∀ (op len aadLen src dst : Nat) (x : Slot), jobStatus op len aadLen src dst x = .ok ↔
    x.type ≠ 0 ∧ x.scope = 0 ∧ src % 16 = 0 ∧ dst % 16 = 0 ∧
    (if op < 3 then x.type = 1 ∧ 16 ≤ len ∧ len ≤ 1048576
      else (x.type = 2 ∨ x.type = 3) ∧ (len ≠ 0 ∨ aadLen ≠ 0) ∧ len ≤ 16777216 ∧ aadLen ≤ 65536 ∧
        (op = 3 → x.type = 2 ∧ x.ctr < 281474976710655))) ∧
  -- A job that may run takes the slot's key; a GCM encryption takes the counter's value in its IV and raises the counter.
  (∀ (d : Dev) (k m op n : Nat) (x : Item) (s : Slot) (j : Job), n = fld (itemArg x 0x10) 0 13 → s = slotGet d.sec n → 1 ≤ op → op ≤ 4 →
    jobStatus op (itemArg x 0x24).toNat (itemArg x 0x30).toNat (itemAddr x 0x14 0x18) (itemAddr x 0x1C 0x20) s = .ok →
    j = { master := some m, tag := none, op := op, slot := n, key := s.key, iv := if op = 3 then gcmIv n s else 0#96
          src := itemAddr x 0x14 0x18, dst := itemAddr x 0x1C 0x20, len := (itemArg x 0x24).toNat, aad := itemAddr x 0x28 0x2C
          aadLen := (itemArg x 0x30).toNat, tweak := (itemArg x 0x34).toNat + 0x100000000 * (itemArg x 0x38).toNat
          tagAddr := itemAddr x 0x3C 0x40, status := .ok } →
    ∃ cache, jobStart k m op x d = { d with
      sec := { d.sec with
        slots := if op = 3 then tabPut d.sec.slots n { s with ctr := s.ctr + 1 } else d.sec.slots
        jobs := tabPut d.sec.jobs k (jobsOf d.sec k ++ [j])
        keyCache := tabPut d.sec.keyCache k cache } } ∧ cache.length ≤ 4 ∧ cache.head? = some n) ∧
  -- A host-path job of an admitted command: read data is decrypted into Curd buffers, write data encrypted, under the namespace's or the
  -- command's key; a read without its buffers waits for them.
  (∀ (d : Dev) (tag n : Nat) (o : Op), tabGet d.host.ops tag = some o → o.ciphered = false → o.status ≠ .accessDenied →
    (∀ i < 4, ∀ j ∈ jobsOf d.sec i, j.tag ≠ some tag) →
    (o.cmd.keyTag = some n ∨ (o.cmd.keyTag = none ∧ ∃ x, nsGet d o.cmd.nsid = some x ∧ x.slot = n)) →
    (o.st = .staging → Runs (.cipherHostJob tag) d (hostJob tag n (o.cmd.nlb * 4096) true d)) ∧
    (o.st = .ready → ∀ (bs : List Nat) (e : Dev), readBufs o d = (bs, e) →
      (bs = [] → Runs (.cipherHostJob tag) d e) ∧
      (bs ≠ [] → Runs (.cipherHostJob tag) d
        (hostJob tag n (o.cmd.nlb * 4096) false (opMod tag (fun q => { q with bufs := bs }) e))))) ∧
  -- The job goes to the engine that R372 names, behind the job that runs and in deadline order, and a closed domain of that engine wakes.
  (∀ (d : Dev) (tag n len k : Nat) (enc : Bool), pickEngine d = some k → ∃ j : Job,
    j = { master := none, tag := some tag, op := if enc then 1 else 2, slot := n, key := (slotGet d.sec n).key, iv := 0#96,
          src := 0, dst := 0, len := len, aad := 0, aadLen := 0, tweak := 0, tagAddr := 0, status := .ok } ∧
    hostJob tag n len enc d = wakeReq (77 + k) 2 { d with sec := { d.sec with
      jobs := tabPut d.sec.jobs k (match jobsOf d.sec k with
        | [] => [j]
        | x :: xs => x :: jobInsert d (((tabGet d.host.ops tag).map (fun o => o.deadline)).getD 0) j xs)
      keyCache := cacheTouch d.sec k n } }) ∧
  (∀ (d : Dev) (tag n len : Nat) (enc : Bool), pickEngine d = none → hostJob tag n len enc d = d) ∧
  (∀ (d : Dev) (t : Nat) (j : Job) (q : List Job), ∃ as bs, q = as ++ bs ∧ jobInsert d t j q = as ++ j :: bs ∧
    (∀ x ∈ as, ∀ u, jobDeadline d x = some u → u ≤ t) ∧ (∀ x ∈ bs.head?, ∃ u, jobDeadline d x = some u ∧ t < u)) ∧
  -- The engine of a host-path job is an enabled one with the fewest queued bytes, the lowest of them.
  (∀ (d : Dev) (k : Nat), pickEngine d = some k → k < 4 ∧ bit (rd d.hw (R.CIPHER_CTRL k)) 0 = true ∧
    ∀ i < 4, bit (rd d.hw (R.CIPHER_CTRL i)) 0 = true → queuedBytes d.sec k ≤ queuedBytes d.sec i ∧ (i < k → queuedBytes d.sec k < queuedBytes d.sec i)) ∧
  -- The oldest job of an engine that works ends: a firmware job answers its status in JRSP with JOB_DONE, and JOB_ERR unless it is OK.
  (∀ (d : Dev) (k m : Nat) (j : Job) (js : List Job), hasCrypto d.fuse = true → k < 4 → jobsOf d.sec k = j :: js →
    bit (rd d.hw (R.CIPHER_CTRL k)) 0 = true → domOn d.pwr (77 + k) = true → j.master = some m → ∀ d0 : Dev,
    d0 = { d with sec := { d.sec with jobs := tabPut d.sec.jobs k js } } →
    (j.status ≠ .ok → Runs (.cipherJobDone k) d (cipherCount k 0 { d0 with
      hw := irq (irq (mwr d.hw (R.CIPHER_JRSP k) m (BitVec.ofNat 32 (j.status.code * 268435456))) (irqCipher k) 0) (irqCipher k) 1 })) ∧
    (∀ (st : Status) (e : Dev) (g : Hw), j.status = .ok → (∀ n, jobPass k j d0 ≠ .waits n) → jobRun k j d0 = (st, e) →
      g = irq (mwr e.hw (R.CIPHER_JRSP k) m (BitVec.ofNat 32 (st.code * 268435456))) (irqCipher k) 0 →
      Runs (.cipherJobDone k) d (cipherCount k (if st = .ok then j.len else 0)
        { e with hw := if st = .ok then g else irq g (irqCipher k) 1 })) ∧
    -- One whose request is held at a closed gate waits there, and that domain wakes.
    (∀ n, j.status = .ok → jobPass k j d0 = .waits n → Runs (.cipherJobDone k) d (wakeReq n 2 d))) ∧
  -- An engine that is not enabled, or whose domain is not ON, ends no job.
  (∀ (d : Dev) (k : Nat), hasCrypto d.fuse = true → k < 4 →
    (bit (rd d.hw (R.CIPHER_CTRL k)) 0 = false ∨ domOn d.pwr (77 + k) = false ∨ jobsOf d.sec k = []) → Runs (.cipherJobDone k) d d) ∧
  (∀ (d : Dev) (k tag : Nat) (j : Job) (js : List Job) (o : Op), hasCrypto d.fuse = true → k < 4 → jobsOf d.sec k = j :: js →
    bit (rd d.hw (R.CIPHER_CTRL k)) 0 = true → domOn d.pwr (77 + k) = true → j.master = none → j.tag = some tag →
    tabGet d.host.ops tag = some o →
    Runs (.cipherJobDone k) d (cipherCount k j.len { d with
      sec := { d.sec with jobs := tabPut d.sec.jobs k js }
      host := { d.host with ops := tabPut d.host.ops tag { o with ciphered := true } } })) ∧
  -- A job with a request that its target refuses ends with that status, and no byte of memory changes.
  (∀ (d : Dev) (k a n : Nat) (j : Job) (st : Status), jobPass k j d = .refused st a n →
    (jobRun k j d).1 = st ∧ (jobRun k j d).2.hw.mem = d.hw.mem) ∧
  -- A GCM decryption whose tag does not match leaves its destination zero and ends with REJECT; no data leaves the engine.
  (∀ (d d1 d2 d3 : Dev) (k : Nat) (j : Job) (bs aad tb : List Byte), j.op = 4 → jobPass k j d = .ok →
    unitRead (20 + k) j.src j.len d = (some bs, d1) → unitRead (20 + k) j.aad j.aadLen d1 = (some aad, d2) →
    unitRead (20 + k) j.tagAddr 28 d2 = (some tb, d3) →
    jobRun k j d = if BitVec.ofNat 128 (leNat (tb.drop 12)) = Config.gcmTag (j.key.setWidth 256) (BitVec.ofNat 96 (leNat (tb.take 12))) aad bs then
        (.ok, unitWrite j.dst (Config.gcmCrypt (j.key.setWidth 256) (BitVec.ofNat 96 (leNat (tb.take 12))) bs) d3)
      else (.reject, unitWrite j.dst (List.replicate j.len 0#8) d3)) ∧
  -- The mask generator is reseeded while the DRBG supplies; else it runs on, marked stale.
  (∀ (d : Dev) (k : Nat), hasCrypto d.fuse = true → k < 4 → drbgReady d.sec = true → Runs (.maskReseed k) d { d with
    hw := wr d.hw (R.CIPHER_STAT k) (clrBit (rd d.hw (R.CIPHER_STAT k)) 30)
    sec := { d.sec with
      drbgDraws := d.sec.drbgDraws + 1, drbgReqs := d.sec.drbgReqs + 1, maskBytes := tabPut d.sec.maskBytes k 0
      maskStale := d.sec.maskStale &&& ~~~(1#4 <<< k) } }) ∧
  (∀ (d : Dev) (k : Nat), hasCrypto d.fuse = true → k < 4 → drbgReady d.sec = false → Runs (.maskReseed k) d { d with
    hw := irq (wr d.hw (R.CIPHER_STAT k) (setBit (rd d.hw (R.CIPHER_STAT k)) 30)) (irqCipher k) 2
    sec := { d.sec with maskBytes := tabPut d.sec.maskBytes k 0, maskStale := d.sec.maskStale ||| (1#4 <<< k) } })

/-- The entropy source, the signature verifier, the access tables and the alarms (R380–R385). -/
def Obligations.SecurityCommands : Prop :=
  -- A reseed from a healthy seed: the DRBG generates again, every mask is fresh, and what waited for it proceeds in its order: the reads of
  -- SIGV_RNG_DATA, the vault's commands, and the host commands; without one RESEED_FAIL is set and the DRBG stops.
  (∀ (d e f : Dev) (h : Hw) (s : Sec),
    rngAnswer d.sec.rngWait d.hw { d.sec with drbgOn := true, drbgReqs := 0, entropyOk := true } = (h, s) →
    e = kvDrain s.kvWait { d with hw := maskFresh h 4, sec := { s with rngWait := [], maskStale := 0#4, kvWait := [] } } →
    f = { e with host := { e.host with rndHeld := [] } } →
    Runs (.drbgReseed true) d (e.host.rndHeld.foldl (fun x q => rndRun q x) f)) ∧
  (∀ (h : Hw) (s : Sec), rngAnswer [] h s = (h, s)) ∧
  (∀ (m : Nat) (ms : List Nat) (h : Hw) (s : Sec), rngAnswer (m :: ms) h s = rngAnswer ms
    { h with resps := tabPut h.resps m { addr := R.SIGV_RNG_DATA, kind := .read, status := .ok
                                         data := (Config.drbg s.drbgDraws).toNat % 0x100000000, fault := false, waiting := false } }
    { s with drbgDraws := s.drbgDraws + 1, drbgReqs := s.drbgReqs + 1 }) ∧
  (∀ h : Hw, (∀ k < 4, bit (rd (maskFresh h 4) (R.CIPHER_STAT k)) 30 = false) ∧
    (∀ a, (∀ k < 4, a ≠ R.CIPHER_STAT k) → rd (maskFresh h 4) a = rd h a)) ∧
  (∀ d : Dev, Runs (.drbgReseed false) d { d with hw := irq d.hw irqSigv 3, sec := { d.sec with drbgOn := false } }) ∧
  -- A health test fails: it is counted, reported and recorded, and the start-up tests begin again.
  (∀ (d : Dev) (kind : Nat), kind < 2 → ∃ h, h = irq d.hw irqSigv 2 ∧ Runs (.entropyHealthFail kind) d { d with
    hw := evUnit (wr h R.SIGV_RNG_STAT (bumpFld (rd h R.SIGV_RNG_STAT) 0 16 1)) 0x0B 0x082 3 kind 0 0
    sec := { d.sec with entropyOk := false } }) ∧
  -- The DRBG supplies while it generates and fewer than 2^20 requests followed its last reseed.
  (∀ s : Sec, drbgReady s = true ↔ s.drbgOn = true ∧ s.drbgReqs < 1048576) ∧
  -- A read of the random data answers 32 DRBG bits, or waits while the DRBG does not supply.
  (∀ (d : Dev) (m : Nat), d.lets (readOf m R.SIGV_RNG_DATA) → drbgReady d.sec = true → Runs (.sigvRngDataRead m) d { d with
    hw := { d.hw with
      resps := tabPut d.hw.resps m { addr := R.SIGV_RNG_DATA, kind := .read, status := .ok
                                     data := (Config.drbg d.sec.drbgDraws).toNat % 0x100000000, fault := false, waiting := false } }
    sec := { d.sec with drbgDraws := d.sec.drbgDraws + 1, drbgReqs := d.sec.drbgReqs + 1 } }) ∧
  (∀ (d : Dev) (m : Nat), d.lets (readOf m R.SIGV_RNG_DATA) → drbgReady d.sec = false → Runs (.sigvRngDataRead m) d { d with
    hw := { d.hw with
      resps := tabPut d.hw.resps m { addr := R.SIGV_RNG_DATA, kind := .read, status := .ok, data := 0, fault := false, waiting := true } }
    sec := { d.sec with rngWait := d.sec.rngWait ++ [m] } }) ∧
  -- A verify runs on the windows' present contents, with the role of the write, unless one runs; its end places RESULT and REASON.
  (∀ (d : Dev) (m : Nat) (v : Word), d.lets (writeOf m R.SIGV_CTRL (v ||| 1#32)) → bit v 1 = false → d.sec.verify = none → ∀ (st : Status) (n : Nat),
    ecdsaOutcome d.fuse (fld v 2 2) (fld (rd d.hw R.SIGV_QFMT) 0 8) (digestNat d.hw) (win384 d.hw R.SIGV_R) (win384 d.hw R.SIGV_S)
      (win384 d.hw R.SIGV_QX) (win384 d.hw R.SIGV_QY) = (st, n) →
    Runs (.sigvVerify m v) d (Dev.wrote { d with
      hw := wr (wr d.hw R.SIGV_CTRL (rwWrite 0xC#32 (rd d.hw R.SIGV_CTRL) (v ||| 1#32))) R.SIGV_STAT (setBit (rd d.hw R.SIGV_STAT) 31)
      sec := { d.sec with verify := some { result := st, reason := n, jtag := false } } } m R.SIGV_CTRL (v ||| 1#32))) ∧
  (∀ (d : Dev) (m : Nat) (v : Word), d.lets (writeOf m R.SIGV_CTRL (v ||| 1#32)) → bit v 1 = false → d.sec.verify ≠ none →
    Runs (.sigvVerify m v) d (Dev.wrote { d with hw := wr d.hw R.SIGV_CTRL (rwWrite 0xC#32 (rd d.hw R.SIGV_CTRL) (v ||| 1#32)) }
      m R.SIGV_CTRL (v ||| 1#32))) ∧
  (∀ (d e : Dev) (v : Verify), d.sec.verify = some v → v.jtag = false →
    e = { d with
      hw := irq (wr d.hw R.SIGV_STAT ((rd d.hw R.SIGV_STAT &&& 0x40000000#32) |||
        BitVec.ofNat 32 (v.result.code * 16777216 + v.reason * 1048576))) irqSigv 0
      sec := { d.sec with verify := none } } →
    (d.jtag.resp = none → Runs .sigvVerifyDone d e) ∧
    -- A debug response that the verifier's work held back is verified next.
    (∀ c r, d.jtag.resp = some (c, r) → Runs .sigvVerifyDone d (jtagVerify c r (tapMod (fun j => { j with resp := none }) e)))) ∧
  -- The outcome: every check in order of its reason, and OK when none fails.
  (∀ (f : Fuse) (role fmt : Nat) (dg r s x y : BitVec 384), (ecdsaOutcome f role fmt dg r s x y).1 = .ok ↔
    (0 < r.toNat ∧ r.toNat < p384n ∧ 0 < s.toNat ∧ s.toNat < p384n) ∧ (fmt = 4 ∧ x.toNat < p384p ∧ y.toNat < p384p ∧ Config.onCurve x y = true) ∧
    (role = 0 ∨ ∃ i < 4, f.revoked.getLsbD (4 * (role - 1) + i) = false ∧
      Config.sha384 (pointBytes x y) = Config.fusedHash role i) ∧ Config.ecdsaHolds dg r s x y = true) ∧
  -- A hash of no bytes completes at once; another runs, and its end places the digest.
  (∀ (d : Dev) (m : Nat) (v : Word), d.lets (writeOf m R.SIGV_CTRL (v ||| 2#32)) → bit v 0 = false → d.sec.hash = none →
    (rd d.hw R.SIGV_HLEN).toNat = 0 → Runs (.sigvHash m v) d (Dev.wrote { d with
      hw := irq (putDigest (wr d.hw R.SIGV_CTRL (rwWrite 0xC#32 (rd d.hw R.SIGV_CTRL) (v ||| 2#32))) (Config.sha384 [])) irqSigv 1 }
      m R.SIGV_CTRL (v ||| 2#32))) ∧
  (∀ (d e f x : Dev) (m : Nat) (v : Word) (bs : List Byte) (src : Nat), d.lets (writeOf m R.SIGV_CTRL (v ||| 2#32)) → bit v 0 = false →
    d.sec.hash = none → (rd d.hw R.SIGV_HLEN).toNat ≠ 0 →
    src = (rd d.hw R.SIGV_HSRC_LO).toNat + 0x100000000 * fld (rd d.hw R.SIGV_HSRC_HI) 0 16 →
    e = { d with hw := wr d.hw R.SIGV_CTRL (rwWrite 0xC#32 (rd d.hw R.SIGV_CTRL) (v ||| 2#32)) } →
    unitClear m .read src (rd d.hw R.SIGV_HLEN).toNat e = .inr f → unitRead m src (rd d.hw R.SIGV_HLEN).toNat f = (some bs, x) →
    ∃ h, h = wr x.hw R.SIGV_STAT (setBit (rd x.hw R.SIGV_STAT) 30) ∧ Runs (.sigvHash m v) d (Dev.wrote { x with
      hw := wr h R.SIGV_CTRL (setBit (rd h R.SIGV_CTRL) 1), sec := { x.sec with hash := some (Config.sha384 bs) } }
      m R.SIGV_CTRL (v ||| 2#32))) ∧
  (∀ (d : Dev) (m : Nat) (v : Word), d.lets (writeOf m R.SIGV_CTRL (v ||| 2#32)) → bit v 0 = false → d.sec.hash ≠ none →
    Runs (.sigvHash m v) d (Dev.wrote { d with hw := wr d.hw R.SIGV_CTRL (rwWrite 0xC#32 (rd d.hw R.SIGV_CTRL) (v ||| 2#32)) }
      m R.SIGV_CTRL (v ||| 2#32))) ∧
  (∀ (d : Dev) (g : BitVec 384), d.sec.hash = some g → ∃ h, Runs .sigvHashDone d { d with hw := irq h irqSigv 1, sec := { d.sec with hash := none } } ∧
    bit (rd h R.SIGV_STAT) 30 = false ∧ bit (rd h R.SIGV_CTRL) 1 = false ∧
    (∀ i < 12, rd h (R.SIGV_DIGEST i) = BitVec.ofNat 32 (g.toNat / 2 ^ (32 * i)))) ∧
  -- ENFORCE and LOCK are set and never cleared by a write.
  (∀ (d : Dev) (m : Nat), d.lets (writeOf m R.COLLAR_CTRL 1#32) → Runs (.collarEnforceSet m) d
    (Dev.wrote { d with hw := wr d.hw R.COLLAR_CTRL (rd d.hw R.COLLAR_CTRL ||| 1#32) } m R.COLLAR_CTRL 1#32)) ∧
  (∀ (d : Dev) (m : Nat), d.lets (writeOf m R.COLLAR_CTRL 2#32) → Runs (.collarLockSet m) d
    (Dev.wrote { d with hw := wr d.hw R.COLLAR_CTRL (rd d.hw R.COLLAR_CTRL ||| 2#32) } m R.COLLAR_CTRL 2#32)) ∧
  -- An alarm is latched, reported and recorded; its policy blocks the master (source 0) or erases the keys.
  (∀ (d : Dev) (src m pol : Nat), src < 5 → m < 128 → pol = fld (rd d.hw R.COLLAR_ALARM_POL) (2 * src) 2 → ∃ h,
    h = evUnit (irq (wr d.hw R.COLLAR_ALARM_STAT (setBit (rd d.hw R.COLLAR_ALARM_STAT) src)) irqCollar 1) 1 0x080 4 src pol
      (if src = 0 then m else 0) ∧
    (pol = 0 → Runs (.alarm src m) d { d with hw := h }) ∧
    (pol = 1 → src = 0 → Runs (.alarm src m) d { d with
      hw := irq h irqCollar 2, sec := { d.sec with blocked := d.sec.blocked ||| (1#128 <<< m) } }) ∧
    (pol = 1 → src ≠ 0 → Runs (.alarm src m) d { d with hw := h }) ∧
    (2 ≤ pol → Runs (.alarm src m) d (eraseKeys { d with hw := if hasCrypto d.fuse then irq h irqKv 2 else h })))

/-- The management endpoint (R488, R489, R493): MCTP control, NVMe-MI requests, and its registers. -/
def Obligations.ManagementCommands : Prop :=
  (∀ d : Dev, d.pins.pgood = true → Runs .mgmtReady d { d with mgmt := { d.mgmt with ready := true } }) ∧
  -- Control messages, answered in hardware once READY.
  (∀ (d : Dev) (eid : Nat), d.mgmt.ready = true → 0 < eid → eid < 255 → Runs (.setEndpointId eid) d { d with
    mgmt := { d.mgmt with eid := eid, lastTx := some (0, [1#8, 0#8, 0#8, BitVec.ofNat 8 eid, 0#8]) } }) ∧
  (∀ d : Dev, d.mgmt.ready = true → Runs .getEndpointId d { d with
    mgmt := { d.mgmt with lastTx := some (0, [2#8, 0#8, BitVec.ofNat 8 d.mgmt.eid, 0#8, 0#8]) } }) ∧
  (∀ d : Dev, d.mgmt.ready = true → ∃ bs : List Byte, bs.length = 4 ∧ Runs .getMctpVersionSupport d { d with
    hw := { d.hw with free := d.hw.free + 1 }, mgmt := { d.mgmt with lastTx := some (0, [4#8, 0#8, 1#8] ++ bs) } }) ∧
  (∀ d : Dev, d.mgmt.ready = true → Runs .getMessageTypeSupport d { d with
    mgmt := { d.mgmt with lastTx := some (0, [5#8, 0#8, 2#8, 4#8, 5#8]) } }) ∧
  -- A message is held for firmware; while one is held, or before FW_READY, it is answered busy.
  (∀ (d : Dev) (type src tag : Nat) (bs : List Byte), d.fwServes → (type = 4 ∨ type = 5) → bs.length ≤ 4224 → ∃ h,
    (∀ a, (∀ i < (bs.length + 3) / 4, a ≠ R.MGMT_RXBUF i) → tabGet h.regs a = tabGet d.hw.regs a) ∧
    (∀ i < (bs.length + 3) / 4, rd h (R.MGMT_RXBUF i) = BitVec.ofNat 32 (leNat ((bs.drop (4 * i)).take 4))) ∧
    Runs (.mctpMessageReceived type src tag bs) d { d with
      hw := irq h irqMgmt 0, mgmt := { d.mgmt with rx := some { type := type, src := src % 256, tag := tag % 8, bytes := bs } } }) ∧
  (∀ (d : Dev) (src tag : Nat) (bs : List Byte), d.mgmt.ready = true → bit (rd d.hw R.MGMT_CTRL) 0 = false → bs.length ≤ 4224 →
    Runs (.mctpMessageReceived 4 src tag bs) d { d with mgmt := { d.mgmt with lastTx := some (4, [1#8]) } } ∧
    Runs (.mctpMessageReceived 5 src tag bs) d { d with mgmt := { d.mgmt with lastTx := some (5, [0x12#8, 0x7F#8, 3#8, 0#8]) } }) ∧
  (∀ (d : Dev) (src tag : Nat) (bs : List Byte), d.mgmt.ready = true → bit (rd d.hw R.MGMT_CTRL) 0 = true → d.mgmt.rx ≠ none → bs.length ≤ 4224 →
    Runs (.mctpMessageReceived 4 src tag bs) d { d with hw := irq d.hw irqMgmt 3, mgmt := { d.mgmt with lastTx := some (4, [1#8]) } } ∧
    Runs (.mctpMessageReceived 5 src tag bs) d { d with
      hw := irq d.hw irqMgmt 3, mgmt := { d.mgmt with lastTx := some (5, [0x12#8, 0x7F#8, 3#8, 0#8]) } }) ∧
  -- NVMe-MI requests.
  (∀ d : Dev, d.fwServes →
    (∃ bs : List Byte, Runs (.readNvmeMiDataStructure 0 0) d (Dev.served { d with hw := { d.hw with free := d.hw.free + 1 } } 4
      ([0#8, if dual d then 2#8 else 1#8] ++ bs))) ∧
    (∀ id : Nat, 1 ≤ id → ctrlPresent d (ctrlOfId id).1 (ctrlOfId id).2 = true → Runs (.readNvmeMiDataStructure 3 id) d
      (d.served 4 ([0#8] ++ leBytes 2 id ++ leBytes 1 (ctrlOfId id).1 ++ leBytes 1 (ctrlOfId id).2))) ∧
    Runs .subsystemHealthStatusPoll d (d.served 4 ([0#8] ++ leBytes 1 (critWarning d) ++ leBytes 2 (compositeK d) ++ leBytes 1 (pctUsed d))) ∧
    (∀ id : Nat, 1 ≤ id → ctrlPresent d (ctrlOfId id).1 (ctrlOfId id).2 = true →
      Runs (.controllerHealthStatusPoll id) d (d.served 4 ([0#8] ++ leBytes 2 id ++
        leBytes 1 ((if (ctrlGet d (ctrlOfId id).1 (ctrlOfId id).2).rdy then 1 else 0) +
          (if (ctrlGet d (ctrlOfId id).1 (ctrlOfId id).2).cfs then 2 else 0) + 4 * (ctrlGet d (ctrlOfId id).1 (ctrlOfId id).2).shst) ++
        leBytes 2 (compositeK d) ++ leBytes 1 (pctUsed d) ++ leBytes 1 (((packs d).map (fun p => spareOf d p)).foldl min 10000 / 100) ++
        leBytes 1 (critWarning d)))) ∧
    Runs (.configurationGet 3) d (d.served 4 ([0#8] ++ leBytes 2 d.mgmt.unitBytes)) ∧
    (∀ id v : Nat, id ≠ 3 → tabGet d.mgmt.cfg id = some v → Runs (.configurationGet id) d (d.served 4 ([0#8] ++ leBytes 4 v))) ∧
    (∀ v : Nat, (v = 64 ∨ (v = 256 ∧ d.mgmt.i3c = true)) → Runs (.configurationSet 3 v) d
      (Dev.served { d with mgmt := { d.mgmt with unitBytes := v } } 4 [0#8])) ∧
    (d.mgmt.i3c = false → Runs (.configurationSet 3 256) d (d.served 4 [4#8])) ∧
    (∀ off len : Nat, Runs (.vpdRead off len) d (d.served 4 ([0#8] ++ (List.range len).map (fun i => vpdAt d (off + i))))) ∧
    (∀ (off : Nat) (bs : List Byte), ∃ t, Runs (.vpdWrite off bs) d (Dev.served { d with mgmt := { d.mgmt with vpd := t } } 4 [0#8]) ∧
      ∀ a, tabGetD t a (Config.vpdByte a) = if off ≤ a ∧ a < off + bs.length then bs.getD (a - off) 0#8 else vpdAt d a)) ∧
  -- Its registers: the receive buffer is released, a message is sent and has been sent, and the alert is set.
  (∀ (d : Dev) (m : Nat), d.lets (writeOf m R.MGMT_RXCTL 0x40000000#32) → Runs (.mgmtRxRelease m) d
    (Dev.wrote { d with mgmt := { d.mgmt with rx := none } } m R.MGMT_RXCTL 0x40000000#32)) ∧
  (∀ (d : Dev) (m : Nat) (v : Word), d.lets (writeOf m R.MGMT_TXCTL (v ||| 0x80000000#32)) → d.mgmt.txBusy = false → 1 ≤ fld v 0 16 →
    fld v 0 16 ≤ 4224 → Runs (.mgmtTxGo m v) d (Dev.wrote { d with
      hw := wr d.hw R.MGMT_TXCTL ((rd d.hw R.MGMT_TXCTL &&& 0xFF000000#32) ||| (v &&& 0x00FFFFFF#32))
      mgmt := { d.mgmt with txBusy := true } } m R.MGMT_TXCTL (v ||| 0x80000000#32))) ∧
  -- A length of 0 is answered ZERO_LEN and changes nothing (the model's answer of Table 16.19's condition, log entry 39).
  (∀ (d : Dev) (m : Nat) (v : Word), d.lets (writeOf m R.MGMT_TXCTL (v ||| 0x80000000#32)) → d.mgmt.txBusy = false → fld v 0 16 = 0 →
    Runs (.mgmtTxGo m v) d (settle (respond (writeOf m R.MGMT_TXCTL (v ||| 0x80000000#32)) .zeroLen 0 d))) ∧
  (∀ d : Dev, d.mgmt.txBusy = true → Runs .mgmtTxDone d { d with
    hw := irq d.hw irqMgmt 1
    mgmt := { d.mgmt with
      txBusy := false, lastTx := some (fld (rd d.hw R.MGMT_TXCTL) 16 8, txBytes d.hw (fld (rd d.hw R.MGMT_TXCTL) 0 16)) } }) ∧
  (∀ (d : Dev) (m : Nat) (v : Word), d.lets (writeOf m R.MGMT_CTRL (v ||| 4#32)) → bit v 1 = true → Runs (.mgmtAlertSet m v) d (Dev.wrote { d with
    hw := wr d.hw R.MGMT_CTRL ((rd d.hw R.MGMT_CTRL &&& ~~~3#32) ||| (v &&& 3#32)), mgmt := { d.mgmt with alert := true } }
    m R.MGMT_CTRL (v ||| 4#32))) ∧
  (∀ d : Dev, d.mgmt.ready = true → Runs .alertResponseRead d { d with mgmt := { d.mgmt with alert := false } }) ∧
  -- I3C: an address assigned enters it, RSTDAA leaves it for SMBus with 64-byte units; each change sets MODE.
  (∀ (d : Dev) (addr : Nat), d.mgmt.ready = true → bit (rd d.hw R.MGMT_CTRL) 1 = true → Runs (.i3cAddressAssign addr) d { d with
    hw := if d.mgmt.i3c then d.hw else irq d.hw irqMgmt 4, mgmt := { d.mgmt with i3c := true, i3cAddr := addr % 128 } }) ∧
  (∀ d : Dev, d.mgmt.i3c = true → Runs .i3cRstdaa d { d with
    hw := irq d.hw irqMgmt 4, mgmt := { d.mgmt with i3c := false, i3cAddr := 0, unitBytes := 64 } }) ∧
  (∀ d : Dev, d.mgmt.ready = true → Runs .mctpPacketError d { d with hw := irq d.hw irqMgmt 2 })

/-- SPDM (R392): the requests in the order of its connection states, on both paths, and the signed responses. -/
def Obligations.SpdmCommands : Prop :=
  (∀ d : Dev, d.fwServes →
    Runs (.getVersion .mctp) d (Dev.served { d with sec := { d.sec with spdmVersion := 0, spdmState := 1 } } 5
      [0x10#8, 0x04#8, 0#8, 0#8, 3#8, 0x10#8, 0x11#8, 0x12#8]) ∧
    (∀ v ∈ [0x10, 0x11, 0x12], 1 ≤ d.sec.spdmState → Runs (.getCapabilities .mctp v) d
      (Dev.served { d with sec := { d.sec with spdmVersion := v, spdmState := 2 } } 5 (leBytes 1 v ++ [0x61#8, 0#8, 0#8, 0x16#8]))) ∧
    (2 ≤ d.sec.spdmState → Runs (.negotiateAlgorithms .mctp true true) d (Dev.served { d with sec := { d.sec with spdmState := 3 } } 5
      (spdmMsg d 0x63 0 0 [0x80#8, 0x02#8, 0x02#8]))) ∧
    (3 ≤ d.sec.spdmState →
      Runs (.getDigests .mctp) d (d.served 5 (spdmMsg d 0x01 0 1 (leBytes 48 (Config.sha384 (certBytes d 0 (certLen d))).toNat))) ∧
      (∀ off len : Nat, off ≤ certLen d → Runs (.getCertificate .mctp 0 off len) d (d.served 5 (spdmMsg d 0x02 0 0
        (leBytes 2 (min len (certLen d - off)) ++ leBytes 2 (certLen d - off - min len (certLen d - off)) ++
          certBytes d off (min len (certLen d - off)))))) ∧
      -- CHALLENGE and signed measurements are signed with the attestation key over the nonce and the message; once erased they are errors.
      -- A signature waits for the DRBG.
      (d.sec.attestKey = true → drbgReady d.sec = false → ∀ (i : Nat) (nonce : List Byte), i ≤ 5 →
        Runs (.challenge .mctp 0 nonce) d { d with host := { d.host with rndHeld := d.host.rndHeld ++ [.spdmChallenge .mctp 0 nonce] } } ∧
        Runs (.getMeasurements .mctp i true nonce) d { d with
          host := { d.host with rndHeld := d.host.rndHeld ++ [.spdmMeasurements .mctp i nonce] } }) ∧
      (∀ (nonce msg : List Byte), (d.sec.attestKey = true → drbgReady d.sec = true) → msg = spdmMsg d 0x03 0 1 (leBytes 48 (Config.sha384 (certBytes d 0 (certLen d))).toNat) →
        Runs (.challenge .mctp 0 nonce) d (d.served 5 (if d.sec.attestKey then msg ++ leBytes 96 (Config.attestSign (nonce ++ msg)).toNat
          else spdmMsg d 0x7F 5 0 []))) ∧
      (∀ (i : Nat) (nonce msg : List Byte), 1 ≤ i → i ≤ 5 → msg = spdmMsg d 0x60 0 0 (leBytes 1 i ++ measurement d i) →
        Runs (.getMeasurements .mctp i false nonce) d (d.served 5 msg) ∧
        ((d.sec.attestKey = true → drbgReady d.sec = true) → Runs (.getMeasurements .mctp i true nonce) d (d.served 5 (if d.sec.attestKey then
          msg ++ leBytes 96 (Config.attestSign (nonce ++ msg)).toNat else spdmMsg d 0x7F 5 0 []))))) ∧
    -- Out of order, a request is answered Unexpected Request and changes nothing.
    (d.sec.spdmState < 3 → Runs (.getDigests .mctp) d (d.served 5 (spdmMsg d 0x7F 4 0 [])))) ∧
  -- The host's path answers the same message as completion data.
  (∀ (d : Dev) (c : Src), adminUp c d = true →
    Runs (.getVersion (.host c)) d (adminDone c .success 0 [0x10, 0x04, 0, 0, 3, 0x10, 0x11, 0x12]
      { d with sec := { d.sec with spdmVersion := 0, spdmState := 1 } }) ∧
    (3 ≤ d.sec.spdmState → ∀ (nonce msg : List Byte), msg = spdmMsg d 0x03 0 1 (leBytes 48 (Config.sha384 (certBytes d 0 (certLen d))).toNat) →
      d.sec.attestKey = true → drbgReady d.sec = true → Runs (.challenge (.host c) 0 nonce) d (adminDone c .success 0
        ((msg ++ leBytes 96 (Config.attestSign (nonce ++ msg)).toNat).map (fun b => b.toNat)) d)))

/-- The TAP and the JTAG unlock (R490, R491). -/
def Obligations.TapCommands : Prop :=
  (∀ (d : Dev) (levels cells : List (Nat × Bool)),
    Runs (.jtagExtest levels cells) d { d with
      jtag := { d.jtag with ir := 0x00, extest := true, clamp := false, highz := false, scanIn := levels, preload := cells } } ∧
    Runs (.jtagSamplePreload levels cells) d { d with
      jtag := { d.jtag with ir := 0x02, extest := false, clamp := false, highz := false, scanIn := levels, preload := cells } }) ∧
  (∀ d : Dev,
    Runs .jtagIdcode d { d with
      jtag := { d.jtag with
        ir := 0x01, extest := false, clamp := false, highz := false
        dr := d.fuse.stepMajor % 16 * 268435456 + (match d.fuse.variant with | .mx => 0x486464B | _ => 0x489664B) } } ∧
    Runs .jtagClamp d { d with jtag := { d.jtag with ir := 0x03, extest := false, clamp := true, highz := false, dr := 0 } } ∧
    Runs .jtagHighz d { d with jtag := { d.jtag with ir := 0x04, extest := false, clamp := false, highz := true, dr := 0 } } ∧
    Runs .jtagBypass d { d with jtag := { d.jtag with ir := 0x3F, extest := false, clamp := false, highz := false, dr := 0 } }) ∧
  -- A capture of DBG_CHAL draws a new challenge, once the DRBG generates.
  (∀ d : Dev, drbgReady d.sec = false → Runs .dbgChal d { d with
    host := { d.host with rndHeld := d.host.rndHeld ++ [.capture] }
    jtag := { d.jtag with ir := 0x10, extest := false, clamp := false, highz := false } }) ∧
  (∀ d : Dev, drbgReady d.sec = true → ∃ ch : BitVec 512, ch = BitVec.ofNat 512 (leNat (chalBytes d (Config.drbg d.sec.drbgDraws))) ∧ Runs .dbgChal d { d with
    sec := { d.sec with
      drbgDraws := d.sec.drbgDraws + 1, drbgReqs := d.sec.drbgReqs + 1, dbg := { d.sec.dbg with jtagChal := some ch } }
    jtag := { d.jtag with ir := 0x10, extest := false, clamp := false, highz := false, dr := ch.toNat } }) ∧
  -- A response spends the challenge and runs one verify; while one runs it waits; with attempts locked nothing is verified.
  (∀ (d : Dev) (resp : BitVec 768) (j : Jtag), j = { d.jtag with ir := 0x11, extest := false, clamp := false, highz := false } →
    (debugLocked d = true → Runs (.dbgResp resp) d { d with jtag := j }) ∧
    (debugLocked d = false → d.sec.verify ≠ none → Runs (.dbgResp resp) d { d with
      sec := { d.sec with dbg := { d.sec.dbg with jtagChal := none } }, jtag := { j with resp := some (d.sec.dbg.jtagChal, resp) } }) ∧
    (debugLocked d = false → d.sec.verify = none → ∀ (e : Dev) (g : Debug), g = { d.sec.dbg with jtagChal := none } →
      e = { d with sec := { d.sec with dbg := g }, jtag := j } → Runs (.dbgResp resp) d { e with
        hw := wr d.hw R.SIGV_STAT (setBit (rd d.hw R.SIGV_STAT) 31)
        sec := { e.sec with verify := some { result := (match d.sec.dbg.jtagChal with
                                               | some c => debugVerify e c (leBytes 96 resp.toNat).reverse
                                               | none => .reject)
                                             reason := 0, jtag := true } } })) ∧
  -- Its verify ends: unlocked when it passed, and counted as a failure otherwise.
  (∀ (d : Dev) (v : Verify), d.sec.verify = some v → v.jtag = true → d.jtag.resp = none → ∃ e, Runs .sigvVerifyDone d e ∧
    e = { d with hw := e.hw, sec := { d.sec with verify := none, dbg := e.sec.dbg } } ∧
    e.sec.dbg = (if v.result = .ok then { d.sec.dbg with unlocked := true } else { d.sec.dbg with failures := d.sec.dbg.failures + 1 })) ∧
  (∀ (d : Dev) (busy : Bool), (busy = true ↔ (∃ v, d.sec.verify = some v ∧ v.jtag = true) ∨ d.jtag.resp ≠ none) → Runs .dbgStat d { d with
    jtag := { d.jtag with
      ir := 0x12, extest := false, clamp := false, highz := false
      dr := (if d.sec.dbg.unlocked then 1 else 0) + (if busy then 2 else 0) + 4 * min 3 d.sec.dbg.failures } }) ∧
  -- DMI reads zero and ignores writes while debug is locked; unlocked it takes a write and reads a free value.
  (∀ (d : Dev) (addr : Nat) (write : Bool) (v : Word), d.sec.dbg.unlocked = false → Runs (.dmi addr write v) d { d with
    jtag := { d.jtag with ir := 0x13, extest := false, clamp := false, highz := false, dr := 0 } }) ∧
  (∀ (d : Dev) (addr : Nat) (v : Word), d.sec.dbg.unlocked = true →
    Runs (.dmi addr true v) d { d with
      jtag := { d.jtag with ir := 0x13, extest := false, clamp := false, highz := false, dm := tabPut d.jtag.dm addr v, dr := v.toNat } } ∧
    ∃ x : Nat, Runs (.dmi addr false v) d { d with
      hw := { d.hw with free := d.hw.free + 1 }
      jtag := { d.jtag with ir := 0x13, extest := false, clamp := false, highz := false, dr := x } })

/-- The event recorder (R478–R486, R492): posts, the flush, the clear, the limits and the scan of the region. -/
def Obligations.EventCommands : Prop :=
  -- A post is recorded or its outcome is told to the master that posted.
  (∀ (d : Dev) (source code sev : Nat) (cont : Bool) (a0 a1 a2 : Word) (o : PostOut) (h : Hw), evPost d.hw source code sev cont a0 a1 a2 = (o, h) →
    (source < 128 → Runs (.eventPost source code sev cont a0 a1 a2) d { d with
      hw := mwr h R.EVREC_PRSP source (match o with
        | .range => 0x20000000#32 | .dropped => 0x42000000#32 | .suppressed => 0x04000000#32 | .stored => 0#32) }) ∧
    (128 ≤ source → Runs (.eventPost source code sev cont a0 a1 a2) d { d with hw := h })) ∧
  -- What decides a post, in order: its code, FULL, EN, CONT after a record not stored, the code's limit, and room in the buffer.
  (∀ (h : Hw) (source code sev : Nat) (cont : Bool) (a0 a1 a2 : Word),
    (511 < code → evPost h source code sev cont a0 a1 a2 = (.range, h)) ∧
    (code ≤ 511 → h.ev.full = true → (evPost h source code sev cont a0 a1 a2).1 = .dropped) ∧
    (code ≤ 511 → h.ev.full = false → bit (rd h R.EVREC_CTRL) 0 = false → (evPost h source code sev cont a0 a1 a2).1 = .dropped) ∧
    (code ≤ 511 → h.ev.full = false → bit (rd h R.EVREC_CTRL) 0 = true → cont = true → tabGetD h.ev.lastStored source false = false →
      evPost h source code sev cont a0 a1 a2 = (.suppressed, h)) ∧
    (code ≤ 511 → h.ev.full = false → bit (rd h R.EVREC_CTRL) 0 = true → cont = false → (evBucket h code).rate = 0 →
      h.ev.buf.length + (if h.ev.dropSince then 2 else 1) ≤ 2048 → (evPost h source code sev cont a0 a1 a2).1 = .stored)) ∧
  -- A stored record stands at the end of the buffer with its time, and its slot of the ring holds its bytes.
  (∀ (h : Hw) (source code sev : Nat) (a0 a1 a2 : Word), code ≤ 511 → h.ev.full = false → bit (rd h R.EVREC_CTRL) 0 = true →
    (evBucket h code).rate = 0 → h.ev.dropSince = false → h.ev.buf.length < 2048 → h.ev.scanned = false → ∃ r : EvRecd,
    r = { time := h.time, boot := h.bootCount, code := code, sev := sev, cont := false, source := source, supp := (evBucket h code).supp
          a0 := a0, a1 := a1, a2 := a2 } ∧
    (evPost h source code sev false a0 a1 a2).2.ev.buf = h.ev.buf ++ [r] ∧
    (evPost h source code sev false a0 a1 a2).2.ev.wr = (h.ev.wr + 1) % 2048) ∧
  -- FLUSH copies the buffer to the region; CLEAR erases the region and records it; both are RW writes too.
  (∀ (d : Dev) (m : Nat) (v : Word), d.lets (writeOf m R.EVREC_CTRL (v ||| 2#32)) → ∀ h : Hw,
    h = wr d.hw R.EVREC_CTRL ((rd d.hw R.EVREC_CTRL &&& ~~~0x7701#32) ||| (v &&& 0x7701#32)) →
    Runs (.evrecFlushWrite m v) d (Dev.wrote { d with hw := evFlush (if bit v 2 then evClear h else h) } m R.EVREC_CTRL (v ||| 2#32))) ∧
  (∀ (d : Dev) (m : Nat) (v : Word), d.lets (writeOf m R.EVREC_CTRL (v ||| 4#32)) → ∀ h : Hw,
    h = evClear (wr d.hw R.EVREC_CTRL ((rd d.hw R.EVREC_CTRL &&& ~~~0x7701#32) ||| (v &&& 0x7701#32))) →
    Runs (.evrecClearWrite m v) d (Dev.wrote { d with hw := if bit v 1 then evFlush h else h } m R.EVREC_CTRL (v ||| 4#32))) ∧
  (∀ h : Hw, h.ev.buf = [] → evFlush h = irq h irqEvrec 0) ∧
  -- A record that the region takes: its bytes are programmed at the append point.
  (∀ (h : Hw) (e : EvRecd), evUsed h < 8192 → rindLocked h.rind (144 + evUsed h / 2048) = false → evCopy [e] h = ([], { h with
    rind := rindProg h.rind h.free (144 * 65536 + 32 * evUsed h) (evBytes e), ev := { h.ev with valid := h.ev.valid + 1 } })) ∧
  -- The limit of the selected code: its bucket is refilled to now and clipped to the new burst.
  (∀ (d : Dev) (m c : Nat) (v : Word) (b : Bucket), d.lets (writeOf m R.EVREC_RL v) → c = fld (rd d.hw R.EVREC_RL_SEL) 0 9 → b = evBucket d.hw c →
    Runs (.evrecRlWrite m v) d (Dev.wrote { d with
      hw := { d.hw with
        ev := { d.hw.ev with
          buckets := tabPut d.hw.ev.buckets c { b with
            rate := fld v 0 16, burst := fld v 16 16, level := min b.level (fld v 16 16 * 25000000) } } } } m R.EVREC_RL v)) ∧
  -- The scan counts the region's valid records, stops recording where region and buffer are full, and a flush whose trigger came before it
  -- starts now; a second scan is none.
  (∀ d : Dev, d.hw.ev.scanned = true → Runs .evrecRegionScan d d) ∧
  (∀ (d : Dev) (stop due : Bool) (h g : Hw), d.hw.ev.scanned = false → stop = decide (8192 ≤ evUsed d.hw + d.hw.ev.buf.length) →
    h = { d.hw with ev := { d.hw.ev with scanned := true, valid := evValid d.hw, full := stop } } →
    g = (if stop then irq h irqEvrec 2 else h) →
    (due = true ↔ (∃ e ∈ d.hw.ev.buf, fld (rd g R.EVREC_CTRL) 8 3 ≤ e.sev) ∨
      (fld (rd g R.EVREC_WM) 0 12 ≠ 0 ∧ fld (rd g R.EVREC_WM) 0 12 ≤ d.hw.ev.buf.length) ∨ stop = true) →
    Runs .evrecRegionScan d { d with hw := if due ∧ d.hw.ev.buf ≠ [] then evFlush g else g })

/-- Media time, outage sweeps and sampling (R182, R310–R322). -/
def Obligations.CareCommands : Prop :=
  -- Media time advances by one second, with an FDP event of every reclaim unit whose time limit it passes; it is saved as a settings
  -- record, which no trial boot holds back, and the counters that have changed are recorded with it (their time: DESIGN CHOICE, log entry 116).
  (∀ d : Dev, Runs .mediaTimeTick d (fdpTimes d.aff.mtime { d with aff := { d.aff with mtime := d.aff.mtime + 1, ticks := 0 } })) ∧
  (∀ (d : Dev) (old : Nat), (∀ q ∈ d.med.sbs, q.2.closed = true ∨ (q.2.type ≠ 1 ∧ q.2.type ≠ 2) ∨ q.2.opened + 604800 < old ∨
    d.aff.mtime ≤ q.2.opened + 604800) → fdpTimes old d = d) ∧
  (∀ d e : Dev, e = sjWrite (sjKey 1 0) (leBytes 8 d.aff.mtime) d → Runs .mediaTimeSave d ((formatCounts e).foldl (fun x q =>
    if countRecord x q.1 = q.2 then x else sjPut 0x30 q.1 (leBytes 8 q.2) x) e)) ∧
  -- Ten minutes without a Timestamp start an outage sweep, as SWEEP does; a Timestamp has made it needless.
  (∀ d : Dev, d.aff.stamped = true → Runs .timestampWaitExpiry d d) ∧
  (∀ d : Dev, d.aff.stamped = false → d.aff.st ≠ 2 → bit (rd d.hw R.AFFINEUR_CTRL) 0 = true →
    Runs .timestampWaitExpiry d { d with
      aff := { d.aff with st := 2, paused := some (d.aff.todo, d.aff.total), todo := popOrder d (fun b => b.opened)
                          total := (popOrder d (fun b => b.opened)).length } }) ∧
  (∀ (d : Dev) (m : Nat) (v : Word), d.lets (writeOf m R.AFFINEUR_CTRL (v ||| 2#32)) → bit (rd d.hw R.AFFINEUR_CTRL) 0 = true →
    bit v 0 = true → d.aff.st ≠ 2 →
    Runs (.outageSweepStart m v) d (Dev.wrote { d with
      hw := md d.hw R.AFFINEUR_CTRL (fun w => rwWrite 5#32 w (v ||| 2#32))
      aff := { d.aff with st := 2, paused := some (d.aff.todo, d.aff.total), todo := popOrder d (fun b => b.opened)
                          total := (popOrder d (fun b => b.opened)).length } } m R.AFFINEUR_CTRL (v ||| 2#32))) ∧
  (∀ (d : Dev) (m : Nat) (v : Word), d.lets (writeOf m R.AFFINEUR_CTRL (v ||| 2#32)) → bit (rd d.hw R.AFFINEUR_CTRL) 0 = true →
    bit v 0 = true → d.aff.st = 2 →
    Runs (.outageSweepStart m v) d (Dev.wrote { d with
      hw := md d.hw R.AFFINEUR_CTRL (fun w => rwWrite 5#32 w (v ||| 2#32)) } m R.AFFINEUR_CTRL (v ||| 2#32))) ∧
  -- A sweep takes the population in order of opening time.
  (∀ (d : Dev) (f : Blk → Nat), (popOrder d f).Perm ((population d).map (fun q => q.1)) ∧
    (tabRising d.med.blks = true → (popOrder d f).Pairwise (fun a b =>
      f (tabGetD d.med.blks a Blk.init) ≤ f (tabGetD d.med.blks b Blk.init)))) ∧
  -- A cycle or sweep samples its oldest block with a full pilot estimate at its pilot wordline, in the deadline class S3; the same
  -- estimate serves a report of that block.
  (∀ (d : Dev) (points spacing key : Nat) (rest : List Nat), (d.aff.st = 1 ∨ d.aff.st = 2) → d.aff.todo = key :: rest →
    inPopulation (blkGet d (key / 4096) (key % 4096)) = true → sweepStatus points spacing = .ok → ∃ e,
    Runs (.cadenceSample points spacing) d e ∧
    e.aff = { d.aff with todo := rest, reports := d.aff.reports.filter (fun k => decide (k ≠ key)) } ∧
    runGet e d.fl.nextRun = some { runAt d (.sample (d.aff.reports.contains key))
      { die := key / 4096, block := key % 4096, wl := 0, page := 0, plane := 0, slot := 0 } (blkGet d (key / 4096) (key % 4096)).sb 0 3
      (s3Deadline d) (decide (3 ≤ (blkGet d (key / 4096) (key % 4096)).type)) with points := points, spacing := spacing } ∧
    ((dieGet d (key / 4096)).rq.length < 255 → d.fl.nextRun ∈ (dieGet e (key / 4096)).rq)) ∧
  (∀ (d : Dev) (points spacing : Nat), d.aff.st ≠ 1 → d.aff.st ≠ 2 → Runs (.cadenceSample points spacing) d d) ∧
  -- A block that has left the population is dropped; the last one ends the cycle or sweep.
  (∀ (d : Dev) (points spacing key : Nat) (rest : List Nat), (d.aff.st = 1 ∨ d.aff.st = 2) → d.aff.todo = key :: rest →
    inPopulation (blkGet d (key / 4096) (key % 4096)) = false →
    Runs (.cadenceSample points spacing) d (cycleCheck { d with aff := { d.aff with todo := rest } })) ∧
  (∀ d : Dev, d.aff.todo = [] → (∀ q ∈ d.fl.runs, q.2.serves ≠ .sample false) → d.aff.st ≠ 0 → d.aff.total ≠ 0 →
    cycleCheck d = match d.aff.paused with
      | some (q, n) => { d with hw := irq d.hw irqAffineur 0
                                aff := { d.aff with st := affState (irq d.hw irqAffineur 0), paused := none, todo := q, total := n } }
      | none => { d with hw := irq d.hw irqAffineur 0
                         aff := { d.aff with cycles := d.aff.cycles + 1, todo := popOrder d (fun b => b.sampled)
                                             total := (popOrder d (fun b => b.sampled)).length } }) ∧
  -- The oldest reported block gets its estimate; a block erased since is dropped.
  (∀ (d : Dev) (points spacing key : Nat) (rest : List Nat), d.aff.reports = key :: rest → sweepStatus points spacing = .ok →
    inPopulation (blkGet d (key / 4096) (key % 4096)) = true → ∃ e, Runs (.reportEstimate points spacing) d e ∧
    e.aff = { d.aff with reports := rest } ∧
    runGet e d.fl.nextRun = some { runAt d (.sample true)
      { die := key / 4096, block := key % 4096, wl := 0, page := 0, plane := 0, slot := 0 } (blkGet d (key / 4096) (key % 4096)).sb 0 3
      (s3Deadline d) (decide (3 ≤ (blkGet d (key / 4096) (key % 4096)).type)) with points := points, spacing := spacing }) ∧
  (∀ (d : Dev) (points spacing key : Nat) (rest : List Nat), d.aff.reports = key :: rest →
    inPopulation (blkGet d (key / 4096) (key % 4096)) = false →
    Runs (.reportEstimate points spacing) d { d with aff := { d.aff with reports := rest } })

/-- Learning, refresh, backlog and wear (R183–R185, R319–R327). -/
def Obligations.LearningAndRefreshCommands : Prop :=
  -- After 24 h a bin with 4 estimates or more is updated: no offset moves by more than 2 or leaves ±24, and the batch begins anew.
  (∀ (d : Dev) (i : Nat), i < 256 → ((batchGet d i).n < 4 ∨ fld (rd d.hw R.AFFINEUR_LEARN) 8 8 = 0) → Runs (.binLearnTimeout i) d d) ∧
  (∀ (d : Dev) (i dom : Nat), i < 256 → 4 ≤ (batchGet d i).n → fld (rd d.hw R.AFFINEUR_LEARN) 8 8 ≠ 0 → entGate d 26 i = some dom →
    Runs (.binLearnTimeout i) d (wakeReq dom 2 d)) ∧
  (∀ (d d1 : Dev) (i : Nat) (q : Option (List Byte)), i < 256 → 4 ≤ (batchGet d i).n → fld (rd d.hw R.AFFINEUR_LEARN) 8 8 ≠ 0 →
    entGate d 26 i = none → affSlot i d = (q, d1) → q.bind entSelect = none →
    Runs (.binLearnTimeout i) d { d1 with aff := { d1.aff with batches := tabDel d1.aff.batches i } }) ∧
  (∀ (d d1 f : Dev) (i : Nat) (slot e : List Byte) (ms : List (Nat × Int × Bool)), i < 256 → 4 ≤ (batchGet d i).n →
    fld (rd d.hw R.AFFINEUR_LEARN) 8 8 ≠ 0 → entGate d 26 i = none → affSlot i d = (some slot, d1) → entSelect slot = some e →
    ms = ((batchGet d i).counts.filter (fun c => decide (c.2 ≠ 0))).map (fun c =>
      (c.1, offMove (sbyteAt e (15 + c.1)) (sbyteAt (facEntry d i) (15 + c.1)) (tabGetD (batchGet d i).sums c.1 0) c.2)) →
    f = entStore i slot e (entMoved e (facEntry d i) (ms.foldl (fun t m => tabPut t m.1 m.2.1) []) (batchGet d i).n d.aff.mtime)
      { d1 with aff := { d1.aff with batches := tabDel d1.aff.batches i } } →
    Runs (.binLearnTimeout i) d (if ms.any (fun m => m.2.2) then evFree i 0 { f with hw := irq f.hw irqAffineur 5 } else f)) ∧
  (∀ (old fac sum : Int) (count : Nat), fac - 24 ≤ old → old ≤ fac + 24 → -128 ≤ old → old ≤ 127 →
    (offMove old fac sum count).1.natAbs ≤ 2 ∧ fac - 24 ≤ old + (offMove old fac sum count).1 ∧
    old + (offMove old fac sum count).1 ≤ fac + 24 ∧ -128 ≤ old + (offMove old fac sum count).1 ∧
    old + (offMove old fac sum count).1 ≤ 127) ∧
  -- The learned table goes to the calibration area's other copy, at most once a day, if it has changed and that sector is not locked; a
  -- trial boot writes none.
  (∀ d : Dev, (d.aff.learnDirty = false ∨ d.boot.trial = true ∨ rindLocked d.hw.rind (if d.aff.learnCopy then 132 else 131) = true ∨
    d.hw.time.toNat < d.aff.learnSaved.toNat + 2160000000000) → Runs .learnedTableWriteback d d) ∧
  (∀ d : Dev, d.aff.learnDirty = true → d.boot.trial = false → rindLocked d.hw.rind (if d.aff.learnCopy then 132 else 131) = false →
    d.aff.learnSaved.toNat + 2160000000000 ≤ d.hw.time.toNat →
    Runs .learnedTableWriteback d { d with
      hw := { d.hw with
        rind := rindProg (rindErase d.hw.rind (if d.aff.learnCopy then 132 else 131)) d.hw.free
          ((if d.aff.learnCopy then 132 else 131) * 65536) ((List.range 256).flatMap (fun i =>
          match (memBytes d.hw (binBase d.hw + 128 * i) 128).1 with
          | some s => (entSelect s).getD (List.replicate 64 0#8)
          | none => List.replicate 64 0#8)) }
      aff := { d.aff with learnDirty := false, learnSaved := d.hw.time, learnCopy := !d.aff.learnCopy } }) ∧
  -- A refresh: none while the Affineur is off or its tokens are spent; else the first entry that can start, by its block's type.
  (∀ d : Dev, (bit (rd d.hw R.AFFINEUR_CTRL) 0 = false ∨ capAllows d 2 = false ∨ flushing d = true) → Runs .refreshStart d d) ∧
  (∀ d : Dev, bit (rd d.hw R.AFFINEUR_CTRL) 0 = true → capAllows d 2 = true → flushing d = false →
    Runs .refreshStart d (refreshFirst (d.aff.queue.filter (refreshable d)) d)) ∧
  (∀ d : Dev, refreshFirst [] d = d) ∧
  (∀ (d e : Dev) (x : RefEnt) (xs : List RefEnt), refreshOne x d = e →
    (e.aff.queue = d.aff.queue ∧ e.med.moves = d.med.moves → refreshFirst (x :: xs) d = refreshFirst xs e) ∧
    (¬ (e.aff.queue = d.aff.queue ∧ e.med.moves = d.med.moves) →
      refreshFirst (x :: xs) d = { e with aff := { e.aff with rewrites := e.aff.rewrites + 1 } })) ∧
  (∀ (d : Dev) (x : RefEnt) (s : Sb) (zk : Nat) (z : Zone), (tabGetD d.med.blks x.blk Blk.init).type = 1 →
    sbGet d (tabGetD d.med.blks x.blk Blk.init).sb = some s →
    zoneOfSb d (tabGetD d.med.blks x.blk Blk.init).sb = some (zk, z) → z.secure = none →
    refreshOne x d = zoneMoveStart zk z (tabGetD d.med.blks x.blk Blk.init).sb s d) ∧
  (∀ (d : Dev) (x : RefEnt) (s : Sb), (tabGetD d.med.blks x.blk Blk.init).type = 2 →
    sbGet d (tabGetD d.med.blks x.blk Blk.init).sb = some s → liveUnits d (tabGetD d.med.blks x.blk Blk.init).sb = [] →
    refreshOne x d = sbErase (tabGetD d.med.blks x.blk Blk.init).sb { d with
      med := { d.med with openSb := d.med.openSb.filter (fun q => decide (q.2 ≠ (tabGetD d.med.blks x.blk Blk.init).sb)) } }) ∧
  (∀ (d : Dev) (x : RefEnt), (tabGetD d.med.blks x.blk Blk.init).type = 4 → refreshOne x d = journalRefresh x.blk d) ∧
  (∀ (d : Dev) (x : RefEnt), (tabGetD d.med.blks x.blk Blk.init).type = 6 →
    refreshOne x d = queuePut (d.aff.queue.filter (fun y => decide (y.blk ≠ x.blk))) (volWrite d)) ∧
  (∀ (d : Dev) (x : RefEnt), (tabGetD d.med.blks x.blk Blk.init).type = 7 →
    refreshOne x d = { d with
      aff := { d.aff with queue := d.aff.queue.filter (fun y => decide (y.blk ≠ x.blk))
                          wearImage := d.med.blks.map (fun q => (q.1, q.2.erases)), wearAt := d.aff.mtime }
      hw := (queuePut (d.aff.queue.filter (fun y => decide (y.blk ≠ x.blk))) d).hw }) ∧
  -- Midnight: each Pack's backlog becomes its newest daily value, and the flag follows R323's two conditions.
  (∀ d : Dev, tabRising d.aff.daily = true → ∃ e, Runs .backlogMidnight d e ∧ e.fl = d.fl ∧ e.med = d.med ∧
    (∀ p < packCount d.fuse, tabGetD e.aff.daily p [] = (backlogOf d p :: tabGetD d.aff.daily p []).take 8) ∧
    (∀ b < 4, b ≠ 2 → e.aff.ew.getLsbD b = d.aff.ew.getLsbD b) ∧
    ((∃ p < packCount d.fuse, risen (tabGetD e.aff.daily p []) = true ∧
      ((population d).filter (fun q => decide (packOf (q.1 / 4096) = p))).length < 100 * backlogOf d p) → e.aff.ew.getLsbD 2 = true) ∧
    ((∀ p < packCount d.fuse, risen (tabGetD e.aff.daily p []) = false ∧ (fallen (tabGetD e.aff.daily p []) = true ∨
      1000 * backlogOf d p < ((population d).filter (fun q => decide (packOf (q.1 / 4096) = p))).length)) → e.aff.ew.getLsbD 2 = false)) ∧
  -- The wear table's image holds every block's erase count.
  (∀ d : Dev, Runs .wearTableWrite d { d with
    aff := { d.aff with wearImage := d.med.blks.map (fun q => (q.1, q.2.erases)), wearAt := d.aff.mtime } })

/-- Flash channels: profiles, training, LUN polls and timeouts (R148–R163, R168–R172). -/
def Obligations.ChannelCommands : Prop :=
  -- The profile window takes words while EN = 0; PROF_OK follows the checksum over all of it.
  (∀ (d : Dev) (m n i : Nat) (v : Word), d.lets (writeOf m (R.FCH_PROF n i) v) → n < chCount d.fuse → i < 1024 →
    bit (rd d.hw (R.FCH_CTRL n)) 0 = false →
    Runs (.fchProfileWindowWrite m n i v) d (Dev.wrote { d with
      hw := md (wr d.hw (R.FCH_PROF n i) v) (R.FCH_CTRL n)
        (fun w => putBit w 1 (Config.profileOk (profWindow (wr d.hw (R.FCH_PROF n i) v) n))) } m (R.FCH_PROF n i) v)) ∧
  (∀ (d : Dev) (m n i : Nat) (v : Word), d.lets (writeOf m (R.FCH_PROF n i) v) → n < chCount d.fuse → i < 1024 →
    bit (rd d.hw (R.FCH_CTRL n)) 0 = true → Runs (.fchProfileWindowWrite m n i v) d (Dev.wrote d m (R.FCH_PROF n i) v)) ∧
  -- EN = 1 is taken with PROF_OK = 1 only; ZQ_AUTO is written with it.
  (∀ (d : Dev) (m n : Nat) (v : Word), d.lets (writeOf m (R.FCH_CTRL n) (v ||| 1#32)) → n < chCount d.fuse → ∃ e,
    e = { d with hw := wr d.hw (R.FCH_CTRL n) (putBit (putBit (rd d.hw (R.FCH_CTRL n)) 3 (bit v 3)) 0
        (bit (rd d.hw (R.FCH_CTRL n)) 1 || bit (rd d.hw (R.FCH_CTRL n)) 0)) } ∧
    Runs (.fchEnWrite m n v) d (Dev.wrote (if bit v 2 then retrainAsked n e else e) m (R.FCH_CTRL n) (v ||| 1#32))) ∧
  -- RETRAIN and FCH_DRIVE retrain every target of a channel that is ON, and set CAL_DONE.
  (∀ (d : Dev) (m n : Nat) (v : Word), d.lets (writeOf m (R.FCH_CTRL n) (v ||| 4#32)) → n < chCount d.fuse → ∃ h,
    h = wr d.hw (R.FCH_CTRL n) (putBit (putBit (rd d.hw (R.FCH_CTRL n)) 3 (bit v 3)) 0
      (bit v 0 && (bit (rd d.hw (R.FCH_CTRL n)) 1 || bit (rd d.hw (R.FCH_CTRL n)) 0))) ∧
    Runs (.fchRetrainWrite m n v) d (Dev.wrote (retrainAsked n { d with hw := h }) m (R.FCH_CTRL n) (v ||| 4#32))) ∧
  (∀ (d : Dev) (m n : Nat) (v : Word), d.lets (writeOf m (R.FCH_DRIVE n) v) → n < chCount d.fuse →
    Runs (.fchDriveWrite m n v) d (Dev.wrote (retrainAsked n { d with hw := md d.hw (R.FCH_DRIVE n) (fun w => rwWrite 0x733#32 w v) })
      m (R.FCH_DRIVE n) v)) ∧
  (∀ (d x : Dev) (n : Nat), x = (if domOn d.pwr (n + 1) then [0, 1, 2, 3].foldl (fun y ce => retrainCe n ce y) d else d) →
    retrainAsked n d = { x with hw := irq x.hw (irqFch n) 0 }) ∧
  -- A trained target is retrained: it trains, or fails after three attempts (which of the two is a free value: DESIGN CHOICE, log entry 102).
  (∀ (d : Dev) (n ce : Nat), (chanGet d n).trained.getLsbD ce = false → retrainCe n ce d = d) ∧
  (∀ (d : Dev) (n ce : Nat), (chanGet d n).trained.getLsbD ce = true → ∃ ok, retrainCe n ce d = targetTrain n ce ok { d with hw := spend d.hw }) ∧
  (∀ (d : Dev) (n ce : Nat), ∃ x y, x = busUse (32 * n + 8 * ce) [.setFeatures, .zqLong] d ∧ y = chanGet x n ∧
    targetTrain n ce true d = chanPut x n { y with
      rate := trainRate d n, trained := y.trained ||| (1#4 <<< ce), failed := y.failed &&& ~~~(1#4 <<< ce)
      needTrain := y.needTrain &&& ~~~(1#4 <<< ce), trainT := tabPut y.trainT ce y.pkgT } ∧
    targetTrain n ce false d = ((targetDies x n ce).filter (fun k => awaited x k)).foldl (fun z k =>
        if (dieGet z k).returning.isSome then retEnd k false (some 9) z else chanLeaveCheck n (dieStateSet k 4 1 z))
      (chanPut { x with hw := evUnit (irq x.hw (irqFch n) 9) (64 + n) 0x012 3 n ce 0 } n { y with
        failed := y.failed ||| (1#4 <<< ce), trained := y.trained &&& ~~~(1#4 <<< ce), needTrain := y.needTrain &&& ~~~(1#4 <<< ce) })) ∧
  -- The rate is the profile's, or the highest of Table 5.1 within the slew step's cap.
  (∀ (d : Dev) (n : Nat), trainRate d n ≤ slewCap (fld (rd d.hw (R.FCH_DRIVE n)) 0 2) ∧
    ((prof d).rate ≤ slewCap (fld (rd d.hw (R.FCH_DRIVE n)) 0 2) → trainRate d n = (prof d).rate) ∧
    (slewCap (fld (rd d.hw (R.FCH_DRIVE n)) 0 2) < (prof d).rate → trainRate d n ∈ ratesDown ∧
      ∀ r ∈ ratesDown, r ≤ slewCap (fld (rd d.hw (R.FCH_DRIVE n)) 0 2) → r ≤ trainRate d n)) ∧
  -- A poll of a LUN that is busy changes nothing but the bus; one that finds it ready is LUN_READY.
  (∀ (d : Dev) (die plane : Nat) (pass idOk : Bool) (trainOk : BitVec 4) (verified : Bool), die < 32 * chCount d.fuse →
    Runs (.statusPoll die plane false pass idOk trainOk verified) d (if pollBarred d (chOf die) then d else busUse die [.readStatus] d) ∧
    ∃ e, e = settled (fun x => zonesStuck (parkSweep (lunReady die plane pass idOk trainOk verified x))) d ∧
    Runs (.statusPoll die plane true pass idOk trainOk verified) d e ∧ Runs (.lunReady die plane pass idOk trainOk verified) d e) ∧
  -- What each of these adds: reads are decided again where their die's state changes, stuck zones are finished, empty park superblocks erased.
  (∀ (f : Dev → Dev) (d : Dev), (∀ q ∈ (f d).fl.dies, q.2.rq = [] ∨ dieCode d q.1 = dieCode (f d) q.1) →
    (∀ q ∈ (f d).fl.runs, q.2.st ≠ .again) → settled f d = f d) ∧
  (∀ d : Dev, (∀ q ∈ d.ten.zones, isActive q.2.st = false) → zonesStuck d = d) ∧
  (∀ d : Dev, (∀ q ∈ d.med.sbs, q.2.type ≠ 3) → parkSweep d = d) ∧
  -- LUN_READY ends the array operation that runs, or a read on the plane; no poll is sent while a read of S0 is ready for its transfer.
  (∀ (d b : Dev) (die plane : Nat) (pass idOk : Bool) (trainOk : BitVec 4) (verified : Bool), b = busUse die [.readStatus] d →
    (pollBarred d (chOf die) = true → lunReady die plane pass idOk trainOk verified d = d) ∧
    (∀ r, pollBarred d (chOf die) = false → (dieGet d die).arr = some r → r.suspended = false →
      lunReady die plane pass idOk trainOk verified d = arrEnd die pass idOk trainOk verified b) ∧
    (pollBarred d (chOf die) = false → (∀ r, (dieGet d die).arr = some r → r.suspended = true) →
      (∀ r, (arrReads d (dieGet d die)).find? (fun r => match runGet d r with | some x => (runPlanes d x).contains plane | none => false) = some r →
        lunReady die plane pass idOk trainOk verified d = readEnd die r b) ∧
      ((arrReads d (dieGet d die)).find? (fun r => match runGet d r with | some x => (runPlanes d x).contains plane | none => false) = none →
        lunReady die plane pass idOk trainOk verified d = b))) ∧
  -- The end of an array operation: its token is returned and its result handled.
  (∀ (d e : Dev) (die : Nat) (pass idOk : Bool) (trainOk : BitVec 4) (verified : Bool) (r : ArrRun), (dieGet d die).arr = some r → r.suspended = false →
    e = diePut d die { dieGet d die with arr := none } →
    (∀ j, r.op = .program → r.job = some j →
      arrEnd die pass idOk trainOk verified d = leaveCheck die (programEnd die j pass (tokenBack j.token e))) ∧
    (∀ j, r.op = .erase → r.job = some j →
      arrEnd die pass idOk trainOk verified d = leaveCheck die (eraseEnd die j pass verified (tokenBack j.token e))) ∧
    (r.op = .reset → r.job = none → arrEnd die pass idOk trainOk verified d = leaveCheck die (resetEnd die idOk trainOk e)) ∧
    (r.op = .resetLun → r.job = none → arrEnd die pass idOk trainOk verified d =
      leaveCheck die (if (dieGet d die).ready then e else resetEnd die idOk trainOk e))) ∧
  -- An erase that passed leaves the block free with its count raised, unless it is suspect or at its wear limit; one that failed retires it.
  (∀ (d e : Dev) (die : Nat) (verified again : Bool) (j : FJob), j.serves = .erase again →
    (eraseSecure d die j.block = false ∨ verified = true →
      eraseEnd die j true verified d = placeLoose (eraseDone die j.block d)) ∧
    (eraseSecure d die j.block = true → verified = false → again = false →
      eraseEnd die j true verified d = jobAdd die (.erase true) true j.slc j.block 0 d) ∧
    (e = diePut { d with hw := irq d.hw (irqFch (chOf die)) 12 } die { dieGet d die with eraseFails := satAdd 16 (dieGet d die).eraseFails 1 } →
      eraseEnd die j false verified d = blkRetire die j.block e)) ∧
  (∀ (d e : Dev) (die b : Nat), e = blkPut d die b { Blk.init with erases := (blkGet d die b).erases + 1, urgents := (blkGet d die b).urgents } →
    eraseDone die b d = gcAgain (if (blkGet d die b).suspect = true ∨ (fld (rd d.hw R.AFFINEUR_WEAR) 16 16 ≠ 0 ∧
        fld (rd d.hw R.AFFINEUR_WEAR) 16 16 * (prof d).npe ≤ 100 * ((blkGet d die b).erases + 1))
      then blkRetire die b e else e)) ∧
  -- A read goes by bypass to the decoders, or asks for a detector's context.
  (∀ (d : Dev) (die run : Nat) (x : Run), runGet d run = some x →
    (wantsDet d x = false → readEnd die run d = pageOut run die (toDecodeWith run [] [] d)) ∧
    (wantsDet d x = true → x.det = none → readEnd die run d = ctxRequest run d)) ∧
  -- A timeout of what has not run for twice its maximum is none; else Reset LUN runs, what it aborts has failed, and an erase is retried once.
  (∀ (d : Dev) (die : Nat) (ok : BitVec 4), die < 32 * chCount d.fuse → Runs (.dieTimeout ⟨die, ok⟩) d (settled (fun x =>
    zonesStuck ((dieTimeout die ok x).1.foldl (fun y r => stepFail r y) (dieTimeout die ok x).2)) d)) ∧
  (∀ (d : Dev) (die : Nat) (ok : BitVec 4), timedOut d (dieGet d die) = false → dieTimeout die ok d = ([], d)) ∧
  (∀ (d : Dev) (die : Nat) (ok : BitVec 4) (r : ArrRun) (j : FJob) (ts : List Nat), timedOut d (dieGet d die) = true →
    (dieGet d die).arr = some r → r.suspended = false → r.op = .erase → r.last = false → r.job = some j → j.serves = .erase false →
    (dieGet d die).returning = none →
    ts = (dieGet d die).timeouts.filter (fun t => decide (d.hw.time.toNat < t + day)) ++ [d.hw.time.toNat] → ∃ e,
    e = jobAdd die (.erase true) true j.slc j.block 0 (busUse die [.resetLun] (tokenBack j.token (diePut { d with
      hw := evUnit (irq d.hw (irqFch (chOf die)) 8) (64 + chOf die) 0x010 3 die (opCode (dieGet d die)) ts.length } die
        { dieGet d die with
          timeouts := ts, arr := some (arrNew .resetLun none d.hw.time), vec := []
          reading := (dieGet d die).reading.filter (fun q => !(arrReads d (dieGet d die)).contains q) }))) ∧
    dieTimeout die ok d = (arrReads d (dieGet d die), if 3 ≤ ts.length ∧ (dieGet d die).st = 1 then dieTakeOut die 1 e else e)) ∧
  -- ZQ Calibration Short on each fitted target of a channel that is ON, while ZQ_AUTO is set; targets that moved TEMP_DELTA degrees are
  -- retrained.
  (∀ (d : Dev) (n : Nat), n < chCount d.fuse → (domOn d.pwr (n + 1) = false ∨ bit (rd d.hw (R.FCH_CTRL n)) 3 = false ∨
    fld (rd d.hw (R.FCH_TRAIN n)) 0 8 = 0) → Runs (.zqCalShortTimer n) d d) ∧
  (∀ (d e : Dev) (n : Nat), n < chCount d.fuse → domOn d.pwr (n + 1) = true → bit (rd d.hw (R.FCH_CTRL n)) 3 = true →
    fld (rd d.hw (R.FCH_TRAIN n)) 0 8 ≠ 0 →
    e = ([0, 1, 2, 3].filter (fun ce => !(targetDies d n ce).isEmpty)).foldl (fun x ce => busUse (32 * n + 8 * ce) [.zqShort] x) d →
    Runs (.zqCalShortTimer n) d (if fld (rd e.hw (R.FCH_TRAIN n)) 24 8 = 0 ∨ domOn e.pwr (n + 1) = false then e
      else [0, 1, 2, 3].foldl (fun y ce =>
        if 10 * fld (rd e.hw (R.FCH_TRAIN n)) 24 8 ≤ ((chanGet e n).pkgT - tabGetD (chanGet e n).trainT ce 250).natAbs then retrainCe n ce y
        else y) e)) ∧
  (∀ (d : Dev) (n : Nat), n < chCount d.fuse →
    Runs (.retrainPeriodExpiry n) d (if fld (rd d.hw (R.FCH_TRAIN n)) 8 16 = 0 then d else retrainAll n d))

/-- Power tokens, bring-up waves and the thermal pause of the flash channels (R164–R167, R472). -/
def Obligations.PowerTokenCommands : Prop :=
  -- A token: asked for by a die's oldest program or erase, counted where it waits, and granted in order of arrival within the limit.
  (∀ (d : Dev) (die : Nat), die < 32 * chCount d.fuse → (dieGet d die).pq = [] → Runs (.tokenRequest die) d d) ∧
  (∀ (d : Dev) (die : Nat), die < 32 * chCount d.fuse → (dieGet d die).pq ≠ [] → domOn d.pwr (chOf die + 1) = false →
    Runs (.tokenRequest die) d (if gateOf d (chOf die + 1) = .hold then wakeReq (chOf die + 1) 2 d else d)) ∧
  (∀ (d : Dev) (die : Nat) (j : FJob) (js : List FJob), die < 32 * chCount d.fuse → (dieGet d die).pq = j :: js →
    domOn d.pwr (chOf die + 1) = true →
    ((chanRuns d (chOf die) = false ∨ j.asked = true ∨ j.token = true ∨ jobMay d die = false ∨ capAllows d (jobTraffic d j) = false) →
      Runs (.tokenRequest die) d d) ∧
    (chanRuns d (chOf die) = true → j.asked = false → j.token = false → jobMay d die = true → capAllows d (jobTraffic d j) = true →
    Runs (.tokenRequest die) d { d with
      hw := if tokenFree d = false ∨ d.fl.pacer.wait ≠ [] ∨ spaced d (packOf die) = false
        then md d.hw R.FCH_PACE_WAITS (fun w => bumpFld w 0 32 1) else d.hw
      fl := { d.fl with pacer := { d.fl.pacer with wait := waitInsert (die, d.hw.time.toNat) d.fl.pacer.wait }
                        dies := tabPut d.fl.dies die { dieGet d die with pq := { j with asked := true } :: js } } })) ∧
  -- It stands behind the requests of earlier windows and, within its own (a tick of device time: DESIGN CHOICE, log entry 104), by channel.
  (∀ (e : Nat × Nat) (q : List (Nat × Nat)), ∃ as bs, q = as ++ bs ∧ waitInsert e q = as ++ e :: bs ∧
    (∀ x ∈ as, x.2 ≤ e.2 ∧ (x.2 = e.2 → chOf x.1 ≤ chOf e.1)) ∧
    (∀ x ∈ bs.head?, e.2 < x.2 ∨ (e.2 = x.2 ∧ chOf e.1 < chOf x.1))) ∧
  (∀ d : Dev, d.fl.pacer.wait = [] → Runs .tokenGrant d d) ∧
  (∀ (d : Dev) (die t : Nat) (rest : List (Nat × Nat)), d.fl.pacer.wait = (die, t) :: rest →
    (∀ j js, (dieGet d die).pq = j :: js → j.asked = false) →
    Runs .tokenGrant d { d with fl := { d.fl with pacer := { d.fl.pacer with wait := rest } } }) ∧
  (∀ (d : Dev) (die t : Nat) (rest : List (Nat × Nat)) (j : FJob) (js : List FJob), d.fl.pacer.wait = (die, t) :: rest →
    (dieGet d die).pq = j :: js → j.asked = true →
    Runs .tokenGrant d (if tokenFree d = false ∨ spaced d (packOf die) = false then d else { d with
      fl := { d.fl with pacer := { d.fl.pacer with wait := rest, inuse := d.fl.pacer.inuse + 1 }
                        dies := tabPut d.fl.dies die { dieGet d die with pq := { j with asked := false, token := true } :: js } } })) ∧
  (∀ d : Dev, tokenFree d = true ↔ paceBase d = 0 ∨ d.fl.pacer.inuse < effLimit d) ∧
  (∀ (d : Dev) (m : Nat) (v : Word), d.lets (writeOf m R.FCH_PACE_LIMIT v) →
    Runs (.paceLimitWrite m v) d (Dev.wrote { d with hw := wr d.hw R.FCH_PACE_LIMIT (v &&& 0xFFFF#32) } m R.FCH_PACE_LIMIT v)) ∧
  -- Bring-up: refused with a wave size of 0; else every die joins the waves, and the first wave starts.
  (∀ (d : Dev) (m : Nat) (v : Word), d.lets (writeOf m R.FCH_PACE_BRINGUP (v ||| 0x80000000#32)) → fld v 8 8 = 0 →
    Runs (.bringupStart m v) d (Dev.wrote { d with
      hw := wr d.hw R.FCH_PACE_BRINGUP (putFld (rwWrite 0xFFFF#32 (rd d.hw R.FCH_PACE_BRINGUP) (v ||| 0x80000000#32)) 16 4 1) }
      m R.FCH_PACE_BRINGUP (v ||| 0x80000000#32))) ∧
  (∀ (d : Dev) (m : Nat) (v : Word), d.lets (writeOf m R.FCH_PACE_BRINGUP (v ||| 0x80000000#32)) → fld v 8 8 ≠ 0 → ∃ e,
    Runs (.bringupStart m v) d (Dev.wrote (waveStart e) m R.FCH_PACE_BRINGUP (v ||| 0x80000000#32)) ∧
    e.fl.pacer.waves = waveOrder d (fun _ => true) ∧ e.fl.pacer.waving = true ∧ e.fl.pacer.nextWave = d.hw.time ∧ e.fl.dies = d.fl.dies ∧
    (∀ c < chCount d.fuse, chanGet e c = { chanGet d c with up := false, trained := 0#4, failed := 0#4, needTrain := 0xF#4 })) ∧
  -- A wave: Reset to each of its dies, whatever they ran; the next wave follows after the gap. A channel whose dies are ready is up.
  (∀ d : Dev, Runs .resetWaveStart d (settled waveStart d)) ∧
  (∀ d : Dev, d.fl.pacer.waves = [] → waveStart d = d) ∧
  (∀ (d e : Dev) (ws : List Nat), d.fl.pacer.waves ≠ [] → ws = d.fl.pacer.waves.take (waveSize d) →
    e = ws.foldl (fun x n => waveDie n x) { d with fl := { d.fl with pacer := { d.fl.pacer with
      waves := d.fl.pacer.waves.drop (waveSize d)
      nextWave := d.fl.pacer.nextWave + BitVec.ofNat 64 (fld (rd d.hw R.FCH_PACE_BRINGUP) 0 8 * 25) } } } →
    waveStart d = (if d.fl.pacer.waves.drop (waveSize d) = [] then List.range (chCount d.fuse) else (ws.map (fun n => chOf n)).eraseDups).foldl
      (fun x c => bringupCheck c x) e) ∧
  (∀ (d : Dev) (n : Nat), (dieGet d n).returning = none → (dieGet d n).arr = none → waveDie n d = diePut (busUse n [.reset] d) n
    { dieGet d n with arr := (if awaited d n then some (arrNew .reset none d.hw.time) else none), ready := false, vec := [] }) ∧
  (∀ (d e : Dev) (n : Nat), (dieGet d n).returning ≠ none → e = profReload (chOf n) d →
    waveDie n d = if bit (rd e.hw (R.FCH_CTRL (chOf n))) 1 then resetDie n e else retEnd n false (some 14) e) ∧
  -- The thermal pause since a channel's last start has passed: it is counted where a start waited.
  (∀ (d : Dev) (n : Nat), n < chCount d.fuse → (chanGet d n).pauseOver = true → Runs (.thermalPauseEnd n) d d) ∧
  (∀ (d : Dev) (n : Nat), n < chCount d.fuse → (chanGet d n).pauseOver = false → ∃ waited : Bool,
    (waited = true ↔ ∃ i < 32, (dieGet d (32 * n + i)).rq ≠ [] ∨ ∃ j js, (dieGet d (32 * n + i)).pq = j :: js ∧ j.token = true) ∧
    Runs (.thermalPauseEnd n) d { chanPut d n { chanGet d n with pauseOver := true } with
      therm := { d.therm with pauseTotal := d.therm.pauseTotal + (if waited then pauseOf d n else 0) } })

/-- Detectors (R178–R203). -/
def Obligations.DetectorCommands : Prop :=
  -- A context goes to the first request whose entry can be loaded: its job starts, and its page leaves the die. One that waits for its bin
  -- entry in a closed domain keeps its context, and that domain wakes.
  (∀ d : Dev, Runs .detContextGrant d (settled ctxGrant d)) ∧
  (∀ (d : Dev) (r : Nat) (x : Run), d.fl.ctxWait.find? (fun r => match runGet d r with
      | some x => (match x.det with | some (n, _) => (detGate d n x.bin).isNone | none => false) | none => false) = some r →
    runGet d r = some x → ctxGrant d = pageOut r x.loc.die (detStart r d)) ∧
  (∀ d : Dev, (∀ r ∈ d.fl.ctxWait, ∀ x, runGet d r = some x → x.det = none) →
    (ctxAsks d = [] → ctxGrant d = d) ∧
    (∀ r rest x, ctxAsks d = r :: rest → runGet d r = some x →
      (detPick d (chOf x.loc.die) x.avoid = none → ctxGrant d = d) ∧
      (∀ n, detPick d (chOf x.loc.die) x.avoid = some n →
        (∀ dom, detGate d n x.bin = some dom → ctxGrant d = wakeReq dom 2 d) ∧
        (detGate d n x.bin = none → ctxGrant d = detWake (pageOut r x.loc.die (detStart r
          (runPut (detPut d n { detGet d n with ctx := tabPut (detGet d n).ctx (freeCtx (detGet d n)) r }) r
            { x with det := some (n, freeCtx (detGet d n)), avoid := none }))))))) ∧
  (∀ (d : Dev) (r n c : Nat) (x : Run) (e : List Byte) (d1 : Dev), runGet d r = some x → x.det = some (n, c) → detGate d n x.bin = none →
    detLoad n x.bin d = (e, d1) → detStart r d = runPut { d1 with fl := { d1.fl with ctxWait := d1.fl.ctxWait.filter (fun q => decide (q ≠ r)) } } r
      { x with st := .detecting, ent := e }) ∧
  -- A job's end: its output and its counters; a HARD job frees its context, and a codeword goes on to the decoders.
  (∀ (d : Dev) (n ctx fix : Nat) (obs : DetObs), n < detCount d.fuse → ctx < 4 →
    Runs (.detJobDone n ctx obs fix) d (settled (detJobDone n ctx obs fix) d)) ∧
  (∀ (d d1 : Dev) (n ctx r fix : Nat) (x : Run) (obs : DetObs), tabGet (detGet d n).ctx ctx = some r → runGet d r = some x →
    ((x.st ≠ .detecting ∨ domOn d.pwr (n + 49) = false ∨ obsFits x obs = false) → detJobDone n ctx obs fix d = d) ∧
    (x.st = .detecting → domOn d.pwr (n + 49) = true → obsFits x obs = true → d1 = detCount1 n (runMode x) fix d →
      (obs = .bufferUe → detJobDone n ctx obs fix d = detAbort n r x d1) ∧
      (∀ bits, obs = .hard bits → detJobDone n ctx obs fix d = toDecodeWith r bits [] (ctxFree r (detHard n r x bits d1))) ∧
      (∀ ls, obs = .levels ls → detJobDone n ctx obs fix d = rawVerdict r
        (pilotPass (prof d) x.slc x.loc.die x.loc.plane x.loc.block (blkGet d x.loc.die x.loc.block).desc ls) d1) ∧
      (∀ cells d2, obs = .soft cells → d2 = bufPut n ctx { bufGet d1 n ctx with planes := cells } d1 →
        (x.step ≠ 4 → x.step ≠ 5 → detJobDone n ctx obs fix d = toDecodeWith r [] (softLlrs x cells) (detSoft n r x cells d2)) ∧
        (x.step = 4 → detJobDone n ctx obs fix d = stepGo r (runPut d2 r { x with sub := 0 })) ∧
        (x.step = 5 → detJobDone n ctx obs fix d =
          toDecodeWith r [] (nearLlrs x (bufGet d2 n ctx)) (detNeighbour n r x (bufGet d2 n ctx) d2))) ∧
      (∀ cells d2, obs = .classes cells → d2 = bufPut n ctx { bufGet d1 n ctx with classes := classCodes d x cells } d1 →
        (x.step = 5 → detJobDone n ctx obs fix d = stepGo r (runPut d2 r { x with sub := 0 })) ∧
        (x.step ≠ 5 → detJobDone n ctx obs fix d =
          toDecodeWith r [] (nearLlrs x (bufGet d2 n ctx)) (detNeighbour n r x (bufGet d2 n ctx) d2))) ∧
      ((∃ q, obs = .pilotFull q) ∨ (∃ q, obs = .pilotQuick q) → detJobDone n ctx obs fix d = pilotDone n r x obs d1) ∧
      (∀ cells v, obs = .sweep cells → badSweep x = false → v = sweepVec (runThr d x) x.vec x.points x.spacing cells →
        detJobDone n ctx obs fix d = stepGo r (runPut (clampNote n x { d1 with hw := irq d1.hw (irqDet n) 1 }) r
          { x with sweep := v.1, edges := v.2, sub := 1 })))) ∧
  (∀ (d : Dev) (n fix : Nat) (m : Nat), detCount1 n m fix d = { d with
    hw := md (md (md d.hw (R.DET_STAT n) (fun w => putFld w 16 4 m)) (R.DET_JOBS n) (fun w => bumpFld w 0 32 1)) (R.DET_ECC n)
      (fun w => bumpFld w 16 16 fix) }) ∧
  -- The soft values: the sign is the bit's, the magnitude at most 31; a SOFT output holds one per cell under its header.
  (∀ (e : List Byte) (s : SoftVal), (softLlr e s).natAbs ≤ 31 ∧ (s.h = false → 0 ≤ softLlr e s) ∧ (s.h = true → softLlr e s ≤ 0)) ∧
  (∀ (d : Dev) (n r : Nat) (x : Run) (cells : List (List Bool)), runMode x ≠ 0 → (detGet (detSoft n r x cells d) n).out =
    resHeader r (runMode x) x.bin 7 (srcCode (prof d) x) (if jobClamped d x then 2 else 0)
      ((cells.filter (fun c => decide ((softVal c).dist = 1))).length) 0 n x.ent.isEmpty ++
      llrWords (cells.length + 1) (cells.map (fun c => softLlr x.ent (softVal c)))) ∧
  -- A job that finds an uncorrectable strobe word ends ABORTED: the error is counted, its context is freed, and its run is read again on
  -- another detector where there is one.
  (∀ (d : Dev) (n r ctx : Nat) (x : Run), runGet d r = some x → x.det = some (n, ctx) → ∃ d1 y,
    bit (rd d1.hw (R.DET_INT_STAT n)) 8 = true ∧ bit (rd d1.hw (R.DET_INT_STAT n)) 11 = true ∧
    y = { x with det := none, avoid := some n, sub := if x.step = 4 then 1 else if x.step = 5 then 2 else x.sub } ∧
    detAbort n r x d = (if 3 ≤ (detAborts (stepGo r (runPut d1 r y)) n).length ∧ detUp (stepGo r (runPut d1 r y)) n = true ∧
        lastDet (stepGo r (runPut d1 r y)) n = false then detLeave n 1 (stepGo r (runPut d1 r y)) else stepGo r (runPut d1 r y))) ∧
  -- A bin entry, or all, leaves every cache.
  (∀ (d : Dev) (m : Nat) (v : Word), d.lets (writeOf m R.DET_BIN_INVAL v) →
    Runs (.detBinInvalWrite m v) d (Dev.wrote { d with fl := { d.fl with dets := d.fl.dets.map (fun q => (q.1, { q.2 with
      cache := q.2.cache.filter (fun c => !bit v 8 && decide (c.1 ≠ fld v 0 8)) })) } } m R.DET_BIN_INVAL v)) ∧
  -- A self-test starts with no busy context and while none runs, and its end is reported; in a return it also ends the return. EN is written
  -- with it, and EN = 1 is taken with a valid BPC only.
  (∀ (d e : Dev) (m n : Nat) (v : Word), d.lets (writeOf m (R.DET_CTRL n) (v ||| 2#32)) → n < 24 →
    e = { d with hw := md d.hw (R.DET_CTRL n) (fun w => putBit w 0 (if bit v 0 = true ∧ bpcOk d.hw = false then detEn d n else bit v 0)) } →
    Runs (.detSelftest m n v) d (Dev.wrote (selfTestStart n e) m (R.DET_CTRL n) (v ||| 2#32))) ∧
  (∀ (d : Dev) (n : Nat), selfTestStart n d = if (detGet d n).ctx ≠ [] ∨ (detGet d n).testing = true then d
    else detPut { d with hw := md d.hw (R.DET_CTRL n) (fun w => setBit w 1) } n { detGet d n with testing := true }) ∧
  (∀ (d : Dev) (n : Nat) (pass : Bool), n < detCount d.fuse → ((detGet d n).testing = false ∨ domOn d.pwr (n + 49) = false) →
    Runs (.detSelftestDone n pass) d d) ∧
  (∀ (d : Dev) (n : Nat) (pass : Bool), n < detCount d.fuse → (detGet d n).testing = true → domOn d.pwr (n + 49) = true →
    (detGet d n).returning = false →
    Runs (.detSelftestDone n pass) d (detPut { d with
      hw := irqIf (irq (md d.hw (R.DET_CTRL n) (fun w => clrBit w 1)) (irqDet n) 2) (!pass) (irqDet n) 10 } n
      { detGet d n with testing := false })) ∧
  (∀ (d : Dev) (n : Nat) (pass : Bool), n < detCount d.fuse → (detGet d n).testing = true → domOn d.pwr (n + 49) = true →
    (detGet d n).returning = true → ∃ e, Runs (.detSelftestDone n pass) d e ∧
    detGet e n = { detGet d n with testing := false, returning := false, st := if pass then 1 else 4, cache := [] } ∧
    bit (rd e.hw (R.DET_INT_STAT n)) 3 = true ∧ domMode e.hw (n + 49) = 0) ∧
  -- DET_CTRL.EN, taken as 1 with a valid BPC only; DET_PROF, ignored while a detector is enabled.
  (∀ (d e : Dev) (m n : Nat) (v : Word), d.lets (writeOf m (R.DET_CTRL n) v) → n < 24 →
    e = { d with hw := md d.hw (R.DET_CTRL n) (fun w => putBit w 0 (if bit v 0 = true ∧ bpcOk d.hw = false then detEn d n else bit v 0)) } →
    Runs (.detEnWrite m n v) d (Dev.wrote (if bit v 1 then selfTestStart n e else e) m (R.DET_CTRL n) v)) ∧
  (∀ (d : Dev) (m : Nat) (v : Word), d.lets (writeOf m R.DET_PROF v) →
    Runs (.detProfWrite m v) d (Dev.wrote (if anyDetEn d then d else { d with
      hw := wr d.hw R.DET_PROF (putBit (rwWrite 0xF#32 (rd d.hw R.DET_PROF) v) 4 (decide (fld v 0 3 = 5))) }) m R.DET_PROF v))

/-- Decoding, rebuild and parity (R207–R213, R225–R227). -/
def Obligations.DecodeCommands : Prop :=
  -- A decode: its corrections are counted; a failed one sends its run to the next step, and its decoder takes another.
  (∀ (d : Dev) (run fix : Nat) (out : DecOut), Runs (.decodeDone run out fix) d (settled (fun x => parkSweep (decodeDone run out fix x)) d)) ∧
  (∀ (d : Dev) (run fix : Nat) (out : DecOut) (x : Run), runGet d run = some x →
    (x.st ≠ .decoding ∨ bit (rd d.hw R.LDPC_CTRL) 0 = false ∨ decReady d x = false) → decodeDone run out fix d = d) ∧
  (∀ (d d1 : Dev) (run fix : Nat) (x : Run), runGet d run = some x → x.st = .decoding → bit (rd d.hw R.LDPC_CTRL) 0 = true →
    decReady d x = true → d1 = runPut { d with hw := md d.hw R.LDPC_ECC (fun w => bumpFld w 16 16 fix) } run { x with dec := none } →
    decodeDone run .fail fix d = decAssign (stepFail run d1) ∧
    (∀ sb row member last c, x.serves = .raw sb row member last →
      decodeDone run (.good c) fix d = decAssign (rawVerdict run (decide (fld (rd d1.hw R.LDPC_RAW_CTRL) 16 16 = 0) ||
        decide (c ≤ fld (rd d1.hw R.LDPC_RAW_CTRL) 16 16)) d1) ∧
      decodeDone run .mismatch fix d = decAssign (rawVerdict run false d1)) ∧
    (∀ tag i c, x.serves = .host tag i →
      decodeDone run (.good c) fix d = decAssign (loseOf (if tagDiffers d x then runEnd run false (tagMismatch x d1) else runEnd run true d1)) ∧
      decodeDone run .mismatch fix d = decAssign (loseOf (runEnd run false (tagMismatch x d1)))) ∧
    -- An uncorrectable input word: another decoder, or a new read where no detector holds the codeword.
    (∃ d2, d2 = runPut { d1 with hw := md (irq d1.hw irqLdpc 4) R.LDPC_ECC (fun w => bumpFld w 0 16 1) } run
        { x with dec := none, decNot := x.dec } ∧
      (x.det ≠ none ∨ x.step = 6 ∨ (x.sub = 1 ∧ x.step = 0) → decodeDone run .inputUe fix d = decAssign d2) ∧
      (x.det = none → x.step ≠ 6 → ¬ (x.sub = 1 ∧ x.step = 0) → decodeDone run .inputUe fix d = decAssign (runQueue run d2)))) ∧
  (∀ (d : Dev) (run : Nat) (x : Run), runGet d run = some x → (match x.serves with | .raw _ _ _ _ | .sample _ => False | _ => True) →
    (x.step = 0 → x.sub = 0) → nextStep d x ≤ 5 →
    stepFail run d = loseOf ([], stepGo run (runPut (stepNote x d) run { x with
      step := nextStep d x, stepAt := d.hw.time.toNat, sub := 0, depth := max x.depth (nextStep d x)
      points := if nextStep d x = 2 then 5 else 9, spacing := 2 }))) ∧
  (∀ (d : Dev) (x : Run), x.step < nextStep d x ∧ nextStep d x ≤ 8 ∨ 7 ≤ x.step) ∧
  -- A host read's codeword: its command has its data, or the lowest LBA that failed; the last one ends a read's search.
  (∀ (d : Dev) (x : Run) (run tag i depth : Nat) (good : Bool), x.serves = .host tag i →
    runGive x run good depth d = ([], hostRunEnd tag i x.loc.die good x.data depth (depthNote (packOf x.loc.die) depth d))) ∧
  (∀ (d e : Dev) (tag i die data depth : Nat) (good : Bool) (o p : Op), tabGet d.host.ops tag = some o →
    p = { o with runs := o.runs - 1, depth := max o.depth depth
                 bad := if good then o.bad else some (match o.bad with | some b => min b (o.lba + i) | none => o.lba + i)
                 out := if good then o.out.set i data else o.out } →
    e = { d with host := { d.host with ops := tabPut d.host.ops tag p } } →
    (p.runs ≠ 0 → hostRunEnd tag i die good data depth d = e) ∧
    (∀ lba, p.runs = 0 → p.bad = some lba → hostRunEnd tag i die good data depth d = readClose tag .unrecoveredRead die []
      { e with host := { e.host with errLog := e.host.errLog ++ [(o.cmd.nsid, lba)] } }) ∧
    (p.runs = 0 → p.bad = none → (o.quiet = true ∨ o.cmd.op = .verify) → hostRunEnd tag i die good data depth d = opEnd tag .success 0 0 [] e) ∧
    (p.runs = 0 → p.bad = none → o.quiet = false → o.cmd.op ≠ .verify →
      hostRunEnd tag i die good data depth d = opMod tag (fun o => { o with st := .ready }) e)) ∧
  -- A codeword of a lost unit: rebuilt for its replacement, or a LOST placeholder; the last of a Pack is reported. No codeword is rebuilt
  -- before the rate of XORU_RBLD_RATE allows it.
  (∀ (d : Dev) (p : Nat) (ok : Bool), p < packCount d.fuse → (bit (rd d.hw R.XORU_CTRL) 0 = false ∨ domOn d.pwr 95 = false ∨
      (tabGetD d.med.rebuilds p Rebuild.none).left = [] ∨ rebuildEarly d p (tabGetD d.med.rebuilds p Rebuild.none) = true) →
    Runs (.unitRebuildCodeword p ok) d d) ∧
  (∀ (d : Dev) (p sb k : Nat) (ok : Bool) (q : Rebuild) (rest : List (Nat × Nat)) (s : Sb) (c : Copy), p < packCount d.fuse →
    bit (rd d.hw R.XORU_CTRL) 0 = true → domOn d.pwr 95 = true → tabGet d.med.rebuilds p = some q → rebuildEarly d p q = false →
    q.left = (sb, k) :: rest → sbGet d sb = some s → tabGet d.med.copies (uk sb k) = some c → ∃ whole e, (whole = true → ok = true) ∧
    (ok = true → (∀ j ∈ otherKs d s (runAt d .scan (locAny d s k) sb k 3 0 (sbSlc s)), codeReadable d s sb j = true) → whole = true) ∧
    Runs (.unitRebuildCodeword p ok) d e ∧
    tabGet e.med.rebuilds p = (if rest = [] then none
      else some { left := rest, done := q.done + 1, lost := q.lost + (if whole then 0 else 1), lastAt := some d.hw.time.toNat }) ∧
    tabGet e.med.staged (uk sb k) = some (if whole then { c with refresh := true }
      else { c with refresh := true, lost := true, seq := d.med.seqNext, cipher := 0, slot := 0, gen := 0, data := 0 })) ∧
  -- An uncorrectable accumulator word is reported; the parity is recomputed from the staged copies.
  (∀ d : Dev, Runs .xoruAccUe d { d with hw := irq d.hw irqXoru 6 })

/-- Zone moves, map segments and the map key (R225, R264–R287). -/
def Obligations.MapCommands : Prop :=
  -- A move's switch, of a zone or of a collected unit, is followed by a journal flush where R292 asks for one.
  (∀ (d : Dev) (nsid zn : Nat) (lost : List Nat),
    Runs (.zoneMoveSwitch nsid zn lost) d (jFlushIfNeeded (zoneMoveSwitch (zkey nsid zn) lost d))) ∧
  (∀ (d : Dev) (nsid lba : Nat) (lost : Bool), Runs (.gcMoveSwitch nsid lba lost) d (jFlushIfNeeded (gcSwitch nsid lba lost d))) ∧
  (∀ d : Dev, ((jHalf d = true ∨ (∃ q ∈ d.fl.dies, q.2.resv ≤ 2) ∨ eraseWaits d = true) → jFlushIfNeeded d = jFlush d) ∧
    (¬ (jHalf d = true ∨ (∃ q ∈ d.fl.dies, q.2.resv ≤ 2) ∨ eraseWaits d = true) → jFlushIfNeeded d = d)) ∧
  -- A zone's move is switched in one step once every full row of it is on media, with a MOVE record; the source waits for its erase.
  (∀ (d : Dev) (zk t : Nat) (lost : List Nat), (zoneGet d zk).moving = some t →
    movedOnMedia d t (zoneGet d zk).wp = true → (zoneGet d zk).secure = none → (nsGet d (zk / 1048576)).isSome = true → ∃ e,
    zoneMoveSwitch zk lost d = doomCheck (doom (zoneGet d zk).sb e) ∧
    zoneGet e zk = { zoneGet d zk with sb := t, moving := none } ∧
    (∀ o, o ≠ zk → zoneGet e o = zoneGet d o) ∧ jrMove (zoneGet d zk).sb t ∈ e.med.jr.buf ∧
    e.med.moves = d.med.moves.filter (fun m => decide (m.zone ≠ some zk)) ∧
    (∀ k ∈ lost, k < 4294967296 → ∀ c, tabGet d.med.copies (uk t k) = some c → c.refresh = true →
      tabGet e.med.copies (uk t k) = some { c with lost := true, seq := d.med.seqNext, data := 0, cipher := 0, slot := 0, gen := 0 }) ∧
    (∀ u, ¬ (u / 4294967296 = t ∧ u % 4294967296 ∈ lost) → tabGet e.med.copies u = tabGet d.med.copies u)) ∧
  (∀ (d : Dev) (zk : Nat) (lost : List Nat), ((zoneGet d zk).moving = none ∨ (zoneGet d zk).secure.isSome = true ∨ ∃ t,
      (zoneGet d zk).moving = some t ∧ movedOnMedia d t (zoneGet d zk).wp = false) → zoneMoveSwitch zk lost d = d) ∧
  -- A superblock whose data has moved waits for the reads of it that are under way, and for the records written so far.
  (∀ (d : Dev) (sb : Nat), doom sb d = { d with med := { d.med with doomed := d.med.doomed ++ [{
    sb := sb, need := d.med.jr.count
    runs := d.fl.runs.filterMap (fun q => if q.2.sb = sb ∧ sampleDue q.2 = false then some q.1 else none) }] } }) ∧
  (∀ d : Dev, doomCheck d = (d.med.doomed.filter (doomReady d)).foldl (fun x q => sbErase q.sb x)
    { d with med := { d.med with doomed := d.med.doomed.filter (fun x => !doomReady d x) } }) ∧
  -- A collected unit is placed in the target; the map is switched only while it still names the address that the move read.
  (∀ (d : Dev) (nsid lba : Nat) (lost : Bool), (∀ m ∈ d.med.moves, m.gc = true → ∀ u ∈ m.units, u.1 ≠ mk nsid lba) →
    gcSwitch nsid lba lost d = d) ∧
  (∀ (d e : Dev) (nsid lba k : Nat) (lost : Bool) (m : Move) (c : Copy), e = gcSwitch nsid lba lost d →
    d.med.moves.find? (fun m => m.gc && m.units.any (fun u => decide (u.1 = mk nsid lba))) = some m →
    m.units.find? (fun u => decide (u.1 = mk nsid lba)) = some (mk nsid lba, k) →
    (tabGet d.med.copies (uk m.source k) = some c ∨
      tabGet d.med.copies (uk m.source k) = none ∧ tabGet d.med.staged (uk m.source k) = some c) →
    (∀ w, tabGet d.med.mapu.map (mk nsid lba) = some (.media w m.source k) → tabGet e.med.mapu.map (mk nsid lba) =
      some (if c.lost || lost then .lost (if lost then d.med.seqNext else c.seq)
        else .media (if lost then d.med.seqNext else c.seq) m.target (sbNextK d m.target))) ∧
    ((∀ w, tabGet d.med.mapu.map (mk nsid lba) ≠ some (.media w m.source k)) → e.med.mapu = d.med.mapu ∧ e.med.jr.count = d.med.jr.count) ∧
    (∀ o, o ≠ mk nsid lba → tabGet e.med.mapu.map o = tabGet d.med.mapu.map o) ∧
    e.med.moves = d.med.moves.filterMap (fun x => if x.gc = true ∧ x.source = m.source then
      (if (∀ u ∈ m.units, u.1 = mk nsid lba) then none else some { x with units := m.units.filter (fun u => decide (u.1 ≠ mk nsid lba)) })
      else some x)) ∧
  -- A segment that fails verification is counted and reported; the journal is read for its rebuild, and reads that need it wait.
  (∀ (d : Dev) (seg : Nat), d.med.jr.pairs = [] → Runs (.segmentVerifyFail seg) d (segFail seg d)) ∧
  (∀ (d : Dev) (seg : Nat) (q : LanePair) (qs : List LanePair), d.med.jr.pairs = q :: qs → ∃ e, Runs (.segmentVerifyFail seg) d e ∧
    e.med.mapu = (segFail seg d).med.mapu ∧ ∃ x, runGet e d.fl.nextRun = some x ∧ x.serves = .journal d.med.jr.tail false ∧
      x.loc = jLoc (prof d) q.dieA q.blkA d.med.jr.tail ∧ x.st = .queued) ∧
  (∀ (d : Dev) (seg : Nat), seg ∈ (segFail seg d).med.mapu.rebuild ∧ bit (rd (segFail seg d).hw R.MAPU_INT_STAT) 0 = true ∧
    (∀ s, tabGet d.med.mapu.seals seg = some s → tabGet (segFail seg d).med.mapu.seals seg = some { s with bad := true }) ∧
    (∀ e ∈ (segFail seg d).med.mapu.cache, e.1 ≠ seg) ∧
    (∀ r x, runGet d r = some x → x.st = .queued → (∃ n, nsGet d x.nsid = some n ∧ n.zoned = false) → segOf d x.nsid x.lba = seg →
      runGet (segFail seg d) r = some { x with st := .segment })) ∧
  -- Its rebuild seals it under a new version, and the reads that waited join their queues.
  (∀ (d : Dev) (seg : Nat), seg ∉ d.med.mapu.rebuild → Runs (.segmentRebuildDone seg) d d) ∧
  (∀ (d : Dev) (seg : Nat), seg ∈ d.med.mapu.rebuild → ∃ e, Runs (.segmentRebuildDone seg) d e ∧ seg ∉ e.med.mapu.rebuild ∧
    (d.med.mapu.st ≠ 4 → d.med.mapu.version + 1 < verMax → e.med.mapu.version = d.med.mapu.version + 1 ∧
      tabGet e.med.mapu.seals seg = some (sealOf d seg (d.med.mapu.version + 1))) ∧
    (d.med.mapu.st ≠ 4 → verMax ≤ d.med.mapu.version + 1 → e.med.mapu.st = 4 ∧ e.med.mapu.seals = d.med.mapu.seals) ∧
    bit (rd e.hw R.MAPU_INT_STAT) 1 = true ∧
    (∀ r x, (r, x) ∈ d.fl.runs → tabGet d.fl.runs r = some x → x.st = .segment → segOf d x.nsid x.lba = seg →
      ∃ y, runGet e r = some y ∧ y.st = .queued)) ∧
  -- MAPU_CTRL: EN, then REKEY, then JFLUSH, which stands until the flush completes.
  (∀ (d : Dev) (m : Nat) (v w : Word) (c : Instr), (c = .mapuEnable m v ∧ w = v ||| 1#32 ∨ c = .mapuRekey m v ∧ w = v ||| 2#32 ∨
      c = .mapuJflushWrite m v ∧ w = v ||| 4#32) → d.lets (writeOf m R.MAPU_CTRL w) → ∃ d1 d2, d1 = mapuEnable (bit w 0) d ∧
    d2 = (if bit w 1 then mapuRekey d1 else d1) ∧ Runs c d (Dev.wrote
      (if bit w 2 then jFlush { d2 with hw := md d2.hw R.MAPU_CTRL (fun w => setBit w 2) } else d2) m R.MAPU_CTRL w)) ∧
  -- EN = 1 makes the map key of generation 0; EN = 0 stops MAPU.
  (∀ d : Dev, bit (rd d.hw R.MAPU_CTRL) 0 = false → mapuEnable true d = { (mapKeyMake 0 d).2 with
    sec := { (mapKeyMake 0 d).2.sec with mapKey := some (mapKeyMake 0 d).1, oldMapKey := none }
    hw := md d.hw R.MAPU_CTRL (fun w => setBit w 0)
    med := { d.med with mapu := { d.med.mapu with
      gen := 0, version := 0, warned := false, sweep := [], sweeping := false, seals := [], cache := []
      st := if d.med.recovered then 2 else 1 } } }) ∧
  (∀ d : Dev, bit (rd d.hw R.MAPU_CTRL) 0 = true → mapuEnable true d = d ∧ mapuEnable false d = { d with
    hw := md d.hw R.MAPU_CTRL (fun w => clrBit w 0), med := { d.med with mapu := { d.med.mapu with st := 0 } } }) ∧
  (∀ d : Dev, bit (rd d.hw R.MAPU_CTRL) 0 = false → mapuEnable false d = d) ∧
  (∀ (d : Dev) (g : Nat), (mapKeyMake g d).1 = (if hasCrypto d.fuse then (Config.drbg d.sec.drbgDraws).setWidth 256
      else Config.deviceMapKey (d.hw.bootCount.toNat * 4294967296 + g)) ∧
    (mapKeyMake g d).2 = if hasCrypto d.fuse then { d with sec := { d.sec with drbgDraws := d.sec.drbgDraws + 1 } } else d) ∧
  -- A rekey makes the next key and sweeps every segment of the serving ports; during a sweep, or while MAPU does not run, it is ignored.
  (∀ d : Dev, bit (rd d.hw R.MAPU_CTRL) 0 = true → d.med.mapu.sweeping = false → (d.med.mapu.st = 2 ∨ d.med.mapu.st = 4) →
    (mapuRekey d).sec.mapKey = some (mapKeyMake (d.med.mapu.gen + 1) d).1 ∧ (mapuRekey d).sec.oldMapKey = d.sec.mapKey ∧
    (mapuRekey d).med.mapu = { d.med.mapu with
      version := 0, warned := false, sweeping := true, st := 3, sweep := (mapuRekey d).med.mapu.sweep } ∧
    (mapuRekey d).med.mapu.sweep = ([0, 1].filter (fun p => match tabGet d.host.ports p with
      | some x => decide (x.hmb = .serving) | none => false)).flatMap (fun p => segsOfPort d p) ∧
    rd (mapuRekey d).hw R.MAPU_REKEY_LEFT = BitVec.ofNat 32 (min 0xFFFFFFFF (mapuRekey d).med.mapu.sweep.length)) ∧
  (∀ d : Dev, (d.med.mapu.sweeping = true ∨ bit (rd d.hw R.MAPU_CTRL) 0 = false ∨ (d.med.mapu.st ≠ 2 ∧ d.med.mapu.st ≠ 4)) →
    mapuRekey d = d) ∧
  -- The sweep ends: generation g + 1, the old key zeroised, REKEY_DONE.
  (∀ d : Dev, d.med.mapu.sweeping = false → Runs .rekeySweepEnd d d) ∧
  (∀ d : Dev, d.med.mapu.sweeping = true → ∃ e, Runs .rekeySweepEnd d e ∧
    e.med.mapu.gen = d.med.mapu.gen + 1 ∧ e.med.mapu.sweep = [] ∧ e.med.mapu.sweeping = false ∧ (e.med.mapu.st = 2 ∨ e.med.mapu.st = 4) ∧
    e.sec = { d.sec with oldMapKey := none } ∧ bit (rd e.hw R.MAPU_INT_STAT) 4 = true ∧ rd e.hw R.MAPU_REKEY_LEFT = 0#32)

/-- The map journal, garbage collection and recovery (R268–R271, R287–R302). -/
def Obligations.JournalCommands : Prop :=
  -- INTERVAL ms after the previous flush another starts; 0 disables this.
  (∀ (d : Dev) (n : Nat), n = fld (rd d.hw R.MAPU_JCTRL) 0 16 → Runs .journalFlushInterval d
    (if n = 0 ∨ d.hw.time.toNat < d.med.jr.flushAt.toNat + n * 25000 then d else jFlush d)) ∧
  -- A flush: none while one is in progress; what is buffered goes to the ring, and the checkpoint's image is fixed. Where the ring is full
  -- the tail pair is reclaimed first, and the buffer waits.
  (∀ (d : Dev) (rs : List JRec), d.med.jr.flushing = some rs → jFlush d = d) ∧
  (∀ d : Dev, d.med.jr.flushing = none → jRoomless d = false → jFlush d = jStart d.med.jr.buf [] d) ∧
  (∀ d : Dev, d.med.jr.flushing = none → jRoomless d = true →
    jFlush d = jStart [] d.med.jr.buf (jTail { d with hw := if hasMapu d.fuse then irq d.hw irqMapu 6 else d.hw })) ∧
  (∀ (d : Dev) (rs keep : List JRec), (jStart rs keep d).med.jr.flushing = some rs ∧ (jStart rs keep d).med.jr.buf = keep ∧
    (jStart rs keep d).med.jr.flushAt = d.hw.time ∧ (jStart rs keep d).med.jr.carry = [] ∧
    (jStart rs keep d).med.jr.media = d.med.jr.media ∧ (jStart rs keep d).med.jr.words = d.med.jr.words ∧
    (jStart rs keep d).med.jr.pend = (flushBodies d rs).zipIdx.map (fun q => (d.med.jr.j + q.2, q.1)) ∧
    (jStart rs keep d).med.jr.j = d.med.jr.j + (flushBodies d rs).length ∧
    (jStart rs keep d).med.snap = { zones := d.ten.zones, map := d.med.mapu.map, dump := [], loose := [], dumped := false }) ∧
  -- A flush holds its records, what a pair that leaves the ring still says, the images due, and a checkpoint of open superblocks and dies.
  (∀ (d : Dev) (rs : List JRec), flushBodies d rs =
    recordBodies rs ++ d.med.jr.carry ++ imagesDue d ++ recordBodies (ckptRecs d) ++ filterBodies (filtersDue d)) ∧
  (∀ d : Dev, ∃ n, ({ type := 0x10, flags := 0, nsid := 0, count := n, a := tailJ d.med.jr, b := d.med.seqNext, seq := 0 } : JRec) ∈ ckptRecs d ∧
    (∀ q ∈ d.med.sbs, q.2.closed = false →
      ({ type := 0x11, flags := 0, nsid := 0, count := q.2.dieSet, a := q.1, b := q.2.nextK, seq := 0 } : JRec) ∈ ckptRecs d) ∧
    ∀ i < 32 * chCount d.fuse, dieFitted d i = true → jrResv d i ∈ ckptRecs d) ∧
  -- Its completion puts records, codewords and image on media and lists every reservoir afresh; erases and reclaim follow.
  (∀ d : Dev, d.med.jr.flushing = none → Runs .journalFlushComplete d d) ∧
  (∀ (d : Dev) (rs : List JRec), d.med.jr.flushing = some rs → ∃ e,
    Runs .journalFlushComplete d (jReclaim (doomCheck ((d.med.jr.old.take d.med.jr.oldAt).foldl pairErase e))) ∧
    e.med.jr = { d.med.jr with
      flushing := none, pend := [], media := d.med.jr.media ++ rs, onMedia := d.med.jr.onMedia + rs.length
      old := d.med.jr.old.drop d.med.jr.oldAt, oldAt := 0
      words := (d.med.jr.words ++ d.med.jr.pend).filter (fun w => !(d.med.jr.old.take d.med.jr.oldAt).any (fun q => pairHolds (prof d) q w.1)) } ∧
    e.med.image = d.med.snap ∧ (∀ q ∈ e.fl.dies, q.2.resv = 14) ∧ (∀ n, (dieGet d n).resv = 14 → dieGet e n = dieGet d n) ∧
    bit (rd e.hw R.MAPU_CTRL) 2 = false ∧
    fld (rd e.hw R.MAPU_JSTAT) 0 16 = min 0xFFFF ((d.hw.time.toNat - d.med.jr.flushAt.toNat) / 250)) ∧
  -- Reclaim takes the tail pair once the ring's blocks pass FILL percent of the area.
  (∀ (d : Dev) (f : Nat), f = fld (rd d.hw R.MAPU_JCTRL) 24 8 → jReclaim d =
    if 0 < d.med.jr.area ∧ (if f = 0 then 100 else f) * d.med.jr.area < 100 * d.med.jr.pairs.length then jFlush (jTail d) else d) ∧
  -- Recovery runs once in a boot, by a running core 0, from the newest whole replica; a volume of another major version shows nothing.
  (∀ d : Dev, (d.med.recovered = true ∨ tabGet d.pwr.cores 0 = none) → Runs .mapRecovery d d) ∧
  (∀ d : Dev, d.med.recovered = false → tabGet d.pwr.cores 0 ≠ none → Runs .mapRecovery d (mapRecoverFrom (volTake d))) ∧
  (∀ d : Dev, volCurrent d = none → volTake d = d) ∧
  (∀ (d : Dev) (r : Replica), volCurrent d = some r → (volTake d).med.volGen = r.gen ∧ (volTake d).med.volCreated = r.created ∧
    (volTake d).med.volUuid = r.uuid ∧ (volTake d).med.volume = r.volume ∧ replicaOk d r = true ∧
    ∀ q ∈ d.med.replicas, replicaOk d q.2 = true → q.2.created < r.created ∨ (q.2.created = r.created ∧ q.2.gen ≤ r.gen)) ∧
  (∀ d : Dev, d.med.volUnknown = true → (mapRecoverFrom d).ten.namespaces = [] ∧ (mapRecoverFrom d).ten.zones = [] ∧
    (mapRecoverFrom d).med.recovered = true) ∧
  (∀ d : Dev, d.med.volUnknown = false → (mapRecoverFrom d).med.recovered = true ∧ (mapRecoverFrom d).med.image.dump = [] ∧
    (mapRecoverFrom d).med.mapu.st ≠ 1 ∧ ∀ n, (nsGet (mapRecoverFrom d) n).isSome = (nsGet d n).isSome)

/-- Admission of commands (R39, R41, R43, R121–R128). -/
def Obligations.ScheduleCommands : Prop :=
  -- Each queue's head is judged: checks 1 to 5 of R121 hold it, and so do a flush of the stop, a recovery and a zone's earlier command.
  (∀ d : Dev, Runs .admitCommand d (jFlushIfNeeded (admitHeads d))) ∧
  (∀ d : Dev, heads d = d.host.queues.filterMap (fun p => p.2.head?.map (fun q => (p.1, fnKennel d (p.1 / 65536 / 64) (p.1 / 65536 % 64), q,
    if d.host.stopped = true ∨ d.med.recovered = false ∨ zoneBusy d q.cmd = true then 6
    else heldBy d (fnKennel d (p.1 / 65536 / 64) (p.1 / 65536 % 64)) q.cmd)))) ∧
  (∀ (d : Dev) (k kib : Nat) (c : IoCmd) (x : Kennel), x = kenFill d.hw.time.toNat (kenOf d k) →
    kib = (match c.op with | .write | .append | .writeZeroes => c.nlb * 4 | _ => 0) → heldBy d k c =
    if bit (rd d.hw R.HERDER_CTRL) 0 = false then 1
    else if x.cap ≠ 0 ∧ x.cap ≤ x.outstanding then 2
    else if x.iops ≠ 0 ∧ x.iopsB.level < 25000000 then 3
    else if x.bw ≠ 0 ∧ 0 < moveBytes c ∧ x.bwB.level < moveBytes c * 25000000 then 4
    else if 0 < kib ∧ limitKib d < dirtyKib d + kib then 5 else 0) ∧
  -- Held heads are counted once each; the admissible head of best class is taken, in round robin.
  (∀ d : Dev, (∀ h ∈ heads d, h.2.2.2 ≠ 0) → admitHeads d = noteHolds (heads d) d) ∧
  (∀ d : Dev, (∀ h ∈ heads d, (kenOf d h.2.1).cls < 4) → (∃ h ∈ heads d, h.2.2.2 = 0) → ∃ h ∈ heads d, h.2.2.2 = 0 ∧
    (∀ g ∈ heads d, g.2.2.2 = 0 → (kenOf d h.2.1).cls ≤ (kenOf d g.2.1).cls) ∧
    admitHeads d = admitHead h.1 h.2.2.1 (noteHolds (heads d) d)) ∧
  (∀ (last : Nat) (xs : List Nat), (xs = [] → nextAfter last xs = none) ∧ (∀ y, nextAfter last xs = some y → y ∈ xs ∧
    (∀ x ∈ xs, last < x → last < y ∧ y ≤ x) ∧ ((∀ x ∈ xs, x ≤ last) → ∀ x ∈ xs, y ≤ x))) ∧
  (∀ (d : Dev) (hs : List (Nat × Nat × QCmd × Nat)), (∀ h ∈ hs, h.2.2.2 = 0 ∨ 5 < h.2.2.2 ∨ h.2.2.1.held = true) → noteHolds hs d = d) ∧
  -- The head leaves its queue and its tokens are taken; a check that refuses it completes it, else it is admitted with its deadline, its
  -- Packs and the dirty limit of now. It belongs to its function's present Kennel (DESIGN CHOICE, log entry 87).
  (∀ (d d1 : Dev) (qk p fn k : Nat) (q : QCmd), p = qk / 65536 / 64 → fn = qk / 65536 % 64 → k = fnKennel d p fn →
    d1 = kenTake k q.cmd { d with host := { d.host with
      queues := tabMod d.host.queues qk [] List.tail, rrQueue := tabPut d.host.rrQueue k qk
      rrKennel := tabPut d.host.rrKennel (kenOf d k).cls k } } →
    (∀ st, admitCheck d1 p fn k q.cmd = .inl st → admitHead qk q d =
      cqPost p fn (qk % 65536) q.cmd.cid st 0 0 [] (if q.cmd.op = .read then readStats (opNew d1 qk k q) 0 false d1 else d1)) ∧
    (∀ (victim : Option Nat) (n : Ns), admitCheck d1 p fn k q.cmd = .inr victim → nsGet d1 q.cmd.nsid = some n → ∃ a f,
      a = (if n.zoned && isZoneWrite q.cmd.op then zoneAssign q.cmd n victim d1
        else (q.cmd.slba, secureAdmit d1.host.nextTag k q.cmd n d1)) ∧
      f = seqAdmit q.cmd n.zoned a.2 ∧
      admitHead qk q d = kenPut { f.2 with host := { f.2.host with
        ops := tabPut f.2.host.ops f.2.host.nextTag { opNew d1 qk k q with
          lba := a.1, dispatched := n.zoned && isZoneWrite q.cmd.op, seq := f.1 }
        nextTag := f.2.host.nextTag + 1 } } k { kenOf f.2 k with outstanding := (kenOf f.2 k).outstanding + 1 })) ∧
  (∀ (d : Dev) (qk k : Nat) (q : QCmd), (opNew d qk k q).cmd = q.cmd ∧ (opNew d qk k q).st = .admitted ∧ (opNew d qk k q).kennel = k ∧
    (opNew d qk k q).port = qk / 65536 / 64 ∧ (opNew d qk k q).fn = qk / 65536 % 64 ∧ (opNew d qk k q).sq = qk % 65536 ∧
    (opNew d qk k q).deadline = q.doorbell.toNat + readDeadline (prof d) (kenOf d k) / 40 ∧ (opNew d qk k q).packs = kenPacks d k ∧
    (opNew d qk k q).cls = (kenOf d k).cls ∧ (opNew d qk k q).limit = limitKib d) ∧
  (∀ (d : Dev) (k : Nat) (c : IoCmd) (x : Kennel), x = kenFill d.hw.time.toNat (kenOf d k) → kenTake k c d = kenPut d k { x with
    iopsB := { x.iopsB with level := x.iopsB.level - (if x.iops = 0 then 0 else 25000000) }
    bwB := { x.bwB with level := x.bwB.level - (if x.bw = 0 then 0 else moveBytes c * 25000000) } }) ∧
  (∀ (d : Dev) (c : IoCmd) (n : Ns) (victim : Option Nat), victim = none →
    (zoneAssign c n victim d).1 = zslba n (c.slba / n.zsze) + (zoneGet d (zkey c.nsid (c.slba / n.zsze))).wp) ∧
  -- A Kennel's head held for a second is reported.
  (∀ (d : Dev) (k : Nat), Runs (.holdLongExpiry k) d (if (heads d).any (fun h => decide (h.2.1 = k) && decide (h.2.2.2 ≠ 0)) then
    { noteHolds (heads d) d with hw := irq (noteHolds (heads d) d).hw irqHerder 6 } else d))

/-- The scheduling of reads, programs and erases at a die, and the staging of writes (R125, R129–R142, R152). -/
def Obligations.DieSchedulingCommands : Prop :=
  -- A die's reads: one of data already being read joins it; one of a die out of service takes its ladder's next way; a closed channel is
  -- woken, or answers nothing; else the first that can start does, by R130 to R133.
  (∀ (d : Dev) (die : Nat), die < 32 * chCount d.fuse → Runs (.readDispatch die) d (settled (readDispatch die) d)) ∧
  (∀ (d : Dev) (die : Nat), (dieGet d die).rq = [] → readDispatch die d = d) ∧
  (∀ (d : Dev) (die r : Nat) (rs : List Nat), (dieGet d die).rq = r :: rs → (∀ q ∈ r :: rs, sampleStale d q = false) →
    (∀ t x q, ((dieGet d die).rq.findSome? (fun r => match runGet d r with
        | some x => if x.step = 0 then (sameRun d r x).map (fun t => (r, t, x)) else none | none => none)) = some (q, t, x) →
      readDispatch die d = attachRun q t x d) ∧
    ((∀ q ∈ r :: rs, ∀ x, runGet d q = some x → x.step = 0 → sameRun d q x = none) →
      ((dieUp d die = true ∨ (dieGet d die).st = 3) →
        (domOn d.pwr (chOf die + 1) = false → gateOf d (chOf die + 1) = .hold → readDispatch die d = wakeReq (chOf die + 1) 2 d) ∧
        (domOn d.pwr (chOf die + 1) = false → gateOf d (chOf die + 1) ≠ .hold →
          readDispatch die d = { d with hw := irq d.hw irqPwr 1 }) ∧
        (domOn d.pwr (chOf die + 1) = true → chanRuns d (chOf die) = false → readDispatch die d = d) ∧
        (domOn d.pwr (chOf die + 1) = true → chanRuns d (chOf die) = true → readDispatch die d = dispatchOn die d)) ∧
      (∀ x, dieUp d die = false → (dieGet d die).st ≠ 3 → runGet (rqLeave r die d) r = some x → (∃ tag i, x.serves = .host tag i) →
        readDispatch die d =
          loseOf (stepTo r (if (runRow (rqLeave r die d) x).isSome then 6 else 7) (rqLeave r die d))))) ∧
  (∀ (d : Dev) (die : Nat) (qs : List (Nat × Run)) (guard : Bool),
    qs = (dieGet d die).rq.filterMap (fun r => (runGet d r).map (fun x => (r, x))) →
    guard = ((dieGet d die).guard && !hasS0 d (dieGet d die)) →
    (guard = true → dispatchOn die d = d) ∧
    (∀ r x, guard = false → qs.find? (fun q => planeFree d die (runPlanes d q.2) && mayRead d die q.1 q.2) = some (r, x) →
      dispatchOn die d = if pauseFree d (chOf die) then readStart die r d else d) ∧
    (guard = false → (∀ q ∈ qs, planeFree d die (runPlanes d q.2) = false ∨ mayRead d die q.1 q.2 = false) →
      (∀ r x, qs.find? (fun q => decide (q.2.st = .again)) = some (r, x) → dispatchOn die d = takePath r x d) ∧
      ((∀ q ∈ qs, q.2.st ≠ .again) → dispatchOn die d = match qs.head? with
        | some q => if q.2.st = .waiting then d else takePath q.1 q.2 d
        | none => d))) ∧
  (∀ (d : Dev) (die r : Nat) (x : Run), runGet d r = some x → needsBin (prof d) x = false → ∃ y e, readStart die r d = e ∧
    y.st = .reading ∧ y.since = d.hw.time.toNat ∧ y.loc = x.loc ∧ y.serves = x.serves ∧
    e = runMark r (overflowFill die 255 (startMark (chOf die) (diePut (busUse die (readCmds (prof d) (if x.sent = true then x else { x with
        bin := y.bin, sent := true }) (dieGet d die).vec (wantVec (prof d) (if x.sent = true then x else { x with
        bin := y.bin, sent := true }) [])) (runPut d r y)) die { dieGet d die with
      rq := (dieGet d die).rq.filter (fun q => decide (q ≠ r)), reading := (dieGet d die).reading ++ [r]
      vec := leftVec (prof d) (if x.sent = true then x else { x with bin := y.bin, sent := true })
        (wantVec (prof d) (if x.sent = true then x else { x with bin := y.bin, sent := true }) []) })))) ∧
  -- A busy status decides again for the first read where the die is busy.
  (∀ (d : Dev) (die : Nat), die < 32 * chCount d.fuse → Runs (.busyStatusReturn die) d (settled (fun x =>
    match (dieGet x die).rq with
    | [] => x
    | r :: _ => match runGet x r with
      | some y => if (dieGet x die).arr.isSome || !planeFree x die (runPlanes x y) then takePath r y x else x
      | none => x) d)) ∧
  -- The path of a read that cannot start: it waits, suspends the operation of its die, or reads around it.
  (∀ (d : Dev) (r : Nat) (x : Run), pickPath d r x = .wait → takePath r x d = runPut d r { x with st := .waiting }) ∧
  (∀ (d : Dev) (r : Nat) (x : Run), pickPath d r x = .suspend →
    takePath r x d = suspendIssue r x (runPut d r { x with st := .waiting }) ∧
    ∃ a, (dieGet d x.loc.die).arr = some a ∧ mayHold d a = true ∧ classHolds x.cls a = true) ∧
  (∀ (d : Dev) (r : Nat) (x : Run), pickPath d r x = .around → ∃ s, aroundRow d x = some s ∧ x.cls = 0 ∧
    bit (rd d.hw R.HERDER_CTRL) 2 = true ∧ balCovers d (packOf x.loc.die) (s.members.length - 1) = true ∧
    takePath r x d = rqLeave r x.loc.die (memberReads r false { x with step := 0, sub := 1 } s (balCharge (packOf x.loc.die)
      (s.members.length - 1) (kenCount (fun k => { k with arounds := k.arounds + 1 }) x.kennel d)))) ∧
  (∀ (d : Dev) (a : ArrRun), mayHold d a = true ↔ bit (rd d.hw R.HERDER_CTRL) 1 = true ∧ a.suspended = false ∧
    ((a.op = .program ∧ a.suspends < (prof d).maxSusP ∧ (prof d).tRunP ≤ stretchNs d a) ∨
     (a.op = .erase ∧ a.suspends < (prof d).maxSusE ∧ (prof d).tRunE ≤ stretchNs d a))) ∧
  (∀ (cls : Nat) (a : ArrRun), classHolds cls a = true ↔ cls = 0 ∨ (cls = 1 ∧ a.op = .erase)) ∧
  -- The program guard fires after PWAIT behind reads, but never past a read with S0 deadline.
  (∀ (d : Dev) (die : Nat), die < 32 * chCount d.fuse → (dieGet d die).pq = [] → Runs (.pwaitGuardExpiry die) d d) ∧
  (∀ (d : Dev) (die n : Nat) (j : FJob) (js : List FJob), die < 32 * chCount d.fuse → (dieGet d die).pq = j :: js →
    n = fld (rd d.hw R.HERDER_PWAIT) 0 16 → Runs (.pwaitGuardExpiry die) d
      (if n ≠ 0 ∧ j.since.toNat + n * 2500 ≤ d.hw.time.toNat ∧ (dieGet d die).guard = false ∧
        ((dieGet d die).rq ≠ [] ∨ (dieGet d die).reading ≠ []) ∧ hasS0 d (dieGet d die) = false
      then diePut { d with hw := irq d.hw irqHerder 5 } die { dieGet d die with guard := true } else d)) ∧
  -- A suspend takes effect, and counts for the Kennel that chose it, unless the operation has completed.
  (∀ (d : Dev) (die : Nat) (complete pass verified : Bool), die < 32 * chCount d.fuse →
    Runs (.suspendTakesEffect die complete pass verified) d (settled (suspendTakes die complete pass verified) d)) ∧
  (∀ (d : Dev) (die : Nat) (complete pass verified : Bool), (∀ a, (dieGet d die).arr = some a → a.suspending = false) →
    suspendTakes die complete pass verified d = d) ∧
  (∀ (d : Dev) (die : Nat) (pass verified : Bool) (a : ArrRun), (dieGet d die).arr = some a → a.suspending = true →
    suspendTakes die true pass verified d = arrEnd die pass true 0xF#4 verified
      (diePut d die { dieGet d die with arr := some { a with suspending := false } }) ∧
    suspendTakes die false pass verified d = resumeCheck die (diePut (match a.kennel with
        | some k => kenCount (fun x => { x with suspends := x.suspends + 1 }) k d
        | none => d) die { dieGet d die with
      arr := some { a with suspending := false, suspended := true, suspends := a.suspends + 1, ran := a.ran + sinceNs d a.since.toNat
                           heldAt := d.hw.time, due := false, kennel := none, heldQ := (dieGet d die).rq } })) ∧
  -- It ends at t_hold, or once no read that may be served is queued, in either case with no read in progress.
  (∀ (d : Dev) (die : Nat), die < 32 * chCount d.fuse → (∀ a, (dieGet d die).arr = some a → a.suspended = false) →
    Runs (.suspendHoldExpiry die) d (settled id d)) ∧
  (∀ (d : Dev) (die : Nat) (a : ArrRun), die < 32 * chCount d.fuse → (dieGet d die).arr = some a → a.suspended = true →
    Runs (.suspendHoldExpiry die) d (settled (fun x => resumeCheck die (diePut x die { dieGet x die with
      arr := some { a with due := true } })) d)) ∧
  (∀ (d : Dev) (die : Nat) (a : ArrRun), (dieGet d die).arr = some a → a.suspended = true → (dieGet d die).reading = [] →
    (a.due = true ∨ ∀ r ∈ (dieGet d die).rq, ∀ x, runGet d r = some x → mayRead d die r x = false) →
    resumeCheck die d = busUse die [if a.op = .erase then .eraseResume else .programResume] (diePut d die { dieGet d die with
      arr := some { a with suspended := false, due := false, since := d.hw.time, heldQ := [] } })) ∧
  (∀ (d : Dev) (die : Nat) (a : ArrRun), (dieGet d die).arr = some a → (a.suspended = false ∨ (dieGet d die).reading ≠ [] ∨
    (a.due = false ∧ ∃ r ∈ (dieGet d die).rq, ∃ x, runGet d r = some x ∧ mayRead d die r x = true)) → resumeCheck die d = d) ∧
  -- A read's data has reached the host through its Curd buffers: its completion is posted, with its statistics. With no buffer it waits.
  (∀ (d : Dev) (tag : Nat), (∀ o, tabGet d.host.ops tag = some o → o.st ≠ .ready ∨ o.ciphered = false) →
    Runs (.hostTransferDone tag) d d) ∧
  (∀ (d e : Dev) (tag : Nat) (o : Op) (bs : List Nat), tabGet d.host.ops tag = some o → o.st = .ready → o.ciphered = true →
    (bs, e) = (if o.bufs = [] then bufsTake o.port o.cmd.nlb d else (o.bufs, d)) →
    (bs = [] → Runs (.hostTransferDone tag) d e) ∧
    (bs ≠ [] → Runs (.hostTransferDone tag) d (ladderCheck (readClose tag .success (readDie d o) o.out
      (opMod tag (fun q => { q with bufs := bs }) e))))) ∧
  (∀ (d : Dev) (tag die : Nat) (st : NvStat) (data : List Nat) (o : Op), tabGet d.host.ops tag = some o →
    readClose tag st die data d =
      opEnd tag st 0 0 data (if o.cmd.op = .read ∧ o.quiet = false then readStats o die (decide (st = .success)) d else d)) ∧
  -- A write's data is in DRAM: its units count as dirty; completions follow that the dirty limit of their admission and the order of a
  -- zone's LBAs allow; then its units are placed, complete rows are queued, and rows are parked at the park threshold.
  (∀ (d : Dev) (tag : Nat), (∀ o, tabGet d.host.ops tag = some o → o.st ≠ .staging ∨ o.ciphered = false) →
    Runs (.writeDataStaged tag) d d) ∧
  (∀ (d : Dev) (tag : Nat) (o : Op) (n : Ns), tabGet d.host.ops tag = some o → o.st = .staging → o.ciphered = true →
    nsGet d o.cmd.nsid = some n → ∃ d1 d2 d3,
    d1 = opMod tag (fun o => { o with st := .staged, bufs := [] }) (fdpCount o.cmd.nlb o.cmd.nlb 0 (bufsFree o.port o.bufs
      (dirtyAdd o.cmd.nlb (if n.zoned then stageZoned o n d else stageConv o n d)))) ∧
    d2 = postWrites (if o.quiet then opEnd tag .success 0 0 [] d1 else d1) ∧
    d3 = (if n.zoned then (List.range o.cmd.nlb).foldl (fun x i =>
      rowReady (zoneSb (zoneGet d2 (zkey o.cmd.nsid (o.lba / n.zsze)))) ((o.lba + i) % n.zsze) x) d2 else d2) ∧
    Runs (.writeDataStaged tag) d (parkIfDirty (placeLoose d3))) ∧
  (∀ (d : Dev), (∀ q ∈ d.host.ops, q.2.st ≠ .staged) → postWrites d = d) ∧
  (∀ (d : Dev) (n : Ns) (o : Op), lowerDone d n o = true ↔ n.zoned = false ∨ ∀ q ∈ d.host.ops, isZoneWrite q.2.cmd.op = true →
    q.2.cmd.nsid = o.cmd.nsid → q.2.lba / n.zsze = o.lba / n.zsze → q.2.lba < o.lba → q.2.st = .staged) ∧
  -- A program or erase with its token starts, once its die, the pause and the spacing allow, an encoder and XORU for a program; the
  -- encoder's bank is woken for it.
  (∀ (d : Dev) (die : Nat), die < 32 * chCount d.fuse → Runs (.operationStart die) d (settled (opStart die) d)) ∧
  (∀ (d : Dev) (die : Nat) (j : FJob) (js : List FJob), (dieGet d die).pq = j :: js → j.token = true →
    chanRuns d (chOf die) = true → pauseFree d (chOf die) = true → spaced d (packOf die) = true → jobMay d die = true → encReady d j = true →
    (j.erase = false → domOn d.pwr (87 + chOf die / 12) = false → opStart die d = wakeReq (87 + chOf die / 12) 2 d) ∧
    ((j.erase = true ∨ domOn d.pwr (87 + chOf die / 12) = true) → ∃ e, opStart die d = e ∧
      (dieGet e die).pq = js ∧ (dieGet e die).guard = false ∧
      (dieGet e die).arr = some (arrNew (if j.erase then .erase else .program) (some j) d.hw.time) ∧
      tabGet e.fl.pacer.lastStart (packOf die) = some d.hw.time ∧ (chanGet e (chOf die)).lastStart = d.hw.time ∧
      (chanGet e (chOf die)).bus = some { ce := die % 32 / 8, lun := die % 8, cmds := jobCmds (prof d) j } ∧ e.med = (pilotMark die j 1 d).med)) ∧
  (∀ (d : Dev) (die : Nat), (∀ j js, (dieGet d die).pq = j :: js → j.token = false ∨ jobMay d die = false ∨ spaced d (packOf die) = false ∨
    chanRuns d (chOf die) = false ∨ pauseFree d (chOf die) = false ∨ encReady d j = false) → opStart die d = d)

/-- The I/O commands of Table 2.6 that read, and the completion of a command (R38, R41, R59, R91, R99, R223). -/
def Obligations.DataCommands : Prop :=
  -- A tag that names no admitted command of the row's kind has no effect but what a step settles.
  (∀ (d : Dev) (tag : Nat), tabGet d.host.ops tag = none →
    Runs (.read tag) d (settled id d) ∧ Runs (.verify tag) d (settled id d) ∧ Runs (.write tag) d d ∧ Runs (.zoneAppend tag) d d ∧
    Runs (.writeZeroes tag) d d ∧ Runs (.datasetManagement tag) d d ∧ Runs (.secureDiscard tag) d (jFlushIfNeeded d)) ∧
  -- Each command on data of the row's kind takes the step of its path.
  (∀ (d : Dev) (tag : Nat) (o : Op), tabGet d.host.ops tag = some o →
    (o.cmd.op = .read → Runs (.read tag) d (settled (onOp .read tag (readCmd tag false)) d)) ∧
    (o.cmd.op = .verify → Runs (.verify tag) d (settled (onOp .verify tag (readCmd tag true)) d)) ∧
    (o.cmd.op = .write → Runs (.write tag) d (writeStart tag d)) ∧
    (o.cmd.op = .append → Runs (.zoneAppend tag) d (writeStart tag d)) ∧
    (o.cmd.op = .writeZeroes → Runs (.writeZeroes tag) d (writeZeroes tag d)) ∧
    (o.cmd.op = .deallocate → Runs (.datasetManagement tag) d (deallocate tag d)) ∧
    (o.cmd.op = .secureDiscard → Runs (.secureDiscard tag) d (jFlushIfNeeded (secureDiscard tag d)))) ∧
  (∀ (d : Dev) (tag : Nat) (op : IoOp) (f : Dev → Dev) (o : Op), tabGet d.host.ops tag = some o → o.cmd.op = op → onOp op tag f d = f d) ∧
  -- A read waits for the earlier commands whose effect it must see; an Offline zone, a key that is not there, and a map that cannot serve
  -- end it with their status; else each block begins, and with every block at hand its data is ready. A Verify moves none.
  (∀ (d : Dev) (tag : Nat) (v : Bool) (o : Op) (n : Ns), tabGet d.host.ops tag = some o → nsGet d o.cmd.nsid = some n →
    (o.st ≠ .admitted ∨ o.cmd.op ≠ (if v then .verify else .read) ∨ readWaits d tag n o = true) → readCmd tag v d = d) ∧
  (∀ (d : Dev) (tag : Nat) (v gone : Bool) (o : Op) (n : Ns), tabGet d.host.ops tag = some o → nsGet d o.cmd.nsid = some n →
    o.st = .admitted → o.cmd.op = (if v then .verify else .read) → readWaits d tag n o = false →
    gone = (List.range o.cmd.nlb).any (fun i => match lbaAt d o.cmd.nsid (o.lba + i) with
      | .flash _ _ c | .dram c => keyGone d n o c | _ => false) →
    (readOffline d n o = true → readCmd tag v d = readClose tag .zoneOffline 0 [] d) ∧
    (∀ st, readOffline d n o = false → readKey d n o = some st → readCmd tag v d = readClose tag st 0 [] d) ∧
    (readOffline d n o = false → readKey d n o = none →
      (n.zoned = false → mapReady d n = false → readCmd tag v d = readClose tag .mapUnavailable 0 [] d) ∧
      ((n.zoned = true ∨ mapReady d n = true) → gone = true → readCmd tag v d = readClose tag .accessDenied 0 [] d) ∧
      ((n.zoned = true ∨ mapReady d n = true) → gone = false → ∃ o1 d0 d1 e,
        o1 = { o with
          st := .reading, out := (List.range o.cmd.nlb).map (fun _ => 0)
          ciphered := (List.range o.cmd.nlb).all (fun i => match lbaAt d o.cmd.nsid (o.lba + i) with
            | .flash _ _ c | .dram c => decide (c.cipher = 0) | _ => true) } ∧
        d0 = { d with host := { d.host with ops := tabPut d.host.ops tag o1 } } ∧
        d1 = (if n.zoned then d0 else (((List.range o.cmd.nlb).map (fun i => segOf d o.cmd.nsid (o.lba + i))).eraseDups).foldl
          (fun x s => segUse s false x) d0) ∧
        e = (List.range o.cmd.nlb).foldl (fun x i => readBlock tag i o1 x) d1 ∧
        ∀ q, tabGet e.host.ops tag = some q →
          (q.runs ≠ 0 → readCmd tag v d = e) ∧
          (∀ lba, q.runs = 0 → q.bad = some lba → readCmd tag v d = readClose tag .unrecoveredRead (readDie e q) []
            { e with host := { e.host with errLog := e.host.errLog ++ [(o.cmd.nsid, lba)] } }) ∧
          (q.runs = 0 → q.bad = none → readCmd tag v d =
            if v then opEnd tag .success 0 0 [] e else opMod tag (fun q => { q with st := .ready }) e)))) ∧
  -- A block never written, deallocated or beyond a write pointer is zeros; one in DRAM is there; a LOST one is unrecovered; one on flash
  -- gets a run, which its die's queue, its segment's rebuild or the rebuild from its stripe takes.
  (∀ (d : Dev) (tag i : Nat) (o : Op), lbaAt d o.cmd.nsid (o.lba + i) = .zeros →
    readBlock tag i o d = opMod tag (fun q => { q with out := q.out.set i 0 }) d) ∧
  (∀ (d : Dev) (tag i : Nat) (o : Op) (c : Copy), lbaAt d o.cmd.nsid (o.lba + i) = .dram c →
    readBlock tag i o d = opMod tag (fun q => { q with out := q.out.set i c.data }) d) ∧
  (∀ (d : Dev) (tag i sb k : Nat) (o : Op), lbaAt d o.cmd.nsid (o.lba + i) = .lost sb k → ∀ q, tabGet d.host.ops tag = some q → ∃ y,
    tabGet (readBlock tag i o d).host.ops tag = some y ∧ y.depth = 7 ∧
    y.bad = some (match q.bad with | some b => min b (o.lba + i) | none => o.lba + i)) ∧
  (∀ (d e : Dev) (tag i sb k : Nat) (o : Op) (c : Copy) (s : Sb) (x : Run), lbaAt d o.cmd.nsid (o.lba + i) = .flash sb k c →
    sbGet d sb = some s → x = { runAt d (.host tag i) (locAny d s k) sb k o.cls o.deadline (sbSlc s) with
      lba := o.lba + i, nsid := o.cmd.nsid, kennel := o.kennel, data := c.data, lost := c.lost
      seqLo := match nsGet d o.cmd.nsid with
        | some n => if n.zoned then none else some (entSeq (mapAt d o.cmd.nsid (o.lba + i)) % 65536) | none => none } →
    e = runPut { opMod tag (fun q => { q with runs := q.runs + 1 }) d with
      fl := { d.fl with nextRun := d.fl.nextRun + 1 } } d.fl.nextRun x →
    ((∃ n, nsGet d o.cmd.nsid = some n ∧ n.zoned = false ∧ segOf d o.cmd.nsid (o.lba + i) ∈ d.med.mapu.rebuild) →
      readBlock tag i o d = runPut e d.fl.nextRun { x with st := .segment }) ∧
    (¬ (∃ n, nsGet d o.cmd.nsid = some n ∧ n.zoned = false ∧ segOf d o.cmd.nsid (o.lba + i) ∈ d.med.mapu.rebuild) →
      (codeReadable d s sb k = true → readBlock tag i o d = runQueue d.fl.nextRun e) ∧
      (codeReadable d s sb k = false → readBlock tag i o d = loseOf (stepTo d.fl.nextRun 6 e)))) ∧
  -- What a zone shows: zeros past its write pointer or capacity and while it is reset securely; else the copy of its superblock, of its
  -- move's target, or parked.
  (∀ (d : Dev) (nsid lba : Nat) (n : Ns), nsGet d nsid = some n → n.zoned = true →
    ((zoneGet d (zkey nsid (lba / n.zsze))).secure.isSome = true ∨ (zoneGet d (zkey nsid (lba / n.zsze))).wp ≤ lba % n.zsze ∨
      (zoneGet d (zkey nsid (lba / n.zsze))).zcap ≤ lba % n.zsze) → lbaAt d nsid lba = .zeros) ∧
  (∀ (d : Dev) (nsid lba : Nat) (n : Ns), nsGet d nsid = some n → n.zoned = false → looseAt d nsid lba = none →
    lbaAt d nsid lba = mapSource d (mapAt d nsid lba)) ∧
  -- A completed command leaves the admitted ones, its buffers are free, its Kennel's count falls, and its completion is posted unless a
  -- reset has discarded it; a Host Memory Buffer that waited for it is disabled.
  (∀ (d e : Dev) (tag dw0 dw1 : Nat) (st : NvStat) (data : List Nat) (o : Op), tabGet d.host.ops tag = some o →
    e = bufsFree o.port o.bufs { d with host := { d.host with ops := tabDel d.host.ops tag } } →
    opEnd tag st dw0 dw1 data d = hmbSettle (if o.quiet then
        (if (kenGet e o.kennel).isSome then kenPut e o.kennel { kenOf e o.kennel with outstanding := (kenOf e o.kennel).outstanding - 1 } else e)
      else cqPost o.port o.fn o.sq o.cmd.cid st dw0 dw1 data
        (if (kenGet e o.kennel).isSome then kenPut e o.kennel { kenOf e o.kennel with outstanding := (kenOf e o.kennel).outstanding - 1 } else e))) ∧
  (∀ d : Dev, (∀ c ∈ d.host.hmbWait, homeOps d c.port = true) → hmbSettle d = d) ∧
  (∀ (d : Dev) (p fn sq cid dw0 dw1 : Nat) (st : NvStat) (data : List Nat), ∃ q, (cqPost p fn sq cid st dw0 dw1 data d).host.cq = d.host.cq ++ [q] ∧
    q.port = p ∧ q.fn = fn ∧ q.sq = sq ∧ q.cid = cid ∧ q.status = st ∧ q.dw0 = dw0 ∧ q.dw1 = dw1 ∧ q.data = data ∧
    (cqPost p fn sq cid st dw0 dw1 data d).host.ops = d.host.ops ∧ (cqPost p fn sq cid st dw0 dw1 data d).med = d.med)

/-- The I/O commands of Table 2.6 that write, deallocate, flush or securely discard (R59, R91, R99, R250, R271–R274, R303–R305). -/
def Obligations.WriteAndDiscardCommands : Prop :=
  -- A write that fails a check ends, a zoned one gives its LBAs back; with at least one Curd buffer its data begins to move.
  (∀ (d : Dev) (n : Ns) (o : Op), writeCheck d n o = match writeKey d n o with
    | .inl st => .inl st
    | .inr key => if n.zoned = true then .inr key else if mapReady d n = false then .inl .mapUnavailable
      else match placeOf d o.packs n o.cmd with | .inl st => .inl st | .inr _ => .inr key) ∧
  (∀ (d : Dev) (tag : Nat) (o : Op) (n : Ns), tabGet d.host.ops tag = some o → nsGet d o.cmd.nsid = some n → o.st ≠ .admitted →
    writeStart tag d = d) ∧
  (∀ (d : Dev) (tag : Nat) (o : Op) (n : Ns), tabGet d.host.ops tag = some o → nsGet d o.cmd.nsid = some n → o.st = .admitted →
    (o.cmd.op = .write ∨ o.cmd.op = .append ∨ (o.cmd.op = .writeZeroes ∧ n.zoned = true)) →
    (∀ st, writeCheck d n o = .inl st → writeStart tag d = if n.zoned then zoneWriteFail tag st d else opEnd tag st 0 0 [] d) ∧
    (∀ key, writeCheck d n o = .inr key → o.cmd.op = .writeZeroes → writeStart tag d = opMod tag (fun o => { o with
      st := .staging, dispatched := true, key := key, bufs := [], ciphered := true }) d) ∧
    (∀ key r, writeCheck d n o = .inr key → o.cmd.op ≠ .writeZeroes → r = bufsTake o.port o.cmd.nlb d → o.cmd.nlb ≠ 0 →
      (r.1 = [] → writeStart tag d = opMod tag (fun o => { o with dispatched := true }) r.2) ∧
      (r.1 ≠ [] → writeStart tag d = opMod tag (fun o => { o with
        st := .staging, dispatched := true, key := key, bufs := r.1, ciphered := decide (key.1 = 0) }) (widthRestore o.port r.2)))) ∧
  -- A zoned write's units take the next SEQ values and their zone offsets as positions; a conventional one's wait to be placed.
  (∀ (d : Dev) (o : Op) (n : Ns), o.cmd.nlb ≤ n.zsze → (stageZoned o n d).med.seqNext = d.med.seqNext + o.cmd.nlb ∧
    (∀ i < o.cmd.nlb, tabGet (stageZoned o n d).med.staged
        (uk (zoneSb (zoneGet d (zkey o.cmd.nsid (o.lba / n.zsze)))) ((o.lba + i) % n.zsze)) =
      some (newCopy o (o.lba + i) (d.med.seqNext + i) (opData o i))) ∧
    (∀ zk, zoneGet (stageZoned o n d) zk = zoneGet d zk) ∧ (stageZoned o n d).med.copies = d.med.copies) ∧
  (∀ (d : Dev) (o : Op) (n : Ns) (rg h : Nat), placeOf d o.packs n o.cmd = .inr (rg, h) →
    (stageConv o n d).med.seqNext = d.med.seqNext + o.cmd.nlb ∧ (stageConv o n d).med.loose = d.med.loose ++
      (List.range o.cmd.nlb).map (fun i => { copy := newCopy o (o.lba + i) (d.med.seqNext + i) (opData o i), group := rg, handle := h })) ∧
  -- A unit is placed at the next position of its placement's superblock, with its map entry and MAP record; a newer write or unmapping wins.
  (∀ (d : Dev) (u : Loose), u.copy.seq < entSeq (mapAt d u.copy.nsid u.copy.lba) → placeUnit u d = some (dirtySub 1 d)) ∧
  (∀ (d : Dev) (u : Loose) (n : Ns), entSeq (mapAt d u.copy.nsid u.copy.lba) ≤ u.copy.seq → nsGet d u.copy.nsid = some n →
    (convTarget u.group u.handle n.width u.copy.nsid u.copy.kennel d = none → placeUnit u d = none) ∧
    (∀ sb e, convTarget u.group u.handle n.width u.copy.nsid u.copy.kennel d = some (sb, e) → ∃ f, placeUnit u d = some f ∧
      tabGet f.med.mapu.map (mk u.copy.nsid u.copy.lba) = some (.media u.copy.seq sb (sbNextK e sb)) ∧
      (∀ w, w ≠ mk u.copy.nsid u.copy.lba → tabGet f.med.mapu.map w = tabGet e.med.mapu.map w) ∧
      jrUnit e u.copy.nsid u.copy.lba sb (sbNextK e sb) u.copy.seq ∈ f.med.jr.buf)) ∧
  -- Write Zeroes and deallocate on a conventional namespace: the range is UNMAPPED under the SEQ value of the admission, with its record.
  (∀ (d e : Dev) (tag : Nat) (o : Op) (n : Ns), tabGet d.host.ops tag = some o → nsGet d o.cmd.nsid = some n → o.st = .admitted →
    n.zoned = false → e = (if mapReady d n then opEnd tag .success 0 0 [] (jFlushIfNeeded (unmapAt o.cmd.nsid o.lba o.cmd.nlb o.seq false d))
      else opEnd tag .mapUnavailable 0 0 [] d) →
    (o.cmd.op = .writeZeroes → writeZeroes tag d = e) ∧ (o.cmd.op = .deallocate → deallocate tag d = e)) ∧
  (∀ (d : Dev) (nsid lba n seq : Nat) (secure : Bool),
    (∀ i < n, entSeq (mapAt d nsid (lba + i)) ≤ seq → mapAt (unmapAt nsid lba n seq secure d) nsid (lba + i) = .unmapped seq) ∧
    (∀ i < n, seq < entSeq (mapAt d nsid (lba + i)) → mapAt (unmapAt nsid lba n seq secure d) nsid (lba + i) = mapAt d nsid (lba + i)) ∧
    (∀ w, (∀ i < n, w ≠ mk nsid (lba + i)) → tabGet (unmapAt nsid lba n seq secure d).med.mapu.map w = tabGet d.med.mapu.map w) ∧
    (unmapAt nsid lba n seq secure d).med.jr.buf = d.med.jr.buf ++ [jrUnmap nsid lba n seq secure]) ∧
  -- On a zoned namespace Write Zeroes is a write of zeros, and a deallocate keeps the data.
  (∀ (d : Dev) (tag : Nat) (o : Op) (n : Ns), tabGet d.host.ops tag = some o → nsGet d o.cmd.nsid = some n → o.st = .admitted →
    n.zoned = true → (o.cmd.op = .writeZeroes → writeZeroes tag d = writeStart tag d) ∧
    (o.cmd.op = .deallocate → deallocate tag d = opEnd tag .success 0 0 [] d) ∧
    (o.cmd.op = .secureDiscard → secureDiscard tag d = opEnd tag .invalidOpcode 0 0 [] d)) ∧
  -- Flush completes at once: no volatile write cache is present.
  (∀ (d : Dev) (c : Src) (sq nsid : Nat), Runs (.flush c sq nsid) d (cqPost c.port c.fn sq c.cid
    (if decide (nsid = 0xFFFFFFFF) || (match nsGet d nsid with
      | some n => n.attached.contains (c.port * 64 + c.fn) | none => false) then .success else .invalidNamespace) 0 0 [] d)) ∧
  -- Secure Discard: UNMAPPED at once under s_d; with nothing to erase it is done, else it joins the secure operations of each Pack it touches.
  (∀ (d : Dev) (tag : Nat) (o : Op) (n : Ns), tabGet d.host.ops tag = some o → nsGet d o.cmd.nsid = some n → o.st = .admitted →
    o.cmd.op = .secureDiscard → n.zoned = false → mapReady d n = false → secureDiscard tag d = opEnd tag .mapUnavailable 0 0 [] d) ∧
  (∀ (d e : Dev) (tag : Nat) (o : Op) (n : Ns), tabGet d.host.ops tag = some o → nsGet d o.cmd.nsid = some n → o.st = .admitted →
    o.cmd.op = .secureDiscard → n.zoned = false → mapReady d n = true → e = unmapAt o.cmd.nsid o.lba o.cmd.nlb o.seq true d →
    (discardSet d o.cmd.nsid o.lba o.cmd.nlb = [] → secureDiscard tag d = opEnd tag .success 0 0 [] { jput (jrDone o.seq) e with
      hw := irq e.hw irqMapu 11 }) ∧
    (discardSet d o.cmd.nsid o.lba o.cmd.nlb ≠ [] → ∃ f, secureDiscard tag d = secAdvance f ∧ f.med.mapu = e.med.mapu ∧
      tabGet f.host.ops tag = some { o with st := .erasing } ∧
      ∀ q ∈ discardSet d o.cmd.nsid o.lba o.cmd.nlb, ∃ x ∈ f.med.secure, x.tags = [tag] ∧ x.pack = q.2.pack ∧ q.1 ∈ x.sbs ∧
        x.seq = o.seq ∧ x.zone = none ∧ x.ready = true)) ∧
  -- It completes with its last Pack, once every block there is erased and verified: a DONE record, and DISCARD_DONE.
  (∀ (d : Dev) (p : Nat), p < packCount d.fuse → (∀ o, d.med.secure.find? (fun x => x.wide || decide (x.pack = p)) = some o →
    o.zone.isSome = true ∨ secDone d o = false) → Runs (.secureDiscardComplete p) d (jFlushIfNeeded d)) ∧
  (∀ (d e : Dev) (p : Nat) (o : SecOp), p < packCount d.fuse → d.med.secure.find? (fun x => x.wide || decide (x.pack = p)) = some o →
    o.zone = none → secDone d o = true → e = secLeave p d →
    Runs (.secureDiscardComplete p) d (jFlushIfNeeded (if e.med.secure.any (fun x => decide (x.seq = o.seq)) then e
      else tagsEnd o.tags { jput (jrDone o.seq) e with hw := irq e.hw irqMapu 11 })))

/-- Zone management (R82, R86–R94, R101, R107–R114). -/
def Obligations.ZoneCommands : Prop :=
  -- The five actions, in their turn.
  (∀ (d : Dev) (tag : Nat), Runs (.zoneOpen tag) d (jFlushIfNeeded (zoneSend .open_ tag d)) ∧
    Runs (.zoneClose tag) d (jFlushIfNeeded (zoneSend .close tag d)) ∧ Runs (.zoneFinish tag) d (jFlushIfNeeded (zoneSend .finish tag d)) ∧
    Runs (.zoneReset tag) d (jFlushIfNeeded (zoneSend .reset tag d)) ∧ Runs (.zoneOffline tag) d (jFlushIfNeeded (zoneSend .offline tag d))) ∧
  -- A command waits for the earlier ones of its zone.
  (∀ (d : Dev) (tag : Nat) (a : ZAct), (∀ o n, tabGet d.host.ops tag = some o → nsGet d o.cmd.nsid = some n →
    o.st ≠ .admitted ∨ o.cmd.op ≠ .zoneSend ∨ o.cmd.act ≠ a ∨ zoneEarlier d n tag o = true) → zoneSend a tag d = d) ∧
  -- On one zone its state is judged again, an Open closes the zone that R89 names, and success follows, or the end of the secure reset.
  (∀ (d : Dev) (tag zk : Nat) (a : ZAct) (o : Op) (n : Ns), tabGet d.host.ops tag = some o → nsGet d o.cmd.nsid = some n →
    o.st = .admitted → o.cmd.op = .zoneSend → o.cmd.act = a → o.cmd.all = false → zoneEarlier d n tag o = false →
    zk = zkey o.cmd.nsid (o.cmd.slba / n.zsze) →
    (∀ st, zoneActCheck d o.cmd.nsid zk a = .inl st → zoneSend a tag d = opEnd tag st 0 0 [] d) ∧
    (∀ v, zoneActCheck d o.cmd.nsid zk a = .inr v → zoneSend a tag d =
      if (zoneAct a zk tag v d).1 = true then opEnd tag .success 0 0 [] (zoneAct a zk tag v d).2
      else opMod tag (fun o => { o with st := .erasing }) (zoneAct a zk tag v d).2)) ∧
  -- Select All acts on every zone that the action's states name; it opens none where the open limit would be passed.
  (∀ (d : Dev) (tag : Nat) (a : ZAct) (o : Op) (n : Ns) (r : Bool × Dev), tabGet d.host.ops tag = some o → nsGet d o.cmd.nsid = some n →
    o.st = .admitted → o.cmd.op = .zoneSend → o.cmd.act = a → o.cmd.all = true → zoneEarlier d n tag o = false →
    r = (allZones d o.packs o.cmd.nsid n a).foldl (fun (b : Bool × Dev) zk =>
      ((b.1 && (zoneAct a zk tag none b.2).1), (zoneAct a zk tag none b.2).2)) (true, d) →
    zoneSend a tag d = if a = .open_ ∧ 4096 < openCount d o.cmd.nsid + (allZones d o.packs o.cmd.nsid n a).length then
        opEnd tag .tooManyOpen 0 0 [] d
      else if r.1 = true then opEnd tag .success 0 0 [] r.2 else opMod tag (fun o => { o with st := .erasing }) r.2) ∧
  -- The checks of an action: a secure reset first, then Table 3.4, whose missing rows answer by state.
  (∀ (d : Dev) (nsid zk : Nat) (a : ZAct), zoneActCheck d nsid zk a =
    if (zoneGet d zk).secure.isSome = true then (if a = .reset then .inr none else .inl .invalidZoneTransition)
    else if zoneAllows a (zoneGet d zk).st = true then
      (if a = .open_ ∧ ((zoneGet d zk).st = .empty ∨ (zoneGet d zk).st = .closed) then openCheck d nsid (zoneGet d zk).st else .inr none)
    else match (zoneGet d zk).st with
      | .offline => .inl .zoneOffline | .readOnly => .inl .zoneReadOnly | .full => .inl .zoneFull | _ => .inl .invalidZoneTransition) ∧
  (∀ s : ZSt, (zoneAllows .open_ s = true ↔ s = .empty ∨ s = .impOpen ∨ s = .closed) ∧ (zoneAllows .close s = true ↔ s = .impOpen ∨ s = .expOpen) ∧
    (zoneAllows .finish s = true ↔ s = .empty ∨ s = .impOpen ∨ s = .expOpen ∨ s = .closed) ∧
    (zoneAllows .reset s = true ↔ s = .full ∨ s = .impOpen ∨ s = .expOpen ∨ s = .closed ∨ s = .empty) ∧
    (zoneAllows .offline s = true ↔ s = .readOnly)) ∧
  (∀ (d : Dev) (nsid : Nat) (s : ZSt), (openCount d nsid < 4096 → (s = .closed ∨ (activeCount d nsid < 4096 ∧ activeAll d < 16384)) →
      openCheck d nsid s = .inr none) ∧
    (4096 ≤ openCount d nsid → (∀ q ∈ nsZones d nsid, q.2.st ≠ .impOpen) → openCheck d nsid s = .inl .tooManyOpen) ∧
    (s = .empty → openCount d nsid < 4096 → (4096 ≤ activeCount d nsid ∨ 16384 ≤ activeAll d) → openCheck d nsid s = .inl .tooManyActive) ∧
    (∀ v, openCheck d nsid s = .inr (some v) → 4096 ≤ openCount d nsid ∧ ∃ z, (v, z) ∈ nsZones d nsid ∧ z.st = .impOpen ∧
      ∀ q ∈ nsZones d nsid, q.2.st = .impOpen → z.lastWrite.toNat ≤ q.2.lastWrite.toNat)) ∧
  -- What each action does.
  (∀ (d : Dev) (zk tag : Nat) (v : Option Nat), zoneAct .open_ zk tag v d = (true, zoneSet zk { zoneGet d zk with
      st := .expOpen, openedAt := if isOpen (zoneGet d zk).st then (zoneGet d zk).openedAt else d.hw.time }
      (match v with | some w => zoneClose w d | none => d)) ∧
    zoneAct .close zk tag v d = (true, zoneClose zk d) ∧ zoneAct .finish zk tag v d = (true, zoneFinish zk false d) ∧
    zoneAct .offline zk tag v d = (true, zoneOffline zk d) ∧
    ((zoneGet d zk).secure = none → (zoneGet d zk).st = .empty → zoneAct .reset zk tag v d = (true, d)) ∧
    (∀ n, nsGet d (zk / 1048576) = some n → (zoneGet d zk).secure = none → (zoneGet d zk).st ≠ .empty →
      zoneAct .reset zk tag v d = if n.secureMode then (false, secureReset zk tag d) else (true, zoneReset zk d)) ∧
    (∀ ts, (zoneGet d zk).secure = some ts → tag ∉ ts → ts ≠ [] →
      zoneAct .reset zk tag v d = (false, zonePut d zk { zoneGet d zk with secure := some (ts ++ [tag]) })) ∧
    (∀ ts, (zoneGet d zk).secure = some ts → ts.head? = some tag → zoneAct .reset zk tag v d = (false, secureTurn zk tag d))) ∧
  (∀ (d : Dev) (zk : Nat) (n : Ns) (z : Zone), nsGet d (zk / 1048576) = some n → zoneGet (zoneSet zk z d) zk = z ∧
    (∀ o, o ≠ zk → zoneGet (zoneSet zk z d) o = zoneGet d o) ∧
    ∃ r ∈ (zoneSet zk z d).med.jr.buf, r.type = 4 ∧ r.nsid = zk / 1048576 ∧ r.a = zslba n (zk % 1048576) ∧ r.b = z.wp) ∧
  (∀ (d : Dev) (zk : Nat), zoneClose zk d = if (zoneGet d zk).wp = 0 then zoneSet zk { zoneGet d zk with st := .empty } d
    else parkZone zk (zoneSet zk { zoneGet d zk with st := .closed } d)) ∧
  (∀ (d : Dev) (zk : Nat) (n : Ns), nsGet d (zk / 1048576) = some n →
    zoneGet (zoneFinish zk false d) zk = { zoneGet d zk with st := .full, fullByWp := false } ∧
    zoneGet (zoneFinish zk true d) zk = { zoneGet d zk with st := .full, fullByWp := false, zfc := true } ∧
    zoneGet (zoneOffline zk d) zk = { zoneGet d zk with st := .offline, sb := 0 } ∧
    (∀ o, o ≠ zk → zoneGet (zoneFinish zk false d) o = zoneGet d o ∧ zoneGet (zoneFinish zk true d) o = zoneGet d o ∧
      zoneGet (zoneOffline zk d) o = zoneGet d o)) ∧
  (∀ (d : Dev) (zk : Nat) (n : Ns), nsGet d (zk / 1048576) = some n → (zoneGet d zk).st ≠ .empty →
    (zoneGet (zoneReset zk d) zk).wp = 0 ∧
    ((zoneGet (zoneReset zk d) zk).st = .empty ∨ (zoneGet (zoneReset zk d) zk).st = .readOnly) ∧
    jrReset (zk / 1048576) (zslba n (zk % 1048576)) d.med.seqNext false ∈ (zoneReset zk d).med.jr.buf ∧
    (zoneReset zk d).med.seqNext ≠ d.med.seqNext ∧
    ∀ o, o ≠ zk → zoneGet (zoneReset zk d) o = zoneGet d o ∨ zoneGet (zoneReset zk d) o = { zoneGet d o with st := .readOnly }) ∧
  -- Parking changes no zone but the mark of how far its row is parked; a spare floor that it reaches makes zones Read Only.
  (∀ (d : Dev) (zk o : Nat), ∃ p st, zoneGet (parkZone zk d) o = { zoneGet d o with parkedTo := p, st := st } ∧
    (st = (zoneGet d o).st ∨ st = .readOnly) ∧ (o ≠ zk → p = (zoneGet d o).parkedTo)) ∧
  (∀ (d : Dev) (zk lo : Nat) (s : Sb) (us : List Copy), sbGet d (zoneSb (zoneGet d zk)) = some s →
    lo = max (partialFrom d (zoneGet d zk)) (zoneGet d zk).parkedTo →
    us = parkRun d (zoneSb (zoneGet d zk)) lo ((zoneGet d zk).wp - lo) → (us = [] ∨ (parkPlace s us d).1 = 0 → parkZone zk d = d) ∧
    (us ≠ [] → (parkPlace s us d).1 ≠ 0 → ∃ e, e = parkClose s (parkPlace s us d).2 ∧ parkZone zk d = parkCollect s.pack (zonePut e zk
      { zoneGet e zk with parkedTo := lo + (parkPlace s us d).1 }))) ∧
  -- A secure reset is marked at its admission: the zone shows zeros, a RESET record stands, and the erasure has its place in its Packs.
  (∀ (d : Dev) (zk tag : Nat) (n : Ns), nsGet d (zk / 1048576) = some n → (zoneGet d zk).secure = none → (zoneGet d zk).st ≠ .empty →
    zoneGet (secureMark zk tag d) zk = { zoneGet d zk with secure := some [tag] } ∧
    jrReset (zk / 1048576) (zslba n (zk % 1048576)) d.med.seqNext true ∈ (secureMark zk tag d).med.jr.buf ∧
    ∃ o ∈ (secureMark zk tag d).med.secure, o.tags = [tag] ∧ o.zone = some zk ∧ o.nsid = zk / 1048576 ∧ o.seq = d.med.seqNext ∧
      o.lba = zslba n (zk % 1048576) ∧ o.n = n.zsze ∧ o.ready = false ∧ o.wide = decide (n.width = 48)) ∧
  (∀ (d : Dev) (zk tag : Nat), ∃ e, secureTurn zk tag d = secAdvance e ∧ zoneGet e zk = { zoneGet d zk with moving := none } ∧
    (∀ m ∈ e.med.moves, m.zone ≠ some zk) ∧ ∀ o ∈ e.med.secure, o.zone = some zk → tag ∈ o.tags → o.ready = true) ∧
  -- It completes once every block of its zone is erased: the zone is bound anew, a DONE record follows, joined resets end.
  (∀ (d : Dev) (p : Nat), p < packCount d.fuse → (∀ o, d.med.secure.find? (fun x => x.wide || decide (x.pack = p)) = some o →
    o.zone = none ∨ secDone d o = false) → Runs (.secureResetComplete p) d (jFlushIfNeeded d)) ∧
  (∀ (d : Dev) (p zk : Nat) (o : SecOp), p < packCount d.fuse → d.med.secure.find? (fun x => x.wide || decide (x.pack = p)) = some o →
    o.zone = some zk → secDone d o = true →
    Runs (.secureResetComplete p) d (jFlushIfNeeded (tagsEnd (((zoneGet d zk).secure).getD []) (secLeave p (jput (jrDone o.seq)
      (zoneBind zk (parkSweep (parkDrop o.nsid o.lba o.n d)))))))) ∧
  (∀ (d : Dev) (t : Nat) (ts : List Nat), tagsEnd [] d = d ∧
    tagsEnd (t :: ts) d = tagsEnd ts (if tagPending d t then d else opEnd t .success 0 0 [] d)) ∧
  -- Report Zones gives each zone's state, attributes, capacity, start and write pointer.
  (∀ (d : Dev) (c : Src) (sq nsid lba count : Nat), Runs (.reportZones c sq nsid lba count) d (match nsGet d nsid with
    | none => cqPost c.port c.fn sq c.cid .invalidNamespace 0 0 [] d
    | some n => if n.attached.contains (c.port * 64 + c.fn) = false then cqPost c.port c.fn sq c.cid .invalidNamespace 0 0 [] d
      else if n.zoned = false then cqPost c.port c.fn sq c.cid .invalidOpcode 0 0 [] d
      else if n.nsze ≤ lba then cqPost c.port c.fn sq c.cid .lbaRange 0 0 [] d
      else cqPost c.port c.fn sq c.cid .success 0 0
        ((zoneCount n - lba / n.zsze) :: (List.range (min count (zoneCount n - lba / n.zsze))).flatMap (fun i =>
        [(zoneGet d (zkey nsid (lba / n.zsze + i))).st.code, (if (zoneGet d (zkey nsid (lba / n.zsze + i))).zfc then 1 else 0) +
          (if (zoneGet d (zkey nsid (lba / n.zsze + i))).fzr then 2 else 0), (zoneGet d (zkey nsid (lba / n.zsze + i))).zcap,
         zslba n (lba / n.zsze + i), zslba n (lba / n.zsze + i) + (zoneGet d (zkey nsid (lba / n.zsze + i))).wp])) d)) ∧
  -- An active zone open for FRL gets FZR and an event; for 2 × FRL, it is finished with ZFC; idle, its partial row is parked.
  (∀ (d : Dev) (nsid zn zk : Nat) (n : Ns), zk = zkey nsid zn → nsGet d (zk / 1048576) = some n → isActive (zoneGet d zk).st = true →
    (zoneGet d zk).fzr = false → Runs (.zoneFrlExpiry nsid zn) d
      (n.attached.foldl (fun x ck => asyncPost ck (asyncDw 2 0xEF 0xBF) x) (zoneSet zk { zoneGet d zk with fzr := true } d))) ∧
  (∀ (d : Dev) (nsid zn : Nat), (isActive (zoneGet d (zkey nsid zn)).st = false ∨ (zoneGet d (zkey nsid zn)).fzr = true) →
    Runs (.zoneFrlExpiry nsid zn) d d) ∧
  (∀ (d : Dev) (nsid zn : Nat), Runs (.zoneForcedFinish nsid zn) d (jFlushIfNeeded (if isActive (zoneGet d (zkey nsid zn)).st = true ∧
      (zoneGet d (zkey nsid zn)).fzr = true ∧ (zoneGet d (zkey nsid zn)).secure = none then zoneFinish (zkey nsid zn) true d else d))) ∧
  (∀ (d : Dev) (nsid zn : Nat), Runs (.parkIdleExpiry nsid zn) d (if d.med.layout.parkIdleMs = 0 ∨
      isActive (zoneGet d (zkey nsid zn)).st = false then d else parkZone (zkey nsid zn) d)) ∧
  -- A zoned write that fails before its data is protected: the write pointer returns to its first LBA, a zone Full by it is Closed, and the
  -- commands of later LBAs fail with it.
  (∀ (d : Dev) (tag : Nat) (ue : Bool), Runs (.zoneWriteFail tag ue) d (zoneWriteFail tag (if ue then .ownError else .dataTransfer) d)) ∧
  (∀ (d : Dev) (tag zk : Nat) (st : NvStat) (o : Op) (n : Ns), tabGet d.host.ops tag = some o → nsGet d o.cmd.nsid = some n → n.zoned = true →
    o.st ≠ .staged → isZoneWrite o.cmd.op = true → zk = zkey o.cmd.nsid (o.lba / n.zsze) → zk / 1048576 = o.cmd.nsid → ∃ e,
    zoneWriteFail tag st d = (d.host.ops.filter (fun q => decide (q.1 ≠ tag) && decide (q.2.cmd.nsid = o.cmd.nsid)
      && isZoneWrite q.2.cmd.op && decide (q.2.lba / n.zsze = o.lba / n.zsze) && decide (o.lba < q.2.lba))).foldl
        (fun x q => opEnd q.1 .zoneInvalidWrite 0 0 [] x) (opEnd tag st 0 0 [] e) ∧
    (zoneGet e zk).wp = o.lba % n.zsze ∧
    ((zoneGet d zk).st = .full → (zoneGet d zk).fullByWp = true → o.lba % n.zsze < (zoneGet d zk).zcap → (zoneGet e zk).st = .closed) ∧
    ((zoneGet d zk).st ≠ .full → (zoneGet e zk).st = (zoneGet d zk).st) ∧ (∀ w, w ≠ zk → zoneGet e w = zoneGet d w)) ∧
  (∀ (d : Dev) (tag : Nat) (st : NvStat), (∀ o n, tabGet d.host.ops tag = some o → nsGet d o.cmd.nsid = some n →
    n.zoned = false ∨ o.st = .staged ∨ isZoneWrite o.cmd.op = false) → zoneWriteFail tag st d = d)

/-- When an admin command executes: only at a present controller that is enabled and ready, with firmware behind it and its link up; a
vendor command of a VF is an unknown opcode (R51, R55, R78); a trial refuses the listed commands (R440). What a completion leaves: its
entry on the controller's admin completion queue, and nothing of the media, the tenants, the keys or the flash (R78). -/
def Obligations.AdminGates : Prop :=
  (∀ (d : Dev) (c : Src), adminUp c d = false → ∀ (b b1 : Bool) (i j k l : Nat) (bs : List Byte) (is : List Nat) (va : VirtAct),
    Runs (.namespaceCreate c b i j b1 k) d d ∧ Runs (.namespaceDelete c i) d d ∧ Runs (.namespaceAttach c i b is) d d ∧
    Runs (.getLogPage c i j k l) d d ∧ Runs (.identify c i j) d d ∧ Runs (.setFeaturesTimestamp c b i) d d ∧
    Runs (.getFeaturesTimestamp c) d d ∧ Runs (.setFeaturesZoneResetMode c i b b1) d d ∧ Runs (.setFeaturesFdp c b b1) d d ∧
    Runs (.setFeaturesPowerState c i b) d d ∧ Runs (.setFeaturesTemperatureThreshold c b i j b1) d d ∧ Runs (.hmbEnable c i) d d ∧
    Runs (.hmbDisable c) d d ∧ Runs (.virtualizationManagement c i va) d d ∧ Runs (.nvmeAbort c i j) d d ∧
    Runs (.asynchronousEventRequest c) d d ∧ Runs (.firmwareImageDownload c i bs) d d ∧ Runs (.firmwareCommit c i j) d d ∧
    Runs (.formatNvm c i j) d d ∧ Runs (.sanitizeBlockErase c) d d ∧ Runs (.sanitizeCryptoErase c) d d ∧
    Runs (.keyInjection c i j b bs) d d ∧ Runs (.kekEstablishment c i bs) d d ∧
    Runs (.layoutTransfer c i bs) d d ∧
    Runs (.layoutVerifyStage c) d d ∧ Runs (.layoutDiscard c) d d ∧ Runs (.kennelSet c i bs) d d ∧ Runs (.kennelDelete c i) d d ∧
    Runs (.kennelRead c i) d d ∧ Runs (.kennelBindFunction c i j k) d d ∧ Runs (.kennelBindNamespace c i j) d d ∧
    Runs (.kennelUnbindNamespace c i j) d d ∧ Runs (.unitTakeOut c i j) d d ∧ Runs (.unitReturn c i j) d d ∧
    Runs (.unitQuery c i j) d d ∧ Runs (.evrecCtrlFlush c) d d ∧ Runs (.evrecCtrlClear c) d d ∧
    Runs (.evrecSetRateLimit c i j k) d d ∧ Runs (.evrecReadRateLimit c i) d d ∧ Runs (.debugGetChallenge c) d d ∧
    Runs (.debugSubmitResponse c bs) d d) ∧
  (∀ (d e : Dev) (c : Src), adminUp c d = true → c.fn ≠ 0 → e = adminDone c .invalidOpcode 0 [] d → ∀ (i j k : Nat) (bs : List Byte),
    Runs (.layoutTransfer c i bs) d e ∧ Runs (.layoutVerifyStage c) d e ∧ Runs (.layoutDiscard c) d e ∧ Runs (.kennelSet c i bs) d e ∧
    Runs (.kennelDelete c i) d e ∧ Runs (.kennelRead c i) d e ∧ Runs (.kennelBindFunction c i j k) d e ∧
    Runs (.kennelBindNamespace c i j) d e ∧ Runs (.kennelUnbindNamespace c i j) d e ∧ Runs (.unitTakeOut c i j) d e ∧
    Runs (.unitReturn c i j) d e ∧ Runs (.unitQuery c i j) d e ∧ Runs (.evrecCtrlFlush c) d e ∧ Runs (.evrecCtrlClear c) d e ∧
    Runs (.evrecSetRateLimit c i j k) d e ∧ Runs (.evrecReadRateLimit c i) d e ∧ Runs (.debugGetChallenge c) d e ∧
    Runs (.debugSubmitResponse c bs) d e) ∧
  (∀ (d e : Dev) (c : Src), adminUp c d = true → c.fn = 0 → d.boot.trial = true → e = adminDone c .interrupted 0 [] d →
    ∀ (b b1 : Bool) (i j k : Nat) (bs : List Byte) (is : List Nat),
    Runs (.kennelSet c i bs) d e ∧ Runs (.kennelDelete c i) d e ∧ Runs (.kennelBindFunction c i j k) d e ∧
    Runs (.kennelBindNamespace c i j) d e ∧ Runs (.kennelUnbindNamespace c i j) d e ∧ Runs (.namespaceCreate c b i j b1 k) d e ∧
    Runs (.namespaceDelete c i) d e ∧ Runs (.namespaceAttach c i b is) d e ∧ Runs (.setFeaturesTimestamp c true i) d e ∧
    Runs (.setFeaturesZoneResetMode c i true b1) d e ∧ Runs (.setFeaturesFdp c b true) d e ∧
    Runs (.setFeaturesPowerState c i true) d e ∧ Runs (.setFeaturesTemperatureThreshold c b i j true) d e ∧
    Runs (.firmwareCommit c i j) d e ∧ Runs (.layoutTransfer c i bs) d e ∧ Runs (.layoutVerifyStage c) d e ∧
    Runs (.layoutDiscard c) d e ∧ Runs (.evrecSetRateLimit c i j k) d e) ∧
  (∀ (d e : Dev) (c : Src) (st : NvStat) (dw0 : Nat) (data : List Nat), e = adminDone c st dw0 data d → ∃ q,
    e.host.cq = d.host.cq ++ [q] ∧ q.port = c.port ∧ q.fn = c.fn ∧ q.sq = 0 ∧ q.cq = 0 ∧ q.vector = 0 ∧ q.cid = c.cid ∧ q.status = st ∧
    q.dw0 = dw0 ∧ q.dw1 = 0 ∧ q.data = data ∧ e.med = d.med ∧ e.ten = d.ten ∧ e.sec = d.sec ∧ e.fl = d.fl ∧ e.boot = d.boot)

/-- Namespaces: creation, deletion, attachment, and what Identify and the log pages answer (R5, R6, R51, R53, R75, R85, R96, R116, R261,
R264, R297, R390). -/
def Obligations.NamespaceCommands : Prop :=
  -- A create that passes its checks takes the lowest free NSID and, but for a plaintext Kennel or a part without keys, makes a key in the
  -- lowest slot that can take one; key material waits for the DRBG.
  (∀ (d : Dev) (c : Src) (zoned kpio : Bool) (nsze width handles nsid k w cipher : Nat) (n : Ns), adminUp c d = true →
    d.boot.trial = false → d.med.volUnknown = false → w = (if width = 0 then d.med.layout.width else width) →
    k = fnKennel d c.port c.fn →
    cipher = (if hasCrypto d.fuse = false ∨ k ∈ d.med.layout.plain then 0 else if kpio then 2 else 1) →
    createFields d zoned nsze w kpio handles = true → freeNsid d = some nsid → n = nsNew d c zoned nsze w cipher handles →
    slotsFit d n = true →
    (cipher = 0 → Runs (.namespaceCreate c zoned nsze width kpio handles) d (nsInstall c nsid k n d)) ∧
    (cipher ≠ 0 → freeSlot d = none →
      Runs (.namespaceCreate c zoned nsze width kpio handles) d (adminDone c .resourceExhausted 0 [] d)) ∧
    (∀ s, cipher ≠ 0 → freeSlot d = some s → drbgReady d.sec = false → Runs (.namespaceCreate c zoned nsze width kpio handles) d { d with
      host := { d.host with rndHeld := d.host.rndHeld ++ [.create c zoned nsze width kpio handles] } }) ∧
    (∀ s, cipher ≠ 0 → freeSlot d = some s → drbgReady d.sec = true → nsKeyMake nsid s k n d = none →
      Runs (.namespaceCreate c zoned nsze width kpio handles) d (adminDone c .keyExhausted 0 [] d)) ∧
    (∀ s n1 y, cipher ≠ 0 → freeSlot d = some s → drbgReady d.sec = true → nsKeyMake nsid s k n d = some (n1, y) →
      Runs (.namespaceCreate c zoned nsze width kpio handles) d (nsInstall c nsid k n1 y))) ∧
  -- The namespace exists, bound to the creating function's Kennel, with its zones or its segments; the volume is written anew.
  (∀ (d : Dev) (c : Src) (nsid k : Nat) (n : Ns), ∃ x, nsInstall c nsid k n d = adminDone c .success nsid [] (volWrite
      (if n.zoned then zonesCreate nsid n x
        else { x with med := { x.med with mapu := { x.med.mapu with segBase := tabPut x.med.mapu.segBase nsid n.base } } })) ∧
    nsGet x nsid = some n ∧ x.ten.nsBind = d.ten.nsBind ++ [(nsid, k)] ∧ x.med.formatted = true ∧
    x.med.volGen = (if d.med.formatted then d.med.volGen else 0) ∧ jrNs nsid n.base n.nsze false ∈ x.med.jr.buf ∧
    (d.med.formatted = true → ∀ i, i ≠ nsid → nsGet x i = nsGet d i)) ∧
  (∀ (d : Dev) (nsid : Nat) (n : Ns),
    zonesCreate nsid n d = (List.range (zoneCount n)).foldl (fun x z => zoneBind (zkey nsid z) x) d) ∧
  (∀ d : Dev, (volWrite d).med.volGen = d.med.volGen + 1 ∧ (volWrite d).med.volWritten = d.aff.mtime ∧ (volWrite d).ten = d.ten) ∧
  -- The key of a namespace: a new generation of its slot, bound to the Kennel, and kept wrapped.
  (∀ (d x1 : Dev) (nsid s k : Nat) (n n1 : Ns), nsKeyMake nsid s k n d = some (n1, x1) →
    n1 = { n with slot := s, keyGen := (slotGet d.sec s).gen + 1, keyCheck := keyCheckOf (slotGet x1.sec s), keyFailed := false } ∧
    (slotGet x1.sec s).kennel = k ∧ (slotGet x1.sec s).type = 1 ∧ (slotGet x1.sec s).scope = 1 ∧ x1.ten = d.ten ∧
    (∀ t, t ≠ s → slotGet x1.sec t = slotGet d.sec t)) ∧
  -- The refusals of a create, in their order.
  (∀ (d : Dev) (c : Src) (zoned kpio : Bool) (nsze width handles w : Nat), adminUp c d = true → d.boot.trial = false →
    w = (if width = 0 then d.med.layout.width else width) →
    (d.med.volUnknown = true → Runs (.namespaceCreate c zoned nsze width kpio handles) d (adminDone c .layoutFrozen 0 [] d)) ∧
    (d.med.volUnknown = false → createFields d zoned nsze w kpio handles = false →
      Runs (.namespaceCreate c zoned nsze width kpio handles) d (adminDone c .invalidField 0 [] d)) ∧
    (d.med.volUnknown = false → createFields d zoned nsze w kpio handles = true → freeNsid d = none →
      Runs (.namespaceCreate c zoned nsze width kpio handles) d (adminDone c .nsidUnavailable 0 [] d)) ∧
    (∀ nsid cipher, d.med.volUnknown = false → createFields d zoned nsze w kpio handles = true → freeNsid d = some nsid →
      cipher = (if hasCrypto d.fuse = false ∨ fnKennel d c.port c.fn ∈ d.med.layout.plain then 0 else if kpio then 2 else 1) →
      slotsFit d (nsNew d c zoned nsze w cipher handles) = false →
      Runs (.namespaceCreate c zoned nsze width kpio handles) d (adminDone c .insufficientCapacity 0 [] d))) ∧
  -- A delete removes the namespace, its bindings, its zones, its map entries and its key, and the volume changes.
  (∀ (d : Dev) (c : Src) (nsid : Nat) (n : Ns), adminUp c d = true → d.boot.trial = false → nsid ≠ 0xFFFFFFFF → nsGet d nsid = some n →
    Runs (.namespaceDelete c nsid) d (adminDone c .success 0 [] (volWrite (areaReserve (nsRemove nsid n d))))) ∧
  (∀ (d : Dev) (nsid : Nat) (n : Ns), tabRising d.ten.namespaces = true →
    nsGet (nsRemove nsid n d) nsid = none ∧ (∀ i, i ≠ nsid → nsGet (nsRemove nsid n d) i = nsGet d i) ∧
    (∀ q ∈ (nsRemove nsid n d).ten.nsBind, q.1 ≠ nsid) ∧ (∀ q ∈ (nsRemove nsid n d).ten.zones, q.1 / 1048576 ≠ nsid) ∧
    (∀ q ∈ (nsRemove nsid n d).med.mapu.map, q.1 / 17592186044416 ≠ nsid) ∧
    (n.cipher ≠ 0 → slotGet (nsRemove nsid n d).sec n.slot = slotClear (slotGet d.sec n.slot))) ∧
  (∀ (d : Dev) (c : Src), adminUp c d = true → d.boot.trial = false →
    Runs (.namespaceDelete c 0xFFFFFFFF) d (adminDone c .success 0 [] (volWrite (areaReserve
      (d.ten.namespaces.foldl (fun x q => nsRemove q.1 q.2 x) d))))) ∧
  -- No namespace of that number.
  (∀ (d : Dev) (c : Src) (nsid : Nat) (attach : Bool) (ids : List Nat), adminUp c d = true → d.boot.trial = false →
    nsGet d nsid = none → nsid ≠ 0xFFFFFFFF → Runs (.namespaceDelete c nsid) d (adminDone c .invalidNamespace 0 [] d) ∧
    Runs (.namespaceAttach c nsid attach ids) d (adminDone c .invalidNamespace 0 [] d)) ∧
  -- Attachment to controllers of bound Kennels, and detachment.
  (∀ (d : Dev) (c : Src) (nsid : Nat) (ids keys : List Nat) (n : Ns), adminUp c d = true → d.boot.trial = false → nsGet d nsid = some n →
    keys = ids.map (fun i => (ctrlOfId i).1 * 64 + (ctrlOfId i).2) → ∀ attach : Bool,
    ((ids = [] ∨ 0 ∈ ids ∨ ∃ i ∈ ids, ctrlPresent d (ctrlOfId i).1 (ctrlOfId i).2 = false) →
      Runs (.namespaceAttach c nsid attach ids) d (adminDone c .invalidField 0 [] d)) ∧
    (ids ≠ [] → 0 ∉ ids → (∀ i ∈ ids, ctrlPresent d (ctrlOfId i).1 (ctrlOfId i).2 = true) →
      (attach = true → (∃ i ∈ ids, (nsid, fnKennel d (ctrlOfId i).1 (ctrlOfId i).2) ∉ d.ten.nsBind) →
        Runs (.namespaceAttach c nsid attach ids) d (adminDone c .kennelMismatch 0 [] d)) ∧
      (attach = true → (∀ i ∈ ids, (nsid, fnKennel d (ctrlOfId i).1 (ctrlOfId i).2) ∈ d.ten.nsBind) → (∃ k ∈ keys, k ∈ n.attached) →
        Runs (.namespaceAttach c nsid attach ids) d (adminDone c .nsAttached 0 [] d)) ∧
      (attach = true → (∀ i ∈ ids, (nsid, fnKennel d (ctrlOfId i).1 (ctrlOfId i).2) ∈ d.ten.nsBind) → (∀ k ∈ keys, k ∉ n.attached) →
        Runs (.namespaceAttach c nsid attach ids) d (adminDone c .success 0 [] { d with ten := { d.ten with
          namespaces := tabPut d.ten.namespaces nsid { n with attached := n.attached ++ keys } } })) ∧
      (attach = false → (∃ k ∈ keys, k ∉ n.attached) →
        Runs (.namespaceAttach c nsid attach ids) d (adminDone c .nsNotAttached 0 [] d)) ∧
      (attach = false → (∀ k ∈ keys, k ∈ n.attached) →
        Runs (.namespaceAttach c nsid attach ids) d (adminDone c .success 0 [] { d with ten := { d.ten with
          namespaces := tabPut d.ten.namespaces nsid { n with attached := n.attached.filter (fun k => decide (k ∉ keys)) } } })))) ∧
  (ctrlOfId 0x01 = (0, 0) ∧ ctrlOfId 0x40 = (0, 63) ∧ ctrlOfId 0x41 = (1, 0) ∧ ctrlOfId 0x80 = (1, 63)) ∧
  -- Identify changes nothing.
  (∀ (d : Dev) (c : Src) (nsid : Nat), adminUp c d = true →
    (∀ n, nsGet d nsid = some n → Runs (.identify c 0 nsid) d (adminDone c .success 0
      [n.nsze, 4096, 0, 1, 0, 1, if n.readOnly then 1 else 0] d)) ∧
    (nsGet d nsid = none → Runs (.identify c 0 nsid) d (adminDone c .invalidNamespace 0 [] d)) ∧
    (∀ n, nsGet d nsid = some n → (n.zoned = true → Runs (.identify c 5 nsid) d (adminDone c .success 0
      [n.zsze, 0xFFF, 0xFFF, 1, 1, 0, 0, 604800] d)) ∧
      (n.zoned = false → Runs (.identify c 5 nsid) d (adminDone c .invalidField 0 [] d)) ∧
      Runs (.identify c 0x12 nsid) d (adminDone c .success 0
        (n.attached.map (fun k => if k / 64 = 0 then 1 + k % 64 else 0x41 + k % 64)) d)) ∧
    (nsGet d nsid = none → Runs (.identify c 5 nsid) d (adminDone c .invalidNamespace 0 [] d) ∧
      Runs (.identify c 0x12 nsid) d (adminDone c .invalidNamespace 0 [] d)) ∧
    Runs (.identify c 1 nsid) d (adminDone c .success 0 (idController d c.port c.fn) d) ∧
    Runs (.identify c 2 nsid) d (adminDone c .success 0 (((d.ten.namespaces.filter (fun q => decide (nsid < q.1))).filter
      (fun q => q.2.attached.contains (c.port * 64 + c.fn))).map (fun q => q.1)) d) ∧
    Runs (.identify c 0x10 nsid) d (adminDone c .success 0 ((d.ten.namespaces.filter (fun q => decide (nsid < q.1))).map (fun q => q.1)) d) ∧
    Runs (.identify c 0x13 nsid) d (adminDone c .success 0 (((List.range 128).filter (fun k => ctrlPresent d (k / 64) (k % 64))).map
      (fun k => if k / 64 = 0 then 1 + k % 64 else 0x41 + k % 64)) d) ∧
    Runs (.identify c 6 nsid) d (adminDone c .success 0 [5] d) ∧
    (∀ cns, cns ∉ [0, 1, 2, 5, 6, 0x10, 0x12, 0x13] → Runs (.identify c cns nsid) d (adminDone c .invalidField 0 [] d))) ∧
  -- Vendor log pages: offset 0 takes the controller's snapshot and another offset reads it; a VF sees its own Kennel's statistics only.
  (∀ (d : Dev) (c : Src) (lid lsi off len key : Nat) (page : List Byte), adminUp c d = true → 0xC0 ≤ lid → lid ≤ 0xC7 →
    (lid = 0xC6 → lsi ≤ 255 ∧ (c.fn = 0 ∨ lsi = fnKennel d c.port c.fn)) → key = lid * 256 + (if lid = 0xC6 then lsi else 0) →
    page = ((if off = 0 then none else tabGet (ctrlGet d c.port c.fn).snaps key).getD (vendorLog d (decide (c.fn ≠ 0)) lid lsi)) →
    Runs (.getLogPage c lid lsi off len) d (adminDone c .success 0 (((page.drop off).take len).map (fun b => b.toNat))
      (ctrlPut d c.port c.fn { ctrlGet d c.port c.fn with snaps := tabPut (ctrlGet d c.port c.fn).snaps key page }))) ∧
  (∀ (d : Dev) (c : Src) (lsi off len : Nat), adminUp c d = true → (255 < lsi ∨ (c.fn ≠ 0 ∧ lsi ≠ fnKennel d c.port c.fn)) →
    Runs (.getLogPage c 0xC6 lsi off len) d (adminDone c .invalidField 0 [] d)) ∧
  -- The pages of the NVMe specifications: those the device has (their open bytes are free values), and Invalid Log Page for the others.
  (∀ (d : Dev) (c : Src) (lid lsi off len : Nat), adminUp c d = true → (lid < 0xC0 ∨ 0xC7 < lid) →
    (∀ page, stdLog d lid = some page → Runs (.getLogPage c lid lsi off len) d (adminDone c .success 0
      (((page.drop off).take len).map (fun b => b.toNat)) { d with hw := spend (spend d.hw) })) ∧
    (stdLog d lid = none → Runs (.getLogPage c lid lsi off len) d (adminDone c .invalidLogPage 0 [] d))) ∧
  (∀ (d : Dev) (lid : Nat), stdLog d lid = none ↔ lid ∉ [0, 1, 2, 3, 4, 5, 9, 0x20, 0x21, 0x22, 0x23, 0x80, 0x81, 0xBF])

/-- Features: timestamp, zone reset mode, placement, power state and temperature thresholds (R60, R96, R109, R312, R315, R474). -/
def Obligations.FeatureCommands : Prop :=
  -- Timestamp: forward it sets media time; backward it is refused to media time, with INT and an event, and the command still succeeds.
  (∀ (d : Dev) (c : Src) (save : Bool) (ms : Nat), adminUp c d = true → (save = true → d.boot.trial = false) →
    Runs (.setFeaturesTimestamp c save ms) d (adminDone c .success 0 [] (timestampSet ms d)) ∧
    (d.aff.mtime < ms / 1000 → (timestampSet ms d).aff.mtime = ms / 1000 ∧ (timestampSet ms d).aff.ticks = ms % 1000 * 25000 ∧
      (timestampSet ms d).aff.timeSrc = 1) ∧
    (ms / 1000 ≤ d.aff.mtime → (timestampSet ms d).aff.mtime = d.aff.mtime ∧ (timestampSet ms d).aff.ticks = d.aff.ticks ∧
            (timestampSet ms d).hw = evUnit (irq d.hw irqAffineur 7) 15 0x073 1 (ms / 1000) d.aff.mtime 0)) ∧
  (∀ (d : Dev) (c : Src), adminUp c d = true → Runs (.getFeaturesTimestamp c) d (adminDone c .success 0
    [d.aff.mtime * 1000 + min 999 (d.aff.ticks / 25000), if d.aff.timeSrc = 1 then 1 else 0] d)) ∧
  -- Zone Reset Mode: of a zoned namespace, in a settings record.
  (∀ (d : Dev) (c : Src) (nsid : Nat) (save secure : Bool), adminUp c d = true → (save = true → d.boot.trial = false) →
    (∀ n, nsGet d nsid = some n → n.zoned = true → Runs (.setFeaturesZoneResetMode c nsid save secure) d (adminDone c .success 0 []
      (sjPut 0x20 0xC0 (leBytes 4 nsid ++ leBytes 4 (if secure then 1 else 0)) { d with
        ten := { d.ten with namespaces := tabPut d.ten.namespaces nsid { n with secureMode := secure } } }))) ∧
    (∀ n, nsGet d nsid = some n → n.zoned = false →
      Runs (.setFeaturesZoneResetMode c nsid save secure) d (adminDone c .invalidField 0 [] d)) ∧
    (nsGet d nsid = none → Runs (.setFeaturesZoneResetMode c nsid save secure) d (adminDone c .invalidNamespace 0 [] d))) ∧
  -- Flexible Data Placement: only before any namespace exists.
  (∀ (d : Dev) (c : Src) (on save : Bool), adminUp c d = true → (save = true → d.boot.trial = false) →
    (d.ten.namespaces = [] → Runs (.setFeaturesFdp c on save) d (adminDone c .success 0 []
      (featureSave save 0x1D 0 [if on then 1#8 else 0#8] { d with host := { d.host with fdp := on } }))) ∧
    (d.ten.namespaces ≠ [] → Runs (.setFeaturesFdp c on save) d (adminDone c .commandSequence 0 [] d))) ∧
  -- Power states: the controller's, and the pacer's effective limit follows.
  (∀ (d : Dev) (c : Src) (ps : Nat) (save : Bool), adminUp c d = true → (save = true → d.boot.trial = false) →
    (ps ≤ 2 → Runs (.setFeaturesPowerState c ps save) d (adminDone c .success 0 [] (featureSave save 2 0 [BitVec.ofNat 8 ps] { d with
      host := { d.host with ctrls := tabPut d.host.ctrls (c.port * 64 + c.fn) { ctrlGet d c.port c.fn with ps := ps } }
      hw := md d.hw R.FCH_PACE_EFF (fun w => putFld w 0 2 ps) }))) ∧
    (2 < ps → Runs (.setFeaturesPowerState c ps save) d (adminDone c .invalidField 0 [] d))) ∧
  -- Temperature thresholds: of the composite temperature, checked at once.
  (∀ (d x : Dev) (c : Src) (under save : Bool) (sensor k : Nat), adminUp c d = true → (save = true → d.boot.trial = false) →
    x = { d with therm := if under then { d.therm with threshUnder := tabPut d.therm.threshUnder 0 (k % 65536) }
          else { d.therm with threshOver := tabPut d.therm.threshOver 0 (k % 65536) } } →
    (sensor = 0 → Runs (.setFeaturesTemperatureThreshold c under sensor k save) d (adminDone c .success 0 [] (thresholdCheck
      (featureSave save 4 0 (leBytes 2 (tabGetD x.therm.threshOver 0 (overDefault x)) ++ leBytes 2 (tabGetD x.therm.threshUnder 0 0)) x)))) ∧
    (sensor ≠ 0 → Runs (.setFeaturesTemperatureThreshold c under sensor k save) d (adminDone c .invalidField 0 [] d))) ∧
  -- A saved feature has its settings record; without Save it has none.
  (∀ (d : Dev) (fid nsid : Nat) (v : List Byte), featureSave false fid nsid v d = d ∧
    featureSave true fid nsid v d = sjPut 0x20 fid (leBytes 4 nsid ++ v) d)

/-- The Host Memory Buffer, virtual functions, Abort and asynchronous events (R54, R59, R61, R65, R124, R301). -/
def Obligations.ControllerResourceCommands : Prop :=
  -- The Host Memory Buffer: of the PF, not below HMMIN; its map content is rebuilt before I/O is served, and goes at its end.
  (∀ (d : Dev) (c : Src) (units : Nat), adminUp c d = true → (c.fn ≠ 0 →
      Runs (.hmbEnable c units) d (adminDone c .invalidField 0 [] d) ∧ Runs (.hmbDisable c) d (adminDone c .invalidField 0 [] d)) ∧
    (c.fn = 0 → (portGet d c.port).hmb ≠ .off → Runs (.hmbEnable c units) d (adminDone c .commandSequence 0 [] d)) ∧
    (c.fn = 0 → (portGet d c.port).hmb = .off → (units < hmbNeed d c.port ∨ units = 0) →
      Runs (.hmbEnable c units) d (adminDone c .invalidField 0 [] d)) ∧
    (c.fn = 0 → (portGet d c.port).hmb = .off → hmbNeed d c.port ≤ units → units ≠ 0 → Runs (.hmbEnable c units) d (adminDone c .success 0 []
      { portPut d c.port { portGet d c.port with hmb := .rebuilding, hmbUnits := units } with
        hw := irq d.hw irqHostif (16 * c.port + 7) })) ∧
    (c.fn = 0 → (portGet d c.port).hmb = .off → Runs (.hmbDisable c) d (adminDone c .success 0 [] d)) ∧
    (c.fn = 0 → (portGet d c.port).hmb ≠ .off → homeOps d c.port = true → Runs (.hmbDisable c) d { d with
      host := { d.host with hmbWait := d.host.hmbWait ++ [c] } }) ∧
    (c.fn = 0 → (portGet d c.port).hmb ≠ .off → homeOps d c.port = false → Runs (.hmbDisable c) d (hmbStop c d))) ∧
  -- The stop: the journal records so far are flushed, nothing of the buffer stays, and the Set Features completes; one that waits for
  -- dispatched commands does so when the last of them has ended.
  (∀ (d x : Dev) (c : Src), x = jComplete (jFlush (jComplete d)) → ∃ e, hmbStop c d = adminDone c .success 0 [] e ∧
    (∀ y, tabGet x.host.ports c.port = some y → portGet e c.port = { y with hmb := .off, hmbUnits := 0 }) ∧
    (∀ q ∈ e.med.mapu.cache, q.1 ∉ segsOfPort d c.port) ∧ (∀ q ∈ e.med.mapu.seals, q.1 ∉ segsOfPort d c.port) ∧
    (∀ q ∈ e.med.mapu.rebuild, q ∉ segsOfPort d c.port) ∧ (∀ q ∈ e.med.mapu.sweep, q ∉ segsOfPort d c.port) ∧ e.med.jr = x.med.jr) ∧
  (∀ d : Dev, hmbSettle d = (d.host.hmbWait.filter (fun c => !homeOps d c.port)).foldl (fun x c => hmbStop c x)
    { d with host := { d.host with hmbWait := d.host.hmbWait.filter (fun c => homeOps d c.port) } }) ∧
  (∀ (d : Dev) (p : Nat), portPresent d p = true → Runs (.hmbMapRebuildDone p) d (hmbRebuilt p d)) ∧
  (∀ (d : Dev) (p : Nat) (x : Port), tabGet d.host.ports p = some x →
    (x.hmb = .rebuilding → d.med.recovered = true → portGet (hmbRebuilt p d) p = { x with hmb := .serving }) ∧
    ((x.hmb ≠ .rebuilding ∨ d.med.recovered = false) → hmbRebuilt p d = d)) ∧
  -- Virtualization Management, by the PF of a port on its VFs.
  (∀ (d : Dev) (c : Src) (vf n used : Nat) (v : Ctrl), adminUp c d = true → c.fn = 0 → 1 ≤ vf → vf ≤ 63 → v = ctrlGet d c.port vf →
    used = ((d.host.ctrls.filter (fun q => decide (q.1 / 64 = c.port ∧ q.1 % 64 ≠ 0 ∧ q.1 % 64 ≠ vf))).map (fun q => q.2.vq)).sum →
    (v.online = false → n ≤ 64 → used + n ≤ (if dual d then 1984 else 4032) → Runs (.virtualizationManagement c vf (.assignQueues n)) d
      (adminDone c .success n [] { ctrlPut d c.port vf { v with vq := n } with hw := irq d.hw irqHostif (16 * c.port + 14) })) ∧
    ((v.online = true ∨ 64 < n ∨ (if dual d then 1984 else 4032) < used + n) →
      Runs (.virtualizationManagement c vf (.assignQueues n)) d (adminDone c .invalidField 0 [] d)) ∧
    (v.online = false → n ≤ 65 → Runs (.virtualizationManagement c vf (.assignVectors n)) d (adminDone c .success n []
      { ctrlPut d c.port vf { v with vi := n } with hw := irq d.hw irqHostif (16 * c.port + 14) })) ∧
    ((v.online = true ∨ 65 < n) → Runs (.virtualizationManagement c vf (.assignVectors n)) d (adminDone c .invalidField 0 [] d)) ∧
    (v.vq ≠ 0 → v.vi ≠ 0 → Runs (.virtualizationManagement c vf .online) d (adminDone c .success 0 []
      { ctrlPut d c.port vf { v with online := true } with hw := irq d.hw irqHostif (16 * c.port + 14) })) ∧
    ((v.vq = 0 ∨ v.vi = 0) → Runs (.virtualizationManagement c vf .online) d (adminDone c .invalidField 0 [] d)) ∧
    (∀ y, y = ctrlReset c.port vf d → Runs (.virtualizationManagement c vf .offline) d (adminDone c .success 0 []
      { ctrlPut y c.port vf { ctrlGet y c.port vf with online := false } with hw := irq y.hw irqHostif (16 * c.port + 14) }))) ∧
  (∀ (d : Dev) (c : Src) (vf : Nat) (a : VirtAct), adminUp c d = true → (c.fn ≠ 0 ∨ vf = 0 ∨ 63 < vf) →
    Runs (.virtualizationManagement c vf a) d (adminDone c .invalidField 0 [] d)) ∧
  -- Abort: a command that is not dispatched is removed with Command Abort Requested, a dispatched one runs on; a Read that the HERDER
  -- held or had admitted is counted.
  (∀ (d : Dev) (c : Src) (sq cid qk : Nat) (gone : Dev → Dev), adminUp c d = true → qk = queueKey c.port c.fn sq →
    (∀ y, gone y = adminDone c .success 0 [] (cqPost c.port c.fn sq cid .abortRequested 0 0 [] y)) →
    (∀ q y, (tabGetD d.host.queues qk []).find? (fun q => decide (q.cmd.cid = cid)) = some q →
      y = (if q.cmd.op = .read then readStats (opNew d qk (fnKennel d c.port c.fn) q) 0 false d else d) →
      Runs (.nvmeAbort c sq cid) d (gone { y with host := { y.host with
        queues := tabMod y.host.queues qk [] (fun l => l.filter (fun q => decide (q.cmd.cid ≠ cid))) } })) ∧
    ((tabGetD d.host.queues qk []).find? (fun q => decide (q.cmd.cid = cid)) = none →
      ((∃ q ∈ d.host.unfetched, q.1 = qk ∧ q.2.cmd.cid = cid) → Runs (.nvmeAbort c sq cid) d (gone { d with host := { d.host with
        unfetched := d.host.unfetched.filter (fun q => !(decide (q.1 = qk) && decide (q.2.cmd.cid = cid))) } })) ∧
      ((∀ q ∈ d.host.unfetched, q.1 = qk → q.2.cmd.cid ≠ cid) → ∀ r : Option (Nat × Op), r = d.host.ops.find? (fun q =>
          decide (q.2.port = c.port) && decide (q.2.fn = c.fn) && decide (q.2.sq = sq) && decide (q.2.cmd.cid = cid)) →
        (r = none → Runs (.nvmeAbort c sq cid) d (adminDone c .success 1 [] d)) ∧
        (∀ tag o, r = some (tag, o) → o.dispatched = true → Runs (.nvmeAbort c sq cid) d (adminDone c .success 1 [] d)) ∧
        (∀ tag o, r = some (tag, o) → o.dispatched = false → Runs (.nvmeAbort c sq cid) d
          (gone (opDiscard tag (if o.cmd.op = .read then readStats o 0 false d else d))))))) ∧
  -- Asynchronous Event Requests: sixteen can wait, and an event that waits is answered at once.
  (∀ (d : Dev) (c : Src) (k : Ctrl), adminUp c d = true → k = ctrlGet d c.port c.fn →
    (∀ x rest, k.events = x :: rest → Runs (.asynchronousEventRequest c) d (adminDone c .success x []
      (ctrlPut d c.port c.fn { k with events := rest }))) ∧
    (k.events = [] → k.aers.length < 16 → Runs (.asynchronousEventRequest c) d
      (ctrlPut d c.port c.fn { k with aers := k.aers ++ [c.cid] })) ∧
    (k.events = [] → 16 ≤ k.aers.length → Runs (.asynchronousEventRequest c) d (adminDone c .aerLimit 0 [] d)))

/-- Reservations, on admitted commands: registrants, the holder, and each registrant's settings record (R59, R121, Table 14.9; actions and
types as the NVMe specifications give them, PRESUMED, log entry 66). -/
def Obligations.ReservationCommands : Prop :=
  -- The row names an admitted command by its source, queue, namespace and what it asks.
  (∀ (d : Dev) (c : Src) (sq nsid tag : Nat) (a : ResvAct) (o : Op), resvFind c sq nsid a d = some (tag, o) →
    (tag, o) ∈ d.host.ops ∧ o.port = c.port ∧ o.fn = c.fn ∧ o.sq = sq ∧ o.cmd.cid = c.cid ∧ o.cmd.nsid = nsid ∧ o.cmd.op = .resv a) ∧
  (∀ (d : Dev) (c : Src) (sq nsid : Nat) (a : ResvAct), resvFind c sq nsid a d = none → ∀ q ∈ d.host.ops,
    ¬ (q.2.port = c.port ∧ q.2.fn = c.fn ∧ q.2.sq = sq ∧ q.2.cmd.cid = c.cid ∧ q.2.cmd.nsid = nsid ∧ q.2.cmd.op = .resv a)) ∧
  -- A row that names no admitted command changes nothing; a namespace that is gone ends the command.
  (∀ (d : Dev) (c : Src) (sq nsid host action crkey nrkey : Nat) (ig pt : Bool),
    (resvFind c sq nsid (.register host action ig crkey nrkey pt) d = none →
      Runs (.reservationRegister c sq nsid host action ig crkey nrkey pt) d d) ∧
    (∀ tag o, resvFind c sq nsid (.register host action ig crkey nrkey pt) d = some (tag, o) → nsGet d nsid = none →
      Runs (.reservationRegister c sq nsid host action ig crkey nrkey pt) d (opEnd tag .invalidNamespace 0 0 [] d))) ∧
  (∀ (d : Dev) (c : Src) (sq nsid action rtype crkey prkey : Nat),
    (resvFind c sq nsid (.acquire action rtype crkey prkey) d = none → Runs (.reservationAcquire c sq nsid action rtype crkey prkey) d d) ∧
    (∀ tag o, resvFind c sq nsid (.acquire action rtype crkey prkey) d = some (tag, o) → nsGet d nsid = none →
      Runs (.reservationAcquire c sq nsid action rtype crkey prkey) d (opEnd tag .invalidNamespace 0 0 [] d)) ∧
    (resvFind c sq nsid (.release action rtype crkey) d = none → Runs (.reservationRelease c sq nsid action rtype crkey) d d) ∧
    (∀ tag o, resvFind c sq nsid (.release action rtype crkey) d = some (tag, o) → nsGet d nsid = none →
      Runs (.reservationRelease c sq nsid action rtype crkey) d (opEnd tag .invalidNamespace 0 0 [] d)) ∧
    (resvFind c sq nsid .report d = none → Runs (.reservationReport c sq nsid) d d) ∧
    (∀ tag o, resvFind c sq nsid .report d = some (tag, o) → nsGet d nsid = none →
      Runs (.reservationReport c sq nsid) d (opEnd tag .invalidNamespace 0 0 [] d))) ∧
  -- Registering: a new host up to 64 of them, its identifier the controller's; replacing and unregistering need the key or its waiver.
  (∀ (d x : Dev) (c : Src) (sq nsid tag host action crkey nrkey : Nat) (ig pt : Bool) (o : Op) (n : Ns) (new : Registrant),
    resvFind c sq nsid (.register host action ig crkey nrkey pt) d = some (tag, o) → nsGet d nsid = some n →
    x = ctrlPut d o.port o.fn { ctrlGet d o.port o.fn with hostId := host } →
    new = { hostId := host, key := nrkey, holder := false, rtype := 0, ptpl := pt } →
    (resvMine n host = none → (action = 0 ∨ (action = 2 ∧ ig = true)) → n.registrants.length < 64 →
      Runs (.reservationRegister c sq nsid host action ig crkey nrkey pt) d
        (opEnd tag .success 0 0 [] (resvPut nsid n (n.registrants ++ [new]) x))) ∧
    (resvMine n host = none → action = 0 → 64 ≤ n.registrants.length →
      Runs (.reservationRegister c sq nsid host action ig crkey nrkey pt) d (opEnd tag .invalidField 0 0 [] d)) ∧
    (resvMine n host = none → (action = 1 ∨ (action = 2 ∧ (ig = false ∨ 64 ≤ n.registrants.length))) →
      Runs (.reservationRegister c sq nsid host action ig crkey nrkey pt) d (opEnd tag .reservationConflict 0 0 [] d)) ∧
    (∀ r, resvMine n host = some r →
      (action = 0 → r.key = nrkey → Runs (.reservationRegister c sq nsid host action ig crkey nrkey pt) d (opEnd tag .success 0 0 [] x)) ∧
      (action = 0 → r.key ≠ nrkey → Runs (.reservationRegister c sq nsid host action ig crkey nrkey pt) d
        (opEnd tag .reservationConflict 0 0 [] d)) ∧
      ((action = 1 ∨ action = 2) → ig = false → r.key ≠ crkey →
        Runs (.reservationRegister c sq nsid host action ig crkey nrkey pt) d (opEnd tag .reservationConflict 0 0 [] d)) ∧
      (action = 1 → (ig = true ∨ r.key = crkey) → Runs (.reservationRegister c sq nsid host action ig crkey nrkey pt) d
        (opEnd tag .success 0 0 []
        (resvPut nsid n (resvDrop (fun q => decide (q.hostId = host)) n.registrants) x))) ∧
      (action = 2 → (ig = true ∨ r.key = crkey) → Runs (.reservationRegister c sq nsid host action ig crkey nrkey pt) d
        (opEnd tag .success 0 0 []
        (resvPut nsid n (n.registrants.map (fun q => if q.hostId = host then { q with key := nrkey, ptpl := pt } else q)) x)))) ∧
    (2 < action → Runs (.reservationRegister c sq nsid host action ig crkey nrkey pt) d (opEnd tag .invalidField 0 0 [] d))) ∧
  -- Registrants that go: a reservation one of them held ends, but an all-registrants one passes to one that stays.
  (∀ (gone : Registrant → Bool) (rs : List Registrant), (∀ r ∈ resvDrop gone rs, ∃ q ∈ rs, q.hostId = r.hostId ∧ q.key = r.key ∧ gone q = false) ∧
    ((∀ r ∈ rs, r.holder = true → gone r = false) → resvDrop gone rs = rs.filter (fun r => !gone r))) ∧
  -- Acquiring: a registrant with its key takes a free reservation; a held one conflicts; pre-emption removes the other key's registrants.
  (∀ (d : Dev) (c : Src) (sq nsid tag action rtype crkey prkey host : Nat) (o : Op) (n : Ns),
    resvFind c sq nsid (.acquire action rtype crkey prkey) d = some (tag, o) → nsGet d nsid = some n → host = (ctrlGet d o.port o.fn).hostId →
    (resvMine n host = none → Runs (.reservationAcquire c sq nsid action rtype crkey prkey) d (opEnd tag .reservationConflict 0 0 [] d)) ∧
    (∀ me, resvMine n host = some me →
      (me.key ≠ crkey → Runs (.reservationAcquire c sq nsid action rtype crkey prkey) d (opEnd tag .reservationConflict 0 0 [] d)) ∧
      (me.key = crkey → (rtype < 1 ∨ 6 < rtype ∨ 2 < action) → Runs (.reservationAcquire c sq nsid action rtype crkey prkey) d
        (opEnd tag .invalidField 0 0 [] d)) ∧
      (me.key = crkey → 1 ≤ rtype → rtype ≤ 6 → action = 0 →
        (n.registrants.find? (fun r => r.holder) = none → Runs (.reservationAcquire c sq nsid action rtype crkey prkey) d
          (opEnd tag .success 0 0 []
          (resvPut nsid n (resvHold host rtype n.registrants) d))) ∧
        (∀ h, n.registrants.find? (fun r => r.holder) = some h → h.hostId = host → h.rtype = rtype →
          Runs (.reservationAcquire c sq nsid action rtype crkey prkey) d (opEnd tag .success 0 0 [] d)) ∧
        (∀ h, n.registrants.find? (fun r => r.holder) = some h → (h.hostId ≠ host ∨ h.rtype ≠ rtype) →
          Runs (.reservationAcquire c sq nsid action rtype crkey prkey) d (opEnd tag .reservationConflict 0 0 [] d))) ∧
      (∀ (all hit : Bool) (out : Registrant → Bool) (kept : List Registrant), me.key = crkey → 1 ≤ rtype → rtype ≤ 6 →
        (action = 1 ∨ action = 2) →
        all = (match n.registrants.find? (fun r => r.holder) with | some h => decide (h.rtype = 5 ∨ h.rtype = 6) | none => false) →
        hit = (match n.registrants.find? (fun r => r.holder) with
          | some h => decide (h.key = prkey) || (all && decide (prkey = 0)) | none => false) →
        (∀ q, out q = (decide (q.hostId ≠ host) && (decide (q.key = prkey) || (all && decide (prkey = 0))))) →
        kept = n.registrants.filter (fun q => !out q) →
        (hit = true → Runs (.reservationAcquire c sq nsid action rtype crkey prkey) d
          (opEnd tag .success 0 0 [] (resvPut nsid n (resvHold host rtype kept) d))) ∧
        (hit = false → (∃ q ∈ n.registrants, out q = true) →
          Runs (.reservationAcquire c sq nsid action rtype crkey prkey) d (opEnd tag .success 0 0 [] (resvPut nsid n kept d))) ∧
        (hit = false → (∀ q ∈ n.registrants, out q = false) →
          Runs (.reservationAcquire c sq nsid action rtype crkey prkey) d (opEnd tag .reservationConflict 0 0 [] d))))) ∧
  (∀ (host rtype : Nat) (rs : List Registrant), resvHold host rtype rs = rs.map (fun q =>
    if q.hostId = host then { q with holder := true, rtype := rtype } else { q with holder := false, rtype := 0 })) ∧
  -- Releasing and clearing.
  (∀ (d : Dev) (c : Src) (sq nsid tag action rtype crkey host : Nat) (o : Op) (n : Ns),
    resvFind c sq nsid (.release action rtype crkey) d = some (tag, o) → nsGet d nsid = some n → host = (ctrlGet d o.port o.fn).hostId →
    (resvMine n host = none → Runs (.reservationRelease c sq nsid action rtype crkey) d (opEnd tag .reservationConflict 0 0 [] d)) ∧
    (∀ me, resvMine n host = some me →
      (me.key ≠ crkey → Runs (.reservationRelease c sq nsid action rtype crkey) d (opEnd tag .reservationConflict 0 0 [] d)) ∧
      (me.key = crkey → action = 1 → Runs (.reservationRelease c sq nsid action rtype crkey) d
        (opEnd tag .success 0 0 [] (resvPut nsid n [] d))) ∧
      (me.key = crkey → 2 ≤ action → Runs (.reservationRelease c sq nsid action rtype crkey) d (opEnd tag .invalidField 0 0 [] d)) ∧
      (me.key = crkey → action = 0 → me.holder = false → Runs (.reservationRelease c sq nsid action rtype crkey) d
        (opEnd tag .success 0 0 [] d)) ∧
      (me.key = crkey → action = 0 → me.holder = true → me.rtype ≠ rtype →
        Runs (.reservationRelease c sq nsid action rtype crkey) d (opEnd tag .invalidField 0 0 [] d)) ∧
      (me.key = crkey → action = 0 → me.holder = true → me.rtype = rtype → Runs (.reservationRelease c sq nsid action rtype crkey) d
        (opEnd tag .success 0 0 []
        (resvPut nsid n (n.registrants.map (fun q => { q with holder := false, rtype := 0 })) d))))) ∧
  -- The report: the type held, then identifier, key and holder of each registrant.
  (∀ (d : Dev) (c : Src) (sq nsid tag t : Nat) (o : Op) (n : Ns), resvFind c sq nsid .report d = some (tag, o) → nsGet d nsid = some n →
    t = (match n.registrants.find? (fun r => r.holder) with | some h => h.rtype | none => 0) →
    Runs (.reservationReport c sq nsid) d (opEnd tag .success 0 0
      (t :: n.registrants.flatMap (fun r => [r.hostId, r.key, if r.holder then 1 else 0])) d)) ∧
  -- What replacing the registrants leaves: the namespace's list, and no other namespace's.
  (∀ (d : Dev) (nsid : Nat) (n : Ns) (rs : List Registrant), nsGet (resvPut nsid n rs d) nsid = some { n with registrants := rs } ∧
    (∀ i, i ≠ nsid → nsGet (resvPut nsid n rs d) i = nsGet d i) ∧ (resvPut nsid n rs d).med = d.med ∧
    (resvPut nsid n rs d).host = d.host)

/-- Firmware images and layout streams: download and commit, transfer, verify and stage, discard (R59, R70, R428–R430, R432, R433). -/
def Obligations.ImageAndLayoutCommands : Prop :=
  (∀ (d : Dev) (c : Src) (off : Nat) (bs : List Byte), adminUp c d = true →
    (off % 4096 = 0 → bs.length % 4096 = 0 → bs ≠ [] → off + bs.length ≤ 3145728 → Runs (.firmwareImageDownload c off bs) d
      (adminDone c .success 0 [] { d with host := { d.host with download := cellsPut off bs d.host.download } })) ∧
    ((off % 4096 ≠ 0 ∨ bs.length % 4096 ≠ 0 ∨ bs = [] ∨ 3145728 < off + bs.length) → Runs (.firmwareImageDownload c off bs) d
      (adminDone c .invalidField 0 [] d))) ∧
  -- A commit: the committed image's slot is never written, an image that fails its checks is refused, a good one is written and pending.
  (∀ (d : Dev) (c : Src) (slot action s : Nat) (img : List Byte), adminUp c d = true → d.boot.trial = false →
    s = (if slot = 0 then 1 - d.boot.gov.image % 2 else slot - 1) →
    img = cellsTake (d.host.download.foldl (fun m q => max m (q.1 + 1)) 0) d.host.download →
    (2 < action → Runs (.firmwareCommit c slot action) d (adminDone c .invalidField 0 [] d)) ∧
    (action ≤ 2 → 1 < s → Runs (.firmwareCommit c slot action) d (adminDone c .invalidFirmwareSlot 0 [] d)) ∧
    (action ≤ 1 → s ≤ 1 → s = d.boot.gov.image → Runs (.firmwareCommit c slot action) d (adminDone c .invalidFirmwareSlot 0 [] d)) ∧
    (action ≤ 1 → s ≤ 1 → s ≠ d.boot.gov.image → imageOk d img = false →
      Runs (.firmwareCommit c slot action) d (adminDone c .invalidFirmwareImage 0 [] d)) ∧
    (s ≤ 1 → s ≠ d.boot.gov.image → imageOk d img = true → Runs (.firmwareCommit c slot 0) d (adminDone c .success 0 []
      (slotWrite (imageBase s) 48 img { d with host := { d.host with download := [] } }))) ∧
    (s ≤ 1 → s ≠ d.boot.gov.image → imageOk d img = true → ∃ e, Runs (.firmwareCommit c slot 1) d (adminDone c .activationNeedsReset 0 [] e) ∧
      e.boot.gov = { d.boot.gov with type := 3, pendImage := s, tries := 0, seq := d.boot.gov.seq + 1 } ∧ e.host.download = []) ∧
    (s ≤ 1 → imageOk d (imageBytes d s) = true → Runs (.firmwareCommit c slot 2) d (adminDone c .activationNeedsReset 0 []
      (bootAppend { d.boot.gov with type := 3, pendImage := s, tries := 0 } d)))) ∧
  -- A transfer of whole dwords within 1 MiB, from one port at a time.
  (∀ (d : Dev) (c : Src) (off : Nat) (bs : List Byte), adminUp c d = true → c.fn = 0 → d.boot.trial = false →
    (bs = [] → Runs (.layoutTransfer c off bs) d (adminDone c .zeroLength 0 [] d)) ∧
    (bs ≠ [] → (bs.length % 4 ≠ 0 ∨ 1048576 < off + bs.length) → Runs (.layoutTransfer c off bs) d (adminDone c .invalidField 0 [] d)) ∧
    (∀ p, bs ≠ [] → bs.length % 4 = 0 → off + bs.length ≤ 1048576 → d.host.layoutPort = some p → p ≠ c.port →
      Runs (.layoutTransfer c off bs) d (adminDone c .unitStateConflict 0 [] d)) ∧
    (bs ≠ [] → bs.length % 4 = 0 → off + bs.length ≤ 1048576 → (d.host.layoutPort = none ∨ d.host.layoutPort = some c.port) →
      Runs (.layoutTransfer c off bs) d (adminDone c .success 0 [] { d with host := { d.host with
        layoutXfer := cellsPut off bs d.host.layoutXfer, layoutPort := some c.port } }))) ∧
  -- Verify and stage: the checks in their order, then the slot not in force is written, read back and pending.
  (∀ (d e : Dev) (c : Src) (bs : List Byte) (st : Status), adminUp c d = true → c.fn = 0 → d.boot.trial = false →
    (d.host.layoutPort = none ∨ d.host.layoutPort = some c.port) →
    bs = cellsTake (min 1048576 (leAt (cellsTake 64 d.host.layoutXfer) 8 4)) d.host.layoutXfer → st = streamStatus d.fuse bs →
    e = { d with host := { d.host with layoutXfer := [], layoutPort := none } } →
    (xferWhole d.host.layoutXfer = false → Runs (.layoutVerifyStage c) d (adminDone c .stagingIncomplete 0 [] d)) ∧
    (xferWhole d.host.layoutXfer = true → (st = .reject ∨ leAt bs 16 8 ≤ d.med.layout.seq) →
      Runs (.layoutVerifyStage c) d (adminDone c .layoutRejected 0 [] e)) ∧
    (xferWhole d.host.layoutXfer = true → st ≠ .reject → d.med.layout.seq < leAt bs 16 8 → st ≠ .ok →
      Runs (.layoutVerifyStage c) d (adminDone c .unitAbsent 0 [] e)) ∧
    (xferWhole d.host.layoutXfer = true → d.med.layout.seq < leAt bs 16 8 → st = .ok → frozenOk d bs = false →
      Runs (.layoutVerifyStage c) d (adminDone c .layoutFrozen 0 [] e)) ∧
    (xferWhole d.host.layoutXfer = true → d.med.layout.seq < leAt bs 16 8 → st = .ok → frozenOk d bs = true →
      (layoutOf bs).kmax ≤ topKennel d → Runs (.layoutVerifyStage c) d (adminDone c .kennelInUse 0 [] e)) ∧
    (∀ slot x, xferWhole d.host.layoutXfer = true → d.med.layout.seq < leAt bs 16 8 → st = .ok → frozenOk d bs = true →
      topKennel d < (layoutOf bs).kmax → slot = 1 - d.boot.layout % 2 → x = slotWrite (layoutBase slot) 16 bs (layoutDrop e) →
      signedDigest (rindBytes x.hw.rind x.hw.free (layoutBase slot) bs.length) bs.length = signedDigest bs bs.length →
      Runs (.layoutVerifyStage c) d (adminDone c .success 0 [] (bootAppend { x.boot.gov with type := 3, pendLayout := slot, tries := 0 } x)))) ∧
  -- Discard: transferred bytes and the pending layout go; the slots keep their content, and a pending image stays pending.
  (∀ (d e : Dev) (c : Src), adminUp c d = true → c.fn = 0 → d.boot.trial = false →
    (d.host.layoutPort = none ∨ d.host.layoutPort = some c.port) →
    e = { d with host := { d.host with layoutXfer := [], layoutPort := none } } →
    (d.boot.gov.pendLayout = 0xFF → Runs (.layoutDiscard c) d (adminDone c .success 0 [] e)) ∧
    (d.boot.gov.pendLayout ≠ 0xFF → d.boot.gov.pendImage ≠ 0xFF → Runs (.layoutDiscard c) d (adminDone c .success 0 []
      (bootAppend { d.boot.gov with type := 3, pendLayout := 0xFF, tries := 0 } e))) ∧
    (d.boot.gov.pendLayout ≠ 0xFF → d.boot.gov.pendImage = 0xFF → ∃ x, Runs (.layoutDiscard c) d (adminDone c .success 0 [] x) ∧
      x.boot.gov.pendLayout = 0xFF ∧ x.boot.gov.pendImage = 0xFF ∧ x.boot.gov.seq = d.boot.gov.seq + 1)) ∧
  (∀ (d : Dev) (c : Src) (p : Nat), adminUp c d = true → c.fn = 0 → d.boot.trial = false → d.host.layoutPort = some p → p ≠ c.port →
    Runs (.layoutVerifyStage c) d (adminDone c .unitStateConflict 0 [] d) ∧
    Runs (.layoutDiscard c) d (adminDone c .unitStateConflict 0 [] d)) ∧
  -- What a boot record's append leaves.
  (∀ (d : Dev) (r : BootRec), (bootAppend r d).boot.gov = { r with seq := d.boot.gov.seq + 1 } ∧
    (bootAppend r d).boot.recNext = (d.boot.recNext + 1) % 2048 ∧ (bootAppend r d).med = d.med ∧ (bootAppend r d).host = d.host)

/-- Kennel Configure (R52, R71, R115–R118, R389, R429). -/
def Obligations.KennelCommands : Prop :=
  -- Set: the checks, then the descriptor's fields, with its record.
  (∀ (d : Dev) (c : Src) (k count : Nat) (bs desc : List Byte) (now : Nat) (good : Prop), adminUp c d = true → c.fn = 0 →
    d.boot.trial = false → desc = padTo 64 bs → now = d.hw.time.toNat →
    count = d.ten.kennels.length + (if (tabGet d.ten.kennels 0).isSome then 0 else 1) →
    (good ↔ (kenFieldsOk d k desc = true ∧ (k = 0 → leAt desc 0 1 = 1 ∧ leAt desc 1 1 ≠ 1))) →
    ((255 < k ∨ (kenGet d k = none ∧ kmaxFor d ≤ k)) → Runs (.kennelSet c k bs) d (adminDone c .invalidField 0 [] d)) ∧
    (k ≤ 255 → (kenGet d k ≠ none ∨ k < kmaxFor d) → ¬ good → Runs (.kennelSet c k bs) d (adminDone c .invalidField 0 [] d)) ∧
    (∀ old, k ≤ 255 → kenGet d k = some old → good → (kenHasData d k = false ∨
        (decide (leAt desc 1 1 = 1) = old.dedicated ∧ leAt desc 2 2 % 8 = old.packs)) → Runs (.kennelSet c k bs) d (adminDone c .success 0 []
      (settle (sjPut 0x8010 k (kenBytes (kenSetFields now desc old)) (kenPut d k (kenSetFields now desc old)))))) ∧
    (∀ old, k ≤ 255 → kenGet d k = some old → good → kenHasData d k = true →
      (decide (leAt desc 1 1 = 1) ≠ old.dedicated ∨ leAt desc 2 2 % 8 ≠ old.packs) →
      Runs (.kennelSet c k bs) d (adminDone c .layoutFrozen 0 [] d)) ∧
    (∀ new, k ≤ 255 → kenGet d k = none → k < kmaxFor d → good → new = kenFull now (kenSetFields now desc Kennel.zero) →
      ((d.med.layout.kmax ≤ count ∨ d.med.layout.kmax ≤ topKennel d) →
        Runs (.kennelSet c k bs) d (adminDone c .resourceExhausted 0 [] d)) ∧
      (count < d.med.layout.kmax → topKennel d < d.med.layout.kmax → Runs (.kennelSet c k bs) d (adminDone c .success 0 []
        (settle (sjPut 0x8010 k (kenBytes new) (kenPut d k new))))))) ∧
  -- What a set leaves of a Kennel's record: the descriptor's fields, its counts, and each bucket filled at the old ceiling up to now and
  -- clipped to the new capacity; a new Kennel's buckets are full.
  (∀ (k x : Kennel) (bs : List Byte) (now : Nat), x = kenSetFields now bs k →
    x.cls = leAt bs 0 1 ∧ x.dedicated = decide (leAt bs 1 1 = 1) ∧ x.packs = leAt bs 2 2 % 8 ∧ x.iops = leAt bs 4 4 ∧ x.bw = leAt bs 8 4 ∧
    x.cap = leAt bs 12 4 ∧ x.forbidOff = decide (leAt bs 16 4 % 2 = 1) ∧ x.override = leAt bs 20 4 ∧ x.reads = k.reads ∧
    x.outstanding = k.outstanding ∧
    x.iopsB = { level := min (min (iopsCap k) (k.iopsB.level + k.iops * (now - k.iopsB.last))) (iopsCap x), last := now } ∧
    x.bwB = { level := min (min (bwCap k) (k.bwB.level + k.bw * 1048576 * (now - k.bwB.last))) (bwCap x), last := now } ∧
    (kenFull now x).iopsB = { level := iopsCap x, last := now } ∧ (kenFull now x).bwB = { level := bwCap x, last := now }) ∧
  -- Delete: only an unbound Kennel other than 0; its KPIO keys are cleared and its firmware keys pass to Kennel 0.
  (∀ (d : Dev) (c : Src) (k : Nat), adminUp c d = true → c.fn = 0 → d.boot.trial = false →
    ((k = 0 ∨ kenGet d k = none) → Runs (.kennelDelete c k) d (adminDone c .invalidField 0 [] d)) ∧
    (k ≠ 0 → kenGet d k ≠ none → ((∃ q ∈ d.ten.fnBind, q.2 = k) ∨ (∃ q ∈ d.ten.nsBind, q.2 = k)) →
      Runs (.kennelDelete c k) d (adminDone c .kennelInUse 0 [] d)) ∧
    (k ≠ 0 → kenGet d k ≠ none → (∀ q ∈ d.ten.fnBind, q.2 ≠ k) → (∀ q ∈ d.ten.nsBind, q.2 ≠ k) →
      ∃ slots, Runs (.kennelDelete c k) d
      (adminDone c .success 0 [] (settle (sjDelete 0x8010 k { d with
        sec := { d.sec with slots := slots }, ten := { d.ten with kennels := tabDel d.ten.kennels k } }))) ∧
      (∀ s ∈ d.sec.slots, s.2.type ≠ 0 → s.2.kennel = k → s.2.scope = 2 → (s.1, slotClear s.2) ∈ slots) ∧
      (∀ s ∈ d.sec.slots, s.2.type ≠ 0 → s.2.kennel = k → s.2.scope = 0 → (s.1, { s.2 with kennel := 0 }) ∈ slots) ∧
      (∀ s ∈ d.sec.slots, s.2.kennel ≠ k → s ∈ slots))) ∧
  (∀ (d : Dev) (c : Src) (k : Nat), adminUp c d = true → c.fn = 0 →
    (kenGet d k = none → Runs (.kennelRead c k) d (adminDone c .invalidField 0 [] d)) ∧
    (∀ x, kenGet d k = some x → Runs (.kennelRead c k) d (adminDone c .success 0 ((padTo 64 (kenBytes x)).map (fun b => b.toNat)) d))) ∧
  -- Binding of functions and namespaces.
  (∀ (d : Dev) (c : Src) (k port fn : Nat), adminUp c d = true → c.fn = 0 → d.boot.trial = false →
    ((kenGet d k = none ∨ ctrlPresent d port fn = false) → Runs (.kennelBindFunction c k port fn) d (adminDone c .invalidField 0 [] d)) ∧
    (kenGet d k ≠ none → ctrlPresent d port fn = true → Runs (.kennelBindFunction c k port fn) d (adminDone c .success 0 []
      (settle (sjPut 0x8011 (port * 64 + fn) (leBytes 1 k) { d with
        ten := { d.ten with fnBind := tabPutD d.ten.fnBind (port * 64 + fn) k 0 } }))))) ∧
  (∀ (d : Dev) (c : Src) (k nsid : Nat), adminUp c d = true → c.fn = 0 → d.boot.trial = false →
    (kenGet d k = none → Runs (.kennelBindNamespace c k nsid) d (adminDone c .invalidField 0 [] d)) ∧
    (kenGet d k ≠ none → nsGet d nsid = none → Runs (.kennelBindNamespace c k nsid) d (adminDone c .invalidNamespace 0 [] d)) ∧
    (kenGet d k ≠ none → nsGet d nsid ≠ none → (nsid, k) ∈ d.ten.nsBind → Runs (.kennelBindNamespace c k nsid) d
      (adminDone c .success 0 [] d)) ∧
    (kenGet d k ≠ none → nsGet d nsid ≠ none → (nsid, k) ∉ d.ten.nsBind →
      (1024 ≤ (d.ten.nsBind.filter (fun q => decide (q.2 = k))).length ∨ 16 ≤ (d.ten.nsBind.filter (fun q => decide (q.1 = nsid))).length) →
      Runs (.kennelBindNamespace c k nsid) d (adminDone c .resourceExhausted 0 [] d)) ∧
    (kenGet d k ≠ none → nsGet d nsid ≠ none → (nsid, k) ∉ d.ten.nsBind →
      (d.ten.nsBind.filter (fun q => decide (q.2 = k))).length < 1024 → (d.ten.nsBind.filter (fun q => decide (q.1 = nsid))).length < 16 →
      Runs (.kennelBindNamespace c k nsid) d (adminDone c .success 0 [] (nsBindRecord nsid { d with ten := { d.ten with
        nsBind := d.ten.nsBind ++ [(nsid, k)] } }))) ∧
    ((nsid, k) ∉ d.ten.nsBind → Runs (.kennelUnbindNamespace c k nsid) d (adminDone c .invalidField 0 [] d)) ∧
    ((nsid, k) ∈ d.ten.nsBind → Runs (.kennelUnbindNamespace c k nsid) d (adminDone c .success 0 [] (nsBindRecord nsid { d with
      ten := { d.ten with nsBind := d.ten.nsBind.filter (fun q => decide (q ≠ (nsid, k))) } }))))

/-- Unit Service, Event Recorder Control and Debug Unlock (R69, R72, R73, R77, R168–R171, R201, R482, R484, R486). -/
def Obligations.ServiceCommands : Prop :=
  -- Query: the state code of Table 2.12 in DW0.
  (∀ (d : Dev) (c : Src) (type n : Nat), adminUp c d = true → c.fn = 0 →
    ((type < 1 ∨ 3 < type) → Runs (.unitQuery c type n) d (adminDone c .invalidField 0 [] d) ∧
      Runs (.unitTakeOut c type n) d (adminDone c .invalidField 0 [] d) ∧ Runs (.unitReturn c type n) d (adminDone c .invalidField 0 [] d)) ∧
    (1 ≤ type → type ≤ 3 → unitState d type n = 0 → Runs (.unitQuery c type n) d (adminDone c .unitAbsent 0 [] d)) ∧
    (1 ≤ type → type ≤ 3 → unitState d type n ≠ 0 → Runs (.unitQuery c type n) d (adminDone c .success (unitState d type n) [] d))) ∧
  -- Take-out: of a unit present, in service or in test, that leaves enough of its kind; the answer is its state.
  (∀ (d : Dev) (c : Src) (n : Nat), adminUp c d = true → c.fn = 0 →
    (chCount d.fuse ≤ n → Runs (.unitTakeOut c 1 n) d (adminDone c .unitAbsent 0 [] d) ∧
      Runs (.unitReturn c 1 n) d (adminDone c .unitAbsent 0 [] d)) ∧
    (dieFitted d n = false → Runs (.unitTakeOut c 2 n) d (adminDone c .unitAbsent 0 [] d) ∧
      Runs (.unitReturn c 2 n) d (adminDone c .unitAbsent 0 [] d)) ∧
    (detCount d.fuse ≤ n → Runs (.unitTakeOut c 3 n) d (adminDone c .unitAbsent 0 [] d) ∧
      Runs (.unitReturn c 3 n) d (adminDone c .unitAbsent 0 [] d)) ∧
    (dieFitted d n = true → (dieGet d n).st ≠ 1 → (dieGet d n).st ≠ 3 →
      Runs (.unitTakeOut c 2 n) d (adminDone c .unitStateConflict (dieGet d n).st [] d)) ∧
    (dieFitted d n = true → (dieGet d n).st = 1 → stripeLacks d [n] = true →
      Runs (.unitTakeOut c 2 n) d (adminDone c .unitStateConflict 1 [] d)) ∧
    (dieFitted d n = true → ((dieGet d n).st = 3 ∨ ((dieGet d n).st = 1 ∧ stripeLacks d [n] = false)) →
      Runs (.unitTakeOut c 2 n) d (adminDone c .success (dieGet (dieTakeOut n 0 d) n).st [] (dieTakeOut n 0 d))) ∧
    (n < chCount d.fuse → (((chanGet d n).st ≠ 1 ∧ (chanGet d n).st ≠ 3) ∨ (chanGet d n).leaving ≠ none) →
      Runs (.unitTakeOut c 1 n) d (adminDone c .unitStateConflict (chanGet d n).st [] d)) ∧
    (∀ ds x live y, n < chCount d.fuse → ((chanGet d n).st = 1 ∨ (chanGet d n).st = 3) → (chanGet d n).leaving = none →
      ds = ((List.range 32).map (fun i => 32 * n + i)).filter (fun k => dieFitted d k) →
      x = unitRecord 1 n 2 (chanPut d n { chanGet d n with leaving := some 0, returning := false }) →
      live = ds.filter (fun k => decide ((dieGet x k).st = 1) || decide ((dieGet x k).st = 3)) →
      y = live.foldl (fun z k => dieTakeOut k 0 z) x →
      (stripeLacks d (ds.filter (fun k => decide ((dieGet d k).st = 1))) = true →
        Runs (.unitTakeOut c 1 n) d (adminDone c .unitStateConflict (chanGet d n).st [] d)) ∧
      (stripeLacks d (ds.filter (fun k => decide ((dieGet d k).st = 1))) = false → live ≠ [] →
        Runs (.unitTakeOut c 1 n) d (adminDone c .success (chanGet y n).st [] y)) ∧
      (stripeLacks d (ds.filter (fun k => decide ((dieGet d k).st = 1))) = false → live = [] → ∀ z,
        z = chanLeaveCheck n { x with hw := irq x.hw (irqFch n) 1 } → Runs (.unitTakeOut c 1 n) d (adminDone c .success (chanGet z n).st [] z))) ∧
    (n < detCount d.fuse → (((detGet d n).st ≠ 1 ∧ (detGet d n).st ≠ 3) ∨ (detGet d n).leaving ≠ none ∨ lastDet d n = true) →
      Runs (.unitTakeOut c 3 n) d (adminDone c .unitStateConflict (detGet d n).st [] d)) ∧
    (n < detCount d.fuse → ((detGet d n).st = 1 ∨ (detGet d n).st = 3) → (detGet d n).leaving = none → lastDet d n = false →
      Runs (.unitTakeOut c 3 n) d (adminDone c .success (detGet (detLeave n 0 d) n).st [] (detLeave n 0 d)))) ∧
  -- A channel is out once no die of it is leaving any more; a detector at once where it holds no context, and after its last one else.
  (∀ (d : Dev) (n w : Nat), (chanGet d n).leaving = some w →
    ((∃ i < 32, (dieGet d (32 * n + i)).leaving ≠ none) → chanLeaveCheck n d = d) ∧
    ((∀ i < 32, (dieGet d (32 * n + i)).leaving = none) →
      (chanGet (chanLeaveCheck n d) n).st = 2 ∧ (chanGet (chanLeaveCheck n d) n).leaving = none ∧ (chanLeaveCheck n d).med = d.med)) ∧
  (∀ (d : Dev) (n w : Nat), (detGet d n).leaving = none → (detGet d n).ctx ≠ [] →
    (detGet (detLeave n w d) n).leaving = some w ∧ (detGet (detLeave n w d) n).st = (detGet d n).st ∧ (detLeave n w d).med = d.med) ∧
  -- Return: from out of service or failed; the unit is in test until its own commands bring it back.
  (∀ (d : Dev) (c : Src) (n : Nat), adminUp c d = true → c.fn = 0 →
    (dieFitted d n = true → (((dieGet d n).st ≠ 2 ∧ (dieGet d n).st ≠ 4) ∨ (chanGet d (chOf n)).st ≠ 1) →
      Runs (.unitReturn c 2 n) d (adminDone c .unitStateConflict (dieGet d n).st [] d)) ∧
    (dieFitted d n = true → ((dieGet d n).st = 2 ∨ (dieGet d n).st = 4) → (chanGet d (chOf n)).st = 1 →
      Runs (.unitReturn c 2 n) d (adminDone c .success 3 [] (returnDies (chOf n) [n] d))) ∧
    (n < chCount d.fuse → (chanGet d n).st ≠ 2 → (chanGet d n).st ≠ 4 →
      Runs (.unitReturn c 1 n) d (adminDone c .unitStateConflict (chanGet d n).st [] d)) ∧
    (∀ ds x, n < chCount d.fuse → ((chanGet d n).st = 2 ∨ (chanGet d n).st = 4) →
      ds = ((List.range 32).map (fun i => 32 * n + i)).filter (fun k =>
        dieFitted d k && (decide ((dieGet d k).st = 2) || decide ((dieGet d k).st = 4))) →
      x = returnDies n ds (unitRecord 1 n 2 (chanPut d n { chanGet d n with st := 3, returning := true, trained := 0#4, failed := 0#4 })) →
      (ds ≠ [] → Runs (.unitReturn c 1 n) d (adminDone c .success 3 [] x)) ∧
      (ds = [] → Runs (.unitReturn c 1 n) d (adminDone c .success 3 [] (chanRetEnd n x)))) ∧
    (n < detCount d.fuse → (detGet d n).st ≠ 2 → (detGet d n).st ≠ 4 →
      Runs (.unitReturn c 3 n) d (adminDone c .unitStateConflict (detGet d n).st [] d)) ∧
    (∀ x, n < detCount d.fuse → ((detGet d n).st = 2 ∨ (detGet d n).st = 4) →
      x = unitRecord 3 n 2 (dctrlWrite (n + 49) (putFld (rd d.hw (R.PWR_DCTRL (n + 49))) 0 2 1) d) →
      Runs (.unitReturn c 3 n) d (adminDone c .success 3 [] (detPut { x with hw := md x.hw (R.DET_CTRL n) (fun w => setBit w 1) } n
        { detGet x n with st := 3, testing := true, returning := true, leaving := none })))) ∧
  -- Dies that return are in test, not ready, and reset in waves; their chip enables train again. A domain that is not ON wakes for them.
  (∀ (d : Dev) (k n : Nat), domOn d.pwr (k + 1) = true →
    dieGet (returnDies k [n] d) n = { dieGet d n with st := 3, returning := some (0, 0), ready := false } ∧
    (chanGet (returnDies k [n] d) k).needTrain = (chanGet d k).needTrain ||| (1#4 <<< (n % 32 / 8)) ∧
    (returnDies k [n] d).med = d.med ∧ (∀ i, i ≠ n → dieGet (returnDies k [n] d) i = dieGet d i)) ∧
  -- The event recorder: flush and clear, and the rate limits, kept in settings.
  (∀ (d : Dev) (c : Src), adminUp c d = true → c.fn = 0 →
    Runs (.evrecCtrlFlush c) d (adminDone c .success 0 [] { d with hw := evFlush d.hw }) ∧
    Runs (.evrecCtrlClear c) d (adminDone c .success 0 [] { d with hw := evClear d.hw })) ∧
  (∀ (d : Dev) (c : Src) (code rate burst r s : Nat) (b : Bucket), adminUp c d = true → c.fn = 0 → d.boot.trial = false →
    b = evBucket d.hw code → r = rate % 65536 → s = burst % 65536 →
    (code ≤ 511 → Runs (.evrecSetRateLimit c code rate burst) d (adminDone c .success 0 []
      (sjPut 0x31 code (leBytes 2 r ++ leBytes 2 s) { d with hw := { d.hw with ev := { d.hw.ev with
        buckets := tabPut d.hw.ev.buckets code { b with rate := r, burst := s, level := min b.level (s * 25000000) } } } }))) ∧
    (511 < code → Runs (.evrecSetRateLimit c code rate burst) d (adminDone c .invalidField 0 [] d))) ∧
  (∀ (d : Dev) (c : Src) (code : Nat) (b : Bucket), adminUp c d = true → c.fn = 0 → b = tabGetD d.hw.ev.buckets code Bucket.init →
    (code ≤ 511 → Runs (.evrecReadRateLimit c code) d (adminDone c .success (b.burst * 65536 + b.rate) [] d)) ∧
    (511 < code → Runs (.evrecReadRateLimit c code) d (adminDone c .invalidField 0 [] d))) ∧
  -- Debug Unlock: a challenge of 64 bytes, one answer to it, and three failures lock the attempts.
  (∀ (d : Dev) (c : Src) (bs : List Byte), adminUp c d = true → c.fn = 0 →
    (3 ≤ d.sec.dbg.failures → Runs (.debugGetChallenge c) d (adminDone c .debugFailed 0 [] d) ∧
      Runs (.debugSubmitResponse c bs) d (adminDone c .debugFailed 0 [] d)) ∧
    (d.sec.dbg.failures < 3 → drbgReady d.sec = false → Runs (.debugGetChallenge c) d { d with
      host := { d.host with rndHeld := d.host.rndHeld ++ [.challenge c] } }) ∧
    (∀ ch, d.sec.dbg.failures < 3 → drbgReady d.sec = true → ch = chalBytes d (Config.drbg d.sec.drbgDraws) →
      Runs (.debugGetChallenge c) d (adminDone c .success 0 (ch.map (fun b => b.toNat)) { d with sec := { d.sec with
        drbgDraws := d.sec.drbgDraws + 1, drbgReqs := d.sec.drbgReqs + 1
        dbg := { d.sec.dbg with adminChal := some (BitVec.ofNat 512 (leNat ch)) } } })) ∧
    (∀ st, d.sec.dbg.failures < 3 →
      st = (match d.sec.dbg.adminChal with | some ch => debugVerify d ch (padTo 96 bs) | none => .reject) →
      Runs (.debugSubmitResponse c bs) d (adminDone c (if st = .ok then .success else .debugFailed) 0 []
        (debugResult 0 st { d with sec := { d.sec with dbg := { d.sec.dbg with adminChal := none } } })))) ∧
  (∀ (d : Dev) (path : Nat) (st : Status), (debugResult path st d).med = d.med ∧
    (st = .ok → (debugResult path st d).sec.dbg = { d.sec.dbg with unlocked := true }) ∧
    (st ≠ .ok → (debugResult path st d).sec.dbg = { d.sec.dbg with failures := d.sec.dbg.failures + 1 })) ∧
  (∀ d : Dev, Runs (.debugChallengeExpiry false) d { d with sec := { d.sec with dbg := { d.sec.dbg with adminChal := none } } } ∧
    Runs (.debugChallengeExpiry true) d { d with sec := { d.sec with dbg := { d.sec.dbg with jtagChal := none } } })

/-- Format, Sanitize and Key Per I/O (R5, R52, R260–R264, R368, R388, R391). -/
def Obligations.EraseAndKeyCommands : Prop :=
  (∀ (d : Dev) (c : Src) (nsid ses : Nat), adminUp c d = true →
    ((2 < ses ∨ (ses = 2 ∧ hasCrypto d.fuse = false)) → Runs (.formatNvm c nsid ses) d (adminDone c .invalidField 0 [] d)) ∧
    ((ses ≤ 1 ∨ (ses = 2 ∧ hasCrypto d.fuse = true)) → nsid ≠ 0xFFFFFFFF → nsGet d nsid = none →
      Runs (.formatNvm c nsid ses) d (adminDone c .invalidNamespace 0 [] d)) ∧
    (∀ ids, (nsid = 0xFFFFFFFF ∨ nsGet d nsid ≠ none) → ids = (if nsid = 0xFFFFFFFF then d.ten.namespaces.map (fun q => q.1) else [nsid]) →
      (ses ≤ 1 → Runs (.formatNvm c nsid ses) d (adminDone c .success 0 [] (volWrite (ids.foldl (fun y i =>
        match nsGet y i with | some n => nsWipe i n y | none => y) d)))) ∧
      (ses = 2 → hasCrypto d.fuse = true → drbgReady d.sec = true →
        Runs (.formatNvm c nsid ses) d (adminDone c .success 0 [] (volWrite (ids.foldl (fun y i => nsCrypto i y) d)))) ∧
      (ses = 2 → hasCrypto d.fuse = true → drbgReady d.sec = false → Runs (.formatNvm c nsid ses) d { d with
        host := { d.host with rndHeld := d.host.rndHeld ++ [.format c nsid] } }))) ∧
  -- What a wipe leaves: every LBA of a conventional namespace UNMAPPED, and of a zoned one each zone reset that Reset is allowed on.
  (∀ (d : Dev) (nsid lba : Nat) (n : Ns), n.zoned = false → lba < n.nsze → entSeq (mapAt d nsid lba) ≤ d.med.seqNext →
    mapAt (nsWipe nsid n d) nsid lba = .unmapped d.med.seqNext) ∧
  (∀ (d : Dev) (nsid : Nat) (n : Ns), n.zoned = true → nsWipe nsid n d = (nsZones d nsid).foldl (fun x q =>
    if zoneAllows .reset (zoneGet x q.1).st then zoneReset q.1 x else x) d) ∧
  -- A crypto erase: a new namespace key, the KPIO keys of its Kennels gone, then the wipe.
  (∀ (d x : Dev) (nsid : Nat) (n n1 : Ns), n.cipher ≠ 0 → nsKeyMake nsid n.slot (slotGet d.sec n.slot).kennel n d = some (n1, x) →
    nsGet (nsRekey nsid n d) nsid = some n1 ∧ (∀ s ∈ x.sec.slots, s.2.type ≠ 0 → s.2.scope = 2 → (nsid, s.2.kennel) ∈ x.ten.nsBind →
      (s.1, slotClear s.2) ∈ (nsRekey nsid n d).sec.slots) ∧
    (∀ s ∈ x.sec.slots, s.2.scope ≠ 2 → s ∈ (nsRekey nsid n d).sec.slots)) ∧
  (∀ (d : Dev) (nsid : Nat) (n n1 : Ns), nsGet d nsid = some n → nsGet (nsRekey nsid n d) nsid = some n1 →
    nsCrypto nsid d = nsWipe nsid n1 (nsRekey nsid n d)) ∧
  (∀ (d : Dev) (c : Src), adminUp c d = true →
    (hasCrypto d.fuse = false → Runs (.sanitizeCryptoErase c) d (adminDone c .invalidField 0 [] d)) ∧
    (hasCrypto d.fuse = true → d.med.volUnknown = true → Runs (.sanitizeCryptoErase c) d (adminDone c .layoutFrozen 0 [] d)) ∧
    (hasCrypto d.fuse = true → d.med.volUnknown = false → drbgReady d.sec = true → Runs (.sanitizeCryptoErase c) d
      (adminDone c .success 0 [] (volWrite (d.ten.namespaces.foldl (fun y q => nsCrypto q.1 y) d)))) ∧
    (hasCrypto d.fuse = true → d.med.volUnknown = false → drbgReady d.sec = false → Runs (.sanitizeCryptoErase c) d { d with
      host := { d.host with rndHeld := d.host.rndHeld ++ [.sanitize c] } })) ∧
  -- A block erase: nothing of the old data is left and each block in use is queued for its erase; a new volume, every function in Kennel 0,
  -- and the namespaces of a known volume start anew.
  (∀ (d x y : Dev) (c : Src), adminUp c d = true → x = volCreate (mediaErase d) →
    y = x.ten.fnBind.foldl (fun z q => sjDelete 0x8011 q.1 z) { x with ten := { x.ten with zones := [] } } →
    Runs (.sanitizeBlockErase c) d (adminDone c .success 0 [] (volWrite (y.ten.namespaces.foldl (fun z q =>
      if q.2.zoned then zonesCreate q.1 q.2 z else z) { y with ten := { y.ten with fnBind := [] } })))) ∧
  (∀ d e : Dev, e = mediaErase d → e.med.mapu.map = [] ∧ e.med.copies = [] ∧ e.med.staged = [] ∧ e.med.loose = [] ∧ e.med.sbs = [] ∧
    e.med.openSb = [] ∧ e.med.jr.buf = [] ∧ e.med.doomed = []) ∧
  (∀ d e : Dev, e = volCreate d → e.med.formatted = true ∧ e.med.volUnknown = false ∧ e.med.volGen = 0 ∧ e.med.volCreated = d.aff.mtime ∧
    e.ten.zones = d.ten.zones ∧ (∀ q ∈ e.ten.namespaces, q.2.readOnly = false)) ∧
  -- Keys: an import KEK from its exchange; an injected key goes to its tag's slot for the injecting function's Kennel.
  (∀ (d : Dev) (c : Src) (i : Nat) (msg : List Byte), adminUp c d = true →
    ((hasCrypto d.fuse = false ∨ 15 < i) → Runs (.kekEstablishment c i msg) d (adminDone c .invalidField 0 [] d)) ∧
    (hasCrypto d.fuse = true → i ≤ 15 → Runs (.kekEstablishment c i msg) d (adminDone c .success 0 [] { d with
      sec := { d.sec with importKeks := tabPut d.sec.importKeks i (Config.ecdhKek msg) } }))) ∧
  (∀ (d : Dev) (c : Src) (tag kek : Nat) (kwp : Bool) (w : List Byte) (s : Slot), adminUp c d = true → s = slotGet d.sec tag →
    ((hasCrypto d.fuse = false ∨ 8191 < tag ∨ 15 < kek) → Runs (.keyInjection c tag kek kwp w) d (adminDone c .invalidField 0 [] d)) ∧
    (hasCrypto d.fuse = true → tag ≤ 8191 → kek ≤ 15 → s.type ≠ 0 → (s.scope ≠ 2 ∨ s.kennel ≠ fnKennel d c.port c.fn) →
      Runs (.keyInjection c tag kek kwp w) d (adminDone c .authority 0 [] d)) ∧
    (hasCrypto d.fuse = true → tag ≤ 8191 → kek ≤ 15 → (s.type = 0 ∨ (s.scope = 2 ∧ s.kennel = fnKennel d c.port c.fn)) →
      unwrapLenOk kwp w.length = false → Runs (.keyInjection c tag kek kwp w) d (adminDone c .invalidField 0 [] d)) ∧
    (hasCrypto d.fuse = true → tag ≤ 8191 → kek ≤ 15 → (s.type = 0 ∨ (s.scope = 2 ∧ s.kennel = fnKennel d c.port c.fn)) →
      unwrapLenOk kwp w.length = true → (∀ key pt, tabGet d.sec.importKeks kek = some key → Config.unwrap kwp key w = some pt →
        unwrapSlot false tag (fnKennel d c.port c.fn) pt = none) →
      Runs (.keyInjection c tag kek kwp w) d (adminDone c .invalidField 0 [] { d with hw := irq d.hw irqKv 1 })) ∧
    (∀ key pt type km scope kn, hasCrypto d.fuse = true → tag ≤ 8191 → kek ≤ 15 →
      (s.type = 0 ∨ (s.scope = 2 ∧ s.kennel = fnKennel d c.port c.fn)) → unwrapLenOk kwp w.length = true →
      tabGet d.sec.importKeks kek = some key → Config.unwrap kwp key w = some pt →
      unwrapSlot false tag (fnKennel d c.port c.fn) pt = some (type, km, scope, kn) →
      (slotLoad s type km scope kn = none →
        Runs (.keyInjection c tag kek kwp w) d (adminDone c .keyExhausted 0 [] { d with hw := irq d.hw irqKv 5 })) ∧
      (∀ y, slotLoad s type km scope kn = some y →
        Runs (.keyInjection c tag kek kwp w) d (adminDone c .success 0 [] { d with sec := slotPut d.sec tag y })))) ∧
  (∀ (x : Slot) (type : Nat) (key : BitVec 512) (scope kennel : Nat),
    (x.gen = genMax → slotLoad x type key scope kennel = none) ∧ (x.gen ≠ genMax → slotLoad x type key scope kennel =
      some { type := type, key := key, gen := x.gen + 1, kennel := kennel, scope := scope, ctr := 1 }))

/-- Device time is read in two halves (R32): the low half's read latches the high half for its own master, which alone reads it. -/
def Obligations.DeviceTimeIsReadWhole : Prop :=
  ∀ (d : Dev) (m : Nat), d.lets (readOf m 0xF000000020) → ∃ e, Runs (.idTimeLoRead m) d e ∧
    (∃ r, tabGet e.hw.resps m = some r ∧ r.status = .ok ∧ r.data = d.hw.time.toNat % 0x100000000) ∧
    (∀ k, k ≠ m → mrd e.hw 0xF000000024 k = mrd d.hw 0xF000000024 k) ∧ e.hw.time = d.hw.time ∧
    (∀ f : Dev, f.lets (readOf m 0xF000000024) → mrd f.hw 0xF000000024 m = mrd e.hw 0xF000000024 m →
      ∃ r, tabGet (regRead m 0xF000000024 f).hw.resps m = some r ∧ r.status = .ok ∧ r.data = d.hw.time.toNat / 0x100000000)

/-- Which source a claim delivers (R409). -/
def Obligations.ClaimDeliversByPriority : Prop :=
  -- Eligible: pending, not masked, routed to the context, and of a priority above its threshold. Priority 0 is never delivered.
  (∀ (d : Dev) (c x s : Nat), whEligible (rd d.hw) c x s = true ↔
    bit (rd d.hw (R.WH_PEND (s / 32))) (s % 32) = true ∧ bit (rd d.hw (R.WH_MASK (s / 32))) (s % 32) = false ∧
    fld (rd d.hw (R.WH_ROUTE s)) 0 4 = c ∧ fld (rd d.hw (R.WH_ROUTE s)) 5 1 = x ∧
    fld (rd d.hw (R.WH_THRESH (2 * c + x))) 0 3 < fld (rd d.hw (R.WH_ROUTE s)) 6 3) ∧
  (∀ (d : Dev) (c x s : Nat), fld (rd d.hw (R.WH_ROUTE s)) 6 3 = 0 → whEligible (rd d.hw) c x s = false) ∧
  -- The context's line to its core.
  (∀ (d : Dev) (c x : Nat), mipEip d c x = true ↔ ∃ s < 1024, whEligible (rd d.hw) c x s = true) ∧
  -- A claim answers the best one and clears it, but for a source that its level holds (R406); nothing eligible answers VALID = 0.
  (∀ (d : Dev) (m c x s : Nat), c < 16 → x < 2 → s < 1024 → d.wh.saved.getLsbD (c / 4) = false →
    d.lets (readOf m (R.WH_CLAIM (2 * c + x))) → whEligible (rd d.hw) c x s = true →
    (∀ t < 1024, whEligible (rd d.hw) c x t = true → t ≠ s → fld (rd d.hw (R.WH_ROUTE t)) 6 3 < fld (rd d.hw (R.WH_ROUTE s)) 6 3 ∨
      (fld (rd d.hw (R.WH_ROUTE t)) 6 3 = fld (rd d.hw (R.WH_ROUTE s)) 6 3 ∧ s < t)) → ∃ e, Runs (.whClaim m (2 * c + x) false) d e ∧
    (∃ r, tabGet e.hw.resps m = some r ∧ r.status = .ok ∧ r.data = 0x80000000 + s) ∧
    rd e.hw (R.WH_LAST (2 * c + x)) = BitVec.ofNat 32 (0x80000000 + s) ∧
    bit (rd e.hw (R.WH_PEND (s / 32))) (s % 32) = levelActive d s ∧
    (∀ t < 1024, t ≠ s → bit (rd e.hw (R.WH_PEND (t / 32))) (t % 32) = bit (rd d.hw (R.WH_PEND (t / 32))) (t % 32))) ∧
  (∀ (d : Dev) (m c x : Nat), c < 16 → x < 2 → d.lets (readOf m (R.WH_CLAIM (2 * c + x))) →
    (∀ t < 1024, whEligible (rd d.hw) c x t = false) → ∃ e, Runs (.whClaim m (2 * c + x) false) d e ∧
    e = { d with hw := { d.hw with resps := e.hw.resps } } ∧
    ∃ r, tabGet e.hw.resps m = some r ∧ r.status = .ok ∧ r.data = 0)

/-- The order of the checks that can refuse a request (R523), for a request that its master puts on the fabric. -/
def Obligations.RequestChecksInOrder : Prop :=
  ∀ (d : Dev) (q : Req), masterReserved q.master = false → masterClocked d q.master = true → storeHeld d q.master = false →
    fetchBarred d q = false →
    -- 1: an address outside every region.
    (regionOf d.hw q.addr = .outside → access q d = respond q .range 0 d) ∧
    -- 2: alignment; a register access is 32 bits wide.
    (regionOf d.hw q.addr ≠ .outside → (sizeOk q.size = false ∨ q.addr % q.size ≠ 0 ∨ (regionOf d.hw q.addr = .regs ∧ q.size ≠ 4)) →
      access q d = respond q .align 0 d) ∧
    (regionOf d.hw q.addr ≠ .outside → sizeOk q.size = true → q.addr % q.size = 0 → (regionOf d.hw q.addr = .regs → q.size = 4) →
      -- 3: the Collar; no gate is met and no domain woken.
      (collarOk d q.master q.kind q.addr q.size = false →
        ∃ e, access q d = respond q .denied 0 e ∧ e.pwr = d.pwr ∧ e.med = d.med ∧ e.hw.mem = d.hw.mem) ∧
      (collarOk d q.master q.kind q.addr q.size = true →
        -- 4: a slot of an absent unit.
        (regAbsent d q.addr = true → access q d = respond q .ok 0 d) ∧
        (regAbsent d q.addr = false →
          -- 5: the gate of the target's domain.
          (gateOf d (domOf d.hw q.addr) = .refuse → ∃ e, access q d = respond q .targetOff 0 e ∧
            e = { d with hw := irq d.hw irqPwr 1 }) ∧
          (gateOf d (domOf d.hw q.addr) = .hold → ∃ e, access q d = respWait q e ∧
            e.pwr.held = d.pwr.held ++ [{ dom := domOf d.hw q.addr, req := q }]) ∧
          -- 6: the target; the boot ROM and the Rind window take no writes.
          (gateOf d (domOf d.hw q.addr) = .pass → access q d = accessTarget q d ∧
            (q.kind = .write → (regionOf d.hw q.addr = .rom ∨ regionOf d.hw q.addr = .rindWindow) → access q d = respond q .denied 0 d)))))

/-- How a post to the event recorder is decided (R481), for a recorder that is enabled and a record that continues no other. -/
def Obligations.EventPostsInOrder : Prop :=
  ∀ (h : Hw) (source code sev : Nat) (a0 a1 a2 : Word) (b : Bucket), bit (rd h R.EVREC_CTRL) 0 = true → b = evBucket h code →
    (511 < code → evPost h source code sev false a0 a1 a2 = (.range, h)) ∧
    (code ≤ 511 → h.ev.full = true → ∃ g, evPost h source code sev false a0 a1 a2 = (.dropped, irq g irqEvrec 3) ∧
      g.ev.buf = h.ev.buf ∧ g.ev.buckets = h.ev.buckets ∧
      fld (rd g R.EVREC_DROP) 16 16 = min 0xFFFF (fld (rd h R.EVREC_DROP) 16 16 + 1)) ∧
    (code ≤ 511 → h.ev.full = false → b.rate ≠ 0 → b.burst ≠ 0 → b.level < 25000000 → ∃ g,
      evPost h source code sev false a0 a1 a2 = (.suppressed, g) ∧ g.ev.buf = h.ev.buf ∧
      (tabGetD g.ev.buckets code Bucket.init).supp = min 0xFFFF (b.supp + 1)) ∧
    (code ≤ 511 → h.ev.full = false → (b.rate = 0 ∨ b.burst = 0 ∨ 25000000 ≤ b.level) → 2048 ≤ h.ev.buf.length → ∃ g,
      evPost h source code sev false a0 a1 a2 = (.dropped, irq g irqEvrec 3) ∧ g.ev.buf = h.ev.buf ∧ g.ev.buckets = h.ev.buckets ∧
      fld (rd g R.EVREC_DROP) 0 16 = min 0xFFFF (fld (rd h R.EVREC_DROP) 0 16 + 1)) ∧
    (∀ r : EvRecd, code ≤ 511 → h.ev.full = false → (b.rate = 0 ∨ b.burst = 0 ∨ 25000000 ≤ b.level) →
      r = { time := h.time, boot := h.bootCount, code := code, sev := sev, cont := false, source := source, supp := b.supp
            a0 := a0, a1 := a1, a2 := a2 } →
      (h.ev.dropSince = false → h.ev.buf.length < 2048 → ∃ g, evPost h source code sev false a0 a1 a2 = (.stored, evStore g r) ∧
        g.ev.buf = h.ev.buf ∧ (tabGetD g.ev.buckets code Bucket.init).supp = 0 ∧
        (b.rate ≠ 0 → b.burst ≠ 0 → (tabGetD g.ev.buckets code Bucket.init).level = b.level - 25000000)) ∧
      (h.ev.dropSince = true → h.ev.buf.length < 2047 → ∃ g x, evPost h source code sev false a0 a1 a2 = (.stored, evStore g r) ∧
        x.ev.buf = h.ev.buf ∧ x.ev.dropSince = false ∧ (tabGetD g.ev.buckets code Bucket.init).supp = 0 ∧ g.ev.buf = (evStore x {
          time := h.time, boot := h.bootCount, code := 1, sev := 2, cont := false, source := 0x106, supp := 0
          a0 := BitVec.ofNat 32 (fld (rd h R.EVREC_DROP) 0 16), a1 := BitVec.ofNat 32 (fld (rd h R.EVREC_DROP) 16 16), a2 := 0#32 }).ev.buf)) ∧
    -- A stored record is the buffer's last; where that makes a flush due, the flush follows.
    (∀ r : EvRecd, ∃ g, g.ev.buf = h.ev.buf ++ [r] ∧ (evStore h r = g ∨ evStore h r = evFlush g))

/-- The lock bit of each Rind sector and its password (R422): what LOCK, UNLOCK and SET_PW have done when they end, and that the bits are
non-volatile. -/
def Obligations.SectorLocks : Prop :=
  (∀ (c : Instr) (d e : Dev), (c = .pgoodRise true ∨ c = .pgoodRise false ∨ c = .pgoodFall ∨ c = .sysResetAssert ∨ c = .internalReset) →
    Runs c d e → e.hw.rind.locks = d.hw.rind.locks) ∧
  ∀ (d : Dev) (r : RindOp) (s : Nat), d.hw.rind.running = some r → s = r.addr / 65536 → s < 256 →
    (∃ e, Runs .rindOpDone d e ∧
      (r.op = 3 → ∀ t < 256, rindLocked e.hw.rind t = (rindLocked d.hw.rind t || decide (t = s))) ∧
      (r.op = 4 → d.hw.rind.password = none → d.hw.rind.pwLocked = false →
        ∀ t < 256, rindLocked e.hw.rind t = (rindLocked d.hw.rind t && decide (t ≠ s))) ∧
      (∀ p, r.op = 4 → d.hw.rind.password = some p → d.hw.rind.pwLocked = false → p.toNat = leNat r.data →
        ∀ t < 256, rindLocked e.hw.rind t = (rindLocked d.hw.rind t && decide (t ≠ s))) ∧
      (r.op = 4 → d.hw.rind.pwLocked = true → e.hw.rind.locks = d.hw.rind.locks ∧ fld (rd e.hw R.RIND_STAT) 20 4 = Status.denied.code) ∧
      (∀ p, r.op = 4 → d.hw.rind.password = some p → p.toNat ≠ leNat r.data → e.hw.rind.locks = d.hw.rind.locks ∧
        fld (rd e.hw R.RIND_STAT) 20 4 = Status.denied.code) ∧
      (r.op = 5 → d.hw.rind.password = none → e.hw.rind.password = some (BitVec.ofNat 64 (leNat r.data)) ∧
        e.hw.rind.locks = d.hw.rind.locks) ∧
      (∀ p, r.op = 5 → d.hw.rind.password = some p → e.hw.rind = { d.hw.rind with running := none } ∧
        fld (rd e.hw R.RIND_STAT) 20 4 = Status.denied.code)) ∧
  (fld (rd d.hw R.RIND_LOCK_SEL) 0 3 = s / 32 → bit (rindLockWord d) (s % 32) = rindLocked d.hw.rind s)

/-- The access tables after a reset, and what they permit before ENFORCE is set (R383). -/
def Obligations.OpenAfterReset : Prop :=
  (∀ (d e : Dev) (sys : Bool), Dev.ResetTo sys d e → e.sec.windows = [] ∧ bit (rd e.hw R.COLLAR_CTRL) 0 = false ∧
    bit (rd e.hw R.COLLAR_CTRL) 1 = false ∧ ∀ t w, (collarWin e.sec t w).en = false) ∧
  (∀ d : Dev, d.pins.sysResetHigh = true → ∃ e, Runs .sysResetAssert d e ∧ Dev.ResetTo true d e) ∧
  (∀ d : Dev, d.holdup.flushStep = 6 → d.holdup.resetAfter = true → d.holdup.coldAfter = false → d.holdup.inHold = false →
    ∃ e, Runs .internalReset d e ∧ Dev.ResetTo false d e) ∧
  -- With ENFORCE = 0 every access but the debug master's is permitted, and that one too once debug is unlocked.
  (∀ (d : Dev) (m a size : Nat) (k : Acc), bit (rd d.hw R.COLLAR_CTRL) 0 = false → d.sec.blocked.getLsbD m = false →
    collarOk d m k a size = (decide (m ≠ 27) || d.sec.dbg.unlocked)) ∧
  (∀ (d : Dev) (a size : Nat) (k : Acc), d.sec.dbg.unlocked = false → collarOk d 27 k a size = false)

/-- A write of part of a word (R353): merged into the corrected word under new check bits, or refused with the word poisoned. -/
def Obligations.PartialWrites : Prop :=
  ∀ (d : Dev) (m a : Nat) (bs : List Byte) (w : DWord) (c : Byte), d.hw.storesWf → bs.length < 8 → d.lets (bytesReq m a bs) →
    (regionOf d.hw a = .sram ∨ regionOf d.hw a = .retention ∨ regionOf d.hw a = .dram) → memRaw d.hw.mem (a / 8 * 8) = some (w, c) →
    ∃ e, Runs (.partialWrite m a bs) d e ∧ (∃ r, tabGet e.hw.resps m = some r ∧ r.status = .ok) ∧
    (∀ x, (secClass w c = .good x ∨ secClass w c = .corrected x) →
      memRaw e.hw.mem (a / 8 * 8) = some (mergeBytes x (a % 8) bs, secCheck (mergeBytes x (a % 8) bs))) ∧
    ((secClass w c = .uncorrectable ∨ secClass w c = .poisoned) →
      (0x100000000 ≤ a → bit (rd e.hw R.DRAMC_INT_STAT) 5 = true) ∧ (a < 0x100000000 → bit (rd e.hw R.MEMCHK_INT_STAT) 2 = true) ∧
      ∃ w' c', memRaw e.hw.mem (a / 8 * 8) = some (w', c') ∧ secClass w' c' = .poisoned) ∧
    (∀ b, (b < a / 8 * 8 ∨ a / 8 * 8 + 8 ≤ b) → storeByte e.hw.mem.data b = storeByte d.hw.mem.data b) ∧
    -- The next read of a refused word is answered UNRECOVERED.
    (∀ f : Dev, memRaw f.hw.mem (a / 8 * 8) = memRaw e.hw.mem (a / 8 * 8) → f.lets (readReq m (a / 8 * 8) 8 false) →
      regionOf f.hw (a / 8 * 8) = regionOf d.hw a → (secClass w c = .uncorrectable ∨ secClass w c = .poisoned) →
      ∃ g r, Runs (.memoryRead m (a / 8 * 8) 8 false) f g ∧ tabGet g.hw.resps m = some r ∧ r.status = .unrecovered)

/-- Doorbells (R412): a ring sets the doorbell's pending bit, rings before its claim merge, and the claim delivers it once. -/
def Obligations.DoorbellsMerge : Prop :=
  -- A ring, whether or not the doorbell is pending already.
  (∀ (d : Dev) (m n : Nat), 368 ≤ n → n < 1024 → d.lets (writeOf m (R.WH_PEND_SET (n / 32)) (1#32 <<< (n % 32))) → ∃ e,
    Runs (.pendingSetAlias m (n / 32) (1#32 <<< (n % 32))) d e ∧ bit (rd e.hw (R.WH_PEND (n / 32))) (n % 32) = true ∧
    (∀ t < 1024, t ≠ n → bit (rd e.hw (R.WH_PEND (t / 32))) (t % 32) = bit (rd d.hw (R.WH_PEND (t / 32))) (t % 32)) ∧
    (bit (rd d.hw (R.WH_PEND (n / 32))) (n % 32) = true → ∀ a, rd e.hw a = rd d.hw a)) ∧
  -- Its claim leaves it not pending, so that no claim before another ring delivers it again.
  (∀ (d : Dev) (m c x n : Nat), 368 ≤ n → n < 1024 → c < 16 → x < 2 → d.wh.saved.getLsbD (c / 4) = false →
    d.lets (readOf m (R.WH_CLAIM (2 * c + x))) → whBest (rd d.hw) c x 1024 = some n → ∃ e, Runs (.whClaim m (2 * c + x) false) d e ∧
    (∃ r, tabGet e.hw.resps m = some r ∧ r.data = 0x80000000 + n) ∧ ∀ k y, whEligible (rd e.hw) k y n = false)
end

