-- ==== Sys2Proof/Laws/Exec.lean ====
section
/-!
SUPPORT. What `exec` answers for each command, as the shared operation that its meaning is.
-/

namespace Sys2Proof.Machine

@[simp] theorem exec_pgoodRise (supplyLost : Bool) (s : State) :
    exec (.pgoodRise supplyLost) s =
      does (pgoodRise supplyLost) s := rfl

@[simp] theorem exec_pgoodFall (s : State) :
    exec (.pgoodFall) s =
      does pgoodFall s := rfl

@[simp] theorem exec_sysResetAssert (s : State) :
    exec (.sysResetAssert) s =
      does sysResetAssert s := rfl

@[simp] theorem exec_sysResetRelease (dualPort refclk1 sris : Bool) (s : State) :
    exec (.sysResetRelease dualPort refclk1 sris) s =
      does (sysResetRelease dualPort refclk1 sris) s := rfl

@[simp] theorem exec_startupSlot (s : State) :
    exec (.startupSlot) s =
      does startupSlot s := rfl

@[simp] theorem exec_internalReset (s : State) :
    exec (.internalReset) s =
      does internalReset s := rfl

@[simp] theorem exec_resetWrite (m : Nat) (v : Word) (s : State) :
    exec (.resetWrite m v) s =
      onUnit (fun _ => masterOk m) (regWrite m R.RIND_BOOTCTL (v ||| 2#32)) s := rfl

@[simp] theorem exec_nvmSubsystemReset (p fn : Nat) (s : State) :
    exec (.nvmSubsystemReset p fn) s =
      onUnit (fun d => ctrlOk d p fn) (subsystemReset p fn) s := rfl

@[simp] theorem exec_fabmonUpdate (grant hop : Nat) (s : State) :
    exec (.fabmonUpdate grant hop) s =
      does (fabmon grant hop) s := rfl

@[simp] theorem exec_idTimeLoRead (m : Nat) (s : State) :
    exec (.idTimeLoRead m) s =
      onUnit (fun _ => masterOk m) (regRead m R.ID_TIME_LO) s := rfl

@[simp] theorem exec_hostifPtmLoRead (m p : Nat) (s : State) :
    exec (.hostifPtmLoRead m p) s =
      onUnit (fun _ => masterOk m && decide (p < 2)) (regRead m (R.HOSTIF_PTM_LO p)) s := rfl

@[simp] theorem exec_mapuVerLoRead (m : Nat) (s : State) :
    exec (.mapuVerLoRead m) s =
      onUnit (fun _ => masterOk m) (regRead m R.MAPU_VER_LO) s := rfl

@[simp] theorem exec_affineurMtimeLoRead (m : Nat) (s : State) :
    exec (.affineurMtimeLoRead m) s =
      onUnit (fun _ => masterOk m) (regRead m R.AFFINEUR_MTIME_LO) s := rfl

@[simp] theorem exec_pwrLwTimeLoRead (m n : Nat) (s : State) :
    exec (.pwrLwTimeLoRead m n) s =
      onUnit (fun _ => masterOk m && decide (n < 96)) (regRead m (R.PWR_LW_TIME_LO n)) s := rfl

@[simp] theorem exec_kvSlotCtrLoRead (m : Nat) (s : State) :
    exec (.kvSlotCtrLoRead m) s =
      onUnit (fun _ => masterOk m) (regRead m R.KV_SLOT_CTR_LO) s := rfl

@[simp] theorem exec_registerWrite (m a : Nat) (v : Word) (s : State) :
    exec (.registerWrite m a v) s =
      onUnit (fun _ => masterOk m) (regWrite m a v) s := rfl

@[simp] theorem exec_memoryRead (m a size : Nat) (fetch : Bool) (s : State) :
    exec (.memoryRead m a size fetch) s =
      onUnit (fun _ => masterOk m) (access (readReq m a size fetch)) s := rfl

@[simp] theorem exec_memoryWrite (m a : Nat) (data : DWord) (chk : Byte) (s : State) :
    exec (.memoryWrite m a data chk) s =
      onUnit (fun _ => masterOk m) (access (wordReq m a data chk)) s := rfl

@[simp] theorem exec_partialWrite (m a : Nat) (bytes : List Byte) (s : State) :
    exec (.partialWrite m a bytes) s =
      onUnit (fun _ => masterOk m && decide (bytes.length < 8)) (access (bytesReq m a bytes)) s := rfl

@[simp] theorem exec_itemArgWrite (m a : Nat) (v : Word) (s : State) :
    exec (.itemArgWrite m a v) s =
      onUnit (fun _ => masterOk m && itemArgAddr a) (regWrite m a v) s := rfl

@[simp] theorem exec_perstAssert (p : Nat) (s : State) :
    exec (.perstAssert p) s =
      onUnit (fun d => portPresent d p) (perstAssert p) s := rfl

@[simp] theorem exec_perstRelease (p : Nat) (s : State) :
    exec (.perstRelease p) s =
      onUnit (fun d => portPresent d p) (perstRelease p) s := rfl

@[simp] theorem exec_linkTrainingDone (p rate width : Nat) (flit : Bool) (s : State) :
    exec (.linkTrainingDone p rate width flit) s =
      onUnit (fun d => portPresent d p) (linkTrained p rate width flit) s := rfl

@[simp] theorem exec_configRequest (p : Nat) (req : CfgReq) (s : State) :
    exec (.configRequest p req) s =
      onUnit (fun d => ctrlOk d p req.fn) (configRequest p req.fn req.ask) s := rfl

@[simp] theorem exec_bootConfigTimeout (p : Nat) (s : State) :
    exec (.bootConfigTimeout p) s =
      onUnit (fun d => portPresent d p) (bootConfigTimeout p) s := rfl

@[simp] theorem exec_fwUpSet (m : Nat) (s : State) :
    exec (.fwUpSet m) s =
      onUnit (fun _ => masterOk m) (regWrite m R.HOSTIF_BOOT (1#32)) s := rfl

@[simp] theorem exec_ccEnWrite (p fn : Nat) (w : CcWrite) (s : State) :
    exec (.ccEnWrite p fn w) s =
      onUnit (fun d => ctrlOk d p fn) (ccEnWrite p fn w.en w.cc w.aqa w.asq w.acq) s := rfl

@[simp] theorem exec_ccShnWrite (p fn shn : Nat) (s : State) :
    exec (.ccShnWrite p fn shn) s =
      onUnit (fun d => ctrlOk d p fn) (ccShnWrite p fn shn) s := rfl

@[simp] theorem exec_linkWidthReduce (p : Nat) (s : State) :
    exec (.linkWidthReduce p) s =
      onUnit (fun d => portPresent d p) (widthReduce p) s := rfl

@[simp] theorem exec_l12Entry (p : Nat) (s : State) :
    exec (.l12Entry p) s =
      onUnit (fun d => portPresent d p) (l12Entry p) s := rfl

@[simp] theorem exec_clkreqWake (p : Nat) (s : State) :
    exec (.clkreqWake p) s =
      onUnit (fun d => portPresent d p) (clkreqWake p) s := rfl

@[simp] theorem exec_ptmRefresh (p : Nat) (offset : DWord) (s : State) :
    exec (.ptmRefresh p offset) s =
      onUnit (fun d => portPresent d p) (ptmRefresh p offset) s := rfl

@[simp] theorem exec_ptmFail (p : Nat) (s : State) :
    exec (.ptmFail p) s =
      onUnit (fun d => portPresent d p) (ptmFail p) s := rfl

@[simp] theorem exec_functionLevelReset (p fn : Nat) (s : State) :
    exec (.functionLevelReset p fn) s =
      onUnit (fun d => ctrlOk d p fn) (flr p fn) s := rfl

@[simp] theorem exec_controllerLevelReset (p fn : Nat) (s : State) :
    exec (.controllerLevelReset p fn) s =
      onUnit (fun d => ctrlOk d p fn) (clr p fn) s := rfl

@[simp] theorem exec_doorbellWrite (p fn sq : Nat) (cmds : List IoCmd) (s : State) :
    exec (.doorbellWrite p fn sq cmds) s =
      onUnit (fun d => ctrlOk d p fn) (doorbell p fn sq cmds) s := rfl

@[simp] theorem exec_completionItemPost (m : Nat) (v : Word) (s : State) :
    exec (.completionItemPost m v) s =
      onUnit (fun _ => masterOk m) (regWrite m R.HOSTIF_ACPL v) s := rfl

@[simp] theorem exec_hostifCctlWrite (m : Nat) (v : Word) (s : State) :
    exec (.hostifCctlWrite m v) s =
      onUnit (fun _ => masterOk m) (regWrite m R.HOSTIF_CCTL v) s := rfl

@[simp] theorem exec_adminEnWrite (m : Nat) (v : Word) (s : State) :
    exec (.adminEnWrite m v) s =
      onUnit (fun _ => masterOk m) (regWrite m R.HOSTIF_CTRL (v ||| 2#32)) s := rfl

@[simp] theorem exec_read (tag : Nat) (s : State) :
    exec (.read tag) s =
      does (settled (onOp .read tag (readCmd tag false))) s := rfl

@[simp] theorem exec_write (tag : Nat) (s : State) :
    exec (.write tag) s =
      does (fun d => onOp .write tag (fun x => writeStart tag x) d) s := rfl

@[simp] theorem exec_zoneAppend (tag : Nat) (s : State) :
    exec (.zoneAppend tag) s =
      does (fun d => onOp .append tag (fun x => writeStart tag x) d) s := rfl

@[simp] theorem exec_writeZeroes (tag : Nat) (s : State) :
    exec (.writeZeroes tag) s =
      does (fun d => onOp .writeZeroes tag (fun x => writeZeroes tag x) d) s := rfl

@[simp] theorem exec_datasetManagement (tag : Nat) (s : State) :
    exec (.datasetManagement tag) s =
      does (fun d => onOp .deallocate tag (fun x => deallocate tag x) d) s := rfl

@[simp] theorem exec_verify (tag : Nat) (s : State) :
    exec (.verify tag) s =
      does (settled (onOp .verify tag (readCmd tag true))) s := rfl

@[simp] theorem exec_flush (c : Src) (sq nsid : Nat) (s : State) :
    exec (.flush c sq nsid) s =
      does (flushCmd c sq nsid) s := rfl

@[simp] theorem exec_secureDiscard (tag : Nat) (s : State) :
    exec (.secureDiscard tag) s =
      does (fun d => jFlushIfNeeded (onOp .secureDiscard tag (fun x => secureDiscard tag x) d)) s := rfl

@[simp] theorem exec_secureDiscardComplete (p : Nat) (s : State) :
    exec (.secureDiscardComplete p) s =
      onUnit (fun d => packOk d p) (fun d => jFlushIfNeeded (secureDiscardDone p d)) s := rfl

@[simp] theorem exec_zoneOpen (tag : Nat) (s : State) :
    exec (.zoneOpen tag) s =
      does (fun d => jFlushIfNeeded (zoneSend .open_ tag d)) s := rfl

@[simp] theorem exec_zoneClose (tag : Nat) (s : State) :
    exec (.zoneClose tag) s =
      does (fun d => jFlushIfNeeded (zoneSend .close tag d)) s := rfl

@[simp] theorem exec_zoneFinish (tag : Nat) (s : State) :
    exec (.zoneFinish tag) s =
      does (fun d => jFlushIfNeeded (zoneSend .finish tag d)) s := rfl

@[simp] theorem exec_zoneReset (tag : Nat) (s : State) :
    exec (.zoneReset tag) s =
      does (fun d => jFlushIfNeeded (zoneSend .reset tag d)) s := rfl

@[simp] theorem exec_secureResetComplete (p : Nat) (s : State) :
    exec (.secureResetComplete p) s =
      onUnit (fun d => packOk d p) (fun d => jFlushIfNeeded (secureResetDone p d)) s := rfl

@[simp] theorem exec_zoneOffline (tag : Nat) (s : State) :
    exec (.zoneOffline tag) s =
      does (fun d => jFlushIfNeeded (zoneSend .offline tag d)) s := rfl

@[simp] theorem exec_reportZones (c : Src) (sq nsid lba count : Nat) (s : State) :
    exec (.reportZones c sq nsid lba count) s =
      does (reportZones c sq nsid lba count) s := rfl

@[simp] theorem exec_zoneFrlExpiry (nsid z : Nat) (s : State) :
    exec (.zoneFrlExpiry nsid z) s =
      does (zoneFrl (zkey nsid z)) s := rfl

@[simp] theorem exec_zoneForcedFinish (nsid z : Nat) (s : State) :
    exec (.zoneForcedFinish nsid z) s =
      does (fun d => jFlushIfNeeded (zoneForced (zkey nsid z) d)) s := rfl

@[simp] theorem exec_parkIdleExpiry (nsid z : Nat) (s : State) :
    exec (.parkIdleExpiry nsid z) s =
      does (parkIdle (zkey nsid z)) s := rfl

@[simp] theorem exec_zoneWriteFail (tag : Nat) (ue : Bool) (s : State) :
    exec (.zoneWriteFail tag ue) s =
      does (zoneWriteFail tag (if ue then .ownError else .dataTransfer)) s := rfl

@[simp] theorem exec_namespaceCreate (c : Src) (zoned : Bool) (nsze width : Nat) (kpio : Bool) (handles : Nat) (s : State) :
    exec (.namespaceCreate c zoned nsze width kpio handles) s =
      does (nsCreate c zoned nsze width kpio handles) s := rfl

@[simp] theorem exec_namespaceDelete (c : Src) (nsid : Nat) (s : State) :
    exec (.namespaceDelete c nsid) s =
      does (nsDelete c nsid) s := rfl

@[simp] theorem exec_namespaceAttach (c : Src) (nsid : Nat) (attach : Bool) (ids : List Nat) (s : State) :
    exec (.namespaceAttach c nsid attach ids) s =
      does (nsAttach c nsid attach ids) s := rfl

@[simp] theorem exec_getLogPage (c : Src) (lid lsi off len : Nat) (s : State) :
    exec (.getLogPage c lid lsi off len) s =
      does (getLog c lid lsi off len) s := rfl

@[simp] theorem exec_identify (c : Src) (cns nsid : Nat) (s : State) :
    exec (.identify c cns nsid) s =
      does (identify c cns nsid) s := rfl

@[simp] theorem exec_setFeaturesTimestamp (c : Src) (save : Bool) (ms : Nat) (s : State) :
    exec (.setFeaturesTimestamp c save ms) s =
      does (setTimestamp c save ms) s := rfl

@[simp] theorem exec_getFeaturesTimestamp (c : Src) (s : State) :
    exec (.getFeaturesTimestamp c) s =
      does (getTimestamp c) s := rfl

@[simp] theorem exec_setFeaturesZoneResetMode (c : Src) (nsid : Nat) (save secure : Bool) (s : State) :
    exec (.setFeaturesZoneResetMode c nsid save secure) s =
      does (setZoneReset c nsid save secure) s := rfl

@[simp] theorem exec_setFeaturesFdp (c : Src) (on save : Bool) (s : State) :
    exec (.setFeaturesFdp c on save) s =
      does (setFdp c on save) s := rfl

@[simp] theorem exec_setFeaturesPowerState (c : Src) (ps : Nat) (save : Bool) (s : State) :
    exec (.setFeaturesPowerState c ps save) s =
      does (setPower c ps save) s := rfl

@[simp] theorem exec_hmbEnable (c : Src) (units : Nat) (s : State) :
    exec (.hmbEnable c units) s =
      does (adminGate c (hmbEnable c units)) s := rfl

@[simp] theorem exec_hmbMapRebuildDone (p : Nat) (s : State) :
    exec (.hmbMapRebuildDone p) s =
      onUnit (fun d => portPresent d p) (hmbDone p) s := rfl

@[simp] theorem exec_hmbDisable (c : Src) (s : State) :
    exec (.hmbDisable c) s =
      does (adminGate c (hmbDisable c)) s := rfl

@[simp] theorem exec_virtualizationManagement (c : Src) (vf : Nat) (a : VirtAct) (s : State) :
    exec (.virtualizationManagement c vf a) s =
      does (virtManage c vf a) s := rfl

@[simp] theorem exec_nvmeAbort (c : Src) (sq cid : Nat) (s : State) :
    exec (.nvmeAbort c sq cid) s =
      does (nvmeAbort c sq cid) s := rfl

@[simp] theorem exec_firmwareImageDownload (c : Src) (off : Nat) (bs : List Byte) (s : State) :
    exec (.firmwareImageDownload c off bs) s =
      does (fwDownload c off bs) s := rfl

@[simp] theorem exec_firmwareCommit (c : Src) (slot action : Nat) (s : State) :
    exec (.firmwareCommit c slot action) s =
      does (fwCommit c slot action) s := rfl

@[simp] theorem exec_formatNvm (c : Src) (nsid ses : Nat) (s : State) :
    exec (.formatNvm c nsid ses) s =
      does (formatNvm c nsid ses) s := rfl

@[simp] theorem exec_sanitizeBlockErase (c : Src) (s : State) :
    exec (.sanitizeBlockErase c) s =
      does (sanitizeBlock c) s := rfl

@[simp] theorem exec_sanitizeCryptoErase (c : Src) (s : State) :
    exec (.sanitizeCryptoErase c) s =
      does (sanitizeCrypto c) s := rfl

@[simp] theorem exec_keyInjection (c : Src) (tag kek : Nat) (kwp : Bool) (wrapped : List Byte) (s : State) :
    exec (.keyInjection c tag kek kwp wrapped) s =
      does (keyInject c tag kek kwp wrapped) s := rfl

@[simp] theorem exec_reservationRegister (c : Src) (sq nsid host action : Nat) (ignoreKey : Bool) (crkey nrkey : Nat) (ptpl : Bool) (s : State) :
    exec (.reservationRegister c sq nsid host action ignoreKey crkey nrkey ptpl) s =
      does (resvRegister c sq nsid host action ignoreKey crkey nrkey ptpl) s := rfl

@[simp] theorem exec_reservationAcquire (c : Src) (sq nsid action rtype crkey prkey : Nat) (s : State) :
    exec (.reservationAcquire c sq nsid action rtype crkey prkey) s =
      does (resvAcquire c sq nsid action rtype crkey prkey) s := rfl

@[simp] theorem exec_reservationRelease (c : Src) (sq nsid action rtype crkey : Nat) (s : State) :
    exec (.reservationRelease c sq nsid action rtype crkey) s =
      does (resvRelease c sq nsid action rtype crkey) s := rfl

@[simp] theorem exec_reservationReport (c : Src) (sq nsid : Nat) (s : State) :
    exec (.reservationReport c sq nsid) s =
      does (resvReport c sq nsid) s := rfl

@[simp] theorem exec_layoutTransfer (c : Src) (off : Nat) (bs : List Byte) (s : State) :
    exec (.layoutTransfer c off bs) s =
      does (layoutTransfer c off bs) s := rfl

@[simp] theorem exec_layoutVerifyStage (c : Src) (s : State) :
    exec (.layoutVerifyStage c) s =
      does (layoutStage c) s := rfl

@[simp] theorem exec_layoutDiscard (c : Src) (s : State) :
    exec (.layoutDiscard c) s =
      does (layoutDiscard c) s := rfl

@[simp] theorem exec_kennelSet (c : Src) (k : Nat) (bs : List Byte) (s : State) :
    exec (.kennelSet c k bs) s =
      does (kennelSet c k bs) s := rfl

@[simp] theorem exec_kennelDelete (c : Src) (k : Nat) (s : State) :
    exec (.kennelDelete c k) s =
      does (kennelDelete c k) s := rfl

@[simp] theorem exec_kennelRead (c : Src) (k : Nat) (s : State) :
    exec (.kennelRead c k) s =
      does (kennelRead c k) s := rfl

@[simp] theorem exec_kennelBindFunction (c : Src) (k port fn : Nat) (s : State) :
    exec (.kennelBindFunction c k port fn) s =
      does (kennelBindFn c k port fn) s := rfl

@[simp] theorem exec_kennelBindNamespace (c : Src) (k nsid : Nat) (s : State) :
    exec (.kennelBindNamespace c k nsid) s =
      does (kennelBindNs c k nsid) s := rfl

@[simp] theorem exec_kennelUnbindNamespace (c : Src) (k nsid : Nat) (s : State) :
    exec (.kennelUnbindNamespace c k nsid) s =
      does (kennelUnbindNs c k nsid) s := rfl

@[simp] theorem exec_unitTakeOut (c : Src) (type n : Nat) (s : State) :
    exec (.unitTakeOut c type n) s =
      does (unitTakeOut c type n) s := rfl

@[simp] theorem exec_unitReturn (c : Src) (type n : Nat) (s : State) :
    exec (.unitReturn c type n) s =
      does (unitReturn c type n) s := rfl

@[simp] theorem exec_unitQuery (c : Src) (type n : Nat) (s : State) :
    exec (.unitQuery c type n) s =
      does (unitQuery c type n) s := rfl

@[simp] theorem exec_evrecCtrlFlush (c : Src) (s : State) :
    exec (.evrecCtrlFlush c) s =
      does (evCtrlFlush c) s := rfl

@[simp] theorem exec_evrecCtrlClear (c : Src) (s : State) :
    exec (.evrecCtrlClear c) s =
      does (evCtrlClear c) s := rfl

@[simp] theorem exec_evrecSetRateLimit (c : Src) (code rate burst : Nat) (s : State) :
    exec (.evrecSetRateLimit c code rate burst) s =
      does (evCtrlSet c code rate burst) s := rfl

@[simp] theorem exec_evrecReadRateLimit (c : Src) (code : Nat) (s : State) :
    exec (.evrecReadRateLimit c code) s =
      does (evCtrlRead c code) s := rfl

@[simp] theorem exec_debugGetChallenge (c : Src) (s : State) :
    exec (.debugGetChallenge c) s =
      does (debugChallenge c) s := rfl

@[simp] theorem exec_debugSubmitResponse (c : Src) (sig : List Byte) (s : State) :
    exec (.debugSubmitResponse c sig) s =
      does (debugSubmit c sig) s := rfl

@[simp] theorem exec_debugChallengeExpiry (jtag : Bool) (s : State) :
    exec (.debugChallengeExpiry jtag) s =
      does (debugExpiry jtag) s := rfl

@[simp] theorem exec_admitCommand (s : State) :
    exec (.admitCommand) s =
      does (fun d => jFlushIfNeeded (admitHeads d)) s := rfl

@[simp] theorem exec_holdLongExpiry (k : Nat) (s : State) :
    exec (.holdLongExpiry k) s =
      does (holdLong k) s := rfl

@[simp] theorem exec_readDispatch (die : Nat) (s : State) :
    exec (.readDispatch die) s =
      onUnit (fun d => dieOk d die) (settled (readDispatch die)) s := rfl

@[simp] theorem exec_busyStatusReturn (die : Nat) (s : State) :
    exec (.busyStatusReturn die) s =
      onUnit (fun d => dieOk d die) (settled (busyReturn die)) s := rfl

@[simp] theorem exec_pwaitGuardExpiry (die : Nat) (s : State) :
    exec (.pwaitGuardExpiry die) s =
      onUnit (fun d => dieOk d die) (pwaitExpiry die) s := rfl

@[simp] theorem exec_suspendTakesEffect (die : Nat) (complete pass verified : Bool) (s : State) :
    exec (.suspendTakesEffect die complete pass verified) s =
      onUnit (fun d => dieOk d die) (settled (suspendTakes die complete pass verified)) s := rfl

@[simp] theorem exec_suspendHoldExpiry (die : Nat) (s : State) :
    exec (.suspendHoldExpiry die) s =
      onUnit (fun d => dieOk d die) (settled (holdExpiry die)) s := rfl

@[simp] theorem exec_hostTransferDone (tag : Nat) (s : State) :
    exec (.hostTransferDone tag) s =
      does (hostTransfer tag) s := rfl

@[simp] theorem exec_writeDataStaged (tag : Nat) (s : State) :
    exec (.writeDataStaged tag) s =
      does (writeStaged tag) s := rfl

@[simp] theorem exec_operationStart (die : Nat) (s : State) :
    exec (.operationStart die) s =
      onUnit (fun d => dieOk d die) (settled (opStart die)) s := rfl

@[simp] theorem exec_fchProfileWindowWrite (m n i : Nat) (v : Word) (s : State) :
    exec (.fchProfileWindowWrite m n i v) s =
      onUnit (fun _ => masterOk m && decide (n < 48) && decide (i < 1024)) (regWrite m (R.FCH_PROF n i) v) s := rfl

@[simp] theorem exec_fchEnWrite (m n : Nat) (v : Word) (s : State) :
    exec (.fchEnWrite m n v) s =
      onUnit (fun _ => masterOk m && decide (n < 48)) (regWrite m (R.FCH_CTRL n) (v ||| 1#32)) s := rfl

@[simp] theorem exec_fchRetrainWrite (m n : Nat) (v : Word) (s : State) :
    exec (.fchRetrainWrite m n v) s =
      onUnit (fun _ => masterOk m && decide (n < 48)) (regWrite m (R.FCH_CTRL n) (v ||| 4#32)) s := rfl

@[simp] theorem exec_fchDriveWrite (m n : Nat) (v : Word) (s : State) :
    exec (.fchDriveWrite m n v) s =
      onUnit (fun _ => masterOk m && decide (n < 48)) (regWrite m (R.FCH_DRIVE n) v) s := rfl

@[simp] theorem exec_statusPoll (die plane : Nat) (ready pass idOk : Bool) (trainOk : BitVec 4) (verified : Bool) (s : State) :
    exec (.statusPoll die plane ready pass idOk trainOk verified) s =
      onUnit (fun d => dieOk d die) (fun d => if ready then lunReadyAll die plane pass idOk trainOk verified d else pollBusy die d) s := rfl

@[simp] theorem exec_lunReady (die plane : Nat) (pass idOk : Bool) (trainOk : BitVec 4) (verified : Bool) (s : State) :
    exec (.lunReady die plane pass idOk trainOk verified) s =
      onUnit (fun d => dieOk d die) (lunReadyAll die plane pass idOk trainOk verified) s := rfl

@[simp] theorem exec_dieTimeout (lun : LateLun) (s : State) :
    exec (.dieTimeout lun) s =
      onUnit (fun d => dieOk d lun.die) (settled (fun d => zonesStuck (dieTimeoutAll lun.die lun.trainOk d))) s := rfl

@[simp] theorem exec_zqCalShortTimer (n : Nat) (s : State) :
    exec (.zqCalShortTimer n) s =
      onUnit (fun d => chanOk d n) (zqTimer n) s := rfl

@[simp] theorem exec_retrainPeriodExpiry (n : Nat) (s : State) :
    exec (.retrainPeriodExpiry n) s =
      onUnit (fun d => chanOk d n) (retrainPeriod n) s := rfl

@[simp] theorem exec_tokenRequest (die : Nat) (s : State) :
    exec (.tokenRequest die) s =
      onUnit (fun d => dieOk d die) (tokenRequest die) s := rfl

@[simp] theorem exec_tokenGrant (s : State) :
    exec (.tokenGrant) s =
      does tokenGrant s := rfl

@[simp] theorem exec_paceLimitWrite (m : Nat) (v : Word) (s : State) :
    exec (.paceLimitWrite m v) s =
      onUnit (fun _ => masterOk m) (regWrite m R.FCH_PACE_LIMIT v) s := rfl

@[simp] theorem exec_bringupStart (m : Nat) (v : Word) (s : State) :
    exec (.bringupStart m v) s =
      onUnit (fun _ => masterOk m) (regWrite m R.FCH_PACE_BRINGUP (v ||| 0x80000000#32)) s := rfl

@[simp] theorem exec_resetWaveStart (s : State) :
    exec (.resetWaveStart) s =
      does (settled waveStart) s := rfl

@[simp] theorem exec_thermalPauseEnd (n : Nat) (s : State) :
    exec (.thermalPauseEnd n) s =
      onUnit (fun d => chanOk d n) (pauseEnd n) s := rfl

@[simp] theorem exec_detContextGrant (s : State) :
    exec (.detContextGrant) s =
      does (settled ctxGrant) s := rfl

@[simp] theorem exec_detJobDone (n ctx : Nat) (obs : DetObs) (fix : Nat) (s : State) :
    exec (.detJobDone n ctx obs fix) s =
      onUnit (fun d => detOk d n && decide (ctx < 4)) (settled (detJobDone n ctx obs fix)) s := rfl

@[simp] theorem exec_detBinInvalWrite (m : Nat) (v : Word) (s : State) :
    exec (.detBinInvalWrite m v) s =
      onUnit (fun _ => masterOk m) (regWrite m R.DET_BIN_INVAL v) s := rfl

@[simp] theorem exec_detSelftest (m n : Nat) (v : Word) (s : State) :
    exec (.detSelftest m n v) s =
      onUnit (fun _ => masterOk m && decide (n < 24)) (regWrite m (R.DET_CTRL n) (v ||| 2#32)) s := rfl

@[simp] theorem exec_detSelftestDone (n : Nat) (pass : Bool) (s : State) :
    exec (.detSelftestDone n pass) s =
      onUnit (fun d => detOk d n) (selfTestDone n pass) s := rfl

@[simp] theorem exec_detEnWrite (m n : Nat) (v : Word) (s : State) :
    exec (.detEnWrite m n v) s =
      onUnit (fun _ => masterOk m && decide (n < 24)) (regWrite m (R.DET_CTRL n) v) s := rfl

@[simp] theorem exec_detProfWrite (m : Nat) (v : Word) (s : State) :
    exec (.detProfWrite m v) s =
      onUnit (fun _ => masterOk m) (regWrite m R.DET_PROF v) s := rfl

@[simp] theorem exec_decodeDone (run : Nat) (out : DecOut) (fix : Nat) (s : State) :
    exec (.decodeDone run out fix) s =
      does (settled (fun d => parkSweep (decodeDone run out fix d))) s := rfl

@[simp] theorem exec_unitRebuildCodeword (p : Nat) (ok : Bool) (s : State) :
    exec (.unitRebuildCodeword p ok) s =
      onUnit (fun d => packOk d p) (rebuildNext p ok) s := rfl

@[simp] theorem exec_xoruAccUe (s : State) :
    exec (.xoruAccUe) s =
      does accUe s := rfl

@[simp] theorem exec_zoneMoveSwitch (nsid z : Nat) (lost : List Nat) (s : State) :
    exec (.zoneMoveSwitch nsid z lost) s =
      does (fun d => jFlushIfNeeded (zoneMoveSwitch (zkey nsid z) lost d)) s := rfl

@[simp] theorem exec_segmentVerifyFail (seg : Nat) (s : State) :
    exec (.segmentVerifyFail seg) s =
      does (segVerifyFail seg) s := rfl

@[simp] theorem exec_segmentRebuildDone (seg : Nat) (s : State) :
    exec (.segmentRebuildDone seg) s =
      does (segRebuildDone seg) s := rfl

@[simp] theorem exec_mapuEnable (m : Nat) (v : Word) (s : State) :
    exec (.mapuEnable m v) s =
      onUnit (fun _ => masterOk m) (regWrite m R.MAPU_CTRL (v ||| 1#32)) s := rfl

@[simp] theorem exec_mapuRekey (m : Nat) (v : Word) (s : State) :
    exec (.mapuRekey m v) s =
      onUnit (fun _ => masterOk m) (regWrite m R.MAPU_CTRL (v ||| 2#32)) s := rfl

@[simp] theorem exec_rekeySweepEnd (s : State) :
    exec (.rekeySweepEnd) s =
      does rekeyEnd s := rfl

@[simp] theorem exec_mapuJflushWrite (m : Nat) (v : Word) (s : State) :
    exec (.mapuJflushWrite m v) s =
      onUnit (fun _ => masterOk m) (regWrite m R.MAPU_CTRL (v ||| 4#32)) s := rfl

@[simp] theorem exec_journalFlushInterval (s : State) :
    exec (.journalFlushInterval) s =
      does jTimed s := rfl

@[simp] theorem exec_journalFlushComplete (s : State) :
    exec (.journalFlushComplete) s =
      does jComplete s := rfl

@[simp] theorem exec_gcMoveSwitch (nsid lba : Nat) (lost : Bool) (s : State) :
    exec (.gcMoveSwitch nsid lba lost) s =
      does (fun d => jFlushIfNeeded (gcSwitch nsid lba lost d)) s := rfl

@[simp] theorem exec_mapRecovery (s : State) :
    exec (.mapRecovery) s =
      does mapRecovery s := rfl

@[simp] theorem exec_mediaTimeTick (s : State) :
    exec (.mediaTimeTick) s =
      does mediaTick s := rfl

@[simp] theorem exec_mediaTimeSave (s : State) :
    exec (.mediaTimeSave) s =
      does mediaSave s := rfl

@[simp] theorem exec_timestampWaitExpiry (s : State) :
    exec (.timestampWaitExpiry) s =
      does timestampWait s := rfl

@[simp] theorem exec_outageSweepStart (m : Nat) (v : Word) (s : State) :
    exec (.outageSweepStart m v) s =
      onUnit (fun _ => masterOk m) (regWrite m R.AFFINEUR_CTRL (v ||| 2#32)) s := rfl

@[simp] theorem exec_cadenceSample (points spacing : Nat) (s : State) :
    exec (.cadenceSample points spacing) s =
      does (cadenceSample points spacing) s := rfl

@[simp] theorem exec_reportEstimate (points spacing : Nat) (s : State) :
    exec (.reportEstimate points spacing) s =
      does (reportEstimate points spacing) s := rfl

@[simp] theorem exec_binLearnTimeout (i : Nat) (s : State) :
    exec (.binLearnTimeout i) s =
      onUnit (fun _ => decide (i < 256)) (binTimeout i) s := rfl

@[simp] theorem exec_learnedTableWriteback (s : State) :
    exec (.learnedTableWriteback) s =
      does (learnedWrite false) s := rfl

@[simp] theorem exec_refreshStart (s : State) :
    exec (.refreshStart) s =
      does refreshStart s := rfl

@[simp] theorem exec_backlogMidnight (s : State) :
    exec (.backlogMidnight) s =
      does backlogMidnight s := rfl

@[simp] theorem exec_wearTableWrite (s : State) :
    exec (.wearTableWrite) s =
      does wearWrite s := rfl

@[simp] theorem exec_curdEnable (m : Nat) (s : State) :
    exec (.curdEnable m) s =
      onUnit (fun _ => masterOk m) (regWrite m R.CURD_CTRL (1#32)) s := rfl

@[simp] theorem exec_curdPoolInitEnd (s : State) :
    exec (.curdPoolInitEnd) s =
      does curdInited s := rfl

@[simp] theorem exec_curdGrant (m n : Nat) (nofall hard : Bool) (s : State) :
    exec (.curdGrant m n nofall hard) s =
      onUnit (fun _ => masterOk m) (curdAsk hard m (grantWord n nofall) 0) s := rfl

@[simp] theorem exec_curdShare (m g : Nat) (hard : Bool) (ptr : Nat) (s : State) :
    exec (.curdShare m g hard ptr) s =
      onUnit (fun _ => masterOk m) (curdAsk hard m (curdWord 2 g) ptr) s := rfl

@[simp] theorem exec_curdDrop (m : Nat) (hard : Bool) (ptr : Nat) (s : State) :
    exec (.curdDrop m hard ptr) s =
      onUnit (fun _ => masterOk m) (curdAsk hard m (curdWord 3 0) ptr) s := rfl

@[simp] theorem exec_curdFree (m : Nat) (hard : Bool) (ptr : Nat) (s : State) :
    exec (.curdFree m hard ptr) s =
      onUnit (fun _ => masterOk m) (curdAsk hard m (curdWord 4 0) ptr) s := rfl

@[simp] theorem exec_curdReleaseDone (ptr : Nat) (s : State) :
    exec (.curdReleaseDone ptr) s =
      does (curdReleased ptr) s := rfl

@[simp] theorem exec_curdEmptyRetry (s : State) :
    exec (.curdEmptyRetry) s =
      does curdRetry s := rfl

@[simp] theorem exec_curdFlushWrite (m : Nat) (v : Word) (s : State) :
    exec (.curdFlushWrite m v) s =
      onUnit (fun _ => masterOk m) (regWrite m R.CURD_FLUSH v) s := rfl

@[simp] theorem exec_dramcEnable (m : Nat) (v : Word) (s : State) :
    exec (.dramcEnable m v) s =
      onUnit (fun _ => masterOk m) (regWrite m R.DRAMC_CTRL (v ||| 1#32)) s := rfl

@[simp] theorem exec_dramcInit (m : Nat) (v : Word) (s : State) :
    exec (.dramcInit m v) s =
      onUnit (fun _ => masterOk m) (regWrite m R.DRAMC_CTRL (v ||| 2#32)) s := rfl

@[simp] theorem exec_dramcInitDone (s : State) :
    exec (.dramcInitDone) s =
      does dramcInitDone s := rfl

@[simp] theorem exec_dramTrainFail (k : Nat) (s : State) :
    exec (.dramTrainFail k) s =
      onUnit (fun _ => decide (k < 4)) (dramTrainFail k) s := rfl

@[simp] theorem exec_memchkScrubGo (m : Nat) (s : State) :
    exec (.memchkScrubGo m) s =
      onUnit (fun _ => masterOk m) (regWrite m R.MEMCHK_SCRUB_CTRL (1#32)) s := rfl

@[simp] theorem exec_memchkScrubAbort (m : Nat) (s : State) :
    exec (.memchkScrubAbort m) s =
      onUnit (fun _ => masterOk m) (regWrite m R.MEMCHK_SCRUB_CTRL (2#32)) s := rfl

@[simp] theorem exec_memchkScrubDone (s : State) :
    exec (.memchkScrubDone) s =
      does scrubDone s := rfl

@[simp] theorem exec_memchkTestWrite (m : Nat) (s : State) :
    exec (.memchkTestWrite m) s =
      onUnit (fun _ => masterOk m) (regWrite m R.MEMCHK_TCTRL (1#32)) s := rfl

@[simp] theorem exec_memchkTestRead (m : Nat) (s : State) :
    exec (.memchkTestRead m) s =
      onUnit (fun _ => masterOk m) (regWrite m R.MEMCHK_TCTRL (2#32)) s := rfl

@[simp] theorem exec_kvGenerate (m : Nat) (v : Word) (s : State) :
    exec (.kvGenerate m v) s =
      onUnit (fun _ => masterOk m) (regWrite m R.KV_CMD (putFld v 28 4 1)) s := rfl

@[simp] theorem exec_kvWrap (m : Nat) (v : Word) (s : State) :
    exec (.kvWrap m v) s =
      onUnit (fun _ => masterOk m) (regWrite m R.KV_CMD (putFld v 28 4 2)) s := rfl

@[simp] theorem exec_kvUnwrap (m : Nat) (v : Word) (s : State) :
    exec (.kvUnwrap m v) s =
      onUnit (fun _ => masterOk m) (regWrite m R.KV_CMD (putFld v 28 4 3)) s := rfl

@[simp] theorem exec_kvClear (m : Nat) (v : Word) (s : State) :
    exec (.kvClear m v) s =
      onUnit (fun _ => masterOk m) (regWrite m R.KV_CMD (putFld v 28 4 4)) s := rfl

@[simp] theorem exec_kvBind (m : Nat) (v : Word) (s : State) :
    exec (.kvBind m v) s =
      onUnit (fun _ => masterOk m) (regWrite m R.KV_CMD (putFld v 28 4 5)) s := rfl

@[simp] theorem exec_kvEraseAll (m : Nat) (v : Word) (s : State) :
    exec (.kvEraseAll m v) s =
      onUnit (fun _ => masterOk m) (regWrite m R.KV_CMD (putFld v 28 4 6)) s := rfl

@[simp] theorem exec_keyAreaErase (s : State) :
    exec (.keyAreaErase) s =
      does erasureEnd s := rfl

@[simp] theorem exec_nsKeyRestore (s : State) :
    exec (.nsKeyRestore) s =
      does nsKeysRestore s := rfl

@[simp] theorem exec_cipherHostJob (tag : Nat) (s : State) :
    exec (.cipherHostJob tag) s =
      does (hostCipher tag) s := rfl

@[simp] theorem exec_cipherXtsEncrypt (m k slot : Nat) (s : State) :
    exec (.cipherXtsEncrypt m k slot) s =
      onUnit (fun _ => masterOk m && decide (k < 4)) (cipherAsk m k 1 slot) s := rfl

@[simp] theorem exec_cipherXtsDecrypt (m k slot : Nat) (s : State) :
    exec (.cipherXtsDecrypt m k slot) s =
      onUnit (fun _ => masterOk m && decide (k < 4)) (cipherAsk m k 2 slot) s := rfl

@[simp] theorem exec_cipherGcmEncrypt (m k slot : Nat) (s : State) :
    exec (.cipherGcmEncrypt m k slot) s =
      onUnit (fun _ => masterOk m && decide (k < 4)) (cipherAsk m k 3 slot) s := rfl

@[simp] theorem exec_cipherGcmDecrypt (m k slot : Nat) (s : State) :
    exec (.cipherGcmDecrypt m k slot) s =
      onUnit (fun _ => masterOk m && decide (k < 4)) (cipherAsk m k 4 slot) s := rfl

@[simp] theorem exec_cipherJobDone (k : Nat) (s : State) :
    exec (.cipherJobDone k) s =
      onUnit (fun d => cipherOk d k) (jobDone k) s := rfl

@[simp] theorem exec_maskReseed (k : Nat) (s : State) :
    exec (.maskReseed k) s =
      onUnit (fun d => cipherOk d k) (maskReseed k) s := rfl

@[simp] theorem exec_drbgReseed (healthy : Bool) (s : State) :
    exec (.drbgReseed healthy) s =
      does (drbgDue healthy) s := rfl

@[simp] theorem exec_entropyHealthFail (kind : Nat) (s : State) :
    exec (.entropyHealthFail kind) s =
      onUnit (fun _ => decide (kind < 2)) (entropyFail kind) s := rfl

@[simp] theorem exec_sigvVerify (m : Nat) (v : Word) (s : State) :
    exec (.sigvVerify m v) s =
      onUnit (fun _ => masterOk m) (regWrite m R.SIGV_CTRL (v ||| 1#32)) s := rfl

@[simp] theorem exec_sigvVerifyDone (s : State) :
    exec (.sigvVerifyDone) s =
      does verifyDone s := rfl

@[simp] theorem exec_sigvHash (m : Nat) (v : Word) (s : State) :
    exec (.sigvHash m v) s =
      onUnit (fun _ => masterOk m) (regWrite m R.SIGV_CTRL (v ||| 2#32)) s := rfl

@[simp] theorem exec_sigvHashDone (s : State) :
    exec (.sigvHashDone) s =
      does sigvHashDone s := rfl

@[simp] theorem exec_sigvRngDataRead (m : Nat) (s : State) :
    exec (.sigvRngDataRead m) s =
      onUnit (fun _ => masterOk m) (regRead m R.SIGV_RNG_DATA) s := rfl

@[simp] theorem exec_collarEnforceSet (m : Nat) (s : State) :
    exec (.collarEnforceSet m) s =
      onUnit (fun _ => masterOk m) (regWrite m R.COLLAR_CTRL (1#32)) s := rfl

@[simp] theorem exec_collarLockSet (m : Nat) (s : State) :
    exec (.collarLockSet m) s =
      onUnit (fun _ => masterOk m) (regWrite m R.COLLAR_CTRL (2#32)) s := rfl

@[simp] theorem exec_alarm (src m : Nat) (s : State) :
    exec (.alarm src m) s =
      onUnit (fun _ => decide (src < 5) && decide (m < 128)) (alarm src m) s := rfl

@[simp] theorem exec_getVersion (via : Via) (s : State) :
    exec (.getVersion via) s =
      does (spdmGetVersion via) s := rfl

@[simp] theorem exec_getCapabilities (via : Via) (version : Nat) (s : State) :
    exec (.getCapabilities via version) s =
      does (spdmGetCapabilities via version) s := rfl

@[simp] theorem exec_negotiateAlgorithms (via : Via) (p384 sha384 : Bool) (s : State) :
    exec (.negotiateAlgorithms via p384 sha384) s =
      does (spdmNegotiate via p384 sha384) s := rfl

@[simp] theorem exec_getDigests (via : Via) (s : State) :
    exec (.getDigests via) s =
      does (spdmGetDigests via) s := rfl

@[simp] theorem exec_getCertificate (via : Via) (slot off len : Nat) (s : State) :
    exec (.getCertificate via slot off len) s =
      does (spdmGetCertificate via slot off len) s := rfl

@[simp] theorem exec_challenge (via : Via) (slot : Nat) (nonce : List Byte) (s : State) :
    exec (.challenge via slot nonce) s =
      does (spdmChallenge via slot nonce) s := rfl

@[simp] theorem exec_getMeasurements (via : Via) (i : Nat) (signed : Bool) (nonce : List Byte) (s : State) :
    exec (.getMeasurements via i signed nonce) s =
      does (spdmGetMeasurements via i signed nonce) s := rfl

@[simp] theorem exec_filteredLevelChange (i : Nat) (level : Bool) (s : State) :
    exec (.filteredLevelChange i level) s =
      onUnit (fun _ => decide (i < 16)) (filterChange i level) s := rfl

@[simp] theorem exec_pendingSetAlias (m j : Nat) (v : Word) (s : State) :
    exec (.pendingSetAlias m j v) s =
      onUnit (fun _ => masterOk m && decide (j < 32)) (regWrite m (R.WH_PEND_SET j) v) s := rfl

@[simp] theorem exec_pendingClearAlias (m j : Nat) (v : Word) (s : State) :
    exec (.pendingClearAlias m j v) s =
      onUnit (fun _ => masterOk m && decide (j < 32)) (regWrite m (R.WH_PEND_CLR j) v) s := rfl

@[simp] theorem exec_maskWrite (m j kind : Nat) (v : Word) (s : State) :
    exec (.maskWrite m j kind v) s =
      onUnit (fun _ => masterOk m && decide (j < 32) && decide (kind < 3)) (regWrite m (maskAddr kind j) v) s := rfl

@[simp] theorem exec_whClaim (m x : Nat) (old : Bool) (s : State) :
    exec (.whClaim m x old) s =
      onUnit (fun _ => masterOk m && decide (x < 32)) (claimRead m x old) s := rfl

@[simp] theorem exec_whRouteWrite (m src : Nat) (v : Word) (s : State) :
    exec (.whRouteWrite m src v) s =
      onUnit (fun _ => masterOk m && decide (src < 1024)) (regWrite m (R.WH_ROUTE src) v) s := rfl

@[simp] theorem exec_whThreshWrite (m x : Nat) (v : Word) (s : State) :
    exec (.whThreshWrite m x v) s =
      onUnit (fun _ => masterOk m && decide (x < 32)) (regWrite m (R.WH_THRESH x) v) s := rfl

@[simp] theorem exec_whXcfgWrite (m i : Nat) (v : Word) (s : State) :
    exec (.whXcfgWrite m i v) s =
      onUnit (fun _ => masterOk m && decide (i < 16)) (regWrite m (R.WH_XCFG i) v) s := rfl

@[simp] theorem exec_whMtimecmpLoWrite (m h : Nat) (v : Word) (s : State) :
    exec (.whMtimecmpLoWrite m h v) s =
      onUnit (fun _ => masterOk m && decide (h < 16)) (regWrite m (R.WH_MTIMECMP_LO h) v) s := rfl

@[simp] theorem exec_whMtimecmpHiWrite (m h : Nat) (v : Word) (s : State) :
    exec (.whMtimecmpHiWrite m h v) s =
      onUnit (fun _ => masterOk m && decide (h < 16)) (regWrite m (R.WH_MTIMECMP_HI h) v) s := rfl

@[simp] theorem exec_timerCompareReached (h : Nat) (s : State) :
    exec (.timerCompareReached h) s =
      onUnit (fun _ => decide (h < 16)) (timerReached h) s := rfl

@[simp] theorem exec_whMsipWrite (m h : Nat) (v : Word) (s : State) :
    exec (.whMsipWrite m h v) s =
      onUnit (fun _ => masterOk m && decide (h < 16)) (regWrite m (R.WH_MSIP h) v) s := rfl

@[simp] theorem exec_whistleWake (k : Nat) (s : State) :
    exec (.whistleWake k) s =
      onUnit (fun _ => decide (k < 4)) (whistleWake k) s := rfl

@[simp] theorem exec_rindProgram (m : Nat) (s : State) :
    exec (.rindProgram m) s =
      onUnit (fun _ => masterOk m) (regWrite m R.RIND_CMD (BitVec.ofNat 32 (1 * 268435456))) s := rfl

@[simp] theorem exec_rindErase (m : Nat) (s : State) :
    exec (.rindErase m) s =
      onUnit (fun _ => masterOk m) (regWrite m R.RIND_CMD (BitVec.ofNat 32 (2 * 268435456))) s := rfl

@[simp] theorem exec_rindLock (m : Nat) (s : State) :
    exec (.rindLock m) s =
      onUnit (fun _ => masterOk m) (regWrite m R.RIND_CMD (BitVec.ofNat 32 (3 * 268435456))) s := rfl

@[simp] theorem exec_rindUnlock (m : Nat) (s : State) :
    exec (.rindUnlock m) s =
      onUnit (fun _ => masterOk m) (regWrite m R.RIND_CMD (BitVec.ofNat 32 (4 * 268435456))) s := rfl

@[simp] theorem exec_rindSetPw (m : Nat) (s : State) :
    exec (.rindSetPw m) s =
      onUnit (fun _ => masterOk m) (regWrite m R.RIND_CMD (BitVec.ofNat 32 (5 * 268435456))) s := rfl

@[simp] theorem exec_rindAbort (m : Nat) (s : State) :
    exec (.rindAbort m) s =
      onUnit (fun _ => masterOk m) (regWrite m R.RIND_CMD (BitVec.ofNat 32 (6 * 268435456))) s := rfl

@[simp] theorem exec_rindOpDone (s : State) :
    exec (.rindOpDone) s =
      does rindOpDone s := rfl

@[simp] theorem exec_rindWindowRead (m off size : Nat) (s : State) :
    exec (.rindWindowRead m off size) s =
      onUnit (fun _ => masterOk m && decide (off < 0x1000000)) (access (readReq m (0x30000000 + off) size false)) s := rfl

@[simp] theorem exec_romStart (s : State) :
    exec (.romStart) s =
      does romStart s := rfl

@[simp] theorem exec_bootAttempt (s : State) :
    exec (.bootAttempt) s =
      does bootAttempt s := rfl

@[simp] theorem exec_bootBackoffExpiry (s : State) :
    exec (.bootBackoffExpiry) s =
      does backoffEnd s := rfl

@[simp] theorem exec_bootWatchdogExpiry (s : State) :
    exec (.bootWatchdogExpiry) s =
      does watchdogExpiry s := rfl

@[simp] theorem exec_bootWatchdogStop (m : Nat) (s : State) :
    exec (.bootWatchdogStop m) s =
      onUnit (fun _ => masterOk m) (regWrite m R.RIND_BOOTWDT (0x80000000#32)) s := rfl

@[simp] theorem exec_rollbackRequest (m : Nat) (v : Word) (s : State) :
    exec (.rollbackRequest m v) s =
      onUnit (fun _ => masterOk m) (regWrite m R.RIND_BOOTCTL (v ||| 1#32)) s := rfl

@[simp] theorem exec_fwStateWrite (m : Nat) (v : Word) (s : State) :
    exec (.fwStateWrite m v) s =
      onUnit (fun _ => masterOk m) (regWrite m R.RIND_BOOTCTL v) s := rfl

@[simp] theorem exec_trialCommit (s : State) :
    exec (.trialCommit) s =
      does trialCommit s := rfl

@[simp] theorem exec_settingsJournalCompaction (s : State) :
    exec (.settingsJournalCompaction) s =
      does sjCompact s := rfl

@[simp] theorem exec_domainRetTimer (n : Nat) (s : State) :
    exec (.domainRetTimer n) s =
      onUnit (fun d => domPresent d.fuse n) (fun d => detMoved n d (retTimer n d)) s := rfl

@[simp] theorem exec_domainOffTimer (n : Nat) (s : State) :
    exec (.domainOffTimer n) s =
      onUnit (fun d => domPresent d.fuse n) (offTimer n) s := rfl

@[simp] theorem exec_domainDrainEnd (n : Nat) (busy : Bool) (s : State) :
    exec (.domainDrainEnd n busy) s =
      onUnit (fun d => domPresent d.fuse n) (fun d => detMoved n d (drainEnd n busy d)) s := rfl

@[simp] theorem exec_domainModeWrite (m n : Nat) (v : Word) (s : State) :
    exec (.domainModeWrite m n v) s =
      onUnit (fun _ => masterOk m && decide (n < 96)) (regWrite m (R.PWR_DCTRL n) v) s := rfl

@[simp] theorem exec_domainWakeRequest (n m a size : Nat) (write : Bool) (flit : Flit) (s : State) :
    exec (.domainWakeRequest n m a size write flit) s =
      onUnit (fun d => masterOk m && domPresent d.fuse n) (closedRequest n (fabReq m a size write flit.data flit.chk)) s := rfl

@[simp] theorem exec_domainOnReached (n : Nat) (s : State) :
    exec (.domainOnReached n) s =
      onUnit (fun d => domPresent d.fuse n) (domainOn n) s := rfl

@[simp] theorem exec_domainWakeFail (n : Nat) (s : State) :
    exec (.domainWakeFail n) s =
      onUnit (fun d => domPresent d.fuse n) (wakeFail n) s := rfl

@[simp] theorem exec_holdupEnable (m : Nat) (v : Word) (s : State) :
    exec (.holdupEnable m v) s =
      onUnit (fun _ => masterOk m) (regWrite m R.HOLDUP_CTRL (v ||| 1#32)) s := rfl

@[simp] theorem exec_bankAtVtop (s : State) :
    exec (.bankAtVtop) s =
      does bankTop s := rfl

@[simp] theorem exec_bankRecharge (v : Nat) (s : State) :
    exec (.bankRecharge v) s =
      does (bankRecharge v) s := rfl

@[simp] theorem exec_headroomDetect (ma : Nat) (s : State) :
    exec (.headroomDetect ma) s =
      does (headroomDetect ma) s := rfl

@[simp] theorem exec_headroomRetry (ma : Nat) (s : State) :
    exec (.headroomRetry ma) s =
      does (headroomRetry ma) s := rfl

@[simp] theorem exec_holdupMeasureStart (m : Nat) (write : Bool) (v : Word) (s : State) :
    exec (.holdupMeasureStart m write v) s =
      onUnit (fun _ => masterOk m) (fun d => if write then regWrite m R.HOLDUP_CTRL (v ||| 2#32) d else measTimer d) s := rfl

@[simp] theorem exec_measSagEnd (v : Nat) (s : State) :
    exec (.measSagEnd v) s =
      does (measSagEnd v) s := rfl

@[simp] theorem exec_measRechargeDone (t : Nat) (s : State) :
    exec (.measRechargeDone t) s =
      does (measDone t) s := rfl

@[simp] theorem exec_measTimeout (s : State) :
    exec (.measTimeout) s =
      does measTimeout s := rfl

@[simp] theorem exec_slowRound (vals : List Int) (s : State) :
    exec (.slowRound vals) s =
      does (slowRound vals) s := rfl

@[simp] theorem exec_powerFailFlush (s : State) :
    exec (.powerFailFlush) s =
      does flushStart s := rfl

@[simp] theorem exec_flushLunResetsDone (s : State) :
    exec (.flushLunResetsDone) s =
      does flushResetsDone s := rfl

@[simp] theorem exec_flushEndWrite (m : Nat) (v : Word) (s : State) :
    exec (.flushEndWrite m v) s =
      onUnit (fun _ => masterOk m) (regWrite m R.HOLDUP_CTRL (v ||| 4#32)) s := rfl

@[simp] theorem exec_flushDeadlineExpiry (s : State) :
    exec (.flushDeadlineExpiry) s =
      does flushDeadline s := rfl

@[simp] theorem exec_supplyBack (s : State) :
    exec (.supplyBack) s =
      does supplyBackNow s := rfl

@[simp] theorem exec_coldRestart (s : State) :
    exec (.coldRestart) s =
      does coldRestart s := rfl

@[simp] theorem exec_thermalSensorConversion (vals : List Int) (s : State) :
    exec (.thermalSensorConversion vals) s =
      does (sensorConvert vals) s := rfl

@[simp] theorem exec_shutdownHoldEnd (s : State) :
    exec (.shutdownHoldEnd) s =
      does holdEnd s := rfl

@[simp] theorem exec_thermEnable (m : Nat) (v : Word) (s : State) :
    exec (.thermEnable m v) s =
      onUnit (fun _ => masterOk m) (regWrite m R.THERM_CTRL (v ||| 1#32)) s := rfl

@[simp] theorem exec_eventPost (source code sev : Nat) (cont : Bool) (a0 a1 a2 : Word) (s : State) :
    exec (.eventPost source code sev cont a0 a1 a2) s =
      does (eventPost source code sev cont a0 a1 a2) s := rfl

@[simp] theorem exec_evrecFlushWrite (m : Nat) (v : Word) (s : State) :
    exec (.evrecFlushWrite m v) s =
      onUnit (fun _ => masterOk m) (regWrite m R.EVREC_CTRL (v ||| 2#32)) s := rfl

@[simp] theorem exec_evrecClearWrite (m : Nat) (v : Word) (s : State) :
    exec (.evrecClearWrite m v) s =
      onUnit (fun _ => masterOk m) (regWrite m R.EVREC_CTRL (v ||| 4#32)) s := rfl

@[simp] theorem exec_evrecRlWrite (m : Nat) (v : Word) (s : State) :
    exec (.evrecRlWrite m v) s =
      onUnit (fun _ => masterOk m) (regWrite m R.EVREC_RL v) s := rfl

@[simp] theorem exec_evrecRegionScan (s : State) :
    exec (.evrecRegionScan) s =
      does regionScan s := rfl

@[simp] theorem exec_mgmtReady (s : State) :
    exec (.mgmtReady) s =
      does mgReady s := rfl

@[simp] theorem exec_setEndpointId (eid : Nat) (s : State) :
    exec (.setEndpointId eid) s =
      does (setEid eid) s := rfl

@[simp] theorem exec_getEndpointId (s : State) :
    exec (.getEndpointId) s =
      does getEid s := rfl

@[simp] theorem exec_getMctpVersionSupport (s : State) :
    exec (.getMctpVersionSupport) s =
      does getMctpVersion s := rfl

@[simp] theorem exec_getMessageTypeSupport (s : State) :
    exec (.getMessageTypeSupport) s =
      does getMsgTypes s := rfl

@[simp] theorem exec_mctpMessageReceived (type src tag : Nat) (bytes : List Byte) (s : State) :
    exec (.mctpMessageReceived type src tag bytes) s =
      does (mctpReceived type src tag bytes) s := rfl

@[simp] theorem exec_readNvmeMiDataStructure (type arg : Nat) (s : State) :
    exec (.readNvmeMiDataStructure type arg) s =
      does (miDataStructure type arg) s := rfl

@[simp] theorem exec_subsystemHealthStatusPoll (s : State) :
    exec (.subsystemHealthStatusPoll) s =
      does miSubsystemHealth s := rfl

@[simp] theorem exec_controllerHealthStatusPoll (id : Nat) (s : State) :
    exec (.controllerHealthStatusPoll id) s =
      does (miControllerHealth id) s := rfl

@[simp] theorem exec_configurationGet (id : Nat) (s : State) :
    exec (.configurationGet id) s =
      does (miConfigGet id) s := rfl

@[simp] theorem exec_configurationSet (id v : Nat) (s : State) :
    exec (.configurationSet id v) s =
      does (miConfigSet id v) s := rfl

@[simp] theorem exec_vpdRead (off len : Nat) (s : State) :
    exec (.vpdRead off len) s =
      does (miVpdRead off len) s := rfl

@[simp] theorem exec_vpdWrite (off : Nat) (bs : List Byte) (s : State) :
    exec (.vpdWrite off bs) s =
      does (miVpdWrite off bs) s := rfl

@[simp] theorem exec_mgmtRxRelease (m : Nat) (s : State) :
    exec (.mgmtRxRelease m) s =
      onUnit (fun _ => masterOk m) (regWrite m R.MGMT_RXCTL (0x40000000#32)) s := rfl

@[simp] theorem exec_mgmtTxGo (m : Nat) (v : Word) (s : State) :
    exec (.mgmtTxGo m v) s =
      onUnit (fun _ => masterOk m) (regWrite m R.MGMT_TXCTL (v ||| 0x80000000#32)) s := rfl

@[simp] theorem exec_mgmtTxDone (s : State) :
    exec (.mgmtTxDone) s =
      does txDone s := rfl

@[simp] theorem exec_mgmtAlertSet (m : Nat) (v : Word) (s : State) :
    exec (.mgmtAlertSet m v) s =
      onUnit (fun _ => masterOk m) (regWrite m R.MGMT_CTRL (v ||| 4#32)) s := rfl

@[simp] theorem exec_alertResponseRead (s : State) :
    exec (.alertResponseRead) s =
      does alertRead s := rfl

@[simp] theorem exec_i3cAddressAssign (addr : Nat) (s : State) :
    exec (.i3cAddressAssign addr) s =
      does (i3cAssign addr) s := rfl

@[simp] theorem exec_i3cRstdaa (s : State) :
    exec (.i3cRstdaa) s =
      does toSmbus s := rfl

@[simp] theorem exec_jtagExtest (levels cells : List (Nat × Bool)) (s : State) :
    exec (.jtagExtest levels cells) s =
      does (jtagExtest levels cells) s := rfl

@[simp] theorem exec_jtagIdcode (s : State) :
    exec (.jtagIdcode) s =
      does jtagIdcode s := rfl

@[simp] theorem exec_jtagSamplePreload (levels cells : List (Nat × Bool)) (s : State) :
    exec (.jtagSamplePreload levels cells) s =
      does (jtagSample levels cells) s := rfl

@[simp] theorem exec_jtagClamp (s : State) :
    exec (.jtagClamp) s =
      does jtagClamp s := rfl

@[simp] theorem exec_jtagHighz (s : State) :
    exec (.jtagHighz) s =
      does jtagHighz s := rfl

@[simp] theorem exec_jtagBypass (s : State) :
    exec (.jtagBypass) s =
      does jtagBypass s := rfl

@[simp] theorem exec_dbgChal (s : State) :
    exec (.dbgChal) s =
      does jtagChallenge s := rfl

@[simp] theorem exec_dbgResp (resp : BitVec 768) (s : State) :
    exec (.dbgResp resp) s =
      does (jtagResponse resp) s := rfl

@[simp] theorem exec_dbgStat (s : State) :
    exec (.dbgStat) s =
      does jtagStat s := rfl

@[simp] theorem exec_dmi (addr : Nat) (write : Bool) (v : Word) (s : State) :
    exec (.dmi addr write v) s =
      does (jtagDmi addr write v) s := rfl

@[simp] theorem exec_linkDown (p : Nat) (disabled : Bool) (s : State) :
    exec (.linkDown p disabled) s =
      onUnit (fun d => portPresent d p) (linkDown p disabled) s := rfl

@[simp] theorem exec_pcieErrorLogged (p : Nat) (uncor : Bool) (s : State) :
    exec (.pcieErrorLogged p uncor) s =
      onUnit (fun d => portPresent d p) (pcieError p uncor) s := rfl

@[simp] theorem exec_partnerWidthRequest (p w : Nat) (s : State) :
    exec (.partnerWidthRequest p w) s =
      onUnit (fun d => portPresent d p) (partnerWidth p w) s := rfl

@[simp] theorem exec_dramTrainingDone (k : Nat) (s : State) :
    exec (.dramTrainingDone k) s =
      onUnit (fun _ => decide (k < 4)) (dramTrained k) s := rfl

@[simp] theorem exec_domainOffReached (n : Nat) (s : State) :
    exec (.domainOffReached n) s =
      onUnit (fun d => domPresent d.fuse n) (offReached n) s := rfl

@[simp] theorem exec_asynchronousEventRequest (c : Src) (s : State) :
    exec (.asynchronousEventRequest c) s =
      does (aer c) s := rfl

@[simp] theorem exec_setFeaturesTemperatureThreshold (c : Src) (under : Bool) (sensor k : Nat) (save : Bool) (s : State) :
    exec (.setFeaturesTemperatureThreshold c under sensor k save) s =
      does (setTempThreshold c under sensor k save) s := rfl

@[simp] theorem exec_kekEstablishment (c : Src) (i : Nat) (msg : List Byte) (s : State) :
    exec (.kekEstablishment c i msg) s =
      does (kekEstablish c i msg) s := rfl

@[simp] theorem exec_mctpPacketError (s : State) :
    exec (.mctpPacketError) s =
      does packetError s := rfl

end Sys2Proof.Machine
end

