-- ==== Sys2Proof/Laws/Flags.lean ====
section
/-!
SUPPORT. What the bit and field operations over registers do to each bit, and the fields that they leave alone.
-/

namespace Sys2Proof.Machine

theorem bit_of_ge (w : Word) {i : Nat} (h : 32 ≤ i) : bit w i = false := BitVec.getLsbD_of_ge _ _ h

theorem bit_one_shl (i k : Nat) (h : k < 32) : bit (1#32 <<< k) i = decide (i = k) := by
  simp only [bit]
  by_cases hi : i < 32
  · simp [hi]
    by_cases e : i = k
    · subst e; simp
    · simp [e]; omega
  · simp [BitVec.getLsbD_of_ge _ _ (Nat.not_lt.mp hi)]; omega

theorem bit_or (v w : Word) (i : Nat) : bit (v ||| w) i = (bit v i || bit w i) := by simp [bit]

theorem bit_and (v w : Word) (i : Nat) : bit (v &&& w) i = (bit v i && bit w i) := by simp [bit]

theorem bit_not (v : Word) (i : Nat) : bit (~~~v) i = (decide (i < 32) && !bit v i) := by simp [bit]

/-- Each bit after one bit is set. -/
theorem bit_setBit (w : Word) (i k : Nat) (h : k < 32) : bit (setBit w k) i = (bit w i || decide (i = k)) := by
  rw [setBit, bit_or, bit_one_shl _ _ h]

/-- Each bit after one bit is cleared. -/
theorem bit_clrBit (w : Word) (i k : Nat) (h : k < 32) : bit (clrBit w k) i = (bit w i && decide (i ≠ k)) := by
  rw [clrBit, bit_and, bit_not, bit_one_shl _ _ h]
  by_cases hi : i < 32
  · simp [hi]
  · simp [bit_of_ge w (Nat.not_lt.mp hi)]

/-- Each bit after one bit is placed. -/
theorem bit_putBit (w : Word) (i k : Nat) (b : Bool) (h : k < 32) : bit (putBit w k b) i = if i = k then b else bit w i := by
  unfold putBit
  split
  · rename_i hb; rw [bit_setBit _ _ _ h]; by_cases e : i = k <;> simp [e, hb]
  · rename_i hb; rw [bit_clrBit _ _ _ h]; by_cases e : i = k <;> simp [e, hb]

theorem testBit_ones (n i : Nat) : Nat.testBit (2 ^ n - 1) i = decide (i < n) := Nat.testBit_two_pow_sub_one n i

/-- The bits of a field placed in a register. -/
theorem bit_putFld (w : Word) (lo n v i : Nat) (h : lo + n ≤ 32) :
    bit (putFld w lo n v) i = if lo ≤ i ∧ i < lo + n then Nat.testBit v (i - lo) else bit w i := by
  have hm : ∀ x : Nat, bit (BitVec.ofNat 32 x <<< lo) i = (decide (i < 32) && decide (lo ≤ i) && Nat.testBit x (i - lo)) := by
    intro x
    simp only [bit, BitVec.getLsbD_shiftLeft, BitVec.getLsbD_ofNat]
    by_cases h1 : i < 32 <;> by_cases h2 : lo ≤ i
    · have : ¬ i < lo := by omega
      have : i - lo < 32 := by omega
      simp [*]
    · have : i < lo := by omega
      simp [*]
    · simp [*]
    · simp [*]
  rw [putFld, bit_or, bit_and, bit_not, hm, hm, testBit_ones, Nat.testBit_mod_two_pow]
  by_cases h1 : lo ≤ i ∧ i < lo + n
  · have a : i < 32 := by omega
    have b : i - lo < n := by omega
    simp [h1, a, b]
  · rw [if_neg h1]
    by_cases a : i < 32
    · have : (decide (i < 32) && decide (lo ≤ i) && decide (i - lo < n)) = false := by
        by_cases b : lo ≤ i
        · have : ¬ i - lo < n := by omega
          simp [this]
        · simp [b]
      have t : (decide (i < 32) && decide (lo ≤ i) && (decide (i - lo < n) && v.testBit (i - lo))) = false := by
        by_cases b : lo ≤ i
        · have : ¬ i - lo < n := by omega
          simp [this]
        · simp [b]
      rw [this, t]; simp [a]
    · simp [a, bit_of_ge w (Nat.not_lt.mp a)]

/-- The bits of a number held in a field. -/
theorem testBit_fld (w : Word) (lo n i : Nat) : Nat.testBit (fld w lo n) i = (decide (i < n) && bit w (lo + i)) := by
  rw [fld, Nat.testBit_mod_two_pow]
  simp [bit, BitVec.toNat_ushiftRight, Nat.testBit_shiftRight, BitVec.testBit_toNat]

/-- Two registers alike in the bits of a field hold the same number there. -/
theorem fld_congr {v w : Word} {lo n : Nat} (h : ∀ i, lo ≤ i → i < lo + n → bit v i = bit w i) : fld v lo n = fld w lo n := by
  apply Nat.eq_of_testBit_eq
  intro i
  rw [testBit_fld, testBit_fld]
  by_cases hi : i < n
  · rw [h (lo + i) (by omega) (by omega)]
  · simp [hi]

/-- A field reads the number placed in it. -/
theorem fld_putFld_same (w : Word) (lo n v : Nat) (h : lo + n ≤ 32) (hv : v < 2 ^ n) : fld (putFld w lo n v) lo n = v := by
  apply Nat.eq_of_testBit_eq
  intro i
  rw [testBit_fld, bit_putFld _ _ _ _ _ h]
  by_cases hi : i < n
  · have : lo + i < lo + n := by omega
    simp [hi]
  · have : Nat.testBit v i = false :=
      Nat.testBit_lt_two_pow (Nat.lt_of_lt_of_le hv (Nat.pow_le_pow_right (by omega) (Nat.not_lt.mp hi)))
    simp [hi, this]

/-- A number placed in one field leaves another. -/
theorem fld_putFld_other (w : Word) (lo n v lo2 n2 : Nat) (h : lo + n ≤ 32) (hd : lo2 + n2 ≤ lo ∨ lo + n ≤ lo2) :
    fld (putFld w lo n v) lo2 n2 = fld w lo2 n2 := by
  apply fld_congr
  intro i h1 h2
  rw [bit_putFld _ _ _ _ _ h, if_neg (by omega)]

/-- A bit placed outside a field leaves it. -/
theorem fld_putBit_other (w : Word) (k : Nat) (b : Bool) (lo n : Nat) (h : k < 32) (hd : k < lo ∨ lo + n ≤ k) :
    fld (putBit w k b) lo n = fld w lo n := by
  apply fld_congr
  intro i h1 h2
  rw [bit_putBit _ _ _ _ h, if_neg (by omega)]

/-- A number placed in a field leaves every bit outside it. -/
theorem bit_putFld_other (w : Word) (lo n v i : Nat) (h : lo + n ≤ 32) (hd : i < lo ∨ lo + n ≤ i) : bit (putFld w lo n v) i = bit w i := by
  rw [bit_putFld _ _ _ _ _ h, if_neg (by omega)]

/-- Bits set outside a field leave it. -/
theorem fld_or_other (v w : Word) (lo n : Nat) (h : ∀ i, lo ≤ i → i < lo + n → bit w i = false) : fld (v ||| w) lo n = fld v lo n := by
  apply fld_congr
  intro i h1 h2
  rw [bit_or, h i h1 h2, Bool.or_false]

end Sys2Proof.Machine
end

