-- ==== Sys2Proof/Laws/Tables.lean ====
section
/-!
SUPPORT. Laws of the sparse tables and of the byte stores: reading after writing, and the canonical form that every operation keeps.
-/

namespace Sys2Proof.Machine

/-! Tables. -/

/-- A table rises when each key lies below every later one. -/
theorem tabRising_iff {α : Type} (t : List (Nat × α)) : tabRising t = true ↔ t.Pairwise (fun a b => a.1 < b.1) := by
  induction t with
  | nil => simp [tabRising]
  | cons p t ih =>
    cases t with
    | nil => simp [tabRising]
    | cons q t =>
      simp only [tabRising, Bool.and_eq_true, decide_eq_true_eq, ih, List.pairwise_cons, List.mem_cons, forall_eq_or_imp]
      constructor
      · rintro ⟨h, hq, ht⟩
        exact ⟨⟨h, fun a ha => Nat.lt_trans h (hq a ha)⟩, hq, ht⟩
      · rintro ⟨⟨h, _⟩, hq, ht⟩
        exact ⟨h, hq, ht⟩

/-- A key that a write adds is the written key or one the table had. -/
theorem mem_tabPut {α : Type} {t : List (Nat × α)} {k : Nat} {v : α} {p : Nat × α} (h : p ∈ tabPut t k v) :
    p = (k, v) ∨ (p ∈ t) := by
  induction t with
  | nil => simpa [tabPut] using h
  | cons q t ih =>
    obtain ⟨j, w⟩ := q
    simp only [tabPut] at h
    split at h
    · simpa using h
    · split at h
      · rcases List.mem_cons.1 h with h | h
        · exact .inl h
        · exact .inr (List.mem_cons_of_mem _ h)
      · rcases List.mem_cons.1 h with h | h
        · exact .inr (by simp [h])
        · rcases ih h with h | h
          · exact .inl h
          · exact .inr (List.mem_cons_of_mem _ h)

/-- An entry left by a deletion was there before. -/
theorem mem_tabDel {α : Type} {t : List (Nat × α)} {k : Nat} {p : Nat × α} (h : p ∈ tabDel t k) : p ∈ t := by
  induction t with
  | nil => simp [tabDel] at h
  | cons q t ih =>
    obtain ⟨j, w⟩ := q
    simp only [tabDel] at h
    split at h
    · exact List.mem_cons_of_mem _ h
    · rcases List.mem_cons.1 h with h | h
      · exact h ▸ List.mem_cons_self ..
      · exact List.mem_cons_of_mem _ (ih h)

/-- Writing keeps the keys rising. -/
theorem tabRising_tabPut {α : Type} {t : List (Nat × α)} {k : Nat} {v : α} (h : tabRising t = true) :
    tabRising (tabPut t k v) = true := by
  rw [tabRising_iff] at h ⊢
  induction t with
  | nil => simp [tabPut]
  | cons q t ih =>
    obtain ⟨j, w⟩ := q
    rw [List.pairwise_cons] at h
    simp only [tabPut]
    split
    · rename_i hk
      rw [List.pairwise_cons, List.pairwise_cons]
      refine ⟨fun a ha => ?_, h.1, h.2⟩
      rcases List.mem_cons.1 ha with ha | ha
      · simpa [ha] using hk
      · exact Nat.lt_trans hk (h.1 a ha)
    · split
      · rename_i hk
        exact List.pairwise_cons.2 ⟨fun a ha => by simpa [hk] using h.1 a ha, h.2⟩
      · rename_i hk hne
        refine List.pairwise_cons.2 ⟨fun a ha => ?_, ih h.2⟩
        rcases mem_tabPut ha with ha | ha
        · simp only [ha]; omega
        · exact h.1 a ha

/-- Deleting keeps the keys rising. -/
theorem tabRising_tabDel {α : Type} {t : List (Nat × α)} {k : Nat} (h : tabRising t = true) : tabRising (tabDel t k) = true := by
  rw [tabRising_iff] at h ⊢
  induction t with
  | nil => simp [tabDel]
  | cons q t ih =>
    obtain ⟨j, w⟩ := q
    rw [List.pairwise_cons] at h
    simp only [tabDel]
    split
    · exact h.2
    · exact List.pairwise_cons.2 ⟨fun a ha => h.1 a (mem_tabDel ha), ih h.2⟩

/-- Filtering keeps the keys rising. -/
theorem tabRising_filter {α : Type} {t : List (Nat × α)} {f : Nat × α → Bool} (h : tabRising t = true) :
    tabRising (t.filter f) = true := by
  rw [tabRising_iff] at h ⊢
  exact h.filter f

/-- A read of the key just written gives what was written. -/
@[simp] theorem tabGet_tabPut_self {α : Type} (t : List (Nat × α)) (k : Nat) (v : α) : tabGet (tabPut t k v) k = some v := by
  induction t with
  | nil => simp [tabPut, tabGet]
  | cons q t ih =>
    obtain ⟨j, w⟩ := q
    simp only [tabPut]
    split
    · simp [tabGet]
    · split
      · simp [tabGet]
      · rename_i _ hne
        simp [tabGet, ih, Ne.symm hne]

/-- A read of another key gives what it gave before. -/
theorem tabGet_tabPut_other {α : Type} (t : List (Nat × α)) {k j : Nat} (v : α) (hne : j ≠ k) :
    tabGet (tabPut t k v) j = tabGet t j := by
  induction t with
  | nil => simp [tabPut, tabGet, Ne.symm hne]
  | cons q t ih =>
    obtain ⟨i, w⟩ := q
    simp only [tabPut]
    split
    · simp [tabGet, Ne.symm hne]
    · split
      · rename_i _ hk
        subst hk
        simp [tabGet, Ne.symm hne]
      · simp only [tabGet, ih]

/-- A table that lists only keys above `k` lists nothing at `k`. -/
theorem tabGet_none_of_above {α : Type} {t : List (Nat × α)} {k : Nat} (h : ∀ p ∈ t, k < p.1) : tabGet t k = none := by
  induction t with
  | nil => rfl
  | cons q t ih =>
    obtain ⟨j, w⟩ := q
    have hj : k < j := h _ (List.mem_cons_self ..)
    simp only [tabGet]
    rw [if_neg (by omega)]
    exact ih (fun p hp => h p (List.mem_cons_of_mem _ hp))

/-- A deleted key reads as unlisted in a rising table. -/
theorem tabGet_tabDel_self {α : Type} {t : List (Nat × α)} (k : Nat) (h : tabRising t = true) : tabGet (tabDel t k) k = none := by
  rw [tabRising_iff] at h
  induction t with
  | nil => rfl
  | cons q t ih =>
    obtain ⟨j, w⟩ := q
    rw [List.pairwise_cons] at h
    simp only [tabDel]
    split
    · rename_i hk
      exact tabGet_none_of_above (fun p hp => hk ▸ h.1 p hp)
    · rename_i hk
      simp [tabGet, hk, ih h.2]

/-- Deleting one key leaves a read of another as it was. -/
theorem tabGet_tabDel_other {α : Type} (t : List (Nat × α)) {k j : Nat} (hne : j ≠ k) : tabGet (tabDel t k) j = tabGet t j := by
  induction t with
  | nil => rfl
  | cons q t ih =>
    obtain ⟨i, w⟩ := q
    simp only [tabDel]
    split
    · rename_i hk
      subst hk
      simp [tabGet, Ne.symm hne]
    · simp only [tabGet, ih]

/-- A read with a default of the key just written. -/
@[simp] theorem tabGetD_tabPut_self {α : Type} (t : List (Nat × α)) (k : Nat) (v d : α) : tabGetD (tabPut t k v) k d = v := by
  simp [tabGetD]

/-- A read with a default of another key. -/
theorem tabGetD_tabPut_other {α : Type} (t : List (Nat × α)) {k j : Nat} (v d : α) (hne : j ≠ k) :
    tabGetD (tabPut t k v) j d = tabGetD t j d := by
  simp [tabGetD, tabGet_tabPut_other t v hne]

/-! Byte stores. -/

/-- The canonical form, as a proposition. -/
theorem storeWf_iff (s : Store) :
    storeWf s = true ↔ tabRising s.cells = true ∧ ∀ p ∈ s.cells, storeBg s p.1 ≠ some p.2 := by
  simp [storeWf]

/-- Only the fills and the base decide what an unlisted address reads as. -/
theorem storeBg_cells (s : Store) (c : List Host.Cell) (a : Nat) : storeBg { s with cells := c } a = storeBg s a := rfl

/-- A byte written reads as unlisted nowhere else: the background is as before. -/
@[simp] theorem storeBg_storePut (s : Store) (a b : Nat) (v : Byte) : storeBg (storePut s a v) b = storeBg s b := rfl

/-- Writing a byte keeps the canonical form. -/
theorem storeWf_storePut {s : Store} {a : Nat} {b : Byte} (h : storeWf s = true) : storeWf (storePut s a b) = true := by
  rw [storeWf_iff] at h ⊢
  obtain ⟨hr, hc⟩ := h
  simp only [storeBg_storePut]
  by_cases hb : storeBg s a = some b
  · simp only [storePut, hb, if_true]
    exact ⟨tabRising_tabDel hr, fun p hp => hc p (mem_tabDel hp)⟩
  · simp only [storePut, hb, if_false]
    refine ⟨tabRising_tabPut hr, fun p hp => ?_⟩
    rcases mem_tabPut hp with hp | hp
    · simpa [hp] using hb
    · exact hc p hp

/-- Writing a byte string keeps the canonical form. -/
theorem storeWf_storePuts {s : Store} {a : Nat} {bs : List Byte} (h : storeWf s = true) : storeWf (storePuts s a bs) = true := by
  induction bs generalizing s a with
  | nil => exact h
  | cons b bs ih => exact ih (storeWf_storePut h)

/-- Filling a range keeps the canonical form. -/
theorem storeWf_storeFill {s : Store} {f : Fill} (h : storeWf s = true) : storeWf (storeFill s f) = true := by
  rw [storeWf_iff] at h ⊢
  obtain ⟨hr, hc⟩ := h
  refine ⟨tabRising_filter hr, fun p hp => ?_⟩
  obtain ⟨hp, hf⟩ := List.mem_filter.1 hp
  have hf : fillCovers f p.1 = false := by simpa using hf
  have : storeBg (storeFill s f) p.1 = storeBg s p.1 := by simp [storeBg, storeFill, hf]
  rw [this]
  exact hc p hp

/-- A byte just written reads back (R349). -/
theorem storeByte_storePut_self {s : Store} (a : Nat) (b : Byte) (h : storeWf s = true) :
    storeByte (storePut s a b) a = some b := by
  rw [storeWf_iff] at h
  by_cases hb : storeBg s a = some b
  · simp [storeByte, storePut, hb, tabGet_tabDel_self a h.1, storeBg_cells]
  · simp [storeByte, storePut, hb]

/-- A byte elsewhere reads as before. -/
theorem storeByte_storePut_other (s : Store) {a c : Nat} (b : Byte) (hne : c ≠ a) :
    storeByte (storePut s a b) c = storeByte s c := by
  by_cases hb : storeBg s a = some b
  · simp [storeByte, storePut, hb, tabGet_tabDel_other _ hne, storeBg_cells]
  · simp [storeByte, storePut, hb, tabGet_tabPut_other _ _ hne, storeBg_cells]

/-- A byte outside a written string reads as before. -/
theorem storeByte_storePuts_other (s : Store) {a c : Nat} (bs : List Byte) (h : c < a ∨ a + bs.length ≤ c) :
    storeByte (storePuts s a bs) c = storeByte s c := by
  induction bs generalizing s a with
  | nil => rfl
  | cons b bs ih =>
    simp only [List.length_cons] at h
    rw [storePuts, ih _ (by omega), storeByte_storePut_other _ _ (by omega)]

/-- A byte outside a filled range reads as before. -/
theorem storeByte_storeFill_other (s : Store) (f : Fill) {c : Nat} (h : fillCovers f c = false) :
    storeByte (storeFill s f) c = storeByte s c := by
  have hg : ∀ t : List Host.Cell, tabGet (t.filter (fun p => !fillCovers f p.1)) c = tabGet t c := by
    intro t
    induction t with
    | nil => rfl
    | cons q t ih =>
      obtain ⟨j, w⟩ := q
      by_cases hj : j = c
      · subst hj; simp [tabGet, h]
      · by_cases hf : fillCovers f j = true
        · simp [tabGet, hf, hj, ih]
        · simp [tabGet, hf, hj, ih]
  simp [storeByte, storeFill, hg, storeBg, h]

end Sys2Proof.Machine
end

