-- ==== Sys2Proof/Laws/Ops.lean ====
section
/-!
SUPPORT. What the shared operations of the commands can do: a command's outcome, and an access that reaches its target.
-/

namespace Sys2Proof.Machine

/-- A command without a condition answers its effect, and the queue stays. -/
theorem does_next (f : Dev → Dev) (s : State) : does f s = .next { s with dev := f s.dev } := rfl

/-- A command on a unit answers its effect where the part has the unit. -/
theorem onUnit_next {ok : Dev → Bool} {f : Dev → Dev} {s : State} (h : ok s.dev = true) :
    onUnit ok f s = .next { s with dev := f s.dev } := by
  simp [onUnit, h, does, State.onDev]

/-- A command on a unit that the part has not stops. -/
theorem onUnit_fault {ok : Dev → Bool} {f : Dev → Dev} {s : State} (h : ok s.dev = false) :
    onUnit ok f s = .fault .noSuchUnit := by
  simp [onUnit, h]

/-- What a command on a unit answers, if it answers a next state. -/
theorem onUnit_cases {ok : Dev → Bool} {f : Dev → Dev} {s t : State} (h : onUnit ok f s = .next t) :
    ok s.dev = true ∧ t = { s with dev := f s.dev } := by
  unfold onUnit does State.onDev at h
  split at h
  · rename_i c
    exact ⟨c, (Host.Outcome.next.inj h).symm⟩
  · cases h

/-- A command without a condition runs. -/
theorem Runs.of_does {c : Instr} {f : Dev → Dev} {d e : Dev} (hc : ∀ s, exec c s = does f s) (he : f d = e) : Runs c d e := by
  intro q
  rw [hc, does_next, ← he]

/-- A command on a unit that the part has runs. -/
theorem Runs.of_onUnit {c : Instr} {ok : Dev → Bool} {f : Dev → Dev} {d e : Dev} (hc : ∀ s, exec c s = onUnit ok f s)
    (hk : ok d = true) (he : f d = e) : Runs c d e := by
  intro q
  rw [hc, onUnit_next hk, ← he]

/-- A command's outcome is the one it runs to. -/
theorem Runs.unique {c : Instr} {d e f : Dev} (h : Runs c d e) (g : Runs c d f) : e = f := by
  have := (h []).symm.trans (g [])
  injection this with this
  injection this

/-- A master whose request reaches its target can send one. -/
theorem Dev.lets.masterOk {d : Dev} {q : Req} (h : d.lets q) : masterOk q.master = true := by
  simp [Machine.masterOk, h.1, h.2.1]

/-- A request that reaches its target has its effect there. -/
theorem access_lets {d : Dev} {q : Req} (h : d.lets q) : access q d = accessTarget q d := by
  obtain ⟨-, h1, h2, h3, h4⟩ := h
  simp [access, h1, h2, h3, h4]

/-- A register write that reaches its target. -/
theorem regWrite_lets {d : Dev} {m a : Nat} {v : Word} (h : d.lets (writeOf m a v)) (hr : regionOf d.hw a = .regs) :
    regWrite m a v d = settle (respond (writeOf m a v) (regWriteAt m a v d).1 0 (regWriteAt m a v d).2) := by
  have := access_lets h
  unfold regWrite
  change access (writeOf m a v) d = _
  rw [this]
  simp [accessTarget, accessWrite, writeOf, hr]

/-- A register read that reaches its target, but for the random numbers. -/
theorem regRead_lets {d : Dev} {m a : Nat} (h : d.lets (readOf m a)) (hr : regionOf d.hw a = .regs) (hn : a ≠ R.SIGV_RNG_DATA) :
    regRead m a d = respond (readOf m a) .ok (regReadAt m a d).1.toNat (regReadAt m a d).2 := by
  have := access_lets h
  unfold regRead
  change access (readOf m a) d = _
  rw [this]
  simp [accessTarget, accessRead, readOf, hr, hn]

/-- The register blocks lie above every other region. -/
theorem regionOf_regs {h : Hw} {a : Nat} (lo : 0xF000000000 ≤ a) (hi : a < 0xF001000000) (hs : (slotRows (regSlot a)).isSome = true) :
    regionOf h a = .regs := by
  have hd : dramBytes h ≤ 65535 * 1048576 := by
    unfold dramBytes fld
    have := Nat.mod_lt (rd h R.DRAMC_STAT >>> 0).toNat (show 0 < 2 ^ 16 by decide)
    omega
  unfold regionOf
  have hb : regBase = 0xF000000000 := rfl
  rw [if_neg (by omega), if_neg (by omega), if_neg (by omega), if_neg (by omega), if_neg (by omega)]
  simp [hb, hs]
  omega

end Sys2Proof.Machine
end

