-- ==== Sys2Proof/Laws/Frames.lean ====
section
/-!
SUPPORT. What the shared operations of the power controller, of Whistle and of the responses leave unchanged.
-/

namespace Sys2Proof.Machine

/-- The later of two writes to a register stands. -/
@[simp] theorem wr_wr (h : Hw) (a : Nat) (v w : Word) : wr (wr h a v) a w = wr h a w := by
  have : ∀ t : List (Nat × Word), tabPut (tabPut t a v) a w = tabPut t a w := by
    intro t
    induction t with
    | nil => simp [tabPut]
    | cons p t ih =>
      obtain ⟨j, x⟩ := p
      simp only [tabPut]
      split
      · simp [tabPut]
      · split
        · simp [tabPut]
        · rename_i h1 h2
          simp [tabPut, h1, h2, ih]
  simp [wr, this]

/-- A register reads what was last written to it. -/
@[simp] theorem rd_wr_same (h : Hw) (a : Nat) (v : Word) : rd (wr h a v) a = v := by
  simp [rd, wr]

/-- A register write leaves every other register. -/
theorem rd_wr_other (h : Hw) (a b : Nat) (v : Word) (hb : b ≠ a) : rd (wr h a v) b = rd h b := by
  simp [rd, wr, tabGetD_tabPut_other _ _ _ hb]

theorem domSet_eq (n : Nat) (x : Dom) (d : Dev) : domSet n x d = { d with pwr := domPut d.pwr n x } := rfl

/-- A wake changes the power controller alone. -/
theorem wakeReq_frame (n src : Nat) (d : Dev) : wakeReq n src d = { d with pwr := (wakeReq n src d).pwr } := by
  unfold wakeReq domSet
  dsimp only
  split
  · rfl
  · split <;> rfl

theorem foldl_pwr_frame {α : Type} (f : Dev → α → Dev) (hf : ∀ d x, f d x = { d with pwr := (f d x).pwr }) (l : List α) (d : Dev) :
    l.foldl f d = { d with pwr := (l.foldl f d).pwr } := by
  induction l generalizing d with
  | nil => rfl
  | cons x l ih =>
    simp only [List.foldl_cons]
    rw [ih, hf d x]

theorem domDown_frame (n : Nat) (d : Dev) : domDown n d = { d with pwr := (domDown n d).pwr } := by
  unfold domDown domSet
  dsimp only
  split <;> rfl

theorem tryOff_frame (n : Nat) (d : Dev) : tryOff n d = { d with pwr := (tryOff n d).pwr } := by
  unfold tryOff domSet
  dsimp only
  split <;> rfl

theorem seqNext_frame (d : Dev) : seqNext d = { d with pwr := (seqNext d).pwr } := by
  unfold seqNext
  split
  · rfl
  · split
    · rfl
    · rw [wakeReq_frame]

theorem seqBegin_frame (d : Dev) : seqBegin d = { d with pwr := (seqBegin d).pwr } := by
  unfold seqBegin
  rw [seqNext_frame]

theorem seqCheck_frame (d : Dev) : seqCheck d = { d with pwr := (seqCheck d).pwr } := by
  unfold seqCheck
  split
  · rw [seqBegin_frame]
  · rfl

theorem domsReset_frame (d : Dev) : domsReset d = { d with pwr := (domsReset d).pwr } := by
  unfold domsReset
  dsimp only
  rw [seqCheck_frame, foldl_pwr_frame _ (fun d n => domDown_frame n d)]

/-- Holds that take effect change the power controller alone. -/
theorem settle_frame (d : Dev) : settle d = { d with pwr := (settle d).pwr } := by
  unfold settle
  split
  · rfl
  · refine foldl_pwr_frame _ (fun x n => ?_) _ _
    dsimp only
    split
    · rfl
    · split
      · split
        · rfl
        · exact wakeReq_frame _ _ _
      · split
        · exact tryOff_frame _ _
        · rfl

/-- Held level sources change pending word 11 alone. -/
theorem extHeld_frame (d : Dev) :
    ∃ w, extHeld d = { d with hw := { d.hw with regs := w } } ∧ ∀ a, a ≠ R.WH_PEND 11 → tabGet w a = tabGet d.hw.regs a := by
  unfold extHeld
  suffices H : ∀ (l : List Nat), (∀ i ∈ l, i < 16) → ∀ (d : Dev), ∃ w,
      l.foldl (fun x i => if levelActive x (352 + i) then { x with hw := pendSet x.hw (352 + i) } else x) d
        = { d with hw := { d.hw with regs := w } } ∧ ∀ a, a ≠ R.WH_PEND 11 → tabGet w a = tabGet d.hw.regs a from
    H _ (fun i hi => List.mem_range.mp hi) d
  intro l
  induction l with
  | nil => exact fun _ d => ⟨d.hw.regs, rfl, fun _ _ => rfl⟩
  | cons i l ih =>
    intro hl d
    have hi : i < 16 := hl i (by simp)
    have e : (352 + i) / 32 = 11 := by omega
    simp only [List.foldl_cons]
    split
    · obtain ⟨w, hw, hk⟩ := ih (fun j hj => hl j (by simp [hj])) { d with hw := pendSet d.hw (352 + i) }
      refine ⟨w, hw, fun a ha => (hk a ha).trans ?_⟩
      simp only [pendSet, md, wr, e]
      exact tabGet_tabPut_other _ _ ha
    · exact ih (fun j hj => hl j (by simp [hj])) d

end Sys2Proof.Machine
end

