-- ==== Sys2Proof/Laws/Keep.lean ====
section
/-!
SUPPORT. What every operation keeps: the fuses of the part, and the canonical form of the byte stores. The relation `After e d` says that
device `d` can follow device `e` in both respects; each operation has one lemma that carries it over.
-/

namespace Sys2Proof.Machine

/-- A hardware core that can follow device `e`: its stores are in canonical form if those of `e` were. -/
def HwAfter (e : Dev) (h : Hw) : Prop := e.hw.storesWf → h.storesWf

/-- A memory that can follow device `e`. -/
def MemAfter (e : Dev) (m : Mem) : Prop := e.hw.storesWf → storeWf m.data = true ∧ storeWf m.chk = true

/-- A Rind store that can follow device `e`. -/
def RindAfter (e : Dev) (r : Rind) : Prop := e.hw.storesWf → storeWf r.store = true

/-- A byte store that can follow device `e`. -/
def StoreAfter (e : Dev) (s : Store) : Prop := e.hw.storesWf → storeWf s = true

/-- A device that can follow device `e`. -/
def After (e d : Dev) : Prop := Fuse.later e.fuse d.fuse ∧ HwAfter e d.hw

theorem After.rfl (d : Dev) : After d d := ⟨⟨Eq.refl _, Eq.refl _, Eq.refl _, Eq.refl _, Nat.le_refl _⟩, id⟩

@[simp] theorem After.fuse {e d : Dev} (h : After e d) : Fuse.later e.fuse d.fuse := h.1

@[simp] theorem After.hw {e d : Dev} (h : After e d) : HwAfter e d.hw := h.2

@[simp] theorem HwAfter.mem {e : Dev} {h : Hw} (k : HwAfter e h) : MemAfter e h.mem := fun w => ⟨(k w).1, (k w).2.1⟩

@[simp] theorem HwAfter.rind {e : Dev} {h : Hw} (k : HwAfter e h) : RindAfter e h.rind := fun w => (k w).2.2

@[simp] theorem MemAfter.data {e : Dev} {m : Mem} (k : MemAfter e m) : StoreAfter e m.data := fun w => (k w).1

@[simp] theorem MemAfter.chk {e : Dev} {m : Mem} (k : MemAfter e m) : StoreAfter e m.chk := fun w => (k w).2

@[simp] theorem RindAfter.store {e : Dev} {r : Rind} (k : RindAfter e r) : StoreAfter e r.store := k

/-- A device put together from parts. -/
@[simp] theorem after_mk {e : Dev} {fuse : Fuse} {hw : Hw} {pins : Pins} {pwr : Pwr} {wh : Whistle} {curd : Curd} {sec : Sec} {sj : Settings}
    {boot : Boot} {holdup : Holdup} {therm : Therm} {mgmt : Mgmt} {jtag : Jtag} {host : HostSide} {ten : Tenancy} {fl : Flash}
    {med : Media} {aff : Aff} :
    After e (Dev.mk fuse hw pins pwr wh curd sec sj boot holdup therm mgmt jtag host ten fl med aff) ↔
      Fuse.later e.fuse fuse ∧ HwAfter e hw := Iff.rfl

/-- A hardware core put together from parts. -/
@[simp] theorem hwAfter_mk {e : Dev} {regs mregs : List (Nat × Word)} {items : List (Nat × Item)} {resps : List (Nat × Resp)} {time : DWord}
    {bc : Word} {ev : EvState} {rind : Rind} {mem : Mem} {free : Nat} :
    HwAfter e (Hw.mk regs mregs items resps time bc ev rind mem free) ↔ RindAfter e rind ∧ MemAfter e mem :=
  ⟨fun h => ⟨fun w => (h w).2.2, fun w => ⟨(h w).1, (h w).2.1⟩⟩, fun h w => ⟨(h.2 w).1, (h.2 w).2, h.1 w⟩⟩

/-- A Rind store put together from parts. -/
@[simp] theorem rindAfter_mk {e : Dev} {store : Store} {locks : BitVec 256} {pw : Option (BitVec 64)} {pl : Bool} {run : Option RindOp} :
    RindAfter e (Rind.mk store locks pw pl run) ↔ StoreAfter e store := Iff.rfl

/-- A memory put together from parts. -/
@[simp] theorem memAfter_mk {e : Dev} {data chk : Store} : MemAfter e (Mem.mk data chk) ↔ StoreAfter e data ∧ StoreAfter e chk :=
  ⟨fun h => ⟨fun w => (h w).1, fun w => (h w).2⟩, fun h w => ⟨h.1 w, h.2 w⟩⟩

theorem later_mk {e : Fuse} {v : Variant} {a b : Nat} {r : BitVec 12} {n : Nat} :
    Fuse.later e (Fuse.mk v a b r n) ↔ v = e.variant ∧ a = e.stepMajor ∧ b = e.stepMinor ∧ r = e.revoked ∧ n ≤ e.epochLeft := Iff.rfl

@[simp] theorem after_ite {e : Dev} {c : Prop} [Decidable c] {x y : Dev} (hx : After e x) (hy : After e y) :
    After e (if c then x else y) := by split <;> assumption

@[simp] theorem hwAfter_ite {e : Dev} {c : Prop} [Decidable c] {x y : Hw} (hx : HwAfter e x) (hy : HwAfter e y) :
    HwAfter e (if c then x else y) := by split <;> assumption

@[simp] theorem memAfter_ite {e : Dev} {c : Prop} [Decidable c] {x y : Mem} (hx : MemAfter e x) (hy : MemAfter e y) :
    MemAfter e (if c then x else y) := by split <;> assumption

@[simp] theorem rindAfter_ite {e : Dev} {c : Prop} [Decidable c] {x y : Rind} (hx : RindAfter e x) (hy : RindAfter e y) :
    RindAfter e (if c then x else y) := by split <;> assumption

/-- The device that either branch of a choice carries. -/
@[simp] theorem after_snd_ite {e : Dev} {α : Type} {c : Prop} [Decidable c] {x y : α × Dev} (hx : After e x.2) (hy : After e y.2) :
    After e (if c then x else y).2 := by split <;> assumption

@[simp] theorem hwAfter_snd_ite {e : Dev} {α : Type} {c : Prop} [Decidable c] {x y : α × Hw} (hx : HwAfter e x.2) (hy : HwAfter e y.2) :
    HwAfter e (if c then x else y).2 := by split <;> assumption

/-- Folding an operation that keeps `After` keeps it. -/
@[simp] theorem after_foldl {e : Dev} {α : Type} {f : Dev → α → Dev} {l : List α} {d : Dev} (hf : ∀ x a, After e x → After e (f x a))
    (h : After e d) : After e (l.foldl f d) := by
  induction l generalizing d with
  | nil => exact h
  | cons a l ih => exact ih (hf d a h)

@[simp] theorem hwAfter_foldl {e : Dev} {α : Type} {f : Hw → α → Hw} {l : List α} {h : Hw} (hf : ∀ x a, HwAfter e x → HwAfter e (f x a))
    (k : HwAfter e h) : HwAfter e (l.foldl f h) := by
  induction l generalizing h with
  | nil => exact k
  | cons a l ih => exact ih (hf h a k)

@[simp] theorem memAfter_foldl {e : Dev} {α : Type} {f : Mem → α → Mem} {l : List α} {h : Mem} (hf : ∀ x a, MemAfter e x → MemAfter e (f x a))
    (k : MemAfter e h) : MemAfter e (l.foldl f h) := by
  induction l generalizing h with
  | nil => exact k
  | cons a l ih => exact ih (hf h a k)

@[simp] theorem rindAfter_foldl {e : Dev} {α : Type} {f : Rind → α → Rind} {l : List α} {h : Rind}
    (hf : ∀ x a, RindAfter e x → RindAfter e (f x a)) (k : RindAfter e h) : RindAfter e (l.foldl f h) := by
  induction l generalizing h with
  | nil => exact k
  | cons a l ih => exact ih (hf h a k)

/-- Folding an operation that carries a device in its second part. -/
@[simp] theorem after_foldl_snd {e : Dev} {α β : Type} {f : β × Dev → α → β × Dev} {l : List α} {b : β × Dev}
    (hf : ∀ x a, After e x.2 → After e (f x a).2) (h : After e b.2) : After e (l.foldl f b).2 := by
  induction l generalizing b with
  | nil => exact h
  | cons a l ih => exact ih (hf b a h)

@[simp] theorem after_foldl_third {e : Dev} {α β γ : Type} {f : β × γ × Dev → α → β × γ × Dev} {l : List α} {b : β × γ × Dev}
    (hf : ∀ x a, After e x.2.2 → After e (f x a).2.2) (h : After e b.2.2) : After e (l.foldl f b).2.2 := by
  induction l generalizing b with
  | nil => exact h
  | cons a l ih => exact ih (hf b a h)

@[simp] theorem storePut_after {e : Dev} {s : Store} {a : Nat} {b : Byte} (k : StoreAfter e s) : StoreAfter e (storePut s a b) :=
  fun w => storeWf_storePut (k w)

@[simp] theorem storePuts_after {e : Dev} {s : Store} {a : Nat} {bs : List Byte} (k : StoreAfter e s) : StoreAfter e (storePuts s a bs) :=
  fun w => storeWf_storePuts (k w)

@[simp] theorem storeFill_after {e : Dev} {s : Store} {f : Fill} (k : StoreAfter e s) : StoreAfter e (storeFill s f) :=
  fun w => storeWf_storeFill (k w)

end Sys2Proof.Machine
end

