-- ==== Sys2Proof/Laws/KeepOpsHw.lean ====
section
/-!
SUPPORT. What the operations of Machine/OpsHw.lean keep: one lemma per operation, that its result can follow what its argument can follow.
-/

set_option linter.unusedSimpArgs false
set_option maxRecDepth 4000

namespace Sys2Proof.Machine

@[simp] theorem wr_after {dev0 : Dev} (h : Hw) (a : Nat) (v : Word) (k_h : HwAfter dev0 h) :
    HwAfter dev0 (wr h a v) := by
  simp +contextual (maxDischargeDepth := 50) [wr, k_h]

@[simp] theorem md_after {dev0 : Dev} (h : Hw) (a : Nat) (f : Word → Word) (k_h : HwAfter dev0 h) :
    HwAfter dev0 (md h a f) := by
  simp +contextual (maxDischargeDepth := 50) [md, k_h]

@[simp] theorem mwr_after {dev0 : Dev} (h : Hw) (a m : Nat) (v : Word) (k_h : HwAfter dev0 h) :
    HwAfter dev0 (mwr h a m v) := by
  simp +contextual (maxDischargeDepth := 50) [mwr, k_h]

@[simp] theorem spend_after {dev0 : Dev} (h : Hw) (k_h : HwAfter dev0 h) :
    HwAfter dev0 (spend h) := by
  simp +contextual (maxDischargeDepth := 50) [spend, k_h]

@[simp] theorem pendSet_after {dev0 : Dev} (h : Hw) (s : Nat) (k_h : HwAfter dev0 h) :
    HwAfter dev0 (pendSet h s) := by
  simp +contextual (maxDischargeDepth := 50) [pendSet, k_h]

@[simp] theorem raise_after {dev0 : Dev} (h : Hw) (st en b src : Nat) (k_h : HwAfter dev0 h) :
    HwAfter dev0 (raise h st en b src) := by
  simp +contextual (maxDischargeDepth := 50) [raise, k_h]

@[simp] theorem irq_after {dev0 : Dev} (h : Hw) (blk : IrqBlock) (b : Nat) (k_h : HwAfter dev0 h) :
    HwAfter dev0 (irq h blk b) := by
  simp +contextual (maxDischargeDepth := 50) [irq, k_h]

@[simp] theorem irqIf_after {dev0 : Dev} (h : Hw) (c : Bool) (blk : IrqBlock) (b : Nat) (k_h : HwAfter dev0 h) :
    HwAfter dev0 (irqIf h c blk b) := by
  simp +contextual (maxDischargeDepth := 50) [irqIf, k_h]

@[simp] theorem irqClear_after {dev0 : Dev} (h : Hw) (blk : IrqBlock) (w1c v : Word) (k_h : HwAfter dev0 h) :
    HwAfter dev0 (irqClear h blk w1c v) := by
  simp +contextual (maxDischargeDepth := 50) [irqClear, k_h]

@[simp] theorem relatch_after {dev0 : Dev} (h : Hw) (blk : IrqBlock) (n : Nat) (k_h : HwAfter dev0 h) : HwAfter dev0 (relatch h blk n) := by
  induction n with
  | zero => exact k_h
  | succ n ih => simp only [relatch]; split <;> simp_all [pendSet_after]

@[simp] theorem irqEnable_after {dev0 : Dev} (h : Hw) (blk : IrqBlock) (rw v : Word) (k_h : HwAfter dev0 h) :
    HwAfter dev0 (irqEnable h blk rw v) := by
  simp +contextual (maxDischargeDepth := 50) [irqEnable, k_h]

@[simp] theorem memPut_after {dev0 : Dev} (m : Mem) (a : Nat) (w : DWord) (c : Byte) (k_m : MemAfter dev0 m) :
    MemAfter dev0 (memPut m a w c) := by
  simp +contextual (maxDischargeDepth := 50) [memPut, k_m]

@[simp] theorem memZero_after {dev0 : Dev} (m : Mem) (lo hi : Nat) (k_m : MemAfter dev0 m) :
    MemAfter dev0 (memZero m lo hi) := by
  simp +contextual (maxDischargeDepth := 50) [memZero, k_m]

@[simp] theorem memPoison_after {dev0 : Dev} (m : Mem) (lo hi : Nat) (k_m : MemAfter dev0 m) :
    MemAfter dev0 (memPoison m lo hi) := by
  simp +contextual (maxDischargeDepth := 50) [memPoison, k_m]

@[simp] theorem memLose_after {dev0 : Dev} (m : Mem) (lo hi : Nat) (chan : Option Nat) (k_m : MemAfter dev0 m) :
    MemAfter dev0 (memLose m lo hi chan) := by
  simp +contextual (maxDischargeDepth := 50) [memLose, k_m]

@[simp] theorem Mem.init_after {dev0 : Dev} : MemAfter dev0 Mem.init := fun _ => ⟨rfl, rfl⟩

@[simp] theorem memLook_after {dev0 : Dev} (h : Hw) (a : Nat) (k_h : HwAfter dev0 h) :
    HwAfter dev0 (memLook h a).2 := by
  unfold memLook
  (repeat' split) <;> simp_all +contextual (maxDischargeDepth := 50)

@[simp] theorem Rind.init_after {dev0 : Dev} : RindAfter dev0 Rind.init := fun _ => rfl

@[simp] theorem rindProg_after {dev0 : Dev} (r : Rind) (n a : Nat) (bs : List Byte) (k_r : RindAfter dev0 r) :
    RindAfter dev0 (rindProg r n a bs) := by
  simp +contextual (maxDischargeDepth := 50) [rindProg, k_r]

@[simp] theorem rindErase_after {dev0 : Dev} (r : Rind) (sector : Nat) (k_r : RindAfter dev0 r) :
    RindAfter dev0 (rindErase r sector) := by
  simp +contextual (maxDischargeDepth := 50) [rindErase, k_r]

@[simp] theorem rindSpoil_after {dev0 : Dev} (r : Rind) (lo hi : Nat) (k_r : RindAfter dev0 r) :
    RindAfter dev0 (rindSpoil r lo hi) := by
  simp +contextual (maxDischargeDepth := 50) [rindSpoil, k_r]

@[simp] theorem evCopy_after {dev0 : Dev} (es : List EvRecd) (h : Hw) (k_h : HwAfter dev0 h) : HwAfter dev0 (evCopy es h).2 := by
  induction es generalizing h with
  | nil => exact k_h
  | cons r es ih =>
    simp only [evCopy]
    split
    · exact ih _ k_h
    · split
      · exact k_h
      · refine ih _ (hwAfter_mk.2 ⟨rindProg_after _ _ _ _ k_h.rind, k_h.mem⟩)

@[simp] theorem evFlush_after {dev0 : Dev} (h : Hw) (k_h : HwAfter dev0 h) :
    HwAfter dev0 (evFlush h) := by
  simp +contextual (maxDischargeDepth := 50) [evFlush, k_h]

@[simp] theorem evStore_after {dev0 : Dev} (h : Hw) (e : EvRecd) (k_h : HwAfter dev0 h) :
    HwAfter dev0 (evStore h e) := by
  simp +contextual (maxDischargeDepth := 50) [evStore, k_h]

@[simp] theorem evDrop_after {dev0 : Dev} (h : Hw) (lo source : Nat) (k_h : HwAfter dev0 h) :
    HwAfter dev0 (evDrop h lo source).2 := by
  simp +contextual (maxDischargeDepth := 50) [evDrop, k_h]

@[simp] theorem evPost_after {dev0 : Dev} (h : Hw) (source code sev : Nat) (cont : Bool) (a0 a1 a2 : Word) (k_h : HwAfter dev0 h) :
    HwAfter dev0 (evPost h source code sev cont a0 a1 a2).2 := by
  have k1 : ∀ x : EvState, HwAfter dev0 { h with ev := x } := fun x => hwAfter_mk.2 ⟨k_h.rind, k_h.mem⟩
  simp only [evPost]
  split
  · exact k_h
  · split
    · exact evDrop_after _ _ _ k_h
    · split
      · exact evDrop_after _ _ _ k_h
      · split
        · exact k_h
        · split
          · exact k1 _
          · have k2 := evStore_after _ (droppedRec h (rd h R.EVREC_DROP)) (k1 { h.ev with dropSince := false })
            split
            · split
              · exact evDrop_after _ _ _ k_h
              · exact evStore_after _ _ (hwAfter_mk.2 ⟨k2.rind, k2.mem⟩)
            · split
              · exact evDrop_after _ _ _ k_h
              · exact evStore_after _ _ (k1 _)

@[simp] theorem evUnit_after {dev0 : Dev} (h : Hw) (slot code sev : Nat) (a0 a1 a2 : Nat) (k_h : HwAfter dev0 h) :
    HwAfter dev0 (evUnit h slot code sev a0 a1 a2) := by
  simp +contextual (maxDischargeDepth := 50) [evUnit, k_h]

@[simp] theorem evFw_after {dev0 : Dev} (h : Hw) (code sev : Nat) (a0 a1 a2 : Nat) (k_h : HwAfter dev0 h) :
    HwAfter dev0 (evFw h code sev a0 a1 a2) := by
  simp +contextual (maxDischargeDepth := 50) [evFw, k_h]

end Sys2Proof.Machine
end

