-- ==== Sys2Proof/Laws/KeepPower.lean ====
section
/-!
SUPPORT. What the operations of Machine/Power.lean keep: one lemma per operation, that its result can follow what its argument can follow.
-/

set_option linter.unusedSimpArgs false
set_option maxRecDepth 4000

namespace Sys2Proof.Machine

@[simp] theorem hwMod_after {dev0 : Dev} (f : Hw → Hw) (d : Dev) (k_f : ∀ x, HwAfter dev0 x → HwAfter dev0 (f x)) (k_d : After dev0 d) :
    After dev0 (hwMod f d) := after_mk.2 ⟨k_d.fuse, k_f _ k_d.hw⟩

end Sys2Proof.Machine
end

