-- ==== Sys2Proof/Laws/KeepWhistle.lean ====
section
/-!
SUPPORT. What the operations of Machine/Whistle.lean keep: one lemma per operation, that its result can follow what its argument can follow.
-/

set_option linter.unusedSimpArgs false
set_option maxRecDepth 4000

namespace Sys2Proof.Machine

@[simp] theorem extHeld_after {dev0 : Dev} (d : Dev) (k_d : After dev0 d) :
    After dev0 (extHeld d) := by
  simp +contextual (maxDischargeDepth := 50) [extHeld, k_d]

@[simp] theorem pendClear_after {dev0 : Dev} (d : Dev) (j : Nat) (v : Word) (k_d : After dev0 d) :
    After dev0 (pendClear d j v) := by
  simp +contextual (maxDischargeDepth := 50) [pendClear, k_d]

@[simp] theorem whClaim_after {dev0 : Dev} (c m : Nat) (old : Bool) (d : Dev) (k_d : After dev0 d) :
    After dev0 (whClaim c m old d).2 := by
  unfold whClaim
  simp +contextual (maxDischargeDepth := 50) [k_d]
  (repeat' split) <;> simp_all +contextual (maxDischargeDepth := 50)

@[simp] theorem whWrite_after {dev0 : Dev} (a : Nat) (v : Word) (d : Dev) (k_d : After dev0 d) :
    After dev0 (whWrite a v d) := by
  simp +contextual (maxDischargeDepth := 50) [whWrite, k_d]

@[simp] theorem maskWrite_after {dev0 : Dev} (j kind : Nat) (v : Word) (d : Dev) (k_d : After dev0 d) :
    After dev0 (maskWrite j kind v d) := by
  simp +contextual (maxDischargeDepth := 50) [maskWrite, k_d]

@[simp] theorem routeWrite_after {dev0 : Dev} (s : Nat) (v : Word) (d : Dev) (k_d : After dev0 d) :
    After dev0 (routeWrite s v d) := by
  simp +contextual (maxDischargeDepth := 50) [routeWrite, k_d]

@[simp] theorem threshWrite_after {dev0 : Dev} (x : Nat) (v : Word) (d : Dev) (k_d : After dev0 d) :
    After dev0 (threshWrite x v d) := by
  simp +contextual (maxDischargeDepth := 50) [threshWrite, k_d]

@[simp] theorem pendSetWrite_after {dev0 : Dev} (j : Nat) (v : Word) (d : Dev) (k_d : After dev0 d) :
    After dev0 (pendSetWrite j v d) := by
  simp +contextual (maxDischargeDepth := 50) [pendSetWrite, k_d]

@[simp] theorem xcfgWrite_after {dev0 : Dev} (i : Nat) (v : Word) (d : Dev) (k_d : After dev0 d) :
    After dev0 (xcfgWrite i v d) := by
  simp +contextual (maxDischargeDepth := 50) [xcfgWrite, k_d]

@[simp] theorem cmpLoWrite_after {dev0 : Dev} (c : Nat) (v : Word) (d : Dev) (k_d : After dev0 d) :
    After dev0 (cmpLoWrite c v d) := by
  simp +contextual (maxDischargeDepth := 50) [cmpLoWrite, k_d]

@[simp] theorem cmpHiWrite_after {dev0 : Dev} (c : Nat) (v : Word) (d : Dev) (k_d : After dev0 d) :
    After dev0 (cmpHiWrite c v d) := by
  simp +contextual (maxDischargeDepth := 50) [cmpHiWrite, k_d]

@[simp] theorem timerReached_after {dev0 : Dev} (c : Nat) (d : Dev) (k_d : After dev0 d) :
    After dev0 (timerReached c d) := by
  simp +contextual (maxDischargeDepth := 50) [timerReached, k_d]

@[simp] theorem hkTick_after {dev0 : Dev} (d : Dev) (k_d : After dev0 d) :
    After dev0 (hkTick d) := by
  simp +contextual (maxDischargeDepth := 50) [hkTick, k_d]

@[simp] theorem msipWrite_after {dev0 : Dev} (c : Nat) (v : Word) (d : Dev) (k_d : After dev0 d) :
    After dev0 (msipWrite c v d) := by
  simp +contextual (maxDischargeDepth := 50) [msipWrite, k_d]

end Sys2Proof.Machine
end

