-- ==== Sys2Proof/Laws/KeepSecurity.lean ====
section
/-!
SUPPORT. What the operations of Machine/Security.lean keep: one lemma per operation, that its result can follow what its argument can follow.
-/

set_option linter.unusedSimpArgs false
set_option maxRecDepth 4000

namespace Sys2Proof.Machine

@[simp] theorem cipherAbort_after {dev0 : Dev} (h : Hw) (jobs : List (Nat × List Job)) (n : Nat) (k_h : HwAfter dev0 h) :
    HwAfter dev0 (cipherAbort h jobs n) := by
  induction n with
  | zero => exact k_h
  | succ n ih => exact irqIf_after _ _ _ _ ih

@[simp] theorem kvDenied_after {dev0 : Dev} (s : Sec) (m : Nat) (v : Word) (h : Hw) (k_h : HwAfter dev0 h) :
    HwAfter dev0 (kvDenied s m v h) := by
  simp +contextual (maxDischargeDepth := 50) [kvDenied, k_h]

@[simp] theorem eraseKeys_after {dev0 : Dev} (d : Dev) (k_d : After dev0 d) : After dev0 (eraseKeys d) := by
  unfold eraseKeys
  split
  · exact k_d
  · split
    · exact k_d
    · have hl := k_d.fuse
      simp +contextual (maxDischargeDepth := 50) [k_d, later_mk]
      exact ⟨hl.1, hl.2.1, hl.2.2.1, hl.2.2.2.1, by have := hl.2.2.2.2; omega⟩

@[simp] theorem alarm_after {dev0 : Dev} (s m : Nat) (d : Dev) (k_d : After dev0 d) :
    After dev0 (alarm s m d) := by
  simp +contextual (maxDischargeDepth := 50) [alarm, k_d]

@[simp] theorem collarRefuse_after {dev0 : Dev} (m : Nat) (k : Acc) (a size : Nat) (d : Dev) (k_d : After dev0 d) :
    After dev0 (collarRefuse m k a size d) := by
  simp +contextual (maxDischargeDepth := 50) [collarRefuse, k_d]

@[simp] theorem collarCtrlWrite_after {dev0 : Dev} (v : Word) (d : Dev) (k_d : After dev0 d) :
    After dev0 (collarCtrlWrite v d) := by
  simp +contextual (maxDischargeDepth := 50) [collarCtrlWrite, k_d]

@[simp] theorem winWrite_after {dev0 : Dev} (f : CWin → CWin) (d : Dev) (k_d : After dev0 d) :
    After dev0 (winWrite f d) := by
  simp +contextual (maxDischargeDepth := 50) [winWrite, k_d]

@[simp] theorem collarWrite_after {dev0 : Dev} (o : Nat) (v : Word) (d : Dev) (k_d : After dev0 d) :
    After dev0 (collarWrite o v d) := by
  unfold collarWrite
  (repeat' split) <;> simp +contextual (maxDischargeDepth := 50) [k_d]

@[simp] theorem maskFresh_after {dev0 : Dev} (h : Hw) (n : Nat) (k_h : HwAfter dev0 h) : HwAfter dev0 (maskFresh h n) := by
  induction n with
  | zero => exact k_h
  | succ n ih => exact md_after _ _ _ ih

@[simp] theorem rngAnswer_after {dev0 : Dev} (ms : List Nat) (h : Hw) (s : Sec) (k_h : HwAfter dev0 h) : HwAfter dev0 (rngAnswer ms h s).1 := by
  induction ms generalizing h s with
  | nil => exact k_h
  | cons m ms ih => exact ih _ _ (hwAfter_mk.2 ⟨k_h.rind, k_h.mem⟩)

@[simp] theorem drbgReseed_after {dev0 : Dev} (healthy : Bool) (d : Dev) (k_d : After dev0 d) :
    After dev0 (drbgReseed healthy d) := by
  simp +contextual (maxDischargeDepth := 50) [drbgReseed, k_d]

@[simp] theorem entropyFail_after {dev0 : Dev} (kind : Nat) (d : Dev) (k_d : After dev0 d) :
    After dev0 (entropyFail kind d) := by
  simp +contextual (maxDischargeDepth := 50) [entropyFail, k_d]

@[simp] theorem rngRead_after {dev0 : Dev} (m : Nat) (d : Dev) (k_d : After dev0 d) :
    After dev0 (rngRead m d) := by
  simp +contextual (maxDischargeDepth := 50) [rngRead, k_d]

@[simp] theorem maskReseed_after {dev0 : Dev} (k : Nat) (d : Dev) (k_d : After dev0 d) :
    After dev0 (maskReseed k d) := by
  simp +contextual (maxDischargeDepth := 50) [maskReseed, k_d]

end Sys2Proof.Machine
end

