-- ==== Sys2Proof/Laws/KeepMemory.lean ====
section
/-!
SUPPORT. What the operations of Machine/Memory.lean keep: one lemma per operation, that its result can follow what its argument can follow.
-/

set_option linter.unusedSimpArgs false
set_option maxRecDepth 4000

namespace Sys2Proof.Machine

@[simp] theorem memCe_after {dev0 : Dev} (h : Hw) (a : Nat) (k_h : HwAfter dev0 h) :
    HwAfter dev0 (memCe h a) := by
  simp +contextual (maxDischargeDepth := 50) [memCe, k_h]

@[simp] theorem memUe_after {dev0 : Dev} (h : Hw) (a : Nat) (poison : Bool) (k_h : HwAfter dev0 h) :
    HwAfter dev0 (memUe h a poison) := by
  simp +contextual (maxDischargeDepth := 50) [memUe, k_h]

@[simp] theorem memReadWord_after {dev0 : Dev} (h : Hw) (a : Nat) (k_h : HwAfter dev0 h) :
    HwAfter dev0 (memReadWord h a).2 := by
  unfold memReadWord
  simp +contextual (maxDischargeDepth := 50) [k_h]
  (repeat' split) <;> simp_all +contextual (maxDischargeDepth := 50)

@[simp] theorem memReadWords_after {dev0 : Dev} (n a : Nat) (h : Hw) (k_h : HwAfter dev0 h) : HwAfter dev0 (memReadWords n a h).2 := by
  induction n generalizing a h with
  | zero => exact k_h
  | succ n ih => simp only [memReadWords]; split <;> exact ih _ _ (memReadWord_after _ _ k_h)

@[simp] theorem memRead_after {dev0 : Dev} (h : Hw) (a size : Nat) (k_h : HwAfter dev0 h) :
    HwAfter dev0 (memRead h a size).2 := by
  simp +contextual (maxDischargeDepth := 50) [memRead, k_h]

@[simp] theorem memWriteWord_after {dev0 : Dev} (h : Hw) (a : Nat) (w : DWord) (c : Byte) (k_h : HwAfter dev0 h) :
    HwAfter dev0 (memWriteWord h a w c) := by
  simp +contextual (maxDischargeDepth := 50) [memWriteWord, k_h]

@[simp] theorem memPartial_after {dev0 : Dev} (h : Hw) (a : Nat) (bs : List Byte) (k_h : HwAfter dev0 h) :
    HwAfter dev0 (memPartial h a bs) := by
  unfold memPartial
  simp +contextual (maxDischargeDepth := 50) [k_h]
  (repeat' split) <;> simp_all +contextual (maxDischargeDepth := 50)

@[simp] theorem memBytes_after {dev0 : Dev} (h : Hw) (a n : Nat) (k_h : HwAfter dev0 h) :
    HwAfter dev0 (memBytes h a n).2 := by
  simp +contextual (maxDischargeDepth := 50) [memBytes, k_h]

@[simp] theorem memStore_after {dev0 : Dev} (n : Nat) (bs : List Byte) (h : Hw) (a : Nat) (k_h : HwAfter dev0 h) : HwAfter dev0
    (memStore n bs h a) := by
  induction n generalizing bs h a with
  | zero => exact k_h
  | succ n ih =>
    simp only [memStore]
    split
    · exact k_h
    · exact ih _ _ _ (hwAfter_ite (memWriteWord_after _ _ _ _ k_h) (memPartial_after _ _ _ k_h))

@[simp] theorem memPutBytes_after {dev0 : Dev} (h : Hw) (a : Nat) (bs : List Byte) (k_h : HwAfter dev0 h) :
    HwAfter dev0 (memPutBytes h a bs) := by
  simp +contextual (maxDischargeDepth := 50) [memPutBytes, k_h]

@[simp] theorem scrubEnd_after {dev0 : Dev} (h : Hw) (st : Status) (aborted : Bool) (ce ue : Nat) (first : Option (Nat × Bool))
    (k_h : HwAfter dev0 h) :
    HwAfter dev0 (scrubEnd h st aborted ce ue first) := by
  unfold scrubEnd
  (repeat' split) <;> simp_all +contextual (maxDischargeDepth := 50)

@[simp] theorem scrubGo_after {dev0 : Dev} (d : Dev) (k_d : After dev0 d) :
    After dev0 (scrubGo d) := by
  simp +contextual (maxDischargeDepth := 50) [scrubGo, k_d]

@[simp] theorem scrubWords_after {dev0 : Dev} (n a ce ue : Nat) (f : Option (Nat × Bool)) (h : Hw) (k_h : HwAfter dev0 h) :
    HwAfter dev0 (scrubWords n a ce ue f h).2 := by
  induction n generalizing a ce ue f h with
  | zero => exact k_h
  | succ n ih =>
    have k := memLook_after h a k_h
    simp only [scrubWords]
    split
    · exact ih _ _ _ _ _ k
    · have k1 := memCe_after _ a k
      exact ih _ _ _ _ _ (hwAfter_mk.2 ⟨k1.rind, memPut_after _ _ _ _ k1.mem⟩)
    · exact ih _ _ _ _ _ (memUe_after _ _ _ k)
    · exact ih _ _ _ _ _ (memUe_after _ _ _ k)

@[simp] theorem scrubRun_after {dev0 : Dev} (n : Nat) (aborted : Bool) (d : Dev) (k_d : After dev0 d) :
    After dev0 (scrubRun n aborted d) := by
  simp +contextual (maxDischargeDepth := 50) [scrubRun, k_d]

@[simp] theorem testEnd_after {dev0 : Dev} (h : Hw) (st : Status) (k_h : HwAfter dev0 h) :
    HwAfter dev0 (testEnd h st) := by
  simp +contextual (maxDischargeDepth := 50) [testEnd, k_h]

@[simp] theorem testWrite_after {dev0 : Dev} (d : Dev) (k_d : After dev0 d) :
    After dev0 (testWrite d) := by
  simp +contextual (maxDischargeDepth := 50) [testWrite, k_d]

@[simp] theorem testRead_after {dev0 : Dev} (d : Dev) (k_d : After dev0 d) :
    After dev0 (testRead d) := by
  simp +contextual (maxDischargeDepth := 50) [testRead, k_d]

@[simp] theorem dramcEnable_after {dev0 : Dev} (en : Bool) (d : Dev) (k_d : After dev0 d) :
    After dev0 (dramcEnable en d) := by
  simp +contextual (maxDischargeDepth := 50) [dramcEnable, k_d]

@[simp] theorem dramcInit_after {dev0 : Dev} (d : Dev) (k_d : After dev0 d) :
    After dev0 (dramcInit d) := by
  simp +contextual (maxDischargeDepth := 50) [dramcInit, k_d]

@[simp] theorem dramcInitDone_after {dev0 : Dev} (d : Dev) (k_d : After dev0 d) :
    After dev0 (dramcInitDone d) := by
  simp +contextual (maxDischargeDepth := 50) [dramcInitDone, k_d]

@[simp] theorem dramTrained_after {dev0 : Dev} (k : Nat) (d : Dev) (k_d : After dev0 d) :
    After dev0 (dramTrained k d) := by
  simp +contextual (maxDischargeDepth := 50) [dramTrained, k_d]

@[simp] theorem dramTrainFail_after {dev0 : Dev} (k : Nat) (d : Dev) (k_d : After dev0 d) :
    After dev0 (dramTrainFail k d) := by
  simp +contextual (maxDischargeDepth := 50) [dramTrainFail, k_d]

@[simp] theorem dramcCtrlWrite_after {dev0 : Dev} (v : Word) (d : Dev) (k_d : After dev0 d) :
    After dev0 (dramcCtrlWrite v d) := by
  simp +contextual (maxDischargeDepth := 50) [dramcCtrlWrite, k_d]

end Sys2Proof.Machine
end

