-- ==== Sys2Proof/Laws/KeepCurdPool.lean ====
section
/-!
SUPPORT. What the operations of Machine/CurdPool.lean keep: one lemma per operation, that its result can follow what its argument can follow.
-/

set_option linter.unusedSimpArgs false
set_option maxRecDepth 4000

namespace Sys2Proof.Machine

@[simp] theorem itemPut_after {dev0 : Dev} (h : Hw) (slot m : Nat) (x : Item) (k_h : HwAfter dev0 h) :
    HwAfter dev0 (itemPut h slot m x) := by
  simp +contextual (maxDischargeDepth := 50) [itemPut, k_h]

@[simp] theorem itemWrite_after {dev0 : Dev} (h : Hw) (slot m off : Nat) (v : Word) (k_h : HwAfter dev0 h) :
    HwAfter dev0 (itemWrite h slot m off v).2 := by
  simp +contextual (maxDischargeDepth := 50) [itemWrite, k_h]

@[simp] theorem itemComplete_after {dev0 : Dev} (h : Hw) (slot m : Nat) (k_h : HwAfter dev0 h) :
    HwAfter dev0 (itemComplete h slot m).2 := by
  simp +contextual (maxDischargeDepth := 50) [itemComplete, k_h]

@[simp] theorem itemFlush_after {dev0 : Dev} (h : Hw) (slot m : Nat) (k_h : HwAfter dev0 h) :
    HwAfter dev0 (itemFlush h slot m).2 := by
  simp +contextual (maxDischargeDepth := 50) [itemFlush, k_h]

@[simp] theorem curdFlush_after {dev0 : Dev} (m : Nat) (d : Dev) (k_d : After dev0 d) :
    After dev0 (curdFlush m d) := by
  simp +contextual (maxDischargeDepth := 50) [curdFlush, k_d]

@[simp] theorem flushMaster_after {dev0 : Dev} (m : Nat) (h : Hw) (k_h : HwAfter dev0 h) :
    HwAfter dev0 (flushMaster m h) := by
  simp +contextual (maxDischargeDepth := 50) [flushMaster, k_h]

@[simp] theorem curdEnable_after {dev0 : Dev} (d : Dev) (k_d : After dev0 d) :
    After dev0 (curdEnable d) := by
  simp +contextual (maxDischargeDepth := 50) [curdEnable, k_d]

@[simp] theorem curdCtrlWrite_after {dev0 : Dev} (v : Word) (d : Dev) (k_d : After dev0 d) :
    After dev0 (curdCtrlWrite v d) := by
  simp +contextual (maxDischargeDepth := 50) [curdCtrlWrite, k_d]

@[simp] theorem curdPut_after {dev0 : Dev} (act lo hi : Nat) (h : Hw) (k_h : HwAfter dev0 h) :
    HwAfter dev0 (curdPut act lo hi h) := by
  simp +contextual (maxDischargeDepth := 50) [curdPut, k_h]

@[simp] theorem curdFill_after {dev0 : Dev} (c i : Nat) (atInit : Bool) (d : Dev) (k_d : After dev0 d) :
    After dev0 (curdFill c i atInit d) := by
  unfold curdFill
  simp_all +contextual (maxDischargeDepth := 50)

@[simp] theorem curdJoin_after {dev0 : Dev} (c i : Nat) (d : Dev) (k_d : After dev0 d) :
    After dev0 (curdJoin c i d) := by
  simp +contextual (maxDischargeDepth := 50) [curdJoin, k_d]

@[simp] theorem curdInitClass_after {dev0 : Dev} (c n i : Nat) (d : Dev) (k_d : After dev0 d) :
    After dev0 (curdInitClass c n i d) := by
  induction n generalizing i d with
  | zero => exact k_d
  | succ n ih =>
    unfold curdInitClass
    exact ih _ _ (curdJoin_after _ _ _ (curdFill_after _ _ _ _ k_d))

@[simp] theorem curdInitEnd_after {dev0 : Dev} (d : Dev) (k_d : After dev0 d) :
    After dev0 (curdInitEnd d) := by
  simp +contextual (maxDischargeDepth := 50) [curdInitEnd, k_d]

@[simp] theorem curdGrant_after {dev0 : Dev} (m n : Nat) (nofall : Bool) (d : Dev) (k_d : After dev0 d) :
    After dev0 (curdGrant m n nofall d).2 := by
  unfold curdGrant
  simp +contextual (maxDischargeDepth := 50) [k_d]
  (repeat' split) <;> simp_all +contextual (maxDischargeDepth := 50)

@[simp] theorem curdFail_after {dev0 : Dev} (st : Status) (op m p : Nat) (d : Dev) (k_d : After dev0 d) :
    After dev0 (curdFail st op m p d).2 := by
  simp +contextual (maxDischargeDepth := 50) [curdFail, k_d]

@[simp] theorem curdOp_after {dev0 : Dev} (op m p g : Nat) (d : Dev) (k_d : After dev0 d) :
    After dev0 (curdOp op m p g d).2 := by
  unfold curdOp
  simp +contextual (maxDischargeDepth := 50) [k_d]
  (repeat' split) <;> simp_all +contextual (maxDischargeDepth := 50)

@[simp] theorem curdReleaseDone_after {dev0 : Dev} (p : Nat) (d : Dev) (k_d : After dev0 d) :
    After dev0 (curdReleaseDone p d) := by
  unfold curdReleaseDone
  simp +contextual (maxDischargeDepth := 50) [k_d]
  (repeat' split) <;> simp_all +contextual (maxDischargeDepth := 50)

@[simp] theorem curdRespond_after {dev0 : Dev} (m : Nat) (a : CurdAns) (h : Hw) (k_h : HwAfter dev0 h) :
    HwAfter dev0 (curdRespond m a h) := by
  simp +contextual (maxDischargeDepth := 50) [curdRespond, k_h]

@[simp] theorem curdExec_after {dev0 : Dev} (m : Nat) (cmd : Word) (ptr : Nat) (full : Bool) (d : Dev) (k_d : After dev0 d) :
    After dev0 (curdExec m cmd ptr full d).2 := by
  simp +contextual (maxDischargeDepth := 50) [curdExec, k_d]

@[simp] theorem curdCmdWrite_after {dev0 : Dev} (m : Nat) (v : Word) (d : Dev) (k_d : After dev0 d) :
    After dev0 (curdCmdWrite m v d).2 := by
  unfold curdCmdWrite
  simp +contextual (maxDischargeDepth := 50) [k_d]
  (repeat' split) <;> simp_all +contextual (maxDischargeDepth := 50)

@[simp] theorem curdHw_after {dev0 : Dev} (m : Nat) (cmd : Word) (ptr : Nat) (d : Dev) (k_d : After dev0 d) :
    After dev0 (curdHw m cmd ptr d) := by
  simp +contextual (maxDischargeDepth := 50) [curdHw, k_d]

@[simp] theorem curdRetry_after {dev0 : Dev} (d : Dev) (k_d : After dev0 d) :
    After dev0 (curdRetry d) := by
  unfold curdRetry
  (repeat' split) <;> simp_all +contextual (maxDischargeDepth := 50)

end Sys2Proof.Machine
end

