-- ==== Sys2Proof/Laws/KeepCrypto.lean ====
section
/-!
SUPPORT. What the operations of Machine/Crypto.lean keep: one lemma per operation, that its result can follow what its argument can follow.
-/

set_option linter.unusedSimpArgs false
set_option maxRecDepth 4000

namespace Sys2Proof.Machine

@[simp] theorem kvRespond_after {dev0 : Dev} (m : Nat) (a : KvAns) (d : Dev) (k_d : After dev0 d) :
    After dev0 (kvRespond m a d) := by
  simp +contextual (maxDischargeDepth := 50) [kvRespond, k_d]

@[simp] theorem kvGenerate_after {dev0 : Dev} (n type scope kennel : Nat) (d : Dev) (k_d : After dev0 d) :
    After dev0 (kvGenerate n type scope kennel d).2 := by
  unfold kvGenerate
  simp +contextual (maxDischargeDepth := 50) [k_d]
  (repeat' split) <;> simp_all +contextual (maxDischargeDepth := 50)

@[simp] theorem kvCtrlWrite_after {dev0 : Dev} (v : Word) (d : Dev) (k_d : After dev0 d) :
    After dev0 (kvCtrlWrite v d) := by
  simp +contextual (maxDischargeDepth := 50) [kvCtrlWrite, k_d]

@[simp] theorem keyAreaErase_after {dev0 : Dev} (d : Dev) (k_d : After dev0 d) :
    After dev0 (keyAreaErase d) := by
  simp +contextual (maxDischargeDepth := 50) [keyAreaErase, k_d]

@[simp] theorem jobStart_after {dev0 : Dev} (k m op : Nat) (x : Item) (d : Dev) (k_d : After dev0 d) :
    After dev0 (jobStart k m op x d) := by
  simp +contextual (maxDischargeDepth := 50) [jobStart, k_d]

@[simp] theorem jgoWrite_after {dev0 : Dev} (k m : Nat) (d : Dev) (k_d : After dev0 d) :
    After dev0 (jgoWrite k m d).2 := by
  unfold jgoWrite
  simp +contextual (maxDischargeDepth := 50) [k_d]
  (repeat' split) <;> simp_all +contextual (maxDischargeDepth := 50)

@[simp] theorem cipherCount_after {dev0 : Dev} (k len : Nat) (d : Dev) (k_d : After dev0 d) :
    After dev0 (cipherCount k len d) := by
  simp +contextual (maxDischargeDepth := 50) [cipherCount, k_d]

@[simp] theorem sigvGo_after {dev0 : Dev} (d : Dev) (k_d : After dev0 d) :
    After dev0 (sigvGo d) := by
  simp +contextual (maxDischargeDepth := 50) [sigvGo, k_d]

@[simp] theorem sigvDone_after {dev0 : Dev} (d : Dev) (k_d : After dev0 d) :
    After dev0 (sigvDone d) := by
  unfold sigvDone
  (repeat' split) <;> simp_all +contextual (maxDischargeDepth := 50)

@[simp] theorem putDigest_after {dev0 : Dev} (h : Hw) (g : BitVec 384) (k_h : HwAfter dev0 h) :
    HwAfter dev0 (putDigest h g) := by
  simp +contextual (maxDischargeDepth := 50) [putDigest, k_h]

@[simp] theorem sigvHashDone_after {dev0 : Dev} (d : Dev) (k_d : After dev0 d) :
    After dev0 (sigvHashDone d) := by
  unfold sigvHashDone
  (repeat' split) <;> simp_all +contextual (maxDischargeDepth := 50)

end Sys2Proof.Machine
end

