-- ==== Sys2Proof/Laws/KeepRindStore.lean ====
section
/-!
SUPPORT. What the operations of Machine/RindStore.lean keep: one lemma per operation, that its result can follow what its argument can follow.
-/

set_option linter.unusedSimpArgs false
set_option maxRecDepth 4000

namespace Sys2Proof.Machine

@[simp] theorem rindEndCode_after {dev0 : Dev} (op addr code : Nat) (d : Dev) (k_d : After dev0 d) :
    After dev0 (rindEndCode op addr code d) := by
  simp +contextual (maxDischargeDepth := 50) [rindEndCode, k_d]

@[simp] theorem rindEndOp_after {dev0 : Dev} (op addr : Nat) (st : Status) (d : Dev) (k_d : After dev0 d) :
    After dev0 (rindEndOp op addr st d) := by
  simp +contextual (maxDischargeDepth := 50) [rindEndOp, k_d]

@[simp] theorem rindAbort_after {dev0 : Dev} (r : RindOp) (d : Dev) (k_d : After dev0 d) :
    After dev0 (rindAbort r d) := by
  simp +contextual (maxDischargeDepth := 50) [rindAbort, k_d]

@[simp] theorem rindStart_after {dev0 : Dev} (op addr : Nat) (data : List Byte) (st : Status) (d : Dev) (k_d : After dev0 d) :
    After dev0 (rindStart op addr data st d) := by
  simp +contextual (maxDischargeDepth := 50) [rindStart, k_d]

@[simp] theorem rindCmd_after {dev0 : Dev} (op : Nat) (d : Dev) (k_d : After dev0 d) :
    After dev0 (rindCmd op d) := by
  unfold rindCmd
  dsimp only
  (repeat' split) <;> simp +contextual (maxDischargeDepth := 50) [k_d]

@[simp] theorem rindOpDone_after {dev0 : Dev} (d : Dev) (k_d : After dev0 d) :
    After dev0 (rindOpDone d) := by
  unfold rindOpDone
  dsimp only
  (repeat' split) <;> simp +contextual (maxDischargeDepth := 50) [k_d]

@[simp] theorem windowTouch_after {dev0 : Dev} (m off size : Nat) (h : Hw) (k_h : HwAfter dev0 h) :
    HwAfter dev0 (windowTouch m off size h) := by
  simp +contextual (maxDischargeDepth := 50) [windowTouch, k_h]

@[simp] theorem rdstatWrite_after {dev0 : Dev} (m : Nat) (v : Word) (d : Dev) (k_d : After dev0 d) :
    After dev0 (rdstatWrite m v d) := by
  simp +contextual (maxDischargeDepth := 50) [rdstatWrite, k_d]

@[simp] theorem sjWrite_after {dev0 : Dev} (k : Nat) (p : List Byte) (d : Dev) (k_d : After dev0 d) :
    After dev0 (sjWrite k p d) := by
  simp +contextual (maxDischargeDepth := 50) [sjWrite, k_d]

@[simp] theorem sjPut_after {dev0 : Dev} (type key : Nat) (p : List Byte) (d : Dev) (k_d : After dev0 d) :
    After dev0 (sjPut type key p d) := by
  simp +contextual (maxDischargeDepth := 50) [sjPut, k_d]

@[simp] theorem sjDelete_after {dev0 : Dev} (type key : Nat) (d : Dev) (k_d : After dev0 d) :
    After dev0 (sjDelete type key d) := by
  simp +contextual (maxDischargeDepth := 50) [sjDelete, k_d]

@[simp] theorem sjFlushHeld_after {dev0 : Dev} (t : List (Nat × List Byte)) (d : Dev) (k_d : After dev0 d) : After dev0 (sjFlushHeld t d) := by
  induction t generalizing d with
  | nil => exact k_d
  | cons w ws ih => exact ih _ (sjWrite_after _ _ _ k_d)

@[simp] theorem sjCompact_after {dev0 : Dev} (d : Dev) (k_d : After dev0 d) :
    After dev0 (sjCompact d) := by
  simp +contextual (maxDischargeDepth := 50) [sjCompact, k_d]

@[simp] theorem sjLoad_after {dev0 : Dev} (d : Dev) (k_d : After dev0 d) :
    After dev0 (sjLoad d) := by
  simp +contextual (maxDischargeDepth := 50) [sjLoad, k_d]

@[simp] theorem keyAreaWrite_after {dev0 : Dev} (off : Nat) (bs : List Byte) (d : Dev) (k_d : After dev0 d) :
    After dev0 (keyAreaWrite off bs d) := by
  simp +contextual (maxDischargeDepth := 50) [keyAreaWrite, k_d]

@[simp] theorem keyAreaPut_after {dev0 : Dev} (off : Nat) (bs : List Byte) (d : Dev) (k_d : After dev0 d) :
    After dev0 (keyAreaPut off bs d) := by
  simp +contextual (maxDischargeDepth := 50) [keyAreaPut, k_d]

@[simp] theorem keyFlushHeld_after {dev0 : Dev} (d : Dev) (k_d : After dev0 d) :
    After dev0 (keyFlushHeld d) := by
  simp +contextual (maxDischargeDepth := 50) [keyFlushHeld, k_d]

end Sys2Proof.Machine
end

