-- ==== Sys2Proof/Laws/KeepMedia.lean ====
section
/-!
SUPPORT. What the operations of Machine/Media.lean keep: one lemma per operation, that its result can follow what its argument can follow.
-/

set_option linter.unusedSimpArgs false
set_option maxRecDepth 4000

namespace Sys2Proof.Machine

@[simp] theorem diePut_after {dev0 : Dev} (d : Dev) (n : Nat) (x : Die) (k_d : After dev0 d) :
    After dev0 (diePut d n x) := by
  simp +contextual (maxDischargeDepth := 50) [diePut, k_d]

@[simp] theorem chanPut_after {dev0 : Dev} (d : Dev) (n : Nat) (x : Chan) (k_d : After dev0 d) :
    After dev0 (chanPut d n x) := by
  simp +contextual (maxDischargeDepth := 50) [chanPut, k_d]

@[simp] theorem detPut_after {dev0 : Dev} (d : Dev) (n : Nat) (x : Det) (k_d : After dev0 d) :
    After dev0 (detPut d n x) := by
  simp +contextual (maxDischargeDepth := 50) [detPut, k_d]

@[simp] theorem runPut_after {dev0 : Dev} (d : Dev) (r : Nat) (x : Run) (k_d : After dev0 d) :
    After dev0 (runPut d r x) := by
  simp +contextual (maxDischargeDepth := 50) [runPut, k_d]

@[simp] theorem blkPut_after {dev0 : Dev} (d : Dev) (die b : Nat) (x : Blk) (k_d : After dev0 d) :
    After dev0 (blkPut d die b x) := by
  simp +contextual (maxDischargeDepth := 50) [blkPut, k_d]

@[simp] theorem sbPut_after {dev0 : Dev} (d : Dev) (n : Nat) (x : Sb) (k_d : After dev0 d) :
    After dev0 (sbPut d n x) := by
  simp +contextual (maxDischargeDepth := 50) [sbPut, k_d]

@[simp] theorem jput_after {dev0 : Dev} (r : JRec) (d : Dev) (k_d : After dev0 d) :
    After dev0 (jput r d) := by
  simp +contextual (maxDischargeDepth := 50) [jput, k_d]

@[simp] theorem seqTake_after {dev0 : Dev} (d : Dev) (k_d : After dev0 d) :
    After dev0 (seqTake d).2 := by
  simp +contextual (maxDischargeDepth := 50) [seqTake, k_d]

@[simp] theorem dirtyAdd_after {dev0 : Dev} (n : Nat) (d : Dev) (k_d : After dev0 d) :
    After dev0 (dirtyAdd n d) := by
  simp +contextual (maxDischargeDepth := 50) [dirtyAdd, k_d]

@[simp] theorem dirtySub_after {dev0 : Dev} (n : Nat) (d : Dev) (k_d : After dev0 d) :
    After dev0 (dirtySub n d) := by
  simp +contextual (maxDischargeDepth := 50) [dirtySub, k_d]

@[simp] theorem jobAdd_after {dev0 : Dev} (die : Nat) (serves : JobFor) (erase slc : Bool) (block wl : Nat) (d : Dev) (k_d : After dev0 d) :
    After dev0 (jobAdd die serves erase slc block wl d) := by
  simp +contextual (maxDischargeDepth := 50) [jobAdd, k_d]

@[simp] theorem fdpCount_after {dev0 : Dev} (host media erased : Nat) (d : Dev) (k_d : After dev0 d) :
    After dev0 (fdpCount host media erased d) := by
  simp +contextual (maxDischargeDepth := 50) [fdpCount, k_d]

@[simp] theorem fdpEvent_after {dev0 : Dev} (type group handle nsid blocks : Nat) (d : Dev) (k_d : After dev0 d) :
    After dev0 (fdpEvent type group handle nsid blocks d) := by
  simp +contextual (maxDischargeDepth := 50) [fdpEvent, k_d]

@[simp] theorem eraseAdd_after {dev0 : Dev} (die b : Nat) (d : Dev) (k_d : After dev0 d) :
    After dev0 (eraseAdd die b d) := by
  simp +contextual (maxDischargeDepth := 50) [eraseAdd, k_d]

@[simp] theorem sbErase_after {dev0 : Dev} (n : Nat) (d : Dev) (k_d : After dev0 d) :
    After dev0 (sbErase n d) := by
  unfold sbErase
  (repeat' split) <;> simp_all +contextual (maxDischargeDepth := 50)

@[simp] theorem openBlocks_after {dev0 : Dev} (id : Nat) (s : Sb) (d : Dev) (k_d : After dev0 d) :
    After dev0 (openBlocks id s d) := by
  simp +contextual (maxDischargeDepth := 50) [openBlocks, k_d]

@[simp] theorem floorCheck_after {dev0 : Dev} (p : Nat) (d : Dev) (k_d : After dev0 d) :
    After dev0 (floorCheck p d) := by
  simp +contextual (maxDischargeDepth := 50) [floorCheck, k_d]

@[simp] theorem takeBlocks_after {dev0 : Dev} (reserve : Bool) (ns : List Nat) (d : Dev) (k_d : After dev0 d) :
    After dev0 (takeBlocks reserve ns d).2 := by
  induction ns generalizing d with
  | nil => exact k_d
  | cons n ns ih =>
    unfold takeBlocks
    split
    · exact ih _ k_d
    · exact ih _ (blkPut_after _ _ _ _ k_d)

theorem sbOpenIn_after {dev0 : Dev} {type nsid kennel pack w zslba handle source : Nat} {set : Nat × List Nat} {d : Dev} {r : Nat × Dev}
    (k_d : After dev0 d) (h : sbOpenIn type nsid kennel pack w zslba handle source set d = some r) : After dev0 r.2 := by
  unfold sbOpenIn at h
  dsimp only at h
  split at h
  · cases h
  · cases h
    have k : ∀ id (s : Sb), After dev0 (openBlocks id s (sbPut (seqTake (takeBlocks (fromReserve type source) set.2 d).2).2 id s)) :=
      fun _ _ => openBlocks_after _ _ _ (sbPut_after _ _ _ (seqTake_after _ (takeBlocks_after _ _ _ k_d)))
    exact after_ite (k _ _) (after_foldl (fun x p kx => floorCheck_after _ _ kx) (k _ _))

theorem sbOpen_after {dev0 : Dev} {type nsid kennel pack w zslba handle source : Nat} {d : Dev} {r : Nat × Dev} (k_d : After dev0 d)
    (h : sbOpen type nsid kennel pack w zslba handle source d = some r) : After dev0 r.2 := by
  obtain ⟨set, -, hs⟩ := Option.bind_eq_some_iff.1 h
  exact sbOpenIn_after k_d hs

@[simp] theorem pilotJobs_after {dev0 : Dev} (id : Nat) (s : Sb) (d : Dev) (k_d : After dev0 d) :
    After dev0 (pilotJobs id s d) := by
  simp +contextual (maxDischargeDepth := 50) [pilotJobs, k_d]

@[simp] theorem rowJobs_after {dev0 : Dev} (id row : Nat) (s : Sb) (d : Dev) (k_d : After dev0 d) :
    After dev0 (rowJobs id row s d) := by
  simp +contextual (maxDischargeDepth := 50) [rowJobs, k_d]

@[simp] theorem rowsQueue_after {dev0 : Dev} (id n : Nat) (d : Dev) (k_d : After dev0 d) :
    After dev0 (rowsQueue id n d) := by
  induction n generalizing d with
  | zero => exact k_d
  | succ n ih =>
    unfold rowsQueue
    split
    · exact k_d
    · exact after_ite (ih _ (rowJobs_after _ _ _ _ k_d)) k_d

@[simp] theorem rowReady_after {dev0 : Dev} (id k : Nat) (d : Dev) (k_d : After dev0 d) :
    After dev0 (rowReady id k d) := by
  unfold rowReady
  (repeat' split) <;> simp_all +contextual (maxDischargeDepth := 50)

@[simp] theorem rowRelease_after {dev0 : Dev} (id row : Nat) (d : Dev) (k_d : After dev0 d) :
    After dev0 (rowRelease id row d) := by
  unfold rowRelease
  (repeat' split) <;> simp_all +contextual (maxDischargeDepth := 50)

@[simp] theorem rowStep_after {dev0 : Dev} (id row : Nat) (d : Dev) (k_d : After dev0 d) :
    After dev0 (rowStep id row d) := by
  unfold rowStep
  (repeat' split) <;> simp_all +contextual (maxDischargeDepth := 50)

@[simp] theorem rowHold_after {dev0 : Dev} (id row n : Nat) (d : Dev) (k_d : After dev0 d) :
    After dev0 (rowHold id row n d) := by
  unfold rowHold
  (repeat' split) <;> simp_all +contextual (maxDischargeDepth := 50)

@[simp] theorem unitRecord_after {dev0 : Dev} (type n st : Nat) (d : Dev) (k_d : After dev0 d) :
    After dev0 (unitRecord type n st d) := by
  simp +contextual (maxDischargeDepth := 50) [unitRecord, k_d]

@[simp] theorem unitEvent_after {dev0 : Dev} (type n st who : Nat) (d : Dev) (k_d : After dev0 d) :
    After dev0 (unitEvent type n st who d) := by
  simp +contextual (maxDischargeDepth := 50) [unitEvent, k_d]

@[simp] theorem jobsMove_after {dev0 : Dev} (die sb i : Nat) (dst : Nat × Nat) (d : Dev) (k_d : After dev0 d) :
    After dev0 (jobsMove die sb i dst d) := by
  simp +contextual (maxDischargeDepth := 50) [jobsMove, k_d]

@[simp] theorem memberReplace_after {dev0 : Dev} (sb i row oldDie oldBlk : Nat) (dst : Nat × Nat) (d : Dev) (k_d : After dev0 d) :
    After dev0 (memberReplace sb i row oldDie oldBlk dst d) := by
  unfold memberReplace
  (repeat' split) <;> simp_all +contextual (maxDischargeDepth := 50)

@[simp] theorem rebuildStart_after {dev0 : Dev} (die : Nat) (d : Dev) (k_d : After dev0 d) : After dev0 (rebuildStart die d) := by
  unfold rebuildStart
  dsimp only
  have k := after_foldl (e := dev0) (f := fun x m =>
    match sbGet x m.1 with
    | none => x
    | some s =>
      match rebuildBlk x s die with
      | none => x
      | some dst =>
        { memberReplace m.1 m.2.1 m.2.2.1 die m.2.2.2 dst x with
          med := { (memberReplace m.1 m.2.1 m.2.2.1 die m.2.2.2 dst x).med with
            rebuilds := tabPut (memberReplace m.1 m.2.1 m.2.2.1 die m.2.2.2 dst x).med.rebuilds (packOf die)
              { tabGetD (memberReplace m.1 m.2.1 m.2.2.1 die m.2.2.2 dst x).med.rebuilds (packOf die) Rebuild.none with
                left := rebuildOrder (memberReplace m.1 m.2.1 m.2.2.1 die m.2.2.2 dst x)
                  ((tabGetD (memberReplace m.1 m.2.1 m.2.2.1 die m.2.2.2 dst x).med.rebuilds (packOf die) Rebuild.none).left
                    ++ unitsOn x m.1 die) } } }) (l := membersOn d die) (fun x m kx => ?_) k_d
  · exact ⟨k.1, wr_after _ _ _ k.2⟩
  · split
    · exact kx
    · split
      · exact kx
      · exact ⟨(memberReplace_after _ _ _ _ _ _ _ kx).1, (memberReplace_after _ _ _ _ _ _ _ kx).2⟩

@[simp] theorem dieRetireCheck_after {dev0 : Dev} (die : Nat) (d : Dev) (k_d : After dev0 d) :
    After dev0 (dieRetireCheck die d) := by
  simp +contextual (maxDischargeDepth := 50) [dieRetireCheck, k_d]

@[simp] theorem queuePut_after {dev0 : Dev} (q : List RefEnt) (d : Dev) (k_d : After dev0 d) :
    After dev0 (queuePut q d) := by
  simp +contextual (maxDischargeDepth := 50) [queuePut, k_d]

@[simp] theorem refQueueOne_after {dev0 : Dev} (key : Nat) (urgent : Bool) (cross : Option Nat) (d : Dev) (k_d : After dev0 d) :
    After dev0 (refQueueOne key urgent cross d) := by
  unfold refQueueOne
  (repeat' split) <;> simp_all +contextual (maxDischargeDepth := 50)

@[simp] theorem refGroupPut_after {dev0 : Dev} (fst : Nat × Sb) (d : Dev) (k_d : After dev0 d) : After dev0 (refGroupPut fst d) := by
  unfold refGroupPut
  refine after_ite k_d ?_
  split
  · exact k_d
  · refine after_foldl (fun x q kx => ?_) k_d
    split
    · exact queuePut_after _ _ kx
    · exact after_foldl (fun y o ky => after_ite (queuePut_after _ _ ky) ky) kx

@[simp] theorem refQueue_after {dev0 : Dev} (key : Nat) (urgent : Bool) (cross : Option Nat) (d : Dev) (k_d : After dev0 d) :
    After dev0 (refQueue key urgent cross d) := by
  unfold refQueue
  simp +contextual (maxDischargeDepth := 50) [k_d]
  (repeat' split) <;> simp_all +contextual (maxDischargeDepth := 50)

@[simp] theorem blkRetire_after {dev0 : Dev} (die b : Nat) (d : Dev) (k_d : After dev0 d) :
    After dev0 (blkRetire die b d) := by
  simp +contextual (maxDischargeDepth := 50) [blkRetire, k_d]

end Sys2Proof.Machine
end

