-- ==== Sys2Proof/Laws/KeepCodewords.lean ====
section
/-!
SUPPORT. What the operations of Machine/Codewords.lean keep: one lemma per operation, that its result can follow what its argument can follow.
-/

set_option linter.unusedSimpArgs false
set_option maxRecDepth 4000

namespace Sys2Proof.Machine

@[simp] theorem mapuMod_after {dev0 : Dev} (f : Mapu → Mapu) (d : Dev) (k_d : After dev0 d) :
    After dev0 (mapuMod f d) := by
  simp +contextual (maxDischargeDepth := 50) [mapuMod, k_d]

end Sys2Proof.Machine
end

