-- ==== Sys2Proof/Laws/KeepVolume.lean ====
section
/-!
SUPPORT. What the operations of Machine/Volume.lean keep: one lemma per operation, that its result can follow what its argument can follow.
-/

set_option linter.unusedSimpArgs false
set_option maxRecDepth 4000

namespace Sys2Proof.Machine

theorem volBlock_after {dev0 : Dev} {die : Nat} {d : Dev} {r : Nat × Dev} (k_d : After dev0 d) (h : volBlock die d = some r) :
    After dev0 r.2 := by
  obtain ⟨b, -, rfl⟩ := Option.map_eq_some_iff.1 h
  exact blkPut_after _ _ _ _ k_d

@[simp] theorem replicaWrite_after {dev0 : Dev} (p i : Nat) (d : Dev) (k_d : After dev0 d) : After dev0 (replicaWrite p i d) := by
  unfold replicaWrite
  dsimp only
  split
  · exact k_d
  · split
    · exact ⟨k_d.1, k_d.2⟩
    · split
      · exact k_d
      · rename_i h
        have k := volBlock_after k_d h
        split
        · exact eraseAdd_after _ _ _ ⟨k.1, k.2⟩
        · exact ⟨k.1, k.2⟩

@[simp] theorem replicasEach_after {dev0 : Dev} (f : Nat → Nat → Dev → Dev) (d : Dev) (hf : ∀ p i x, After dev0 x → After dev0 (f p i x))
    (k_d : After dev0 d) : After dev0 (replicasEach f d) :=
  after_foldl (fun _ _ k => after_foldl (fun _ _ k => hf _ _ _ k) k) k_d

@[simp] theorem volWrite_after {dev0 : Dev} (d : Dev) (k_d : After dev0 d) :
    After dev0 (volWrite d) := by
  simp +contextual (maxDischargeDepth := 50) [volWrite, k_d]

@[simp] theorem replicaMend_after {dev0 : Dev} (p i : Nat) (d : Dev) (k_d : After dev0 d) :
    After dev0 (replicaMend p i d) := by
  unfold replicaMend
  (repeat' split) <;> simp_all +contextual (maxDischargeDepth := 50)

@[simp] theorem volMend_after {dev0 : Dev} (d : Dev) (k_d : After dev0 d) :
    After dev0 (volMend d) := by
  simp +contextual (maxDischargeDepth := 50) [volMend, k_d]

@[simp] theorem volTake_after {dev0 : Dev} (d : Dev) (k_d : After dev0 d) :
    After dev0 (volTake d) := by
  unfold volTake
  (repeat' split) <;> simp_all +contextual (maxDischargeDepth := 50)

end Sys2Proof.Machine
end

