-- ==== Sys2Proof/Laws/KeepJournal.lean ====
section
/-!
SUPPORT. What the operations of Machine/Journal.lean keep: one lemma per operation, that its result can follow what its argument can follow.
-/

set_option linter.unusedSimpArgs false
set_option maxRecDepth 4000

namespace Sys2Proof.Machine

@[simp] theorem doom_after {dev0 : Dev} (sb : Nat) (d : Dev) (k_d : After dev0 d) :
    After dev0 (doom sb d) := by
  simp +contextual (maxDischargeDepth := 50) [doom, k_d]

@[simp] theorem doomCheck_after {dev0 : Dev} (d : Dev) (k_d : After dev0 d) :
    After dev0 (doomCheck d) := by
  simp +contextual (maxDischargeDepth := 50) [doomCheck, k_d]

@[simp] theorem journalBlock_after {dev0 : Dev} (die b : Nat) (d : Dev) (k_d : After dev0 d) :
    After dev0 (journalBlock die b d) := by
  simp +contextual (maxDischargeDepth := 50) [journalBlock, k_d]

@[simp] theorem pairOpen_after {dev0 : Dev} (d : Dev) (k_d : After dev0 d) :
    After dev0 (pairOpen d) := by
  simp +contextual (maxDischargeDepth := 50) [pairOpen, k_d]

@[simp] theorem pairsOpen_after {dev0 : Dev} (n : Nat) (d : Dev) (k_d : After dev0 d) : After dev0 (pairsOpen n d) := by
  induction n generalizing d with
  | zero => exact k_d
  | succ n ih => exact ih _ (pairOpen_after _ k_d)

@[simp] theorem pairsLeave_after {dev0 : Dev} (gone : LanePair → Bool) (d : Dev) (k_d : After dev0 d) :
    After dev0 (pairsLeave gone d) := by
  simp +contextual (maxDischargeDepth := 50) [pairsLeave, k_d]

@[simp] theorem jTail_after {dev0 : Dev} (d : Dev) (k_d : After dev0 d) :
    After dev0 (jTail d) := by
  unfold jTail
  (repeat' split) <;> simp_all +contextual (maxDischargeDepth := 50)

@[simp] theorem jStart_after {dev0 : Dev} (rs keep : List JRec) (d : Dev) (k_d : After dev0 d) :
    After dev0 (jStart rs keep d) := by
  simp +contextual (maxDischargeDepth := 50) [jStart, k_d]

@[simp] theorem jFlush_after {dev0 : Dev} (d : Dev) (k_d : After dev0 d) :
    After dev0 (jFlush d) := by
  simp +contextual (maxDischargeDepth := 50) [jFlush, k_d]

@[simp] theorem jReclaim_after {dev0 : Dev} (d : Dev) (k_d : After dev0 d) :
    After dev0 (jReclaim d) := by
  unfold jReclaim
  simp_all +contextual (maxDischargeDepth := 50)

@[simp] theorem pairErase_after {dev0 : Dev} (d : Dev) (p : LanePair) (k_d : After dev0 d) :
    After dev0 (pairErase d p) := by
  simp +contextual (maxDischargeDepth := 50) [pairErase, k_d]

@[simp] theorem jComplete_after {dev0 : Dev} (d : Dev) (k_d : After dev0 d) :
    After dev0 (jComplete d) := by
  unfold jComplete
  (repeat' split) <;> simp_all +contextual (maxDischargeDepth := 50)

@[simp] theorem jFlushIfNeeded_after {dev0 : Dev} (d : Dev) (k_d : After dev0 d) :
    After dev0 (jFlushIfNeeded d) := by
  simp +contextual (maxDischargeDepth := 50) [jFlushIfNeeded, k_d]

@[simp] theorem jTimed_after {dev0 : Dev} (d : Dev) (k_d : After dev0 d) :
    After dev0 (jTimed d) := by
  simp +contextual (maxDischargeDepth := 50) [jTimed, k_d]

theorem gcTarget_after {dev0 : Dev} {p w nsid source : Nat} {d : Dev} {r : Nat × Dev} (k_d : After dev0 d)
    (h : gcTarget p w nsid source d = some r) : After dev0 r.2 := by
  unfold gcTarget at h
  split at h
  · cases h; exact k_d
  · split at h
    · cases h
    · cases h
      rename_i hs
      have := sbOpen_after k_d hs
      exact ⟨this.1, this.2⟩

@[simp] theorem gcCount_after {dev0 : Dev} (p w : Nat) (d : Dev) (k_d : After dev0 d) :
    After dev0 (gcCount p w d) := by
  simp +contextual (maxDischargeDepth := 50) [gcCount, k_d]

@[simp] theorem gcVictimStart_after {dev0 : Dev} (p w : Nat) (d : Dev) (k_d : After dev0 d) : After dev0 (gcVictimStart p w d) := by
  unfold gcVictimStart
  split
  · exact k_d
  · dsimp only
    split
    · exact sbErase_after _ _ k_d
    · split
      · exact k_d
      · rename_i h
        have k := gcTarget_after k_d h
        exact ⟨k.1, md_after _ _ _ k.2⟩

@[simp] theorem gcStart_after {dev0 : Dev} (p w : Nat) (d : Dev) (k_d : After dev0 d) :
    After dev0 (gcStart p w d) := by
  simp +contextual (maxDischargeDepth := 50) [gcStart, k_d]

@[simp] theorem gcAgain_after {dev0 : Dev} (d : Dev) (k_d : After dev0 d) :
    After dev0 (gcAgain d) := by
  simp +contextual (maxDischargeDepth := 50) [gcAgain, k_d]

@[simp] theorem sbPlace_after {dev0 : Dev} (sb : Nat) (c : Copy) (d : Dev) (k_d : After dev0 d) :
    After dev0 (sbPlace sb c d) := by
  unfold sbPlace
  (repeat' split) <;> simp_all +contextual (maxDischargeDepth := 50)

@[simp] theorem gcSwitch_after {dev0 : Dev} (nsid lba : Nat) (lost : Bool) (d : Dev) (k_d : After dev0 d) :
    After dev0 (gcSwitch nsid lba lost d) := by
  unfold gcSwitch
  dsimp only
  (repeat' split) <;> simp +contextual (maxDischargeDepth := 50) [k_d]

end Sys2Proof.Machine
end

