-- ==== Sys2Proof/Laws/KeepMapu.lean ====
section
/-!
SUPPORT. What the operations of Machine/Mapu.lean keep: one lemma per operation, that its result can follow what its argument can follow.
-/

set_option linter.unusedSimpArgs false
set_option maxRecDepth 4000

namespace Sys2Proof.Machine

@[simp] theorem sealSeg_after {dev0 : Dev} (seg : Nat) (d : Dev) (k_d : After dev0 d) : After dev0 (sealSeg seg d) := by
  unfold sealSeg
  dsimp only
  split
  · exact k_d
  · split
    · exact ⟨k_d.1, irq_after _ _ _ k_d.2⟩
    · exact ⟨k_d.1, irqIf_after _ _ _ _ k_d.2⟩

@[simp] theorem cacheEvict_after {dev0 : Dev} (d : Dev) (k_d : After dev0 d) : After dev0 (cacheEvict d) := by
  unfold cacheEvict
  dsimp only
  split
  · exact k_d
  · split
    · exact k_d
    · exact after_ite (after_ite (sealSeg_after _ _ k_d) k_d) (mapuMod_after _ _ (after_ite (sealSeg_after _ _ k_d) k_d))

@[simp] theorem widthRestore_after {dev0 : Dev} (p : Nat) (d : Dev) (k_d : After dev0 d) :
    After dev0 (widthRestore p d) := by
  unfold widthRestore
  (repeat' split) <;> simp_all +contextual (maxDischargeDepth := 50)

@[simp] theorem segUse_after {dev0 : Dev} (seg : Nat) (dirty : Bool) (d : Dev) (k_d : After dev0 d) : After dev0 (segUse seg dirty d) := by
  unfold segUse
  dsimp only
  have k : ∀ a f, After dev0 { d with hw := md d.hw a f } := fun a f => ⟨k_d.1, md_after _ _ _ k_d.2⟩
  refine mapuMod_after _ _ (after_ite (k _ _) ?_)
  split
  · exact widthRestore_after _ _ (cacheEvict_after _ (k _ _))
  · exact cacheEvict_after _ (k _ _)

@[simp] theorem mapKeyMake_after {dev0 : Dev} (g : Nat) (d : Dev) (k_d : After dev0 d) :
    After dev0 (mapKeyMake g d).2 := by
  simp +contextual (maxDischargeDepth := 50) [mapKeyMake, k_d]

@[simp] theorem mapuEnable_after {dev0 : Dev} (en : Bool) (d : Dev) (k_d : After dev0 d) : After dev0 (mapuEnable en d) := by
  have k := mapKeyMake_after 0 d k_d
  unfold mapuEnable
  dsimp only
  split
  · exact mapuMod_after _ _ ⟨k.1, md_after _ _ _ k.2⟩
  · exact after_ite (mapuMod_after _ _ ⟨k_d.1, md_after _ _ _ k_d.2⟩) k_d

@[simp] theorem mapuRekey_after {dev0 : Dev} (d : Dev) (k_d : After dev0 d) : After dev0 (mapuRekey d) := by
  have k := mapKeyMake_after (d.med.mapu.gen + 1) d k_d
  unfold mapuRekey
  exact after_ite k_d (mapuMod_after _ _ ⟨k.1, wr_after _ _ _ k.2⟩)

@[simp] theorem rekeyEnd_after {dev0 : Dev} (d : Dev) (k_d : After dev0 d) : After dev0 (rekeyEnd d) := by
  unfold rekeyEnd
  refine after_ite k_d ?_
  have k := after_foldl (e := dev0) (f := fun x s => if d.med.mapu.cache.any (fun e => decide (e.1 = s) && e.2) then x else sealSeg s x)
    (l := d.med.mapu.sweep) (fun x s kx => after_ite kx (sealSeg_after _ _ kx)) k_d
  exact ⟨k.1, irq_after _ _ _ (wr_after _ _ _ k.2)⟩

@[simp] theorem segWait_after {dev0 : Dev} (seg : Nat) (d : Dev) (k_d : After dev0 d) : After dev0 (segWait seg d) :=
  mapuMod_after _ _ ⟨k_d.1, k_d.2⟩

@[simp] theorem segFail_after {dev0 : Dev} (seg : Nat) (d : Dev) (k_d : After dev0 d) :
    After dev0 (segFail seg d) := by
  simp +contextual (maxDischargeDepth := 50) [segFail, k_d]

@[simp] theorem segRebuilt_after {dev0 : Dev} (seg : Nat) (d : Dev) (k_d : After dev0 d) : After dev0 (segRebuilt seg d).2 := by
  have k := sealSeg_after seg (mapuMod (fun x => { x with rebuild := x.rebuild.filter (fun s => decide (s ≠ seg)) }) d) (mapuMod_after _ _ k_d)
  exact after_snd_ite k_d ⟨k.1, irq_after _ _ _ k.2⟩

@[simp] theorem hmbRebuilt_after {dev0 : Dev} (p : Nat) (d : Dev) (k_d : After dev0 d) :
    After dev0 (hmbRebuilt p d) := by
  unfold hmbRebuilt
  (repeat' split) <;> simp_all +contextual (maxDischargeDepth := 50)

@[simp] theorem mapSet_after {dev0 : Dev} (nsid lba : Nat) (e : MapEnt) (d : Dev) (k_d : After dev0 d) :
    After dev0 (mapSet nsid lba e d) := mapuMod_after _ _ (segUse_after _ _ _ k_d)

@[simp] theorem unmapAt_after {dev0 : Dev} (nsid lba n seq : Nat) (secure : Bool) (d : Dev) (k_d : After dev0 d) :
    After dev0 (unmapAt nsid lba n seq secure d) := by
  simp +contextual (maxDischargeDepth := 50) [unmapAt, k_d]

end Sys2Proof.Machine
end

