-- ==== Sys2Proof/Laws/KeepZones.lean ====
section
/-!
SUPPORT. What the operations of Machine/Zones.lean keep: one lemma per operation, that its result can follow what its argument can follow.
-/

set_option linter.unusedSimpArgs false
set_option maxRecDepth 4000

namespace Sys2Proof.Machine

@[simp] theorem zonePut_after {dev0 : Dev} (d : Dev) (zk : Nat) (z : Zone) (k_d : After dev0 d) :
    After dev0 (zonePut d zk z) := by
  simp +contextual (maxDischargeDepth := 50) [zonePut, k_d]

@[simp] theorem zoneSet_after {dev0 : Dev} (zk : Nat) (z : Zone) (d : Dev) (k_d : After dev0 d) :
    After dev0 (zoneSet zk z d) := by
  unfold zoneSet
  (repeat' split) <;> simp_all +contextual (maxDischargeDepth := 50)

@[simp] theorem zoneBind_after {dev0 : Dev} (zk : Nat) (d : Dev) (k_d : After dev0 d) : After dev0 (zoneBind zk d) := by
  simp only [zoneBind]
  split
  · exact k_d
  · split
    · exact zoneSet_after _ _ _ k_d
    · rename_i hs
      exact zoneSet_after _ _ _ (jput_after _ _ (sbOpen_after k_d hs))

theorem parkTarget_after {dev0 : Dev} {s : Sb} {d : Dev} {r : Nat × Dev} (k_d : After dev0 d)
    (h : parkTarget s d = some r) : After dev0 r.2 := by
  unfold parkTarget at h
  split at h
  · cases h; exact k_d
  · obtain ⟨set, -, hs⟩ := Option.bind_eq_some_iff.1 h
    obtain ⟨q, hq, rfl⟩ := Option.map_eq_some_iff.1 hs
    have := sbOpenIn_after k_d hq
    exact ⟨this.1, this.2⟩

@[simp] theorem parkShut_after {dev0 : Dev} (s : Sb) (id : Nat) (d : Dev) (k_d : After dev0 d) :
    After dev0 (parkShut s id d) := by
  simp +contextual (maxDischargeDepth := 50) [parkShut, k_d]

@[simp] theorem parkPlace_after {dev0 : Dev} (s : Sb) (cs : List Copy) (d : Dev) (k_d : After dev0 d) :
    After dev0 (parkPlace s cs d).2 := by
  induction cs generalizing d with
  | nil => exact k_d
  | cons c cs ih =>
    unfold parkPlace
    split
    · exact k_d
    · rename_i ht
      exact ih _ (parkShut_after _ _ _ (rowReady_after _ _ _ (sbPlace_after _ _ _ (parkTarget_after k_d ht))))

@[simp] theorem parkPad_after {dev0 : Dev} (id n : Nat) (d : Dev) (k_d : After dev0 d) : After dev0 (parkPad id n d) := by
  induction n generalizing d with
  | zero => exact k_d
  | succ n ih =>
    simp only [parkPad]
    split
    · exact k_d
    · split
      · exact k_d
      · exact ih _ (rowReady_after _ _ _ (sbPlace_after _ _ _ k_d))

@[simp] theorem parkClose_after {dev0 : Dev} (s : Sb) (d : Dev) (k_d : After dev0 d) :
    After dev0 (parkClose s d) := by
  unfold parkClose
  (repeat' split) <;> simp_all +contextual (maxDischargeDepth := 50)

@[simp] theorem parkSweep_after {dev0 : Dev} (d : Dev) (k_d : After dev0 d) :
    After dev0 (parkSweep d) := by
  simp +contextual (maxDischargeDepth := 50) [parkSweep, k_d]

@[simp] theorem parkRelocate_after {dev0 : Dev} (id nsid lo n : Nat) (d : Dev) (k_d : After dev0 d) :
    After dev0 (parkRelocate id nsid lo n d) := by
  unfold parkRelocate
  split
  · exact k_d
  · refine after_ite k_d ?_
    have k := fun s cs => parkPlace_after s cs d k_d
    exact parkClose_after _ _ ⟨(k _ _).1, (k _ _).2⟩

@[simp] theorem parkCollect_after {dev0 : Dev} (pack : Nat) (d : Dev) (k_d : After dev0 d) :
    After dev0 (parkCollect pack d) := by
  unfold parkCollect
  simp +contextual (maxDischargeDepth := 50) [k_d]
  (repeat' split) <;> simp_all +contextual (maxDischargeDepth := 50)

@[simp] theorem parkZone_after {dev0 : Dev} (zk : Nat) (d : Dev) (k_d : After dev0 d) : After dev0 (parkZone zk d) := by
  unfold parkZone
  dsimp only
  split
  · exact k_d
  · exact after_ite k_d (after_ite k_d (parkCollect_after _ _ (zonePut_after _ _ _ (parkClose_after _ _ (parkPlace_after _ _ _ k_d)))))

@[simp] theorem parkIfDirty_after {dev0 : Dev} (d : Dev) (k_d : After dev0 d) : After dev0 (parkIfDirty d) := by
  simp only [parkIfDirty]
  refine after_foldl_snd (fun b zk k => ?_) k_d
  split
  · exact parkZone_after _ _ k
  · exact k

@[simp] theorem zoneClose_after {dev0 : Dev} (zk : Nat) (d : Dev) (k_d : After dev0 d) :
    After dev0 (zoneClose zk d) := by
  simp +contextual (maxDischargeDepth := 50) [zoneClose, k_d]

@[simp] theorem zonePad_after {dev0 : Dev} (zk sb n k : Nat) (d : Dev) (k_d : After dev0 d) : After dev0 (zonePad zk sb n k d) := by
  induction n generalizing k d with
  | zero => exact k_d
  | succ n ih =>
    simp only [zonePad]
    split
    · split
      · exact k_d
      · refine ih _ _ (rowReady_after _ _ _ ?_)
        have := seqTake_after d k_d
        exact after_mk.2 ⟨this.fuse, this.hw⟩
    · exact k_d

@[simp] theorem fdpShort_after {dev0 : Dev} (zk : Nat) (d : Dev) (k_d : After dev0 d) :
    After dev0 (fdpShort zk d) := by
  unfold fdpShort
  (repeat' split) <;> simp_all +contextual (maxDischargeDepth := 50)

@[simp] theorem zoneFinish_after {dev0 : Dev} (zk : Nat) (forced : Bool) (d : Dev) (k_d : After dev0 d) :
    After dev0 (zoneFinish zk forced d) := by
  simp +contextual (maxDischargeDepth := 50) [zoneFinish, k_d]

@[simp] theorem unqueueSb_after {dev0 : Dev} (sb : Nat) (d : Dev) (k_d : After dev0 d) :
    After dev0 (unqueueSb sb d) := by
  simp +contextual (maxDischargeDepth := 50) [unqueueSb, k_d]

@[simp] theorem moveAbandon_after {dev0 : Dev} (zk : Nat) (d : Dev) (k_d : After dev0 d) :
    After dev0 (moveAbandon zk d) := by
  unfold moveAbandon
  simp +contextual (maxDischargeDepth := 50) [k_d]
  (repeat' split) <;> simp_all +contextual (maxDischargeDepth := 50)

@[simp] theorem parkDrop_after {dev0 : Dev} (nsid lo n : Nat) (d : Dev) (k_d : After dev0 d) :
    After dev0 (parkDrop nsid lo n d) := by
  simp +contextual (maxDischargeDepth := 50) [parkDrop, k_d]

@[simp] theorem zoneReset_after {dev0 : Dev} (zk : Nat) (d : Dev) (k_d : After dev0 d) :
    After dev0 (zoneReset zk d) := by
  unfold zoneReset
  (repeat' split) <;> simp_all +contextual (maxDischargeDepth := 50)

@[simp] theorem evacuate_after {dev0 : Dev} (id : Nat) (d : Dev) (k_d : After dev0 d) : After dev0 (evacuate id d) := by
  unfold evacuate
  split
  · exact k_d
  · refine after_foldl (fun x u k => ?_) k_d
    split
    · exact k
    · rename_i x1 ht
      have k1 : After dev0 x1 := gcTarget_after k ht
      dsimp only
      split
      · exact k1
      · have k2 := fun (t q : Nat) (c : Copy) (y : Media) =>
          rowReady_after t q _ (sbPlace_after t c { x1 with med := y } ⟨k1.1, k1.2⟩)
        exact jput_after _ _ ⟨(k2 _ _ _ _).1, (k2 _ _ _ _).2⟩

@[simp] theorem secDetach_after {dev0 : Dev} (id : Nat) (d : Dev) (k_d : After dev0 d) :
    After dev0 (secDetach id d) := by
  simp +contextual (maxDischargeDepth := 50) [secDetach, k_d]

@[simp] theorem secBegin_after {dev0 : Dev} (o : SecOp) (d : Dev) (k_d : After dev0 d) : After dev0 (secBegin o d).2 := by
  unfold secBegin
  dsimp only
  refine after_foldl_third (fun b id k => ?_) k_d
  split
  · exact k
  · rename_i s _
    have k0 := secDetach_after id _ k
    have k2 : ∀ y, After dev0 y → After dev0 (if secHolds y o id s = true then (b.1 ++ [id], b.2.1, y)
        else (b.1, b.2.1 ++ sbBlocks s, sbErase id y)).2.2 := by
      intro y hy
      split
      · exact hy
      · exact sbErase_after _ _ hy
    exact k2 _ (after_ite (parkRelocate_after id o.nsid o.lba o.n _ k0) (after_ite k0 (evacuate_after id _ k0)))

@[simp] theorem secAdvance_after {dev0 : Dev} (d : Dev) (k_d : After dev0 d) : After dev0 (secAdvance d) := by
  have := after_foldl_snd (l := d.med.secure) (b := (([] : List SecOp), d)) (f := fun b o =>
    if b.1.any (fun e => secMeet e o) || !o.ready || secBehind d o || (o.started && o.sbs.isEmpty) then (b.1 ++ [o], b.2)
    else (b.1 ++ [(secBegin o b.2).1], (secBegin o b.2).2)) (e := dev0)
    (fun b o k => after_snd_ite k (secBegin_after _ _ k)) k_d
  exact ⟨this.1, this.2⟩

@[simp] theorem secureMark_after {dev0 : Dev} (zk tag : Nat) (d : Dev) (k_d : After dev0 d) :
    After dev0 (secureMark zk tag d) := by
  unfold secureMark
  simp +contextual (maxDischargeDepth := 50) [k_d]
  (repeat' split) <;> simp_all +contextual (maxDischargeDepth := 50)

@[simp] theorem secureTurn_after {dev0 : Dev} (zk tag : Nat) (d : Dev) (k_d : After dev0 d) :
    After dev0 (secureTurn zk tag d) := by
  simp +contextual (maxDischargeDepth := 50) [secureTurn, k_d]

@[simp] theorem secureReset_after {dev0 : Dev} (zk tag : Nat) (d : Dev) (k_d : After dev0 d) :
    After dev0 (secureReset zk tag d) := by
  unfold secureReset
  (repeat' split) <;> simp_all +contextual (maxDischargeDepth := 50)

end Sys2Proof.Machine
end

