-- ==== Sys2Proof/Laws/KeepHerder.lean ====
section
/-!
SUPPORT. What the operations of Machine/Herder.lean keep: one lemma per operation, that its result can follow what its argument can follow.
-/

set_option linter.unusedSimpArgs false
set_option maxRecDepth 4000

namespace Sys2Proof.Machine

@[simp] theorem kenPut_after {dev0 : Dev} (d : Dev) (k : Nat) (x : Kennel) (k_d : After dev0 d) :
    After dev0 (kenPut d k x) := by
  simp +contextual (maxDischargeDepth := 50) [kenPut, k_d]

@[simp] theorem ctrlPut_after {dev0 : Dev} (d : Dev) (p fn : Nat) (c : Ctrl) (k_d : After dev0 d) :
    After dev0 (ctrlPut d p fn c) := by
  simp +contextual (maxDischargeDepth := 50) [ctrlPut, k_d]

@[simp] theorem cqPost_after {dev0 : Dev} (port fn sq cid : Nat) (st : NvStat) (dw0 dw1 : Nat) (data : List Nat) (d : Dev) (k_d : After dev0 d) :
    After dev0 (cqPost port fn sq cid st dw0 dw1 data d) := by
  simp +contextual (maxDischargeDepth := 50) [cqPost, k_d]

@[simp] theorem sqFetch_after {dev0 : Dev} (p fn q : Nat) (d : Dev) (k_d : After dev0 d) :
    After dev0 (sqFetch p fn q d) := by
  simp +contextual (maxDischargeDepth := 50) [sqFetch, k_d]

@[simp] theorem adminDone_after {dev0 : Dev} (c : Src) (st : NvStat) (dw0 : Nat) (data : List Nat) (d : Dev) (k_d : After dev0 d) :
    After dev0 (adminDone c st dw0 data d) := by
  simp +contextual (maxDischargeDepth := 50) [adminDone, k_d]

@[simp] theorem hmbStop_after {dev0 : Dev} (c : Src) (d : Dev) (k_d : After dev0 d) : After dev0 (hmbStop c d) := by
  have k := mapuMod_after (fun u => { u with
    cache := u.cache.filter (fun e => !(segsOfPort d c.port).contains e.1), seals := u.seals.filter (fun e => !(segsOfPort d c.port).contains e.1)
    rebuild := u.rebuild.filter (fun s => !(segsOfPort d c.port).contains s)
    sweep := u.sweep.filter (fun s => !(segsOfPort d c.port).contains s) }) _ (jComplete_after _ (jFlush_after _ (jComplete_after _ k_d)))
  unfold hmbStop
  refine adminDone_after _ _ _ _ _ ⟨?_, irq_after _ _ _ (wr_after _ _ _ ?_)⟩
  · dsimp only
    split
    · exact k.1
    · exact k.1
  · dsimp only
    split
    · exact k.2
    · exact k.2

@[simp] theorem hmbSettle_after {dev0 : Dev} (d : Dev) (k_d : After dev0 d) :
    After dev0 (hmbSettle d) := by
  simp +contextual (maxDischargeDepth := 50) [hmbSettle, k_d]

@[simp] theorem bufsFree_after {dev0 : Dev} (p : Nat) (bs : List Nat) (d : Dev) (k_d : After dev0 d) :
    After dev0 (bufsFree p bs d) := by
  simp +contextual (maxDischargeDepth := 50) [bufsFree, k_d]

@[simp] theorem bufsTake_after {dev0 : Dev} (p n : Nat) (d : Dev) (k_d : After dev0 d) :
    After dev0 (bufsTake p n d).2 := by
  induction n generalizing d with
  | zero => exact k_d
  | succ n ih =>
    unfold bufsTake
    exact after_snd_ite (ih _ (curdGrant_after _ _ _ _ k_d)) (curdGrant_after _ _ _ _ k_d)

@[simp] theorem opEnd_after {dev0 : Dev} (tag : Nat) (st : NvStat) (dw0 dw1 : Nat) (data : List Nat) (d : Dev) (k_d : After dev0 d) :
    After dev0 (opEnd tag st dw0 dw1 data d) := by
  unfold opEnd
  (repeat' split) <;> simp_all +contextual (maxDischargeDepth := 50)

@[simp] theorem opMod_after {dev0 : Dev} (tag : Nat) (f : Op → Op) (d : Dev) (k_d : After dev0 d) :
    After dev0 (opMod tag f d) := by
  unfold opMod
  (repeat' split) <;> simp_all +contextual (maxDischargeDepth := 50)

@[simp] theorem readStats_after {dev0 : Dev} (o : Op) (die : Nat) (good : Bool) (d : Dev) (k_d : After dev0 d) :
    After dev0 (readStats o die good d) := by
  simp +contextual (maxDischargeDepth := 50) [readStats, k_d]

@[simp] theorem readClose_after {dev0 : Dev} (tag : Nat) (st : NvStat) (die : Nat) (data : List Nat) (d : Dev) (k_d : After dev0 d) :
    After dev0 (readClose tag st die data d) := by
  unfold readClose
  (repeat' split) <;> simp_all +contextual (maxDischargeDepth := 50)

@[simp] theorem sbHandle_after {dev0 : Dev} (id h : Nat) (d : Dev) (k_d : After dev0 d) :
    After dev0 (sbHandle id h d) := by
  unfold sbHandle
  (repeat' split) <;> simp_all +contextual (maxDischargeDepth := 50)

@[simp] theorem zoneAssign_after {dev0 : Dev} (c : IoCmd) (n : Ns) (victim : Option Nat) (d : Dev) (k_d : After dev0 d) :
    After dev0 (zoneAssign c n victim d).2 := by
  unfold zoneAssign
  (repeat' split) <;> simp_all +contextual (maxDischargeDepth := 50)

@[simp] theorem kenTake_after {dev0 : Dev} (k : Nat) (c : IoCmd) (d : Dev) (k_d : After dev0 d) :
    After dev0 (kenTake k c d) := by
  simp +contextual (maxDischargeDepth := 50) [kenTake, k_d]

@[simp] theorem secureAdmit_after {dev0 : Dev} (tag k : Nat) (c : IoCmd) (n : Ns) (d : Dev) (k_d : After dev0 d) :
    After dev0 (secureAdmit tag k c n d) := by
  unfold secureAdmit
  exact after_ite k_d (after_foldl (fun x zk kx => secureMark_after _ _ _ kx) k_d)

@[simp] theorem seqAdmit_after {dev0 : Dev} (c : IoCmd) (zoned : Bool) (d : Dev) (k_d : After dev0 d) :
    After dev0 (seqAdmit c zoned d).2 := by
  simp +contextual (maxDischargeDepth := 50) [seqAdmit, k_d]

@[simp] theorem admitHead_after {dev0 : Dev} (qk : Nat) (q : QCmd) (d : Dev) (k_d : After dev0 d) :
    After dev0 (admitHead qk q d) := by
  unfold admitHead
  simp +contextual (maxDischargeDepth := 50) [k_d]
  (repeat' split) <;> simp_all +contextual (maxDischargeDepth := 50)

@[simp] theorem noteHolds_after {dev0 : Dev} (hs : List (Nat × Nat × QCmd × Nat)) (d : Dev) (k_d : After dev0 d) :
    After dev0 (noteHolds hs d) := by
  simp +contextual (maxDischargeDepth := 50) [noteHolds, k_d]

@[simp] theorem admitHeads_after {dev0 : Dev} (d : Dev) (k_d : After dev0 d) :
    After dev0 (admitHeads d) := by
  unfold admitHeads
  simp +contextual (maxDischargeDepth := 50) [k_d]
  (repeat' split) <;> simp_all +contextual (maxDischargeDepth := 50)

@[simp] theorem holdLong_after {dev0 : Dev} (k : Nat) (d : Dev) (k_d : After dev0 d) :
    After dev0 (holdLong k d) := by
  simp +contextual (maxDischargeDepth := 50) [holdLong, k_d]

theorem convTarget_after {dev0 : Dev} {p h w nsid k : Nat} {d : Dev} {r : Nat × Dev} (k_d : After dev0 d)
    (hr : convTarget p h w nsid k d = some r) : After dev0 r.2 := by
  unfold convTarget at hr
  split at hr
  · cases hr; exact k_d
  · obtain ⟨q, hq, rfl⟩ := Option.map_eq_some_iff.1 hr
    have := sbOpen_after k_d hq
    exact after_ite (fdpEvent_after _ _ _ _ _ _ ⟨this.1, this.2⟩) ⟨this.1, this.2⟩

@[simp] theorem stageZoned_after {dev0 : Dev} (o : Op) (n : Ns) (d : Dev) (k_d : After dev0 d) :
    After dev0 (stageZoned o n d) := by
  simp +contextual (maxDischargeDepth := 50) [stageZoned, k_d]

@[simp] theorem stageConv_after {dev0 : Dev} (o : Op) (n : Ns) (d : Dev) (k_d : After dev0 d) :
    After dev0 (stageConv o n d) := by
  simp +contextual (maxDischargeDepth := 50) [stageConv, k_d]

theorem placeUnit_after {dev0 : Dev} {u : Loose} {d e : Dev} (k_d : After dev0 d) (h : placeUnit u d = some e) : After dev0 e := by
  unfold placeUnit at h
  dsimp only at h
  split at h
  · cases h; exact dirtySub_after _ _ k_d
  · split at h
    · cases h; exact dirtySub_after _ _ k_d
    · obtain ⟨t, ht, rfl⟩ := Option.map_eq_some_iff.1 h
      exact rowReady_after _ _ _ (jput_after _ _ (mapSet_after _ _ _ _ (sbPlace_after _ _ _ (convTarget_after k_d ht))))

@[simp] theorem placeUnits_after {dev0 : Dev} (us kept : List Loose) (d : Dev) (k_d : After dev0 d) : After dev0 (placeUnits us kept d) := by
  induction us generalizing kept d with
  | nil => exact ⟨k_d.1, k_d.2⟩
  | cons u us ih =>
    unfold placeUnits
    refine after_ite (ih _ _ k_d) ?_
    split
    · rename_i h
      exact ih _ _ (placeUnit_after k_d h)
    · exact ih _ _ k_d

@[simp] theorem placeLoose_after {dev0 : Dev} (d : Dev) (k_d : After dev0 d) : After dev0 (placeLoose d) := by
  unfold placeLoose
  exact after_ite k_d (jFlushIfNeeded_after _ (after_foldl (fun x g k => gcStart_after _ _ _ k) (placeUnits_after _ _ _ k_d)))

@[simp] theorem zoneWriteFail_after {dev0 : Dev} (tag : Nat) (st : NvStat) (d : Dev) (k_d : After dev0 d) :
    After dev0 (zoneWriteFail tag st d) := by
  unfold zoneWriteFail
  split
  · exact k_d
  · split
    · exact k_d
    · split
      · exact k_d
      · refine after_foldl (fun x q k => opEnd_after _ _ _ _ _ _ k) (opEnd_after _ _ _ _ _ _ (after_ite
          (zonePad_after _ _ _ _ _ (zoneSet_after _ _ _ (dirtySub_after _ _ (after_foldl (fun x q k => ?_) ⟨k_d.1, k_d.2⟩))))
          (zoneSet_after _ _ _ (dirtySub_after _ _ (after_foldl (fun x q k => ?_) ⟨k_d.1, k_d.2⟩)))))
        all_goals
          split
          · exact sbPut_after _ _ _ k
          · exact k

@[simp] theorem writeStart_after {dev0 : Dev} (tag : Nat) (d : Dev) (k_d : After dev0 d) : After dev0 (writeStart tag d) := by
  unfold writeStart
  split
  · exact k_d
  · split
    · exact k_d
    · split
      · exact k_d
      · split
        · exact after_ite (zoneWriteFail_after _ _ _ k_d) (opEnd_after _ _ _ _ _ _ k_d)
        · have k := fun p n => bufsTake_after p n d k_d
          exact after_ite (opMod_after _ _ _ (k _ _)) (opMod_after _ _ _ (after_ite (k _ _) (widthRestore_after _ _ (k _ _))))

@[simp] theorem postWrites_after {dev0 : Dev} (d : Dev) (k_d : After dev0 d) :
    After dev0 (postWrites d) := by
  simp +contextual (maxDischargeDepth := 50) [postWrites, k_d]

@[simp] theorem writeStaged_after {dev0 : Dev} (tag : Nat) (d : Dev) (k_d : After dev0 d) :
    After dev0 (writeStaged tag d) := by
  unfold writeStaged
  (repeat' split) <;> simp_all +contextual (maxDischargeDepth := 50)

end Sys2Proof.Machine
end

