-- ==== Sys2Proof/Laws/KeepPowerSeq.lean ====
section
/-!
SUPPORT. What the operations of Machine/PowerSeq.lean keep: one lemma per operation, that its result can follow what its argument can follow.
-/

set_option linter.unusedSimpArgs false
set_option maxRecDepth 4000

namespace Sys2Proof.Machine

@[simp] theorem portPut_after {dev0 : Dev} (d : Dev) (p : Nat) (x : Port) (k_d : After dev0 d) :
    After dev0 (portPut d p x) := by
  simp +contextual (maxDischargeDepth := 50) [portPut, k_d]

@[simp] theorem domSet_after {dev0 : Dev} (n : Nat) (x : Dom) (d : Dev) (k_d : After dev0 d) :
    After dev0 (domSet n x d) := by
  simp +contextual (maxDischargeDepth := 50) [domSet, k_d]

@[simp] theorem wakeReq_after {dev0 : Dev} (n src : Nat) (d : Dev) (k_d : After dev0 d) :
    After dev0 (wakeReq n src d) := by
  unfold wakeReq
  simp +contextual (maxDischargeDepth := 50) [k_d]
  (repeat' split) <;> simp_all +contextual (maxDischargeDepth := 50)

@[simp] theorem wakePending_after {dev0 : Dev} (n : Nat) (d : Dev) (k_d : After dev0 d) :
    After dev0 (wakePending n d) := by
  unfold wakePending
  (repeat' split) <;> simp_all +contextual (maxDischargeDepth := 50)

@[simp] theorem gateRefused_after {dev0 : Dev} (d : Dev) (k_d : After dev0 d) :
    After dev0 (gateRefused d) := by
  simp +contextual (maxDischargeDepth := 50) [gateRefused, k_d]

@[simp] theorem gateHold_after {dev0 : Dev} (n : Nat) (r : Req) (d : Dev) (k_d : After dev0 d) :
    After dev0 (gateHold n r d) := by
  simp +contextual (maxDischargeDepth := 50) [gateHold, k_d]

@[simp] theorem clusterLeave_after {dev0 : Dev} (c : Nat) (d : Dev) (k_d : After dev0 d) :
    After dev0 (clusterLeave c d) := by
  simp +contextual (maxDischargeDepth := 50) [clusterLeave, k_d]

@[simp] theorem chanSave_after {dev0 : Dev} (c : Nat) (d : Dev) (k_d : After dev0 d) :
    After dev0 (chanSave c d) := by
  simp +contextual (maxDischargeDepth := 50) [chanSave, k_d]

@[simp] theorem regsLose_after {dev0 : Dev} (n : Nat) (h : Hw) (k_h : HwAfter dev0 h) :
    HwAfter dev0 (regsLose n h) := by
  simp +contextual (maxDischargeDepth := 50) [regsLose, k_h]

@[simp] theorem loseDom_after {dev0 : Dev} (n : Nat) (d : Dev) (k_d : After dev0 d) :
    After dev0 (loseDom n d) := by
  simp +contextual (maxDischargeDepth := 50) [loseDom, k_d]

@[simp] theorem seqNext_after {dev0 : Dev} (d : Dev) (k_d : After dev0 d) :
    After dev0 (seqNext d) := by
  unfold seqNext
  (repeat' split) <;> simp_all +contextual (maxDischargeDepth := 50)

@[simp] theorem seqBegin_after {dev0 : Dev} (d : Dev) (k_d : After dev0 d) :
    After dev0 (seqBegin d) := by
  simp +contextual (maxDischargeDepth := 50) [seqBegin, k_d]

@[simp] theorem seqCheck_after {dev0 : Dev} (d : Dev) (k_d : After dev0 d) :
    After dev0 (seqCheck d) := by
  simp +contextual (maxDischargeDepth := 50) [seqCheck, k_d]

@[simp] theorem seqEnd_after {dev0 : Dev} (d : Dev) (k_d : After dev0 d) :
    After dev0 (seqEnd d) := by
  unfold seqEnd
  (repeat' split) <;> simp_all +contextual (maxDischargeDepth := 50)

@[simp] theorem domDown_after {dev0 : Dev} (n : Nat) (d : Dev) (k_d : After dev0 d) :
    After dev0 (domDown n d) := by
  simp +contextual (maxDischargeDepth := 50) [domDown, k_d]

@[simp] theorem domsReset_after {dev0 : Dev} (d : Dev) (k_d : After dev0 d) :
    After dev0 (domsReset d) := by
  simp +contextual (maxDischargeDepth := 50) [domsReset, k_d]

@[simp] theorem tryOff_after {dev0 : Dev} (n : Nat) (d : Dev) (k_d : After dev0 d) :
    After dev0 (tryOff n d) := by
  simp +contextual (maxDischargeDepth := 50) [tryOff, k_d]

@[simp] theorem forceOff_after {dev0 : Dev} (n : Nat) (d : Dev) (k_d : After dev0 d) :
    After dev0 (forceOff n d) := by
  simp +contextual (maxDischargeDepth := 50) [forceOff, k_d]

@[simp] theorem retTimer_after {dev0 : Dev} (n : Nat) (d : Dev) (k_d : After dev0 d) :
    After dev0 (retTimer n d) := by
  simp +contextual (maxDischargeDepth := 50) [retTimer, k_d]

@[simp] theorem domSave_after {dev0 : Dev} (n : Nat) (d : Dev) (k_d : After dev0 d) :
    After dev0 (domSave n d) := by
  simp +contextual (maxDischargeDepth := 50) [domSave, k_d]

@[simp] theorem drainEnd_after {dev0 : Dev} (n : Nat) (busy : Bool) (d : Dev) (k_d : After dev0 d) :
    After dev0 (drainEnd n busy d) := by
  simp +contextual (maxDischargeDepth := 50) [drainEnd, k_d]

@[simp] theorem offTimer_after {dev0 : Dev} (n : Nat) (d : Dev) (k_d : After dev0 d) :
    After dev0 (offTimer n d) := by
  simp +contextual (maxDischargeDepth := 50) [offTimer, k_d]

@[simp] theorem offReached_after {dev0 : Dev} (n : Nat) (d : Dev) (k_d : After dev0 d) :
    After dev0 (offReached n d) := by
  simp +contextual (maxDischargeDepth := 50) [offReached, k_d]

@[simp] theorem domRestore_after {dev0 : Dev} (n : Nat) (fromOff : Bool) (d : Dev) (k_d : After dev0 d) :
    After dev0 (domRestore n fromOff d) := by
  unfold domRestore
  simp +contextual (maxDischargeDepth := 50) [k_d]
  (repeat' split) <;> simp_all +contextual (maxDischargeDepth := 50)

@[simp] theorem onReached_after {dev0 : Dev} (n : Nat) (d : Dev) (k_d : After dev0 d) :
    After dev0 (onReached n d) := by
  simp +contextual (maxDischargeDepth := 50) [onReached, k_d]

@[simp] theorem wakeFail_after {dev0 : Dev} (n : Nat) (d : Dev) (k_d : After dev0 d) :
    After dev0 (wakeFail n d) := by
  simp +contextual (maxDischargeDepth := 50) [wakeFail, k_d]

@[simp] theorem dctrlWrite_after {dev0 : Dev} (n : Nat) (v : Word) (d : Dev) (k_d : After dev0 d) :
    After dev0 (dctrlWrite n v d) := by
  unfold dctrlWrite
  (repeat' split) <;> simp +contextual (maxDischargeDepth := 50) [k_d]

@[simp] theorem settle_after {dev0 : Dev} (d : Dev) (k_d : After dev0 d) :
    After dev0 (settle d) := by
  simp +contextual (maxDischargeDepth := 50) [settle, k_d]

@[simp] theorem whistleWake_after {dev0 : Dev} (c : Nat) (d : Dev) (k_d : After dev0 d) :
    After dev0 (whistleWake c d) := by
  simp +contextual (maxDischargeDepth := 50) [whistleWake, k_d]

@[simp] theorem pwrWrite_after {dev0 : Dev} (o : Nat) (v : Word) (d : Dev) (k_d : After dev0 d) :
    After dev0 (pwrWrite o v d) := by
  unfold pwrWrite
  (repeat' split) <;> simp +contextual (maxDischargeDepth := 50) [k_d]

end Sys2Proof.Machine
end

