-- ==== Sys2Proof/Laws/KeepUnitAccess.lean ====
section
/-!
SUPPORT. What the operations of Machine/UnitAccess.lean keep: one lemma per operation, that its result can follow what its argument can follow.
-/

set_option linter.unusedSimpArgs false
set_option maxRecDepth 4000

namespace Sys2Proof.Machine

@[simp] theorem unitRefuse_after {dev0 : Dev} (m : Nat) (k : Acc) (st : Status) (a n : Nat) (d : Dev) (k_d : After dev0 d) :
    After dev0 (unitRefuse m k st a n d) := by
  simp +contextual (maxDischargeDepth := 50) [unitRefuse, k_d]

@[simp] theorem unitRead_after {dev0 : Dev} (m a n : Nat) (d : Dev) (k_d : After dev0 d) :
    After dev0 (unitRead m a n d).2 := by
  unfold unitRead
  (repeat' split) <;> simp_all +contextual (maxDischargeDepth := 50)

@[simp] theorem unitWrite_after {dev0 : Dev} (a : Nat) (bs : List Byte) (d : Dev) (k_d : After dev0 d) :
    After dev0 (unitWrite a bs d) := by
  simp +contextual (maxDischargeDepth := 50) [unitWrite, k_d]

@[simp] theorem onceOpen_after {dev0 : Dev} (doms : List Nat) (f : Dev → Dev) (d : Dev) (hf : ∀ x, After dev0 x → After dev0 (f x))
    (k_d : After dev0 d) : After dev0 (onceOpen doms f d) := by
  unfold onceOpen
  split
  · exact hf _ k_d
  · exact after_ite (wakeReq_after _ _ _ k_d) (gateRefused_after _ k_d)

@[simp] theorem curdReleased_after {dev0 : Dev} (p : Nat) (d : Dev) (k_d : After dev0 d) :
    After dev0 (curdReleased p d) := by
  unfold curdReleased
  (repeat' split) <;> simp_all +contextual (maxDischargeDepth := 50)

@[simp] theorem curdInited_after {dev0 : Dev} (d : Dev) (k_d : After dev0 d) :
    After dev0 (curdInited d) := by
  simp +contextual (maxDischargeDepth := 50) [curdInited, k_d]

@[simp] theorem scrubOver_after {dev0 : Dev} (n : Nat) (aborted : Bool) (d : Dev) (k_d : After dev0 d) :
    After dev0 (scrubOver n aborted d) := by
  simp +contextual (maxDischargeDepth := 50) [scrubOver, k_d]

@[simp] theorem scrubDone_after {dev0 : Dev} (d : Dev) (k_d : After dev0 d) :
    After dev0 (scrubDone d) := by
  simp +contextual (maxDischargeDepth := 50) [scrubDone, k_d]

@[simp] theorem scrubAbort_after {dev0 : Dev} (n : Nat) (d : Dev) (k_d : After dev0 d) :
    After dev0 (scrubAbort n d) := by
  simp +contextual (maxDischargeDepth := 50) [scrubAbort, k_d]

end Sys2Proof.Machine
end

