-- ==== Sys2Proof/Laws/KeepEngines.lean ====
section
/-!
SUPPORT. What the operations of Machine/Engines.lean keep: one lemma per operation, that its result can follow what its argument can follow.
-/

set_option linter.unusedSimpArgs false
set_option maxRecDepth 4000

namespace Sys2Proof.Machine

@[simp] theorem jobData_after {dev0 : Dev} (k : Nat) (j : Job) (d : Dev) (k_d : After dev0 d) :
    After dev0 (jobData k j d).2 := by
  unfold jobData
  simp +contextual (maxDischargeDepth := 50) [k_d]
  (repeat' split) <;> simp_all +contextual (maxDischargeDepth := 50)

@[simp] theorem jobRun_after {dev0 : Dev} (k : Nat) (j : Job) (d : Dev) (k_d : After dev0 d) :
    After dev0 (jobRun k j d).2 := by
  unfold jobRun
  (repeat' split) <;> simp_all +contextual (maxDischargeDepth := 50)

@[simp] theorem jobDone_after {dev0 : Dev} (k : Nat) (d : Dev) (k_d : After dev0 d) :
    After dev0 (jobDone k d) := by
  unfold jobDone
  simp +contextual (maxDischargeDepth := 50) [k_d]
  (repeat' split) <;> simp_all +contextual (maxDischargeDepth := 50)

@[simp] theorem hostJob_after {dev0 : Dev} (tag n len : Nat) (enc : Bool) (d : Dev) (k_d : After dev0 d) :
    After dev0 (hostJob tag n len enc d) := by
  unfold hostJob
  (repeat' split) <;> simp_all +contextual (maxDischargeDepth := 50)

theorem unitClear_after {dev0 : Dev} {m : Nat} {k : Acc} {a n : Nat} {d : Dev} (k_d : After dev0 d) :
    (∀ r, unitClear m k a n d = .inl r → After dev0 r.2) ∧ ∀ e, unitClear m k a n d = .inr e → After dev0 e := by
  unfold unitClear
  split
  · exact ⟨fun r h => by cases h; exact unitRefuse_after _ _ _ _ _ _ k_d, fun _ h => by cases h⟩
  · exact ⟨fun _ h => (by cases h), fun e h => by cases h; exact wakeReq_after _ _ _ k_d⟩
  · exact ⟨fun _ h => (by cases h), fun e h => by cases h; exact k_d⟩

@[simp] theorem kvWrap_after {dev0 : Dev} (m n buf len : Nat) (d : Dev) (k_d : After dev0 d) : After dev0 (kvWrap m n buf len d).2 := by
  unfold kvWrap
  dsimp only
  split
  · exact k_d
  · split
    · exact k_d
    · split
      · exact k_d
      · split
        · exact k_d
        · split
          · exact k_d
          · split
            · rename_i h
              exact (unitClear_after k_d).1 _ h
            · rename_i h
              exact unitWrite_after _ _ _ ((unitClear_after k_d).2 _ h)

@[simp] theorem kvUnwrap_after {dev0 : Dev} (m n kek buf len : Nat) (kwp : Bool) (kennel : Nat) (d : Dev) (k_d : After dev0 d) :
    After dev0 (kvUnwrap m n kek buf len kwp kennel d).2 := by
  unfold kvUnwrap
  dsimp only
  split
  · exact k_d
  · split
    · exact k_d
    · split
      · exact k_d
      · split
        · rename_i h
          exact (unitClear_after k_d).1 _ h
        · rename_i h
          have k := unitRead_after m buf len _ ((unitClear_after k_d).2 _ h)
          (repeat' split) <;> first | exact k | exact ⟨k.1, irq_after _ _ _ k.2⟩

@[simp] theorem kvExec_after {dev0 : Dev} (m : Nat) (v : Word) (x : Item) (d : Dev) (k_d : After dev0 d) : After dev0 (kvExec m v x d).2 := by
  unfold kvExec
  dsimp only
  split
  · exact kvGenerate_after _ _ _ _ _ k_d
  · exact kvWrap_after _ _ _ _ _ k_d
  · exact kvUnwrap_after _ _ _ _ _ _ _ _ k_d
  · exact ⟨k_d.1, k_d.2⟩
  · exact ⟨k_d.1, k_d.2⟩
  · exact eraseKeys_after _ k_d
  · exact k_d

@[simp] theorem kvAccept_after {dev0 : Dev} (m : Nat) (v : Word) (x : Item) (d : Dev) (k_d : After dev0 d) :
    After dev0 (kvAccept m v x d) := by
  simp +contextual (maxDischargeDepth := 50) [kvAccept, k_d]

@[simp] theorem kvCmdWrite_after {dev0 : Dev} (m : Nat) (v : Word) (d : Dev) (k_d : After dev0 d) :
    After dev0 (kvCmdWrite m v d).2 := by
  unfold kvCmdWrite
  simp +contextual (maxDischargeDepth := 50) [k_d]
  (repeat' split) <;> simp_all +contextual (maxDischargeDepth := 50)

@[simp] theorem kvDrain_after {dev0 : Dev} (ws : List (Nat × Word × Item)) (d : Dev) (k_d : After dev0 d) : After dev0 (kvDrain ws d) := by
  induction ws generalizing d with
  | nil => exact k_d
  | cons w ws ih => exact ih _ (kvAccept_after _ _ _ _ k_d)

@[simp] theorem reseed_after {dev0 : Dev} (healthy : Bool) (d : Dev) (k_d : After dev0 d) :
    After dev0 (reseed healthy d) := by
  simp +contextual (maxDischargeDepth := 50) [reseed, k_d]

@[simp] theorem sigvHash_after {dev0 : Dev} (m : Nat) (d : Dev) (k_d : After dev0 d) : After dev0 (sigvHash m d) := by
  unfold sigvHash
  dsimp only
  split
  · exact k_d
  · split
    · exact ⟨k_d.1, irq_after _ _ _ (putDigest_after _ _ k_d.2)⟩
    · split
      · rename_i h
        have k := (unitClear_after k_d).1 _ h
        exact ⟨k.1, md_after _ _ _ (md_after _ _ _ (hwAfter_ite k.2 (spend_after _ k.2)))⟩
      · rename_i h
        have k := unitRead_after m ((rd d.hw R.SIGV_HSRC_LO).toNat + 0x100000000 * fld (rd d.hw R.SIGV_HSRC_HI) 0 16)
          (rd d.hw R.SIGV_HLEN).toNat _ ((unitClear_after k_d).2 _ h)
        exact ⟨k.1, md_after _ _ _ (md_after _ _ _ (hwAfter_ite k.2 (spend_after _ k.2)))⟩

@[simp] theorem sigvCtrlWrite_after {dev0 : Dev} (m : Nat) (v : Word) (d : Dev) (k_d : After dev0 d) :
    After dev0 (sigvCtrlWrite m v d) := by
  simp +contextual (maxDischargeDepth := 50) [sigvCtrlWrite, k_d]

@[simp] theorem opAborted_after {dev0 : Dev} (tag : Nat) (d : Dev) (k_d : After dev0 d) :
    After dev0 (opAborted tag d) := by
  unfold opAborted
  (repeat' split) <;> simp_all +contextual (maxDischargeDepth := 50)

@[simp] theorem erasureEnd_after {dev0 : Dev} (d : Dev) (k_d : After dev0 d) :
    After dev0 (erasureEnd d) := by
  simp +contextual (maxDischargeDepth := 50) [erasureEnd, k_d]

end Sys2Proof.Machine
end

