-- ==== Sys2Proof/Laws/KeepFlash.lean ====
section
/-!
SUPPORT. What the operations of Machine/Flash.lean keep: one lemma per operation, that its result can follow what its argument can follow.
-/

set_option linter.unusedSimpArgs false
set_option maxRecDepth 4000

namespace Sys2Proof.Machine

@[simp] theorem profWrite_after {dev0 : Dev} (c i : Nat) (v : Word) (d : Dev) (k_d : After dev0 d) :
    After dev0 (profWrite c i v d) := by
  simp +contextual (maxDischargeDepth := 50) [profWrite, k_d]

@[simp] theorem profReload_after {dev0 : Dev} (c : Nat) (d : Dev) (k_d : After dev0 d) :
    After dev0 (profReload c d) := by
  simp +contextual (maxDischargeDepth := 50) [profReload, k_d]

@[simp] theorem busUse_after {dev0 : Dev} (die : Nat) (cmds : List FchCmd) (d : Dev) (k_d : After dev0 d) :
    After dev0 (busUse die cmds d) := by
  simp +contextual (maxDischargeDepth := 50) [busUse, k_d]

@[simp] theorem ballsSafe_after {dev0 : Dev} (d : Dev) (k_d : After dev0 d) :
    After dev0 (ballsSafe d) := by
  simp +contextual (maxDischargeDepth := 50) [ballsSafe, k_d]

@[simp] theorem pacerMod_after {dev0 : Dev} (f : Pacer → Pacer) (d : Dev) (k_d : After dev0 d) :
    After dev0 (pacerMod f d) := by
  simp +contextual (maxDischargeDepth := 50) [pacerMod, k_d]

@[simp] theorem tokenBack_after {dev0 : Dev} (had : Bool) (d : Dev) (k_d : After dev0 d) :
    After dev0 (tokenBack had d) := by
  simp +contextual (maxDischargeDepth := 50) [tokenBack, k_d]

@[simp] theorem headJob_after {dev0 : Dev} (die : Nat) (f : FJob → FJob) (d : Dev) (k_d : After dev0 d) :
    After dev0 (headJob die f d) := by
  unfold headJob
  simp +contextual (maxDischargeDepth := 50) [k_d]
  (repeat' split) <;> simp_all +contextual (maxDischargeDepth := 50)

@[simp] theorem tokenRequest_after {dev0 : Dev} (die : Nat) (d : Dev) (k_d : After dev0 d) :
    After dev0 (tokenRequest die d) := by
  unfold tokenRequest
  (repeat' split) <;> simp_all +contextual (maxDischargeDepth := 50)

@[simp] theorem tokenGrant_after {dev0 : Dev} (d : Dev) (k_d : After dev0 d) :
    After dev0 (tokenGrant d) := by
  unfold tokenGrant
  (repeat' split) <;> simp_all +contextual (maxDischargeDepth := 50)

@[simp] theorem paceLimitWrite_after {dev0 : Dev} (v : Word) (d : Dev) (k_d : After dev0 d) :
    After dev0 (paceLimitWrite v d) := by
  simp +contextual (maxDischargeDepth := 50) [paceLimitWrite, k_d]

@[simp] theorem startMark_after {dev0 : Dev} (c : Nat) (d : Dev) (k_d : After dev0 d) :
    After dev0 (startMark c d) := by
  simp +contextual (maxDischargeDepth := 50) [startMark, k_d]

@[simp] theorem pauseEnd_after {dev0 : Dev} (c : Nat) (d : Dev) (k_d : After dev0 d) :
    After dev0 (pauseEnd c d) := by
  simp +contextual (maxDischargeDepth := 50) [pauseEnd, k_d]

@[simp] theorem pilotMark_after {dev0 : Dev} (die : Nat) (j : FJob) (v : Nat) (d : Dev) (k_d : After dev0 d) :
    After dev0 (pilotMark die j v d) := by
  unfold pilotMark
  (repeat' split) <;> simp_all +contextual (maxDischargeDepth := 50)

@[simp] theorem opStart_after {dev0 : Dev} (die : Nat) (d : Dev) (k_d : After dev0 d) :
    After dev0 (opStart die d) := by
  unfold opStart
  simp +contextual (maxDischargeDepth := 50) [k_d]
  (repeat' split) <;> simp_all +contextual (maxDischargeDepth := 50)

@[simp] theorem pwaitExpiry_after {dev0 : Dev} (die : Nat) (d : Dev) (k_d : After dev0 d) :
    After dev0 (pwaitExpiry die d) := by
  unfold pwaitExpiry
  simp +contextual (maxDischargeDepth := 50) [k_d]
  (repeat' split) <;> simp_all +contextual (maxDischargeDepth := 50)

@[simp] theorem dieStateSet_after {dev0 : Dev} (die st who : Nat) (d : Dev) (k_d : After dev0 d) :
    After dev0 (dieStateSet die st who d) := by
  simp +contextual (maxDischargeDepth := 50) [dieStateSet, k_d]

@[simp] theorem chanRetEnd_after {dev0 : Dev} (c : Nat) (d : Dev) (k_d : After dev0 d) :
    After dev0 (chanRetEnd c d) := by
  simp +contextual (maxDischargeDepth := 50) [chanRetEnd, k_d]

@[simp] theorem retEnd_after {dev0 : Dev} (die : Nat) (ok : Bool) (errBit : Option Nat) (d : Dev) (k_d : After dev0 d) :
    After dev0 (retEnd die ok errBit d) := by
  unfold retEnd
  (repeat' split) <;> simp_all +contextual (maxDischargeDepth := 50)

@[simp] theorem chanLeaveCheck_after {dev0 : Dev} (c : Nat) (d : Dev) (k_d : After dev0 d) :
    After dev0 (chanLeaveCheck c d) := by
  unfold chanLeaveCheck
  simp +contextual (maxDischargeDepth := 50) [k_d]
  (repeat' split) <;> simp_all +contextual (maxDischargeDepth := 50)

@[simp] theorem leaveCheck_after {dev0 : Dev} (die : Nat) (d : Dev) (k_d : After dev0 d) :
    After dev0 (leaveCheck die d) := by
  unfold leaveCheck
  simp +contextual (maxDischargeDepth := 50) [k_d]
  (repeat' split) <;> simp_all +contextual (maxDischargeDepth := 50)

@[simp] theorem bringupCheck_after {dev0 : Dev} (c : Nat) (d : Dev) (k_d : After dev0 d) :
    After dev0 (bringupCheck c d) := by
  simp +contextual (maxDischargeDepth := 50) [bringupCheck, k_d]

@[simp] theorem targetFail_after {dev0 : Dev} (c ce : Nat) (d : Dev) (k_d : After dev0 d) :
    After dev0 (targetFail c ce d) := by
  simp +contextual (maxDischargeDepth := 50) [targetFail, k_d]

@[simp] theorem targetTrain_after {dev0 : Dev} (c ce : Nat) (ok : Bool) (d : Dev) (k_d : After dev0 d) :
    After dev0 (targetTrain c ce ok d) := by
  simp +contextual (maxDischargeDepth := 50) [targetTrain, k_d]

@[simp] theorem retrainCe_after {dev0 : Dev} (c ce : Nat) (d : Dev) (k_d : After dev0 d) :
    After dev0 (retrainCe c ce d) := by
  simp +contextual (maxDischargeDepth := 50) [retrainCe, k_d]

@[simp] theorem retrainAll_after {dev0 : Dev} (c : Nat) (d : Dev) (k_d : After dev0 d) :
    After dev0 (retrainAll c d) := by
  simp +contextual (maxDischargeDepth := 50) [retrainAll, k_d]

@[simp] theorem retrainWoken_after {dev0 : Dev} (c : Nat) (d : Dev) (k_d : After dev0 d) :
    After dev0 (retrainWoken c d) := by
  simp +contextual (maxDischargeDepth := 50) [retrainWoken, k_d]

@[simp] theorem retrainTemp_after {dev0 : Dev} (c : Nat) (d : Dev) (k_d : After dev0 d) :
    After dev0 (retrainTemp c d) := by
  simp +contextual (maxDischargeDepth := 50) [retrainTemp, k_d]

@[simp] theorem retrainAsked_after {dev0 : Dev} (c : Nat) (d : Dev) (k_d : After dev0 d) :
    After dev0 (retrainAsked c d) := by
  simp +contextual (maxDischargeDepth := 50) [retrainAsked, k_d]

@[simp] theorem fchCtrlWrite_after {dev0 : Dev} (c : Nat) (v : Word) (d : Dev) (k_d : After dev0 d) :
    After dev0 (fchCtrlWrite c v d) := by
  simp +contextual (maxDischargeDepth := 50) [fchCtrlWrite, k_d]

@[simp] theorem fchDriveWrite_after {dev0 : Dev} (c : Nat) (v : Word) (d : Dev) (k_d : After dev0 d) :
    After dev0 (fchDriveWrite c v d) := by
  simp +contextual (maxDischargeDepth := 50) [fchDriveWrite, k_d]

@[simp] theorem zqTimer_after {dev0 : Dev} (c : Nat) (d : Dev) (k_d : After dev0 d) :
    After dev0 (zqTimer c d) := by
  simp +contextual (maxDischargeDepth := 50) [zqTimer, k_d]

@[simp] theorem retrainPeriod_after {dev0 : Dev} (c : Nat) (d : Dev) (k_d : After dev0 d) :
    After dev0 (retrainPeriod c d) := by
  simp +contextual (maxDischargeDepth := 50) [retrainPeriod, k_d]

@[simp] theorem resetDie_after {dev0 : Dev} (n : Nat) (d : Dev) (k_d : After dev0 d) :
    After dev0 (resetDie n d) := by
  simp +contextual (maxDischargeDepth := 50) [resetDie, k_d]

@[simp] theorem waveDie_after {dev0 : Dev} (n : Nat) (d : Dev) (k_d : After dev0 d) :
    After dev0 (waveDie n d) := by
  simp +contextual (maxDischargeDepth := 50) [waveDie, k_d]

@[simp] theorem waveStart_after {dev0 : Dev} (d : Dev) (k_d : After dev0 d) :
    After dev0 (waveStart d) := by
  simp +contextual (maxDischargeDepth := 50) [waveStart, k_d]

@[simp] theorem bringupWrite_after {dev0 : Dev} (v : Word) (d : Dev) (k_d : After dev0 d) :
    After dev0 (bringupWrite v d) := by
  simp +contextual (maxDischargeDepth := 50) [bringupWrite, k_d]

@[simp] theorem reask_after {dev0 : Dev} (rs : List Nat) (d : Dev) (k_d : After dev0 d) :
    After dev0 (reask rs d) := by
  simp +contextual (maxDischargeDepth := 50) [reask, k_d]

@[simp] theorem rqInsert_after {dev0 : Dev} (r : Nat) (x : Run) (d : Dev) (k_d : After dev0 d) :
    After dev0 (rqInsert r x d) := by
  simp +contextual (maxDischargeDepth := 50) [rqInsert, k_d]

@[simp] theorem runQueue_after {dev0 : Dev} (r : Nat) (d : Dev) (k_d : After dev0 d) :
    After dev0 (runQueue r d) := by
  unfold runQueue
  (repeat' split) <;> simp_all +contextual (maxDischargeDepth := 50)

@[simp] theorem overflowFill_after {dev0 : Dev} (die n : Nat) (d : Dev) (k_d : After dev0 d) :
    After dev0 (overflowFill die n d) := by
  induction n generalizing d with
  | zero => exact k_d
  | succ n ih =>
    unfold overflowFill
    dsimp only
    split
    · exact k_d
    · split
      · exact k_d
      · exact after_ite (ih _ (rqInsert_after _ _ _ (after_mk.2 ⟨k_d.1, k_d.2⟩))) k_d

@[simp] theorem rqDrop_after {dev0 : Dev} (r die : Nat) (d : Dev) (k_d : After dev0 d) : After dev0 (rqDrop r die d) :=
  overflowFill_after _ _ _ (diePut_after _ _ _ k_d)

@[simp] theorem runNew_after {dev0 : Dev} (x : Run) (d : Dev) (k_d : After dev0 d) :
    After dev0 (runNew x d).2 := by
  simp +contextual (maxDischargeDepth := 50) [runNew, k_d]

@[simp] theorem rawSamples_after {dev0 : Dev} (die b wl sb row member : Nat) (slc : Bool) (lastWl : Bool) (d : Dev) (k_d : After dev0 d) :
    After dev0 (rawSamples die b wl sb row member slc lastWl d).2 := by
  simp +contextual (maxDischargeDepth := 50) [rawSamples, k_d]

@[simp] theorem pilotSamples_after {dev0 : Dev} (die b sb : Nat) (slc : Bool) (d : Dev) (k_d : After dev0 d) :
    After dev0 (pilotSamples die b sb slc d) := by
  simp +contextual (maxDischargeDepth := 50) [pilotSamples, k_d]

@[simp] theorem unitsProgram_after {dev0 : Dev} (sb : Nat) (ks : List Nat) (d : Dev) (k_d : After dev0 d) :
    After dev0 (unitsProgram sb ks d) := by
  simp +contextual (maxDischargeDepth := 50) [unitsProgram, k_d]

@[simp] theorem blkSuspect_after {dev0 : Dev} (die b : Nat) (d : Dev) (k_d : After dev0 d) :
    After dev0 (blkSuspect die b d) := by
  simp +contextual (maxDischargeDepth := 50) [blkSuspect, k_d]

@[simp] theorem memberFail_after {dev0 : Dev} (die b sb row member : Nat) (d : Dev) (k_d : After dev0 d) :
    After dev0 (memberFail die b sb row member d) := by
  unfold memberFail
  simp +contextual (maxDischargeDepth := 50) [k_d]
  (repeat' split) <;> simp_all +contextual (maxDischargeDepth := 50)

@[simp] theorem pilotFail_after {dev0 : Dev} (die b sb : Nat) (d : Dev) (k_d : After dev0 d) :
    After dev0 (pilotFail die b sb d) := by
  unfold pilotFail
  (repeat' split) <;> simp_all +contextual (maxDischargeDepth := 50)

@[simp] theorem programEnd_after {dev0 : Dev} (die : Nat) (j : FJob) (pass : Bool) (d : Dev) (k_d : After dev0 d) :
    After dev0 (programEnd die j pass d) := by
  unfold programEnd
  simp +contextual (maxDischargeDepth := 50) [k_d]
  (repeat' split) <;> simp_all +contextual (maxDischargeDepth := 50)

@[simp] theorem eraseDone_after {dev0 : Dev} (die b : Nat) (d : Dev) (k_d : After dev0 d) : After dev0 (eraseDone die b d) := by
  unfold eraseDone
  exact gcAgain_after _ (after_ite (blkRetire_after _ _ _ (blkPut_after _ _ _ _ k_d)) (blkPut_after _ _ _ _ k_d))

@[simp] theorem retNext_after {dev0 : Dev} (die b ret : Nat) (d : Dev) (k_d : After dev0 d) :
    After dev0 (retNext die b ret d) := by
  unfold retNext
  (repeat' split) <;> simp_all +contextual (maxDischargeDepth := 50)

@[simp] theorem retErased_after {dev0 : Dev} (die : Nat) (j : FJob) (again ok : Bool) (d : Dev) (k_d : After dev0 d) :
    After dev0 (retErased die j again ok d) := by
  unfold retErased
  (repeat' split) <;> simp_all +contextual (maxDischargeDepth := 50)

@[simp] theorem eraseEnd_after {dev0 : Dev} (die : Nat) (j : FJob) (pass verified : Bool) (d : Dev) (k_d : After dev0 d) :
    After dev0 (eraseEnd die j pass verified d) := by
  unfold eraseEnd
  (repeat' split) <;> simp_all +contextual (maxDischargeDepth := 50)

@[simp] theorem trainFrom_after {dev0 : Dev} (c : Nat) (ok : BitVec 4) (l : List Nat) (d : Dev) (k_d : After dev0 d) :
    After dev0 (trainFrom c ok l d) := by
  induction l generalizing d with
  | nil => exact k_d
  | cons ce l ih =>
    unfold trainFrom
    refine after_ite (ih _ k_d) (after_ite k_d (ih _ (after_ite (after_foldl ?_ (targetTrain_after _ _ _ _ k_d)) (targetTrain_after _ _ _ _ k_d))))
    intro x n hx
    split
    · exact after_ite (retNext_after _ _ _ _ hx) hx
    · exact hx

@[simp] theorem resetEnd_after {dev0 : Dev} (die : Nat) (idOk : Bool) (ok : BitVec 4) (d : Dev) (k_d : After dev0 d) :
    After dev0 (resetEnd die idOk ok d) := by
  have k := diePut_after d die { dieGet d die with ready := true } k_d
  exact bringupCheck_after _ _ (trainFrom_after _ _ _ _ (after_ite (after_ite (busUse_after _ _ _ k)
    (retEnd_after _ _ _ _ (busUse_after _ _ _ k))) k))

@[simp] theorem arrEnd_after {dev0 : Dev} (die : Nat) (pass idOk : Bool) (trainOk : BitVec 4) (verified : Bool) (d : Dev)
    (k_d : After dev0 d) : After dev0 (arrEnd die pass idOk trainOk verified d) := by
  unfold arrEnd
  dsimp only
  split
  · exact k_d
  · split
    · exact k_d
    · refine leaveCheck_after _ _ ?_
      have k := fun h x => tokenBack_after h _ (diePut_after d die x k_d)
      split
      · exact programEnd_after _ _ _ _ (k _ _)
      · exact eraseEnd_after _ _ _ _ _ (k _ _)
      · exact resetEnd_after _ _ _ _ (k _ _)
      · exact after_ite (k _ _) (resetEnd_after _ _ _ _ (k _ _))
      · exact k _ _

@[simp] theorem pqDrop_after {dev0 : Dev} (die : Nat) (d : Dev) (k_d : After dev0 d) :
    After dev0 (pqDrop die d) := by
  simp +contextual (maxDischargeDepth := 50) [pqDrop, k_d]

@[simp] theorem dieTakeOut_after {dev0 : Dev} (die who : Nat) (d : Dev) (k_d : After dev0 d) :
    After dev0 (dieTakeOut die who d) := by
  unfold dieTakeOut
  simp +contextual (maxDischargeDepth := 50) [k_d]
  (repeat' split) <;> simp_all +contextual (maxDischargeDepth := 50)

@[simp] theorem timeoutJob_after {dev0 : Dev} (die : Nat) (j : FJob) (d : Dev) (k_d : After dev0 d) :
    After dev0 (timeoutJob die j d) := by
  unfold timeoutJob
  (repeat' split) <;> simp_all +contextual (maxDischargeDepth := 50)

@[simp] theorem dieTimeout_after {dev0 : Dev} (die : Nat) (ok : BitVec 4) (d : Dev) (k_d : After dev0 d) :
    After dev0 (dieTimeout die ok d).2 := by
  unfold dieTimeout
  simp +contextual (maxDischargeDepth := 50) [k_d]
  (repeat' split) <;> simp_all +contextual (maxDischargeDepth := 50)

@[simp] theorem takeOutDie_after {dev0 : Dev} (c : Src) (n : Nat) (d : Dev) (k_d : After dev0 d) :
    After dev0 (takeOutDie c n d) := by
  simp +contextual (maxDischargeDepth := 50) [takeOutDie, k_d]

@[simp] theorem takeOutChan_after {dev0 : Dev} (c : Src) (k : Nat) (d : Dev) (k_d : After dev0 d) :
    After dev0 (takeOutChan c k d) := by
  simp +contextual (maxDischargeDepth := 50) [takeOutChan, k_d]

@[simp] theorem returnDies_after {dev0 : Dev} (k : Nat) (ds : List Nat) (d : Dev) (k_d : After dev0 d) :
    After dev0 (returnDies k ds d) := by
  simp +contextual (maxDischargeDepth := 50) [returnDies, k_d]

@[simp] theorem returnDie_after {dev0 : Dev} (c : Src) (n : Nat) (d : Dev) (k_d : After dev0 d) :
    After dev0 (returnDie c n d) := by
  simp +contextual (maxDischargeDepth := 50) [returnDie, k_d]

@[simp] theorem returnChan_after {dev0 : Dev} (c : Src) (k : Nat) (d : Dev) (k_d : After dev0 d) :
    After dev0 (returnChan c k d) := by
  simp +contextual (maxDischargeDepth := 50) [returnChan, k_d]

end Sys2Proof.Machine
end

