-- ==== Sys2Proof/Laws/KeepDetector.lean ====
section
/-!
SUPPORT. What the operations of Machine/Detector.lean keep: one lemma per operation, that its result can follow what its argument can follow.
-/

set_option linter.unusedSimpArgs false
set_option maxRecDepth 4000

namespace Sys2Proof.Machine

@[simp] theorem entRead_after {dev0 : Dev} (m i : Nat) (d : Dev) (k_d : After dev0 d) : After dev0 (entRead m i d).2 := by
  unfold entRead
  dsimp only
  split
  · exact unitRead_after _ _ _ _ k_d
  · exact unitRefuse_after _ _ _ _ _ _ k_d
  · exact k_d

@[simp] theorem detWake_after {dev0 : Dev} (d : Dev) (k_d : After dev0 d) :
    After dev0 (detWake d) := by
  unfold detWake
  simp +contextual (maxDischargeDepth := 50) [k_d]
  (repeat' split) <;> simp_all +contextual (maxDischargeDepth := 50)

@[simp] theorem ctxRequest_after {dev0 : Dev} (r : Nat) (d : Dev) (k_d : After dev0 d) :
    After dev0 (ctxRequest r d) := by
  unfold ctxRequest
  (repeat' split) <;> simp_all +contextual (maxDischargeDepth := 50)

@[simp] theorem ctxFree_after {dev0 : Dev} (r : Nat) (d : Dev) (k_d : After dev0 d) :
    After dev0 (ctxFree r d) := by
  unfold ctxFree
  simp +contextual (maxDischargeDepth := 50) [k_d]
  (repeat' split) <;> simp_all +contextual (maxDischargeDepth := 50)

@[simp] theorem detLoad_after {dev0 : Dev} (n i : Nat) (d : Dev) (k_d : After dev0 d) :
    After dev0 (detLoad n i d).2 := by
  unfold detLoad
  simp +contextual (maxDischargeDepth := 50) [k_d]
  (repeat' split) <;> simp_all +contextual (maxDischargeDepth := 50)

@[simp] theorem bufPut_after {dev0 : Dev} (n c : Nat) (s : Strobes) (d : Dev) (k_d : After dev0 d) :
    After dev0 (bufPut n c s d) := by
  simp +contextual (maxDischargeDepth := 50) [bufPut, k_d]

@[simp] theorem binInval_after {dev0 : Dev} (v : Word) (d : Dev) (k_d : After dev0 d) :
    After dev0 (binInval v d) := by
  simp +contextual (maxDischargeDepth := 50) [binInval, k_d]

@[simp] theorem detProfWrite_after {dev0 : Dev} (v : Word) (d : Dev) (k_d : After dev0 d) :
    After dev0 (detProfWrite v d) := by
  simp +contextual (maxDischargeDepth := 50) [detProfWrite, k_d]

@[simp] theorem selfTestStart_after {dev0 : Dev} (n : Nat) (d : Dev) (k_d : After dev0 d) :
    After dev0 (selfTestStart n d) := by
  simp +contextual (maxDischargeDepth := 50) [selfTestStart, k_d]

@[simp] theorem detCtrlWrite_after {dev0 : Dev} (n : Nat) (v : Word) (d : Dev) (k_d : After dev0 d) :
    After dev0 (detCtrlWrite n v d) := by
  simp +contextual (maxDischargeDepth := 50) [detCtrlWrite, k_d]

@[simp] theorem detModeBack_after {dev0 : Dev} (n : Nat) (d : Dev) (k_d : After dev0 d) :
    After dev0 (detModeBack n d) := by
  simp +contextual (maxDischargeDepth := 50) [detModeBack, k_d]

@[simp] theorem selfTestDone_after {dev0 : Dev} (n : Nat) (pass : Bool) (d : Dev) (k_d : After dev0 d) :
    After dev0 (selfTestDone n pass d) := by
  simp +contextual (maxDischargeDepth := 50) [selfTestDone, k_d]

@[simp] theorem detLeave_after {dev0 : Dev} (n who : Nat) (d : Dev) (k_d : After dev0 d) :
    After dev0 (detLeave n who d) := by
  simp +contextual (maxDischargeDepth := 50) [detLeave, k_d]

@[simp] theorem takeOutDet_after {dev0 : Dev} (c : Src) (n : Nat) (d : Dev) (k_d : After dev0 d) :
    After dev0 (takeOutDet c n d) := by
  simp +contextual (maxDischargeDepth := 50) [takeOutDet, k_d]

@[simp] theorem returnDet_after {dev0 : Dev} (c : Src) (n : Nat) (d : Dev) (k_d : After dev0 d) :
    After dev0 (returnDet c n d) := by
  simp +contextual (maxDischargeDepth := 50) [returnDet, k_d]

end Sys2Proof.Machine
end

