-- ==== Sys2Proof/Laws/KeepAffine.lean ====
section
/-!
SUPPORT. What the operations of Machine/Affine.lean keep: one lemma per operation, that its result can follow what its argument can follow.
-/

set_option linter.unusedSimpArgs false
set_option maxRecDepth 4000

namespace Sys2Proof.Machine

@[simp] theorem affMod_after {dev0 : Dev} (f : Aff → Aff) (d : Dev) (k_d : After dev0 d) :
    After dev0 (affMod f d) := by
  simp +contextual (maxDischargeDepth := 50) [affMod, k_d]

@[simp] theorem evFree_after {dev0 : Dev} (a0 a1 : Nat) (d : Dev) (k_d : After dev0 d) :
    After dev0 (evFree a0 a1 d) := by
  simp +contextual (maxDischargeDepth := 50) [evFree, k_d]

@[simp] theorem asyncPost_after {dev0 : Dev} (ck dw0 : Nat) (d : Dev) (k_d : After dev0 d) :
    After dev0 (asyncPost ck dw0 d) := by
  unfold asyncPost
  simp +contextual (maxDischargeDepth := 50) [k_d]
  (repeat' split) <;> simp_all +contextual (maxDischargeDepth := 50)

@[simp] theorem asyncAll_after {dev0 : Dev} (dw0 : Nat) (d : Dev) (k_d : After dev0 d) :
    After dev0 (asyncAll dw0 d) := by
  simp +contextual (maxDischargeDepth := 50) [asyncAll, k_d]

@[simp] theorem ewPut_after {dev0 : Dev} (b : Nat) (v : Bool) (d : Dev) (k_d : After dev0 d) :
    After dev0 (ewPut b v d) := by
  simp +contextual (maxDischargeDepth := 50) [ewPut, k_d]

@[simp] theorem ewCheck_after {dev0 : Dev} (d : Dev) (k_d : After dev0 d) :
    After dev0 (ewCheck d) := by
  simp +contextual (maxDischargeDepth := 50) [ewCheck, k_d]

@[simp] theorem backlogMidnight_after {dev0 : Dev} (d : Dev) (k_d : After dev0 d) :
    After dev0 (backlogMidnight d) := by
  simp +contextual (maxDischargeDepth := 50) [backlogMidnight, k_d]

@[simp] theorem ladderCheck_after {dev0 : Dev} (d : Dev) (k_d : After dev0 d) :
    After dev0 (ladderCheck d) := by
  simp +contextual (maxDischargeDepth := 50) [ladderCheck, k_d]

@[simp] theorem affReport_after {dev0 : Dev} (die b depth : Nat) (d : Dev) (k_d : After dev0 d) :
    After dev0 (affReport die b depth d) := by
  simp +contextual (maxDischargeDepth := 50) [affReport, k_d]

@[simp] theorem affSlot_after {dev0 : Dev} (i : Nat) (d : Dev) (k_d : After dev0 d) : After dev0 (affSlot i d).2 := by
  unfold affSlot
  split
  · exact unitRead_after _ _ _ _ k_d
  · exact unitRefuse_after _ _ _ _ _ _ k_d
  · exact k_d

@[simp] theorem entStore_after {dev0 : Dev} (i : Nat) (slot e new : List Byte) (d : Dev) (k_d : After dev0 d) :
    After dev0 (entStore i slot e new d) := by
  unfold entStore
  dsimp only
  split
  · exact affMod_after _ _ (binInval_after _ _ (unitWrite_after _ _ _ k_d))
  · exact unitRefuse_after _ _ _ _ _ _ k_d
  · exact k_d

@[simp] theorem binUpdate_after {dev0 : Dev} (i : Nat) (d : Dev) (k_d : After dev0 d) :
    After dev0 (binUpdate i d) := by
  unfold binUpdate
  simp +contextual (maxDischargeDepth := 50) [k_d]
  (repeat' split) <;> simp_all +contextual (maxDischargeDepth := 50)

@[simp] theorem binLearn_after {dev0 : Dev} (i : Nat) (es : List ThrEst) (d : Dev) (k_d : After dev0 d) :
    After dev0 (binLearn i es d) := by
  simp +contextual (maxDischargeDepth := 50) [binLearn, k_d]

@[simp] theorem binTimeout_after {dev0 : Dev} (i : Nat) (d : Dev) (k_d : After dev0 d) :
    After dev0 (binTimeout i d) := by
  simp +contextual (maxDischargeDepth := 50) [binTimeout, k_d]

@[simp] theorem learnedWrite_after {dev0 : Dev} (shutdown : Bool) (d : Dev) (k_d : After dev0 d) :
    After dev0 (learnedWrite shutdown d) := by
  simp +contextual (maxDischargeDepth := 50) [learnedWrite, k_d]

@[simp] theorem cycleStart_after {dev0 : Dev} (d : Dev) (k_d : After dev0 d) :
    After dev0 (cycleStart d) := by
  simp +contextual (maxDischargeDepth := 50) [cycleStart, k_d]

@[simp] theorem sweepStart_after {dev0 : Dev} (d : Dev) (k_d : After dev0 d) :
    After dev0 (sweepStart d) := by
  simp +contextual (maxDischargeDepth := 50) [sweepStart, k_d]

@[simp] theorem cycleCheck_after {dev0 : Dev} (d : Dev) (k_d : After dev0 d) :
    After dev0 (cycleCheck d) := by
  unfold cycleCheck
  (repeat' split) <;> simp_all +contextual (maxDischargeDepth := 50)

@[simp] theorem sampleNew_after {dev0 : Dev} (key points spacing : Nat) (report : Bool) (d : Dev) (k_d : After dev0 d) :
    After dev0 (sampleNew key points spacing report d) := by
  simp +contextual (maxDischargeDepth := 50) [sampleNew, k_d]

@[simp] theorem cadenceSample_after {dev0 : Dev} (points spacing : Nat) (d : Dev) (k_d : After dev0 d) :
    After dev0 (cadenceSample points spacing d) := by
  unfold cadenceSample
  (repeat' split) <;> simp_all +contextual (maxDischargeDepth := 50)

@[simp] theorem reportEstimate_after {dev0 : Dev} (points spacing : Nat) (d : Dev) (k_d : After dev0 d) :
    After dev0 (reportEstimate points spacing d) := by
  unfold reportEstimate
  (repeat' split) <;> simp_all +contextual (maxDischargeDepth := 50)

@[simp] theorem sampleEnd_after {dev0 : Dev} (x : Run) (report : Bool) (es : List ThrEst) (cells : Nat) (d : Dev) (k_d : After dev0 d) :
    After dev0 (sampleEnd x report es cells d) := by
  simp +contextual (maxDischargeDepth := 50) [sampleEnd, k_d]

@[simp] theorem affCtrlWrite_after {dev0 : Dev} (v : Word) (d : Dev) (k_d : After dev0 d) :
    After dev0 (affCtrlWrite v d) := by
  simp +contextual (maxDischargeDepth := 50) [affCtrlWrite, k_d]

@[simp] theorem countsPut_after {dev0 : Dev} (f : Nat → Nat) (d : Dev) (k_d : After dev0 d) :
    After dev0 (countsPut f d) := by
  simp +contextual (maxDischargeDepth := 50) [countsPut, k_d]

@[simp] theorem countsSave_after {dev0 : Dev} (d : Dev) (k_d : After dev0 d) :
    After dev0 (countsSave d) := by
  simp +contextual (maxDischargeDepth := 50) [countsSave, k_d]

@[simp] theorem countsLoad_after {dev0 : Dev} (d : Dev) (k_d : After dev0 d) :
    After dev0 (countsLoad d) := by
  simp +contextual (maxDischargeDepth := 50) [countsLoad, k_d]

@[simp] theorem countsFormat_after {dev0 : Dev} (d : Dev) (k_d : After dev0 d) :
    After dev0 (countsFormat d) := by
  simp +contextual (maxDischargeDepth := 50) [countsFormat, k_d]

@[simp] theorem fdpTimes_after {dev0 : Dev} (old : Nat) (d : Dev) (k_d : After dev0 d) :
    After dev0 (fdpTimes old d) := by
  simp +contextual (maxDischargeDepth := 50) [fdpTimes, k_d]

@[simp] theorem mediaTick_after {dev0 : Dev} (d : Dev) (k_d : After dev0 d) :
    After dev0 (mediaTick d) := by
  simp +contextual (maxDischargeDepth := 50) [mediaTick, k_d]

@[simp] theorem mediaSave_after {dev0 : Dev} (d : Dev) (k_d : After dev0 d) :
    After dev0 (mediaSave d) := by
  simp +contextual (maxDischargeDepth := 50) [mediaSave, k_d]

@[simp] theorem timestampSet_after {dev0 : Dev} (ms : Nat) (d : Dev) (k_d : After dev0 d) :
    After dev0 (timestampSet ms d) := by
  simp +contextual (maxDischargeDepth := 50) [timestampSet, k_d]

@[simp] theorem timestampWait_after {dev0 : Dev} (d : Dev) (k_d : After dev0 d) :
    After dev0 (timestampWait d) := by
  simp +contextual (maxDischargeDepth := 50) [timestampWait, k_d]

@[simp] theorem wearWrite_after {dev0 : Dev} (d : Dev) (k_d : After dev0 d) :
    After dev0 (wearWrite d) := by
  simp +contextual (maxDischargeDepth := 50) [wearWrite, k_d]

@[simp] theorem wearRecover_after {dev0 : Dev} (d : Dev) (k_d : After dev0 d) :
    After dev0 (wearRecover d) := by
  simp +contextual (maxDischargeDepth := 50) [wearRecover, k_d]

end Sys2Proof.Machine
end

