-- ==== Sys2Proof/Laws/KeepRetriever.lean ====
section
/-!
SUPPORT. What the operations of Machine/Retriever.lean keep: one lemma per operation, that its result can follow what its argument can follow.
-/

set_option linter.unusedSimpArgs false
set_option maxRecDepth 4000

namespace Sys2Proof.Machine

@[simp] theorem balCharge_after {dev0 : Dev} (p n : Nat) (d : Dev) (k_d : After dev0 d) :
    After dev0 (balCharge p n d) := by
  simp +contextual (maxDischargeDepth := 50) [balCharge, k_d]

@[simp] theorem memberReads_after {dev0 : Dev} (r : Nat) (rebuild : Bool) (x : Run) (s : Sb) (d : Dev) (k_d : After dev0 d) :
    After dev0 (memberReads r rebuild x s d) := by
  simp +contextual (maxDischargeDepth := 50) [memberReads, k_d]

@[simp] theorem depthNote_after {dev0 : Dev} (p depth : Nat) (d : Dev) (k_d : After dev0 d) :
    After dev0 (depthNote p depth d) := by
  simp +contextual (maxDischargeDepth := 50) [depthNote, k_d]

@[simp] theorem stepNote_after {dev0 : Dev} (x : Run) (d : Dev) (k_d : After dev0 d) :
    After dev0 (stepNote x d) := by
  simp +contextual (maxDischargeDepth := 50) [stepNote, k_d]

@[simp] theorem hostRunEnd_after {dev0 : Dev} (tag i die : Nat) (good : Bool) (data depth : Nat) (d : Dev) (k_d : After dev0 d) :
    After dev0 (hostRunEnd tag i die good data depth d) := by
  unfold hostRunEnd
  simp +contextual (maxDischargeDepth := 50) [k_d]
  (repeat' split) <;> simp_all +contextual (maxDischargeDepth := 50)

@[simp] theorem runDrop_after {dev0 : Dev} (r depth : Nat) (counted : Bool) (d : Dev) (k_d : After dev0 d) :
    After dev0 (runDrop r depth counted d) := by
  simp +contextual (maxDischargeDepth := 50) [runDrop, k_d]

@[simp] theorem memberEnd_after {dev0 : Dev} (p r : Nat) (rebuild good : Bool) (d : Dev) (k_d : After dev0 d) :
    After dev0 (memberEnd p r rebuild good d).2 := by
  unfold memberEnd
  (repeat' split) <;> simp_all +contextual (maxDischargeDepth := 50)

@[simp] theorem unrecRecord_after {dev0 : Dev} (loc : Loc) (nsid lba : Nat) (d : Dev) (k_d : After dev0 d) :
    After dev0 (unrecRecord loc nsid lba d) := by
  simp +contextual (maxDischargeDepth := 50) [unrecRecord, k_d]

@[simp] theorem journalLost_after {dev0 : Dev} (x : Run) (j : Nat) (both : Bool) (d : Dev) (k_d : After dev0 d) :
    After dev0 (journalLost x j both d) := by
  unfold journalLost
  (repeat' split) <;> simp_all +contextual (maxDischargeDepth := 50)

@[simp] theorem journalAgain_after {dev0 : Dev} (j : Nat) (d : Dev) (k_d : After dev0 d) :
    After dev0 (journalAgain j d) := by
  unfold journalAgain
  (repeat' split) <;> simp_all +contextual (maxDischargeDepth := 50)

@[simp] theorem runGive_after {dev0 : Dev} (x : Run) (r : Nat) (good : Bool) (depth : Nat) (d : Dev) (k_d : After dev0 d) :
    After dev0 (runGive x r good depth d).2 := by
  unfold runGive
  (repeat' split) <;> simp_all +contextual (maxDischargeDepth := 50)

@[simp] theorem runEnd_after {dev0 : Dev} (r : Nat) (good : Bool) (d : Dev) (k_d : After dev0 d) : After dev0 (runEnd r good d).2 := by
  unfold runEnd
  split
  · exact k_d
  · extract_lets ladder member depth n d0 d1 a b
    have kn : After dev0 n := after_ite (stepNote_after _ _ k_d) k_d
    have k0 : After dev0 d0 := after_ite kn (unrecRecord_after _ _ _ _ kn)
    have k1 : After dev0 d1 := runDrop_after _ _ _ _ k0
    have ka : After dev0 a.2 := runGive_after _ _ _ _ _ k1
    have kb : After dev0 b.2 := by
      refine after_foldl_snd (fun t q k => ?_) ka
      split
      · exact k
      · exact runGive_after _ _ _ _ _ (runDrop_after _ _ _ _ k)
    exact after_ite (affReport_after _ _ _ _ kb) (after_ite (affReport_after _ _ _ _ kb) kb)

@[simp] theorem detStart_after {dev0 : Dev} (r : Nat) (d : Dev) (k_d : After dev0 d) :
    After dev0 (detStart r d) := by
  unfold detStart
  (repeat' split) <;> simp_all +contextual (maxDischargeDepth := 50)

@[simp] theorem stepGo_after {dev0 : Dev} (r : Nat) (d : Dev) (k_d : After dev0 d) :
    After dev0 (stepGo r d) := by
  unfold stepGo
  (repeat' split) <;> simp_all +contextual (maxDischargeDepth := 50)

@[simp] theorem stepSix_after {dev0 : Dev} (r : Nat) (d : Dev) (k_d : After dev0 d) :
    After dev0 (stepSix r d).2 := by
  unfold stepSix
  simp +contextual (maxDischargeDepth := 50) [k_d]
  (repeat' split) <;> simp_all +contextual (maxDischargeDepth := 50)

@[simp] theorem stepTo_after {dev0 : Dev} (r s : Nat) (d : Dev) (k_d : After dev0 d) :
    After dev0 (stepTo r s d).2 := by
  unfold stepTo
  (repeat' split) <;> simp_all +contextual (maxDischargeDepth := 50)

@[simp] theorem loseAll_after {dev0 : Dev} (n : Nat) (rs : List Nat) (d : Dev) (k_d : After dev0 d) : After dev0 (loseAll n rs d) := by
  induction n generalizing rs d with
  | zero => exact k_d
  | succ n ih =>
    cases rs with
    | nil => exact k_d
    | cons r rs => exact ih _ _ (runEnd_after _ _ _ k_d)

@[simp] theorem loseOf_after {dev0 : Dev} (q : List Nat × Dev) (k_q : After dev0 q.2) : After dev0 (loseOf q) :=
  loseAll_after _ _ _ k_q

@[simp] theorem rawVerdict_after {dev0 : Dev} (r : Nat) (ok : Bool) (d : Dev) (k_d : After dev0 d) :
    After dev0 (rawVerdict r ok d) := by
  unfold rawVerdict
  (repeat' split) <;> simp_all +contextual (maxDischargeDepth := 50)

@[simp] theorem stepFail_after {dev0 : Dev} (r : Nat) (d : Dev) (k_d : After dev0 d) :
    After dev0 (stepFail r d) := by
  unfold stepFail
  (repeat' split) <;> simp_all +contextual (maxDischargeDepth := 50)

@[simp] theorem runMarkF_after {dev0 : Dev} (n r : Nat) (d : Dev) (k_d : After dev0 d) :
    After dev0 (runMarkF n r d) := by
  induction n generalizing r d with
  | zero => exact k_d
  | succ n ih =>
    unfold runMarkF
    split
    · exact k_d
    · have h : ∀ l : List Nat, After dev0 (l.foldl (fun y q => runMarkF n q y) d) := fun l => after_foldl (fun x a hx => ih a x hx) k_d
      dsimp only
      split
      · exact opMod_after _ _ _ (h _)
      · exact ih _ _ (h _)
      · exact ih _ _ (h _)
      · exact h _

@[simp] theorem runMark_after {dev0 : Dev} (r : Nat) (d : Dev) (k_d : After dev0 d) :
    After dev0 (runMark r d) := by
  unfold runMark
  simp_all +contextual (maxDischargeDepth := 50)

@[simp] theorem readStart_after {dev0 : Dev} (die r : Nat) (d : Dev) (k_d : After dev0 d) :
    After dev0 (readStart die r d) := by
  unfold readStart
  simp +contextual (maxDischargeDepth := 50) [k_d]
  (repeat' split) <;> simp_all +contextual (maxDischargeDepth := 50)

@[simp] theorem resumeCheck_after {dev0 : Dev} (die : Nat) (d : Dev) (k_d : After dev0 d) :
    After dev0 (resumeCheck die d) := by
  unfold resumeCheck
  simp +contextual (maxDischargeDepth := 50) [k_d]
  (repeat' split) <;> simp_all +contextual (maxDischargeDepth := 50)

@[simp] theorem rqLeave_after {dev0 : Dev} (r die : Nat) (d : Dev) (k_d : After dev0 d) :
    After dev0 (rqLeave r die d) := by
  simp +contextual (maxDischargeDepth := 50) [rqLeave, k_d]

@[simp] theorem pageOut_after {dev0 : Dev} (r die : Nat) (d : Dev) (k_d : After dev0 d) :
    After dev0 (pageOut r die d) := by
  simp +contextual (maxDischargeDepth := 50) [pageOut, k_d]

@[simp] theorem decTake_after {dev0 : Dev} (r : Nat) (d : Dev) (k_d : After dev0 d) :
    After dev0 (decTake r d) := by
  unfold decTake
  (repeat' split) <;> simp_all +contextual (maxDischargeDepth := 50)

@[simp] theorem decAssign_after {dev0 : Dev} (d : Dev) (k_d : After dev0 d) :
    After dev0 (decAssign d) := by
  simp +contextual (maxDischargeDepth := 50) [decAssign, k_d]

@[simp] theorem toDecode_after {dev0 : Dev} (r : Nat) (d : Dev) (k_d : After dev0 d) :
    After dev0 (toDecode r d) := by
  unfold toDecode
  (repeat' split) <;> simp_all +contextual (maxDischargeDepth := 50)

@[simp] theorem toDecodeWith_after {dev0 : Dev} (r : Nat) (hard : List Bool) (llr : List Int) (d : Dev) (k_d : After dev0 d) :
    After dev0 (toDecodeWith r hard llr d) := by
  unfold toDecodeWith
  (repeat' split) <;> simp_all +contextual (maxDischargeDepth := 50)

@[simp] theorem readEnd_after {dev0 : Dev} (die r : Nat) (d : Dev) (k_d : After dev0 d) :
    After dev0 (readEnd die r d) := by
  unfold readEnd
  simp +contextual (maxDischargeDepth := 50) [k_d]
  (repeat' split) <;> simp_all +contextual (maxDischargeDepth := 50)

@[simp] theorem lunReady_after {dev0 : Dev} (die plane : Nat) (pass idOk : Bool) (trainOk : BitVec 4) (verified : Bool) (d0 : Dev)
    (k_d0 : After dev0 d0) :
    After dev0 (lunReady die plane pass idOk trainOk verified d0) := by
  unfold lunReady
  simp +contextual (maxDischargeDepth := 50) [k_d0]
  (repeat' split) <;> simp_all +contextual (maxDischargeDepth := 50)

@[simp] theorem dieTimeoutAll_after {dev0 : Dev} (die : Nat) (trainOk : BitVec 4) (d : Dev) (k_d : After dev0 d) :
    After dev0 (dieTimeoutAll die trainOk d) := by
  simp +contextual (maxDischargeDepth := 50) [dieTimeoutAll, k_d]

@[simp] theorem ctxGrant_after {dev0 : Dev} (d : Dev) (k_d : After dev0 d) :
    After dev0 (ctxGrant d) := by
  unfold ctxGrant
  simp +contextual (maxDischargeDepth := 50) [k_d]
  (repeat' split) <;> simp_all +contextual (maxDischargeDepth := 50)

@[simp] theorem clampNote_after {dev0 : Dev} (n : Nat) (x : Run) (d : Dev) (k_d : After dev0 d) :
    After dev0 (clampNote n x d) := by
  simp +contextual (maxDischargeDepth := 50) [clampNote, k_d]

@[simp] theorem detAbort_after {dev0 : Dev} (n r : Nat) (x : Run) (d : Dev) (k_d : After dev0 d) :
    After dev0 (detAbort n r x d) := by
  unfold detAbort
  simp +contextual (maxDischargeDepth := 50) [k_d]
  (repeat' split) <;> simp_all +contextual (maxDischargeDepth := 50)

@[simp] theorem detCount1_after {dev0 : Dev} (n mode fix : Nat) (d : Dev) (k_d : After dev0 d) :
    After dev0 (detCount1 n mode fix d) := by
  simp +contextual (maxDischargeDepth := 50) [detCount1, k_d]

@[simp] theorem detHard_after {dev0 : Dev} (n r : Nat) (x : Run) (bits : List Bool) (d : Dev) (k_d : After dev0 d) :
    After dev0 (detHard n r x bits d) := by
  simp +contextual (maxDischargeDepth := 50) [detHard, k_d]

@[simp] theorem detSoft_after {dev0 : Dev} (n r : Nat) (x : Run) (planes : List (List Bool)) (d : Dev) (k_d : After dev0 d) :
    After dev0 (detSoft n r x planes d) := by
  simp +contextual (maxDischargeDepth := 50) [detSoft, k_d]

@[simp] theorem detNeighbour_after {dev0 : Dev} (n r : Nat) (x : Run) (s : Strobes) (d : Dev) (k_d : After dev0 d) :
    After dev0 (detNeighbour n r x s d) := by
  simp +contextual (maxDischargeDepth := 50) [detNeighbour, k_d]

@[simp] theorem pilotDone_after {dev0 : Dev} (n r : Nat) (x : Run) (obs : DetObs) (d : Dev) (k_d : After dev0 d) :
    After dev0 (pilotDone n r x obs d) := by
  unfold pilotDone
  (repeat' split) <;> simp_all +contextual (maxDischargeDepth := 50)

@[simp] theorem detJobDone_after {dev0 : Dev} (n c : Nat) (obs : DetObs) (fix : Nat) (d : Dev) (k_d : After dev0 d) :
    After dev0 (detJobDone n c obs fix d) := by
  unfold detJobDone
  (repeat' split) <;> simp_all +contextual (maxDischargeDepth := 50)

@[simp] theorem tagMismatch_after {dev0 : Dev} (x : Run) (d : Dev) (k_d : After dev0 d) :
    After dev0 (tagMismatch x d) := by
  simp +contextual (maxDischargeDepth := 50) [tagMismatch, k_d]

@[simp] theorem decodeDone_after {dev0 : Dev} (r : Nat) (out : DecOut) (fix : Nat) (d : Dev) (k_d : After dev0 d) :
    After dev0 (decodeDone r out fix d) := by
  unfold decodeDone
  (repeat' split) <;> simp_all +contextual (maxDischargeDepth := 50)

end Sys2Proof.Machine
end

