-- ==== Sys2Proof/Laws/KeepReads.lean ====
section
/-!
SUPPORT. What the operations of Machine/Reads.lean keep: one lemma per operation, that its result can follow what its argument can follow.
-/

set_option linter.unusedSimpArgs false
set_option maxRecDepth 4000

namespace Sys2Proof.Machine

@[simp] theorem kenCount_after {dev0 : Dev} (f : Kennel → Kennel) (k : Nat) (d : Dev) (k_d : After dev0 d) :
    After dev0 (kenCount f k d) := by
  simp +contextual (maxDischargeDepth := 50) [kenCount, k_d]

@[simp] theorem suspendIssue_after {dev0 : Dev} (r : Nat) (x : Run) (d : Dev) (k_d : After dev0 d) :
    After dev0 (suspendIssue r x d) := by
  unfold suspendIssue
  simp +contextual (maxDischargeDepth := 50) [k_d]
  (repeat' split) <;> simp_all +contextual (maxDischargeDepth := 50)

@[simp] theorem takePath_after {dev0 : Dev} (r : Nat) (x : Run) (d : Dev) (k_d : After dev0 d) :
    After dev0 (takePath r x d) := by
  unfold takePath
  (repeat' split) <;> simp_all +contextual (maxDischargeDepth := 50)

@[simp] theorem attachRun_after {dev0 : Dev} (r dst : Nat) (x : Run) (d : Dev) (k_d : After dev0 d) :
    After dev0 (attachRun r dst x d) := by
  unfold attachRun
  (repeat' split) <;> simp_all +contextual (maxDischargeDepth := 50)

@[simp] theorem dispatchOn_after {dev0 : Dev} (die : Nat) (d : Dev) (k_d : After dev0 d) :
    After dev0 (dispatchOn die d) := by
  unfold dispatchOn
  dsimp only
  (repeat' split) <;> simp +contextual (maxDischargeDepth := 50) [k_d]

@[simp] theorem againSettle_after {dev0 : Dev} (n : Nat) (d : Dev) (k_d : After dev0 d) :
    After dev0 (againSettle n d) := by
  induction n generalizing d with
  | zero => exact k_d
  | succ n ih =>
    unfold againSettle
    split
    · exact k_d
    · exact ih _ (takePath_after _ _ _ k_d)

@[simp] theorem settled_after {dev0 : Dev} (f : Dev → Dev) (d : Dev) (hf : ∀ x, After dev0 x → After dev0 (f x)) (k_d : After dev0 d) :
    After dev0 (settled f d) := by
  unfold settled
  exact againSettle_after _ _ (after_foldl (fun x q k => after_ite k (reask_after _ _ k)) (hf _ k_d))

@[simp] theorem readDispatch_after {dev0 : Dev} (die : Nat) (d : Dev) (k_d : After dev0 d) :
    After dev0 (readDispatch die d) := by
  unfold readDispatch
  simp +contextual (maxDischargeDepth := 50) [k_d]
  (repeat' split) <;> simp_all +contextual (maxDischargeDepth := 50)

@[simp] theorem busyReturn_after {dev0 : Dev} (die : Nat) (d : Dev) (k_d : After dev0 d) :
    After dev0 (busyReturn die d) := by
  unfold busyReturn
  (repeat' split) <;> simp_all +contextual (maxDischargeDepth := 50)

@[simp] theorem suspendTakes_after {dev0 : Dev} (die : Nat) (complete pass verified : Bool) (d : Dev) (k_d : After dev0 d) :
    After dev0 (suspendTakes die complete pass verified d) := by
  unfold suspendTakes
  simp +contextual (maxDischargeDepth := 50) [k_d]
  (repeat' split) <;> simp_all +contextual (maxDischargeDepth := 50)

@[simp] theorem holdExpiry_after {dev0 : Dev} (die : Nat) (d : Dev) (k_d : After dev0 d) :
    After dev0 (holdExpiry die d) := by
  unfold holdExpiry
  simp +contextual (maxDischargeDepth := 50) [k_d]
  (repeat' split) <;> simp_all +contextual (maxDischargeDepth := 50)

@[simp] theorem readBlock_after {dev0 : Dev} (tag i : Nat) (o : Op) (d : Dev) (k_d : After dev0 d) :
    After dev0 (readBlock tag i o d) := by
  unfold readBlock
  simp +contextual (maxDischargeDepth := 50) [k_d]
  (repeat' split) <;> simp_all +contextual (maxDischargeDepth := 50)

@[simp] theorem readCmd_after {dev0 : Dev} (tag : Nat) (verify : Bool) (d : Dev) (k_d : After dev0 d) : After dev0 (readCmd tag verify d) := by
  have k0 : ∀ y, After dev0 { d with host := y } := fun y => ⟨k_d.1, k_d.2⟩
  have k1 : ∀ (b : Bool) (l : List Nat) y, After dev0 (if b then { d with host := y } else
      l.foldl (fun x s => segUse s false x) { d with host := y }) :=
    fun b l y => after_ite (k0 y) (after_foldl (fun x s k => segUse_after _ _ _ k) (k0 y))
  have k2 : ∀ (b : Bool) (l m : List Nat) y o, After dev0 (m.foldl (fun x i => readBlock tag i o x) (if b then { d with host := y } else
      l.foldl (fun x s => segUse s false x) { d with host := y })) :=
    fun b l m y o => after_foldl (fun x i k => readBlock_after _ _ _ _ k) (k1 b l y)
  unfold readCmd
  dsimp only
  split
  · exact k_d
  · split
    · exact k_d
    · refine after_ite k_d (after_ite (readClose_after _ _ _ _ _ k_d) ?_)
      split
      · exact readClose_after _ _ _ _ _ k_d
      · refine after_ite (readClose_after _ _ _ _ _ k_d) (after_ite (readClose_after _ _ _ _ _ k_d) ?_)
        split
        · exact k2 _ _ _ _ _
        · refine after_ite (k2 _ _ _ _ _) ?_
          split
          · exact readClose_after _ _ _ _ _ ⟨(k2 _ _ _ _ _).1, (k2 _ _ _ _ _).2⟩
          · exact after_ite (opEnd_after _ _ _ _ _ _ (k2 _ _ _ _ _)) (opMod_after _ _ _ (k2 _ _ _ _ _))

@[simp] theorem readBufs_after {dev0 : Dev} (o : Op) (d : Dev) (k_d : After dev0 d) :
    After dev0 (readBufs o d).2 := by
  simp +contextual (maxDischargeDepth := 50) [readBufs, k_d]

@[simp] theorem hostCipher_after {dev0 : Dev} (tag : Nat) (d : Dev) (k_d : After dev0 d) :
    After dev0 (hostCipher tag d) := by
  unfold hostCipher
  (repeat' split) <;> simp_all +contextual (maxDischargeDepth := 50)

@[simp] theorem hostTransfer_after {dev0 : Dev} (tag : Nat) (d : Dev) (k_d : After dev0 d) :
    After dev0 (hostTransfer tag d) := by
  unfold hostTransfer
  (repeat' split) <;> simp_all +contextual (maxDischargeDepth := 50)

@[simp] theorem segVerifyFail_after {dev0 : Dev} (seg : Nat) (d : Dev) (k_d : After dev0 d) :
    After dev0 (segVerifyFail seg d) := by
  unfold segVerifyFail
  simp +contextual (maxDischargeDepth := 50) [k_d]
  (repeat' split) <;> simp_all +contextual (maxDischargeDepth := 50)

@[simp] theorem segRebuildDone_after {dev0 : Dev} (seg : Nat) (d : Dev) (k_d : After dev0 d) :
    After dev0 (segRebuildDone seg d) := by
  simp +contextual (maxDischargeDepth := 50) [segRebuildDone, k_d]

@[simp] theorem rebuiltRow_after {dev0 : Dev} (sb k : Nat) (d : Dev) (k_d : After dev0 d) :
    After dev0 (rebuiltRow sb k d) := by
  unfold rebuiltRow
  (repeat' split) <;> simp_all +contextual (maxDischargeDepth := 50)

@[simp] theorem lostEntry_after {dev0 : Dev} (c : Copy) (sb k : Nat) (d : Dev) (k_d : After dev0 d) :
    After dev0 (lostEntry c sb k d) := by
  unfold lostEntry
  (repeat' split) <;> simp_all +contextual (maxDischargeDepth := 50)

@[simp] theorem rebuildNext_after {dev0 : Dev} (p : Nat) (ok : Bool) (d : Dev) (k_d : After dev0 d) :
    After dev0 (rebuildNext p ok d) := by
  unfold rebuildNext
  simp +contextual (maxDischargeDepth := 50) [k_d]
  (repeat' split) <;> simp_all +contextual (maxDischargeDepth := 50)

@[simp] theorem accUe_after {dev0 : Dev} (d : Dev) (k_d : After dev0 d) :
    After dev0 (accUe d) := by
  simp +contextual (maxDischargeDepth := 50) [accUe, k_d]

end Sys2Proof.Machine
end

