-- ==== Sys2Proof/Laws/KeepCare.lean ====
section
/-!
SUPPORT. What the operations of Machine/Care.lean keep: one lemma per operation, that its result can follow what its argument can follow.
-/

set_option linter.unusedSimpArgs false
set_option maxRecDepth 4000

namespace Sys2Proof.Machine

@[simp] theorem moveUnit_after {dev0 : Dev} (nsid zs src tgt o : Nat) (d : Dev) (k_d : After dev0 d) :
    After dev0 (moveUnit nsid zs src tgt o d) := by
  unfold moveUnit
  simp +contextual (maxDischargeDepth := 50) [k_d]
  (repeat' split) <;> simp_all +contextual (maxDischargeDepth := 50)

@[simp] theorem zoneMoveStart_after {dev0 : Dev} (zk : Nat) (z : Zone) (id : Nat) (s : Sb) (d : Dev) (k_d : After dev0 d) :
    After dev0 (zoneMoveStart zk z id s d) := by
  unfold zoneMoveStart
  split
  · exact evFree_after _ _ _ k_d
  · rename_i hs
    have k1 := sbOpen_after k_d hs
    exact after_ite (evFree_after _ _ _ k_d)
      (after_foldl (fun x o k => moveUnit_after _ _ _ _ _ _ k) (zoneSet_after _ _ _ (after_mk.2 ⟨k1.fuse, k1.hw⟩)))

@[simp] theorem journalRefresh_after {dev0 : Dev} (key : Nat) (d : Dev) (k_d : After dev0 d) :
    After dev0 (journalRefresh key d) := by
  simp +contextual (maxDischargeDepth := 50) [journalRefresh, k_d]

@[simp] theorem refreshOne_after {dev0 : Dev} (e : RefEnt) (d : Dev) (k_d : After dev0 d) : After dev0 (refreshOne e d) := by
  have k1 : ∀ y, After dev0 { d with med := y } := fun y => ⟨k_d.1, k_d.2⟩
  unfold refreshOne
  dsimp only
  split
  · split
    · exact after_ite k_d (zoneMoveStart_after _ _ _ _ _ k_d)
    · exact sbErase_after _ _ k_d
  · refine after_ite (sbErase_after _ _ (k1 _)) ?_
    split
    · exact evFree_after _ _ _ k_d
    · rename_i ht
      have k2 := gcTarget_after (k1 _) ht
      exact ⟨k2.1, md_after _ _ _ k2.2⟩
  · exact after_ite (unqueueSb_after _ _ (parkSweep_after _ (parkRelocate_after _ _ _ _ _ (k1 _)))) (evFree_after _ _ _ k_d)
  · exact journalRefresh_after _ _ k_d
  · exact queuePut_after _ _ (volWrite_after _ k_d)
  · exact queuePut_after _ _ (wearWrite_after _ k_d)
  · exact k_d

@[simp] theorem refreshFirst_after {dev0 : Dev} (l : List RefEnt) (d : Dev) (k_d : After dev0 d) :
    After dev0 (refreshFirst l d) := by
  induction l generalizing d with
  | nil => exact k_d
  | cons e l ih =>
    unfold refreshFirst
    exact after_ite (ih _ (refreshOne_after _ _ k_d)) (affMod_after _ _ (refreshOne_after _ _ k_d))

@[simp] theorem refreshStart_after {dev0 : Dev} (d : Dev) (k_d : After dev0 d) :
    After dev0 (refreshStart d) := by
  unfold refreshStart
  (repeat' split) <;> simp_all +contextual (maxDischargeDepth := 50)

@[simp] theorem zoneMoveSwitch_after {dev0 : Dev} (zk : Nat) (lost : List Nat) (d : Dev) (k_d : After dev0 d) :
    After dev0 (zoneMoveSwitch zk lost d) := by
  unfold zoneMoveSwitch
  simp +contextual (maxDischargeDepth := 50) [k_d]
  (repeat' split) <;> simp_all +contextual (maxDischargeDepth := 50)

@[simp] theorem zoneRebind_after {dev0 : Dev} (d : Dev) (q : Nat × Zone) (k_d : After dev0 d) :
    After dev0 (zoneRebind d q) := by
  simp +contextual (maxDischargeDepth := 50) [zoneRebind, k_d]

theorem dumpPark_after {dev0 : Dev} {key : Option Nat} {group : Nat} {c : Copy} {d e : Dev} (k_d : After dev0 d)
    (h : dumpPark key group c d = some e) : After dev0 e := by
  unfold dumpPark at h
  obtain ⟨t, ht, rfl⟩ := Option.map_eq_some_iff.1 h
  have k := parkPlace_after (dumpHome d key c group) [c] _ (parkTarget_after k_d ht)
  exact after_ite (jput_after _ _ ⟨k.1, k.2⟩) k

@[simp] theorem movesRecover_after {dev0 : Dev} (d : Dev) (k_d : After dev0 d) : After dev0 (movesRecover d) := by
  unfold movesRecover
  refine after_foldl (fun x t kx => ?_) k_d
  have k : ∀ l : List (Nat × Copy), After dev0 (l.foldl (fun y q =>
      if (parkedAt y q.2.nsid q.2.lba).isSome then y else (dumpPark (some q.1) t.2.pack q.2 y).getD y) x) :=
    fun l => after_foldl (fun y q ky => after_ite ky (by
      cases h : dumpPark (some q.1) t.2.pack q.2 y with
      | none => exact ky
      | some e => exact dumpPark_after ky h)) kx
  exact sbErase_after _ _ (after_ite (k _) (queuePut_after _ _ (k _)))

@[simp] theorem rowsRecover_after {dev0 : Dev} (id : Nat) (s : Sb) (d : Dev) (k_d : After dev0 d) : After dev0 (rowsRecover id s d) := by
  unfold rowsRecover
  refine after_ite k_d (after_ite (sbPut_after _ _ _ k_d) (after_foldl (fun x r k => ?_) (sbPut_after _ _ _ k_d)))
  dsimp only
  split
  · exact k
  · exact after_ite k (rowsQueue_after _ _ _ (sbPut_after _ _ _ k))

@[simp] theorem strayErase_after {dev0 : Dev} (d : Dev) (k_d : After dev0 d) :
    After dev0 (strayErase d) := by
  simp +contextual (maxDischargeDepth := 50) [strayErase, k_d]

@[simp] theorem dumpRestore_after {dev0 : Dev} (zs : List (Nat × Zone)) (dump : List (Nat × Copy)) (loose : List Loose) (d : Dev)
    (k_d : After dev0 d) : After dev0 (dumpRestore zs dump loose d) := by
  unfold dumpRestore
  have k1 : ∀ l, After dev0 { d with med := { d.med with staged := l } } := fun l => ⟨k_d.1, k_d.2⟩
  refine after_foldl (fun x q k => parkPad_after _ _ _ k) (after_foldl (fun x u k => ?_) (movesRecover_after _
    (after_foldl (fun x q k => after_ite k ?_) (dirtyAdd_after _ _ (k1 _)))))
  · split
    · rename_i h
      exact dumpPark_after k h
    · exact dirtyAdd_after _ _ ⟨k.1, k.2⟩
  · cases h : dumpPark (some q.1) 0 q.2 x with
    | none => exact k
    | some e => exact dumpPark_after k h

@[simp] theorem recResume_after {dev0 : Dev} (d : Dev) (k_d : After dev0 d) :
    After dev0 (recResume d) := by
  simp +contextual (maxDischargeDepth := 50) [recResume, k_d]

@[simp] theorem pilotsMend_after {dev0 : Dev} (d : Dev) (k_d : After dev0 d) : After dev0 (pilotsMend d) := by
  unfold pilotsMend
  refine after_foldl (fun x q k => ?_) k_d
  have k1 := eraseAdd_after (q.1 / 4096) (q.1 % 4096) _ k
  dsimp only
  split
  · exact k1
  · split
    · exact memberReplace_after _ _ _ _ _ _ _ k1
    · exact k1

@[simp] theorem mapRecoverFrom_after {dev0 : Dev} (d : Dev) (k_d : After dev0 d) :
    After dev0 (mapRecoverFrom d) := by
  simp +contextual (maxDischargeDepth := 50) [mapRecoverFrom, k_d]

@[simp] theorem mapRecovery_after {dev0 : Dev} (d : Dev) (k_d : After dev0 d) :
    After dev0 (mapRecovery d) := by
  simp +contextual (maxDischargeDepth := 50) [mapRecovery, k_d]

end Sys2Proof.Machine
end

