-- ==== Sys2Proof/Laws/KeepPorts.lean ====
section
/-!
SUPPORT. What the operations of Machine/Ports.lean keep: one lemma per operation, that its result can follow what its argument can follow.
-/

set_option linter.unusedSimpArgs false
set_option maxRecDepth 4000

namespace Sys2Proof.Machine

@[simp] theorem hostIrq_after {dev0 : Dev} (p n : Nat) (d : Dev) (k_d : After dev0 d) :
    After dev0 (hostIrq p n d) := by
  simp +contextual (maxDischargeDepth := 50) [hostIrq, k_d]

@[simp] theorem ringPlace_after {dev0 : Dev} (port fn sq : Nat) (sqe : List Byte) (d : Dev) (k_d : After dev0 d) :
    After dev0 (ringPlace port fn sq sqe d) := by
  simp +contextual (maxDischargeDepth := 50) [ringPlace, k_d]

@[simp] theorem ringDrain_after {dev0 : Dev} (n : Nat) (d : Dev) (k_d : After dev0 d) : After dev0 (ringDrain n d) := by
  induction n generalizing d with
  | zero => exact k_d
  | succ n ih =>
    simp only [ringDrain]
    split
    · exact k_d
    · split
      · exact ih _ (ringPlace_after _ _ _ _ _ (after_mk.2 ⟨k_d.fuse, k_d.hw⟩))
      · exact k_d

@[simp] theorem ringDeliver_after {dev0 : Dev} (d : Dev) (k_d : After dev0 d) :
    After dev0 (ringDeliver d) := by
  simp +contextual (maxDischargeDepth := 50) [ringDeliver, k_d]

@[simp] theorem fetchAll_after {dev0 : Dev} (d : Dev) (k_d : After dev0 d) :
    After dev0 (fetchAll d) := by
  simp +contextual (maxDischargeDepth := 50) [fetchAll, k_d]

@[simp] theorem cmdSee_after {dev0 : Dev} (p fn sq : Nat) (c : IoCmd) (d : Dev) (k_d : After dev0 d) :
    After dev0 (cmdSee p fn sq c d) := by
  simp +contextual (maxDischargeDepth := 50) [cmdSee, k_d]

@[simp] theorem doorbell_after {dev0 : Dev} (p fn sq : Nat) (cmds : List IoCmd) (d : Dev) (k_d : After dev0 d) :
    After dev0 (doorbell p fn sq cmds d) := by
  simp +contextual (maxDischargeDepth := 50) [doorbell, k_d]

@[simp] theorem completionPost_after {dev0 : Dev} (m : Nat) (v : Word) (d : Dev) (k_d : After dev0 d) :
    After dev0 (completionPost m v d).2 := by
  have ki := itemComplete_after d.hw 12 m k_d.hw
  unfold completionPost
  split
  · rename_i heq
    rw [heq] at ki
    exact after_mk.2 ⟨k_d.fuse, ki⟩
  · rename_i heq
    rw [heq] at ki
    extract_lets port fn q d3
    split
    · exact after_mk.2 ⟨k_d.fuse, mwr_after _ _ _ _ ki⟩
    · exact ringDeliver_after _ (widthRestore_after _ _ (after_mk.2 ⟨k_d.fuse, mwr_after _ _ _ _ ki⟩))

@[simp] theorem opDiscard_after {dev0 : Dev} (tag : Nat) (d : Dev) (k_d : After dev0 d) : After dev0 (opDiscard tag d) := by
  unfold opDiscard
  have k : ∀ rs : List Nat, After dev0 (rs.foldl (fun x r => match runGet x r with
    | some q => rqLeave r q.loc.die
        { x with fl := { x.fl with overflow := x.fl.overflow.map (fun t => (t.1, t.2.filter (fun n => decide (n ≠ r)))) } }
    | none => x) d) := fun rs => after_foldl (fun x r kx => by
      split
      · exact rqLeave_after _ _ _ ⟨kx.1, kx.2⟩
      · exact kx) k_d
  exact opEnd_after _ _ _ _ _ _ (opMod_after _ _ _ (doomCheck_after _ ⟨(k _).1, (k _).2⟩))

@[simp] theorem ctrlReset_after {dev0 : Dev} (p fn : Nat) (d : Dev) (k_d : After dev0 d) :
    After dev0 (ctrlReset p fn d) := by
  simp +contextual (maxDischargeDepth := 50) [ctrlReset, k_d]

@[simp] theorem flr_after {dev0 : Dev} (p fn : Nat) (d : Dev) (k_d : After dev0 d) :
    After dev0 (flr p fn d) := by
  simp +contextual (maxDischargeDepth := 50) [flr, k_d]

@[simp] theorem clr_after {dev0 : Dev} (p fn : Nat) (d : Dev) (k_d : After dev0 d) :
    After dev0 (clr p fn d) := by
  simp +contextual (maxDischargeDepth := 50) [clr, k_d]

@[simp] theorem ccEnWrite_after {dev0 : Dev} (p fn : Nat) (en : Bool) (cc aqa : Word) (asq acq : DWord) (d : Dev) (k_d : After dev0 d) :
    After dev0 (ccEnWrite p fn en cc aqa asq acq d) := by
  simp +contextual (maxDischargeDepth := 50) [ccEnWrite, k_d]

@[simp] theorem ccShnWrite_after {dev0 : Dev} (p fn shn : Nat) (d : Dev) (k_d : After dev0 d) :
    After dev0 (ccShnWrite p fn shn d) := by
  simp +contextual (maxDischargeDepth := 50) [ccShnWrite, k_d]

@[simp] theorem cctlWrite_after {dev0 : Dev} (v : Word) (d : Dev) (k_d : After dev0 d) :
    After dev0 (cctlWrite v d) := by
  simp +contextual (maxDischargeDepth := 50) [cctlWrite, k_d]

@[simp] theorem hostifCtrlWrite_after {dev0 : Dev} (v : Word) (d : Dev) (k_d : After dev0 d) :
    After dev0 (hostifCtrlWrite v d) := by
  simp +contextual (maxDischargeDepth := 50) [hostifCtrlWrite, k_d]

@[simp] theorem fwUpWrite_after {dev0 : Dev} (v : Word) (d : Dev) (k_d : After dev0 d) :
    After dev0 (fwUpWrite v d) := by
  simp +contextual (maxDischargeDepth := 50) [fwUpWrite, k_d]

@[simp] theorem hostifWrite_after {dev0 : Dev} (o : Nat) (v : Word) (d : Dev) (k_d : After dev0 d) :
    After dev0 (hostifWrite o v d) := by
  unfold hostifWrite
  (repeat' split) <;> simp_all +contextual (maxDischargeDepth := 50)

@[simp] theorem linkDrop_after {dev0 : Dev} (p : Nat) (dst : LinkSt) (d : Dev) (k_d : After dev0 d) :
    After dev0 (linkDrop p dst d) := by
  simp +contextual (maxDischargeDepth := 50) [linkDrop, k_d]

@[simp] theorem linkDown_after {dev0 : Dev} (p : Nat) (disabled : Bool) (d : Dev) (k_d : After dev0 d) :
    After dev0 (linkDown p disabled d) := by
  simp +contextual (maxDischargeDepth := 50) [linkDown, k_d]

@[simp] theorem perstAssert_after {dev0 : Dev} (p : Nat) (d : Dev) (k_d : After dev0 d) :
    After dev0 (perstAssert p d) := by
  simp +contextual (maxDischargeDepth := 50) [perstAssert, k_d]

@[simp] theorem perstRelease_after {dev0 : Dev} (p : Nat) (d : Dev) (k_d : After dev0 d) :
    After dev0 (perstRelease p d) := by
  simp +contextual (maxDischargeDepth := 50) [perstRelease, k_d]

@[simp] theorem linkTrained_after {dev0 : Dev} (p rate width : Nat) (flit : Bool) (d : Dev) (k_d : After dev0 d) :
    After dev0 (linkTrained p rate width flit d) := by
  simp +contextual (maxDischargeDepth := 50) [linkTrained, k_d]

@[simp] theorem powerSet_after {dev0 : Dev} (p fn : Nat) (d3hot : Bool) (d : Dev) (k_d : After dev0 d) :
    After dev0 (powerSet p fn d3hot d) := by
  simp +contextual (maxDischargeDepth := 50) [powerSet, k_d]

@[simp] theorem configRequest_after {dev0 : Dev} (p fn : Nat) (what : CfgAsk) (d : Dev) (k_d : After dev0 d) :
    After dev0 (configRequest p fn what d) := by
  unfold configRequest
  (repeat' split) <;> simp_all +contextual (maxDischargeDepth := 50)

@[simp] theorem bootConfigTimeout_after {dev0 : Dev} (p : Nat) (d : Dev) (k_d : After dev0 d) :
    After dev0 (bootConfigTimeout p d) := by
  simp +contextual (maxDischargeDepth := 50) [bootConfigTimeout, k_d]

@[simp] theorem widthReduce_after {dev0 : Dev} (p : Nat) (d : Dev) (k_d : After dev0 d) :
    After dev0 (widthReduce p d) := by
  simp +contextual (maxDischargeDepth := 50) [widthReduce, k_d]

@[simp] theorem partnerWidth_after {dev0 : Dev} (p w : Nat) (d : Dev) (k_d : After dev0 d) :
    After dev0 (partnerWidth p w d) := by
  simp +contextual (maxDischargeDepth := 50) [partnerWidth, k_d]

@[simp] theorem l12Entry_after {dev0 : Dev} (p : Nat) (d : Dev) (k_d : After dev0 d) :
    After dev0 (l12Entry p d) := by
  simp +contextual (maxDischargeDepth := 50) [l12Entry, k_d]

@[simp] theorem clkreqWake_after {dev0 : Dev} (p : Nat) (d : Dev) (k_d : After dev0 d) :
    After dev0 (clkreqWake p d) := by
  simp +contextual (maxDischargeDepth := 50) [clkreqWake, k_d]

@[simp] theorem ptmRefresh_after {dev0 : Dev} (p : Nat) (offset : DWord) (d : Dev) (k_d : After dev0 d) :
    After dev0 (ptmRefresh p offset d) := by
  simp +contextual (maxDischargeDepth := 50) [ptmRefresh, k_d]

@[simp] theorem ptmFail_after {dev0 : Dev} (p : Nat) (d : Dev) (k_d : After dev0 d) :
    After dev0 (ptmFail p d) := by
  simp +contextual (maxDischargeDepth := 50) [ptmFail, k_d]

@[simp] theorem pcieError_after {dev0 : Dev} (p : Nat) (uncor : Bool) (d : Dev) (k_d : After dev0 d) :
    After dev0 (pcieError p uncor d) := by
  simp +contextual (maxDischargeDepth := 50) [pcieError, k_d]

@[simp] theorem hmbEnable_after {dev0 : Dev} (c : Src) (units : Nat) (d : Dev) (k_d : After dev0 d) :
    After dev0 (hmbEnable c units d) := by
  simp +contextual (maxDischargeDepth := 50) [hmbEnable, k_d]

@[simp] theorem hmbDisable_after {dev0 : Dev} (c : Src) (d : Dev) (k_d : After dev0 d) :
    After dev0 (hmbDisable c d) := by
  simp +contextual (maxDischargeDepth := 50) [hmbDisable, k_d]

end Sys2Proof.Machine
end

