-- ==== Sys2Proof/Laws/KeepZoneCmds.lean ====
section
/-!
SUPPORT. What the operations of Machine/ZoneCmds.lean keep: one lemma per operation, that its result can follow what its argument can follow.
-/

set_option linter.unusedSimpArgs false
set_option maxRecDepth 4000

namespace Sys2Proof.Machine

@[simp] theorem zoneOffline_after {dev0 : Dev} (zk : Nat) (d : Dev) (k_d : After dev0 d) :
    After dev0 (zoneOffline zk d) := by
  unfold zoneOffline
  (repeat' split) <;> simp_all +contextual (maxDischargeDepth := 50)

@[simp] theorem zoneAct_after {dev0 : Dev} (a : ZAct) (zk tag : Nat) (victim : Option Nat) (d : Dev) (k_d : After dev0 d) :
    After dev0 (zoneAct a zk tag victim d).2 := by
  unfold zoneAct
  simp +contextual (maxDischargeDepth := 50) [k_d]
  (repeat' split) <;> simp_all +contextual (maxDischargeDepth := 50)

@[simp] theorem zoneSend_after {dev0 : Dev} (act : ZAct) (tag : Nat) (d : Dev) (k_d : After dev0 d) :
    After dev0 (zoneSend act tag d) := by
  unfold zoneSend
  simp +contextual (maxDischargeDepth := 50) [k_d]
  (repeat' split) <;> simp_all +contextual (maxDischargeDepth := 50)

@[simp] theorem tagsEnd_after {dev0 : Dev} (ts : List Nat) (d : Dev) (k_d : After dev0 d) : After dev0 (tagsEnd ts d) := by
  induction ts generalizing d with
  | nil => exact k_d
  | cons t ts ih => exact ih _ (after_ite k_d (opEnd_after _ _ _ _ _ _ k_d))

@[simp] theorem secLeave_after {dev0 : Dev} (p : Nat) (d : Dev) (k_d : After dev0 d) :
    After dev0 (secLeave p d) := by
  unfold secLeave
  (repeat' split) <;> simp_all +contextual (maxDischargeDepth := 50)

@[simp] theorem secureResetDone_after {dev0 : Dev} (p : Nat) (d : Dev) (k_d : After dev0 d) :
    After dev0 (secureResetDone p d) := by
  unfold secureResetDone
  (repeat' split) <;> simp_all +contextual (maxDischargeDepth := 50)

@[simp] theorem zoneFrl_after {dev0 : Dev} (zk : Nat) (d : Dev) (k_d : After dev0 d) :
    After dev0 (zoneFrl zk d) := by
  unfold zoneFrl
  (repeat' split) <;> simp_all +contextual (maxDischargeDepth := 50)

@[simp] theorem zoneForced_after {dev0 : Dev} (zk : Nat) (d : Dev) (k_d : After dev0 d) :
    After dev0 (zoneForced zk d) := by
  simp +contextual (maxDischargeDepth := 50) [zoneForced, k_d]

@[simp] theorem zonesStuck_after {dev0 : Dev} (d : Dev) (k_d : After dev0 d) :
    After dev0 (zonesStuck d) := by
  simp +contextual (maxDischargeDepth := 50) [zonesStuck, k_d]

@[simp] theorem parkIdle_after {dev0 : Dev} (zk : Nat) (d : Dev) (k_d : After dev0 d) :
    After dev0 (parkIdle zk d) := by
  simp +contextual (maxDischargeDepth := 50) [parkIdle, k_d]

@[simp] theorem reportZones_after {dev0 : Dev} (c : Src) (sq nsid lba count : Nat) (d : Dev) (k_d : After dev0 d) :
    After dev0 (reportZones c sq nsid lba count d) := by
  unfold reportZones
  (repeat' split) <;> simp_all +contextual (maxDischargeDepth := 50)

@[simp] theorem flushCmd_after {dev0 : Dev} (c : Src) (sq nsid : Nat) (d : Dev) (k_d : After dev0 d) :
    After dev0 (flushCmd c sq nsid d) := by
  simp +contextual (maxDischargeDepth := 50) [flushCmd, k_d]

@[simp] theorem writeZeroes_after {dev0 : Dev} (tag : Nat) (d : Dev) (k_d : After dev0 d) :
    After dev0 (writeZeroes tag d) := by
  unfold writeZeroes
  (repeat' split) <;> simp_all +contextual (maxDischargeDepth := 50)

@[simp] theorem deallocate_after {dev0 : Dev} (tag : Nat) (d : Dev) (k_d : After dev0 d) :
    After dev0 (deallocate tag d) := by
  unfold deallocate
  (repeat' split) <;> simp_all +contextual (maxDischargeDepth := 50)

@[simp] theorem discardNote_after {dev0 : Dev} (d : Dev) (k_d : After dev0 d) :
    After dev0 (discardNote d) := by
  simp +contextual (maxDischargeDepth := 50) [discardNote, k_d]

@[simp] theorem secureDiscard_after {dev0 : Dev} (tag : Nat) (d : Dev) (k_d : After dev0 d) :
    After dev0 (secureDiscard tag d) := by
  unfold secureDiscard
  (repeat' split) <;> simp_all +contextual (maxDischargeDepth := 50)

@[simp] theorem secureDiscardDone_after {dev0 : Dev} (p : Nat) (d : Dev) (k_d : After dev0 d) :
    After dev0 (secureDiscardDone p d) := by
  unfold secureDiscardDone
  (repeat' split) <;> simp_all +contextual (maxDischargeDepth := 50)

end Sys2Proof.Machine
end

