-- ==== Sys2Proof/Laws/KeepHoldup.lean ====
section
/-!
SUPPORT. What the operations of Machine/Holdup.lean keep: one lemma per operation, that its result can follow what its argument can follow.
-/

set_option linter.unusedSimpArgs false
set_option maxRecDepth 4000

namespace Sys2Proof.Machine

@[simp] theorem holdupMod_after {dev0 : Dev} (f : Holdup → Holdup) (d : Dev) (k_d : After dev0 d) :
    After dev0 (holdupMod f d) := by
  simp +contextual (maxDischargeDepth := 50) [holdupMod, k_d]

@[simp] theorem actPut_after {dev0 : Dev} (ma : Nat) (d : Dev) (k_d : After dev0 d) :
    After dev0 (actPut ma d) := by
  simp +contextual (maxDischargeDepth := 50) [actPut, k_d]

@[simp] theorem limitUpdate_after {dev0 : Dev} (d : Dev) (k_d : After dev0 d) :
    After dev0 (limitUpdate d) := by
  simp +contextual (maxDischargeDepth := 50) [limitUpdate, k_d]

@[simp] theorem holdupEvent_after {dev0 : Dev} (k : Nat) (d : Dev) (k_d : After dev0 d) :
    After dev0 (holdupEvent k d) := by
  simp +contextual (maxDischargeDepth := 50) [holdupEvent, k_d]

@[simp] theorem degradedCheck_after {dev0 : Dev} (d : Dev) (k_d : After dev0 d) :
    After dev0 (degradedCheck d) := by
  simp +contextual (maxDischargeDepth := 50) [degradedCheck, k_d]

@[simp] theorem bankTop_after {dev0 : Dev} (d : Dev) (k_d : After dev0 d) :
    After dev0 (bankTop d) := by
  simp +contextual (maxDischargeDepth := 50) [bankTop, k_d]

@[simp] theorem bankRecharge_after {dev0 : Dev} (v : Nat) (d : Dev) (k_d : After dev0 d) :
    After dev0 (bankRecharge v d) := by
  simp +contextual (maxDischargeDepth := 50) [bankRecharge, k_d]

@[simp] theorem headroomLower_after {dev0 : Dev} (ma : Nat) (d : Dev) (k_d : After dev0 d) :
    After dev0 (headroomLower ma d) := by
  simp +contextual (maxDischargeDepth := 50) [headroomLower, k_d]

@[simp] theorem headroomDetect_after {dev0 : Dev} (ma : Nat) (d : Dev) (k_d : After dev0 d) :
    After dev0 (headroomDetect ma d) := by
  simp +contextual (maxDischargeDepth := 50) [headroomDetect, k_d]

@[simp] theorem headroomRetry_after {dev0 : Dev} (ma : Nat) (d : Dev) (k_d : After dev0 d) :
    After dev0 (headroomRetry ma d) := by
  simp +contextual (maxDischargeDepth := 50) [headroomRetry, k_d]

@[simp] theorem measStart_after {dev0 : Dev} (d : Dev) (k_d : After dev0 d) :
    After dev0 (measStart d) := by
  simp +contextual (maxDischargeDepth := 50) [measStart, k_d]

@[simp] theorem measTimer_after {dev0 : Dev} (d : Dev) (k_d : After dev0 d) :
    After dev0 (measTimer d) := by
  simp +contextual (maxDischargeDepth := 50) [measTimer, k_d]

@[simp] theorem measOver_after {dev0 : Dev} (d : Dev) (k_d : After dev0 d) :
    After dev0 (measOver d) := by
  simp +contextual (maxDischargeDepth := 50) [measOver, k_d]

@[simp] theorem measFail_after {dev0 : Dev} (d : Dev) (k_d : After dev0 d) :
    After dev0 (measFail d) := by
  simp +contextual (maxDischargeDepth := 50) [measFail, k_d]

@[simp] theorem measSagEnd_after {dev0 : Dev} (v : Nat) (d : Dev) (k_d : After dev0 d) :
    After dev0 (measSagEnd v d) := by
  simp +contextual (maxDischargeDepth := 50) [measSagEnd, k_d]

@[simp] theorem measDone_after {dev0 : Dev} (t : Nat) (d : Dev) (k_d : After dev0 d) :
    After dev0 (measDone t d) := by
  simp +contextual (maxDischargeDepth := 50) [measDone, k_d]

@[simp] theorem measTimeout_after {dev0 : Dev} (d : Dev) (k_d : After dev0 d) :
    After dev0 (measTimeout d) := by
  simp +contextual (maxDischargeDepth := 50) [measTimeout, k_d]

@[simp] theorem readsAbandon_after {dev0 : Dev} (d : Dev) (k_d : After dev0 d) :
    After dev0 (readsAbandon d) := by
  simp +contextual (maxDischargeDepth := 50) [readsAbandon, k_d]

@[simp] theorem lunsReset_after {dev0 : Dev} (d : Dev) (k_d : After dev0 d) : After dev0 (lunsReset d) := by
  unfold lunsReset
  refine after_foldl (fun x q k => ?_) k_d
  split
  · exact after_ite (tokenBack_after _ _ (diePut_after _ _ _ k)) k
  · exact k

@[simp] theorem flushDown_after {dev0 : Dev} (n : Nat) (d : Dev) (k_d : After dev0 d) :
    After dev0 (flushDown n d) := by
  unfold flushDown
  simp +contextual (maxDischargeDepth := 50) [k_d]
  (repeat' split) <;> simp_all +contextual (maxDischargeDepth := 50)

@[simp] theorem flushUp_after {dev0 : Dev} (n : Nat) (d : Dev) (k_d : After dev0 d) :
    After dev0 (flushUp n d) := by
  simp +contextual (maxDischargeDepth := 50) [flushUp, k_d]

@[simp] theorem flushStart_after {dev0 : Dev} (d : Dev) (k_d : After dev0 d) :
    After dev0 (flushStart d) := by
  unfold flushStart
  simp +contextual (maxDischargeDepth := 50) [k_d]
  (repeat' split) <;> simp_all +contextual (maxDischargeDepth := 50)

@[simp] theorem flushTail_after {dev0 : Dev} (d : Dev) (k_d : After dev0 d) :
    After dev0 (flushTail d) := by
  simp +contextual (maxDischargeDepth := 50) [flushTail, k_d]

@[simp] theorem flushSix_after {dev0 : Dev} (mib : Nat) (late : Bool) (d : Dev) (k_d : After dev0 d) :
    After dev0 (flushSix mib late d) := by
  simp +contextual (maxDischargeDepth := 50) [flushSix, k_d]

@[simp] theorem flushResetsDone_after {dev0 : Dev} (d : Dev) (k_d : After dev0 d) :
    After dev0 (flushResetsDone d) := by
  simp +contextual (maxDischargeDepth := 50) [flushResetsDone, k_d]

@[simp] theorem flushEnd_after {dev0 : Dev} (d : Dev) (k_d : After dev0 d) :
    After dev0 (flushEnd d) := by
  simp +contextual (maxDischargeDepth := 50) [flushEnd, k_d]

@[simp] theorem flushDeadline_after {dev0 : Dev} (d : Dev) (k_d : After dev0 d) :
    After dev0 (flushDeadline d) := by
  simp +contextual (maxDischargeDepth := 50) [flushDeadline, k_d]

@[simp] theorem supplyBackNow_after {dev0 : Dev} (d : Dev) (k_d : After dev0 d) :
    After dev0 (supplyBackNow d) := by
  simp +contextual (maxDischargeDepth := 50) [supplyBackNow, k_d]

@[simp] theorem holdupEnable_after {dev0 : Dev} (d : Dev) (k_d : After dev0 d) :
    After dev0 (holdupEnable d) := by
  simp +contextual (maxDischargeDepth := 50) [holdupEnable, k_d]

@[simp] theorem holdupDisable_after {dev0 : Dev} (d : Dev) (k_d : After dev0 d) :
    After dev0 (holdupDisable d) := by
  simp +contextual (maxDischargeDepth := 50) [holdupDisable, k_d]

@[simp] theorem holdupCtrlWrite_after {dev0 : Dev} (v : Word) (d : Dev) (k_d : After dev0 d) :
    After dev0 (holdupCtrlWrite v d) := by
  simp +contextual (maxDischargeDepth := 50) [holdupCtrlWrite, k_d]

@[simp] theorem holdupWrite_after {dev0 : Dev} (o : Nat) (v : Word) (d : Dev) (k_d : After dev0 d) :
    After dev0 (holdupWrite o v d) := by
  unfold holdupWrite
  (repeat' split) <;> simp +contextual (maxDischargeDepth := 50) [k_d]

@[simp] theorem therm_after {dev0 : Dev} (f : Therm → Therm) (d : Dev) (k_d : After dev0 d) :
    After dev0 (therm f d) := by
  simp +contextual (maxDischargeDepth := 50) [therm, k_d]

@[simp] theorem levelEvents_after {dev0 : Dev} (base a b : Nat) (t : Int) (who : Nat) (h : Hw) (k_h : HwAfter dev0 h) :
    HwAfter dev0 (levelEvents base a b t who h) := by
  simp +contextual (maxDischargeDepth := 50) [levelEvents, k_h]

@[simp] theorem thresholdCheck_after {dev0 : Dev} (d : Dev) (k_d : After dev0 d) :
    After dev0 (thresholdCheck d) := by
  simp +contextual (maxDischargeDepth := 50) [thresholdCheck, k_d]

@[simp] theorem holdEnter_after {dev0 : Dev} (d : Dev) (k_d : After dev0 d) :
    After dev0 (holdEnter d) := by
  simp +contextual (maxDischargeDepth := 50) [holdEnter, k_d]

@[simp] theorem sensorConvert_after {dev0 : Dev} (ts : List Int) (d : Dev) (k_d : After dev0 d) :
    After dev0 (sensorConvert ts d) := by
  unfold sensorConvert
  dsimp only
  (repeat' split) <;> simp +contextual (maxDischargeDepth := 50) [k_d]

@[simp] theorem chanLevel_after {dev0 : Dev} (c : Nat) (d : Dev) (k_d : After dev0 d) :
    After dev0 (chanLevel c d) := by
  unfold chanLevel
  (repeat' split) <;> simp_all +contextual (maxDischargeDepth := 50)

@[simp] theorem roundRead_after {dev0 : Dev} (i : Nat) (v : Int) (d : Dev) (k_d : After dev0 d) :
    After dev0 (roundRead i v d) := by
  simp +contextual (maxDischargeDepth := 50) [roundRead, k_d]

@[simp] theorem slowRound_after {dev0 : Dev} (vals : List Int) (d : Dev) (k_d : After dev0 d) :
    After dev0 (slowRound vals d) := by
  simp +contextual (maxDischargeDepth := 50) [slowRound, k_d]

@[simp] theorem thermCtrlWrite_after {dev0 : Dev} (v : Word) (d : Dev) (k_d : After dev0 d) :
    After dev0 (thermCtrlWrite v d) := by
  simp +contextual (maxDischargeDepth := 50) [thermCtrlWrite, k_d]

@[simp] theorem thermWrite_after {dev0 : Dev} (o : Nat) (v : Word) (d : Dev) (k_d : After dev0 d) :
    After dev0 (thermWrite o v d) := by
  unfold thermWrite
  (repeat' split) <;> simp +contextual (maxDischargeDepth := 50) [k_d]

@[simp] theorem filterChange_after {dev0 : Dev} (i : Nat) (lv : Bool) (d : Dev) (k_d : After dev0 d) :
    After dev0 (filterChange i lv d) := by
  simp +contextual (maxDischargeDepth := 50) [filterChange, k_d]

end Sys2Proof.Machine
end

