-- ==== Sys2Proof/Laws/KeepReset.lean ====
section
/-!
SUPPORT. What the operations of Machine/Reset.lean keep: one lemma per operation, that its result can follow what its argument can follow.
-/

set_option linter.unusedSimpArgs false
set_option maxRecDepth 4000

namespace Sys2Proof.Machine

@[simp] theorem hwReset_after {dev0 : Dev} (h : Hw) (k_h : HwAfter dev0 h) :
    HwAfter dev0 (hwReset h) := by
  unfold hwReset
  (repeat' split) <;> simp_all +contextual (maxDischargeDepth := 50)

@[simp] theorem devReset_after {dev0 : Dev} (sys : Bool) (d : Dev) (k_d : After dev0 d) :
    After dev0 (devReset sys d) := by
  simp +contextual (maxDischargeDepth := 50) [devReset, k_d]

@[simp] theorem powerOn_after {dev0 : Dev} (d : Dev) (k_d : After dev0 d) :
    After dev0 (powerOn d) := by
  simp +contextual (maxDischargeDepth := 50) [powerOn, k_d]

@[simp] theorem pgoodRise_after {dev0 : Dev} (supplyLost : Bool) (d : Dev) (k_d : After dev0 d) :
    After dev0 (pgoodRise supplyLost d) := by
  simp +contextual (maxDischargeDepth := 50) [pgoodRise, k_d]

@[simp] theorem pgoodFall_after {dev0 : Dev} (d : Dev) (k_d : After dev0 d) :
    After dev0 (pgoodFall d) := by
  simp +contextual (maxDischargeDepth := 50) [pgoodFall, k_d]

@[simp] theorem sysResetAssert_after {dev0 : Dev} (d : Dev) (k_d : After dev0 d) :
    After dev0 (sysResetAssert d) := by
  simp +contextual (maxDischargeDepth := 50) [sysResetAssert, k_d]

@[simp] theorem sysResetRelease_after {dev0 : Dev} (dualPort refclk1 sris : Bool) (d : Dev) (k_d : After dev0 d) :
    After dev0 (sysResetRelease dualPort refclk1 sris d) := by
  simp +contextual (maxDischargeDepth := 50) [sysResetRelease, k_d]

@[simp] theorem startupSlot_after {dev0 : Dev} (d : Dev) (k_d : After dev0 d) :
    After dev0 (startupSlot d) := by
  simp +contextual (maxDischargeDepth := 50) [startupSlot, k_d]

@[simp] theorem resetAsk_after {dev0 : Dev} (d : Dev) (k_d : After dev0 d) :
    After dev0 (resetAsk d) := by
  simp +contextual (maxDischargeDepth := 50) [resetAsk, k_d]

@[simp] theorem subsystemReset_after {dev0 : Dev} (p fn : Nat) (d : Dev) (k_d : After dev0 d) :
    After dev0 (subsystemReset p fn d) := by
  simp +contextual (maxDischargeDepth := 50) [subsystemReset, k_d]

@[simp] theorem internalReset_after {dev0 : Dev} (d : Dev) (k_d : After dev0 d) :
    After dev0 (internalReset d) := by
  simp +contextual (maxDischargeDepth := 50) [internalReset, k_d]

@[simp] theorem coldRestart_after {dev0 : Dev} (d : Dev) (k_d : After dev0 d) :
    After dev0 (coldRestart d) := by
  simp +contextual (maxDischargeDepth := 50) [coldRestart, k_d]

@[simp] theorem holdEnd_after {dev0 : Dev} (d : Dev) (k_d : After dev0 d) :
    After dev0 (holdEnd d) := by
  simp +contextual (maxDischargeDepth := 50) [holdEnd, k_d]

end Sys2Proof.Machine
end

