-- ==== Sys2Proof/Laws/KeepBoot.lean ====
section
/-!
SUPPORT. What the operations of Machine/Boot.lean keep: one lemma per operation, that its result can follow what its argument can follow.
-/

set_option linter.unusedSimpArgs false
set_option maxRecDepth 4000

namespace Sys2Proof.Machine

@[simp] theorem bootAppend_after {dev0 : Dev} (r : BootRec) (d : Dev) (k_d : After dev0 d) :
    After dev0 (bootAppend r d) := by
  simp +contextual (maxDischargeDepth := 50) [bootAppend, k_d]

@[simp] theorem attemptEvent_after {dev0 : Dev} (st : Status) (wdt : Bool) (d : Dev) (k_d : After dev0 d) :
    After dev0 (attemptEvent st wdt d) := by
  simp +contextual (maxDischargeDepth := 50) [attemptEvent, k_d]

@[simp] theorem romStart_after {dev0 : Dev} (d : Dev) (k_d : After dev0 d) :
    After dev0 (romStart d) := by
  simp +contextual (maxDischargeDepth := 50) [romStart, k_d]

@[simp] theorem memFill_after {dev0 : Dev} (n a : Nat) (bs : List Byte) (m : Mem) (k_m : MemAfter dev0 m) : MemAfter dev0 (memFill n a bs m) := by
  induction n generalizing a bs m with
  | zero => exact k_m
  | succ n ih => exact ih _ _ _ (memPut_after _ _ _ _ k_m)

@[simp] theorem memCopy_after {dev0 : Dev} (a : Nat) (bs : List Byte) (d : Dev) (k_d : After dev0 d) :
    After dev0 (memCopy a bs d) := by
  simp +contextual (maxDischargeDepth := 50) [memCopy, k_d]

@[simp] theorem attemptRun_after {dev0 : Dev} (d : Dev) (k_d : After dev0 d) :
    After dev0 (attemptRun d).2 := by
  simp +contextual (maxDischargeDepth := 50) [attemptRun, k_d]

@[simp] theorem binsLoad_after {dev0 : Dev} (d : Dev) (k_d : After dev0 d) :
    After dev0 (binsLoad d) := by
  simp +contextual (maxDischargeDepth := 50) [binsLoad, k_d]

@[simp] theorem rateSet_after {dev0 : Dev} (code rate burst : Nat) (h : Hw) (k_h : HwAfter dev0 h) :
    HwAfter dev0 (rateSet code rate burst h) := by
  simp +contextual (maxDischargeDepth := 50) [rateSet, k_h]

@[simp] theorem settingsLoad_after {dev0 : Dev} (d : Dev) (k_d : After dev0 d) :
    After dev0 (settingsLoad d) := by
  simp +contextual (maxDischargeDepth := 50) [settingsLoad, k_d]

@[simp] theorem attemptPass_after {dev0 : Dev} (d : Dev) (k_d : After dev0 d) :
    After dev0 (attemptPass d) := by
  simp +contextual (maxDischargeDepth := 50) [attemptPass, k_d]

@[simp] theorem bootAttempt_after {dev0 : Dev} (d : Dev) (k_d : After dev0 d) :
    After dev0 (bootAttempt d) := by
  simp +contextual (maxDischargeDepth := 50) [bootAttempt, k_d]

@[simp] theorem backoffEnd_after {dev0 : Dev} (d : Dev) (k_d : After dev0 d) :
    After dev0 (backoffEnd d) := by
  simp +contextual (maxDischargeDepth := 50) [backoffEnd, k_d]

@[simp] theorem watchdogExpiry_after {dev0 : Dev} (d : Dev) (k_d : After dev0 d) :
    After dev0 (watchdogExpiry d) := by
  simp +contextual (maxDischargeDepth := 50) [watchdogExpiry, k_d]

@[simp] theorem watchdogStop_after {dev0 : Dev} (v : Word) (d : Dev) (k_d : After dev0 d) :
    After dev0 (watchdogStop v d) := by
  simp +contextual (maxDischargeDepth := 50) [watchdogStop, k_d]

@[simp] theorem bar2Write_after {dev0 : Dev} (_off : Nat) (_v : Word) (d : Dev) (k_d : After dev0 d) :
    After dev0 (bar2Write _off _v d) := by
  simp +contextual (maxDischargeDepth := 50) [bar2Write, k_d]

@[simp] theorem bootCtlWrite_after {dev0 : Dev} (v : Word) (d : Dev) (k_d : After dev0 d) :
    After dev0 (bootCtlWrite v d) := by
  simp +contextual (maxDischargeDepth := 50) [bootCtlWrite, k_d]

@[simp] theorem trialCommit_after {dev0 : Dev} (d : Dev) (k_d : After dev0 d) :
    After dev0 (trialCommit d) := by
  simp +contextual (maxDischargeDepth := 50) [trialCommit, k_d]

end Sys2Proof.Machine
end

