-- ==== Sys2Proof/Laws/KeepAdmin.lean ====
section
/-!
SUPPORT. What the operations of Machine/Admin.lean keep: one lemma per operation, that its result can follow what its argument can follow.
-/

set_option linter.unusedSimpArgs false
set_option maxRecDepth 4000

namespace Sys2Proof.Machine

@[simp] theorem adminGate_after {dev0 : Dev} (c : Src) (f : Dev → Dev) (d : Dev) (k_f : ∀ x, After dev0 x → After dev0 (f x))
    (k_d : After dev0 d) : After dev0 (adminGate c f d) := after_ite (k_f _ k_d) k_d

@[simp] theorem vendorGate_after {dev0 : Dev} (c : Src) (f : Dev → Dev) (d : Dev) (k_f : ∀ x, After dev0 x → After dev0 (f x))
    (k_d : After dev0 d) : After dev0 (vendorGate c f d) :=
  adminGate_after _ _ _ (fun x k => after_ite (k_f x k) (adminDone_after _ _ _ _ _ k)) k_d

@[simp] theorem trialGate_after {dev0 : Dev} (c : Src) (f : Dev → Dev) (d : Dev) (k_f : ∀ x, After dev0 x → After dev0 (f x))
    (k_d : After dev0 d) : After dev0 (trialGate c f d) := after_ite (adminDone_after _ _ _ _ _ k_d) (k_f _ k_d)

@[simp] theorem rndGate_after {dev0 : Dev} (h : RndHeld) (f : Dev → Dev) (d : Dev) (hf : ∀ x, After dev0 x → After dev0 (f x))
    (k_d : After dev0 d) : After dev0 (rndGate h f d) := after_ite (hf _ k_d) ⟨k_d.1, k_d.2⟩

@[simp] theorem evClear_after {dev0 : Dev} (h : Hw) (k_h : HwAfter dev0 h) :
    HwAfter dev0 (evClear h) := by
  simp +contextual (maxDischargeDepth := 50) [evClear, k_h]

@[simp] theorem evCtrlFlush_after {dev0 : Dev} (c : Src) (d : Dev) (k_d : After dev0 d) :
    After dev0 (evCtrlFlush c d) := by
  simp +contextual (maxDischargeDepth := 50) [evCtrlFlush, k_d]

@[simp] theorem evCtrlClear_after {dev0 : Dev} (c : Src) (d : Dev) (k_d : After dev0 d) :
    After dev0 (evCtrlClear c d) := by
  simp +contextual (maxDischargeDepth := 50) [evCtrlClear, k_d]

@[simp] theorem evCtrlSet_after {dev0 : Dev} (c : Src) (code rate burst : Nat) (d : Dev) (k_d : After dev0 d) :
    After dev0 (evCtrlSet c code rate burst d) := by
  simp +contextual (maxDischargeDepth := 50) [evCtrlSet, k_d]

@[simp] theorem evCtrlRead_after {dev0 : Dev} (c : Src) (code : Nat) (d : Dev) (k_d : After dev0 d) :
    After dev0 (evCtrlRead c code d) := by
  simp +contextual (maxDischargeDepth := 50) [evCtrlRead, k_d]

@[simp] theorem areaReserve_after {dev0 : Dev} (d : Dev) (k_d : After dev0 d) :
    After dev0 (areaReserve d) := by
  simp +contextual (maxDischargeDepth := 50) [areaReserve, k_d]

@[simp] theorem factoryWrite_after {dev0 : Dev} (d : Dev) (k_d : After dev0 d) :
    After dev0 (factoryWrite d) := by
  simp +contextual (maxDischargeDepth := 50) [factoryWrite, k_d]

@[simp] theorem volCreate_after {dev0 : Dev} (d : Dev) (k_d : After dev0 d) :
    After dev0 (volCreate d) := by
  simp +contextual (maxDischargeDepth := 50) [volCreate, k_d]

theorem nsKeyMake_after {dev0 : Dev} {nsid slot kennel : Nat} {n : Ns} {d : Dev} {r : Ns × Dev} (k_d : After dev0 d)
    (h : nsKeyMake nsid slot kennel n d = some r) : After dev0 r.2 := by
  unfold nsKeyMake at h
  dsimp only at h
  split at h
  · cases h
  · cases h
    simp [k_d]

@[simp] theorem nsBindRecord_after {dev0 : Dev} (nsid : Nat) (d : Dev) (k_d : After dev0 d) :
    After dev0 (nsBindRecord nsid d) := by
  simp +contextual (maxDischargeDepth := 50) [nsBindRecord, k_d]

@[simp] theorem zonesCreate_after {dev0 : Dev} (nsid : Nat) (n : Ns) (d : Dev) (k_d : After dev0 d) :
    After dev0 (zonesCreate nsid n d) := by
  simp +contextual (maxDischargeDepth := 50) [zonesCreate, k_d]

@[simp] theorem nsInstall_after {dev0 : Dev} (c : Src) (nsid k : Nat) (n : Ns) (d : Dev) (k_d : After dev0 d) :
    After dev0 (nsInstall c nsid k n d) := by
  unfold nsInstall
  have k0 := after_ite (c := d.med.formatted = true) k_d (volCreate_after d k_d)
  have k1 := fun y => areaReserve_after _ (nsBindRecord_after nsid _ (jput_after (jrNs nsid n.base n.nsze false)
    { (if d.med.formatted = true then d else volCreate d) with ten := y } ⟨k0.1, k0.2⟩))
  exact adminDone_after _ _ _ _ _ (volWrite_after _ (after_ite (zonesCreate_after _ _ _ (k1 _)) (mapuMod_after _ _ (k1 _))))

@[simp] theorem nsCreate_after {dev0 : Dev} (c : Src) (zoned : Bool) (nsze width : Nat) (kpio : Bool) (handles : Nat) (d : Dev)
    (k_d : After dev0 d) : After dev0 (nsCreate c zoned nsze width kpio handles d) := by
  unfold nsCreate
  refine adminGate_after _ _ _ (fun x k => trialGate_after _ _ _ (fun x k => ?_) k) k_d
  refine after_ite (adminDone_after _ _ _ _ _ k) (after_ite (adminDone_after _ _ _ _ _ k) ?_)
  split
  · exact adminDone_after _ _ _ _ _ k
  · refine after_ite (adminDone_after _ _ _ _ _ k) (after_ite (nsInstall_after _ _ _ _ _ k) ?_)
    split
    · exact adminDone_after _ _ _ _ _ k
    · refine rndGate_after _ _ _ (fun y ky => ?_) k
      split
      · exact adminDone_after _ _ _ _ _ ky
      · rename_i hk
        exact nsInstall_after _ _ _ _ _ (nsKeyMake_after ky hk)

@[simp] theorem nsRemove_after {dev0 : Dev} (nsid : Nat) (n : Ns) (d : Dev) (k_d : After dev0 d) : After dev0 (nsRemove nsid n d) := by
  unfold nsRemove
  dsimp only
  have k1 : ∀ m y, After dev0 (dirtySub m { d with med := y }) := fun m y => dirtySub_after _ _ ⟨k_d.1, k_d.2⟩
  have k3 : ∀ m y l f, After dev0 (mapuMod f (parkDrop nsid 0 l (jput (jrNs nsid n.base n.nsze true) (dirtySub m { d with med := y })))) :=
    fun m y l f => mapuMod_after _ _ (parkDrop_after _ _ _ _ (jput_after _ _ (k1 m y)))
  have k4 : ∀ (l : List Nat) x, After dev0 x → After dev0 (l.foldl (fun x s => doom s (unqueueSb s x)) x) :=
    fun l x kx => after_foldl (fun x s k => doom_after _ _ (unqueueSb_after _ _ k)) kx
  have k4' := fun a m y l f => k4 a _ (k3 m y l f)
  refine parkSweep_after _ (doomCheck_after _ (after_foldl (fun x q k => sjDelete_after _ _ _ k) (sjDelete_after _ _ _ (after_ite
    ⟨(k4' _ _ _ _ _).1, (k4' _ _ _ _ _).2⟩ (keyAreaPut_after _ _ _ ⟨(k4' _ _ _ _ _).1, (k4' _ _ _ _ _).2⟩)))))

@[simp] theorem nsDelete_after {dev0 : Dev} (c : Src) (nsid : Nat) (d : Dev) (k_d : After dev0 d) : After dev0 (nsDelete c nsid d) := by
  unfold nsDelete
  refine adminGate_after _ _ _ (fun x k => trialGate_after _ _ _ (fun x k => ?_) k) k_d
  refine after_ite (adminDone_after _ _ _ _ _ (volWrite_after _ (areaReserve_after _ (after_foldl (fun y q k => nsRemove_after _ _ _ k) k)))) ?_
  split
  · exact adminDone_after _ _ _ _ _ k
  · exact adminDone_after _ _ _ _ _ (volWrite_after _ (areaReserve_after _ (nsRemove_after _ _ _ k)))

@[simp] theorem nsAttach_after {dev0 : Dev} (c : Src) (nsid : Nat) (attach : Bool) (ids : List Nat) (d : Dev) (k_d : After dev0 d) :
    After dev0 (nsAttach c nsid attach ids d) := by
  unfold nsAttach
  refine adminGate_after _ _ _ (fun x k => trialGate_after _ _ _ (fun x k => ?_) k) k_d
  split
  · exact adminDone_after _ _ _ _ _ k
  · exact after_ite (adminDone_after _ _ _ _ _ k) (after_ite (adminDone_after _ _ _ _ _ k) (after_ite (adminDone_after _ _ _ _ _ k)
      (after_ite (adminDone_after _ _ _ _ _ k) (adminDone_after _ _ _ _ _ (after_mk.2 ⟨k.fuse, k.hw⟩)))))

@[simp] theorem featureSave_after {dev0 : Dev} (save : Bool) (fid nsid : Nat) (v : List Byte) (d : Dev) (k_d : After dev0 d) :
    After dev0 (featureSave save fid nsid v d) := by
  simp +contextual (maxDischargeDepth := 50) [featureSave, k_d]

@[simp] theorem saveGate_after {dev0 : Dev} (c : Src) (save : Bool) (f : Dev → Dev) (d : Dev) (k_f : ∀ x, After dev0 x → After dev0 (f x))
    (k_d : After dev0 d) : After dev0 (saveGate c save f d) := after_ite (adminDone_after _ _ _ _ _ k_d) (k_f _ k_d)

@[simp] theorem setTimestamp_after {dev0 : Dev} (c : Src) (save : Bool) (ms : Nat) (d : Dev) (k_d : After dev0 d) :
    After dev0 (setTimestamp c save ms d) := by
  simp +contextual (maxDischargeDepth := 50) [setTimestamp, k_d]

@[simp] theorem getTimestamp_after {dev0 : Dev} (c : Src) (d : Dev) (k_d : After dev0 d) :
    After dev0 (getTimestamp c d) := by
  simp +contextual (maxDischargeDepth := 50) [getTimestamp, k_d]

@[simp] theorem setZoneReset_after {dev0 : Dev} (c : Src) (nsid : Nat) (save secure : Bool) (d : Dev) (k_d : After dev0 d) :
    After dev0 (setZoneReset c nsid save secure d) := by
  unfold setZoneReset
  refine adminGate_after _ _ _ (fun x k => saveGate_after _ _ _ _ (fun x k => ?_) k) k_d
  split
  · exact adminDone_after _ _ _ _ _ k
  · exact after_ite (adminDone_after _ _ _ _ _ k) (adminDone_after _ _ _ _ _ (sjPut_after _ _ _ _ (after_mk.2 ⟨k.fuse, k.hw⟩)))

@[simp] theorem setFdp_after {dev0 : Dev} (c : Src) (on save : Bool) (d : Dev) (k_d : After dev0 d) :
    After dev0 (setFdp c on save d) := by
  simp +contextual (maxDischargeDepth := 50) [setFdp, k_d]

@[simp] theorem setPower_after {dev0 : Dev} (c : Src) (ps : Nat) (save : Bool) (d : Dev) (k_d : After dev0 d) :
    After dev0 (setPower c ps save d) := by
  simp +contextual (maxDischargeDepth := 50) [setPower, k_d]

@[simp] theorem setTempThreshold_after {dev0 : Dev} (c : Src) (under : Bool) (sensor k : Nat) (save : Bool) (d : Dev) (k_d : After dev0 d) :
    After dev0 (setTempThreshold c under sensor k save d) := by
  simp +contextual (maxDischargeDepth := 50) [setTempThreshold, k_d]

@[simp] theorem hmbDone_after {dev0 : Dev} (p : Nat) (d : Dev) (k_d : After dev0 d) :
    After dev0 (hmbDone p d) := by
  simp +contextual (maxDischargeDepth := 50) [hmbDone, k_d]

@[simp] theorem virtManage_after {dev0 : Dev} (c : Src) (vf : Nat) (a : VirtAct) (d : Dev) (k_d : After dev0 d) :
    After dev0 (virtManage c vf a d) := by
  unfold virtManage
  (repeat' split) <;> simp_all +contextual (maxDischargeDepth := 50)

@[simp] theorem nvmeAbort_after {dev0 : Dev} (c : Src) (sq cid : Nat) (d : Dev) (k_d : After dev0 d) : After dev0 (nvmeAbort c sq cid d) := by
  unfold nvmeAbort
  refine adminGate_after _ _ _ (fun x k => ?_) k_d
  have kg : ∀ y, After dev0 y → After dev0 (adminDone c .success 0 [] (cqPost c.port c.fn sq cid .abortRequested 0 0 [] y)) :=
    fun y k => adminDone_after _ _ _ _ _ (cqPost_after _ _ _ _ _ _ _ _ _ k)
  have ks : ∀ o die l, After dev0 (readStats o die l x) := fun o die l => readStats_after _ _ _ _ k
  have ki : ∀ (p : Prop) [Decidable p] o die l, After dev0 (if p then readStats o die l x else x) := fun p _ o die l => after_ite (ks o die l) k
  dsimp only
  split
  · exact kg _ ⟨(ki _ _ _ _).1, (ki _ _ _ _).2⟩
  · refine after_ite (kg _ ⟨k.1, k.2⟩) ?_
    split
    · exact after_ite (adminDone_after _ _ _ _ _ k) (kg _ (opDiscard_after _ _ (ki _ _ _ _)))
    · exact adminDone_after _ _ _ _ _ k

@[simp] theorem aer_after {dev0 : Dev} (c : Src) (d : Dev) (k_d : After dev0 d) : After dev0 (aer c d) := by
  unfold aer
  refine adminGate_after _ _ _ (fun x k => ?_) k_d
  dsimp only
  split
  · exact adminDone_after _ _ _ _ _ (ctrlPut_after _ _ _ _ k)
  · exact after_ite (adminDone_after _ _ _ _ _ k) (ctrlPut_after _ _ _ _ k)

@[simp] theorem resvPut_after {dev0 : Dev} (nsid : Nat) (n : Ns) (rs : List Registrant) (d : Dev) (k_d : After dev0 d) :
    After dev0 (resvPut nsid n rs d) := by
  unfold resvPut
  extract_lets d1 pay
  refine after_foldl (fun x i k => ?_) (after_mk.2 ⟨k_d.fuse, k_d.hw⟩)
  split
  · exact sjPut_after _ _ _ _ k
  · exact sjDelete_after _ _ _ k

@[simp] theorem resvDone_after {dev0 : Dev} (tag : Nat) (st : NvStat) (data : List Nat) (d : Dev) (k_d : After dev0 d) :
    After dev0 (resvDone tag st data d) := by
  simp +contextual (maxDischargeDepth := 50) [resvDone, k_d]

@[simp] theorem resvRun_after {dev0 : Dev} (c : Src) (sq nsid : Nat) (a : ResvAct) (f : Nat → Op → Ns → Dev → Dev) (d : Dev)
    (k_f : ∀ tag o n x, After dev0 x → After dev0 (f tag o n x)) (k_d : After dev0 d) : After dev0 (resvRun c sq nsid a f d) := by
  unfold resvRun
  split
  · exact k_d
  · split
    · exact k_f _ _ _ _ k_d
    · exact resvDone_after _ _ _ _ k_d

@[simp] theorem resvRegister_after {dev0 : Dev} (c : Src) (sq nsid host action : Nat) (ignoreKey : Bool) (crkey nrkey : Nat) (ptpl : Bool)
    (d : Dev) (k_d : After dev0 d) : After dev0 (resvRegister c sq nsid host action ignoreKey crkey nrkey ptpl d) := by
  unfold resvRegister
  refine resvRun_after _ _ _ _ _ _ (fun tag o n x k => ?_) k_d
  have kr : ∀ s, After dev0 (resvDone tag s [] x) := fun s => resvDone_after _ _ _ _ k
  have kc : ∀ y, After dev0 (ctrlPut x o.port o.fn y) := fun y => ctrlPut_after _ _ _ _ k
  have kd : ∀ s y, After dev0 (resvDone tag s [] (ctrlPut x o.port o.fn y)) := fun s y => resvDone_after _ _ _ _ (kc y)
  have kp : ∀ rs y, After dev0 (resvDone tag .success [] (resvPut nsid n rs (ctrlPut x o.port o.fn y))) :=
    fun rs y => resvDone_after _ _ _ _ (resvPut_after _ _ _ _ (kc y))
  dsimp only
  split
  · exact after_ite (kd _ _) (kr _)
  · exact after_ite (kr _) (kp _ _)
  · exact after_ite (kp _ _) (kr _)
  · exact after_ite (kp _ _) (kr _)
  · exact after_ite (kp _ _) (kr _)
  · exact kr _
  · exact kr _

@[simp] theorem resvAcquire_after {dev0 : Dev} (c : Src) (sq nsid action rtype crkey prkey : Nat) (d : Dev) (k_d : After dev0 d) :
    After dev0 (resvAcquire c sq nsid action rtype crkey prkey d) := by
  unfold resvAcquire
  refine resvRun_after _ _ _ _ _ _ (fun tag o n x k => ?_) k_d
  have kr : ∀ s, After dev0 (resvDone tag s [] x) := fun s => resvDone_after _ _ _ _ k
  have kp : ∀ rs, After dev0 (resvDone tag .success [] (resvPut nsid n rs x)) := fun rs => resvDone_after _ _ _ _ (resvPut_after _ _ _ _ k)
  dsimp only
  split
  · exact kr _
  · refine after_ite (kr _) (after_ite (kr _) ?_)
    split
    · split
      · exact kp _
      · exact after_ite (kr _) (kr _)
    · exact after_ite (kp _) (after_ite (kp _) (kr _))

@[simp] theorem resvRelease_after {dev0 : Dev} (c : Src) (sq nsid action rtype crkey : Nat) (d : Dev) (k_d : After dev0 d) :
    After dev0 (resvRelease c sq nsid action rtype crkey d) := by
  unfold resvRelease
  refine resvRun_after _ _ _ _ _ _ (fun tag o n x k => ?_) k_d
  have kr : ∀ s, After dev0 (resvDone tag s [] x) := fun s => resvDone_after _ _ _ _ k
  have kp : ∀ rs, After dev0 (resvDone tag .success [] (resvPut nsid n rs x)) := fun rs => resvDone_after _ _ _ _ (resvPut_after _ _ _ _ k)
  split
  · exact kr _
  · exact after_ite (kr _) (after_ite (kp _) (after_ite (kr _) (after_ite (kr _) (after_ite (kr _) (kp _)))))

@[simp] theorem resvReport_after {dev0 : Dev} (c : Src) (sq nsid : Nat) (d : Dev) (k_d : After dev0 d) :
    After dev0 (resvReport c sq nsid d) := by
  unfold resvReport
  exact resvRun_after _ _ _ _ _ _ (fun tag o n x k => resvDone_after _ _ _ _ k) k_d

end Sys2Proof.Machine
end

