-- ==== Sys2Proof/Laws/KeepAdmin2.lean ====
section
/-!
SUPPORT. What the operations of Machine/Admin2.lean keep: one lemma per operation, that its result can follow what its argument can follow.
-/

set_option linter.unusedSimpArgs false
set_option maxRecDepth 4000

namespace Sys2Proof.Machine

@[simp] theorem fwDownload_after {dev0 : Dev} (c : Src) (off : Nat) (bs : List Byte) (d : Dev) (k_d : After dev0 d) :
    After dev0 (fwDownload c off bs d) := by
  simp +contextual (maxDischargeDepth := 50) [fwDownload, k_d]

@[simp] theorem slotWrite_after {dev0 : Dev} (base n : Nat) (bs : List Byte) (d : Dev) (k_d : After dev0 d) :
    After dev0 (slotWrite base n bs d) := by
  simp +contextual (maxDischargeDepth := 50) [slotWrite, k_d]

@[simp] theorem fwCommit_after {dev0 : Dev} (c : Src) (slot action : Nat) (d : Dev) (k_d : After dev0 d) :
    After dev0 (fwCommit c slot action d) := by
  unfold fwCommit
  refine adminGate_after _ _ _ (fun x k => trialGate_after _ _ _ (fun x k => ?_) k) k_d
  have kd : ∀ {y : Dev} st, After dev0 y → After dev0 (adminDone c st 0 [] y) := fun _ h => adminDone_after _ _ _ _ _ h
  refine after_ite (kd _ k) (after_ite (kd _ k) (after_ite (kd _ k) (after_ite (kd _ k) ?_)))
  have k1 : ∀ i : List Byte, ∀ s : Nat, After dev0 (if action = 2 then x
      else slotWrite (imageBase s) 48 i { x with host := { x.host with download := [] } }) :=
    fun i s => after_ite k (slotWrite_after _ _ _ _ ⟨k.1, k.2⟩)
  exact after_ite (kd _ (k1 _ _)) (kd _ (bootAppend_after _ _ (k1 _ _)))

@[simp] theorem nsWipe_after {dev0 : Dev} (nsid : Nat) (n : Ns) (d : Dev) (k_d : After dev0 d) :
    After dev0 (nsWipe nsid n d) := by
  simp +contextual (maxDischargeDepth := 50) [nsWipe, k_d]

@[simp] theorem nsRekey_after {dev0 : Dev} (nsid : Nat) (n : Ns) (d : Dev) (k_d : After dev0 d) : After dev0 (nsRekey nsid n d) := by
  unfold nsRekey
  split
  · exact k_d
  · extract_lets d1 ks
    have k1 : After dev0 d1 := by
      simp only [d1]
      split
      · rename_i hk
        have := nsKeyMake_after k_d hk
        exact after_mk.2 ⟨this.fuse, this.hw⟩
      · exact k_d
    exact after_mk.2 ⟨k1.fuse, k1.hw⟩

@[simp] theorem nsCrypto_after {dev0 : Dev} (nsid : Nat) (d : Dev) (k_d : After dev0 d) :
    After dev0 (nsCrypto nsid d) := by
  unfold nsCrypto
  simp +contextual (maxDischargeDepth := 50) [k_d]
  (repeat' split) <;> simp_all +contextual (maxDischargeDepth := 50)

@[simp] theorem formatNvm_after {dev0 : Dev} (c : Src) (nsid ses : Nat) (d : Dev) (k_d : After dev0 d) : After dev0 (formatNvm c nsid ses d) := by
  unfold formatNvm
  refine adminGate_after _ _ _ (fun x k => ?_) k_d
  have kr : ∀ (l : List Nat) y, After dev0 y → After dev0 (adminDone c .success 0 [] (volWrite (l.foldl (fun y i =>
      if ses = 2 then nsCrypto i y else match nsGet y i with | some n => nsWipe i n y | none => y) y))) := by
    refine fun l y ky => adminDone_after _ _ _ _ _ (volWrite_after _ (after_foldl (fun z i k => after_ite (nsCrypto_after _ _ k) ?_) ky))
    split
    · exact nsWipe_after _ _ _ k
    · exact k
  exact after_ite (adminDone_after _ _ _ _ _ k) (after_ite (adminDone_after _ _ _ _ _ k)
    (after_ite (rndGate_after _ _ _ (kr _) k) (kr _ _ k)))

@[simp] theorem sanitizeCrypto_after {dev0 : Dev} (c : Src) (d : Dev) (k_d : After dev0 d) :
    After dev0 (sanitizeCrypto c d) := by
  simp +contextual (maxDischargeDepth := 50) [sanitizeCrypto, k_d]

@[simp] theorem mediaErase_after {dev0 : Dev} (d : Dev) (k_d : After dev0 d) :
    After dev0 (mediaErase d) := by
  simp +contextual (maxDischargeDepth := 50) [mediaErase, k_d]

@[simp] theorem sanitizeBlock_after {dev0 : Dev} (c : Src) (d : Dev) (k_d : After dev0 d) :
    After dev0 (sanitizeBlock c d) := by
  simp +contextual (maxDischargeDepth := 50) [sanitizeBlock, k_d]

@[simp] theorem kekEstablish_after {dev0 : Dev} (c : Src) (i : Nat) (msg : List Byte) (d : Dev) (k_d : After dev0 d) :
    After dev0 (kekEstablish c i msg d) := by
  simp +contextual (maxDischargeDepth := 50) [kekEstablish, k_d]

@[simp] theorem keyInject_after {dev0 : Dev} (c : Src) (tag kek : Nat) (kwp : Bool) (wrapped : List Byte) (d : Dev) (k_d : After dev0 d) :
    After dev0 (keyInject c tag kek kwp wrapped d) := by
  unfold keyInject
  refine adminGate_after _ _ _ (fun x k => ?_) k_d
  refine after_ite (adminDone_after _ _ _ _ _ k) (after_ite (adminDone_after _ _ _ _ _ k) (after_ite (adminDone_after _ _ _ _ _ k) ?_))
  split
  · exact adminDone_after _ _ _ _ _ (hwMod_after _ _ (fun x k => irq_after _ _ _ k) k)
  · split
    · exact adminDone_after _ _ _ _ _ (hwMod_after _ _ (fun x k => irq_after _ _ _ k) k)
    · exact adminDone_after _ _ _ _ _ (after_mk.2 ⟨k.fuse, k.hw⟩)

@[simp] theorem layoutTransfer_after {dev0 : Dev} (c : Src) (off : Nat) (bs : List Byte) (d : Dev) (k_d : After dev0 d) :
    After dev0 (layoutTransfer c off bs d) := by
  simp +contextual (maxDischargeDepth := 50) [layoutTransfer, k_d]

@[simp] theorem layoutDrop_after {dev0 : Dev} (d : Dev) (k_d : After dev0 d) :
    After dev0 (layoutDrop d) := by
  simp +contextual (maxDischargeDepth := 50) [layoutDrop, k_d]

@[simp] theorem layoutStage_after {dev0 : Dev} (c : Src) (d : Dev) (k_d : After dev0 d) : After dev0 (layoutStage c d) := by
  unfold layoutStage
  refine vendorGate_after _ _ _ (fun x k => trialGate_after _ _ _ (fun x k => ?_) k) k_d
  have kc : After dev0 { x with host := { x.host with layoutXfer := [], layoutPort := none } } := after_mk.2 ⟨k.fuse, k.hw⟩
  have kr : ∀ s, After dev0 (adminDone c s 0 [] { x with host := { x.host with layoutXfer := [], layoutPort := none } }) :=
    fun s => adminDone_after _ _ _ _ _ kc
  have ks : ∀ b n bs, After dev0 (slotWrite b n bs (layoutDrop { x with host := { x.host with layoutXfer := [], layoutPort := none } })) :=
    fun b n bs => slotWrite_after _ _ _ _ (layoutDrop_after _ kc)
  exact after_ite (adminDone_after _ _ _ _ _ k) (after_ite (adminDone_after _ _ _ _ _ k) (after_ite (kr _) (after_ite (kr _)
    (after_ite (kr _) (after_ite (kr _) (after_ite (adminDone_after _ _ _ _ _ (ks _ _ _))
      (adminDone_after _ _ _ _ _ (bootAppend_after _ _ (ks _ _ _)))))))))

@[simp] theorem layoutDiscard_after {dev0 : Dev} (c : Src) (d : Dev) (k_d : After dev0 d) :
    After dev0 (layoutDiscard c d) := by
  simp +contextual (maxDischargeDepth := 50) [layoutDiscard, k_d]

@[simp] theorem kennelSet_after {dev0 : Dev} (c : Src) (k : Nat) (bs : List Byte) (d : Dev) (k_d : After dev0 d) :
    After dev0 (kennelSet c k bs d) := by
  simp +contextual (maxDischargeDepth := 50) [kennelSet, k_d]

@[simp] theorem kennelDelete_after {dev0 : Dev} (c : Src) (k : Nat) (d : Dev) (k_d : After dev0 d) :
    After dev0 (kennelDelete c k d) := by
  simp +contextual (maxDischargeDepth := 50) [kennelDelete, k_d]

@[simp] theorem kennelRead_after {dev0 : Dev} (c : Src) (k : Nat) (d : Dev) (k_d : After dev0 d) : After dev0 (kennelRead c k d) := by
  unfold kennelRead
  refine vendorGate_after _ _ _ (fun x k => ?_) k_d
  split <;> exact adminDone_after _ _ _ _ _ k

@[simp] theorem kennelBindFn_after {dev0 : Dev} (c : Src) (k port fn : Nat) (d : Dev) (k_d : After dev0 d) :
    After dev0 (kennelBindFn c k port fn d) := by
  simp +contextual (maxDischargeDepth := 50) [kennelBindFn, k_d]

@[simp] theorem kennelBindNs_after {dev0 : Dev} (c : Src) (k nsid : Nat) (d : Dev) (k_d : After dev0 d) :
    After dev0 (kennelBindNs c k nsid d) := by
  simp +contextual (maxDischargeDepth := 50) [kennelBindNs, k_d]

@[simp] theorem kennelUnbindNs_after {dev0 : Dev} (c : Src) (k nsid : Nat) (d : Dev) (k_d : After dev0 d) :
    After dev0 (kennelUnbindNs c k nsid d) := by
  simp +contextual (maxDischargeDepth := 50) [kennelUnbindNs, k_d]

@[simp] theorem unitTakeOut_after {dev0 : Dev} (c : Src) (type n : Nat) (d : Dev) (k_d : After dev0 d) :
    After dev0 (unitTakeOut c type n d) := by
  unfold unitTakeOut
  (repeat' split) <;> simp +contextual (maxDischargeDepth := 50) [k_d]

@[simp] theorem unitReturn_after {dev0 : Dev} (c : Src) (type n : Nat) (d : Dev) (k_d : After dev0 d) :
    After dev0 (unitReturn c type n d) := by
  unfold unitReturn
  (repeat' split) <;> simp +contextual (maxDischargeDepth := 50) [k_d]

@[simp] theorem unitQuery_after {dev0 : Dev} (c : Src) (type n : Nat) (d : Dev) (k_d : After dev0 d) :
    After dev0 (unitQuery c type n d) := by
  simp +contextual (maxDischargeDepth := 50) [unitQuery, k_d]

@[simp] theorem debugChallenge_after {dev0 : Dev} (c : Src) (d : Dev) (k_d : After dev0 d) :
    After dev0 (debugChallenge c d) := by
  simp +contextual (maxDischargeDepth := 50) [debugChallenge, k_d]

@[simp] theorem debugResult_after {dev0 : Dev} (path : Nat) (st : Status) (d : Dev) (k_d : After dev0 d) :
    After dev0 (debugResult path st d) := by
  simp +contextual (maxDischargeDepth := 50) [debugResult, k_d]

@[simp] theorem debugSubmit_after {dev0 : Dev} (c : Src) (sig : List Byte) (d : Dev) (k_d : After dev0 d) :
    After dev0 (debugSubmit c sig d) := by
  simp +contextual (maxDischargeDepth := 50) [debugSubmit, k_d]

@[simp] theorem debugExpiry_after {dev0 : Dev} (jtag : Bool) (d : Dev) (k_d : After dev0 d) :
    After dev0 (debugExpiry jtag d) := by
  simp +contextual (maxDischargeDepth := 50) [debugExpiry, k_d]

@[simp] theorem nsKeyRestore_after {dev0 : Dev} (nsid : Nat) (n : Ns) (d : Dev) (k_d : After dev0 d) :
    After dev0 (nsKeyRestore nsid n d) := by
  unfold nsKeyRestore
  simp +contextual (maxDischargeDepth := 50) [k_d]
  (repeat' split) <;> simp_all +contextual (maxDischargeDepth := 50)

@[simp] theorem nsKeysRestore_after {dev0 : Dev} (d : Dev) (k_d : After dev0 d) :
    After dev0 (nsKeysRestore d) := by
  simp +contextual (maxDischargeDepth := 50) [nsKeysRestore, k_d]

end Sys2Proof.Machine
end

