-- ==== Sys2Proof/Laws/KeepLogs.lean ====
section
/-!
SUPPORT. What the operations of Machine/Logs.lean keep: one lemma per operation, that its result can follow what its argument can follow.
-/

set_option linter.unusedSimpArgs false
set_option maxRecDepth 4000

namespace Sys2Proof.Machine

@[simp] theorem getLog_after {dev0 : Dev} (c : Src) (lid lsi off len : Nat) (d : Dev) (k_d : After dev0 d) :
    After dev0 (getLog c lid lsi off len d) := by
  unfold getLog
  refine adminGate_after _ _ _ (fun x k => after_ite (after_ite (adminDone_after _ _ _ _ _ k)
    (adminDone_after _ _ _ _ _ (ctrlPut_after _ _ _ _ k))) ?_) k_d
  split
  · exact adminDone_after _ _ _ _ _ (after_mk.2 ⟨k.fuse, spend_after _ (spend_after _ k.hw)⟩)
  · exact adminDone_after _ _ _ _ _ k

@[simp] theorem identify_after {dev0 : Dev} (c : Src) (cns nsid : Nat) (d : Dev) (k_d : After dev0 d) : After dev0 (identify c cns nsid d) := by
  unfold identify
  refine adminGate_after _ _ _ (fun x k => ?_) k_d
  have kd : ∀ s v l, After dev0 (adminDone c s v l x) := fun s v l => adminDone_after _ _ _ _ _ k
  dsimp only
  repeat' split
  all_goals exact kd _ _ _

end Sys2Proof.Machine
end

