-- ==== Sys2Proof/Laws/KeepMgmt.lean ====
section
/-!
SUPPORT. What the operations of Machine/Mgmt.lean keep: one lemma per operation, that its result can follow what its argument can follow.
-/

set_option linter.unusedSimpArgs false
set_option maxRecDepth 4000

namespace Sys2Proof.Machine

@[simp] theorem mgMod_after {dev0 : Dev} (f : Mgmt → Mgmt) (d : Dev) (k_d : After dev0 d) :
    After dev0 (mgMod f d) := by
  simp +contextual (maxDischargeDepth := 50) [mgMod, k_d]

@[simp] theorem mgSend_after {dev0 : Dev} (type : Nat) (bs : List Byte) (d : Dev) (k_d : After dev0 d) :
    After dev0 (mgSend type bs d) := by
  simp +contextual (maxDischargeDepth := 50) [mgSend, k_d]

@[simp] theorem mgReady_after {dev0 : Dev} (d : Dev) (k_d : After dev0 d) :
    After dev0 (mgReady d) := by
  simp +contextual (maxDischargeDepth := 50) [mgReady, k_d]

@[simp] theorem busyAnswer_after {dev0 : Dev} (type : Nat) (d : Dev) (k_d : After dev0 d) :
    After dev0 (busyAnswer type d) := by
  simp +contextual (maxDischargeDepth := 50) [busyAnswer, k_d]

@[simp] theorem mctpControl_after {dev0 : Dev} (f : Dev → List Byte × Dev) (d : Dev) (k_f : ∀ x, After dev0 x → After dev0 (f x).2)
    (k_d : After dev0 d) : After dev0 (mctpControl f d) := after_ite (mgSend_after _ _ _ (k_f _ k_d)) k_d

@[simp] theorem setEid_after {dev0 : Dev} (eid : Nat) (d : Dev) (k_d : After dev0 d) :
    After dev0 (setEid eid d) := by
  simp +contextual (maxDischargeDepth := 50) [setEid, k_d]

@[simp] theorem getEid_after {dev0 : Dev} (d : Dev) (k_d : After dev0 d) :
    After dev0 (getEid d) := by
  simp +contextual (maxDischargeDepth := 50) [getEid, k_d]

@[simp] theorem getMctpVersion_after {dev0 : Dev} (d : Dev) (k_d : After dev0 d) :
    After dev0 (getMctpVersion d) := by
  simp +contextual (maxDischargeDepth := 50) [getMctpVersion, k_d]

@[simp] theorem getMsgTypes_after {dev0 : Dev} (d : Dev) (k_d : After dev0 d) :
    After dev0 (getMsgTypes d) := by
  simp +contextual (maxDischargeDepth := 50) [getMsgTypes, k_d]

@[simp] theorem rxFill_after {dev0 : Dev} (bs : List Byte) (h : Hw) (k_h : HwAfter dev0 h) :
    HwAfter dev0 (rxFill bs h) := by
  simp +contextual (maxDischargeDepth := 50) [rxFill, k_h]

@[simp] theorem mctpReceived_after {dev0 : Dev} (type src tag : Nat) (bs : List Byte) (d : Dev) (k_d : After dev0 d) :
    After dev0 (mctpReceived type src tag bs d) := by
  simp +contextual (maxDischargeDepth := 50) [mctpReceived, k_d]

@[simp] theorem mctpServe_after {dev0 : Dev} (type : Nat) (f : Dev → List Byte × Dev) (d : Dev)
    (k_f : ∀ x, After dev0 x → After dev0 (f x).2) (k_d : After dev0 d) : After dev0 (mctpServe type f d) := by
  unfold mctpServe
  split
  · exact k_d
  · split
    · exact busyAnswer_after _ _ k_d
    · split
      · exact hwMod_after _ _ (fun x k => irq_after _ _ _ k) (busyAnswer_after _ _ k_d)
      · exact hwMod_after _ _ (fun x k => irq_after _ _ _ (irq_after _ _ _ k)) (mgSend_after _ _ _ (k_f _ k_d))

@[simp] theorem miDataStructure_after {dev0 : Dev} (type arg : Nat) (d : Dev) (k_d : After dev0 d) :
    After dev0 (miDataStructure type arg d) := by
  unfold miDataStructure
  refine mctpServe_after _ _ _ (fun x k => ?_) k_d
  have ks : After dev0 (hwMod spend x) := hwMod_after _ _ (fun x k => spend_after _ k) k
  dsimp only
  split
  · exact ks
  · exact after_snd_ite ks k
  · exact k
  · exact after_snd_ite k k
  · exact ks
  · exact k

@[simp] theorem miSubsystemHealth_after {dev0 : Dev} (d : Dev) (k_d : After dev0 d) :
    After dev0 (miSubsystemHealth d) := by
  simp +contextual (maxDischargeDepth := 50) [miSubsystemHealth, k_d]

@[simp] theorem miControllerHealth_after {dev0 : Dev} (id : Nat) (d : Dev) (k_d : After dev0 d) : After dev0 (miControllerHealth id d) := by
  unfold miControllerHealth
  exact mctpServe_after _ _ _ (fun x k => after_snd_ite k k) k_d

@[simp] theorem miConfigGet_after {dev0 : Dev} (id : Nat) (d : Dev) (k_d : After dev0 d) : After dev0 (miConfigGet id d) := by
  unfold miConfigGet
  refine mctpServe_after _ _ _ (fun x k => after_snd_ite k ?_) k_d
  split
  · exact k
  · exact hwMod_after _ _ (fun x k => spend_after _ k) k

@[simp] theorem miConfigSet_after {dev0 : Dev} (id v : Nat) (d : Dev) (k_d : After dev0 d) : After dev0 (miConfigSet id v d) := by
  unfold miConfigSet
  exact mctpServe_after _ _ _ (fun x k => after_snd_ite (after_snd_ite (mgMod_after _ _ k) k) (mgMod_after _ _ k)) k_d

@[simp] theorem miVpdRead_after {dev0 : Dev} (off len : Nat) (d : Dev) (k_d : After dev0 d) :
    After dev0 (miVpdRead off len d) := by
  simp +contextual (maxDischargeDepth := 50) [miVpdRead, k_d]

@[simp] theorem miVpdWrite_after {dev0 : Dev} (off : Nat) (bs : List Byte) (d : Dev) (k_d : After dev0 d) :
    After dev0 (miVpdWrite off bs d) := by
  simp +contextual (maxDischargeDepth := 50) [miVpdWrite, k_d]

@[simp] theorem rxctlWrite_after {dev0 : Dev} (v : Word) (d : Dev) (k_d : After dev0 d) :
    After dev0 (rxctlWrite v d) := by
  simp +contextual (maxDischargeDepth := 50) [rxctlWrite, k_d]

@[simp] theorem txctlWrite_after {dev0 : Dev} (v : Word) (d : Dev) (k_d : After dev0 d) :
    After dev0 (txctlWrite v d).2 := by
  simp +contextual (maxDischargeDepth := 50) [txctlWrite, k_d]

@[simp] theorem txDone_after {dev0 : Dev} (d : Dev) (k_d : After dev0 d) :
    After dev0 (txDone d) := by
  simp +contextual (maxDischargeDepth := 50) [txDone, k_d]

@[simp] theorem toSmbus_after {dev0 : Dev} (d : Dev) (k_d : After dev0 d) :
    After dev0 (toSmbus d) := by
  simp +contextual (maxDischargeDepth := 50) [toSmbus, k_d]

@[simp] theorem mgCtrlWrite_after {dev0 : Dev} (v : Word) (d : Dev) (k_d : After dev0 d) :
    After dev0 (mgCtrlWrite v d) := by
  simp +contextual (maxDischargeDepth := 50) [mgCtrlWrite, k_d]

@[simp] theorem alertRead_after {dev0 : Dev} (d : Dev) (k_d : After dev0 d) :
    After dev0 (alertRead d) := by
  simp +contextual (maxDischargeDepth := 50) [alertRead, k_d]

@[simp] theorem i3cAssign_after {dev0 : Dev} (addr : Nat) (d : Dev) (k_d : After dev0 d) :
    After dev0 (i3cAssign addr d) := by
  simp +contextual (maxDischargeDepth := 50) [i3cAssign, k_d]

@[simp] theorem packetError_after {dev0 : Dev} (d : Dev) (k_d : After dev0 d) :
    After dev0 (packetError d) := by
  simp +contextual (maxDischargeDepth := 50) [packetError, k_d]

@[simp] theorem mgmtWrite_after {dev0 : Dev} (o : Nat) (v : Word) (d : Dev) (k_d : After dev0 d) :
    After dev0 (mgmtWrite o v d) := by
  unfold mgmtWrite
  (repeat' split) <;> simp +contextual (maxDischargeDepth := 50) [k_d]

@[simp] theorem spdmServe_after {dev0 : Dev} (via : Via) (f : Dev → List Byte × Dev) (d : Dev)
    (k_f : ∀ x, After dev0 x → After dev0 (f x).2) (k_d : After dev0 d) : After dev0 (spdmServe via f d) := by
  unfold spdmServe
  split
  · exact mctpServe_after _ _ _ k_f k_d
  · exact adminGate_after _ _ _ (fun x k => adminDone_after _ _ _ _ _ (k_f _ k)) k_d

@[simp] theorem spdmFrom_after {dev0 : Dev} (need : Nat) (f : Dev → List Byte × Dev) (d : Dev)
    (k_f : ∀ x, After dev0 x → After dev0 (f x).2) (k_d : After dev0 d) : After dev0 (spdmFrom need f d).2 := by
  unfold spdmFrom
  split
  · exact k_f _ k_d
  · exact k_d

@[simp] theorem spdmSet_after {dev0 : Dev} (version state : Nat) (d : Dev) (k_d : After dev0 d) :
    After dev0 (spdmSet version state d) := by
  simp +contextual (maxDischargeDepth := 50) [spdmSet, k_d]

@[simp] theorem spdmGetVersion_after {dev0 : Dev} (via : Via) (d : Dev) (k_d : After dev0 d) :
    After dev0 (spdmGetVersion via d) := by
  simp +contextual (maxDischargeDepth := 50) [spdmGetVersion, k_d]

@[simp] theorem spdmGetCapabilities_after {dev0 : Dev} (via : Via) (version : Nat) (d : Dev) (k_d : After dev0 d) :
    After dev0 (spdmGetCapabilities via version d) := by
  simp +contextual (maxDischargeDepth := 50) [spdmGetCapabilities, k_d]

@[simp] theorem spdmNegotiate_after {dev0 : Dev} (via : Via) (p384 sha384 : Bool) (d : Dev) (k_d : After dev0 d) :
    After dev0 (spdmNegotiate via p384 sha384 d) := by
  simp +contextual (maxDischargeDepth := 50) [spdmNegotiate, k_d]

@[simp] theorem spdmGetDigests_after {dev0 : Dev} (via : Via) (d : Dev) (k_d : After dev0 d) :
    After dev0 (spdmGetDigests via d) := by
  simp +contextual (maxDischargeDepth := 50) [spdmGetDigests, k_d]

@[simp] theorem spdmGetCertificate_after {dev0 : Dev} (via : Via) (slot off len : Nat) (d : Dev) (k_d : After dev0 d) :
    After dev0 (spdmGetCertificate via slot off len d) := by
  simp +contextual (maxDischargeDepth := 50) [spdmGetCertificate, k_d]

@[simp] theorem spdmSignedServe_after {dev0 : Dev} (h : RndHeld) (via : Via) (f : Dev → List Byte × Dev) (d : Dev)
    (k_f : ∀ x, After dev0 x → After dev0 (f x).2) (k_d : After dev0 d) : After dev0 (spdmSignedServe h via f d) := by
  have k : ∀ x, After dev0 x → After dev0 (spdmServe via (spdmFrom 3 f) x) :=
    fun x kx => spdmServe_after _ _ _ (fun y ky => spdmFrom_after _ _ _ k_f ky) kx
  exact after_ite (rndGate_after _ _ _ k k_d) (k _ k_d)

@[simp] theorem spdmChallenge_after {dev0 : Dev} (via : Via) (slot : Nat) (nonce : List Byte) (d : Dev) (k_d : After dev0 d) :
    After dev0 (spdmChallenge via slot nonce d) := by
  simp +contextual (maxDischargeDepth := 50) [spdmChallenge, k_d]

@[simp] theorem spdmGetMeasurements_after {dev0 : Dev} (via : Via) (i : Nat) (signed : Bool) (nonce : List Byte) (d : Dev) (k_d : After dev0 d) :
    After dev0 (spdmGetMeasurements via i signed nonce d) := by
  simp +contextual (maxDischargeDepth := 50) [spdmGetMeasurements, k_d]

@[simp] theorem tapMod_after {dev0 : Dev} (f : Jtag → Jtag) (d : Dev) (k_d : After dev0 d) :
    After dev0 (tapMod f d) := by
  simp +contextual (maxDischargeDepth := 50) [tapMod, k_d]

@[simp] theorem tapScan_after {dev0 : Dev} (ir : Nat) (extest clamp highz : Bool) (d : Dev) (k_d : After dev0 d) :
    After dev0 (tapScan ir extest clamp highz d) := by
  simp +contextual (maxDischargeDepth := 50) [tapScan, k_d]

@[simp] theorem jtagExtest_after {dev0 : Dev} (levels cells : List (Nat × Bool)) (d : Dev) (k_d : After dev0 d) :
    After dev0 (jtagExtest levels cells d) := by
  simp +contextual (maxDischargeDepth := 50) [jtagExtest, k_d]

@[simp] theorem jtagIdcode_after {dev0 : Dev} (d : Dev) (k_d : After dev0 d) :
    After dev0 (jtagIdcode d) := by
  simp +contextual (maxDischargeDepth := 50) [jtagIdcode, k_d]

@[simp] theorem jtagSample_after {dev0 : Dev} (levels cells : List (Nat × Bool)) (d : Dev) (k_d : After dev0 d) :
    After dev0 (jtagSample levels cells d) := by
  simp +contextual (maxDischargeDepth := 50) [jtagSample, k_d]

@[simp] theorem jtagClamp_after {dev0 : Dev} (d : Dev) (k_d : After dev0 d) :
    After dev0 (jtagClamp d) := by
  simp +contextual (maxDischargeDepth := 50) [jtagClamp, k_d]

@[simp] theorem jtagHighz_after {dev0 : Dev} (d : Dev) (k_d : After dev0 d) :
    After dev0 (jtagHighz d) := by
  simp +contextual (maxDischargeDepth := 50) [jtagHighz, k_d]

@[simp] theorem jtagBypass_after {dev0 : Dev} (d : Dev) (k_d : After dev0 d) :
    After dev0 (jtagBypass d) := by
  simp +contextual (maxDischargeDepth := 50) [jtagBypass, k_d]

@[simp] theorem captureDraw_after {dev0 : Dev} (d : Dev) (k_d : After dev0 d) :
    After dev0 (captureDraw d) := by
  simp +contextual (maxDischargeDepth := 50) [captureDraw, k_d]

@[simp] theorem jtagChallenge_after {dev0 : Dev} (d : Dev) (k_d : After dev0 d) :
    After dev0 (jtagChallenge d) := by
  simp +contextual (maxDischargeDepth := 50) [jtagChallenge, k_d]

@[simp] theorem jtagVerify_after {dev0 : Dev} (chal : Option (BitVec 512)) (resp : BitVec 768) (d : Dev) (k_d : After dev0 d) :
    After dev0 (jtagVerify chal resp d) := by
  simp +contextual (maxDischargeDepth := 50) [jtagVerify, k_d]

@[simp] theorem jtagResponse_after {dev0 : Dev} (resp : BitVec 768) (d : Dev) (k_d : After dev0 d) :
    After dev0 (jtagResponse resp d) := by
  simp +contextual (maxDischargeDepth := 50) [jtagResponse, k_d]

@[simp] theorem verifyDone_after {dev0 : Dev} (d : Dev) (k_d : After dev0 d) :
    After dev0 (verifyDone d) := by
  unfold verifyDone
  simp +contextual (maxDischargeDepth := 50) [k_d]
  (repeat' split) <;> simp_all +contextual (maxDischargeDepth := 50)

@[simp] theorem jtagStat_after {dev0 : Dev} (d : Dev) (k_d : After dev0 d) :
    After dev0 (jtagStat d) := by
  simp +contextual (maxDischargeDepth := 50) [jtagStat, k_d]

@[simp] theorem jtagDmi_after {dev0 : Dev} (addr : Nat) (write : Bool) (v : Word) (d : Dev) (k_d : After dev0 d) :
    After dev0 (jtagDmi addr write v d) := by
  simp +contextual (maxDischargeDepth := 50) [jtagDmi, k_d]

@[simp] theorem rndRun_after {dev0 : Dev} (h : RndHeld) (d : Dev) (k_d : After dev0 d) :
    After dev0 (rndRun h d) := by
  unfold rndRun
  (repeat' split) <;> simp_all +contextual (maxDischargeDepth := 50)

@[simp] theorem drbgDue_after {dev0 : Dev} (healthy : Bool) (d : Dev) (k_d : After dev0 d) :
    After dev0 (drbgDue healthy d) := by
  simp +contextual (maxDischargeDepth := 50) [drbgDue, k_d]

@[simp] theorem eventPost_after {dev0 : Dev} (source code sev : Nat) (cont : Bool) (a0 a1 a2 : Word) (d : Dev) (k_d : After dev0 d) :
    After dev0 (eventPost source code sev cont a0 a1 a2 d) := by
  simp +contextual (maxDischargeDepth := 50) [eventPost, k_d]

@[simp] theorem postWrite_after {dev0 : Dev} (m : Nat) (v : Word) (d : Dev) (k_d : After dev0 d) : After dev0 (postWrite m v d).2 := by
  have ki := itemComplete_after d.hw 6 m k_d.hw
  unfold postWrite
  split
  · rename_i heq
    rw [heq] at ki
    exact after_mk.2 ⟨k_d.fuse, ki⟩
  · rename_i heq
    rw [heq] at ki
    exact eventPost_after _ _ _ _ _ _ _ _ (after_mk.2 ⟨k_d.fuse, ki⟩)

@[simp] theorem evrecCtrlWrite_after {dev0 : Dev} (v : Word) (d : Dev) (k_d : After dev0 d) :
    After dev0 (evrecCtrlWrite v d) := by
  simp +contextual (maxDischargeDepth := 50) [evrecCtrlWrite, k_d]

@[simp] theorem rlWrite_after {dev0 : Dev} (v : Word) (d : Dev) (k_d : After dev0 d) :
    After dev0 (rlWrite v d) := by
  simp +contextual (maxDischargeDepth := 50) [rlWrite, k_d]

@[simp] theorem regionScan_after {dev0 : Dev} (d : Dev) (k_d : After dev0 d) :
    After dev0 (regionScan d) := by
  simp +contextual (maxDischargeDepth := 50) [regionScan, k_d]

@[simp] theorem evrecWrite_after {dev0 : Dev} (o : Nat) (v : Word) (d : Dev) (k_d : After dev0 d) :
    After dev0 (evrecWrite o v d) := by
  unfold evrecWrite
  (repeat' split) <;> simp +contextual (maxDischargeDepth := 50) [k_d]

end Sys2Proof.Machine
end

