-- ==== Sys2Proof/Laws/KeepAccess.lean ====
section
/-!
SUPPORT. What the operations of Machine/Access.lean keep: one lemma per operation, that its result can follow what its argument can follow.
-/

set_option linter.unusedSimpArgs false
set_option maxRecDepth 4000

namespace Sys2Proof.Machine

@[simp] theorem plainWrite_after {dev0 : Dev} (a : Nat) (v : Word) (d : Dev) (k_d : After dev0 d) : After dev0 (plainWrite a v d) := by
  unfold plainWrite
  generalize slotIrq (regSlot a) = x
  generalize regRow a = y
  have kr : After dev0 (match y with
      | some r => hwMod (fun h => md h a (fun w => w1cWrite r.w1c (rwWrite r.rw w v) v)) d
      | none => d) := by
    cases y with
    | none => exact k_d
    | some r => exact hwMod_after _ _ (fun x k => md_after _ _ _ k) k_d
  cases x with
  | none => exact kr
  | some b =>
    exact after_ite (hwMod_after _ _ (fun x k => irqClear_after _ _ _ _ k) k_d)
      (after_ite (hwMod_after _ _ (fun x k => irqEnable_after _ _ _ _ k) k_d) kr)

@[simp] theorem whistleWrite_after {dev0 : Dev} (o : Nat) (v : Word) (d : Dev) (k_d : After dev0 d) :
    After dev0 (whistleWrite o v d) := by
  unfold whistleWrite
  (repeat' split) <;> simp_all +contextual (maxDischargeDepth := 50)

@[simp] theorem rindWrite_after {dev0 : Dev} (m o : Nat) (v : Word) (d : Dev) (k_d : After dev0 d) :
    After dev0 (rindWrite m o v d) := by
  unfold rindWrite
  (repeat' split) <;> simp +contextual (maxDischargeDepth := 50) [k_d]

@[simp] theorem curdWrite_after {dev0 : Dev} (m o : Nat) (v : Word) (d : Dev) (k_d : After dev0 d) :
    After dev0 (curdWrite m o v d).2 := by
  unfold curdWrite
  (repeat' split) <;> simp +contextual (maxDischargeDepth := 50) [k_d]

@[simp] theorem memchkWrite_after {dev0 : Dev} (o : Nat) (v : Word) (d : Dev) (k_d : After dev0 d) :
    After dev0 (memchkWrite o v d) := by
  unfold memchkWrite
  (repeat' split) <;> simp_all +contextual (maxDischargeDepth := 50)

@[simp] theorem dramcWrite_after {dev0 : Dev} (o : Nat) (v : Word) (d : Dev) (k_d : After dev0 d) :
    After dev0 (dramcWrite o v d) := by
  unfold dramcWrite
  (repeat' split) <;> simp_all +contextual (maxDischargeDepth := 50)

@[simp] theorem kvWrite_after {dev0 : Dev} (m o : Nat) (v : Word) (d : Dev) (k_d : After dev0 d) :
    After dev0 (kvWrite m o v d).2 := by
  unfold kvWrite
  (repeat' split) <;> simp +contextual (maxDischargeDepth := 50) [k_d]

@[simp] theorem hostifRegWrite_after {dev0 : Dev} (m o : Nat) (v : Word) (d : Dev) (k_d : After dev0 d) :
    After dev0 (hostifRegWrite m o v d).2 := by
  unfold hostifRegWrite
  (repeat' split) <;> simp +contextual (maxDischargeDepth := 50) [k_d]

@[simp] theorem mapuCtrlWrite_after {dev0 : Dev} (v : Word) (d : Dev) (k_d : After dev0 d) :
    After dev0 (mapuCtrlWrite v d) := by
  simp +contextual (maxDischargeDepth := 50) [mapuCtrlWrite, k_d]

@[simp] theorem cipherWrite_after {dev0 : Dev} (k m o : Nat) (v : Word) (d : Dev) (k_d : After dev0 d) :
    After dev0 (cipherWrite k m o v d).2 := by
  simp +contextual (maxDischargeDepth := 50) [cipherWrite, k_d]

@[simp] theorem fchWrite_after {dev0 : Dev} (c o : Nat) (v : Word) (d : Dev) (k_d : After dev0 d) :
    After dev0 (fchWrite c o v d) := by
  simp +contextual (maxDischargeDepth := 50) [fchWrite, k_d]

@[simp] theorem detWrite_after {dev0 : Dev} (n o : Nat) (v : Word) (d : Dev) (k_d : After dev0 d) :
    After dev0 (detWrite n o v d) := by
  simp +contextual (maxDischargeDepth := 50) [detWrite, k_d]

@[simp] theorem rbWrite_after {dev0 : Dev} (o a : Nat) (v : Word) (d : Dev) (k_d : After dev0 d) :
    After dev0 (rbWrite o a v d) := by
  simp +contextual (maxDischargeDepth := 50) [rbWrite, k_d]

@[simp] theorem detMoved_after {dev0 : Dev} (n : Nat) (d e : Dev) (k_d : After dev0 d) (k_e : After dev0 e) :
    After dev0 (detMoved n d e) := by
  simp +contextual (maxDischargeDepth := 50) [detMoved, k_d, k_e]

@[simp] theorem pwrRegWrite_after {dev0 : Dev} (o : Nat) (v : Word) (d : Dev) (k_d : After dev0 d) :
    After dev0 (pwrRegWrite o v d) := by
  simp +contextual (maxDischargeDepth := 50) [pwrRegWrite, k_d]

@[simp] theorem regWriteAt_after {dev0 : Dev} (m a : Nat) (v : Word) (d : Dev) (k_d : After dev0 d) :
    After dev0 (regWriteAt m a v d).2 := by
  unfold regWriteAt
  dsimp only
  (repeat' split) <;> simp +contextual (maxDischargeDepth := 50) [k_d]

@[simp] theorem latchRead_after {dev0 : Dev} (lo : Nat) (hi : Nat) (v : Nat) (m : Nat) (d : Dev) (k_d : After dev0 d) :
    After dev0 (latchRead lo hi v m d).2 := by
  simp +contextual (maxDischargeDepth := 50) [latchRead, k_d]

@[simp] theorem rspRead_after {dev0 : Dev} (slot a m : Nat) (d : Dev) (k_d : After dev0 d) :
    After dev0 (rspRead slot a m d).2 := by
  simp +contextual (maxDischargeDepth := 50) [rspRead, k_d]

@[simp] theorem whistleRead_after {dev0 : Dev} (o : Nat) (d : Dev) (k_d : After dev0 d) : After dev0 (whistleRead o d).2 := by
  unfold whistleRead
  exact after_snd_ite k_d (after_snd_ite k_d (after_snd_ite k_d (after_snd_ite
    (after_snd_ite k_d (after_snd_ite (whClaim_after _ _ _ _ k_d) k_d)) k_d)))

@[simp] theorem pwrRead_after {dev0 : Dev} (m o : Nat) (d : Dev) (k_d : After dev0 d) :
    After dev0 (pwrRead m o d).2 := by
  unfold pwrRead
  (repeat' split) <;> simp +contextual (maxDischargeDepth := 50) [k_d]

@[simp] theorem evrecRead_after {dev0 : Dev} (m o : Nat) (d : Dev) (k_d : After dev0 d) :
    After dev0 (evrecRead m o d).2 := by
  unfold evrecRead
  (repeat' split) <;> simp_all +contextual (maxDischargeDepth := 50)

@[simp] theorem curdRead_after {dev0 : Dev} (m o : Nat) (d : Dev) (k_d : After dev0 d) :
    After dev0 (curdRead m o d).2 := by
  simp +contextual (maxDischargeDepth := 50) [curdRead, k_d]

@[simp] theorem kvRead_after {dev0 : Dev} (m o : Nat) (d : Dev) (k_d : After dev0 d) :
    After dev0 (kvRead m o d).2 := by
  unfold kvRead
  (repeat' split) <;> simp_all +contextual (maxDischargeDepth := 50)

@[simp] theorem hostifRead_after {dev0 : Dev} (m o : Nat) (d : Dev) (k_d : After dev0 d) :
    After dev0 (hostifRead m o d).2 := by
  unfold hostifRead
  (repeat' split) <;> simp +contextual (maxDischargeDepth := 50) [k_d]

@[simp] theorem mapuRead_after {dev0 : Dev} (m o : Nat) (d : Dev) (k_d : After dev0 d) :
    After dev0 (mapuRead m o d).2 := by
  unfold mapuRead
  (repeat' split) <;> simp_all +contextual (maxDischargeDepth := 50)

@[simp] theorem affineurRead_after {dev0 : Dev} (m o : Nat) (d : Dev) (k_d : After dev0 d) :
    After dev0 (affineurRead m o d).2 := by
  unfold affineurRead
  (repeat' split) <;> simp_all +contextual (maxDischargeDepth := 50)

@[simp] theorem cipherRead_after {dev0 : Dev} (k m o : Nat) (d : Dev) (k_d : After dev0 d) :
    After dev0 (cipherRead k m o d).2 := by
  unfold cipherRead
  (repeat' split) <;> simp_all +contextual (maxDischargeDepth := 50)

@[simp] theorem regReadAt_after {dev0 : Dev} (m a : Nat) (d : Dev) (k_d : After dev0 d) :
    After dev0 (regReadAt m a d).2 := by
  unfold regReadAt
  dsimp only
  (repeat' split) <;> simp +contextual (maxDischargeDepth := 50) [k_d]

@[simp] theorem respond_after {dev0 : Dev} (q : Req) (st : Status) (data : Nat) (d : Dev) (k_d : After dev0 d) :
    After dev0 (respond q st data d) := by
  simp +contextual (maxDischargeDepth := 50) [respond, k_d]

@[simp] theorem respWait_after {dev0 : Dev} (q : Req) (d : Dev) (k_d : After dev0 d) :
    After dev0 (respWait q d) := by
  simp +contextual (maxDischargeDepth := 50) [respWait, k_d]

@[simp] theorem accessRead_after {dev0 : Dev} (q : Req) (d : Dev) (k_d : After dev0 d) :
    After dev0 (accessRead q d) := by
  unfold accessRead
  simp +contextual (maxDischargeDepth := 50) [k_d]
  (repeat' split) <;> simp_all +contextual (maxDischargeDepth := 50)

@[simp] theorem accessWrite_after {dev0 : Dev} (q : Req) (d : Dev) (k_d : After dev0 d) :
    After dev0 (accessWrite q d) := by
  unfold accessWrite
  (repeat' split) <;> simp_all +contextual (maxDischargeDepth := 50)

@[simp] theorem accessTarget_after {dev0 : Dev} (q : Req) (d : Dev) (k_d : After dev0 d) :
    After dev0 (accessTarget q d) := by
  simp +contextual (maxDischargeDepth := 50) [accessTarget, k_d]

@[simp] theorem access_after {dev0 : Dev} (q : Req) (d : Dev) (k_d : After dev0 d) :
    After dev0 (access q d) := by
  unfold access
  (repeat' split) <;> simp_all +contextual (maxDischargeDepth := 50)

@[simp] theorem regWrite_after {dev0 : Dev} (m a : Nat) (v : Word) (d : Dev) (k_d : After dev0 d) :
    After dev0 (regWrite m a v d) := by
  simp +contextual (maxDischargeDepth := 50) [regWrite, k_d]

@[simp] theorem regRead_after {dev0 : Dev} (m a : Nat) (d : Dev) (k_d : After dev0 d) :
    After dev0 (regRead m a d) := by
  simp +contextual (maxDischargeDepth := 50) [regRead, k_d]

@[simp] theorem heldRun_after {dev0 : Dev} (n : Nat) (d : Dev) (k_d : After dev0 d) :
    After dev0 (heldRun n d) := by
  simp +contextual (maxDischargeDepth := 50) [heldRun, k_d]

@[simp] theorem domainOn_after {dev0 : Dev} (n : Nat) (d : Dev) (k_d : After dev0 d) :
    After dev0 (domainOn n d) := by
  simp +contextual (maxDischargeDepth := 50) [domainOn, k_d]

@[simp] theorem fabmon_after {dev0 : Dev} (grant hop : Nat) (d : Dev) (k_d : After dev0 d) :
    After dev0 (fabmon grant hop d) := by
  simp +contextual (maxDischargeDepth := 50) [fabmon, k_d]

end Sys2Proof.Machine
end

