-- ==== Sys2Proof/Laws/KeepOperands.lean ====
section
/-!
SUPPORT. What the operations of Machine/Operands.lean keep: one lemma per operation, that its result can follow what its argument can follow.
-/

set_option linter.unusedSimpArgs false
set_option maxRecDepth 4000

namespace Sys2Proof.Machine

@[simp] theorem curdAsk_after {dev0 : Dev} (hard : Bool) (m : Nat) (w : Word) (ptr : Nat) (d : Dev) (k_d : After dev0 d) :
    After dev0 (curdAsk hard m w ptr d) := by
  simp +contextual (maxDischargeDepth := 50) [curdAsk, k_d]

@[simp] theorem cipherAsk_after {dev0 : Dev} (m k op slot : Nat) (d : Dev) (k_d : After dev0 d) :
    After dev0 (cipherAsk m k op slot d) := by
  simp +contextual (maxDischargeDepth := 50) [cipherAsk, k_d]

@[simp] theorem claimRead_after {dev0 : Dev} (m x : Nat) (old : Bool) (d : Dev) (k_d : After dev0 d) :
    After dev0 (claimRead m x old d) := by
  simp +contextual (maxDischargeDepth := 50) [claimRead, k_d]

@[simp] theorem closedRequest_after {dev0 : Dev} (n : Nat) (q : Req) (d : Dev) (k_d : After dev0 d) :
    After dev0 (closedRequest n q d) := by
  simp +contextual (maxDischargeDepth := 50) [closedRequest, k_d]

@[simp] theorem onOp_after {dev0 : Dev} (op : IoOp) (tag : Nat) (f : Dev → Dev) (d : Dev) (k_f : ∀ x, After dev0 x → After dev0 (f x))
    (k_d : After dev0 d) : After dev0 (onOp op tag f d) := by
  unfold onOp
  split
  · exact after_ite (k_f _ k_d) k_d
  · exact k_d

@[simp] theorem lunReadyAll_after {dev0 : Dev} (die plane : Nat) (pass idOk : Bool) (trainOk : BitVec 4) (verified : Bool) (d : Dev)
    (k_d : After dev0 d) :
    After dev0 (lunReadyAll die plane pass idOk trainOk verified d) := by
  simp +contextual (maxDischargeDepth := 50) [lunReadyAll, k_d]

@[simp] theorem pollBusy_after {dev0 : Dev} (die : Nat) (d : Dev) (k_d : After dev0 d) :
    After dev0 (pollBusy die d) := by
  simp +contextual (maxDischargeDepth := 50) [pollBusy, k_d]

end Sys2Proof.Machine
end

