-- ==== Sys2Proof/Laws/State.lean ====
section
/-!
SUPPORT. Each field of the state after each of the updates that the operations are built from.
-/

namespace Sys2Proof.Machine

@[simp] theorem onDev_pending (f : Dev → Dev) (s : State) : (s.onDev f).pending = s.pending := rfl

@[simp] theorem onDev_dev (f : Dev → Dev) (s : State) : (s.onDev f).dev = f s.dev := rfl

@[simp] theorem hwMod_fuse (f : Hw → Hw) (d : Dev) : (hwMod f d).fuse = d.fuse := rfl

@[simp] theorem hwMod_hw (f : Hw → Hw) (d : Dev) : (hwMod f d).hw = f d.hw := rfl

@[simp] theorem hwMod_pins (f : Hw → Hw) (d : Dev) : (hwMod f d).pins = d.pins := rfl

@[simp] theorem hwMod_pwr (f : Hw → Hw) (d : Dev) : (hwMod f d).pwr = d.pwr := rfl

@[simp] theorem hwMod_wh (f : Hw → Hw) (d : Dev) : (hwMod f d).wh = d.wh := rfl

@[simp] theorem hwMod_curd (f : Hw → Hw) (d : Dev) : (hwMod f d).curd = d.curd := rfl

@[simp] theorem hwMod_sec (f : Hw → Hw) (d : Dev) : (hwMod f d).sec = d.sec := rfl

@[simp] theorem hwMod_sj (f : Hw → Hw) (d : Dev) : (hwMod f d).sj = d.sj := rfl

@[simp] theorem hwMod_boot (f : Hw → Hw) (d : Dev) : (hwMod f d).boot = d.boot := rfl

@[simp] theorem hwMod_holdup (f : Hw → Hw) (d : Dev) : (hwMod f d).holdup = d.holdup := rfl

@[simp] theorem hwMod_therm (f : Hw → Hw) (d : Dev) : (hwMod f d).therm = d.therm := rfl

@[simp] theorem hwMod_mgmt (f : Hw → Hw) (d : Dev) : (hwMod f d).mgmt = d.mgmt := rfl

@[simp] theorem hwMod_jtag (f : Hw → Hw) (d : Dev) : (hwMod f d).jtag = d.jtag := rfl

@[simp] theorem hwMod_host (f : Hw → Hw) (d : Dev) : (hwMod f d).host = d.host := rfl

@[simp] theorem hwMod_ten (f : Hw → Hw) (d : Dev) : (hwMod f d).ten = d.ten := rfl

@[simp] theorem hwMod_fl (f : Hw → Hw) (d : Dev) : (hwMod f d).fl = d.fl := rfl

@[simp] theorem hwMod_med (f : Hw → Hw) (d : Dev) : (hwMod f d).med = d.med := rfl

@[simp] theorem hwMod_aff (f : Hw → Hw) (d : Dev) : (hwMod f d).aff = d.aff := rfl

@[simp] theorem domSet_fuse (n : Nat) (x : Dom) (d : Dev) : (domSet n x d).fuse = d.fuse := rfl

@[simp] theorem domSet_hw (n : Nat) (x : Dom) (d : Dev) : (domSet n x d).hw = d.hw := rfl

@[simp] theorem domSet_pins (n : Nat) (x : Dom) (d : Dev) : (domSet n x d).pins = d.pins := rfl

@[simp] theorem domSet_pwr (n : Nat) (x : Dom) (d : Dev) : (domSet n x d).pwr = domPut d.pwr n x := rfl

@[simp] theorem domSet_wh (n : Nat) (x : Dom) (d : Dev) : (domSet n x d).wh = d.wh := rfl

@[simp] theorem domSet_curd (n : Nat) (x : Dom) (d : Dev) : (domSet n x d).curd = d.curd := rfl

@[simp] theorem domSet_sec (n : Nat) (x : Dom) (d : Dev) : (domSet n x d).sec = d.sec := rfl

@[simp] theorem domSet_sj (n : Nat) (x : Dom) (d : Dev) : (domSet n x d).sj = d.sj := rfl

@[simp] theorem domSet_boot (n : Nat) (x : Dom) (d : Dev) : (domSet n x d).boot = d.boot := rfl

@[simp] theorem domSet_holdup (n : Nat) (x : Dom) (d : Dev) : (domSet n x d).holdup = d.holdup := rfl

@[simp] theorem domSet_therm (n : Nat) (x : Dom) (d : Dev) : (domSet n x d).therm = d.therm := rfl

@[simp] theorem domSet_mgmt (n : Nat) (x : Dom) (d : Dev) : (domSet n x d).mgmt = d.mgmt := rfl

@[simp] theorem domSet_jtag (n : Nat) (x : Dom) (d : Dev) : (domSet n x d).jtag = d.jtag := rfl

@[simp] theorem domSet_host (n : Nat) (x : Dom) (d : Dev) : (domSet n x d).host = d.host := rfl

@[simp] theorem domSet_ten (n : Nat) (x : Dom) (d : Dev) : (domSet n x d).ten = d.ten := rfl

@[simp] theorem domSet_fl (n : Nat) (x : Dom) (d : Dev) : (domSet n x d).fl = d.fl := rfl

@[simp] theorem domSet_med (n : Nat) (x : Dom) (d : Dev) : (domSet n x d).med = d.med := rfl

@[simp] theorem domSet_aff (n : Nat) (x : Dom) (d : Dev) : (domSet n x d).aff = d.aff := rfl

@[simp] theorem holdupMod_fuse (f : Holdup → Holdup) (d : Dev) : (holdupMod f d).fuse = d.fuse := rfl

@[simp] theorem holdupMod_hw (f : Holdup → Holdup) (d : Dev) : (holdupMod f d).hw = d.hw := rfl

@[simp] theorem holdupMod_pins (f : Holdup → Holdup) (d : Dev) : (holdupMod f d).pins = d.pins := rfl

@[simp] theorem holdupMod_pwr (f : Holdup → Holdup) (d : Dev) : (holdupMod f d).pwr = d.pwr := rfl

@[simp] theorem holdupMod_wh (f : Holdup → Holdup) (d : Dev) : (holdupMod f d).wh = d.wh := rfl

@[simp] theorem holdupMod_curd (f : Holdup → Holdup) (d : Dev) : (holdupMod f d).curd = d.curd := rfl

@[simp] theorem holdupMod_sec (f : Holdup → Holdup) (d : Dev) : (holdupMod f d).sec = d.sec := rfl

@[simp] theorem holdupMod_sj (f : Holdup → Holdup) (d : Dev) : (holdupMod f d).sj = d.sj := rfl

@[simp] theorem holdupMod_boot (f : Holdup → Holdup) (d : Dev) : (holdupMod f d).boot = d.boot := rfl

@[simp] theorem holdupMod_holdup (f : Holdup → Holdup) (d : Dev) : (holdupMod f d).holdup = f d.holdup := rfl

@[simp] theorem holdupMod_therm (f : Holdup → Holdup) (d : Dev) : (holdupMod f d).therm = d.therm := rfl

@[simp] theorem holdupMod_mgmt (f : Holdup → Holdup) (d : Dev) : (holdupMod f d).mgmt = d.mgmt := rfl

@[simp] theorem holdupMod_jtag (f : Holdup → Holdup) (d : Dev) : (holdupMod f d).jtag = d.jtag := rfl

@[simp] theorem holdupMod_host (f : Holdup → Holdup) (d : Dev) : (holdupMod f d).host = d.host := rfl

@[simp] theorem holdupMod_ten (f : Holdup → Holdup) (d : Dev) : (holdupMod f d).ten = d.ten := rfl

@[simp] theorem holdupMod_fl (f : Holdup → Holdup) (d : Dev) : (holdupMod f d).fl = d.fl := rfl

@[simp] theorem holdupMod_med (f : Holdup → Holdup) (d : Dev) : (holdupMod f d).med = d.med := rfl

@[simp] theorem holdupMod_aff (f : Holdup → Holdup) (d : Dev) : (holdupMod f d).aff = d.aff := rfl

@[simp] theorem therm_fuse (f : Therm → Therm) (d : Dev) : (therm f d).fuse = d.fuse := rfl

@[simp] theorem therm_hw (f : Therm → Therm) (d : Dev) : (therm f d).hw = d.hw := rfl

@[simp] theorem therm_pins (f : Therm → Therm) (d : Dev) : (therm f d).pins = d.pins := rfl

@[simp] theorem therm_pwr (f : Therm → Therm) (d : Dev) : (therm f d).pwr = d.pwr := rfl

@[simp] theorem therm_wh (f : Therm → Therm) (d : Dev) : (therm f d).wh = d.wh := rfl

@[simp] theorem therm_curd (f : Therm → Therm) (d : Dev) : (therm f d).curd = d.curd := rfl

@[simp] theorem therm_sec (f : Therm → Therm) (d : Dev) : (therm f d).sec = d.sec := rfl

@[simp] theorem therm_sj (f : Therm → Therm) (d : Dev) : (therm f d).sj = d.sj := rfl

@[simp] theorem therm_boot (f : Therm → Therm) (d : Dev) : (therm f d).boot = d.boot := rfl

@[simp] theorem therm_holdup (f : Therm → Therm) (d : Dev) : (therm f d).holdup = d.holdup := rfl

@[simp] theorem therm_therm (f : Therm → Therm) (d : Dev) : (therm f d).therm = f d.therm := rfl

@[simp] theorem therm_mgmt (f : Therm → Therm) (d : Dev) : (therm f d).mgmt = d.mgmt := rfl

@[simp] theorem therm_jtag (f : Therm → Therm) (d : Dev) : (therm f d).jtag = d.jtag := rfl

@[simp] theorem therm_host (f : Therm → Therm) (d : Dev) : (therm f d).host = d.host := rfl

@[simp] theorem therm_ten (f : Therm → Therm) (d : Dev) : (therm f d).ten = d.ten := rfl

@[simp] theorem therm_fl (f : Therm → Therm) (d : Dev) : (therm f d).fl = d.fl := rfl

@[simp] theorem therm_med (f : Therm → Therm) (d : Dev) : (therm f d).med = d.med := rfl

@[simp] theorem therm_aff (f : Therm → Therm) (d : Dev) : (therm f d).aff = d.aff := rfl

@[simp] theorem mgMod_fuse (f : Mgmt → Mgmt) (d : Dev) : (mgMod f d).fuse = d.fuse := rfl

@[simp] theorem mgMod_hw (f : Mgmt → Mgmt) (d : Dev) : (mgMod f d).hw = d.hw := rfl

@[simp] theorem mgMod_pins (f : Mgmt → Mgmt) (d : Dev) : (mgMod f d).pins = d.pins := rfl

@[simp] theorem mgMod_pwr (f : Mgmt → Mgmt) (d : Dev) : (mgMod f d).pwr = d.pwr := rfl

@[simp] theorem mgMod_wh (f : Mgmt → Mgmt) (d : Dev) : (mgMod f d).wh = d.wh := rfl

@[simp] theorem mgMod_curd (f : Mgmt → Mgmt) (d : Dev) : (mgMod f d).curd = d.curd := rfl

@[simp] theorem mgMod_sec (f : Mgmt → Mgmt) (d : Dev) : (mgMod f d).sec = d.sec := rfl

@[simp] theorem mgMod_sj (f : Mgmt → Mgmt) (d : Dev) : (mgMod f d).sj = d.sj := rfl

@[simp] theorem mgMod_boot (f : Mgmt → Mgmt) (d : Dev) : (mgMod f d).boot = d.boot := rfl

@[simp] theorem mgMod_holdup (f : Mgmt → Mgmt) (d : Dev) : (mgMod f d).holdup = d.holdup := rfl

@[simp] theorem mgMod_therm (f : Mgmt → Mgmt) (d : Dev) : (mgMod f d).therm = d.therm := rfl

@[simp] theorem mgMod_mgmt (f : Mgmt → Mgmt) (d : Dev) : (mgMod f d).mgmt = f d.mgmt := rfl

@[simp] theorem mgMod_jtag (f : Mgmt → Mgmt) (d : Dev) : (mgMod f d).jtag = d.jtag := rfl

@[simp] theorem mgMod_host (f : Mgmt → Mgmt) (d : Dev) : (mgMod f d).host = d.host := rfl

@[simp] theorem mgMod_ten (f : Mgmt → Mgmt) (d : Dev) : (mgMod f d).ten = d.ten := rfl

@[simp] theorem mgMod_fl (f : Mgmt → Mgmt) (d : Dev) : (mgMod f d).fl = d.fl := rfl

@[simp] theorem mgMod_med (f : Mgmt → Mgmt) (d : Dev) : (mgMod f d).med = d.med := rfl

@[simp] theorem mgMod_aff (f : Mgmt → Mgmt) (d : Dev) : (mgMod f d).aff = d.aff := rfl

@[simp] theorem tapMod_fuse (f : Jtag → Jtag) (d : Dev) : (tapMod f d).fuse = d.fuse := rfl

@[simp] theorem tapMod_hw (f : Jtag → Jtag) (d : Dev) : (tapMod f d).hw = d.hw := rfl

@[simp] theorem tapMod_pins (f : Jtag → Jtag) (d : Dev) : (tapMod f d).pins = d.pins := rfl

@[simp] theorem tapMod_pwr (f : Jtag → Jtag) (d : Dev) : (tapMod f d).pwr = d.pwr := rfl

@[simp] theorem tapMod_wh (f : Jtag → Jtag) (d : Dev) : (tapMod f d).wh = d.wh := rfl

@[simp] theorem tapMod_curd (f : Jtag → Jtag) (d : Dev) : (tapMod f d).curd = d.curd := rfl

@[simp] theorem tapMod_sec (f : Jtag → Jtag) (d : Dev) : (tapMod f d).sec = d.sec := rfl

@[simp] theorem tapMod_sj (f : Jtag → Jtag) (d : Dev) : (tapMod f d).sj = d.sj := rfl

@[simp] theorem tapMod_boot (f : Jtag → Jtag) (d : Dev) : (tapMod f d).boot = d.boot := rfl

@[simp] theorem tapMod_holdup (f : Jtag → Jtag) (d : Dev) : (tapMod f d).holdup = d.holdup := rfl

@[simp] theorem tapMod_therm (f : Jtag → Jtag) (d : Dev) : (tapMod f d).therm = d.therm := rfl

@[simp] theorem tapMod_mgmt (f : Jtag → Jtag) (d : Dev) : (tapMod f d).mgmt = d.mgmt := rfl

@[simp] theorem tapMod_jtag (f : Jtag → Jtag) (d : Dev) : (tapMod f d).jtag = f d.jtag := rfl

@[simp] theorem tapMod_host (f : Jtag → Jtag) (d : Dev) : (tapMod f d).host = d.host := rfl

@[simp] theorem tapMod_ten (f : Jtag → Jtag) (d : Dev) : (tapMod f d).ten = d.ten := rfl

@[simp] theorem tapMod_fl (f : Jtag → Jtag) (d : Dev) : (tapMod f d).fl = d.fl := rfl

@[simp] theorem tapMod_med (f : Jtag → Jtag) (d : Dev) : (tapMod f d).med = d.med := rfl

@[simp] theorem tapMod_aff (f : Jtag → Jtag) (d : Dev) : (tapMod f d).aff = d.aff := rfl

@[simp] theorem affMod_fuse (f : Aff → Aff) (d : Dev) : (affMod f d).fuse = d.fuse := rfl

@[simp] theorem affMod_hw (f : Aff → Aff) (d : Dev) : (affMod f d).hw = d.hw := rfl

@[simp] theorem affMod_pins (f : Aff → Aff) (d : Dev) : (affMod f d).pins = d.pins := rfl

@[simp] theorem affMod_pwr (f : Aff → Aff) (d : Dev) : (affMod f d).pwr = d.pwr := rfl

@[simp] theorem affMod_wh (f : Aff → Aff) (d : Dev) : (affMod f d).wh = d.wh := rfl

@[simp] theorem affMod_curd (f : Aff → Aff) (d : Dev) : (affMod f d).curd = d.curd := rfl

@[simp] theorem affMod_sec (f : Aff → Aff) (d : Dev) : (affMod f d).sec = d.sec := rfl

@[simp] theorem affMod_sj (f : Aff → Aff) (d : Dev) : (affMod f d).sj = d.sj := rfl

@[simp] theorem affMod_boot (f : Aff → Aff) (d : Dev) : (affMod f d).boot = d.boot := rfl

@[simp] theorem affMod_holdup (f : Aff → Aff) (d : Dev) : (affMod f d).holdup = d.holdup := rfl

@[simp] theorem affMod_therm (f : Aff → Aff) (d : Dev) : (affMod f d).therm = d.therm := rfl

@[simp] theorem affMod_mgmt (f : Aff → Aff) (d : Dev) : (affMod f d).mgmt = d.mgmt := rfl

@[simp] theorem affMod_jtag (f : Aff → Aff) (d : Dev) : (affMod f d).jtag = d.jtag := rfl

@[simp] theorem affMod_host (f : Aff → Aff) (d : Dev) : (affMod f d).host = d.host := rfl

@[simp] theorem affMod_ten (f : Aff → Aff) (d : Dev) : (affMod f d).ten = d.ten := rfl

@[simp] theorem affMod_fl (f : Aff → Aff) (d : Dev) : (affMod f d).fl = d.fl := rfl

@[simp] theorem affMod_med (f : Aff → Aff) (d : Dev) : (affMod f d).med = d.med := rfl

@[simp] theorem affMod_aff (f : Aff → Aff) (d : Dev) : (affMod f d).aff = f d.aff := rfl

@[simp] theorem mapuMod_fuse (f : Mapu → Mapu) (d : Dev) : (mapuMod f d).fuse = d.fuse := rfl

@[simp] theorem mapuMod_hw (f : Mapu → Mapu) (d : Dev) : (mapuMod f d).hw = d.hw := rfl

@[simp] theorem mapuMod_pins (f : Mapu → Mapu) (d : Dev) : (mapuMod f d).pins = d.pins := rfl

@[simp] theorem mapuMod_pwr (f : Mapu → Mapu) (d : Dev) : (mapuMod f d).pwr = d.pwr := rfl

@[simp] theorem mapuMod_wh (f : Mapu → Mapu) (d : Dev) : (mapuMod f d).wh = d.wh := rfl

@[simp] theorem mapuMod_curd (f : Mapu → Mapu) (d : Dev) : (mapuMod f d).curd = d.curd := rfl

@[simp] theorem mapuMod_sec (f : Mapu → Mapu) (d : Dev) : (mapuMod f d).sec = d.sec := rfl

@[simp] theorem mapuMod_sj (f : Mapu → Mapu) (d : Dev) : (mapuMod f d).sj = d.sj := rfl

@[simp] theorem mapuMod_boot (f : Mapu → Mapu) (d : Dev) : (mapuMod f d).boot = d.boot := rfl

@[simp] theorem mapuMod_holdup (f : Mapu → Mapu) (d : Dev) : (mapuMod f d).holdup = d.holdup := rfl

@[simp] theorem mapuMod_therm (f : Mapu → Mapu) (d : Dev) : (mapuMod f d).therm = d.therm := rfl

@[simp] theorem mapuMod_mgmt (f : Mapu → Mapu) (d : Dev) : (mapuMod f d).mgmt = d.mgmt := rfl

@[simp] theorem mapuMod_jtag (f : Mapu → Mapu) (d : Dev) : (mapuMod f d).jtag = d.jtag := rfl

@[simp] theorem mapuMod_host (f : Mapu → Mapu) (d : Dev) : (mapuMod f d).host = d.host := rfl

@[simp] theorem mapuMod_ten (f : Mapu → Mapu) (d : Dev) : (mapuMod f d).ten = d.ten := rfl

@[simp] theorem mapuMod_fl (f : Mapu → Mapu) (d : Dev) : (mapuMod f d).fl = d.fl := rfl

@[simp] theorem mapuMod_med (f : Mapu → Mapu) (d : Dev) : (mapuMod f d).med = { d.med with mapu := f d.med.mapu } := rfl

@[simp] theorem mapuMod_aff (f : Mapu → Mapu) (d : Dev) : (mapuMod f d).aff = d.aff := rfl

@[simp] theorem pacerMod_fuse (f : Pacer → Pacer) (d : Dev) : (pacerMod f d).fuse = d.fuse := rfl

@[simp] theorem pacerMod_hw (f : Pacer → Pacer) (d : Dev) : (pacerMod f d).hw = d.hw := rfl

@[simp] theorem pacerMod_pins (f : Pacer → Pacer) (d : Dev) : (pacerMod f d).pins = d.pins := rfl

@[simp] theorem pacerMod_pwr (f : Pacer → Pacer) (d : Dev) : (pacerMod f d).pwr = d.pwr := rfl

@[simp] theorem pacerMod_wh (f : Pacer → Pacer) (d : Dev) : (pacerMod f d).wh = d.wh := rfl

@[simp] theorem pacerMod_curd (f : Pacer → Pacer) (d : Dev) : (pacerMod f d).curd = d.curd := rfl

@[simp] theorem pacerMod_sec (f : Pacer → Pacer) (d : Dev) : (pacerMod f d).sec = d.sec := rfl

@[simp] theorem pacerMod_sj (f : Pacer → Pacer) (d : Dev) : (pacerMod f d).sj = d.sj := rfl

@[simp] theorem pacerMod_boot (f : Pacer → Pacer) (d : Dev) : (pacerMod f d).boot = d.boot := rfl

@[simp] theorem pacerMod_holdup (f : Pacer → Pacer) (d : Dev) : (pacerMod f d).holdup = d.holdup := rfl

@[simp] theorem pacerMod_therm (f : Pacer → Pacer) (d : Dev) : (pacerMod f d).therm = d.therm := rfl

@[simp] theorem pacerMod_mgmt (f : Pacer → Pacer) (d : Dev) : (pacerMod f d).mgmt = d.mgmt := rfl

@[simp] theorem pacerMod_jtag (f : Pacer → Pacer) (d : Dev) : (pacerMod f d).jtag = d.jtag := rfl

@[simp] theorem pacerMod_host (f : Pacer → Pacer) (d : Dev) : (pacerMod f d).host = d.host := rfl

@[simp] theorem pacerMod_ten (f : Pacer → Pacer) (d : Dev) : (pacerMod f d).ten = d.ten := rfl

@[simp] theorem pacerMod_fl (f : Pacer → Pacer) (d : Dev) : (pacerMod f d).fl = { d.fl with pacer := f d.fl.pacer } := rfl

@[simp] theorem pacerMod_med (f : Pacer → Pacer) (d : Dev) : (pacerMod f d).med = d.med := rfl

@[simp] theorem pacerMod_aff (f : Pacer → Pacer) (d : Dev) : (pacerMod f d).aff = d.aff := rfl

@[simp] theorem portPut_fuse (d : Dev) (p : Nat) (x : Port) : (portPut d p x).fuse = d.fuse := rfl

@[simp] theorem portPut_hw (d : Dev) (p : Nat) (x : Port) : (portPut d p x).hw = d.hw := rfl

@[simp] theorem portPut_pins (d : Dev) (p : Nat) (x : Port) : (portPut d p x).pins = d.pins := rfl

@[simp] theorem portPut_pwr (d : Dev) (p : Nat) (x : Port) : (portPut d p x).pwr = d.pwr := rfl

@[simp] theorem portPut_wh (d : Dev) (p : Nat) (x : Port) : (portPut d p x).wh = d.wh := rfl

@[simp] theorem portPut_curd (d : Dev) (p : Nat) (x : Port) : (portPut d p x).curd = d.curd := rfl

@[simp] theorem portPut_sec (d : Dev) (p : Nat) (x : Port) : (portPut d p x).sec = d.sec := rfl

@[simp] theorem portPut_sj (d : Dev) (p : Nat) (x : Port) : (portPut d p x).sj = d.sj := rfl

@[simp] theorem portPut_boot (d : Dev) (p : Nat) (x : Port) : (portPut d p x).boot = d.boot := rfl

@[simp] theorem portPut_holdup (d : Dev) (p : Nat) (x : Port) : (portPut d p x).holdup = d.holdup := rfl

@[simp] theorem portPut_therm (d : Dev) (p : Nat) (x : Port) : (portPut d p x).therm = d.therm := rfl

@[simp] theorem portPut_mgmt (d : Dev) (p : Nat) (x : Port) : (portPut d p x).mgmt = d.mgmt := rfl

@[simp] theorem portPut_jtag (d : Dev) (p : Nat) (x : Port) : (portPut d p x).jtag = d.jtag := rfl

@[simp] theorem portPut_host (d : Dev) (p : Nat) (x : Port) : (portPut d p x).host = { d.host with ports := tabPut d.host.ports p x } := rfl

@[simp] theorem portPut_ten (d : Dev) (p : Nat) (x : Port) : (portPut d p x).ten = d.ten := rfl

@[simp] theorem portPut_fl (d : Dev) (p : Nat) (x : Port) : (portPut d p x).fl = d.fl := rfl

@[simp] theorem portPut_med (d : Dev) (p : Nat) (x : Port) : (portPut d p x).med = d.med := rfl

@[simp] theorem portPut_aff (d : Dev) (p : Nat) (x : Port) : (portPut d p x).aff = d.aff := rfl

@[simp] theorem ctrlPut_fuse (d : Dev) (p fn : Nat) (c : Ctrl) : (ctrlPut d p fn c).fuse = d.fuse := rfl

@[simp] theorem ctrlPut_hw (d : Dev) (p fn : Nat) (c : Ctrl) : (ctrlPut d p fn c).hw = d.hw := rfl

@[simp] theorem ctrlPut_pins (d : Dev) (p fn : Nat) (c : Ctrl) : (ctrlPut d p fn c).pins = d.pins := rfl

@[simp] theorem ctrlPut_pwr (d : Dev) (p fn : Nat) (c : Ctrl) : (ctrlPut d p fn c).pwr = d.pwr := rfl

@[simp] theorem ctrlPut_wh (d : Dev) (p fn : Nat) (c : Ctrl) : (ctrlPut d p fn c).wh = d.wh := rfl

@[simp] theorem ctrlPut_curd (d : Dev) (p fn : Nat) (c : Ctrl) : (ctrlPut d p fn c).curd = d.curd := rfl

@[simp] theorem ctrlPut_sec (d : Dev) (p fn : Nat) (c : Ctrl) : (ctrlPut d p fn c).sec = d.sec := rfl

@[simp] theorem ctrlPut_sj (d : Dev) (p fn : Nat) (c : Ctrl) : (ctrlPut d p fn c).sj = d.sj := rfl

@[simp] theorem ctrlPut_boot (d : Dev) (p fn : Nat) (c : Ctrl) : (ctrlPut d p fn c).boot = d.boot := rfl

@[simp] theorem ctrlPut_holdup (d : Dev) (p fn : Nat) (c : Ctrl) : (ctrlPut d p fn c).holdup = d.holdup := rfl

@[simp] theorem ctrlPut_therm (d : Dev) (p fn : Nat) (c : Ctrl) : (ctrlPut d p fn c).therm = d.therm := rfl

@[simp] theorem ctrlPut_mgmt (d : Dev) (p fn : Nat) (c : Ctrl) : (ctrlPut d p fn c).mgmt = d.mgmt := rfl

@[simp] theorem ctrlPut_jtag (d : Dev) (p fn : Nat) (c : Ctrl) : (ctrlPut d p fn c).jtag = d.jtag := rfl

@[simp] theorem ctrlPut_host (d : Dev) (p fn : Nat) (c : Ctrl) :
    (ctrlPut d p fn c).host = { d.host with ctrls := tabPut d.host.ctrls (p * 64 + fn) c } := rfl

@[simp] theorem ctrlPut_ten (d : Dev) (p fn : Nat) (c : Ctrl) : (ctrlPut d p fn c).ten = d.ten := rfl

@[simp] theorem ctrlPut_fl (d : Dev) (p fn : Nat) (c : Ctrl) : (ctrlPut d p fn c).fl = d.fl := rfl

@[simp] theorem ctrlPut_med (d : Dev) (p fn : Nat) (c : Ctrl) : (ctrlPut d p fn c).med = d.med := rfl

@[simp] theorem ctrlPut_aff (d : Dev) (p fn : Nat) (c : Ctrl) : (ctrlPut d p fn c).aff = d.aff := rfl

@[simp] theorem kenPut_fuse (d : Dev) (k : Nat) (x : Kennel) : (kenPut d k x).fuse = d.fuse := rfl

@[simp] theorem kenPut_hw (d : Dev) (k : Nat) (x : Kennel) : (kenPut d k x).hw = d.hw := rfl

@[simp] theorem kenPut_pins (d : Dev) (k : Nat) (x : Kennel) : (kenPut d k x).pins = d.pins := rfl

@[simp] theorem kenPut_pwr (d : Dev) (k : Nat) (x : Kennel) : (kenPut d k x).pwr = d.pwr := rfl

@[simp] theorem kenPut_wh (d : Dev) (k : Nat) (x : Kennel) : (kenPut d k x).wh = d.wh := rfl

@[simp] theorem kenPut_curd (d : Dev) (k : Nat) (x : Kennel) : (kenPut d k x).curd = d.curd := rfl

@[simp] theorem kenPut_sec (d : Dev) (k : Nat) (x : Kennel) : (kenPut d k x).sec = d.sec := rfl

@[simp] theorem kenPut_sj (d : Dev) (k : Nat) (x : Kennel) : (kenPut d k x).sj = d.sj := rfl

@[simp] theorem kenPut_boot (d : Dev) (k : Nat) (x : Kennel) : (kenPut d k x).boot = d.boot := rfl

@[simp] theorem kenPut_holdup (d : Dev) (k : Nat) (x : Kennel) : (kenPut d k x).holdup = d.holdup := rfl

@[simp] theorem kenPut_therm (d : Dev) (k : Nat) (x : Kennel) : (kenPut d k x).therm = d.therm := rfl

@[simp] theorem kenPut_mgmt (d : Dev) (k : Nat) (x : Kennel) : (kenPut d k x).mgmt = d.mgmt := rfl

@[simp] theorem kenPut_jtag (d : Dev) (k : Nat) (x : Kennel) : (kenPut d k x).jtag = d.jtag := rfl

@[simp] theorem kenPut_host (d : Dev) (k : Nat) (x : Kennel) : (kenPut d k x).host = d.host := rfl

@[simp] theorem kenPut_ten (d : Dev) (k : Nat) (x : Kennel) : (kenPut d k x).ten = { d.ten with kennels := tabPut d.ten.kennels k x } := rfl

@[simp] theorem kenPut_fl (d : Dev) (k : Nat) (x : Kennel) : (kenPut d k x).fl = d.fl := rfl

@[simp] theorem kenPut_med (d : Dev) (k : Nat) (x : Kennel) : (kenPut d k x).med = d.med := rfl

@[simp] theorem kenPut_aff (d : Dev) (k : Nat) (x : Kennel) : (kenPut d k x).aff = d.aff := rfl

@[simp] theorem zonePut_fuse (d : Dev) (zk : Nat) (z : Zone) : (zonePut d zk z).fuse = d.fuse := rfl

@[simp] theorem zonePut_hw (d : Dev) (zk : Nat) (z : Zone) : (zonePut d zk z).hw = d.hw := rfl

@[simp] theorem zonePut_pins (d : Dev) (zk : Nat) (z : Zone) : (zonePut d zk z).pins = d.pins := rfl

@[simp] theorem zonePut_pwr (d : Dev) (zk : Nat) (z : Zone) : (zonePut d zk z).pwr = d.pwr := rfl

@[simp] theorem zonePut_wh (d : Dev) (zk : Nat) (z : Zone) : (zonePut d zk z).wh = d.wh := rfl

@[simp] theorem zonePut_curd (d : Dev) (zk : Nat) (z : Zone) : (zonePut d zk z).curd = d.curd := rfl

@[simp] theorem zonePut_sec (d : Dev) (zk : Nat) (z : Zone) : (zonePut d zk z).sec = d.sec := rfl

@[simp] theorem zonePut_sj (d : Dev) (zk : Nat) (z : Zone) : (zonePut d zk z).sj = d.sj := rfl

@[simp] theorem zonePut_boot (d : Dev) (zk : Nat) (z : Zone) : (zonePut d zk z).boot = d.boot := rfl

@[simp] theorem zonePut_holdup (d : Dev) (zk : Nat) (z : Zone) : (zonePut d zk z).holdup = d.holdup := rfl

@[simp] theorem zonePut_therm (d : Dev) (zk : Nat) (z : Zone) : (zonePut d zk z).therm = d.therm := rfl

@[simp] theorem zonePut_mgmt (d : Dev) (zk : Nat) (z : Zone) : (zonePut d zk z).mgmt = d.mgmt := rfl

@[simp] theorem zonePut_jtag (d : Dev) (zk : Nat) (z : Zone) : (zonePut d zk z).jtag = d.jtag := rfl

@[simp] theorem zonePut_host (d : Dev) (zk : Nat) (z : Zone) : (zonePut d zk z).host = d.host := rfl

@[simp] theorem zonePut_ten (d : Dev) (zk : Nat) (z : Zone) : (zonePut d zk z).ten = { d.ten with zones := tabPut d.ten.zones zk z } := rfl

@[simp] theorem zonePut_fl (d : Dev) (zk : Nat) (z : Zone) : (zonePut d zk z).fl = d.fl := rfl

@[simp] theorem zonePut_med (d : Dev) (zk : Nat) (z : Zone) : (zonePut d zk z).med = d.med := rfl

@[simp] theorem zonePut_aff (d : Dev) (zk : Nat) (z : Zone) : (zonePut d zk z).aff = d.aff := rfl

@[simp] theorem diePut_fuse (d : Dev) (n : Nat) (x : Die) : (diePut d n x).fuse = d.fuse := rfl

@[simp] theorem diePut_hw (d : Dev) (n : Nat) (x : Die) : (diePut d n x).hw = d.hw := rfl

@[simp] theorem diePut_pins (d : Dev) (n : Nat) (x : Die) : (diePut d n x).pins = d.pins := rfl

@[simp] theorem diePut_pwr (d : Dev) (n : Nat) (x : Die) : (diePut d n x).pwr = d.pwr := rfl

@[simp] theorem diePut_wh (d : Dev) (n : Nat) (x : Die) : (diePut d n x).wh = d.wh := rfl

@[simp] theorem diePut_curd (d : Dev) (n : Nat) (x : Die) : (diePut d n x).curd = d.curd := rfl

@[simp] theorem diePut_sec (d : Dev) (n : Nat) (x : Die) : (diePut d n x).sec = d.sec := rfl

@[simp] theorem diePut_sj (d : Dev) (n : Nat) (x : Die) : (diePut d n x).sj = d.sj := rfl

@[simp] theorem diePut_boot (d : Dev) (n : Nat) (x : Die) : (diePut d n x).boot = d.boot := rfl

@[simp] theorem diePut_holdup (d : Dev) (n : Nat) (x : Die) : (diePut d n x).holdup = d.holdup := rfl

@[simp] theorem diePut_therm (d : Dev) (n : Nat) (x : Die) : (diePut d n x).therm = d.therm := rfl

@[simp] theorem diePut_mgmt (d : Dev) (n : Nat) (x : Die) : (diePut d n x).mgmt = d.mgmt := rfl

@[simp] theorem diePut_jtag (d : Dev) (n : Nat) (x : Die) : (diePut d n x).jtag = d.jtag := rfl

@[simp] theorem diePut_host (d : Dev) (n : Nat) (x : Die) : (diePut d n x).host = d.host := rfl

@[simp] theorem diePut_ten (d : Dev) (n : Nat) (x : Die) : (diePut d n x).ten = d.ten := rfl

@[simp] theorem diePut_fl (d : Dev) (n : Nat) (x : Die) : (diePut d n x).fl = { d.fl with dies := tabPut d.fl.dies n x } := rfl

@[simp] theorem diePut_med (d : Dev) (n : Nat) (x : Die) : (diePut d n x).med = d.med := rfl

@[simp] theorem diePut_aff (d : Dev) (n : Nat) (x : Die) : (diePut d n x).aff = d.aff := rfl

@[simp] theorem chanPut_fuse (d : Dev) (n : Nat) (x : Chan) : (chanPut d n x).fuse = d.fuse := rfl

@[simp] theorem chanPut_hw (d : Dev) (n : Nat) (x : Chan) : (chanPut d n x).hw = d.hw := rfl

@[simp] theorem chanPut_pins (d : Dev) (n : Nat) (x : Chan) : (chanPut d n x).pins = d.pins := rfl

@[simp] theorem chanPut_pwr (d : Dev) (n : Nat) (x : Chan) : (chanPut d n x).pwr = d.pwr := rfl

@[simp] theorem chanPut_wh (d : Dev) (n : Nat) (x : Chan) : (chanPut d n x).wh = d.wh := rfl

@[simp] theorem chanPut_curd (d : Dev) (n : Nat) (x : Chan) : (chanPut d n x).curd = d.curd := rfl

@[simp] theorem chanPut_sec (d : Dev) (n : Nat) (x : Chan) : (chanPut d n x).sec = d.sec := rfl

@[simp] theorem chanPut_sj (d : Dev) (n : Nat) (x : Chan) : (chanPut d n x).sj = d.sj := rfl

@[simp] theorem chanPut_boot (d : Dev) (n : Nat) (x : Chan) : (chanPut d n x).boot = d.boot := rfl

@[simp] theorem chanPut_holdup (d : Dev) (n : Nat) (x : Chan) : (chanPut d n x).holdup = d.holdup := rfl

@[simp] theorem chanPut_therm (d : Dev) (n : Nat) (x : Chan) : (chanPut d n x).therm = d.therm := rfl

@[simp] theorem chanPut_mgmt (d : Dev) (n : Nat) (x : Chan) : (chanPut d n x).mgmt = d.mgmt := rfl

@[simp] theorem chanPut_jtag (d : Dev) (n : Nat) (x : Chan) : (chanPut d n x).jtag = d.jtag := rfl

@[simp] theorem chanPut_host (d : Dev) (n : Nat) (x : Chan) : (chanPut d n x).host = d.host := rfl

@[simp] theorem chanPut_ten (d : Dev) (n : Nat) (x : Chan) : (chanPut d n x).ten = d.ten := rfl

@[simp] theorem chanPut_fl (d : Dev) (n : Nat) (x : Chan) : (chanPut d n x).fl = { d.fl with chans := tabPut d.fl.chans n x } := rfl

@[simp] theorem chanPut_med (d : Dev) (n : Nat) (x : Chan) : (chanPut d n x).med = d.med := rfl

@[simp] theorem chanPut_aff (d : Dev) (n : Nat) (x : Chan) : (chanPut d n x).aff = d.aff := rfl

@[simp] theorem detPut_fuse (d : Dev) (n : Nat) (x : Det) : (detPut d n x).fuse = d.fuse := rfl

@[simp] theorem detPut_hw (d : Dev) (n : Nat) (x : Det) : (detPut d n x).hw = d.hw := rfl

@[simp] theorem detPut_pins (d : Dev) (n : Nat) (x : Det) : (detPut d n x).pins = d.pins := rfl

@[simp] theorem detPut_pwr (d : Dev) (n : Nat) (x : Det) : (detPut d n x).pwr = d.pwr := rfl

@[simp] theorem detPut_wh (d : Dev) (n : Nat) (x : Det) : (detPut d n x).wh = d.wh := rfl

@[simp] theorem detPut_curd (d : Dev) (n : Nat) (x : Det) : (detPut d n x).curd = d.curd := rfl

@[simp] theorem detPut_sec (d : Dev) (n : Nat) (x : Det) : (detPut d n x).sec = d.sec := rfl

@[simp] theorem detPut_sj (d : Dev) (n : Nat) (x : Det) : (detPut d n x).sj = d.sj := rfl

@[simp] theorem detPut_boot (d : Dev) (n : Nat) (x : Det) : (detPut d n x).boot = d.boot := rfl

@[simp] theorem detPut_holdup (d : Dev) (n : Nat) (x : Det) : (detPut d n x).holdup = d.holdup := rfl

@[simp] theorem detPut_therm (d : Dev) (n : Nat) (x : Det) : (detPut d n x).therm = d.therm := rfl

@[simp] theorem detPut_mgmt (d : Dev) (n : Nat) (x : Det) : (detPut d n x).mgmt = d.mgmt := rfl

@[simp] theorem detPut_jtag (d : Dev) (n : Nat) (x : Det) : (detPut d n x).jtag = d.jtag := rfl

@[simp] theorem detPut_host (d : Dev) (n : Nat) (x : Det) : (detPut d n x).host = d.host := rfl

@[simp] theorem detPut_ten (d : Dev) (n : Nat) (x : Det) : (detPut d n x).ten = d.ten := rfl

@[simp] theorem detPut_fl (d : Dev) (n : Nat) (x : Det) : (detPut d n x).fl = { d.fl with dets := tabPut d.fl.dets n x } := rfl

@[simp] theorem detPut_med (d : Dev) (n : Nat) (x : Det) : (detPut d n x).med = d.med := rfl

@[simp] theorem detPut_aff (d : Dev) (n : Nat) (x : Det) : (detPut d n x).aff = d.aff := rfl

@[simp] theorem runPut_fuse (d : Dev) (r : Nat) (x : Run) : (runPut d r x).fuse = d.fuse := rfl

@[simp] theorem runPut_hw (d : Dev) (r : Nat) (x : Run) : (runPut d r x).hw = d.hw := rfl

@[simp] theorem runPut_pins (d : Dev) (r : Nat) (x : Run) : (runPut d r x).pins = d.pins := rfl

@[simp] theorem runPut_pwr (d : Dev) (r : Nat) (x : Run) : (runPut d r x).pwr = d.pwr := rfl

@[simp] theorem runPut_wh (d : Dev) (r : Nat) (x : Run) : (runPut d r x).wh = d.wh := rfl

@[simp] theorem runPut_curd (d : Dev) (r : Nat) (x : Run) : (runPut d r x).curd = d.curd := rfl

@[simp] theorem runPut_sec (d : Dev) (r : Nat) (x : Run) : (runPut d r x).sec = d.sec := rfl

@[simp] theorem runPut_sj (d : Dev) (r : Nat) (x : Run) : (runPut d r x).sj = d.sj := rfl

@[simp] theorem runPut_boot (d : Dev) (r : Nat) (x : Run) : (runPut d r x).boot = d.boot := rfl

@[simp] theorem runPut_holdup (d : Dev) (r : Nat) (x : Run) : (runPut d r x).holdup = d.holdup := rfl

@[simp] theorem runPut_therm (d : Dev) (r : Nat) (x : Run) : (runPut d r x).therm = d.therm := rfl

@[simp] theorem runPut_mgmt (d : Dev) (r : Nat) (x : Run) : (runPut d r x).mgmt = d.mgmt := rfl

@[simp] theorem runPut_jtag (d : Dev) (r : Nat) (x : Run) : (runPut d r x).jtag = d.jtag := rfl

@[simp] theorem runPut_host (d : Dev) (r : Nat) (x : Run) : (runPut d r x).host = d.host := rfl

@[simp] theorem runPut_ten (d : Dev) (r : Nat) (x : Run) : (runPut d r x).ten = d.ten := rfl

@[simp] theorem runPut_fl (d : Dev) (r : Nat) (x : Run) : (runPut d r x).fl = { d.fl with runs := tabPut d.fl.runs r x } := rfl

@[simp] theorem runPut_med (d : Dev) (r : Nat) (x : Run) : (runPut d r x).med = d.med := rfl

@[simp] theorem runPut_aff (d : Dev) (r : Nat) (x : Run) : (runPut d r x).aff = d.aff := rfl

@[simp] theorem blkPut_fuse (d : Dev) (die b : Nat) (x : Blk) : (blkPut d die b x).fuse = d.fuse := rfl

@[simp] theorem blkPut_hw (d : Dev) (die b : Nat) (x : Blk) : (blkPut d die b x).hw = d.hw := rfl

@[simp] theorem blkPut_pins (d : Dev) (die b : Nat) (x : Blk) : (blkPut d die b x).pins = d.pins := rfl

@[simp] theorem blkPut_pwr (d : Dev) (die b : Nat) (x : Blk) : (blkPut d die b x).pwr = d.pwr := rfl

@[simp] theorem blkPut_wh (d : Dev) (die b : Nat) (x : Blk) : (blkPut d die b x).wh = d.wh := rfl

@[simp] theorem blkPut_curd (d : Dev) (die b : Nat) (x : Blk) : (blkPut d die b x).curd = d.curd := rfl

@[simp] theorem blkPut_sec (d : Dev) (die b : Nat) (x : Blk) : (blkPut d die b x).sec = d.sec := rfl

@[simp] theorem blkPut_sj (d : Dev) (die b : Nat) (x : Blk) : (blkPut d die b x).sj = d.sj := rfl

@[simp] theorem blkPut_boot (d : Dev) (die b : Nat) (x : Blk) : (blkPut d die b x).boot = d.boot := rfl

@[simp] theorem blkPut_holdup (d : Dev) (die b : Nat) (x : Blk) : (blkPut d die b x).holdup = d.holdup := rfl

@[simp] theorem blkPut_therm (d : Dev) (die b : Nat) (x : Blk) : (blkPut d die b x).therm = d.therm := rfl

@[simp] theorem blkPut_mgmt (d : Dev) (die b : Nat) (x : Blk) : (blkPut d die b x).mgmt = d.mgmt := rfl

@[simp] theorem blkPut_jtag (d : Dev) (die b : Nat) (x : Blk) : (blkPut d die b x).jtag = d.jtag := rfl

@[simp] theorem blkPut_host (d : Dev) (die b : Nat) (x : Blk) : (blkPut d die b x).host = d.host := rfl

@[simp] theorem blkPut_ten (d : Dev) (die b : Nat) (x : Blk) : (blkPut d die b x).ten = d.ten := rfl

@[simp] theorem blkPut_fl (d : Dev) (die b : Nat) (x : Blk) : (blkPut d die b x).fl = d.fl := rfl

@[simp] theorem blkPut_med (d : Dev) (die b : Nat) (x : Blk) :
    (blkPut d die b x).med = { d.med with blks := tabPut d.med.blks (die * 4096 + b) x } := rfl

@[simp] theorem blkPut_aff (d : Dev) (die b : Nat) (x : Blk) : (blkPut d die b x).aff = d.aff := rfl

@[simp] theorem sbPut_fuse (d : Dev) (n : Nat) (x : Sb) : (sbPut d n x).fuse = d.fuse := rfl

@[simp] theorem sbPut_hw (d : Dev) (n : Nat) (x : Sb) : (sbPut d n x).hw = d.hw := rfl

@[simp] theorem sbPut_pins (d : Dev) (n : Nat) (x : Sb) : (sbPut d n x).pins = d.pins := rfl

@[simp] theorem sbPut_pwr (d : Dev) (n : Nat) (x : Sb) : (sbPut d n x).pwr = d.pwr := rfl

@[simp] theorem sbPut_wh (d : Dev) (n : Nat) (x : Sb) : (sbPut d n x).wh = d.wh := rfl

@[simp] theorem sbPut_curd (d : Dev) (n : Nat) (x : Sb) : (sbPut d n x).curd = d.curd := rfl

@[simp] theorem sbPut_sec (d : Dev) (n : Nat) (x : Sb) : (sbPut d n x).sec = d.sec := rfl

@[simp] theorem sbPut_sj (d : Dev) (n : Nat) (x : Sb) : (sbPut d n x).sj = d.sj := rfl

@[simp] theorem sbPut_boot (d : Dev) (n : Nat) (x : Sb) : (sbPut d n x).boot = d.boot := rfl

@[simp] theorem sbPut_holdup (d : Dev) (n : Nat) (x : Sb) : (sbPut d n x).holdup = d.holdup := rfl

@[simp] theorem sbPut_therm (d : Dev) (n : Nat) (x : Sb) : (sbPut d n x).therm = d.therm := rfl

@[simp] theorem sbPut_mgmt (d : Dev) (n : Nat) (x : Sb) : (sbPut d n x).mgmt = d.mgmt := rfl

@[simp] theorem sbPut_jtag (d : Dev) (n : Nat) (x : Sb) : (sbPut d n x).jtag = d.jtag := rfl

@[simp] theorem sbPut_host (d : Dev) (n : Nat) (x : Sb) : (sbPut d n x).host = d.host := rfl

@[simp] theorem sbPut_ten (d : Dev) (n : Nat) (x : Sb) : (sbPut d n x).ten = d.ten := rfl

@[simp] theorem sbPut_fl (d : Dev) (n : Nat) (x : Sb) : (sbPut d n x).fl = d.fl := rfl

@[simp] theorem sbPut_med (d : Dev) (n : Nat) (x : Sb) : (sbPut d n x).med = { d.med with sbs := tabPut d.med.sbs n x } := rfl

@[simp] theorem sbPut_aff (d : Dev) (n : Nat) (x : Sb) : (sbPut d n x).aff = d.aff := rfl

@[simp] theorem jput_fuse (r : JRec) (d : Dev) : (jput r d).fuse = d.fuse := rfl

@[simp] theorem jput_hw (r : JRec) (d : Dev) : (jput r d).hw = d.hw := rfl

@[simp] theorem jput_pins (r : JRec) (d : Dev) : (jput r d).pins = d.pins := rfl

@[simp] theorem jput_pwr (r : JRec) (d : Dev) : (jput r d).pwr = d.pwr := rfl

@[simp] theorem jput_wh (r : JRec) (d : Dev) : (jput r d).wh = d.wh := rfl

@[simp] theorem jput_curd (r : JRec) (d : Dev) : (jput r d).curd = d.curd := rfl

@[simp] theorem jput_sec (r : JRec) (d : Dev) : (jput r d).sec = d.sec := rfl

@[simp] theorem jput_sj (r : JRec) (d : Dev) : (jput r d).sj = d.sj := rfl

@[simp] theorem jput_boot (r : JRec) (d : Dev) : (jput r d).boot = d.boot := rfl

@[simp] theorem jput_holdup (r : JRec) (d : Dev) : (jput r d).holdup = d.holdup := rfl

@[simp] theorem jput_therm (r : JRec) (d : Dev) : (jput r d).therm = d.therm := rfl

@[simp] theorem jput_mgmt (r : JRec) (d : Dev) : (jput r d).mgmt = d.mgmt := rfl

@[simp] theorem jput_jtag (r : JRec) (d : Dev) : (jput r d).jtag = d.jtag := rfl

@[simp] theorem jput_host (r : JRec) (d : Dev) : (jput r d).host = d.host := rfl

@[simp] theorem jput_ten (r : JRec) (d : Dev) : (jput r d).ten = d.ten := rfl

@[simp] theorem jput_fl (r : JRec) (d : Dev) : (jput r d).fl = d.fl := rfl

@[simp] theorem jput_med (r : JRec) (d : Dev) :
    (jput r d).med = { d.med with jr := { d.med.jr with buf := d.med.jr.buf ++ [r], count := d.med.jr.count + 1 } } := rfl

@[simp] theorem jput_aff (r : JRec) (d : Dev) : (jput r d).aff = d.aff := rfl

@[simp] theorem wr_regs (h : Hw) (a : Nat) (v : Word) : (wr h a v).regs = tabPut h.regs a v := rfl

@[simp] theorem wr_mregs (h : Hw) (a : Nat) (v : Word) : (wr h a v).mregs = h.mregs := rfl

@[simp] theorem wr_items (h : Hw) (a : Nat) (v : Word) : (wr h a v).items = h.items := rfl

@[simp] theorem wr_resps (h : Hw) (a : Nat) (v : Word) : (wr h a v).resps = h.resps := rfl

@[simp] theorem wr_time (h : Hw) (a : Nat) (v : Word) : (wr h a v).time = h.time := rfl

@[simp] theorem wr_bootCount (h : Hw) (a : Nat) (v : Word) : (wr h a v).bootCount = h.bootCount := rfl

@[simp] theorem wr_ev (h : Hw) (a : Nat) (v : Word) : (wr h a v).ev = h.ev := rfl

@[simp] theorem wr_rind (h : Hw) (a : Nat) (v : Word) : (wr h a v).rind = h.rind := rfl

@[simp] theorem wr_mem (h : Hw) (a : Nat) (v : Word) : (wr h a v).mem = h.mem := rfl

@[simp] theorem wr_free (h : Hw) (a : Nat) (v : Word) : (wr h a v).free = h.free := rfl

@[simp] theorem md_regs (h : Hw) (a : Nat) (f : Word → Word) : (md h a f).regs = tabPut h.regs a (f (rd h a)) := rfl

@[simp] theorem md_mregs (h : Hw) (a : Nat) (f : Word → Word) : (md h a f).mregs = h.mregs := rfl

@[simp] theorem md_items (h : Hw) (a : Nat) (f : Word → Word) : (md h a f).items = h.items := rfl

@[simp] theorem md_resps (h : Hw) (a : Nat) (f : Word → Word) : (md h a f).resps = h.resps := rfl

@[simp] theorem md_time (h : Hw) (a : Nat) (f : Word → Word) : (md h a f).time = h.time := rfl

@[simp] theorem md_bootCount (h : Hw) (a : Nat) (f : Word → Word) : (md h a f).bootCount = h.bootCount := rfl

@[simp] theorem md_ev (h : Hw) (a : Nat) (f : Word → Word) : (md h a f).ev = h.ev := rfl

@[simp] theorem md_rind (h : Hw) (a : Nat) (f : Word → Word) : (md h a f).rind = h.rind := rfl

@[simp] theorem md_mem (h : Hw) (a : Nat) (f : Word → Word) : (md h a f).mem = h.mem := rfl

@[simp] theorem md_free (h : Hw) (a : Nat) (f : Word → Word) : (md h a f).free = h.free := rfl

@[simp] theorem mwr_regs (h : Hw) (a m : Nat) (v : Word) : (mwr h a m v).regs = h.regs := rfl

@[simp] theorem mwr_mregs (h : Hw) (a m : Nat) (v : Word) : (mwr h a m v).mregs = tabPut h.mregs (a * 128 + m) v := rfl

@[simp] theorem mwr_items (h : Hw) (a m : Nat) (v : Word) : (mwr h a m v).items = h.items := rfl

@[simp] theorem mwr_resps (h : Hw) (a m : Nat) (v : Word) : (mwr h a m v).resps = h.resps := rfl

@[simp] theorem mwr_time (h : Hw) (a m : Nat) (v : Word) : (mwr h a m v).time = h.time := rfl

@[simp] theorem mwr_bootCount (h : Hw) (a m : Nat) (v : Word) : (mwr h a m v).bootCount = h.bootCount := rfl

@[simp] theorem mwr_ev (h : Hw) (a m : Nat) (v : Word) : (mwr h a m v).ev = h.ev := rfl

@[simp] theorem mwr_rind (h : Hw) (a m : Nat) (v : Word) : (mwr h a m v).rind = h.rind := rfl

@[simp] theorem mwr_mem (h : Hw) (a m : Nat) (v : Word) : (mwr h a m v).mem = h.mem := rfl

@[simp] theorem mwr_free (h : Hw) (a m : Nat) (v : Word) : (mwr h a m v).free = h.free := rfl

@[simp] theorem itemPut_regs (h : Hw) (slot m : Nat) (x : Item) : (itemPut h slot m x).regs = h.regs := rfl

@[simp] theorem itemPut_mregs (h : Hw) (slot m : Nat) (x : Item) : (itemPut h slot m x).mregs = h.mregs := rfl

@[simp] theorem itemPut_items (h : Hw) (slot m : Nat) (x : Item) : (itemPut h slot m x).items = tabPut h.items (slot * 128 + m) x := rfl

@[simp] theorem itemPut_resps (h : Hw) (slot m : Nat) (x : Item) : (itemPut h slot m x).resps = h.resps := rfl

@[simp] theorem itemPut_time (h : Hw) (slot m : Nat) (x : Item) : (itemPut h slot m x).time = h.time := rfl

@[simp] theorem itemPut_bootCount (h : Hw) (slot m : Nat) (x : Item) : (itemPut h slot m x).bootCount = h.bootCount := rfl

@[simp] theorem itemPut_ev (h : Hw) (slot m : Nat) (x : Item) : (itemPut h slot m x).ev = h.ev := rfl

@[simp] theorem itemPut_rind (h : Hw) (slot m : Nat) (x : Item) : (itemPut h slot m x).rind = h.rind := rfl

@[simp] theorem itemPut_mem (h : Hw) (slot m : Nat) (x : Item) : (itemPut h slot m x).mem = h.mem := rfl

@[simp] theorem itemPut_free (h : Hw) (slot m : Nat) (x : Item) : (itemPut h slot m x).free = h.free := rfl

@[simp] theorem raise_mregs (h : Hw) (st en b src : Nat) : (raise h st en b src).mregs = h.mregs := by
  unfold raise
  dsimp only
  split <;> rfl

@[simp] theorem raise_items (h : Hw) (st en b src : Nat) : (raise h st en b src).items = h.items := by
  unfold raise
  dsimp only
  split <;> rfl

@[simp] theorem raise_resps (h : Hw) (st en b src : Nat) : (raise h st en b src).resps = h.resps := by
  unfold raise
  dsimp only
  split <;> rfl

@[simp] theorem raise_time (h : Hw) (st en b src : Nat) : (raise h st en b src).time = h.time := by
  unfold raise
  dsimp only
  split <;> rfl

@[simp] theorem raise_bootCount (h : Hw) (st en b src : Nat) : (raise h st en b src).bootCount = h.bootCount := by
  unfold raise
  dsimp only
  split <;> rfl

@[simp] theorem raise_ev (h : Hw) (st en b src : Nat) : (raise h st en b src).ev = h.ev := by
  unfold raise
  dsimp only
  split <;> rfl

@[simp] theorem raise_rind (h : Hw) (st en b src : Nat) : (raise h st en b src).rind = h.rind := by
  unfold raise
  dsimp only
  split <;> rfl

@[simp] theorem raise_mem (h : Hw) (st en b src : Nat) : (raise h st en b src).mem = h.mem := by
  unfold raise
  dsimp only
  split <;> rfl

@[simp] theorem raise_free (h : Hw) (st en b src : Nat) : (raise h st en b src).free = h.free := by
  unfold raise
  dsimp only
  split <;> rfl

@[simp] theorem irq_mregs (h : Hw) (blk : IrqBlock) (b : Nat) : (irq h blk b).mregs = h.mregs := raise_mregs ..

@[simp] theorem irq_items (h : Hw) (blk : IrqBlock) (b : Nat) : (irq h blk b).items = h.items := raise_items ..

@[simp] theorem irq_resps (h : Hw) (blk : IrqBlock) (b : Nat) : (irq h blk b).resps = h.resps := raise_resps ..

@[simp] theorem irq_time (h : Hw) (blk : IrqBlock) (b : Nat) : (irq h blk b).time = h.time := raise_time ..

@[simp] theorem irq_bootCount (h : Hw) (blk : IrqBlock) (b : Nat) : (irq h blk b).bootCount = h.bootCount := raise_bootCount ..

@[simp] theorem irq_ev (h : Hw) (blk : IrqBlock) (b : Nat) : (irq h blk b).ev = h.ev := raise_ev ..

@[simp] theorem irq_rind (h : Hw) (blk : IrqBlock) (b : Nat) : (irq h blk b).rind = h.rind := raise_rind ..

@[simp] theorem irq_mem (h : Hw) (blk : IrqBlock) (b : Nat) : (irq h blk b).mem = h.mem := raise_mem ..

@[simp] theorem irq_free (h : Hw) (blk : IrqBlock) (b : Nat) : (irq h blk b).free = h.free := raise_free ..

@[simp] theorem respond_fuse (q : Req) (st : Status) (data : Nat) (d : Dev) : (respond q st data d).fuse = d.fuse := rfl

@[simp] theorem respond_pins (q : Req) (st : Status) (data : Nat) (d : Dev) : (respond q st data d).pins = d.pins := rfl

@[simp] theorem respond_pwr (q : Req) (st : Status) (data : Nat) (d : Dev) : (respond q st data d).pwr = d.pwr := rfl

@[simp] theorem respond_wh (q : Req) (st : Status) (data : Nat) (d : Dev) : (respond q st data d).wh = d.wh := rfl

@[simp] theorem respond_curd (q : Req) (st : Status) (data : Nat) (d : Dev) : (respond q st data d).curd = d.curd := rfl

@[simp] theorem respond_sec (q : Req) (st : Status) (data : Nat) (d : Dev) : (respond q st data d).sec = d.sec := rfl

@[simp] theorem respond_sj (q : Req) (st : Status) (data : Nat) (d : Dev) : (respond q st data d).sj = d.sj := rfl

@[simp] theorem respond_boot (q : Req) (st : Status) (data : Nat) (d : Dev) : (respond q st data d).boot = d.boot := rfl

@[simp] theorem respond_holdup (q : Req) (st : Status) (data : Nat) (d : Dev) : (respond q st data d).holdup = d.holdup := rfl

@[simp] theorem respond_therm (q : Req) (st : Status) (data : Nat) (d : Dev) : (respond q st data d).therm = d.therm := rfl

@[simp] theorem respond_mgmt (q : Req) (st : Status) (data : Nat) (d : Dev) : (respond q st data d).mgmt = d.mgmt := rfl

@[simp] theorem respond_jtag (q : Req) (st : Status) (data : Nat) (d : Dev) : (respond q st data d).jtag = d.jtag := rfl

@[simp] theorem respond_host (q : Req) (st : Status) (data : Nat) (d : Dev) : (respond q st data d).host = d.host := rfl

@[simp] theorem respond_ten (q : Req) (st : Status) (data : Nat) (d : Dev) : (respond q st data d).ten = d.ten := rfl

@[simp] theorem respond_fl (q : Req) (st : Status) (data : Nat) (d : Dev) : (respond q st data d).fl = d.fl := rfl

@[simp] theorem respond_med (q : Req) (st : Status) (data : Nat) (d : Dev) : (respond q st data d).med = d.med := rfl

@[simp] theorem respond_aff (q : Req) (st : Status) (data : Nat) (d : Dev) : (respond q st data d).aff = d.aff := rfl

@[simp] theorem portGet_portPut (d : Dev) (p : Nat) (x : Port) : portGet (portPut d p x) p = x := tabGetD_tabPut_self ..

@[simp] theorem ctrlGet_ctrlPut (d : Dev) (p fn : Nat) (x : Ctrl) : ctrlGet (ctrlPut d p fn x) p fn = x := tabGetD_tabPut_self ..

@[simp] theorem zoneGet_zonePut (d : Dev) (zk : Nat) (x : Zone) : zoneGet (zonePut d zk x) zk = x := tabGetD_tabPut_self ..

@[simp] theorem dieGet_diePut (d : Dev) (n : Nat) (x : Die) : dieGet (diePut d n x) n = x := tabGetD_tabPut_self ..

@[simp] theorem chanGet_chanPut (d : Dev) (n : Nat) (x : Chan) : chanGet (chanPut d n x) n = x := tabGetD_tabPut_self ..

@[simp] theorem detGet_detPut (d : Dev) (n : Nat) (x : Det) : detGet (detPut d n x) n = x := tabGetD_tabPut_self ..

@[simp] theorem runGet_runPut (d : Dev) (r : Nat) (x : Run) : runGet (runPut d r x) r = some x := tabGet_tabPut_self ..

@[simp] theorem blkGet_blkPut (d : Dev) (die b : Nat) (x : Blk) : blkGet (blkPut d die b x) die b = x := tabGetD_tabPut_self ..

@[simp] theorem sbGet_sbPut (d : Dev) (n : Nat) (x : Sb) : sbGet (sbPut d n x) n = some x := tabGet_tabPut_self ..

@[simp] theorem mrd_mwr (h : Hw) (a m : Nat) (v : Word) : mrd (mwr h a m v) a m = v := tabGetD_tabPut_self ..

@[simp] theorem itemGet_itemPut (h : Hw) (slot m : Nat) (x : Item) : itemGet (itemPut h slot m x) slot m = x := tabGetD_tabPut_self ..

@[simp] theorem slotGet_slotPut (s : Sec) (n : Nat) (x : Slot) : slotGet (slotPut s n x) n = x := tabGetD_tabPut_self ..

end Sys2Proof.Machine
end

