-- ==== Sys2Proof/Tests/Slice0.lean ====
section
/-!
SUPPORT. Tests: an ill-formed command for each check of well-formedness; single steps against the spec's worked examples and tables; and,
for each statement with hypotheses, a theorem that gives each of its clauses a device and operands that meet them together.
-/

namespace Sys2Proof.Tests

open Sys2Proof Sys2Proof.Machine

set_option maxRecDepth 100000
set_option Elab.async false
set_option exponentiation.threshold 512

/-- A part after start-up: every domain ON, core 0 running, both ports' links up with their physical functions enabled, and firmware up. -/
def upDev : Dev :=
  let d := Dev.reset
  { d with
    pins := { d.pins with pgood := true, sysResetHigh := true, dualPort := true }
    hw := { d.hw with regs := [(R.HOSTIF_BOOT, 1#32)] }
    pwr := { d.pwr with doms := (List.range 96).map (fun n => (n, { Dom.init with st := .on })), seqWait := false, cores := [(0, 0)] }
    host := { d.host with
      ports := [(0, { Port.init with perst := false, link := .l0 }), (1, { Port.init with perst := false, link := .l0 })]
      ctrls := [(0, { Ctrl.init with en := true, rdy := true }), (1, { Ctrl.init with en := true, rdy := true })] } }

/-- upDev's registers with some of them written. -/
def upRegs (l : List (Nat × Word)) : List (Nat × Word) := l.foldl (fun t q => tabPut t q.1 q.2) upDev.hw.regs

/-- upDev's domains with some of them changed. -/
def upDoms (l : List (Nat × Dom)) : List (Nat × Dom) := l.foldl (fun t q => tabPut t q.1 q.2) upDev.pwr.doms

/-- Memory that holds one word, with its check bits, at a word address. -/
def memOne (a : Nat) (w : DWord) (c : Byte) : Mem := memPut Mem.init a w c

/-- A one-block read of namespace 1. -/
def io0 : IoCmd :=
  { op := .read, cid := 3, nsid := 1, slba := 0, nlb := 1, act := .open_, all := false, keyTag := none, place := none, data := [7], sqe := [] }

/-- io0, admitted from queue 1 of port 0's physical function. -/
def op0 : Op :=
  { cmd := io0, port := 0, fn := 0, sq := 1, kennel := 0, cls := 1, doorbell := 0#64, deadline := 0, lba := 0, st := .admitted,
    dispatched := true, quiet := false, depth := 0, status := .success, ciphered := false, key := (0, 0, 0), bufs := [], packs := [0],
    seq := 0, limit := 0, runs := 0, out := [], bad := none }

/-- A zoned plaintext namespace of two zones of 1,024 blocks, attached to port 0's physical function and to its first virtual one. -/
def ns0 : Ns :=
  { zoned := true, nsze := 2048, width := 16, cipher := 0, slot := 0, keyGen := 0, keyCheck := 0, keyFailed := false, homePort := 0,
    secureMode := false, handles := 1, attached := [0], readOnly := false, base := 0, zsze := 1024, created := 0, registrants := [] }

/-- A read of a codeword of die 0 for the host command with tag 1. -/
def run0 : Run :=
  { serves := .host 1 0, st := .queued, loc := { die := 0, block := 0, wl := 0, page := 0, plane := 0, slot := 0 }, sb := 1, k := 0,
    seqLo := none, lba := 0, nsid := 1, kennel := 0, cls := 1, deadline := 0, step := 1, stepAt := 0, sub := 0, used := [], vec := [], sweep := [],
    edges := [], sent := false, depth := 0, slc := false, bin := 0, ent := [],
    points := 0, spacing := 0, since := 0, dec := none, decNot := none, inHard := [], inLlr := [], avoid := none, det := none, members := [], lostMember := false, attached := [], data := 7,
    lost := false }

/-- A superblock of one member block of die 0. -/
def sb0 : Sb :=
  { type := 0, nsid := 1, kennel := 0, pack := 0, width := 16, dieSet := 0, members := [(0, 0)], replaced := [], zslba := 0, zcap := 1024,
    handle := 0, opened := 0, source := 0, nextK := 0, staged := [], rowsDone := [], rowWait := [], closed := false, filter := [],
    owners := [] }

/-- A copy of block 0 of namespace 1. -/
def cp0 : Copy :=
  { nsid := 1, lba := 0, seq := 1, kennel := 0, cipher := 0, slot := 0, gen := 0, lost := false, pad := false, parked := false, refresh := false,
    data := 7 }

/-- An erase of block 0, queued. -/
def fj0 : FJob := { serves := .erase false, erase := true, slc := false, block := 0, wl := 0, since := 0#64, token := false, asked := false }

/-- An erase in progress. -/
def arr0 : ArrRun :=
  { op := .erase, job := some fj0, suspended := false, suspending := false, since := 0#64, ran := 0, suspends := 0, heldAt := 0#64, due := false,
    last := false, kennel := none, heldQ := [] }

/-- A firmware encryption job. -/
def job0 : Job :=
  { master := some 0, tag := none, op := 1, slot := 0, key := 0#512, iv := 0#96, src := 0x10000000, dst := 0x10001000, len := 0, aad := 0,
    aadLen := 0, tweak := 0, tagAddr := 0, status := .range }

/-- A host's registration. -/
def rg0 : Registrant := { hostId := 5, key := 9, holder := false, rtype := 0, ptpl := false }

/-- A boot record of image B. -/
def bootRec0 : BootRec := { BootRec.blank with type := 4, bootCount := 5, seq := 9, image := 1 }

/-- The Rind store's programmed bytes with that record in the first slot of the boot area. -/
def bootCells : List Host.Cell := ((List.range 64).zip (bootBytes bootRec0)).filter (fun q => decide (q.2 ≠ 0xFF#8))

/-- An image slot whose first byte is 0 holds no image that can start. -/
theorem attempt_fails (d : Dev) (h : storeByte d.hw.rind.store (imageBase d.boot.image) = some 0#8) : (attemptRun d).1 ≠ .ok := by
  have hi : ∃ t, imageBytes d d.boot.image = 0#8 :: t := by
    have e : imageBytes d d.boot.image = rindByte d.hw.rind d.hw.free (imageBase d.boot.image + 0)
        :: (List.map Nat.succ (List.range 3145727)).map (fun i => rindByte d.hw.rind d.hw.free (imageBase d.boot.image + i)) := by
      unfold imageBytes rindBytes
      rw [show (3145728 : Nat) = 3145727 + 1 from rfl, List.range_succ_eq_map, List.map_cons]
    have h0 : rindByte d.hw.rind d.hw.free (imageBase d.boot.image + 0) = 0#8 := by simp [rindByte, h]
    rw [h0] at e
    exact ⟨_, e⟩
  obtain ⟨t, ht⟩ := hi
  have hf : imageForm d.fuse (imageBytes d d.boot.image) = .reject := by
    rw [ht]
    have hs : slotEmpty (0#8 :: t) = false := by
      unfold slotEmpty leAt
      cases t <;> (simp [leNat]; try omega)
    have h4 : (0#8 :: t).take 4 ≠ [0x48#8, 0x4E#8, 0x46#8, 0x57#8] := by simp [List.take]
    simp only [imageForm, hs, Bool.false_eq_true, if_false]
    rw [if_pos (Or.inl h4)]
  unfold attemptRun
  simp [hf]

/-- A recorded event. -/
def evr0 : EvRecd :=
  { time := 0#64, boot := 0#32, code := 1, sev := 0, cont := false, source := 0, supp := 0, a0 := 0#32, a1 := 0#32, a2 := 0#32 }

/-- upDev's recorder with some of its state changed. -/
def upEv (e : EvState) : Hw := { upDev.hw with ev := e }

/-- A sampled block: open, with a descriptor. -/
def blk0 : Blk := { Blk.init with st := .open_, desc := [1#8], pilot := 2 }

/-- A slot of the erased Rind store is empty. -/
theorem erased_slot_empty (d : Dev) (h : ∀ i < 4, rindByte d.hw.rind d.hw.free (imageBase d.boot.image + i) = 0xFF#8) :
    slotEmpty (imageBytes d d.boot.image) = true := by
  have e : (imageBytes d d.boot.image).take 4 = [0xFF#8, 0xFF#8, 0xFF#8, 0xFF#8] := by
    unfold imageBytes rindBytes
    rw [← List.map_take, List.take_range]
    have h0 := h 0 (by omega)
    rw [Nat.add_zero] at h0
    simp [List.range_succ, h0, h 1, h 2, h 3]
  unfold slotEmpty leAt
  rw [List.drop_zero, e]
  decide

/-- The reset device is what a reset leaves of itself. -/
theorem reset_resetTo : Dev.ResetTo true Dev.reset Dev.reset where
  fuse := rfl
  time := rfl
  mem := rfl
  balls := by decide +kernel
  reset := fun _ _ _ _ => rfl
  kept := fun _ _ => rfl
  windows := ⟨rfl, rfl, rfl⟩
  slots := rfl
  dbg := rfl
  host := ⟨rfl, rfl, rfl⟩
  doms := by decide +kernel
  held := rfl
  rom := ⟨rfl, rfl⟩

/-- A table over a list of numbers has an entry at each of them. -/
theorem tab_has {α : Type} (a : α) (l : List Nat) (j : Nat) (h : j ∈ l) : (tabGet (l.map (fun i => (i + 1, a))) (j + 1)).isSome = true := by
  induction l with
  | nil => cases h
  | cons x t ih =>
    simp only [List.map_cons, tabGet]
    by_cases e : x + 1 = j + 1
    · simp [e]
    · rw [if_neg e]
      exact ih ((List.mem_cons.1 h).resolve_left (fun q => e (by rw [q])))

/-- With 1,024 namespaces no NSID is free. -/
theorem full_nsids (d : Dev) (h : d.ten.namespaces = (List.range 1024).map (fun i => (i + 1, ns0))) : freeNsid d = none := by
  unfold freeNsid
  rw [List.find?_eq_none]
  intro x hx
  obtain ⟨a, ha, rfl⟩ := List.mem_map.1 hx
  have := tab_has ns0 (List.range 1024) a ha
  unfold nsGet
  rw [h]
  simp [Option.isNone_iff_eq_none, Option.isSome_iff_ne_none.1 this]

/-- A bin-table entry of zeros with its CRC. -/
def binRec : List Byte := List.replicate 60 0#8 ++ leBytes 4 (crc32c (List.replicate 60 0#8)).toNat

/-- A reservation command with tag 9, from a controller of host 5, on namespace 1 with some registrants. -/
def resvDev (a : ResvAct) (rs : List Registrant) : Dev :=
  { upDev with
    host.ops := [(9, { op0 with cmd := { io0 with op := .resv a } })]
    host.ctrls := [(0, { Ctrl.init with en := true, rdy := true, hostId := 5 })]
    ten.namespaces := [(1, { ns0 with registrants := rs })] }

/-- With a key in each of the 8,192 slots none is free. -/
theorem full_slots (d : Dev) (h : d.sec.slots = (List.range 8192).map (fun i => (i, { Slot.init with type := 1 }))) : freeSlot d = none := by
  have key : ∀ (l : List Nat) (j : Nat), j ∈ l → tabGet (l.map (fun i => (i, { Slot.init with type := 1 }))) j = some { Slot.init with type := 1 } := by
    intro l
    induction l with
    | nil => intro j hj; cases hj
    | cons x t ih =>
      intro j hj
      simp only [List.map_cons, tabGet]
      by_cases e : x = j
      · rw [if_pos e]
      · rw [if_neg e]
        exact ih j ((List.mem_cons.1 hj).resolve_left (fun q => e q.symm))
  unfold freeSlot
  rw [List.find?_eq_none]
  intro x hx
  have := key (List.range 8192) x hx
  simp [slotGet, tabGetD, h, this]

/-- The device after a command that answers a next state. -/
def after (c : Instr) (d : Dev) : Dev :=
  match exec c { pending := [], dev := d } with
  | .next t => t.dev
  | _ => d

/-! Ill-formed commands, one for each check of well-formedness. -/

/-- A part has ports 0 and 1 (R44). -/
theorem test_wf_port : Instr.wf (.ptmFail 2) = false := by decide
/-- A controller has functions 0–63 (R51). -/
theorem test_wf_function : ∀ a, Instr.wf (.configRequest 0 ⟨64, a⟩) = false := fun _ => rfl
/-- Master IDs 28–31 and those above 103 are reserved (Table 1.10). -/
theorem test_wf_master : Instr.wf (.curdEnable 28) = false ∧ Instr.wf (.curdEnable 104) = false := by decide
/-- COLLAR_CTRL takes no item. -/
theorem test_wf_item_register : Instr.wf (.itemArgWrite 0 0xF000010000 0#32) = false := by decide
/-- A partial write is of fewer bytes than a word. -/
theorem test_wf_partial : Instr.wf (.partialWrite 0 0 (List.replicate 8 0#8)) = false := by decide
/-- Packs are 0–2. -/
theorem test_wf_pack : Instr.wf (.unitRebuildCodeword 3 true) = false := by decide
/-- Dies are 0–1,535 (R11). -/
theorem test_wf_die : Instr.wf (.readDispatch 1536) = false := by decide
/-- Channels are 0–47, and a profile window has 1,024 words. -/
theorem test_wf_channel : Instr.wf (.fchEnWrite 0 48 0#32) = false ∧ Instr.wf (.fchProfileWindowWrite 0 0 1024 0#32) = false := by decide
/-- Detectors are 0–23 and their contexts 0–3. -/
theorem test_wf_detector (o : DetObs) : Instr.wf (.detSelftestDone 24 true) = false ∧ Instr.wf (.detJobDone 0 4 o 0) = false :=
  ⟨by decide, rfl⟩
/-- Bin-learning entries are 0–255. -/
theorem test_wf_bin : Instr.wf (.binLearnTimeout 256) = false := by decide
/-- DRAM channels, cipher engines and clusters are 0–3. -/
theorem test_wf_quarter :
    Instr.wf (.dramTrainFail 4) = false ∧ Instr.wf (.cipherJobDone 4) = false ∧ Instr.wf (.whistleWake 4) = false := by decide
/-- The entropy source has two health tests. -/
theorem test_wf_health : Instr.wf (.entropyHealthFail 2) = false := by decide
/-- Alarm sources are 0–4. -/
theorem test_wf_alarm : Instr.wf (.alarm 5 0) = false := by decide
/-- Filtered inputs are 0–15; pending and mask words 0–31; a mask write is of the value, the SET or the CLEAR alias. -/
theorem test_wf_interrupt :
    Instr.wf (.filteredLevelChange 16 true) = false ∧ Instr.wf (.pendingSetAlias 0 32 0#32) = false
      ∧ Instr.wf (.maskWrite 0 32 0 0#32) = false ∧ Instr.wf (.maskWrite 0 0 3 0#32) = false := by decide
/-- Contexts are 0–31, sources 0–1,023, external configurations and harts 0–15. -/
theorem test_wf_context :
    Instr.wf (.whClaim 0 32 false) = false ∧ Instr.wf (.whRouteWrite 0 1024 0#32) = false ∧ Instr.wf (.whXcfgWrite 0 16 0#32) = false
      ∧ Instr.wf (.timerCompareReached 16) = false := by decide
/-- The Rind window has 16 MiB. -/
theorem test_wf_window : Instr.wf (.rindWindowRead 0 0x1000000 4) = false := by decide
/-- Power domains are PD0–PD95. -/
theorem test_wf_domain : Instr.wf (.domainRetTimer 96) = false := by decide

/-! One step each; the expected values are the spec's. -/

/-- On an empty queue one HK tick passes. -/
theorem test_idle : step State.reset = .next (idle State.reset) := rfl
/-- The device time register of the reset device reads 0 (R31). -/
theorem test_time_zero : (tabGet (after (.idTimeLoRead 0) upDev).hw.resps 0).map (fun r => (r.status, r.data)) = some (.ok, 0) := by decide +kernel
/-- A third port answers nothing. -/
theorem test_no_unit : exec (.ptmFail 2) State.reset = .fault .noSuchUnit := rfl
/-- IDCODE of HN4896 at stepping A (R490). -/
theorem test_idcode : (after .jtagIdcode upDev).jtag.dr = 0x1489664B := by decide +kernel
/-- IDCODE of HN4864-MX (R490). -/
theorem test_idcode_mx : (after .jtagIdcode { upDev with fuse.variant := .mx }).jtag.dr = 0x1486464B := by decide +kernel

/-- Chapter 3, worked example "The reference namespace": a full ZCAP of 460,800 LBAs and a ZSZE of 524,288. -/
theorem test_reference_zone :
    15 * memberUnits (prof upDev) = 460800 ∧ zoneSize (prof upDev) 16 = 524288 := by decide +kernel

/-- Chapter 8, worked example "Locating a zone offset": offset 123,456 on member 7, with its scrambler and pilot seeds. -/
theorem test_zone_offset :
    let s : Sb := { sb0 with members := (List.range 16).map (fun i => ((32 + i) * 32 + 18, 1703)) }
    locOf upDev s 123456 = { die := 1266, block := 1703, wl := 103, page := 4, plane := 2, slot := 1 }
      ∧ scramblerSeed (locOf upDev s 123456) = 85000352573 ∧ pilotSeed 1266 2 1703 = 1328023208 := by decide +kernel

/-- Chapter 2, worked example "Sizing the buffer": 10 TB of conventional namespace have 4,768,372 segments. -/
theorem test_segments : (2441406250 + 511) / 512 = 4768372 := by decide

/-- A device whose bank measures 4,700 µF. -/
def bankDev : Dev := { upDev with holdup.capNf := some 4700000 }
/-- Chapter 15, worked example "Measuring an aged bank": 2,227 mJ at 34.60 V and 2,286 mJ at 35.00 V. -/
theorem test_bank_energy :
    energyAt bankDev 3460 / 2000000000000 = 2227 ∧ energyAt bankDev 3500 / 2000000000000 = 2286 := by decide +kernel
/-- The same example: 467 MiB, 482 MiB and, at 30.00 V, 306 MiB (the example rounds on the way, so whole MiB are compared). -/
theorem test_bank_limit :
    limitAt bankDev 3460 / 1024 = 467 ∧ limitAt bankDev 3500 / 1024 = 482 ∧ limitAt bankDev 3000 / 1024 = 306 := by decide +kernel

/-- CURD enabled, class 2 at 0x1300_0000 with only buffer 3 free. -/
def poolDev : Dev :=
  { upDev with
    hw.regs := upRegs [(R.CURD_CTRL, 1#32), (R.CURD_CBASE_LO 2, 0x13000000#32), (R.CURD_CCOUNT 2, 16#32)]
    curd.free := [(2, [3])] }
/-- Chapter 11, worked example "A read through a fallen-through buffer", step 1: a grant of 4 KiB falls through to class 2. -/
theorem test_grant_falls_through :
    tabGet (after (.curdGrant 22 4096 false true) poolDev).curd.bufs (2 * 65536 + 3) = some { st := .held, holds := 1, final := some 22 } := by
  decide +kernel
/-- Steps 2, 3 and 5: shared with port 0, freed by it, dropped by the cipher; the buffer is being released. -/
theorem test_deferred_free :
    let d := { poolDev with curd.free := [], curd.bufs := [(2 * 65536 + 3, { st := .held, holds := 2, final := some 16 })] }
    let e := after (.curdFree 16 true 0x1300C000) d
    (tabGet e.curd.bufs (2 * 65536 + 3)).map (fun b => (b.st, b.holds)) = some (.pending, 1)
      ∧ (tabGet (after (.curdDrop 22 true 0x1300C000) e).curd.bufs (2 * 65536 + 3)).map (fun b => b.st) = some .releasing := by decide +kernel

/-- Chapter 13, worked example "Masking a source while it is delivered": core 9 masks source 77, bit 13 of word 2. -/
theorem test_mask_source :
    rd (after (.maskWrite 9 2 1 0x2000#32) { upDev with hw.regs := upRegs [(R.WH_MASK 2, 0#32)] }).hw (R.WH_MASK 2) = 0x2000#32 := by decide +kernel

/-- Chapter 16, worked example "A burst of deadline misses", step 2: 2.5 tokens and 80 suppressed leave 1.5 tokens, and the record says 80. -/
theorem test_event_bucket :
    let h := { upDev.hw with
      regs := upRegs [(R.EVREC_CTRL, 1#32)]
      ev := { upDev.hw.ev with buckets := [(7, { rate := 10, burst := 20, level := 62500000, last := 0, supp := 80 })] } }
    let r := evPost h 1 7 0 false 0#32 0#32 0#32
    r.1 = .stored ∧ (evBucket r.2 7).level = 37500000 ∧ (evBucket r.2 7).supp = 0
      ∧ (r.2.ev.buf.map (fun q => q.supp)) = [80] := by decide +kernel

/-- The check value of CRC-32C, of the bytes "123456789". -/
theorem test_crc32c : crc32c [0x31#8, 0x32#8, 0x33#8, 0x34#8, 0x35#8, 0x36#8, 0x37#8, 0x38#8, 0x39#8] = 0xE3069283#32 := by decide +kernel

/-- Chapter 0, worked example "Locating a die": die 1,234 is in Pack 2. -/
theorem test_die_pack : packOf 1234 = 2 := by decide

/-- The CLEAR alias undoes it and leaves the other bits (R407). -/
theorem test_unmask_source :
    rd (after (.maskWrite 9 2 2 0x2000#32) { upDev with hw.regs := upRegs [(R.WH_MASK 2, 0x2001#32)] }).hw (R.WH_MASK 2) = 1#32 := by
  decide +kernel

/-- LOCK sets the sector's lock bit when it ends (R422). -/
theorem test_rind_lock :
    rindLocked (after .rindOpDone { upDev with
      hw.rind.running := some { op := 3, addr := 0xFF0000, data := [], status := .ok } }).hw.rind 255 = true := by decide +kernel

/-! Witnesses of the statements' hypotheses. -/

/-- Devices and operands that meet the hypotheses of CommandsLeaveTheQueue, clause by clause. -/
theorem witness_CommandsLeaveTheQueue :
    ∃ (c : Instr) (s t : State), exec c s = .next t :=
  ⟨.ptmFail 0, { pending := [.ptmFail 0], dev := upDev }, _, rfl⟩

/-- Devices and operands that meet the hypotheses of IllFormedCommandsStop, clause by clause. -/
theorem witness_IllFormedCommandsStop :
    ∃ (c : Instr), c.wf = false :=
  ⟨.ptmFail 2, by decide +kernel⟩

/-- Devices and operands that meet the hypotheses of WellFormedCommandsRun, clause by clause. -/
theorem witness_WellFormedCommandsRun :
    ∃ (c : Instr) (d : Dev), c.wf = true ∧ d.fuse.variant = .ax ∧ d.pins.dualPort = true :=
  ⟨.fabmonUpdate 0 0, upDev, by decide +kernel⟩

/-- Devices and operands that meet the hypotheses of StepKeepsStoresCanonical, clause by clause. -/
theorem witness_StepKeepsStoresCanonical :
    ∃ s t : State, s.storesWf ∧ step s = .next t :=
  ⟨{ pending := [.ptmFail 0], dev := upDev }, _, by decide +kernel, rfl⟩

/-- Devices and operands that meet the hypotheses of StepKeepsThePart, clause by clause. -/
theorem witness_StepKeepsThePart :
    ∃ s t : State, step s = .next t :=
  ⟨{ pending := [.ptmFail 0], dev := upDev }, _, rfl⟩

/-- Devices and operands that meet the hypotheses of StartupCommands, clause by clause. -/
theorem witness_StartupCommands :
    (∃ d : Dev, d.pins.pgood = false) ∧
    (∃ d : Dev, d.pins.pgood = false) ∧
    (∃ d : Dev, d.pins.pgood = true) ∧
    (∃ d : Dev, d.pins.sysResetHigh = true) ∧
    (∃ (d : Dev), d.pins.sysResetHigh = false) ∧
    (∃ (d : Dev) (i n : Nat), d.pwr.seq = some i ∧ (seqOrder d.fuse)[i]? = some n ∧ (domGet d.pwr n).st = .off) ∧
    (∃ d : Dev, d.holdup.flushStep = 6 ∧ d.holdup.resetAfter = true ∧ d.holdup.coldAfter = false ∧ d.holdup.inHold = false) ∧
    (∃ (d : Dev) (m : Nat) (v : Word), d.lets (writeOf m R.RIND_BOOTCTL (v ||| 2#32)) ∧ fld v 4 2 = 3) ∧
    (∃ (d : Dev) (m : Nat) (v : Word), d.lets (writeOf m R.RIND_BOOTCTL (v ||| 2#32)) ∧ fld v 4 2 ≠ 3) ∧
    (∃ (d : Dev) (p fn : Nat), ctrlOk d p fn = true) :=
  ⟨⟨{ upDev with pins.pgood := false }, by decide +kernel⟩,
   ⟨{ upDev with pins.pgood := false }, by decide +kernel⟩,
   ⟨upDev, by decide +kernel⟩,
   ⟨upDev, by decide +kernel⟩,
   ⟨{ upDev with pins.sysResetHigh := false }, by decide +kernel⟩,
   ⟨{ upDev with pwr.doms := [], pwr.seq := some 1 }, 1, _, by decide +kernel, rfl, by decide +kernel⟩,
   ⟨{ upDev with holdup.flushStep := 6, holdup.resetAfter := true }, by decide +kernel⟩,
   ⟨upDev, 0, 0x30#32, by decide +kernel⟩,
   ⟨upDev, 0, 0#32, by decide +kernel⟩,
   ⟨upDev, 0, 0, by decide +kernel⟩⟩

/-- Devices and operands that meet the hypotheses of FabricCommands, clause by clause. -/
theorem witness_FabricCommands :
    (∃ (d : Dev) (q : Req), (masterReserved q.master = true ∨ masterClocked d q.master = false ∨ storeHeld d q.master = true)) ∧
    (∃ (d : Dev) (q : Req), masterReserved q.master = false ∧ masterClocked d q.master = true ∧ storeHeld d q.master = false ∧ fetchBarred d q = true) ∧
    (∃ (d : Dev) (m : Nat), d.lets (readOf m R.ID_TIME_LO)) ∧
    (∃ (d : Dev) (m p : Nat), p < 2 ∧ d.lets (readOf m (R.HOSTIF_PTM_LO p))) ∧
    (∃ (d : Dev) (m : Nat), d.lets (readOf m R.MAPU_VER_LO)) ∧
    (∃ (d : Dev) (m : Nat), d.lets (readOf m R.AFFINEUR_MTIME_LO)) ∧
    (∃ (d : Dev) (m n : Nat), n < 96 ∧ d.lets (readOf m (R.PWR_LW_TIME_LO n))) ∧
    (∃ (d : Dev) (m : Nat), d.lets (readOf m R.KV_SLOT_CTR_LO)) ∧
    (∃ (d : Dev) (m a : Nat) (v : Word) (r : RegRow), 0xF0000D0000 ≤ a ∧ a < 0xF0000E0000 ∧ a ≠ R.HERDER_INT_STAT ∧ a ≠ R.HERDER_INT_EN ∧ regRow a =
      some r ∧ d.lets (writeOf m a v)) ∧
    (∃ (d : Dev) (m a : Nat) (v : Word), itemArgAddr a = true ∧ d.lets (writeOf m a v)) ∧
    (∃ (d : Dev) (m a size : Nat) (fetch : Bool) (w : DWord) (c : Byte), size ≤ 8 ∧ d.lets (readReq m a size fetch) ∧ (regionOf d.hw a = .sram ∨
      regionOf d.hw a = .retention ∨ regionOf d.hw a = .dram) ∧ memRaw d.hw.mem (a / 8 * 8) = some (w, c)) ∧
    (∃ (d : Dev) (m a : Nat) (data : DWord) (chk : Byte), d.lets (wordReq m a data chk) ∧ (regionOf d.hw a = .sram ∨ regionOf d.hw a = .retention ∨
      regionOf d.hw a = .dram)) ∧
    (∃ (d : Dev) (m a : Nat) (bs : List Byte) (w : DWord) (c : Byte), bs.length < 8 ∧ d.lets (bytesReq m a bs) ∧ (regionOf d.hw a = .sram ∨ regionOf
      d.hw a = .retention ∨ regionOf d.hw a = .dram) ∧ memRaw d.hw.mem (a / 8 * 8) = some (w, c)) :=
  ⟨⟨upDev, { master := 104, kind := .read, addr := 0, size := 4, data := 0, chk := 0 }, by decide +kernel⟩,
   ⟨upDev, { master := 0, kind := .fetch, addr := R.KV_CTRL, size := 4, data := 0, chk := 0 }, by decide +kernel⟩,
   ⟨upDev, 0, by decide +kernel⟩,
   ⟨upDev, 0, 0, by decide +kernel⟩,
   ⟨upDev, 0, by decide +kernel⟩,
   ⟨upDev, 0, by decide +kernel⟩,
   ⟨upDev, 0, 0, by decide +kernel⟩,
   ⟨upDev, 0, by decide +kernel⟩,
   ⟨upDev, 0, R.HERDER_PWAIT, 0#32, _, by decide +kernel, by decide +kernel, by decide +kernel, by decide +kernel, rfl, by decide +kernel⟩,
   ⟨upDev, 0, R.CURD + 0x14, 0#32, by decide +kernel⟩,
   ⟨{ upDev with hw.mem := memOne 0x13FFFFF8 5#64 7#8 }, 0, 0x13FFFFF8, 8, false, _, _, by decide +kernel, by decide +kernel, by decide +kernel, rfl⟩,
   ⟨upDev, 0, 0x20000000, 0#64, 0#8, by decide +kernel⟩,
   ⟨{ upDev with hw.mem := memOne 0x13FFFFF8 5#64 7#8 }, 0, 0x13FFFFFC, [0#8, 1#8, 2#8, 3#8], _, _, by decide +kernel, by decide +kernel,
     by decide +kernel, rfl⟩⟩

/-- Devices and operands that meet the hypotheses of InterruptCommands, clause by clause. -/
theorem witness_InterruptCommands :
    (∃ (d : Dev) (i : Nat) (lv : Bool), i < 16 ∧ i ≠ 2 ∧ ((i = 0 ∨ i = 3) → d.holdup.flushStep = 0) ∧ d.pins.filt.getLsbD i ≠ lv ∧ (extDriven d i =
      true → extSample d i = lv)) ∧
    (∃ (d : Dev) (lv : Bool), d.pins.filt.getLsbD 2 ≠ lv) ∧
    (∃ d : Dev, d.pins.filt.getLsbD 0 = true ∧ d.holdup.flushStep ≠ 0) ∧
    (∃ (d : Dev) (m j : Nat) (v : Word), j < 32 ∧ d.lets (writeOf m (R.WH_PEND_SET j) v)) ∧
    (∃ (d : Dev) (m j : Nat) (v : Word), j < 32 ∧ d.lets (writeOf m (R.WH_PEND_CLR j) v)) ∧
    (∃ (d : Dev) (m j kind : Nat) (v : Word), j < 32 ∧ kind < 3 ∧ d.lets (writeOf m (maskAddr kind j) v)) ∧
    (∃ (d : Dev) (m x s : Nat) (old : Bool), x < 32 ∧ s < 1024 ∧ d.wh.saved.getLsbD (x / 8) = false ∧ d.lets (readOf m (R.WH_CLAIM x)) ∧ whEligible
      (whView d old) (x / 2) (x % 2) s = true ∧ (∀ t < 1024, t ≠ s → whEligible (whView d old) (x / 2) (x % 2) t = true → fld (whView d old
      (R.WH_ROUTE t)) 6 3 < fld (whView d old (R.WH_ROUTE s)) 6 3 ∨ (fld (whView d old (R.WH_ROUTE t)) 6 3 = fld (whView d old (R.WH_ROUTE s)) 6 3 ∧ s
      < t))) ∧
    (∃ (d : Dev) (m x : Nat) (old : Bool), x < 32 ∧ d.lets (readOf m (R.WH_CLAIM x)) ∧ (d.wh.saved.getLsbD (x / 8) = true ∨ ∀ t < 1024, whEligible
      (whView d old) (x / 2) (x % 2) t = false)) ∧
    (∃ (d : Dev) (m s : Nat) (v : Word), s < 1024 ∧ d.lets (writeOf m (R.WH_ROUTE s) v)) ∧
    (∃ (d : Dev) (m x : Nat) (v : Word), x < 32 ∧ d.lets (writeOf m (R.WH_THRESH x) v)) ∧
    (∃ (d : Dev) (m i : Nat) (v : Word), i < 16 ∧ d.lets (writeOf m (R.WH_XCFG i) v)) ∧
    (∃ (d : Dev) (m c : Nat) (v : Word), c < 16 ∧ d.lets (writeOf m (R.WH_MTIMECMP_LO c) v)) ∧
    (∃ (d : Dev) (m c : Nat) (v lo : Word), c < 16 ∧ d.lets (writeOf m (R.WH_MTIMECMP_HI c) v) ∧ tabGet d.hw.mregs (cmpHold c * 128) = some lo) ∧
    (∃ (d : Dev) (c : Nat), c < 16 ∧ mtimecmp d.hw c ≤ d.hw.time.toNat) ∧
    (∃ (d : Dev) (m c : Nat) (v : Word), c < 16 ∧ d.lets (writeOf m (R.WH_MSIP c) v)) ∧
    (∃ (d : Dev) (k : Nat), k < 4 ∧ d.wh.saved.getLsbD k = true ∧ clusterHasWork d k = true ∧ ((domGet d.pwr (73 + k)).st = .off ∨ (domGet d.pwr (73 +
      k)).st = .ret)) :=
  ⟨⟨upDev, 15, true, by decide +kernel⟩,
   ⟨upDev, false, by decide +kernel⟩,
   ⟨{ upDev with pins.filt := 0x1#16, holdup.flushStep := 2 }, by decide +kernel⟩,
   ⟨upDev, 0, 31, 0#32, by decide +kernel⟩,
   ⟨upDev, 0, 31, 0#32, by decide +kernel⟩,
   ⟨upDev, 0, 31, 0, 0#32, by decide +kernel⟩,
   ⟨{ upDev with hw.regs := upRegs [(R.WH_PEND 31, 0x80000000#32), (R.WH_MASK 31, 0#32), (R.WH_ROUTE 1023, 0x6F#32)], pins.sris := false }, 0, 31,
     1023, false, by decide +kernel⟩,
   ⟨upDev, 0, 31, false, by decide +kernel⟩,
   ⟨upDev, 0, 1023, 0#32, by decide +kernel⟩,
   ⟨upDev, 0, 31, 0#32, by decide +kernel⟩,
   ⟨upDev, 0, 15, 0#32, by decide +kernel⟩,
   ⟨upDev, 0, 15, 0#32, by decide +kernel⟩,
   ⟨{ upDev with hw.mregs := [(cmpHold 15 * 128, 9#32)] }, 0, 15, 0#32, _, by decide +kernel, by decide +kernel, rfl⟩,
   ⟨{ upDev with hw.time := 0xFFFFFFFFFFFFFFFF#64 }, 15, by decide +kernel⟩,
   ⟨upDev, 0, 15, 0#32, by decide +kernel⟩,
   ⟨{ upDev with wh.saved := 8#4, wh.mtip := 0x1000#16, pwr.doms := upDoms [(76, { Dom.init with st := .ret })] }, 3, by decide +kernel⟩⟩

/-- Devices and operands that meet the hypotheses of DomainCommands, clause by clause. -/
theorem witness_DomainCommands :
    (∃ (d : Dev) (n : Nat), n ≠ 0 ∧ domPresent d.fuse n = true ∧ (domGet d.pwr n).st = .on ∧ domIdle d n = true ∧ d.holdup.flushStep = 0 ∧ ((domMode
      d.hw n = 0 ∧ fld (rd d.hw (R.PWR_RETT n)) 0 20 ≠ 0) ∨ 2 ≤ domMode d.hw n)) ∧
    (∃ (d : Dev) (n : Nat), n ≠ 0 ∧ domPresent d.fuse n = true ∧ (domGet d.pwr n).st = .ret ∧ (domMode d.hw n = 3 ∨ (domMode d.hw n = 0 ∧ fld (rd d.hw
      (R.PWR_OFFT n)) 0 20 ≠ 0))) ∧
    (∃ (d : Dev) (n : Nat), domPresent d.fuse n = true ∧ (domGet d.pwr n).st = .draining ∧ (domGet d.pwr n).flushOff = false) ∧
    (∃ (d : Dev) (n : Nat), domPresent d.fuse n = true ∧ (domGet d.pwr n).st = .draining ∧ (domGet d.pwr n).flushOff = false ∧ (domGet d.pwr n).wake =
      none ∧ domMode (domSave n d).hw n ≠ 3) ∧
    (∃ (d : Dev) (n : Nat), n ≠ 0 ∧ domPresent d.fuse n = true ∧ (domGet d.pwr n).st = .draining ∧ (domGet d.pwr n).flushOff = true) ∧
    (∃ (d : Dev) (n src : Nat), n ≠ 0 ∧ domPresent d.fuse n = true ∧ (domGet d.pwr n).st = .draining ∧ (domGet d.pwr n).flushOff = false ∧ (domGet
      d.pwr n).wake = some src) ∧
    (∃ (d : Dev) (m n : Nat) (v : Word), 0 < n ∧ n < 96 ∧ domPresent d.fuse n = true ∧ fld v 0 2 = 1 ∧ ((domGet d.pwr n).st = .off ∨ (domGet d.pwr
      n).st = .ret) ∧ d.lets (writeOf m (R.PWR_DCTRL n) v)) ∧
    (∃ (d : Dev) (m : Nat) (v : Word), d.lets (writeOf m (R.PWR_DCTRL 0) v)) ∧
    (∃ (d : Dev) (m n : Nat) (v : Word), n < 96 ∧ domPresent d.fuse n = false ∧ d.lets (writeOf m (R.PWR_DCTRL n) v)) ∧
    (∃ (d : Dev) (n m a size data : Nat) (write : Bool) (chk : Byte), n ≠ 0 ∧ domPresent d.fuse n = true ∧ masterOk m = true ∧ masterClocked d m =
      true ∧ storeHeld d m = false ∧ domOf d.hw a = n ∧ accessCheck d (fabReq m a size write data chk) = none ∧ regAbsent d a = false ∧ domOn d.pwr n
      = false ∧ domMode d.hw n < 2 ∧ bit (rd d.hw (R.PWR_DCTRL n)) 6 = true ∧ ((domGet d.pwr n).st = .off ∨ (domGet d.pwr n).st = .ret)) ∧
    (∃ (d : Dev) (n m a size data : Nat) (write : Bool) (chk : Byte), n ≠ 0 ∧ domPresent d.fuse n = true ∧ masterOk m = true ∧ masterClocked d m =
      true ∧ storeHeld d m = false ∧ domOf d.hw a = n ∧ accessCheck d (fabReq m a size write data chk) = none ∧ regAbsent d a = false ∧ domOn d.pwr n
      = false ∧ (2 ≤ domMode d.hw n ∨ bit (rd d.hw (R.PWR_DCTRL n)) 6 = false)) ∧
    (∃ (d : Dev) (n : Nat), domPresent d.fuse n = true ∧ (domGet d.pwr n).st = .waking) ∧
    (∃ (d : Dev) (n : Nat), domPresent d.fuse n = true ∧ (domGet d.pwr n).st = .waking) ∧
    (∃ (d : Dev) (n : Nat), n ≠ 0 ∧ domPresent d.fuse n = true ∧ (domGet d.pwr n).st = .goingOff ∧ (domGet d.pwr n).flushOff = false ∧ (domGet d.pwr
      n).wake = none ∧ holds d n ≠ 0) ∧
    (∃ (d : Dev) (n : Nat), 91 ≤ n ∧ n ≤ 94 ∧ (domGet d.pwr n).st = .goingOff ∧ (domGet d.pwr n).wake = none ∧ ((domGet d.pwr n).flushOff = true ∨
      holds d n = 0) ∧ d.pwr.seqWait = false) :=
  ⟨⟨{ upDev with hw.regs := upRegs [(R.PWR_RETT 50, 1#32)] }, 50, by decide +kernel⟩,
   ⟨{ upDev with hw.regs := upRegs [(R.PWR_OFFT 50, 1#32)], pwr.doms := upDoms [(50, { Dom.init with st := .ret })] }, 50, by decide +kernel⟩,
   ⟨{ upDev with pwr.doms := upDoms [(50, { Dom.init with st := .draining })] }, 50, by decide +kernel⟩,
   ⟨{ upDev with pwr.doms := upDoms [(50, { Dom.init with st := .draining })] }, 50, by decide +kernel⟩,
   ⟨{ upDev with pwr.doms := upDoms [(95, { Dom.init with st := .draining, flushOff := true })] }, 95, by decide +kernel⟩,
   ⟨{ upDev with pwr.doms := upDoms [(50, { Dom.init with st := .draining, wake := some 3 })] }, 50, _, by decide +kernel, by decide +kernel,
     by decide +kernel, by decide +kernel, rfl⟩,
   ⟨{ upDev with pwr.doms := upDoms [(95, { Dom.init with st := .off })] }, 0, 95, 1#32, by decide +kernel⟩,
   ⟨upDev, 0, 0#32, by decide +kernel⟩,
   ⟨{ upDev with fuse.variant := .mx }, 0, 41, 0#32, by decide +kernel⟩,
   ⟨{ upDev with pwr.doms := upDoms [(50, { Dom.init with st := .ret })] }, 50, 0, R.DET_CTRL 1, 4, 0, true, 0#8, by decide +kernel⟩,
   ⟨{ upDev with hw.regs := upRegs [(R.PWR_DCTRL 50, 2#32)], pwr.doms := upDoms [(50, { Dom.init with st := .ret })] }, 50, 0, R.DET_CTRL 1, 4, 0,
     false, 0#8, by decide +kernel⟩,
   ⟨{ upDev with pwr.doms := upDoms [(50, { Dom.init with st := .waking })] }, 50, by decide +kernel⟩,
   ⟨{ upDev with pwr.doms := upDoms [(50, { Dom.init with st := .waking, fromOff := false })] }, 50, by decide +kernel⟩,
   ⟨{ upDev with hw.regs := upRegs [(R.PWR_DCTRL 50, 0x80#32)], pwr.doms := upDoms [(50, { Dom.init with st := .goingOff })] }, 50, by decide +kernel⟩,
   ⟨{ upDev with pwr.doms := upDoms [(94, { Dom.init with st := .goingOff, flushOff := true })] }, 94, by decide +kernel⟩⟩

/-- Devices and operands that meet the hypotheses of CurdCommands, clause by clause. -/
theorem witness_CurdCommands :
    (∃ (d : Dev) (m : Nat), d.lets (writeOf m R.CURD_CTRL 1#32) ∧ bit (rd d.hw R.CURD_CTRL) 0 = false ∧ d.curd.bufs = [] ∧ (∀ c < 6, curdCount d.hw c
      ≠ 0 → curdBase d.hw c % curdSize c = 0 ∧ curdInMem d.hw (curdBase d.hw c) (curdBase d.hw c + curdCount d.hw c * curdSize c) = true) ∧ (∀ c < 6,
      ∀ e < 6, c < e → curdCount d.hw c ≠ 0 → curdCount d.hw e ≠ 0 → curdBase d.hw c + curdCount d.hw c * curdSize c ≤ curdBase d.hw e ∨ curdBase d.hw
      e + curdCount d.hw e * curdSize e ≤ curdBase d.hw c) ∧ curdCount d.hw 0 + curdCount d.hw 1 + curdCount d.hw 2 + curdCount d.hw 3 + curdCount
      d.hw 4 + curdCount d.hw 5 ≤ 65536 ∧ bit (rd d.hw R.DRAMC_STAT) 23 = false) ∧
    (∃ (d : Dev) (m : Nat), d.lets (writeOf m R.CURD_CTRL 1#32) ∧ bit (rd d.hw R.CURD_CTRL) 0 = false ∧ d.curd.bufs ≠ []) ∧
    (∃ d : Dev, d.curd.free = [] ∧ d.curd.initNext ≠ [] ∧ (∀ n, 81 ≤ n → n < 95 → poolIn d.hw n = true → domOn d.pwr n = true) ∧ (∀ c < 6, ∀ i <
      curdCount d.hw c, ∀ a ∈ curdLines (curdBase d.hw c + i * curdSize c) (curdSize c), collarOk d 18 .write a 64 = true) ∧ d.curd.initNext =
      ((List.range 6).filter (fun c => decide (curdCount d.hw c ≠ 0))).map (fun c => (c, 0))) ∧
    (∃ (d : Dev) (m n c e i : Nat) (nofall : Bool) (rest : List Nat), 0 < n ∧ n ≤ 1048576 ∧ bit (rd d.hw R.CURD_CTRL) 0 = true ∧ c ≤ e ∧ e < 6 ∧ n ≤
      curdSize c ∧ (∀ k < c, curdSize k < n) ∧ (nofall = true → e = c) ∧ (∀ k, c ≤ k → k < e → tabGetD d.curd.free k [] = []) ∧ tabGetD d.curd.free e
      [] = i :: rest ∧ masterOk m = true) ∧
    (∃ (d : Dev) (m n c e i : Nat) (nofall : Bool) (rest : List Nat), 0 < n ∧ n ≤ 1048576 ∧ bit (rd d.hw R.CURD_CTRL) 0 = true ∧ c ≤ e ∧ e < 6 ∧ n ≤
      curdSize c ∧ (∀ k < c, curdSize k < n) ∧ (nofall = true → e = c) ∧ (∀ k, c ≤ k → k < e → tabGetD d.curd.free k [] = []) ∧ tabGetD d.curd.free e
      [] = i :: rest ∧ d.lets (writeOf m R.CURD_CMD (grantWord n nofall)) ∧ (itemGet d.hw 7 m).flushed = false) ∧
    (∃ (d : Dev) (m : Nat) (n : Nat) (c : Nat), masterOk m = true ∧ 0 < n ∧ n ≤ 1048576 ∧ c < 6 ∧ n ≤ curdSize c ∧ (∀ k < c, curdSize k < n) ∧ (∀ k, c
      ≤ k → k < 6 → tabGetD d.curd.free k [] = [])) ∧
    (∃ (d : Dev) (m g c i p : Nat) (b x : Buf), curdFind d.hw p = some c ∧ p = curdBase d.hw c + i * curdSize c ∧ tabGet d.curd.bufs (c * 65536 + i) =
      some b ∧ b.st = .held ∧ b.final = some m ∧ b.holds ≠ 16 ∧ g < 128 ∧ masterReserved g = false ∧ x = { b with
      holds := b.holds + 1, final := some g } ∧ masterOk m = true) ∧
    (∃ (d : Dev) (m g c i p : Nat) (b x : Buf), curdFind d.hw p = some c ∧ p = curdBase d.hw c + i * curdSize c ∧ tabGet d.curd.bufs (c * 65536 + i) =
      some b ∧ b.st = .held ∧ b.final = some m ∧ b.holds ≠ 16 ∧ g < 128 ∧ masterReserved g = false ∧ x = { b with
      holds := b.holds + 1, final := some g } ∧ d.lets (writeOf m R.CURD_CMD (curdWord 2 g)) ∧ (itemGet d.hw 7 m).flushed = false ∧ itemHas (itemGet
      d.hw 7 m) 0x14 = true ∧ itemHas (itemGet d.hw 7 m) 0x18 = true ∧ (itemArg (itemGet d.hw 7 m) 0x14).toNat + 0x100000000 * fld (itemArg (itemGet
      d.hw 7 m) 0x18) 0 16 = p) ∧
    (∃ (d : Dev) (m : Nat) (c : Nat) (i : Nat) (p : Nat) (b : Buf) (x : Buf), curdFind d.hw p = some c ∧ p = curdBase d.hw c + i * curdSize c ∧ tabGet
      d.curd.bufs (c * 65536 + i) = some b ∧ ((b.st = .held ∧ b.final ≠ some m ∧ 2 ≤ b.holds ∧ x = { b with holds := b.holds - 1 }) ∨ (b.st = .pending
      ∧ b.holds ≠ 1 ∧ x = { b with holds := b.holds - 1 }) ∨ (b.st = .pending ∧ b.holds = 1 ∧ x = { st := .releasing, holds := 0, final := none })) ∧
      masterOk m = true) ∧
    (∃ (d : Dev) (m : Nat) (c : Nat) (i : Nat) (p : Nat) (b : Buf) (x : Buf), curdFind d.hw p = some c ∧ p = curdBase d.hw c + i * curdSize c ∧ tabGet
      d.curd.bufs (c * 65536 + i) = some b ∧ ((b.st = .held ∧ b.final ≠ some m ∧ 2 ≤ b.holds ∧ x = { b with holds := b.holds - 1 }) ∨ (b.st = .pending
      ∧ b.holds ≠ 1 ∧ x = { b with holds := b.holds - 1 }) ∨ (b.st = .pending ∧ b.holds = 1 ∧ x = { st := .releasing, holds := 0, final := none })) ∧
      d.lets (writeOf m R.CURD_CMD (curdWord 3 0)) ∧ (itemGet d.hw 7 m).flushed = false ∧ itemHas (itemGet d.hw 7 m) 0x14 = true ∧ itemHas (itemGet
      d.hw 7 m) 0x18 = true ∧ (itemArg (itemGet d.hw 7 m) 0x14).toNat + 0x100000000 * fld (itemArg (itemGet d.hw 7 m) 0x18) 0 16 = p) ∧
    (∃ (d : Dev) (m : Nat) (c : Nat) (i : Nat) (p : Nat) (b : Buf) (x : Buf), curdFind d.hw p = some c ∧ p = curdBase d.hw c + i * curdSize c ∧ tabGet
      d.curd.bufs (c * 65536 + i) = some b ∧ b.st = .held ∧ b.final = some m ∧ x = (if b.holds = 1 then {
      st := .releasing, holds := 0, final := none } else { st := .pending, holds := b.holds - 1, final := none }) ∧ masterOk m = true) ∧
    (∃ (d : Dev) (m : Nat) (c : Nat) (i : Nat) (p : Nat) (b : Buf) (x : Buf), curdFind d.hw p = some c ∧ p = curdBase d.hw c + i * curdSize c ∧ tabGet
      d.curd.bufs (c * 65536 + i) = some b ∧ b.st = .held ∧ b.final = some m ∧ x = (if b.holds = 1 then {
      st := .releasing, holds := 0, final := none } else { st := .pending, holds := b.holds - 1, final := none }) ∧ d.lets (writeOf m R.CURD_CMD
      (curdWord 4 0)) ∧ (itemGet d.hw 7 m).flushed = false ∧ itemHas (itemGet d.hw 7 m) 0x14 = true ∧ itemHas (itemGet d.hw 7 m) 0x18 = true ∧
      (itemArg (itemGet d.hw 7 m) 0x14).toNat + 0x100000000 * fld (itemArg (itemGet d.hw 7 m) 0x18) 0 16 = p) ∧
    (∃ (d : Dev) (c : Nat) (i : Nat) (p : Nat) (b : Buf), curdFind d.hw p = some c ∧ p = curdBase d.hw c + i * curdSize c ∧ tabGet d.curd.bufs (c *
      65536 + i) = some b ∧ b.st = .releasing ∧ (curdRelease d.hw c ≠ 2 → (∀ n ∈ domsIn d.hw p (p + curdSize c), domOn d.pwr n = true) ∧ ∀ a ∈
      curdLines p (curdSize c), collarOk d 18 .write a 64 = true)) ∧
    (∃ (d : Dev) (m : Nat) (w : Word) (rest : List (Nat × Word)), d.curd.waiting = (m, w) :: rest) ∧
    (∃ (d : Dev) (m : Nat) (v : Word), d.lets (writeOf m R.CURD_FLUSH v) ∧ (itemGet d.hw 7 (fld v 0 7)).args ≠ []) :=
  ⟨⟨{ upDev with
     hw.regs := upRegs [(R.CURD_CBASE_LO 0, 0x10000000#32), (R.CURD_CCOUNT 0, 65535#32), (R.CURD_CBASE_LO 1, 0x12000000#32), (R.CURD_CCOUNT 1, 1#32)]
       }, 0, by decide +kernel, by decide +kernel, by decide +kernel, by decide +kernel,
     by intro c hc e he h; interval_cases c <;> interval_cases e <;> decide +kernel, by decide +kernel, by decide +kernel⟩,
   ⟨{ upDev with curd.bufs := [(65534, { st := .held, holds := 1, final := some 0 })] }, 0, by decide +kernel⟩,
   ⟨{ upDev with hw.regs := upRegs [(R.CURD_CBASE_LO 2, 0x13000000#32), (R.CURD_CCOUNT 2, 2#32)], curd.initNext := [(2, 0)] }, by decide +kernel⟩,
   ⟨{ upDev with
     hw.regs := upRegs [(R.CURD_CTRL, 1#32), (R.CURD_CBASE_LO 0, 0x10000000#32), (R.CURD_CCOUNT 0, 65535#32), (R.CURD_CBASE_LO 1, 0x12000000#32),
       (R.CURD_CCOUNT 1, 1#32)], curd.free := [(1, [5])] }, 0, 512, 0, 1, _, false, _, by decide +kernel, by decide +kernel, by decide +kernel,
     by decide +kernel, by decide +kernel, by decide +kernel, by decide +kernel, by decide +kernel, by decide +kernel, rfl, by decide +kernel⟩,
   ⟨{ upDev with
     hw.regs := upRegs [(R.CURD_CTRL, 1#32), (R.CURD_CBASE_LO 0, 0x10000000#32), (R.CURD_CCOUNT 0, 65535#32), (R.CURD_CBASE_LO 1, 0x12000000#32),
       (R.CURD_CCOUNT 1, 1#32)], curd.free := [(1, [5])] }, 0, 512, 0, 1, _, false, _, by decide +kernel, by decide +kernel, by decide +kernel,
     by decide +kernel, by decide +kernel, by decide +kernel, by decide +kernel, by decide +kernel, by decide +kernel, rfl, by decide +kernel⟩,
   ⟨{ upDev with
     hw.regs := upRegs [(R.CURD_CTRL, 1#32), (R.CURD_CBASE_LO 0, 0x10000000#32), (R.CURD_CCOUNT 0, 65535#32), (R.CURD_CBASE_LO 1, 0x12000000#32),
       (R.CURD_CCOUNT 1, 1#32)] }, 0, 1048576, 5, by decide +kernel⟩,
   ⟨{ upDev with
     hw.regs := upRegs [(R.CURD_CTRL, 1#32), (R.CURD_CBASE_LO 0, 0x10000000#32), (R.CURD_CCOUNT 0, 65535#32), (R.CURD_CBASE_LO 1, 0x12000000#32),
       (R.CURD_CCOUNT 1, 1#32)], curd.bufs := [(65534, { st := .held, holds := 15, final := some 0 })], hw.items := [(7 * 128,
     { Item.none with args := [(0x14, 0x11FFFC00#32), (0x18, 0#32)] })] }, 0, 103, 0, 65534, 0x11FFFC00, _, _, by decide +kernel, by decide +kernel,
     rfl, by decide +kernel, by decide +kernel, by decide +kernel, by decide +kernel, by decide +kernel, rfl, by decide +kernel⟩,
   ⟨{ upDev with
     hw.regs := upRegs [(R.CURD_CTRL, 1#32), (R.CURD_CBASE_LO 0, 0x10000000#32), (R.CURD_CCOUNT 0, 65535#32), (R.CURD_CBASE_LO 1, 0x12000000#32),
       (R.CURD_CCOUNT 1, 1#32)], curd.bufs := [(65534, { st := .held, holds := 15, final := some 0 })], hw.items := [(7 * 128,
     { Item.none with args := [(0x14, 0x11FFFC00#32), (0x18, 0#32)] })] }, 0, 103, 0, 65534, 0x11FFFC00, _, _, by decide +kernel, by decide +kernel,
     rfl, by decide +kernel, by decide +kernel, by decide +kernel, by decide +kernel, by decide +kernel, rfl, by decide +kernel⟩,
   ⟨{ upDev with
     hw.regs := upRegs [(R.CURD_CTRL, 1#32), (R.CURD_CBASE_LO 0, 0x10000000#32), (R.CURD_CCOUNT 0, 65535#32), (R.CURD_CBASE_LO 1, 0x12000000#32),
       (R.CURD_CCOUNT 1, 1#32)], curd.bufs := [(65534, { st := .held, holds := 2, final := some 1 })], hw.items := [(7 * 128,
     { Item.none with args := [(0x14, 0x11FFFC00#32), (0x18, 0#32)] })] }, 0, 0, 65534, 0x11FFFC00, _, { st := .held, holds := 1, final := some 1 },
     by decide +kernel, by decide +kernel, rfl, by decide +kernel⟩,
   ⟨{ upDev with
     hw.regs := upRegs [(R.CURD_CTRL, 1#32), (R.CURD_CBASE_LO 0, 0x10000000#32), (R.CURD_CCOUNT 0, 65535#32), (R.CURD_CBASE_LO 1, 0x12000000#32),
       (R.CURD_CCOUNT 1, 1#32)], curd.bufs := [(65534, { st := .held, holds := 2, final := some 1 })], hw.items := [(7 * 128,
     { Item.none with args := [(0x14, 0x11FFFC00#32), (0x18, 0#32)] })] }, 0, 0, 65534, 0x11FFFC00, _, { st := .held, holds := 1, final := some 1 },
     by decide +kernel, by decide +kernel, rfl, by decide +kernel⟩,
   ⟨{ upDev with
     hw.regs := upRegs [(R.CURD_CTRL, 1#32), (R.CURD_CBASE_LO 0, 0x10000000#32), (R.CURD_CCOUNT 0, 65535#32), (R.CURD_CBASE_LO 1, 0x12000000#32),
       (R.CURD_CCOUNT 1, 1#32)], curd.bufs := [(65534, { st := .held, holds := 1, final := some 0 })], hw.items := [(7 * 128,
     { Item.none with args := [(0x14, 0x11FFFC00#32), (0x18, 0#32)] })] }, 0, 0, 65534, 0x11FFFC00, _, _, by decide +kernel, by decide +kernel, rfl,
     by decide +kernel, by decide +kernel, rfl, by decide +kernel⟩,
   ⟨{ upDev with
     hw.regs := upRegs [(R.CURD_CTRL, 1#32), (R.CURD_CBASE_LO 0, 0x10000000#32), (R.CURD_CCOUNT 0, 65535#32), (R.CURD_CBASE_LO 1, 0x12000000#32),
       (R.CURD_CCOUNT 1, 1#32)], curd.bufs := [(65534, { st := .held, holds := 1, final := some 0 })], hw.items := [(7 * 128,
     { Item.none with args := [(0x14, 0x11FFFC00#32), (0x18, 0#32)] })] }, 0, 0, 65534, 0x11FFFC00, _, _, by decide +kernel, by decide +kernel, rfl,
     by decide +kernel, by decide +kernel, rfl, by decide +kernel⟩,
   ⟨{ upDev with
     hw.regs := upRegs [(R.CURD_CTRL, 1#32), (R.CURD_CBASE_LO 0, 0x10000000#32), (R.CURD_CCOUNT 0, 65535#32), (R.CURD_CBASE_LO 1, 0x12000000#32),
       (R.CURD_CCOUNT 1, 1#32)], curd.bufs := [(65534, { st := .releasing, holds := 0, final := none })] }, 0, 65534, 0x11FFFC00, _,
     by decide +kernel, by decide +kernel, rfl, by decide +kernel⟩,
   ⟨{ upDev with curd.waiting := [(0, 0#32)] }, 0, _, _, rfl⟩,
   ⟨{ upDev with hw.items := [(7 * 128, { Item.none with args := [(0x14, 0x11FFFC00#32), (0x18, 0#32)] })] }, 0, 0#32, by decide +kernel⟩⟩

/-- Devices and operands that meet the hypotheses of MemoryCommands, clause by clause. -/
theorem witness_MemoryCommands :
    (∃ (d : Dev) (m : Nat) (v : Word), d.lets (writeOf m R.DRAMC_CTRL (v ||| 1#32)) ∧ bit v 1 = false ∧ bit (rd d.hw R.DRAMC_CTRL) 0 = false) ∧
    (∃ (d : Dev) (m : Nat) (v : Word), d.lets (writeOf m R.DRAMC_CTRL (v ||| 2#32)) ∧ bit v 0 = true ∧ bit (rd d.hw R.DRAMC_CTRL) 0 = true ∧ bit (rd
      d.hw R.DRAMC_STAT) 23 = false) ∧
    (∃ d : Dev, bit (rd d.hw R.DRAMC_STAT) 23 = true) ∧
    (∃ (k : Nat), k < 4) ∧
    (∃ (d : Dev) (m : Nat), d.lets (writeOf m R.MEMCHK_SCRUB_CTRL 1#32) ∧ bit (rd d.hw R.MEMCHK_SCRUB_STAT) 31 = false ∧ scrubBase d.hw % 64 = 0 ∧ 0 <
      (rd d.hw R.MEMCHK_SCRUB_LINES).toNat ∧ inOneMemory d.hw (scrubBase d.hw) (scrubBase d.hw + 64 * (rd d.hw R.MEMCHK_SCRUB_LINES).toNat) = true) ∧
    (∃ (d : Dev) (m : Nat), d.lets (writeOf m R.MEMCHK_SCRUB_CTRL 1#32) ∧ bit (rd d.hw R.MEMCHK_SCRUB_STAT) 31 = false ∧ scrubBase d.hw % 64 ≠ 0) ∧
    (∃ (d : Dev) (m : Nat), d.lets (writeOf m R.MEMCHK_SCRUB_CTRL 1#32) ∧ bit (rd d.hw R.MEMCHK_SCRUB_STAT) 31 = false ∧ scrubBase d.hw % 64 = 0 ∧ (rd
      d.hw R.MEMCHK_SCRUB_LINES).toNat = 0 ∧ inOneMemory d.hw (scrubBase d.hw) (scrubBase d.hw + 1) = true) ∧
    (∃ d : Dev, bit (rd d.hw R.MEMCHK_SCRUB_STAT) 31 = true ∧ (∀ n ∈ domsIn d.hw (scrubBase d.hw) (scrubBase d.hw + 64 * (rd d.hw
      R.MEMCHK_SCRUB_LINES).toNat), domOn d.pwr n = true)) ∧
    (∃ (d : Dev) (m : Nat), d.lets (writeOf m R.MEMCHK_SCRUB_CTRL 2#32) ∧ bit (rd d.hw R.MEMCHK_SCRUB_STAT) 31 = true) ∧
    (∃ (d : Dev) (m : Nat), d.lets (writeOf m R.MEMCHK_TCTRL 1#32) ∧ bit (rd d.hw R.MEMCHK_CTRL) 0 = true ∧ testAddr d.hw % 8 = 0 ∧ inOneMemory d.hw
      (testAddr d.hw) (testAddr d.hw + 8) = true ∧ (domGet d.pwr (domOf d.hw (testAddr d.hw))).st ≠ .off) ∧
    (∃ (d : Dev) (m : Nat) (w : DWord) (c : Byte), d.lets (writeOf m R.MEMCHK_TCTRL 2#32) ∧ bit (rd d.hw R.MEMCHK_CTRL) 0 = true ∧ testAddr d.hw % 8 =
      0 ∧ inOneMemory d.hw (testAddr d.hw) (testAddr d.hw + 8) = true ∧ (domGet d.pwr (domOf d.hw (testAddr d.hw))).st ≠ .off ∧ memRaw d.hw.mem
      (testAddr d.hw) = some (w, c)) ∧
    (∃ (h : Hw) (a : Nat) (w : DWord) (c : Byte) (r : (Nat × Nat × Option (Nat × Bool)) × Hw), memRaw h.mem a = some (w, c) ∧ scrubWords 1 a 0 0 none
      h = r) :=
  ⟨⟨upDev, 0, 0#32, by decide +kernel⟩,
   ⟨{ upDev with hw.regs := upRegs [(R.DRAMC_CTRL, 1#32)] }, 0, 1#32, by decide +kernel⟩,
   ⟨{ upDev with hw.regs := upRegs [(R.DRAMC_STAT, 0x800000#32)] }, by decide +kernel⟩,
   ⟨0, by decide +kernel⟩,
   ⟨{ upDev with hw.regs := upRegs [(R.MEMCHK_SCRUB_BASE_LO, 0x20000000#32), (R.MEMCHK_SCRUB_LINES, 0x20000#32)] }, 0, by decide +kernel⟩,
   ⟨{ upDev with hw.regs := upRegs [(R.MEMCHK_SCRUB_BASE_LO, 1#32)] }, 0, by decide +kernel⟩,
   ⟨{ upDev with hw.regs := upRegs [(R.MEMCHK_SCRUB_BASE_LO, 0x207FFFC0#32)] }, 0, by decide +kernel⟩,
   ⟨{ upDev with hw.regs := upRegs [(R.MEMCHK_SCRUB_STAT, 0x80000000#32)] }, by decide +kernel⟩,
   ⟨{ upDev with hw.regs := upRegs [(R.MEMCHK_SCRUB_STAT, 0x80000000#32)] }, 0, by decide +kernel⟩,
   ⟨{ upDev with hw.regs := upRegs [(R.MEMCHK_CTRL, 1#32), (R.MEMCHK_TADDR_LO, 0x207FFFF8#32)], hw.mem := memOne 0x207FFFF8 1#64 1#8 }, 0,
     by decide +kernel⟩,
   ⟨{ upDev with hw.regs := upRegs [(R.MEMCHK_CTRL, 1#32), (R.MEMCHK_TADDR_LO, 0x207FFFF8#32)], hw.mem := memOne 0x207FFFF8 1#64 1#8 }, 0, _, _,
     by decide +kernel, by decide +kernel, by decide +kernel, by decide +kernel, by decide +kernel, rfl⟩,
   ⟨{ upDev.hw with mem := memOne 0x20000000 5#64 7#8 }, 0x20000000, _, _, _, rfl, rfl⟩⟩

/-- Devices and operands that meet the hypotheses of HoldupCommands, clause by clause. -/
theorem witness_HoldupCommands :
    (∃ (d : Dev) (m : Nat) (v : Word), d.lets (writeOf m R.HOLDUP_CTRL (v ||| 1#32)) ∧ bit v 1 = false ∧ bit v 2 = false ∧ bit (rd d.hw R.HOLDUP_CTRL)
      0 = false ∧ vTop d ≠ 0 ∧ fld (rd d.hw R.HOLDUP_FLUSHT) 0 16 ≠ 0 ∧ fld (rd d.hw R.HOLDUP_FLUSHP) 24 8 ≠ 0 ∧ fld (rd d.hw R.HOLDUP_FLUSHP) 16 8 ≠
      0 ∧ fld (rd d.hw R.HOLDUP_MEAS) 0 16 ≠ 0) ∧
    (∃ (d : Dev) (m : Nat) (v : Word), d.lets (writeOf m R.HOLDUP_CTRL (v ||| 1#32)) ∧ bit v 1 = false ∧ bit v 2 = false ∧ bit (rd d.hw R.HOLDUP_CTRL)
      0 = false ∧ (vTop d = 0 ∨ fld (rd d.hw R.HOLDUP_FLUSHT) 0 16 = 0 ∨ fld (rd d.hw R.HOLDUP_FLUSHP) 24 8 = 0 ∨ fld (rd d.hw R.HOLDUP_FLUSHP) 16 8 =
      0 ∨ fld (rd d.hw R.HOLDUP_MEAS) 0 16 = 0)) ∧
    (∃ d : Dev, hoEn d = true ∧ d.holdup.charging = true ∧ d.holdup.measStep ≠ 2) ∧
    (∃ (d : Dev) (v : Nat), hoEn d = true ∧ d.holdup.charging = false ∧ d.holdup.measStep = 0 ∧ 100 * v < 99 * vTop d) ∧
    (∃ (d : Dev) (ma : Nat), hoEn d = true ∧ d.holdup.charging = true ∧ d.holdup.vbank < vTop d ∧ 10 * ma < 9 * fld (rd d.hw R.HOLDUP_CHG) 16 16) ∧
    (∃ (d : Dev), bit (rd d.hw R.HOLDUP_STAT) 31 = true) ∧
    (∃ (d : Dev) (m : Nat), masterOk m = true ∧ hoEn d = true ∧ bit (rd d.hw R.HOLDUP_STAT) 31 = false ∧ d.holdup.measStep = 0 ∧ d.holdup.reachedTop =
      true ∧ d.holdup.capNf = none) ∧
    (∃ (d : Dev) (m : Nat) (v : Word), d.lets (writeOf m R.HOLDUP_CTRL (v ||| 2#32)) ∧ bit v 0 = true ∧ bit v 2 = false ∧ hoEn d = true ∧ bit (rd d.hw
      R.HOLDUP_STAT) 31 = false ∧ d.holdup.measStep = 0) ∧
    (∃ (d : Dev) (v : Nat), d.holdup.measStep = 1 ∧ vTop d ≤ 100 * (d.holdup.measStart - v)) ∧
    (∃ (d : Dev) (v : Nat), d.holdup.measStep = 1 ∧ 100 * (d.holdup.measStart - v) < vTop d) ∧
    (∃ (d : Dev) (t : Nat), d.holdup.measStep = 2 ∧ t ≤ 10000000000) ∧
    (∃ d : Dev, d.holdup.measStep = 2) ∧
    (∃ d : Dev, hoEn d = true) ∧
    (∃ d : Dev, hoEn d = false) :=
  ⟨⟨{ upDev with
     hw.regs := upRegs [(R.HOLDUP_BANK, 0x0BB80000#32), (R.HOLDUP_FLUSHT, 1#32), (R.HOLDUP_FLUSHP, 0x01010000#32), (R.HOLDUP_MEAS, 1#32)] }, 0, 0#32,
     by decide +kernel⟩,
   ⟨{ upDev with hw.regs := upRegs [(R.HOLDUP_BANK, 0#32)] }, 0, 0#32, by decide +kernel⟩,
   ⟨{ upDev with
     hw.regs := upRegs [(R.HOLDUP_CTRL, 1#32), (R.HOLDUP_BANK, 0x0BB80000#32), (R.HOLDUP_FLUSHT, 1#32), (R.HOLDUP_FLUSHP, 0x01010000#32),
       (R.HOLDUP_MEAS, 1#32)], holdup.charging := true }, by decide +kernel⟩,
   ⟨{ upDev with
     hw.regs := upRegs [(R.HOLDUP_CTRL, 1#32), (R.HOLDUP_BANK, 0x0BB80000#32), (R.HOLDUP_FLUSHT, 1#32), (R.HOLDUP_FLUSHP, 0x01010000#32),
       (R.HOLDUP_MEAS, 1#32)] }, 2969, by decide +kernel⟩,
   ⟨{ upDev with
     hw.regs := upRegs [(R.HOLDUP_CTRL, 1#32), (R.HOLDUP_BANK, 0x0BB80000#32), (R.HOLDUP_FLUSHT, 1#32), (R.HOLDUP_FLUSHP, 0x01010000#32),
       (R.HOLDUP_MEAS, 1#32), (R.HOLDUP_CHG, 0x000A0000#32)], holdup.charging := true, holdup.vbank := 2999 }, 8, by decide +kernel⟩,
   ⟨{ upDev with hw.regs := upRegs [(R.HOLDUP_STAT, 0x80000000#32)] }, by decide +kernel⟩,
   ⟨{ upDev with
     hw.regs := upRegs [(R.HOLDUP_CTRL, 1#32), (R.HOLDUP_BANK, 0x0BB80000#32), (R.HOLDUP_FLUSHT, 1#32), (R.HOLDUP_FLUSHP, 0x01010000#32),
       (R.HOLDUP_MEAS, 1#32)], holdup.reachedTop := true }, 0, by decide +kernel⟩,
   ⟨{ upDev with
     hw.regs := upRegs [(R.HOLDUP_CTRL, 1#32), (R.HOLDUP_BANK, 0x0BB80000#32), (R.HOLDUP_FLUSHT, 1#32), (R.HOLDUP_FLUSHP, 0x01010000#32),
       (R.HOLDUP_MEAS, 1#32)] }, 0, 1#32, by decide +kernel⟩,
   ⟨{ upDev with
     hw.regs := upRegs [(R.HOLDUP_CTRL, 1#32), (R.HOLDUP_BANK, 0x0BB80000#32), (R.HOLDUP_FLUSHT, 1#32), (R.HOLDUP_FLUSHP, 0x01010000#32),
       (R.HOLDUP_MEAS, 1#32)], holdup.measStep := 1, holdup.measStart := 3000 }, 2970, by decide +kernel⟩,
   ⟨{ upDev with
     hw.regs := upRegs [(R.HOLDUP_CTRL, 1#32), (R.HOLDUP_BANK, 0x0BB80000#32), (R.HOLDUP_FLUSHT, 1#32), (R.HOLDUP_FLUSHP, 0x01010000#32),
       (R.HOLDUP_MEAS, 1#32)], holdup.measStep := 1, holdup.measStart := 3000 }, 2971, by decide +kernel⟩,
   ⟨{ upDev with holdup.measStep := 2 }, 10000000000, by decide +kernel⟩,
   ⟨{ upDev with holdup.measStep := 2 }, by decide +kernel⟩,
   ⟨{ upDev with
     hw.regs := upRegs [(R.HOLDUP_CTRL, 1#32), (R.HOLDUP_BANK, 0x0BB80000#32), (R.HOLDUP_FLUSHT, 1#32), (R.HOLDUP_FLUSHP, 0x01010000#32),
       (R.HOLDUP_MEAS, 1#32)] }, by decide +kernel⟩,
   ⟨upDev, by decide +kernel⟩⟩

/-- Devices and operands that meet the hypotheses of FlushCommands, clause by clause. -/
theorem witness_FlushCommands :
    (∃ d : Dev, flushDue d = true ∧ d.holdup.flushed = false) ∧
    (∃ d : Dev, flushDue d = true ∧ d.holdup.flushed = true) ∧
    (∃ d : Dev, d.holdup.flushStep = 2) ∧
    (∃ (d : Dev) (m : Nat) (v : Word), d.lets (writeOf m R.HOLDUP_CTRL (v ||| 4#32)) ∧ bit v 0 = true ∧ bit v 1 = false ∧ hoEn d = true ∧
      (d.holdup.flushStep = 2 ∨ d.holdup.flushStep = 4)) ∧
    (∃ d : Dev, d.holdup.flushStep = 4 ∧ hoArmed d = true) ∧
    (∃ d : Dev, (d.holdup.flushStep = 2 ∨ d.holdup.flushStep = 4) ∧ pfailActive d = false ∧ d.holdup.coldAfter = true) ∧
    (∃ d : Dev, d.holdup.flushStep = 6 ∧ d.holdup.coldAfter = true ∧ d.holdup.inHold = false ∧ pfailActive d = false) ∧
    (∃ d : Dev, d.holdup.inHold = true ∧ (d.holdup.shdnJ = true → d.therm.jLevel ≠ 3) ∧ shdnActive d = false ∧ pfailActive d = false) :=
  ⟨⟨{ upDev with holdup.resetAfter := true }, by decide +kernel⟩,
   ⟨{ upDev with holdup.resetAfter := true, holdup.flushed := true }, by decide +kernel⟩,
   ⟨{ upDev with holdup.flushStep := 2 }, by decide +kernel⟩,
   ⟨{ upDev with
     hw.regs := upRegs [(R.HOLDUP_CTRL, 1#32), (R.HOLDUP_BANK, 0x0BB80000#32), (R.HOLDUP_FLUSHT, 1#32), (R.HOLDUP_FLUSHP, 0x01010000#32),
       (R.HOLDUP_MEAS, 1#32)], holdup.flushStep := 4 }, 0, 1#32, by decide +kernel⟩,
   ⟨{ upDev with hw.regs := upRegs [(R.HOLDUP_CTRL, 9#32)], holdup.flushStep := 4 }, by decide +kernel⟩,
   ⟨{ upDev with holdup.flushStep := 4, holdup.coldAfter := true }, by decide +kernel⟩,
   ⟨{ upDev with holdup.flushStep := 6, holdup.coldAfter := true }, by decide +kernel⟩,
   ⟨{ upDev with holdup.inHold := true }, by decide +kernel⟩⟩

/-- Devices and operands that meet the hypotheses of ThermalCommands, clause by clause. -/
theorem witness_ThermalCommands :
    (∃ (d : Dev) (m : Nat) (v : Word), d.lets (writeOf m R.THERM_CTRL (v ||| 1#32)) ∧ bit (rd d.hw R.THERM_CTRL) 0 = false) ∧
    (∃ (d : Dev) (m : Nat) (v : Word), d.lets (writeOf m R.THERM_CTRL (v ||| 1#32)) ∧ bit (rd d.hw R.THERM_CTRL) 0 = true) ∧
    (∃ (ts : List Int) (xs : List Int) (x : Int), ts.take 12 = x :: xs) ∧
    (∃ (d y z : Dev) (vals : List Int), y = ((List.range 64).zip vals).foldl (fun x q => roundRead q.1 q.2 x) d ∧ z = (if thEn y && triple y then
      (List.range (chCount d.fuse)).foldl (fun x c => chanLevel c x) y else y)) ∧
    (∃ (d : Dev), (thEn d && triple d) = false) ∧
    (∃ (d : Dev), (thEn d && triple d) = true) ∧
    (∃ (thr : Int) (lim : Int), thr < lim) :=
  ⟨⟨upDev, 0, 0#32, by decide +kernel⟩,
   ⟨{ upDev with hw.regs := upRegs [(R.THERM_CTRL, 1#32)] }, 0, 0#32, by decide +kernel⟩,
   ⟨List.replicate 13 1450, _, _, rfl⟩,
   ⟨upDev, _, _, [], rfl, rfl⟩,
   ⟨upDev, by decide +kernel⟩,
   ⟨{ upDev with hw.regs := upRegs [(R.THERM_CTRL, 3#32)] }, by decide +kernel⟩,
   ⟨1, 2, by decide +kernel⟩⟩

/-- Devices and operands that meet the hypotheses of LinkCommands, clause by clause. -/
theorem witness_LinkCommands :
    (∃ (d : Dev) (p : Nat), portPresent d p = true ∧ (portGet d p).perst = false) ∧
    (∃ (d : Dev) (p : Nat), portPresent d p = true ∧ (portGet d p).perst = true ∧ d.pins.sysResetHigh = true) ∧
    (∃ (d : Dev) (p : Nat) (rate : Nat) (width : Nat), portPresent d p = true ∧ (portGet d p).perst = false ∧ (∀ n ∈ portDoms d p, domOn d.pwr n =
      true) ∧ ((portGet d p).link = .detect ∨ (portGet d p).link = .polling ∨ (portGet d p).link = .recovery) ∧ 1 ≤ rate ∧ rate ≤ 6 ∧ width ∈ [1, 2,
      4, 8] ∧ width ≤ portLanes d) ∧
    (∃ (d : Dev) (p : Nat) (fn : Nat), ctrlOk d p fn = true ∧ linkUp (portGet d p).link = true ∧ (bit (rd d.hw R.HOSTIF_BOOT) 0 || (portGet d
      p).answering) = false) ∧
    (∃ (d : Dev) (p : Nat) (fn : Nat), ctrlOk d p fn = true ∧ linkUp (portGet d p).link = true ∧ (bit (rd d.hw R.HOSTIF_BOOT) 0 || (portGet d
      p).answering) = true) ∧
    (∃ (d : Dev) (p : Nat), portPresent d p = true ∧ (portGet d p).perst = false ∧ bit (rd d.hw R.HOSTIF_BOOT) 0 = false) ∧
    (∃ (d : Dev) (m : Nat), d.lets (writeOf m R.HOSTIF_BOOT 1#32)) ∧
    (∃ (d : Dev) (p : Nat), portPresent d p = true ∧ (portGet d p).flit = true ∧ s0Bound d p = false ∧ ((portGet d p).link = .l0 ∨ (portGet d p).link
      = .l0p) ∧ 4 ≤ (portGet d p).width) ∧
    (∃ (d : Dev) (p : Nat), portPresent d p = true ∧ s0Bound d p = true) ∧
    (∃ (d : Dev) (p w : Nat), portPresent d p = true ∧ (portGet d p).flit = true ∧ ((portGet d p).link = .l0 ∨ (portGet d p).link = .l0p) ∧ w ∈ [2, 4]
      ∧ (portGet d p).width = 2 * w ∧ (s0Bound d p = true → w = 4)) ∧
    (∃ (d : Dev) (p : Nat), portPresent d p = true ∧ linkUp (portGet d p).link = true ∧ (portGet d p).link ≠ .l12 ∧ (s0Bound d p = true → allD3 d p =
      true)) ∧
    (∃ (d : Dev) (p : Nat), portPresent d p = true ∧ (portGet d p).link = .l12) ∧
    (∃ (d : Dev) (p : Nat), portPresent d p = true ∧ linkUp (portGet d p).link = true ∧ (portGet d p).ptmEn = true) ∧
    (∃ (d : Dev) (p : Nat), portPresent d p = true ∧ (portGet d p).ptmEn = true) ∧
    (∃ (d : Dev) (p : Nat), portPresent d p = true ∧ linkUp (portGet d p).link = true) ∧
    (∃ (d : Dev) (p : Nat), portPresent d p = true) :=
  ⟨⟨upDev, 0, by decide +kernel⟩,
   ⟨{ upDev with host.ports := [(0, Port.init), (1, Port.init)] }, 0, by decide +kernel⟩,
   ⟨{ upDev with host.ports := [(0, { Port.init with perst := false, link := .polling })] }, 0, 6, 4, by decide +kernel⟩,
   ⟨{ upDev with hw.regs := upRegs [(R.HOSTIF_BOOT, 0#32)] }, 0, 0, by decide +kernel⟩,
   ⟨upDev, 0, 0, by decide +kernel⟩,
   ⟨{ upDev with hw.regs := upRegs [(R.HOSTIF_BOOT, 0#32)] }, 0, by decide +kernel⟩,
   ⟨upDev, 0, by decide +kernel⟩,
   ⟨{ upDev with host.ports := [(0, { Port.init with perst := false, link := .l0, width := 4, flit := true })] }, 0, by decide +kernel⟩,
   ⟨{ upDev with ten.fnBind := [(0, 1)], ten.kennels := [(0, Kennel.zero), (1, { Kennel.zero with cls := 0 })] }, 0, by decide +kernel⟩,
   ⟨{ upDev with host.ports := [(0, { Port.init with perst := false, link := .l0p, width := 4, flit := true })] }, 0, 2, by decide +kernel⟩,
   ⟨upDev, 0, by decide +kernel⟩,
   ⟨{ upDev with host.ports := [(0, { Port.init with perst := false, link := .l12 })] }, 0, by decide +kernel⟩,
   ⟨{ upDev with host.ports := [(0, { Port.init with perst := false, link := .l0, ptmEn := true })] }, 0, by decide +kernel⟩,
   ⟨{ upDev with host.ports := [(0, { Port.init with perst := false, link := .l0, ptmEn := true })] }, 0, by decide +kernel⟩,
   ⟨upDev, 0, by decide +kernel⟩,
   ⟨upDev, 0, by decide +kernel⟩⟩

/-- Devices and operands that meet the hypotheses of ControllerCommands, clause by clause. -/
theorem witness_ControllerCommands :
    (∃ (d : Dev) (p : Nat) (fn : Nat), ctrlOk d p fn = true ∧ (bit (rd d.hw R.HOSTIF_BOOT) 0 || (portGet d p).answering) = true ∧ linkUp (portGet d
      p).link = true ∧ (ctrlGet d p fn).en = false) ∧
    (∃ (d : Dev) (p : Nat) (fn : Nat) (en : Bool), ctrlOk d p fn = true ∧ (ctrlGet d p fn).en = en) ∧
    (∃ (d : Dev) (p fn : Nat), ctrlOk d p fn = true) ∧
    (∃ (d : Dev) (p : Nat) (fn : Nat), ctrlOk d p fn = true ∧ (bit (rd d.hw R.HOSTIF_BOOT) 0 || (portGet d p).answering) = true ∧ linkUp (portGet d
      p).link = true) ∧
    (∃ (d : Dev) (p : Nat) (fn : Nat) (sq : Nat), ctrlOk d p fn = true ∧ linkUp (portGet d p).link = true ∧ (ctrlGet d p fn).en = true ∧ (ctrlGet d p
      fn).rdy = true ∧ bit (rd d.hw R.HOSTIF_BOOT) 0 = true ∧ (ctrlGet d p fn).d3 = false ∧ (sq = 0 ∨ sq ≤ ioQueues d p fn)) ∧
    (∃ (d : Dev) (m : Nat) (v : Word), d.lets (writeOf m R.HOSTIF_ACPL v) ∧ (itemGet d.hw 12 m).flushed = false) ∧
    (∃ (d : Dev) (m : Nat) (v : Word), d.lets (writeOf m R.HOSTIF_CCTL v) ∧ bit (rd d.hw R.HOSTIF_BOOT) 0 = true ∧ ctrlPresent d (fld (rd d.hw
      R.HOSTIF_CSEL) 16 1) (fld (rd d.hw R.HOSTIF_CSEL) 0 7) = true) ∧
    (∃ (d : Dev) (m : Nat) (v : Word), d.lets (writeOf m R.HOSTIF_CCTL v) ∧ bit (rd d.hw R.HOSTIF_BOOT) 0 = false) ∧
    (∃ (d : Dev) (m : Nat) (v : Word), d.lets (writeOf m R.HOSTIF_CTRL (v ||| 2#32))) ∧
    (∃ (sq : Nat) (c : IoCmd), sq ≠ 0 ∧ c.op ≠ .flush ∧ c.op ≠ .zoneReceive) ∧
    (∃ (fn : Nat) (sq : Nat) (c : IoCmd), ((sq = 0 ∧ (fn = 0 ∨ vendorOpcode c.sqe = false)) ∨ (sq ≠ 0 ∧ (c.op = .flush ∨ c.op = .zoneReceive)))) ∧
    (∃ (fn : Nat) (c : IoCmd), fn ≠ 0 ∧ vendorOpcode c.sqe = true) ∧
    (∃ d : Dev, bit (rd d.hw R.HOSTIF_CTRL) 0 = true ∧ d.host.stopped = false) ∧
    (∃ d : Dev, (bit (rd d.hw R.HOSTIF_CTRL) 0 = false ∨ d.host.stopped = true)) ∧
    (∃ (d : Dev) (p fn sq : Nat) (sqe : List Byte), d.host.ringWait = [(p, fn, sq, sqe)]) ∧
    (∃ (d : Dev) (p : Nat), collarOk d (16 + p) .write (ringBase d.hw + 128 * fld (rd d.hw R.HOSTIF_ARING_PTR) 16 16) 128 = true) :=
  ⟨⟨{ upDev with host.ports := [(0, { Port.init with perst := false, link := .l0, answering := true })], host.ctrls := [] }, 0, 0, by decide +kernel⟩,
   ⟨upDev, 0, 63, false, by decide +kernel⟩,
   ⟨upDev, 0, 0, by decide +kernel⟩,
   ⟨{ upDev with
     hw.regs := upRegs [(R.HOSTIF_BOOT, 0#32)], host.ports := [(0, { Port.init with perst := false, link := .l0, answering := true })], host.ctrls :=
       [] }, 0, 0, by decide +kernel⟩,
   ⟨{ upDev with hw.regs := upRegs [(R.HOSTIF_CTRL, 1#32)] }, 0, 0, 1, by decide +kernel⟩,
   ⟨upDev, 0, 0#32, by decide +kernel⟩,
   ⟨upDev, 0, 0#32, by decide +kernel⟩,
   ⟨{ upDev with hw.regs := upRegs [(R.HOSTIF_BOOT, 0#32)] }, 0, 0#32, by decide +kernel⟩,
   ⟨upDev, 0, 0#32, by decide +kernel⟩,
   ⟨5, io0, by decide +kernel⟩,
   ⟨0, 0, io0, by decide +kernel⟩,
   ⟨63, { io0 with sqe := [0xC4#8] }, by decide +kernel⟩,
   ⟨{ upDev with hw.regs := upRegs [(R.HOSTIF_CTRL, 1#32)] }, by decide +kernel⟩,
   ⟨{ upDev with host.ports := [(0, { Port.init with perst := false, link := .l0, answering := true })], host.ctrls := [] }, by decide +kernel⟩,
   ⟨{ upDev with host.ringWait := [(1, 63, 5, [])] }, 1, 63, 5, [], by decide +kernel⟩,
   ⟨upDev, 1, by decide +kernel⟩⟩

/-- Devices and operands that meet the hypotheses of RindCommands, clause by clause. -/
theorem witness_RindCommands :
    (∃ (d : Dev) (m op : Nat) (c : Instr) (data : List Byte), d.hw.rind.running = none ∧ ((c = .rindProgram m ∧ op = 1 ∧ data = pbufBytes d.hw (fld
      (rd d.hw R.RIND_LEN) 0 9) ∧ progStatus d.hw (rd d.hw R.RIND_ADDR).toNat (fld (rd d.hw R.RIND_LEN) 0 9) data = .ok) ∨ (c = .rindErase m ∧ op = 2
      ∧ data = [] ∧ rindLocked d.hw.rind ((rd d.hw R.RIND_ADDR).toNat / 65536) = false) ∨ (c = .rindLock m ∧ op = 3 ∧ data = []) ∨ (c = .rindUnlock m
      ∧ op = 4 ∧ data = leBytes 8 (rd d.hw R.RIND_PW_HI ++ rd d.hw R.RIND_PW_LO).toNat) ∨ (c = .rindSetPw m ∧ op = 5 ∧ data = leBytes 8 (rd d.hw
      R.RIND_PW_HI ++ rd d.hw R.RIND_PW_LO).toNat)) ∧ d.lets (writeOf m R.RIND_CMD (BitVec.ofNat 32 (op * 268435456)))) ∧
    (∃ (d : Dev) (m : Nat), d.hw.rind.running = none ∧ d.lets (writeOf m R.RIND_CMD 0x10000000#32) ∧ progStatus d.hw (rd d.hw R.RIND_ADDR).toNat (fld
      (rd d.hw R.RIND_LEN) 0 9) (pbufBytes d.hw (fld (rd d.hw R.RIND_LEN) 0 9)) ≠ .ok) ∧
    (∃ (d : Dev) (m : Nat), d.hw.rind.running = none ∧ d.lets (writeOf m R.RIND_CMD 0x20000000#32) ∧ rindLocked d.hw.rind ((rd d.hw R.RIND_ADDR).toNat
      / 65536) = true) ∧
    (∃ (d : Dev) (m : Nat) (r : RindOp), d.lets (writeOf m R.RIND_CMD 0x60000000#32) ∧ d.hw.rind.running = some r ∧ r.op = 2) ∧
    (∃ (d : Dev) (m : Nat), d.lets (writeOf m R.RIND_CMD 0x60000000#32) ∧ d.hw.rind.running = none) ∧
    (∃ (d : Dev) (m op : Nat) (c : Instr) (r : RindOp), d.hw.rind.running = some r ∧ ((c = .rindProgram m ∧ op = 1) ∨ (c = .rindErase m ∧ op = 2) ∨ (c
      = .rindLock m ∧ op = 3) ∨ (c = .rindUnlock m ∧ op = 4) ∨ (c = .rindSetPw m ∧ op = 5) ∨ (c = .rindAbort m ∧ op = 6 ∧ r.op ≠ 2)) ∧ d.lets (writeOf
      m R.RIND_CMD (BitVec.ofNat 32 (op * 268435456)))) ∧
    (∃ (d : Dev) (r : RindOp), d.hw.rind.running = some r ∧ r.op = 1) ∧
    (∃ (d : Dev) (r : RindOp), d.hw.rind.running = some r ∧ r.op = 2) ∧
    (∃ (d : Dev) (r : RindOp), d.hw.rind.running = some r ∧ r.op = 3) ∧
    (∃ (d : Dev) (r : RindOp), d.hw.rind.running = some r ∧ r.op = 4 ∧ d.hw.rind.pwLocked = false ∧ (d.hw.rind.password = none ∨ ∃ p,
      d.hw.rind.password = some p ∧ p.toNat = leNat r.data)) ∧
    (∃ (d : Dev) (r : RindOp), d.hw.rind.running = some r ∧ r.op = 4 ∧ d.hw.rind.pwLocked = false ∧ (∃ p, d.hw.rind.password = some p ∧ p.toNat ≠
      leNat r.data)) ∧
    (∃ (d : Dev) (r : RindOp), d.hw.rind.running = some r ∧ r.op = 4 ∧ d.hw.rind.pwLocked = true) ∧
    (∃ (d : Dev) (r : RindOp), d.hw.rind.running = some r ∧ r.op = 5 ∧ d.hw.rind.password = none) ∧
    (∃ (d : Dev) (r : RindOp), d.hw.rind.running = some r ∧ r.op = 5 ∧ d.hw.rind.password ≠ none) ∧
    (∃ (d : Dev) (m off size : Nat), d.lets (readReq m (0x30000000 + off) size false) ∧ off < 0x1000000 ∧ d.hw.rind.running = none ∧ (∀ i < size,
      storeByte d.hw.rind.store (off + i) ≠ none)) ∧
    (∃ (d : Dev) (m off size : Nat), d.lets (readReq m (0x30000000 + off) size false) ∧ off < 0x1000000 ∧ ∃ r, d.hw.rind.running = some r ∧ size = 4 ∧
      off % 4 = 0) :=
  ⟨⟨upDev, 0, 2, .rindErase 0, [], by decide +kernel⟩,
   ⟨upDev, 0, by decide +kernel⟩,
   ⟨{ upDev with hw.rind.locks := 1#256 }, 0, by decide +kernel⟩,
   ⟨{ upDev with hw.rind.running := some { op := 2, addr := 0xFF0000, data := [], status := .ok } }, 0, _, by decide +kernel, rfl, by decide +kernel⟩,
   ⟨upDev, 0, by decide +kernel⟩,
   ⟨{ upDev with hw.rind.running := some { op := 1, addr := 0xFF0000, data := [], status := .ok } }, 0, 6, .rindAbort 0, _, rfl, by decide +kernel⟩,
   ⟨{ upDev with hw.rind.running := some { op := 1, addr := 0xFF0000, data := [0#8, 0#8, 0#8, 0#8], status := .ok } }, _, rfl, by decide +kernel⟩,
   ⟨{ upDev with hw.rind.running := some { op := 2, addr := 0xFF0000, data := [], status := .ok } }, _, rfl, by decide +kernel⟩,
   ⟨{ upDev with hw.rind.running := some { op := 3, addr := 0xFF0000, data := [], status := .ok } }, _, rfl, by decide +kernel⟩,
   ⟨{ upDev with
     hw.rind.running := some { op := 4, addr := 0xFF0000, data := [1#8, 0#8, 0#8, 0#8, 0#8, 0#8, 0#8, 0#8], status := .ok }, hw.rind.password := some
       1#64 }, _, rfl, by decide +kernel, by decide +kernel, .inr ⟨1#64, by decide +kernel⟩⟩,
   ⟨{ upDev with
     hw.rind.running := some { op := 4, addr := 0xFF0000, data := [1#8, 0#8, 0#8, 0#8, 0#8, 0#8, 0#8, 0#8], status := .ok }, hw.rind.password := some
       2#64 }, _, rfl, by decide +kernel, by decide +kernel, ⟨2#64, by decide +kernel⟩⟩,
   ⟨{ upDev with
     hw.rind.running := some { op := 4, addr := 0xFF0000, data := [1#8, 0#8, 0#8, 0#8, 0#8, 0#8, 0#8, 0#8], status := .ok }, hw.rind.pwLocked := true
       }, _, rfl, by decide +kernel⟩,
   ⟨{ upDev with hw.rind.running := some { op := 5, addr := 0xFF0000, data := [1#8, 0#8, 0#8, 0#8, 0#8, 0#8, 0#8, 0#8], status := .ok } }, _, rfl,
     by decide +kernel⟩,
   ⟨{ upDev with
     hw.rind.running := some { op := 5, addr := 0xFF0000, data := [1#8, 0#8, 0#8, 0#8, 0#8, 0#8, 0#8, 0#8], status := .ok }, hw.rind.password := some
       2#64 }, _, rfl, by decide +kernel⟩,
   ⟨upDev, 0, 0xFFFFF0, 8, by decide +kernel⟩,
   ⟨{ upDev with hw.rind.running := some { op := 3, addr := 0xFF0000, data := [], status := .ok } }, 0, 0xFFFFFC, 4, by decide +kernel,
     by decide +kernel, _, rfl, by decide +kernel⟩⟩

/-- Devices and operands that meet the hypotheses of BootCommands, clause by clause, but for those on a free value, which nothing decides. -/
theorem witness_BootCommands :
    (∃ d : Dev, (d.boot.romDue = false ∨ d.pins.sysResetHigh = false ∨ d.pins.pgood = false ∨ domOn d.pwr 73 = false ∨ domOn d.pwr 91 = false)) ∧
    (∃ (d : Dev) (g : BootRec) (roll pend : Bool), d.boot.romDue = true ∧ d.pins.sysResetHigh = true ∧ d.pins.pgood = true ∧ domOn d.pwr 73 = true ∧
      domOn d.pwr 91 = true ∧ g = ((bootGov d.hw).map (fun q => q.2)).getD BootRec.blank ∧ roll = bit (rd d.hw R.RIND_BOOTCTL) 0 ∧ pend = (pendingPair
      g && !roll && decide (g.tries < 2))) ∧
    (∃ d : Dev, d.boot.romRunning = true ∧ d.boot.bootState ≠ 2) ∧
    (∃ d : Dev, d.boot.romRunning = true ∧ d.boot.bootState ≠ 2 ∧ (attemptRun d).1 ≠ .ok) ∧
    (∃ d : Dev, (d.boot.romRunning = false ∨ d.boot.bootState = 2)) ∧
    (∃ d : Dev, d.boot.romRunning = true ∧ d.boot.bootState = 2) ∧
    (∃ d : Dev, (d.boot.romRunning = false ∨ d.boot.bootState ≠ 2)) ∧
    (∃ d : Dev, d.boot.wdtRunning = true) ∧
    (∃ d : Dev, d.boot.wdtRunning = false) ∧
    (∃ (d : Dev) (m : Nat), d.lets (writeOf m R.RIND_BOOTWDT 0x80000000#32)) ∧
    (∃ (d : Dev) (m : Nat) (v : Word), d.lets (writeOf m R.RIND_BOOTCTL (v ||| 1#32))) ∧
    (∃ (d : Dev) (m : Nat) (v : Word), d.lets (writeOf m R.RIND_BOOTCTL v)) ∧
    (∃ d : Dev, commitReady d = true) ∧
    (∃ d : Dev, commitReady d = false) ∧
    (∃ d : Dev, (d.boot.trial = true ∨ d.sj.used ≤ 81)) ∧
    (∃ d : Dev, d.boot.trial = false ∧ 81 < d.sj.used ∧ (∀ k v, (k, v) ∈ d.sj.cur → sjDeletes v.payload = false ∧ v.payload.length = 44) ∧
      d.sj.cur.Pairwise (fun p q => p.1 < q.1)) ∧
    (∃ d : Dev, slotEmpty (imageBytes d d.boot.image) = true) ∧
    (∃ (d x y : Dev) (v : Word), x = (if fld v 4 2 = 3 then d else { d with
      hw := wr d.hw R.RIND_BOOTCTL (putFld (rd d.hw R.RIND_BOOTCTL) 4 2 (fld v 4 2)), boot := if 3 ≤ d.boot.bootState then { d.boot with
        bootState := 3 + fld v 4 2 } else d.boot }) ∧ y = { x with hw := wr x.hw R.RIND_BOOTCTL (putBit (rd x.hw R.RIND_BOOTCTL) 0 (bit v 0)) }) :=
  ⟨⟨{ upDev with pins.pgood := false }, by decide +kernel⟩,
   ⟨{ upDev with hw.regs := upRegs [(R.RIND_BOOTCTL, 1#32)], hw.rind.store := { Rind.init.store with cells := bootCells } }, bootRec0, _, _,
     by decide +kernel, by decide +kernel, by decide +kernel, by decide +kernel, by decide +kernel, by decide +kernel, rfl, rfl⟩,
   ⟨{ upDev with boot.romRunning := true }, by decide +kernel⟩,
   ⟨{ upDev with boot.romRunning := true, hw.rind.store := { Rind.init.store with cells := [(imageBase 0, 0#8)] } }, by decide +kernel,
     by decide +kernel, attempt_fails _ (by decide +kernel)⟩,
   ⟨{ upDev with boot.romRunning := true, boot.bootState := 2 }, by decide +kernel⟩,
   ⟨{ upDev with boot.romRunning := true, boot.bootState := 2 }, by decide +kernel⟩,
   ⟨upDev, by decide +kernel⟩,
   ⟨{ upDev with boot.wdtRunning := true }, by decide +kernel⟩,
   ⟨upDev, by decide +kernel⟩,
   ⟨upDev, 0, by decide +kernel⟩,
   ⟨upDev, 0, 0x30#32, by decide +kernel⟩,
   ⟨upDev, 0, 0#32, by decide +kernel⟩,
   ⟨{ upDev with boot.trial := true, med.recovered := true, hw.time := 1500000000#64 }, by decide +kernel⟩,
   ⟨upDev, by decide +kernel⟩,
   ⟨{ upDev with boot.wdtRunning := true }, by decide +kernel⟩,
   ⟨{ upDev with sj.used := 82, sj.cur := [(5, { seq := 1, payload := List.replicate 44 0#8 })] }, by decide +kernel, by decide +kernel,
     by intro k v h; simp at h; obtain ⟨rfl, rfl⟩ := h; decide +kernel, by decide +kernel⟩,
   ⟨upDev, erased_slot_empty _ (by decide +kernel)⟩,
   ⟨upDev, _, _, 0x30#32, rfl, rfl⟩⟩

/-- Devices and operands that meet the hypotheses of VaultCommands, clause by clause, but for those on a free value, which nothing decides. -/
theorem witness_VaultCommands :
    (∃ (d : Dev) (m n : Nat) (v : Word) (x : Item) (s : Slot), x = itemGet d.hw 10 m ∧ x.flushed = false ∧ n = fld v 0 13 ∧ s = slotGet d.sec n ∧ bit
      (rd d.hw R.KV_CTRL) 0 = true ∧ d.sec.kvWait = [] ∧ d.lets (writeOf m R.KV_CMD (putFld v 28 4 1)) ∧ drbgReady d.sec = true ∧ s.gen < 524287 ∧ fld
      v 25 3 = 1) ∧
    (∃ (d : Dev) (m n : Nat) (v : Word) (x : Item) (s : Slot), x = itemGet d.hw 10 m ∧ x.flushed = false ∧ n = fld v 0 13 ∧ s = slotGet d.sec n ∧ bit
      (rd d.hw R.KV_CTRL) 0 = true ∧ d.sec.kvWait = [] ∧ d.lets (writeOf m R.KV_CMD (putFld v 28 4 1)) ∧ drbgReady d.sec = true ∧ s.gen < 524287 ∧ fld
      v 25 3 = 2) ∧
    (∃ (d : Dev) (m n : Nat) (v : Word) (x : Item) (s : Slot), x = itemGet d.hw 10 m ∧ x.flushed = false ∧ n = fld v 0 13 ∧ s = slotGet d.sec n ∧ bit
      (rd d.hw R.KV_CTRL) 0 = true ∧ d.sec.kvWait = [] ∧ d.lets (writeOf m R.KV_CMD (putFld v 28 4 1)) ∧ drbgReady d.sec = true ∧ s.gen = 524287 ∧
      (fld v 25 3 = 1 ∨ fld v 25 3 = 2)) ∧
    (∃ (d : Dev) (m n : Nat) (v : Word) (x : Item) (s : Slot), x = itemGet d.hw 10 m ∧ x.flushed = false ∧ n = fld v 0 13 ∧ s = slotGet d.sec n ∧ bit
      (rd d.hw R.KV_CTRL) 0 = true ∧ d.sec.kvWait = [] ∧ drbgReady d.sec = false ∧ d.lets (writeOf m R.KV_CMD (putFld v 28 4 1))) ∧
    (∃ (d : Dev) (m n : Nat) (v : Word) (x : Item) (s : Slot), x = itemGet d.hw 10 m ∧ x.flushed = false ∧ n = fld v 0 13 ∧ s = slotGet d.sec n ∧ bit
      (rd d.hw R.KV_CTRL) 0 = true ∧ d.sec.kvWait = [] ∧ drbgReady d.sec = false ∧ d.lets (writeOf m R.KV_CMD (putFld v 28 4 3))) ∧
    (∃ (d : Dev) (m n : Nat) (v : Word) (x : Item) (s : Slot), x = itemGet d.hw 10 m ∧ x.flushed = false ∧ n = fld v 0 13 ∧ s = slotGet d.sec n ∧ bit
      (rd d.hw R.KV_CTRL) 0 = true ∧ d.sec.kvWait = [] ∧ d.lets (writeOf m R.KV_CMD (putFld v 28 4 2)) ∧ (itemArg x 0x14).toNat % 8 = 0 ∧ 80 ≤ fld
      (itemArg x 0x1C) 0 13 ∧ (s.type = 1 ∨ s.type = 2) ∧ unitPass (d.taken 10 m) m .write ((itemArg x 0x14).toNat + 0x100000000 * fld (itemArg x
      0x18) 0 16) (if s.type = 1 then 80 else 48) = .ok) ∧
    (∃ (d : Dev) (m n : Nat) (v : Word) (x : Item) (s : Slot), x = itemGet d.hw 10 m ∧ x.flushed = false ∧ n = fld v 0 13 ∧ s = slotGet d.sec n ∧ bit
      (rd d.hw R.KV_CTRL) 0 = true ∧ d.sec.kvWait = [] ∧ d.lets (writeOf m R.KV_CMD (putFld v 28 4 2)) ∧ (itemArg x 0x14).toNat % 8 = 0 ∧ 80 ≤ fld
      (itemArg x 0x1C) 0 13 ∧ s.type = 3) ∧
    (∃ (d : Dev) (m n : Nat) (v : Word) (x : Item) (s : Slot), x = itemGet d.hw 10 m ∧ x.flushed = false ∧ n = fld v 0 13 ∧ s = slotGet d.sec n ∧ bit
      (rd d.hw R.KV_CTRL) 0 = true ∧ d.sec.kvWait = [] ∧ d.lets (writeOf m R.KV_CMD (putFld v 28 4 3)) ∧ drbgReady d.sec = true ∧ fld v 18 5 = 16 ∧
      (itemArg x 0x14).toNat % 8 = 0 ∧ fld (itemArg x 0x1C) 0 13 ≠ 0 ∧ unwrapLenOk (bit (itemArg x 0x1C) 31) (fld (itemArg x 0x1C) 0 13) = true ∧
      unitPass (d.taken 10 m) m .read ((itemArg x 0x14).toNat + 0x100000000 * fld (itemArg x 0x18) 0 16) (fld (itemArg x 0x1C) 0 13) = .ok ∧ ∃ (bs :
      List Byte) (e : Dev), unitRead m ((itemArg x 0x14).toNat + 0x100000000 * fld (itemArg x 0x18) 0 16) (fld (itemArg x 0x1C) 0 13) (d.taken 10 m) =
      (some bs, e) ∧ s.gen < 524287) ∧
    (∃ (d : Dev) (m n : Nat) (v : Word) (x : Item) (s : Slot), x = itemGet d.hw 10 m ∧ x.flushed = false ∧ n = fld v 0 13 ∧ s = slotGet d.sec n ∧ bit
      (rd d.hw R.KV_CTRL) 0 = true ∧ d.sec.kvWait = [] ∧ d.lets (writeOf m R.KV_CMD (putFld v 28 4 3)) ∧ drbgReady d.sec = true ∧ fld v 18 5 = 16 ∧
      (itemArg x 0x14).toNat % 8 = 0 ∧ fld (itemArg x 0x1C) 0 13 ≠ 0 ∧ unwrapLenOk (bit (itemArg x 0x1C) 31) (fld (itemArg x 0x1C) 0 13) = true ∧
      unitPass (d.taken 10 m) m .read ((itemArg x 0x14).toNat + 0x100000000 * fld (itemArg x 0x18) 0 16) (fld (itemArg x 0x1C) 0 13) = .ok ∧ ∃ (bs :
      List Byte) (e : Dev), unitRead m ((itemArg x 0x14).toNat + 0x100000000 * fld (itemArg x 0x18) 0 16) (fld (itemArg x 0x1C) 0 13) (d.taken 10 m) =
      (some bs, e)) ∧
    (∃ (d : Dev) (m n : Nat) (v : Word) (x : Item) (s : Slot), x = itemGet d.hw 10 m ∧ x.flushed = false ∧ n = fld v 0 13 ∧ s = slotGet d.sec n ∧ bit
      (rd d.hw R.KV_CTRL) 0 = true ∧ d.sec.kvWait = [] ∧ d.lets (writeOf m R.KV_CMD (putFld v 28 4 4))) ∧
    (∃ (d : Dev) (m n : Nat) (v : Word) (x : Item) (s : Slot), x = itemGet d.hw 10 m ∧ x.flushed = false ∧ n = fld v 0 13 ∧ s = slotGet d.sec n ∧ bit
      (rd d.hw R.KV_CTRL) 0 = true ∧ d.sec.kvWait = [] ∧ d.lets (writeOf m R.KV_CMD (putFld v 28 4 5))) ∧
    (∃ (d : Dev) (m n : Nat) (v : Word) (x : Item) (s : Slot), x = itemGet d.hw 10 m ∧ x.flushed = false ∧ n = fld v 0 13 ∧ s = slotGet d.sec n ∧ bit
      (rd d.hw R.KV_CTRL) 0 = true ∧ d.sec.kvWait = [] ∧ d.lets (writeOf m R.KV_CMD (putFld v 28 4 6))) :=
  ⟨⟨{ upDev with hw.regs := upRegs [(R.KV_CTRL, 1#32)], sec.drbgOn := true }, 0, _, 0x02001FFF#32, _, _, rfl, by decide +kernel, rfl, rfl,
     by decide +kernel⟩,
   ⟨{ upDev with hw.regs := upRegs [(R.KV_CTRL, 1#32)], sec.drbgOn := true, sec.slots := [(8191, { Slot.init with gen := 524286 })] }, 0, _,
     0x04001FFF#32, _, _, rfl, by decide +kernel, rfl, rfl, by decide +kernel⟩,
   ⟨{ upDev with hw.regs := upRegs [(R.KV_CTRL, 1#32)], sec.drbgOn := true, sec.slots := [(8191, { Slot.init with gen := 524287 })] }, 0, _,
     0x02001FFF#32, _, _, rfl, by decide +kernel, rfl, rfl, by decide +kernel⟩,
   ⟨{ upDev with hw.regs := upRegs [(R.KV_CTRL, 1#32)] }, 0, _, 0#32, _, _, rfl, by decide +kernel, rfl, rfl, by decide +kernel⟩,
   ⟨{ upDev with hw.regs := upRegs [(R.KV_CTRL, 1#32)] }, 0, _, 0#32, _, _, rfl, by decide +kernel, rfl, rfl, by decide +kernel⟩,
   ⟨{ upDev with
     hw.regs := upRegs [(R.KV_CTRL, 1#32)], sec.drbgOn := true, sec.slots := [(8191, { Slot.init with type := 1 })], hw.items := [(10 * 128,
       { Item.none with args := [(0x14, 0x20000000#32), (0x1C, 80#32)] })] }, 0, _, 0x1FFF#32, _, _, rfl, by decide +kernel, rfl, rfl,
     by decide +kernel⟩,
   ⟨{ upDev with
     hw.regs := upRegs [(R.KV_CTRL, 1#32)], sec.drbgOn := true, sec.slots := [(8191, { Slot.init with type := 3 })], hw.items := [(10 * 128,
       { Item.none with args := [(0x14, 8#32), (0x1C, 80#32)] })] }, 0, _, 0x1FFF#32, _, _, rfl, by decide +kernel, rfl, rfl, by decide +kernel⟩,
   ⟨{ upDev with
     hw.regs := upRegs [(R.KV_CTRL, 1#32)], sec.drbgOn := true, hw.mem := memZero Mem.init 0x20000000 0x20000100, hw.items := [(10 * 128,
       { Item.none with args := [(0x14, 0x20000000#32), (0x18, 0#32), (0x1C, 80#32)] })] }, 0, _, 0x401FFF#32, _, _, rfl, by decide +kernel, rfl, rfl,
     by decide +kernel, by decide +kernel, by decide +kernel, by decide +kernel, by decide +kernel, by decide +kernel, by decide +kernel,
     by decide +kernel, by decide +kernel, List.replicate 80 0#8, _, rfl, by decide +kernel⟩,
   ⟨{ upDev with
     hw.regs := upRegs [(R.KV_CTRL, 1#32)], sec.drbgOn := true, hw.mem := memZero Mem.init 0x20000000 0x20000100, hw.items := [(10 * 128,
       { Item.none with args := [(0x14, 0x20000000#32), (0x18, 0#32), (0x1C, 80#32)] })] }, 0, _, 0x401FFF#32, _, _, rfl, by decide +kernel, rfl, rfl,
     by decide +kernel, by decide +kernel, by decide +kernel, by decide +kernel, by decide +kernel, by decide +kernel, by decide +kernel,
     by decide +kernel, by decide +kernel, List.replicate 80 0#8, _, rfl⟩,
   ⟨{ upDev with hw.regs := upRegs [(R.KV_CTRL, 1#32)], sec.drbgOn := true }, 0, _, 0#32, _, _, rfl, by decide +kernel, rfl, rfl, by decide +kernel⟩,
   ⟨{ upDev with hw.regs := upRegs [(R.KV_CTRL, 1#32)], sec.drbgOn := true }, 0, _, 0#32, _, _, rfl, by decide +kernel, rfl, rfl, by decide +kernel⟩,
   ⟨{ upDev with hw.regs := upRegs [(R.KV_CTRL, 1#32)], sec.drbgOn := true }, 0, _, 0#32, _, _, rfl, by decide +kernel, rfl, rfl, by decide +kernel⟩⟩

/-- Devices and operands that meet the hypotheses of KeyErasure, clause by clause. -/
theorem witness_KeyErasure :
    (∃ d : Dev, d.sec.eraseDue = true) ∧
    (∃ d : Dev, hasCrypto d.fuse = true ∧ (tabGet d.pwr.cores 0).isSome = true) ∧
    (∃ d : Dev, d.sec.eraseDue = false ∧ hasCrypto d.fuse = true) ∧
    (∃ d : Dev, d.sec.eraseDue = false ∧ hasCrypto d.fuse = false) :=
  ⟨⟨{ upDev with sec.eraseDue := true }, by decide +kernel⟩,
   ⟨upDev, by decide +kernel⟩,
   ⟨upDev, by decide +kernel⟩,
   ⟨{ upDev with fuse.variant := .px }, by decide +kernel⟩⟩

/-- Devices and operands that meet the hypotheses of CipherCommands, clause by clause. -/
theorem witness_CipherCommands :
    (∃ (d e : Dev) (m k slot op : Nat) (w : Word) (c : Instr), k < 4 ∧ w = putFld (putFld 0#32 28 4 op) 0 13 slot ∧ ((c = .cipherXtsEncrypt m k slot ∧
      op = 1) ∨ (c = .cipherXtsDecrypt m k slot ∧ op = 2) ∨ (c = .cipherGcmEncrypt m k slot ∧ op = 3) ∨ (c = .cipherGcmDecrypt m k slot ∧ op = 4)) ∧
      d.lets (writeOf m (R.CIPHER_JMODE k) w) ∧ (itemGet d.hw (32 + k) m).flushed = false ∧ e = Dev.wrote { d with
      hw := itemPut d.hw (32 + k) m { itemGet d.hw (32 + k) m with args := tabPut (itemGet d.hw (32 + k) m).args 0x10 w } } m (R.CIPHER_JMODE k) w ∧
      e.lets (writeOf m (R.CIPHER_JGO k) 0#32)) ∧
    (∃ (d : Dev) (tag n : Nat) (o : Op), tabGet d.host.ops tag = some o ∧ o.ciphered = false ∧ o.status ≠ .accessDenied ∧ (∀ i < 4, ∀ j ∈ jobsOf d.sec
      i, j.tag ≠ some tag) ∧ (o.cmd.keyTag = some n ∨ (o.cmd.keyTag = none ∧ ∃ x, nsGet d o.cmd.nsid = some x ∧ x.slot = n)) ∧ o.st = .staging) ∧
    (∃ (d : Dev) (tag n : Nat) (o : Op), tabGet d.host.ops tag = some o ∧ o.ciphered = false ∧ o.status ≠ .accessDenied ∧ (∀ i < 4, ∀ j ∈ jobsOf d.sec
      i, j.tag ≠ some tag) ∧ (o.cmd.keyTag = some n ∨ (o.cmd.keyTag = none ∧ ∃ x, nsGet d o.cmd.nsid = some x ∧ x.slot = n)) ∧ o.st = .ready ∧ ∃ (bs :
      List Nat) (e : Dev), readBufs o d = (bs, e) ∧ bs = []) ∧
    (∃ (d : Dev) (tag n : Nat) (o : Op), tabGet d.host.ops tag = some o ∧ o.ciphered = false ∧ o.status ≠ .accessDenied ∧ (∀ i < 4, ∀ j ∈ jobsOf d.sec
      i, j.tag ≠ some tag) ∧ (o.cmd.keyTag = some n ∨ (o.cmd.keyTag = none ∧ ∃ x, nsGet d o.cmd.nsid = some x ∧ x.slot = n)) ∧ o.st = .ready ∧ ∃ (bs :
      List Nat) (e : Dev), readBufs o d = (bs, e) ∧ bs ≠ []) ∧
    (∃ (d : Dev) (k m : Nat) (j : Job) (js : List Job), hasCrypto d.fuse = true ∧ k < 4 ∧ jobsOf d.sec k = j :: js ∧ bit (rd d.hw (R.CIPHER_CTRL k)) 0
      = true ∧ domOn d.pwr (77 + k) = true ∧ j.master = some m ∧ ∃ d0 : Dev, d0 = { d with sec := { d.sec with jobs := tabPut d.sec.jobs k js } } ∧
      j.status ≠ .ok) ∧
    (∃ (d : Dev) (k m : Nat) (j : Job) (js : List Job), hasCrypto d.fuse = true ∧ k < 4 ∧ jobsOf d.sec k = j :: js ∧ bit (rd d.hw (R.CIPHER_CTRL k)) 0
      = true ∧ domOn d.pwr (77 + k) = true ∧ j.master = some m ∧ ∃ d0 : Dev, d0 = { d with sec := { d.sec with jobs := tabPut d.sec.jobs k js } } ∧ ∃
      (st : Status) (e : Dev) (g : Hw), j.status = .ok ∧ (∀ n, jobPass k j d0 ≠ .waits n) ∧ jobRun k j d0 = (st, e) ∧ g = irq (mwr e.hw (R.CIPHER_JRSP
      k) m (BitVec.ofNat 32 (st.code * 268435456))) (irqCipher k) 0) ∧
    (∃ (d : Dev) (k m : Nat) (j : Job) (js : List Job), hasCrypto d.fuse = true ∧ k < 4 ∧ jobsOf d.sec k = j :: js ∧ bit (rd d.hw (R.CIPHER_CTRL k)) 0
      = true ∧ domOn d.pwr (77 + k) = true ∧ j.master = some m ∧ ∃ d0 : Dev, d0 = { d with sec := { d.sec with jobs := tabPut d.sec.jobs k js } } ∧ ∃
      n, j.status = .ok ∧ jobPass k j d0 = .waits n) ∧
    (∃ (d : Dev) (k : Nat), hasCrypto d.fuse = true ∧ k < 4 ∧ (bit (rd d.hw (R.CIPHER_CTRL k)) 0 = false ∨ domOn d.pwr (77 + k) = false ∨ jobsOf d.sec
      k = [])) ∧
    (∃ (d : Dev) (k tag : Nat) (j : Job) (js : List Job) (o : Op), hasCrypto d.fuse = true ∧ k < 4 ∧ jobsOf d.sec k = j :: js ∧ bit (rd d.hw
      (R.CIPHER_CTRL k)) 0 = true ∧ domOn d.pwr (77 + k) = true ∧ j.master = none ∧ j.tag = some tag ∧ tabGet d.host.ops tag = some o) ∧
    (∃ (d : Dev) (k : Nat), hasCrypto d.fuse = true ∧ k < 4 ∧ drbgReady d.sec = true) ∧
    (∃ (d : Dev) (k : Nat), hasCrypto d.fuse = true ∧ k < 4 ∧ drbgReady d.sec = false) ∧
    (∃ (d : Dev) (m : Nat) (op : Nat) (n : Nat) (x : Item) (s : Slot) (j : Job), n = fld (itemArg x 0x10) 0 13 ∧ s = slotGet d.sec n ∧ 1 ≤ op ∧ op ≤ 4
      ∧ jobStatus op (itemArg x 0x24).toNat (itemArg x 0x30).toNat (itemAddr x 0x14 0x18) (itemAddr x 0x1C 0x20) s = .ok ∧ j = {
      master := some m, tag := none, op := op, slot := n, key := s.key, iv := if op = 3 then gcmIv n s else 0#96, src := itemAddr x 0x14 0x18, dst :=
        itemAddr x 0x1C 0x20, len := (itemArg x 0x24).toNat, aad := itemAddr x 0x28 0x2C, aadLen := (itemArg x 0x30).toNat, tweak := (itemArg x
        0x34).toNat + 0x100000000 * (itemArg x 0x38).toNat, tagAddr := itemAddr x 0x3C 0x40, status := .ok }) ∧
    (∃ (d : Dev) (k : Nat), pickEngine d = some k) ∧
    (∃ (d : Dev), pickEngine d = none) ∧
    (∃ (d : Dev) (k : Nat), pickEngine d = some k ∧ (k < 4 ∧ bit (rd d.hw (R.CIPHER_CTRL k)) 0 = true ∧ ∀ i < 4, bit (rd d.hw (R.CIPHER_CTRL i)) 0 =
      true)) ∧
    (∃ (d : Dev) (k a n : Nat) (j : Job) (st : Status), jobPass k j d = .refused st a n) ∧
    (∃ (d d1 d2 d3 : Dev) (k : Nat) (j : Job) (bs aad tb : List Byte), j.op = 4 ∧ jobPass k j d = .ok ∧ unitRead (20 + k) j.src j.len d = (some bs,
      d1) ∧ unitRead (20 + k) j.aad j.aadLen d1 = (some aad, d2) ∧ unitRead (20 + k) j.tagAddr 28 d2 = (some tb, d3)) :=
  ⟨⟨upDev, _, 0, 3, 8191, 1, _, .cipherXtsEncrypt 0 3 8191, by decide +kernel, rfl, by decide +kernel, by decide +kernel, by decide +kernel, rfl,
     by decide +kernel⟩,
   ⟨{ upDev with host.ops := [(1, { op0 with st := .staging, cmd := { io0 with keyTag := some 8191 } })] }, 1, 8191,
     { op0 with st := .staging, cmd := { io0 with keyTag := some 8191 } }, rfl, by decide +kernel, by decide +kernel, by decide +kernel, .inl rfl,
     by decide +kernel⟩,
   ⟨{ upDev with hw.regs := upRegs [(R.CIPHER_CTRL 3, 1#32)], host.ops := [(1, { op0 with st := .ready, cmd := { io0 with keyTag := some 8191 } })] },
     1, 8191, { op0 with st := .ready, cmd := { io0 with keyTag := some 8191 } }, by decide +kernel, by decide +kernel, by decide +kernel,
     by decide +kernel, by decide +kernel, by decide +kernel, _, _, rfl, by decide +kernel⟩,
   ⟨{ upDev with host.ops := [(1, { op0 with st := .ready, bufs := [0x10000000], cmd := { io0 with keyTag := some 8191 } })] }, 1, 8191,
     { op0 with st := .ready, bufs := [0x10000000], cmd := { io0 with keyTag := some 8191 } }, rfl, by decide +kernel, by decide +kernel,
     by decide +kernel, .inl rfl, by decide +kernel, _, _, rfl, by decide +kernel⟩,
   ⟨{ upDev with hw.regs := upRegs [(R.CIPHER_CTRL 3, 1#32)], sec.jobs := [(3, [{ job0 with status := .range }])] }, 3, 0, _, _, by decide +kernel,
     by decide +kernel, rfl, by decide +kernel, by decide +kernel, by decide +kernel, _, rfl, by decide +kernel⟩,
   ⟨{ upDev with
     hw.regs := upRegs [(R.CIPHER_CTRL 3, 1#32)], sec.jobs := [(3, [{ job0 with status := .ok, src := 0x20000000, dst := 0x20000000 }])] }, 3, 0, _,
     _, by decide +kernel, by decide +kernel, rfl, by decide +kernel, by decide +kernel, by decide +kernel, _, rfl, _, _, _, by decide +kernel,
     by intro n; simp [jobPass, jobParts, unitPass, linesOf, firstBar, job0], rfl, rfl⟩,
   ⟨{ upDev with
     hw.regs := upRegs [(R.CIPHER_CTRL 3, 1#32)], sec.jobs := [(3, [{ job0 with status := .ok, src := 0x10000000, dst := 0x10000000, len := 16 }])],
     pwr.doms := upDoms [(91, { Dom.init with st := .ret })] }, 3, 0, _, _, by decide +kernel, by decide +kernel, rfl, by decide +kernel,
     by decide +kernel, by decide +kernel, _, rfl, 91, by decide +kernel⟩,
   ⟨upDev, 3, by decide +kernel⟩,
   ⟨{ upDev with
     hw.regs := upRegs [(R.CIPHER_CTRL 3, 1#32)], sec.jobs := [(3, [{ job0 with master := none, tag := some 1 }])], host.ops := [(1,
       { op0 with st := .ready })] }, 3, _, _, _, _, by decide +kernel, by decide +kernel, rfl, by decide +kernel, by decide +kernel,
     by decide +kernel, rfl, rfl⟩,
   ⟨{ upDev with sec.drbgOn := true }, 3, by decide +kernel⟩,
   ⟨upDev, 3, by decide +kernel⟩,
   ⟨{ upDev with sec.slots := [(8191, { Slot.init with type := 1 })] }, 0, 1, _, { Item.none with args := [(0x10, 0x1FFF#32), (0x24, 1048576#32)] },
     _, _, rfl, rfl, by decide +kernel, by decide +kernel, by decide +kernel, rfl⟩,
   ⟨{ upDev with hw.regs := upRegs [(R.CIPHER_CTRL 3, 1#32)] }, 3, by decide +kernel⟩,
   ⟨{ upDev with sec.drbgOn := true }, by decide +kernel⟩,
   ⟨{ upDev with hw.regs := upRegs [(R.CIPHER_CTRL 0, 1#32), (R.CIPHER_CTRL 1, 1#32), (R.CIPHER_CTRL 2, 1#32), (R.CIPHER_CTRL 3, 1#32)] }, 0,
     by decide +kernel⟩,
   ⟨upDev, 3, 0x40000, 16, { job0 with src := 0x40000, len := 16 }, .range, by decide +kernel⟩,
   ⟨{ upDev with hw.mem := memZero Mem.init 0x20000000 0x20000100 }, _, _, _, 3, { job0 with op := 4, tagAddr := 0x20000000 }, [], [], List.replicate
     28 0#8, by decide +kernel, by decide +kernel, rfl, rfl, rfl⟩⟩

/-- Devices and operands that meet the hypotheses of SecurityCommands, clause by clause. -/
theorem witness_SecurityCommands :
    (∃ (d e f : Dev) (h : Hw) (s : Sec), rngAnswer d.sec.rngWait d.hw { d.sec with drbgOn := true, drbgReqs := 0, entropyOk := true } = (h, s) ∧ e =
      kvDrain s.kvWait { d with hw := maskFresh h 4, sec := { s with rngWait := [], maskStale := 0#4, kvWait := [] } } ∧ f = { e with
      host := { e.host with rndHeld := [] } }) ∧
    (∃ (kind : Nat), kind < 2) ∧
    (∃ (d : Dev) (m : Nat), d.lets (readOf m R.SIGV_RNG_DATA) ∧ drbgReady d.sec = true) ∧
    (∃ (d : Dev) (m : Nat), d.lets (readOf m R.SIGV_RNG_DATA) ∧ drbgReady d.sec = false) ∧
    (∃ (d : Dev) (m : Nat) (v : Word), d.lets (writeOf m R.SIGV_CTRL (v ||| 1#32)) ∧ bit v 1 = false ∧ d.sec.verify = none ∧ ∃ (st : Status) (n :
      Nat), ecdsaOutcome d.fuse (fld v 2 2) (fld (rd d.hw R.SIGV_QFMT) 0 8) (digestNat d.hw) (win384 d.hw R.SIGV_R) (win384 d.hw R.SIGV_S) (win384
      d.hw R.SIGV_QX) (win384 d.hw R.SIGV_QY) = (st, n)) ∧
    (∃ (d : Dev) (m : Nat) (v : Word), d.lets (writeOf m R.SIGV_CTRL (v ||| 1#32)) ∧ bit v 1 = false ∧ d.sec.verify ≠ none) ∧
    (∃ (d e : Dev) (v : Verify), d.sec.verify = some v ∧ v.jtag = false ∧ e = { d with
      hw := irq (wr d.hw R.SIGV_STAT ((rd d.hw R.SIGV_STAT &&& 0x40000000#32) ||| BitVec.ofNat 32 (v.result.code * 16777216 + v.reason * 1048576)))
        irqSigv 0, sec := { d.sec with verify := none } } ∧ d.jtag.resp = none) ∧
    (∃ (d e : Dev) (v : Verify), d.sec.verify = some v ∧ v.jtag = false ∧ e = { d with
      hw := irq (wr d.hw R.SIGV_STAT ((rd d.hw R.SIGV_STAT &&& 0x40000000#32) ||| BitVec.ofNat 32 (v.result.code * 16777216 + v.reason * 1048576)))
        irqSigv 0, sec := { d.sec with verify := none } } ∧ ∃ c r, d.jtag.resp = some (c, r)) ∧
    (∃ (d : Dev) (m : Nat) (v : Word), d.lets (writeOf m R.SIGV_CTRL (v ||| 2#32)) ∧ bit v 0 = false ∧ d.sec.hash = none ∧ (rd d.hw R.SIGV_HLEN).toNat
      = 0) ∧
    (∃ (d e f x : Dev) (m : Nat) (v : Word) (bs : List Byte) (src : Nat), d.lets (writeOf m R.SIGV_CTRL (v ||| 2#32)) ∧ bit v 0 = false ∧ d.sec.hash =
      none ∧ (rd d.hw R.SIGV_HLEN).toNat ≠ 0 ∧ src = (rd d.hw R.SIGV_HSRC_LO).toNat + 0x100000000 * fld (rd d.hw R.SIGV_HSRC_HI) 0 16 ∧ e = { d with
      hw := wr d.hw R.SIGV_CTRL (rwWrite 0xC#32 (rd d.hw R.SIGV_CTRL) (v ||| 2#32)) } ∧ unitClear m .read src (rd d.hw R.SIGV_HLEN).toNat e = .inr f ∧
      unitRead m src (rd d.hw R.SIGV_HLEN).toNat f = (some bs, x)) ∧
    (∃ (d : Dev) (m : Nat) (v : Word), d.lets (writeOf m R.SIGV_CTRL (v ||| 2#32)) ∧ bit v 0 = false ∧ d.sec.hash ≠ none) ∧
    (∃ (d : Dev) (g : BitVec 384), d.sec.hash = some g) ∧
    (∃ (d : Dev) (m : Nat), d.lets (writeOf m R.COLLAR_CTRL 1#32)) ∧
    (∃ (d : Dev) (m : Nat), d.lets (writeOf m R.COLLAR_CTRL 2#32)) ∧
    (∃ (d : Dev) (src m pol : Nat), src < 5 ∧ m < 128 ∧ pol = fld (rd d.hw R.COLLAR_ALARM_POL) (2 * src) 2) ∧
    (∃ a, (∀ k < 4, a ≠ R.CIPHER_STAT k)) :=
  ⟨⟨{ upDev with sec.verify := some { result := .ok, reason := 0, jtag := false } }, _, _, _, _, rfl, rfl, rfl⟩,
   ⟨1, by decide +kernel⟩,
   ⟨{ upDev with sec.drbgOn := true }, 0, by decide +kernel⟩,
   ⟨upDev, 0, by decide +kernel⟩,
   ⟨upDev, 0, 0#32, by decide +kernel, by decide +kernel, by decide +kernel, _, _, rfl⟩,
   ⟨{ upDev with sec.verify := some { result := .ok, reason := 0, jtag := false } }, 0, 0#32, by decide +kernel⟩,
   ⟨{ upDev with sec.verify := some { result := .ok, reason := 0, jtag := false } }, _, _, rfl, by decide +kernel, rfl, by decide +kernel⟩,
   ⟨{ upDev with sec.verify := some { result := .ok, reason := 0, jtag := false }, jtag.resp := some (none, 0) }, _, _, rfl, by decide +kernel, rfl,
     _, _, rfl⟩,
   ⟨upDev, 0, 0#32, by decide +kernel⟩,
   ⟨{ upDev with hw.regs := upRegs [(R.SIGV_HLEN, 1#32), (R.SIGV_HSRC_LO, 0x20000000#32)], hw.mem := memZero Mem.init 0x20000000 0x20000100 }, _, _,
     _, 0, 0#32, [0#8], _, by decide +kernel, by decide +kernel, by decide +kernel, by decide +kernel, rfl, rfl, rfl, rfl⟩,
   ⟨{ upDev with sec.hash := some 1#384 }, 0, 0#32, by decide +kernel⟩,
   ⟨{ upDev with sec.hash := some 1#384 }, _, rfl⟩,
   ⟨upDev, 0, by decide +kernel⟩,
   ⟨upDev, 0, by decide +kernel⟩,
   ⟨upDev, 4, 103, _, by decide +kernel, by decide +kernel, rfl⟩,
   ⟨0, by decide +kernel⟩⟩

/-- Devices and operands that meet the hypotheses of ManagementCommands, clause by clause. -/
theorem witness_ManagementCommands :
    (∃ d : Dev, d.pins.pgood = true) ∧
    (∃ (d : Dev) (eid : Nat), d.mgmt.ready = true ∧ 0 < eid ∧ eid < 255) ∧
    (∃ d : Dev, d.mgmt.ready = true) ∧
    (∃ d : Dev, d.mgmt.ready = true) ∧
    (∃ d : Dev, d.mgmt.ready = true) ∧
    (∃ (d : Dev) (type : Nat) (bs : List Byte), d.fwServes ∧ (type = 4 ∨ type = 5) ∧ bs.length ≤ 4224) ∧
    (∃ (d : Dev) (bs : List Byte), d.mgmt.ready = true ∧ bit (rd d.hw R.MGMT_CTRL) 0 = false ∧ bs.length ≤ 4224) ∧
    (∃ (d : Dev) (bs : List Byte), d.mgmt.ready = true ∧ bit (rd d.hw R.MGMT_CTRL) 0 = true ∧ d.mgmt.rx ≠ none ∧ bs.length ≤ 4224) ∧
    (∃ d : Dev, d.fwServes ∧ ∃ id : Nat, 1 ≤ id ∧ ctrlPresent d (ctrlOfId id).1 (ctrlOfId id).2 = true) ∧
    (∃ d : Dev, d.fwServes ∧ ∃ id : Nat, 1 ≤ id ∧ ctrlPresent d (ctrlOfId id).1 (ctrlOfId id).2 = true) ∧
    (∃ d : Dev, d.fwServes ∧ ∃ id v : Nat, id ≠ 3 ∧ tabGet d.mgmt.cfg id = some v) ∧
    (∃ d : Dev, d.fwServes ∧ ∃ v : Nat, (v = 64 ∨ (v = 256 ∧ d.mgmt.i3c = true))) ∧
    (∃ d : Dev, d.fwServes ∧ d.mgmt.i3c = false) ∧
    (∃ d : Dev, d.fwServes) ∧
    (∃ d : Dev, d.fwServes) ∧
    (∃ (d : Dev) (m : Nat), d.lets (writeOf m R.MGMT_RXCTL 0x40000000#32)) ∧
    (∃ (d : Dev) (m : Nat) (v : Word), d.lets (writeOf m R.MGMT_TXCTL (v ||| 0x80000000#32)) ∧ d.mgmt.txBusy = false ∧ 1 ≤ fld v 0 16 ∧ fld v 0 16 ≤
      4224) ∧
    (∃ (d : Dev) (m : Nat) (v : Word), d.lets (writeOf m R.MGMT_TXCTL (v ||| 0x80000000#32)) ∧ d.mgmt.txBusy = false ∧ fld v 0 16 = 0) ∧
    (∃ d : Dev, d.mgmt.txBusy = true) ∧
    (∃ (d : Dev) (m : Nat) (v : Word), d.lets (writeOf m R.MGMT_CTRL (v ||| 4#32)) ∧ bit v 1 = true) ∧
    (∃ d : Dev, d.mgmt.ready = true) ∧
    (∃ (d : Dev), d.mgmt.ready = true ∧ bit (rd d.hw R.MGMT_CTRL) 1 = true) ∧
    (∃ d : Dev, d.mgmt.i3c = true) ∧
    (∃ d : Dev, d.mgmt.ready = true) :=
  ⟨⟨{ upDev with hw.regs := upRegs [(R.MGMT_CTRL, 1#32)], mgmt.ready := true }, by decide +kernel⟩,
   ⟨{ upDev with hw.regs := upRegs [(R.MGMT_CTRL, 1#32)], mgmt.ready := true }, 254, by decide +kernel⟩,
   ⟨{ upDev with hw.regs := upRegs [(R.MGMT_CTRL, 1#32)], mgmt.ready := true }, by decide +kernel⟩,
   ⟨{ upDev with hw.regs := upRegs [(R.MGMT_CTRL, 1#32)], mgmt.ready := true }, by decide +kernel⟩,
   ⟨{ upDev with hw.regs := upRegs [(R.MGMT_CTRL, 1#32)], mgmt.ready := true }, by decide +kernel⟩,
   ⟨{ upDev with hw.regs := upRegs [(R.MGMT_CTRL, 1#32)], mgmt.ready := true }, 5, List.replicate 4224 0#8, by decide +kernel⟩,
   ⟨{ upDev with hw.regs := upRegs [(R.MGMT_CTRL, 0#32)], mgmt.ready := true }, List.replicate 4224 0#8, by decide +kernel⟩,
   ⟨{ upDev with hw.regs := upRegs [(R.MGMT_CTRL, 1#32)], mgmt.ready := true, mgmt.rx := some { type := 5, src := 8, tag := 0, bytes := [] } },
     List.replicate 4224 0#8, by decide +kernel⟩,
   ⟨{ upDev with hw.regs := upRegs [(R.MGMT_CTRL, 1#32)], mgmt.ready := true }, by decide +kernel, 1, by decide +kernel⟩,
   ⟨{ upDev with hw.regs := upRegs [(R.MGMT_CTRL, 1#32)], mgmt.ready := true }, by decide +kernel, 1, by decide +kernel⟩,
   ⟨{ upDev with hw.regs := upRegs [(R.MGMT_CTRL, 1#32)], mgmt.ready := true, mgmt.cfg := [(2, 1)] }, by decide +kernel, 2, _, by decide +kernel, rfl⟩,
   ⟨{ upDev with hw.regs := upRegs [(R.MGMT_CTRL, 1#32)], mgmt.ready := true }, by decide +kernel, 64, by decide +kernel⟩,
   ⟨{ upDev with hw.regs := upRegs [(R.MGMT_CTRL, 1#32)], mgmt.ready := true }, by decide +kernel⟩,
   ⟨{ upDev with hw.regs := upRegs [(R.MGMT_CTRL, 1#32)], mgmt.ready := true }, by decide +kernel⟩,
   ⟨{ upDev with hw.regs := upRegs [(R.MGMT_CTRL, 1#32)], mgmt.ready := true }, by decide +kernel⟩,
   ⟨{ upDev with hw.regs := upRegs [(R.MGMT_CTRL, 1#32)], mgmt.ready := true }, 0, by decide +kernel⟩,
   ⟨{ upDev with hw.regs := upRegs [(R.MGMT_CTRL, 1#32)], mgmt.ready := true }, 0, 4224#32, by decide +kernel⟩,
   ⟨upDev, 0, 0#32, by decide +kernel⟩,
   ⟨{ upDev with hw.regs := upRegs [(R.MGMT_CTRL, 1#32)], mgmt.ready := true, mgmt.txBusy := true }, by decide +kernel⟩,
   ⟨{ upDev with hw.regs := upRegs [(R.MGMT_CTRL, 1#32)], mgmt.ready := true }, 0, 2#32, by decide +kernel⟩,
   ⟨{ upDev with hw.regs := upRegs [(R.MGMT_CTRL, 1#32)], mgmt.ready := true }, by decide +kernel⟩,
   ⟨{ upDev with hw.regs := upRegs [(R.MGMT_CTRL, 3#32)], mgmt.ready := true }, by decide +kernel⟩,
   ⟨{ upDev with hw.regs := upRegs [(R.MGMT_CTRL, 1#32)], mgmt.ready := true, mgmt.i3c := true }, by decide +kernel⟩,
   ⟨{ upDev with hw.regs := upRegs [(R.MGMT_CTRL, 1#32)], mgmt.ready := true }, by decide +kernel⟩⟩

/-- Devices and operands that meet the hypotheses of SpdmCommands, clause by clause. -/
theorem witness_SpdmCommands :
    (∃ d : Dev, d.fwServes ∧ ∃ v ∈ [0x10, 0x11, 0x12], 1 ≤ d.sec.spdmState) ∧
    (∃ d : Dev, d.fwServes ∧ 2 ≤ d.sec.spdmState) ∧
    (∃ d : Dev, d.fwServes ∧ 3 ≤ d.sec.spdmState ∧ ∃ (off : Nat), off ≤ certLen d) ∧
    (∃ d : Dev, d.fwServes ∧ 3 ≤ d.sec.spdmState ∧ d.sec.attestKey = true ∧ drbgReady d.sec = false ∧ ∃ (i : Nat), i ≤ 5) ∧
    (∃ d : Dev, d.fwServes ∧ 3 ≤ d.sec.spdmState ∧ ∃ (msg : List Byte), (d.sec.attestKey = true → drbgReady d.sec = true) ∧ msg = spdmMsg d 0x03 0 1
      (leBytes 48 (Config.sha384 (certBytes d 0 (certLen d))).toNat)) ∧
    (∃ d : Dev, d.fwServes ∧ 3 ≤ d.sec.spdmState ∧ ∃ (i : Nat) (msg : List Byte), 1 ≤ i ∧ i ≤ 5 ∧ msg = spdmMsg d 0x60 0 0 (leBytes 1 i ++ measurement
      d i) ∧ (d.sec.attestKey = true → drbgReady d.sec = true)) ∧
    (∃ d : Dev, d.fwServes ∧ d.sec.spdmState < 3) ∧
    (∃ (d : Dev) (c : Src), adminUp c d = true ∧ 3 ≤ d.sec.spdmState ∧ ∃ (msg : List Byte), msg = spdmMsg d 0x03 0 1 (leBytes 48 (Config.sha384
      (certBytes d 0 (certLen d))).toNat) ∧ d.sec.attestKey = true ∧ drbgReady d.sec = true) :=
  ⟨⟨{ upDev with hw.regs := upRegs [(R.MGMT_CTRL, 1#32)], mgmt.ready := true, sec.spdmState := 3 }, by decide +kernel, 0x12, by decide,
     by decide +kernel⟩,
   ⟨{ upDev with hw.regs := upRegs [(R.MGMT_CTRL, 1#32)], mgmt.ready := true, sec.spdmState := 3 }, by decide +kernel⟩,
   ⟨{ upDev with hw.regs := upRegs [(R.MGMT_CTRL, 1#32)], mgmt.ready := true, sec.spdmState := 3 }, by decide +kernel, by decide +kernel, 0,
     by decide +kernel⟩,
   ⟨{ upDev with hw.regs := upRegs [(R.MGMT_CTRL, 1#32)], mgmt.ready := true, sec.spdmState := 3 }, by decide +kernel, by decide +kernel,
     by decide +kernel, by decide +kernel, 5, by decide +kernel⟩,
   ⟨{ upDev with hw.regs := upRegs [(R.MGMT_CTRL, 1#32)], mgmt.ready := true, sec.spdmState := 3, sec.drbgOn := true, sec.attestKey := true },
     by decide +kernel, by decide +kernel, _, by decide +kernel, rfl⟩,
   ⟨{ upDev with hw.regs := upRegs [(R.MGMT_CTRL, 1#32)], mgmt.ready := true, sec.spdmState := 3, sec.drbgOn := true, sec.attestKey := true },
     by decide +kernel, by decide +kernel, 5, _, by decide +kernel, by decide +kernel, rfl, by decide +kernel⟩,
   ⟨{ upDev with hw.regs := upRegs [(R.MGMT_CTRL, 1#32)], mgmt.ready := true, sec.spdmState := 2 }, by decide +kernel⟩,
   ⟨{ upDev with hw.regs := upRegs [(R.MGMT_CTRL, 1#32)], mgmt.ready := true, sec.spdmState := 3, sec.drbgOn := true, sec.attestKey := true }, ⟨0, 0,
     7⟩, by decide +kernel, by decide +kernel, _, rfl, by decide +kernel⟩⟩

/-- Devices and operands that meet the hypotheses of TapCommands, clause by clause. -/
theorem witness_TapCommands :
    (∃ d : Dev, drbgReady d.sec = false) ∧
    (∃ d : Dev, drbgReady d.sec = true) ∧
    (∃ (d : Dev) (j : Jtag), j = { d.jtag with ir := 0x11, extest := false, clamp := false, highz := false } ∧ debugLocked d = true) ∧
    (∃ (d : Dev) (j : Jtag), j = { d.jtag with ir := 0x11, extest := false, clamp := false, highz := false } ∧ debugLocked d = false ∧ d.sec.verify ≠
      none) ∧
    (∃ (d : Dev) (j : Jtag), j = { d.jtag with ir := 0x11, extest := false, clamp := false, highz := false } ∧ debugLocked d = false ∧ d.sec.verify =
      none ∧ ∃ (e : Dev) (g : Debug), g = { d.sec.dbg with jtagChal := none } ∧ e = { d with sec := { d.sec with dbg := g }, jtag := j }) ∧
    (∃ (d : Dev) (v : Verify), d.sec.verify = some v ∧ v.jtag = true ∧ d.jtag.resp = none) ∧
    (∃ (d : Dev) (busy : Bool), (busy = true ↔ (∃ v, d.sec.verify = some v ∧ v.jtag = true) ∨ d.jtag.resp ≠ none)) ∧
    (∃ (d : Dev), d.sec.dbg.unlocked = false) ∧
    (∃ (d : Dev), d.sec.dbg.unlocked = true) :=
  ⟨⟨upDev, by decide +kernel⟩,
   ⟨{ upDev with sec.drbgOn := true }, by decide +kernel⟩,
   ⟨{ upDev with sec.dbg := { Sec.reset.dbg with failures := 3 } }, _, rfl, by decide +kernel⟩,
   ⟨{ upDev with hw.regs := upRegs [(R.COLLAR_CTRL, 0#32)], sec.verify := some { result := .ok, reason := 0, jtag := false } }, _, rfl,
     by decide +kernel⟩,
   ⟨upDev, _, rfl, by decide +kernel, by decide +kernel, _, _, rfl, rfl⟩,
   ⟨{ upDev with sec.verify := some { result := .ok, reason := 0, jtag := true } }, _, rfl, by decide +kernel⟩,
   ⟨{ upDev with sec.verify := some { result := .ok, reason := 0, jtag := true } }, true, ⟨fun _ => .inl ⟨_, rfl, rfl⟩, fun _ => rfl⟩⟩,
   ⟨upDev, by decide +kernel⟩,
   ⟨{ upDev with sec.dbg := { Sec.reset.dbg with unlocked := true } }, by decide +kernel⟩⟩

/-- Devices and operands that meet the hypotheses of EventCommands, clause by clause. -/
theorem witness_EventCommands :
    (∃ (d : Dev) (source code sev : Nat) (cont : Bool) (a0 a1 a2 : Word) (o : PostOut) (h : Hw), evPost d.hw source code sev cont a0 a1 a2 = (o, h) ∧
      source < 128) ∧
    (∃ (d : Dev) (source code sev : Nat) (cont : Bool) (a0 a1 a2 : Word) (o : PostOut) (h : Hw), evPost d.hw source code sev cont a0 a1 a2 = (o, h) ∧
      128 ≤ source) ∧
    (∃ (code : Nat), 511 < code) ∧
    (∃ (h : Hw) (code : Nat), code ≤ 511 ∧ h.ev.full = true) ∧
    (∃ (h : Hw) (code : Nat), code ≤ 511 ∧ h.ev.full = false ∧ bit (rd h R.EVREC_CTRL) 0 = false) ∧
    (∃ (h : Hw) (source : Nat) (code : Nat) (cont : Bool), code ≤ 511 ∧ h.ev.full = false ∧ bit (rd h R.EVREC_CTRL) 0 = true ∧ cont = true ∧ tabGetD
      h.ev.lastStored source false = false) ∧
    (∃ (h : Hw) (code : Nat) (cont : Bool), code ≤ 511 ∧ h.ev.full = false ∧ bit (rd h R.EVREC_CTRL) 0 = true ∧ cont = false ∧ (evBucket h code).rate
      = 0 ∧ h.ev.buf.length + (if h.ev.dropSince then 2 else 1) ≤ 2048) ∧
    (∃ (h : Hw) (code : Nat), code ≤ 511 ∧ h.ev.full = false ∧ bit (rd h R.EVREC_CTRL) 0 = true ∧ (evBucket h code).rate = 0 ∧ h.ev.dropSince = false
      ∧ h.ev.buf.length < 2048 ∧ h.ev.scanned = false) ∧
    (∃ (d : Dev) (m : Nat) (v : Word), d.lets (writeOf m R.EVREC_CTRL (v ||| 2#32)) ∧ ∃ h : Hw, h = wr d.hw R.EVREC_CTRL ((rd d.hw R.EVREC_CTRL &&&
      ~~~0x7701#32) ||| (v &&& 0x7701#32))) ∧
    (∃ (d : Dev) (m : Nat) (v : Word), d.lets (writeOf m R.EVREC_CTRL (v ||| 4#32)) ∧ ∃ h : Hw, h = evClear (wr d.hw R.EVREC_CTRL ((rd d.hw
      R.EVREC_CTRL &&& ~~~0x7701#32) ||| (v &&& 0x7701#32)))) ∧
    (∃ (d : Dev) (m c : Nat) (v : Word) (b : Bucket), d.lets (writeOf m R.EVREC_RL v) ∧ c = fld (rd d.hw R.EVREC_RL_SEL) 0 9 ∧ b = evBucket d.hw c) ∧
    (∃ d : Dev, d.hw.ev.scanned = true) ∧
    (∃ (d : Dev) (stop due : Bool) (h g : Hw), d.hw.ev.scanned = false ∧ stop = decide (8192 ≤ evUsed d.hw + d.hw.ev.buf.length) ∧ h = { d.hw with
      ev := { d.hw.ev with scanned := true, valid := evValid d.hw, full := stop } } ∧ g = (if stop then irq h irqEvrec 2 else h) ∧ (due = true ↔ (∃ e
      ∈ d.hw.ev.buf, fld (rd g R.EVREC_CTRL) 8 3 ≤ e.sev) ∨ (fld (rd g R.EVREC_WM) 0 12 ≠ 0 ∧ fld (rd g R.EVREC_WM) 0 12 ≤ d.hw.ev.buf.length) ∨ stop
      = true)) ∧
    (∃ h : Hw, h.ev.buf = []) ∧
    (∃ (h : Hw), evUsed h < 8192 ∧ rindLocked h.rind (144 + evUsed h / 2048) = false) :=
  ⟨⟨upDev, 0, 0, 0, false, 0#32, 0#32, 0#32, _, _, rfl, by decide +kernel⟩,
   ⟨upDev, 128, 0, 0, false, 0#32, 0#32, 0#32, _, _, rfl, by decide +kernel⟩,
   ⟨512, by decide +kernel⟩,
   ⟨upEv { EvState.init with full := true }, 511, by decide +kernel⟩,
   ⟨{ upDev.hw with regs := upRegs [(R.EVREC_CTRL, 0#32)] }, 511, by decide +kernel⟩,
   ⟨upDev.hw, 0, 511, true, by decide +kernel⟩,
   ⟨upEv { EvState.init with buckets := [(511, { Bucket.init with rate := 0 })], buf := List.replicate 2047 evr0 }, 511, false, by decide +kernel⟩,
   ⟨upEv { EvState.init with buckets := [(511, { Bucket.init with rate := 0 })], buf := List.replicate 2047 evr0 }, 511, by decide +kernel⟩,
   ⟨upDev, 0, 0#32, by decide +kernel, _, rfl⟩,
   ⟨upDev, 0, 0#32, by decide +kernel, _, rfl⟩,
   ⟨upDev, 0, _, 0#32, _, by decide +kernel, rfl, rfl⟩,
   ⟨{ upDev with hw.ev.scanned := true }, by decide +kernel⟩,
   ⟨upDev, _, false, _, _, by decide +kernel, rfl, rfl, rfl, by decide +kernel⟩,
   ⟨upDev.hw, by decide +kernel⟩,
   ⟨upDev.hw, by decide +kernel⟩⟩

/-- Devices and operands that meet the hypotheses of CareCommands, clause by clause. -/
theorem witness_CareCommands :
    (∃ d e : Dev, e = sjWrite (sjKey 1 0) (leBytes 8 d.aff.mtime) d) ∧
    (∃ d : Dev, d.aff.stamped = true) ∧
    (∃ d : Dev, d.aff.stamped = false ∧ d.aff.st ≠ 2 ∧ bit (rd d.hw R.AFFINEUR_CTRL) 0 = true) ∧
    (∃ (d : Dev) (m : Nat) (v : Word), d.lets (writeOf m R.AFFINEUR_CTRL (v ||| 2#32)) ∧ bit (rd d.hw R.AFFINEUR_CTRL) 0 = true ∧ bit v 0 = true ∧
      d.aff.st ≠ 2) ∧
    (∃ (d : Dev) (m : Nat) (v : Word), d.lets (writeOf m R.AFFINEUR_CTRL (v ||| 2#32)) ∧ bit (rd d.hw R.AFFINEUR_CTRL) 0 = true ∧ bit v 0 = true ∧
      d.aff.st = 2) ∧
    (∃ (d : Dev) (points spacing key : Nat) (rest : List Nat), (d.aff.st = 1 ∨ d.aff.st = 2) ∧ d.aff.todo = key :: rest ∧ inPopulation (blkGet d (key
      / 4096) (key % 4096)) = true ∧ sweepStatus points spacing = .ok) ∧
    (∃ (d : Dev), d.aff.st ≠ 1 ∧ d.aff.st ≠ 2) ∧
    (∃ (d : Dev) (key : Nat) (rest : List Nat), (d.aff.st = 1 ∨ d.aff.st = 2) ∧ d.aff.todo = key :: rest ∧ inPopulation (blkGet d (key / 4096) (key %
      4096)) = false) ∧
    (∃ (d : Dev) (points spacing key : Nat) (rest : List Nat), d.aff.reports = key :: rest ∧ sweepStatus points spacing = .ok ∧ inPopulation (blkGet d
      (key / 4096) (key % 4096)) = true) ∧
    (∃ (d : Dev) (key : Nat) (rest : List Nat), d.aff.reports = key :: rest ∧ inPopulation (blkGet d (key / 4096) (key % 4096)) = false) ∧
    (∃ (d : Dev) (old : Nat), (∀ q ∈ d.med.sbs, q.2.closed = true ∨ (q.2.type ≠ 1 ∧ q.2.type ≠ 2) ∨ q.2.opened + 604800 < old ∨ d.aff.mtime ≤
      q.2.opened + 604800)) ∧
    (∃ d : Dev, d.aff.todo = [] ∧ (∀ q ∈ d.fl.runs, q.2.serves ≠ .sample false) ∧ d.aff.st ≠ 0 ∧ d.aff.total ≠ 0) :=
  ⟨⟨{ upDev with aff.stamped := true }, _, rfl⟩,
   ⟨{ upDev with aff.stamped := true }, by decide +kernel⟩,
   ⟨{ upDev with hw.regs := upRegs [(R.AFFINEUR_CTRL, 1#32)] }, by decide +kernel⟩,
   ⟨{ upDev with hw.regs := upRegs [(R.AFFINEUR_CTRL, 1#32)] }, 0, 1#32, by decide +kernel⟩,
   ⟨{ upDev with hw.regs := upRegs [(R.AFFINEUR_CTRL, 1#32)], aff.st := 2 }, 0, 1#32, by decide +kernel⟩,
   ⟨{ upDev with aff.st := 2, aff.todo := [8191], med.blks := [(8191, blk0)] }, 15, 8, _, _, by decide +kernel, rfl, by decide +kernel⟩,
   ⟨{ upDev with aff.st := 0 }, by decide +kernel⟩,
   ⟨{ upDev with aff.st := 2, aff.todo := [8191] }, _, _, by decide +kernel, rfl, by decide +kernel⟩,
   ⟨{ upDev with aff.reports := [8191], med.blks := [(8191, blk0)] }, 3, 1, _, _, rfl, by decide +kernel⟩,
   ⟨{ upDev with aff.reports := [8191] }, _, _, rfl, by decide +kernel⟩,
   ⟨{ upDev with aff.st := 0 }, 0, by decide +kernel⟩,
   ⟨{ upDev with aff.st := 1, aff.total := 1 }, by decide +kernel⟩⟩

/-- Devices and operands that meet the hypotheses of LearningAndRefreshCommands, clause by clause, but for those on a free value, which nothing decides. -/
theorem witness_LearningAndRefreshCommands :
    (∃ (d : Dev) (i : Nat), i < 256 ∧ ((batchGet d i).n < 4 ∨ fld (rd d.hw R.AFFINEUR_LEARN) 8 8 = 0)) ∧
    (∃ (d : Dev) (i dom : Nat), i < 256 ∧ 4 ≤ (batchGet d i).n ∧ fld (rd d.hw R.AFFINEUR_LEARN) 8 8 ≠ 0 ∧ entGate d 26 i = some dom) ∧
    (∃ (d d1 : Dev) (i : Nat) (q : Option (List Byte)), i < 256 ∧ 4 ≤ (batchGet d i).n ∧ fld (rd d.hw R.AFFINEUR_LEARN) 8 8 ≠ 0 ∧ entGate d 26 i =
      none ∧ affSlot i d = (q, d1) ∧ q.bind entSelect = none) ∧
    (∃ (d d1 f : Dev) (i : Nat) (slot e : List Byte) (ms : List (Nat × Int × Bool)), i < 256 ∧ 4 ≤ (batchGet d i).n ∧ fld (rd d.hw R.AFFINEUR_LEARN) 8
      8 ≠ 0 ∧ entGate d 26 i = none ∧ ms = ((batchGet d i).counts.filter (fun c => decide (c.2 ≠ 0))).map (fun c => (c.1, offMove (sbyteAt e (15 +
      c.1)) (sbyteAt (facEntry d i) (15 + c.1)) (tabGetD (batchGet d i).sums c.1 0) c.2)) ∧ f = entStore i slot e (entMoved e (facEntry d i) (ms.foldl
      (fun t m => tabPut t m.1 m.2.1) []) (batchGet d i).n d.aff.mtime) { d1 with aff := { d1.aff with batches := tabDel d1.aff.batches i } }) ∧
    (∃ d : Dev, (d.aff.learnDirty = false ∨ d.boot.trial = true ∨ rindLocked d.hw.rind (if d.aff.learnCopy then 132 else 131) = true ∨ d.hw.time.toNat
      < d.aff.learnSaved.toNat + 2160000000000)) ∧
    (∃ d : Dev, d.aff.learnDirty = true ∧ d.boot.trial = false ∧ rindLocked d.hw.rind (if d.aff.learnCopy then 132 else 131) = false ∧
      d.aff.learnSaved.toNat + 2160000000000 ≤ d.hw.time.toNat) ∧
    (∃ d : Dev, (bit (rd d.hw R.AFFINEUR_CTRL) 0 = false ∨ capAllows d 2 = false ∨ flushing d = true)) ∧
    (∃ d : Dev, bit (rd d.hw R.AFFINEUR_CTRL) 0 = true ∧ capAllows d 2 = true ∧ flushing d = false) ∧
    (∃ d : Dev, tabRising d.aff.daily = true) ∧
    (∃ (old : Int) (fac : Int), fac - 24 ≤ old ∧ old ≤ fac + 24 ∧ -128 ≤ old ∧ old ≤ 127) ∧
    (∃ (d : Dev) (x : RefEnt) (s : Sb) (zk : Nat) (z : Zone), (tabGetD d.med.blks x.blk Blk.init).type = 1 ∧ sbGet d (tabGetD d.med.blks x.blk
      Blk.init).sb = some s ∧ zoneOfSb d (tabGetD d.med.blks x.blk Blk.init).sb = some (zk, z) ∧ z.secure = none) ∧
    (∃ (d : Dev) (x : RefEnt) (s : Sb), (tabGetD d.med.blks x.blk Blk.init).type = 2 ∧ sbGet d (tabGetD d.med.blks x.blk Blk.init).sb = some s ∧
      liveUnits d (tabGetD d.med.blks x.blk Blk.init).sb = []) ∧
    (∃ (d : Dev) (x : RefEnt), (tabGetD d.med.blks x.blk Blk.init).type = 4) ∧
    (∃ (d : Dev) (x : RefEnt), (tabGetD d.med.blks x.blk Blk.init).type = 6) ∧
    (∃ (d : Dev) (x : RefEnt), (tabGetD d.med.blks x.blk Blk.init).type = 7) :=
  ⟨⟨upDev, 255, by decide +kernel⟩,
   ⟨{ upDev with
     hw.regs := upRegs [(R.AFFINEUR_LEARN, 0x400#32), (R.DET_BIN_BASE_LO, 0x10000000#32)], aff.batches := [(255,
       { n := 4, since := 0#64, sums := [(31, 2)], counts := [(31, 4)], outliers := 0 })], pwr.doms := upDoms [(91, { Dom.init with st := .ret })] },
     255, 91, by decide +kernel⟩,
   ⟨{ upDev with
     hw.regs := upRegs [(R.AFFINEUR_LEARN, 0x400#32), (R.DET_BIN_BASE_LO, 0x20000000#32)], aff.batches := [(255,
       { n := 4, since := 0#64, sums := [(31, 2)], counts := [(31, 4)], outliers := 0 })], hw.mem := memZero Mem.init 0x20000000 0x20008000 }, _, 255,
     _, by decide +kernel, by decide +kernel, by decide +kernel, by decide +kernel, rfl, by decide +kernel⟩,
   ⟨{ upDev with
     hw.regs := upRegs [(R.AFFINEUR_LEARN, 0x400#32), (R.DET_BIN_BASE_LO, 0x20000000#32)], aff.batches := [(255,
       { n := 4, since := 0#64, sums := [(31, 2)], counts := [(31, 4)], outliers := 0 })] }, upDev, _, 255, [], binRec, _, by decide +kernel,
     by decide +kernel, by decide +kernel, by decide +kernel, rfl, rfl⟩,
   ⟨{ upDev with aff.learnDirty := true }, by decide +kernel⟩,
   ⟨{ upDev with aff.learnDirty := true, hw.time := 2160000000000#64 }, by decide +kernel⟩,
   ⟨upDev, by decide +kernel⟩,
   ⟨{ upDev with hw.regs := upRegs [(R.AFFINEUR_CTRL, 1#32)] }, by decide +kernel⟩,
   ⟨{ upDev with aff.daily := [(0, [1])] }, by decide +kernel⟩,
   ⟨0, 0, by decide +kernel⟩,
   ⟨{ upDev with
     med.blks := [(8191, { blk0 with type := 1, sb := 1 })], med.sbs := [(1, sb0)], ten.zones := [(zkey 1 0, { Zone.init with sb := 1 })] },
     { blk := 8191, urgent := false, cross := none }, _, _, _, by decide +kernel, rfl, rfl, by decide +kernel⟩,
   ⟨{ upDev with med.blks := [(8191, { blk0 with type := 2, sb := 1 })], med.sbs := [(1, sb0)] }, { blk := 8191, urgent := false, cross := none }, _,
     by decide +kernel, rfl, by decide +kernel⟩,
   ⟨{ upDev with med.blks := [(8191, { blk0 with type := 4 })] }, { blk := 8191, urgent := false, cross := none }, by decide +kernel⟩,
   ⟨{ upDev with med.blks := [(8191, { blk0 with type := 6 })] }, { blk := 8191, urgent := false, cross := none }, by decide +kernel⟩,
   ⟨{ upDev with med.blks := [(8191, { blk0 with type := 7, sb := 1 })], med.sbs := [(1, sb0)] }, { blk := 8191, urgent := false, cross := none },
     by decide +kernel⟩⟩

/-- Devices and operands that meet the hypotheses of ChannelCommands, clause by clause. -/
theorem witness_ChannelCommands :
    (∃ (d : Dev) (m n i : Nat) (v : Word), d.lets (writeOf m (R.FCH_PROF n i) v) ∧ n < chCount d.fuse ∧ i < 1024 ∧ bit (rd d.hw (R.FCH_CTRL n)) 0 =
      false) ∧
    (∃ (d : Dev) (m n i : Nat) (v : Word), d.lets (writeOf m (R.FCH_PROF n i) v) ∧ n < chCount d.fuse ∧ i < 1024 ∧ bit (rd d.hw (R.FCH_CTRL n)) 0 =
      true) ∧
    (∃ (d : Dev) (m n : Nat) (v : Word), d.lets (writeOf m (R.FCH_CTRL n) (v ||| 1#32)) ∧ n < chCount d.fuse) ∧
    (∃ (d : Dev) (m n : Nat) (v : Word), d.lets (writeOf m (R.FCH_CTRL n) (v ||| 4#32)) ∧ n < chCount d.fuse) ∧
    (∃ (d : Dev) (m n : Nat) (v : Word), d.lets (writeOf m (R.FCH_DRIVE n) v) ∧ n < chCount d.fuse) ∧
    (∃ (d : Dev) (die : Nat), die < 32 * chCount d.fuse) ∧
    (∃ (d : Dev) (die : Nat), die < 32 * chCount d.fuse) ∧
    (∃ (d : Dev) (n : Nat), n < chCount d.fuse ∧ (domOn d.pwr (n + 1) = false ∨ bit (rd d.hw (R.FCH_CTRL n)) 3 = false ∨ fld (rd d.hw (R.FCH_TRAIN n))
      0 8 = 0)) ∧
    (∃ (d e : Dev) (n : Nat), n < chCount d.fuse ∧ domOn d.pwr (n + 1) = true ∧ bit (rd d.hw (R.FCH_CTRL n)) 3 = true ∧ fld (rd d.hw (R.FCH_TRAIN n))
      0 8 ≠ 0 ∧ e = ([0, 1, 2, 3].filter (fun ce => !(targetDies d n ce).isEmpty)).foldl (fun x ce => busUse (32 * n + 8 * ce) [.zqShort] x) d) ∧
    (∃ (d : Dev) (n : Nat), n < chCount d.fuse) ∧
    (∃ (d x : Dev) (n : Nat), x = (if domOn d.pwr (n + 1) then [0, 1, 2, 3].foldl (fun y ce => retrainCe n ce y) d else d)) ∧
    (∃ (d : Dev) (n ce : Nat), (chanGet d n).trained.getLsbD ce = false) ∧
    (∃ (d : Dev) (n ce : Nat), (chanGet d n).trained.getLsbD ce = true) ∧
    (∃ (f : Dev → Dev) (d : Dev), (∀ q ∈ (f d).fl.dies, q.2.rq = [] ∨ dieCode d q.1 = dieCode (f d) q.1) ∧ (∀ q ∈ (f d).fl.runs, q.2.st ≠ .again)) ∧
    (∃ d : Dev, (∀ q ∈ d.ten.zones, isActive q.2.st = false)) ∧
    (∃ d : Dev, (∀ q ∈ d.med.sbs, q.2.type ≠ 3)) ∧
    (∃ (d : Dev) (b : Dev) (die : Nat), b = busUse die [.readStatus] d ∧ ∃ r, pollBarred d (chOf die) = false ∧ (dieGet d die).arr = some r ∧
      r.suspended = false) ∧
    (∃ (d : Dev) (b : Dev) (die : Nat), b = busUse die [.readStatus] d) ∧
    (∃ (d : Dev) (e : Dev) (die : Nat) (r : ArrRun), (dieGet d die).arr = some r ∧ r.suspended = false ∧ e = diePut d die { dieGet d die with
      arr := none } ∧ ∃ j, r.op = .program ∧ r.job = some j) ∧
    (∃ (d : Dev) (e : Dev) (die : Nat) (r : ArrRun), (dieGet d die).arr = some r ∧ r.suspended = false ∧ e = diePut d die { dieGet d die with
      arr := none } ∧ ∃ j, r.op = .erase ∧ r.job = some j) ∧
    (∃ (d : Dev) (e : Dev) (die : Nat) (r : ArrRun), (dieGet d die).arr = some r ∧ r.suspended = false ∧ e = diePut d die { dieGet d die with
      arr := none }) ∧
    (∃ (again : Bool) (j : FJob), j.serves = .erase again) ∧
    (∃ (d e : Dev) (die b : Nat), e = blkPut d die b { Blk.init with erases := (blkGet d die b).erases + 1, urgents := (blkGet d die b).urgents }) ∧
    (∃ (d : Dev) (run : Nat) (x : Run), runGet d run = some x) ∧
    (∃ (d : Dev) (die : Nat), timedOut d (dieGet d die) = false) ∧
    (∃ (d : Dev) (die : Nat) (r : ArrRun) (j : FJob) (ts : List Nat), timedOut d (dieGet d die) = true ∧ (dieGet d die).arr = some r ∧ r.suspended =
      false ∧ r.op = .erase ∧ r.last = false ∧ r.job = some j ∧ j.serves = .erase false ∧ (dieGet d die).returning = none ∧ ts = (dieGet d
      die).timeouts.filter (fun t => decide (d.hw.time.toNat < t + day)) ++ [d.hw.time.toNat]) :=
  ⟨⟨upDev, 0, 47, 1023, 0#32, by decide +kernel⟩,
   ⟨{ upDev with hw.regs := upRegs [(R.FCH_CTRL 47, 1#32)] }, 0, 47, 1023, 0#32, by decide +kernel⟩,
   ⟨upDev, 0, 47, 0#32, by decide +kernel⟩,
   ⟨upDev, 0, 47, 0#32, by decide +kernel⟩,
   ⟨upDev, 0, 47, 0#32, by decide +kernel⟩,
   ⟨upDev, 1535, by decide +kernel⟩,
   ⟨upDev, 0, by decide +kernel⟩,
   ⟨{ upDev with hw.regs := upRegs [(R.FCH_TRAIN 47, 0#32)] }, 47, by decide +kernel⟩,
   ⟨{ upDev with hw.regs := upRegs [(R.FCH_CTRL 47, 8#32), (R.FCH_TRAIN 47, 0x01000001#32)] }, _, 47, by decide +kernel, by decide +kernel,
     by decide +kernel, by decide +kernel, rfl⟩,
   ⟨upDev, 47, by decide +kernel⟩,
   ⟨upDev, _, 47, rfl⟩,
   ⟨upDev, 47, 0, by decide +kernel⟩,
   ⟨{ upDev with fl.chans := [(47, { Chan.init with trained := 8#4 })] }, 47, 3, by decide +kernel⟩,
   ⟨fun d => d, upDev, by decide +kernel⟩,
   ⟨upDev, by decide +kernel⟩,
   ⟨upDev, by decide +kernel⟩,
   ⟨{ upDev with hw.regs := upRegs [(R.AFFINEUR_WEAR, 0x10000#32)], fl.dies := [(1535, { Die.init with arr := some arr0 })] }, _, 1535, rfl, _,
     by decide +kernel, rfl, by decide +kernel⟩,
   ⟨upDev, _, 1535, rfl⟩,
   ⟨{ upDev with fl.dies := [(1535, { Die.init with arr := some { arr0 with op := .program } })] }, _, 1535, _, rfl, by decide +kernel, rfl, _,
     by decide +kernel, rfl⟩,
   ⟨{ upDev with hw.regs := upRegs [(R.AFFINEUR_WEAR, 0x10000#32)], fl.dies := [(1535, { Die.init with arr := some arr0 })] }, _, 1535, _, rfl,
     by decide +kernel, rfl, _, by decide +kernel, rfl⟩,
   ⟨{ upDev with hw.regs := upRegs [(R.AFFINEUR_WEAR, 0x10000#32)], fl.dies := [(1535, { Die.init with arr := some arr0 })] }, _, 1535, _, rfl,
     by decide +kernel, rfl⟩,
   ⟨false, fj0, by decide +kernel⟩,
   ⟨upDev, _, 1535, 0, rfl⟩,
   ⟨{ upDev with fl.runs := [(5, run0)] }, 5, _, rfl⟩,
   ⟨upDev, 1535, by decide +kernel⟩,
   ⟨{ upDev with fl.dies := [(1535, { Die.init with arr := some { arr0 with ran := 1000000000000 } })] }, 1535, _, _, _, by decide +kernel, rfl,
     by decide +kernel, by decide +kernel, by decide +kernel, rfl, by decide +kernel, by decide +kernel, rfl⟩⟩

/-- Devices and operands that meet the hypotheses of PowerTokenCommands, clause by clause. -/
theorem witness_PowerTokenCommands :
    (∃ (d : Dev) (die : Nat), die < 32 * chCount d.fuse ∧ (dieGet d die).pq = []) ∧
    (∃ (d : Dev) (die : Nat), die < 32 * chCount d.fuse ∧ (dieGet d die).pq ≠ [] ∧ domOn d.pwr (chOf die + 1) = false) ∧
    (∃ (d : Dev) (die : Nat) (j : FJob) (js : List FJob), die < 32 * chCount d.fuse ∧ (dieGet d die).pq = j :: js ∧ domOn d.pwr (chOf die + 1) = true
      ∧ (chanRuns d (chOf die) = false ∨ j.asked = true ∨ j.token = true ∨ jobMay d die = false ∨ capAllows d (jobTraffic d j) = false)) ∧
    (∃ (d : Dev) (die : Nat) (j : FJob) (js : List FJob), die < 32 * chCount d.fuse ∧ (dieGet d die).pq = j :: js ∧ domOn d.pwr (chOf die + 1) = true
      ∧ chanRuns d (chOf die) = true ∧ j.asked = false ∧ j.token = false ∧ jobMay d die = true ∧ capAllows d (jobTraffic d j) = true) ∧
    (∃ d : Dev, d.fl.pacer.wait = []) ∧
    (∃ (d : Dev) (die t : Nat) (rest : List (Nat × Nat)), d.fl.pacer.wait = (die, t) :: rest ∧ (∀ j js, (dieGet d die).pq = j :: js → j.asked =
      false)) ∧
    (∃ (d : Dev) (die t : Nat) (rest : List (Nat × Nat)) (j : FJob) (js : List FJob), d.fl.pacer.wait = (die, t) :: rest ∧ (dieGet d die).pq = j :: js
      ∧ j.asked = true) ∧
    (∃ (d : Dev) (m : Nat) (v : Word), d.lets (writeOf m R.FCH_PACE_LIMIT v)) ∧
    (∃ (d : Dev) (m : Nat) (v : Word), d.lets (writeOf m R.FCH_PACE_BRINGUP (v ||| 0x80000000#32)) ∧ fld v 8 8 = 0) ∧
    (∃ (d : Dev) (m : Nat) (v : Word), d.lets (writeOf m R.FCH_PACE_BRINGUP (v ||| 0x80000000#32)) ∧ fld v 8 8 ≠ 0) ∧
    (∃ (d : Dev) (n : Nat), n < chCount d.fuse ∧ (chanGet d n).pauseOver = true) ∧
    (∃ (d : Dev) (n : Nat), n < chCount d.fuse ∧ (chanGet d n).pauseOver = false) ∧
    (∃ d : Dev, d.fl.pacer.waves = []) ∧
    (∃ (d e : Dev) (ws : List Nat), d.fl.pacer.waves ≠ [] ∧ ws = d.fl.pacer.waves.take (waveSize d) ∧ e = ws.foldl (fun x n => waveDie n x) { d with
      fl := { d.fl with
        pacer := { d.fl.pacer with
          waves := d.fl.pacer.waves.drop (waveSize d), nextWave := d.fl.pacer.nextWave + BitVec.ofNat 64 (fld (rd d.hw R.FCH_PACE_BRINGUP) 0 8 * 25) }
          } }) ∧
    (∃ (d : Dev) (n : Nat), (dieGet d n).returning = none ∧ (dieGet d n).arr = none) ∧
    (∃ (d e : Dev) (n : Nat), (dieGet d n).returning ≠ none ∧ e = profReload (chOf n) d) :=
  ⟨⟨upDev, 0, by decide +kernel⟩,
   ⟨{ upDev with fl.dies := [(1535, { Die.init with pq := [fj0] })], pwr.doms := upDoms [(48, { Dom.init with st := .off })] }, 1535,
     by decide +kernel⟩,
   ⟨{ upDev with fl.dies := [(1535, { Die.init with pq := [fj0] })] }, 1535, _, _, by decide +kernel, rfl, by decide +kernel⟩,
   ⟨{ upDev with hw.regs := upRegs [(R.FCH_CTRL 47, 1#32)], fl.dies := [(1535, { Die.init with pq := [fj0] })] }, 1535, _, _, by decide +kernel, rfl,
     by decide +kernel⟩,
   ⟨upDev, by decide +kernel⟩,
   ⟨{ upDev with fl.pacer := { Flash.reset.pacer with wait := [(1535, 0)] }, fl.dies := [(1535, { Die.init with pq := [] })] }, _, _, _, rfl,
     by intro j js h; cases h⟩,
   ⟨{ upDev with fl.pacer := { Flash.reset.pacer with wait := [1535] }, fl.dies := [(1535, { Die.init with pq := [{ fj0 with asked := true }] })] },
     _, _, _, _, _, rfl, rfl, by decide +kernel⟩,
   ⟨upDev, 0, 0#32, by decide +kernel⟩,
   ⟨upDev, 0, 0#32, by decide +kernel⟩,
   ⟨upDev, 0, 0x100#32, by decide +kernel⟩,
   ⟨upDev, 47, by decide +kernel⟩,
   ⟨{ upDev with fl.chans := [(47, { Chan.init with pauseOver := false })] }, 47, by decide +kernel⟩,
   ⟨upDev, by decide +kernel⟩,
   ⟨{ upDev with fl.pacer := { Flash.reset.pacer with waves := [1535] } }, _, _, by decide +kernel, rfl, rfl⟩,
   ⟨upDev, 47, by decide +kernel⟩,
   ⟨{ upDev with fl.dies := [(1535, { Die.init with returning := some 0 })] }, _, 1535, by decide +kernel, rfl⟩⟩

/-- Devices and operands that meet the hypotheses of DetectorCommands, clause by clause. -/
theorem witness_DetectorCommands :
    (∃ (d : Dev) (n : Nat) (ctx : Nat), n < detCount d.fuse ∧ ctx < 4) ∧
    (∃ (d : Dev) (m : Nat) (v : Word), d.lets (writeOf m R.DET_BIN_INVAL v)) ∧
    (∃ (d e : Dev) (m n : Nat) (v : Word), d.lets (writeOf m (R.DET_CTRL n) (v ||| 2#32)) ∧ n < 24 ∧ e = { d with
      hw := md d.hw (R.DET_CTRL n) (fun w => putBit w 0 (if bit v 0 = true ∧ bpcOk d.hw = false then detEn d n else bit v 0)) }) ∧
    (∃ (d : Dev) (n : Nat), n < detCount d.fuse ∧ ((detGet d n).testing = false ∨ domOn d.pwr (n + 49) = false)) ∧
    (∃ (d : Dev) (n : Nat), n < detCount d.fuse ∧ (detGet d n).testing = true ∧ domOn d.pwr (n + 49) = true ∧ (detGet d n).returning = false) ∧
    (∃ (d : Dev) (n : Nat), n < detCount d.fuse ∧ (detGet d n).testing = true ∧ domOn d.pwr (n + 49) = true ∧ (detGet d n).returning = true) ∧
    (∃ (d e : Dev) (m n : Nat) (v : Word), d.lets (writeOf m (R.DET_CTRL n) v) ∧ n < 24 ∧ e = { d with
      hw := md d.hw (R.DET_CTRL n) (fun w => putBit w 0 (if bit v 0 = true ∧ bpcOk d.hw = false then detEn d n else bit v 0)) }) ∧
    (∃ (d : Dev) (m : Nat) (v : Word), d.lets (writeOf m R.DET_PROF v)) ∧
    (∃ (d : Dev) (r : Nat) (x : Run), d.fl.ctxWait.find? (fun r =>
      match runGet d r with | some x => (match x.det with | some (n, _) => (detGate d n x.bin).isNone | none => false) | none => false) = some r ∧
      runGet d r = some x) ∧
    (∃ d : Dev, (∀ r ∈ d.fl.ctxWait, ∀ x, runGet d r = some x → x.det = none) ∧ ∃ r rest x, ctxAsks d = r :: rest ∧ runGet d r = some x ∧ ∃ n, detPick
      d (chOf x.loc.die) x.avoid = some n ∧ ∃ dom, detGate d n x.bin = some dom) ∧
    (∃ d : Dev, (∀ r ∈ d.fl.ctxWait, ∀ x, runGet d r = some x → x.det = none) ∧ ∃ r rest x, ctxAsks d = r :: rest ∧ runGet d r = some x ∧ ∃ n, detPick
      d (chOf x.loc.die) x.avoid = some n) ∧
    (∃ d : Dev, (∀ r ∈ d.fl.ctxWait, ∀ x, runGet d r = some x → x.det = none) ∧ ∃ r rest x, ctxAsks d = r :: rest ∧ runGet d r = some x) ∧
    (∃ d : Dev, (∀ r ∈ d.fl.ctxWait, ∀ x, runGet d r = some x → x.det = none)) ∧
    (∃ (d : Dev) (r n c : Nat) (x : Run) (e : List Byte) (d1 : Dev), runGet d r = some x ∧ x.det = some (n, c) ∧ detGate d n x.bin = none ∧ detLoad n
      x.bin d = (e, d1)) ∧
    (∃ (d : Dev) (n : Nat) (ctx : Nat) (r : Nat) (x : Run), tabGet (detGet d n).ctx ctx = some r ∧ runGet d r = some x) ∧
    (∃ (x : Run), runMode x ≠ 0) ∧
    (∃ (d : Dev) (n r ctx : Nat) (x : Run), runGet d r = some x ∧ x.det = some (n, ctx)) :=
  ⟨⟨upDev, 23, 0, by decide +kernel⟩,
   ⟨upDev, 0, 0#32, by decide +kernel⟩,
   ⟨{ upDev with hw.regs := upRegs [(R.DET_PROF, 5#32)] }, _, 0, 23, 0#32, by decide +kernel, by decide +kernel, rfl⟩,
   ⟨upDev, 23, by decide +kernel⟩,
   ⟨{ upDev with fl.dets := [(23, { Det.init with testing := true, returning := false })] }, 23, by decide +kernel⟩,
   ⟨{ upDev with fl.dets := [(23, { Det.init with testing := true, returning := true })] }, 23, by decide +kernel⟩,
   ⟨upDev, _, 0, 23, 0#32, by decide +kernel, by decide +kernel, rfl⟩,
   ⟨upDev, 0, 0#32, by decide +kernel⟩,
   ⟨{ upDev with hw.regs := upRegs [(R.DET_CTRL 0, 1#32)], fl.ctxWait := [5], fl.runs := [(5, { run0 with det := some (0, 0) })] }, 5,
     { run0 with det := some (0, 0) }, by decide +kernel⟩,
   ⟨{ upDev with
     hw.regs := upRegs [(R.DET_CTRL 0, 1#32), (R.DET_PROF, 5#32), (R.DET_BIN_BASE_LO, 0x10000000#32)], fl.ctxWait := [5], fl.runs := [(5, run0)],
     pwr.doms := upDoms [(91, { Dom.init with st := .ret })] }, by intro r hr y hy; simp at hr; subst hr; cases hy; rfl, _, _, _, rfl, rfl, _, rfl, _,
     rfl⟩,
   ⟨{ upDev with
     hw.regs := upRegs [(R.DET_CTRL 0, 1#32), (R.DET_PROF, 5#32), (R.DET_BIN_BASE_LO, 0x10000000#32)], fl.ctxWait := [5], fl.runs := [(5, run0)] },
     by intro r hr y hy; simp at hr; subst hr; cases hy; rfl, _, _, _, rfl, rfl, _, rfl⟩,
   ⟨{ upDev with
     hw.regs := upRegs [(R.DET_CTRL 0, 1#32), (R.DET_PROF, 5#32), (R.DET_BIN_BASE_LO, 0x10000000#32)], fl.ctxWait := [5], fl.runs := [(5, run0)] },
     by intro r hr y hy; simp at hr; subst hr; cases hy; rfl, _, _, _, rfl, rfl⟩,
   ⟨upDev, by decide +kernel⟩,
   ⟨{ upDev with fl.runs := [(5, { run0 with det := some (23, 3) })], fl.dets := [(23, { Det.init with cache := [(0, [])] })] }, 5, _, _, _, _, _,
     rfl, rfl, by decide +kernel, rfl⟩,
   ⟨{ upDev with fl.dets := [(23, { Det.init with ctx := [(3, 5)] })], fl.runs := [(5, { run0 with st := .detecting, step := 1 })] }, 23, 3, _, _,
     rfl, rfl⟩,
   ⟨{ run0 with step := 3 }, by decide +kernel⟩,
   ⟨{ upDev with fl.runs := [(5, { run0 with det := some (23, 3) })] }, 23, 5, 3, _, rfl, by decide +kernel⟩⟩

/-- Devices and operands that meet the hypotheses of DecodeCommands, clause by clause. -/
theorem witness_DecodeCommands :
    (∃ (d : Dev) (p : Nat), p < packCount d.fuse ∧ (bit (rd d.hw R.XORU_CTRL) 0 = false ∨ domOn d.pwr 95 = false ∨ (tabGetD d.med.rebuilds p
      Rebuild.none).left = [] ∨ rebuildEarly d p (tabGetD d.med.rebuilds p Rebuild.none) = true)) ∧
    (∃ (d : Dev) (p : Nat) (sb : Nat) (k : Nat) (q : Rebuild) (rest : List (Nat × Nat)) (s : Sb) (c : Copy), p < packCount d.fuse ∧ bit (rd d.hw
      R.XORU_CTRL) 0 = true ∧ domOn d.pwr 95 = true ∧ tabGet d.med.rebuilds p = some q ∧ rebuildEarly d p q = false ∧ q.left = (sb, k) :: rest ∧ sbGet
      d sb = some s ∧ tabGet d.med.copies (uk sb k) = some c) ∧
    (∃ (d : Dev) (run : Nat) (x : Run), runGet d run = some x ∧ (x.st ≠ .decoding ∨ bit (rd d.hw R.LDPC_CTRL) 0 = false ∨ decReady d x = false)) ∧
    (∃ (d d1 : Dev) (run fix : Nat) (x : Run), runGet d run = some x ∧ x.st = .decoding ∧ bit (rd d.hw R.LDPC_CTRL) 0 = true ∧ decReady d x = true ∧
      d1 = runPut { d with hw := md d.hw R.LDPC_ECC (fun w => bumpFld w 16 16 fix) } run { x with dec := none } ∧ ∃ sb row member last, x.serves =
      .raw sb row member last) ∧
    (∃ (d d1 : Dev) (run fix : Nat) (x : Run), runGet d run = some x ∧ x.st = .decoding ∧ bit (rd d.hw R.LDPC_CTRL) 0 = true ∧ decReady d x = true ∧
      d1 = runPut { d with hw := md d.hw R.LDPC_ECC (fun w => bumpFld w 16 16 fix) } run { x with dec := none } ∧ ∃ tag i, x.serves = .host tag i) ∧
    (∃ (d d1 : Dev) (run fix : Nat) (x : Run), runGet d run = some x ∧ x.st = .decoding ∧ bit (rd d.hw R.LDPC_CTRL) 0 = true ∧ decReady d x = true ∧
      d1 = runPut { d with hw := md d.hw R.LDPC_ECC (fun w => bumpFld w 16 16 fix) } run { x with dec := none }) ∧
    (∃ (x : Run) (tag : Nat) (i : Nat), x.serves = .host tag i) ∧
    (∃ (d : Dev) (e : Dev) (tag : Nat) (i : Nat) (data : Nat) (depth : Nat) (good : Bool) (o : Op) (p : Op), tabGet d.host.ops tag = some o ∧ p = { o with
      runs := o.runs - 1, depth := max o.depth depth, bad := if good then o.bad else some
        (match o.bad with | some b => min b (o.lba + i) | none => o.lba + i), out := if good then o.out.set i data else o.out } ∧ e = { d with
      host := { d.host with ops := tabPut d.host.ops tag p } } ∧ ∃ lba, p.runs = 0 ∧ p.bad = some lba) ∧
    (∃ (d : Dev) (e : Dev) (tag : Nat) (i : Nat) (data : Nat) (depth : Nat) (good : Bool) (o : Op) (p : Op), tabGet d.host.ops tag = some o ∧ p = { o with
      runs := o.runs - 1, depth := max o.depth depth, bad := if good then o.bad else some
        (match o.bad with | some b => min b (o.lba + i) | none => o.lba + i), out := if good then o.out.set i data else o.out } ∧ e = { d with
      host := { d.host with ops := tabPut d.host.ops tag p } }) :=
  ⟨⟨upDev, 2, by decide +kernel⟩,
   ⟨{ upDev with
     hw.regs := upRegs [(R.XORU_CTRL, 1#32)], med.rebuilds := [(2, { left := [(1, 0), (1, 1)], done := 0, lost := 0, lastAt := none })], med.sbs :=
       [(1, sb0)], med.copies := [(uk 1 0, cp0)] }, 2, _, _, _, _, _, _, by decide +kernel, by decide +kernel, by decide +kernel, rfl,
     by decide +kernel, rfl, rfl, rfl⟩,
   ⟨{ upDev with hw.regs := upRegs [(R.LDPC_CTRL, 1#32)], fl.runs := [(5, { run0 with st := .decoding })] }, 5, _, rfl, by decide +kernel⟩,
   ⟨{ upDev with hw.regs := upRegs [(R.LDPC_CTRL, 1#32)], fl.runs := [(5, { run0 with st := .decoding, dec := some 0, serves := .raw 1 0 0 true })] },
     _, 5, 0, _, rfl, by decide +kernel, by decide +kernel, by decide +kernel, rfl, 1, 0, 0, true, by decide +kernel⟩,
   ⟨{ upDev with hw.regs := upRegs [(R.LDPC_CTRL, 1#32)], fl.runs := [(5, { run0 with st := .decoding, dec := some 0 })] }, _, 5, 0, _, rfl,
     by decide +kernel, by decide +kernel, by decide +kernel, rfl, 1, 0, by decide +kernel⟩,
   ⟨{ upDev with hw.regs := upRegs [(R.LDPC_CTRL, 1#32)], fl.runs := [(5, { run0 with st := .decoding, dec := some 0, serves := .scan })] }, _, 5, 0,
     _, rfl, by decide +kernel, by decide +kernel, by decide +kernel, rfl⟩,
   ⟨run0, 1, 0, by decide +kernel⟩,
   ⟨{ upDev with host.ops := [(1, { op0 with runs := 1 })] }, _, 1, 0, 0, 0, false, _, _, rfl, rfl, rfl, _, by decide +kernel, rfl⟩,
   ⟨{ upDev with
     hw.regs := upRegs [(R.LDPC_CTRL, 1#32)], fl.runs := [(5, { run0 with st := .decoding })], host.ops := [(1, { op0 with runs := 2 })] }, _, 1, 0,
     0, 0, false, _, _, rfl, rfl, rfl⟩⟩

/-- Devices and operands that meet the hypotheses of MapCommands, clause by clause. -/
theorem witness_MapCommands :
    (∃ (d : Dev), d.med.jr.pairs = []) ∧
    (∃ (d : Dev) (q : LanePair) (qs : List LanePair), d.med.jr.pairs = q :: qs) ∧
    (∃ (d : Dev) (seg : Nat), seg ∉ d.med.mapu.rebuild) ∧
    (∃ (d : Dev) (seg : Nat), seg ∈ d.med.mapu.rebuild) ∧
    (∃ (d : Dev) (m : Nat) (v w : Word) (c : Instr), (c = .mapuEnable m v ∧ w = v ||| 1#32 ∨ c = .mapuRekey m v ∧ w = v ||| 2#32 ∨ c =
      .mapuJflushWrite m v ∧ w = v ||| 4#32) ∧ d.lets (writeOf m R.MAPU_CTRL w)) ∧
    (∃ d : Dev, d.med.mapu.sweeping = false) ∧
    (∃ d : Dev, d.med.mapu.sweeping = true) ∧
    (∃ (d : Dev) (zk : Nat) (t : Nat), (zoneGet d zk).moving = some t ∧ movedOnMedia d t (zoneGet d zk).wp = true ∧ (zoneGet d zk).secure = none ∧
      (nsGet d (zk / 1048576)).isSome = true) ∧
    (∃ (d : Dev) (zk : Nat), ((zoneGet d zk).moving = none ∨ (zoneGet d zk).secure.isSome = true ∨ ∃ t, (zoneGet d zk).moving = some t ∧ movedOnMedia
      d t (zoneGet d zk).wp = false)) ∧
    (∃ (d : Dev) (nsid : Nat) (lba : Nat), (∀ m ∈ d.med.moves, m.gc = true → ∀ u ∈ m.units, u.1 ≠ mk nsid lba)) ∧
    (∃ (d e : Dev) (nsid lba k : Nat) (lost : Bool) (m : Move) (c : Copy), e = gcSwitch nsid lba lost d ∧ d.med.moves.find? (fun m => m.gc &&
      m.units.any (fun u => decide (u.1 = mk nsid lba))) = some m ∧ m.units.find? (fun u => decide (u.1 = mk nsid lba)) = some (mk nsid lba, k) ∧
      (tabGet d.med.copies (uk m.source k) = some c ∨ tabGet d.med.copies (uk m.source k) = none ∧ tabGet d.med.staged (uk m.source k) = some c) ∧ ∃
      w, tabGet d.med.mapu.map (mk nsid lba) = some (.media w m.source k)) ∧
    (∃ (d e : Dev) (nsid lba k : Nat) (lost : Bool) (m : Move) (c : Copy), e = gcSwitch nsid lba lost d ∧ d.med.moves.find? (fun m => m.gc &&
      m.units.any (fun u => decide (u.1 = mk nsid lba))) = some m ∧ m.units.find? (fun u => decide (u.1 = mk nsid lba)) = some (mk nsid lba, k) ∧
      (tabGet d.med.copies (uk m.source k) = some c ∨ tabGet d.med.copies (uk m.source k) = none ∧ tabGet d.med.staged (uk m.source k) = some c) ∧ ∃
      o, o ≠ mk nsid lba) ∧
    (∃ (d e : Dev) (nsid lba k : Nat) (lost : Bool) (m : Move) (c : Copy), e = gcSwitch nsid lba lost d ∧ d.med.moves.find? (fun m => m.gc &&
      m.units.any (fun u => decide (u.1 = mk nsid lba))) = some m ∧ m.units.find? (fun u => decide (u.1 = mk nsid lba)) = some (mk nsid lba, k) ∧
      (tabGet d.med.copies (uk m.source k) = some c ∨ tabGet d.med.copies (uk m.source k) = none ∧ tabGet d.med.staged (uk m.source k) = some c)) ∧
    (∃ (d : Dev) (seg : Nat), ∃ s, tabGet d.med.mapu.seals seg = some s) ∧
    (∃ (d : Dev) (seg : Nat), ∃ (r : Nat) (x : Run), runGet d r = some x ∧ x.st = .queued ∧ (∃ n, nsGet d x.nsid = some n ∧ n.zoned = false) ∧ segOf d
      x.nsid x.lba = seg) ∧
    (∃ d : Dev, bit (rd d.hw R.MAPU_CTRL) 0 = false) ∧
    (∃ d : Dev, bit (rd d.hw R.MAPU_CTRL) 0 = true) ∧
    (∃ d : Dev, bit (rd d.hw R.MAPU_CTRL) 0 = false) ∧
    (∃ d : Dev, bit (rd d.hw R.MAPU_CTRL) 0 = true ∧ d.med.mapu.sweeping = false ∧ (d.med.mapu.st = 2 ∨ d.med.mapu.st = 4)) ∧
    (∃ d : Dev, (d.med.mapu.sweeping = true ∨ bit (rd d.hw R.MAPU_CTRL) 0 = false ∨ (d.med.mapu.st ≠ 2 ∧ d.med.mapu.st ≠ 4))) :=
  ⟨⟨upDev, by decide +kernel⟩,
   ⟨{ upDev with med.jr.pairs := [{ no := 0, dieA := 0, blkA := 0, dieB := 32, blkB := 0, firstJ := 0 }] }, _, _, rfl⟩,
   ⟨upDev, 7, by decide +kernel⟩,
   ⟨{ upDev with med.mapu.rebuild := [7] }, 7, by decide +kernel⟩,
   ⟨upDev, 0, 0#32, 1#32, .mapuEnable 0 0#32, by decide +kernel⟩,
   ⟨upDev, by decide +kernel⟩,
   ⟨{ upDev with med.mapu.sweeping := true }, by decide +kernel⟩,
   ⟨{ upDev with
     ten.zones := [(zkey 1 1048575, { Zone.init with moving := some 9, st := .full })], ten.namespaces := [(1, ns0)], med.sbs := [(9, sb0)] }, zkey 1
     1048575, _, rfl, by decide +kernel⟩,
   ⟨upDev, 0, by decide +kernel⟩,
   ⟨{ upDev with
     med.moves := [{ source := 1, target := 2, zone := none, units := [(mk 1 0, 0), (mk 1 1, 1)], gc := true }], med.copies := [(uk 1 0, cp0)],
     med.sbs := [(1, sb0), (2, sb0)] }, 1, 5, by intro m hm _; simp at hm; subst hm; decide +kernel⟩,
   ⟨{ upDev with
     med.moves := [{ source := 1, target := 2, zone := none, units := [(mk 1 0, 0), (mk 1 1, 1)], gc := true }], med.copies := [(uk 1 0, cp0)],
     med.sbs := [(1, sb0), (2, sb0)], med.mapu.map := [(mk 1 0, .media 3 1 0)] }, _, 1, 0, 0, false,
     { source := 1, target := 2, zone := none, units := [(mk 1 0, 0), (mk 1 1, 1)], gc := true }, cp0, rfl, by decide +kernel, by decide +kernel,
     by decide +kernel, 3, by decide +kernel⟩,
   ⟨{ upDev with
     med.moves := [{ source := 1, target := 2, zone := none, units := [(mk 1 0, 0), (mk 1 1, 1)], gc := true }], med.copies := [(uk 1 0, cp0)],
     med.sbs := [(1, sb0), (2, sb0)] }, _, 1, 0, 0, false,
     { source := 1, target := 2, zone := none, units := [(mk 1 0, 0), (mk 1 1, 1)], gc := true }, cp0, rfl, by decide +kernel, by decide +kernel,
     by decide +kernel, mk 1 1, by decide +kernel⟩,
   ⟨{ upDev with
     med.moves := [{ source := 1, target := 2, zone := none, units := [(mk 1 0, 0), (mk 1 1, 1)], gc := true }], med.copies := [(uk 1 0, cp0)],
     med.sbs := [(1, sb0), (2, sb0)] }, _, 1, 0, 0, false,
     { source := 1, target := 2, zone := none, units := [(mk 1 0, 0), (mk 1 1, 1)], gc := true }, cp0, rfl, by decide +kernel⟩,
   ⟨{ upDev with med.mapu.seals := [(7, { version := 1, gen := 1, tag := 0, image := [], bad := false })] }, 7, _, rfl⟩,
   ⟨{ upDev with ten.namespaces := [(1, { ns0 with zoned := false })], fl.runs := [(5, run0)] }, 0, 5, _, rfl, by decide +kernel, ⟨_, rfl,
     by decide +kernel⟩, by decide +kernel⟩,
   ⟨upDev, by decide +kernel⟩,
   ⟨{ upDev with hw.regs := upRegs [(R.MAPU_CTRL, 1#32)] }, by decide +kernel⟩,
   ⟨upDev, by decide +kernel⟩,
   ⟨{ upDev with hw.regs := upRegs [(R.MAPU_CTRL, 1#32)], med.mapu.st := 2 }, by decide +kernel⟩,
   ⟨upDev, by decide +kernel⟩⟩

/-- Devices and operands that meet the hypotheses of JournalCommands, clause by clause. -/
theorem witness_JournalCommands :
    (∃ (d : Dev) (n : Nat), n = fld (rd d.hw R.MAPU_JCTRL) 0 16) ∧
    (∃ d : Dev, d.med.jr.flushing = none) ∧
    (∃ (d : Dev) (rs : List JRec), d.med.jr.flushing = some rs) ∧
    (∃ d : Dev, (d.med.recovered = true ∨ tabGet d.pwr.cores 0 = none)) ∧
    (∃ d : Dev, d.med.recovered = false ∧ tabGet d.pwr.cores 0 ≠ none) ∧
    (∃ (d : Dev) (rs : List JRec), d.med.jr.flushing = some rs) ∧
    (∃ d : Dev, d.med.jr.flushing = none ∧ jRoomless d = false) ∧
    (∃ d : Dev, d.med.jr.flushing = none ∧ jRoomless d = true) ∧
    (∃ (d : Dev) (f : Nat), f = fld (rd d.hw R.MAPU_JCTRL) 24 8) ∧
    (∃ d : Dev, volCurrent d = none) ∧
    (∃ (d : Dev) (r : Replica), volCurrent d = some r ∧ ((volTake d).med.volGen = r.gen ∧ (volTake d).med.volCreated = r.created ∧ (volTake
      d).med.volUuid = r.uuid ∧ (volTake d).med.volume = r.volume ∧ replicaOk d r = true ∧ ∀ q ∈ d.med.replicas, replicaOk d q.2 = true)) ∧
    (∃ d : Dev, d.med.volUnknown = true) ∧
    (∃ d : Dev, d.med.volUnknown = false) :=
  ⟨⟨{ upDev with med.jr.flushing := some [] }, _, rfl⟩,
   ⟨upDev, by decide +kernel⟩,
   ⟨{ upDev with med.jr.flushing := some [] }, _, rfl⟩,
   ⟨{ upDev with med.recovered := true }, by decide +kernel⟩,
   ⟨upDev, by decide +kernel⟩,
   ⟨{ upDev with med.jr.flushing := some [] }, _, rfl⟩,
   ⟨{ upDev with med.jr.area := 1 }, by decide +kernel⟩,
   ⟨{ upDev with
     med.jr.area := 1, med.jr.pairs := [{ no := 0, dieA := 0, blkA := 0, dieB := 32, blkB := 0, firstJ := 0 }], med.jr.opened := 0, med.jr.buf :=
       List.replicate 512 (jrReset 1 0 0 false) }, by decide +kernel⟩,
   ⟨{ upDev with med.jr.flushing := some [] }, _, rfl⟩,
   ⟨upDev, by decide +kernel⟩,
   ⟨{ upDev with
     med.replicas := [(0, { die := 0, block := 0, wl := 0, gen := 3, created := 9, uuid := 1, volume := [(0, [0x45#8, 0x57#8, 0x5A#8, 0x56#8])] })] },
     { die := 0, block := 0, wl := 0, gen := 3, created := 9, uuid := 1, volume := [(0, [0x45#8, 0x57#8, 0x5A#8, 0x56#8])] }, by decide +kernel⟩,
   ⟨{ upDev with med.volUnknown := true }, by decide +kernel⟩,
   ⟨upDev, by decide +kernel⟩⟩

/-- Devices and operands that meet the hypotheses of ScheduleCommands, clause by clause. -/
theorem witness_ScheduleCommands :
    (∃ (d : Dev) (k kib : Nat) (c : IoCmd) (x : Kennel), x = kenFill d.hw.time.toNat (kenOf d k) ∧ kib =
      (match c.op with | .write | .append | .writeZeroes => c.nlb * 4 | _ => 0)) ∧
    (∃ d : Dev, (∀ h ∈ heads d, h.2.2.2 ≠ 0)) ∧
    (∃ d : Dev, (∀ h ∈ heads d, (kenOf d h.2.1).cls < 4) ∧ (∃ h ∈ heads d, h.2.2.2 = 0)) ∧
    (∃ (last : Nat) (xs : List Nat), ∃ y, nextAfter last xs = some y ∧ ∃ x ∈ xs, last < x) ∧
    (∃ (last : Nat) (xs : List Nat), ∃ y, nextAfter last xs = some y) ∧
    (∃ (hs : List (Nat × Nat × QCmd × Nat)), (∀ h ∈ hs, h.2.2.2 = 0 ∨ 5 < h.2.2.2 ∨ h.2.2.1.held = true)) ∧
    (∃ (d d1 : Dev) (qk p fn k : Nat) (q : QCmd), p = qk / 65536 / 64 ∧ fn = qk / 65536 % 64 ∧ k = fnKennel d p fn ∧ d1 = kenTake k q.cmd { d with
      host := { d.host with
        queues := tabMod d.host.queues qk [] List.tail, rrQueue := tabPut d.host.rrQueue k qk, rrKennel := tabPut d.host.rrKennel (kenOf d k).cls k }
        } ∧ ∃ st, admitCheck d1 p fn k q.cmd = .inl st) ∧
    (∃ (d d1 : Dev) (qk p fn k : Nat) (q : QCmd), p = qk / 65536 / 64 ∧ fn = qk / 65536 % 64 ∧ k = fnKennel d p fn ∧ d1 = kenTake k q.cmd { d with
      host := { d.host with
        queues := tabMod d.host.queues qk [] List.tail, rrQueue := tabPut d.host.rrQueue k qk, rrKennel := tabPut d.host.rrKennel (kenOf d k).cls k }
        } ∧ ∃ (victim : Option Nat) (n : Ns), admitCheck d1 p fn k q.cmd = .inr victim ∧ nsGet d1 q.cmd.nsid = some n) ∧
    (∃ (d d1 : Dev) (qk p fn k : Nat) (q : QCmd), p = qk / 65536 / 64 ∧ fn = qk / 65536 % 64 ∧ k = fnKennel d p fn ∧ d1 = kenTake k q.cmd { d with
      host := { d.host with
        queues := tabMod d.host.queues qk [] List.tail, rrQueue := tabPut d.host.rrQueue k qk, rrKennel := tabPut d.host.rrKennel (kenOf d k).cls k }
        }) ∧
    (∃ (d : Dev) (k : Nat) (x : Kennel), x = kenFill d.hw.time.toNat (kenOf d k)) ∧
    (∃ (victim : Option Nat), victim = none) :=
  ⟨⟨{ upDev with host.queues := [(1, [{ cmd := io0, doorbell := 0#64, held := false }])], med.recovered := true }, 0, _, io0, _, rfl, rfl⟩,
   ⟨upDev, by decide +kernel⟩,
   ⟨{ upDev with
     hw.regs := upRegs [(R.HERDER_CTRL, 1#32)], host.queues := [(1, [{ cmd := io0, doorbell := 0#64, held := false }])], med.recovered := true,
     host.stopped := false, ten.namespaces := [(1, { ns0 with zoned := false })] }, by decide +kernel⟩,
   ⟨5, [5, 9], _, rfl, 9, by decide, by decide +kernel⟩,
   ⟨5, [5], _, rfl⟩,
   ⟨[], by decide⟩,
   ⟨{ upDev with
     host.queues := [(1, [{ cmd := io0, doorbell := 0#64, held := false }])], med.recovered := true, ten.namespaces := [(1,
       { ns0 with zoned := false, attached := [] })] }, _, 1, _, _, _, { cmd := io0, doorbell := 0#64, held := false }, rfl, rfl, rfl, rfl, _, rfl⟩,
   ⟨{ upDev with
     host.queues := [(1, [{ cmd := io0, doorbell := 0#64, held := false }])], med.recovered := true, ten.namespaces := [(1,
       { ns0 with zoned := false })] }, _, 1, _, _, _, { cmd := io0, doorbell := 0#64, held := false }, rfl, rfl, rfl, rfl, _, _, rfl, rfl⟩,
   ⟨{ upDev with host.queues := [(1, [{ cmd := io0, doorbell := 0#64, held := false }])], med.recovered := true }, _, 1, _, _, _,
     { cmd := io0, doorbell := 0#64, held := false }, rfl, rfl, rfl, rfl⟩,
   ⟨upDev, 0, _, rfl⟩,
   ⟨none, by decide +kernel⟩⟩

/-- Devices and operands that meet the hypotheses of DieSchedulingCommands, clause by clause. -/
theorem witness_DieSchedulingCommands :
    (∃ (d : Dev) (die : Nat), die < 32 * chCount d.fuse) ∧
    (∃ (d : Dev) (die r : Nat) (rs : List Nat), (dieGet d die).rq = r :: rs ∧ (∀ q ∈ r :: rs, sampleStale d q = false) ∧ (∀ q ∈ r :: rs, ∀ x, runGet d
      q = some x → x.step = 0 → sameRun d q x = none) ∧ (dieUp d die = true ∨ (dieGet d die).st = 3) ∧ domOn d.pwr (chOf die + 1) = true ∧ chanRuns d
      (chOf die) = false) ∧
    (∃ (d : Dev) (die r : Nat) (rs : List Nat), (dieGet d die).rq = r :: rs ∧ (∀ q ∈ r :: rs, sampleStale d q = false) ∧ (∀ q ∈ r :: rs, ∀ x, runGet d
      q = some x → x.step = 0 → sameRun d q x = none) ∧ (dieUp d die = true ∨ (dieGet d die).st = 3) ∧ domOn d.pwr (chOf die + 1) = true ∧ chanRuns d
      (chOf die) = true) ∧
    (∃ (d : Dev) (die : Nat), die < 32 * chCount d.fuse) ∧
    (∃ (d : Dev) (die : Nat), die < 32 * chCount d.fuse ∧ (dieGet d die).pq = []) ∧
    (∃ (d : Dev) (die n : Nat) (j : FJob) (js : List FJob), die < 32 * chCount d.fuse ∧ (dieGet d die).pq = j :: js ∧ n = fld (rd d.hw R.HERDER_PWAIT)
      0 16) ∧
    (∃ (d : Dev) (die : Nat), die < 32 * chCount d.fuse) ∧
    (∃ (d : Dev) (die : Nat), die < 32 * chCount d.fuse ∧ (∀ a, (dieGet d die).arr = some a → a.suspended = false)) ∧
    (∃ (d : Dev) (die : Nat) (a : ArrRun), die < 32 * chCount d.fuse ∧ (dieGet d die).arr = some a ∧ a.suspended = true) ∧
    (∃ (d : Dev) (tag : Nat), (∀ o, tabGet d.host.ops tag = some o → o.st ≠ .ready ∨ o.ciphered = false)) ∧
    (∃ (d e : Dev) (tag : Nat) (o : Op) (bs : List Nat), tabGet d.host.ops tag = some o ∧ o.st = .ready ∧ o.ciphered = true ∧ (bs, e) = (if o.bufs =
      [] then bufsTake o.port o.cmd.nlb d else (o.bufs, d)) ∧ bs = []) ∧
    (∃ (d e : Dev) (tag : Nat) (o : Op) (bs : List Nat), tabGet d.host.ops tag = some o ∧ o.st = .ready ∧ o.ciphered = true ∧ (bs, e) = (if o.bufs =
      [] then bufsTake o.port o.cmd.nlb d else (o.bufs, d)) ∧ bs ≠ []) ∧
    (∃ (d : Dev) (tag : Nat), (∀ o, tabGet d.host.ops tag = some o → o.st ≠ .staging ∨ o.ciphered = false)) ∧
    (∃ (d : Dev) (tag : Nat) (o : Op) (n : Ns), tabGet d.host.ops tag = some o ∧ o.st = .staging ∧ o.ciphered = true ∧ nsGet d o.cmd.nsid = some n) ∧
    (∃ (d : Dev) (die : Nat), die < 32 * chCount d.fuse) ∧
    (∃ (d : Dev) (die : Nat) (j : FJob) (js : List FJob), (dieGet d die).pq = j :: js ∧ j.token = true ∧ chanRuns d (chOf die) = true ∧ pauseFree d
      (chOf die) = true ∧ spaced d (packOf die) = true ∧ jobMay d die = true ∧ encReady d j = true) ∧
    (∃ (d : Dev) (die : Nat), (∀ j js, (dieGet d die).pq = j :: js → j.token = false ∨ jobMay d die = false ∨ spaced d (packOf die) = false ∨ chanRuns
      d (chOf die) = false ∨ pauseFree d (chOf die) = false ∨ encReady d j = false)) ∧
    (∃ (d : Dev) (die : Nat), (dieGet d die).rq = []) ∧
    (∃ (d : Dev) (die : Nat) (qs : List (Nat × Run)) (guard : Bool), qs = (dieGet d die).rq.filterMap (fun r => (runGet d r).map (fun x => (r, x))) ∧
      guard = ((dieGet d die).guard && !hasS0 d (dieGet d die))) ∧
    (∃ (d : Dev) (r : Nat) (x : Run), runGet d r = some x ∧ needsBin (prof d) x = false) ∧
    (∃ (d : Dev) (r : Nat) (x : Run), pickPath d r x = .wait) ∧
    (∃ (d : Dev) (die : Nat), (∀ a, (dieGet d die).arr = some a → a.suspending = false)) ∧
    (∃ (d : Dev) (die : Nat) (a : ArrRun), (dieGet d die).arr = some a ∧ a.suspending = true) ∧
    (∃ (d : Dev) (die : Nat) (a : ArrRun), (dieGet d die).arr = some a ∧ a.suspended = true ∧ (dieGet d die).reading = [] ∧ (a.due = true ∨ ∀ r ∈
      (dieGet d die).rq, ∀ x, runGet d r = some x → mayRead d die r x = false)) ∧
    (∃ (d : Dev) (die : Nat) (a : ArrRun), (dieGet d die).arr = some a ∧ (a.suspended = false ∨ (dieGet d die).reading ≠ [] ∨ (a.due = false ∧ ∃ r ∈
      (dieGet d die).rq, ∃ x, runGet d r = some x ∧ mayRead d die r x = true))) ∧
    (∃ (d : Dev) (tag : Nat) (o : Op), tabGet d.host.ops tag = some o) ∧
    (∃ (d : Dev), (∀ q ∈ d.host.ops, q.2.st ≠ .staged)) ∧
    (∃ (d : Dev) (die r : Nat) (rs : List Nat), (dieGet d die).rq = r :: rs ∧ (∀ q ∈ r :: rs, sampleStale d q = false) ∧ (∀ q ∈ r :: rs, ∀ x, runGet d
      q = some x → x.step = 0 → sameRun d q x = none) ∧ ∃ x, dieUp d die = false ∧ (dieGet d die).st ≠ 3 ∧ runGet (rqLeave r die d) r = some x ∧ (∃
      tag i, x.serves = .host tag i)) :=
  ⟨⟨upDev, 1535, by decide +kernel⟩,
   ⟨{ upDev with
     fl.dies := [(1535, { Die.init with rq := [5] })], fl.runs := [(5,
       { run0 with st := .queued, loc := { die := 1535, block := 0, wl := 0, page := 0, plane := 3, slot := 0 } })] }, 1535, 5, [], by decide +kernel,
     by decide +kernel, by intro r' hr y hy; simp at hr; subst hr; cases hy; decide +kernel, by decide +kernel⟩,
   ⟨{ upDev with
     hw.regs := upRegs [(R.FCH_CTRL 47, 1#32)], fl.dies := [(1535, { Die.init with rq := [5] })], fl.runs := [(5,
       { run0 with st := .queued, loc := { die := 1535, block := 0, wl := 0, page := 0, plane := 3, slot := 0 } })] }, 1535, 5, [], by decide +kernel,
     by decide +kernel, by intro r' hr y hy; simp at hr; subst hr; cases hy; decide +kernel, by decide +kernel⟩,
   ⟨upDev, 1535, by decide +kernel⟩,
   ⟨upDev, 1535, by decide +kernel⟩,
   ⟨{ upDev with fl.dies := [(1535, { Die.init with pq := [fj0] })] }, 1535, _, _, _, by decide +kernel, rfl, rfl⟩,
   ⟨{ upDev with fl.dies := [(1535, { Die.init with arr := some arr0 })] }, 1535, by decide +kernel⟩,
   ⟨upDev, 1535, by decide +kernel⟩,
   ⟨{ upDev with fl.dies := [(1535, { Die.init with arr := some { arr0 with suspended := true } })] }, 1535, _, by decide +kernel, rfl,
     by decide +kernel⟩,
   ⟨upDev, 9, by intro o ho; cases ho⟩,
   ⟨{ upDev with host.ops := [(9, { op0 with st := .ready, ciphered := true })] }, (bufsTake 0 1 ({ upDev with
     host.ops := [(9, { op0 with st := .ready, ciphered := true })] })).2, 9, { op0 with st := .ready, ciphered := true }, [], rfl, by decide +kernel,
     by decide +kernel, Prod.ext (by decide +kernel) rfl, by decide +kernel⟩,
   ⟨{ upDev with host.ops := [(9, { op0 with st := .ready, ciphered := true, bufs := [0x10000000] })] },
     ({ upDev with host.ops := [(9, { op0 with st := .ready, ciphered := true, bufs := [0x10000000] })] }), 9,
     { op0 with st := .ready, ciphered := true, bufs := [0x10000000] }, [0x10000000], rfl, by decide +kernel, by decide +kernel, rfl,
     by decide +kernel⟩,
   ⟨upDev, 9, by intro o ho; cases ho⟩,
   ⟨{ upDev with host.ops := [(9, { op0 with st := .staging, ciphered := true })], ten.namespaces := [(1, ns0)] }, 9, _, _, rfl, by decide +kernel,
     by decide +kernel, rfl⟩,
   ⟨upDev, 1535, by decide +kernel⟩,
   ⟨{ upDev with hw.regs := upRegs [(R.FCH_CTRL 47, 1#32)], fl.dies := [(1535, { Die.init with pq := [{ fj0 with token := true }] })] }, 1535, _, _,
     rfl, by decide +kernel⟩,
   ⟨{ upDev with fl.dies := [(1535, { Die.init with pq := [] })] }, 1535, by intro j js h; cases h⟩,
   ⟨upDev, 1535, by decide +kernel⟩,
   ⟨{ upDev with
     hw.regs := upRegs [(R.FCH_CTRL 47, 1#32)], fl.dies := [(1535, { Die.init with rq := [5], arr := some arr0 })], fl.runs := [(5,
       { run0 with st := .queued, loc := { die := 1535, block := 0, wl := 0, page := 0, plane := 3, slot := 0 } })] }, 1535, _, _, rfl, rfl⟩,
   ⟨{ upDev with fl.runs := [(5, { run0 with step := 0 })] }, 5, { run0 with step := 0 }, by decide +kernel⟩,
   ⟨upDev, 0, { run0 with deadline := 1000000 }, by decide +kernel⟩,
   ⟨{ upDev with fl.dies := [(1535, { Die.init with arr := some arr0 })] }, 1535, by decide +kernel⟩,
   ⟨{ upDev with fl.dies := [(1535, { Die.init with arr := some { arr0 with suspending := true } })] }, 1535, _, rfl, by decide +kernel⟩,
   ⟨{ upDev with fl.dies := [(1535, { Die.init with arr := some { arr0 with suspended := true } })] }, 1535, _, rfl, by decide +kernel⟩,
   ⟨{ upDev with fl.dies := [(1535, { Die.init with arr := some arr0 })] }, 1535, _, rfl, by decide +kernel⟩,
   ⟨{ upDev with host.ops := [(9, { op0 with st := .staging, ciphered := true })] }, 9, _, rfl⟩,
   ⟨upDev, by decide +kernel⟩,
   ⟨{ upDev with
     fl.dies := [(1535, { Die.init with rq := [5], st := 2 })], fl.runs := [(5,
       { run0 with st := .queued, loc := { die := 1535, block := 0, wl := 0, page := 0, plane := 3, slot := 0 } })] }, 1535, 5, [], by decide +kernel,
     by intro q hq; simp at hq; subst hq; decide +kernel, by intro r' hr y hy; simp at hr; subst hr; cases hy; decide +kernel, _, by decide +kernel,
     by decide +kernel, rfl, ⟨1, 0, rfl⟩⟩⟩

/-- Devices and operands that meet the hypotheses of DataCommands, clause by clause. -/
theorem witness_DataCommands :
    (∃ (d : Dev) (tag : Nat), tabGet d.host.ops tag = none) ∧
    (∃ (d : Dev) (tag : Nat) (o : Op), tabGet d.host.ops tag = some o ∧ o.cmd.op = .read) ∧
    (∃ (d : Dev) (tag : Nat) (o : Op), tabGet d.host.ops tag = some o ∧ o.cmd.op = .verify) ∧
    (∃ (d : Dev) (tag : Nat) (o : Op), tabGet d.host.ops tag = some o ∧ o.cmd.op = .write) ∧
    (∃ (d : Dev) (tag : Nat) (o : Op), tabGet d.host.ops tag = some o ∧ o.cmd.op = .append) ∧
    (∃ (d : Dev) (tag : Nat) (o : Op), tabGet d.host.ops tag = some o ∧ o.cmd.op = .writeZeroes) ∧
    (∃ (d : Dev) (tag : Nat) (o : Op), tabGet d.host.ops tag = some o ∧ o.cmd.op = .deallocate) ∧
    (∃ (d : Dev) (tag : Nat) (o : Op), tabGet d.host.ops tag = some o ∧ o.cmd.op = .secureDiscard) ∧
    (∃ (d : Dev) (tag : Nat) (v gone : Bool) (o : Op) (n : Ns), tabGet d.host.ops tag = some o ∧ nsGet d o.cmd.nsid = some n ∧ o.st = .admitted ∧
      o.cmd.op = (if v then .verify else .read) ∧ readWaits d tag n o = false ∧ gone = (List.range o.cmd.nlb).any (fun i =>
      match lbaAt d o.cmd.nsid (o.lba + i) with | .flash _ _ c | .dram c => keyGone d n o c | _ => false) ∧ readOffline d n o = false ∧ readKey d n o
      = none ∧ (n.zoned = true ∨ mapReady d n = true) ∧ gone = true) ∧
    (∃ (d : Dev) (tag : Nat) (op : IoOp) (o : Op), tabGet d.host.ops tag = some o ∧ o.cmd.op = op) ∧
    (∃ (d : Dev) (tag : Nat) (v : Bool) (o : Op) (n : Ns), tabGet d.host.ops tag = some o ∧ nsGet d o.cmd.nsid = some n ∧ (o.st ≠ .admitted ∨ o.cmd.op
      ≠ (if v then .verify else .read) ∨ readWaits d tag n o = true)) ∧
    (∃ (d : Dev) (i : Nat) (o : Op), lbaAt d o.cmd.nsid (o.lba + i) = .zeros) ∧
    (∃ (d : Dev) (i : Nat) (o : Op) (c : Copy), lbaAt d o.cmd.nsid (o.lba + i) = .dram c) ∧
    (∃ (d e : Dev) (tag i sb k : Nat) (o : Op) (c : Copy) (s : Sb) (x : Run), lbaAt d o.cmd.nsid (o.lba + i) = .flash sb k c ∧ sbGet d sb = some s ∧ x
      = { runAt d (.host tag i) (locAny d s k) sb k o.cls o.deadline (sbSlc s) with
      lba := o.lba + i, nsid := o.cmd.nsid, kennel := o.kennel, data := c.data, lost := c.lost, seqLo :=
        match nsGet d o.cmd.nsid with | some n => if n.zoned then none else some (entSeq (mapAt d o.cmd.nsid (o.lba + i)) % 65536) | none => none } ∧
      e = runPut { opMod tag (fun q => { q with runs := q.runs + 1 }) d with fl := { d.fl with nextRun := d.fl.nextRun + 1 } } d.fl.nextRun x) ∧
    (∃ (d : Dev) (nsid lba : Nat) (n : Ns), nsGet d nsid = some n ∧ n.zoned = true ∧ ((zoneGet d (zkey nsid (lba / n.zsze))).secure.isSome = true ∨
      (zoneGet d (zkey nsid (lba / n.zsze))).wp ≤ lba % n.zsze ∨ (zoneGet d (zkey nsid (lba / n.zsze))).zcap ≤ lba % n.zsze)) ∧
    (∃ (d : Dev) (nsid lba : Nat) (n : Ns), nsGet d nsid = some n ∧ n.zoned = false ∧ looseAt d nsid lba = none) ∧
    (∃ (d : Dev) (e : Dev) (tag : Nat) (o : Op), tabGet d.host.ops tag = some o ∧ e = bufsFree o.port o.bufs { d with
      host := { d.host with ops := tabDel d.host.ops tag } }) ∧
    (∃ d : Dev, (∀ c ∈ d.host.hmbWait, homeOps d c.port = true)) ∧
    (∃ (d : Dev) (tag : Nat) (v gone : Bool) (o : Op) (n : Ns), tabGet d.host.ops tag = some o ∧ nsGet d o.cmd.nsid = some n ∧ o.st = .admitted ∧
      o.cmd.op = (if v then .verify else .read) ∧ readWaits d tag n o = false ∧ gone = (List.range o.cmd.nlb).any (fun i =>
      match lbaAt d o.cmd.nsid (o.lba + i) with | .flash _ _ c | .dram c => keyGone d n o c | _ => false) ∧ ∃ st, readOffline d n o = false ∧ readKey
      d n o = some st) :=
  ⟨⟨upDev, 0, by decide +kernel⟩,
   ⟨{ upDev with host.ops := [(9, { op0 with lba := 0 })] }, 9, _, rfl, by decide +kernel⟩,
   ⟨{ upDev with host.ops := [(9, { op0 with cmd := { io0 with op := .verify } })] }, 9, _, rfl, by decide +kernel⟩,
   ⟨{ upDev with host.ops := [(9, { op0 with cmd := { io0 with op := .write } })] }, 9, _, rfl, by decide +kernel⟩,
   ⟨{ upDev with host.ops := [(9, { op0 with cmd := { io0 with op := .append } })] }, 9, _, rfl, by decide +kernel⟩,
   ⟨{ upDev with host.ops := [(9, { op0 with cmd := { io0 with op := .writeZeroes } })] }, 9, _, rfl, by decide +kernel⟩,
   ⟨{ upDev with host.ops := [(9, { op0 with cmd := { io0 with op := .deallocate } })] }, 9, _, rfl, by decide +kernel⟩,
   ⟨{ upDev with host.ops := [(9, { op0 with cmd := { io0 with op := .secureDiscard } })] }, 9, _, rfl, by decide +kernel⟩,
   ⟨{ upDev with
     host.ops := [(9, { op0 with lba := 0 })], ten.namespaces := [(1, ns0)], ten.zones := [(zkey 1 0,
       { Zone.init with st := .impOpen, wp := 1, zcap := 1024, sb := 1 })], med.staged := [(uk 1 0, { cp0 with cipher := 2 })], med.sbs := [(1, sb0)]
       }, 9, false, _, _, _, rfl, rfl, by decide +kernel, by decide +kernel, by decide +kernel, rfl, by decide +kernel⟩,
   ⟨{ upDev with host.ops := [(9, { op0 with lba := 0 })] }, 9, .read, _, rfl, by decide +kernel⟩,
   ⟨{ upDev with host.ops := [(9, { op0 with st := .ready })], ten.namespaces := [(1, ns0)] }, 9, false, _, _, rfl, rfl, by decide +kernel⟩,
   ⟨upDev, 0, op0, by decide +kernel⟩,
   ⟨{ upDev with
     ten.namespaces := [(1, ns0)], ten.zones := [(zkey 1 0, { Zone.init with st := .impOpen, wp := 1, zcap := 1024, sb := 1 })], med.staged := [(uk 1
       0, cp0)], med.sbs := [(1, sb0)] }, 0, op0, cp0, by decide +kernel⟩,
   ⟨{ upDev with
     host.ops := [(9, { op0 with lba := 0 })], ten.namespaces := [(1, ns0)], ten.zones := [(zkey 1 0,
       { Zone.init with st := .impOpen, wp := 1, zcap := 1024, sb := 1 })], med.copies := [(uk 1 0, cp0)], med.sbs := [(1, sb0)] }, _, 9, 0, 1, 0,
     op0, cp0, _, _, by decide +kernel, rfl, rfl, rfl⟩,
   ⟨{ upDev with ten.namespaces := [(1, ns0)] }, 1, 2047, _, rfl, by decide +kernel⟩,
   ⟨{ upDev with ten.namespaces := [(1, { ns0 with zoned := false })] }, 1, 2047, _, rfl, by decide +kernel⟩,
   ⟨{ upDev with host.ops := [(9, { op0 with lba := 0 })] }, _, 9, _, rfl, rfl⟩,
   ⟨upDev, by decide +kernel⟩,
   ⟨{ upDev with host.ops := [(9, { op0 with cmd := { io0 with op := .read, keyTag := some 8192 } })], ten.namespaces := [(1, ns0)] }, 9, false, _, _,
     _, rfl, rfl, by decide +kernel, by decide +kernel, by decide +kernel, rfl, _, by decide +kernel, rfl⟩⟩

/-- Devices and operands that meet the hypotheses of WriteAndDiscardCommands, clause by clause. -/
theorem witness_WriteAndDiscardCommands :
    (∃ (d : Dev) (p : Nat), p < packCount d.fuse ∧ (∀ o, d.med.secure.find? (fun x => x.wide || decide (x.pack = p)) = some o → o.zone.isSome = true ∨
      secDone d o = false)) ∧
    (∃ (d e : Dev) (p : Nat) (o : SecOp), p < packCount d.fuse ∧ d.med.secure.find? (fun x => x.wide || decide (x.pack = p)) = some o ∧ o.zone = none
      ∧ secDone d o = true ∧ e = secLeave p d) ∧
    (∃ (d : Dev) (tag : Nat) (o : Op) (n : Ns), tabGet d.host.ops tag = some o ∧ nsGet d o.cmd.nsid = some n ∧ o.st ≠ .admitted) ∧
    (∃ (d : Dev) (tag : Nat) (o : Op) (n : Ns), tabGet d.host.ops tag = some o ∧ nsGet d o.cmd.nsid = some n ∧ o.st = .admitted ∧ (o.cmd.op = .write ∨
      o.cmd.op = .append ∨ (o.cmd.op = .writeZeroes ∧ n.zoned = true)) ∧ ∃ st, writeCheck d n o = .inl st) ∧
    (∃ (d : Dev) (tag : Nat) (o : Op) (n : Ns), tabGet d.host.ops tag = some o ∧ nsGet d o.cmd.nsid = some n ∧ o.st = .admitted ∧ (o.cmd.op = .write ∨
      o.cmd.op = .append ∨ (o.cmd.op = .writeZeroes ∧ n.zoned = true)) ∧ ∃ key, writeCheck d n o = .inr key ∧ o.cmd.op = .writeZeroes) ∧
    (∃ (d : Dev) (tag : Nat) (o : Op) (n : Ns), tabGet d.host.ops tag = some o ∧ nsGet d o.cmd.nsid = some n ∧ o.st = .admitted ∧ (o.cmd.op = .write ∨
      o.cmd.op = .append ∨ (o.cmd.op = .writeZeroes ∧ n.zoned = true)) ∧ ∃ key r, writeCheck d n o = .inr key ∧ o.cmd.op ≠ .writeZeroes ∧ r = bufsTake
      o.port o.cmd.nlb d ∧ o.cmd.nlb ≠ 0) ∧
    (∃ (d : Dev) (tag : Nat) (o : Op) (n : Ns), tabGet d.host.ops tag = some o ∧ nsGet d o.cmd.nsid = some n ∧ o.st = .admitted ∧ (o.cmd.op = .write ∨
      o.cmd.op = .append ∨ (o.cmd.op = .writeZeroes ∧ n.zoned = true))) ∧
    (∃ (o : Op) (n : Ns), o.cmd.nlb ≤ n.zsze) ∧
    (∃ (d : Dev) (o : Op) (n : Ns) (rg h : Nat), placeOf d o.packs n o.cmd = .inr (rg, h)) ∧
    (∃ (d : Dev) (u : Loose), u.copy.seq < entSeq (mapAt d u.copy.nsid u.copy.lba)) ∧
    (∃ (d : Dev) (u : Loose) (n : Ns), entSeq (mapAt d u.copy.nsid u.copy.lba) ≤ u.copy.seq ∧ nsGet d u.copy.nsid = some n ∧ ∃ sb e, convTarget
      u.group u.handle n.width u.copy.nsid u.copy.kennel d = some (sb, e)) ∧
    (∃ (d : Dev) (u : Loose) (n : Ns), entSeq (mapAt d u.copy.nsid u.copy.lba) ≤ u.copy.seq ∧ nsGet d u.copy.nsid = some n) ∧
    (∃ (d e : Dev) (tag : Nat) (o : Op) (n : Ns), tabGet d.host.ops tag = some o ∧ nsGet d o.cmd.nsid = some n ∧ o.st = .admitted ∧ n.zoned = false ∧
      e = (if mapReady d n then opEnd tag .success 0 0 [] (jFlushIfNeeded (unmapAt o.cmd.nsid o.lba o.cmd.nlb o.seq false d)) else opEnd tag
      .mapUnavailable 0 0 [] d)) ∧
    (∃ (d : Dev) (nsid : Nat) (lba : Nat) (n : Nat) (seq : Nat), ∃ i, entSeq (mapAt d nsid (lba + i)) ≤ seq) ∧
    (∃ (nsid : Nat) (lba : Nat) (n : Nat), ∃ w, (∀ i < n, w ≠ mk nsid (lba + i))) ∧
    (∃ (d : Dev) (tag : Nat) (o : Op) (n : Ns), tabGet d.host.ops tag = some o ∧ nsGet d o.cmd.nsid = some n ∧ o.st = .admitted ∧ n.zoned = true) ∧
    (∃ (d : Dev) (tag : Nat) (o : Op) (n : Ns), tabGet d.host.ops tag = some o ∧ nsGet d o.cmd.nsid = some n ∧ o.st = .admitted ∧ o.cmd.op =
      .secureDiscard ∧ n.zoned = false ∧ mapReady d n = false) ∧
    (∃ (d e : Dev) (tag : Nat) (o : Op) (n : Ns), tabGet d.host.ops tag = some o ∧ nsGet d o.cmd.nsid = some n ∧ o.st = .admitted ∧ o.cmd.op =
      .secureDiscard ∧ n.zoned = false ∧ mapReady d n = true ∧ e = unmapAt o.cmd.nsid o.lba o.cmd.nlb o.seq true d) :=
  ⟨⟨upDev, 2, by decide +kernel, by intro o ho; cases ho⟩,
   ⟨{ upDev with
     med.secure := [{
       tags := [9], pack := 2, wide := false, nsid := 1, zone := none, lba := 0, n := 1, seq := 5, sbs := [], ready := true, started := true, blocks
         := [] }] }, _, 2, _, by decide +kernel, rfl, by decide +kernel, by decide +kernel, rfl⟩,
   ⟨{ upDev with host.ops := [(9, { op0 with st := .ready })], ten.namespaces := [(1, ns0)] }, 9, _, _, rfl, rfl, by decide +kernel⟩,
   ⟨{ upDev with host.ops := [(9, { op0 with cmd := { io0 with op := .write, keyTag := some 8192 } })], ten.namespaces := [(1, ns0)] }, 9, _, _, rfl,
     rfl, by decide +kernel, by decide +kernel, _, rfl⟩,
   ⟨{ upDev with host.ops := [(9, { op0 with cmd := { io0 with op := .writeZeroes } })], ten.namespaces := [(1, ns0)] }, 9, _, _, rfl, rfl,
     by decide +kernel, by decide +kernel, _, rfl, by decide +kernel⟩,
   ⟨{ upDev with host.ops := [(9, { op0 with cmd := { io0 with op := .write } })], ten.namespaces := [(1, ns0)] }, 9, _, _, rfl, rfl,
     by decide +kernel, by decide +kernel, _, _, rfl, by decide +kernel, rfl, by decide +kernel⟩,
   ⟨{ upDev with host.ops := [(9, { op0 with cmd := { io0 with op := .writeZeroes } })], ten.namespaces := [(1, ns0)] }, 9, _, _, rfl, rfl,
     by decide +kernel⟩,
   ⟨op0, ns0, by decide +kernel⟩,
   ⟨{ upDev with host.ops := [(9, { op0 with cmd := { io0 with op := .writeZeroes } })], ten.namespaces := [(1, ns0)] }, op0, ns0, 0, 0,
     by decide +kernel⟩,
   ⟨{ upDev with med.mapu.map := [(mk 1 0, .media 2 1 0)] }, { copy := cp0, group := 0, handle := 0 }, by decide +kernel⟩,
   ⟨{ upDev with ten.namespaces := [(1, { ns0 with zoned := false })], med.openSb := [(0, 1)] }, { copy := cp0, group := 0, handle := 0 }, _,
     by decide +kernel, rfl, _, _, rfl⟩,
   ⟨{ upDev with ten.namespaces := [(1, { ns0 with zoned := false })] }, { copy := cp0, group := 0, handle := 0 }, _, by decide +kernel, rfl⟩,
   ⟨{ upDev with
     host.ops := [(9, { op0 with cmd := { io0 with op := .secureDiscard } })], ten.namespaces := [(1, { ns0 with zoned := false })], host.ports :=
       [(0, { Port.init with perst := false, link := .l0, hmb := .serving })], med.mapu.st := 2, sec.mapKey := some 1#256 }, _, 9, _, _, rfl, rfl,
     by decide +kernel, by decide +kernel, rfl⟩,
   ⟨upDev, 1, 0, 1, 0, 0, by decide +kernel⟩,
   ⟨1, 0, 1, 0, by decide +kernel⟩,
   ⟨{ upDev with host.ops := [(9, { op0 with cmd := { io0 with op := .writeZeroes } })], ten.namespaces := [(1, ns0)] }, 9, _, _, rfl, rfl,
     by decide +kernel⟩,
   ⟨{ upDev with
     host.ops := [(9, { op0 with cmd := { io0 with op := .secureDiscard } })], ten.namespaces := [(1, { ns0 with zoned := false })], host.ports :=
       [(0, { Port.init with perst := false, link := .l0, hmb := .serving })], med.mapu.st := 2, sec.mapKey := some 1#256 }, 9, _, _, rfl, rfl,
     by decide +kernel⟩,
   ⟨{ upDev with
     host.ops := [(9, { op0 with cmd := { io0 with op := .secureDiscard } })], ten.namespaces := [(1, { ns0 with zoned := false })], host.ports :=
       [(0, { Port.init with perst := false, link := .l0, hmb := .serving, hmbUnits := 1000000 })], med.mapu.st := 2, sec.mapKey := some 1#256 }, _,
     9, _, _, rfl, rfl, by decide +kernel, by decide +kernel, by decide +kernel, by decide +kernel, rfl⟩⟩

/-- Devices and operands that meet the hypotheses of ZoneCommands, clause by clause, but for those on a free value, which nothing decides. -/
theorem witness_ZoneCommands :
    (∃ (d : Dev) (p : Nat), p < packCount d.fuse ∧ (∀ o, d.med.secure.find? (fun x => x.wide || decide (x.pack = p)) = some o → o.zone = none ∨
      secDone d o = false)) ∧
    (∃ (d : Dev) (p zk : Nat) (o : SecOp), p < packCount d.fuse ∧ d.med.secure.find? (fun x => x.wide || decide (x.pack = p)) = some o ∧ o.zone = some
      zk ∧ secDone d o = true) ∧
    (∃ (d : Dev) (nsid zn zk : Nat) (n : Ns), zk = zkey nsid zn ∧ nsGet d (zk / 1048576) = some n ∧ isActive (zoneGet d zk).st = true ∧ (zoneGet d
      zk).fzr = false) ∧
    (∃ (d : Dev) (nsid zn : Nat), (isActive (zoneGet d (zkey nsid zn)).st = false ∨ (zoneGet d (zkey nsid zn)).fzr = true)) ∧
    (∃ (d : Dev) (tag : Nat) (a : ZAct), (∀ o n, tabGet d.host.ops tag = some o → nsGet d o.cmd.nsid = some n → o.st ≠ .admitted ∨ o.cmd.op ≠
      .zoneSend ∨ o.cmd.act ≠ a ∨ zoneEarlier d n tag o = true)) ∧
    (∃ (d : Dev) (tag zk : Nat) (a : ZAct) (o : Op) (n : Ns), tabGet d.host.ops tag = some o ∧ nsGet d o.cmd.nsid = some n ∧ o.st = .admitted ∧
      o.cmd.op = .zoneSend ∧ o.cmd.act = a ∧ o.cmd.all = false ∧ zoneEarlier d n tag o = false ∧ zk = zkey o.cmd.nsid (o.cmd.slba / n.zsze) ∧ ∃ st,
      zoneActCheck d o.cmd.nsid zk a = .inl st) ∧
    (∃ (d : Dev) (tag zk : Nat) (a : ZAct) (o : Op) (n : Ns), tabGet d.host.ops tag = some o ∧ nsGet d o.cmd.nsid = some n ∧ o.st = .admitted ∧
      o.cmd.op = .zoneSend ∧ o.cmd.act = a ∧ o.cmd.all = false ∧ zoneEarlier d n tag o = false ∧ zk = zkey o.cmd.nsid (o.cmd.slba / n.zsze) ∧ ∃ v,
      zoneActCheck d o.cmd.nsid zk a = .inr v) ∧
    (∃ (d : Dev) (tag zk : Nat) (a : ZAct) (o : Op) (n : Ns), tabGet d.host.ops tag = some o ∧ nsGet d o.cmd.nsid = some n ∧ o.st = .admitted ∧
      o.cmd.op = .zoneSend ∧ o.cmd.act = a ∧ o.cmd.all = false ∧ zoneEarlier d n tag o = false ∧ zk = zkey o.cmd.nsid (o.cmd.slba / n.zsze)) ∧
    (∃ (d : Dev) (tag : Nat) (a : ZAct) (o : Op) (n : Ns) (r : Bool × Dev), tabGet d.host.ops tag = some o ∧ nsGet d o.cmd.nsid = some n ∧ o.st =
      .admitted ∧ o.cmd.op = .zoneSend ∧ o.cmd.act = a ∧ o.cmd.all = true ∧ zoneEarlier d n tag o = false ∧ r = (allZones d o.packs o.cmd.nsid n
      a).foldl (fun (b : Bool × Dev) zk => ((b.1 && (zoneAct a zk tag none b.2).1), (zoneAct a zk tag none b.2).2)) (true, d)) ∧
    (∃ (d : Dev) (zk : Nat), ∃ n, nsGet d (zk / 1048576) = some n ∧ (zoneGet d zk).secure = none ∧ (zoneGet d zk).st ≠ .empty) ∧
    (∃ (d : Dev) (zk : Nat) (tag : Nat), ∃ ts, (zoneGet d zk).secure = some ts ∧ tag ∉ ts ∧ ts ≠ []) ∧
    (∃ (d : Dev) (zk : Nat) (tag : Nat), ∃ ts, (zoneGet d zk).secure = some ts ∧ ts.head? = some tag) ∧
    (∃ (d : Dev) (zk : Nat) (n : Ns), nsGet d (zk / 1048576) = some n ∧ ∃ o, o ≠ zk) ∧
    (∃ (d : Dev) (zk : Nat) (n : Ns), nsGet d (zk / 1048576) = some n) ∧
    (∃ (d : Dev) (zk : Nat) (n : Ns), nsGet d (zk / 1048576) = some n ∧ ∃ o, o ≠ zk) ∧
    (∃ (d : Dev) (zk : Nat) (n : Ns), nsGet d (zk / 1048576) = some n) ∧
    (∃ (d : Dev) (zk : Nat) (n : Ns), nsGet d (zk / 1048576) = some n ∧ (zoneGet d zk).st ≠ .empty) ∧
    (∃ (d : Dev) (zk lo : Nat) (s : Sb) (us : List Copy), sbGet d (zoneSb (zoneGet d zk)) = some s ∧ lo = max (partialFrom d (zoneGet d zk)) (zoneGet
      d zk).parkedTo ∧ us = parkRun d (zoneSb (zoneGet d zk)) lo ((zoneGet d zk).wp - lo)) ∧
    (∃ (d : Dev) (zk : Nat) (n : Ns), nsGet d (zk / 1048576) = some n ∧ (zoneGet d zk).secure = none ∧ (zoneGet d zk).st ≠ .empty) ∧
    (∃ (d : Dev) (tag : Nat) (zk : Nat) (o : Op) (n : Ns), tabGet d.host.ops tag = some o ∧ nsGet d o.cmd.nsid = some n ∧ n.zoned = true ∧ o.st ≠
      .staged ∧ isZoneWrite o.cmd.op = true ∧ zk = zkey o.cmd.nsid (o.lba / n.zsze) ∧ zk / 1048576 = o.cmd.nsid) ∧
    (∃ (d : Dev) (tag : Nat), (∀ o n, tabGet d.host.ops tag = some o → nsGet d o.cmd.nsid = some n → n.zoned = false ∨ o.st = .staged ∨ isZoneWrite
      o.cmd.op = false)) :=
  ⟨⟨upDev, 2, by decide +kernel, by intro o ho; cases ho⟩,
   ⟨{ upDev with
     med.secure := [{
       tags := [9], pack := 2, wide := true, nsid := 1, zone := some 1048577, lba := 0, n := 1, seq := 5, sbs := [], ready := true, started := true,
       blocks := [] }] }, 2, _, _, by decide +kernel, rfl, rfl, by decide +kernel⟩,
   ⟨{ upDev with ten.namespaces := [(1, ns0)], ten.zones := [(zkey 1 1, { Zone.init with st := .expOpen })] }, 1, 1, _, _, rfl, rfl,
     by decide +kernel⟩,
   ⟨upDev, 1, 1, by decide +kernel⟩,
   ⟨upDev, 10, .open_, by intro o n ho; cases ho⟩,
   ⟨{ upDev with
     host.ops := [(9, { op0 with cmd := { io0 with op := .zoneSend, slba := 1024, act := .open_ } })], ten.namespaces := [(1, ns0)], ten.zones :=
       [(zkey 1 1, { Zone.init with st := .full })] }, 9, _, .open_, _, _, rfl, rfl, by decide +kernel, by decide +kernel, by decide +kernel,
     by decide +kernel, by decide +kernel, rfl, .zoneFull, by decide +kernel⟩,
   ⟨{ upDev with
     host.ops := [(9, { op0 with cmd := { io0 with op := .zoneSend, slba := 1024, act := .open_ } })], ten.namespaces := [(1, ns0)], ten.zones :=
       [(zkey 1 1, { Zone.init with st := .closed })] }, 9, _, .open_, _, _, rfl, rfl, by decide +kernel, by decide +kernel, by decide +kernel,
     by decide +kernel, by decide +kernel, rfl, none, by decide +kernel⟩,
   ⟨{ upDev with
     host.ops := [(9, { op0 with cmd := { io0 with op := .zoneSend, slba := 1024, act := .open_ } })], ten.namespaces := [(1, ns0)], ten.zones :=
       [(zkey 1 1, { Zone.init with st := .closed })] }, 9, _, .open_, _, _, rfl, rfl, by decide +kernel, by decide +kernel, by decide +kernel,
     by decide +kernel, by decide +kernel, rfl⟩,
   ⟨{ upDev with
     host.ops := [(9, { op0 with cmd := { io0 with op := .zoneSend, slba := 1024, act := .open_, all := true } })], ten.namespaces := [(1, ns0)],
     ten.zones := [(zkey 1 1, { Zone.init with st := .closed })] }, 9, .open_, _, _, _, rfl, rfl, by decide +kernel, by decide +kernel,
     by decide +kernel, by decide +kernel, by decide +kernel, rfl⟩,
   ⟨{ upDev with ten.namespaces := [(1, ns0)], ten.zones := [(zkey 1 1, { Zone.init with st := .full })] }, zkey 1 1, _, rfl, by decide +kernel⟩,
   ⟨{ upDev with ten.zones := [(zkey 1 1, { Zone.init with secure := some [4] })] }, zkey 1 1, 5, _, rfl, by decide +kernel⟩,
   ⟨{ upDev with ten.zones := [(zkey 1 1, { Zone.init with secure := some [4] })] }, zkey 1 1, 4, _, rfl, by decide +kernel⟩,
   ⟨{ upDev with ten.namespaces := [(1, ns0)] }, zkey 1 1, _, rfl, 0, by decide +kernel⟩,
   ⟨{ upDev with ten.namespaces := [(1, ns0)] }, zkey 1 1, _, rfl⟩,
   ⟨{ upDev with ten.namespaces := [(1, ns0)] }, zkey 1 1, _, rfl, 0, by decide +kernel⟩,
   ⟨{ upDev with ten.namespaces := [(1, ns0)] }, zkey 1 1, _, rfl⟩,
   ⟨{ upDev with ten.namespaces := [(1, ns0)], ten.zones := [(zkey 1 1, { Zone.init with st := .expOpen })] }, zkey 1 1, _, rfl, by decide +kernel⟩,
   ⟨{ upDev with ten.zones := [(zkey 1 1, { Zone.init with st := .closed, sb := 1 })], med.sbs := [(1, sb0)] }, zkey 1 1, _, _, _, rfl, rfl, rfl⟩,
   ⟨{ upDev with ten.namespaces := [(1, ns0)], ten.zones := [(zkey 1 1, { Zone.init with st := .full })] }, zkey 1 1, _, rfl, by decide +kernel⟩,
   ⟨{ upDev with host.ops := [(9, { op0 with cmd := { io0 with op := .write } })], ten.namespaces := [(1, ns0)] }, 9, _, _, _, rfl, rfl,
     by decide +kernel, by decide +kernel, by decide +kernel, rfl, by decide +kernel⟩,
   ⟨upDev, 10, by intro o n ho; cases ho⟩⟩

/-- Devices and operands that meet the hypotheses of AdminGates, clause by clause. -/
theorem witness_AdminGates :
    (∃ (d : Dev) (c : Src), adminUp c d = false) ∧
    (∃ (d e : Dev) (c : Src), adminUp c d = true ∧ c.fn ≠ 0 ∧ e = adminDone c .invalidOpcode 0 [] d) ∧
    (∃ (d e : Dev) (c : Src), adminUp c d = true ∧ c.fn = 0 ∧ d.boot.trial = true ∧ e = adminDone c .interrupted 0 [] d) ∧
    (∃ (d e : Dev) (c : Src) (st : NvStat) (dw0 : Nat) (data : List Nat), e = adminDone c st dw0 data d) :=
  ⟨⟨{ upDev with host.ctrls := [] }, ⟨0, 0, 7⟩, by decide +kernel⟩,
   ⟨upDev, _, ⟨0, 1, 7⟩, by decide +kernel, by decide +kernel, rfl⟩,
   ⟨{ upDev with boot.trial := true }, _, ⟨0, 0, 7⟩, by decide +kernel, by decide +kernel, by decide +kernel, rfl⟩,
   ⟨upDev, _, ⟨0, 0, 7⟩, .success, 0, [], rfl⟩⟩

/-- Devices and operands that meet the hypotheses of NamespaceCommands, clause by clause, but for those on a free value, which nothing decides. -/
theorem witness_NamespaceCommands :
    (∃ (d : Dev) (c : Src) (zoned kpio : Bool) (nsze width handles nsid k w cipher : Nat) (n : Ns), adminUp c d = true ∧ d.boot.trial = false ∧
      d.med.volUnknown = false ∧ w = (if width = 0 then d.med.layout.width else width) ∧ k = fnKennel d c.port c.fn ∧ (cipher = (if hasCrypto d.fuse =
      false ∨ k ∈ d.med.layout.plain then 0 else if kpio then 2 else 1)) ∧ createFields d zoned nsze w kpio handles = true ∧ freeNsid d = some nsid ∧
      n = nsNew d c zoned nsze w cipher handles ∧ slotsFit d n = true ∧ cipher = 0) ∧
    (∃ (d : Dev) (c : Src) (zoned kpio : Bool) (nsze width handles nsid k w cipher : Nat) (n : Ns), adminUp c d = true ∧ d.boot.trial = false ∧
      d.med.volUnknown = false ∧ w = (if width = 0 then d.med.layout.width else width) ∧ k = fnKennel d c.port c.fn ∧ (cipher = (if hasCrypto d.fuse =
      false ∨ k ∈ d.med.layout.plain then 0 else if kpio then 2 else 1)) ∧ createFields d zoned nsze w kpio handles = true ∧ freeNsid d = some nsid ∧
      n = nsNew d c zoned nsze w cipher handles ∧ slotsFit d n = true ∧ cipher ≠ 0 ∧ freeSlot d = none) ∧
    (∃ (d : Dev) (c : Src) (zoned kpio : Bool) (nsze width handles nsid k w cipher : Nat) (n : Ns), adminUp c d = true ∧ d.boot.trial = false ∧
      d.med.volUnknown = false ∧ w = (if width = 0 then d.med.layout.width else width) ∧ k = fnKennel d c.port c.fn ∧ (cipher = (if hasCrypto d.fuse =
      false ∨ k ∈ d.med.layout.plain then 0 else if kpio then 2 else 1)) ∧ createFields d zoned nsze w kpio handles = true ∧ freeNsid d = some nsid ∧
      n = nsNew d c zoned nsze w cipher handles ∧ slotsFit d n = true ∧ ∃ s, cipher ≠ 0 ∧ freeSlot d = some s ∧ drbgReady d.sec = false) ∧
    (∃ (d : Dev) (c : Src) (zoned kpio : Bool) (nsze width handles nsid k w cipher : Nat) (n : Ns), adminUp c d = true ∧ d.boot.trial = false ∧
      d.med.volUnknown = false ∧ w = (if width = 0 then d.med.layout.width else width) ∧ k = fnKennel d c.port c.fn ∧ (cipher = (if hasCrypto d.fuse =
      false ∨ k ∈ d.med.layout.plain then 0 else if kpio then 2 else 1)) ∧ createFields d zoned nsze w kpio handles = true ∧ freeNsid d = some nsid ∧
      n = nsNew d c zoned nsze w cipher handles ∧ slotsFit d n = true ∧ ∃ s, cipher ≠ 0 ∧ freeSlot d = some s ∧ drbgReady d.sec = true) ∧
    (∃ (d : Dev) (c : Src) (zoned kpio : Bool) (nsze width handles nsid k w cipher : Nat) (n : Ns), adminUp c d = true ∧ d.boot.trial = false ∧
      d.med.volUnknown = false ∧ w = (if width = 0 then d.med.layout.width else width) ∧ k = fnKennel d c.port c.fn ∧ (cipher = (if hasCrypto d.fuse =
      false ∨ k ∈ d.med.layout.plain then 0 else if kpio then 2 else 1)) ∧ createFields d zoned nsze w kpio handles = true ∧ freeNsid d = some nsid ∧
      n = nsNew d c zoned nsze w cipher handles ∧ slotsFit d n = true ∧ ∃ s, cipher ≠ 0 ∧ freeSlot d = some s ∧ drbgReady d.sec = true) ∧
    (∃ (d : Dev) (c : Src) (width : Nat) (w : Nat), adminUp c d = true ∧ d.boot.trial = false ∧ w = (if width = 0 then d.med.layout.width else width)
      ∧ d.med.volUnknown = true) ∧
    (∃ (d : Dev) (c : Src) (zoned kpio : Bool) (nsze width handles w : Nat), adminUp c d = true ∧ d.boot.trial = false ∧ w = (if width = 0 then
      d.med.layout.width else width) ∧ d.med.volUnknown = false ∧ createFields d zoned nsze w kpio handles = false) ∧
    (∃ (d : Dev) (c : Src) (zoned kpio : Bool) (nsze width handles w : Nat), adminUp c d = true ∧ d.boot.trial = false ∧ w = (if width = 0 then
      d.med.layout.width else width) ∧ d.med.volUnknown = false ∧ createFields d zoned nsze w kpio handles = true ∧ freeNsid d = none) ∧
    (∃ (d : Dev) (c : Src) (zoned kpio : Bool) (nsze width handles w : Nat), adminUp c d = true ∧ d.boot.trial = false ∧ w = (if width = 0 then
      d.med.layout.width else width) ∧ ∃ nsid cipher, d.med.volUnknown = false ∧ createFields d zoned nsze w kpio handles = true ∧ freeNsid d = some
      nsid ∧ (cipher = (if hasCrypto d.fuse = false ∨ fnKennel d c.port c.fn ∈ d.med.layout.plain then 0 else if kpio then 2 else 1)) ∧ slotsFit d
      (nsNew d c zoned nsze w cipher handles) = false) ∧
    (∃ (d : Dev) (c : Src) (nsid : Nat) (n : Ns), adminUp c d = true ∧ d.boot.trial = false ∧ nsid ≠ 0xFFFFFFFF ∧ nsGet d nsid = some n) ∧
    (∃ (d : Dev) (c : Src), adminUp c d = true ∧ d.boot.trial = false) ∧
    (∃ (d : Dev) (c : Src) (nsid : Nat), adminUp c d = true ∧ d.boot.trial = false ∧ nsGet d nsid = none ∧ nsid ≠ 0xFFFFFFFF) ∧
    (∃ (d : Dev) (c : Src) (nsid : Nat) (ids keys : List Nat) (n : Ns), adminUp c d = true ∧ d.boot.trial = false ∧ nsGet d nsid = some n ∧ keys =
      ids.map (fun i => (ctrlOfId i).1 * 64 + (ctrlOfId i).2) ∧ (ids = [] ∨ 0 ∈ ids ∨ ∃ i ∈ ids, ctrlPresent d (ctrlOfId i).1 (ctrlOfId i).2 = false)) ∧
    (∃ (d : Dev) (c : Src) (nsid : Nat) (ids keys : List Nat) (n : Ns), adminUp c d = true ∧ d.boot.trial = false ∧ nsGet d nsid = some n ∧ keys =
      ids.map (fun i => (ctrlOfId i).1 * 64 + (ctrlOfId i).2) ∧ ∃ attach : Bool, ids ≠ [] ∧ 0 ∉ ids ∧ (∀ i ∈ ids, ctrlPresent d (ctrlOfId i).1
      (ctrlOfId i).2 = true) ∧ attach = true ∧ (∃ i ∈ ids, (nsid, fnKennel d (ctrlOfId i).1 (ctrlOfId i).2) ∉ d.ten.nsBind)) ∧
    (∃ (d : Dev) (c : Src) (nsid : Nat) (ids keys : List Nat) (n : Ns), adminUp c d = true ∧ d.boot.trial = false ∧ nsGet d nsid = some n ∧ keys =
      ids.map (fun i => (ctrlOfId i).1 * 64 + (ctrlOfId i).2) ∧ ∃ attach : Bool, ids ≠ [] ∧ 0 ∉ ids ∧ (∀ i ∈ ids, ctrlPresent d (ctrlOfId i).1
      (ctrlOfId i).2 = true) ∧ attach = true ∧ (∀ i ∈ ids, (nsid, fnKennel d (ctrlOfId i).1 (ctrlOfId i).2) ∈ d.ten.nsBind) ∧ (∃ k ∈ keys, k ∈
      n.attached)) ∧
    (∃ (d : Dev) (c : Src) (nsid : Nat) (ids keys : List Nat) (n : Ns), adminUp c d = true ∧ d.boot.trial = false ∧ nsGet d nsid = some n ∧ keys =
      ids.map (fun i => (ctrlOfId i).1 * 64 + (ctrlOfId i).2) ∧ ∃ attach : Bool, ids ≠ [] ∧ 0 ∉ ids ∧ (∀ i ∈ ids, ctrlPresent d (ctrlOfId i).1
      (ctrlOfId i).2 = true) ∧ attach = true ∧ (∀ i ∈ ids, (nsid, fnKennel d (ctrlOfId i).1 (ctrlOfId i).2) ∈ d.ten.nsBind) ∧ (∀ k ∈ keys, k ∉
      n.attached)) ∧
    (∃ (d : Dev) (c : Src) (nsid : Nat) (ids keys : List Nat) (n : Ns), adminUp c d = true ∧ d.boot.trial = false ∧ nsGet d nsid = some n ∧ keys =
      ids.map (fun i => (ctrlOfId i).1 * 64 + (ctrlOfId i).2) ∧ ∃ attach : Bool, ids ≠ [] ∧ 0 ∉ ids ∧ (∀ i ∈ ids, ctrlPresent d (ctrlOfId i).1
      (ctrlOfId i).2 = true) ∧ attach = false ∧ (∃ k ∈ keys, k ∉ n.attached)) ∧
    (∃ (d : Dev) (c : Src) (nsid : Nat) (ids keys : List Nat) (n : Ns), adminUp c d = true ∧ d.boot.trial = false ∧ nsGet d nsid = some n ∧ keys =
      ids.map (fun i => (ctrlOfId i).1 * 64 + (ctrlOfId i).2) ∧ ∃ attach : Bool, ids ≠ [] ∧ 0 ∉ ids ∧ (∀ i ∈ ids, ctrlPresent d (ctrlOfId i).1
      (ctrlOfId i).2 = true) ∧ attach = false ∧ (∀ k ∈ keys, k ∈ n.attached)) ∧
    (∃ (d : Dev) (c : Src) (nsid : Nat), adminUp c d = true ∧ ∃ n, nsGet d nsid = some n) ∧
    (∃ (d : Dev) (c : Src) (nsid : Nat), adminUp c d = true ∧ nsGet d nsid = none) ∧
    (∃ (d : Dev) (c : Src) (nsid : Nat), adminUp c d = true ∧ ∃ n, nsGet d nsid = some n ∧ n.zoned = true) ∧
    (∃ (d : Dev) (c : Src) (nsid : Nat), adminUp c d = true ∧ ∃ n, nsGet d nsid = some n ∧ n.zoned = false) ∧
    (∃ (d : Dev) (c : Src) (nsid : Nat), adminUp c d = true ∧ nsGet d nsid = none) ∧
    (∃ (d : Dev) (c : Src), adminUp c d = true ∧ ∃ cns, cns ∉ [0, 1, 2, 5, 6, 0x10, 0x12, 0x13]) ∧
    (∃ (d : Dev) (c : Src) (lid : Nat) (lsi : Nat) (off : Nat) (key : Nat) (page : List Byte), adminUp c d = true ∧ 0xC0 ≤ lid ∧ lid ≤ 0xC7 ∧ (lid =
      0xC6 → lsi ≤ 255 ∧ (c.fn = 0 ∨ lsi = fnKennel d c.port c.fn)) ∧ key = lid * 256 + (if lid = 0xC6 then lsi else 0) ∧ page = ((if off = 0 then
      none else tabGet (ctrlGet d c.port c.fn).snaps key).getD (vendorLog d (decide (c.fn ≠ 0)) lid lsi))) ∧
    (∃ (d : Dev) (c : Src) (lsi : Nat), adminUp c d = true ∧ (255 < lsi ∨ (c.fn ≠ 0 ∧ lsi ≠ fnKennel d c.port c.fn))) ∧
    (∃ (d : Dev) (c : Src) (lid : Nat), adminUp c d = true ∧ (lid < 0xC0 ∨ 0xC7 < lid) ∧ ∃ page, stdLog d lid = some page) ∧
    (∃ (d : Dev) (c : Src) (lid : Nat), adminUp c d = true ∧ (lid < 0xC0 ∨ 0xC7 < lid) ∧ stdLog d lid = none) ∧
    (∃ (d x1 : Dev) (nsid s k : Nat) (n n1 : Ns), nsKeyMake nsid s k n d = some (n1, x1) ∧ ∃ t, t ≠ s) ∧
    (∃ (d x1 : Dev) (nsid s k : Nat) (n n1 : Ns), nsKeyMake nsid s k n d = some (n1, x1)) ∧
    (∃ (d : Dev) (nsid : Nat), tabRising d.ten.namespaces = true ∧ ∃ i, i ≠ nsid) ∧
    (∃ (d : Dev), tabRising d.ten.namespaces = true) :=
  ⟨⟨{ upDev with med.layout := { Layout.ref with plain := [0] } }, ⟨0, 0, 7⟩, false, false, 1048576, 4, 1, _, _, _, _, _, by decide +kernel,
     by decide +kernel, by decide +kernel, rfl, rfl, rfl, by decide +kernel, rfl, rfl, by decide +kernel⟩,
   ⟨{ upDev with sec.slots := (List.range 8192).map (fun i => (i, { Slot.init with type := 1 })) }, ⟨0, 0, 7⟩, false, false, 1048576, 4, 1, _, _, _,
     _, _, by decide +kernel, by decide +kernel, by decide +kernel, rfl, rfl, rfl, by decide +kernel, rfl, rfl, by decide +kernel, by decide +kernel,
     full_slots _ rfl⟩,
   ⟨upDev, ⟨0, 0, 7⟩, false, false, 1048576, 4, 1, _, _, _, _, _, by decide +kernel, by decide +kernel, by decide +kernel, rfl, rfl, rfl,
     by decide +kernel, rfl, rfl, by decide +kernel, _, by decide +kernel, rfl, by decide +kernel⟩,
   ⟨{ upDev with sec.drbgOn := true }, ⟨0, 0, 7⟩, false, false, 1048576, 4, 1, _, _, _, _, _, by decide +kernel, by decide +kernel, by decide +kernel,
     rfl, rfl, rfl, by decide +kernel, rfl, rfl, by decide +kernel, 0, by decide +kernel⟩,
   ⟨{ upDev with sec.drbgOn := true }, ⟨0, 0, 7⟩, false, false, 1048576, 4, 1, _, _, _, _, _, by decide +kernel, by decide +kernel, by decide +kernel,
     rfl, rfl, rfl, by decide +kernel, rfl, rfl, by decide +kernel, 0, by decide +kernel⟩,
   ⟨{ upDev with med.volUnknown := true }, ⟨0, 0, 7⟩, 0, _, by decide +kernel, by decide +kernel, rfl, by decide +kernel⟩,
   ⟨upDev, ⟨0, 0, 7⟩, false, false, 0, 0, 0, _, by decide +kernel, by decide +kernel, rfl, by decide +kernel⟩,
   ⟨{ upDev with ten.namespaces := (List.range 1024).map (fun i => (i + 1, ns0)) }, ⟨0, 0, 7⟩, false, false, 1048576, 0, 1, _, by decide +kernel,
     by decide +kernel, rfl, by decide +kernel, by decide +kernel, full_nsids _ rfl⟩,
   ⟨upDev, ⟨0, 0, 7⟩, false, false, 1000000000000000, 0, 1, _, by decide +kernel, by decide +kernel, rfl, _, _, by decide +kernel, by decide +kernel,
     rfl, rfl, by decide +kernel⟩,
   ⟨{ upDev with ten.namespaces := [(1, ns0), (1024, ns0)] }, ⟨0, 0, 7⟩, 1024, _, by decide +kernel, by decide +kernel, by decide +kernel, rfl⟩,
   ⟨upDev, ⟨0, 0, 7⟩, by decide +kernel⟩,
   ⟨upDev, ⟨0, 0, 7⟩, 1, by decide +kernel⟩,
   ⟨{ upDev with ten.namespaces := [(1, ns0), (1024, ns0)] }, ⟨0, 0, 7⟩, 1024, [], _, _, by decide +kernel, by decide +kernel, rfl, rfl,
     by decide +kernel⟩,
   ⟨{ upDev with ten.namespaces := [(1, { ns0 with attached := [] })] }, ⟨0, 0, 7⟩, 1, [0x41], _, _, by decide +kernel, by decide +kernel, rfl, rfl,
     true, by decide +kernel⟩,
   ⟨{ upDev with ten.namespaces := [(1, { ns0 with attached := [64] })], ten.nsBind := [(1, 0)] }, ⟨0, 0, 7⟩, 1, [0x41], _, _, by decide +kernel,
     by decide +kernel, rfl, rfl, true, by decide +kernel⟩,
   ⟨{ upDev with ten.namespaces := [(1, { ns0 with attached := [] })], ten.nsBind := [(1, 0)] }, ⟨0, 0, 7⟩, 1, [0x41], _, _, by decide +kernel,
     by decide +kernel, rfl, rfl, true, by decide +kernel⟩,
   ⟨{ upDev with ten.namespaces := [(1, { ns0 with attached := [] })] }, ⟨0, 0, 7⟩, 1, [0x41], _, _, by decide +kernel, by decide +kernel, rfl, rfl,
     false, by decide +kernel⟩,
   ⟨{ upDev with ten.namespaces := [(1, { ns0 with attached := [64] })] }, ⟨0, 0, 7⟩, 1, [0x41], _, _, by decide +kernel, by decide +kernel, rfl, rfl,
     false, by decide +kernel⟩,
   ⟨{ upDev with ten.namespaces := [(1, ns0)] }, ⟨0, 0, 7⟩, 1, by decide +kernel, _, rfl⟩,
   ⟨upDev, ⟨0, 0, 7⟩, 1, by decide +kernel⟩,
   ⟨{ upDev with ten.namespaces := [(1, ns0)] }, ⟨0, 0, 7⟩, 1, by decide +kernel, _, rfl, by decide +kernel⟩,
   ⟨{ upDev with ten.namespaces := [(1, { ns0 with zoned := false })] }, ⟨0, 0, 7⟩, 1, by decide +kernel, _, rfl, by decide +kernel⟩,
   ⟨upDev, ⟨0, 0, 7⟩, 1, by decide +kernel⟩,
   ⟨upDev, ⟨0, 0, 7⟩, by decide +kernel, 3, by decide +kernel⟩,
   ⟨upDev, ⟨0, 0, 7⟩, 0xC7, 0, 0, _, _, by decide +kernel, by decide +kernel, by decide +kernel, by decide +kernel, rfl, rfl⟩,
   ⟨upDev, ⟨0, 0, 7⟩, 256, by decide +kernel⟩,
   ⟨{ upDev with ten.namespaces := [(1, ns0)] }, ⟨0, 0, 7⟩, 0, by decide +kernel, by decide +kernel, _, rfl⟩,
   ⟨upDev, ⟨0, 0, 7⟩, 0x06, by decide +kernel⟩,
   ⟨upDev, _, 0, 8191, 0, ns0, _, rfl, 0, by decide +kernel⟩,
   ⟨upDev, _, 0, 8191, 0, ns0, _, rfl⟩,
   ⟨{ upDev with ten.namespaces := [(1, ns0)] }, 1, by decide +kernel, 0, by decide +kernel⟩,
   ⟨{ upDev with ten.namespaces := [(1, ns0), (1024, ns0)] }, by decide +kernel⟩⟩

/-- Devices and operands that meet the hypotheses of FeatureCommands, clause by clause. -/
theorem witness_FeatureCommands :
    (∃ (d : Dev) (c : Src) (save : Bool), adminUp c d = true ∧ (save = true → d.boot.trial = false)) ∧
    (∃ (d : Dev) (c : Src), adminUp c d = true) ∧
    (∃ (d : Dev) (c : Src) (nsid : Nat) (save : Bool), adminUp c d = true ∧ (save = true → d.boot.trial = false) ∧ ∃ n, nsGet d nsid = some n ∧
      n.zoned = true) ∧
    (∃ (d : Dev) (c : Src) (nsid : Nat) (save : Bool), adminUp c d = true ∧ (save = true → d.boot.trial = false) ∧ ∃ n, nsGet d nsid = some n ∧
      n.zoned = false) ∧
    (∃ (d : Dev) (c : Src) (nsid : Nat) (save : Bool), adminUp c d = true ∧ (save = true → d.boot.trial = false) ∧ nsGet d nsid = none) ∧
    (∃ (d : Dev) (c : Src) (save : Bool), adminUp c d = true ∧ (save = true → d.boot.trial = false) ∧ d.ten.namespaces = []) ∧
    (∃ (d : Dev) (c : Src) (save : Bool), adminUp c d = true ∧ (save = true → d.boot.trial = false) ∧ d.ten.namespaces ≠ []) ∧
    (∃ (d : Dev) (c : Src) (ps : Nat) (save : Bool), adminUp c d = true ∧ (save = true → d.boot.trial = false) ∧ ps ≤ 2) ∧
    (∃ (d : Dev) (c : Src) (ps : Nat) (save : Bool), adminUp c d = true ∧ (save = true → d.boot.trial = false) ∧ 2 < ps) ∧
    (∃ (d x : Dev) (c : Src) (under save : Bool) (sensor k : Nat), adminUp c d = true ∧ (save = true → d.boot.trial = false) ∧ x = { d with
      therm := if under then { d.therm with threshUnder := tabPut d.therm.threshUnder 0 (k % 65536) } else { d.therm with
        threshOver := tabPut d.therm.threshOver 0 (k % 65536) } } ∧ sensor = 0) ∧
    (∃ (d x : Dev) (c : Src) (under save : Bool) (sensor k : Nat), adminUp c d = true ∧ (save = true → d.boot.trial = false) ∧ x = { d with
      therm := if under then { d.therm with threshUnder := tabPut d.therm.threshUnder 0 (k % 65536) } else { d.therm with
        threshOver := tabPut d.therm.threshOver 0 (k % 65536) } } ∧ sensor ≠ 0) :=
  ⟨⟨upDev, ⟨0, 0, 7⟩, false, by decide +kernel⟩,
   ⟨upDev, ⟨0, 0, 7⟩, by decide +kernel⟩,
   ⟨{ upDev with ten.namespaces := [(1, ns0)] }, ⟨0, 0, 7⟩, 1, false, by decide +kernel, by decide +kernel, _, rfl, by decide +kernel⟩,
   ⟨{ upDev with ten.namespaces := [(1, { ns0 with zoned := false })] }, ⟨0, 0, 7⟩, 1, false, by decide +kernel, by decide +kernel, _, rfl,
     by decide +kernel⟩,
   ⟨upDev, ⟨0, 0, 7⟩, 0, false, by decide +kernel⟩,
   ⟨upDev, ⟨0, 0, 7⟩, false, by decide +kernel⟩,
   ⟨{ upDev with ten.namespaces := [(1, ns0)] }, ⟨0, 0, 7⟩, false, by decide +kernel⟩,
   ⟨upDev, ⟨0, 0, 7⟩, 2, false, by decide +kernel⟩,
   ⟨upDev, ⟨0, 0, 7⟩, 3, false, by decide +kernel⟩,
   ⟨upDev, _, ⟨0, 0, 7⟩, false, false, 0, 0, by decide +kernel, by decide +kernel, rfl, by decide +kernel⟩,
   ⟨upDev, _, ⟨0, 0, 7⟩, false, false, 1, 0, by decide +kernel, by decide +kernel, rfl, by decide +kernel⟩⟩

/-- Devices and operands that meet the hypotheses of ControllerResourceCommands, clause by clause. -/
theorem witness_ControllerResourceCommands :
    (∃ (d : Dev) (c : Src), adminUp c d = true ∧ c.fn ≠ 0) ∧
    (∃ (d : Dev) (c : Src), adminUp c d = true ∧ c.fn = 0 ∧ (portGet d c.port).hmb ≠ .off) ∧
    (∃ (d : Dev) (c : Src) (units : Nat), adminUp c d = true ∧ c.fn = 0 ∧ (portGet d c.port).hmb = .off ∧ (units < hmbNeed d c.port ∨ units = 0)) ∧
    (∃ (d : Dev) (c : Src) (units : Nat), adminUp c d = true ∧ c.fn = 0 ∧ (portGet d c.port).hmb = .off ∧ hmbNeed d c.port ≤ units ∧ units ≠ 0) ∧
    (∃ (d : Dev) (c : Src), adminUp c d = true ∧ c.fn = 0 ∧ (portGet d c.port).hmb = .off) ∧
    (∃ (d : Dev) (c : Src), adminUp c d = true ∧ c.fn = 0 ∧ (portGet d c.port).hmb ≠ .off ∧ homeOps d c.port = true) ∧
    (∃ (d : Dev) (c : Src), adminUp c d = true ∧ c.fn = 0 ∧ (portGet d c.port).hmb ≠ .off ∧ homeOps d c.port = false) ∧
    (∃ (d : Dev) (p : Nat), portPresent d p = true) ∧
    (∃ (d : Dev) (c : Src) (vf n used : Nat) (v : Ctrl), adminUp c d = true ∧ c.fn = 0 ∧ 1 ≤ vf ∧ vf ≤ 63 ∧ v = ctrlGet d c.port vf ∧ used =
      ((d.host.ctrls.filter (fun q => decide (q.1 / 64 = c.port ∧ q.1 % 64 ≠ 0 ∧ q.1 % 64 ≠ vf))).map (fun q => q.2.vq)).sum ∧ v.online = false ∧ n ≤
      64 ∧ used + n ≤ (if dual d then 1984 else 4032)) ∧
    (∃ (d : Dev) (c : Src) (vf n used : Nat) (v : Ctrl), adminUp c d = true ∧ c.fn = 0 ∧ 1 ≤ vf ∧ vf ≤ 63 ∧ v = ctrlGet d c.port vf ∧ used =
      ((d.host.ctrls.filter (fun q => decide (q.1 / 64 = c.port ∧ q.1 % 64 ≠ 0 ∧ q.1 % 64 ≠ vf))).map (fun q => q.2.vq)).sum ∧ (v.online = true ∨ 64 <
      n ∨ (if dual d then 1984 else 4032) < used + n)) ∧
    (∃ (d : Dev) (c : Src) (vf n used : Nat) (v : Ctrl), adminUp c d = true ∧ c.fn = 0 ∧ 1 ≤ vf ∧ vf ≤ 63 ∧ v = ctrlGet d c.port vf ∧ used =
      ((d.host.ctrls.filter (fun q => decide (q.1 / 64 = c.port ∧ q.1 % 64 ≠ 0 ∧ q.1 % 64 ≠ vf))).map (fun q => q.2.vq)).sum ∧ v.online = false ∧ n ≤
      65) ∧
    (∃ (d : Dev) (c : Src) (vf n used : Nat) (v : Ctrl), adminUp c d = true ∧ c.fn = 0 ∧ 1 ≤ vf ∧ vf ≤ 63 ∧ v = ctrlGet d c.port vf ∧ used =
      ((d.host.ctrls.filter (fun q => decide (q.1 / 64 = c.port ∧ q.1 % 64 ≠ 0 ∧ q.1 % 64 ≠ vf))).map (fun q => q.2.vq)).sum ∧ (v.online = true ∨ 65 <
      n)) ∧
    (∃ (d : Dev) (c : Src) (vf : Nat) (used : Nat) (v : Ctrl), adminUp c d = true ∧ c.fn = 0 ∧ 1 ≤ vf ∧ vf ≤ 63 ∧ v = ctrlGet d c.port vf ∧ used =
      ((d.host.ctrls.filter (fun q => decide (q.1 / 64 = c.port ∧ q.1 % 64 ≠ 0 ∧ q.1 % 64 ≠ vf))).map (fun q => q.2.vq)).sum ∧ v.vq ≠ 0 ∧ v.vi ≠ 0) ∧
    (∃ (d : Dev) (c : Src) (vf : Nat) (used : Nat) (v : Ctrl), adminUp c d = true ∧ c.fn = 0 ∧ 1 ≤ vf ∧ vf ≤ 63 ∧ v = ctrlGet d c.port vf ∧ used =
      ((d.host.ctrls.filter (fun q => decide (q.1 / 64 = c.port ∧ q.1 % 64 ≠ 0 ∧ q.1 % 64 ≠ vf))).map (fun q => q.2.vq)).sum ∧ (v.vq = 0 ∨ v.vi = 0)) ∧
    (∃ (d : Dev) (c : Src) (vf : Nat) (used : Nat) (v : Ctrl), adminUp c d = true ∧ c.fn = 0 ∧ 1 ≤ vf ∧ vf ≤ 63 ∧ v = ctrlGet d c.port vf ∧ used =
      ((d.host.ctrls.filter (fun q => decide (q.1 / 64 = c.port ∧ q.1 % 64 ≠ 0 ∧ q.1 % 64 ≠ vf))).map (fun q => q.2.vq)).sum ∧ ∃ y, y = ctrlReset
      c.port vf d) ∧
    (∃ (d : Dev) (c : Src) (vf : Nat), adminUp c d = true ∧ (c.fn ≠ 0 ∨ vf = 0 ∨ 63 < vf)) ∧
    (∃ (d : Dev) (c : Src) (sq cid qk : Nat) (gone : Dev → Dev), adminUp c d = true ∧ qk = queueKey c.port c.fn sq ∧ (∀ y, gone y = adminDone c
      .success 0 [] (cqPost c.port c.fn sq cid .abortRequested 0 0 [] y)) ∧ ∃ q y, (tabGetD d.host.queues qk []).find? (fun q => decide (q.cmd.cid =
      cid)) = some q ∧ y = (if q.cmd.op = .read then readStats (opNew d qk (fnKennel d c.port c.fn) q) 0 false d else d)) ∧
    (∃ (d : Dev) (c : Src) (sq cid qk : Nat) (gone : Dev → Dev), adminUp c d = true ∧ qk = queueKey c.port c.fn sq ∧ (∀ y, gone y = adminDone c
      .success 0 [] (cqPost c.port c.fn sq cid .abortRequested 0 0 [] y)) ∧ (tabGetD d.host.queues qk []).find? (fun q => decide (q.cmd.cid = cid)) =
      none ∧ (∃ q ∈ d.host.unfetched, q.1 = qk ∧ q.2.cmd.cid = cid)) ∧
    (∃ (d : Dev) (c : Src) (sq cid qk : Nat) (gone : Dev → Dev), adminUp c d = true ∧ qk = queueKey c.port c.fn sq ∧ (∀ y, gone y = adminDone c
      .success 0 [] (cqPost c.port c.fn sq cid .abortRequested 0 0 [] y)) ∧ (tabGetD d.host.queues qk []).find? (fun q => decide (q.cmd.cid = cid)) =
      none ∧ (∀ q ∈ d.host.unfetched, q.1 = qk → q.2.cmd.cid ≠ cid) ∧ ∃ r : Option (Nat × Op), r = d.host.ops.find? (fun q => decide (q.2.port =
      c.port) && decide (q.2.fn = c.fn) && decide (q.2.sq = sq) && decide (q.2.cmd.cid = cid)) ∧ r = none) ∧
    (∃ (d : Dev) (c : Src) (sq cid qk : Nat) (gone : Dev → Dev), adminUp c d = true ∧ qk = queueKey c.port c.fn sq ∧ (∀ y, gone y = adminDone c
      .success 0 [] (cqPost c.port c.fn sq cid .abortRequested 0 0 [] y)) ∧ (tabGetD d.host.queues qk []).find? (fun q => decide (q.cmd.cid = cid)) =
      none ∧ (∀ q ∈ d.host.unfetched, q.1 = qk → q.2.cmd.cid ≠ cid) ∧ ∃ r : Option (Nat × Op), r = d.host.ops.find? (fun q => decide (q.2.port =
      c.port) && decide (q.2.fn = c.fn) && decide (q.2.sq = sq) && decide (q.2.cmd.cid = cid)) ∧ ∃ tag o, r = some (tag, o) ∧ o.dispatched = true) ∧
    (∃ (d : Dev) (c : Src) (sq cid qk : Nat) (gone : Dev → Dev), adminUp c d = true ∧ qk = queueKey c.port c.fn sq ∧ (∀ y, gone y = adminDone c
      .success 0 [] (cqPost c.port c.fn sq cid .abortRequested 0 0 [] y)) ∧ (tabGetD d.host.queues qk []).find? (fun q => decide (q.cmd.cid = cid)) =
      none ∧ (∀ q ∈ d.host.unfetched, q.1 = qk → q.2.cmd.cid ≠ cid) ∧ ∃ r : Option (Nat × Op), r = d.host.ops.find? (fun q => decide (q.2.port =
      c.port) && decide (q.2.fn = c.fn) && decide (q.2.sq = sq) && decide (q.2.cmd.cid = cid)) ∧ ∃ tag o, r = some (tag, o) ∧ o.dispatched = false) ∧
    (∃ (d : Dev) (c : Src) (k : Ctrl), adminUp c d = true ∧ k = ctrlGet d c.port c.fn ∧ ∃ x rest, k.events = x :: rest) ∧
    (∃ (d : Dev) (c : Src) (k : Ctrl), adminUp c d = true ∧ k = ctrlGet d c.port c.fn ∧ k.events = [] ∧ k.aers.length < 16) ∧
    (∃ (d : Dev) (c : Src) (k : Ctrl), adminUp c d = true ∧ k = ctrlGet d c.port c.fn ∧ k.events = [] ∧ 16 ≤ k.aers.length) ∧
    (∃ (d : Dev) (x : Dev), x = jComplete (jFlush (jComplete d))) ∧
    (∃ (d : Dev) (p : Nat) (x : Port), tabGet d.host.ports p = some x) :=
  ⟨⟨upDev, ⟨0, 1, 7⟩, by decide +kernel⟩,
   ⟨{ upDev with host.ports := [(0, { Port.init with perst := false, link := .l0, hmb := .serving })] }, ⟨0, 0, 7⟩, by decide +kernel⟩,
   ⟨upDev, ⟨0, 0, 7⟩, 0, by decide +kernel⟩,
   ⟨upDev, ⟨0, 0, 7⟩, 1, by decide +kernel⟩,
   ⟨upDev, ⟨0, 0, 7⟩, by decide +kernel⟩,
   ⟨{ upDev with
     host.ports := [(0, { Port.init with perst := false, link := .l0, hmb := .serving })], host.ops := [(1, op0)], ten.namespaces := [(1,
       { ns0 with zoned := false })] }, ⟨0, 0, 7⟩, by decide +kernel⟩,
   ⟨{ upDev with host.ports := [(0, { Port.init with perst := false, link := .l0, hmb := .serving })] }, ⟨0, 0, 7⟩, by decide +kernel⟩,
   ⟨upDev, 0, by decide +kernel⟩,
   ⟨upDev, ⟨0, 0, 7⟩, 63, 64, _, _, by decide +kernel, by decide +kernel, by decide +kernel, by decide +kernel, rfl, rfl, by decide +kernel⟩,
   ⟨upDev, ⟨0, 0, 7⟩, 63, 65, _, _, by decide +kernel, by decide +kernel, by decide +kernel, by decide +kernel, rfl, rfl, by decide +kernel⟩,
   ⟨upDev, ⟨0, 0, 7⟩, 63, 65, _, _, by decide +kernel, by decide +kernel, by decide +kernel, by decide +kernel, rfl, rfl, by decide +kernel⟩,
   ⟨upDev, ⟨0, 0, 7⟩, 63, 66, _, _, by decide +kernel, by decide +kernel, by decide +kernel, by decide +kernel, rfl, rfl, by decide +kernel⟩,
   ⟨{ upDev with host.ctrls := [(0, { Ctrl.init with en := true, rdy := true }), (63, { Ctrl.init with vq := 1, vi := 1 })] }, ⟨0, 0, 7⟩, 63, _, _,
     by decide +kernel, by decide +kernel, by decide +kernel, by decide +kernel, rfl, rfl, by decide +kernel⟩,
   ⟨upDev, ⟨0, 0, 7⟩, 63, _, _, by decide +kernel, by decide +kernel, by decide +kernel, by decide +kernel, rfl, rfl, by decide +kernel⟩,
   ⟨upDev, ⟨0, 0, 7⟩, 1, _, _, by decide +kernel, by decide +kernel, by decide +kernel, by decide +kernel, rfl, rfl, _, rfl⟩,
   ⟨upDev, ⟨0, 1, 7⟩, 0, by decide +kernel⟩,
   ⟨{ upDev with host.queues := [(1, [{ cmd := io0, doorbell := 0#64, held := false }])] }, ⟨0, 0, 7⟩, 1, 3, 1, fun y => adminDone ⟨0, 0, 7⟩ .success
     0 [] (cqPost 0 0 1 3 .abortRequested 0 0 [] y), by decide +kernel, by decide +kernel, fun _ => rfl, _, _, rfl, rfl⟩,
   ⟨{ upDev with host.unfetched := [(1, { cmd := io0, doorbell := 0#64, held := false })] }, ⟨0, 0, 7⟩, 1, 3, 1, fun y => adminDone ⟨0, 0, 7⟩ .success
     0 [] (cqPost 0 0 1 3 .abortRequested 0 0 [] y), by decide +kernel, by decide +kernel, fun _ => rfl, by decide +kernel, by decide +kernel⟩,
   ⟨upDev, ⟨0, 0, 7⟩, 1, 3, 1, fun y => adminDone ⟨0, 0, 7⟩ .success 0 [] (cqPost 0 0 1 3 .abortRequested 0 0 [] y), by decide +kernel,
     by decide +kernel, fun _ => rfl, by decide +kernel, by decide +kernel, _, rfl, by decide +kernel⟩,
   ⟨{ upDev with host.ops := [(1, op0)] }, ⟨0, 0, 7⟩, 1, 3, 1, fun y => adminDone ⟨0, 0, 7⟩ .success 0 [] (cqPost 0 0 1 3 .abortRequested 0 0 [] y),
     by decide +kernel, by decide +kernel, fun _ => rfl, by decide +kernel, by decide +kernel, _, rfl, 1, op0, by decide +kernel⟩,
   ⟨{ upDev with host.ops := [(1, { op0 with dispatched := false })] }, ⟨0, 0, 7⟩, 1, 3, 1, fun y => adminDone ⟨0, 0, 7⟩ .success 0 [] (cqPost 0 0 1 3
     .abortRequested 0 0 [] y), by decide +kernel, by decide +kernel, fun _ => rfl, by decide +kernel, by decide +kernel, _, rfl, 1,
     { op0 with dispatched := false }, by decide +kernel⟩,
   ⟨{ upDev with host.ctrls := [(0, { Ctrl.init with en := true, rdy := true, events := [4] })] }, ⟨0, 0, 7⟩, _, by decide +kernel, rfl, _, _, rfl⟩,
   ⟨{ upDev with host.ctrls := [(0, { Ctrl.init with en := true, rdy := true, aers := List.range 15 })] }, ⟨0, 0, 7⟩, _, by decide +kernel, rfl,
     by decide +kernel⟩,
   ⟨{ upDev with host.ctrls := [(0, { Ctrl.init with en := true, rdy := true, aers := List.range 16 })] }, ⟨0, 0, 7⟩, _, by decide +kernel, rfl,
     by decide +kernel⟩,
   ⟨upDev, _, rfl⟩,
   ⟨{ upDev with host.ports := [(0, { Port.init with perst := false, link := .l0, hmb := .rebuilding })], med.recovered := true }, 0, _, rfl⟩⟩

/-- Devices and operands that meet the hypotheses of ReservationCommands, clause by clause. -/
theorem witness_ReservationCommands :
    (∃ (d : Dev) (c : Src) (sq nsid host action crkey nrkey : Nat) (ig pt : Bool), resvFind c sq nsid (.register host action ig crkey nrkey pt) d =
      none) ∧
    (∃ (d : Dev) (c : Src) (sq nsid host action crkey nrkey : Nat) (ig pt : Bool), ∃ tag o, resvFind c sq nsid (.register host action ig crkey nrkey
      pt) d = some (tag, o) ∧ nsGet d nsid = none) ∧
    (∃ (d : Dev) (c : Src) (sq nsid action rtype crkey prkey : Nat), resvFind c sq nsid (.acquire action rtype crkey prkey) d = none) ∧
    (∃ (d : Dev) (c : Src) (sq nsid action rtype crkey prkey : Nat), ∃ tag o, resvFind c sq nsid (.acquire action rtype crkey prkey) d = some (tag, o)
      ∧ nsGet d nsid = none) ∧
    (∃ (d : Dev) (c : Src) (sq : Nat) (nsid : Nat) (action : Nat) (rtype : Nat) (crkey : Nat), resvFind c sq nsid (.release action rtype crkey) d =
      none) ∧
    (∃ (d : Dev) (c : Src) (sq : Nat) (nsid : Nat) (action : Nat) (rtype : Nat) (crkey : Nat), ∃ tag o, resvFind c sq nsid (.release action rtype
      crkey) d = some (tag, o) ∧ nsGet d nsid = none) ∧
    (∃ (d : Dev) (c : Src) (sq : Nat) (nsid : Nat), resvFind c sq nsid .report d = none) ∧
    (∃ (d : Dev) (c : Src) (sq : Nat) (nsid : Nat), ∃ tag o, resvFind c sq nsid .report d = some (tag, o) ∧ nsGet d nsid = none) ∧
    (∃ (d x : Dev) (c : Src) (sq nsid tag host action crkey nrkey : Nat) (ig pt : Bool) (o : Op) (n : Ns) (new : Registrant), resvFind c sq nsid
      (.register host action ig crkey nrkey pt) d = some (tag, o) ∧ nsGet d nsid = some n ∧ x = ctrlPut d o.port o.fn { ctrlGet d o.port o.fn with
      hostId := host } ∧ new = { hostId := host, key := nrkey, holder := false, rtype := 0, ptpl := pt } ∧ resvMine n host = none ∧ (action = 0 ∨
      (action = 2 ∧ ig = true)) ∧ n.registrants.length < 64) ∧
    (∃ (d x : Dev) (c : Src) (sq nsid tag host action crkey nrkey : Nat) (ig pt : Bool) (o : Op) (n : Ns) (new : Registrant), resvFind c sq nsid
      (.register host action ig crkey nrkey pt) d = some (tag, o) ∧ nsGet d nsid = some n ∧ x = ctrlPut d o.port o.fn { ctrlGet d o.port o.fn with
      hostId := host } ∧ new = { hostId := host, key := nrkey, holder := false, rtype := 0, ptpl := pt } ∧ resvMine n host = none ∧ action = 0 ∧ 64 ≤
      n.registrants.length) ∧
    (∃ (d x : Dev) (c : Src) (sq nsid tag host action crkey nrkey : Nat) (ig pt : Bool) (o : Op) (n : Ns) (new : Registrant), resvFind c sq nsid
      (.register host action ig crkey nrkey pt) d = some (tag, o) ∧ nsGet d nsid = some n ∧ x = ctrlPut d o.port o.fn { ctrlGet d o.port o.fn with
      hostId := host } ∧ new = { hostId := host, key := nrkey, holder := false, rtype := 0, ptpl := pt } ∧ resvMine n host = none ∧ (action = 1 ∨
      (action = 2 ∧ (ig = false ∨ 64 ≤ n.registrants.length)))) ∧
    (∃ (d x : Dev) (c : Src) (sq nsid tag host action crkey nrkey : Nat) (ig pt : Bool) (o : Op) (n : Ns) (new : Registrant), resvFind c sq nsid
      (.register host action ig crkey nrkey pt) d = some (tag, o) ∧ nsGet d nsid = some n ∧ x = ctrlPut d o.port o.fn { ctrlGet d o.port o.fn with
      hostId := host } ∧ new = { hostId := host, key := nrkey, holder := false, rtype := 0, ptpl := pt } ∧ ∃ r, resvMine n host = some r ∧ action = 0
      ∧ r.key = nrkey) ∧
    (∃ (d x : Dev) (c : Src) (sq nsid tag host action crkey nrkey : Nat) (ig pt : Bool) (o : Op) (n : Ns) (new : Registrant), resvFind c sq nsid
      (.register host action ig crkey nrkey pt) d = some (tag, o) ∧ nsGet d nsid = some n ∧ x = ctrlPut d o.port o.fn { ctrlGet d o.port o.fn with
      hostId := host } ∧ new = { hostId := host, key := nrkey, holder := false, rtype := 0, ptpl := pt } ∧ ∃ r, resvMine n host = some r ∧ action = 0
      ∧ r.key ≠ nrkey) ∧
    (∃ (d x : Dev) (c : Src) (sq nsid tag host action crkey nrkey : Nat) (ig pt : Bool) (o : Op) (n : Ns) (new : Registrant), resvFind c sq nsid
      (.register host action ig crkey nrkey pt) d = some (tag, o) ∧ nsGet d nsid = some n ∧ x = ctrlPut d o.port o.fn { ctrlGet d o.port o.fn with
      hostId := host } ∧ new = { hostId := host, key := nrkey, holder := false, rtype := 0, ptpl := pt } ∧ ∃ r, resvMine n host = some r ∧ (action = 1
      ∨ action = 2) ∧ ig = false ∧ r.key ≠ crkey) ∧
    (∃ (d x : Dev) (c : Src) (sq nsid tag host action crkey nrkey : Nat) (ig pt : Bool) (o : Op) (n : Ns) (new : Registrant), resvFind c sq nsid
      (.register host action ig crkey nrkey pt) d = some (tag, o) ∧ nsGet d nsid = some n ∧ x = ctrlPut d o.port o.fn { ctrlGet d o.port o.fn with
      hostId := host } ∧ new = { hostId := host, key := nrkey, holder := false, rtype := 0, ptpl := pt } ∧ ∃ r, resvMine n host = some r ∧ action = 1
      ∧ (ig = true ∨ r.key = crkey)) ∧
    (∃ (d x : Dev) (c : Src) (sq nsid tag host action crkey nrkey : Nat) (ig pt : Bool) (o : Op) (n : Ns) (new : Registrant), resvFind c sq nsid
      (.register host action ig crkey nrkey pt) d = some (tag, o) ∧ nsGet d nsid = some n ∧ x = ctrlPut d o.port o.fn { ctrlGet d o.port o.fn with
      hostId := host } ∧ new = { hostId := host, key := nrkey, holder := false, rtype := 0, ptpl := pt } ∧ ∃ r, resvMine n host = some r ∧ action = 2
      ∧ (ig = true ∨ r.key = crkey)) ∧
    (∃ (d x : Dev) (c : Src) (sq nsid tag host action crkey nrkey : Nat) (ig pt : Bool) (o : Op) (n : Ns) (new : Registrant), resvFind c sq nsid
      (.register host action ig crkey nrkey pt) d = some (tag, o) ∧ nsGet d nsid = some n ∧ x = ctrlPut d o.port o.fn { ctrlGet d o.port o.fn with
      hostId := host } ∧ new = { hostId := host, key := nrkey, holder := false, rtype := 0, ptpl := pt } ∧ 2 < action) ∧
    (∃ (d : Dev) (c : Src) (sq nsid tag action rtype crkey prkey host : Nat) (o : Op) (n : Ns), resvFind c sq nsid (.acquire action rtype crkey prkey)
      d = some (tag, o) ∧ nsGet d nsid = some n ∧ host = (ctrlGet d o.port o.fn).hostId ∧ resvMine n host = none) ∧
    (∃ (d : Dev) (c : Src) (sq nsid tag action rtype crkey prkey host : Nat) (o : Op) (n : Ns), resvFind c sq nsid (.acquire action rtype crkey prkey)
      d = some (tag, o) ∧ nsGet d nsid = some n ∧ host = (ctrlGet d o.port o.fn).hostId ∧ ∃ me, resvMine n host = some me ∧ me.key ≠ crkey) ∧
    (∃ (d : Dev) (c : Src) (sq nsid tag action rtype crkey prkey host : Nat) (o : Op) (n : Ns), resvFind c sq nsid (.acquire action rtype crkey prkey)
      d = some (tag, o) ∧ nsGet d nsid = some n ∧ host = (ctrlGet d o.port o.fn).hostId ∧ ∃ me, resvMine n host = some me ∧ me.key = crkey ∧ (rtype <
      1 ∨ 6 < rtype ∨ 2 < action)) ∧
    (∃ (d : Dev) (c : Src) (sq nsid tag action rtype crkey prkey host : Nat) (o : Op) (n : Ns), resvFind c sq nsid (.acquire action rtype crkey prkey)
      d = some (tag, o) ∧ nsGet d nsid = some n ∧ host = (ctrlGet d o.port o.fn).hostId ∧ ∃ me, resvMine n host = some me ∧ me.key = crkey ∧ 1 ≤ rtype
      ∧ rtype ≤ 6 ∧ action = 0 ∧ n.registrants.find? (fun r => r.holder) = none) ∧
    (∃ (d : Dev) (c : Src) (sq nsid tag action rtype crkey prkey host : Nat) (o : Op) (n : Ns), resvFind c sq nsid (.acquire action rtype crkey prkey)
      d = some (tag, o) ∧ nsGet d nsid = some n ∧ host = (ctrlGet d o.port o.fn).hostId ∧ ∃ me, resvMine n host = some me ∧ me.key = crkey ∧ 1 ≤ rtype
      ∧ rtype ≤ 6 ∧ action = 0 ∧ ∃ h, n.registrants.find? (fun r => r.holder) = some h ∧ h.hostId = host ∧ h.rtype = rtype) ∧
    (∃ (d : Dev) (c : Src) (sq nsid tag action rtype crkey prkey host : Nat) (o : Op) (n : Ns), resvFind c sq nsid (.acquire action rtype crkey prkey)
      d = some (tag, o) ∧ nsGet d nsid = some n ∧ host = (ctrlGet d o.port o.fn).hostId ∧ ∃ me, resvMine n host = some me ∧ me.key = crkey ∧ 1 ≤ rtype
      ∧ rtype ≤ 6 ∧ action = 0 ∧ ∃ h, n.registrants.find? (fun r => r.holder) = some h ∧ (h.hostId ≠ host ∨ h.rtype ≠ rtype)) ∧
    (∃ (d : Dev) (c : Src) (sq nsid tag action rtype crkey prkey host : Nat) (o : Op) (n : Ns), resvFind c sq nsid (.acquire action rtype crkey prkey)
      d = some (tag, o) ∧ nsGet d nsid = some n ∧ host = (ctrlGet d o.port o.fn).hostId ∧ ∃ me, resvMine n host = some me ∧ ∃ (all hit : Bool) (out :
      Registrant → Bool) (kept : List Registrant), me.key = crkey ∧ 1 ≤ rtype ∧ rtype ≤ 6 ∧ (action = 1 ∨ action = 2) ∧ (all =
      (match n.registrants.find? (fun r => r.holder) with | some h => decide (h.rtype = 5 ∨ h.rtype = 6) | none => false)) ∧ hit =
      (match n.registrants.find? (fun r => r.holder) with | some h => decide (h.key = prkey) || (all && decide (prkey = 0)) | none => false) ∧ (∀ q,
      out q = (decide (q.hostId ≠ host) && (decide (q.key = prkey) || (all && decide (prkey = 0))))) ∧ kept = n.registrants.filter (fun q => !out q) ∧
      hit = true) ∧
    (∃ (d : Dev) (c : Src) (sq nsid tag action rtype crkey prkey host : Nat) (o : Op) (n : Ns), resvFind c sq nsid (.acquire action rtype crkey prkey)
      d = some (tag, o) ∧ nsGet d nsid = some n ∧ host = (ctrlGet d o.port o.fn).hostId ∧ ∃ me, resvMine n host = some me ∧ ∃ (all hit : Bool) (out :
      Registrant → Bool) (kept : List Registrant), me.key = crkey ∧ 1 ≤ rtype ∧ rtype ≤ 6 ∧ (action = 1 ∨ action = 2) ∧ (all =
      (match n.registrants.find? (fun r => r.holder) with | some h => decide (h.rtype = 5 ∨ h.rtype = 6) | none => false)) ∧ hit =
      (match n.registrants.find? (fun r => r.holder) with | some h => decide (h.key = prkey) || (all && decide (prkey = 0)) | none => false) ∧ (∀ q,
      out q = (decide (q.hostId ≠ host) && (decide (q.key = prkey) || (all && decide (prkey = 0))))) ∧ kept = n.registrants.filter (fun q => !out q) ∧
      hit = false ∧ (∃ q ∈ n.registrants, out q = true)) ∧
    (∃ (d : Dev) (c : Src) (sq nsid tag action rtype crkey prkey host : Nat) (o : Op) (n : Ns), resvFind c sq nsid (.acquire action rtype crkey prkey)
      d = some (tag, o) ∧ nsGet d nsid = some n ∧ host = (ctrlGet d o.port o.fn).hostId ∧ ∃ me, resvMine n host = some me ∧ ∃ (all hit : Bool) (out :
      Registrant → Bool) (kept : List Registrant), me.key = crkey ∧ 1 ≤ rtype ∧ rtype ≤ 6 ∧ (action = 1 ∨ action = 2) ∧ (all =
      (match n.registrants.find? (fun r => r.holder) with | some h => decide (h.rtype = 5 ∨ h.rtype = 6) | none => false)) ∧ hit =
      (match n.registrants.find? (fun r => r.holder) with | some h => decide (h.key = prkey) || (all && decide (prkey = 0)) | none => false) ∧ (∀ q,
      out q = (decide (q.hostId ≠ host) && (decide (q.key = prkey) || (all && decide (prkey = 0))))) ∧ kept = n.registrants.filter (fun q => !out q) ∧
      hit = false ∧ (∀ q ∈ n.registrants, out q = false)) ∧
    (∃ (d : Dev) (c : Src) (sq nsid tag action rtype crkey host : Nat) (o : Op) (n : Ns), resvFind c sq nsid (.release action rtype crkey) d = some
      (tag, o) ∧ nsGet d nsid = some n ∧ host = (ctrlGet d o.port o.fn).hostId ∧ resvMine n host = none) ∧
    (∃ (d : Dev) (c : Src) (sq nsid tag action rtype crkey host : Nat) (o : Op) (n : Ns), resvFind c sq nsid (.release action rtype crkey) d = some
      (tag, o) ∧ nsGet d nsid = some n ∧ host = (ctrlGet d o.port o.fn).hostId ∧ ∃ me, resvMine n host = some me ∧ me.key ≠ crkey) ∧
    (∃ (d : Dev) (c : Src) (sq nsid tag action rtype crkey host : Nat) (o : Op) (n : Ns), resvFind c sq nsid (.release action rtype crkey) d = some
      (tag, o) ∧ nsGet d nsid = some n ∧ host = (ctrlGet d o.port o.fn).hostId ∧ ∃ me, resvMine n host = some me ∧ me.key = crkey ∧ action = 1) ∧
    (∃ (d : Dev) (c : Src) (sq nsid tag action rtype crkey host : Nat) (o : Op) (n : Ns), resvFind c sq nsid (.release action rtype crkey) d = some
      (tag, o) ∧ nsGet d nsid = some n ∧ host = (ctrlGet d o.port o.fn).hostId ∧ ∃ me, resvMine n host = some me ∧ me.key = crkey ∧ 2 ≤ action) ∧
    (∃ (d : Dev) (c : Src) (sq nsid tag action rtype crkey host : Nat) (o : Op) (n : Ns), resvFind c sq nsid (.release action rtype crkey) d = some
      (tag, o) ∧ nsGet d nsid = some n ∧ host = (ctrlGet d o.port o.fn).hostId ∧ ∃ me, resvMine n host = some me ∧ me.key = crkey ∧ action = 0 ∧
      me.holder = false) ∧
    (∃ (d : Dev) (c : Src) (sq nsid tag action rtype crkey host : Nat) (o : Op) (n : Ns), resvFind c sq nsid (.release action rtype crkey) d = some
      (tag, o) ∧ nsGet d nsid = some n ∧ host = (ctrlGet d o.port o.fn).hostId ∧ ∃ me, resvMine n host = some me ∧ me.key = crkey ∧ action = 0 ∧
      me.holder = true ∧ me.rtype ≠ rtype) ∧
    (∃ (d : Dev) (c : Src) (sq nsid tag action rtype crkey host : Nat) (o : Op) (n : Ns), resvFind c sq nsid (.release action rtype crkey) d = some
      (tag, o) ∧ nsGet d nsid = some n ∧ host = (ctrlGet d o.port o.fn).hostId ∧ ∃ me, resvMine n host = some me ∧ me.key = crkey ∧ action = 0 ∧
      me.holder = true ∧ me.rtype = rtype) ∧
    (∃ (d : Dev) (c : Src) (sq nsid tag t : Nat) (o : Op) (n : Ns), resvFind c sq nsid .report d = some (tag, o) ∧ nsGet d nsid = some n ∧ t =
      (match n.registrants.find? (fun r => r.holder) with | some h => h.rtype | none => 0)) ∧
    (∃ (d : Dev) (c : Src) (sq nsid tag : Nat) (a : ResvAct) (o : Op), resvFind c sq nsid a d = some (tag, o)) ∧
    (∃ (d : Dev) (c : Src) (sq nsid : Nat) (a : ResvAct), resvFind c sq nsid a d = none) ∧
    (∃ (nsid : Nat), ∃ i, i ≠ nsid) :=
  ⟨⟨(resvDev (.report) [rg0]), ⟨0, 0, 3⟩, 1, 1, 5, 0, 0, 9, false, false, by decide +kernel⟩,
   ⟨({ resvDev (.register 5 0 false 0 9 false) [] with ten.namespaces := [] }), ⟨0, 0, 3⟩, 1, 1, 5, 0, 0, 9, false, false, _, _, rfl,
     by decide +kernel⟩,
   ⟨(resvDev (.report) [rg0]), ⟨0, 0, 3⟩, 1, 1, 0, 0, 0, 0, by decide +kernel⟩,
   ⟨({ resvDev (.acquire 0 1 9 0) [] with ten.namespaces := [] }), ⟨0, 0, 3⟩, 1, 1, 0, 1, 9, 0, _, _, rfl, by decide +kernel⟩,
   ⟨(resvDev (.report) [rg0]), ⟨0, 0, 3⟩, 1, 1, 0, 0, 0, by decide +kernel⟩,
   ⟨({ resvDev (.release 0 1 9) [] with ten.namespaces := [] }), ⟨0, 0, 3⟩, 1, 1, 0, 1, 9, _, _, rfl, by decide +kernel⟩,
   ⟨(resvDev (.release 0 0 0) [rg0]), ⟨0, 0, 3⟩, 1, 1, by decide +kernel⟩,
   ⟨({ resvDev (.report) [] with ten.namespaces := [] }), ⟨0, 0, 3⟩, 1, 1, _, _, rfl, by decide +kernel⟩,
   ⟨(resvDev (.register 5 2 true 0 9 false) (List.replicate 63 { rg0 with hostId := 6 })), _, ⟨0, 0, 3⟩, 1, 1, _, 5, 2, 0, 9, true, false, _, _, _,
     rfl, rfl, rfl, rfl, by decide +kernel⟩,
   ⟨(resvDev (.register 5 0 false 0 9 false) (List.replicate 64 { rg0 with hostId := 6 })), _, ⟨0, 0, 3⟩, 1, 1, _, 5, 0, 0, 9, false, false, _, _, _,
     rfl, rfl, rfl, rfl, by decide +kernel⟩,
   ⟨(resvDev (.register 5 2 true 0 9 false) (List.replicate 64 { rg0 with hostId := 6 })), _, ⟨0, 0, 3⟩, 1, 1, _, 5, 2, 0, 9, true, false, _, _, _,
     rfl, rfl, rfl, rfl, by decide +kernel⟩,
   ⟨(resvDev (.register 5 0 false 0 9 false) [rg0]), _, ⟨0, 0, 3⟩, 1, 1, _, 5, 0, 0, 9, false, false, _, _, _, rfl, rfl, rfl, rfl, _, rfl,
     by decide +kernel⟩,
   ⟨(resvDev (.register 5 0 false 0 8 false) [rg0]), _, ⟨0, 0, 3⟩, 1, 1, _, 5, 0, 0, 8, false, false, _, _, _, rfl, rfl, rfl, rfl, _, rfl,
     by decide +kernel⟩,
   ⟨(resvDev (.register 5 2 false 8 7 false) [rg0]), _, ⟨0, 0, 3⟩, 1, 1, _, 5, 2, 8, 7, false, false, _, _, _, rfl, rfl, rfl, rfl, _, rfl,
     by decide +kernel⟩,
   ⟨(resvDev (.register 5 1 false 9 0 false) [rg0]), _, ⟨0, 0, 3⟩, 1, 1, _, 5, 1, 9, 0, false, false, _, _, _, rfl, rfl, rfl, rfl, _, rfl,
     by decide +kernel⟩,
   ⟨(resvDev (.register 5 2 false 9 7 false) [rg0]), _, ⟨0, 0, 3⟩, 1, 1, _, 5, 2, 9, 7, false, false, _, _, _, rfl, rfl, rfl, rfl, _, rfl,
     by decide +kernel⟩,
   ⟨(resvDev (.register 5 3 false 9 7 false) [rg0]), _, ⟨0, 0, 3⟩, 1, 1, _, 5, 3, 9, 7, false, false, _, _, _, rfl, rfl, rfl, rfl, by decide +kernel⟩,
   ⟨(resvDev (.acquire 0 1 9 0) []), ⟨0, 0, 3⟩, 1, 1, _, 0, 1, 9, 0, _, _, _, rfl, rfl, rfl, by decide +kernel⟩,
   ⟨(resvDev (.acquire 0 1 8 0) [rg0]), ⟨0, 0, 3⟩, 1, 1, _, 0, 1, 8, 0, _, _, _, rfl, rfl, rfl, _, rfl, by decide +kernel⟩,
   ⟨(resvDev (.acquire 0 7 9 0) [rg0]), ⟨0, 0, 3⟩, 1, 1, _, 0, 7, 9, 0, _, _, _, rfl, rfl, rfl, _, rfl, by decide +kernel⟩,
   ⟨(resvDev (.acquire 0 6 9 0) [rg0]), ⟨0, 0, 3⟩, 1, 1, _, 0, 6, 9, 0, _, _, _, rfl, rfl, rfl, _, rfl, by decide +kernel⟩,
   ⟨(resvDev (.acquire 0 6 9 0) [{ rg0 with holder := true, rtype := 6 }]), ⟨0, 0, 3⟩, 1, 1, _, 0, 6, 9, 0, _, _, _, rfl, rfl, rfl, _, rfl,
     by decide +kernel, by decide +kernel, by decide +kernel, by decide +kernel, _, rfl, by decide +kernel⟩,
   ⟨(resvDev (.acquire 0 6 9 0) [rg0, { rg0 with hostId := 6, holder := true }]), ⟨0, 0, 3⟩, 1, 1, _, 0, 6, 9, 0, _, _, _, rfl, rfl, rfl, _, rfl,
     by decide +kernel, by decide +kernel, by decide +kernel, by decide +kernel, _, rfl, by decide +kernel⟩,
   ⟨(resvDev (.acquire 2 6 9 4) [rg0, { rg0 with hostId := 6, key := 4, holder := true, rtype := 4 }]), ⟨0, 0, 3⟩, 1, 1, _, 2, 6, 9, 4, _, _, _, rfl,
     rfl, rfl, _, rfl, false, true, fun q => decide (q.hostId ≠ 5) && (decide (q.key = 4) || (false && decide (4 = 0))), _, by decide +kernel,
     by decide +kernel, by decide +kernel, by decide +kernel, rfl, rfl, fun _ => rfl, rfl, by decide +kernel⟩,
   ⟨(resvDev (.acquire 2 6 9 4) [rg0, { rg0 with hostId := 6, key := 4 }]), ⟨0, 0, 3⟩, 1, 1, _, 2, 6, 9, 4, _, _, _, rfl, rfl, rfl, _, rfl, false,
     false, fun q => decide (q.hostId ≠ 5) && (decide (q.key = 4) || (false && decide (4 = 0))), _, by decide +kernel, by decide +kernel,
     by decide +kernel, by decide +kernel, rfl, rfl, fun _ => rfl, rfl, by decide +kernel⟩,
   ⟨(resvDev (.acquire 2 6 9 4) [rg0, { rg0 with hostId := 6, key := 3 }]), ⟨0, 0, 3⟩, 1, 1, _, 2, 6, 9, 4, _, _, _, rfl, rfl, rfl, _, rfl, false,
     false, fun q => decide (q.hostId ≠ 5) && (decide (q.key = 4) || (false && decide (4 = 0))), _, by decide +kernel, by decide +kernel,
     by decide +kernel, by decide +kernel, rfl, rfl, fun _ => rfl, rfl, by decide +kernel⟩,
   ⟨(resvDev (.release 0 1 9) []), ⟨0, 0, 3⟩, 1, 1, _, 0, 1, 9, _, _, _, rfl, rfl, rfl, by decide +kernel⟩,
   ⟨(resvDev (.release 0 1 8) [rg0]), ⟨0, 0, 3⟩, 1, 1, _, 0, 1, 8, _, _, _, rfl, rfl, rfl, _, rfl, by decide +kernel⟩,
   ⟨(resvDev (.release 1 0 9) [rg0]), ⟨0, 0, 3⟩, 1, 1, _, 1, 0, 9, _, _, _, rfl, rfl, rfl, _, rfl, by decide +kernel⟩,
   ⟨(resvDev (.release 2 0 9) [rg0]), ⟨0, 0, 3⟩, 1, 1, _, 2, 0, 9, _, _, _, rfl, rfl, rfl, _, rfl, by decide +kernel⟩,
   ⟨(resvDev (.release 0 0 9) [rg0]), ⟨0, 0, 3⟩, 1, 1, _, 0, 0, 9, _, _, _, rfl, rfl, rfl, _, rfl, by decide +kernel⟩,
   ⟨(resvDev (.release 0 5 9) [{ rg0 with holder := true, rtype := 6 }]), ⟨0, 0, 3⟩, 1, 1, _, 0, 5, 9, _, _, _, rfl, rfl, rfl, _, rfl,
     by decide +kernel⟩,
   ⟨(resvDev (.release 0 6 9) [{ rg0 with holder := true, rtype := 6 }]), ⟨0, 0, 3⟩, 1, 1, _, 0, 6, 9, _, _, _, rfl, rfl, rfl, _, rfl,
     by decide +kernel⟩,
   ⟨(resvDev (.report) [rg0]), ⟨0, 0, 3⟩, 1, 1, _, _, _, _, rfl, rfl, rfl⟩,
   ⟨(resvDev (.report) [rg0]), ⟨0, 0, 3⟩, 1, 1, 9, .report, _, rfl⟩,
   ⟨(resvDev (.report) [rg0]), ⟨0, 0, 3⟩, 1, 1, .release 0 0 0, by decide +kernel⟩,
   ⟨1, 0, by decide +kernel⟩⟩

/-- Devices and operands that meet the hypotheses of ImageAndLayoutCommands, clause by clause, but for those on a free value, which nothing decides. -/
theorem witness_ImageAndLayoutCommands :
    (∃ (d : Dev) (c : Src) (off : Nat) (bs : List Byte), adminUp c d = true ∧ off % 4096 = 0 ∧ bs.length % 4096 = 0 ∧ bs ≠ [] ∧ off + bs.length ≤
      3145728) ∧
    (∃ (d : Dev) (c : Src) (off : Nat) (bs : List Byte), adminUp c d = true ∧ (off % 4096 ≠ 0 ∨ bs.length % 4096 ≠ 0 ∨ bs = [] ∨ 3145728 < off +
      bs.length)) ∧
    (∃ (d : Dev) (c : Src) (slot action s : Nat) (img : List Byte), adminUp c d = true ∧ d.boot.trial = false ∧ s = (if slot = 0 then 1 -
      d.boot.gov.image % 2 else slot - 1) ∧ img = cellsTake (d.host.download.foldl (fun m q => max m (q.1 + 1)) 0) d.host.download ∧ 2 < action) ∧
    (∃ (d : Dev) (c : Src) (slot action s : Nat) (img : List Byte), adminUp c d = true ∧ d.boot.trial = false ∧ s = (if slot = 0 then 1 -
      d.boot.gov.image % 2 else slot - 1) ∧ img = cellsTake (d.host.download.foldl (fun m q => max m (q.1 + 1)) 0) d.host.download ∧ action ≤ 2 ∧ 1 <
      s) ∧
    (∃ (d : Dev) (c : Src) (slot action s : Nat) (img : List Byte), adminUp c d = true ∧ d.boot.trial = false ∧ s = (if slot = 0 then 1 -
      d.boot.gov.image % 2 else slot - 1) ∧ img = cellsTake (d.host.download.foldl (fun m q => max m (q.1 + 1)) 0) d.host.download ∧ action ≤ 1 ∧ s ≤
      1 ∧ s = d.boot.gov.image) ∧
    (∃ (d : Dev) (c : Src) (slot action s : Nat) (img : List Byte), adminUp c d = true ∧ d.boot.trial = false ∧ s = (if slot = 0 then 1 -
      d.boot.gov.image % 2 else slot - 1) ∧ img = cellsTake (d.host.download.foldl (fun m q => max m (q.1 + 1)) 0) d.host.download ∧ action ≤ 1 ∧ s ≤
      1 ∧ s ≠ d.boot.gov.image ∧ imageOk d img = false) ∧
    (∃ (d : Dev) (c : Src) (slot : Nat) (s : Nat) (img : List Byte), adminUp c d = true ∧ d.boot.trial = false ∧ s = (if slot = 0 then 1 -
      d.boot.gov.image % 2 else slot - 1) ∧ img = cellsTake (d.host.download.foldl (fun m q => max m (q.1 + 1)) 0) d.host.download ∧ s ≤ 1 ∧ s ≠
      d.boot.gov.image) ∧
    (∃ (d : Dev) (c : Src) (slot : Nat) (s : Nat) (img : List Byte), adminUp c d = true ∧ d.boot.trial = false ∧ s = (if slot = 0 then 1 -
      d.boot.gov.image % 2 else slot - 1) ∧ img = cellsTake (d.host.download.foldl (fun m q => max m (q.1 + 1)) 0) d.host.download ∧ s ≤ 1 ∧ s ≠
      d.boot.gov.image) ∧
    (∃ (d : Dev) (c : Src) (slot : Nat) (s : Nat) (img : List Byte), adminUp c d = true ∧ d.boot.trial = false ∧ s = (if slot = 0 then 1 -
      d.boot.gov.image % 2 else slot - 1) ∧ img = cellsTake (d.host.download.foldl (fun m q => max m (q.1 + 1)) 0) d.host.download ∧ s ≤ 1) ∧
    (∃ (d : Dev) (c : Src) (bs : List Byte), adminUp c d = true ∧ c.fn = 0 ∧ d.boot.trial = false ∧ bs = []) ∧
    (∃ (d : Dev) (c : Src) (off : Nat) (bs : List Byte), adminUp c d = true ∧ c.fn = 0 ∧ d.boot.trial = false ∧ bs ≠ [] ∧ (bs.length % 4 ≠ 0 ∨ 1048576
      < off + bs.length)) ∧
    (∃ (d : Dev) (c : Src) (off : Nat) (bs : List Byte), adminUp c d = true ∧ c.fn = 0 ∧ d.boot.trial = false ∧ ∃ p, bs ≠ [] ∧ bs.length % 4 = 0 ∧ off
      + bs.length ≤ 1048576 ∧ d.host.layoutPort = some p ∧ p ≠ c.port) ∧
    (∃ (d : Dev) (c : Src) (off : Nat) (bs : List Byte), adminUp c d = true ∧ c.fn = 0 ∧ d.boot.trial = false ∧ bs ≠ [] ∧ bs.length % 4 = 0 ∧ off +
      bs.length ≤ 1048576 ∧ (d.host.layoutPort = none ∨ d.host.layoutPort = some c.port)) ∧
    (∃ (d e : Dev) (c : Src) (bs : List Byte) (st : Status), adminUp c d = true ∧ c.fn = 0 ∧ d.boot.trial = false ∧ (d.host.layoutPort = none ∨
      d.host.layoutPort = some c.port) ∧ bs = cellsTake (min 1048576 (leAt (cellsTake 64 d.host.layoutXfer) 8 4)) d.host.layoutXfer ∧ st =
      streamStatus d.fuse bs ∧ e = { d with host := { d.host with layoutXfer := [], layoutPort := none } } ∧ xferWhole d.host.layoutXfer = false) ∧
    (∃ (d e : Dev) (c : Src) (bs : List Byte) (st : Status), adminUp c d = true ∧ c.fn = 0 ∧ d.boot.trial = false ∧ (d.host.layoutPort = none ∨
      d.host.layoutPort = some c.port) ∧ bs = cellsTake (min 1048576 (leAt (cellsTake 64 d.host.layoutXfer) 8 4)) d.host.layoutXfer ∧ st =
      streamStatus d.fuse bs ∧ e = { d with host := { d.host with layoutXfer := [], layoutPort := none } } ∧ xferWhole d.host.layoutXfer = true ∧ (st
      = .reject ∨ leAt bs 16 8 ≤ d.med.layout.seq)) ∧
    (∃ (d e : Dev) (c : Src) (bs : List Byte) (st : Status), adminUp c d = true ∧ c.fn = 0 ∧ d.boot.trial = false ∧ (d.host.layoutPort = none ∨
      d.host.layoutPort = some c.port) ∧ bs = cellsTake (min 1048576 (leAt (cellsTake 64 d.host.layoutXfer) 8 4)) d.host.layoutXfer ∧ st =
      streamStatus d.fuse bs ∧ e = { d with host := { d.host with layoutXfer := [], layoutPort := none } } ∧ xferWhole d.host.layoutXfer = true ∧
      d.med.layout.seq < leAt bs 16 8) ∧
    (∃ (d e : Dev) (c : Src) (bs : List Byte) (st : Status), adminUp c d = true ∧ c.fn = 0 ∧ d.boot.trial = false ∧ (d.host.layoutPort = none ∨
      d.host.layoutPort = some c.port) ∧ bs = cellsTake (min 1048576 (leAt (cellsTake 64 d.host.layoutXfer) 8 4)) d.host.layoutXfer ∧ st =
      streamStatus d.fuse bs ∧ e = { d with host := { d.host with layoutXfer := [], layoutPort := none } } ∧ xferWhole d.host.layoutXfer = true ∧
      d.med.layout.seq < leAt bs 16 8) ∧
    (∃ (d e : Dev) (c : Src) (bs : List Byte) (st : Status), adminUp c d = true ∧ c.fn = 0 ∧ d.boot.trial = false ∧ (d.host.layoutPort = none ∨
      d.host.layoutPort = some c.port) ∧ bs = cellsTake (min 1048576 (leAt (cellsTake 64 d.host.layoutXfer) 8 4)) d.host.layoutXfer ∧ st =
      streamStatus d.fuse bs ∧ e = { d with host := { d.host with layoutXfer := [], layoutPort := none } } ∧ xferWhole d.host.layoutXfer = true ∧
      d.med.layout.seq < leAt bs 16 8 ∧ frozenOk d bs = true) ∧
    (∃ (d e : Dev) (c : Src) (bs : List Byte) (st : Status), adminUp c d = true ∧ c.fn = 0 ∧ d.boot.trial = false ∧ (d.host.layoutPort = none ∨
      d.host.layoutPort = some c.port) ∧ bs = cellsTake (min 1048576 (leAt (cellsTake 64 d.host.layoutXfer) 8 4)) d.host.layoutXfer ∧ st =
      streamStatus d.fuse bs ∧ e = { d with host := { d.host with layoutXfer := [], layoutPort := none } } ∧ ∃ slot x, xferWhole d.host.layoutXfer =
      true ∧ d.med.layout.seq < leAt bs 16 8 ∧ frozenOk d bs = true ∧ slot = 1 - d.boot.layout % 2 ∧ x = slotWrite (layoutBase slot) 16 bs (layoutDrop
      e)) ∧
    (∃ (d e : Dev) (c : Src), adminUp c d = true ∧ c.fn = 0 ∧ d.boot.trial = false ∧ (d.host.layoutPort = none ∨ d.host.layoutPort = some c.port) ∧ e
      = { d with host := { d.host with layoutXfer := [], layoutPort := none } } ∧ d.boot.gov.pendLayout = 0xFF) ∧
    (∃ (d e : Dev) (c : Src), adminUp c d = true ∧ c.fn = 0 ∧ d.boot.trial = false ∧ (d.host.layoutPort = none ∨ d.host.layoutPort = some c.port) ∧ e
      = { d with host := { d.host with layoutXfer := [], layoutPort := none } } ∧ d.boot.gov.pendLayout ≠ 0xFF ∧ d.boot.gov.pendImage ≠ 0xFF) ∧
    (∃ (d e : Dev) (c : Src), adminUp c d = true ∧ c.fn = 0 ∧ d.boot.trial = false ∧ (d.host.layoutPort = none ∨ d.host.layoutPort = some c.port) ∧ e
      = { d with host := { d.host with layoutXfer := [], layoutPort := none } } ∧ d.boot.gov.pendLayout ≠ 0xFF ∧ d.boot.gov.pendImage = 0xFF) ∧
    (∃ (d : Dev) (c : Src) (p : Nat), adminUp c d = true ∧ c.fn = 0 ∧ d.boot.trial = false ∧ d.host.layoutPort = some p ∧ p ≠ c.port) :=
  ⟨⟨upDev, ⟨0, 0, 7⟩, 3141632, List.replicate 4096 0#8, by decide +kernel⟩,
   ⟨upDev, ⟨0, 0, 7⟩, 0, [], by decide +kernel⟩,
   ⟨upDev, ⟨0, 0, 7⟩, 0, 3, _, _, by decide +kernel, by decide +kernel, rfl, rfl, by decide +kernel⟩,
   ⟨upDev, ⟨0, 0, 7⟩, 3, 2, _, _, by decide +kernel, by decide +kernel, rfl, rfl, by decide +kernel⟩,
   ⟨upDev, ⟨0, 0, 7⟩, 1, 1, _, _, by decide +kernel, by decide +kernel, rfl, rfl, by decide +kernel⟩,
   ⟨upDev, ⟨0, 0, 7⟩, 0, 0, _, _, by decide +kernel, by decide +kernel, rfl, rfl, by decide +kernel⟩,
   ⟨upDev, ⟨0, 0, 7⟩, 2, _, _, by decide +kernel, by decide +kernel, rfl, rfl, by decide +kernel⟩,
   ⟨upDev, ⟨0, 0, 7⟩, 2, _, _, by decide +kernel, by decide +kernel, rfl, rfl, by decide +kernel⟩,
   ⟨upDev, ⟨0, 0, 7⟩, 2, _, _, by decide +kernel, by decide +kernel, rfl, rfl, by decide +kernel⟩,
   ⟨upDev, ⟨0, 0, 7⟩, _, by decide +kernel, by decide +kernel, by decide +kernel, rfl⟩,
   ⟨upDev, ⟨0, 0, 7⟩, 0, [0#8], by decide +kernel⟩,
   ⟨{ upDev with host.layoutPort := some 1 }, ⟨0, 0, 7⟩, 0, [0#8, 0#8, 0#8, 0#8], by decide +kernel, by decide +kernel, by decide +kernel, _,
     by decide +kernel, by decide +kernel, by decide +kernel, rfl, by decide +kernel⟩,
   ⟨upDev, ⟨0, 0, 7⟩, 1048572, [0#8, 0#8, 0#8, 0#8], by decide +kernel⟩,
   ⟨upDev, _, ⟨0, 0, 7⟩, _, _, by decide +kernel, by decide +kernel, by decide +kernel, by decide +kernel, rfl, rfl, rfl, by decide +kernel⟩,
   ⟨{ upDev with host.layoutXfer := (List.range 64).map (fun i => (i, 0#8)) }, _, ⟨0, 0, 7⟩, _, _, by decide +kernel, by decide +kernel,
     by decide +kernel, by decide +kernel, rfl, rfl, rfl, by decide +kernel⟩,
   ⟨{ upDev with host.layoutXfer := (List.range 64).map (fun i => (i, if i = 8 then 64#8 else if i = 16 then 1#8 else 0#8)) }, _, ⟨0, 0, 7⟩, _, _,
     by decide +kernel, by decide +kernel, by decide +kernel, by decide +kernel, rfl, rfl, rfl, by decide +kernel⟩,
   ⟨{ upDev with host.layoutXfer := (List.range 64).map (fun i => (i, if i = 8 then 64#8 else if i = 16 then 1#8 else 0#8)) }, _, ⟨0, 0, 7⟩, _, _,
     by decide +kernel, by decide +kernel, by decide +kernel, by decide +kernel, rfl, rfl, rfl, by decide +kernel⟩,
   ⟨{ upDev with host.layoutXfer := (List.range 64).map (fun i => (i, if i = 8 then 64#8 else if i = 16 then 1#8 else 0#8)) }, _, ⟨0, 0, 7⟩, _, _,
     by decide +kernel, by decide +kernel, by decide +kernel, by decide +kernel, rfl, rfl, rfl, by decide +kernel⟩,
   ⟨{ upDev with host.layoutXfer := (List.range 64).map (fun i => (i, if i = 8 then 64#8 else if i = 16 then 1#8 else 0#8)) }, _, ⟨0, 0, 7⟩, _, _,
     by decide +kernel, by decide +kernel, by decide +kernel, by decide +kernel, rfl, rfl, rfl, 1, _, by decide +kernel, by decide +kernel,
     by decide +kernel, by decide +kernel, rfl⟩,
   ⟨upDev, _, ⟨0, 0, 7⟩, by decide +kernel, by decide +kernel, by decide +kernel, by decide +kernel, rfl, by decide +kernel⟩,
   ⟨{ upDev with boot.gov := { BootRec.blank with pendLayout := 1, pendImage := 1 } }, _, ⟨0, 0, 7⟩, by decide +kernel, by decide +kernel,
     by decide +kernel, by decide +kernel, rfl, by decide +kernel⟩,
   ⟨{ upDev with boot.gov := { BootRec.blank with pendLayout := 1, pendImage := 0xFF } }, _, ⟨0, 0, 7⟩, by decide +kernel, by decide +kernel,
     by decide +kernel, by decide +kernel, rfl, by decide +kernel⟩,
   ⟨{ upDev with host.layoutPort := some 1 }, ⟨0, 0, 7⟩, _, by decide +kernel, by decide +kernel, by decide +kernel, rfl, by decide +kernel⟩⟩

/-- Devices and operands that meet the hypotheses of KennelCommands, clause by clause. -/
theorem witness_KennelCommands :
    (∃ (d : Dev) (c : Src) (k count : Nat) (bs desc : List Byte) (now : Nat) (good : Prop), adminUp c d = true ∧ c.fn = 0 ∧ d.boot.trial = false ∧
      desc = padTo 64 bs ∧ now = d.hw.time.toNat ∧ count = d.ten.kennels.length + (if (tabGet d.ten.kennels 0).isSome then 0 else 1) ∧ (good ↔
      (kenFieldsOk d k desc = true ∧ (k = 0 → leAt desc 0 1 = 1 ∧ leAt desc 1 1 ≠ 1))) ∧ (255 < k ∨ (kenGet d k = none ∧ kmaxFor d ≤ k))) ∧
    (∃ (d : Dev) (c : Src) (k count : Nat) (bs desc : List Byte) (now : Nat) (good : Prop), adminUp c d = true ∧ c.fn = 0 ∧ d.boot.trial = false ∧
      desc = padTo 64 bs ∧ now = d.hw.time.toNat ∧ count = d.ten.kennels.length + (if (tabGet d.ten.kennels 0).isSome then 0 else 1) ∧ (good ↔
      (kenFieldsOk d k desc = true ∧ (k = 0 → leAt desc 0 1 = 1 ∧ leAt desc 1 1 ≠ 1))) ∧ k ≤ 255 ∧ (kenGet d k ≠ none ∨ k < kmaxFor d) ∧ (¬ good)) ∧
    (∃ (d : Dev) (c : Src) (k count : Nat) (bs desc : List Byte) (now : Nat) (good : Prop), adminUp c d = true ∧ c.fn = 0 ∧ d.boot.trial = false ∧
      desc = padTo 64 bs ∧ now = d.hw.time.toNat ∧ count = d.ten.kennels.length + (if (tabGet d.ten.kennels 0).isSome then 0 else 1) ∧ (good ↔
      (kenFieldsOk d k desc = true ∧ (k = 0 → leAt desc 0 1 = 1 ∧ leAt desc 1 1 ≠ 1))) ∧ ∃ old, k ≤ 255 ∧ kenGet d k = some old ∧ good ∧ (kenHasData d
      k = false ∨ (decide (leAt desc 1 1 = 1) = old.dedicated ∧ leAt desc 2 2 % 8 = old.packs))) ∧
    (∃ (d : Dev) (c : Src) (k count : Nat) (bs desc : List Byte) (now : Nat) (good : Prop), adminUp c d = true ∧ c.fn = 0 ∧ d.boot.trial = false ∧
      desc = padTo 64 bs ∧ now = d.hw.time.toNat ∧ count = d.ten.kennels.length + (if (tabGet d.ten.kennels 0).isSome then 0 else 1) ∧ (good ↔
      (kenFieldsOk d k desc = true ∧ (k = 0 → leAt desc 0 1 = 1 ∧ leAt desc 1 1 ≠ 1))) ∧ ∃ old, k ≤ 255 ∧ kenGet d k = some old ∧ good ∧ kenHasData d
      k = true ∧ (decide (leAt desc 1 1 = 1) ≠ old.dedicated ∨ leAt desc 2 2 % 8 ≠ old.packs)) ∧
    (∃ (d : Dev) (c : Src) (k count : Nat) (bs desc : List Byte) (now : Nat) (good : Prop), adminUp c d = true ∧ c.fn = 0 ∧ d.boot.trial = false ∧
      desc = padTo 64 bs ∧ now = d.hw.time.toNat ∧ count = d.ten.kennels.length + (if (tabGet d.ten.kennels 0).isSome then 0 else 1) ∧ (good ↔
      (kenFieldsOk d k desc = true ∧ (k = 0 → leAt desc 0 1 = 1 ∧ leAt desc 1 1 ≠ 1))) ∧ ∃ new, k ≤ 255 ∧ kenGet d k = none ∧ k < kmaxFor d ∧ good ∧
      new = kenFull now (kenSetFields now desc Kennel.zero) ∧ (d.med.layout.kmax ≤ count ∨ d.med.layout.kmax ≤ topKennel d)) ∧
    (∃ (d : Dev) (c : Src) (k count : Nat) (bs desc : List Byte) (now : Nat) (good : Prop), adminUp c d = true ∧ c.fn = 0 ∧ d.boot.trial = false ∧
      desc = padTo 64 bs ∧ now = d.hw.time.toNat ∧ count = d.ten.kennels.length + (if (tabGet d.ten.kennels 0).isSome then 0 else 1) ∧ (good ↔
      (kenFieldsOk d k desc = true ∧ (k = 0 → leAt desc 0 1 = 1 ∧ leAt desc 1 1 ≠ 1))) ∧ ∃ new, k ≤ 255 ∧ kenGet d k = none ∧ k < kmaxFor d ∧ good ∧
      new = kenFull now (kenSetFields now desc Kennel.zero) ∧ count < d.med.layout.kmax ∧ topKennel d < d.med.layout.kmax) ∧
    (∃ (d : Dev) (c : Src) (k : Nat), adminUp c d = true ∧ c.fn = 0 ∧ d.boot.trial = false ∧ (k = 0 ∨ kenGet d k = none)) ∧
    (∃ (d : Dev) (c : Src) (k : Nat), adminUp c d = true ∧ c.fn = 0 ∧ d.boot.trial = false ∧ k ≠ 0 ∧ kenGet d k ≠ none ∧ ((∃ q ∈ d.ten.fnBind, q.2 =
      k) ∨ (∃ q ∈ d.ten.nsBind, q.2 = k))) ∧
    (∃ (d : Dev) (c : Src) (k : Nat), adminUp c d = true ∧ c.fn = 0 ∧ d.boot.trial = false ∧ k ≠ 0 ∧ kenGet d k ≠ none ∧ (∀ q ∈ d.ten.fnBind, q.2 ≠ k)
      ∧ (∀ q ∈ d.ten.nsBind, q.2 ≠ k)) ∧
    (∃ (d : Dev) (c : Src) (k : Nat), adminUp c d = true ∧ c.fn = 0 ∧ kenGet d k = none) ∧
    (∃ (d : Dev) (c : Src) (k : Nat), adminUp c d = true ∧ c.fn = 0 ∧ ∃ x, kenGet d k = some x) ∧
    (∃ (d : Dev) (c : Src) (k port fn : Nat), adminUp c d = true ∧ c.fn = 0 ∧ d.boot.trial = false ∧ (kenGet d k = none ∨ ctrlPresent d port fn =
      false)) ∧
    (∃ (d : Dev) (c : Src) (k port fn : Nat), adminUp c d = true ∧ c.fn = 0 ∧ d.boot.trial = false ∧ kenGet d k ≠ none ∧ ctrlPresent d port fn = true) ∧
    (∃ (d : Dev) (c : Src) (k : Nat), adminUp c d = true ∧ c.fn = 0 ∧ d.boot.trial = false ∧ kenGet d k = none) ∧
    (∃ (d : Dev) (c : Src) (k nsid : Nat), adminUp c d = true ∧ c.fn = 0 ∧ d.boot.trial = false ∧ kenGet d k ≠ none ∧ nsGet d nsid = none) ∧
    (∃ (d : Dev) (c : Src) (k nsid : Nat), adminUp c d = true ∧ c.fn = 0 ∧ d.boot.trial = false ∧ kenGet d k ≠ none ∧ nsGet d nsid ≠ none ∧ (nsid, k)
      ∈ d.ten.nsBind) ∧
    (∃ (d : Dev) (c : Src) (k nsid : Nat), adminUp c d = true ∧ c.fn = 0 ∧ d.boot.trial = false ∧ kenGet d k ≠ none ∧ nsGet d nsid ≠ none ∧ (nsid, k)
      ∉ d.ten.nsBind ∧ (1024 ≤ (d.ten.nsBind.filter (fun q => decide (q.2 = k))).length ∨ 16 ≤ (d.ten.nsBind.filter (fun q => decide (q.1 =
      nsid))).length)) ∧
    (∃ (d : Dev) (c : Src) (k nsid : Nat), adminUp c d = true ∧ c.fn = 0 ∧ d.boot.trial = false ∧ kenGet d k ≠ none ∧ nsGet d nsid ≠ none ∧ (nsid, k)
      ∉ d.ten.nsBind ∧ (d.ten.nsBind.filter (fun q => decide (q.2 = k))).length < 1024 ∧ (d.ten.nsBind.filter (fun q => decide (q.1 = nsid))).length <
      16) ∧
    (∃ (d : Dev) (c : Src) (k nsid : Nat), adminUp c d = true ∧ c.fn = 0 ∧ d.boot.trial = false ∧ (nsid, k) ∉ d.ten.nsBind) ∧
    (∃ (d : Dev) (c : Src) (k nsid : Nat), adminUp c d = true ∧ c.fn = 0 ∧ d.boot.trial = false ∧ (nsid, k) ∈ d.ten.nsBind) ∧
    (∃ (k x : Kennel) (bs : List Byte) (now : Nat), x = kenSetFields now bs k) :=
  ⟨⟨upDev, ⟨0, 0, 7⟩, 256, _, [1#8], _, _, kenFieldsOk (upDev) 256 (padTo 64 [1#8]) = true ∧ (256 = 0 → leAt (padTo 64 [1#8]) 0 1 = 1 ∧ leAt (padTo 64
     [1#8]) 1 1 ≠ 1), by decide +kernel, by decide +kernel, by decide +kernel, rfl, rfl, rfl, Iff.rfl, by decide +kernel⟩,
   ⟨{ upDev with ten.kennels := [(0, Kennel.zero), (255, Kennel.zero)] }, ⟨0, 0, 7⟩, 255, _, [4#8], _, _, kenFieldsOk ({ upDev with
     ten.kennels := [(0, Kennel.zero), (255, Kennel.zero)] }) 255 (padTo 64 [4#8]) = true ∧ (255 = 0 → leAt (padTo 64 [4#8]) 0 1 = 1 ∧ leAt (padTo 64
     [4#8]) 1 1 ≠ 1), by decide +kernel, by decide +kernel, by decide +kernel, rfl, rfl, rfl, Iff.rfl, by decide +kernel⟩,
   ⟨{ upDev with ten.kennels := [(0, Kennel.zero), (255, Kennel.zero)] }, ⟨0, 0, 7⟩, 255, _, [3#8], _, _, kenFieldsOk ({ upDev with
     ten.kennels := [(0, Kennel.zero), (255, Kennel.zero)] }) 255 (padTo 64 [3#8]) = true ∧ (255 = 0 → leAt (padTo 64 [3#8]) 0 1 = 1 ∧ leAt (padTo 64
     [3#8]) 1 1 ≠ 1), by decide +kernel, by decide +kernel, by decide +kernel, rfl, rfl, rfl, Iff.rfl, _, by decide +kernel, rfl, by decide +kernel⟩,
   ⟨{ upDev with ten.kennels := [(0, Kennel.zero), (255, Kennel.zero)], med.copies := [(uk 1 0, { cp0 with kennel := 255 })] }, ⟨0, 0, 7⟩, 255, _,
     [1#8, 1#8, 1#8], _, _, kenFieldsOk ({ upDev with
     ten.kennels := [(0, Kennel.zero), (255, Kennel.zero)], med.copies := [(uk 1 0, { cp0 with kennel := 255 })] }) 255 (padTo 64 [1#8, 1#8, 1#8]) =
     true ∧ (255 = 0 → leAt (padTo 64 [1#8, 1#8, 1#8]) 0 1 = 1 ∧ leAt (padTo 64 [1#8, 1#8, 1#8]) 1 1 ≠ 1), by decide +kernel, by decide +kernel,
     by decide +kernel, rfl, rfl, rfl, Iff.rfl, _, by decide +kernel, rfl, by decide +kernel⟩,
   ⟨{ upDev with ten.kennels := [(0, Kennel.zero), (5, Kennel.zero)], med.layout := { Layout.ref with kmax := 2 } }, ⟨0, 0, 7⟩, 1, _, [1#8], _, _,
     kenFieldsOk ({ upDev with ten.kennels := [(0, Kennel.zero), (5, Kennel.zero)], med.layout := { Layout.ref with kmax := 2 } }) 1 (padTo 64 [1#8])
     = true ∧ (1 = 0 → leAt (padTo 64 [1#8]) 0 1 = 1 ∧ leAt (padTo 64 [1#8]) 1 1 ≠ 1), by decide +kernel, by decide +kernel, by decide +kernel, rfl,
     rfl, rfl, Iff.rfl, _, by decide +kernel, by decide +kernel, by decide +kernel, by decide +kernel, rfl, by decide +kernel⟩,
   ⟨upDev, ⟨0, 0, 7⟩, 255, _, [1#8], _, _, kenFieldsOk (upDev) 255 (padTo 64 [1#8]) = true ∧ (255 = 0 → leAt (padTo 64 [1#8]) 0 1 = 1 ∧ leAt (padTo 64
     [1#8]) 1 1 ≠ 1), by decide +kernel, by decide +kernel, by decide +kernel, rfl, rfl, rfl, Iff.rfl, _, by decide +kernel, by decide +kernel,
     by decide +kernel, by decide +kernel, rfl, by decide +kernel⟩,
   ⟨upDev, ⟨0, 0, 7⟩, 0, by decide +kernel⟩,
   ⟨{ upDev with ten.kennels := [(0, Kennel.zero), (255, Kennel.zero)], ten.fnBind := [(0, 255)] }, ⟨0, 0, 7⟩, 255, by decide +kernel⟩,
   ⟨{ upDev with ten.kennels := [(0, Kennel.zero), (255, Kennel.zero)] }, ⟨0, 0, 7⟩, 255, by decide +kernel⟩,
   ⟨upDev, ⟨0, 0, 7⟩, 1, by decide +kernel⟩,
   ⟨upDev, ⟨0, 0, 7⟩, 0, by decide +kernel, by decide +kernel, _, rfl⟩,
   ⟨upDev, ⟨0, 0, 7⟩, 1, 0, 0, by decide +kernel⟩,
   ⟨{ upDev with ten.kennels := [(0, Kennel.zero), (255, Kennel.zero)] }, ⟨0, 0, 7⟩, 255, 0, 0, by decide +kernel⟩,
   ⟨upDev, ⟨0, 0, 7⟩, 1, by decide +kernel⟩,
   ⟨upDev, ⟨0, 0, 7⟩, 0, 0, by decide +kernel⟩,
   ⟨{ upDev with ten.namespaces := [(1, ns0)], ten.nsBind := [(1, 0)] }, ⟨0, 0, 7⟩, 0, 1, by decide +kernel⟩,
   ⟨{ upDev with ten.namespaces := [(1, ns0)], ten.nsBind := (List.range 1024).map (fun i => (i + 2, 0)) }, ⟨0, 0, 7⟩, 0, 1, by decide +kernel⟩,
   ⟨{ upDev with ten.namespaces := [(1, ns0)], ten.nsBind := (List.range 1023).map (fun i => (i + 2, 0)) }, ⟨0, 0, 7⟩, 0, 1, by decide +kernel⟩,
   ⟨upDev, ⟨0, 0, 7⟩, 0, 0, by decide +kernel⟩,
   ⟨{ upDev with ten.nsBind := [(1, 0)] }, ⟨0, 0, 7⟩, 0, 1, by decide +kernel⟩,
   ⟨Kennel.zero, _, [], 5, rfl⟩⟩

/-- Devices and operands that meet the hypotheses of ServiceCommands, clause by clause. -/
theorem witness_ServiceCommands :
    (∃ (d : Dev) (c : Src) (type : Nat), adminUp c d = true ∧ c.fn = 0 ∧ (type < 1 ∨ 3 < type)) ∧
    (∃ (d : Dev) (c : Src) (type n : Nat), adminUp c d = true ∧ c.fn = 0 ∧ 1 ≤ type ∧ type ≤ 3 ∧ unitState d type n = 0) ∧
    (∃ (d : Dev) (c : Src) (type n : Nat), adminUp c d = true ∧ c.fn = 0 ∧ 1 ≤ type ∧ type ≤ 3 ∧ unitState d type n ≠ 0) ∧
    (∃ (d : Dev) (c : Src) (n : Nat), adminUp c d = true ∧ c.fn = 0 ∧ chCount d.fuse ≤ n) ∧
    (∃ (d : Dev) (c : Src) (n : Nat), adminUp c d = true ∧ c.fn = 0 ∧ dieFitted d n = false) ∧
    (∃ (d : Dev) (c : Src) (n : Nat), adminUp c d = true ∧ c.fn = 0 ∧ detCount d.fuse ≤ n) ∧
    (∃ (d : Dev) (c : Src) (n : Nat), adminUp c d = true ∧ c.fn = 0 ∧ dieFitted d n = true ∧ (dieGet d n).st ≠ 1 ∧ (dieGet d n).st ≠ 3) ∧
    (∃ (d : Dev) (c : Src) (n : Nat), adminUp c d = true ∧ c.fn = 0 ∧ dieFitted d n = true ∧ (dieGet d n).st = 1 ∧ stripeLacks d [n] = true) ∧
    (∃ (d : Dev) (c : Src) (n : Nat), adminUp c d = true ∧ c.fn = 0 ∧ dieFitted d n = true ∧ ((dieGet d n).st = 3 ∨ ((dieGet d n).st = 1 ∧ stripeLacks
      d [n] = false))) ∧
    (∃ (d : Dev) (c : Src) (n : Nat), adminUp c d = true ∧ c.fn = 0 ∧ n < chCount d.fuse ∧ (((chanGet d n).st ≠ 1 ∧ (chanGet d n).st ≠ 3) ∨ (chanGet d
      n).leaving ≠ none)) ∧
    (∃ (d : Dev) (c : Src) (n : Nat), adminUp c d = true ∧ c.fn = 0 ∧ ∃ ds x live y, n < chCount d.fuse ∧ ((chanGet d n).st = 1 ∨ (chanGet d n).st =
      3) ∧ (chanGet d n).leaving = none ∧ ds = ((List.range 32).map (fun i => 32 * n + i)).filter (fun k => dieFitted d k) ∧ x = unitRecord 1 n 2
      (chanPut d n { chanGet d n with leaving := some 0, returning := false }) ∧ live = ds.filter (fun k => decide ((dieGet x k).st = 1) || decide
      ((dieGet x k).st = 3)) ∧ y = live.foldl (fun z k => dieTakeOut k 0 z) x ∧ stripeLacks d (ds.filter (fun k => decide ((dieGet d k).st = 1))) =
      true) ∧
    (∃ (d : Dev) (c : Src) (n : Nat), adminUp c d = true ∧ c.fn = 0 ∧ ∃ ds x live y, n < chCount d.fuse ∧ ((chanGet d n).st = 1 ∨ (chanGet d n).st =
      3) ∧ (chanGet d n).leaving = none ∧ ds = ((List.range 32).map (fun i => 32 * n + i)).filter (fun k => dieFitted d k) ∧ x = unitRecord 1 n 2
      (chanPut d n { chanGet d n with leaving := some 0, returning := false }) ∧ live = ds.filter (fun k => decide ((dieGet x k).st = 1) || decide
      ((dieGet x k).st = 3)) ∧ y = live.foldl (fun z k => dieTakeOut k 0 z) x ∧ stripeLacks d (ds.filter (fun k => decide ((dieGet d k).st = 1))) =
      false ∧ live ≠ []) ∧
    (∃ (d : Dev) (c : Src) (n : Nat), adminUp c d = true ∧ c.fn = 0 ∧ ∃ ds x live y, n < chCount d.fuse ∧ ((chanGet d n).st = 1 ∨ (chanGet d n).st =
      3) ∧ (chanGet d n).leaving = none ∧ ds = ((List.range 32).map (fun i => 32 * n + i)).filter (fun k => dieFitted d k) ∧ x = unitRecord 1 n 2
      (chanPut d n { chanGet d n with leaving := some 0, returning := false }) ∧ live = ds.filter (fun k => decide ((dieGet x k).st = 1) || decide
      ((dieGet x k).st = 3)) ∧ y = live.foldl (fun z k => dieTakeOut k 0 z) x ∧ stripeLacks d (ds.filter (fun k => decide ((dieGet d k).st = 1))) =
      false ∧ live = [] ∧ ∃ z, z = chanLeaveCheck n { x with hw := irq x.hw (irqFch n) 1 }) ∧
    (∃ (d : Dev) (c : Src) (n : Nat), adminUp c d = true ∧ c.fn = 0 ∧ n < detCount d.fuse ∧ (((detGet d n).st ≠ 1 ∧ (detGet d n).st ≠ 3) ∨ (detGet d
      n).leaving ≠ none ∨ lastDet d n = true)) ∧
    (∃ (d : Dev) (c : Src) (n : Nat), adminUp c d = true ∧ c.fn = 0 ∧ n < detCount d.fuse ∧ ((detGet d n).st = 1 ∨ (detGet d n).st = 3) ∧ (detGet d
      n).leaving = none ∧ lastDet d n = false) ∧
    (∃ (d : Dev) (c : Src) (n : Nat), adminUp c d = true ∧ c.fn = 0 ∧ dieFitted d n = true ∧ (((dieGet d n).st ≠ 2 ∧ (dieGet d n).st ≠ 4) ∨ (chanGet d
      (chOf n)).st ≠ 1)) ∧
    (∃ (d : Dev) (c : Src) (n : Nat), adminUp c d = true ∧ c.fn = 0 ∧ dieFitted d n = true ∧ ((dieGet d n).st = 2 ∨ (dieGet d n).st = 4) ∧ (chanGet d
      (chOf n)).st = 1) ∧
    (∃ (d : Dev) (c : Src) (n : Nat), adminUp c d = true ∧ c.fn = 0 ∧ n < chCount d.fuse ∧ (chanGet d n).st ≠ 2 ∧ (chanGet d n).st ≠ 4) ∧
    (∃ (d : Dev) (c : Src) (n : Nat), adminUp c d = true ∧ c.fn = 0 ∧ ∃ ds x, n < chCount d.fuse ∧ ((chanGet d n).st = 2 ∨ (chanGet d n).st = 4) ∧ ds
      = ((List.range 32).map (fun i => 32 * n + i)).filter (fun k => dieFitted d k && (decide ((dieGet d k).st = 2) || decide ((dieGet d k).st = 4)))
      ∧ x = returnDies n ds (unitRecord 1 n 2 (chanPut d n { chanGet d n with st := 3, returning := true, trained := 0#4, failed := 0#4 })) ∧ ds ≠ []) ∧
    (∃ (d : Dev) (c : Src) (n : Nat), adminUp c d = true ∧ c.fn = 0 ∧ ∃ ds x, n < chCount d.fuse ∧ ((chanGet d n).st = 2 ∨ (chanGet d n).st = 4) ∧ ds
      = ((List.range 32).map (fun i => 32 * n + i)).filter (fun k => dieFitted d k && (decide ((dieGet d k).st = 2) || decide ((dieGet d k).st = 4)))
      ∧ x = returnDies n ds (unitRecord 1 n 2 (chanPut d n { chanGet d n with st := 3, returning := true, trained := 0#4, failed := 0#4 })) ∧ ds = []) ∧
    (∃ (d : Dev) (c : Src) (n : Nat), adminUp c d = true ∧ c.fn = 0 ∧ n < detCount d.fuse ∧ (detGet d n).st ≠ 2 ∧ (detGet d n).st ≠ 4) ∧
    (∃ (d : Dev) (c : Src) (n : Nat), adminUp c d = true ∧ c.fn = 0 ∧ ∃ x, n < detCount d.fuse ∧ ((detGet d n).st = 2 ∨ (detGet d n).st = 4) ∧ x =
      unitRecord 3 n 2 (dctrlWrite (n + 49) (putFld (rd d.hw (R.PWR_DCTRL (n + 49))) 0 2 1) d)) ∧
    (∃ (d : Dev) (c : Src), adminUp c d = true ∧ c.fn = 0) ∧
    (∃ (d : Dev) (c : Src) (code rate burst r s : Nat) (b : Bucket), adminUp c d = true ∧ c.fn = 0 ∧ d.boot.trial = false ∧ b = evBucket d.hw code ∧ r
      = rate % 65536 ∧ s = burst % 65536 ∧ code ≤ 511) ∧
    (∃ (d : Dev) (c : Src) (code rate burst r s : Nat) (b : Bucket), adminUp c d = true ∧ c.fn = 0 ∧ d.boot.trial = false ∧ b = evBucket d.hw code ∧ r
      = rate % 65536 ∧ s = burst % 65536 ∧ 511 < code) ∧
    (∃ (d : Dev) (c : Src) (code : Nat) (b : Bucket), adminUp c d = true ∧ c.fn = 0 ∧ b = tabGetD d.hw.ev.buckets code Bucket.init ∧ code ≤ 511) ∧
    (∃ (d : Dev) (c : Src) (code : Nat) (b : Bucket), adminUp c d = true ∧ c.fn = 0 ∧ b = tabGetD d.hw.ev.buckets code Bucket.init ∧ 511 < code) ∧
    (∃ (d : Dev) (c : Src), adminUp c d = true ∧ c.fn = 0 ∧ 3 ≤ d.sec.dbg.failures) ∧
    (∃ (d : Dev) (c : Src), adminUp c d = true ∧ c.fn = 0 ∧ d.sec.dbg.failures < 3 ∧ drbgReady d.sec = false) ∧
    (∃ (d : Dev) (c : Src), adminUp c d = true ∧ c.fn = 0 ∧ ∃ ch, d.sec.dbg.failures < 3 ∧ drbgReady d.sec = true ∧ ch = chalBytes d (Config.drbg
      d.sec.drbgDraws)) ∧
    (∃ (d : Dev) (c : Src) (bs : List Byte), adminUp c d = true ∧ c.fn = 0 ∧ ∃ st, d.sec.dbg.failures < 3 ∧ st =
      (match d.sec.dbg.adminChal with | some ch => debugVerify d ch (padTo 96 bs) | none => .reject)) ∧
    (∃ (d : Dev) (n w : Nat), (chanGet d n).leaving = some w) ∧
    (∃ (d : Dev) (n : Nat), (detGet d n).leaving = none ∧ (detGet d n).ctx ≠ []) ∧
    (∃ (d : Dev) (k n : Nat), domOn d.pwr (k + 1) = true ∧ ∃ i, i ≠ n) ∧
    (∃ (d : Dev) (k : Nat), domOn d.pwr (k + 1) = true) :=
  ⟨⟨upDev, ⟨0, 0, 7⟩, 0, by decide +kernel⟩,
   ⟨upDev, ⟨0, 0, 7⟩, 3, 24, by decide +kernel⟩,
   ⟨upDev, ⟨0, 0, 7⟩, 3, 23, by decide +kernel⟩,
   ⟨upDev, ⟨0, 0, 7⟩, 48, by decide +kernel⟩,
   ⟨upDev, ⟨0, 0, 7⟩, 1536, by decide +kernel⟩,
   ⟨upDev, ⟨0, 0, 7⟩, 24, by decide +kernel⟩,
   ⟨{ upDev with fl.dies := [(1535, { Die.init with st := 2 })] }, ⟨0, 0, 7⟩, 1535, by decide +kernel⟩,
   ⟨{ upDev with
     fl.dies := [(1535, { Die.init with st := 2 })], med.sbs := [(1, { sb0 with members := [(0, 0), (1535, 0)] })], med.copies := [(uk 1 0, cp0)] },
     ⟨0, 0, 7⟩, 0, by decide +kernel⟩,
   ⟨upDev, ⟨0, 0, 7⟩, 1535, by decide +kernel⟩,
   ⟨{ upDev with fl.chans := [(47, { Chan.init with st := 2 })] }, ⟨0, 0, 7⟩, 47, by decide +kernel⟩,
   ⟨{ upDev with
     fl.dies := [(0, { Die.init with st := 2 })], med.sbs := [(1, { sb0 with members := [(0, 0), (1504, 0)] })], med.copies := [(uk 1 0, cp0)] }, ⟨0,
     0, 7⟩, 47, by decide +kernel, by decide +kernel, _, _, _, _, by decide +kernel, by decide +kernel, by decide +kernel, rfl, rfl, rfl, rfl,
     by decide +kernel⟩,
   ⟨upDev, ⟨0, 0, 7⟩, 23, by decide +kernel, by decide +kernel, _, _, _, _, by decide +kernel, by decide +kernel, by decide +kernel, rfl, rfl, rfl,
     rfl, by decide +kernel⟩,
   ⟨{ upDev with fl.dies := (List.range 32).map (fun i => (1504 + i, { Die.init with st := 2 })) }, ⟨0, 0, 7⟩, 47, by decide +kernel,
     by decide +kernel, _, _, _, _, by decide +kernel, by decide +kernel, by decide +kernel, rfl, rfl, rfl, rfl, by decide +kernel, by decide +kernel,
     _, rfl⟩,
   ⟨{ upDev with fl.dets := [(23, { Det.init with st := 2 })] }, ⟨0, 0, 7⟩, 23, by decide +kernel⟩,
   ⟨upDev, ⟨0, 0, 7⟩, 23, by decide +kernel⟩,
   ⟨upDev, ⟨0, 0, 7⟩, 1535, by decide +kernel⟩,
   ⟨{ upDev with fl.dies := [(1535, { Die.init with st := 2 })] }, ⟨0, 0, 7⟩, 1535, by decide +kernel⟩,
   ⟨upDev, ⟨0, 0, 7⟩, 47, by decide +kernel⟩,
   ⟨{ upDev with fl.dies := [(1535, { Die.init with st := 2 })], fl.chans := [(47, { Chan.init with st := 2 })] }, ⟨0, 0, 7⟩, 47, by decide +kernel,
     by decide +kernel, _, _, by decide +kernel, by decide +kernel, rfl, rfl, by decide +kernel⟩,
   ⟨{ upDev with fl.chans := [(47, { Chan.init with st := 2 })], fl.dies := (List.range 32).map (fun i => (1504 + i, { Die.init with st := 1 })) },
     ⟨0, 0, 7⟩, 47, by decide +kernel, by decide +kernel, _, _, by decide +kernel, by decide +kernel, rfl, rfl, by decide +kernel⟩,
   ⟨upDev, ⟨0, 0, 7⟩, 23, by decide +kernel⟩,
   ⟨{ upDev with fl.dets := [(23, { Det.init with st := 2 })] }, ⟨0, 0, 7⟩, 23, by decide +kernel, by decide +kernel, _, by decide +kernel,
     by decide +kernel, rfl⟩,
   ⟨upDev, ⟨0, 0, 7⟩, by decide +kernel⟩,
   ⟨upDev, ⟨0, 0, 7⟩, 511, 65535, 65535, _, _, evBucket (upDev).hw 511, by decide +kernel, by decide +kernel, by decide +kernel, by decide +kernel,
     rfl, rfl, by decide +kernel⟩,
   ⟨upDev, ⟨0, 0, 7⟩, 512, 0, 0, _, _, _, by decide +kernel, by decide +kernel, by decide +kernel, rfl, rfl, rfl, by decide +kernel⟩,
   ⟨upDev, ⟨0, 0, 7⟩, 511, _, by decide +kernel, by decide +kernel, rfl, by decide +kernel⟩,
   ⟨upDev, ⟨0, 0, 7⟩, 512, _, by decide +kernel, by decide +kernel, rfl, by decide +kernel⟩,
   ⟨{ upDev with sec.dbg := { Sec.reset.dbg with failures := 3 } }, ⟨0, 0, 7⟩, by decide +kernel⟩,
   ⟨upDev, ⟨0, 0, 7⟩, by decide +kernel⟩,
   ⟨{ upDev with sec.drbgOn := true, sec.dbg := { Sec.reset.dbg with failures := 2 } }, ⟨0, 0, 7⟩, by decide +kernel, by decide +kernel, _,
     by decide +kernel, by decide +kernel, rfl⟩,
   ⟨{ upDev with sec.dbg := { Sec.reset.dbg with adminChal := some 1#512, failures := 2 } }, ⟨0, 0, 7⟩, [], by decide +kernel, by decide +kernel, _,
     by decide +kernel, rfl⟩,
   ⟨{ upDev with fl.chans := [(47, { Chan.init with leaving := some 0 })] }, 47, 0, by decide +kernel⟩,
   ⟨{ upDev with fl.dets := [(23, { Det.init with ctx := [(3, 5)] })] }, 23, by decide +kernel⟩,
   ⟨upDev, 47, 0, by decide +kernel, 1, by decide +kernel⟩,
   ⟨{ upDev with fl.dies := [(1535, { Die.init with st := 2 })] }, 0, by decide +kernel⟩⟩

/-- Devices and operands that meet the hypotheses of EraseAndKeyCommands, clause by clause, but for those on a free value, which nothing decides. -/
theorem witness_EraseAndKeyCommands :
    (∃ (d : Dev) (c : Src) (ses : Nat), adminUp c d = true ∧ (2 < ses ∨ (ses = 2 ∧ hasCrypto d.fuse = false))) ∧
    (∃ (d : Dev) (c : Src) (nsid ses : Nat), adminUp c d = true ∧ (ses ≤ 1 ∨ (ses = 2 ∧ hasCrypto d.fuse = true)) ∧ nsid ≠ 0xFFFFFFFF ∧ nsGet d nsid =
      none) ∧
    (∃ (d : Dev) (c : Src) (nsid ses : Nat), adminUp c d = true ∧ ∃ ids, (nsid = 0xFFFFFFFF ∨ nsGet d nsid ≠ none) ∧ ids = (if nsid = 0xFFFFFFFF then
      d.ten.namespaces.map (fun q => q.1) else [nsid]) ∧ ses ≤ 1) ∧
    (∃ (d : Dev) (c : Src) (nsid ses : Nat), adminUp c d = true ∧ ∃ ids, (nsid = 0xFFFFFFFF ∨ nsGet d nsid ≠ none) ∧ ids = (if nsid = 0xFFFFFFFF then
      d.ten.namespaces.map (fun q => q.1) else [nsid]) ∧ ses = 2 ∧ hasCrypto d.fuse = true ∧ drbgReady d.sec = true) ∧
    (∃ (d : Dev) (c : Src) (nsid ses : Nat), adminUp c d = true ∧ ∃ ids, (nsid = 0xFFFFFFFF ∨ nsGet d nsid ≠ none) ∧ ids = (if nsid = 0xFFFFFFFF then
      d.ten.namespaces.map (fun q => q.1) else [nsid]) ∧ ses = 2 ∧ hasCrypto d.fuse = true ∧ drbgReady d.sec = false) ∧
    (∃ (d : Dev) (c : Src), adminUp c d = true ∧ hasCrypto d.fuse = false) ∧
    (∃ (d : Dev) (c : Src), adminUp c d = true ∧ hasCrypto d.fuse = true ∧ d.med.volUnknown = true) ∧
    (∃ (d : Dev) (c : Src), adminUp c d = true ∧ hasCrypto d.fuse = true ∧ d.med.volUnknown = false ∧ drbgReady d.sec = true) ∧
    (∃ (d : Dev) (c : Src), adminUp c d = true ∧ hasCrypto d.fuse = true ∧ d.med.volUnknown = false ∧ drbgReady d.sec = false) ∧
    (∃ (d x y : Dev) (c : Src), adminUp c d = true ∧ x = volCreate (mediaErase d) ∧ y = x.ten.fnBind.foldl (fun z q => sjDelete 0x8011 q.1 z) { x with
      ten := { x.ten with zones := [] } }) ∧
    (∃ (d : Dev) (c : Src) (i : Nat), adminUp c d = true ∧ (hasCrypto d.fuse = false ∨ 15 < i)) ∧
    (∃ (d : Dev) (c : Src) (i : Nat), adminUp c d = true ∧ hasCrypto d.fuse = true ∧ i ≤ 15) ∧
    (∃ (d : Dev) (c : Src) (tag : Nat) (kek : Nat) (s : Slot), adminUp c d = true ∧ s = slotGet d.sec tag ∧ (hasCrypto d.fuse = false ∨ 8191 < tag ∨
      15 < kek)) ∧
    (∃ (d : Dev) (c : Src) (tag : Nat) (kek : Nat) (s : Slot), adminUp c d = true ∧ s = slotGet d.sec tag ∧ hasCrypto d.fuse = true ∧ tag ≤ 8191 ∧ kek
      ≤ 15 ∧ s.type ≠ 0 ∧ (s.scope ≠ 2 ∨ s.kennel ≠ fnKennel d c.port c.fn)) ∧
    (∃ (d : Dev) (c : Src) (tag kek : Nat) (kwp : Bool) (w : List Byte) (s : Slot), adminUp c d = true ∧ s = slotGet d.sec tag ∧ hasCrypto d.fuse =
      true ∧ tag ≤ 8191 ∧ kek ≤ 15 ∧ (s.type = 0 ∨ (s.scope = 2 ∧ s.kennel = fnKennel d c.port c.fn)) ∧ unwrapLenOk kwp w.length = false) ∧
    (∃ (d : Dev) (c : Src) (tag kek : Nat) (kwp : Bool) (w : List Byte) (s : Slot), adminUp c d = true ∧ s = slotGet d.sec tag ∧ hasCrypto d.fuse =
      true ∧ tag ≤ 8191 ∧ kek ≤ 15 ∧ (s.type = 0 ∨ (s.scope = 2 ∧ s.kennel = fnKennel d c.port c.fn)) ∧ unwrapLenOk kwp w.length = true ∧ (∀ key pt,
      tabGet d.sec.importKeks kek = some key → Config.unwrap kwp key w = some pt → unwrapSlot false tag (fnKennel d c.port c.fn) pt = none)) ∧
    (∃ (d : Dev) (c : Src) (tag kek : Nat) (kwp : Bool) (w : List Byte) (s : Slot), adminUp c d = true ∧ s = slotGet d.sec tag ∧ ∃ (key : BitVec 256)
      (type : Nat) (km : BitVec 512) (scope kn : Nat), hasCrypto d.fuse = true ∧ tag ≤ 8191 ∧ kek ≤ 15 ∧ (s.type = 0 ∨ (s.scope = 2 ∧ s.kennel =
      fnKennel d c.port c.fn)) ∧ unwrapLenOk kwp w.length = true ∧ tabGet d.sec.importKeks kek = some key ∧ slotLoad s type km scope kn = none) ∧
    (∃ (d : Dev) (c : Src) (tag kek : Nat) (kwp : Bool) (w : List Byte) (s : Slot), adminUp c d = true ∧ s = slotGet d.sec tag ∧ ∃ key type km scope
      kn, hasCrypto d.fuse = true ∧ tag ≤ 8191 ∧ kek ≤ 15 ∧ (s.type = 0 ∨ (s.scope = 2 ∧ s.kennel = fnKennel d c.port c.fn)) ∧ unwrapLenOk kwp
      w.length = true ∧ tabGet d.sec.importKeks kek = some key ∧ ∃ y, slotLoad s type km scope kn = some y) ∧
    (∃ (d : Dev) (nsid lba : Nat) (n : Ns), n.zoned = false ∧ lba < n.nsze ∧ entSeq (mapAt d nsid lba) ≤ d.med.seqNext) ∧
    (∃ (n : Ns), n.zoned = true) ∧
    (∃ d e : Dev, e = mediaErase d) ∧
    (∃ d e : Dev, e = volCreate d) :=
  ⟨⟨upDev, ⟨0, 0, 7⟩, 3, by decide +kernel⟩,
   ⟨upDev, ⟨0, 0, 7⟩, 0, 0, by decide +kernel⟩,
   ⟨upDev, ⟨0, 0, 7⟩, 0xFFFFFFFF, 1, by decide +kernel, _, by decide +kernel, rfl, by decide +kernel⟩,
   ⟨{ upDev with ten.namespaces := [(1, ns0)], sec.drbgOn := true }, ⟨0, 0, 7⟩, 1, 2, by decide +kernel, _, by decide +kernel, rfl, by decide +kernel⟩,
   ⟨{ upDev with ten.namespaces := [(1, ns0)] }, ⟨0, 0, 7⟩, 1, 2, by decide +kernel, _, by decide +kernel, rfl, by decide +kernel⟩,
   ⟨{ upDev with fuse.variant := .px }, ⟨0, 0, 7⟩, by decide +kernel⟩,
   ⟨{ upDev with med.volUnknown := true }, ⟨0, 0, 7⟩, by decide +kernel⟩,
   ⟨{ upDev with sec.drbgOn := true }, ⟨0, 0, 7⟩, by decide +kernel⟩,
   ⟨upDev, ⟨0, 0, 7⟩, by decide +kernel⟩,
   ⟨upDev, _, _, ⟨0, 0, 7⟩, by decide +kernel, rfl, rfl⟩,
   ⟨upDev, ⟨0, 0, 7⟩, 16, by decide +kernel⟩,
   ⟨upDev, ⟨0, 0, 7⟩, 15, by decide +kernel⟩,
   ⟨upDev, ⟨0, 0, 7⟩, 8192, 0, _, by decide +kernel, rfl, by decide +kernel⟩,
   ⟨{ upDev with sec.slots := [(8191, { Slot.init with type := 1 })] }, ⟨0, 0, 7⟩, 8191, 15, _, by decide +kernel, rfl, by decide +kernel⟩,
   ⟨upDev, ⟨0, 0, 7⟩, 8191, 15, false, [], _, by decide +kernel, rfl, by decide +kernel⟩,
   ⟨upDev, ⟨0, 0, 7⟩, 8191, 15, false, List.replicate 48 0#8, _, by decide +kernel, rfl, by decide +kernel, by decide +kernel, by decide +kernel,
     by decide +kernel, by decide +kernel, by intro key pt h; cases h⟩,
   ⟨{ upDev with sec.importKeks := [(15, 1#256)], sec.slots := [(8191, { Slot.init with gen := 524287 })] }, ⟨0, 0, 7⟩, 8191, 15, false,
     List.replicate 48 0#8, _, by decide +kernel, rfl, 1#256, 1, 0#512, 2, 0, by decide +kernel⟩,
   ⟨{ upDev with sec.importKeks := [(15, 1#256)] }, ⟨0, 0, 7⟩, 8191, 15, false, List.replicate 24 0#8, _, by decide +kernel, rfl, _, 1, 0#512, 2, 0,
     by decide +kernel, by decide +kernel, by decide +kernel, by decide +kernel, by decide +kernel, rfl, _, rfl⟩,
   ⟨upDev, 0, 2047, { ns0 with zoned := false }, by decide +kernel⟩,
   ⟨ns0, by decide +kernel⟩,
   ⟨upDev, _, rfl⟩,
   ⟨upDev, _, rfl⟩⟩

/-- Devices and operands that meet the hypotheses of DeviceTimeIsReadWhole, clause by clause. -/
theorem witness_DeviceTimeIsReadWhole :
    ∃ (d : Dev) (m : Nat), d.lets (readOf m 0xF000000020) :=
  ⟨upDev, 0, by decide +kernel⟩

/-- Devices and operands that meet the hypotheses of ClaimDeliversByPriority, clause by clause. -/
theorem witness_ClaimDeliversByPriority :
    (∃ (d : Dev) (m c x s : Nat), c < 16 ∧ x < 2 ∧ s < 1024 ∧ d.wh.saved.getLsbD (c / 4) = false ∧ d.lets (readOf m (R.WH_CLAIM (2 * c + x))) ∧
      whEligible (rd d.hw) c x s = true ∧ (∀ t < 1024, whEligible (rd d.hw) c x t = true → t ≠ s → fld (rd d.hw (R.WH_ROUTE t)) 6 3 < fld (rd d.hw
      (R.WH_ROUTE s)) 6 3 ∨ (fld (rd d.hw (R.WH_ROUTE t)) 6 3 = fld (rd d.hw (R.WH_ROUTE s)) 6 3 ∧ s < t))) ∧
    (∃ (d : Dev) (m c x : Nat), c < 16 ∧ x < 2 ∧ d.lets (readOf m (R.WH_CLAIM (2 * c + x))) ∧ (∀ t < 1024, whEligible (rd d.hw) c x t = false)) ∧
    (∃ (d : Dev) (s : Nat), fld (rd d.hw (R.WH_ROUTE s)) 6 3 = 0) :=
  ⟨⟨{ upDev with hw.regs := upRegs [(R.WH_PEND 31, 0x80000000#32), (R.WH_MASK 31, 0#32), (R.WH_ROUTE 1023, 0x6F#32)] }, 0, 15, 1, 1023,
     by decide +kernel⟩,
   ⟨upDev, 0, 15, 1, by decide +kernel⟩,
   ⟨upDev, 0, by decide +kernel⟩⟩

/-- Devices and operands that meet the hypotheses of RequestChecksInOrder, clause by clause. -/
theorem witness_RequestChecksInOrder :
    (∃ (d : Dev) (q : Req), masterReserved q.master = false ∧ masterClocked d q.master = true ∧ storeHeld d q.master = false ∧ fetchBarred d q = false
      ∧ regionOf d.hw q.addr = .outside) ∧
    (∃ (d : Dev) (q : Req), masterReserved q.master = false ∧ masterClocked d q.master = true ∧ storeHeld d q.master = false ∧ fetchBarred d q = false
      ∧ regionOf d.hw q.addr ≠ .outside ∧ (sizeOk q.size = false ∨ q.addr % q.size ≠ 0 ∨ (regionOf d.hw q.addr = .regs ∧ q.size ≠ 4))) ∧
    (∃ (d : Dev) (q : Req), masterReserved q.master = false ∧ masterClocked d q.master = true ∧ storeHeld d q.master = false ∧ fetchBarred d q = false
      ∧ regionOf d.hw q.addr ≠ .outside ∧ sizeOk q.size = true ∧ q.addr % q.size = 0 ∧ (regionOf d.hw q.addr = .regs → q.size = 4) ∧ collarOk d
      q.master q.kind q.addr q.size = false) ∧
    (∃ (d : Dev) (q : Req), masterReserved q.master = false ∧ masterClocked d q.master = true ∧ storeHeld d q.master = false ∧ fetchBarred d q = false
      ∧ regionOf d.hw q.addr ≠ .outside ∧ sizeOk q.size = true ∧ q.addr % q.size = 0 ∧ (regionOf d.hw q.addr = .regs → q.size = 4) ∧ collarOk d
      q.master q.kind q.addr q.size = true ∧ regAbsent d q.addr = true) ∧
    (∃ (d : Dev) (q : Req), masterReserved q.master = false ∧ masterClocked d q.master = true ∧ storeHeld d q.master = false ∧ fetchBarred d q = false
      ∧ regionOf d.hw q.addr ≠ .outside ∧ sizeOk q.size = true ∧ q.addr % q.size = 0 ∧ (regionOf d.hw q.addr = .regs → q.size = 4) ∧ collarOk d
      q.master q.kind q.addr q.size = true ∧ regAbsent d q.addr = false ∧ gateOf d (domOf d.hw q.addr) = .refuse) ∧
    (∃ (d : Dev) (q : Req), masterReserved q.master = false ∧ masterClocked d q.master = true ∧ storeHeld d q.master = false ∧ fetchBarred d q = false
      ∧ regionOf d.hw q.addr ≠ .outside ∧ sizeOk q.size = true ∧ q.addr % q.size = 0 ∧ (regionOf d.hw q.addr = .regs → q.size = 4) ∧ collarOk d
      q.master q.kind q.addr q.size = true ∧ regAbsent d q.addr = false ∧ gateOf d (domOf d.hw q.addr) = .hold) ∧
    (∃ (d : Dev) (q : Req), masterReserved q.master = false ∧ masterClocked d q.master = true ∧ storeHeld d q.master = false ∧ fetchBarred d q = false
      ∧ regionOf d.hw q.addr ≠ .outside ∧ sizeOk q.size = true ∧ q.addr % q.size = 0 ∧ (regionOf d.hw q.addr = .regs → q.size = 4) ∧ collarOk d
      q.master q.kind q.addr q.size = true ∧ regAbsent d q.addr = false ∧ gateOf d (domOf d.hw q.addr) = .pass ∧ q.kind = .write ∧ (regionOf d.hw
      q.addr = .rom ∨ regionOf d.hw q.addr = .rindWindow)) :=
  ⟨⟨upDev, { master := 0, kind := .read, addr := 0x40000, size := 4, data := 0, chk := 0 }, by decide +kernel⟩,
   ⟨upDev, { master := 0, kind := .read, addr := 0x3FFFF, size := 4, data := 0, chk := 0 }, by decide +kernel⟩,
   ⟨{ upDev with hw.regs := upRegs [(R.COLLAR_CTRL, 1#32)] }, { master := 0, kind := .read, addr := 0x3FFF8, size := 8, data := 0, chk := 0 },
     by decide +kernel⟩,
   ⟨{ upDev with fuse.variant := .px }, { master := 0, kind := .read, addr := R.KV_CTRL, size := 4, data := 0, chk := 0 }, by decide +kernel⟩,
   ⟨{ upDev with hw.regs := upRegs [(R.PWR_DCTRL 50, 2#32)], pwr.doms := upDoms [(50, { Dom.init with st := .ret })] },
     { master := 0, kind := .read, addr := R.DET_CTRL 1, size := 4, data := 0, chk := 0 }, by decide +kernel⟩,
   ⟨{ upDev with hw.regs := upRegs [(R.PWR_DCTRL 50, 0x40#32)], pwr.doms := upDoms [(50, { Dom.init with st := .ret })] },
     { master := 0, kind := .read, addr := R.DET_CTRL 1, size := 4, data := 0, chk := 0 }, by decide +kernel⟩,
   ⟨upDev, { master := 0, kind := .write, addr := 0x30000000, size := 4, data := 0, chk := 0 }, by decide +kernel⟩⟩

/-- Devices and operands that meet the hypotheses of EventPostsInOrder, clause by clause. -/
theorem witness_EventPostsInOrder :
    (∃ (h : Hw) (code : Nat) (b : Bucket), bit (rd h R.EVREC_CTRL) 0 = true ∧ b = evBucket h code ∧ 511 < code) ∧
    (∃ (h : Hw) (code : Nat) (b : Bucket), bit (rd h R.EVREC_CTRL) 0 = true ∧ b = evBucket h code ∧ code ≤ 511 ∧ h.ev.full = true) ∧
    (∃ (h : Hw) (code : Nat) (b : Bucket), bit (rd h R.EVREC_CTRL) 0 = true ∧ b = evBucket h code ∧ code ≤ 511 ∧ h.ev.full = false ∧ b.rate ≠ 0 ∧
      b.burst ≠ 0 ∧ b.level < 25000000) ∧
    (∃ (h : Hw) (code : Nat) (b : Bucket), bit (rd h R.EVREC_CTRL) 0 = true ∧ b = evBucket h code ∧ code ≤ 511 ∧ h.ev.full = false ∧ (b.rate = 0 ∨
      b.burst = 0 ∨ 25000000 ≤ b.level) ∧ 2048 ≤ h.ev.buf.length) ∧
    (∃ (h : Hw) (source code sev : Nat) (a0 a1 a2 : Word) (b : Bucket), bit (rd h R.EVREC_CTRL) 0 = true ∧ b = evBucket h code ∧ ∃ r : EvRecd, code ≤
      511 ∧ h.ev.full = false ∧ (b.rate = 0 ∨ b.burst = 0 ∨ 25000000 ≤ b.level) ∧ r = {
      time := h.time, boot := h.bootCount, code := code, sev := sev, cont := false, source := source, supp := b.supp, a0 := a0, a1 := a1, a2 := a2 } ∧
      h.ev.dropSince = false ∧ h.ev.buf.length < 2048) ∧
    (∃ (h : Hw) (source code sev : Nat) (a0 a1 a2 : Word) (b : Bucket), bit (rd h R.EVREC_CTRL) 0 = true ∧ b = evBucket h code ∧ ∃ r : EvRecd, code ≤
      511 ∧ h.ev.full = false ∧ (b.rate = 0 ∨ b.burst = 0 ∨ 25000000 ≤ b.level) ∧ r = {
      time := h.time, boot := h.bootCount, code := code, sev := sev, cont := false, source := source, supp := b.supp, a0 := a0, a1 := a1, a2 := a2 } ∧
      h.ev.dropSince = true ∧ h.ev.buf.length < 2047) :=
  ⟨⟨upDev.hw, 512, _, by decide +kernel, rfl, by decide +kernel⟩,
   ⟨upEv { EvState.init with full := true }, 511, _, by decide +kernel, rfl, by decide +kernel⟩,
   ⟨upEv { EvState.init with buckets := [(511, { Bucket.init with level := 24999999 })] }, 511, _, by decide +kernel, rfl, by decide +kernel⟩,
   ⟨upEv { EvState.init with buf := List.replicate 2048 evr0 }, 511, _, by decide +kernel, rfl, by decide +kernel⟩,
   ⟨upEv { EvState.init with buf := List.replicate 2047 evr0 }, 0, 511, 0, 0#32, 0#32, 0#32, _, by decide +kernel, rfl, _, by decide +kernel,
     by decide +kernel, by decide +kernel, rfl, by decide +kernel⟩,
   ⟨upEv { EvState.init with dropSince := true, buf := List.replicate 2046 evr0 }, 0, 511, 0, 0#32, 0#32, 0#32, _, by decide +kernel, rfl, _,
     by decide +kernel, by decide +kernel, by decide +kernel, rfl, by decide +kernel⟩⟩

/-- Devices and operands that meet the hypotheses of OpenAfterReset, clause by clause. -/
theorem witness_OpenAfterReset :
    (∃ d : Dev, d.pins.sysResetHigh = true) ∧
    (∃ d : Dev, d.holdup.flushStep = 6 ∧ d.holdup.resetAfter = true ∧ d.holdup.coldAfter = false ∧ d.holdup.inHold = false) ∧
    (∃ (d e : Dev) (sys : Bool), Dev.ResetTo sys d e) ∧
    (∃ (d : Dev) (m : Nat), bit (rd d.hw R.COLLAR_CTRL) 0 = false ∧ d.sec.blocked.getLsbD m = false) ∧
    (∃ (d : Dev), d.sec.dbg.unlocked = false) :=
  ⟨⟨upDev, by decide +kernel⟩,
   ⟨{ upDev with holdup.flushStep := 6, holdup.resetAfter := true }, by decide +kernel⟩,
   ⟨Dev.reset, Dev.reset, true, reset_resetTo⟩,
   ⟨upDev, 0, by decide +kernel⟩,
   ⟨upDev, by decide +kernel⟩⟩

/-- Devices and operands that meet the hypotheses of PartialWrites, clause by clause. -/
theorem witness_PartialWrites :
    ∃ (d : Dev) (m a : Nat) (bs : List Byte) (w : DWord) (c : Byte), d.hw.storesWf ∧ bs.length < 8 ∧ d.lets (bytesReq m a bs) ∧ (regionOf d.hw a =
      .sram ∨ regionOf d.hw a = .retention ∨ regionOf d.hw a = .dram) ∧ memRaw d.hw.mem (a / 8 * 8) = some (w, c) :=
  ⟨{ upDev with hw.mem := memOne 0x13FFFFF8 5#64 7#8 }, 0, 0x13FFFFFC, [0#8, 1#8, 2#8, 3#8], _, _, by decide +kernel, by decide +kernel,
    by decide +kernel, by decide +kernel, rfl⟩

/-- Devices and operands that meet the hypotheses of DoorbellsMerge, clause by clause. -/
theorem witness_DoorbellsMerge :
    (∃ (d : Dev) (m n : Nat), 368 ≤ n ∧ n < 1024 ∧ d.lets (writeOf m (R.WH_PEND_SET (n / 32)) (1#32 <<< (n % 32)))) ∧
    (∃ (d : Dev) (m c x n : Nat), 368 ≤ n ∧ n < 1024 ∧ c < 16 ∧ x < 2 ∧ d.wh.saved.getLsbD (c / 4) = false ∧ d.lets (readOf m (R.WH_CLAIM (2 * c +
      x))) ∧ whBest (rd d.hw) c x 1024 = some n) :=
  ⟨⟨upDev, 0, 1023, by decide +kernel⟩,
   ⟨{ upDev with hw.regs := upRegs [(R.WH_PEND 31, 0x80000000#32), (R.WH_MASK 31, 0#32), (R.WH_ROUTE 1023, 0x6F#32)] }, 0, 15, 1, 1023,
     by decide +kernel⟩⟩

/-- A device whose Rind store runs an operation on its last sector. -/
def rindDev (op : Nat) (data : List Byte) (pw : Option (BitVec 64)) : Dev :=
  { upDev with hw.rind := { upDev.hw.rind with running := some { op := op, addr := 0xFF0000, data := data, status := .ok }, password := pw } }

/-- Devices and operands that meet the hypotheses of SectorLocks, clause by clause, at the last sector. -/
theorem witness_SectorLocks :
    (∃ (c : Instr) (d e : Dev),
      (c = .pgoodRise true ∨ c = .pgoodRise false ∨ c = .pgoodFall ∨ c = .sysResetAssert ∨ c = .internalReset) ∧ Runs c d e) ∧
    (∃ (d : Dev) (r : RindOp) (s : Nat), d.hw.rind.running = some r ∧ s = r.addr / 65536 ∧ s < 256 ∧ r.op = 3) ∧
    (∃ (d : Dev) (r : RindOp) (s : Nat), d.hw.rind.running = some r ∧ s = r.addr / 65536 ∧ s < 256 ∧ r.op = 4 ∧ d.hw.rind.password = none ∧
      d.hw.rind.pwLocked = false) ∧
    (∃ (d : Dev) (r : RindOp) (s : Nat) (p : BitVec 64), d.hw.rind.running = some r ∧ s = r.addr / 65536 ∧ s < 256 ∧ r.op = 4 ∧
      d.hw.rind.password = some p ∧ d.hw.rind.pwLocked = false ∧ p.toNat = leNat r.data) ∧
    (∃ (d : Dev) (r : RindOp) (s : Nat), d.hw.rind.running = some r ∧ s = r.addr / 65536 ∧ s < 256 ∧ r.op = 4 ∧ d.hw.rind.pwLocked = true) ∧
    (∃ (d : Dev) (r : RindOp) (s : Nat) (p : BitVec 64), d.hw.rind.running = some r ∧ s = r.addr / 65536 ∧ s < 256 ∧ r.op = 4 ∧
      d.hw.rind.password = some p ∧ p.toNat ≠ leNat r.data) ∧
    (∃ (d : Dev) (r : RindOp) (s : Nat), d.hw.rind.running = some r ∧ s = r.addr / 65536 ∧ s < 256 ∧ r.op = 5 ∧ d.hw.rind.password = none) ∧
    (∃ (d : Dev) (r : RindOp) (s : Nat) (p : BitVec 64), d.hw.rind.running = some r ∧ s = r.addr / 65536 ∧ s < 256 ∧ r.op = 5 ∧
      d.hw.rind.password = some p) ∧
    (∃ (d : Dev) (r : RindOp) (s : Nat), d.hw.rind.running = some r ∧ s = r.addr / 65536 ∧ s < 256 ∧ fld (rd d.hw R.RIND_LOCK_SEL) 0 3 = s / 32) :=
  ⟨⟨.pgoodFall, upDev, pgoodFall upDev, by decide, fun _ => rfl⟩,
   ⟨rindDev 3 [] none, _, 255, rfl, by decide, by decide, rfl⟩,
   ⟨rindDev 4 [] none, _, 255, rfl, by decide, by decide, rfl, rfl, rfl⟩,
   ⟨rindDev 4 [7#8] (some 7#64), _, 255, 7#64, rfl, by decide, by decide, rfl, rfl, rfl, by decide⟩,
   ⟨{ rindDev 4 [] none with hw.rind.pwLocked := true }, _, 255, rfl, by decide, by decide, rfl, rfl⟩,
   ⟨rindDev 4 [7#8] (some 8#64), _, 255, 8#64, rfl, by decide, by decide, rfl, rfl, by decide⟩,
   ⟨rindDev 5 [] none, _, 255, rfl, by decide, by decide, rfl, rfl⟩,
   ⟨rindDev 5 [] (some 7#64), _, 255, 7#64, rfl, by decide, by decide, rfl, rfl⟩,
   ⟨{ rindDev 3 [] none with hw.regs := upRegs [(R.RIND_LOCK_SEL, 7#32)] }, _, 255, rfl, by decide, by decide, by decide +kernel⟩⟩

end Sys2Proof.Tests
end

section
/-!
PROOFS. The fabric architecture: device time is read whole (R32), and what the checks of R523 leave of a request that the Collar refuses.
-/

namespace Sys2Proof.Machine

/-! Responses and read latches. -/

/-- The last response of the master that made the request is the one just given (R24). -/
theorem respond_resp (q : Req) (st : Status) (data : Nat) (d : Dev) :
    tabGet (respond q st data d).hw.resps q.master =
      some { addr := q.addr, kind := q.kind, status := st, data := if st = .ok then data else 0, fault := coreFault q.master st,
             waiting := false } :=
  tabGet_tabPut_self ..

/-- A master's latch of a register is no other master's (R32). -/
theorem mrd_mwr_other_master (h : Hw) (a : Nat) {m k : Nat} (v : Word) (hk : k ≠ m) : mrd (mwr h a m v) a k = mrd h a k :=
  tabGetD_tabPut_other _ _ _ (by omega)

/-- A register read that reaches its target is answered OK with the value read. -/
theorem regRead_resp {d : Dev} {m a : Nat} (h : d.lets (readOf m a)) (hr : regionOf d.hw a = .regs) (hn : a ≠ R.SIGV_RNG_DATA) :
    ∃ r, tabGet (regRead m a d).hw.resps m = some r ∧ r.status = .ok ∧ r.data = (regReadAt m a d).1.toNat := by
  rw [regRead_lets h hr hn]
  exact ⟨_, respond_resp (readOf m a) .ok _ _, rfl, rfl⟩

/-! Device time (R32). -/

/-- The high half of device time, as ID_TIME_HI shows it. -/
def timeHi (h : Hw) : Word := BitVec.ofNat 32 (h.time.toNat / 0x100000000)

/-- Device time has 64 bits, so that its high half fills a word and loses nothing. -/
theorem timeHi_toNat (h : Hw) : (timeHi h).toNat = h.time.toNat / 0x100000000 := by
  have hfit : h.time.toNat / 0x100000000 < 2 ^ 32 := by have := h.time.isLt; omega
  rw [timeHi, BitVec.toNat_ofNat, Nat.mod_eq_of_lt hfit]

theorem regReadAt_idTimeLo (m : Nat) (d : Dev) :
    regReadAt m R.ID_TIME_LO d = (BitVec.ofNat 32 d.hw.time.toNat, hwMod (fun h => mwr h R.ID_TIME_HI m (timeHi d.hw)) d) := rfl

theorem regReadAt_idTimeHi (m : Nat) (d : Dev) : regReadAt m R.ID_TIME_HI d = (mrd d.hw R.ID_TIME_HI m, d) := rfl

theorem regionOf_idTimeLo (h : Hw) : regionOf h R.ID_TIME_LO = .regs := regionOf_regs (by decide) (by decide) rfl

theorem regionOf_idTimeHi (h : Hw) : regionOf h R.ID_TIME_HI = .regs := regionOf_regs (by decide) (by decide) rfl

section
variable {d : Dev} {m : Nat} (h : d.lets (readOf m R.ID_TIME_LO))
include h

/-- The hardware core after a read of ID_TIME_LO: the high half is latched for the master, which has its response. -/
theorem regRead_idTimeLo_hw : (regRead m R.ID_TIME_LO d).hw =
    { mwr d.hw R.ID_TIME_HI m (timeHi d.hw) with resps := (regRead m R.ID_TIME_LO d).hw.resps } := by
  rw [regRead_lets h (regionOf_idTimeLo _) (by decide), regReadAt_idTimeLo]
  rfl

theorem mrd_regRead_idTimeLo (k : Nat) : mrd (regRead m R.ID_TIME_LO d).hw R.ID_TIME_HI k =
    mrd (mwr d.hw R.ID_TIME_HI m (timeHi d.hw)) R.ID_TIME_HI k := by
  rw [regRead_idTimeLo_hw h]
  rfl

theorem regRead_idTimeLo_resp :
    ∃ r, tabGet (regRead m R.ID_TIME_LO d).hw.resps m = some r ∧ r.status = .ok ∧ r.data = d.hw.time.toNat % 0x100000000 := by
  have := regRead_resp h (regionOf_idTimeLo _) (by decide)
  rwa [regReadAt_idTimeLo, BitVec.toNat_ofNat] at this

end

/-- A read of ID_TIME_HI that reaches its target is answered with what is latched for its master. -/
theorem regRead_idTimeHi_resp {d : Dev} {m : Nat} (h : d.lets (readOf m R.ID_TIME_HI)) :
    ∃ r, tabGet (regRead m R.ID_TIME_HI d).hw.resps m = some r ∧ r.status = .ok ∧ r.data = (mrd d.hw R.ID_TIME_HI m).toNat := by
  have := regRead_resp h (regionOf_idTimeHi _) (by decide)
  rwa [regReadAt_idTimeHi] at this

/-- Settles O53: the read of the low half leaves the high half in its master's latch, which the read of the high half shows. -/
theorem deviceTimeIsReadWhole : Obligations.DeviceTimeIsReadWhole := by
  intro d m h
  refine ⟨regRead m R.ID_TIME_LO d, Runs.of_onUnit (exec_idTimeLoRead m) h.masterOk rfl, regRead_idTimeLo_resp h,
    fun k hk => ?others, ?time, fun f hf hlatch => ?high⟩
  case others => exact (mrd_regRead_idTimeLo h k).trans (mrd_mwr_other_master _ _ _ hk)
  case time =>
    rw [regRead_idTimeLo_hw h]
    rfl
  case high =>
    have hword : mrd f.hw R.ID_TIME_HI m = timeHi d.hw := hlatch.trans ((mrd_regRead_idTimeLo h m).trans (mrd_mwr ..))
    have := regRead_idTimeHi_resp hf
    rwa [hword, timeHi_toNat] at this

/-! The checks of a request (R523). -/

/-- Step 3 of R523: a request that its master puts on the fabric and that the Collar refuses is answered DENIED, and the refusal has its
effects. -/
theorem access_collarRefuse {d : Dev} {q : Req} (hm : masterReserved q.master = false) (hc : masterClocked d q.master = true)
    (hs : storeHeld d q.master = false) (hf : fetchBarred d q = false) (hk : accessCheck d q = some .denied) :
    access q d = respond q .denied 0 (collarRefuse q.master q.kind q.addr q.size d) := by
  simp [access, hm, hc, hs, hf, hk]

/-- A part whose cluster 0 is ON and whose memory was never written. Its Collar is enforced with no window enabled and with the boot ROM's
default alarm on, and its event recorder is enabled. -/
def alarmingDev : Dev :=
  { Dev.reset with
    hw := { Hw.reset with regs := [(R.COLLAR_CTRL, 1#32), (R.EVREC_CTRL, 1#32)] }
    pwr := { Dev.reset.pwr with doms := [(73, { Dom.init with st := .on })] }
    sec := { Sec.reset with defAlarm := [(0, true)] } }

/-- Core 0 reads the first word of the boot ROM. -/
def romRead : Req := { master := 0, kind := .read, addr := 0, size := 4, data := 0, chk := 0 }

theorem alarmingDev_issues_romRead : masterReserved romRead.master = false ∧ masterClocked alarmingDev romRead.master = true ∧
    storeHeld alarmingDev romRead.master = false ∧ fetchBarred alarmingDev romRead = false := by decide +kernel

theorem romRead_aligned : regionOf alarmingDev.hw romRead.addr ≠ .outside ∧ sizeOk romRead.size = true ∧
    romRead.addr % romRead.size = 0 ∧ (regionOf alarmingDev.hw romRead.addr = .regs → romRead.size = 4) := by decide +kernel

theorem collarOk_romRead : collarOk alarmingDev romRead.master romRead.kind romRead.addr romRead.size = false := by decide +kernel

/-- The alarm of the refused read is recorded in the first slot of the event ring, in retention SRAM (R385, R483). -/
theorem access_romRead_ring : storeByte (access romRead alarmingDev).hw.mem.data 0x207F0000 = some 0#8 := by
  obtain ⟨hm, hc, hs, hf⟩ := alarmingDev_issues_romRead
  rw [access_collarRefuse hm hc hs hf (by decide +kernel)]
  decide +kernel

/-- Refutes O55: a refusal for which the target's default raises the COLLAR alarm posts an event (R384, R385), and the event recorder
writes that event to its ring in retention SRAM (R483), so that memory is not as it was. -/
theorem not_requestChecksInOrder : ¬ Obligations.RequestChecksInOrder := by
  intro h
  obtain ⟨hm, hc, hs, hf⟩ := alarmingDev_issues_romRead
  obtain ⟨hreg, hsize, halign, hword⟩ := romRead_aligned
  obtain ⟨-, -, hchecked⟩ := h alarmingDev romRead hm hc hs hf
  obtain ⟨hrefused, -⟩ := hchecked hreg hsize halign hword
  obtain ⟨e, he, -, -, hmem⟩ := hrefused collarOk_romRead
  have hkept : (access romRead alarmingDev).hw.mem = alarmingDev.hw.mem := by rw [he]; exact hmem
  have hblank : storeByte alarmingDev.hw.mem.data 0x207F0000 = none := rfl
  rw [← hkept, access_romRead_ring] at hblank
  cases hblank

end Sys2Proof.Machine
end

section
/-!
PROOFS. Protected memory: a write of part of a word merges into a word that is correct or correctable, and poisons a bad one (R353).
-/

namespace Sys2Proof.Machine

/-! Byte strings and the numbers they spell. -/

@[simp] theorem leBytes_length (k v : Nat) : (leBytes k v).length = k := by
  induction k generalizing v with
  | zero => rfl
  | succ k ih => simp [leBytes, ih]

/-- The `k` bytes of a number that fits in them spell it. -/
theorem leNat_leBytes {k v : Nat} (h : v < 256 ^ k) : leNat (leBytes k v) = v := by
  induction k generalizing v with
  | zero => simp only [leBytes, leNat]; omega
  | succ k ih =>
    have hrest : leNat (leBytes k (v / 256)) = v / 256 := ih (by rw [pow_succ] at h; omega)
    simp only [leBytes, leNat, hrest, BitVec.toNat_ofNat]
    omega

/-- The number that a byte string spells has that string's bytes. -/
theorem leBytes_leNat (bs : List Byte) : leBytes bs.length (leNat bs) = bs := by
  induction bs with
  | nil => rfl
  | cons b bs ih =>
    have hb : b.toNat < 256 := b.isLt
    have hlow : BitVec.ofNat 8 (b.toNat + 256 * leNat bs) = b := by
      apply BitVec.eq_of_toNat_eq
      rw [BitVec.toNat_ofNat]
      omega
    have hrest : (b.toNat + 256 * leNat bs) / 256 = leNat bs := by omega
    rw [List.length_cons, leNat, leBytes, hlow, hrest, ih]

/-! Words in the byte stores. -/

/-- A byte string written to a canonical store reads back. -/
theorem mapM_storeByte_storePuts {s : Store} (a : Nat) (bs : List Byte) (h : storeWf s = true) :
    (List.range bs.length).mapM (fun i => storeByte (storePuts s a bs) (a + i)) = some bs := by
  induction bs generalizing s a with
  | nil => rfl
  | cons b bs ih =>
    have hfirst : storeByte (storePuts s a (b :: bs)) a = some b := by
      rw [storePuts, storeByte_storePuts_other _ _ (by omega), storeByte_storePut_self a b h]
    have hrest : (List.range bs.length).mapM (fun i => storeByte (storePuts s a (b :: bs)) (a + (i + 1))) = some bs := by
      simpa only [storePuts, Nat.add_assoc, Nat.add_comm 1] using ih (a + 1) (storeWf_storePut (a := a) (b := b) h)
    rw [List.length_cons, List.range_succ_eq_map]
    simp [Function.comp_def, hfirst, hrest]

/-- A word stored in a canonical memory reads back with its check bits (R349). -/
theorem memRaw_memPut {m : Mem} (a : Nat) (w : DWord) (c : Byte) (hd : storeWf m.data = true) (hc : storeWf m.chk = true) :
    memRaw (memPut m a w c) a = some (w, c) := by
  have hdata := mapM_storeByte_storePuts a (leBytes 8 w.toNat) hd
  rw [leBytes_length] at hdata
  simp only [memRaw, memPut, storeByte_storePut_self a c hc, hdata, leNat_leBytes (k := 8) w.isLt, BitVec.ofNat_toNat,
    BitVec.setWidth_eq]

/-- Storing a word leaves every byte outside it. -/
theorem storeByte_memPut_other (m : Mem) {a b : Nat} (w : DWord) (c : Byte) (h : b < a ∨ a + 8 ≤ b) :
    storeByte (memPut m a w c).data b = storeByte m.data b :=
  storeByte_storePuts_other _ _ (by rwa [leBytes_length])

/-! A partial write at its target (R353). -/

/-- What a word that stands as data `w` and check bits `c` becomes by a write of `bs` from its byte `o`: merged under new check bits where
it is correct or correctable, else the poison pattern (R353, R354). -/
def partialWord (w : DWord) (c : Byte) (o : Nat) (bs : List Byte) : DWord × Byte :=
  match secClass w c with
  | .good x | .corrected x => (mergeBytes x o bs, secCheck (mergeBytes x o bs))
  | .uncorrectable | .poisoned => (0#64, 0xFF#8)

section
variable {w : DWord} {c : Byte}

theorem partialWord_of_readable {x : DWord} (h : secClass w c = .good x ∨ secClass w c = .corrected x) (o : Nat) (bs : List Byte) :
    partialWord w c o bs = (mergeBytes x o bs, secCheck (mergeBytes x o bs)) := by
  obtain h | h := h <;> simp only [partialWord, h]

theorem partialWord_of_bad (h : secClass w c = .uncorrectable ∨ secClass w c = .poisoned) (o : Nat) (bs : List Byte) :
    partialWord w c o bs = (0#64, 0xFF#8) := by
  obtain h | h := h <;> simp only [partialWord, h]

theorem secClass_poison : secClass 0#64 0xFF#8 = .poisoned := if_pos ⟨rfl, rfl⟩

/-- A defined word is looked at as it stands. -/
theorem memLook_of_memRaw {h : Hw} {a : Nat} {r : DWord × Byte} (hr : memRaw h.mem a = some r) : memLook h a = (r, h) := by
  simp only [memLook, hr]

variable {h : Hw} {a : Nat} (hr : memRaw h.mem (a / 8 * 8) = some (w, c)) (bs : List Byte)
include hr

/-- A partial write stores one word, and nothing else of the memory changes. -/
theorem memPartial_mem : (memPartial h a bs).mem =
    memPut h.mem (a / 8 * 8) (partialWord w c (a % 8) bs).1 (partialWord w c (a % 8) bs).2 := by
  simp only [memPartial, memLook_of_memRaw hr, partialWord]
  cases secClass w c with
  | good x => rfl
  | corrected x => rfl
  | uncorrectable => dsimp only; split <;> simp
  | poisoned => dsimp only; split <;> simp

/-- A refused partial write sets POISON_SET of the memory of its address. -/
theorem memPartial_of_bad (hbad : secClass w c = .uncorrectable ∨ secClass w c = .poisoned) : memPartial h a bs =
    if isDram a then irq { h with mem := memPut h.mem (a / 8 * 8) 0#64 0xFF#8 } irqDramc 5
    else irq { h with mem := memPut h.mem (a / 8 * 8) 0#64 0xFF#8 } irqMemchk 2 := by
  obtain hbad | hbad := hbad <;> simp only [memPartial, memLook_of_memRaw hr, hbad]

end

/-- A unit that sets a bit of its interrupt status shows it there (R403). -/
theorem bit_rd_irq_self (h : Hw) (blk : IrqBlock) {b : Nat} (hb : b < 32) (hs : blk.st ≠ R.WH_PEND (blk.src b / 32)) :
    bit (rd (irq h blk b) blk.st) b = true := by
  have hset : bit (setBit (rd h blk.st) b) b = true := by simp [bit_setBit _ _ _ hb]
  unfold irq raise
  dsimp only
  split
  · rwa [pendSet, md, rd_wr_other _ _ _ _ hs, md, rd_wr_same]
  · rwa [md, rd_wr_same]

/-- A refused partial write of buffer DRAM sets DRAMC_INT_STAT.POISON_SET, and one of SRAM sets MEMCHK_INT_STAT.POISON_SET (R353). -/
theorem memPartial_poisonSet {h : Hw} {a : Nat} {w : DWord} {c : Byte} (hr : memRaw h.mem (a / 8 * 8) = some (w, c)) (bs : List Byte)
    (hbad : secClass w c = .uncorrectable ∨ secClass w c = .poisoned) :
    (0x100000000 ≤ a → bit (rd (memPartial h a bs) R.DRAMC_INT_STAT) 5 = true) ∧
    (a < 0x100000000 → bit (rd (memPartial h a bs) R.MEMCHK_INT_STAT) 2 = true) := by
  rw [memPartial_of_bad hr bs hbad]
  constructor <;> intro ha
  · rw [if_pos (by simpa [isDram] using ha)]
    exact bit_rd_irq_self _ irqDramc (by decide) (by decide)
  · rw [if_neg (by simpa [isDram] using ha)]
    exact bit_rd_irq_self _ irqMemchk (by decide) (by decide)

/-! Accesses to protected memory. -/

/-- The regions of protected memory: working SRAM, retention SRAM and buffer DRAM (R349). -/
def Region.isMemory (r : Region) : Prop := r = .sram ∨ r = .retention ∨ r = .dram

/-- Protected memory takes a write of fewer than 8 bytes as a partial write, and answers it OK. -/
theorem accessWrite_partial {d : Dev} {q : Req} (hq : (regionOf d.hw q.addr).isMemory) (hs : q.size < 8) :
    accessWrite q d = respond q .ok 0 { d with hw := memPartial d.hw q.addr (leBytes q.size q.data) } := by
  obtain hq | hq | hq := hq <;> simp only [accessWrite, hq, if_neg hs.ne, if_pos hs]

/-- A partial write that reaches protected memory is answered OK, whatever becomes of the word: memory stores are posted (R353). -/
theorem access_bytesReq {d : Dev} {m a : Nat} {bs : List Byte} (h : d.lets (bytesReq m a bs)) (hq : (regionOf d.hw a).isMemory)
    (hs : bs.length < 8) : access (bytesReq m a bs) d = respond (bytesReq m a bs) .ok 0 { d with hw := memPartial d.hw a bs } := by
  calc access (bytesReq m a bs) d
      = accessWrite (bytesReq m a bs) d := access_lets h
    _ = respond (bytesReq m a bs) .ok 0 { d with hw := memPartial d.hw a (leBytes bs.length (leNat bs)) } := accessWrite_partial hq hs
    _ = _ := by rw [leBytes_leNat]

/-- A read of a word that is uncorrectable or poisoned gives no data (R351). -/
theorem memReadWord_of_bad {h : Hw} {a : Nat} {w : DWord} {c : Byte} (hr : memRaw h.mem a = some (w, c))
    (hbad : secClass w c = .uncorrectable ∨ secClass w c = .poisoned) : (memReadWord h a).1 = none := by
  obtain hbad | hbad := hbad <;> simp only [memReadWord, memLook_of_memRaw hr, hbad]

theorem memRead_of_bad {h : Hw} {a : Nat} {w : DWord} {c : Byte} (hr : memRaw h.mem (a / 8 * 8) = some (w, c))
    (hbad : secClass w c = .uncorrectable ∨ secClass w c = .poisoned) : (memRead h a 8).1 = none := by
  simp [memRead, memReadWords, memReadWord_of_bad hr hbad]

/-- Protected memory answers a read that gives no data UNRECOVERED (R351). -/
theorem accessRead_of_memRead_none {d : Dev} {q : Req} (hq : (regionOf d.hw q.addr).isMemory)
    (hnone : (memRead d.hw q.addr q.size).1 = none) :
    accessRead q d = respond q .unrecovered 0 { d with hw := (memRead d.hw q.addr q.size).2 } := by
  obtain hq | hq | hq := hq <;> simp only [accessRead, hq, hnone]

/-- A read of a bad word is answered UNRECOVERED (R351). -/
theorem memoryRead_unrecovered {d : Dev} {m a : Nat} {w : DWord} {c : Byte} (h : d.lets (readReq m a 8 false))
    (hq : (regionOf d.hw a).isMemory) (hr : memRaw d.hw.mem (a / 8 * 8) = some (w, c))
    (hbad : secClass w c = .uncorrectable ∨ secClass w c = .poisoned) :
    ∃ e r, Runs (.memoryRead m a 8 false) d e ∧ tabGet e.hw.resps m = some r ∧ r.status = .unrecovered :=
  have htarget : access (readReq m a 8 false) d = accessRead (readReq m a 8 false) d := access_lets h
  ⟨_, _, Runs.of_onUnit (exec_memoryRead m a 8 false) h.masterOk (htarget.trans (accessRead_of_memRead_none hq (memRead_of_bad hr hbad))),
    respond_resp .., rfl⟩

/-- Settles O59: the word of a partial write becomes the one that `partialWord` says, and a refused one is the poison pattern, which the
next read finds. -/
theorem partialWrites : Obligations.PartialWrites := by
  rintro d m a bs w c ⟨hdata, hchk, -⟩ hlen hlets hmem hraw
  have hmaster : masterOk m = true := hlets.masterOk
  have hput := memPartial_mem hraw bs
  have hword : memRaw (memPartial d.hw a bs).mem (a / 8 * 8) = some (partialWord w c (a % 8) bs) := by
    rw [hput, memRaw_memPut _ _ _ hdata hchk]
  refine ⟨_, Runs.of_onUnit (exec_partialWrite m a bs) (by simp [hmaster, hlen]) (access_bytesReq hlets hmem hlen),
    ⟨_, respond_resp .., rfl⟩, fun x hx => ?merged, fun hbad => ?refused, fun b hb => ?others, fun f hf hlook hregion hbad => ?read⟩
  case merged => exact hword.trans (by rw [partialWord_of_readable hx])
  case refused =>
    obtain ⟨hdram, hsram⟩ := memPartial_poisonSet hraw bs hbad
    exact ⟨hdram, hsram, _, _, hword.trans (by rw [partialWord_of_bad hbad]), secClass_poison⟩
  case others => exact (congrArg (storeByte ·.data b) hput).trans (storeByte_memPut_other _ _ _ hb)
  case read =>
    have hpoison : memRaw f.hw.mem (a / 8 * 8) = some (0#64, 0xFF#8) := (hf.trans hword).trans (by rw [partialWord_of_bad hbad])
    exact memoryRead_unrecovered hlook (hregion ▸ hmem) (by rwa [Nat.mul_div_cancel _ (by decide)]) (.inr secClass_poison)

end Sys2Proof.Machine
end

section
/-!
PROOFS. Whistle: which source a claim delivers and what it leaves pending (R409), and how the rings of a doorbell merge (R412).
-/

namespace Sys2Proof.Machine

/-! The best source of a context (R409). -/

/-- What makes a source eligible in its context. -/
theorem whEligible_iff (g : Nat → Word) (c x s : Nat) : whEligible g c x s = true ↔
    bit (g (R.WH_PEND (s / 32))) (s % 32) = true ∧ bit (g (R.WH_MASK (s / 32))) (s % 32) = false ∧
    fld (g (R.WH_ROUTE s)) 0 4 = c ∧ fld (g (R.WH_ROUTE s)) 5 1 = x ∧
    fld (g (R.WH_THRESH (2 * c + x))) 0 3 < fld (g (R.WH_ROUTE s)) 6 3 := by
  simp [whEligible, and_assoc]

/-- A source of priority 0 passes no threshold. -/
theorem whEligible_of_priority_zero {g : Nat → Word} {s : Nat} (h : fld (g (R.WH_ROUTE s)) 6 3 = 0) (c x : Nat) :
    whEligible g c x s = false := by
  simp [whEligible, h]

/-- A source that is not pending is eligible nowhere. -/
theorem whEligible_of_not_pending {g : Nat → Word} {s : Nat} (h : bit (g (R.WH_PEND (s / 32))) (s % 32) = false) (c x : Nat) :
    whEligible g c x s = false := by
  simp [whEligible, h]

/-- Source `s` goes before source `t`: its priority is higher, or they are equal and its number is lower (R409). -/
def whBefore (g : Nat → Word) (s t : Nat) : Prop :=
  fld (g (R.WH_ROUTE t)) 6 3 < fld (g (R.WH_ROUTE s)) 6 3 ∨ (fld (g (R.WH_ROUTE t)) 6 3 = fld (g (R.WH_ROUTE s)) 6 3 ∧ s < t)

theorem whBefore.trans {g : Nat → Word} {s t u : Nat} (h : whBefore g s t) (k : whBefore g t u) : whBefore g s u := by
  unfold whBefore at *
  omega

theorem whBefore.asymm {g : Nat → Word} {s t : Nat} (h : whBefore g s t) : ¬ whBefore g t s := by
  unfold whBefore at *
  omega

/-- `s` is eligible in the context of core `c`, mode bit `x`, and goes before every other eligible source below `n`. -/
structure WhFirst (g : Nat → Word) (c x n s : Nat) : Prop where
  lt : s < n
  eligible : whEligible g c x s = true
  before : ∀ t < n, whEligible g c x t = true → t ≠ s → whBefore g s t

section
variable {g : Nat → Word} {c x n : Nat}

theorem WhFirst.unique {s t : Nat} (hs : WhFirst g c x n s) (ht : WhFirst g c x n t) : s = t := by
  by_contra hne
  exact (hs.before t ht.lt ht.eligible (Ne.symm hne)).asymm (ht.before s hs.lt hs.eligible hne)

/-- The next source does not come first if it is not eligible, or not of a higher priority: its number is higher. -/
theorem WhFirst.succ_of_not_better {s : Nat} (h : WhFirst g c x n s)
    (hle : whEligible g c x n = true → fld (g (R.WH_ROUTE n)) 6 3 ≤ fld (g (R.WH_ROUTE s)) 6 3) : WhFirst g c x (n + 1) s where
  lt := h.lt.trans (Nat.lt_succ_self n)
  eligible := h.eligible
  before t ht he hne := by
    obtain ht | rfl := Nat.lt_succ_iff_lt_or_eq.mp ht
    · exact h.before t ht he hne
    · exact (hle he).lt_or_eq.imp id (⟨·, h.lt⟩)

/-- A source of higher priority goes before the one that came first and before all that this one goes before. -/
theorem WhFirst.succ_of_lt {s : Nat} (h : WhFirst g c x n s) (hn : whEligible g c x n = true)
    (hlt : fld (g (R.WH_ROUTE s)) 6 3 < fld (g (R.WH_ROUTE n)) 6 3) : WhFirst g c x (n + 1) n where
  lt := Nat.lt_succ_self n
  eligible := hn
  before t ht he hne := by
    have hns : whBefore g n s := .inl hlt
    by_cases hts : t = s
    · exact hts ▸ hns
    · exact hns.trans (h.before t (by omega) he hts)

theorem whBest_eq_none_iff : whBest g c x n = none ↔ ∀ t < n, whEligible g c x t = false := by
  induction n with
  | zero => simp [whBest]
  | succ n ih =>
    rw [Nat.forall_lt_succ_right, ← ih, whBest]
    cases whBest g c x n with
    | none => simp
    | some b => dsimp only; split <;> simp

/-- The search finds a source that comes first. -/
theorem whFirst_of_whBest {s : Nat} (h : whBest g c x n = some s) : WhFirst g c x n s := by
  induction n generalizing s with
  | zero => cases h
  | succ n ih =>
    rw [whBest] at h
    cases hb : whBest g c x n with
    | none =>
      have hnone := whBest_eq_none_iff.mp hb
      simp only [hb] at h
      split at h
      next he =>
        obtain rfl := Option.some.inj h
        refine ⟨Nat.lt_succ_self n, he, fun t ht het hne => ?_⟩
        simp [hnone t (by omega)] at het
      next => cases h
    | some b =>
      have hfirst : WhFirst g c x n b := ih hb
      simp only [hb] at h
      split at h
      next hbetter =>
        obtain ⟨he, hlt⟩ := (Bool.and_eq_true _ _).mp hbetter
        obtain rfl := Option.some.inj h
        exact hfirst.succ_of_lt he (of_decide_eq_true hlt)
      next hworse =>
        obtain rfl := Option.some.inj h
        exact hfirst.succ_of_not_better (by simpa using hworse)

/-- The search finds the source that comes first. -/
theorem whBest_of_whFirst {s : Nat} (h : WhFirst g c x n s) : whBest g c x n = some s := by
  cases hb : whBest g c x n with
  | none =>
    have hnot := whBest_eq_none_iff.mp hb s h.lt
    simp [h.eligible] at hnot
  | some b => rw [(whFirst_of_whBest hb).unique h]

end

/-- The external interrupt line of a context is active while some source is eligible in it (R409). -/
theorem mipEip_iff (d : Dev) (c x : Nat) : mipEip d c x = true ↔ ∃ s < 1024, whEligible (rd d.hw) c x s = true := by
  simp [mipEip, Option.isSome_iff_ne_none, whBest_eq_none_iff]

/-! Pending bits. -/

/-- Whether source `s` is pending (R406). -/
abbrev whPending (h : Hw) (s : Nat) : Bool := bit (rd h (R.WH_PEND (s / 32))) (s % 32)

/-- In a source's pending word the source's own bit is no other source's. -/
theorem bit_source {s t : Nat} (hword : t / 32 = s / 32) : bit (1#32 <<< (s % 32)) (t % 32) = decide (t = s) := by
  rw [bit_one_shl _ _ (by omega), decide_eq_decide]
  omega

theorem pendWord_ne {s t : Nat} (hword : t / 32 ≠ s / 32) : R.WH_PEND (t / 32) ≠ R.WH_PEND (s / 32) := by
  unfold R.WH_PEND
  omega

/-- Clearing the bits below `n` that `p` picks. -/
theorem bit_foldl_clrBit (p : Nat → Bool) (w : Word) {n : Nat} (hn : n ≤ 32) (i : Nat) :
    bit ((List.range n).foldl (fun w i => if p i then clrBit w i else w) w) i = (bit w i && !(decide (i < n) && p i)) := by
  induction n with
  | zero => simp
  | succ n ih =>
    rw [List.range_succ, List.foldl_append, List.foldl_cons, List.foldl_nil]
    by_cases hi : i = n
    · subst hi
      by_cases hp : p i = true <;> simp [hp, bit_clrBit _ _ _ (show i < 32 by omega), ih (by omega)]
    · have hlt : (i < n + 1) = (i < n) := by simp; omega
      by_cases hp : p n = true <;> simp [hp, bit_clrBit _ _ _ (show n < 32 by omega), ih (by omega), hi, hlt]

/-- A clear takes the written bits of its word but for those that their level holds (R406). -/
theorem bit_pendClear (d : Dev) (j : Nat) (v : Word) {i : Nat} (hi : i < 32) :
    bit (rd (pendClear d j v).hw (R.WH_PEND j)) i = (bit (rd d.hw (R.WH_PEND j)) i && !(bit v i && !levelActive d (32 * j + i))) := by
  rw [pendClear, rd_wr_same, bit_foldl_clrBit _ _ le_rfl]
  simp [hi]

/-- A clear of one source's bit leaves that source pending if its level holds it, and every other source as it was. -/
theorem whPending_pendClear (d : Dev) (s t : Nat) : whPending (pendClear d (s / 32) (1#32 <<< (s % 32))).hw t =
    (whPending d.hw t && (decide (t ≠ s) || levelActive d s)) := by
  by_cases hword : t / 32 = s / 32
  · rw [whPending, hword, bit_pendClear d _ _ (by omega), bit_source hword, whPending, hword]
    by_cases hts : t = s
    · subst hts
      simp [Nat.div_add_mod]
    · simp [hts]
  · have hts : t ≠ s := fun h => hword (by rw [h])
    simp [whPending, pendClear, rd_wr_other _ _ _ _ (pendWord_ne hword), hts]

/-- Setting a bit that is set changes nothing. -/
theorem or_one_shl_of_bit {w : Word} {i : Nat} (h : bit w i = true) : w ||| (1#32 <<< i) = w := by
  have hi : i < 32 := by
    by_contra hi
    simp [bit_of_ge w (Nat.not_lt.mp hi)] at h
  refine BitVec.eq_of_getLsbD_eq fun k hk => ?_
  have hk' : bit (setBit w i) k = bit w k := by
    rw [bit_setBit _ _ _ hi]
    by_cases hki : k = i <;> simp [hki, h]
  exact hk'

/-! A read of WH_CLAIM. -/

section
variable {d : Dev} {c x : Nat}

/-- A claim outside the 40 ns of R411 is served from the present registers. -/
theorem whView_false (d : Dev) : whView d false = rd d.hw := by
  funext a
  simp [whView]

theorem whClaim_none (h : whBest (rd d.hw) c x 1024 = none) : whClaim c x false d = (none, d) := by
  simp [whClaim, whView_false, h]

variable {s : Nat} (hsaved : d.wh.saved.getLsbD (c / 4) = false) (h : whBest (rd d.hw) c x 1024 = some s)
include hsaved h

theorem whClaim_source : (whClaim c x false d).1 = some s := by
  simp [whClaim, hsaved, whView_false, h]

/-- A claim clears the source's pending bit and records the source in WH_LAST. -/
theorem whClaim_hw : (whClaim c x false d).2.hw =
    wr (pendClear d (s / 32) (1#32 <<< (s % 32))).hw (R.WH_LAST (2 * c + x)) (BitVec.ofNat 32 (0x80000000 + s)) := by
  simp [whClaim, hsaved, whView_false, h]

theorem rd_whClaim_last : rd (whClaim c x false d).2.hw (R.WH_LAST (2 * c + x)) = BitVec.ofNat 32 (0x80000000 + s) := by
  rw [whClaim_hw hsaved h, rd_wr_same]

/-- A claim takes the claimed source's pending bit unless its level holds it, and no other's (R406, R409). -/
theorem whPending_whClaim {t : Nat} (ht : t < 1024) :
    whPending (whClaim c x false d).2.hw t = (whPending d.hw t && (decide (t ≠ s) || levelActive d s)) := by
  have haddr : R.WH_PEND (t / 32) ≠ R.WH_LAST (2 * c + x) := by unfold R.WH_PEND R.WH_LAST; omega
  rw [whPending, whClaim_hw hsaved h, rd_wr_other _ _ _ _ haddr]
  exact whPending_pendClear d s t

end

section
variable {c x : Nat} (hc : c < 16) (hx : x < 2)
include hc hx

theorem regSlot_whClaim : regSlot (R.WH_CLAIM (2 * c + x)) = 2 := by unfold regSlot R.WH_CLAIM; omega

theorem regionOf_whClaim (h : Hw) : regionOf h (R.WH_CLAIM (2 * c + x)) = .regs := by
  refine regionOf_regs ?_ ?_ (by rw [regSlot_whClaim hc hx]; rfl) <;> unfold R.WH_CLAIM <;> omega

/-- What a read of WH_CLAIM returns and does: a claim by its context, unless the context is saved (R409, R416). -/
theorem regReadAt_whClaim (m : Nat) (d : Dev) : regReadAt m (R.WH_CLAIM (2 * c + x)) d =
    if d.wh.saved.getLsbD (c / 4) then (0#32, d)
    else ((whClaim c x false d).1.elim 0#32 (fun s => BitVec.ofNat 32 (0x80000000 + s)), (whClaim c x false d).2) := by
  have hoff : R.WH_CLAIM (2 * c + x) % 0x10000 = 0x8004 + 0x20 * (2 * c + x) := by unfold R.WH_CLAIM; omega
  have hctx : (0x8004 + 0x20 * (2 * c + x)) % 0x400 / 0x20 = 2 * c + x := by omega
  have hcluster : (2 * c + x) / 8 = c / 4 := by omega
  have hcore : (2 * c + x) / 2 = c := by omega
  have hmode : (2 * c + x) % 2 = x := by omega
  simp only [regReadAt, regSlot_whClaim hc hx, hoff, whistleRead, hctx, hcluster, hcore, hmode]
  rw [if_neg (by omega), if_neg (by omega), if_neg (by omega), if_pos (by omega),
    if_pos (show (0x8004 + 0x20 * (2 * c + x)) % 0x20 = 4 by omega)]
  cases (whClaim c x false d).1 <;> rfl

variable {d : Dev} {m : Nat} (hlets : d.lets (readOf m (R.WH_CLAIM (2 * c + x))))
include hlets

/-- A claim that reaches Whistle runs to a register read. -/
theorem runs_whClaim : Runs (.whClaim m (2 * c + x) false) d (regRead m (R.WH_CLAIM (2 * c + x)) d) :=
  have hctx : decide (2 * c + x < 32) = true := decide_eq_true (by omega)
  Runs.of_onUnit (exec_whClaim m (2 * c + x) false) (Bool.and_eq_true_iff.mpr ⟨hlets.masterOk, hctx⟩) rfl

/-- With no claim to make the read answers 0 and leaves the device but for its response. -/
theorem regRead_whClaim_none (h : whBest (rd d.hw) c x 1024 = none) :
    regRead m (R.WH_CLAIM (2 * c + x)) d = Dev.read d m (R.WH_CLAIM (2 * c + x)) 0#32 := by
  have hat : regReadAt m (R.WH_CLAIM (2 * c + x)) d = (0#32, d) := by simp [regReadAt_whClaim hc hx, whClaim_none h]
  rw [regRead_lets hlets (regionOf_whClaim hc hx _) (by unfold R.WH_CLAIM R.SIGV_RNG_DATA; omega), hat, Dev.read]

/-- The read answers the claimed source with VALID, and leaves what the claim does. -/
theorem regRead_whClaim_some {s : Nat} (hsaved : d.wh.saved.getLsbD (c / 4) = false) (h : whBest (rd d.hw) c x 1024 = some s) :
    regRead m (R.WH_CLAIM (2 * c + x)) d =
      Dev.read (whClaim c x false d).2 m (R.WH_CLAIM (2 * c + x)) (BitVec.ofNat 32 (0x80000000 + s)) := by
  have hat : regReadAt m (R.WH_CLAIM (2 * c + x)) d = (BitVec.ofNat 32 (0x80000000 + s), (whClaim c x false d).2) := by
    simp [regReadAt_whClaim hc hx, hsaved, whClaim_source hsaved h]
  rw [regRead_lets hlets (regionOf_whClaim hc hx _) (by unfold R.WH_CLAIM R.SIGV_RNG_DATA; omega), hat, Dev.read]

end

/-- A read answers its master OK with the value. -/
theorem read_resp (e : Dev) (m a : Nat) (w : Word) :
    ∃ r, tabGet (Dev.read e m a w).hw.resps m = some r ∧ r.status = .ok ∧ r.data = w.toNat :=
  ⟨_, respond_resp (readOf m a) .ok _ _, rfl, rfl⟩

theorem rd_read (e : Dev) (m a : Nat) (w : Word) : rd (Dev.read e m a w).hw = rd e.hw := rfl

/-- A source number leaves bit 31 of the claim word to VALID. -/
theorem claimWord_toNat {s : Nat} (h : s < 1024) : (BitVec.ofNat 32 (0x80000000 + s)).toNat = 0x80000000 + s := by
  rw [BitVec.toNat_ofNat]
  omega

/-- A claim that reaches Whistle delivers the source that comes first: what it answers, records and leaves pending. -/
theorem claim_delivers {d : Dev} {m c x s : Nat} (hc : c < 16) (hx : x < 2) (hsaved : d.wh.saved.getLsbD (c / 4) = false)
    (hlets : d.lets (readOf m (R.WH_CLAIM (2 * c + x)))) (h : whBest (rd d.hw) c x 1024 = some s) :
    ∃ e, Runs (.whClaim m (2 * c + x) false) d e ∧
      (∃ r, tabGet e.hw.resps m = some r ∧ r.status = .ok ∧ r.data = 0x80000000 + s) ∧
      rd e.hw (R.WH_LAST (2 * c + x)) = BitVec.ofNat 32 (0x80000000 + s) ∧
      (∀ t < 1024, whPending e.hw t = (whPending d.hw t && (decide (t ≠ s) || levelActive d s))) := by
  have hs : s < 1024 := (whFirst_of_whBest h).lt
  refine ⟨_, runs_whClaim hc hx hlets, ?_⟩
  rw [regRead_whClaim_some hc hx hlets hsaved h, rd_read]
  refine ⟨?resp, rd_whClaim_last hsaved h, fun t ht => whPending_whClaim hsaved h ht⟩
  obtain ⟨r, hr, hok, hdata⟩ := read_resp (whClaim c x false d).2 m (R.WH_CLAIM (2 * c + x)) (BitVec.ofNat 32 (0x80000000 + s))
  exact ⟨r, hr, hok, hdata.trans (claimWord_toNat hs)⟩

/-- Settles O54: the search of a claim finds exactly the source that comes first. -/
theorem claimDeliversByPriority : Obligations.ClaimDeliversByPriority := by
  refine ⟨fun d => whEligible_iff (rd d.hw), fun d c x s h => whEligible_of_priority_zero h c x, mipEip_iff, ?delivered, ?nothing⟩
  case delivered =>
    intro d m c x s hc hx hs hsaved hlets helig hbefore
    have hbest := whBest_of_whFirst ⟨hs, helig, hbefore⟩
    obtain ⟨e, hruns, hresp, hlast, hpend⟩ := claim_delivers hc hx hsaved hlets hbest
    have hpending : whPending d.hw s = true := ((whEligible_iff ..).mp helig).1
    refine ⟨e, hruns, hresp, hlast, ?claimed, fun t ht hts => ?other⟩
    case claimed => exact (hpend s hs).trans (by simp [hpending])
    case other => exact (hpend t ht).trans (by simp [hts])
  case nothing =>
    intro d m c x hc hx hlets hnone
    refine ⟨_, runs_whClaim hc hx hlets, ?_⟩
    rw [regRead_whClaim_none hc hx hlets (whBest_eq_none_iff.mpr hnone)]
    exact ⟨rfl, read_resp ..⟩

/-! A write that sets pending bits. -/

section
variable {d : Dev} {m j : Nat} {v : Word} (hj : j < 32) (hlets : d.lets (writeOf m (R.WH_PEND_SET j) v))
include hj

theorem regSlot_pendSet : regSlot (R.WH_PEND_SET j) = 2 := by unfold regSlot R.WH_PEND_SET; omega

theorem regionOf_pendSet (h : Hw) : regionOf h (R.WH_PEND_SET j) = .regs := by
  refine regionOf_regs ?_ ?_ (by rw [regSlot_pendSet hj]; rfl) <;> unfold R.WH_PEND_SET <;> omega

theorem regWriteAt_pendSet (m : Nat) (v : Word) (d : Dev) : regWriteAt m (R.WH_PEND_SET j) v d = (.ok, pendSetWrite j v d) := by
  have hoff : R.WH_PEND_SET j % 0x10000 = 0x1100 + 4 * j := by unfold R.WH_PEND_SET; omega
  have hword : (0x1100 + 4 * j) % 0x100 / 4 = j := by omega
  simp only [regWriteAt, regSlot_pendSet hj, hoff, whistleWrite, hword]
  rw [if_neg (by omega), if_pos (by omega)]

include hlets

/-- A write to a word of WH_PEND_SET that reaches Whistle sets its bits (R407). -/
theorem runs_pendingSetAlias :
    Runs (.pendingSetAlias m j v) d (Dev.wrote (pendSetWrite j v d) m (R.WH_PEND_SET j) v) :=
  have hword : decide (j < 32) = true := decide_eq_true hj
  have hwrite : regWrite m (R.WH_PEND_SET j) v d = Dev.wrote (pendSetWrite j v d) m (R.WH_PEND_SET j) v := by
    rw [regWrite_lets hlets (regionOf_pendSet hj _), regWriteAt_pendSet hj, Dev.wrote]
  Runs.of_onUnit (exec_pendingSetAlias m j v) (Bool.and_eq_true_iff.mpr ⟨hlets.masterOk, hword⟩) hwrite

end

/-- The response of a write, and the holds that take effect after it, change no register. -/
theorem rd_wrote (e : Dev) (m a : Nat) (v : Word) : rd (Dev.wrote e m a v).hw = rd e.hw := by
  rw [Dev.wrote, settle_frame]
  rfl

theorem rd_pendSetWrite_same (d : Dev) (j : Nat) (v : Word) :
    rd (pendSetWrite j v d).hw (R.WH_PEND j) = rd d.hw (R.WH_PEND j) ||| v := rd_wr_same ..

theorem rd_pendSetWrite_other (d : Dev) {j a : Nat} (v : Word) (h : a ≠ R.WH_PEND j) : rd (pendSetWrite j v d).hw a = rd d.hw a :=
  rd_wr_other _ _ _ _ h

/-- Setting one source's bit leaves every other source as it was. -/
theorem whPending_pendSetWrite (d : Dev) (s t : Nat) :
    whPending (pendSetWrite (s / 32) (1#32 <<< (s % 32)) d).hw t = (whPending d.hw t || decide (t = s)) := by
  by_cases hword : t / 32 = s / 32
  · rw [whPending, hword, rd_pendSetWrite_same, bit_or, bit_source hword, whPending, hword]
  · have hts : t ≠ s := fun h => hword (by rw [h])
    simp [whPending, rd_pendSetWrite_other _ _ (pendWord_ne hword), hts]

/-- Setting the bit of a source that is pending changes no register. -/
theorem rd_pendSetWrite_of_pending {d : Dev} {s : Nat} (h : whPending d.hw s = true) (a : Nat) :
    rd (pendSetWrite (s / 32) (1#32 <<< (s % 32)) d).hw a = rd d.hw a := by
  by_cases ha : a = R.WH_PEND (s / 32)
  · rw [ha, rd_pendSetWrite_same, or_one_shl_of_bit h]
  · exact rd_pendSetWrite_other _ _ ha

/-- No level holds a doorbell pending: above source 367 there are neither unit lines nor external inputs (Table 13.3). -/
theorem levelActive_doorbell (d : Dev) {n : Nat} (h : 368 ≤ n) : levelActive d n = false := by
  rw [levelActive, if_neg (by omega), lineActive]
  simp (disch := omega) only [if_neg]

/-- Settles O60: a ring of a pending doorbell finds its bit set, and a claim takes the bit, which no level holds. -/
theorem doorbellsMerge : Obligations.DoorbellsMerge := by
  refine ⟨?ring, ?claim⟩
  case ring =>
    intro d m n _ hn hlets
    refine ⟨_, runs_pendingSetAlias (by omega) hlets, ?_⟩
    rw [rd_wrote]
    refine ⟨?rung, fun t _ hts => ?other, rd_pendSetWrite_of_pending⟩
    case rung => exact (whPending_pendSetWrite d n n).trans (by simp)
    case other => exact (whPending_pendSetWrite d n t).trans (by simp [hts])
  case claim =>
    intro d m c x n hn hlt hc hx hsaved hlets hbest
    obtain ⟨e, hruns, ⟨r, hr, -, hdata⟩, -, hpend⟩ := claim_delivers hc hx hsaved hlets hbest
    have htaken : whPending e.hw n = false := (hpend n hlt).trans (by simp [levelActive_doorbell d hn])
    exact ⟨e, hruns, ⟨r, hr, hdata⟩, whEligible_of_not_pending htaken⟩

end Sys2Proof.Machine
end

section
/-!
PROOFS. The lock bits of the Rind store (R422): resets leave them, and what LOCK, UNLOCK and SET_PW have done to them and to the
password when they end.
-/

namespace Sys2Proof.Machine

/-! Resets leave the lock bits. -/

@[simp] theorem ballsSafe_hw (d : Dev) : (ballsSafe d).hw = d.hw := by
  unfold ballsSafe
  refine List.foldlRecOn (motive := fun x : Dev => x.hw = d.hw) _ _ rfl fun x hx c _ => ?_
  dsimp only
  split
  · exact hx
  · exact (chanPut_hw ..).trans hx

@[simp] theorem sjLoad_hw (d : Dev) : (sjLoad d).hw = d.hw := rfl

@[simp] theorem seqCheck_hw (d : Dev) : (seqCheck d).hw = d.hw := by rw [seqCheck_frame]

@[simp] theorem domsReset_hw (d : Dev) : (domsReset d).hw = d.hw := by rw [domsReset_frame]

@[simp] theorem countsLoad_hw (d : Dev) : (countsLoad d).hw = d.hw := rfl

/-- Held level sources make interrupts pending, and change nothing of the Rind store. -/
@[simp] theorem extHeld_rind (d : Dev) : (extHeld d).hw.rind = d.hw.rind := by
  obtain ⟨w, hw, -⟩ := extHeld_frame d
  rw [hw]

/-- A reset ends a running operation, and spoils the store's bytes at most: the lock bits stay. -/
@[simp] theorem hwReset_locks (h : Hw) : (hwReset h).rind.locks = h.rind.locks := by
  unfold hwReset
  dsimp only
  split
  · split <;> rfl
  · rfl

@[simp] theorem devReset_locks (sys : Bool) (d : Dev) : (devReset sys d).hw.rind.locks = d.hw.rind.locks := by
  unfold devReset
  simp only [extHeld_rind, domsReset_hw, sjLoad_hw, ballsSafe_hw]
  split <;> simp

/-- Power-on clears PW_LOCKED, and no lock bit. -/
@[simp] theorem powerOn_locks (d : Dev) : (powerOn d).hw.rind.locks = d.hw.rind.locks :=
  devReset_locks true d

theorem pgoodRise_locks (supplyLost : Bool) (d : Dev) : (pgoodRise supplyLost d).hw.rind.locks = d.hw.rind.locks := by
  unfold pgoodRise
  split
  · rfl
  · cases supplyLost <;> simp

theorem pgoodFall_locks (d : Dev) : (pgoodFall d).hw.rind.locks = d.hw.rind.locks := by
  unfold pgoodFall
  split <;> simp

theorem sysResetAssert_locks (d : Dev) : (sysResetAssert d).hw.rind.locks = d.hw.rind.locks := by
  unfold sysResetAssert
  split <;> simp

theorem internalReset_locks (d : Dev) : (internalReset d).hw.rind.locks = d.hw.rind.locks := by
  unfold internalReset
  split <;> simp

/-- A command without a condition that keeps a part of the device keeps it in whatever it runs to. -/
theorem Runs.keeps {α : Type} {c : Instr} {f : Dev → Dev} {g : Dev → α} {d e : Dev} (h : Runs c d e) (hc : ∀ s, exec c s = does f s)
    (hf : g (f d) = g d) : g e = g d :=
  h.unique (Runs.of_does hc rfl) ▸ hf

/-! The end of an operation. -/

/-- The end of an operation frees the store and changes nothing else of it. -/
@[simp] theorem rindEndOp_rind (op addr : Nat) (st : Status) (d : Dev) :
    (rindEndOp op addr st d).hw.rind = { d.hw.rind with running := none } := by
  simp only [rindEndOp, rindEndCode, irqIf]
  split <;> simp

/-- An interrupt changes its block's status register and a pending word alone. -/
theorem rd_irq_other (h : Hw) (blk : IrqBlock) (b : Nat) {a : Nat} (hs : a ≠ blk.st) (hp : a ≠ R.WH_PEND (blk.src b / 32)) :
    rd (irq h blk b) a = rd h a := by
  unfold irq raise
  dsimp only
  split
  · rw [pendSet, md, rd_wr_other _ _ _ _ hp, md, rd_wr_other _ _ _ _ hs]
  · rw [md, rd_wr_other _ _ _ _ hs]

theorem rd_irqRind_stat (h : Hw) {b : Nat} (hb : b < 2) : rd (irq h irqRind b) R.RIND_STAT = rd h R.RIND_STAT := by
  have hpend : R.RIND_STAT ≠ R.WH_PEND ((288 + b) / 32) := by unfold R.RIND_STAT R.WH_PEND; omega
  exact rd_irq_other h irqRind b (by decide) hpend

/-- RIND_STAT after the end of an operation. -/
theorem rd_rindEndOp_stat (op addr : Nat) (st : Status) (d : Dev) : rd (rindEndOp op addr st d).hw R.RIND_STAT =
    BitVec.ofNat 32 (op % 8 * 268435456 + st.code % 16 * 1048576 + addr / 65536 % 256) := by
  have hplaced (h : Hw) (w : Word) : rd (wr (wr (wr h R.RIND_STAT w) R.RIND_PW_LO 0#32) R.RIND_PW_HI 0#32) R.RIND_STAT = w := by
    rw [rd_wr_other _ _ _ _ (by decide), rd_wr_other _ _ _ _ (by decide), rd_wr_same]
  simp only [rindEndOp, rindEndCode, irqIf]
  split <;> simp only [rd_irqRind_stat, Nat.one_lt_two, Nat.two_pos, hplaced]

theorem Status.code_lt (st : Status) : st.code < 16 := by cases st <;> decide

/-- RIND_STAT.LAST shows the status that the operation has ended with (Table 14.12). -/
theorem fld_rindEndOp_last (op addr : Nat) (st : Status) (d : Dev) :
    fld (rd (rindEndOp op addr st d).hw R.RIND_STAT) 20 4 = st.code := by
  have hcode := Status.code_lt st
  rw [rd_rindEndOp_stat, fld, BitVec.toNat_ushiftRight, BitVec.toNat_ofNat, Nat.shiftRight_eq_div_pow]
  omega

/-! What LOCK, UNLOCK and SET_PW have done when they end. -/

/-- UNLOCK is let through: it is not shut out by an earlier mismatch, and what it brings is the password, where one is set (R422, R423). -/
def unlockLets (x : Rind) (data : List Byte) : Prop := x.pwLocked = false ∧ ∀ p, x.password = some p → p.toNat = leNat data

section
variable {d : Dev} {r : RindOp} (hrun : d.hw.rind.running = some r)
include hrun

/-- LOCK needs no password. -/
theorem rindOpDone_lock (hop : r.op = 3) : (rindOpDone d).hw.rind =
    { d.hw.rind with locks := d.hw.rind.locks ||| (1#256 <<< (r.addr / 65536)), running := none } := by
  simp [rindOpDone, hrun, hop]

theorem rindOpDone_unlock (hop : r.op = 4) (hlets : unlockLets d.hw.rind r.data) : (rindOpDone d).hw.rind =
    { d.hw.rind with locks := d.hw.rind.locks &&& ~~~(1#256 <<< (r.addr / 65536)), running := none } := by
  obtain ⟨hopen, hmatch⟩ := hlets
  cases hpw : d.hw.rind.password with
  | none => simp [rindOpDone, hrun, hop, hopen, hpw]
  | some p => simp [rindOpDone, hrun, hop, hopen, hpw, hmatch p hpw]

/-- An UNLOCK that is not let through ends DENIED and leaves the lock bits. -/
theorem rindOpDone_unlock_denied (hop : r.op = 4) (hlets : ¬ unlockLets d.hw.rind r.data) :
    ∃ x : Dev, rindOpDone d = rindEndOp 4 r.addr .denied x ∧ x.hw.rind.locks = d.hw.rind.locks := by
  by_cases hopen : d.hw.rind.pwLocked = true
  · exact ⟨d, by simp [rindOpDone, hrun, hop, hopen], rfl⟩
  · obtain ⟨p, hpw, hne⟩ : ∃ p, d.hw.rind.password = some p ∧ p.toNat ≠ leNat r.data := by simpa [unlockLets, hopen] using hlets
    exact ⟨{ d with hw := irq { d.hw with rind := { d.hw.rind with pwLocked := true } } irqRind 2 },
      by simp [rindOpDone, hrun, hop, hopen, hpw, hne], by simp⟩

theorem rindOpDone_setPw (hop : r.op = 5) (hpw : d.hw.rind.password = none) : (rindOpDone d).hw.rind =
    { d.hw.rind with password := some (BitVec.ofNat 64 (leNat r.data)), running := none } := by
  simp [rindOpDone, hrun, hop, hpw]

/-- A password that is set is not set again. -/
theorem rindOpDone_setPw_denied (hop : r.op = 5) {p : BitVec 64} (hpw : d.hw.rind.password = some p) :
    rindOpDone d = rindEndOp 5 r.addr .denied d := by
  simp [rindOpDone, hrun, hop, hpw]

end

theorem getLsbD_one_shl {n s : Nat} (hs : s < n) (t : Nat) : (1#n <<< s).getLsbD t = decide (t = s) := by
  rw [← BitVec.twoPow_eq, BitVec.getLsbD_twoPow]
  simp [hs, eq_comm]

/-- LOCK of a sector locks that sector and leaves every other. -/
theorem rindLocked_lock {d : Dev} {r : RindOp} (hrun : d.hw.rind.running = some r) (hop : r.op = 3) (hs : r.addr / 65536 < 256) (t : Nat) :
    rindLocked (rindOpDone d).hw.rind t = (rindLocked d.hw.rind t || decide (t = r.addr / 65536)) := by
  rw [rindLocked, rindOpDone_lock hrun hop, BitVec.getLsbD_or, getLsbD_one_shl hs, rindLocked]

/-- UNLOCK of a sector unlocks that sector and leaves every other. -/
theorem rindLocked_unlock {d : Dev} {r : RindOp} (hrun : d.hw.rind.running = some r) (hop : r.op = 4) (hlets : unlockLets d.hw.rind r.data)
    (hs : r.addr / 65536 < 256) {t : Nat} (ht : t < 256) :
    rindLocked (rindOpDone d).hw.rind t = (rindLocked d.hw.rind t && decide (t ≠ r.addr / 65536)) := by
  rw [rindLocked, rindOpDone_unlock hrun hop hlets, BitVec.getLsbD_and, BitVec.getLsbD_not, getLsbD_one_shl hs, rindLocked]
  simp [ht]

/-- RIND_LOCK shows the lock bit of each sector of the selected group (Table 14.17). -/
theorem bit_rindLockWord {d : Dev} {s : Nat} (h : fld (rd d.hw R.RIND_LOCK_SEL) 0 3 = s / 32) :
    bit (rindLockWord d) (s % 32) = rindLocked d.hw.rind s := by
  have hlow : s % 32 < 32 := Nat.mod_lt _ (by decide)
  simp [bit, rindLockWord, h, BitVec.getLsbD_ushiftRight, hlow, Nat.div_add_mod, rindLocked]

/-- Settles O57: no reset touches the lock bits, and each of LOCK, UNLOCK and SET_PW has done when it ends what R422 says. -/
theorem sectorLocks : Obligations.SectorLocks := by
  refine ⟨?nonVolatile, fun d r s hrun hsec hs => ?ended⟩
  case nonVolatile =>
    rintro c d e (rfl | rfl | rfl | rfl | rfl) hruns
    · exact hruns.keeps (g := (·.hw.rind.locks)) (exec_pgoodRise true) (pgoodRise_locks true d)
    · exact hruns.keeps (g := (·.hw.rind.locks)) (exec_pgoodRise false) (pgoodRise_locks false d)
    · exact hruns.keeps (g := (·.hw.rind.locks)) exec_pgoodFall (pgoodFall_locks d)
    · exact hruns.keeps (g := (·.hw.rind.locks)) exec_sysResetAssert (sysResetAssert_locks d)
    · exact hruns.keeps (g := (·.hw.rind.locks)) exec_internalReset (internalReset_locks d)
  case ended =>
    subst hsec
    have hdenied (hop : r.op = 4) (hlets : ¬ unlockLets d.hw.rind r.data) : (rindOpDone d).hw.rind.locks = d.hw.rind.locks ∧
        fld (rd (rindOpDone d).hw R.RIND_STAT) 20 4 = Status.denied.code := by
      obtain ⟨x, hend, hlocks⟩ := rindOpDone_unlock_denied hrun hop hlets
      rw [hend]
      exact ⟨by rw [rindEndOp_rind, hlocks], fld_rindEndOp_last ..⟩
    refine ⟨⟨rindOpDone d, Runs.of_does exec_rindOpDone rfl, fun hop t _ => rindLocked_lock hrun hop hs t, ?noPassword, ?password,
      ?shutOut, ?mismatch, ?set, ?setAgain⟩, bit_rindLockWord⟩
    case noPassword => exact fun hop hpw hopen t ht => rindLocked_unlock hrun hop ⟨hopen, by simp [hpw]⟩ hs ht
    case password => exact fun p hop hpw hopen hp t ht => rindLocked_unlock hrun hop ⟨hopen, by simp [hpw, hp]⟩ hs ht
    case shutOut => exact fun hop hshut => hdenied hop (by simp [unlockLets, hshut])
    case mismatch => exact fun p hop hpw hne => hdenied hop (by simp [unlockLets, hpw, hne])
    case set =>
      intro hop hpw
      rw [rindOpDone_setPw hrun hop hpw]
      exact ⟨rfl, rfl⟩
    case setAgain =>
      intro p hop hpw
      rw [rindOpDone_setPw_denied hrun hop hpw]
      exact ⟨rindEndOp_rind .., fld_rindEndOp_last ..⟩

end Sys2Proof.Machine
end

section
/-!
PROOFS. The event recorder: the five decisions of a post in their order (R481), and what storing a record does to the buffer.
-/

namespace Sys2Proof.Machine

/-- A count field raised by one operation reads its saturated sum (R13). -/
theorem fld_bumpFld_same (w : Word) {lo n : Nat} (k : Nat) (h : lo + n ≤ 32) : fld (bumpFld w lo n k) lo n = satAdd n (fld w lo n) k := by
  have htop : satAdd n (fld w lo n) k < 2 ^ n :=
    Nat.lt_of_le_of_lt (Nat.min_le_left ..) (Nat.sub_lt (Nat.two_pow_pos n) Nat.one_pos)
  exact fld_putFld_same w lo n _ h htop

/-- An interrupt changes nothing of the recorder. -/
@[simp] theorem irqIf_ev (h : Hw) (c : Bool) (blk : IrqBlock) (b : Nat) : (irqIf h c blk b).ev = h.ev := by
  cases c
  · rfl
  · exact irq_ev ..

/-! Storing and dropping. -/

/-- A stored record is the buffer's last, whether or not it pins or stops recording; a flush may follow (R484, R485). -/
theorem evStore_eq_append (h : Hw) (r : EvRecd) :
    ∃ g, g.ev.buf = h.ev.buf ++ [r] ∧ (evStore h r = g ∨ evStore h r = evFlush g) := by
  refine ⟨_, ?_, (ite_eq_or_eq _ (evFlush _) _).symm⟩
  split
  · simp
  · simp

/-- A drop leaves the buffer and every bucket, and counts in the field of its kind. -/
theorem evDrop_eq_irq (h : Hw) {lo : Nat} (source : Nat) (hlo : lo + 16 ≤ 32) :
    ∃ g, evDrop h lo source = (.dropped, irq g irqEvrec 3) ∧ g.ev.buf = h.ev.buf ∧ g.ev.buckets = h.ev.buckets ∧
      fld (rd g R.EVREC_DROP) lo 16 = min 0xFFFF (fld (rd h R.EVREC_DROP) lo 16 + 1) := by
  refine ⟨_, rfl, rfl, rfl, ?_⟩
  calc fld (rd (md h R.EVREC_DROP (fun w => bumpFld w lo 16 1)) R.EVREC_DROP) lo 16
    _ = fld (bumpFld (rd h R.EVREC_DROP) lo 16 1) lo 16 := by rw [md, rd_wr_same]
    _ = satAdd 16 (fld (rd h R.EVREC_DROP) lo 16) 1 := fld_bumpFld_same _ 1 hlo

/-! The decisions of a post. -/

/-- The code is limited and its bucket holds less than one token (R481, R482). -/
def Bucket.Refuses (b : Bucket) : Prop := b.rate ≠ 0 ∧ b.burst ≠ 0 ∧ b.level < 25000000

theorem Bucket.not_refuses {b : Bucket} (h : b.rate = 0 ∨ b.burst = 0 ∨ 25000000 ≤ b.level) : ¬ b.Refuses := by
  unfold Bucket.Refuses
  omega

/-- The bucket once its post is stored: one token fewer where the code is limited, and no suppressed count (R481). -/
def Bucket.taken (b : Bucket) : Bucket :=
  { (if b.rate ≠ 0 ∧ b.burst ≠ 0 then { b with level := b.level - 25000000 } else b) with supp := 0 }

theorem Bucket.taken_level {b : Bucket} (hrate : b.rate ≠ 0) (hburst : b.burst ≠ 0) : b.taken.level = b.level - 25000000 := by
  rw [Bucket.taken, if_pos ⟨hrate, hburst⟩]

@[simp] theorem Bucket.taken_supp (b : Bucket) : b.taken.supp = 0 := rfl

/-- The recorder with a code's bucket replaced and the outcome for the poster's next CONT record noted (R479). -/
def evNote (h : Hw) (source code : Nat) (b : Bucket) (stored : Bool) : Hw :=
  { h with ev := { h.ev with buckets := tabPut h.ev.buckets code b, lastStored := tabPut h.ev.lastStored source stored } }

@[simp] theorem evNote_buf (h : Hw) (source code : Nat) (b : Bucket) (stored : Bool) : (evNote h source code b stored).ev.buf = h.ev.buf := rfl

@[simp] theorem evNote_bucket (h : Hw) (source code : Nat) (b : Bucket) (stored : Bool) :
    tabGetD (evNote h source code b stored).ev.buckets code Bucket.init = b := tabGetD_tabPut_self ..

/-- The recorder that a record is stored in: after a drop, a RECORDS_DROPPED record has gone before it (R481). -/
def evAnnounced (h : Hw) : Hw :=
  if h.ev.dropSince then evStore { h with ev := { h.ev with dropSince := false } } (droppedRec h (rd h R.EVREC_DROP)) else h

theorem evAnnounced_of_drop {h : Hw} (hdrop : h.ev.dropSince = true) :
    evAnnounced h = evStore { h with ev := { h.ev with dropSince := false } } (droppedRec h (rd h R.EVREC_DROP)) := if_pos hdrop

theorem evAnnounced_of_no_drop {h : Hw} (hdrop : h.ev.dropSince = false) : evAnnounced h = h := by
  rw [evAnnounced, hdrop, if_neg Bool.false_ne_true]

/-- A code above 511 gives RANGE (R481, step 1). -/
theorem evPost_range {h : Hw} {code : Nat} (hcode : 511 < code) (source sev : Nat) (cont : Bool) (a0 a1 a2 : Word) :
    evPost h source code sev cont a0 a1 a2 = (.range, h) := if_pos hcode

section
variable {h : Hw} {code : Nat} (hcode : code ≤ 511)
include hcode

/-- A recorder that has stopped drops the post under FULL (step 2). -/
theorem evPost_full (hfull : h.ev.full = true) (source sev : Nat) (cont : Bool) (a0 a1 a2 : Word) :
    evPost h source code sev cont a0 a1 a2 = evDrop h 16 source := by
  simp [evPost, Nat.not_lt.mpr hcode, hfull]

variable (hopen : h.ev.full = false) (hon : bit (rd h R.EVREC_CTRL) 0 = true) {source sev : Nat} {a0 a1 a2 : Word}
include hopen hon

/-- A bucket with less than one token refuses the post and counts it (step 3). -/
theorem evPost_suppressed (hb : (evBucket h code).Refuses) : evPost h source code sev false a0 a1 a2 =
    (.suppressed, evNote h source code { evBucket h code with supp := min 0xFFFF ((evBucket h code).supp + 1) } false) := by
  obtain ⟨hrate, hburst, hlevel⟩ := hb
  simp [evPost, evNote, Nat.not_lt.mpr hcode, hopen, hon, hrate, hburst, hlevel]

variable (hb : ¬ (evBucket h code).Refuses)
include hb

/-- A buffer without room, for a RECORDS_DROPPED record too where one is due, drops the post under BUF (step 4). -/
theorem evPost_bufFull (hbuf : 2048 < h.ev.buf.length + (if h.ev.dropSince then 2 else 1)) :
    evPost h source code sev false a0 a1 a2 = evDrop h 0 source := by
  have hpass := hb.imp and_assoc.mp
  simp [evPost, Nat.not_lt.mpr hcode, hopen, hon, hpass, hbuf]

/-- The record is stored with the suppressed count, and one token is taken (step 5). -/
theorem evPost_stored (hbuf : h.ev.buf.length + (if h.ev.dropSince then 2 else 1) ≤ 2048) :
    evPost h source code sev false a0 a1 a2 = (.stored, evStore (evNote (evAnnounced h) source code (evBucket h code).taken true)
      { time := h.time, boot := h.bootCount, code := code, sev := sev, cont := false, source := source, supp := (evBucket h code).supp
        a0 := a0, a1 := a1, a2 := a2 }) := by
  have hpass := hb.imp and_assoc.mp
  simp [evPost, evNote, evAnnounced, Bucket.taken, Nat.not_lt.mpr hcode, hopen, hon, hpass, Nat.not_lt.mpr hbuf]

end

/-- Settles O56: each decision of a post under the negation of those before it. -/
theorem eventPostsInOrder : Obligations.EventPostsInOrder := by
  rintro h source code sev a0 a1 a2 _ hon rfl
  refine ⟨fun hcode => evPost_range hcode .., ?full, ?suppressed, ?bufFull, ?stored, evStore_eq_append h⟩
  case full =>
    intro hcode hfull
    rw [evPost_full hcode hfull]
    exact evDrop_eq_irq h source (by decide)
  case suppressed =>
    intro hcode hopen hrate hburst hlevel
    exact ⟨_, evPost_suppressed hcode hopen hon ⟨hrate, hburst, hlevel⟩, evNote_buf .., by simp⟩
  case bufFull =>
    intro hcode hopen hb hlen
    rw [evPost_bufFull hcode hopen hon (Bucket.not_refuses hb) (by split <;> omega)]
    exact evDrop_eq_irq h source (by decide)
  case stored =>
    rintro _ hcode hopen hb rfl
    have hpass := Bucket.not_refuses hb
    refine ⟨fun hdrop hlen => ?plain, fun hdrop hlen => ?afterDrop⟩
    case plain =>
      refine ⟨_, evPost_stored hcode hopen hon hpass (by simp [hdrop]; omega), ?_⟩
      rw [evAnnounced_of_no_drop hdrop]
      exact ⟨rfl, by simp, fun hrate hburst => by simp [Bucket.taken_level hrate hburst]⟩
    case afterDrop =>
      refine ⟨_, { h with ev := { h.ev with dropSince := false } }, evPost_stored hcode hopen hon hpass (by simp [hdrop]; omega),
        rfl, rfl, by simp, ?_⟩
      rw [evAnnounced_of_drop hdrop]
      rfl

end Sys2Proof.Machine
end

section
/-!
PROOFS. Every command and every step: what a command can answer, which operands name a unit, and what a step keeps.
-/

namespace Sys2Proof.Machine

/-! What a command answers. -/

theorem does_eq_next {f : Dev → Dev} {s t : State} : does f s = .next t ↔ t = { s with dev := f s.dev } := by
  rw [does_next, Host.Outcome.next.injEq, eq_comm]

theorem onUnit_eq_next {ok : Dev → Bool} {f : Dev → Dev} {s t : State} :
    onUnit ok f s = .next t ↔ ok s.dev = true ∧ t = { s with dev := f s.dev } :=
  ⟨onUnit_cases, fun ⟨h, e⟩ => e ▸ onUnit_next h⟩

theorem onUnit_eq_fault {ok : Dev → Bool} {f : Dev → Dev} {s : State} :
    onUnit ok f s = .fault .noSuchUnit ↔ ok s.dev = false := by
  refine ⟨fun h => ?_, onUnit_fault⟩
  by_contra hk
  rw [onUnit_next (by simpa using hk)] at h
  cases h

theorem does_ne_refused (f : Dev → Dev) (s : State) (r : Refusal) : does f s ≠ .refused r := by simp [does_next]

theorem onUnit_ne_refused (ok : Dev → Bool) (f : Dev → Dev) (s : State) (r : Refusal) : onUnit ok f s ≠ .refused r := by
  cases hk : ok s.dev with
  | true => simp [onUnit_next hk]
  | false => simp [onUnit_fault hk]

theorem exists_runs_of_does (f : Dev → Dev) (d : Dev) :
    ∃ e, ∀ q, does f { pending := q, dev := d } = .next { pending := q, dev := e } :=
  ⟨f d, fun q => does_next f { pending := q, dev := d }⟩

theorem exists_runs_of_onUnit {ok : Dev → Bool} (f : Dev → Dev) {d : Dev} (h : ok d = true) :
    ∃ e, ∀ q, onUnit ok f { pending := q, dev := d } = .next { pending := q, dev := e } :=
  ⟨f d, fun _ => onUnit_next h⟩

/-- Settles O1: a step on a queue with a command at its front is that command's meaning. -/
theorem stepRunsTheFrontCommand : Obligations.StepRunsTheFrontCommand := fun _ _ => rfl

/-- Settles O3: a command changes the device of the state, and answers with the queue it was given. -/
theorem commandsLeaveTheQueue : Obligations.CommandsLeaveTheQueue := by
  intro c s t h
  cases c <;> simp [does_eq_next, onUnit_eq_next] at h <;> simp [h]

/-! One HK tick (R31, R413). -/

theorem getLsbD_mtipFollow (h : Hw) {c i : Nat} (b : BitVec 16) (hi : i < 16) :
    (mtipFollow h c b).getLsbD i = if i = c then decide (mtimecmp h c ≤ h.time.toNat) else b.getLsbD i := by
  have hshift : (1#16 <<< c).getLsbD i = decide (i = c) := by
    rw [Bool.eq_iff_iff]
    simp [hi]
    omega
  unfold mtipFollow
  split
  · next ht => simp only [BitVec.getLsbD_or, hshift, ht]; split <;> simp_all
  · next ht => simp only [BitVec.getLsbD_and, BitVec.getLsbD_not, hshift, ht]; split <;> simp_all

/-- After the first `n` harts' bits have followed their compares, these show the compares and the others are as before. -/
theorem getLsbD_foldl_mtipFollow (h : Hw) (b : BitVec 16) (n : Nat) {i : Nat} (hi : i < 16) :
    ((List.range n).foldl (fun b c => mtipFollow h c b) b).getLsbD i =
      if i < n then decide (mtimecmp h i ≤ h.time.toNat) else b.getLsbD i := by
  induction n with
  | zero => simp
  | succ n ih =>
    rw [List.range_succ, List.foldl_concat, getLsbD_mtipFollow h _ hi, ih]
    split
    · next e => simp [e]
    · next e => simp [show i < n + 1 ↔ i < n by omega]

/-- Settles O2: an idle step is a tick, after which every hart's mip.MTIP shows its compare. -/
theorem emptyQueueIsOneTick : Obligations.EmptyQueueIsOneTick := by
  intro d
  refine ⟨_, rfl, fun c hc => ?_⟩
  rw [getLsbD_foldl_mtipFollow _ _ 16 hc, if_pos hc]
  rfl

/-! Units and operand ranges: what a well-formed command names (log entry 1). -/

theorem masterOk_eq_masterNo (m : Nat) : masterOk m = masterNo m := by
  rw [Bool.eq_iff_iff]
  simp [masterOk, masterNo, masterReserved]
  omega

theorem itemArgAddr_eq_itemRegNo (a : Nat) : itemArgAddr a = itemRegNo a := by
  rw [Bool.eq_iff_iff]
  unfold itemArgAddr itemRegNo regSlot regBase
  dsimp only
  split
  case h_5 => simp only [imp_false] at *; simp; omega
  all_goals simp; omega

theorem portNo_of_portPresent {d : Dev} {p : Nat} (h : portPresent d p = true) : portNo p = true := by
  simp only [portPresent, Bool.or_eq_true, Bool.and_eq_true, decide_eq_true_eq] at h
  simp only [portNo, decide_eq_true_eq]
  omega

theorem ctrlNo_of_ctrlOk {d : Dev} {p fn : Nat} (h : ctrlOk d p fn = true) : portNo p = true ∧ fnNo fn = true := by
  simp only [ctrlOk, ctrlPresent, Bool.and_eq_true] at h
  exact ⟨portNo_of_portPresent h.1, h.2⟩

theorem lt_of_chanOk {d : Dev} {n : Nat} (h : chanOk d n = true) : n < 48 := by
  have hle : chCount d.fuse ≤ 48 := by unfold chCount; split <;> decide
  simp only [chanOk, decide_eq_true_eq] at h
  omega

theorem lt_of_dieOk {d : Dev} {n : Nat} (h : dieOk d n = true) : n < 1536 := by
  have hle : chCount d.fuse ≤ 48 := by unfold chCount; split <;> decide
  simp only [dieOk, decide_eq_true_eq] at h
  omega

theorem lt_of_detOk {d : Dev} {n : Nat} (h : detOk d n = true) : n < 24 := by
  have hle : detCount d.fuse ≤ 24 := by unfold detCount; split <;> decide
  simp only [detOk, decide_eq_true_eq] at h
  omega

theorem lt_of_packOk {d : Dev} {n : Nat} (h : packOk d n = true) : n < 3 := by
  have hle : packCount d.fuse ≤ 3 := by unfold packCount; split <;> decide
  simp only [packOk, decide_eq_true_eq] at h
  omega

theorem lt_of_cipherOk {d : Dev} {k : Nat} (h : cipherOk d k = true) : k < 4 := by
  simp only [cipherOk, Bool.and_eq_true, decide_eq_true_eq] at h
  exact h.2

theorem lt_of_domPresent {f : Fuse} {n : Nat} (h : domPresent f n = true) : n < 96 := by
  by_contra hn
  simp [domPresent, show n ≠ 0 by omega, show ¬ n ≤ 48 by omega, show ¬ n ≤ 72 by omega, show ¬ n ≤ 80 by omega, hn] at h





theorem portPresent_eq_false {d : Dev} {p : Nat} (h : portNo p = false) : portPresent d p = false :=
  Bool.eq_false_iff.mpr fun hk => by simp [portNo_of_portPresent hk] at h

theorem chanOk_eq_false {d : Dev} {n : Nat} (h : 48 ≤ n) : chanOk d n = false :=
  Bool.eq_false_iff.mpr fun hk => by have := lt_of_chanOk hk; omega

theorem dieOk_eq_false {d : Dev} {n : Nat} (h : 1536 ≤ n) : dieOk d n = false :=
  Bool.eq_false_iff.mpr fun hk => by have := lt_of_dieOk hk; omega

/-- Settles O4: operands outside the largest part name no unit of any part, and no arm of `exec` refuses. -/
theorem illFormedCommandsStop : Obligations.IllFormedCommandsStop := by
  constructor
  · intro c s h
    cases c <;> simp [Instr.wf] at h <;>
      simp [h, onUnit_eq_fault, masterOk_eq_masterNo, itemArgAddr_eq_itemRegNo, portPresent_eq_false, dieOk_eq_false, chanOk_eq_false] <;>
      grind [→ ctrlNo_of_ctrlOk, → lt_of_detOk, → lt_of_packOk, → lt_of_cipherOk, → lt_of_domPresent]
  · intro c s r
    cases c <;> simp [does_ne_refused, onUnit_ne_refused]

/-! The complete part with two host ports (Table 0.2). -/

section
variable {d : Dev} (hax : d.fuse.variant = .ax)
include hax

theorem chanOk_of_ax (n : Nat) : chanOk d n = decide (n < 48) := by simp [chanOk, chCount, hax]

theorem dieOk_of_ax (n : Nat) : dieOk d n = decide (n < 1536) := by simp [dieOk, chCount, hax]

theorem detOk_of_ax (n : Nat) : detOk d n = decide (n < 24) := by simp [detOk, detCount, hax]

theorem packOk_of_ax (n : Nat) : packOk d n = decide (n < 3) := by simp [packOk, packCount, hax]

theorem cipherOk_of_ax (k : Nat) : cipherOk d k = decide (k < 4) := by simp [cipherOk, hasCrypto, hax]

theorem domPresent_of_ax (n : Nat) : domPresent d.fuse n = decide (n < 96) := by
  rw [Bool.eq_iff_iff, decide_eq_true_eq]
  refine ⟨lt_of_domPresent, fun hn => ?_⟩
  simp only [domPresent, chCount, detCount, hasCrypto, hax]
  split_ifs <;> simp <;> omega

variable (hdual : d.pins.dualPort = true)
include hdual

theorem portPresent_of_ax (p : Nat) : portPresent d p = portNo p := by
  rw [Bool.eq_iff_iff]
  simp [portPresent, portNo, dual, hasPort1, hax, hdual]
  omega

theorem ctrlOk_of_ax (p fn : Nat) : ctrlOk d p fn = (portNo p && fnNo fn) := by
  rw [ctrlOk, ctrlPresent, portPresent_of_ax hax hdual]
  rfl

end

/-- Settles O5: the complete part with two ports has every unit that a well-formed command can name. -/
theorem wellFormedCommandsRun : Obligations.WellFormedCommandsRun := by
  intro c d hwf hax hdual
  cases c <;> simp [Instr.wf] at hwf <;>
    simp [hwf, Runs, exists_runs_of_does, exists_runs_of_onUnit, chanOk_of_ax hax, dieOk_of_ax hax, detOk_of_ax hax, packOk_of_ax hax,
      cipherOk_of_ax hax, domPresent_of_ax hax, portPresent_of_ax hax hdual, ctrlOk_of_ax hax hdual, masterOk_eq_masterNo,
      itemArgAddr_eq_itemRegNo]

/-! What a step keeps. -/

/-- The device of a command's next state can follow the one it found: every operation has its `_after` lemma. -/
theorem exec_after {c : Instr} {s t : State} (h : exec c s = .next t) : After s.dev t.dev := by
  have hs := After.rfl s.dev
  cases c <;> simp [does_eq_next, onUnit_eq_next] at h <;> simp +contextual (maxDischargeDepth := 5) [h, hs]

theorem step_after {s t : State} (h : step s = .next t) : After s.dev t.dev := by
  obtain ⟨pending, d⟩ := s
  cases pending with
  | nil =>
    obtain rfl := Host.Outcome.next.inj h
    exact hkTick_after d (.rfl d)
  | cons c rest => exact exec_after (s := { pending := rest, dev := d }) h

/-- Settles O6, by the second part of `After`. -/
theorem stepKeepsStoresCanonical : Obligations.StepKeepsStoresCanonical := fun _ _ hs h => (step_after h).hw hs

/-- Settles O7: nothing is listed in the stores of the reset device. -/
theorem resetStoresCanonical : Obligations.ResetStoresCanonical := ⟨rfl, rfl, rfl⟩

/-- Settles O8, by the first part of `After`. -/
theorem stepKeepsThePart : Obligations.StepKeepsThePart := fun _ _ h => (step_after h).fuse

/-! Memory that lost its power (R350). -/

/-- A filled range of a store reads as the fill. -/
theorem storeByte_storeFill_covered (s : Store) (f : Fill) {a : Nat} (h : fillCovers f a = true) : storeByte (storeFill s f) a = f.val := by
  have hcells : tabGet (s.cells.filter (fun p => !fillCovers f p.1)) a = none := by
    induction s.cells with
    | nil => rfl
    | cons q t ih =>
      rw [List.filter_cons]
      split
      · next hq => rw [tabGet, if_neg (fun e => by simp [e, h] at hq), ih]
      · exact ih
  simp [storeByte, storeFill, hcells, storeBg, h]

/-- Settles O13: the range is one fill without a value. -/
theorem lostMemoryIsUndefined : Obligations.LostMemoryIsUndefined := by
  intro m lo hi a
  split
  · next h => exact storeByte_storeFill_covered _ _ (by simp [fillCovers, h])
  · next h => exact storeByte_storeFill_other _ _ (by simpa [fillCovers] using h)

end Sys2Proof.Machine
end

section
/-!
PROOFS. Register accesses that reach their target, as the devices they leave (`Dev.wrote`, `Dev.read`), and the registers that an
interrupt or a post of the event recorder leaves alone.
-/

namespace Sys2Proof.Machine

/-- The address lies in the register region, in a slot that a block has (Table 1.9). -/
abbrev IsReg (a : Nat) : Prop := 0xF000000000 ≤ a ∧ a < 0xF001000000 ∧ (slotRows (regSlot a)).isSome = true

theorem IsReg.regionOf {a : Nat} (h : IsReg a) (hw : Hw) : regionOf hw a = .regs := regionOf_regs h.1 h.2.1 h.2.2

section
variable {d e : Dev} {m a : Nat} {v : Word}

/-- A write that reaches a register leaves what its effect there leaves, and is answered OK. -/
theorem regWrite_eq_wrote (h : d.lets (writeOf m a v)) (ha : IsReg a) (he : regWriteAt m a v d = (.ok, e)) :
    regWrite m a v d = e.wrote m a v := by
  rw [regWrite_lets h (ha.regionOf _), he]
  rfl

/-- A read that reaches a register is answered OK with the value there. -/
theorem regRead_eq_read {w : Word} (h : d.lets (readOf m a)) (ha : IsReg a) (hn : a ≠ R.SIGV_RNG_DATA) (he : regReadAt m a d = (w, e)) :
    regRead m a d = e.read m a w := by
  rw [regRead_lets h (ha.regionOf _) hn, he]
  rfl

/-- A command that is a register write runs, where the write reaches its target. -/
theorem Runs.of_regWrite {c : Instr} (hc : ∀ s, exec c s = onUnit (fun _ => masterOk m) (regWrite m a v) s)
    (h : d.lets (writeOf m a v)) (ha : IsReg a) (he : regWriteAt m a v d = (.ok, e)) : Runs c d (e.wrote m a v) :=
  Runs.of_onUnit hc h.masterOk (regWrite_eq_wrote h ha he)

/-- A command that is a register read runs, where the read reaches its target. -/
theorem Runs.of_regRead {c : Instr} {w : Word} (hc : ∀ s, exec c s = onUnit (fun _ => masterOk m) (regRead m a) s)
    (h : d.lets (readOf m a)) (ha : IsReg a) (hn : a ≠ R.SIGV_RNG_DATA) (he : regReadAt m a d = (w, e)) : Runs c d (e.read m a w) :=
  Runs.of_onUnit hc h.masterOk (regRead_eq_read h ha hn he)

end

/-! Words written with a bit forced to 1 (log entry 10). -/

theorem bit_or_forced {w : Word} {i : Nat} (h : bit w i = true) (v : Word) : bit (v ||| w) i = true := by simp [bit_or, h]

theorem bit_or_kept {w : Word} {i : Nat} (h : bit w i = false) (v : Word) : bit (v ||| w) i = bit v i := by simp [bit_or, h]

/-- `bit_rd_irq_self` at a status register that is named by its address. -/
theorem bit_rd_irq_at (h : Hw) (blk : IrqBlock) {a b : Nat} (ha : blk.st = a) (hb : b < 32) (hs : a ≠ R.WH_PEND (blk.src b / 32)) :
    bit (rd (irq h blk b) a) b = true := by
  subst ha
  exact bit_rd_irq_self h blk hb hs

/-- A register that no post of the event recorder writes: the post writes the recorder's interrupt status, its drop counts and a pending word. -/
abbrev PastPosts (a : Nat) : Prop := a ≠ R.EVREC_INT_STAT ∧ a ≠ R.EVREC_DROP ∧ a ≠ R.WH_PEND 9

theorem rd_irqEvrec (h : Hw) {a b : Nat} (hb : b < 8) (ha : PastPosts a) : rd (irq h irqEvrec b) a = rd h a := by
  obtain ⟨hstat, -, hpend⟩ := ha
  have hword : irqEvrec.src b / 32 = 9 := by simp only [irqEvrec]; omega
  exact rd_irq_other h irqEvrec b hstat (hword ▸ hpend)

theorem rd_irqIf_evrec (h : Hw) (c : Bool) {a b : Nat} (hb : b < 8) (ha : PastPosts a) : rd (irqIf h c irqEvrec b) a = rd h a := by
  cases c
  · rfl
  · exact rd_irqEvrec h hb ha

theorem evCopy_regs (es : List EvRecd) (h : Hw) : (evCopy es h).2.regs = h.regs := by
  induction es generalizing h with
  | nil => rfl
  | cons e es ih =>
    simp only [evCopy]
    split
    · exact ih h
    · split
      · rfl
      · exact ih _

theorem rd_of_regs {h k : Hw} (hregs : h.regs = k.regs) (a : Nat) : rd h a = rd k a := by simp only [rd, hregs]

theorem rd_evFlush (h : Hw) {a : Nat} (ha : PastPosts a) : rd (evFlush h) a = rd h a := by
  unfold evFlush
  rw [rd_irqEvrec _ (by decide) ha, rd_irqIf_evrec _ _ (by decide) ha]
  exact rd_of_regs (evCopy_regs h.ev.buf h) a

theorem rd_evStore (h : Hw) (e : EvRecd) {a : Nat} (ha : PastPosts a) : rd (evStore h e) a = rd h a := by
  unfold evStore
  extract_lets base bs word mem ev1 h1 c h2 stop ev3 h3 wm due
  have hlimit : rd h3 a = rd h a := by
    have hirq : rd h2 a = rd h a := rd_irqIf_evrec h1 _ (by decide) ha
    simp only [h3]
    split
    · exact (rd_irqEvrec _ (by decide) ha).trans hirq
    · exact hirq
  split
  · exact (rd_evFlush h3 ha).trans hlimit
  · exact hlimit

theorem rd_evDrop (h : Hw) (lo source : Nat) {a : Nat} (ha : PastPosts a) : rd (evDrop h lo source).2 a = rd h a := by
  unfold evDrop
  rw [rd_irqEvrec _ (by decide) ha]
  exact rd_wr_other _ _ _ _ ha.2.1

/-- A post changes no register but the recorder's and a pending word. -/
theorem rd_evPost (h : Hw) (source code sev : Nat) (cont : Bool) (a0 a1 a2 : Word) {a : Nat} (ha : PastPosts a) :
    rd (evPost h source code sev cont a0 a1 a2).2 a = rd h a := by
  unfold evPost
  extract_lets stamp b limited drops ev1 h1 b1 ev2 h2
  generalize (if h.ev.dropSince = true then 2 else 1) = room
  have hstored : rd h1 a = rd h a := by
    simp only [h1]
    split
    · exact rd_evStore _ _ ha
    · rfl
  split
  · rfl
  · split
    · exact rd_evDrop h 16 source ha
    · split
      · exact rd_evDrop h 0 source ha
      · split
        · rfl
        · split
          · rfl
          · split
            · exact rd_evDrop h 0 source ha
            · exact (rd_evStore h2 _ ha).trans hstored

theorem rd_evUnit (h : Hw) (slot code sev a0 a1 a2 : Nat) {a : Nat} (ha : PastPosts a) : rd (evUnit h slot code sev a0 a1 a2) a = rd h a :=
  rd_evPost _ _ _ _ _ _ _ _ ha

theorem rd_evFw (h : Hw) (code sev a0 a1 a2 : Nat) {a : Nat} (ha : PastPosts a) : rd (evFw h code sev a0 a1 a2) a = rd h a :=
  rd_evPost _ _ _ _ _ _ _ _ ha

end Sys2Proof.Machine
end

section
/-!
PROOFS. The hold-up bank: enabling, charging, the capacitance measurement and the limit.
-/

namespace Sys2Proof.Machine

theorem regWriteAt_holdupCtrl (m : Nat) (v : Word) (d : Dev) : regWriteAt m R.HOLDUP_CTRL v d = (.ok, holdupCtrlWrite v d) := rfl

/-- A write of HOLDUP_CTRL without MEASURE and FLUSH_END that finds EN clear and sets it: ARMED is stored, and the bank is enabled. -/
theorem holdupCtrlWrite_enable {d : Dev} {v : Word} (h0 : bit v 0 = true) (h1 : bit v 1 = false) (h2 : bit v 2 = false) (hen : hoEn d = false) :
    holdupCtrlWrite v d = holdupEnable { d with hw := wr d.hw R.HOLDUP_CTRL (putBit (rd d.hw R.HOLDUP_CTRL) 3 (bit v 3)) } := by
  simp [holdupCtrlWrite, h0, h1, h2, hen]
  rfl

theorem holdupCtrlWrite_measure {d : Dev} {v : Word} (h0 : bit v 0 = true) (h1 : bit v 1 = true) (h2 : bit v 2 = false) (hen : hoEn d = true) :
    holdupCtrlWrite v d = measStart { d with hw := wr d.hw R.HOLDUP_CTRL (putBit (rd d.hw R.HOLDUP_CTRL) 3 (bit v 3)) } := by
  simp [holdupCtrlWrite, h0, h1, h2, hen]
  rfl

theorem measStart_of_ready {d : Dev} (hen : hoEn d = true) (hroom : bit (rd d.hw R.HOLDUP_STAT) 31 = false) (hstep : d.holdup.measStep = 0) :
    measStart d = { d with
      hw := wr d.hw R.HOLDUP_STAT (setBit (rd d.hw R.HOLDUP_STAT) 28)
      holdup := { d.holdup with charging := false, measStart := d.holdup.vbank, measSag := 0, measStep := 1 } } := by
  simp [measStart, hen, headroom, hroom, hstep]
  rfl

theorem limitAt_le_cap (d : Dev) (v : Nat) (hcap : fld (rd d.hw R.HOLDUP_LIMIT) 16 16 ≠ 0) :
    limitAt d v ≤ fld (rd d.hw R.HOLDUP_LIMIT) 16 16 * 1024 := by
  simp only [limitAt, if_neg hcap]
  exact Nat.min_le_right ..

/-- At V_MIN the bank has no usable energy, and nothing may be dirty (R460). -/
theorem limitAt_of_le_vMin {d : Dev} {v : Nat} (h : v ≤ vMin d) : limitAt d v = 0 := by
  have henergy : energyAt d v = 0 := if_pos ((Nat.min_le_left ..).trans h)
  simp [limitAt, henergy]

/-- V_TOP does not depend on HOLDUP_CTRL. -/
theorem vTop_of_ctrl (d : Dev) (v : Word) : vTop { d with hw := wr d.hw R.HOLDUP_CTRL v } = vTop d := by
  simp (disch := decide) [vTop, rd_wr_other]

theorem holdupEnable_of_cfgOk {d : Dev} (h : holdupCfgOk d = true) : holdupEnable d = limitUpdate { d with
    hw := wr (wr (wr d.hw R.HOLDUP_CTRL (setBit (rd d.hw R.HOLDUP_CTRL) 0)) R.HOLDUP_STAT
      (clrBit (putFld (rd d.hw R.HOLDUP_STAT) 16 4 0) 26)) R.HOLDUP_CHG
      (putFld (rd d.hw R.HOLDUP_CHG) 16 16 (fld (rd d.hw R.HOLDUP_CHG) 0 16))
    holdup := { d.holdup with charging := decide (d.holdup.vbank < vTop d), reachedTop := false, capNf := none } } := by
  simp (disch := decide) [holdupEnable, h, actPut, holdupMod, hwMod, md, rd_wr_other]

theorem holdupEnable_of_cfgBad {d : Dev} (h : holdupCfgOk d = false) : holdupEnable d = { d with
    hw := wr d.hw R.HOLDUP_STAT (putFld (rd d.hw R.HOLDUP_STAT) 16 4 2) } := by
  simp [holdupEnable, h, hwMod, md, Status.code]

/-- The end of a measurement: charging follows the bank's voltage, and MEASURING clears. -/
theorem measOver_eq (d : Dev) : ∃ h, measOver d = { d with
    hw := h, holdup := { d.holdup with measStep := 0, charging := decide (d.holdup.vbank < vTop d) } } ∧
    bit (rd h R.HOLDUP_STAT) 28 = false := by
  refine ⟨_, rfl, ?_⟩
  simp (disch := decide) [md, bit_clrBit]

/-- Settles O16: each clause by the lemma of its operation. -/
theorem holdupCommands : Obligations.HoldupCommands := by
  refine ⟨?enable, ?refused, ?limit, ?limitOff, ?top, ?recharge, ?headroom, ?lowered, ?retry, ?timer, ?measure, ?sag, ?shallow, ?done,
    ?timeout, ?fail⟩
  case enable =>
    intro d m v hlets h1 h2 hen htop hrate hp heta hmeas
    refine Runs.of_regWrite (exec_holdupEnable m v) hlets (by decide) ?_
    rw [regWriteAt_holdupCtrl, holdupCtrlWrite_enable (bit_or_forced rfl v) ((bit_or_kept rfl v).trans h1)
      ((bit_or_kept rfl v).trans h2) hen, bit_or_kept rfl]
    have hok : holdupCfgOk { d with hw := wr d.hw R.HOLDUP_CTRL (putBit (rd d.hw R.HOLDUP_CTRL) 3 (bit v 3)) } = true := by
      simp (disch := decide) [holdupCfgOk, rd_wr_other, vTop] at *
      simp [*]
    rw [holdupEnable_of_cfgOk hok, vTop_of_ctrl]
    simp (disch := decide) [rd_wr_other]
  case refused =>
    intro d m v hlets h1 h2 hen hbad
    refine Runs.of_regWrite (exec_holdupEnable m v) hlets (by decide) ?_
    rw [regWriteAt_holdupCtrl, holdupCtrlWrite_enable (bit_or_forced rfl v) ((bit_or_kept rfl v).trans h1)
      ((bit_or_kept rfl v).trans h2) hen, bit_or_kept rfl]
    have hok : holdupCfgOk { d with hw := wr d.hw R.HOLDUP_CTRL (putBit (rd d.hw R.HOLDUP_CTRL) 3 (bit v 3)) } = false := by
      simp (disch := decide) [holdupCfgOk, rd_wr_other, vTop] at *
      grind
    rw [holdupEnable_of_cfgBad hok]
    simp (disch := decide) [rd_wr_other]
  case limit =>
    intro d hen
    exact ⟨_, rfl, by simp [limitUpdate, hen], limitAt_le_cap d _, limitAt_of_le_vMin⟩
  case limitOff =>
    intro d hen
    simp [limitUpdate, hen]
  case top =>
    intro d hen hch hstep
    exact Runs.of_does exec_bankAtVtop (by simp [bankTop, hen, hch, hstep, holdupMod])
  case recharge =>
    intro d v hen hch hstep hv
    exact Runs.of_does (exec_bankRecharge v) (by simp [bankRecharge, hen, hch, hstep, hv, holdupMod])
  case headroom =>
    intro d ma hen hch hv hma
    exact Runs.of_does (exec_headroomDetect ma) (by simp [headroomDetect, actMa, hen, hch, hv, hma])
  case lowered =>
    intro d ma
    refine ⟨_, rfl, ?_⟩
    simp (disch := decide) [headroomLower, holdupEvent, holdupMod, hwMod, actPut, md, rd_wr_other, limitKib, capNf, rd_irq_other]
  case retry =>
    intro d ma hroom
    refine Runs.of_does (exec_headroomRetry ma) ?_
    simp (disch := decide) [headroomRetry, headroom, hroom, hwMod, actPut, md, rd_wr_other]
    by_cases htop : d.holdup.charging = false ∧ vTop d ≤ d.holdup.vbank <;> simp [htop]
  case timer =>
    intro d m v hm hen hroom hstep htop hcap
    refine Runs.of_onUnit (exec_holdupMeasureStart m false v) hm ?_
    simp [measTimer, htop, hcap, measStart_of_ready hen hroom hstep]
  case measure =>
    intro d m v hlets h0 h2 hen hroom hstep
    refine Runs.of_onUnit (exec_holdupMeasureStart m true v) hlets.masterOk ?_
    rw [if_pos rfl, regWrite_eq_wrote hlets (by decide) (regWriteAt_holdupCtrl ..), holdupCtrlWrite_measure ((bit_or_kept rfl v).trans h0) (bit_or_forced rfl v)
      ((bit_or_kept rfl v).trans h2) hen, bit_or_kept rfl, measStart_of_ready]
    · simp (disch := decide) [rd_wr_other]
    · simpa (disch := decide) [hoEn, bit_putBit] using hen
    · simpa (disch := decide) [rd_wr_other] using hroom
    · exact hstep
  case sag =>
    intro d v hstep hv
    refine Runs.of_does (exec_measSagEnd v) ?_
    simp [measSagEnd, hstep, Nat.not_lt.mpr hv, actPut, holdupMod, hwMod, md]
  case shallow =>
    intro d v hstep hv
    refine Runs.of_does (exec_measSagEnd v) ?_
    simp [measSagEnd, hstep, hv, holdupMod]
  case done =>
    intro d t hstep ht
    obtain ⟨h, hover, hstat⟩ := measOver_eq { d with holdup := { d.holdup with
      capNf := some (capFrom (fld (rd d.hw R.HOLDUP_MEAS) 0 16) t d.holdup.measSag (fld (rd d.hw R.HOLDUP_MEAS) 16 8))
      vbank := d.holdup.measStart, measAt := d.hw.time } }
    refine ⟨_, irq (md (md h R.HOLDUP_STAT fun w => setBit w 26) R.HOLDUP_CAP fun w => putFld w 0 16
      (capFrom (fld (rd d.hw R.HOLDUP_MEAS) 0 16) t d.holdup.measSag (fld (rd d.hw R.HOLDUP_MEAS) 16 8) / 10000)) irqHoldup 5,
      rfl, ?_, ?_, ?_, Runs.of_does (exec_measRechargeDone t) ?_⟩
    rotate_left 3
    · have hruns : ¬ (d.holdup.measStep ≠ 2 ∨ 10000000000 < t) := by omega
      rw [measDone, if_neg hruns]
      dsimp only [holdupMod] at hover ⊢
      rw [hover]
      rfl
    all_goals simp (disch := decide) [md, rd_irq_other, rd_wr_other, hstat, bit_rd_irq_at, bit_setBit]
  case timeout =>
    intro d hstep
    exact Runs.of_does exec_measTimeout (by simp [measTimeout, hstep])
  case fail =>
    intro d
    obtain ⟨h, hover, hstat⟩ := measOver_eq d
    refine ⟨_, rfl, ?_, ?_, ?_⟩
    · simp [hover, holdupEvent, hwMod]
    · simp (disch := decide) [hover, holdupEvent, hwMod, rd_evUnit, rd_irq_other, hstat]
    · simp (disch := decide) [hover, holdupEvent, hwMod, rd_evUnit, bit_rd_irq_at]
end Sys2Proof.Machine
end

section
/-!
PROOFS. Thermal management: what asynchronous events and alarms leave alone, the conversion, the levels and the slow round.
-/

namespace Sys2Proof.Machine

/-- A fold whose every step keeps a part of the device keeps it. -/
theorem foldl_keeps {α β : Type} (g : Dev → β) {f : Dev → α → Dev} (hf : ∀ d x, g (f d x) = g d) (l : List α) (d : Dev) :
    g (l.foldl f d) = g d := by
  induction l generalizing d with
  | nil => rfl
  | cons x l ih => exact (ih (f d x)).trans (hf d x)

/-! Asynchronous events reach the host side and the registers alone. -/

theorem widthRestore_frame (p : Nat) (d : Dev) :
    widthRestore p d = { d with hw := (widthRestore p d).hw, host := (widthRestore p d).host } := by
  unfold widthRestore
  split
  · split <;> rfl
  · rfl

theorem cqPost_frame (port fn sq cid : Nat) (st : NvStat) (dw0 dw1 : Nat) (data : List Nat) (d : Dev) :
    cqPost port fn sq cid st dw0 dw1 data d = { d with
      hw := (cqPost port fn sq cid st dw0 dw1 data d).hw, host := (cqPost port fn sq cid st dw0 dw1 data d).host } := by
  unfold cqPost
  rw [widthRestore_frame]

theorem asyncPost_frame (ck dw0 : Nat) (d : Dev) : asyncPost ck dw0 d = { d with
    hw := (asyncPost ck dw0 d).hw, host := (asyncPost ck dw0 d).host } := by
  unfold asyncPost
  dsimp only
  split
  · rw [cqPost_frame]
  · rfl

theorem asyncAll_frame (dw0 : Nat) (d : Dev) : asyncAll dw0 d = { d with
    hw := (asyncAll dw0 d).hw, host := (asyncAll dw0 d).host } := by
  have hkeeps := foldl_keeps (fun e => ({ e with hw := d.hw, host := d.host } : Dev)) (f := fun x q => asyncPost q.1 dw0 x)
    (fun d q => by rw [asyncPost_frame]) (d.host.ctrls.filter fun q => q.2.en) d
  exact congrArg (fun e : Dev => { e with hw := (asyncAll dw0 d).hw, host := (asyncAll dw0 d).host }) hkeeps

theorem asyncAll_therm (dw0 : Nat) (d : Dev) : (asyncAll dw0 d).therm = d.therm := by rw [asyncAll_frame]

theorem thresholdCheck_frame (d : Dev) : ∃ hw host out, thresholdCheck d = { d with
    hw := hw, host := host, therm := { d.therm with tempWarn := out } } := by
  unfold thresholdCheck
  extract_lets k under out d1
  split
  · exact ⟨_, _, out, asyncAll_frame _ d1⟩
  · exact ⟨d.hw, d.host, out, rfl⟩

theorem eraseKeys_therm (d : Dev) : (eraseKeys d).therm = d.therm := by
  unfold eraseKeys
  split
  · rfl
  · split <;> rfl

theorem alarm_therm (s m : Nat) (d : Dev) : (alarm s m d).therm = d.therm := by
  unfold alarm
  extract_lets pol h1 h2 h3 d1
  split
  · rfl
  · split
    · split <;> rfl
    · exact eraseKeys_therm _

theorem eraseKeys_holdup (d : Dev) : (eraseKeys d).holdup = d.holdup := by
  unfold eraseKeys
  split
  · rfl
  · split <;> rfl

theorem alarm_holdup (s m : Nat) (d : Dev) : (alarm s m d).holdup = d.holdup := by
  unfold alarm
  extract_lets pol h1 h2 h3 d1
  split
  · rfl
  · split
    · split <;> rfl
    · exact eraseKeys_holdup _

/-! THERM_CTRL.EN (R470). -/

theorem regWriteAt_thermCtrl (m : Nat) (v : Word) (d : Dev) : regWriteAt m R.THERM_CTRL v d = (.ok, thermCtrlWrite v d) := rfl

theorem thermCtrlWrite_enable {d : Dev} {v : Word} (h0 : bit v 0 = true) (hen : thEn d = false) :
    thermCtrlWrite v d = { d with
      hw := if thermCfgOk d.hw (bit v 1) then
          wr (wr d.hw R.THERM_CTRL (putBit (rd d.hw R.THERM_CTRL) 1 (bit v 1))) R.THERM_CTRL
            (putFld (setBit (putBit (rd d.hw R.THERM_CTRL) 1 (bit v 1)) 0) 16 4 0)
        else wr (wr d.hw R.THERM_CTRL (putBit (rd d.hw R.THERM_CTRL) 1 (bit v 1))) R.THERM_CTRL
          (putFld (putBit (rd d.hw R.THERM_CTRL) 1 (bit v 1)) 16 4 2) } := by
  by_cases hok : thermCfgOk d.hw (bit v 1) = true <;> simp [thermCtrlWrite, h0, hen, hok, md, Status.code]

theorem thermCtrlWrite_kept {d : Dev} {v : Word} (h0 : bit v 0 = true) (hen : thEn d = true) : thermCtrlWrite v d = d := by
  simp [thermCtrlWrite, h0, hen]

theorem thermCfgOk_single_iff (h : Hw) : thermCfgOk h false = true ↔
    ∀ a ∈ [R.THERM_JWARN, R.THERM_JTHR, R.THERM_JSHDN, R.THERM_FWARN, R.THERM_FTHR, R.THERM_FLIM], fld (rd h a) 8 4 ≠ 0 := by
  simp only [thermCfgOk, Bool.not_false, Bool.true_or, Bool.and_true, List.all_eq_true, decide_eq_true_eq]

theorem thermCfgOk_triple_iff (h : Hw) : thermCfgOk h true = true ↔
    (∀ a ∈ [R.THERM_JWARN, R.THERM_JTHR, R.THERM_JSHDN, R.THERM_FWARN, R.THERM_FTHR, R.THERM_FLIM], fld (rd h a) 8 4 ≠ 0) ∧
    fld (rd h R.THERM_JWARN) 0 8 < fld (rd h R.THERM_JTHR) 0 8 ∧ fld (rd h R.THERM_JTHR) 0 8 < fld (rd h R.THERM_JSHDN) 0 8 ∧
    fld (rd h R.THERM_JSHDN) 0 8 ≤ 135 ∧ fld (rd h R.THERM_FWARN) 0 8 ≤ fld (rd h R.THERM_FTHR) 0 8 ∧
    fld (rd h R.THERM_FTHR) 0 8 < fld (rd h R.THERM_FLIM) 0 8 := by
  simp only [thermCfgOk, Bool.not_true, Bool.false_or, List.all_eq_true, decide_eq_true_eq, Bool.and_eq_true, and_assoc]

/-! The sensor conversion (R469, R471). -/

/-- Writing the values of a list from key `k` on leaves the keys below. -/
theorem tabGet_putSeq_below {α : Type} (xs : List α) {j k : Nat} (hj : j < k) (t : List (Nat × α)) :
    tabGet (((List.range' k xs.length).zip xs).foldl (fun t q => tabPut t q.1 q.2) t) j = tabGet t j := by
  induction xs generalizing k t with
  | nil => rfl
  | cons x xs ih =>
    simp only [List.length_cons, List.range'_succ, List.zip_cons_cons, List.foldl_cons]
    rw [ih (by omega), tabGet_tabPut_other _ _ (by omega)]

theorem tabGet_putSeq {α : Type} {xs : List α} {v : α} {i : Nat} (hv : xs[i]? = some v) (k : Nat) (t : List (Nat × α)) :
    tabGet (((List.range' k xs.length).zip xs).foldl (fun t q => tabPut t q.1 q.2) t) (k + i) = some v := by
  induction xs generalizing k i t with
  | nil => simp at hv
  | cons x xs ih =>
    simp only [List.length_cons, List.range'_succ, List.zip_cons_cons, List.foldl_cons]
    cases i with
    | zero =>
      obtain rfl : x = v := by simpa using hv
      rw [Nat.add_zero k, tabGet_putSeq_below xs k.lt_add_one, tabGet_tabPut_self]
    | succ i =>
      have hrest := ih (i := i) (by simpa using hv) (k + 1) (tabPut t k x)
      rwa [Nat.add_assoc, Nat.add_comm 1 i] at hrest

theorem holdEnter_frame (d : Dev) : ∃ pwr held, holdEnter d = { d with pwr := pwr, holdup := { d.holdup with inHold := held } } := by
  unfold holdEnter
  split
  · unfold flushDown domSet
    dsimp only
    split
    · exact ⟨_, _, rfl⟩
    · split <;> exact ⟨_, _, rfl⟩
  · exact ⟨d.pwr, d.holdup.inHold, rfl⟩

/-- The junction level is judged: crossings, the alert, and the shut-down of level 3 (R471, R473). -/
def junctionJudged (tj : Int) (d : Dev) : Dev :=
  let b := jNext d tj
  let d2 := { (therm (fun t => crossNote d.therm.jLevel b { t with jLevel := b }) d) with
    hw := levelEvents 0 (min d.therm.jLevel 2) (min b 2) tj 0xFF d.hw }
  let d3 := if d.therm.jLevel < 1 ∧ 1 ≤ b ∧ (thEn d && triple d) = true then asyncAll (asyncDw 1 1 2) d2 else d2
  if d.therm.jLevel < 3 ∧ b = 3 then
    holdEnter (holdupMod (fun x => { x with shdnJ := true }) (therm (fun t => { t with shutdowns := t.shutdowns + 1 }) d3))
  else d3

/-- A conversion keeps the values and their maxima, judges the junction level, and may raise the TEMPERATURE alarm. -/
theorem sensorConvert_eq {ts xs : List Int} {x : Int} (h : ts.take 12 = x :: xs) (d : Dev) : ∃ sensMax,
    sensorConvert ts d = thresholdCheck (if sensorAlarm d.therm.sens (x :: xs) then
      alarm 3 0 (junctionJudged (xs.foldl max x) { d with therm := { d.therm with
        tj := xs.foldl max x, sensMax := sensMax
        sens := ((List.range' 0 (x :: xs).length).zip (x :: xs)).foldl (fun t q => tabPut t q.1 q.2) d.therm.sens } })
      else junctionJudged (xs.foldl max x) { d with therm := { d.therm with
        tj := xs.foldl max x, sensMax := sensMax
        sens := ((List.range' 0 (x :: xs).length).zip (x :: xs)).foldl (fun t q => tabPut t q.1 q.2) d.therm.sens } }) := by
  unfold sensorConvert
  rw [h]
  exact ⟨_, by rw [← List.range_eq_range']; rfl⟩

theorem junctionJudged_therm (tj : Int) (d : Dev) : ∃ cs, (junctionJudged tj d).therm = { d.therm with
    jLevel := jNext d tj, crossings := cs
    shutdowns := d.therm.shutdowns + (if d.therm.jLevel < 3 ∧ jNext d tj = 3 then 1 else 0) } := by
  unfold junctionJudged
  extract_lets b levels d2 d3
  have hd3 : d3.therm = { d.therm with jLevel := jNext d tj, crossings := d2.therm.crossings } := by
    simp only [d3]
    split
    · exact asyncAll_therm _ d2
    · rfl
  by_cases hshut : d.therm.jLevel < 3 ∧ jNext d tj = 3
  · obtain ⟨pwr, held, heq⟩ := holdEnter_frame (holdupMod (fun x => { x with shdnJ := true })
      (therm (fun t => { t with shutdowns := t.shutdowns + 1 }) d3))
    rw [if_pos hshut, if_pos hshut, heq]
    exact ⟨_, congrArg (fun t : Therm => { t with shutdowns := t.shutdowns + 1 }) hd3⟩
  · rw [if_neg hshut, if_neg hshut]
    exact ⟨_, hd3⟩

theorem junctionJudged_shutdown {tj : Int} {d : Dev} (h : d.therm.jLevel < 3) (hb : jNext d tj = 3) :
    (junctionJudged tj d).holdup.shdnJ = true := by
  unfold junctionJudged
  extract_lets b levels d2 d3
  rw [if_pos ⟨h, hb⟩]
  obtain ⟨pwr, held, heq⟩ := holdEnter_frame (holdupMod (fun x => { x with shdnJ := true })
    (therm (fun t => { t with shutdowns := t.shutdowns + 1 }) d3))
  rw [heq]
  rfl

/-- Without a shut-down only the registers, the host side and the levels follow. -/
theorem junctionJudged_of_noShutdown {tj : Int} {d : Dev} (h : ¬ (d.therm.jLevel < 3 ∧ jNext d tj = 3)) :
    ∃ hw host th, junctionJudged tj d = { d with hw := hw, host := host, therm := th } := by
  unfold junctionJudged
  extract_lets b levels d2 d3
  rw [if_neg h]
  simp only [d3]
  split
  · exact ⟨_, _, _, asyncAll_frame _ d2⟩
  · exact ⟨_, _, _, rfl⟩

/-- The single level of 135 °C, left below 125 °C (R470). -/
theorem jNext_single {d : Dev} (h : (thEn d && triple d) = false) (t : Int) :
    jNext d t = if 1350 ≤ t ∨ (3 ≤ d.therm.jLevel ∧ 1250 ≤ t) then 3 else 0 := by
  rw [jNext, if_neg (by simp [h])]
  by_cases hhot : 1350 ≤ t ∨ (3 ≤ d.therm.jLevel ∧ 1250 ≤ t) <;> simp only [levelNext, hhot] <;> rfl

/-- Of three levels the highest that is entered, or not yet left, is in force. -/
theorem levelNext_three (cur : Nat) (t e1 l1 e2 l2 e3 l3 : Int) : levelNext cur t 1 [(e1, l1), (e2, l2), (e3, l3)] =
    if e3 ≤ t ∨ (3 ≤ cur ∧ l3 ≤ t) then 3 else if e2 ≤ t ∨ (2 ≤ cur ∧ l2 ≤ t) then 2
    else if e1 ≤ t ∨ (1 ≤ cur ∧ l1 ≤ t) then 1 else 0 := by
  by_cases h3 : e3 ≤ t ∨ (3 ≤ cur ∧ l3 ≤ t)
  · simp only [levelNext, h3]; rfl
  · by_cases h2 : e2 ≤ t ∨ (2 ≤ cur ∧ l2 ≤ t) <;> simp only [levelNext, h3, h2] <;> rfl

theorem jNext_triple {d : Dev} (h : (thEn d && triple d) = true) (t : Int) : jNext d t =
    let l := fun (a : Nat) => (10 * fld (rd d.hw a) 0 8 : Int)
    let y := fun (a : Nat) => (10 * fld (rd d.hw a) 0 8 : Int) - (10 * fld (rd d.hw a) 8 4 : Int)
    if l R.THERM_JSHDN ≤ t ∨ (3 ≤ d.therm.jLevel ∧ y R.THERM_JSHDN ≤ t) then 3
    else if l R.THERM_JTHR ≤ t ∨ (2 ≤ d.therm.jLevel ∧ y R.THERM_JTHR ≤ t) then 2
    else if l R.THERM_JWARN ≤ t ∨ (1 ≤ d.therm.jLevel ∧ y R.THERM_JWARN ≤ t) then 1 else 0 := by
  rw [jNext, if_pos h]
  exact levelNext_three ..

/-! The slow round and the flash pause. -/

theorem flashPause_below {t thr lim : Int} (h : t < thr) : flashPause t thr lim = 0 := if_pos h

theorem flashPause_atLimit {t thr lim : Int} (hlim : thr < lim) (h : lim ≤ t) : flashPause t thr lim = 500 := by
  rw [flashPause, if_neg (by omega), if_pos h]

/-- Between the levels the pause is 500 (t − thr) / (lim − thr), rounded up. -/
theorem flashPause_between {t thr lim : Int} (hlow : thr ≤ t) (hhigh : t < lim) :
    500 * (t - thr) ≤ (flashPause t thr lim : Int) * (lim - thr) ∧
      (flashPause t thr lim : Int) * (lim - thr) < 500 * (t - thr) + (lim - thr) := by
  rw [flashPause, if_neg (by omega), if_neg (by omega)]
  have hspan : 0 < lim - thr := by omega
  have hpos : 0 ≤ (500 * (t - thr) + (lim - thr) - 1) / (lim - thr) := Int.ediv_nonneg (by omega) hspan.le
  have hdiv := Int.mul_ediv_add_emod (500 * (t - thr) + (lim - thr) - 1) (lim - thr)
  have hlow := Int.emod_nonneg (500 * (t - thr) + (lim - thr) - 1) hspan.ne'
  have hhigh := Int.emod_lt_of_pos (500 * (t - thr) + (lim - thr) - 1) hspan
  rw [Int.toNat_of_nonneg hpos, Int.mul_comm _ (lim - thr)]
  omega

/-- A channel whose domain is off, or with no die up, is not read. -/
theorem roundRead_of_off {d : Dev} {i : Nat} (hi : i < 48) (hoff : domOn d.pwr (i + 1) = false ∨ ∀ k < 32, dieUp d (32 * i + k) = false)
    (v : Int) : roundRead i v d = d := by
  have hreads : roundReads d i = false := by
    rcases hoff with hoff | hdown
    · simp [roundReads, hi, hoff]
    · have hany : (List.range 32).any (fun k => dieUp d (32 * i + k)) = false := by simpa using hdown
      simp [roundReads, hi, hany]
  simp [roundRead, hreads]

/-- Settles O18: the conversion by `sensorConvert_eq`, the levels and the pause by their equations. -/
theorem thermalCommands : Obligations.ThermalCommands := by
  refine ⟨?enable, ?enabled, thermCfgOk_single_iff, thermCfgOk_triple_iff, ?none, ?convert, fun d t h => jNext_single h t,
    fun d t h => jNext_triple h t, ?round, ?read, ?limit, fun t thr lim hlim => ⟨flashPause_below, flashPause_atLimit hlim, flashPause_between⟩⟩
  case enable =>
    intro d m v hlets hen
    refine Runs.of_regWrite (exec_thermEnable m v) hlets (by decide) ?_
    rw [regWriteAt_thermCtrl, thermCtrlWrite_enable (bit_or_forced rfl v) hen, bit_or_kept rfl]
  case enabled =>
    intro d m v hlets hen
    refine Runs.of_regWrite (exec_thermEnable m v) hlets (by decide) ?_
    rw [regWriteAt_thermCtrl, thermCtrlWrite_kept (bit_or_forced rfl v) hen]
  case none =>
    intro d
    exact Runs.of_does (exec_thermalSensorConversion []) rfl
  case convert =>
    intro d ts xs x hts
    refine ⟨_, Runs.of_does (exec_thermalSensorConversion ts) rfl, ?_⟩
    obtain ⟨sensMax, heq⟩ := sensorConvert_eq hts d
    generalize hd1 : ({ d with therm := { d.therm with
      tj := xs.foldl max x, sensMax := sensMax
      sens := ((List.range' 0 (x :: xs).length).zip (x :: xs)).foldl (fun t q => tabPut t q.1 q.2) d.therm.sens } } : Dev) = d1 at heq
    have hj : jNext d1 (xs.foldl max x) = jNext d (xs.foldl max x) := by subst hd1; rfl
    have hl : d1.therm.jLevel = d.therm.jLevel := by subst hd1; rfl
    generalize he : (if sensorAlarm d.therm.sens (x :: xs) then alarm 3 0 (junctionJudged (xs.foldl max x) d1)
      else junctionJudged (xs.foldl max x) d1) = e at heq
    have hth : e.therm = (junctionJudged (xs.foldl max x) d1).therm := by
      rw [← he]
      split
      · exact alarm_therm ..
      · rfl
    have hho : e.holdup = (junctionJudged (xs.foldl max x) d1).holdup := by
      rw [← he]
      split
      · exact alarm_holdup ..
      · rfl
    obtain ⟨hw, host, out, hfin⟩ := thresholdCheck_frame e
    obtain ⟨cs, hjudged⟩ := junctionJudged_therm (xs.foldl max x) d1
    rw [heq, hfin]
    simp only [hth, hho, hjudged, hj, hl]
    refine ⟨by rw [← hd1], trivial, fun i v hv => ?_, by rw [← hd1], by rw [← hd1], by rw [← hd1],
      fun h3 hb => junctionJudged_shutdown (hl ▸ h3) (hj.trans hb), fun hno hquiet => ?_⟩
    · rw [← hd1]
      simpa using tabGet_putSeq hv 0 d.therm.sens
    · obtain ⟨hw, host, th, hjj⟩ := junctionJudged_of_noShutdown (tj := xs.foldl max x) (d := d1) (by rw [hl, hj]; exact hno)
      rw [if_neg (by simp [hquiet]), hjj] at he
      subst he
      rw [hjj]
      subst hd1
      exact ⟨rfl, rfl, rfl, rfl, rfl⟩
  case round =>
    rintro d y z vals rfl rfl
    exact Runs.of_does (exec_slowRound vals) rfl
  case read =>
    intro d i v
    refine ⟨fun hi hoff => roundRead_of_off hi hoff v, fun hi hon hup => ?_, fun hi h64 => ?_, ?_⟩
    · have hreads : roundReads d i = true := by simpa [roundReads, hi, hon] using hup
      have h63 : i ≠ 63 := by omega
      obtain ⟨y, hy, heq⟩ : ∃ y, y = chanPut (therm (fun t => { t with
          chans := tabPut t.chans i v, chanMax := tabMod t.chanMax i v (fun m => max m v) }) d) i { chanGet d i with pkgT := v } ∧
          roundRead i v d = retrainTemp i y := ⟨_, rfl, by rw [roundRead, if_neg (by simp [hreads]), if_neg h63]; exact if_pos hi⟩
      refine ⟨y, heq, ?_, ?_, by rw [hy]; rfl, by rw [hy]; rfl⟩ <;> rw [hy]
      · simp [chanPut, therm, h63]
      · simp [chanPut, chanGet, therm, h63]
    · have hreads : roundReads d i = true := by simp [roundReads, Nat.not_lt.mpr hi, h64]
      rw [roundRead, if_neg (by simp [hreads]), if_neg (Nat.not_lt.mpr hi)]
      by_cases h61 : i = 61 <;> simp [h61, holdupMod, hwMod, therm]
    · rintro rfl
      have hword : v.toNat % 65536 < 4294967296 := by omega
      simp [roundRead, roundReads, holdupMod, hwMod, therm, hword]
  case limit =>
    exact fun d => ⟨fun h => by simp [limitUpdate, h], fun h => by simp [limitUpdate, h]⟩

end Sys2Proof.Machine
end

section
/-!
PROOFS. Reset and start-up: tables under a map or a filter, the domains on their way down and up, and what a reset of the device leaves.
-/

namespace Sys2Proof.Machine

/-! Tables: a table whose values are mapped, or whose keys are filtered. -/

theorem tabGet_mapVal {α β : Type} {f : Nat × α → Nat × β} (hf : ∀ q, (f q).1 = q.1) (t : List (Nat × α)) (k : Nat) :
    tabGet (t.map f) k = (tabGet t k).map fun v => (f (k, v)).2 := by
  induction t with
  | nil => rfl
  | cons p t ih =>
    obtain ⟨j, v⟩ := p
    have hcons : tabGet (f (j, v) :: t.map f) k = if (f (j, v)).1 = k then some (f (j, v)).2 else tabGet (t.map f) k := rfl
    rw [List.map_cons, hcons, hf]
    by_cases hk : j = k
    · subst hk
      simp [tabGet]
    · simp [tabGet, hk, ih]

theorem tabGet_filterKey {α : Type} (p : Nat → Bool) (t : List (Nat × α)) (k : Nat) :
    tabGet (t.filter fun q => p q.1) k = if p k then tabGet t k else none := by
  induction t with
  | nil => simp [tabGet]
  | cons q t ih =>
    by_cases hk : q.1 = k
    · subst hk
      by_cases hp : p q.1 = true <;> simp [hp, tabGet, ih]
    · by_cases hp : p q.1 = true <;> simp [hp, tabGet, ih, hk]

/-! Domains: what a write of one domain's state, a wake and the way down leave. -/

theorem domGet_domPut_self {n : Nat} (hn : n ≠ 0) (p : Pwr) (x : Dom) : domGet (domPut p n x) n = x := by
  simp [domGet, domPut, hn]

theorem domGet_domPut_other {j n : Nat} (h : j ≠ n) (p : Pwr) (x : Dom) : domGet (domPut p n x) j = domGet p j := by
  simp only [domGet, domPut, tabGetD_tabPut_other _ _ _ h]

theorem domGet_wakeReq_other {j n : Nat} (h : j ≠ n) (src : Nat) (d : Dev) : domGet (wakeReq n src d).pwr j = domGet d.pwr j := by
  unfold wakeReq
  dsimp only
  split
  · rfl
  · split
    · exact domGet_domPut_other h ..
    · exact domGet_domPut_other h ..
    · exact domGet_domPut_other h ..
    · exact domGet_domPut_other h ..
    · rfl

/-- A wake of a domain that is OFF starts its power-up (R447). -/
theorem wakeReq_of_off {d : Dev} {n : Nat} (hn : n ≠ 0) (hp : domPresent d.fuse n = true) (hoff : (domGet d.pwr n).st = .off) (src : Nat) :
    wakeReq n src d = { d with pwr := domPut d.pwr n { domGet d.pwr n with st := .waking, fromOff := true, src := src, wake := none } } := by
  simp [wakeReq, hn, hp, hoff, domSet_eq]

/-- A domain is off, or on the way there. -/
def DomLeaving (p : Pwr) (n : Nat) : Prop := (domGet p n).st = .off ∨ (domGet p n).st = .goingOff

theorem domDown_leaving {n : Nat} (hn : n ≠ 0) (d : Dev) : DomLeaving (domDown n d).pwr n := by
  unfold domDown
  dsimp only
  split
  next hoff => exact Or.inl (by rw [domSet_pwr, domGet_domPut_self hn]; exact hoff)
  next => exact Or.inr (by rw [domSet_pwr, domGet_domPut_self hn])

theorem domGet_domDown_other {j n : Nat} (h : j ≠ n) (d : Dev) : domGet (domDown n d).pwr j = domGet d.pwr j := by
  unfold domDown
  dsimp only
  split <;> exact domGet_domPut_other h ..

theorem domDown_held (n : Nat) (d : Dev) : (domDown n d).pwr.held = d.pwr.held := by
  unfold domDown
  dsimp only
  split <;> rfl

theorem foldl_domDown_leaving {l : List Nat} (hl : 0 ∉ l) (d : Dev) {n : Nat} (hn : n ∈ l ∨ n ≠ 0 ∧ DomLeaving d.pwr n) :
    DomLeaving (l.foldl (fun x n => domDown n x) d).pwr n := by
  induction l generalizing d with
  | nil =>
    obtain hmem | ⟨-, hleave⟩ := hn
    · simp at hmem
    · exact hleave
  | cons m l ih =>
    obtain ⟨hm, hl⟩ : ¬ 0 = m ∧ 0 ∉ l := by simpa using hl
    have hm : m ≠ 0 := fun h => hm h.symm
    refine ih hl (domDown m d) ?_
    by_cases hnm : n = m
    · exact Or.inr (by subst hnm; exact ⟨hm, domDown_leaving hm d⟩)
    · refine hn.imp (fun hmem => ?_) (fun ⟨h0, hleave⟩ => ⟨h0, ?_⟩)
      · exact (List.mem_cons.mp hmem).resolve_left hnm
      · rwa [DomLeaving, domGet_domDown_other hnm]

theorem zero_notMem_seqOrder (f : Fuse) : 0 ∉ seqOrder f := by simp [seqOrder]

/-- PD73 is the first domain of the sequence (R455). -/
theorem seqOrder_first (f : Fuse) : (seqOrder f)[0]? = some 73 := by simp [seqOrder, domPresent]

/-- The sequence starts with PD73. -/
theorem seqBegin_eq (d : Dev) : seqBegin d = wakeReq 73 1 { d with pwr := { d.pwr with seq := some 1, seqWait := false } } := by
  simp only [seqBegin, seqNext, seqOrder_first]

theorem wakeReq_held (n src : Nat) (d : Dev) : (wakeReq n src d).pwr.held = d.pwr.held := by
  unfold wakeReq
  dsimp only
  split
  · rfl
  · split <;> rfl

theorem seqCheck_held (d : Dev) : (seqCheck d).pwr.held = d.pwr.held := by
  unfold seqCheck
  split
  · rw [seqBegin_eq, wakeReq_held]
  · rfl

theorem domGet_seqCheck_other {n : Nat} (h : n ≠ 73) (d : Dev) : domGet (seqCheck d).pwr n = domGet d.pwr n := by
  unfold seqCheck
  split
  · rw [seqBegin_eq, domGet_wakeReq_other h]
    rfl
  · rfl

/-- A reset takes every domain of the sequence down; PD73 may start up again at once. -/
theorem domsReset_leaving (d : Dev) {n : Nat} (hn : n ∈ seqOrder d.fuse) : DomLeaving (domsReset d).pwr n ∨ n = 73 := by
  by_cases h73 : n = 73
  · exact Or.inr h73
  · refine Or.inl ?_
    unfold domsReset
    rw [DomLeaving, domGet_seqCheck_other h73]
    exact foldl_domDown_leaving (zero_notMem_seqOrder _) _ (Or.inl hn)

theorem domsReset_held (d : Dev) : (domsReset d).pwr.held = [] := by
  unfold domsReset
  rw [seqCheck_held]
  exact foldl_keeps (fun d => d.pwr.held) (fun d n => domDown_held n d) _ _

/-! The reset of a device (R44, R442). -/

theorem rd_extHeld (d : Dev) {a : Nat} (ha : a ≠ R.WH_PEND 11) : rd (extHeld d).hw a = rd d.hw a := by
  obtain ⟨w, hw, hkept⟩ := extHeld_frame d
  rw [hw]
  simp only [rd, tabGetD, hkept a ha]

theorem rd_hwReset (h : Hw) (a : Nat) : rd (hwReset h) a = if regKept a then rd h a else regReset a := by
  simp only [rd, tabGetD, hwReset, tabGet_filterKey]
  split <;> rfl

theorem ballsSafe_frame (d : Dev) : ballsSafe d = { d with fl := { d.fl with chans := (ballsSafe d).fl.chans } } := by
  refine foldl_keeps (fun e => ({ e with fl := { e.fl with chans := (ballsSafe d).fl.chans } } : Dev)) (fun e c => ?_)
    (List.range (chCount d.fuse)) d
  dsimp only
  split <;> rfl

/-- A pass over some channels leaves those safe whose domain is not OFF, and those that were safe before. -/
theorem foldl_ballSafe {c : Nat} (l : List Nat) (d : Dev) (hon : (domGet d.pwr (c + 1)).st ≠ .off)
    (hc : c ∈ l ∨ (chanGet d c).safe = true) :
    (chanGet (l.foldl (fun x c => if (domGet x.pwr (c + 1)).st = .off then x else chanPut x c { chanGet x c with safe := true }) d) c).safe
      = true := by
  induction l generalizing d with
  | nil => simpa using hc
  | cons k l ih =>
    simp only [List.foldl_cons]
    split
    next hoff =>
      have hkc : c ≠ k := fun h => hon (h ▸ hoff)
      exact ih d hon (hc.imp_left fun h => (List.mem_cons.mp h).resolve_left hkc)
    next =>
      refine ih _ hon ?_
      by_cases hkc : c = k
      · subst hkc
        exact Or.inr (by rw [chanGet_chanPut])
      · refine hc.imp (fun h => (List.mem_cons.mp h).resolve_left hkc) fun h => ?_
        rwa [chanGet, chanPut_fl, tabGetD_tabPut_other _ _ _ hkc]

/-- The flash balls of every channel whose domain is not OFF are in their safe state. -/
theorem ballsSafe_safe {d : Dev} {c : Nat} (hc : c < chCount d.fuse) (hon : (domGet d.pwr (c + 1)).st ≠ .off) :
    (chanGet (ballsSafe d) c).safe = true := foldl_ballSafe _ d hon (Or.inl (List.mem_range.mpr hc))

/-- A reset of the units keeps the balls of the channels in their safe state. -/
theorem unitsReset_safe {d : Dev} {c : Nat} (h : (chanGet d c).safe = true) :
    (tabGetD (unitsReset d).chans c Chan.init).safe = true := by
  simp only [unitsReset, tabGetD]
  rw [tabGet_mapVal (hf := fun _ => by rfl)]
  simp only [chanGet, tabGetD] at h
  cases hx : tabGet d.fl.chans c
  all_goals simp_all

theorem devReset_resetTo (sys : Bool) (d : Dev) : Dev.ResetTo sys d (devReset sys d) := by
  unfold devReset
  extract_lets rollback h1 h2 b b1 b2 d0 sj1 th1 mg1 jt1 ten1 d1
  have hballs : ∀ c < chCount d.fuse, (domGet d.pwr (c + 1)).st ≠ .off → (chanGet d0 c).safe = true :=
    fun c hc hon => ballsSafe_safe (d := { d with hw := h2 }) hc hon
  have hd0 : d0 = { d with hw := h2, sj := d0.sj, fl := { d.fl with chans := d0.fl.chans } } := by
    simp only [d0, sjLoad]
    rw [ballsSafe_frame]
  have hregs : ∀ a, a ≠ R.RIND_BOOTCTL → rd d1.hw a = if regKept a then rd d.hw a else regReset a := by
    intro a ha
    have hhw : d1.hw = h2 := by simp [d1, d0]
    have hset : rd h2 a = rd h1 a := by
      simp only [h2]
      split
      · exact rd_wr_other _ _ _ _ ha
      · rfl
    rw [hhw, hset, rd_hwReset]
  have hmem : d1.hw.mem = d.hw.mem ∧ d1.hw.time = d.hw.time := by
    have hhw : d1.hw = h2 := by simp [d1, d0]
    rw [hhw]
    simp only [h2]
    split <;> exact ⟨rfl, rfl⟩
  have hfuse : d1.fuse = d.fuse := by simp only [d1]; rw [hd0]
  obtain ⟨w, hext, -⟩ := extHeld_frame (domsReset d1)
  have hframe : extHeld (domsReset d1) = { d1 with hw := { d1.hw with regs := w }, pwr := (domsReset d1).pwr } := by
    rw [hext, domsReset_hw, domsReset_frame]
  have hrd : ∀ a, a ≠ R.RIND_BOOTCTL → a ≠ R.WH_PEND 11 → rd (extHeld (domsReset d1)).hw a = if regKept a then rd d.hw a else regReset a :=
    fun a hboot hpend => by rw [rd_extHeld _ hpend, domsReset_hw, hregs a hboot]
  exact {
    fuse := by rw [hframe]; exact hfuse
    time := by rw [hframe]; exact hmem.2
    mem := by rw [hframe]; exact hmem.1
    balls := fun c hc hon => by rw [hframe]; exact unitsReset_safe (hballs c hc hon)
    reset := fun a hkept hboot hpend => by simp [hrd a hboot hpend, hkept]
    kept := fun a hkept => by
      have hboot : a ≠ R.RIND_BOOTCTL := by rintro rfl; revert hkept; decide
      have hpend : a ≠ R.WH_PEND 11 := by rintro rfl; revert hkept; decide
      simp [hrd a hboot hpend, hkept]
    windows := by rw [hframe]; exact ⟨rfl, rfl, rfl⟩
    slots := by rw [hframe]; rfl
    dbg := by rw [hframe]; rfl
    host := by rw [hframe]; exact ⟨rfl, rfl, rfl⟩
    doms := fun n hn => by
      have hleave := domsReset_leaving d1 (n := n) (by rwa [hfuse])
      rw [hframe]
      exact or_assoc.mp hleave
    held := by rw [hframe]; exact domsReset_held d1
    rom := by rw [hframe]; simp only [d1, b2, b1]; cases sys <;> exact ⟨rfl, rfl⟩ }

theorem devReset_holdup (sys : Bool) (d : Dev) : (devReset sys d).holdup = holdupReset d.holdup := by
  unfold devReset
  obtain ⟨w, hw, -⟩ := extHeld_frame (domsReset _)
  rw [hw, domsReset_frame]

theorem devReset_sec (sys : Bool) (d : Dev) : (devReset sys d).sec = secReset sys d.sec := by
  unfold devReset
  obtain ⟨w, hw, -⟩ := extHeld_frame (domsReset _)
  rw [hw, domsReset_frame]

theorem devReset_pins (sys : Bool) (d : Dev) : (devReset sys d).pins = d.pins := by
  unfold devReset
  obtain ⟨w, hw, -⟩ := extHeld_frame (domsReset _)
  rw [hw, domsReset_frame]
  simp only [sjLoad]
  rw [ballsSafe_frame]

theorem devReset_med (sys : Bool) (d : Dev) : (devReset sys d).med = mediaReset d.med := by
  unfold devReset
  obtain ⟨w, hw, -⟩ := extHeld_frame (domsReset _)
  rw [hw, domsReset_frame]

theorem devReset_namespaces (sys : Bool) (d : Dev) : (devReset sys d).ten.namespaces = d.ten.namespaces := by
  unfold devReset
  obtain ⟨w, hw, -⟩ := extHeld_frame (domsReset _)
  rw [hw, domsReset_frame]

/-- The reset's outcome does not depend on the pins. -/
theorem devReset_resetTo_pins (sys : Bool) (d : Dev) (p : Pins) : Dev.ResetTo sys d (devReset sys { d with pins := p }) :=
  have h := devReset_resetTo sys { d with pins := p }
  { fuse := h.fuse, time := h.time, mem := h.mem, balls := h.balls, reset := h.reset, kept := h.kept, windows := h.windows
    slots := h.slots, dbg := h.dbg, host := h.host, doms := h.doms, held := h.held, rom := h.rom }

theorem regWriteAt_bootCtl (m : Nat) (v : Word) (d : Dev) : regWriteAt m R.RIND_BOOTCTL v d = (.ok, bootCtlWrite v d) := rfl

/-- FW_STATE of a write with RESET set is the written one. -/
theorem fld_fwState_or_reset (v : Word) : fld (v ||| 2#32) 4 2 = fld v 4 2 := by
  refine fld_or_other v 2#32 4 2 fun i hlo hhi => ?_
  obtain rfl | rfl : i = 4 ∨ i = 5 := by omega
  all_goals rfl

/-- Settles O9: resets by `devReset_resetTo`, the sequence by the first wake of `seqOrder`. -/
theorem startupCommands : Obligations.StartupCommands := by
  refine ⟨?powered, ?powerOn, ?fall, ?assert, ?release, ?slot, ?internal, ?request, ?state, ?subsystem⟩
  case powered =>
    intro d hgood
    obtain ⟨w, hw, hkept⟩ := extHeld_frame { d with pins := { d.pins with pgood := true } }
    have hrise : pgoodRise false d = seqCheck (extHeld { d with pins := { d.pins with pgood := true } }) := by
      rw [pgoodRise, if_neg (by simp [hgood])]
      rfl
    refine ⟨w, (seqCheck (extHeld { d with pins := { d.pins with pgood := true } })).pwr,
      Runs.of_does (exec_pgoodRise false) ?_, hkept, fun hwait => ?_, fun hwait hoff => ?_⟩
    · rw [hrise, seqCheck_frame]
      simp only [hw]
    · simp [hw, seqCheck, hwait]
    · have hdown : allDown { d with hw := { d.hw with regs := w }, pins := { d.pins with pgood := true } } = true := by
        simpa [allDown] using hoff
      have h73 : domPresent d.fuse 73 = true := rfl
      have hmem : 73 ∈ seqOrder d.fuse := List.mem_of_getElem? (seqOrder_first d.fuse)
      rw [hw]
      simp only [seqCheck, hwait, hdown, Bool.and_self, if_true, seqBegin_eq]
      exact congrArg Dev.pwr (wakeReq_of_off (d := { d with
        hw := { d.hw with regs := w }, pins := { d.pins with pgood := true }, pwr := { d.pwr with seq := some 1, seqWait := false } })
        (by decide) h73 (hoff 73 hmem) 1)
  case powerOn =>
    intro d hgood
    obtain ⟨w, hw, hkept⟩ := extHeld_frame { powerOn d with pins := { (powerOn d).pins with pgood := true } }
    have hrise : pgoodRise true d = { powerOn d with
        hw := { (powerOn d).hw with regs := w }, pins := { (powerOn d).pins with pgood := true }
        pwr := (seqCheck (extHeld { powerOn d with pins := { (powerOn d).pins with pgood := true } })).pwr } := by
      rw [pgoodRise, if_neg (by simp [hgood])]
      simp only [if_true]
      rw [seqCheck_frame]
      simp only [hw]
    refine ⟨_, Runs.of_does (exec_pgoodRise true) rfl, ?_⟩
    rw [hrise]
    have hfuse : (devReset true d).fuse = d.fuse := (devReset_resetTo true d).fuse
    have hslot : ∀ n, slotGet (powerOn d).sec n = { Slot.init with gen := (slotGet d.sec n).gen } := by
      intro n
      have hslots : (powerOn d).sec.slots = (devReset true d).sec.slots.map fun q => (q.1, { Slot.init with gen := q.2.gen }) := rfl
      rw [slotGet, hslots, devReset_sec, tabGetD, tabGet_mapVal (hf := fun _ => by rfl)]
      simp only [slotGet, tabGetD, secReset]
      cases tabGet d.sec.slots n <;> rfl
    refine ⟨rfl, hfuse, rfl, rfl, fun a ha => ?_, rfl, rfl, fun n => ⟨?_, ?_⟩, rfl, devReset_locks true d, rfl, ?_, ?_⟩
    · simp only [rd, tabGetD, hkept a ha]
      rfl
    · exact congrArg Slot.type (hslot n)
    · exact (congrArg Slot.gen (hslot n) : (slotGet (powerOn d).sec n).gen = _)
    · exact (congrArg Media.layout (devReset_med true d) : (devReset true d).med.layout = _)
    · exact devReset_namespaces true d
  case fall =>
    intro d hgood
    refine ⟨_, Runs.of_does exec_pgoodFall rfl, ?_⟩
    rw [pgoodFall, if_pos hgood]
    exact ⟨devReset_resetTo_pins true d _, by rw [devReset_pins], by rw [devReset_holdup]; rfl⟩
  case assert =>
    intro d hhigh
    refine ⟨_, Runs.of_does exec_sysResetAssert rfl, ?_⟩
    rw [sysResetAssert, if_pos hhigh]
    exact ⟨devReset_resetTo_pins true d _, by rw [devReset_pins], by rw [devReset_holdup]; rfl⟩
  case release =>
    intro d two clk sris hlow
    refine Runs.of_does (exec_sysResetRelease two clk sris) ?_
    rw [sysResetRelease, if_neg (by simp [hlow])]
    cases two <;> cases clk <;> cases sris <;> rfl
  case slot =>
    intro d i n hseq hn hoff
    refine Runs.of_does exec_startupSlot ?_
    have hmem : n ∈ seqOrder d.fuse := List.mem_of_getElem? hn
    have hpresent : domPresent d.fuse n = true := (List.mem_filter.mp hmem).2
    have h0 : n ≠ 0 := fun h => zero_notMem_seqOrder d.fuse (h ▸ hmem)
    rw [startupSlot, if_pos (by simp [hseq])]
    simp only [seqNext, hseq, hn]
    exact wakeReq_of_off (d := { d with pwr := { d.pwr with seq := some (i + 1) } }) h0 hpresent hoff 1
  case internal =>
    intro d h6 hafter hcold hhold
    refine ⟨_, Runs.of_does exec_internalReset rfl, ?_⟩
    rw [internalReset, if_pos (by simp [h6, hafter, hcold, hhold])]
    exact ⟨devReset_resetTo false d, devReset_pins false d, by rw [devReset_holdup]; rfl, by rw [devReset_holdup]; rfl⟩
  case request =>
    intro d m v hlets h3
    refine Runs.of_regWrite (exec_resetWrite m v) hlets (by decide) ?_
    rw [regWriteAt_bootCtl]
    simp only [bootCtlWrite, fld_fwState_or_reset, h3, bit_or_forced (w := 2#32) (i := 1) rfl v,
      bit_or_kept (w := 2#32) (i := 0) rfl v, if_true]
    rfl
  case state =>
    intro d m v hlets h3
    refine Runs.of_regWrite (exec_resetWrite m v) hlets (by decide) ?_
    rw [regWriteAt_bootCtl]
    simp only [bootCtlWrite, fld_fwState_or_reset, h3, bit_or_forced (w := 2#32) (i := 1) rfl v,
      bit_or_kept (w := 2#32) (i := 0) rfl v, if_true, if_false]
    by_cases hup : 3 ≤ d.boot.bootState <;> simp [hup, resetAsk, holdupMod, hwMod, md]
  case subsystem =>
    intro d p fn hok
    refine Runs.of_onUnit (exec_nvmSubsystemReset p fn) hok ?_
    exact if_pos hok
end Sys2Proof.Machine
end

section
/-!
PROOFS. The power-fail flush: what the end of an operation leaves alone, the flush's steps and its tail phase.
-/

namespace Sys2Proof.Machine

/-- What buffers' frees, the journal and erases leave alone. -/
def Dev.inner (d : Dev) : (Fuse × Pins × Pwr × Whistle × Sec × Boot × Holdup × Therm × Mgmt × Jtag × Tenancy) × List (Nat × Port) ×
    List (Nat × Ctrl) × List (Nat × List QCmd) × List (Nat × QCmd) × List (Nat × Op) × List Cqe × List (Nat × Nat × Nat × List Byte) ×
    List (Nat × Nat) × List (Nat × Nat) × List Src × List RndHeld × Bool :=
  ((d.fuse, d.pins, d.pwr, d.wh, d.sec, d.boot, d.holdup, d.therm, d.mgmt, d.jtag, d.ten), d.host.ports, d.host.ctrls, d.host.queues,
    d.host.unfetched, d.host.ops, d.host.cq, d.host.ringWait, d.host.fetched, d.host.posted, d.host.hmbWait, d.host.rndHeld, d.host.stopped)

theorem curdOp_inner (op m p g : Nat) (d : Dev) : (curdOp op m p g d).2.inner = d.inner := by
  unfold curdOp
  split
  · rfl
  · extract_lets o k
    split
    · rfl
    · split
      · rfl
      · split <;> rfl

theorem bufsFree_inner (p : Nat) (bs : List Nat) (d : Dev) : (bufsFree p bs d).inner = d.inner :=
  foldl_keeps Dev.inner (fun d b => curdOp_inner 4 (portMaster p) b 0 d) bs d

theorem sjPut_inner (type key : Nat) (p : List Byte) (d : Dev) : (sjPut type key p d).inner = d.inner := by
  unfold sjPut
  split <;> rfl

theorem pairOpen_inner (d : Dev) : (pairOpen d).inner = d.inner := sjPut_inner ..

theorem pairsOpen_inner (n : Nat) (d : Dev) : (pairsOpen n d).inner = d.inner := by
  induction n generalizing d with
  | zero => rfl
  | succ n ih => exact (ih (pairOpen d)).trans (pairOpen_inner d)

theorem jStart_inner (rs keep : List JRec) (d : Dev) : (jStart rs keep d).inner = d.inner := pairsOpen_inner ..

theorem jTail_inner (d : Dev) : (jTail d).inner = d.inner := by
  unfold jTail
  split <;> rfl

theorem jFlush_inner (d : Dev) : (jFlush d).inner = d.inner := by
  unfold jFlush
  split
  · rfl
  · split
    · exact (jStart_inner ..).trans (jTail_inner _)
    · exact jStart_inner ..

theorem jReclaim_inner (d : Dev) : (jReclaim d).inner = d.inner := by
  unfold jReclaim
  extract_lets fill limit
  split
  · exact (jFlush_inner _).trans (jTail_inner d)
  · rfl

theorem eraseAdd_inner (die b : Nat) (d : Dev) : (eraseAdd die b d).inner = d.inner := by
  unfold eraseAdd
  extract_lets x q aff d1
  split <;> rfl

theorem pairErase_inner (d : Dev) (p : LanePair) : (pairErase d p).inner = d.inner :=
  (eraseAdd_inner ..).trans (eraseAdd_inner ..)

theorem fdpCount_inner (host media erased : Nat) (d : Dev) : (fdpCount host media erased d).inner = d.inner := by
  unfold fdpCount
  split <;> rfl

theorem sbErase_inner (n : Nat) (d : Dev) : (sbErase n d).inner = d.inner := by
  unfold sbErase
  split
  · rfl
  next s _ =>
    exact (foldl_keeps Dev.inner (fun d q => eraseAdd_inner ..) (sbBlocks s) _).trans (fdpCount_inner ..)

theorem doomCheck_inner (d : Dev) : (doomCheck d).inner = d.inner :=
  foldl_keeps Dev.inner (fun d q => sbErase_inner ..) (d.med.doomed.filter (doomReady d))
    { d with med := { d.med with doomed := d.med.doomed.filter (fun x => !doomReady d x) } }

theorem jComplete_inner (d : Dev) : (jComplete d).inner = d.inner := by
  unfold jComplete
  split
  · rfl
  · extract_lets x dur h1 h2 gone jr dies med1 fl1 d1
    calc (jReclaim (doomCheck (gone.foldl pairErase d1))).inner
      _ = (doomCheck (gone.foldl pairErase d1)).inner := jReclaim_inner _
      _ = (gone.foldl pairErase d1).inner := doomCheck_inner _
      _ = d.inner := foldl_keeps Dev.inner pairErase_inner gone d1

/-- What the end of an operation, with the buffers, the journal and the erases that it may let go on, leaves alone. -/
def Dev.unreached (d : Dev) : Fuse × Pins × Pwr × Whistle × Sec × Boot × Holdup × Therm × Mgmt × Jtag × Bool :=
  (d.fuse, d.pins, d.pwr, d.wh, d.sec, d.boot, d.holdup, d.therm, d.mgmt, d.jtag, d.host.stopped)

theorem unreached_of_inner {d e : Dev} (h : e.inner = d.inner) : e.unreached = d.unreached := by
  simp only [Dev.inner, Prod.mk.injEq] at h
  simp only [Dev.unreached, h]

theorem cqPost_unreached (port fn sq cid : Nat) (st : NvStat) (dw0 dw1 : Nat) (data : List Nat) (d : Dev) :
    (cqPost port fn sq cid st dw0 dw1 data d).unreached = d.unreached := by
  unfold cqPost widthRestore
  split
  · split <;> rfl
  · rfl

theorem hmbStop_unreached (c : Src) (d : Dev) : (hmbStop c d).unreached = d.unreached := by
  unfold hmbStop
  extract_lets segs d1 d2 host1 d3 left
  have hd1 : d1.unreached = d.unreached :=
    unreached_of_inner ((jComplete_inner _).trans ((jFlush_inner _).trans (jComplete_inner d)))
  have hd3 : d3.unreached = d2.unreached := by
    simp only [d3]
    split <;> rfl
  exact (cqPost_unreached ..).trans (hd3.trans hd1)

theorem hmbSettle_unreached (d : Dev) : (hmbSettle d).unreached = d.unreached :=
  foldl_keeps Dev.unreached (fun d c => hmbStop_unreached c d) (d.host.hmbWait.filter fun c => !homeOps d c.port)
    { d with host := { d.host with hmbWait := d.host.hmbWait.filter (fun c => homeOps d c.port) } }

theorem opEnd_unreached (tag : Nat) (st : NvStat) (dw0 dw1 : Nat) (data : List Nat) (d : Dev) :
    (opEnd tag st dw0 dw1 data d).unreached = d.unreached := by
  unfold opEnd
  split
  · rfl
  next o _ =>
    extract_lets host1 d1 x d2
    have hd1 : d1.unreached = d.unreached :=
      calc d1.unreached
        _ = Dev.unreached { d with host := { d.host with ops := tabDel d.host.ops tag } } := unreached_of_inner (bufsFree_inner ..)
        _ = d.unreached := rfl
    have hd2 : d2.unreached = d1.unreached := by
      simp only [d2]
      split <;> rfl
    refine (hmbSettle_unreached _).trans ?_
    split
    · exact hd2.trans hd1
    · exact (cqPost_unreached ..).trans (hd2.trans hd1)

theorem opMod_unreached (tag : Nat) (f : Op → Op) (d : Dev) : (opMod tag f d).unreached = d.unreached := by
  unfold opMod
  split <;> rfl

theorem readsAbandon_unreached (d : Dev) : (readsAbandon d).unreached = d.unreached := by
  unfold readsAbandon
  extract_lets rs d1
  have hends : d1.unreached = d.unreached := foldl_keeps Dev.unreached (fun d q => (opEnd_unreached ..).trans (opMod_unreached ..)) rs d
  exact hends

theorem readsAbandon_waits (d : Dev) : (readsAbandon d).fl.runs = [] ∧ (readsAbandon d).fl.ctxWait = [] := ⟨rfl, rfl⟩

/-! The flush (R462–R468). -/

theorem flushUp_frame (n : Nat) (d : Dev) : flushUp n d = { d with pwr := (flushUp n d).pwr } := by
  unfold flushUp
  split
  · exact wakeReq_frame n 7 d
  · rfl

theorem flushDown_frame (n : Nat) (d : Dev) : flushDown n d = { d with pwr := (flushDown n d).pwr } := by
  unfold flushDown domSet
  dsimp only
  split
  · rfl
  · split <;> rfl

theorem foldl_flushUp_eq (l : List Nat) (d : Dev) : ∃ p, l.foldl (fun x n => flushUp n x) d = { d with pwr := p } :=
  ⟨_, foldl_pwr_frame _ (fun d n => flushUp_frame n d) l d⟩

theorem foldl_flushDown_eq (l : List Nat) (d : Dev) : ∃ p, l.foldl (fun x n => flushDown n x) d = { d with pwr := p } :=
  ⟨_, foldl_pwr_frame _ (fun d n => flushDown_frame n d) l d⟩

theorem tokenBack_frame (had : Bool) (d : Dev) : tokenBack had d = { d with fl := { d.fl with pacer := (tokenBack had d).fl.pacer } } := by
  cases had <;> rfl

/-- Resetting the LUNs changes dies and tokens alone. -/
theorem lunsReset_frame (d : Dev) : lunsReset d = { d with fl := { d.fl with dies := (lunsReset d).fl.dies, pacer := (lunsReset d).fl.pacer } } := by
  refine foldl_keeps (fun e => ({ e with fl := { e.fl with dies := (lunsReset d).fl.dies, pacer := (lunsReset d).fl.pacer } } : Dev))
    (fun e q => ?_) d.fl.dies d
  dsimp only
  split
  · split
    · exact congrArg (fun e : Dev => { e with fl := { e.fl with dies := (lunsReset d).fl.dies, pacer := (lunsReset d).fl.pacer } })
        (tokenBack_frame ..)
    · rfl
  · rfl

/-- A command of the Rind store changes the registers and the store alone. -/
theorem rindCmd_frame (op : Nat) (d : Dev) : rindCmd op d = { d with hw := (rindCmd op d).hw } := by
  unfold rindCmd
  dsimp only
  split
  · split <;> rfl
  · split
    · split <;> rfl
    · split <;> rfl
    all_goals rfl

/-- An erase of the Rind store that is running is aborted. -/
def eraseStopped (d : Dev) : Dev :=
  match d.hw.rind.running with
  | some r => if r.op = 2 then rindCmd 6 d else d
  | none => d

theorem eraseStopped_frame (d : Dev) : eraseStopped d = { d with hw := (eraseStopped d).hw } := by
  unfold eraseStopped
  split
  · split
    · exact rindCmd_frame 6 d
    · rfl
  · rfl

theorem sjPut_frame (type key : Nat) (p : List Byte) (d : Dev) : sjPut type key p d = { d with
    hw := (sjPut type key p d).hw, sj := (sjPut type key p d).sj } := by
  unfold sjPut
  split <;> rfl

theorem foldl_hwSj {α : Type} {f : Dev → α → Dev} (hf : ∀ d x, ∃ hw sj, f d x = { d with hw := hw, sj := sj }) (l : List α) (d : Dev) :
    ∃ hw sj, l.foldl f d = { d with hw := hw, sj := sj } := by
  induction l generalizing d with
  | nil => exact ⟨d.hw, d.sj, rfl⟩
  | cons x l ih =>
    obtain ⟨hw, sj, hx⟩ := hf d x
    rw [List.foldl_cons, hx]
    exact ih _

theorem countsSave_eq (d : Dev) : ∃ hw sj, countsSave d = { d with hw := hw, sj := sj } := by
  unfold countsSave
  refine foldl_hwSj (fun e q => ?_) (formatCounts d) d
  split
  · exact ⟨_, _, rfl⟩
  · exact ⟨_, _, sjPut_frame ..⟩

/-- Saving the counts and the media time writes the Rind store and its journal alone. -/
theorem mediaSave_eq (d : Dev) : ∃ hw sj, mediaSave d = { d with hw := hw, sj := sj } := by
  obtain ⟨hw, sj, hput⟩ : ∃ hw sj, sjPut 1 0 (leBytes 8 d.aff.mtime) d = { d with hw := hw, sj := sj } := ⟨_, _, sjPut_frame ..⟩
  unfold mediaSave
  rw [hput]
  exact countsSave_eq _

theorem ballsSafe_with_hw (d : Dev) (h : Hw) : ballsSafe { d with hw := h } = { ballsSafe d with hw := h } := by
  refine List.foldl_hom (fun x : Dev => { x with hw := h }) fun x c => ?_
  dsimp only
  split <;> rfl

/-- The holdup side of step 6 (Table 15.6). -/
def flushedHoldup (mib : Nat) (late : Bool) (d : Dev) : Holdup :=
  { d.holdup with
    flushStep := 6, flushes := d.holdup.flushes + 1, lastUs := (d.hw.time.toNat - d.holdup.t0.toNat) / 25
    longestUs := max d.holdup.longestUs ((d.hw.time.toNat - d.holdup.t0.toNat) / 25), dumped := mib * 1048576
    timeoutLast := late, shdnReq := d.holdup.shdnReq || shdnActive d, inHold := d.holdup.shdnJ || shdnActive d }

/-- Step 6 puts the flash balls in their safe state and takes domains down; the tail phase writes the Rind store (R464, R466). -/
theorem flushSix_eq (mib : Nat) (late : Bool) (d : Dev) : ∃ hw sj pwr, flushSix mib late d = { d with
    hw := hw, sj := sj, pwr := pwr, holdup := flushedHoldup mib late d, fl := { d.fl with chans := (ballsSafe d).fl.chans } } := by
  unfold flushSix flushTail
  extract_lets us a2 h1 h2 hold d1 downs
  have hballs : ballsSafe { d with hw := h2 } = { d with hw := h2, fl := { d.fl with chans := (ballsSafe d).fl.chans } } := by
    rw [ballsSafe_with_hw, ballsSafe_frame d]
  obtain ⟨pwr, hdowns⟩ := foldl_flushDown_eq downs d1
  obtain ⟨hw, sj, hsave⟩ := mediaSave_eq { d1 with pwr := pwr }
  rw [hdowns, hsave]
  simp only [d1, hballs]
  exact ⟨_, _, _, rfl⟩

/-- The state in which a flush starts its steps (Table 15.6). -/
def flushStarted (d : Dev) : Dev :=
  { d with
    hw := pendSet (irq (md d.hw R.HOLDUP_STAT (fun w => clrBit (setBit w 29) 28)) irqHoldup 0) 352
    holdup := { d.holdup with
      flushed := true, flushStep := 2, t0 := d.hw.time, dirty0 := dirtyKib d, dumped := 0, supplyBack := false
      coldAfter := pfailActive d, shdnReq := shdnActive d, measStep := 0 }
    host := { d.host with stopped := true }, med := { d.med with snap := dumpImage d } }

/-- A started flush keeps what the abandoned reads do not reach, but for the domains. -/
theorem flushStart_fresh {d : Dev} (hdue : flushDue d = true) (hfresh : d.holdup.flushed = false) : ∃ hw pwr chans dies pacer,
    flushStart d = { readsAbandon (flushStarted d) with
      hw := hw, pwr := pwr
      fl := { (readsAbandon (flushStarted d)).fl with chans := chans, dies := dies, pacer := pacer } } := by
  have hsteps : flushStart d = flushOnDoms.foldl (fun x n => flushUp n x) (flushOffDoms.foldl (fun x n => flushDown n x)
      (lunsReset { eraseStopped (readsAbandon (flushStarted d)) with
        fl := { (eraseStopped (readsAbandon (flushStarted d))).fl with
          chans := (eraseStopped (readsAbandon (flushStarted d))).fl.chans.map (fun q => (q.1, { q.2 with pauseOver := true })) } })) := by
    rw [flushStart, if_neg (by simp [hdue]), if_neg (by simp [hfresh])]
    rfl
  generalize readsAbandon (flushStarted d) = e at hsteps ⊢
  obtain ⟨hw, hstop⟩ : ∃ hw, eraseStopped e = { e with hw := hw } := ⟨_, eraseStopped_frame e⟩
  rw [hstop] at hsteps
  obtain ⟨dies, pacer, hluns⟩ : ∃ dies pacer, lunsReset { e with
      hw := hw, fl := { e.fl with chans := e.fl.chans.map (fun q => (q.1, { q.2 with pauseOver := true })) } } = { e with
      hw := hw, fl := { e.fl with chans := e.fl.chans.map (fun q => (q.1, { q.2 with pauseOver := true })), dies := dies, pacer := pacer } } :=
    ⟨_, _, lunsReset_frame _⟩
  obtain ⟨off, hoff⟩ := foldl_flushDown_eq flushOffDoms { e with
    hw := hw, fl := { e.fl with chans := e.fl.chans.map (fun q => (q.1, { q.2 with pauseOver := true })), dies := dies, pacer := pacer } }
  obtain ⟨on, hon⟩ := foldl_flushUp_eq flushOnDoms { e with
    hw := hw, pwr := off
    fl := { e.fl with chans := e.fl.chans.map (fun q => (q.1, { q.2 with pauseOver := true })), dies := dies, pacer := pacer } }
  exact ⟨_, _, _, _, _, by rw [hsteps, hluns, hoff, hon]⟩

/-- A LUN after its reset is done. -/
def lunResetDone (y : Die) : Die :=
  match y.arr with
  | some a => if a.op = .resetLun then { y with arr := none } else y
  | none => y

theorem flushResetsDone_eq {d : Dev} (h : d.holdup.flushStep = 2) : flushResetsDone d =
    if hoArmed { d with holdup := { d.holdup with flushStep := 4 }, fl := { d.fl with dies := d.fl.dies.map fun q => (q.1, lunResetDone q.2) } }
    then { d with holdup := { d.holdup with flushStep := 4 }, fl := { d.fl with dies := d.fl.dies.map fun q => (q.1, lunResetDone q.2) } }
    else flushSix 0 false { d with
      holdup := { d.holdup with flushStep := 4 }, fl := { d.fl with dies := d.fl.dies.map fun q => (q.1, lunResetDone q.2) } } := by
  have hdies : (d.fl.dies.map fun q => match q.2.arr with
      | some a => if a.op = .resetLun then (q.1, { q.2 with arr := none }) else q
      | none => q) = d.fl.dies.map fun q => (q.1, lunResetDone q.2) := by
    refine List.map_congr_left fun q _ => ?_
    unfold lunResetDone
    dsimp only
    split
    · split <;> rfl
    · rfl
  rw [flushResetsDone, if_neg (by simp [h]), ← hdies]
  rfl

/-- FLUSH_END during a flush: the dump becomes the media's image, and step 6 follows (R465). -/
theorem flushEnd_of_flush {d : Dev} (h : d.holdup.flushStep = 2 ∨ d.holdup.flushStep = 4) : flushEnd d =
    flushSix (Config.freeNat d.hw.free) false { d with
      hw := spend d.hw
      med := { d.med with image := d.med.snap, staged := [], loose := [], jr := { d.med.jr with onMedia := d.med.jr.count } } } :=
  if_neg (by omega)

/-- A write of HOLDUP_CTRL with EN kept, FLUSH_END set and MEASURE clear. -/
theorem holdupCtrlWrite_flushEnd {d : Dev} {v : Word} (h0 : bit v 0 = true) (h1 : bit v 1 = false) (h2 : bit v 2 = true)
    (hen : hoEn d = true) : holdupCtrlWrite v d =
      flushEnd { d with hw := wr d.hw R.HOLDUP_CTRL (putBit (rd d.hw R.HOLDUP_CTRL) 3 (bit v 3)) } := by
  simp [holdupCtrlWrite, h0, h1, h2, hen]
  rfl

/-- Settles O17: the steps by `flushStart_fresh` and `flushSix_eq`, the resets after a flush by `devReset_resetTo`. -/
theorem flushCommands : Obligations.FlushCommands := by
  refine ⟨?start, ?joins, ?resets, ?flushEnd, ?deadline, ?six, ?back, ?cold, ?hold⟩
  case start =>
    intro d hdue hfresh
    obtain ⟨hw, pwr, chans, dies, pacer, heq⟩ := flushStart_fresh hdue hfresh
    refine ⟨_, Runs.of_does exec_powerFailFlush heq, ?_⟩
    have hkeep := readsAbandon_unreached (flushStarted d)
    simp only [Dev.unreached, Prod.mk.injEq] at hkeep
    obtain ⟨hfuse, hpins, -, -, -, -, hholdup, -, -, -, hstop⟩ := hkeep
    simp only [hholdup, hfuse, hpins, hstop]
    exact ⟨rfl, rfl, rfl, rfl, rfl, rfl, rfl, rfl, rfl, rfl, rfl⟩
  case joins =>
    intro d hdue hflushed
    exact Runs.of_does exec_powerFailFlush (by simp [flushStart, hdue, hflushed, holdupMod])
  case resets =>
    intro d hstep
    refine ⟨d.fl.dies.map fun q => (q.1, lunResetDone q.2), fun i x => ?_, fun harm => Runs.of_does exec_flushLunResetsDone ?_, fun harm => Runs.of_does exec_flushLunResetsDone ?_⟩
    · simp only [List.mem_map, Prod.mk.injEq, Prod.exists]
      constructor
      · rintro ⟨i, y, hy, rfl, rfl⟩
        exact ⟨y, hy, rfl⟩
      · rintro ⟨y, hy, rfl⟩
        exact ⟨i, y, hy, rfl, rfl⟩
    · rw [flushResetsDone_eq hstep]
      exact if_pos harm
    · rw [flushResetsDone_eq hstep]
      exact if_neg (by simpa [hoArmed] using harm)
  case flushEnd =>
    intro d m v hlets h0 h1 hen hstep
    refine ⟨Config.freeNat d.hw.free, Runs.of_regWrite (exec_flushEndWrite m v) hlets (by decide) ?_⟩
    rw [regWriteAt_holdupCtrl, holdupCtrlWrite_flushEnd ((bit_or_kept rfl v).trans h0) ((bit_or_kept rfl v).trans h1)
      (bit_or_forced rfl v) hen, bit_or_kept rfl]
    exact congrArg (Prod.mk Status.ok) (flushEnd_of_flush hstep)
  case deadline =>
    intro d hstep harm
    exact ⟨_, Runs.of_does exec_flushDeadlineExpiry (by simp only [flushDeadline, hstep, harm, decide_true, Bool.and_self, if_true, spend]; rfl)⟩
  case six =>
    intro d mib late
    obtain ⟨hw, sj, pwr, heq⟩ := flushSix_eq mib late d
    rw [heq]
    exact ⟨rfl, rfl, rfl, rfl, fun c hc hon => ballsSafe_safe hc hon⟩
  case back =>
    intro d hstep hsupply hcold
    refine Runs.of_does exec_supplyBack ?_
    have hruns : (decide (d.holdup.flushStep = 2) || decide (d.holdup.flushStep = 4)) = true := by simpa using hstep
    exact if_pos (by simp [hruns, hsupply, hcold])
  case cold =>
    intro d hstep hcold hhold hsupply
    refine ⟨_, Runs.of_does exec_coldRestart rfl, ?_⟩
    rw [coldRestart, if_pos (by simp [hstep, hcold, hhold, hsupply])]
    exact ⟨devReset_resetTo false d, devReset_pins false d, by rw [devReset_holdup]; rfl, by rw [devReset_holdup]; rfl⟩
  case hold =>
    intro d hhold hj hshdn hsupply
    refine ⟨devReset false d, devReset_resetTo false d, by rw [devReset_holdup]; rfl, Runs.of_does exec_shutdownHoldEnd ?_⟩
    have hclear : (!d.holdup.shdnJ || junctionClear d) = true := by
      simp only [junctionClear, Bool.or_eq_true, Bool.not_eq_true', decide_eq_true_eq]
      exact (Bool.eq_false_or_eq_true _).symm.imp_right hj
    rw [holdEnd, if_pos (by simp [hhold, hclear, hshdn, hsupply])]
    rfl

end Sys2Proof.Machine
end

section
/-!
PROOFS. Power domains: registers of a row that repeats, the domains' transitions and the requests at their gates.
-/

namespace Sys2Proof.Machine

/-! Registers of a row that repeats: the address gives the slot and the offset. -/

section
variable {c : Instr} {d e : Dev} {m a : Nat} {v : Word}

theorem IsReg.of_slot {s : Nat} (hlo : 0xF000000000 ≤ a) (hhi : a < 0xF001000000) (hs : regSlot a = s) (hrows : (slotRows s).isSome = true) :
    IsReg a := ⟨hlo, hhi, hs ▸ hrows⟩

/-- `Runs.of_regWrite` for a command with an index that is in range. -/
theorem Runs.of_regWrite_at {p : Bool} (hc : ∀ s, exec c s = onUnit (fun _ => masterOk m && p) (regWrite m a v) s) (hp : p = true)
    (h : d.lets (writeOf m a v)) (ha : IsReg a) (he : regWriteAt m a v d = (.ok, e)) : Runs c d (e.wrote m a v) :=
  Runs.of_onUnit hc (Bool.and_eq_true_iff.mpr ⟨h.masterOk, hp⟩) (regWrite_eq_wrote h ha he)

theorem regWriteAt_pwr (hs : regSlot a = 3) : regWriteAt m a v d = (.ok, pwrRegWrite (a % 0x10000) v d) := by simp [regWriteAt, hs]

end

section
variable {n : Nat} (hn : n < 96)
include hn

theorem regSlot_dctrl : regSlot (R.PWR_DCTRL n) = 3 := by unfold regSlot R.PWR_DCTRL; omega

theorem isReg_dctrl : IsReg (R.PWR_DCTRL n) := by
  refine IsReg.of_slot ?_ ?_ (regSlot_dctrl hn) rfl <;> unfold R.PWR_DCTRL <;> omega

/-- A write of PWR_DCTRL_n (R450). -/
theorem regWriteAt_dctrl (m : Nat) (v : Word) (d : Dev) :
    regWriteAt m (R.PWR_DCTRL n) v d = (.ok, detMoved n d (settle (dctrlWrite n v d))) := by
  have hoff : R.PWR_DCTRL n % 0x10000 = 0x1000 + 0x20 * n := by unfold R.PWR_DCTRL; omega
  have hidx : (0x1000 + 0x20 * n) % 0x1000 / 0x20 = n := by omega
  have hfield : (0x1000 + 0x20 * n) % 0x20 = 0 := by omega
  rw [regWriteAt_pwr (regSlot_dctrl hn), hoff, pwrRegWrite, if_pos (by omega), hidx]
  simp only [pwrWrite]
  rw [if_neg (by omega), if_neg (by omega), if_neg (by omega), if_pos (by omega), hidx]
  simp only [hfield]

end

/-! Domains (R447–R454). -/

theorem tabPut_tabPut_same {α : Type} (t : List (Nat × α)) (k : Nat) (v w : α) : tabPut (tabPut t k v) k w = tabPut t k w := by
  induction t with
  | nil => simp [tabPut]
  | cons p t ih =>
    obtain ⟨j, u⟩ := p
    simp only [tabPut]
    split
    · simp [tabPut]
    · split
      · simp [tabPut]
      next hlt hne => simp [tabPut, hlt, hne, ih]

theorem domPut_domPut_same (p : Pwr) (n : Nat) (x y : Dom) : domPut (domPut p n x) n y = domPut p n y := by
  simp only [domPut, tabPut_tabPut_same]

/-- Saving a unit's state leaves the domains as they are. -/
theorem domSave_pwr (n : Nat) (d : Dev) : (domSave n d).pwr = d.pwr := by
  unfold domSave
  split
  · unfold chanSave
    dsimp only
    split <;> rfl
  · split
    · simp only [clusterLeave]
    · rfl

theorem domSave_fuse (n : Nat) (d : Dev) : (domSave n d).fuse = d.fuse := by
  unfold domSave
  split
  · unfold chanSave
    dsimp only
    split <;> rfl
  · split
    · simp only [clusterLeave]
    · rfl

/-- A wake of a domain in RET restores it (R447). -/
theorem wakeReq_of_ret {d : Dev} {n : Nat} (hn : n ≠ 0) (hp : domPresent d.fuse n = true) (hret : (domGet d.pwr n).st = .ret) (src : Nat) :
    wakeReq n src d = { d with pwr := domPut d.pwr n { domGet d.pwr n with st := .waking, fromOff := false, src := src, wake := none } } := by
  simp [wakeReq, hn, hp, hret, domSet_eq]

/-- A wake of a domain at rest. -/
theorem wakeReq_of_rest {d : Dev} {n : Nat} (hn : n ≠ 0) (hp : domPresent d.fuse n = true)
    (hrest : (domGet d.pwr n).st = .off ∨ (domGet d.pwr n).st = .ret) (src : Nat) : wakeReq n src d = { d with
      pwr := domPut d.pwr n { domGet d.pwr n with
        st := .waking, fromOff := decide ((domGet d.pwr n).st = .off), src := src, wake := none } } := by
  rcases hrest with hoff | hret
  · rw [wakeReq_of_off hn hp hoff]
    simp [hoff]
  · rw [wakeReq_of_ret hn hp hret]
    simp [hret]

theorem dctrlWrite_absent {d : Dev} {n : Nat} (h : domPresent d.fuse n = false) (v : Word) : dctrlWrite n v d = d := by
  simp [dctrlWrite, h]

theorem dctrlWrite_pd0 (d : Dev) (v : Word) : dctrlWrite 0 v d = { d with
    hw := wr d.hw (R.PWR_DCTRL 0) ((rd d.hw (R.PWR_DCTRL 0) &&& ~~~0xC0#32) ||| (v &&& 0xC0#32)) } := by
  simp [dctrlWrite, domPresent, md, rwWrite]

theorem dctrlWrite_forceOn {d : Dev} {n : Nat} (hn : n ≠ 0) (hp : domPresent d.fuse n = true) {v : Word} (hv : fld v 0 2 = 1)
    (hrest : (domGet d.pwr n).st = .off ∨ (domGet d.pwr n).st = .ret) : dctrlWrite n v d = { d with
      hw := wr d.hw (R.PWR_DCTRL n) ((rd d.hw (R.PWR_DCTRL n) &&& ~~~0xC3#32) ||| (v &&& 0xC3#32))
      pwr := domPut d.pwr n { domGet d.pwr n with
        st := .waking, fromOff := decide ((domGet d.pwr n).st = .off), src := 4, wake := none } } := by
  simp only [dctrlWrite, hp, Bool.not_true, if_neg hn, hv, md, rwWrite]
  exact wakeReq_of_rest (d := { d with
    hw := wr d.hw (R.PWR_DCTRL n) ((rd d.hw (R.PWR_DCTRL n) &&& ~~~0xC3#32) ||| (v &&& 0xC3#32)) }) hn hp hrest 4

/-! A request at a closed gate (R448). -/

section
variable {d : Dev} {n m a size data : Nat} {write : Bool} {chk : Byte} (hm : masterOk m = true) (hclk : masterClocked d m = true)
  (hheld : storeHeld d m = false) (hdom : domOf d.hw a = n) (hchk : accessCheck d (fabReq m a size write data chk) = none)
  (hreg : regAbsent d a = false)
include hm hclk hheld hdom hchk hreg

/-- A request that passes the checks before the gate is decided by it. -/
theorem closedRequest_of_refuse (h : gateOf d n = .refuse) : closedRequest n (fabReq m a size write data chk) d =
    respond (fabReq m a size write data chk) .targetOff 0 (gateRefused d) := by
  have hres : masterReserved m = false := by simp [masterOk] at hm; exact hm.2
  have hbar : fetchBarred d (fabReq m a size write data chk) = false := by cases write <;> simp [fetchBarred, fabReq]
  have hat : domOf d.hw (fabReq m a size write data chk).addr = n := hdom
  rw [closedRequest, if_pos (by simp [hat, h]), access, if_neg (by simp [fabReq, hres, hclk, hheld]), if_neg (by simp [hbar])]
  simp only [hchk]
  rw [if_neg (by simp [fabReq, hreg])]
  simp only [hat, h]

theorem closedRequest_of_hold (h : gateOf d n = .hold) : closedRequest n (fabReq m a size write data chk) d =
    respWait (fabReq m a size write data chk) (gateHold n (fabReq m a size write data chk) d) := by
  have hres : masterReserved m = false := by simp [masterOk] at hm; exact hm.2
  have hbar : fetchBarred d (fabReq m a size write data chk) = false := by cases write <;> simp [fetchBarred, fabReq]
  have hat : domOf d.hw (fabReq m a size write data chk).addr = n := hdom
  rw [closedRequest, if_pos (by simp [hat, h]), access, if_neg (by simp [fabReq, hres, hclk, hheld]), if_neg (by simp [hbar])]
  simp only [hchk]
  rw [if_neg (by simp [fabReq, hreg])]
  simp only [hat, h]

end

/-! What a domain of working SRAM loses in OFF. -/

theorem domOfReg_ne_sram (h : Hw) (a : Nat) {n : Nat} (hlo : 91 ≤ n) (hhi : n ≤ 94) : domOfReg h a ≠ n := by
  have hbit : fld (rd h R.HOSTIF_CSEL) 16 1 < 2 ^ 1 := Nat.mod_lt _ (by decide)
  unfold domOfReg
  dsimp only
  split_ifs <;> omega

theorem regsLose_sram (h : Hw) {n : Nat} (hlo : 91 ≤ n) (hhi : n ≤ 94) : regsLose n h = h := by
  have hall : h.regs.filter (fun q => decide (domOfReg h q.1 ≠ n) || regKept q.1) = h.regs :=
    List.filter_eq_self.mpr fun q _ => by simp [domOfReg_ne_sram h q.1 hlo hhi]
  rw [regsLose, hall]

theorem domPresent_sram {f : Fuse} {n : Nat} (hlo : 91 ≤ n) (hhi : n ≤ 94) : domPresent f n = true := by
  rw [domPresent, if_neg (by omega), if_neg (by omega), if_neg (by omega), if_neg (by omega)]
  exact decide_eq_true (by omega)

theorem loseDom_sram (d : Dev) {n : Nat} (hlo : 91 ≤ n) (hhi : n ≤ 94) : loseDom n d = { d with hw := { d.hw with
    mem := memLose d.hw.mem (0x10000000 + (n - 91) * 0x1000000) (0x10000000 + (n - 91) * 0x1000000 + 0x1000000) none } } := by
  rw [loseDom, regsLose_sram d.hw hlo hhi]
  dsimp only
  rw [if_neg (by omega), if_neg (by omega), if_neg (by omega), if_neg (by omega), if_neg (by omega), if_neg (by omega),
    if_pos (by omega)]

/-- Settles O12: each clause by the equation of its operation in the state that the clause names. -/
theorem domainCommands : Obligations.DomainCommands := by
  refine ⟨?drains, ?offTimer, ?busy, ?ret, ?flushOff, ?turned, ?forceOn, ?pd0, ?absent, ?held, ?refused, ?on, ?wakeFail, ?stopped, ?off⟩
  case drains =>
    intro d n h0 hp hon hidle hflush hdue
    refine Runs.of_onUnit (exec_domainRetTimer n) hp ?_
    rw [retTimer, if_pos ⟨h0, hp, hon, hidle, hflush, by simpa using hdue⟩]
    rfl
  case offTimer =>
    intro d n h0 hp hret hdue
    refine Runs.of_onUnit (exec_domainOffTimer n) hp ?_
    have hmode : (decide (domMode d.hw n = 3) || (decide (domMode d.hw n = 0) && decide (fld (rd d.hw (R.PWR_OFFT n)) 0 20 ≠ 0))) = true := by
      simpa using hdue
    simp only [offTimer, hp, h0, hmode, tryOff, hret]
    by_cases hhold : holds d n = 0 <;> simp [hhold, domSet_eq]
  case busy =>
    intro d n hp hdrain hflush
    refine Runs.of_onUnit (exec_domainDrainEnd n true) hp ?_
    simp [drainEnd, hdrain, hflush, domSet_eq]
  case ret =>
    intro d n hp hdrain hflush hwake hmode
    refine Runs.of_onUnit (exec_domainDrainEnd n false) hp ?_
    simp [drainEnd, hdrain, hflush, hwake, hmode, domSet_eq, domSave_pwr]
  case flushOff =>
    intro d n busy h0 hp hdrain hflush
    refine Runs.of_onUnit (exec_domainDrainEnd n busy) hp ?_
    simp [drainEnd, hdrain, hflush, domSet_eq, domSave_pwr, domPut_domPut_same]
  case turned =>
    intro d n src h0 hp hdrain hflush hwake
    refine Runs.of_onUnit (exec_domainDrainEnd n false) hp ?_
    have hwaked : wakePending n (domSet n { domGet d.pwr n with st := .ret } (domSave n d)) = { domSave n d with
        pwr := domPut d.pwr n { domGet d.pwr n with st := .waking, fromOff := false, src := src, wake := none } } := by
      rw [wakePending, domSet_pwr, domGet_domPut_self h0]
      simp only [hwake]
      rw [wakeReq_of_ret h0 (by rw [domSet_fuse, domSave_fuse]; exact hp) (by rw [domSet_pwr, domGet_domPut_self h0])]
      simp only [domSet_eq, domGet_domPut_self h0, domPut_domPut_same, domSave_pwr]
    have hend : drainEnd n false d = wakePending n (domSet n { domGet d.pwr n with st := .ret } (domSave n d)) := by
      rw [drainEnd, if_neg (by simp [hdrain]), if_neg (by simp)]
      simp only [hflush, hwake, Option.isSome_some, if_true]
      rfl
    rw [hend, hwaked]
  case forceOn =>
    intro d m n v h0 hn hp hv hrest hlets
    refine Runs.of_regWrite_at (exec_domainModeWrite m n v) (decide_eq_true hn) hlets (isReg_dctrl hn) ?_
    rw [regWriteAt_dctrl hn, dctrlWrite_forceOn (by omega) hp hv hrest]
  case pd0 =>
    intro d m v hlets
    refine Runs.of_regWrite_at (exec_domainModeWrite m 0 v) rfl hlets (isReg_dctrl (by decide)) ?_
    rw [regWriteAt_dctrl (by decide), dctrlWrite_pd0]
    rfl
  case absent =>
    intro d m n v hn hp hlets
    refine Runs.of_regWrite_at (exec_domainModeWrite m n v) (decide_eq_true hn) hlets (isReg_dctrl hn) ?_
    rw [regWriteAt_dctrl hn, dctrlWrite_absent hp]
  case held =>
    intro d n m a size data write chk h0 hp hm hclk hheld hdom hchk hreg hoff hmode hwait hrest
    refine Runs.of_onUnit (exec_domainWakeRequest n m a size write ⟨data, chk⟩) (Bool.and_eq_true_iff.mpr ⟨hm, hp⟩) ?_
    have hgate : gateOf d n = .hold := by simp [gateOf, hoff, Nat.not_le.mpr hmode, hwait]
    rw [closedRequest_of_hold hm hclk hheld hdom hchk hreg hgate]
    exact congrArg (respWait _) (wakeReq_of_rest (d := { d with
      pwr := { d.pwr with held := d.pwr.held ++ [{ dom := n, req := fabReq m a size write data chk }] } }) h0 hp hrest 2)
  case refused =>
    intro d n m a size data write chk h0 hp hm hclk hheld hdom hchk hreg hoff hmode
    refine Runs.of_onUnit (exec_domainWakeRequest n m a size write ⟨data, chk⟩) (Bool.and_eq_true_iff.mpr ⟨hm, hp⟩) ?_
    have hgate : gateOf d n = .refuse := by
      rw [gateOf, if_neg (by simp [hoff]), if_pos (by simpa using hmode)]
    rw [closedRequest_of_refuse hm hclk hheld hdom hchk hreg hgate]
    cases write <;> simp [respond, gateRefused, hwMod, coreFault, fabReq]
  case on =>
    intro d n hp hwaking
    refine Runs.of_onUnit (exec_domainOnReached n) hp ?_
    simp only [domainOn, onReached, hwaking, ne_eq, not_true_eq_false, if_false, if_true, satAdd]
    rfl
  case wakeFail =>
    intro d n hp hwaking
    exact Runs.of_onUnit (exec_domainWakeFail n) hp (if_pos hwaking)
  case stopped =>
    intro d n h0 hp hgoing hflush hwake hhold
    refine Runs.of_onUnit (exec_domainOffReached n) hp ?_
    simp [offReached, hgoing, hflush, hhold, wakePending, domGet_domPut_self h0, hwake, domSet_eq]
  case off =>
    intro d n hlo hhi hgoing hwake hdue hseq
    have h0 : n ≠ 0 := by omega
    refine Runs.of_onUnit (exec_domainOffReached n) (domPresent_sram hlo hhi) ?_
    have hgo : ¬ (!(domGet d.pwr n).flushOff && decide (holds d n ≠ 0)) = true := by
      rcases hdue with h | h <;> simp [h]
    rw [offReached, if_neg (by simp [hgoing]), if_neg hgo, loseDom_sram d hlo hhi, wakePending, domSet_pwr, domGet_domPut_self h0]
    simp only [hwake]
    exact if_neg (by simp [domPut, hseq])

end Sys2Proof.Machine
end

section
/-!
PROOFS. Whistle: writes of its registers, filtered inputs, and claims in either half of the 40 ns of R411.
-/

namespace Sys2Proof.Machine

/-! Writes of Whistle's registers (R406–R412). -/

section
variable {m a : Nat} {v : Word} {d : Dev}

theorem regWriteAt_whistle (hs : regSlot a = 2) : regWriteAt m a v d = (.ok, whistleWrite (a % 0x10000) v d) := by simp [regWriteAt, hs]

theorem isReg_pendClr {j : Nat} (hj : j < 32) : IsReg (R.WH_PEND_CLR j) := by
  refine IsReg.of_slot (s := 2) ?_ ?_ ?_ rfl <;> simp only [regSlot, R.WH_PEND_CLR] <;> omega

theorem regWriteAt_pendClr {j : Nat} (hj : j < 32) : regWriteAt m (R.WH_PEND_CLR j) v d = (.ok, pendClear d j v) := by
  have hoff : R.WH_PEND_CLR j % 0x10000 = 0x1200 + 4 * j := by unfold R.WH_PEND_CLR; omega
  have hidx : (0x1200 + 4 * j) % 0x100 / 4 = j := by omega
  rw [regWriteAt_whistle (by simp only [regSlot, R.WH_PEND_CLR]; omega), hoff, whistleWrite, if_neg (by omega), if_neg (by omega),
    if_pos (by omega), hidx]

theorem isReg_mask {j kind : Nat} (hj : j < 32) (hk : kind < 3) : IsReg (maskAddr kind j) := by
  obtain rfl | rfl | rfl : kind = 0 ∨ kind = 1 ∨ kind = 2 := by omega
  all_goals refine IsReg.of_slot (s := 2) ?_ ?_ ?_ rfl <;>
    simp only [regSlot, maskAddr, R.WH_MASK, R.WH_MASK_SET, R.WH_MASK_CLR] <;> omega

theorem regWriteAt_mask {j kind : Nat} (hj : j < 32) (hk : kind < 3) : regWriteAt m (maskAddr kind j) v d = (.ok, maskWrite j kind v d) := by
  have hslot : regSlot (maskAddr kind j) = 2 := by
    obtain rfl | rfl | rfl : kind = 0 ∨ kind = 1 ∨ kind = 2 := by omega
    all_goals simp only [regSlot, maskAddr, R.WH_MASK, R.WH_MASK_SET, R.WH_MASK_CLR]; omega
  have hoff : maskAddr kind j % 0x10000 = 0x2000 + 0x100 * kind + 4 * j := by
    obtain rfl | rfl | rfl : kind = 0 ∨ kind = 1 ∨ kind = 2 := by omega
    all_goals simp only [maskAddr, R.WH_MASK, R.WH_MASK_SET, R.WH_MASK_CLR]; omega
  have hidx : (0x2000 + 0x100 * kind + 4 * j) % 0x100 / 4 = j := by omega
  rw [regWriteAt_whistle hslot, hoff, whistleWrite, hidx, if_neg (by omega), if_neg (by omega), if_neg (by omega)]
  obtain rfl | rfl | rfl : kind = 0 ∨ kind = 1 ∨ kind = 2 := by omega
  · rw [if_pos (by omega)]
  · rw [if_neg (by omega), if_pos (by omega)]
  · rw [if_neg (by omega), if_neg (by omega), if_pos (by omega)]

theorem isReg_route {s : Nat} (hs : s < 1024) : IsReg (R.WH_ROUTE s) := by
  refine IsReg.of_slot (s := 2) ?_ ?_ ?_ rfl <;> simp only [regSlot, R.WH_ROUTE] <;> omega

theorem regWriteAt_route {s : Nat} (hs : s < 1024) : regWriteAt m (R.WH_ROUTE s) v d = (.ok, routeWrite s v d) := by
  have hoff : R.WH_ROUTE s % 0x10000 = 0x4000 + 4 * s := by unfold R.WH_ROUTE; omega
  have hidx : (0x4000 + 4 * s) % 0x1000 / 4 = s := by omega
  rw [regWriteAt_whistle (by simp only [regSlot, R.WH_ROUTE]; omega), hoff, whistleWrite, if_neg (by omega), if_neg (by omega),
    if_neg (by omega), if_neg (by omega), if_neg (by omega), if_neg (by omega), if_pos (by omega), hidx]

theorem isReg_thresh {x : Nat} (hx : x < 32) : IsReg (R.WH_THRESH x) := by
  refine IsReg.of_slot (s := 2) ?_ ?_ ?_ rfl <;> simp only [regSlot, R.WH_THRESH] <;> omega

theorem regWriteAt_thresh {x : Nat} (hx : x < 32) : regWriteAt m (R.WH_THRESH x) v d = (.ok, threshWrite x v d) := by
  have hoff : R.WH_THRESH x % 0x10000 = 0x8000 + 0x20 * x := by unfold R.WH_THRESH; omega
  have hidx : (0x8000 + 0x20 * x) % 0x400 / 0x20 = x := by omega
  rw [regWriteAt_whistle (by simp only [regSlot, R.WH_THRESH]; omega), hoff, whistleWrite, if_neg (by omega), if_neg (by omega),
    if_neg (by omega), if_neg (by omega), if_neg (by omega), if_neg (by omega), if_neg (by omega), if_pos (by omega), hidx]

theorem isReg_xcfg {i : Nat} (hi : i < 16) : IsReg (R.WH_XCFG i) := by
  refine IsReg.of_slot (s := 2) ?_ ?_ ?_ rfl <;> simp only [regSlot, R.WH_XCFG] <;> omega

theorem regWriteAt_xcfg {i : Nat} (hi : i < 16) : regWriteAt m (R.WH_XCFG i) v d = (.ok, xcfgWrite i v d) := by
  have hoff : R.WH_XCFG i % 0x10000 = 0x400 + 4 * i := by unfold R.WH_XCFG; omega
  have hidx : (0x400 + 4 * i) % 0x100 / 4 = i := by omega
  rw [regWriteAt_whistle (by simp only [regSlot, R.WH_XCFG]; omega), hoff, whistleWrite, if_pos (by omega), hidx]

theorem isReg_mtimecmpLo {c : Nat} (hc : c < 16) : IsReg (R.WH_MTIMECMP_LO c) := by
  refine IsReg.of_slot (s := 2) ?_ ?_ ?_ rfl <;> simp only [regSlot, R.WH_MTIMECMP_LO] <;> omega

theorem isReg_mtimecmpHi {c : Nat} (hc : c < 16) : IsReg (R.WH_MTIMECMP_HI c) := by
  refine IsReg.of_slot (s := 2) ?_ ?_ ?_ rfl <;> simp only [regSlot, R.WH_MTIMECMP_HI] <;> omega

theorem regWriteAt_mtimecmpLo {c : Nat} (hc : c < 16) : regWriteAt m (R.WH_MTIMECMP_LO c) v d = (.ok, cmpLoWrite c v d) := by
  have hoff : R.WH_MTIMECMP_LO c % 0x10000 = 0xA000 + 8 * c := by unfold R.WH_MTIMECMP_LO; omega
  have hidx : (0xA000 + 8 * c) % 0x100 / 8 = c := by omega
  rw [regWriteAt_whistle (by simp only [regSlot, R.WH_MTIMECMP_LO]; omega), hoff, whistleWrite, if_neg (by omega), if_neg (by omega),
    if_neg (by omega), if_neg (by omega), if_neg (by omega), if_neg (by omega), if_neg (by omega), if_neg (by omega), if_pos (by omega),
    if_pos (by omega), hidx]

theorem regWriteAt_mtimecmpHi {c : Nat} (hc : c < 16) : regWriteAt m (R.WH_MTIMECMP_HI c) v d = (.ok, cmpHiWrite c v d) := by
  have hoff : R.WH_MTIMECMP_HI c % 0x10000 = 0xA004 + 8 * c := by unfold R.WH_MTIMECMP_HI; omega
  have hidx : (0xA004 + 8 * c) % 0x100 / 8 = c := by omega
  rw [regWriteAt_whistle (by simp only [regSlot, R.WH_MTIMECMP_HI]; omega), hoff, whistleWrite, if_neg (by omega), if_neg (by omega),
    if_neg (by omega), if_neg (by omega), if_neg (by omega), if_neg (by omega), if_neg (by omega), if_neg (by omega), if_pos (by omega),
    if_neg (by omega), hidx]

theorem isReg_msip {c : Nat} (hc : c < 16) : IsReg (R.WH_MSIP c) := by
  refine IsReg.of_slot (s := 2) ?_ ?_ ?_ rfl <;> simp only [regSlot, R.WH_MSIP] <;> omega

theorem regWriteAt_msip {c : Nat} (hc : c < 16) : regWriteAt m (R.WH_MSIP c) v d = (.ok, msipWrite c v d) := by
  have hoff : R.WH_MSIP c % 0x10000 = 0xA100 + 4 * c := by unfold R.WH_MSIP; omega
  have hidx : (0xA100 + 4 * c) % 0x100 / 4 = c := by omega
  rw [regWriteAt_whistle (by simp only [regSlot, R.WH_MSIP]; omega), hoff, whistleWrite, if_neg (by omega), if_neg (by omega),
    if_neg (by omega), if_neg (by omega), if_neg (by omega), if_neg (by omega), if_neg (by omega), if_neg (by omega), if_neg (by omega),
    if_pos (by omega), hidx]

theorem isReg_whClaim {x : Nat} (hx : x < 32) : IsReg (R.WH_CLAIM x) := by
  refine IsReg.of_slot (s := 2) ?_ ?_ ?_ rfl <;> simp only [regSlot, R.WH_CLAIM] <;> omega

end

theorem domPresent_cluster {f : Fuse} {k : Nat} (hk : k < 4) : domPresent f (73 + k) = true := by
  rw [domPresent, if_neg (by omega), if_neg (by omega), if_neg (by omega), if_neg (by omega)]
  exact decide_eq_true (by omega)

/-! A filtered input changes (R404). -/

theorem getLsbD_flip (w : BitVec 16) {i : Nat} (hi : i < 16) : (w ^^^ (1#16 <<< i)).getLsbD i = !w.getLsbD i := by
  simp [hi]

section
variable {d : Dev} {i : Nat} {lv : Bool}

/-- A device whose filtered input `i` has gone to `lv`, with the raw level that shows it. -/
def inputMoved (d : Dev) (i : Nat) (lv : Bool) : Dev :=
  { d with pins := { d.pins with
      filt := d.pins.filt ^^^ (1#16 <<< i)
      raw := if extDriven d i || d.pins.raw.getLsbD i == lv then d.pins.raw else d.pins.raw ^^^ (1#16 <<< i) } }

theorem extActive_inputMoved (hi : i < 16) (hne : d.pins.filt.getLsbD i ≠ lv) :
    extActive (inputMoved d i lv) i = decide (lv = (decide (4 ≤ i) && bit (rd d.hw (R.WH_XCFG i)) 9)) := by
  have hnew : (inputMoved d i lv).pins.filt.getLsbD i = lv := by
    have hflip : (inputMoved d i lv).pins.filt.getLsbD i = !d.pins.filt.getLsbD i := getLsbD_flip d.pins.filt hi
    rw [hflip]
    exact (Bool.eq_not.mpr hne.symm).symm
  have hpol : (if i < 4 then false else bit (rd d.hw (R.WH_XCFG i)) 9) = (decide (4 ≤ i) && bit (rd d.hw (R.WH_XCFG i)) 9) := by
    by_cases h4 : i < 4
    · simp [h4, Nat.not_le.mpr h4]
    · simp [h4, Nat.not_lt.mp h4]
  simp only [extActive, hnew]
  rw [← hpol]
  rfl

/-- An input that is no cause of a flush in progress makes its source pending where it goes active, and no more. -/
theorem filterChange_plain (hi : i < 16) (h2 : i ≠ 2) (hflush : i = 0 ∨ i = 3 → d.holdup.flushStep = 0) (hne : d.pins.filt.getLsbD i ≠ lv)
    (hdrive : extDriven d i = true → extSample d i = lv) : filterChange i lv d = { inputMoved d i lv with
      hw := if lv = (decide (4 ≤ i) && bit (rd d.hw (R.WH_XCFG i)) 9) then pendSet d.hw (352 + i) else d.hw } := by
  have hgo : ¬ (16 ≤ i ∨ d.pins.filt.getLsbD i = lv ∨ (extDriven d i = true ∧ extSample d i ≠ lv)) := by
    rintro (h | h | ⟨hd, hs⟩)
    · omega
    · exact hne h
    · exact hs (hdrive hd)
  have hpfail : ¬ (i = 0 ∧ extActive (inputMoved d i lv) i = true ∧ d.holdup.flushStep ≠ 0) := fun h => h.2.2 (hflush (.inl h.1))
  have hshdn : ¬ (i = 3 ∧ extActive (inputMoved d i lv) i = true ∧ d.holdup.flushStep ≠ 0) := fun h => h.2.2 (hflush (.inr h.1))
  rw [filterChange, if_neg hgo]
  refine (if_neg h2).trans ((if_neg hpfail).trans ((if_neg hshdn).trans ?_))
  have hact := extActive_inputMoved hi hne
  by_cases hlv : lv = (decide (4 ≤ i) && bit (rd d.hw (R.WH_XCFG i)) 9)
  · rw [if_pos hlv]
    exact if_pos (hact.trans (decide_eq_true hlv))
  · rw [if_neg hlv]
    exact if_neg fun h => hlv (of_decide_eq_true (hact.symm.trans h))

end

/-! Claims, in either half of the 40 ns of R411. -/

section
variable {d : Dev} {m x : Nat} {old : Bool}

theorem whClaim_saved {c : Nat} (h : d.wh.saved.getLsbD (c / 4) = true) (k : Nat) (old : Bool) : whClaim c k old d = (none, d) := by
  rw [whClaim, if_pos h]

theorem whClaim_old_none {c k : Nat} (h : whBest (whView d old) c k 1024 = none) : whClaim c k old d = (none, d) := by
  simp [whClaim, h]

theorem whClaim_old_some {c k s : Nat} (hsaved : d.wh.saved.getLsbD (c / 4) = false) (h : whBest (whView d old) c k 1024 = some s) :
    whClaim c k old d = (some s, { d with
      hw := wr (pendClear d (s / 32) (1#32 <<< (s % 32))).hw (R.WH_LAST (2 * c + k)) (BitVec.ofNat 32 (2147483648 + s))
      wh := { d.wh with stale := if old then whSpent c k s d.wh.stale else d.wh.stale } }) := by
  rw [whClaim, if_neg (by simp [hsaved])]
  simp only [h]
  rfl

/-- A claim read that reaches Whistle answers what the claim finds. -/
theorem claimRead_eq (hx : x < 32) (hlets : d.lets (readOf m (R.WH_CLAIM x))) : claimRead m x old d =
    Dev.read (whClaim (x / 2) (x % 2) old d).2 m (R.WH_CLAIM x)
      ((whClaim (x / 2) (x % 2) old d).1.elim 0#32 fun s => BitVec.ofNat 32 (2147483648 + s)) := by
  cases old with
  | false =>
    have hat := regReadAt_whClaim (c := x / 2) (x := x % 2) (by omega) (by omega) m d
    rw [show 2 * (x / 2) + x % 2 = x by omega] at hat
    have hread : claimRead m x false d = regRead m (R.WH_CLAIM x) d := rfl
    have hrng : R.WH_CLAIM x ≠ R.SIGV_RNG_DATA := by unfold R.WH_CLAIM R.SIGV_RNG_DATA; omega
    by_cases hsaved : d.wh.saved.getLsbD (x / 2 / 4) = true
    · rw [if_pos hsaved] at hat
      rw [hread, regRead_eq_read hlets (isReg_whClaim hx) hrng hat, whClaim_saved hsaved]
      rfl
    · rw [if_neg hsaved] at hat
      rw [hread, regRead_eq_read hlets (isReg_whClaim hx) hrng hat]
  | true =>
    obtain ⟨-, hres, hclk, -, -, hchk, -, hgate⟩ := hlets
    have hreach : (true && !masterReserved m && masterClocked d m && (accessCheck d (readReq m (R.WH_CLAIM x) 4 false)).isNone
        && decide (gateOf d (domOf d.hw (readReq m (R.WH_CLAIM x) 4 false).addr) = .pass)) = true := by
      have hchk' : accessCheck d (readReq m (R.WH_CLAIM x) 4 false) = none := hchk
      have hgate' : gateOf d (domOf d.hw (readReq m (R.WH_CLAIM x) 4 false).addr) = .pass := hgate
      have hres' : masterReserved m = false := hres
      have hclk' : masterClocked d m = true := hclk
      simp [hchk', hgate', hres', hclk']
    rw [claimRead, if_pos hreach]
    cases hbest : (whClaim (x / 2) (x % 2) true d).1 with
    | none => simp only [hbest]; rfl
    | some s =>
      have hs : s < 1024 := by
        unfold whClaim at hbest
        split at hbest
        · simp at hbest
        · revert hbest
          dsimp only
          split
          · simp
          next t ht => 
            intro hbest
            obtain rfl : t = s := by simpa using hbest
            exact (whFirst_of_whBest ht).lt
      have hword : (BitVec.ofNat 32 (2147483648 + s)).toNat = 2147483648 + s := Nat.mod_eq_of_lt (by omega)
      simp only [hbest, Dev.read, Option.elim_some, hword]
      rfl

end

/-- Settles O11: writes by `whistleWrite` at each register, claims by `claimRead_eq`, inputs by `filterChange`. -/
theorem interruptCommands : Obligations.InterruptCommands := by
  refine ⟨?level, ?alert, ?pfail, ?pendSet, ?pendClr, ?mask, ?claim, ?claimNone, ?route, ?thresh, ?xcfg, ?cmpLo, ?cmpHi, ?compare, ?msip, ?wake⟩
  case level =>
    intro d i lv hi h2 hflush hne hdrive
    exact Runs.of_onUnit (exec_filteredLevelChange i lv) (decide_eq_true hi) (filterChange_plain hi h2 hflush hne hdrive)
  case alert =>
    intro d lv hne
    refine Runs.of_onUnit (exec_filteredLevelChange 2 lv) rfl ?_
    have hact : extActive (inputMoved d 2 lv) 2 = !lv := by
      rw [extActive_inputMoved (by decide) hne]
      cases lv <;> rfl
    have hdriven : extDriven d 2 = false := rfl
    have hgo : ¬ (16 ≤ 2 ∨ d.pins.filt.getLsbD 2 = lv ∨ (extDriven d 2 = true ∧ extSample d 2 ≠ lv)) := by
      rintro (h | h | ⟨h, -⟩)
      · omega
      · exact hne h
      · simp [hdriven] at h
    rw [filterChange, if_neg hgo]
    refine (if_pos rfl).trans ?_
    generalize hgen : extActive _ 2 = act
    obtain rfl : act = !lv := hgen.symm.trans hact
    cases lv <;> rfl
  case pfail =>
    intro d hhigh hflush
    have hact : extActive (inputMoved d 0 false) 0 = true := extActive_inputMoved (by decide) (by simp [hhigh])
    have hgo : ¬ (16 ≤ 0 ∨ d.pins.filt.getLsbD 0 = false ∨ (extDriven d 0 = true ∧ extSample d 0 ≠ false)) := by
      simp [hhigh, extDriven]
    refine ⟨{ inputMoved d 0 false with hw := pendSet d.hw 352, holdup := { d.holdup with coldAfter := true } },
      Runs.of_onUnit (exec_filteredLevelChange 0 false) rfl ?_, rfl, rfl, rfl⟩
    rw [filterChange, if_neg hgo]
    refine (if_neg (by decide)).trans ((if_pos ⟨rfl, hact, hflush⟩).trans ?_)
    exact congrArg (holdupMod fun x => { x with coldAfter := true }) (if_pos hact)
  case pendSet =>
    intro d m j v hj hlets
    exact runs_pendingSetAlias hj hlets
  case pendClr =>
    intro d m j v hj hlets
    refine ⟨rd (pendClear d j v).hw (R.WH_PEND j), Runs.of_regWrite_at (exec_pendingClearAlias m j v) (decide_eq_true hj) hlets (isReg_pendClr hj) ?_,
      fun i hi => ?_⟩
    · rw [regWriteAt_pendClr hj]
      simp [pendClear]
    · rw [bit_pendClear d j v hi]
      simp
  case mask =>
    intro d m j kind v hj hk hlets
    refine Runs.of_onUnit (exec_maskWrite m j kind v) (Bool.and_eq_true_iff.mpr ⟨Bool.and_eq_true_iff.mpr ⟨hlets.masterOk, decide_eq_true hj⟩, decide_eq_true hk⟩) ?_
    refine (regWrite_eq_wrote hlets (isReg_mask hj hk) (regWriteAt_mask hj hk)).trans ?_
    obtain rfl | rfl | rfl : kind = 0 ∨ kind = 1 ∨ kind = 2 := by omega
    all_goals rfl
  case claim =>
    intro d m x s old hx hs hsaved hlets helig hfirst
    have hcluster : x / 2 / 4 = x / 8 := by omega
    have hbest : whBest (whView d old) (x / 2) (x % 2) 1024 = some s :=
      whBest_of_whFirst ⟨hs, helig, fun t ht het hne => hfirst t ht hne het⟩
    have hclaim := whClaim_old_some (d := d) (old := old) (by rw [hcluster]; exact hsaved) hbest
    rw [show 2 * (x / 2) + x % 2 = x by omega] at hclaim
    refine ⟨rd (pendClear d (s / 32) (1#32 <<< (s % 32))).hw (R.WH_PEND (s / 32)), Runs.of_onUnit (exec_whClaim m x old)
      (Bool.and_eq_true_iff.mpr ⟨hlets.masterOk, decide_eq_true hx⟩) ?_, fun i hi => ?_⟩
    · rw [claimRead_eq hx hlets, hclaim]
      simp [pendClear]
    · rw [bit_pendClear _ _ _ hi, bit_one_shl _ _ (by omega)]
      by_cases his : i = s % 32
      · subst his
        simp [Nat.div_add_mod]
      · simp [his]
  case claimNone =>
    intro d m x old hx hlets hnone
    refine Runs.of_onUnit (exec_whClaim m x old) (Bool.and_eq_true_iff.mpr ⟨hlets.masterOk, decide_eq_true hx⟩) ?_
    have hcluster : x / 2 / 4 = x / 8 := by omega
    have hclaim : whClaim (x / 2) (x % 2) old d = (none, d) := by
      rcases hnone with hsaved | hnone
      · exact whClaim_saved (by rw [hcluster]; exact hsaved) _ _
      · exact whClaim_old_none (whBest_eq_none_iff.mpr hnone)
    rw [claimRead_eq hx hlets, hclaim]
    rfl
  case route =>
    intro d m s v hs hlets
    exact Runs.of_regWrite_at (exec_whRouteWrite m s v) (decide_eq_true hs) hlets (isReg_route hs) (regWriteAt_route hs)
  case thresh =>
    intro d m x v hx hlets
    exact Runs.of_regWrite_at (exec_whThreshWrite m x v) (decide_eq_true hx) hlets (isReg_thresh hx) (regWriteAt_thresh hx)
  case xcfg =>
    intro d m i v hi hlets
    exact Runs.of_regWrite_at (exec_whXcfgWrite m i v) (decide_eq_true hi) hlets (isReg_xcfg hi) (regWriteAt_xcfg hi)
  case cmpLo =>
    intro d m c v hc hlets
    exact Runs.of_regWrite_at (exec_whMtimecmpLoWrite m c v) (decide_eq_true hc) hlets (isReg_mtimecmpLo hc) (regWriteAt_mtimecmpLo hc)
  case cmpHi =>
    intro d m c v lo hc hlets hlo
    refine Runs.of_regWrite_at (exec_whMtimecmpHiWrite m c v) (decide_eq_true hc) hlets (isReg_mtimecmpHi hc)
      ((regWriteAt_mtimecmpHi hc).trans (congrArg (Prod.mk Status.ok) ?_))
    have hne : R.WH_MTIMECMP_LO c ≠ R.WH_MTIMECMP_HI c := by unfold R.WH_MTIMECMP_LO R.WH_MTIMECMP_HI; omega
    have hcmp : mtimecmp (wr (wr d.hw (R.WH_MTIMECMP_LO c) lo) (R.WH_MTIMECMP_HI c) v) c = lo.toNat + 0x100000000 * v.toNat := by
      rw [mtimecmp, rd_wr_same, rd_wr_other _ _ _ _ hne, rd_wr_same]
    simp only [cmpHiWrite, hlo, mtipFollow, hcmp]
    rfl
  case compare =>
    intro d c hc hdue
    exact Runs.of_onUnit (exec_timerCompareReached c) (decide_eq_true hc) (by simp only [timerReached, mtipFollow, if_pos hdue])
  case msip =>
    intro d m c v hc hlets
    exact Runs.of_regWrite_at (exec_whMsipWrite m c v) (decide_eq_true hc) hlets (isReg_msip hc) (regWriteAt_msip hc)
  case wake =>
    intro d k hk hsaved hwork hrest
    refine Runs.of_onUnit (exec_whistleWake k) (decide_eq_true hk) ?_
    rw [whistleWake, if_pos (by simp only [hsaved, hwork, Bool.and_self])]
    exact wakeReq_of_rest (by omega) (domPresent_cluster hk) hrest 3

end Sys2Proof.Machine
end

section
/-!
PROOFS. The fabric: reads that latch, items of command interfaces, and accesses to protected memory.
-/

namespace Sys2Proof.Machine

/-! Reads that latch a high word (R32), at the registers of a row that repeats. -/

section
variable {c : Instr} {d e : Dev} {m a : Nat} {w : Word}

/-- `Runs.of_regRead` for a command with an index that is in range. -/
theorem Runs.of_regRead_at {p : Bool} (hc : ∀ s, exec c s = onUnit (fun _ => masterOk m && p) (regRead m a) s) (hp : p = true)
    (h : d.lets (readOf m a)) (ha : IsReg a) (hn : a ≠ R.SIGV_RNG_DATA) (he : regReadAt m a d = (w, e)) : Runs c d (e.read m a w) :=
  Runs.of_onUnit hc (Bool.and_eq_true_iff.mpr ⟨h.masterOk, hp⟩) (regRead_eq_read h ha hn he)

end

section
variable {n : Nat} (hn : n < 96)
include hn

theorem isReg_lwTimeLo : IsReg (R.PWR_LW_TIME_LO n) := by
  refine IsReg.of_slot (s := 3) ?_ ?_ ?_ rfl <;> simp only [regSlot, R.PWR_LW_TIME_LO] <;> omega

theorem regReadAt_lwTimeLo (m : Nat) (d : Dev) : regReadAt m (R.PWR_LW_TIME_LO n) d = if domPresent d.fuse n = true then
    (BitVec.ofNat 32 (domGet d.pwr n).at_.toNat,
      { d with hw := mwr d.hw (R.PWR_LW_TIME_HI n) m (BitVec.ofNat 32 ((domGet d.pwr n).at_.toNat / 0x100000000)) })
    else (0#32, d) := by
  have hslot : regSlot (R.PWR_LW_TIME_LO n) = 3 := by simp only [regSlot, R.PWR_LW_TIME_LO]; omega
  have hoff : R.PWR_LW_TIME_LO n % 0x10000 = 0x1014 + 0x20 * n := by unfold R.PWR_LW_TIME_LO; omega
  have hidx : (0x1014 + 0x20 * n) % 0x1000 / 0x20 = n := by omega
  have hfield : (0x1014 + 0x20 * n) % 0x20 = 0x14 := by omega
  simp only [regReadAt, hslot, hoff]
  rw [pwrRead, if_neg (by omega), if_pos (by omega), hidx]
  by_cases hp : domPresent d.fuse n = true
  · simp only [hp, hfield, Bool.not_true, if_true]
    rfl
  · simp only [hp, Bool.not_false, if_true]
    rfl

end

theorem isReg_ptmLo {p : Nat} (hp : p < 2) : IsReg (R.HOSTIF_PTM_LO p) := by
  refine IsReg.of_slot (s := 12) ?_ ?_ ?_ rfl <;> simp only [regSlot, R.HOSTIF_PTM_LO] <;> omega

theorem regReadAt_ptmLo {p : Nat} (hp : p < 2) (m : Nat) (d : Dev) : regReadAt m (R.HOSTIF_PTM_LO p) d =
    (BitVec.ofNat 32 (portGet d p).ptmOffset.toNat,
      { d with hw := mwr d.hw (R.HOSTIF_PTM_HI p) m (BitVec.ofNat 32 ((portGet d p).ptmOffset.toNat / 0x100000000)) }) := by
  obtain rfl | rfl : p = 0 ∨ p = 1 := by omega
  all_goals rfl

/-! Items of command interfaces (R347). -/

/-- The address of an argument is a register of its block. -/
theorem isReg_of_itemArgAddr {a : Nat} (h : itemArgAddr a = true) : IsReg a := by
  simp only [itemArgAddr, Bool.and_eq_true, decide_eq_true_eq] at h
  obtain ⟨⟨hlo, hhi⟩, hslot⟩ := h
  refine ⟨hlo, by unfold regBase at hhi; omega, ?_⟩
  split at hslot
  next hs => rw [hs]; rfl
  next hs => rw [hs]; rfl
  next hs => rw [hs]; rfl
  next hs => rw [hs]; rfl
  next s _ _ _ _ =>
    simp only [Bool.and_eq_true, decide_eq_true_eq] at hslot
    obtain ⟨⟨⟨⟨h32, h36⟩, -⟩, -⟩, -⟩ := hslot
    obtain hs | hs | hs | hs : regSlot a = 32 ∨ regSlot a = 33 ∨ regSlot a = 34 ∨ regSlot a = 35 := by omega
    all_goals rw [hs]; rfl

/-- A write of an argument goes to the item of its block and master. -/
theorem regWriteAt_itemArg {a : Nat} (h : itemArgAddr a = true) (m : Nat) (v : Word) (d : Dev) : regWriteAt m a v d =
    ((itemWrite d.hw (regSlot a) m (a % 0x10000) v).1, { d with hw := (itemWrite d.hw (regSlot a) m (a % 0x10000) v).2 }) := by
  simp only [itemArgAddr, Bool.and_eq_true, Bool.or_eq_true, decide_eq_true_eq] at h
  obtain ⟨⟨hlo, hhi⟩, hslot⟩ := h
  split at hslot
  next hs =>
    simp only [Bool.or_eq_true, decide_eq_true_eq] at hslot
    obtain (ho | ho) | ho := hslot <;> simp [regWriteAt, hs, ho]
  next hs =>
    simp only [Bool.or_eq_true, decide_eq_true_eq] at hslot
    obtain ho | ho := hslot <;> simp [regWriteAt, hs, ho, curdWrite]
  next hs =>
    simp only [Bool.or_eq_true, decide_eq_true_eq] at hslot
    obtain (ho | ho) | ho := hslot <;> simp [regWriteAt, hs, ho, kvWrite]
  next hs =>
    simp only [Bool.or_eq_true, decide_eq_true_eq] at hslot
    obtain (ho | ho) | ho := hslot <;> simp [regWriteAt, hs, ho, hostifRegWrite]
  next s _ _ _ _ =>
    simp only [Bool.and_eq_true, decide_eq_true_eq] at hslot
    obtain ⟨⟨⟨⟨h32, h36⟩, h10⟩, h40⟩, h4⟩ := hslot
    obtain hs | hs | hs | hs : regSlot a = 32 ∨ regSlot a = 33 ∨ regSlot a = 34 ∨ regSlot a = 35 := by omega
    all_goals simp [regWriteAt, hs, cipherWrite, h10, h40, h4]

/-! Protected memory (R349, R351, R353). -/

/-- What a read of up to a word finds in a defined word. -/
theorem memRead_of_memRaw {h : Hw} {a size : Nat} {w : DWord} {c : Byte} (hr : memRaw h.mem (a / 8 * 8) = some (w, c))
    (hlo : 0 < size) (hhi : size ≤ 8) : memRead h a size = match secClass w c with
      | .good x => (some (x.toNat / 256 ^ (a % 8) % 256 ^ size), h)
      | .corrected x => (some (x.toNat / 256 ^ (a % 8) % 256 ^ size), memCe h (a / 8 * 8))
      | .uncorrectable => (none, memUe h (a / 8 * 8) false)
      | .poisoned => (none, memUe h (a / 8 * 8) true) := by
  have hone : (size + 7) / 8 = 1 := by omega
  simp only [memRead, hone, memReadWords, memReadWord, memLook_of_memRaw hr]
  cases secClass w c <;> simp [wordsNat]

theorem accessRead_memory {d : Dev} {q : Req} (hq : (regionOf d.hw q.addr).isMemory) : accessRead q d =
    match (memRead d.hw q.addr q.size).1 with
    | some v => respond q .ok v { d with hw := (memRead d.hw q.addr q.size).2 }
    | none => respond q .unrecovered 0 { d with hw := (memRead d.hw q.addr q.size).2 } := by
  obtain hq | hq | hq := hq <;> simp only [accessRead, hq] <;> rfl

theorem accessWrite_word {d : Dev} {q : Req} (hq : (regionOf d.hw q.addr).isMemory) (hs : q.size = 8) : accessWrite q d =
    respond q .ok 0 { d with hw := memWriteWord d.hw q.addr (BitVec.ofNat 64 q.data) (BitVec.ofNat 8 q.chk) } := by
  obtain hq | hq | hq := hq <;> simp only [accessWrite, hq, if_pos hs]

/-- An access that passes the fabric's checks has a size. -/
theorem pos_of_accessCheck {d : Dev} {q : Req} (h : accessCheck d q = none) : 0 < q.size := by
  rcases Nat.eq_zero_or_pos q.size with h0 | h0
  · unfold accessCheck at h
    rw [h0] at h
    split at h <;> simp [sizeOk] at h
  · exact h0

/-- Settles O10: latched reads, items and memory accesses by what each register or word answers. -/
theorem fabricCommands : Obligations.FabricCommands := by
  refine ⟨?held, ?barred, ?fabmon, ?time, ?ptm, ?ver, ?mtime, ?lwTime, ?slotCtr, ?herder, ?item, ?read, ?word, ?bytes⟩
  case held =>
    intro d q h
    refine if_pos ?_
    rcases h with h | h | h <;> simp [h]
  case barred =>
    intro d q hres hclk hheld hbar
    rw [access, if_neg (by simp [hres, hclk, hheld]), if_pos hbar]
  case fabmon =>
    intro d grant hop
    exact Runs.of_does (exec_fabmonUpdate grant hop) rfl
  case time =>
    intro d m hlets
    exact Runs.of_regRead (exec_idTimeLoRead m) hlets (by decide) (by decide) rfl
  case ptm =>
    intro d m p hp hlets
    have hrng : R.HOSTIF_PTM_LO p ≠ R.SIGV_RNG_DATA := by unfold R.HOSTIF_PTM_LO R.SIGV_RNG_DATA; omega
    exact Runs.of_regRead_at (exec_hostifPtmLoRead m p) (decide_eq_true hp) hlets (isReg_ptmLo hp) hrng (regReadAt_ptmLo hp m d)
  case ver =>
    intro d m hlets
    exact Runs.of_regRead (exec_mapuVerLoRead m) hlets (by decide) (by decide) rfl
  case mtime =>
    intro d m hlets
    exact Runs.of_regRead (exec_affineurMtimeLoRead m) hlets (by decide) (by decide) rfl
  case lwTime =>
    intro d m n hn hlets
    have hrng : R.PWR_LW_TIME_LO n ≠ R.SIGV_RNG_DATA := by unfold R.PWR_LW_TIME_LO R.SIGV_RNG_DATA; omega
    have hat := regReadAt_lwTimeLo hn m d
    split
    next hp =>
      rw [if_pos hp] at hat
      exact Runs.of_regRead_at (exec_pwrLwTimeLoRead m n) (decide_eq_true hn) hlets (isReg_lwTimeLo hn) hrng hat
    next hp =>
      rw [if_neg hp] at hat
      exact Runs.of_regRead_at (exec_pwrLwTimeLoRead m n) (decide_eq_true hn) hlets (isReg_lwTimeLo hn) hrng hat
  case slotCtr =>
    intro d m hlets
    exact Runs.of_regRead (exec_kvSlotCtrLoRead m) hlets (by decide) (by decide) rfl
  case herder =>
    intro d m a v r hlo hhi hstat hen hrow hlets
    have hslot : regSlot a = 13 := by unfold regSlot; omega
    have hreg : IsReg a := IsReg.of_slot (by omega) (by omega) hslot rfl
    refine Runs.of_regWrite (exec_registerWrite m a v) hlets hreg ?_
    have hplain : ∀ x : Dev, plainWrite a v x = { x with hw := wr x.hw a (w1cWrite r.w1c (rwWrite r.rw (rd x.hw a) v) v) } := by
      intro x
      have hst : a ≠ irqHerder.st := hstat
      have hen' : a ≠ irqHerder.en := hen
      simp only [plainWrite, hslot, slotIrq, if_neg hst, if_neg hen', hrow]
      rfl
    have hmod : a % 0x10000 % 0x10 = a % 16 := by omega
    simp only [regWriteAt, hslot, hmod]
    split
    · rw [rbWrite, hplain]
    · rw [hplain]
  case item =>
    intro d m a v ha hlets
    have hrun := Runs.of_onUnit (d := d) (exec_itemArgWrite m a v) (Bool.and_eq_true_iff.mpr ⟨hlets.masterOk, ha⟩) rfl
    rw [regWrite_lets hlets ((isReg_of_itemArgAddr ha).regionOf _), regWriteAt_itemArg ha] at hrun
    simp only [itemWrite] at hrun
    by_cases hfl : (itemGet d.hw (regSlot a) m).flushed = true
    · simpa only [hfl, if_true] using hrun
    · simp only [hfl, if_false] at hrun ⊢
      exact hrun
  case read =>
    intro d m a size fetch w c hsize hlets hmem hraw
    have hpos : 0 < size := pos_of_accessCheck hlets.2.2.2.2.2.1
    have hkind : (readReq m a size fetch).kind ≠ .write := by cases fetch <;> simp [readReq]
    refine Runs.of_onUnit (exec_memoryRead m a size fetch) hlets.masterOk ?_
    rw [access_lets hlets, accessTarget, if_neg hkind, accessRead_memory (q := readReq m a size fetch) hmem]
    have hread : memRead d.hw (readReq m a size fetch).addr (readReq m a size fetch).size = memRead d.hw a size := rfl
    rw [hread, memRead_of_memRaw hraw hpos hsize]
    cases secClass w c <;> rfl
  case word =>
    intro d m a data chk hlets hmem
    refine Runs.of_onUnit (exec_memoryWrite m a data chk) hlets.masterOk ?_
    rw [access_lets hlets, accessTarget, if_pos (show (wordReq m a data chk).kind = .write from rfl), accessWrite_word (q := wordReq m a data chk) hmem rfl]
    simp [wordReq, memWriteWord]
  case bytes =>
    intro d m a bs w c hlen hlets hmem hraw
    refine Runs.of_onUnit (exec_partialWrite m a bs) (Bool.and_eq_true_iff.mpr ⟨hlets.masterOk, decide_eq_true hlen⟩) ?_
    have hdram : isDram a = decide (0x100000000 ≤ a / 8 * 8) := decide_eq_decide.mpr (by omega)
    rw [access_bytesReq hlets hmem hlen]
    simp only [memPartial, memLook_of_memRaw hraw, hdram, decide_eq_true_eq]
    cases secClass w c with
    | good x => rfl
    | corrected x => rfl
    | uncorrectable => by_cases hd : 0x100000000 ≤ a / 8 * 8 <;> simp only [hd, if_true, if_false]
    | poisoned => by_cases hd : 0x100000000 ≤ a / 8 * 8 <;> simp only [hd, if_true, if_false]

end Sys2Proof.Machine
end

section
/-!
PROOFS. Curd: the pools' enabling, initialisation, grants and releases.
-/

namespace Sys2Proof.Machine

/-! Gates of the domains that an operation needs. -/

theorem gateOf_of_on {d : Dev} {n : Nat} (h : domOn d.pwr n = true) : gateOf d n = .pass := if_pos h

/-- With every domain ON the operation is carried out. -/
theorem onceOpen_of_on {doms : List Nat} {d : Dev} (h : ∀ n ∈ doms, domOn d.pwr n = true) (f : Dev → Dev) : onceOpen doms f d = f d := by
  have hnone : doms.find? (fun n => decide (gateOf d n ≠ .pass)) = none :=
    List.find?_eq_none.mpr fun n hn => by simp [gateOf_of_on (h n hn)]
  rw [onceOpen, hnone]

/-! Enabling the pools (R337, R338). -/

theorem regWriteAt_curdCtrl (m : Nat) (v : Word) (d : Dev) : regWriteAt m R.CURD_CTRL v d = (.ok, curdCtrlWrite v d) := rfl

/-- The checks of EN pass: aligned regions in memory that do not overlap, and no more than 65,536 buffers. -/
theorem curdCheck_ok {h : Hw}
    (hreg : ∀ c < 6, curdCount h c ≠ 0 → curdBase h c % curdSize c = 0 ∧
      curdInMem h (curdBase h c) (curdBase h c + curdCount h c * curdSize c) = true)
    (hsep : ∀ c < 6, ∀ e < 6, c < e → curdCount h c ≠ 0 → curdCount h e ≠ 0 →
      curdBase h c + curdCount h c * curdSize c ≤ curdBase h e ∨ curdBase h e + curdCount h e * curdSize e ≤ curdBase h c)
    (hsum : curdCount h 0 + curdCount h 1 + curdCount h 2 + curdCount h 3 + curdCount h 4 + curdCount h 5 ≤ 65536)
    (hinit : bit (rd h R.DRAMC_STAT) 23 = false) : curdCheck h = .ok := by
  have hmem : ∀ c, c ∈ curdClasses h ↔ c < 6 ∧ curdCount h c ≠ 0 := by simp [curdClasses]
  have halign : (curdClasses h).any (fun c => decide (curdBase h c % curdSize c ≠ 0)) = false :=
    List.any_eq_false.mpr fun c hc => by
      obtain ⟨h6, h0⟩ := (hmem c).mp hc
      simp [(hreg c h6 h0).1]
  have hrange : (curdClasses h).any (fun c => !curdInMem h (curdRegion h c).1 (curdRegion h c).2) = false :=
    List.any_eq_false.mpr fun c hc => by
      obtain ⟨h6, h0⟩ := (hmem c).mp hc
      simpa [curdRegion] using (hreg c h6 h0).2
  have hover : (curdClasses h).any (fun c => (curdClasses h).any (fun e => decide (c < e)
      && overlaps (curdRegion h c).1 (curdRegion h c).2 (curdRegion h e).1 (curdRegion h e).2)) = false :=
    List.any_eq_false.mpr fun c hc => by
      obtain ⟨h6, h0⟩ := (hmem c).mp hc
      rw [Bool.not_eq_true, List.any_eq_false]
      intro e he
      obtain ⟨h6', h0'⟩ := (hmem e).mp he
      by_cases hlt : c < e
      · rcases hsep c h6 e h6' hlt h0 h0' with hsep | hsep <;> simp [overlaps, curdRegion, Nat.not_lt.mpr hsep]
      · simp [hlt]
  have htotal : ((curdClasses h).map (fun c => curdCount h c)).sum ≤ 65536 := by
    refine le_trans (le_of_eq ?_) hsum
    have hfilter : ∀ l : List Nat, ((l.filter (fun c => decide (curdCount h c ≠ 0))).map (fun c => curdCount h c)).sum
        = (l.map (fun c => curdCount h c)).sum := by
      intro l
      induction l with
      | nil => rfl
      | cons c l ih => by_cases h0 : curdCount h c = 0 <;> simp_all
    rw [curdClasses, hfilter]
    simp [List.range_succ, Nat.add_assoc]
  rw [curdCheck]
  simp only [halign, hrange, hover, hinit, Nat.not_lt.mpr htotal, Bool.false_and, if_false]
  rfl

theorem curdEnable_initialises {d : Dev} (hen : bit (rd d.hw R.CURD_CTRL) 0 = false) (hfree : d.curd.bufs = [])
    (hok : curdCheck d.hw = .ok) : curdEnable d = { d with
      hw := wr (wr d.hw R.CURD_CTRL (setBit (rd d.hw R.CURD_CTRL) 0)) R.CURD_STAT (putBit (putFld (rd d.hw R.CURD_STAT) 28 4 0) 27 true)
      curd := { d.curd with free := [], initNext := ((List.range 6).filter (fun c => decide (curdCount d.hw c ≠ 0))).map (fun c => (c, 0)) } } := by
  simp (disch := decide) [curdEnable, hen, curdBusy, hfree, hok, md, rd_wr_other, curdClasses]

theorem curdEnable_resumes {d : Dev} (hen : bit (rd d.hw R.CURD_CTRL) 0 = false) (hbusy : d.curd.bufs ≠ []) : curdEnable d = { d with
    hw := wr (wr d.hw R.CURD_CTRL (setBit (rd d.hw R.CURD_CTRL) 0)) R.CURD_STAT (putFld (rd d.hw R.CURD_STAT) 28 4 0) } := by
  simp (disch := decide) [curdEnable, hen, curdBusy, hbusy, md, rd_wr_other]

/-! Initialisation (R338). -/

/-- A device that the initialisation of the pools may leave: free lists, CURD's interrupts and memory differ, and zero bytes stay zero. -/
structure InitStep (d e : Dev) : Prop where
  frame : e = { d with hw := e.hw, curd := { d.curd with free := e.curd.free } }
  regs : ∀ a, a ≠ R.CURD_INT_STAT → a ≠ R.WH_PEND 7 → rd e.hw a = rd d.hw a
  zero : ∀ a, storeByte d.hw.mem.data a = some 0#8 → storeByte e.hw.mem.data a = some 0#8

theorem InitStep.refl (d : Dev) : InitStep d d := ⟨rfl, fun _ _ _ => rfl, fun _ => id⟩

theorem InitStep.trans {d e f : Dev} (h : InitStep d e) (k : InitStep e f) : InitStep d f where
  frame := by rw [k.frame, h.frame]
  regs a h1 h2 := (k.regs a h1 h2).trans (h.regs a h1 h2)
  zero a h0 := k.zero a (h.zero a h0)

section
variable {d e : Dev} (h : InitStep d e)
include h

theorem InitStep.curdBase (c : Nat) (hc : c < 6) : curdBase e.hw c = curdBase d.hw c := by
  have h1 := h.regs (R.CURD_CBASE_LO c) (by unfold R.CURD_CBASE_LO R.CURD_INT_STAT; omega) (by unfold R.CURD_CBASE_LO R.WH_PEND; omega)
  have h2 := h.regs (R.CURD_CBASE_HI c) (by unfold R.CURD_CBASE_HI R.CURD_INT_STAT; omega) (by unfold R.CURD_CBASE_HI R.WH_PEND; omega)
  simp only [Machine.curdBase, h1, h2]

theorem InitStep.curdCount (c : Nat) (hc : c < 6) : curdCount e.hw c = curdCount d.hw c := by
  have h1 := h.regs (R.CURD_CCOUNT c) (by unfold R.CURD_CCOUNT R.CURD_INT_STAT; omega) (by unfold R.CURD_CCOUNT R.WH_PEND; omega)
  simp only [Machine.curdCount, h1]

theorem InitStep.collarOk (m : Nat) (k : Acc) (a size : Nat) : collarOk e m k a size = collarOk d m k a size := by
  have hstat := h.regs R.DRAMC_STAT (by decide) (by decide)
  have hctrl := h.regs R.COLLAR_CTRL (by decide) (by decide)
  have hsec : e.sec = d.sec := by rw [h.frame]
  have hregion : regionOf e.hw a = regionOf d.hw a := by unfold regionOf dramBytes; rw [hstat]
  have htarget : collarTarget e.hw a = collarTarget d.hw a := by unfold collarTarget; rw [hregion]
  unfold Machine.collarOk masterShut
  rw [hsec, hctrl, htarget]

end

/-- The data bytes that a class's action writes at initialisation are zero. -/
theorem storeByte_curdPut (act lo hi : Nat) (h : Hw) (a : Nat) : storeByte (curdPut act lo hi h).mem.data a =
    if lo ≤ a ∧ a < hi then some 0#8 else storeByte h.mem.data a := by
  have hfill : storeByte (storeFill h.mem.data { lo := lo, hi := hi, chan := none, val := some 0#8 }) a =
      if lo ≤ a ∧ a < hi then some 0#8 else storeByte h.mem.data a := by
    by_cases hin : lo ≤ a ∧ a < hi
    · rw [if_pos hin, storeByte_storeFill_covered _ _ (by simp [fillCovers, hin])]
    · rw [if_neg hin, storeByte_storeFill_other _ _ (by simpa [fillCovers] using hin)]
  unfold curdPut
  dsimp only
  split <;> exact hfill

/-- A buffer whose lines the Collar lets CURD write is zeroed and joins its free list. -/
theorem curdJoin_curdFill_init {d : Dev} {c i : Nat} (hc : c < 6)
    (hok : ∀ a ∈ curdLines (curdBase d.hw c + i * curdSize c) (curdSize c), collarOk d 18 .write a 64 = true) :
    InitStep d (curdJoin c i (curdFill c i true d)) ∧
    (curdJoin c i (curdFill c i true d)).curd.free = tabPut d.curd.free c (tabGetD d.curd.free c [] ++ [i]) ∧
    ∀ a, curdBase d.hw c + i * curdSize c ≤ a → a < curdBase d.hw c + i * curdSize c + curdSize c →
      storeByte (curdJoin c i (curdFill c i true d)).hw.mem.data a = some 0#8 := by
  have hfill : curdFill c i true d = { d with
      hw := curdPut (curdRelease d.hw c) (curdBase d.hw c + i * curdSize c) (curdBase d.hw c + i * curdSize c + curdSize c) d.hw } := by
    rw [curdFill, if_neg (by simp), if_pos (List.all_eq_true.mpr hok)]
  rw [hfill]
  have hmem : ∀ h : Hw, (irq h irqCurd (6 + c)).mem = h.mem := fun h => irq_mem h irqCurd (6 + c)
  refine ⟨⟨rfl, fun a h1 h2 => ?_, fun a h0 => ?_⟩, rfl, fun a hlo hhi => ?_⟩
  · have hword : irqCurd.src (6 + c) / 32 = 7 := by simp only [irqCurd]; omega
    exact rd_irq_other _ irqCurd (6 + c) h1 (hword ▸ h2)
  · simp only [curdJoin, hmem, storeByte_curdPut, h0, ite_self]
  · simp only [curdJoin, hmem, storeByte_curdPut, if_pos (And.intro hlo hhi)]

/-- The initialisation of `n` buffers of a class from index `i`. -/
theorem curdInitClass_init {d : Dev} {c : Nat} (hc : c < 6) (n i : Nat)
    (hok : ∀ k, i ≤ k → k < i + n → ∀ a ∈ curdLines (curdBase d.hw c + k * curdSize c) (curdSize c), collarOk d 18 .write a 64 = true) :
    InitStep d (curdInitClass c n i d) ∧
    (∀ j, tabGetD (curdInitClass c n i d).curd.free j [] =
      if j = c then tabGetD d.curd.free c [] ++ List.range' i n else tabGetD d.curd.free j []) ∧
    ∀ a, curdBase d.hw c + i * curdSize c ≤ a → a < curdBase d.hw c + (i + n) * curdSize c →
      storeByte (curdInitClass c n i d).hw.mem.data a = some 0#8 := by
  induction n generalizing i d with
  | zero =>
    refine ⟨InitStep.refl d, fun j => ?_, fun a hlo hhi => by simp at hhi; omega⟩
    by_cases hj : j = c <;> simp [curdInitClass, hj]
  | succ n ih =>
    obtain ⟨hstep, hfree, hzero⟩ := curdJoin_curdFill_init (d := d) (i := i) hc (hok i le_rfl (by omega))
    generalize hx : curdJoin c i (curdFill c i true d) = x at hstep hfree hzero
    have hrun : curdInitClass c (n + 1) i d = curdInitClass c n (i + 1) x := by rw [curdInitClass, hx]
    obtain ⟨hrest, hfree', hzero'⟩ := ih (d := x) (i + 1) fun k hlo hhi a ha => by
      rw [hstep.curdBase c hc] at ha
      rw [hstep.collarOk]
      exact hok k (by omega) (by omega) a ha
    rw [hrun]
    refine ⟨hstep.trans hrest, fun j => ?_, fun a hlo hhi => ?_⟩
    · rw [hfree' j, hfree]
      by_cases hj : j = c
      · subst hj
        simp [List.range'_succ]
      · rw [if_neg hj, if_neg hj, tabGetD_tabPut_other _ _ _ hj]
    · rw [hstep.curdBase c hc] at hzero'
      by_cases hfirst : a < curdBase d.hw c + i * curdSize c + curdSize c
      · exact hrest.zero a (hzero a hlo hfirst)
      · refine hzero' a ?_ ?_
        · rw [Nat.add_mul]; omega
        · rwa [Nat.add_right_comm i 1 n, Nat.add_assoc i n 1]

/-- The initialisation of every buffer of some classes. -/
theorem foldl_curdInitClass {d : Dev} (l : List Nat) (hl : ∀ c ∈ l, c < 6) (hnodup : l.Nodup)
    (hok : ∀ c < 6, ∀ i < curdCount d.hw c, ∀ a ∈ curdLines (curdBase d.hw c + i * curdSize c) (curdSize c), collarOk d 18 .write a 64 = true) :
    InitStep d ((l.map fun c => (c, 0)).foldl (fun x p => curdInitClass p.1 (curdCount x.hw p.1 - p.2) p.2 x) d) ∧
    ∀ c < 6, tabGetD ((l.map fun c => (c, 0)).foldl (fun x p => curdInitClass p.1 (curdCount x.hw p.1 - p.2) p.2 x) d).curd.free c [] =
        (if c ∈ l then tabGetD d.curd.free c [] ++ List.range (curdCount d.hw c) else tabGetD d.curd.free c []) ∧
      (c ∈ l → ∀ a, curdBase d.hw c ≤ a → a < curdBase d.hw c + curdCount d.hw c * curdSize c →
        storeByte ((l.map fun c => (c, 0)).foldl (fun x p => curdInitClass p.1 (curdCount x.hw p.1 - p.2) p.2 x) d).hw.mem.data a = some 0#8) := by
  induction l generalizing d with
  | nil => exact ⟨InitStep.refl d, fun c _ => ⟨by simp, by simp⟩⟩
  | cons k l ih =>
    obtain ⟨hknot, hnodup⟩ := List.nodup_cons.mp hnodup
    have hk : k < 6 := hl k (by simp)
    obtain ⟨hstep, hfree, hzero⟩ := curdInitClass_init (d := d) hk (curdCount d.hw k) 0 fun i _ hi a ha =>
      hok k hk i (by omega) a ha
    simp only [List.map_cons, List.foldl_cons, Nat.sub_zero]
    generalize curdInitClass k (curdCount d.hw k) 0 d = x at hstep hfree hzero ⊢
    obtain ⟨hrest, hclass⟩ := ih (d := x) (fun c hc => hl c (by simp [hc])) hnodup fun c hc i hi a ha => by
      rw [hstep.curdCount c hc] at hi
      rw [hstep.curdBase c hc] at ha
      rw [hstep.collarOk]
      exact hok c hc i hi a ha
    refine ⟨hstep.trans hrest, fun c hc => ?_⟩
    obtain ⟨hfree', hzero'⟩ := hclass c hc
    rw [hstep.curdBase c hc, hstep.curdCount c hc] at hzero'
    rw [hfree', hstep.curdCount c hc, hfree c]
    by_cases hck : c = k
    · subst hck
      simp only [hknot, if_false, if_true, List.mem_cons, true_or, List.range_eq_range']
      refine ⟨trivial, fun _ a hlo hhi => hrest.zero a (hzero a (by omega) (by simpa using hhi))⟩
    · simp only [List.mem_cons, hck, false_or, if_false]
      exact ⟨trivial, hzero'⟩

theorem curdInited_eq {d : Dev} (hon : ∀ n, 81 ≤ n → n < 95 → poolIn d.hw n = true → domOn d.pwr n = true) (hnext : d.curd.initNext ≠ []) :
    curdInited d = { d.curd.initNext.foldl (fun x p => curdInitClass p.1 (curdCount x.hw p.1 - p.2) p.2 x) d with
      hw := md (d.curd.initNext.foldl (fun x p => curdInitClass p.1 (curdCount x.hw p.1 - p.2) p.2 x) d).hw R.CURD_STAT (fun w => clrBit w 27)
      curd := { (d.curd.initNext.foldl (fun x p => curdInitClass p.1 (curdCount x.hw p.1 - p.2) p.2 x) d).curd with initNext := [] } } := by
  have hdoms : ∀ n ∈ ((List.range 14).map (fun i => 81 + i)).filter (fun n => poolIn d.hw n), domOn d.pwr n = true := by
    intro n hn
    obtain ⟨hmem, hin⟩ := List.mem_filter.mp hn
    obtain ⟨i, hi, rfl⟩ := List.mem_map.mp hmem
    have hi := List.mem_range.mp hi
    exact hon (81 + i) (by omega) (by omega) hin
  rw [curdInited, onceOpen_of_on hdoms, curdInitEnd, if_neg (by simpa using hnext)]

theorem bit_curdStat_inited (h : Hw) : bit (rd (md h R.CURD_STAT (fun w => clrBit w 27)) R.CURD_STAT) 27 = false := by
  simp [md, bit_clrBit]

/-- A completing write of an item that no flush discarded takes the item's arguments (R347). -/
theorem itemComplete_of_open {h : Hw} {slot m : Nat} (hfl : (itemGet h slot m).flushed = false) : itemComplete h slot m =
    (some (itemGet h slot m), itemPut h slot m { itemGet h slot m with args := [], stFlushed := false }) := if_neg (by simp [hfl])

/-! Operations on buffers (R340–R344). -/

section
variable {h : Hw} {c i p : Nat} (hfind : curdFind h p = some c)
include hfind

theorem lt_of_curdFind : c < 6 := List.mem_range.mp (List.mem_of_find?_eq_some hfind)

end

theorem curdSize_pos (c : Nat) : 0 < curdSize c := by
  unfold curdSize
  split <;> decide

/-- A permitted share, drop or free of the buffer at a pointer (R344). -/
theorem curdOp_ok {d : Dev} {op m g c i p : Nat} {b x : Buf} (hfind : curdFind d.hw p = some c) (hp : p = curdBase d.hw c + i * curdSize c)
    (hb : tabGet d.curd.bufs (c * 65536 + i) = some b) (hrule : curdRule op m g b = .inr x) :
    curdOp op m p g d = (.ok, { d with curd := { d.curd with bufs := tabPut d.curd.bufs (c * 65536 + i) x } }) := by
  have hoff : p - curdBase d.hw c = i * curdSize c := by omega
  have halign : i * curdSize c % curdSize c = 0 := Nat.mul_mod_left ..
  have hidx : i * curdSize c / curdSize c = i := Nat.mul_div_cancel _ (curdSize_pos c)
  simp only [curdOp, hfind, hoff, halign, hidx, hb, hrule]
  rfl

/-- What a release writes over a buffer's words, by its class's action: nothing, or zeros or poison where the Collar allows it (R338). -/
theorem curdFill_release {d : Dev} {c i p : Nat} (hp : p = curdBase d.hw c + i * curdSize c)
    (hok : curdRelease d.hw c ≠ 2 → ∀ a ∈ curdLines p (curdSize c), collarOk d 18 .write a 64 = true) :
    curdFill c i false d = { d with hw := { d.hw with
      mem := if curdRelease d.hw c = 0 then memZero d.hw.mem p (p + curdSize c)
        else if curdRelease d.hw c = 1 then memPoison d.hw.mem p (p + curdSize c) else d.hw.mem } } := by
  have hrange : curdRelease d.hw c < 3 := by
    have hlt : fld (rd d.hw (R.CURD_CBASE_HI c)) 16 2 < 2 ^ 2 := Nat.mod_lt _ (by decide)
    rw [curdRelease]
    split <;> omega
  subst hp
  by_cases h2 : curdRelease d.hw c = 2
  · simp [curdFill, h2]
  · have hall : (curdLines (curdBase d.hw c + i * curdSize c) (curdSize c)).all (fun a => collarOk d 18 .write a 64) = true :=
      List.all_eq_true.mpr (hok h2)
    have h01 : curdRelease d.hw c = 0 ∨ curdRelease d.hw c = 1 := by omega
    rcases h01 with h0 | h0 <;> simp [curdFill, h0, hall, curdPut]

/-- A RELEASING buffer joins the end of its free list. -/
theorem curdReleased_eq {d : Dev} {c i p : Nat} {b : Buf} (hfind : curdFind d.hw p = some c) (hp : p = curdBase d.hw c + i * curdSize c)
    (hb : tabGet d.curd.bufs (c * 65536 + i) = some b) (hst : b.st = .releasing)
    (hready : curdRelease d.hw c ≠ 2 → (∀ n ∈ domsIn d.hw p (p + curdSize c), domOn d.pwr n = true) ∧
      ∀ a ∈ curdLines p (curdSize c), collarOk d 18 .write a 64 = true) : curdReleased p d = { d with
    hw := irq { d.hw with
      mem := if curdRelease d.hw c = 0 then memZero d.hw.mem p (p + curdSize c)
        else if curdRelease d.hw c = 1 then memPoison d.hw.mem p (p + curdSize c) else d.hw.mem } irqCurd (6 + c)
    curd := { d.curd with
      bufs := tabDel d.curd.bufs (c * 65536 + i)
      free := tabPut d.curd.free c (tabGetD d.curd.free c [] ++ [i]) } } := by
  have hidx : (p - curdBase d.hw c) / curdSize c = i := by
    rw [hp, Nat.add_sub_cancel_left, Nat.mul_div_cancel _ (curdSize_pos c)]
  have hdoms : ∀ n ∈ (if curdRelease d.hw c = 2 then [] else domsIn d.hw p (p + curdSize c)), domOn d.pwr n = true := by
    intro n hn
    by_cases h2 : curdRelease d.hw c = 2
    · simp [h2] at hn
    · rw [if_neg h2] at hn
      exact (hready h2).1 n hn
  have hopen : curdReleased p d = curdReleaseDone p d := by
    rw [curdReleased, hfind]
    exact onceOpen_of_on hdoms _
  rw [hopen, curdReleaseDone, hfind]
  simp only [hidx, hb, if_pos hst, curdFill_release hp fun h2 => (hready h2).2]
  rfl

/-- An operation on a buffer that is permitted, as a hardware master's request. -/
theorem curdHw_op {d : Dev} {m p : Nat} {w : Word} {f : Curd} (hop : fld w 28 4 = 2 ∨ fld w 28 4 = 3 ∨ fld w 28 4 = 4)
    (hok : curdOp (fld w 28 4) m p (fld w 0 7) d = (.ok, { d with curd := f })) : curdHw m w p d = { d with
      hw := mwr (mwr d.hw R.CURD_RSP_LO m 0#32) R.CURD_RSP_HI m 0#32, curd := f } := by
  have hexec : curdExec m w p true d = ({ st := .ok, ptr := 0, cls := 0 }, { d with curd := f }) := by
    rw [curdExec, if_neg (by omega), if_pos hop, if_pos rfl, hok]
  simp only [curdHw, hexec]
  rfl

/-- The same as a command item: its pointer stands in the arguments, and the answer in the response registers (R347). -/
theorem curdCmdWrite_op {d : Dev} {m p : Nat} {w : Word} {f : Curd} (hop : fld w 28 4 = 2 ∨ fld w 28 4 = 3 ∨ fld w 28 4 = 4)
    (hfl : (itemGet d.hw 7 m).flushed = false) (h14 : itemHas (itemGet d.hw 7 m) 0x14 = true) (h18 : itemHas (itemGet d.hw 7 m) 0x18 = true)
    (hp : (itemArg (itemGet d.hw 7 m) 0x14).toNat + 0x100000000 * fld (itemArg (itemGet d.hw 7 m) 0x18) 0 16 = p)
    (hok : ∀ h : Hw, h.regs = d.hw.regs →
      curdOp (fld w 28 4) m p (fld w 0 7) { d with hw := h } = (.ok, { d with hw := h, curd := f })) :
    curdCmdWrite m w d = (.ok, { d with
      hw := mwr (mwr (itemPut d.hw 7 m { itemGet d.hw 7 m with args := [], stFlushed := false }) R.CURD_RSP_LO m 0#32) R.CURD_RSP_HI m 0#32
      curd := f }) := by
  have hitem : itemComplete d.hw 7 m =
      (some (itemGet d.hw 7 m), itemPut d.hw 7 m { itemGet d.hw 7 m with args := [], stFlushed := false }) := itemComplete_of_open hfl
  have hexec : curdExec m w p true { d with hw := itemPut d.hw 7 m { itemGet d.hw 7 m with args := [], stFlushed := false } } =
      ({ st := .ok, ptr := 0, cls := 0 },
        { d with hw := itemPut d.hw 7 m { itemGet d.hw 7 m with args := [], stFlushed := false }, curd := f }) := by
    rw [curdExec, if_neg (by omega), if_pos hop, if_pos rfl,
      hok (itemPut d.hw 7 m { itemGet d.hw 7 m with args := [], stFlushed := false }) rfl]
  simp only [curdCmdWrite, hitem, h14, h18, hp, Bool.and_self, hexec]
  rfl

theorem regWriteAt_curdCmd (m : Nat) (v : Word) (d : Dev) : regWriteAt m R.CURD_CMD v d = curdCmdWrite m v d := rfl

/-- Fields of a command word. -/
theorem fld_curdWord_op {op g : Nat} (hop : op < 16) : fld (curdWord op g) 28 4 = op := by
  rw [curdWord, fld_putFld_other _ _ _ _ _ _ (by decide) (by decide), fld_putFld_same _ _ _ _ (by decide) hop]

theorem fld_curdWord_holder {op g : Nat} (hg : g < 128) : fld (curdWord op g) 0 7 = g :=
  fld_putFld_same _ _ _ _ (by decide) hg

/-- An operation on a buffer that the rule permits runs on both paths: as a hardware master's request and as a command item. -/
theorem runs_curdOp {d : Dev} {m g op c i p : Nat} {b x : Buf} {hard item : Instr} (hop : op = 2 ∨ op = 3 ∨ op = 4) (hg : g < 128)
    (hhard : ∀ s, exec hard s = onUnit (fun _ => masterOk m) (curdAsk true m (curdWord op g) p) s)
    (hitem : ∀ s, exec item s = onUnit (fun _ => masterOk m) (curdAsk false m (curdWord op g) p) s)
    (hfind : curdFind d.hw p = some c) (hp : p = curdBase d.hw c + i * curdSize c)
    (hb : tabGet d.curd.bufs (c * 65536 + i) = some b) (hrule : curdRule op m g b = .inr x) :
    (masterOk m = true → Runs hard d { d with
      hw := mwr (mwr d.hw R.CURD_RSP_LO m 0#32) R.CURD_RSP_HI m 0#32
      curd := { d.curd with bufs := tabPut d.curd.bufs (c * 65536 + i) x } }) ∧
    (d.lets (writeOf m R.CURD_CMD (curdWord op g)) → (itemGet d.hw 7 m).flushed = false →
      itemHas (itemGet d.hw 7 m) 0x14 = true → itemHas (itemGet d.hw 7 m) 0x18 = true →
      (itemArg (itemGet d.hw 7 m) 0x14).toNat + 0x100000000 * fld (itemArg (itemGet d.hw 7 m) 0x18) 0 16 = p →
      Runs item d (Dev.wrote { d with
        hw := mwr (mwr (itemPut d.hw 7 m { itemGet d.hw 7 m with args := [], stFlushed := false }) R.CURD_RSP_LO m 0#32) R.CURD_RSP_HI m 0#32
        curd := { d.curd with bufs := tabPut d.curd.bufs (c * 65536 + i) x } } m R.CURD_CMD (curdWord op g))) := by
  have hfop : fld (curdWord op g) 28 4 = op := fld_curdWord_op (by omega)
  have hfg : fld (curdWord op g) 0 7 = g := fld_curdWord_holder hg
  have hops : fld (curdWord op g) 28 4 = 2 ∨ fld (curdWord op g) 28 4 = 3 ∨ fld (curdWord op g) 28 4 = 4 := by omega
  refine ⟨fun hm => Runs.of_onUnit hhard hm ?_, fun hlets hfl h14 h18 hptr => Runs.of_onUnit hitem hlets.masterOk ?_⟩
  · rw [curdAsk, if_pos rfl, curdHw_op hops]
    rw [hfop, hfg]
    exact curdOp_ok hfind hp hb hrule
  · rw [curdAsk, if_neg (by decide)]
    refine regWrite_eq_wrote hlets (by decide) ((regWriteAt_curdCmd ..).trans (curdCmdWrite_op hops hfl h14 h18 hptr fun h hregs => ?_))
    have hrd : rd h = rd d.hw := funext (rd_of_regs hregs)
    have hbase : curdBase h = curdBase d.hw := by unfold curdBase; rw [hrd]
    have hcount : curdCount h = curdCount d.hw := by unfold curdCount; rw [hrd]
    have hfind' : curdFind h p = some c := by
      rw [← hfind]
      unfold curdFind curdRegion
      rw [hbase, hcount]
    rw [hfop, hfg]
    exact curdOp_ok (d := { d with hw := h }) hfind' (by rw [hbase]; exact hp) hb hrule

/-! Grants (R340). -/

theorem curdFit_eq {n c : Nat} (hc : c < 6) (hfit : n ≤ curdSize c) (hlow : ∀ k < c, curdSize k < n) : curdFit n = c := by
  have hfind : (List.range 6).find? (fun c => decide (n ≤ curdSize c)) = some c := by
    refine List.find?_range_eq_some.mpr ⟨by simpa using hfit, List.mem_range.mpr hc, fun k hk => ?_⟩
    simpa using hlow k hk
  rw [curdFit, hfind]
  rfl

/-- The first class of a list that has a free buffer. -/
theorem curdTake_eq {free : List (Nat × List Nat)} {e i : Nat} {rest : List Nat} {before after : List Nat}
    (hempty : ∀ k ∈ before, tabGetD free k [] = []) (he : tabGetD free e [] = i :: rest) :
    curdTake free (before ++ e :: after) = some (e, i) := by
  induction before with
  | nil => simp only [List.nil_append, curdTake, he]
  | cons k l ih => simp only [List.cons_append, curdTake, hempty k (by simp), ih fun j hj => hempty j (by simp [hj])]

theorem curdTake_none {free : List (Nat × List Nat)} {l : List Nat} (hempty : ∀ k ∈ l, tabGetD free k [] = []) : curdTake free l = none := by
  induction l with
  | nil => rfl
  | cons k l ih => simp only [curdTake, hempty k (by simp), ih fun j hj => hempty j (by simp [hj])]

/-- The classes that a grant may take from, up to the one that it takes from. -/
theorem grantClasses_eq {c e : Nat} (hce : c ≤ e) (he : e < 6) (nofall : Bool) (hn : nofall = true → e = c) : ∃ before after,
    (if nofall then [c] else (List.range 6).filter (fun e => decide (c ≤ e))) = before ++ e :: after ∧ ∀ k ∈ before, c ≤ k ∧ k < e := by
  cases nofall with
  | true =>
    obtain rfl := hn rfl
    exact ⟨[], [], rfl, by simp⟩
  | false =>
    refine ⟨(List.range e).filter (fun k => decide (c ≤ k)), (List.range' (e + 1) (5 - e)).filter (fun k => decide (c ≤ k)), ?_,
      fun k hk => ?_⟩
    · have hsplit : List.range 6 = List.range e ++ e :: List.range' (e + 1) (5 - e) := by
        interval_cases e <;> rfl
      simp [hsplit, hce]
    · simp only [List.mem_filter, List.mem_range, decide_eq_true_eq] at hk
      exact ⟨hk.2, hk.1⟩

/-- A grant takes the longest-free buffer of the first class in its order that has one (R340). -/
theorem curdGrant_ok {d : Dev} {m n c e i : Nat} {nofall : Bool} {rest : List Nat} (h0 : 0 < n) (hmax : n ≤ 1048576)
    (hen : bit (rd d.hw R.CURD_CTRL) 0 = true) (hce : c ≤ e) (he : e < 6) (hfit : n ≤ curdSize c) (hlow : ∀ k < c, curdSize k < n)
    (hnofall : nofall = true → e = c) (hempty : ∀ k, c ≤ k → k < e → tabGetD d.curd.free k [] = [])
    (hfree : tabGetD d.curd.free e [] = i :: rest) : curdGrant m n nofall d =
      ({ st := .ok, ptr := curdBase d.hw e + i * curdSize e, cls := e }, { d with curd := { d.curd with
        free := tabPut d.curd.free e rest
        bufs := tabPut d.curd.bufs (e * 65536 + i) { st := .held, holds := 1, final := some m } } }) := by
  obtain ⟨before, after, hcs, hbefore⟩ := grantClasses_eq hce he nofall hnofall
  have htake := curdTake_eq (after := after) (fun k hk => hempty k (hbefore k hk).1 (hbefore k hk).2) hfree
  rw [curdGrant, if_neg (by omega), if_neg (by omega), curdFit_eq (by omega) hfit hlow]
  simp only [hcs, hen, if_true, htake, hfree]
  rfl

/-- A grant with no free buffer (R342). -/
theorem curdGrant_empty {d : Dev} {n c : Nat} (h0 : 0 < n) (hmax : n ≤ 1048576) (hc : c < 6) (hfit : n ≤ curdSize c)
    (hlow : ∀ k < c, curdSize k < n) (hempty : ∀ k, c ≤ k → k < 6 → tabGetD d.curd.free k [] = []) (m : Nat) (nofall : Bool) :
    curdGrant m n nofall d = ({ st := .empty, ptr := 0, cls := 0 }, { d with hw := irq d.hw irqCurd c }) := by
  have htake : curdTake d.curd.free (if nofall then [c] else (List.range 6).filter (fun e => decide (c ≤ e))) = none := by
    refine curdTake_none fun k hk => ?_
    cases nofall with
    | true =>
      obtain rfl : k = c := by simpa using hk
      exact hempty k le_rfl hc
    | false =>
      simp only [Bool.false_eq_true, if_false, List.mem_filter, List.mem_range, decide_eq_true_eq] at hk
      exact hempty k hk.2 hk.1
  rw [curdGrant, if_neg (by omega), if_neg (by omega), curdFit_eq hc hfit hlow]
  simp only [htake, ite_self]

theorem fld_grantWord_op (n : Nat) (nofall : Bool) : fld (grantWord n nofall) 28 4 = 1 := by
  rw [grantWord, fld_putBit_other _ _ _ _ _ (by decide) (by decide), fld_putFld_other _ _ _ _ _ _ (by decide) (by decide),
    fld_putFld_same _ _ _ _ (by decide) (by decide)]

theorem fld_grantWord_len {n : Nat} (hn : n ≤ 1048576) (nofall : Bool) : fld (grantWord n nofall) 0 21 = n := by
  rw [grantWord, fld_putBit_other _ _ _ _ _ (by decide) (by decide), fld_putFld_same _ _ _ _ (by decide) (by omega)]

theorem bit_grantWord_nofall (n : Nat) (nofall : Bool) : bit (grantWord n nofall) 27 = nofall := by
  rw [grantWord, bit_putBit _ _ _ _ (by decide), if_pos rfl]

theorem curdExec_grantWord {n : Nat} (hn : n ≤ 1048576) (m : Nat) (nofall full : Bool) (ptr : Nat) (d : Dev) :
    curdExec m (grantWord n nofall) ptr full d = curdGrant m n nofall d := by
  rw [curdExec, fld_grantWord_op, if_pos rfl, fld_grantWord_len hn, bit_grantWord_nofall]

/-- Settles O14: pools' initialisation by induction over classes and indices, the requests and items by the two paths' equations. -/
theorem curdCommands : Obligations.CurdCommands := by
  refine ⟨?enable, ?resume, ?inited, ?grant, ?empty, ?ops, ?retry, ?flush⟩
  case enable =>
    intro d m hlets hen hfree hreg hsep hsum hinit
    refine Runs.of_regWrite (exec_curdEnable m) hlets (by decide) ((regWriteAt_curdCtrl ..).trans (congrArg (Prod.mk Status.ok) ?_))
    exact (if_pos (by decide)).trans (curdEnable_initialises hen hfree (curdCheck_ok hreg hsep hsum hinit))
  case resume =>
    intro d m hlets hen hbusy
    refine Runs.of_regWrite (exec_curdEnable m) hlets (by decide) ((regWriteAt_curdCtrl ..).trans (congrArg (Prod.mk Status.ok) ?_))
    exact (if_pos (by decide)).trans (curdEnable_resumes hen hbusy)
  case inited =>
    intro d hfree hnext hon hok hall
    obtain ⟨hstep, hclass⟩ := foldl_curdInitClass (d := d) ((List.range 6).filter (fun c => decide (curdCount d.hw c ≠ 0)))
      (fun c hc => List.mem_range.mp (List.mem_of_mem_filter hc)) (List.nodup_range.filter _) hok
    rw [← hall] at hstep hclass
    have hrun := curdInited_eq hon hnext
    generalize d.curd.initNext.foldl (fun x p => curdInitClass p.1 (curdCount x.hw p.1 - p.2) p.2 x) d = e at hstep hclass hrun
    refine ⟨_, Runs.of_does exec_curdPoolInitEnd hrun, ?_, bit_curdStat_inited e.hw, fun c hc => ?_⟩
    · rw [hstep.frame]
    · obtain ⟨hlist, hzero⟩ := hclass c hc
      by_cases h0 : curdCount d.hw c = 0
      · refine ⟨?_, fun a hlo hhi => by rw [h0] at hhi; omega⟩
        rw [hlist, hfree, h0]
        split <;> rfl
      · have hin : c ∈ (List.range 6).filter (fun c => decide (curdCount d.hw c ≠ 0)) := by simp [hc, h0]
        refine ⟨?_, hzero hin⟩
        rw [hlist, if_pos hin, hfree]
        rfl
  case grant =>
    intro d m n c e i nofall rest h0 hmax hen hce he hfit hlow hnofall hempty hfree
    refine ⟨fun hm => Runs.of_onUnit (exec_curdGrant m n nofall true) hm ?_,
      fun hlets hfl => Runs.of_onUnit (exec_curdGrant m n nofall false) hlets.masterOk ?_⟩
    · rw [curdAsk, if_pos rfl, curdHw, curdExec_grantWord hmax, curdGrant_ok h0 hmax hen hce he hfit hlow hnofall hempty hfree]
      simp [curdRespond, Status.code]
    · rw [curdAsk, if_neg (by decide)]
      refine regWrite_eq_wrote hlets (by decide) ((regWriteAt_curdCmd ..).trans ?_)
      have hgrant := curdGrant_ok (d := { d with hw := itemPut d.hw 7 m { itemGet d.hw 7 m with args := [], stFlushed := false } })
        (m := m) h0 hmax hen hce he hfit hlow hnofall hempty hfree
      simp only [curdCmdWrite, itemComplete_of_open hfl, curdExec_grantWord hmax, hgrant]
      simp [curdRespond, Status.code]
      rfl
  case empty =>
    intro d m n c nofall hm h0 hmax hc hfit hlow hempty
    refine ⟨_, rfl, Runs.of_onUnit (exec_curdGrant m n nofall true) hm ?_⟩
    rw [curdAsk, if_pos rfl, curdHw, curdExec_grantWord hmax, curdGrant_empty h0 hmax hc hfit hlow hempty]
    simp [curdRespond]
  case ops =>
    intro d m g c i p b x hfind hp hb
    refine ⟨fun hst hfinal hholds hg hres hx => ?_, fun hx => ?_, fun hst hfinal hx => ?_, fun hst hready => ?_⟩
    · exact runs_curdOp (.inl rfl) hg (exec_curdShare m g true p) (exec_curdShare m g false p) hfind hp hb
        (by simp [curdRule, hst, hfinal, hholds, hres, hx])
    · refine runs_curdOp (g := 0) (.inr (.inl rfl)) (by decide) (exec_curdDrop m true p) (exec_curdDrop m false p) hfind hp hb ?_
      rcases hx with ⟨hst, hfinal, hholds, rfl⟩ | ⟨hst, hholds, rfl⟩ | ⟨hst, hholds, rfl⟩
      · simp [curdRule, hst, hfinal, Nat.not_lt.mpr hholds]
      · simp [curdRule, hst, hholds]
      · simp [curdRule, hst, hholds]
    · refine runs_curdOp (g := 0) (.inr (.inr rfl)) (by decide) (exec_curdFree m true p) (exec_curdFree m false p) hfind hp hb ?_
      by_cases h1 : b.holds = 1 <;> simp [curdRule, hst, hfinal, hx, h1]
    · exact Runs.of_does (exec_curdReleaseDone p) (curdReleased_eq hfind hp hb hst hready)
  case retry =>
    intro d m w rest hw
    refine Runs.of_does exec_curdEmptyRetry ?_
    simp only [curdRetry, hw]
  case flush =>
    intro d m v hlets hargs
    refine Runs.of_regWrite (exec_curdFlushWrite m v) hlets (by decide) ?_
    have hat : regWriteAt m R.CURD_FLUSH v d = (.ok, curdFlush (fld v 0 7) d) := rfl
    have hflush : itemFlush d.hw 7 (fld v 0 7) =
        (true, itemPut d.hw 7 (fld v 0 7) { itemGet d.hw 7 (fld v 0 7) with args := [], flushed := true }) :=
      if_neg (by simpa using hargs)
    rw [hat, curdFlush, hflush]
    rfl

end Sys2Proof.Machine
end

section
/-!
PROOFS. Memory: DRAM control, scrub and test mode.
-/

namespace Sys2Proof.Machine

/-! DRAM control (R355–R357, R363). -/

theorem regWriteAt_dramcCtrl (m : Nat) (v : Word) (d : Dev) : regWriteAt m R.DRAMC_CTRL v d = (.ok, dramcCtrlWrite v d) := rfl

theorem bit_or_one (v : Word) : bit (v ||| 1#32) 0 = true ∧ bit (v ||| 1#32) 1 = bit v 1 :=
  ⟨bit_or_forced (by decide) v, bit_or_kept (by decide) v⟩

theorem bit_or_two (v : Word) : bit (v ||| 2#32) 1 = true ∧ bit (v ||| 2#32) 0 = bit v 0 :=
  ⟨bit_or_forced (by decide) v, bit_or_kept (by decide) v⟩

theorem dramcEnable_true {d : Dev} (hen : bit (rd d.hw R.DRAMC_CTRL) 0 = false) : dramcEnable true d = { d with
    hw := if fld (rd d.hw R.DRAMC_STAT) 28 4 = 15 ∧ 1024 ≤ fld (rd d.hw R.DRAMC_CFG) 0 16 ∧ fld (rd d.hw R.DRAMC_CFG) 0 16 ≤ 16384 ∧
          fld (rd d.hw R.DRAMC_CFG) 0 16 % 1024 = 0 then
        wr (wr d.hw R.DRAMC_CTRL (setBit (rd d.hw R.DRAMC_CTRL) 0)) R.DRAMC_STAT
          (putFld (putFld (rd d.hw R.DRAMC_STAT) 16 4 0) 0 16 (4 * fld (rd d.hw R.DRAMC_CFG) 0 16 * 7 / 8))
      else wr d.hw R.DRAMC_STAT (putFld (rd d.hw R.DRAMC_STAT) 16 4 2) } := by
  simp only [dramcEnable, Bool.not_true, Bool.false_eq_true, if_false, hen]
  by_cases hgood : fld (rd d.hw R.DRAMC_STAT) 28 4 = 15 ∧ 1024 ≤ fld (rd d.hw R.DRAMC_CFG) 0 16 ∧ fld (rd d.hw R.DRAMC_CFG) 0 16 ≤ 16384 ∧
      fld (rd d.hw R.DRAMC_CFG) 0 16 % 1024 = 0
  · have hbad : ¬ (fld (rd d.hw R.DRAMC_STAT) 28 4 ≠ 15 ∨ fld (rd d.hw R.DRAMC_CFG) 0 16 < 1024 ∨ 16384 < fld (rd d.hw R.DRAMC_CFG) 0 16 ∨
        fld (rd d.hw R.DRAMC_CFG) 0 16 % 1024 ≠ 0) := by omega
    rw [if_pos hgood, if_neg hbad]
    simp (disch := decide) [md, rd_wr_other]
  · have hbad : fld (rd d.hw R.DRAMC_STAT) 28 4 ≠ 15 ∨ fld (rd d.hw R.DRAMC_CFG) 0 16 < 1024 ∨ 16384 < fld (rd d.hw R.DRAMC_CFG) 0 16 ∨
        fld (rd d.hw R.DRAMC_CFG) 0 16 % 1024 ≠ 0 := by omega
    rw [if_neg hgood, if_pos hbad]
    rfl

theorem dramcCtrlWrite_init {d : Dev} {v : Word} (hv : bit v 0 = true) (hen : bit (rd d.hw R.DRAMC_CTRL) 0 = true)
    (hidle : bit (rd d.hw R.DRAMC_STAT) 23 = false) : dramcCtrlWrite (v ||| 2#32) d = { d with
      hw := wr (wr (wr (wr (wr d.hw R.DRAMC_STAT (putFld (rd d.hw R.DRAMC_STAT) 16 4 0)) R.DRAMC_CTRL (setBit (rd d.hw R.DRAMC_CTRL) 1))
        R.DRAMC_STAT (setBit (putFld (rd d.hw R.DRAMC_STAT) 16 4 0) 23)) R.DRAMC_INIT_PTR_LO 0#32) R.DRAMC_INIT_PTR_HI 1#32 } := by
  obtain ⟨h1, h0⟩ := bit_or_two v
  have hkept : bit (putFld (rd d.hw R.DRAMC_STAT) 16 4 0) 23 = false := by
    rw [bit_putFld_other _ _ _ _ _ (by decide) (by decide)]
    exact hidle
  simp (disch := decide) [dramcCtrlWrite, h1, h0, hv, dramcEnable, dramcInit, hen, md, rd_wr_other, hkept]

/-- Zeros with their check bits over a range. -/
theorem storeByte_memZero (m : Mem) (lo hi a : Nat) :
    storeByte (memZero m lo hi).data a = (if lo ≤ a ∧ a < hi then some 0#8 else storeByte m.data a) ∧
    storeByte (memZero m lo hi).chk a = (if lo ≤ a ∧ a < hi then some 0#8 else storeByte m.chk a) := by
  have hfill : ∀ s : Store, storeByte (storeFill s { lo := lo, hi := hi, chan := none, val := some 0#8 }) a =
      if lo ≤ a ∧ a < hi then some 0#8 else storeByte s a := by
    intro s
    by_cases hin : lo ≤ a ∧ a < hi
    · rw [if_pos hin, storeByte_storeFill_covered _ _ (by simp [fillCovers, hin])]
    · rw [if_neg hin, storeByte_storeFill_other _ _ (by simpa [fillCovers] using hin)]
  exact ⟨hfill m.data, hfill m.chk⟩

theorem dramcInitDone_spec {d : Dev} (hrun : bit (rd d.hw R.DRAMC_STAT) 23 = true) : ∃ h, dramcInitDone d = { d with hw := h } ∧
    bit (rd h R.DRAMC_STAT) 23 = false ∧ bit (rd h R.DRAMC_CTRL) 1 = false ∧ bit (rd h R.DRAMC_INT_STAT) 3 = true ∧
    initPtr h = 0x100000000 + dramBytes d.hw ∧ h.mem = memZero d.hw.mem 0x100000000 (0x100000000 + dramBytes d.hw) := by
  have hbytes : dramBytes d.hw < 65536 * 1048576 := by
    have hlt : fld (rd d.hw R.DRAMC_STAT) 0 16 < 2 ^ 16 := Nat.mod_lt _ (by decide)
    rw [dramBytes]
    omega
  refine ⟨_, if_neg (by simp [hrun]), ?_, ?_, ?_, ?_, ?_⟩
  · simp (disch := decide) [rd_irq_other, md, rd_wr_other, bit_clrBit]
  · simp (disch := decide) [rd_irq_other, md, rd_wr_other, bit_clrBit]
  · exact bit_rd_irq_at _ irqDramc rfl (by decide) (by decide)
  · simp (disch := decide) only [initPtr, rd_irq_other, rd_wr_other, rd_wr_same]
    generalize dramBytes d.hw = n at hbytes
    simp only [fld, BitVec.toNat_ofNat, BitVec.ushiftRight_zero]
    omega
  · simp [md]

/-! Scrub (R358, R359). -/

theorem regWriteAt_scrubCtrl (m : Nat) (v : Word) (d : Dev) : regWriteAt m R.MEMCHK_SCRUB_CTRL v d = (.ok,
    if bit v 1 then scrubAbort (Config.freeNat (if bit v 0 then scrubGo d else d).hw.free) (hwMod spend (if bit v 0 then scrubGo d else d))
    else if bit v 0 then scrubGo d else d) := rfl

theorem regWriteAt_scrubAbort (m : Nat) (d : Dev) : regWriteAt m R.MEMCHK_SCRUB_CTRL 2#32 d =
    (.ok, scrubAbort (Config.freeNat d.hw.free) (hwMod spend d)) := by
  rw [regWriteAt_scrubCtrl, if_pos (by decide), if_neg (by decide)]

/-- A write of GO. -/
theorem runs_scrubGo {d e : Dev} {m : Nat} (hlets : d.lets (writeOf m R.MEMCHK_SCRUB_CTRL 1#32)) (he : scrubGo d = e) :
    Runs (.memchkScrubGo m) d (Dev.wrote e m R.MEMCHK_SCRUB_CTRL 1#32) := by
  refine Runs.of_regWrite (exec_memchkScrubGo m) hlets (by decide) ((regWriteAt_scrubCtrl ..).trans (congrArg (Prod.mk Status.ok) ?_))
  rw [if_neg (by decide), if_pos (by decide), he]

/-- The first bad word of a scrub is recorded exactly when one was counted. -/
theorem scrubWords_first (n a ce ue : Nat) (first : Option (Nat × Bool)) (h : Hw) (hfirst : first = none ↔ ue = 0) :
    (scrubWords n a ce ue first h).1.2.2 = none ↔ (scrubWords n a ce ue first h).1.2.1 = 0 := by
  induction n generalizing a ce ue first h with
  | zero => exact hfirst
  | succ n ih =>
    rw [scrubWords]
    split
    · exact ih _ _ _ _ _ hfirst
    · exact ih _ _ _ _ _ hfirst
    · exact ih _ _ _ _ _ (by cases first <;> simp)
    · exact ih _ _ _ _ _ (by cases first <;> simp)

theorem scrubWords_one {h : Hw} {a : Nat} {w : DWord} {c : Byte} (hraw : memRaw h.mem a = some (w, c)) :
    scrubWords 1 a 0 0 none h = match secClass w c with
      | .good _ => ((0, 0, none), h)
      | .corrected x => ((1, 0, none), { memCe h a with mem := memPut (memCe h a).mem a x (secCheck x) })
      | .uncorrectable => ((0, 1, some (a, false)), memUe h a false)
      | .poisoned => ((0, 1, some (a, true)), memUe h a true) := by
  have hlook : memLook h a = ((w, c), h) := by rw [memLook, hraw]
  rw [scrubWords]
  simp only [hlook]
  cases secClass w c <;> rfl

/-! Test mode (R360). -/

theorem regWriteAt_testCtrl (m : Nat) (v : Word) (d : Dev) : regWriteAt m R.MEMCHK_TCTRL v d = (.ok,
    if fld v 0 2 = 1 then testWrite d else if fld v 0 2 = 2 then testRead d else d) := rfl

theorem testStatus_ok {d : Dev} (halign : testAddr d.hw % 8 = 0) (hin : inOneMemory d.hw (testAddr d.hw) (testAddr d.hw + 8) = true)
    (hon : (domGet d.pwr (domOf d.hw (testAddr d.hw))).st ≠ .off) : testStatus d = .ok := by
  simp [testStatus, halign, hin, hon]

/-- Settles O15: each command's equation, with the scrub's count of bad words by induction over its words. -/
theorem memoryCommands : Obligations.MemoryCommands := by
  refine ⟨?enable, ?init, ?initDone, ?train, ?scrub, ?scrubAtOnce, ?scrubDone, ?scrubAbort, ?scrubWord, ?testWrite, ?testRead⟩
  case enable =>
    intro d m v hlets hinit hen
    refine Runs.of_regWrite (exec_dramcEnable m v) hlets (by decide) ((regWriteAt_dramcCtrl ..).trans (congrArg (Prod.mk Status.ok) ?_))
    obtain ⟨h0, h1⟩ := bit_or_one v
    rw [dramcCtrlWrite, h0, h1, hinit, dramcEnable_true hen]
    rfl
  case init =>
    intro d m v hlets hv hen hidle
    exact Runs.of_regWrite (exec_dramcInit m v) hlets (by decide)
      ((regWriteAt_dramcCtrl ..).trans (congrArg (Prod.mk Status.ok) (dramcCtrlWrite_init hv hen hidle)))
  case initDone =>
    intro d hrun
    obtain ⟨h, hdone, hbusy, hctrl, hint, hptr, hmem⟩ := dramcInitDone_spec hrun
    refine ⟨_, Runs.of_does exec_dramcInitDone hdone, rfl, hbusy, hctrl, hint, hptr, fun a => ?_⟩
    rw [hmem]
    exact storeByte_memZero ..
  case train =>
    intro d k hk
    exact ⟨Runs.of_onUnit (exec_dramTrainingDone k) (by simpa using hk) rfl, Runs.of_onUnit (exec_dramTrainFail k) (by simpa using hk) rfl⟩
  case scrub =>
    intro d m hlets hidle halign hpos hin
    refine runs_scrubGo hlets ?_
    have hmax : max 1 (64 * (rd d.hw R.MEMCHK_SCRUB_LINES).toNat) = 64 * (rd d.hw R.MEMCHK_SCRUB_LINES).toNat := by omega
    simp [scrubGo, hidle, halign, hmax, hin, Nat.pos_iff_ne_zero.mp hpos]
  case scrubAtOnce =>
    intro d m hlets hidle
    refine ⟨fun halign => runs_scrubGo hlets ?_, fun halign h0 hin => runs_scrubGo hlets ?_⟩
    · simp [scrubGo, hidle, halign]
    · simp [scrubGo, hidle, halign, h0, hin]
  case scrubDone =>
    intro d hrun hon
    refine ⟨_, _, _, _, Runs.of_does exec_memchkScrubDone ?_, rfl, scrubWords_first _ _ _ _ _ _ (by simp)⟩
    rw [scrubDone, scrubOver, if_neg (by simp [hrun]), onceOpen_of_on hon, scrubRun, if_neg (by simp [hrun])]
  case scrubAbort =>
    intro d m hlets hrun
    refine ⟨min (Config.freeNat d.hw.free) (rd d.hw R.MEMCHK_SCRUB_LINES).toNat, _, _, _, _, Nat.min_le_right .., ?_, rfl⟩
    refine Runs.of_regWrite (exec_memchkScrubAbort m) hlets (by decide) ((regWriteAt_scrubAbort ..).trans (congrArg (Prod.mk Status.ok) ?_))
    have hrun' : ¬ (!bit (rd (hwMod spend d).hw R.MEMCHK_SCRUB_STAT) 31) = true := ne_true_of_eq_false (congrArg (!·) hrun)
    exact if_neg hrun'
  case scrubWord =>
    intro h a w c r hraw hr
    rw [scrubWords_one hraw] at hr
    split <;> simp_all
  case testWrite =>
    intro d m hlets hen halign hin hon
    refine Runs.of_regWrite (exec_memchkTestWrite m) hlets (by decide) ((regWriteAt_testCtrl ..).trans (congrArg (Prod.mk Status.ok) ?_))
    rw [if_pos (by decide), testWrite, if_neg (by simp [hen]), testStatus_ok halign hin hon]
    rfl
  case testRead =>
    intro d m w c hlets hen halign hin hon hraw
    refine Runs.of_regWrite (exec_memchkTestRead m) hlets (by decide) ((regWriteAt_testCtrl ..).trans (congrArg (Prod.mk Status.ok) ?_))
    have hlook : memLook d.hw (testAddr d.hw) = ((w, c), d.hw) := by rw [memLook, hraw]
    rw [if_neg (by decide), if_pos (by decide), testRead, if_neg (by simp [hen]), testStatus_ok halign hin hon, hlook]
    rfl

end Sys2Proof.Machine
end

section
/-!
PROOFS. Links: PERST, training, power states of the link, PTM and errors.
-/

namespace Sys2Proof.Machine

/-! What the end of an unseen operation leaves of ports and controllers. -/

/-- A step that touches no controller, no namespace and no port, save that the Host Memory Buffer of a port with a waiting command of `w` to
disable it may stop. -/
structure Aside (w : List Src) (d e : Dev) : Prop where
  unreached : e.unreached = d.unreached
  ctrls : e.host.ctrls = d.host.ctrls
  queues : e.host.queues = d.host.queues
  unfetched : e.host.unfetched = d.host.unfetched
  ringWait : e.host.ringWait = d.host.ringWait
  namespaces : e.ten.namespaces = d.ten.namespaces
  waits : d.host.hmbWait ⊆ w → e.host.hmbWait ⊆ w
  other : ∀ p, (∀ c ∈ w, c.port ≠ p) → portGet e p = portGet d p
  hmb : ∀ p, (portGet d p).link ≠ .l0p → portGet e p = portGet d p ∨ portGet e p = { portGet d p with hmb := .off, hmbUnits := 0 }

theorem Aside.refl (w : List Src) (d : Dev) : Aside w d d := ⟨rfl, rfl, rfl, rfl, rfl, rfl, id, fun _ _ => rfl, fun _ _ => .inl rfl⟩

theorem Aside.trans {w : List Src} {d e f : Dev} (h : Aside w d e) (k : Aside w e f) : Aside w d f where
  unreached := k.unreached.trans h.unreached
  ctrls := k.ctrls.trans h.ctrls
  queues := k.queues.trans h.queues
  unfetched := k.unfetched.trans h.unfetched
  ringWait := k.ringWait.trans h.ringWait
  namespaces := k.namespaces.trans h.namespaces
  waits := k.waits ∘ h.waits
  other p hp := (k.other p hp).trans (h.other p hp)
  hmb p hp := by
    rcases h.hmb p hp with h1 | h1
    · rw [← h1]
      exact k.hmb p (by rwa [h1])
    · rcases k.hmb p (by rwa [h1]) with h2 | h2
      · exact .inr (h2.trans h1)
      · exact .inr (h2.trans (by rw [h1]))

theorem Aside.of_inner {w : List Src} {d e : Dev} (h : e.inner = d.inner) : Aside w d e := by
  have hun := unreached_of_inner h
  simp only [Dev.inner, Prod.mk.injEq] at h
  obtain ⟨⟨-, -, -, -, -, -, -, -, -, -, hten⟩, hports, hctrls, hqueues, hunfetched, -, -, hring, -, -, hwait, -, -⟩ := h
  have hport : ∀ p, portGet e p = portGet d p := fun p => by unfold portGet; rw [hports]
  exact ⟨hun, hctrls, hqueues, hunfetched, hring, by rw [hten], fun hw => by rwa [hwait], fun p _ => hport p, fun p _ => .inl (hport p)⟩

theorem Aside.foldl {α : Type} {w : List Src} {f : Dev → α → Dev} (hf : ∀ d x, d.host.hmbWait ⊆ w → Aside w d (f d x)) (l : List α) (d : Dev)
    (hw : d.host.hmbWait ⊆ w) : Aside w d (l.foldl f d) := by
  induction l generalizing d with
  | nil => exact Aside.refl w d
  | cons x l ih => exact (hf d x hw).trans (ih (f d x) ((hf d x hw).waits hw))

theorem portGet_portPut_other (d : Dev) {p o : Nat} (x : Port) (h : o ≠ p) : portGet (portPut d p x) o = portGet d o :=
  tabGetD_tabPut_other _ _ _ h

/-- A completion returns its port's link to full width, and touches no other port. -/
theorem cqPost_port_other {p o : Nat} (h : o ≠ p) (fn sq cid : Nat) (st : NvStat) (dw0 dw1 : Nat) (data : List Nat) (d : Dev) :
    portGet (cqPost p fn sq cid st dw0 dw1 data d) o = portGet d o := by
  unfold cqPost widthRestore
  split
  · split
    · exact tabGetD_tabPut_other _ _ _ h
    · rfl
  · rfl

theorem cqPost_port_wide {p : Nat} {d : Dev} (h : (portGet d p).link ≠ .l0p) (fn sq cid : Nat) (st : NvStat) (dw0 dw1 : Nat)
    (data : List Nat) (o : Nat) : portGet (cqPost p fn sq cid st dw0 dw1 data d) o = portGet d o := by
  unfold cqPost widthRestore
  split
  next x hx =>
    have hlink : x.link ≠ .l0p := by
      have hget : portGet d p = x := by
        unfold portGet tabGetD
        rw [show tabGet d.host.ports p = some x from hx]
        rfl
      rwa [hget] at h
    rw [if_neg hlink]
    rfl
  · rfl

theorem cqPost_frame_lists (p fn sq cid : Nat) (st : NvStat) (dw0 dw1 : Nat) (data : List Nat) (d : Dev) :
    (cqPost p fn sq cid st dw0 dw1 data d).host.ctrls = d.host.ctrls ∧ (cqPost p fn sq cid st dw0 dw1 data d).host.queues = d.host.queues ∧
    (cqPost p fn sq cid st dw0 dw1 data d).host.unfetched = d.host.unfetched ∧
    (cqPost p fn sq cid st dw0 dw1 data d).host.ringWait = d.host.ringWait ∧ (cqPost p fn sq cid st dw0 dw1 data d).ten = d.ten ∧
    (cqPost p fn sq cid st dw0 dw1 data d).host.hmbWait = d.host.hmbWait := by
  unfold cqPost widthRestore
  split
  · split <;> exact ⟨rfl, rfl, rfl, rfl, rfl, rfl⟩
  · exact ⟨rfl, rfl, rfl, rfl, rfl, rfl⟩

theorem cqPost_aside {w : List Src} {c : Src} (hc : c ∈ w) (fn sq cid : Nat) (st : NvStat) (dw0 dw1 : Nat) (data : List Nat) (d : Dev) :
    Aside w d (cqPost c.port fn sq cid st dw0 dw1 data d) := by
  obtain ⟨h1, h2, h3, h4, h5, h6⟩ := cqPost_frame_lists c.port fn sq cid st dw0 dw1 data d
  refine ⟨cqPost_unreached .., h1, h2, h3, h4, by rw [h5], by rw [h6]; exact id, fun p hp => ?_, fun p hp => .inl ?_⟩
  · exact cqPost_port_other (hp c hc).symm ..
  · by_cases hpc : p = c.port
    · subst hpc
      exact cqPost_port_wide hp ..
    · exact cqPost_port_other hpc ..

/-- The Host Memory Buffer of a port goes off. -/
def hmbGone (p : Nat) (d : Dev) : Dev :=
  match tabGet d.host.ports p with
  | some x => { d with host := { d.host with ports := tabPut d.host.ports p { x with hmb := .off, hmbUnits := 0 } } }
  | none => d

theorem hmbGone_aside {w : List Src} {c : Src} (hc : c ∈ w) (d : Dev) : Aside w d (hmbGone c.port d) := by
  unfold hmbGone
  split
  next x hx =>
    refine ⟨rfl, rfl, rfl, rfl, rfl, rfl, id, fun p hp => ?_, fun p hp => ?_⟩
    · exact tabGetD_tabPut_other _ _ _ (hp c hc).symm
    · by_cases hpc : p = c.port
      · subst hpc
        refine .inr ((tabGetD_tabPut_self ..).trans ?_)
        unfold portGet tabGetD
        rw [hx]
        rfl
      · exact .inl (tabGetD_tabPut_other _ _ _ hpc)
  · exact Aside.refl w d

theorem hmbStop_aside {w : List Src} {c : Src} (hc : c ∈ w) (d : Dev) : Aside w d (hmbStop c d) := by
  unfold hmbStop
  extract_lets segs d1 d2 host1 d3 left
  have hd2 : Aside w d d2 := Aside.of_inner
    (calc d2.inner
      _ = d1.inner := rfl
      _ = d.inner := (jComplete_inner _).trans ((jFlush_inner _).trans (jComplete_inner d)))
  have hd3 : Aside w d2 d3 := hmbGone_aside hc d2
  have hhw : ∀ h : Hw, Aside w d3 { d3 with hw := h } := fun h => Aside.of_inner rfl
  exact hd2.trans (hd3.trans ((hhw _).trans (cqPost_aside hc ..)))

theorem hmbSettle_aside {w : List Src} {d : Dev} (hw : d.host.hmbWait ⊆ w) : Aside w d (hmbSettle d) := by
  have hrest : Aside w d { d with host := { d.host with hmbWait := d.host.hmbWait.filter (fun c => homeOps d c.port) } } :=
    ⟨rfl, rfl, rfl, rfl, rfl, rfl, fun _ => List.Subset.trans (List.filter_subset_self ..) hw, fun _ _ => rfl, fun _ _ => .inl rfl⟩
  have hstops : ∀ (l : List Src) (x : Dev), l ⊆ w → Aside w x (l.foldl (fun x c => hmbStop c x) x) := by
    intro l x hl
    induction l generalizing x with
    | nil => exact Aside.refl w x
    | cons c l ih => exact (hmbStop_aside (hl (by simp)) x).trans (ih _ (List.cons_subset.mp hl).2)
  exact hrest.trans (hstops _ _ (List.Subset.trans (List.filter_subset_self ..) hw))

theorem kenPut_aside (w : List Src) (d : Dev) (k : Nat) (x : Kennel) : Aside w d (kenPut d k x) :=
  ⟨rfl, rfl, rfl, rfl, rfl, rfl, id, fun _ _ => rfl, fun _ _ => .inl rfl⟩

theorem opsPut_aside (w : List Src) (d : Dev) (t : List (Nat × Op)) : Aside w d { d with host := { d.host with ops := t } } :=
  ⟨rfl, rfl, rfl, rfl, rfl, rfl, id, fun _ _ => rfl, fun _ _ => .inl rfl⟩

theorem opEnd_aside {w : List Src} {d : Dev} (hw : d.host.hmbWait ⊆ w) {tag : Nat}
    (hquiet : ∀ o, tabGet d.host.ops tag = some o → o.quiet = true) (st : NvStat) (dw0 dw1 : Nat) (data : List Nat) :
    Aside w d (opEnd tag st dw0 dw1 data d) := by
  unfold opEnd
  split
  · exact Aside.refl w d
  next o ho =>
    extract_lets host1 d1 x d2
    have hd1 : Aside w d d1 := (opsPut_aside w d (tabDel d.host.ops tag)).trans (Aside.of_inner (bufsFree_inner ..))
    have hd2 : Aside w d1 d2 := by
      simp only [d2]
      split
      · exact kenPut_aside ..
      · exact Aside.refl w d1
    rw [if_pos (hquiet o ho)]
    exact (hd1.trans hd2).trans (hmbSettle_aside ((hd1.trans hd2).waits hw))

theorem opMod_aside (w : List Src) (tag : Nat) (f : Op → Op) (d : Dev) : Aside w d (opMod tag f d) := by
  unfold opMod
  split
  · exact Aside.refl w d
  · exact opsPut_aside ..

theorem quiet_of_opMod {d : Dev} {tag : Nat} {o : Op} (h : tabGet (opMod tag (fun o => { o with quiet := true }) d).host.ops tag = some o) :
    o.quiet = true := by
  unfold opMod at h
  split at h
  · simp_all
  · rw [tabGet_tabPut_self] at h
    cases h
    rfl

/-! Reads that leave their queue. -/

theorem rqInsert_inner (r : Nat) (x : Run) (d : Dev) : (rqInsert r x d).inner = d.inner := rfl

theorem overflowFill_inner (die n : Nat) (d : Dev) : (overflowFill die n d).inner = d.inner := by
  induction n generalizing d with
  | zero => rfl
  | succ n ih =>
    rw [overflowFill]
    dsimp only
    split
    · rfl
    · split
      · rfl
      · split
        · exact (ih _).trans (rqInsert_inner ..)
        · rfl

theorem resumeCheck_inner (die : Nat) (d : Dev) : (resumeCheck die d).inner = d.inner := by
  unfold resumeCheck
  extract_lets y
  split
  · split <;> rfl
  · rfl

theorem rqLeave_inner (r die : Nat) (d : Dev) : (rqLeave r die d).inner = d.inner :=
  (resumeCheck_inner ..).trans (overflowFill_inner ..)

theorem opDiscard_aside {w : List Src} {d : Dev} (hw : d.host.hmbWait ⊆ w) (tag : Nat) : Aside w d (opDiscard tag d) := by
  unfold opDiscard
  extract_lets mine rs d1 fl0 fl doomed
  have hd1 : d1.inner = d.inner := foldl_keeps Dev.inner (fun x r => by
    split
    · exact rqLeave_inner ..
    · rfl) rs d
  have hdoom : ∀ (f : Flash) (m : Media), Aside w d (doomCheck { d1 with fl := f, med := m }) := fun f m =>
    Aside.of_inner ((doomCheck_inner _).trans hd1)
  have hmod := (hdoom fl { d1.med with doomed := doomed }).trans (opMod_aside w tag (fun o => { o with quiet := true }) _)
  exact hmod.trans (opEnd_aside (hmod.waits hw) (fun _ => quiet_of_opMod) ..)

/-! A controller's reset. -/

/-- The lists of a controller's waiting commands are emptied. -/
def waitsDropped (ck : Nat) (d : Dev) : Dev := { d with host := { d.host with
  queues := d.host.queues.filter (fun q => decide (q.1 / 65536 ≠ ck))
  unfetched := d.host.unfetched.filter (fun q => decide (q.1 / 65536 ≠ ck))
  ringWait := d.host.ringWait.filter (fun q => decide (q.1 * 64 + q.2.1 ≠ ck))
  fetched := d.host.fetched.filter (fun q => decide (q.1 / 65536 ≠ ck))
  posted := d.host.posted.filter (fun q => decide (q.1 / 65536 ≠ ck))
  hmbWait := d.host.hmbWait.filter (fun c => decide (c.port * 64 + c.fn ≠ ck))
  rndHeld := d.host.rndHeld.filter (fun x => !x.src.any (fun c => decide (c.port * 64 + c.fn = ck))) } }

/-- The registers that a controller keeps through its reset, the rest at their reset values. -/
def Ctrl.afterReset (c : Ctrl) : Ctrl :=
  { Ctrl.init with online := c.online, vq := c.vq, vi := c.vi, hostId := 0, aqa := c.aqa, asq := c.asq, acq := c.acq, d3 := c.d3 }

theorem ctrlReset_eq {w : List Src} {d : Dev} (hw : d.host.hmbWait ⊆ w) (p fn : Nat) : ∃ x, Aside w (waitsDropped (p * 64 + fn) d) x ∧
    ctrlReset p fn d = if fn = 0 then
        portPut (ctrlPut x p fn (ctrlGet d p fn).afterReset) p { portGet x p with hmb := .off, hmbUnits := 0 }
      else ctrlPut x p fn (ctrlGet d p fn).afterReset := by
  have hdropped : (waitsDropped (p * 64 + fn) d).host.hmbWait ⊆ w := List.Subset.trans (List.filter_subset_self ..) hw
  have hops : Aside w (waitsDropped (p * 64 + fn) d) ((d.host.ops.filter (fun q => decide (q.2.port * 64 + q.2.fn = p * 64 + fn))).foldl (fun x q =>
      if q.2.dispatched then opMod q.1 (fun o => { o with quiet := true }) x else opDiscard q.1 x) (waitsDropped (p * 64 + fn) d)) := by
    refine Aside.foldl (fun x q hx => ?_) _ _ hdropped
    split
    · exact opMod_aside ..
    · exact opDiscard_aside hx _
  refine ⟨_, hops, ?_⟩
  have hget : ctrlGet d p fn = ctrlGet ((d.host.ops.filter (fun q => decide (q.2.port * 64 + q.2.fn = p * 64 + fn))).foldl (fun x q =>
      if q.2.dispatched then opMod q.1 (fun o => { o with quiet := true }) x else opDiscard q.1 x) (waitsDropped (p * 64 + fn) d)) p fn := by
    unfold ctrlGet
    rw [hops.ctrls]
    rfl
  rw [hget]
  rfl

theorem ctrlGet_ctrlPut_other (d : Dev) {p fn o f : Nat} (c : Ctrl) (h : o * 64 + f ≠ p * 64 + fn) : ctrlGet (ctrlPut d p fn c) o f = ctrlGet d o f :=
  tabGetD_tabPut_other _ _ _ h

theorem ctrlGet_portPut (d : Dev) (p : Nat) (x : Port) (o f : Nat) : ctrlGet (portPut d p x) o f = ctrlGet d o f := rfl

theorem Aside.ctrlGet {w : List Src} {d e : Dev} (h : Aside w d e) (p fn : Nat) : ctrlGet e p fn = ctrlGet d p fn := by
  unfold Machine.ctrlGet
  rw [h.ctrls]

/-- A reset of controllers of port `p`: other ports' controllers and ports stay, and a Host Memory Buffer that is off stays off. -/
structure PortReset (w : List Src) (p : Nat) (d e : Dev) : Prop where
  unreached : e.unreached = d.unreached
  namespaces : e.ten.namespaces = d.ten.namespaces
  waits : d.host.hmbWait ⊆ w → e.host.hmbWait ⊆ w
  ctrl : ∀ o f, o ≠ p → f < 64 → ctrlGet e o f = ctrlGet d o f
  other : ∀ o, o ≠ p → (∀ c ∈ w, c.port ≠ o) → portGet e o = portGet d o
  hmb : (portGet d p).link ≠ .l0p → portGet e p = portGet d p ∨ portGet e p = { portGet d p with hmb := .off, hmbUnits := 0 }

theorem PortReset.refl (w : List Src) (p : Nat) (d : Dev) : PortReset w p d d :=
  ⟨rfl, rfl, id, fun _ _ _ _ => rfl, fun _ _ _ => rfl, fun _ => .inl rfl⟩

theorem PortReset.trans {w : List Src} {p : Nat} {d e f : Dev} (h : PortReset w p d e) (k : PortReset w p e f) : PortReset w p d f where
  unreached := k.unreached.trans h.unreached
  namespaces := k.namespaces.trans h.namespaces
  waits := k.waits ∘ h.waits
  ctrl o g ho hg := (k.ctrl o g ho hg).trans (h.ctrl o g ho hg)
  other o ho hw := (k.other o ho hw).trans (h.other o ho hw)
  hmb hp := by
    rcases h.hmb hp with h1 | h1
    · rw [← h1]
      exact k.hmb (by rwa [h1])
    · rcases k.hmb (by rwa [h1]) with h2 | h2
      · exact .inr (h2.trans h1)
      · exact .inr (h2.trans (by rw [h1]))

/-- A controller as its reset leaves it, or as it is before it is first used. -/
def Ctrl.Quiet (c : Ctrl) : Prop := c.en = false ∧ c.rdy = false ∧ c.shn = 0 ∧ c.shst = 0 ∧ c.cfs = false

theorem ctrlReset_portReset {w : List Src} {d : Dev} (hw : d.host.hmbWait ⊆ w) (p : Nat) {fn : Nat} (hfn : fn < 64) :
    PortReset w p d (ctrlReset p fn d) ∧ ctrlGet (ctrlReset p fn d) p fn = (ctrlGet d p fn).afterReset ∧
    (∀ f, f ≠ fn → ctrlGet (ctrlReset p fn d) p f = ctrlGet d p f) ∧
    (fn = 0 → (portGet d p).link ≠ .l0p → portGet (ctrlReset p fn d) p = { portGet d p with hmb := .off, hmbUnits := 0 }) := by
  obtain ⟨x, hx, heq⟩ := ctrlReset_eq hw p fn
  have hctrl : ∀ o f, ctrlGet x o f = ctrlGet d o f := fun o f => hx.ctrlGet o f
  have hwaits : x.host.hmbWait ⊆ w := hx.waits (List.Subset.trans (List.filter_subset_self ..) hw)
  have hhmb : (portGet d p).link ≠ .l0p → portGet x p = portGet d p ∨ portGet x p = { portGet d p with hmb := .off, hmbUnits := 0 } := hx.hmb p
  by_cases h0 : fn = 0
  · rw [heq, if_pos h0]
    have hport : (portGet d p).link ≠ .l0p →
        ({ portGet x p with hmb := .off, hmbUnits := 0 } : Port) = { portGet d p with hmb := .off, hmbUnits := 0 } := by
      intro hp
      rcases hhmb hp with h1 | h1 <;> rw [h1]
    refine ⟨⟨hx.unreached, hx.namespaces, fun _ => hwaits, fun o f ho hf => ?_, fun o ho hc => ?_, fun hp => .inr ?_⟩, ?_, fun f hf => ?_,
      fun _ hp => ?_⟩
    · rw [ctrlGet_portPut, ctrlGet_ctrlPut_other _ _ (by omega), hctrl]
    · rw [portGet_portPut_other _ _ ho]
      exact hx.other o hc
    · rw [portGet_portPut, hport hp]
    · rw [ctrlGet_portPut, ctrlGet_ctrlPut]
    · rw [ctrlGet_portPut, ctrlGet_ctrlPut_other _ _ (by omega), hctrl]
    · rw [portGet_portPut, hport hp]
  · rw [heq, if_neg h0]
    refine ⟨⟨hx.unreached, hx.namespaces, fun _ => hwaits, fun o f ho hf => ?_, fun o ho hc => hx.other o hc, hhmb⟩, ?_, fun f hf => ?_,
      fun h => absurd h h0⟩
    · rw [ctrlGet_ctrlPut_other _ _ (by omega), hctrl]
    · rw [ctrlGet_ctrlPut]
    · rw [ctrlGet_ctrlPut_other _ _ (by omega), hctrl]

/-- What PERST does to one function: the PF is reset, and a VF that has been used. -/
def perstCtrl (p : Nat) (x : Dev) (f : Nat) : Dev :=
  if f = 0 ∨ (tabGet x.host.ctrls (p * 64 + f)).isSome then ctrlReset p f x else x

theorem ctrlGet_of_unused {d : Dev} {p f : Nat} (h : ¬ (tabGet d.host.ctrls (p * 64 + f)).isSome = true) : ctrlGet d p f = Ctrl.init := by
  have hnone : tabGet d.host.ctrls (p * 64 + f) = none := by simpa using h
  unfold ctrlGet tabGetD
  rw [hnone]
  rfl

theorem perstCtrl_spec {w : List Src} {d : Dev} (hw : d.host.hmbWait ⊆ w) (p : Nat) {fn : Nat} (hfn : fn < 64) :
    PortReset w p d (perstCtrl p d fn) ∧ (ctrlGet (perstCtrl p d fn) p fn).Quiet ∧
    (∀ f, f ≠ fn → ctrlGet (perstCtrl p d fn) p f = ctrlGet d p f) ∧
    (fn = 0 → (portGet d p).link ≠ .l0p → portGet (perstCtrl p d fn) p = { portGet d p with hmb := .off, hmbUnits := 0 }) := by
  unfold perstCtrl
  split
  · obtain ⟨hreset, hctrl, hrest, hhmb⟩ := ctrlReset_portReset hw p hfn
    exact ⟨hreset, by rw [hctrl]; exact ⟨rfl, rfl, rfl, rfl, rfl⟩, hrest, hhmb⟩
  next h =>
    obtain ⟨h0, hunused⟩ := not_or.mp h
    exact ⟨PortReset.refl .., by rw [ctrlGet_of_unused hunused]; exact ⟨rfl, rfl, rfl, rfl, rfl⟩, fun _ _ => rfl, fun h => absurd h h0⟩

theorem foldl_perstCtrl {w : List Src} (p : Nat) (l : List Nat) (hl : ∀ f ∈ l, f < 64) (d : Dev) (hw : d.host.hmbWait ⊆ w) :
    PortReset w p d (l.foldl (perstCtrl p) d) ∧ ∀ f, (f ∈ l ∨ (ctrlGet d p f).Quiet) → (ctrlGet (l.foldl (perstCtrl p) d) p f).Quiet := by
  induction l generalizing d with
  | nil => exact ⟨PortReset.refl .., fun f hf => hf.resolve_left (by simp)⟩
  | cons g l ih =>
    obtain ⟨hstep, hquiet, hrest, -⟩ := perstCtrl_spec hw p (hl g (by simp))
    obtain ⟨htail, hquiets⟩ := ih (fun f hf => hl f (by simp [hf])) (perstCtrl p d g) (hstep.waits hw)
    refine ⟨hstep.trans htail, fun f hf => hquiets f ?_⟩
    by_cases hfg : f = g
    · subst hfg
      exact .inr hquiet
    · rw [hrest f hfg]
      exact hf.imp_left fun hm => (List.mem_cons.mp hm).resolve_left hfg

/-- The controllers of a port whose link is not in L0p are all reset. -/
theorem perstCtrls_spec {w : List Src} {d : Dev} (hw : d.host.hmbWait ⊆ w) {p : Nat} (hlink : (portGet d p).link ≠ .l0p) :
    PortReset w p d ((List.range 64).foldl (perstCtrl p) d) ∧ (∀ f < 64, (ctrlGet ((List.range 64).foldl (perstCtrl p) d) p f).Quiet) ∧
    portGet ((List.range 64).foldl (perstCtrl p) d) p = { portGet d p with hmb := .off, hmbUnits := 0 } := by
  have hsplit : List.range 64 = 0 :: List.range' 1 63 := by rw [List.range_eq_range']; rfl
  obtain ⟨hall, hquiet⟩ := foldl_perstCtrl p (List.range 64) (fun f hf => List.mem_range.mp hf) d hw
  refine ⟨hall, fun f hf => hquiet f (.inl (List.mem_range.mpr hf)), ?_⟩
  obtain ⟨hstep, -, -, hhmb⟩ := perstCtrl_spec hw p (fn := 0) (by decide)
  obtain ⟨hrest, -⟩ := foldl_perstCtrl p (List.range' 1 63) (fun f hf => by simp at hf; omega) (perstCtrl p d 0) (hstep.waits hw)
  have hfirst := hhmb rfl hlink
  rw [hsplit, List.foldl_cons]
  rcases hrest.hmb (by rw [hfirst]; exact hlink) with h1 | h1 <;> rw [h1, hfirst]

theorem linkDrop_spec (p : Nat) (dst : LinkSt) (d : Dev) : ∃ h : Hw, linkDrop p dst d = { portPut d p { portGet d p with
    link := dst, rate := 0, width := 0, fullWidth := 0, flit := false } with hw := h } := by
  unfold linkDrop
  dsimp only
  split <;> exact ⟨_, rfl⟩

/-- PERST (R50). -/
theorem perstAssert_eq {d : Dev} {p : Nat} (hp : portPresent d p = true) (hhigh : (portGet d p).perst = false) : ∃ (h : Hw) (x : Dev),
    x = { portPut d p { portGet d p with link := .detect, rate := 0, width := 0, fullWidth := 0, flit := false } with hw := h } ∧
    perstAssert p d = settle (portPut ((List.range 64).foldl (perstCtrl p) x) p { portGet ((List.range 64).foldl (perstCtrl p) x) p with
      perst := true, answering := false, lastConfig := none, ptmEn := false, ptmOffset := 0#64 }) := by
  obtain ⟨h, hdrop⟩ := linkDrop_spec p .detect d
  refine ⟨(hostIrq p 0 (linkDrop p .detect d)).hw, _, rfl, ?_⟩
  have hx : hostIrq p 0 (linkDrop p .detect d) = { portPut d p { portGet d p with
      link := .detect, rate := 0, width := 0, fullWidth := 0, flit := false } with hw := (hostIrq p 0 (linkDrop p .detect d)).hw } := by
    unfold hostIrq
    rw [hdrop]
  rw [perstAssert, if_neg (by simp [hp, hhigh]), ← hx]
  rfl

/-! Domains of a port. -/

theorem portDoms_range {d : Dev} {p : Nat} (hp : portPresent d p = true) {n : Nat} (hn : n ∈ portDoms d p) : n = 85 ∨ n = 86 := by
  unfold portDoms at hn
  split at hn
  · have hport : p = 0 ∨ p = 1 := by
      simp only [portPresent, Bool.or_eq_true, Bool.and_eq_true, decide_eq_true_eq] at hp
      exact hp.imp_right And.left
    simp only [List.mem_singleton] at hn
    omega
  · simpa using hn

theorem portDoms_nodup (d : Dev) (p : Nat) : (portDoms d p).Nodup := by
  unfold portDoms
  split <;> simp

/-- Wakes of several domains reach each that rests. -/
theorem foldl_wakeReq_waking {src : Nat} (l : List Nat) (h0 : 0 ∉ l) (hnodup : l.Nodup) (d : Dev) {n : Nat}
    (hp : domPresent d.fuse n = true) (hn : n ∈ l ∧ ((domGet d.pwr n).st = .off ∨ (domGet d.pwr n).st = .ret) ∨
      n ∉ l ∧ (domGet d.pwr n).st = .waking ∧ (domGet d.pwr n).src = src) :
    (domGet (l.foldl (fun x k => wakeReq k src x) d).pwr n).st = .waking ∧ (domGet (l.foldl (fun x k => wakeReq k src x) d).pwr n).src = src := by
  induction l generalizing d with
  | nil => exact (hn.resolve_left (by simp)).2
  | cons k l ih =>
    obtain ⟨hkl, hnodup⟩ := List.nodup_cons.mp hnodup
    obtain ⟨hk0, h0⟩ : k ≠ 0 ∧ 0 ∉ l := by simpa [eq_comm] using h0
    have hfuse : (wakeReq k src d).fuse = d.fuse := by rw [wakeReq_frame]
    refine ih h0 hnodup (wakeReq k src d) (by rwa [hfuse]) ?_
    by_cases hnk : n = k
    · subst hnk
      have hrest := (hn.resolve_right (by simp)).2
      refine .inr ⟨hkl, ?_⟩
      rw [wakeReq_of_rest hk0 hp hrest, domGet_domPut_self hk0]
      exact ⟨rfl, rfl⟩
    · rw [domGet_wakeReq_other hnk]
      simpa [hnk] using hn

theorem domGet_tryOff_other {j n : Nat} (h : j ≠ n) (d : Dev) : domGet (tryOff n d).pwr j = domGet d.pwr j := by
  unfold tryOff
  dsimp only
  split
  · exact domGet_domPut_other h ..
  · rfl

/-- Holds that take effect leave a domain that does not rest. -/
theorem domGet_settle {d : Dev} {n : Nat} (hoff : (domGet d.pwr n).st ≠ .off) (hret : (domGet d.pwr n).st ≠ .ret) :
    domGet (settle d).pwr n = domGet d.pwr n := by
  unfold settle
  split
  · rfl
  next hseq =>
    clear hseq
    generalize seqOrder d.fuse = l
    induction l generalizing d with
    | nil => rfl
    | cons k l ih =>
      rw [List.foldl_cons]
      extract_lets y
      have hstep : domGet (if y.flushOff = true then d else if y.st = .off then (if holds d k = 0 then d else wakeReq k 5 d)
          else if y.st = .ret ∧ domMode d.hw k = 3 then tryOff k d else d).pwr n = domGet d.pwr n := by
        by_cases hnk : n = k
        · subst hnk
          have h1 : y.st ≠ .off := hoff
          have h2 : ¬ (y.st = .ret ∧ domMode d.hw n = 3) := fun h => hret h.1
          rw [if_neg h1, if_neg h2, ite_self]
        · split
          · rfl
          · split
            · split
              · rfl
              · exact domGet_wakeReq_other hnk ..
            · split
              · exact domGet_tryOff_other hnk _
              · rfl
      exact (ih (by rw [hstep]; exact hoff) (by rw [hstep]; exact hret)).trans hstep

theorem domSave_port {n : Nat} (h : n = 85 ∨ n = 86) (d : Dev) : domSave n d = d := by
  rcases h with rfl | rfl <;> rfl

/-- L1.2: a domain of the port goes to retention where it is ON and no force holds it. -/
def l12Dom (y : Dev) (n : Nat) : Dev :=
  if domOn y.pwr n && decide (domMode y.hw n ≠ 1) then domSet n { domGet y.pwr n with st := .ret, wake := none } (domSave n y) else y

theorem l12Dom_frame {n : Nat} (hn : n = 85 ∨ n = 86) (y : Dev) : l12Dom y n = { y with pwr := (l12Dom y n).pwr } := by
  unfold l12Dom
  rw [domSave_port hn]
  split <;> rfl

theorem domGet_l12Dom_other {j n : Nat} (h : j ≠ n) (y : Dev) : domGet (l12Dom y n).pwr j = domGet y.pwr j := by
  unfold l12Dom
  split
  · rw [domSet_pwr, domSave_pwr, domGet_domPut_other h]
  · rfl

theorem domGet_l12Dom_self {n : Nat} (h0 : n ≠ 0) {y : Dev} (hon : domOn y.pwr n = true) (hmode : domMode y.hw n ≠ 1) :
    (domGet (l12Dom y n).pwr n).st = .ret := by
  unfold l12Dom
  rw [if_pos (by simp [hon, hmode]), domSet_pwr, domGet_domPut_self h0]

theorem foldl_l12Dom (l : List Nat) (hl : ∀ n ∈ l, n = 85 ∨ n = 86) (hnodup : l.Nodup) (y : Dev) :
    l.foldl l12Dom y = { y with pwr := (l.foldl l12Dom y).pwr } ∧
    (∀ n ∈ l, domOn y.pwr n = true → domMode y.hw n ≠ 1 → (domGet (l.foldl l12Dom y).pwr n).st = .ret) ∧
    ∀ n, n ∉ l → domGet (l.foldl l12Dom y).pwr n = domGet y.pwr n := by
  induction l generalizing y with
  | nil => exact ⟨rfl, by simp, fun _ _ => rfl⟩
  | cons k l ih =>
    obtain ⟨hkl, hnodup⟩ := List.nodup_cons.mp hnodup
    have hk := hl k (by simp)
    have hstep := l12Dom_frame hk y
    have hmode : ∀ n, domMode (l12Dom y k).hw n = domMode y.hw n := fun n => by rw [hstep]
    obtain ⟨hframe, hret, hrest⟩ := ih (fun n hn => hl n (by simp [hn])) hnodup (l12Dom y k)
    simp only [List.foldl_cons]
    refine ⟨?_, fun n hn hon hm => ?_, fun n hn => ?_⟩
    · rw [hframe, hstep]
    · by_cases hnk : n = k
      · subst hnk
        rw [hrest n hkl]
        exact domGet_l12Dom_self (by omega) hon hm
      · have hgot := domGet_l12Dom_other hnk y
        refine hret n ((List.mem_cons.mp hn).resolve_left hnk) ?_ (by rwa [hmode])
        unfold domOn
        rw [hgot]
        exact hon
    · obtain ⟨hnk, hnl⟩ := not_or.mp (mt List.mem_cons.mpr hn)
      rw [hrest n hnl, domGet_l12Dom_other hnk]

/-- Settles O19: PERST by `perstCtrls_spec`, the domains by the wakes' lemma, every other command by its equation. -/
theorem linkCommands : Obligations.LinkCommands := by
  refine ⟨?perst, ?release, ?trained, ?retry, ?config, ?timeout, ?fwUp, ?reduce, ?bound, ?partner, ?l12, ?clkreq, ?ptm, ?ptmFail, ?down,
    ?error⟩
  case perst =>
    intro d p hp hhigh
    obtain ⟨h, x, hx, heq⟩ := perstAssert_eq hp hhigh
    have hxport : portGet x p = { portGet d p with link := .detect, rate := 0, width := 0, fullWidth := 0, flit := false } := by
      rw [hx]
      exact portGet_portPut ..
    have hxother : ∀ o, o ≠ p → portGet x o = portGet d o := fun o ho => by
      rw [hx]
      exact portGet_portPut_other _ _ ho
    have hxctrl : ∀ o f, ctrlGet x o f = ctrlGet d o f := fun o f => by rw [hx]; rfl
    have hxwait : x.host.hmbWait = d.host.hmbWait := by rw [hx]; rfl
    have hxun : x.unreached = d.unreached := by rw [hx]; rfl
    have hxns : x.ten.namespaces = d.ten.namespaces := by rw [hx]; rfl
    obtain ⟨hreset, hquiet, hport⟩ := perstCtrls_spec (w := d.host.hmbWait) (by rw [hxwait]; exact List.Subset.refl _)
      (p := p) (by rw [hxport]; exact LinkSt.noConfusion)
    generalize (List.range 64).foldl (perstCtrl p) x = y at heq hreset hquiet hport
    rw [settle_frame] at heq
    have hun := hreset.unreached.trans hxun
    simp only [Dev.unreached, Prod.mk.injEq] at hun
    obtain ⟨hfuse, -, -, -, hsec, -⟩ := hun
    refine ⟨_, Runs.of_onUnit (exec_perstAssert p) hp heq, ?_, fun f hf => hquiet f hf, fun o f ho hf => ?_, fun hnil o ho => ?_, hfuse, hsec,
      hreset.namespaces.trans hxns⟩
    · refine (portGet_portPut ..).trans ?_
      rw [hport, hxport]
    · exact (hreset.ctrl o f ho hf).trans (hxctrl o f)
    · refine (portGet_portPut_other _ _ ho).trans ((hreset.other o ho ?_).trans (hxother o ho))
      simp [hnil]
  case release =>
    intro d p hp hlow hhigh
    have hrun : perstRelease p d = ringDeliver (settle ((portDoms (hostIrq p 1 (portPut d p { portGet d p with perst := false })) p).foldl
        (fun x n => wakeReq n 6 x) (hostIrq p 1 (portPut d p { portGet d p with perst := false })))) := if_neg (by simp [hp, hlow, hhigh])
    have hdoms : portDoms (hostIrq p 1 (portPut d p { portGet d p with perst := false })) p = portDoms d p := rfl
    rw [hdoms] at hrun
    have hwoken := fun n hn => foldl_wakeReq_waking (src := 6) (portDoms d p)
      (fun h0 => by have := portDoms_range hp h0; omega) (portDoms_nodup d p) (hostIrq p 1 (portPut d p { portGet d p with perst := false })) (n := n) hn
    have hframe := foldl_pwr_frame (fun x n => wakeReq n 6 x) (fun x n => wakeReq_frame n 6 x) (portDoms d p)
      (hostIrq p 1 (portPut d p { portGet d p with perst := false }))
    generalize (portDoms d p).foldl (fun x n => wakeReq n 6 x) (hostIrq p 1 (portPut d p { portGet d p with perst := false })) = y
      at hrun hwoken hframe
    have hsettled := settle_frame y
    refine ⟨(settle y).pwr, Runs.of_onUnit (exec_perstRelease p) hp ?_, fun n hn => portDoms_range hp hn, fun n hn hpres hrest => ?_⟩
    · rw [hrun, hsettled, hframe]
      rfl
    · obtain ⟨hst, hsrc⟩ := hwoken n hpres (.inl ⟨hn, hrest⟩)
      rw [domGet_settle (by rw [hst]; decide) (by rw [hst]; decide)]
      exact ⟨hst, hsrc⟩
  case trained =>
    intro d p rate width flit hp hperst hon hlink h1 h6 hwidth hlanes
    refine Runs.of_onUnit (exec_linkTrainingDone p rate width flit) hp ?_
    have hdoms : (portDoms d p).all (fun n => domOn d.pwr n) = true := List.all_eq_true.mpr hon
    have hst : (decide ((portGet d p).link = .detect) || decide ((portGet d p).link = .polling) || decide ((portGet d p).link = .recovery)) = true := by
      simpa [or_assoc] using hlink
    refine if_neg ?_
    simp only [hp, hperst, hdoms, hst, h1, h6, hlanes, List.contains_eq_mem, hwidth]
    decide
  case retry =>
    intro d p fn what hok hup hboot
    refine Runs.of_onUnit (exec_configRequest p ⟨fn, what⟩) hok ?_
    have hpresent : ctrlPresent d p fn = true := hok
    have hnormal : cfgNormal d p = false := hboot
    simp [configRequest, hpresent, hup, hnormal]
  case config =>
    intro d p fn what hok hup hboot
    refine ⟨_, rfl, Runs.of_onUnit (exec_configRequest p ⟨fn, what⟩) hok ?_⟩
    have hpresent : ctrlPresent d p fn = true := hok
    have hnormal : cfgNormal d p = true := hboot
    rw [configRequest, if_neg (by simp [hpresent, hup]), if_neg (by simp [hnormal])]
    cases what with
    | power b => simp only [powerSet, beq_iff_eq]; rfl
    | ptm b => rfl
    | _ => rfl
  case timeout =>
    intro d p hp hperst hboot
    refine Runs.of_onUnit (exec_bootConfigTimeout p) hp (if_pos ?_)
    have hfw : fwUp d = false := hboot
    simp [hp, hperst, hfw]
  case fwUp =>
    intro d m hlets
    exact Runs.of_regWrite (exec_fwUpSet m) hlets (by decide) (congrArg (Prod.mk Status.ok) (if_neg (by decide)))
  case reduce =>
    intro d p hp hflit hs0 hlink hwidth
    refine Runs.of_onUnit (exec_linkWidthReduce p) hp (if_neg ?_)
    rcases hlink with hlink | hlink <;> simp [hp, hflit, hs0, hlink, Nat.not_lt.mpr hwidth]
  case bound =>
    intro d p hp hs0
    exact Runs.of_onUnit (exec_linkWidthReduce p) hp (if_pos (by simp [hs0]))
  case partner =>
    intro d p w hp hflit hlink hw hwidth hs0
    refine Runs.of_onUnit (exec_partnerWidthRequest p w) hp (if_neg ?_)
    have hs : (s0Bound d p && decide (w < 4)) = false := by
      by_cases h : s0Bound d p = true
      · simp [hs0 h]
      · simp [h]
    have hst : (decide ((portGet d p).link = .l0) || decide ((portGet d p).link = .l0p)) = true := by simpa using hlink
    simp only [hp, hflit, hs, hst, hwidth, List.contains_eq_mem, hw]
    simp
  case l12 =>
    intro d p hp hup hlink hs0
    have hs : (s0Bound d p && !allD3 d p) = false := by
      by_cases h : s0Bound d p = true
      · simp [hs0 h]
      · simp [h]
    have hrun : l12Entry p d = (portDoms d p).foldl l12Dom (hostIrq p 12 (portPut d p { portGet d p with link := .l12 })) :=
      if_neg (by simp [hp, hup, hlink, hs])
    obtain ⟨hframe, hret, hrest⟩ := foldl_l12Dom (portDoms d p) (fun n hn => portDoms_range hp hn) (portDoms_nodup d p)
      (hostIrq p 12 (portPut d p { portGet d p with link := .l12 }))
    generalize (portDoms d p).foldl l12Dom (hostIrq p 12 (portPut d p { portGet d p with link := .l12 })) = y at hrun hframe hret hrest
    have hport : p = 0 ∨ p = 1 := by
      simp only [portPresent, Bool.or_eq_true, Bool.and_eq_true, decide_eq_true_eq] at hp
      exact hp.imp_right And.left
    refine ⟨y, Runs.of_onUnit (exec_l12Entry p) hp hrun, ?_, ?_, fun n hn hon hmode => hret n hn hon ?_, hrest⟩
    · rw [hframe]
      exact portGet_portPut ..
    · rw [hframe]
      exact bit_rd_irq_at _ irqHostif rfl (by omega) (by rcases hport with rfl | rfl <;> decide)
    · rcases portDoms_range hp hn with rfl | rfl <;> rcases hport with rfl | rfl <;>
        simpa (disch := decide) [domMode, hostIrq, rd_irq_other] using hmode
  case clkreq =>
    intro d p hp hlink
    have hrun : clkreqWake p d = (portDoms d p).foldl (fun x n => wakeReq n 6 x) (hostIrq p 12 (portPut d p { portGet d p with link := .recovery })) :=
      if_neg (by simp [hp, hlink])
    have hwoken := fun n hn => foldl_wakeReq_waking (src := 6) (portDoms d p)
      (fun h0 => by have := portDoms_range hp h0; omega) (portDoms_nodup d p) (hostIrq p 12 (portPut d p { portGet d p with link := .recovery })) (n := n) hn
    have hframe := foldl_pwr_frame (fun x n => wakeReq n 6 x) (fun x n => wakeReq_frame n 6 x) (portDoms d p)
      (hostIrq p 12 (portPut d p { portGet d p with link := .recovery }))
    generalize (portDoms d p).foldl (fun x n => wakeReq n 6 x) (hostIrq p 12 (portPut d p { portGet d p with link := .recovery })) = y
      at hrun hwoken hframe
    exact ⟨y.pwr, Runs.of_onUnit (exec_clkreqWake p) hp (hrun.trans hframe), fun n hn hpres hrest => hwoken n hpres (.inl ⟨hn, hrest⟩)⟩
  case ptm =>
    intro d p offset hp hup hen
    refine ⟨_, Runs.of_onUnit (exec_ptmRefresh p offset) hp (if_pos (by simp [hp, hup, hen])), rfl, ?_⟩
    rw [hostTime, portGet_portPut]
    rfl
  case ptmFail =>
    intro d p hp hen
    exact Runs.of_onUnit (exec_ptmFail p) hp (if_pos (by simp [hp, hen]))
  case down =>
    intro d p disabled hp hup
    refine Runs.of_onUnit (exec_linkDown p disabled) hp ((if_pos (by simp [hp, hup])).trans ?_)
    rw [linkDrop]
    exact if_pos hup
  case error =>
    intro d p uncor hp
    exact Runs.of_onUnit (exec_pcieErrorLogged p uncor) hp (if_neg (by simp [hp]))

end Sys2Proof.Machine
end

section
/-!
PROOFS. Controllers: enable, resets, doorbells, fetching, the admin ring and completions.
-/

namespace Sys2Proof.Machine

/-! HOSTIF's registers. -/

theorem regWriteAt_hostifCtrl (m : Nat) (v : Word) (d : Dev) : regWriteAt m R.HOSTIF_CTRL v d = (.ok, hostifCtrlWrite v d) := rfl
theorem regWriteAt_cctl (m : Nat) (v : Word) (d : Dev) : regWriteAt m R.HOSTIF_CCTL v d = (.ok, cctlWrite v d) := rfl
theorem regWriteAt_acpl (m : Nat) (v : Word) (d : Dev) : regWriteAt m R.HOSTIF_ACPL v d = completionPost m v d := rfl

/-! The reset of one controller. -/

/-- What a controller's reset leaves. -/
theorem ctrlReset_spec {p fn : Nat} (hfn : fn < 64) (d : Dev) :
    ctrlGet (ctrlReset p fn d) p fn = (ctrlGet d p fn).afterReset ∧
    (∀ q ∈ (ctrlReset p fn d).host.queues, q.1 / 65536 ≠ p * 64 + fn) ∧
    (∀ q ∈ (ctrlReset p fn d).host.unfetched, q.1 / 65536 ≠ p * 64 + fn) ∧
    (∀ q ∈ (ctrlReset p fn d).host.ringWait, q.1 * 64 + q.2.1 ≠ p * 64 + fn) ∧
    (ctrlReset p fn d).ten.namespaces = d.ten.namespaces ∧ (ctrlReset p fn d).fuse = d.fuse ∧ (ctrlReset p fn d).sec = d.sec := by
  obtain ⟨hreset, hctrl, -, -⟩ := ctrlReset_portReset (w := d.host.hmbWait) (List.Subset.refl _) p hfn
  obtain ⟨x, hx, heq⟩ := ctrlReset_eq (w := d.host.hmbWait) (List.Subset.refl _) p fn
  have hlists : (ctrlReset p fn d).host.queues = x.host.queues ∧ (ctrlReset p fn d).host.unfetched = x.host.unfetched ∧
      (ctrlReset p fn d).host.ringWait = x.host.ringWait := by
    rw [heq]
    split <;> exact ⟨rfl, rfl, rfl⟩
  obtain ⟨hqueues, hunfetched, hring⟩ := hlists
  have hun := hreset.unreached
  simp only [Dev.unreached, Prod.mk.injEq] at hun
  obtain ⟨hfuse, -, -, -, hsec, -⟩ := hun
  refine ⟨hctrl, ?_, ?_, ?_, hreset.namespaces, hfuse, hsec⟩
  · rw [hqueues, hx.queues]
    exact fun q hq => by simpa using (List.mem_filter.mp hq).2
  · rw [hunfetched, hx.unfetched]
    exact fun q hq => by simpa using (List.mem_filter.mp hq).2
  · rw [hring, hx.ringWait]
    exact fun q hq => by simpa using (List.mem_filter.mp hq).2

/-! Fetching (R78). -/

theorem foldl_sqFetch (l : List (Nat × QCmd)) (d : Dev) :
    (l.foldl (fun x e => sqFetch (e.1 / 65536 / 64) (e.1 / 65536 % 64) (e.1 % 65536) x) d).host.queues = d.host.queues ∧
    (l.foldl (fun x e => sqFetch (e.1 / 65536 / 64) (e.1 / 65536 % 64) (e.1 % 65536) x) d).host.unfetched = d.host.unfetched :=
  have hstep : ∀ (d : Dev) (e : Nat × QCmd), (sqFetch (e.1 / 65536 / 64) (e.1 / 65536 % 64) (e.1 % 65536) d).host.queues = d.host.queues ∧
      (sqFetch (e.1 / 65536 / 64) (e.1 / 65536 % 64) (e.1 % 65536) d).host.unfetched = d.host.unfetched := fun _ _ => ⟨rfl, rfl⟩
  ⟨foldl_keeps (fun d : Dev => d.host.queues) (fun d e => (hstep d e).1) l d,
    foldl_keeps (fun d : Dev => d.host.unfetched) (fun d e => (hstep d e).2) l d⟩

/-- Commands appended to their queues in order. -/
theorem tabGetD_foldl_append (l : List (Nat × QCmd)) (t : List (Nat × List QCmd)) (k : Nat) :
    tabGetD (l.foldl (fun t e => tabMod t e.1 [] (fun l => l ++ [e.2])) t) k [] =
      tabGetD t k [] ++ (l.filter (fun e => decide (e.1 = k))).map (fun e => e.2) := by
  induction l generalizing t with
  | nil => simp
  | cons e l ih =>
    rw [List.foldl_cons, ih]
    by_cases hk : e.1 = k
    · subst hk
      simp [tabMod, tabGetD_tabPut_self]
    · rw [tabMod, tabGetD_tabPut_other _ _ _ (Ne.symm hk)]
      simp [hk]

theorem fetchAll_idle {d : Dev} (h : bit (rd d.hw R.HOSTIF_CTRL) 0 = false ∨ d.host.stopped = true) : fetchAll d = d :=
  if_pos (by rcases h with h | h <;> simp [h])

/-- Settles O20: the reset by `ctrlReset_spec`, fetching by induction over the waiting commands, the rest by equations. -/
theorem controllerCommands : Obligations.ControllerCommands := by
  refine ⟨?enable, ?same, ?reset, ?shn, ?doorbell, ?seeIo, ?seeAdmin, ?seeVendor, ?fetch, ?fetchIdle, ?ring, ?place, ?post, ?entry, ?cctl,
    ?cctlDown, ?adminEn⟩
  case enable =>
    intro d p fn cc aqa asq acq hok hboot hup hen
    refine Runs.of_onUnit (exec_ccEnWrite p fn ⟨true, cc, aqa, asq, acq⟩) hok ((if_neg ?_).trans rfl)
    have hpresent : ctrlPresent d p fn = true := hok
    have hnormal : cfgNormal d p = true := hboot
    simp [hpresent, hnormal, hup, hen]
  case same =>
    intro d p fn en cc aqa asq acq hok hen
    exact Runs.of_onUnit (exec_ccEnWrite p fn ⟨en, cc, aqa, asq, acq⟩) hok (if_pos (by simp [hen]))
  case reset =>
    intro d p fn hok
    have hpresent : ctrlPresent d p fn = true := hok
    have hfn : fn < 64 := by
      simp only [ctrlPresent, Bool.and_eq_true, decide_eq_true_eq] at hpresent
      omega
    refine ⟨ctrlReset p fn d, Runs.of_onUnit (exec_controllerLevelReset p fn) hok (if_pos hpresent),
      Runs.of_onUnit (exec_functionLevelReset p fn) hok (if_pos hpresent), fun cc aqa asq acq hboot hup hen => ?_, ctrlReset_spec hfn d⟩
    refine Runs.of_onUnit (exec_ccEnWrite p fn ⟨false, cc, aqa, asq, acq⟩) hok ((if_neg ?_).trans rfl)
    have hnormal : cfgNormal d p = true := hboot
    simp [hpresent, hnormal, hup, hen]
  case shn =>
    intro d p fn shn hok hboot hup
    have hpresent : ctrlPresent d p fn = true := hok
    have hnormal : cfgNormal d p = true := hboot
    refine ⟨_, rfl, Runs.of_onUnit (exec_ccShnWrite p fn shn) hok ?_⟩
    rw [ccShnWrite, if_neg (by simp [hpresent, hnormal, hup])]
    by_cases h0 : shn % 4 = 0
    · simp [h0]
    · simp only [if_neg h0, Bool.and_eq_true, fwUp]
      rfl
  case doorbell =>
    intro d p fn sq c cs hok hup hen hrdy hboot hd3 hsq
    refine Runs.of_onUnit (exec_doorbellWrite p fn sq (c :: cs)) hok (if_neg ?_)
    have hpresent : ctrlPresent d p fn = true := hok
    have hfw : fwUp d = true := hboot
    rcases hsq with hsq | hsq <;> simp [hpresent, hup, hen, hrdy, hfw, hd3, hsq]
  case seeIo =>
    intro d p fn sq c hsq hflush hzone
    rw [cmdSee, if_neg (by simp [hsq]), if_neg (by simp [hsq, hflush, hzone])]
  case seeAdmin =>
    intro d p fn sq c h
    rw [cmdSee, if_neg (by rcases h with ⟨-, h | h⟩ | ⟨h, -⟩ <;> simp [h]), if_pos (by tauto)]
  case seeVendor =>
    intro d p fn c hfn hv
    exact if_pos ⟨rfl, hfn, hv⟩
  case fetch =>
    intro d hen hrun
    have heq : fetchAll d = d.host.unfetched.foldl (fun x e => sqFetch (e.1 / 65536 / 64) (e.1 / 65536 % 64) (e.1 % 65536) x)
      { d with host := { d.host with
        queues := d.host.unfetched.foldl (fun t e => tabMod t e.1 [] (fun l => l ++ [e.2])) d.host.queues, unfetched := [] } } :=
      if_neg (by simp [hen, hrun])
    obtain ⟨hqueues, hunfetched⟩ := foldl_sqFetch d.host.unfetched { d with host := { d.host with
        queues := d.host.unfetched.foldl (fun t e => tabMod t e.1 [] (fun l => l ++ [e.2])) d.host.queues, unfetched := [] } }
    rw [heq]
    exact ⟨hunfetched, fun k => by rw [hqueues, tabGetD_foldl_append]⟩
  case fetchIdle => exact fun d h => fetchAll_idle h
  case ring =>
    intro d p fn sq sqe hwait
    rw [ringDeliver, hwait]
    simp only [List.length_singleton, ringDrain, hwait, ringRoom, Bool.and_eq_true, Bool.not_eq_true', decide_eq_true_eq, and_assoc]
  case place =>
    intro d p fn sq sqe hok
    refine ⟨_, rfl, ?_⟩
    simp only [ringPlace, hok, if_true]
    rfl
  case post =>
    intro d m v hlets hfl
    refine ⟨_, rfl, Runs.of_regWrite (exec_completionItemPost m v) hlets (by decide) ((regWriteAt_acpl ..).trans ?_)⟩
    rw [completionPost, itemComplete_of_open hfl]
    by_cases hp : ctrlPresent d (fld v 15 1) (fld v 0 7) = true
    · simp only [hp, if_true]
      rfl
    · simp only [hp]
      rfl
  case entry =>
    intro d p fn sq cid dw0 dw1 st data
    exact ⟨_, rfl, rfl, rfl, rfl, rfl, rfl, rfl, rfl, rfl⟩
  case cctl =>
    intro d m v hlets hboot hp
    refine Runs.of_regWrite (exec_hostifCctlWrite m v) hlets (by decide) ((regWriteAt_cctl ..).trans (congrArg (Prod.mk Status.ok) ?_))
    have hfw : fwUp d = true := hboot
    exact if_neg (by simp [hfw, cselOf, hp])
  case cctlDown =>
    intro d m v hlets hboot
    refine Runs.of_regWrite (exec_hostifCctlWrite m v) hlets (by decide) ((regWriteAt_cctl ..).trans (congrArg (Prod.mk Status.ok) ?_))
    have hfw : fwUp d = false := hboot
    exact if_pos (by simp [hfw])
  case adminEn =>
    intro d m v hlets
    refine Runs.of_regWrite (exec_adminEnWrite m v) hlets (by decide) ((regWriteAt_hostifCtrl ..).trans (congrArg (Prod.mk Status.ok) ?_))
    have hlow : (v ||| 2#32) &&& 1#32 = v &&& 1#32 := by
      rw [BitVec.and_or_distrib_right]
      simp
    rw [hostifCtrlWrite, hlow, (bit_or_two v).1, Bool.true_and]

end Sys2Proof.Machine
end

section
/-!
PROOFS. The Rind store: its operations' starts, refusals and ends, and window reads.
-/

namespace Sys2Proof.Machine

theorem regWriteAt_rindCmd (m : Nat) (v : Word) (d : Dev) : regWriteAt m R.RIND_CMD v d = (.ok, rindCmd (fld v 28 4) d) := rfl

/-- A command to the Rind store, by its operation. -/
theorem runs_rindCmd {c : Instr} {d e : Dev} {m op : Nat} (hop : op < 16)
    (hc : ∀ s, exec c s = onUnit (fun _ => masterOk m) (regWrite m R.RIND_CMD (BitVec.ofNat 32 (op * 268435456))) s)
    (hlets : d.lets (writeOf m R.RIND_CMD (BitVec.ofNat 32 (op * 268435456)))) (he : rindCmd op d = e) :
    Runs c d (Dev.wrote e m R.RIND_CMD (BitVec.ofNat 32 (op * 268435456))) := by
  have hfld : fld (BitVec.ofNat 32 (op * 268435456)) 28 4 = op := by
    rw [fld, BitVec.toNat_ushiftRight, BitVec.toNat_ofNat, Nat.shiftRight_eq_div_pow]
    omega
  refine Runs.of_regWrite hc hlets (by decide) ((regWriteAt_rindCmd ..).trans (congrArg (Prod.mk Status.ok) ?_))
  rw [hfld, he]

/-! Starts (R420, R422). -/

theorem rindStart_eq {op : Nat} (hop : op < 8) (addr : Nat) (data : List Byte) (d : Dev) : rindStart op addr data .ok d = { d with
    hw := { wr d.hw R.RIND_STAT ((rd d.hw R.RIND_STAT &&& 0x00F00000#32) ||| BitVec.ofNat 32 (op * 268435456 + addr / 65536 % 256)) with
      rind := { d.hw.rind with running := some { op := op, addr := addr, data := data, status := .ok } } } } := by
  rw [rindStart, Nat.mod_eq_of_lt hop]
  rfl

section
variable {d : Dev} (hidle : d.hw.rind.running = none)
include hidle

theorem rindCmd_program : rindCmd 1 d =
    if progStatus d.hw (rd d.hw R.RIND_ADDR).toNat (fld (rd d.hw R.RIND_LEN) 0 9) (pbufBytes d.hw (fld (rd d.hw R.RIND_LEN) 0 9)) = .ok then
      rindStart 1 (rd d.hw R.RIND_ADDR).toNat (pbufBytes d.hw (fld (rd d.hw R.RIND_LEN) 0 9)) .ok d
    else rindEndOp 1 (rd d.hw R.RIND_ADDR).toNat
      (progStatus d.hw (rd d.hw R.RIND_ADDR).toNat (fld (rd d.hw R.RIND_LEN) 0 9) (pbufBytes d.hw (fld (rd d.hw R.RIND_LEN) 0 9))) d := by
  simp only [rindCmd, hidle]

theorem rindCmd_erase : rindCmd 2 d = if rindLocked d.hw.rind ((rd d.hw R.RIND_ADDR).toNat / 65536) = true then
    rindEndOp 2 (rd d.hw R.RIND_ADDR).toNat .denied d else rindStart 2 (rd d.hw R.RIND_ADDR).toNat [] .ok d := by
  simp only [rindCmd, hidle]

theorem rindCmd_lock : rindCmd 3 d = rindStart 3 (rd d.hw R.RIND_ADDR).toNat [] .ok d := by simp only [rindCmd, hidle]

theorem rindCmd_unlock : rindCmd 4 d =
    rindStart 4 (rd d.hw R.RIND_ADDR).toNat (leBytes 8 (rd d.hw R.RIND_PW_HI ++ rd d.hw R.RIND_PW_LO).toNat) .ok d := by
  simp only [rindCmd, hidle, rindPw]

theorem rindCmd_setPw : rindCmd 5 d =
    rindStart 5 (rd d.hw R.RIND_ADDR).toNat (leBytes 8 (rd d.hw R.RIND_PW_HI ++ rd d.hw R.RIND_PW_LO).toNat) .ok d := by
  simp only [rindCmd, hidle, rindPw]

end

theorem progStatus_ok_iff (h : Hw) (addr len : Nat) (bs : List Byte) : progStatus h addr len bs = .ok ↔
    len ≠ 0 ∧ addr % 4 = 0 ∧ len % 4 = 0 ∧ addr / 256 = (addr + len - 1) / 256 ∧ len ≤ 256 ∧ rindLocked h.rind (addr / 65536) = false ∧
    (rindBytes h.rind h.free addr len).zipWith (fun old new => old &&& new) bs = bs := by
  unfold progStatus
  by_cases h0 : len = 0
  · simp [h0]
  · by_cases halign : addr % 4 ≠ 0 ∨ len % 4 ≠ 0 ∨ addr / 256 ≠ (addr + len - 1) / 256
    · rw [if_neg h0, if_pos halign]
      exact ⟨nofun, fun hall => absurd halign (by simp [hall])⟩
    · obtain ⟨h1, h2, h3⟩ : addr % 4 = 0 ∧ len % 4 = 0 ∧ addr / 256 = (addr + len - 1) / 256 := by omega
      by_cases hmax : 256 < len
      · omega
      · cases hlock : rindLocked h.rind (addr / 65536) <;> simp [h0, h1, h2, ← h3, hmax, Nat.not_lt.mp hmax]

/-! The ends (R420–R423). -/

theorem rindEndOp_eq (op addr : Nat) (st : Status) (d : Dev) : rindEndOp op addr st d = { d with
    hw := if st = .ok then irq (wr (wr (wr { d.hw with rind := { d.hw.rind with running := none } } R.RIND_STAT
        (BitVec.ofNat 32 (op % 8 * 268435456 + st.code * 1048576 + addr / 65536 % 256))) R.RIND_PW_LO 0#32) R.RIND_PW_HI 0#32) irqRind 0
      else irq (irq (wr (wr (wr { d.hw with rind := { d.hw.rind with running := none } } R.RIND_STAT
        (BitVec.ofNat 32 (op % 8 * 268435456 + st.code * 1048576 + addr / 65536 % 256))) R.RIND_PW_LO 0#32) R.RIND_PW_HI 0#32) irqRind 0)
        irqRind 1 } := by
  cases st <;> rfl

/-- A sector's erase sets its bytes and no other. -/
theorem storeByte_rindErase (x : Rind) (s a : Nat) : storeByte (rindErase x s).store a =
    if s * 65536 ≤ a ∧ a < (s + 1) * 65536 then some 0xFF#8 else storeByte x.store a := by
  by_cases hin : s * 65536 ≤ a ∧ a < (s + 1) * 65536
  · rw [if_pos hin, rindErase, storeByte_storeFill_covered _ _ (by simp [fillCovers, hin])]
  · rw [if_neg hin, rindErase, storeByte_storeFill_other _ _ (by simpa [fillCovers] using hin)]

/-! Window reads (R419). -/

theorem regionOf_rindWindow (h : Hw) {off : Nat} (hoff : off < 0x1000000) : regionOf h (0x30000000 + off) = .rindWindow := by
  simp [regionOf, show ¬ 0x30000000 + off < 0x40000 by omega, show ¬ 0x30000000 + off < 0x14000000 by omega,
    show ¬ 0x30000000 + off < 0x20800000 by omega, show 0x30000000 + off < 0x31000000 by omega]

/-- A window read answers the window's data, with its side effect. -/
theorem runs_rindWindowRead {d : Dev} {m off size : Nat} (hlets : d.lets (readReq m (0x30000000 + off) size false)) (hoff : off < 0x1000000) :
    Runs (.rindWindowRead m off size) d (respond (readReq m (0x30000000 + off) size false) .ok (windowData d off size)
      (hwMod (windowTouch m off size) d)) := by
  refine Runs.of_onUnit (exec_rindWindowRead m off size)
    (Bool.and_eq_true_iff.mpr ⟨Dev.lets.masterOk hlets, decide_eq_true hoff⟩) ?_
  have hmod : (0x30000000 + off) % 0x1000000 = off := by omega
  rw [access_lets hlets, accessTarget, if_neg (by simp [readReq]), accessRead]
  simp only [readReq, regionOf_rindWindow _ hoff, hmod]

/-- A word of the window while an operation runs. -/
theorem windowData_running {d : Dev} {r : RindOp} (hrun : d.hw.rind.running = some r) {off : Nat} (halign : off % 4 = 0) :
    windowData d off 4 = (rindStat d).toNat := by
  have hlt := (rindStat d).isLt
  rw [windowData, if_pos (by simp [hrun]), halign]
  simp
  omega

/-- Settles O21: starts and refusals by operation, the ends by `rindOpDone`'s branches, the window by its data and side effect. -/
theorem rindCommands : Obligations.RindCommands := by
  refine ⟨?start, ?status, ?refused, ?ends, ?abort, ?abortIdle, ?busy, ?done, ?window⟩
  case start =>
    intro d m op c data hidle hc hlets
    rcases hc with ⟨rfl, rfl, rfl, hst⟩ | ⟨rfl, rfl, rfl, hlock⟩ | ⟨rfl, rfl, rfl⟩ | ⟨rfl, rfl, rfl⟩ | ⟨rfl, rfl, rfl⟩
    · refine runs_rindCmd (by decide) (exec_rindProgram m) hlets ?_
      rw [rindCmd_program hidle, if_pos hst, rindStart_eq (by decide)]
    · refine runs_rindCmd (by decide) (exec_rindErase m) hlets ?_
      rw [rindCmd_erase hidle, if_neg (by simp [hlock]), rindStart_eq (by decide)]
    · exact runs_rindCmd (by decide) (exec_rindLock m) hlets ((rindCmd_lock hidle).trans (rindStart_eq (by decide) ..))
    · exact runs_rindCmd (by decide) (exec_rindUnlock m) hlets ((rindCmd_unlock hidle).trans (rindStart_eq (by decide) ..))
    · exact runs_rindCmd (by decide) (exec_rindSetPw m) hlets ((rindCmd_setPw hidle).trans (rindStart_eq (by decide) ..))
  case status =>
    intro h addr len bs
    exact ⟨progStatus_ok_iff h addr len bs, fun h0 => if_pos h0, fun h0 halign => (if_neg h0).trans (if_pos halign)⟩
  case refused =>
    intro d m hidle
    refine ⟨fun hlets hst => ?_, fun hlets hlock => ?_⟩
    · refine runs_rindCmd (op := 1) (by decide) (exec_rindProgram m) hlets ?_
      rw [rindCmd_program hidle, if_neg hst]
    · refine runs_rindCmd (op := 2) (by decide) (exec_rindErase m) hlets ?_
      rw [rindCmd_erase hidle, if_pos hlock]
  case ends => exact fun d op addr st => ⟨_, rfl, rindEndOp_eq op addr st d⟩
  case abort =>
    intro d m r hlets hrun hop
    refine ⟨Config.freeNat d.hw.free, runs_rindCmd (op := 6) (by decide) (exec_rindAbort m) hlets ?_⟩
    simp only [rindCmd, hrun, hop]
    rfl
  case abortIdle =>
    intro d m hlets hidle
    refine runs_rindCmd (op := 6) (by decide) (exec_rindAbort m) hlets ?_
    simp only [rindCmd, hidle]
  case busy =>
    intro d m op c r hrun hc hlets
    have hbusy : ∀ op, ¬ (op = 6 ∧ r.op = 2) → rindCmd op d = { d with hw := irq d.hw irqRind 3 } := fun op h => by
      simp only [rindCmd, hrun, if_neg h]
    rcases hc with ⟨rfl, rfl⟩ | ⟨rfl, rfl⟩ | ⟨rfl, rfl⟩ | ⟨rfl, rfl⟩ | ⟨rfl, rfl⟩ | ⟨rfl, rfl, h2⟩
    · exact runs_rindCmd (by decide) (exec_rindProgram m) hlets (hbusy 1 (by omega))
    · exact runs_rindCmd (by decide) (exec_rindErase m) hlets (hbusy 2 (by omega))
    · exact runs_rindCmd (by decide) (exec_rindLock m) hlets (hbusy 3 (by omega))
    · exact runs_rindCmd (by decide) (exec_rindUnlock m) hlets (hbusy 4 (by omega))
    · exact runs_rindCmd (by decide) (exec_rindSetPw m) hlets (hbusy 5 (by omega))
    · exact runs_rindCmd (by decide) (exec_rindAbort m) hlets (hbusy 6 (by omega))
  case done =>
    intro d r hrun
    have hdone : ∀ e, rindOpDone d = e → Runs .rindOpDone d e := fun e he => Runs.of_does exec_rindOpDone he
    refine ⟨fun hop => hdone _ ?_, fun hop => ⟨rindErase d.hw.rind (r.addr / 65536), rfl, hdone _ ?_, storeByte_rindErase _ _⟩,
      fun hop => hdone _ ?_, fun hop hlock hpw => hdone _ ?_, fun hop hlock hpw => hdone _ ?_, fun hop hlock => hdone _ ?_,
      fun hop hpw => hdone _ ?_, fun hop hpw => hdone _ ?_⟩
    · simp only [rindOpDone, hrun, hop, rindProg]
    · simp only [rindOpDone, hrun, hop]
    · simp only [rindOpDone, hrun, hop]
    · rcases hpw with hpw | ⟨p, hpw, heq⟩
      · simp [rindOpDone, hrun, hop, hlock, hpw]
      · simp [rindOpDone, hrun, hop, hlock, hpw, heq]
    · obtain ⟨p, hpw, hne⟩ := hpw
      simp [rindOpDone, hrun, hop, hlock, hpw, hne]
    · simp [rindOpDone, hrun, hop, hlock]
    · simp [rindOpDone, hrun, hop, hpw]
    · simp [rindOpDone, hrun, hop, Option.isSome_iff_ne_none.mpr hpw]
  case window =>
    intro d m off size hlets hoff
    have hread := runs_rindWindowRead hlets hoff
    refine ⟨fun hidle hdef => ?_, fun r hrun hsize halign => ?_⟩
    · have hdata : windowData d off size = leNat (rindBytes d.hw.rind d.hw.free off size) := if_neg (by simp [hidle])
      have hall : (List.range size).all (fun i => (storeByte d.hw.rind.store (off + i)).isSome) = true :=
        List.all_eq_true.mpr fun i hi => Option.isSome_iff_ne_none.mpr (hdef i (List.mem_range.mp hi))
      have htouch : windowTouch m off size d.hw = d.hw := (if_neg (by simp [hidle])).trans (if_pos hall)
      have hsame : hwMod (windowTouch m off size) d = d := by rw [hwMod, htouch]
      rwa [hdata, hsame] at hread
    · subst hsize
      have htouch : windowTouch m off 4 d.hw = irq (mwr d.hw R.RIND_RDSTAT m 0x8B000000#32) irqRind 4 := if_pos (by simp [hrun])
      have hmod : hwMod (windowTouch m off 4) d = { d with hw := irq (mwr d.hw R.RIND_RDSTAT m 0x8B000000#32) irqRind 4 } := by
        rw [hwMod, htouch]
      rwa [windowData_running hrun halign, hmod] at hread

end Sys2Proof.Machine
end

section
/-!
PROOFS. Boot: the ROM's start, attempts, the watchdog, commit and the settings journal.
-/

namespace Sys2Proof.Machine

/-! Posts of the event recorder leave device time, BOOT_COUNT and memory below their buffer. -/

/-- Device time, BOOT_COUNT and a byte of memory. -/
def Hw.early (a : Nat) (h : Hw) : DWord × Word × Option Byte := (h.time, h.bootCount, storeByte h.mem.data a)

theorem early_of_fields {a : Nat} {h k : Hw} (ht : k.time = h.time) (hb : k.bootCount = h.bootCount) (hm : k.mem = h.mem) : k.early a = h.early a := by
  simp only [Hw.early, ht, hb, hm]

theorem irq_early (h : Hw) (blk : IrqBlock) (b a : Nat) : (irq h blk b).early a = h.early a :=
  early_of_fields (irq_time ..) (irq_bootCount ..) (irq_mem ..)

theorem irqIf_early (h : Hw) (c : Bool) (blk : IrqBlock) (b a : Nat) : (irqIf h c blk b).early a = h.early a := by
  cases c
  · rfl
  · exact irq_early ..

theorem evCopy_early (es : List EvRecd) (h : Hw) (a : Nat) : (evCopy es h).2.early a = h.early a := by
  induction es generalizing h with
  | nil => rfl
  | cons e es ih =>
    simp only [evCopy]
    split
    · exact ih h
    · split
      · rfl
      · exact ih _

theorem evFlush_early (h : Hw) (a : Nat) : (evFlush h).early a = h.early a := by
  unfold evFlush
  extract_lets r ev1 h1 h2
  exact (irq_early ..).trans ((irqIf_early ..).trans (evCopy_early h.ev.buf h a))

section
variable {a : Nat} (ha : a < 0x207F0000)
include ha

/-- The words of a record lie in the event buffer. -/
theorem storeByte_evWords {base : Nat} (hbase : 0x207F0000 ≤ base) (w : Nat → DWord) (l : List Nat) (m : Mem) :
    storeByte (l.foldl (fun m i => memPut m (base + 8 * i) (w i) (secCheck (w i))) m).data a = storeByte m.data a := by
  induction l generalizing m with
  | nil => rfl
  | cons i l ih => exact (ih _).trans (storeByte_memPut_other m (w i) (secCheck (w i)) (.inl (by omega)))

theorem evStore_early (h : Hw) (e : EvRecd) : (evStore h e).early a = h.early a := by
  unfold evStore
  extract_lets base bs word mem ev1 h1 c h2 stop ev3 h3 wm due
  have h1early : h1.early a = h.early a := by
    have hmem : storeByte mem.data a = storeByte h.mem.data a := storeByte_evWords ha (by simp only [base]; omega) ..
    simp only [Hw.early, h1, hmem]
  have h2early : h2.early a = h.early a := (irqIf_early ..).trans h1early
  have h3early : h3.early a = h.early a := by
    simp only [h3]
    split
    · exact (irq_early ..).trans h2early
    · exact h2early
  split
  · exact (evFlush_early ..).trans h3early
  · exact h3early

theorem evPost_early (h : Hw) (source code sev : Nat) (cont : Bool) (a0 a1 a2 : Word) :
    (evPost h source code sev cont a0 a1 a2).2.early a = h.early a := by
  have hdrop : ∀ lo, (evDrop h lo source).2.early a = h.early a := fun lo => irq_early ..
  unfold evPost
  extract_lets stamp b limited drops ev1 h1 b1 ev2 h2
  generalize (if h.ev.dropSince = true then 2 else 1) = room
  have hstored : h1.early a = h.early a := by
    simp only [h1]
    split
    · exact evStore_early ha ..
    · rfl
  split
  · rfl
  · split
    · exact hdrop 16
    · split
      · exact hdrop 0
      · split
        · rfl
        · split
          · rfl
          · split
            · exact hdrop 0
            · exact (evStore_early ha h2 _).trans hstored

theorem evFw_early (h : Hw) (code sev a0 a1 a2 : Nat) : (evFw h code sev a0 a1 a2).early a = h.early a := evPost_early ha ..

end

theorem evFw_time (h : Hw) (code sev a0 a1 a2 : Nat) : (evFw h code sev a0 a1 a2).time = h.time :=
  congrArg Prod.fst (evFw_early (a := 0) (by decide) h code sev a0 a1 a2)

theorem evFw_bootCount (h : Hw) (code sev a0 a1 a2 : Nat) : (evFw h code sev a0 a1 a2).bootCount = h.bootCount :=
  congrArg (fun x => x.2.1) (evFw_early (a := 0) (by decide) h code sev a0 a1 a2)

theorem storeByte_evFw {a : Nat} (ha : a < 0x207F0000) (h : Hw) (code sev a0 a1 a2 : Nat) :
    storeByte (evFw h code sev a0 a1 a2).mem.data a = storeByte h.mem.data a :=
  congrArg (fun x => x.2.2) (evFw_early ha h code sev a0 a1 a2)

/-! The settings journal's appends (R444). -/

theorem sjWrite_frame (k : Nat) (p : List Byte) (d : Dev) : sjWrite k p d = { d with
    hw := { d.hw with rind := { d.hw.rind with store := (sjWrite k p d).hw.rind.store } }, sj := (sjWrite k p d).sj } := rfl

theorem sjFlushHeld_frame (l : List (Nat × List Byte)) (d : Dev) : sjFlushHeld l d = { d with
    hw := { d.hw with rind := { d.hw.rind with store := (sjFlushHeld l d).hw.rind.store } }, sj := (sjFlushHeld l d).sj } := by
  induction l generalizing d with
  | nil => rfl
  | cons q l ih =>
    obtain ⟨k, p⟩ := q
    rw [sjFlushHeld, ih, sjWrite_frame]

theorem sjFlushHeld_lists (l : List (Nat × List Byte)) (d : Dev) : (sjFlushHeld l d).sj.held = d.sj.held ∧
    (sjFlushHeld l d).sj.keyHeld = d.sj.keyHeld ∧ (sjFlushHeld l d).sj.seq = d.sj.seq + l.length := by
  induction l generalizing d with
  | nil => exact ⟨rfl, rfl, rfl⟩
  | cons q l ih =>
    obtain ⟨hheld, hkey, hseq⟩ := ih (sjWrite q.1 q.2 d)
    refine ⟨hheld, hkey, hseq.trans ?_⟩
    simp only [sjWrite, List.length_cons]
    omega

theorem tabGet_of_notMem {α : Type} {t : List (Nat × α)} {k : Nat} (h : k ∉ t.map Prod.fst) : tabGet t k = none := by
  induction t with
  | nil => rfl
  | cons q t ih =>
    simp only [List.map_cons, List.mem_cons, not_or] at h
    rw [tabGet, if_neg (Ne.symm h.1), ih h.2]

theorem sjPad_full {p : List Byte} (h : p.length = 44) : sjPad p = p := by
  simp [sjPad, h]

/-- What an append that deletes nothing leaves of the values. -/
theorem sjWrite_cur {p : List Byte} (h : sjDeletes p = false) (k : Nat) (d : Dev) :
    (sjWrite k p d).sj.cur = tabPut d.sj.cur k { seq := d.sj.seq + 1, payload := sjPad p } := by
  simp [sjWrite, h]

/-- Appends of full values under different keys leave them as the values of their keys, and the other keys' values. -/
theorem tabGet_sjFlushHeld (l : List (Nat × List Byte)) (hl : ∀ k p, (k, p) ∈ l → sjDeletes p = false ∧ p.length = 44)
    (hkeys : (l.map Prod.fst).Nodup) (d : Dev) (k : Nat) : (tabGet (sjFlushHeld l d).sj.cur k).map SVal.payload =
      (tabGet l k).or ((tabGet d.sj.cur k).map SVal.payload) := by
  induction l generalizing d with
  | nil => rfl
  | cons q l ih =>
    obtain ⟨j, p⟩ := q
    obtain ⟨hdel, hlen⟩ := hl j p (by simp)
    obtain ⟨hj, hkeys⟩ := List.nodup_cons.mp hkeys
    rw [sjFlushHeld, ih (fun k p hp => hl k p (by simp [hp])) hkeys, sjWrite_cur hdel]
    by_cases hk : j = k
    · subst hk
      have hnone : tabGet l j = none := tabGet_of_notMem hj
      simp [hnone, tabGet, sjPad_full hlen]
    · rw [tabGet_tabPut_other _ _ (Ne.symm hk)]
      simp [tabGet, hk]

theorem foldl_rindErase_frame (f : Nat → Nat) (l : List Nat) (x : Rind) : l.foldl (fun r i => rindErase r (f i)) x =
    { x with store := (l.foldl (fun r i => rindErase r (f i)) x).store } := by
  induction l generalizing x with
  | nil => rfl
  | cons i l ih =>
    rw [List.foldl_cons, ih]
    rfl

/-- Compaction rewrites every live pair (R444). -/
theorem sjCompact_eq {d : Dev} (htrial : d.boot.trial = false) (hused : 81 < d.sj.used) : ∃ (s : Store) (n : Nat), sjCompact d = { d with
    hw := { d.hw with rind := { d.hw.rind with store := s } }
    sj := { (sjFlushHeld (d.sj.cur.map (fun q => (q.1, q.2.payload))) d).sj with used := n, tail := d.sj.head / 1024 } } := by
  have hframe := sjFlushHeld_frame (d.sj.cur.map (fun q => (q.1, q.2.payload))) d
  rw [sjCompact, if_neg (by simp [htrial, hused])]
  generalize sjFlushHeld (d.sj.cur.map (fun q => (q.1, q.2.payload))) d = y at hframe ⊢
  generalize hstore : y.hw.rind.store = s at hframe
  generalize hsj : y.sj = j at hframe
  subst hframe
  dsimp only
  rw [foldl_rindErase_frame (fun i => 148 + (j.head / 1024 + 1 + i) % 108)]
  exact ⟨_, _, rfl⟩

/-! The commit of a trial (R441). -/

theorem keyFlushHeld_frame (d : Dev) : keyFlushHeld d = { d with hw := (keyFlushHeld d).hw, sj := { d.sj with keyHeld := [] } } := by
  have hfold : ∀ (l : List (Nat × List Byte)) (x : Dev), l.foldl (fun x q => keyAreaWrite q.1 q.2 x) x =
      { x with hw := (l.foldl (fun x q => keyAreaWrite q.1 q.2 x) x).hw } := by
    intro l
    induction l with
    | nil => exact fun x => rfl
    | cons q l ih =>
      intro x
      rw [List.foldl_cons, ih]
      unfold keyAreaWrite
      rfl
  unfold keyFlushHeld
  rw [hfold]

/-! The ROM (R435–R437). -/

theorem bootGov_of_rind {h k : Hw} (hr : k.rind = h.rind) (hf : k.free = h.free) : bootGov k = bootGov h := by
  unfold bootGov bootRecs bootSlots
  rw [hr, hf]

theorem attemptRun_frame (d : Dev) : (attemptRun d).2 = { d with hw := { d.hw with mem := (attemptRun d).2.hw.mem } } := by
  unfold attemptRun
  extract_lets img len st d1 d2 v
  split
  · rfl
  · split
    · rfl
    · split
      · rfl
      · split
        · rfl
        · split <;> rfl

/-- An attempt leaves all but memory and the recorder. -/
theorem attemptEvent_run (st : Status) (d : Dev) (b : Boot) : ∃ h : Hw, h.time = d.hw.time ∧
    attemptEvent st false { (attemptRun d).2 with boot := b } = { d with hw := h, boot := b } := by
  have hframe := attemptRun_frame d
  generalize hmem : (attemptRun d).2.hw.mem = m at hframe
  refine ⟨_, evFw_time _ 0x008 2 b.attempts (b.image % 2 + 2 * (b.layout % 2) + 16 * st.code) (if false then 1 else 0) |>.trans
    (show ({ d.hw with mem := m } : Hw).time = d.hw.time from rfl), ?_⟩
  rw [hframe]
  rfl

theorem bootCtlBits {h : Hw} (i l t : Bool) :
    bit (rd (md h R.RIND_BOOTCTL (fun w => putBit (putBit (putBit w 8 i) 9 l) 10 t)) R.RIND_BOOTCTL) 10 = t ∧
    bit (rd (md h R.RIND_BOOTCTL (fun w => putBit (putBit (putBit w 8 i) 9 l) 10 t)) R.RIND_BOOTCTL) 8 = i ∧
    bit (rd (md h R.RIND_BOOTCTL (fun w => putBit (putBit (putBit w 8 i) 9 l) 10 t)) R.RIND_BOOTCTL) 9 = l := by
  simp [md, bit_putBit]

/-- What a passed attempt leaves (R436, R440). -/
theorem attemptPass_spec (x : Dev) : (attemptPass x).boot = { x.boot with
      romRunning := false, firstPending := false, bootState := 3, wdtRunning := true, releasedAt := x.hw.time
      trial := decide (x.boot.image ≠ x.boot.gov.image) || decide (x.boot.layout ≠ x.boot.gov.layout) } ∧
    (tabGet (attemptPass x).pwr.cores 0).isSome = true ∧
    bit (rd (attemptPass x).hw R.RIND_BOOTCTL) 10 = (decide (x.boot.image ≠ x.boot.gov.image) || decide (x.boot.layout ≠ x.boot.gov.layout)) ∧
    bit (rd (attemptPass x).hw R.RIND_BOOTCTL) 8 = decide (x.boot.image = 1) ∧
    bit (rd (attemptPass x).hw R.RIND_BOOTCTL) 9 = decide (x.boot.layout = 1) := by
  refine ⟨rfl, ?_, bootCtlBits ..⟩
  simp only [attemptPass, tabGet_tabPut_self, Option.isSome_some]

/-- Memory as the ROM's start writes it (R350). -/
def romMem (d : Dev) : Hw := { d.hw with
  mem := if d.boot.retDue then memZero (memZero d.hw.mem 0x10000000 0x11000000) 0x20000000 0x20800000
    else memZero d.hw.mem 0x10000000 0x11000000 }

/-- The record that the ROM's start appends (R435). -/
def romRec (g : BootRec) (roll pend : Bool) : BootRec :=
  if roll || (pendingPair g && !pend) then dropPending { g with bootCount := g.bootCount + 1 }
  else if pend then { g with bootCount := g.bootCount + 1, type := 2, tries := g.tries + 1 }
  else { g with bootCount := g.bootCount + 1, type := 1 }

/-- The ROM's state after its start, with the governing record `g`. -/
def romBoot (b : Boot) (m : Hw) (g : BootRec) (roll pend : Bool) : Boot :=
  { b with
    romDue := false, retDue := false, romRunning := true, gov := g, recNext := bootNext m, firstPending := pend,
    attempts := if b.wdtFired then satAdd 16 b.attempts 1 else b.attempts,
    lastStatus := if b.wdtFired then 0 else b.lastStatus, wdtFired := false, waits := if b.wdtFired then 1 else 0,
    bootState := if b.wdtFired then 2 else 0, rollback := roll, trial := false }

/-- The registers after the ROM's start, before its record and events. -/
def romRegs (m : Hw) (wdt : Bool) : Hw := irqIf (md m R.RIND_BOOTCTL (fun w => clrBit w 0)) wdt irqRind 5

/-- The ROM's start once memory, the governing record and the choice of the pair are known. -/
def romGo (d : Dev) (m : Hw) (g : BootRec) (roll pend : Bool) : Dev :=
  let d1 := bootAppend (romRec g roll pend) { d with hw := romRegs m d.boot.wdtFired, boot := romBoot d.boot m g roll pend }
  let d2 := if roll then hwMod (fun h => evFw h 0x00A 2 d.boot.image 0 0) d1 else d1
  let d3 := if d.boot.wdtFired then attemptEvent .ok true d2 else d2
  { d3 with boot := { d3.boot with
    image := (if pend then pairOf g else (g.image, g.layout)).1, layout := (if pend then pairOf g else (g.image, g.layout)).2 } }

/-- `romMem` as the ROM's start writes it out. -/
theorem romMem_eq (d : Dev) : (let h0 : Hw := { d.hw with mem := memZero d.hw.mem 0x10000000 0x11000000 }
    if d.boot.retDue then { h0 with mem := memZero h0.mem 0x20000000 0x20800000 } else h0) = romMem d := by
  unfold romMem
  cases d.boot.retDue <;> rfl

theorem bootGov_getD (h : Hw) : (match bootGov h with | some g => g.2 | none => BootRec.blank) =
    ((bootGov h).map (fun q => q.2)).getD BootRec.blank := by
  cases bootGov h <;> rfl

theorem romStart_go {d : Dev} (hrun : ¬ (!(d.boot.romDue && d.pins.sysResetHigh && d.pins.pgood && domOn d.pwr 73 && domOn d.pwr 91)) = true)
    {m : Hw} (hm : romMem d = m) {g : BootRec} (hg : (match bootGov m with | some g => g.2 | none => BootRec.blank) = g) :
    romStart d = romGo d m g (bit (rd m R.RIND_BOOTCTL) 0) (pendingPair g && !bit (rd m R.RIND_BOOTCTL) 0 && decide (g.tries < 2)) := by
  subst hg
  rw [← romMem_eq] at hm
  subst hm
  exact if_neg hrun

theorem romStart_eq {d : Dev} {g : BootRec} {roll pend : Bool} (hdue : d.boot.romDue = true) (hhigh : d.pins.sysResetHigh = true)
    (hpgood : d.pins.pgood = true) (h73 : domOn d.pwr 73 = true) (h91 : domOn d.pwr 91 = true)
    (hg : g = ((bootGov d.hw).map (fun q => q.2)).getD BootRec.blank) (hroll : roll = bit (rd d.hw R.RIND_BOOTCTL) 0)
    (hpend : pend = (pendingPair g && !roll && decide (g.tries < 2))) : romStart d = romGo d (romMem d) g roll pend := by
  have hgov : bootGov (romMem d) = bootGov d.hw := bootGov_of_rind rfl rfl
  have hrd : bit (rd (romMem d) R.RIND_BOOTCTL) 0 = roll := hroll.symm
  rw [romStart_go (by simp [hdue, hhigh, hpgood, h73, h91]) rfl ((bootGov_getD _).trans (by rw [hgov, ← hg])), hrd, ← hpend]

theorem romRec_bootCount (g : BootRec) (roll pend : Bool) : (romRec g roll pend).bootCount = g.bootCount + 1 := by
  unfold romRec
  split
  · rfl
  · split <;> rfl

/-- The pair to try is dropped for a rollback, or after two starts. -/
theorem romRec_drop {g : BootRec} {roll pend : Bool} (h : roll = true ∨ (pendingPair g = true ∧ pend = false)) :
    (romRec g roll pend).pendImage = 0xFF ∧ (romRec g roll pend).pendLayout = 0xFF := by
  have hcond : (roll || (pendingPair g && !pend)) = true := by rcases h with h | ⟨h, hp⟩ <;> simp [*]
  rw [romRec, if_pos hcond]
  exact ⟨rfl, rfl⟩

theorem romRec_pend {g : BootRec} {roll pend : Bool} (hroll : roll = false) (hpend : pend = true) : (romRec g roll pend).tries = g.tries + 1 := by
  subst hroll hpend
  rw [romRec, if_neg (by simp), if_pos rfl]

/-- A post of an event: it leaves all but the recorder. -/
structure RomEvent (x y : Dev) : Prop where
  frame : y = { x with hw := y.hw }
  ctl : rd y.hw R.RIND_BOOTCTL = rd x.hw R.RIND_BOOTCTL
  early : ∀ a < 0x207F0000, y.hw.early a = x.hw.early a

theorem RomEvent.refl (x : Dev) : RomEvent x x := ⟨rfl, rfl, fun _ _ => rfl⟩

theorem RomEvent.trans {x y z : Dev} (h : RomEvent x y) (k : RomEvent y z) : RomEvent x z where
  frame := k.frame.trans (by rw [h.frame])
  ctl := k.ctl.trans h.ctl
  early a ha := (k.early a ha).trans (h.early a ha)

theorem RomEvent.of_evFw (x : Dev) (code sev a0 a1 a2 : Nat) : RomEvent x (hwMod (fun h => evFw h code sev a0 a1 a2) x) :=
  ⟨rfl, rd_evFw _ _ _ _ _ _ (by decide), fun _ ha => evFw_early ha ..⟩

/-- The events of a start leave the ROM's state. -/
theorem romGo_spec (d : Dev) (m : Hw) (g : BootRec) (roll pend : Bool) : ∃ h : Hw, romGo d m g roll pend = { d with
      hw := h
      boot := { romBoot d.boot m g roll pend with
        gov := { romRec g roll pend with seq := g.seq + 1 }, recNext := (bootNext m + 1) % 2048
        image := (if pend then pairOf g else (g.image, g.layout)).1, layout := (if pend then pairOf g else (g.image, g.layout)).2 } } ∧
    h.bootCount = BitVec.ofNat 32 (romRec g roll pend).bootCount ∧ bit (rd h R.RIND_BOOTCTL) 0 = false ∧
    ∀ a < 0x207F0000, storeByte h.mem.data a = storeByte m.mem.data a := by
  have hregs : ∀ w : Bool, bit (rd (romRegs m w) R.RIND_BOOTCTL) 0 = false ∧ (romRegs m w).mem = m.mem := by
    intro w
    cases w
    · exact ⟨by simp [romRegs, irqIf, md, bit_clrBit], rfl⟩
    · exact ⟨by simp (disch := decide) [romRegs, irqIf, rd_irq_other, md, bit_clrBit], by simp [romRegs, irqIf]⟩
  obtain ⟨hbit, hmem⟩ := hregs d.boot.wdtFired
  have hspec : ∀ k : Hw, rd k R.RIND_BOOTCTL = rd (romRegs m d.boot.wdtFired) R.RIND_BOOTCTL →
      (∀ a < 0x207F0000, k.early a = ({ romRegs m d.boot.wdtFired with bootCount := BitVec.ofNat 32 (romRec g roll pend).bootCount } : Hw).early a) →
      k.bootCount = BitVec.ofNat 32 (romRec g roll pend).bootCount ∧ bit (rd k R.RIND_BOOTCTL) 0 = false ∧
      ∀ a < 0x207F0000, storeByte k.mem.data a = storeByte m.mem.data a := by
    intro k hrd hearly
    refine ⟨congrArg (fun x => x.2.1) (hearly 0 (by decide)), by rw [hrd, hbit], fun a ha => ?_⟩
    rw [← hmem]
    exact congrArg (fun x => x.2.2) (hearly a ha)
  unfold romGo
  extract_lets d1 d2 d3
  have hd1 : ∀ a, d1.hw.early a = ({ romRegs m d.boot.wdtFired with bootCount := BitVec.ofNat 32 (romRec g roll pend).bootCount } : Hw).early a :=
    fun a => early_of_fields rfl rfl rfl
  have h2 : RomEvent d1 d2 := by
    simp only [d2]
    split
    · exact RomEvent.of_evFw ..
    · exact RomEvent.refl d1
  have h3 : RomEvent d2 d3 := by
    simp only [d3]
    split
    · exact RomEvent.of_evFw ..
    · exact RomEvent.refl d2
  obtain ⟨hframe, hrd, hearly⟩ := h2.trans h3
  refine ⟨d3.hw, ?_, hspec d3.hw (hrd.trans rfl) fun a ha => (hearly a ha).trans (hd1 a)⟩
  clear_value d3
  generalize d3.hw = k at hframe ⊢
  subst hframe
  rfl

/-- What a failed attempt leaves: a back-off, and the other image next (R437). -/
def attemptFail (st : Status) (next : Nat) (x : Dev) : Dev :=
  let y := if x.boot.firstPending then bootAppend (dropPending x.boot.gov) x else x
  { y with boot := { y.boot with
    lastStatus := st.code, firstPending := false, bootState := 2, waits := y.boot.waits + 1, image := next, layout := y.boot.gov.layout } }

theorem attemptFail_spec (st : Status) (next : Nat) (x : Dev) : (attemptFail st next x).boot.romRunning = x.boot.romRunning ∧
    (attemptFail st next x).boot.bootState = 2 ∧ (attemptFail st next x).boot.lastStatus = st.code ∧
    (attemptFail st next x).boot.waits = x.boot.waits + 1 ∧ (attemptFail st next x).boot.image = next ∧
    (attemptFail st next x).boot.layout = x.boot.gov.layout ∧ (attemptFail st next x).pwr = x.pwr ∧ (attemptFail st next x).med = x.med ∧
    (x.boot.firstPending = true → (attemptFail st next x).boot.gov.pendImage = 0xFF ∧ (attemptFail st next x).boot.gov.pendLayout = 0xFF) := by
  unfold attemptFail
  cases hp : x.boot.firstPending
  · exact ⟨rfl, rfl, rfl, rfl, rfl, rfl, rfl, rfl, nofun⟩
  · exact ⟨rfl, rfl, rfl, rfl, rfl, rfl, rfl, rfl, fun _ => ⟨rfl, rfl⟩⟩

/-- The device when a trial's COMMIT record is written, before what was held is written. -/
def trialDone (d : Dev) : Dev :=
  let x := bootAppend { d.boot.gov with
    type := 4, image := d.boot.image, layout := d.boot.layout, pendImage := 0xFF, pendLayout := 0xFF, tries := 0,
    layoutSeq := d.med.layout.seq } d
  { x with boot := { x.boot with trial := false, bootState := 5 }, sj := { x.sj with held := [] } }

/-- What a commit leaves (R441). -/
theorem trialCommit_spec {d : Dev} (hready : commitReady d = true) : ∃ (x : Dev) (k : Hw), x.sj = { d.sj with held := [] } ∧
    trialCommit d = { d with
      hw := evFw (md k R.RIND_BOOTCTL (fun w => putFld w 4 2 2)) 0x009 0 d.sj.writer (d.med.layout.seq % 4294967296) 0
      boot := { d.boot with
        gov := { d.boot.gov with
          type := 4, image := d.boot.image, layout := d.boot.layout, pendImage := 0xFF, pendLayout := 0xFF, tries := 0,
          layoutSeq := d.med.layout.seq, seq := d.boot.gov.seq + 1 }
        recNext := (d.boot.recNext + 1) % 2048, trial := false, bootState := 5 }
      sj := { (sjFlushHeld d.sj.held x).sj with keyHeld := [] } } := by
  have hrun : trialCommit d = hwMod (fun h => evFw h 0x009 0 d.sj.writer (d.med.layout.seq % 4294967296) 0)
      (hwMod (fun h => md h R.RIND_BOOTCTL (fun w => putFld w 4 2 2)) (keyFlushHeld (sjFlushHeld d.sj.held (trialDone d)))) :=
    if_neg (by simp [hready])
  have hflush := sjFlushHeld_frame d.sj.held (trialDone d)
  have hkeys := keyFlushHeld_frame (sjFlushHeld d.sj.held (trialDone d))
  refine ⟨trialDone d, (keyFlushHeld (sjFlushHeld d.sj.held (trialDone d))).hw, rfl, ?_⟩
  rw [hrun]
  generalize sjFlushHeld d.sj.held (trialDone d) = y at hflush hkeys ⊢
  generalize keyFlushHeld y = z at hkeys ⊢
  generalize z.hw = k at hkeys ⊢
  subst hkeys
  generalize y.sj = j at hflush ⊢
  generalize y.hw.rind.store = t at hflush ⊢
  subst hflush
  rfl

/-- Settles O22: the ROM's start by `romGo_spec`, attempts by `attemptPass_spec`, compaction by induction over the live pairs. -/
theorem bootCommands : Obligations.BootCommands := by
  refine ⟨?romIdle, ?rom, ?pass, ?fail, ?noAttempt, ?erased, ?backoff, ?noBackoff, ?ms, ?watchdog, ?noWatchdog, ?stop, ?rollback, ?fwState,
    ?ctl, ?commit, ?flush, ?noCommit, ?ready, ?noCompact, ?compact⟩
  case romIdle =>
    intro d h
    exact Runs.of_does exec_romStart (if_pos (by rcases h with h | h | h | h | h <;> simp [h]))
  case rom =>
    intro d g roll pend hdue hhigh hpgood h73 h91 hg hroll hpend
    obtain ⟨h, heq, hcount, hbit, hmem⟩ := romGo_spec d (romMem d) g roll pend
    have hrun := (romStart_eq hdue hhigh hpgood h73 h91 hg hroll hpend).trans heq
    have hcount' : (romRec g roll pend).bootCount = g.bootCount + 1 := romRec_bootCount ..
    have hbyte : ∀ a < 0x207F0000, storeByte h.mem.data a =
        storeByte (if d.boot.retDue then memZero (memZero d.hw.mem 0x10000000 0x11000000) 0x20000000 0x20800000
          else memZero d.hw.mem 0x10000000 0x11000000).data a := hmem
    refine ⟨_, Runs.of_does exec_romStart hrun, rfl, rfl, rfl, rfl, hcount', hcount.trans (by rw [hcount']), fun hp => ⟨?_, ?_⟩, fun hp => ?_,
      fun hdrop => ?_, rfl, hbit, fun hw => ?_, fun hw => ?_, fun a hlo hhi => ?_, fun a hlo hhi => ?_⟩
    · refine romRec_pend ?_ hp
      rw [hp] at hpend
      simpa using (Bool.and_eq_true_iff.mp (Bool.and_eq_true_iff.mp hpend.symm).1).2
    · simp only [hp, if_true]
    · simp [hp]
    · refine romRec_drop (hdrop.imp_right fun hd => ⟨hd.1, ?_⟩)
      rw [hpend]
      simp [Nat.not_lt.mpr hd.2]
    · simp [romBoot, hw]
    · simp [romBoot, hw]
    · refine (hbyte a (by omega)).trans ?_
      cases d.boot.retDue
      · simp only [Bool.false_eq_true, if_false]
        rw [(storeByte_memZero ..).1, if_pos ⟨hlo, hhi⟩]
      · simp only [if_true]
        rw [(storeByte_memZero ..).1, if_neg (by omega), (storeByte_memZero ..).1, if_pos ⟨hlo, hhi⟩]
    · refine (hbyte a (by omega)).trans ?_
      cases d.boot.retDue
      · simp only [Bool.false_eq_true, if_false]
        rw [(storeByte_memZero ..).1, if_neg (by omega)]
      · simp only [if_true]
        rw [(storeByte_memZero ..).1, if_pos ⟨hlo, by omega⟩]
  case pass =>
    intro d hrun hst hok
    obtain ⟨h, htime, hevent⟩ := attemptEvent_run (attemptRun d).1 d { d.boot with attempts := satAdd 16 d.boot.attempts 1 }
    obtain ⟨hboot, hcore, h10, h8, h9⟩ := attemptPass_spec { d with hw := h, boot := { d.boot with attempts := satAdd 16 d.boot.attempts 1 } }
    have hpass : bootAttempt d = attemptPass { d with hw := h, boot := { d.boot with attempts := satAdd 16 d.boot.attempts 1 } } := by
      rw [← hevent, bootAttempt, if_neg (by simp [hrun, hst])]
      exact if_pos hok
    refine ⟨_, Runs.of_does exec_bootAttempt hpass, ?_⟩
    rw [hboot, h10, h8, h9]
    exact ⟨rfl, rfl, rfl, htime, rfl, rfl, hcore, rfl, rfl, rfl⟩
  case fail =>
    intro d hrom hst hbad
    obtain ⟨h, -, hevent⟩ := attemptEvent_run (attemptRun d).1 d { d.boot with attempts := satAdd 16 d.boot.attempts 1 }
    have hrun : bootAttempt d = attemptFail (attemptRun d).1 (1 - d.boot.image % 2)
        { d with hw := h, boot := { d.boot with attempts := satAdd 16 d.boot.attempts 1 } } := by
      rw [← hevent, bootAttempt, if_neg (by simp [hrom, hst])]
      exact if_neg hbad
    obtain ⟨hrun', hrest⟩ := attemptFail_spec (attemptRun d).1 (1 - d.boot.image % 2)
      { d with hw := h, boot := { d.boot with attempts := satAdd 16 d.boot.attempts 1 } }
    exact ⟨_, Runs.of_does exec_bootAttempt hrun, hrun'.trans hrom, hrest⟩
  case noAttempt =>
    intro d h
    exact Runs.of_does exec_bootAttempt (if_pos (by rcases h with h | h <;> simp [h]))
  case erased =>
    intro d hempty
    have hform : imageForm d.fuse (imageBytes d d.boot.image) = .zeroLen := by
      unfold imageForm
      exact if_pos hempty
    unfold attemptRun
    extract_lets img len st d1 d2 v
    rw [if_pos (by simp [img, hform]), hform]
  case backoff =>
    intro d hrun hst
    exact Runs.of_does exec_bootBackoffExpiry (if_pos (by simp [hrun, hst]))
  case noBackoff =>
    intro d h
    exact Runs.of_does exec_bootBackoffExpiry (if_neg (by rcases h with h | h <;> simp [h]))
  case ms =>
    intro w
    by_cases hw : w < 7
    · rw [backoffMs, if_pos (by omega), if_pos hw, Nat.add_sub_cancel]
    · rw [backoffMs, if_neg (by omega), if_neg hw]
  case watchdog => exact fun d hrun => Runs.of_does exec_bootWatchdogExpiry (if_pos hrun)
  case noWatchdog => exact fun d hrun => Runs.of_does exec_bootWatchdogExpiry (if_neg (by simp [hrun]))
  case stop =>
    intro d m hlets
    have hstop : watchdogStop 0x80000000#32 d = { d with boot := { d.boot with wdtRunning := false } } := if_pos (by decide)
    exact Runs.of_regWrite (exec_bootWatchdogStop m) hlets (by decide) (congrArg (Prod.mk Status.ok) hstop)
  case rollback => exact fun d m v hlets => Runs.of_regWrite (exec_rollbackRequest m v) hlets (by decide) rfl
  case fwState => exact fun d m v hlets => Runs.of_regWrite (exec_fwStateWrite m v) hlets (by decide) rfl
  case ctl =>
    intro d x y v hx hy
    subst hy
    have hctl : bootCtlWrite v d = if bit v 1 then resetAsk (hwMod (fun h => md h R.RIND_BOOTCTL (fun w => putBit w 0 (bit v 0))) x)
        else hwMod (fun h => md h R.RIND_BOOTCTL (fun w => putBit w 0 (bit v 0))) x := by
      subst hx
      unfold bootCtlWrite
      extract_lets s d0 b0 d1 d2
      have hd1 : d1 = if fld v 4 2 = 3 then d else { d with
          hw := wr d.hw R.RIND_BOOTCTL (putFld (rd d.hw R.RIND_BOOTCTL) 4 2 (fld v 4 2))
          boot := if 3 ≤ d.boot.bootState then { d.boot with bootState := 3 + fld v 4 2 } else d.boot } := by
        simp only [d1, s]
        by_cases h3 : fld v 4 2 = 3
        · rw [if_pos h3, if_pos h3]
        · rw [if_neg h3, if_neg h3]
          by_cases hst : 3 ≤ d.boot.bootState <;> simp only [hst, if_true, if_false] <;> rfl
      rw [← hd1]
    exact ⟨fun h => hctl.trans (if_neg (by simp [h])), fun h => hctl.trans (if_pos h)⟩
  case commit =>
    intro d hready
    obtain ⟨x, k, hx, heq⟩ := trialCommit_spec hready
    obtain ⟨hheld, -, -⟩ := sjFlushHeld_lists d.sj.held x
    refine ⟨_, Runs.of_does exec_trialCommit heq, rfl, rfl, rfl, hheld.trans (by rw [hx]), ?_, rfl, ⟨x, hx, rfl⟩, rfl⟩
    refine (congrArg (fun w => fld w 4 2) (rd_evFw _ _ _ _ _ _ (by decide))).trans ?_
    simp [md, fld_putFld_same]
  case flush => exact fun d k p t => ⟨rfl, rfl, fun hdel => by rw [sjWrite_cur hdel, tabGet_tabPut_self]⟩
  case noCommit => exact fun d h => Runs.of_does exec_trialCommit (if_pos (by simp [h]))
  case ready =>
    intro d
    simp [commitReady, fwUp, and_assoc]
  case noCompact =>
    intro d h
    exact Runs.of_does exec_settingsJournalCompaction (if_pos (by rcases h with h | h <;> simp [h]))
  case compact =>
    intro d htrial hused hlive hsorted
    obtain ⟨s, n, heq⟩ := sjCompact_eq htrial hused
    refine ⟨_, Runs.of_does exec_settingsJournalCompaction heq, rfl, fun k => ?_, ?_, rfl⟩
    · have hcur := tabGet_sjFlushHeld (d.sj.cur.map (fun q => (q.1, q.2.payload))) (fun k p hp => by
        obtain ⟨q, hq, heq⟩ := List.mem_map.mp hp
        cases heq
        exact hlive q.1 q.2 hq) (by
        rw [List.map_map]
        exact (List.pairwise_map.mpr hsorted).imp Nat.ne_of_lt) d k
      refine hcur.trans ?_
      rw [tabGet_mapVal (f := fun q : Nat × SVal => (q.1, q.2.payload)) (fun _ => rfl)]
      cases tabGet d.sj.cur k <;> rfl
    · refine (sjFlushHeld_lists _ d).2.2.trans ?_
      rw [List.length_map]

end Sys2Proof.Machine
end

section
/-!
PROOFS. The key vault's command items.
-/

namespace Sys2Proof.Machine

theorem regWriteAt_kvCmd (m : Nat) (v : Word) (d : Dev) : regWriteAt m R.KV_CMD v d = kvCmdWrite m v d := rfl

/-! Fields of a vault command word with its operation. -/

theorem fld_kvOp {op : Nat} (hop : op < 16) (v : Word) : fld (putFld v 28 4 op) 28 4 = op := fld_putFld_same _ _ _ _ (by decide) hop

theorem fld_kvWord {lo n : Nat} (h : lo + n ≤ 28) (v : Word) (op : Nat) : fld (putFld v 28 4 op) lo n = fld v lo n :=
  fld_putFld_other _ _ _ _ _ _ (by decide) (.inl h)

section
variable {d : Dev} {m op : Nat} {v : Word} {c : Instr}
  (hc : ∀ s, exec c s = onUnit (fun _ => masterOk m) (regWrite m R.KV_CMD (putFld v 28 4 op)) s) (hop : op < 16)
  (hfl : (itemGet d.hw 10 m).flushed = false) (hen : bit (rd d.hw R.KV_CTRL) 0 = true) (hidle : d.sec.kvWait = [])
include hc hop hfl hen hidle

omit hop hidle in
/-- An item of an enabled vault with no command waiting: it is taken, and the command is accepted. -/
theorem runs_kvAccept (hlets : d.lets (writeOf m R.KV_CMD (putFld v 28 4 op))) {e : Dev}
    (he : kvAccept m (putFld v 28 4 op) (itemGet d.hw 10 m) (d.taken 10 m) = e) :
    Runs c d (Dev.wrote e m R.KV_CMD (putFld v 28 4 op)) := by
  refine Runs.of_regWrite hc hlets (by decide) ((regWriteAt_kvCmd ..).trans ?_)
  rw [kvCmdWrite, itemComplete_of_open hfl, ← he]
  exact congrArg (Prod.mk Status.ok) (if_pos hen)

/-- A command that does not wait for the DRBG runs at once, and its answer is placed. -/
theorem runs_kvExec (hlets : d.lets (writeOf m R.KV_CMD (putFld v 28 4 op))) (hdrbg : op = 1 ∨ op = 3 → drbgReady d.sec = true) {st : Status}
    {gen : Nat} {e : Dev} (he : kvExec m (putFld v 28 4 op) (itemGet d.hw 10 m) (d.taken 10 m) = ({ st := st, gen := gen }, e)) :
    Runs c d (Dev.wrote (e.kvAnswered m st gen) m R.KV_CMD (putFld v 28 4 op)) := by
  refine runs_kvAccept hc hfl hen hlets ?_
  have hwait : (!(d.taken 10 m).sec.kvWait.isEmpty || (kvNeedsDrbg (putFld v 28 4 op) && !drbgReady (d.taken 10 m).sec)) = false := by
    have hempty : (d.taken 10 m).sec.kvWait = [] := hidle
    by_cases hneeds : op = 1 ∨ op = 3
    · have hready : drbgReady (d.taken 10 m).sec = true := hdrbg hneeds
      simp [hempty, hready]
    · obtain ⟨h1, h3⟩ := not_or.mp hneeds
      simp [hempty, kvNeedsDrbg, fld_kvOp hop, h1, h3]
  rw [kvAccept, if_neg (by rw [hwait]; decide), he]
  rfl

/-- A command that needs the DRBG waits while it cannot generate. -/
theorem runs_kvWait (hlets : d.lets (writeOf m R.KV_CMD (putFld v 28 4 op))) (hneeds : op = 1 ∨ op = 3) (hdrbg : drbgReady d.sec = false) :
    Runs c d (Dev.wrote { d.taken 10 m with sec := { d.sec with kvWait := [(m, putFld v 28 4 op, itemGet d.hw 10 m)] } } m R.KV_CMD
      (putFld v 28 4 op)) := by
  refine runs_kvAccept hc hfl hen hlets ?_
  have hwait : (!(d.taken 10 m).sec.kvWait.isEmpty || (kvNeedsDrbg (putFld v 28 4 op) && !drbgReady (d.taken 10 m).sec)) = true := by
    have hready : drbgReady (d.taken 10 m).sec = false := hdrbg
    rcases hneeds with rfl | rfl <;> simp [kvNeedsDrbg, fld_kvOp, hready]
  have hempty : (d.taken 10 m).sec.kvWait = [] := hidle
  rw [kvAccept, if_pos hwait, hempty]
  rfl

end

/-! The operations (R364–R370). -/

theorem slotLoad_below {x : Slot} (h : x.gen < 524287) (type : Nat) (key : BitVec 512) (scope kennel : Nat) :
    slotLoad x type key scope kennel = some { type := type, key := key, gen := x.gen + 1, kennel := kennel, scope := scope, ctr := 1 } :=
  if_neg (by unfold genMax; omega)

theorem slotLoad_last {x : Slot} (h : x.gen = 524287) (type : Nat) (key : BitVec 512) (scope kennel : Nat) :
    slotLoad x type key scope kennel = none := if_pos h

theorem kvGenerate_xts {n : Nat} {e : Dev} (h : (slotGet e.sec n).gen < 524287) (scope kennel : Nat) : kvGenerate n 1 scope kennel e =
    ({ st := .ok, gen := (slotGet e.sec n).gen + 1 }, { e with sec := { slotPut (drawXts 64 e.sec).2 n
      { type := 1, key := (drawXts 64 e.sec).1, gen := (slotGet e.sec n).gen + 1, kennel := kennel, scope := scope, ctr := 1 } with
      kvState := 1 } }) := by
  rw [kvGenerate, if_neg (by decide)]
  simp only [if_true, slotLoad_below h]

theorem kvGenerate_gcm {n : Nat} {e : Dev} (h : (slotGet e.sec n).gen < 524287) (scope kennel : Nat) : kvGenerate n 2 scope kennel e =
    ({ st := .ok, gen := (slotGet e.sec n).gen + 1 }, { e with sec := { slotPut (drbgDraw e.sec).2 n
      { type := 2, key := ((drbgDraw e.sec).1.setWidth 256).setWidth 512, gen := (slotGet e.sec n).gen + 1, kennel := kennel
        scope := scope, ctr := 1 } with
      kvState := 1 } }) := by
  rw [kvGenerate, if_neg (by decide)]
  simp only [show ¬ (2 = 1) by decide, if_false, slotLoad_below h]

theorem kvGenerate_exhausted {n type : Nat} {e : Dev} (htype : type = 1 ∨ type = 2) (h : (slotGet e.sec n).gen = 524287)
    (scope kennel : Nat) : kvGenerate n type scope kennel e =
      ({ st := .keyExhausted, gen := (slotGet e.sec n).gen }, { e with hw := irq e.hw irqKv 5 }) := by
  rw [kvGenerate, if_neg (by omega)]
  simp only [slotLoad_last h]

theorem kvWrap_ok {m n buf len : Nat} {e : Dev} (halign : buf % 8 = 0) (hlen : 80 ≤ len)
    (htype : (slotGet e.sec n).type = 1 ∨ (slotGet e.sec n).type = 2)
    (hpass : unitPass e m .write buf (if (slotGet e.sec n).type = 1 then 80 else 48) = .ok) : kvWrap m n buf len e =
      ({ st := .ok, gen := (slotGet e.sec n).gen }, { e with hw := memPutBytes e.hw buf ((Config.wrap false (kekStorage e.fuse)
        (keyBytes (slotGet e.sec n) ++ keyHeader n (slotGet e.sec n))).take (if (slotGet e.sec n).type = 1 then 80 else 48)) }) := by
  rw [kvWrap, if_neg (by omega), if_neg (by omega), if_neg (by omega), if_neg (by omega), if_neg (by omega)]
  simp only [unitClear, hpass]
  rfl

theorem kvWrap_imported {m n buf len : Nat} {e : Dev} (halign : buf % 8 = 0) (hlen : 80 ≤ len) (htype : (slotGet e.sec n).type = 3) :
    kvWrap m n buf len e = ({ st := .denied, gen := (slotGet e.sec n).gen }, e) := by
  rw [kvWrap, if_neg (by omega), if_neg (by omega), if_neg (by omega), if_pos htype]

section
variable {m n buf len kennel : Nat} {kwp : Bool} {e f : Dev} {bs : List Byte} (h0 : len ≠ 0) (halign : buf % 8 = 0)
  (hlen : unwrapLenOk kwp len = true) (hpass : unitPass e m .read buf len = .ok) (hread : unitRead m buf len e = (some bs, f))
include h0 halign hlen hpass hread

theorem kvUnwrap_ok {pt : List Byte} {type scope kn : Nat} {key : BitVec 512} (hunwrap : Config.unwrap kwp (kekStorage e.fuse) bs = some pt)
    (hslot : unwrapSlot true n kennel pt = some (type, key, scope, kn)) (hgen : (slotGet e.sec n).gen < 524287) :
    kvUnwrap m n 16 buf len kwp kennel e = ({ st := .ok, gen := (slotGet e.sec n).gen + 1 }, { f with
      sec := slotPut f.sec n { type := type, key := key, gen := (slotGet e.sec n).gen + 1, kennel := kn, scope := scope, ctr := 1 } }) := by
  rw [kvUnwrap, if_neg h0, if_neg (by omega), if_neg (by simp [hlen])]
  simp only [unitClear, hpass, hread, if_true, Option.bind_some, hunwrap, decide_true, hslot, slotLoad_below hgen]

theorem kvUnwrap_reject (hunwrap : Config.unwrap kwp (kekStorage e.fuse) bs = none) : kvUnwrap m n 16 buf len kwp kennel e =
    ({ st := .reject, gen := (slotGet e.sec n).gen }, { f with hw := irq f.hw irqKv 1 }) := by
  rw [kvUnwrap, if_neg h0, if_neg (by omega), if_neg (by simp [hlen])]
  simp only [unitClear, hpass, hread, if_true, Option.bind_some, hunwrap]

end

/-! What a command word does, by its operation. -/

section
variable (m : Nat) (v : Word) (x : Item) (e : Dev)

theorem kvExec_generate : kvExec m (putFld v 28 4 1) x e =
    kvGenerate (fld v 0 13) (fld v 25 3) (fld v 23 2) (fld (itemArg x 0x18) 16 8) e := by
  simp (disch := decide) only [kvExec, fld_kvOp, fld_kvWord]

theorem kvExec_wrap : kvExec m (putFld v 28 4 2) x e =
    kvWrap m (fld v 0 13) ((itemArg x 0x14).toNat + 0x100000000 * fld (itemArg x 0x18) 0 16) (fld (itemArg x 0x1C) 0 13) e := by
  simp (disch := decide) only [kvExec, fld_kvOp, fld_kvWord]

theorem kvExec_unwrap : kvExec m (putFld v 28 4 3) x e =
    kvUnwrap m (fld v 0 13) (fld v 18 5) ((itemArg x 0x14).toNat + 0x100000000 * fld (itemArg x 0x18) 0 16) (fld (itemArg x 0x1C) 0 13)
      (bit (itemArg x 0x1C) 31) (fld (itemArg x 0x18) 16 8) e := by
  simp (disch := decide) only [kvExec, fld_kvOp, fld_kvWord]

theorem kvExec_clear : kvExec m (putFld v 28 4 4) x e = ({ st := .ok, gen := (slotClear (slotGet e.sec (fld v 0 13))).gen },
    { e with sec := slotPut e.sec (fld v 0 13) (slotClear (slotGet e.sec (fld v 0 13))) }) := by
  simp (disch := decide) only [kvExec, fld_kvOp, fld_kvWord]

theorem kvExec_bind : kvExec m (putFld v 28 4 5) x e = ({ st := .ok, gen := (slotGet e.sec (fld v 0 13)).gen },
    { e with sec := slotPut e.sec (fld v 0 13) { slotGet e.sec (fld v 0 13) with scope := fld v 23 2, kennel := fld (itemArg x 0x18) 16 8 } }) := by
  simp (disch := decide) only [kvExec, fld_kvOp, fld_kvWord]

theorem kvExec_eraseAll : kvExec m (putFld v 28 4 6) x e = ({ st := .ok, gen := (slotGet e.sec (fld v 0 13)).gen }, eraseKeys e) := by
  simp (disch := decide) only [kvExec, fld_kvOp, fld_kvWord]

end

/-- Settles O23: each operation's equation, run by `runs_kvExec` or put off by `runs_kvWait`. -/
theorem vaultCommands : Obligations.VaultCommands := by
  intro d m n v x s hx hfl hn hs hen hidle
  subst hx hn hs
  refine ⟨fun hlets hdrbg hgen => ⟨fun htype => ?_, fun htype => ?_⟩, fun hlets hdrbg hgen htype => ?_,
    fun hdrbg => ⟨fun hlets => ?_, fun hlets => ?_⟩, fun hlets halign hlen => ⟨fun htype hpass => ?_, fun htype => ?_⟩,
    fun hlets hdrbg hkek halign h0 hlen hpass bs e hread => ⟨fun pt type key scope kennel hunwrap hslot hgen => ?_, fun hunwrap => ?_⟩,
    fun hlets => ?_, fun hlets => ?_, fun hlets => ?_⟩
  · refine runs_kvExec (exec_kvGenerate m v) (by decide) hfl hen hidle hlets (fun _ => hdrbg) ((kvExec_generate ..).trans ?_)
    rw [htype]
    exact kvGenerate_xts (e := d.taken 10 m) hgen ..
  · refine runs_kvExec (exec_kvGenerate m v) (by decide) hfl hen hidle hlets (fun _ => hdrbg) ((kvExec_generate ..).trans ?_)
    rw [htype]
    exact kvGenerate_gcm (e := d.taken 10 m) hgen ..
  · exact runs_kvExec (exec_kvGenerate m v) (by decide) hfl hen hidle hlets (fun _ => hdrbg)
      ((kvExec_generate ..).trans (kvGenerate_exhausted (e := d.taken 10 m) htype hgen ..))
  · exact runs_kvWait (exec_kvGenerate m v) (by decide) hfl hen hidle hlets (.inl rfl) hdrbg
  · exact runs_kvWait (exec_kvUnwrap m v) (by decide) hfl hen hidle hlets (.inr rfl) hdrbg
  · refine runs_kvExec (exec_kvWrap m v) (by decide) hfl hen hidle hlets (by omega) ((kvExec_wrap ..).trans ?_)
    exact kvWrap_ok (e := d.taken 10 m) (by omega) hlen htype hpass
  · refine runs_kvExec (exec_kvWrap m v) (by decide) hfl hen hidle hlets (by omega) ((kvExec_wrap ..).trans ?_)
    exact kvWrap_imported (e := d.taken 10 m) (by omega) hlen htype
  · refine runs_kvExec (exec_kvUnwrap m v) (by decide) hfl hen hidle hlets (fun _ => hdrbg) ((kvExec_unwrap ..).trans ?_)
    rw [hkek]
    exact kvUnwrap_ok (e := d.taken 10 m) h0 (by omega) hlen hpass hread hunwrap hslot hgen
  · refine runs_kvExec (exec_kvUnwrap m v) (by decide) hfl hen hidle hlets (fun _ => hdrbg) ((kvExec_unwrap ..).trans ?_)
    rw [hkek]
    exact kvUnwrap_reject (e := d.taken 10 m) h0 (by omega) hlen hpass hread hunwrap
  · exact runs_kvExec (exec_kvClear m v) (by decide) hfl hen hidle hlets (by omega) (kvExec_clear ..)
  · exact runs_kvExec (exec_kvBind m v) (by decide) hfl hen hidle hlets (by omega) (kvExec_bind ..)
  · exact runs_kvExec (exec_kvEraseAll m v) (by decide) hfl hen hidle hlets (by omega) (kvExec_eraseAll ..)

end Sys2Proof.Machine
end

section
/-!
PROOFS. Key erasure and the restoration of namespace keys.
-/

namespace Sys2Proof.Machine

/-! Interrupts never clear a bit. -/

theorem bit_setBit_kept {w : Word} {i : Nat} (h : bit w i = true) (k : Nat) : bit (setBit w k) i = true := by
  rw [setBit, bit_or, h, Bool.true_or]

theorem bit_md_setBit {h : Hw} {a i : Nat} (hi : bit (rd h a) i = true) (b k : Nat) : bit (rd (md h b (fun w => setBit w k)) a) i = true := by
  by_cases hab : a = b
  · subst hab
    rw [md, rd_wr_same]
    exact bit_setBit_kept hi k
  · rw [md, rd_wr_other _ _ _ _ hab]
    exact hi

theorem bit_rd_irq_kept {h : Hw} {a i : Nat} (hi : bit (rd h a) i = true) (blk : IrqBlock) (b : Nat) :
    bit (rd (irq h blk b) a) i = true := by
  unfold irq raise
  dsimp only
  split
  · exact bit_md_setBit (bit_md_setBit hi ..) ..
  · exact bit_md_setBit hi ..

theorem bit_rd_irqIf_kept {h : Hw} {a i : Nat} (hi : bit (rd h a) i = true) (c : Bool) (blk : IrqBlock) (b : Nat) :
    bit (rd (irqIf h c blk b) a) i = true := by
  cases c
  · exact hi
  · exact bit_rd_irq_kept hi ..

/-! Key erasure (R386). -/

theorem bit_rd_kvDenied_kept {h : Hw} {a i : Nat} (hi : bit (rd h a) i = true) (s : Sec) (l : List (Nat × Word)) :
    bit (rd (l.foldl (fun h q => kvDenied s q.1 q.2 h) h) a) i = true := by
  induction l generalizing h with
  | nil => exact hi
  | cons q l ih => exact ih (bit_rd_irq_kept (h := mwr h R.KV_RSP q.1 _) hi ..)

/-- An erased slot has no key; generation and counter stay. -/
theorem slotGet_erased (s : Sec) (n : Nat) : slotGet { s with slots := s.slots.map (fun p => (p.1, slotErase p.2)) } n = slotErase (slotGet s n) := by
  unfold slotGet tabGetD
  rw [tabGet_mapVal (f := fun p : Nat × Slot => (p.1, slotErase p.2)) (fun _ => rfl)]
  cases tabGet s.slots n <;> rfl

/-- The interrupts of key erasure, and the answers of the commands that waited. -/
def eraseHw (d : Dev) : Hw :=
  (d.sec.kvWait.map (fun q => (q.1, q.2.1))).foldl (fun h q => kvDenied d.sec q.1 q.2 h)
    (irqIf (irq (cipherAbort d.hw d.sec.jobs 4) irqKv 3) (decide (d.fuse.epochLeft - 1 ≤ 4)) irqKv 4)

theorem eraseKeys_crypto {d : Dev} (hdue : d.sec.eraseDue = false) (hcrypto : hasCrypto d.fuse = true) : eraseKeys d = { d with
    fuse := { d.fuse with epochLeft := d.fuse.epochLeft - 1 }
    hw := eraseHw d
    host := { d.host with ops := abortOps d.host.ops d.sec.jobs }
    sec := { d.sec with
      slots := d.sec.slots.map (fun p => (p.1, slotErase p.2))
      importKeks := [], mapKey := none, oldMapKey := none, attestKey := false, jobs := [],
      keyCache := [], maskBytes := [], kvWait := [], eraseDue := true, kvState := 2 } } :=
  (if_neg (by simp [hdue])).trans (if_neg (by simp [hcrypto]))

theorem eraseKeys_plain {d : Dev} (hdue : d.sec.eraseDue = false) (hcrypto : hasCrypto d.fuse = false) :
    eraseKeys d = { d with sec := { d.sec with mapKey := none, oldMapKey := none, attestKey := false } } :=
  (if_neg (by simp [hdue])).trans (if_pos (by simp [hcrypto]))

theorem bit_eraseHw (d : Dev) : bit (rd (eraseHw d) R.KV_INT_STAT) 3 = true :=
  bit_rd_kvDenied_kept (bit_rd_irqIf_kept (bit_rd_irq_at _ irqKv rfl (by decide) (by decide)) ..) ..

/-- The key area is sectors 134 to 137. -/
theorem storeByte_keyArea (x : Rind) (a : Nat) : storeByte (rindErase (rindErase (rindErase (rindErase x 134) 135) 136) 137).store a =
    if 134 * 65536 ≤ a ∧ a < 138 * 65536 then some 0xFF#8 else storeByte x.store a := by
  simp only [storeByte_rindErase]
  grind

/-! Restoring namespace keys (R393). -/

theorem nsKeyRestore_lost {nsid : Nat} {n : Ns} {d : Dev} (hc : n.cipher ≠ 0)
    (hlost : Config.unwrap false (kekStorage d.fuse) (rindBytes d.hw.rind d.hw.free (134 * 65536 + (nsid - 1) * 128) 80) = none) :
    nsKeyRestore nsid n d = { d with
      hw := evFw d.hw 0x083 3 nsid n.slot 0, ten := { d.ten with namespaces := tabPut d.ten.namespaces nsid { n with keyFailed := true } } } := by
  rw [nsKeyRestore, if_neg hc]
  simp only [wrappedAt, hlost, Option.bind_none]
  rfl

theorem nsKeyRestore_ok {nsid : Nat} {n : Ns} {d : Dev} {pt : List Byte} {type scope kennel : Nat} {key : BitVec 512} (hc : n.cipher ≠ 0)
    (hunwrap : Config.unwrap false (kekStorage d.fuse) (rindBytes d.hw.rind d.hw.free (134 * 65536 + (nsid - 1) * 128) 80) = some pt)
    (hslot : unwrapSlot true n.slot 0 pt = some (type, key, scope, kennel)) (hgen : leNat ((pt.drop 69).take 3) = n.keyGen)
    (hcheck : (Config.aes256 (key.setWidth 256) 0#128).toNat % 18446744073709551616 = n.keyCheck) : nsKeyRestore nsid n d = { d with
      sec := slotPut d.sec n.slot { type := type, key := key, gen := n.keyGen, kennel := kennel, scope := scope, ctr := (slotGet d.sec n.slot).ctr }
      ten := { d.ten with namespaces := tabPut d.ten.namespaces nsid { n with keyFailed := false } } } := by
  rw [nsKeyRestore, if_neg hc]
  simp only [wrappedAt, hunwrap, Option.bind_some, hslot, Option.map_some, hgen, keyCheckOf, hcheck]
  rfl

/-- Settles O24: the erasure by `eraseKeys_crypto`, the key area byte by byte, the restoration by its cases. -/
theorem keyErasure : Obligations.KeyErasure := by
  refine ⟨?erase, ?plain, ?area, ?restore, ?one⟩
  case erase =>
    intro d hdue hcrypto
    rw [eraseKeys_crypto hdue hcrypto]
    refine ⟨rfl, fun n => ?_, rfl, rfl, rfl, rfl, rfl, rfl, bit_eraseHw d, rfl, rfl⟩
    have hslot : slotGet { d.sec with
        slots := d.sec.slots.map (fun p => (p.1, slotErase p.2))
        importKeks := [], mapKey := none, oldMapKey := none, attestKey := false, jobs := [],
        keyCache := [], maskBytes := [], kvWait := [], eraseDue := true, kvState := 2 } n = slotErase (slotGet d.sec n) := slotGet_erased ..
    rw [hslot]
    exact ⟨rfl, rfl, rfl, rfl⟩
  case plain => exact fun d hdue hcrypto => eraseKeys_plain hdue hcrypto
  case area =>
    intro d hdue
    have hrun : erasureEnd d = (abortedTags d).foldl (fun x t => opAborted t x) { d with
        hw := { d.hw with rind := rindErase (rindErase (rindErase (rindErase d.hw.rind 134) 135) 136) 137 }
        sec := { d.sec with eraseDue := false } } := by
      rw [erasureEnd, if_pos hdue, keyAreaErase, if_pos hdue]
    exact ⟨_, Runs.of_does exec_keyAreaErase hrun, rfl, storeByte_keyArea d.hw.rind⟩
  case restore =>
    intro d hcrypto hcore
    exact Runs.of_does exec_nsKeyRestore (if_pos (by simp [hcrypto, hcore]))
  case one =>
    intro d nsid n
    exact ⟨fun hc => if_pos hc, nsKeyRestore_lost, fun pt type key scope kennel => nsKeyRestore_ok⟩

end Sys2Proof.Machine
end

section
/-!
PROOFS. A cipher job that the Collar refuses.
-/

namespace Sys2Proof.Machine

/-- A firmware job of engine 0 whose source is the boot ROM. -/
def romJob : Job :=
  { master := some 0, tag := none, op := 1, slot := 0, key := 0#512, iv := 0#96, src := 0, dst := 0x10000000, len := 16, aad := 0,
    aadLen := 0, tweak := 0, tagAddr := 0, status := .ok }

/-- The engine's master may not read the boot ROM of a part whose Collar is enforced and whose windows are all disabled. -/
theorem jobPass_romJob : jobPass 0 romJob alarmingDev = .refused .denied 0 16 := by decide +kernel

/-- The alarm of the engine's refused request is recorded in the first slot of the event ring, in retention SRAM (R385, R483). -/
theorem jobRun_romJob_ring : storeByte (jobRun 0 romJob alarmingDev).2.hw.mem.data 0x207F0000 = some 0#8 := by
  rw [jobRun, jobPass_romJob]
  decide +kernel

/-- Refutes O25: a job whose request the Collar refuses changes memory where the target's default raises the COLLAR alarm, since the alarm
posts an event that the recorder writes to its ring (R384, R385, R483). -/
theorem not_cipherCommands : ¬ Obligations.CipherCommands := by
  intro h
  obtain ⟨-, -, -, -, -, -, -, -, -, -, -, hrefused, -⟩ := h
  obtain ⟨-, hmem⟩ := hrefused alarmingDev 0 0 16 romJob .denied jobPass_romJob
  have hring := jobRun_romJob_ring
  rw [hmem] at hring
  cases (show storeByte alarmingDev.hw.mem.data 0x207F0000 = none from rfl).symm.trans hring

end Sys2Proof.Machine
end

section
/-!
PROOFS. The DRBG, the signature verifier, the Collar's control and the alarms.
-/

namespace Sys2Proof.Machine

/-! Little-endian bytes, cut. -/

theorem leNat_leBytes_mod (k v : Nat) : leNat (leBytes k v) = v % 256 ^ k := by
  induction k generalizing v with
  | zero => exact (Nat.mod_one v).symm
  | succ k ih =>
    have hbyte : (BitVec.ofNat 8 v).toNat = v % 256 := BitVec.toNat_ofNat ..
    rw [leBytes, leNat, ih, hbyte, pow_succ', Nat.mod_mul]

theorem drop_leBytes (i k v : Nat) : (leBytes (i + k) v).drop i = leBytes k (v / 256 ^ i) := by
  induction i generalizing v with
  | zero => simp
  | succ i ih => rw [Nat.succ_add, leBytes, List.drop_succ_cons, ih, Nat.div_div_eq_div_mul, pow_succ']

theorem take_leBytes (n k v : Nat) : (leBytes (n + k) v).take n = leBytes n v := by
  induction n generalizing v with
  | zero => simp [leBytes]
  | succ n ih => rw [Nat.succ_add, leBytes, List.take_succ_cons, ih, leBytes]

/-- The i-th word of a digest's 48 bytes. -/
theorem leNat_digestWord {i : Nat} (hi : i < 12) (g : Nat) : BitVec.ofNat 32 (leNat (((leBytes 48 g).drop (4 * i)).take 4)) =
    BitVec.ofNat 32 (g / 2 ^ (32 * i)) := by
  have h48 : 48 = 4 * i + (4 + (44 - 4 * i)) := by omega
  have hpow : 256 ^ (4 * i) = 2 ^ (32 * i) := by rw [show 256 = 2 ^ 8 from rfl, ← pow_mul]; congr 1; omega
  rw [h48, drop_leBytes, take_leBytes, leNat_leBytes_mod, hpow]
  exact BitVec.eq_of_toNat_eq (by simp)

/-! Folds that write a row of registers. -/

/-- Registers that a fold does not write keep their words. -/
theorem rd_foldl_wr_other {l : List Nat} {addr : Nat → Nat} {val : Nat → Word} {a : Nat} (h : Hw) (ha : ∀ i ∈ l, a ≠ addr i) :
    rd (l.foldl (fun x i => wr x (addr i) (val i)) h) a = rd h a := by
  induction l generalizing h with
  | nil => rfl
  | cons i l ih =>
    rw [List.foldl_cons, ih _ fun j hj => ha j (List.mem_cons_of_mem _ hj), rd_wr_other _ _ _ _ (ha i List.mem_cons_self)]

theorem rd_putDigest {i : Nat} (hi : i < 12) (h : Hw) (g : BitVec 384) :
    rd (putDigest h g) (R.SIGV_DIGEST i) = BitVec.ofNat 32 (g.toNat / 2 ^ (32 * i)) := by
  have hsplit : List.range 12 = List.range i ++ i :: (List.range (11 - i)).map (· + (i + 1)) := by
    have : 12 = i + ((11 - i) + 1) := by omega
    conv_lhs => rw [this, List.range_add, List.range_succ_eq_map]
    simp [Function.comp_def, Nat.add_left_comm]
  have hafter : ∀ j ∈ (List.range (11 - i)).map (· + (i + 1)), R.SIGV_DIGEST i ≠ R.SIGV_DIGEST j := by
    intro j hj
    obtain ⟨k, -, rfl⟩ := List.mem_map.mp hj
    unfold R.SIGV_DIGEST
    omega
  rw [putDigest, hsplit, List.foldl_append, List.foldl_cons, rd_foldl_wr_other _ hafter, rd_wr_same, leNat_digestWord hi]

/-- The masks are fresh in the engines below k; no other register changes (R378). -/
theorem maskFresh_spec (h : Hw) (k : Nat) : (∀ i < k, bit (rd (maskFresh h k) (R.CIPHER_STAT i)) 30 = false) ∧
    ∀ a, (∀ i < k, a ≠ R.CIPHER_STAT i) → rd (maskFresh h k) a = rd h a := by
  induction k with
  | zero => exact ⟨fun _ hi => absurd hi (Nat.not_lt_zero _), fun _ _ => rfl⟩
  | succ k ih =>
    obtain ⟨hfresh, hkept⟩ := ih
    refine ⟨fun i hi => ?_, fun a ha => ?_⟩
    · rw [maskFresh, md]
      by_cases hik : i = k
      · rw [hik, rd_wr_same, bit_clrBit _ _ _ (by decide)]
        simp
      · rw [rd_wr_other _ _ _ _ (by unfold R.CIPHER_STAT; omega)]
        exact hfresh i (by omega)
    · rw [maskFresh, md, rd_wr_other _ _ _ _ (ha k (Nat.lt_succ_self k))]
      exact hkept a fun i hi => ha i (Nat.lt_succ_of_lt hi)

/-! The signature verifier. -/

theorem regWriteAt_sigvCtrl (m : Nat) (v : Word) (d : Dev) : regWriteAt m R.SIGV_CTRL v d = (.ok, sigvCtrlWrite m v d) := rfl

theorem regWriteAt_collarCtrl (m : Nat) (v : Word) (d : Dev) : regWriteAt m R.COLLAR_CTRL v d = (.ok, collarCtrlWrite v d) := rfl

/-- A write of SIGV_CTRL that starts a verify and no hash. -/
theorem sigvCtrlWrite_verify {v : Word} (h1 : bit v 1 = false) (m : Nat) (d : Dev) : sigvCtrlWrite m (v ||| 1#32) d =
    sigvGo { d with hw := wr d.hw R.SIGV_CTRL (rwWrite 0xC#32 (rd d.hw R.SIGV_CTRL) (v ||| 1#32)) } := by
  have hverify : bit (v ||| 1#32) 0 = true := (bit_or_one v).1
  have hhash : bit (v ||| 1#32) 1 = false := (bit_or_one v).2.trans h1
  unfold sigvCtrlWrite
  rw [hverify, hhash]
  rfl

/-- A write of SIGV_CTRL that starts a hash and no verify. -/
theorem sigvCtrlWrite_hash {v : Word} (h0 : bit v 0 = false) (m : Nat) (d : Dev) : sigvCtrlWrite m (v ||| 2#32) d =
    sigvHash m { d with hw := wr d.hw R.SIGV_CTRL (rwWrite 0xC#32 (rd d.hw R.SIGV_CTRL) (v ||| 2#32)) } := by
  have hverify : bit (v ||| 2#32) 0 = false := (bit_or_two v).2.trans h0
  have hhash : bit (v ||| 2#32) 1 = true := (bit_or_two v).1
  unfold sigvCtrlWrite
  rw [hverify, hhash]
  rfl

/-- The role of a verify is that of the write. -/
theorem fld_sigvRole (w v : Word) : fld (rwWrite 0xC#32 w (v ||| 1#32)) 2 2 = fld v 2 2 := by
  refine fld_congr fun i hlo hhi => ?_
  obtain rfl | rfl : i = 2 ∨ i = 3 := by omega
  all_goals simp only [rwWrite, bit_or, bit_and]; simp [bit]

/-- What a verify reads does not depend on SIGV_CTRL but for the role. -/
theorem win384_wr {h : Hw} {a : Nat} {w : Nat → Nat} (v : Word) (ha : ∀ i, w i ≠ a) : win384 (wr h a v) w = win384 h w := by
  simp only [win384, rd_wr_other _ _ _ _ (ha _)]

theorem digestNat_wr_sigvCtrl (h : Hw) (v : Word) : digestNat (wr h R.SIGV_CTRL v) = digestNat h := by
  have hkeep : ∀ i, rd (wr h R.SIGV_CTRL v) (R.SIGV_DIGEST i) = rd h (R.SIGV_DIGEST i) := fun i =>
    rd_wr_other _ _ _ _ (by unfold R.SIGV_DIGEST R.SIGV_CTRL; omega)
  simp only [digestNat, hkeep]

/-- A verify that starts, with its outcome (R382). -/
theorem sigvGo_starts {d : Dev} {v : Word} {st : Status} {n : Nat} (hidle : d.sec.verify = none)
    (hout : ecdsaOutcome d.fuse (fld v 2 2) (fld (rd d.hw R.SIGV_QFMT) 0 8) (digestNat d.hw) (win384 d.hw R.SIGV_R) (win384 d.hw R.SIGV_S)
      (win384 d.hw R.SIGV_QX) (win384 d.hw R.SIGV_QY) = (st, n)) :
    sigvGo { d with hw := wr d.hw R.SIGV_CTRL (rwWrite 0xC#32 (rd d.hw R.SIGV_CTRL) (v ||| 1#32)) } = { d with
      hw := wr (wr d.hw R.SIGV_CTRL (rwWrite 0xC#32 (rd d.hw R.SIGV_CTRL) (v ||| 1#32))) R.SIGV_STAT (setBit (rd d.hw R.SIGV_STAT) 31)
      sec := { d.sec with verify := some { result := st, reason := n, jtag := false } } } := by
  have hR : ∀ i, R.SIGV_R i ≠ R.SIGV_CTRL := fun i => by unfold R.SIGV_R R.SIGV_CTRL; omega
  have hS : ∀ i, R.SIGV_S i ≠ R.SIGV_CTRL := fun i => by unfold R.SIGV_S R.SIGV_CTRL; omega
  have hX : ∀ i, R.SIGV_QX i ≠ R.SIGV_CTRL := fun i => by unfold R.SIGV_QX R.SIGV_CTRL; omega
  have hY : ∀ i, R.SIGV_QY i ≠ R.SIGV_CTRL := fun i => by unfold R.SIGV_QY R.SIGV_CTRL; omega
  have hqfmt : R.SIGV_QFMT ≠ R.SIGV_CTRL := by decide
  have hstat : R.SIGV_STAT ≠ R.SIGV_CTRL := by decide
  simp only [sigvGo, hidle, Option.isSome_none, Bool.false_eq_true, if_false, rd_wr_same, fld_sigvRole, rd_wr_other _ _ _ _ hqfmt,
    digestNat_wr_sigvCtrl, win384_wr _ hR, win384_wr _ hS, win384_wr _ hX, win384_wr _ hY, hout, md, rd_wr_other _ _ _ _ hstat]

/-- A read of the random data is answered by the DRBG. -/
theorem regRead_rng {d : Dev} {m a : Nat} (h : d.lets (readOf m a)) (ha : a = R.SIGV_RNG_DATA) (hr : regionOf d.hw a = .regs) :
    regRead m a d = rngRead m d := by
  have hgo := access_lets h
  unfold regRead
  change access (readOf m a) d = _
  rw [hgo]
  simp only [accessTarget, accessRead, readOf, hr]
  exact if_pos ha

/-- SIGV_CTRL is none of a hash's operands. -/
theorem sigvHash_operands (h : Hw) (v : Word) : rd (wr h R.SIGV_CTRL v) R.SIGV_HLEN = rd h R.SIGV_HLEN ∧
    rd (wr h R.SIGV_CTRL v) R.SIGV_HSRC_LO = rd h R.SIGV_HSRC_LO ∧ rd (wr h R.SIGV_CTRL v) R.SIGV_HSRC_HI = rd h R.SIGV_HSRC_HI :=
  ⟨rd_wr_other _ _ _ _ (by decide), rd_wr_other _ _ _ _ (by decide), rd_wr_other _ _ _ _ (by decide)⟩

/-- Every check of a verify, in the order of the reasons (R382). -/
theorem ecdsaOutcome_ok_iff (f : Fuse) (role fmt : Nat) (dg r s x y : BitVec 384) : (ecdsaOutcome f role fmt dg r s x y).1 = .ok ↔
    (0 < r.toNat ∧ r.toNat < p384n ∧ 0 < s.toNat ∧ s.toNat < p384n) ∧ (fmt = 4 ∧ x.toNat < p384p ∧ y.toNat < p384p ∧ Config.onCurve x y = true) ∧
    (role = 0 ∨ ∃ i < 4, f.revoked.getLsbD (4 * (role - 1) + i) = false ∧
      Config.sha384 (pointBytes x y) = Config.fusedHash role i) ∧ Config.ecdsaHolds dg r s x y = true := by
  have hrole : roleKeyOk f role x y = true ↔ ∃ i < 4, f.revoked.getLsbD (4 * (role - 1) + i) = false ∧
      Config.sha384 (pointBytes x y) = Config.fusedHash role i := by simp [roleKeyOk]
  rw [← hrole]
  unfold ecdsaOutcome
  split
  case isTrue hrange =>
    refine iff_of_false (by decide) fun h => ?_
    obtain ⟨⟨hr, hrn, hs, hsn⟩, -⟩ := h
    omega
  case isFalse hrange =>
  split
  case isTrue hkey =>
    refine iff_of_false (by decide) fun h => ?_
    obtain ⟨-, ⟨hfmt, hx, hy, hcurve⟩, -⟩ := h
    simp only [hfmt, hcurve, ne_eq, not_true, Bool.true_eq_false, or_false, false_or] at hkey
    omega
  case isFalse hkey =>
  split
  case isTrue hfused =>
    refine iff_of_false (by decide) fun h => ?_
    obtain ⟨-, -, hr | hr, -⟩ := h
    · exact hfused.1 hr
    · exact Bool.false_ne_true (hfused.2 ▸ hr)
  case isFalse hfused =>
  have hranges : 0 < r.toNat ∧ r.toNat < p384n ∧ 0 < s.toNat ∧ s.toNat < p384n := by omega
  have hpoint : fmt = 4 ∧ x.toNat < p384p ∧ y.toNat < p384p ∧ Config.onCurve x y = true := by
    simp only [not_or, Bool.not_eq_false, not_not, Nat.not_le] at hkey
    exact hkey
  have hfusedKey : role = 0 ∨ roleKeyOk f role x y = true := by
    by_cases h0 : role = 0
    · exact .inl h0
    · exact .inr (by simpa [h0] using hfused)
  split
  case isTrue hsig => simp [hsig]
  case isFalse hsig => simp [hranges, hpoint, hfusedKey, hsig]

/-- Settles O26: the DRBG's reseed and reads, the verifier's starts and ends, the Collar's two set bits and the alarm, each by its function. -/
theorem securityCommands : Obligations.SecurityCommands := by
  refine ⟨?reseeded, fun _ _ => rfl, fun _ _ _ _ => rfl, fun h => maskFresh_spec h 4, fun d => Runs.of_does (exec_drbgReseed false) rfl,
    ?health, ?ready, ?draw, ?wait, ?verify, ?busy, ?verified, ecdsaOutcome_ok_iff, ?hashNone, ?hash, ?hashBusy, ?hashed,
    ?enforce, ?lock, ?alarm⟩
  case reseeded =>
    intro d e f h s hans he hf
    refine Runs.of_does (exec_drbgReseed true) ?_
    rw [hf, he, drbgDue, reseed, drbgReseed, if_pos rfl, if_pos rfl, if_pos rfl, hans]
  case health =>
    intro d kind hkind
    exact ⟨_, rfl, Runs.of_onUnit (exec_entropyHealthFail kind) (decide_eq_true hkind) rfl⟩
  case ready => simp [drbgReady]
  case draw =>
    intro d m hlets hready
    refine Runs.of_onUnit (exec_sigvRngDataRead m) hlets.masterOk ?_
    rw [regRead_rng hlets rfl (IsReg.regionOf (by decide) _), rngRead, if_pos hready]
    rfl
  case wait =>
    intro d m hlets hready
    refine Runs.of_onUnit (exec_sigvRngDataRead m) hlets.masterOk ?_
    rw [regRead_rng hlets rfl (IsReg.regionOf (by decide) _), rngRead, if_neg (by simp [hready])]
  case verify =>
    intro d m v hlets h1 hidle st n hout
    refine Runs.of_regWrite (exec_sigvVerify m v) hlets (by decide) ((regWriteAt_sigvCtrl ..).trans (congrArg (Prod.mk Status.ok) ?_))
    rw [sigvCtrlWrite_verify h1, sigvGo_starts hidle hout]
  case busy =>
    intro d m v hlets h1 hbusy
    refine Runs.of_regWrite (exec_sigvVerify m v) hlets (by decide) ((regWriteAt_sigvCtrl ..).trans (congrArg (Prod.mk Status.ok) ?_))
    rw [sigvCtrlWrite_verify h1, sigvGo, if_pos (Option.isSome_iff_ne_none.mpr hbusy)]
  case verified =>
    intro d e v hv hjtag he
    have hdone : sigvDone d = e := by
      simp only [sigvDone, hv, hjtag, he]
      rfl
    have hresp : e.jtag.resp = d.jtag.resp := by rw [he]
    refine ⟨fun hnone => Runs.of_does exec_sigvVerifyDone ?_, fun c r hsome => Runs.of_does exec_sigvVerifyDone ?_⟩
    · simp [verifyDone, hv, hjtag, hdone, hresp, hnone]
    · simp [verifyDone, hv, hjtag, hdone, hresp, hsome]
  case hashNone =>
    intro d m v hlets h0 hidle hlen
    refine Runs.of_regWrite (exec_sigvHash m v) hlets (by decide) ((regWriteAt_sigvCtrl ..).trans (congrArg (Prod.mk Status.ok) ?_))
    obtain ⟨hlenKept, -, -⟩ := sigvHash_operands d.hw (rwWrite 0xC#32 (rd d.hw R.SIGV_CTRL) (v ||| 2#32))
    rw [sigvCtrlWrite_hash h0, sigvHash]
    simp only [hidle, Option.isSome_none, Bool.false_eq_true, if_false, hlenKept, hlen, if_true]
  case hash =>
    intro d e f x m v bs src hlets h0 hidle hlen hsrc he hclear hread
    refine ⟨_, rfl, Runs.of_regWrite (exec_sigvHash m v) hlets (by decide)
      ((regWriteAt_sigvCtrl ..).trans (congrArg (Prod.mk Status.ok) ?_))⟩
    obtain ⟨hlenKept, hlo, hhi⟩ := sigvHash_operands d.hw (rwWrite 0xC#32 (rd d.hw R.SIGV_CTRL) (v ||| 2#32))
    rw [sigvCtrlWrite_hash h0, ← he]
    have hew : e.hw = wr d.hw R.SIGV_CTRL (rwWrite 0xC#32 (rd d.hw R.SIGV_CTRL) (v ||| 2#32)) := by rw [he]
    have hes : e.sec.hash = none := by rw [he, hidle]
    rw [← hew] at hlenKept hlo hhi
    simp only [sigvHash, hes, Option.isSome_none, Bool.false_eq_true, if_false, hlenKept, hlo, hhi, hlen, ← hsrc, hclear, hread,
      Option.isSome_some, if_true]
    rfl
  case hashBusy =>
    intro d m v hlets h0 hbusy
    refine Runs.of_regWrite (exec_sigvHash m v) hlets (by decide) ((regWriteAt_sigvCtrl ..).trans (congrArg (Prod.mk Status.ok) ?_))
    rw [sigvCtrlWrite_hash h0, sigvHash, if_pos (Option.isSome_iff_ne_none.mpr hbusy)]
  case hashed =>
    intro d g hg
    refine ⟨md (md (putDigest d.hw g) R.SIGV_STAT (fun w => clrBit w 30)) R.SIGV_CTRL (fun w => clrBit w 1),
      Runs.of_does exec_sigvHashDone ?_, ?_, ?_, fun i hi => ?_⟩
    · simp only [sigvHashDone, hg]
    · rw [md, rd_wr_other _ _ _ _ (by decide), md, rd_wr_same, bit_clrBit _ _ _ (by decide)]
      simp
    · rw [md, rd_wr_same, bit_clrBit _ _ _ (by decide)]
      simp
    · rw [md, rd_wr_other _ _ _ _ (by unfold R.SIGV_DIGEST R.SIGV_CTRL; omega), md,
        rd_wr_other _ _ _ _ (by unfold R.SIGV_DIGEST R.SIGV_STAT; omega), rd_putDigest hi]
  case enforce =>
    intro d m hlets
    exact Runs.of_regWrite (exec_collarEnforceSet m) hlets (by decide) (regWriteAt_collarCtrl ..)
  case lock =>
    intro d m hlets
    exact Runs.of_regWrite (exec_collarLockSet m) hlets (by decide) (regWriteAt_collarCtrl ..)
  case alarm =>
    intro d src m pol hsrc hm hpol
    have hok : (decide (src < 5) && decide (m < 128)) = true := by simp [hsrc, hm]
    refine ⟨_, rfl, fun h0 => Runs.of_onUnit (exec_alarm src m) hok ?_, fun h1 hs => Runs.of_onUnit (exec_alarm src m) hok ?_,
      fun h1 hs => Runs.of_onUnit (exec_alarm src m) hok ?_, fun h2 => Runs.of_onUnit (exec_alarm src m) hok ?_⟩
    · unfold alarm
      dsimp only
      rw [← hpol, if_pos h0]
      rfl
    · unfold alarm
      dsimp only
      rw [← hpol, if_neg (by omega), if_pos h1, if_pos hs]
      rfl
    · unfold alarm
      dsimp only
      rw [← hpol, if_neg (by omega), if_pos h1, if_neg hs]
      rfl
    · unfold alarm
      dsimp only
      rw [← hpol, if_neg (by omega), if_neg (by omega)]
      rfl

end Sys2Proof.Machine
end

section
/-!
PROOFS. The management endpoint: MCTP control, messages held, NVMe-MI requests and its registers.
-/

namespace Sys2Proof.Machine

/-! The two ways to the management endpoint: control messages in hardware, and requests that firmware serves. -/

theorem mctpControl_ready {d e : Dev} {bs : List Byte} (hready : d.mgmt.ready = true) {f : Dev → List Byte × Dev} (hf : f d = (bs, e)) :
    mctpControl f d = { e with mgmt := { e.mgmt with lastTx := some (0, bs) } } := by
  rw [mctpControl, if_pos hready, hf]
  rfl

theorem mctpServe_serves {d e : Dev} {type : Nat} {bs : List Byte} (h : d.fwServes) {f : Dev → List Byte × Dev} (hf : f d = (bs, e)) :
    mctpServe type f d = e.served type bs := by
  obtain ⟨hready, hfw, hrx⟩ := h
  simp only [mctpServe, fwReady, hready, hfw, hrx, hf, Bool.not_true, Bool.false_eq_true, if_false, Option.isSome_none]
  rfl

theorem tabGet_wr_other (h : Hw) {a b : Nat} (v : Word) (hb : b ≠ a) : tabGet (wr h a v).regs b = tabGet h.regs b :=
  tabGet_tabPut_other _ _ hb

/-- The receive buffer's words below n. -/
theorem rxFill_words (bs : List Byte) (h : Hw) (n : Nat) (x : Hw)
    (hx : x = (List.range n).foldl (fun x i => wr x (R.MGMT_RXBUF i) (BitVec.ofNat 32 (leNat ((bs.drop (4 * i)).take 4)))) h) :
    (∀ a, (∀ i < n, a ≠ R.MGMT_RXBUF i) → tabGet x.regs a = tabGet h.regs a) ∧
    ∀ i < n, rd x (R.MGMT_RXBUF i) = BitVec.ofNat 32 (leNat ((bs.drop (4 * i)).take 4)) := by
  induction n generalizing x with
  | zero => exact ⟨fun a _ => by rw [hx]; rfl, fun i hi => absurd hi (Nat.not_lt_zero i)⟩
  | succ n ih =>
    obtain ⟨hkept, hword⟩ := ih _ rfl
    rw [List.range_succ, List.foldl_append] at hx
    subst hx
    refine ⟨fun a ha => ?_, fun i hi => ?_⟩
    · exact (tabGet_wr_other _ _ (ha n (Nat.lt_succ_self n))).trans (hkept a fun i hi => ha i (Nat.lt_succ_of_lt hi))
    · by_cases hin : i = n
      · subst hin
        exact rd_wr_same ..
      · exact (rd_wr_other _ _ _ _ (by unfold R.MGMT_RXBUF; omega)).trans (hword i (by omega))

/-- A message that firmware does not take is answered busy. -/
theorem mctpReceived_notReady {d : Dev} {type src tag : Nat} {bs : List Byte} (htype : type = 4 ∨ type = 5) (hready : d.mgmt.ready = true)
    (hfw : bit (rd d.hw R.MGMT_CTRL) 0 = false) (hlen : bs.length ≤ 4224) : mctpReceived type src tag bs d = busyAnswer type d := by
  have hkind : ¬ (type ≠ 4 ∧ type ≠ 5) := by omega
  simp [mctpReceived, fwReady, hready, hkind, hfw, Nat.not_lt.mpr hlen]

theorem mctpReceived_held {d : Dev} {type src tag : Nat} {bs : List Byte} (htype : type = 4 ∨ type = 5) (hready : d.mgmt.ready = true)
    (hfw : bit (rd d.hw R.MGMT_CTRL) 0 = true) (hrx : d.mgmt.rx ≠ none) (hlen : bs.length ≤ 4224) :
    mctpReceived type src tag bs d = hwMod (fun h => irq h irqMgmt 3) (busyAnswer type d) := by
  have hkind : ¬ (type ≠ 4 ∧ type ≠ 5) := by omega
  simp [mctpReceived, fwReady, hready, hkind, hfw, Nat.not_lt.mpr hlen, Option.isSome_iff_ne_none, hrx]

theorem mctpReceived_taken {d : Dev} {type src tag : Nat} {bs : List Byte} (htype : type = 4 ∨ type = 5) (h : d.fwServes)
    (hlen : bs.length ≤ 4224) : mctpReceived type src tag bs d = { d with
      hw := irq (rxFill bs d.hw) irqMgmt 0
      mgmt := { d.mgmt with rx := some { type := type, src := src % 256, tag := tag % 8, bytes := bs } } } := by
  obtain ⟨hready, hfw, hrx⟩ := h
  have hkind : ¬ (type ≠ 4 ∧ type ≠ 5) := by omega
  simp [mctpReceived, fwReady, hready, hkind, hfw, Nat.not_lt.mpr hlen, hrx, hwMod, mgMod]

/-- The value at a key after a run of values was put from off on. -/
theorem tabGetD_cellsPut (off : Nat) (bs : List Byte) (t : List Host.Cell) (a : Nat) (x : Byte) :
    tabGetD (cellsPut off bs t) a x = if off ≤ a ∧ a < off + bs.length then bs.getD (a - off) 0#8 else tabGetD t a x := by
  induction bs using List.reverseRecOn with
  | nil => simp [cellsPut]
  | append_singleton bs b ih =>
    have hput : cellsPut off (bs ++ [b]) t = tabPut (cellsPut off bs t) (off + bs.length) b := by
      simp [cellsPut, List.zipIdx_append]
    rw [hput]
    by_cases ha : a = off + bs.length
    · subst ha
      simp
    · rw [tabGetD_tabPut_other _ _ _ ha, ih]
      by_cases hin : off ≤ a ∧ a < off + bs.length
      · have hin' : off ≤ a ∧ a < off + (bs ++ [b]).length := by simp; omega
        rw [if_pos hin, if_pos hin', List.getD_append _ _ _ _ (by omega)]
      · have hin' : ¬ (off ≤ a ∧ a < off + (bs ++ [b]).length) := by simp; omega
        rw [if_neg hin, if_neg hin']

/-! The registers of the endpoint. -/

theorem regWriteAt_rxctl (m : Nat) (v : Word) (d : Dev) : regWriteAt m R.MGMT_RXCTL v d = (.ok, rxctlWrite v d) := rfl

theorem regWriteAt_txctl (m : Nat) (v : Word) (d : Dev) : regWriteAt m R.MGMT_TXCTL v d = txctlWrite v d := rfl

theorem regWriteAt_mgmtCtrl (m : Nat) (v : Word) (d : Dev) : regWriteAt m R.MGMT_CTRL v d = (.ok, mgCtrlWrite v d) := rfl

theorem bit_txGo (v : Word) : bit (v ||| 0x80000000#32) 31 = true := bit_or_forced (by decide) v

theorem fld_txGo (v : Word) : fld (v ||| 0x80000000#32) 0 16 = fld v 0 16 := by
  have hclear : ∀ i < 16, bit 0x80000000#32 i = false := by decide
  exact fld_congr fun i _ hi => bit_or_kept (hclear i (by omega)) v

/-- Bits that a register does not take make no difference to a write of it. -/
theorem rwWrite_or {mask c : Word} (h : c &&& mask = 0#32) (w v : Word) : rwWrite mask w (v ||| c) = rwWrite mask w v := by
  have hand : (v ||| c) &&& mask = v &&& mask := by
    rw [BitVec.and_comm, BitVec.and_or_distrib_left, BitVec.and_comm mask c, h, BitVec.or_zero, BitVec.and_comm]
  rw [rwWrite, hand, rwWrite]

/-- Settles O27: each request by the way it takes to the endpoint, and the endpoint's registers. -/
theorem managementCommands : Obligations.ManagementCommands := by
  refine ⟨?ready, ?setEid, ?getEid, ?version, ?types, ?taken, ?notReady, ?held, ?requests, ?release, ?txGo, ?zero, ?txDone, ?alert,
    ?alertRead, ?assign, ?rstdaa, ?packet⟩
  case ready =>
    intro d hpgood
    exact Runs.of_does exec_mgmtReady (if_pos hpgood)
  case setEid =>
    intro d eid hready h0 hmax
    refine Runs.of_does (exec_setEndpointId eid) ?_
    have hmod : eid % 256 = eid := Nat.mod_eq_of_lt (by omega)
    have hvalid : ¬ (eid % 256 = 0 ∨ eid % 256 = 0xFF) := by omega
    refine (mctpControl_ready hready (if_neg hvalid)).trans ?_
    rw [hmod]
    rfl
  case getEid =>
    intro d hready
    exact Runs.of_does exec_getEndpointId (mctpControl_ready hready rfl)
  case version =>
    intro d hready
    exact ⟨leBytes 4 (Config.freeNat d.hw.free), leBytes_length .., Runs.of_does exec_getMctpVersionSupport
      (mctpControl_ready (e := hwMod spend d) hready rfl)⟩
  case types =>
    intro d hready
    exact Runs.of_does exec_getMessageTypeSupport (mctpControl_ready hready rfl)
  case taken =>
    intro d type src tag bs hserves htype hlen
    obtain ⟨hkept, hwords⟩ := rxFill_words bs d.hw _ _ rfl
    exact ⟨rxFill bs d.hw, hkept, hwords, Runs.of_does (exec_mctpMessageReceived type src tag bs) (mctpReceived_taken htype hserves hlen)⟩
  case notReady =>
    intro d src tag bs hready hfw hlen
    exact ⟨Runs.of_does (exec_mctpMessageReceived 4 src tag bs) (mctpReceived_notReady (.inl rfl) hready hfw hlen),
      Runs.of_does (exec_mctpMessageReceived 5 src tag bs) (mctpReceived_notReady (.inr rfl) hready hfw hlen)⟩
  case held =>
    intro d src tag bs hready hfw hrx hlen
    exact ⟨Runs.of_does (exec_mctpMessageReceived 4 src tag bs) (mctpReceived_held (.inl rfl) hready hfw hrx hlen),
      Runs.of_does (exec_mctpMessageReceived 5 src tag bs) (mctpReceived_held (.inr rfl) hready hfw hrx hlen)⟩
  case requests =>
    intro d h
    refine ⟨⟨leBytes 32 (Config.freeNat d.hw.free), Runs.of_does (exec_readNvmeMiDataStructure 0 0) (mctpServe_serves h ?_)⟩,
      fun id hid hctrl => Runs.of_does (exec_readNvmeMiDataStructure 3 id) (mctpServe_serves h (if_pos ⟨hid, hctrl⟩)),
      Runs.of_does exec_subsystemHealthStatusPoll (mctpServe_serves h rfl),
      fun id hid hctrl => Runs.of_does (exec_controllerHealthStatusPoll id) (mctpServe_serves h ((if_pos ⟨hid, hctrl⟩).trans ?_)),
      Runs.of_does (exec_configurationGet 3) (mctpServe_serves h rfl),
      fun id v hid hv => Runs.of_does (exec_configurationGet id) (mctpServe_serves h ((if_neg hid).trans (by rw [hv]))),
      fun v hv => Runs.of_does (exec_configurationSet 3 v) (mctpServe_serves h ((if_pos rfl).trans (if_pos hv))),
      fun hi3c => Runs.of_does (exec_configurationSet 3 256) (mctpServe_serves h ((if_pos rfl).trans (if_neg (by simp [hi3c])))),
      fun off len => Runs.of_does (exec_vpdRead off len) (mctpServe_serves h rfl),
      fun off bs => ⟨cellsPut off bs d.mgmt.vpd, Runs.of_does (exec_vpdWrite off bs) (mctpServe_serves h rfl),
        fun a => tabGetD_cellsPut off bs d.mgmt.vpd a _⟩⟩
    · cases hdual : dual d <;> rfl
    · cases hrdy : (ctrlGet d (ctrlOfId id).1 (ctrlOfId id).2).rdy <;> cases hcfs : (ctrlGet d (ctrlOfId id).1 (ctrlOfId id).2).cfs <;>
        simp [bitsOf, hrdy, hcfs]
  case release =>
    intro d m hlets
    exact Runs.of_regWrite (exec_mgmtRxRelease m) hlets (by decide) (regWriteAt_rxctl ..)
  case txGo =>
    intro d m v hlets hidle hmin hmax
    refine Runs.of_regWrite (exec_mgmtTxGo m v) hlets (by decide) ((regWriteAt_txctl ..).trans ?_)
    have hn : fld v 0 16 ≠ 0 := by omega
    simp only [txctlWrite, bit_txGo, fld_txGo, hidle, Bool.not_false, Bool.and_self, if_true, hn, if_false, hmax, md,
      rwWrite_or (mask := 0x00FFFFFF#32) (c := 0x80000000#32) (by decide)]
    rfl
  case zero =>
    intro d m v hlets hidle hn
    refine Runs.of_onUnit (exec_mgmtTxGo m v) hlets.masterOk ?_
    have hzero : regWriteAt m R.MGMT_TXCTL (v ||| 0x80000000#32) d = (.zeroLen, d) := by
      rw [regWriteAt_txctl]
      simp only [txctlWrite, bit_txGo, fld_txGo, hidle, hn, Bool.not_false, Bool.and_self, if_true]
    rw [regWrite_lets hlets (IsReg.regionOf (by decide) _), hzero]
  case txDone =>
    intro d hbusy
    exact Runs.of_does exec_mgmtTxDone (if_pos hbusy)
  case alert =>
    intro d m v hlets h1
    refine Runs.of_regWrite (exec_mgmtAlertSet m v) hlets (by decide) ((regWriteAt_mgmtCtrl ..).trans (congrArg (Prod.mk Status.ok) ?_))
    have hmode : bit (v ||| 4#32) 1 = true := (bit_or_kept (by decide) v).trans h1
    have halert : bit (v ||| 4#32) 2 = true := bit_or_forced (by decide) v
    unfold mgCtrlWrite
    rw [hmode, halert, if_pos rfl, if_pos rfl]
    simp only [hwMod, mgMod, md, rwWrite_or (mask := 3#32) (c := 4#32) (by decide)]
    rfl
  case alertRead =>
    intro d hready
    exact Runs.of_does exec_alertResponseRead (if_pos hready)
  case assign =>
    intro d addr hready hen
    refine Runs.of_does (exec_i3cAddressAssign addr) ?_
    have hon : (d.mgmt.ready && bit (rd d.hw R.MGMT_CTRL) 1) = true := by rw [hready, hen]; rfl
    rw [i3cAssign, if_pos hon]
    split <;> rfl
  case rstdaa =>
    intro d hi3c
    exact Runs.of_does exec_i3cRstdaa (if_pos hi3c)
  case packet =>
    intro d hready
    exact Runs.of_does exec_mctpPacketError (if_pos hready)

end Sys2Proof.Machine
end

section
/-!
PROOFS. SPDM: requests in the order of the connection's states, over MCTP and over the host's admin queue.
-/

namespace Sys2Proof.Machine

/-! The ways of an SPDM request: over MCTP to a firmware that serves, and over the host's admin queue. -/

theorem adminGate_up {c : Src} {d : Dev} (h : adminUp c d = true) (f : Dev → Dev) : adminGate c f d = f d := if_pos h

theorem spdmServe_mctp {d e : Dev} {bs : List Byte} (h : d.fwServes) {f : Dev → List Byte × Dev} (hf : f d = (bs, e)) :
    spdmServe .mctp f d = e.served 5 bs := mctpServe_serves h hf

theorem spdmServe_host {c : Src} {d e : Dev} {bs : List Byte} (h : adminUp c d = true) {f : Dev → List Byte × Dev} (hf : f d = (bs, e)) :
    spdmServe (.host c) f d = adminDone c .success 0 (asData bs) e := by
  rw [spdmServe, adminGate_up h, hf]

theorem spdmFrom_reached {need : Nat} {d : Dev} (h : need ≤ d.sec.spdmState) (f : Dev → List Byte × Dev) : spdmFrom need f d = f d := if_pos h

/-- A request that is signed runs at once where no draw of the DRBG is missing. -/
theorem spdmSignedServe_runs {d : Dev} (hdraw : d.sec.attestKey = true → drbgReady d.sec = true) (h : RndHeld) (via : Via)
    (f : Dev → List Byte × Dev) : spdmSignedServe h via f d = spdmServe via (spdmFrom 3 f) d := by
  by_cases hkey : d.sec.attestKey = true
  · simp [spdmSignedServe, rndGate, hdraw hkey]
  · simp [spdmSignedServe, hkey]

/-- A request that is signed waits for the DRBG. -/
theorem spdmSignedServe_waits {d : Dev} (hserves : d.fwServes) (hstate : 3 ≤ d.sec.spdmState) (hkey : d.sec.attestKey = true)
    (hdraw : drbgReady d.sec = false) (h : RndHeld) (f : Dev → List Byte × Dev) :
    spdmSignedServe h .mctp f d = { d with host := { d.host with rndHeld := d.host.rndHeld ++ [h] } } := by
  obtain ⟨hready, hfw, hrx⟩ := hserves
  simp [spdmSignedServe, fwReady, hready, hfw, hrx, hstate, hkey, rndGate, hdraw]

/-- A challenge of slot 0, with its signed answer. -/
theorem spdmChallenge_slot (via : Via) (nonce : List Byte) (d : Dev) : spdmChallenge via 0 nonce d =
    spdmSignedServe (.spdmChallenge via 0 nonce) via (fun x => (spdmSigned x nonce (spdmMsg x 0x03 0 1 (certDigest x)), x)) d := if_neg (by decide)

theorem spdmGetMeasurements_unsigned {d : Dev} {i : Nat} (hserves : d.fwServes) (hstate : 3 ≤ d.sec.spdmState) (h1 : 1 ≤ i) (h5 : i ≤ 5)
    {msg : List Byte} (hmsg : msg = spdmMsg d 0x60 0 0 (leBytes 1 i ++ measurement d i)) (nonce : List Byte) :
    spdmGetMeasurements .mctp i false nonce d = d.served 5 msg := by
  have hi0 : i ≠ 0 := by omega
  have hiff : i ≠ 0xFF := by omega
  simp only [spdmGetMeasurements, Bool.false_and, Bool.false_eq_true, if_false, hi0, hiff, h5, if_true]
  rw [hmsg]
  exact spdmServe_mctp hserves (spdmFrom_reached hstate _)

theorem spdmGetMeasurements_signed {d : Dev} {i : Nat} (hserves : d.fwServes) (hstate : 3 ≤ d.sec.spdmState) (h1 : 1 ≤ i) (h5 : i ≤ 5)
    (hdraw : d.sec.attestKey = true → drbgReady d.sec = true) {msg : List Byte} (hmsg : msg = spdmMsg d 0x60 0 0 (leBytes 1 i ++ measurement d i))
    (nonce : List Byte) : spdmGetMeasurements .mctp i true nonce d = d.served 5 (spdmSigned d nonce msg) := by
  have hi0 : i ≠ 0 := by omega
  have hiff : i ≠ 0xFF := by omega
  unfold spdmGetMeasurements
  simp only [Bool.true_and, decide_true, Bool.true_or, hi0, hiff, h5, if_true, if_false]
  rw [spdmSignedServe_runs hdraw, hmsg]
  exact spdmServe_mctp hserves (spdmFrom_reached hstate _)

/-- Settles O28: every request by its way and its place in the order of the connection's states. -/
theorem spdmCommands : Obligations.SpdmCommands := by
  refine ⟨fun d h => ⟨Runs.of_does (exec_getVersion .mctp) (spdmServe_mctp h rfl), ?capabilities, ?algorithms, fun h3 => ?negotiated, ?early⟩,
    fun d c hup => ?host⟩
  case capabilities =>
    intro v hv h1
    refine Runs.of_does (exec_getCapabilities .mctp v) (spdmServe_mctp h ((spdmFrom_reached h1 _).trans ?_))
    simp only [List.mem_cons, List.not_mem_nil, or_false] at hv
    obtain rfl | rfl | rfl := hv <;> rfl
  case algorithms =>
    intro h2
    exact Runs.of_does (exec_negotiateAlgorithms .mctp true true) (spdmServe_mctp h (spdmFrom_reached h2 _))
  case negotiated =>
    refine ⟨Runs.of_does (exec_getDigests .mctp) (spdmServe_mctp h (spdmFrom_reached h3 _)), fun off len hoff => ?_, ?_, ?_, ?_⟩
    · refine Runs.of_does (exec_getCertificate .mctp 0 off len) (spdmServe_mctp h ((spdmFrom_reached h3 _).trans ?_))
      exact if_neg (by omega)
    · intro hkey hdraw i nonce hi
      refine ⟨Runs.of_does (exec_challenge .mctp 0 nonce) ?_, Runs.of_does (exec_getMeasurements .mctp i true nonce) ?_⟩
      · exact (spdmChallenge_slot ..).trans (spdmSignedServe_waits h h3 hkey hdraw _ _)
      · unfold spdmGetMeasurements
        dsimp only
        rw [if_pos (by simp [hi])]
        exact spdmSignedServe_waits h h3 hkey hdraw _ _
    · intro nonce msg hdraw hmsg
      refine Runs.of_does (exec_challenge .mctp 0 nonce) ?_
      rw [spdmChallenge_slot, spdmSignedServe_runs hdraw, hmsg]
      exact spdmServe_mctp h (spdmFrom_reached h3 _)
    · intro i nonce msg h1 h5 hmsg
      exact ⟨Runs.of_does (exec_getMeasurements .mctp i false nonce) (spdmGetMeasurements_unsigned h h3 h1 h5 hmsg nonce),
        fun hdraw => Runs.of_does (exec_getMeasurements .mctp i true nonce) (spdmGetMeasurements_signed h h3 h1 h5 hdraw hmsg nonce)⟩
  case early =>
    intro hlow
    exact Runs.of_does (exec_getDigests .mctp) (spdmServe_mctp h (if_neg (Nat.not_le.mpr hlow)))
  case host =>
    refine ⟨Runs.of_does (exec_getVersion (.host c))
      (spdmServe_host (bs := [0x10#8, 0x04#8, 0#8, 0#8, 3#8, 0x10#8, 0x11#8, 0x12#8]) (e := spdmSet 0 1 d) hup rfl), fun h3 nonce msg hmsg hkey hdraw => ?_⟩
    refine Runs.of_does (exec_challenge (.host c) 0 nonce) ?_
    rw [spdmChallenge_slot, spdmSignedServe_runs fun _ => hdraw]
    have hanswer : spdmFrom 3 (fun x => (spdmSigned x nonce (spdmMsg x 0x03 0 1 (certDigest x)), x)) d =
        (msg ++ leBytes 96 (Config.attestSign (nonce ++ msg)).toNat, d) := by
      simp only [spdmFrom_reached h3, spdmSigned, if_pos hkey, certDigest, hmsg]
    exact spdmServe_host hup hanswer

end Sys2Proof.Machine
end

section
/-!
PROOFS. The TAP's instructions, the debug challenge and response through it, and DMI.
-/

namespace Sys2Proof.Machine

/-- A new challenge of the JTAG path (R491). -/
theorem captureDraw_eq (d : Dev) (ir : Nat) {ch : BitVec 512} (hch : ch = BitVec.ofNat 512 (leNat (chalBytes d (Config.drbg d.sec.drbgDraws)))) :
    captureDraw (tapScan ir false false false d) = { d with
      sec := { d.sec with drbgDraws := d.sec.drbgDraws + 1, drbgReqs := d.sec.drbgReqs + 1, dbg := { d.sec.dbg with jtagChal := some ch } }
      jtag := { d.jtag with ir := ir, extest := false, clamp := false, highz := false, dr := ch.toNat } } := by
  have hbytes : ∀ w, chalBytes (tapScan ir false false false d) w = chalBytes d w := fun _ => rfl
  have hdraws : (tapScan ir false false false d).sec = d.sec := rfl
  simp only [captureDraw, drbgDraw, hbytes, hdraws, ← hch]
  rfl

/-- While a JTAG verify or response is under way, DBG_STAT shows it busy. -/
def tapBusy (d : Dev) : Bool := (match d.sec.verify with | some v => v.jtag | none => false) || d.jtag.resp.isSome

theorem tapBusy_iff (d : Dev) : tapBusy d = true ↔ (∃ v, d.sec.verify = some v ∧ v.jtag = true) ∨ d.jtag.resp ≠ none := by
  rw [tapBusy, Bool.or_eq_true, Option.isSome_iff_ne_none]
  cases d.sec.verify <;> simp

/-- DBG_STAT's bits. -/
theorem statBits (unlocked busy : Bool) : bitsOf [unlocked, busy] = (if unlocked then 1 else 0) + (if busy then 2 else 0) := by
  cases unlocked <;> cases busy <;> rfl

theorem jtagStat_eq (d : Dev) : jtagStat d = { d with
    jtag := { d.jtag with
      ir := 0x12, extest := false, clamp := false, highz := false
      dr := (if d.sec.dbg.unlocked then 1 else 0) + (if tapBusy d then 2 else 0) + 4 * min 3 d.sec.dbg.failures } } := by
  rw [← statBits]
  rfl

/-- The end of a JTAG verify is a counted attempt. -/
theorem verifyDone_jtag {d : Dev} {v : Verify} (hv : d.sec.verify = some v) (hjtag : v.jtag = true) (hresp : d.jtag.resp = none) :
    verifyDone d = debugResult 1 v.result { d with
      hw := irq (md d.hw R.SIGV_STAT (fun o => (o &&& 0x40000000#32) ||| BitVec.ofNat 32 (v.result.code * 16777216))) irqSigv 0
      sec := { d.sec with verify := none } } := by
  simp [verifyDone, hv, hjtag, debugResult, hwMod, hresp]

/-- Settles O29: each instruction of the TAP, the debug response's three outcomes and the end of its verify. -/
theorem tapCommands : Obligations.TapCommands := by
  refine ⟨?scan, ?plain, ?wait, ?capture, ?response, ?verified, ?stat, ?locked, ?unlocked⟩
  case scan =>
    intro d levels cells
    exact ⟨Runs.of_does (exec_jtagExtest levels cells) rfl, Runs.of_does (exec_jtagSamplePreload levels cells) rfl⟩
  case plain =>
    intro d
    exact ⟨Runs.of_does exec_jtagIdcode rfl, Runs.of_does exec_jtagClamp rfl, Runs.of_does exec_jtagHighz rfl, Runs.of_does exec_jtagBypass rfl⟩
  case wait =>
    intro d hdraw
    exact Runs.of_does exec_dbgChal (if_neg (show ¬ drbgReady d.sec = true by simp [hdraw]))
  case capture =>
    intro d hdraw
    refine ⟨_, rfl, Runs.of_does exec_dbgChal ?_⟩
    exact (if_pos hdraw).trans (captureDraw_eq d 0x10 rfl)
  case response =>
    intro d resp j hj
    subst hj
    refine ⟨fun hlocked => Runs.of_does (exec_dbgResp resp) ?_, fun hopen hbusy => Runs.of_does (exec_dbgResp resp) ?_,
      fun hopen hidle e g hg he => Runs.of_does (exec_dbgResp resp) ?_⟩
    · exact if_pos hlocked
    · exact (if_neg (show ¬ debugLocked d = true by simp [hopen])).trans (if_pos (Option.isSome_iff_ne_none.mpr hbusy))
    · refine (if_neg (show ¬ debugLocked d = true by simp [hopen])).trans ((if_neg (show ¬ d.sec.verify.isSome = true by simp [hidle])).trans ?_)
      rw [he, hg]
      rfl
  case verified =>
    intro d v hv hjtag hresp
    refine ⟨_, Runs.of_does exec_sigvVerifyDone (verifyDone_jtag hv hjtag hresp), rfl, rfl⟩
  case stat =>
    intro d busy hbusy
    have hflag : busy = tapBusy d := Bool.eq_iff_iff.mpr (hbusy.trans (tapBusy_iff d).symm)
    rw [hflag]
    exact Runs.of_does exec_dbgStat (jtagStat_eq d)
  case locked =>
    intro d addr write v hlocked
    exact Runs.of_does (exec_dmi addr write v) (if_pos (by simp [hlocked]))
  case unlocked =>
    intro d addr v hunlocked
    have hgo : ¬ (!d.sec.dbg.unlocked) = true := by simp [hunlocked]
    exact ⟨Runs.of_does (exec_dmi addr true v) ((if_neg hgo).trans (if_pos rfl)),
      Config.freeNat d.hw.free % 4294967296, Runs.of_does (exec_dmi addr false v) ((if_neg hgo).trans (if_neg (by decide)))⟩

end Sys2Proof.Machine
end

section
/-!
PROOFS. The event recorder: outcomes of a post, flush, clear, limits and the region's scan.
-/

namespace Sys2Proof.Machine

/-- Before the region's scan a stored record is not flushed: it is the buffer's last, and the write pointer moves on (R484). -/
theorem evStore_unscanned {h : Hw} (hscan : h.ev.scanned = false) (r : EvRecd) :
    (evStore h r).ev.buf = h.ev.buf ++ [r] ∧ (evStore h r).ev.wr = (h.ev.wr + 1) % 2048 := by
  have hno : ∀ g : Hw, g.ev.scanned = false → ∀ due : Bool, (if (due && g.ev.scanned) = true then evFlush g else g) = g :=
    fun g hg due => if_neg (by simp [hg])
  unfold evStore
  extract_lets base bs word mem old h1 c h2 stop open_ h3 wm due
  have h1ev : h1.ev = { h.ev with buf := h.ev.buf ++ [r], wr := (h.ev.wr + 1) % 2048 } := rfl
  have h2ev : h2.ev = h1.ev := irqIf_ev ..
  have h3ev : h3.ev.buf = h1.ev.buf ∧ h3.ev.wr = h1.ev.wr ∧ h3.ev.scanned = h1.ev.scanned := by
    by_cases hstop : (stop && !h2.ev.full) = true
    · have hopen : open_ = h1.ev := h2ev
      simp [h3, if_pos hstop, hopen]
    · simp [h3, if_neg hstop, h2ev]
  obtain ⟨hbuf, hwr, hscanned⟩ := h3ev
  rw [hno h3 (by rw [hscanned, h1ev]; exact hscan), hbuf, hwr, h1ev]
  exact ⟨rfl, rfl⟩

/-- A flush of an empty buffer only reports that it is done. -/
theorem evFlush_empty {h : Hw} (hbuf : h.ev.buf = []) : evFlush h = irq h irqEvrec 0 := by
  have hsame : { h with ev := { h.ev with buf := [] } } = h := by rw [← hbuf]
  simp only [evFlush, hbuf, evCopy, hsame]
  rfl

/-- A record that the region takes. -/
theorem evCopy_one {h : Hw} (hroom : evUsed h < 8192) (hopen : rindLocked h.rind (144 + evUsed h / 2048) = false) (e : EvRecd) :
    evCopy [e] h = ([], { h with
      rind := rindProg h.rind h.free (evRegionLo + 32 * evUsed h) (evBytes e), ev := { h.ev with valid := h.ev.valid + 1 } }) := by
  simp only [evCopy, Nat.not_le.mpr hroom, hopen, if_false, Bool.false_eq_true]

/-! The recorder's registers. -/

theorem regWriteAt_evrecCtrl (m : Nat) (v : Word) (d : Dev) : regWriteAt m R.EVREC_CTRL v d = (.ok, evrecCtrlWrite v d) := rfl

theorem regWriteAt_evrecRl (m : Nat) (v : Word) (d : Dev) : regWriteAt m R.EVREC_RL v d = (.ok, rlWrite v d) := rfl

/-- A write of EVREC_CTRL with FLUSH set. -/
theorem evrecCtrlWrite_flush (v : Word) (d : Dev) {h : Hw}
    (hh : h = wr d.hw R.EVREC_CTRL ((rd d.hw R.EVREC_CTRL &&& ~~~0x7701#32) ||| (v &&& 0x7701#32))) :
    evrecCtrlWrite (v ||| 2#32) d = { d with hw := evFlush (if bit v 2 then evClear h else h) } := by
  have hflush : bit (v ||| 2#32) 1 = true := bit_or_forced (by decide) v
  have hclear : bit (v ||| 2#32) 2 = bit v 2 := bit_or_kept (by decide) v
  unfold evrecCtrlWrite
  rw [hflush, hclear, md, rwWrite_or (by decide), hh]
  rfl

/-- A write of EVREC_CTRL with CLEAR set. -/
theorem evrecCtrlWrite_clear (v : Word) (d : Dev) {h : Hw}
    (hh : h = evClear (wr d.hw R.EVREC_CTRL ((rd d.hw R.EVREC_CTRL &&& ~~~0x7701#32) ||| (v &&& 0x7701#32)))) :
    evrecCtrlWrite (v ||| 4#32) d = { d with hw := if bit v 1 then evFlush h else h } := by
  have hflush : bit (v ||| 4#32) 1 = bit v 1 := bit_or_kept (by decide) v
  have hclear : bit (v ||| 4#32) 2 = true := bit_or_forced (by decide) v
  unfold evrecCtrlWrite
  rw [hflush, hclear, md, rwWrite_or (by decide), hh]
  rfl

/-- A flush is due after the scan: a record of the flush severity, the watermark reached, or a full region (R485). -/
def scanDue (g : Hw) (buf : List EvRecd) (stop : Bool) : Bool :=
  buf.any (fun e => decide (fld (rd g R.EVREC_CTRL) 8 3 ≤ e.sev)) ||
    (decide (fld (rd g R.EVREC_WM) 0 12 ≠ 0) && decide (fld (rd g R.EVREC_WM) 0 12 ≤ buf.length)) || stop

theorem scanDue_iff (g : Hw) (buf : List EvRecd) (stop : Bool) : scanDue g buf stop = true ↔
    (∃ e ∈ buf, fld (rd g R.EVREC_CTRL) 8 3 ≤ e.sev) ∨
      (fld (rd g R.EVREC_WM) 0 12 ≠ 0 ∧ fld (rd g R.EVREC_WM) 0 12 ≤ buf.length) ∨ stop = true := by
  simp only [scanDue, Bool.or_eq_true, List.any_eq_true, Bool.and_eq_true, decide_eq_true_eq, or_assoc]

theorem regionScan_first {d : Dev} (hscan : d.hw.ev.scanned = false) {stop due : Bool} {h g : Hw}
    (hstop : stop = decide (8192 ≤ evUsed d.hw + d.hw.ev.buf.length))
    (hh : h = { d.hw with ev := { d.hw.ev with scanned := true, valid := evValid d.hw, full := stop } })
    (hg : g = irqIf h stop irqEvrec 2) (hdue : due = scanDue g d.hw.ev.buf stop) :
    regionScan d = { d with hw := if due ∧ d.hw.ev.buf ≠ [] then evFlush g else g } := by
  have hgo : (due && !d.hw.ev.buf.isEmpty) = true ↔ due ∧ d.hw.ev.buf ≠ [] := by simp
  rw [← if_congr hgo rfl rfl, hdue, hg, hh, hstop]
  unfold regionScan
  dsimp only
  rw [if_neg (by simp [hscan])]
  rfl

/-- Settles O30: posts by R481's decisions, and the recorder's registers and scan by their functions. -/
theorem eventCommands : Obligations.EventCommands := by
  refine ⟨?post, ?decides, ?stored, ?flush, ?clear, fun h => evFlush_empty, fun h e hroom hopen => evCopy_one hroom hopen e, ?limit,
    fun d hscan => Runs.of_does exec_evrecRegionScan (if_pos hscan), ?scan⟩
  case post =>
    intro d source code sev cont a0 a1 a2 o h hpost
    refine ⟨fun hlow => Runs.of_does (exec_eventPost source code sev cont a0 a1 a2) ?_,
      fun hhigh => Runs.of_does (exec_eventPost source code sev cont a0 a1 a2) ?_⟩
    · simp only [eventPost, hpost, if_pos hlow]
      cases o <;> rfl
    · simp only [eventPost, hpost, if_neg (Nat.not_lt.mpr hhigh)]
  case decides =>
    intro h source code sev cont a0 a1 a2
    refine ⟨fun hcode => evPost_range hcode .., fun hcode hfull => ?_, fun hcode hopen hoff => ?_, fun hcode hopen hon hcont hlast => ?_,
      fun hcode hopen hon hcont hrate hbuf => ?_⟩
    · rw [evPost_full hcode hfull]
      rfl
    · simp [evPost, Nat.not_lt.mpr hcode, hopen, hoff, evDrop]
    · simp [evPost, Nat.not_lt.mpr hcode, hopen, hon, hcont, hlast]
    · rw [hcont, evPost_stored hcode hopen hon (Bucket.not_refuses (.inl hrate)) hbuf]
  case stored =>
    intro h source code sev a0 a1 a2 hcode hopen hon hrate hdrop hbuf hscan
    have hroom : h.ev.buf.length + (if h.ev.dropSince then 2 else 1) ≤ 2048 := by rw [hdrop]; exact hbuf
    refine ⟨_, rfl, ?_⟩
    rw [evPost_stored hcode hopen hon (Bucket.not_refuses (.inl hrate)) hroom, evAnnounced_of_no_drop hdrop]
    exact evStore_unscanned (h := evNote h source code (evBucket h code).taken true) hscan _
  case flush =>
    intro d m v hlets h hh
    exact Runs.of_regWrite (exec_evrecFlushWrite m v) hlets (by decide)
      ((regWriteAt_evrecCtrl ..).trans (congrArg (Prod.mk Status.ok) (evrecCtrlWrite_flush v d hh)))
  case clear =>
    intro d m v hlets h hh
    exact Runs.of_regWrite (exec_evrecClearWrite m v) hlets (by decide)
      ((regWriteAt_evrecCtrl ..).trans (congrArg (Prod.mk Status.ok) (evrecCtrlWrite_clear v d hh)))
  case limit =>
    intro d m c v b hlets hc hb
    refine Runs.of_regWrite (exec_evrecRlWrite m v) hlets (by decide) ((regWriteAt_evrecRl ..).trans (congrArg (Prod.mk Status.ok) ?_))
    rw [hb, hc]
    rfl
  case scan =>
    intro d stop due h g hscan hstop hh hg hdue
    have hflag : due = scanDue g d.hw.ev.buf stop := Bool.eq_iff_iff.mpr (hdue.trans (scanDue_iff ..).symm)
    exact Runs.of_does exec_evrecRegionScan (regionScan_first hscan hstop hh hg hflag)

end Sys2Proof.Machine
end

section
/-!
PROOFS. Media time, outage sweeps, samples of a cycle or sweep and reported blocks.
-/

namespace Sys2Proof.Machine

/-! Tables with rising keys, and the population in an order. -/

theorem tabGet_of_mem {α : Type} {t : List (Nat × α)} (h : tabRising t = true) {q : Nat × α} (hq : q ∈ t) : tabGet t q.1 = some q.2 := by
  induction t with
  | nil => exact absurd hq List.not_mem_nil
  | cons p t ih =>
    obtain ⟨j, v⟩ := p
    obtain ⟨habove, hrest⟩ := List.pairwise_cons.mp ((tabRising_iff _).mp h)
    obtain rfl | hin := List.mem_cons.mp hq
    · simp [tabGet]
    · have hne : j ≠ q.1 := Nat.ne_of_lt (habove q hin)
      simpa [tabGet, hne] using ih ((tabRising_iff _).mpr hrest) hin

theorem popOrder_perm (d : Dev) (f : Blk → Nat) : (popOrder d f).Perm ((population d).map (fun q => q.1)) :=
  (List.mergeSort_perm _ _).map _

theorem popOrder_sorted {d : Dev} (h : tabRising d.med.blks = true) (f : Blk → Nat) : (popOrder d f).Pairwise (fun a b =>
    f (tabGetD d.med.blks a Blk.init) ≤ f (tabGetD d.med.blks b Blk.init)) := by
  have hsorted : ((population d).mergeSort (fun a b => decide (f a.2 ≤ f b.2))).Pairwise (fun a b => decide (f a.2 ≤ f b.2) = true) :=
    List.pairwise_mergeSort (fun a b c hab hbc => by simp only [decide_eq_true_eq] at *; omega)
      (fun a b => by simp only [Bool.or_eq_true, decide_eq_true_eq]; omega) _
  have hblock : ∀ q ∈ (population d).mergeSort (fun a b => decide (f a.2 ≤ f b.2)), tabGetD d.med.blks q.1 Blk.init = q.2 := by
    intro q hq
    have hin : q ∈ d.med.blks := List.mem_of_mem_filter ((List.mergeSort_perm _ _).mem_iff.mp hq)
    rw [tabGetD, tabGet_of_mem h hin]
    rfl
  rw [popOrder, List.pairwise_map]
  refine hsorted.imp_of_mem fun {a b} ha hb hab => ?_
  rw [hblock a ha, hblock b hb]
  exact of_decide_eq_true hab

/-! Media time. -/

/-- No reclaim unit passes its time limit, so that no event is posted. -/
theorem fdpTimes_none {d : Dev} {old : Nat} (h : ∀ q ∈ d.med.sbs, q.2.closed = true ∨ (q.2.type ≠ 1 ∧ q.2.type ≠ 2) ∨
    q.2.opened + 604800 < old ∨ d.aff.mtime ≤ q.2.opened + 604800) : fdpTimes old d = d := by
  unfold fdpTimes
  generalize d.med.sbs = l at h
  induction l with
  | nil => rfl
  | cons q l ih =>
    have hquiet : ¬ ((!q.2.closed && (decide (q.2.type = 1) || decide (q.2.type = 2)) && decide (old ≤ q.2.opened + 604800)
        && decide (q.2.opened + 604800 < d.aff.mtime)) = true) := by
      have hq := h q List.mem_cons_self
      simp only [Bool.and_eq_true, Bool.or_eq_true, Bool.not_eq_true', decide_eq_true_eq]
      rintro ⟨⟨⟨hopen, htype⟩, hold⟩, hnew⟩
      obtain hclosed | hother | hbefore | hafter := hq
      · exact Bool.false_ne_true (hopen.symm.trans hclosed)
      · omega
      · omega
      · omega
    rw [List.foldl_cons, if_neg hquiet]
    exact ih fun p hp => h p (List.mem_cons_of_mem q hp)

/-! Sweeps. -/

theorem sweepStart_starts {d : Dev} (hst : d.aff.st ≠ 2) (hen : bit (rd d.hw R.AFFINEUR_CTRL) 0 = true) : sweepStart d = { d with
    aff := { d.aff with st := 2, paused := some (d.aff.todo, d.aff.total), todo := popOrder d (fun b => b.opened)
                        total := (popOrder d (fun b => b.opened)).length } } := by
  have hno : ¬ (d.aff.st = 2 ∨ bit (rd d.hw R.AFFINEUR_CTRL) 0 = false) := by simp [hst, hen]
  rw [sweepStart, if_neg hno]
  rfl

theorem regWriteAt_affCtrl (m : Nat) (v : Word) (d : Dev) : regWriteAt m R.AFFINEUR_CTRL v d = (.ok, affCtrlWrite v d) := rfl

section
variable {d : Dev} {v : Word} (hen : bit (rd d.hw R.AFFINEUR_CTRL) 0 = true) (h0 : bit v 0 = true)
include hen h0

/-- A write of the enabled AFFINEUR_CTRL with SWEEP, its ENABLE kept. -/
theorem affCtrlWrite_sweep : ∃ st, st ≠ 0 ∧ st ≠ 2 ∧ affCtrlWrite (v ||| 2#32) d = sweepStart { d with
    hw := md d.hw R.AFFINEUR_CTRL (fun w => rwWrite 5#32 w (v ||| 2#32)), aff := { d.aff with st := if d.aff.st = 2 then 2 else st } } ∧
    bit (rd (md d.hw R.AFFINEUR_CTRL (fun w => rwWrite 5#32 w (v ||| 2#32))) R.AFFINEUR_CTRL) 0 = true := by
  have hword : bit (rd (md d.hw R.AFFINEUR_CTRL (fun w => rwWrite 5#32 w (v ||| 2#32))) R.AFFINEUR_CTRL) 0 = true := by
    rw [md, rd_wr_same, rwWrite, bit_or, bit_and, bit_and, bit_or, h0]
    simp [bit]
  generalize hh : md d.hw R.AFFINEUR_CTRL (fun w => rwWrite 5#32 w (v ||| 2#32)) = h at hword
  have hsweep : bit (v ||| 2#32) 1 = true := bit_or_forced (by decide) v
  have hst : affState h ≠ 0 ∧ affState h ≠ 2 := by
    rw [affState, hword]
    cases bit (rd h R.AFFINEUR_CTRL) 2 <;> decide
  obtain ⟨hne0, hne2⟩ := hst
  refine ⟨affState h, hne0, hne2, ?_, hword⟩
  simp only [affCtrlWrite, hen, hh, hsweep, hne0, affMod, Bool.and_true, Bool.not_true, Bool.false_and, Bool.false_eq_true, if_false, if_true,
    ne_eq, not_false_eq_true, and_true]

end

/-! Samples. -/

theorem mem_insertRun (d : Dev) (r dl : Nat) (q : List Nat) : r ∈ insertRun d r dl q := by
  induction q with
  | nil => exact List.mem_singleton_self r
  | cons n q ih =>
    rw [insertRun]
    split_ifs <;> simp [ih]

/-- A die's queue takes a run, and the runs behind it ask again; a run that does not wait keeps its state. -/
theorem rqInsert_spec {r : Nat} {x : Run} {d : Dev} (hget : runGet d r = some x) (hst : x.st ≠ .waiting) :
    (rqInsert r x d).aff = d.aff ∧ runGet (rqInsert r x d) r = some x ∧ r ∈ (dieGet (rqInsert r x d) x.loc.die).rq := by
  refine ⟨rfl, ?_, ?_⟩
  · rw [rqInsert, runGet]
    refine (tabGet_mapVal (fun q => by split <;> rfl) _ _).trans ?_
    have hruns : tabGet d.fl.runs r = some x := hget
    dsimp only [diePut]
    rw [hruns]
    simp [hst]
  · have hdie : dieGet (rqInsert r x d) x.loc.die = { dieGet d x.loc.die with rq := insertRun d r x.deadline (dieGet d x.loc.die).rq } :=
      tabGetD_tabPut_self ..
    rw [hdie]
    exact mem_insertRun ..

/-- A new run is queued as it is, and its die's queue takes it where it has room. -/
theorem runNew_queued {x : Run} {d : Dev} (hst : x.st = .queued) (hsince : x.since = d.hw.time.toNat) : (runNew x d).2.aff = d.aff ∧
    runGet (runNew x d).2 d.fl.nextRun = some x ∧
    ((dieGet d x.loc.die).rq.length < 255 → d.fl.nextRun ∈ (dieGet (runNew x d).2 x.loc.die).rq) := by
  have hx : { x with st := RunSt.queued, since := d.hw.time.toNat } = x := by rw [← hst, ← hsince]
  set p := runPut { d with fl := { d.fl with nextRun := d.fl.nextRun + 1 } } d.fl.nextRun x with hp
  have hget : runGet p d.fl.nextRun = some x := runGet_runPut ..
  have hagain : runPut p d.fl.nextRun { x with st := RunSt.queued, since := p.hw.time.toNat } = p := by
    have htime : p.hw.time = d.hw.time := rfl
    rw [htime, hx, hp]
    simp only [runPut, tabPut_tabPut_same]
  have hrun : (runNew x d).2 = runQueue d.fl.nextRun p := rfl
  have hdie : dieGet p x.loc.die = dieGet d x.loc.die := rfl
  rw [hrun, runQueue, hget]
  dsimp only
  rw [hagain, hdie]
  split
  case isTrue hroom =>
    obtain ⟨haff, hkept, hin⟩ := rqInsert_spec (d := p) (r := d.fl.nextRun) hget (by rw [hst]; decide)
    exact ⟨haff, hkept, fun _ => hin⟩
  case isFalse hfull => exact ⟨rfl, hget, fun hroom => absurd hroom hfull⟩

theorem sampleNew_ok {d : Dev} {points spacing : Nat} (hok : sweepStatus points spacing = .ok) (key : Nat) (report : Bool) :
    (sampleNew key points spacing report d).aff = d.aff ∧
    runGet (sampleNew key points spacing report d) d.fl.nextRun = some { runAt d (.sample report)
      { die := key / 4096, block := key % 4096, wl := 0, page := 0, plane := 0, slot := 0 } (blkGet d (key / 4096) (key % 4096)).sb 0 3
      (s3Deadline d) (decide (3 ≤ (blkGet d (key / 4096) (key % 4096)).type)) with points := points, spacing := spacing } ∧
    ((dieGet d (key / 4096)).rq.length < 255 → d.fl.nextRun ∈ (dieGet (sampleNew key points spacing report d) (key / 4096)).rq) := by
  unfold sampleNew
  dsimp only
  rw [if_pos hok]
  exact runNew_queued rfl rfl

theorem affMod_blkGet (f : Aff → Aff) (d : Dev) (die b : Nat) : blkGet (affMod f d) die b = blkGet d die b := rfl

/-- A cycle or sweep samples its oldest block, and a report of that block is served with it. -/
theorem cadenceSample_samples {d : Dev} {points spacing key : Nat} {rest : List Nat} (hst : d.aff.st = 1 ∨ d.aff.st = 2)
    (htodo : d.aff.todo = key :: rest) (hin : inPopulation (blkGet d (key / 4096) (key % 4096)) = true) :
    cadenceSample points spacing d = sampleNew key points spacing (d.aff.reports.contains key)
      { d with aff := { d.aff with todo := rest, reports := d.aff.reports.filter (fun k => decide (k ≠ key)) } } := by
  rw [cadenceSample, if_neg (by omega), htodo]
  refine (if_neg (by simp [affMod_blkGet, hin])).trans ?_
  by_cases hreport : d.aff.reports.contains key = true
  · rw [hreport]
    exact if_pos hreport
  · have hkeep : d.aff.reports.filter (fun k => decide (k ≠ key)) = d.aff.reports :=
      List.filter_eq_self.mpr fun k hk => decide_eq_true fun heq => hreport (by simpa [heq] using hk)
    have hnone : d.aff.reports.contains key = false := by simpa using hreport
    rw [hkeep, hnone]
    exact if_neg hreport

/-- No sample of a cycle or sweep runs. -/
theorem cycleCheck_ends {d : Dev} (htodo : d.aff.todo = []) (hruns : ∀ q ∈ d.fl.runs, q.2.serves ≠ .sample false) (hst : d.aff.st ≠ 0)
    (htotal : d.aff.total ≠ 0) : cycleCheck d = match d.aff.paused with
      | some (q, n) => { d with hw := irq d.hw irqAffineur 0
                                aff := { d.aff with st := affState (irq d.hw irqAffineur 0), paused := none, todo := q, total := n } }
      | none => { d with hw := irq d.hw irqAffineur 0
                         aff := { d.aff with cycles := d.aff.cycles + 1, todo := popOrder d (fun b => b.sampled)
                                             total := (popOrder d (fun b => b.sampled)).length } } := by
  refine (if_neg fun hrun => ?_).trans ?_
  · simp only [htodo, hst, htotal, List.isEmpty_nil, Bool.not_true, Bool.false_or, Bool.or_false, decide_false, List.any_eq_true] at hrun
    obtain ⟨q, hq, hsample⟩ := hrun
    have hserves := hruns q hq
    split at hsample
    case h_1 r hr =>
      have hr' : r = false := by simpa using hsample
      exact hserves (hr' ▸ hr)
    case h_2 => exact Bool.false_ne_true hsample
  · rfl

/-- Settles O31: media time, the sweeps' start, samples and reports, each by its function; the population's order is the library's sort. -/
theorem careCommands : Obligations.CareCommands := by
  refine ⟨fun d => Runs.of_does exec_mediaTimeTick rfl, fun d old => fdpTimes_none, ?save, ?stamped, ?wait, ?start, ?going,
    fun d f => ⟨popOrder_perm d f, fun h => popOrder_sorted h f⟩, ?sample, ?idle, ?left, fun d => cycleCheck_ends, ?report, ?gone⟩
  case save =>
    intro d e he
    refine Runs.of_does exec_mediaTimeSave ?_
    have hput : sjPut 1 0 (leBytes 8 d.aff.mtime) d = e := (if_neg (by simp)).trans he.symm
    exact congrArg countsSave hput
  case stamped =>
    intro d hstamped
    exact Runs.of_does exec_timestampWaitExpiry (if_pos hstamped)
  case wait =>
    intro d hstamped hst hen
    exact Runs.of_does exec_timestampWaitExpiry ((if_neg (by simp [hstamped])).trans (sweepStart_starts hst hen))
  case start =>
    intro d m v hlets hen h0 hst
    refine Runs.of_regWrite (exec_outageSweepStart m v) hlets (by decide) ((regWriteAt_affCtrl ..).trans (congrArg (Prod.mk Status.ok) ?_))
    obtain ⟨st, hne0, hne2, hwrite, hon⟩ := affCtrlWrite_sweep hen h0
    rw [hwrite, if_neg hst]
    refine (sweepStart_starts ?_ ?_).trans rfl
    · exact hne2
    · exact hon
  case going =>
    intro d m v hlets hen h0 hst
    refine Runs.of_regWrite (exec_outageSweepStart m v) hlets (by decide) ((regWriteAt_affCtrl ..).trans (congrArg (Prod.mk Status.ok) ?_))
    obtain ⟨st, hne0, hne2, hwrite, hon⟩ := affCtrlWrite_sweep hen h0
    have haff : { d.aff with st := 2 } = d.aff := by rw [← hst]
    rw [hwrite, if_pos hst, haff, sweepStart, if_pos (.inl hst)]
  case sample =>
    intro d points spacing key rest hst htodo hin hok
    refine ⟨_, Runs.of_does (exec_cadenceSample points spacing) (cadenceSample_samples hst htodo hin), ?_⟩
    exact sampleNew_ok (d := { d with aff := { d.aff with todo := rest, reports := d.aff.reports.filter (fun k => decide (k ≠ key)) } }) hok key _
  case idle =>
    intro d points spacing h1 h2
    exact Runs.of_does (exec_cadenceSample points spacing) (if_pos ⟨h1, h2⟩)
  case left =>
    intro d points spacing key rest hst htodo hout
    refine Runs.of_does (exec_cadenceSample points spacing) ?_
    rw [cadenceSample, if_neg (by omega), htodo]
    exact if_pos (by simp [affMod_blkGet, hout])
  case report =>
    intro d points spacing key rest hreports hok hin
    obtain ⟨haff, hrun, -⟩ := sampleNew_ok (d := { d with aff := { d.aff with reports := rest } }) hok key true
    refine ⟨_, Runs.of_does (exec_reportEstimate points spacing) ?_, haff, hrun⟩
    rw [reportEstimate, hreports]
    exact if_pos hin
  case gone =>
    intro d points spacing key rest hreports hout
    refine Runs.of_does (exec_reportEstimate points spacing) ?_
    rw [reportEstimate, hreports]
    exact if_neg (by simp [affMod_blkGet, hout])

end Sys2Proof.Machine
end

section
/-!
PROOFS. Drift-bin learning, the learned table, refresh, the daily backlog and the wear table.
-/

namespace Sys2Proof.Machine

/-! Learning (R183–R185). -/

/-- A move of an offset keeps it within 2 of the old one, within 24 of the factory's, and within a signed byte. -/
theorem offMove_bounds {old fac : Int} (sum : Int) (count : Nat) (hlo : fac - 24 ≤ old) (hhi : old ≤ fac + 24) (hmin : -128 ≤ old)
    (hmax : old ≤ 127) : (offMove old fac sum count).1.natAbs ≤ 2 ∧ fac - 24 ≤ old + (offMove old fac sum count).1 ∧
    old + (offMove old fac sum count).1 ≤ fac + 24 ∧ -128 ≤ old + (offMove old fac sum count).1 ∧
    old + (offMove old fac sum count).1 ≤ 127 := by
  unfold offMove
  dsimp only
  generalize roundDiv sum (4 * count) = step
  omega

section
variable {d d1 : Dev} {i : Nat} {q : Option (List Byte)} (h4 : 4 ≤ (batchGet d i).n) (hsize : fld (rd d.hw R.AFFINEUR_LEARN) 8 8 ≠ 0)
include h4 hsize

theorem binTimeout_due : binTimeout i d = binUpdate i d := if_pos ⟨h4, hsize⟩

theorem binTimeout_waits {dom : Nat} (hgate : entGate d 26 i = some dom) : binTimeout i d = wakeReq dom 2 d := by
  rw [binTimeout_due h4 hsize, binUpdate, hgate]

variable (hgate : entGate d 26 i = none) (hslot : affSlot i d = (q, d1))
include hgate hslot

theorem binTimeout_noEntry (hnone : q.bind entSelect = none) :
    binTimeout i d = { d1 with aff := { d1.aff with batches := tabDel d1.aff.batches i } } := by
  rw [binTimeout_due h4 hsize, binUpdate, hgate]
  simp only [hslot]
  cases q with
  | none => rfl
  | some slot =>
    have hentry : entSelect slot = none := hnone
    simp only [hentry]
    rfl

theorem binTimeout_moves {slot e : List Byte} {ms : List (Nat × Int × Bool)} {f : Dev} (hq : q = some slot) (he : entSelect slot = some e)
    (hms : ms = ((batchGet d i).counts.filter (fun c => decide (c.2 ≠ 0))).map (fun c =>
      (c.1, offMove (sbyteAt e (15 + c.1)) (sbyteAt (facEntry d i) (15 + c.1)) (tabGetD (batchGet d i).sums c.1 0) c.2)))
    (hf : f = entStore i slot e (entMoved e (facEntry d i) (ms.foldl (fun t m => tabPut t m.1 m.2.1) []) (batchGet d i).n d.aff.mtime)
      { d1 with aff := { d1.aff with batches := tabDel d1.aff.batches i } }) :
    binTimeout i d = if ms.any (fun m => m.2.2) then evFree i 0 { f with hw := irq f.hw irqAffineur 5 } else f := by
  subst hq
  rw [binTimeout_due h4 hsize, binUpdate, hgate]
  simp only [hslot, he, ← hms]
  rw [hf]
  rfl

end

/-! The learned table's copies. -/

section
variable {d : Dev}

theorem learnedWrite_not (h : d.aff.learnDirty = false ∨ d.boot.trial = true ∨
    rindLocked d.hw.rind (if d.aff.learnCopy then 132 else 131) = true ∨ d.hw.time.toNat < d.aff.learnSaved.toNat + 2160000000000) :
    learnedWrite false d = d := by
  unfold learnedWrite
  extract_lets sector
  refine if_pos ?_
  simp only [Bool.or_eq_true, Bool.not_eq_true', Bool.not_false, Bool.true_and, decide_eq_true_eq]
  obtain hclean | htrial | hlocked | hearly := h
  · exact .inl (.inl (.inl hclean))
  · exact .inl (.inl (.inr htrial))
  · exact .inl (.inr hlocked)
  · exact .inr hearly

theorem learnedWrite_writes (hdirty : d.aff.learnDirty = true) (htrial : d.boot.trial = false)
    (hopen : rindLocked d.hw.rind (if d.aff.learnCopy then 132 else 131) = false)
    (hday : d.aff.learnSaved.toNat + 2160000000000 ≤ d.hw.time.toNat) : learnedWrite false d = { d with
      hw := { d.hw with
        rind := rindProg (rindErase d.hw.rind (if d.aff.learnCopy then 132 else 131)) d.hw.free
          ((if d.aff.learnCopy then 132 else 131) * 65536) ((List.range 256).flatMap (fun i =>
          match (memBytes d.hw (binBase d.hw + 128 * i) 128).1 with
          | some s => (entSelect s).getD (List.replicate 64 0#8)
          | none => List.replicate 64 0#8)) }
      aff := { d.aff with learnDirty := false, learnSaved := d.hw.time, learnCopy := !d.aff.learnCopy } } := by
  have hlate : ¬ d.hw.time.toNat < d.aff.learnSaved.toNat + day := Nat.not_lt.mpr hday
  unfold learnedWrite
  extract_lets sector
  refine (if_neg ?_).trans rfl
  simp [hdirty, htrial, hlate]
  exact hopen

/-! Refresh (R319–R322). -/

theorem refreshOne_zone {x : RefEnt} {s : Sb} {zk : Nat} {z : Zone} (htype : (tabGetD d.med.blks x.blk Blk.init).type = 1)
    (hs : sbGet d (tabGetD d.med.blks x.blk Blk.init).sb = some s)
    (hz : zoneOfSb d (tabGetD d.med.blks x.blk Blk.init).sb = some (zk, z)) (hopen : z.secure = none) :
    refreshOne x d = zoneMoveStart zk z (tabGetD d.med.blks x.blk Blk.init).sb s d := by
  simp [refreshOne, htype, hs, hz, hopen]

theorem refreshOne_dead {x : RefEnt} {s : Sb} (htype : (tabGetD d.med.blks x.blk Blk.init).type = 2)
    (hs : sbGet d (tabGetD d.med.blks x.blk Blk.init).sb = some s)
    (hdead : liveUnits d (tabGetD d.med.blks x.blk Blk.init).sb = []) :
    refreshOne x d = sbErase (tabGetD d.med.blks x.blk Blk.init).sb { d with
      med := { d.med with openSb := d.med.openSb.filter (fun q => decide (q.2 ≠ (tabGetD d.med.blks x.blk Blk.init).sb)) } } := by
  simp [refreshOne, htype, hs, hdead]

end

/-! The backlog's daily values (R323). -/

/-- An early-warning flag is set or cleared; the others stay. -/
theorem ewPut_spec {b : Nat} (hb : b < 4) (v : Bool) (d : Dev) : ∃ hw host ew,
    ewPut b v d = { d with hw := hw, host := host, aff := { d.aff with ew := ew } } ∧ ew.getLsbD b = v ∧
    ∀ k < 4, k ≠ b → ew.getLsbD k = d.aff.ew.getLsbD k := by
  unfold ewPut
  by_cases hsame : d.aff.ew.getLsbD b = v
  · exact ⟨d.hw, d.host, d.aff.ew, if_pos hsame, hsame, fun _ _ _ => rfl⟩
  · rw [if_neg hsame]
    extract_lets ew h old d1
    have hbits : ew.getLsbD b = v ∧ ∀ k < 4, k ≠ b → ew.getLsbD k = d.aff.ew.getLsbD k := by
      have hshift : ∀ k < 4, (1#4 <<< b).getLsbD k = decide (k = b) := by
        intro k hk
        by_cases hkb : k = b
        · simp [hkb, hb]
        · simp [hkb]
          omega
      cases v
      · refine ⟨?_, fun k hk hne => ?_⟩
        · simp [ew, hb]
        · have hand : ew.getLsbD k = (d.aff.ew &&& ~~~(1#4 <<< b)).getLsbD k := rfl
          rw [hand, BitVec.getLsbD_and, BitVec.getLsbD_not, hshift k hk]
          simp [hk, hne]
      · refine ⟨?_, fun k hk hne => ?_⟩
        · simp [ew, hshift b hb]
        · simp [ew, hshift k hk, hne]
    obtain ⟨hset, hkept⟩ := hbits
    cases v
    · exact ⟨_, _, ew, rfl, hset, hkept⟩
    · exact ⟨_, _, ew, asyncAll_frame _ d1, hset, hkept⟩

/-- The daily values after a midnight. -/
def dailyOf (d : Dev) : List (Nat × List Nat) :=
  (packs d).foldl (fun t p => tabPut t p ((backlogOf d p :: tabGetD t p []).take 8)) d.aff.daily

theorem tabGetD_daily (d : Dev) (n p : Nat) : tabGetD ((List.range n).foldl
      (fun t p => tabPut t p ((backlogOf d p :: tabGetD t p []).take 8)) d.aff.daily) p [] =
    if p < n then (backlogOf d p :: tabGetD d.aff.daily p []).take 8 else tabGetD d.aff.daily p [] := by
  induction n with
  | zero => simp
  | succ n ih =>
    rw [List.range_succ, List.foldl_append, List.foldl_cons, List.foldl_nil]
    by_cases hpn : p = n
    · subst hpn
      rw [tabGetD_tabPut_self, ih, if_neg (Nat.lt_irrefl p), if_pos (Nat.lt_succ_self p)]
    · rw [tabGetD_tabPut_other _ _ _ hpn, ih]
      have hiff : p < n + 1 ↔ p < n := by omega
      rw [if_congr hiff rfl rfl]

theorem dailyOf_pack {d : Dev} {p : Nat} (hp : p < packCount d.fuse) :
    tabGetD (dailyOf d) p [] = (backlogOf d p :: tabGetD d.aff.daily p []).take 8 := by
  rw [dailyOf, packs, tabGetD_daily, if_pos hp]

/-- The newest daily value is the backlog. -/
theorem dailyOf_newest {d : Dev} {p : Nat} (hp : p < packCount d.fuse) : (tabGetD (dailyOf d) p []).headD 0 = backlogOf d p := by
  rw [dailyOf_pack hp]
  rfl

/-- R323's two conditions at a midnight. -/
def backlogSets (d : Dev) : Bool := (packs d).any (fun p => risen (tabGetD (dailyOf d) p []) &&
  decide (((population d).filter (fun q => decide (packOf (q.1 / 4096) = p))).length < 100 * (tabGetD (dailyOf d) p []).headD 0))

def backlogClears (d : Dev) : Bool := (packs d).all (fun p => fallen (tabGetD (dailyOf d) p []) ||
  decide (1000 * (tabGetD (dailyOf d) p []).headD 0 < ((population d).filter (fun q => decide (packOf (q.1 / 4096) = p))).length))

theorem backlogMidnight_eq (d : Dev) : backlogMidnight d =
    if backlogSets d then ewPut 2 true { d with aff := { d.aff with daily := dailyOf d } }
    else if backlogClears d then ewPut 2 false { d with aff := { d.aff with daily := dailyOf d } }
    else { d with aff := { d.aff with daily := dailyOf d } } := rfl

theorem backlogSets_iff (d : Dev) : backlogSets d = true ↔ ∃ p < packCount d.fuse, risen (tabGetD (dailyOf d) p []) = true ∧
    ((population d).filter (fun q => decide (packOf (q.1 / 4096) = p))).length < 100 * backlogOf d p := by
  simp only [backlogSets, List.any_eq_true, packs, List.mem_range, Bool.and_eq_true, decide_eq_true_eq]
  refine exists_congr fun p => and_congr_right fun hp => ?_
  rw [dailyOf_newest hp]

theorem backlogClears_iff (d : Dev) : backlogClears d = true ↔ ∀ p < packCount d.fuse, fallen (tabGetD (dailyOf d) p []) = true ∨
    1000 * backlogOf d p < ((population d).filter (fun q => decide (packOf (q.1 / 4096) = p))).length := by
  simp only [backlogClears, List.all_eq_true, packs, List.mem_range, Bool.or_eq_true, decide_eq_true_eq]
  refine forall_congr' fun p => forall_congr' fun hp => ?_
  rw [dailyOf_newest hp]

/-- What a midnight leaves, in its three outcomes. -/
theorem backlogMidnight_spec (d : Dev) : ∃ hw host ew,
    backlogMidnight d = { d with hw := hw, host := host, aff := { d.aff with daily := dailyOf d, ew := ew } } ∧
    (∀ k < 4, k ≠ 2 → ew.getLsbD k = d.aff.ew.getLsbD k) ∧ (backlogSets d = true → ew.getLsbD 2 = true) ∧
    (backlogSets d = false → backlogClears d = true → ew.getLsbD 2 = false) := by
  rw [backlogMidnight_eq]
  cases hsets : backlogSets d
  · cases hclears : backlogClears d
    · exact ⟨d.hw, d.host, d.aff.ew, rfl, fun _ _ _ => rfl, Bool.noConfusion, fun _ => Bool.noConfusion⟩
    · obtain ⟨hw, host, ew, heq, hbit, hkept⟩ := ewPut_spec (b := 2) (by decide) false { d with aff := { d.aff with daily := dailyOf d } }
      exact ⟨hw, host, ew, heq, hkept, Bool.noConfusion, fun _ _ => hbit⟩
  · obtain ⟨hw, host, ew, heq, hbit, hkept⟩ := ewPut_spec (b := 2) (by decide) true { d with aff := { d.aff with daily := dailyOf d } }
    exact ⟨hw, host, ew, heq, hkept, fun _ => hbit, Bool.noConfusion⟩

/-- Settles O32: learning's outcomes, the table's write-back, the refresh by its block's type, and the midnight's flag. -/
theorem learningAndRefreshCommands : Obligations.LearningAndRefreshCommands := by
  refine ⟨?idle, ?waits, ?noEntry, ?moves, fun old fac sum count => offMove_bounds sum count,
    fun d h => Runs.of_does exec_learnedTableWriteback (learnedWrite_not h),
    fun d h1 h2 h3 h4 => Runs.of_does exec_learnedTableWriteback (learnedWrite_writes h1 h2 h3 h4), ?off, ?on, fun _ => rfl, ?first,
    fun d x s zk z => refreshOne_zone, fun d x s => refreshOne_dead, ?journal, ?volume, ?wear, ?midnight,
    fun d => Runs.of_does exec_wearTableWrite rfl⟩
  case idle =>
    intro d i hi h
    refine Runs.of_onUnit (exec_binLearnTimeout i) (decide_eq_true hi) (if_neg fun hdue => ?_)
    obtain ⟨h4, hsize⟩ := hdue
    obtain hfew | hoff := h
    · omega
    · exact hsize hoff
  case waits =>
    intro d i dom hi h4 hsize hgate
    exact Runs.of_onUnit (exec_binLearnTimeout i) (decide_eq_true hi) (binTimeout_waits h4 hsize hgate)
  case noEntry =>
    intro d d1 i q hi h4 hsize hgate hslot hnone
    exact Runs.of_onUnit (exec_binLearnTimeout i) (decide_eq_true hi) (binTimeout_noEntry h4 hsize hgate hslot hnone)
  case moves =>
    intro d d1 f i slot e ms hi h4 hsize hgate hslot he hms hf
    exact Runs.of_onUnit (exec_binLearnTimeout i) (decide_eq_true hi) (binTimeout_moves h4 hsize hgate hslot rfl he hms hf)
  case off =>
    intro d h
    refine Runs.of_does exec_refreshStart (if_pos ?_)
    obtain hoff | hspent | hflush := h
    · simp [hoff]
    · simp [hspent]
    · simp [hflush]
  case on =>
    intro d hon hcap hflush
    exact Runs.of_does exec_refreshStart (if_neg (by simp [hon, hcap, hflush]))
  case first =>
    intro d e x xs he
    subst he
    exact ⟨fun hsame => if_pos hsame, fun hmoved => if_neg hmoved⟩
  case journal =>
    intro d x htype
    simp only [refreshOne, htype]
  case volume =>
    intro d x htype
    simp only [refreshOne, htype]
  case wear =>
    intro d x htype
    simp only [refreshOne, htype]
    rfl
  case midnight =>
    intro d hrising
    obtain ⟨hw, host, ew, heq, hkept, hset, hclear⟩ := backlogMidnight_spec d
    refine ⟨_, Runs.of_does exec_backlogMidnight heq, rfl, rfl, fun p hp => dailyOf_pack hp, hkept, fun hsets => hset ((backlogSets_iff d).mpr hsets),
      fun hclears => ?_⟩
    refine hclear (Bool.eq_false_iff.mpr fun hsets => ?_) ((backlogClears_iff d).mpr fun p hp => (hclears p hp).2)
    obtain ⟨p, hp, hrisen, -⟩ := (backlogSets_iff d).mp hsets
    exact Bool.false_ne_true ((hclears p hp).1.symm.trans hrisen)

end Sys2Proof.Machine
end

section
/-!
PROOFS. Flash channels: profile and control registers, training, polls, the end of an array operation, timeouts and timers.
-/

namespace Sys2Proof.Machine

/-! The registers of a flash channel. -/

section
variable {n : Nat} (hn : n < 48)
include hn

/-- A write in a flash channel's slot. -/
theorem regWriteAt_fch {a : Nat} (hs : regSlot a = 64 + n) (m : Nat) (v : Word) (d : Dev) :
    regWriteAt m a v d = (.ok, fchWrite n (a % 0x10000) v d) := by
  unfold regWriteAt
  rw [hs]
  dsimp only
  split
  case h_20 => rw [if_neg (by omega), if_pos (by omega), Nat.add_sub_cancel_left]
  all_goals omega

theorem slotRows_fch : (slotRows (64 + n)).isSome = true := by
  unfold slotRows
  split
  case h_21 =>
    by_cases h0 : n = 0
    · subst h0
      rfl
    · have hcipher : ¬ 64 + n < 36 := by omega
      have hfirst : 64 < 64 + n := by omega
      have hlast : 64 + n < 112 := by omega
      simp [hcipher, hfirst, hlast, h0]
  all_goals omega

theorem isReg_fchCtrl : IsReg (R.FCH_CTRL n) := by
  refine IsReg.of_slot (s := 64 + n) ?_ ?_ ?_ (slotRows_fch hn) <;> simp only [regSlot, R.FCH_CTRL] <;> omega

theorem isReg_fchDrive : IsReg (R.FCH_DRIVE n) := by
  refine IsReg.of_slot (s := 64 + n) ?_ ?_ ?_ (slotRows_fch hn) <;> simp only [regSlot, R.FCH_DRIVE] <;> omega

theorem regWriteAt_fchCtrl (m : Nat) (v : Word) (d : Dev) : regWriteAt m (R.FCH_CTRL n) v d = (.ok, fchCtrlWrite n v d) := by
  have hoff : R.FCH_CTRL n % 0x10000 = 0 := by unfold R.FCH_CTRL; omega
  rw [regWriteAt_fch hn (by unfold R.FCH_CTRL regSlot; omega), hoff]
  rfl

theorem regWriteAt_fchDrive (m : Nat) (v : Word) (d : Dev) : regWriteAt m (R.FCH_DRIVE n) v d = (.ok, fchDriveWrite n v d) := by
  have hoff : R.FCH_DRIVE n % 0x10000 = 0x10 := by unfold R.FCH_DRIVE; omega
  rw [regWriteAt_fch hn (by unfold R.FCH_DRIVE regSlot; omega), hoff]
  rfl

variable {i : Nat} (hi : i < 1024)
include hi

theorem isReg_fchProf : IsReg (R.FCH_PROF n i) := by
  refine IsReg.of_slot (s := 64 + n) ?_ ?_ ?_ (slotRows_fch hn) <;> simp only [regSlot, R.FCH_PROF] <;> omega

theorem regWriteAt_fchProf (m : Nat) (v : Word) (d : Dev) : regWriteAt m (R.FCH_PROF n i) v d = (.ok, profWrite n i v d) := by
  have hoff : R.FCH_PROF n i % 0x10000 = 0x1000 + 4 * i := by unfold R.FCH_PROF; omega
  have hidx : (0x1000 + 4 * i) % 0x1000 / 4 = i := by omega
  rw [regWriteAt_fch hn (by unfold R.FCH_PROF regSlot; omega), hoff, fchWrite, if_neg (by omega), if_neg (by omega), if_pos (by omega), hidx]

end

theorem chCount_le (f : Fuse) : chCount f ≤ 48 := by
  unfold chCount
  split <;> decide

/-- A write of FCH_CTRL, by the bits of the word written (R150). -/
theorem fchCtrlWrite_eq (c : Nat) (v : Word) (d : Dev) {e : Dev}
    (he : e = { d with hw := wr d.hw (R.FCH_CTRL c) (putBit (putBit (rd d.hw (R.FCH_CTRL c)) 3 (bit v 3)) 0
      (bit v 0 && (bit (rd d.hw (R.FCH_CTRL c)) 1 || bit (rd d.hw (R.FCH_CTRL c)) 0))) }) :
    fchCtrlWrite c v d = if bit v 2 then retrainAsked c e else e := by
  have hen : (if (bit v 0 && !bit (rd d.hw (R.FCH_CTRL c)) 1) = true then bit (rd d.hw (R.FCH_CTRL c)) 0 else bit v 0) =
      (bit v 0 && (bit (rd d.hw (R.FCH_CTRL c)) 1 || bit (rd d.hw (R.FCH_CTRL c)) 0)) := by
    cases bit v 0 <;> cases bit (rd d.hw (R.FCH_CTRL c)) 1 <;> rfl
  unfold fchCtrlWrite
  dsimp only
  rw [hen, he]

/-! The rate of a trained target (R158). -/

/-- A list that starts from its greatest: the first entry under a cap is the highest under it. -/
theorem find_ratesDown {cap : Nat} (hcap : cap = 36 ∨ cap = 28 ∨ cap = 16) : (ratesDown.find? (fun r => decide (r ≤ cap))).getD 8 = cap ∧
    cap ∈ ratesDown := by
  obtain rfl | rfl | rfl := hcap <;> decide

theorem slewCap_mem (s : Nat) : slewCap s = 36 ∨ slewCap s = 28 ∨ slewCap s = 16 := by
  unfold slewCap
  split <;> simp

theorem trainRate_spec (d : Dev) (n : Nat) : trainRate d n ≤ slewCap (fld (rd d.hw (R.FCH_DRIVE n)) 0 2) ∧
    ((prof d).rate ≤ slewCap (fld (rd d.hw (R.FCH_DRIVE n)) 0 2) → trainRate d n = (prof d).rate) ∧
    (slewCap (fld (rd d.hw (R.FCH_DRIVE n)) 0 2) < (prof d).rate → trainRate d n ∈ ratesDown ∧
      ∀ r ∈ ratesDown, r ≤ slewCap (fld (rd d.hw (R.FCH_DRIVE n)) 0 2) → r ≤ trainRate d n) := by
  obtain ⟨hfind, hmem⟩ := find_ratesDown (slewCap_mem (fld (rd d.hw (R.FCH_DRIVE n)) 0 2))
  have hrate : trainRate d n = if (prof d).rate ≤ slewCap (fld (rd d.hw (R.FCH_DRIVE n)) 0 2) then (prof d).rate
      else slewCap (fld (rd d.hw (R.FCH_DRIVE n)) 0 2) := by
    rw [trainRate, hfind]
  rw [hrate]
  split
  case isTrue hle => exact ⟨hle, fun _ => rfl, fun hlt => absurd hle (Nat.not_le.mpr hlt)⟩
  case isFalse hnot => exact ⟨Nat.le_refl _, fun hle => absurd hle hnot, fun _ => ⟨hmem, fun r _ hr => hr⟩⟩

/-! What a step settles. -/

theorem againSettle_none {d : Dev} (h : ∀ q ∈ d.fl.runs, q.2.st ≠ .again) (n : Nat) : againSettle n d = d := by
  cases n with
  | zero => rfl
  | succ n =>
    have hnone : d.fl.runs.find? (fun q => decide (q.2.st = .again)) = none := by
      rw [List.find?_eq_none]
      intro q hq
      simp [h q hq]
    rw [againSettle, hnone]

theorem settled_quiet {f : Dev → Dev} {d : Dev} (hdies : ∀ q ∈ (f d).fl.dies, q.2.rq = [] ∨ dieCode d q.1 = dieCode (f d) q.1)
    (hruns : ∀ q ∈ (f d).fl.runs, q.2.st ≠ .again) : settled f d = f d := by
  have hfold : (f d).fl.dies.foldl (fun x q =>
      if q.2.rq.isEmpty || decide (dieCode d q.1 = dieCode (f d) q.1) then x else reask q.2.rq x) (f d) = f d := by
    generalize f d = e at hdies
    generalize hl : e.fl.dies = l at hdies
    clear hl
    induction l with
    | nil => rfl
    | cons q l ih =>
      have hq : (q.2.rq.isEmpty || decide (dieCode d q.1 = dieCode e q.1)) = true := by
        obtain hnil | hcode := hdies q List.mem_cons_self
        · simp [hnil]
        · simp [hcode]
      rw [List.foldl_cons, if_pos hq]
      exact ih fun p hp => hdies p (List.mem_cons_of_mem q hp)
  unfold settled
  dsimp only
  rw [hfold]
  exact againSettle_none hruns _

theorem zonesStuck_none {d : Dev} (h : ∀ q ∈ d.ten.zones, isActive q.2.st = false) : zonesStuck d = d := by
  have hnil : ∀ p : Nat × Zone → Bool, d.ten.zones.filter (fun q => isActive q.2.st && q.2.secure.isNone && p q) = [] := by
    intro p
    rw [List.filter_eq_nil_iff]
    intro q hq
    simp [h q hq]
  unfold zonesStuck
  dsimp only
  rw [hnil]
  rfl

theorem parkSweep_none {d : Dev} (h : ∀ q ∈ d.med.sbs, q.2.type ≠ 3) : parkSweep d = d := by
  have hnil : ∀ p r s : Nat × Sb → Bool, d.med.sbs.filter (fun q => decide (q.2.type = 3) && p q && r q && s q) = [] := by
    intro p r s
    rw [List.filter_eq_nil_iff]
    intro q hq
    simp [h q hq]
  unfold parkSweep
  dsimp only
  rw [hnil]
  rfl

/-! LUN_READY and the end of an array operation. -/

section
variable {d b : Dev} {die plane : Nat} {pass idOk : Bool} {trainOk : BitVec 4} {verified : Bool} (hb : b = busUse die [.readStatus] d)
  (hopen : pollBarred d (chOf die) = false)
include hb hopen

theorem lunReady_array {r : ArrRun} (harr : (dieGet d die).arr = some r) (hrun : r.suspended = false) :
    lunReady die plane pass idOk trainOk verified d = arrEnd die pass idOk trainOk verified b := by
  have hdie : (dieGet b die).arr = some r := by rw [hb]; exact harr
  unfold lunReady
  rw [if_neg (by simp [hopen]), ← hb]
  simp [hdie, hrun]

theorem lunReady_read (harr : ∀ r, (dieGet d die).arr = some r → r.suspended = true) {o : Option Nat}
    (ho : (arrReads d (dieGet d die)).find? (fun r => match runGet d r with | some x => (runPlanes d x).contains plane | none => false) = o) :
    lunReady die plane pass idOk trainOk verified d = o.elim b (fun r => readEnd die r b) := by
  have hidle : (match (dieGet b die).arr with | some a => !a.suspended | none => false) = false := by
    have hdie : (dieGet b die).arr = (dieGet d die).arr := by rw [hb]; rfl
    rw [hdie]
    cases ha : (dieGet d die).arr with
    | none => rfl
    | some a => simp [harr a ha]
  unfold lunReady
  rw [if_neg (by simp [hopen]), ← hb]
  dsimp only
  refine (if_neg (by rw [Bool.not_eq_true]; exact hidle)).trans ?_
  subst hb
  generalize hg : List.find? _ _ = g
  have hgo : g = o := hg.symm.trans ho
  rw [hgo]
  cases o <;> rfl

end

section
variable {d e : Dev} {die : Nat} {pass idOk : Bool} {trainOk : BitVec 4} {verified : Bool} {r : ArrRun} (harr : (dieGet d die).arr = some r)
  (hrun : r.suspended = false) (he : e = diePut d die { dieGet d die with arr := none })
include harr hrun he

theorem arrEnd_program {j : FJob} (hop : r.op = .program) (hjob : r.job = some j) :
    arrEnd die pass idOk trainOk verified d = leaveCheck die (programEnd die j pass (tokenBack j.token e)) := by
  simp [arrEnd, harr, hrun, hop, hjob, he]

theorem arrEnd_erase {j : FJob} (hop : r.op = .erase) (hjob : r.job = some j) :
    arrEnd die pass idOk trainOk verified d = leaveCheck die (eraseEnd die j pass verified (tokenBack j.token e)) := by
  simp [arrEnd, harr, hrun, hop, hjob, he]

theorem arrEnd_reset (hop : r.op = .reset) (hjob : r.job = none) :
    arrEnd die pass idOk trainOk verified d = leaveCheck die (resetEnd die idOk trainOk e) := by
  simp [arrEnd, harr, hrun, hop, hjob, he, tokenBack]

theorem arrEnd_resetLun (hop : r.op = .resetLun) (hjob : r.job = none) : arrEnd die pass idOk trainOk verified d =
    leaveCheck die (if (dieGet d die).ready then e else resetEnd die idOk trainOk e) := by
  simp [arrEnd, harr, hrun, hop, hjob, he, tokenBack]

end

/-! Timeouts (R172). -/

/-- An erase that runs too long: its token returns, Reset LUN runs, and it is tried once more. -/
theorem dieTimeout_erase {d e : Dev} {die : Nat} {ok : BitVec 4} {r : ArrRun} {j : FJob} {ts : List Nat} (hlate : timedOut d (dieGet d die) = true)
    (harr : (dieGet d die).arr = some r) (hrun : r.suspended = false) (hop : r.op = .erase) (hlast : r.last = false) (hjob : r.job = some j)
    (hserves : j.serves = .erase false) (hret : (dieGet d die).returning = none)
    (hts : ts = (dieGet d die).timeouts.filter (fun t => decide (d.hw.time.toNat < t + day)) ++ [d.hw.time.toNat])
    (he : e = jobAdd die (.erase true) true j.slc j.block 0 (busUse die [.resetLun] (tokenBack j.token (diePut { d with
      hw := evUnit (irq d.hw (irqFch (chOf die)) 8) (64 + chOf die) 0x010 3 die (opCode (dieGet d die)) ts.length } die
        { dieGet d die with
          timeouts := ts, arr := some (arrNew .resetLun none d.hw.time), vec := []
          reading := (dieGet d die).reading.filter (fun q => !(arrReads d (dieGet d die)).contains q) })))) :
    dieTimeout die ok d = (arrReads d (dieGet d die), if 3 ≤ ts.length ∧ (dieGet d die).st = 1 then dieTakeOut die 1 e else e) := by
  unfold dieTimeout
  dsimp only
  rw [if_neg (by simp [hlate])]
  simp only [harr, hrun, hop, hlast, hjob, hret, ← hts, timeoutJob, hserves, Bool.false_eq_true, if_false, Option.isSome_none]
  simp only [he, hret]
  rfl

/-- Settles O33: the channel's registers, training, polls and timeouts, each by its function. -/
theorem channelCommands : Obligations.ChannelCommands := by
  refine ⟨?profile, ?profileOn, ?enable, ?retrain, ?drive, ?asked, ?untrained, ?trained, ?target, trainRate_spec, ?poll,
    fun f d => settled_quiet, fun d => zonesStuck_none, fun d => parkSweep_none, ?ready, ?arrEnd, ?eraseEnd, ?eraseDone, ?readEnd, ?timeout,
    ?noTimeout, ?eraseTimeout, ?zqNone, ?zq, ?period⟩
  case profile =>
    intro d m n i v hlets hn hi hoff
    have hn48 : n < 48 := Nat.lt_of_lt_of_le hn (chCount_le _)
    have hok : (masterOk m && decide (n < 48) && decide (i < 1024)) = true := by
      have hmaster : masterOk m = true := hlets.masterOk
      simp [hmaster, hn48, hi]
    refine Runs.of_onUnit (exec_fchProfileWindowWrite m n i v) hok (regWrite_eq_wrote hlets (isReg_fchProf hn48 hi) ?_)
    rw [regWriteAt_fchProf hn48 hi, profWrite, if_neg (by simp [hoff, hi])]
  case profileOn =>
    intro d m n i v hlets hn hi hon
    have hn48 : n < 48 := Nat.lt_of_lt_of_le hn (chCount_le _)
    have hok : (masterOk m && decide (n < 48) && decide (i < 1024)) = true := by
      have hmaster : masterOk m = true := hlets.masterOk
      simp [hmaster, hn48, hi]
    refine Runs.of_onUnit (exec_fchProfileWindowWrite m n i v) hok (regWrite_eq_wrote hlets (isReg_fchProf hn48 hi) ?_)
    rw [regWriteAt_fchProf hn48 hi, profWrite, if_pos (by simp [hon])]
  case enable =>
    intro d m n v hlets hn
    have hn48 : n < 48 := Nat.lt_of_lt_of_le hn (chCount_le _)
    refine ⟨_, rfl, Runs.of_regWrite_at (exec_fchEnWrite m n v) (decide_eq_true hn48) hlets (isReg_fchCtrl hn48)
      ((regWriteAt_fchCtrl hn48 ..).trans (congrArg (Prod.mk Status.ok) ?_))⟩
    have h0 : bit (v ||| 1#32) 0 = true := bit_or_forced (by decide) v
    have h2 : bit (v ||| 1#32) 2 = bit v 2 := bit_or_kept (by decide) v
    have h3 : bit (v ||| 1#32) 3 = bit v 3 := bit_or_kept (by decide) v
    rw [fchCtrlWrite_eq n (v ||| 1#32) d rfl, h0, h2, h3, Bool.true_and]
  case retrain =>
    intro d m n v hlets hn
    have hn48 : n < 48 := Nat.lt_of_lt_of_le hn (chCount_le _)
    refine ⟨_, rfl, Runs.of_regWrite_at (exec_fchRetrainWrite m n v) (decide_eq_true hn48) hlets (isReg_fchCtrl hn48)
      ((regWriteAt_fchCtrl hn48 ..).trans (congrArg (Prod.mk Status.ok) ?_))⟩
    have h0 : bit (v ||| 4#32) 0 = bit v 0 := bit_or_kept (by decide) v
    have h2 : bit (v ||| 4#32) 2 = true := bit_or_forced (by decide) v
    have h3 : bit (v ||| 4#32) 3 = bit v 3 := bit_or_kept (by decide) v
    rw [fchCtrlWrite_eq n (v ||| 4#32) d rfl, h0, h2, h3, if_pos rfl]
  case drive =>
    intro d m n v hlets hn
    have hn48 : n < 48 := Nat.lt_of_lt_of_le hn (chCount_le _)
    exact Runs.of_regWrite_at (exec_fchDriveWrite m n v) (decide_eq_true hn48) hlets (isReg_fchDrive hn48) (regWriteAt_fchDrive hn48 ..)
  case asked =>
    intro d x n hx
    rw [hx]
    rfl
  case untrained =>
    intro d n ce htrained
    exact if_neg (by simp [htrained])
  case trained =>
    intro d n ce htrained
    exact ⟨_, if_pos htrained⟩
  case target =>
    intro d n ce
    exact ⟨_, _, rfl, rfl, rfl, rfl⟩
  case poll =>
    intro d die plane pass idOk trainOk verified hdie
    exact ⟨Runs.of_onUnit (exec_statusPoll die plane false pass idOk trainOk verified) (decide_eq_true hdie) rfl, _, rfl,
      Runs.of_onUnit (exec_statusPoll die plane true pass idOk trainOk verified) (decide_eq_true hdie) rfl,
      Runs.of_onUnit (exec_lunReady die plane pass idOk trainOk verified) (decide_eq_true hdie) rfl⟩
  case ready =>
    intro d b die plane pass idOk trainOk verified hb
    refine ⟨fun hbarred => if_pos hbarred, fun r hopen harr hrun => lunReady_array hb hopen harr hrun, fun hopen harr => ⟨fun r hr => ?_, fun hnone => ?_⟩⟩
    · exact lunReady_read hb hopen harr hr
    · exact lunReady_read hb hopen harr hnone
  case arrEnd =>
    intro d e die pass idOk trainOk verified r harr hrun he
    exact ⟨fun j => arrEnd_program harr hrun he, fun j => arrEnd_erase harr hrun he, arrEnd_reset harr hrun he, arrEnd_resetLun harr hrun he⟩
  case eraseEnd =>
    intro d e die verified again j hserves
    refine ⟨fun hclean => ?_, fun hsecure hshown hfirst => ?_, fun he => ?_⟩
    · have hpass : (eraseSecure d die j.block && !verified) = false := by
        obtain hplain | hshown := hclean
        · simp [hplain]
        · simp [hshown]
      simp [eraseEnd, hserves, hpass]
    · simp [eraseEnd, hserves, hsecure, hshown, hfirst]
    · rw [he]
      simp [eraseEnd, hserves]
  case eraseDone =>
    intro d e die b he
    rw [he]
    simp [eraseDone]
  case readEnd =>
    intro d die run x hx
    exact ⟨fun hbypass => by simp [readEnd, hx, hbypass], fun hdet hnone => by simp [readEnd, hx, hdet, hnone]⟩
  case timeout =>
    intro d die ok hdie
    exact Runs.of_onUnit (exec_dieTimeout ⟨die, ok⟩) (decide_eq_true hdie) rfl
  case noTimeout =>
    intro d die ok hearly
    exact if_pos (by simp [hearly])
  case eraseTimeout =>
    intro d die ok r j ts hlate harr hrun hop hlast hjob hserves hret hts
    exact ⟨_, rfl, dieTimeout_erase hlate harr hrun hop hlast hjob hserves hret hts rfl⟩
  case zqNone =>
    intro d n hn hnone
    refine Runs.of_onUnit (exec_zqCalShortTimer n) (decide_eq_true hn) (if_neg ?_)
    obtain hoff | hmanual | hzero := hnone
    · simp [hoff]
    · simp [hmanual]
    · simp [hzero]
  case zq =>
    intro d e n hn hon hauto hperiod he
    refine Runs.of_onUnit (exec_zqCalShortTimer n) (decide_eq_true hn) ((if_pos (by simp [hon, hauto, hperiod])).trans ?_)
    rw [he]
    rfl
  case period =>
    intro d n hn
    exact Runs.of_onUnit (exec_retrainPeriodExpiry n) (decide_eq_true hn) rfl

end Sys2Proof.Machine
end

section
/-!
PROOFS. Power tokens, the waves of a bring-up and the thermal pause.
-/

namespace Sys2Proof.Machine

/-- A table with an entry put for every number below n. -/
theorem tabGetD_putRange {α : Type} (f : Nat → α) (n : Nat) (t : List (Nat × α)) (k : Nat) (x : α) :
    tabGetD ((List.range n).foldl (fun t c => tabPut t c (f c)) t) k x = if k < n then f k else tabGetD t k x := by
  induction n with
  | zero => simp
  | succ n ih =>
    rw [List.range_succ, List.foldl_append, List.foldl_cons, List.foldl_nil]
    by_cases hkn : k = n
    · subst hkn
      rw [tabGetD_tabPut_self, if_pos (Nat.lt_succ_self k)]
    · have hiff : k < n + 1 ↔ k < n := by omega
      rw [tabGetD_tabPut_other _ _ _ hkn, ih, if_congr hiff rfl rfl]

/-! Tokens (R164–R166). -/

/-- A request stands behind those of earlier windows and, within its own, by channel. -/
theorem waitInsert_split (e : Nat × Nat) (q : List (Nat × Nat)) : ∃ as bs, q = as ++ bs ∧ waitInsert e q = as ++ e :: bs ∧
    (∀ x ∈ as, x.2 ≤ e.2 ∧ (x.2 = e.2 → chOf x.1 ≤ chOf e.1)) ∧
    ∀ x ∈ bs.head?, e.2 < x.2 ∨ (e.2 = x.2 ∧ chOf e.1 < chOf x.1) := by
  induction q with
  | nil => exact ⟨[], [], rfl, rfl, fun _ hx => absurd hx List.not_mem_nil, fun _ hx => absurd hx (by simp)⟩
  | cons x xs ih =>
    by_cases hbefore : e.2 < x.2 ∨ (e.2 = x.2 ∧ chOf e.1 < chOf x.1)
    · refine ⟨[], x :: xs, rfl, if_pos hbefore, fun _ hy => absurd hy List.not_mem_nil, fun y hy => ?_⟩
      obtain rfl : x = y := by simpa using hy
      exact hbefore
    · obtain ⟨as, bs, hq, hins, has, hbs⟩ := ih
      refine ⟨x :: as, bs, by rw [hq, List.cons_append], ?_, fun y hy => ?_, hbs⟩
      · rw [waitInsert, if_neg hbefore, hins, List.cons_append]
      · obtain rfl | hin := List.mem_cons.mp hy
        · omega
        · exact has y hin

section
variable {d : Dev} {die : Nat} {j : FJob} {js : List FJob} (hpq : (dieGet d die).pq = j :: js)
include hpq

theorem headJob_cons {f : FJob → FJob} {e : Dev} (he : dieGet e die = dieGet d die) :
    headJob die f e = diePut e die { dieGet d die with pq := f j :: js } := by
  simp only [headJob, he, hpq]

theorem tokenRequest_not (hon : domOn d.pwr (chOf die + 1) = true) (h : chanRuns d (chOf die) = false ∨ j.asked = true ∨ j.token = true ∨
    jobMay d die = false ∨ capAllows d (jobTraffic d j) = false) : tokenRequest die d = d := by
  simp only [tokenRequest, hpq, hon, Bool.not_true, Bool.false_eq_true, if_false]
  refine if_pos ?_
  obtain h | h | h | h | h := h <;> simp [h]

theorem tokenRequest_asks (hon : domOn d.pwr (chOf die + 1) = true) (hruns : chanRuns d (chOf die) = true) (hasked : j.asked = false)
    (htoken : j.token = false) (hmay : jobMay d die = true) (hcap : capAllows d (jobTraffic d j) = true) : tokenRequest die d = { d with
      hw := if tokenFree d = false ∨ d.fl.pacer.wait ≠ [] ∨ spaced d (packOf die) = false
        then md d.hw R.FCH_PACE_WAITS (fun w => bumpFld w 0 32 1) else d.hw
      fl := { d.fl with pacer := { d.fl.pacer with wait := waitInsert (die, d.hw.time.toNat) d.fl.pacer.wait }
                        dies := tabPut d.fl.dies die { dieGet d die with pq := { j with asked := true } :: js } } } := by
  have hlate : (!tokenFree d || !d.fl.pacer.wait.isEmpty || !spaced d (packOf die)) = true ↔
      tokenFree d = false ∨ d.fl.pacer.wait ≠ [] ∨ spaced d (packOf die) = false := by simp [or_assoc]
  unfold tokenRequest
  rw [hpq]
  dsimp only
  rw [if_neg (by simp [hon]), if_neg (by simp [hruns, hasked, htoken, hmay, hcap]), if_congr hlate rfl rfl]
  exact headJob_cons hpq rfl

theorem tokenGrant_asked {t : Nat} {rest : List (Nat × Nat)} (hwait : d.fl.pacer.wait = (die, t) :: rest) (hasked : j.asked = true) :
    tokenGrant d = if tokenFree d = false ∨ spaced d (packOf die) = false then d else { d with
      fl := { d.fl with pacer := { d.fl.pacer with wait := rest, inuse := d.fl.pacer.inuse + 1 }
                        dies := tabPut d.fl.dies die { dieGet d die with pq := { j with asked := false, token := true } :: js } } } := by
  have hbar : (!tokenFree d || !spaced d (packOf die)) = true ↔ tokenFree d = false ∨ spaced d (packOf die) = false := by simp
  unfold tokenGrant
  rw [hwait]
  dsimp only
  rw [hpq]
  dsimp only
  rw [if_neg (by simp [hasked]), if_congr hbar rfl rfl]
  split
  case isTrue => rfl
  case isFalse => exact headJob_cons hpq rfl

end

/-- A die whose oldest job asks for no token, or that has none, leaves the list. -/
theorem tokenGrant_stale {d : Dev} {die t : Nat} {rest : List (Nat × Nat)} (hwait : d.fl.pacer.wait = (die, t) :: rest)
    (hstale : ∀ j js, (dieGet d die).pq = j :: js → j.asked = false) :
    tokenGrant d = { d with fl := { d.fl with pacer := { d.fl.pacer with wait := rest } } } := by
  unfold tokenGrant
  rw [hwait]
  dsimp only
  cases hpq : (dieGet d die).pq with
  | nil => rfl
  | cons j js => exact if_pos (by simp [hstale j js hpq])

/-! Bring-up (R167). -/

theorem regWriteAt_paceLimit (m : Nat) (v : Word) (d : Dev) : regWriteAt m R.FCH_PACE_LIMIT v d = (.ok, paceLimitWrite v d) :=
  regWriteAt_fch (n := 0) (by decide) rfl m v d

theorem regWriteAt_bringup (m : Nat) (v : Word) (d : Dev) : regWriteAt m R.FCH_PACE_BRINGUP v d = (.ok, bringupWrite v d) :=
  regWriteAt_fch (n := 0) (by decide) rfl m v d

/-- The wave size of the word written. -/
theorem fld_bringup (v : Word) : fld (v ||| 0x80000000#32) 8 8 = fld v 8 8 := by
  have hclear : ∀ i < 16, bit 0x80000000#32 i = false := by decide
  exact fld_congr fun i _ hi => bit_or_kept (hclear i (by omega)) v

/-- The device in which the first wave of a bring-up starts. -/
def broughtUp (v : Word) (d : Dev) : Dev :=
  let d1 := { d with hw := md d.hw R.FCH_PACE_BRINGUP (fun w => rwWrite 0xFFFF#32 w v) }
  let d2 := { d1 with hw := md d1.hw R.FCH_PACE_BRINGUP (fun w => clrBit (putFld w 16 4 0) 30) }
  { d2 with fl := { d2.fl with
      chans := (List.range (chCount d.fuse)).foldl (fun (t : List (Nat × Chan)) c =>
        tabPut t c { (chanGet d c) with up := false, trained := 0#4, failed := 0#4, needTrain := 0xF#4 }) d2.fl.chans
      pacer := { d2.fl.pacer with waves := waveOrder d2 (fun _ => true), nextWave := d2.hw.time, waving := true } } }

theorem bringupWrite_starts {v : Word} (h31 : bit v 31 = true) (hsize : fld v 8 8 ≠ 0) (d : Dev) :
    bringupWrite v d = waveStart (broughtUp v d) := by
  unfold bringupWrite
  dsimp only
  rw [if_neg (by simp [h31]), if_neg hsize]
  rfl

theorem bringupWrite_refused {v : Word} (h31 : bit v 31 = true) (hsize : fld v 8 8 = 0) (d : Dev) : bringupWrite v d = { d with
    hw := wr d.hw R.FCH_PACE_BRINGUP (putFld (rwWrite 0xFFFF#32 (rd d.hw R.FCH_PACE_BRINGUP) v) 16 4 1) } := by
  unfold bringupWrite
  dsimp only
  rw [if_neg (by simp [h31]), if_pos hsize]
  simp only [md, rd_wr_same, wr_wr]

theorem waveStart_runs {d e : Dev} {ws : List Nat} (hwaves : d.fl.pacer.waves ≠ []) (hws : ws = d.fl.pacer.waves.take (waveSize d))
    (he : e = ws.foldl (fun x n => waveDie n x) { d with fl := { d.fl with pacer := { d.fl.pacer with
      waves := d.fl.pacer.waves.drop (waveSize d)
      nextWave := d.fl.pacer.nextWave + BitVec.ofNat 64 (fld (rd d.hw R.FCH_PACE_BRINGUP) 0 8 * 25) } } }) :
    waveStart d = (if d.fl.pacer.waves.drop (waveSize d) = [] then List.range (chCount d.fuse) else (ws.map (fun n => chOf n)).eraseDups).foldl
      (fun x c => bringupCheck c x) e := by
  have hlast : (d.fl.pacer.waves.drop (waveSize d)).isEmpty = true ↔ d.fl.pacer.waves.drop (waveSize d) = [] := List.isEmpty_iff
  unfold waveStart
  dsimp only
  rw [if_neg (by simp [hwaves]), if_congr hlast rfl rfl, he, hws]
  rfl

theorem waveDie_idle {d : Dev} {n : Nat} (hret : (dieGet d n).returning = none) (harr : (dieGet d n).arr = none) :
    waveDie n d = diePut (busUse n [.reset] d) n
      { dieGet d n with arr := (if awaited d n then some (arrNew .reset none d.hw.time) else none), ready := false, vec := [] } := by
  simp only [waveDie, hret, resetDie, harr, Option.isSome_none, Bool.false_eq_true, if_false, tokenBack]

/-- A start of the channel waits for its pause. -/
def pauseWaits (d : Dev) (n : Nat) : Bool := (List.range 32).any (fun i =>
  !(dieGet d (32 * n + i)).rq.isEmpty || (match (dieGet d (32 * n + i)).pq with | j :: _ => j.token | [] => false))

theorem pauseWaits_iff (d : Dev) (n : Nat) : pauseWaits d n = true ↔
    ∃ i < 32, (dieGet d (32 * n + i)).rq ≠ [] ∨ ∃ j js, (dieGet d (32 * n + i)).pq = j :: js ∧ j.token = true := by
  simp only [pauseWaits, List.any_eq_true, List.mem_range, Bool.or_eq_true]
  refine exists_congr fun i => and_congr_right fun _ => or_congr (by simp) ?_
  cases (dieGet d (32 * n + i)).pq <;> simp

/-- Settles O34: tokens, the bring-up's waves and the thermal pause, each by its function. -/
theorem powerTokenCommands : Obligations.PowerTokenCommands := by
  refine ⟨?noJob, ?gate, ?request, waitInsert_split, ?nobody, ?stale, ?grant, ?free, ?limit, ?refused, ?bringup,
    fun d => Runs.of_does exec_resetWaveStart rfl, ?noWave, fun d e ws => waveStart_runs, fun d n => waveDie_idle, ?returning, ?passed, ?pause⟩
  case noJob =>
    intro d die hdie hpq
    refine Runs.of_onUnit (exec_tokenRequest die) (decide_eq_true hdie) ?_
    simp only [tokenRequest, hpq]
  case gate =>
    intro d die hdie hpq hoff
    refine Runs.of_onUnit (exec_tokenRequest die) (decide_eq_true hdie) ?_
    obtain ⟨j, js, hcons⟩ := List.exists_cons_of_ne_nil hpq
    unfold tokenRequest
    rw [hcons]
    exact if_pos (by simp [hoff])
  case request =>
    intro d die j js hdie hpq hon
    exact ⟨fun hnot => Runs.of_onUnit (exec_tokenRequest die) (decide_eq_true hdie) (tokenRequest_not hpq hon hnot),
      fun h1 h2 h3 h4 h5 => Runs.of_onUnit (exec_tokenRequest die) (decide_eq_true hdie) (tokenRequest_asks hpq hon h1 h2 h3 h4 h5)⟩
  case nobody =>
    intro d hwait
    refine Runs.of_does exec_tokenGrant ?_
    simp only [tokenGrant, hwait]
  case stale =>
    intro d die t rest hwait hstale
    exact Runs.of_does exec_tokenGrant (tokenGrant_stale hwait hstale)
  case grant =>
    intro d die t rest j js hwait hpq hasked
    exact Runs.of_does exec_tokenGrant (tokenGrant_asked hpq hwait hasked)
  case free =>
    intro d
    simp [tokenFree]
  case limit =>
    intro d m v hlets
    exact Runs.of_regWrite (exec_paceLimitWrite m v) hlets (by decide) (regWriteAt_paceLimit ..)
  case refused =>
    intro d m v hlets hsize
    exact Runs.of_regWrite (exec_bringupStart m v) hlets (by decide) ((regWriteAt_bringup ..).trans
      (congrArg (Prod.mk Status.ok) (bringupWrite_refused (bit_txGo v) ((fld_bringup v).trans hsize) d)))
  case bringup =>
    intro d m v hlets hsize
    refine ⟨broughtUp (v ||| 0x80000000#32) d, Runs.of_regWrite (exec_bringupStart m v) hlets (by decide) ((regWriteAt_bringup ..).trans
      (congrArg (Prod.mk Status.ok) (bringupWrite_starts (bit_txGo v) (by rw [fld_bringup]; exact hsize) d))), rfl, rfl, rfl, rfl, fun c hc => ?_⟩
    exact (tabGetD_putRange _ _ _ _ _).trans (if_pos hc)
  case noWave =>
    intro d hnone
    exact if_pos (by simp [hnone])
  case returning =>
    intro d e n hret he
    rw [he]
    exact if_pos (Option.isSome_iff_ne_none.mpr hret)
  case passed =>
    intro d n hn hpassed
    exact Runs.of_onUnit (exec_thermalPauseEnd n) (decide_eq_true hn) (if_pos hpassed)
  case pause =>
    intro d n hn hpassed
    exact ⟨pauseWaits d n, pauseWaits_iff d n, Runs.of_onUnit (exec_thermalPauseEnd n) (decide_eq_true hn) (if_neg (by simp [hpassed]))⟩

end Sys2Proof.Machine
end

section
/-!
PROOFS. Detectors: contexts, the ends of jobs, soft values, aborts, invalidation and self-tests.
-/

namespace Sys2Proof.Machine

/-! The registers of a detector and of the pool. -/

section
variable {n : Nat} (hn : n < 24)
include hn

/-- A write in a detector's slot. -/
theorem regWriteAt_det {a : Nat} (hs : regSlot a = 128 + n) (m : Nat) (v : Word) (d : Dev) :
    regWriteAt m a v d = (.ok, detWrite n (a % 0x10000) v d) := by
  unfold regWriteAt
  rw [hs]
  dsimp only
  split
  case h_20 => rw [if_neg (by omega), if_neg (by omega), if_pos (by omega), Nat.add_sub_cancel_left]
  all_goals omega

theorem isReg_detCtrl : IsReg (R.DET_CTRL n) := by
  refine IsReg.of_slot (s := 128 + n) ?_ ?_ ?_ ?_
  · unfold R.DET_CTRL; omega
  · unfold R.DET_CTRL; omega
  · unfold R.DET_CTRL regSlot; omega
  · unfold slotRows
    split
    case h_21 =>
      by_cases h0 : n = 0
      · subst h0
        rfl
      · have hcipher : ¬ 128 + n < 36 := by omega
        have hfirst : ¬ 128 + n = 64 := by omega
        have hchannel : ¬ 128 + n < 112 := by omega
        have hdet : 128 < 128 + n := by omega
        have hlast : 128 + n < 152 := by omega
        simp [hcipher, hfirst, hchannel, hdet, hlast, h0]
    all_goals omega

theorem regWriteAt_detCtrl (m : Nat) (v : Word) (d : Dev) : regWriteAt m (R.DET_CTRL n) v d = (.ok, detCtrlWrite n v d) := by
  have hoff : R.DET_CTRL n % 0x10000 = 0 := by unfold R.DET_CTRL; omega
  rw [regWriteAt_det hn (by unfold R.DET_CTRL regSlot; omega), hoff]
  rfl

end

theorem regWriteAt_binInval (m : Nat) (v : Word) (d : Dev) : regWriteAt m R.DET_BIN_INVAL v d = (.ok, binInval v d) :=
  regWriteAt_det (n := 0) (by decide) rfl m v d

theorem regWriteAt_detProf (m : Nat) (v : Word) (d : Dev) : regWriteAt m R.DET_PROF v d = (.ok, detProfWrite v d) :=
  regWriteAt_det (n := 0) (by decide) rfl m v d

theorem detCtrlWrite_eq (n : Nat) (v : Word) (d : Dev) : detCtrlWrite n v d =
    if bit v 1 then selfTestStart n { d with
      hw := md d.hw (R.DET_CTRL n) (fun w => putBit w 0 (if bit v 0 = true ∧ bpcOk d.hw = false then detEn d n else bit v 0)) }
    else { d with
      hw := md d.hw (R.DET_CTRL n) (fun w => putBit w 0 (if bit v 0 = true ∧ bpcOk d.hw = false then detEn d n else bit v 0)) } := by
  have hen : (bit v 0 && !bpcOk d.hw) = true ↔ bit v 0 = true ∧ bpcOk d.hw = false := by simp
  unfold detCtrlWrite
  dsimp only
  rw [if_congr hen rfl rfl]

theorem selfTestStart_eq (n : Nat) (d : Dev) : selfTestStart n d = if (detGet d n).ctx ≠ [] ∨ (detGet d n).testing = true then d
    else detPut { d with hw := md d.hw (R.DET_CTRL n) (fun w => setBit w 1) } n { detGet d n with testing := true } := by
  have hbusy : (!(detGet d n).ctx.isEmpty || (detGet d n).testing) = true ↔ (detGet d n).ctx ≠ [] ∨ (detGet d n).testing = true := by simp
  rw [selfTestStart, if_congr hbusy rfl rfl]

/-! Contexts (R196). -/

/-- The run keeps its context, and its bin entry can be read. -/
def keptReady (d : Dev) (r : Nat) : Bool := match runGet d r with
  | some x => (match x.det with | some (n, _) => (detGate d n x.bin).isNone | none => false)
  | none => false

theorem ctxGrant_kept {d : Dev} {r : Nat} {x : Run} (hkept : d.fl.ctxWait.find? (keptReady d) = some r) (hx : runGet d r = some x) :
    ctxGrant d = pageOut r x.loc.die (detStart r d) := by
  have hfind : d.fl.ctxWait.find? (fun r => match runGet d r with
      | some x => (match x.det with | some (n, _) => (detGate d n x.bin).isNone | none => false)
      | none => false) = some r := hkept
  unfold ctxGrant
  dsimp only
  split
  case h_1 k hk =>
    obtain rfl : k = r := Option.some.inj (hk.symm.trans hkept)
    rw [hx]
  case h_2 hk => exact absurd (hk.symm.trans hkept) (by simp)

/-- The grant to the first request without a context. -/
def grantAsked (d : Dev) : Dev :=
  match ctxAsks d with
  | [] => d
  | r :: _ => match runGet d r with
    | none => d
    | some x => match detPick d (chOf x.loc.die) x.avoid with
      | none => d
      | some n => match detGate d n x.bin with
        | some dom => wakeReq dom 2 d
        | none => detWake (pageOut r x.loc.die (detStart r
            (runPut (detPut d n { detGet d n with ctx := tabPut (detGet d n).ctx (freeCtx (detGet d n)) r }) r
              { x with det := some (n, freeCtx (detGet d n)), avoid := none })))

theorem ctxGrant_asked {d : Dev} (h : ∀ r ∈ d.fl.ctxWait, ∀ x, runGet d r = some x → x.det = none) : ctxGrant d = grantAsked d := by
  have hnone : d.fl.ctxWait.find? (keptReady d) = none := by
    rw [List.find?_eq_none]
    intro r hr
    cases hx : runGet d r with
    | none => simp [keptReady, hx]
    | some x => simp [keptReady, hx, h r hr x hx]
  unfold ctxGrant
  dsimp only
  split
  case h_1 k hk => exact absurd (hk.symm.trans hnone) (by simp)
  case h_2 => rfl

theorem detStart_loads {d d1 : Dev} {r n c : Nat} {x : Run} {e : List Byte} (hx : runGet d r = some x) (hdet : x.det = some (n, c))
    (hgate : detGate d n x.bin = none) (hload : detLoad n x.bin d = (e, d1)) : detStart r d =
      runPut { d1 with fl := { d1.fl with ctxWait := d1.fl.ctxWait.filter (fun q => decide (q ≠ r)) } } r { x with st := .detecting, ent := e } := by
  simp only [detStart, hx, hdet, hgate, hload]

/-! The interrupt registers of a detector. -/

theorem detStat_pend (n k : Nat) (hk : k < 32) : R.DET_INT_STAT n ≠ R.WH_PEND ((irqDet n).src k / 32) := by
  simp only [irqDet]
  split <;> unfold R.DET_INT_STAT R.WH_PEND <;> omega

theorem detStat_pastPosts (n : Nat) : PastPosts (R.DET_INT_STAT n) := by
  refine ⟨?_, ?_, ?_⟩
  · unfold R.DET_INT_STAT R.EVREC_INT_STAT; omega
  · unfold R.DET_INT_STAT R.EVREC_DROP; omega
  · unfold R.DET_INT_STAT R.WH_PEND; omega

theorem bit_detStat_set (h : Hw) (n : Nat) {k : Nat} (hk : k < 32) : bit (rd (irq h (irqDet n) k) (R.DET_INT_STAT n)) k = true :=
  bit_rd_irq_at h (irqDet n) rfl hk (detStat_pend n k hk)

/-- The Rind store's journal has no register. -/
theorem rd_unitRecord (type n st : Nat) (d : Dev) (a : Nat) : rd (unitRecord type n st d).hw a = rd d.hw a := by
  unfold unitRecord sjDelete sjPut
  split <;> split <;> rfl

theorem unitRecord_frame (type n st : Nat) (d : Dev) : unitRecord type n st d = { d with
    hw := (unitRecord type n st d).hw, sj := (unitRecord type n st d).sj } := by
  unfold unitRecord sjDelete
  split
  · exact sjPut_frame ..
  · exact sjPut_frame ..

theorem runGet_of_runs {d e : Dev} (h : e.fl.runs = d.fl.runs) {r : Nat} : runGet e r = runGet d r := by rw [runGet, h, runGet]

/-- A context is freed: its run has none, and no bit of the detector's status is lost. -/
theorem ctxFree_spec {d : Dev} {r n c : Nat} {x : Run} (hx : runGet d r = some x) (hdet : x.det = some (n, c)) :
    runGet (ctxFree r d) r = some { x with det := none } ∧
    ∀ i, bit (rd d.hw (R.DET_INT_STAT n)) i = true → bit (rd (ctxFree r d).hw (R.DET_INT_STAT n)) i = true := by
  have hcases : (∃ y, ctxFree r d = detPut (runPut d r { x with det := none }) n y) ∨ ∃ who y z, ctxFree r d = unitEvent 3 n 2 who
      (unitRecord 3 n 2 (detPut { detPut (runPut d r { x with det := none }) n y with hw := irq d.hw (irqDet n) 3 } n z)) := by
    simp only [ctxFree, hx, hdet]
    split
    · exact .inl ⟨_, rfl⟩
    · split
      · exact .inl ⟨_, rfl⟩
      · exact .inr ⟨_, _, _, rfl⟩
  have hrun : runGet (runPut d r { x with det := none }) r = some { x with det := none } := runGet_runPut ..
  obtain ⟨y, heq⟩ | ⟨who, y, z, heq⟩ := hcases <;> rw [heq]
  · exact ⟨hrun, fun _ => id⟩
  · refine ⟨?_, fun i hi => ?_⟩
    · unfold unitEvent
      rw [unitRecord_frame]
      exact hrun
    · have hkept : bit (rd (irq d.hw (irqDet n) 3) (R.DET_INT_STAT n)) i = true := bit_rd_irq_kept hi ..
      unfold unitEvent
      rw [rd_evFw _ _ _ _ _ _ (detStat_pastPosts n), rd_unitRecord]
      exact hkept

/-! Soft values (R189). -/

theorem roundDiv_nonneg {k : Int} (h : 0 ≤ k) (m : Nat) : 0 ≤ roundDiv k m := by
  unfold roundDiv
  split
  · exact Int.le_refl 0
  · exact Int.natCast_nonneg _

theorem softLlr_bounds (e : List Byte) (s : SoftVal) : (softLlr e s).natAbs ≤ 31 ∧ (s.h = false → 0 ≤ softLlr e s) ∧
    (s.h = true → softLlr e s ≤ 0) := by
  unfold softLlr
  extract_lets k m
  have hm : 0 ≤ m ∧ m ≤ 31 := by
    have hquot : 0 ≤ roundDiv (Int.ofNat (k * s.x2 * entDelta e)) 32768 := roundDiv_nonneg (Int.natCast_nonneg _) _
    omega
  cases s.h <;> simp <;> omega

theorem detSoft_out {d : Dev} {n r : Nat} {x : Run} {cells : List (List Bool)} (hmode : runMode x ≠ 0) :
    (detGet (detSoft n r x cells d) n).out =
      resHeader r (runMode x) x.bin 7 (srcCode (prof d) x) (if jobClamped d x then 2 else 0)
        ((cells.filter (fun c => decide ((softVal c).dist = 1))).length) 0 n x.ent.isEmpty ++
        llrWords (cells.length + 1) (cells.map (fun c => softLlr x.ent (softVal c))) := by
  have hdet : detGet (detSoft n r x cells d) n = { (detGet d n) with
      out := jobHeader n r x 0 (nearCells cells) d ++ llrWords (cells.length + 1) (softLlrs x cells) } := tabGetD_tabPut_self ..
  rw [hdet]
  simp [jobHeader, hmode, nearCells, softLlrs]

theorem rd_spend (h : Hw) (a : Nat) : rd (spend h) a = rd h a := rfl

/-- The device in which an aborted job has left its detector. -/
def abortLeft (n r : Nat) (x : Run) (d : Dev) : Dev :=
  let out := if runMode x ≤ 2 then jobHeader n r x 4 (Config.freeNat d.hw.free) d else (detGet d n).out
  ctxFree r (clampNote n x (detPut { d with hw := spend (irq (irq d.hw (irqDet n) 8) (irqDet n) 11) } n
    { detGet d n with aborts := (detAborts d n) ++ [d.hw.time.toNat], out := out }))

/-- A job that finds an uncorrectable strobe word: both interrupts are set, and its run goes on. -/
theorem abortLeft_spec {d : Dev} {n r ctx : Nat} {x : Run} (hx : runGet d r = some x) (hdet : x.det = some (n, ctx)) :
    bit (rd (abortLeft n r x d).hw (R.DET_INT_STAT n)) 8 = true ∧ bit (rd (abortLeft n r x d).hw (R.DET_INT_STAT n)) 11 = true ∧
    runGet (abortLeft n r x d) r = some { x with det := none } := by
  have h11 : bit (rd (spend (irq (irq d.hw (irqDet n) 8) (irqDet n) 11)) (R.DET_INT_STAT n)) 11 = true := by
    rw [rd_spend]
    exact bit_detStat_set _ _ (by decide)
  have h8 : bit (rd (spend (irq (irq d.hw (irqDet n) 8) (irqDet n) 11)) (R.DET_INT_STAT n)) 8 = true := by
    rw [rd_spend]
    exact bit_rd_irq_kept (bit_detStat_set _ _ (by decide)) ..
  unfold abortLeft
  extract_lets out
  have hkept : runGet (clampNote n x (detPut { d with hw := spend (irq (irq d.hw (irqDet n) 8) (irqDet n) 11) } n
      { detGet d n with aborts := (detAborts d n) ++ [d.hw.time.toNat], out := out })) r = some x := (runGet_of_runs rfl).trans hx
  obtain ⟨hrun, hbits⟩ := ctxFree_spec hkept hdet
  exact ⟨hbits 8 (bit_rd_irqIf_kept h8 ..), hbits 11 (bit_rd_irqIf_kept h11 ..), hrun⟩

theorem detAbort_eq {d : Dev} {n r ctx : Nat} {x y : Run} (hx : runGet d r = some x) (hdet : x.det = some (n, ctx))
    (hy : y = { x with det := none, avoid := some n, sub := if x.step = 4 then 1 else if x.step = 5 then 2 else x.sub }) :
    detAbort n r x d = (if 3 ≤ (detAborts (stepGo r (runPut (abortLeft n r x d) r y)) n).length ∧
        detUp (stepGo r (runPut (abortLeft n r x d) r y)) n = true ∧ lastDet (stepGo r (runPut (abortLeft n r x d) r y)) n = false
      then detLeave n 1 (stepGo r (runPut (abortLeft n r x d) r y)) else stepGo r (runPut (abortLeft n r x d) r y)) := by
  obtain ⟨-, -, hrun⟩ := abortLeft_spec hx hdet
  have hsub : (match x.step with | 4 => 1 | 5 => 2 | _ => x.sub) = if x.step = 4 then 1 else if x.step = 5 then 2 else x.sub := by
    split <;> simp_all
  have hgo : detAbort n r x d = (let d2 := match runGet (abortLeft n r x d) r with
      | some z => stepGo r (runPut (abortLeft n r x d) r { z with avoid := some n, sub := match z.step with | 4 => 1 | 5 => 2 | _ => z.sub })
      | none => abortLeft n r x d
    if 3 ≤ (detAborts d2 n).length ∧ detUp d2 n = true ∧ lastDet d2 n = false then detLeave n 1 d2 else d2) := rfl
  rw [hgo, hrun, hy]
  dsimp only
  rw [hsub]

/-! The self-test's end in a return (R202). -/

/-- A detector's domain returns to AUTO; nothing of the detectors changes. -/
theorem detModeBack_spec {d : Dev} {n : Nat} (hn : n < detCount d.fuse) : (detModeBack n d).fl = d.fl ∧
    domMode (detModeBack n d).hw (n + 49) = 0 ∧ rd (detModeBack n d).hw (R.DET_INT_STAT n) = rd d.hw (R.DET_INT_STAT n) := by
  have hcount : detCount d.fuse ≤ 24 := by unfold detCount; split <;> decide
  have hpresent : domPresent d.fuse (n + 49) = true := by
    have h48 : ¬ n + 49 ≤ 48 := by omega
    have h72 : n + 49 ≤ 72 := by omega
    simp [domPresent, h48, h72, hn]
  set v : Word := rd d.hw (R.PWR_DCTRL (n + 49)) &&& 0xC0#32 with hv
  set d1 : Dev := { d with hw := md d.hw (R.PWR_DCTRL (n + 49)) (fun w => rwWrite 0xC3#32 w v) } with hd1
  have hlow : fld v 0 2 = 0 := by
    have hzero : fld v 0 2 = fld 0#32 0 2 := fld_congr fun i _ hi => by
      have hmask : bit 0xC0#32 i = false := by
        obtain rfl | rfl : i = 0 ∨ i = 1 := by omega
        · decide
        · decide
      rw [hv, bit_and, hmask, Bool.and_false]
      simp [bit]
    exact hzero
  have hmode : domMode d1.hw (n + 49) = 0 := by
    rw [domMode, if_neg (by omega), hd1, md]
    dsimp only
    rw [rd_wr_same]
    refine (fld_congr fun i _ hi => ?_).trans hlow
    have hmask : bit 0xC3#32 i = true := by
      obtain rfl | rfl : i = 0 ∨ i = 1 := by omega
      · decide
      · decide
    rw [rwWrite, bit_or, bit_and, bit_and, bit_not, hmask]
    simp
  have hstat : rd d1.hw (R.DET_INT_STAT n) = rd d.hw (R.DET_INT_STAT n) :=
    rd_wr_other _ _ _ _ (by unfold R.DET_INT_STAT R.PWR_DCTRL; omega)
  have heq : detModeBack n d = d1 ∨ detModeBack n d = wakeReq (n + 49) 4 d1 := by
    have hwrite : detModeBack n d = if 2 ≤ domMode d.hw (n + 49) ∧ (domGet d1.pwr (n + 49)).st ≠ .on then wakeReq (n + 49) 4 d1 else d1 := by
      have h0 : n + 49 ≠ 0 := by omega
      rw [detModeBack, dctrlWrite, if_neg (by simp [hpresent])]
      simp only [if_neg h0, ← hv, hlow]
      rfl
    rw [hwrite]
    split
    · exact .inr rfl
    · exact .inl rfl
  obtain heq | heq := heq <;> rw [heq]
  · exact ⟨rfl, hmode, hstat⟩
  · rw [wakeReq_frame]
    exact ⟨rfl, hmode, hstat⟩

/-- The device after a self-test in a return, before its domain goes back to AUTO. -/
def testReturned (d : Dev) (n : Nat) (pass : Bool) : Dev :=
  let h := irqIf (irq (md d.hw (R.DET_CTRL n) (fun w => clrBit w 1)) (irqDet n) 2) (!pass) (irqDet n) 10
  let st := if pass then 1 else 4
  unitEvent 3 n st 0 (unitRecord 3 n st (detPut { d with hw := irq h (irqDet n) 3 } n
    { detGet d n with testing := false, returning := false, st := st, cache := [] }))

theorem selfTestDone_returning {d : Dev} {n : Nat} {pass : Bool} (htesting : (detGet d n).testing = true) (hon : domOn d.pwr (n + 49) = true)
    (hreturn : (detGet d n).returning = true) : selfTestDone n pass d = detModeBack n (testReturned d n pass) := by
  simp only [selfTestDone, htesting, hon, hreturn, Bool.not_true, Bool.or_self, Bool.false_eq_true, if_false, if_true]
  rfl

theorem testReturned_frame (d : Dev) (n : Nat) (pass : Bool) : ∃ hw sj, testReturned d n pass = { detPut d n
    { detGet d n with testing := false, returning := false, st := if pass then 1 else 4, cache := [] } with hw := hw, sj := sj } := by
  unfold testReturned unitEvent
  extract_lets h st
  rw [unitRecord_frame]
  exact ⟨_, _, rfl⟩

theorem testReturned_stat (d : Dev) (n : Nat) (pass : Bool) : bit (rd (testReturned d n pass).hw (R.DET_INT_STAT n)) 3 = true := by
  unfold testReturned unitEvent
  extract_lets h st
  rw [rd_evFw _ _ _ _ _ _ (detStat_pastPosts n), rd_unitRecord]
  exact bit_detStat_set _ _ (by decide)

theorem testReturned_spec {d : Dev} {n : Nat} (hn : n < detCount d.fuse) (pass : Bool) :
    detGet (detModeBack n (testReturned d n pass)) n =
      { detGet d n with testing := false, returning := false, st := if pass then 1 else 4, cache := [] } ∧
    bit (rd (detModeBack n (testReturned d n pass)).hw (R.DET_INT_STAT n)) 3 = true ∧
    domMode (detModeBack n (testReturned d n pass)).hw (n + 49) = 0 := by
  obtain ⟨hw, sj, hframe⟩ := testReturned_frame d n pass
  obtain ⟨hfl, hmode, hstat⟩ := detModeBack_spec (d := testReturned d n pass) (n := n) (by rw [hframe]; exact hn)
  refine ⟨?_, ?_, hmode⟩
  · rw [detGet, hfl, hframe]
    exact tabGetD_tabPut_self ..
  · rw [hstat]
    exact testReturned_stat d n pass

/-- Settles O35: contexts, the ends of jobs by what was observed, soft values, aborts, invalidation and self-tests. -/
theorem detectorCommands : Obligations.DetectorCommands := by
  refine ⟨fun d => Runs.of_does exec_detContextGrant rfl, ?kept, ?asked, ?loads, ?job, ?jobDone, fun _ _ _ _ => rfl, softLlr_bounds, ?soft, ?abort,
    ?inval, ?selftest, fun d n => selfTestStart_eq n d, ?noTest, ?tested, ?returned, ?enable, ?profile⟩
  case kept =>
    intro d r x hkept hx
    exact ctxGrant_kept hkept hx
  case asked =>
    intro d h
    rw [ctxGrant_asked h]
    refine ⟨fun hnone => by simp only [grantAsked, hnone], fun r rest x hasks hx => ⟨fun hpick => by simp only [grantAsked, hasks, hx, hpick],
      fun n hpick => ⟨fun dom hgate => by simp only [grantAsked, hasks, hx, hpick, hgate], fun hgate => by
        simp only [grantAsked, hasks, hx, hpick, hgate]⟩⟩⟩
  case loads =>
    intro d r n c x e d1 hx hdet hgate hload
    exact detStart_loads hx hdet hgate hload
  case job =>
    intro d n ctx fix obs hn hctx
    exact Runs.of_onUnit (exec_detJobDone n ctx obs fix) (by simp [detOk, hn, hctx]) rfl
  case jobDone =>
    intro d d1 n ctx r fix x obs hctx hx
    refine ⟨fun hnot => ?_, fun hst hon hfits hd1 => ?_⟩
    · simp only [detJobDone, hctx, hx, hnot, if_true]
    · have hgo : ¬ (x.st ≠ .detecting ∨ domOn d.pwr (n + 49) = false ∨ obsFits x obs = false) := by simp [hst, hon, hfits]
      subst hd1
      refine ⟨fun hobs => ?_, fun bits hobs => ?_, fun ls hobs => ?_, fun cells d2 hobs hd2 => ?_, fun cells d2 hobs hd2 => ?_, fun hobs => ?_,
        fun cells v hobs hgood hv => ?_⟩
      · subst hobs
        simp only [detJobDone, hctx, hx, if_neg hgo]
      · subst hobs
        simp only [detJobDone, hctx, hx, if_neg hgo]
      · subst hobs
        simp only [detJobDone, hctx, hx, if_neg hgo]
      · subst hobs hd2
        simp only [detJobDone, hctx, hx, if_neg hgo]
        exact ⟨fun h4 h5 => by rw [if_neg h4, if_neg h5], fun h4 => if_pos h4, fun h5 => by rw [if_neg (by omega), if_pos h5]⟩
      · subst hobs hd2
        simp only [detJobDone, hctx, hx, if_neg hgo]
        exact ⟨fun h5 => if_pos h5, fun h5 => if_neg h5⟩
      · obtain ⟨q, rfl⟩ | ⟨q, rfl⟩ := hobs <;> simp only [detJobDone, hctx, hx, if_neg hgo]
      · subst hobs hv
        simp only [detJobDone, hctx, hx, if_neg hgo, hgood, Bool.false_eq_true, if_false]
  case soft =>
    intro d n r x cells hmode
    exact detSoft_out hmode
  case abort =>
    intro d n r ctx x hx hdet
    obtain ⟨h8, h11, -⟩ := abortLeft_spec hx hdet
    exact ⟨abortLeft n r x d, _, h8, h11, rfl, detAbort_eq hx hdet rfl⟩
  case inval =>
    intro d m v hlets
    exact Runs.of_regWrite (exec_detBinInvalWrite m v) hlets (by decide) (regWriteAt_binInval ..)
  case selftest =>
    intro d e m n v hlets hn he
    refine Runs.of_regWrite_at (exec_detSelftest m n v) (decide_eq_true hn) hlets (isReg_detCtrl hn)
      ((regWriteAt_detCtrl hn ..).trans (congrArg (Prod.mk Status.ok) ?_))
    obtain ⟨h1, h0⟩ := bit_or_two v
    rw [detCtrlWrite_eq, h1, h0, if_pos rfl, he]
  case noTest =>
    intro d n pass hn hnot
    refine Runs.of_onUnit (exec_detSelftestDone n pass) (decide_eq_true hn) (if_pos ?_)
    obtain hidle | hoff := hnot
    · simp [hidle]
    · simp [hoff]
  case tested =>
    intro d n pass hn htesting hon hreturn
    refine Runs.of_onUnit (exec_detSelftestDone n pass) (decide_eq_true hn) ?_
    simp [selfTestDone, htesting, hon, hreturn]
  case returned =>
    intro d n pass hn htesting hon hreturn
    exact ⟨_, Runs.of_onUnit (exec_detSelftestDone n pass) (decide_eq_true hn) (selfTestDone_returning htesting hon hreturn),
      testReturned_spec hn pass⟩
  case enable =>
    intro d e m n v hlets hn he
    exact Runs.of_regWrite_at (exec_detEnWrite m n v) (decide_eq_true hn) hlets (isReg_detCtrl hn)
      ((regWriteAt_detCtrl hn ..).trans (congrArg (Prod.mk Status.ok) ((detCtrlWrite_eq n v d).trans (by rw [he]))))
  case profile =>
    intro d m v hlets
    exact Runs.of_regWrite (exec_detProfWrite m v) hlets (by decide) (regWriteAt_detProf ..)

end Sys2Proof.Machine
end

section
/-!
PROOFS. Decoding: the end of a rebuild in a table that lists its Pack twice.
-/

namespace Sys2Proof.Machine

/-- A rebuild with one codeword left. -/
def lastCodeword : Rebuild := { left := [(0, 0)], done := 0, lost := 0, lastAt := none }

/-- The superblock and the copy of that codeword. -/
def rebuiltSb : Sb := { Sb.blank with type := 2, members := [(0, 0)] }
def rebuiltCopy : Copy :=
  { nsid := 1, lba := 0, seq := 1, kennel := 0, cipher := 0, slot := 0, gen := 0, lost := false, pad := false, parked := false, refresh := false
    data := 0 }

/-- A device with XORU enabled and its domain ON, whose table of rebuilds lists Pack 0 twice. -/
def twiceListed : Dev :=
  { Dev.reset with
    hw := { Hw.reset with regs := [(R.XORU_CTRL, 1#32)] }
    pwr := { Dev.reset.pwr with doms := [(95, { Dom.init with st := .on })] }
    med := { Dev.reset.med with rebuilds := [(0, lastCodeword), (0, lastCodeword)], sbs := [(0, rebuiltSb)], copies := [(uk 0 0, rebuiltCopy)] } }

theorem twiceListed_rebuilds : bit (rd twiceListed.hw R.XORU_CTRL) 0 = true ∧ domOn twiceListed.pwr 95 = true ∧
    tabGet twiceListed.med.rebuilds 0 = some lastCodeword ∧ rebuildEarly twiceListed 0 lastCodeword = false ∧
    sbGet twiceListed 0 = some rebuiltSb ∧ tabGet twiceListed.med.copies (uk 0 0) = some rebuiltCopy := by decide +kernel

/-- The last codeword of the first entry removes that entry alone. -/
theorem rebuildNext_twiceListed : tabGet (rebuildNext 0 true twiceListed).med.rebuilds 0 = some lastCodeword := by decide +kernel

/-- Refutes O36: its clause on the last codeword of a rebuild speaks of every device, also of one whose table of rebuilds lists a Pack twice;
there the end of the first rebuild leaves the second entry, where the clause says that none is left. -/
theorem not_decodeCommands : ¬ Obligations.DecodeCommands := by
  intro h
  obtain ⟨-, -, -, -, -, -, -, -, hlast, -⟩ := h
  obtain ⟨hen, hon, hreb, hearly, hsb, hcopy⟩ := twiceListed_rebuilds
  obtain ⟨whole, e, -, -, hruns, hnone, -⟩ := hlast twiceListed 0 0 0 true lastCodeword [] rebuiltSb rebuiltCopy (by decide) hen hon hreb hearly rfl
    hsb hcopy
  have he : e = rebuildNext 0 true twiceListed := hruns.unique (Runs.of_onUnit (exec_unitRebuildCodeword 0 true) (by decide) rfl)
  rw [he, rebuildNext_twiceListed, if_pos rfl] at hnone
  cases hnone

end Sys2Proof.Machine
end

section
/-!
PROOFS. The map: the switch of a collected unit that its move lost.
-/

namespace Sys2Proof.Machine

/-- A unit of a conventional namespace, under sequence number 5. -/
def collectedCopy : Copy :=
  { nsid := 1, lba := 0, seq := 5, kennel := 0, cipher := 0, slot := 0, gen := 0, lost := false, pad := false, parked := false, refresh := false
    data := 0 }

/-- The move that collects it. -/
def collection : Move := { source := 1, target := 2, zone := none, units := [(mk 1 0, 0)], gc := true }

/-- A device that collects the unit, with 9 the next sequence number. -/
def collectingDev : Dev :=
  { Dev.reset with
    med := { Dev.reset.med with
      seqNext := 9, moves := [collection], copies := [(uk 1 0, collectedCopy)]
      mapu := { Dev.reset.med.mapu with map := [(mk 1 0, .media 5 1 0)] } } }

theorem collectingDev_moves : collectingDev.med.moves.find? (fun m => m.gc && m.units.any (fun u => decide (u.1 = mk 1 0))) = some collection ∧
    collection.units.find? (fun u => decide (u.1 = mk 1 0)) = some (mk 1 0, 0) ∧
    tabGet collectingDev.med.copies (uk 1 0) = some collectedCopy ∧
    tabGet collectingDev.med.mapu.map (mk 1 0) = some (.media 5 1 0) := by decide +kernel

/-- A unit that the move lost is entered in the map under the sequence number of its old copy. -/
theorem gcSwitch_lostSeq : tabGet (gcSwitch 1 0 true collectingDev).med.mapu.map (mk 1 0) = some (.lost 5) := by decide +kernel

/-- Refutes O37: the switch of a collected unit whose move lost it (R225) enters it in the map under the sequence number it had, 5 here,
where the statement says the next one, 9. -/
theorem not_mapCommands : ¬ Obligations.MapCommands := by
  intro h
  obtain ⟨-, -, -, -, -, -, -, -, hswitch, -⟩ := h
  obtain ⟨hmove, hunit, hcopy, hmap⟩ := collectingDev_moves
  obtain ⟨hentry, -⟩ := hswitch collectingDev _ 1 0 0 true collection collectedCopy rfl hmove hunit (.inl hcopy)
  have hlost := gcSwitch_lostSeq.symm.trans (hentry 5 hmap)
  simp [collectingDev] at hlost

end Sys2Proof.Machine
end

section
/-!
PROOFS. Held heads, the round robin and the admission of a head.
-/

namespace Sys2Proof.Machine

theorem heads_eq (d : Dev) : heads d = d.host.queues.filterMap (fun p => p.2.head?.map (fun q =>
    (p.1, fnKennel d (p.1 / 65536 / 64) (p.1 / 65536 % 64), q,
      if d.host.stopped = true ∨ d.med.recovered = false ∨ zoneBusy d q.cmd = true then 6
      else heldBy d (fnKennel d (p.1 / 65536 / 64) (p.1 / 65536 % 64)) q.cmd))) := by
  unfold heads
  refine congrArg (fun f => List.filterMap f d.host.queues) (funext fun p => ?_)
  obtain ⟨qk, _ | ⟨q, rest⟩⟩ := p
  · rfl
  · refine congrArg (fun n => some (qk, _, q, n)) (if_congr ?_ rfl rfl)
    simp [or_assoc]

theorem heldBy_eq {d : Dev} {k kib : Nat} {c : IoCmd} {x : Kennel} (hx : x = kenFill d.hw.time.toNat (kenOf d k))
    (hkib : kib = (match c.op with | .write | .append | .writeZeroes => c.nlb * 4 | _ => 0)) : heldBy d k c =
    if bit (rd d.hw R.HERDER_CTRL) 0 = false then 1
    else if x.cap ≠ 0 ∧ x.cap ≤ x.outstanding then 2
    else if x.iops ≠ 0 ∧ x.iopsB.level < 25000000 then 3
    else if x.bw ≠ 0 ∧ 0 < moveBytes c ∧ x.bwB.level < moveBytes c * 25000000 then 4
    else if 0 < kib ∧ limitKib d < dirtyKib d + kib then 5 else 0 := by
  subst hx hkib
  unfold heldBy
  refine if_congr (by simp) rfl (if_congr (by simp) rfl (if_congr (by simp) rfl (if_congr (by simp [and_assoc]) rfl (if_congr ?_ rfl rfl))))
  cases c.op <;> simp

/-- The least of a list, from its first. -/
theorem foldl_min_spec (x : Nat) (xs : List Nat) : xs.foldl min x ∈ x :: xs ∧ ∀ y ∈ x :: xs, xs.foldl min x ≤ y := by
  induction xs generalizing x with
  | nil => simp
  | cons a rest ih =>
    obtain ⟨hmem, hle⟩ := ih (min x a)
    simp only [List.foldl_cons]
    refine ⟨?_, fun y hy => ?_⟩
    · rcases List.mem_cons.mp hmem with h | h
      · rw [h]; rcases min_choice x a with h' | h' <;> simp [h']
      · simp [h]
    · have hfirst := hle _ (List.mem_cons_self ..)
      rcases List.mem_cons.mp hy with rfl | hy
      · omega
      · rcases List.mem_cons.mp hy with rfl | hy
        · omega
        · exact hle y (List.mem_cons_of_mem _ hy)

theorem nextAfter_nil (last : Nat) : nextAfter last [] = none := rfl

/-- The next in round robin: the least beyond the last one taken, else the least. -/
theorem nextAfter_spec {last y : Nat} {xs : List Nat} (h : nextAfter last xs = some y) : y ∈ xs ∧
    (∀ x ∈ xs, last < x → last < y ∧ y ≤ x) ∧ ((∀ x ∈ xs, x ≤ last) → ∀ x ∈ xs, y ≤ x) := by
  unfold nextAfter at h
  split at h
  case h_1 x rest hbeyond =>
    obtain rfl := Option.some.inj h
    obtain ⟨hmem, hle⟩ := foldl_min_spec x rest
    rw [← hbeyond] at hmem hle
    obtain ⟨hin, hlast⟩ := List.mem_filter.mp hmem
    have hlast : last < _ := of_decide_eq_true hlast
    refine ⟨hin, fun z hz hz' => ⟨hlast, hle z (List.mem_filter.mpr ⟨hz, decide_eq_true hz'⟩)⟩, fun hall => ?_⟩
    exact absurd (hall _ hin) (by omega)
  case h_2 hbeyond =>
    have hnone : ∀ x ∈ xs, ¬ last < x := by simpa [List.filter_eq_nil_iff] using hbeyond
    split at h
    · obtain rfl := Option.some.inj h
      obtain ⟨hmem, hle⟩ := foldl_min_spec _ _
      exact ⟨hmem, fun z hz hz' => absurd hz' (hnone z hz), fun _ => hle⟩
    · cases h

theorem nextAfter_of_mem (last : Nat) {x : Nat} {xs : List Nat} (hx : x ∈ xs) : ∃ y, nextAfter last xs = some y ∧ y ∈ xs := by
  cases h : nextAfter last xs with
  | some y => exact ⟨y, rfl, (nextAfter_spec h).1⟩
  | none =>
    unfold nextAfter at h
    split at h
    · cases h
    · split at h
      · cases h
      · cases hx

theorem noteHolds_counted {hs : List (Nat × Nat × QCmd × Nat)} (h : ∀ h ∈ hs, h.2.2.2 = 0 ∨ 5 < h.2.2.2 ∨ h.2.2.1.held = true) (d : Dev) :
    noteHolds hs d = d := by
  unfold noteHolds
  induction hs with
  | nil => rfl
  | cons a rest ih =>
    rw [List.foldl_cons, if_pos (h a (List.mem_cons_self ..))]
    exact ih fun x hx => h x (List.mem_cons_of_mem _ hx)

theorem admitHeads_none {d : Dev} (h : ∀ h ∈ heads d, h.2.2.2 ≠ 0) : admitHeads d = noteHolds (heads d) d := by
  have hok : (heads d).filter (fun h => decide (h.2.2.2 = 0)) = [] := by
    rw [List.filter_eq_nil_iff]
    exact fun x hx => by simp [h x hx]
  simp [admitHeads, hok, nextAfter_nil]

/-- A head belongs to the Kennel of its queue's function. -/
theorem heads_kennel {d : Dev} {h : Nat × Nat × QCmd × Nat} (hmem : h ∈ heads d) : h.2.1 = fnKennel d (h.1 / 65536 / 64) (h.1 / 65536 % 64) := by
  rw [heads_eq, List.mem_filterMap] at hmem
  obtain ⟨p, -, hp⟩ := hmem
  obtain ⟨q, -, hq⟩ := Option.map_eq_some_iff.mp hp
  rw [← hq]

/-- The best class of the admissible heads is that of one of them. -/
theorem foldl_rank_spec {α : Type} (f : α → Nat) (r : Nat) (xs : List α) :
    (∀ x ∈ xs, xs.foldl (fun r x => min r (f x)) r ≤ f x) ∧
      (xs.foldl (fun r x => min r (f x)) r = r ∨ ∃ x ∈ xs, f x = xs.foldl (fun r x => min r (f x)) r) := by
  have hmap : xs.foldl (fun r x => min r (f x)) r = (xs.map f).foldl min r := by rw [List.foldl_map]
  obtain ⟨hmem, hle⟩ := foldl_min_spec r (xs.map f)
  rw [hmap]
  refine ⟨fun x hx => hle _ (List.mem_cons_of_mem _ (List.mem_map_of_mem hx)), ?_⟩
  rcases List.mem_cons.mp hmem with h | h
  · exact .inl h
  · exact .inr (List.mem_map.mp h)

theorem admitHeads_some {d : Dev} (hcls : ∀ h ∈ heads d, (kenOf d h.2.1).cls < 4) (hsome : ∃ h ∈ heads d, h.2.2.2 = 0) :
    ∃ h ∈ heads d, h.2.2.2 = 0 ∧ (∀ g ∈ heads d, g.2.2.2 = 0 → (kenOf d h.2.1).cls ≤ (kenOf d g.2.1).cls) ∧
      admitHeads d = admitHead h.1 h.2.2.1 (noteHolds (heads d) d) := by
  obtain ⟨h0, hmem0, hok0⟩ := hsome
  unfold admitHeads
  extract_lets hs d1 ok rank ks
  have hin : ∀ h, h ∈ ok ↔ h ∈ heads d ∧ h.2.2.2 = 0 := fun h => by simp [ok, hs]
  obtain ⟨hle, hattained⟩ := foldl_rank_spec (fun h : Nat × Nat × QCmd × Nat => (kenOf d h.2.1).cls) 4 ok
  have hlow : rank < 4 := lt_of_le_of_lt (hle h0 ((hin h0).mpr ⟨hmem0, hok0⟩)) (hcls h0 hmem0)
  obtain ⟨best, hbest, hrank⟩ := hattained.resolve_left (fun h => by change rank = 4 at h; omega)
  obtain ⟨k, hk, hkmem⟩ := nextAfter_of_mem (tabGetD d.host.rrKennel rank 0xFFFFFFFF) (x := best.2.1) (xs := ks)
    (List.mem_map.mpr ⟨best, List.mem_filter.mpr ⟨hbest, decide_eq_true hrank⟩, rfl⟩)
  obtain ⟨g, hg, hgk⟩ := List.mem_map.mp hkmem
  obtain ⟨hgok, hgrank⟩ := List.mem_filter.mp hg
  have hgrank : (kenOf d g.2.1).cls = rank := of_decide_eq_true hgrank
  obtain ⟨qk, hqk, hqkmem⟩ := nextAfter_of_mem (tabGetD d.host.rrQueue k 0xFFFFFFFFFF) (x := g.1)
    (xs := (ok.filter (fun h => decide (h.2.1 = k))).map (fun h => h.1))
    (List.mem_map.mpr ⟨g, List.mem_filter.mpr ⟨hgok, decide_eq_true hgk⟩, rfl⟩)
  obtain ⟨q, hq, hqqk⟩ := List.mem_map.mp hqkmem
  obtain ⟨hqok, hqken⟩ := List.mem_filter.mp hq
  have hqken : q.2.1 = k := of_decide_eq_true hqken
  rw [hk]
  dsimp only
  rw [hqk]
  dsimp only
  obtain ⟨h, hfind⟩ := Option.isSome_iff_exists.mp ((List.find?_isSome (p := fun h => decide (h.1 = qk))).mpr
    ⟨q, hqok, decide_eq_true hqqk⟩)
  obtain ⟨hmem, hok⟩ := (hin h).mp (List.mem_of_find?_eq_some hfind)
  have hhqk : h.1 = qk := by simpa using List.find?_some hfind
  have hken : h.2.1 = k := by
    rw [← hqken, heads_kennel hmem, heads_kennel ((hin q).mp hqok).1, hhqk, hqqk]
  rw [hfind]
  refine ⟨h, hmem, hok, fun x hx hx0 => ?_, by rw [hhqk]⟩
  rw [hken, ← hgk, hgrank]
  exact hle x ((hin x).mpr ⟨hx, hx0⟩)

theorem admitHead_refused {d d1 : Dev} {qk k : Nat} {q : QCmd} {st : NvStat} (hk : k = fnKennel d (qk / 65536 / 64) (qk / 65536 % 64))
    (hd1 : d1 = kenTake k q.cmd { d with host := { d.host with
      queues := tabMod d.host.queues qk [] List.tail, rrQueue := tabPut d.host.rrQueue k qk
      rrKennel := tabPut d.host.rrKennel (kenOf d k).cls k } })
    (hcheck : admitCheck d1 (qk / 65536 / 64) (qk / 65536 % 64) k q.cmd = .inl st) : admitHead qk q d =
      cqPost (qk / 65536 / 64) (qk / 65536 % 64) (qk % 65536) q.cmd.cid st 0 0 []
        (if q.cmd.op = .read then readStats (opNew d1 qk k q) 0 false d1 else d1) := by
  subst hk hd1
  unfold admitHead
  dsimp only
  rw [hcheck]

theorem admitHead_admitted {d d1 : Dev} {qk k : Nat} {q : QCmd} {victim : Option Nat} {n : Ns}
    (hk : k = fnKennel d (qk / 65536 / 64) (qk / 65536 % 64))
    (hd1 : d1 = kenTake k q.cmd { d with host := { d.host with
      queues := tabMod d.host.queues qk [] List.tail, rrQueue := tabPut d.host.rrQueue k qk
      rrKennel := tabPut d.host.rrKennel (kenOf d k).cls k } })
    (hcheck : admitCheck d1 (qk / 65536 / 64) (qk / 65536 % 64) k q.cmd = .inr victim) (hns : nsGet d1 q.cmd.nsid = some n) : ∃ a f,
      a = (if n.zoned && isZoneWrite q.cmd.op then zoneAssign q.cmd n victim d1
        else (q.cmd.slba, secureAdmit d1.host.nextTag k q.cmd n d1)) ∧
      f = seqAdmit q.cmd n.zoned a.2 ∧
      admitHead qk q d = kenPut { f.2 with host := { f.2.host with
        ops := tabPut f.2.host.ops f.2.host.nextTag { opNew d1 qk k q with
          lba := a.1, dispatched := n.zoned && isZoneWrite q.cmd.op, seq := f.1 }
        nextTag := f.2.host.nextTag + 1 } } k { kenOf f.2 k with outstanding := (kenOf f.2 k).outstanding + 1 } := by
  subst hk hd1
  refine ⟨_, _, rfl, rfl, ?_⟩
  unfold admitHead
  dsimp only
  rw [hcheck]
  dsimp only
  rw [hns]

/-- Settles O39, each part by the lemma on it. -/
theorem scheduleCommands : Obligations.ScheduleCommands := by
  refine ⟨fun d => Runs.of_does exec_admitCommand rfl, heads_eq, fun d k kib c x => heldBy_eq, fun d => admitHeads_none,
    fun d => admitHeads_some, fun last xs => ⟨fun h => h ▸ nextAfter_nil last, fun y => nextAfter_spec⟩, fun d hs h => noteHolds_counted h d,
    ?_, fun d qk k q => ⟨rfl, rfl, rfl, rfl, rfl, rfl, rfl, rfl, rfl, rfl⟩, ?_, ?_, fun d k => Runs.of_does (exec_holdLongExpiry k) rfl⟩
  · rintro d d1 qk p fn k q rfl rfl hk hd1
    exact ⟨fun st => admitHead_refused hk hd1, fun victim n => admitHead_admitted hk hd1⟩
  · rintro d k c x rfl
    rfl
  · rintro d c n victim rfl
    rfl

end Sys2Proof.Machine
end

section
/-!
PROOFS. The reads of a die, its suspends, and the programs and erases that start.
-/

namespace Sys2Proof.Machine

/-! The reads of a die. -/

theorem readDispatch_empty {d : Dev} {die : Nat} (h : (dieGet d die).rq = []) : readDispatch die d = d := by
  unfold readDispatch
  simp [h]

/-- The read whose data is already being read, with the run that reads it. -/
theorem readDispatch_joins {d : Dev} {die r0 r t : Nat} {rs : List Nat} {x : Run} (hrq : (dieGet d die).rq = r0 :: rs)
    (hfresh : ∀ q ∈ r0 :: rs, sampleStale d q = false)
    (hjoin : ((dieGet d die).rq.findSome? (fun r => match runGet d r with
        | some x => if x.step = 0 then (sameRun d r x).map (fun t => (r, t, x)) else none | none => none)) = some (r, t, x)) :
    readDispatch die d = attachRun r t x d := by
  unfold readDispatch
  extract_lets y attach
  have hy : y.rq = r0 :: rs := hrq
  have hstale : y.rq.find? (sampleStale d) = none := by
    rw [hy, List.find?_eq_none]
    exact fun q hq => by simp [hfresh q hq]
  have hattach : attach = some (r, t, x) := hjoin
  rw [hstale, hattach, hy]

section
variable {d : Dev} {die r : Nat} {rs : List Nat} (hrq : (dieGet d die).rq = r :: rs) (hfresh : ∀ q ∈ r :: rs, sampleStale d q = false)
  (halone : ∀ q ∈ r :: rs, ∀ x, runGet d q = some x → x.step = 0 → sameRun d q x = none)
include hrq hfresh halone

/-- No read joins another: what a die in service does then, and one out of service with a host's read. -/
theorem readDispatch_alone :
    ((dieUp d die = true ∨ (dieGet d die).st = 3) → readDispatch die d =
      if !domOn d.pwr (chOf die + 1) then (if gateOf d (chOf die + 1) = .hold then wakeReq (chOf die + 1) 2 d else gateRefused d)
      else if !chanRuns d (chOf die) then d
      else dispatchOn die d) ∧
    (∀ x tag i, dieUp d die = false → (dieGet d die).st ≠ 3 → runGet d r = some x → x.serves = .host tag i → readDispatch die d =
      loseOf (stepTo r (if (runRow (rqLeave r die d) x).isSome then 6 else 7) (rqLeave r die d))) := by
  unfold readDispatch
  extract_lets y attach
  have hy : y.rq = r :: rs := hrq
  have hstale : y.rq.find? (sampleStale d) = none := by
    rw [hy, List.find?_eq_none]
    exact fun q hq => by simp [hfresh q hq]
  have hattach : attach = none := by
    refine List.findSome?_eq_none_iff.mpr fun q hq => ?_
    rw [hy] at hq
    split
    case h_1 x hx =>
      split
      case isTrue hstep => rw [halone q hq x hx hstep]; rfl
      case isFalse => rfl
    · rfl
  rw [hstale, hattach, hy]
  refine ⟨fun hup => ?_, fun x tag i hdown hst hget hserves => ?_⟩
  · dsimp only
    rw [if_neg]
    rintro hout
    obtain ⟨hdown, hst⟩ : dieUp d die = false ∧ (dieGet d die).st ≠ 3 := by simpa [y] using hout
    rcases hup with hup | hup
    · simp [hup] at hdown
    · exact hst hup
  · dsimp only
    rw [if_pos (by simp [y, hdown, hst]), hget]
    dsimp only
    rw [hserves]

end

/-- The runs of one device are those of another but for their states. -/
def SameReads (e d : Dev) : Prop := ∀ r y, runGet e r = some y → ∃ x st, runGet d r = some x ∧ y = { x with st := st }

theorem SameReads.trans {d e f : Dev} (h : SameReads f e) (h' : SameReads e d) : SameReads f d := by
  intro r z hz
  obtain ⟨y, st, hy, rfl⟩ := h r z hz
  obtain ⟨x, st', hx, rfl⟩ := h' r y hy
  exact ⟨x, st, hx, rfl⟩

theorem SameReads.of_runs {d e : Dev} (h : e.fl.runs = d.fl.runs) : SameReads e d :=
  fun r y hy => ⟨y, y.st, (runGet_of_runs h).symm.trans hy, rfl⟩

theorem sameReads_reask (rs : List Nat) (d : Dev) : SameReads (reask rs d) d := by
  intro r y hy
  have hmap := tabGet_mapVal (f := fun q : Nat × Run => if q.2.st = .waiting ∧ rs.contains q.1 = true then (q.1, { q.2 with st := .again }) else q)
    (fun q => by split <;> rfl) d.fl.runs r
  obtain ⟨x, hx, hxy⟩ := Option.map_eq_some_iff.mp (hmap.symm.trans hy)
  dsimp only at hxy
  split at hxy
  · exact ⟨x, .again, hx, hxy.symm⟩
  · exact ⟨x, x.st, hx, hxy.symm⟩

theorem sameReads_rqInsert (r : Nat) (x : Run) (d : Dev) : SameReads (rqInsert r x d) d :=
  (sameReads_reask _ _).trans (SameReads.of_runs rfl)

theorem sameReads_overflowFill (die n : Nat) (d : Dev) : SameReads (overflowFill die n d) d := by
  induction n generalizing d with
  | zero => exact SameReads.of_runs rfl
  | succ n ih =>
    rw [overflowFill]
    dsimp only
    split
    · exact SameReads.of_runs rfl
    · split
      · exact SameReads.of_runs rfl
      · split
        · exact (ih _).trans ((sameReads_rqInsert _ _ _).trans (SameReads.of_runs rfl))
        · exact SameReads.of_runs rfl

theorem resumeCheck_runs (die : Nat) (d : Dev) : (resumeCheck die d).fl.runs = d.fl.runs := by
  unfold resumeCheck
  extract_lets y
  split
  · split <;> rfl
  · rfl

theorem sameReads_rqLeave (r die : Nat) (d : Dev) : SameReads (rqLeave r die d) d :=
  SameReads.trans (SameReads.of_runs (resumeCheck_runs ..)) (SameReads.trans (sameReads_overflowFill die 255 _) (SameReads.of_runs rfl))

theorem runRow_st (d : Dev) (x : Run) (st : RunSt) : runRow d { x with st := st } = runRow d x := rfl

/-- A host's read of a die out of service goes on to the rebuild of its row, or is lost. -/
theorem readDispatch_down {d : Dev} {die r : Nat} {rs : List Nat} (hrq : (dieGet d die).rq = r :: rs)
    (hfresh : ∀ q ∈ r :: rs, sampleStale d q = false)
    (halone : ∀ q ∈ r :: rs, ∀ x, runGet d q = some x → x.step = 0 → sameRun d q x = none) {x : Run} (hdown : dieUp d die = false)
    (hst : (dieGet d die).st ≠ 3) (hget : runGet (rqLeave r die d) r = some x) (hserves : ∃ tag i, x.serves = .host tag i) :
    readDispatch die d = loseOf (stepTo r (if (runRow (rqLeave r die d) x).isSome then 6 else 7) (rqLeave r die d)) := by
  obtain ⟨tag, i, hserves⟩ := hserves
  obtain ⟨x, st, hx, rfl⟩ := sameReads_rqLeave r die d r x hget
  rw [runRow_st]
  exact (readDispatch_alone hrq hfresh halone).2 x tag i hdown hst hx hserves

theorem readDispatch_open {d : Dev} {die r : Nat} {rs : List Nat} (hrq : (dieGet d die).rq = r :: rs)
    (hfresh : ∀ q ∈ r :: rs, sampleStale d q = false)
    (halone : ∀ q ∈ r :: rs, ∀ x, runGet d q = some x → x.step = 0 → sameRun d q x = none)
    (hup : dieUp d die = true ∨ (dieGet d die).st = 3) :
    (domOn d.pwr (chOf die + 1) = false → gateOf d (chOf die + 1) = .hold → readDispatch die d = wakeReq (chOf die + 1) 2 d) ∧
    (domOn d.pwr (chOf die + 1) = false → gateOf d (chOf die + 1) ≠ .hold → readDispatch die d = { d with hw := irq d.hw irqPwr 1 }) ∧
    (domOn d.pwr (chOf die + 1) = true → chanRuns d (chOf die) = false → readDispatch die d = d) ∧
    (domOn d.pwr (chOf die + 1) = true → chanRuns d (chOf die) = true → readDispatch die d = dispatchOn die d) := by
  rw [(readDispatch_alone hrq hfresh halone).1 hup]
  refine ⟨fun hon hgate => by simp [hon, hgate], fun hon hgate => ?_, fun hon hrun => by simp [hon, hrun], fun hon hrun => by simp [hon, hrun]⟩
  simp [hon, hgate, gateRefused]

section
variable {d : Dev} {die : Nat} {qs : List (Nat × Run)} {guard : Bool}
  (hqs : qs = (dieGet d die).rq.filterMap (fun r => (runGet d r).map (fun x => (r, x))))
  (hguard : guard = ((dieGet d die).guard && !hasS0 d (dieGet d die)))
include hguard

theorem dispatchOn_guarded (h : guard = true) : dispatchOn die d = d := by
  subst hguard
  have hfind : ∀ qs : List (Nat × Run), qs.find? (fun _ => false) = none := fun qs => by simp [List.find?_eq_none]
  unfold dispatchOn
  dsimp only
  rw [h]
  simp only [Bool.not_true, Bool.and_false, hfind, if_true]

include hqs

theorem dispatchOn_starts {r : Nat} {x : Run} (h : guard = false)
    (hfind : qs.find? (fun q => planeFree d die (runPlanes d q.2) && mayRead d die q.1 q.2) = some (r, x)) :
    dispatchOn die d = if pauseFree d (chOf die) then readStart die r d else d := by
  subst hqs hguard
  unfold dispatchOn
  dsimp only
  rw [h]
  simp only [Bool.not_false, Bool.and_true]
  rw [hfind]

theorem dispatchOn_asks (h : guard = false) (hnone : ∀ q ∈ qs, planeFree d die (runPlanes d q.2) = false ∨ mayRead d die q.1 q.2 = false) :
    (∀ r x, qs.find? (fun q => decide (q.2.st = .again)) = some (r, x) → dispatchOn die d = takePath r x d) ∧
    ((∀ q ∈ qs, q.2.st ≠ .again) → dispatchOn die d = match qs.head? with
      | some q => if q.2.st = .waiting then d else takePath q.1 q.2 d
      | none => d) := by
  subst hqs hguard
  have hfind : List.find? (fun q => planeFree d die (runPlanes d q.2) && mayRead d die q.1 q.2)
      ((dieGet d die).rq.filterMap (fun r => (runGet d r).map (fun x => (r, x)))) = none := by
    rw [List.find?_eq_none]
    intro q hq
    rcases hnone q hq with h | h <;> simp [h]
  unfold dispatchOn
  dsimp only
  rw [h]
  simp only [Bool.not_false, Bool.and_true]
  rw [hfind]
  refine ⟨fun r x hagain => by rw [hagain]; rfl, fun hagain => ?_⟩
  have hnever : List.find? (fun q : Nat × Run => decide (q.2.st = .again))
      ((dieGet d die).rq.filterMap (fun r => (runGet d r).map (fun x => (r, x)))) = none := by
    rw [List.find?_eq_none]
    exact fun q hq => by simp [hagain q hq]
  rw [hnever]
  dsimp only
  rw [if_neg Bool.false_ne_true]
  cases List.head? _ <;> rfl

end

theorem readStart_reads {d : Dev} {die r : Nat} {x : Run} (hget : runGet d r = some x) (hbin : needsBin (prof d) x = false) :
    ∃ y e, readStart die r d = e ∧
    y.st = .reading ∧ y.since = d.hw.time.toNat ∧ y.loc = x.loc ∧ y.serves = x.serves ∧
    e = runMark r (overflowFill die 255 (startMark (chOf die) (diePut (busUse die (readCmds (prof d) (if x.sent = true then x else { x with
        bin := y.bin, sent := true }) (dieGet d die).vec (wantVec (prof d) (if x.sent = true then x else { x with
        bin := y.bin, sent := true }) [])) (runPut d r y)) die { dieGet d die with
      rq := (dieGet d die).rq.filter (fun q => decide (q ≠ r)), reading := (dieGet d die).reading ++ [r]
      vec := leftVec (prof d) (if x.sent = true then x else { x with bin := y.bin, sent := true })
        (wantVec (prof d) (if x.sent = true then x else { x with bin := y.bin, sent := true }) []) }))) := by
  unfold readStart
  rw [hget]
  dsimp only
  generalize hx0 : (if x.sent = true then x else _) = x0
  have hneeds : needsBin (prof d) x0 = false := by
    rw [← hx0]
    split <;> exact hbin
  have hsent : (if x.sent = true then x else { x with bin := x0.bin, sent := true }) = x0 := by
    rw [← hx0]
    split <;> rfl
  have hloc : x0.loc = x.loc ∧ x0.serves = x.serves := by
    rw [← hx0]
    split <;> exact ⟨rfl, rfl⟩
  simp only [hneeds, Bool.false_eq_true, if_false]
  refine ⟨{ x0 with
    st := .reading, since := d.hw.time.toNat, vec := if runMode x0 = 3 then wantVec (prof d) x0 [] else x0.vec
    used := if classJob x0 ∨ runMode x0 = 3 ∨ runMode x0 = 4 then x0.used else wantVec (prof d) x0 [] }, _, rfl, rfl, rfl, hloc.1, hloc.2, ?_⟩
  dsimp only
  rw [hsent]

/-! The path of a read that cannot start. -/

/-- The choice of R131 to R133, from the expected time of the wait, and the expected time and the cost of a suspend and of a read around. -/
def pathOf (due ew : Nat) (sus arn : Option (Nat × Nat)) : Path :=
  if ew ≤ due then .wait
  else
    let s := match sus with | some q => if q.1 ≤ due then some q.2 else none | none => none
    let a := match arn with | some q => if q.1 ≤ due then some q.2 else none | none => none
    match s, a with
    | some cs, some ca => if cs ≤ ca then .suspend else .around
    | some _, none => .suspend
    | none, some _ => .around
    | none, none =>
      let es := match sus with | some q => q.1 | none => ew
      let ea := match arn with | some q => q.1 | none => ew
      if ew ≤ es ∧ ew ≤ ea then .wait else if es ≤ ea then .suspend else .around

/-- A suspend is chosen only where one is possible, and a read around likewise. -/
theorem pathOf_spec (due ew : Nat) (sus arn : Option (Nat × Nat)) :
    (pathOf due ew sus arn = .suspend → sus.isSome) ∧ (pathOf due ew sus arn = .around → arn.isSome) := by
  unfold pathOf
  cases sus <;> cases arn <;> grind

theorem pickPath_eq (d : Dev) (r : Nat) (x : Run) : ∃ due ew sus arn, pickPath d r x = pathOf due ew sus arn ∧
    (sus.isSome → ∃ a, (dieGet d x.loc.die).arr = some a ∧ mayHold d a = true ∧ classHolds x.cls a = true) ∧
    (arn.isSome → ∃ s, aroundRow d x = some s) := by
  refine ⟨_, _, _, _, rfl, fun hsus => ?_, fun harn => ?_⟩
  · split at hsus
    · rename_i a ha
      split at hsus
      · rename_i hmay
        obtain ⟨hmay, hcls⟩ := Bool.and_eq_true_iff.mp hmay
        exact ⟨a, ha, hmay, hcls⟩
      · cases hsus
    · cases hsus
  · split at harn
    · rename_i s hs
      exact ⟨s, hs⟩
    · cases harn

theorem pickPath_suspend {d : Dev} {r : Nat} {x : Run} (h : pickPath d r x = .suspend) :
    ∃ a, (dieGet d x.loc.die).arr = some a ∧ mayHold d a = true ∧ classHolds x.cls a = true := by
  obtain ⟨due, ew, sus, arn, hpath, hsus, -⟩ := pickPath_eq d r x
  exact hsus ((pathOf_spec due ew sus arn).1 (hpath.symm.trans h))

theorem pickPath_around {d : Dev} {r : Nat} {x : Run} (h : pickPath d r x = .around) : ∃ s, aroundRow d x = some s := by
  obtain ⟨due, ew, sus, arn, hpath, -, harn⟩ := pickPath_eq d r x
  exact harn ((pathOf_spec due ew sus arn).2 (hpath.symm.trans h))

theorem aroundRow_some {d : Dev} {x : Run} {s : Sb} (h : aroundRow d x = some s) :
    x.cls = 0 ∧ bit (rd d.hw R.HERDER_CTRL) 2 = true ∧ balCovers d (packOf x.loc.die) (s.members.length - 1) = true := by
  unfold aroundRow at h
  extract_lets never at h
  split at h
  · cases h
  · split at h
    · cases h
    · extract_lets n at h
      split at h
      · obtain rfl := Option.some.inj h
        simp_all [n]
      · cases h

theorem takePath_around {d : Dev} {r : Nat} {x : Run} (h : pickPath d r x = .around) : ∃ s, aroundRow d x = some s ∧ x.cls = 0 ∧
    bit (rd d.hw R.HERDER_CTRL) 2 = true ∧ balCovers d (packOf x.loc.die) (s.members.length - 1) = true ∧
    takePath r x d = rqLeave r x.loc.die (memberReads r false { x with step := 0, sub := 1 } s (balCharge (packOf x.loc.die)
      (s.members.length - 1) (kenCount (fun k => { k with arounds := k.arounds + 1 }) x.kennel d))) := by
  obtain ⟨s, hs⟩ := pickPath_around h
  obtain ⟨hcls, hbit, hbal⟩ := aroundRow_some hs
  refine ⟨s, hs, hcls, hbit, hbal, ?_⟩
  unfold takePath
  rw [h, hs]

theorem mayHold_iff (d : Dev) (a : ArrRun) : mayHold d a = true ↔ bit (rd d.hw R.HERDER_CTRL) 1 = true ∧ a.suspended = false ∧
    ((a.op = .program ∧ a.suspends < (prof d).maxSusP ∧ (prof d).tRunP ≤ stretchNs d a) ∨
     (a.op = .erase ∧ a.suspends < (prof d).maxSusE ∧ (prof d).tRunE ≤ stretchNs d a)) := by
  unfold mayHold
  cases hop : a.op <;> simp [and_assoc]

theorem classHolds_iff (cls : Nat) (a : ArrRun) : classHolds cls a = true ↔ cls = 0 ∨ (cls = 1 ∧ a.op = .erase) := by
  simp [classHolds]

/-! The program guard, suspends and resumes. -/

theorem pwaitExpiry_idle {d : Dev} {die : Nat} (h : (dieGet d die).pq = []) : pwaitExpiry die d = d := by
  unfold pwaitExpiry
  dsimp only
  rw [h]

theorem pwaitExpiry_waits {d : Dev} {die n : Nat} {j : FJob} {js : List FJob} (hpq : (dieGet d die).pq = j :: js)
    (hn : n = fld (rd d.hw R.HERDER_PWAIT) 0 16) : pwaitExpiry die d =
      if n ≠ 0 ∧ j.since.toNat + n * 2500 ≤ d.hw.time.toNat ∧ (dieGet d die).guard = false ∧
        ((dieGet d die).rq ≠ [] ∨ (dieGet d die).reading ≠ []) ∧ hasS0 d (dieGet d die) = false
      then diePut { d with hw := irq d.hw irqHerder 5 } die { dieGet d die with guard := true } else d := by
  subst hn
  unfold pwaitExpiry
  dsimp only
  rw [hpq]
  dsimp only
  rw [← ite_not]
  refine if_congr ?_ rfl rfl
  simp [and_assoc, imp_iff_not_or]

theorem suspendTakes_none {d : Dev} {die : Nat} (complete pass verified : Bool) (h : ∀ a, (dieGet d die).arr = some a → a.suspending = false) :
    suspendTakes die complete pass verified d = d := by
  unfold suspendTakes
  dsimp only
  split
  · rfl
  · rename_i a ha
    rw [if_pos (by simp [h a ha])]

theorem suspendTakes_takes {d : Dev} {die : Nat} (pass verified : Bool) {a : ArrRun} (ha : (dieGet d die).arr = some a)
    (hs : a.suspending = true) :
    suspendTakes die true pass verified d = arrEnd die pass true 0xF#4 verified
      (diePut d die { dieGet d die with arr := some { a with suspending := false } }) ∧
    suspendTakes die false pass verified d = resumeCheck die (diePut (match a.kennel with
        | some k => kenCount (fun x => { x with suspends := x.suspends + 1 }) k d
        | none => d) die { dieGet d die with
      arr := some { a with suspending := false, suspended := true, suspends := a.suspends + 1, ran := a.ran + sinceNs d a.since.toNat
                           heldAt := d.hw.time, due := false, kennel := none, heldQ := (dieGet d die).rq } }) := by
  constructor <;>
  · unfold suspendTakes
    dsimp only
    rw [ha]
    dsimp only
    rw [hs]
    rfl

theorem settled_congr {f g : Dev → Dev} {d : Dev} (h : f d = g d) : settled f d = settled g d := by
  unfold settled
  rw [h]

theorem holdExpiry_none {d : Dev} {die : Nat} (h : ∀ a, (dieGet d die).arr = some a → a.suspended = false) : holdExpiry die d = d := by
  unfold holdExpiry
  dsimp only
  split
  · rename_i a ha
    rw [if_neg (by simp [h a ha])]
  · rfl

theorem holdExpiry_due {d : Dev} {die : Nat} {a : ArrRun} (ha : (dieGet d die).arr = some a) (hs : a.suspended = true) :
    holdExpiry die d = resumeCheck die (diePut d die { dieGet d die with arr := some { a with due := true } }) := by
  unfold holdExpiry
  dsimp only
  rw [ha]
  simp [hs]

/-- A read queued at the die that a suspended operation serves. -/
theorem more_iff (d : Dev) (die : Nat) : (dieGet d die).rq.any (fun r => match runGet d r with | some x => mayRead d die r x | none => false) = true ↔
    ∃ r ∈ (dieGet d die).rq, ∃ x, runGet d r = some x ∧ mayRead d die r x = true := by
  rw [List.any_eq_true]
  refine exists_congr fun r => and_congr_right fun _ => ?_
  cases hget : runGet d r <;> simp

theorem resumeCheck_resumes {d : Dev} {die : Nat} {a : ArrRun} (ha : (dieGet d die).arr = some a) (hs : a.suspended = true)
    (hr : (dieGet d die).reading = [])
    (hdue : a.due = true ∨ ∀ r ∈ (dieGet d die).rq, ∀ x, runGet d r = some x → mayRead d die r x = false) :
    resumeCheck die d = busUse die [if a.op = .erase then .eraseResume else .programResume] (diePut d die { dieGet d die with
      arr := some { a with suspended := false, due := false, since := d.hw.time, heldQ := [] } }) := by
  unfold resumeCheck
  extract_lets y more
  have hy : y.arr = some a := ha
  rw [hy]
  have hmore : a.due = true ∨ more = false := by
    refine hdue.imp_right fun hall => Bool.eq_false_iff.mpr fun hm => ?_
    obtain ⟨r, hmem, x, hx, hread⟩ := (more_iff d die).mp hm
    simp [hall r hmem x hx] at hread
  dsimp only
  rw [if_pos (by rcases hmore with h | h <;> simp [y, hs, hr, h])]
  exact congrArg (fun c => busUse die [c] _) (by cases a.op <;> rfl)

theorem resumeCheck_holds {d : Dev} {die : Nat} {a : ArrRun} (ha : (dieGet d die).arr = some a)
    (h : a.suspended = false ∨ (dieGet d die).reading ≠ [] ∨
      (a.due = false ∧ ∃ r ∈ (dieGet d die).rq, ∃ x, runGet d r = some x ∧ mayRead d die r x = true)) : resumeCheck die d = d := by
  unfold resumeCheck
  extract_lets y more
  have hy : y.arr = some a := ha
  rw [hy]
  dsimp only
  rw [if_neg]
  rintro hgo
  simp only [Bool.and_eq_true, Bool.or_eq_true, Bool.not_eq_true', List.isEmpty_iff] at hgo
  obtain ⟨⟨hs, hr⟩, hdue⟩ := hgo
  rcases h with h | h | ⟨hnot, hread⟩
  · simp [hs] at h
  · exact h hr
  · have hmore : more = true := (more_iff d die).mpr hread
    simp [hnot, hmore] at hdue

/-! Data that has reached the host, and data that has reached DRAM. -/

theorem hostTransfer_none {d : Dev} {tag : Nat} (h : ∀ o, tabGet d.host.ops tag = some o → o.st ≠ .ready ∨ o.ciphered = false) :
    hostTransfer tag d = d := by
  unfold hostTransfer
  split
  · rfl
  · rename_i o ho
    rw [if_pos (h o ho)]

theorem hostTransfer_moves {d e : Dev} {tag : Nat} {o : Op} {bs : List Nat} (ho : tabGet d.host.ops tag = some o) (hst : o.st = .ready)
    (hc : o.ciphered = true) (hbs : (bs, e) = (if o.bufs = [] then bufsTake o.port o.cmd.nlb d else (o.bufs, d))) :
    hostTransfer tag d = if bs = [] then e else ladderCheck (readClose tag .success (readDie d o) o.out
      (opMod tag (fun q => { q with bufs := bs }) e)) := by
  have hread : readBufs o d = (bs, e) := by
    rw [hbs]
    exact if_congr List.isEmpty_iff rfl rfl
  unfold hostTransfer
  rw [ho]
  dsimp only
  rw [if_neg (by simp [hst, hc]), hread]
  exact if_congr List.isEmpty_iff rfl rfl

theorem readClose_of_op {d : Dev} {tag : Nat} {o : Op} (ho : tabGet d.host.ops tag = some o) (die : Nat) (st : NvStat) (data : List Nat) :
    readClose tag st die data d =
      opEnd tag st 0 0 data (if o.cmd.op = .read ∧ o.quiet = false then readStats o die (decide (st = .success)) d else d) := by
  unfold readClose
  rw [ho]

theorem writeStaged_none {d : Dev} {tag : Nat} (h : ∀ o, tabGet d.host.ops tag = some o → o.st ≠ .staging ∨ o.ciphered = false) :
    writeStaged tag d = d := by
  unfold writeStaged
  split
  · rfl
  · rename_i o ho
    split
    · rfl
    · exact if_pos (by simpa using h o ho)

theorem writeStaged_stages {d : Dev} {tag : Nat} {o : Op} {n : Ns} (ho : tabGet d.host.ops tag = some o) (hst : o.st = .staging)
    (hc : o.ciphered = true) (hn : nsGet d o.cmd.nsid = some n) : ∃ d1 d2 d3,
    d1 = opMod tag (fun o => { o with st := .staged, bufs := [] }) (fdpCount o.cmd.nlb o.cmd.nlb 0 (bufsFree o.port o.bufs
      (dirtyAdd o.cmd.nlb (if n.zoned then stageZoned o n d else stageConv o n d)))) ∧
    d2 = postWrites (if o.quiet then opEnd tag .success 0 0 [] d1 else d1) ∧
    d3 = (if n.zoned then (List.range o.cmd.nlb).foldl (fun x i =>
      rowReady (zoneSb (zoneGet d2 (zkey o.cmd.nsid (o.lba / n.zsze)))) ((o.lba + i) % n.zsze) x) d2 else d2) ∧
    writeStaged tag d = parkIfDirty (placeLoose d3) := by
  refine ⟨_, _, _, rfl, rfl, rfl, ?_⟩
  unfold writeStaged
  rw [ho]
  dsimp only
  rw [hn]
  dsimp only
  rw [if_neg (by simp [hst, hc])]

theorem postWrites_none {d : Dev} (h : ∀ q ∈ d.host.ops, q.2.st ≠ .staged) : postWrites d = d := by
  unfold postWrites
  extract_lets ready
  have hready : ready = [] := by
    refine List.filter_eq_nil_iff.mpr fun q hq => ?_
    simp [h q hq]
  rw [hready]
  rfl

theorem lowerDone_iff (d : Dev) (n : Ns) (o : Op) : lowerDone d n o = true ↔ n.zoned = false ∨ ∀ q ∈ d.host.ops,
    isZoneWrite q.2.cmd.op = true → q.2.cmd.nsid = o.cmd.nsid → q.2.lba / n.zsze = o.lba / n.zsze → q.2.lba < o.lba → q.2.st = .staged := by
  unfold lowerDone
  rw [Bool.or_eq_true, List.all_eq_true, Bool.not_eq_true']
  refine or_congr_right (forall₂_congr fun q _ => ?_)
  simp only [Bool.or_eq_true, Bool.not_eq_true', decide_eq_true_eq]
  rw [← Bool.not_eq_true, ← Nat.not_lt]
  tauto

/-! Programs and erases that start. -/

theorem opStart_waits {d : Dev} {die : Nat} (h : ∀ j js, (dieGet d die).pq = j :: js → j.token = false ∨ jobMay d die = false ∨
    spaced d (packOf die) = false ∨ chanRuns d (chOf die) = false ∨ pauseFree d (chOf die) = false ∨ encReady d j = false) :
    opStart die d = d := by
  unfold opStart
  dsimp only
  split
  · rfl
  · rename_i j js hpq
    split
    · rfl
    · rename_i hgo
      rw [if_pos]
      simp only [Bool.or_eq_true, Bool.not_eq_true', not_or, Bool.not_eq_false] at hgo
      obtain ⟨⟨⟨⟨htoken, hrun⟩, hpause⟩, hspaced⟩, hmay⟩ := hgo
      have := h j js hpq
      simp_all

theorem pilotMark_frame (die : Nat) (j : FJob) (v : Nat) (d : Dev) : pilotMark die j v d = { d with med := (pilotMark die j v d).med } := by
  unfold pilotMark
  split <;> rfl

/-- The marking of a pilot row reads and changes the media alone. -/
theorem pilotMark_med (die : Nat) (j : FJob) (v : Nat) {d e : Dev} (h : e.med = d.med) : (pilotMark die j v e).med = (pilotMark die j v d).med := by
  unfold pilotMark
  split
  · simp [blkPut, blkGet, h]
  · exact h

theorem opStart_starts {d : Dev} {die : Nat} {j : FJob} {js : List FJob} (hpq : (dieGet d die).pq = j :: js) (htoken : j.token = true)
    (hrun : chanRuns d (chOf die) = true) (hpause : pauseFree d (chOf die) = true) (hspaced : spaced d (packOf die) = true)
    (hmay : jobMay d die = true) (hready : encReady d j = true) :
    (j.erase = false → domOn d.pwr (87 + chOf die / 12) = false → opStart die d = wakeReq (87 + chOf die / 12) 2 d) ∧
    ((j.erase = true ∨ domOn d.pwr (87 + chOf die / 12) = true) → ∃ e, opStart die d = e ∧
      (dieGet e die).pq = js ∧ (dieGet e die).guard = false ∧
      (dieGet e die).arr = some (arrNew (if j.erase then .erase else .program) (some j) d.hw.time) ∧
      tabGet e.fl.pacer.lastStart (packOf die) = some d.hw.time ∧ (chanGet e (chOf die)).lastStart = d.hw.time ∧
      (chanGet e (chOf die)).bus = some { ce := die % 32 / 8, lun := die % 8, cmds := jobCmds (prof d) j } ∧
      e.med = (pilotMark die j 1 d).med) := by
  unfold opStart
  dsimp only
  rw [hpq]
  dsimp only
  rw [if_neg (by simp [htoken, hrun, hpause, hspaced, hmay]), if_neg (by simp [hready])]
  refine ⟨fun he hon => if_pos (by simp [he, encDom, hon]), fun hgo => ?_⟩
  rw [if_neg (by rcases hgo with h | h <;> simp [encDom, h]), pilotMark_frame]
  refine ⟨_, rfl, ?_, ?_, ?_, ?_, ?_, ?_, ?_⟩
  · rw [dieGet_diePut]
  · rw [dieGet_diePut]
  · rw [dieGet_diePut]
  · exact tabGet_tabPut_self ..
  · simp [busUse, chanGet, startMark]
  · simp [busUse, chanGet, prof]
  · exact pilotMark_med die j 1 rfl

/-- Settles O40, each part by the lemma on it. -/
theorem dieSchedulingCommands : Obligations.DieSchedulingCommands := by
  have hok : ∀ {d : Dev} {die : Nat}, die < 32 * chCount d.fuse → dieOk d die = true := fun h => decide_eq_true h
  refine ⟨fun d die h => Runs.of_onUnit (exec_readDispatch die) (hok h) rfl, fun d die => readDispatch_empty, ?_, ?_,
    fun d die r x => readStart_reads, fun d die h => Runs.of_onUnit (exec_busyStatusReturn die) (hok h) rfl, ?_, ?_,
    fun d r x => takePath_around, mayHold_iff, classHolds_iff,
    fun d die h hpq => Runs.of_onUnit (exec_pwaitGuardExpiry die) (hok h) (pwaitExpiry_idle hpq),
    fun d die n j js h hpq hn => Runs.of_onUnit (exec_pwaitGuardExpiry die) (hok h) (pwaitExpiry_waits hpq hn),
    fun d die complete pass verified h => Runs.of_onUnit (exec_suspendTakesEffect die complete pass verified) (hok h) rfl,
    fun d die complete pass verified => suspendTakes_none complete pass verified,
    fun d die pass verified a => suspendTakes_takes pass verified, ?_, ?_,
    fun d die a => resumeCheck_resumes, fun d die a => resumeCheck_holds,
    fun d tag h => Runs.of_does (exec_hostTransferDone tag) (hostTransfer_none h), ?_,
    fun d tag die st data o ho => readClose_of_op ho die st data,
    fun d tag h => Runs.of_does (exec_writeDataStaged tag) (writeStaged_none h), ?_, fun d => postWrites_none, lowerDone_iff,
    fun d die h => Runs.of_onUnit (exec_operationStart die) (hok h) rfl, fun d die j js => opStart_starts, fun d die => opStart_waits⟩
  · intro d die r rs hrq hfresh
    exact ⟨fun t x q => readDispatch_joins hrq hfresh, fun halone => ⟨readDispatch_open hrq hfresh halone,
      fun x hdown hst hget hserves => readDispatch_down hrq hfresh halone hdown hst hget hserves⟩⟩
  · intro d die qs guard hqs hguard
    exact ⟨dispatchOn_guarded hguard, fun r x h => dispatchOn_starts hqs hguard h, fun h => dispatchOn_asks hqs hguard h⟩
  · intro d r x h
    unfold takePath
    rw [h]
  · intro d r x h
    refine ⟨?_, pickPath_suspend h⟩
    unfold takePath
    rw [h]
  · intro d die h hs
    exact Runs.of_onUnit (exec_suspendHoldExpiry die) (hok h) (settled_congr (holdExpiry_none hs))
  · intro d die a h ha hs
    exact Runs.of_onUnit (exec_suspendHoldExpiry die) (hok h) (settled_congr (holdExpiry_due ha hs))
  · intro d e tag o bs ho hst hc hbs
    have hmoves := hostTransfer_moves ho hst hc hbs
    exact ⟨fun h => Runs.of_does (exec_hostTransferDone tag) (hmoves.trans (if_pos h)),
      fun h => Runs.of_does (exec_hostTransferDone tag) (hmoves.trans (if_neg h))⟩
  · intro d tag o n ho hst hc hn
    obtain ⟨d1, d2, d3, h1, h2, h3, hstaged⟩ := writeStaged_stages ho hst hc hn
    exact ⟨d1, d2, d3, h1, h2, h3, Runs.of_does (exec_writeDataStaged tag) hstaged⟩

end Sys2Proof.Machine
end

section
/-!
PROOFS. A read begins: its blocks, what each shows, and the completion of a command.
-/

namespace Sys2Proof.Machine

theorem onOp_absent {d : Dev} {tag : Nat} (h : tabGet d.host.ops tag = none) (op : IoOp) (f : Dev → Dev) : onOp op tag f d = d := by
  unfold onOp
  rw [h]

theorem onOp_kind {d : Dev} {tag : Nat} {o : Op} {op : IoOp} (h : tabGet d.host.ops tag = some o) (hop : o.cmd.op = op) (f : Dev → Dev) :
    onOp op tag f d = f d := by
  unfold onOp
  rw [h]
  exact if_pos hop

theorem cqPost_ops (p fn sq cid : Nat) (st : NvStat) (dw0 dw1 : Nat) (data : List Nat) (d : Dev) :
    (cqPost p fn sq cid st dw0 dw1 data d).host.ops = d.host.ops := by
  unfold cqPost widthRestore
  split
  · split <;> rfl
  · rfl

theorem cqPost_cq (p fn sq cid : Nat) (st : NvStat) (dw0 dw1 : Nat) (data : List Nat) (d : Dev) :
    (cqPost p fn sq cid st dw0 dw1 data d).host.cq = d.host.cq ++ [cqeOf d p fn sq cid st dw0 dw1 data] := by
  unfold cqPost widthRestore
  split
  · split <;> rfl
  · rfl

theorem opEnd_ends {d e : Dev} {tag dw0 dw1 : Nat} {st : NvStat} {data : List Nat} {o : Op} (ho : tabGet d.host.ops tag = some o)
    (he : e = bufsFree o.port o.bufs { d with host := { d.host with ops := tabDel d.host.ops tag } }) :
    opEnd tag st dw0 dw1 data d = hmbSettle (if o.quiet then
        (if (kenGet e o.kennel).isSome then kenPut e o.kennel { kenOf e o.kennel with outstanding := (kenOf e o.kennel).outstanding - 1 } else e)
      else cqPost o.port o.fn o.sq o.cmd.cid st dw0 dw1 data
        (if (kenGet e o.kennel).isSome then kenPut e o.kennel { kenOf e o.kennel with outstanding := (kenOf e o.kennel).outstanding - 1 } else e)) := by
  subst he
  unfold opEnd
  rw [ho]

theorem hmbSettle_waits {d : Dev} (h : ∀ c ∈ d.host.hmbWait, homeOps d c.port = true) : hmbSettle d = d := by
  have hnone : d.host.hmbWait.filter (fun c => !homeOps d c.port) = [] := List.filter_eq_nil_iff.mpr fun c hc => by simp [h c hc]
  have hall : d.host.hmbWait.filter (fun c => homeOps d c.port) = d.host.hmbWait := List.filter_eq_self.mpr h
  unfold hmbSettle
  rw [hnone, hall]
  rfl

/-! A read begins. -/

/-- What a read goes on to once each of its blocks has begun: it waits for its runs, or it has an unrecovered block, or all its data. -/
def readGoesOn (tag : Nat) (v : Bool) (nsid : Nat) (e : Dev) : Dev :=
  match tabGet e.host.ops tag with
  | none => e
  | some q =>
    if q.runs ≠ 0 then e
    else match q.bad with
      | some lba => readClose tag .unrecoveredRead (readDie e q) [] { e with host := { e.host with errLog := e.host.errLog ++ [(nsid, lba)] } }
      | none => if v then opEnd tag .success 0 0 [] e else opMod tag (fun q => { q with st := .ready }) e

theorem readGoesOn_of_op {tag : Nat} {v : Bool} {nsid : Nat} {e : Dev} {q : Op} (hq : tabGet e.host.ops tag = some q) :
    (q.runs ≠ 0 → readGoesOn tag v nsid e = e) ∧
    (∀ lba, q.runs = 0 → q.bad = some lba → readGoesOn tag v nsid e = readClose tag .unrecoveredRead (readDie e q) []
      { e with host := { e.host with errLog := e.host.errLog ++ [(nsid, lba)] } }) ∧
    (q.runs = 0 → q.bad = none → readGoesOn tag v nsid e =
      if v then opEnd tag .success 0 0 [] e else opMod tag (fun q => { q with st := .ready }) e) := by
  unfold readGoesOn
  rw [hq]
  dsimp only
  refine ⟨fun hr => if_pos hr, fun lba hr hb => ?_, fun hr hb => ?_⟩
  · rw [if_neg (by simp [hr]), hb]
  · rw [if_neg (by simp [hr]), hb]

section
variable {d : Dev} {tag : Nat} {v : Bool} {o : Op} {n : Ns} (ho : tabGet d.host.ops tag = some o) (hn : nsGet d o.cmd.nsid = some n)
include ho hn

theorem readCmd_waits (h : o.st ≠ .admitted ∨ o.cmd.op ≠ (if v then .verify else .read) ∨ readWaits d tag n o = true) : readCmd tag v d = d := by
  unfold readCmd
  rw [ho]
  dsimp only
  rw [hn]
  dsimp only
  rw [if_pos h]

variable (hst : o.st = .admitted) (hop : o.cmd.op = (if v then .verify else .read)) (hfree : readWaits d tag n o = false)
include hst hop hfree

theorem readCmd_offline (h : readOffline d n o = true) : readCmd tag v d = readClose tag .zoneOffline 0 [] d := by
  unfold readCmd
  rw [ho]
  dsimp only
  rw [hn]
  dsimp only
  rw [if_neg (by simp [hst, hop, hfree]), if_pos h]

theorem readCmd_noKey {st : NvStat} (hon : readOffline d n o = false) (h : readKey d n o = some st) :
    readCmd tag v d = readClose tag st 0 [] d := by
  unfold readCmd
  rw [ho]
  dsimp only
  rw [hn]
  dsimp only
  rw [if_neg (by simp [hst, hop, hfree]), if_neg (by simp [hon]), h]

variable (hon : readOffline d n o = false) (hkey : readKey d n o = none)
include hon hkey

theorem readCmd_noMap (hz : n.zoned = false) (h : mapReady d n = false) : readCmd tag v d = readClose tag .mapUnavailable 0 [] d := by
  unfold readCmd
  rw [ho]
  dsimp only
  rw [hn]
  dsimp only
  rw [if_neg (by simp [hst, hop, hfree]), if_neg (by simp [hon]), hkey]
  dsimp only
  rw [if_pos (by simp [hz, h])]

variable {gone : Bool} (hgone : gone = (List.range o.cmd.nlb).any (fun i => match lbaAt d o.cmd.nsid (o.lba + i) with
      | .flash _ _ c | .dram c => keyGone d n o c | _ => false)) (hmap : n.zoned = true ∨ mapReady d n = true)
include hgone hmap

theorem readCmd_gone (h : gone = true) : readCmd tag v d = readClose tag .accessDenied 0 [] d := by
  have hready : ¬ (!n.zoned && !mapReady d n) = true := by rcases hmap with h | h <;> simp [h]
  unfold readCmd
  rw [ho]
  dsimp only
  rw [hn]
  dsimp only
  rw [if_neg (by simp [hst, hop, hfree]), if_neg (by simp [hon]), hkey]
  dsimp only
  rw [if_neg hready]
  exact if_pos (hgone.symm.trans h)

theorem readCmd_begins (h : gone = false) : ∃ o1 d0 d1 e,
    o1 = { o with
      st := .reading, out := (List.range o.cmd.nlb).map (fun _ => 0)
      ciphered := (List.range o.cmd.nlb).all (fun i => match lbaAt d o.cmd.nsid (o.lba + i) with
        | .flash _ _ c | .dram c => decide (c.cipher = 0) | _ => true) } ∧
    d0 = { d with host := { d.host with ops := tabPut d.host.ops tag o1 } } ∧
    d1 = (if n.zoned then d0 else (((List.range o.cmd.nlb).map (fun i => segOf d o.cmd.nsid (o.lba + i))).eraseDups).foldl
      (fun x s => segUse s false x) d0) ∧
    e = (List.range o.cmd.nlb).foldl (fun x i => readBlock tag i o1 x) d1 ∧
    ∀ q, tabGet e.host.ops tag = some q →
      (q.runs ≠ 0 → readCmd tag v d = e) ∧
      (∀ lba, q.runs = 0 → q.bad = some lba → readCmd tag v d = readClose tag .unrecoveredRead (readDie e q) []
        { e with host := { e.host with errLog := e.host.errLog ++ [(o.cmd.nsid, lba)] } }) ∧
      (q.runs = 0 → q.bad = none → readCmd tag v d =
        if v then opEnd tag .success 0 0 [] e else opMod tag (fun q => { q with st := .ready }) e) := by
  have hready : ¬ (!n.zoned && !mapReady d n) = true := by rcases hmap with h | h <;> simp [h]
  refine ⟨_, _, _, _, rfl, rfl, rfl, rfl, fun q hq => ?_⟩
  have hgoes := readGoesOn_of_op (v := v) (nsid := o.cmd.nsid) hq
  suffices hcmd : readCmd tag v d = readGoesOn tag v o.cmd.nsid _ by
    rw [hcmd]
    exact hgoes
  unfold readCmd
  rw [ho]
  dsimp only
  rw [hn]
  dsimp only
  rw [if_neg (by simp [hst, hop, hfree]), if_neg (by simp [hon]), hkey]
  dsimp only
  rw [if_neg hready]
  exact if_neg (fun hg => by simp [hgone.trans hg] at h)

end

theorem tabGet_opMod {d e : Dev} {tag : Nat} {q : Op} (he : e.host.ops = d.host.ops) (hq : tabGet d.host.ops tag = some q) (f : Op → Op) :
    tabGet (opMod tag f e).host.ops tag = some (f q) := by
  unfold opMod
  rw [he, hq]
  exact tabGet_tabPut_self ..

theorem readBlock_lost {d : Dev} {tag i sb k : Nat} {o q : Op} (hlba : lbaAt d o.cmd.nsid (o.lba + i) = .lost sb k)
    (hq : tabGet d.host.ops tag = some q) : ∃ y, tabGet (readBlock tag i o d).host.ops tag = some y ∧ y.depth = 7 ∧
      y.bad = some (match q.bad with | some b => min b (o.lba + i) | none => o.lba + i) := by
  unfold readBlock
  dsimp only
  rw [hlba]
  dsimp only
  refine ⟨_, tabGet_opMod ?_ hq _, ?_, ?_⟩ <;> rfl

theorem lbaAt_zeros {d : Dev} {nsid lba : Nat} {n : Ns} (hn : nsGet d nsid = some n) (hz : n.zoned = true)
    (h : (zoneGet d (zkey nsid (lba / n.zsze))).secure.isSome = true ∨ (zoneGet d (zkey nsid (lba / n.zsze))).wp ≤ lba % n.zsze ∨
      (zoneGet d (zkey nsid (lba / n.zsze))).zcap ≤ lba % n.zsze) : lbaAt d nsid lba = .zeros := by
  unfold lbaAt
  rw [hn]
  dsimp only
  rw [if_pos hz]
  unfold zonedAt
  exact if_pos (by simpa [or_assoc] using h)

theorem lbaAt_mapped {d : Dev} {nsid lba : Nat} {n : Ns} (hn : nsGet d nsid = some n) (hz : n.zoned = false) (hloose : looseAt d nsid lba = none) :
    lbaAt d nsid lba = mapSource d (mapAt d nsid lba) := by
  unfold lbaAt
  rw [hn]
  dsimp only
  rw [if_neg (by simp [hz])]
  unfold convAt
  rw [hloose]

theorem opMod_frame (tag : Nat) (f : Op → Op) (d : Dev) : opMod tag f d = { d with host := (opMod tag f d).host } := by
  unfold opMod
  split <;> rfl

theorem readBlock_flash {d e : Dev} {tag i sb k : Nat} {o : Op} {c : Copy} {s : Sb} {x : Run}
    (hlba : lbaAt d o.cmd.nsid (o.lba + i) = .flash sb k c) (hs : sbGet d sb = some s)
    (hx : x = { runAt d (.host tag i) (locAny d s k) sb k o.cls o.deadline (sbSlc s) with
      lba := o.lba + i, nsid := o.cmd.nsid, kennel := o.kennel, data := c.data, lost := c.lost
      seqLo := match nsGet d o.cmd.nsid with
        | some n => if n.zoned then none else some (entSeq (mapAt d o.cmd.nsid (o.lba + i)) % 65536) | none => none })
    (he : e = runPut { opMod tag (fun q => { q with runs := q.runs + 1 }) d with
      fl := { d.fl with nextRun := d.fl.nextRun + 1 } } d.fl.nextRun x) :
    ((∃ n, nsGet d o.cmd.nsid = some n ∧ n.zoned = false ∧ segOf d o.cmd.nsid (o.lba + i) ∈ d.med.mapu.rebuild) →
      readBlock tag i o d = runPut e d.fl.nextRun { x with st := .segment }) ∧
    (¬ (∃ n, nsGet d o.cmd.nsid = some n ∧ n.zoned = false ∧ segOf d o.cmd.nsid (o.lba + i) ∈ d.med.mapu.rebuild) →
      (codeReadable d s sb k = true → readBlock tag i o d = runQueue d.fl.nextRun e) ∧
      (codeReadable d s sb k = false → readBlock tag i o d = loseOf (stepTo d.fl.nextRun 6 e))) := by
  have hbare : e = runPut { opMod tag (fun q => { q with runs := q.runs + 1 }) d with
      fl := { (opMod tag (fun q => { q with runs := q.runs + 1 }) d).fl with
        nextRun := (opMod tag (fun q => { q with runs := q.runs + 1 }) d).fl.nextRun + 1 } }
      (opMod tag (fun q => { q with runs := q.runs + 1 }) d).fl.nextRun x := by
    rw [he, opMod_frame]
  have hnext : (opMod tag (fun q => { q with runs := q.runs + 1 }) d).fl.nextRun = d.fl.nextRun := by rw [opMod_frame]
  have hread : codeReadable (opMod tag (fun q => { q with runs := q.runs + 1 }) d) s sb k = codeReadable d s sb k := by
    rw [opMod_frame]
    rfl
  have hseg : (match nsGet d o.cmd.nsid with
      | some n => !n.zoned && d.med.mapu.rebuild.contains (segOf d o.cmd.nsid (o.lba + i))
      | none => false) = true ↔
      ∃ n, nsGet d o.cmd.nsid = some n ∧ n.zoned = false ∧ segOf d o.cmd.nsid (o.lba + i) ∈ d.med.mapu.rebuild := by
    cases nsGet d o.cmd.nsid <;> simp
  have hblock : readBlock tag i o d = if (match nsGet d o.cmd.nsid with
      | some n => !n.zoned && d.med.mapu.rebuild.contains (segOf d o.cmd.nsid (o.lba + i))
      | none => false) = true then runPut e d.fl.nextRun { x with st := .segment }
    else if codeReadable d s sb k then runQueue d.fl.nextRun e else loseOf (stepTo d.fl.nextRun 6 e) := by
    unfold readBlock
    dsimp only
    rw [hlba]
    dsimp only
    rw [hs]
    dsimp only
    rw [hread, hbare, hnext, hx] <;> rfl
  refine ⟨fun h => hblock.trans (if_pos (hseg.mpr h)), fun h => ?_⟩
  rw [hblock, if_neg fun hg => h (hseg.mp hg)]
  exact ⟨fun hr => if_pos hr, fun hr => if_neg (by simp [hr])⟩

/-- Settles O41, each part by the lemma on it. -/
theorem dataCommands : Obligations.DataCommands := by
  refine ⟨?_, ?_, fun d tag op f o ho hop => onOp_kind ho hop f, fun d tag v o n ho hn => readCmd_waits ho hn, ?_, ?_, ?_,
    fun d tag i sb k o hlba q => readBlock_lost hlba, fun d e tag i sb k o c s x => readBlock_flash, fun d nsid lba n => lbaAt_zeros,
    fun d nsid lba n => lbaAt_mapped, fun d e tag dw0 dw1 st data o => opEnd_ends, fun d => hmbSettle_waits, ?_⟩
  · intro d tag h
    exact ⟨Runs.of_does (exec_read tag) (settled_congr (onOp_absent h _ _)), Runs.of_does (exec_verify tag) (settled_congr (onOp_absent h _ _)),
      Runs.of_does (exec_write tag) (onOp_absent h _ _), Runs.of_does (exec_zoneAppend tag) (onOp_absent h _ _),
      Runs.of_does (exec_writeZeroes tag) (onOp_absent h _ _), Runs.of_does (exec_datasetManagement tag) (onOp_absent h _ _),
      Runs.of_does (exec_secureDiscard tag) (congrArg jFlushIfNeeded (onOp_absent h _ _))⟩
  · intro d tag o ho
    exact ⟨fun _ => Runs.of_does (exec_read tag) rfl, fun _ => Runs.of_does (exec_verify tag) rfl,
      fun hop => Runs.of_does (exec_write tag) (onOp_kind ho hop _), fun hop => Runs.of_does (exec_zoneAppend tag) (onOp_kind ho hop _),
      fun hop => Runs.of_does (exec_writeZeroes tag) (onOp_kind ho hop _),
      fun hop => Runs.of_does (exec_datasetManagement tag) (onOp_kind ho hop _),
      fun hop => Runs.of_does (exec_secureDiscard tag) (congrArg jFlushIfNeeded (onOp_kind ho hop _))⟩
  · intro d tag v gone o n ho hn hst hop hfree hgone
    exact ⟨readCmd_offline ho hn hst hop hfree, fun st => readCmd_noKey ho hn hst hop hfree, fun hon hkey =>
      ⟨readCmd_noMap ho hn hst hop hfree hon hkey, readCmd_gone ho hn hst hop hfree hon hkey hgone,
        readCmd_begins ho hn hst hop hfree hon hkey hgone⟩⟩
  · intro d tag i o h
    unfold readBlock
    dsimp only
    rw [h]
  · intro d tag i o c h
    unfold readBlock
    dsimp only
    rw [h]
  · intro d p fn sq cid dw0 dw1 st data
    exact ⟨_, cqPost_cq .., rfl, rfl, rfl, rfl, rfl, rfl, rfl, rfl, cqPost_ops .., by rw [cqPost_frame]⟩

end Sys2Proof.Machine
end

section
/-!
PROOFS. Writes, unmappings, secure discards, and the frames of the map's segments and rows.
-/

namespace Sys2Proof.Machine

/-! What the use of a map segment and the queueing of rows leave alone. -/

/-- The map's entries, the journal, the next SEQ value, the admitted commands and the tenants. -/
def Dev.entries (d : Dev) : List (Nat × MapEnt) × Journal × Nat × List (Nat × Op) × Tenancy :=
  (d.med.mapu.map, d.med.jr, d.med.seqNext, d.host.ops, d.ten)

theorem entries_hw (d : Dev) (h : Hw) : ({ d with hw := h } : Dev).entries = d.entries := rfl

theorem mapuMod_entries {f : Mapu → Mapu} {d : Dev} (hf : (f d.med.mapu).map = d.med.mapu.map) : (mapuMod f d).entries = d.entries := by
  simp only [Dev.entries, mapuMod, hf]

theorem sealSeg_entries (seg : Nat) (d : Dev) : (sealSeg seg d).entries = d.entries := by
  unfold sealSeg
  dsimp only
  split
  · rfl
  · split
    · exact (entries_hw (mapuMod (fun x => { x with st := 4 }) d) _).trans (mapuMod_entries rfl)
    · exact (entries_hw (mapuMod _ d) _).trans (mapuMod_entries rfl)

theorem cacheEvict_entries (d : Dev) : (cacheEvict d).entries = d.entries := by
  unfold cacheEvict
  extract_lets u
  split
  · rfl
  · split
    · rfl
    · rename_i e _
      extract_lets d1
      have hd1 : d1.entries = d.entries := by
        unfold d1
        split
        · exact sealSeg_entries ..
        · rfl
      split <;> exact hd1

theorem widthRestore_entries (p : Nat) (d : Dev) : (widthRestore p d).entries = d.entries := by
  unfold widthRestore
  split
  · split <;> rfl
  · rfl

theorem segUse_entries (seg : Nat) (dirty : Bool) (d : Dev) : (segUse seg dirty d).entries = d.entries := by
  unfold segUse
  extract_lets hit a d1 d2
  change d2.entries = d.entries
  unfold d2
  split
  · rfl
  · split
    · exact (widthRestore_entries ..).trans (cacheEvict_entries d1)
    · exact cacheEvict_entries d1

theorem jobAdd_entries (die : Nat) (serves : JobFor) (erase slc : Bool) (block wl : Nat) (d : Dev) :
    (jobAdd die serves erase slc block wl d).entries = d.entries := rfl

theorem rowJobs_entries (id row : Nat) (s : Sb) (d : Dev) : (rowJobs id row s d).entries = d.entries := by
  unfold rowJobs
  exact foldl_keeps Dev.entries (fun d i => jobAdd_entries ..) _ d

theorem pilotJobs_entries (id : Nat) (s : Sb) (d : Dev) : (pilotJobs id s d).entries = d.entries := by
  unfold pilotJobs
  exact foldl_keeps Dev.entries (fun d q => jobAdd_entries ..) _ d

theorem rowsQueue_entries (id n : Nat) (d : Dev) : (rowsQueue id n d).entries = d.entries := by
  induction n generalizing d with
  | zero => rfl
  | succ n ih =>
    rw [rowsQueue]
    split
    · rfl
    · dsimp only
      split
      · exact (ih _).trans (rowJobs_entries ..)
      · rfl

theorem rowReady_entries (id k : Nat) (d : Dev) : (rowReady id k d).entries = d.entries := by
  unfold rowReady
  split
  · rfl
  · extract_lets row n s1 d1
    refine (rowsQueue_entries ..).trans ?_
    change d1.entries = d.entries
    unfold d1
    split
    · exact pilotJobs_entries ..
    · rfl

theorem sbPlace_entries (sb : Nat) (c : Copy) (d : Dev) : (sbPlace sb c d).entries = d.entries := by
  unfold sbPlace
  split <;> rfl

theorem mapSet_map (nsid lba : Nat) (e : MapEnt) (d : Dev) :
    (mapSet nsid lba e d).med.mapu.map = tabPut d.med.mapu.map (mk nsid lba) e ∧ (mapSet nsid lba e d).med.jr = d.med.jr ∧
    (mapSet nsid lba e d).host.ops = d.host.ops := by
  obtain ⟨hmap, hjr, hops⟩ : (segUse (segOf d nsid lba) true d).med.mapu.map = d.med.mapu.map ∧
      (segUse (segOf d nsid lba) true d).med.jr = d.med.jr ∧ (segUse (segOf d nsid lba) true d).host.ops = d.host.ops := by
    have hkept := segUse_entries (segOf d nsid lba) true d
    simp only [Dev.entries, Prod.mk.injEq] at hkept
    exact ⟨hkept.1, hkept.2.1, hkept.2.2.2.1⟩
  exact ⟨congrArg (tabPut · (mk nsid lba) e) hmap, hjr, hops⟩

/-! A range is unmapped. -/

/-- One block is unmapped, unless a newer write or unmapping has its entry. -/
def unmapOne (nsid seq lba : Nat) (d : Dev) : Dev :=
  if entSeq (mapAt d nsid lba) ≤ seq then mapSet nsid lba (.unmapped seq) d else d

theorem unmapAt_eq (nsid lba n seq : Nat) (secure : Bool) (d : Dev) : unmapAt nsid lba n seq secure d =
    jput (jrUnmap nsid lba n seq secure) ((List.range n).foldl (fun x i => unmapOne nsid seq (lba + i) x) d) := rfl

theorem unmapOne_kept (nsid seq lba : Nat) (d : Dev) :
    (unmapOne nsid seq lba d).med.jr = d.med.jr ∧ (unmapOne nsid seq lba d).host.ops = d.host.ops := by
  unfold unmapOne
  split
  · exact (mapSet_map ..).2
  · exact ⟨rfl, rfl⟩

theorem unmapOne_other {nsid lba w : Nat} (seq : Nat) (d : Dev) (h : w ≠ mk nsid lba) :
    tabGet (unmapOne nsid seq lba d).med.mapu.map w = tabGet d.med.mapu.map w := by
  unfold unmapOne
  split
  · rw [(mapSet_map ..).1]
    exact tabGet_tabPut_other _ _ h
  · rfl

theorem mapAt_unmapOne (nsid seq lba : Nat) (d : Dev) : mapAt (unmapOne nsid seq lba d) nsid lba =
    if entSeq (mapAt d nsid lba) ≤ seq then .unmapped seq else mapAt d nsid lba := by
  unfold unmapOne
  split
  · unfold mapAt
    rw [(mapSet_map ..).1]
    exact tabGetD_tabPut_self ..
  · rfl

theorem unmaps_other {nsid lba w : Nat} (seq : Nat) {l : List Nat} (d : Dev) (h : ∀ i ∈ l, w ≠ mk nsid (lba + i)) :
    tabGet (l.foldl (fun x i => unmapOne nsid seq (lba + i) x) d).med.mapu.map w = tabGet d.med.mapu.map w := by
  induction l generalizing d with
  | nil => rfl
  | cons a l ih =>
    exact (ih _ fun i hi => h i (List.mem_cons_of_mem _ hi)).trans (unmapOne_other seq d (h a (List.mem_cons_self ..)))

theorem mk_ne {nsid lba i j : Nat} (h : i ≠ j) : mk nsid (lba + i) ≠ mk nsid (lba + j) := by
  unfold mk
  omega

theorem unmaps_at {nsid lba seq i : Nat} {l : List Nat} (d : Dev) (hl : l.Nodup) (hi : i ∈ l) :
    mapAt (l.foldl (fun x i => unmapOne nsid seq (lba + i) x) d) nsid (lba + i) =
      if entSeq (mapAt d nsid (lba + i)) ≤ seq then .unmapped seq else mapAt d nsid (lba + i) := by
  have hcongr : ∀ {d e : Dev} {w : Nat}, tabGet e.med.mapu.map (mk nsid w) = tabGet d.med.mapu.map (mk nsid w) →
      mapAt e nsid w = mapAt d nsid w := by
    intro d e w h
    simp only [mapAt, tabGetD, h]
  induction l generalizing d with
  | nil => cases hi
  | cons a l ih =>
    obtain ⟨ha, hl⟩ := List.nodup_cons.mp hl
    rw [List.foldl_cons]
    rcases List.mem_cons.mp hi with hia | hi
    · subst hia
      rw [hcongr (unmaps_other seq _ fun j hj => mk_ne (fun h : i = j => ha (h ▸ hj))), mapAt_unmapOne]
    · rw [ih _ hl hi, hcongr (unmapOne_other seq d (mk_ne (fun h : i = a => ha (h ▸ hi))))]

theorem unmaps_kept (nsid lba seq : Nat) (l : List Nat) (d : Dev) :
    (l.foldl (fun x i => unmapOne nsid seq (lba + i) x) d).med.jr = d.med.jr ∧
    (l.foldl (fun x i => unmapOne nsid seq (lba + i) x) d).host.ops = d.host.ops :=
  ⟨foldl_keeps (fun d => d.med.jr) (fun d i => (unmapOne_kept ..).1) l d, foldl_keeps (fun d => d.host.ops) (fun d i => (unmapOne_kept ..).2) l d⟩

theorem unmapAt_spec (d : Dev) (nsid lba n seq : Nat) (secure : Bool) :
    (∀ i < n, entSeq (mapAt d nsid (lba + i)) ≤ seq → mapAt (unmapAt nsid lba n seq secure d) nsid (lba + i) = .unmapped seq) ∧
    (∀ i < n, seq < entSeq (mapAt d nsid (lba + i)) → mapAt (unmapAt nsid lba n seq secure d) nsid (lba + i) = mapAt d nsid (lba + i)) ∧
    (∀ w, (∀ i < n, w ≠ mk nsid (lba + i)) → tabGet (unmapAt nsid lba n seq secure d).med.mapu.map w = tabGet d.med.mapu.map w) ∧
    (unmapAt nsid lba n seq secure d).med.jr.buf = d.med.jr.buf ++ [jrUnmap nsid lba n seq secure] := by
  rw [unmapAt_eq]
  refine ⟨fun i hi h => ?_, fun i hi h => ?_, fun w hw => ?_, ?_⟩
  · exact (unmaps_at d List.nodup_range (List.mem_range.mpr hi)).trans (if_pos h)
  · exact (unmaps_at d List.nodup_range (List.mem_range.mpr hi)).trans (if_neg (by omega))
  · exact unmaps_other seq d fun i hi => hw i (List.mem_range.mp hi)
  · exact congrArg (·.buf ++ [jrUnmap nsid lba n seq secure]) (unmaps_kept nsid lba seq (List.range n) d).1

theorem unmapAt_ops (nsid lba n seq : Nat) (secure : Bool) (d : Dev) : (unmapAt nsid lba n seq secure d).host.ops = d.host.ops :=
  (unmaps_kept nsid lba seq (List.range n) d).2

/-! The units of a write. -/

/-- A zoned write's block takes the next SEQ value and its place among the staged units. -/
def stageZonedOne (o : Op) (n : Ns) (sb i : Nat) (d : Dev) : Dev :=
  let q := seqTake d
  { q.2 with med := { q.2.med with staged := tabPut q.2.med.staged (uk sb ((o.lba + i) % n.zsze)) (newCopy o (o.lba + i) q.1 (opData o i)) } }

theorem stageZoned_eq (o : Op) (n : Ns) (d : Dev) : stageZoned o n d = (List.range o.cmd.nlb).foldl (fun x i =>
    stageZonedOne o n (zoneSb (zoneGet d (zkey o.cmd.nsid (o.lba / n.zsze)))) i x) d := rfl

theorem stageZonedOne_staged (o : Op) (n : Ns) (sb i : Nat) (d : Dev) : (stageZonedOne o n sb i d).med.staged =
    tabPut d.med.staged (uk sb ((o.lba + i) % n.zsze)) (newCopy o (o.lba + i) d.med.seqNext (opData o i)) := rfl

theorem stagedZoned_seq (o : Op) (n : Ns) (sb m : Nat) (d : Dev) :
    ((List.range m).foldl (fun x i => stageZonedOne o n sb i x) d).med.seqNext = d.med.seqNext + m := by
  induction m with
  | zero => rfl
  | succ m ih =>
    rw [List.range_succ, List.foldl_append]
    exact congrArg (· + 1) ih

theorem zoneOffset_ne {lba z i j : Nat} (hij : i < j) (hj : j < z) : (lba + i) % z ≠ (lba + j) % z := by
  intro h
  have hmod : i % z = j % z := Nat.ModEq.add_left_cancel' lba h
  rw [Nat.mod_eq_of_lt (by omega), Nat.mod_eq_of_lt hj] at hmod
  omega

theorem stagedZoned_at (o : Op) (n : Ns) (sb m : Nat) (d : Dev) (hm : m ≤ n.zsze) : ∀ i < m,
    tabGet ((List.range m).foldl (fun x i => stageZonedOne o n sb i x) d).med.staged (uk sb ((o.lba + i) % n.zsze)) =
      some (newCopy o (o.lba + i) (d.med.seqNext + i) (opData o i)) := by
  induction m with
  | zero => exact fun i hi => by omega
  | succ m ih =>
    intro i hi
    rw [List.range_succ, List.foldl_append, List.foldl_cons, List.foldl_nil]
    rw [stageZonedOne_staged, stagedZoned_seq]
    rcases Nat.lt_succ_iff_lt_or_eq.mp hi with hlt | rfl
    · rw [tabGet_tabPut_other]
      · exact ih (by omega) i hlt
      · have hne := zoneOffset_ne (lba := o.lba) (z := n.zsze) hlt (by omega)
        unfold uk
        omega
    · exact tabGet_tabPut_self ..

theorem stageZoned_spec (d : Dev) (o : Op) (n : Ns) (h : o.cmd.nlb ≤ n.zsze) : (stageZoned o n d).med.seqNext = d.med.seqNext + o.cmd.nlb ∧
    (∀ i < o.cmd.nlb, tabGet (stageZoned o n d).med.staged
        (uk (zoneSb (zoneGet d (zkey o.cmd.nsid (o.lba / n.zsze)))) ((o.lba + i) % n.zsze)) =
      some (newCopy o (o.lba + i) (d.med.seqNext + i) (opData o i))) ∧
    (∀ zk, zoneGet (stageZoned o n d) zk = zoneGet d zk) ∧ (stageZoned o n d).med.copies = d.med.copies := by
  rw [stageZoned_eq]
  generalize zoneSb (zoneGet d (zkey o.cmd.nsid (o.lba / n.zsze))) = sb
  have hten : ((List.range o.cmd.nlb).foldl (fun x i => stageZonedOne o n sb i x) d).ten = d.ten := foldl_keeps Dev.ten (f := fun x i => stageZonedOne o n sb i x) (fun d i => rfl) _ d
  have hcopies : ((List.range o.cmd.nlb).foldl (fun x i => stageZonedOne o n sb i x) d).med.copies = d.med.copies :=
    foldl_keeps (fun d => d.med.copies) (f := fun x i => stageZonedOne o n sb i x) (fun d i => rfl) _ d
  exact ⟨stagedZoned_seq .., stagedZoned_at o n sb _ d h, fun zk => by rw [zoneGet, hten, zoneGet], hcopies⟩

/-- A conventional write's block takes the next SEQ value and waits to be placed. -/
def stageConvOne (o : Op) (rg h i : Nat) (d : Dev) : Dev :=
  let q := seqTake d
  { q.2 with med := { q.2.med with
      loose := q.2.med.loose ++ [{ copy := newCopy o (o.lba + i) q.1 (opData o i), group := rg, handle := h }] } }

theorem stagedConv_spec (o : Op) (rg h m : Nat) (d : Dev) :
    ((List.range m).foldl (fun x i => stageConvOne o rg h i x) d).med.seqNext = d.med.seqNext + m ∧
    ((List.range m).foldl (fun x i => stageConvOne o rg h i x) d).med.loose = d.med.loose ++
      (List.range m).map (fun i => { copy := newCopy o (o.lba + i) (d.med.seqNext + i) (opData o i), group := rg, handle := h }) := by
  induction m with
  | zero => simp
  | succ m ih =>
    obtain ⟨hseq, hloose⟩ := ih
    rw [List.range_succ, List.foldl_append, List.map_append, List.foldl_cons, List.foldl_nil]
    unfold stageConvOne seqTake at *
    simp only [hseq, hloose, List.append_assoc, List.map_cons, List.map_nil, and_true]
    rfl

theorem stageConv_spec {d : Dev} {o : Op} {n : Ns} {rg h : Nat} (hplace : placeOf d o.packs n o.cmd = .inr (rg, h)) :
    (stageConv o n d).med.seqNext = d.med.seqNext + o.cmd.nlb ∧ (stageConv o n d).med.loose = d.med.loose ++
      (List.range o.cmd.nlb).map (fun i => { copy := newCopy o (o.lba + i) (d.med.seqNext + i) (opData o i), group := rg, handle := h }) := by
  unfold stageConv
  rw [hplace]
  exact stagedConv_spec o rg h o.cmd.nlb d

/-! A unit is placed. -/

theorem placeUnit_old {d : Dev} {u : Loose} (h : u.copy.seq < entSeq (mapAt d u.copy.nsid u.copy.lba)) : placeUnit u d = some (dirtySub 1 d) := by
  unfold placeUnit
  exact if_pos h

theorem placeUnit_places {d : Dev} {u : Loose} {n : Ns} (h : entSeq (mapAt d u.copy.nsid u.copy.lba) ≤ u.copy.seq)
    (hn : nsGet d u.copy.nsid = some n) :
    (convTarget u.group u.handle n.width u.copy.nsid u.copy.kennel d = none → placeUnit u d = none) ∧
    (∀ sb e, convTarget u.group u.handle n.width u.copy.nsid u.copy.kennel d = some (sb, e) → ∃ f, placeUnit u d = some f ∧
      tabGet f.med.mapu.map (mk u.copy.nsid u.copy.lba) = some (.media u.copy.seq sb (sbNextK e sb)) ∧
      (∀ w, w ≠ mk u.copy.nsid u.copy.lba → tabGet f.med.mapu.map w = tabGet e.med.mapu.map w) ∧
      jrUnit e u.copy.nsid u.copy.lba sb (sbNextK e sb) u.copy.seq ∈ f.med.jr.buf) := by
  unfold placeUnit
  dsimp only
  rw [if_neg (by omega), hn]
  dsimp only
  refine ⟨fun ht => by rw [ht]; rfl, fun sb e ht => ?_⟩
  rw [ht]
  refine ⟨_, rfl, ?_⟩
  dsimp only
  generalize hc : MapEnt.media u.copy.seq sb (sbNextK e sb) = ent
  generalize hr : jrUnit e u.copy.nsid u.copy.lba sb (sbNextK e sb) u.copy.seq = rec
  obtain ⟨hmap, hjr, -⟩ : (rowReady sb (sbNextK e sb) (jput rec (mapSet u.copy.nsid u.copy.lba ent (sbPlace sb u.copy e)))).med.mapu.map =
        (mapSet u.copy.nsid u.copy.lba ent (sbPlace sb u.copy e)).med.mapu.map ∧
      (rowReady sb (sbNextK e sb) (jput rec (mapSet u.copy.nsid u.copy.lba ent (sbPlace sb u.copy e)))).med.jr =
        (jput rec (mapSet u.copy.nsid u.copy.lba ent (sbPlace sb u.copy e))).med.jr ∧ True := by
    have := rowReady_entries sb (sbNextK e sb) (jput rec (mapSet u.copy.nsid u.copy.lba ent (sbPlace sb u.copy e)))
    simp only [Dev.entries, Prod.mk.injEq] at this
    exact ⟨this.1, this.2.1, trivial⟩
  have hplaced : (sbPlace sb u.copy e).med.mapu.map = e.med.mapu.map := congrArg (·.1) (sbPlace_entries sb u.copy e)
  rw [hmap, hjr, (mapSet_map ..).1, hplaced]
  exact ⟨tabGet_tabPut_self .., fun w hw => tabGet_tabPut_other _ _ hw, by simp [jput]⟩

/-! A write starts. -/

theorem writeCheck_eq (d : Dev) (n : Ns) (o : Op) : writeCheck d n o = match writeKey d n o with
    | .inl st => .inl st
    | .inr key => if n.zoned = true then .inr key else if mapReady d n = false then .inl .mapUnavailable
      else match placeOf d o.packs n o.cmd with | .inl st => .inl st | .inr _ => .inr key := by
  unfold writeCheck
  cases writeKey d n o with
  | inl st => rfl
  | inr key => exact if_congr Iff.rfl rfl (if_congr (by simp) rfl rfl)

theorem bufsTake_inner (p n : Nat) (d : Dev) : (bufsTake p n d).2.inner = d.inner := by
  have hgrant : ∀ d : Dev, (curdGrant (portMaster p) 4096 false d).2.inner = d.inner := by
    intro d
    unfold curdGrant
    rw [if_neg (by decide), if_neg (by decide)]
    dsimp only
    split <;> rfl
  induction n generalizing d with
  | zero => rfl
  | succ n ih =>
    rw [bufsTake]
    dsimp only
    split
    · exact (ih _).trans (hgrant d)
    · exact hgrant d

theorem ops_of_inner {d e : Dev} (h : e.inner = d.inner) : e.host.ops = d.host.ops := by
  simp only [Dev.inner, Prod.mk.injEq] at h
  tauto

theorem opMod_congr {d : Dev} {tag : Nat} {o : Op} {f g : Op → Op} (ho : tabGet d.host.ops tag = some o) (h : f o = g o) :
    opMod tag f d = opMod tag g d := by
  unfold opMod
  rw [ho]
  dsimp only
  rw [h]

section
variable {d : Dev} {tag : Nat} {o : Op} {n : Ns} (ho : tabGet d.host.ops tag = some o) (hn : nsGet d o.cmd.nsid = some n)
include ho hn

theorem writeStart_begun (h : o.st ≠ .admitted) : writeStart tag d = d := by
  unfold writeStart
  rw [ho]
  dsimp only
  rw [hn]
  exact if_pos (.inl h)

variable (hst : o.st = .admitted) (hop : o.cmd.op = .write ∨ o.cmd.op = .append ∨ (o.cmd.op = .writeZeroes ∧ n.zoned = true))
include hst hop

theorem writeStart_checks : writeStart tag d = match writeCheck d n o with
    | .inl st => if n.zoned then zoneWriteFail tag st d else opEnd tag st 0 0 [] d
    | .inr key =>
      let need := if o.cmd.op = .writeZeroes then 0 else o.cmd.nlb
      let r := bufsTake o.port need d
      if decide (need ≠ 0) && r.1.isEmpty then opMod tag (fun o => { o with dispatched := true }) r.2
      else opMod tag (fun o => { o with st := .staging, dispatched := true, key := key, bufs := r.1,
                                        ciphered := decide (key.1 = 0) || decide (o.cmd.op = .writeZeroes) })
        (if need = 0 then r.2 else widthRestore o.port r.2) := by
  have hgo : ¬ (o.st ≠ .admitted ∨ (!(o.cmd.op == .write || o.cmd.op == .append || (o.cmd.op == .writeZeroes && n.zoned))) = true) := by
    rcases hop with h | h | ⟨h, hz⟩
    · simp [hst, h]
    · simp [hst, h]
    · simp [hst, h, hz]
  unfold writeStart
  rw [ho]
  dsimp only
  rw [hn]
  dsimp only
  rw [if_neg hgo] <;> rfl

theorem writeStart_fails {st : NvStat} (h : writeCheck d n o = .inl st) :
    writeStart tag d = if n.zoned then zoneWriteFail tag st d else opEnd tag st 0 0 [] d := by
  rw [writeStart_checks ho hn hst hop, h]

theorem writeStart_zeroes {key : Nat × Nat × Nat} (h : writeCheck d n o = .inr key) (hz : o.cmd.op = .writeZeroes) :
    writeStart tag d = opMod tag (fun o => { o with st := .staging, dispatched := true, key := key, bufs := [], ciphered := true }) d := by
  rw [writeStart_checks ho hn hst hop, h]
  dsimp only
  rw [if_pos hz]
  exact opMod_congr ho (by simp [hz, bufsTake])

theorem writeStart_moves {key : Nat × Nat × Nat} {r : List Nat × Dev} (h : writeCheck d n o = .inr key) (hz : o.cmd.op ≠ .writeZeroes)
    (hr : r = bufsTake o.port o.cmd.nlb d) (hnlb : o.cmd.nlb ≠ 0) :
    (r.1 = [] → writeStart tag d = opMod tag (fun o => { o with dispatched := true }) r.2) ∧
    (r.1 ≠ [] → writeStart tag d = opMod tag (fun o => { o with
      st := .staging, dispatched := true, key := key, bufs := r.1, ciphered := decide (key.1 = 0) }) (widthRestore o.port r.2)) := by
  subst hr
  rw [writeStart_checks ho hn hst hop, h]
  dsimp only
  rw [if_neg hz]
  refine ⟨fun he => ?_, fun he => ?_⟩
  · rw [if_pos (by simp [hnlb, he])]
  · rw [if_neg (by simp [he]), if_neg hnlb]
    have hops : (widthRestore o.port (bufsTake o.port o.cmd.nlb d).2).host.ops = d.host.ops :=
      (congrArg (·.2.2.2.1) (widthRestore_entries ..)).trans (ops_of_inner (bufsTake_inner ..))
    exact opMod_congr (by rw [hops]; exact ho) (by simp [hz])

end

/-! The commands that unmap. -/

section
variable {d : Dev} {tag : Nat} {o : Op} {n : Ns} (ho : tabGet d.host.ops tag = some o) (hn : nsGet d o.cmd.nsid = some n)
  (hst : o.st = .admitted)
include ho hn hst

theorem writeZeroes_eq (hop : o.cmd.op = .writeZeroes) : writeZeroes tag d = if n.zoned then writeStart tag d
    else if mapReady d n then opEnd tag .success 0 0 [] (jFlushIfNeeded (unmapAt o.cmd.nsid o.lba o.cmd.nlb o.seq false d))
    else opEnd tag .mapUnavailable 0 0 [] d := by
  unfold writeZeroes
  rw [ho]
  dsimp only
  rw [hn]
  dsimp only
  rw [if_neg (by simp [hop, hst])]
  cases mapReady d n <;> rfl

theorem deallocate_eq (hop : o.cmd.op = .deallocate) : deallocate tag d = if n.zoned then opEnd tag .success 0 0 [] d
    else if mapReady d n then opEnd tag .success 0 0 [] (jFlushIfNeeded (unmapAt o.cmd.nsid o.lba o.cmd.nlb o.seq false d))
    else opEnd tag .mapUnavailable 0 0 [] d := by
  unfold deallocate
  rw [ho]
  dsimp only
  rw [hn]
  dsimp only
  rw [if_neg (by simp [hop, hst])]
  cases mapReady d n <;> rfl

theorem secureDiscard_zoned (hop : o.cmd.op = .secureDiscard) (hz : n.zoned = true) :
    secureDiscard tag d = opEnd tag .invalidOpcode 0 0 [] d := by
  unfold secureDiscard
  rw [ho]
  dsimp only
  rw [hn]
  dsimp only
  rw [if_neg (by simp [hop, hst]), if_pos hz]

theorem secureDiscard_noMap (hop : o.cmd.op = .secureDiscard) (hz : n.zoned = false) (hmap : mapReady d n = false) :
    secureDiscard tag d = opEnd tag .mapUnavailable 0 0 [] d := by
  unfold secureDiscard
  rw [ho]
  dsimp only
  rw [hn]
  dsimp only
  rw [if_neg (by simp [hop, hst]), if_neg (by simp [hz]), if_pos (by simp [hmap])]

end

theorem mem_secInsert (o x : SecOp) (l : List SecOp) : x ∈ secInsert o l ↔ x = o ∨ x ∈ l := by
  induction l with
  | nil => simp [secInsert]
  | cons y ys ih =>
    rw [secInsert]
    split
    · simp
    · simp only [List.mem_cons, ih]
      tauto

theorem mem_secInserts {f : Nat → SecOp} {ps : List Nat} {p : Nat} (l : List SecOp) (h : p ∈ ps) :
    f p ∈ ps.foldl (fun l p => secInsert (f p) l) l := by
  have hkept : ∀ (ps : List Nat) (l : List SecOp) (x : SecOp), x ∈ l → x ∈ ps.foldl (fun l p => secInsert (f p) l) l := by
    intro ps
    induction ps with
    | nil => exact fun l x hx => hx
    | cons a ps ih => exact fun l x hx => ih _ _ ((mem_secInsert _ _ _).mpr (.inr hx))
  induction ps generalizing l with
  | nil => cases h
  | cons a ps ih =>
    rcases List.mem_cons.mp h with rfl | h
    · exact hkept ps _ _ ((mem_secInsert _ _ _).mpr (.inl rfl))
    · exact ih _ h

theorem secureDiscard_erases {d e : Dev} {tag : Nat} {o : Op} {n : Ns} (ho : tabGet d.host.ops tag = some o) (hn : nsGet d o.cmd.nsid = some n)
    (hst : o.st = .admitted) (hop : o.cmd.op = .secureDiscard) (hz : n.zoned = false) (hmap : mapReady d n = true)
    (he : e = unmapAt o.cmd.nsid o.lba o.cmd.nlb o.seq true d) :
    (discardSet d o.cmd.nsid o.lba o.cmd.nlb = [] → secureDiscard tag d = opEnd tag .success 0 0 [] { jput (jrDone o.seq) e with
      hw := irq e.hw irqMapu 11 }) ∧
    (discardSet d o.cmd.nsid o.lba o.cmd.nlb ≠ [] → ∃ f, secureDiscard tag d = secAdvance f ∧ f.med.mapu = e.med.mapu ∧
      tabGet f.host.ops tag = some { o with st := .erasing } ∧
      ∀ q ∈ discardSet d o.cmd.nsid o.lba o.cmd.nlb, ∃ x ∈ f.med.secure, x.tags = [tag] ∧ x.pack = q.2.pack ∧ q.1 ∈ x.sbs ∧
        x.seq = o.seq ∧ x.zone = none ∧ x.ready = true) := by
  subst he
  have hops : tabGet (unmapAt o.cmd.nsid o.lba o.cmd.nlb o.seq true d).host.ops tag = some o := by
    rw [unmapAt_ops]
    exact ho
  unfold secureDiscard
  rw [ho]
  dsimp only
  rw [hn]
  dsimp only
  rw [if_neg (by simp [hop, hst]), if_neg (by simp [hz]), if_neg (by simp [hmap])]
  generalize discardSet d o.cmd.nsid o.lba o.cmd.nlb = set
  refine ⟨fun hset => ?_, fun hset => ?_⟩
  · subst hset
    rfl
  · have hps : ¬ ((set.map (fun q => q.2.pack)).eraseDups.isEmpty) = true := by
      obtain ⟨q, rest, rfl⟩ := List.exists_cons_of_ne_nil hset
      simp [List.eraseDups_cons]
    rw [if_neg hps]
    refine ⟨_, rfl, ?_, ?_, fun q hq => ?_⟩
    · rw [opMod_frame]
    · exact tabGet_opMod rfl hops _
    · refine ⟨_, mem_secInserts _ (List.mem_eraseDups.mpr (List.mem_map.mpr ⟨q, hq, rfl⟩)), rfl, rfl, ?_, rfl, rfl, rfl⟩
      exact List.mem_map.mpr ⟨q, List.mem_filter.mpr ⟨hq, decide_eq_true rfl⟩, rfl⟩

theorem secureDiscardDone_waits {d : Dev} {p : Nat} (h : ∀ o, d.med.secure.find? (fun x => x.wide || decide (x.pack = p)) = some o →
    o.zone.isSome = true ∨ secDone d o = false) : secureDiscardDone p d = d := by
  unfold secureDiscardDone
  split
  · rfl
  · rename_i o ho
    exact if_pos (by simpa using h o ho)

theorem secureDiscardDone_ends {d e : Dev} {p : Nat} {o : SecOp} (ho : d.med.secure.find? (fun x => x.wide || decide (x.pack = p)) = some o)
    (hz : o.zone = none) (hdone : secDone d o = true) (he : e = secLeave p d) :
    secureDiscardDone p d = if e.med.secure.any (fun x => decide (x.seq = o.seq)) then e
      else tagsEnd o.tags { jput (jrDone o.seq) e with hw := irq e.hw irqMapu 11 } := by
  subst he
  unfold secureDiscardDone
  rw [ho]
  dsimp only
  rw [if_neg (by simp [hz, hdone])]
  rfl

/-- Settles O42, each part by the lemma on it. -/
theorem writeAndDiscardCommands : Obligations.WriteAndDiscardCommands := by
  have hok : ∀ {d : Dev} {p : Nat}, p < packCount d.fuse → packOk d p = true := fun h => decide_eq_true h
  refine ⟨writeCheck_eq, fun d tag o n ho hn h => writeStart_begun ho hn h, ?_, stageZoned_spec, fun d o n rg h => stageConv_spec,
    fun d u => placeUnit_old, fun d u n => placeUnit_places, ?_, unmapAt_spec, ?_, fun d c sq nsid => Runs.of_does (exec_flush c sq nsid) rfl,
    fun d tag o n ho hn hst hop => secureDiscard_noMap ho hn hst hop, fun d e tag o n => secureDiscard_erases,
    fun d p hp h => Runs.of_onUnit (exec_secureDiscardComplete p) (hok hp) (congrArg jFlushIfNeeded (secureDiscardDone_waits h)),
    fun d e p o hp ho hz hdone he =>
      Runs.of_onUnit (exec_secureDiscardComplete p) (hok hp) (congrArg jFlushIfNeeded (secureDiscardDone_ends ho hz hdone he))⟩
  · intro d tag o n ho hn hst hop
    exact ⟨fun st => writeStart_fails ho hn hst hop, fun key => writeStart_zeroes ho hn hst hop,
      fun key r => writeStart_moves ho hn hst hop⟩
  · rintro d e tag o n ho hn hst hz rfl
    refine ⟨fun hop => ?_, fun hop => ?_⟩
    · rw [writeZeroes_eq ho hn hst hop, if_neg (by simp [hz])]
    · rw [deallocate_eq ho hn hst hop, if_neg (by simp [hz])]
  · intro d tag o n ho hn hst hz
    refine ⟨fun hop => ?_, fun hop => ?_, fun hop => secureDiscard_zoned ho hn hst hop hz⟩
    · rw [writeZeroes_eq ho hn hst hop, if_pos hz]
    · rw [deallocate_eq ho hn hst hop, if_pos hz]

end Sys2Proof.Machine
end

section
/-!
PROOFS. Zone management: actions, resets, parking, timers, and writes that fail.
-/

namespace Sys2Proof.Machine

/-! What opening and erasing superblocks does to the zones and the journal. -/

/-- From one device to the next, zones become Read Only at most, no namespace goes, the journal's records stay and SEQ values do not fall. -/
structure Latches (d e : Dev) : Prop where
  zones : ∀ o, zoneGet e o = zoneGet d o ∨ zoneGet e o = { zoneGet d o with st := .readOnly }
  names : ∀ i n, nsGet d i = some n → ∃ r, nsGet e i = some { n with readOnly := r }
  records : ∀ r ∈ d.med.jr.buf, r ∈ e.med.jr.buf
  seq : d.med.seqNext ≤ e.med.seqNext

theorem Latches.trans {d e f : Dev} (h : Latches d e) (h' : Latches e f) : Latches d f where
  zones o := by
    rcases h'.zones o with h1 | h1 <;> rcases h.zones o with h2 | h2 <;> simp [h1, h2]
  names i n hn := by
    obtain ⟨r, hr⟩ := h.names i n hn
    obtain ⟨r', hr'⟩ := h'.names i _ hr
    exact ⟨r', hr'⟩
  records r hr := h'.records r (h.records r hr)
  seq := Nat.le_trans h.seq h'.seq

theorem Latches.of_entries {d e : Dev} (h : e.entries = d.entries) : Latches d e := by
  simp only [Dev.entries, Prod.mk.injEq] at h
  obtain ⟨-, hjr, hseq, -, hten⟩ := h
  refine ⟨fun o => .inl (by rw [zoneGet, hten, zoneGet]), fun i n hn => ⟨n.readOnly, ?_⟩, fun r hr => by rw [hjr]; exact hr, by rw [hseq]⟩
  rw [nsGet, hten]
  exact hn

theorem Latches.refl (d : Dev) : Latches d d := Latches.of_entries rfl

theorem Latches.foldl {α : Type} {f : Dev → α → Dev} (hf : ∀ d x, Latches d (f d x)) (l : List α) (d : Dev) : Latches d (l.foldl f d) := by
  induction l generalizing d with
  | nil => exact Latches.refl d
  | cons a l ih => exact (hf d a).trans (ih _)

theorem floorCheck_latches (p : Nat) (d : Dev) : Latches d (floorCheck p d) := by
  unfold floorCheck
  split
  · exact Latches.refl d
  · extract_lets h hit ids ns zs
    refine ⟨fun o => ?_, fun i n hn => ?_, fun r hr => hr, Nat.le_refl _⟩
    · have hzone : tabGet zs o = _ := tabGet_mapVal (fun q => by split <;> rfl) d.ten.zones o
      unfold zoneGet tabGetD
      dsimp only
      rw [hzone]
      cases tabGet d.ten.zones o with
      | none => exact .inl rfl
      | some z =>
        dsimp only [Option.map, Option.getD]
        split
        · exact .inr rfl
        · exact .inl rfl
    · have hname : tabGet ns i = _ := tabGet_mapVal (fun q => by split <;> rfl) d.ten.namespaces i
      have hn : tabGet d.ten.namespaces i = some n := hn
      unfold nsGet
      dsimp only
      rw [hname, hn]
      dsimp only [Option.map]
      split
      · exact ⟨true, rfl⟩
      · exact ⟨n.readOnly, rfl⟩

theorem takeBlocks_entries (reserve : Bool) (ns : List Nat) (d : Dev) : (takeBlocks reserve ns d).2.entries = d.entries := by
  induction ns generalizing d with
  | nil => rfl
  | cons n ns ih =>
    rw [takeBlocks]
    split
    · exact ih d
    · exact ih _

theorem openBlocks_entries (id : Nat) (s : Sb) (d : Dev) : (openBlocks id s d).entries = d.entries := by
  unfold openBlocks
  refine foldl_keeps Dev.entries (fun d i => ?_) _ d
  rfl

theorem seqTake_latches (d : Dev) : Latches d (seqTake d).2 :=
  ⟨fun o => .inl rfl, fun i n hn => ⟨n.readOnly, hn⟩, fun r hr => hr, Nat.le_succ _⟩

theorem jput_latches (r : JRec) (d : Dev) : Latches d (jput r d) :=
  ⟨fun o => .inl rfl, fun i n hn => ⟨n.readOnly, hn⟩, fun r hr => List.mem_append_left _ hr, Nat.le_refl _⟩

theorem jput_mem (r : JRec) (d : Dev) : r ∈ (jput r d).med.jr.buf := by simp [jput]

theorem sbOpenIn_latches {type nsid kennel pack w zslba handle source : Nat} {set : Nat × List Nat} {d : Dev} {r : Nat × Dev}
    (h : sbOpenIn type nsid kennel pack w zslba handle source set d = some r) : Latches d r.2 := by
  unfold sbOpenIn at h
  extract_lets t q zcap blank s d1 at h
  split at h
  · cases h
  · obtain rfl := Option.some.inj h
    have hd1 : Latches d d1 := by
      have htake : Latches d t.2 := Latches.of_entries (takeBlocks_entries ..)
      exact (htake.trans (seqTake_latches _)).trans (Latches.of_entries (openBlocks_entries q.1 s (sbPut q.2 q.1 s)))
    dsimp only
    split
    · exact hd1
    · exact hd1.trans (Latches.foldl (fun d p => floorCheck_latches p d) _ d1)

theorem sbOpen_latches {type nsid kennel pack w zslba handle source : Nat} {d : Dev} {r : Nat × Dev}
    (h : sbOpen type nsid kennel pack w zslba handle source d = some r) : Latches d r.2 := by
  obtain ⟨set, -, hset⟩ := Option.bind_eq_some_iff.mp h
  exact sbOpenIn_latches hset

theorem eraseAdd_entries (die b : Nat) (d : Dev) : (eraseAdd die b d).entries = d.entries := by
  unfold eraseAdd
  extract_lets x q d1
  split <;> rfl

theorem fdpCount_entries (h m s : Nat) (d : Dev) : (fdpCount h m s d).entries = d.entries := by
  unfold fdpCount
  split <;> rfl

theorem sbErase_entries (n : Nat) (d : Dev) : (sbErase n d).entries = d.entries := by
  unfold sbErase
  split
  · rfl
  · rename_i s _
    extract_lets keep lost counted media d1
    have hd1 : d1.entries = d.entries := by
      have hcounted := fdpCount_entries 0 0 (sbUnits d s) d
      simp only [Dev.entries, Prod.mk.injEq] at hcounted ⊢
      exact ⟨rfl, rfl, rfl, hcounted.2.2.2⟩
    refine Eq.trans ?_ hd1
    exact foldl_keeps Dev.entries (fun x (q : Nat × Nat) => eraseAdd_entries q.1 q.2 x) (sbBlocks s) d1

theorem doomCheck_entries (d : Dev) : (doomCheck d).entries = d.entries := by
  unfold doomCheck
  exact foldl_keeps Dev.entries (fun d q => sbErase_entries ..) _ _

theorem parkSweep_entries (d : Dev) : (parkSweep d).entries = d.entries := by
  unfold parkSweep
  exact foldl_keeps Dev.entries (fun d q => sbErase_entries ..) _ d

theorem fdpShort_entries (zk : Nat) (d : Dev) : (fdpShort zk d).entries = d.entries := by
  unfold fdpShort
  extract_lets z
  split
  · split
    · unfold fdpEvent
      split <;> rfl
    · rfl
  · rfl

theorem ten_of_entries {d e : Dev} (h : e.entries = d.entries) : e.ten = d.ten := by
  simp only [Dev.entries, Prod.mk.injEq] at h
  exact h.2.2.2.2

/-! A zone's state. -/

theorem zoneGet_zonePut_same (d : Dev) (zk : Nat) (z : Zone) : zoneGet (zonePut d zk z) zk = z := tabGetD_tabPut_self ..

theorem zoneGet_zonePut_other {zk o : Nat} (d : Dev) (z : Zone) (h : o ≠ zk) : zoneGet (zonePut d zk z) o = zoneGet d o := by
  simp only [zoneGet, zonePut, tabGetD, tabGet_tabPut_other _ _ h]

theorem zoneSet_eq {d : Dev} {zk : Nat} {n : Ns} (hn : nsGet d (zk / 1048576) = some n) (z : Zone) : zoneSet zk z d =
    jput (jrState (zk / 1048576) (zslba n (zk % 1048576)) z.wp z.st.code (zoneFlags z) z.handle) (zonePut d zk z) := by
  unfold zoneSet
  rw [hn]

theorem zoneGet_zoneSet_same {d : Dev} {zk : Nat} {n : Ns} (hn : nsGet d (zk / 1048576) = some n) (z : Zone) : zoneGet (zoneSet zk z d) zk = z := by
  rw [zoneSet_eq hn]
  exact zoneGet_zonePut_same ..

theorem zoneGet_zoneSet_other {zk o : Nat} (d : Dev) (z : Zone) (h : o ≠ zk) : zoneGet (zoneSet zk z d) o = zoneGet d o := by
  unfold zoneSet
  split
  · exact zoneGet_zonePut_other d z h
  · rfl

theorem zoneSet_spec {d : Dev} {zk : Nat} {n : Ns} {z : Zone} (hn : nsGet d (zk / 1048576) = some n) : zoneGet (zoneSet zk z d) zk = z ∧
    (∀ o, o ≠ zk → zoneGet (zoneSet zk z d) o = zoneGet d o) ∧
    ∃ r ∈ (zoneSet zk z d).med.jr.buf, r.type = 4 ∧ r.nsid = zk / 1048576 ∧ r.a = zslba n (zk % 1048576) ∧ r.b = z.wp := by
  refine ⟨zoneGet_zoneSet_same hn z, fun o h => zoneGet_zoneSet_other d z h, ?_⟩
  rw [zoneSet_eq hn]
  exact ⟨_, jput_mem .., rfl, rfl, rfl, rfl⟩

theorem zonePad_ten (zk sb f k : Nat) (d : Dev) : (zonePad zk sb f k d).ten = d.ten := by
  induction f generalizing k d with
  | zero => rfl
  | succ f ih =>
    rw [zonePad]
    split
    · split
      · rfl
      · refine (ih _ _).trans ((ten_of_entries (rowReady_entries _ _ _)).trans ?_)
        rfl
    · rfl

theorem zonePad_if_ten (c : Prop) [Decidable c] (zk sb f k : Nat) (d : Dev) : (if c then zonePad zk sb f k d else d).ten = d.ten := by
  split
  · exact zonePad_ten ..
  · rfl

theorem zoneGet_of_ten {d e : Dev} (h : e.ten = d.ten) (o : Nat) : zoneGet e o = zoneGet d o := by rw [zoneGet, h, zoneGet]

theorem nsGet_of_ten {d e : Dev} (h : e.ten = d.ten) (i : Nat) : nsGet e i = nsGet d i := by rw [nsGet, h, nsGet]

theorem zoneFinish_zones {d : Dev} {zk : Nat} {n : Ns} (hn : nsGet d (zk / 1048576) = some n) (forced : Bool) :
    zoneGet (zoneFinish zk forced d) zk = { zoneGet d zk with st := .full, fullByWp := false, zfc := (zoneGet d zk).zfc || forced } ∧
    ∀ o, o ≠ zk → zoneGet (zoneFinish zk forced d) o = zoneGet d o := by
  unfold zoneFinish
  extract_lets z d1
  have hten : (if forced then d else fdpShort zk d).ten = d.ten := by
    split
    · rfl
    · exact ten_of_entries (fdpShort_entries ..)
  have hpad : ∀ o, zoneGet (zonePad zk (zoneSb z) 65536 z.wp d1) o = zoneGet d1 o := fun o => zoneGet_of_ten (zonePad_ten ..) o
  refine ⟨(hpad zk).trans (zoneGet_zoneSet_same (by rw [nsGet_of_ten hten]; exact hn) _), fun o h => ?_⟩
  exact ((hpad o).trans (zoneGet_zoneSet_other _ _ h)).trans (zoneGet_of_ten hten o)

theorem zoneOffline_zones {d : Dev} {zk : Nat} {n : Ns} (hn : nsGet d (zk / 1048576) = some n) :
    zoneGet (zoneOffline zk d) zk = { zoneGet d zk with st := .offline, sb := 0 } ∧
    ∀ o, o ≠ zk → zoneGet (zoneOffline zk d) o = zoneGet d o := by
  have hten : (zoneOffline zk d).ten = (zoneSet zk { zoneGet d zk with st := .offline, sb := 0 } d).ten := by
    unfold zoneOffline
    dsimp only
    rw [hn]
    exact ten_of_entries ((parkSweep_entries _).trans ((doomCheck_entries _).trans rfl))
  exact ⟨(zoneGet_of_ten hten zk).trans (zoneGet_zoneSet_same hn _), fun o h => (zoneGet_of_ten hten o).trans (zoneGet_zoneSet_other d _ h)⟩

/-- A zone's new state after superblocks have been opened. -/
theorem zoneSet_latched {d e : Dev} {zk : Nat} {n : Ns} (h : Latches d e) (hn : nsGet d (zk / 1048576) = some n) (z : Zone) :
    zoneGet (zoneSet zk z e) zk = z ∧
    (∀ o, o ≠ zk → zoneGet (zoneSet zk z e) o = zoneGet d o ∨ zoneGet (zoneSet zk z e) o = { zoneGet d o with st := .readOnly }) ∧
    (∀ r ∈ d.med.jr.buf, r ∈ (zoneSet zk z e).med.jr.buf) ∧ d.med.seqNext ≤ (zoneSet zk z e).med.seqNext := by
  obtain ⟨r, hr⟩ := h.names _ n hn
  refine ⟨zoneGet_zoneSet_same hr z, fun o ho => ?_, ?_, ?_⟩
  · rw [zoneGet_zoneSet_other e z ho]
    exact h.zones o
  · rw [zoneSet_eq hr]
    exact fun q hq => (jput_latches _ _).records q (h.records q hq)
  · rw [zoneSet_eq hr]
    exact h.seq

/-- A zone is bound anew: empty, or Read Only where no superblock opens or its namespace is latched. -/
theorem zoneBind_spec {d : Dev} {zk : Nat} {n : Ns} (hn : nsGet d (zk / 1048576) = some n) :
    ((zoneGet (zoneBind zk d) zk).wp = 0 ∧ ((zoneGet (zoneBind zk d) zk).st = .empty ∨ (zoneGet (zoneBind zk d) zk).st = .readOnly)) ∧
    (∀ o, o ≠ zk → zoneGet (zoneBind zk d) o = zoneGet d o ∨ zoneGet (zoneBind zk d) o = { zoneGet d o with st := .readOnly }) ∧
    (∀ r ∈ d.med.jr.buf, r ∈ (zoneBind zk d).med.jr.buf) ∧ d.med.seqNext ≤ (zoneBind zk d).med.seqNext := by
  unfold zoneBind
  rw [hn]
  dsimp only
  split
  · obtain ⟨hsame, hrest⟩ := zoneSet_latched (Latches.refl d) hn { Zone.init with sb := 0, zcap := (zoneGet d zk).zcap, st := .readOnly }
    refine ⟨?_, hrest⟩
    rw [hsame]
    exact ⟨rfl, .inr rfl⟩
  · rename_i id d1 hopen
    have hset := fun z r => zoneSet_latched ((sbOpen_latches hopen).trans (jput_latches r d1)) hn z
    refine ⟨?_, (hset _ _).2⟩
    rw [(hset _ _).1]
    refine ⟨rfl, ?_⟩
    dsimp only
    split
    · split
      · exact .inr rfl
      · exact .inl rfl
    · exact .inl rfl

theorem moveAbandon_zones (zk : Nat) (d : Dev) : (∀ o, o ≠ zk → zoneGet (moveAbandon zk d) o = zoneGet d o) ∧
    (∀ i, nsGet (moveAbandon zk d) i = nsGet d i) ∧ (moveAbandon zk d).med.seqNext = d.med.seqNext := by
  unfold moveAbandon
  dsimp only
  split
  · exact ⟨fun o h => rfl, fun i => rfl, rfl⟩
  · rename_i t _
    have herase := sbErase_entries t { zonePut d zk { zoneGet d zk with moving := none } with
      med := { (zonePut d zk { zoneGet d zk with moving := none }).med with
        moves := (zonePut d zk { zoneGet d zk with moving := none }).med.moves.filter (fun m => decide (m.zone ≠ some zk)) } }
    simp only [Dev.entries, Prod.mk.injEq] at herase
    obtain ⟨-, -, hseq, -, hten⟩ := herase
    refine ⟨fun o h => ?_, fun i => nsGet_of_ten hten i, hseq⟩
    exact (zoneGet_of_ten hten o).trans (zoneGet_zonePut_other d _ h)

theorem zoneReset_spec {d : Dev} {zk : Nat} {n : Ns} (hn : nsGet d (zk / 1048576) = some n) (hst : (zoneGet d zk).st ≠ .empty) :
    (zoneGet (zoneReset zk d) zk).wp = 0 ∧
    ((zoneGet (zoneReset zk d) zk).st = .empty ∨ (zoneGet (zoneReset zk d) zk).st = .readOnly) ∧
    jrReset (zk / 1048576) (zslba n (zk % 1048576)) d.med.seqNext false ∈ (zoneReset zk d).med.jr.buf ∧
    (zoneReset zk d).med.seqNext ≠ d.med.seqNext ∧
    ∀ o, o ≠ zk → zoneGet (zoneReset zk d) o = zoneGet d o ∨ zoneGet (zoneReset zk d) o = { zoneGet d o with st := .readOnly } := by
  unfold zoneReset
  dsimp only
  rw [hn]
  dsimp only
  rw [if_neg hst]
  generalize hd0 : (if (zoneGet d zk).st = .full then d else fdpShort zk d) = d0
  have h0 : d0.entries = d.entries := by
    rw [← hd0]
    split
    · rfl
    · exact fdpShort_entries ..
  have h0' := h0
  simp only [Dev.entries, Prod.mk.injEq] at h0'
  obtain ⟨-, -, hseq0, -, hten0⟩ := h0'
  obtain ⟨hzones, hnames, hseq⟩ := moveAbandon_zones zk d0
  generalize hd1 : unqueueSb (zoneGet d zk).sb (moveAbandon zk d0) = d1
  have hten1 : d1.ten = (moveAbandon zk d0).ten := by rw [← hd1]; rfl
  have hseq1 : d1.med.seqNext = d.med.seqNext := by rw [← hd1]; exact hseq.trans hseq0
  have hn1 : nsGet d1 (zk / 1048576) = some n := by
    rw [nsGet_of_ten hten1, hnames, nsGet_of_ten hten0]
    exact hn
  have hz1 : ∀ o, o ≠ zk → zoneGet d1 o = zoneGet d o := fun o h =>
    (zoneGet_of_ten hten1 o).trans ((hzones o h).trans (zoneGet_of_ten hten0 o))
  generalize hd2 : parkDrop (zk / 1048576) (zslba n (zk % 1048576)) n.zsze
    (jput (jrReset (zk / 1048576) (zslba n (zk % 1048576)) (seqTake d1).1 false) (seqTake d1).2) = d2
  have hten2 : d2.ten = d1.ten := by rw [← hd2]; rfl
  have hrec2 : jrReset (zk / 1048576) (zslba n (zk % 1048576)) d.med.seqNext false ∈ d2.med.jr.buf := by
    rw [← hd2, ← hseq1]
    exact jput_mem ..
  have hseq2 : d2.med.seqNext = d.med.seqNext + 1 := by rw [← hd2, ← hseq1]; rfl
  obtain ⟨⟨hwp, hstate⟩, hothers, hrecords, hle⟩ := zoneBind_spec (d := d2) (by rw [nsGet_of_ten hten2]; exact hn1)
  generalize hd4 : dirtySub _ _ = d4
  have h4 : d4.entries = (zoneBind zk d2).entries := by rw [← hd4]; rfl
  have hend : (parkSweep (doomCheck (doom (zoneGet d zk).sb d4))).entries = (zoneBind zk d2).entries :=
    (parkSweep_entries _).trans ((doomCheck_entries _).trans h4)
  simp only [Dev.entries, Prod.mk.injEq] at hend
  obtain ⟨-, hjr, hseqE, -, htenE⟩ := hend
  refine ⟨?_, ?_, ?_, ?_, fun o h => ?_⟩
  · rw [zoneGet_of_ten htenE]
    exact hwp
  · rw [zoneGet_of_ten htenE]
    exact hstate
  · rw [hjr]
    exact hrecords _ hrec2
  · rw [hseqE]
    omega
  · rw [zoneGet_of_ten htenE, ← hz1 o h, ← zoneGet_of_ten hten2 o]
    exact hothers o h

/-! Parking. -/

theorem parkTarget_latches {s : Sb} {d : Dev} {r : Nat × Dev} (h : parkTarget s d = some r) : Latches d r.2 := by
  unfold parkTarget at h
  split at h
  · obtain rfl := Option.some.inj h
    exact Latches.refl d
  · obtain ⟨set, -, hset⟩ := Option.bind_eq_some_iff.mp h
    obtain ⟨q, hq, rfl⟩ := Option.map_eq_some_iff.mp hset
    exact (sbOpenIn_latches hq).trans (Latches.of_entries rfl)

theorem parkShut_entries (s : Sb) (id : Nat) (d : Dev) : (parkShut s id d).entries = d.entries := by
  unfold parkShut
  extract_lets full
  split <;> rfl

theorem parkPlace_latches (s : Sb) (cs : List Copy) (d : Dev) : Latches d (parkPlace s cs d).2 := by
  induction cs generalizing d with
  | nil => exact Latches.refl d
  | cons c cs ih =>
    rw [parkPlace]
    split
    · exact Latches.refl d
    · rename_i id d1 ht
      have hunit := (parkShut_entries s id _).trans ((rowReady_entries id (sbNextK d1 id) _).trans (sbPlace_entries id { c with parked := true } d1))
      exact ((parkTarget_latches ht).trans (Latches.of_entries hunit)).trans (ih _)

theorem parkPad_entries (id f : Nat) (d : Dev) : (parkPad id f d).entries = d.entries := by
  induction f generalizing d with
  | zero => rfl
  | succ f ih =>
    rw [parkPad]
    split
    · rfl
    · split
      · rfl
      · exact (ih _).trans ((rowReady_entries ..).trans (sbPlace_entries ..))

theorem parkClose_entries (s : Sb) (d : Dev) : (parkClose s d).entries = d.entries := by
  unfold parkClose
  split
  · exact (parkShut_entries ..).trans (parkPad_entries ..)
  · rfl

theorem parkRelocate_latches (id nsid lo n : Nat) (d : Dev) : Latches d (parkRelocate id nsid lo n d) := by
  unfold parkRelocate
  split
  · exact Latches.refl d
  · rename_i s _
    extract_lets live r gone media
    split
    · exact Latches.refl d
    · exact (parkPlace_latches s (live.map (fun q => q.2)) d).trans (Latches.of_entries ((parkClose_entries ..).trans rfl))

theorem parkCollect_latches (pack : Nat) (d : Dev) : Latches d (parkCollect pack d) := by
  unfold parkCollect
  extract_lets all cand best
  split
  · exact Latches.refl d
  · generalize best = victim
    rcases victim with _ | ⟨id, live⟩
    · exact Latches.refl d
    · exact (parkRelocate_latches ..).trans (Latches.of_entries (parkSweep_entries _))

theorem parkZone_eq {d : Dev} {zk lo : Nat} {s : Sb} {us : List Copy} (hs : sbGet d (zoneSb (zoneGet d zk)) = some s)
    (hlo : lo = max (partialFrom d (zoneGet d zk)) (zoneGet d zk).parkedTo)
    (hus : us = parkRun d (zoneSb (zoneGet d zk)) lo ((zoneGet d zk).wp - lo)) : (us = [] ∨ (parkPlace s us d).1 = 0 → parkZone zk d = d) ∧
    (us ≠ [] → (parkPlace s us d).1 ≠ 0 → ∃ e, e = parkClose s (parkPlace s us d).2 ∧ parkZone zk d = parkCollect s.pack (zonePut e zk
      { zoneGet e zk with parkedTo := lo + (parkPlace s us d).1 })) := by
  subst hlo hus
  unfold parkZone
  dsimp only
  rw [hs]
  dsimp only
  refine ⟨fun h => ?_, fun hus hplaced => ⟨_, rfl, ?_⟩⟩
  · rcases h with h | h
    · rw [h]
      rfl
    · rw [if_pos h]
      exact ite_self d
  · rw [if_neg (by simpa using hus), if_neg hplaced]

theorem parkZone_zones (d : Dev) (zk o : Nat) : ∃ p st, zoneGet (parkZone zk d) o = { zoneGet d o with parkedTo := p, st := st } ∧
    (st = (zoneGet d o).st ∨ st = .readOnly) ∧ (o ≠ zk → p = (zoneGet d o).parkedTo) := by
  have hsame : ∃ p st, zoneGet d o = { zoneGet d o with parkedTo := p, st := st } ∧
      (st = (zoneGet d o).st ∨ st = .readOnly) ∧ (o ≠ zk → p = (zoneGet d o).parkedTo) := ⟨_, _, rfl, .inl rfl, fun _ => rfl⟩
  have hlatched : ∀ {e : Dev}, (∃ p st, zoneGet e o = { zoneGet d o with parkedTo := p, st := st } ∧
      (st = (zoneGet d o).st ∨ st = .readOnly) ∧ (o ≠ zk → p = (zoneGet d o).parkedTo)) → ∀ {f : Dev}, Latches e f →
      ∃ p st, zoneGet f o = { zoneGet d o with parkedTo := p, st := st } ∧
        (st = (zoneGet d o).st ∨ st = .readOnly) ∧ (o ≠ zk → p = (zoneGet d o).parkedTo) := by
    rintro e ⟨p, st, he, hst, hp⟩ f hf
    rcases hf.zones o with h | h
    · exact ⟨p, st, h.trans he, hst, hp⟩
    · exact ⟨p, .readOnly, by rw [h, he], .inr rfl, hp⟩
  cases hs : sbGet d (zoneSb (zoneGet d zk)) with
  | none =>
    unfold parkZone
    dsimp only
    rw [hs]
    exact hsame
  | some s =>
    obtain ⟨hnone, hsome⟩ := parkZone_eq hs rfl rfl
    by_cases hus : parkRun d (zoneSb (zoneGet d zk)) (max (partialFrom d (zoneGet d zk)) (zoneGet d zk).parkedTo)
        ((zoneGet d zk).wp - max (partialFrom d (zoneGet d zk)) (zoneGet d zk).parkedTo) = []
    · rw [hnone (.inl hus)]
      exact hsame
    · by_cases hplaced : (parkPlace s (parkRun d (zoneSb (zoneGet d zk)) (max (partialFrom d (zoneGet d zk)) (zoneGet d zk).parkedTo)
          ((zoneGet d zk).wp - max (partialFrom d (zoneGet d zk)) (zoneGet d zk).parkedTo)) d).1 = 0
      · rw [hnone (.inr hplaced)]
        exact hsame
      · obtain ⟨e, he, hzone⟩ := hsome hus hplaced
        have hde : Latches d e := by
          rw [he]
          exact (parkPlace_latches ..).trans (Latches.of_entries (parkClose_entries ..))
        rw [hzone]
        obtain ⟨p, st, hzo, hst, hp⟩ := hlatched hsame hde
        refine hlatched ?_ (parkCollect_latches ..)
        by_cases ho : o = zk
        · subst ho
          exact ⟨_, st, by rw [zoneGet_zonePut_same, hzo], hst, fun h => absurd rfl h⟩
        · exact ⟨p, st, (zoneGet_zonePut_other e _ ho).trans hzo, hst, hp⟩

/-! Secure resets. -/

theorem secureMark_spec {d : Dev} {zk tag : Nat} {n : Ns} (hn : nsGet d (zk / 1048576) = some n) (hsec : (zoneGet d zk).secure = none)
    (hst : (zoneGet d zk).st ≠ .empty) :
    zoneGet (secureMark zk tag d) zk = { zoneGet d zk with secure := some [tag] } ∧
    jrReset (zk / 1048576) (zslba n (zk % 1048576)) d.med.seqNext true ∈ (secureMark zk tag d).med.jr.buf ∧
    ∃ o ∈ (secureMark zk tag d).med.secure, o.tags = [tag] ∧ o.zone = some zk ∧ o.nsid = zk / 1048576 ∧ o.seq = d.med.seqNext ∧
      o.lba = zslba n (zk % 1048576) ∧ o.n = n.zsze ∧ o.ready = false ∧ o.wide = decide (n.width = 48) := by
  unfold secureMark
  dsimp only
  rw [hsec]
  dsimp only
  rw [hn]
  dsimp only
  rw [if_neg hst]
  refine ⟨zoneGet_zonePut_same .., jput_mem .., ?_⟩
  exact ⟨_, (mem_secInsert _ _ _).mpr (.inl rfl), rfl, rfl, rfl, rfl, rfl, rfl, rfl, rfl⟩

theorem secureTurn_spec (d : Dev) (zk tag : Nat) : ∃ e, secureTurn zk tag d = secAdvance e ∧ zoneGet e zk = { zoneGet d zk with moving := none } ∧
    (∀ m ∈ e.med.moves, m.zone ≠ some zk) ∧ ∀ o ∈ e.med.secure, o.zone = some zk → tag ∈ o.tags → o.ready = true := by
  refine ⟨_, rfl, zoneGet_zonePut_same .., fun m hm => ?_, fun o ho hzone htag => ?_⟩
  · exact of_decide_eq_true (List.mem_filter.mp hm).2
  · obtain ⟨q, -, rfl⟩ := List.mem_map.mp ho
    by_cases hq : (decide (q.zone = some zk) && q.tags.contains tag) = true
    · rw [if_pos hq]
    · rw [if_neg hq] at hzone htag
      exact absurd (by simp [hzone, htag]) hq

theorem secureResetDone_waits {d : Dev} {p : Nat} (h : ∀ o, d.med.secure.find? (fun x => x.wide || decide (x.pack = p)) = some o →
    o.zone = none ∨ secDone d o = false) : secureResetDone p d = d := by
  unfold secureResetDone
  split
  · rfl
  · rename_i o ho
    split
    · rfl
    · rename_i zk hzone
      exact if_pos (by simpa [hzone] using h o ho)

theorem secureResetDone_ends {d : Dev} {p zk : Nat} {o : SecOp} (ho : d.med.secure.find? (fun x => x.wide || decide (x.pack = p)) = some o)
    (hzone : o.zone = some zk) (hdone : secDone d o = true) : secureResetDone p d =
      tagsEnd (((zoneGet d zk).secure).getD []) (secLeave p (jput (jrDone o.seq) (zoneBind zk (parkSweep (parkDrop o.nsid o.lba o.n d))))) := by
  unfold secureResetDone
  rw [ho]
  dsimp only
  rw [hzone]
  dsimp only
  rw [if_neg (by simp [hdone])]

/-! The actions of a zone management command. -/

theorem zoneActCheck_eq (d : Dev) (nsid zk : Nat) (a : ZAct) : zoneActCheck d nsid zk a =
    if (zoneGet d zk).secure.isSome = true then (if a = .reset then .inr none else .inl .invalidZoneTransition)
    else if zoneAllows a (zoneGet d zk).st = true then
      (if a = .open_ ∧ ((zoneGet d zk).st = .empty ∨ (zoneGet d zk).st = .closed) then openCheck d nsid (zoneGet d zk).st else .inr none)
    else match (zoneGet d zk).st with
      | .offline => .inl .zoneOffline | .readOnly => .inl .zoneReadOnly | .full => .inl .zoneFull | _ => .inl .invalidZoneTransition := rfl

theorem zoneAllows_iff (s : ZSt) : (zoneAllows .open_ s = true ↔ s = .empty ∨ s = .impOpen ∨ s = .closed) ∧
    (zoneAllows .close s = true ↔ s = .impOpen ∨ s = .expOpen) ∧
    (zoneAllows .finish s = true ↔ s = .empty ∨ s = .impOpen ∨ s = .expOpen ∨ s = .closed) ∧
    (zoneAllows .reset s = true ↔ s = .full ∨ s = .impOpen ∨ s = .expOpen ∨ s = .closed ∨ s = .empty) ∧
    (zoneAllows .offline s = true ↔ s = .readOnly) := by
  cases s <;> simp [zoneAllows, isActive, isOpen]

section
variable {d : Dev} {nsid : Nat} {s : ZSt}

theorem openCheck_free (hopen : openCount d nsid < 4096) (h : s = .closed ∨ (activeCount d nsid < 4096 ∧ activeAll d < 16384)) :
    openCheck d nsid s = .inr none := by
  unfold openCheck
  dsimp only
  rw [if_pos hopen, if_neg (by simp [hopen]), if_neg]
  · rfl
  · rcases h with h | ⟨h1, h2⟩
    · simp [h]
    · simp [h1, h2]

theorem openCheck_tooManyOpen (hopen : 4096 ≤ openCount d nsid) (h : ∀ q ∈ nsZones d nsid, q.2.st ≠ .impOpen) :
    openCheck d nsid s = .inl .tooManyOpen := by
  have hnone : (nsZones d nsid).filter (fun q => decide (q.2.st = .impOpen)) = [] := by
    rw [List.filter_eq_nil_iff]
    exact fun q hq => by simp [h q hq]
  unfold openCheck
  dsimp only
  rw [hnone, if_neg (Nat.not_lt.mpr hopen)]
  exact if_pos (by simp [hopen])

theorem openCheck_tooManyActive (hs : s = .empty) (hopen : openCount d nsid < 4096) (h : 4096 ≤ activeCount d nsid ∨ 16384 ≤ activeAll d) :
    openCheck d nsid s = .inl .tooManyActive := by
  unfold openCheck
  dsimp only
  rw [if_pos hopen, if_neg (by simp [hopen]), if_pos (by simpa [hs] using h)]

theorem openCheck_victim {v : Nat} (h : openCheck d nsid s = .inr (some v)) : 4096 ≤ openCount d nsid ∧
    ∃ z, (v, z) ∈ nsZones d nsid ∧ z.st = .impOpen ∧ ∀ q ∈ nsZones d nsid, q.2.st = .impOpen → z.lastWrite.toNat ≤ q.2.lastWrite.toNat := by
  unfold openCheck at h
  extract_lets imp victim at h
  split at h
  · cases h
  · split at h
    · cases h
    · obtain ⟨w, hw, rfl⟩ := Option.map_eq_some_iff.mp (Sum.inr.inj h)
      unfold victim at hw
      split at hw
      · cases hw
      · rename_i hopen
        obtain ⟨rest, hrest⟩ : ∃ rest, imp = w :: rest := List.head?_eq_some_iff.mp hw
        have hmem : ∀ q, q ∈ imp ↔ q ∈ nsZones d nsid ∧ q.2.st = .impOpen := fun q => by simp [imp]
        have hsorted : imp.Pairwise (fun a b => decide (a.2.lastWrite.toNat ≤ b.2.lastWrite.toNat) = true) :=
          List.pairwise_mergeSort (fun a b c hab hbc => by simp only [decide_eq_true_eq] at *; omega)
            (fun a b => by simp only [Bool.or_eq_true, decide_eq_true_eq]; omega) _
        obtain ⟨hin, hst⟩ := (hmem w).mp (by rw [hrest]; exact List.mem_cons_self ..)
        refine ⟨by omega, w.2, hin, hst, fun q hq hqst => ?_⟩
        have hqimp : q ∈ w :: rest := by
          rw [← hrest]
          exact (hmem q).mpr ⟨hq, hqst⟩
        rw [hrest] at hsorted
        rcases List.mem_cons.mp hqimp with rfl | hq'
        · exact Nat.le_refl _
        · exact of_decide_eq_true ((List.pairwise_cons.mp hsorted).1 q hq')

end

theorem zoneAct_spec (d : Dev) (zk tag : Nat) (v : Option Nat) : zoneAct .open_ zk tag v d = (true, zoneSet zk { zoneGet d zk with
      st := .expOpen, openedAt := if isOpen (zoneGet d zk).st then (zoneGet d zk).openedAt else d.hw.time }
      (match v with | some w => zoneClose w d | none => d)) ∧
    zoneAct .close zk tag v d = (true, zoneClose zk d) ∧ zoneAct .finish zk tag v d = (true, zoneFinish zk false d) ∧
    zoneAct .offline zk tag v d = (true, zoneOffline zk d) ∧
    ((zoneGet d zk).secure = none → (zoneGet d zk).st = .empty → zoneAct .reset zk tag v d = (true, d)) ∧
    (∀ n, nsGet d (zk / 1048576) = some n → (zoneGet d zk).secure = none → (zoneGet d zk).st ≠ .empty →
      zoneAct .reset zk tag v d = if n.secureMode then (false, secureReset zk tag d) else (true, zoneReset zk d)) ∧
    (∀ ts, (zoneGet d zk).secure = some ts → tag ∉ ts → ts ≠ [] →
      zoneAct .reset zk tag v d = (false, zonePut d zk { zoneGet d zk with secure := some (ts ++ [tag]) })) ∧
    (∀ ts, (zoneGet d zk).secure = some ts → ts.head? = some tag → zoneAct .reset zk tag v d = (false, secureTurn zk tag d)) := by
  refine ⟨?_, rfl, rfl, rfl, fun hsec hst => ?_, fun n hn hsec hst => ?_, fun ts hsec htag hts => ?_, fun ts hsec hhead => ?_⟩
  · cases v <;> rfl
  · unfold zoneAct
    dsimp only
    rw [hsec]
    exact if_pos hst
  · unfold zoneAct
    dsimp only
    rw [hsec]
    dsimp only
    rw [if_neg hst, hn]
  · obtain ⟨t, rest, rfl⟩ := List.exists_cons_of_ne_nil hts
    have hne : ¬ t = tag := fun h => htag (h ▸ List.mem_cons_self ..)
    unfold zoneAct
    dsimp only
    rw [hsec]
    dsimp only
    rw [if_neg (by simpa using hne), if_neg (by simpa using htag)]
  · unfold zoneAct
    dsimp only
    rw [hsec]
    dsimp only
    rw [if_pos hhead]

section
variable {d : Dev} {tag : Nat} {a : ZAct} {o : Op} {n : Ns} (ho : tabGet d.host.ops tag = some o) (hn : nsGet d o.cmd.nsid = some n)
include ho hn

theorem zoneSend_waits (h : o.st ≠ .admitted ∨ o.cmd.op ≠ .zoneSend ∨ o.cmd.act ≠ a ∨ zoneEarlier d n tag o = true) : zoneSend a tag d = d := by
  unfold zoneSend
  rw [ho]
  dsimp only
  rw [hn]
  exact if_pos h

variable (hst : o.st = .admitted) (hop : o.cmd.op = .zoneSend) (hact : o.cmd.act = a) (hturn : zoneEarlier d n tag o = false)
include hst hop hact hturn

theorem zoneSend_one {zk : Nat} (hall : o.cmd.all = false) (hzk : zk = zkey o.cmd.nsid (o.cmd.slba / n.zsze)) :
    (∀ st, zoneActCheck d o.cmd.nsid zk a = .inl st → zoneSend a tag d = opEnd tag st 0 0 [] d) ∧
    (∀ v, zoneActCheck d o.cmd.nsid zk a = .inr v → zoneSend a tag d =
      if (zoneAct a zk tag v d).1 = true then opEnd tag .success 0 0 [] (zoneAct a zk tag v d).2
      else opMod tag (fun o => { o with st := .erasing }) (zoneAct a zk tag v d).2) := by
  subst hzk
  unfold zoneSend
  rw [ho]
  dsimp only
  rw [hn]
  dsimp only
  rw [if_neg (by simp [hst, hop, hact, hturn]), if_neg (by simp [hall])]
  exact ⟨fun st h => by rw [h], fun v h => by rw [h]⟩

theorem zoneSend_all {r : Bool × Dev} (hall : o.cmd.all = true)
    (hr : r = (allZones d o.packs o.cmd.nsid n a).foldl (fun (b : Bool × Dev) zk =>
      ((b.1 && (zoneAct a zk tag none b.2).1), (zoneAct a zk tag none b.2).2)) (true, d)) :
    zoneSend a tag d = if a = .open_ ∧ 4096 < openCount d o.cmd.nsid + (allZones d o.packs o.cmd.nsid n a).length then
        opEnd tag .tooManyOpen 0 0 [] d
      else if r.1 = true then opEnd tag .success 0 0 [] r.2 else opMod tag (fun o => { o with st := .erasing }) r.2 := by
  subst hr
  unfold zoneSend
  rw [ho]
  dsimp only
  rw [hn]
  dsimp only
  rw [if_neg (by simp [hst, hop, hact, hturn]), if_pos hall]

end

theorem zoneSend_idle {d : Dev} {tag : Nat} {a : ZAct} (h : ∀ o n, tabGet d.host.ops tag = some o → nsGet d o.cmd.nsid = some n →
    o.st ≠ .admitted ∨ o.cmd.op ≠ .zoneSend ∨ o.cmd.act ≠ a ∨ zoneEarlier d n tag o = true) : zoneSend a tag d = d := by
  cases ho : tabGet d.host.ops tag with
  | none =>
    unfold zoneSend
    rw [ho]
  | some o =>
    cases hn : nsGet d o.cmd.nsid with
    | none =>
      unfold zoneSend
      rw [ho]
      dsimp only
      rw [hn]
    | some n => exact zoneSend_waits ho hn (h o n ho hn)

/-! A zone's timers. -/

theorem zoneFrl_reports {d : Dev} {zk : Nat} {n : Ns} (hn : nsGet d (zk / 1048576) = some n) (hactive : isActive (zoneGet d zk).st = true)
    (hfzr : (zoneGet d zk).fzr = false) : zoneFrl zk d =
      n.attached.foldl (fun x ck => asyncPost ck (asyncDw 2 0xEF 0xBF) x) (zoneSet zk { zoneGet d zk with fzr := true } d) := by
  unfold zoneFrl
  dsimp only
  rw [hn]
  exact if_neg (by simp [hactive, hfzr])

theorem zoneFrl_idle {d : Dev} {zk : Nat} (h : isActive (zoneGet d zk).st = false ∨ (zoneGet d zk).fzr = true) : zoneFrl zk d = d := by
  unfold zoneFrl
  dsimp only
  split
  · rfl
  · exact if_pos (by rcases h with h | h <;> simp [h])

theorem zoneForced_eq (zk : Nat) (d : Dev) : zoneForced zk d = if isActive (zoneGet d zk).st = true ∧
    (zoneGet d zk).fzr = true ∧ (zoneGet d zk).secure = none then zoneFinish zk true d else d := by
  unfold zoneForced
  exact if_congr (by simp [and_assoc]) rfl rfl

theorem parkIdle_eq (zk : Nat) (d : Dev) : parkIdle zk d = if d.med.layout.parkIdleMs = 0 ∨ isActive (zoneGet d zk).st = false then d
    else parkZone zk d := by
  unfold parkIdle
  exact if_congr (by simp) rfl rfl

/-! A zoned write that fails. -/

theorem zoneWriteFail_none {d : Dev} {tag : Nat} (st : NvStat) (h : ∀ o n, tabGet d.host.ops tag = some o → nsGet d o.cmd.nsid = some n →
    n.zoned = false ∨ o.st = .staged ∨ isZoneWrite o.cmd.op = false) : zoneWriteFail tag st d = d := by
  unfold zoneWriteFail
  split
  · rfl
  · rename_i o ho
    split
    · rfl
    · rename_i n hn
      exact if_pos (by rcases h o n ho hn with h | h | h <;> simp [h])

/-- The zones once a failed write's zone has given back its LBAs from offset `off`. -/
theorem zoneFail_zones {d d1 e : Dev} {zk off : Nat} {n : Ns} {z1 : Zone} (hten : e.ten = (zoneSet zk z1 d1).ten) (hd1 : d1.ten = d.ten)
    (hn : nsGet d (zk / 1048576) = some n) (hwp : z1.wp = off)
    (hz1 : z1.st = if (decide ((zoneGet d zk).st = .full) && (zoneGet d zk).fullByWp && decide (off < (zoneGet d zk).zcap)) = true then .closed
      else (zoneGet d zk).st) :
    (zoneGet e zk).wp = off ∧
    ((zoneGet d zk).st = .full → (zoneGet d zk).fullByWp = true → off < (zoneGet d zk).zcap → (zoneGet e zk).st = .closed) ∧
    ((zoneGet d zk).st ≠ .full → (zoneGet e zk).st = (zoneGet d zk).st) ∧ (∀ w, w ≠ zk → zoneGet e w = zoneGet d w) := by
  have hn1 : nsGet d1 (zk / 1048576) = some n := by
    rw [nsGet_of_ten hd1]
    exact hn
  have hzone : zoneGet e zk = z1 := (zoneGet_of_ten hten zk).trans (zoneGet_zoneSet_same hn1 z1)
  rw [hzone]
  refine ⟨hwp, fun hfull hby hoff => ?_, fun hfull => ?_, fun w hw => ?_⟩
  · rw [hz1, if_pos (by simp [hfull, hby, hoff])]
  · rw [hz1, if_neg (by simp [hfull])]
  · exact (zoneGet_of_ten hten w).trans ((zoneGet_zoneSet_other d1 z1 hw).trans (zoneGet_of_ten hd1 w))

theorem zoneWriteFail_fails {d : Dev} {tag zk : Nat} {st : NvStat} {o : Op} {n : Ns} (ho : tabGet d.host.ops tag = some o)
    (hn : nsGet d o.cmd.nsid = some n) (hz : n.zoned = true) (hst : o.st ≠ .staged) (hop : isZoneWrite o.cmd.op = true)
    (hzk : zk = zkey o.cmd.nsid (o.lba / n.zsze)) (hns : zk / 1048576 = o.cmd.nsid) : ∃ e,
    zoneWriteFail tag st d = (d.host.ops.filter (fun q => decide (q.1 ≠ tag) && decide (q.2.cmd.nsid = o.cmd.nsid)
      && isZoneWrite q.2.cmd.op && decide (q.2.lba / n.zsze = o.lba / n.zsze) && decide (o.lba < q.2.lba))).foldl
        (fun x q => opEnd q.1 .zoneInvalidWrite 0 0 [] x) (opEnd tag st 0 0 [] e) ∧
    (zoneGet e zk).wp = o.lba % n.zsze ∧
    ((zoneGet d zk).st = .full → (zoneGet d zk).fullByWp = true → o.lba % n.zsze < (zoneGet d zk).zcap → (zoneGet e zk).st = .closed) ∧
    ((zoneGet d zk).st ≠ .full → (zoneGet e zk).st = (zoneGet d zk).st) ∧ (∀ w, w ≠ zk → zoneGet e w = zoneGet d w) := by
  unfold zoneWriteFail
  rw [ho]
  dsimp only
  rw [hn]
  dsimp only
  rw [if_neg (by simp [hz, hst, hop]), ← hzk]
  refine ⟨_, rfl, zoneFail_zones (zonePad_if_ten ..) ?_ (by rw [hns]; exact hn) ?_ ?_⟩
  · exact foldl_keeps Dev.ten (fun d q => by split <;> rfl) _ _
  · rfl
  · rfl

/-- Settles O43, each part by the lemma on it. -/
theorem zoneCommands : Obligations.ZoneCommands := by
  have hok : ∀ {d : Dev} {p : Nat}, p < packCount d.fuse → packOk d p = true := fun h => decide_eq_true h
  refine ⟨fun d tag => ⟨Runs.of_does (exec_zoneOpen tag) rfl, Runs.of_does (exec_zoneClose tag) rfl, Runs.of_does (exec_zoneFinish tag) rfl,
      Runs.of_does (exec_zoneReset tag) rfl, Runs.of_does (exec_zoneOffline tag) rfl⟩, fun d tag a => zoneSend_idle,
    fun d tag zk a o n ho hn hst hop hact hall hturn hzk => zoneSend_one ho hn hst hop hact hturn hall hzk,
    fun d tag a o n r ho hn hst hop hact hall hturn hr => zoneSend_all ho hn hst hop hact hturn hall hr,
    zoneActCheck_eq, zoneAllows_iff, fun d nsid s => ⟨openCheck_free, openCheck_tooManyOpen, openCheck_tooManyActive, fun v => openCheck_victim⟩,
    zoneAct_spec, fun d zk n z => zoneSet_spec, fun d zk => rfl, ?_, fun d zk n => zoneReset_spec, parkZone_zones, fun d zk lo s us => parkZone_eq,
    fun d zk tag n => secureMark_spec, secureTurn_spec,
    fun d p hp h => Runs.of_onUnit (exec_secureResetComplete p) (hok hp) (congrArg jFlushIfNeeded (secureResetDone_waits h)),
    fun d p zk o hp ho hzone hdone =>
      Runs.of_onUnit (exec_secureResetComplete p) (hok hp) (congrArg jFlushIfNeeded (secureResetDone_ends ho hzone hdone)),
    fun d t ts => ⟨rfl, rfl⟩, ?_, ?_,
    fun d nsid zn h => Runs.of_does (exec_zoneFrlExpiry nsid zn) (zoneFrl_idle h),
    fun d nsid zn => Runs.of_does (exec_zoneForcedFinish nsid zn) (congrArg jFlushIfNeeded (zoneForced_eq _ d)),
    fun d nsid zn => Runs.of_does (exec_parkIdleExpiry nsid zn) (parkIdle_eq _ d),
    fun d tag ue => Runs.of_does (exec_zoneWriteFail tag ue) rfl, fun d tag zk st o n => zoneWriteFail_fails,
    fun d tag st => zoneWriteFail_none st⟩
  · intro d zk n hn
    obtain ⟨hfinish, hfinishRest⟩ := zoneFinish_zones hn false
    obtain ⟨hforced, hforcedRest⟩ := zoneFinish_zones hn true
    obtain ⟨hoff, hoffRest⟩ := zoneOffline_zones hn
    refine ⟨hfinish.trans ?_, hforced.trans ?_, hoff, fun o h => ⟨hfinishRest o h, hforcedRest o h, hoffRest o h⟩⟩
    · simp
    · simp
  · intro d c sq nsid lba count
    refine Runs.of_does (exec_reportZones c sq nsid lba count) ?_
    unfold reportZones
    cases nsGet d nsid with
    | none => rfl
    | some n => exact if_congr (by simp) rfl (if_congr (by simp) rfl rfl)
  · rintro d nsid zn zk n rfl hn hactive hfzr
    exact Runs.of_does (exec_zoneFrlExpiry nsid zn) (zoneFrl_reports hn hactive hfzr)

end Sys2Proof.Machine
end

section
/-!
PROOFS. The gates of the admin commands.
-/

namespace Sys2Proof.Machine

theorem adminGate_down {c : Src} {d : Dev} (h : adminUp c d = false) (f : Dev → Dev) : adminGate c f d = d := if_neg (by simp [h])

theorem vendorGate_down {c : Src} {d : Dev} (h : adminUp c d = false) (f : Dev → Dev) : vendorGate c f d = d := adminGate_down h _

theorem vendorGate_vf {c : Src} {d : Dev} (h : adminUp c d = true) (hfn : c.fn ≠ 0) (f : Dev → Dev) :
    vendorGate c f d = adminDone c .invalidOpcode 0 [] d := (adminGate_up h _).trans (if_neg hfn)

theorem vendorGate_pf {c : Src} {d : Dev} (h : adminUp c d = true) (hfn : c.fn = 0) (f : Dev → Dev) : vendorGate c f d = f d :=
  (adminGate_up h _).trans (if_pos hfn)

theorem trialGate_trial {d : Dev} (h : d.boot.trial = true) (c : Src) (f : Dev → Dev) : trialGate c f d = adminDone c .interrupted 0 [] d :=
  if_pos h

theorem trialGate_kept {d : Dev} (h : d.boot.trial = false) (c : Src) (f : Dev → Dev) : trialGate c f d = f d := if_neg (by simp [h])

theorem adminDone_leaves {d e : Dev} {c : Src} {st : NvStat} {dw0 : Nat} {data : List Nat} (he : e = adminDone c st dw0 data d) : ∃ q,
    e.host.cq = d.host.cq ++ [q] ∧ q.port = c.port ∧ q.fn = c.fn ∧ q.sq = 0 ∧ q.cq = 0 ∧ q.vector = 0 ∧ q.cid = c.cid ∧ q.status = st ∧
    q.dw0 = dw0 ∧ q.dw1 = 0 ∧ q.data = data ∧ e.med = d.med ∧ e.ten = d.ten ∧ e.sec = d.sec ∧ e.fl = d.fl ∧ e.boot = d.boot := by
  subst he
  refine ⟨_, cqPost_cq .., rfl, rfl, rfl, rfl, rfl, rfl, rfl, rfl, rfl, rfl, ?_⟩
  unfold adminDone
  rw [cqPost_frame]
  exact ⟨rfl, rfl, rfl, rfl, rfl⟩

/-- Settles O44: each command goes through its gates. -/
theorem adminGates : Obligations.AdminGates := by
  refine ⟨fun d c h b b1 i j k l bs is va => ?_, fun d e c hup hfn he i j k bs => ?_, fun d e c hup hfn htrial he b b1 i j k bs is => ?_,
    fun d e c st dw0 data => adminDone_leaves⟩
  · exact ⟨Runs.of_does (exec_namespaceCreate c b i j b1 k) (adminGate_down h _),
    Runs.of_does (exec_namespaceDelete c i) (adminGate_down h _),
    Runs.of_does (exec_namespaceAttach c i b is) (adminGate_down h _),
    Runs.of_does (exec_getLogPage c i j k l) (adminGate_down h _), Runs.of_does (exec_identify c i j) (adminGate_down h _),
    Runs.of_does (exec_setFeaturesTimestamp c b i) (adminGate_down h _),
    Runs.of_does (exec_getFeaturesTimestamp c) (adminGate_down h _),
    Runs.of_does (exec_setFeaturesZoneResetMode c i b b1) (adminGate_down h _),
    Runs.of_does (exec_setFeaturesFdp c b b1) (adminGate_down h _),
    Runs.of_does (exec_setFeaturesPowerState c i b) (adminGate_down h _),
    Runs.of_does (exec_setFeaturesTemperatureThreshold c b i j b1) (adminGate_down h _),
    Runs.of_does (exec_hmbEnable c i) (adminGate_down h _), Runs.of_does (exec_hmbDisable c) (adminGate_down h _),
    Runs.of_does (exec_virtualizationManagement c i va) (adminGate_down h _),
    Runs.of_does (exec_nvmeAbort c i j) (adminGate_down h _), Runs.of_does (exec_asynchronousEventRequest c) (adminGate_down h _),
    Runs.of_does (exec_firmwareImageDownload c i bs) (adminGate_down h _),
    Runs.of_does (exec_firmwareCommit c i j) (adminGate_down h _), Runs.of_does (exec_formatNvm c i j) (adminGate_down h _),
    Runs.of_does (exec_sanitizeBlockErase c) (adminGate_down h _), Runs.of_does (exec_sanitizeCryptoErase c) (adminGate_down h _),
    Runs.of_does (exec_keyInjection c i j b bs) (adminGate_down h _),
    Runs.of_does (exec_kekEstablishment c i bs) (adminGate_down h _),
    Runs.of_does (exec_layoutTransfer c i bs) (vendorGate_down h _), Runs.of_does (exec_layoutVerifyStage c) (vendorGate_down h _),
    Runs.of_does (exec_layoutDiscard c) (vendorGate_down h _), Runs.of_does (exec_kennelSet c i bs) (vendorGate_down h _),
    Runs.of_does (exec_kennelDelete c i) (vendorGate_down h _), Runs.of_does (exec_kennelRead c i) (vendorGate_down h _),
    Runs.of_does (exec_kennelBindFunction c i j k) (vendorGate_down h _),
    Runs.of_does (exec_kennelBindNamespace c i j) (vendorGate_down h _),
    Runs.of_does (exec_kennelUnbindNamespace c i j) (vendorGate_down h _),
    Runs.of_does (exec_unitTakeOut c i j) (vendorGate_down h _), Runs.of_does (exec_unitReturn c i j) (vendorGate_down h _),
    Runs.of_does (exec_unitQuery c i j) (vendorGate_down h _), Runs.of_does (exec_evrecCtrlFlush c) (vendorGate_down h _),
    Runs.of_does (exec_evrecCtrlClear c) (vendorGate_down h _), Runs.of_does (exec_evrecSetRateLimit c i j k) (vendorGate_down h _),
    Runs.of_does (exec_evrecReadRateLimit c i) (vendorGate_down h _), Runs.of_does (exec_debugGetChallenge c) (vendorGate_down h _),
    Runs.of_does (exec_debugSubmitResponse c bs) (vendorGate_down h _)⟩
  · subst he
    exact ⟨Runs.of_does (exec_layoutTransfer c i bs) (vendorGate_vf hup hfn _),
    Runs.of_does (exec_layoutVerifyStage c) (vendorGate_vf hup hfn _),
    Runs.of_does (exec_layoutDiscard c) (vendorGate_vf hup hfn _), Runs.of_does (exec_kennelSet c i bs) (vendorGate_vf hup hfn _),
    Runs.of_does (exec_kennelDelete c i) (vendorGate_vf hup hfn _), Runs.of_does (exec_kennelRead c i) (vendorGate_vf hup hfn _),
    Runs.of_does (exec_kennelBindFunction c i j k) (vendorGate_vf hup hfn _),
    Runs.of_does (exec_kennelBindNamespace c i j) (vendorGate_vf hup hfn _),
    Runs.of_does (exec_kennelUnbindNamespace c i j) (vendorGate_vf hup hfn _),
    Runs.of_does (exec_unitTakeOut c i j) (vendorGate_vf hup hfn _),
    Runs.of_does (exec_unitReturn c i j) (vendorGate_vf hup hfn _), Runs.of_does (exec_unitQuery c i j) (vendorGate_vf hup hfn _),
    Runs.of_does (exec_evrecCtrlFlush c) (vendorGate_vf hup hfn _),
    Runs.of_does (exec_evrecCtrlClear c) (vendorGate_vf hup hfn _),
    Runs.of_does (exec_evrecSetRateLimit c i j k) (vendorGate_vf hup hfn _),
    Runs.of_does (exec_evrecReadRateLimit c i) (vendorGate_vf hup hfn _),
    Runs.of_does (exec_debugGetChallenge c) (vendorGate_vf hup hfn _),
    Runs.of_does (exec_debugSubmitResponse c bs) (vendorGate_vf hup hfn _)⟩
  · subst he
    have hadmin : ∀ f, adminGate c (trialGate c f) d = adminDone c .interrupted 0 [] d :=
      fun f => (adminGate_up hup _).trans (trialGate_trial htrial c f)
    have hsave : ∀ f, adminGate c (saveGate c true f) d = adminDone c .interrupted 0 [] d :=
      fun f => (adminGate_up hup _).trans (trialGate_trial htrial c f)
    have hvendor : ∀ f, vendorGate c (trialGate c f) d = adminDone c .interrupted 0 [] d :=
      fun f => (vendorGate_pf hup hfn _).trans (trialGate_trial htrial c f)
    exact ⟨Runs.of_does (exec_kennelSet c i bs) (hvendor _), Runs.of_does (exec_kennelDelete c i) (hvendor _),
    Runs.of_does (exec_kennelBindFunction c i j k) (hvendor _), Runs.of_does (exec_kennelBindNamespace c i j) (hvendor _),
    Runs.of_does (exec_kennelUnbindNamespace c i j) (hvendor _), Runs.of_does (exec_namespaceCreate c b i j b1 k) (hadmin _),
    Runs.of_does (exec_namespaceDelete c i) (hadmin _), Runs.of_does (exec_namespaceAttach c i b is) (hadmin _),
    Runs.of_does (exec_setFeaturesTimestamp c true i) (hsave _),
    Runs.of_does (exec_setFeaturesZoneResetMode c i true b1) (hsave _), Runs.of_does (exec_setFeaturesFdp c b true) (hsave _),
    Runs.of_does (exec_setFeaturesPowerState c i true) (hsave _),
    Runs.of_does (exec_setFeaturesTemperatureThreshold c b i j true) (hsave _),
    Runs.of_does (exec_firmwareCommit c i j) (hadmin _), Runs.of_does (exec_layoutTransfer c i bs) (hvendor _),
    Runs.of_does (exec_layoutVerifyStage c) (hvendor _), Runs.of_does (exec_layoutDiscard c) (hvendor _),
    Runs.of_does (exec_evrecSetRateLimit c i j k) (hvendor _)⟩

end Sys2Proof.Machine
end

section
/-!
PROOFS. Namespaces: creation, removal, attachment, the volume, Identify and the log pages.
-/

namespace Sys2Proof.Machine

/-! Creating a namespace. -/

section
variable {c : Src} {d : Dev} {zoned kpio : Bool} {nsze width handles w k cipher : Nat} (hup : adminUp c d = true) (htrial : d.boot.trial = false)
  (hw : (if width = 0 then d.med.layout.width else width) = w)
include hup htrial

theorem nsCreate_frozen (hvol : d.med.volUnknown = true) : nsCreate c zoned nsze width kpio handles d = adminDone c .layoutFrozen 0 [] d := by
  unfold nsCreate
  rw [adminGate_up hup, trialGate_kept htrial]
  exact if_pos hvol

variable (hvol : d.med.volUnknown = false)
include hw hvol

theorem nsCreate_badFields (hfields : createFields d zoned nsze w kpio handles = false) :
    nsCreate c zoned nsze width kpio handles d = adminDone c .invalidField 0 [] d := by
  unfold nsCreate
  rw [adminGate_up hup, trialGate_kept htrial]
  dsimp only
  rw [if_neg (by simp [hvol]), hw, if_pos (by simp [hfields])]

variable (hfields : createFields d zoned nsze w kpio handles = true)
include hfields

theorem nsCreate_noNsid (hfree : freeNsid d = none) : nsCreate c zoned nsze width kpio handles d = adminDone c .nsidUnavailable 0 [] d := by
  unfold nsCreate
  rw [adminGate_up hup, trialGate_kept htrial]
  dsimp only
  rw [if_neg (by simp [hvol]), hw, if_neg (by simp [hfields]), hfree]

variable {nsid : Nat} (hfree : freeNsid d = some nsid)
  (hcipher : (if hasCrypto d.fuse = false ∨ k ∈ d.med.layout.plain then 0 else if kpio then 2 else 1) = cipher)
  (hk : fnKennel d c.port c.fn = k)
include hfree hcipher hk

theorem nsCreate_noCapacity (hfit : slotsFit d (nsNew d c zoned nsze w cipher handles) = false) :
    nsCreate c zoned nsze width kpio handles d = adminDone c .insufficientCapacity 0 [] d := by
  have hcipher' : (if (!hasCrypto d.fuse || d.med.layout.plain.contains k) = true then 0 else if kpio then 2 else 1) = cipher :=
    (if_congr (by simp) rfl rfl).trans hcipher
  unfold nsCreate
  rw [adminGate_up hup, trialGate_kept htrial]
  dsimp only
  rw [if_neg (by simp [hvol]), hw, if_neg (by simp [hfields]), hfree, hk, hcipher']
  exact if_pos (by simp [hfit])

variable {n : Ns} (hn : nsNew d c zoned nsze w cipher handles = n) (hfit : slotsFit d n = true)
include hn hfit

theorem nsCreate_plain (h0 : cipher = 0) : nsCreate c zoned nsze width kpio handles d = nsInstall c nsid k n d := by
  have hcipher' : (if (!hasCrypto d.fuse || d.med.layout.plain.contains k) = true then 0 else if kpio then 2 else 1) = cipher :=
    (if_congr (by simp) rfl rfl).trans hcipher
  unfold nsCreate
  rw [adminGate_up hup, trialGate_kept htrial]
  dsimp only
  rw [if_neg (by simp [hvol]), hw, if_neg (by simp [hfields]), hfree, hk, hcipher', hn]
  dsimp only
  rw [if_neg (by simp [hfit]), if_pos h0]

variable (h0 : cipher ≠ 0)
include h0

theorem nsCreate_noSlot (hslot : freeSlot d = none) :
    nsCreate c zoned nsze width kpio handles d = adminDone c .resourceExhausted 0 [] d := by
  have hcipher' : (if (!hasCrypto d.fuse || d.med.layout.plain.contains k) = true then 0 else if kpio then 2 else 1) = cipher :=
    (if_congr (by simp) rfl rfl).trans hcipher
  unfold nsCreate
  rw [adminGate_up hup, trialGate_kept htrial]
  dsimp only
  rw [if_neg (by simp [hvol]), hw, if_neg (by simp [hfields]), hfree, hk, hcipher', hn]
  dsimp only
  rw [if_neg (by simp [hfit]), if_neg h0, hslot]

variable {s : Nat} (hslot : freeSlot d = some s)
include hslot

/-- With a slot for its key the creation goes on to draw the key: held without the DRBG, refused without a generation, else installed. -/
theorem nsCreate_keyed :
    (drbgReady d.sec = false → nsCreate c zoned nsze width kpio handles d =
      { d with host := { d.host with rndHeld := d.host.rndHeld ++ [.create c zoned nsze width kpio handles] } }) ∧
    (drbgReady d.sec = true → nsKeyMake nsid s k n d = none →
      nsCreate c zoned nsze width kpio handles d = adminDone c .keyExhausted 0 [] d) ∧
    (∀ n1 y, drbgReady d.sec = true → nsKeyMake nsid s k n d = some (n1, y) →
      nsCreate c zoned nsze width kpio handles d = nsInstall c nsid k n1 y) := by
  have hcipher' : (if (!hasCrypto d.fuse || d.med.layout.plain.contains k) = true then 0 else if kpio then 2 else 1) = cipher :=
    (if_congr (by simp) rfl rfl).trans hcipher
  unfold nsCreate
  rw [adminGate_up hup, trialGate_kept htrial]
  dsimp only
  rw [if_neg (by simp [hvol]), hw, if_neg (by simp [hfields]), hfree, hk, hcipher', hn]
  dsimp only
  rw [if_neg (by simp [hfit]), if_neg h0, hslot]
  dsimp only
  unfold rndGate
  refine ⟨fun hdrbg => if_neg (by simp [hdrbg]), fun hdrbg hkey => ?_, fun n1 y hdrbg hkey => ?_⟩
  · rw [if_pos hdrbg]
    dsimp only
    rw [hkey]
  · rw [if_pos hdrbg]
    dsimp only
    rw [hkey]

end

/-! The volume. -/

/-- What a volume's replicas and blocks leave alone. -/
def Dev.volumed (d : Dev) : Nat × Nat × Tenancy := (d.med.volGen, d.med.volWritten, d.ten)

theorem eraseAdd_volumed (die b : Nat) (d : Dev) : (eraseAdd die b d).volumed = d.volumed := by
  unfold eraseAdd
  extract_lets x q d1
  split <;> rfl

theorem replicaWrite_volumed (p i : Nat) (d : Dev) : (replicaWrite p i d).volumed = d.volumed := by
  unfold replicaWrite
  extract_lets k g new old
  split
  · rfl
  · split
    · rfl
    · split
      · rfl
      · rename_i b d1 hblock
        have hd1 : d1.volumed = d.volumed := by
          obtain ⟨q, -, hq⟩ := Option.map_eq_some_iff.mp hblock
          rw [← (Prod.mk.inj hq).2]
          rfl
        generalize old = kept
        rcases kept with _ | r
        · exact hd1
        · exact (eraseAdd_volumed ..).trans hd1

theorem replicasEach_volumed (d : Dev) : (replicasEach replicaWrite d).volumed = d.volumed :=
  foldl_keeps Dev.volumed (fun d p => foldl_keeps Dev.volumed (fun d i => replicaWrite_volumed p i d) _ d) _ d

theorem volWrite_spec (d : Dev) : (volWrite d).med.volGen = d.med.volGen + 1 ∧ (volWrite d).med.volWritten = d.aff.mtime ∧
    (volWrite d).ten = d.ten := by
  have h : (volWrite d).volumed = (d.med.volGen + 1, d.aff.mtime, d.ten) := replicasEach_volumed _
  simpa only [Dev.volumed, Prod.mk.injEq] using h

/-- A new volume: no namespace is latched Read Only. -/
theorem volCreate_spec (d : Dev) : (volCreate d).ten = { d.ten with
      namespaces := d.ten.namespaces.map (fun q => (q.1, { q.2 with readOnly := false })) } ∧
    (volCreate d).med.formatted = true ∧ (volCreate d).med.volGen = 0 ∧ (volCreate d).med.jr = d.med.jr := by
  obtain ⟨hw, sj, hcounts⟩ := countsSave_eq (countsPut (fun _ => 0) (factoryWrite d))
  have hfactory : ∃ hw, factoryWrite d = { d with hw := hw } := by
    unfold factoryWrite
    split
    · exact ⟨d.hw, rfl⟩
    · exact ⟨_, rfl⟩
  obtain ⟨hw', hfactory⟩ := hfactory
  have hten : (wearWrite (countsFormat (factoryWrite d))).ten = d.ten ∧ (wearWrite (countsFormat (factoryWrite d))).med.jr = d.med.jr := by
    unfold wearWrite countsFormat affMod
    rw [hcounts, hfactory]
    exact ⟨rfl, rfl⟩
  unfold volCreate
  extract_lets d1 p v
  obtain ⟨hten, hjr⟩ : d1.ten = d.ten ∧ d1.med.jr = d.med.jr := hten
  clear_value d1 v
  refine ⟨?_, rfl, rfl, hjr⟩
  change ({ d1.ten with namespaces := d1.ten.namespaces.map (fun q => (q.1, { q.2 with readOnly := false })) } : Tenancy) = _
  rw [hten]

theorem nsInstall_spec (d : Dev) (c : Src) (nsid k : Nat) (n : Ns) : ∃ x, nsInstall c nsid k n d = adminDone c .success nsid [] (volWrite
      (if n.zoned then zonesCreate nsid n x
        else { x with med := { x.med with mapu := { x.med.mapu with segBase := tabPut x.med.mapu.segBase nsid n.base } } })) ∧
    nsGet x nsid = some n ∧ x.ten.nsBind = d.ten.nsBind ++ [(nsid, k)] ∧ x.med.formatted = true ∧
    x.med.volGen = (if d.med.formatted then d.med.volGen else 0) ∧ jrNs nsid n.base n.nsze false ∈ x.med.jr.buf ∧
    (d.med.formatted = true → ∀ i, i ≠ nsid → nsGet x i = nsGet d i) := by
  refine ⟨_, rfl, ?_⟩
  unfold nsBindRecord areaReserve
  rw [sjPut_frame]
  generalize hd0 : (if d.med.formatted = true then d else volCreate d) = d0
  have hbind : d0.ten.nsBind = d.ten.nsBind := by
    rw [← hd0]
    split
    · rfl
    · rw [(volCreate_spec d).1]
  have hformatted : d0.med.formatted = true := by
    rw [← hd0]
    split
    · assumption
    · exact (volCreate_spec d).2.1
  have hgen : d0.med.volGen = (if d.med.formatted then d.med.volGen else 0) := by
    rw [← hd0]
    split
    · rfl
    · exact (volCreate_spec d).2.2.1
  refine ⟨tabGet_tabPut_self .., congrArg (· ++ [(nsid, k)]) hbind, hformatted, hgen, jput_mem .., fun hf i hi => ?_⟩
  have hkept : d0 = d := by rw [← hd0, if_pos hf]
  exact (tabGet_tabPut_other _ _ hi).trans (by rw [hkept, nsGet])

/-! The key of a namespace. -/

theorem drawXts_slots (n : Nat) (s : Sec) : (drawXts n s).2.slots = s.slots := by
  induction n generalizing s with
  | zero => rfl
  | succ n ih =>
    rw [drawXts]
    split
    · rfl
    · exact ih _

theorem keyAreaPut_frame (off : Nat) (bs : List Byte) (d : Dev) : keyAreaPut off bs d = { d with
    hw := (keyAreaPut off bs d).hw, sj := (keyAreaPut off bs d).sj } := by
  unfold keyAreaPut
  split <;> rfl

theorem slotGet_slotPut_other {n t : Nat} (s : Sec) (x : Slot) (h : t ≠ n) : slotGet (slotPut s n x) t = slotGet s t := by
  simp only [slotGet, slotPut, tabGetD, tabGet_tabPut_other _ _ h]

theorem slotLoad_some {x y : Slot} {type scope kennel : Nat} {key : BitVec 512} (h : slotLoad x type key scope kennel = some y) :
    y.type = type ∧ y.gen = x.gen + 1 ∧ y.kennel = kennel ∧ y.scope = scope := by
  unfold slotLoad at h
  split at h
  · cases h
  · obtain rfl := Option.some.inj h
    exact ⟨rfl, rfl, rfl, rfl⟩

theorem nsKeyMake_spec {d x1 : Dev} {nsid s k : Nat} {n n1 : Ns} (h : nsKeyMake nsid s k n d = some (n1, x1)) :
    n1 = { n with slot := s, keyGen := (slotGet d.sec s).gen + 1, keyCheck := keyCheckOf (slotGet x1.sec s), keyFailed := false } ∧
    (slotGet x1.sec s).kennel = k ∧ (slotGet x1.sec s).type = 1 ∧ (slotGet x1.sec s).scope = 1 ∧ x1.ten = d.ten ∧
    (∀ t, t ≠ s → slotGet x1.sec t = slotGet d.sec t) := by
  have hkv : kvGenerate s 1 1 k d = match slotLoad (slotGet d.sec s) 1 (drawXts 64 d.sec).1 1 k with
      | none => ({ st := .keyExhausted, gen := (slotGet d.sec s).gen }, { d with hw := irq d.hw irqKv 5 })
      | some y => ({ st := .ok, gen := y.gen }, { d with sec := { slotPut (drawXts 64 d.sec).2 s y with kvState := 1 } }) := by
    rw [kvGenerate, if_neg (by decide)]
    rfl
  unfold nsKeyMake at h
  rw [hkv] at h
  cases hload : slotLoad (slotGet d.sec s) 1 (drawXts 64 d.sec).1 1 k with
  | none =>
    simp [hload] at h
  | some y =>
    obtain ⟨htype, hgen, hkennel, hscope⟩ := slotLoad_some hload
    simp only [hload] at h
    rw [if_neg (by simp), keyAreaPut_frame] at h
    obtain ⟨rfl, rfl⟩ := Prod.mk.inj (Option.some.inj h)
    have hslot : slotGet { slotPut (drawXts 64 d.sec).2 s y with kvState := 1 } s = y := slotGet_slotPut ..
    dsimp only
    rw [hslot, hgen]
    refine ⟨rfl, hkennel, htype, hscope, rfl, fun t ht => ?_⟩
    refine (slotGet_slotPut_other (drawXts 64 d.sec).2 y ht).trans ?_
    rw [slotGet, drawXts_slots, slotGet]

/-! Removing a namespace. -/

/-- The map's entries, the tenants and the security state. -/
def Dev.owned (d : Dev) : List (Nat × MapEnt) × Tenancy × Sec := (d.med.mapu.map, d.ten, d.sec)

theorem owned_of_kept {d e : Dev} (h : e.entries = d.entries) (h' : e.inner = d.inner) : e.owned = d.owned := by
  simp only [Dev.entries, Dev.inner, Prod.mk.injEq] at h h'
  simp only [Dev.owned, Prod.mk.injEq]
  tauto

theorem doomCheck_owned (d : Dev) : (doomCheck d).owned = d.owned := owned_of_kept (doomCheck_entries d) (doomCheck_inner d)

theorem parkSweep_owned (d : Dev) : (parkSweep d).owned = d.owned := by
  refine owned_of_kept (parkSweep_entries d) ?_
  unfold parkSweep
  exact foldl_keeps Dev.inner (fun d q => sbErase_inner ..) _ d

theorem sjPut_owned (type key : Nat) (p : List Byte) (d : Dev) : (sjPut type key p d).owned = d.owned := by
  rw [sjPut_frame]
  rfl

theorem doomUnqueue_owned (s : Nat) (d : Dev) : (doom s (unqueueSb s d)).owned = d.owned := rfl

theorem keyAreaPut_owned (off : Nat) (bs : List Byte) (d : Dev) : (keyAreaPut off bs d).owned = d.owned := by
  rw [keyAreaPut_frame]
  rfl

theorem nsRemove_owned (nsid : Nat) (n : Ns) (d : Dev) : (nsRemove nsid n d).owned =
    (d.med.mapu.map.filter (fun q => decide (q.1 / 17592186044416 ≠ nsid)),
      { d.ten with
        namespaces := tabDel d.ten.namespaces nsid, zones := d.ten.zones.filter (fun q => decide (q.1 / 1048576 ≠ nsid))
        nsBind := d.ten.nsBind.filter (fun q => decide (q.1 ≠ nsid)) },
      if n.cipher = 0 then d.sec else slotPut d.sec n.slot (slotClear (slotGet d.sec n.slot))) := by
  unfold nsRemove
  extract_lets sbs lost loose dirty med d1 d2 d3 d4 ten5 med5 d5 d6 d7
  have h4 : d4.owned = (d.med.mapu.map.filter (fun q => decide (q.1 / 17592186044416 ≠ nsid)), d.ten, d.sec) :=
    foldl_keeps Dev.owned (fun x s => doomUnqueue_owned s x) _ d3
  simp only [Dev.owned, Prod.mk.injEq] at h4
  obtain ⟨hmap, hten, hsec⟩ := h4
  have h5 : d5.owned = (d.med.mapu.map.filter (fun q => decide (q.1 / 17592186044416 ≠ nsid)), { d.ten with
      namespaces := tabDel d.ten.namespaces nsid, zones := d.ten.zones.filter (fun q => decide (q.1 / 1048576 ≠ nsid))
      nsBind := d.ten.nsBind.filter (fun q => decide (q.1 ≠ nsid)) }, d.sec) := by
    rw [← hmap, ← hten, ← hsec]
    rfl
  have h7 : d7.owned = d6.owned :=
    (foldl_keeps Dev.owned (fun x q => sjPut_owned ..) _ _).trans (sjPut_owned ..)
  refine ((parkSweep_owned _).trans ((doomCheck_owned _).trans h7)).trans ?_
  unfold d6
  split
  · exact h5
  · rw [keyAreaPut_owned]
    simp only [Dev.owned, Prod.mk.injEq] at h5 ⊢
    obtain ⟨h5map, h5ten, h5sec⟩ := h5
    exact ⟨h5map, h5ten, by rw [h5sec]⟩

theorem nsRemove_spec {d : Dev} (nsid : Nat) (n : Ns) (h : tabRising d.ten.namespaces = true) :
    nsGet (nsRemove nsid n d) nsid = none ∧ (∀ i, i ≠ nsid → nsGet (nsRemove nsid n d) i = nsGet d i) ∧
    (∀ q ∈ (nsRemove nsid n d).ten.nsBind, q.1 ≠ nsid) ∧ (∀ q ∈ (nsRemove nsid n d).ten.zones, q.1 / 1048576 ≠ nsid) ∧
    (∀ q ∈ (nsRemove nsid n d).med.mapu.map, q.1 / 17592186044416 ≠ nsid) ∧
    (n.cipher ≠ 0 → slotGet (nsRemove nsid n d).sec n.slot = slotClear (slotGet d.sec n.slot)) := by
  have hown := nsRemove_owned nsid n d
  simp only [Dev.owned, Prod.mk.injEq] at hown
  obtain ⟨hmap, hten, hsec⟩ := hown
  unfold nsGet
  rw [hten, hmap, hsec]
  refine ⟨tabGet_tabDel_self nsid h, fun i hi => tabGet_tabDel_other _ hi, fun q hq => ?_, fun q hq => ?_, fun q hq => ?_, fun hc => ?_⟩
  · exact of_decide_eq_true (List.mem_filter.mp hq).2
  · exact of_decide_eq_true (List.mem_filter.mp hq).2
  · exact of_decide_eq_true (List.mem_filter.mp hq).2
  · rw [if_neg hc]
    exact slotGet_slotPut ..

/-! Attachment. -/

section
variable {c : Src} {d : Dev} {nsid : Nat} {attach : Bool} {ids keys : List Nat} {n : Ns} (hup : adminUp c d = true)
  (htrial : d.boot.trial = false) (hn : nsGet d nsid = some n)
include hup htrial hn

theorem nsAttach_badIds (h : ids = [] ∨ 0 ∈ ids ∨ ∃ i ∈ ids, ctrlPresent d (ctrlOfId i).1 (ctrlOfId i).2 = false) :
    nsAttach c nsid attach ids d = adminDone c .invalidField 0 [] d := by
  unfold nsAttach
  rw [adminGate_up hup, trialGate_kept htrial]
  dsimp only
  rw [hn]
  refine if_pos ?_
  rcases h with h | h | ⟨i, hi, hp⟩
  · simp [h]
  · simp [h]
  · simp only [Bool.or_eq_true, List.any_eq_true, List.mem_map]
    exact .inr ⟨ctrlOfId i, ⟨i, hi, rfl⟩, by simp [hp]⟩

variable (hkeys : keys = ids.map (fun i => (ctrlOfId i).1 * 64 + (ctrlOfId i).2)) (hids : ids ≠ []) (hzero : 0 ∉ ids) (hpresent : ∀ i ∈ ids, ctrlPresent d (ctrlOfId i).1 (ctrlOfId i).2 = true)
include hkeys hids hzero hpresent

theorem nsAttach_goodIds : nsAttach c nsid attach ids d =
    if attach = true ∧ ∃ i ∈ ids, (nsid, fnKennel d (ctrlOfId i).1 (ctrlOfId i).2) ∉ d.ten.nsBind then adminDone c .kennelMismatch 0 [] d
    else if attach = true ∧ ∃ k ∈ keys, k ∈ n.attached then adminDone c .nsAttached 0 [] d
    else if attach = false ∧ ∃ k ∈ keys, k ∉ n.attached then adminDone c .nsNotAttached 0 [] d
    else adminDone c .success 0 [] { d with ten := { d.ten with namespaces := tabPut d.ten.namespaces nsid { n with
      attached := if attach then n.attached ++ keys else n.attached.filter (fun k => !keys.contains k) } } } := by
  subst hkeys
  have hgood : ¬ (ids.isEmpty || ids.any (fun i => decide (i = 0)) || (ids.map ctrlOfId).any (fun q => !ctrlPresent d q.1 q.2)) = true := by
    simp only [Bool.or_eq_true, List.any_eq_true, List.mem_map, not_or]
    refine ⟨⟨by simpa using hids, ?_⟩, ?_⟩
    · rintro ⟨i, hi, h0⟩
      exact hzero (of_decide_eq_true h0 ▸ hi)
    · rintro ⟨_, ⟨i, hi, rfl⟩, hp⟩
      simp [hpresent i hi] at hp
  unfold nsAttach
  rw [adminGate_up hup, trialGate_kept htrial]
  dsimp only
  rw [hn]
  dsimp only
  rw [if_neg hgood, List.map_map]
  refine if_congr ?_ rfl (if_congr ?_ rfl (if_congr ?_ rfl rfl))
  · simp
  · simp
  · simp

end

/-! Identify and the log pages. -/

theorem stdLog_none (d : Dev) (lid : Nat) :
    stdLog d lid = none ↔ lid ∉ [0, 1, 2, 3, 4, 5, 9, 0x20, 0x21, 0x22, 0x23, 0x80, 0x81, 0xBF] := by
  by_cases h : lid ∈ [0, 1, 2, 3, 4, 5, 9, 0x20, 0x21, 0x22, 0x23, 0x80, 0x81, 0xBF]
  · simp only [h, not_true, iff_false]
    simp only [List.mem_cons, List.not_mem_nil, or_false] at h
    rcases h with h | h | h | h | h | h | h | h | h | h | h | h | h | h <;> subst h <;> simp [stdLog]
  · simp only [h, not_false_eq_true, iff_true]
    simp only [List.mem_cons, List.not_mem_nil, or_false, not_or] at h
    unfold stdLog
    split <;> simp_all

theorem getLog_vendor {d : Dev} {c : Src} {lid lsi key : Nat} {page : List Byte} (off len : Nat) (hup : adminUp c d = true)
    (hlo : 0xC0 ≤ lid) (hhi : lid ≤ 0xC7) (hlsi : lid = 0xC6 → lsi ≤ 255 ∧ (c.fn = 0 ∨ lsi = fnKennel d c.port c.fn))
    (hkey : key = lid * 256 + (if lid = 0xC6 then lsi else 0))
    (hpage : page = ((if off = 0 then none else tabGet (ctrlGet d c.port c.fn).snaps key).getD (vendorLog d (decide (c.fn ≠ 0)) lid lsi))) :
    getLog c lid lsi off len d = adminDone c .success 0 (((page.drop off).take len).map (fun b => b.toNat))
      (ctrlPut d c.port c.fn { ctrlGet d c.port c.fn with snaps := tabPut (ctrlGet d c.port c.fn).snaps key page }) := by
  subst hkey hpage
  have hfield : ¬ (lid = 0xC6 ∧ (255 < lsi ∨ (c.fn ≠ 0 ∧ lsi ≠ fnKennel d c.port c.fn))) := by
    rintro ⟨h6, hbad⟩
    obtain ⟨hmax, hown⟩ := hlsi h6
    rcases hbad with hbad | ⟨hfn, hk⟩
    · omega
    · exact hown.elim hfn hk
  refine (adminGate_up hup _).trans ?_
  dsimp only
  rw [if_pos ⟨hlo, hhi⟩, if_neg hfield]
  rfl

theorem getLog_badKennel {d : Dev} {c : Src} {lsi : Nat} (off len : Nat) (hup : adminUp c d = true)
    (h : 255 < lsi ∨ (c.fn ≠ 0 ∧ lsi ≠ fnKennel d c.port c.fn)) : getLog c 0xC6 lsi off len d = adminDone c .invalidField 0 [] d := by
  refine (adminGate_up hup _).trans ?_
  dsimp only
  rw [if_pos (by decide), if_pos ⟨rfl, h⟩]

theorem getLog_std {d : Dev} {c : Src} {lid : Nat} (lsi off len : Nat) (hup : adminUp c d = true) (h : lid < 0xC0 ∨ 0xC7 < lid) :
    (∀ page, stdLog d lid = some page → getLog c lid lsi off len d = adminDone c .success 0
      (((page.drop off).take len).map (fun b => b.toNat)) { d with hw := spend (spend d.hw) }) ∧
    (stdLog d lid = none → getLog c lid lsi off len d = adminDone c .invalidLogPage 0 [] d) := by
  have hlog : getLog c lid lsi off len d = _ := adminGate_up hup _
  rw [hlog]
  dsimp only
  rw [if_neg (by omega)]
  refine ⟨fun page hp => ?_, fun hp => ?_⟩
  · rw [hp]
    rfl
  · rw [hp]

/-- Settles O45, each part by the lemma on it. -/
theorem namespaceCommands : Obligations.NamespaceCommands := by
  refine ⟨?_, fun d c nsid k n => nsInstall_spec d c nsid k n, fun d nsid n => rfl, volWrite_spec, fun d x1 nsid s k n n1 => nsKeyMake_spec,
    ?_, ?_, fun d nsid n => nsRemove_spec nsid n, ?_, ?_, ?_, by decide, ?_, ?_, ?_, ?_, stdLog_none⟩
  · intro d c zoned kpio nsze width handles nsid k w cipher n hup htrial hvol hw hk hcipher hfields hfree hn hfit
    have hruns : ∀ {e : Dev}, nsCreate c zoned nsze width kpio handles d = e → Runs (.namespaceCreate c zoned nsze width kpio handles) d e :=
      fun he => Runs.of_does (exec_namespaceCreate c zoned nsze width kpio handles) he
    refine ⟨fun h0 => ?_, fun h0 hslot => ?_, fun s h0 hslot => ?_, fun s h0 hslot => ?_, fun s n1 y h0 hslot => ?_⟩
    · exact hruns (nsCreate_plain hup htrial hw.symm hvol hfields hfree hcipher.symm hk.symm hn.symm hfit h0)
    · exact hruns
        (nsCreate_noSlot hup htrial hw.symm hvol hfields hfree hcipher.symm hk.symm hn.symm hfit h0 hslot)
    · obtain ⟨hwait, -, -⟩ := nsCreate_keyed hup htrial hw.symm hvol hfields hfree hcipher.symm hk.symm hn.symm hfit h0 hslot
      exact fun hdrbg => hruns (hwait hdrbg)
    · obtain ⟨-, hnone, -⟩ := nsCreate_keyed hup htrial hw.symm hvol hfields hfree hcipher.symm hk.symm hn.symm hfit h0 hslot
      exact fun hdrbg hkey => hruns (hnone hdrbg hkey)
    · obtain ⟨-, -, hmade⟩ := nsCreate_keyed hup htrial hw.symm hvol hfields hfree hcipher.symm hk.symm hn.symm hfit h0 hslot
      exact fun hdrbg hkey => hruns (hmade n1 y hdrbg hkey)
  · intro d c zoned kpio nsze width handles w hup htrial hw
    have hruns : ∀ {e : Dev}, nsCreate c zoned nsze width kpio handles d = e → Runs (.namespaceCreate c zoned nsze width kpio handles) d e :=
      fun he => Runs.of_does (exec_namespaceCreate c zoned nsze width kpio handles) he
    refine ⟨fun hvol => ?_, fun hvol hfields => ?_, fun hvol hfields hfree => ?_, fun nsid cipher hvol hfields hfree hcipher hfit => ?_⟩
    · exact hruns (nsCreate_frozen hup htrial hvol)
    · exact hruns (nsCreate_badFields hup htrial hw.symm hvol hfields)
    · exact hruns (nsCreate_noNsid hup htrial hw.symm hvol hfields hfree)
    · exact hruns (nsCreate_noCapacity hup htrial hw.symm hvol hfields hfree hcipher.symm rfl hfit)
  · intro d c nsid n hup htrial hall hn
    refine Runs.of_does (exec_namespaceDelete c nsid) ?_
    unfold nsDelete
    rw [adminGate_up hup, trialGate_kept htrial]
    rw [if_neg hall, hn]
  · intro d c hup htrial
    refine Runs.of_does (exec_namespaceDelete c _) ?_
    unfold nsDelete
    rw [adminGate_up hup, trialGate_kept htrial]
    exact if_pos rfl
  · intro d c nsid attach ids hup htrial hn hall
    refine ⟨Runs.of_does (exec_namespaceDelete c nsid) ?_, Runs.of_does (exec_namespaceAttach c nsid attach ids) ?_⟩
    · unfold nsDelete
      rw [adminGate_up hup, trialGate_kept htrial]
      rw [if_neg hall, hn]
    · unfold nsAttach
      rw [adminGate_up hup, trialGate_kept htrial]
      dsimp only
      rw [hn]
  · intro d c nsid ids keys n hup htrial hn hkeys attach
    have hruns : ∀ {e : Dev}, nsAttach c nsid attach ids d = e → Runs (.namespaceAttach c nsid attach ids) d e :=
      fun he => Runs.of_does (exec_namespaceAttach c nsid attach ids) he
    refine ⟨fun h => hruns (nsAttach_badIds hup htrial hn h), fun hids hzero hpresent => ?_⟩
    have hgood := nsAttach_goodIds (attach := attach) hup htrial hn hkeys hids hzero hpresent
    refine ⟨fun ha hex => ?_, fun ha hall hex => ?_, fun ha hall hnone => ?_, fun ha hex => ?_, fun ha hall => ?_⟩
    · exact hruns (hgood.trans (if_pos ⟨ha, hex⟩))
    · exact hruns (hgood.trans ((if_neg (fun ⟨_, i, hi, h⟩ => h (hall i hi))).trans (if_pos ⟨ha, hex⟩)))
    · refine hruns (hgood.trans ?_)
      rw [if_neg (fun ⟨_, i, hi, h⟩ => h (hall i hi)), if_neg (fun ⟨_, k, hk, h⟩ => hnone k hk h), if_neg (by simp [ha]), if_pos ha]
    · refine hruns (hgood.trans ?_)
      rw [if_neg (by simp [ha]), if_neg (by simp [ha]), if_pos ⟨ha, hex⟩]
    · refine hruns (hgood.trans ?_)
      rw [if_neg (by simp [ha]), if_neg (by simp [ha]), if_neg (fun ⟨_, k, hk, h⟩ => h (hall k hk)), if_neg (by simp [ha])]
      simp
  · intro d c nsid hup
    have hruns : ∀ {cns : Nat} {e : Dev}, identify c cns nsid d = e → Runs (.identify c cns nsid) d e :=
      fun he => Runs.of_does (exec_identify c _ nsid) he
    refine ⟨fun n hn => hruns ((adminGate_up hup _).trans ?_), fun hn => hruns ((adminGate_up hup _).trans ?_),
      fun n hn => ⟨fun hz => hruns ((adminGate_up hup _).trans ?_), fun hz => hruns ((adminGate_up hup _).trans ?_),
        hruns ((adminGate_up hup _).trans ?_)⟩,
      fun hn => ⟨hruns ((adminGate_up hup _).trans ?_), hruns ((adminGate_up hup _).trans ?_)⟩,
      hruns (adminGate_up hup _), hruns (adminGate_up hup _), hruns (adminGate_up hup _), hruns (adminGate_up hup _), hruns (adminGate_up hup _),
      fun cns hcns => hruns ((adminGate_up hup _).trans ?_)⟩
    · dsimp only
      rw [hn]
      rfl
    · dsimp only
      rw [hn]
      rfl
    · dsimp only
      rw [hn]
      exact if_pos hz
    · dsimp only
      rw [hn]
      exact if_neg (by simp [hz])
    · dsimp only
      rw [hn]
      rfl
    · dsimp only
      rw [hn]
      rfl
    · dsimp only
      rw [hn]
      rfl
    · dsimp only
      split <;> simp_all
  · intro d c lid lsi off len key page hup hlo hhi hlsi hkey hpage
    exact Runs.of_does (exec_getLogPage c _ lsi off len) (getLog_vendor off len hup hlo hhi hlsi hkey hpage)
  · intro d c lsi off len hup h
    exact Runs.of_does (exec_getLogPage c _ lsi off len) (getLog_badKennel off len hup h)
  · intro d c lid lsi off len hup h
    obtain ⟨hsome, hnone⟩ := getLog_std lsi off len hup h
    exact ⟨fun page hp => Runs.of_does (exec_getLogPage c _ lsi off len) (hsome page hp), fun hp => Runs.of_does (exec_getLogPage c _ lsi off len) (hnone hp)⟩

end Sys2Proof.Machine
end

section
/-!
PROOFS. Set and Get Features.
-/

namespace Sys2Proof.Machine

theorem fdpTimes_aff (t : Nat) (d : Dev) : (fdpTimes t d).aff = d.aff := by
  unfold fdpTimes
  refine foldl_keeps Dev.aff (fun e q => ?_) _ d
  split
  · unfold fdpEvent
    split <;> rfl
  · rfl

theorem sweepStart_clock (d : Dev) : (sweepStart d).aff.mtime = d.aff.mtime ∧ (sweepStart d).aff.ticks = d.aff.ticks ∧
    (sweepStart d).aff.timeSrc = d.aff.timeSrc := by
  unfold sweepStart
  split <;> exact ⟨rfl, rfl, rfl⟩

theorem timestampSet_forward {ms : Nat} {d : Dev} (h : d.aff.mtime < ms / 1000) : (timestampSet ms d).aff.mtime = ms / 1000 ∧
    (timestampSet ms d).aff.ticks = ms % 1000 * 25000 ∧ (timestampSet ms d).aff.timeSrc = 1 := by
  unfold timestampSet
  dsimp only
  rw [if_pos h]
  split
  · obtain ⟨hm, ht, hs⟩ := sweepStart_clock (fdpTimes d.aff.mtime
      (affMod (fun a => { a with mtime := ms / 1000, ticks := ms % 1000 * 25000, timeSrc := 1, stamped := true }) d))
    rw [hm, ht, hs, fdpTimes_aff]
    exact ⟨rfl, rfl, rfl⟩
  · rw [fdpTimes_aff]
    exact ⟨rfl, rfl, rfl⟩

theorem timestampSet_backward {ms : Nat} {d : Dev} (h : ms / 1000 ≤ d.aff.mtime) : timestampSet ms d = affMod (fun a => { a with stamped := true })
    { d with hw := evUnit (irq d.hw irqAffineur 7) 15 0x073 1 (ms / 1000) d.aff.mtime 0 } := by
  unfold timestampSet
  exact if_neg (Nat.not_lt.mpr h)

/-- A Set Features that saves nothing, or saves outside a trial, takes effect. -/
theorem saveGate_kept {save : Bool} {d : Dev} (h : save = true → d.boot.trial = false) (c : Src) (f : Dev → Dev) : saveGate c save f d = f d :=
  if_neg (by cases save <;> simp_all)

section
variable {c : Src} {d : Dev} {save : Bool} (hup : adminUp c d = true) (hsave : save = true → d.boot.trial = false)
include hup hsave

theorem featureGates (f : Dev → Dev) : adminGate c (saveGate c save f) d = f d := (adminGate_up hup _).trans (saveGate_kept hsave c f)

theorem setZoneReset_spec (nsid : Nat) (secure : Bool) :
    (∀ n, nsGet d nsid = some n → n.zoned = true → setZoneReset c nsid save secure d = adminDone c .success 0 []
      (sjPut 0x20 0xC0 (leBytes 4 nsid ++ leBytes 4 (if secure then 1 else 0)) { d with
        ten := { d.ten with namespaces := tabPut d.ten.namespaces nsid { n with secureMode := secure } } })) ∧
    (∀ n, nsGet d nsid = some n → n.zoned = false → setZoneReset c nsid save secure d = adminDone c .invalidField 0 [] d) ∧
    (nsGet d nsid = none → setZoneReset c nsid save secure d = adminDone c .invalidNamespace 0 [] d) := by
  refine ⟨fun n hn hz => (featureGates hup hsave _).trans ?_, fun n hn hz => (featureGates hup hsave _).trans ?_,
    fun hn => (featureGates hup hsave _).trans ?_⟩
  · rw [hn]
    exact if_neg (by simp [hz])
  · rw [hn]
    exact if_pos (by simp [hz])
  · rw [hn]

theorem setFdp_spec (on : Bool) :
    (d.ten.namespaces = [] → setFdp c on save d = adminDone c .success 0 []
      (featureSave save 0x1D 0 [if on then 1#8 else 0#8] { d with host := { d.host with fdp := on } })) ∧
    (d.ten.namespaces ≠ [] → setFdp c on save d = adminDone c .commandSequence 0 [] d) :=
  ⟨fun h => (featureGates hup hsave _).trans (if_neg (by simp [h])), fun h => (featureGates hup hsave _).trans (if_pos (by simpa using h))⟩

theorem setPower_spec (ps : Nat) :
    (ps ≤ 2 → setPower c ps save d = adminDone c .success 0 [] (featureSave save 2 0 [BitVec.ofNat 8 ps] { d with
      host := { d.host with ctrls := tabPut d.host.ctrls (c.port * 64 + c.fn) { ctrlGet d c.port c.fn with ps := ps } }
      hw := md d.hw R.FCH_PACE_EFF (fun w => putFld w 0 2 ps) })) ∧
    (2 < ps → setPower c ps save d = adminDone c .invalidField 0 [] d) :=
  ⟨fun h => (featureGates hup hsave _).trans (if_neg (Nat.not_lt.mpr h)), fun h => (featureGates hup hsave _).trans (if_pos h)⟩

theorem setTempThreshold_spec {x : Dev} (under : Bool) (sensor k : Nat)
    (hx : x = { d with therm := if under then { d.therm with threshUnder := tabPut d.therm.threshUnder 0 (k % 65536) }
      else { d.therm with threshOver := tabPut d.therm.threshOver 0 (k % 65536) } }) :
    (sensor = 0 → setTempThreshold c under sensor k save d = adminDone c .success 0 [] (thresholdCheck
      (featureSave save 4 0 (leBytes 2 (tabGetD x.therm.threshOver 0 (overDefault x)) ++ leBytes 2 (tabGetD x.therm.threshUnder 0 0)) x))) ∧
    (sensor ≠ 0 → setTempThreshold c under sensor k save d = adminDone c .invalidField 0 [] d) := by
  subst hx
  exact ⟨fun h => (featureGates hup hsave _).trans (if_neg (by simp [h])), fun h => (featureGates hup hsave _).trans (if_pos h)⟩

end

/-- Settles O46, each part by the lemma on it. -/
theorem featureCommands : Obligations.FeatureCommands := by
  refine ⟨?_, fun d c hup => Runs.of_does (exec_getFeaturesTimestamp c) (adminGate_up hup _), ?_, ?_, ?_, ?_, fun d fid nsid v => ⟨rfl, rfl⟩⟩
  · intro d c save ms hup hsave
    refine ⟨Runs.of_does (exec_setFeaturesTimestamp c save ms) (featureGates hup hsave _), timestampSet_forward, fun h => ?_⟩
    rw [timestampSet_backward h]
    exact ⟨rfl, rfl, rfl⟩
  · intro d c nsid save secure hup hsave
    obtain ⟨hzoned, hconv, hnone⟩ := setZoneReset_spec hup hsave nsid secure
    exact ⟨fun n hn hz => Runs.of_does (exec_setFeaturesZoneResetMode c nsid save secure) (hzoned n hn hz),
      fun n hn hz => Runs.of_does (exec_setFeaturesZoneResetMode c nsid save secure) (hconv n hn hz),
      fun hn => Runs.of_does (exec_setFeaturesZoneResetMode c nsid save secure) (hnone hn)⟩
  · intro d c on save hup hsave
    obtain ⟨hnone, hsome⟩ := setFdp_spec hup hsave on
    exact ⟨fun h => Runs.of_does (exec_setFeaturesFdp c on save) (hnone h), fun h => Runs.of_does (exec_setFeaturesFdp c on save) (hsome h)⟩
  · intro d c ps save hup hsave
    obtain ⟨hset, hbad⟩ := setPower_spec hup hsave ps
    exact ⟨fun h => Runs.of_does (exec_setFeaturesPowerState c ps save) (hset h),
      fun h => Runs.of_does (exec_setFeaturesPowerState c ps save) (hbad h)⟩
  · intro d x c under save sensor k hup hsave hx
    obtain ⟨hset, hbad⟩ := setTempThreshold_spec hup hsave under sensor k hx
    exact ⟨fun h => Runs.of_does (exec_setFeaturesTemperatureThreshold c under sensor k save) (hset h),
      fun h => Runs.of_does (exec_setFeaturesTemperatureThreshold c under sensor k save) (hbad h)⟩

end Sys2Proof.Machine
end

section
/-!
PROOFS. The Host Memory Buffer, virtual functions, Abort and asynchronous events.
-/

namespace Sys2Proof.Machine

/-! The Host Memory Buffer. -/

theorem hmbEnable_spec (c : Src) (units : Nat) (d : Dev) :
    (c.fn ≠ 0 → hmbEnable c units d = adminDone c .invalidField 0 [] d) ∧
    (c.fn = 0 → (portGet d c.port).hmb ≠ .off → hmbEnable c units d = adminDone c .commandSequence 0 [] d) ∧
    (c.fn = 0 → (portGet d c.port).hmb = .off → (units < hmbNeed d c.port ∨ units = 0) →
      hmbEnable c units d = adminDone c .invalidField 0 [] d) ∧
    (c.fn = 0 → (portGet d c.port).hmb = .off → hmbNeed d c.port ≤ units → units ≠ 0 → hmbEnable c units d = adminDone c .success 0 []
      { portPut d c.port { portGet d c.port with hmb := .rebuilding, hmbUnits := units } with hw := irq d.hw irqHostif (16 * c.port + 7) }) := by
  unfold hmbEnable
  dsimp only
  refine ⟨fun hfn => if_pos hfn, fun hfn hoff => ?_, fun hfn hoff hu => ?_, fun hfn hoff hu h0 => ?_⟩
  · rw [if_neg (not_not.mpr hfn), if_pos hoff]
  · rw [if_neg (not_not.mpr hfn), if_neg (not_not.mpr hoff), if_pos hu]
  · rw [if_neg (not_not.mpr hfn), if_neg (not_not.mpr hoff), if_neg (by omega)]
    rfl

theorem hmbDisable_spec (c : Src) (d : Dev) :
    (c.fn ≠ 0 → hmbDisable c d = adminDone c .invalidField 0 [] d) ∧
    (c.fn = 0 → (portGet d c.port).hmb = .off → hmbDisable c d = adminDone c .success 0 [] d) ∧
    (c.fn = 0 → (portGet d c.port).hmb ≠ .off → homeOps d c.port = true → hmbDisable c d =
      { d with host := { d.host with hmbWait := d.host.hmbWait ++ [c] } }) ∧
    (c.fn = 0 → (portGet d c.port).hmb ≠ .off → homeOps d c.port = false → hmbDisable c d = hmbStop c d) := by
  unfold hmbDisable
  refine ⟨fun hfn => if_pos hfn, fun hfn hoff => ?_, fun hfn hoff hops => ?_, fun hfn hoff hops => ?_⟩
  · rw [if_neg (not_not.mpr hfn), if_pos hoff]
  · rw [if_neg (not_not.mpr hfn), if_neg hoff, if_pos hops]
  · rw [if_neg (not_not.mpr hfn), if_neg hoff, if_neg (by simp [hops])]

theorem hmbStop_spec {d x : Dev} {c : Src} (hx : x = jComplete (jFlush (jComplete d))) : ∃ e, hmbStop c d = adminDone c .success 0 [] e ∧
    (∀ y, tabGet x.host.ports c.port = some y → portGet e c.port = { y with hmb := .off, hmbUnits := 0 }) ∧
    (∀ q ∈ e.med.mapu.cache, q.1 ∉ segsOfPort d c.port) ∧ (∀ q ∈ e.med.mapu.seals, q.1 ∉ segsOfPort d c.port) ∧
    (∀ q ∈ e.med.mapu.rebuild, q ∉ segsOfPort d c.port) ∧ (∀ q ∈ e.med.mapu.sweep, q ∉ segsOfPort d c.port) ∧ e.med.jr = x.med.jr := by
  refine ⟨_, rfl, ?_⟩
  rw [← hx]
  have hfilter : ∀ {α : Type} (f : α → Nat) (l : List α), ∀ q ∈ l.filter (fun e => !(segsOfPort d c.port).contains (f e)),
      f q ∉ segsOfPort d c.port := fun f l q hq => by simpa using (List.mem_filter.mp hq).2
  have hports : ∀ f, (mapuMod f x).host.ports = x.host.ports := fun f => rfl
  rw [hports]
  cases hp : tabGet x.host.ports c.port with
  | none =>
    exact ⟨fun y hy => (nomatch hy), hfilter Prod.fst _, hfilter Prod.fst _, hfilter id _, hfilter id _, rfl⟩
  | some z =>
    refine ⟨fun y hy => ?_, hfilter Prod.fst _, hfilter Prod.fst _, hfilter id _, hfilter id _, rfl⟩
    obtain rfl := Option.some.inj hy
    exact tabGetD_tabPut_self ..

theorem hmbRebuilt_spec {d : Dev} {p : Nat} {x : Port} (hx : tabGet d.host.ports p = some x) :
    (x.hmb = .rebuilding → d.med.recovered = true → portGet (hmbRebuilt p d) p = { x with hmb := .serving }) ∧
    ((x.hmb ≠ .rebuilding ∨ d.med.recovered = false) → hmbRebuilt p d = d) := by
  unfold hmbRebuilt
  rw [hx]
  dsimp only
  refine ⟨fun hr hrec => ?_, fun h => ?_⟩
  · rw [if_pos ⟨hr, hrec⟩]
    exact tabGetD_tabPut_self ..
  · exact if_neg (by rcases h with h | h <;> simp [h])

/-! Virtual functions. -/

theorem virtManage_refused {c : Src} {d : Dev} {vf : Nat} (a : VirtAct) (hup : adminUp c d = true) (h : c.fn ≠ 0 ∨ vf = 0 ∨ 63 < vf) :
    virtManage c vf a d = adminDone c .invalidField 0 [] d := (adminGate_up hup _).trans (if_pos h)

section
variable {c : Src} {d : Dev} {vf used : Nat} {v : Ctrl} (hup : adminUp c d = true) (hfn : c.fn = 0) (hlo : 1 ≤ vf) (hhi : vf ≤ 63)
  (hv : v = ctrlGet d c.port vf)
include hup hfn hlo hhi

theorem virtManage_offline : virtManage c vf .offline d = adminDone c .success 0 []
    { ctrlPut (ctrlReset c.port vf d) c.port vf { ctrlGet (ctrlReset c.port vf d) c.port vf with online := false } with
      hw := irq (ctrlReset c.port vf d).hw irqHostif (16 * c.port + 14) } :=
  (adminGate_up hup _).trans (if_neg (by omega))

include hv

theorem virtManage_queues {n : Nat} (hused : used =
      ((d.host.ctrls.filter (fun q => decide (q.1 / 64 = c.port ∧ q.1 % 64 ≠ 0 ∧ q.1 % 64 ≠ vf))).map (fun q => q.2.vq)).sum) :
    virtManage c vf (.assignQueues n) d = if v.online = true ∨ 64 < n ∨ (if dual d then 1984 else 4032) < used + n then
        adminDone c .invalidField 0 [] d
      else adminDone c .success n [] { ctrlPut d c.port vf { v with vq := n } with hw := irq d.hw irqHostif (16 * c.port + 14) } := by
  subst hv hused
  refine (adminGate_up hup _).trans ((if_neg (by omega)).trans (if_congr ?_ rfl rfl))
  simp only [Bool.or_eq_true, decide_eq_true_eq, Bool.decide_and, Bool.and_assoc, flexPool, or_assoc]

theorem virtManage_vectors {n : Nat} : virtManage c vf (.assignVectors n) d = if v.online = true ∨ 65 < n then adminDone c .invalidField 0 [] d
    else adminDone c .success n [] { ctrlPut d c.port vf { v with vi := n } with hw := irq d.hw irqHostif (16 * c.port + 14) } := by
  subst hv
  exact (adminGate_up hup _).trans ((if_neg (by omega)).trans (if_congr (by simp) rfl rfl))

theorem virtManage_online : virtManage c vf .online d = if v.vq = 0 ∨ v.vi = 0 then adminDone c .invalidField 0 [] d
    else adminDone c .success 0 [] { ctrlPut d c.port vf { v with online := true } with hw := irq d.hw irqHostif (16 * c.port + 14) } := by
  subst hv
  exact (adminGate_up hup _).trans (if_neg (by omega))

end

/-! Abort and asynchronous events. -/

section
variable {d : Dev} {c : Src} {sq cid qk : Nat} {gone : Dev → Dev} (hup : adminUp c d = true) (hqk : qk = queueKey c.port c.fn sq)
  (hgone : ∀ y, gone y = adminDone c .success 0 [] (cqPost c.port c.fn sq cid .abortRequested 0 0 [] y))
include hup hqk hgone

theorem nvmeAbort_queued {q : QCmd} {y : Dev} (hq : (tabGetD d.host.queues qk []).find? (fun q => decide (q.cmd.cid = cid)) = some q)
    (hy : y = (if q.cmd.op = .read then readStats (opNew d qk (fnKennel d c.port c.fn) q) 0 false d else d)) :
    nvmeAbort c sq cid d = gone { y with host := { y.host with
      queues := tabMod y.host.queues qk [] (fun l => l.filter (fun q => decide (q.cmd.cid ≠ cid))) } } := by
  subst hqk hy
  refine (adminGate_up hup _).trans ?_
  dsimp only
  rw [hq, hgone]

variable (hq : (tabGetD d.host.queues qk []).find? (fun q => decide (q.cmd.cid = cid)) = none)
include hq

theorem nvmeAbort_unfetched (h : ∃ q ∈ d.host.unfetched, q.1 = qk ∧ q.2.cmd.cid = cid) : nvmeAbort c sq cid d =
    gone { d with host := { d.host with
      unfetched := d.host.unfetched.filter (fun q => !(decide (q.1 = qk) && decide (q.2.cmd.cid = cid))) } } := by
  subst hqk
  refine (adminGate_up hup _).trans ?_
  dsimp only
  rw [hq, hgone]
  exact if_pos (by simpa using h)

variable (hun : ∀ q ∈ d.host.unfetched, q.1 = qk → q.2.cmd.cid ≠ cid) {r : Option (Nat × Op)}
  (hr : r = d.host.ops.find? (fun q => decide (q.2.port = c.port) && decide (q.2.fn = c.fn) && decide (q.2.sq = sq) && decide (q.2.cmd.cid = cid)))
include hun hr

theorem nvmeAbort_admitted : (r = none → nvmeAbort c sq cid d = adminDone c .success 1 [] d) ∧
    (∀ tag o, r = some (tag, o) → o.dispatched = true → nvmeAbort c sq cid d = adminDone c .success 1 [] d) ∧
    (∀ tag o, r = some (tag, o) → o.dispatched = false → nvmeAbort c sq cid d =
      gone (opDiscard tag (if o.cmd.op = .read then readStats o 0 false d else d))) := by
  subst hqk
  have hnone : ¬ d.host.unfetched.any (fun q => decide (q.1 = queueKey c.port c.fn sq) && decide (q.2.cmd.cid = cid)) = true := by
    simp only [List.any_eq_true, Bool.and_eq_true, decide_eq_true_eq]
    rintro ⟨q, hmem, hkey, hcid⟩
    exact hun q hmem hkey hcid
  have habort : nvmeAbort c sq cid d = _ := adminGate_up hup _
  rw [habort]
  dsimp only
  rw [hq]
  dsimp only
  rw [if_neg hnone, ← hr]
  refine ⟨fun h => by rw [h], fun tag o h hd => ?_, fun tag o h hd => ?_⟩
  · rw [h]
    exact if_pos hd
  · rw [h, hgone]
    exact if_neg (by simp [hd])

end

theorem aer_spec {d : Dev} {c : Src} {k : Ctrl} (hup : adminUp c d = true) (hk : k = ctrlGet d c.port c.fn) :
    (∀ x rest, k.events = x :: rest → aer c d = adminDone c .success x [] (ctrlPut d c.port c.fn { k with events := rest })) ∧
    (k.events = [] → k.aers.length < 16 → aer c d = ctrlPut d c.port c.fn { k with aers := k.aers ++ [c.cid] }) ∧
    (k.events = [] → 16 ≤ k.aers.length → aer c d = adminDone c .aerLimit 0 [] d) := by
  subst hk
  have haer : aer c d = _ := adminGate_up hup _
  rw [haer]
  dsimp only
  refine ⟨fun x rest h => by rw [h], fun h hlen => ?_, fun h hlen => ?_⟩
  · rw [h]
    exact if_neg (Nat.not_le.mpr hlen)
  · rw [h]
    exact if_pos hlen

/-- Settles O47, each part by the lemma on it. -/
theorem controllerResourceCommands : Obligations.ControllerResourceCommands := by
  refine ⟨?_, fun d x c => hmbStop_spec, fun d => rfl, fun d p hp => Runs.of_onUnit (exec_hmbMapRebuildDone p) hp (if_pos hp),
    fun d p x => hmbRebuilt_spec, ?_, fun d c vf a hup h => Runs.of_does (exec_virtualizationManagement c vf a) (virtManage_refused a hup h),
    ?_, ?_⟩
  · intro d c units hup
    obtain ⟨hvf, hon, hsmall, hok⟩ := hmbEnable_spec c units d
    obtain ⟨hvf', hoff, hwait, hstop⟩ := hmbDisable_spec c d
    have henable : ∀ {e : Dev}, hmbEnable c units d = e → Runs (.hmbEnable c units) d e :=
      fun he => Runs.of_does (exec_hmbEnable c units) ((adminGate_up hup _).trans he)
    have hdisable : ∀ {e : Dev}, hmbDisable c d = e → Runs (.hmbDisable c) d e :=
      fun he => Runs.of_does (exec_hmbDisable c) ((adminGate_up hup _).trans he)
    exact ⟨fun hfn => ⟨henable (hvf hfn), hdisable (hvf' hfn)⟩, fun hfn h => henable (hon hfn h), fun hfn h hu => henable (hsmall hfn h hu),
      fun hfn h hu h0 => henable (hok hfn h hu h0), fun hfn h => hdisable (hoff hfn h), fun hfn h hops => hdisable (hwait hfn h hops),
      fun hfn h hops => hdisable (hstop hfn h hops)⟩
  · intro d c vf n used v hup hfn hlo hhi hv hused
    have hruns : ∀ {a : VirtAct} {e : Dev}, virtManage c vf a d = e → Runs (.virtualizationManagement c vf a) d e :=
      fun he => Runs.of_does (exec_virtualizationManagement c vf _) he
    have hqueues := virtManage_queues (n := n) hup hfn hlo hhi hv hused
    have hvectors := virtManage_vectors (n := n) hup hfn hlo hhi hv
    have honline := virtManage_online hup hfn hlo hhi hv
    refine ⟨fun hoff hn hfit => hruns (hqueues.trans (if_neg ?_)), fun h => hruns (hqueues.trans (if_pos h)),
      fun hoff hn => hruns (hvectors.trans (if_neg ?_)), fun h => hruns (hvectors.trans (if_pos h)),
      fun hq hi => hruns (honline.trans (if_neg ?_)), fun h => hruns (honline.trans (if_pos h)), ?_⟩
    · rintro (h | h | h)
      · simp [hoff] at h
      · omega
      · omega
    · rintro (h | h)
      · simp [hoff] at h
      · omega
    · rintro (h | h)
      · exact hq h
      · exact hi h
    · rintro y rfl
      exact hruns (virtManage_offline hup hfn hlo hhi)
  · intro d c sq cid qk gone hup hqk hgone
    have hruns : ∀ {e : Dev}, nvmeAbort c sq cid d = e → Runs (.nvmeAbort c sq cid) d e := fun he => Runs.of_does (exec_nvmeAbort c sq cid) he
    refine ⟨fun q y hq hy => hruns (nvmeAbort_queued hup hqk hgone hq hy), fun hq =>
      ⟨fun h => hruns (nvmeAbort_unfetched hup hqk hgone hq h), fun hun r hr => ?_⟩⟩
    obtain ⟨hnone, hrun, hgoes⟩ := nvmeAbort_admitted hup hqk hgone hq hun hr
    exact ⟨fun h => hruns (hnone h), fun tag o h hd => hruns (hrun tag o h hd), fun tag o h hd => hruns (hgoes tag o h hd)⟩
  · intro d c k hup hk
    obtain ⟨hevent, hwait, hlimit⟩ := aer_spec hup hk
    have hruns : ∀ {e : Dev}, aer c d = e → Runs (.asynchronousEventRequest c) d e := fun he => Runs.of_does (exec_asynchronousEventRequest c) he
    exact ⟨fun x rest h => hruns (hevent x rest h), fun h hlen => hruns (hwait h hlen), fun h hlen => hruns (hlimit h hlen)⟩

end Sys2Proof.Machine
end

section
/-!
PROOFS. Reservations.
-/

namespace Sys2Proof.Machine

/-! The command a row names. -/

theorem resvFind_some {d : Dev} {c : Src} {sq nsid tag : Nat} {a : ResvAct} {o : Op} (h : resvFind c sq nsid a d = some (tag, o)) :
    (tag, o) ∈ d.host.ops ∧ o.port = c.port ∧ o.fn = c.fn ∧ o.sq = sq ∧ o.cmd.cid = c.cid ∧ o.cmd.nsid = nsid ∧ o.cmd.op = .resv a :=
  ⟨List.mem_of_find?_eq_some h, by simpa using List.find?_some h⟩

theorem resvFind_none {d : Dev} {c : Src} {sq nsid : Nat} {a : ResvAct} (h : resvFind c sq nsid a d = none) : ∀ q ∈ d.host.ops,
    ¬ (q.2.port = c.port ∧ q.2.fn = c.fn ∧ q.2.sq = sq ∧ q.2.cmd.cid = c.cid ∧ q.2.cmd.nsid = nsid ∧ q.2.cmd.op = .resv a) :=
  fun q hq => by simpa using List.find?_eq_none.mp h q hq

section
variable {c : Src} {sq nsid tag : Nat} {a : ResvAct} {o : Op} {f : Nat → Op → Ns → Dev → Dev} {d : Dev} {n : Ns}

theorem resvRun_absent (h : resvFind c sq nsid a d = none) : resvRun c sq nsid a f d = d := by
  simp only [resvRun, h]

theorem resvRun_gone (h : resvFind c sq nsid a d = some (tag, o)) (hn : nsGet d nsid = none) :
    resvRun c sq nsid a f d = opEnd tag .invalidNamespace 0 0 [] d := by
  simp only [resvRun, h, hn, resvDone]

theorem resvRun_found (h : resvFind c sq nsid a d = some (tag, o)) (hn : nsGet d nsid = some n) :
    resvRun c sq nsid a f d = f tag o n d := by
  simp only [resvRun, h, hn]

end

/-! What replacing the registrants leaves. -/

theorem sjPut_ten (type key : Nat) (p : List Byte) (d : Dev) : (sjPut type key p d).ten = d.ten := by rw [sjPut_frame]

theorem sjPut_med (type key : Nat) (p : List Byte) (d : Dev) : (sjPut type key p d).med = d.med := by rw [sjPut_frame]

theorem sjPut_host (type key : Nat) (p : List Byte) (d : Dev) : (sjPut type key p d).host = d.host := by rw [sjPut_frame]

theorem resvPut_ten (nsid : Nat) (n : Ns) (rs : List Registrant) (d : Dev) : (resvPut nsid n rs d).ten =
    { d.ten with namespaces := tabPut d.ten.namespaces nsid { n with registrants := rs } } := by
  refine Eq.trans (foldl_keeps Dev.ten (fun x i => ?_) _ _) rfl
  split <;> exact sjPut_ten ..

theorem resvPut_med (nsid : Nat) (n : Ns) (rs : List Registrant) (d : Dev) : (resvPut nsid n rs d).med = d.med := by
  refine Eq.trans (foldl_keeps Dev.med (fun x i => ?_) _ _) rfl
  split <;> exact sjPut_med ..

theorem resvPut_host (nsid : Nat) (n : Ns) (rs : List Registrant) (d : Dev) : (resvPut nsid n rs d).host = d.host := by
  refine Eq.trans (foldl_keeps Dev.host (fun x i => ?_) _ _) rfl
  split <;> exact sjPut_host ..

theorem nsGet_resvPut_self (nsid : Nat) (n : Ns) (rs : List Registrant) (d : Dev) :
    nsGet (resvPut nsid n rs d) nsid = some { n with registrants := rs } := by
  rw [nsGet, resvPut_ten]
  exact tabGet_tabPut_self ..

theorem nsGet_resvPut_other {nsid i : Nat} (n : Ns) (rs : List Registrant) (d : Dev) (h : i ≠ nsid) :
    nsGet (resvPut nsid n rs d) i = nsGet d i := by
  rw [nsGet, resvPut_ten]
  exact tabGet_tabPut_other _ _ h

/-! Registrants that go. -/

theorem mem_resvDrop {gone : Registrant → Bool} {rs : List Registrant} {r : Registrant} (h : r ∈ resvDrop gone rs) :
    ∃ q ∈ rs, q.hostId = r.hostId ∧ q.key = r.key ∧ gone q = false := by
  have hleft : ∀ q ∈ rs.filter (fun r => !gone r), q ∈ rs ∧ gone q = false := by simp
  unfold resvDrop at h
  dsimp only at h
  split at h
  · next first rest hfind heq =>
    rw [heq] at hleft
    split at h
    · obtain rfl | hrest := List.mem_cons.mp h
      · exact ⟨first, (hleft first (.head _)).1, rfl, rfl, (hleft first (.head _)).2⟩
      · exact ⟨r, (hleft r (.tail _ hrest)).1, rfl, rfl, (hleft r (.tail _ hrest)).2⟩
    · rw [heq] at h
      exact ⟨r, (hleft r h).1, rfl, rfl, (hleft r h).2⟩
  · exact ⟨r, (hleft r h).1, rfl, rfl, (hleft r h).2⟩

theorem resvDrop_holders_stay {gone : Registrant → Bool} {rs : List Registrant} (h : ∀ r ∈ rs, r.holder = true → gone r = false) :
    resvDrop gone rs = rs.filter (fun r => !gone r) := by
  have hnone : rs.find? (fun r => r.holder && gone r) = none := by
    rw [List.find?_eq_none]
    intro r hr hboth
    obtain ⟨hheld, hgone⟩ := (Bool.and_eq_true _ _).mp hboth
    exact absurd hgone (by simp [h r hr hheld])
  simp only [resvDrop, hnone]

/-! The four commands. -/

section
variable {d x : Dev} {c : Src} {sq nsid tag host action crkey nrkey : Nat} {ig pt : Bool} {o : Op} {n : Ns} {new : Registrant}
  (hop : resvFind c sq nsid (.register host action ig crkey nrkey pt) d = some (tag, o)) (hn : nsGet d nsid = some n)
include hop hn

theorem resvRegister_invalid (h : 2 < action) : resvRegister c sq nsid host action ig crkey nrkey pt d = opEnd tag .invalidField 0 0 [] d := by
  obtain ⟨k, rfl⟩ : ∃ k, action = k + 3 := ⟨action - 3, by omega⟩
  refine (resvRun_found hop hn).trans ?_
  cases resvMine n host
  all_goals rfl

variable (hx : x = ctrlPut d o.port o.fn { ctrlGet d o.port o.fn with hostId := host })
include hx

theorem resvRegister_new (hnew : new = { hostId := host, key := nrkey, holder := false, rtype := 0, ptpl := pt }) (hr : resvMine n host = none) :
    ((action = 0 ∨ (action = 2 ∧ ig = true)) → n.registrants.length < 64 → resvRegister c sq nsid host action ig crkey nrkey pt d =
      opEnd tag .success 0 0 [] (resvPut nsid n (n.registrants ++ [new]) x)) ∧
    (action = 0 → 64 ≤ n.registrants.length →
      resvRegister c sq nsid host action ig crkey nrkey pt d = opEnd tag .invalidField 0 0 [] d) ∧
    ((action = 1 ∨ (action = 2 ∧ (ig = false ∨ 64 ≤ n.registrants.length))) →
      resvRegister c sq nsid host action ig crkey nrkey pt d = opEnd tag .reservationConflict 0 0 [] d) := by
  subst hx hnew
  have hrun : resvRegister c sq nsid host action ig crkey nrkey pt d = _ := resvRun_found hop hn
  rw [hrun]
  dsimp only
  rw [hr]
  refine ⟨?_, ?_, ?_⟩
  · rintro (rfl | ⟨rfl, rfl⟩) hlen
    · exact if_neg (by omega)
    · exact if_pos (by simpa using hlen)
  · rintro rfl hlen
    exact if_pos hlen
  · rintro (rfl | ⟨rfl, h⟩)
    · rfl
    · exact if_neg (by rcases h with h | h <;> simp [h])

theorem resvRegister_known {r : Registrant} (hr : resvMine n host = some r) :
    (action = 0 → r.key = nrkey → resvRegister c sq nsid host action ig crkey nrkey pt d = opEnd tag .success 0 0 [] x) ∧
    (action = 0 → r.key ≠ nrkey → resvRegister c sq nsid host action ig crkey nrkey pt d = opEnd tag .reservationConflict 0 0 [] d) ∧
    ((action = 1 ∨ action = 2) → ig = false → r.key ≠ crkey →
      resvRegister c sq nsid host action ig crkey nrkey pt d = opEnd tag .reservationConflict 0 0 [] d) ∧
    (action = 1 → (ig = true ∨ r.key = crkey) → resvRegister c sq nsid host action ig crkey nrkey pt d = opEnd tag .success 0 0 []
      (resvPut nsid n (resvDrop (fun q => decide (q.hostId = host)) n.registrants) x)) ∧
    (action = 2 → (ig = true ∨ r.key = crkey) → resvRegister c sq nsid host action ig crkey nrkey pt d = opEnd tag .success 0 0 []
      (resvPut nsid n (n.registrants.map (fun q => if q.hostId = host then { q with key := nrkey, ptpl := pt } else q)) x)) := by
  subst hx
  have hrun : resvRegister c sq nsid host action ig crkey nrkey pt d = _ := resvRun_found hop hn
  rw [hrun]
  dsimp only
  rw [hr]
  refine ⟨?_, ?_, ?_, ?_, ?_⟩
  · rintro rfl h
    exact if_pos h
  · rintro rfl h
    exact if_neg h
  · rintro (rfl | rfl) hig h
    · exact if_neg (by simp [hig, h])
    · exact if_neg (by simp [hig, h])
  · rintro rfl h
    exact if_pos (by simpa using h)
  · rintro rfl h
    exact if_pos (by simpa using h)

end

section
variable {d : Dev} {c : Src} {sq nsid tag action rtype crkey prkey host : Nat} {o : Op} {n : Ns}
  (hop : resvFind c sq nsid (.acquire action rtype crkey prkey) d = some (tag, o)) (hn : nsGet d nsid = some n)
  (hhost : host = (ctrlGet d o.port o.fn).hostId)
include hop hn hhost

theorem resvAcquire_unregistered (hme : resvMine n host = none) :
    resvAcquire c sq nsid action rtype crkey prkey d = opEnd tag .reservationConflict 0 0 [] d := by
  subst hhost
  refine (resvRun_found hop hn).trans ?_
  dsimp only
  rw [hme]
  rfl

variable {me : Registrant} (hme : resvMine n host = some me)
include hme

theorem resvAcquire_wrongKey (hkey : me.key ≠ crkey) :
    resvAcquire c sq nsid action rtype crkey prkey d = opEnd tag .reservationConflict 0 0 [] d := by
  subst hhost
  refine (resvRun_found hop hn).trans ?_
  dsimp only
  rw [hme]
  exact if_pos hkey

variable (hkey : me.key = crkey)
include hkey

theorem resvAcquire_invalid (h : rtype < 1 ∨ 6 < rtype ∨ 2 < action) :
    resvAcquire c sq nsid action rtype crkey prkey d = opEnd tag .invalidField 0 0 [] d := by
  subst hhost
  refine (resvRun_found hop hn).trans ?_
  dsimp only
  rw [hme]
  dsimp only
  rw [if_neg (not_not.mpr hkey)]
  exact if_pos h

variable (hlo : 1 ≤ rtype) (hhi : rtype ≤ 6)
include hlo hhi

theorem resvAcquire_acquire (hact : action = 0) :
    (n.registrants.find? (fun r => r.holder) = none → resvAcquire c sq nsid action rtype crkey prkey d = opEnd tag .success 0 0 []
      (resvPut nsid n (resvHold host rtype n.registrants) d)) ∧
    (∀ h, n.registrants.find? (fun r => r.holder) = some h → h.hostId = host → h.rtype = rtype →
      resvAcquire c sq nsid action rtype crkey prkey d = opEnd tag .success 0 0 [] d) ∧
    (∀ h, n.registrants.find? (fun r => r.holder) = some h → (h.hostId ≠ host ∨ h.rtype ≠ rtype) →
      resvAcquire c sq nsid action rtype crkey prkey d = opEnd tag .reservationConflict 0 0 [] d) := by
  subst hhost hact
  have hrun : resvAcquire c sq nsid 0 rtype crkey prkey d = _ := resvRun_found hop hn
  rw [hrun]
  dsimp only
  rw [hme]
  dsimp only
  rw [if_neg (not_not.mpr hkey), if_neg (by omega), if_pos rfl]
  refine ⟨fun h => by rw [h]; rfl, fun h hh hid hrt => ?_, fun h hh hor => ?_⟩
  · rw [hh]
    exact if_pos ⟨hid, hrt⟩
  · rw [hh]
    exact if_neg (by rintro ⟨hid, hrt⟩; exact hor.elim (· hid) (· hrt))

theorem resvAcquire_preempt {all hit : Bool} {out : Registrant → Bool} {kept : List Registrant} (hact : action = 1 ∨ action = 2)
    (hall : all = (match n.registrants.find? (fun r => r.holder) with | some h => decide (h.rtype = 5 ∨ h.rtype = 6) | none => false))
    (hhit : hit = (match n.registrants.find? (fun r => r.holder) with
      | some h => decide (h.key = prkey) || (all && decide (prkey = 0)) | none => false))
    (hout : ∀ q, out q = (decide (q.hostId ≠ host) && (decide (q.key = prkey) || (all && decide (prkey = 0)))))
    (hkept : kept = n.registrants.filter (fun q => !out q)) :
    (hit = true → resvAcquire c sq nsid action rtype crkey prkey d =
      opEnd tag .success 0 0 [] (resvPut nsid n (resvHold host rtype kept) d)) ∧
    (hit = false → (∃ q ∈ n.registrants, out q = true) → resvAcquire c sq nsid action rtype crkey prkey d =
      opEnd tag .success 0 0 [] (resvPut nsid n kept d)) ∧
    (hit = false → (∀ q ∈ n.registrants, out q = false) → resvAcquire c sq nsid action rtype crkey prkey d =
      opEnd tag .reservationConflict 0 0 [] d) := by
  obtain rfl : out = _ := funext hout
  subst hhost hkept
  have hrun : resvAcquire c sq nsid action rtype crkey prkey d = _ := resvRun_found hop hn
  rw [hrun]
  dsimp only
  rw [hme]
  dsimp only
  rw [if_neg (not_not.mpr hkey), if_neg (by omega), if_neg (by omega)]
  cases hheld : n.registrants.find? (fun r => r.holder) with
  | none =>
    rw [hheld] at hall hhit
    subst hall hhit
    refine ⟨fun h => (nomatch h), fun _ h => ?_, fun _ h => ?_⟩
    · exact (if_neg Bool.false_ne_true).trans (if_pos (List.any_eq_true.mpr h))
    · exact (if_neg Bool.false_ne_true).trans (if_neg (by simpa using h))
  | some held =>
    rw [hheld] at hall hhit
    dsimp only at hall hhit ⊢
    rw [Bool.decide_or] at hall
    subst hall
    refine ⟨fun h => if_pos (hhit.symm.trans h), fun hno h => ?_, fun hno h => ?_⟩
    · exact (if_neg (by rw [← hhit, hno]; decide)).trans (if_pos (List.any_eq_true.mpr h))
    · exact (if_neg (by rw [← hhit, hno]; decide)).trans (if_neg (by simpa using h))

end

section
variable {d : Dev} {c : Src} {sq nsid tag action rtype crkey host : Nat} {o : Op} {n : Ns}
  (hop : resvFind c sq nsid (.release action rtype crkey) d = some (tag, o)) (hn : nsGet d nsid = some n)
  (hhost : host = (ctrlGet d o.port o.fn).hostId)
include hop hn hhost

theorem resvRelease_unregistered (hme : resvMine n host = none) :
    resvRelease c sq nsid action rtype crkey d = opEnd tag .reservationConflict 0 0 [] d := by
  subst hhost
  refine (resvRun_found hop hn).trans ?_
  rw [hme]
  rfl

variable {me : Registrant} (hme : resvMine n host = some me)
include hme

theorem resvRelease_wrongKey (hkey : me.key ≠ crkey) :
    resvRelease c sq nsid action rtype crkey d = opEnd tag .reservationConflict 0 0 [] d := by
  subst hhost
  refine (resvRun_found hop hn).trans ?_
  rw [hme]
  exact if_pos hkey

variable (hkey : me.key = crkey)
include hkey

theorem resvRelease_clear (hact : action = 1) :
    resvRelease c sq nsid action rtype crkey d = opEnd tag .success 0 0 [] (resvPut nsid n [] d) := by
  subst hhost
  refine (resvRun_found hop hn).trans ?_
  rw [hme]
  dsimp only
  rw [if_neg (not_not.mpr hkey)]
  exact if_pos hact

theorem resvRelease_invalid (hact : 2 ≤ action) :
    resvRelease c sq nsid action rtype crkey d = opEnd tag .invalidField 0 0 [] d := by
  subst hhost
  refine (resvRun_found hop hn).trans ?_
  rw [hme]
  dsimp only
  rw [if_neg (not_not.mpr hkey), if_neg (by omega)]
  exact if_pos (by omega)

theorem resvRelease_release (hact : action = 0) :
    (me.holder = false → resvRelease c sq nsid action rtype crkey d = opEnd tag .success 0 0 [] d) ∧
    (me.holder = true → me.rtype ≠ rtype → resvRelease c sq nsid action rtype crkey d = opEnd tag .invalidField 0 0 [] d) ∧
    (me.holder = true → me.rtype = rtype → resvRelease c sq nsid action rtype crkey d = opEnd tag .success 0 0 []
      (resvPut nsid n (n.registrants.map (fun q => { q with holder := false, rtype := 0 })) d)) := by
  subst hhost hact
  have hrun : resvRelease c sq nsid 0 rtype crkey d = _ := resvRun_found hop hn
  rw [hrun, hme]
  dsimp only
  rw [if_neg (not_not.mpr hkey), if_neg (by omega), if_neg (by omega)]
  refine ⟨fun h => if_pos (by simp [h]), fun h hrt => ?_, fun h hrt => ?_⟩
  · exact (if_neg (by simp [h])).trans (if_pos hrt)
  · exact (if_neg (by simp [h])).trans (if_neg (not_not.mpr hrt))

end

/-- Settles O48, each command by the lemmas on its outcomes. -/
theorem reservationCommands : Obligations.ReservationCommands := by
  refine ⟨fun d c sq nsid tag a o => resvFind_some, fun d c sq nsid a => resvFind_none, ?_, ?_, ?_,
    fun gone rs => ⟨fun r => mem_resvDrop, resvDrop_holders_stay⟩, ?_, fun host rtype rs => rfl, ?_, ?_,
    fun d nsid n rs => ⟨nsGet_resvPut_self .., fun i hi => nsGet_resvPut_other _ _ _ hi, resvPut_med .., resvPut_host ..⟩⟩
  · intro d c sq nsid host action crkey nrkey ig pt
    have hexec := exec_reservationRegister c sq nsid host action ig crkey nrkey pt
    exact ⟨fun h => Runs.of_does hexec (resvRun_absent h), fun tag o h hn => Runs.of_does hexec (resvRun_gone h hn)⟩
  · intro d c sq nsid action rtype crkey prkey
    have hacq := exec_reservationAcquire c sq nsid action rtype crkey prkey
    have hrel := exec_reservationRelease c sq nsid action rtype crkey
    have hrep := exec_reservationReport c sq nsid
    exact ⟨fun h => Runs.of_does hacq (resvRun_absent h), fun tag o h hn => Runs.of_does hacq (resvRun_gone h hn),
      fun h => Runs.of_does hrel (resvRun_absent h), fun tag o h hn => Runs.of_does hrel (resvRun_gone h hn),
      fun h => Runs.of_does hrep (resvRun_absent h), fun tag o h hn => Runs.of_does hrep (resvRun_gone h hn)⟩
  · intro d x c sq nsid tag host action crkey nrkey ig pt o n new hop hn hx hnew
    have hruns : ∀ {e : Dev}, resvRegister c sq nsid host action ig crkey nrkey pt d = e →
        Runs (.reservationRegister c sq nsid host action ig crkey nrkey pt) d e :=
      fun he => Runs.of_does (exec_reservationRegister c sq nsid host action ig crkey nrkey pt) he
    refine ⟨fun hr ha hl => hruns ((resvRegister_new hop hn hx hnew hr).1 ha hl),
      fun hr ha hl => hruns ((resvRegister_new hop hn hx hnew hr).2.1 ha hl), fun hr ha => hruns ((resvRegister_new hop hn hx hnew hr).2.2 ha),
      fun r hr => ?_, fun ha => hruns (resvRegister_invalid hop hn ha)⟩
    obtain ⟨hsame, hother, hbad, hdrop, hrepl⟩ := resvRegister_known hop hn hx hr
    exact ⟨fun ha hk => hruns (hsame ha hk), fun ha hk => hruns (hother ha hk), fun ha hi hk => hruns (hbad ha hi hk),
      fun ha hk => hruns (hdrop ha hk), fun ha hk => hruns (hrepl ha hk)⟩
  · intro d c sq nsid tag action rtype crkey prkey host o n hop hn hhost
    have hruns : ∀ {e : Dev}, resvAcquire c sq nsid action rtype crkey prkey d = e →
        Runs (.reservationAcquire c sq nsid action rtype crkey prkey) d e :=
      fun he => Runs.of_does (exec_reservationAcquire c sq nsid action rtype crkey prkey) he
    refine ⟨fun hme => hruns (resvAcquire_unregistered hop hn hhost hme), fun me hme =>
      ⟨fun hk => hruns (resvAcquire_wrongKey hop hn hhost hme hk), fun hk h => hruns (resvAcquire_invalid hop hn hhost hme hk h),
        fun hk hlo hhi ha => ?_, fun all hit out kept hk hlo hhi ha hall hhit hout hkept => ?_⟩⟩
    · obtain ⟨hfree, hmine, hheld⟩ := resvAcquire_acquire (prkey := prkey) hop hn hhost hme hk hlo hhi ha
      exact ⟨fun h => hruns (hfree h), fun h hh hid hrt => hruns (hmine h hh hid hrt), fun h hh hor => hruns (hheld h hh hor)⟩
    · obtain ⟨htake, hout, hno⟩ := resvAcquire_preempt hop hn hhost hme hk hlo hhi ha hall hhit hout hkept
      exact ⟨fun h => hruns (htake h), fun h hq => hruns (hout h hq), fun h hq => hruns (hno h hq)⟩
  · intro d c sq nsid tag action rtype crkey host o n hop hn hhost
    have hruns : ∀ {e : Dev}, resvRelease c sq nsid action rtype crkey d = e → Runs (.reservationRelease c sq nsid action rtype crkey) d e :=
      fun he => Runs.of_does (exec_reservationRelease c sq nsid action rtype crkey) he
    refine ⟨fun hme => hruns (resvRelease_unregistered hop hn hhost hme), fun me hme =>
      ⟨fun hk => hruns (resvRelease_wrongKey hop hn hhost hme hk), fun hk ha => hruns (resvRelease_clear hop hn hhost hme hk ha),
        fun hk ha => hruns (resvRelease_invalid hop hn hhost hme hk ha), fun hk ha hh => ?_, fun hk ha hh hrt => ?_, fun hk ha hh hrt => ?_⟩⟩
    · exact hruns ((resvRelease_release hop hn hhost hme hk ha).1 hh)
    · exact hruns ((resvRelease_release hop hn hhost hme hk ha).2.1 hh hrt)
    · exact hruns ((resvRelease_release hop hn hhost hme hk ha).2.2 hh hrt)
  · intro d c sq nsid tag t o n hop hn ht
    subst ht
    exact Runs.of_does (exec_reservationReport c sq nsid) (resvRun_found hop hn)

end Sys2Proof.Machine
end

section
/-!
PROOFS. Firmware images and layout streams.
-/

namespace Sys2Proof.Machine

/-! Firmware images. -/

theorem fwDownload_spec {d : Dev} {c : Src} {off : Nat} {bs : List Byte} (hup : adminUp c d = true) :
    (off % 4096 = 0 → bs.length % 4096 = 0 → bs ≠ [] → off + bs.length ≤ 3145728 → fwDownload c off bs d =
      adminDone c .success 0 [] { d with host := { d.host with download := cellsPut off bs d.host.download } }) ∧
    ((off % 4096 ≠ 0 ∨ bs.length % 4096 ≠ 0 ∨ bs = [] ∨ 3145728 < off + bs.length) →
      fwDownload c off bs d = adminDone c .invalidField 0 [] d) := by
  unfold fwDownload
  rw [adminGate_up hup]
  refine ⟨fun hoff hlen hne hfit => if_neg ?_, fun h => if_pos (by rwa [List.isEmpty_iff])⟩
  rintro (h | h | h | h)
  · exact h hoff
  · exact h hlen
  · exact hne (List.isEmpty_iff.mp h)
  · omega

theorem slotWrite_boot (base n : Nat) (bs : List Byte) (d : Dev) : (slotWrite base n bs d).boot = d.boot := by
  unfold slotWrite
  dsimp only
  split <;> rfl

theorem slotWrite_host (base n : Nat) (bs : List Byte) (d : Dev) : (slotWrite base n bs d).host = d.host := by
  unfold slotWrite
  dsimp only
  split <;> rfl

section
variable {d : Dev} {c : Src} {slot action s : Nat} {img : List Byte} (hup : adminUp c d = true) (htrial : d.boot.trial = false)
include hup htrial

theorem fwCommit_action (h : 2 < action) : fwCommit c slot action d = adminDone c .invalidField 0 [] d := by
  unfold fwCommit
  rw [adminGate_up hup, trialGate_kept htrial]
  exact if_pos h

variable (hs : s = (if slot = 0 then 1 - d.boot.gov.image % 2 else slot - 1))
include hs

theorem fwCommit_noSlot (ha : action ≤ 2) (h : 1 < s) : fwCommit c slot action d = adminDone c .invalidFirmwareSlot 0 [] d := by
  subst hs
  unfold fwCommit
  rw [adminGate_up hup, trialGate_kept htrial]
  dsimp only
  rw [if_neg (by omega)]
  exact if_pos h

variable (hle : s ≤ 1)
include hle

theorem fwCommit_inForce (ha : action ≤ 1) (h : s = d.boot.gov.image) :
    fwCommit c slot action d = adminDone c .invalidFirmwareSlot 0 [] d := by
  subst hs
  unfold fwCommit
  rw [adminGate_up hup, trialGate_kept htrial]
  dsimp only
  rw [if_neg (by omega), if_neg (by omega)]
  exact if_pos ⟨ha, h⟩

theorem fwCommit_activate (hok : imageOk d (imageBytes d s) = true) : fwCommit c slot 2 d =
    adminDone c .activationNeedsReset 0 [] (bootAppend { d.boot.gov with type := 3, pendImage := s, tries := 0 } d) := by
  subst hs
  unfold fwCommit
  rw [adminGate_up hup, trialGate_kept htrial]
  dsimp only
  rw [if_neg (by omega), if_neg (by omega), if_neg (by omega), if_pos rfl, if_pos rfl, if_neg (by simp [hok])]
  exact if_neg (by omega)

variable (himg : img = cellsTake (d.host.download.foldl (fun m q => max m (q.1 + 1)) 0) d.host.download) (hother : s ≠ d.boot.gov.image)
include himg hother

theorem fwCommit_badImage (ha : action ≤ 1) (hok : imageOk d img = false) :
    fwCommit c slot action d = adminDone c .invalidFirmwareImage 0 [] d := by
  subst hs himg
  unfold fwCommit
  rw [adminGate_up hup, trialGate_kept htrial]
  dsimp only
  rw [if_neg (by omega), if_neg (by omega), if_neg (fun h => hother h.2), if_neg (show ¬ action = 2 by omega)]
  exact if_pos (by simp [hok])

theorem fwCommit_written (hok : imageOk d img = true) : fwCommit c slot 0 d = adminDone c .success 0 []
    (slotWrite (imageBase s) 48 img { d with host := { d.host with download := [] } }) := by
  subst hs himg
  unfold fwCommit
  rw [adminGate_up hup, trialGate_kept htrial]
  dsimp only
  rw [if_neg (by omega), if_neg (by omega), if_neg (fun h => hother h.2), if_neg (show ¬ 0 = 2 by decide), if_neg (by simp [hok])]
  exact if_pos rfl

theorem fwCommit_pending (hok : imageOk d img = true) : ∃ e, fwCommit c slot 1 d = adminDone c .activationNeedsReset 0 [] e ∧
    e.boot.gov = { d.boot.gov with type := 3, pendImage := s, tries := 0, seq := d.boot.gov.seq + 1 } ∧ e.host.download = [] := by
  subst hs himg
  unfold fwCommit
  rw [adminGate_up hup, trialGate_kept htrial]
  dsimp only
  rw [if_neg (by omega), if_neg (by omega), if_neg (fun h => hother h.2), if_neg (show ¬ 1 = 2 by decide), if_neg (by simp [hok]),
    if_neg (by omega), if_neg (show ¬ 1 = 2 by decide)]
  refine ⟨_, rfl, ?_, ?_⟩
  · simp only [bootAppend, slotWrite_boot]
  · simp only [bootAppend, slotWrite_host]

end

/-! The layout stream. -/

/-- Another port holds the transfer: the guard of the three layout commands. -/
theorem layoutPort_free {d : Dev} {c : Src} (h : d.host.layoutPort = none ∨ d.host.layoutPort = some c.port) :
    ¬ (match d.host.layoutPort with | some p => decide (p ≠ c.port) | none => false) = true := by
  rcases h with h | h <;> simp [h]

theorem layoutPort_held {d : Dev} {c : Src} {p : Nat} (h : d.host.layoutPort = some p) (hp : p ≠ c.port) :
    (match d.host.layoutPort with | some p => decide (p ≠ c.port) | none => false) = true := by
  simp [h, hp]

section
variable {d e : Dev} {c : Src} (hup : adminUp c d = true) (hfn : c.fn = 0) (htrial : d.boot.trial = false)
include hup hfn htrial

theorem layoutTransfer_refused {off : Nat} {bs : List Byte} :
    (bs = [] → layoutTransfer c off bs d = adminDone c .zeroLength 0 [] d) ∧
    (bs ≠ [] → (bs.length % 4 ≠ 0 ∨ 1048576 < off + bs.length) → layoutTransfer c off bs d = adminDone c .invalidField 0 [] d) := by
  unfold layoutTransfer
  rw [vendorGate_pf hup hfn, trialGate_kept htrial]
  refine ⟨fun h => if_pos (List.isEmpty_iff.mpr h), fun hne h => ?_⟩
  rw [if_neg (mt List.isEmpty_iff.mp hne)]
  exact if_pos h

theorem layoutTransfer_ports {off : Nat} {bs : List Byte} (hne : bs ≠ []) (hlen : bs.length % 4 = 0) (hfit : off + bs.length ≤ 1048576) :
    (∀ p, d.host.layoutPort = some p → p ≠ c.port → layoutTransfer c off bs d = adminDone c .unitStateConflict 0 [] d) ∧
    ((d.host.layoutPort = none ∨ d.host.layoutPort = some c.port) → layoutTransfer c off bs d = adminDone c .success 0 [] { d with
      host := { d.host with layoutXfer := cellsPut off bs d.host.layoutXfer, layoutPort := some c.port } }) := by
  unfold layoutTransfer
  rw [vendorGate_pf hup hfn, trialGate_kept htrial, if_neg (mt List.isEmpty_iff.mp hne), if_neg (by omega)]
  exact ⟨fun p h hp => if_pos (layoutPort_held h hp), fun h => if_neg (layoutPort_free h)⟩

theorem layoutStage_held {p : Nat} (h : d.host.layoutPort = some p) (hp : p ≠ c.port) :
    layoutStage c d = adminDone c .unitStateConflict 0 [] d := by
  unfold layoutStage
  rw [vendorGate_pf hup hfn, trialGate_kept htrial]
  exact if_pos (layoutPort_held h hp)

theorem layoutDiscard_held {p : Nat} (h : d.host.layoutPort = some p) (hp : p ≠ c.port) :
    layoutDiscard c d = adminDone c .unitStateConflict 0 [] d := by
  unfold layoutDiscard
  rw [vendorGate_pf hup hfn, trialGate_kept htrial]
  exact if_pos (layoutPort_held h hp)

variable (hfree : d.host.layoutPort = none ∨ d.host.layoutPort = some c.port)
include hfree

theorem layoutStage_incomplete (hwhole : xferWhole d.host.layoutXfer = false) :
    layoutStage c d = adminDone c .stagingIncomplete 0 [] d := by
  unfold layoutStage
  rw [vendorGate_pf hup hfn, trialGate_kept htrial]
  dsimp only
  exact (if_neg (layoutPort_free hfree)).trans (if_pos (by simp [hwhole]))

variable (he : e = { d with host := { d.host with layoutXfer := [], layoutPort := none } })
include he

theorem layoutDiscard_free : layoutDiscard c d = adminDone c .success 0 [] (layoutDrop e) := by
  subst he
  unfold layoutDiscard
  rw [vendorGate_pf hup hfn, trialGate_kept htrial]
  exact if_neg (layoutPort_free hfree)

variable {bs : List Byte} {st : Status} (hbs : bs = cellsTake (min 1048576 (leAt (cellsTake 64 d.host.layoutXfer) 8 4)) d.host.layoutXfer)
  (hst : st = streamStatus d.fuse bs) (hwhole : xferWhole d.host.layoutXfer = true)
include hbs hst hwhole

theorem layoutStage_rejected (h : st = .reject ∨ leAt bs 16 8 ≤ d.med.layout.seq) :
    layoutStage c d = adminDone c .layoutRejected 0 [] e := by
  subst he hst hbs
  unfold layoutStage
  rw [vendorGate_pf hup hfn, trialGate_kept htrial]
  dsimp only
  exact (if_neg (layoutPort_free hfree)).trans ((if_neg (by simp [hwhole])).trans (if_pos h))

variable (hnew : d.med.layout.seq < leAt bs 16 8)
include hnew

theorem layoutStage_absent (hform : st ≠ .reject) (h : st ≠ .ok) : layoutStage c d = adminDone c .unitAbsent 0 [] e := by
  subst he hst hbs
  unfold layoutStage
  rw [vendorGate_pf hup hfn, trialGate_kept htrial]
  dsimp only
  refine (if_neg (layoutPort_free hfree)).trans ((if_neg (by simp [hwhole])).trans ?_)
  exact (if_neg (not_or.mpr ⟨hform, Nat.not_le.mpr hnew⟩)).trans (if_pos h)

variable (hok : st = .ok)
include hok

/-- A whole, new, well-formed stream: what is left are the checks against the device. -/
theorem layoutStage_formed : layoutStage c d =
    if !frozenOk d bs then adminDone c .layoutFrozen 0 [] e
    else if (layoutOf bs).kmax ≤ topKennel d then adminDone c .kennelInUse 0 [] e
    else
      let slot := 1 - d.boot.layout % 2
      let x1 := slotWrite (layoutBase slot) 16 bs (layoutDrop e)
      let back := rindBytes x1.hw.rind x1.hw.free (layoutBase slot) bs.length
      if signedDigest back bs.length ≠ signedDigest bs bs.length then adminDone c .layoutRejected 0 [] x1
      else adminDone c .success 0 [] (bootAppend { x1.boot.gov with type := 3, pendLayout := slot, tries := 0 } x1) := by
  have hform : ¬ (st = .reject ∨ leAt bs 16 8 ≤ d.med.layout.seq) := by
    rintro (h | h)
    · simp [hok] at h
    · omega
  subst he hst hbs
  unfold layoutStage
  rw [vendorGate_pf hup hfn, trialGate_kept htrial]
  dsimp only
  refine (if_neg (layoutPort_free hfree)).trans ((if_neg (by simp [hwhole])).trans ?_)
  exact (if_neg hform).trans (if_neg (not_not.mpr hok))

theorem layoutStage_frozen (h : frozenOk d bs = false) : layoutStage c d = adminDone c .layoutFrozen 0 [] e :=
  (layoutStage_formed hup hfn htrial hfree he hbs hst hwhole hnew hok).trans (if_pos (by simp [h]))

variable (hfrozen : frozenOk d bs = true)
include hfrozen

theorem layoutStage_kennels (h : (layoutOf bs).kmax ≤ topKennel d) : layoutStage c d = adminDone c .kennelInUse 0 [] e := by
  refine (layoutStage_formed hup hfn htrial hfree he hbs hst hwhole hnew hok).trans ((if_neg (by simp [hfrozen])).trans ?_)
  exact if_pos h

theorem layoutStage_staged {slot : Nat} {x : Dev} (hk : topKennel d < (layoutOf bs).kmax) (hslot : slot = 1 - d.boot.layout % 2)
    (hx : x = slotWrite (layoutBase slot) 16 bs (layoutDrop e))
    (hback : signedDigest (rindBytes x.hw.rind x.hw.free (layoutBase slot) bs.length) bs.length = signedDigest bs bs.length) :
    layoutStage c d = adminDone c .success 0 [] (bootAppend { x.boot.gov with type := 3, pendLayout := slot, tries := 0 } x) := by
  refine (layoutStage_formed hup hfn htrial hfree he hbs hst hwhole hnew hok).trans ((if_neg (by simp [hfrozen])).trans ?_)
  refine (if_neg (Nat.not_le.mpr hk)).trans ?_
  subst hx hslot
  exact if_neg (not_not.mpr hback)

end

section
variable {d e : Dev} (he : e = { d with host := { d.host with layoutXfer := [], layoutPort := none } })
include he

theorem layoutDrop_none (h : d.boot.gov.pendLayout = 0xFF) : layoutDrop e = e := by
  subst he
  exact if_pos h

theorem layoutDrop_image (h : d.boot.gov.pendLayout ≠ 0xFF) (himg : d.boot.gov.pendImage ≠ 0xFF) :
    layoutDrop e = bootAppend { d.boot.gov with type := 3, pendLayout := 0xFF, tries := 0 } e := by
  subst he
  exact (if_neg h).trans (if_neg himg)

theorem layoutDrop_last (h : d.boot.gov.pendLayout ≠ 0xFF) (himg : d.boot.gov.pendImage = 0xFF) :
    layoutDrop e = bootAppend (dropPending d.boot.gov) e := by
  subst he
  exact (if_neg h).trans (if_pos himg)

end

/-- Settles O49, each command by the lemmas on its outcomes. -/
theorem imageAndLayoutCommands : Obligations.ImageAndLayoutCommands := by
  refine ⟨?_, ?_, ?_, ?_, ?_, ?_, fun d r => ⟨rfl, rfl, rfl, rfl⟩⟩
  · intro d c off bs hup
    obtain ⟨hok, hbad⟩ := fwDownload_spec (off := off) (bs := bs) hup
    have hexec := exec_firmwareImageDownload c off bs
    exact ⟨fun ho hl hne hfit => Runs.of_does hexec (hok ho hl hne hfit), fun h => Runs.of_does hexec (hbad h)⟩
  · intro d c slot action s img hup htrial hs himg
    have hruns : ∀ {action : Nat} {e : Dev}, fwCommit c slot action d = e → Runs (.firmwareCommit c slot action) d e :=
      fun he => Runs.of_does (exec_firmwareCommit c slot _) he
    refine ⟨fun h => hruns (fwCommit_action hup htrial h), fun ha h => hruns (fwCommit_noSlot hup htrial hs ha h),
      fun ha hle h => hruns (fwCommit_inForce hup htrial hs hle ha h),
      fun ha hle hne hok => hruns (fwCommit_badImage hup htrial hs hle himg hne ha hok),
      fun hle hne hok => hruns (fwCommit_written hup htrial hs hle himg hne hok), fun hle hne hok => ?_,
      fun hle hok => hruns (fwCommit_activate hup htrial hs hle hok)⟩
    obtain ⟨e, he, hleft⟩ := fwCommit_pending hup htrial hs hle himg hne hok
    exact ⟨e, hruns he, hleft⟩
  · intro d c off bs hup hfn htrial
    obtain ⟨hzero, hbad⟩ := layoutTransfer_refused (off := off) (bs := bs) hup hfn htrial
    have hports := layoutTransfer_ports (off := off) (bs := bs) hup hfn htrial
    have hexec := exec_layoutTransfer c off bs
    exact ⟨fun h => Runs.of_does hexec (hzero h), fun hne h => Runs.of_does hexec (hbad hne h),
      fun p hne hl hfit h hp => Runs.of_does hexec ((hports hne hl hfit).1 p h hp),
      fun hne hl hfit h => Runs.of_does hexec ((hports hne hl hfit).2 h)⟩
  · intro d e c bs st hup hfn htrial hfree hbs hst he
    have hruns : ∀ {e : Dev}, layoutStage c d = e → Runs (.layoutVerifyStage c) d e := fun he => Runs.of_does (exec_layoutVerifyStage c) he
    exact ⟨fun hw => hruns (layoutStage_incomplete hup hfn htrial hfree hw),
      fun hw h => hruns (layoutStage_rejected hup hfn htrial hfree he hbs hst hw h),
      fun hw hform hnew h => hruns (layoutStage_absent hup hfn htrial hfree he hbs hst hw hnew hform h),
      fun hw hnew hok h => hruns (layoutStage_frozen hup hfn htrial hfree he hbs hst hw hnew hok h),
      fun hw hnew hok hf h => hruns (layoutStage_kennels hup hfn htrial hfree he hbs hst hw hnew hok hf h),
      fun slot x hw hnew hok hf hk hslot hx hback =>
        hruns (layoutStage_staged hup hfn htrial hfree he hbs hst hw hnew hok hf hk hslot hx hback)⟩
  · intro d e c hup hfn htrial hfree he
    have hruns : ∀ {x : Dev}, layoutDrop e = x → Runs (.layoutDiscard c) d (adminDone c .success 0 [] x) := fun hx =>
      Runs.of_does (exec_layoutDiscard c) ((layoutDiscard_free hup hfn htrial hfree he).trans (congrArg _ hx))
    refine ⟨fun h => hruns (layoutDrop_none he h), fun h himg => hruns (layoutDrop_image he h himg), fun h himg =>
      ⟨_, hruns (layoutDrop_last he h himg), rfl, rfl, ?_⟩⟩
    subst he
    rfl
  · intro d c p hup hfn htrial h hp
    exact ⟨Runs.of_does (exec_layoutVerifyStage c) (layoutStage_held hup hfn htrial h hp),
      Runs.of_does (exec_layoutDiscard c) (layoutDiscard_held hup hfn htrial h hp)⟩

end Sys2Proof.Machine
end

section
/-!
PROOFS. Kennel Configure.
-/

namespace Sys2Proof.Machine

/-! The record a set leaves. -/

theorem kenSetFields_spec {k x : Kennel} {bs : List Byte} {now : Nat} (hx : x = kenSetFields now bs k) :
    x.cls = leAt bs 0 1 ∧ x.dedicated = decide (leAt bs 1 1 = 1) ∧ x.packs = leAt bs 2 2 % 8 ∧ x.iops = leAt bs 4 4 ∧ x.bw = leAt bs 8 4 ∧
    x.cap = leAt bs 12 4 ∧ x.forbidOff = decide (leAt bs 16 4 % 2 = 1) ∧ x.override = leAt bs 20 4 ∧ x.reads = k.reads ∧
    x.outstanding = k.outstanding ∧
    x.iopsB = { level := min (min (iopsCap k) (k.iopsB.level + k.iops * (now - k.iopsB.last))) (iopsCap x), last := now } ∧
    x.bwB = { level := min (min (bwCap k) (k.bwB.level + k.bw * 1048576 * (now - k.bwB.last))) (bwCap x), last := now } := by
  subst hx
  unfold kenSetFields kenFill iopsCap bwCap
  dsimp only
  exact ⟨rfl, rfl, rfl, rfl, rfl, rfl, rfl, rfl, rfl, rfl, rfl, rfl⟩

/-! Set. -/

/-- The condition on Kennel 0: it keeps class 1 and is never dedicated. -/
theorem kennelZero_iff {k cls ded : Nat} : (decide (k = 0) && (decide (cls ≠ 1) || decide (ded = 1))) = false ↔ (k = 0 → cls = 1 ∧ ded ≠ 1) := by
  by_cases hk : k = 0 <;> simp [hk]

section
variable {d : Dev} {c : Src} {k count : Nat} {bs desc : List Byte} {now : Nat} {good : Prop} (hup : adminUp c d = true) (hfn : c.fn = 0)
  (htrial : d.boot.trial = false)
include hup hfn htrial

theorem kennelSet_range (h : 255 < k ∨ (kenGet d k = none ∧ kmaxFor d ≤ k)) : kennelSet c k bs d = adminDone c .invalidField 0 [] d := by
  unfold kennelSet
  rw [vendorGate_pf hup hfn, trialGate_kept htrial]
  exact if_pos (h.imp_right fun h => ⟨by simp [h.1], h.2⟩)

variable (hdesc : desc = padTo 64 bs) (hk : k ≤ 255)
  (hgood : good ↔ (kenFieldsOk d k desc = true ∧ (k = 0 → leAt desc 0 1 = 1 ∧ leAt desc 1 1 ≠ 1)))
include hdesc hk hgood

/-- A set within the range that fails its checks. -/
theorem kennelSet_bad (hrange : kenGet d k ≠ none ∨ k < kmaxFor d) (hbad : ¬ good) : kennelSet c k bs d = adminDone c .invalidField 0 [] d := by
  have hfail : ∀ new : Kennel, new.cls = leAt desc 0 1 → new.dedicated = decide (leAt desc 1 1 = 1) →
      (!kenFieldsOk d k desc || (decide (k = 0) && (decide (new.cls ≠ 1) || new.dedicated))) = true := by
    intro new hcls hded
    rw [hgood, ← kennelZero_iff] at hbad
    rw [hcls, hded]
    cases hok : kenFieldsOk d k desc
    · rfl
    · rw [hok, eq_self_iff_true, true_and] at hbad
      exact eq_true_of_ne_false hbad
  subst hdesc
  unfold kennelSet
  rw [vendorGate_pf hup hfn, trialGate_kept htrial]
  have hin : ¬ (255 < k ∨ ((!(kenGet d k).isSome) = true ∧ kmaxFor d ≤ k)) := by
    rintro (h | ⟨hnone, hmax⟩)
    · omega
    · exact hrange.elim (fun h => h (by simpa using hnone)) (by omega)
  refine (if_neg hin).trans (if_pos (hfail _ ?_ ?_))
  · split <;> rfl
  · split <;> rfl

variable (hnow : now = d.hw.time.toNat) (hok : good)
include hnow hok

/-- A set of a Kennel the part defines that passes its checks. -/
theorem kennelSet_old {old : Kennel} (hold : kenGet d k = some old) : kennelSet c k bs d =
    if kenHasData d k && (decide (decide (leAt desc 1 1 = 1) ≠ old.dedicated) || decide (leAt desc 2 2 % 8 ≠ old.packs)) then
      adminDone c .layoutFrozen 0 [] d
    else adminDone c .success 0 [] (settle (sjPut 0x8010 k (kenBytes (kenSetFields now desc old)) (kenPut d k (kenSetFields now desc old)))) := by
  obtain ⟨hfields, hzero⟩ := hgood.mp hok
  subst hdesc hnow
  unfold kennelSet
  rw [vendorGate_pf hup hfn, trialGate_kept htrial]
  dsimp only [kenOf]
  rw [hold]
  refine (if_neg ?_).trans ((if_neg ?_).trans ((if_neg ?_).trans rfl))
  · rintro (h | ⟨h, -⟩)
    · omega
    · simp at h
  · rw [hfields]
    exact ne_true_of_eq_false (kennelZero_iff.mpr hzero)
  · simp

/-- A set that defines a Kennel and passes its checks. -/
theorem kennelSet_new {new : Kennel} (hcount : count = d.ten.kennels.length + (if (tabGet d.ten.kennels 0).isSome then 0 else 1))
    (hold : kenGet d k = none) (hmax : k < kmaxFor d) (hnew : new = kenFull now (kenSetFields now desc Kennel.zero)) : kennelSet c k bs d =
    if d.med.layout.kmax ≤ count ∨ d.med.layout.kmax ≤ topKennel d then adminDone c .resourceExhausted 0 [] d
    else adminDone c .success 0 [] (settle (sjPut 0x8010 k (kenBytes new) (kenPut d k new))) := by
  obtain ⟨hfields, hzero⟩ := hgood.mp hok
  subst hdesc hnow hcount hnew
  unfold kennelSet
  rw [vendorGate_pf hup hfn, trialGate_kept htrial]
  dsimp only [kenOf]
  rw [hold]
  refine (if_neg ?_).trans ((if_neg ?_).trans (if_congr ?_ rfl (if_neg ?_)))
  · rintro (h | ⟨-, h⟩)
    · omega
    · omega
  · rw [hfields]
    exact ne_true_of_eq_false (kennelZero_iff.mpr hzero)
  · simp
  · simp

end

/-! Delete and read. -/

section
variable {d : Dev} {c : Src} {k : Nat} (hup : adminUp c d = true) (hfn : c.fn = 0)
include hup hfn

theorem kennelRead_spec : (kenGet d k = none → kennelRead c k d = adminDone c .invalidField 0 [] d) ∧
    (∀ x, kenGet d k = some x → kennelRead c k d = adminDone c .success 0 ((padTo 64 (kenBytes x)).map (fun b => b.toNat)) d) := by
  unfold kennelRead
  rw [vendorGate_pf hup hfn]
  exact ⟨fun h => by rw [h], fun x h => by rw [h]; rfl⟩

variable (htrial : d.boot.trial = false)
include htrial

theorem kennelDelete_undefined (h : k = 0 ∨ kenGet d k = none) : kennelDelete c k d = adminDone c .invalidField 0 [] d := by
  unfold kennelDelete
  rw [vendorGate_pf hup hfn, trialGate_kept htrial]
  exact if_pos (by simpa using h)

variable (h0 : k ≠ 0) (hk : kenGet d k ≠ none)
include h0 hk

theorem kennelDelete_bound (h : (∃ q ∈ d.ten.fnBind, q.2 = k) ∨ (∃ q ∈ d.ten.nsBind, q.2 = k)) :
    kennelDelete c k d = adminDone c .kennelInUse 0 [] d := by
  unfold kennelDelete
  rw [vendorGate_pf hup hfn, trialGate_kept htrial]
  exact (if_neg (by simp [h0, hk])).trans (if_pos (by simpa only [Bool.or_eq_true, List.any_eq_true, decide_eq_true_eq] using h))

end

/-- A key slot after Kennel k is deleted: its Key Per I/O key is cleared, its firmware key passes to Kennel 0. -/
def slotUnbound (k : Nat) (q : Nat × Slot) : Nat × Slot :=
  if q.2.type = 0 ∨ q.2.kennel ≠ k then q
  else if q.2.scope = 2 then (q.1, slotClear q.2)
  else if q.2.scope = 0 then (q.1, { q.2 with kennel := 0 }) else q

section
variable {k : Nat} {q : Nat × Slot}

theorem slotUnbound_other (h : q.2.kennel ≠ k) : slotUnbound k q = q := if_pos (.inr h)

theorem slotUnbound_kpio (hty : q.2.type ≠ 0) (hk : q.2.kennel = k) (hs : q.2.scope = 2) : slotUnbound k q = (q.1, slotClear q.2) :=
  (if_neg (by simp [hty, hk])).trans (if_pos hs)

theorem slotUnbound_firmware (hty : q.2.type ≠ 0) (hk : q.2.kennel = k) (hs : q.2.scope = 0) :
    slotUnbound k q = (q.1, { q.2 with kennel := 0 }) :=
  (if_neg (by simp [hty, hk])).trans ((if_neg (by simp [hs])).trans (if_pos hs))

end

theorem kennelDelete_unbound {d : Dev} {c : Src} {k : Nat} (hup : adminUp c d = true) (hfn : c.fn = 0) (htrial : d.boot.trial = false)
    (h0 : k ≠ 0) (hk : kenGet d k ≠ none) (hfb : ∀ q ∈ d.ten.fnBind, q.2 ≠ k) (hnb : ∀ q ∈ d.ten.nsBind, q.2 ≠ k) :
    kennelDelete c k d = adminDone c .success 0 [] (settle (sjDelete 0x8010 k { d with
      sec := { d.sec with slots := d.sec.slots.map (slotUnbound k) }, ten := { d.ten with kennels := tabDel d.ten.kennels k } })) := by
  have hfree : ¬ (d.ten.fnBind.any (fun q => decide (q.2 = k)) || d.ten.nsBind.any (fun q => decide (q.2 = k))) = true := by
    rw [Bool.or_eq_true, List.any_eq_true, List.any_eq_true]
    rintro (⟨q, hq, h⟩ | ⟨q, hq, h⟩)
    · exact hfb q hq (of_decide_eq_true h)
    · exact hnb q hq (of_decide_eq_true h)
  unfold kennelDelete
  rw [vendorGate_pf hup hfn, trialGate_kept htrial]
  exact (if_neg (by simp [h0, hk])).trans (if_neg hfree)

/-! Bindings. -/

section
variable {d : Dev} {c : Src} {k port fn nsid : Nat} (hup : adminUp c d = true) (hfn : c.fn = 0) (htrial : d.boot.trial = false)
include hup hfn htrial

theorem kennelBindFn_spec : ((kenGet d k = none ∨ ctrlPresent d port fn = false) →
      kennelBindFn c k port fn d = adminDone c .invalidField 0 [] d) ∧
    (kenGet d k ≠ none → ctrlPresent d port fn = true → kennelBindFn c k port fn d = adminDone c .success 0 []
      (settle (sjPut 0x8011 (port * 64 + fn) (leBytes 1 k) { d with
        ten := { d.ten with fnBind := tabPutD d.ten.fnBind (port * 64 + fn) k 0 } }))) := by
  unfold kennelBindFn
  rw [vendorGate_pf hup hfn, trialGate_kept htrial]
  exact ⟨fun h => if_pos (by simpa using h), fun hk hp => if_neg (by simp [hk, hp])⟩

theorem kennelUnbindNs_spec : ((nsid, k) ∉ d.ten.nsBind → kennelUnbindNs c k nsid d = adminDone c .invalidField 0 [] d) ∧
    ((nsid, k) ∈ d.ten.nsBind → kennelUnbindNs c k nsid d = adminDone c .success 0 [] (nsBindRecord nsid { d with
      ten := { d.ten with nsBind := d.ten.nsBind.filter (fun q => decide (q ≠ (nsid, k))) } })) := by
  unfold kennelUnbindNs
  rw [vendorGate_pf hup hfn, trialGate_kept htrial]
  exact ⟨fun h => if_pos (by simpa using h), fun h => if_neg (by simpa using h)⟩

theorem kennelBindNs_undefined (hk : kenGet d k = none) : kennelBindNs c k nsid d = adminDone c .invalidField 0 [] d := by
  unfold kennelBindNs
  rw [vendorGate_pf hup hfn, trialGate_kept htrial]
  exact if_pos (by simp [hk])

variable (hk : kenGet d k ≠ none)
include hk

theorem kennelBindNs_noNamespace (hn : nsGet d nsid = none) : kennelBindNs c k nsid d = adminDone c .invalidNamespace 0 [] d := by
  unfold kennelBindNs
  rw [vendorGate_pf hup hfn, trialGate_kept htrial]
  exact (if_neg (by simp [hk])).trans (if_pos (by simp [hn]))

variable (hn : nsGet d nsid ≠ none)
include hn

theorem kennelBindNs_bound (h : (nsid, k) ∈ d.ten.nsBind) : kennelBindNs c k nsid d = adminDone c .success 0 [] d := by
  unfold kennelBindNs
  rw [vendorGate_pf hup hfn, trialGate_kept htrial]
  exact (if_neg (by simp [hk])).trans ((if_neg (by simp [hn])).trans (if_pos (by simpa using h)))

theorem kennelBindNs_unbound (h : (nsid, k) ∉ d.ten.nsBind) : kennelBindNs c k nsid d =
    if 1024 ≤ (d.ten.nsBind.filter (fun q => decide (q.2 = k))).length ∨ 16 ≤ (d.ten.nsBind.filter (fun q => decide (q.1 = nsid))).length then
      adminDone c .resourceExhausted 0 [] d
    else adminDone c .success 0 [] (nsBindRecord nsid { d with ten := { d.ten with nsBind := d.ten.nsBind ++ [(nsid, k)] } }) := by
  unfold kennelBindNs
  rw [vendorGate_pf hup hfn, trialGate_kept htrial]
  exact (if_neg (by simp [hk])).trans ((if_neg (by simp [hn])).trans (if_neg (by simpa using h)))

end

/-- Settles O50, each command by the lemmas on its outcomes. -/
theorem kennelCommands : Obligations.KennelCommands := by
  refine ⟨?_, ?_, ?_, ?_, ?_, ?_⟩
  · intro d c k count bs desc now good hup hfn htrial hdesc hnow hcount hgood
    have hruns : ∀ {e : Dev}, kennelSet c k bs d = e → Runs (.kennelSet c k bs) d e := fun he => Runs.of_does (exec_kennelSet c k bs) he
    refine ⟨fun h => hruns (kennelSet_range hup hfn htrial h),
      fun hk hr hbad => hruns (kennelSet_bad hup hfn htrial hdesc hk hgood hr hbad), fun old hk hold hok h => hruns ?_,
      fun old hk hold hok hdata h => hruns ?_, fun new hk hold hmax hok hnew => ?_⟩
    · rw [kennelSet_old hup hfn htrial hdesc hk hgood hnow hok hold]
      exact if_neg (by rcases h with h | ⟨hd, hp⟩ <;> simp_all)
    · rw [kennelSet_old hup hfn htrial hdesc hk hgood hnow hok hold]
      exact if_pos (by simpa [hdata] using h)
    · have heq := kennelSet_new hup hfn htrial hdesc hk hgood hnow hok hcount hold hmax hnew
      exact ⟨fun h => hruns (heq.trans (if_pos h)), fun hc ht => hruns (heq.trans (if_neg (by omega)))⟩
  · intro k x bs now hx
    obtain ⟨hcls, hded, hpacks, hiops, hbw, hcap, hoff, hover, hreads, hout, hib, hbb⟩ := kenSetFields_spec hx
    exact ⟨hcls, hded, hpacks, hiops, hbw, hcap, hoff, hover, hreads, hout, hib, hbb, rfl, rfl⟩
  · intro d c k hup hfn htrial
    have hexec := exec_kennelDelete c k
    refine ⟨fun h => Runs.of_does hexec (kennelDelete_undefined hup hfn htrial h),
      fun h0 hk h => Runs.of_does hexec (kennelDelete_bound hup hfn htrial h0 hk h),
      fun h0 hk hfb hnb => ⟨_, Runs.of_does hexec (kennelDelete_unbound hup hfn htrial h0 hk hfb hnb), ?_, ?_, ?_⟩⟩
    · exact fun s hs hty hkn hsc => List.mem_map.mpr ⟨s, hs, slotUnbound_kpio hty hkn hsc⟩
    · exact fun s hs hty hkn hsc => List.mem_map.mpr ⟨s, hs, slotUnbound_firmware hty hkn hsc⟩
    · exact fun s hs hkn => List.mem_map.mpr ⟨s, hs, slotUnbound_other hkn⟩
  · intro d c k hup hfn
    obtain ⟨hnone, hsome⟩ := kennelRead_spec (k := k) hup hfn
    exact ⟨fun h => Runs.of_does (exec_kennelRead c k) (hnone h), fun x h => Runs.of_does (exec_kennelRead c k) (hsome x h)⟩
  · intro d c k port fn hup hfn htrial
    obtain ⟨hbad, hok⟩ := kennelBindFn_spec (k := k) (port := port) (fn := fn) hup hfn htrial
    have hexec := exec_kennelBindFunction c k port fn
    exact ⟨fun h => Runs.of_does hexec (hbad h), fun hk hp => Runs.of_does hexec (hok hk hp)⟩
  · intro d c k nsid hup hfn htrial
    have hruns : ∀ {e : Dev}, kennelBindNs c k nsid d = e → Runs (.kennelBindNamespace c k nsid) d e :=
      fun he => Runs.of_does (exec_kennelBindNamespace c k nsid) he
    obtain ⟨habsent, hbound⟩ := kennelUnbindNs_spec (k := k) (nsid := nsid) hup hfn htrial
    have hexec := exec_kennelUnbindNamespace c k nsid
    refine ⟨fun hk => hruns (kennelBindNs_undefined hup hfn htrial hk), fun hk hn => hruns (kennelBindNs_noNamespace hup hfn htrial hk hn),
      fun hk hn h => hruns (kennelBindNs_bound hup hfn htrial hk hn h), fun hk hn h hfull => hruns ?_, fun hk hn h hks hns => hruns ?_,
      fun h => Runs.of_does hexec (habsent h), fun h => Runs.of_does hexec (hbound h)⟩
    · exact (kennelBindNs_unbound hup hfn htrial hk hn h).trans (if_pos hfull)
    · exact (kennelBindNs_unbound hup hfn htrial hk hn h).trans (if_neg (by omega))

end Sys2Proof.Machine
end

section
/-!
PROOFS. Unit Service, Event Recorder Control and Debug Unlock.
-/

namespace Sys2Proof.Machine

/-! What a unit's record leaves: the units themselves. -/

theorem unitRecord_fl (type n st : Nat) (d : Dev) : (unitRecord type n st d).fl = d.fl := by rw [unitRecord_frame]

theorem unitRecord_med (type n st : Nat) (d : Dev) : (unitRecord type n st d).med = d.med := by rw [unitRecord_frame]

@[simp] theorem dieGet_unitRecord (type n st : Nat) (d : Dev) (k : Nat) : dieGet (unitRecord type n st d) k = dieGet d k := by
  rw [dieGet, unitRecord_fl]
  rfl

@[simp] theorem chanGet_unitRecord (type n st : Nat) (d : Dev) (k : Nat) : chanGet (unitRecord type n st d) k = chanGet d k := by
  rw [chanGet, unitRecord_fl]
  rfl

@[simp] theorem detGet_unitRecord (type n st : Nat) (d : Dev) (k : Nat) : detGet (unitRecord type n st d) k = detGet d k := by
  rw [detGet, unitRecord_fl]
  rfl

@[simp] theorem chanGet_chanPut_self (d : Dev) (n : Nat) (x : Chan) : chanGet (chanPut d n x) n = x := tabGetD_tabPut_self ..

@[simp] theorem detGet_detPut_self (d : Dev) (n : Nat) (x : Det) : detGet (detPut d n x) n = x := tabGetD_tabPut_self ..

@[simp] theorem dieGet_diePut_self (d : Dev) (n : Nat) (x : Die) : dieGet (diePut d n x) n = x := tabGetD_tabPut_self ..

theorem dieGet_diePut_other {d : Dev} {n i : Nat} (x : Die) (h : i ≠ n) : dieGet (diePut d n x) i = dieGet d i :=
  tabGetD_tabPut_other _ _ _ h

theorem chanLeaveCheck_spec {d : Dev} {n w : Nat} (hw : (chanGet d n).leaving = some w) :
    ((∃ i < 32, (dieGet d (32 * n + i)).leaving ≠ none) → chanLeaveCheck n d = d) ∧
    ((∀ i < 32, (dieGet d (32 * n + i)).leaving = none) →
      (chanGet (chanLeaveCheck n d) n).st = 2 ∧ (chanGet (chanLeaveCheck n d) n).leaving = none ∧ (chanLeaveCheck n d).med = d.med) := by
  unfold chanLeaveCheck
  dsimp only
  rw [hw]
  dsimp only
  refine ⟨?_, fun h => ?_⟩
  · rintro ⟨i, hi, hleft⟩
    exact if_pos (List.any_eq_true.mpr ⟨i, List.mem_range.mpr hi, by simpa [Option.isSome_iff_ne_none] using hleft⟩)
  · rw [if_neg (by simpa using h)]
    have hchan : ∀ x : Dev, chanGet (unitEvent 1 n 2 w x) n = chanGet x n := fun x => rfl
    rw [hchan, chanGet_unitRecord, chanGet_chanPut_self]
    exact ⟨rfl, rfl, unitRecord_med ..⟩

theorem detLeave_contexts {d : Dev} {n w : Nat} (hl : (detGet d n).leaving = none) (hctx : (detGet d n).ctx ≠ []) :
    (detGet (detLeave n w d) n).leaving = some w ∧ (detGet (detLeave n w d) n).st = (detGet d n).st ∧ (detLeave n w d).med = d.med := by
  have heq : detLeave n w d = unitRecord 3 n 2 (detPut d n { detGet d n with leaving := some w }) :=
    (if_neg (by simp [hl])).trans (if_neg (by simpa using hctx))
  rw [heq, detGet_unitRecord, detGet_detPut_self]
  exact ⟨rfl, rfl, unitRecord_med ..⟩

theorem returnDies_on {d : Dev} {k : Nat} (n : Nat) (hon : domOn d.pwr (k + 1) = true) :
    dieGet (returnDies k [n] d) n = { dieGet d n with st := 3, returning := some (0, 0), ready := false } ∧
    (chanGet (returnDies k [n] d) k).needTrain = (chanGet d k).needTrain ||| (1#4 <<< (n % 32 / 8)) ∧
    (returnDies k [n] d).med = d.med ∧ (∀ i, i ≠ n → dieGet (returnDies k [n] d) i = dieGet d i) := by
  have hdie : ∀ (f : Pacer → Pacer) (x : Dev) (c : Chan) (i : Nat), dieGet (pacerMod f (chanPut x k c)) i = dieGet x i := fun f x c i => rfl
  have hchan : ∀ (f : Pacer → Pacer) (x : Dev), chanGet (pacerMod f x) k = chanGet x k := fun f x => rfl
  have hput : ∀ (x : Die), chanGet (diePut d n x) k = chanGet d k := fun x => rfl
  unfold returnDies
  rw [if_pos hon]
  dsimp only [List.foldl_cons, List.foldl_nil]
  refine ⟨?_, ?_, unitRecord_med .., fun i hi => ?_⟩
  · rw [hdie, dieGet_unitRecord, dieGet_diePut_self]
  · rw [hchan, chanGet_chanPut_self, chanGet_unitRecord, hput]
  · rw [hdie, dieGet_unitRecord, dieGet_diePut_other _ hi]

/-! Take-out. -/

section
variable {c : Src} {n : Nat} {d : Dev}

theorem takeOutDie_refused : (dieFitted d n = false → takeOutDie c n d = adminDone c .unitAbsent 0 [] d) ∧
    (dieFitted d n = true → (dieGet d n).st ≠ 1 → (dieGet d n).st ≠ 3 →
      takeOutDie c n d = adminDone c .unitStateConflict (dieGet d n).st [] d) ∧
    (dieFitted d n = true → (dieGet d n).st = 1 → stripeLacks d [n] = true → takeOutDie c n d = adminDone c .unitStateConflict 1 [] d) := by
  unfold takeOutDie
  dsimp only
  refine ⟨fun h => if_pos (by simp [h]), fun hf h1 h3 => ?_, fun hf h1 hl => ?_⟩
  · exact (if_neg (by simp [hf])).trans (if_pos ⟨h1, h3⟩)
  · rw [if_neg (by simp [hf]), if_neg (by simp [h1]), if_pos ⟨h1, hl⟩, h1]

theorem takeOutDie_goes (hf : dieFitted d n = true) (h : (dieGet d n).st = 3 ∨ ((dieGet d n).st = 1 ∧ stripeLacks d [n] = false)) :
    takeOutDie c n d = adminDone c .success (dieGet (dieTakeOut n 0 d) n).st [] (dieTakeOut n 0 d) := by
  have hst : ¬ ((dieGet d n).st ≠ 1 ∧ (dieGet d n).st ≠ 3) := by rcases h with h | ⟨h, -⟩ <;> simp [h]
  have hstripe : ¬ ((dieGet d n).st = 1 ∧ stripeLacks d [n] = true) := by rcases h with h | ⟨h, hl⟩ <;> simp [*]
  exact (if_neg (by simp [hf])).trans ((if_neg hst).trans (if_neg hstripe))

theorem takeOutChan_refused : (chCount d.fuse ≤ n → takeOutChan c n d = adminDone c .unitAbsent 0 [] d) ∧
    (n < chCount d.fuse → (((chanGet d n).st ≠ 1 ∧ (chanGet d n).st ≠ 3) ∨ (chanGet d n).leaving ≠ none) →
      takeOutChan c n d = adminDone c .unitStateConflict (chanGet d n).st [] d) := by
  unfold takeOutChan
  dsimp only
  exact ⟨fun h => if_pos h, fun hn h =>
    (if_neg (Nat.not_le.mpr hn)).trans (if_pos (by simpa only [Option.isSome_iff_ne_none] using h))⟩

theorem takeOutChan_serving {ds live : List Nat} {x y : Dev} (hn : n < chCount d.fuse) (hst : (chanGet d n).st = 1 ∨ (chanGet d n).st = 3)
    (hl : (chanGet d n).leaving = none) (hds : ds = ((List.range 32).map (fun i => 32 * n + i)).filter (fun k => dieFitted d k))
    (hx : x = unitRecord 1 n 2 (chanPut d n { chanGet d n with leaving := some 0, returning := false }))
    (hlive : live = ds.filter (fun k => decide ((dieGet x k).st = 1) || decide ((dieGet x k).st = 3)))
    (hy : y = live.foldl (fun z k => dieTakeOut k 0 z) x) :
    (stripeLacks d (ds.filter (fun k => decide ((dieGet d k).st = 1))) = true →
      takeOutChan c n d = adminDone c .unitStateConflict (chanGet d n).st [] d) ∧
    (stripeLacks d (ds.filter (fun k => decide ((dieGet d k).st = 1))) = false → live ≠ [] →
      takeOutChan c n d = adminDone c .success (chanGet y n).st [] y) ∧
    (stripeLacks d (ds.filter (fun k => decide ((dieGet d k).st = 1))) = false → live = [] → ∀ z,
      z = chanLeaveCheck n { x with hw := irq x.hw (irqFch n) 1 } → takeOutChan c n d = adminDone c .success (chanGet z n).st [] z) := by
  have hserve : ¬ (((chanGet d n).st ≠ 1 ∧ (chanGet d n).st ≠ 3) ∨ (chanGet d n).leaving.isSome = true) := by
    rcases hst with h | h <;> simp [h, hl]
  unfold takeOutChan
  dsimp only
  rw [if_neg (Nat.not_le.mpr hn), if_neg hserve, ← hds, ← hx, ← hlive, ← hy]
  refine ⟨fun h => if_pos h, fun h hne => ?_, fun h hnil z hz => ?_⟩
  · rw [if_neg (by simp [h]), if_neg (by simpa using hne)]
  · have hyx : y = x := by rw [hy, hnil]; rfl
    rw [if_neg (by simp [h]), if_pos (by simp [hnil]), hyx, ← hz]

theorem takeOutDet_spec : (detCount d.fuse ≤ n → takeOutDet c n d = adminDone c .unitAbsent 0 [] d) ∧
    (n < detCount d.fuse → (((detGet d n).st ≠ 1 ∧ (detGet d n).st ≠ 3) ∨ (detGet d n).leaving ≠ none ∨ lastDet d n = true) →
      takeOutDet c n d = adminDone c .unitStateConflict (detGet d n).st [] d) ∧
    (n < detCount d.fuse → ((detGet d n).st = 1 ∨ (detGet d n).st = 3) → (detGet d n).leaving = none → lastDet d n = false →
      takeOutDet c n d = adminDone c .success (detGet (detLeave n 0 d) n).st [] (detLeave n 0 d)) := by
  unfold takeOutDet
  dsimp only
  refine ⟨fun h => if_pos h, fun hn h => ?_, fun hn hst hl hlast => ?_⟩
  · exact (if_neg (Nat.not_le.mpr hn)).trans (if_pos (by simpa only [Option.isSome_iff_ne_none] using h))
  · exact (if_neg (Nat.not_le.mpr hn)).trans (if_neg (by rcases hst with h | h <;> simp [h, hl, hlast]))

/-! Return. -/

theorem returnDie_spec : (dieFitted d n = false → returnDie c n d = adminDone c .unitAbsent 0 [] d) ∧
    (dieFitted d n = true → (((dieGet d n).st ≠ 2 ∧ (dieGet d n).st ≠ 4) ∨ (chanGet d (chOf n)).st ≠ 1) →
      returnDie c n d = adminDone c .unitStateConflict (dieGet d n).st [] d) ∧
    (dieFitted d n = true → ((dieGet d n).st = 2 ∨ (dieGet d n).st = 4) → (chanGet d (chOf n)).st = 1 →
      returnDie c n d = adminDone c .success 3 [] (returnDies (chOf n) [n] d)) := by
  unfold returnDie
  dsimp only
  refine ⟨fun h => if_pos (by simp [h]), fun hf h => ?_, fun hf hst hch => ?_⟩
  · exact (if_neg (by simp [hf])).trans (if_pos h)
  · exact (if_neg (by simp [hf])).trans (if_neg (by rcases hst with h | h <;> simp [h, hch]))

theorem returnChan_refused : (chCount d.fuse ≤ n → returnChan c n d = adminDone c .unitAbsent 0 [] d) ∧
    (n < chCount d.fuse → (chanGet d n).st ≠ 2 → (chanGet d n).st ≠ 4 →
      returnChan c n d = adminDone c .unitStateConflict (chanGet d n).st [] d) :=
  ⟨fun h => if_pos h, fun hn h2 h4 => (if_neg (Nat.not_le.mpr hn)).trans (if_pos ⟨h2, h4⟩)⟩

theorem returnChan_goes {ds : List Nat} {x : Dev} (hn : n < chCount d.fuse) (hst : (chanGet d n).st = 2 ∨ (chanGet d n).st = 4)
    (hds : ds = ((List.range 32).map (fun i => 32 * n + i)).filter (fun k =>
      dieFitted d k && (decide ((dieGet d k).st = 2) || decide ((dieGet d k).st = 4))))
    (hx : x = returnDies n ds (unitRecord 1 n 2 (chanPut d n { chanGet d n with st := 3, returning := true, trained := 0#4, failed := 0#4 }))) :
    returnChan c n d = adminDone c .success 3 [] (if ds.isEmpty then chanRetEnd n x else x) := by
  subst hx hds
  exact (if_neg (Nat.not_le.mpr hn)).trans (if_neg (by rcases hst with h | h <;> simp [h]))

theorem returnDet_spec : (detCount d.fuse ≤ n → returnDet c n d = adminDone c .unitAbsent 0 [] d) ∧
    (n < detCount d.fuse → (detGet d n).st ≠ 2 → (detGet d n).st ≠ 4 →
      returnDet c n d = adminDone c .unitStateConflict (detGet d n).st [] d) ∧
    (∀ x, n < detCount d.fuse → ((detGet d n).st = 2 ∨ (detGet d n).st = 4) →
      x = unitRecord 3 n 2 (dctrlWrite (n + 49) (putFld (rd d.hw (R.PWR_DCTRL (n + 49))) 0 2 1) d) →
      returnDet c n d = adminDone c .success 3 [] (detPut { x with hw := md x.hw (R.DET_CTRL n) (fun w => setBit w 1) } n
        { detGet x n with st := 3, testing := true, returning := true, leaving := none })) := by
  refine ⟨fun h => if_pos h, fun hn h2 h4 => (if_neg (Nat.not_le.mpr hn)).trans (if_pos ⟨h2, h4⟩), ?_⟩
  rintro x hn hst rfl
  exact (if_neg (Nat.not_le.mpr hn)).trans (if_neg (by rcases hst with h | h <;> simp [h]))

end

/-! Unit Service: the type of unit chooses the rule. -/

section
variable {d : Dev} {c : Src} {type n : Nat} (hup : adminUp c d = true) (hfn : c.fn = 0)
include hup hfn

theorem unitTakeOut_die : unitTakeOut c 2 n d = takeOutDie c n d := vendorGate_pf hup hfn _

theorem unitTakeOut_chan : unitTakeOut c 1 n d = takeOutChan c n d := vendorGate_pf hup hfn _

theorem unitTakeOut_det : unitTakeOut c 3 n d = takeOutDet c n d := vendorGate_pf hup hfn _

theorem unitReturn_die : unitReturn c 2 n d = returnDie c n d := vendorGate_pf hup hfn _

theorem unitReturn_chan : unitReturn c 1 n d = returnChan c n d := vendorGate_pf hup hfn _

theorem unitReturn_det : unitReturn c 3 n d = returnDet c n d := vendorGate_pf hup hfn _

theorem unitService_noType (h : type < 1 ∨ 3 < type) : unitQuery c type n d = adminDone c .invalidField 0 [] d ∧
    unitTakeOut c type n d = adminDone c .invalidField 0 [] d ∧ unitReturn c type n d = adminDone c .invalidField 0 [] d := by
  refine ⟨(vendorGate_pf hup hfn _).trans (if_pos h), (vendorGate_pf hup hfn _).trans ?_, (vendorGate_pf hup hfn _).trans ?_⟩
  · split
    · omega
    · omega
    · omega
    · rfl
  · split
    · omega
    · omega
    · omega
    · rfl

theorem unitQuery_spec (hlo : 1 ≤ type) (hhi : type ≤ 3) : unitQuery c type n d =
    if unitState d type n = 0 then adminDone c .unitAbsent 0 [] d else adminDone c .success (unitState d type n) [] d :=
  (vendorGate_pf hup hfn _).trans (if_neg (by omega))

/-! The event recorder. -/

theorem evCtrlRead_spec {code : Nat} {b : Bucket} (hb : b = tabGetD d.hw.ev.buckets code Bucket.init) :
    (code ≤ 511 → evCtrlRead c code d = adminDone c .success (b.burst * 65536 + b.rate) [] d) ∧
    (511 < code → evCtrlRead c code d = adminDone c .invalidField 0 [] d) := by
  subst hb
  exact ⟨fun h => (vendorGate_pf hup hfn _).trans (if_neg (Nat.not_lt.mpr h)), fun h => (vendorGate_pf hup hfn _).trans (if_pos h)⟩

theorem evCtrlSet_spec {code rate burst r s : Nat} {b : Bucket} (htrial : d.boot.trial = false) (hb : b = evBucket d.hw code)
    (hr : r = rate % 65536) (hs : s = burst % 65536) : (code ≤ 511 → evCtrlSet c code rate burst d = adminDone c .success 0 []
      (sjPut 0x31 code (leBytes 2 r ++ leBytes 2 s) { d with hw := { d.hw with ev := { d.hw.ev with
        buckets := tabPut d.hw.ev.buckets code { b with rate := r, burst := s, level := min b.level (s * 25000000) } } } })) ∧
    (511 < code → evCtrlSet c code rate burst d = adminDone c .invalidField 0 [] d) := by
  subst hb hr hs
  unfold evCtrlSet
  rw [vendorGate_pf hup hfn, trialGate_kept htrial]
  exact ⟨fun h => if_neg (Nat.not_lt.mpr h), fun h => if_pos h⟩

/-! Debug Unlock. -/

theorem debugUnlock_locked {bs : List Byte} (h : 3 ≤ d.sec.dbg.failures) : debugChallenge c d = adminDone c .debugFailed 0 [] d ∧
    debugSubmit c bs d = adminDone c .debugFailed 0 [] d :=
  ⟨(vendorGate_pf hup hfn _).trans (if_pos (decide_eq_true h)), (vendorGate_pf hup hfn _).trans (if_pos (decide_eq_true h))⟩

variable (h : d.sec.dbg.failures < 3)
include h

theorem debugChallenge_waits (hrnd : drbgReady d.sec = false) :
    debugChallenge c d = { d with host := { d.host with rndHeld := d.host.rndHeld ++ [.challenge c] } } :=
  (vendorGate_pf hup hfn _).trans ((if_neg (by simp [debugLocked, h])).trans (if_neg (by simp [hrnd])))

theorem debugChallenge_drawn {ch : List Byte} (hrnd : drbgReady d.sec = true) (hch : ch = chalBytes d (Config.drbg d.sec.drbgDraws)) :
    debugChallenge c d = adminDone c .success 0 (ch.map (fun b => b.toNat)) { d with sec := { d.sec with
      drbgDraws := d.sec.drbgDraws + 1, drbgReqs := d.sec.drbgReqs + 1
      dbg := { d.sec.dbg with adminChal := some (BitVec.ofNat 512 (leNat ch)) } } } := by
  subst hch
  exact (vendorGate_pf hup hfn _).trans ((if_neg (by simp [debugLocked, h])).trans (if_pos hrnd))

theorem debugSubmit_judged {bs : List Byte} {st : Status}
    (hst : st = (match d.sec.dbg.adminChal with | some ch => debugVerify d ch (padTo 96 bs) | none => .reject)) :
    debugSubmit c bs d = adminDone c (if st = .ok then .success else .debugFailed) 0 []
      (debugResult 0 st { d with sec := { d.sec with dbg := { d.sec.dbg with adminChal := none } } }) := by
  subst hst
  exact (vendorGate_pf hup hfn _).trans (if_neg (by simp [debugLocked, h]))

end

theorem debugResult_spec (path : Nat) (st : Status) (d : Dev) : (debugResult path st d).med = d.med ∧
    (st = .ok → (debugResult path st d).sec.dbg = { d.sec.dbg with unlocked := true }) ∧
    (st ≠ .ok → (debugResult path st d).sec.dbg = { d.sec.dbg with failures := d.sec.dbg.failures + 1 }) :=
  ⟨rfl, fun h => if_pos h, fun h => if_neg h⟩

/-- Settles O51, each command by the lemmas on its outcomes. -/
theorem serviceCommands : Obligations.ServiceCommands := by
  refine ⟨?_, ?_, fun d n w => chanLeaveCheck_spec, fun d n w => detLeave_contexts, ?_, fun d k n => returnDies_on n, ?_, ?_, ?_, ?_,
    fun d path st => debugResult_spec path st d,
    fun d => ⟨Runs.of_does (exec_debugChallengeExpiry false) rfl, Runs.of_does (exec_debugChallengeExpiry true) rfl⟩⟩
  · intro d c type n hup hfn
    have hquery := unitQuery_spec (type := type) (n := n) hup hfn
    have hexec := exec_unitQuery c type n
    refine ⟨fun h => ?_, fun hlo hhi h => Runs.of_does hexec ((hquery hlo hhi).trans (if_pos h)),
      fun hlo hhi h => Runs.of_does hexec ((hquery hlo hhi).trans (if_neg h))⟩
    obtain ⟨hq, ht, hr⟩ := unitService_noType (n := n) hup hfn h
    exact ⟨Runs.of_does hexec hq, Runs.of_does (exec_unitTakeOut c type n) ht, Runs.of_does (exec_unitReturn c type n) hr⟩
  · intro d c n hup hfn
    have hchan : ∀ {e : Dev}, takeOutChan c n d = e → Runs (.unitTakeOut c 1 n) d e :=
      fun he => Runs.of_does (exec_unitTakeOut c 1 n) ((unitTakeOut_chan hup hfn).trans he)
    have hdie : ∀ {e : Dev}, takeOutDie c n d = e → Runs (.unitTakeOut c 2 n) d e :=
      fun he => Runs.of_does (exec_unitTakeOut c 2 n) ((unitTakeOut_die hup hfn).trans he)
    have hdet : ∀ {e : Dev}, takeOutDet c n d = e → Runs (.unitTakeOut c 3 n) d e :=
      fun he => Runs.of_does (exec_unitTakeOut c 3 n) ((unitTakeOut_det hup hfn).trans he)
    obtain ⟨hcAbsent, hcConflict⟩ := takeOutChan_refused (c := c) (n := n) (d := d)
    obtain ⟨hdAbsent, hdConflict, hdStripe⟩ := takeOutDie_refused (c := c) (n := n) (d := d)
    obtain ⟨htAbsent, htConflict, htGoes⟩ := takeOutDet_spec (c := c) (n := n) (d := d)
    refine ⟨fun h => ⟨hchan (hcAbsent h), ?_⟩, fun h => ⟨hdie (hdAbsent h), ?_⟩, fun h => ⟨hdet (htAbsent h), ?_⟩,
      fun hf h1 h3 => hdie (hdConflict hf h1 h3), fun hf h1 hl => hdie (hdStripe hf h1 hl), fun hf h => hdie (takeOutDie_goes hf h),
      fun hn h => hchan (hcConflict hn h), fun ds x live y hn hst hl hds hx hlive hy => ?_, fun hn h => hdet (htConflict hn h),
      fun hn hst hl hlast => hdet (htGoes hn hst hl hlast)⟩
    · exact Runs.of_does (exec_unitReturn c 1 n) ((unitReturn_chan hup hfn).trans (returnChan_refused.1 h))
    · exact Runs.of_does (exec_unitReturn c 2 n) ((unitReturn_die hup hfn).trans (returnDie_spec.1 h))
    · exact Runs.of_does (exec_unitReturn c 3 n) ((unitReturn_det hup hfn).trans (returnDet_spec.1 h))
    · obtain ⟨hlacks, hlive', hnone⟩ := takeOutChan_serving (c := c) hn hst hl hds hx hlive hy
      exact ⟨fun h => hchan (hlacks h), fun h hne => hchan (hlive' h hne), fun h hnil z hz => hchan (hnone h hnil z hz)⟩
  · intro d c n hup hfn
    have hchan : ∀ {e : Dev}, returnChan c n d = e → Runs (.unitReturn c 1 n) d e :=
      fun he => Runs.of_does (exec_unitReturn c 1 n) ((unitReturn_chan hup hfn).trans he)
    have hdie : ∀ {e : Dev}, returnDie c n d = e → Runs (.unitReturn c 2 n) d e :=
      fun he => Runs.of_does (exec_unitReturn c 2 n) ((unitReturn_die hup hfn).trans he)
    have hdet : ∀ {e : Dev}, returnDet c n d = e → Runs (.unitReturn c 3 n) d e :=
      fun he => Runs.of_does (exec_unitReturn c 3 n) ((unitReturn_det hup hfn).trans he)
    obtain ⟨-, hdConflict, hdGoes⟩ := returnDie_spec (c := c) (n := n) (d := d)
    obtain ⟨-, htConflict, htGoes⟩ := returnDet_spec (c := c) (n := n) (d := d)
    refine ⟨fun hf h => hdie (hdConflict hf h), fun hf hst hch => hdie (hdGoes hf hst hch),
      fun hn h2 h4 => hchan (returnChan_refused.2 hn h2 h4), fun ds x hn hst hds hx => ?_, fun hn h2 h4 => hdet (htConflict hn h2 h4),
      fun x hn hst hx => hdet (htGoes x hn hst hx)⟩
    have hgoes := returnChan_goes (c := c) hn hst hds hx
    exact ⟨fun h => hchan (by rw [hgoes, if_neg (by simpa using h)]), fun h => hchan (by rw [hgoes, if_pos (by simp [h])])⟩
  · intro d c hup hfn
    exact ⟨Runs.of_does (exec_evrecCtrlFlush c) (vendorGate_pf hup hfn _), Runs.of_does (exec_evrecCtrlClear c) (vendorGate_pf hup hfn _)⟩
  · intro d c code rate burst r s b hup hfn htrial hb hr hs
    obtain ⟨hok, hbad⟩ := evCtrlSet_spec (c := c) (code := code) hup hfn htrial hb hr hs
    have hexec := exec_evrecSetRateLimit c code rate burst
    exact ⟨fun h => Runs.of_does hexec (hok h), fun h => Runs.of_does hexec (hbad h)⟩
  · intro d c code b hup hfn hb
    obtain ⟨hok, hbad⟩ := evCtrlRead_spec (c := c) hup hfn hb
    have hexec := exec_evrecReadRateLimit c code
    exact ⟨fun h => Runs.of_does hexec (hok h), fun h => Runs.of_does hexec (hbad h)⟩
  · intro d c bs hup hfn
    have hget := exec_debugGetChallenge c
    have hsubmit := exec_debugSubmitResponse c bs
    refine ⟨fun h => ?_, fun h hrnd => Runs.of_does hget (debugChallenge_waits hup hfn h hrnd),
      fun ch h hrnd hch => Runs.of_does hget (debugChallenge_drawn hup hfn h hrnd hch),
      fun st h hst => Runs.of_does hsubmit (debugSubmit_judged hup hfn h hst)⟩
    obtain ⟨hc, hs⟩ := debugUnlock_locked (bs := bs) hup hfn h
    exact ⟨Runs.of_does hget hc, Runs.of_does hsubmit hs⟩

end Sys2Proof.Machine
end

section
/-!
PROOFS. Format, Sanitize and Key Per I/O.
-/

namespace Sys2Proof.Machine

/-! Format. -/

section
variable {d : Dev} {c : Src} {nsid ses : Nat} (hup : adminUp c d = true)
include hup

theorem formatNvm_invalid (h : 2 < ses ∨ (ses = 2 ∧ hasCrypto d.fuse = false)) : formatNvm c nsid ses d = adminDone c .invalidField 0 [] d :=
  (adminGate_up hup _).trans (if_pos h)

theorem formatNvm_noNamespace (h : ses ≤ 1 ∨ (ses = 2 ∧ hasCrypto d.fuse = true)) (hone : nsid ≠ 0xFFFFFFFF) (hn : nsGet d nsid = none) :
    formatNvm c nsid ses d = adminDone c .invalidNamespace 0 [] d := by
  have hses : ¬ (2 < ses ∨ (ses = 2 ∧ hasCrypto d.fuse = false)) := by
    rintro (hlt | ⟨rfl, hno⟩)
    · omega
    · exact h.elim (by omega) (fun h => by simp [hno] at h)
  exact (adminGate_up hup _).trans ((if_neg hses).trans (if_pos (by simp [hone, hn])))

variable {ids : List Nat} (hn : nsid = 0xFFFFFFFF ∨ nsGet d nsid ≠ none)
  (hids : ids = (if nsid = 0xFFFFFFFF then d.ten.namespaces.map (fun q => q.1) else [nsid]))
include hn hids

theorem formatNvm_wipes (hses : ses ≤ 1) : formatNvm c nsid ses d = adminDone c .success 0 [] (volWrite (ids.foldl (fun y i =>
    match nsGet y i with | some n => nsWipe i n y | none => y) d)) := by
  have hthere : ¬ (!decide (nsid = 0xFFFFFFFF) && (nsGet d nsid).isNone) = true := by
    rcases hn with h | h <;> simp [h]
  have hne : ses ≠ 2 := by omega
  unfold formatNvm
  rw [adminGate_up hup]
  dsimp only
  rw [if_neg (by omega), if_neg hthere]
  simp only [if_neg hne, decide_eq_true_eq, hids] <;> rfl

theorem formatNvm_crypto (hses : ses = 2) (hcrypto : hasCrypto d.fuse = true) : formatNvm c nsid ses d =
    rndGate (.format c nsid) (fun y => adminDone c .success 0 [] (volWrite (ids.foldl (fun y i => nsCrypto i y) y))) d := by
  have hthere : ¬ (!decide (nsid = 0xFFFFFFFF) && (nsGet d nsid).isNone) = true := by
    rcases hn with h | h <;> simp [h]
  unfold formatNvm
  rw [adminGate_up hup]
  dsimp only
  rw [if_neg (by simp [hses, hcrypto]), if_neg hthere]
  simp only [if_pos hses, decide_eq_true_eq, hids]

end

theorem nsWipe_conventional {d : Dev} {nsid lba : Nat} {n : Ns} (hz : n.zoned = false) (hlba : lba < n.nsze)
    (hseq : entSeq (mapAt d nsid lba) ≤ d.med.seqNext) : mapAt (nsWipe nsid n d) nsid lba = .unmapped d.med.seqNext := by
  have hwipe : nsWipe nsid n d = unmapAt nsid 0 n.nsze d.med.seqNext false (seqTake d).2 := if_neg (by simp [hz])
  obtain ⟨hunmapped, -⟩ := unmapAt_spec (seqTake d).2 nsid 0 n.nsze d.med.seqNext false
  rw [hwipe]
  simpa only [Nat.zero_add] using hunmapped lba hlba (by rw [Nat.zero_add]; exact hseq)

/-! Crypto erase. -/

/-- A key slot when a namespace is rekeyed: a Key Per I/O key of one of its Kennels is cleared. -/
def slotRekeyed (ks : List Nat) (q : Nat × Slot) : Nat × Slot :=
  if q.2.type ≠ 0 ∧ q.2.scope = 2 ∧ ks.contains q.2.kennel then (q.1, slotClear q.2) else q

theorem nsRekey_eq {d x : Dev} {nsid : Nat} {n n1 : Ns} (hc : n.cipher ≠ 0)
    (hmake : nsKeyMake nsid n.slot (slotGet d.sec n.slot).kennel n d = some (n1, x)) : nsRekey nsid n d = { x with
      ten := { x.ten with namespaces := tabPut x.ten.namespaces nsid n1 }
      sec := { x.sec with
        slots := x.sec.slots.map (slotRekeyed ((x.ten.nsBind.filter (fun q => decide (q.1 = nsid))).map (fun q => q.2))) } } := by
  unfold nsRekey
  rw [if_neg hc, hmake]
  rfl

theorem nsRekey_spec {d x : Dev} {nsid : Nat} {n n1 : Ns} (hc : n.cipher ≠ 0)
    (hmake : nsKeyMake nsid n.slot (slotGet d.sec n.slot).kennel n d = some (n1, x)) : nsGet (nsRekey nsid n d) nsid = some n1 ∧
    (∀ s ∈ x.sec.slots, s.2.type ≠ 0 → s.2.scope = 2 → (nsid, s.2.kennel) ∈ x.ten.nsBind →
      (s.1, slotClear s.2) ∈ (nsRekey nsid n d).sec.slots) ∧
    (∀ s ∈ x.sec.slots, s.2.scope ≠ 2 → s ∈ (nsRekey nsid n d).sec.slots) := by
  rw [nsRekey_eq hc hmake]
  refine ⟨tabGet_tabPut_self .., fun s hs hty hsc hb => List.mem_map.mpr ⟨s, hs, if_pos ⟨hty, hsc, ?_⟩⟩,
    fun s hs hsc => List.mem_map.mpr ⟨s, hs, if_neg fun h => hsc h.2.1⟩⟩
  exact List.contains_iff_mem.mpr (List.mem_map.mpr ⟨(nsid, s.2.kennel), List.mem_filter.mpr ⟨hb, decide_eq_true rfl⟩, rfl⟩)

theorem nsCrypto_eq {d : Dev} {nsid : Nat} {n n1 : Ns} (hn : nsGet d nsid = some n) (hn1 : nsGet (nsRekey nsid n d) nsid = some n1) :
    nsCrypto nsid d = nsWipe nsid n1 (nsRekey nsid n d) := by
  unfold nsCrypto
  rw [hn]
  dsimp only
  rw [hn1]

/-! Sanitize. -/

section
variable {d : Dev} {c : Src} (hup : adminUp c d = true)
include hup

theorem sanitizeCrypto_noCrypto (h : hasCrypto d.fuse = false) : sanitizeCrypto c d = adminDone c .invalidField 0 [] d :=
  (adminGate_up hup _).trans (if_pos (by simp [h]))

variable (h : hasCrypto d.fuse = true)
include h

theorem sanitizeCrypto_unknown (hv : d.med.volUnknown = true) : sanitizeCrypto c d = adminDone c .layoutFrozen 0 [] d :=
  (adminGate_up hup _).trans ((if_neg (by simp [h])).trans (if_pos hv))

theorem sanitizeCrypto_known (hv : d.med.volUnknown = false) : sanitizeCrypto c d = rndGate (.sanitize c)
    (fun z => adminDone c .success 0 [] (volWrite (z.ten.namespaces.foldl (fun y q => nsCrypto q.1 y) z))) d :=
  (adminGate_up hup _).trans ((if_neg (by simp [h])).trans (if_neg (by simp [hv])))

end

theorem sanitizeBlock_spec {d x y : Dev} {c : Src} (hup : adminUp c d = true) (hx : x = volCreate (mediaErase d))
    (hy : y = x.ten.fnBind.foldl (fun z q => sjDelete 0x8011 q.1 z) { x with ten := { x.ten with zones := [] } }) :
    sanitizeBlock c d = adminDone c .success 0 [] (volWrite (y.ten.namespaces.foldl (fun z q =>
      if q.2.zoned then zonesCreate q.1 q.2 z else z) { y with ten := { y.ten with fnBind := [] } })) := by
  unfold sanitizeBlock
  rw [adminGate_up hup]
  dsimp only
  rw [← hx, ← hy]

/-- The media without its blocks' states, which a queued erase changes. -/
def Dev.besidesBlks (d : Dev) : Media := { d.med with blks := [] }

theorem eraseAdd_besidesBlks (die b : Nat) (d : Dev) : (eraseAdd die b d).besidesBlks = d.besidesBlks := by
  unfold eraseAdd
  extract_lets x q d1
  split <;> rfl

theorem mediaErase_spec {d e : Dev} (he : e = mediaErase d) : e.med.mapu.map = [] ∧ e.med.copies = [] ∧ e.med.staged = [] ∧
    e.med.loose = [] ∧ e.med.sbs = [] ∧ e.med.openSb = [] ∧ e.med.jr.buf = [] ∧ e.med.doomed = [] := by
  obtain ⟨x, l, hfold, hmap, hcopies, hstaged, hloose, hsbs, hopen, hbuf, hdoomed⟩ : ∃ (x : Dev) (l : List (Nat × Blk)),
      mediaErase d = l.foldl (fun x q => eraseAdd (q.1 / 4096) (q.1 % 4096) x) x ∧ x.med.mapu.map = [] ∧ x.med.copies = [] ∧
      x.med.staged = [] ∧ x.med.loose = [] ∧ x.med.sbs = [] ∧ x.med.openSb = [] ∧ x.med.jr.buf = [] ∧ x.med.doomed = [] :=
    ⟨_, _, rfl, rfl, rfl, rfl, rfl, rfl, rfl, rfl, rfl⟩
  have hkept : e.besidesBlks = x.besidesBlks := by
    rw [he, hfold]
    exact foldl_keeps Dev.besidesBlks (fun x (q : Nat × Blk) => eraseAdd_besidesBlks (q.1 / 4096) (q.1 % 4096) x) l x
  exact ⟨(congrArg (·.mapu.map) hkept).trans hmap, (congrArg Media.copies hkept).trans hcopies, (congrArg Media.staged hkept).trans hstaged,
    (congrArg Media.loose hkept).trans hloose, (congrArg Media.sbs hkept).trans hsbs, (congrArg Media.openSb hkept).trans hopen,
    (congrArg (·.jr.buf) hkept).trans hbuf, (congrArg Media.doomed hkept).trans hdoomed⟩

theorem volCreate_known (d : Dev) : (volCreate d).med.volUnknown = false ∧ (volCreate d).med.volCreated = d.aff.mtime := ⟨rfl, rfl⟩

/-! Keys. -/

theorem kekEstablish_spec {d : Dev} {c : Src} {i : Nat} {msg : List Byte} (hup : adminUp c d = true) :
    ((hasCrypto d.fuse = false ∨ 15 < i) → kekEstablish c i msg d = adminDone c .invalidField 0 [] d) ∧
    (hasCrypto d.fuse = true → i ≤ 15 → kekEstablish c i msg d = adminDone c .success 0 []
      { d with sec := { d.sec with importKeks := tabPut d.sec.importKeks i (Config.ecdhKek msg) } }) :=
  ⟨fun h => (adminGate_up hup _).trans (if_pos (by simpa using h)),
    fun h hi => (adminGate_up hup _).trans (if_neg (by simp [h, Nat.not_lt.mpr hi]))⟩

theorem keyInject_range {d : Dev} {c : Src} {tag kek : Nat} {kwp : Bool} {w : List Byte} (hup : adminUp c d = true)
    (h : hasCrypto d.fuse = false ∨ 8191 < tag ∨ 15 < kek) : keyInject c tag kek kwp w d = adminDone c .invalidField 0 [] d :=
  (adminGate_up hup _).trans (if_pos (by simpa using h))

section
variable {d : Dev} {c : Src} {tag kek : Nat} {kwp : Bool} {w : List Byte} {s : Slot} (hup : adminUp c d = true) (hs : s = slotGet d.sec tag)
  (hcrypto : hasCrypto d.fuse = true) (htag : tag ≤ 8191) (hkek : kek ≤ 15)
include hup hs hcrypto htag hkek

theorem keyInject_foreign (hty : s.type ≠ 0) (hown : s.scope ≠ 2 ∨ s.kennel ≠ fnKennel d c.port c.fn) :
    keyInject c tag kek kwp w d = adminDone c .authority 0 [] d := by
  subst hs
  refine (adminGate_up hup _).trans ((if_neg ?_).trans (if_pos ⟨hty, hown⟩))
  rw [hcrypto]
  simp
  omega

variable (hown : s.type = 0 ∨ (s.scope = 2 ∧ s.kennel = fnKennel d c.port c.fn))
include hown

/-- An injection into a slot of the function's own: what is left are the wrapped key's checks. -/
theorem keyInject_own : keyInject c tag kek kwp w d =
    if !unwrapLenOk kwp w.length then adminDone c .invalidField 0 [] d
    else match ((tabGet d.sec.importKeks kek).bind (fun key => Config.unwrap kwp key w)).bind
        (unwrapSlot false tag (fnKennel d c.port c.fn)) with
      | none => adminDone c .invalidField 0 [] { d with hw := irq d.hw irqKv 1 }
      | some (type, km, scope, kn) => match slotLoad s type km scope kn with
        | none => adminDone c .keyExhausted 0 [] { d with hw := irq d.hw irqKv 5 }
        | some y => adminDone c .success 0 [] { d with sec := slotPut d.sec tag y } := by
  subst hs
  have hrange : ¬ ((!hasCrypto d.fuse) = true ∨ 8191 < tag ∨ 15 < kek) := by
    rw [hcrypto]
    simp
    omega
  refine (adminGate_up hup _).trans ((if_neg hrange).trans (if_neg ?_))
  rintro ⟨hty, hforeign⟩
  rcases hown with h | ⟨hsc, hk⟩
  · exact hty h
  · exact hforeign.elim (· hsc) (· hk)

variable (hlen : unwrapLenOk kwp w.length = true)
include hlen

theorem keyInject_notKey (h : ∀ key pt, tabGet d.sec.importKeks kek = some key → Config.unwrap kwp key w = some pt →
      unwrapSlot false tag (fnKennel d c.port c.fn) pt = none) :
    keyInject c tag kek kwp w d = adminDone c .invalidField 0 [] { d with hw := irq d.hw irqKv 1 } := by
  have hnone : ((tabGet d.sec.importKeks kek).bind (fun key => Config.unwrap kwp key w)).bind
      (unwrapSlot false tag (fnKennel d c.port c.fn)) = none := by
    cases hkey : tabGet d.sec.importKeks kek with
    | none => rfl
    | some key =>
      cases hpt : Config.unwrap kwp key w with
      | none => simp [hpt]
      | some pt => simp [hpt, h key pt hkey hpt]
  rw [keyInject_own hup hs hcrypto htag hkek hown, if_neg (by simp [hlen]), hnone]

theorem keyInject_key {key : BitVec 256} {pt : List Byte} {type scope kn : Nat} {km : BitVec 512}
    (hkey : tabGet d.sec.importKeks kek = some key) (hpt : Config.unwrap kwp key w = some pt)
    (hslot : unwrapSlot false tag (fnKennel d c.port c.fn) pt = some (type, km, scope, kn)) :
    (slotLoad s type km scope kn = none → keyInject c tag kek kwp w d = adminDone c .keyExhausted 0 [] { d with hw := irq d.hw irqKv 5 }) ∧
    (∀ y, slotLoad s type km scope kn = some y →
      keyInject c tag kek kwp w d = adminDone c .success 0 [] { d with sec := slotPut d.sec tag y }) := by
  have hbind : ((tabGet d.sec.importKeks kek).bind (fun key => Config.unwrap kwp key w)).bind
      (unwrapSlot false tag (fnKennel d c.port c.fn)) = some (type, km, scope, kn) := by
    rw [hkey, Option.bind_some, hpt, Option.bind_some, hslot]
  rw [keyInject_own hup hs hcrypto htag hkek hown, if_neg (by simp [hlen]), hbind]
  dsimp only
  exact ⟨fun h => by rw [h], fun y h => by rw [h]⟩

end

/-- Settles O52, each command by the lemmas on its outcomes. -/
theorem eraseAndKeyCommands : Obligations.EraseAndKeyCommands := by
  refine ⟨?_, fun d nsid lba n => nsWipe_conventional, fun d nsid n hz => if_pos hz, fun d x nsid n n1 => nsRekey_spec,
    fun d nsid n n1 => nsCrypto_eq, ?_, ?_, fun d e => mediaErase_spec, ?_, ?_, ?_, fun x type key scope kennel => ⟨fun h => if_pos h, fun h => if_neg h⟩⟩
  · intro d c nsid ses hup
    have hruns : ∀ {e : Dev}, formatNvm c nsid ses d = e → Runs (.formatNvm c nsid ses) d e :=
      fun he => Runs.of_does (exec_formatNvm c nsid ses) he
    refine ⟨fun h => hruns (formatNvm_invalid hup h), fun h hone hn => hruns (formatNvm_noNamespace hup h hone hn), fun ids hn hids =>
      ⟨fun hses => hruns (formatNvm_wipes hup hn hids hses), fun hses hcrypto hrnd => hruns ?_, fun hses hcrypto hrnd => hruns ?_⟩⟩
    · exact (formatNvm_crypto hup hn hids hses hcrypto).trans (if_pos hrnd)
    · exact (formatNvm_crypto hup hn hids hses hcrypto).trans (if_neg (by simp [hrnd]))
  · intro d c hup
    have hruns : ∀ {e : Dev}, sanitizeCrypto c d = e → Runs (.sanitizeCryptoErase c) d e := fun he => Runs.of_does (exec_sanitizeCryptoErase c) he
    refine ⟨fun h => hruns (sanitizeCrypto_noCrypto hup h), fun h hv => hruns (sanitizeCrypto_unknown hup h hv),
      fun h hv hrnd => hruns ?_, fun h hv hrnd => hruns ?_⟩
    · exact (sanitizeCrypto_known hup h hv).trans (if_pos hrnd)
    · exact (sanitizeCrypto_known hup h hv).trans (if_neg (by simp [hrnd]))
  · intro d x y c hup hx hy
    exact Runs.of_does (exec_sanitizeBlockErase c) (sanitizeBlock_spec hup hx hy)
  · rintro d e rfl
    obtain ⟨hten, hformatted, hgen, -⟩ := volCreate_spec d
    refine ⟨hformatted, (volCreate_known d).1, hgen, (volCreate_known d).2, by rw [hten], fun q hq => ?_⟩
    rw [hten] at hq
    obtain ⟨p, -, rfl⟩ := List.mem_map.mp hq
    rfl
  · intro d c i msg hup
    obtain ⟨hbad, hok⟩ := kekEstablish_spec (c := c) (i := i) (msg := msg) hup
    have hexec := exec_kekEstablishment c i msg
    exact ⟨fun h => Runs.of_does hexec (hbad h), fun h hi => Runs.of_does hexec (hok h hi)⟩
  · intro d c tag kek kwp w s hup hs
    have hruns : ∀ {e : Dev}, keyInject c tag kek kwp w d = e → Runs (.keyInjection c tag kek kwp w) d e :=
      fun he => Runs.of_does (exec_keyInjection c tag kek kwp w) he
    refine ⟨fun h => hruns (keyInject_range hup h), fun hc ht hk hty hown => hruns (keyInject_foreign hup hs hc ht hk hty hown),
      fun hc ht hk hown hlen => hruns ?_, fun hc ht hk hown hlen h => hruns (keyInject_notKey hup hs hc ht hk hown hlen h),
      fun key pt type km scope kn hc ht hk hown hlen hkey hpt hslot => ?_⟩
    · exact (keyInject_own hup hs hc ht hk hown).trans (if_pos (by simp [hlen]))
    · obtain ⟨hnone, hsome⟩ := keyInject_key hup hs hc ht hk hown hlen hkey hpt hslot
      exact ⟨fun h => hruns (hnone h), fun y h => hruns (hsome y h)⟩

end Sys2Proof.Machine
end

section
/-!
PROOFS. The map journal, its flushes, and recovery.
-/

namespace Sys2Proof.Machine

/-! What recovery leaves alone: its own mark, the image of the dump, and which namespaces there are. -/

/-- Whether recovery has ended, the image on media, and the identifiers of the namespaces. -/
def Dev.marks (d : Dev) : Bool × Image × List Nat := (d.med.recovered, d.med.image, d.ten.namespaces.map Prod.fst)

theorem tabGet_isSome {α : Type} (t : List (Nat × α)) (k : Nat) : (tabGet t k).isSome = (t.map Prod.fst).contains k := by
  induction t with
  | nil => rfl
  | cons q t ih =>
    obtain ⟨j, v⟩ := q
    rw [tabGet, List.map_cons, List.contains_cons, ← ih]
    by_cases h : j = k
    · simp [h]
    · simp [h, Ne.symm h]

theorem nsGet_isSome_of_marks {d e : Dev} (h : e.marks = d.marks) (n : Nat) : (nsGet e n).isSome = (nsGet d n).isSome := by
  simp only [Dev.marks, Prod.mk.injEq] at h
  rw [nsGet, nsGet, tabGet_isSome, tabGet_isSome, h.2.2]

theorem marks_of_med_ten {d e : Dev} (hmed : e.med = d.med) (hten : e.ten = d.ten) : e.marks = d.marks := by
  rw [Dev.marks, hmed, hten, Dev.marks]

/-! Blocks, jobs and rows. -/

theorem jobAdd_marks (die : Nat) (serves : JobFor) (erase slc : Bool) (block wl : Nat) (d : Dev) :
    (jobAdd die serves erase slc block wl d).marks = d.marks := rfl

theorem eraseAdd_marks (die b : Nat) (d : Dev) : (eraseAdd die b d).marks = d.marks := by
  unfold eraseAdd
  extract_lets x q d1
  split <;> rfl

theorem fdpCount_marks (h m s : Nat) (d : Dev) : (fdpCount h m s d).marks = d.marks := by
  unfold fdpCount
  split <;> rfl

theorem sbErase_marks (n : Nat) (d : Dev) : (sbErase n d).marks = d.marks := by
  unfold sbErase
  split
  · rfl
  · rename_i s _
    extract_lets keep lost counted media d1
    have hd1 : d1.marks = d.marks := by
      have hcounted : counted.marks = d.marks := fdpCount_marks 0 0 (sbUnits d s) d
      simp only [Dev.marks, Prod.mk.injEq] at hcounted ⊢
      exact ⟨rfl, rfl, hcounted.2.2⟩
    exact (foldl_keeps Dev.marks (fun x (q : Nat × Nat) => eraseAdd_marks q.1 q.2 x) (sbBlocks s) d1).trans hd1

theorem rowJobs_marks (id row : Nat) (s : Sb) (d : Dev) : (rowJobs id row s d).marks = d.marks := by
  unfold rowJobs
  exact foldl_keeps Dev.marks (fun d i => jobAdd_marks ..) _ d

theorem pilotJobs_marks (id : Nat) (s : Sb) (d : Dev) : (pilotJobs id s d).marks = d.marks := by
  unfold pilotJobs
  exact foldl_keeps Dev.marks (fun d q => jobAdd_marks ..) _ d

theorem rowsQueue_marks (id n : Nat) (d : Dev) : (rowsQueue id n d).marks = d.marks := by
  induction n generalizing d with
  | zero => rfl
  | succ n ih =>
    rw [rowsQueue]
    split
    · rfl
    · dsimp only
      split
      · exact (ih _).trans (rowJobs_marks ..)
      · rfl

theorem rowReady_marks (id k : Nat) (d : Dev) : (rowReady id k d).marks = d.marks := by
  unfold rowReady
  split
  · rfl
  · extract_lets row n s1 d1
    refine (rowsQueue_marks ..).trans ?_
    change d1.marks = d.marks
    unfold d1
    split
    · exact pilotJobs_marks ..
    · rfl

theorem sbPlace_marks (sb : Nat) (c : Copy) (d : Dev) : (sbPlace sb c d).marks = d.marks := by
  unfold sbPlace
  split <;> rfl

theorem jobsMove_marks (die sb i : Nat) (dst : Nat × Nat) (d : Dev) : (jobsMove die sb i dst d).marks = d.marks := by
  unfold jobsMove
  exact foldl_keeps Dev.marks (fun y j => jobAdd_marks ..) _ _

theorem memberReplace_marks (sb i row oldDie oldBlk : Nat) (dst : Nat × Nat) (d : Dev) :
    (memberReplace sb i row oldDie oldBlk dst d).marks = d.marks := by
  unfold memberReplace
  split
  · rfl
  · exact jobsMove_marks ..

theorem pilotsMend_marks (d : Dev) : (pilotsMend d).marks = d.marks := by
  unfold pilotsMend
  refine foldl_keeps Dev.marks (fun x q => ?_) _ d
  extract_lets die b x1
  have hx1 : x1.marks = x.marks := eraseAdd_marks ..
  split
  · exact hx1
  · split
    · exact (memberReplace_marks ..).trans hx1
    · exact hx1

theorem rowsRecover_marks (id : Nat) (s : Sb) (d : Dev) : (rowsRecover id s d).marks = d.marks := by
  unfold rowsRecover
  extract_lets per top rows has d0
  split
  · rfl
  · split
    · rfl
    · refine Eq.trans (foldl_keeps Dev.marks (fun x r => ?_) rows d0) rfl
      dsimp only
      split
      · rfl
      · split
        · rfl
        · exact rowsQueue_marks ..

/-! Superblocks open. -/

theorem floorCheck_marks (p : Nat) (d : Dev) : (floorCheck p d).marks = d.marks := by
  unfold floorCheck
  split
  · rfl
  · extract_lets h hit ids ns zs
    have hnames : ns.map Prod.fst = d.ten.namespaces.map Prod.fst := by
      rw [List.map_map]
      refine List.map_congr_left fun q _ => ?_
      dsimp only [Function.comp]
      split <;> rfl
    exact congrArg (fun l => (d.med.recovered, d.med.image, l)) hnames

theorem takeBlocks_marks (reserve : Bool) (ns : List Nat) (d : Dev) : (takeBlocks reserve ns d).2.marks = d.marks := by
  induction ns generalizing d with
  | nil => rfl
  | cons n ns ih =>
    rw [takeBlocks]
    split
    · exact ih d
    · exact ih _

theorem openBlocks_marks (id : Nat) (s : Sb) (d : Dev) : (openBlocks id s d).marks = d.marks := by
  unfold openBlocks
  refine foldl_keeps Dev.marks (fun d i => ?_) _ d
  rfl

theorem sbOpenIn_marks {type nsid kennel pack w zslba handle source : Nat} {set : Nat × List Nat} {d : Dev} {r : Nat × Dev}
    (h : sbOpenIn type nsid kennel pack w zslba handle source set d = some r) : r.2.marks = d.marks := by
  unfold sbOpenIn at h
  extract_lets t q zcap blank s d1 at h
  split at h
  · cases h
  · obtain rfl := Option.some.inj h
    have hd1 : d1.marks = d.marks := (openBlocks_marks q.1 s (sbPut q.2 q.1 s)).trans (takeBlocks_marks ..)
    dsimp only
    split
    · exact hd1
    · exact (foldl_keeps Dev.marks (fun d p => floorCheck_marks p d) _ d1).trans hd1

theorem sbOpen_marks {type nsid kennel pack w zslba handle source : Nat} {d : Dev} {r : Nat × Dev}
    (h : sbOpen type nsid kennel pack w zslba handle source d = some r) : r.2.marks = d.marks := by
  obtain ⟨set, -, hset⟩ := Option.bind_eq_some_iff.mp h
  exact sbOpenIn_marks hset

/-! Parking. -/

theorem parkTarget_marks {s : Sb} {d : Dev} {r : Nat × Dev} (h : parkTarget s d = some r) : r.2.marks = d.marks := by
  unfold parkTarget at h
  split at h
  · obtain rfl := Option.some.inj h
    rfl
  · obtain ⟨set, -, hset⟩ := Option.bind_eq_some_iff.mp h
    obtain ⟨q, hq, rfl⟩ := Option.map_eq_some_iff.mp hset
    have hset : q.2.marks = d.marks := sbOpenIn_marks hq
    exact hset

theorem parkShut_marks (s : Sb) (id : Nat) (d : Dev) : (parkShut s id d).marks = d.marks := by
  unfold parkShut
  extract_lets full
  split <;> rfl

theorem parkPlace_marks (s : Sb) (cs : List Copy) (d : Dev) : (parkPlace s cs d).2.marks = d.marks := by
  induction cs generalizing d with
  | nil => rfl
  | cons c cs ih =>
    rw [parkPlace]
    split
    · rfl
    · rename_i id d1 ht
      exact (ih _).trans ((parkShut_marks ..).trans ((rowReady_marks ..).trans ((sbPlace_marks ..).trans (parkTarget_marks ht))))

theorem parkPad_marks (id f : Nat) (d : Dev) : (parkPad id f d).marks = d.marks := by
  induction f generalizing d with
  | zero => rfl
  | succ f ih =>
    rw [parkPad]
    split
    · rfl
    · split
      · rfl
      · exact (ih _).trans ((rowReady_marks ..).trans (sbPlace_marks ..))

theorem parkClose_marks (s : Sb) (d : Dev) : (parkClose s d).marks = d.marks := by
  unfold parkClose
  split
  · exact (parkShut_marks ..).trans (parkPad_marks ..)
  · rfl

theorem parkRelocate_marks (id nsid lo n : Nat) (d : Dev) : (parkRelocate id nsid lo n d).marks = d.marks := by
  unfold parkRelocate
  split
  · rfl
  · rename_i s _
    extract_lets live r gone media
    split
    · rfl
    · exact (parkClose_marks ..).trans (Eq.trans rfl (parkPlace_marks s (live.map (fun q => q.2)) d))

theorem parkSweep_marks (d : Dev) : (parkSweep d).marks = d.marks := by
  unfold parkSweep
  exact foldl_keeps Dev.marks (fun d q => sbErase_marks ..) _ d

/-! The dump is restored. -/

theorem dumpPark_marks {key : Option Nat} {group : Nat} {c : Copy} {d e : Dev} (h : dumpPark key group c d = some e) : e.marks = d.marks := by
  unfold dumpPark at h
  obtain ⟨t, ht, rfl⟩ := Option.map_eq_some_iff.mp h
  extract_lets k d2
  have hd2 : d2.marks = d.marks := (parkPlace_marks ..).trans (parkTarget_marks ht)
  split <;> exact hd2

theorem dumpPark_getD_marks (key : Option Nat) (group : Nat) (c : Copy) (d : Dev) : ((dumpPark key group c d).getD d).marks = d.marks := by
  cases h : dumpPark key group c d with
  | none => rfl
  | some e => exact dumpPark_marks h

theorem movesRecover_marks (d : Dev) : (movesRecover d).marks = d.marks := by
  unfold movesRecover
  extract_lets live tgts
  refine foldl_keeps Dev.marks (fun x t => ?_) tgts d
  extract_lets only x1 src e queued
  have hx1 : x1.marks = x.marks := by
    refine foldl_keeps Dev.marks (fun y q => ?_) only x
    split
    · rfl
    · exact dumpPark_getD_marks ..
  refine (sbErase_marks ..).trans ?_
  split <;> exact hx1

theorem dumpRestore_marks (zs : List (Nat × Zone)) (dump : List (Nat × Copy)) (loose : List Loose) (d : Dev) :
    (dumpRestore zs dump loose d).marks = d.marks := by
  unfold dumpRestore
  extract_lets keep med d1 d2 d3
  have hd2 : d2.marks = d.marks := by
    refine (movesRecover_marks _).trans (Eq.trans (foldl_keeps Dev.marks (fun x q => ?_) dump d1) rfl)
    split
    · rfl
    · exact dumpPark_getD_marks ..
  have hd3 : d3.marks = d2.marks := by
    refine foldl_keeps Dev.marks (fun x u => ?_) loose d2
    split
    · rename_i y hy
      exact dumpPark_marks hy
    · rfl
  exact (foldl_keeps Dev.marks (fun x q => parkPad_marks ..) _ d3).trans (hd3.trans hd2)

/-! Secure resets go on. -/

theorem gcTarget_marks {p w nsid source : Nat} {d : Dev} {r : Nat × Dev} (h : gcTarget p w nsid source d = some r) : r.2.marks = d.marks := by
  unfold gcTarget at h
  split at h
  · obtain rfl := Option.some.inj h
    rfl
  · split at h
    · cases h
    · rename_i s d1 hopen
      obtain rfl := Option.some.inj h
      have hd1 : d1.marks = d.marks := sbOpen_marks hopen
      exact hd1

theorem evacuate_marks (id : Nat) (d : Dev) : (evacuate id d).marks = d.marks := by
  unfold evacuate
  split
  · rfl
  · rename_i s _
    refine foldl_keeps Dev.marks (fun x u => ?_) _ d
    split
    · rfl
    · rename_i t x1 ht
      have hx1 : x1.marks = x.marks := gcTarget_marks ht
      extract_lets c
      generalize c = copy
      rcases copy with _ | c
      · exact hx1
      · exact Eq.trans rfl ((rowReady_marks ..).trans ((sbPlace_marks ..).trans hx1))

theorem secDetach_marks (id : Nat) (d : Dev) : (secDetach id d).marks = d.marks := rfl

theorem secBegin_marks (o : SecOp) (d : Dev) : (secBegin o d).2.marks = d.marks := by
  unfold secBegin
  extract_lets o0 r
  refine List.foldlRecOn (motive := fun (b : List Nat × List (Nat × Nat) × Dev) => b.2.2.marks = d.marks) o0.sbs _ rfl fun b hb id _ => ?_
  split
  · exact hb
  · rename_i s _
    extract_lets d0 d1
    have hd1 : d1.marks = d.marks := by
      have hd0 : d0.marks = d.marks := hb
      unfold d1
      split
      · exact (parkRelocate_marks ..).trans hd0
      · split
        · exact hd0
        · exact (evacuate_marks ..).trans hd0
    split
    · exact hd1
    · exact (sbErase_marks ..).trans hd1

theorem secAdvance_marks (d : Dev) : (secAdvance d).marks = d.marks := by
  unfold secAdvance
  extract_lets r
  have hr : r.2.marks = d.marks := by
    refine List.foldlRecOn (motive := fun (b : List SecOp × Dev) => b.2.marks = d.marks) d.med.secure _ rfl fun b hb o _ => ?_
    split
    · exact hb
    · exact (secBegin_marks o b.2).trans hb
  exact hr

/-! The journal and the volume's replicas. -/

theorem sjPut_marks (type key : Nat) (p : List Byte) (d : Dev) : (sjPut type key p d).marks = d.marks := by
  rw [sjPut_frame]
  rfl

theorem pairOpen_marks (d : Dev) : (pairOpen d).marks = d.marks := sjPut_marks ..

theorem pairsOpen_marks (n : Nat) (d : Dev) : (pairsOpen n d).marks = d.marks := by
  induction n generalizing d with
  | zero => rfl
  | succ n ih => exact (ih (pairOpen d)).trans (pairOpen_marks d)

theorem jTail_marks (d : Dev) : (jTail d).marks = d.marks := by
  unfold jTail
  split <;> rfl

theorem jFlush_marks (d : Dev) : (jFlush d).marks = d.marks := by
  unfold jFlush
  split
  · rfl
  · split
    · exact (pairsOpen_marks ..).trans (jTail_marks _)
    · exact pairsOpen_marks ..

theorem volBlock_marks {die b : Nat} {d e : Dev} (h : volBlock die d = some (b, e)) : e.marks = d.marks := by
  obtain ⟨k, -, hk⟩ := Option.map_eq_some_iff.mp h
  obtain ⟨-, rfl⟩ := Prod.mk.inj hk
  rfl

theorem replicaWrite_marks (p i : Nat) (d : Dev) : (replicaWrite p i d).marks = d.marks := by
  unfold replicaWrite
  extract_lets k g new old
  split
  · rfl
  · rename_i die _
    split
    · rfl
    · split
      · rfl
      · rename_i b d1 hb
        have hd1 : d1.marks = d.marks := volBlock_marks hb
        have hnew : (new die b 1 d1).marks = d.marks := hd1
        generalize old = replaced
        rcases replaced with _ | r
        · exact hnew
        · exact (eraseAdd_marks ..).trans hnew

theorem volMend_marks (d : Dev) : (volMend d).marks = d.marks := by
  unfold volMend
  split
  · refine foldl_keeps Dev.marks (fun x p => foldl_keeps Dev.marks (fun y i => ?_) _ x) _ d
    unfold replicaMend
    split
    · split
      · rfl
      · exact replicaWrite_marks ..
    · exact replicaWrite_marks ..
  · rfl

/-! Zones bind anew. -/

theorem zoneSet_marks (zk : Nat) (z : Zone) (d : Dev) : (zoneSet zk z d).marks = d.marks := by
  unfold zoneSet
  split <;> rfl

theorem zoneBind_marks (zk : Nat) (d : Dev) : (zoneBind zk d).marks = d.marks := by
  unfold zoneBind
  split
  · rfl
  · dsimp only
    split
    · exact zoneSet_marks ..
    · rename_i id d1 hopen
      exact (zoneSet_marks ..).trans (sbOpen_marks hopen)

theorem zoneRebind_marks (d : Dev) (q : Nat × Zone) : (zoneRebind d q).marks = d.marks := by
  unfold zoneRebind
  split
  · exact zoneBind_marks ..
  · rfl

theorem strayErase_marks (d : Dev) : (strayErase d).marks = d.marks := by
  unfold strayErase
  exact foldl_keeps Dev.marks (fun d q => sbErase_marks ..) _ d

/-! Recovery ends. -/

/-- Recovery's end marks it, and drops the dump's image. -/
theorem recResume_ends (d : Dev) : (recResume d).med.recovered = true ∧ (recResume d).med.image.dump = [] ∧
    (recResume d).ten.namespaces.map Prod.fst = d.ten.namespaces.map Prod.fst := by
  unfold recResume
  extract_lets again d1 med image d2 d2a d3 n h
  have hd1 : d1.marks = d.marks := foldl_keeps Dev.marks (fun x q => jobAdd_marks ..) again d
  have hd2 : d2.marks = (true, { image with dump := [], loose := [], dumped := false }, d1.ten.namespaces.map Prod.fst) := secAdvance_marks _
  have hd2a : d2a.marks = d2.marks := by
    unfold d2a
    split <;> rfl
  have hd3 : d3.marks = d2a.marks := by
    unfold d3
    split <;> rfl
  have hend : (jFlush (volMend { d3 with hw := h })).marks = d3.marks := (jFlush_marks _).trans ((volMend_marks _).trans rfl)
  have hall := hend.trans (hd3.trans (hd2a.trans hd2))
  simp only [Dev.marks, Prod.mk.injEq] at hall hd1
  exact ⟨hall.1, by rw [hall.2.1], hall.2.2.trans hd1.2.2⟩

theorem mapRecoverFrom_unknown {d : Dev} (h : d.med.volUnknown = true) : (mapRecoverFrom d).ten.namespaces = [] ∧
    (mapRecoverFrom d).ten.zones = [] ∧ (mapRecoverFrom d).med.recovered = true := by
  have heq : mapRecoverFrom d = evFree 0 0 { d with ten := { d.ten with namespaces := [], zones := [], nsBind := [] }
                                                    med := { d.med with recovered := true } } := if_pos h
  rw [heq]
  exact ⟨rfl, rfl, rfl⟩

theorem mapRecoverFrom_known {d : Dev} (h : d.med.volUnknown = false) : (mapRecoverFrom d).med.recovered = true ∧
    (mapRecoverFrom d).med.image.dump = [] ∧ (mapRecoverFrom d).med.mapu.st ≠ 1 ∧
    ∀ n, (nsGet (mapRecoverFrom d) n).isSome = (nsGet d n).isSome := by
  unfold mapRecoverFrom
  rw [if_neg (by simp [h])]
  extract_lets zs dw keep map ten med mapu d1 d2 dp d3 d4
  have hd2 : d2.marks = d.marks := (dumpRestore_marks ..).trans rfl
  have hdp : dp.marks = d2.marks := pilotsMend_marks d2
  have hd3 : d3.marks = dp.marks := foldl_keeps Dev.marks (fun x q => rowsRecover_marks ..) _ dp
  have hzones : (zs.foldl zoneRebind (parkSweep (strayErase d3))).marks = d3.marks :=
    (foldl_keeps Dev.marks zoneRebind_marks zs _).trans ((parkSweep_marks _).trans (strayErase_marks d3))
  have hkept := hzones.trans (hd3.trans (hdp.trans hd2))
  simp only [Dev.marks, Prod.mk.injEq] at hkept
  obtain ⟨hrec, hdump, hnames⟩ := recResume_ends (zs.foldl zoneRebind (parkSweep (strayErase d3)))
  refine ⟨hrec, hdump, ?_, fun n => ?_⟩
  · change (if d4.med.mapu.st = 1 then 2 else d4.med.mapu.st) ≠ 1
    split
    · decide
    · assumption
  · change (tabGet d4.ten.namespaces n).isSome = (tabGet d.ten.namespaces n).isSome
    rw [tabGet_isSome, tabGet_isSome, hnames, hkept.2.2]

/-! A flush starts. -/

/-- What a flush fixes, and the image it will leave: the opening of a lane pair leaves it alone. -/
def Dev.flushed (d : Dev) : Option (List JRec) × List JRec × DWord × List JBody × List JRec × List (Nat × JBody) × List (Nat × JBody) ×
    Nat × Image :=
  (d.med.jr.flushing, d.med.jr.buf, d.med.jr.flushAt, d.med.jr.carry, d.med.jr.media, d.med.jr.words, d.med.jr.pend, d.med.jr.j, d.med.snap)

theorem pairOpen_flushed (d : Dev) : (pairOpen d).flushed = d.flushed := by
  have hsj : ∀ (type key : Nat) (p : List Byte) (e : Dev), (sjPut type key p e).flushed = e.flushed := fun type key p e => by
    rw [Dev.flushed, sjPut_med, Dev.flushed]
  exact (hsj ..).trans rfl

theorem pairsOpen_flushed (n : Nat) (d : Dev) : (pairsOpen n d).flushed = d.flushed := by
  induction n generalizing d with
  | zero => rfl
  | succ n ih => exact (ih (pairOpen d)).trans (pairOpen_flushed d)

theorem jStart_spec (d : Dev) (rs keep : List JRec) : (jStart rs keep d).med.jr.flushing = some rs ∧ (jStart rs keep d).med.jr.buf = keep ∧
    (jStart rs keep d).med.jr.flushAt = d.hw.time ∧ (jStart rs keep d).med.jr.carry = [] ∧
    (jStart rs keep d).med.jr.media = d.med.jr.media ∧ (jStart rs keep d).med.jr.words = d.med.jr.words ∧
    (jStart rs keep d).med.jr.pend = (flushBodies d rs).zipIdx.map (fun q => (d.med.jr.j + q.2, q.1)) ∧
    (jStart rs keep d).med.jr.j = d.med.jr.j + (flushBodies d rs).length ∧
    (jStart rs keep d).med.snap = { zones := d.ten.zones, map := d.med.mapu.map, dump := [], loose := [], dumped := false } := by
  have hstart : (jStart rs keep d).flushed = (some rs, keep, d.hw.time, [], d.med.jr.media, d.med.jr.words,
      (flushBodies d rs).zipIdx.map (fun q => (d.med.jr.j + q.2, q.1)), d.med.jr.j + (flushBodies d rs).length,
      { zones := d.ten.zones, map := d.med.mapu.map, dump := [], loose := [], dumped := false }) := pairsOpen_flushed ..
  simpa only [Dev.flushed, Prod.mk.injEq] using hstart

theorem jFlush_room {d : Dev} (h : d.med.jr.flushing = none) (hroom : jRoomless d = false) : jFlush d = jStart d.med.jr.buf [] d :=
  (if_neg (by simp [h])).trans (if_neg (by simp [hroom]))

theorem jFlush_roomless {d : Dev} (h : d.med.jr.flushing = none) (hroom : jRoomless d = true) :
    jFlush d = jStart [] d.med.jr.buf (jTail { d with hw := if hasMapu d.fuse then irq d.hw irqMapu 6 else d.hw }) :=
  (if_neg (by simp [h])).trans (if_pos hroom)

theorem jTimed_eq {d : Dev} {n : Nat} (hn : n = fld (rd d.hw R.MAPU_JCTRL) 0 16) :
    jTimed d = if n = 0 ∨ d.hw.time.toNat < d.med.jr.flushAt.toNat + n * 25000 then d else jFlush d := by
  subst hn
  exact if_congr (by simp) rfl rfl

theorem ckptRecs_spec (d : Dev) : ∃ n,
    ({ type := 0x10, flags := 0, nsid := 0, count := n, a := tailJ d.med.jr, b := d.med.seqNext, seq := 0 } : JRec) ∈ ckptRecs d ∧
    (∀ q ∈ d.med.sbs, q.2.closed = false →
      ({ type := 0x11, flags := 0, nsid := 0, count := q.2.dieSet, a := q.1, b := q.2.nextK, seq := 0 } : JRec) ∈ ckptRecs d) ∧
    ∀ i < 32 * chCount d.fuse, dieFitted d i = true → jrResv d i ∈ ckptRecs d := by
  refine ⟨_, List.mem_cons_self, fun q hq hopen => ?_, fun i hi hfit => ?_⟩
  · refine List.mem_cons_of_mem _ (List.mem_append_left _ (List.mem_map.mpr ⟨q, List.mem_filter.mpr ⟨hq, ?_⟩, rfl⟩))
    simp [hopen]
  · exact List.mem_cons_of_mem _ (List.mem_append_right _ (List.mem_map.mpr
      ⟨i, List.mem_filter.mpr ⟨List.mem_range.mpr hi, hfit⟩, rfl⟩))

/-! A flush is complete. -/

/-- The device when a flush's records are on media, before the erases and the reclaim that follow. -/
def flushDone (rs : List JRec) (d : Dev) : Dev :=
  { d with
    hw := md (md d.hw R.MAPU_JSTAT (fun w => putFld w 0 16 (min 0xFFFF ((d.hw.time.toNat - d.med.jr.flushAt.toNat) / 250))))
      R.MAPU_CTRL (fun w => clrBit w 2)
    med := { d.med with
      image := d.med.snap
      jr := { d.med.jr with
        flushing := none, pend := [], media := d.med.jr.media ++ rs, onMedia := d.med.jr.onMedia + rs.length
        old := d.med.jr.old.drop d.med.jr.oldAt, oldAt := 0
        words := (d.med.jr.words ++ d.med.jr.pend).filter (fun w => !(d.med.jr.old.take d.med.jr.oldAt).any (fun q =>
          pairHolds (prof d) q w.1)) } }
    fl := { d.fl with dies := d.fl.dies.map (fun q => (q.1, { q.2 with resv := 14 })) } }

theorem jComplete_eq {d : Dev} {rs : List JRec} (h : d.med.jr.flushing = some rs) :
    jComplete d = jReclaim (doomCheck ((d.med.jr.old.take d.med.jr.oldAt).foldl pairErase (flushDone rs d))) := by
  unfold jComplete
  rw [h]
  rfl

theorem jComplete_idle {d : Dev} (h : d.med.jr.flushing = none) : jComplete d = d := by
  unfold jComplete
  rw [h]

theorem dieGet_flushDone {d : Dev} {rs : List JRec} {n : Nat} (h : (dieGet d n).resv = 14) : dieGet (flushDone rs d) n = dieGet d n := by
  have hdie : tabGet (flushDone rs d).fl.dies n = (tabGet d.fl.dies n).map fun v => { v with resv := 14 } :=
    tabGet_mapVal (f := fun (q : Nat × Die) => (q.1, ({ q.2 with resv := 14 } : Die))) (fun q => rfl) d.fl.dies n
  rw [dieGet, tabGetD, hdie]
  rw [dieGet, tabGetD] at h ⊢
  cases hget : tabGet d.fl.dies n with
  | none => rfl
  | some v =>
    rw [hget] at h
    have hv : v.resv = 14 := h
    dsimp only [Option.map, Option.getD]
    rw [← hv]

theorem flushDone_ctrl (rs : List JRec) (d : Dev) : bit (rd (flushDone rs d).hw R.MAPU_CTRL) 2 = false := by
  have hctrl : rd (flushDone rs d).hw R.MAPU_CTRL = clrBit (rd (md d.hw R.MAPU_JSTAT (fun w => putFld w 0 16
      (min 0xFFFF ((d.hw.time.toNat - d.med.jr.flushAt.toNat) / 250)))) R.MAPU_CTRL) 2 := rd_wr_same ..
  rw [hctrl, bit_clrBit _ _ _ (by decide)]
  simp

theorem flushDone_stat (rs : List JRec) (d : Dev) : fld (rd (flushDone rs d).hw R.MAPU_JSTAT) 0 16 =
    min 0xFFFF ((d.hw.time.toNat - d.med.jr.flushAt.toNat) / 250) := by
  have hstat : rd (flushDone rs d).hw R.MAPU_JSTAT = putFld (rd d.hw R.MAPU_JSTAT) 0 16
      (min 0xFFFF ((d.hw.time.toNat - d.med.jr.flushAt.toNat) / 250)) := (rd_wr_other _ _ _ _ (by decide)).trans (rd_wr_same ..)
  rw [hstat, fld_putFld_same _ _ _ _ (by decide) (by omega)]

/-! The newest whole replica. -/

/-- Replica `q` is not newer than `r`. -/
def Replica.upTo (q r : Replica) : Prop := q.created < r.created ∨ (q.created = r.created ∧ q.gen ≤ r.gen)

theorem Replica.upTo_trans {p q r : Replica} (h : p.upTo q) (h' : q.upTo r) : p.upTo r := by
  unfold Replica.upTo at *
  omega

/-- The newer of the replicas so far and the next. -/
def newerReplica (b : Option Replica) (r : Replica) : Option Replica :=
  match b with
  | none => some r
  | some c => if c.created < r.created ∨ (c.created = r.created ∧ c.gen < r.gen) then some r else b

theorem volCurrent_eq (d : Dev) : volCurrent d = ((d.med.replicas.map (fun q => q.2)).filter (replicaOk d)).foldl newerReplica none := rfl

theorem newest_some {l : List Replica} {c r : Replica} (h : l.foldl newerReplica (some c) = some r) :
    (r = c ∨ r ∈ l) ∧ c.upTo r ∧ ∀ q ∈ l, q.upTo r := by
  induction l generalizing c with
  | nil =>
    obtain rfl := Option.some.inj h
    exact ⟨.inl rfl, .inr ⟨rfl, Nat.le_refl _⟩, fun q hq => (nomatch hq)⟩
  | cons a l ih =>
    rw [List.foldl_cons, newerReplica] at h
    split at h
    · next hnew =>
      obtain ⟨hmem, hup, hall⟩ := ih h
      have hca : c.upTo a := by unfold Replica.upTo; omega
      refine ⟨.inr (List.mem_cons.mpr hmem), Replica.upTo_trans hca hup, fun q hq => ?_⟩
      obtain rfl | hq := List.mem_cons.mp hq
      · exact hup
      · exact hall q hq
    · next hold =>
      obtain ⟨hmem, hup, hall⟩ := ih h
      have hac : a.upTo c := by unfold Replica.upTo; omega
      refine ⟨hmem.imp_right (List.mem_cons_of_mem a), hup, fun q hq => ?_⟩
      obtain rfl | hq := List.mem_cons.mp hq
      · exact Replica.upTo_trans hac hup
      · exact hall q hq

theorem newest_spec {l : List Replica} {r : Replica} (h : l.foldl newerReplica none = some r) : r ∈ l ∧ ∀ q ∈ l, q.upTo r := by
  cases l with
  | nil => cases h
  | cons a l =>
    obtain ⟨hmem, hup, hall⟩ := newest_some h
    refine ⟨List.mem_cons.mpr hmem, fun q hq => ?_⟩
    obtain rfl | hq := List.mem_cons.mp hq
    · exact hup
    · exact hall q hq

theorem volCurrent_newest {d : Dev} {r : Replica} (h : volCurrent d = some r) : replicaOk d r = true ∧
    ∀ q ∈ d.med.replicas, replicaOk d q.2 = true → q.2.upTo r := by
  rw [volCurrent_eq] at h
  obtain ⟨hmem, hall⟩ := newest_spec h
  exact ⟨(List.mem_filter.mp hmem).2, fun q hq hok => hall q.2 (List.mem_filter.mpr ⟨List.mem_map_of_mem hq, hok⟩)⟩

theorem volTake_some {d : Dev} {r : Replica} (h : volCurrent d = some r) : (volTake d).med.volGen = r.gen ∧
    (volTake d).med.volCreated = r.created ∧ (volTake d).med.volUuid = r.uuid ∧ (volTake d).med.volume = r.volume := by
  unfold volTake
  rw [h]
  exact ⟨rfl, rfl, rfl, rfl⟩

theorem volTake_none {d : Dev} (h : volCurrent d = none) : volTake d = d := by
  unfold volTake
  rw [h]

/-- Settles O38: the flush by `jStart_spec` and `jComplete_eq`, recovery by what each of its parts leaves of the marks. -/
theorem journalCommands : Obligations.JournalCommands := by
  refine ⟨fun d n hn => Runs.of_does exec_journalFlushInterval (jTimed_eq hn), fun d rs h => if_pos (by simp [h]), fun d => jFlush_room,
    fun d => jFlush_roomless, jStart_spec, fun d rs => rfl, ckptRecs_spec,
    fun d h => Runs.of_does exec_journalFlushComplete (jComplete_idle h), fun d rs h => ?_, ?_, fun d h => ?_, fun d hrec hcore => ?_,
    fun d => volTake_none, fun d r h => ?_, fun d => mapRecoverFrom_unknown, fun d => mapRecoverFrom_known⟩
  · refine ⟨flushDone rs d, Runs.of_does exec_journalFlushComplete (jComplete_eq h), rfl, rfl, fun q hq => ?_, fun n => dieGet_flushDone,
      flushDone_ctrl rs d, flushDone_stat rs d⟩
    obtain ⟨p, -, rfl⟩ := List.mem_map.mp hq
    rfl
  · rintro d f rfl
    rfl
  · exact Runs.of_does exec_mapRecovery (if_pos (by simpa using h))
  · exact Runs.of_does exec_mapRecovery (if_neg (by simp [hrec, hcore]))
  · obtain ⟨hgen, hcreated, huuid, hvolume⟩ := volTake_some h
    obtain ⟨hok, hall⟩ := volCurrent_newest h
    exact ⟨hgen, hcreated, huuid, hvolume, hok, hall⟩

end Sys2Proof.Machine
end
